-- ==== Sys2Proof/Word.lean ====
section
/-! DEFINITION. The words the block works with: 8-bit bytes, 32-bit register words, and device time. -/
namespace Sys2Proof

/-- A byte, as it stands in a buffer, a frame or a non-volatile memory. -/
abbrev Byte := BitVec 8

/-- A register word of BAR0 (R8), and the carrier of an IEEE 754 binary32 value (R3). -/
abbrev Word := BitVec 32

/-- Device time (R6) as one number: TAI in units of 2^-16 ns, so that seconds, nanoseconds and the 16-bit fraction are
the quotients and remainders by 65,536,000,000,000 and 65,536. -/
abbrev Time := Nat

end Sys2Proof
end

