-- ==== Sys2Proof/Syntax.lean ====
section
/-! DEFINITION. The commands of the block: one constructor per row of spec/opcode_table.json, with the operands each row
takes from outside, and the data types of those operands. An operand `t` is the device time at which the event falls. -/
namespace Sys2Proof

/-- A letter (R125): one PMU block's measurements for one instant, in host units. `sec`, `k` and `rate` are the
POSTMARK; `arr` is the arrival time; counts are the COUNTS fields; FLAGS[7:0] are set only in a mailbag's copy (R165). -/
structure Letter where
  sid : Nat
  flags : Nat
  sec : Nat
  k : Nat
  rate : Nat
  arr : Time
  stat : Nat
  cfgcnt : Nat
  phn : Nat
  ann : Nat
  dgn : Nat
  path : Nat
  tq : Nat
  ph : List (Word × Word)
  freq : Word
  rocof : Word
  an : List Word
  dg : List Nat
  deriving DecidableEq, Repr

/-- What a MAC receive front hands over with every frame that passed its FCS check: the port, the raw stamp and the aligner's
bit offset (R75), its length, VLAN tag, source MAC, and PRP trailer sequence number if it carries one. -/
structure RxHead where
  port : Fin 4
  raw : Time
  bofs : Nat
  len : Nat
  vlan : Option Nat
  mac : Nat
  prpSeq : Option Nat
  deriving DecidableEq, Repr

/-- A received frame of an IP protocol: its source and destination addresses and ports, the stream connection it came over, if
any, and the C37.118.2 octets. -/
structure RxFrame extends RxHead where
  v6 : Bool
  src : Nat
  sport : Nat
  dst : Nat
  dport : Nat
  conn : Option Nat
  payload : List Byte
  deriving DecidableEq, Repr

/-- One ASDU of an IEC 61850-90-5 SPDU: its RefrTm (seconds, 24-bit fraction, quality octet) if present, and the octets of
its dataset. -/
structure SpduAsdu where
  refr : Option (Nat × Nat × Nat)
  data : List Byte
  deriving DecidableEq, Repr

/-- An IEC 61850-90-5 SPDU after its session header and BER encoding were read: whether the encoding is sound, whether
it is R-GOOSE, the APPID, the SPDU number, the key ID, algorithm code and tag length in bits if it is tagged, whether the payload
is encrypted, the signed octets, the tag, and the ASDUs. -/
structure Spdu where
  wellFormed : Bool
  rgoose : Bool
  appid : Nat
  num : Nat
  keyId : Option Nat
  alg : Nat
  tagBits : Nat
  encrypted : Bool
  signed : List Byte
  tag : List Byte
  asdus : List SpduAsdu
  deriving DecidableEq, Repr

/-- One ASDU of an IEC 61850-9-2 frame, `idx` its place among the frame's, with its sample rate and its channels as the 8 INT32
values and quality words of IEC 61869-9. -/
structure SvAsdu extends RxHead where
  idx : Nat
  appid : Nat
  svId : List Byte
  rate : Nat
  smpCnt : Nat
  smpSynch : Nat
  values : List (Word × Word)
  deriving DecidableEq, Repr

/-- The dataset an Announce carries, in the order the IEEE 1588 comparison reads it, with the domain number, the sender, the leap
flags and the grandmaster inaccuracy of the profile TLV. -/
structure AnnData where
  domNum : Nat
  prio1 : Nat
  clockClass : Nat
  accuracy : Nat
  variance : Nat
  prio2 : Nat
  gmId : Nat
  steps : Nat
  senderId : Nat
  logInterval : Int
  ptpScale : Bool
  utcOfs : Int
  utcValid : Bool
  leap61 : Bool
  leap59 : Bool
  inacc : Nat
  deriving DecidableEq, Repr

/-- An Announce as it arrived. -/
structure Announce extends RxHead, AnnData where
  deriving DecidableEq, Repr

/-- A Sync with its follow-up where two-step: domain number, sender, origin time, total correction in 2^-16 ns, log interval. -/
structure SyncMsg extends RxHead where
  domNum : Nat
  senderId : Nat
  t1 : Time
  corr : Int
  logSync : Int
  deriving DecidableEq, Repr

/-- A Pdelay message: of an exchange's answer, the request's stamp, the responder's two times, and the corrections summed, in
2^-16 ns; the fourth time is the message's own stamp. -/
structure PdelayMsg extends RxHead where
  domNum : Nat
  t1raw : Time
  t2 : Time
  t3 : Time
  corr : Int
  deriving DecidableEq, Repr

/-- A letterbox command (R216) as it stands in its ring: flags, tag, buffer address, buffer length, parameters. -/
structure LbCmd where
  flags : Nat
  tag : Nat
  addr : Nat
  len : Nat
  param : List Nat
  deriving DecidableEq, Repr

/-- Where the power-fail cut, or the warm start of a service exit, takes a command that writes MRAM by journal (R458, R478): while
it writes the bank or the spare slot, with the record open, after its commit, or after what it names was written and before the
close. -/
inductive MramCut where
  | writing
  | opened
  | committed
  | flipped
  deriving DecidableEq, Repr

/-- What the host's memory answers while a command runs: the octets of its buffer, and whether an access ends in a PCIe
error; what of the command's MRAM writes fails its read-back: physical slots of the Strongroom (R457), or bank 0 or 1 of
the settings store (R477); and where the command is cut off, if it is (R458, R478): no completion is delivered then. -/
structure HostBuf where
  data : List Byte
  err : Bool
  bad : List Nat
  cut : Option MramCut
  deriving DecidableEq, Repr

/-- A release confirmation (R419): a Round's slot, or a publication's message. -/
inductive RelMsg where
  | slot (rnd : Nat) (seq : Nat)
  | pub (q st sq : Nat)
  deriving DecidableEq, Repr

/-- A frame that is a fragment, with the reading of its datagram as an IEC 61850-90-5 one. -/
structure FragFrame extends RxFrame where
  spdu : Spdu
  deriving DecidableEq, Repr

/-- A fragment's place in its datagram: identity, payload offset, whether more fragments follow. -/
structure FragId where
  v6 : Bool
  src : Nat
  dst : Nat
  ident : Nat
  offset : Nat
  more : Bool
  deriving DecidableEq, Repr

/-- An access to a ring's page of BAR2 (R231): a write with the word it carries for +0x0, if any, or a read. -/
inductive Bell where
  | write (w0 : Option Word)
  | read
  deriving DecidableEq, Repr

/-- Which pause time of a port runs out (R99): that of an 802.3x pause frame, or of one priority. -/
structure PauseTime where
  port : Fin 4
  prio : Option (Fin 8)
  deriving DecidableEq, Repr

/-- What a housekeeping timer asks for (R186). -/
inductive HkKind where
  | clustering | kat (srt : Nat) | other (n : Nat)
  deriving DecidableEq, Repr

/-- What the end of a start step brings (R519): the hash of the fixed function image at step 2; physical slots found bad at
step 4; at step 5 whether a sealed Logbook's test pattern reads back (R489); at step 7 the fitted DRAM of each channel, whether
it is in use after the step, and whether a warm start kept its training parameters; the sorters that failed the self-test at
step 8. The other steps bring nothing of their own. -/
inductive StepEnd where
  | plain (t : Time)
  | fuses (hash : List Byte) (t : Time)
  | keys (badPhys : List Nat) (t : Time)
  | logbook (testOk : Bool) (t : Time)
  | dram (gib0 gib1 : Nat) (ok0 ok1 kept0 kept1 : Bool) (t : Time)
  | sorters (failed : List Nat) (t : Time)
  deriving DecidableEq, Repr

/-- How a message of an ordered stream arrived on the Prourn Link (R408, R410): the SEQ of its first frame, how many frames carried it,
whether they were marked RETX, and whether every CRC-32C passed. -/
structure PlkHead where
  seq : Nat
  frames : Nat
  retx : Bool
  ok : Bool
  deriving DecidableEq, Repr

/-- A message of an ordered stream of the Prourn Link, and how it arrived. -/
structure PlkIn (α : Type) where
  head : PlkHead
  msg : α
  deriving DecidableEq, Repr

/-- What a FETCH frame asks for or brings (R409, R414, R420; log entry 134): the letters of some members of a mailbag, one CRC-32C per
present letter of it, those CRCs in answer, or a catch-up of a group or of the islanding tracker. -/
inductive FetchMsg where
  | letters (rnd : Fin 64) (seq : Nat) (sids : List Nat)
  | askCheck (rnd : Fin 64) (seq : Nat)
  | checkList (rnd : Fin 64) (seq : Nat) (crcs : List Nat)
  | catchup (isl : Bool) (group : Nat)
  deriving DecidableEq, Repr

/-- The kinds of a FETCH frame; the first three name a mailbag by RND and SEQ and may bring a list. -/
inductive FetchKind where
  | letters | askCheck | checkList
  | catchup (isl : Bool) (group : Nat)
  deriving DecidableEq, Repr

/-- What a FETCH frame of a kind says with its RND, SEQ and list. -/
def FetchKind.what (k : FetchKind) (rnd : Fin 64) (seq : Nat) (list : List Nat) : FetchMsg :=
  match k with
  | .letters => .letters rnd seq list
  | .askCheck => .askCheck rnd seq
  | .checkList => .checkList rnd seq list
  | .catchup isl g => .catchup isl g

/-- A received HELLO (R403, R404): definition digest, PREF and PORT0 MAC address. -/
structure HelloMsg where
  digest : Nat
  pref : Bool
  mac : Nat
  t : Time
  deriving DecidableEq, Repr

/-- A DISPATCH frame (R411): the dispatch record's decision, VDIG, the addenda as (SID, low 16 bits of n), and the members
marked present. -/
structure PlkDispatch where
  rnd : Nat
  n : Nat
  seq : Nat
  cause : Nat
  deadline : Nat
  quorumAt : Nat
  close : Time
  vdig : Nat
  adds : List (Nat × Nat)
  present : List Nat
  deriving DecidableEq, Repr

/-- A record of a COPY (R417), by tag; END is the frame's own field. -/
inductive CopyRec where
  | machine (m st entrySec entryNs : Nat) (ackPend inhibit test : Bool) (out : Nat)
  | alarmWords (ws : List Nat)
  | publication (q st sq step : Nat) (next : Time)
  | sendKey (keyid spdu : Nat)
  | group (g : Nat) (words : List Word) (first : Nat)
  | tie (tie status age : Nat)
  | admission (sid : Nat) (ident : List Word) (st cache : Nat)
  | descr (sid : Nat) (words : List Word) (n : Nat)
  | round (rnd cfgcnt commitSt : Nat) (gate : Bool) (src : Option (Bool × Nat × Nat × Nat)) (seq : Nat)
  | mirrored (addr : Nat) (value : Word) (be : Nat)
  | clustering (count : Nat)
  deriving DecidableEq, Repr

/-- A COPY (R406, R416): its SEQ, whether it is the full copy that a joining unit gets, its records in order, and the RND0 POSTMARK of its
END record. -/
structure CopyFrame where
  seq : Nat
  full : Bool
  recs : List CopyRec
  pm : Nat
  deriving DecidableEq, Repr

/-- A quantity on its way through the decimation chain (R235, R237 to R242): the input delay line, newest first, each value
with whether it was missing; the last good value; consecutive missing instants; STALE by a gap; whether its Round does not
feed it now; decimated samples since the first good instant; the mean, and the mean square behind an automatic norm with its count; the normalised decimated samples,
newest first; the slow band's samples; fast samples left of CH_SETTLING. -/
structure Chain where
  line : List (Word × Bool)
  last : Option Word
  miss : Nat
  stale : Bool
  unfed : Bool
  good : Nat
  mean : Option Word
  pow : Word
  powN : Nat
  hist : List Word
  slow : List Word
  settle : Nat
  deriving DecidableEq, Repr

/-- A band's tracker (R243, R244): samples since seeding, the count up to which a resumption settles (0 where none does), the rows of W, and P. -/
structure Band where
  n : Nat
  ready : Nat
  w : List (List Word)
  pm : List (List Word)
  deriving DecidableEq, Repr

/-- A mode slot (R249 to R251, R267), with the values of its last 16 matched extractions. -/
structure ModeSlot where
  slow : Bool
  freq : Word
  damp : Word
  amp : Word
  energy : Word
  sigma : Word
  ref : Nat
  age : Nat
  miss : Nat
  firstSec : Nat
  shape : List (Word × Word)
  damps : List Word
  freqs : List Word
  deriving DecidableEq, Repr

/-- A line candidate's run of passing epochs (R256): the frequency of the first, how many, and the epoch of the first. -/
structure LineRun where
  freq : Word
  count : Nat
  start : Nat
  deriving DecidableEq, Repr

/-- An active forced line (R256, R267): epochs in a row without it, and its contributing channel's POS. -/
structure FLine where
  freq : Word
  amp : Word
  ratio : Word
  env : Word
  pos : Nat
  start : Nat
  gone : Nat
  deriving DecidableEq, Repr

/-- An analysis group (R233 to R271): its seats in POS order, the last instant and decimated sample taken, the letters of the
instants in the delay lines, newest first, chains by CID,
bands, slots, lines, candidate runs, since when it is suspended (as a sample number), extractions left that carry GAP, the
last epoch extracted and the last epoch of automatic selection. Epochs count half seconds, samples 40 ms. -/
structure GrpSt where
  seats : List Nat
  lastN : Option Nat
  lastJ : Option Nat
  lets : List (List Letter)
  chains : List (Nat × Chain)
  fast : Band
  slowB : Band
  slots : List (Option ModeSlot)
  lines : List (Option FLine)
  ended : List Nat
  runs : List LineRun
  susp : Option Nat
  gap : Nat
  epoch : Nat
  autoAt : Nat
  deriving DecidableEq, Repr

/-- The islanding tracker (R277 to R280): chains by site, its band, the last instant and sample taken, and the centroids
of the last applied clustering by label. -/
structure IslTrk where
  chains : List (Nat × Chain)
  band : Band
  lastN : Option Nat
  lastJ : Option Nat
  cents : List (Nat × List Word)
  deriving DecidableEq, Repr

/-- A decimated sample: its number, and per channel or site its value and whether it came from good input. -/
structure DecSample where
  j : Nat
  xs : List (Nat × Word × Bool)
  deriving DecidableEq, Repr

/-- Catch-up data (R421): a group's or the islanding tracker's checkpoint at epoch b, and the decimated samples from b to
the epoch at which the transfer ends: number, and per CID or site the value and whether it came from good input. -/
structure CatchupMsg where
  group : Nat
  epoch : Nat
  grp : Option GrpSt
  trk : Option IslTrk
  samples : List DecSample
  deriving DecidableEq, Repr

/-- What the read-back of a Logbook write found, and where the memory has failed, whether the last-gasp sector's failed too (R482, R488). -/
inductive LogFault where
  | none | mismatchOnce | mismatchTwice (gaspBad : Bool) | uncorrectable (gaspBad : Bool)
  deriving DecidableEq, Repr

/-- The commands and events of the block, in the table's order. -/
inductive Instr where
  /-- COLD_START (R506). PORST_N is released with the main supplies in range, and a cold start from BACKUP begins in LOADING. -/
  | coldStart (t : Time)
  /-- SUPPLY_TRIP (R582). A rail crosses a low or high trip level; the power-fail cut is taken and the device enters BACKUP. -/
  | supplyTrip (t : Time) (high : Bool) (rail : Fin 8)
  /-- PORST_N_ASSERT (R583). PORST_N is asserted; the power-fail cut is taken and the device enters BACKUP. -/
  | porstNAssert (t : Time)
  /-- WRST_N_LOW (R506). WRST_N is held low for at least 1 µs and a warm start with SRC 2 is taken. -/
  | wrstNLow (t : Time) (lowNs : Nat)
  /-- WARM_START (R506). A write to STRT_CTL with WARM = 1 and KEY = 0x57A7 takes a warm start, or a service exit from SERVICE. -/
  | warmStart (w : Word)
  /-- WARM_START_FULL (R520). A write to STRT_CTL with WARM and FULL takes a warm start that reads the flash and may bring a new image into force. -/
  | warmStartFull (w : Word)
  /-- START_STEP_END (R519). A step of the start sequence ends, including the end of DRAM training, and the next step begins. -/
  | startStepEnd (o : StepEnd)
  /-- START_TIMER (R521). The start timer expires before LOADING is left and the start fails with code 3. -/
  | startTimer (t : Time)
  /-- PLL_LOCK_TIMEOUT (R524). The PLLs have not locked within 2 ms and the start fails with code 2. -/
  | pllLockTimeout (t : Time)
  /-- START_RETRY (R524). 100 ms × ATTEMPTS after a failure, a cold start with SRC 1 is taken. -/
  | startRetry (t : Time)
  /-- STABLE_TIMER (R525). STABLE_S seconds pass continuously in WATCH, STANDBY, ACTIVE or DEGRADED and ATTEMPTS returns to 0. -/
  | stableTimer (t : Time)
  /-- WATCHDOG_STALL (R528). No RND0 mailbag boundary occurs for STALL_MS and the watchdog takes a warm start with SRC 4. -/
  | watchdogStall (t : Time)
  /-- WATCHDOG_HOST (R528). No kick arrives for HOST_MS and the watchdog takes a warm start with SRC 4. -/
  | watchdogHost (t : Time)
  /-- STRT_KICK (R528). A write of KEY 0xC35A to STRT_KICK restarts the host watchdog timer. -/
  | strtKick (w : Word)
  /-- REQ_WATCH (R38). A GLB_MODE_REQ write with TARGET = 2 is judged and, if accepted, moves the device to WATCH at the next RND0 boundary. -/
  | reqWatch (force : Bool)
  /-- REQ_SWITCHOVER (R428). A GLB_MODE_REQ write with TARGET = 3 on the active unit starts a switchover to STANDBY. -/
  | reqSwitchover (force : Bool)
  /-- REQ_RUN_ENABLE (R39). A GLB_MODE_REQ write with TARGET = 4 in WATCH sets RUN_EN. -/
  | reqRunEnable (force : Bool)
  /-- REQ_SERVICE (R530). A GLB_MODE_REQ write with TARGET = 7 is judged against the service authorisation and, if accepted, moves the device to SERVICE. -/
  | reqService (force : Bool)
  /-- SRAM_UE (R16). An uncorrectable SRAM error is detected in a sorter bank, cell scratch or central SRAM. -/
  | sramUe (wh : Fin 65) (index : Nat) (t : Time)
  /-- SEQUENCER_FAULT (R16). A sorter's sequencer faults and the sorter is fenced. -/
  | sequencerFault (srt : Fin 64) (t : Time)
  /-- NAP_ENTRY (R21). A sorter in Run with empty pigeonholes for NAP_IDLE × 8 cycles enters Nap. -/
  | napEntry (srt : Fin 64) (t : Time)
  /-- SCHEDULED_WAKE (R22). PWR_WAKE.LEAD before a Round's predicted first arrival, the Sorting Office wakes the Round's home sorter. -/
  | scheduledWake (rnd : Fin 64) (t : Time)
  /-- SORTER_WAKE_DONE (R20). A waking sorter reaches Run after its wake latency. -/
  | sorterWakeDone (srt : Fin 64) (t : Time)
  /-- OFF_ENTRY (R601). In WATCH or HELD, a sorter woken for letterbox commands returns to Off after its pigeonholes have been empty for 1 ms. -/
  | offEntry (srt : Fin 64) (t : Time)
  /-- ITEM_END (R191). A work item completes, its release slot is updated and the sorter chooses its next item. -/
  | itemEnd (srt : Fin 64) (t : Time) (cycles : Nat)
  /-- ITEM_STEALABLE (R189). An item has waited STEAL_NS in a home pigeonhole and an idle sorter in Run steals it. -/
  | itemStealable (thief : Fin 64) (t : Time)
  /-- ITEM_EXPIRY (R193). A class 2 item not started within C2_RI intervals is cancelled with reason 0x15. -/
  | itemExpiry (item : Nat) (t : Time)
  /-- ITEM_TIME_LIMIT (R193). An item in service exceeds ITEM_MAX, is stopped, and its sorter runs the known-answer test. -/
  | itemTimeLimit (srt : Fin 64) (katPass : Bool) (t : Time)
  /-- HOST_CANCEL (R193). A write of SOF_CANCEL.GO cancels every waiting item of a flow with reason 0x1C. -/
  | hostCancel (w : Word)
  /-- HOUSEKEEPING_TIMER (R186). The Sorting Office's housekeeping timer enqueues a class 3 item. -/
  | housekeepingTimer (kind : HkKind) (t : Time)
  /-- FLOW_STATE_COPY_DONE (R200). A moved flow's state copy completes, its home changes and its held items are released. -/
  | flowStateCopyDone (flow : Nat) (t : Time)
  /-- PR_DOORBELL (R209). The host writes CONS and CONS_B to a poste restante ring's doorbell and returns credit. -/
  | prDoorbell (ring : Fin 128) (b : Bell) (w4 : Option Word)
  /-- MOD_TIMEOUT (R215). MOD_US microseconds pass since the first unnotified descriptor and the ring raises its vector. -/
  | modTimeout (ring : Fin 128) (t : Time)
  /-- PR_ENABLE (R229). A write of CFG.EN = 1 to a poste restante ring resets its counts, phase and shedding. -/
  | prEnable (ring : Fin 128) (w : Word)
  /-- LB_ENABLE (R230). A write of CFG.EN = 1 to a letterbox ring resets PROD, CONS and DONE. -/
  | lbEnable (m : Fin 16) (w : Word)
  /-- LB_DOORBELL (R216). The host writes PROD to a letterbox ring's doorbell and the device fetches commands up to DEPTH. -/
  | lbDoorbell (m : Fin 16) (b : Bell)
  /-- LB_COMMAND_FETCHED (R216). A fetched letterbox command arrives and is queued as a class 3 item on its ring's flow. -/
  | lbCommandFetched (m : Fin 16) (cmd : List Byte) (t : Time)
  /-- RING_PCIE_ERROR (R218). A ring's PCIe access ends in an error and the ring is disabled. -/
  | ringPcieError (lb : Bool) (ring : Fin 128)
  /-- BME_OFF (R218). PCIe bus mastering is disabled, so every poste restante item is shed and no command is fetched. -/
  | bmeOff
  /-- PERST (R580). PERST_N low resets the PCIe link and configuration space and disables every ring. -/
  | perst
  /-- NOP (R216). Letterbox opcode 0x00 of any target completes with no action. -/
  | lbNop (m : Fin 16) (c : LbCmd) (b : HostBuf) (target : Nat)
  /-- RESEND (R384). Letterbox command RESEND offers a held capture record again with FLAGS.RESENT. -/
  | resend (m : Fin 16) (c : LbCmd) (b : HostBuf)
  /-- COMPRESS (R394). Letterbox command COMPRESS queues a raw buffer for the compression engine. -/
  | compress (m : Fin 16) (c : LbCmd) (b : HostBuf)
  /-- DECODE (R394). Letterbox command DECODE queues a block for decoding by the compression engine. -/
  | decode (m : Fin 16) (c : LbCmd) (b : HostBuf)
  /-- COMPRESS_DONE (R395). The compression engine finishes a block and reports its CODE. -/
  | compressDone (err : Bool) (t : Time)
  /-- IMPORT (R456). Letterbox command IMPORT installs wrapped key material or a public key into a Strongroom slot. -/
  | lbImport (m : Fin 16) (c : LbCmd) (b : HostBuf)
  /-- DERIVE (R452). Letterbox command DERIVE makes a child key from a parent by the counter-mode KDF. -/
  | derive (m : Fin 16) (c : LbCmd) (b : HostBuf)
  /-- INVALIDATE (R454). Letterbox command INVALIDATE marks a slot and its descendants invalid in one journal transaction. -/
  | invalidate (m : Fin 16) (c : LbCmd) (b : HostBuf)
  /-- DELETE (R456). Letterbox command DELETE empties a slot and zeroises its physical slot. -/
  | lbDelete (m : Fin 16) (c : LbCmd) (b : HostBuf)
  /-- SEAL (R461). Letterbox command SEAL returns a signed Seal statement. -/
  | seal (m : Fin 16) (c : LbCmd) (b : HostBuf)
  /-- GET_CERT (R456). Letterbox command GET_CERT returns the device certificate chain. -/
  | getCert (m : Fin 16) (c : LbCmd) (b : HostBuf)
  /-- GET_CHALLENGE (R442). Letterbox command GET_CHALLENGE increments the challenge counter and returns a new challenge. -/
  | getChallenge (m : Fin 16) (c : LbCmd) (b : HostBuf)
  /-- TAKE_OWNERSHIP (R441). Letterbox command TAKE_OWNERSHIP installs the owner's keys and burns the OWNED fuse. -/
  | takeOwnership (m : Fin 16) (c : LbCmd) (b : HostBuf)
  /-- LOCK (R441). Letterbox command LOCK burns the LOCKED fuse. -/
  | lbLock (m : Fin 16) (c : LbCmd) (b : HostBuf)
  /-- SCRAP (R441). Letterbox command SCRAP zeroises every slot and burns the SCRAPPED fuse. -/
  | scrap (m : Fin 16) (c : LbCmd) (b : HostBuf)
  /-- STORE (R477). Letterbox command STORE writes a settings image to the unselected bank and selects it by journal. -/
  | lbStore (m : Fin 16) (c : LbCmd) (b : HostBuf)
  /-- NVS_READ (R477). Letterbox command READ of the settings store copies the selected image to the host. -/
  | nvsRead (m : Fin 16) (c : LbCmd) (b : HostBuf)
  /-- SELECT_OTHER (R477). Letterbox command SELECT_OTHER selects the other settings bank by journal. -/
  | selectOther (m : Fin 16) (c : LbCmd) (b : HostBuf)
  /-- ERASE (R477). Letterbox command ERASE sets the settings selector to none by journal. -/
  | erase (m : Fin 16) (c : LbCmd) (b : HostBuf)
  /-- LOG_READ (R485). Letterbox command READ of the Logbook copies held records into the host buffer. -/
  | logRead (m : Fin 16) (c : LbCmd) (b : HostBuf)
  /-- LOG_CLEAR (R486). Letterbox command CLEAR discards every held Logbook record and writes a code 0x83 record. -/
  | logClear (m : Fin 16) (c : LbCmd) (b : HostBuf)
  /-- FLASH_READ (R531). Letterbox command FLASH_READ copies flash contents to the host. -/
  | flashRead (m : Fin 16) (c : LbCmd) (b : HostBuf)
  /-- FLASH_ERASE (R531). Letterbox command FLASH_ERASE erases flash sectors outside the slot in force. -/
  | flashErase (m : Fin 16) (c : LbCmd) (b : HostBuf)
  /-- FLASH_WRITE (R531). Letterbox command FLASH_WRITE programs and verifies flash pages. -/
  | flashWrite (m : Fin 16) (c : LbCmd) (b : HostBuf)
  /-- IMAGE_CHECK (R531). Letterbox command IMAGE_CHECK checks an image under the acceptance rules without applying it. -/
  | imageCheck (m : Fin 16) (c : LbCmd) (b : HostBuf)
  /-- FLASH_OP_DONE (R531). A flash erase or program completes or times out and the command completes with its SCODE. -/
  | flashOpDone (ok : Bool) (t : Time)
  /-- C37_DATA_FRAME (R128). A C37.118.2 data frame passes the ingress pipeline and yields one letter per PMU block. -/
  | c37DataFrame (f : RxFrame)
  /-- C37_CFG_FRAME (R109). A C37.118.2 CFG-2 or CFG-3 frame builds descriptors or candidates for its PMU blocks. -/
  | c37CfgFrame (f : RxFrame)
  /-- SPDU_RECEIVED (R115). An IEC 61850-90-5 SPDU is franked, checked for replay and parsed into letters. -/
  | spduReceived (f : RxFrame) (p : Spdu)
  /-- SV_ASDU (R336). An IEC 61850-9-2 sampled-value frame is matched to a slot and its samples go to the local estimator. -/
  | svAsdu (a : SvAsdu)
  /-- OTHER_FRAME (R93). A frame of an unsupported protocol, VLAN or size is discarded and counted in RX_DISC. -/
  | otherFrame (f : RxFrame)
  /-- ARP_REQUEST (R93). An ARP or Neighbour Solicitation for the port's address is answered. -/
  | arpRequest (f : RxFrame) (addr : Nat)
  /-- ECHO_REQUEST (R93). An ICMP or ICMPv6 echo request of up to 1,500 bytes is answered, at most 100 per second. -/
  | echoRequest (f : RxFrame) (addr : Nat)
  /-- FRAGMENT (R95). An IP fragment enters a reassembly context, completing a datagram when the last arrives;
  the frame's `spdu` is how that datagram reads where it is one of IEC 61850-90-5. -/
  | fragment (f : FragFrame) (ctx : FragId)
  /-- REASM_TIMEOUT (R95). A reassembly context has not completed within 5 ms and is freed. -/
  | reasmTimeout (ctx : FragId) (t : Time)
  /-- TCP_SEGMENT (R108). A TCP segment is received on a stream connection, completing frames at its last byte. -/
  | tcpSegment (f : RxFrame)
  /-- TCP_CONNECTED (R106). A stream connection is established and the device sends send CFG-2. -/
  | tcpConnected (conn : Nat) (t : Time)
  /-- TCP_CONN_FAIL (R107). A stream connection closes or fails and its reopen wait starts. -/
  | tcpConnFail (conn : Nat) (t : Time)
  /-- TCP_RECONNECT (R107). The reopen wait of a failed connection expires and the device opens it again. -/
  | tcpReconnect (conn : Nat) (t : Time)
  /-- CFG_REQUEST_TIMER (R110). The request timer of a stream without a descriptor expires and send CFG-2 is sent. -/
  | cfgRequestTimer (sender : Nat) (t : Time)
  /-- PENDING_TIMEOUT (R120). A pending sender is not decided within HOST_TO and is refused. -/
  | pendingTimeout (entry : Fin 64) (t : Time)
  /-- REFUSED_EXPIRY (R119). A refused sender-cache entry expires after 60 s. -/
  | refusedExpiry (sender : Nat) (t : Time)
  /-- ADM_DECIDE (R135). A write to ADM_DECIDE admits, quarantines or refuses a pending entry. -/
  | admDecide (w : Word)
  /-- ADM_COMMIT (R124). A write of ADM_CTL.COMMIT swaps the rule banks and clears non-admitted cache entries. -/
  | admCommit (w : Word)
  /-- STREAM_INSTANT (R123). A stream's reporting instant passes without a letter and IDLE_CNT advances. -/
  | streamInstant (sid : Fin 16384) (t : Time)
  /-- SID_QUARANTINE_END (R123). 10 s after retirement the SID becomes free. -/
  | sidQuarantineEnd (sid : Fin 16384) (t : Time)
  /-- DESCRIPTOR_CHECK_WRITE (R113). A host write of a descriptor's CHECK word settles it as usable or unusable. -/
  | descriptorCheckWrite (sid : Fin 16384) (w : Word)
  /-- RGOOSE_HOLD_LETTER (R112). At each instant of an R-GOOSE stream a letter is produced by sample-and-hold. -/
  | rgooseHoldLetter (sid : Fin 16384) (t : Time)
  /-- LINK_DOWN (R42). An enabled port's link goes down and its streams go absent. -/
  | linkDown (port : Fin 4) (t : Time)
  /-- LINK_UP (R134). A port's link comes up and LINK_CHG is set. -/
  | linkUp (port : Fin 4) (t : Time)
  /-- PORT_RESTORE (R42). A port has held its link with a clean receive for 1 s and is restored. -/
  | portRestore (port : Fin 4) (t : Time)
  /-- PORT_FAIL (R33). A port's SerDes lane or PCS reports a hardware fault and the port fails until the next start. -/
  | portFail (port : Fin 4) (t : Time)
  /-- PAUSE_FRAME (R99). A pause or priority pause frame pauses the port's transmission. -/
  | pauseFrame (port : Fin 4) (prio : Option (Fin 8)) (t : Time)
  /-- PAUSE_CUT (R99). A port has been paused for NET_PAUSE_MAX and transmits its queued frames ignoring pause. -/
  | pauseCut (port : Fin 4) (t : Time)
  /-- EGRESS_SHED (R100). A data frame not started on the wire within 1 RI of its dispatch is shed with reason 0x0C. -/
  | egressShed (port : Fin 4) (t : Time)
  /-- CMD_SEND_CFG (R171). A send CFG-1 or send CFG-2 command to a Round is answered with its configuration frame. -/
  | cmdSendCfg (f : RxFrame)
  /-- CMD_SEND_HEADER (R172). A send header command to a Round is answered with a header frame. -/
  | cmdSendHeader (f : RxFrame)
  /-- CMD_DATA_ON (R172). A data on command opens the Round's data gate and names its source. -/
  | cmdDataOn (f : RxFrame)
  /-- CMD_DATA_OFF (R172). A data off command closes the Round's data gate. -/
  | cmdDataOff (f : RxFrame)
  /-- CMD_OTHER (R172). Another command frame is counted in CMD_IGN, or discarded when it names no Round. -/
  | cmdOther (f : RxFrame)
  /-- PTP_SYNC (R61). A Sync yields an offset sample and the servo runs on the selected domain. -/
  | ptpSync (m : SyncMsg)
  /-- PTP_ANNOUNCE (R60). An Announce is received and best master selection and the domain state advance. -/
  | ptpAnnounce (h : RxHead) (a : AnnData)
  /-- PDELAY_REQ (R58). A received Pdelay_Req is answered in two-step mode. -/
  | pdelayReq (m : PdelayMsg)
  /-- PDELAY_RESP (R58). A Pdelay response updates meanLinkDelay. -/
  | pdelayResp (m : PdelayMsg)
  /-- PDELAY_REQ_SEND (R58). Once per second the device sends Pdelay_Req on each port of a domain. -/
  | pdelayReqSend (dom : Fin 2) (t : Time)
  /-- ANNOUNCE_TIMEOUT (R60). A chosen master's Announce times out and the domain goes to listening or lost. -/
  | announceTimeout (dom : Fin 2) (t : Time)
  /-- TIME_AGREE (R68). Agreement within 5,000 ns has held for 10 s and the disagreement alarm clears. -/
  | timeAgree (t : Time)
  /-- DOMAIN_REVERT (R65). The preferred domain has been locked for REVERT_S seconds and is selected again. -/
  | domainRevert (t : Time)
  /-- TB_SEL_SWITCH (R65). A write of TB_SEL.SWITCH selects the other domain if it is locked. -/
  | tbSelSwitch (w : Word)
  /-- TIME_COMMIT (R56). A write of TB_SET_COMMIT.GO stages a host time load, or refuses it. -/
  | timeCommit (w : Word)
  /-- TIME_COMMIT_APPLY (R56). At the next tick or second boundary the counter takes the staged time as a step. -/
  | timeCommitApply (t : Time)
  /-- TB_NOW_FREEZE (R54). A read of TB_NOW_SEC_LO freezes a new shadow of the time counter. -/
  | tbNowFreeze
  /-- TB_NOW_WORD_READ (R54). A read of TB_NOW_SEC_HI or TB_NOW_NS returns the shadow's word, freezing one if none is held. -/
  | tbNowWordRead (ns : Bool)
  /-- TB_NOW_RELEASE (R54). A read of TB_NOW_FRAC returns the shadow's word and releases the shadow. -/
  | tbNowRelease
  /-- PPS_OUT_EDGE (R73). At each second boundary less OUT_COMP, PPS_OUT rises. -/
  | ppsOutEdge (t : Time)
  /-- PPS_OUT_END (R73). PPS_OUT falls after WIDTH ms. -/
  | ppsOutEnd (t : Time)
  /-- PPS_IN_EDGE (R74). A rising edge on PPS_IN is stamped and TB_PPS_IN.OFS updated. -/
  | ppsInEdge (t : Time)
  /-- PPS_IN_LOST (R74). No PPS_IN edge arrives for 2 s and PRESENT goes to 0. -/
  | ppsInLost (t : Time)
  /-- BACKUP_CLOCK_WRITE (R82). Every 1,000 s while a domain is locked, the timebase writes its seconds to the backup-domain clock. -/
  | backupClockWrite (t : Time)
  /-- LEAP_PENDING (R80). 60 s before a leap, the leap pending flag is set. -/
  | leapPending (t : Time)
  /-- LEAP (R80). A leap second takes effect and the new TAI − UTC offset applies. -/
  | leap (t : Time)
  /-- LEAP_OCCURRED_END (R80). 86,400 s after a leap, the leap occurred flag clears. -/
  | leapOccurredEnd (t : Time)
  /-- HOST_LEAP_CLEAR (R79). At the end of the UTC day that it names, TB_UTC.HOST_LEAP returns to 0. -/
  | hostLeapClear (t : Time)
  /-- FILE_LETTER (R144). A sorter files a letter in the Postmark Wheel, updating its tracker and checking the quorum. -/
  | fileLetter (sid : Nat) (t : Time)
  /-- ROUND_INSTANT (R161). A Round's instant t_k passes and its deadline and predicted first arrival are computed. -/
  | roundInstant (rnd : Fin 64) (t : Time)
  /-- DEADLINE_CLOSE (R155). The deadline t_k + D_k passes without quorum and the mailbag closes by deadline. -/
  | deadlineClose (rnd : Fin 64) (t : Time)
  /-- DISPATCH (R156). Once no port can still deliver a letter stamped by the close, the mailbag is dispatched and its work spawned. -/
  | dispatch (rnd : Fin 64) (t : Time)
  /-- ROUND_COMMIT (R152). A write of WHL_RNDn_COMMIT.GO starts announcing a new membership table, or refuses it. -/
  | roundCommit (rnd : Fin 64) (w : Word)
  /-- GROUP_UPDATE (R237). An analysis group's update item computes channel quantities, decimates and runs the tracker. -/
  | groupUpdate (g : Fin 256) (t : Time)
  /-- DEF_UPDATE (R261). The dissipating-energy item computes branch DEF, ranks and bus list at an epoch. -/
  | defUpdate (t : Time)
  /-- COHERENCY_UPDATE (R277). The islanding tracker item updates the coherency subspace with one decimated sample. -/
  | coherencyUpdate (t : Time)
  /-- CLUSTERING (R279). The clustering item groups sites into coherent groups and completes a clustering. -/
  | clustering (t : Time)
  /-- SEPARATION (R283). The separation item tests every coherent group against the reference and steps group states. -/
  | separation (t : Time)
  /-- MACHINE_STEP (R294). An alarm machine step item evaluates its inputs and moves to its next state. -/
  | machineStep (m : Fin 1024) (t : Time)
  /-- GOOSE_RETRANSMIT (R299). A publication's retransmission timer expires and the message is sent again with the next sqNum. -/
  | gooseRetransmit (q : Fin 16) (t : Time)
  /-- ALM_ACK (R295). A write of ALM_ACK.AM acknowledges a machine in a latched state. -/
  | almAck (w : Word)
  /-- STD_ALARM_EXPIRY (R296). 10 s after the last franking failure or record shed, that standard alarm becomes inactive. -/
  | stdAlarmExpiry (code : Fin 16) (t : Time)
  /-- ALARM_PIN_MINW (R298). An ALARM pin's minimum active time MINW_MS ends and the pin may return inactive. -/
  | alarmPinMinw (p : Fin 8) (t : Time)
  /-- ALM_OE_N_CHANGE (R298). ALM_OE_N changes and the ALARM pins are driven or released to high impedance. -/
  | almOeNChange (level : Bool)
  /-- OUTPUT_SAMPLE (R319). An acquisition chain output sample becomes available and feeds calibration, path selection, energy and capture. -/
  | outputSample (pt : Fin 2) (n : Nat) (t : Time)
  /-- LOOK_AHEAD_SAMPLE (R327). A CIC look-ahead sample leaves the first stage and is judged for splicing. -/
  | lookAheadSample (pt : Fin 2) (bits : List (List Bool)) (lbits : List (List Bool)) (t : Time)
  /-- INPUT_FAULT (R316). A modulator input shows no transition for 256 clocks and is faulted. -/
  | inputFault (inp : Fin 18) (t : Time)
  /-- INPUT_FAULT_CLEAR (R316). A faulted input shows transitions for a full fill period and clears. -/
  | inputFaultClear (inp : Fin 18) (t : Time)
  /-- CURVE_LOOKUP (R324). Every 200 ms each input's curve is looked up and a fade to new coefficients may start. -/
  | curveLookup (t : Time)
  /-- CAL_COMMIT (R326). A write of ACQ_CAL.COMMIT checks the shadow curve bank and pends or refuses the commit. -/
  | calCommit (w : Word)
  /-- CAL_COMMIT_APPLY (R326). At the next whole second the shadow curves are copied to the active bank and fades start. -/
  | calCommitApply (t : Time)
  /-- LOCAL_LETTER (R333). A local stream's phasor window is complete and its letter is formed and handed over. -/
  | localLetter (n : Fin 8) (t : Time)
  /-- SV_WAIT_TIMEOUT (R336). WAIT_US after the last needed sample instant the estimator proceeds with the samples it has. -/
  | svWaitTimeout (q : Fin 4) (t : Time)
  /-- SV_LOST (R336). No matching ASDU arrives for 100 ms and the slot stops receiving. -/
  | svLost (q : Fin 4) (t : Time)
  /-- CHAIN_FILLED (R338). A point's chain has filled after entry to a processing mode and letters and metering begin. -/
  | chainFilled (pt : Fin 2) (t : Time)
  /-- QUANTUM_END (R348). A nominal-cycle quantum's energies are computed and routed to the registers. -/
  | quantumEnd (pt : Fin 2) (t : Time)
  /-- INTERVAL_END (R358). An energy interval ends and its interval record is written and offered. -/
  | intervalEnd (pt : Fin 2) (t : Time)
  /-- NRG_SNAP (R353). A write of NRG_SNAP.GO requests a register snapshot at each point's next quantum boundary. -/
  | nrgSnap (w : Word)
  /-- NRG_PRESET (R360). A write of PRE_IDX.GO presets one energy register at the next quantum boundary, or is refused. -/
  | nrgPreset (pt : Fin 2) (w : Word)
  /-- URMS_HALF_VALUE (R362). A zero crossing ends a one-cycle window and a new Urms(1/2) value is judged. -/
  | urmsHalfValue (pt : Fin 2) (stamp t : Time)
  /-- CAP_ACK (R382). A write of CAP_Uu_ACK.SEQ frees held records of the unit. -/
  | capAck (u : Fin 32) (w : Word)
  /-- CAP_ARM (R382). A write of CAP_Uu_ARM.ARM moves a stopped unit to filling. -/
  | capArm (u : Fin 32)
  /-- CAP_FORCE (R383). A write of CAP_Uu_ARM.FORCE fires the unit at its next sample. -/
  | capForce (u : Fin 32)
  /-- XTRG_FIRE_EDGE (R386). A falling edge on XTRG_FIRE is stamped and units with XIN fire. -/
  | xtrgFireEdge (t : Time)
  /-- XTRG_FIRE_RELEASE (R386). FIRE_W_US after a fire, the device releases XTRG_FIRE. -/
  | xtrgFireRelease (t : Time)
  /-- XTRG_SYNC_EDGE (R386). A falling edge on XTRG_SYNC makes units with XSYNC discard history and enter filling. -/
  | xtrgSyncEdge (t : Time)
  /-- SYNC_GO (R386). A write of CAP_XTRG.SYNC_GO pulls XTRG_SYNC low. -/
  | syncGo (w : Word)
  /-- XTRG_SYNC_RELEASE (R386). 10 µs after SYNC_GO, the device releases XTRG_SYNC. -/
  | xtrgSyncRelease (t : Time)
  /-- HEARTBEAT_SEND (R423). Every 50 µs the unit sends its heartbeat word on path A and path B. -/
  | heartbeatSend (t : Time)
  /-- HEARTBEAT_RECEIVED (R423). A valid heartbeat word arrives from the partner and may declare a stall or mode failure. -/
  | heartbeatReceived (pathB : Bool) (word : BitVec 64) (t : Time)
  /-- PATH_SILENT (R424). No valid heartbeat arrives on a path for 300 µs and the path becomes silent. -/
  | pathSilent (pathB : Bool) (t : Time)
  /-- JOIN_TIMEOUT (R405). No partner is heard within JOIN_MS of run enable and the unit is granted the active role alone. -/
  | joinTimeout (t : Time)
  /-- HELLO (R404). A HELLO with the partner's definition digest is received and compared. -/
  | hello (m : PlkIn HelloMsg)
  /-- SWITCH_OFFER (R429). The standby receives SWITCH_OFFER and answers accept or refuse. -/
  | switchOffer (k : PlkIn Nat) (t : Time)
  /-- SWITCH_ACCEPT (R429). The active unit receives SWITCH_ACCEPT and the switchover proceeds to instant K. -/
  | switchAccept (k : PlkIn Nat) (t : Time)
  /-- SWITCH_REFUSE (R429). The active unit receives SWITCH_REFUSE and the request is refused with REASON 3. -/
  | switchRefuse (t : PlkIn Time)
  /-- FWD_ON (R413). A FWD_ON control message announces that the partner starts forwarding a SID. -/
  | fwdOn (sid : PlkIn Nat)
  /-- FWD_OFF (R413). A FWD_OFF control message announces that the partner stops forwarding a SID. -/
  | fwdOff (sid : PlkIn Nat)
  /-- FWD (R413). A forwarded letter is received and filed with its original arrival time. -/
  | fwd (l : PlkIn Letter)
  /-- PLK_DISPATCH (R414). The standby receives a DISPATCH frame and composes and dispatches the same mailbag. -/
  | plkDispatch (d : PlkIn PlkDispatch) (t : Time)
  /-- FETCH (R414). The active unit receives FETCH and returns letters or a check list. -/
  | fetch (k : PlkIn FetchKind) (rnd : Fin 64) (seq : Nat) (list : List Nat) (t : Time)
  /-- COPY (R416). The standby receives a COPY and applies its records in full. -/
  | copy (c : PlkIn CopyFrame) (t : Time)
  /-- REL (R419). The standby receives a REL and discards the matching held outputs. -/
  | rel (r : PlkIn RelMsg)
  /-- DIGEST (R420). The standby compares a group or islanding digest and requests a catch-up on divergence. -/
  | digest (isl : PlkIn Bool) (unit : Nat) (n : Nat) (crc : Nat)
  /-- CATCHUP (R421). The standby receives catch-up data, installs the checkpoint and re-runs the tracker. -/
  | catchup (c : PlkIn CatchupMsg)
  /-- PLK_ACK (R410). An ACK frame acknowledges frames of the ordered streams and frees the replay store. -/
  | plkAck (seqs : List Nat) (t : Time)
  /-- RXMAP (R413). A partner's reception map is received and forwarding of SIDs starts or stops. -/
  | rxmap (sids : PlkIn (List Nat))
  /-- ACK_SEND (R410). 5 µs pass while frames arrive and the receiver sends an ACK. -/
  | ackSend (t : Time)
  /-- RETRANSMIT (R410). No progress is acknowledged for 20 µs and the sender retransmits from the first unacknowledged frame. -/
  | retransmit (t : Time)
  /-- LANE_UP (R407). A Prourn lane has held block lock for 10 ms and is up. -/
  | laneUp (l : Fin 2) (t : Time)
  /-- LANE_DOWN (R407). A Prourn lane loses block lock or sees 16 CRC errors in 1 ms and goes down. -/
  | laneDown (l : Fin 2) (errs : Bool) (t : Time)
  /-- FOLLOW_LATE (R414). PAIR_LAG.MAX_US after a DISPATCH frame the standby dispatches with missing members absent. -/
  | followLate (rnd : Fin 64) (t : Time)
  /-- REVERT (R430). The preferred standby's revert conditions have held for REVERT_S and it takes back the active role. -/
  | revert (t : Time)
  /-- AUTO_SWITCHOVER (R433). A READY partner's SCORE has exceeded the active unit's by 32 for 10 s and a switchover starts. -/
  | autoSwitchover (t : Time)
  /-- SRAM_SCRUB_PASS (R432). The SRAM scrub reads and rewrites codewords, counting corrected errors. -/
  | sramScrubPass (corrected : Nat) (lastWhere : Nat) (lastIndex : Nat) (t : Time)
  /-- KNOWN_ANSWER_TEST (R432). Once per second a sorter in rotation runs the known-answer test and is fenced if it fails. -/
  | knownAnswerTest (srt : Fin 64) (pass : Bool) (t : Time)
  /-- DRAM_PATROL_PASS (R432). The DRAM patrol scrub advances over fitted DRAM. -/
  | dramPatrolPass (ch : Fin 2) (pct : Nat) (corrected : Nat) (addr : Nat) (t : Time)
  /-- MRAM_READ_CHECK (R432). Every 3,600 s the Manifest shadow and Strongroom catalogue are read and every live key reloaded. -/
  | mramReadCheck (bad : List Nat) (corrected : Nat) (addr : Nat) (t : Time)
  /-- DRAM_UE (R568). An uncorrectable DRAM codeword cancels and reissues the item that read it. -/
  | dramUe (ch : Fin 2) (addr : Nat) (item : Option Nat) (t : Time)
  /-- MRAM_UE (R469). An uncorrectable MRAM read is handled by the owner of the region. -/
  | mramUe (addr : Nat) (t : Time)
  /-- KEY_EXPIRY (R448). At a whole second a key reaches NOT_AFTER, goes to expired and is zeroised. -/
  | keyExpiry (slot : Fin 256) (t : Time)
  /-- RESERVE_WRITE_DONE (R450). A counter reserve write completes and uses up to the new USE_RES are allowed. -/
  | reserveWriteDone (slot : Fin 256)
  /-- COUNTER_TABLE_WRITE (R451). At each whole second the older copy of the Strongroom counter table is rewritten. -/
  | counterTableWrite (t : Time)
  /-- CHALLENGE_EXPIRY (R442). 60 s after issue a challenge and its authorisation expire. -/
  | challengeExpiry (t : Time)
  /-- CHAL_REQ (R529). A write of STRT_SVC.CHAL_REQ issues a challenge in STRT_CHAL0 to 7. -/
  | chalReq (w : Word)
  /-- SUBMIT (R529). A write of STRT_SVC.SUBMIT starts verification of the service authorisation signature. -/
  | submit (w : Word)
  /-- SVC_AUTH_DONE (R529). The service authorisation verification completes and AUTH_STAT becomes valid or refused. -/
  | svcAuthDone (t : Time)
  /-- LOG_RECORD_WRITE (R482). A staged event is written to the Logbook and read back. -/
  | logRecordWrite (fault : LogFault) (t : Time)
  /-- REPEAT_REWRITE (R483). The repeat part of the last record is rewritten, at most once per 100 µs. -/
  | repeatRewrite (t : Time)
  /-- OPSEC_SAVE (R487). LOG_OPSEC reaches a multiple of 60 and the operating counters are saved. -/
  | opsecSave (t : Time)
  /-- BKD_SEC_FREEZE (R493). A read of BKD_SEC_LO freezes a shadow of the backup clock. -/
  | bkdSecFreeze
  /-- BKD_SEC_WORD_READ (R493). A read of BKD_SEC_HI returns the shadow's word, freezing one if none is held. -/
  | bkdSecWordRead
  /-- BKD_SEC_RELEASE (R493). A read of BKD_SUB returns the shadow's word and releases the shadow. -/
  | bkdSecRelease
  /-- BKD_COMMIT (R494). A write of BKD_SET_COMMIT.GO stages a backup clock load, or refuses it. -/
  | bkdCommit (w : Word)
  /-- BKD_COMMIT_APPLY (R494). At the next seconds tick BKD_SEC takes the staged value as an adjustment. -/
  | bkdCommitApply (t : Time)
  /-- BKD_SECOND_TICK (R492). The backup clock prescaler completes a second and BKD_SEC increments. -/
  | bkdSecondTick (t : Time)
  /-- ALARM_ARM (R498). A write of BKD_ALM_CTL.ARM arms the backup alarm, firing at once if already passed. -/
  | alarmArm (w : Word)
  /-- ALARM_DISARM (R504). A write of BKD_ALM_CTL.DISARM disarms the alarm without firing. -/
  | alarmDisarm (w : Word)
  /-- TC_WINDOW (R496). A 2^20-cycle compensation window starts, the temperature is sampled and N computed. -/
  | tcWindow (temp : Word)
  /-- TRIM_WINDOW (R497). A 60 s compatibility trim window starts counting 1,966,080 − 2 × CAL cycles. -/
  | trimWindow
  /-- PON_OFF (R499). A write of BKD_PON.OFF with KEY 0xA5 schedules the ON latch to clear. -/
  | ponOff (w : Word)
  /-- PON_OFF_APPLY (R499). 10 ms after the OFF write, unless an alarm fired, the ON latch clears. -/
  | ponOffApply (t : Time)
  /-- OSC_STOP (R495). The 32.768 kHz oscillator shows no edge for 1 ms and BKD_STAT.OSF is set. -/
  | oscStop (t : Time)
  /-- VBAT_LOW_CHANGE (R491). VBAT crosses 2.2 V and BKD_STAT.VBAT_LOW changes. -/
  | vbatLowChange (low : Bool)
  /-- COUNTER_LATCH_LOW (R539). A read of the low word of a 64-bit value copies its high word into the counter latch. -/
  | counterLatchLow (addr : Nat)
  /-- COUNTER_LATCH_HIGH (R539). A read of a high word returns the latch when its address matches, otherwise the live word. -/
  | counterLatchHigh (addr : Nat)
  /-- NOTICE_CLEAR (R14). A W1C write clears NOTICE bits and, where all clear, the roll-up registers. -/
  | noticeClear (block : Fin 23) (w : Word)
  /-- NOTICE_ENABLE (R547). A write to NOTICE_EN raises the vector for each enabled bit whose NOTICE bit is 1. -/
  | noticeEnable (block : Fin 23) (w : Word)
  /-- MSIX_UNMASK (R547). A masked MSI-X vector with its pending bit set is unmasked and one message is sent. -/
  | msixUnmask (vec : Fin 64)
  /-- MAX_DSP_CLEAR (R178). Any write to WHL_RNDn_MAX_DSP clears it to 0. -/
  | maxDspClear (rnd : Fin 64) (w : Word)
  /-- MAX_L_CLEAR (R179). Any write to a stream's MAX_L clears it to 0. -/
  | maxLClear (sid : Fin 16392) (w : Word)
  /-- MAX_WAIT_CLEAR (R220). Any write to a sorter's MAX_WAIT clears it. -/
  | maxWaitClear (srt : Fin 64) (w : Word)
  /-- CLS_HIGH_CLEAR (R223). Any write to SOF_CLS_HIGHc clears it. -/
  | clsHighClear (c : Fin 4) (w : Word)
  /-- TJ_PEAK_RESET (R599). Any write to PWR_TJ_PEAK sets it to the present TJ. -/
  | tjPeakReset (w : Word)
  /-- REGISTER_WRITE (R11). A host write to a register with no row of its own takes effect under its access codes, logging changed RWL fields. -/
  | registerWrite (addr : Nat) (value : Word) (be : Fin 16)
  /-- TJ_SAMPLE (R592). Every 1 ms the hottest on-die sensor is read and the WARN and CRIT thresholds judged. -/
  | tjSample (sensors : List Word) (t : Time)
  /-- SUPPLY_EXCURSION (R597). A rail moves outside its recommended range without tripping and LOW_SEEN or HIGH_SEEN is set. -/
  | supplyExcursion (high : Bool) (rail : Fin 8) (now_ : Bool)
  /-- I2C_GO (R598). A write of PWR_I2C_CTL.GO starts one I²C transaction on the selected bus. -/
  | i2cGo (w : Word)
  /-- I2C_DONE (R598). An I²C transaction completes or fails and STATUS becomes 2 or 3. -/
  | i2cDone (ok : Bool) (data : Word)
  /-- SYNC_ERROR (R72). In holdover, TB_UNC grows to TB_HOLD.SERR_US × 1,000 and TB_STAT.SERR becomes 1, making standard alarm 12 active. -/
  | syncError (t : Time)
  /-- PAUSE_END (R99). The pause time that a received pause frame requested runs out and the port resumes transmission, clearing STAT.PAUSED. -/
  | pauseEnd (w : PauseTime) (t : Time)
  /-- FCS_ERR_FRAME (R42). A frame with a bad FCS is received, counted in NET_PORTn_FCS_ERR, and restarts the clean-receive second of port restoration. -/
  | fcsErrFrame (port : Fin 4) (t : Time)
  /-- SNAP_DONE (R353). With no metering point enabled, NRG_SNAP.STATUS becomes 2 at the next whole second of device time. -/
  | snapDone (t : Time)
  /-- BACKUP_DOMAIN_POWERED (R495). The backup domain is first powered, setting BKD_STAT.OSF, the ON latch and PON high. -/
  | backupDomainPowered (t : Time)
  /-- PCIE_LINK_UP (R229). The PCIe link completes training and HIF_STAT.LINK becomes 1, after which rings may be enabled. -/
  | pcieLinkUp
  /-- BUS_MASTERING_ON (R218). Bus mastering is enabled in configuration space, HIF_STAT.BME becomes 1, and items are delivered and commands fetched again. -/
  | busMasteringOn (msix : Bool)
  deriving DecidableEq, Repr

end Sys2Proof
end

