-- ==== Sys2Proof/Decode.lean ====
section
/-! DEFINITION. The commands a word can spell: the opcode table gives no row any bits, so there are none. -/
namespace Sys2Proof

/-- The command that a word of the table's bits spells. No row of spec/opcode_table.json has bits. -/
def decodeTableWord (_nbits _w : Nat) : Option Instr := none

end Sys2Proof
end

