-- ==== Sys2Proof/Config.lean ====
section
/-! DEFINITION. What the spec leaves to the implementation or to the standards it cites: free values and free
functions. Every constant here is opaque: it has no body, so no proof can see a value of it. Log entries 10 to 19, 67, 83, 111,
119, 122 and 123. -/
namespace Sys2Proof.Config

/-- Which of the float32 values within 2 units in the last place a cosine takes (R114): the spec bounds the error and fixes no
value. -/
opaque cosPick : Word → Nat
/-- The same for a sine (R114). -/
opaque sinPick : Word → Nat
/-- Which of the float32 values within 2 units in the last place an angle takes (R168, R234, R248, R261, R333): the spec states no
accuracy (log entry 122). -/
opaque anglePick : Word → Word → Nat
/-- The same for a natural logarithm (R248, R254, R261). -/
opaque logPick : Word → Nat
/-- The angle of a complex number that has none: zero, or a part that is not finite. -/
opaque angleF : Word → Word → Word
/-- The natural logarithm of a value that has none: zero, negative, or not finite. -/
opaque logF : Word → Word

/-- The eleven taps of a half-band stage by the rate that feeds it (R238): the device fixes them and the spec does not list
them. -/
opaque halfBand : Nat → List Word
/-- The 61 taps of the 5/6 resampler's prototype (R238), likewise. -/
opaque resampler : List Word
/-- What a chain holds before its first good value, by channel (R235): the spec states no such value. -/
opaque heldFirst : Nat → Word
/-- The lower median of a decimated sample when every site is STALE (R277): the spec states none. -/
opaque noMedian : Nat → Word
/-- The shift of a QR sweep (R248), from the sweep's number and the last two rows' 2 × 2 block: the spec says shifted QR and not
which shift. -/
opaque qrShift : Nat → Word × Word → Word × Word → Word × Word → Word × Word → Word × Word
/-- When a subdiagonal entry counts as zero (R248), from its magnitude and the sum of its neighbours' on the diagonal. -/
opaque qrSmall : Word → Word → Bool
/-- When what is left of a column counts as nothing in a pseudo-inverse (R249), from its square and the column's. -/
opaque pinvSmall : Word → Word → Bool
/-- The coefficients of a second-order band-pass. -/
structure BandCoef where
  b0 : Word
  b1 : Word
  b2 : Word
  a1 : Word
  a2 : Word
  deriving DecidableEq, Repr, Inhabited
/-- The band-pass of R362 for an output rate and a nominal frequency: second order, centred there, 30 Hz wide; the spec does not
list its coefficients. -/
opaque bandPass : Nat → Nat → BandCoef
/-- Which form of the Hann window the device uses (R254): not stated. -/
opaque hannForm : Nat
/-- Does the variance behind DSPREAD, FSPREAD and the envelope test divide by one less than the count (R250, R255)? Not stated. -/
opaque varLess : Bool

/-- The coefficients of the integer stages of the decimation chain (R318, R320), by stage and place, sQ1.23; the spec lists none. -/
opaque chainTap : Nat → Nat → BitVec 24
/-- The taps of a resampler's prototype (R321), by preset and place; the spec lists none. -/
opaque resTap : Nat → Nat → Word
/-- Do the Blackman window's end taps carry its zeros (R322)? Which form the device uses is not stated. -/
opaque blackmanEnds : Bool

/-- The multicast groups that a Manifest names, per port, IPv6 or not, and address (R93): which part of its image names them is
not in the spec. -/
opaque manifestGroups : List Byte → List (Nat × Bool × Nat)
/-- Where a descriptor's counts saturate so that BLK_LEN alone does not give them (R111, R113): how many phasors (0) or analogs
(1) a block of that length has. -/
opaque satCount : Nat → Nat → Nat
/-- The initialisation vector of AES-GMAC for a key ID and an SPDU number (R115): the spec names GMAC and not how its vector is
made. -/
opaque gmacIv : Nat → Nat → List Byte
/-- The octets that an R-GOOSE tag covers, from the message's fields (R300): IEC 61850-90-5 lays them out, the spec does not. -/
opaque spduOctets : List Byte → List Byte
/-- The accuracy code of a GOOSE time quality when TB_UNC is known and above 1 s (R299): the rule gives codes 0 to 24 for bounds of
1 s and below, and 31 for an unknown one. -/
opaque coarseAcc : Nat → Nat
/-- INPUTS, OUT and RND of a standard alarm's record (R302), by its number: the rule states them for a machine's record. -/
opaque stdRecord : Nat → Nat × Nat × Nat
/-- The hardware unique key HUK (R439): secret, and readable nowhere. -/
opaque rootSecret : List Byte
/-- The Iameron test key in ROM and the test transport key (R440): what they are is not in the spec. -/
opaque testKey : List Byte
opaque testTransport : List Byte
/-- The certificate chain that Iameron installs at manufacture (R443): DER, device first. -/
opaque certChain : List Byte
/-- Bytes of material a DERIVE makes for KTYPE 3 and 4, which admit several lengths (R447, R452): the command names none. -/
opaque deriveLen : Nat → Nat

/-- A free 32-bit value, numbered by a counter of the state: what the spec leaves undefined and the machine goes on. -/
opaque freeWord : Nat → Word
/-- A free byte, numbered likewise. -/
opaque freeByte : Nat → Byte
/-- A free natural number, numbered likewise. -/
opaque freeNat : Nat → Nat
/-- A free yes or no, numbered likewise. -/
opaque freeBool : Nat → Bool

end Sys2Proof.Config
end

