-- ==== Sys2Proof/Machine/Float.lean ====
section
/-! DEFINITION. Integers with the rounding of R5, and IEEE 754 binary32 arithmetic on words (R3): every operation is
computed exactly and rounded once, to nearest with ties to even. -/
namespace Sys2Proof.Machine

/-- `n / d` rounded to nearest, ties to even (R5); 0 where `d` is 0. -/
def roundDiv (n d : Nat) : Nat :=
  let q := n / d
  let r := n % d
  if 2 * r < d then q else if d < 2 * r then q + 1 else if d = 0 then 0 else q + q % 2

/-- `n / d` rounded to nearest, ties to even, for a signed numerator. -/
def roundDivI (n : Int) (d : Nat) : Int :=
  if 0 ≤ n then (roundDiv n.toNat d : Int) else -(roundDiv (-n).toNat d : Int)

/-- The least integer not below `n / d`. -/
def ceilDiv (n d : Nat) : Nat := (n + d - 1) / d

/-- `v` held between `lo` and `hi`. -/
def clampN (lo hi v : Nat) : Nat := if v < lo then lo else if hi < v then hi else v

/-- `v` held between `lo` and `hi`, signed. -/
def clampI (lo hi v : Int) : Int := if v < lo then lo else if hi < v then hi else v

/-- The two's complement reading of the low `w` bits of `n`. -/
def toSigned (w n : Nat) : Int := if n % 2 ^ w < 2 ^ (w - 1) then (n % 2 ^ w : Nat) else (n % 2 ^ w : Nat) - (2 ^ w : Int)

/-- The low `w` bits of a signed value in two's complement. -/
def ofSigned (w : Nat) (v : Int) : Nat := (v % (2 ^ w : Int)).toNat

/-- A signed value saturated to `w` bits, as two's complement. -/
def satSigned (w : Nat) (v : Int) : Nat := ofSigned w (clampI (-(2 ^ (w - 1) : Int)) ((2 ^ (w - 1) : Int) - 1) v)

namespace F32

/-- The default quiet NaN, 0x7FC0_0000 (R168). -/
def nan : Word := 0x7FC00000#32
def zero : Word := 0#32
def one : Word := 0x3F800000#32

def signBit (w : Word) : Bool := w.getLsbD 31
def expo (w : Word) : Nat := w.toNat / 2 ^ 23 % 256
def frac (w : Word) : Nat := w.toNat % 2 ^ 23
def isNaN (w : Word) : Bool := expo w == 255 && frac w != 0
def isInf (w : Word) : Bool := expo w == 255 && frac w == 0
def isFinite (w : Word) : Bool := expo w != 255
def isZero (w : Word) : Bool := w.toNat % 2 ^ 31 == 0

/-- The magnitude of a finite value, in units of 2^-149. -/
def magUnits (w : Word) : Nat := if expo w = 0 then frac w else (2 ^ 23 + frac w) * 2 ^ (expo w - 1)

/-- The value of a finite word, in units of 2^-149. -/
def units (w : Word) : Int := if signBit w then -(magUnits w : Int) else (magUnits w : Int)

/-- Pack sign and magnitude bits. -/
def pack (neg : Bool) (mag : Nat) : Word := BitVec.ofNat 32 ((if neg then 2 ^ 31 else 0) + mag)

/-- The float32 nearest to a magnitude `n / d` in units of 2^-149, as its 31 magnitude bits; overflow gives infinity. -/
def roundMag (n d : Nat) : Nat :=
  let q := n / d
  let e := if q < 2 ^ 24 then 0 else q.log2 - 23
  let m := roundDiv n (d * 2 ^ e)
  let bits := if m < 2 ^ 23 then m else (e + 1) * 2 ^ 23 + (m - 2 ^ 23)
  if 0x7F800000 ≤ bits then 0x7F800000 else bits

/-- The float32 nearest to `n / d` in units of 2^-149; an exact zero takes the sign given. -/
def ofUnits (zeroNeg : Bool) (n : Int) (d : Nat) : Word :=
  if n = 0 then pack zeroNeg 0 else pack (decide (n < 0)) (roundMag n.natAbs d)

/-- The float32 nearest to the rational `n / d`. -/
def ofRat (n : Int) (d : Nat) : Word := ofUnits false (n * 2 ^ 149) d

/-- The float32 nearest to an integer. -/
def ofInt (n : Int) : Word := ofRat n 1

def neg (a : Word) : Word := a ^^^ 0x80000000#32
def abs (a : Word) : Word := a &&& 0x7FFFFFFF#32

def add (a b : Word) : Word :=
  if isNaN a || isNaN b then nan
  else if isInf a then (if isInf b && signBit a != signBit b then nan else a)
  else if isInf b then b
  else ofUnits (signBit a && signBit b) (units a + units b) 1

def sub (a b : Word) : Word := add a (neg b)

def mul (a b : Word) : Word :=
  let s := signBit a != signBit b
  if isNaN a || isNaN b then nan
  else if isInf a || isInf b then (if isZero a || isZero b then nan else pack s 0x7F800000)
  else ofUnits s (units a * units b) (2 ^ 149)

def div (a b : Word) : Word :=
  let s := signBit a != signBit b
  if isNaN a || isNaN b then nan
  else if isInf a then (if isInf b then nan else pack s 0x7F800000)
  else if isInf b then pack s 0
  else if isZero b then (if isZero a then nan else pack s 0x7F800000)
  else ofUnits s ((if s then -1 else 1) * (magUnits a * 2 ^ 149 : Nat)) (magUnits b)

/-- Fused multiply-add `a * b + c`, one rounding: the lane's operation. -/
def fma (a b c : Word) : Word :=
  if isFinite a && isFinite b && isFinite c then
    ofUnits ((signBit a != signBit b) && signBit c) (units a * units b + units c * 2 ^ 149) (2 ^ 149)
  else add (mul a b) c

/-- Integer square root by bisection on a given number of bits. -/
def isqrtAux : Nat → Nat → Nat → Nat
  | 0, _, r => r
  | k + 1, n, r => let c := r + 2 ^ k; if c * c ≤ n then isqrtAux k n c else isqrtAux k n r

/-- The integer square root of numbers below 2^(2 * 300). -/
def isqrt (n : Nat) : Nat := isqrtAux (n.log2 / 2 + 1) n 0

def sqrt (a : Word) : Word :=
  if isNaN a then nan else if isZero a then a else if signBit a then nan else if isInf a then a
  else
    let n := magUnits a * 2 ^ 149 * 2 ^ 128
    let r := isqrt n
    let sticky := if r * r = n then 0 else 1
    ofUnits false (2 * r + sticky : Nat) (2 ^ 65)

/-- Numeric order; false where either value is a NaN. -/
def lt (a b : Word) : Bool :=
  if isNaN a || isNaN b then false
  else if isInf a || isInf b then
    (if a == b then false else (isInf a && signBit a) || (isInf b && !signBit b && !(isInf a && !signBit a)))
  else decide (units a < units b)

def le (a b : Word) : Bool := !isNaN a && !isNaN b && !lt b a
def feq (a b : Word) : Bool := le a b && le b a
def max (a b : Word) : Word := if lt a b then b else a
def min (a b : Word) : Word := if lt b a then b else a

/-- A uQ0.16 fraction as float32. -/
def ofQ16 (n : Nat) : Word := ofRat n 65536

/-- Magnitude of a complex number. -/
def hypot (re im : Word) : Word := sqrt (add (mul re re) (mul im im))

/-- The value of a finite word times `scale`, rounded to an integer under R5; 0 for a value that is not finite. -/
def toScaled (w : Word) (scale : Nat) : Int :=
  if isFinite w then roundDivI (units w * scale) (2 ^ 149) else 0

end F32

/-! ### Checksums -/

/-- One bit of a reflected CRC register. -/
def crcBit (poly c : Nat) : Nat := if c % 2 = 1 then (c / 2) ^^^ poly else c / 2

/-- One byte through a reflected CRC register. -/
def crcByte (poly c : Nat) (b : Byte) : Nat :=
  let x := c ^^^ b.toNat
  crcBit poly (crcBit poly (crcBit poly (crcBit poly (crcBit poly (crcBit poly (crcBit poly (crcBit poly x)))))))

/-- CRC-32C (Castagnoli), reflected, initial and final value all ones. The spec names it; its parameters are the
standard ones. PRESUMED, log entry 20. -/
def crc32c (bs : List Byte) : Nat := (bs.foldl (crcByte 0x82F63B78) 0xFFFFFFFF) ^^^ 0xFFFFFFFF

/-- One byte through an unreflected CRC of width `w`. -/
def crcMsbByte (w poly c : Nat) (b : Byte) : Nat :=
  let step (x : Nat) : Nat := (if 2 ^ (w - 1) ≤ x then (2 * x) ^^^ poly else 2 * x) % 2 ^ w
  step (step (step (step (step (step (step (step (c ^^^ b.toNat * 2 ^ (w - 8)))))))))

/-- CRC-CCITT as C37.118.2 uses it: polynomial 0x1021, initial value 0xFFFF. PRESUMED, log entry 20. -/
def crcCcitt (bs : List Byte) : Nat := bs.foldl (crcMsbByte 16 0x1021) 0xFFFF

/-- CRC-8 with polynomial 0x07 and initial value 0, as the SMBus packet error check (R598). -/
def crc8 (bs : List Byte) : Nat := bs.foldl (crcMsbByte 8 0x07) 0

/-! ### Bytes -/

/-- `n` bytes of a value, least significant first. -/
def leBytes : Nat → Nat → List Byte
  | 0, _ => []
  | k + 1, v => BitVec.ofNat 8 v :: leBytes k (v / 256)

/-- `n` bytes of a value, most significant first. -/
def beBytes (n v : Nat) : List Byte := (leBytes n v).reverse

/-- The value of bytes, least significant first. -/
def ofLe : List Byte → Nat
  | [] => 0
  | b :: bs => b.toNat + 256 * ofLe bs

/-- The value of bytes, most significant first. -/
def ofBe (bs : List Byte) : Nat := ofLe bs.reverse

/-- `n` bytes of a list from an offset. -/
def slice (bs : List Byte) (o n : Nat) : List Byte := (bs.drop o).take n

/-- A little-endian field of a byte list. -/
def leAt (bs : List Byte) (o n : Nat) : Nat := ofLe (slice bs o n)

/-- A big-endian field of a byte list. -/
def beAt (bs : List Byte) (o n : Nat) : Nat := ofBe (slice bs o n)

/-- The bytes of a word, least significant first (R8). -/
def wordBytes (w : Word) : List Byte := leBytes 4 w.toNat

/-- Bytes of text. -/
def textBytes (t : String) : List Byte := t.toList.map fun c => BitVec.ofNat 8 c.toNat

/-- A list padded with zero bytes to a length. -/
def padTo (n : Nat) (bs : List Byte) : List Byte := bs ++ List.replicate (n - bs.length) 0

end Sys2Proof.Machine
end

