-- ==== Sys2Proof/Machine/Trig.lean ====
section
/-! DEFINITION. Cosine and sine of a float32 angle (R114): computed far beyond float32's precision, and then, because the spec
bounds the error by 2 units in the last place and fixes no value, any float32 value within that bound. Angle and natural logarithm in
the same way; for these the spec states no bound, and the model takes the same (log entry 122, DESIGN CHOICE). -/
namespace Sys2Proof.Machine

/-- 2π in units of 2^-320. -/
def twoPi : Nat := 0x6487ed5110b4611a62633145c06e0e68948127044533e63a0105df531d89cd9128a5043cc71a026ef

/-- An angle modulo 2π, in units of 2^-320. -/
def angleRed (x : Word) : Int := F32.units x * 2 ^ 171 % (twoPi : Int)

/-- The cosine of an angle in units of 2^-320, in the same units: 60 terms of its series. -/
def cosUnits (a : Int) : Int :=
  let a := if 2 * a ≤ twoPi then a else a - twoPi
  let sq := a * a / 2 ^ 320
  ((List.range 60).foldl (fun (s : Int × Int) k =>
    let t := -(s.1 * sq / 2 ^ 320) / ((2 * k + 1) * (2 * k + 2) : Nat)
    (t, s.2 + t)) (2 ^ 320, 2 ^ 320)).2

/-- One unit in the last place of float32 at a value in units of 2^-320, in the same units; the least is 2^-149. -/
def ulpUnits (v : Int) : Nat := 2 ^ (max v.natAbs.log2 194 - 23)

/-- The float32 values within 2 units in the last place of a value, among the neighbours of the nearest. -/
def within2 (v : Int) : List Word :=
  let w := F32.ofRat v (2 ^ 320)
  let n : Int := w.toNat % 2 ^ 31
  let step (k : Int) : Word :=
    let m := (if F32.signBit w then -n else n) + k
    F32.pack (decide (m < 0)) m.natAbs
  ((([-4, -3, -2, -1, 0, 1, 2, 3, 4] : List Int).map step).filter fun x =>
    decide ((F32.units x * 2 ^ 171 - v).natAbs ≤ 2 * ulpUnits v))

/-- A free choice among the values within the bound; no finite angle has no cosine, and the result is then NaN. -/
def nearPick (x : Word) (pick : Nat) (v : Int) : Word :=
  if F32.isFinite x then
    let c := within2 v
    c.getD (pick % c.length) F32.nan
  else F32.nan

/-- Cosine of a float32 angle in radians, within 2 units in the last place (R114). -/
def cosF (x : Word) : Word := nearPick x (Config.cosPick x) (cosUnits (angleRed x))

/-- Sine of a float32 angle in radians, likewise: the cosine a quarter turn back. -/
def sinF (x : Word) : Word := nearPick x (Config.sinPick x) (cosUnits ((angleRed x - twoPi / 4) % (twoPi : Int)))

/-! ### Angle and logarithm -/

/-- π in units of 2^-320, and as the float32 nearest to it. -/
def piUnits : Nat := twoPi / 2
def pi32 : Word := 0x40490FDB#32

/-- `n` terms of x + σ x³/3 + x⁵/5 + …, in units of 2^-320: the inverse tangent where σ is −1, the inverse hyperbolic one where it is 1. -/
def oddSeries (n : Nat) (sigma x : Int) : Int :=
  let sq := x * x / 2 ^ 320
  ((List.range n).foldl (fun (s : Int × Int) k => (sigma * s.1 * sq / 2 ^ 320, s.2 + s.1 / (2 * k + 1 : Nat))) (x, 0)).2

/-- The inverse tangent of a ratio between 0 and 1, in units of 2^-320: above a half, an eighth of a turn on. -/
def atanUnits (r : Nat) : Int :=
  if 2 * r ≤ 2 ^ 320 then oddSeries 80 (-1) r
  else (piUnits / 4 : Nat) + oddSeries 80 (-1) ((((r : Int) - 2 ^ 320) * 2 ^ 320) / ((r : Int) + 2 ^ 320))

/-- The angle of re + j im, in (−π, π], in units of 2^-320; the two are finite and not both zero. -/
def angleUnits (re im : Word) : Int :=
  let a := F32.magUnits re
  let b := F32.magUnits im
  let t := atanUnits (min a b * 2 ^ 320 / max a b)
  let q := if b ≤ a then t else (piUnits / 2 : Nat) - t
  let h := if F32.lt re F32.zero then (piUnits : Int) - q else q
  if F32.lt im F32.zero then -h else h

/-- The angle of a complex number in rad, in (−π, π]: a float32 value within 2 units in the last place. -/
def angleF (re im : Word) : Word :=
  if F32.isFinite re && F32.isFinite im && !(F32.isZero re && F32.isZero im) then
    let c := (within2 (angleUnits re im)).filter fun x => F32.lt (F32.neg pi32) x && F32.le x pi32
    c.getD (Config.anglePick re im % c.length) F32.nan
  else Config.angleF re im

/-- ln 2 in units of 2^-320. -/
def ln2Units : Int := 2 * oddSeries 110 1 (2 ^ 320 / 3)

/-- The natural logarithm of a positive finite value, in units of 2^-320. -/
def logUnits (x : Word) : Int :=
  let m := F32.magUnits x
  let e := m.log2
  (((e : Int) - 149) * ln2Units) + 2 * oddSeries 60 1 ((((m : Int) - 2 ^ e) * 2 ^ 320) / ((m : Int) + 2 ^ e))

/-- Natural logarithm: a float32 value within 2 units in the last place. -/
def logF (x : Word) : Word :=
  if F32.isFinite x && F32.lt F32.zero x then nearPick x (Config.logPick x) (logUnits x) else Config.logF x

end Sys2Proof.Machine
end

