-- ==== Sys2Proof/Machine/LinAlg.lean ====
section
/-! DEFINITION. The float32 arithmetic of the analyses (R245): compensated sums in ascending index, complex numbers, and the
least squares, eigenvalues and pseudo-inverse of the extraction (R248, R249). The spec names the methods (Householder QR,
Hessenberg form, shifted QR with at most 30 sweeps a value) and says that the order of operations is fixed, not what it is:
the order here is the model's choice (log entry 26), the shift of a sweep and when an entry counts as zero are free
(`Config.qrShift`, `Config.qrSmall`, `Config.pinvSmall`), and log entry 82 says what else is chosen. -/
namespace Sys2Proof.Machine

/-! ### Sums (R245) -/

/-- The rounded sum of two values and its error. -/
def twoSum (a b : Word) : Word × Word :=
  let s := F32.add a b
  let z := F32.sub s a
  (s, F32.add (F32.sub a (F32.sub s z)) (F32.sub b z))

/-- One term into a compensated pair of partial sums. -/
def dotStep (acc : Word × Word) (t : Word × Word) : Word × Word :=
  let p := F32.mul t.1 t.2
  let e := F32.fma t.1 t.2 (F32.neg p)
  let (s, r) := twoSum acc.1 p
  (s, F32.add acc.2 (F32.add e r))

/-- A dot product, in ascending index. -/
def dotF (xs ys : List Word) : Word :=
  let r := (xs.zip ys).foldl dotStep (F32.zero, F32.zero)
  F32.add r.1 r.2

def sumF (xs : List Word) : Word := dotF xs (List.replicate xs.length F32.one)
def sumSq (xs : List Word) : Word := dotF xs xs
def meanF (xs : List Word) : Word := F32.div (sumF xs) (F32.ofInt xs.length)
def normF (xs : List Word) : Word := F32.sqrt (sumSq xs)
def scaleF (k : Word) (xs : List Word) : List Word := xs.map (F32.mul k)

/-- A variance: squared deviations from the mean over the count, or over one less, as `Config.varLess` has it (R250, R255). -/
def varianceF (xs : List Word) : Word :=
  let m := meanF xs
  F32.div (sumSq (xs.map fun x => F32.sub x m)) (F32.ofInt ((xs.length : Int) - if Config.varLess then 1 else 0))

/-! ### Complex numbers -/

/-- V × conj(I): real and imaginary part. -/
def mulConj (v i : Word × Word) : Word × Word :=
  (F32.fma v.1 i.1 (F32.mul v.2 i.2), F32.fma v.2 i.1 (F32.neg (F32.mul v.1 i.2)))

def cmul (a b : Word × Word) : Word × Word :=
  (F32.fma a.1 b.1 (F32.neg (F32.mul a.2 b.2)), F32.fma a.1 b.2 (F32.mul a.2 b.1))
def cdiv (a b : Word × Word) : Word × Word :=
  let d := F32.fma b.1 b.1 (F32.mul b.2 b.2)
  let n := mulConj a b
  (F32.div n.1 d, F32.div n.2 d)
def cabs (a : Word × Word) : Word := F32.hypot a.1 a.2
def cabs2 (a : Word × Word) : Word := F32.fma a.1 a.1 (F32.mul a.2 a.2)
def cconj (a : Word × Word) : Word × Word := (a.1, F32.neg a.2)
def cneg (a : Word × Word) : Word × Word := (F32.neg a.1, F32.neg a.2)
def cadd (a b : Word × Word) : Word × Word := (F32.add a.1 b.1, F32.add a.2 b.2)
def csub (a b : Word × Word) : Word × Word := (F32.sub a.1 b.1, F32.sub a.2 b.2)
def czero : Word × Word := (F32.zero, F32.zero)
def cone : Word × Word := (F32.one, F32.zero)

/-- Σ a × b over complex entries, each part one compensated sum. -/
def cdot (a b : List (Word × Word)) : Word × Word :=
  let ar := a.map (·.1)
  let ai := a.map (·.2)
  let br := b.map (·.1)
  let bi := b.map (·.2)
  let n := min a.length b.length
  (dotF (ar.take n ++ ai.take n) (br.take n ++ (bi.take n).map F32.neg), dotF (ar.take n ++ ai.take n) (bi.take n ++ br.take n))

/-! ### Matrices, as lists of rows -/

def colOf (w : List (List Word)) (k : Nat) : List Word := w.map fun r => r.getD k F32.zero
def colsOf (w : List (List Word)) (p : Nat) : List (List Word) := (List.range p).map (colOf w)
def matVec (m : List (List Word)) (x : List Word) : List Word := m.map fun r => dotF r x
def transposeM (m : List (List Word)) : List (List Word) := colsOf m ((m.headD []).length)

/-- Modified Gram-Schmidt on a number of columns, in their order. -/
def mgsCols : Nat → List (List Word) → List (List Word)
  | 0, cs => cs
  | _, [] => []
  | k + 1, c :: rest =>
    let n := normF c
    let q := c.map fun x => F32.div x n
    q :: mgsCols k (rest.map fun d => let a := dotF q d; (d.zip q).map fun t => F32.fma (F32.neg a) t.2 t.1)

/-- W orthonormalised. -/
def mgs (w : List (List Word)) : List (List Word) := transposeM (mgsCols w.length.succ (transposeM w))

/-! ### Least squares by Householder QR (R248) -/

/-- The Householder vector of a column, and the value its head takes. -/
def house (c : List Word) : List Word × Word :=
  let h := c.headD F32.zero
  let n := normF c
  let a := if F32.signBit h then n else F32.neg n
  (F32.sub h a :: c.drop 1, a)

/-- A column reflected: x − 2 (v·x / v·v) v; unchanged where v is 0. -/
def reflect (v x : List Word) : List Word :=
  let q := sumSq v
  if F32.isZero q then x
  else
    let k := F32.neg (F32.div (F32.mul (F32.ofInt 2) (dotF v x)) q)
    (x.zip v).map fun t => F32.fma k t.2 t.1

/-- The triangular system that Householder QR of at most so many columns leaves, with right sides `bs`: row by row, the row of R from
its diagonal on and the right sides. -/
def lsRows : Nat → List (List Word) → List (List Word) → List (List Word × List Word)
  | 0, _, _ => []
  | _, [], _ => []
  | k + 1, c :: cs, bs =>
    let (v, a) := house c
    let cs := cs.map (reflect v)
    let bs := bs.map (reflect v)
    (a :: cs.map (·.headD F32.zero), bs.map (·.headD F32.zero)) :: lsRows k (cs.map (·.drop 1)) (bs.map (·.drop 1))

/-- Back substitution: the rows of X. -/
def backSub : List (List Word × List Word) → List (List Word)
  | [] => []
  | (r, b) :: rest =>
    let x := backSub rest
    (b.zipIdx.map fun t => F32.div (F32.sub t.1 (dotF (r.drop 1) (colOf x t.2))) (r.headD F32.zero)) :: x

/-- X with A × X = B in the least squares sense; A, B and X by rows. -/
def leastSquares (a b : List (List Word)) : List (List Word) := let cs := transposeM a; backSub (lsRows cs.length cs (transposeM b))

/-! ### Hessenberg form (R248) -/

/-- A row vector of the matrix combined with a reflector: M − (2 / v·v) v (vᵀ M). -/
def reflectRows (v : List Word) (m : List (List Word)) : List (List Word) := transposeM ((transposeM m).map (reflect v))

/-- One column brought to Hessenberg form, with the transformation carried along. -/
def hessStep (k : Nat) (m q : List (List Word)) : List (List Word) × List (List Word) :=
  let (v, _) := house ((colOf m k).drop (k + 1))
  let v := List.replicate (k + 1) F32.zero ++ v
  (((reflectRows v m).map (reflect v)), q.map (reflect v))

/-- Hessenberg form H of M and Q with M = Q H Qᵀ. -/
def hessenberg (m : List (List Word)) : List (List Word) × List (List Word) :=
  let p := m.length
  let eye := (List.range p).map fun i => (List.range p).map fun k => if i = k then F32.one else F32.zero
  (List.range (p - 2)).foldl (fun a k => hessStep k a.1 a.2) (m, eye)

/-! ### Shifted QR (R248) -/

/-- A complex matrix in work: the matrix and the transformation that led to it, both by rows. -/
structure EigWork where
  t : List (List (Word × Word))
  q : List (List (Word × Word))
  deriving DecidableEq, Repr

def centry (m : List (List (Word × Word))) (i k : Nat) : Word × Word := (m.getD i []).getD k czero

/-- The rotation that clears `b` below `a`. -/
def givens (a b : Word × Word) : (Word × Word) × (Word × Word) :=
  let r := F32.sqrt (F32.add (cabs2 a) (cabs2 b))
  if F32.isZero r then (cone, czero) else ((F32.div a.1 r, F32.div a.2 r), (F32.div b.1 r, F32.div b.2 r))

/-- Rows `i` and `i + 1` combined by a rotation. -/
def rotRows (i : Nat) (g : (Word × Word) × (Word × Word)) (m : List (List (Word × Word))) : List (List (Word × Word)) :=
  let x := m.getD i []
  let y := m.getD (i + 1) []
  (m.set i ((x.zip y).map fun t => cadd (cmul (cconj g.1) t.1) (cmul (cconj g.2) t.2))).set (i + 1)
    ((x.zip y).map fun t => csub (cmul g.1 t.2) (cmul g.2 t.1))

/-- Columns `i` and `i + 1` combined by the rotation's adjoint. -/
def rotCols (i : Nat) (g : (Word × Word) × (Word × Word)) (m : List (List (Word × Word))) : List (List (Word × Word)) :=
  m.map fun r =>
    let x := r.getD i czero
    let y := r.getD (i + 1) czero
    (r.set i (cadd (cmul x g.1) (cmul y g.2))).set (i + 1) (csub (cmul y (cconj g.1)) (cmul x (cconj g.2)))

/-- The first `n + 1` diagonal entries moved by a value. -/
def shiftDiag (n : Nat) (z : Word × Word) (m : List (List (Word × Word))) : List (List (Word × Word)) :=
  m.zipIdx.map fun r => if r.2 ≤ n then r.1.set r.2 (cadd (r.1.getD r.2 czero) z) else r.1

/-- One sweep over the leading `n + 1` rows with a shift. -/
def qrSweep (n : Nat) (mu : Word × Word) (e : EigWork) : EigWork :=
  let down := (List.range n).foldl (fun (a : List (List (Word × Word)) × List ((Word × Word) × (Word × Word))) i =>
    let g := givens (centry a.1 i i) (centry a.1 (i + 1) i)
    (rotRows i g a.1, a.2 ++ [g])) (shiftDiag n (cneg mu) e.t, [])
  let up := down.2.zipIdx.foldl (fun a g => (⟨rotCols g.2 g.1 a.t, rotCols g.2 g.1 a.q⟩ : EigWork)) ⟨down.1, e.q⟩
  { up with t := shiftDiag n mu up.t }

/-- Sweeps until the leading `n + 1` rows are triangular; none where a value takes more than 30. The first argument bounds the
calls, 31 to a value. -/
def qrRun : Nat → Nat → Nat → EigWork → Option EigWork
  | _, 0, _, e => some e
  | 0, _ + 1, _, _ => none
  | f + 1, n + 1, k, e =>
    if Config.qrSmall (cabs (centry e.t (n + 1) n)) (F32.add (cabs (centry e.t n n)) (cabs (centry e.t (n + 1) (n + 1)))) then qrRun f n 0 e
    else if 30 ≤ k then none
    else qrRun f (n + 1) (k + 1)
      (qrSweep (n + 1) (Config.qrShift k (centry e.t n n) (centry e.t n (n + 1)) (centry e.t (n + 1) n) (centry e.t (n + 1) (n + 1))) e)

/-- The eigenvector of the triangular matrix for its `i`-th diagonal entry: entry `i` is 1, those after it 0. -/
def triVector (t : List (List (Word × Word))) (i : Nat) : List (Word × Word) :=
  let z := centry t i i
  (List.range i).reverse.foldl (fun x k =>
    cneg (cdiv (cdot (((t.getD k []).drop (k + 1)).take (i - k)) x) (csub (centry t k k) z)) :: x) [cone]

/-- Eigenvalues and eigenvectors of a real matrix; none where they do not converge (R248). -/
def eigen (m : List (List Word)) : Option (List (Word × Word × List (Word × Word))) :=
  let p := m.length
  let (h, q) := hessenberg m
  let lift (a : List (List Word)) := a.map fun r => r.map fun x => (x, F32.zero)
  (qrRun (31 * p) (p - 1) 0 ⟨lift h, lift q⟩).map fun e =>
    (List.range p).map fun i =>
      let z := centry e.t i i
      let y := triVector e.t i
      (z.1, z.2, e.q.map fun r => cdot (r.take (i + 1)) y)

/-- Least squares and eigenvalues of the matrix pencil of two stacks of rows (R248). -/
def pencil (wd wu : List (List Word)) : Option (List (Word × Word × List (Word × Word))) := eigen (leastSquares wd wu)

/-! ### The pseudo-inverse (R249) -/

/-- One column more: the rows of the pseudo-inverse of the columns so far become those with `a` added. `Config.pinvSmall` says
whether what the others leave of `a` counts as nothing. -/
def pinvStep (w : List (List (Word × Word)) × List (List (Word × Word))) (a : List (Word × Word)) :
    List (List (Word × Word)) × List (List (Word × Word)) :=
  let (cols, inv) := w
  let d := inv.map fun r => cdot r a
  let fit := (List.range a.length).map fun i => cdot (cols.map fun c => c.getD i czero) d
  let c := (a.zip fit).map fun t => csub t.1 t.2
  let cc := sumF (c.map cabs2)
  let quot (k : Word) (r : List (Word × Word)) : List (Word × Word) := r.map fun z => (F32.div z.1 k, F32.div z.2 k)
  let b : List (Word × Word) :=
    if Config.pinvSmall cc (sumF (a.map cabs2)) then
      quot (F32.add F32.one (sumF (d.map cabs2))) ((List.range a.length).map fun i => cdot (d.map cconj) (inv.map fun r => r.getD i czero))
    else quot cc (c.map cconj)
  (cols ++ [a], (inv.zip d).map (fun r => (r.1.zip b).map fun t => csub t.1 (cmul r.2 t.2)) ++ [b])

/-- The Moore-Penrose inverse of a complex matrix given by columns, by rows: Greville's recursion (log entry 82). -/
def pinvF (cols : List (List (Word × Word))) : List (List (Word × Word)) := (cols.foldl pinvStep ([], [])).2

end Sys2Proof.Machine
end

