-- ==== Sys2Proof/Machine/Hash.lean ====
section
/-! DEFINITION. The hash functions that the spec names by standard (R2): SHA-256 and SHA-384 of FIPS 180-4 and HMAC of
FIPS 198-1. Constants and steps are the standards' own. -/
namespace Sys2Proof.Machine

/-- Octets as one number, most significant first, and back. -/
def octNat (bs : List Byte) : Nat := bs.foldl (fun a b => 256 * a + b.toNat) 0

/-- The `n` low octets of a number, most significant first. -/
def natOct : Nat → Nat → List Byte
  | 0, _ => []
  | n + 1, v => natOct n (v / 256) ++ [BitVec.ofNat 8 v]

/-- A message padded to whole blocks: a 1 bit, zeros, and the length in bits in the last eighth of a block. -/
def shaPad (block : Nat) (m : List Byte) : List Byte :=
  let tail := block / 8
  let z := (2 * block - 1 - tail - m.length % block) % block
  m ++ [0x80#8] ++ List.replicate z 0#8 ++ natOct tail (8 * m.length)

/-- Pieces of `n` octets; `k` bounds their number. -/
def pieces (n : Nat) : Nat → List Byte → List (List Byte)
  | 0, _ => []
  | k + 1, bs => if bs.isEmpty then [] else bs.take n :: pieces n k (bs.drop n)

/-- The constants and rotations in which SHA-256 and SHA-384 differ: word width, rounds' constants, and the two rotations and
the rotation or shift of each sigma. -/
structure ShaKind (w : Nat) where
  k : List (BitVec w)
  big0 : Nat × Nat × Nat
  big1 : Nat × Nat × Nat
  small0 : Nat × Nat × Nat
  small1 : Nat × Nat × Nat

/-- Σ: three rotations. -/
def shaBig {w : Nat} (r : Nat × Nat × Nat) (x : BitVec w) : BitVec w :=
  x.rotateRight r.1 ^^^ x.rotateRight r.2.1 ^^^ x.rotateRight r.2.2

/-- σ: two rotations and a shift. -/
def shaSmall {w : Nat} (r : Nat × Nat × Nat) (x : BitVec w) : BitVec w :=
  x.rotateRight r.1 ^^^ x.rotateRight r.2.1 ^^^ x >>> r.2.2

/-- The message schedule: `win` holds the last 16 words, oldest first; `n` words are still to come. -/
def shaSched {w : Nat} (c : ShaKind w) : Nat → List (BitVec w) → List (BitVec w)
  | 0, win => win
  | n + 1, win =>
    let x := shaSmall c.small1 (win.getD 14 0) + win.getD 9 0 + shaSmall c.small0 (win.getD 1 0) + win.getD 0 0
    win.headD 0 :: shaSched c n (win.drop 1 ++ [x])

/-- One round on the eight working words. -/
def shaRound {w : Nat} (c : ShaKind w) (v : List (BitVec w)) (kw : BitVec w) : List (BitVec w) :=
  match v with
  | [a, b, cc, d, e, f, g, h] =>
    let t1 := h + shaBig c.big1 e + ((e &&& f) ^^^ (~~~e &&& g)) + kw
    let t2 := shaBig c.big0 a + ((a &&& b) ^^^ (a &&& cc) ^^^ (b &&& cc))
    [t1 + t2, a, b, cc, d + t1, e, f, g]
  | v => v

/-- One block into the chaining value. -/
def shaBlock {w : Nat} (c : ShaKind w) (h : List (BitVec w)) (b : List Byte) : List (BitVec w) :=
  let m := (pieces (w / 8) 16 b).map fun p => BitVec.ofNat w (octNat p)
  let ws := shaSched c (c.k.length - 16) m
  List.zipWith (· + ·) h ((List.zipWith (· + ·) c.k ws).foldl (shaRound c) h)

def shaOf {w : Nat} (c : ShaKind w) (h : List (BitVec w)) (m : List Byte) : List Byte :=
  let p := shaPad (2 * w) m
  ((pieces (2 * w) (p.length / (2 * w)) p).foldl (shaBlock c) h).flatMap fun x => natOct (w / 8) x.toNat

def k2560 : List (BitVec 32) :=
  [0x428a2f98#32, 0x71374491#32, 0xb5c0fbcf#32, 0xe9b5dba5#32, 0x3956c25b#32, 0x59f111f1#32, 0x923f82a4#32, 0xab1c5ed5#32,
    0xd807aa98#32, 0x12835b01#32, 0x243185be#32, 0x550c7dc3#32, 0x72be5d74#32, 0x80deb1fe#32, 0x9bdc06a7#32, 0xc19bf174#32]
def k2561 : List (BitVec 32) :=
  [0xe49b69c1#32, 0xefbe4786#32, 0x0fc19dc6#32, 0x240ca1cc#32, 0x2de92c6f#32, 0x4a7484aa#32, 0x5cb0a9dc#32, 0x76f988da#32,
    0x983e5152#32, 0xa831c66d#32, 0xb00327c8#32, 0xbf597fc7#32, 0xc6e00bf3#32, 0xd5a79147#32, 0x06ca6351#32, 0x14292967#32]
def k2562 : List (BitVec 32) :=
  [0x27b70a85#32, 0x2e1b2138#32, 0x4d2c6dfc#32, 0x53380d13#32, 0x650a7354#32, 0x766a0abb#32, 0x81c2c92e#32, 0x92722c85#32,
    0xa2bfe8a1#32, 0xa81a664b#32, 0xc24b8b70#32, 0xc76c51a3#32, 0xd192e819#32, 0xd6990624#32, 0xf40e3585#32, 0x106aa070#32]
def k2563 : List (BitVec 32) :=
  [0x19a4c116#32, 0x1e376c08#32, 0x2748774c#32, 0x34b0bcb5#32, 0x391c0cb3#32, 0x4ed8aa4a#32, 0x5b9cca4f#32, 0x682e6ff3#32,
    0x748f82ee#32, 0x78a5636f#32, 0x84c87814#32, 0x8cc70208#32, 0x90befffa#32, 0xa4506ceb#32, 0xbef9a3f7#32, 0xc67178f2#32]
/-- The 64 round constants of SHA-256. -/
def k256 : List (BitVec 32) := k2560 ++ k2561 ++ k2562 ++ k2563

def k5120 : List (BitVec 64) :=
  [0x428a2f98d728ae22#64, 0x7137449123ef65cd#64, 0xb5c0fbcfec4d3b2f#64, 0xe9b5dba58189dbbc#64,
    0x3956c25bf348b538#64, 0x59f111f1b605d019#64, 0x923f82a4af194f9b#64, 0xab1c5ed5da6d8118#64,
    0xd807aa98a3030242#64, 0x12835b0145706fbe#64, 0x243185be4ee4b28c#64, 0x550c7dc3d5ffb4e2#64,
    0x72be5d74f27b896f#64, 0x80deb1fe3b1696b1#64, 0x9bdc06a725c71235#64, 0xc19bf174cf692694#64]
def k5121 : List (BitVec 64) :=
  [0xe49b69c19ef14ad2#64, 0xefbe4786384f25e3#64, 0x0fc19dc68b8cd5b5#64, 0x240ca1cc77ac9c65#64,
    0x2de92c6f592b0275#64, 0x4a7484aa6ea6e483#64, 0x5cb0a9dcbd41fbd4#64, 0x76f988da831153b5#64,
    0x983e5152ee66dfab#64, 0xa831c66d2db43210#64, 0xb00327c898fb213f#64, 0xbf597fc7beef0ee4#64,
    0xc6e00bf33da88fc2#64, 0xd5a79147930aa725#64, 0x06ca6351e003826f#64, 0x142929670a0e6e70#64]
def k5122 : List (BitVec 64) :=
  [0x27b70a8546d22ffc#64, 0x2e1b21385c26c926#64, 0x4d2c6dfc5ac42aed#64, 0x53380d139d95b3df#64,
    0x650a73548baf63de#64, 0x766a0abb3c77b2a8#64, 0x81c2c92e47edaee6#64, 0x92722c851482353b#64,
    0xa2bfe8a14cf10364#64, 0xa81a664bbc423001#64, 0xc24b8b70d0f89791#64, 0xc76c51a30654be30#64,
    0xd192e819d6ef5218#64, 0xd69906245565a910#64, 0xf40e35855771202a#64, 0x106aa07032bbd1b8#64]
def k5123 : List (BitVec 64) :=
  [0x19a4c116b8d2d0c8#64, 0x1e376c085141ab53#64, 0x2748774cdf8eeb99#64, 0x34b0bcb5e19b48a8#64,
    0x391c0cb3c5c95a63#64, 0x4ed8aa4ae3418acb#64, 0x5b9cca4f7763e373#64, 0x682e6ff3d6b2b8a3#64,
    0x748f82ee5defb2fc#64, 0x78a5636f43172f60#64, 0x84c87814a1f0ab72#64, 0x8cc702081a6439ec#64,
    0x90befffa23631e28#64, 0xa4506cebde82bde9#64, 0xbef9a3f7b2c67915#64, 0xc67178f2e372532b#64]
def k5124 : List (BitVec 64) :=
  [0xca273eceea26619c#64, 0xd186b8c721c0c207#64, 0xeada7dd6cde0eb1e#64, 0xf57d4f7fee6ed178#64,
    0x06f067aa72176fba#64, 0x0a637dc5a2c898a6#64, 0x113f9804bef90dae#64, 0x1b710b35131c471b#64,
    0x28db77f523047d84#64, 0x32caab7b40c72493#64, 0x3c9ebe0a15c9bebc#64, 0x431d67c49c100d4c#64,
    0x4cc5d4becb3e42b6#64, 0x597f299cfc657e2a#64, 0x5fcb6fab3ad6faec#64, 0x6c44198c4a475817#64]
/-- The 80 round constants of SHA-384. -/
def k512 : List (BitVec 64) := k5120 ++ k5121 ++ k5122 ++ k5123 ++ k5124

def sha256Kind : ShaKind 32 := ⟨k256, (2, 13, 22), (6, 11, 25), (7, 18, 3), (17, 19, 10)⟩
def sha384Kind : ShaKind 64 := ⟨k512, (28, 34, 39), (14, 18, 41), (1, 8, 7), (19, 61, 6)⟩

/-- SHA-256 (R2, R115). -/
def sha256 (m : List Byte) : List Byte :=
  shaOf sha256Kind [0x6a09e667#32, 0xbb67ae85#32, 0x3c6ef372#32, 0xa54ff53a#32, 0x510e527f#32, 0x9b05688c#32, 0x1f83d9ab#32, 0x5be0cd19#32] m

/-- SHA-384 (R2, R442, R461, R476, R509). -/
def sha384 (m : List Byte) : List Byte :=
  (shaOf sha384Kind [0xcbbb9d5dc1059ed8#64, 0x629a292a367cd507#64, 0x9159015a3070dd17#64, 0x152fecd8f70e5939#64,
    0x67332667ffc00b31#64, 0x8eb44a8768581511#64, 0xdb0c2e0d64f98fa7#64, 0x47b5481dbefa4fa4#64] m).take 48

/-- HMAC of a hash with blocks of `block` octets (FIPS 198-1). -/
def hmacOf (hash : List Byte → List Byte) (block : Nat) (key m : List Byte) : List Byte :=
  let k := if block < key.length then hash key else key
  let k := k ++ List.replicate (block - k.length) 0#8
  hash (k.map (· ^^^ 0x5c#8) ++ hash (k.map (· ^^^ 0x36#8) ++ m))

/-- HMAC-SHA-256 (R115). -/
def hmac256 (key m : List Byte) : List Byte := hmacOf sha256 64 key m

/-- HMAC-SHA-384 (R442, R445, R452). -/
def hmac384 (key m : List Byte) : List Byte := hmacOf sha384 128 key m

end Sys2Proof.Machine
end

