-- ==== Sys2Proof/Machine/Aes.lean ====
section
/-! DEFINITION. AES (FIPS 197), the key wrap of NIST SP 800-38F and the GMAC of NIST SP 800-38D, which the spec names by
standard (R2): franking (R115), imported keys (R445, R456). A state of the cipher is its 16 octets in order. -/
namespace Sys2Proof.Machine

/-! ### The field of 256 elements and the S-box -/

/-- Multiplication by x modulo x^8 + x^4 + x^3 + x + 1. -/
def gfX (b : Byte) : Byte := (b <<< 1) ^^^ (if b.msb then 0x1b#8 else 0#8)

/-- The product, over the bits of the second factor from the least; `k` counts them. -/
def gfMul : Nat → Byte → Byte → Byte
  | 0, _, _ => 0#8
  | k + 1, a, b => (if b.getLsbD 0 then a else 0#8) ^^^ gfMul k (gfX a) (b >>> 1)

/-- The inverse, 0 for 0: the 254th power. -/
def gfInv (b : Byte) : Byte :=
  let sq (x : Byte) : Byte := gfMul 8 x x
  let x2 := sq b
  let x4 := sq x2
  let x8 := sq x4
  let x16 := sq x8
  let x32 := sq x16
  let x64 := sq x32
  let x128 := sq x64
  [x4, x8, x16, x32, x64, x128].foldl (gfMul 8) x2

def sbox (b : Byte) : Byte :=
  let i := gfInv b
  i ^^^ i.rotateLeft 1 ^^^ i.rotateLeft 2 ^^^ i.rotateLeft 3 ^^^ i.rotateLeft 4 ^^^ 0x63#8

/-- The inverse of the S-box. -/
def sboxInv (b : Byte) : Byte := gfInv (b.rotateLeft 1 ^^^ b.rotateLeft 3 ^^^ b.rotateLeft 6 ^^^ 0x05#8)

/-! ### The cipher -/

def xorBytes (a b : List Byte) : List Byte := List.zipWith (· ^^^ ·) a b

/-- The key schedule: words of 4 octets, newest first; `n` words are still to come, `i` is the next one's number and `nk` the
key's words. -/
def aesSched (nk : Nat) : Nat → Nat → Byte → List (List Byte) → List (List Byte)
  | 0, _, _, ws => ws
  | n + 1, i, rc, ws =>
    let t := ws.headD []
    let old := ws.getD (nk - 1) []
    if i % nk = 0 then
      let g := (t.drop 1 ++ t.take 1).map sbox
      aesSched nk n (i + 1) (gfX rc) (xorBytes old (xorBytes g [rc, 0#8, 0#8, 0#8]) :: ws)
    else if 6 < nk ∧ i % nk = 4 then aesSched nk n (i + 1) rc (xorBytes old (t.map sbox) :: ws)
    else aesSched nk n (i + 1) rc (xorBytes old t :: ws)

/-- The round keys of a key of 16, 24 or 32 octets, the first round's first. -/
def aesKeys (key : List Byte) : List (List Byte) :=
  let nk := key.length / 4
  let ws := (aesSched nk (4 * (nk + 7) - nk) nk 1#8 (pieces 4 nk key).reverse).reverse
  pieces 16 (nk + 7) ws.flatten

/-- ShiftRows by `d` columns per row: 1 for the cipher, 3 for its inverse. -/
def shiftRows (d : Nat) (s : List Byte) : List Byte := (List.range 16).map fun i => s.getD (((i / 4 + d * (i % 4)) % 4) * 4 + i % 4) 0#8

/-- MixColumns with the first row's coefficients. -/
def mixColumns (m : List Byte) (s : List Byte) : List Byte :=
  (List.range 16).map fun i =>
    (List.range 4).foldl (fun a j => a ^^^ gfMul 8 (s.getD (i / 4 * 4 + j) 0#8) (m.getD ((j + 4 - i % 4) % 4) 0#8)) 0#8

/-- One block enciphered. -/
def aesEnc (key block : List Byte) : List Byte :=
  match aesKeys key with
  | [] => block
  | k0 :: ks =>
    let mid := ks.dropLast.foldl (fun s k => xorBytes (mixColumns [2#8, 3#8, 1#8, 1#8] (shiftRows 1 (s.map sbox))) k) (xorBytes block k0)
    xorBytes (shiftRows 1 (mid.map sbox)) (ks.getLastD [])

/-- One block deciphered. -/
def aesDec (key block : List Byte) : List Byte :=
  match (aesKeys key).reverse with
  | [] => block
  | k0 :: ks =>
    let mid := ks.dropLast.foldl (fun s k => mixColumns [14#8, 11#8, 13#8, 9#8] (xorBytes ((shiftRows 3 s).map sboxInv) k)) (xorBytes block k0)
    xorBytes ((shiftRows 3 mid).map sboxInv) (ks.getLastD [])

/-! ### Key wrap (R445, R456) -/

/-- One step of unwrapping, for semiblock `i` (from 1) at step number `t`: the register A, and the semiblocks. -/
def unwrapStep (key : List Byte) (x : List Byte × List (List Byte)) (i t : Nat) : List Byte × List (List Byte) :=
  let b := aesDec key (xorBytes x.1 (natOct 8 t) ++ x.2.getD (i - 1) [])
  (b.take 8, x.2.set (i - 1) (b.drop 8))

/-- KW unwrap of whole semiblocks under a key: none where the lengths are not KW's or the integrity check fails. -/
def keyUnwrap (key c : List Byte) : Option (List Byte) :=
  let n := c.length / 8 - 1
  if c.length % 8 ≠ 0 ∨ n < 2 then none
  else
    let order := (List.range 6).reverse.flatMap fun j => (List.range n).reverse.map fun i => (i + 1, n * j + i + 1)
    let r := order.foldl (fun x p => unwrapStep key x p.1 p.2) (c.take 8, pieces 8 n (c.drop 8))
    if r.1 = List.replicate 8 0xA6#8 then some r.2.flatten else none

/-! ### GMAC (R115) -/

/-- The product in the field of 2^128 elements of GCM, bit 0 being the most significant; `k` bits of the first factor are left. -/
def ghMul : Nat → BitVec 128 → BitVec 128 → BitVec 128
  | 0, _, _ => 0#128
  | k + 1, x, v =>
    (if x.msb then v else 0#128) ^^^
      ghMul k (x <<< 1) ((v >>> 1) ^^^ (if v.getLsbD 0 then 0xE1000000000000000000000000000000#128 else 0#128))

/-- GMAC with a 12-octet initialisation vector: the 16-octet tag over data that is authenticated only. -/
def gmac (key iv a : List Byte) : List Byte :=
  let h := BitVec.ofNat 128 (octNat (aesEnc key (List.replicate 16 0#8)))
  let blocks := (pieces 16 (a.length / 16 + 1) a).map fun p => p ++ List.replicate (16 - p.length) 0#8
  let y := (blocks ++ [natOct 8 (8 * a.length) ++ natOct 8 0]).foldl (fun y b => ghMul 128 (y ^^^ BitVec.ofNat 128 (octNat b)) h) 0#128
  xorBytes (natOct 16 y.toNat) (aesEnc key (iv ++ [0#8, 0#8, 0#8, 1#8]))

end Sys2Proof.Machine
end

