-- ==== Sys2Proof/Machine/Ecdsa.lean ====
section
/-! DEFINITION. ECDSA on P-384 with SHA-384 (FIPS 186-5), which the spec names by standard (R2): authorisations and Manifests
(R442, R514), the identity key (R440) and the Seal statement's deterministic signature (R462). -/
namespace Sys2Proof.Machine

/-! ### The curve -/

def p384 : Nat := 2 ^ 384 - 2 ^ 128 - 2 ^ 96 + 2 ^ 32 - 1
/-- The order of the base point. -/
def n384 : Nat := 0xffffffffffffffffffffffffffffffffffffffffffffffffc7634d81f4372ddf581a0db248b0a77aecec196accc52973
def b384 : Nat := 0xb3312fa7e23ee7e4988e056be3f82d19181d9c6efe8141120314088f5013875ac656398d8a2ed19d2a85c8edd3ec2aef
/-- The base point. -/
def g384 : Nat × Nat :=
  (0xaa87ca22be8b05378eb1c71ef320ad746e1d3b628ba79b9859f741e082542a385502f25dbf55296c3a545e3872760ab7,
   0x3617de4a96262c6f5d9e98bf9292dc29f8f41dbd289a147ce9da3113b5f0b8c00a60b1ce1d7e819d7a431d7c90ea0e5f)

/-- A power modulo `m`; `k` bits of the exponent are read. -/
def powMod (m : Nat) : Nat → Nat → Nat → Nat
  | 0, _, _ => 1
  | k + 1, a, e => (if e % 2 = 1 then a else 1) * powMod m k (a * a % m) (e / 2) % m

/-- The inverse modulo a prime of 384 bits. -/
def invMod (m a : Nat) : Nat := powMod m 384 (a % m) (m - 2)

/-- The difference modulo the field's prime. -/
def subP (a b : Nat) : Nat := (a + p384 - b % p384) % p384

/-- The sum of two points; none is the point at infinity. -/
def ecAdd (a b : Option (Nat × Nat)) : Option (Nat × Nat) :=
  match a, b with
  | none, _ => b
  | _, none => a
  | some (x, y), some (u, v) =>
    if x = u ∧ (y + v) % p384 = 0 then none
    else
      let l := if x = u then subP (3 * x * x) 3 * invMod p384 (2 * y) % p384 else subP v y * invMod p384 (subP u x) % p384
      let r := subP (l * l) (x + u)
      some (r, subP (l * subP x r) y)

/-- A multiple of a point; `k` bits of the factor are read. -/
def ecMul : Nat → Nat → Option (Nat × Nat) → Option (Nat × Nat)
  | 0, _, _ => none
  | k + 1, e, a => ecAdd (if e % 2 = 1 then a else none) (ecMul k (e / 2) (ecAdd a a))

/-- A point of the curve other than infinity. -/
def onCurve (a : Nat × Nat) : Bool :=
  decide (a.1 < p384 ∧ a.2 < p384) && a.2 * a.2 % p384 == subP (a.1 * a.1 * a.1 + b384) (3 * a.1)

/-! ### Keys and signatures -/

/-- The public key of a private scalar, X then Y. -/
def ecPublic (d : List Byte) : List Byte :=
  match ecMul 384 (octNat d) (some g384) with
  | none => []
  | some (x, y) => natOct 48 x ++ natOct 48 y

/-- Does a signature, r then s, of a message verify under a public key? -/
def ecdsaVerify (pub m sig : List Byte) : Bool :=
  let q := (octNat (pub.take 48), octNat (pub.drop 48))
  let r := octNat (sig.take 48)
  let s := octNat (sig.drop 48)
  let w := invMod n384 s
  let e := octNat (sha384 m)
  match ecAdd (ecMul 384 (e * w % n384) (some g384)) (ecMul 384 (r * w % n384) (some q)) with
  | none => false
  | some (x, _) => decide (pub.length = 96 ∧ sig.length = 96 ∧ 0 < r ∧ r < n384 ∧ 0 < s ∧ s < n384) && onCurve q && x % n384 == r

/-- The candidates for the secret number of a deterministic signature, from HMAC-SHA-384's K and V: the first that makes a
signature; `k` bounds their number. -/
def ecdsaTry (d e : Nat) : Nat → List Byte → List Byte → List Byte
  | 0, _, _ => []
  | n + 1, k, v =>
    let v := hmac384 k v
    let c := octNat v
    let r := match ecMul 384 c (some g384) with | some (x, _) => x % n384 | none => 0
    let s := invMod n384 c * (e + r * d) % n384
    if 0 < c ∧ c < n384 ∧ r ≠ 0 ∧ s ≠ 0 then natOct 48 r ++ natOct 48 s
    else
      let k := hmac384 k (v ++ [0#8])
      ecdsaTry d e n k (hmac384 k v)

/-- The deterministic signature of a message under a private scalar (R462). -/
def ecdsaSign (d m : List Byte) : List Byte :=
  let h := sha384 m
  let x := natOct 48 (octNat d) ++ natOct 48 (octNat h % n384)
  let v := List.replicate 48 1#8
  let k := hmac384 (List.replicate 48 0#8) (v ++ [0#8] ++ x)
  let v := hmac384 k v
  let k := hmac384 k (v ++ [1#8] ++ x)
  ecdsaTry (octNat d) (octNat h) 64 k (hmac384 k v)

end Sys2Proof.Machine
end

