-- ==== Sys2Proof/Machine/RegMap.lean ====
section
/-! DEFINITION. The register map: one descriptor `Fld` per register field of the spec's register tables, the list of
the fields of each 64 KiB region, the word an offset takes at reset, and the field arithmetic. Every descriptor names the
rule whose table it is transcribed from. -/
namespace Sys2Proof.Machine

/-- Access codes of R10. -/
inductive Acc where
  | ro | rw | w1c | w1s | wo | rwl
  deriving DecidableEq, Repr

/-- Reset kinds of R13; `d` marks a table whose contents follow a rule of their own (R113, R485, R488). -/
inductive RKind where
  | c | w | b | k | d
  deriving DecidableEq, Repr

/-- One register field: byte offset of its first word in BAR0, the (stride, count) pairs of the arrays it stands in,
its bits `[hi:lo]`, access code, reset value and reset kind. -/
structure Fld where
  base : Nat
  dims : List (Nat × Nat)
  hi : Nat
  lo : Nat
  acc : Acc
  reset : Nat
  kind : RKind
  deriving DecidableEq, Repr

/-- The address added by indices into the arrays of a field. -/
def idxOff : List (Nat × Nat) → List Nat → Nat
  | (st, _) :: ds, i :: is => st * i + idxOff ds is
  | _, _ => 0

/-- The byte offset in BAR0 of the word that holds field `f` at the given indices. -/
def Fld.off (f : Fld) (idx : List Nat) : Nat := f.base + idxOff f.dims idx

/-- Is every index inside its array? -/
def idxOk : List (Nat × Nat) → List Nat → Bool
  | [], [] => true
  | (_, n) :: ds, i :: is => decide (i < n) && idxOk ds is
  | _, _ => false

/-- Does a distance from the base of a field fall on one of its words? -/
def coversDist : List (Nat × Nat) → Nat → Bool
  | [], d => d == 0
  | (st, n) :: ds, d => decide (d / st < n) && coversDist ds (d % st)

/-- Does field `f` lie in the word at byte offset `off`? -/
def Fld.covers (f : Fld) (off : Nat) : Bool := decide (f.base ≤ off) && coversDist f.dims (off - f.base)

/-- The width of a field in bits. -/
def Fld.width (f : Fld) : Nat := f.hi - f.lo + 1

/-- A word with the bits of field `f` set. -/
def Fld.mask (f : Fld) : BitVec 32 := BitVec.ofNat 32 ((2 ^ f.width - 1) * 2 ^ f.lo)

/-- The value of field `f` in a word. -/
def Fld.get (f : Fld) (w : BitVec 32) : Nat := w.toNat / 2 ^ f.lo % 2 ^ f.width

/-- A word with field `f` replaced by `v` modulo its width. -/
def Fld.put (f : Fld) (w : BitVec 32) (v : Nat) : BitVec 32 :=
  (w &&& ~~~ f.mask) ||| BitVec.ofNat 32 (v % 2 ^ f.width * 2 ^ f.lo)

namespace Reg


-- R542 (15_register_map)
def GLB_ID_PART : Fld := ⟨0x0, [], 31, 16, .ro, 0x716, .k⟩
def GLB_ID_REV_LETTER : Fld := ⟨0x0, [], 7, 4, .ro, 1, .k⟩
def GLB_ID_REV_NUM : Fld := ⟨0x0, [], 3, 0, .ro, 0, .k⟩

-- R543 (15_register_map)
def GLB_CAPS_DRAM_GIB : Fld := ⟨0x4, [], 31, 24, .ro, 0, .c⟩
def GLB_CAPS_CH0_GIB : Fld := ⟨0x4, [], 23, 16, .ro, 0, .c⟩
def GLB_CAPS_CH1_GIB : Fld := ⟨0x4, [], 15, 8, .ro, 0, .c⟩

-- R544 (15_register_map)
def GLB_SCRATCH_DATA : Fld := ⟨0x8, [], 31, 0, .rw, 0, .c⟩

-- R37 (01_architecture)
def GLB_MODE_SEQ : Fld := ⟨0x10, [], 19, 16, .ro, 0, .w⟩
def GLB_MODE_RUN_EN : Fld := ⟨0x10, [], 15, 15, .ro, 0, .w⟩
def GLB_MODE_TEST : Fld := ⟨0x10, [], 14, 14, .ro, 0, .w⟩
def GLB_MODE_PAIRED : Fld := ⟨0x10, [], 13, 13, .ro, 0, .w⟩
def GLB_MODE_DEG : Fld := ⟨0x10, [], 12, 12, .ro, 0, .w⟩
def GLB_MODE_CAUSE : Fld := ⟨0x10, [], 11, 8, .ro, 0, .w⟩
def GLB_MODE_PREV : Fld := ⟨0x10, [], 5, 3, .ro, 0, .c⟩
def GLB_MODE_CUR : Fld := ⟨0x10, [], 2, 0, .ro, 1, .w⟩

-- R38 (01_architecture)
def GLB_MODE_REQ_REASON : Fld := ⟨0x14, [], 15, 12, .ro, 0, .w⟩
def GLB_MODE_REQ_STATUS : Fld := ⟨0x14, [], 9, 8, .ro, 0, .w⟩
def GLB_MODE_REQ_FORCE : Fld := ⟨0x14, [], 3, 3, .wo, 0, .w⟩
def GLB_MODE_REQ_TARGET : Fld := ⟨0x14, [], 2, 0, .wo, 0, .w⟩

-- R40 (01_architecture)
def GLB_DEG_CAUSE_SORTERS_LOST : Fld := ⟨0x18, [], 23, 16, .ro, 0, .w⟩
def GLB_DEG_CAUSE_TDOM1 : Fld := ⟨0x18, [], 8, 8, .ro, 0, .w⟩
def GLB_DEG_CAUSE_TDOM0 : Fld := ⟨0x18, [], 7, 7, .ro, 0, .w⟩
def GLB_DEG_CAUSE_PORT : Fld := ⟨0x18, [], 6, 3, .ro, 0, .w⟩
def GLB_DEG_CAUSE_DRAM1 : Fld := ⟨0x18, [], 2, 2, .ro, 0, .w⟩
def GLB_DEG_CAUSE_DRAM0 : Fld := ⟨0x18, [], 1, 1, .ro, 0, .w⟩
def GLB_DEG_CAUSE_SORTER : Fld := ⟨0x18, [], 0, 0, .ro, 0, .w⟩

-- R546 (15_register_map)
def GLB_NOTICE_SUM_SUM : Fld := ⟨0x30, [], 22, 0, .ro, 0, .w⟩

-- R41 (01_architecture)
def GLB_NOTICE_BITS : Fld := ⟨0x20, [], 3, 0, .w1c, 0, .w⟩

-- R545 (15_register_map)
def GLB_NOTICE_EN_BITS : Fld := ⟨0x24, [], 3, 0, .rw, 0, .w⟩
def GLB_NOTICE_VEC_VEC : Fld := ⟨0x28, [], 5, 0, .rw, 0x29, .w⟩

-- R535 (14_startup_manifest)
def STRT_NOTICE_BITS : Fld := ⟨0x100f0, [], 7, 0, .w1c, 0, .w⟩

-- R545 (15_register_map)
def STRT_NOTICE_EN_BITS : Fld := ⟨0x100f4, [], 7, 0, .rw, 0, .w⟩
def STRT_NOTICE_VEC_VEC : Fld := ⟨0x100f8, [], 5, 0, .rw, 0x2a, .w⟩

-- R91 (02_time)
def TB_NOTICE_BITS : Fld := ⟨0x200f0, [], 12, 0, .w1c, 0, .w⟩

-- R545 (15_register_map)
def TB_NOTICE_EN_BITS : Fld := ⟨0x200f4, [], 12, 0, .rw, 0, .w⟩
def TB_NOTICE_VEC_VEC : Fld := ⟨0x200f8, [], 5, 0, .rw, 0x2b, .w⟩

-- R505 (13_persistence_logbook_rtc)
def BKD_NOTICE_BITS : Fld := ⟨0x300f0, [], 5, 0, .w1c, 0, .w⟩

-- R545 (15_register_map)
def BKD_NOTICE_EN_BITS : Fld := ⟨0x300f4, [], 5, 0, .rw, 0, .w⟩
def BKD_NOTICE_VEC_VEC : Fld := ⟨0x300f8, [], 5, 0, .rw, 0x2c, .w⟩

-- R134 (03_ports_streams)
def NET_NOTICE_BITS : Fld := ⟨0x404f0, [], 7, 0, .w1c, 0, .w⟩

-- R545 (15_register_map)
def NET_NOTICE_EN_BITS : Fld := ⟨0x404f4, [], 7, 0, .rw, 0, .w⟩
def NET_NOTICE_VEC_VEC : Fld := ⟨0x404f8, [], 5, 0, .rw, 0x2d, .w⟩

-- R138 (03_ports_streams)
def ADM_NOTICE_BITS : Fld := ⟨0x500f0, [], 7, 0, .w1c, 0, .w⟩

-- R545 (15_register_map)
def ADM_NOTICE_EN_BITS : Fld := ⟨0x500f4, [], 7, 0, .rw, 0, .w⟩
def ADM_NOTICE_VEC_VEC : Fld := ⟨0x500f8, [], 5, 0, .rw, 0x2e, .w⟩

-- R180 (04_alignment)
def WHL_NOTICE_BITS : Fld := ⟨0x600f0, [], 7, 0, .w1c, 0, .w⟩

-- R545 (15_register_map)
def WHL_NOTICE_EN_BITS : Fld := ⟨0x600f4, [], 7, 0, .rw, 0, .w⟩
def WHL_NOTICE_VEC_VEC : Fld := ⟨0x600f8, [], 5, 0, .rw, 0x2f, .w⟩

-- R224 (05_sorting_office)
def SOF_NOTICE_BITS : Fld := ⟨0x700f0, [], 6, 0, .w1c, 0, .w⟩

-- R545 (15_register_map)
def SOF_NOTICE_EN_BITS : Fld := ⟨0x700f4, [], 6, 0, .rw, 0, .w⟩
def SOF_NOTICE_VEC_VEC : Fld := ⟨0x700f8, [], 5, 0, .rw, 0x30, .w⟩

-- R228 (05_sorting_office)
def PLC_NOTICE_BITS : Fld := ⟨0x800f0, [], 3, 0, .w1c, 0, .w⟩

-- R545 (15_register_map)
def PLC_NOTICE_EN_BITS : Fld := ⟨0x800f4, [], 3, 0, .rw, 0, .w⟩
def PLC_NOTICE_VEC_VEC : Fld := ⟨0x800f8, [], 5, 0, .rw, 0x31, .w⟩

-- R274 (06_oscillation)
def OSC_NOTICE_BITS : Fld := ⟨0x900f0, [], 11, 0, .w1c, 0, .w⟩

-- R545 (15_register_map)
def OSC_NOTICE_EN_BITS : Fld := ⟨0x900f4, [], 11, 0, .rw, 0, .w⟩
def OSC_NOTICE_VEC_VEC : Fld := ⟨0x900f8, [], 5, 0, .rw, 0x32, .w⟩

-- R308 (07_islanding_alarms)
def ISL_NOTICE_BITS : Fld := ⟨0xa00f0, [], 9, 0, .w1c, 0, .w⟩

-- R545 (15_register_map)
def ISL_NOTICE_EN_BITS : Fld := ⟨0xa00f4, [], 9, 0, .rw, 0, .w⟩
def ISL_NOTICE_VEC_VEC : Fld := ⟨0xa00f8, [], 5, 0, .rw, 0x33, .w⟩

-- R312 (07_islanding_alarms)
def ALM_NOTICE_BITS : Fld := ⟨0xb00f0, [], 6, 0, .w1c, 0, .w⟩

-- R545 (15_register_map)
def ALM_NOTICE_EN_BITS : Fld := ⟨0xb00f4, [], 6, 0, .rw, 0, .w⟩
def ALM_NOTICE_VEC_VEC : Fld := ⟨0xb00f8, [], 5, 0, .rw, 0x34, .w⟩

-- R345 (08_local_acquisition)
def ACQ_NOTICE_BITS : Fld := ⟨0xc00f0, [], 8, 0, .w1c, 0, .w⟩

-- R545 (15_register_map)
def ACQ_NOTICE_EN_BITS : Fld := ⟨0xc00f4, [], 8, 0, .rw, 0, .w⟩
def ACQ_NOTICE_VEC_VEC : Fld := ⟨0xc00f8, [], 5, 0, .rw, 0x35, .w⟩

-- R371 (09_energy_quality)
def NRG_NOTICE_BITS : Fld := ⟨0xd00f0, [], 9, 0, .w1c, 0, .w⟩

-- R545 (15_register_map)
def NRG_NOTICE_EN_BITS : Fld := ⟨0xd00f4, [], 9, 0, .rw, 0, .w⟩
def NRG_NOTICE_VEC_VEC : Fld := ⟨0xd00f8, [], 5, 0, .rw, 0x36, .w⟩

-- R400 (10_capture_compression)
def CAP_NOTICE_BITS : Fld := ⟨0xe00f0, [], 7, 0, .w1c, 0, .w⟩

-- R545 (15_register_map)
def CAP_NOTICE_EN_BITS : Fld := ⟨0xe00f4, [], 7, 0, .rw, 0, .w⟩
def CAP_NOTICE_VEC_VEC : Fld := ⟨0xe00f8, [], 5, 0, .rw, 0x37, .w⟩

-- R402 (10_capture_compression)
def CMP_NOTICE_BITS : Fld := ⟨0xf00f0, [], 3, 0, .w1c, 0, .w⟩

-- R545 (15_register_map)
def CMP_NOTICE_EN_BITS : Fld := ⟨0xf00f4, [], 3, 0, .rw, 0, .w⟩
def CMP_NOTICE_VEC_VEC : Fld := ⟨0xf00f8, [], 5, 0, .rw, 0x38, .w⟩

-- R438 (11_pair)
def PAIR_NOTICE_BITS : Fld := ⟨0x1000f0, [], 13, 0, .w1c, 0, .w⟩

-- R545 (15_register_map)
def PAIR_NOTICE_EN_BITS : Fld := ⟨0x1000f4, [], 13, 0, .rw, 0, .w⟩
def PAIR_NOTICE_VEC_VEC : Fld := ⟨0x1000f8, [], 5, 0, .rw, 0x39, .w⟩

-- R467 (12_strongroom)
def KEY_NOTICE_BITS : Fld := ⟨0x1100f0, [], 8, 0, .w1c, 0, .w⟩

-- R545 (15_register_map)
def KEY_NOTICE_EN_BITS : Fld := ⟨0x1100f4, [], 8, 0, .rw, 0, .w⟩
def KEY_NOTICE_VEC_VEC : Fld := ⟨0x1100f8, [], 5, 0, .rw, 0x3a, .w⟩

-- R501 (13_persistence_logbook_rtc)
def NVS_NOTICE_BITS : Fld := ⟨0x1200f0, [], 5, 0, .w1c, 0, .w⟩

-- R545 (15_register_map)
def NVS_NOTICE_EN_BITS : Fld := ⟨0x1200f4, [], 5, 0, .rw, 0, .w⟩
def NVS_NOTICE_VEC_VEC : Fld := ⟨0x1200f8, [], 5, 0, .rw, 0x3b, .w⟩

-- R503 (13_persistence_logbook_rtc)
def LOG_NOTICE_BITS : Fld := ⟨0x1300f0, [], 6, 0, .w1c, 0, .w⟩

-- R545 (15_register_map)
def LOG_NOTICE_EN_BITS : Fld := ⟨0x1300f4, [], 6, 0, .rw, 0, .w⟩
def LOG_NOTICE_VEC_VEC : Fld := ⟨0x1300f8, [], 5, 0, .rw, 0x3c, .w⟩

-- R232 (05_sorting_office)
def HIF_NOTICE_BITS : Fld := ⟨0x1400f0, [], 5, 0, .w1c, 0, .w⟩

-- R545 (15_register_map)
def HIF_NOTICE_EN_BITS : Fld := ⟨0x1400f4, [], 5, 0, .rw, 0, .w⟩
def HIF_NOTICE_VEC_VEC : Fld := ⟨0x1400f8, [], 5, 0, .rw, 0x3d, .w⟩

-- R569 (15_register_map)
def MEM_NOTICE_BITS : Fld := ⟨0x1500f0, [], 7, 0, .w1c, 0, .w⟩

-- R545 (15_register_map)
def MEM_NOTICE_EN_BITS : Fld := ⟨0x1500f4, [], 7, 0, .rw, 0, .w⟩
def MEM_NOTICE_VEC_VEC : Fld := ⟨0x1500f8, [], 5, 0, .rw, 0x3e, .w⟩

-- R570 (15_register_map)
def PWR_NOTICE_BITS : Fld := ⟨0x1600f0, [], 4, 0, .w1c, 0, .w⟩

-- R545 (15_register_map)
def PWR_NOTICE_EN_BITS : Fld := ⟨0x1600f4, [], 4, 0, .rw, 0, .w⟩
def PWR_NOTICE_VEC_VEC : Fld := ⟨0x1600f8, [], 5, 0, .rw, 0x3f, .w⟩

-- R534 (14_startup_manifest)
def STRT_STAT_PHASE : Fld := ⟨0x10000, [], 31, 28, .ro, 1, .w⟩
def STRT_STAT_KIND : Fld := ⟨0x10000, [], 27, 26, .ro, 0, .w⟩
def STRT_STAT_SRC : Fld := ⟨0x10000, [], 25, 23, .ro, 0, .w⟩
def STRT_STAT_FULL : Fld := ⟨0x10000, [], 22, 22, .ro, 0, .w⟩
def STRT_STAT_MSRC : Fld := ⟨0x10000, [], 21, 20, .ro, 0, .w⟩
def STRT_STAT_DONE : Fld := ⟨0x10000, [], 19, 19, .ro, 0, .w⟩
def STRT_STAT_LOAD_MS : Fld := ⟨0x10000, [], 15, 0, .ro, 0, .k⟩
def STRT_FAIL_ATTEMPTS : Fld := ⟨0x10004, [], 31, 28, .ro, 0, .k⟩
def STRT_FAIL_LOCKOUT : Fld := ⟨0x10004, [], 27, 24, .ro, 3, .k⟩
def STRT_FAIL_CODE : Fld := ⟨0x10004, [], 23, 16, .ro, 0, .k⟩
def STRT_FAIL_SUB : Fld := ⟨0x10004, [], 15, 8, .ro, 0, .k⟩
def STRT_MSEL_CODE : Fld := ⟨0x10008, [], 31, 24, .ro, 0, .w⟩
def STRT_MSEL_SLOT : Fld := ⟨0x10008, [], 23, 22, .ro, 0, .w⟩
def STRT_COLD_COUNT : Fld := ⟨0x1000c, [], 31, 0, .ro, 0, .k⟩
def STRT_WARM_COUNT : Fld := ⟨0x10010, [], 31, 0, .ro, 0, .c⟩
def STRT_MVER_MVER : Fld := ⟨0x10014, [], 31, 0, .ro, 0, .k⟩
def STRT_MFLOOR_MVER : Fld := ⟨0x10018, [], 31, 0, .ro, 0, .k⟩
def STRT_MHASH_HASH : Fld := ⟨0x10020, [(0x4, 12)], 31, 0, .ro, 0, .k⟩
def STRT_CTL_WARM : Fld := ⟨0x10060, [], 31, 31, .wo, 0, .w⟩
def STRT_CTL_FULL : Fld := ⟨0x10060, [], 30, 30, .wo, 0, .w⟩
def STRT_CTL_KEY : Fld := ⟨0x10060, [], 15, 0, .wo, 0, .w⟩
def STRT_WDOG_STALL_EN : Fld := ⟨0x10064, [], 31, 31, .rwl, 0, .c⟩
def STRT_WDOG_HOST_EN : Fld := ⟨0x10064, [], 30, 30, .rwl, 0, .c⟩
def STRT_WDOG_STALL_MS : Fld := ⟨0x10064, [], 29, 16, .rwl, 0x64, .c⟩
def STRT_WDOG_HOST_MS : Fld := ⟨0x10064, [], 15, 0, .rwl, 0x1388, .c⟩
def STRT_KICK_KEY : Fld := ⟨0x10068, [], 15, 0, .wo, 0, .w⟩
def STRT_SVC_CHAL_REQ : Fld := ⟨0x1006c, [], 31, 31, .wo, 0, .w⟩
def STRT_SVC_SUBMIT : Fld := ⟨0x1006c, [], 30, 30, .wo, 0, .w⟩
def STRT_SVC_AT_START : Fld := ⟨0x1006c, [], 29, 29, .wo, 0, .w⟩
def STRT_SVC_NEXT : Fld := ⟨0x1006c, [], 28, 28, .ro, 0, .k⟩
def STRT_SVC_OPEN : Fld := ⟨0x1006c, [], 27, 27, .ro, 0, .w⟩
def STRT_SVC_AUTH_STAT : Fld := ⟨0x1006c, [], 25, 24, .ro, 0, .w⟩
def STRT_CHAL_CHAL : Fld := ⟨0x10070, [(0x4, 8)], 31, 0, .ro, 0, .w⟩
def STRT_SIG_SIG : Fld := ⟨0x10090, [(0x4, 24)], 31, 0, .wo, 0, .w⟩

-- R84 (02_time)
def TB_STAT_UNLK_S : Fld := ⟨0x20000, [], 31, 16, .ro, 0xffff, .c⟩
def TB_STAT_FQ : Fld := ⟨0x20000, [], 15, 12, .ro, 0xf, .c⟩
def TB_STAT_SQ : Fld := ⟨0x20000, [], 11, 9, .ro, 7, .c⟩
def TB_STAT_SERR : Fld := ⟨0x20000, [], 8, 8, .ro, 1, .c⟩
def TB_STAT_UTC_UNVER : Fld := ⟨0x20000, [], 7, 7, .ro, 1, .c⟩
def TB_STAT_SEL : Fld := ⟨0x20000, [], 6, 6, .ro, 0, .c⟩
def TB_STAT_STATE : Fld := ⟨0x20000, [], 2, 0, .ro, 0, .c⟩

-- R85 (02_time)
def TB_UNC_UNC : Fld := ⟨0x20004, [], 31, 0, .ro, 0xffffffff, .c⟩

-- R86 (02_time)
def TB_NOW_SEC_LO_SEC : Fld := ⟨0x20010, [], 31, 0, .ro, 0, .c⟩
def TB_NOW_SEC_HI_SEC : Fld := ⟨0x20014, [], 15, 0, .ro, 0, .c⟩
def TB_NOW_NS_NS : Fld := ⟨0x20018, [], 29, 0, .ro, 0, .c⟩
def TB_NOW_FRAC_FRAC : Fld := ⟨0x2001c, [], 15, 0, .ro, 0, .c⟩
def TB_SET_SEC_LO_SEC : Fld := ⟨0x20020, [], 31, 0, .rw, 0, .w⟩
def TB_SET_SEC_HI_SEC : Fld := ⟨0x20024, [], 15, 0, .rw, 0, .w⟩
def TB_SET_NS_NS : Fld := ⟨0x20028, [], 29, 0, .rw, 0, .w⟩
def TB_SET_COMMIT_STATUS : Fld := ⟨0x2002c, [], 9, 8, .ro, 0, .w⟩
def TB_SET_COMMIT_RES : Fld := ⟨0x2002c, [], 1, 1, .wo, 0, .w⟩
def TB_SET_COMMIT_GO : Fld := ⟨0x2002c, [], 0, 0, .wo, 0, .w⟩

-- R87 (02_time)
def TB_DOM_CFG_DOMNUM : Fld := ⟨0x20040, [(0x20, 2)], 23, 16, .rwl, 0, .w⟩
def TB_DOM_CFG_PORTS : Fld := ⟨0x20040, [(0x20, 2)], 11, 8, .rwl, 0, .w⟩
def TB_DOM_CFG_PROFILE : Fld := ⟨0x20040, [(0x20, 2)], 1, 0, .rwl, 0, .w⟩
def TB_DOM_STAT_UTC_OFS : Fld := ⟨0x20044, [(0x20, 2)], 31, 16, .ro, 0, .w⟩
def TB_DOM_STAT_PORT : Fld := ⟨0x20044, [(0x20, 2)], 5, 4, .ro, 0, .w⟩
def TB_DOM_STAT_UTCV : Fld := ⟨0x20044, [(0x20, 2)], 3, 3, .ro, 0, .w⟩
def TB_DOM_STAT_STATE : Fld := ⟨0x20044, [(0x20, 2)], 2, 0, .ro, 0, .w⟩
def TB_DOM_OFS_THETA : Fld := ⟨0x20048, [(0x20, 2)], 31, 0, .ro, 0, .w⟩
def TB_DOM_GM_ID : Fld := ⟨0x2004c, [(0x20, 2), (0x4, 2)], 31, 0, .ro, 0, .w⟩
def TB_DOM_GMINACC_NS : Fld := ⟨0x20054, [(0x20, 2)], 31, 0, .ro, 0, .w⟩
def TB_DOM_PDELAY_NS : Fld := ⟨0x20058, [(0x20, 2)], 31, 0, .ro, 0, .w⟩
def TB_DOM_SYNCS_COUNT : Fld := ⟨0x2005c, [(0x20, 2)], 31, 0, .ro, 0, .w⟩

-- R88 (02_time)
def TB_SEL_SWITCH : Fld := ⟨0x20080, [], 16, 16, .wo, 0, .w⟩
def TB_SEL_REVERT_S : Fld := ⟨0x20080, [], 15, 4, .rw, 0x3c, .w⟩
def TB_SEL_REVERT : Fld := ⟨0x20080, [], 1, 1, .rw, 1, .w⟩
def TB_SEL_PREF : Fld := ⟨0x20080, [], 0, 0, .rw, 0, .w⟩
def TB_SERVO_STEP_NS : Fld := ⟨0x20084, [], 31, 16, .rwl, 0x3e8, .w⟩
def TB_SERVO_LOCK_NS : Fld := ⟨0x20084, [], 15, 8, .rwl, 0xa, .w⟩
def TB_SERVO_BW : Fld := ⟨0x20084, [], 1, 0, .rwl, 1, .w⟩
def TB_HOLD_SERR_US : Fld := ⟨0x20088, [], 31, 16, .rw, 0xa, .w⟩
def TB_HOLD_RATE : Fld := ⟨0x20088, [], 15, 0, .rwl, 0x3e8, .w⟩
def TB_UTC_LSD : Fld := ⟨0x2008c, [], 21, 21, .ro, 0, .w⟩
def TB_UTC_LSP : Fld := ⟨0x2008c, [], 20, 20, .ro, 0, .w⟩
def TB_UTC_LSO : Fld := ⟨0x2008c, [], 19, 19, .ro, 0, .w⟩
def TB_UTC_HOST_LEAP : Fld := ⟨0x2008c, [], 18, 17, .rw, 0, .w⟩
def TB_UTC_VALID : Fld := ⟨0x2008c, [], 16, 16, .ro, 0, .w⟩
def TB_UTC_OFFSET : Fld := ⟨0x2008c, [], 15, 0, .rw, 0x25, .b⟩

-- R89 (02_time)
def TB_STEER_CFG_PULL : Fld := ⟨0x20090, [], 31, 24, .rwl, 0xa, .w⟩
def TB_STEER_CFG_PFX : Fld := ⟨0x20090, [], 23, 16, .rwl, 0, .w⟩
def TB_STEER_CFG_PFX_BITS : Fld := ⟨0x20090, [], 11, 8, .rwl, 0, .w⟩
def TB_STEER_CFG_SIGNED : Fld := ⟨0x20090, [], 7, 7, .rwl, 0, .w⟩
def TB_STEER_CFG_CODE_BITS : Fld := ⟨0x20090, [], 4, 0, .rwl, 0x10, .w⟩
def TB_STEER_CENTER_CODE : Fld := ⟨0x20094, [], 23, 0, .rwl, 0x8000, .w⟩
def TB_STEER_GAIN_GAIN : Fld := ⟨0x20098, [], 31, 0, .rwl, 0x10000, .w⟩
def TB_STEER_VAL_F : Fld := ⟨0x2009c, [], 31, 0, .ro, 0, .w⟩
def TB_PPS_OUT_COMP : Fld := ⟨0x200a0, [], 31, 16, .rw, 0, .w⟩
def TB_PPS_FREE : Fld := ⟨0x200a0, [], 11, 11, .rw, 0, .w⟩
def TB_PPS_WIDTH : Fld := ⟨0x200a0, [], 9, 0, .rw, 0x64, .w⟩
def TB_PPS_IN_PRESENT : Fld := ⟨0x200a4, [], 31, 31, .ro, 0, .w⟩
def TB_PPS_IN_OFS : Fld := ⟨0x200a4, [], 30, 0, .ro, 0, .w⟩

-- R90 (02_time)
def TB_PCORR_C_TX : Fld := ⟨0x200c0, [(0x8, 4)], 31, 16, .rwl, 0, .w⟩
def TB_PCORR_C_RX : Fld := ⟨0x200c0, [(0x8, 4)], 15, 0, .rwl, 0, .w⟩
def TB_PASYM_ASYM : Fld := ⟨0x200c4, [(0x8, 4)], 15, 0, .rwl, 0, .w⟩

-- R504 (13_persistence_logbook_rtc)
def BKD_STAT_OSF : Fld := ⟨0x30000, [], 31, 31, .ro, 1, .b⟩
def BKD_STAT_VBAT_LOW : Fld := ⟨0x30000, [], 29, 29, .ro, 0, .b⟩
def BKD_STAT_ON : Fld := ⟨0x30000, [], 28, 28, .ro, 1, .b⟩
def BKD_STAT_TEMP : Fld := ⟨0x30000, [], 15, 0, .ro, 0, .b⟩
def BKD_SEC_LO_SEC : Fld := ⟨0x30010, [], 31, 0, .ro, 0, .b⟩
def BKD_SEC_HI_SEC : Fld := ⟨0x30014, [], 15, 0, .ro, 0, .b⟩
def BKD_SUB_SUB : Fld := ⟨0x30018, [], 14, 0, .ro, 0, .b⟩
def BKD_SET_SEC_LO_SEC : Fld := ⟨0x30020, [], 31, 0, .rw, 0, .b⟩
def BKD_SET_SEC_HI_SEC : Fld := ⟨0x30024, [], 15, 0, .rw, 0, .b⟩
def BKD_SET_COMMIT_STATUS : Fld := ⟨0x30028, [], 9, 8, .ro, 0, .b⟩
def BKD_SET_COMMIT_GO : Fld := ⟨0x30028, [], 0, 0, .wo, 0, .b⟩
def BKD_ERR_ERR : Fld := ⟨0x3002c, [], 31, 0, .ro, 0, .b⟩
def BKD_TC_MODE : Fld := ⟨0x30030, [], 31, 30, .rw, 0, .b⟩
def BKD_TC_K : Fld := ⟨0x30030, [], 15, 0, .rw, 0x2200, .b⟩
def BKD_TC2_OFS_PPB : Fld := ⟨0x30034, [], 31, 16, .rw, 0, .b⟩
def BKD_TC2_T0 : Fld := ⟨0x30034, [], 15, 0, .rw, 0x1900, .b⟩
def BKD_TRIM_CAL : Fld := ⟨0x30038, [], 7, 0, .rw, 0, .b⟩
def BKD_CORR_N : Fld := ⟨0x3003c, [], 15, 0, .ro, 0, .b⟩
def BKD_ALM_SEC_LO_SEC : Fld := ⟨0x30040, [], 31, 0, .rw, 0, .b⟩
def BKD_ALM_SEC_HI_SEC : Fld := ⟨0x30044, [], 15, 0, .rw, 0, .b⟩
def BKD_ALM_CTL_ARM : Fld := ⟨0x30048, [], 31, 31, .wo, 0, .b⟩
def BKD_ALM_CTL_ARMED : Fld := ⟨0x30048, [], 30, 30, .ro, 0, .b⟩
def BKD_ALM_CTL_FIRED : Fld := ⟨0x30048, [], 29, 29, .w1c, 0, .b⟩
def BKD_ALM_CTL_LATE : Fld := ⟨0x30048, [], 28, 28, .w1c, 0, .b⟩
def BKD_ALM_CTL_DISARM : Fld := ⟨0x30048, [], 1, 1, .wo, 0, .b⟩
def BKD_ALM_CTL_WAKE : Fld := ⟨0x30048, [], 0, 0, .rw, 0, .b⟩
def BKD_PON_AUTO : Fld := ⟨0x3004c, [], 31, 31, .rw, 1, .b⟩
def BKD_PON_LEVEL : Fld := ⟨0x3004c, [], 30, 30, .ro, 1, .b⟩
def BKD_PON_OFF : Fld := ⟨0x3004c, [], 8, 8, .wo, 0, .b⟩
def BKD_PON_KEY : Fld := ⟨0x3004c, [], 7, 0, .wo, 0, .b⟩
def BKD_SCRATCH_DATA : Fld := ⟨0x30080, [(0x4, 8)], 31, 0, .rw, 0, .b⟩

-- R131 (03_ports_streams)
def NET_PORT_CFG_EN : Fld := ⟨0x40000, [(0x100, 4)], 31, 31, .rwl, 0, .w⟩
def NET_PORT_CFG_MODE : Fld := ⟨0x40000, [(0x100, 4)], 5, 4, .rwl, 0, .w⟩
def NET_PORT_CFG_AN : Fld := ⟨0x40000, [(0x100, 4)], 2, 2, .rwl, 1, .w⟩
def NET_PORT_CFG_JUMBO : Fld := ⟨0x40000, [(0x100, 4)], 1, 1, .rwl, 0, .w⟩
def NET_PORT_CFG_LOOP : Fld := ⟨0x40000, [(0x100, 4)], 0, 0, .rwl, 0, .w⟩
def NET_PORT_STAT_PAUSED : Fld := ⟨0x40004, [(0x100, 4)], 3, 3, .ro, 0, .w⟩
def NET_PORT_STAT_SPEED : Fld := ⟨0x40004, [(0x100, 4)], 2, 1, .ro, 0, .w⟩
def NET_PORT_STAT_LINK : Fld := ⟨0x40004, [(0x100, 4)], 0, 0, .ro, 0, .w⟩
def NET_PORT_MAC_LO_ADDR : Fld := ⟨0x40008, [(0x100, 4)], 31, 0, .rwl, 0, .w⟩
def NET_PORT_MAC_HI_ADDR : Fld := ⟨0x4000c, [(0x100, 4)], 15, 0, .rwl, 0, .w⟩
def NET_PORT_IP4_ADDR : Fld := ⟨0x40010, [(0x100, 4)], 31, 0, .rwl, 0, .w⟩
def NET_PORT_IP6_ADDR : Fld := ⟨0x40014, [(0x100, 4), (0x4, 4)], 31, 0, .rwl, 0, .w⟩
def NET_PORT_VLAN_UNTAG_OK : Fld := ⟨0x40024, [(0x100, 4)], 15, 15, .rwl, 1, .w⟩
def NET_PORT_VLAN_TX_UNTAG : Fld := ⟨0x40024, [(0x100, 4)], 14, 14, .rwl, 1, .w⟩
def NET_PORT_VLAN_VID : Fld := ⟨0x40024, [(0x100, 4)], 11, 0, .rwl, 0, .w⟩
def NET_PORT_VID_EN : Fld := ⟨0x40080, [(0x100, 4), (0x4, 16)], 12, 12, .rwl, 0, .w⟩
def NET_PORT_VID_VID : Fld := ⟨0x40080, [(0x100, 4), (0x4, 16)], 11, 0, .rwl, 0, .w⟩

-- R132 (03_ports_streams)
def NET_PORT_RX_FRAMES : Fld := ⟨0x40040, [(0x100, 4)], 31, 0, .ro, 0, .w⟩
def NET_PORT_RX_DISC : Fld := ⟨0x40044, [(0x100, 4)], 31, 0, .ro, 0, .w⟩
def NET_PORT_TX_FRAMES : Fld := ⟨0x40048, [(0x100, 4)], 31, 0, .ro, 0, .w⟩
def NET_PORT_TX_SHED : Fld := ⟨0x4004c, [(0x100, 4)], 31, 0, .ro, 0, .w⟩
def NET_PORT_PRP_DUP : Fld := ⟨0x40050, [(0x100, 4)], 31, 0, .ro, 0, .w⟩
def NET_PORT_PAUSE_CUT : Fld := ⟨0x40054, [(0x100, 4)], 31, 0, .ro, 0, .w⟩
def NET_PORT_FCS_ERR : Fld := ⟨0x40058, [(0x100, 4)], 31, 0, .ro, 0, .w⟩

-- R133 (03_ports_streams)
def NET_PAUSE_MAX_US : Fld := ⟨0x40400, [], 11, 0, .rwl, 0x3e8, .w⟩
def NET_UDP_R905 : Fld := ⟨0x40404, [], 31, 16, .rwl, 0x66, .w⟩
def NET_UDP_C37 : Fld := ⟨0x40404, [], 15, 0, .rwl, 0x1269, .w⟩
def NET_PRP_FORGET_MS : Fld := ⟨0x40408, [], 31, 16, .rwl, 0x190, .w⟩
def NET_PRP_PAIR23 : Fld := ⟨0x40408, [], 1, 1, .rwl, 0, .w⟩
def NET_PRP_PAIR01 : Fld := ⟨0x40408, [], 0, 0, .rwl, 0, .w⟩
def NET_REASM_FAIL_COUNT : Fld := ⟨0x4040c, [], 31, 0, .ro, 0, .w⟩
def NET_EGR_PFC_MASK : Fld := ⟨0x40410, [], 23, 16, .rwl, 0, .w⟩
def NET_EGR_PCP_PTP : Fld := ⟨0x40410, [], 11, 9, .rwl, 7, .w⟩
def NET_EGR_PCP_ALM : Fld := ⟨0x40410, [], 8, 6, .rwl, 6, .w⟩
def NET_EGR_PCP_DATA : Fld := ⟨0x40410, [], 5, 3, .rwl, 5, .w⟩

-- R135 (03_ports_streams)
def ADM_CTL_HOST_TO : Fld := ⟨0x50000, [], 31, 16, .rw, 0xa, .w⟩
def ADM_CTL_DEFAULT : Fld := ⟨0x50000, [], 5, 4, .rw, 3, .w⟩
def ADM_CTL_REEVAL : Fld := ⟨0x50000, [], 1, 1, .rw, 0, .w⟩
def ADM_CTL_COMMIT : Fld := ⟨0x50000, [], 0, 0, .wo, 0, .w⟩
def ADM_STAT_SIDS_USED : Fld := ⟨0x50004, [], 30, 16, .ro, 0, .c⟩
def ADM_STAT_PENDING : Fld := ⟨0x50004, [], 14, 8, .ro, 0, .w⟩
def ADM_STAT_QUAR : Fld := ⟨0x50004, [], 7, 1, .ro, 0, .w⟩
def ADM_STAT_COMMIT_BUSY : Fld := ⟨0x50004, [], 0, 0, .ro, 0, .w⟩
def ADM_DECIDE_STATUS : Fld := ⟨0x50008, [], 31, 30, .ro, 0, .w⟩
def ADM_DECIDE_DECISION : Fld := ⟨0x50008, [], 9, 8, .wo, 0, .w⟩
def ADM_DECIDE_ENTRY : Fld := ⟨0x50008, [], 5, 0, .wo, 0, .w⟩
def ADM_REFUSED_FRAMES_COUNT : Fld := ⟨0x5000c, [], 31, 0, .ro, 0, .w⟩
def ADM_QUAR_FRAMES_COUNT : Fld := ⟨0x50010, [], 31, 0, .ro, 0, .w⟩

-- R136 (03_ports_streams)
def ADM_PEND_VALID : Fld := ⟨0x50100, [(0x10, 64)], 31, 31, .ro, 0, .w⟩
def ADM_PEND_QUAR : Fld := ⟨0x50100, [(0x10, 64)], 30, 30, .ro, 0, .w⟩
def ADM_PEND_KIND : Fld := ⟨0x50100, [(0x10, 64)], 29, 28, .ro, 0, .w⟩
def ADM_PEND_PORT : Fld := ⟨0x50100, [(0x10, 64)], 23, 22, .ro, 0, .w⟩
def ADM_PEND_TAGGED : Fld := ⟨0x50100, [(0x10, 64)], 21, 21, .ro, 0, .w⟩
def ADM_PEND_V6 : Fld := ⟨0x50100, [(0x10, 64)], 20, 20, .ro, 0, .w⟩
def ADM_PEND_ID : Fld := ⟨0x50100, [(0x10, 64)], 15, 0, .ro, 0, .w⟩
def ADM_PEND_SRC : Fld := ⟨0x50104, [(0x10, 64), (0x4, 3)], 31, 0, .ro, 0, .w⟩
def ADM_PEND_HI_SRC : Fld := ⟨0x50500, [(0x4, 64)], 31, 0, .ro, 0, .w⟩
def ADM_PEND_VID_VID : Fld := ⟨0x50600, [(0x4, 64)], 11, 0, .ro, 0, .w⟩

-- R137 (03_ports_streams)
def ADM_RULE_VALID : Fld := ⟨0x51000, [(0x40, 256)], 31, 31, .ro, 0, .c⟩
def ADM_RULE_DECISION : Fld := ⟨0x51000, [(0x40, 256)], 30, 29, .ro, 0, .c⟩
def ADM_RULE_REQ_FRANK : Fld := ⟨0x51000, [(0x40, 256)], 28, 28, .ro, 0, .c⟩
def ADM_RULE_TRANSPORT : Fld := ⟨0x51000, [(0x40, 256)], 27, 26, .ro, 0, .c⟩
def ADM_RULE_PORTS : Fld := ⟨0x51000, [(0x40, 256)], 25, 22, .ro, 0, .c⟩
def ADM_RULE_KIND_MASK : Fld := ⟨0x51000, [(0x40, 256)], 18, 16, .ro, 0, .c⟩
def ADM_RULE_PREFIX : Fld := ⟨0x51000, [(0x40, 256)], 15, 8, .ro, 0, .c⟩
def ADM_RULE_V6 : Fld := ⟨0x51000, [(0x40, 256)], 7, 7, .ro, 0, .c⟩
def ADM_RULE_ADDR : Fld := ⟨0x51004, [(0x40, 256), (0x4, 4)], 31, 0, .ro, 0, .c⟩
def ADM_RULE_VLAN_ANY : Fld := ⟨0x51014, [(0x40, 256)], 31, 31, .ro, 0, .c⟩
def ADM_RULE_TAGGED : Fld := ⟨0x51014, [(0x40, 256)], 12, 12, .ro, 0, .c⟩
def ADM_RULE_VID : Fld := ⟨0x51014, [(0x40, 256)], 11, 0, .ro, 0, .c⟩
def ADM_RULE_ID_HI : Fld := ⟨0x51018, [(0x40, 256)], 31, 16, .ro, 0, .c⟩
def ADM_RULE_ID_LO : Fld := ⟨0x51018, [(0x40, 256)], 15, 0, .ro, 0, .c⟩
def ADM_RULE_APPID_HI : Fld := ⟨0x5101c, [(0x40, 256)], 31, 16, .ro, 0, .c⟩
def ADM_RULE_APPID_LO : Fld := ⟨0x5101c, [(0x40, 256)], 15, 0, .ro, 0, .c⟩
def ADM_RULE_KEYID : Fld := ⟨0x51020, [(0x40, 256)], 31, 0, .ro, 0, .c⟩
def ADM_RULE_TCP_PORT : Fld := ⟨0x51024, [(0x40, 256)], 15, 0, .ro, 0, .c⟩
def ADM_RULE_IDLE_RI : Fld := ⟨0x51028, [(0x40, 256)], 15, 0, .ro, 0, .c⟩
def ADM_SRULE_VALID : Fld := ⟨0x55000, [(0x40, 256)], 31, 31, .rw, 0, .c⟩
def ADM_SRULE_DECISION : Fld := ⟨0x55000, [(0x40, 256)], 30, 29, .rw, 0, .c⟩
def ADM_SRULE_REQ_FRANK : Fld := ⟨0x55000, [(0x40, 256)], 28, 28, .rw, 0, .c⟩
def ADM_SRULE_TRANSPORT : Fld := ⟨0x55000, [(0x40, 256)], 27, 26, .rw, 0, .c⟩
def ADM_SRULE_PORTS : Fld := ⟨0x55000, [(0x40, 256)], 25, 22, .rw, 0, .c⟩
def ADM_SRULE_KIND_MASK : Fld := ⟨0x55000, [(0x40, 256)], 18, 16, .rw, 0, .c⟩
def ADM_SRULE_PREFIX : Fld := ⟨0x55000, [(0x40, 256)], 15, 8, .rw, 0, .c⟩
def ADM_SRULE_V6 : Fld := ⟨0x55000, [(0x40, 256)], 7, 7, .rw, 0, .c⟩
def ADM_SRULE_ADDR : Fld := ⟨0x55004, [(0x40, 256), (0x4, 4)], 31, 0, .rw, 0, .c⟩
def ADM_SRULE_VLAN_ANY : Fld := ⟨0x55014, [(0x40, 256)], 31, 31, .rw, 0, .c⟩
def ADM_SRULE_TAGGED : Fld := ⟨0x55014, [(0x40, 256)], 12, 12, .rw, 0, .c⟩
def ADM_SRULE_VID : Fld := ⟨0x55014, [(0x40, 256)], 11, 0, .rw, 0, .c⟩
def ADM_SRULE_ID_HI : Fld := ⟨0x55018, [(0x40, 256)], 31, 16, .rw, 0, .c⟩
def ADM_SRULE_ID_LO : Fld := ⟨0x55018, [(0x40, 256)], 15, 0, .rw, 0, .c⟩
def ADM_SRULE_APPID_HI : Fld := ⟨0x5501c, [(0x40, 256)], 31, 16, .rw, 0, .c⟩
def ADM_SRULE_APPID_LO : Fld := ⟨0x5501c, [(0x40, 256)], 15, 0, .rw, 0, .c⟩
def ADM_SRULE_KEYID : Fld := ⟨0x55020, [(0x40, 256)], 31, 0, .rw, 0, .c⟩
def ADM_SRULE_TCP_PORT : Fld := ⟨0x55024, [(0x40, 256)], 15, 0, .rw, 0, .c⟩
def ADM_SRULE_IDLE_RI : Fld := ⟨0x55028, [(0x40, 256)], 15, 0, .rw, 0, .c⟩

-- R139 (03_ports_streams)
def STAB_STATE : Fld := ⟨0x400000, [(0x100, 16384)], 31, 29, .ro, 0, .c⟩
def STAB_PINNED : Fld := ⟨0x400000, [(0x100, 16384)], 28, 28, .rwl, 0, .c⟩
def STAB_KIND : Fld := ⟨0x400000, [(0x100, 16384)], 27, 25, .rwl, 0, .c⟩
def STAB_TCP : Fld := ⟨0x400000, [(0x100, 16384)], 24, 24, .rwl, 0, .c⟩
def STAB_PORTS_SEEN : Fld := ⟨0x400000, [(0x100, 16384)], 23, 20, .ro, 0, .w⟩
def STAB_REQ_FRANK : Fld := ⟨0x400000, [(0x100, 16384)], 18, 18, .rwl, 0, .c⟩
def STAB_CFGCNT : Fld := ⟨0x400000, [(0x100, 16384)], 15, 0, .ro, 0, .c⟩
def STAB_IDLE_RI : Fld := ⟨0x400004, [(0x100, 16384)], 31, 16, .rw, 0x258, .c⟩
def STAB_BLK : Fld := ⟨0x400004, [(0x100, 16384)], 15, 8, .ro, 0, .c⟩
def STAB_RATE : Fld := ⟨0x400004, [(0x100, 16384)], 7, 4, .ro, 0, .c⟩
def STAB_FR_IDCODE : Fld := ⟨0x400008, [(0x100, 16384)], 31, 16, .rwl, 0, .c⟩
def STAB_PMU_IDCODE : Fld := ⟨0x400008, [(0x100, 16384)], 15, 0, .rwl, 0, .c⟩
def STAB_SRC : Fld := ⟨0x40000c, [(0x100, 16384), (0x4, 4)], 31, 0, .rwl, 0, .c⟩
def STAB_SRC_PORT : Fld := ⟨0x40001c, [(0x100, 16384)], 31, 16, .rwl, 0, .c⟩
def STAB_VLAN : Fld := ⟨0x40001c, [(0x100, 16384)], 12, 0, .rwl, 0, .c⟩
def STAB_LETTERS : Fld := ⟨0x400020, [(0x100, 16384), (0x4, 2)], 31, 0, .ro, 0, .c⟩
def STAB_DEAD : Fld := ⟨0x400028, [(0x100, 16384)], 31, 0, .ro, 0, .c⟩
def STAB_LAST_DEAD : Fld := ⟨0x40002c, [(0x100, 16384)], 7, 0, .ro, 0, .c⟩
def STAB_LAST_SEC : Fld := ⟨0x400030, [(0x100, 16384), (0x4, 2)], 31, 0, .ro, 0, .c⟩
def STAB_LAST_NS : Fld := ⟨0x400038, [(0x100, 16384)], 29, 0, .ro, 0, .c⟩
def STAB_IDLE_CNT : Fld := ⟨0x40003c, [(0x100, 16384)], 15, 0, .ro, 0, .w⟩
def STAB_CAND : Fld := ⟨0x400040, [(0x100, 16384)], 8, 8, .ro, 0, .w⟩
def STAB_GEN : Fld := ⟨0x400040, [(0x100, 16384)], 7, 0, .ro, 0, .c⟩
def LSTAB_STATE : Fld := ⟨0xc00000, [(0x100, 8)], 31, 29, .ro, 0, .c⟩
def LSTAB_PINNED : Fld := ⟨0xc00000, [(0x100, 8)], 28, 28, .rwl, 0, .c⟩
def LSTAB_KIND : Fld := ⟨0xc00000, [(0x100, 8)], 27, 25, .rwl, 0, .c⟩
def LSTAB_TCP : Fld := ⟨0xc00000, [(0x100, 8)], 24, 24, .rwl, 0, .c⟩
def LSTAB_PORTS_SEEN : Fld := ⟨0xc00000, [(0x100, 8)], 23, 20, .ro, 0, .w⟩
def LSTAB_REQ_FRANK : Fld := ⟨0xc00000, [(0x100, 8)], 18, 18, .rwl, 0, .c⟩
def LSTAB_CFGCNT : Fld := ⟨0xc00000, [(0x100, 8)], 15, 0, .ro, 0, .c⟩
def LSTAB_IDLE_RI : Fld := ⟨0xc00004, [(0x100, 8)], 31, 16, .rw, 0x258, .c⟩
def LSTAB_BLK : Fld := ⟨0xc00004, [(0x100, 8)], 15, 8, .ro, 0, .c⟩
def LSTAB_RATE : Fld := ⟨0xc00004, [(0x100, 8)], 7, 4, .ro, 0, .c⟩
def LSTAB_FR_IDCODE : Fld := ⟨0xc00008, [(0x100, 8)], 31, 16, .rwl, 0, .c⟩
def LSTAB_PMU_IDCODE : Fld := ⟨0xc00008, [(0x100, 8)], 15, 0, .rwl, 0, .c⟩
def LSTAB_SRC : Fld := ⟨0xc0000c, [(0x100, 8), (0x4, 4)], 31, 0, .rwl, 0, .c⟩
def LSTAB_SRC_PORT : Fld := ⟨0xc0001c, [(0x100, 8)], 31, 16, .rwl, 0, .c⟩
def LSTAB_VLAN : Fld := ⟨0xc0001c, [(0x100, 8)], 12, 0, .rwl, 0, .c⟩
def LSTAB_LETTERS : Fld := ⟨0xc00020, [(0x100, 8), (0x4, 2)], 31, 0, .ro, 0, .c⟩
def LSTAB_DEAD : Fld := ⟨0xc00028, [(0x100, 8)], 31, 0, .ro, 0, .c⟩
def LSTAB_LAST_DEAD : Fld := ⟨0xc0002c, [(0x100, 8)], 7, 0, .ro, 0, .c⟩
def LSTAB_LAST_SEC : Fld := ⟨0xc00030, [(0x100, 8), (0x4, 2)], 31, 0, .ro, 0, .c⟩
def LSTAB_LAST_NS : Fld := ⟨0xc00038, [(0x100, 8)], 29, 0, .ro, 0, .c⟩
def LSTAB_IDLE_CNT : Fld := ⟨0xc0003c, [(0x100, 8)], 15, 0, .ro, 0, .w⟩
def LSTAB_CAND : Fld := ⟨0xc00040, [(0x100, 8)], 8, 8, .ro, 0, .w⟩
def LSTAB_GEN : Fld := ⟨0xc00040, [(0x100, 8)], 7, 0, .ro, 0, .c⟩

-- R179 (04_alignment)
def STAB_Q : Fld := ⟨0x400080, [(0x100, 16384)], 31, 0, .ro, 0, .c⟩
def STAB_M : Fld := ⟨0x400084, [(0x100, 16384)], 31, 0, .ro, 0, .c⟩
def STAB_D : Fld := ⟨0x400088, [(0x100, 16384)], 31, 0, .ro, 0, .c⟩
def STAB_LATE : Fld := ⟨0x40008c, [(0x100, 16384)], 31, 0, .ro, 0, .c⟩
def STAB_DUP : Fld := ⟨0x400090, [(0x100, 16384)], 31, 0, .ro, 0, .c⟩
def STAB_OFFGRID : Fld := ⟨0x400094, [(0x100, 16384)], 31, 0, .ro, 0, .c⟩
def STAB_STALE : Fld := ⟨0x400098, [(0x100, 16384)], 31, 0, .ro, 0, .c⟩
def STAB_LAST_L : Fld := ⟨0x40009c, [(0x100, 16384)], 31, 0, .ro, 0, .c⟩
def STAB_MAX_L : Fld := ⟨0x4000a0, [(0x100, 16384)], 31, 0, .rw, 0, .c⟩
def STAB_SEEDED : Fld := ⟨0x4000a4, [(0x100, 16384)], 0, 0, .ro, 0, .c⟩
def LSTAB_Q : Fld := ⟨0xc00080, [(0x100, 8)], 31, 0, .ro, 0, .c⟩
def LSTAB_M : Fld := ⟨0xc00084, [(0x100, 8)], 31, 0, .ro, 0, .c⟩
def LSTAB_D : Fld := ⟨0xc00088, [(0x100, 8)], 31, 0, .ro, 0, .c⟩
def LSTAB_LATE : Fld := ⟨0xc0008c, [(0x100, 8)], 31, 0, .ro, 0, .c⟩
def LSTAB_DUP : Fld := ⟨0xc00090, [(0x100, 8)], 31, 0, .ro, 0, .c⟩
def LSTAB_OFFGRID : Fld := ⟨0xc00094, [(0x100, 8)], 31, 0, .ro, 0, .c⟩
def LSTAB_STALE : Fld := ⟨0xc00098, [(0x100, 8)], 31, 0, .ro, 0, .c⟩
def LSTAB_LAST_L : Fld := ⟨0xc0009c, [(0x100, 8)], 31, 0, .ro, 0, .c⟩
def LSTAB_MAX_L : Fld := ⟨0xc000a0, [(0x100, 8)], 31, 0, .rw, 0, .c⟩
def LSTAB_SEEDED : Fld := ⟨0xc000a4, [(0x100, 8)], 0, 0, .ro, 0, .c⟩

-- R227 (05_sorting_office)
def STAB_PIN : Fld := ⟨0x4000c0, [(0x100, 16384)], 31, 31, .rw, 0, .c⟩
def STAB_PIN_SRT : Fld := ⟨0x4000c0, [(0x100, 16384)], 29, 24, .rw, 0, .c⟩
def STAB_HOME : Fld := ⟨0x4000c0, [(0x100, 16384)], 21, 16, .ro, 0, .c⟩
def STAB_FALLBACK : Fld := ⟨0x4000c0, [(0x100, 16384)], 13, 8, .ro, 0, .c⟩
def STAB_BUNDLE : Fld := ⟨0x4000c4, [(0x100, 16384)], 15, 0, .ro, 0, .c⟩
def STAB_LOAD : Fld := ⟨0x4000c8, [(0x100, 16384)], 31, 0, .ro, 0, .c⟩
def STAB_MOVES : Fld := ⟨0x4000cc, [(0x100, 16384)], 31, 0, .ro, 0, .c⟩
def STAB_STEALS : Fld := ⟨0x4000d0, [(0x100, 16384)], 31, 0, .ro, 0, .c⟩
def STAB_LAST_MOVE : Fld := ⟨0x4000d4, [(0x100, 16384)], 31, 0, .ro, 0, .c⟩
def LSTAB_PIN : Fld := ⟨0xc000c0, [(0x100, 8)], 31, 31, .rw, 0, .c⟩
def LSTAB_PIN_SRT : Fld := ⟨0xc000c0, [(0x100, 8)], 29, 24, .rw, 0, .c⟩
def LSTAB_HOME : Fld := ⟨0xc000c0, [(0x100, 8)], 21, 16, .ro, 0, .c⟩
def LSTAB_FALLBACK : Fld := ⟨0xc000c0, [(0x100, 8)], 13, 8, .ro, 0, .c⟩
def LSTAB_BUNDLE : Fld := ⟨0xc000c4, [(0x100, 8)], 15, 0, .ro, 0, .c⟩
def LSTAB_LOAD : Fld := ⟨0xc000c8, [(0x100, 8)], 31, 0, .ro, 0, .c⟩
def LSTAB_MOVES : Fld := ⟨0xc000cc, [(0x100, 8)], 31, 0, .ro, 0, .c⟩
def LSTAB_STEALS : Fld := ⟨0xc000d0, [(0x100, 8)], 31, 0, .ro, 0, .c⟩
def LSTAB_LAST_MOVE : Fld := ⟨0xc000d4, [(0x100, 8)], 31, 0, .ro, 0, .c⟩

-- R113 (03_ports_streams)
def DESC_VALID : Fld := ⟨0x800000, [(0x100, 16384)], 31, 31, .rw, 0, .d⟩
def DESC_KIND : Fld := ⟨0x800000, [(0x100, 16384)], 30, 28, .rw, 0, .d⟩
def DESC_ORIGIN : Fld := ⟨0x800000, [(0x100, 16384)], 27, 26, .rw, 0, .d⟩
def DESC_PH_FLOAT : Fld := ⟨0x800000, [(0x100, 16384)], 25, 25, .rw, 0, .d⟩
def DESC_PH_POLAR : Fld := ⟨0x800000, [(0x100, 16384)], 24, 24, .rw, 0, .d⟩
def DESC_AN_FLOAT : Fld := ⟨0x800000, [(0x100, 16384)], 23, 23, .rw, 0, .d⟩
def DESC_FR_FLOAT : Fld := ⟨0x800000, [(0x100, 16384)], 22, 22, .rw, 0, .d⟩
def DESC_QUAL : Fld := ⟨0x800000, [(0x100, 16384)], 21, 21, .rw, 0, .d⟩
def DESC_TRUNC : Fld := ⟨0x800000, [(0x100, 16384)], 20, 20, .rw, 0, .d⟩
def DESC_FNOM50 : Fld := ⟨0x800000, [(0x100, 16384)], 16, 16, .rw, 0, .d⟩
def DESC_CFGCNT : Fld := ⟨0x800000, [(0x100, 16384)], 15, 0, .rw, 0, .d⟩
def DESC_PHNMR : Fld := ⟨0x800004, [(0x100, 16384)], 31, 24, .rw, 0, .d⟩
def DESC_ANNMR : Fld := ⟨0x800004, [(0x100, 16384)], 23, 16, .rw, 0, .d⟩
def DESC_DGNMR : Fld := ⟨0x800004, [(0x100, 16384)], 15, 8, .rw, 0, .d⟩
def DESC_BLK : Fld := ⟨0x800004, [(0x100, 16384)], 7, 0, .rw, 0, .d⟩
def DESC_BLK_OFS : Fld := ⟨0x800008, [(0x100, 16384)], 31, 16, .rw, 0, .d⟩
def DESC_BLK_LEN : Fld := ⟨0x800008, [(0x100, 16384)], 15, 0, .rw, 0, .d⟩
def DESC_FRAMESIZE : Fld := ⟨0x80000c, [(0x100, 16384)], 31, 16, .rw, 0, .d⟩
def DESC_RATE : Fld := ⟨0x80000c, [(0x100, 16384)], 3, 0, .rw, 0, .d⟩
def DESC_FR_IDCODE : Fld := ⟨0x800010, [(0x100, 16384)], 31, 16, .rw, 0, .d⟩
def DESC_PMU_IDCODE : Fld := ⟨0x800010, [(0x100, 16384)], 15, 0, .rw, 0, .d⟩
def DESC_GEN : Fld := ⟨0x800014, [(0x100, 16384)], 31, 24, .rw, 0, .d⟩
def DESC_TIME_BASE : Fld := ⟨0x800014, [(0x100, 16384)], 23, 0, .rw, 0, .d⟩
def DESC_CHECK : Fld := ⟨0x80001c, [(0x100, 16384)], 31, 0, .rw, 0, .d⟩
def DESC_PHSCALE : Fld := ⟨0x800020, [(0x100, 16384), (0x4, 32)], 31, 0, .rw, 0, .d⟩
def DESC_ANSCALE : Fld := ⟨0x8000a0, [(0x100, 16384), (0x4, 16)], 31, 0, .rw, 0, .d⟩
def DESC_DIGUNIT : Fld := ⟨0x8000e0, [(0x100, 16384), (0x4, 8)], 31, 0, .rw, 0, .d⟩

-- R176 (04_alignment)
def ROUND_TOL : Fld := ⟨0x60000, [], 7, 0, .rwl, 0x32, .c⟩
def WHL_TRK_DINIT_US : Fld := ⟨0x60004, [], 31, 16, .rwl, 0x7d0, .c⟩
def WHL_TRK_DMIN_US : Fld := ⟨0x60004, [], 15, 8, .rwl, 5, .c⟩
def WHL_TRK_G : Fld := ⟨0x60004, [], 3, 0, .rwl, 3, .c⟩
def WHL_STALE_COUNT : Fld := ⟨0x60008, [], 31, 0, .ro, 0, .w⟩
def WHL_FUTURE_COUNT : Fld := ⟨0x6000c, [], 31, 0, .ro, 0, .w⟩

-- R180 (04_alignment)
def WHL_NOTICE_RND : Fld := ⟨0x600e0, [(0x4, 2)], 31, 0, .ro, 0, .w⟩

-- R177 (04_alignment)
def WHL_RND_CTL_EN : Fld := ⟨0x61000, [(0x80, 64)], 31, 31, .rwl, 0, .c⟩
def WHL_RND_CTL_RATE : Fld := ⟨0x61000, [(0x80, 64)], 27, 24, .rwl, 7, .c⟩
def WHL_RND_CTL_LATE_ADD : Fld := ⟨0x61000, [(0x80, 64)], 20, 20, .rw, 0, .c⟩
def WHL_RND_CTL_OFFGRID_DEAD : Fld := ⟨0x61000, [(0x80, 64)], 19, 19, .rw, 0, .c⟩
def WHL_RND_CTL_HOST : Fld := ⟨0x61000, [(0x80, 64)], 18, 18, .rw, 0, .c⟩
def WHL_RND_CTL_WIRE : Fld := ⟨0x61000, [(0x80, 64)], 17, 17, .rw, 0, .c⟩
def WHL_RND_CTL_POLAR : Fld := ⟨0x61000, [(0x80, 64)], 15, 15, .rwl, 0, .c⟩
def WHL_RND_QUO_Q_PCT : Fld := ⟨0x61004, [(0x80, 64)], 23, 16, .rw, 0x64, .c⟩
def WHL_RND_QUO_COVER_PCT : Fld := ⟨0x61004, [(0x80, 64)], 15, 8, .rw, 0x63, .c⟩
def WHL_RND_QUO_ABSENT_RI : Fld := ⟨0x61004, [(0x80, 64)], 7, 0, .rw, 8, .c⟩
def WHL_RND_DL_MIN_US : Fld := ⟨0x61008, [(0x80, 64)], 31, 16, .rw, 0x3e8, .c⟩
def WHL_RND_DL_MARGIN_US : Fld := ⟨0x61008, [(0x80, 64)], 15, 0, .rw, 0xfa, .c⟩
def WHL_RND_DLMAX_US : Fld := ⟨0x6100c, [(0x80, 64)], 22, 0, .rw, 0x186a0, .c⟩
def WHL_RND_DLINIT_US : Fld := ⟨0x61010, [(0x80, 64)], 22, 0, .rw, 0xc350, .c⟩
def WHL_RND_DLNOW_CLAMP : Fld := ⟨0x61014, [(0x80, 64)], 31, 31, .ro, 0, .c⟩
def WHL_RND_DLNOW_D : Fld := ⟨0x61014, [(0x80, 64)], 30, 0, .ro, 0xc35000, .c⟩
def WHL_RND_FIRST_US : Fld := ⟨0x61018, [(0x80, 64)], 31, 0, .ro, 0, .c⟩
def WHL_RND_SHAPE_PHN : Fld := ⟨0x6101c, [(0x80, 64)], 29, 24, .rwl, 0x20, .c⟩
def WHL_RND_SHAPE_ANN : Fld := ⟨0x6101c, [(0x80, 64)], 20, 16, .rwl, 0x10, .c⟩
def WHL_RND_SHAPE_DGN : Fld := ⟨0x6101c, [(0x80, 64)], 11, 8, .rwl, 8, .c⟩
def WHL_RND_SHAPE_ANNOUNCE_S : Fld := ⟨0x6101c, [(0x80, 64)], 7, 0, .rw, 0x3c, .c⟩
def WHL_RND_OUT_CMD_GATE : Fld := ⟨0x61020, [(0x80, 64)], 20, 20, .rw, 0, .c⟩
def WHL_RND_OUT_PORTS : Fld := ⟨0x61020, [(0x80, 64)], 19, 16, .rw, 0, .c⟩
def WHL_RND_OUT_IDCODE : Fld := ⟨0x61020, [(0x80, 64)], 15, 0, .rwl, 0, .c⟩
def WHL_RND_TB_TIME_BASE : Fld := ⟨0x61024, [(0x80, 64)], 23, 0, .rwl, 0xf4240, .c⟩
def WHL_RND_DST_ADDR : Fld := ⟨0x61028, [(0x80, 64), (0x4, 4)], 31, 0, .rw, 0, .c⟩
def WHL_RND_DST_UDP_V6 : Fld := ⟨0x61038, [(0x80, 64)], 16, 16, .rw, 0, .c⟩
def WHL_RND_DST_UDP_PORT : Fld := ⟨0x61038, [(0x80, 64)], 15, 0, .rw, 0x1269, .c⟩
def WHL_RND_COMMIT_STATUS : Fld := ⟨0x6103c, [(0x80, 64)], 9, 8, .ro, 0, .w⟩
def WHL_RND_COMMIT_GO : Fld := ⟨0x6103c, [(0x80, 64)], 0, 0, .wo, 0, .w⟩
def WHL_RND_STAT_CFGCNT : Fld := ⟨0x61040, [(0x80, 64)], 31, 16, .ro, 0, .c⟩
def WHL_RND_STAT_MEMBERS : Fld := ⟨0x61040, [(0x80, 64)], 14, 0, .ro, 0, .c⟩

-- R178 (04_alignment)
def WHL_RND_ESS_CUR : Fld := ⟨0x61044, [(0x80, 64)], 30, 16, .ro, 0, .w⟩
def WHL_RND_ESS_TABLE : Fld := ⟨0x61044, [(0x80, 64)], 14, 0, .ro, 0, .w⟩
def WHL_RND_DISPATCHED : Fld := ⟨0x61048, [(0x80, 64)], 31, 0, .ro, 0, .w⟩
def WHL_RND_BY_DEADLINE : Fld := ⟨0x6104c, [(0x80, 64)], 31, 0, .ro, 0, .w⟩
def WHL_RND_LATE : Fld := ⟨0x61050, [(0x80, 64)], 31, 0, .ro, 0, .w⟩
def WHL_RND_DUP : Fld := ⟨0x61054, [(0x80, 64)], 31, 0, .ro, 0, .w⟩
def WHL_RND_ADD_DROP : Fld := ⟨0x61058, [(0x80, 64)], 31, 0, .ro, 0, .w⟩
def WHL_RND_INELIG : Fld := ⟨0x6105c, [(0x80, 64)], 31, 0, .ro, 0, .w⟩
def WHL_RND_CMD_IGN : Fld := ⟨0x61060, [(0x80, 64)], 31, 0, .ro, 0, .w⟩
def WHL_RND_MAX_DSP : Fld := ⟨0x61064, [(0x80, 64)], 31, 0, .rw, 0, .w⟩

-- R151 (04_alignment)
def WHL_MEMB_ACTIVE : Fld := ⟨0xc10000, [(0x4000, 64), (0x4, 2048)], 31, 0, .ro, 0, .c⟩
/-- Entries of SIDs 0 to 16,383. -/
def WHL_MEMB_SHADOW : Fld := ⟨0xc12000, [(0x4000, 64), (0x4, 1024)], 31, 0, .rw, 0, .c⟩
/-- Entries of the local SIDs, the last two bytes of the table. -/
def WHL_MEMB_SHADOW_LOCAL : Fld := ⟨0xc13000, [(0x4000, 64)], 15, 0, .rw, 0, .c⟩

-- R220 (05_sorting_office)
def SRT_ITEMS : Fld := ⟨0xd10000, [(0x40, 64), (0x4, 2)], 31, 0, .ro, 0, .w⟩
def SRT_BUSY : Fld := ⟨0xd10008, [(0x40, 64), (0x4, 2)], 31, 0, .ro, 0, .w⟩
def SRT_STOLEN_IN : Fld := ⟨0xd10010, [(0x40, 64)], 31, 0, .ro, 0, .w⟩
def SRT_STOLEN_OUT : Fld := ⟨0xd10014, [(0x40, 64)], 31, 0, .ro, 0, .w⟩
def SRT_WAKES : Fld := ⟨0xd10018, [(0x40, 64)], 31, 0, .ro, 0, .w⟩
def SRT_CANCELLED : Fld := ⟨0xd1001c, [(0x40, 64)], 31, 0, .ro, 0, .w⟩
def SRT_MAX_WAIT : Fld := ⟨0xd10020, [(0x40, 64)], 31, 0, .rw, 0, .w⟩
def SRT_LOAD_PCT : Fld := ⟨0xd10024, [(0x40, 64)], 23, 16, .ro, 0, .w⟩
def SRT_HOMED : Fld := ⟨0xd10024, [(0x40, 64)], 15, 0, .ro, 0, .w⟩
def SRT_MIGR_IN : Fld := ⟨0xd10028, [(0x40, 64)], 31, 0, .ro, 0, .w⟩
def SRT_MIGR_OUT : Fld := ⟨0xd1002c, [(0x40, 64)], 31, 0, .ro, 0, .w⟩
def SRT_DEPTH : Fld := ⟨0xd10030, [(0x40, 64)], 31, 0, .ro, 0, .w⟩

-- R223 (05_sorting_office)
def SOF_CTL_STEAL_NS : Fld := ⟨0x70000, [], 31, 16, .rw, 0x7d0, .w⟩
def SOF_CTL_AGE : Fld := ⟨0x70000, [], 15, 8, .rw, 0x40, .w⟩
def SOF_CTL_ITEM_MAX : Fld := ⟨0x70000, [], 7, 0, .rw, 0x14, .w⟩
def SOF_EXPIRE_C2_RI : Fld := ⟨0x70004, [], 7, 0, .rw, 4, .w⟩
def SOF_CANCEL_GO : Fld := ⟨0x70008, [], 31, 31, .wo, 0, .w⟩
def SOF_CANCEL_STATUS : Fld := ⟨0x70008, [], 17, 16, .ro, 0, .w⟩
def SOF_CANCEL_FLOW : Fld := ⟨0x70008, [], 15, 0, .wo, 0, .w⟩
def SOF_CLS_OCC_OCC : Fld := ⟨0x70010, [(0x8, 4)], 16, 0, .ro, 0, .w⟩
def SOF_CLS_HIGH_HIGH : Fld := ⟨0x70014, [(0x8, 4)], 16, 0, .rw, 0, .w⟩
def SOF_ESC_USED_COUNT : Fld := ⟨0x70030, [], 31, 0, .ro, 0, .w⟩
def SOF_TRC_CTL_EN : Fld := ⟨0x70040, [], 31, 31, .rw, 0, .w⟩
def SOF_TRC_CTL_STAT : Fld := ⟨0x70040, [], 30, 29, .ro, 0, .w⟩
def SOF_TRC_CTL_EVENTS : Fld := ⟨0x70040, [], 15, 0, .rw, 0, .w⟩
def SOF_TRC_FLOW_HI : Fld := ⟨0x70044, [], 31, 16, .rw, 0xffff, .w⟩
def SOF_TRC_FLOW_LO : Fld := ⟨0x70044, [], 15, 0, .rw, 0, .w⟩
def SOF_TRC_SRT_MASK : Fld := ⟨0x70048, [(0x4, 2)], 31, 0, .rw, 0xffffffff, .w⟩
def SOF_TRC_CNT_COUNT : Fld := ⟨0x70050, [], 31, 0, .rw, 0, .w⟩
def SOF_DLO_SMP_N : Fld := ⟨0x70054, [], 7, 0, .rw, 4, .w⟩
def SOF_DLO_CNT_COUNT : Fld := ⟨0x70200, [(0x8, 32), (0x4, 2)], 31, 0, .ro, 0, .w⟩

-- R225 (05_sorting_office)
def PLC_CFG_EN : Fld := ⟨0x80000, [], 31, 31, .rw, 1, .c⟩
def PLC_CFG_MIN_ACTIVE : Fld := ⟨0x80000, [], 30, 24, .rwl, 8, .c⟩
def PLC_CFG_HOLD_S : Fld := ⟨0x80000, [], 23, 16, .rw, 0xa, .c⟩
def PLC_CFG_MOVES_BND : Fld := ⟨0x80000, [], 15, 8, .rw, 0x10, .c⟩
def PLC_TGT_CHUNK : Fld := ⟨0x80004, [], 31, 24, .rw, 5, .c⟩
def PLC_TGT_CAP : Fld := ⟨0x80004, [], 23, 16, .rw, 0x55, .c⟩
def PLC_TGT_UTIL : Fld := ⟨0x80004, [], 15, 8, .rw, 0x3c, .c⟩
def PLC_GAIN_MAX_MOVES : Fld := ⟨0x80008, [], 31, 16, .rw, 0x100, .c⟩
def PLC_GAIN_GAIN_MIN : Fld := ⟨0x80008, [], 15, 0, .rw, 0x40, .c⟩
def PLC_AFF_WL : Fld := ⟨0x8000c, [], 31, 24, .rw, 0x10, .c⟩
def PLC_AFF_WA : Fld := ⟨0x8000c, [], 23, 16, .rw, 2, .c⟩
def PLC_AFF_WC : Fld := ⟨0x8000c, [], 15, 8, .rw, 8, .c⟩
def PLC_AFF_WR : Fld := ⟨0x8000c, [], 7, 0, .rw, 4, .c⟩
def PLC_STAT_PASSES : Fld := ⟨0x80010, [], 31, 16, .ro, 0, .w⟩
def PLC_STAT_ACTIVE : Fld := ⟨0x80010, [], 14, 8, .ro, 0, .w⟩
def PLC_STAT_COH_SRC : Fld := ⟨0x80010, [], 2, 1, .ro, 0, .w⟩
def PLC_STAT_BUSY : Fld := ⟨0x80010, [], 0, 0, .ro, 0, .w⟩
def PLC_MOVES_LAST : Fld := ⟨0x80014, [], 31, 16, .ro, 0, .w⟩
def PLC_MOVES_PENDING : Fld := ⟨0x80014, [], 15, 0, .ro, 0, .w⟩
def PLC_CUT_VALUE : Fld := ⟨0x80018, [], 31, 0, .ro, 0, .w⟩

-- R226 (05_sorting_office)
def PLC_RND_PIN : Fld := ⟨0x80100, [(0x4, 64)], 31, 31, .rw, 0, .c⟩
def PLC_RND_PIN_SRT : Fld := ⟨0x80100, [(0x4, 64)], 29, 24, .rw, 0, .c⟩
def PLC_RND_HOME : Fld := ⟨0x80100, [(0x4, 64)], 13, 8, .ro, 0, .c⟩
def PLC_RND_FALLBACK : Fld := ⟨0x80100, [(0x4, 64)], 5, 0, .ro, 0, .c⟩
def PLC_AG_PIN : Fld := ⟨0x80200, [(0x4, 256)], 31, 31, .rw, 0, .c⟩
def PLC_AG_PIN_SRT : Fld := ⟨0x80200, [(0x4, 256)], 29, 24, .rw, 0, .c⟩
def PLC_AG_HOME : Fld := ⟨0x80200, [(0x4, 256)], 13, 8, .ro, 0, .c⟩
def PLC_AG_FALLBACK : Fld := ⟨0x80200, [(0x4, 256)], 5, 0, .ro, 0, .c⟩

-- R229 (05_sorting_office)
def HIF_STAT_BME : Fld := ⟨0x140004, [], 1, 1, .ro, 0, .w⟩
def HIF_STAT_LINK : Fld := ⟨0x140004, [], 0, 0, .ro, 0, .w⟩
def PR_DESC_ADDR : Fld := ⟨0x141000, [(0x40, 128), (0x4, 2)], 31, 0, .rw, 0, .w⟩
def PR_DATA_ADDR : Fld := ⟨0x141008, [(0x40, 128), (0x4, 2)], 31, 0, .rw, 0, .w⟩
def PR_CFG_EN : Fld := ⟨0x141010, [(0x40, 128)], 31, 31, .rw, 0, .w⟩
def PR_CFG_DLOG2 : Fld := ⟨0x141010, [(0x40, 128)], 28, 24, .rw, 0x14, .w⟩
def PR_CFG_SLOG2 : Fld := ⟨0x141010, [(0x40, 128)], 20, 16, .rw, 8, .w⟩
/-- CFG.SRC of PR0 to PR63: source 1, read only. -/
def PR_CFG_SRC_RND : Fld := ⟨0x141010, [(0x40, 64)], 15, 12, .ro, 1, .w⟩
/-- CFG.SRC of PR64 to PR127, by the ring's number less 64. -/
def PR_CFG_SRC : Fld := ⟨0x142010, [(0x40, 64)], 15, 12, .rw, 0, .w⟩
def PR_CFG_NOTIFY : Fld := ⟨0x141010, [(0x40, 128)], 11, 10, .rw, 2, .w⟩
def PR_CFG_DROP_REST : Fld := ⟨0x141010, [(0x40, 128)], 9, 9, .rw, 0, .w⟩
def PR_CFG_VEC : Fld := ⟨0x141010, [(0x40, 128)], 5, 0, .rw, 0, .w⟩
def PR_MOD_MOD_US : Fld := ⟨0x141014, [(0x40, 128)], 31, 16, .rw, 0x64, .w⟩
def PR_MOD_MOD_CNT : Fld := ⟨0x141014, [(0x40, 128)], 15, 0, .rw, 0x10, .w⟩
def PR_RESUME_DESC : Fld := ⟨0x141018, [(0x40, 128)], 16, 0, .rw, 0, .w⟩
def PR_SEL_SEL : Fld := ⟨0x14101c, [(0x40, 128)], 15, 0, .rw, 0, .w⟩
def PR_PROD : Fld := ⟨0x141020, [(0x40, 128)], 31, 0, .ro, 0, .w⟩
def PR_CONS : Fld := ⟨0x141024, [(0x40, 128)], 31, 0, .ro, 0, .w⟩
def PR_PROD_B : Fld := ⟨0x141028, [(0x40, 128)], 31, 0, .ro, 0, .w⟩
def PR_CONS_B : Fld := ⟨0x14102c, [(0x40, 128)], 31, 0, .ro, 0, .w⟩
def PR_SHED : Fld := ⟨0x141030, [(0x40, 128)], 31, 0, .ro, 0, .w⟩
def PR_SHED_BODY : Fld := ⟨0x141034, [(0x40, 128)], 31, 0, .ro, 0, .w⟩
def PR_GAP : Fld := ⟨0x141038, [(0x40, 128)], 31, 0, .ro, 0, .w⟩
def PR_STAT_DROPPING : Fld := ⟨0x14103c, [(0x40, 128)], 1, 1, .ro, 0, .w⟩
def PR_STAT_PCIE_ERR : Fld := ⟨0x14103c, [(0x40, 128)], 0, 0, .w1c, 0, .w⟩

-- R230 (05_sorting_office)
def LB_BASE_ADDR : Fld := ⟨0x143000, [(0x40, 16), (0x4, 2)], 31, 0, .rw, 0, .w⟩
def LB_CFG_EN : Fld := ⟨0x143008, [(0x40, 16)], 31, 31, .rw, 0, .w⟩
def LB_CFG_SLOG2 : Fld := ⟨0x143008, [(0x40, 16)], 20, 16, .rw, 6, .w⟩
def LB_CFG_CPL_RING : Fld := ⟨0x143008, [(0x40, 16)], 14, 8, .rw, 0x43, .w⟩
def LB_CFG_DEPTH : Fld := ⟨0x143008, [(0x40, 16)], 7, 0, .rw, 0x10, .w⟩
def LB_PROD : Fld := ⟨0x14300c, [(0x40, 16)], 31, 0, .ro, 0, .w⟩
def LB_CONS : Fld := ⟨0x143010, [(0x40, 16)], 31, 0, .ro, 0, .w⟩
def LB_DONE : Fld := ⟨0x143014, [(0x40, 16)], 31, 0, .ro, 0, .w⟩
def LB_BAD : Fld := ⟨0x143018, [(0x40, 16)], 31, 0, .ro, 0, .w⟩
def LB_STAT_PCIE_ERR : Fld := ⟨0x14301c, [(0x40, 16)], 0, 0, .w1c, 0, .w⟩

-- R272 (06_oscillation)
def OSC_CTL_EN : Fld := ⟨0x90000, [], 31, 31, .rwl, 0, .c⟩
def OSC_CTL_USE_TEST : Fld := ⟨0x90000, [], 20, 20, .rwl, 0, .c⟩
def OSC_CTL_FGT_S : Fld := ⟨0x90000, [], 19, 16, .rwl, 9, .c⟩
def OSC_CTL_FGT_F : Fld := ⟨0x90000, [], 11, 8, .rwl, 0xa, .c⟩
def OSC_CTL_GAP_MAX : Fld := ⟨0x90000, [], 7, 0, .rwl, 4, .c⟩
def OSC_FO_PERSIST : Fld := ⟨0x90004, [], 31, 24, .rw, 6, .c⟩
def OSC_FO_RATIO : Fld := ⟨0x90004, [], 23, 16, .rw, 0x1e, .c⟩
def OSC_FO_ENV : Fld := ⟨0x90004, [], 15, 0, .rw, 0xccd, .c⟩
def OSC_MATCH_DROP : Fld := ⟨0x90008, [], 23, 16, .rw, 4, .c⟩
def OSC_MATCH_DF_MHZ : Fld := ⟨0x90008, [], 15, 8, .rw, 0x32, .c⟩
def OSC_MATCH_DZ : Fld := ⟨0x90008, [], 7, 0, .rw, 0x32, .c⟩
def OSC_AUTO_PERIOD_S : Fld := ⟨0x9000c, [], 31, 24, .rw, 0x3c, .c⟩
def OSC_AUTO_SWAPS : Fld := ⟨0x9000c, [], 23, 16, .rw, 4, .c⟩
def OSC_AUTO_CORR_MAX : Fld := ⟨0x9000c, [], 15, 0, .rw, 0xf333, .c⟩
def OSC_STAT_EXTRACTS : Fld := ⟨0x90010, [], 31, 16, .ro, 0, .w⟩
def OSC_STAT_RUNNING : Fld := ⟨0x90010, [], 8, 0, .ro, 0, .w⟩
def OSC_MISS_COUNT : Fld := ⟨0x90014, [], 31, 0, .ro, 0, .w⟩
def OSC_DEF_CTL_MODE : Fld := ⟨0x90020, [], 31, 30, .rw, 0, .c⟩
def OSC_DEF_CTL_RND : Fld := ⟨0x90020, [], 29, 24, .rwl, 0, .c⟩
def OSC_DEF_CTL_GROUP : Fld := ⟨0x90020, [], 23, 16, .rw, 0, .c⟩
def OSC_DEF_CTL_SLOT : Fld := ⟨0x90020, [], 10, 8, .rw, 0, .c⟩
def OSC_DEF_CTL_WIN_S : Fld := ⟨0x90020, [], 7, 0, .rw, 0x14, .c⟩
def OSC_DEF_FREQ_F : Fld := ⟨0x90024, [], 31, 0, .rw, 0x3f800000, .c⟩
def OSC_DEF_STAT_VALID : Fld := ⟨0x9002c, [], 31, 31, .ro, 0, .w⟩
def OSC_DEF_STAT_SRC : Fld := ⟨0x9002c, [], 30, 28, .ro, 0, .w⟩
def OSC_DEF_STAT_CFGERR : Fld := ⟨0x9002c, [], 27, 24, .ro, 0, .w⟩
def OSC_DEF_STAT_EPOCHS : Fld := ⟨0x9002c, [], 15, 0, .ro, 0, .w⟩
def OSC_DEF_FNOW_F : Fld := ⟨0x90030, [], 31, 0, .ro, 0, .w⟩
def OSC_DEF_TOP_BUS : Fld := ⟨0x90034, [], 31, 16, .ro, 0, .w⟩
def OSC_DEF_TOP_VALID_BR : Fld := ⟨0x90034, [], 11, 0, .ro, 0, .w⟩

-- R274 (06_oscillation)
def OSC_NOTICE_AG : Fld := ⟨0x900c0, [(0x4, 8)], 31, 0, .ro, 0, .w⟩

-- R273 (06_oscillation)
def OSC_AG_CFG_EN : Fld := ⟨0x91000, [(0x40, 256)], 31, 31, .rwl, 0, .c⟩
def OSC_AG_CFG_SLOW : Fld := ⟨0x91000, [(0x40, 256)], 30, 30, .rwl, 0, .c⟩
def OSC_AG_CFG_AUTO : Fld := ⟨0x91000, [(0x40, 256)], 29, 29, .rw, 0, .c⟩
def OSC_AG_CFG_MODES : Fld := ⟨0x91000, [(0x40, 256)], 27, 24, .rwl, 8, .c⟩
def OSC_AG_CFG_RND : Fld := ⟨0x91000, [(0x40, 256)], 21, 16, .rwl, 0, .c⟩
def OSC_AG_REF_REF_EN : Fld := ⟨0x91004, [(0x40, 256)], 31, 31, .rwl, 0, .c⟩
def OSC_AG_REF_PH_IDX : Fld := ⟨0x91004, [(0x40, 256)], 20, 16, .rwl, 0, .c⟩
def OSC_AG_REF_SID : Fld := ⟨0x91004, [(0x40, 256)], 14, 0, .rwl, 0, .c⟩
def OSC_AG_STAT_STATE : Fld := ⟨0x91008, [(0x40, 256)], 31, 28, .ro, 0, .w⟩
def OSC_AG_STAT_SLOW_SETTLING : Fld := ⟨0x91008, [(0x40, 256)], 27, 27, .ro, 0, .w⟩
def OSC_AG_STAT_ACTIVE : Fld := ⟨0x91008, [(0x40, 256)], 23, 16, .ro, 0, .w⟩
def OSC_AG_STAT_STALE : Fld := ⟨0x91008, [(0x40, 256)], 15, 8, .ro, 0, .w⟩
def OSC_AG_STAT_OCCUPIED : Fld := ⟨0x91008, [(0x40, 256)], 7, 0, .ro, 0, .w⟩
def OSC_AG_SEQ : Fld := ⟨0x9100c, [(0x40, 256)], 31, 0, .ro, 0, .w⟩
def OSC_AG_SAMPLES_F : Fld := ⟨0x91010, [(0x40, 256)], 31, 0, .ro, 0, .w⟩
def OSC_AG_SAMPLES_S : Fld := ⟨0x91014, [(0x40, 256)], 31, 0, .ro, 0, .w⟩
def OSC_AG_SKIPPED : Fld := ⟨0x91018, [(0x40, 256)], 31, 0, .ro, 0, .w⟩
def OSC_AG_ADD_USED : Fld := ⟨0x9101c, [(0x40, 256)], 31, 0, .ro, 0, .w⟩
def OSC_AG_MISSED : Fld := ⟨0x91020, [(0x40, 256)], 31, 0, .ro, 0, .w⟩
def OSC_AG_SWAPS : Fld := ⟨0x91024, [(0x40, 256)], 31, 0, .ro, 0, .w⟩
def OSC_AG_CFGERR : Fld := ⟨0x91028, [(0x40, 256)], 7, 0, .ro, 0, .w⟩
def OSC_AG_UNPLACED : Fld := ⟨0x9102c, [(0x40, 256)], 31, 0, .ro, 0, .w⟩
def OSC_AG_EIGFAIL : Fld := ⟨0x91030, [(0x40, 256)], 31, 0, .ro, 0, .w⟩

-- R233 (06_oscillation)
def CH_VALID : Fld := ⟨0xd20000, [(0x20, 4096)], 31, 31, .rwl, 0, .c⟩
def CH_ROLE : Fld := ⟨0xd20000, [(0x20, 4096)], 30, 30, .rwl, 0, .c⟩
def CH_KIND : Fld := ⟨0xd20000, [(0x20, 4096)], 29, 27, .rwl, 0, .c⟩
def CH_GROUP : Fld := ⟨0xd20000, [(0x20, 4096)], 23, 16, .rwl, 0, .c⟩
def CH_SID : Fld := ⟨0xd20000, [(0x20, 4096)], 14, 0, .rwl, 0, .c⟩
def CH_IDX_A : Fld := ⟨0xd20004, [(0x20, 4096)], 28, 24, .rwl, 0, .c⟩
def CH_IDX_B : Fld := ⟨0xd20004, [(0x20, 4096)], 20, 16, .rwl, 0, .c⟩
def CH_MULT3 : Fld := ⟨0xd20004, [(0x20, 4096)], 8, 8, .rwl, 0, .c⟩
def CH_NORM : Fld := ⟨0xd20008, [(0x20, 4096)], 31, 0, .rwl, 0, .c⟩
def CH_CHECK : Fld := ⟨0xd2001c, [(0x20, 4096)], 31, 0, .rwl, 0, .c⟩
def CH_ACTIVE : Fld := ⟨0xd2000c, [(0x20, 4096)], 31, 31, .ro, 0, .w⟩
def CH_STALE : Fld := ⟨0xd2000c, [(0x20, 4096)], 30, 30, .ro, 0, .w⟩
def CH_CH_SETTLING : Fld := ⟨0xd2000c, [(0x20, 4096)], 29, 29, .ro, 0, .w⟩
def CH_POS : Fld := ⟨0xd2000c, [(0x20, 4096)], 21, 16, .ro, 0, .w⟩
def CH_MEAN : Fld := ⟨0xd20010, [(0x20, 4096)], 31, 0, .ro, 0, .w⟩
def CH_RMS : Fld := ⟨0xd20014, [(0x20, 4096)], 31, 0, .ro, 0, .w⟩

-- R266 (06_oscillation)
def PAGE_WORD : Fld := ⟨0xd40000, [(0x2000, 256), (0x4, 2048)], 31, 0, .ro, 0, .w⟩

-- R259 (06_oscillation)
def BR_VALID : Fld := ⟨0xf40000, [(0x20, 2048)], 31, 31, .rwl, 0, .c⟩
def BR_SID : Fld := ⟨0xf40000, [(0x20, 2048)], 14, 0, .rwl, 0, .c⟩
def BR_V_IDX : Fld := ⟨0xf40004, [(0x20, 2048)], 28, 24, .rwl, 0, .c⟩
def BR_I_IDX : Fld := ⟨0xf40004, [(0x20, 2048)], 20, 16, .rwl, 0, .c⟩
def BR_MULT3 : Fld := ⟨0xf40004, [(0x20, 2048)], 8, 8, .rwl, 0, .c⟩
def BR_INVERT : Fld := ⟨0xf40004, [(0x20, 2048)], 0, 0, .rwl, 0, .c⟩
def BR_FROM_BUS : Fld := ⟨0xf40008, [(0x20, 2048)], 31, 16, .rwl, 0, .c⟩
def BR_TO_BUS : Fld := ⟨0xf40008, [(0x20, 2048)], 15, 0, .rwl, 0, .c⟩
def BR_CHECK : Fld := ⟨0xf4001c, [(0x20, 2048)], 31, 0, .rwl, 0, .c⟩

-- R262 (06_oscillation)
def BRRES_DEF : Fld := ⟨0xf50000, [(0x10, 2048)], 31, 0, .ro, 0, .w⟩
def BRRES_PAMP : Fld := ⟨0xf50004, [(0x10, 2048)], 31, 0, .ro, 0, .w⟩
def BRRES_RANK : Fld := ⟨0xf50008, [(0x10, 2048)], 31, 16, .ro, 0, .w⟩
def BRRES_RVALID : Fld := ⟨0xf50008, [(0x10, 2048)], 0, 0, .ro, 0, .w⟩
def BRRES_EPOCHS : Fld := ⟨0xf5000c, [(0x10, 2048)], 31, 0, .ro, 0, .w⟩
def BUS_VALID : Fld := ⟨0xf58000, [(0x8, 16)], 31, 31, .ro, 0, .w⟩
def BUS_LABEL : Fld := ⟨0xf58000, [(0x8, 16)], 15, 0, .ro, 0, .w⟩
def BUS_NET : Fld := ⟨0xf58004, [(0x8, 16)], 31, 0, .ro, 0, .w⟩

-- R307 (07_islanding_alarms)
def ISL_CTL_EN : Fld := ⟨0xa0000, [], 31, 31, .rwl, 0, .c⟩
def ISL_CTL_RND : Fld := ⟨0xa0000, [], 29, 24, .rwl, 0, .c⟩
def ISL_CTL_USE_TEST : Fld := ⟨0xa0000, [], 20, 20, .rwl, 0, .c⟩
def ISL_CTL_CONFIRM : Fld := ⟨0xa0000, [], 16, 16, .rw, 0, .c⟩
def ISL_CTL_GAP_MAX : Fld := ⟨0xa0000, [], 7, 0, .rwl, 4, .c⟩
def ISL_COH_FGT : Fld := ⟨0xa0004, [], 31, 28, .rwl, 0xc, .c⟩
def ISL_COH_RANK : Fld := ⟨0xa0004, [], 27, 24, .rwl, 8, .c⟩
def ISL_COH_MIN_SITES : Fld := ⟨0xa0004, [], 23, 16, .rw, 3, .c⟩
def ISL_COH_THR_ASSIGN_MIN : Fld := ⟨0xa0008, [], 31, 16, .rw, 0xcccd, .c⟩
def ISL_COH_THR_MERGE : Fld := ⟨0xa0008, [], 15, 0, .rw, 0xf333, .c⟩
def ISL_SEP_Q_PCT : Fld := ⟨0xa000c, [], 31, 24, .rw, 0x32, .c⟩
def ISL_SEP_DF_MHZ : Fld := ⟨0xa000c, [], 23, 12, .rw, 0x64, .c⟩
def ISL_SEP_DR : Fld := ⟨0xa000c, [], 11, 0, .rw, 0x64, .c⟩
def ISL_REJ_REJOIN_RI : Fld := ⟨0xa0010, [], 31, 16, .rw, 0x3c, .c⟩
def ISL_REJ_BKR_HOLD_RI : Fld := ⟨0xa0010, [], 15, 0, .rw, 0x3c, .c⟩
def ISL_STAT_STATE : Fld := ⟨0xa0014, [], 31, 28, .ro, 0, .w⟩
def ISL_STAT_FROZEN : Fld := ⟨0xa0014, [], 27, 27, .ro, 0, .w⟩
def ISL_STAT_GROUPS : Fld := ⟨0xa0014, [], 22, 16, .ro, 0, .w⟩
def ISL_STAT_ISLANDS : Fld := ⟨0xa0014, [], 15, 8, .ro, 0, .w⟩
def ISL_STAT_CFGERR : Fld := ⟨0xa0014, [], 7, 0, .ro, 0, .w⟩
def ISL_CLUST_COUNT : Fld := ⟨0xa0018, [], 31, 16, .ro, 0, .w⟩
def ISL_CLUST_SKIPPED : Fld := ⟨0xa0018, [], 15, 0, .ro, 0, .w⟩
def ISL_CLUST_SEC_SEC : Fld := ⟨0xa001c, [], 31, 0, .ro, 0, .w⟩
def ISL_GSEQ_SEQ : Fld := ⟨0xa0020, [], 31, 0, .ro, 0, .w⟩
def ISL_TESTED_COUNT : Fld := ⟨0xa0024, [], 31, 0, .ro, 0, .w⟩
def ISL_DECL_COUNT : Fld := ⟨0xa0028, [], 31, 0, .ro, 0, .w⟩
def ISL_DROPPED_COUNT : Fld := ⟨0xa002c, [], 31, 0, .ro, 0, .w⟩
def ISL_MISSED_COUNT : Fld := ⟨0xa0030, [], 31, 0, .ro, 0, .w⟩

-- R275 (07_islanding_alarms)
def SITE_VALID : Fld := ⟨0xfa8000, [(0x10, 4096)], 31, 31, .rwl, 0, .c⟩
def SITE_PIN : Fld := ⟨0xfa8000, [(0x10, 4096)], 30, 30, .rwl, 0, .c⟩
def SITE_PIN_CG : Fld := ⟨0xfa8000, [(0x10, 4096)], 29, 24, .rwl, 0, .c⟩
def SITE_SID : Fld := ⟨0xfa8000, [(0x10, 4096)], 14, 0, .rwl, 0, .c⟩
def SITE_CHECK : Fld := ⟨0xfa800c, [(0x10, 4096)], 31, 0, .rwl, 0, .c⟩
def SITE_ASSIGNED : Fld := ⟨0xfa8004, [(0x10, 4096)], 31, 31, .ro, 0, .w⟩
def SITE_PRESENT : Fld := ⟨0xfa8004, [(0x10, 4096)], 30, 30, .ro, 0, .w⟩
def SITE_STALE : Fld := ⟨0xfa8004, [(0x10, 4096)], 29, 29, .ro, 0, .w⟩
def SITE_CG : Fld := ⟨0xfa8004, [(0x10, 4096)], 21, 16, .ro, 0, .w⟩
def SITE_COS : Fld := ⟨0xfa8004, [(0x10, 4096)], 15, 0, .ro, 0, .w⟩

-- R284 (07_islanding_alarms)
def TIE_VALID : Fld := ⟨0xfb9000, [(0x10, 256)], 31, 31, .rwl, 0, .c⟩
def TIE_OPEN_IS_1 : Fld := ⟨0xfb9000, [(0x10, 256)], 30, 30, .rwl, 0, .c⟩
def TIE_WORD : Fld := ⟨0xfb9000, [(0x10, 256)], 22, 20, .rwl, 0, .c⟩
def TIE_BIT : Fld := ⟨0xfb9000, [(0x10, 256)], 19, 16, .rwl, 0, .c⟩
def TIE_SID : Fld := ⟨0xfb9000, [(0x10, 256)], 14, 0, .rwl, 0, .c⟩
def TIE_SITE_A : Fld := ⟨0xfb9004, [(0x10, 256)], 27, 16, .rwl, 0, .c⟩
def TIE_SITE_B : Fld := ⟨0xfb9004, [(0x10, 256)], 11, 0, .rwl, 0, .c⟩
def TIE_CHECK : Fld := ⟨0xfb900c, [(0x10, 256)], 31, 0, .rwl, 0, .c⟩
def TIE_AGE_RI : Fld := ⟨0xfb9008, [(0x10, 256)], 31, 16, .ro, 0, .w⟩
def TIE_STATUS : Fld := ⟨0xfb9008, [(0x10, 256)], 1, 0, .ro, 0, .w⟩

-- R288 (07_islanding_alarms)
def CG_VALID : Fld := ⟨0xfb8000, [(0x40, 64)], 31, 31, .ro, 0, .w⟩
def CG_STATE : Fld := ⟨0xfb8000, [(0x40, 64)], 30, 28, .ro, 0, .w⟩
def CG_CONFIRMED : Fld := ⟨0xfb8000, [(0x40, 64)], 27, 27, .ro, 0, .w⟩
def CG_BKR_OPEN : Fld := ⟨0xfb8000, [(0x40, 64)], 26, 26, .ro, 0, .w⟩
def CG_PINNED : Fld := ⟨0xfb8000, [(0x40, 64)], 25, 25, .ro, 0, .w⟩
def CG_SITES : Fld := ⟨0xfb8000, [(0x40, 64)], 12, 0, .ro, 0, .w⟩
def CG_PRESENT : Fld := ⟨0xfb8004, [(0x40, 64)], 28, 16, .ro, 0, .w⟩
def CG_TIES : Fld := ⟨0xfb8004, [(0x40, 64)], 8, 0, .ro, 0, .w⟩
def CG_COUNT : Fld := ⟨0xfb8008, [(0x40, 64)], 31, 16, .ro, 0, .w⟩
def CG_TIES_OPEN : Fld := ⟨0xfb8008, [(0x40, 64)], 8, 0, .ro, 0, .w⟩
def CG_F : Fld := ⟨0xfb800c, [(0x40, 64)], 31, 0, .ro, 0, .w⟩
def CG_R : Fld := ⟨0xfb8010, [(0x40, 64)], 31, 0, .ro, 0, .w⟩
def CG_DF : Fld := ⟨0xfb8014, [(0x40, 64)], 31, 0, .ro, 0, .w⟩
def CG_DR : Fld := ⟨0xfb8018, [(0x40, 64)], 31, 0, .ro, 0, .w⟩
def CG_SINCE_SEC : Fld := ⟨0xfb801c, [(0x40, 64)], 31, 0, .ro, 0, .w⟩
def CG_SINCE_NS : Fld := ⟨0xfb8020, [(0x40, 64)], 29, 0, .ro, 0, .w⟩

-- R309 (07_islanding_alarms)
def ALM_CTL_EN : Fld := ⟨0xb0000, [], 31, 31, .rwl, 0, .c⟩
def ALM_ACK_STATUS : Fld := ⟨0xb0004, [], 31, 30, .ro, 0, .w⟩
def ALM_ACK_AM : Fld := ⟨0xb0004, [], 9, 0, .wo, 0, .w⟩
def ALM_STD_ACTIVE : Fld := ⟨0xb0008, [], 15, 0, .ro, 0, .w⟩
def ALM_RECSEQ_COUNT : Fld := ⟨0xb000c, [], 31, 0, .ro, 0, .w⟩
def ALM_WORD_BITS : Fld := ⟨0xb0010, [(0x4, 16)], 15, 0, .ro, 0, .w⟩
def ALM_STD_MAP_EN : Fld := ⟨0xb0060, [(0x4, 16)], 31, 31, .rw, 0, .c⟩
def ALM_STD_MAP_BIT : Fld := ⟨0xb0060, [(0x4, 16)], 7, 0, .rw, 0, .c⟩
def ALM_PIN_EN : Fld := ⟨0xb0100, [(0x4, 8)], 31, 31, .rwl, 0, .c⟩
def ALM_PIN_POL : Fld := ⟨0xb0100, [(0x4, 8)], 30, 30, .rwl, 1, .c⟩
def ALM_PIN_TEST : Fld := ⟨0xb0100, [(0x4, 8)], 29, 29, .rwl, 0, .c⟩
def ALM_PIN_MINW_MS : Fld := ⟨0xb0100, [(0x4, 8)], 23, 16, .rwl, 0, .c⟩
def ALM_PIN_BIT : Fld := ⟨0xb0100, [(0x4, 8)], 7, 0, .rwl, 0, .c⟩
def ALM_PIN_STAT_OE : Fld := ⟨0xb0120, [], 8, 8, .ro, 0, .w⟩
def ALM_PIN_STAT_ACTIVE : Fld := ⟨0xb0120, [], 7, 0, .ro, 0, .w⟩
def ALM_OVL_EN : Fld := ⟨0xb0200, [(0x4, 64)], 31, 31, .rwl, 0, .c⟩
def ALM_OVL_WORD : Fld := ⟨0xb0200, [(0x4, 64)], 26, 24, .rwl, 0, .c⟩
def ALM_OVL_COUNT : Fld := ⟨0xb0200, [(0x4, 64)], 23, 20, .rwl, 1, .c⟩
def ALM_OVL_AW : Fld := ⟨0xb0200, [(0x4, 64)], 19, 16, .rwl, 0, .c⟩
def ALM_OVL_SID : Fld := ⟨0xb0200, [(0x4, 64)], 14, 0, .rwl, 0, .c⟩

-- R310 (07_islanding_alarms)
def ALM_PUB_CFG_EN : Fld := ⟨0xb1000, [(0x100, 16)], 31, 31, .rwl, 0, .c⟩
def ALM_PUB_CFG_RGOOSE : Fld := ⟨0xb1000, [(0x100, 16)], 30, 30, .rwl, 0, .c⟩
def ALM_PUB_CFG_PORTS : Fld := ⟨0xb1000, [(0x100, 16)], 29, 26, .rwl, 0, .c⟩
def ALM_PUB_CFG_ALG : Fld := ⟨0xb1000, [(0x100, 16)], 25, 24, .rwl, 0, .c⟩
def ALM_PUB_CFG_QUAL : Fld := ⟨0xb1000, [(0x100, 16)], 23, 23, .rwl, 0, .c⟩
def ALM_PUB_CFG_APPID : Fld := ⟨0xb1000, [(0x100, 16)], 15, 0, .rwl, 0, .c⟩
def ALM_PUB_RANGE_FIRST : Fld := ⟨0xb1004, [(0x100, 16)], 31, 24, .rwl, 0, .c⟩
def ALM_PUB_RANGE_COUNT : Fld := ⟨0xb1004, [(0x100, 16)], 8, 0, .rwl, 1, .c⟩
def ALM_PUB_VLAN_TAGGED : Fld := ⟨0xb1008, [(0x100, 16)], 12, 12, .rwl, 1, .c⟩
def ALM_PUB_VLAN_VID : Fld := ⟨0xb1008, [(0x100, 16)], 11, 0, .rwl, 0, .c⟩
def ALM_PUB_DMAC_LO_ADDR : Fld := ⟨0xb100c, [(0x100, 16)], 31, 0, .rwl, 0, .c⟩
def ALM_PUB_DMAC_HI_ADDR : Fld := ⟨0xb1010, [(0x100, 16)], 15, 0, .rwl, 0, .c⟩
def ALM_PUB_CONFREV_REV : Fld := ⟨0xb1014, [(0x100, 16)], 31, 0, .rwl, 1, .c⟩
def ALM_PUB_TIMING_T0_MS : Fld := ⟨0xb1018, [(0x100, 16)], 31, 16, .rwl, 0x3e8, .c⟩
def ALM_PUB_TIMING_TMIN_MS : Fld := ⟨0xb1018, [(0x100, 16)], 15, 0, .rwl, 4, .c⟩
def ALM_PUB_KEYID_ID : Fld := ⟨0xb101c, [(0x100, 16)], 31, 0, .rwl, 0, .c⟩
def ALM_PUB_DIP_ADDR : Fld := ⟨0xb1020, [(0x100, 16), (0x4, 4)], 31, 0, .rwl, 0, .c⟩
def ALM_PUB_DIPV6_REFUSED : Fld := ⟨0xb1030, [(0x100, 16)], 31, 16, .ro, 0, .w⟩
def ALM_PUB_DIPV6_V6 : Fld := ⟨0xb1030, [(0x100, 16)], 0, 0, .rwl, 0, .c⟩
def ALM_PUB_STNUM : Fld := ⟨0xb1034, [(0x100, 16)], 31, 0, .ro, 1, .c⟩
def ALM_PUB_SQNUM : Fld := ⟨0xb1038, [(0x100, 16)], 31, 0, .ro, 0, .w⟩
def ALM_PUB_SENT : Fld := ⟨0xb103c, [(0x100, 16)], 31, 0, .ro, 0, .w⟩
def ALM_PUB_GOID : Fld := ⟨0xb1040, [(0x100, 16), (0x4, 16)], 31, 0, .rwl, 0, .c⟩
def ALM_PUB_GOCBREF : Fld := ⟨0xb1080, [(0x100, 16), (0x4, 16)], 31, 0, .rwl, 0, .c⟩
def ALM_PUB_DATSET : Fld := ⟨0xb10c0, [(0x100, 16), (0x4, 16)], 31, 0, .rwl, 0, .c⟩

-- R290 (07_islanding_alarms)
def AM_VALID : Fld := ⟨0xf60000, [(0x100, 1024)], 31, 31, .rwl, 0, .c⟩
def AM_RND : Fld := ⟨0xf60000, [(0x100, 1024)], 29, 24, .rwl, 0, .c⟩
def AM_AW_BASE : Fld := ⟨0xf60000, [(0x100, 1024)], 23, 16, .rwl, 0, .c⟩
def AM_AW_MASK : Fld := ⟨0xf60000, [(0x100, 1024)], 15, 8, .rwl, 0, .c⟩
def AM_CHECK : Fld := ⟨0xf6000c, [(0x100, 1024)], 31, 0, .rwl, 0, .c⟩
def AM_IN_SRC : Fld := ⟨0xf60010, [(0x100, 1024), (0xc, 4)], 31, 28, .rwl, 0, .c⟩
def AM_IN_CMP : Fld := ⟨0xf60010, [(0x100, 1024), (0xc, 4)], 27, 26, .rwl, 0, .c⟩
def AM_IN_UNK : Fld := ⟨0xf60010, [(0x100, 1024), (0xc, 4)], 25, 24, .rwl, 0, .c⟩
def AM_IN_SEL : Fld := ⟨0xf60010, [(0x100, 1024), (0xc, 4)], 23, 0, .rwl, 0, .c⟩
def AM_IN_SET : Fld := ⟨0xf60014, [(0x100, 1024), (0xc, 4)], 31, 0, .rwl, 0, .c⟩
def AM_IN_CLR : Fld := ⟨0xf60018, [(0x100, 1024), (0xc, 4)], 31, 0, .rwl, 0, .c⟩
def AM_ST_OUT : Fld := ⟨0xf60040, [(0x100, 1024), (0x8, 8)], 31, 24, .rwl, 0, .c⟩
def AM_ST_SEV : Fld := ⟨0xf60040, [(0x100, 1024), (0x8, 8)], 23, 22, .rwl, 0, .c⟩
def AM_ST_LATCH : Fld := ⟨0xf60040, [(0x100, 1024), (0x8, 8)], 21, 21, .rwl, 0, .c⟩
def AM_ST_ACK_NEXT : Fld := ⟨0xf60040, [(0x100, 1024), (0x8, 8)], 20, 18, .rwl, 0, .c⟩
def AM_ST_DWELL_MS : Fld := ⟨0xf60044, [(0x100, 1024), (0x8, 8)], 31, 0, .rwl, 0, .c⟩
def AM_NEXT0 : Fld := ⟨0xf60080, [(0x100, 1024), (0x4, 32)], 3, 0, .rwl, 0, .c⟩
def AM_NEXT1 : Fld := ⟨0xf60080, [(0x100, 1024), (0x4, 32)], 11, 8, .rwl, 0, .c⟩
def AM_NEXT2 : Fld := ⟨0xf60080, [(0x100, 1024), (0x4, 32)], 19, 16, .rwl, 0, .c⟩
def AM_NEXT3 : Fld := ⟨0xf60080, [(0x100, 1024), (0x4, 32)], 27, 24, .rwl, 0, .c⟩

-- R311 (07_islanding_alarms)
def AMR_RUN : Fld := ⟨0xfa0000, [(0x20, 1024)], 31, 31, .ro, 0, .w⟩
def AMR_INHIBIT : Fld := ⟨0xfa0000, [(0x20, 1024)], 30, 30, .rw, 0, .c⟩
def AMR_ACK_PEND : Fld := ⟨0xfa0000, [(0x20, 1024)], 29, 29, .ro, 0, .w⟩
def AMR_TEST_ENTRY : Fld := ⟨0xfa0000, [(0x20, 1024)], 28, 28, .ro, 0, .c⟩
def AMR_STATE : Fld := ⟨0xfa0000, [(0x20, 1024)], 26, 24, .ro, 0, .c⟩
def AMR_OUT : Fld := ⟨0xfa0000, [(0x20, 1024)], 23, 16, .ro, 0, .c⟩
def AMR_INPUTS : Fld := ⟨0xfa0000, [(0x20, 1024)], 11, 8, .ro, 0, .w⟩
def AMR_UNKNOWN : Fld := ⟨0xfa0000, [(0x20, 1024)], 7, 4, .ro, 0, .w⟩
def AMR_ENTRY_SEC : Fld := ⟨0xfa0004, [(0x20, 1024)], 31, 0, .ro, 0, .c⟩
def AMR_ENTRY_NS : Fld := ⟨0xfa0008, [(0x20, 1024)], 29, 0, .ro, 0, .c⟩
def AMR_STEPS : Fld := ⟨0xfa000c, [(0x20, 1024)], 31, 0, .ro, 0, .w⟩
def AMR_CHANGES : Fld := ⟨0xfa0010, [(0x20, 1024)], 31, 0, .ro, 0, .c⟩

-- R341 (08_local_acquisition)
def ACQ_CAL_COMMIT : Fld := ⟨0xc0000, [], 31, 31, .wo, 0, .w⟩
def ACQ_CAL_STATUS : Fld := ⟨0xc0000, [], 29, 28, .ro, 0, .w⟩
def ACQ_CAL_XF : Fld := ⟨0xc0000, [], 12, 0, .rw, 0x100, .c⟩

-- R342 (08_local_acquisition)
def ACQ_PT_CFG_EN : Fld := ⟨0xc0100, [(0x100, 2)], 31, 31, .rwl, 0, .c⟩
def ACQ_PT_CFG_PRESET : Fld := ⟨0xc0100, [(0x100, 2)], 30, 28, .rwl, 1, .c⟩
def ACQ_PT_CFG_FNOM50 : Fld := ⟨0xc0100, [(0x100, 2)], 27, 27, .rwl, 0, .c⟩
def ACQ_PT_CFG_EDGE : Fld := ⟨0xc0100, [(0x100, 2)], 26, 26, .rwl, 0, .c⟩
def ACQ_PT_CFG_DLY_NS : Fld := ⟨0xc0100, [(0x100, 2)], 20, 16, .rwl, 0, .c⟩
def ACQ_PT_SPL_GANG : Fld := ⟨0xc0104, [(0x100, 2)], 31, 31, .rw, 1, .c⟩
def ACQ_PT_SPL_FORCE : Fld := ⟨0xc0104, [(0x100, 2)], 29, 28, .rw, 0, .c⟩
def ACQ_PT_SPL_UP : Fld := ⟨0xc0104, [(0x100, 2)], 23, 16, .rw, 0xc0, .c⟩
def ACQ_PT_SPL_DOWN : Fld := ⟨0xc0104, [(0x100, 2)], 15, 8, .rw, 0x40, .c⟩
def ACQ_PT_SPL_HOLD_CYC : Fld := ⟨0xc0104, [(0x100, 2)], 7, 4, .rw, 4, .c⟩
def ACQ_PT_SPL_SPL : Fld := ⟨0xc0104, [(0x100, 2)], 3, 0, .rw, 4, .c⟩
def ACQ_PT_STAT_RUNNING : Fld := ⟨0xc0108, [(0x100, 2)], 31, 31, .ro, 0, .w⟩
def ACQ_PT_STAT_FADING : Fld := ⟨0xc0108, [(0x100, 2)], 30, 30, .ro, 0, .w⟩
def ACQ_PT_STAT_TAU_CLAMP : Fld := ⟨0xc0108, [(0x100, 2)], 29, 29, .ro, 0, .w⟩
def ACQ_PT_STAT_PATH_L : Fld := ⟨0xc0108, [(0x100, 2)], 26, 24, .ro, 0, .w⟩
def ACQ_PT_STAT_FAULT : Fld := ⟨0xc0108, [(0x100, 2)], 17, 9, .ro, 0, .w⟩
def ACQ_PT_STAT_OVR : Fld := ⟨0xc0108, [(0x100, 2)], 8, 0, .ro, 0, .w⟩
def ACQ_PT_OVR_THR : Fld := ⟨0xc010c, [(0x100, 2)], 15, 0, .rw, 0xd99a, .c⟩
def ACQ_PT_SPLICES_UP : Fld := ⟨0xc0110, [(0x100, 2)], 31, 16, .ro, 0, .w⟩
def ACQ_PT_SPLICES_DOWN : Fld := ⟨0xc0110, [(0x100, 2)], 15, 0, .ro, 0, .w⟩
def ACQ_PT_OVR_CNT : Fld := ⟨0xc0114, [(0x100, 2)], 31, 0, .ro, 0, .w⟩
def ACQ_PT_FAULTS : Fld := ⟨0xc0118, [(0x100, 2)], 31, 0, .ro, 0, .w⟩

-- R343 (08_local_acquisition)
def ACQ_LS_CFG_EN : Fld := ⟨0xc0300, [(0x10, 8)], 31, 31, .rwl, 0, .c⟩
def ACQ_LS_CFG_CLASS : Fld := ⟨0xc0300, [(0x10, 8)], 30, 30, .rwl, 0, .c⟩
def ACQ_LS_CFG_RATE : Fld := ⟨0xc0300, [(0x10, 8)], 27, 24, .rwl, 7, .c⟩
def ACQ_LS_CFG_PMU_IDCODE : Fld := ⟨0xc0300, [(0x10, 8)], 15, 0, .rwl, 0, .c⟩
def ACQ_LS_STAT_LIVE : Fld := ⟨0xc0304, [(0x10, 8)], 31, 31, .ro, 0, .w⟩
def ACQ_LS_STAT_CFGERR : Fld := ⟨0xc0304, [(0x10, 8)], 26, 24, .ro, 0, .w⟩
def ACQ_LS_STAT_CFGCNT : Fld := ⟨0xc0304, [(0x10, 8)], 15, 0, .ro, 0, .c⟩
def ACQ_LS_LETTERS : Fld := ⟨0xc0308, [(0x10, 8)], 31, 0, .ro, 0, .w⟩
def ACQ_LS_INVALID : Fld := ⟨0xc030c, [(0x10, 8)], 31, 0, .ro, 0, .w⟩

-- R344 (08_local_acquisition)
def ACQ_SV_CFG_EN : Fld := ⟨0xc0400, [(0x40, 4)], 31, 31, .rwl, 0, .c⟩
def ACQ_SV_CFG_SR : Fld := ⟨0xc0400, [(0x40, 4)], 30, 30, .rwl, 0, .c⟩
def ACQ_SV_CFG_FNOM50 : Fld := ⟨0xc0400, [(0x40, 4)], 29, 29, .rwl, 0, .c⟩
def ACQ_SV_CFG_PORTS : Fld := ⟨0xc0400, [(0x40, 4)], 27, 24, .rwl, 0, .c⟩
def ACQ_SV_CFG_APPID : Fld := ⟨0xc0400, [(0x40, 4)], 15, 0, .rwl, 0, .c⟩
def ACQ_SV_CFG_WAIT_US : Fld := ⟨0xc0404, [(0x40, 4)], 15, 0, .rwl, 0x7d0, .c⟩
def ACQ_SV_STAT_RECEIVING : Fld := ⟨0xc0428, [(0x40, 4)], 31, 31, .ro, 0, .w⟩
def ACQ_SV_STAT_SYNCED : Fld := ⟨0xc0428, [(0x40, 4)], 30, 30, .ro, 0, .w⟩
def ACQ_SV_INTERP : Fld := ⟨0xc042c, [(0x40, 4)], 31, 0, .ro, 0, .w⟩
def ACQ_SV_BAD : Fld := ⟨0xc0430, [(0x40, 4)], 31, 0, .ro, 0, .w⟩
def ACQ_SV_SVID : Fld := ⟨0xc0408, [(0x40, 4), (0x4, 8)], 31, 0, .rwl, 0, .c⟩

-- R323 (08_local_acquisition)
def CURVE_VALID : Fld := ⟨0xfc0000, [(0x80, 18)], 31, 31, .ro, 0, .c⟩
def CURVE_NPTS : Fld := ⟨0xfc0000, [(0x80, 18)], 3, 0, .ro, 0, .c⟩
def CURVE_OFFSET : Fld := ⟨0xfc0004, [(0x80, 18)], 31, 0, .ro, 0, .c⟩
def CURVE_GAIN0 : Fld := ⟨0xfc0008, [(0x80, 18)], 31, 0, .ro, 0, .c⟩
def CURVE_DELAY_NS : Fld := ⟨0xfc000c, [(0x80, 18)], 31, 0, .ro, 0, .c⟩
def CURVE_CHECK : Fld := ⟨0xfc007c, [(0x80, 18)], 31, 0, .ro, 0, .c⟩
def CURVE_AMP : Fld := ⟨0xfc0010, [(0x80, 18), (0xc, 8)], 31, 0, .ro, 0, .c⟩
def CURVE_GRATIO : Fld := ⟨0xfc0014, [(0x80, 18), (0xc, 8)], 31, 0, .ro, 0, .c⟩
def CURVE_PHASE : Fld := ⟨0xfc0018, [(0x80, 18), (0xc, 8)], 31, 0, .ro, 0, .c⟩
def SCURVE_VALID : Fld := ⟨0xfc1000, [(0x80, 18)], 31, 31, .rw, 0, .c⟩
def SCURVE_NPTS : Fld := ⟨0xfc1000, [(0x80, 18)], 3, 0, .rw, 0, .c⟩
def SCURVE_OFFSET : Fld := ⟨0xfc1004, [(0x80, 18)], 31, 0, .rw, 0, .c⟩
def SCURVE_GAIN0 : Fld := ⟨0xfc1008, [(0x80, 18)], 31, 0, .rw, 0, .c⟩
def SCURVE_DELAY_NS : Fld := ⟨0xfc100c, [(0x80, 18)], 31, 0, .rw, 0, .c⟩
def SCURVE_CHECK : Fld := ⟨0xfc107c, [(0x80, 18)], 31, 0, .rw, 0, .c⟩
def SCURVE_AMP : Fld := ⟨0xfc1010, [(0x80, 18), (0xc, 8)], 31, 0, .rw, 0, .c⟩
def SCURVE_GRATIO : Fld := ⟨0xfc1014, [(0x80, 18), (0xc, 8)], 31, 0, .rw, 0, .c⟩
def SCURVE_PHASE : Fld := ⟨0xfc1018, [(0x80, 18), (0xc, 8)], 31, 0, .rw, 0, .c⟩

-- R369 (09_energy_quality)
def NRG_CTL_TESTREG : Fld := ⟨0xd0000, [], 30, 30, .rw, 1, .c⟩
def NRG_CTL_INT_S : Fld := ⟨0xd0000, [], 16, 0, .rwl, 0x384, .c⟩
def NRG_SNAP_STATUS : Fld := ⟨0xd0004, [], 9, 8, .ro, 0, .w⟩
def NRG_SNAP_GO : Fld := ⟨0xd0004, [], 0, 0, .wo, 0, .w⟩

-- R370 (09_energy_quality)
def NRG_PT_UDIN : Fld := ⟨0xd0100, [(0x200, 2)], 31, 0, .rw, 0, .c⟩
def NRG_PT_CREEP : Fld := ⟨0xd0104, [(0x200, 2)], 31, 0, .rw, 0x47c35000, .c⟩
def NRG_PT_THR_SAG_PCT : Fld := ⟨0xd0108, [(0x200, 2)], 31, 24, .rw, 0x5a, .c⟩
def NRG_PT_THR_SWELL_PCT : Fld := ⟨0xd0108, [(0x200, 2)], 23, 16, .rw, 0x6e, .c⟩
def NRG_PT_THR_INT_PCT : Fld := ⟨0xd0108, [(0x200, 2)], 15, 8, .rw, 5, .c⟩
def NRG_PT_THR_HYST : Fld := ⟨0xd0108, [(0x200, 2)], 7, 0, .rw, 0x14, .c⟩
def NRG_PT_DIR_ADIR : Fld := ⟨0xd010c, [(0x200, 2)], 31, 31, .ro, 0, .k⟩
def NRG_PT_DIR_RDIR : Fld := ⟨0xd010c, [(0x200, 2)], 30, 30, .ro, 0, .k⟩
def NRG_PT_DIR_NOLOAD : Fld := ⟨0xd010c, [(0x200, 2)], 29, 29, .ro, 1, .w⟩
def NRG_PT_DIR_INTR : Fld := ⟨0xd010c, [(0x200, 2)], 18, 18, .ro, 0, .w⟩
def NRG_PT_DIR_SWELL : Fld := ⟨0xd010c, [(0x200, 2)], 17, 17, .ro, 0, .w⟩
def NRG_PT_DIR_SAG : Fld := ⟨0xd010c, [(0x200, 2)], 16, 16, .ro, 0, .w⟩
def NRG_PT_STAT_METERING : Fld := ⟨0xd0110, [(0x200, 2)], 31, 31, .ro, 0, .w⟩
def NRG_PT_STAT_TESTSET : Fld := ⟨0xd0110, [(0x200, 2)], 30, 30, .ro, 0, .w⟩
def NRG_PT_SNAP_SEC : Fld := ⟨0xd0114, [(0x200, 2)], 31, 0, .ro, 0, .w⟩
def NRG_PT_SNAP_NS : Fld := ⟨0xd0118, [(0x200, 2)], 29, 0, .ro, 0, .w⟩
def NRG_PT_PRE_IDX_GO : Fld := ⟨0xd011c, [(0x200, 2)], 31, 31, .wo, 0, .w⟩
def NRG_PT_PRE_IDX_STATUS : Fld := ⟨0xd011c, [(0x200, 2)], 30, 29, .ro, 0, .w⟩
def NRG_PT_PRE_IDX_IDX : Fld := ⟨0xd011c, [(0x200, 2)], 4, 0, .rw, 0, .w⟩
def NRG_PT_PRE_VAL : Fld := ⟨0xd0120, [(0x200, 2), (0x4, 2)], 31, 0, .rw, 0, .w⟩
def NRG_PT_AVG : Fld := ⟨0xd0128, [(0x200, 2), (0x4, 6)], 31, 0, .ro, 0, .w⟩
def NRG_PT_SNAP : Fld := ⟨0xd0140, [(0x200, 2), (0x8, 16), (0x4, 2)], 31, 0, .ro, 0, .w⟩
def NRG_PT_WRAP_WRAP : Fld := ⟨0xd01c0, [(0x200, 2), (0x4, 16)], 31, 31, .w1c, 0, .k⟩
def NRG_PT_WRAP_WRAPS : Fld := ⟨0xd01c0, [(0x200, 2), (0x4, 16)], 15, 0, .ro, 0, .k⟩
def NRG_PT_TSNAP : Fld := ⟨0xd0200, [(0x200, 2), (0x8, 16), (0x4, 2)], 31, 0, .ro, 0, .w⟩
def NRG_PT_SAGS : Fld := ⟨0xd0280, [(0x200, 2)], 31, 0, .ro, 0, .c⟩
def NRG_PT_SWELLS : Fld := ⟨0xd0284, [(0x200, 2)], 31, 0, .ro, 0, .c⟩
def NRG_PT_INTRS : Fld := ⟨0xd0288, [(0x200, 2)], 31, 0, .ro, 0, .c⟩
def NRG_PT_MISSING_Q : Fld := ⟨0xd028c, [(0x200, 2)], 31, 0, .ro, 0, .c⟩
def NRG_PT_RECSEQ : Fld := ⟨0xd0290, [(0x200, 2)], 31, 0, .ro, 0, .k⟩

-- R359 (09_energy_quality)
def NRG_HIST : Fld := ⟨0xfd0000, [(0x1000, 2), (0xc0, 16), (0x4, 48)], 31, 0, .ro, 0, .c⟩

-- R398 (10_capture_compression)
def CAP_CTL_EN : Fld := ⟨0xe0000, [], 31, 31, .rwl, 0, .c⟩
def CAP_XTRG_ARM_LINE : Fld := ⟨0xe0004, [], 31, 31, .ro, 0, .w⟩
def CAP_XTRG_FIRE_LINE : Fld := ⟨0xe0004, [], 30, 30, .ro, 0, .w⟩
def CAP_XTRG_SYNC_LINE : Fld := ⟨0xe0004, [], 29, 29, .ro, 0, .w⟩
def CAP_XTRG_FIRE_W_US : Fld := ⟨0xe0004, [], 15, 8, .rw, 0xa, .c⟩
def CAP_XTRG_SYNC_GO : Fld := ⟨0xe0004, [], 0, 0, .wo, 0, .w⟩
def CAP_STAT_SEGS : Fld := ⟨0xe0008, [], 28, 16, .ro, 0, .w⟩
def CAP_STAT_FREE : Fld := ⟨0xe0008, [], 12, 0, .ro, 0, .w⟩
def CAP_MEM_MIB : Fld := ⟨0xe000c, [], 15, 0, .ro, 0, .c⟩
def CAP_REC_COUNT : Fld := ⟨0xe0010, [], 31, 0, .ro, 0, .w⟩

-- R399 (10_capture_compression)
def CAP_U_CFG_EN : Fld := ⟨0xe1000, [(0x80, 32)], 31, 31, .rwl, 0, .c⟩
def CAP_U_CFG_SRCK : Fld := ⟨0xe1000, [(0x80, 32)], 30, 30, .rwl, 0, .c⟩
def CAP_U_CFG_RND : Fld := ⟨0xe1000, [(0x80, 32)], 29, 24, .rwl, 0, .c⟩
def CAP_U_CFG_PT : Fld := ⟨0xe1000, [(0x80, 32)], 22, 22, .rwl, 0, .c⟩
def CAP_U_CFG_NCH : Fld := ⟨0xe1000, [(0x80, 32)], 19, 16, .rwl, 1, .c⟩
def CAP_U_CFG_KEEP : Fld := ⟨0xe1000, [(0x80, 32)], 15, 15, .rwl, 0, .c⟩
def CAP_U_CFG_OVF : Fld := ⟨0xe1000, [(0x80, 32)], 14, 14, .rwl, 0, .c⟩
def CAP_U_CFG_CMP : Fld := ⟨0xe1000, [(0x80, 32)], 13, 13, .rwl, 0, .c⟩
def CAP_U_CFG_CPRED : Fld := ⟨0xe1000, [(0x80, 32)], 12, 11, .rwl, 1, .c⟩
def CAP_U_CFG_PREFULL : Fld := ⟨0xe1000, [(0x80, 32)], 10, 10, .rwl, 0, .c⟩
def CAP_U_CFG_USE_TEST : Fld := ⟨0xe1000, [(0x80, 32)], 9, 9, .rwl, 0, .c⟩
def CAP_U_CFG_XARM : Fld := ⟨0xe1000, [(0x80, 32)], 8, 8, .rwl, 0, .c⟩
def CAP_U_CFG_XOUT : Fld := ⟨0xe1000, [(0x80, 32)], 7, 7, .rwl, 0, .c⟩
def CAP_U_CFG_XIN : Fld := ⟨0xe1000, [(0x80, 32)], 6, 6, .rwl, 0, .c⟩
def CAP_U_CFG_XSYNC : Fld := ⟨0xe1000, [(0x80, 32)], 5, 5, .rwl, 0, .c⟩
def CAP_U_CFG_TTYPE : Fld := ⟨0xe1000, [(0x80, 32)], 2, 0, .rwl, 5, .c⟩
def CAP_U_TRIG_POL : Fld := ⟨0xe1004, [(0x80, 32)], 31, 31, .rwl, 1, .c⟩
def CAP_U_TRIG_SPAN : Fld := ⟨0xe1004, [(0x80, 32)], 15, 0, .rwl, 1, .c⟩
def CAP_U_LEVEL_A : Fld := ⟨0xe1008, [(0x80, 32)], 31, 0, .rwl, 0, .c⟩
def CAP_U_LEVEL_B : Fld := ⟨0xe100c, [(0x80, 32)], 31, 0, .rwl, 0, .c⟩
def CAP_U_HYST : Fld := ⟨0xe1010, [(0x80, 32)], 31, 0, .rwl, 0, .c⟩
def CAP_U_TMIN_US : Fld := ⟨0xe1014, [(0x80, 32)], 31, 0, .rwl, 0, .c⟩
def CAP_U_TMAX_US : Fld := ⟨0xe1018, [(0x80, 32)], 31, 0, .rwl, 0xffffffff, .c⟩
def CAP_U_SLEW : Fld := ⟨0xe101c, [(0x80, 32)], 31, 0, .rwl, 0, .c⟩
def CAP_U_WIN_PRE : Fld := ⟨0xe1020, [(0x80, 32)], 31, 16, .rwl, 0, .c⟩
def CAP_U_WIN_POST : Fld := ⟨0xe1020, [(0x80, 32)], 15, 0, .rwl, 0, .c⟩
def CAP_U_SEGS_SEGS : Fld := ⟨0xe1024, [(0x80, 32)], 28, 16, .rwl, 0, .c⟩
def CAP_U_SEGS_HOLD_US : Fld := ⟨0xe1024, [(0x80, 32)], 15, 0, .rwl, 0, .c⟩
def CAP_U_CH : Fld := ⟨0xe1028, [(0x80, 32), (0x4, 8)], 31, 0, .rwl, 0, .c⟩
def CAP_U_STAT_STATE : Fld := ⟨0xe1048, [(0x80, 32)], 31, 29, .ro, 0, .w⟩
def CAP_U_STAT_CFGERR : Fld := ⟨0xe1048, [(0x80, 32)], 23, 16, .ro, 0, .w⟩
def CAP_U_STAT_FREE : Fld := ⟨0xe1048, [(0x80, 32)], 12, 0, .ro, 0, .w⟩
def CAP_U_SEQ : Fld := ⟨0xe104c, [(0x80, 32)], 31, 0, .ro, 0, .c⟩
def CAP_U_ACK_SEQ : Fld := ⟨0xe1050, [(0x80, 32)], 31, 0, .wo, 0, .w⟩
def CAP_U_ARM_FORCE : Fld := ⟨0xe1054, [(0x80, 32)], 1, 1, .wo, 0, .w⟩
def CAP_U_ARM_ARM : Fld := ⟨0xe1054, [(0x80, 32)], 0, 0, .wo, 0, .w⟩
def CAP_U_RECORDS : Fld := ⟨0xe1058, [(0x80, 32)], 31, 0, .ro, 0, .w⟩
def CAP_U_LOST : Fld := ⟨0xe105c, [(0x80, 32)], 31, 0, .ro, 0, .w⟩
def CAP_U_RETRIG : Fld := ⟨0xe1060, [(0x80, 32)], 31, 0, .ro, 0, .w⟩
def CAP_U_NOT_READY : Fld := ⟨0xe1064, [(0x80, 32)], 31, 0, .ro, 0, .w⟩
def CAP_U_OVERWRITTEN : Fld := ⟨0xe1068, [(0x80, 32)], 31, 0, .ro, 0, .w⟩

-- R401 (10_capture_compression)
def CMP_CTL_EN : Fld := ⟨0xf0000, [], 31, 31, .rw, 1, .c⟩
def CMP_STAT_BUSY : Fld := ⟨0xf0004, [], 31, 31, .ro, 0, .w⟩
def CMP_STAT_QUEUED : Fld := ⟨0xf0004, [], 7, 0, .ro, 0, .w⟩
def CMP_IN : Fld := ⟨0xf0008, [(0x4, 2)], 31, 0, .ro, 0, .w⟩
def CMP_OUT : Fld := ⟨0xf0010, [(0x4, 2)], 31, 0, .ro, 0, .w⟩
def CMP_BLOCKS : Fld := ⟨0xf0018, [], 31, 0, .ro, 0, .w⟩
def CMP_STORED : Fld := ⟨0xf001c, [], 31, 0, .ro, 0, .w⟩
def CMP_NOSPACE : Fld := ⟨0xf0020, [], 31, 0, .ro, 0, .w⟩
def CMP_FAIL : Fld := ⟨0xf0024, [], 31, 0, .ro, 0, .w⟩

-- R436 (11_pair)
def PAIR_CFG_EN : Fld := ⟨0x100000, [], 31, 31, .rwl, 0, .c⟩
def PAIR_CFG_PREF : Fld := ⟨0x100000, [], 30, 30, .rwl, 0, .c⟩
def PAIR_CFG_REVERT : Fld := ⟨0x100000, [], 29, 29, .rw, 1, .c⟩
def PAIR_CFG_AUTO_SW : Fld := ⟨0x100000, [], 28, 28, .rw, 0, .c⟩
def PAIR_CFG_REVERT_S : Fld := ⟨0x100000, [], 27, 16, .rw, 0x12c, .c⟩
def PAIR_CFG_JOIN_MS : Fld := ⟨0x100000, [], 15, 0, .rwl, 0x7d0, .c⟩
def PAIR_STAT_ROLE : Fld := ⟨0x100004, [], 31, 30, .ro, 0, .w⟩
def PAIR_STAT_JOINED : Fld := ⟨0x100004, [], 29, 29, .ro, 0, .w⟩
def PAIR_STAT_READY : Fld := ⟨0x100004, [], 28, 28, .ro, 0, .w⟩
def PAIR_STAT_PARTNER_READY : Fld := ⟨0x100004, [], 27, 27, .ro, 0, .w⟩
def PAIR_STAT_PATH_A : Fld := ⟨0x100004, [], 26, 26, .ro, 0, .w⟩
def PAIR_STAT_PATH_B : Fld := ⟨0x100004, [], 25, 25, .ro, 0, .w⟩
def PAIR_STAT_LANES : Fld := ⟨0x100004, [], 24, 23, .ro, 0, .w⟩
def PAIR_STAT_PARTNER_MODE : Fld := ⟨0x100004, [], 22, 20, .ro, 0, .w⟩
def PAIR_STAT_PARTNER_DEG : Fld := ⟨0x100004, [], 19, 19, .ro, 0, .w⟩
def PAIR_STAT_DATA_DOWN : Fld := ⟨0x100004, [], 18, 18, .ro, 0, .w⟩
def PAIR_STAT_DUAL : Fld := ⟨0x100004, [], 17, 17, .ro, 0, .w⟩
def PAIR_STAT_CFG_CONFLICT : Fld := ⟨0x100004, [], 16, 16, .ro, 0, .w⟩
def PAIR_STAT_CATCHUP : Fld := ⟨0x100004, [], 15, 8, .ro, 0, .w⟩
def PAIR_STAT_PARTNER_SCORE : Fld := ⟨0x100004, [], 7, 0, .ro, 0, .w⟩
def PAIR_HEALTH_SCORE : Fld := ⟨0x100008, [], 31, 24, .ro, 0xff, .w⟩
def PAIR_HEALTH_SORTERS_LOST : Fld := ⟨0x100008, [], 23, 16, .ro, 0, .w⟩
def PAIR_HEALTH_ST_FAIL : Fld := ⟨0x100008, [], 15, 8, .ro, 0, .w⟩
def PAIR_SILENT_A_US : Fld := ⟨0x10000c, [], 31, 16, .ro, 0xffff, .w⟩
def PAIR_SILENT_B_US : Fld := ⟨0x10000c, [], 15, 0, .ro, 0xffff, .w⟩
def PAIR_DECL_SEC : Fld := ⟨0x100010, [], 31, 0, .ro, 0, .w⟩
def PAIR_DECL_NS : Fld := ⟨0x100014, [], 29, 0, .ro, 0, .w⟩
def PAIR_LAG_MAX_US : Fld := ⟨0x100018, [], 31, 16, .rw, 0xc8, .c⟩
def PAIR_LAG_LAST_US : Fld := ⟨0x100018, [], 15, 0, .ro, 0, .w⟩
def PAIR_CATCH_RATE : Fld := ⟨0x10001c, [], 7, 0, .rw, 0x64, .c⟩
def PAIR_SPDU_SKIP : Fld := ⟨0x100020, [], 31, 0, .rw, 0x1000, .c⟩
def PAIR_COPYSEQ : Fld := ⟨0x100024, [], 31, 0, .ro, 0, .w⟩

-- R437 (11_pair)
def PAIR_TAKEOVERS : Fld := ⟨0x100040, [], 31, 0, .ro, 0, .w⟩
def PAIR_SWITCHES : Fld := ⟨0x100044, [], 31, 0, .ro, 0, .w⟩
def PAIR_REPLAYED : Fld := ⟨0x100048, [], 31, 0, .ro, 0, .w⟩
def PAIR_FETCHED : Fld := ⟨0x10004c, [], 31, 0, .ro, 0, .w⟩
def PAIR_FWD_OUT : Fld := ⟨0x100050, [], 31, 0, .ro, 0, .w⟩
def PAIR_FWD_IN : Fld := ⟨0x100054, [], 31, 0, .ro, 0, .w⟩
def PAIR_DIVERGED : Fld := ⟨0x100058, [], 31, 0, .ro, 0, .w⟩
def PAIR_FOLLOW_LATE : Fld := ⟨0x10005c, [], 31, 0, .ro, 0, .w⟩
def PAIR_RETX : Fld := ⟨0x100060, [], 31, 0, .ro, 0, .w⟩
def PAIR_HOLD_DROP : Fld := ⟨0x100064, [], 31, 0, .ro, 0, .w⟩
def PAIR_ST_FAILS : Fld := ⟨0x100068, [], 31, 0, .ro, 0, .w⟩

-- R465 (12_strongroom)
def KEY_LC_DEBUG_OPEN : Fld := ⟨0x110000, [], 8, 8, .ro, 0, .c⟩
def KEY_LC_STATE : Fld := ⟨0x110000, [], 2, 0, .ro, 0, .c⟩
def KEY_STAT_BUSY : Fld := ⟨0x110004, [], 31, 31, .ro, 0, .w⟩
def KEY_STAT_JREPLAY : Fld := ⟨0x110004, [], 30, 30, .ro, 0, .w⟩
def KEY_STAT_SPARE : Fld := ⟨0x110004, [], 25, 16, .ro, 0, .w⟩
def KEY_STAT_LIVE : Fld := ⟨0x110004, [], 8, 0, .ro, 0, .w⟩
def KEY_BAD_COUNT : Fld := ⟨0x110008, [], 9, 0, .ro, 0, .c⟩
def KEY_REFUSED_COUNT : Fld := ⟨0x11000c, [], 31, 0, .ro, 0, .w⟩
def KEY_TAGFAIL_COUNT : Fld := ⟨0x110010, [], 31, 0, .ro, 0, .c⟩
def KEY_SEALSEQ_COUNT : Fld := ⟨0x110014, [], 31, 0, .ro, 0, .c⟩
def KEY_SERIAL_SERIAL : Fld := ⟨0x110020, [(0x4, 4)], 31, 0, .ro, 0, .c⟩

-- R466 (12_strongroom)
def KEY_SLOT_STATE : Fld := ⟨0x111000, [(0x20, 256)], 31, 28, .ro, 0, .c⟩
def KEY_SLOT_KTYPE : Fld := ⟨0x111000, [(0x20, 256)], 27, 24, .ro, 0, .c⟩
def KEY_SLOT_PARENT : Fld := ⟨0x111000, [(0x20, 256)], 23, 16, .ro, 0, .c⟩
def KEY_SLOT_PARENT_V : Fld := ⟨0x111000, [(0x20, 256)], 15, 15, .ro, 0, .c⟩
def KEY_SLOT_DEPTH : Fld := ⟨0x111000, [(0x20, 256)], 14, 12, .ro, 0, .c⟩
def KEY_SLOT_EXP : Fld := ⟨0x111000, [(0x20, 256)], 11, 10, .ro, 0, .c⟩
def KEY_SLOT_PHYS : Fld := ⟨0x111000, [(0x20, 256)], 9, 0, .ro, 0, .c⟩
def KEY_SLOT_KEYID : Fld := ⟨0x111004, [(0x20, 256)], 31, 0, .ro, 0, .c⟩
def KEY_SLOT_GEN : Fld := ⟨0x111008, [(0x20, 256)], 31, 16, .ro, 0, .c⟩
def KEY_SLOT_USE : Fld := ⟨0x111008, [(0x20, 256)], 15, 0, .ro, 0, .c⟩
def KEY_SLOT_NOT_AFTER : Fld := ⟨0x11100c, [(0x20, 256), (0x4, 2)], 31, 0, .ro, 0, .c⟩
def KEY_SLOT_USE_LIMIT : Fld := ⟨0x111014, [(0x20, 256)], 31, 0, .ro, 0, .c⟩
def KEY_SLOT_USED : Fld := ⟨0x111018, [(0x20, 256)], 31, 0, .ro, 0, .c⟩
def KEY_SLOT_SPDU : Fld := ⟨0x11101c, [(0x20, 256)], 31, 0, .ro, 0, .c⟩

-- R500 (13_persistence_logbook_rtc)
def NVS_STAT_BUSY : Fld := ⟨0x120000, [], 31, 31, .ro, 0, .w⟩
def NVS_STAT_JREPLAY : Fld := ⟨0x120000, [], 30, 30, .ro, 0, .w⟩
def NVS_STAT_BAD : Fld := ⟨0x120000, [], 29, 29, .ro, 0, .w⟩
def NVS_STAT_STALE : Fld := ⟨0x120000, [], 28, 28, .ro, 0, .w⟩
def NVS_STAT_SEL : Fld := ⟨0x120000, [], 27, 26, .ro, 2, .w⟩
def NVS_SEQ_SEQ : Fld := ⟨0x120004, [], 31, 0, .ro, 0, .w⟩
def NVS_APPLIED_COUNT : Fld := ⟨0x120008, [], 17, 0, .ro, 0, .w⟩
def NVS_SKIPPED_COUNT : Fld := ⟨0x12000c, [], 17, 0, .ro, 0, .w⟩
def NVS_FIRST_SKIP_OFFSET : Fld := ⟨0x120010, [], 31, 0, .ro, 0, .w⟩
def NVS_STORES_COUNT : Fld := ⟨0x120014, [], 31, 0, .ro, 0, .w⟩

-- R502 (13_persistence_logbook_rtc)
def LOG_STAT_SEALED : Fld := ⟨0x130000, [], 31, 31, .ro, 0, .k⟩
def LOG_STAT_GASP_FAIL : Fld := ⟨0x130000, [], 30, 30, .ro, 0, .k⟩
def LOG_STAT_WRAPPED : Fld := ⟨0x130000, [], 29, 29, .ro, 0, .k⟩
def LOG_STAT_READY : Fld := ⟨0x130000, [], 28, 28, .ro, 0, .w⟩
def LOG_STAT_STAGED : Fld := ⟨0x130000, [], 22, 16, .ro, 0, .w⟩
def LOG_HEAD_SEQ : Fld := ⟨0x130004, [], 31, 0, .ro, 0, .k⟩
def LOG_COUNT_COUNT : Fld := ⟨0x130008, [], 16, 0, .ro, 0, .k⟩
def LOG_LOST_COUNT : Fld := ⟨0x13000c, [], 31, 0, .ro, 0, .k⟩
def LOG_OPSEC_SEC : Fld := ⟨0x130010, [], 31, 0, .ro, 0, .k⟩
def LOG_CYCLES_COUNT : Fld := ⟨0x130014, [], 31, 0, .ro, 0, .k⟩
def LOG_CFG_GASP_EN : Fld := ⟨0x130018, [], 31, 31, .rwl, 0, .c⟩
def LOG_CFG_GASP_LEVEL : Fld := ⟨0x130018, [], 30, 30, .rwl, 0, .c⟩
def LOG_CFG_GASP_PIN : Fld := ⟨0x130018, [], 3, 0, .rwl, 0, .c⟩
def LOG_WIN_FIRST : Fld := ⟨0x13001c, [], 31, 0, .rw, 0, .w⟩
def LOG_BADREAD_COUNT : Fld := ⟨0x130020, [], 31, 0, .ro, 0, .w⟩

-- R485 (13_persistence_logbook_rtc)
def LOG_WINDOW : Fld := ⟨0xfe0000, [(0x40, 64), (0x4, 16)], 31, 0, .ro, 0, .d⟩

-- R488 (13_persistence_logbook_rtc)
def LOG_GASP : Fld := ⟨0xfe1000, [(0x40, 64), (0x4, 16)], 31, 0, .ro, 0, .d⟩

-- R567 (15_register_map)
def MEM_SRAM_CE_COUNT : Fld := ⟨0x150000, [], 31, 0, .ro, 0, .w⟩
def MEM_SRAM_UE_COUNT : Fld := ⟨0x150004, [], 31, 0, .ro, 0, .w⟩
def MEM_SRAM_LAST_WHERE : Fld := ⟨0x150008, [], 31, 24, .ro, 0xff, .w⟩
def MEM_SRAM_LAST_INDEX : Fld := ⟨0x150008, [], 21, 0, .ro, 0, .w⟩
def MEM_MRAM_CE_COUNT : Fld := ⟨0x15000c, [], 31, 0, .ro, 0, .w⟩
def MEM_MRAM_UE_COUNT : Fld := ⟨0x150010, [], 31, 0, .ro, 0, .w⟩
def MEM_MRAM_LAST_VALID : Fld := ⟨0x150014, [], 31, 31, .ro, 0, .w⟩
def MEM_MRAM_LAST_ADDR : Fld := ⟨0x150014, [], 20, 0, .ro, 0, .w⟩
def MEM_SCRUB_SRAM : Fld := ⟨0x150018, [], 31, 16, .ro, 0, .w⟩
def MEM_SCRUB_DRAM : Fld := ⟨0x150018, [], 15, 0, .ro, 0, .w⟩
def MEM_CH_STAT_TRAINED : Fld := ⟨0x150100, [(0x40, 2)], 31, 31, .ro, 0, .w⟩
def MEM_CH_STAT_LOST : Fld := ⟨0x150100, [(0x40, 2)], 30, 30, .ro, 0, .w⟩
def MEM_CH_STAT_RETAINED : Fld := ⟨0x150100, [(0x40, 2)], 29, 29, .ro, 0, .w⟩
def MEM_CH_STAT_REGISTERED : Fld := ⟨0x150100, [(0x40, 2)], 28, 28, .ro, 0, .c⟩
def MEM_CH_STAT_GIB : Fld := ⟨0x150100, [(0x40, 2)], 7, 0, .ro, 0, .c⟩
def MEM_CH_CE_COUNT : Fld := ⟨0x150104, [(0x40, 2)], 31, 0, .ro, 0, .w⟩
def MEM_CH_UE_COUNT : Fld := ⟨0x150108, [(0x40, 2)], 31, 0, .ro, 0, .w⟩
def MEM_CH_LAST_LO_ADDR : Fld := ⟨0x15010c, [(0x40, 2)], 31, 0, .ro, 0, .w⟩
def MEM_CH_LAST_HI_UE : Fld := ⟨0x150110, [(0x40, 2)], 31, 31, .ro, 0, .w⟩
def MEM_CH_LAST_HI_ADDR : Fld := ⟨0x150110, [(0x40, 2)], 2, 0, .ro, 0, .w⟩
def MEM_CH_PATROL_PCT : Fld := ⟨0x150114, [(0x40, 2)], 7, 0, .ro, 0, .w⟩

-- R46 (01_architecture)
def PWR_SRT_STATE : Fld := ⟨0x160000, [(0x4, 4)], 31, 0, .ro, 0xffffffff, .w⟩

-- R47 (01_architecture)
def PWR_SRT_FENCE_FENCE : Fld := ⟨0x160010, [(0x4, 2)], 31, 0, .ro, 0, .w⟩

-- R48 (01_architecture)
def PWR_SRT_POLICY_SLEEP_MIN : Fld := ⟨0x160018, [], 31, 16, .rw, 0xc8, .w⟩
def PWR_SRT_POLICY_NAP_IDLE : Fld := ⟨0x160018, [], 15, 8, .rw, 8, .w⟩
def PWR_SRT_POLICY_DEEPEST : Fld := ⟨0x160018, [], 1, 0, .rw, 2, .w⟩

-- R49 (01_architecture)
def PWR_WAKE_LEAD : Fld := ⟨0x16001c, [], 15, 0, .rw, 0xbb8, .w⟩

-- R50 (01_architecture)
def PWR_SRT_CLK_MHZ : Fld := ⟨0x160020, [], 10, 0, .rwl, 0x578, .w⟩

-- R599 (16_pins_electrical)
def PWR_TJ_HOT : Fld := ⟨0x160040, [], 18, 16, .ro, 0, .w⟩
def PWR_TJ_TJ : Fld := ⟨0x160040, [], 15, 0, .ro, 0, .w⟩
def PWR_TJ_PEAK_PEAK : Fld := ⟨0x160044, [], 15, 0, .rw, 0x8000, .w⟩
def PWR_THERM_WARN_C : Fld := ⟨0x160048, [], 31, 24, .rw, 0x64, .c⟩
def PWR_THERM_CRIT_C : Fld := ⟨0x160048, [], 23, 16, .rw, 0x6e, .c⟩
def PWR_THERM_HYST : Fld := ⟨0x160048, [], 15, 8, .rw, 5, .c⟩
def PWR_THERM_CRIT : Fld := ⟨0x160048, [], 1, 1, .ro, 0, .w⟩
def PWR_THERM_WARN : Fld := ⟨0x160048, [], 0, 0, .ro, 0, .w⟩
def PWR_SUPPLY_LOW_SEEN : Fld := ⟨0x16004c, [], 23, 16, .w1c, 0, .w⟩
def PWR_SUPPLY_HIGH_SEEN : Fld := ⟨0x16004c, [], 15, 8, .w1c, 0, .w⟩
def PWR_SUPPLY_OUT : Fld := ⟨0x16004c, [], 7, 0, .ro, 0, .w⟩
def PWR_TRIP_EN : Fld := ⟨0x160050, [], 31, 31, .rwl, 0, .c⟩
def PWR_TRIP_LEVEL : Fld := ⟨0x160050, [], 30, 30, .rwl, 0, .c⟩
def PWR_TRIP_PIN : Fld := ⟨0x160050, [], 3, 0, .rwl, 0, .c⟩
def PWR_I2C_CTL_GO : Fld := ⟨0x160054, [], 31, 31, .wo, 0, .w⟩
def PWR_I2C_CTL_BUS : Fld := ⟨0x160054, [], 30, 30, .rw, 0, .c⟩
def PWR_I2C_CTL_READ : Fld := ⟨0x160054, [], 29, 29, .rw, 0, .c⟩
def PWR_I2C_CTL_PEC : Fld := ⟨0x160054, [], 28, 28, .rw, 0, .c⟩
def PWR_I2C_CTL_STATUS : Fld := ⟨0x160054, [], 27, 26, .ro, 0, .w⟩
def PWR_I2C_CTL_ADDR : Fld := ⟨0x160054, [], 22, 16, .rw, 0, .c⟩
def PWR_I2C_CTL_CMD : Fld := ⟨0x160054, [], 15, 8, .rw, 0, .c⟩
def PWR_I2C_CTL_LEN : Fld := ⟨0x160054, [], 2, 0, .rw, 0, .c⟩
def PWR_I2C_DATA_DATA : Fld := ⟨0x160058, [], 31, 0, .rw, 0, .w⟩
def PWR_I2C_CFG_SNS_400 : Fld := ⟨0x16005c, [], 1, 1, .rw, 0, .c⟩
def PWR_I2C_CFG_PMB_400 : Fld := ⟨0x16005c, [], 0, 0, .rw, 0, .c⟩

-- R548 (15_register_map)
def MSIX_TABLE : Fld := ⟨0x170000, [(0x10, 64), (0x4, 3)], 31, 0, .rw, 0, .c⟩
def MSIX_CTRL : Fld := ⟨0x17000c, [(0x10, 64)], 0, 0, .rw, 1, .c⟩
def MSIX_PBA : Fld := ⟨0x170800, [(0x4, 2)], 31, 0, .ro, 0, .c⟩

end Reg


def flds_glb : List Fld :=
  [Reg.GLB_ID_PART, Reg.GLB_ID_REV_LETTER, Reg.GLB_ID_REV_NUM, Reg.GLB_CAPS_DRAM_GIB, Reg.GLB_CAPS_CH0_GIB,
   Reg.GLB_CAPS_CH1_GIB, Reg.GLB_SCRATCH_DATA, Reg.GLB_MODE_SEQ, Reg.GLB_MODE_RUN_EN, Reg.GLB_MODE_TEST,
   Reg.GLB_MODE_PAIRED, Reg.GLB_MODE_DEG, Reg.GLB_MODE_CAUSE, Reg.GLB_MODE_PREV, Reg.GLB_MODE_CUR,
   Reg.GLB_MODE_REQ_REASON, Reg.GLB_MODE_REQ_STATUS, Reg.GLB_MODE_REQ_FORCE, Reg.GLB_MODE_REQ_TARGET,
   Reg.GLB_DEG_CAUSE_SORTERS_LOST, Reg.GLB_DEG_CAUSE_TDOM1, Reg.GLB_DEG_CAUSE_TDOM0, Reg.GLB_DEG_CAUSE_PORT,
   Reg.GLB_DEG_CAUSE_DRAM1, Reg.GLB_DEG_CAUSE_DRAM0, Reg.GLB_DEG_CAUSE_SORTER, Reg.GLB_NOTICE_SUM_SUM,
   Reg.GLB_NOTICE_BITS, Reg.GLB_NOTICE_EN_BITS, Reg.GLB_NOTICE_VEC_VEC]

def flds_strt : List Fld :=
  [Reg.STRT_NOTICE_BITS, Reg.STRT_NOTICE_EN_BITS, Reg.STRT_NOTICE_VEC_VEC, Reg.STRT_STAT_PHASE,
   Reg.STRT_STAT_KIND, Reg.STRT_STAT_SRC, Reg.STRT_STAT_FULL, Reg.STRT_STAT_MSRC, Reg.STRT_STAT_DONE,
   Reg.STRT_STAT_LOAD_MS, Reg.STRT_FAIL_ATTEMPTS, Reg.STRT_FAIL_LOCKOUT, Reg.STRT_FAIL_CODE,
   Reg.STRT_FAIL_SUB, Reg.STRT_MSEL_CODE, Reg.STRT_MSEL_SLOT, Reg.STRT_COLD_COUNT, Reg.STRT_WARM_COUNT,
   Reg.STRT_MVER_MVER, Reg.STRT_MFLOOR_MVER, Reg.STRT_MHASH_HASH, Reg.STRT_CTL_WARM, Reg.STRT_CTL_FULL,
   Reg.STRT_CTL_KEY, Reg.STRT_WDOG_STALL_EN, Reg.STRT_WDOG_HOST_EN, Reg.STRT_WDOG_STALL_MS,
   Reg.STRT_WDOG_HOST_MS, Reg.STRT_KICK_KEY, Reg.STRT_SVC_CHAL_REQ, Reg.STRT_SVC_SUBMIT,
   Reg.STRT_SVC_AT_START, Reg.STRT_SVC_NEXT, Reg.STRT_SVC_OPEN, Reg.STRT_SVC_AUTH_STAT, Reg.STRT_CHAL_CHAL,
   Reg.STRT_SIG_SIG]

def flds_tba : List Fld :=
  [Reg.TB_NOTICE_BITS, Reg.TB_NOTICE_EN_BITS, Reg.TB_NOTICE_VEC_VEC, Reg.TB_STAT_UNLK_S, Reg.TB_STAT_FQ,
   Reg.TB_STAT_SQ, Reg.TB_STAT_SERR, Reg.TB_STAT_UTC_UNVER, Reg.TB_STAT_SEL, Reg.TB_STAT_STATE,
   Reg.TB_UNC_UNC, Reg.TB_NOW_SEC_LO_SEC, Reg.TB_NOW_SEC_HI_SEC, Reg.TB_NOW_NS_NS, Reg.TB_NOW_FRAC_FRAC,
   Reg.TB_SET_SEC_LO_SEC, Reg.TB_SET_SEC_HI_SEC, Reg.TB_SET_NS_NS, Reg.TB_SET_COMMIT_STATUS,
   Reg.TB_SET_COMMIT_RES, Reg.TB_SET_COMMIT_GO, Reg.TB_DOM_CFG_DOMNUM, Reg.TB_DOM_CFG_PORTS,
   Reg.TB_DOM_CFG_PROFILE, Reg.TB_DOM_STAT_UTC_OFS, Reg.TB_DOM_STAT_PORT, Reg.TB_DOM_STAT_UTCV,
   Reg.TB_DOM_STAT_STATE, Reg.TB_DOM_OFS_THETA, Reg.TB_DOM_GM_ID, Reg.TB_DOM_GMINACC_NS,
   Reg.TB_DOM_PDELAY_NS, Reg.TB_DOM_SYNCS_COUNT, Reg.TB_SEL_SWITCH, Reg.TB_SEL_REVERT_S, Reg.TB_SEL_REVERT,
   Reg.TB_SEL_PREF, Reg.TB_SERVO_STEP_NS, Reg.TB_SERVO_LOCK_NS, Reg.TB_SERVO_BW]
def flds_tbb : List Fld :=
  [Reg.TB_HOLD_SERR_US, Reg.TB_HOLD_RATE, Reg.TB_UTC_LSD, Reg.TB_UTC_LSP, Reg.TB_UTC_LSO,
   Reg.TB_UTC_HOST_LEAP, Reg.TB_UTC_VALID, Reg.TB_UTC_OFFSET, Reg.TB_STEER_CFG_PULL, Reg.TB_STEER_CFG_PFX,
   Reg.TB_STEER_CFG_PFX_BITS, Reg.TB_STEER_CFG_SIGNED, Reg.TB_STEER_CFG_CODE_BITS, Reg.TB_STEER_CENTER_CODE,
   Reg.TB_STEER_GAIN_GAIN, Reg.TB_STEER_VAL_F, Reg.TB_PPS_OUT_COMP, Reg.TB_PPS_FREE, Reg.TB_PPS_WIDTH,
   Reg.TB_PPS_IN_PRESENT, Reg.TB_PPS_IN_OFS, Reg.TB_PCORR_C_TX, Reg.TB_PCORR_C_RX, Reg.TB_PASYM_ASYM]
def flds_tb : List Fld := flds_tba ++ flds_tbb

def flds_bkd : List Fld :=
  [Reg.BKD_NOTICE_BITS, Reg.BKD_NOTICE_EN_BITS, Reg.BKD_NOTICE_VEC_VEC, Reg.BKD_STAT_OSF,
   Reg.BKD_STAT_VBAT_LOW, Reg.BKD_STAT_ON, Reg.BKD_STAT_TEMP, Reg.BKD_SEC_LO_SEC, Reg.BKD_SEC_HI_SEC,
   Reg.BKD_SUB_SUB, Reg.BKD_SET_SEC_LO_SEC, Reg.BKD_SET_SEC_HI_SEC, Reg.BKD_SET_COMMIT_STATUS,
   Reg.BKD_SET_COMMIT_GO, Reg.BKD_ERR_ERR, Reg.BKD_TC_MODE, Reg.BKD_TC_K, Reg.BKD_TC2_OFS_PPB,
   Reg.BKD_TC2_T0, Reg.BKD_TRIM_CAL, Reg.BKD_CORR_N, Reg.BKD_ALM_SEC_LO_SEC, Reg.BKD_ALM_SEC_HI_SEC,
   Reg.BKD_ALM_CTL_ARM, Reg.BKD_ALM_CTL_ARMED, Reg.BKD_ALM_CTL_FIRED, Reg.BKD_ALM_CTL_LATE,
   Reg.BKD_ALM_CTL_DISARM, Reg.BKD_ALM_CTL_WAKE, Reg.BKD_PON_AUTO, Reg.BKD_PON_LEVEL, Reg.BKD_PON_OFF,
   Reg.BKD_PON_KEY, Reg.BKD_SCRATCH_DATA]

def flds_net : List Fld :=
  [Reg.NET_NOTICE_BITS, Reg.NET_NOTICE_EN_BITS, Reg.NET_NOTICE_VEC_VEC, Reg.NET_PORT_CFG_EN,
   Reg.NET_PORT_CFG_MODE, Reg.NET_PORT_CFG_AN, Reg.NET_PORT_CFG_JUMBO, Reg.NET_PORT_CFG_LOOP,
   Reg.NET_PORT_STAT_PAUSED, Reg.NET_PORT_STAT_SPEED, Reg.NET_PORT_STAT_LINK, Reg.NET_PORT_MAC_LO_ADDR,
   Reg.NET_PORT_MAC_HI_ADDR, Reg.NET_PORT_IP4_ADDR, Reg.NET_PORT_IP6_ADDR, Reg.NET_PORT_VLAN_UNTAG_OK,
   Reg.NET_PORT_VLAN_TX_UNTAG, Reg.NET_PORT_VLAN_VID, Reg.NET_PORT_VID_EN, Reg.NET_PORT_VID_VID,
   Reg.NET_PORT_RX_FRAMES, Reg.NET_PORT_RX_DISC, Reg.NET_PORT_TX_FRAMES, Reg.NET_PORT_TX_SHED,
   Reg.NET_PORT_PRP_DUP, Reg.NET_PORT_PAUSE_CUT, Reg.NET_PORT_FCS_ERR, Reg.NET_PAUSE_MAX_US,
   Reg.NET_UDP_R905, Reg.NET_UDP_C37, Reg.NET_PRP_FORGET_MS, Reg.NET_PRP_PAIR23, Reg.NET_PRP_PAIR01,
   Reg.NET_REASM_FAIL_COUNT, Reg.NET_EGR_PFC_MASK, Reg.NET_EGR_PCP_PTP, Reg.NET_EGR_PCP_ALM,
   Reg.NET_EGR_PCP_DATA]

def flds_adma : List Fld :=
  [Reg.ADM_NOTICE_BITS, Reg.ADM_NOTICE_EN_BITS, Reg.ADM_NOTICE_VEC_VEC, Reg.ADM_CTL_HOST_TO,
   Reg.ADM_CTL_DEFAULT, Reg.ADM_CTL_REEVAL, Reg.ADM_CTL_COMMIT, Reg.ADM_STAT_SIDS_USED, Reg.ADM_STAT_PENDING,
   Reg.ADM_STAT_QUAR, Reg.ADM_STAT_COMMIT_BUSY, Reg.ADM_DECIDE_STATUS, Reg.ADM_DECIDE_DECISION,
   Reg.ADM_DECIDE_ENTRY, Reg.ADM_REFUSED_FRAMES_COUNT, Reg.ADM_QUAR_FRAMES_COUNT, Reg.ADM_PEND_VALID,
   Reg.ADM_PEND_QUAR, Reg.ADM_PEND_KIND, Reg.ADM_PEND_PORT, Reg.ADM_PEND_TAGGED, Reg.ADM_PEND_V6,
   Reg.ADM_PEND_ID, Reg.ADM_PEND_SRC, Reg.ADM_PEND_HI_SRC, Reg.ADM_PEND_VID_VID, Reg.ADM_RULE_VALID,
   Reg.ADM_RULE_DECISION, Reg.ADM_RULE_REQ_FRANK, Reg.ADM_RULE_TRANSPORT, Reg.ADM_RULE_PORTS,
   Reg.ADM_RULE_KIND_MASK, Reg.ADM_RULE_PREFIX, Reg.ADM_RULE_V6, Reg.ADM_RULE_ADDR, Reg.ADM_RULE_VLAN_ANY,
   Reg.ADM_RULE_TAGGED, Reg.ADM_RULE_VID, Reg.ADM_RULE_ID_HI, Reg.ADM_RULE_ID_LO]
def flds_admb : List Fld :=
  [Reg.ADM_RULE_APPID_HI, Reg.ADM_RULE_APPID_LO, Reg.ADM_RULE_KEYID, Reg.ADM_RULE_TCP_PORT,
   Reg.ADM_RULE_IDLE_RI, Reg.ADM_SRULE_VALID, Reg.ADM_SRULE_DECISION, Reg.ADM_SRULE_REQ_FRANK,
   Reg.ADM_SRULE_TRANSPORT, Reg.ADM_SRULE_PORTS, Reg.ADM_SRULE_KIND_MASK, Reg.ADM_SRULE_PREFIX,
   Reg.ADM_SRULE_V6, Reg.ADM_SRULE_ADDR, Reg.ADM_SRULE_VLAN_ANY, Reg.ADM_SRULE_TAGGED, Reg.ADM_SRULE_VID,
   Reg.ADM_SRULE_ID_HI, Reg.ADM_SRULE_ID_LO, Reg.ADM_SRULE_APPID_HI, Reg.ADM_SRULE_APPID_LO,
   Reg.ADM_SRULE_KEYID, Reg.ADM_SRULE_TCP_PORT, Reg.ADM_SRULE_IDLE_RI]
def flds_adm : List Fld := flds_adma ++ flds_admb

def flds_whla : List Fld :=
  [Reg.WHL_NOTICE_BITS, Reg.WHL_NOTICE_EN_BITS, Reg.WHL_NOTICE_VEC_VEC, Reg.ROUND_TOL, Reg.WHL_TRK_DINIT_US,
   Reg.WHL_TRK_DMIN_US, Reg.WHL_TRK_G, Reg.WHL_STALE_COUNT, Reg.WHL_FUTURE_COUNT, Reg.WHL_NOTICE_RND,
   Reg.WHL_RND_CTL_EN, Reg.WHL_RND_CTL_RATE, Reg.WHL_RND_CTL_LATE_ADD, Reg.WHL_RND_CTL_OFFGRID_DEAD,
   Reg.WHL_RND_CTL_HOST, Reg.WHL_RND_CTL_WIRE, Reg.WHL_RND_CTL_POLAR, Reg.WHL_RND_QUO_Q_PCT,
   Reg.WHL_RND_QUO_COVER_PCT, Reg.WHL_RND_QUO_ABSENT_RI, Reg.WHL_RND_DL_MIN_US, Reg.WHL_RND_DL_MARGIN_US,
   Reg.WHL_RND_DLMAX_US, Reg.WHL_RND_DLINIT_US, Reg.WHL_RND_DLNOW_CLAMP, Reg.WHL_RND_DLNOW_D,
   Reg.WHL_RND_FIRST_US, Reg.WHL_RND_SHAPE_PHN, Reg.WHL_RND_SHAPE_ANN, Reg.WHL_RND_SHAPE_DGN,
   Reg.WHL_RND_SHAPE_ANNOUNCE_S, Reg.WHL_RND_OUT_CMD_GATE, Reg.WHL_RND_OUT_PORTS, Reg.WHL_RND_OUT_IDCODE,
   Reg.WHL_RND_TB_TIME_BASE, Reg.WHL_RND_DST_ADDR, Reg.WHL_RND_DST_UDP_V6, Reg.WHL_RND_DST_UDP_PORT,
   Reg.WHL_RND_COMMIT_STATUS, Reg.WHL_RND_COMMIT_GO]
def flds_whlb : List Fld :=
  [Reg.WHL_RND_STAT_CFGCNT, Reg.WHL_RND_STAT_MEMBERS, Reg.WHL_RND_ESS_CUR, Reg.WHL_RND_ESS_TABLE,
   Reg.WHL_RND_DISPATCHED, Reg.WHL_RND_BY_DEADLINE, Reg.WHL_RND_LATE, Reg.WHL_RND_DUP, Reg.WHL_RND_ADD_DROP,
   Reg.WHL_RND_INELIG, Reg.WHL_RND_CMD_IGN, Reg.WHL_RND_MAX_DSP]
def flds_whl : List Fld := flds_whla ++ flds_whlb

def flds_sof : List Fld :=
  [Reg.SOF_NOTICE_BITS, Reg.SOF_NOTICE_EN_BITS, Reg.SOF_NOTICE_VEC_VEC, Reg.SOF_CTL_STEAL_NS,
   Reg.SOF_CTL_AGE, Reg.SOF_CTL_ITEM_MAX, Reg.SOF_EXPIRE_C2_RI, Reg.SOF_CANCEL_GO, Reg.SOF_CANCEL_STATUS,
   Reg.SOF_CANCEL_FLOW, Reg.SOF_CLS_OCC_OCC, Reg.SOF_CLS_HIGH_HIGH, Reg.SOF_ESC_USED_COUNT,
   Reg.SOF_TRC_CTL_EN, Reg.SOF_TRC_CTL_STAT, Reg.SOF_TRC_CTL_EVENTS, Reg.SOF_TRC_FLOW_HI,
   Reg.SOF_TRC_FLOW_LO, Reg.SOF_TRC_SRT_MASK, Reg.SOF_TRC_CNT_COUNT, Reg.SOF_DLO_SMP_N,
   Reg.SOF_DLO_CNT_COUNT]

def flds_plc : List Fld :=
  [Reg.PLC_NOTICE_BITS, Reg.PLC_NOTICE_EN_BITS, Reg.PLC_NOTICE_VEC_VEC, Reg.PLC_CFG_EN,
   Reg.PLC_CFG_MIN_ACTIVE, Reg.PLC_CFG_HOLD_S, Reg.PLC_CFG_MOVES_BND, Reg.PLC_TGT_CHUNK, Reg.PLC_TGT_CAP,
   Reg.PLC_TGT_UTIL, Reg.PLC_GAIN_MAX_MOVES, Reg.PLC_GAIN_GAIN_MIN, Reg.PLC_AFF_WL, Reg.PLC_AFF_WA,
   Reg.PLC_AFF_WC, Reg.PLC_AFF_WR, Reg.PLC_STAT_PASSES, Reg.PLC_STAT_ACTIVE, Reg.PLC_STAT_COH_SRC,
   Reg.PLC_STAT_BUSY, Reg.PLC_MOVES_LAST, Reg.PLC_MOVES_PENDING, Reg.PLC_CUT_VALUE, Reg.PLC_RND_PIN,
   Reg.PLC_RND_PIN_SRT, Reg.PLC_RND_HOME, Reg.PLC_RND_FALLBACK, Reg.PLC_AG_PIN, Reg.PLC_AG_PIN_SRT,
   Reg.PLC_AG_HOME, Reg.PLC_AG_FALLBACK]

def flds_osca : List Fld :=
  [Reg.OSC_NOTICE_BITS, Reg.OSC_NOTICE_EN_BITS, Reg.OSC_NOTICE_VEC_VEC, Reg.OSC_CTL_EN, Reg.OSC_CTL_USE_TEST,
   Reg.OSC_CTL_FGT_S, Reg.OSC_CTL_FGT_F, Reg.OSC_CTL_GAP_MAX, Reg.OSC_FO_PERSIST, Reg.OSC_FO_RATIO,
   Reg.OSC_FO_ENV, Reg.OSC_MATCH_DROP, Reg.OSC_MATCH_DF_MHZ, Reg.OSC_MATCH_DZ, Reg.OSC_AUTO_PERIOD_S,
   Reg.OSC_AUTO_SWAPS, Reg.OSC_AUTO_CORR_MAX, Reg.OSC_STAT_EXTRACTS, Reg.OSC_STAT_RUNNING,
   Reg.OSC_MISS_COUNT, Reg.OSC_DEF_CTL_MODE, Reg.OSC_DEF_CTL_RND, Reg.OSC_DEF_CTL_GROUP,
   Reg.OSC_DEF_CTL_SLOT, Reg.OSC_DEF_CTL_WIN_S, Reg.OSC_DEF_FREQ_F, Reg.OSC_DEF_STAT_VALID,
   Reg.OSC_DEF_STAT_SRC, Reg.OSC_DEF_STAT_CFGERR, Reg.OSC_DEF_STAT_EPOCHS, Reg.OSC_DEF_FNOW_F,
   Reg.OSC_DEF_TOP_BUS, Reg.OSC_DEF_TOP_VALID_BR, Reg.OSC_NOTICE_AG, Reg.OSC_AG_CFG_EN, Reg.OSC_AG_CFG_SLOW,
   Reg.OSC_AG_CFG_AUTO, Reg.OSC_AG_CFG_MODES, Reg.OSC_AG_CFG_RND, Reg.OSC_AG_REF_REF_EN]
def flds_oscb : List Fld :=
  [Reg.OSC_AG_REF_PH_IDX, Reg.OSC_AG_REF_SID, Reg.OSC_AG_STAT_STATE, Reg.OSC_AG_STAT_SLOW_SETTLING,
   Reg.OSC_AG_STAT_ACTIVE, Reg.OSC_AG_STAT_STALE, Reg.OSC_AG_STAT_OCCUPIED, Reg.OSC_AG_SEQ,
   Reg.OSC_AG_SAMPLES_F, Reg.OSC_AG_SAMPLES_S, Reg.OSC_AG_SKIPPED, Reg.OSC_AG_ADD_USED, Reg.OSC_AG_MISSED,
   Reg.OSC_AG_SWAPS, Reg.OSC_AG_CFGERR, Reg.OSC_AG_UNPLACED, Reg.OSC_AG_EIGFAIL]
def flds_osc : List Fld := flds_osca ++ flds_oscb

def flds_isl : List Fld :=
  [Reg.ISL_NOTICE_BITS, Reg.ISL_NOTICE_EN_BITS, Reg.ISL_NOTICE_VEC_VEC, Reg.ISL_CTL_EN, Reg.ISL_CTL_RND,
   Reg.ISL_CTL_USE_TEST, Reg.ISL_CTL_CONFIRM, Reg.ISL_CTL_GAP_MAX, Reg.ISL_COH_FGT, Reg.ISL_COH_RANK,
   Reg.ISL_COH_MIN_SITES, Reg.ISL_COH_THR_ASSIGN_MIN, Reg.ISL_COH_THR_MERGE, Reg.ISL_SEP_Q_PCT,
   Reg.ISL_SEP_DF_MHZ, Reg.ISL_SEP_DR, Reg.ISL_REJ_REJOIN_RI, Reg.ISL_REJ_BKR_HOLD_RI, Reg.ISL_STAT_STATE,
   Reg.ISL_STAT_FROZEN, Reg.ISL_STAT_GROUPS, Reg.ISL_STAT_ISLANDS, Reg.ISL_STAT_CFGERR, Reg.ISL_CLUST_COUNT,
   Reg.ISL_CLUST_SKIPPED, Reg.ISL_CLUST_SEC_SEC, Reg.ISL_GSEQ_SEQ, Reg.ISL_TESTED_COUNT, Reg.ISL_DECL_COUNT,
   Reg.ISL_DROPPED_COUNT, Reg.ISL_MISSED_COUNT]

def flds_alma : List Fld :=
  [Reg.ALM_NOTICE_BITS, Reg.ALM_NOTICE_EN_BITS, Reg.ALM_NOTICE_VEC_VEC, Reg.ALM_CTL_EN, Reg.ALM_ACK_STATUS,
   Reg.ALM_ACK_AM, Reg.ALM_STD_ACTIVE, Reg.ALM_RECSEQ_COUNT, Reg.ALM_WORD_BITS, Reg.ALM_STD_MAP_EN,
   Reg.ALM_STD_MAP_BIT, Reg.ALM_PIN_EN, Reg.ALM_PIN_POL, Reg.ALM_PIN_TEST, Reg.ALM_PIN_MINW_MS,
   Reg.ALM_PIN_BIT, Reg.ALM_PIN_STAT_OE, Reg.ALM_PIN_STAT_ACTIVE, Reg.ALM_OVL_EN, Reg.ALM_OVL_WORD,
   Reg.ALM_OVL_COUNT, Reg.ALM_OVL_AW, Reg.ALM_OVL_SID, Reg.ALM_PUB_CFG_EN, Reg.ALM_PUB_CFG_RGOOSE,
   Reg.ALM_PUB_CFG_PORTS, Reg.ALM_PUB_CFG_ALG, Reg.ALM_PUB_CFG_QUAL, Reg.ALM_PUB_CFG_APPID,
   Reg.ALM_PUB_RANGE_FIRST, Reg.ALM_PUB_RANGE_COUNT, Reg.ALM_PUB_VLAN_TAGGED, Reg.ALM_PUB_VLAN_VID,
   Reg.ALM_PUB_DMAC_LO_ADDR, Reg.ALM_PUB_DMAC_HI_ADDR, Reg.ALM_PUB_CONFREV_REV, Reg.ALM_PUB_TIMING_T0_MS,
   Reg.ALM_PUB_TIMING_TMIN_MS, Reg.ALM_PUB_KEYID_ID, Reg.ALM_PUB_DIP_ADDR]
def flds_almb : List Fld :=
  [Reg.ALM_PUB_DIPV6_REFUSED, Reg.ALM_PUB_DIPV6_V6, Reg.ALM_PUB_STNUM, Reg.ALM_PUB_SQNUM, Reg.ALM_PUB_SENT,
   Reg.ALM_PUB_GOID, Reg.ALM_PUB_GOCBREF, Reg.ALM_PUB_DATSET]
def flds_alm : List Fld := flds_alma ++ flds_almb

def flds_acqa : List Fld :=
  [Reg.ACQ_NOTICE_BITS, Reg.ACQ_NOTICE_EN_BITS, Reg.ACQ_NOTICE_VEC_VEC, Reg.ACQ_CAL_COMMIT,
   Reg.ACQ_CAL_STATUS, Reg.ACQ_CAL_XF, Reg.ACQ_PT_CFG_EN, Reg.ACQ_PT_CFG_PRESET, Reg.ACQ_PT_CFG_FNOM50,
   Reg.ACQ_PT_CFG_EDGE, Reg.ACQ_PT_CFG_DLY_NS, Reg.ACQ_PT_SPL_GANG, Reg.ACQ_PT_SPL_FORCE, Reg.ACQ_PT_SPL_UP,
   Reg.ACQ_PT_SPL_DOWN, Reg.ACQ_PT_SPL_HOLD_CYC, Reg.ACQ_PT_SPL_SPL, Reg.ACQ_PT_STAT_RUNNING,
   Reg.ACQ_PT_STAT_FADING, Reg.ACQ_PT_STAT_TAU_CLAMP, Reg.ACQ_PT_STAT_PATH_L, Reg.ACQ_PT_STAT_FAULT,
   Reg.ACQ_PT_STAT_OVR, Reg.ACQ_PT_OVR_THR, Reg.ACQ_PT_SPLICES_UP, Reg.ACQ_PT_SPLICES_DOWN,
   Reg.ACQ_PT_OVR_CNT, Reg.ACQ_PT_FAULTS, Reg.ACQ_LS_CFG_EN, Reg.ACQ_LS_CFG_CLASS, Reg.ACQ_LS_CFG_RATE,
   Reg.ACQ_LS_CFG_PMU_IDCODE, Reg.ACQ_LS_STAT_LIVE, Reg.ACQ_LS_STAT_CFGERR, Reg.ACQ_LS_STAT_CFGCNT,
   Reg.ACQ_LS_LETTERS, Reg.ACQ_LS_INVALID, Reg.ACQ_SV_CFG_EN, Reg.ACQ_SV_CFG_SR, Reg.ACQ_SV_CFG_FNOM50]
def flds_acqb : List Fld :=
  [Reg.ACQ_SV_CFG_PORTS, Reg.ACQ_SV_CFG_APPID, Reg.ACQ_SV_CFG_WAIT_US, Reg.ACQ_SV_STAT_RECEIVING,
   Reg.ACQ_SV_STAT_SYNCED, Reg.ACQ_SV_INTERP, Reg.ACQ_SV_BAD, Reg.ACQ_SV_SVID]
def flds_acq : List Fld := flds_acqa ++ flds_acqb

def flds_nrg : List Fld :=
  [Reg.NRG_NOTICE_BITS, Reg.NRG_NOTICE_EN_BITS, Reg.NRG_NOTICE_VEC_VEC, Reg.NRG_CTL_TESTREG,
   Reg.NRG_CTL_INT_S, Reg.NRG_SNAP_STATUS, Reg.NRG_SNAP_GO, Reg.NRG_PT_UDIN, Reg.NRG_PT_CREEP,
   Reg.NRG_PT_THR_SAG_PCT, Reg.NRG_PT_THR_SWELL_PCT, Reg.NRG_PT_THR_INT_PCT, Reg.NRG_PT_THR_HYST,
   Reg.NRG_PT_DIR_ADIR, Reg.NRG_PT_DIR_RDIR, Reg.NRG_PT_DIR_NOLOAD, Reg.NRG_PT_DIR_INTR,
   Reg.NRG_PT_DIR_SWELL, Reg.NRG_PT_DIR_SAG, Reg.NRG_PT_STAT_METERING, Reg.NRG_PT_STAT_TESTSET,
   Reg.NRG_PT_SNAP_SEC, Reg.NRG_PT_SNAP_NS, Reg.NRG_PT_PRE_IDX_GO, Reg.NRG_PT_PRE_IDX_STATUS,
   Reg.NRG_PT_PRE_IDX_IDX, Reg.NRG_PT_PRE_VAL, Reg.NRG_PT_AVG, Reg.NRG_PT_SNAP, Reg.NRG_PT_WRAP_WRAP,
   Reg.NRG_PT_WRAP_WRAPS, Reg.NRG_PT_TSNAP, Reg.NRG_PT_SAGS, Reg.NRG_PT_SWELLS, Reg.NRG_PT_INTRS,
   Reg.NRG_PT_MISSING_Q, Reg.NRG_PT_RECSEQ]

def flds_capa : List Fld :=
  [Reg.CAP_NOTICE_BITS, Reg.CAP_NOTICE_EN_BITS, Reg.CAP_NOTICE_VEC_VEC, Reg.CAP_CTL_EN,
   Reg.CAP_XTRG_ARM_LINE, Reg.CAP_XTRG_FIRE_LINE, Reg.CAP_XTRG_SYNC_LINE, Reg.CAP_XTRG_FIRE_W_US,
   Reg.CAP_XTRG_SYNC_GO, Reg.CAP_STAT_SEGS, Reg.CAP_STAT_FREE, Reg.CAP_MEM_MIB, Reg.CAP_REC_COUNT,
   Reg.CAP_U_CFG_EN, Reg.CAP_U_CFG_SRCK, Reg.CAP_U_CFG_RND, Reg.CAP_U_CFG_PT, Reg.CAP_U_CFG_NCH,
   Reg.CAP_U_CFG_KEEP, Reg.CAP_U_CFG_OVF, Reg.CAP_U_CFG_CMP, Reg.CAP_U_CFG_CPRED, Reg.CAP_U_CFG_PREFULL,
   Reg.CAP_U_CFG_USE_TEST, Reg.CAP_U_CFG_XARM, Reg.CAP_U_CFG_XOUT, Reg.CAP_U_CFG_XIN, Reg.CAP_U_CFG_XSYNC,
   Reg.CAP_U_CFG_TTYPE, Reg.CAP_U_TRIG_POL, Reg.CAP_U_TRIG_SPAN, Reg.CAP_U_LEVEL_A, Reg.CAP_U_LEVEL_B,
   Reg.CAP_U_HYST, Reg.CAP_U_TMIN_US, Reg.CAP_U_TMAX_US, Reg.CAP_U_SLEW, Reg.CAP_U_WIN_PRE,
   Reg.CAP_U_WIN_POST, Reg.CAP_U_SEGS_SEGS]
def flds_capb : List Fld :=
  [Reg.CAP_U_SEGS_HOLD_US, Reg.CAP_U_CH, Reg.CAP_U_STAT_STATE, Reg.CAP_U_STAT_CFGERR, Reg.CAP_U_STAT_FREE,
   Reg.CAP_U_SEQ, Reg.CAP_U_ACK_SEQ, Reg.CAP_U_ARM_FORCE, Reg.CAP_U_ARM_ARM, Reg.CAP_U_RECORDS,
   Reg.CAP_U_LOST, Reg.CAP_U_RETRIG, Reg.CAP_U_NOT_READY, Reg.CAP_U_OVERWRITTEN]
def flds_cap : List Fld := flds_capa ++ flds_capb

def flds_cmp : List Fld :=
  [Reg.CMP_NOTICE_BITS, Reg.CMP_NOTICE_EN_BITS, Reg.CMP_NOTICE_VEC_VEC, Reg.CMP_CTL_EN, Reg.CMP_STAT_BUSY,
   Reg.CMP_STAT_QUEUED, Reg.CMP_IN, Reg.CMP_OUT, Reg.CMP_BLOCKS, Reg.CMP_STORED, Reg.CMP_NOSPACE,
   Reg.CMP_FAIL]

def flds_paira : List Fld :=
  [Reg.PAIR_NOTICE_BITS, Reg.PAIR_NOTICE_EN_BITS, Reg.PAIR_NOTICE_VEC_VEC, Reg.PAIR_CFG_EN,
   Reg.PAIR_CFG_PREF, Reg.PAIR_CFG_REVERT, Reg.PAIR_CFG_AUTO_SW, Reg.PAIR_CFG_REVERT_S, Reg.PAIR_CFG_JOIN_MS,
   Reg.PAIR_STAT_ROLE, Reg.PAIR_STAT_JOINED, Reg.PAIR_STAT_READY, Reg.PAIR_STAT_PARTNER_READY,
   Reg.PAIR_STAT_PATH_A, Reg.PAIR_STAT_PATH_B, Reg.PAIR_STAT_LANES, Reg.PAIR_STAT_PARTNER_MODE,
   Reg.PAIR_STAT_PARTNER_DEG, Reg.PAIR_STAT_DATA_DOWN, Reg.PAIR_STAT_DUAL, Reg.PAIR_STAT_CFG_CONFLICT,
   Reg.PAIR_STAT_CATCHUP, Reg.PAIR_STAT_PARTNER_SCORE, Reg.PAIR_HEALTH_SCORE, Reg.PAIR_HEALTH_SORTERS_LOST,
   Reg.PAIR_HEALTH_ST_FAIL, Reg.PAIR_SILENT_A_US, Reg.PAIR_SILENT_B_US, Reg.PAIR_DECL_SEC, Reg.PAIR_DECL_NS,
   Reg.PAIR_LAG_MAX_US, Reg.PAIR_LAG_LAST_US, Reg.PAIR_CATCH_RATE, Reg.PAIR_SPDU_SKIP, Reg.PAIR_COPYSEQ,
   Reg.PAIR_TAKEOVERS, Reg.PAIR_SWITCHES, Reg.PAIR_REPLAYED, Reg.PAIR_FETCHED, Reg.PAIR_FWD_OUT]
def flds_pairb : List Fld :=
  [Reg.PAIR_FWD_IN, Reg.PAIR_DIVERGED, Reg.PAIR_FOLLOW_LATE, Reg.PAIR_RETX, Reg.PAIR_HOLD_DROP,
   Reg.PAIR_ST_FAILS]
def flds_pair : List Fld := flds_paira ++ flds_pairb

def flds_key : List Fld :=
  [Reg.KEY_NOTICE_BITS, Reg.KEY_NOTICE_EN_BITS, Reg.KEY_NOTICE_VEC_VEC, Reg.KEY_LC_DEBUG_OPEN,
   Reg.KEY_LC_STATE, Reg.KEY_STAT_BUSY, Reg.KEY_STAT_JREPLAY, Reg.KEY_STAT_SPARE, Reg.KEY_STAT_LIVE,
   Reg.KEY_BAD_COUNT, Reg.KEY_REFUSED_COUNT, Reg.KEY_TAGFAIL_COUNT, Reg.KEY_SEALSEQ_COUNT,
   Reg.KEY_SERIAL_SERIAL, Reg.KEY_SLOT_STATE, Reg.KEY_SLOT_KTYPE, Reg.KEY_SLOT_PARENT, Reg.KEY_SLOT_PARENT_V,
   Reg.KEY_SLOT_DEPTH, Reg.KEY_SLOT_EXP, Reg.KEY_SLOT_PHYS, Reg.KEY_SLOT_KEYID, Reg.KEY_SLOT_GEN,
   Reg.KEY_SLOT_USE, Reg.KEY_SLOT_NOT_AFTER, Reg.KEY_SLOT_USE_LIMIT, Reg.KEY_SLOT_USED, Reg.KEY_SLOT_SPDU]

def flds_nvs : List Fld :=
  [Reg.NVS_NOTICE_BITS, Reg.NVS_NOTICE_EN_BITS, Reg.NVS_NOTICE_VEC_VEC, Reg.NVS_STAT_BUSY,
   Reg.NVS_STAT_JREPLAY, Reg.NVS_STAT_BAD, Reg.NVS_STAT_STALE, Reg.NVS_STAT_SEL, Reg.NVS_SEQ_SEQ,
   Reg.NVS_APPLIED_COUNT, Reg.NVS_SKIPPED_COUNT, Reg.NVS_FIRST_SKIP_OFFSET, Reg.NVS_STORES_COUNT]

def flds_log : List Fld :=
  [Reg.LOG_NOTICE_BITS, Reg.LOG_NOTICE_EN_BITS, Reg.LOG_NOTICE_VEC_VEC, Reg.LOG_STAT_SEALED,
   Reg.LOG_STAT_GASP_FAIL, Reg.LOG_STAT_WRAPPED, Reg.LOG_STAT_READY, Reg.LOG_STAT_STAGED, Reg.LOG_HEAD_SEQ,
   Reg.LOG_COUNT_COUNT, Reg.LOG_LOST_COUNT, Reg.LOG_OPSEC_SEC, Reg.LOG_CYCLES_COUNT, Reg.LOG_CFG_GASP_EN,
   Reg.LOG_CFG_GASP_LEVEL, Reg.LOG_CFG_GASP_PIN, Reg.LOG_WIN_FIRST, Reg.LOG_BADREAD_COUNT]

def flds_hif : List Fld :=
  [Reg.HIF_NOTICE_BITS, Reg.HIF_NOTICE_EN_BITS, Reg.HIF_NOTICE_VEC_VEC, Reg.HIF_STAT_BME, Reg.HIF_STAT_LINK,
   Reg.PR_DESC_ADDR, Reg.PR_DATA_ADDR, Reg.PR_CFG_EN, Reg.PR_CFG_DLOG2, Reg.PR_CFG_SLOG2, Reg.PR_CFG_SRC_RND, Reg.PR_CFG_SRC,
   Reg.PR_CFG_NOTIFY, Reg.PR_CFG_DROP_REST, Reg.PR_CFG_VEC, Reg.PR_MOD_MOD_US, Reg.PR_MOD_MOD_CNT,
   Reg.PR_RESUME_DESC, Reg.PR_SEL_SEL, Reg.PR_PROD, Reg.PR_CONS, Reg.PR_PROD_B, Reg.PR_CONS_B, Reg.PR_SHED,
   Reg.PR_SHED_BODY, Reg.PR_GAP, Reg.PR_STAT_DROPPING, Reg.PR_STAT_PCIE_ERR, Reg.LB_BASE_ADDR, Reg.LB_CFG_EN,
   Reg.LB_CFG_SLOG2, Reg.LB_CFG_CPL_RING, Reg.LB_CFG_DEPTH, Reg.LB_PROD, Reg.LB_CONS, Reg.LB_DONE,
   Reg.LB_BAD, Reg.LB_STAT_PCIE_ERR]

def flds_mem : List Fld :=
  [Reg.MEM_NOTICE_BITS, Reg.MEM_NOTICE_EN_BITS, Reg.MEM_NOTICE_VEC_VEC, Reg.MEM_SRAM_CE_COUNT,
   Reg.MEM_SRAM_UE_COUNT, Reg.MEM_SRAM_LAST_WHERE, Reg.MEM_SRAM_LAST_INDEX, Reg.MEM_MRAM_CE_COUNT,
   Reg.MEM_MRAM_UE_COUNT, Reg.MEM_MRAM_LAST_VALID, Reg.MEM_MRAM_LAST_ADDR, Reg.MEM_SCRUB_SRAM,
   Reg.MEM_SCRUB_DRAM, Reg.MEM_CH_STAT_TRAINED, Reg.MEM_CH_STAT_LOST, Reg.MEM_CH_STAT_RETAINED,
   Reg.MEM_CH_STAT_REGISTERED, Reg.MEM_CH_STAT_GIB, Reg.MEM_CH_CE_COUNT, Reg.MEM_CH_UE_COUNT,
   Reg.MEM_CH_LAST_LO_ADDR, Reg.MEM_CH_LAST_HI_UE, Reg.MEM_CH_LAST_HI_ADDR, Reg.MEM_CH_PATROL_PCT]

def flds_pwr : List Fld :=
  [Reg.PWR_NOTICE_BITS, Reg.PWR_NOTICE_EN_BITS, Reg.PWR_NOTICE_VEC_VEC, Reg.PWR_SRT_STATE,
   Reg.PWR_SRT_FENCE_FENCE, Reg.PWR_SRT_POLICY_SLEEP_MIN, Reg.PWR_SRT_POLICY_NAP_IDLE,
   Reg.PWR_SRT_POLICY_DEEPEST, Reg.PWR_WAKE_LEAD, Reg.PWR_SRT_CLK_MHZ, Reg.PWR_TJ_HOT, Reg.PWR_TJ_TJ,
   Reg.PWR_TJ_PEAK_PEAK, Reg.PWR_THERM_WARN_C, Reg.PWR_THERM_CRIT_C, Reg.PWR_THERM_HYST, Reg.PWR_THERM_CRIT,
   Reg.PWR_THERM_WARN, Reg.PWR_SUPPLY_LOW_SEEN, Reg.PWR_SUPPLY_HIGH_SEEN, Reg.PWR_SUPPLY_OUT,
   Reg.PWR_TRIP_EN, Reg.PWR_TRIP_LEVEL, Reg.PWR_TRIP_PIN, Reg.PWR_I2C_CTL_GO, Reg.PWR_I2C_CTL_BUS,
   Reg.PWR_I2C_CTL_READ, Reg.PWR_I2C_CTL_PEC, Reg.PWR_I2C_CTL_STATUS, Reg.PWR_I2C_CTL_ADDR,
   Reg.PWR_I2C_CTL_CMD, Reg.PWR_I2C_CTL_LEN, Reg.PWR_I2C_DATA_DATA, Reg.PWR_I2C_CFG_SNS_400,
   Reg.PWR_I2C_CFG_PMB_400]

def flds_msix : List Fld :=
  [Reg.MSIX_TABLE, Reg.MSIX_CTRL, Reg.MSIX_PBA]

def flds_staba : List Fld :=
  [Reg.STAB_STATE, Reg.STAB_PINNED, Reg.STAB_KIND, Reg.STAB_TCP, Reg.STAB_PORTS_SEEN, Reg.STAB_REQ_FRANK,
   Reg.STAB_CFGCNT, Reg.STAB_IDLE_RI, Reg.STAB_BLK, Reg.STAB_RATE, Reg.STAB_FR_IDCODE, Reg.STAB_PMU_IDCODE,
   Reg.STAB_SRC, Reg.STAB_SRC_PORT, Reg.STAB_VLAN, Reg.STAB_LETTERS, Reg.STAB_DEAD, Reg.STAB_LAST_DEAD,
   Reg.STAB_LAST_SEC, Reg.STAB_LAST_NS, Reg.STAB_IDLE_CNT, Reg.STAB_CAND, Reg.STAB_GEN, Reg.STAB_Q,
   Reg.STAB_M, Reg.STAB_D, Reg.STAB_LATE, Reg.STAB_DUP, Reg.STAB_OFFGRID, Reg.STAB_STALE, Reg.STAB_LAST_L,
   Reg.STAB_MAX_L, Reg.STAB_SEEDED, Reg.STAB_PIN, Reg.STAB_PIN_SRT, Reg.STAB_HOME, Reg.STAB_FALLBACK,
   Reg.STAB_BUNDLE, Reg.STAB_LOAD, Reg.STAB_MOVES]
def flds_stabb : List Fld :=
  [Reg.STAB_STEALS, Reg.STAB_LAST_MOVE]
def flds_stab : List Fld := flds_staba ++ flds_stabb

def flds_desc : List Fld :=
  [Reg.DESC_VALID, Reg.DESC_KIND, Reg.DESC_ORIGIN, Reg.DESC_PH_FLOAT, Reg.DESC_PH_POLAR, Reg.DESC_AN_FLOAT,
   Reg.DESC_FR_FLOAT, Reg.DESC_QUAL, Reg.DESC_TRUNC, Reg.DESC_FNOM50, Reg.DESC_CFGCNT, Reg.DESC_PHNMR,
   Reg.DESC_ANNMR, Reg.DESC_DGNMR, Reg.DESC_BLK, Reg.DESC_BLK_OFS, Reg.DESC_BLK_LEN, Reg.DESC_FRAMESIZE,
   Reg.DESC_RATE, Reg.DESC_FR_IDCODE, Reg.DESC_PMU_IDCODE, Reg.DESC_GEN, Reg.DESC_TIME_BASE, Reg.DESC_CHECK,
   Reg.DESC_PHSCALE, Reg.DESC_ANSCALE, Reg.DESC_DIGUNIT]

def flds_lstaba : List Fld :=
  [Reg.LSTAB_STATE, Reg.LSTAB_PINNED, Reg.LSTAB_KIND, Reg.LSTAB_TCP, Reg.LSTAB_PORTS_SEEN,
   Reg.LSTAB_REQ_FRANK, Reg.LSTAB_CFGCNT, Reg.LSTAB_IDLE_RI, Reg.LSTAB_BLK, Reg.LSTAB_RATE,
   Reg.LSTAB_FR_IDCODE, Reg.LSTAB_PMU_IDCODE, Reg.LSTAB_SRC, Reg.LSTAB_SRC_PORT, Reg.LSTAB_VLAN,
   Reg.LSTAB_LETTERS, Reg.LSTAB_DEAD, Reg.LSTAB_LAST_DEAD, Reg.LSTAB_LAST_SEC, Reg.LSTAB_LAST_NS,
   Reg.LSTAB_IDLE_CNT, Reg.LSTAB_CAND, Reg.LSTAB_GEN, Reg.LSTAB_Q, Reg.LSTAB_M, Reg.LSTAB_D, Reg.LSTAB_LATE,
   Reg.LSTAB_DUP, Reg.LSTAB_OFFGRID, Reg.LSTAB_STALE, Reg.LSTAB_LAST_L, Reg.LSTAB_MAX_L, Reg.LSTAB_SEEDED,
   Reg.LSTAB_PIN, Reg.LSTAB_PIN_SRT, Reg.LSTAB_HOME, Reg.LSTAB_FALLBACK, Reg.LSTAB_BUNDLE, Reg.LSTAB_LOAD,
   Reg.LSTAB_MOVES]
def flds_lstabb : List Fld :=
  [Reg.LSTAB_STEALS, Reg.LSTAB_LAST_MOVE]
def flds_lstab : List Fld := flds_lstaba ++ flds_lstabb

def flds_memb : List Fld :=
  [Reg.WHL_MEMB_ACTIVE, Reg.WHL_MEMB_SHADOW, Reg.WHL_MEMB_SHADOW_LOCAL]

def flds_srtrows : List Fld :=
  [Reg.SRT_ITEMS, Reg.SRT_BUSY, Reg.SRT_STOLEN_IN, Reg.SRT_STOLEN_OUT, Reg.SRT_WAKES, Reg.SRT_CANCELLED,
   Reg.SRT_MAX_WAIT, Reg.SRT_LOAD_PCT, Reg.SRT_HOMED, Reg.SRT_MIGR_IN, Reg.SRT_MIGR_OUT, Reg.SRT_DEPTH]

def flds_chan : List Fld :=
  [Reg.CH_VALID, Reg.CH_ROLE, Reg.CH_KIND, Reg.CH_GROUP, Reg.CH_SID, Reg.CH_IDX_A, Reg.CH_IDX_B,
   Reg.CH_MULT3, Reg.CH_NORM, Reg.CH_CHECK, Reg.CH_ACTIVE, Reg.CH_STALE, Reg.CH_CH_SETTLING, Reg.CH_POS,
   Reg.CH_MEAN, Reg.CH_RMS]

def flds_page : List Fld :=
  [Reg.PAGE_WORD]

def flds_branch : List Fld :=
  [Reg.BR_VALID, Reg.BR_SID, Reg.BR_V_IDX, Reg.BR_I_IDX, Reg.BR_MULT3, Reg.BR_INVERT, Reg.BR_FROM_BUS,
   Reg.BR_TO_BUS, Reg.BR_CHECK]

def flds_brres : List Fld :=
  [Reg.BRRES_DEF, Reg.BRRES_PAMP, Reg.BRRES_RANK, Reg.BRRES_RVALID, Reg.BRRES_EPOCHS, Reg.BUS_VALID,
   Reg.BUS_LABEL, Reg.BUS_NET]

def flds_amdef : List Fld :=
  [Reg.AM_VALID, Reg.AM_RND, Reg.AM_AW_BASE, Reg.AM_AW_MASK, Reg.AM_CHECK, Reg.AM_IN_SRC, Reg.AM_IN_CMP,
   Reg.AM_IN_UNK, Reg.AM_IN_SEL, Reg.AM_IN_SET, Reg.AM_IN_CLR, Reg.AM_ST_OUT, Reg.AM_ST_SEV, Reg.AM_ST_LATCH,
   Reg.AM_ST_ACK_NEXT, Reg.AM_ST_DWELL_MS, Reg.AM_NEXT0,
   Reg.AM_NEXT1, Reg.AM_NEXT2, Reg.AM_NEXT3]

def flds_amrt : List Fld :=
  [Reg.SITE_VALID, Reg.SITE_PIN, Reg.SITE_PIN_CG, Reg.SITE_SID, Reg.SITE_CHECK, Reg.SITE_ASSIGNED,
   Reg.SITE_PRESENT, Reg.SITE_STALE, Reg.SITE_CG, Reg.SITE_COS, Reg.AMR_RUN, Reg.AMR_INHIBIT,
   Reg.AMR_ACK_PEND, Reg.AMR_TEST_ENTRY, Reg.AMR_STATE, Reg.AMR_OUT, Reg.AMR_INPUTS, Reg.AMR_UNKNOWN,
   Reg.AMR_ENTRY_SEC, Reg.AMR_ENTRY_NS, Reg.AMR_STEPS, Reg.AMR_CHANGES]

def flds_isltab : List Fld :=
  [Reg.SITE_VALID, Reg.SITE_PIN, Reg.SITE_PIN_CG, Reg.SITE_SID, Reg.SITE_CHECK, Reg.SITE_ASSIGNED,
   Reg.SITE_PRESENT, Reg.SITE_STALE, Reg.SITE_CG, Reg.SITE_COS, Reg.TIE_VALID, Reg.TIE_OPEN_IS_1,
   Reg.TIE_WORD, Reg.TIE_BIT, Reg.TIE_SID, Reg.TIE_SITE_A, Reg.TIE_SITE_B, Reg.TIE_CHECK, Reg.TIE_AGE_RI,
   Reg.TIE_STATUS, Reg.CG_VALID, Reg.CG_STATE, Reg.CG_CONFIRMED, Reg.CG_BKR_OPEN, Reg.CG_PINNED,
   Reg.CG_SITES, Reg.CG_PRESENT, Reg.CG_TIES, Reg.CG_COUNT, Reg.CG_TIES_OPEN, Reg.CG_F, Reg.CG_R, Reg.CG_DF,
   Reg.CG_DR, Reg.CG_SINCE_SEC, Reg.CG_SINCE_NS]

def flds_curve : List Fld :=
  [Reg.CURVE_VALID, Reg.CURVE_NPTS, Reg.CURVE_OFFSET, Reg.CURVE_GAIN0, Reg.CURVE_DELAY_NS, Reg.CURVE_CHECK,
   Reg.CURVE_AMP, Reg.CURVE_GRATIO, Reg.CURVE_PHASE, Reg.SCURVE_VALID, Reg.SCURVE_NPTS, Reg.SCURVE_OFFSET,
   Reg.SCURVE_GAIN0, Reg.SCURVE_DELAY_NS, Reg.SCURVE_CHECK, Reg.SCURVE_AMP, Reg.SCURVE_GRATIO,
   Reg.SCURVE_PHASE]

def flds_hist : List Fld :=
  [Reg.NRG_HIST]

def flds_logwin : List Fld :=
  [Reg.LOG_WINDOW, Reg.LOG_GASP]

/-- The fields that lie in the 64 KiB region with the given number (bits [23:16] of the offset), R536. -/
def regionFields (r : Nat) : List Fld :=
  if r = 0x0 then flds_glb else
  if r = 0x1 then flds_strt else
  if r = 0x2 then flds_tb else
  if r = 0x3 then flds_bkd else
  if r = 0x4 then flds_net else
  if r = 0x5 then flds_adm else
  if r = 0x6 then flds_whl else
  if r = 0x7 then flds_sof else
  if r = 0x8 then flds_plc else
  if r = 0x9 then flds_osc else
  if r = 0xa then flds_isl else
  if r = 0xb then flds_alm else
  if r = 0xc then flds_acq else
  if r = 0xd then flds_nrg else
  if r = 0xe then flds_cap else
  if r = 0xf then flds_cmp else
  if r = 0x10 then flds_pair else
  if r = 0x11 then flds_key else
  if r = 0x12 then flds_nvs else
  if r = 0x13 then flds_log else
  if r = 0x14 then flds_hif else
  if r = 0x15 then flds_mem else
  if r = 0x16 then flds_pwr else
  if r = 0x17 then flds_msix else
  if 0x40 ≤ r ∧ r ≤ 0x7f then flds_stab else
  if 0x80 ≤ r ∧ r ≤ 0xbf then flds_desc else
  if r = 0xc0 then flds_lstab else
  if 0xc1 ≤ r ∧ r ≤ 0xd0 then flds_memb else
  if r = 0xd1 then flds_srtrows else
  if 0xd2 ≤ r ∧ r ≤ 0xd3 then flds_chan else
  if 0xd4 ≤ r ∧ r ≤ 0xf3 then flds_page else
  if r = 0xf4 then flds_branch else
  if r = 0xf5 then flds_brres else
  if 0xf6 ≤ r ∧ r ≤ 0xf9 then flds_amdef else
  if r = 0xfa then flds_amrt else
  if r = 0xfb then flds_isltab else
  if r = 0xfc then flds_curve else
  if r = 0xfd then flds_hist else
  if r = 0xfe then flds_logwin else
  []

/-- The fields of the word at a byte offset of BAR0; none where the offset is unassigned (R9). -/
def fieldsAt (off : Nat) : List Fld := (regionFields (off / 0x10000)).filter fun f => f.covers off

/-- The reset value of the word at an offset, all its fields together. -/
def resetWord (off : Nat) : BitVec 32 :=
  BitVec.ofNat 32 ((fieldsAt off).foldl (fun a f => a + f.reset * 2 ^ f.lo) 0)

end Sys2Proof.Machine
end

