-- ==== Sys2Proof/Machine/State.lean ====
section
/-! DEFINITION. The state of the block as plain data, the reasons a step may stop, and the state after reset. BAR0 is one
sparse store of words; each sub-structure holds what the spec gives a block beside its registers. -/
namespace Sys2Proof.Machine

/-! ### Logbook (R480 to R490) -/

/-- An event on its way to the Logbook (R480, R481, R484): what happened, when, and how often it repeated while staged. -/
structure LogEv where
  src : Nat
  code : Nat
  d0 : Nat
  d1 : Nat
  d2 : Nat
  d3 : Nat
  flags : Nat
  mode : Nat
  tq : Nat
  t : Time
  rep : Nat
  last : Time
  deriving DecidableEq, Repr

/-- A Logbook record (R480). CHECK and RCHECK are functions of the other fields; `ok` and `rok` say whether they pass. -/
structure LogRec where
  seq : Nat
  lost : Nat
  cycle : Nat
  ev : LogEv
  ok : Bool
  rok : Bool
  deriving DecidableEq, Repr

/-- A copy of the operating counters (R470, R487): sequence number, whether its CRC-32C passes, OPSEC and CYCLES. -/
structure OpCopy where
  seq : Nat
  ok : Bool
  opsec : Nat
  cycles : Nat
  deriving DecidableEq, Repr

/-- The Logbook's state beside its registers: the staging queue, the events lost since the last record, the records held
in MRAM (oldest first), the last-gasp sector, the last record's REPEAT and LAST while they await their rewrite, whether
it repeated since it was written, the record of a CLEAR that comes next, whether the seal drives its GPIO, both copies of the
operating counters, and up to when LOG_OPSEC has counted. -/
structure LogSt where
  stage : List LogEv
  lostSince : Nat
  recs : List LogRec
  gasp : List LogRec
  live : Option (Nat × Time)
  repd : Bool
  clearEv : Option LogEv
  gpioSeal : Bool
  opA : OpCopy
  opB : OpCopy
  opsecT : Time
  wrapSeen : Bool
  rewAt : Option Time
  deriving DecidableEq, Repr

/-- The Logbook before anything was logged. -/
def LogSt.reset : LogSt := ⟨[], 0, [], [], none, false, none, false, ⟨0, true, 0, 0⟩, ⟨0, true, 0, 0⟩, 0, false, none⟩

/-! ### What leaves the device -/

/-- A message body on the wire. Frames of C37.118.2 carry their octets; PTP, GOOSE and neighbour messages carry the fields
the spec gives them. -/
inductive TxBody where
  | c37 (v6 : Bool) (dst : Nat) (dport : Nat) (bytes : List Byte)
  | tcp (conn : Nat) (bytes : List Byte)
  | tcpOpen (conn : Nat) (addr : Nat) (v6 : Bool) (dport window mss : Nat)
  | tcpClose (conn : Nat)
  | arpReply (addr : Nat) (dst : Nat)
  | groupReport (v6 : Bool) (addr : Nat)
  | echoReply (dst : Nat) (bytes : List Byte)
  | pdelayReq (domNum : Nat) (t : Time)
  | pdelayResp (domNum : Nat) (t2 : Time)
  | pdelayFollowUp (domNum : Nat) (t3 : Time)
  | goose (appid : Nat) (dmac : Nat) (vlan : Option Nat) (goId gocbRef datSet : List Byte) (ttl : Nat) (t : Time) (tq : Bool × Bool × Nat)
      (stNum sqNum confRev : Nat) (test simulation ndsCom : Bool) (members : List (Bool × Option Nat))
  | rgoose (appid : Nat) (dst : Nat) (v6 : Bool) (udp : Nat) (keyId alg spdu : Nat) (tag : List Byte) (goId gocbRef datSet : List Byte)
      (ttl : Nat) (t : Time) (tq : Bool × Bool × Nat) (stNum sqNum confRev : Nat) (test simulation ndsCom : Bool)
      (members : List (Bool × Option Nat))
  deriving DecidableEq, Repr

/-- A frame for transmission (R98, R100): priority class 0 PTP, 1 alarm, 2 a Round's C37.118.2
frames, 3 everything else, which shares the third priority; PCP; VLAN tag if any; PRP trailer
(LAN B, sequence number) if the port is paired; the shed time and the Round of a data frame; whether TX_FRAMES already counts
it. -/
structure TxFrame where
  port : Nat
  cls : Nat
  pcp : Nat
  vlan : Option Nat
  prp : Option (Bool × Nat)
  shedAt : Option (Time × Nat × Nat)
  counted : Bool
  body : TxBody
  deriving DecidableEq, Repr

/-- A message for the Prourn Link (R409). A DISPATCH takes the record of R164 and the active table's members beside its decision, a
CATCHUP the octets of its data. -/
inductive PlkMsg where
  | hello (digest : Nat) (pref : Bool) (mac : Nat)
  | switchOffer (k : Nat)
  | switchAccept (k : Nat)
  | switchRefuse
  | fwdOn (sid : Nat)
  | fwdOff (sid : Nat)
  | dispatch (rec_ : List Byte) (members : List Nat) (d : PlkDispatch)
  | copy (c : CopyFrame)
  | fwd (l : Letter)
  | fetch (m : FetchMsg)
  | relSlot (rnd seq : Nat)
  | relPub (q st sq : Nat)
  | digest (isl : Bool) (group n crc : Nat)
  | catchup (isl : Bool) (group epoch : Nat) (data : List Byte)
  | rxmap (sids : List Nat)
  deriving DecidableEq, Repr

/-- A frame of the Prourn Link (R408): TYPE, LAST, SEQ and the payload. -/
structure PlkFrame where
  typ : Nat
  last : Bool
  seq : Nat
  payload : List Byte
  deriving DecidableEq, Repr

/-- One thing the device did towards its surroundings, in order: the model's own record of its outputs (log entry 7). -/
inductive Output where
  | frame (f : TxFrame)
  | looped (f : TxFrame)
  | msix (vec : Nat)
  | ringItem (ring : Nat) (desc : List Word) (data : List Byte)
  | hostWrite (addr : Nat) (bytes : List Byte)
  | steer (pfxBits pfx codeBits code : Nat)
  | heartbeat (pathB : Bool) (word : Nat)
  | plk (lane : Nat) (bytes : List Byte)
  | i2c (pmb : Bool) (addr cmd len : Nat) (read pec : Bool) (data : Nat)
  | readData (w : Word)
  | flashOp (erase : Bool) (offset len : Nat)
  deriving DecidableEq, Repr

/-! ### Sorting Office (R181 to R207) -/

/-- What a work item does (R181): its function code and inputs. -/
inductive Work where
  | file (l : Letter) (fwd : Bool)
  | derive_ (rnd n : Nat) (ls : List Letter)
  | format (rnd n : Nat) (ls : List Letter)
  | group (g rnd n : Nat) (ls : List Letter) (adds : List Letter) (tk : Time)
  | defUpd (rnd n : Nat) (ls : List Letter) (tk : Time)
  | coherency (n : Nat) (ls : List Letter) (tk : Time)
  | separation (n : Nat) (ls : List Letter) (tk : Time)
  | machine (m rnd n : Nat) (ls : List Letter) (tk : Time)
  | clustering
  | local_ (n : Nat)
  | letterbox (m : Nat) (cmd : List Byte) (res : Option (List Byte))
  | completion (m : Nat) (bytes : List Byte)
  | ringWrite (src sel info : Nat) (bytes : List Byte)
  | kat (srt : Nat)
  | housekeep (kind : Nat)
  deriving DecidableEq, Repr

/-- One work item: identity, flow, class, work, the sorter and pigeonhole (home or guest) it waits in or runs on, its
enqueue time, release slot if its flow is ordered, the instant of its mailbag if it may expire, how far it is, when it was
put into service, and since when it stands in its pigeonhole as a ready token (R185; none while it waits in its flow's own
queue, or is held). -/
structure Item where
  key : Nat
  flow : Nat
  cls : Nat
  work : Work
  srt : Nat
  guest : Bool
  enq : Time
  slot : Option (Nat × Nat)
  instant : Option Time
  serving : Bool
  ran : Bool
  again : Bool
  held : Bool
  since : Time
  ready : Option Time
  deriving DecidableEq, Repr

/-- A sorter's state beside its registers: a wake in progress (since, state left, whether scheduled, predicted first
arrival), items since the last forced class 3 turn, whether it must run the known-answer test, its busy spans of the last
second, each from its start to its end, and when it last fell idle (R20, R21, R188, R193, R201, R220). -/
structure SrtHid where
  waking : Option (Time × Nat × Option Time)
  c3 : Nat
  kat : Bool
  recent : List (Time × Time)
  idle : Time
  deriving DecidableEq, Repr

/-- One block of a combined frame (R168, R170): its values in order, and its digital words. -/
structure Blk where
  sid : Nat
  stat : Nat
  vals : List Word
  dg : List Nat
  deriving DecidableEq, Repr

/-- A formatted data frame, before the overlay of R301: IDCODE, SOC, FRACSEC with its time quality, and the blocks. -/
structure OutFrame where
  idcode : Nat
  soc : Nat
  fracsec : Nat
  blks : List Blk
  deriving DecidableEq, Repr

/-- A release slot of a Round (R191): its dispatch sequence, instant count, dispatch time, items not yet ended, how many
completed, whether it was forced, the frame to emit, and the dispatch record and body for the host ring. -/
structure RelSlot where
  seq : Nat
  n : Nat
  dsp : Time
  pending : Nat
  completed : Nat
  forced : Bool
  frame : Option OutFrame
  ring : Option (List Byte × List Byte)
  deriving DecidableEq, Repr

/-- A scheduled or running move of a flow between sorters (R200). -/
structure Move where
  flow : Nat
  dst : Nat
  started : Bool
  copying : Bool
  deriving DecidableEq, Repr

/-- A letter that a port's receive buffer holds because staging is full (R184, R207): the letter, whether it came over the pair
link, and the octets of the frame that brought it, charged to the frame's first held letter. -/
structure HeldLetter where
  letter : Letter
  fwd : Bool
  octets : Nat
  deriving DecidableEq, Repr

/-- The Sorting Office beside its registers: the item pool; sorters; homes and fallbacks of flows that have no register for
them; the active set; moves scheduled and under way, and when flows last moved; affinities of bundles in units of 2^-16,
averaged loads, cycles used since they were last averaged and the second of that; the second of the last pass; pinned flows whose loss was noticed;
overloaded sorters; trace records not yet handed over and records taken; dead-letter samples of the present second; letters
that wait for staging, and the port and stamp of the frame last lost for want of it; the CRC-32C stored with the affinity and load
tables (R222); the sorter clock in force, MHz (R50). -/
structure SofSt where
  items : List Item
  nextId : Nat
  srts : List (Nat × SrtHid)
  homes : List (Nat × Nat)
  fallbacks : List (Nat × Nat)
  active : List Nat
  moves : List Move
  movedAt : List (Nat × Time)
  aff : List ((Nat × Nat) × Nat)
  loads : List (Nat × Nat)
  used : List (Nat × Nat)
  loadSec : Nat
  lastPass : Nat
  pinLost : List (Nat × Nat)
  rebalance : List Nat
  trace : List (List Byte)
  traceN : Nat
  smpSec : Nat
  smpCnt : List (Nat × Nat)
  overflow : List HeldLetter
  lostFrame : Option (Nat × Time)
  tabCrc : Nat
  clk : Nat
  deriving DecidableEq, Repr

/-- The Sorting Office with nothing to do. -/
def SofSt.reset : SofSt := ⟨[], 0, [], [], [], [], [], [], [], [], [], 0, 0, [], [], [], 0, 0, [], [], none, 0, 1400⟩

/-! ### Host interface (R208 to R218) -/

/-- A poste restante ring's counts that have no register: items offered, descriptors not yet notified, and since when. -/
structure RingHid where
  seq : Nat
  unnot : Nat
  first : Time
  deriving DecidableEq, Repr

/-- The host interface beside its registers: ring counts, the device's MSI-X Enable, the counter latch with the offset it
stands for (R539), and per letterbox ring the commands still outstanding from before its last enable. -/
structure HifSt where
  rings : List (Nat × RingHid)
  msixEn : Bool
  latch : Word
  latchAddr : Option Nat
  lbOld : List (Nat × Nat)
  deriving DecidableEq, Repr

/-- The host interface before any ring is enabled. -/
def HifSt.reset : HifSt := ⟨[], false, 0#32, none, []⟩

/-! ### Network ports and admission (R92 to R139) -/

/-- A port beside its registers; `pausedAt` is when its present pause began (R99), `stamp` the last arrival stamp that its stage 6
passed (R156). -/
structure PortSt where
  queue : List TxFrame
  prios : List Nat
  paused : Bool
  cut : Bool
  failed : Bool
  restoring : Option Time
  echoSec : Nat
  echoCnt : Nat
  lost : Bool
  pausedAt : Time
  stamp : Time
  deriving DecidableEq, Repr

/-- Identity of an IP fragment's datagram. -/
structure FragCtx where
  v6 : Bool
  src : Nat
  dst : Nat
  ident : Nat
  total : Option Nat
  parts : List (Nat × List Byte)
  port : Nat
  vlan : Option Nat
  start : Time
  deriving DecidableEq, Repr

/-- A PRP node table entry (R96). -/
structure PrpEnt where
  mac : Nat
  pair : Nat
  seq : Nat
  lanB : Bool
  t : Time
  deriving DecidableEq, Repr

/-- A stream connection the device keeps as a TCP client (R106, R107). -/
structure Conn where
  key : Nat
  addr : Nat
  v6 : Bool
  dport : Nat
  port : Nat
  up : Bool
  fails : Nat
  waiting : Bool
  buf : List Byte
  failAt : Time
  deriving DecidableEq, Repr

/-- The network ports beside their registers; `groups` are the multicast groups joined, per port (R93). -/
structure NetSt where
  ports : List (Nat × PortSt)
  frags : List FragCtx
  prp : List PrpEnt
  prpSeq : List (Nat × Nat)
  prpFullAt : Option Time
  conns : List Conn
  groups : List (Nat × Bool × Nat)
  deriving DecidableEq, Repr

/-- The ports before any frame. -/
def NetSt.reset : NetSt := ⟨[], [], [], [], none, [], []⟩

/-- State of a sender in the cache (R119): 0 admitted, 1 awaiting configuration, 2 pending host, 3 quarantined, 4 refused. -/
inductive SenderSt where
  | admitted | awaiting | pending | quarantined | refused
  deriving DecidableEq, Repr

/-- An entry of the sender cache (R119, R120): what identifies the sender, its state, and what its service needs; `parts` is what has come of
a CFG-3 frame in parts, with the number of the last. -/
structure Sender where
  key : Nat
  kind : Nat
  conn : Option Nat
  vlan : Nat
  src : Nat
  v6 : Bool
  ident : Nat
  sport : Nat
  port : Nat
  st : SenderSt
  sids : List (Nat × Nat)
  reqFrank : Bool
  idleRi : Nat
  entry : Option Nat
  since : Time
  reqN : Nat
  reqLast : Option Time
  firstDead : Option Time
  refLog : Option Time
  frankLog : Option Time
  keyId : Option Nat
  badRate : Bool
  parts : Option (Nat × List Byte)
  deriving DecidableEq, Repr

/-- A candidate descriptor of a stream (R109): its 64 words, whether STAT bit 10 was seen since it was built, and the block's phasors,
analogs and digital words, which the words hold saturated. -/
structure Cand where
  sid : Nat
  words : List Word
  seen10 : Bool
  counts : Nat × Nat × Nat
  deriving DecidableEq, Repr

/-- A franked stream's replay window (R116): key ID and which of its keys, highest number accepted, and the set of the 64 below it as bits. -/
structure Replay where
  sender : Nat
  keyId : Nat
  gen : Nat
  high : Nat
  seen : Nat
  deriving DecidableEq, Repr

/-- When the present 10 s window of franking failures of a sender with no cache entry began (R118). -/
structure FrankMark where
  conn : Option Nat
  vlan : Nat
  src : Nat
  v6 : Bool
  ident : Nat
  c37 : Bool
  t : Time
  deriving DecidableEq, Repr

/-- Admission beside its registers. `freedAt` holds when a SID was retired and, from then on, when it became free; `dropAt` the
senders without a SID that leave at the next RND0 boundary (R124); `cleared`, per SID, the IDLE_CNT that its last letter cleared
and that letter's arrival stamp (R123); `shapes`, per SID, the phasors, analogs and digital words of a block whose descriptor a
configuration frame built (R111). -/
structure AdmSt where
  senders : List Sender
  nextId : Nat
  cands : List Cand
  replay : List Replay
  freedAt : List (Nat × Time)
  hold : List (Nat × Letter)
  retireAt : List Nat
  deadPort : List (Nat × Nat)
  frankMarks : List FrankMark
  dropAt : List Nat
  cleared : List (Nat × Nat × Time)
  shapes : List (Nat × Nat × Nat × Nat)
  deriving DecidableEq, Repr

/-- Admission with an empty sender cache. -/
def AdmSt.reset : AdmSt := ⟨[], 0, [], [], [], [], [], [], [], [], [], []⟩

/-! ### Postmark Wheel and Rounds (R140 to R175) -/

/-- A filed slot of the wheel (R143): the stream, its instant count, the letter, whether a duplicate was counted. -/
structure WSlot where
  sid : Nat
  tag : Nat
  letter : Letter
  dup : Bool
  deriving DecidableEq, Repr

/-- A mailbag not yet dispatched (R154, R155): its instant count, time and deadline, and its close if decided: the stamp and
whether by quorum. -/
structure Mailbag where
  n : Nat
  tk : Time
  dk : Nat
  clamp : Bool
  close : Option (Time × Bool)
  deriving DecidableEq, Repr

/-- A Round beside its registers: open mailbags, the last instant dispatched, addenda, counts since the last dispatch,
dispatch sequence, absences and lapses of essential members, release window, announcing commit, command gate, RWL values
that wait for the next boundary (R169), members that lost their SID while a change of layout is announced (R153), the
letters of the last mailbags that a partner may fetch (R414), and of the last mailbags dispatched, by instant count, the first
48 bytes of the dispatch record (R205) and the close, with whether it was by quorum (R159). -/
structure RndSt where
  bags : List Mailbag
  last : Option Nat
  adds : List Letter
  lateN : Nat
  dupN : Nat
  seq : Nat
  absent : List (Nat × Nat)
  lapsed : List Nat
  inelig : List Nat
  slots : List RelSlot
  applyAt : Option Time
  gate : Bool
  gateSrc : Option (Bool × Nat × Nat × Nat)
  pendCfg : List (Nat × Word)
  barred : List Nat
  sent : List (Nat × List Letter)
  recs : List (Nat × List Byte)
  closes : List (Nat × Time × Bool)
  deriving DecidableEq, Repr

/-- The wheel and the Rounds beside their registers, whether an RND0 instant has passed since the device began to process
streams (R174), and which Rounds contributed to which bits of WHL_NOTICE, as (bit, Round) (R180). -/
structure WhlSt where
  wheel : List WSlot
  rnds : List (Nat × RndSt)
  started : Bool
  contrib : List (Nat × Nat)
  deriving DecidableEq, Repr

/-- An empty wheel. -/
def WhlSt.reset : WhlSt := ⟨[], [], false, []⟩

/-! ### Timebase (R51 to R91) -/

/-- One sample of a domain: the unsteered oscillator's time, in 2^-16 ns, and ψ scaled by 65,536 × 10^9 (R60). -/
structure PsiSample where
  t : Int
  psi : Int
  deriving DecidableEq, Repr

/-- A master heard (R60): its last Announce, the intervals of it counted from `first` that each had an Announce, up to number `idx`,
and when it was heard last. -/
structure Heard where
  ann : Announce
  idx : Nat
  first : Time
  last : Time
  deriving DecidableEq, Repr

/-- A PTP domain beside its registers (R58 to R61): masters heard, the chosen
master, the last 16 samples, consecutive samples on and off the line, per-port path delay. -/
structure DomSt where
  masters : List Heard
  chosen : Option Announce
  psis : List PsiSample
  onLine : Nat
  offLine : Nat
  theta : Int
  pdelay : List (Nat × Int)
  lockAt : Time
  reqAt : Option Time
  deriving DecidableEq, Repr

/-- A domain before any message. -/
def DomSt.reset : DomSt := ⟨[], none, [], 0, 0, 0, [], 0, none⟩

/-- The timebase beside its registers: tick phase and the place of the 8 ns groups (R51), TB_NOW shadow, pending commit with the
second boundary it waits for, the offset that PTP supplies, the servo, applied displacement,
holdover entry, samples since lock, PPS and leap state, disagreement. Frequencies are in 2^-16 ppb. -/
structure TbSt where
  phase : Nat
  grid : Nat
  shadow : Option Time
  commit : Option (Time × Option Time)
  ptpOfs : Int
  f : Int
  integ : Int
  disp : Int
  dispT : Time
  lockN : List Nat
  holdT : Time
  holdUnc : Nat
  unlkT : Time
  dom0 : DomSt
  dom1 : DomSt
  disagree : Bool
  agreeSince : Option Time
  ppsOut : Bool
  leapT : Option (Time × Bool)
  leapEnd : Option Time
  ofsBefore : Int
  ppsAt : Time
  ppsInAt : Time
  bkdAt : Option Time
  deriving DecidableEq, Repr

/-- The timebase before any tick. -/
def TbSt.reset : TbSt := ⟨0, 0, none, none, 0, 0, 0, 0, 0, [], 0, 0, 0, .reset, .reset, false, none, false, none, none, 0, 0, 0, none⟩

/-! ### Strongroom (R439 to R466) -/

/-- A catalogue entry (R444, R466): the words of the slot view that persist, and whether its CHECK passes. -/
structure CatEnt where
  state : Nat
  ktype : Nat
  parent : Option Nat
  depth : Nat
  exp : Nat
  phys : Nat
  keyid : Nat
  gen : Nat
  use : Nat
  notAfter : Nat
  useLimit : Nat
  ok : Bool
  deriving DecidableEq, Repr

/-- A physical slot (R445): its attributes, material and public key, and whether its TAG and its unwrap pass. The wrapped
form under K_W is never seen outside, so the material stands in the clear; `root` is the life-cycle context byte of the
roots it was wrapped under (R440). -/
structure PhysSlot where
  ktype : Nat
  keyid : Nat
  owner : Nat
  gen : Nat
  pub : List Byte
  mat : List Byte
  label : List Byte
  context : List Byte
  root : Nat
  ok : Bool
  deriving DecidableEq, Repr

/-- A copy of the counter table (R451): its sequence number, entries of USE_RES, SPDU_RES and RX_HIGH, and its CRC. -/
structure CtrCopy where
  seq : Nat
  ents : List (Nat × (Nat × Nat × Nat))
  ok : Bool
  deriving DecidableEq, Repr

/-- A slot's counters in SRAM (R450): uses, next SPDU number, highest number accepted, the reserves written to MRAM, and
a reserve advance whose write is pending; and RX_HIGH as the last start took it from MRAM, 0 for a key loaded since (R451). -/
structure KeyRun where
  used : Nat
  spdu : Nat
  rxHigh : Nat
  useRes : Nat
  spduRes : Nat
  pend : Option (Nat × Nat)
  startHigh : Nat
  deriving DecidableEq, Repr

/-- A slot in the key cache (R446, R464). -/
structure KeyCache where
  gen : Nat
  mat : List Byte
  pub : List Byte
  deriving DecidableEq, Repr

/-- The Strongroom: life-cycle fuse, its MRAM region (the certificate chain is `Config.certChain`), the serial number in its
fuses, the key cache and counters in SRAM, the roots the cache was derived under, and the challenge in force with its issue. -/
structure KeySt where
  fuse : Nat
  cat : List (Nat × CatEnt)
  phys : List (Nat × PhysSlot)
  bad : List Nat
  ctrA : CtrCopy
  ctrB : CtrCopy
  serial : Nat
  chalCtr : Nat
  run : List (Nat × KeyRun)
  cache : List (Nat × KeyCache)
  cacheOk : Bool
  cacheRoot : Nat
  chal : Option (List Byte × Time)
  ctrLost : Bool
  deriving DecidableEq, Repr

/-- The Strongroom of a part as made: TEST state, no key in any slot (log entry 21). -/
def KeySt.reset : KeySt := ⟨1, [], [], [], ⟨0, [], true⟩, ⟨0, [], true⟩, 0, 0, [], [], false, 0, none, false⟩

/-! ### Alarm machines and egress (R290 to R302) -/

/-- A publication beside its registers (R299): t of the last change, the interval to the next retransmission in ms, when
that retransmission is due, and the changes collected for mailbags not yet stepped through: Round, instant and t_k. -/
structure PubSt where
  t : Time
  wait : Nat
  next : Time
  due : List (Nat × Nat × Time)
  deriving DecidableEq, Repr

/-- An alarm machine beside its registers: the booleans of its inputs (R292), its entry instant, and whether its definition
was found invalid. -/
structure AmSt where
  b : Nat
  entry : Time
  bad : Bool
  deriving DecidableEq, Repr

/-- Alarms beside their registers: publications, pins held active by MINW_MS, publications refused, the last franking failure
and the last shed of an alarm record (R296, codes 1 and 9), machines, by machine the outputs before its latest steps as (Round,
instant, outputs), newest first, the level of ALM_OE_N, and whether a unit that took over has not yet stepped (R298). -/
structure AlmSt where
  pubs : List (Nat × PubSt)
  pins : List (Nat × Time)
  refused : List Nat
  stdAt : List (Nat × Time)
  ams : List (Nat × AmSt)
  prevOut : List (Nat × List (Nat × Nat × Nat))
  oeN : Bool
  pinsWait : Bool
  deriving DecidableEq, Repr

/-- Alarms before any step; ALM_OE_N is high until it is driven (log entry 22). -/
def AlmSt.reset : AlmSt := ⟨[], [], [], [], [], [], true, false⟩

/-! ### Energy and supply events (R346 to R371) -/

/-- An interval in progress (R357, R358): its start and the quanta in it, metered, unmetered and routed to the test
registers; FLAGS gathered; events begun; billing and test registers at its start; largest and smallest P_T. -/
structure IvAcc where
  start : Time
  idx : Int
  metered : Nat
  missing : Nat
  test : Nat
  flags : Nat
  sags : Nat
  swells : Nat
  intrs : Nat
  base : List Nat
  tbase : List Nat
  pmax : Option Word
  pmin : Option Word
  deriving DecidableEq, Repr

/-- An interval that has ended and whose record is to be written (R358): the accumulators with what stood in the registers
at its last boundary. -/
structure IvDone where
  acc : IvAcc
  stop : Time
  regs : List Nat
  f0 : Nat
  dir : Nat
  deriving DecidableEq, Repr

/-- What an MRAM energy slot keeps of a point (R366): billing registers with their residues, wrap words, the direction
bits, RECSEQ, and the interval in progress. -/
structure NrgKeep where
  bill : List Nat
  wraps : List Word
  adir : Bool
  rdir : Bool
  recSeq : Nat
  iv : Option IvAcc
  deriving DecidableEq, Repr

/-- An MRAM energy slot (R366): its sequence number, both points, and whether its CRC-32C passes. -/
structure NrgSave where
  seq : Nat
  pts : List NrgKeep
  ok : Bool
  deriving DecidableEq, Repr

/-- A supply event in progress (R363 to R365): its start, the channels that crossed, the extreme and its channel, and whether
an interruption lay inside it. -/
structure PqEv where
  start : Time
  chs : Nat
  ext : Word
  extCh : Nat
  nested : Bool
  deriving DecidableEq, Repr

/-- A voltage channel's half-cycle detector (R362): the band-pass's last two inputs and outputs, newest first, the instant of the
last sample, and the last two crossings with their direction (true where positive-going). -/
structure HalfCh where
  xs : List Word := []
  ys : List Word := []
  last : Time := 0
  cross : List (Time × Bool) := []
  deriving DecidableEq, Repr

/-- A point's energy block beside its registers: billing and test registers in units of 2^-16 mWh, the last quantum taken
with the nominal frequency it counts in, the interval in progress and one that awaits its record, unmetered time and
skipped intervals since the previous record, RESTORED, requests that wait for a quantum boundary, the latest Urms(1/2) of
each channel, the supply events in progress by type, the half-cycle detectors by channel, and values that await judgement with
their stamps and channels. -/
structure NrgPt where
  bill : List Nat := List.replicate 16 0
  test : List Nat := List.replicate 16 0
  lastQ : Option (Nat × Nat) := none
  iv : Option IvAcc := none
  ivDone : Option IvDone := none
  gap : Bool := false
  skipped : Nat := 0
  restored : Bool := false
  snapDue : Option Time := none
  snapWraps : List Word := []
  preset : Option (Nat × Nat × Time) := none
  preFlag : Bool := false
  urms : List (Nat × Word) := []
  evs : List (Nat × PqEv) := []
  half : List (Nat × HalfCh) := []
  due : List (Time × Nat × Word) := []
  deriving DecidableEq, Repr

/-- Both energy blocks, whether the CRC-32C over the live registers passes (R368), the second saved last (R366), when the pending
snapshot was asked for (R353), and when SERVICE was entered (R361). -/
structure NrgSt where
  pts : List (Nat × NrgPt) := []
  ok : Bool := true
  savedSec : Nat := 0
  snapAt : Time := 0
  svcAt : Time := 0
  deriving DecidableEq, Repr

def NrgSt.reset : NrgSt := {}

/-! ### Modes and start (R30 to R40, R506 to R534) -/

/-- The mode logic beside GLB_MODE: the pending host request (its target and FORCE), and whether the
sorters are being woken for run entry. -/
structure GlbSt where
  reqTarget : Nat
  reqForce : Bool
  runWake : Bool
  deriving DecidableEq, Repr

def GlbSt.reset : GlbSt := ⟨0, false, false⟩

/-- A copy of the start record (R533): its trailer's SEQ, whether its CRC-32C passes, and its fields. -/
structure StartRec where
  seq : Nat := 0
  ok : Bool := true
  cold : Nat := 0
  warm : Nat := 0
  attempts : Nat := 0
  lockout : Nat := 3
  done : Bool := false
  next : Bool := false
  msrc : Nat := 0
  mfloor : Nat := 0
  mver : Nat := 0
  stableS : Nat := 60
  code : Nat := 0
  sub : Nat := 0
  mhash : List Byte := []
  deriving DecidableEq, Repr

/-- A start and what it keeps (R506 to R533): when the start began; both copies of the start record; the hash of the fixed
function image; the Manifest shadow; the slots still to try in step 6, with the image chosen (2 for the shadow alone) and whether
it came from the shadow; whether a slot's header passed; whether this start was counted, and whether it ends in the lockout after step 5; whether steps 6 and 7 have ended; whether the image in force changed; notices that wait for step 5; the retry's
time; sorters that failed step 8; what the accepted image's START section says; whether a JREPLAY or a kept key cache is
to be reported; the last kick and the last stall reference; a SUBMIT under verification (at start, valid, its challenge's
issue) and the issue of the challenge that the standing authorisation rests on. -/
structure StrtSt where
  began : Time := 0
  recA : StartRec := {}
  recB : StartRec := {}
  fuseHash : List Byte := []
  shadow : List Byte := []
  slots : List Nat := []
  cand : Option (Nat × List Byte × Bool) := none
  code : Nat := 0
  hdrOk : Bool := false
  counted : Bool := false
  imageDone : Bool := false
  dramDone : Bool := false
  changed : Bool := false
  due : List (Nat × Nat × Nat × Nat) := []
  retryAt : Option Time := none
  minSorters : Nat := 1
  autoRun : Bool := false
  stableS : Nat := 60
  svcOpen : Bool := false
  stableSince : Option Time := none
  kick : Time := 0
  stall : Time := 0
  settled : Bool := false
  lockDue : Bool := false
  svcSub : Option (Bool × Bool × Time) := none
  svcAt : Time := 0
  deriving DecidableEq, Repr

def StrtSt.reset : StrtSt := {}

/-! ### Backup domain and memories (R491 to R499, R567, R568) -/

/-- The backup domain beside its registers: the shadow of the clock group (seconds, sub-seconds); when
the present second began; the captured alarm value; an OFF write that waits out its 10 ms; the GO write's staged value
waits in its registers; notices due at the next cold start. -/
structure BkdSt where
  shadow : Option (Nat × Nat) := none
  tickAt : Time := 0
  alarm : Nat := 0
  offAt : Option Time := none
  due : List (Nat × Nat × Nat × Nat) := []
  deriving DecidableEq, Repr

def BkdSt.reset : BkdSt := {}

/-- The memories' error handling: the Manifest's DRAM regions (code, channel, MiB; 1 and 7 are the wheel's halves of even and
odd SIDs), the times of uncorrectable codewords of the last second on each channel (R512, R568), and the I²C transaction
under way: whether it reads, and its data bytes (R598). -/
structure MemSt where
  dram : List (Nat × Nat × Nat) := []
  ue0 : List Time := []
  ue1 : List Time := []
  i2c : Option (Bool × Nat) := none
  deriving DecidableEq, Repr

def MemSt.reset : MemSt := {}

/-! ### MRAM and flash beside the Strongroom and the Logbook (R468 to R479, R531) -/

/-- A journal record (R471, R472): SEQ, owner 1 the settings store (new bank, SEQ) or 2 the Strongroom (logical slot,
old and new physical slot, new entry), and whether committed. -/
inductive JRec where
  | settings (seq : Nat) (committed : Bool) (bank : Nat) (imgSeq : Nat)
  | key (seq : Nat) (committed : Bool) (slot old new : Nat) (ent : CatEnt)
  deriving DecidableEq, Repr

/-- A letterbox operation under way on the flash: its ring, the command's bytes, what it acts on
and its data. -/
structure FlashOp where
  m : Nat
  cmd : List Byte
  erase : Bool
  addr : Nat
  len : Nat
  data : List Byte
  deriving DecidableEq, Repr

/-- MRAM and flash: settings banks, selector (bank, SEQ) or none, open journal records and the next SEQ, operating
counters, energy slots, the flash contents where they differ from its erased value, the flash operation under way, and the
flash slots a write to which was abandoned (R527). -/
structure NvsSt where
  bankA : List Byte
  bankB : List Byte
  sel : Option (Nat × Nat)
  jrn : List JRec
  jseq : Nat
  nrgA : Option NrgSave
  nrgB : Option NrgSave
  flash : List (Nat × Byte)
  fop : Option FlashOp
  taint : List Nat
  deriving DecidableEq, Repr

def NvsSt.reset : NvsSt := ⟨[], [], none, [], 0, none, none, [], none, []⟩

/-! ### The pair (R403 to R435) -/

/-- The partner as its last valid heartbeat word shows it: MODE, DEG, READY, PREF, RND0_SEQ with the time it last changed,
SCORE. -/
structure Partner where
  mode : Nat
  deg : Bool
  ready : Bool
  pref : Bool
  rndSeq : Nat
  rndAt : Time
  score : Nat
  wasActive : Bool
  deriving DecidableEq, Repr

/-- A switchover under way (R429): the instant K, whether this unit offered it, whether it is agreed, why it was started
(5 request, 4 take-back). -/
structure Switch where
  k : Nat
  mine : Bool
  agreed : Bool
  cause : Nat
  deriving DecidableEq, Repr

/-- The outputs of one release slot or of one message, held in STANDBY (R419). -/
inductive Held where
  | slot (rnd : Nat) (s : RelSlot)
  | pub (q st sq : Nat) (b : TxBody)
  deriving DecidableEq, Repr

/-- A mailbag decision received and not yet followed (R414). -/
structure Follow where
  d : PlkDispatch
  since : Time
  fetched : Bool
  checked : Bool
  deriving DecidableEq, Repr

/-- A catch-up under way on the standby (R420, R421): of the islanding tracker or of a group, epochs since it was asked for, and
whether its data has been installed. -/
structure Catching where
  isl : Bool
  which : Nat
  epochs : Nat
  inPlace : Bool
  deriving DecidableEq, Repr

/-- The pair logic beside its registers: the partner; the last valid word on either path; the heartbeat's sequence; the
partner's HELLO (digest, PREF, MAC), whether it differs from this unit's digest, whether one was sent and not answered; JOIN_MS
over; a declaration that awaits its boundary, and whether a declared partner has not been heard since; a switchover; the
revert conditions held; sequence numbers of the two streams, frames received since the last ACK, and the replay store; mirrored writes; held outputs and releases;
mailbags to follow; reception maps and forwarding; what the last COPY held; catch-ups and digests not yet compared; times of
the last automatic switchover and of the last failed test; slots open at the last switchover, and
whether the outputs being formed are of such a slot, emitted in STANDBY or muted in the unit that took the role; since when the
conditions of a revert have held (R430), since when a READY partner's SCORE has been 32 above this unit's (R433), and the latest ARR that the link passed (R156, R413). -/
structure PairSt where
  partner : Option Partner := none
  wordA : Option Time := none
  wordB : Option Time := none
  hbSeq : Nat := 0
  peer : Option (Nat × Bool × Nat) := none
  mismatch : Bool := false
  helloSent : Bool := false
  joinOver : Bool := false
  runAt : Time := 0
  declared : Bool := false
  lost : Bool := false
  switch : Option Switch := none
  revertDue : Bool := false
  txSeq : Nat := 0
  txSeq2 : Nat := 0
  rxSeq : Nat := 0
  rxSeq2 : Nat := 0
  rxCount : Nat := 0
  unacked : List PlkFrame := []
  retries : Nat := 0
  progAt : Time := 0
  mirror : List (Nat × Word × Nat) := []
  held : List Held := []
  rels : List RelMsg := []
  follow : List Follow := []
  rxOwn : List Nat := []
  lastOwn : List Nat := []
  peerMaps : List (List Nat) := []
  isRx : List (Nat × Nat) := []
  fwding : List Nat := []
  peerFwd : List Nat := []
  copied : List (Nat × Nat × List Word) := []
  fullDue : Bool := false
  catching : List Catching := []
  digests : List (Bool × Nat × Nat × Nat) := []
  lastAuto : Option Time := none
  failAt : Option Time := none
  oldSlots : List (Nat × Nat) := []
  emitNow : Bool := false
  muteNow : Bool := false
  fitSince : Option Time := none
  aheadSince : Option Time := none
  stamp : Time := 0
  deriving DecidableEq, Repr

def PairSt.reset : PairSt := {}

/-! ### Analysis (R233 to R289) -/

/-- One instant of a branch (R261): P, Q, θ and ln|V|, where present. -/
abbrev BrSample := Option (Word × Word × Word × Word)

/-- A branch beside its definition (R261): delay line, newest first, each instant's values as the chain takes them with whether
they were present; the last good values, if any; the decimated history, newest first, with whether each sample is present. -/
structure BrSt where
  line : List (Bool × (Word × Word × Word × Word))
  last : Option (Word × Word × Word × Word)
  hist : List (Bool × (Word × Word × Word × Word))
  deriving DecidableEq, Repr

/-- A group's checkpoint (R270): DEFCRC, the CRC-32C over its content, and the content. -/
structure Ckpt where
  defCrc : Nat
  crc : Nat
  grp : GrpSt
  deriving DecidableEq, Repr

/-- Oscillation analysis beside its registers: groups, their checkpoints, the branches, the target of the
dissipating-energy computation (a group, a line or 4 + a slot, and since when it stands), the sample at which the computation
restarted, whether a write of MODE, GROUP or SLOT awaits its epoch (R263), the last instant, sample and epoch of the branches, and
the latest pages each group published, newest first, with their epochs (R293), and each group's decimated samples since its
checkpoint, oldest first (R421), and which groups contributed to which bits of OSC_NOTICE, as (bit, group) (R274). -/
structure OscSt where
  grps : List (Nat × GrpSt)
  ckpts : List (Nat × Ckpt)
  brs : List (Nat × BrSt)
  defN : Option Nat
  defJ : Option Nat
  defEpoch : Nat
  defF : Option Word
  defTarget : Option (Nat × Nat × Nat)
  defStart : Nat
  defDue : Bool
  pages : List (Nat × List (Nat × List Word))
  recent : List (Nat × List DecSample)
  contrib : List (Nat × Nat)
  deriving DecidableEq, Repr

def OscSt.reset : OscSt := ⟨[], [], [], none, none, 0, none, none, 0, false, [], [], []⟩

/-- A coherent group beside its entry (R283, R285, R286): the candidate's first instant, and mailbags in a row it was empty. -/
structure CgSt where
  first : Nat
  empty : Nat
  deriving DecidableEq, Repr

/-- Islanding beside its registers: the tracker, groups, the last complete clustering awaiting application (assignments of
sites with their cosines, centroids), the groups of the last complete clustering by site, the last tested instant,
records offered, t_k of the Round's latest dispatch, and the second for which a clustering was last enqueued or skipped (R279). -/
structure IslSt where
  trk : IslTrk
  cgs : List (Nat × CgSt)
  done : Option (List (Nat × (Nat × Nat)) × List (Nat × List Word))
  coh : Option (List (Nat × Nat))
  tested : Option Nat
  recSeq : Nat
  lastTk : Time
  clustSec : Nat
  deriving DecidableEq, Repr

def IslSt.reset : IslSt := ⟨⟨[], ⟨0, 0, [], []⟩, none, none, []⟩, [], none, none, none, 0, 0, 0⟩

/-! ### Local acquisition (R313 to R340) -/

/-- The coefficients of an input's calibration stage (R322): OFFSET, g, the curve phase in µrad, and τ in output samples. -/
structure Coef where
  ofs : Word
  g : Word
  ph : Word
  tau : Word
  deriving DecidableEq, Repr

/-- An input's calibration stage: its delay line, newest first, the coefficients in force, a cross-fade to new ones with its
start sample and length (R325), the sum of squares since the last curve lookup, and the RMS that lookup took as its key (R324). -/
structure AcqIn where
  line : List Word
  cur : Coef
  nxt : Option (Coef × Nat × Nat)
  sq : Word
  sqN : Nat
  key : Word
  deriving DecidableEq, Repr

/-- An input's decimation chain (R318, R320): the integrators and combs of the CIC, and the delay lines of FIR1, of FIR2 (or of the
resampler that follows FIR1), of the first half-band (or the resampler) and of the second, newest first. -/
structure DecChain where
  integ : List Int
  comb : List Int
  cic : List Int
  f1 : List Int
  f2 : List Int
  h1 : List Int
  deriving DecidableEq, Repr

/-- A phase's path (R327 to R329): 0 on H, 1 on L, 2 fading to L from a sample; the sample at which a decided hard splice
takes effect; the instant of the last look-ahead sample of path L at DOWN or above; the last path H output. -/
structure AcqPh where
  path : Nat
  start : Nat
  hard : Option Nat
  high : Time
  prevH : Word
  deriving DecidableEq, Repr

/-- An output sample of a point or a slot: its count at the output rate, VA to IC, the phases that used path L, channels
overloaded and channels faulted as bits, whether a calibration fade ran, whether it was interpolated, and the phases in a down-splice
fade. -/
structure AcqSmp where
  n : Nat
  xs : List Word
  pathL : Nat
  ovr : Nat
  flt : Nat
  fade : Bool
  interp : Bool
  splice : Nat
  deriving DecidableEq, Repr

/-- A metering point's chain: when its clock started, when it had filled, its nine inputs, three phases, the samples of the last second,
newest first, the nine decimation chains, and the chains' outputs that no OUTPUT_SAMPLE has taken, with their numbers, oldest first. -/
structure AcqPt where
  start : Time
  filled : Option Time
  ins : List AcqIn
  phs : List AcqPh
  hist : List AcqSmp
  chain : List DecChain
  ready : List (Nat × List Word)
  deriving DecidableEq, Repr

/-- A local stream: the instant whose letter comes next, and when CFGCNT last changed. -/
structure AcqLs where
  next : Option Nat := none
  cfgAt : Option Time := none
  deriving DecidableEq, Repr

/-- Local acquisition beside its registers: points, streams, the samples of the sampled-value slots, newest first, whether the fades of a
commit are running, and the ARR of the last letter handed over (R156, R334). -/
structure AcqSt where
  pts : List (Nat × AcqPt) := []
  ls : List (Nat × AcqLs) := []
  svs : List (Nat × List AcqSmp) := []
  calFade : Bool := false
  looked : Option Time := none
  svAt : List (Nat × Time) := []
  stamp : Time := 0
  deriving DecidableEq, Repr

def AcqSt.reset : AcqSt := {}

/-! ### Capture and compression (R372 to R402) -/

/-- A capture record (R384, R385, R396): the header's contents but for FLAGS bits that an offer adds, its body, and the header's CHECK
and the CRC-32C over the body as they were when the segment was written. -/
structure CapRec where
  seq : Nat
  flags : Nat
  ttype : Nat
  cause : Nat
  nch : Nat
  source : Nat
  trigT : Time
  firstT : Time
  rate : Nat
  nPre : Nat
  total : Nat
  trigVal : Word
  measure : Word
  peak : Word
  stats : List Word
  retrig : Nat
  lost : Nat
  edge : Option Time
  body : List Byte
  check : Nat := 0
  crc : Nat := 0
  deriving DecidableEq, Repr

/-- An excursion in progress (R375, R376): its start, its extreme, whether LEVEL_B was reached, whether its timeout has been met, and
whether the unit fired on it. -/
structure CapExc where
  start : Time
  peak : Word
  reached : Bool
  met : Bool
  fired : Bool
  deriving DecidableEq, Repr

/-- A record being taken (R379, R381): the trigger's instant and sample, condition figures, cause, samples before it,
samples still to come, RETRIG, and the start of the excursion whose extreme PEAK still follows (R376). -/
structure CapCur where
  trigT : Time
  trigVal : Word
  measure : Word
  peak : Word
  cause : Nat
  edge : Option Time
  nPre : Nat
  short : Bool
  left : Nat
  retrig : Nat
  exc : Option Time
  deriving DecidableEq, Repr

/-- A capture unit beside its registers: history and record samples, newest first, with their instants; the last values of
the trigger channel, newest first; excursion, the slew condition, and whether the unit fired on it; the record being taken; the last
trigger's instant; force; the XTRG_FIRE edge it fired at while its trigger sample is still to come, and conditions met since; conditions
missed while stopped; marks for the next record; held records, oldest
first, with whether each has been offered. -/
structure CapUnit where
  hist : List (Time × List Word) := []
  line : List (Option Word) := []
  exc : Option CapExc := none
  slew : Bool := false
  slewFired : Bool := false
  cur : Option CapCur := none
  hold : Option Time := none
  force : Bool := false
  edge : Option Time := none
  early : Nat := 0
  after : Option Nat := none
  wrote : Bool := false
  rebuilt : Bool := false
  sync : Bool := false
  missed : Nat := 0
  held : List (CapRec × Bool) := []
  deriving DecidableEq, Repr

/-- The capture engine beside its registers: units, the units whose pull of XTRG_FIRE is under way, units whose RWL
fields changed in SERVICE, and whether XTRG_FIRE and XTRG_SYNC are low after an edge that has been taken. -/
structure CapSt where
  units : List (Nat × CapUnit) := []
  pulling : List Nat := []
  fireAt : Time := 0
  syncAt : Option Time := none
  changed : List Nat := []
  fireLow : Bool := false
  syncLow : Bool := false
  deriving DecidableEq, Repr

def CapSt.reset : CapSt := {}

/-- A job of the compression engine (R394): a capture record, or a command with its ring, command bytes, buffer contents
as fetched and their PCIe error. -/
inductive CmpJob where
  | cap (u seq : Nat)
  | cmd (m : Nat) (decode : Bool) (bytes : List Byte) (data : List Byte) (err : Bool)
  deriving DecidableEq, Repr

/-- The compression engine beside its registers: blocks in work and waiting, in order. -/
structure CmpSt where
  jobs : List CmpJob := []
  deriving DecidableEq, Repr

def CmpSt.reset : CmpSt := {}

/-- Why the block may stop with a fault. -/
inductive Fault where
  /-- Not raised by any meaning of this model: every command the spec describes has an effect or leaves the state as it is.
  Safe: a stop can prove nothing false. -/
  | stuck
  deriving DecidableEq, Repr

/-- Why a command may be refused. -/
inductive Refusal where
  /-- The command's arm has no meaning yet; raised by `exec` only. Safe: a stop can prove nothing false. -/
  | notModelled (mnemonic : String)
  deriving DecidableEq, Repr

/-- The state of the block. `powered` is false in BACKUP, where only the backup domain runs (R26). `regs` lists the words
of BAR0 that differ from their reset values, offsets rising. `now` is device time (R6). `out` records what left the
device; `free` numbers the free values drawn; `pending` is the queue of commands, first in, first out. -/
structure State where
  powered : Bool
  regs : List (Nat × Word)
  now : Time
  log : LogSt
  sof : SofSt
  hif : HifSt
  net : NetSt
  adm : AdmSt
  whl : WhlSt
  tb : TbSt
  key : KeySt
  alm : AlmSt
  glb : GlbSt
  strt : StrtSt
  nvs : NvsSt
  pair : PairSt
  acq : AcqSt
  nrg : NrgSt
  cap : CapSt
  cmp : CmpSt
  osc : OscSt
  isl : IslSt
  bkd : BkdSt
  mem : MemSt
  out : List Output
  free : Nat
  pending : List Instr
  deriving DecidableEq, Repr

/-- The block right after reset: BACKUP, with no main supply (R26, log entry 4), every register at its reset value, nothing
held anywhere, and an empty queue. The backup domain counts on from zero. -/
def State.reset : State where
  powered := false
  regs := []
  now := 0
  log := .reset
  sof := .reset
  hif := .reset
  net := .reset
  adm := .reset
  whl := .reset
  tb := .reset
  key := .reset
  alm := .reset
  glb := .reset
  strt := .reset
  nvs := .reset
  pair := .reset
  acq := .reset
  nrg := .reset
  cap := .reset
  cmp := .reset
  osc := .reset
  isl := .reset
  bkd := .reset
  mem := .reset
  out := []
  free := 0
  pending := []

end Sys2Proof.Machine
end

