-- ==== Sys2Proof/Machine/Ops.lean ====
section
/-! DEFINITION. The operations every family shares: sparse lists, the BAR0 word store and its fields, modes, device time,
notices and vectors, Logbook events, the Dead-Letter Office, host rings, frames for transmission, and work items. -/
namespace Sys2Proof.Machine

/-- The outcome of a step of this block. -/
abbrev Res := Host.Outcome State Fault Refusal

/-! ### Sparse lists keyed by a number -/

/-- The value at a key, or a default. -/
def sget {α : Type} (m : List (Nat × α)) (k : Nat) (d : α) : α :=
  match m with
  | [] => d
  | (a, v) :: r => if a = k then v else sget r k d

/-- The list without a key. -/
def serase {α : Type} (m : List (Nat × α)) (k : Nat) : List (Nat × α) := m.filter fun e => e.1 != k

/-- Put a pair at its place among rising keys. -/
def sput {α : Type} (m : List (Nat × α)) (k : Nat) (v : α) : List (Nat × α) :=
  match m with
  | [] => [(k, v)]
  | (a, w) :: r => if k < a then (k, v) :: (a, w) :: r else (a, w) :: sput r k v

/-- The list with the value at a key replaced. -/
def sset {α : Type} (m : List (Nat × α)) (k : Nat) (v : α) : List (Nat × α) := sput (serase m k) k v

/-- A key's value, if listed. -/
def sfind {α : Type} (m : List (Nat × α)) (k : Nat) : Option α := (m.find? fun e => e.1 == k).map (·.2)

/-- The element of a list at an index, or a default. -/
def nth {α : Type} (xs : List α) (i : Nat) (d : α) : α := xs.getD i d

/-- Fold a state over a list. -/
def forEach {α σ : Type} (xs : List α) (f : α → σ → σ) (s : σ) : σ := xs.foldl (fun a x => f x a) s

/-- A flag at its place in a number. -/
def bitN (b : Bool) (i : Nat) : Nat := if b then 2 ^ i else 0

/-! ### Registers (R8, R9, R536) -/

/-- The offset of a block's NOTICE register; EN and VEC follow at +4 and +8 (R545). -/
def noticeOff (b : Nat) : Nat := if b = 0 ∨ 23 ≤ b then 0x20 else b * 0x10000 + (if b = 4 then 0x4F0 else 0xF0)

/-- The words of the notice registers: NOTICE, NOTICE_EN and NOTICE_VEC of the 23 blocks, and GLB_NOTICE_SUM (R545, R546). -/
def noticeOffs : List Nat := 0x30 :: (List.range 23).flatMap fun b => [noticeOff b, noticeOff b + 4, noticeOff b + 8]

/-- Where the areas of BAR0 begin: GLB, STRT, TB, BKD, NET, ADM, WHL, SOF, PLC, OSC, ISL, ALM, ACQ, NRG, CAP, CMP, PAIR, KEY, NVS,
LOG, HIF, PR, LB, MEM, PWR, MSIX, STAB, DESC, LSTAB, the membership tables, SRT, CH, PAGE, BR, BRRES, BUS, AM, AMR, SITE, CG, TIE,
CURVE, SCURVE, the energy totals, the Logbook's window (R536 to R539). -/
def areaStarts : List Nat :=
  [0x0, 0x10000, 0x20000, 0x30000, 0x40000, 0x50000, 0x60000, 0x70000, 0x80000, 0x90000, 0xA0000, 0xB0000, 0xC0000, 0xD0000] ++
  [0xE0000, 0xF0000, 0x100000, 0x110000, 0x120000, 0x130000, 0x140000, 0x141000, 0x143000, 0x150000, 0x160000, 0x170000] ++
  [0x400000, 0x800000, 0xC00000, 0xC10000, 0xD10000, 0xD20000, 0xD40000, 0xF40000, 0xF50000, 0xF58000, 0xF60000, 0xFA0000] ++
  [0xFA8000, 0xFB8000, 0xFB9000, 0xFC0000, 0xFC1000, 0xFD0000, 0xFE0000]

/-- The area of BAR0 that an offset lies in: 0 for the notice registers, else 1 on, in the order of `areaStarts`. -/
def areaOf (off : Nat) : Nat := if noticeOffs.contains off then 0 else areaStarts.countP (· ≤ off)

/-- The word held at an offset of BAR0: the listed value, or its reset value. -/
def State.word (s : State) (off : Nat) : Word := sget s.regs off (resetWord off)

/-- Write the word at an offset, keeping the store in canonical form: nothing equal to its reset value is listed. -/
def State.setWord (s : State) (off : Nat) (w : Word) : State :=
  { s with regs := if w = resetWord off then serase s.regs off else sset s.regs off w }

/-- The value of a register field. -/
def State.rd (s : State) (f : Fld) (idx : List Nat) : Nat := f.get (s.word (f.off idx))

/-- Set a register field, as the device itself does. Indices outside the arrays of the field name no word: nothing is written. -/
def State.wr (s : State) (f : Fld) (idx : List Nat) (v : Nat) : State :=
  if idxOk f.dims idx then s.setWord (f.off idx) (f.put (s.word (f.off idx)) v) else s

/-- Write a word of the area of BAR0 that holds `base`. -/
def State.put (s : State) (base off : Nat) (w : Word) : State := if areaOf off = areaOf base then s.setWord off w else s

/-- Is a one-bit field 1? -/
def State.flag (s : State) (f : Fld) (idx : List Nat) : Bool := s.rd f idx != 0

/-- Set a one-bit field. -/
def State.setFlag (s : State) (f : Fld) (idx : List Nat) (b : Bool) : State := s.wr f idx (if b then 1 else 0)

/-- Count one event in a field, modulo its width. -/
def State.inc (s : State) (f : Fld) (idx : List Nat) : State := s.wr f idx (s.rd f idx + 1)

/-- Add to a field, modulo its width. -/
def State.bump (s : State) (f : Fld) (idx : List Nat) (n : Nat) : State := s.wr f idx (s.rd f idx + n)

/-- Count one event in a field that saturates. -/
def State.incSat (s : State) (f : Fld) (idx : List Nat) : State := s.wr f idx (min (s.rd f idx + 1) (2 ^ f.width - 1))

/-- A 64-bit value, low word first (R539). -/
def State.rd64 (s : State) (f : Fld) (idx : List Nat) : Nat := s.rd f (idx ++ [0]) + 2 ^ 32 * s.rd f (idx ++ [1])

/-- Write a 64-bit value, low word first. -/
def State.wr64 (s : State) (f : Fld) (idx : List Nat) (v : Nat) : State :=
  (s.wr f (idx ++ [0]) v).wr f (idx ++ [1]) (v / 2 ^ 32)

/-- Add to a 64-bit value modulo 2^64. -/
def State.bump64 (s : State) (f : Fld) (idx : List Nat) (n : Nat) : State := s.wr64 f idx (s.rd64 f idx + n)

/-- Consecutive words of a multi-word field as one number, low word first. -/
def State.rdWords (s : State) (f : Fld) (idx : List Nat) (n : Nat) : Nat :=
  (List.range n).foldr (fun i a => s.rd f (idx ++ [i]) + 2 ^ 32 * a) 0

/-- Write a number into consecutive words, low word first. -/
def State.wrWords (s : State) (f : Fld) (idx : List Nat) (n v : Nat) : State :=
  forEach (List.range n) (fun i a => a.wr f (idx ++ [i]) (v / 2 ^ (32 * i))) s

/-- The offsets listed in the store from `lo` up to and not with `hi`. -/
def State.listed (s : State) (lo hi : Nat) : List Nat :=
  (s.regs.filter fun e => decide (lo ≤ e.1 ∧ e.1 < hi)).map (·.1)

/-- The entries of a window that hold something other than their reset value. -/
def State.entries (s : State) (base stride count : Nat) : List Nat :=
  ((s.listed base (base + stride * count)).map fun o => (o - base) / stride).eraseDups

/-- The bytes of a run of words of BAR0. -/
def State.regBytes (s : State) (off nwords : Nat) : List Byte :=
  (List.range nwords).flatMap fun i => wordBytes (s.word (off + 4 * i))

/-! ### Modes (R26, R37) -/

/-- The operating modes. -/
inductive Mode where
  | backup | loading | watch | standby | active | degraded | held | service
  deriving DecidableEq, Repr

/-- The GLB_MODE.CUR code of a mode (R37); BACKUP has code 0 and is never read. -/
def Mode.code : Mode → Nat
  | .backup => 0 | .loading => 1 | .watch => 2 | .standby => 3 | .active => 4 | .degraded => 5 | .held => 6 | .service => 7

/-- The mode a code stands for. -/
def Mode.ofCode (n : Nat) : Mode :=
  if n = 1 then .loading else if n = 2 then .watch else if n = 3 then .standby else if n = 4 then .active
  else if n = 5 then .degraded else if n = 6 then .held else if n = 7 then .service else .backup

/-- The mode in force: BACKUP while the main domain has no power, else GLB_MODE.CUR. -/
def State.mode (s : State) : Mode := if s.powered then Mode.ofCode (s.rd Reg.GLB_MODE_CUR []) else .backup

/-- The modes that process streams (R26): STANDBY, ACTIVE, DEGRADED and SERVICE. -/
def State.processing (s : State) : Bool :=
  match s.mode with | .standby | .active | .degraded | .service => true | _ => false

/-- The modes whose output reaches the wire, the pins and the host data rings (R26); a unit that hands over its role emits
the slots opened before (R429). -/
def State.emitting (s : State) : Bool :=
  s.pair.emitNow || match s.mode with | .active | .degraded | .service => true | _ => false

/-- The modes in which device time may be stepped (R52). -/
def State.stepAllowed (s : State) : Bool :=
  match s.mode with | .loading | .watch | .held => true | _ => false

/-- RWL fields may be written (R10). -/
def State.rwlOpen (s : State) : Bool := match s.mode with | .loading | .service => true | _ => false

/-! ### Device time (R6) -/

/-- One second, in the units of `Time`. -/
def second : Nat := 65536000000000
/-- One nanosecond, in the units of `Time`. -/
def nsU : Nat := 65536
/-- One microsecond and one millisecond. -/
def usU : Nat := 65536000
def msU : Nat := 65536000000

def secOf (t : Time) : Nat := t / second
def nsOf (t : Time) : Nat := t % second / nsU
def fracOf (t : Time) : Nat := t % nsU

/-- An event at time `t`: device time never goes back for it (log entry 2). -/
def State.advance (s : State) (t : Time) : State := { s with now := max s.now t }

/-- Append an output. -/
def State.emit (s : State) (o : Output) : State := { s with out := s.out ++ [o] }

/-- The number of the next free value, and the state with it drawn. -/
def State.draw (s : State) : Nat × State := (s.free, { s with free := s.free + 1 })

/-! ### Vectors and notices (R14, R545 to R548) -/

/-- Send or hold one MSI-X message on a vector (R547). -/
def State.raiseVector (s : State) (v : Nat) : State :=
  if s.hif.msixEn && s.flag Reg.HIF_STAT_BME [] then
    if s.rd Reg.MSIX_CTRL [v] % 2 = 1 then
      s.put 0x170000 (Reg.MSIX_PBA.off [v / 32]) (s.word (Reg.MSIX_PBA.off [v / 32]) ||| BitVec.ofNat 32 (2 ^ (v % 32)))
    else s.emit (.msix v)
  else s

/-- The block indices of R536, used as SRC of Logbook records and as numbers of notice registers. -/
def bGLB : Nat := 0
def bSTRT : Nat := 1
def bTB : Nat := 2
def bBKD : Nat := 3
def bNET : Nat := 4
def bADM : Nat := 5
def bWHL : Nat := 6
def bSOF : Nat := 7
def bPLC : Nat := 8
def bOSC : Nat := 9
def bISL : Nat := 10
def bALM : Nat := 11
def bACQ : Nat := 12
def bNRG : Nat := 13
def bCAP : Nat := 14
def bCMP : Nat := 15
def bPAIR : Nat := 16
def bKEY : Nat := 17
def bNVS : Nat := 18
def bLOG : Nat := 19
def bHIF : Nat := 20
def bMEM : Nat := 21
def bPWR : Nat := 22

/-- The NOTICE bits whose event also writes a Logbook record, by block, as the block's notice rule says (R35 for GLB). -/
def loggedBits (b : Nat) : List Nat :=
  nth [[0], [1, 2, 3, 4, 6, 7], [0, 1, 2, 3, 4, 5, 6, 7, 8, 9, 10, 11], [0, 2, 4, 5], [0, 1, 2, 3, 6], [4, 5, 6], [2, 4, 5],
    [0, 2, 4], [1, 2], [4, 5, 10, 11], [3, 4, 5, 8], [2, 4, 5, 6], [0, 5, 6, 8], [3, 4, 5, 6, 8, 9], [1, 6, 7], [2, 3],
    [0, 1, 2, 3, 4, 5, 6, 10, 11, 12, 13], [0, 1, 2, 3, 5, 6, 7, 8], [0, 1, 3, 4, 5], [], [1, 4, 5], [1, 3, 5, 6, 7],
    [0, 2, 3]] b []

/-- GLB_NOTICE_SUM (R546): bit i is 1 while block i has a bit set in both NOTICE and NOTICE_EN. -/
def State.refreshSum (s : State) : State :=
  s.wr Reg.GLB_NOTICE_SUM_SUM [] ((List.range 23).foldl
    (fun a b => if s.word (noticeOff b) &&& s.word (noticeOff b + 4) = 0#32 then a else a + 2 ^ b) 0)

/-- Hardware sets a NOTICE bit and raises its vector if the bit is enabled (R14, R547). -/
def State.noticeQuiet (s : State) (b bit : Nat) : State :=
  let s1 := (s.setWord (noticeOff b) (s.word (noticeOff b) ||| BitVec.ofNat 32 (2 ^ bit))).refreshSum
  if (s1.word (noticeOff b + 4)).getLsbD bit then s1.raiseVector ((s1.word (noticeOff b + 8)).toNat % 64) else s1

/-! ### The quality of device time (R71, R72) -/

/-- TB_UNC as the states give it (R71), at this moment. After a switch of SEL in STATE 2 the mean still holds the samples of the domain
selected before (log entry 126, DESIGN CHOICE). -/
def State.uncNow (s : State) : Nat :=
  let st := s.rd Reg.TB_STAT_STATE []
  let sel := s.rd Reg.TB_STAT_SEL []
  let inacc := s.rd Reg.TB_DOM_GMINACC_NS [sel]
  let cap (n : Nat) := min n (2 ^ 32 - 2)
  let d := if sel = 0 then s.tb.dom0 else s.tb.dom1
  if st = 2 then cap (roundDiv (s.tb.lockN.sum) (s.tb.lockN.length * nsU) + inacc + 8)
  else if st = 3 then cap (roundDiv d.theta.natAbs nsU + inacc + 8)
  else if st = 4 then cap (s.tb.holdUnc + roundDiv (s.rd Reg.TB_HOLD_RATE [] * (s.now - s.tb.holdT)) (1000 * second))
  else 2 ^ 32 - 1

/-- The FRACSEC time quality code of a bound (R72). -/
def fqCode (st unc : Nat) : Nat :=
  if st = 2 then 0
  else if st < 2 ∨ unc = 2 ^ 32 - 1 then 15
  else (((List.range 11).map (· + 1)).find? fun n => decide (unc * 10 < 10 ^ n)).getD 15

/-- The STAT[8:6] code of a bound. -/
def sqCode (unc : Nat) : Nat :=
  if unc < 100 then 1 else if unc < 1000 then 2 else if unc < 10000 then 3 else if unc < 100000 then 4
  else if unc < 1000000 then 5 else if unc < 10000000 then 6 else 7

/-- UNLK_S at this moment: 0 in locked, whole seconds since locked was left, 0xFFFF while it was never locked. -/
def State.unlkNow (s : State) : Nat :=
  if s.rd Reg.TB_STAT_STATE [] = 2 then 0
  else if s.rd Reg.TB_STAT_UNLK_S [] = 65535 then 65535
  else min 65535 ((s.now - s.tb.unlkT) / second)

/-- The codes that outputs carry, at this moment: FQ, SQ, SERR, and STAT[5:4] from UNLK_S. -/
def State.fqNow (s : State) : Nat := fqCode (s.rd Reg.TB_STAT_STATE []) s.uncNow
def State.sqNow (s : State) : Nat := sqCode s.uncNow
def State.serrNow (s : State) : Bool := s.rd Reg.TB_STAT_STATE [] != 2 && decide (s.rd Reg.TB_HOLD_SERR_US [] * 1000 ≤ s.uncNow)
def State.unlkCode (s : State) : Nat :=
  let u := s.unlkNow
  if u < 10 then 0 else if u < 100 then 1 else if u < 1000 then 2 else 3

/-- The leap second pending flag at this moment: it falls when the leap second ends (R80). -/
def State.lspNow (s : State) : Bool := s.flag Reg.TB_UTC_LSP [] && !s.tb.leapEnd.any fun e => decide (e ≤ s.now)

/-- TAI − UTC in force, in seconds (R79): the selected domain's while it supplies one, else TB_UTC.OFFSET. -/
def State.utcOfs (s : State) : Int := if s.flag Reg.TB_UTC_VALID [] then s.tb.ptpOfs else toSigned 16 (s.rd Reg.TB_UTC_OFFSET [])

/-- TAI − UTC at an instant (R80): on either side of a leap that is flagged, the offset of that side. -/
def State.ofsAt (s : State) (t : Time) : Int :=
  match s.tb.leapT with
  | none => s.utcOfs
  | some (l, neg) =>
    if t < l then s.tb.ofsBefore
    else if s.flag Reg.TB_UTC_LSO [] then s.utcOfs
    else if neg then s.tb.ofsBefore - 1 else s.tb.ofsBefore + 1

/-! ### Logbook events (R480 to R484) -/

/-- Form the event of a record at this moment. -/
def State.logEv (s : State) (src code d0 d1 d2 d3 : Nat) : LogEv :=
  { src := src, code := code, d0 := d0 % 2 ^ 32, d1 := d1 % 2 ^ 32, d2 := d2 % 2 ^ 32, d3 := d3 % 2 ^ 32
    flags := (if s.flag Reg.GLB_MODE_TEST [] then 1 else 0) + (if s.rd Reg.TB_STAT_STATE [] < 2 then 2 else 0)
    mode := s.rd Reg.GLB_MODE_CUR [], tq := s.fqNow, t := s.now, rep := 0, last := s.now }

/-- The same SRC, CODE and DATA (R483). -/
def LogEv.same (a b : LogEv) : Bool :=
  a.src == b.src && a.code == b.code && a.d0 == b.d0 && a.d1 == b.d1 && a.d2 == b.d2 && a.d3 == b.d3

/-- Show the staging occupancy. -/
def State.staged (s : State) : State := s.wr Reg.LOG_STAT_STAGED [] s.log.stage.length

/-- Take an event into the Logbook (R483, R484): a repeat of the last record while nothing is staged, a repeat of the
queue's tail, a new staging entry, or, on a full queue, a lost event. While sealed nothing is collapsed (R488). -/
def State.logPut (s : State) (e : LogEv) : State :=
  let sealed := s.flag Reg.LOG_STAT_SEALED []
  let fresh : State :=
    if s.log.stage.length < 64 then
      ({ s with log := { s.log with stage := s.log.stage ++ [e] } } : State).staged
    else
      (({ s with log := { s.log with lostSince := s.log.lostSince + 1 } } : State).inc Reg.LOG_LOST_COUNT []).noticeQuiet bLOG 2
  match s.log.stage.getLast? with
  | none =>
    match s.log.recs.getLast? with
    | none => fresh
    | some r =>
      let n := (s.log.live.map (·.1)).getD r.ev.rep
      if !sealed && r.ok && r.ev.same e && decide (n < 65535) && s.log.clearEv.isNone && s.flag Reg.LOG_STAT_READY [] then
        { s with log := { s.log with live := some (n + 1, e.t), repd := true } }
      else fresh
  | some q =>
    if !sealed && q.same e && decide (q.rep < 65535) then
      { s with log := { s.log with stage := s.log.stage.dropLast ++ [{ q with rep := q.rep + 1, last := e.t }] } }
    else fresh

/-- Log an event of block `src` (R481). -/
def State.logEvent (s : State) (src code d0 d1 d2 : Nat) : State := s.logPut (s.logEv src code d0 d1 d2 0)

/-- A notice with the record its block writes, if any (R481). -/
def State.notice (s : State) (b bit d0 d1 d2 : Nat) : State :=
  if (loggedBits b).contains bit then (s.noticeQuiet b bit).logEvent b (bit + 1) d0 d1 d2 else s.noticeQuiet b bit

/-- A notice that marks only the first event after the bit was cleared. -/
def State.noticeFirst (s : State) (b bit d0 d1 d2 : Nat) : State :=
  if (s.word (noticeOff b)).getLsbD bit then s else s.notice b bit d0 d1 d2

/-- A write refused or ignored, code 0x80 (R481): the block or window owner of the offset, the offset, the value. -/
def ownerOf (off : Nat) : Nat :=
  let r := off / 0x10000
  if r ≤ 0x16 then r else if r = 0x17 then bGLB else if r < 0xC1 then bADM else if r < 0xD1 then bWHL
  else if r = 0xD1 then bSOF else if r < 0xF6 then bOSC else if r < 0xFA then bALM
  else if off < 0xFA8000 then bALM else if r < 0xFC then bISL else if r = 0xFC then bACQ else if r = 0xFD then bNRG else bLOG

def State.logRefused (s : State) (off value : Nat) : State := s.logEvent (ownerOf off) 0x80 off value 0

/-! ### Dead-Letter Office, host rings and trace (R204 to R219) -/

def ring0 : RingHid := ⟨0, 0, 0⟩

/-- The source a ring serves: PR0 to PR63 are fixed to source 1 (R214). -/
def State.prSrc (s : State) (r : Nat) : Nat := if r < 64 then 1 else s.rd Reg.PR_CFG_SRC [r - 64]

/-- Is `r` one of the rings PR64 to PR127, with this source and SEL? -/
def State.ringNames (s : State) (src sel r : Nat) : Bool :=
  decide (64 ≤ r) && s.prSrc r == src && s.rd Reg.PR_SEL_SEL [r] == sel

/-- Is an enabled ring from PR64 up to and not with PR`hi` one of a source and SEL? -/
def State.ringBelow (s : State) (src sel hi : Nat) : Bool :=
  (List.range hi).any fun k => s.ringNames src sel k && s.flag Reg.PR_CFG_EN [k]

/-- Is an item of a source with this selector test meant for ring `r`? Of two enabled rings that name the same source and
SEL only the lower-numbered takes it (R214). SEL of a ring of source 1 is its Round, and a Round's own ring that is not enabled
leaves the mailbags to such a ring (log entry 56). -/
def State.ringTakes (s : State) (src rnd : Nat) (sel : Nat → Bool) (r : Nat) : Bool :=
  if src = 1 then
    if r < 64 then r == rnd && (s.flag Reg.PR_CFG_EN [r] || !s.ringBelow 1 rnd 128)
    else s.ringNames 1 rnd r && s.flag Reg.PR_CFG_EN [r] && !s.flag Reg.PR_CFG_EN [rnd] && !s.ringBelow 1 rnd r
  else s.ringNames src (s.rd Reg.PR_SEL_SEL [r]) r && sel (s.rd Reg.PR_SEL_SEL [r]) && !s.ringBelow src (s.rd Reg.PR_SEL_SEL [r]) r

/-- The effective size exponents of a ring, clamped as R229 says. -/
def State.prSlog (s : State) (r : Nat) : Nat := clampN 6 16 (s.rd Reg.PR_CFG_SLOG2 [r])
def State.prDlog (s : State) (r : Nat) : Nat := clampN 16 30 (s.rd Reg.PR_CFG_DLOG2 [r])

/-- Free descriptors and free bytes of a ring (R209). -/
def State.prFreeD (s : State) (r : Nat) : Nat :=
  2 ^ s.prSlog r - (s.rd Reg.PR_PROD [r] + 2 ^ 32 - s.rd Reg.PR_CONS [r]) % 2 ^ 32
def State.prFreeB (s : State) (r : Nat) : Nat :=
  2 ^ s.prDlog r - (s.rd Reg.PR_PROD_B [r] + 2 ^ 32 - s.rd Reg.PR_CONS_B [r]) % 2 ^ 32

/-- Where an item of a length starts in the running byte count: it never crosses the end of the area (R210). -/
def State.prStart (s : State) (r len : Nat) : Nat :=
  let used := s.rd Reg.PR_PROD_B [r]
  let area := 2 ^ s.prDlog r
  if area < used % area + len then used + (area - used % area) else used

/-- Bytes an item takes from the free credit, skipped bytes included. -/
def State.prNeed (s : State) (r len : Nat) : Nat :=
  s.prStart r len - s.rd Reg.PR_PROD_B [r] + ceilDiv len 64 * 64

/-- The vector of a ring for one more descriptor (R215). -/
def State.prNotify (s : State) (r : Nat) : State :=
  let n := s.rd Reg.PR_CFG_NOTIFY [r]
  let h := sget s.hif.rings r ring0
  if n = 0 then s
  else if n = 1 then s.raiseVector (s.rd Reg.PR_CFG_VEC [r])
  else
    let h1 := { h with unnot := h.unnot + 1, first := if h.unnot = 0 then s.now else h.first }
    if max 1 (s.rd Reg.PR_MOD_MOD_CNT [r]) ≤ h1.unnot then
      ({ s with hif := { s.hif with rings := sset s.hif.rings r { h1 with unnot := 0 } } } : State).raiseVector
        (s.rd Reg.PR_CFG_VEC [r])
    else { s with hif := { s.hif with rings := sset s.hif.rings r h1 } }

/-- Write an item and its descriptor (R210, R213). -/
def State.prDeliver (s : State) (r typ info : Nat) (cut : Bool) (data : List Byte) : State :=
  let prod := s.rd Reg.PR_PROD [r]
  let start := s.prStart r data.length % 2 ^ 32
  let phase := if prod / 2 ^ s.prSlog r % 2 = 0 then 2 ^ 31 else 0
  let seq := (sget s.hif.rings r ring0).seq % 65536
  let gap := s.rd Reg.PR_GAP [r]
  let ws := [phase + (if cut then 2 ^ 30 else 0) + typ * 2 ^ 16 + seq, data.length, start, gap, info, nsOf s.now,
    secOf s.now % 2 ^ 32]
  let words := ws.map (BitVec.ofNat 32)
  let desc := words ++ [BitVec.ofNat 32 (crc32c (words.flatMap wordBytes))]
  ((((s.emit (.ringItem r desc data)).wr Reg.PR_PROD_B [r] (start + ceilDiv data.length 64 * 64)).wr
    Reg.PR_PROD [r] (prod + 1)).wr Reg.PR_GAP [r] 0).prNotify r

/-- What became of an item offered to a ring (R211). -/
inductive Put where
  | whole | cut | shed
  deriving DecidableEq, Repr

/-- Shed an item for a ring: SHED and GAP count, and the ring may go on shedding (R211, R212). -/
def State.prShed (s : State) (r : Nat) : State :=
  let s := (s.inc Reg.PR_SHED [r]).incSat Reg.PR_GAP [r]
  let s := if s.flag Reg.PR_CFG_DROP_REST [r] && s.flag Reg.PR_CFG_EN [r] then s.setFlag Reg.PR_STAT_DROPPING [r] true else s
  s.noticeFirst bHIF 0 r 0 0x18

/-- The free descriptors at which a ring that drops the rest delivers again (R212, R229). -/
def State.prResumeAt (s : State) (r : Nat) : Nat :=
  let v := s.rd Reg.PR_RESUME_DESC [r]
  if v = 0 then 2 ^ s.prSlog r / 2 else v

/-- A ring that drops the rest delivers again once enough descriptors are free (R212). -/
def State.prResume (s : State) (r : Nat) : State :=
  if s.flag Reg.PR_STAT_DROPPING [r] ∧ s.prResumeAt r ≤ s.prFreeD r then
    (s.setFlag Reg.PR_STAT_DROPPING [r] false).notice bHIF 3 r 0 0
  else s

/-- Is there a free descriptor and room for so many bytes? -/
def State.prFits (s : State) (r len : Nat) : Bool := decide (1 ≤ s.prFreeD r) && decide (s.prNeed r len ≤ s.prFreeB r)

/-- Put an item into a ring as its credit allows (R211): whole, cut to its leading record `cutRec` (TYPE 1 alone), or not at
all. The Dead-Letter Office is the caller's. -/
def State.prPut (s : State) (r typ info : Nat) (data : List Byte) (cutRec : Option (List Byte)) : State × Put :=
  let h := sget s.hif.rings r ring0
  let s := { s with hif := { s.hif with rings := sset s.hif.rings r { h with seq := h.seq + 1 } } }
  if !s.flag Reg.PR_CFG_EN [r] || !s.flag Reg.HIF_STAT_BME [] then (s.prShed r, .shed)
  else
    let s := s.prResume r
    if s.flag Reg.PR_STAT_DROPPING [r] then (s.prShed r, .shed)
    else if s.prFits r data.length then (s.prDeliver r typ info false data, .whole)
    else
      match cutRec with
      | some c =>
        if s.prFits r c.length then (((s.inc Reg.PR_SHED_BODY [r]).noticeFirst bHIF 0 r 0 0x18).prDeliver r typ info true c, .cut)
        else (s.prShed r, .shed)
      | none => (s.prShed r, .shed)

/-- The host data rings of R214, whose items are discarded in STANDBY and absent in modes that process no streams. -/
def dataSource (src : Nat) : Bool := [1, 2, 6, 9, 10, 11].contains src

/-- Does the mode let a source's items go to rings (R26, R27, R214)? -/
def State.sourceRuns (s : State) (src : Nat) : Bool :=
  s.mode != .backup && s.mode != .loading && (!dataSource src || s.emitting)

/-! ### Dead-Letter samples (R204, R205) -/

/-- The POSTMARK of a letter or record as R125 codes it. -/
def postmark (sec k rate : Nat) : Nat := sec % 2 ^ 48 + k % 256 * 2 ^ 48 + rate % 16 * 2 ^ 56

/-- The rings that take samples. A shed sample is not counted again in the Dead-Letter Office. -/
def State.offerSample (s : State) (code : Nat) (item : List Byte) : State :=
  if s.sourceRuns 3 then
    forEach ((List.range 128).filter (s.ringTakes 3 64 fun _ => true)) (fun r a => (a.prPut r 3 code item none).1) s
  else s

/-- Count an event in the Dead-Letter Office and deliver its sample while the code has samples left this second
(R204, R205). `content` is the first 48 bytes of a letter (or, with `rec_`, of a dispatch record). -/
def State.dead (s : State) (code flow : Nat) (pm : Option Nat) (rec_ : Bool) (content : Option (List Byte)) : State :=
  let s := s.bump64 Reg.SOF_DLO_CNT_COUNT [code] 1
  let sec := secOf s.now
  let cnts := if s.sof.smpSec = sec then s.sof.smpCnt else []
  let c := sget cnts code 0
  let s := { s with sof := { s.sof with smpSec := sec, smpCnt := sset cnts code (c + 1) } }
  if c < s.rd Reg.SOF_DLO_SMP_N [] then
    let fl := (if pm.isSome then 1 else 0) + (if rec_ then 2 else 0) + (if content.isSome then 4 else 0)
    s.offerSample code (leBytes 1 code ++ leBytes 1 fl ++ leBytes 2 flow ++ leBytes 4 0 ++ leBytes 8 (pm.getD 0) ++
      padTo 48 ((content.getD []).take 48))
  else s

/-! ### Decision trace (R219) -/

/-- Is a ring of SRC 4 enabled? -/
def State.trcRing (s : State) : Bool := (List.range 64).any fun k => s.flag Reg.PR_CFG_EN [64 + k] && s.prSrc (64 + k) == 4

/-- The trace stops: 2 = no ring, 3 = count reached. -/
def State.trcStop (s : State) (stat : Nat) : State := (s.wr Reg.SOF_TRC_CTL_STAT [] stat).notice bSOF 5 0 stat 0

/-- Hand a full group of 64 trace records to the ring whose SRC is 4. Trace items are not traced. -/
def State.trcFlush (s : State) : State :=
  if s.sof.trace.length < 64 then s
  else
    let item := (s.sof.trace.take 64).flatten
    let s : State := { s with sof := { s.sof with trace := s.sof.trace.drop 64 } }
    if s.sourceRuns 4 then
      forEach ((List.range 128).filter (s.ringTakes 4 64 fun _ => true)) (fun r a =>
        match a.prPut r 4 0 item none with
        | (a, .whole) => a
        | (a, _) => a.dead 0x18 0xFFFF none false none) s
    else s

/-- Does an event of a flow and a sorter pass the filter of a running trace? -/
def State.trcPasses (s : State) (ev srt flow : Nat) : Bool :=
  s.flag Reg.SOF_TRC_CTL_EN [] && s.rd Reg.SOF_TRC_CTL_STAT [] == 1 && (s.rd Reg.SOF_TRC_CTL_EVENTS [] / 2 ^ ev) % 2 == 1 &&
    decide (s.rd Reg.SOF_TRC_FLOW_LO [] ≤ flow) && decide (flow ≤ s.rd Reg.SOF_TRC_FLOW_HI []) &&
    (s.rd Reg.SOF_TRC_SRT_MASK [srt / 32] / 2 ^ (srt % 32)) % 2 == 1

/-- One trace record: with no enabled ring of SRC 4 the trace stops; else the record is taken, a full group of 64 goes to
the ring, and the trace stops at its count. A group that is not full when the trace stops stays in staging, and is dropped when
the trace is started again (log entry 57). -/
def State.traceEv (s : State) (ev cls srt flow aux seq : Nat) : State :=
  if !s.trcPasses ev srt flow then s
  else if !s.trcRing then s.trcStop 2
  else
    let rec_ := leBytes 4 (nsOf s.now) ++ leBytes 2 (secOf s.now) ++ leBytes 1 ev ++ leBytes 1 (cls * 64 + srt) ++
      leBytes 2 flow ++ leBytes 2 aux ++ leBytes 4 seq
    let s : State := { s with sof := { s.sof with trace := s.sof.trace ++ [rec_], traceN := s.sof.traceN + 1 } }
    let s := s.trcFlush
    let cnt := s.rd Reg.SOF_TRC_CNT_COUNT []
    if cnt ≠ 0 ∧ cnt ≤ s.sof.traceN then s.trcStop 3 else s

/-! ### Letters as bytes (R125) -/

/-- The 384 bytes of a letter. -/
def letterBytes (l : Letter) : List Byte :=
  let ph := l.ph.map fun p => wordBytes p.1 ++ wordBytes p.2
  leBytes 2 l.sid ++ leBytes 2 l.flags ++ leBytes 8 (postmark l.sec l.k l.rate) ++ leBytes 6 (secOf l.arr) ++
    leBytes 4 (nsOf l.arr) ++ leBytes 2 (fracOf l.arr) ++ leBytes 2 l.stat ++ leBytes 2 l.cfgcnt ++
    leBytes 2 (l.phn * 2 ^ 9 + l.ann * 2 ^ 4 + l.dgn) ++ leBytes 1 l.path ++ leBytes 1 l.tq ++
    padTo 256 (ph.flatten.take 256) ++ wordBytes l.freq ++ wordBytes l.rocof ++
    padTo 64 ((l.an.flatMap wordBytes).take 64) ++ padTo 16 ((l.dg.flatMap (leBytes 2)).take 16) ++ List.replicate 8 0

/-- Count a letter dead on its stream's flow. -/
def State.deadLetter (s : State) (code : Nat) (l : Letter) : State :=
  s.dead code l.sid (some (postmark l.sec l.k l.rate)) false (some (letterBytes l))

/-! ### Rates and instants (R126, R140 to R142) -/

/-- Frames per second of a rate code; codes 12 to 15 read as code 7 (R177). -/
def fps (code : Nat) : Nat := nth [10, 12, 15, 20, 25, 30, 50, 60, 100, 120, 200, 240] code 60

/-- The rate code of a number of frames per second. -/
def rateCode (r : Nat) : Option Nat := [10, 12, 15, 20, 25, 30, 50, 60, 100, 120, 200, 240].findIdx? (· == r)

/-- The instant count of a time at a rate (R140, R143): s × r + k, ties to the later instant. -/
def instantOf (t : Time) (r : Nat) : Nat := secOf t * r + (2 * (t % second) * r + second) / (2 * second)

/-- The nominal time of an instant count, rounded to 2^-16 ns (R141). -/
def instantTime (n r : Nat) : Time := n / r * second + roundDiv (n % r * second) r

/-- Off-grid (R142): farther from the instant than ROUND.TOL thousandths of the interval, decided exactly. -/
def offGrid (t : Time) (r tol : Nat) : Bool :=
  let n := instantOf t r
  decide (tol * second < ((t : Int) * r - (n : Int) * second).natAbs * 1000)

/-- ROUND.TOL held to 1 to 250 (R176). -/
def State.roundTol (s : State) : Nat := clampN 1 250 (s.rd Reg.ROUND_TOL [])

/-! ### Streams: STAB entries of remote and local SIDs (R139) -/

/-- Fields of STAB entries come in two windows; this picks the one of a SID and its index in it. -/
def stab (f g : Fld) (sid : Nat) : Fld × List Nat := if sid < 16384 then (f, [sid]) else (g, [sid - 16384])

def State.stabRd (s : State) (f g : Fld) (sid : Nat) : Nat := s.rd (stab f g sid).1 (stab f g sid).2
def State.stabWr (s : State) (f g : Fld) (sid v : Nat) : State := s.wr (stab f g sid).1 (stab f g sid).2 v

/-- Rate in frames per second and life state of a stream. -/
def State.sidFps (s : State) (sid : Nat) : Nat := fps (s.stabRd Reg.STAB_RATE Reg.LSTAB_RATE sid)
def State.sidState (s : State) (sid : Nat) : Nat := s.stabRd Reg.STAB_STATE Reg.LSTAB_STATE sid

/-! ### Rounds beside their registers -/

/-- The rate code of a Round: 12 to 15 are taken as 7 (R177). -/
def State.rndRate (s : State) (r : Nat) : Nat :=
  let c := s.rd Reg.WHL_RND_CTL_RATE [r]
  if 12 ≤ c then 7 else c

/-- The POSTMARK of a Round's instant (R125). -/
def State.rndMark (s : State) (r n : Nat) : Nat := postmark (n / fps (s.rndRate r)) (n % fps (s.rndRate r)) (s.rndRate r)

def State.rndFps (s : State) (r : Nat) : Nat := fps (s.rd Reg.WHL_RND_CTL_RATE [r])

def rnd0St : RndSt := ⟨[], none, [], 0, 0, 0, [], [], [], [], none, false, none, [], [], [], [], []⟩
def State.rndSt (s : State) (r : Nat) : RndSt := sget s.whl.rnds r rnd0St
def State.setRnd (s : State) (r : Nat) (v : RndSt) : State := { s with whl := { s.whl with rnds := sset s.whl.rnds r v } }

/-- What a sample says of a Round's mailbag (R205): its POSTMARK, whether its content is a dispatch record's, and the first 48 bytes of that
record, where it is one of the last mailbags dispatched. -/
def State.bagMark (s : State) (r n : Nat) : Option Nat × Bool × Option (List Byte) :=
  let c := sfind (s.rndSt r).recs n
  (some (s.rndMark r n), c.isSome, c)

/-! ### Transmission (R98 to R100, R27) -/

def port0 : PortSt := ⟨[], [], false, false, false, none, 0, 0, false, 0, 0⟩

/-- The PRP pair of a port, if it is paired (R96): pair number and whether the port is LAN B. -/
def State.prpOf (s : State) (p : Nat) : Option (Nat × Bool) :=
  if p / 2 = 0 then (if s.flag Reg.NET_PRP_PAIR01 [] then some (0, p == 1) else none)
  else (if s.flag Reg.NET_PRP_PAIR23 [] then some (1, p == 3) else none)

/-- A PCS loopback is in force (R131): LOOP, in SERVICE only. What a looped port sends comes back to its own receive front, as a
receive command of its own. -/
def State.looping (s : State) (p : Nat) : Bool := s.mode == .service && s.flag Reg.NET_PORT_CFG_LOOP [p]

/-- A data frame of a Round's mailbag is shed at a port (R100). -/
def State.shedFrame (s : State) (p : Nat) (x : Nat × Nat) : State :=
  let (pm, rec_, c) := s.bagMark x.1 x.2
  ((s.inc Reg.NET_PORT_TX_SHED [p]).notice bNET 5 p 0 0).dead 0x0C (0x4400 + x.1) pm rec_ c

/-- A data frame whose time to start on the wire has passed (R100). -/
def State.overdue (s : State) (f : TxFrame) : Option (Nat × Nat) := (f.shedAt.filter fun u => decide (u.1 ≤ s.now)).map (·.2)

/-- A frame's turn on the wire: it starts and is counted, or, a data frame past its time, is shed (R100, R132). -/
def State.startTx (s : State) (f : TxFrame) : State :=
  match s.overdue f with
  | some x => s.shedFrame f.port x
  | none =>
    let s : State := if f.counted then s else s.inc Reg.NET_PORT_TX_FRAMES [f.port]
    s.emit (if s.looping f.port then .looped { f with counted := true } else .frame { f with counted := true })

/-- Put one frame on one port: on the wire at once, queued while the port is paused, or, in STANDBY, formatted, counted and
discarded (R27, R99, R100, R132). What is no Round frame and no alarm message is not held back by the mode. A frame that a pair
held was counted when it was formatted (R419). -/
def State.txOne (s : State) (f : TxFrame) : State :=
  let ps := sget s.net.ports f.port port0
  if (f.cls == 1 || f.cls == 2) && !f.counted && (s.pair.muteNow || (s.mode == .standby && !s.pair.emitNow)) then
    s.inc Reg.NET_PORT_TX_FRAMES [f.port]
  else if (ps.paused || ps.prios.contains f.pcp) && !ps.cut then
    { s with net := { s.net with ports := sset s.net.ports f.port { ps with queue := ps.queue ++ [f] } } }
  else s.startTx f

/-- The VLAN tag a port gives its own frames. -/
def State.portVlan (s : State) (p : Nat) : Option Nat :=
  if s.flag Reg.NET_PORT_VLAN_TX_UNTAG [p] then none else some (s.rd Reg.NET_PORT_VLAN_VID [p])

/-- Send a body from a port, or from both LANs of its pair with one sequence number (R98), with the VLAN tag a function
of the port gives; `count` is false where TX_FRAMES has counted it. Nothing leaves a port that is not enabled. -/
def State.txV (s : State) (count : Bool) (vl : Nat → Option Nat) (port cls pcp : Nat) (shedAt : Option (Time × Nat × Nat)) (body : TxBody) : State :=
  match s.prpOf port with
  | none =>
    if s.flag Reg.NET_PORT_CFG_EN [port] then s.txOne ⟨port, cls, pcp, vl port, none, shedAt, !count, body⟩ else s
  | some (pair, _) =>
    let q := sget s.net.prpSeq pair 0
    let s : State := { s with net := { s.net with prpSeq := sset s.net.prpSeq pair ((q + 1) % 65536) } }
    forEach [2 * pair, 2 * pair + 1] (fun p a =>
      if a.flag Reg.NET_PORT_CFG_EN [p] then a.txOne ⟨p, cls, pcp, vl p, some (p % 2 == 1, q), shedAt, !count, body⟩ else a) s

/-- Send a body with the port's own VLAN tag. -/
def State.tx (s : State) (port cls pcp : Nat) (shedAt : Option (Time × Nat × Nat)) (body : TxBody) : State :=
  s.txV true s.portVlan port cls pcp shedAt body

/-! ### Sorters and work items (R181 to R195) -/

def srt0 : SrtHid := ⟨none, 0, false, [], 0⟩

/-- Power state of a sorter: 0 Run, 1 Nap, 2 Sleep, 3 Off (R20, R46). -/
def State.srtState (s : State) (n : Nat) : Nat := (s.word (0x160000 + 4 * (n / 16))).toNat / 4 ^ (n % 16) % 4

def State.setSrtState (s : State) (n v : Nat) : State :=
  let off := 0x160000 + 4 * (n / 16)
  let w := (s.word off).toNat
  s.put 0x160000 off (BitVec.ofNat 32 (w - w / 4 ^ (n % 16) % 4 * 4 ^ (n % 16) + v % 4 * 4 ^ (n % 16)))

/-- Is a sorter fenced (R16, R47)? -/
def State.fenced (s : State) (n : Nat) : Bool := s.rd Reg.PWR_SRT_FENCE_FENCE [n / 32] / 2 ^ (n % 32) % 2 == 1

def State.srtHid (s : State) (n : Nat) : SrtHid := sget s.sof.srts n srt0
def State.setSrtHid (s : State) (n : Nat) (h : SrtHid) : State :=
  { s with sof := { s.sof with srts := sset s.sof.srts n h } }

/-- The unfenced sorters, rising. -/
def State.unfenced (s : State) : List Nat := (List.range 64).filter fun n => !s.fenced n

/-- The flow that spawns most of a flow's items, where the flow has no home of its own (R197): a machine's and islanding's
items come from their Round, those of source localisation from its Round. -/
def State.feeder (s : State) (flow : Nat) : Option Nat :=
  if 0x4C00 ≤ flow ∧ flow < 0x5000 then some (0x4400 + s.rd Reg.AM_RND [flow - 0x4C00])
  else if flow = 0x5000 ∨ flow = 0x5001 then some (0x4400 + s.rd Reg.ISL_CTL_RND [])
  else if flow = 0x5C10 then some (0x4400 + s.rd Reg.OSC_DEF_CTL_RND [])
  else none

/-- The home of a flow that has a register for it, or of a housekeeping flow. -/
def State.ownHome (s : State) (flow : Nat) : Nat :=
  if flow < 0x4008 then s.stabRd Reg.STAB_HOME Reg.LSTAB_HOME flow
  else if 0x4400 ≤ flow ∧ flow < 0x4440 then s.rd Reg.PLC_RND_HOME [flow - 0x4400]
  else if 0x4800 ≤ flow ∧ flow < 0x4900 then s.rd Reg.PLC_AG_HOME [flow - 0x4800]
  else sget s.sof.homes flow (s.sof.active.headD 0)

def State.ownFallback (s : State) (flow : Nat) : Nat :=
  if flow < 0x4008 then s.stabRd Reg.STAB_FALLBACK Reg.LSTAB_FALLBACK flow
  else if 0x4400 ≤ flow ∧ flow < 0x4440 then s.rd Reg.PLC_RND_FALLBACK [flow - 0x4400]
  else if 0x4800 ≤ flow ∧ flow < 0x4900 then s.rd Reg.PLC_AG_FALLBACK [flow - 0x4800]
  else sget s.sof.fallbacks flow (s.sof.active.headD 0)

/-- A flow's home and fallback sorter. -/
def State.home (s : State) (flow : Nat) : Nat := s.ownHome ((s.feeder flow).getD flow)
def State.fallback (s : State) (flow : Nat) : Nat := s.ownFallback ((s.feeder flow).getD flow)

def State.setHome (s : State) (flow h : Nat) : State :=
  if flow < 0x4008 then s.stabWr Reg.STAB_HOME Reg.LSTAB_HOME flow h
  else if 0x4400 ≤ flow ∧ flow < 0x4440 then s.wr Reg.PLC_RND_HOME [flow - 0x4400] h
  else if 0x4800 ≤ flow ∧ flow < 0x4900 then s.wr Reg.PLC_AG_HOME [flow - 0x4800] h
  else { s with sof := { s.sof with homes := sset s.sof.homes flow h } }

def State.setFallback (s : State) (flow h : Nat) : State :=
  if flow < 0x4008 then s.stabWr Reg.STAB_FALLBACK Reg.LSTAB_FALLBACK flow h
  else if 0x4400 ≤ flow ∧ flow < 0x4440 then s.wr Reg.PLC_RND_FALLBACK [flow - 0x4400] h
  else if 0x4800 ≤ flow ∧ flow < 0x4900 then s.wr Reg.PLC_AG_FALLBACK [flow - 0x4800] h
  else { s with sof := { s.sof with fallbacks := sset s.sof.fallbacks flow h } }

/-! ### Offering items to rings (R211, R214) -/

/-- The postmark and the first 48 bytes that a sample of a shed item carries: a dispatch record's, for TYPE 1 (R205). -/
def shedMark (typ : Nat) (data : List Byte) : Option Nat × Bool × Option (List Byte) :=
  if typ = 1 then (some (leAt data 4 8), true, some (data.take 48)) else (none, false, none)

/-- An item that a ring cuts or sheds counts once with reason 0x18. It is class 0 work at its flow's home; the record of a mailbag names its
release slot (R164, R219). -/
def State.countShed (s : State) (typ flow : Nat) (data : List Byte) : State :=
  let (pm, rec_, content) := shedMark typ data
  (s.dead 0x18 flow pm rec_ content).traceEv 10 0 (s.home flow) flow 0x18 (if typ = 1 then leAt data 22 2 else 0)

/-- Offer one item to one ring (R211). -/
def State.prOffer (s : State) (r typ info flow : Nat) (data : List Byte) (cutRec : Option (List Byte)) : State :=
  match s.prPut r typ info data cutRec with
  | (s, .whole) => s
  | (s, _) => s.countShed typ flow data

/-- Offer an item of a source to the rings that take it (R214, R27). -/
def State.offer (s : State) (src rnd info flow : Nat) (sel : Nat → Bool) (data : List Byte) (cutRec : Option (List Byte)) :
    State :=
  if s.sourceRuns src then
    forEach ((List.range 128).filter (s.ringTakes src rnd sel)) (fun r a => a.prOffer r src info flow data cutRec) s
  else s

/-! ### Flows and classes (R182, R186) -/

/-- Is a flow ordered (R182)? -/
def orderedFlow (flow : Nat) : Bool := decide (0x4400 ≤ flow ∧ flow < 0x4440)
/-- Is a flow number in use (R182)? -/
def flowUsed (flow : Nat) : Bool :=
  decide (flow < 0x4008) || orderedFlow flow || decide (0x4800 ≤ flow ∧ flow < 0x4900) ||
  decide (0x4C00 ≤ flow ∧ flow < 0x5000) || decide (0x5000 ≤ flow ∧ flow < 0x5100) ||
  decide (0x5800 ≤ flow ∧ flow < 0x5810) || decide (0x5C00 ≤ flow ∧ flow < 0x5D00)
/-- A letterbox ring's flow. -/
def lbFlow (m : Nat) : Nat := 0x5800 + m
def isLbFlow (flow : Nat) : Bool := decide (0x5800 ≤ flow ∧ flow < 0x5810)
def isAlarmFlow (flow : Nat) : Bool := decide (0x4C00 ≤ flow ∧ flow < 0x5000)

/-- The pool quota of a class (R186). The four quotas are the whole pool of 131,072 entries (R184), so a class's escape reserve of 64 is the
last 64 of its quota (log entry 131, DEDUCED). -/
def quota (c : Nat) : Nat := if c = 2 then 81920 else 16384

/-- What a class gives but to its escape reserve. No item's fan-out targets class 1: ingress has all of it. -/
def plainQuota (c : Nat) : Nat := if c = 1 then quota c else quota c - 64

/-- The items an item may spawn, by class: what it reserves before it starts (R186, R187). What a dispatch spawns is
`State.dspFan`; no other work of this model spawns into classes 1 to 3. -/
def Work.fanOut (w : Work) : Nat → Nat
  | 0 => match w with
    | .derive_ _ _ _ => 1 | .separation _ _ _ => 1 | .letterbox _ _ _ => 2 | .group _ _ _ _ _ _ => 1 | _ => 0
  | _ => 0

/-- Pool entries in use in a class, reservations included; a closed mailbag that waits for its dispatch is work of class 1 (R186). -/
def State.occ (s : State) (c : Nat) : Nat :=
  (s.sof.items.filter fun i => i.cls == c).length +
    ((s.sof.items.filter fun i => i.serving).map fun i => i.work.fanOut c).sum +
    (if c = 1 then (s.whl.rnds.map fun e => (e.2.bags.filter fun b => b.close.isSome).length).sum else 0)

/-- Show the occupancy and keep its high mark (R223). -/
def State.showOcc (s : State) : State :=
  forEach (List.range 4) (fun c a =>
    let n := a.occ c
    let a := a.wr Reg.SOF_CLS_OCC_OCC [c] n
    if a.rd Reg.SOF_CLS_HIGH_HIGH [c] < n then a.wr Reg.SOF_CLS_HIGH_HIGH [c] n else a) s

/-- Show the tokens that wait in a sorter's home pigeonholes (R185, R220). -/
def State.showDepth (s : State) (n : Nat) : State :=
  let d (c : Nat) := min 255 (s.sof.items.filter fun i => i.srt == n && i.cls == c && !i.guest && i.ready.isSome && !i.serving).length
  s.wr Reg.SRT_DEPTH [n] (d 0 + 256 * d 1 + 65536 * d 2 + 16777216 * d 3)

/-- The sorter an item of a flow is queued at, and whether as a guest (R24, R190). In WATCH and HELD the lowest-numbered
unfenced sorter serves letterbox work (R601). -/
def State.place (s : State) (flow : Nat) : Nat × Bool :=
  let okSrt (n : Nat) : Bool := !s.fenced n && s.srtState n != 3
  if s.processing then
    let h := s.home flow
    if okSrt h then (h, false)
    else
      let f := s.fallback flow
      if okSrt f then (f, true) else (((List.range 64).find? okSrt).getD f, true)
  else (s.unfenced.headD 0, false)

/-- A flow's home changes: HOMED, the moves of both sorters and of a stream are counted, and the change is traced (R219, R220,
R227). -/
def State.rehome (s : State) (flow n : Nat) : State :=
  let old := s.ownHome flow
  if old = n then s
  else
    let s := s.setHome flow n
    let s := (s.wr Reg.SRT_HOMED [old] (s.rd Reg.SRT_HOMED [old] - 1)).inc Reg.SRT_HOMED [n]
    let s := ((s.inc Reg.SRT_MIGR_OUT [old]).inc Reg.SRT_MIGR_IN [n]).traceEv 9 0 old flow n 0
    if flow < 0x4008 then
      (s.stabWr Reg.STAB_MOVES Reg.LSTAB_MOVES flow (s.stabRd Reg.STAB_MOVES Reg.LSTAB_MOVES flow + 1)).stabWr Reg.STAB_LAST_MOVE
        Reg.LSTAB_LAST_MOVE flow (secOf s.now)
    else s

/-- A sorter outside the active set with no homed flow and nothing to do, which belongs in Off (R21). -/
def State.surplus (s : State) (n : Nat) : Bool :=
  !s.sof.active.contains n && s.rd Reg.SRT_HOMED [n] == 0 && s.srtState n != 3 && !(s.sof.items.any fun i => i.srt == n)

/-- Start waking a sorter that is not in Run (R20, R22, R23). The spec has no code for a wake in progress: PWR_SRT_STATE shows the
state being left until the wake is done (DESIGN CHOICE, log entry 50). -/
def State.wake (s : State) (n : Nat) (sched : Option Time) : State :=
  let h := s.srtHid n
  if s.srtState n = 0 || s.fenced n then s
  else if h.waking.isSome then s
  else (s.setSrtHid n { h with waking := some (s.now, s.srtState n, sched) }).traceEv 8 0 n 0xFFFF (s.srtState n) 0

/-- Every sorter in whose pigeonholes an item waits is woken (R22). -/
def State.wakeHoles (s : State) : State :=
  forEach ((s.sof.items.filter fun i => !i.serving && i.ready.isSome).map (·.srt)).eraseDups (fun n a => a.wake n none) s

/-- The wake latency from a state left (R20): 40 ns from Nap, 2 µs from Sleep, 120 µs from Off. -/
def wakeTime (left : Nat) : Time := if left = 1 then 40 * nsU else if left = 2 then 2 * usU else 120 * usU

/-- A sorter's wake has taken its time: at this moment it reaches for what waits in its pigeonholes. -/
def State.wakeDue (s : State) (n : Nat) : Bool :=
  match (s.srtHid n).waking with | some (since, left, _) => decide (since + wakeTime left ≤ s.now) | none => false

/-- A sorter with an item in service. -/
def State.busy (s : State) (n : Nat) : Bool := s.sof.items.any fun i => i.serving && i.srt == n

/-- Does a machine read an islanding result (R291)? -/
def State.readsIsl (s : State) (m : Nat) : Bool := (List.range 4).any fun k => s.rd Reg.AM_IN_SRC [m, k] == 5

/-- A step of the islanding Round with an islanding input waits for the separation item of its mailbag (R294). -/
def State.waitsSep (s : State) (i : Item) : Bool :=
  match i.work with
  | .machine m r n _ _ => r == s.rd Reg.ISL_CTL_RND [] && s.readsIsl m &&
      s.sof.items.any fun j => match j.work with | .separation k _ _ => k == n | _ => false
  | _ => false

/-- Is an item entered in a pigeonhole (R185)? On an ordered flow each one is; on an atomic flow the oldest, as the flow's
one ready token, while nothing of the flow is in service. A held item waits for its flow's move (R200). -/
def State.inHole (s : State) (i : Item) : Bool :=
  !i.serving && !i.held &&
    (orderedFlow i.flow ||
      !(s.sof.items.any fun j => j.flow == i.flow && (j.serving || decide (j.key < i.key)) && j.key != i.key))

/-- May an item start (R183, R188)? -/
def State.startable (s : State) (i : Item) : Bool := s.inHole i && !s.waitsSep i

/-- The Round whose reporting interval times an item's expiry (R193). -/
def State.itemRnd (s : State) (w : Work) : Option Nat :=
  match w with
  | .derive_ r _ _ => some r
  | .group _ r _ _ _ _ => some r
  | .defUpd r _ _ _ => some r
  | .coherency _ _ _ => some (s.rd Reg.ISL_CTL_RND [])
  | .separation _ _ _ => some (s.rd Reg.ISL_CTL_RND [])
  | _ => none

/-- When a class 2 item that has not started expires (R193): C2_RI intervals after the instant of its mailbag. -/
def State.expiresAt (s : State) (i : Item) : Option Time :=
  match s.itemRnd i.work, i.instant with
  | some r, some tk => some (tk + clampN 1 60 (s.rd Reg.SOF_EXPIRE_C2_RI []) * second / s.rndFps r)
  | _, _ => none

/-- An item that expires at this moment: its cancellation wins over its start (R195). -/
def State.expired (s : State) (i : Item) : Bool :=
  i.cls == 2 && match s.expiresAt i with | some u => decide (u ≤ s.now) | none => false

/-! ### Reservations (R186, R187) -/

/-- A mailbag closed before a time waits to be dispatched. -/
def State.dspWaits (s : State) (t : Time) : Bool :=
  s.whl.rnds.any fun e => match e.2.bags.head? with
    | some b => (match b.close with | some c => decide (c.1 < t) | none => false)
    | none => false

/-- Is an item the oldest that waits among those whose fan-out targets a class? A closed mailbag waits since its close. -/
def State.oldestFan (s : State) (c : Nat) (i : Item) : Bool :=
  !(s.sof.items.any fun j => !j.serving && decide (j.key < i.key) && j.work.fanOut c != 0) && !(c == 0 && s.dspWaits i.enq)

/-- Room for a number of entries in a class: in its quota, or for the oldest in its escape reserve too. -/
def State.poolFits (s : State) (c need : Nat) (oldest : Bool) : Bool :=
  need == 0 || decide (s.occ c + need ≤ plainQuota c) || (oldest && decide (s.occ c + need ≤ quota c))

/-- Are an item's reservations granted (R187)? -/
def State.granted (s : State) (i : Item) : Bool :=
  (List.range 4).all fun c => s.poolFits c (i.work.fanOut c) (s.oldestFan c i)

/-- The classes whose escape reserve a reservation draws on. -/
def State.escapes (s : State) (need : Nat → Nat) : List Nat :=
  (List.range 4).filter fun c => need c != 0 && decide (plainQuota c < s.occ c + need c)

/-- Count the draws on escape reserves (R187). -/
def State.countDraws (s : State) (cs : List Nat) (cls srt flow seq : Nat) : State :=
  forEach cs (fun _ a => ((a.inc Reg.SOF_ESC_USED_COUNT []).notice bSOF 1 flow 0 0).traceEv 12 cls srt flow 0 seq) s

/-- Room for one more item of class 3 from the timer or a fetch: its quota and its escape reserve (R186). -/
def State.hkRoom (s : State) : Bool := decide (s.occ 3 < quota 3)

/-- SEQ of a trace record (R219): the release slot, or for a letter K and the low 24 bits of its second. -/
def traceSeq (w : Work) (slot : Option (Nat × Nat)) : Nat :=
  match w with
  | .file l _ => l.k % 256 * 2 ^ 24 + l.sec % 2 ^ 24
  | _ => (slot.map (·.2)).getD 0

/-- Pigeonhole number of an item (R185). -/
def Item.hole (i : Item) : Nat := 128 * i.cls + 2 * i.srt + (if i.guest then 1 else 0)

/-- The earlier of two items: by enqueue time, then by pigeonhole number (R188), then by identity. -/
def Item.before (a b : Item) : Bool :=
  decide (a.enq < b.enq) || (a.enq == b.enq && (decide (a.hole < b.hole) || (a.hole == b.hole && decide (a.key < b.key))))

/-- The oldest of some items. -/
def oldestItem : List Item → Option Item
  | [] => none
  | i :: r => match oldestItem r with
    | none => some i
    | some j => if j.before i then some j else some i

/-- Put an item into service on a sorter. -/
def State.startItem (s : State) (i : Item) (n : Nat) : State :=
  let s := s.countDraws (s.escapes i.work.fanOut) i.cls n i.flow (traceSeq i.work i.slot)
  let wait := roundDiv (s.now - i.enq) nsU
  let s : State := if s.rd Reg.SRT_MAX_WAIT [n] < wait then s.wr Reg.SRT_MAX_WAIT [n] (min wait (2 ^ 32 - 1)) else s
  let s : State := { s with sof := { s.sof with items := s.sof.items.map fun (j : Item) => if j.key == i.key then { j with serving := true, srt := n, since := s.now } else j } }
  ((s.traceEv 2 i.cls n i.flow 0 (traceSeq i.work i.slot)).showDepth i.srt).showOcc

/-- Work that runs in WATCH and HELD: letterbox commands and what they spawn (R601). -/
def Work.letterboxWork : Work → Bool
  | .letterbox _ _ _ => true
  | .completion _ _ => true
  | .ringWrite _ _ _ _ => true
  | _ => false

/-- May an item be chosen now: it may start, its reservations are granted, the mode runs its work, and it does not expire at
this moment? -/
def State.choosable (s : State) (i : Item) : Bool :=
  s.startable i && s.granted i && !s.expired i && (s.processing || i.work.letterboxWork)

/-- The oldest item of a class in a sorter's own pigeonholes that may be chosen. -/
def State.ownItem (s : State) (n c : Nat) : Option Item :=
  oldestItem (s.sof.items.filter fun i => i.srt == n && i.cls == c && s.choosable i)

/-- May a sorter steal an item (R189)? It has stood STEAL_NS as a ready token in a home pigeonhole of another sorter, which is
not itself reaching for it as its wake ends (R190). -/
def State.stealable (s : State) (n : Nat) (i : Item) : Bool :=
  i.srt != n && !i.guest && s.choosable i && !s.wakeDue i.srt &&
    match i.ready with | some t => decide (s.rd Reg.SOF_CTL_STEAL_NS [] * nsU ≤ s.now - t) | none => false

/-- How an item was chosen: from the sorter's own pigeonholes, or from another's. -/
inductive Pick where
  | own | stolen
  deriving DecidableEq, Repr

/-- The item a sorter takes next (R188) where no class 3 turn is due: by class its own, else one it may steal. -/
def State.selectNext (s : State) (n : Nat) (maySteal : Bool) : Option (Item × Pick) :=
  (List.range 4).findSome? fun c =>
    match s.ownItem n c with
    | some i => some (i, .own)
    | none =>
      if maySteal && s.processing then (oldestItem (s.sof.items.filter fun i => i.cls == c && s.stealable n i)).map fun i => (i, .stolen)
      else none

/-- The class 3 turn of a sorter is due (R188): AGE items ran since the last, and class 3 work waits in its pigeonholes. -/
def State.c3Due (s : State) (n : Nat) : Bool :=
  decide (max 1 (s.rd Reg.SOF_CTL_AGE []) ≤ (s.srtHid n).c3) &&
    s.sof.items.any fun i => i.srt == n && i.cls == 3 && i.ready.isSome && !i.serving && (s.processing || i.work.letterboxWork)

/-- Count a steal (R189, R220). -/
def State.countSteal (s : State) (n : Nat) (i : Item) : State :=
  let s := ((s.inc Reg.SRT_STOLEN_IN [n]).inc Reg.SRT_STOLEN_OUT [i.srt]).traceEv 4 i.cls n i.flow i.srt (traceSeq i.work i.slot)
  if i.flow < 0x4008 then s.stabWr Reg.STAB_STEALS Reg.LSTAB_STEALS i.flow (s.stabRd Reg.STAB_STEALS Reg.LSTAB_STEALS i.flow + 1) else s

/-- A sorter in Run with nothing in service takes its next item, if any (R188). A class 3 turn that is due starts the count of
items anew, also where no item of class 3 may start. -/
def State.sorterNext (s : State) (n : Nat) (maySteal : Bool) : State :=
  if s.srtState n != 0 || s.fenced n || s.busy n || (s.srtHid n).kat || (s.srtHid n).waking.isSome then s
  else if s.c3Due n then
    let s := s.setSrtHid n { s.srtHid n with c3 := 0 }
    match s.ownItem n 3 with
    | none => s
    | some i => s.startItem i n
  else
    match s.selectNext n maySteal with
    | none => s
    | some (i, .own) => (if i.cls < 3 then s.setSrtHid n { s.srtHid n with c3 := (s.srtHid n).c3 + 1 } else s).startItem i n
    | some (i, .stolen) => (s.countSteal n i).startItem i n

/-- Every sorter in Run with nothing in service takes what has become startable in its own pigeonholes. -/
def State.kick (s : State) : State := forEach (List.range 64) (fun n a => a.sorterNext n false) s

/-- Change items of the pool. -/
def State.mapItems (s : State) (f : Item → Item) : State := { s with sof := { s.sof with items := s.sof.items.map f } }

/-- Enter in their pigeonholes the tokens that have become ready (R185): each notes the moment, its sorter shows it, and is
woken (R22). -/
def State.tokens (s : State) : State :=
  let fresh := s.sof.items.filter fun i => i.ready.isNone && s.inHole i
  let s := s.mapItems fun i =>
    if i.serving then i else { i with ready := if s.inHole i then some (i.ready.getD s.now) else none }
  forEach (fresh.map (·.srt)).eraseDups (fun n a => (a.showDepth n).wake n none) s

/-- Is this start, or was the last, a warm start? -/
def State.warmStart (s : State) : Bool := s.rd Reg.STRT_STAT_KIND [] == 2

/-- Enqueue an item (R185, R190): its place, its token, the wake its sorter needs, and its start if the sorter is idle in
Run. -/
def State.enqueue (s : State) (flow cls : Nat) (work : Work) (slot : Option (Nat × Nat)) (instant : Option Time) : State :=
  let going := s.sof.moves.find? fun m => m.flow == flow && m.started
  let (n, g) := match going with | some m => (m.dst, false) | none => s.place flow
  let i : Item := ⟨s.sof.nextId, flow, cls, work, n, g, s.now, slot, instant, false, false, false, going.isSome, 0, none⟩
  let s : State := { s with sof := { s.sof with items := s.sof.items ++ [i], nextId := s.sof.nextId + 1 } }
  ((s.traceEv 1 cls n flow 0 (traceSeq work slot)).showOcc.tokens).sorterNext n false

/-- Enqueue an item of class 3 from the timer or a fetch; a full quota makes it a draw on the escape reserve (R186, R187). -/
def State.enqueueC3 (s : State) (flow : Nat) (work : Work) : State :=
  let cs := if plainQuota 3 ≤ s.occ 3 then [3] else []
  (s.countDraws cs 3 (s.place flow).1 flow 0).enqueue flow 3 work none none

/-- Remove an item from the pool. -/
def State.dropItem (s : State) (id : Nat) : State :=
  { s with sof := { s.sof with items := s.sof.items.filter fun i => i.key != id } }

/-- The item of a flow that a step event acts on: the oldest whose content has not run, of the kind asked for. -/
def State.nextRun (s : State) (flow : Nat) (p : Work → Bool) : Option Item :=
  s.sof.items.find? fun i => i.flow == flow && !i.ran && p i.work

/-- Mark an item's content as run. -/
def State.markRan (s : State) (id : Nat) : State :=
  s.mapItems fun i => if i.key == id then { i with ran := true } else i

end Sys2Proof.Machine
end

