-- ==== Sys2Proof/Machine/KeyUse.lean ====
section
/-! DEFINITION. Using a Strongroom key: lookup, the counters and their reserve, refusals and expiry (R446 to R451, R459,
R460). The commands that change keys are in Machine/Strongroom.lean. -/
namespace Sys2Proof.Machine

def cat0 : CatEnt := ⟨0, 0, none, 0, 0, 0, 0, 0, 0, 0, 0, true⟩
def run0 : KeyRun := ⟨0, 0, 0, 0, 0, none, 0⟩

/-- A slot's catalogue entry; empty where none was written. -/
def State.cat (s : State) (n : Nat) : CatEnt := sget s.key.cat n cat0
def State.keyRun (s : State) (n : Nat) : KeyRun := sget s.key.run n run0

/-- The value the SPDU word of a slot view shows (R466). -/
def shownSpdu (e : CatEnt) (r : KeyRun) : Nat := if e.use / 2 % 2 = 1 then r.spdu else r.rxHigh

/-- Show slot `n` in its view (R466). -/
def State.showSlot (s : State) (n : Nat) : State :=
  let e := s.cat n
  let r := s.keyRun n
  let s := s.wr Reg.KEY_SLOT_STATE [n] e.state |>.wr Reg.KEY_SLOT_KTYPE [n] e.ktype
    |>.wr Reg.KEY_SLOT_PARENT [n] (e.parent.getD 0) |>.setFlag Reg.KEY_SLOT_PARENT_V [n] e.parent.isSome
    |>.wr Reg.KEY_SLOT_DEPTH [n] e.depth |>.wr Reg.KEY_SLOT_EXP [n] e.exp |>.wr Reg.KEY_SLOT_PHYS [n] e.phys
  let s := s.wr Reg.KEY_SLOT_KEYID [n] e.keyid |>.wr Reg.KEY_SLOT_GEN [n] e.gen |>.wr Reg.KEY_SLOT_USE [n] e.use
    |>.wr Reg.KEY_SLOT_NOT_AFTER [n, 0] e.notAfter |>.wr Reg.KEY_SLOT_NOT_AFTER [n, 1] (e.notAfter / 2 ^ 32)
  s.wr Reg.KEY_SLOT_USE_LIMIT [n] e.useLimit |>.wr Reg.KEY_SLOT_USED [n] r.used |>.wr Reg.KEY_SLOT_SPDU [n] (shownSpdu e r)

/-- Free physical slots: neither bad nor holding material (R457, KEY_STAT.SPARE). -/
def State.spareSlots (s : State) : List Nat :=
  (List.range 512).filter fun p => !s.key.bad.contains p && (sfind s.key.phys p).isNone

/-- Show the counts of KEY_STAT and KEY_BAD; a fall of SPARE below 16 is noticed (R465, R467). -/
def State.showKeyStat (s : State) : State :=
  let old := s.rd Reg.KEY_STAT_SPARE []
  let n := s.spareSlots.length
  let s := s.wr Reg.KEY_STAT_SPARE [] n |>.wr Reg.KEY_BAD_COUNT [] s.key.bad.length
    |>.wr Reg.KEY_STAT_LIVE [] ((s.key.cat.filter fun e => e.2.state == 1).length)
  if 16 ≤ old ∧ n < 16 then s.notice bKEY 8 0 n 0 else s

/-- Put a catalogue entry in place and show it. -/
def State.setCat (s : State) (n : Nat) (e : CatEnt) : State :=
  (({ s with key := { s.key with cat := sset s.key.cat n e } } : State).showSlot n).showKeyStat

def State.setRun (s : State) (n : Nat) (r : KeyRun) : State :=
  ({ s with key := { s.key with run := sset s.key.run n r } } : State).showSlot n

/-- Zeroise a slot's material in the cache and in every physical slot that holds it. -/
def State.zeroiseSlot (s : State) (n : Nat) : State :=
  { s with key := { s.key with cache := serase s.key.cache n, phys := s.key.phys.filter fun e => e.2.owner != n } }

/-- A slot leaves the live state: expired (5), exhausted (4), invalid (2). Expiry and invalidation zeroise it. -/
def State.endSlot (s : State) (n st bit : Nat) (zero : Bool) : State :=
  let s := if zero then s.zeroiseSlot n else s
  (s.setCat n { s.cat n with state := st }).notice bKEY bit n st 0

/-- The reserve rule (R450): when the count comes within 1,024 of its reserve, a raise by 4,096 is written. -/
def State.reserve (s : State) (n : Nat) : State :=
  let e := s.cat n
  let r := s.keyRun n
  let cap (v : Nat) := if e.useLimit = 0 then v else min v e.useLimit
  let u := if r.useRes ≤ r.used + 1024 then cap (r.useRes + 4096) else r.useRes
  let v := if e.use / 2 % 2 = 1 ∧ r.spduRes ≤ r.spdu + 1024 then min (r.spduRes + 4096) (2 ^ 32) else r.spduRes
  if r.pend.isNone ∧ (u ≠ r.useRes ∨ v ≠ r.spduRes) then s.setRun n { r with pend := some (u, v) } else s

/-- Is a use within the reserve? While a raise is being written, a use that would reach the reserve is refused (R450). -/
def State.inReserve (s : State) (n : Nat) (sign : Bool) : Bool :=
  let r := s.keyRun n
  r.pend.isNone || (decide (r.used + 1 < r.useRes) && (!sign || decide (r.spdu + 1 < r.spduRes)))

/-- Count one use, and for a signature the SPDU number it takes (R450, R460). -/
def State.countUse (s : State) (n : Nat) (sign : Bool) : State :=
  let e := s.cat n
  let r := s.keyRun n
  let s := (s.setRun n { r with used := r.used + 1, spdu := if sign then r.spdu + 1 else r.spdu }).reserve n
  let out := (e.useLimit != 0 && decide (e.useLimit ≤ r.used + 1)) || (sign && decide (2 ^ 32 ≤ r.spdu + 1))
  if out then s.endSlot n 4 3 false else s

/-- Count a refused use (R459, R467). -/
def State.refuseUse (s : State) (n : Nat) : State := (s.inc Reg.KEY_REFUSED_COUNT []).noticeFirst bKEY 4 n 0 0

/-- The KTYPE an algorithm needs (R447): 0 HMAC-SHA256, 1 AES-GMAC-128, 2 AES-GMAC-256; 3 is treated as 0. -/
def algType (alg : Nat) : Nat := if alg = 1 then 1 else if alg = 2 then 2 else 3

/-- Is a tag length one that an algorithm has (R115): 80, 128 or 256 bits of HMAC-SHA256, 128 bits of AES-GMAC? -/
def tagFits (alg bits : Nat) : Bool := if alg = 1 ∨ alg = 2 then bits == 128 else [80, 128, 256].contains bits

/-- The franking tag (R115): the first bits of HMAC-SHA256, or AES-GMAC under an initialisation vector, over the signed octets. -/
def frankTag (alg bits : Nat) (mat iv signed : List Byte) : List Byte :=
  if alg = 1 ∨ alg = 2 then gmac mat ((padTo 12 iv).take 12) signed else (hmac256 mat signed).take (bits / 8)

/-- The slot with a key ID and a USE bit (R459, R460): 0 FRANK, 1 SIGN_RG. -/
def State.keyFor (s : State) (keyid useBit : Nat) : Option Nat :=
  (s.key.cat.find? fun e => e.2.state != 0 && e.2.keyid == keyid && e.2.use / 2 ^ useBit % 2 == 1).map (·.1)

/-- Which key a FRANK key ID names now: its slot and the slot's GEN (R116: another key starts a new window). -/
def State.keyGen (s : State) (keyid : Nat) : Nat := match s.keyFor keyid 0 with | some n => 65536 * n + (s.cat n).gen | none => 0

/-- Has NOT_AFTER passed (R448)? -/
def State.keyPast (s : State) (n : Nat) : Bool :=
  let e := s.cat n
  e.notAfter != 0 && decide (e.notAfter ≤ secOf s.now)

/-- A slot is usable now: live, its NOT_AFTER not passed; a key found past it expires there (R448). -/
def State.expireNow (s : State) (n : Nat) : State := if (s.cat n).state = 1 ∧ s.keyPast n then s.endSlot n 5 2 true else s

/-- Take a slot for one use under a USE bit: the state with the use counted and the key's material, or the state with the
refusal counted. -/
def State.useSlot (s : State) (n useBit : Nat) : State × Option (List Byte) :=
  let s := s.expireNow n
  match sfind s.key.cache n with
  | some c =>
    if (s.cat n).state = 1 ∧ (s.cat n).use / 2 ^ useBit % 2 = 1 ∧ s.inReserve n (useBit == 1) = true then (s.countUse n (useBit == 1), some c.mat)
    else (s.refuseUse n, none)
  | none => (s.refuseUse n, none)

/-- The highest SPDU number accepted under a key is kept for the counter table (R451). -/
def State.noteRx (s : State) (keyid num : Nat) : State :=
  match s.keyFor keyid 0 with
  | some n => let r := s.keyRun n; s.setRun n { r with rxHigh := max r.rxHigh num }
  | none => s

/-- RX_HIGH as the last start took it, for a FRANK key (R451). -/
def State.startHigh (s : State) (keyid : Nat) : Nat := match s.keyFor keyid 0 with | some n => (s.keyRun n).startHigh | none => 0

/-- Take a key for one use: the state with the use counted and the key's material, or the state with the refusal
counted (R459). A key found past its NOT_AFTER expires there (R448). -/
def State.useKey (s : State) (keyid useBit alg : Nat) : State × Option (List Byte) :=
  match s.keyFor keyid useBit with
  | none => (s.refuseUse 0, none)
  | some n =>
    let s := s.expireNow n
    let e := s.cat n
    match sfind s.key.cache n with
    | some c =>
      if e.state = 1 ∧ e.ktype = algType alg ∧ s.inReserve n (useBit == 1) = true then (s.countUse n (useBit == 1), some c.mat)
      else (s.refuseUse n, none)
    | none => (s.refuseUse n, none)

end Sys2Proof.Machine
end

