-- ==== Sys2Proof/Machine/PlkBytes.lean ====
section
/-! DEFINITION. The octets of the Prourn Link (R408, R409, R411, R417, R419, R420): frames, payloads and fragments. Where the spec names a
payload's content and not its layout, the layout is the model's own (log entry 134, DESIGN CHOICE). -/
namespace Sys2Proof.Machine

/-- Types 8 and 9 form the second ordered stream (R410). -/
def PlkFrame.second (f : PlkFrame) : Bool := f.typ == 8 || f.typ == 9

/-- A frame's octets (R408): the header with the sender's device time, the payload, and the CRC-32C over both. -/
def PlkFrame.bytes (f : PlkFrame) (retx : Bool) (now : Time) : List Byte :=
  let b := leBytes 1 f.typ ++ leBytes 1 (bitN retx 0 + bitN f.last 1) ++ leBytes 2 f.payload.length ++ leBytes 4 f.seq ++
    leBytes 4 (nsOf now) ++ leBytes 4 (secOf now) ++ f.payload
  b ++ leBytes 4 (crc32c b)

/-- A payload in pieces of 2,048 bytes at most; the count is of the pieces after the first (R408). -/
def fragments : Nat → List Byte → List (List Byte)
  | 0, bs => [bs]
  | k + 1, bs => if bs.length ≤ 2048 then [bs] else bs.take 2048 :: fragments k (bs.drop 2048)

/-- The TYPE of a message (R409). -/
def PlkMsg.typ : PlkMsg → Nat
  | .hello _ _ _ | .switchOffer _ | .switchAccept _ | .switchRefuse | .fwdOn _ | .fwdOff _ => 2
  | .dispatch _ _ _ => 3
  | .copy _ => 4
  | .fwd _ => 5
  | .fetch _ => 6
  | .relSlot _ _ | .relPub _ _ _ => 7
  | .digest _ _ _ _ => 8
  | .catchup _ _ _ _ => 9
  | .rxmap _ => 11

/-- A bit map of `n` bits from the least significant bit of its first byte, in whole bytes. -/
def bitMap (n : Nat) (on : Nat → Bool) : List Byte :=
  (List.range ((n + 7) / 8)).map fun i => BitVec.ofNat 8 (((List.range 8).map fun k => bitN (decide (8 * i + k < n) && on (8 * i + k)) k).sum)

/-- A CTL payload: what it is (0 HELLO, 1 to 3 SWITCH_OFFER, ACCEPT and REFUSE, 4 FWD_ON, 5 FWD_OFF), a flag, a 32-bit and a 64-bit value. -/
def ctlBytes (kind : Nat) (flag : Bool) (a b : Nat) : List Byte :=
  leBytes 1 kind ++ leBytes 1 (bitN flag 0) ++ leBytes 2 0 ++ leBytes 4 a ++ leBytes 8 b

/-- The DISPATCH payload (R411). -/
def dispatchBytes (rec_ : List Byte) (members : List Nat) (d : PlkDispatch) : List Byte :=
  padTo 64 (rec_.take 64) ++ leBytes 4 d.vdig ++ leBytes 2 d.adds.length ++ leBytes 2 0 ++
    d.adds.flatMap (fun a => leBytes 4 (a.1 + a.2 * 65536)) ++ bitMap members.length (fun i => d.present.contains (members.getD i 0xFFFF))

/-- A record of a COPY (R417): tag, length in words, two reserved bytes, body. -/
def tagged (tag : Nat) (ws : List Nat) : List Byte := leBytes 1 tag ++ leBytes 1 ws.length ++ leBytes 2 0 ++ ws.flatMap (leBytes 4)

/-- The octets of a record. -/
def copyRecBytes (c : CopyRec) : List Byte :=
  match c with
  | .machine m st es en a i te o => tagged 1 [m, st, es, en, bitN a 0, bitN i 0, bitN te 0, o]
  | .alarmWords ws => tagged 2 ws
  | .publication q st sq step next => tagged 3 [q, st, sq, step, secOf next, nsOf next]
  | .sendKey k n => tagged 4 [k, n]
  | .group g ws first => tagged 5 (g :: ws.map (·.toNat) ++ [first])
  | .tie t st a => tagged 6 [t, st, a]
  | .admission sid ws st cache => tagged 7 (sid :: ws.map (·.toNat) ++ [st, cache])
  | .descr sid ws n => tagged 8 (sid :: ws.map (·.toNat) ++ [n])
  | .round r c k gate src seq =>
    let (v6, addr, port, p) := src.getD (false, 0, 0, 0)
    tagged 9 ([r, c, k, bitN gate 0 + bitN src.isSome 1 + bitN v6 2, addr, addr / 2 ^ 32, addr / 2 ^ 64, addr / 2 ^ 96, port, p, seq])
  | .mirrored a w be => tagged 10 [a, w.toNat, be]
  | .clustering n => tagged 11 [n]

/-- A FETCH payload (R409): word 0 the kind, word 1 the Round and the dispatch SEQ, then SIDs or CRCs. -/
def fetchBytes (m : FetchMsg) : List Byte :=
  match m with
  | .letters r q sids => leBytes 4 0 ++ leBytes 4 (r.val * 65536 + q) ++ sids.flatMap (leBytes 4)
  | .askCheck r q => leBytes 4 1 ++ leBytes 4 (r.val * 65536 + q)
  | .checkList r q crcs => leBytes 4 1 ++ leBytes 4 (r.val * 65536 + q) ++ crcs.flatMap (leBytes 4)
  | .catchup isl g => leBytes 4 (2 + bitN isl 2) ++ leBytes 4 g

/-- The payload of a message (R409). -/
def PlkMsg.payload : PlkMsg → List Byte
  | .hello crc pref mac => ctlBytes 0 pref crc mac
  | .switchOffer k => ctlBytes 1 false 0 k
  | .switchAccept k => ctlBytes 2 false 0 k
  | .switchRefuse => ctlBytes 3 false 0 0
  | .fwdOn sid => ctlBytes 4 false sid 0
  | .fwdOff sid => ctlBytes 5 false sid 0
  | .dispatch r ms d => dispatchBytes r ms d
  | .copy c => c.recs.flatMap copyRecBytes ++ tagged 255 [c.pm, c.pm / 2 ^ 32]
  | .fwd l => letterBytes l
  | .fetch m => fetchBytes m
  | .relSlot r q => leBytes 1 0 ++ leBytes 1 r ++ leBytes 2 q
  | .relPub q st sq => leBytes 1 1 ++ leBytes 1 q ++ leBytes 2 0 ++ leBytes 4 st ++ leBytes 4 sq
  | .digest isl g n crc => leBytes 1 (bitN isl 0) ++ leBytes 1 g ++ leBytes 2 0 ++ leBytes 4 n ++ leBytes 4 crc
  | .catchup isl g b data => leBytes 1 (bitN isl 0) ++ leBytes 1 g ++ leBytes 2 0 ++ leBytes 4 b ++ data
  | .rxmap sids => bitMap 16392 fun sid => sids.contains sid

end Sys2Proof.Machine
end

