-- ==== Sys2Proof/Machine/PairLink.lean ====
section
/-! DEFINITION. Sending on the Prourn Link (R407 to R410), and the outputs a standby holds (R419). -/
namespace Sys2Proof.Machine

/-- Put one frame on a lane that is up: types 8 and 9 by preference on PLK1, the others on PLK0 (R407). -/
def State.plkEmit (s : State) (retx : Bool) (f : PlkFrame) : State :=
  let l := s.rd Reg.PAIR_STAT_LANES []
  let lane : Nat := if f.second then (if l / 2 = 1 then 1 else 0) else (if l % 2 = 1 then 0 else 1)
  if l = 0 then s else s.emit (.plk lane (f.bytes retx s.now))

/-- The next frame of an ordered stream: it takes the stream's SEQ and stays in the replay store until it is acknowledged (R408, R410). -/
def State.plkPut (s : State) (typ : Nat) (last : Bool) (payload : List Byte) : State :=
  let f : PlkFrame := ⟨typ, last, if typ = 8 ∨ typ = 9 then s.pair.txSeq2 else s.pair.txSeq, payload⟩
  let q := (f.seq + 1) % 2 ^ 32
  let u := s.pair.unacked ++ [f]
  let s : State := if f.second then { s with pair := { s.pair with txSeq2 := q, unacked := u } } else { s with pair := { s.pair with txSeq := q, unacked := u } }
  s.plkEmit false f

/-- May a message go out? Nothing but a HELLO is sent while the link is data-down, and nothing in a unit that is no pair member. -/
def State.plkMay (s : State) (m : PlkMsg) : Bool :=
  s.flag Reg.PAIR_CFG_EN [] && (!s.flag Reg.PAIR_STAT_DATA_DOWN [] || (match m with | .hello _ _ _ => true | _ => false))

/-- Send a message on its ordered stream, in fragments where its payload is longer than 2,048 bytes; LAST marks the final one (R408). -/
def State.plkSend (s : State) (m : PlkMsg) : State :=
  if !s.plkMay m then s
  else
    let s : State := if s.pair.unacked.isEmpty then { s with pair := { s.pair with progAt := s.now } } else s
    let ps := fragments (m.payload.length / 2048) m.payload
    forEach ps.zipIdx (fun x a => a.plkPut m.typ (1 < ps.length && x.2 + 1 == ps.length) x.1) s

/-- The ACK: the highest SEQ received in order, one word per ordered stream (R409, R410). -/
def State.sendAck (s : State) : State :=
  let s : State := { s with pair := { s.pair with rxCount := 0 } }
  s.plkEmit false ⟨10, false, 0, leBytes 4 ((s.pair.rxSeq + 2 ^ 32 - 1) % 2 ^ 32) ++ leBytes 4 ((s.pair.rxSeq2 + 2 ^ 32 - 1) % 2 ^ 32)⟩

/-- Frames came whose CRC passed: an ACK goes out after every 16 (R410). -/
def State.rxCounted (s : State) (n : Nat) : State :=
  let s : State := { s with pair := { s.pair with rxCount := s.pair.rxCount + n } }
  if 16 ≤ s.pair.rxCount then s.sendAck else s

/-- Is a message heard at all: this unit is a powered pair member, and every CRC passed (R408)? -/
def State.plkHears (s : State) (h : PlkHead) : Bool := s.powered && s.flag Reg.PAIR_CFG_EN [] && h.ok

/-- Is it the next one of its ordered stream (R410)? While the link is data-down only a HELLO is. -/
def State.inOrder (s : State) (second : Bool) (h : PlkHead) : Bool :=
  !s.flag Reg.PAIR_STAT_DATA_DOWN [] && h.seq == (if second then s.pair.rxSeq2 else s.pair.rxSeq)

/-- The next message of an ordered stream has come in order. -/
def State.received (s : State) (second : Bool) (h : PlkHead) : State :=
  let q := (h.seq + h.frames) % 2 ^ 32
  ({ s with pair := (if second then { s.pair with rxSeq2 := q } else { s.pair with rxSeq := q }) } : State).rxCounted h.frames

/-- A received message: applied in SEQ order; what fails its CRC, repeats or runs ahead is discarded (R408, R410). -/
def State.linkRow (s : State) (second : Bool) (h : PlkHead) (eff : State → State) : State :=
  if !s.plkHears h then s else if s.inOrder second h then eff (s.received second h) else s.rxCounted h.frames

/-- The unit holds the active role (R418): a pair member in ACTIVE or DEGRADED. -/
def State.activeRole (s : State) : Bool :=
  s.flag Reg.PAIR_CFG_EN [] && (match s.mode with | .active | .degraded => true | _ => false)

/-- A pair member in STANDBY: it holds what it formats. -/
def State.holding (s : State) : Bool := s.flag Reg.PAIR_CFG_EN [] && s.mode == .standby

/-- Does a release confirm a held output? -/
def Held.isRel (h : Held) (r : RelMsg) : Bool :=
  match h, r with
  | .slot q x, .slot k n => q == k && x.seq == n
  | .pub q st sq _, .pub k a b => q == k && st == a && sq == b
  | _, _ => false

/-- Hold an output, unless its release came first; at most 4 of its kind are held, and the oldest goes and is counted
(R419). -/
def State.hold (s : State) (same : Held → Bool) (h : Held) : State :=
  if s.pair.rels.any h.isRel then { s with pair := { s.pair with rels := s.pair.rels.filter fun r => !h.isRel r } }
  else
  let mine := s.pair.held.filter same
  let drop := decide (4 ≤ mine.length)
  let old := if drop then (match mine.head? with | some o => s.pair.held.erase o | none => s.pair.held) else s.pair.held
  let s : State := { s with pair := { s.pair with held := old ++ [h] } }
  if drop then s.inc Reg.PAIR_HOLD_DROP [] else s

/-! ### Readiness and divergence (R406, R420, R421) -/

/-- A partner in STANDBY that reports ready on a live path (R32). -/
def State.partnerReady (s : State) : Bool :=
  (s.flag Reg.PAIR_STAT_PATH_A [] || s.flag Reg.PAIR_STAT_PATH_B []) &&
    (match s.pair.partner with | some p => p.mode == 3 && p.ready | none => false)

/-- Does the unit act as preferred (R403)? -/
def State.preferred (s : State) : Bool :=
  let own := s.flag Reg.PAIR_CFG_PREF []
  match s.pair.peer with
  | none => own
  | some (_, pref, mac) =>
    if pref = own then decide (s.rd Reg.NET_PORT_MAC_LO_ADDR [0] + 2 ^ 32 * s.rd Reg.NET_PORT_MAC_HI_ADDR [0] < mac) else own

/-- The conditions of a revert (R430), as the preferred standby sees them itself or as the active unit, which offers the switchover,
sees them in the heartbeat. -/
def State.revertFit (s : State) : Bool :=
  match s.pair.partner with
  | none => false
  | some p =>
    let own := s.rd Reg.PAIR_HEALTH_SCORE []
    if s.holding then s.preferred && s.flag Reg.PAIR_STAT_READY [] && !s.flag Reg.GLB_MODE_DEG [] && decide (p.score ≤ own)
    else s.activeRole && !s.preferred && s.partnerReady && !p.deg && decide (own ≤ p.score)

/-- A READY partner's SCORE is 32 or more above the active unit's (R433). -/
def State.partnerAhead (s : State) : Bool :=
  match s.pair.partner with
  | none => false
  | some p => s.activeRole && s.partnerReady && decide (s.rd Reg.PAIR_HEALTH_SCORE [] + 32 ≤ p.score)

/-- Since when the conditions of R430 and R433 have held; renewed wherever one of them may change. -/
def State.weighRoles (s : State) : State :=
  let since (b : Bool) (u : Option Time) : Option Time := if b then some (u.getD s.now) else none
  { s with pair := { s.pair with
    fitSince := since s.revertFit s.pair.fitSince
    aheadSince := since s.partnerAhead s.pair.aheadSince
    revertDue := s.pair.revertDue && s.revertFit } }

/-- The time a condition must have held has passed. -/
def State.heldFor (s : State) (u : Option Time) (d : Time) : Bool := match u with | some t => decide (t + d ≤ s.now) | none => false

/-- REVERT_S in time. -/
def State.revertTime (s : State) : Time := clampN 10 4095 (s.rd Reg.PAIR_CFG_REVERT_S []) * second

/-- READY changes (R406). -/
def State.setReady (s : State) (b : Bool) : State :=
  if s.flag Reg.PAIR_STAT_READY [] = b then s
  else ((s.setFlag Reg.PAIR_STAT_READY [] b).notice bPAIR 6 0 (if b then 1 else 0) 0).weighRoles

/-- READY and the catch-ups pending as they stand. -/
def State.refreshReady (s : State) : State :=
  let s := s.wr Reg.PAIR_STAT_CATCHUP [] (min 255 s.pair.catching.length)
  s.setReady (s.holding && s.flag Reg.PAIR_STAT_JOINED [] && s.pair.catching.isEmpty && !s.flag Reg.PAIR_STAT_DATA_DOWN [])

/-- Ask for a catch-up, anew where one has been pending for 3 epochs. -/
def State.askCatch (s : State) (isl : Bool) (g : Nat) : State :=
  let others := s.pair.catching.filter fun c => !(c.isl == isl && c.which == g)
  ({ s with pair := { s.pair with catching := others ++ [⟨isl, g, 0, false⟩] } } : State).plkSend (.fetch (.catchup isl g))

/-- A pending catch-up has seen one more epoch; after 3 it starts again from a newer checkpoint (R421). -/
def State.catchEpoch (s : State) (c : Catching) : State :=
  if 3 ≤ c.epochs + 1 then s.askCatch c.isl c.which
  else { s with pair := { s.pair with catching := s.pair.catching.map fun x => if x.isl == c.isl && x.which == c.which then { x with epochs := x.epochs + 1 } else x } }

/-- Compare a DIGEST of a group or of the islanding tracker with this unit's own value for the same epoch. -/
def State.digestCompare (s : State) (isl : Bool) (g own crc : Nat) : State :=
  let mine := s.pair.catching.find? fun c => c.isl == isl && c.which == g
  let s := if own = crc then
      (match mine with
       | some c => if c.inPlace then
           ({ s with pair := { s.pair with catching := s.pair.catching.filter fun x => !(x.isl == isl && x.which == g) } } : State).notice bPAIR 8 g 0 0
         else s.catchEpoch c
       | none => s)
    else
      let s := (s.inc Reg.PAIR_DIVERGED []).notice bPAIR 7 g (if isl then 1 else 0) 0
      match mine with
      | none => s.askCatch isl g
      | some c => s.catchEpoch c
  s.refreshReady

/-- This unit reached an epoch: a DIGEST that came before is compared now. -/
def State.digestReached (s : State) (isl : Bool) (g n own : Nat) : State :=
  if !s.holding then s
  else
    let hit := s.pair.digests.find? fun d => d.1 == isl && d.2.1 == g && d.2.2.1 == n
    let s : State := { s with pair := { s.pair with digests := s.pair.digests.filter fun d => !(d.1 == isl && d.2.1 == g && decide (d.2.2.1 ≤ n)) } }
    match hit with
    | some d => s.digestCompare isl g own d.2.2.2
    | none => s

/-! ### Where and when a host write takes effect (R418, R522, R540) -/

/-- BAR0 answers at an offset: nothing in BACKUP; in LOADING the GLB, STRT and LOG blocks, the Logbook windows and MSIX. -/
def State.responds (s : State) (off : Nat) : Bool :=
  let r := off / 0x10000
  s.powered && (s.mode != .loading || r == 0 || r == 1 || r == 0x13 || r == 0x17 || (r == 0xFE && decide (off < 0xFE2000)))

/-- Offsets of the mirrored blocks and their windows, apart from what reports a unit's own events (R418). -/
def mirroredOff (off : Nat) : Bool :=
  let b := ownerOf off
  let own := decide (off % 0x10000 = 0xF0 ∨ off % 0x10000 = 0xF4 ∨ off % 0x10000 = 0xF8) && decide (off < 0x170000)
  (b == bWHL || b == bADM || b == bOSC || b == bISL || b == bALM) && !own &&
    !(decide (0x61000 ≤ off ∧ off < 0x63000) && off % 0x80 == 0x64) &&
    !((decide (0x400000 ≤ off ∧ off < 0x800000) || decide (0xC00000 ≤ off ∧ off < 0xC10000)) && off % 256 == 0xA0)

/-- A host write reaches its register: dropped where BAR0 does not answer; in a mirrored block deferred to the next RND0
boundary on the active unit, and refused on the standby. -/
def State.hostGate (s : State) (off : Nat) (w : Word) (eff : State → State) : State :=
  if !s.responds off then s
  else if mirroredOff off then
    if s.holding then s.logRefused off w.toNat
    else if s.activeRole then { s with pair := { s.pair with mirror := s.pair.mirror ++ [(off, w, 15)] } }
    else eff s
  else eff s

/-- A register read answers a word. -/
def State.answer (s : State) (n : Nat) : State := s.emit (.readData (BitVec.ofNat 32 n))

/-- A host read with an effect: in LOADING, BAR0 beyond what answers reads as 0 (R522). -/
def State.hostRead (s : State) (off : Nat) (k : State → State) : State :=
  if s.responds off then k s else if s.powered then s.answer 0 else s

end Sys2Proof.Machine
end

