-- ==== Sys2Proof/Machine/HostWrite.lean ====
section
/-! DEFINITION. What a host write stores in a word of BAR0 under its access codes (R10, R11), and what a host read shows. -/
namespace Sys2Proof.Machine

/-- The bits of the word at an offset whose access code is one of a list. -/
def accMask (off : Nat) (p : Acc → Bool) : Word := (fieldsAt off).foldl (fun a f => if p f.acc then a ||| f.mask else a) 0#32

/-- The bits of the RWL fields at an offset. -/
def rwlMask (off : Nat) : Word := accMask off (· == .rwl)

/-- The word a host write leaves (R10): RW and WO fields take the value, RWL fields where `lock` allows it, W1C bits
written 1 clear, W1S bits written 1 set. -/
def storedWord (off : Nat) (lock : Bool) (old w : Word) : Word :=
  let put := accMask off fun a => a == .rw || a == .wo || (a == .rwl && lock)
  let clr := accMask off (· == .w1c) &&& w
  let set := accMask off (· == .w1s) &&& w
  (((old &&& ~~~ put) ||| (w &&& put)) &&& ~~~ clr) ||| set

/-- Does a write change an RWL field that the mode holds closed (R11)? -/
def State.rwlRefused (s : State) (off : Nat) (w : Word) : Bool :=
  !s.rwlOpen && (s.word off &&& rwlMask off) != (w &&& rwlMask off)

/-- A host write of a whole word under its access codes; a changed RWL field that is closed writes the record of R11. -/
def State.store (s : State) (off : Nat) (w : Word) : State :=
  let no := s.rwlRefused off w
  let s' := s.setWord off (storedWord off s.rwlOpen (s.word off) w)
  if no then s'.logRefused off w.toNat else s'

/-- What a host read of an offset returns (R9, R10): WO fields and unassigned bits as 0. -/
def State.shown (s : State) (off : Nat) : Word := s.word off &&& accMask off (· != .wo)

end Sys2Proof.Machine
end

