-- ==== Sys2Proof/Machine/AlarmOut.lean ====
section
/-! DEFINITION. Alarm egress (R295 to R302): alarm words and their drivers, pins, GOOSE and R-GOOSE publications, standard
alarms and alarm records. -/
namespace Sys2Proof.Machine

def pub0 : PubSt := ⟨0, 0, 0, []⟩

/-- The alarm words the machines' outputs and the mapped standard alarms drive (R294, R296, R297), as one number of 256
bits. Output i of a machine drives bit (AW_BASE + i) mod 256. -/
def State.alarmBits (s : State) : Nat :=
  let orBit (a b : Nat) : Nat := if a / 2 ^ b % 2 = 1 then a else a + 2 ^ b
  let a := (s.entries 0xFA0000 32 1024).foldl (fun a m =>
    let base := s.rd Reg.AM_AW_BASE [m]
    let o := s.rd Reg.AMR_OUT [m]
    let k := s.rd Reg.AM_AW_MASK [m]
    (List.range 8).foldl (fun a i => if o / 2 ^ i % 2 = 1 ∧ k / 2 ^ i % 2 = 1 then orBit a ((base + i) % 256) else a) a) 0
  (List.range 13).foldl (fun a c =>
    if s.rd Reg.ALM_STD_ACTIVE [] / 2 ^ c % 2 = 1 ∧ s.flag Reg.ALM_STD_MAP_EN [c] then orBit a (s.rd Reg.ALM_STD_MAP_BIT [c])
    else a) a

/-- The alarm words shown (ALM_WORD), as one number. -/
def State.alarmShown (s : State) : Nat :=
  (List.range 16).foldr (fun w a => s.rd Reg.ALM_WORD_BITS [w] + 65536 * a) 0

/-- Drive the ALARM pins (R298): a pin is active with its bit, or, as a test indicator, with GLB_MODE.TEST, for at least
MINW_MS (a test indicator exactly while TEST is 1); only in modes that emit, and in a unit that took over from its next step on. -/
def State.drivePins (s : State) : State :=
  let bits := s.alarmShown
  if s.alm.pinsWait then s
  else forEach (List.range 8) (fun p a =>
    let want := if a.flag Reg.ALM_PIN_TEST [p] then a.flag Reg.GLB_MODE_TEST []
      else a.flag Reg.ALM_PIN_EN [p] && bits / 2 ^ a.rd Reg.ALM_PIN_BIT [p] % 2 == 1
    let act := a.rd Reg.ALM_PIN_STAT_ACTIVE []
    let was := act / 2 ^ p % 2 == 1
    let hold := decide (a.now < sget a.alm.pins p 0) && !a.flag Reg.ALM_PIN_TEST [p]
    let on := a.emitting && !a.alm.oeN && (want || (was && hold))
    let a : State := if on && !was then
        { a with alm := { a.alm with pins := sset a.alm.pins p (a.now + a.rd Reg.ALM_PIN_MINW_MS [p] * msU) } } else a
    if on = was then a else a.wr Reg.ALM_PIN_STAT_ACTIVE [] (if on then act + 2 ^ p else act - 2 ^ p)) s

/-- The modes in which the alarm output paths run (R304). -/
def State.pubT0 (s : State) (q : Nat) : Nat := clampN 100 60000 (s.rd Reg.ALM_PUB_TIMING_T0_MS [q])
def State.pubTmin (s : State) (q : Nat) : Nat := clampN 1 1000 (s.rd Reg.ALM_PUB_TIMING_TMIN_MS [q])
def State.pubCount (s : State) (q : Nat) : Nat := clampN 1 256 (s.rd Reg.ALM_PUB_RANGE_COUNT [q])

/-- Is an alarm bit inside a publication's range? -/
def State.pubHas (s : State) (q bit : Nat) : Bool :=
  let f := s.rd Reg.ALM_PUB_RANGE_FIRST [q]
  decide (f ≤ bit ∧ bit < f + s.pubCount q)

/-- The accuracy of a message's time quality (R299): the largest n from 0 to 24 with 2^-n s not below TB_UNC, 31 when
TB_UNC is unknown; above 1 s no n is stated, and the code is free. -/
def State.gooseAcc (s : State) : Nat :=
  let u := s.uncNow
  if u = 2 ^ 32 - 1 then 31
  else ((List.range 25).filter fun n => decide (u * 2 ^ n ≤ 1000000000)).getLastD (Config.coarseAcc u % 32)

/-- The dataset members (R299): the alarm bits of the range and, with QUAL, a quality whose only bit is test (bit 11). -/
def State.pubMembers (s : State) (q : Nat) : List (Bool × Option Nat) :=
  let bits := s.alarmShown
  let f := s.rd Reg.ALM_PUB_RANGE_FIRST [q]
  (List.range (s.pubCount q)).map fun i =>
    (bits / 2 ^ (f + i) % 2 == 1,
      if s.flag Reg.ALM_PUB_CFG_QUAL [q] then some (if s.flag Reg.GLB_MODE_TEST [] then 2 ^ 11 else 0) else none)

/-- The ports a publication leaves from, one of each PRP pair (R98, R299). -/
def State.pubPorts (s : State) (q : Nat) : List Nat :=
  let ps := (List.range 4).filter fun p => s.rd Reg.ALM_PUB_CFG_PORTS [q] / 2 ^ p % 2 == 1
  ps.filter fun p => !((s.prpOf p).isSome && p % 2 == 1 && ps.contains (p - 1))

def textOf (s : State) (f : Fld) (q : Nat) : List Byte :=
  ((List.range 16).flatMap fun i => leBytes 4 (s.rd f [q, i])).takeWhile (· != 0#8)

def setStdBit (n c : Nat) (on : Bool) : Nat :=
  if n / 2 ^ c % 2 = 1 then (if on then n else n - 2 ^ c) else (if on then n + 2 ^ c else n)

/-- The body of a publication's message. -/
def State.pubBody (s : State) (q : Nat) (sec : Option (Nat × List Byte)) : TxBody :=
  let pu := sget s.alm.pubs q pub0
  let tq := (s.flag Reg.TB_UTC_VALID [], s.serrNow, s.gooseAcc)
  let dm := s.rd Reg.ALM_PUB_DMAC_LO_ADDR [q] + 2 ^ 32 * s.rd Reg.ALM_PUB_DMAC_HI_ADDR [q]
  match sec with
  | none => .goose (s.rd Reg.ALM_PUB_CFG_APPID [q]) dm
      (if s.flag Reg.ALM_PUB_VLAN_TAGGED [q] then some (s.rd Reg.ALM_PUB_VLAN_VID [q]) else none)
      (textOf s Reg.ALM_PUB_GOID q) (textOf s Reg.ALM_PUB_GOCBREF q) (textOf s Reg.ALM_PUB_DATSET q) (2 * pu.wait) pu.t tq
      (s.rd Reg.ALM_PUB_STNUM [q]) (s.rd Reg.ALM_PUB_SQNUM [q]) (s.rd Reg.ALM_PUB_CONFREV_REV [q])
      (s.flag Reg.GLB_MODE_TEST []) false false (s.pubMembers q)
  | some (spdu, tag) => .rgoose (s.rd Reg.ALM_PUB_CFG_APPID [q])
      ((List.range 4).foldr (fun i a => s.rd Reg.ALM_PUB_DIP_ADDR [q, i] + 2 ^ 32 * a) 0) (s.flag Reg.ALM_PUB_DIPV6_V6 [q])
      (s.rd Reg.NET_UDP_R905 []) (s.rd Reg.ALM_PUB_KEYID_ID [q]) (s.rd Reg.ALM_PUB_CFG_ALG [q] % 3) spdu tag
      (textOf s Reg.ALM_PUB_GOID q) (textOf s Reg.ALM_PUB_GOCBREF q) (textOf s Reg.ALM_PUB_DATSET q) (2 * pu.wait) pu.t tq
      (s.rd Reg.ALM_PUB_STNUM [q]) (s.rd Reg.ALM_PUB_SQNUM [q]) (s.rd Reg.ALM_PUB_CONFREV_REV [q])
      (s.flag Reg.GLB_MODE_TEST []) false false (s.pubMembers q)

/-- Send a body on every port of a publication. -/
def State.pubFrames (s : State) (count : Bool) (q : Nat) (b : TxBody) : State :=
  let vl (_ : Nat) : Option Nat := if s.flag Reg.ALM_PUB_VLAN_TAGGED [q] then some (s.rd Reg.ALM_PUB_VLAN_VID [q]) else none
  forEach (s.pubPorts q) (fun p a => a.txV count vl p 1 (a.rd Reg.NET_EGR_PCP_ALM []) none b) s

/-- Send a message, count it, and confirm or hold it in a pair (R419); `std` marks one that a standard alarm changed,
which is not held. -/
def State.pubOut (s : State) (q : Nat) (std : Bool) (b : TxBody) : State :=
  let s := (s.pubFrames true q b).inc Reg.ALM_PUB_SENT [q]
  let st := s.rd Reg.ALM_PUB_STNUM [q]
  let sq := s.rd Reg.ALM_PUB_SQNUM [q]
  if s.pair.muteNow then s
  else if s.activeRole || s.pair.emitNow then s.plkSend (.relPub q st sq)
  else if s.holding && !std then s.hold (fun h => match h with | .pub k _ _ _ => k == q | _ => false) (.pub q st sq b)
  else s

/-- The octets an R-GOOSE tag covers are given by the standard the spec cites: a free function of the message's fields. -/
def pubSigned (q st sq spdu : Nat) (ms : List (Bool × Option Nat)) : List Byte :=
  Config.spduOctets <| leBytes 4 q ++ leBytes 4 st ++ leBytes 4 sq ++ leBytes 4 spdu ++ ms.flatMap fun m => leBytes 1 (if m.1 then 1 else 0)

/-- Send a publication's present message (R299, R300). The second part says whether it was sent: an R-GOOSE message whose
key is refused is not, and REFUSED counts. -/
def State.pubSend (s : State) (q : Nat) (std : Bool) : State × Bool :=
  if s.flag Reg.ALM_PUB_CFG_RGOOSE [q] then
    let alg := s.rd Reg.ALM_PUB_CFG_ALG [q] % 3
    let id := s.rd Reg.ALM_PUB_KEYID_ID [q]
    let spdu := ((s.keyFor id 1).map fun n => (s.keyRun n).spdu).getD 0
    match s.useKey id 1 alg with
    | (s, some mat) =>
      let tag := frankTag alg 128 mat (Config.gmacIv id spdu) (pubSigned q (s.rd Reg.ALM_PUB_STNUM [q]) (s.rd Reg.ALM_PUB_SQNUM [q]) spdu (s.pubMembers q))
      (s.pubOut q std (s.pubBody q (some (spdu, tag))), true)
    | (s, none) => ((s.incSat Reg.ALM_PUB_DIPV6_REFUSED [q]).notice bALM 4 q id 0, false)
  else (s.pubOut q std (s.pubBody q none), true)

/-- stNum and sqNum wrap from 2^32 - 1 to 1 (R299). -/
def wrapOne (n : Nat) : Nat := if n + 1 < 2 ^ 32 then n + 1 else 1

/-- A change in a publication's range (R299): a new stNum with sqNum 0, sent at once, and the schedule restarts. -/
def State.pubChange (s : State) (q : Nat) (t : Time) (std : Bool) : State × Bool :=
  let s := (s.wr Reg.ALM_PUB_STNUM [q] (wrapOne (s.rd Reg.ALM_PUB_STNUM [q]))).wr Reg.ALM_PUB_SQNUM [q] 0
  let wait := min (s.pubTmin q) (s.pubT0 q)
  let s : State := { s with alm := { s.alm with pubs := sset s.alm.pubs q ⟨t, wait, s.now + wait * msU, (sget s.alm.pubs q pub0).due⟩ } }
  s.pubSend q std

/-- The 32 bytes of an alarm record (R302). -/
def alarmRecord (who old new flags sev inputs out pm : Nat) (t : Time) (rnd seq : Nat) : List Byte :=
  leBytes 2 who ++ leBytes 1 old ++ leBytes 1 new ++ leBytes 1 flags ++ leBytes 1 sev ++ leBytes 1 inputs ++ leBytes 1 out ++
    leBytes 8 pm ++ leBytes 6 (secOf t) ++ leBytes 4 (nsOf t) ++ leBytes 2 rnd ++ leBytes 4 seq

/-- Sheds of ring items counted for SRC 2 rings. -/
def State.srcShed (s : State) (src : Nat) : Nat :=
  ((List.range 64).map fun k => if s.prSrc (64 + k) = src then s.rd Reg.PR_SHED [64 + k] else 0).sum

/-- Offer an alarm record (R302); SEL is the least SEV passed. -/
def State.alarmRec (s : State) (who old new flags sev inputs out pm rnd : Nat) : State :=
  let s := s.inc Reg.ALM_RECSEQ_COUNT []
  s.offer 2 64 who 0xFFFF (fun sel => decide (sel % 4 ≤ sev))
    (alarmRecord who old new flags sev inputs out pm s.now rnd (s.rd Reg.ALM_RECSEQ_COUNT [])) none

/-- INPUTS, OUT and RND of a standard alarm's record, which R302 states for machines only: free. -/
def State.stdRest (s : State) : Nat × Nat × Nat := Config.stdRecord (s.rd Reg.ALM_RECSEQ_COUNT [])

/-- Set or clear one standard alarm's bit and do what a change does, apart from its publications (R296). -/
def State.stdMark (s : State) (c : Nat) (on : Bool) : State :=
  let v := s.rd Reg.ALM_STD_ACTIVE []
  if (v / 2 ^ c % 2 == 1) = on then s
  else
    let s := s.wr Reg.ALM_STD_ACTIVE [] (setStdBit v c on)
    let b (x : Bool) : Nat := if x then 1 else 0
    let s := (s.notice bALM 1 c (b on) 0).logEvent bALM 2 c (b on) 0
    s.alarmRec (2 ^ 15 + c) (b (!on)) (b on) (b (s.flag Reg.GLB_MODE_TEST [])) 3 s.stdRest.1 s.stdRest.2.1 0 s.stdRest.2.2

/-- The instant from which the 10 s of standard alarm 1 or 9 run (R296). -/
def State.stdSeen (s : State) (c : Nat) : State := { s with alm := { s.alm with stdAt := sset s.alm.stdAt c s.now } }

/-- Standard alarm 9 after a shed of a SRC 2 record: the count of sheds rose from `before` (R296). -/
def State.shedMark (s : State) (before : Nat) : State :=
  if before = s.srcShed 2 then s else (s.stdSeen 9).stdMark 9 true

/-- Show new alarm words and give the publications whose range holds a changed bit. -/
def State.showAlarms (s : State) : State × List Nat :=
  let old := s.alarmShown
  let new := s.alarmBits
  let s := forEach (List.range 16) (fun w a => a.wr Reg.ALM_WORD_BITS [w] (new / 65536 ^ w)) s
  let changed := (List.range 256).filter fun b => new / 2 ^ b % 2 != old / 2 ^ b % 2
  (s.drivePins, (List.range 16).filter fun q => s.flag Reg.ALM_PUB_CFG_EN [q] && changed.any (s.pubHas q))

/-- Publications that changed by a standard alarm go out at once (R299). Those refused set standard alarm 6 and those sent
clear it (R296); that change may itself map to an alarm bit, so a second round follows it. -/
def State.pubRound (s : State) (qs : List Nat) (t : Time) (std : Bool) : State :=
  let s := if s.processing then
      forEach qs (fun q a =>
        let (a, ok) := a.pubChange q t std
        { a with alm := { a.alm with refused := if ok then a.alm.refused.filter (· != q) else (a.alm.refused ++ [q]).eraseDups } }) s
    else s
  (s.stdMark 6 (!s.alm.refused.isEmpty)).shedMark (s.srcShed 2)

/-- Recompute alarm words after a standard alarm changed, and publish what changed. -/
def State.stdPublish (s : State) : State :=
  let (s, qs) := s.showAlarms
  let s := s.pubRound qs s.now true
  let (s, qs) := s.showAlarms
  (s.pubRound qs s.now true).showAlarms.1

/-- The level of ALARM[p] (R298): none at high impedance, while ALM_OE_N is high; else high exactly where the pin's being
active agrees with POL. -/
def State.alarmPin (s : State) (p : Nat) : Option Bool :=
  if s.alm.oeN then none
  else some ((s.rd Reg.ALM_PIN_STAT_ACTIVE [] / 2 ^ p % 2 == 1) == s.flag Reg.ALM_PIN_POL [p])

/-- A standard alarm becomes active or inactive (R296). -/
def State.stdAlarm (s : State) (c : Nat) (on : Bool) : State :=
  if (s.rd Reg.ALM_STD_ACTIVE [] / 2 ^ c % 2 == 1) = on then s
  else ((s.stdMark c on).shedMark (s.srcShed 2)).stdPublish

end Sys2Proof.Machine
end

