-- ==== Sys2Proof/Machine/RoundOut.lean ====
section
/-! DEFINITION. What a Round sends (R151, R167 to R173, R191, R301, R419): members, blocks, data frames, configuration and
header frames and the emission of a release slot. Octet layouts of C37.118.2 frames are those of
the standard the spec cites (log entry 23). -/
namespace Sys2Proof.Machine

/-! ### Membership -/

/-- The 2-bit entry of a stream in a membership table (R151); 3 is treated as 0. -/
def State.membCode (s : State) (f : Fld) (r sid : Nat) : Nat :=
  let c := s.rd f [r, sid / 16] / 4 ^ (sid % 16) % 4
  if c = 3 then 0 else c

def State.isMember (s : State) (r sid : Nat) : Bool := s.membCode Reg.WHL_MEMB_ACTIVE r sid != 0

/-- The members of a Round, in ascending SID order, in one of its two tables. -/
def State.membersIn (s : State) (f : Fld) (r : Nat) : List Nat :=
  (s.listed (f.off [r, 0]) (f.off [r, 1025])).flatMap fun o =>
    ((List.range 16).map fun j => 16 * ((o - f.off [r, 0]) / 4) + j).filter fun sid =>
      decide (sid < 16392) && s.membCode f r sid != 0

def State.members (s : State) (r : Nat) : List Nat := s.membersIn Reg.WHL_MEMB_ACTIVE r

/-- A Round is enabled; RND0 always is in the modes that process streams (R149). -/
def State.rndOn (s : State) (r : Nat) : Bool := r == 0 || s.flag Reg.WHL_RND_CTL_EN [r]

/-- The Rounds that are on, rising. -/
def State.rndsOn (s : State) : List Nat := (List.range 64).filter s.rndOn

/-- Insert into a rising list. -/
def insertAsc (x : Nat) : List Nat → List Nat
  | [] => [x]
  | y :: r => if x ≤ y then x :: y :: r else y :: insertAsc x r

def sortAsc (xs : List Nat) : List Nat := xs.foldl (fun a x => insertAsc x a) []

/-- The SIDs whose blocks a Round's frames carry: its members, and those that lost their SID while that change of layout is
announced, whose blocks are absent (R153). -/
def State.blockSids (s : State) (r : Nat) : List Nat :=
  let ms := s.members r
  match (s.rndSt r).barred.filter fun sid => !ms.contains sid with
  | [] => ms
  | bs => sortAsc (ms ++ bs)

/-- TIME_BASE of a Round's output; 0 is taken as 1,000,000 (R177). -/
def State.rndBase (s : State) (r : Nat) : Nat :=
  let t := s.rd Reg.WHL_RND_TB_TIME_BASE [r]
  if t = 0 then 1000000 else t

/-! ### Time in outputs (R72, R80, R81) -/

/-- SOC and FRACSEC of a time at a time base (R81), FRACSEC with the time quality octet: leap flags of R80 and FQ. -/
def State.socFrac (s : State) (t : Time) (tb : Nat) : Nat × Nat :=
  let f := roundDiv (t % second * tb) second
  let soc := (((secOf t : Nat) : Int) - s.ofsAt t + 2 ^ 32).toNat
  let q := s.fqNow + 16 * (if s.lspNow then 1 else 0) + 32 * s.rd Reg.TB_UTC_LSO [] + 64 * s.rd Reg.TB_UTC_LSD []
  let (soc, f) := if f = tb then (soc + 1, 0) else (soc, f)
  (soc % 2 ^ 32, q * 2 ^ 24 + f % 2 ^ 24)

/-! ### Blocks and frames (R167 to R171) -/

/-- A Round's shape, held to what a letter can carry. -/
def State.rndPhn (s : State) (r : Nat) : Nat := min 32 (s.rd Reg.WHL_RND_SHAPE_PHN [r])
def State.rndAnn (s : State) (r : Nat) : Nat := min 16 (s.rd Reg.WHL_RND_SHAPE_ANN [r])
def State.rndDgn (s : State) (r : Nat) : Nat := min 8 (s.rd Reg.WHL_RND_SHAPE_DGN [r])

/-- STAT of a block (R170). -/
def State.blkStat (s : State) (r : Nat) (l : Option Letter) : Nat :=
  let serr := if s.serrNow then 1 else 0
  let ann := if s.rd Reg.WHL_RND_COMMIT_STATUS [r] = 1 then 1 else 0
  let sq := s.sqNow
  match l with
  | none => 0x8000 + 0x2000 * serr + 0x400 * ann + 0x40 * sq + 0x10 * s.unlkCode
  | some l =>
    let b (i : Nat) : Nat := l.stat / 2 ^ i % 2
    let v := if s.mode = .service then 2 else l.stat / 0x4000 % 4
    0x4000 * v + 0x2000 * max (b 13) serr + 0x800 * b 11 + 0x400 * max (b 10) ann +
      0x200 * max (b 9) (l.flags / 0x800 % 2) + 0x40 * max (l.stat / 0x40 % 8) sq + 0x10 * max (l.stat / 0x10 % 4) s.unlkCode +
      l.stat % 16

/-- A phasor as the Round gives it: rectangular, or magnitude and angle in rad (R168). -/
def phasorOut (polar : Bool) (p : Word × Word) : List Word :=
  if polar then [F32.hypot p.1 p.2, angleF p.1 p.2] else [p.1, p.2]

/-- A member's block (R168): the letter's first values, +0.0 beyond its counts; quiet NaN and zeros when absent. -/
def State.blk (s : State) (r sid : Nat) (l : Option Letter) : Blk :=
  let p := s.rndPhn r
  let a := s.rndAnn r
  let d := s.rndDgn r
  match l with
  | none => ⟨sid, s.blkStat r none, List.replicate (2 * p + 2 + a) F32.nan, List.replicate d 0⟩
  | some l =>
    let ph := (List.range p).flatMap fun i =>
      if i < l.phn then phasorOut (s.flag Reg.WHL_RND_CTL_POLAR [r]) (l.ph.getD i (F32.zero, F32.zero)) else [F32.zero, F32.zero]
    let an := (List.range a).map fun i => if i < l.ann then l.an.getD i F32.zero else F32.zero
    ⟨sid, s.blkStat r (some l), ph ++ [l.freq, l.rocof] ++ an,
      (List.range d).map fun i => if i < l.dgn then l.dg.getD i 0 else 0⟩

/-- The data frame of a mailbag (R167). -/
def State.outFrame (s : State) (r n : Nat) (ls : List Letter) : OutFrame :=
  let (soc, fr) := s.socFrac (instantTime n (s.rndFps r)) (s.rndBase r)
  ⟨s.rd Reg.WHL_RND_OUT_IDCODE [r], soc, fr,
    (s.blockSids r).map fun sid => s.blk r sid (ls.find? fun l => l.sid == sid && l.flags / 128 % 2 == 0)⟩

/-- Close a C37.118.2 frame: SYNC, FRAMESIZE, the rest, and CHK over all before it. -/
def c37Frame (sync : Nat) (rest : List Byte) : List Byte :=
  let body := beBytes 2 sync ++ beBytes 2 (rest.length + 6) ++ rest
  body ++ beBytes 2 (crcCcitt body)

def Blk.bytes (b : Blk) : List Byte :=
  beBytes 2 b.stat ++ b.vals.flatMap (fun w => beBytes 4 w.toNat) ++ b.dg.flatMap (beBytes 2)

def OutFrame.bytes (f : OutFrame) : List Byte :=
  c37Frame 0xAA01 (beBytes 2 f.idcode ++ beBytes 4 f.soc ++ beBytes 4 f.fracsec ++ f.blks.flatMap Blk.bytes)

/-- The bytes a Round's data frame takes for a number of members (R169). -/
def State.frameSize (s : State) (r m : Nat) : Nat :=
  16 + m * (2 + 8 * s.rndPhn r + 8 + 4 * s.rndAnn r + 2 * s.rndDgn r)

/-- Decimal digits, at least `w` of them. -/
def digits (w n : Nat) : List Byte := ((List.range w).reverse).map fun i => BitVec.ofNat 8 (48 + n / 10 ^ i % 10)

/-- Text padded with spaces to 16 characters. -/
def name16 (b : List Byte) : List Byte := (b ++ List.replicate 16 (BitVec.ofNat 8 32)).take 16

/-- The overlay of a Round (R301), if it is in force: block, first digital word, first alarm word, count. -/
def State.overlay (s : State) (r : Nat) : Option (Nat × Nat × Nat × Nat) :=
  let w := s.rd Reg.ALM_OVL_WORD [r]
  let c := clampN 1 8 (s.rd Reg.ALM_OVL_COUNT [r])
  let sid := s.rd Reg.ALM_OVL_SID [r]
  if s.flag Reg.ALM_OVL_EN [r] ∧ w + c ≤ s.rndDgn r ∧ s.isMember r sid = true then some (sid, w, s.rd Reg.ALM_OVL_AW [r], c) else none

/-- DIGUNIT of a digital word of a member (R171, R301). -/
def State.digUnit (s : State) (r sid w : Nat) : Nat :=
  match s.overlay r with
  | some (o, w0, _, c) =>
    if o = sid ∧ w0 ≤ w ∧ w < w0 + c then 0xFFFF
    else if sid < 16384 then s.rd Reg.DESC_DIGUNIT [sid, w] else 0
  | none => if sid < 16384 then s.rd Reg.DESC_DIGUNIT [sid, w] else 0

/-- FNOM of a block: the descriptor's, or that of a local stream's source (R331). -/
def State.rndFnom (s : State) (sid : Nat) : Nat :=
  let n := sid - 16384
  if sid < 16384 then s.rd Reg.DESC_FNOM50 [sid]
  else if n < 4 then s.rd Reg.ACQ_PT_CFG_FNOM50 [n / 2] else s.rd Reg.ACQ_SV_CFG_FNOM50 [n - 4]

/-- One block of the configuration frame (R171). -/
def State.cfgBlk (s : State) (r sid : Nat) : List Byte :=
  let p := s.rndPhn r
  let a := s.rndAnn r
  let d := s.rndDgn r
  name16 (textBytes "SID " ++ digits 5 sid) ++ beBytes 2 (s.stabRd Reg.STAB_PMU_IDCODE Reg.LSTAB_PMU_IDCODE sid) ++
    beBytes 2 (if s.flag Reg.WHL_RND_CTL_POLAR [r] then 0x000F else 0x000E) ++ beBytes 2 p ++ beBytes 2 a ++ beBytes 2 d ++
    ((List.range p).flatMap fun i => name16 (textBytes "PH" ++ digits 2 i)) ++
    ((List.range a).flatMap fun i => name16 (textBytes "AN" ++ digits 2 i)) ++
    ((List.range d).flatMap fun w => (List.range 16).flatMap fun b =>
      name16 (textBytes "D" ++ digits 1 w ++ textBytes "B" ++ digits 2 b)) ++
    (List.replicate (p + a) (beBytes 4 0)).flatten ++ ((List.range d).flatMap fun w => beBytes 4 (s.digUnit r sid w)) ++
    beBytes 2 (s.rndFnom sid) ++ beBytes 2 (s.rd Reg.WHL_RND_STAT_CFGCNT [r])

/-- The configuration frame of a Round (R171), stamped with device time. -/
def State.cfgFrame (s : State) (r : Nat) : List Byte :=
  let tb := s.rndBase r
  let (soc, fr) := s.socFrac s.now tb
  c37Frame 0xAA31 (beBytes 2 (s.rd Reg.WHL_RND_OUT_IDCODE [r]) ++ beBytes 4 soc ++ beBytes 4 fr ++ beBytes 4 tb ++
    beBytes 2 (s.blockSids r).length ++ ((s.blockSids r).flatMap (s.cfgBlk r)) ++ beBytes 2 (s.rndFps r))

/-- The header frame of a Round (R172). -/
def State.hdrFrame (s : State) (r : Nat) : List Byte :=
  let (soc, fr) := s.socFrac s.now (s.rndBase r)
  c37Frame 0xAA11 (beBytes 2 (s.rd Reg.WHL_RND_OUT_IDCODE [r]) ++ beBytes 4 soc ++ beBytes 4 fr ++
    textBytes "Clequetre GRV-7160 RND" ++ digits (if r < 10 then 1 else 2) r)

/-! ### Emission of a release slot (R191, R301, R419) -/

/-- Insert the alarm words of the overlay into a frame's blocks (R301). -/
def State.overlaid (s : State) (r : Nat) (f : OutFrame) : OutFrame :=
  match s.overlay r with
  | none => f
  | some (sid, w, aw, c) =>
    { f with blks := f.blks.map fun b => if b.sid = sid then
        { b with dg := (List.range b.dg.length).map fun i =>
            if w ≤ i ∧ i < w + c then s.rd Reg.ALM_WORD_BITS [(aw + (i - w)) % 16] else b.dg.getD i 0 } else b }

/-- Ports of a mask, one of each PRP pair (R98). -/
def State.portsOf (s : State) (mask : Nat) : List Nat :=
  let ps := (List.range 4).filter fun p => mask / 2 ^ p % 2 == 1
  ps.filter fun p => !((s.prpOf p).isSome && p % 2 == 1 && ps.contains (p - 1))

/-- Where a Round's frames go (R167, R172): DST, or, if DST is 0, the source of the last "data on". -/
def State.rndDst (s : State) (r : Nat) : Option (Bool × Nat × Nat) :=
  let d := (List.range 4).foldr (fun i a => s.rd Reg.WHL_RND_DST_ADDR [r, i] + 2 ^ 32 * a) 0
  if d ≠ 0 then some (s.flag Reg.WHL_RND_DST_UDP_V6 [r], d, s.rd Reg.WHL_RND_DST_UDP_PORT [r])
  else (s.rndSt r).gateSrc.map fun g => (g.1, g.2.1, g.2.2.1)

/-- Send a Round's frame on its ports, shed after 1 RI from its dispatch (R100, R167). -/
def State.sendFrame (s : State) (count : Bool) (r : Nat) (sl : RelSlot) : State :=
  match sl.frame with
  | none => s
  | some f =>
    let open_ := !s.flag Reg.WHL_RND_OUT_CMD_GATE [r] || (s.rndSt r).gate
    match s.rndDst r with
    | none => s
    | some (v6, dst, udp) =>
      if s.flag Reg.WHL_RND_CTL_WIRE [r] && open_ then
        forEach (s.portsOf (s.rd Reg.WHL_RND_OUT_PORTS [r])) (fun p a =>
          a.txV count a.portVlan p 2 (a.rd Reg.NET_EGR_PCP_DATA []) (some (sl.dsp + second / s.rndFps r, r, sl.n))
            (.c37 v6 dst udp f.bytes)) s
      else s

/-- A dispatch record delivered without its body: BODY_LEN is 0 (R166, R211). -/
def recAlone (rec_ : List Byte) : List Byte :=
  let c := rec_.take 56 ++ leBytes 4 0
  c ++ leBytes 4 (crc32c c)

/-- A slot's wire frame and host ring item. -/
def State.slotOut (s : State) (count : Bool) (r : Nat) (sl : RelSlot) : State :=
  let s := s.sendFrame count r sl
  match sl.ring with
  | none => s
  | some (rec_, body) => s.offer 1 r r (0x4400 + r) (fun _ => true) (rec_ ++ body) (some (recAlone rec_))

/-- The overlay's words enter a slot's frame at its release (R301), also where the frame is then held. -/
def State.released (s : State) (r : Nat) (sl : RelSlot) : RelSlot := { sl with frame := sl.frame.map (s.overlaid r) }

/-- Emit a complete slot: its outputs, and the confirmation or the holding that a pair needs. A slot that was open at the
last switchover is emitted by the unit that gave up the role (R429). -/
def State.emitSlot (s : State) (r : Nat) (sl : RelSlot) : State :=
  let sl := s.released r sl
  let old := s.pair.oldSlots.contains (r, sl.seq)
  let s : State := { s with pair := { s.pair with oldSlots := s.pair.oldSlots.filter (· != (r, sl.seq)) } }
  if old ∧ s.activeRole = true then s
  else if old then
    let s := ({ s with pair := { s.pair with emitNow := true } } : State).slotOut true r sl
    ({ s with pair := { s.pair with emitNow := false } } : State).plkSend (.relSlot r sl.seq)
  else
  let s := s.slotOut true r sl
  if s.activeRole then s.plkSend (.relSlot r sl.seq)
  else if s.holding then s.hold (fun h => match h with | .slot q _ => q == r | _ => false) (.slot r sl)
  else s

end Sys2Proof.Machine
end

