-- ==== Sys2Proof/Machine/Ties.lean ====
section
/-! DEFINITION. Ties, islanding records, and what a mailbag does to a tie that it does not read (R280, R284, R288). -/
namespace Sys2Proof.Machine

/-- The CRC-32C of some words at an offset. -/
def State.crcAt (s : State) (off n : Nat) : Nat := crc32c (s.regBytes off n)

/-- A tie that is defined (R284). -/
def State.tieOk (s : State) (t : Nat) : Bool :=
  s.flag Reg.TIE_VALID [t] && s.rd Reg.TIE_CHECK [t] == s.crcAt (Reg.TIE_VALID.off [t]) 2

def State.ties (s : State) : List Nat := (List.range 256).filter s.tieOk

/-! ### Records and groups in use (R280, R288) -/

/-- The labels in use, rising. -/
def State.groups (s : State) : List Nat := (List.range 64).filter fun g => s.flag Reg.CG_VALID [g]

/-- Some group is in state candidate, island or dark island (R280). -/
def State.islFrozen (s : State) : Bool := s.groups.any fun g => [2, 3, 4].contains (s.rd Reg.CG_STATE [g])

/-- Offer an islanding record (R288). The figures of a group are those of its entry; for a tie or a clustering the spec
states none, and they are free. -/
def State.islRec (s : State) (event cg pm : Nat) : State :=
  let own := decide (event < 8)
  let (k, s) := s.draw
  let fl := (if own && s.flag Reg.CG_CONFIRMED [cg] then 1 else 0) + (if s.flag Reg.GLB_MODE_TEST [] then 2 else 0) +
    (if s.islFrozen then 4 else 0)
  let fig := if own then leBytes 4 (s.rd Reg.CG_DF [cg]) ++ leBytes 4 (s.rd Reg.CG_DR [cg]) ++ leBytes 2 (s.rd Reg.CG_PRESENT [cg]) ++
      leBytes 2 (s.rd Reg.CG_SITES [cg]) ++ leBytes 2 (s.rd Reg.CG_TIES_OPEN [cg]) ++ leBytes 2 (s.rd Reg.CG_TIES [cg])
    else leBytes 16 (Config.freeNat k)
  let seq := (s.isl.recSeq + 1) % 2 ^ 32
  let s : State := { s with isl := { s.isl with recSeq := seq } }
  s.offer 11 64 cg 0x5000 (fun sel => sel == 0 || (sel == 1 && decide (3 ≤ event ∧ event ≤ 5)))
    (leBytes 1 event ++ leBytes 1 cg ++ leBytes 2 fl ++ leBytes 8 pm ++ fig ++ leBytes 4 seq) none

/-- A mailbag of the islanding Round from which a tie's status is not read (R284): its age grows, and the status is held for
BKR_HOLD_RI mailbags. -/
def State.tieAged (s : State) (t : Nat) : State :=
  let age := s.rd Reg.TIE_AGE_RI [t] + 1
  (s.wr Reg.TIE_AGE_RI [t] (min 65535 age)).wr Reg.TIE_STATUS [t]
    (if s.rd Reg.ISL_REJ_BKR_HOLD_RI [] < age then 0 else s.rd Reg.TIE_STATUS [t])

/-- A change of a tie's status from what it was is noticed and recorded (R288). -/
def State.tieTold (s : State) (t was pm : Nat) : State :=
  if s.rd Reg.TIE_STATUS [t] = was then s else (s.notice bISL 7 t (s.rd Reg.TIE_STATUS [t]) 0).islRec 9 t pm

/-- A separation item that was cancelled: no tie was read from its mailbag. -/
def State.tiesMissed (s : State) (pm : Nat) : State :=
  (forEach s.ties (fun t a => (a.tieAged t).tieTold t (a.rd Reg.TIE_STATUS [t]) pm) s).inc Reg.ISL_MISSED_COUNT []

end Sys2Proof.Machine
end

