-- ==== Sys2Proof/Machine/Sorting.lean ====
section
/-! DEFINITION. How work items end (R17, R191 to R195, R201, R216, R217, R220): release slots, cancellation, reissue, the
completion of letterbox commands, and what an item leaves behind when it completes. -/
namespace Sys2Proof.Machine

/-! ### Release slots (R191, R192) -/

/-- Change a release slot of a Round. -/
def State.modSlot (s : State) (r seq : Nat) (f : RelSlot → RelSlot) : State :=
  let st := s.rndSt r
  s.setRnd r { st with slots := st.slots.map fun x => if x.seq == seq then f x else x }

/-- The release scan (R191): complete slots at the head are emitted and holes pass, until an open slot. -/
def State.releaseScan (s : State) (r : Nat) : Nat → State
  | 0 => s
  | k + 1 =>
    match (s.rndSt r).slots with
    | [] => s
    | sl :: rest =>
      if sl.pending = 0 then
        let s := s.setRnd r { s.rndSt r with slots := rest }
        let s := if 0 < sl.completed then (s.emitSlot r sl).traceEv 7 0 0 (0x4400 + r) 0 sl.seq
          else s.traceEv 6 0 0 (0x4400 + r) 0 sl.seq
        s.releaseScan r k
      else s

/-- One item of a slot has ended, by completion or by cancellation. -/
def State.slotEnd (s : State) (slot : Option (Nat × Nat)) (completed : Bool) : State :=
  match slot with
  | none => s
  | some (r, seq) =>
    let s := s.modSlot r seq fun x =>
      { x with pending := x.pending - 1, completed := if completed then x.completed + 1 else x.completed }
    s.releaseScan r 65

/-- Does an item's release slot still stand open? -/
def State.slotOpen (s : State) (slot : Option (Nat × Nat)) : Bool :=
  match slot with
  | none => false
  | some (r, seq) => (s.rndSt r).slots.any fun x => x.seq == seq && !x.forced

/-! ### Busy sorters (R201, R220) -/

/-- The time a sorter was busy from a moment until now. -/
def SrtHid.busySince (h : SrtHid) (t now : Time) : Time := (h.recent.map fun x => min now x.2 - max t x.1).sum

/-- LOAD_PCT: the busy fraction of the last second, as it is now (R220). -/
def State.showLoad (s : State) (n : Nat) : State :=
  s.wr Reg.SRT_LOAD_PCT [n] (min 100 (roundDiv ((s.srtHid n).busySince (s.now - second) s.now * 100) second))

/-- The sorters whose spans of the last second are not all over. -/
def State.showLoads (s : State) : State := forEach (s.sof.srts.map (·.1)) (fun n a => a.showLoad n) s

/-- Busy cycles of a sorter (R201, R220): its span is noted, and a busy fraction above CAP over the 10 ms that end here, which is
where such a fraction peaks, is an overload. -/
def State.chargeSorter (s : State) (n flow cycles : Nat) : State :=
  let h := s.srtHid n
  let h := { h with recent := (h.recent.filter fun x => decide (s.now < x.2 + second)) ++ [(s.now - roundDiv (cycles * usU) (max 1 s.sof.clk), s.now)], idle := s.now }
  let s := (s.bump64 Reg.SRT_BUSY [n] cycles).setSrtHid n h
  let s : State := { s with sof := { s.sof with used := sset s.sof.used flow (sget s.sof.used flow 0 + cycles) } }
  let s := s.showLoad n
  if decide (clampN 0 100 (s.rd Reg.PLC_TGT_CAP []) * 10 * msU < h.busySince (s.now - 10 * msU) s.now * 100) && !s.sof.rebalance.contains n then
    ({ s with sof := { s.sof with rebalance := s.sof.rebalance ++ [n] } } : State).notice bPLC 2 n 0 0
  else s

/-- An item in service is stopped: the cycles it has taken count (R220). -/
def State.chargeStopped (s : State) (i : Item) : State :=
  if i.serving then s.chargeSorter i.srt i.flow ((s.now - i.since) * s.sof.clk / usU) else s

/-! ### Cancellation (R193 to R195) -/

/-- The POSTMARK of the letter or mailbag an item works on, whether its content is a dispatch record's, and the content: the
letter, or the first 48 bytes of the mailbag's record (R205). -/
def State.itemMark (s : State) (w : Work) : Option Nat × Bool × Option (List Byte) :=
  match w with
  | .file l _ => (some (postmark l.sec l.k l.rate), false, some (letterBytes l))
  | .derive_ r n _ => s.bagMark r n
  | .format r n _ => s.bagMark r n
  | .group _ r n _ _ _ => s.bagMark r n
  | .defUpd r n _ _ => s.bagMark r n
  | .machine _ r n _ _ => s.bagMark r n
  | .coherency n _ _ => s.bagMark (s.rd Reg.ISL_CTL_RND []) n
  | .separation n _ _ => s.bagMark (s.rd Reg.ISL_CTL_RND []) n
  | _ => (none, false, none)

/-! ### Letter staging (R184, R207) -/

/-- Letters waiting in staging. -/
def State.staging (s : State) : Nat :=
  (s.sof.items.filter fun i => match i.work with | .file _ _ => !i.ran | _ => false).length

/-- Is there room in staging, and an entry of class 1 in the pool? -/
def State.stagingRoom (s : State) : Bool := decide (s.staging < 16384) && decide (s.occ 1 < plainQuota 1)

/-- The receive buffer a letter is held in: its port's, or, for one of the link or of a local stream, one of its own. -/
def HeldLetter.buffer (x : HeldLetter) : Nat := if x.fwd then 4 else if 16384 ≤ x.letter.sid then 5 else x.letter.path / 64

/-- Hand a letter to the Sorting Office. A full staging holds its frame in its port's receive buffer; a frame that finds the 4 MiB
full too counts once with reason 0x1D, against the port (R184, R204, R207; log entry 59). -/
def State.handOver (s : State) (l : Letter) (fwd : Bool) (octets : Nat) : State :=
  if s.stagingRoom ∧ s.sof.overflow.isEmpty then s.enqueue l.sid 1 (.file l fwd) none none
  else
    let x : HeldLetter := ⟨l, fwd, octets⟩
    let mine := s.sof.overflow.filter fun y => y.buffer == x.buffer
    -- a frame that brings several letters is held, and counted, once
    let held := mine.any fun y => y.letter.arr == l.arr
    if held ∨ ((mine.map (·.octets)).sum + octets ≤ 4 * 2 ^ 20 ∧ s.sof.lostFrame ≠ some (x.buffer, l.arr)) then
      { s with sof := { s.sof with overflow := s.sof.overflow ++ [{ x with octets := if held then 0 else octets }] } }
    else if s.sof.lostFrame = some (x.buffer, l.arr) then s
    else (({ s with sof := { s.sof with lostFrame := some (x.buffer, l.arr) } } : State).notice bSOF 4 x.buffer 0 0).dead 0x1D 0xFFFF
      (some (postmark l.sec l.k l.rate)) false (some (letterBytes l))

/-- Staging has room again: the letter held longest is taken. -/
def State.drainOverflow (s : State) : State :=
  match s.sof.overflow with
  | [] => s
  | x :: rest =>
    if s.stagingRoom then ({ s with sof := { s.sof with overflow := rest } } : State).enqueue x.letter.sid 1 (.file x.letter x.fwd) none none
    else s

/-! ### Moves of flows (R200) -/

def State.showMoves (s : State) : State :=
  (s.wr Reg.PLC_MOVES_PENDING [] (min 65535 s.sof.moves.length)).setFlag Reg.PLC_STAT_BUSY [] (!s.sof.moves.isEmpty)

/-- Once a moving flow has nothing in service its state is copied. -/
def State.moveQuiet (s : State) (flow : Nat) : State :=
  if s.sof.items.any fun i => i.flow == flow && i.serving then s
  else { s with sof := { s.sof with moves := s.sof.moves.map fun m => if m.flow == flow && m.started then { m with copying := true } else m } }

/-- The items a move held wait at the flow's home again. -/
def State.releaseHeld (s : State) (f : Nat) : State :=
  let (n, g) := s.place f
  ((s.mapItems fun i => if i.flow == f && i.held then { i with held := false, srt := n, guest := g } else i).tokens).kick

def State.endMove (s : State) (f : Nat) : State :=
  ({ s with sof := { s.sof with moves := s.sof.moves.filter fun m => m.flow != f } } : State).showMoves

/-- A sorter is fenced: the moves to it that have begun are abandoned, and what they held waits at its source (R203). -/
def State.abandonMoves (s : State) (n : Nat) : State :=
  forEach ((s.sof.moves.filter fun m => m.started && m.dst == n).map (·.flow)) (fun f a => (a.endMove f).releaseHeld f) s

/-! ### Completions of letterbox commands (R216, R217) -/

/-- The 32 bytes of a completion (R217). -/
def completionBytes (cmd : List Byte) (status resultLen : Nat) (result : List Byte) : List Byte :=
  leBytes 4 (leAt cmd 4 4) ++ cmd.take 1 ++ (cmd.drop 1).take 1 ++ leBytes 1 status ++ leBytes 1 0 ++ leBytes 4 resultLen ++
    leBytes 4 0 ++ padTo 16 (result.take 16)

/-- The flow of the class 0 items that write a letterbox ring's completions (log entry 24). -/
def cplFlow (m : Nat) : Nat := 0x5C00 + m

/-- The opcodes of a target (R216, R394, R456, R477, R485, R531); opcode 0 is NOP of every target up to 0x16. -/
def lbKnown (target op : Nat) : Bool :=
  decide (target ≤ 0x16) &&
    (op == 0 || decide (op ≤ (if target = 1 then 4 else if target = 0xE then 1 else if target = 0xF then 2
      else if target = 0x11 then 10 else if target = 0x12 then 4 else if target = 0x13 then 2 else 0)))

/-- A command with reserved bits set is refused (R217, R232). -/
def State.lbBad (s : State) (m : Nat) : State := (s.inc Reg.LB_BAD [m]).notice bHIF 2 m 0 0

/-- A letterbox command is over: DONE counts it, unless it was fetched before the ring's last enable, and with NOTIFY a class 0
item writes its completion (R216, R217). -/
def State.lbDone (s : State) (m : Nat) (cmd res : List Byte) : State :=
  let old := sget s.hif.lbOld m 0
  let s : State := if old = 0 then s.inc Reg.LB_DONE [m]
    else { s with hif := { s.hif with lbOld := sset s.hif.lbOld m (old - 1) } }
  if leAt cmd 2 2 % 2 = 1 then s.enqueue (cplFlow m) 0 (.completion m res) none none else s

/-- Cancel one item (R193, R195): it is counted under its reason, its slot treats it as ended, and a letterbox command completes
with STATUS 6; a group's expired update and an islanding mailbag left untested are counted (R237, R283). The sorter's CANCELLED
counts it if it waited in its pigeonholes (R220). -/
def State.cancelItem (s : State) (i : Item) (code : Nat) : State :=
  let (pm, rec_, c) := s.itemMark i.work
  let s := (s.dropItem i.key).chargeStopped i
  let s := if i.serving then s else s.inc Reg.SRT_CANCELLED [i.srt]
  let s := ((s.dead code i.flow pm rec_ c).traceEv 5 i.cls i.srt i.flow code (traceSeq i.work i.slot)).showOcc.showDepth i.srt
  let s := (s.tokens).moveQuiet i.flow
  let s := match i.work with
    | .letterbox m cmd _ => s.lbDone m cmd (completionBytes cmd 6 0 [])
    | .file _ _ => s.drainOverflow
    | .group g _ _ _ _ _ => if code = 0x15 then s.inc Reg.OSC_AG_SKIPPED [g] else s
    | .separation n _ _ => s.tiesMissed (s.rndMark (s.rd Reg.ISL_CTL_RND []) n)
    | _ => s
  s.slotEnd i.slot false

/-- An item expires (R193); the first expiry after EXPIRE was cleared sets it (R224). -/
def State.expireItem (s : State) (i : Item) : State := (s.cancelItem i 0x15).noticeFirst bSOF 3 i.flow 0 0

/-- Cancel every waiting item that a test picks. -/
def State.cancelWhere (s : State) (p : Item → Bool) (code : Nat) : State :=
  forEach (s.sof.items.filter fun i => !i.serving && p i) (fun i a => a.cancelItem i code) s

/-- Is the work the filing of a letter? -/
def Work.isFile : Work → Bool
  | .file _ _ => true
  | _ => false

/-- End of a flow (R193). A staged letter is filed nevertheless (R195). -/
def State.endFlow (s : State) (flow : Nat) : State := s.cancelWhere (fun i => i.flow == flow && !i.work.isFile) 0x17

/-- Is the work an alarm machine step (R194)? -/
def Work.isMachine : Work → Bool
  | .machine _ _ _ _ _ => true
  | _ => false

/-- A dispatch finds all 64 slots open (R192): the oldest is forced. Its waiting items are cancelled but for machine
steps, which are detached; the slot becomes complete or a hole. -/
def State.forceOldest (s : State) (r : Nat) : State :=
  match (s.rndSt r).slots with
  | [] => s
  | sl :: _ =>
    let mine (i : Item) : Bool := i.slot == some (r, sl.seq)
    let s := s.mapItems fun i => if mine i && i.work.isMachine then { i with slot := none } else i
    let s := s.cancelWhere (fun i => mine i) 0x16
    let s := s.modSlot r sl.seq fun x => { x with pending := 0, forced := true }
    (s.notice bSOF 0 (0x4400 + r) sl.seq 0).releaseScan r 65

/-! ### Completion of items (R191, R216, R217, R220) -/

/-- The output of an item whose slot was forced meanwhile counts dead (R195). -/
def State.lostSlot (s : State) (i : Item) : State :=
  let (pm, rec_, c) := s.itemMark i.work
  s.dead 0x16 i.flow pm rec_ c

/-- A Round's format item fills its slot's frame; if the slot was forced meanwhile, its output counts dead (R195). -/
def State.putFrame (s : State) (i : Item) (f : OutFrame) : State :=
  match i.slot with
  | some (r, seq) => if s.slotOpen i.slot then s.modSlot r seq fun x => { x with frame := some f } else s.lostSlot i
  | none => s

/-- What an item leaves when it completes: a derive item spawns the formatting item of its Round, a formatting item
fills the frame, a completion is offered to its ring, a letterbox command spawns its completion. -/
def State.itemOutput (s : State) (i : Item) : State :=
  match i.work with
  | .derive_ r n ls =>
    if s.flag Reg.WHL_RND_CTL_WIRE [r] then
      match i.slot with
      | some (q, seq) =>
        if s.slotOpen i.slot then
          (s.modSlot q seq fun x => { x with pending := x.pending + 1 }).enqueue i.flow 0 (.format r n ls) i.slot none
        else s.lostSlot i
      | none => s
    else s
  | .format r n ls => s.putFrame i (s.outFrame r n ls)
  | .completion m bytes =>
    let r := s.rd Reg.LB_CFG_CPL_RING [m]
    if 64 ≤ r ∧ s.prSrc r = 5 then s.prOffer r 5 m i.flow bytes none else s.countShed 5 i.flow bytes
  | .ringWrite src sel info bytes => s.offer src 64 info i.flow (fun x => x == sel) bytes none
  -- a command that an engine took over completes from there
  | .letterbox m cmd (some res) => if res.isEmpty then s else s.lbDone m cmd res
  | .letterbox m cmd none =>
    if 2 ≤ leAt cmd 2 2 then (s.lbBad m).lbDone m cmd (completionBytes cmd 2 0 [])
    else s.lbDone m cmd (completionBytes cmd 1 0 [])
  | _ => s

/-- Has an item done what only a row of its own can do (filing, updates, steps, commands)? -/
def Item.finished (i : Item) : Bool :=
  match i.work with
  | .derive_ _ _ _ => true
  | .format _ _ _ => true
  | .completion _ _ => true
  | .ringWrite _ _ _ _ => true
  | .housekeep _ => true
  | .local_ _ => true
  | .letterbox _ cmd res => res.isSome || !lbKnown (leAt cmd 0 1) (leAt cmd 1 1)
  | _ => i.ran

/-- An item completes: its output is formed, then its slot counts it. -/
def State.completeItem (s : State) (i : Item) : State :=
  let s := (s.dropItem i.key).itemOutput i
  (s.tokens.showOcc).slotEnd i.slot true

/-! ### Reissue (R17, R193) -/

/-- The lowest sorter other than `n` on which an item may be placed. -/
def State.otherSorter (s : State) (n flow : Nat) : Nat × Bool :=
  let (p, g) := s.place flow
  if p ≠ n then (p, g)
  else
    let f := s.fallback flow
    if f ≠ n ∧ s.fenced f = false ∧ s.srtState f ≠ 3 then (f, true)
    else (((List.range 64).find? fun k => k != n && !s.fenced k && s.srtState k != 3).getD n, true)

/-- Reissue an item that was in service, once; a second failure cancels it with reason 0x19. -/
def State.reissue (s : State) (i : Item) (n : Nat) : State :=
  if i.again then s.cancelItem i 0x19
  else
    let s := s.chargeStopped i
    let going := s.sof.moves.find? fun m => m.flow == i.flow && m.started
    let (p, g) := match going with | some m => (m.dst, false) | none => s.otherSorter n i.flow
    let s := s.mapItems fun j => if j.key == i.key then
      { j with serving := false, ran := false, again := true, srt := p, guest := g, held := going.isSome, ready := none } else j
    ((s.traceEv 11 i.cls p i.flow 0 (traceSeq i.work i.slot)).tokens.moveQuiet i.flow).sorterNext p false

/-- The item in service on a sorter. -/
def State.inService (s : State) (n : Nat) : Option Item := s.sof.items.find? fun i => i.serving && i.srt == n

end Sys2Proof.Machine
end

