-- ==== Sys2Proof/Machine/OscLife.lean ====
section
/-! DEFINITION. Analysis groups and the islanding tracker as they are defined, checked, seeded, checkpointed and resumed
(R233, R236, R243, R244, R263, R270, R271, R275, R277, R284, R289). -/
namespace Sys2Proof.Machine

/-- OSC_NOTICE_AG shows the groups that contributed to a bit of OSC_NOTICE since that bit was last cleared (R274). -/
def State.showGrpContrib (s : State) : State :=
  let gs := (s.osc.contrib.map (·.2)).eraseDups
  forEach (List.range 8) (fun m a => a.wr Reg.OSC_NOTICE_AG [m] (((gs.filter fun g => g / 32 == m).map fun g => 2 ^ (g % 32)).sum)) s

/-- A notice of an analysis group, with its roll-up bit (R274). -/
def State.oscNotice (s : State) (g bit d1 d2 : Nat) : State :=
  let s := if s.osc.contrib.contains (bit, g) then s
    else ({ s with osc := { s.osc with contrib := s.osc.contrib ++ [(bit, g)] } } : State).showGrpContrib
  s.notice bOSC bit g d1 d2

/-! ### Definitions (R233, R236) -/

/-- A channel that is defined: VALID, its CHECK passes, and its KIND is one of the seven. -/
def State.chOk (s : State) (c : Nat) : Bool :=
  s.flag Reg.CH_VALID [c] && s.rd Reg.CH_CHECK [c] == s.crcAt (Reg.CH_VALID.off [c]) 3 && s.rd Reg.CH_KIND [c] != 7

/-- The defined channels of a group, rising. -/
def State.chansOf (s : State) (g : Nat) : List Nat :=
  (sortRise (s.entries 0xD20000 32 4096)).filter fun c => s.chOk c && s.rd Reg.CH_GROUP [c] == g
where sortRise (xs : List Nat) : List Nat := (List.range 4096).filter xs.contains

def State.memberChans (s : State) (g : Nat) : List Nat := (s.chansOf g).filter fun c => !s.flag Reg.CH_ROLE [c]
def State.candChans (s : State) (g : Nat) : List Nat := (s.chansOf g).filter fun c => s.flag Reg.CH_ROLE [c]

/-- The group's settings, clamped (R272, R273). -/
def State.agRnd (s : State) (g : Nat) : Nat := s.rd Reg.OSC_AG_CFG_RND [g]
def State.agModes (s : State) (g : Nat) : Nat := clampN 1 8 (s.rd Reg.OSC_AG_CFG_MODES [g])
def State.fgtF (s : State) : Nat := clampN 8 14 (s.rd Reg.OSC_CTL_FGT_F [])
def State.fgtS (s : State) : Nat := clampN 6 12 (s.rd Reg.OSC_CTL_FGT_S [])

/-- A Round's rate is at least 25 fps: rate code 4 or above. -/
def State.rateOk (s : State) (r : Nat) : Bool := decide (25 ≤ s.rndFps r)

/-- The first failing check of a group, 0 where it is valid (R236). -/
def State.grpCheck (s : State) (g : Nat) : Nat :=
  let m := (s.memberChans g).length
  let k3 := (s.chansOf g).any fun c => s.rd Reg.CH_KIND [c] == 3
  if !s.rndOn (s.agRnd g) then 1
  else if !s.rateOk (s.agRnd g) then 2
  else if m = 0 ∨ 64 < m then 3
  else if 192 < (s.candChans g).length then 4
  else if k3 ∧ !s.flag Reg.OSC_AG_REF_REF_EN [g] then 5
  else if !s.flag Reg.OSC_CTL_EN [] then 6
  else 0

/-! ### Seeding (R244, R250, R269) -/

def chain0 : Chain := ⟨[], none, 0, false, false, 0, none, F32.zero, 0, [], [], 0⟩

/-- The first `p` columns of an identity of `d` rows. -/
def eyeRows (d p : Nat) : List (List Word) :=
  (List.range d).map fun i => (List.range p).map fun k => if i = k then F32.one else F32.zero

/-- A band seeded for `d` rows and rank `p`: P is 10^4 times the identity. -/
def bandSeed (d p : Nat) : Band :=
  ⟨0, 0, eyeRows d p,
    (List.range p).map fun i => (List.range p).map fun k => if i = k then F32.ofInt 10000 else F32.zero⟩

/-- The rank of a group's bands. -/
def State.agRank (s : State) (g : Nat) : Nat := 2 * s.agModes g + 4

def State.seedFast (s : State) (g n : Nat) : Band := bandSeed (64 * n) (s.agRank g)
def State.seedSlow (s : State) (g n : Nat) : Band := bandSeed (64 * n) (s.agRank g)

/-- A group with nothing learned: its members hold the seats in CID order. -/
def State.grpNew (s : State) (g : Nat) : GrpSt :=
  let seats := s.memberChans g
  ⟨seats, none, none, [], [], s.seedFast g seats.length, s.seedSlow g seats.length, List.replicate (s.agModes g) none,
    List.replicate 4 none, [], [], none, 0, 0, 0⟩

/-- The group as it runs. -/
def State.grp (s : State) (g : Nat) : GrpSt := (sfind s.osc.grps g).getD (s.grpNew g)
def State.setGrp (s : State) (g : Nat) (v : GrpSt) : State := { s with osc := { s.osc with grps := sset s.osc.grps g v } }

def grpChain (v : GrpSt) (c : Nat) : Chain := sget v.chains c chain0
def setGrpChain (v : GrpSt) (c : Nat) (k : Chain) : GrpSt := { v with chains := sset v.chains c k }

/-- A channel is STALE: by its inputs, or while an automatic norm is not seeded (R235, R241). -/
def State.chStale (s : State) (v : GrpSt) (c : Nat) : Bool :=
  let k := grpChain v c
  k.stale || k.unfed || (F32.isZero (BitVec.ofNat 32 (s.rd Reg.CH_NORM [c])) && decide (k.powN < 25))

/-- A seat that does not enter the shapes: STALE, or settling after a swap (R249, R265). -/
def State.chMute (s : State) (v : GrpSt) (c : Nat) : Bool := s.chStale v c || decide (0 < (grpChain v c).settle)

/-- A band settles until its count reaches 2 × 2^FGT of the exponent in force (R251), and after a resumption until the count that
R271 sets. -/
def bandSettling (fgt : Nat) (b : Band) : Bool := if b.ready = 0 then decide (b.n < 2 * 2 ^ fgt) else decide (b.n < b.ready)

/-- The two bands of a group. -/
def State.fastSettling (s : State) (v : GrpSt) : Bool := bandSettling s.fgtF v.fast
def State.slowSettling (s : State) (v : GrpSt) : Bool := bandSettling s.fgtS v.slowB

/-! ### What a group shows (R233, R273) -/

/-- STATE of a group that runs: 4 suspended, 1 settling, 2 running (R246, R251). -/
def State.grpState (s : State) (g : Nat) (v : GrpSt) : Nat :=
  if v.susp.isSome then 4
  else if s.fastSettling v || (s.flag Reg.OSC_AG_CFG_SLOW [g] && s.slowSettling v) then 1 else 2

/-- OSC_STAT.RUNNING. -/
def State.showRunning (s : State) : State :=
  let n := ((s.entries 0x91000 64 256).filter fun g => [1, 2, 4].contains (s.rd Reg.OSC_AG_STAT_STATE [g])).length
  s.wr Reg.OSC_STAT_RUNNING [] n

/-- Standard alarm 8: some group is suspended (R296). -/
def State.suspAlarm (s : State) : State :=
  s.stdAlarm 8 ((s.entries 0x91000 64 256).any fun g => s.rd Reg.OSC_AG_STAT_STATE [g] == 4)

/-- Standard alarm 7: islanding is asked for and does not run (R296). -/
def State.islAlarm (s : State) : State := s.stdAlarm 7 (s.flag Reg.ISL_CTL_EN [] && s.rd Reg.ISL_STAT_STATE [] != 2)

/-- Show a group's registers and its channels' words. -/
def State.showGrp (s : State) (g : Nat) : State :=
  let v := s.grp g
  let st := s.grpState g v
  let was := s.rd Reg.OSC_AG_STAT_STATE [g]
  let stale := v.seats.filter (s.chStale v)
  let s := s.wr Reg.OSC_AG_STAT_STATE [g] st |>.setFlag Reg.OSC_AG_STAT_SLOW_SETTLING [g] (s.flag Reg.OSC_AG_CFG_SLOW [g] && s.slowSettling v)
    |>.wr Reg.OSC_AG_STAT_ACTIVE [g] v.seats.length |>.wr Reg.OSC_AG_STAT_STALE [g] stale.length
    |>.wr Reg.OSC_AG_STAT_OCCUPIED [g] ((v.slots.filter Option.isSome).length)
  let s := s.wr Reg.OSC_AG_SAMPLES_F [g] (min v.fast.n (2 ^ 32 - 1)) |>.wr Reg.OSC_AG_SAMPLES_S [g] (min v.slowB.n (2 ^ 32 - 1))
  let s := forEach (s.chansOf g) (fun c a =>
    let at_ := v.seats.idxOf c
    let act := decide (at_ < v.seats.length)
    let k := grpChain v c
    let a := a.setFlag Reg.CH_ACTIVE [c] act |>.setFlag Reg.CH_STALE [c] (a.chStale v c) |>.setFlag Reg.CH_CH_SETTLING [c] (decide (0 < k.settle))
    (a.wr Reg.CH_POS [c] (if act then at_ else 0)).wr Reg.CH_MEAN [c] (k.mean.getD F32.zero).toNat) s
  let s := if st = 2 ∧ was = 1 then s.oscNotice g 1 0 0 else s
  let s := if st = 4 ∧ was ≠ 4 then s.oscNotice g 11 0 0 else s
  s.showRunning.suspAlarm

/-- A channel that takes part in nothing shows none of what a part gives it (R233): its entry is not defined, or its group does not
run. -/
def State.quietChan (s : State) (c : Nat) : State :=
  if s.chOk c && [1, 2, 4].contains (s.rd Reg.OSC_AG_STAT_STATE [s.rd Reg.CH_GROUP [c]]) then s
  else (s.setFlag Reg.CH_ACTIVE [c] false |>.setFlag Reg.CH_STALE [c] false |>.setFlag Reg.CH_CH_SETTLING [c] false).wr Reg.CH_POS [c] 0

/-- A word of a channel's entry is written: an entry whose CHECK fails is treated as VALID = 0 (R233). -/
def State.chanWrite (s : State) (off : Nat) (w : Word) : State := (s.store off w).quietChan ((off - 0xD20000) / 32)

/-! ### Checkpoints (R270, R271, R420) -/

/-- The words of a line in a checkpoint. -/
def flineWords (o : Option FLine) : List Word :=
  match o with
  | none => [0#32]
  | some l => [1#32, l.freq, l.amp, l.ratio, l.env, BitVec.ofNat 32 l.pos, BitVec.ofNat 32 l.start, BitVec.ofNat 32 l.gone]

def natWord (n : Nat) : Word := BitVec.ofNat 32 n

def chainWords (k : Chain) : List Word :=
  k.line.flatMap (fun t => [t.1, natWord (bitN t.2 0)]) ++ [k.last.getD 0#32, natWord (bitN k.last.isSome 0), natWord k.miss, natWord (bitN k.stale 0 + bitN k.unfed 1),
    natWord k.good, k.mean.getD 0#32, natWord (bitN k.mean.isSome 0), k.pow, natWord k.powN] ++ k.hist ++ k.slow ++ [natWord k.settle]

def bandWords (b : Band) : List Word := [natWord b.n, natWord b.ready] ++ b.w.flatten ++ b.pm.flatten

def slotWords (o : Option ModeSlot) : List Word :=
  match o with
  | none => [0#32]
  | some m => [natWord 1, natWord (bitN m.slow 0), m.freq, m.damp, m.amp, m.energy, m.sigma, natWord m.ref, natWord m.age, natWord m.miss,
      natWord m.firstSec] ++ m.shape.flatMap (fun z => [z.1, z.2]) ++ m.damps ++ m.freqs

/-- The words a group's checkpoint holds, in the model's own order (log entry 27). -/
def grpWords (v : GrpSt) : List Word :=
  v.seats.map natWord ++ [natWord (v.lastN.getD 0), natWord (v.lastJ.getD 0)] ++ v.chains.flatMap (fun c => natWord c.1 :: chainWords c.2) ++
    bandWords v.fast ++ bandWords v.slowB ++ v.slots.flatMap slotWords ++ v.lines.flatMap flineWords ++
    v.runs.flatMap (fun r => [r.freq, natWord r.count, natWord r.start]) ++ [natWord v.epoch, natWord v.autoAt]

def wordsCrc (ws : List Word) : Nat := crc32c (ws.flatMap wordBytes)

/-- DEFCRC of a group. -/
def State.defCrc (s : State) (g : Nat) : Nat :=
  crc32c (s.regBytes (Reg.OSC_AG_CFG_EN.off [g]) 2 ++ (s.chansOf g).flatMap fun c => s.regBytes (Reg.CH_VALID.off [c]) 3)

/-- The checkpoint of a group as it is now. -/
def State.ckptOf (s : State) (g : Nat) : Ckpt := ⟨s.defCrc g, wordsCrc (grpWords (s.grp g)), s.grp g⟩

/-- Write a group's checkpoint. -/
def State.checkpoint (s : State) (g : Nat) : State :=
  { s with osc := { s.osc with ckpts := sset s.osc.ckpts g (s.ckptOf g), recent := serase s.osc.recent g } }

/-- The CRC-32C that a group's checkpoint carries (R420); of the group as it is where it has none. -/
def State.grpCrc (s : State) (g : Nat) : Nat :=
  match sfind s.osc.ckpts g with
  | some k => k.crc
  | none => (s.ckptOf g).crc

/-- A checkpoint from which a group may resume: the CRC over its content passes, and DEFCRC matches the definition in force. -/
def State.ckptGood (s : State) (g : Nat) (k : Ckpt) : Bool := k.crc == wordsCrc (grpWords k.grp) && k.defCrc == s.defCrc g

/-- Resume a group from its checkpoint, else seed it anew; GAP marks the next 4 extractions. -/
def State.resumeGrp (s : State) (g : Nat) : State :=
  match sfind s.osc.ckpts g with
  | some k => if s.ckptGood g k then s.setGrp g { k.grp with gap := 4 } else s.setGrp g (s.grpNew g)
  | none => s.setGrp g (s.grpNew g)

/-- The groups that run. -/
def State.grpsOn (s : State) : List Nat := (List.range 256).filter fun g => [1, 2, 4].contains (s.rd Reg.OSC_AG_STAT_STATE [g])

/-! ### Source localisation as defined (R259, R263) -/

def State.brOk (s : State) (b : Nat) : Bool :=
  s.flag Reg.BR_VALID [b] && s.rd Reg.BR_CHECK [b] == s.crcAt (Reg.BR_VALID.off [b]) 3

/-- Checks 1 and 4 of the source localisation, and between them 2 and 3 where they are asked for. -/
def State.defChecks (s : State) (all : Bool) : Nat :=
  let r := s.rd Reg.OSC_DEF_CTL_RND []
  let g := s.rd Reg.OSC_DEF_CTL_GROUP []
  if !s.flag Reg.OSC_CTL_EN [] then 1
  else if all && !s.rndOn r then 2
  else if all && !s.rateOk r then 3
  else if s.rd Reg.OSC_DEF_CTL_MODE [] = 3 ∧ (s.grpCheck g ≠ 0 ∨ s.agModes g ≤ s.rd Reg.OSC_DEF_CTL_SLOT []) then 4
  else 0

/-- The first failing check of the source localisation as the device leaves LOADING or SERVICE. -/
def State.defCheck (s : State) : Nat := s.defChecks true

/-- Branch results and the bus list read as nothing (R263), and OSC_DEF_TOP with them. -/
def State.clearDef (s : State) : State :=
  let os := s.listed 0xF50000 0xF58080
  let s := forEach os (fun o a => if o < 0xF58000 then a.put 0xF50000 o 0#32 else a.put 0xF58000 o 0#32) s
  (s.setFlag Reg.OSC_DEF_STAT_VALID [] false).wr Reg.OSC_DEF_TOP_BUS [] 0 |>.wr Reg.OSC_DEF_TOP_VALID_BR [] 0

/-- Settle a check: a failure is shown, noticed and recorded, and nothing is kept. -/
def State.defJudge (s : State) (code : Nat) : State :=
  let s := s.wr Reg.OSC_DEF_STAT_CFGERR [] code
  if code = 0 then s
  else
    let s := s.notice bOSC 10 0xFFFF code 0
    ({ s with osc := { s.osc with brs := [], defF := none, defTarget := none, defN := none, defJ := none } } : State).clearDef

/-! ### Islanding as defined (R275, R284, R289) -/

def State.siteOk (s : State) (i : Nat) : Bool :=
  s.flag Reg.SITE_VALID [i] && s.rd Reg.SITE_CHECK [i] == s.crcAt (Reg.SITE_VALID.off [i]) 1

def State.sites (s : State) : List Nat := (List.range 4096).filter s.siteOk

def noRepeats : List Nat → Bool
  | [] => true
  | x :: r => !r.contains x && noRepeats r

def State.islCheck (s : State) : Nat :=
  let r := s.rd Reg.ISL_CTL_RND []
  let ss := s.sites
  if !s.rndOn r then 1
  else if !s.rateOk r then 2
  else if ss.length < 2 then 3
  else if !noRepeats (ss.map fun i => s.rd Reg.SITE_SID [i]) then 4
  else if !((s.ties).all fun t => ss.contains (s.rd Reg.TIE_SITE_A [t]) && ss.contains (s.rd Reg.TIE_SITE_B [t])) then 5
  else 0

def State.islFgt (s : State) : Nat := clampN 8 14 (s.rd Reg.ISL_COH_FGT [])
def State.islRank (s : State) : Nat := clampN 4 15 (s.rd Reg.ISL_COH_RANK [])

/-- The tracker with nothing learned. -/
def State.trkNew (s : State) : IslTrk :=
  ⟨[], bandSeed s.sites.length s.islRank, none, none, []⟩

/-- ISL_CTL is written: islanding that is no longer asked for is off, and standard alarm 7 follows (R289, R296). -/
def State.islCtlWrite (s : State) (w : Word) : State :=
  let s := s.store (Reg.ISL_CTL_EN.off []) w
  (if s.flag Reg.ISL_CTL_EN [] then s else (s.wr Reg.ISL_STAT_STATE [] 0).wr Reg.ISL_STAT_CFGERR [] 0).islAlarm

/-- CFG of a group is written: a group that is no longer enabled is off (R236, R273). -/
def State.agCfgWrite (s : State) (g off : Nat) (w : Word) : State :=
  let s := s.store off w
  if s.flag Reg.OSC_AG_CFG_EN [g] then s
  else
    let s := (s.wr Reg.OSC_AG_STAT_STATE [g] 0).wr Reg.OSC_AG_CFGERR [g] 0
    (forEach (s.chansOf g) (fun c a => a.quietChan c) s).showRunning.suspAlarm

/-! ### At the end of LOADING or SERVICE (R236, R263, R289) -/

/-- A group goes on with what it has learned while its definition stands: by DEFCRC where it has a checkpoint, else by its
seats. -/
def State.grpFits (s : State) (g : Nat) : Bool :=
  match sfind s.osc.grps g, sfind s.osc.ckpts g with
  | none, _ => false
  | some _, some k => k.defCrc == s.defCrc g
  | some v, none => v.seats.all (s.chansOf g).contains

/-- Check one group; one whose definition was changed starts anew. -/
def State.checkGrp (s : State) (g : Nat) : State :=
  if !s.flag Reg.OSC_AG_CFG_EN [g] then (s.wr Reg.OSC_AG_STAT_STATE [g] 0).wr Reg.OSC_AG_CFGERR [g] 0
  else
    let code := s.grpCheck g
    let s := s.wr Reg.OSC_AG_CFGERR [g] code
    if code = 0 then
      let s : State := if s.grpFits g then s
        else ({ s with osc := { s.osc with ckpts := serase s.osc.ckpts g } } : State).setGrp g (s.grpNew g)
      s.showGrp g
    else ({ s with osc := { s.osc with grps := serase s.osc.grps g } } : State).wr Reg.OSC_AG_STAT_STATE [g] 5 |>.oscNotice g 10 code 0

/-- Check the islanding definition. -/
def State.checkIsl (s : State) : State :=
  if !s.flag Reg.ISL_CTL_EN [] then (s.wr Reg.ISL_STAT_STATE [] 0).wr Reg.ISL_STAT_CFGERR [] 0
  else
    let code := s.islCheck
    let s := s.wr Reg.ISL_STAT_CFGERR [] code
    if code = 0 then
      let fit := s.isl.trk.band.w.length == s.sites.length && !s.isl.trk.band.pm.isEmpty
      let s : State := if fit then s else { s with isl := { s.isl with trk := s.trkNew } }
      s.wr Reg.ISL_STAT_STATE [] (if bandSettling s.islFgt s.isl.trk.band then 1 else 2)
    else (s.wr Reg.ISL_STAT_STATE [] 5).notice bISL 8 0 code 0

/-- The definitions are checked when the device leaves LOADING or SERVICE. -/
def State.checkAnalysis (s : State) : State :=
  let s := forEach (s.entries 0x91000 64 256) (fun g a => a.checkGrp g) s
  let s := forEach (s.entries 0xD20000 32 4096) (fun c a => a.quietChan c) s
  let s := s.showRunning.suspAlarm
  let s := s.defJudge (if s.rd Reg.OSC_DEF_CTL_MODE [] = 0 then 0 else s.defCheck)
  let s : State := { s with osc := { s.osc with defDue := false } }
  s.checkIsl.islAlarm

end Sys2Proof.Machine
end

