-- ==== Sys2Proof/Machine/OscMath.lean ====
section
/-! DEFINITION. The arithmetic of the analyses (R234, R235, R238 to R250, R254, R255): sums, the decimation chain, centring and
normalising, the subspace tracker, and the figures of a mode and of a line. Roundings whose order the spec leaves open
follow the formulas from left to right (log entry 26). -/
namespace Sys2Proof.Machine

/-! ### Constants -/

def twoPi32 : Word := 0x40C90FDB#32
/-- 2^-n. -/
def half (n : Nat) : Word := F32.ofRat 1 (2 ^ n)

/-! ### The decimation chain (R238, R239) -/

/-- The chain's delay in instants of the Round, by its rate. -/
def delayRI (r : Nat) : Nat :=
  if r = 50 then 5 else if r = 100 then 15 else if r = 200 then 35 else if r = 30 then 6 else if r = 60 then 17
  else if r = 120 then 39 else if r = 240 then 83 else 0

/-- The length of the input delay line. -/
def lineLen (r : Nat) : Nat := 2 * delayRI r + 1

/-- The 40 ms sample that the item of an instant completes, if any: the instant is the latest at or before its stamp plus
the delay. Samples are numbered from the epoch of TAI, 25 to the second. -/
def sampleOf (r n : Nat) : Option Nat :=
  if n < delayRI r then none
  else
    let m := n - delayRI r
    let j := ceilDiv (m * 25) r
    if j * r / 25 = m then some j else none

/-- The half-band stages before a rate's last stage. -/
def halfBands (r : Nat) : Nat := if r = 50 ∨ r = 60 then 1 else if r = 100 ∨ r = 120 then 2 else if r = 200 ∨ r = 240 then 3 else 0

/-- The amplitude of symmetric taps at f/16 Hz, at `q` samples per second, in units of 2^-469. -/
def ampAt (h : List Word) (q f : Nat) : Int :=
  (h.zipIdx.map fun x =>
    let off := ((x.2 : Int) - (h.length / 2 : Nat)).natAbs
    F32.units x.1 * cosUnits ((twoPi * (f * off) / (16 * q) % twoPi : Nat))).sum

/-- The figures of R238 at every 1/16 Hz: ripple within ±0.02 dB from 0 to 5 Hz, and 80 dB where a component folds into 0 to 5 Hz, which
`stops` gives by the bands' lower ends in Hz (log entry 83). -/
def meetsFigures (h : List Word) (q gain : Nat) (stops : List (Nat × Nat)) : Bool :=
  let one : Int := (gain * 2 ^ 469 : Nat)
  (List.range 81).all (fun f =>
    let a := ampAt h q f * 1000000000
    decide (997700064 * one ≤ a) && decide (a ≤ 1002305238 * one)) &&
  stops.all fun s => (List.range (16 * (s.2 - s.1) + 1)).all fun i => decide ((ampAt h q (16 * s.1 + i)).natAbs * 10000 ≤ one.natAbs)

/-- Eleven taps that a half-band stage fed at `q` instants per second may have: symmetric, their exact sum 1, and the figures of R238.
No eleven symmetric taps meet both figures at 50 instants per second, so none are asked there (log entry 83). -/
def hbOk (q : Nat) (h : List Word) : Bool :=
  h.length == 11 && h.reverse == h && h.all F32.isFinite && (h.map F32.units).sum == 2 ^ 149 &&
    (decide (q < 60) || meetsFigures h q 1 [(q / 2 - 5, q / 2)])

/-- 61 taps that the resampler's prototype may have: symmetric, each of its five branches sums to exactly 1, and the figures of R238 (log
entry 83). -/
def protoOk (h : List Word) : Bool :=
  h.length == 61 && h.reverse == h && h.all F32.isFinite &&
    ((List.range 5).all fun b => ((List.range 61).filter fun i => i % 5 == b).foldl (fun a i => a + F32.units (h.getD i F32.zero)) 0 == 2 ^ 149) &&
    meetsFigures h 150 5 [(20, 30), (45, 55), (70, 75)]

/-- Eleven taps that meet R238 at every rate where eleven can: what a stage has should the free value not meet it (log entry 83). -/
def hbStandIn : List Word :=
  ([167936, -202003, -1612362, 637080, 9833771, 15905588, 9833771, 637080, -1612362, -202003, 167936] : List Int).map fun n => F32.ofRat n (2 ^ 25)

/-- Half of a prototype that meets R238, likewise. -/
def protoStandIn : List Int :=
  [0, 1232, 4572, 9788, 14385, 13248, 0, -29596, -72976, -116953, -137550, -105839, 0, 179312, 396276, 577407, 624978, 447332, 0, -675005,
    -1428050, -2012061, -2129794, -1511011, 0, 2372919, 5361526, 8532116, 11347473, 13288677, 13981268]

/-- The taps of a half-band stage fed at `q` instants per second: free among those the rule admits. -/
def hbTaps (q : Nat) : List Word :=
  let h := Config.halfBand q
  if hbOk q h then h else hbStandIn

/-- The resampler's prototype: free among those the rule admits. -/
def protoTaps : List Word :=
  let h := Config.resampler
  if protoOk h then h else (List.range 61).map fun i => F32.ofRat (protoStandIn.getD (min i (60 - i)) 0) (2 ^ 24)

/-- The output of `k` half-band stages at an instant of the halved rate; `x` gives the inputs of a Round at rate `r` by instant. -/
def hbStage (r : Nat) (x : Nat → Word) : Nat → Nat → Word
  | 0, n => x n
  | k + 1, n => dotF (hbTaps (r / 2 ^ k)) ((List.range 11).map fun i => hbStage r x k (2 * n + 5 - i))

/-- The decimated sample `j` of a Round at rate `r` over a delay line, newest first (R238): the half-band stages, then for the
30 fps family the 5/6 resampler with its prototype at 150 samples per second. Stages between are float32. The line reaches
back over all inputs that the sample rests on (log entry 84). -/
def firOut (r j : Nat) (xs : List Word) : Word :=
  let newest := j * r / 25 + delayRI r
  let x (n : Nat) : Word := xs.getD (newest - n) F32.zero
  let mid (n : Nat) : Word := hbStage r x (halfBands r) n
  if r % 25 = 0 then mid j
  else
    let js := (List.range 61).filter fun i => (6 * j + 30 - i) % 5 == 0
    dotF (js.map fun i => protoTaps.getD i F32.zero) (js.map fun i => mid ((6 * j + 30 - i) / 5))

/-- One instant into a chain (R235): a good value, or the last good one held; before the first good one `before`, which the spec
leaves open. A channel that its Round does not feed is STALE for as long as that lasts. -/
def chainPush (k : Chain) (v : Option Word) (before : Word) (fed : Bool) (gap len : Nat) : Chain :=
  let k := { k with unfed := !fed }
  match v with
  | some x => { k with line := ((x, false) :: k.line).take len, last := some x, miss := 0 }
  | none =>
    { k with line := ((k.last.getD before, true) :: k.line).take len, miss := k.miss + 1, good := 0
             stale := k.stale || decide (gap < k.miss + 1) }

/-- An addendum replaces a held value that is still in the delay line (R240). -/
def chainPatch (k : Chain) (i : Nat) (x : Word) : Chain := { k with line := k.line.set i (x, false) }

/-- Is the value `i` instants back a held one? -/
def chainHeld (k : Chain) (i : Nat) : Bool := match k.line[i]? with | some (_, h) => h | none => false

/-- Centre and normalise one decimated sample (R241); `norm` 0.0 asks for the automatic norm. -/
def chainSample (k : Chain) (x norm : Word) : Chain :=
  let m := k.mean.getD x
  let d := F32.sub x m
  let sq := F32.mul d d
  let pow := if k.powN < 24 then F32.add k.pow sq
    else if k.powN = 24 then F32.div (F32.add k.pow sq) (F32.ofInt 25)
    else F32.fma (F32.sub sq k.pow) (half 13) k.pow
  let n := min 25 (k.powN + 1)
  let div_ := if F32.isZero norm then F32.max (F32.sqrt pow) (F32.ofRat 1 (10 ^ 30)) else norm
  let u := if F32.isZero norm ∧ n < 25 then F32.zero else F32.div d div_
  let good := if k.miss = 0 then min 64 (k.good + 1) else 0
  { k with mean := some (F32.fma d (half 13) m), pow := pow, powN := n, hist := (u :: k.hist).take 1024, good := good
           stale := k.stale && decide (good < 64), settle := k.settle - 1 }

/-- The norm a chain divides by. -/
def chainNorm (k : Chain) (norm : Word) : Word := if F32.isZero norm then F32.max (F32.sqrt k.pow) (F32.ofRat 1 (10 ^ 30)) else norm

/-- RMS of the centred channel over the last 1,024 samples (R233). -/
def chainRms (k : Chain) : Word := if k.hist.isEmpty then F32.zero else F32.sqrt (F32.div (sumSq k.hist) (F32.ofInt k.hist.length))

/-- The weight of the third-order comb-integrator decimator by 25 (R242): ways to write `i` as three numbers below 25. -/
def cicWeight (i : Nat) : Nat :=
  ((List.range 25).map fun a => ((List.range 25).filter fun b => decide (a + b ≤ i ∧ i - a - b < 25)).length).sum

/-- A slow sample, stamped at a whole second 36 samples back. -/
def cicOut (hist : List Word) : Word :=
  F32.div (dotF ((List.range 73).map fun i => F32.ofInt (cicWeight i)) ((List.range 73).map fun i => hist.getD i F32.zero)) (F32.ofInt 15625)

/-- Does sample `j` complete a slow sample? -/
def slowAt (j : Nat) : Bool := decide (36 ≤ j) && (j - 36) % 25 == 0

def chainSlow (k : Chain) : Chain := { k with slow := (cicOut k.hist :: k.slow).take 64 }

/-! ### Quantities (R234, R235) -/

def letterOf (ls : List Letter) (sid : Nat) : Option Letter := ls.find? fun l => l.sid == sid

/-- The letter passes the STAT conditions (R235). -/
def statOk (useTest : Bool) (l : Letter) : Bool := let v := l.stat / 0x4000 % 4; v == 0 || (v == 2 && useTest)

def phasorAt (l : Letter) (i : Nat) : Word × Word := l.ph.getD i (F32.zero, F32.zero)
def finite2 (p : Word × Word) : Bool := F32.isFinite p.1 && F32.isFinite p.2

/-- Unwrap an angle so that its step from the previous one lies in (−π, π]. -/
def unwrapTo (prev raw : Word) : Word :=
  let t := F32.units twoPi32
  let d := F32.units raw - F32.units prev
  let m := (t / 2 - d) / t
  F32.ofUnits false (F32.units raw + m * t) 1

/-- A channel's quantity from its letter, its reference letter and the value before it; none where it is missing. -/
def quantity (kind ia ib : Nat) (mult3 useTest : Bool) (l ref : Option Letter) (refIdx : Nat) (prev : Option Word) : Option Word :=
  match l with
  | none => none
  | some l =>
    if !statOk useTest l then none
    else
      let v := phasorAt l ia
      let k := if mult3 then F32.ofInt 3 else F32.one
      let i := phasorAt l ib
      if kind = 0 then (if F32.isFinite l.freq then some l.freq else none)
      else if kind = 1 then (if F32.isFinite l.rocof then some l.rocof else none)
      else if kind = 2 then (if finite2 v then some (F32.hypot v.1 v.2) else none)
      else if kind = 3 then
        match ref with
        | none => none
        | some q =>
          let w := phasorAt q refIdx
          if finite2 v && finite2 w then
            let z := mulConj v w
            let a := angleF z.1 z.2
            some (match prev with | some p => unwrapTo p a | none => a)
          else none
      else if kind = 4 then (let a := l.an.getD ia F32.zero; if F32.isFinite a then some a else none)
      else if finite2 v && finite2 i then
        let z := mulConj v i
        some (F32.mul k (if kind = 5 then z.1 else z.2))
      else none

/-! ### The tracker (R243, R244) -/

/-- The embedded vector: 64 blocks of the seats' samples, newest block first; stale rows are 0. -/
def embed (hists : List (List Word)) (stale : List Bool) (depth : Nat) : List Word :=
  (List.range depth).flatMap fun b => (hists.zip stale).map fun h => if h.2 then F32.zero else h.1.getD b F32.zero

/-- One sample into a band. `stale` marks the rows of W that stay. -/
def bandUpdate (fgt : Nat) (x : List Word) (stale : List Bool) (b : Band) : Band :=
  let beta := F32.ofRat (2 ^ fgt - 1) (2 ^ fgt)
  let p := b.pm.length
  let y := (colsOf b.w p).map fun c => dotF c x
  let h := matVec b.pm y
  let den := F32.add beta (dotF y h)
  let g := h.map fun v => F32.div v den
  let pm := (b.pm.zip g).map fun r => (r.1.zip h).map fun t => F32.div (F32.fma (F32.neg r.2) t.2 t.1) beta
  let wy := matVec b.w y
  let e := (x.zip wy).map fun t => F32.sub t.1 t.2
  let w := ((b.w.zip e).zip stale).map fun r =>
    if r.2 then r.1.1 else (r.1.1.zip g).map fun t => F32.fma r.1.2 t.2 t.1
  let n := b.n + 1
  let pm := if n % 64 = 0 then (pm.zip (transposeM pm)).map fun r => (r.1.zip r.2).map fun t => F32.div (F32.add t.1 t.2) (F32.ofInt 2) else pm
  let w := if n % 256 = 0 then mgs w else w
  { b with n := n, w := w, pm := pm }

/-! ### Modes (R248, R249) -/

/-- A candidate: its band, eigenvalue figures and shape, one complex entry per seat. -/
structure ModeCand where
  slow : Bool
  freq : Word
  damp : Word
  sigma : Word
  shape : List (Word × Word)
  ref : Nat
  amp : Word
  energy : Word
  deriving DecidableEq, Repr

/-- Is a frequency in the band (R243)? -/
def inBand (slow : Bool) (f : Word) : Bool :=
  if slow then F32.le (F32.ofRat 1 100) f && F32.lt f (F32.ofRat 1 10) else F32.le (F32.ofRat 1 10) f && F32.le f (F32.ofInt 5)

/-- The position of the entry of largest magnitude among the seats that a shape shows, the lowest among equals. -/
def largestAt (xs : List (Word × Word)) (rows : List Nat) : Nat :=
  ((rows.map fun i => (xs.getD i czero, i)).foldl (fun (a : Nat × Word) t => let m := cabs t.1; if F32.lt a.2 m then (t.2, m) else a)
    (rows.headD 0, F32.neg F32.one)).1

/-- A candidate of one eigenvalue, if it is reported; `rows` are the seats that are neither stale nor settling. -/
def candOf (slow : Bool) (block0 : List (List Word)) (rows : List Nat) (e : Word × Word × List (Word × Word)) : Option ModeCand :=
  let z := (e.1, e.2.1)
  let m := cabs z
  let dt := if slow then F32.one else F32.ofRat 4 100
  if F32.lt F32.zero z.2 && F32.le (F32.ofRat 1 2) m && F32.le m (F32.ofRat 3 2) then
    let re := F32.div (logF m) dt
    let im := F32.div (angleF z.1 z.2) dt
    let f := F32.div im twoPi32
    if inBand slow f then
      let v := e.2.2
      let sh := block0.map fun r => (dotF r (v.map (·.1)), dotF r (v.map (·.2)))
      let ref := largestAt sh rows
      let top := sh.getD ref (F32.one, F32.zero)
      let shape := sh.zipIdx.map fun c => if c.2 = ref then (F32.one, F32.zero) else cdiv c.1 top
      some ⟨slow, f, F32.neg (F32.div re (F32.hypot re im)), re, shape, ref, F32.zero, F32.zero⟩
    else none
  else none

/-- The candidates of a band with `n` seats (R248); none where the eigenvalues do not converge. -/
def extractBand (slow : Bool) (n : Nat) (rows : List Nat) (b : Band) : Option (List ModeCand) :=
  let wu := b.w.take (63 * n)
  let wd := b.w.drop n
  (pencil wd wu).map fun es => es.filterMap (candOf slow (b.w.take n) rows)

/-- Modal coordinates of a band's candidates (R249): for each sample, one complex coordinate per candidate. `rows` picks the
seats that are neither stale nor settling. -/
def modal (cs : List ModeCand) (rows : List Nat) (us : List (List Word)) : List (List (Word × Word)) :=
  let pick (c : ModeCand) : List (Word × Word) := rows.map fun i => c.shape.getD i (F32.zero, F32.zero)
  let cols := cs.map pick ++ cs.map fun c => (pick c).map fun x => (x.1, F32.neg x.2)
  let inv := pinvF cols
  us.map fun u =>
    let u := rows.map fun i => u.getD i F32.zero
    (inv.take cs.length).map fun r => (dotF (r.map (·.1)) u, dotF (r.map (·.2)) u)

/-- The droop of the slow band's decimator at a frequency (R242). -/
def droop (f : Word) : Word :=
  let a := F32.mul pi32 f
  let q := F32.abs (F32.div (sinF a) (F32.mul (F32.ofInt 25) (sinF (F32.div a (F32.ofInt 25)))))
  F32.mul q (F32.mul q q)

/-- AMP and ENERGY of the candidates of one band. `us` lists the samples, newest first, one value per seat. -/
def modeFigures (cs : List ModeCand) (rows : List Nat) (us : List (List Word)) (norms : List Word) : List ModeCand :=
  let cc := modal cs rows us
  let tot := sumF (us.map fun u => sumSq (rows.map fun i => u.getD i F32.zero))
  cs.zipIdx.map fun t =>
    let c := t.1
    let k (x : List (Word × Word)) : Word × Word := x.getD t.2 (F32.zero, F32.zero)
    let amp := F32.mul (F32.mul (F32.ofInt 2) (F32.sqrt (meanF (cc.map fun x => cabs2 (k x))))) (norms.getD c.ref F32.one)
    let part := sumF (cc.map fun x => sumSq (rows.map fun i => F32.mul (F32.ofInt 2) (cmul (c.shape.getD i (F32.zero, F32.zero)) (k x)).1))
    { c with amp := if c.slow then F32.div amp (droop c.freq) else amp
             energy := F32.max F32.zero (F32.min F32.one (F32.div part tot)) }

/-! ### Order -/

/-- Insertion sort by a strict "comes before". -/
def insBy {α : Type} (before : α → α → Bool) (x : α) : List α → List α
  | [] => [x]
  | y :: r => if before x y then x :: y :: r else y :: insBy before x r
def sortBy {α : Type} (before : α → α → Bool) (xs : List α) : List α := xs.foldl (fun a x => insBy before x a) []

/-- The lower median (R277): position ceil(n / 2) in ascending order. -/
def lowerMedian (xs : List Word) : Word := (sortBy F32.lt xs).getD ((xs.length + 1) / 2 - 1) F32.nan

/-- The median; of an even number of values the mean of the middle two, which the spec does not say (R254, R279; log entry 87). -/
def medianF (xs : List Word) : Word :=
  let s := sortBy F32.lt xs
  let n := xs.length
  if n % 2 = 1 then s.getD (n / 2) F32.nan else F32.div (F32.add (s.getD (n / 2 - 1) F32.nan) (s.getD (n / 2) F32.nan)) (F32.ofInt 2)

/-! ### Matching (R250) -/

/-- The cost of a candidate against a slot. -/
def matchCost (df dz : Word) (c : ModeCand) (m : ModeSlot) : Word :=
  F32.add (F32.div (F32.abs (F32.sub c.freq m.freq)) df) (F32.div (F32.abs (F32.sub c.damp m.damp)) dz)

/-- A slot takes a candidate's values. -/
def slotTake (c : ModeCand) (age firstSec : Nat) (damps freqs : List Word) : ModeSlot :=
  ⟨c.slow, c.freq, c.damp, c.amp, c.energy, c.sigma, c.ref, age, 0, firstSec, c.shape, (c.damp :: damps).take 16, (c.freq :: freqs).take 16⟩

/-- Assignments of candidates to slots: pairs by ascending cost, then lower slot, then higher energy. -/
def assignPairs (df dz : Word) (cs : List ModeCand) (slots : List (Option ModeSlot)) : List (Nat × Nat) :=
  let pairs := cs.zipIdx.flatMap fun c => slots.zipIdx.filterMap fun s =>
    match s.1 with
    | some m => if m.slow = c.1.slow then
        let k := matchCost df dz c.1 m
        if F32.lt k F32.one then some (k, s.2, c.2, c.1.energy) else none
      else none
    | none => none
  let before (a b : Word × Nat × Nat × Word) : Bool :=
    F32.lt a.1 b.1 || (F32.feq a.1 b.1 && (decide (a.2.1 < b.2.1) || (a.2.1 == b.2.1 && F32.lt b.2.2.2 a.2.2.2)))
  (sortBy before pairs).foldl (fun a t =>
    if a.any fun x => x.1 == t.2.1 || x.2 == t.2.2.1 then a else a ++ [(t.2.1, t.2.2.1)]) []

/-! ### Forced lines (R254, R255) -/

/-- The Hann window's weight of a sample, the raised cosine: which of its forms, over 1,024, over 1,023 or without its zero ends,
is not stated (`Config.hannForm`). -/
def hann (j : Nat) : Word :=
  let x := if Config.hannForm = 0 then F32.div (F32.ofInt j) (F32.ofInt 1024)
    else if Config.hannForm = 1 then F32.div (F32.ofInt j) (F32.ofInt 1023)
    else F32.div (F32.ofInt (j + 1)) (F32.ofInt 1025)
  F32.mul (F32.ofRat 1 2) (F32.sub F32.one (cosF (F32.mul twoPi32 x)))

/-- |DFT(hann × u)(k)|² over 1,024 samples, newest first in `u`. -/
def dftPower (u : List Word) (k : Nat) : Word :=
  let ang (j : Nat) : Word := F32.div (F32.mul twoPi32 (F32.ofInt (j * k % 1024))) (F32.ofInt 1024)
  let w := (List.range 1024).map fun j => F32.mul (hann j) (u.getD (1023 - j) F32.zero)
  cabs2 (dotF w ((List.range 1024).map fun j => cosF (ang j)), dotF w ((List.range 1024).map fun j => F32.neg (sinF (ang j))))

/-- A line candidate: bin, refined frequency, S and F, the contributing seat and its envelope statistic. -/
structure LineCand where
  freq : Word
  ratio : Word
  pos : Nat
  env : Word
  amp : Word
  deriving DecidableEq, Repr

/-- The bin spacing, 25 / 1,024 Hz. -/
def binHz : Word := F32.ofRat 25 1024

/-- Refine a bin by a parabola through ln S. -/
def refineBin (k : Nat) (a b c : Word) : Word :=
  let la := logF a
  let lb := logF b
  let lc := logF c
  let den := F32.add (F32.sub la (F32.mul (F32.ofInt 2) lb)) lc
  F32.mul (F32.add (F32.ofInt k) (F32.div (F32.mul (F32.ofRat 1 2) (F32.sub la lc)) den)) binHz

/-- The ten means of the envelope test, as complex numbers. -/
def envMeans (u : List Word) (f : Word) : List (Word × Word) :=
  let x (j : Nat) : Word := u.getD (255 - j) F32.zero
  let ang (j : Nat) : Word := F32.mul (F32.mul twoPi32 f) (F32.mul (F32.ofInt j) (F32.ofRat 4 100))
  (List.range 10).map fun m =>
    let js := (List.range 25).map fun i => 25 * m + i
    (F32.div (dotF (js.map x) (js.map fun j => cosF (ang j))) (F32.ofInt 25),
     F32.neg (F32.div (dotF (js.map x) (js.map fun j => sinF (ang j))) (F32.ofInt 25)))

/-- V of the envelope test, and twice the mean envelope: the line's peak in normalised units. -/
def envelope (u : List Word) (f : Word) : Word × Word :=
  let env := (envMeans u f).map cabs
  let m := meanF env
  (F32.div (varianceF env) (F32.mul m m), F32.mul (F32.ofInt 2) m)

/-- The line candidates over seats that are not stale: `us` their samples by POS. -/
def lineCands (us : List (Nat × List Word)) (norms : List Word) (ratio : Word) : List LineCand :=
  let sAt (k : Nat) : Word := sumF (us.map fun u => dftPower u.2 k)
  (List.range 200).filterMap fun i =>
    let k := i + 5
    let s := sAt k
    let fl := medianF ((List.range 17).filterMap fun d => if 6 ≤ d ∧ d ≤ 10 then none else some (sAt (((k + d + 1024) - 8) % 1024)))
    let r := F32.div s fl
    if F32.lt (sAt (k - 1)) s && F32.le (sAt (k + 1)) s && F32.le ratio r then
      let f := refineBin k (sAt (k - 1)) s (sAt (k + 1))
      let top := us.foldl (fun (a : Option (Nat × List Word × Word)) u =>
        let p := dftPower u.2 k
        match a with | none => some (u.1, u.2, p) | some b => if F32.lt b.2.2 p then some (u.1, u.2, p) else a) none
      top.map fun t =>
        let (v, a) := envelope t.2.1 f
        ⟨f, r, t.1, v, F32.mul a (norms.getD t.1 F32.one)⟩
    else none

/-- Are two frequencies within a number of bins? -/
def nearBins (a b : Word) (num den : Nat) : Bool := F32.le (F32.abs (F32.sub a b)) (F32.mul (F32.ofRat num den) binHz)

/-- The correlation of two series (R264). -/
def corrF (x y : List Word) : Word :=
  let n := min x.length y.length
  let x := x.take n
  let y := y.take n
  let mx := meanF x
  let my := meanF y
  let dx := x.map fun a => F32.sub a mx
  let dy := y.map fun a => F32.sub a my
  F32.div (dotF dx dy) (F32.sqrt (F32.mul (sumSq dx) (sumSq dy)))

end Sys2Proof.Machine
end

