-- ==== Sys2Proof/Machine/AcqBase.lean ====
section
/-! DEFINITION. Local acquisition: presets and their delays (R318, R319), the curve tables (R322 to R324), local streams as
defined (R331, R338), and what entering and leaving the modes that process streams does to the chains (R314, R338). -/
namespace Sys2Proof.Machine

/-! ### Presets (R318 to R321) -/

/-- A point's preset; code 7 is treated as 1. -/
def State.preset (s : State) (p : Nat) : Nat := let c := s.rd Reg.ACQ_PT_CFG_PRESET [p]; if c = 7 then 1 else c

/-- Output samples per second of a preset. -/
def presetRate (c : Nat) : Nat := nth [16000, 8000, 4000, 4800, 14400, 12800, 15360] c 8000

/-- The delay of the CIC, in units of time. -/
def cicDelay : Nat := 15500 * nsU

/-- The delay of a resampler of ratio L/M from an input rate (R321). -/
def resDelay (l fin : Nat) : Nat := roundDiv ((24 * l - 1) * second) (l * fin)

/-- A preset's delay before the calibration stage. -/
def chainDelay (c : Nat) : Nat :=
  let fir1 := cicDelay + 293750 * nsU
  let fir2 := fir1 + 1468750 * nsU
  if c = 0 then fir2 else if c = 1 then fir2 + 1937500 * nsU else if c = 2 then fir2 + 5812500 * nsU
  else if c = 3 then fir2 + resDelay 3 16000 else if c = 4 then fir1 + resDelay 9 32000
  else if c = 5 then fir2 + resDelay 4 16000 else fir1 + resDelay 12 32000

/-- The total delay, with the four output samples of the calibration stage (R318). -/
def totalDelay (c : Nat) : Nat := chainDelay c + roundDiv (4 * second) (presetRate c)

def State.ptRate (s : State) (p : Nat) : Nat := presetRate (s.preset p)
def State.ptDelay (s : State) (p : Nat) : Nat := totalDelay (s.preset p)
def State.ptF0 (s : State) (p : Nat) : Nat := if s.flag Reg.ACQ_PT_CFG_FNOM50 [p] then 50 else 60
def State.ptOn (s : State) (p : Nat) : Bool := s.flag Reg.ACQ_PT_CFG_EN [p]

/-- The point's clock is driven (R314). -/
def State.clocked (s : State) (p : Nat) : Bool := s.ptOn p && s.processing

/-! ### Chains -/

def coef0 : Coef := ⟨F32.zero, F32.zero, F32.zero, F32.zero⟩
def acqIn0 : AcqIn := ⟨List.replicate 9 F32.zero, coef0, none, F32.zero, 0, F32.zero⟩
def zeros (n : Nat) : List Int := List.replicate n 0
def dec0 : DecChain := ⟨zeros 5, zeros 5, zeros 95, zeros 95, zeros 63, zeros 63⟩
def acqPh0 : AcqPh := ⟨0, 0, none, 0, F32.zero⟩
def acqPt0 : AcqPt := ⟨0, none, List.replicate 9 acqIn0, List.replicate 3 acqPh0, [], List.replicate 9 dec0, []⟩

def State.acqPt (s : State) (p : Nat) : AcqPt := sget s.acq.pts p acqPt0
def State.setAcqPt (s : State) (p : Nat) (v : AcqPt) : State := { s with acq := { s.acq with pts := sset s.acq.pts p v } }
def State.acqLs (s : State) (n : Nat) : AcqLs := sget s.acq.ls n {}
def State.setAcqLs (s : State) (n : Nat) (v : AcqLs) : State := { s with acq := { s.acq with ls := sset s.acq.ls n v } }

/-- Is input j of point p faulted (R316)? -/
def State.inFault (s : State) (p j : Nat) : Bool := s.rd Reg.ACQ_PT_STAT_FAULT [p] / 2 ^ j % 2 == 1

/-! ### Curves (R322 to R324) -/

/-- The breakpoints of an input's active curve: amplitude, gain ratio, phase. -/
def State.curvePts (s : State) (i : Nat) : List (Word × Word × Word) :=
  (List.range (clampN 1 8 (s.rd Reg.CURVE_NPTS [i]))).map fun k =>
    let w (f : Fld) : Word := BitVec.ofNat 32 (s.rd f [i, k])
    (w Reg.CURVE_AMP, w Reg.CURVE_GRATIO, w Reg.CURVE_PHASE)

/-- Linear interpolation between two points. -/
def lerp (a b x ya yb : Word) : Word := F32.fma (F32.div (F32.sub x a) (F32.sub b a)) (F32.sub yb ya) ya

/-- Gain ratio and phase of a curve at an amplitude: the end values apply outside (R324). -/
def curveAt : List (Word × Word × Word) → Word → Word × Word
  | [], _ => (F32.one, F32.zero)
  | [(_, g, p)], _ => (g, p)
  | (a, g, p) :: (b, h, q) :: r, x =>
    if F32.le x a then (g, p)
    else if F32.lt x b then (lerp a b x g h, lerp a b x p q)
    else curveAt ((b, h, q) :: r) x

/-- The coefficients of an input at an amplitude, and whether τ was clamped (R322). -/
def State.coefOf (s : State) (p j : Nat) (key : Word) : Coef × Bool :=
  let i := 9 * p + j
  let w (f : Fld) : Word := BitVec.ofNat 32 (s.rd f [i])
  let (ratio, ph) := curveAt (s.curvePts i) key
  -- µrad at f0 as ns: 1,000 / (2π f0)
  let ns := F32.add (w Reg.CURVE_DELAY_NS) (F32.div (F32.mul ph (F32.ofInt 1000)) (F32.mul twoPi32 (F32.ofInt (s.ptF0 p))))
  let tau := F32.mul ns (F32.ofRat (s.ptRate p) 1000000000)
  let lim : Word := F32.ofRat 1 2
  let held := F32.lt lim (F32.abs tau)
  (⟨w Reg.CURVE_OFFSET, F32.mul (w Reg.CURVE_GAIN0) ratio, ph, if held then (if F32.signBit tau then F32.neg lim else lim) else tau⟩, held)

/-- TAU_CLAMP shows a clamped τ. -/
def State.tauSeen (s : State) (p : Nat) (held : Bool) : State := if held then s.setFlag Reg.ACQ_PT_STAT_TAU_CLAMP [p] true else s

/-- The sample after the last one emitted. -/
def State.nextSmp (s : State) (p : Nat) : Nat := match (s.acqPt p).hist with | x :: _ => x.n + 1 | [] => 0

/-- FADING is 1 while a calibration fade is in progress on the point (R325): from its start sample on. -/
def State.showFading (s : State) (p : Nat) : State :=
  s.setFlag Reg.ACQ_PT_STAT_FADING [p] ((s.acqPt p).ins.any fun k => k.nxt.any fun x => decide (x.2.1 < s.nextSmp p))

/-- A commit is done when its last fade has ended (R326). -/
def State.calDone (s : State) : State :=
  if s.acq.calFade && !((List.range 2).any fun p => (s.acqPt p).ins.any fun k => k.nxt.isSome) then
    ({ s with acq := { s.acq with calFade := false } } : State).wr Reg.ACQ_CAL_STATUS [] 2 |>.notice bACQ 4 0 0 0
  else s

/-! ### Local streams (R331, R338, R343) -/

/-- Frames per second of a local stream, its class and its source: a point, or a slot from 4 on. -/
def State.lsFps (s : State) (n : Nat) : Nat := fps (s.rd Reg.ACQ_LS_CFG_RATE [n])
def State.lsM (s : State) (n : Nat) : Bool := s.flag Reg.ACQ_LS_CFG_CLASS [n]
def State.lsF0 (s : State) (n : Nat) : Nat :=
  if n < 4 then s.ptF0 (n / 2) else if s.flag Reg.ACQ_SV_CFG_FNOM50 [n - 4] then 50 else 60
def State.svRate (s : State) (q : Nat) : Nat := if s.flag Reg.ACQ_SV_CFG_SR [q] then 14400 else 4800
def State.lsRate (s : State) (n : Nat) : Nat := if n < 4 then s.ptRate (n / 2) else s.svRate (n - 4)
def State.lsSrcOn (s : State) (n : Nat) : Bool := if n < 4 then s.ptOn (n / 2) else s.flag Reg.ACQ_SV_CFG_EN [n - 4]

/-- The first failing check of a local stream's definition (R338). -/
def State.lsCheck (s : State) (n : Nat) : Nat :=
  if s.lsM n && decide (120 < s.lsFps n) then 1
  else if !s.lsSrcOn n then 2
  else if 12 ≤ s.rd Reg.ACQ_LS_CFG_RATE [n] then 3 else 0

/-- Is a stream enabled and not refused? -/
def State.lsOn (s : State) (n : Nat) : Bool := s.flag Reg.ACQ_LS_CFG_EN [n] && s.rd Reg.ACQ_LS_STAT_CFGERR [n] == 0

/-- STAB.STATE of a local stream: 3 while enabled in a mode that processes streams, else 4 (R331). -/
def State.showLs (s : State) (n : Nat) : State := s.wr Reg.LSTAB_STATE [n] (if s.lsOn n && s.processing then 3 else 4)

/-- A local stream's identity fields of its STAB entry (R139, R343). -/
def State.nameLs (s : State) (n : Nat) : State :=
  let c := s.rd Reg.ACQ_LS_CFG_PMU_IDCODE [n]
  (((s.wr Reg.LSTAB_PMU_IDCODE [n] c).wr Reg.LSTAB_FR_IDCODE [n] c).wr Reg.LSTAB_RATE [n] (s.rd Reg.ACQ_LS_CFG_RATE [n])).wr
    Reg.LSTAB_CFGCNT [n] (s.rd Reg.ACQ_LS_STAT_CFGCNT [n])

/-- The local streams whose configuration a change of a word counts for (R343): a stream's CFG, or its source's PRESET or FNOM50. -/
def cfgChanged (off : Nat) (old new : Word) : List Nat :=
  let differ (fs : List Fld) : Bool := fs.any fun f => f.get old != f.get new
  if Reg.ACQ_PT_CFG_EN.covers off then
    let p := (off - Reg.ACQ_PT_CFG_EN.base) / 0x100
    if differ [Reg.ACQ_PT_CFG_PRESET, Reg.ACQ_PT_CFG_FNOM50] then [2 * p, 2 * p + 1] else []
  else if Reg.ACQ_SV_CFG_EN.covers off then
    if differ [Reg.ACQ_SV_CFG_FNOM50] then [4 + (off - Reg.ACQ_SV_CFG_EN.base) / 0x40] else []
  else if Reg.ACQ_LS_CFG_EN.covers off then
    if old = new then [] else [(off - Reg.ACQ_LS_CFG_EN.base) / 0x10]
  else []

/-- CFGCNT increments when a stream's CFG, or its source's PRESET or FNOM50, changed (R343). -/
def State.lsChanged (s : State) (n : Nat) : State :=
  ((s.inc Reg.ACQ_LS_STAT_CFGCNT [n]).nameLs n).setAcqLs n { s.acqLs n with cfgAt := some s.now }

/-- A word was written by the Manifest or the settings image: at a warm start a changed configuration counts (R343); a cold start's load is no
change (log entry 120, DESIGN CHOICE). -/
def State.cfgLoaded (s : State) (off : Nat) (old : Word) : State :=
  if s.warmStart then forEach (cfgChanged off old (s.word off)) (fun n a => a.lsChanged n) s else s

/-- The check of a local stream at entry to a mode that processes streams (R338). -/
def State.checkLs (s : State) (n : Nat) : State :=
  if s.flag Reg.ACQ_LS_CFG_EN [n] then
    let e := s.lsCheck n
    let s := s.wr Reg.ACQ_LS_STAT_CFGERR [n] e
    (if e = 0 then s else s.notice bACQ 8 n e 0).showLs n
  else (s.wr Reg.ACQ_LS_STAT_CFGERR [n] 0).showLs n

/-! ### Entering and leaving the modes that process streams (R338) -/

/-- A point starts its clock: its chain is empty, each current is on path H, and the coefficients are those of the active
curves. -/
def State.startPt (s : State) (p : Nat) : State :=
  if s.ptOn p then
    let cs := (List.range 9).map fun j => s.coefOf p j F32.zero
    let s := s.setAcqPt p { acqPt0 with
      start := s.now
      ins := cs.map fun c => { acqIn0 with cur := c.1 }
      phs := List.replicate 3 { acqPh0 with high := s.now + msU } }
    ((s.tauSeen p (cs.any (·.2))).wr Reg.ACQ_PT_STAT_PATH_L [p] 0).wr Reg.ACQ_PT_STAT_OVR [p] 0
  else s

/-- A point's clock stops: it is not running and not metering, its streams form no letter, its supply events end with GAP, it owes a
snapshot nothing, and a fade in progress is over. -/
def State.stopPt (s : State) (p : Nat) : State :=
  let v := s.acqPt p
  let ins := v.ins.map fun (k : AcqIn) => match k.nxt with | some (c, _, _) => { k with cur := c, nxt := none } | none => k
  let s := ((s.setAcqPt p { v with filled := none, hist := [], ready := [], ins := ins }).setFlag Reg.ACQ_PT_STAT_RUNNING [p] false).showFading p
  forEach [2 * p, 2 * p + 1] (fun n a =>
    (a.setAcqLs n { a.acqLs n with next := none }).setFlag Reg.ACQ_LS_STAT_LIVE [n] false) s

def State.acqEnter (s : State) : State :=
  let s := forEach (List.range 2) (fun p a => a.startPt p) s
  forEach (List.range 8) (fun n a => (a.setAcqLs n { a.acqLs n with next := none }).checkLs n) s

/-- The clocks stop: nothing is running, no letter is being formed, and a fade in progress is over. -/
def State.acqLeave (s : State) : State :=
  let s := forEach (List.range 2) (fun p a => a.stopPt p) s
  let s := forEach (List.range 8) (fun n a =>
    ((a.setAcqLs n { a.acqLs n with next := none }).setFlag Reg.ACQ_LS_STAT_LIVE [n] false).showLs n) s
  ({ s with acq := { s.acq with svs := [] } } : State).calDone

end Sys2Proof.Machine
end

