-- ==== Sys2Proof/Machine/Chain.lean ====
section
/-! DEFINITION. The decimation chain of local acquisition (R315, R318 to R321): modulator bits, the CIC, FIR1, FIR2, the half-band
stages and the resampler. The spec gives the stages their lengths, rates and number formats and no coefficients: those are free values
(`Config.chainTap`, `Config.resTap`), held to what the spec says of them that a coefficient can meet (log entry 119). -/
namespace Sys2Proof.Machine

/-! ### The CIC (R315, R318, R320) -/

/-- A modulator's bit as a sample (R315). -/
def bitVal (b : Bool) : Int := if b then 1 else -1

/-- A value in a register of `w` bits that wraps. -/
def wrapS (w : Nat) (v : Int) : Int := toSigned w (ofSigned w v)

/-- One modulator period: each of the five integrators takes the one before it, modulo 2^37 (R320). -/
def integrate (x : Int) : List Int → List Int
  | [] => []
  | y :: ys => wrapS 37 (y + x) :: integrate (wrapS 37 (y + x)) ys

/-- The five combs at a decimated sample: the differences, and the values to keep; the last difference is the CIC's sum. -/
def combs (x : Int) : List Int → List Int × Int
  | [] => ([], x)
  | y :: ys => let r := combs (wrapS 37 (x - y)) ys; (x :: r.1, r.2)

/-- The CIC takes the bits of one decimation, oldest first, and gives its 28-bit output: the sum less its nine low bits, rounded to
nearest with ties to even (R5, R320). Its gain of 125^5 stays in it, for FIR1 to absorb. -/
def cicPush (bits : List Bool) (c : DecChain) : DecChain × Int :=
  let integ := bits.foldl (fun a b => integrate (bitVal b) a) c.integ
  let r := combs (integ.getLastD 0) c.comb
  ({ c with integ := integ, comb := r.1 }, roundDivI r.2 512)

/-- Is a CIC output at `lim` / 256 of modulator full scale or above? -/
def cicReaches (v : Int) (lim : Nat) : Bool := decide (lim * 125 ^ 5 ≤ v.natAbs * (512 * 256))

/-! ### The FIR stages (R318, R320) -/

/-- The coefficients of an integer stage of `n` taps, sQ1.23: linear phase, so one half gives the other. Stage 0 is FIR1, 1 FIR2, 2 and 3
the half-bands. -/
def chainTaps (stage n : Nat) : List Int :=
  (List.range n).map fun i => toSigned 24 (Config.chainTap stage (min i (n - 1 - i))).toNat

/-- An integer stage's output from its delay line: a 56-bit accumulator, rounded to sQ1.27 and saturated (R320). -/
def firInt (stage n : Nat) (line : List Int) : Int :=
  let acc := ((chainTaps stage n).zip line).foldl (fun a x => wrapS 56 (a + x.1 * x.2)) 0
  clampI (-(2 ^ 27)) (2 ^ 27 - 1) (roundDivI acc (2 ^ 23))

/-- The delay line of a stage of `n` taps takes a sample; the newest comes first. -/
def linePush (n : Nat) (x : Int) (line : List Int) : List Int := (x :: line).take n

/-- A stage's output as float32 (R320). -/
def q27 (v : Int) : Word := F32.ofRat v (2 ^ 27)

/-! ### The resampler (R321) -/

/-- L, M and the input rate of a preset's resampler; none in the integer presets. -/
def resampler (c : Nat) : Option (Nat × Nat × Nat) :=
  if c = 3 then some (3, 10, 16000) else if c = 4 then some (9, 20, 32000) else if c = 5 then some (4, 5, 16000)
  else if c = 6 then some (12, 25, 32000) else none

/-- A preset's prototype of 48 L − 1 taps: linear phase. -/
def protoTap (c l i : Nat) : Word := if i < 48 * l - 1 then Config.resTap c (min i (48 * l - 2 - i)) else F32.zero

/-- The output that input number `n` completes, if it completes one, and its phase: output j stands j M after the second on the grid of L
times the input rate, and the filter's centre 24 L − 1 before its newest tap. -/
def resAt (l m n : Nat) : Option (Nat × Nat) :=
  let j := (n - 23) * l / m
  if 24 ≤ n ∧ (n - 24) * l + 1 ≤ j * m then some (j, (j * m + 24 * l - 1) % l) else none

/-- An output of the resampler: 48 taps of one phase, in ascending order, with fused multiply-add. -/
def resOut (c l phase : Nat) (line : List Int) : Word :=
  ((List.range 48).zip line).foldl (fun a x => F32.fma (protoTap c l (phase + x.1 * l)) (q27 x.2) a) F32.zero

/-! ### One look-ahead sample through the chain (R318, R319) -/

/-- What stage `k` leaves of a sample: its number at its own rate, where the sample completes one. FIR1 decimates by 5, the others by 2; a
stage of `n` taps is centred (n − 1) / 2 samples back. -/
def decim (d half n : Nat) : Option Nat := if half ≤ n ∧ (n - half) % d = 0 then some ((n - half) / d) else none

/-- The half-band stages of a preset. -/
def halfStages (c : Nat) : Nat := if c = 1 then 1 else if c = 2 then 2 else 0

/-- An output of the last stage: as float32, with its number at the preset's rate. -/
def chainEnd (c n : Nat) (line : List Int) (v : Int) : Option (Nat × Word) :=
  match resampler c with
  | none => some (n, q27 v)
  | some (l, m, _) => (resAt l m n).map fun x => (x.1, resOut c l x.2 line)

/-- FIR2's output number `n`, and the half-bands after it. -/
def chainFir2 (c n : Nat) (v : Int) (h : DecChain) : DecChain × Option (Nat × Word) :=
  let h := { h with f2 := linePush 63 v h.f2 }
  if halfStages c = 0 then (h, chainEnd c n h.f2 v)
  else match decim 2 31 n with
    | none => (h, none)
    | some n =>
      let v := firInt 2 63 h.f2
      let h := { h with h1 := linePush 63 v h.h1 }
      if halfStages c = 1 then (h, chainEnd c n h.h1 v)
      else match decim 2 31 n with
        | none => (h, none)
        | some n => (h, chainEnd c n h.h1 (firInt 3 63 h.h1))

/-- One CIC sample number `n` through the chain of a preset: the input's delay lines, and its output where the sample completes one. -/
def chainStep (c n : Nat) (v : Int) (h : DecChain) : DecChain × Option (Nat × Word) :=
  let h := { h with cic := linePush 95 v h.cic }
  match decim 5 47 n with
  | none => (h, none)
  | some n =>
    let v := firInt 0 95 h.cic
    let h := { h with f1 := linePush 95 v h.f1 }
    if c = 4 ∨ c = 6 then (h, chainEnd c n h.f1 v)
    else match decim 2 47 n with
      | none => (h, none)
      | some n => chainFir2 c n (firInt 1 95 h.f1) h

/-- A point's nine inputs take the bits of one decimation; the CIC's outputs come beside. -/
def AcqPt.chainPush (c n : Nat) (bits : List (List Bool)) (v : AcqPt) : AcqPt × List Int :=
  let rs := (v.chain.zipIdx).map fun x =>
    let (h, y) := cicPush (bits.getD x.2 []) x.1
    (chainStep c n y h, y)
  let out := match rs.head? with
    | some ((_, some (j, _)), _) => [(j, rs.map fun r => match r.1.2 with | some (_, w) => w | none => F32.zero)]
    | _ => []
  ({ v with chain := rs.map (·.1.1), ready := v.ready ++ out }, rs.map (·.2))

end Sys2Proof.Machine
end

