-- ==== Sys2Proof/Machine/NrgBase.lean ====
section
/-! DEFINITION. Energy and supply events as other rows meet them: points, intervals (R357), records and their rings (R358,
R359, R365), and what leaving the modes that process streams ends (R355, R365). -/
namespace Sys2Proof.Machine

def State.nrgPt (s : State) (p : Nat) : NrgPt := sget s.nrg.pts p {}
def State.setNrgPt (s : State) (p : Nat) (v : NrgPt) : State := { s with nrg := { s.nrg with pts := sset s.nrg.pts p v } }

/-! ### Records (R358, R359, R365) -/

/-- Offer a record of a point to the SRC 9 rings: RECSEQ counts it; SEL picks points, or supply events only (R359). The
record takes RECSEQ after it. -/
def State.nrgOffer (s : State) (p kind : Nat) (mk : Nat → List Byte) : State :=
  let s := s.inc Reg.NRG_PT_RECSEQ [p]
  s.offer 9 64 (256 * p + kind) 0x5002
    (fun sel => (sel % 4 == 0 || sel % 4 == 3 || sel % 4 == p + 1) && (sel / 4 % 2 == 0 || kind == 2))
    (mk (s.rd Reg.NRG_PT_RECSEQ [p])) none

/-- Close a record with the CRC-32C of what stands before it. -/
def sealRec (bs : List Byte) : List Byte := bs ++ leBytes 4 (crc32c bs)

/-- A time as seconds and nanoseconds. -/
def secNs (t : Time) : List Byte := leBytes 6 (secOf t) ++ leBytes 4 (nsOf t)

/-- A supply event's start or end record (R365). -/
def pqRecord (p flags typ : Nat) (udin : Word) (e : PqEv) (stop : Option Time) (seq : Nat) : List Byte :=
  let us := match stop with | some t => roundDiv (t - e.start) usU | none => 0
  let flags := flags + (if 2 ^ 32 ≤ us then 32 else 0)
  sealRec (leBytes 1 2 ++ leBytes 1 p ++ leBytes 2 flags ++ leBytes 1 typ ++ leBytes 1 (e.chs + 16 * e.extCh) ++ leBytes 2 0 ++
    leBytes 4 seq ++ secNs e.start ++ (match stop with | some t => secNs t | none => List.replicate 10 0) ++
    leBytes 4 (min us (2 ^ 32 - 1)) ++ wordBytes e.ext ++
    wordBytes (F32.div (F32.mul e.ext (F32.ofInt 100)) udin) ++ wordBytes udin ++ List.replicate 12 0)

def State.pqFlags (s : State) : Nat := if s.flag Reg.GLB_MODE_TEST [] then 2 else 0

/-- The direction bit of a type: 0 sag, 1 swell, 2 interruption. -/
def pqBit (typ : Nat) : Fld := if typ = 0 then Reg.NRG_PT_DIR_SAG else if typ = 1 then Reg.NRG_PT_DIR_SWELL else Reg.NRG_PT_DIR_INTR

/-- A supply event ends (R364): its bit falls, its end record is offered, EVENT_END is set. -/
def State.pqEnd (s : State) (p typ : Nat) (stop : Time) (extra : Nat) : State :=
  let v := s.nrgPt p
  match sfind v.evs typ with
  | none => s
  | some e =>
    let s := (s.setNrgPt p { v with evs := serase v.evs typ }).setFlag (pqBit typ) [p] false
    let u : Word := BitVec.ofNat 32 (s.rd Reg.NRG_PT_UDIN [p])
    (s.nrgOffer p 2 (pqRecord p (s.pqFlags + 1 + extra + (if e.nested then 16 else 0)) typ u e (some stop))).notice bNRG 7 p typ 0

/-- Every event of a point ends, interruptions first. -/
def State.pqEndAll (s : State) (p extra : Nat) : State :=
  forEach [2, 1, 0] (fun typ a => a.pqEnd p typ a.now extra) s

/-! ### Intervals (R357) -/

/-- INT_S; a value that does not divide 86,400 is treated as 900. -/
def State.intS (s : State) : Nat := let v := s.rd Reg.NRG_CTL_INT_S []; if 0 < v ∧ 86400 % v = 0 then v else 900

/-- The record for an INT_S that is treated as 900. -/
def State.intCheck (s : State) : State :=
  let v := s.rd Reg.NRG_CTL_INT_S []
  if 0 < v ∧ 86400 % v = 0 then s else s.logEvent bNRG 0x81 (Reg.NRG_CTL_INT_S.off []) v 0

/-- The number of the interval that holds a time: whole lengths of INT_S in its UTC seconds, with the offset in force at that time, so
that an inserted second lies in the interval it ends (R80, R357). -/
def State.intIdx (s : State) (t : Time) : Int := ((secOf t : Int) - s.ofsAt t) / (s.intS : Int)

/-- The start of the interval that holds a time: UTC seconds are a multiple of INT_S there, with the offset in force there. -/
def State.intStart (s : State) (t : Time) : Time :=
  let u := s.intIdx t * (s.intS : Int)
  let v := (u + s.ofsAt t).toNat * second
  (u + s.ofsAt v).toNat * second

/-! ### Snapshots (R353) -/

/-- A pending snapshot is done once every enabled point has copied. -/
def State.snapFinish (s : State) (p : Nat) : State :=
  if s.rd Reg.NRG_SNAP_STATUS [] = 1 ∧ ((List.range 2).any s.ptOn) = true ∧ ((List.range 2).any fun k => (s.nrgPt k).snapDue.isSome) = false then
    (s.wr Reg.NRG_SNAP_STATUS [] 2).notice bNRG 1 p 0 0
  else s

/-- A point that is disabled owes a pending snapshot no copy. -/
def State.nrgOff (s : State) (p : Nat) : State :=
  if (s.nrgPt p).snapDue.isSome then (s.setNrgPt p { s.nrgPt p with snapDue := none }).snapFinish p else s

/-! ### Leaving the modes that process streams -/

/-- Supply events end with GAP; channels start anew (R365). -/
def State.nrgLeave (s : State) : State :=
  forEach (List.range 2) (fun p a =>
    let a := a.pqEndAll p 8
    (a.setNrgPt p { a.nrgPt p with urms := [], half := [], due := [] }).setFlag Reg.NRG_PT_STAT_METERING [p] false) s

end Sys2Proof.Machine
end

