-- ==== Sys2Proof/Machine/CapBase.lean ====
section
/-! DEFINITION. The capture engine's units as defined (R372, R373, R388), their states (R378, R389), segments (R379, R382) and
the cross-trigger lines a device drives (R386). -/
namespace Sys2Proof.Machine

def State.capUnit (s : State) (u : Nat) : CapUnit := sget s.cap.units u {}
def State.setCapUnit (s : State) (u : Nat) (v : CapUnit) : State := { s with cap := { s.cap with units := sset s.cap.units u v } }
def State.capState (s : State) (u : Nat) : Nat := s.rd Reg.CAP_U_STAT_STATE [u]

def State.capNch (s : State) (u : Nat) : Nat := clampN 1 8 (s.rd Reg.CAP_U_CFG_NCH [u])
def State.capPre (s : State) (u : Nat) : Nat := s.rd Reg.CAP_U_WIN_PRE [u]
def State.capPost (s : State) (u : Nat) : Nat := s.rd Reg.CAP_U_WIN_POST [u]
def State.capSegs (s : State) (u : Nat) : Nat := s.rd Reg.CAP_U_SEGS_SEGS [u]

/-- Bytes of a unit's segment (R379). -/
def State.capSegBytes (s : State) (u : Nat) : Nat :=
  ceilDiv (96 + (s.capPre u + 1 + s.capPost u) * s.capNch u * 4) 4096 * 4096

/-! ### Checks (R388) -/

/-- Does a channel word select a defined field (R373)? -/
def State.capChOk (s : State) (u c : Nat) : Bool :=
  let w := s.rd Reg.CAP_U_CH [u, c]
  if s.flag Reg.CAP_U_CFG_SRCK [u] then decide (w % 8 < 6)
  else let f := w % 256; decide (f < 58) || decide (64 ≤ f ∧ f ≤ 192)

/-- The first failing check of a unit. -/
def State.capCheck (s : State) (u : Nat) : Nat :=
  let r := s.rd Reg.CAP_U_CFG_RND [u]
  let srcOk := if s.flag Reg.CAP_U_CFG_SRCK [u] then s.ptOn (s.rd Reg.CAP_U_CFG_PT [u]) else s.rndOn r
  let lower := List.range (u + 1)
  if !srcOk then 1
  else if !(List.range (s.capNch u)).all (s.capChOk u) then 2
  else if s.capSegs u = 0 then 3
  else if 4096 < (lower.map s.capSegs).sum then 4
  else if s.rd Reg.CAP_MEM_MIB [] * 2 ^ 20 < (lower.map fun k => s.capSegs k * s.capSegBytes k).sum then 5
  else 0

/-! ### Segments (R379, R382) -/

/-- Free segments of a unit: what is neither held nor gathering. -/
def State.capFree (s : State) (u : Nat) : Nat :=
  let active := if [1, 2, 3].contains (s.capState u) then 1 else 0
  s.capSegs u - (s.capUnit u).held.length - active

/-- Show the segments of a unit and of the engine. -/
def State.showSegs (s : State) (u : Nat) : State :=
  let valid (a : State) : List Nat := (List.range 32).filter fun k => a.flag Reg.CAP_U_CFG_EN [k] && a.capState k != 5
  let s := s.wr Reg.CAP_U_STAT_FREE [u] (s.capFree u)
  (s.wr Reg.CAP_STAT_SEGS [] ((valid s).map s.capSegs).sum).wr Reg.CAP_STAT_FREE [] ((valid s).map s.capFree).sum

/-! ### Cross-trigger lines (R386) -/

/-- Each device drives the lines only in ACTIVE, DEGRADED and SERVICE. -/
def State.xDrives (s : State) : Bool := match s.mode with | .active | .degraded | .service => true | _ => false

/-- This device pulls XTRG_ARM low: a unit with XARM is not armed. -/
def State.armPull (s : State) : Bool :=
  s.xDrives && (List.range 32).any fun u => s.flag Reg.CAP_U_CFG_XARM [u] && s.capState u != 2

/-- The level read on XTRG_ARM: low while this device pulls it, else as the other devices leave it, which no command
tells: a free value. -/
def State.readArm (s : State) : State :=
  if s.armPull then s.setFlag Reg.CAP_XTRG_ARM_LINE [] false
  else let (k, s) := s.draw; s.setFlag Reg.CAP_XTRG_ARM_LINE [] (Config.freeBool k)

/-! ### States (R378, R389) -/

/-- XTRG_ARM as it reads after a change: low while this device pulls it, not known here when it stops pulling. -/
def State.armFollow (s : State) (pulled : Bool) : State :=
  if s.armPull then s.setFlag Reg.CAP_XTRG_ARM_LINE [] false else if pulled then s.readArm else s

def State.setCapState (s : State) (u st : Nat) : State :=
  ((s.wr Reg.CAP_U_STAT_STATE [u] st).showSegs u).armFollow s.armPull

/-- A unit starts gathering anew: its history and excursion are discarded. The hold-off after its last trigger runs on (R380). -/
def capFresh (v : CapUnit) : CapUnit :=
  { v with hist := [], line := [], exc := none, slew := false, slewFired := false, cur := none, force := false, edge := none, early := 0
           sync := false }

/-- A unit is off: its history is discarded and its held segments are kept (R378, R389). -/
def State.capOff (s : State) (u : Nat) : State := (s.setCapUnit u (capFresh (s.capUnit u))).setCapState u 0

/-- A unit enters filling with an empty history; with PRE 0 it is armed at once. -/
def State.capFill (s : State) (u : Nat) : State :=
  (s.setCapUnit u (capFresh (s.capUnit u))).setCapState u (if s.capPre u = 0 then 2 else 1)

/-- The check of R388 on leaving LOADING or SERVICE: of each unit with EN = 1. The segments are shown with it (R398, R399). -/
def State.checkCap (s : State) : State :=
  let s := forEach s.cap.changed (fun u a => a.setCapUnit u { a.capUnit u with held := [] }) s
  let s : State := { s with cap := { s.cap with changed := [] } }
  forEach (List.range 32) (fun u a =>
    if a.flag Reg.CAP_U_CFG_EN [u] then
      let e := a.capCheck u
      let a := a.wr Reg.CAP_U_STAT_CFGERR [u] e
      if e = 0 then (if a.capState u = 5 then a.setCapState u 0 else a.showSegs u)
      else (a.setCapState u 5).notice bCAP 6 u e 0
    else (a.wr Reg.CAP_U_STAT_CFGERR [u] 0).setCapState u 0) s

/-- A unit that is enabled and valid. -/
def State.capValid (s : State) (u : Nat) : Bool :=
  s.flag Reg.CAP_CTL_EN [] && s.flag Reg.CAP_U_CFG_EN [u] && s.rd Reg.CAP_U_STAT_CFGERR [u] == 0

/-- Entry to a mode that runs capture: letter units start filling; sample units when their point's chain is filled. -/
def State.capEnter (s : State) : State :=
  let s := forEach (List.range 32) (fun u a =>
    if a.capValid u && !a.flag Reg.CAP_U_CFG_SRCK [u] then a.capFill u else a) s
  s.readArm

/-- The levels read on XTRG_FIRE and XTRG_SYNC (R398): low while this device pulls them, or after an edge until the line is released. -/
def State.showLines (s : State) : State :=
  ((s.setFlag Reg.CAP_XTRG_FIRE_LINE [] (!s.cap.fireLow && s.cap.pulling.isEmpty)).setFlag Reg.CAP_XTRG_SYNC_LINE []
    (!s.cap.syncLow && s.cap.syncAt.isNone)).readArm

/-- In any other mode a unit is off: its history is discarded and its held segments are kept. -/
def State.capLeave (s : State) : State :=
  let s := forEach (List.range 32) (fun u a =>
    if a.capState u = 0 || a.capState u = 5 then a else a.capOff u) s
  ({ s with cap := { s.cap with pulling := [], syncAt := none } } : State).showLines

/-- The sample units of a point start filling once its chain is filled (R389). -/
def State.capFilled (s : State) (p : Nat) : State :=
  forEach (List.range 32) (fun u a =>
    if a.capValid u && a.flag Reg.CAP_U_CFG_SRCK [u] && a.rd Reg.CAP_U_CFG_PT [u] == p then a.capFill u else a) s

end Sys2Proof.Machine
end

