-- ==== Sys2Proof/Machine/StartRec.lean ====
section
/-! DEFINITION. Alternating copies (R470) and the start record kept in them (R533). -/
namespace Sys2Proof.Machine

/-- Is sequence number `a` higher than `b`, modulo 2^32 (R470)? -/
def seqAbove (a b : Nat) : Bool := let d := (a + 2 ^ 32 - b) % 2 ^ 32; decide (0 < d ∧ d < 2 ^ 31)

/-- Is the first of two copies the one taken (R470): the higher SEQ among those whose CRC passes? -/
def newerIsA (okA okB : Bool) (a b : Nat) : Bool := okA && (!okB || !seqAbove b a)

/-- The start record in force; none where neither copy passes. -/
def State.recTaken (s : State) : Option StartRec :=
  let a := s.strt.recA
  let b := s.strt.recB
  if newerIsA a.ok b.ok a.seq b.seq then some a else if b.ok then some b else none

/-- The start record as the registers show it now. -/
def State.recNow (s : State) (seq : Nat) : StartRec :=
  { seq := (seq + 1) % 2 ^ 32, ok := true, cold := s.rd Reg.STRT_COLD_COUNT [], warm := s.rd Reg.STRT_WARM_COUNT []
    attempts := s.rd Reg.STRT_FAIL_ATTEMPTS [], lockout := s.rd Reg.STRT_FAIL_LOCKOUT [], done := s.flag Reg.STRT_STAT_DONE []
    next := s.flag Reg.STRT_SVC_NEXT [], msrc := s.rd Reg.STRT_STAT_MSRC [], mfloor := s.rd Reg.STRT_MFLOOR_MVER []
    mver := s.rd Reg.STRT_MVER_MVER [], stableS := s.strt.stableS, code := s.rd Reg.STRT_FAIL_CODE []
    sub := s.rd Reg.STRT_FAIL_SUB [], mhash := s.regBytes 0x10020 12 }

/-- Write the start record into its older copy (R470). -/
def State.saveRec (s : State) : State :=
  let a := s.strt.recA
  let b := s.strt.recB
  if newerIsA a.ok b.ok a.seq b.seq then { s with strt := { s.strt with recB := s.recNow a.seq } }
  else { s with strt := { s.strt with recA := s.recNow b.seq } }

end Sys2Proof.Machine
end

