-- ==== Sys2Proof/Machine/ModeHooks.lean ====
section
/-! DEFINITION. What leaving and entering the modes that process streams does to the blocks (R26, R28, R174, R193, R338). -/
namespace Sys2Proof.Machine

/-- Put a sorter in Off. -/
def State.sorterOff (s : State) (n : Nat) : State :=
  let h := s.srtHid n
  (s.setSrtState n 3).setSrtHid n { h with waking := none }

/-- Sorters with nothing in service go to Off; a busy one follows when its item ends (R21, R601). -/
def State.sortersOff (s : State) : State :=
  forEach (List.range 64) (fun n a => if a.busy n || (a.srtState n == 3 && (a.srtHid n).waking.isNone) then a else a.sorterOff n) s

/-- No mailbag is open and none was dispatched; Rounds wait for the next RND0 instant (R174). -/
def State.closeRounds (s : State) : State :=
  let s := forEach s.whl.rnds (fun e a => a.setRnd e.1 { e.2 with bags := [], last := none, adds := [] }) s
  { s with whl := { s.whl with started := false } }

/-- Waiting items go where their flows are placed now, and the sorters they wait on are woken (R22, R24, R601). -/
def State.replaceWaiting (s : State) (p : Item → Bool) : State :=
  ((s.mapItems fun i =>
    let (n, g) := s.place i.flow
    if p i && !i.serving && (n != i.srt || g != i.guest) then { i with srt := n, guest := g, ready := none } else i).tokens).wakeHoles

/-- The device leaves the modes that process streams: waiting items but for letterbox work are cancelled with reason 0x17,
no mailbag stays open, clocks stop, capture is off, and the sorters go to Off; letterbox work that waits goes to the one sorter that
serves it there, which is woken (R174, R193, R314, R389, R601). -/
def State.leaveRun (s : State) : State :=
  let late := s.sof.overflow
  let s := ({ s with sof := { s.sof with overflow := [] } } : State).cancelWhere (fun i => !i.work.letterboxWork) 0x17
  -- a letter that waits for staging in a receive buffer would be a waiting item of its stream (log entry 59)
  let s := forEach late (fun x a => a.deadLetter 0x17 x.letter) s
  (((s.closeRounds.acqLeave).capLeave).sortersOff).replaceWaiting fun _ => true

/-- The device enters a mode that processes streams (R174, R338, R389). The sorters of the active set are woken where they are
still in Off (R26): SERVICE may be entered from WATCH, HELD or LOADING without the wait of R39 (DESIGN CHOICE, log entry 51). -/
def State.enterRun (s : State) : State :=
  let s := ((s.closeRounds).acqEnter).capEnter
  forEach (s.sof.active.filter fun n => s.srtState n == 3) (fun n a => a.wake n none) s

end Sys2Proof.Machine
end

