-- ==== Sys2Proof/Machine/Mode.lean ====
section
/-! DEFINITION. Operating modes and host requests (R30 to R41), fencing (R16 to R18), resource loss (R31, R34, R42), roles of a
pair (R403 to R405) and health (R433). -/
namespace Sys2Proof.Machine

/-! ### The definition digest (R404) -/

/-- The RWL bits of the word at an offset, as octets; nothing where it has none. -/
def State.rwlBytes (s : State) (off : Nat) : List Byte :=
  let m := (fieldsAt off).foldl (fun a f => if f.acc = .rwl then a ||| f.mask else a) 0#32
  if m = 0#32 then [] else wordBytes (s.word off &&& m)

/-- The 64 KiB regions of the ADM, WHL, OSC, ISL and ALM blocks and of their table windows, rising. -/
def digestRegions : List Nat :=
  [5, 6, 9, 10, 11] ++ (List.range 0x91).map (fun i => 0x40 + i) ++ (List.range 0x2A).map fun i => 0xD2 + i

/-- The definition digest: a CRC-32C over the RWL definitions in ascending offset (R404). -/
def State.digest (s : State) : Nat :=
  crc32c (digestRegions.flatMap fun r => (List.range 0x4000).flatMap fun i => s.rwlBytes (0x10000 * r + 4 * i))

/-! ### Transitions (R30, R35) -/

/-- GLB_MODE changes in one write (R35, R37): PREV, CUR, CAUSE, SEQ and TEST; RUN_EN falls at entry to HELD (R39). -/
def State.modeWord (s : State) (m : Mode) (cause : Nat) : State :=
  let f (d : Fld) : Nat := s.rd d []
  let run := if m = .held then 0 else f Reg.GLB_MODE_RUN_EN
  let test := if m = .service then 1 else 0
  s.setWord (Reg.GLB_MODE_CUR.off [])
    (BitVec.ofNat 32 ((f Reg.GLB_MODE_SEQ + 1) % 16 * 2 ^ 16 + run * 2 ^ 15 + test * 2 ^ 14 + f Reg.GLB_MODE_PAIRED * 2 ^ 13 +
      f Reg.GLB_MODE_DEG * 2 ^ 12 + cause % 16 * 2 ^ 8 + f Reg.GLB_MODE_CUR * 2 ^ 3 + m.code))

/-- The role a mode goes with: 1 standby, 2 active, 3 active alone, 0 none (R436). -/
def State.roleOf (s : State) (m : Mode) : Nat :=
  if !s.flag Reg.PAIR_CFG_EN [] then 0
  else match m with
    | .standby => 1
    | .active => if s.rd Reg.PAIR_STAT_ROLE [] = 3 then 3 else 2
    | .degraded => if s.rd Reg.PAIR_STAT_ROLE [] = 3 then 3 else 2
    | _ => 0

/-- JTAG debug is open in TEST, and in OWNED only in SERVICE (R440). -/
def State.showDebug (s : State) : State :=
  let lc := s.rd Reg.KEY_LC_STATE []
  s.setFlag Reg.KEY_LC_DEBUG_OPEN [] (lc == 1 || (lc == 2 && s.mode == .service))

/-- Standard alarm 5 (R425): a pair member with the active role hears no partner in STANDBY on either path. -/
def State.partnerAlarm (s : State) : State :=
  let heard := (s.flag Reg.PAIR_STAT_PATH_A [] || s.flag Reg.PAIR_STAT_PATH_B []) &&
    (match s.pair.partner with | some p => p.mode == 3 | none => false)
  s.stdAlarm 5 (s.activeRole && !heard)

/-- The modes in which ATTEMPTS may return to 0 (R525). -/
def Mode.steady : Mode → Bool
  | .watch => true | .standby => true | .active => true | .degraded => true
  | .backup => false | .loading => false | .held => false | .service => false

/-- The sorter clock that PWR_SRT_CLK asks for takes effect (R50): 700 to 1,400 MHz, rounded down to a step of 100. -/
def State.clkSet (s : State) : State :=
  let v := clampN 700 1400 (s.rd Reg.PWR_SRT_CLK_MHZ []) / 100 * 100
  if v = s.sof.clk then s else ({ s with sof := { s.sof with clk := v } } : State).notice bPWR 1 v 0 0

/-- Sorters that were being woken for run entry return to Off (R39), but for the one that letterbox work waits on (R601). -/
def State.runRest (s : State) : State :=
  if s.glb.runWake then (({ s with glb := { s.glb with runWake := false } } : State).sortersOff).replaceWaiting fun _ => true else s

/-- A transition of R30: GLB_MODE, its record and notice, and what the blocks do at it. -/
def State.modeTo (s : State) (m : Mode) (cause : Nat) : State :=
  let was := s.processing
  let old := s.mode.code
  -- supply events in progress end at this moment (R365)
  let s := if was ∧ m ≠ .standby ∧ m ≠ .active ∧ m ≠ .degraded ∧ m ≠ .service then s.nrgLeave else s
  let s := ((s.modeWord m cause).notice bGLB 0 old m.code cause).armFollow s.armPull
  let s : State := if m = .service then { s with nrg := { s.nrg with svcAt := s.now } } else s
  let s := if old = 1 ∨ old = 7 then s.checkCap.clkSet else s
  let s := if old = 7 then s.checkAnalysis else s
  let since := if m.steady then (if (Mode.ofCode old).steady then s.strt.stableSince else some s.now) else none
  let s : State := if s.processing then { s with glb := { s.glb with runWake := false } } else s.runRest
  let s : State := { s with strt := { s.strt with kick := s.now, stall := s.now, stableSince := since } }
  let s := s.wr Reg.PAIR_STAT_ROLE [] (s.roleOf m)
  -- a unit that takes the role owes a partner in STANDBY a full copy (R406)
  let s : State := if (old ≠ 4 ∧ old ≠ 5) ∧ (m = .active ∨ m = .degraded) then { s with pair := { s.pair with fullDue := true, copied := [] } } else s
  let s := if m = .standby then s
    else (s.setFlag Reg.PAIR_STAT_JOINED [] false).setReady false
  let s := if m = .service then (s.wr Reg.STRT_FAIL_ATTEMPTS [] 0).saveRec else s
  let s := s.showDebug
  let s := if was ∧ s.processing = false then s.leaveRun
    else if was = false ∧ s.processing then s.enterRun else s
  -- a unit that takes over drives its pins from the next step (R298, R426)
  let s : State := { s with alm := { s.alm with pinsWait := decide (old = 3 ∧ (m = .active ∨ m = .degraded)) ||
    (s.alm.pinsWait && (decide (m = .active) || decide (m = .degraded))) } }
  let s := s.drivePins
  s.partnerAlarm.weighRoles

/-! ### Host requests (R36, R38, R39) -/

/-- The unit that a digest mismatch keeps in WATCH (R404). -/
def State.keptInWatch (s : State) : Bool :=
  s.flag Reg.PAIR_CFG_EN [] && !s.preferred && s.pair.mismatch

/-! ### Run entry (R19, R39, R405) -/

/-- The role the pair logic grants on run enable: some true for active, some false for standby, none while it waits for
the partner (R405). A heartbeat shows no run enable: a partner in WATCH counts as one with it (log entry 137, DESIGN CHOICE). -/
def State.grant (s : State) : Option Bool :=
  if !s.flag Reg.PAIR_CFG_EN [] then some true
  else
    let heard := s.flag Reg.PAIR_STAT_PATH_A [] || s.flag Reg.PAIR_STAT_PATH_B []
    match s.pair.partner with
    | some p =>
      if !heard then (if s.pair.joinOver then some true else none)
      else if s.pair.mismatch then
        (if s.preferred then some true else none)
      else if p.mode = 4 ∨ p.mode = 5 then some false
      else if p.mode = 2 ∨ p.mode = 3 then some s.preferred
      else some true
    | none => if s.pair.joinOver then some true else none

/-- A domain is locked, or the timebase holds over from one (R19). -/
def State.timeOk (s : State) : Bool :=
  let t := s.rd Reg.TB_STAT_STATE []
  t == 2 || t == 3 || t == 4

/-- The conditions for leaving WATCH hold (R30, R39). -/
def State.runOk (s : State) : Bool :=
  s.mode == .watch && s.flag Reg.GLB_MODE_RUN_EN [] && s.timeOk && (s.grant).isSome

/-- The conditions of run entry are evaluated: every active sorter that is not in Run is woken, or, when a
condition has ceased to hold, the sorters return to Off (R39). -/
def State.runCheck (s : State) : State :=
  if s.mode != .watch then s
  else if s.runOk then
    forEach s.sof.active (fun n a => a.wake n none) { s with glb := { s.glb with runWake := true } }
  else s.runRest

/-! ### Checks and steps of a request (R36, R38) -/

/-- Is TARGET allowed from the present mode (R38, check 2)? -/
def State.targetOk (s : State) (target : Nat) : Bool :=
  match s.mode with
  | .watch => target == 7 || (target == 4 && !s.keptInWatch)
  | .standby => target == 2 || target == 7
  | .active => target == 2 || target == 3 || target == 7
  | .degraded => target == 2 || target == 3 || target == 7
  | .held => target == 7
  | _ => false

/-- A service authorisation is valid, or none is needed (R529, R530). -/
def State.svcOk (s : State) : Bool :=
  s.flag Reg.STRT_SVC_OPEN [] || (s.rd Reg.STRT_SVC_AUTH_STAT [] == 1 && !s.flag Reg.STRT_SVC_NEXT [])

def State.leavesRole (s : State) : Bool := match s.mode with | .active | .degraded => true | _ => false

/-- The first failing check of a request, in the order of R38; `bound` skips the authorisation it already holds (R36). -/
def State.judge (s : State) (target : Nat) (force bound : Bool) : Nat :=
  if !s.targetOk target then 1
  else if target = 7 ∧ bound = false ∧ s.svcOk = false then 6
  else if s.leavesRole = true ∧ s.partnerReady = false ∧ force = false then 4
  else 0

/-- A request ends (R36): STATUS 2 completed or 3 refused, its REASON, and the notice. -/
def State.reqEnd (s : State) (status reason : Nat) : State :=
  let s : State := { s with glb := { s.glb with reqTarget := 0, reqForce := false } }
  ((s.wr Reg.GLB_MODE_REQ_STATUS [] status).wr Reg.GLB_MODE_REQ_REASON [] reason).notice bGLB 1 0 status reason

/-- Start a switchover (R428, R429): SWITCH_OFFER names the first RND0 instant at least 2 RI after now. -/
def State.switchStart (s : State) (cause : Nat) : State :=
  let r := s.rndFps 0
  let k := ceilDiv ((s.now + 2 * (second / r)) * r) second
  let s : State := { s with pair := { s.pair with switch := some ⟨k, true, false, cause⟩ } }
  s.plkSend (.switchOffer k)

/-- A hand-over must come before the requested mode (R32). -/
def State.needsHandover (s : State) : Bool := s.leavesRole && s.partnerReady

/-- An accepted request takes its first step: run enable completes at once, SERVICE is entered at once from HELD, a
hand-over starts, or the next RND0 boundary is awaited. -/
def State.reqStart (s : State) (target : Nat) (force : Bool) : State :=
  let s := s.wr Reg.GLB_MODE_REQ_REASON [] 0
  let s := if target = 2 ∨ target = 7 then (s.setFlag Reg.GLB_MODE_RUN_EN [] false).runCheck else s
  let s := if target = 7 ∧ s.rd Reg.STRT_SVC_AUTH_STAT [] = 1 then s.wr Reg.STRT_SVC_AUTH_STAT [] 3 else s
  if target = 4 then ((({ s with pair := { s.pair with joinOver := false, runAt := s.now } } : State).setFlag Reg.GLB_MODE_RUN_EN [] true).reqEnd 2 0).runCheck
  else if target = 7 ∧ s.mode = .held then (s.modeTo .service 10).reqEnd 2 0
  else
    let s : State := { s with glb := { s.glb with reqTarget := target, reqForce := force } }
    let s := s.wr Reg.GLB_MODE_REQ_STATUS [] 1
    if target = 3 then (if s.partnerReady then s.switchStart 5 else s.reqEnd 3 3)
    else if s.needsHandover then s.switchStart 5 else s

/-- A write to GLB_MODE_REQ (R36, R38): while a request is pending, REASON becomes 2 and it stands. -/
def State.request (s : State) (target : Nat) (force : Bool) : State :=
  if s.rd Reg.GLB_MODE_REQ_STATUS [] = 1 then s.wr Reg.GLB_MODE_REQ_REASON [] 2
  else
    let why := s.judge target force false
    if why = 0 then s.reqStart target force else s.reqEnd 3 why

/-- A higher cause changed the mode: a pending request is judged again (R36). -/
def State.rejudge (s : State) : State :=
  if s.rd Reg.GLB_MODE_REQ_STATUS [] = 1 then
    let t := s.glb.reqTarget
    let why := s.judge t s.glb.reqForce true
    if why ≠ 0 then s.reqEnd 3 why
    else if t = 7 ∧ s.mode = .held then (s.modeTo .service 10).reqEnd 2 0 else s
  else s

/-! ### Resource loss (R33, R34, R40, R42) -/

/-- SCORE (R433). -/
def State.refreshScore (s : State) : State :=
  let d := s.rd Reg.GLB_DEG_CAUSE_SORTERS_LOST []
  let ports := ((List.range 4).filter fun p => s.rd Reg.GLB_DEG_CAUSE_PORT [] / 2 ^ p % 2 == 1).length
  let failed := match s.pair.failAt with | some t => decide (s.now < t + 600 * second) | none => false
  let loss := 4 * d + 64 * (s.rd Reg.GLB_DEG_CAUSE_DRAM0 [] + s.rd Reg.GLB_DEG_CAUSE_DRAM1 []) + 32 * ports +
    16 * (s.rd Reg.GLB_DEG_CAUSE_TDOM0 [] + s.rd Reg.GLB_DEG_CAUSE_TDOM1 []) + (if failed then 32 else 0)
  ((s.wr Reg.PAIR_HEALTH_SCORE [] (255 - loss)).wr Reg.PAIR_HEALTH_SORTERS_LOST [] d).weighRoles

/-- A time domain is configured (R59, R87). -/
def State.domConf (s : State) (d : Nat) : Bool :=
  let p (k : Nat) : Bool := s.rd Reg.TB_DOM_CFG_PROFILE [k] == 1 || s.rd Reg.TB_DOM_CFG_PROFILE [k] == 2
  p d && !(d == 1 && p 0 && s.rd Reg.TB_DOM_CFG_DOMNUM [0] == s.rd Reg.TB_DOM_CFG_DOMNUM [1])

/-- The port mask of GLB_DEG_CAUSE (R40, R42): enabled ports whose link is lost and not restored, or that failed. -/
def State.lostPorts (s : State) : Nat :=
  ((List.range 4).map fun p =>
    let ps := sget s.net.ports p port0
    if s.flag Reg.NET_PORT_CFG_EN [p] && (ps.lost || ps.failed || !s.flag Reg.NET_PORT_STAT_LINK [p]) then 2 ^ p else 0).sum

/-- GLB_DEG_CAUSE as the resources stand; DRAM bits stay until the next start (R40, R69). -/
def State.degWord (s : State) : Nat :=
  let lost := ((List.range 64).filter s.fenced).length
  let td (d : Nat) : Nat := if s.domConf d && s.rd Reg.TB_DOM_STAT_STATE [d] != 3 && s.mode != .loading then 1 else 0
  lost * 2 ^ 16 + td 1 * 2 ^ 8 + td 0 * 2 ^ 7 + s.lostPorts * 2 ^ 3 + s.rd Reg.GLB_DEG_CAUSE_DRAM1 [] * 2 ^ 2 +
    s.rd Reg.GLB_DEG_CAUSE_DRAM0 [] * 2 + (if lost = 0 then 0 else 1)

/-- Resources changed (R31, R34, R42): GLB_DEG_CAUSE follows at once, with GLB_MODE.DEG, the score and standard alarms 4 and 11. -/
def State.showDeg (s : State) : State :=
  let off := Reg.GLB_DEG_CAUSE_SORTER.off []
  let w := BitVec.ofNat 32 s.degWord
  let down := (List.range 4).any fun p => s.flag Reg.NET_PORT_CFG_EN [p] && !s.flag Reg.NET_PORT_STAT_LINK [p]
  let s := if s.word off = w then s.refreshScore
    else
      let old := (s.word off).toNat
      let s := (s.setWord off w).setFlag Reg.GLB_MODE_DEG [] (w != 0#32)
      (s.notice bGLB 2 old w.toNat 0).refreshScore
  (s.stdAlarm 4 (s.flag Reg.GLB_MODE_DEG [])).stdAlarm 11 down

/-- A resource loss moves ACTIVE to DEGRADED at once; the way back waits for the next RND0 boundary (R30). -/
def State.degMove (s : State) : State :=
  if s.mode = .active ∧ s.flag Reg.GLB_MODE_DEG [] then (s.modeTo .degraded 6).rejudge else s

def State.refreshDeg (s : State) : State := s.showDeg.degMove

/-- A fatal error (R33): HELD at once with CAUSE 8; in LOADING it is also the start's failure, code 4 with a sub-code. In HELD
it is noticed and moves nothing (R41). -/
def State.fatal (s : State) (sub : Nat) : State :=
  if s.mode = .backup then s
  else if s.mode = .held then s.notice bGLB 3 0 sub 0
  else
    let s := if s.mode = .loading then ((s.wr Reg.STRT_FAIL_CODE [] 4).wr Reg.STRT_FAIL_SUB [] sub).saveRec else s
    ((s.modeTo .held 8).notice bGLB 3 0 sub 0).rejudge

/-! ### Fencing (R16 to R18) -/

/-- What was on a sorter when it was fenced (R17, R24): what ran to completion stands, the item in service is reissued once,
waiting items are placed elsewhere, and the sorters they wait on are woken. -/
def State.unload (s : State) (n : Nat) : State :=
  let s := match s.inService n with
    | none => s
    | some i => if i.ran then s.completeItem i else s.reissue i n
  s.replaceWaiting fun i => i.srt == n

/-- The fence bit, Off, and the active set without the sorter (R16). -/
def State.fenceMark (s : State) (n : Nat) : State :=
  let w := s.rd Reg.PWR_SRT_FENCE_FENCE [n / 32]
  let s := ((s.wr Reg.PWR_SRT_FENCE_FENCE [n / 32] (w + 2 ^ (n % 32))).sorterOff n).notice bPWR 0 n 0 0
  { s with sof := { s.sof with active := s.sof.active.filter (· != n) } }

/-- Every enabled port has failed (R33). -/
def State.portsFailed (s : State) : Bool :=
  let on := (List.range 4).filter fun p => s.flag Reg.NET_PORT_CFG_EN [p]
  !on.isEmpty && on.all fun p => (sget s.net.ports p port0).failed

/-- The failure of every enabled port is a fatal error (R33), whether the last port failed or the last good one was disabled. -/
def State.portFloor (s : State) : State := if s.portsFailed then s.fatal 7 else s

/-- Ports or their enables changed (R33, R34, R40). -/
def State.portsChanged (s : State) : State := s.showDeg.portFloor.degMove

/-- Fewer unfenced sorters than the Manifest's minimum are a fatal error (R33). -/
def State.sorterFloor (s : State) : State := if s.unfenced.length < s.strt.minSorters then s.fatal 5 else s

/-- Fence a sorter (R16 to R18); moves to it are abandoned (R203). A fence that is fatal enters HELD and nothing between (R34). -/
def State.fence (s : State) (n : Nat) : State :=
  if s.fenced n then s else ((((s.fenceMark n).unload n).abandonMoves n).showDeg.kick).sorterFloor.degMove

/-! ### Entry to service (R39) -/

/-- At the first RND0 instant after the sorters reach Run, the device enters ACTIVE or STANDBY (R39); with a resource lost,
ACTIVE becomes DEGRADED at once (R34). -/
def State.runEntry (s : State) : State :=
  if s.runOk && s.glb.runWake && s.sof.active.all (fun n => s.srtState n == 0 || s.fenced n) then
    match s.grant with
    | none => s
    | some true =>
      let alone := s.flag Reg.PAIR_CFG_EN [] && s.pair.joinOver && !(s.flag Reg.PAIR_STAT_PATH_A [] || s.flag Reg.PAIR_STAT_PATH_B [])
      let s := if alone then s.wr Reg.PAIR_STAT_ROLE [] 3 else s.wr Reg.PAIR_STAT_ROLE [] 2
      let s := (s.modeTo .active 2).rejudge
      if s.flag Reg.GLB_MODE_DEG [] then (s.modeTo .degraded 6).rejudge else s
    | some false => (s.modeTo .standby 2).rejudge
  else s

end Sys2Proof.Machine
end

