-- ==== Sys2Proof/Machine/TimeOps.lean ====
section
/-! DEFINITION. The timebase (R51 to R83): stamp correction, steering, the state of the timebase and its quality, domains,
selection, UTC and the conversion of C37.118 times. Rows are in Machine/Timebase.lean. -/
namespace Sys2Proof.Machine

/-! ### Stamps (R75, R76) -/

/-- Femtoseconds as 2^-16 ns (R5). -/
def fsU (n : Int) : Int := roundDivI (n * 65536) 1000000

/-- D_RX, D_TX and UI of a port mode, in femtoseconds (R75). -/
def portDelays (mode : Nat) : Int × Int × Int :=
  if mode = 0 then (76800000, 52800000, 38788) else if mode = 1 then (120000000, 86400000, 96970) else (246400000, 192000000, 800000)

/-- A received stamp at the reference plane (R75). -/
def State.rxTime (s : State) (p : Nat) (raw : Time) (bofs : Nat) : Time :=
  let (d, _, ui) := portDelays (s.rd Reg.NET_PORT_CFG_MODE [p])
  ((raw : Int) - fsU (d + bofs * ui + toSigned 16 (s.rd Reg.TB_PCORR_C_RX [p]) * 100000)).toNat

/-- A transmitted stamp at the reference plane (R75). -/
def State.txTime (s : State) (p : Nat) (raw : Time) : Time :=
  let (_, d, _) := portDelays (s.rd Reg.NET_PORT_CFG_MODE [p])
  ((raw : Int) + fsU (d + toSigned 16 (s.rd Reg.TB_PCORR_C_TX [p]) * 100000)).toNat

/-! ### Steering (R63) -/

/-- One ppb and the scale of the displacement: its unit is 1 / (65,536 × 10^9) of 2^-16 ns. -/
def ppbU : Nat := 65536
def psiU : Nat := 65536000000000

/-- The steering code of a frequency correction: CENTER + round(GAIN × f), held to the range of CODE_BITS. With SIGNED = 1 CENTER is
read as two's complement in CODE_BITS bits, which the spec does not say (log entry 78, DESIGN CHOICE). -/
def State.steerCode (s : State) (f : Int) : Int :=
  let n := clampN 8 24 (s.rd Reg.TB_STEER_CFG_CODE_BITS [])
  let sgn := s.flag Reg.TB_STEER_CFG_SIGNED []
  let center : Int := if sgn then toSigned n (s.rd Reg.TB_STEER_CENTER_CODE []) else s.rd Reg.TB_STEER_CENTER_CODE []
  let code := center + roundDivI (toSigned 32 (s.rd Reg.TB_STEER_GAIN_GAIN []) * f) (65536 * 65536)
  if sgn then clampI (-(2 ^ (n - 1) : Int)) (2 ^ (n - 1) - 1) code else clampI 0 (2 ^ n - 1) code

/-- Send one steering frame. Of the 8 PFX bits the low PFX_BITS are sent: the spec does not say which (log entry 78, DESIGN CHOICE). -/
def State.steerFrame (s : State) (f : Int) : State :=
  let n := clampN 8 24 (s.rd Reg.TB_STEER_CFG_CODE_BITS [])
  let p := min 8 (s.rd Reg.TB_STEER_CFG_PFX_BITS [])
  s.emit (.steer p (s.rd Reg.TB_STEER_CFG_PFX [] % 2 ^ p) n (ofSigned n (s.steerCode f)))

/-- Put the displacement of the past under the old correction, and the new correction in force (R60, R63). Outside sQ16.16
the spec does not say what TB_STEER_VAL shows: a free value. -/
def State.steer (s : State) (f : Int) : State :=
  let d := s.tb.disp + s.tb.f * ((s.now : Int) - s.tb.dispT)
  let s : State := { s with tb := { s.tb with f := f, disp := d, dispT := s.now } }
  let s : State := if -(2 ^ 31 : Int) ≤ f ∧ f < 2 ^ 31 then s.wr Reg.TB_STEER_VAL_F [] (ofSigned 32 f)
    else { s.wr Reg.TB_STEER_VAL_F [] (Config.freeWord s.free).toNat with free := s.free + 1 }
  s.steerFrame f

/-- The displacement A at this moment. -/
def State.dispNow (s : State) : Int := s.tb.disp + s.tb.f * ((s.now : Int) - s.tb.dispT)

/-! ### The state of the timebase and what it reports (R70 to R72) -/

/-- Bring TB_UNC, TB_STAT and the leap pending flag up to this moment; standard alarms 3 and 12 follow (R72, R80, R296). -/
def State.tbRefresh (s : State) : State :=
  let st := s.rd Reg.TB_STAT_STATE []
  let serr := s.serrNow
  let s := s.wr Reg.TB_STAT_UNLK_S [] s.unlkNow |>.wr Reg.TB_UNC_UNC [] s.uncNow |>.wr Reg.TB_STAT_FQ [] s.fqNow
    |>.wr Reg.TB_STAT_SQ [] s.sqNow |>.setFlag Reg.TB_STAT_SERR [] serr
  let s : State := match s.tb.leapEnd with
    | some e => if e ≤ s.now then { s.setFlag Reg.TB_UTC_LSP [] false with tb := { s.tb with leapEnd := none } } else s
    | none => s
  (s.stdAlarm 3 (st == 4)).stdAlarm 12 serr

/-- TB_STAT.STATE changes (R61, R70, R71). SLEW_DONE marks every change from slewing to locked, whether the slew closed or a step ended it:
the spec gives it no condition (log entry 117, DESIGN CHOICE). -/
def State.setTb (s : State) (st : Nat) : State :=
  let old := s.rd Reg.TB_STAT_STATE []
  if old = st then s
  else
    let unc := s.uncNow
    let s := (s.wr Reg.TB_STAT_STATE [] st).notice bTB 0 old st 0
    let s : State := if old = 2 then { s.wr Reg.TB_STAT_UNLK_S [] 0 with tb := { s.tb with unlkT := s.now } } else s
    let s : State := if st = 2 then { s with tb := { s.tb with lockN := [] } } else s
    let s : State := if st = 4 then { s with tb := { s.tb with holdT := s.now, holdUnc := unc } } else s
    if old = 3 ∧ st = 2 then s.notice bTB 2 0 0 0 else s

/-! ### Domains (R58 to R60) -/

def State.dom (s : State) (d : Nat) : DomSt := if d = 0 then s.tb.dom0 else s.tb.dom1
def State.setDom (s : State) (d : Nat) (v : DomSt) : State :=
  if d = 0 then { s with tb := { s.tb with dom0 := v } } else { s with tb := { s.tb with dom1 := v } }

/-- The ports of a domain: the two lowest of its mask (R87). -/
def State.domPorts (s : State) (d : Nat) : List Nat :=
  ((List.range 4).filter fun p => s.rd Reg.TB_DOM_CFG_PORTS [d] / 2 ^ p % 2 == 1).take 2

/-- Both domains with one DOMNUM are recorded (R59). -/
def State.sameDomnum (s : State) : State :=
  let p (k : Nat) : Bool := s.rd Reg.TB_DOM_CFG_PROFILE [k] == 1 || s.rd Reg.TB_DOM_CFG_PROFILE [k] == 2
  let n := s.rd Reg.TB_DOM_CFG_DOMNUM [0]
  if p 0 ∧ p 1 ∧ n = s.rd Reg.TB_DOM_CFG_DOMNUM [1] then s.logEvent bTB 0x82 1 n 0 else s

/-- The domain that a PTP message of a domain number on a port belongs to (R59). A message of a domain's number on a port outside its
PORTS belongs to none, and is discarded and counted: the spec does not say what becomes of it (log entry 79, DESIGN CHOICE). -/
def State.domFor (s : State) (num port : Nat) : Option Nat :=
  (List.range 2).find? fun d => s.domConf d && s.rd Reg.TB_DOM_CFG_DOMNUM [d] == num && (s.domPorts d).contains port

def State.domState (s : State) (d : Nat) : Nat := s.rd Reg.TB_DOM_STAT_STATE [d]
def State.domLocked (s : State) (d : Nat) : Bool := s.domState d == 3

/-- A domain's STATE changes (R60, R91); entry to qualified begins a new line. -/
def State.domTo (s : State) (d st : Nat) : State :=
  let old := s.domState d
  if old = st then s
  else
    let s := (s.wr Reg.TB_DOM_STAT_STATE [d] st).notice bTB (5 + d) old st 0
    let v := s.dom d
    let v := if st = 2 then { v with psis := [], onLine := 0, offLine := 0 } else v
    s.setDom d { v with offLine := 0, lockAt := if st = 3 then s.now else v.lockAt }

/-- Twice-weighted sums of the line fit over (t, ψ) with `t` counted from `t0`: the count, Σx, Σy, Σx², Σxy. -/
def fitSums (t0 : Int) (ps : List PsiSample) : Int × Int × Int × Int × Int :=
  ps.foldl (fun (n, sx, sy, sxx, sxy) p =>
    let x := p.t - t0
    (n + 1, sx + x, sy + p.psi, sxx + x * x, sxy + x * p.psi)) (0, 0, 0, 0, 0)

/-- Is a sample within `ns` nanoseconds of the least-squares line of the samples before it (R60)? The comparison is exact. -/
def nearLine (ps : List PsiSample) (x : PsiSample) (ns : Nat) : Bool :=
  let (n, sx, sy, sxx, sxy) := fitSums x.t ps
  let den := n * sxx - sx * sx
  let (num, den) := if den = 0 then (sy, n) else (sxx * sy - sx * sxy, den)
  decide ((x.psi * den - num).natAbs ≤ ns * nsU * psiU * den.natAbs)

/-- Keep the last 16 samples. -/
def pushPsi (ps : List PsiSample) (x : PsiSample) : List PsiSample := (ps ++ [x]).drop (ps.length - 15)

/-- TB_SERVO.LOCK_NS and STEP_NS in ns, and the pull limit in 2^-16 ppb (R61, R88, R89). LOCK_NS is held to 1 to 50 and STEP_NS to 100
and more: the spec gives the ranges and no treatment of values outside them (log entry 77, DESIGN CHOICE). -/
def State.lockNs (s : State) : Nat := 10 * clampN 1 50 (s.rd Reg.TB_SERVO_LOCK_NS [])
def State.stepNs (s : State) : Nat := max 100 (s.rd Reg.TB_SERVO_STEP_NS [])
def State.pullU (s : State) : Int := 1000 * (max 2 (s.rd Reg.TB_STEER_CFG_PULL []) : Nat) * ppbU

/-- The locked, loss and outlier rules for one new sample (R60); the second part says whether it is an outlier. An outlier is not kept
among the 16 samples that later ones are tested against: the spec does not say (log entry 116, DESIGN CHOICE). -/
def State.domSample (s : State) (d : Nat) (x : PsiSample) : State × Bool :=
  let v := s.dom d
  let st := s.domState d
  if st = 2 then
    let full := decide (16 ≤ v.psis.length)
    let n := if full && nearLine v.psis x s.lockNs then v.onLine + 1 else 0
    let s := s.setDom d { v with psis := pushPsi v.psis x, onLine := n }
    (if 16 ≤ n then s.domTo d 3 else s, false)
  else if st = 3 then
    if nearLine v.psis x 1000 then (s.setDom d { v with psis := pushPsi v.psis x, offLine := 0 }, false)
    else
      let s := s.setDom d { v with offLine := v.offLine + 1 }
      (if 4 ≤ v.offLine + 1 then s.domTo d 4 else s, true)
  else (s, false)

/-! ### UTC (R79) -/

/-- The offset's source after a change of Announce or selection. Only the selected domain's valid offset is written into TB_UTC.OFFSET,
and after a leap an Announce that still carries the old offset puts it back until one carries the new one: the spec leaves both open
(log entry 115, DESIGN CHOICE). -/
def State.refreshUtc (s : State) : State :=
  let sel := s.rd Reg.TB_STAT_SEL []
  let ok := (s.dom sel).chosen.isSome && s.flag Reg.TB_DOM_STAT_UTCV [sel]
  let s := (s.setFlag Reg.TB_UTC_VALID [] ok).setFlag Reg.TB_STAT_UTC_UNVER [] (!ok)
  let o := s.rd Reg.TB_DOM_STAT_UTC_OFS [sel]
  if ok then { s.wr Reg.TB_UTC_OFFSET [] o with tb := { s.tb with ptpOfs := toSigned 16 o } } else s

/-- The leap that is flagged (R79): some true for a deleted second, some false for an inserted one. The second part says
whether it comes from HOST_LEAP. -/
def State.leapFlag (s : State) : Option Bool × Bool :=
  if s.flag Reg.TB_UTC_VALID [] then
    match (s.dom (s.rd Reg.TB_STAT_SEL [])).chosen with
    | some a => (if a.leap61 then some false else if a.leap59 then some true else none, false)
    | none => (none, false)
  else
    let h := s.rd Reg.TB_UTC_HOST_LEAP []
    (if h = 1 then some false else if h = 2 then some true else none, true)

/-- A C37.118 time as TAI (R77); none where it is no valid time (R78). -/
def State.toTai (s : State) (soc frac tb : Nat) (arr : Time) : Option Time :=
  if tb = 0 ∨ tb ≤ frac then none
  else
    let sub := roundDiv (frac * second) tb
    let mk (ofs : Int) : Time := ((soc : Int) + ofs).toNat * second + sub
    match s.tb.leapT with
    | none => some (mk s.utcOfs)
    | some (l, neg) =>
      let ob := s.tb.ofsBefore
      let oa := if neg then ob - 1 else ob + 1
      let ls : Int := secOf l
      let last := ls - 1 - ob
      let first := if neg then ls - oa else ls - ob
      if (soc : Int) = last ∨ (soc : Int) = first then
        let a := mk ob
        let b := mk oa
        some (if ((b : Int) - arr).natAbs ≤ ((a : Int) - arr).natAbs then b else a)
      else some (mk s.utcOfs)

/-! ### Selection, holdover and disagreement (R65 to R70) -/

/-- Another domain becomes selected (R66): the source of θ changes and nothing else. -/
def State.select (s : State) (d : Nat) : State :=
  let old := s.rd Reg.TB_STAT_SEL []
  if old = d then s else ((s.wr Reg.TB_STAT_SEL [] d).notice bTB 1 old d 0).refreshUtc

/-- The two domains are locked farther apart than 5,000 ns (R68). -/
def State.farApart (s : State) : Bool :=
  s.domLocked 0 && s.domLocked 1 && decide (5000 * nsU < (s.tb.dom0.theta - s.tb.dom1.theta).natAbs)

/-- Disagreement begins at once; agreement is timed from its first sample (R68). -/
def State.refreshAgree (s : State) : State :=
  if s.farApart then
    let s : State := { s with tb := { s.tb with agreeSince := none } }
    if s.tb.disagree then s
    else (({ s with tb := { s.tb with disagree := true } } : State).notice bTB 3 0 0 0).stdAlarm 0 true
  else if s.tb.disagree && s.domLocked 0 && s.domLocked 1 then
    (match s.tb.agreeSince with
     | none => { s with tb := { s.tb with agreeSince := some s.now } }
     | some _ => s)
  else { s with tb := { s.tb with agreeSince := none } }

/-- Entry to holdover (R70): the integrator's frequency in one last frame. -/
def State.holdover (s : State) : State := (s.setTb 4).steer s.tb.integ

/-- The selection rules after a domain's state changed (R65 rules 1 and 2), and what follows from the new states. -/
def State.tbSelect (s : State) : State :=
  let sel := s.rd Reg.TB_STAT_SEL []
  let s := if s.domLocked sel then s
    else if s.domLocked (1 - sel) then s.select (1 - sel)
    else if s.rd Reg.TB_STAT_STATE [] = 2 ∨ s.rd Reg.TB_STAT_STATE [] = 3 then s.holdover else s
  let s := if s.rd Reg.TB_STAT_STATE [] = 0 ∧ (s.domState 0 = 2 ∨ s.domState 1 = 2) then s.setTb 1 else s
  (s.refreshAgree.tbRefresh.refreshDeg).runCheck

/-! ### The servo (R53, R61, R62) -/

/-- A step of device time by `d` (R52, R61): the counter, the displacement and the stored offsets move together, and with them the
times from which the timebase measures what has passed (R68, R71 to R74). -/
def State.stepBy (s : State) (d : Int) : State :=
  let a := s.dispNow
  let mv (t : Time) : Time := ((t : Int) + d).toNat
  let shift (v : DomSt) : DomSt :=
    { v with theta := v.theta - d, lockAt := mv v.lockAt, reqAt := v.reqAt.map mv
             masters := v.masters.map fun m => { m with first := mv m.first, last := mv m.last } }
  let n := ((s.now : Int) + d).toNat
  ({ s with now := n
            log := { s.log with opsecT := ((s.log.opsecT : Int) + d).toNat }
            bkd := { s.bkd with tickAt := ((s.bkd.tickAt : Int) + d).toNat }
            tb := { s.tb with disp := a + d * psiU, dispT := n, dom0 := shift s.tb.dom0, dom1 := shift s.tb.dom1
                              grid := ((s.tb.grid + d) % (8 * nsU : Nat)).toNat, holdT := mv s.tb.holdT, unlkT := mv s.tb.unlkT
                              agreeSince := s.tb.agreeSince.map mv, ppsAt := mv s.tb.ppsAt, ppsInAt := mv s.tb.ppsInAt } } : State).notice
    bTB 7 (ofSigned 32 (roundDivI d nsU)) 0 0

/-- Gains of TB_SERVO.BW: kp in 1/16 ppb per ns, ki in 1/1000 ppb per ns per s (R62). -/
def State.gains (s : State) : Nat × Nat :=
  let b := s.rd Reg.TB_SERVO_BW []
  if b = 0 then (1, 1) else if b = 1 then (2, 4) else (4, 16)

/-- One run of the servo on a sample (R61); `l` is logSyncInterval, held to -3 to 1 (log entry 77). θ is in 2^-16 ns, f in 2^-16 ppb. -/
def State.servo (s : State) (theta : Int) (l : Int) : State :=
  let (s, theta) := if s.stepAllowed && decide (s.stepNs * nsU ≤ theta.natAbs) then (s.stepBy theta, (0 : Int)) else (s, theta)
  let tau8 : Nat := 2 ^ (clampI (-3) 1 l + 3).toNat
  let pull := s.pullU
  if s.lockNs * nsU < theta.natAbs then
    let mag := min (1000 * ppbU) (roundDiv (theta.natAbs * 8) tau8)
    let prop : Int := if theta < 0 then -(mag : Int) else mag
    (s.setTb 3).steer (clampI (-pull) pull (s.tb.integ + prop))
  else
    let (kp, ki) := s.gains
    let integ := clampI (-pull) pull (s.tb.integ + roundDivI (theta * ki * tau8) 8000)
    let s : State := { s with tb := { s.tb with integ := integ } }
    let s := s.setTb 2
    let s : State := { s with tb := { s.tb with lockN := (s.tb.lockN ++ [theta.natAbs]).drop (s.tb.lockN.length - 15) } }
    s.steer (clampI (-pull) pull (integ + roundDivI (theta * kp) 16))

end Sys2Proof.Machine
end

