-- ==== Sys2Proof/Machine/RoundOps.lean ====
section
/-! DEFINITION. The Postmark Wheel and the Rounds (R143 to R163): eligibility, filing, trackers, late letters, the quorum
and the deadline, and changes of layout. Dispatch is in Machine/Dispatching.lean. -/
namespace Sys2Proof.Machine

/-- WHL_NOTICE_RND shows the Rounds that contributed to a bit of WHL_NOTICE since that bit was last cleared (R180). -/
def State.showContrib (s : State) : State :=
  let word (m : Nat) : Nat := ((((s.whl.contrib.map (·.2)).eraseDups.filter fun r => r / 32 == m).map fun r => 2 ^ (r % 32))).sum
  (s.wr Reg.WHL_NOTICE_RND [0] (word 0)).wr Reg.WHL_NOTICE_RND [1] (word 1)

/-- A Round contributes to a bit of WHL_NOTICE. -/
def State.contribute (s : State) (r bit : Nat) : State :=
  if s.whl.contrib.contains (bit, r) then s
  else ({ s with whl := { s.whl with contrib := s.whl.contrib ++ [(bit, r)] } } : State).showContrib

/-- A WHL notice of a Round (R180). -/
def State.whlNotice (s : State) (r bit d1 d2 : Nat) : State := (s.contribute r bit).notice bWHL bit r d1 d2

/-! ### Membership, eligibility, grids (R150, R154) -/

/-- The stream's instants per Round instant; 0 where the stream is not eligible (R150). -/
def State.ratio (s : State) (r sid : Nat) : Nat :=
  if s.sidFps sid % s.rndFps r = 0 then s.sidFps sid / s.rndFps r else 0

def State.eligible (s : State) (r sid : Nat) : Bool := s.ratio r sid != 0

/-- The Round's instant that a stream's instant stands for, if it lies on the Round's grid. -/
def State.gridInstant (s : State) (r sid n : Nat) : Option Nat :=
  let m := s.ratio r sid
  if m ≠ 0 ∧ n % m = 0 then some (n / m) else none

/-- A member retired or in SID quarantine lapses at once (R158). -/
def State.lapsedNow (s : State) (r sid : Nat) : Bool :=
  (s.rndSt r).lapsed.contains sid || (decide (sid < 16384) && s.sidState sid < 2)

/-- The live essential set E (R154). -/
def State.liveSet (s : State) (r : Nat) : List Nat :=
  (s.members r).filter fun sid => s.membCode Reg.WHL_MEMB_ACTIVE r sid == 2 && s.eligible r sid && !s.lapsedNow r sid

/-- The Rounds that are on and name a stream. -/
def State.rndsOf (s : State) (sid : Nat) : List Nat := s.rndsOn.filter fun r => s.isMember r sid

/-- The Rounds that name a stream, on or off. -/
def State.rndsNaming (s : State) (sid : Nat) : List Nat := (List.range 64).filter fun r => s.isMember r sid

/-- Members, essential members and |E| as shown (R177, R178), with the notice that E became empty (R180). -/
def State.showMembers (s : State) (r : Nat) : State :=
  let ms := s.members r
  let e := (s.liveSet r).length
  let was := s.rd Reg.WHL_RND_ESS_CUR [r]
  let s := s.wr Reg.WHL_RND_STAT_MEMBERS [r] ms.length
    |>.wr Reg.WHL_RND_ESS_TABLE [r] ((ms.filter fun sid => s.membCode Reg.WHL_MEMB_ACTIVE r sid == 2).length)
    |>.wr Reg.WHL_RND_ESS_CUR [r] e
  if was ≠ 0 ∧ e = 0 then s.whlNotice r 6 0 0 else s

/-- The quorum count Q; none while E is empty (R154). -/
def State.quorum (s : State) (r : Nat) : Option Nat :=
  let e := (s.liveSet r).length
  if e = 0 then none else some (max 1 (ceilDiv (clampN 1 100 (s.rd Reg.WHL_RND_QUO_Q_PCT [r]) * e) 100))

/-! ### The wheel (R143, R146) -/

/-- The filed slot of a stream that an instant falls on. -/
def State.slotAt (s : State) (sid n : Nat) : Option WSlot :=
  s.whl.wheel.find? fun w => w.sid == sid && w.tag % 64 == n % 64

/-- The letter of a stream's instant, if it is filed. -/
def State.filed (s : State) (sid n : Nat) : Option WSlot := s.whl.wheel.find? fun w => w.sid == sid && w.tag == n

def State.putSlot (s : State) (w : WSlot) : State :=
  { s with whl := { s.whl with wheel := (s.whl.wheel.filter fun x => !(x.sid == w.sid && x.tag % 64 == w.tag % 64)) ++ [w] } }

/-- The letter a member has for a Round's instant. -/
def State.memberLetter (s : State) (r sid n : Nat) : Option WSlot :=
  let m := s.ratio r sid
  if m = 0 then none else s.filed sid (n * m)

/-! ### Late letters and duplicates (R145, R159) -/

/-- Take a late addendum for the next mailbag, or drop it at 1,024. -/
def State.addendum (s : State) (r : Nat) (l : Letter) : State :=
  let st := s.rndSt r
  if !s.flag Reg.WHL_RND_CTL_LATE_ADD [r] then s
  else if st.adds.length < 1024 then s.setRnd r { st with adds := st.adds ++ [{ l with flags := l.flags + 128 }] }
  else (s.inc Reg.WHL_RND_ADD_DROP [r]).deadLetter 0x14 l

/-- A letter is late for a Round (R159); `dup`: a duplicate of it was counted (R165). -/
def State.countLate (s : State) (r : Nat) (l : Letter) (dup : Bool) : State :=
  let s := (s.inc Reg.WHL_RND_LATE [r]).stabWr Reg.STAB_LATE Reg.LSTAB_LATE l.sid (s.stabRd Reg.STAB_LATE Reg.LSTAB_LATE l.sid + 1)
  let st := s.rndSt r
  ((s.setRnd r { st with lateN := st.lateN + 1 }).deadLetter 0x12 l).addendum r { l with flags := l.flags + bitN dup 6 }

/-- Note in a filed slot that a duplicate of its letter came; the slot keeps its place in the order of filing. -/
def State.markDup (s : State) (w : WSlot) : State :=
  { s with whl := { s.whl with wheel := s.whl.wheel.map fun x => if x.sid == w.sid && x.tag == w.tag then { x with dup := true } else x } }

/-- A duplicate (R145): counted once for the stream and in every Round that names it. -/
def State.countDup (s : State) (w : WSlot) : State :=
  let s := s.markDup w
  let s := s.stabWr Reg.STAB_DUP Reg.LSTAB_DUP w.sid (s.stabRd Reg.STAB_DUP Reg.LSTAB_DUP w.sid + 1)
  forEach (s.rndsNaming w.sid) (fun r a =>
    let st := a.rndSt r
    (a.inc Reg.WHL_RND_DUP [r]).setRnd r { st with dupN := st.dupN + 1 }) s

/-- A stale letter (R144, R145, R204): older than the wheel, late in every Round that names it. -/
def State.countStale (s : State) (l : Letter) : State :=
  let s := s.inc Reg.WHL_STALE_COUNT []
  let s := s.stabWr Reg.STAB_STALE Reg.LSTAB_STALE l.sid (s.stabRd Reg.STAB_STALE Reg.LSTAB_STALE l.sid + 1)
  let rs := s.rndsNaming l.sid
  let s := forEach rs (fun r a =>
    let st := a.rndSt r
    ((a.inc Reg.WHL_RND_LATE [r]).setRnd r { st with lateN := st.lateN + 1 }).contribute r 7) s
  (s.notice bWHL 7 (rs.headD 0) l.sid 0).deadLetter 0x11 l

/-- A letter too far ahead of its arrival (R144, R204). -/
def State.countFuture (s : State) (l : Letter) : State :=
  let s := s.inc Reg.WHL_FUTURE_COUNT []
  (s.stabWr Reg.STAB_STALE Reg.LSTAB_STALE l.sid (s.stabRd Reg.STAB_STALE Reg.LSTAB_STALE l.sid + 1)).deadLetter 0x10 l

/-- An older letter whose place is needed: late in every Round on whose grid it lies that had not dispatched it (R146). -/
def State.displaced (s : State) (w : WSlot) : State :=
  forEach (s.rndsOf w.sid) (fun r a =>
    match a.gridInstant r w.sid w.tag with
    | none => a
    | some n => if (match (a.rndSt r).last with | some k => decide (n ≤ k) | none => false) then a else a.countLate r w.letter w.dup) s

/-! ### Trackers (R160) -/

/-- L in uQ24.8 µs, held to 0 to 64 RI of the stream (R160). -/
def State.latency (s : State) (l : Letter) : Nat :=
  let r := s.sidFps l.sid
  let tn := instantTime (l.sec * r + l.k) r
  min (roundDiv ((l.arr - tn) * 256) usU) (roundDiv (64 * 1000000 * 256) r)

/-- The tracker's next q, m and d from L (R160), in uQ24.8 µs; g = 2^-G. -/
def trackerNext (q m d dmin g l : Nat) : Nat × Nat × Nat :=
  let b := max d (dmin * 256)
  let q' := if q < l then roundDiv (q * 1024 * 2 ^ g + b * 1023) (1024 * 2 ^ g)
    else if q * 1024 * 2 ^ g < b then 0 else roundDiv (q * 1024 * 2 ^ g - b) (1024 * 2 ^ g)
  let m' := roundDiv (63 * m + l) 64
  (q', m', roundDiv (63 * d + (l - m' + (m' - l))) 64)

/-- Seed or update a stream's tracker from a filed letter (R160, R179). -/
def State.tracker (s : State) (sid l : Nat) : State :=
  let rd (f g : Fld) := s.stabRd f g sid
  let s := s.stabWr Reg.STAB_LAST_L Reg.LSTAB_LAST_L sid l
  let s := if rd Reg.STAB_MAX_L Reg.LSTAB_MAX_L < l then s.stabWr Reg.STAB_MAX_L Reg.LSTAB_MAX_L sid l else s
  let put (a : State) (q m d : Nat) : State :=
    ((a.stabWr Reg.STAB_Q Reg.LSTAB_Q sid q).stabWr Reg.STAB_M Reg.LSTAB_M sid m).stabWr Reg.STAB_D Reg.LSTAB_D sid d
  if rd Reg.STAB_SEEDED Reg.LSTAB_SEEDED = 0 then
    let d := max 1 (s.rd Reg.WHL_TRK_DINIT_US []) * 256
    (put s (l + 3 * d) l d).stabWr Reg.STAB_SEEDED Reg.LSTAB_SEEDED sid 1
  else
    let (q, m, d) := trackerNext (rd Reg.STAB_Q Reg.LSTAB_Q) (rd Reg.STAB_M Reg.LSTAB_M) (rd Reg.STAB_D Reg.LSTAB_D)
      (max 1 (s.rd Reg.WHL_TRK_DMIN_US [])) (clampN 1 8 (s.rd Reg.WHL_TRK_G [])) l
    put s q m d

/-! ### Closing (R154, R155) -/

/-- The deadline of a mailbag as a time: t_k + D_k. -/
def Mailbag.deadline (b : Mailbag) : Time := b.tk + b.dk * 256000

/-- The quorum close of a mailbag, if the quorum is met at or before its deadline (R154, R155). -/
def State.quorumClose (s : State) (r : Nat) (b : Mailbag) : Option Time :=
  match s.quorum r with
  | none => none
  | some q =>
    let stamps := sortAsc ((s.liveSet r).filterMap fun sid => (s.memberLetter r sid b.n).map (·.letter.arr))
    match stamps[q - 1]? with
    | none => none
    | some c => let c := max c b.tk; if c ≤ b.deadline then some c else none

/-- Close an open mailbag by quorum if it is met, or move a close that a letter filed later brings forward. -/
def State.closeCheck (s : State) (r n : Nat) : State :=
  let st := s.rndSt r
  (s.setRnd r { st with bags := st.bags.map fun b =>
    if b.n = n then (match s.quorumClose r b with | some c => { b with close := some (c, true) } | none => b) else b }).showOcc

/-- Is a stamp inside a mailbag's close (R155)? By deadline the close itself is outside (R7). -/
def inClose (c : Time × Bool) (arr : Time) : Bool := if c.2 then decide (arr ≤ c.1) else decide (arr < c.1)

/-! ### Filing (R144) -/

/-- A letter of a mailbag that was dispatched is late if it is stamped after that mailbag's close (R159). -/
def State.lateFor (s : State) (r k : Nat) (l : Letter) : Bool :=
  match sfind (s.rndSt r).closes k with | some c => !inClose c l.arr | none => true

/-- What filing does in each Round that names the stream: the quorum check, or a late letter (R159). -/
def State.filedInRounds (s : State) (l : Letter) (n : Nat) : State :=
  forEach (s.rndsOf l.sid) (fun r a =>
    match a.gridInstant r l.sid n with
    | none => a
    | some k =>
      if (match (a.rndSt r).last with | some j => decide (k ≤ j) | none => false) then
        if a.lateFor r k l then a.countLate r l false else a
      else if a.membCode Reg.WHL_MEMB_ACTIVE r l.sid = 2 then a.closeCheck r k else a) s

/-- Off-grid letters filed (R179). -/
def State.offGridCount (s : State) (l : Letter) : State :=
  if l.flags / 0x800 % 2 = 1 then s.stabWr Reg.STAB_OFFGRID Reg.LSTAB_OFFGRID l.sid (s.stabRd Reg.STAB_OFFGRID Reg.LSTAB_OFFGRID l.sid + 1)
  else s

/-- File a letter (R144). -/
def State.fileLetter (s : State) (l : Letter) : State :=
  let r := s.sidFps l.sid
  let n := l.sec * r + l.k
  let a := instantOf l.arr r
  if a + 1 < n then s.countFuture l
  else if n + 64 ≤ a then s.countStale l
  else
    match s.slotAt l.sid n with
    | some w =>
      if w.tag = n then s.countDup w
      else ((((s.displaced w).putSlot ⟨l.sid, n, l, false⟩).offGridCount l).tracker l.sid (s.latency l)).filedInRounds l n
    | none => (((s.putSlot ⟨l.sid, n, l, false⟩).offGridCount l).tracker l.sid (s.latency l)).filedInRounds l n

/-! ### The instant of a Round (R161, R163) -/

/-- The clamp of a deadline, in uQ23.8 µs, and whether the cap bound it (R161): DL_MIN, and the lesser of DL_MAX and 60 intervals of
the fastest eligible member. -/
def State.dlClamp (s : State) (r d : Nat) : Nat × Bool :=
  let fast := ((s.members r).filter (s.eligible r)).foldl (fun a sid => max a (s.sidFps sid)) 0
  let cap := min (s.rd Reg.WHL_RND_DLMAX_US [r] * 256) (roundDiv (60 * 1000000 * 256) (if fast = 0 then s.rndFps r else fast))
  let d := max d (s.rd Reg.WHL_RND_DL_MIN_US [r] * 256)
  if cap < d then (cap, true) else (d, false)

/-- The next deadline and whether the cap bound it (R161). -/
def State.nextDeadline (s : State) (r : Nat) : Nat × Bool :=
  let seeded := (s.liveSet r).filter fun sid => s.stabRd Reg.STAB_SEEDED Reg.LSTAB_SEEDED sid == 1
  let c := ceilDiv (clampN 50 100 (s.rd Reg.WHL_RND_QUO_COVER_PCT [r]) * seeded.length) 100
  let qs := sortAsc (seeded.map fun sid => s.stabRd Reg.STAB_Q Reg.LSTAB_Q sid)
  let now := s.rd Reg.WHL_RND_DLNOW_D [r]
  let target := match qs[c - 1]? with | some q => q + s.rd Reg.WHL_RND_DL_MARGIN_US [r] * 256 | none => now
  s.dlClamp r (if now ≤ target then target else roundDiv (63 * now + target) 64)

/-- FIRST (R163): the least max(0, m - 2d) over the eligible members that have not lapsed. -/
def State.nextFirst (s : State) (r : Nat) : Option Nat :=
  let ms := (s.members r).filter fun sid => s.eligible r sid && !s.lapsedNow r sid
  (sortAsc (ms.map fun sid => s.stabRd Reg.STAB_M Reg.LSTAB_M sid - 2 * s.stabRd Reg.STAB_D Reg.LSTAB_D sid)).head?

/-- t_k passes (R155, R161, R163): the deadline is fixed, FIRST is renewed, and the mailbag opens. -/
def State.openBag (s : State) (r n : Nat) : State :=
  let (d, clamp) := s.nextDeadline r
  let s := (s.wr Reg.WHL_RND_DLNOW_D [r] d).setFlag Reg.WHL_RND_DLNOW_CLAMP [r] clamp
  let s := if clamp then s.whlNotice r 0 d 0 else s
  let s := match s.nextFirst r with | some f => s.wr Reg.WHL_RND_FIRST_US [r] f | none => s
  let st := s.rndSt r
  let b : Mailbag := ⟨n, instantTime n (s.rndFps r), s.rd Reg.WHL_RND_DLNOW_D [r], clamp, none⟩
  (s.setRnd r { st with bags := st.bags ++ [b] }).closeCheck r n

/-! ### Changes of layout (R152, R153, R169) -/

/-- The CHECK of an active table (R151). -/
def State.membSeal (s : State) (r : Nat) : State :=
  s.wr Reg.WHL_MEMB_ACTIVE [r, 2047] (crc32c ((s.regBytes (Reg.WHL_MEMB_ACTIVE.off [r, 0]) 1025).take 4098))

/-- Copy the shadow table to the active table, with its CHECK (R151, R152). -/
def State.copyShadow (s : State) (r : Nat) : State :=
  let ws := s.listed (Reg.WHL_MEMB_SHADOW.off [r, 0]) (Reg.WHL_MEMB_SHADOW.off [r, 1025])
  let as := s.listed (Reg.WHL_MEMB_ACTIVE.off [r, 0]) (Reg.WHL_MEMB_ACTIVE.off [r, 1025])
  let d := Reg.WHL_MEMB_SHADOW.off [r, 0] - Reg.WHL_MEMB_ACTIVE.off [r, 0]
  let s := forEach (as.filter fun o => !ws.contains (o + d)) (fun o a => a.put 0xC10000 o 0#32) s
  let s := forEach ws (fun o a => a.put 0xC10000 (o - d) (a.word o)) s
  s.membSeal r

/-- CFGCNT of a Round's output counts a change of layout. -/
def State.cfgCount (s : State) (r : Nat) : State := s.inc Reg.WHL_RND_STAT_CFGCNT [r]

/-- An announced change takes effect (R152 step 3). -/
def State.applyCommit (s : State) (r : Nat) : State :=
  let s := (s.copyShadow r).cfgCount r
  let st := s.rndSt r
  let ms := s.members r
  let s := s.setRnd r { st with applyAt := none, barred := [], inelig := [], lapsed := st.lapsed.filter ms.contains
                                absent := st.absent.filter fun e => ms.contains e.1 }
  ((s.wr Reg.WHL_RND_COMMIT_STATUS [r] 2).showMembers r).whlNotice r 1 0 0

/-- The bits of RWL fields of the word at an offset. -/
def cfgMask (off : Nat) : Word := (fieldsAt off).foldl (fun k f => if f.acc = .rwl then k ||| f.mask else k) 0#32

/-- The bits whose change is a change of a Round's layout (R169, R301): RATE, SHAPE, OUT.IDCODE and TIME_BASE, and the overlay. -/
def layoutMask (r off : Nat) : Word :=
  if off = Reg.WHL_RND_CTL_RATE.off [r] then Reg.WHL_RND_CTL_RATE.mask
  else if off = Reg.WHL_RND_SHAPE_PHN.off [r] ∨ off = Reg.WHL_RND_OUT_IDCODE.off [r] ∨ off = Reg.WHL_RND_TB_TIME_BASE.off [r] ∨
      off = Reg.ALM_OVL_EN.off [r] then cfgMask off
  else 0#32

/-- Make a change of a Round's words; CFGCNT counts it if it changes the layout (R169). -/
def State.layoutChange (s : State) (r : Nat) (offs : List Nat) (f : State → State) : State :=
  let t := f s
  if offs.any fun o => s.word o &&& layoutMask r o != t.word o &&& layoutMask r o then t.cfgCount r else t

/-- The Round's instant of its rate that an instant of another rate is, if it is one. -/
def reInstant (old new n : Nat) : Option Nat := if n * new % old = 0 then some (n * new / old) else none

/-- RATE of a Round was changed from another rate (R148, R169): what is numbered by instants is numbered anew, and the mailbags of the new
rate's instants since the last one dispatched are open. A mailbag of an instant that both rates have stays as it is (log entry 130, DESIGN
CHOICE). -/
def State.rerate (s : State) (r old : Nat) : State :=
  let new := s.rndFps r
  if new = old then s
  else
    let st := s.rndSt r
    let keep := st.bags.filterMap fun b => (reInstant old new b.n).map fun n => { b with n := n }
    let s := s.setRnd r { st with last := st.last.map (· * new / old), bags := []
                                  closes := st.closes.filterMap fun c => (reInstant old new c.1).map fun n => (n, c.2)
                                  recs := st.recs.filterMap fun c => (reInstant old new c.1).map fun n => (n, c.2) }
    let from_ := match st.last, st.bags.head? with | some k, _ => k * new / old + 1 | none, some b => ceilDiv (b.n * new) old | none, none => 0
    let due := if st.last.isNone && st.bags.isEmpty then [] else (List.range (s.now * new / second + 1 - from_)).map (from_ + ·)
    (forEach (if s.processing && s.rndOn r then due else []) (fun n a => match keep.find? fun b => b.n == n with
      | some b => let st := a.rndSt r; a.setRnd r { st with bags := st.bags ++ [b] }
      | none => a.openBag r n) s).showMembers r

/-- RWL values written while the Round ran take effect at its boundary (R169, R301); a change of layout counts once. -/
def State.applyCfg (s : State) (r : Nat) : State :=
  let st := s.rndSt r
  let put (e : Nat × Word) (a : State) : State :=
    let w := (a.word e.1 &&& ~~~ cfgMask e.1) ||| (e.2 &&& cfgMask e.1)
    if e.1 < 0xB0000 then a.put 0x60000 e.1 w else a.put 0xB0000 e.1 w
  (s.layoutChange r (st.pendCfg.map (·.1)) fun s => (forEach st.pendCfg put s).setRnd r { st with pendCfg := [] }).rerate r (s.rndFps r)

/-- A mailbag boundary of a Round: pending values and announced changes. -/
def State.layoutBoundary (s : State) (r : Nat) : State :=
  let s := s.applyCfg r
  match (s.rndSt r).applyAt with
  | some t => if t ≤ s.now then s.applyCommit r else s
  | none => s

/-- Begin the announcing period (R152 step 2); in SERVICE it is 0 s. -/
def State.announce (s : State) (r : Nat) : State :=
  let p := if s.mode = .service then 0 else min 60 (s.rd Reg.WHL_RND_SHAPE_ANNOUNCE_S [r])
  let st := s.rndSt r
  (s.setRnd r { st with applyAt := some (s.now + p * second) }).wr Reg.WHL_RND_COMMIT_STATUS [r] 1

/-- Clear a SID's entry in one of a Round's membership tables. -/
def State.membErase (s : State) (f : Fld) (r sid : Nat) : State :=
  let off := f.off [r, sid / 16]
  let w := (s.word off).toNat
  s.put 0xC10000 off (BitVec.ofNat 32 (w - w / 4 ^ (sid % 16) % 4 * 4 ^ (sid % 16)))

/-- A stream's SID passes to another sender (R153): it is out of both tables of every Round at once, and where it was a member
the change of layout is announced, its block absent meanwhile. A commit that announces already carries it (log entry 62). -/
def State.membClear (s : State) (sid : Nat) : State :=
  let rs := (List.range 64).filter fun r => s.isMember r sid || s.membCode Reg.WHL_MEMB_SHADOW r sid != 0
  forEach rs (fun r a =>
    let was := a.isMember r sid
    let a := a.membErase Reg.WHL_MEMB_SHADOW r sid
    let a := if was then
        let st := a.rndSt r
        let a := ((a.membErase Reg.WHL_MEMB_ACTIVE r sid).membSeal r).setRnd r { st with barred := st.barred ++ [sid] }
        (if a.rd Reg.WHL_RND_COMMIT_STATUS [r] = 1 then a else a.announce r).showMembers r
      else a
    a.whlNotice r 4 sid 0) s

end Sys2Proof.Machine
end

