-- ==== Sys2Proof/Machine/Osc.lean ====
section
/-! DEFINITION. A group's update item (R237 to R271): quantities, samples, tracker, extraction, matching, forced lines,
automatic selection, the page, and the digest a pair compares. -/
namespace Sys2Proof.Machine

/-! ### Instants into the chains (R234, R235, R237, R240) -/

def State.gapMax (s : State) : Nat := max 1 (s.rd Reg.OSC_CTL_GAP_MAX [])
def State.useTest (s : State) : Bool := s.flag Reg.OSC_CTL_USE_TEST []

/-- A channel's quantity from letters of one instant, given the value before it. -/
def State.chValue (s : State) (g c : Nat) (ls : List Letter) (prev : Option Word) : Option Word :=
  quantity (s.rd Reg.CH_KIND [c]) (s.rd Reg.CH_IDX_A [c]) (s.rd Reg.CH_IDX_B [c]) (s.flag Reg.CH_MULT3 [c]) s.useTest
    (letterOf ls (s.rd Reg.CH_SID [c])) (letterOf ls (s.rd Reg.OSC_AG_REF_SID [g])) (s.rd Reg.OSC_AG_REF_PH_IDX [g]) prev

/-- A channel that its Round feeds (R235). -/
def State.fed (s : State) (r sid : Nat) : Bool := s.isMember r sid && s.eligible r sid

/-- The letters of a mailbag that a group's channels read: their own, and the reference's. -/
def State.grpLetters (s : State) (g : Nat) (ls : List Letter) : List Letter :=
  ls.filter fun l => (s.chansOf g).any (fun c => s.rd Reg.CH_SID [c] == l.sid) || (s.flag Reg.OSC_AG_REF_REF_EN [g] && s.rd Reg.OSC_AG_REF_SID [g] == l.sid)

/-- A channel reads a stream's letter: its own, or for KIND 3 the reference's. -/
def State.chReads (s : State) (g sid c : Nat) : Bool :=
  s.rd Reg.CH_SID [c] == sid || (s.rd Reg.CH_KIND [c] == 3 && s.rd Reg.OSC_AG_REF_SID [g] == sid)

/-- One instant into every chain of a group. -/
def State.grpPush (s : State) (g r : Nat) (ls : List Letter) (v : GrpSt) : GrpSt :=
  forEach (s.chansOf g) (fun c v =>
    let k := grpChain v c
    setGrpChain v c (chainPush k (s.chValue g c ls (k.line.head?.map (·.1))) (Config.heldFirst c) (s.fed r (s.rd Reg.CH_SID [c])) s.gapMax
      (lineLen (s.rndFps r)))) { v with lets := (s.grpLetters g ls :: v.lets).take (lineLen (s.rndFps r)) }

/-- One addendum into the delay lines (R240), and whether it was used. A KIND 3 channel needs two letters of the instant, so the
letters of the instants in the line are kept, and either may come late. -/
def State.grpAdd (s : State) (g r n : Nat) (l : Letter) (v : GrpSt) : GrpSt × Bool :=
  match s.gridInstant r l.sid (l.sec * fps l.rate + l.k) with
  | none => (v, false)
  | some m =>
    if n < m then (v, false)
    else
      let ls := l :: (v.lets.getD (n - m) []).filter fun x => x.sid != l.sid
      ((s.chansOf g).filter (s.chReads g l.sid)).foldl (fun a c =>
        let k := grpChain a.1 c
        match (if chainHeld k (n - m) then s.chValue g c ls (k.line[n - m + 1]?.map (·.1)) else none) with
        | some x => (setGrpChain a.1 c (chainPatch k (n - m) x), true)
        | none => a) ({ v with lets := v.lets.set (n - m) ls }, false)

/-- The addenda of a mailbag, and how many were used. -/
def State.grpAdds (s : State) (g r n : Nat) (adds : List Letter) (v : GrpSt) : GrpSt × Nat :=
  adds.foldl (fun a l => let (v, used) := s.grpAdd g r n l a.1; (v, if used then a.2 + 1 else a.2)) (v, 0)

/-! ### A decimated sample (R239 to R244, R246, R265) -/

def State.chNorm (s : State) (c : Nat) : Word := BitVec.ofNat 32 (s.rd Reg.CH_NORM [c])

/-- The decimated values of sample `j`: per channel, and whether it comes from good input. -/
def State.grpValues (s : State) (g r j : Nat) (v : GrpSt) : List (Nat × Word × Bool) :=
  (s.chansOf g).map fun c => let k := grpChain v c; (c, firOut (s.rndFps r) j (k.line.map (·.1)), k.miss == 0)

/-- Sample `j` into the chains' normalised histories, and into the slow band where it completes a slow sample. -/
def State.grpCentre (s : State) (j : Nat) (xs : List (Nat × Word × Bool)) (v : GrpSt) : GrpSt :=
  forEach xs (fun x v =>
    let k := chainSample (grpChain v x.1) x.2.1 (s.chNorm x.1)
    setGrpChain v x.1 (if slowAt j then chainSlow k else k)) v

/-- The rows of W that belong to stale channels, for a depth of 64. -/
def staleRows (st : List Bool) : List Bool := (List.replicate 64 st).flatten

/-- One sample into the group's trackers. -/
def State.grpTrack (s : State) (g j : Nat) (v : GrpSt) : GrpSt :=
  let st := v.seats.map (s.chStale v)
  let ks := v.seats.map (grpChain v)
  let v := { v with fast := bandUpdate s.fgtF (embed (ks.map (·.hist)) st 64) (staleRows st) v.fast }
  if s.flag Reg.OSC_AG_CFG_SLOW [g] ∧ slowAt j then
    { v with slowB := bandUpdate s.fgtS (embed (ks.map (·.slow)) st 64) (staleRows st) v.slowB }
  else v

/-- Does suspension hold (R246)? -/
def State.grpDark (s : State) (v : GrpSt) : Bool := decide (v.seats.length < 2 * (v.seats.filter (s.chStale v)).length)

/-- Suspension begins or ends (R246): a long one seeds both bands anew. -/
def State.grpSuspend (s : State) (g j : Nat) (v : GrpSt) : GrpSt :=
  match v.susp with
  | none => if s.grpDark v then { v with susp := some j } else v
  | some j0 =>
    if s.grpDark v then v
    else if j - j0 ≤ 2 ^ s.fgtF then { v with susp := none }
    else { v with susp := none, fast := s.seedFast g v.seats.length, slowB := s.seedSlow g v.seats.length }

/-- After a resumption with more than 2 s missing between the checkpoint's sample `j0` and the first new one, the fast band settles
again for one memory, and no sooner than its seeding asks for (R251, R271). -/
def State.grpResettle (s : State) (j0 : Option Nat) (j : Nat) (v : GrpSt) : GrpSt :=
  match j0 with
  | some j0 => if v.gap = 4 ∧ 50 < j - j0 then { v with fast := { v.fast with ready := max (2 * 2 ^ s.fgtF) (v.fast.n + 2 ^ s.fgtF) } } else v
  | none => v

/-! ### Extraction (R247 to R251) -/

/-- The epoch, in half seconds, at or before a sample. -/
def epochOf (j : Nat) : Nat := j * 2 / 25

/-- Samples of the seats by time, newest first. -/
def rowsOf (hs : List (List Word)) (n : Nat) : List (List Word) := (List.range n).map fun i => hs.map fun h => h.getD i F32.zero

/-- The candidates of one band with their figures. -/
def State.bandCands (s : State) (v : GrpSt) (slow : Bool) : Option (List ModeCand) :=
  let ks := v.seats.map (grpChain v)
  let rows := (List.range v.seats.length).filter fun i => !s.chMute v (v.seats.getD i 0)
  let norms := v.seats.map fun c => chainNorm (grpChain v c) (s.chNorm c)
  let hs := if slow then ks.map (·.slow) else ks.map (·.hist)
  let len := min (if slow then 64 else 256) ((hs.headD []).length)
  (extractBand slow v.seats.length rows (if slow then v.slowB else v.fast)).map fun cs => modeFigures cs rows (rowsOf hs len) norms

/-- A channel that is muted reads quiet NaN in a shape (R249, R265). -/
def State.muteShape (s : State) (v : GrpSt) (c : ModeCand) : ModeCand :=
  { c with shape := (c.shape.zip v.seats).map fun t => if s.chMute v t.2 then (F32.nan, F32.nan) else t.1 }

/-- Match candidates to slots; `skip` names a band that failed and keeps its slots. The counts are slots taken, slots freed and
candidates left over. -/
def State.matchSlots (s : State) (cs : List ModeCand) (skipFast skipSlow : Bool) (sec : Nat) (slots : List (Option ModeSlot)) :
    List (Option ModeSlot) × Nat × Nat × Nat :=
  let df := F32.ofRat (max 1 (s.rd Reg.OSC_MATCH_DF_MHZ [])) 1000
  let dz := F32.ofRat (max 1 (s.rd Reg.OSC_MATCH_DZ [])) 1000
  let drop := max 1 (s.rd Reg.OSC_MATCH_DROP [])
  let as := assignPairs df dz cs slots
  let after := slots.zipIdx.map fun t =>
    match t.1 with
    | none => none
    | some m =>
      match as.find? fun x => x.1 == t.2 with
      | some (_, i) => (cs[i]?).map fun c => slotTake c (min 255 (m.age + 1)) m.firstSec m.damps m.freqs
      | none => if (m.slow && skipSlow) || (!m.slow && skipFast) then some m
        else if drop ≤ m.miss + 1 then none else some { m with miss := m.miss + 1 }
  let freed := ((slots.zip after).filter fun t => t.1.isSome && t.2.isNone).length
  let left := sortBy (fun (a b : ModeCand) => F32.lt b.energy a.energy) ((cs.zipIdx.filter fun t => !as.any fun x => x.2 == t.2).map (·.1))
  let (after, taken, un) := left.foldl (fun (a : List (Option ModeSlot) × Nat × Nat) c =>
    match a.1.findIdx? Option.isNone with
    | some i => (a.1.set i (some (slotTake c 1 sec [] [])), a.2.1 + 1, a.2.2)
    | none => (a.1, a.2.1, a.2.2 + 1)) (after, 0, 0)
  (after, taken, freed, un)

/-- The extraction of modes at an epoch. -/
def State.extractModes (s : State) (g b : Nat) : State :=
  let v := s.grp g
  let slow := s.flag Reg.OSC_AG_CFG_SLOW [g]
  let cf := s.bandCands v false
  let cs := if slow then s.bandCands v true else some []
  let fails := (if cf.isNone then 1 else 0) + (if cs.isNone then 1 else 0)
  let all := sortBy (fun (a b : ModeCand) => F32.lt b.energy a.energy) (cf.getD [] ++ cs.getD [])
  let (slots, taken, freed, un) := s.matchSlots ((all.take (s.agModes g)).map (s.muteShape v)) cf.isNone cs.isNone (b / 2) v.slots
  let s := (s.setGrp g { v with slots := slots }).bump Reg.OSC_AG_EIGFAIL [g] fails |>.bump Reg.OSC_AG_UNPLACED [g] un
  let s := if taken = 0 then s else s.oscNotice g 2 taken 0
  if freed = 0 then s else s.oscNotice g 3 freed 0

/-! ### Forced lines (R254 to R257) -/

def State.foPersist (s : State) : Nat := clampN 1 60 (s.rd Reg.OSC_FO_PERSIST [])

/-- The lines after an epoch: updated, ended, and declared. A run is of epochs in a row: one that no extraction reached breaks it (log
entry 132, DEDUCED). A candidate that qualifies and is weaker than the four lines held goes on with its run. -/
def State.lineStep (s : State) (cs : List LineCand) (b : Nat) (v : GrpSt) : GrpSt × Nat × Nat :=
  let per := s.foPersist
  let pass := cs.filter fun c => F32.le c.env (F32.ofQ16 (s.rd Reg.OSC_FO_ENV []))
  let near (f : Word) : Option LineCand := pass.find? fun c => nearBins c.freq f 1 1
  -- active lines
  let upd := v.lines.map fun o => o.map fun l =>
    match near l.freq with
    | some c => { l with freq := c.freq, amp := c.amp, ratio := c.ratio, env := c.env, pos := c.pos, gone := 0 }
    | none => { l with gone := l.gone + 1 }
  let ends := upd.zipIdx.filterMap fun t => match t.1 with | some l => if per ≤ l.gone then some t.2 else none | none => none
  let kept := upd.map fun o => match o with | some l => if per ≤ l.gone then none else some l | none => none
  -- runs of candidates that are no line yet
  let fresh := pass.filter fun c => !kept.any fun o => match o with | some l => nearBins l.freq c.freq 1 1 | none => false
  let runs := fresh.map fun c =>
    match v.runs.find? fun r => nearBins r.freq c.freq 1 1 && r.start + r.count == b with
    | some r => { r with count := r.count + 1 }
    | none => ⟨c.freq, 1, b⟩
  let due := (runs.zip fresh).filter fun t => decide (per ≤ t.1.count)
  let fold := due.foldl (fun (a : List (Option FLine) × List Nat × List LineRun) t =>
    let l : FLine := ⟨t.2.freq, t.2.amp, t.2.ratio, t.2.env, t.2.pos, t.1.start, 0⟩
    match a.1.findIdx? Option.isNone with
    | some i => (a.1.set i (some l), a.2.1, a.2.2 ++ [t.1])
    | none =>
      let weak := a.1.zipIdx.foldl (fun (w : Nat × Word) u => match u.1 with | some x => if F32.lt x.ratio w.2 then (u.2, x.ratio) else w | none => w) (4, l.ratio)
      if weak.1 < 4 then (a.1.set weak.1 (some l), a.2.1 ++ [weak.1], a.2.2 ++ [t.1]) else a) (kept, ends, [])
  ({ v with lines := fold.1, ended := fold.2.1, runs := runs.filter fun r => !fold.2.2.contains r }, fold.2.2.length, fold.2.1.length)

/-- The forced-line stage of an epoch. -/
def State.forcedLines (s : State) (g b : Nat) : State :=
  let v := s.grp g
  let live := (List.range v.seats.length).filter fun i => !s.chStale v (v.seats.getD i 0)
  let us := live.map fun i => (i, (grpChain v (v.seats.getD i 0)).hist)
  let norms := v.seats.map fun c => chainNorm (grpChain v c) (s.chNorm c)
  let cs := lineCands us norms (F32.ofInt (max 2 (s.rd Reg.OSC_FO_RATIO [])))
  let (v, starts, ends) := s.lineStep cs b v
  let s := s.setGrp g v
  let s := if starts = 0 then s else s.oscNotice g 4 starts 0
  if ends = 0 then s else s.oscNotice g 5 ends 0

/-- The slot that an active line names (R257): the nearest occupied fast slot within 1.5 bins. -/
def lineSlot (slots : List (Option ModeSlot)) (l : FLine) : Option Nat :=
  (slots.zipIdx.foldl (fun (a : Option (Nat × Word)) t =>
    match t.1 with
    | some m =>
      let d := F32.abs (F32.sub m.freq l.freq)
      if m.slow || !nearBins m.freq l.freq 3 2 then a
      else match a with | some (_, e) => if F32.lt d e then some (t.2, d) else a | none => some (t.2, d)
    | none => a) none).map (·.1)

def slotForced (lines : List (Option FLine)) (m : ModeSlot) : Bool :=
  !m.slow && lines.any fun o => match o with | some l => nearBins m.freq l.freq 3 2 | none => false

/-! ### Automatic selection (R264, R265) -/

/-- The chosen channels, in order. -/
def State.autoChosen (s : State) (v : GrpSt) (ranked : List Nat) (seats : Nat) : List Nat :=
  let lim := F32.ofQ16 (s.rd Reg.OSC_AUTO_CORR_MAX [])
  ranked.foldl (fun a c => if a.length < seats ∧ a.all (fun k => F32.le (F32.abs (corrF (grpChain v c).hist (grpChain v k).hist)) lim)
    then a ++ [c] else a) []

/-- A slot's entry of a position becomes quiet NaN (R265). -/
def slotMuteAt (pos : Nat) (m : ModeSlot) : ModeSlot := { m with shape := m.shape.set pos (F32.nan, F32.nan) }

/-- Give a seat to another channel: its rows of W are cleared, W is made orthonormal again, and no slot keeps the departed channel's
entry. -/
def State.giveSeat (s : State) (h c : Nat) (v : GrpSt) : GrpSt :=
  let pos := v.seats.idxOf h
  let n := v.seats.length
  let wipe (b : Band) : Band := { b with w := mgs (b.w.zipIdx.map fun r => if r.2 % n = pos then r.1.map (fun _ => F32.zero) else r.1) }
  let k := grpChain v c
  let v := setGrpChain v c { k with settle := 2 ^ s.fgtF }
  { v with seats := v.seats.set pos c, fast := wipe v.fast, slowB := wipe v.slowB, slots := v.slots.map fun o => o.map (slotMuteAt pos) }

/-- One selection; the second part counts the swaps. -/
def State.autoSwaps (s : State) (g : Nat) (v : GrpSt) : GrpSt × Nat :=
  let rms (c : Nat) : Word := chainRms (grpChain v c)
  let before (a b : Nat) : Bool := F32.lt (rms b) (rms a) || (F32.feq (rms a) (rms b) && decide (a < b))
  let ranked := sortBy before ((s.chansOf g).filter fun c => !s.chStale v c)
  let chosen := s.autoChosen v ranked v.seats.length
  let lim := clampN 1 64 (s.rd Reg.OSC_AUTO_SWAPS [])
  let r := (chosen.filter fun c => !v.seats.contains c).foldl (fun (a : GrpSt × Nat × Bool) c =>
    let out := sortBy (fun x y => F32.lt (rms x) (rms y)) (a.1.seats.filter fun h => !chosen.contains h)
    match out with
    | [] => (a.1, a.2.1, true)
    | h :: _ => if a.2.2 ∨ lim ≤ a.2.1 then (a.1, a.2.1, true)
      else if F32.lt (F32.mul (F32.ofRat 5 4) (rms h)) (rms c) then (s.giveSeat h c a.1, a.2.1 + 1, false) else a) (v, 0, false)
  (r.1, r.2.1)

def State.autoSelect (s : State) (g b : Nat) : State :=
  let v := s.grp g
  if !s.flag Reg.OSC_AG_CFG_AUTO [g] ∨ b < v.autoAt + 2 * clampN 10 255 (s.rd Reg.OSC_AUTO_PERIOD_S []) then s
  else
    let (v, n) := s.autoSwaps g v
    let s := s.setGrp g { v with autoAt := b }
    if n = 0 then s else (s.bump Reg.OSC_AG_SWAPS [g] n).oscNotice g 7 n 0

/-! ### The page (R266 to R268) -/

/-- The words of a LINE entry (R267). -/
def lineWords (slots : List (Option ModeSlot)) (ended : Bool) (o : Option FLine) : List Word :=
  match o with
  | none => BitVec.ofNat 32 (bitN ended 30) :: List.replicate 7 0#32
  | some l => [BitVec.ofNat 32 (2 ^ 31 + bitN ended 30 + l.pos * 2 ^ 16 + (lineSlot slots l).getD 0xFF), l.freq, l.amp, l.ratio, l.env,
      BitVec.ofNat 32 (l.start / 2), BitVec.ofNat 32 (l.start % 2 * 500000000), 0#32]

def spread (age : Nat) (xs : List Word) : Word := if age < 2 then F32.nan else F32.sqrt (varianceF xs)

def State.modeWords (s : State) (v : GrpSt) (o : Option ModeSlot) : List Word :=
  match o with
  | none => List.replicate 16 0#32
  | some m =>
    let settling := if m.slow then s.slowSettling v else s.fastSettling v
    [BitVec.ofNat 32 (2 ^ 31 + bitN settling 30 + bitN (slotForced v.lines m) 29 + bitN m.slow 28 + bitN v.susp.isSome 27 +
        bitN (decide (0 < v.gap)) 26 + m.age * 2 ^ 16 + m.ref * 2 ^ 8 + min 255 m.miss),
      m.freq, m.damp, m.amp, spread m.age m.damps, spread m.age m.freqs, m.energy, m.sigma, BitVec.ofNat 32 m.firstSec] ++ List.replicate 7 0#32

def shapeWords (o : Option ModeSlot) : List Word :=
  (List.range 64).flatMap fun i => match o with
    | some m => (match m.shape[i]? with | some z => [z.1, z.2] | none => [F32.nan, F32.nan])
    | none => [F32.nan, F32.nan]

/-- The words of a page from 0x0000 to 0x12FF, but for SEQ and CHECK. -/
def State.pageBody (s : State) (g b : Nat) : List Word :=
  let v := s.grp g
  let stale := (v.seats.filter (s.chStale v)).length
  let st := s.grpState g v * 2 ^ 28 + bitN (s.flag Reg.GLB_MODE_TEST []) 27 + bitN (s.flag Reg.OSC_AG_CFG_SLOW [g]) 26 +
    v.seats.length % 256 * 2 ^ 16 + stale * 2 ^ 8 + (v.slots.filter Option.isSome).length
  let mask := (v.seats.zipIdx.map fun t => if s.chStale v t.1 then 0 else 2 ^ t.2).sum
  let head := [0, b / 2, b % 2 * 500000000, st, v.fast.n, v.slowB.n, mask, mask / 2 ^ 32].map (BitVec.ofNat 32) ++ List.replicate 8 0#32
  let slots := v.slots ++ List.replicate (8 - v.slots.length) none
  let lines := v.lines.zipIdx.flatMap fun t => lineWords v.slots (v.ended.contains t.2) t.1
  head ++ lines ++ List.replicate 16 0#32 ++ slots.flatMap (s.modeWords v) ++ slots.flatMap shapeWords

/-- Publish a group's page for an epoch, and offer it (R266, R268). -/
def State.publish (s : State) (g b : Nat) : State :=
  let seq := (s.rd Reg.OSC_AG_SEQ [g] + 2) % 2 ^ 32
  let ws := s.pageBody g b
  let crc := crc32c (((ws.take 15).drop 1 ++ ws.drop 16).flatMap wordBytes)
  let ws := (ws.set 0 (BitVec.ofNat 32 seq)).set 15 (BitVec.ofNat 32 crc)
  let s := forEach ws.zipIdx (fun t a => a.put 0xD40000 (0xD40000 + 0x2000 * g + 4 * t.2) t.1) s
  let s := (s.wr Reg.OSC_AG_SEQ [g] seq).inc Reg.OSC_STAT_EXTRACTS []
  let s : State := { s with osc := { s.osc with pages := sset s.osc.pages g (((b, ws) :: sget s.osc.pages g []).take 8) } }
  let s := s.oscNotice g 0 0 0
  s.offer 10 64 g (0x4800 + g) (fun sel => sel == 0 || sel == g + 1) (ws.flatMap wordBytes) none

/-! ### The update item (R237, R247) -/

/-- An epoch that the item reaches: extraction, lines, selection, page, checkpoint and digest. -/
def State.epochRun (s : State) (g b : Nat) : State :=
  let s := s.extractModes g b
  let s := s.forcedLines g b
  let s := s.autoSelect g b
  let s := (s.showGrp g).publish g b
  let v := s.grp g
  let s := (s.setGrp g { v with gap := v.gap - 1, ended := [] }).checkpoint g
  if s.activeRole then s.plkSend (.digest false g b (s.grpCrc g)) else s.digestReached false g b (s.grpCrc g)

/-- Epochs that no item passed. -/
def State.missEpochs (s : State) (g n : Nat) : State :=
  if n = 0 then s else ((s.bump Reg.OSC_AG_MISSED [g] n).bump Reg.OSC_MISS_COUNT [] n).oscNotice g 9 n 0

/-- A suspension that began in an item is shown in the page of the last epoch that the item reached: the entries keep their values
with HELD (R246; log entry 132, DEDUCED). -/
def State.holdPage (s : State) (g b : Nat) : State := (s.showGrp g).publish g b

/-- The epoch that a decimated sample passes, `v` being the group as the sample finds it. The extraction uses the samples before the
epoch, and its checkpoint holds the epoch. `last` is the last epoch that this item reaches. -/
def State.passEpoch (s : State) (g j last : Nat) (v : GrpSt) : State :=
  let e := epochOf j
  let first := v.lastJ.isNone
  let was := v.epoch
  let s := s.setGrp g (if first ∨ e = last then { v with epoch := max was e } else v)
  if first ∨ e ≤ was ∨ e ≠ last then s
  else
    let s := s.missEpochs g (e - was - 1)
    if v.susp.isSome then s else s.epochRun g e

/-- A decimated sample joins those since the checkpoint (R421). -/
def State.keepRecent (s : State) (g : Nat) (x : DecSample) : State :=
  { s with osc := { s.osc with recent := sset s.osc.recent g (sget s.osc.recent g [] ++ [x]) } }

/-- The channels that fell STALE with a sample are noticed (R274); `old` are those that were. -/
def State.noticeStale (s : State) (g : Nat) (old : List Nat) : State :=
  let new := (s.chansOf g).filter fun c => s.chStale (s.grp g) c && !old.contains c
  if new.isEmpty then s else s.oscNotice g 6 (new.headD 0) new.length

/-- A decimated sample enters the chains and, unless the group is suspended, the trackers. -/
def State.trackSample (s : State) (g j : Nat) (xs : List (Nat × Word × Bool)) : State :=
  let v := s.grpSuspend g j (s.grpCentre j xs (s.grp g))
  let v := if v.susp.isSome then v else s.grpTrack g j v
  let s := s.setGrp g { v with lastJ := some j }
  forEach (s.chansOf g) (fun c a => a.wr Reg.CH_RMS [c] (chainRms (grpChain (s.grp g) c)).toNat) s

/-- One decimated sample joins the trackers. -/
def State.grpSample (s : State) (g r j : Nat) : State :=
  let xs := s.grpValues g r j (s.grp g)
  ((s.keepRecent g ⟨j, xs⟩).trackSample g j xs).showGrp g

/-- One instant of a group (R237, R247): the epoch that its sample passes, with a checkpoint from which this instant is still to
come (R270); then the chains, the addenda where the instant is the item's own, and the sample. `last` is the last epoch that the
item reaches. -/
def State.grpInstant (s : State) (g r m last : Nat) (own : Bool) (ls adds : List Letter) : State :=
  let at_ := sampleOf (s.rndFps r) m
  let s := match at_ with | some j => s.passEpoch g j last (s.grp g) | none => s
  let old := (s.chansOf g).filter fun c => s.chStale (s.grp g) c
  let v := s.grpPush g r (if own then ls else []) (s.grp g)
  let (v, used) := if own then s.grpAdds g r m adds v else (v, 0)
  let s := (s.setGrp g { v with lastN := some m }).bump Reg.OSC_AG_ADD_USED [g] used
  (match at_ with | some j => s.grpSample g r j | none => s).noticeStale g old

/-- The instants an item brings: its own, and before it those that no item brought. -/
def instantsSince (last : Option Nat) (n : Nat) : List Nat :=
  match last with
  | none => [n]
  | some m => (List.range (n - m)).map fun i => m + 1 + i

/-- One group update item (R237). -/
def State.grpItem (s : State) (g r n : Nat) (ls adds : List Letter) : State :=
  let v := s.grp g
  let ms := instantsSince v.lastN n
  let js := ms.filterMap (sampleOf (s.rndFps r))
  let last := epochOf (js.getLastD 0)
  let first := (sampleOf (s.rndFps r) n).getD (js.getLastD 0 + 1)
  let s := forEach ms (fun m a =>
    (if m = n then a.setGrp g (a.grpResettle v.lastJ first (a.grp g)) else a).grpInstant g r m last (decide (m = n)) ls adds) s
  if (s.grp g).susp.isSome ∧ v.susp.isNone then s.holdPage g last else s.showGrp g

def execGroupUpdate (g : Fin 256) (t : Time) (s : State) : Res :=
  let s := s.advance t
  match s.nextRun (0x4800 + g.val) (fun w => match w with | .group _ _ _ _ _ _ => true | _ => false) with
  | some i =>
    (match i.work with
     | .group _ r n ls adds _ =>
       .next (if i.serving && s.grpsOn.contains g.val then (s.grpItem g r n ls adds).markRan i.key else if i.serving then s.markRan i.key else s)
     | _ => .next s)
  | none => .next s

end Sys2Proof.Machine
end

