-- ==== Sys2Proof/Machine/Isl.lean ====
section
/-! DEFINITION. Islanding (R276 to R288): the coherency tracker, clustering and its application, tie statuses, and the
separation test of a mailbag. -/
namespace Sys2Proof.Machine

/-! ### Sites and the tracker (R276 to R278) -/

def State.islRnd (s : State) : Nat := s.rd Reg.ISL_CTL_RND []
def State.islUseTest (s : State) : Bool := s.flag Reg.ISL_CTL_USE_TEST []

/-- A site's letter in a mailbag, where the site is present (R276). -/
def State.siteLetter (s : State) (i : Nat) (ls : List Letter) : Option Letter :=
  (letterOf ls (s.rd Reg.SITE_SID [i])).filter fun l => F32.isFinite l.freq && F32.isFinite l.rocof && statOk s.islUseTest l

def trkChain (v : IslTrk) (i : Nat) : Chain := sget v.chains i chain0
def setTrkChain (v : IslTrk) (i : Nat) (k : Chain) : IslTrk := { v with chains := sset v.chains i k }

/-- A site is STALE: by its inputs, or while its automatic norm is not seeded (R241, R276). -/
def siteStale (k : Chain) : Bool := k.stale || k.unfed || decide (k.powN < 25)

/-- One instant into every site's chain. -/
def State.trkPush (s : State) (r : Nat) (ls : List Letter) (v : IslTrk) : IslTrk :=
  forEach s.sites (fun i v =>
    setTrkChain v i (chainPush (trkChain v i) ((s.siteLetter i ls).map (·.freq)) (Config.heldFirst (4096 + i))
      (s.fed r (s.rd Reg.SITE_SID [i])) (max 1 (s.rd Reg.ISL_CTL_GAP_MAX [])) (lineLen (s.rndFps r)))) v

/-- One decimated sample of all sites: deviations from the lower median, centred, normalised, and into the tracker. The median is
over the sites whose inputs are not STALE, whether or not their norm is seeded yet (log entry 86); over no site it is free. -/
def State.trkSample (s : State) (r j : Nat) (v : IslTrk) : IslTrk :=
  let ss := s.sites
  let f (i : Nat) : Word := firOut (s.rndFps r) j ((trkChain v i).line.map (·.1))
  let live := ss.filter fun i => !((trkChain v i).stale || (trkChain v i).unfed)
  let med := if live.isEmpty then Config.noMedian j else lowerMedian (live.map f)
  let v := forEach ss (fun i a => setTrkChain a i (chainSample (trkChain a i) (F32.sub (f i) med) F32.zero)) v
  let st := ss.map fun i => siteStale (trkChain v i)
  let x := (ss.zip st).map fun t => if t.2 then F32.zero else (trkChain v t.1).hist.getD 0 F32.zero
  { v with band := bandUpdate s.islFgt x st v.band, lastJ := some j }

def State.setTrk (s : State) (v : IslTrk) : State := { s with isl := { s.isl with trk := v } }

/-- Show the tracker: STALE of the sites, and settled once it has taken its samples (R278). -/
def State.showTrk (s : State) : State :=
  let s := forEach s.sites (fun i a => a.setFlag Reg.SITE_STALE [i] (siteStale (trkChain a.isl.trk i))) s
  if s.rd Reg.ISL_STAT_STATE [] = 1 ∧ bandSettling s.islFgt s.isl.trk.band = false then ((s.wr Reg.ISL_STAT_STATE [] 2).notice bISL 9 0 0 0).islAlarm else s

/-- One tracker item (R277): the mailbag's instant, and before it those that no item brought. -/
def State.islItem (s : State) (n : Nat) (ls : List Letter) : State :=
  let r := s.islRnd
  forEach (instantsSince s.isl.trk.lastN n) (fun m a =>
    let v := { a.trkPush r (if m = n then ls else []) a.isl.trk with lastN := some m }
    (a.setTrk (match sampleOf (a.rndFps r) m with | some j => a.trkSample r j v | none => v)).showTrk) s

def execCoherencyUpdate (t : Time) (s : State) : Res :=
  let s := s.advance t
  match s.nextRun 0x5001 (fun w => match w with | .coherency _ _ _ => true | _ => false) with
  | some i =>
    (match i.work with
     | .coherency n ls _ => .next (if i.serving then (s.islItem n ls).markRan i.key else s)
     | _ => .next s)
  | none => .next s

/-! ### Clustering (R279, R280) -/

/-- Centroids by label, rising. -/
abbrev Cents := List (Nat × List Word)

/-- A vector over its norm. -/
def unit (v : List Word) : List Word := let n := normF v; v.map fun x => F32.div x n

/-- The sum of vectors of a length. -/
def vecSum (p : Nat) (vs : List (List Word)) : List Word := (List.range p).map fun k => sumF (vs.map fun v => v.getD k F32.zero)

/-- The label of the centroid nearest to a direction, the lower label among equals; none below the least cosine. -/
def nearest (cs : Cents) (least : Word) (e : List Word) : Option Nat :=
  match cs.foldl (fun (a : Option (Nat × Word)) c =>
      let d := dotF e c.2
      match a with | some b => if F32.lt b.2 d then some (c.1, d) else a | none => some (c.1, d)) none with
  | some (c, d) => if F32.lt d least then none else some c
  | none => none

/-- Points with their directions, and each point's label or none. -/
abbrev Labels := List (Nat × Option Nat)

/-- The centroids of a labelling; a label that no point has keeps none. -/
def centsOf (p : Nat) (pts : List (Nat × List Word)) (a : Labels) : Cents :=
  let used := (List.range 64).filter fun c => a.any fun x => x.2 == some c && pts.any fun q => q.1 == x.1
  used.map fun c => (c, unit (vecSum p ((pts.filter fun q => a.any fun x => x.1 == q.1 && x.2 == some c).map (·.2))))

/-- Merge each pair of near centroids into the lower label, which then points along the sum of its points. -/
def mergeCents (p : Nat) (pts : List (Nat × List Word)) (least : Word) (a : Labels) (cs : Cents) : Labels × Cents :=
  cs.foldl (fun (acc : Labels × Cents) c =>
    match acc.2.find? fun k => F32.le least (dotF k.2 c.2) with
    | none => (acc.1, acc.2 ++ [c])
    | some k =>
      let a := acc.1.map fun x => if x.2 = some c.1 then (x.1, some k.1) else x
      let v := unit (vecSum p ((pts.filter fun q => a.any fun x => x.1 == q.1 && x.2 == some k.1).map (·.2)))
      (a, acc.2.map fun m => if m.1 = k.1 then (k.1, v) else m)) (a, [])

/-- What a clustering works with: directions of the points with their rms, pinned sites with their groups, rank, settings. -/
structure ClustIn where
  pts : List (Nat × List Word)
  rms : List (Nat × Word)
  pins : List (Nat × Nat)
  rank : Nat
  assignMin : Word
  merge : Word
  minSites : Nat

/-- One of the eight iterations. -/
def clusterIter (x : ClustIn) (it : Nat) (cs : Cents) : Labels × Cents :=
  let a : Labels := (x.pts.filter fun q => !x.pins.any fun k => k.1 == q.1).map (fun q => (q.1, nearest cs x.assignMin q.2))
  let a := a ++ x.pins.map fun k => (k.1, some k.2)
  let cs := centsOf x.rank x.pts a
  if it ≤ 4 then
    let (a, cs) := mergeCents x.rank x.pts x.merge a cs
    let u := x.pts.filter fun q => !a.any fun y => y.1 == q.1 && y.2.isSome
    let free := (List.range 64).find? fun c => !cs.any (fun k => k.1 == c) && !x.pins.any fun k => k.2 == c
    let top := u.foldl (fun (b : Option (Nat × Word × List Word)) q =>
      let r := sget x.rms q.1 F32.zero
      match b with | some y => if F32.lt y.2.1 r then some (q.1, r, q.2) else b | none => some (q.1, r, q.2)) none
    match free, top with
    | some c, some t => if x.minSites ≤ u.length then (a, sput cs c t.2.2) else (a, cs)
    | _, _ => (a, cs)
  else (a, cs)

/-- The eight iterations from the applied centroids, and the labels that are too small removed. -/
def cluster (x : ClustIn) (cs : Cents) : Labels × Cents :=
  let r := (List.range 8).foldl (fun (acc : Labels × Cents) i => clusterIter x (i + 1) acc.2) ([], cs)
  let small (c : Nat) : Bool := !(x.pins.any fun k => k.2 == c) && decide ((r.1.filter fun y => y.2 == some c).length < x.minSites)
  (r.1.map fun y => (y.1, y.2.filter fun c => !small c), r.2.filter fun c => !small c.1)

def State.minSites (s : State) : Nat := max 2 (s.rd Reg.ISL_COH_MIN_SITES [])

def State.pinned (s : State) : List (Nat × Nat) := (s.sites.filter fun i => s.flag Reg.SITE_PIN [i]).map fun i => (i, s.rd Reg.SITE_PIN_CG [i])

/-- What the clustering of this moment works with. -/
def State.clustIn (s : State) : ClustIn :=
  let v := s.isl.trk
  let rows := s.sites.zip v.band.w
  let least := F32.mul (F32.ofRat 1 10) (medianF (rows.map fun r => normF r.2))
  let pts := rows.filter fun r => !siteStale (trkChain v r.1) && F32.le least (normF r.2)
  ⟨pts.map fun r => (r.1, unit r.2), pts.map fun r => (r.1, F32.sqrt (trkChain v r.1).pow), s.pinned, v.band.pm.length,
    F32.ofQ16 (s.rd Reg.ISL_COH_THR_ASSIGN_MIN []), F32.ofQ16 (s.rd Reg.ISL_COH_THR_MERGE []), s.minSites⟩

/-- A cosine in uQ0.16. -/
def cosQ16 (w : Word) : Nat := (clampI 0 65535 (F32.toScaled w 65536)).toNat

/-- The assignments that a clustering gives. While the tracker settles only pinned sites are grouped, beside those of a
clustering kept over a warm start (R278, R306). -/
def State.clustered (s : State) : List (Nat × (Nat × Nat)) × Cents :=
  if s.rd Reg.ISL_STAT_STATE [] = 2 then
    let x := s.clustIn
    let (a, cs) := cluster x s.isl.trk.cents
    (a.filterMap fun y => y.2.map fun c =>
      (y.1, (c, match x.pts.find? (fun q => q.1 == y.1), cs.find? (fun k => k.1 == c) with
        | some q, some k => cosQ16 (dotF q.2 k.2)
        | _, _ => 0)), cs)
  else
    let kept := if s.isl.trk.cents.isEmpty then [] else s.sites.filter fun i => s.flag Reg.SITE_ASSIGNED [i] && !s.flag Reg.SITE_PIN [i]
    (kept.map (fun i => (i, (s.rd Reg.SITE_CG [i], s.rd Reg.SITE_COS [i]))) ++ s.pinned.map (fun k => (k.1, (k.2, 0))), s.isl.trk.cents)

/-- A clustering completes (R280): it awaits the next boundary, and placement uses it at once. -/
def State.clusterRun (s : State) : State :=
  let r := s.clustered
  ({ s with isl := { s.isl with done := some r, coh := some (r.1.map fun x => (x.1, x.2.1)) } } : State).inc Reg.ISL_CLUST_COUNT []

def execClustering (t : Time) (s : State) : Res :=
  let s := s.advance t
  match s.nextRun 0x5002 (fun w => match w with | .clustering => true | _ => false) with
  | some i => .next (if i.serving then s.clusterRun.markRan i.key else s)
  | none => .next s

/-! ### Groups in use (R280) -/

/-- The sites of a group. -/
def State.groupSites (s : State) (g : Nat) : List Nat := s.sites.filter fun i => s.flag Reg.SITE_ASSIGNED [i] && s.rd Reg.SITE_CG [i] == g

/-- The ties that bound a group: exactly one of their sites is assigned to it (R284). -/
def State.bounding (s : State) (g : Nat) : List Nat :=
  let inside (i : Nat) : Bool := s.flag Reg.SITE_ASSIGNED [i] && s.rd Reg.SITE_CG [i] == g
  s.ties.filter fun t => inside (s.rd Reg.TIE_SITE_A [t]) != inside (s.rd Reg.TIE_SITE_B [t])

def State.tiesOpen (s : State) (g : Nat) : Nat := ((s.bounding g).filter fun t => s.rd Reg.TIE_STATUS [t] == 2).length

def State.bkrOpen (s : State) (g : Nat) : Bool := decide (0 < (s.bounding g).length ∧ s.tiesOpen g = (s.bounding g).length)

/-- ISL_STAT as the groups stand. -/
def State.showIsl (s : State) : State :=
  let gs := s.groups
  (s.setFlag Reg.ISL_STAT_FROZEN [] s.islFrozen).wr Reg.ISL_STAT_GROUPS [] gs.length
    |>.wr Reg.ISL_STAT_ISLANDS [] (gs.filter fun g => [3, 4].contains (s.rd Reg.CG_STATE [g])).length

def State.setCg (s : State) (g : Nat) (v : CgSt) : State := { s with isl := { s.isl with cgs := sset s.isl.cgs g v } }
def State.cg (s : State) (g : Nat) : CgSt := sget s.isl.cgs g ⟨0, 0⟩

/-- A group enters a state at an instant. -/
def State.cgEnter (s : State) (g st : Nat) (tk : Time) : State :=
  (s.wr Reg.CG_STATE [g] st).wr Reg.CG_SINCE_SEC [g] (secOf tk) |>.wr Reg.CG_SINCE_NS [g] (nsOf tk)

/-- The words of a group's entry that its sites and ties decide. -/
def State.cgCount (s : State) (g : Nat) : State :=
  s.wr Reg.CG_SITES [g] (s.groupSites g).length |>.setFlag Reg.CG_PINNED [g] ((s.groupSites g).any fun i => s.flag Reg.SITE_PIN [i])
    |>.wr Reg.CG_TIES [g] (s.bounding g).length |>.wr Reg.CG_TIES_OPEN [g] (s.tiesOpen g) |>.setFlag Reg.CG_BKR_OPEN [g] (s.bkrOpen g)

/-- The words an islanding digest covers: the tracker (R420), in the model's own order. -/
def trkWords (v : IslTrk) : List Word := v.chains.flatMap (fun c => natWord c.1 :: chainWords c.2) ++ bandWords v.band ++
  [natWord (v.lastN.getD 0), natWord (v.lastJ.getD 0)] ++ v.cents.flatMap fun c => natWord c.1 :: c.2

/-- The most recent complete clustering is applied at a mailbag boundary, unless some group is deciding or separated (R280).
ISL_CLUST_SEC shows the second of device time at that boundary (log entry 88). -/
def State.applyClustering (s : State) (tk : Time) (pm : Nat) : State :=
  match s.isl.done with
  | none => s
  | some (a, cs) =>
    if s.islFrozen then s
    else
      let old := s.groups
      let new := (List.range 64).filter fun c => a.any fun x => x.2.1 == c
      let s : State := { s with isl := { s.isl with done := none, trk := { s.isl.trk with cents := cs } } }
      let s := s.inc Reg.ISL_GSEQ_SEQ []
      let s := forEach s.sites (fun i st => match a.find? fun x => x.1 == i with
        | some x => (st.setFlag Reg.SITE_ASSIGNED [i] true).wr Reg.SITE_CG [i] x.2.1 |>.wr Reg.SITE_COS [i] x.2.2
        | none => (st.setFlag Reg.SITE_ASSIGNED [i] false).wr Reg.SITE_CG [i] 0 |>.wr Reg.SITE_COS [i] 0) s
      let s := forEach (old.filter fun g => !new.contains g) (fun g st =>
        let st : State := { st with isl := { st.isl with cgs := serase st.isl.cgs g } }
        forEach (List.range 16) (fun k z => z.put 0xFB8000 (Reg.CG_VALID.off [g] + 4 * k) 0#32) st) s
      let s := forEach (new.filter fun g => !old.contains g) (fun g st => (st.setFlag Reg.CG_VALID [g] true).cgEnter g 1 tk) s
      let s := (forEach new (fun g st => st.cgCount g) s).inc Reg.ISL_GSEQ_SEQ []
      let s := ((s.wr Reg.ISL_CLUST_SEC_SEC [] (secOf s.now)).showIsl.notice bISL 0 0 0 0).islRec 8 0 pm
      let s := if old = new then s else s.notice bISL 1 new.length 0 0
      if s.activeRole then s.plkSend (.digest true 0 (s.rd Reg.ISL_CLUST_COUNT []) (wordsCrc (trkWords s.isl.trk)))
      else s.digestReached true 0 (s.rd Reg.ISL_CLUST_COUNT []) (wordsCrc (trkWords s.isl.trk))

/-! ### The separation test (R282 to R287) -/

/-- The status of a tie from a mailbag (R284). -/
def State.tieRead (s : State) (t : Nat) (ls : List Letter) (pm : Nat) : State :=
  let was := s.rd Reg.TIE_STATUS [t]
  let s := match (letterOf ls (s.rd Reg.TIE_SID [t])).filter (statOk s.islUseTest) with
    | some l =>
      let w := s.rd Reg.TIE_WORD [t]
      let v := (if w < l.dgn then l.dg.getD w 0 else 0) / 2 ^ s.rd Reg.TIE_BIT [t] % 2
      (s.wr Reg.TIE_STATUS [t] (if v = s.rd Reg.TIE_OPEN_IS_1 [t] then 2 else 1)).wr Reg.TIE_AGE_RI [t] 0
    | none => s.tieAged t
  s.tieTold t was pm

/-- The quorum of a group (R282). -/
def State.cgQuorum (s : State) (g : Nat) : Nat :=
  max 1 (ceilDiv (clampN 1 100 (s.rd Reg.ISL_SEP_Q_PCT []) * s.rd Reg.CG_SITES [g]) 100)

def State.hasQuorum (s : State) (g : Nat) : Bool := decide (s.cgQuorum g ≤ s.rd Reg.CG_PRESENT [g])

/-- A group's figures from the mailbag: presence, medians, ties. The medians of no present site are free: the spec states none. -/
def State.cgMeasure (s : State) (g : Nat) (ls : List Letter) : State :=
  let here := (s.groupSites g).filterMap fun i => s.siteLetter i ls
  let s := (s.cgCount g).wr Reg.CG_PRESENT [g] here.length
  let (k, s) := s.draw
  let (l, s) := s.draw
  let f := if here.isEmpty then Config.freeWord k else lowerMedian (here.map (·.freq))
  let r := if here.isEmpty then Config.freeWord l else lowerMedian (here.map (·.rocof))
  let s := (s.wr Reg.CG_F [g] f.toNat).wr Reg.CG_R [g] r.toNat
  s.setCg g { s.cg g with empty := if here.isEmpty then (s.cg g).empty + 1 else 0 }

/-- The weighted lower median of the groups' values (R282): value, label, weight; ascending, ties to the lower label. -/
def weightedMedian (xs : List (Word × Nat × Nat)) : Option Word :=
  let ys := sortBy (fun (a b : Word × Nat × Nat) => F32.lt a.1 b.1 || (F32.feq a.1 b.1 && decide (a.2.1 < b.2.1))) xs
  let tot := (ys.map (·.2.2)).sum
  (ys.foldl (fun (acc : Nat × Option Word) y =>
    let c := acc.1 + y.2.2
    (c, if acc.2.isSome then acc.2 else if tot ≤ 2 * c then some y.1 else none)) (0, none)).2

/-- The reference of a figure over the groups in state joined or candidate that have their quorum. -/
def State.reference (s : State) (f : Fld) : Option Word :=
  weightedMedian ((s.groups.filter fun g => [1, 2].contains (s.rd Reg.CG_STATE [g]) && s.hasQuorum g).map
    fun g => (BitVec.ofNat 32 (s.rd f [g]), g, s.rd Reg.CG_PRESENT [g]))

def State.dfLimit (s : State) : Word := F32.ofRat (clampN 10 4095 (s.rd Reg.ISL_SEP_DF_MHZ [])) 1000
def State.drLimit (s : State) : Word := F32.ofRat (clampN 10 4095 (s.rd Reg.ISL_SEP_DR [])) 100

/-- Write DF and DR against the reference; free where there is none, since the spec states none. -/
def State.cgDiffs (s : State) (fr rr : Option Word) (g : Nat) : State :=
  let (k, s) := s.draw
  let (l, s) := s.draw
  let d (f : Fld) (free : Nat) (x : Option Word) : Nat :=
    (match x with | some y => F32.sub (BitVec.ofNat 32 (s.rd f [g])) y | none => Config.freeWord free).toNat
  (s.wr Reg.CG_DF [g] (d Reg.CG_F k fr)).wr Reg.CG_DR [g] (d Reg.CG_R l rr)

def State.cgAbs (s : State) (f : Fld) (g : Nat) : Word := F32.abs (BitVec.ofNat 32 (s.rd f [g]))

/-- A group shows separation (R282). -/
def State.showsSep (s : State) (g : Nat) : Bool :=
  s.hasQuorum g && (F32.le s.dfLimit (s.cgAbs Reg.CG_DF g) || F32.le s.drLimit (s.cgAbs Reg.CG_DR g))

/-- The conditions of rejoining in one mailbag (R286); with no reference there is nothing to rejoin. -/
def State.rejoins (s : State) (ref : Bool) (g : Nat) : Bool :=
  let h (w : Word) : Word := F32.div w (F32.ofInt 2)
  ref && s.hasQuorum g && F32.lt (s.cgAbs Reg.CG_DF g) (h s.dfLimit) && F32.lt (s.cgAbs Reg.CG_DR g) (h s.drLimit) && s.tiesOpen g == 0

/-- An island or dark island is declared (R283, R285). -/
def State.declare (s : State) (g st : Nat) (tk : Time) (pm : Nat) : State :=
  let s := ((s.cgEnter g st tk).setFlag Reg.CG_CONFIRMED [g] (s.bkrOpen g)).wr Reg.CG_COUNT [g] 0
  ((s.inc Reg.ISL_DECL_COUNT []).showIsl.notice bISL st g 0 0).islRec st g pm

/-- The state of a group by the mailbag of instant count `k` (R283, R286). -/
def State.sepState (s : State) (ref : Bool) (k : Nat) (tk : Time) (pm g : Nat) : State :=
  let st := s.rd Reg.CG_STATE [g]
  if st = 1 then
    if s.showsSep g then
      (((s.cgEnter g 2 tk).setCg g { s.cg g with first := k }).showIsl.notice bISL 2 g 0 0).islRec 1 g pm
    else s
  else if st = 2 then
    if s.showsSep g && (!s.flag Reg.ISL_CTL_CONFIRM [] || s.bkrOpen g) then s.declare g 3 tk pm
    else if (s.cg g).first + 2 ≤ k then ((s.cgEnter g 1 tk).inc Reg.ISL_DROPPED_COUNT []).showIsl.islRec 2 g pm
    else s
  else if st = 3 ∨ st = 4 then
    let c := if s.rejoins ref g then min 65535 (s.rd Reg.CG_COUNT [g] + 1) else 0
    let s := s.wr Reg.CG_COUNT [g] c
    if max 1 (s.rd Reg.ISL_REJ_REJOIN_RI []) ≤ c then (((s.cgEnter g 1 tk).wr Reg.CG_COUNT [g] 0).showIsl.notice bISL 5 g 0 0).islRec 5 g pm else s
  else if st = 5 ∧ s.hasQuorum g = true then (s.cgEnter g 1 tk).showIsl.islRec 7 g pm
  else s

/-- A group that is empty (R285). -/
def State.darkCheck (s : State) (tk : Time) (pm g : Nat) : State :=
  let st := s.rd Reg.CG_STATE [g]
  let dark := (st == 1 && decide (2 ≤ (s.cg g).empty)) || (st == 5 && s.rd Reg.CG_PRESENT [g] == 0)
  if !dark then s
  else if s.bkrOpen g then s.declare g 4 tk pm
  else if st = 1 then ((s.cgEnter g 5 tk).showIsl.notice bISL 6 g 0 0).islRec 6 g pm
  else s

/-- One separation item (R282 to R288). -/
def State.sepItem (s : State) (n : Nat) (ls : List Letter) (tk : Time) : State :=
  let r := s.islRnd
  let pm := s.rndMark r n
  let s := forEach s.ties (fun t a => a.tieRead t ls pm) s
  let s := forEach s.sites (fun i a => a.setFlag Reg.SITE_PRESENT [i] (a.siteLetter i ls).isSome) s
  let s := s.inc Reg.ISL_GSEQ_SEQ []
  let s := forEach s.groups (fun g a => a.cgMeasure g ls) s
  let fr := s.reference Reg.CG_F
  let rr := s.reference Reg.CG_R
  let s := forEach s.groups (fun g a => a.cgDiffs fr rr g) s
  let s := forEach s.groups (fun g a => (a.sepState fr.isSome n tk pm g).darkCheck tk pm g) s
  let s : State := { s with isl := { s.isl with tested := some n } }
  ((s.inc Reg.ISL_GSEQ_SEQ []).inc Reg.ISL_TESTED_COUNT []).showIsl

def execSeparation (t : Time) (s : State) : Res :=
  let s := s.advance t
  match s.nextRun 0x5000 (fun w => match w with | .separation _ _ _ => true | _ => false) with
  | some i =>
    (match i.work with
     | .separation n ls tk => .next (if i.serving then (s.sepItem n ls tk).markRan i.key else s)
     | _ => .next s)
  | none => .next s

end Sys2Proof.Machine
end

