-- ==== Sys2Proof/Machine/Alarm.lean ====
section
/-! DEFINITION. Alarm machines (R290 to R295) and the rows of alarm egress (R295 to R300). -/
namespace Sys2Proof.Machine

/-! ### Definitions (R290, R295) -/

/-- A machine is defined: VALID, and its CHECK passes over bytes 0x00 to 0x0B and 0x10 to 0xFF. -/
def State.amOk (s : State) (m : Nat) : Bool :=
  let o := Reg.AM_VALID.off [m]
  s.flag Reg.AM_VALID [m] && s.rd Reg.AM_CHECK [m] == crc32c (s.regBytes o 3 ++ s.regBytes (o + 16) 60)

def am0 : AmSt := ⟨0, 0, false⟩
def State.am (s : State) (m : Nat) : AmSt := sget s.alm.ams m am0
def State.setAm (s : State) (m : Nat) (v : AmSt) : State := { s with alm := { s.alm with ams := sset s.alm.ams m v } }

/-- A machine rests in S0 with its outputs at 0. -/
def State.amRest (s : State) (m : Nat) : State :=
  s.wr Reg.AMR_STATE [m] 0 |>.wr Reg.AMR_OUT [m] 0 |>.setFlag Reg.AMR_ACK_PEND [m] false |>.setFlag Reg.AMR_TEST_ENTRY [m] false
    |>.wr Reg.AMR_ENTRY_SEC [m] (secOf s.now) |>.wr Reg.AMR_ENTRY_NS [m] (nsOf s.now)

/-- Judge a machine's definition: one whose CHECK fails rests and is noticed; one whose clock Round is off drives nothing. -/
def State.amCheck (s : State) (m : Nat) : State :=
  let ok := s.amOk m
  let on := ok && s.flag Reg.ALM_CTL_EN [] && s.rndOn (s.rd Reg.AM_RND [m])
  let was := s.flag Reg.AMR_RUN [m]
  let s := s.setFlag Reg.AMR_RUN [m] on
  if !ok then
    let bad := (s.am m).bad
    let s := (s.amRest m).setAm m { am0 with entry := s.now, bad := s.flag Reg.AM_VALID [m] }
    if s.flag Reg.AM_VALID [m] && !bad then s.notice bALM 5 m 0 0 else s
  else
    let s := if (s.am m).bad then (s.amRest m).setAm m { am0 with entry := s.now } else s
    if !s.rndOn (s.rd Reg.AM_RND [m]) then
      let s := s.wr Reg.AMR_OUT [m] 0
      if was then s.logEvent bALM 8 m (s.rd Reg.AM_RND [m]) 0 else s
    else s

/-- The machines with something in their definition. -/
def State.amListed (s : State) : List Nat := (List.range 1024).filter (s.entries 0xF60000 256 1024).contains

/-- Judge every machine, and show what their outputs then drive. -/
def State.checkMachines (s : State) : State := (forEach s.amListed (fun m a => a.amCheck m) s).stdPublish

/-! ### Inputs (R291 to R293) -/

def boolF (b : Bool) : Word := if b then F32.one else F32.zero

/-- A field of a letter (R291, SRC 1). Fields that the table does not list have no value. -/
def letterField (l : Letter) (f : Nat) : Option Word :=
  let dig (w : Nat) : Nat := if w < l.dgn then l.dg.getD w 0 else 0
  if f = 0 then some l.freq
  else if f = 1 then some l.rocof
  else if f < 34 then (let p := if f - 2 < l.phn then phasorAt l (f - 2) else (F32.zero, F32.zero); some (F32.hypot p.1 p.2))
  else if f < 50 then some (if f - 34 < l.ann then l.an.getD (f - 34) F32.zero else F32.zero)
  else if f < 58 then some (F32.ofInt (dig (f - 50)))
  else if 64 ≤ f ∧ f < 192 then some (F32.ofInt (dig ((f - 64) / 16) / 2 ^ ((f - 64) % 16) % 2))
  else none

/-- SRC 1: a letter of the clock Round's mailbag. -/
def State.inLetter (s : State) (rnd : Nat) (ls : List Letter) (sel : Nat) : Option Word :=
  let sid := sel / 256 % 2 ^ 15
  let f := sel % 256
  if !s.isMember rnd sid then none
  else if f = 192 then some (boolF (letterOf ls sid).isSome)
  else match letterOf ls sid with
    | none => none
    | some l => if statOk s.useTest l then (letterField l f).filter F32.isFinite else none

/-- The page that inputs read (R293): of the latest published epoch at or before t_k − 1 s, unless that is earlier than
t_k − 2 s or its STATE is not 2. -/
def State.inPage (s : State) (g : Nat) (tk : Time) : Option (List Word) :=
  match (sget s.osc.pages g []).find? fun p => decide (p.1 * (second / 2) + second ≤ tk) with
  | none => none
  | some p =>
    if p.1 * (second / 2) + 2 * second < tk ∨ (p.2.getD 3 0#32).toNat / 2 ^ 28 ≠ 2 then none else some p.2

/-- SRC 3: a slot of the mode table. Its flags are VALID 31, SETTLING 30, FORCED 29, HELD 27, GAP 26. -/
def pageMode (ws : List Word) (sel : Nat) : Option Word :=
  let f := sel % 16
  let w (k i : Nat) : Word := ws.getD (64 + 16 * k + i) 0#32
  let bit (k i : Nat) : Bool := (w k 0).getLsbD i
  let ok (k : Nat) : Bool := bit k 31 && !bit k 30 && !bit k 27 && !bit k 26 && !((f == 1 || f == 4) && bit k 29)
  let slot := sel / 4096 % 16
  let k := if slot = 15 then
      (((List.range 8).filter ok).foldl (fun (a : Option Nat) k => match a with
        | some j => if F32.lt (w k 2) (w j 2) then some k else a | none => some k) none)
    else if slot < 8 ∧ ok slot = true then some slot else none
  match k with
  | none => none
  | some k => if f < 5 then some (w k (nth [1, 2, 3, 6, 4] f 1)) else none

/-- SRC 4: a forced line. With "any" and no active line the other fields have no stated value, and `free` stands for it. -/
def pageLine (free : Word) (ws : List Word) (sel : Nat) : Option Word :=
  let f := sel % 16
  let w (l i : Nat) : Word := ws.getD (16 + 8 * l + i) 0#32
  let act (l : Nat) : Bool := (w l 0).getLsbD 31
  let val (l : Nat) : Option Word := if f = 0 then some (boolF (act l)) else if f < 4 then some (w l (nth [0, 2, 1, 3] f 1)) else none
  let line := sel / 4096 % 16
  if line < 4 then val line
  else if line = 15 then
    let on := (List.range 4).filter act
    let top := on.foldl (fun (a : Option Nat) l => match a with | some j => if F32.lt (w j 3) (w l 3) then some l else a | none => some l) none
    if f = 0 then some (boolF (!on.isEmpty)) else match top with | some l => val l | none => if f < 4 then some free else none
  else none

/-- SRC 5: islanding results. A machine of another Round reads those of the latest tested mailbag. -/
def State.inIsl (s : State) (rnd n sel : Nat) : Option Word :=
  let f := sel % 16
  if s.rd Reg.ISL_STAT_STATE [] ≠ 2 ∨ s.isl.tested.isNone ∨ (rnd = s.islRnd ∧ s.isl.tested ≠ some n) then none
  else
    let gs := if sel / 2 ^ 14 % 2 = 1 then s.groups else s.groups.filter (· == sel / 256 % 64)
    let st (g : Nat) : Nat := s.rd Reg.CG_STATE [g]
    let num (g : Nat) : Word := if f = 4 then BitVec.ofNat 32 (s.rd Reg.CG_DF [g]) else if f = 5 then BitVec.ofNat 32 (s.rd Reg.CG_DR [g])
      else F32.div (F32.ofInt (s.rd Reg.CG_PRESENT [g])) (F32.ofInt (s.rd Reg.CG_SITES [g]))
    if f = 0 then some (boolF (gs.any fun g => st g == 3 || st g == 4))
    else if f = 1 then some (boolF (gs.any fun g => st g == 2))
    else if f = 2 then some (boolF (gs.any fun g => st g == 4))
    else if f = 3 then some (boolF (gs.any fun g => s.flag Reg.CG_BKR_OPEN [g]))
    else if f < 7 then ((gs.map num).filter fun x => !F32.isNaN x).foldl (fun (a : Option Word) x => match a with
      | some y => if F32.lt (F32.abs y) (F32.abs x) then some x else a | none => some x) none
    else none

/-- SRC 7: a machine's output before the dispatch of Round `rnd` at instant `n`: before its first step for that dispatch or a later one
of the Round, if it has made one. -/
def State.inOut (s : State) (rnd n sel : Nat) : Word :=
  let m := sel / 256 % 1024
  let later := (sget s.alm.prevOut m []).filter fun p => p.1 == rnd && decide (n ≤ p.2.1)
  let o := match later.getLast? with | some p => p.2.2 | none => s.rd Reg.AMR_OUT [m]
  boolF (o / 2 ^ (sel % 8) % 2 == 1)

/-- The level at a GPIO ball (R595, R596): what the device drives, the last-gasp rule first; else the outside world's, which
is free. -/
def State.gpioLevel (s : State) (free : Nat) (p : Nat) : Bool :=
  if s.log.gpioSeal && s.rd Reg.LOG_CFG_GASP_PIN [] == p then s.flag Reg.LOG_CFG_GASP_LEVEL []
  else if s.flag Reg.PWR_TRIP_EN [] && s.flag Reg.PWR_THERM_CRIT [] && s.rd Reg.PWR_TRIP_PIN [] == p then s.flag Reg.PWR_TRIP_LEVEL []
  else Config.freeBool free

/-- SRC 8: a supply event in progress (R364). -/
def State.inSupply (s : State) (sel : Nat) : Word :=
  let p := sel / 16 % 2
  let v := [Reg.NRG_PT_DIR_SAG, Reg.NRG_PT_DIR_SWELL, Reg.NRG_PT_DIR_INTR].map fun f => s.flag f [p]
  boolF (if sel % 4 = 3 then v.any fun b => b else v.getD (sel % 4) false)

/-- The value of an input; none where it is unknown (R291). `free` numbers the free value it may need. -/
def State.inValue (s : State) (free rnd n : Nat) (ls : List Letter) (tk : Time) (src sel : Nat) : Option Word :=
  if src = 1 then s.inLetter rnd ls sel
  else if src = 3 then (s.inPage (sel / 2 ^ 16 % 256) tk).bind fun ws => pageMode ws sel
  else if src = 4 then (s.inPage (sel / 2 ^ 16 % 256) tk).bind fun ws => pageLine (Config.freeWord free) ws sel
  else if src = 5 then s.inIsl rnd n sel
  else if src = 6 then some (boolF (s.rd Reg.ALM_STD_ACTIVE [] / 2 ^ (sel % 16) % 2 == 1))
  else if src = 7 then some (s.inOut rnd n sel)
  else if src = 8 then some (s.inSupply sel)
  else if src = 9 then some (boolF (s.gpioLevel free (sel % 16)))
  else (let u := s.uncNow; if u = 2 ^ 32 - 1 then none else some (F32.ofRat u 1000))

/-- The sources that the table lists, apart from none. -/
def srcListed (src : Nat) : Bool := [1, 3, 4, 5, 6, 7, 8, 9, 10].contains src

/-- The boolean of an input after a known value (R292). -/
def cmpNext (cmp : Nat) (b : Bool) (x hi lo : Word) : Bool :=
  if cmp = 1 then
    let lo := if F32.lt lo hi then hi else lo
    if F32.le x hi then true else if F32.lt lo x then false else b
  else if cmp = 3 then !F32.feq x F32.zero
  else
    let x := if cmp = 2 then F32.abs x else x
    let lo := if F32.lt hi lo then hi else lo
    if F32.le hi x then true else if F32.lt x lo then false else b

/-- One input's boolean, and whether it was unknown. -/
def State.inBool (s : State) (m rnd n : Nat) (ls : List Letter) (tk : Time) (i : Nat) (b : Bool) : Bool × Bool :=
  let src := s.rd Reg.AM_IN_SRC [m, i]
  if !srcListed src then (false, false)
  else
    match s.inValue (s.free + i) rnd n ls tk src (s.rd Reg.AM_IN_SEL [m, i]) with
    | some x => (cmpNext (s.rd Reg.AM_IN_CMP [m, i]) b x (BitVec.ofNat 32 (s.rd Reg.AM_IN_SET [m, i])) (BitVec.ofNat 32 (s.rd Reg.AM_IN_CLR [m, i])), false)
    | none =>
      let u := s.rd Reg.AM_IN_UNK [m, i]
      (if u = 1 then false else if u = 2 then true else b, true)

/-! ### The step (R294) -/

/-- NEXT and DWELL of a state and an input vector: byte 0x80 + 16 s + v of the definition, its low 4 bits (R290). -/
def State.amEntry (s : State) (m st v : Nat) : Nat :=
  let f := match v % 4 with | 0 => Reg.AM_NEXT0 | 1 => Reg.AM_NEXT1 | 2 => Reg.AM_NEXT2 | _ => Reg.AM_NEXT3
  s.rd f [m, 4 * st + v / 4]

/-- The next state and whether an acknowledgement made the move. -/
def State.amNext (s : State) (m v : Nat) (tk : Time) : Nat × Bool :=
  let st := s.rd Reg.AMR_STATE [m]
  if s.flag Reg.AM_ST_LATCH [m, st] then
    if s.flag Reg.AMR_ACK_PEND [m] then (s.rd Reg.AM_ST_ACK_NEXT [m, st], true) else (st, false)
  else
    let e := s.amEntry m st v
    let dwell := min 86400000 (s.rd Reg.AM_ST_DWELL_MS [m, st])
    if e / 8 % 2 = 1 ∧ tk < (s.am m).entry + dwell * msU then (st, false) else (e % 8, false)

/-- Collect the publications whose range a change touches, under the instant of the deciding mailbag (R299). -/
def State.collect (s : State) (qs : List Nat) (rnd n : Nat) (tk : Time) : State :=
  forEach qs (fun q a =>
    let p := sget a.alm.pubs q pub0
    let e := (rnd, n, tk)
    if p.due.contains e then a else { a with alm := { a.alm with pubs := sset a.alm.pubs q { p with due := p.due ++ [e] } } }) s

/-- The last step of a dispatch sends what the dispatch changed, one message per publication (R299); standard alarms 6 and 9 may change
with that, and their alarm bits follow (R296, R297). -/
def State.pubFlush (s : State) (rnd n : Nat) : State :=
  if s.sof.items.any fun i => !i.ran && (match i.work with | .machine _ r k _ _ => r == rnd && k == n | _ => false) then s
  else
    let mine (e : Nat × Nat × Time) : Bool := e.1 == rnd && e.2.1 == n
    let qs := (List.range 16).filter fun q => (sget s.alm.pubs q pub0).due.any mine
    let s := forEach qs (fun q a =>
      let p := sget a.alm.pubs q pub0
      match p.due.find? mine with
      | some e =>
        let a : State := { a with alm := { a.alm with pubs := sset a.alm.pubs q { p with due := p.due.filter fun x => !mine x } } }
        a.pubRound [q] e.2.2 false
      | none => a) s
    if qs.isEmpty then s else s.stdPublish

/-- A step of a machine: its output before it is kept while a step of the Round's dispatches up to it is still to come. -/
def State.keepOut (s : State) (m rnd n : Nat) : State :=
  let due (p : Nat × Nat × Nat) : Bool := s.sof.items.any fun i =>
    !i.ran && (match i.work with | .machine _ r k _ _ => r == p.1 && decide (k ≤ p.2.1) | _ => false)
  let ps := ((rnd, n, s.rd Reg.AMR_OUT [m]) :: sget s.alm.prevOut m []).filter due
  { s with alm := { s.alm with prevOut := sset s.alm.prevOut m ps } }

/-- One step of a machine on the mailbag of a Round. -/
def State.amStep (s : State) (m rnd n : Nat) (ls : List Letter) (tk : Time) : State :=
  let old := s.am m
  let bs := (List.range 4).map fun i => s.inBool m rnd n ls tk i (old.b / 2 ^ i % 2 == 1)
  let v := (bs.zipIdx.map fun t => bitN t.1.1 t.2).sum
  let unk := (bs.zipIdx.map fun t => bitN t.1.2 t.2).sum
  let st := s.rd Reg.AMR_STATE [m]
  let (nx, ack) := s.amNext m v tk
  let moved := nx != st
  let s := s.keepOut m rnd n
  let s : State := { s with free := s.free + 4 }
  let s := s.setAm m { old with b := v, entry := if moved then tk else old.entry }
  let s := if ack then s.setFlag Reg.AMR_ACK_PEND [m] false else s
  let s := (s.wr Reg.AMR_INPUTS [m] v).wr Reg.AMR_UNKNOWN [m] unk |>.inc Reg.AMR_STEPS [m] |>.wr Reg.AMR_STATE [m] nx
  let s := if moved then (s.wr Reg.AMR_ENTRY_SEC [m] (secOf tk)).wr Reg.AMR_ENTRY_NS [m] (nsOf tk) |>.inc Reg.AMR_CHANGES [m]
      |>.setFlag Reg.AMR_TEST_ENTRY [m] (s.flag Reg.GLB_MODE_TEST []) else s
  let inh := s.flag Reg.AMR_INHIBIT [m]
  let s := s.wr Reg.AMR_OUT [m] (if inh then 0 else s.rd Reg.AM_ST_OUT [m, nx])
  let s := if ack then s.notice bALM 3 m 0 0 else s
  let s := if moved then
      let pm := s.rndMark rnd n
      let before := s.srcShed 2
      let s := s.notice bALM 0 m st nx
      let s := if s.flag Reg.AM_ST_LATCH [m, nx] then s.notice bALM 2 m nx 0 else s
      (s.alarmRec m st nx (bitN (s.flag Reg.GLB_MODE_TEST []) 0 + bitN ack 1 + bitN inh 2) (s.rd Reg.AM_ST_SEV [m, nx])
        (v + 16 * unk) (s.rd Reg.AMR_OUT [m]) pm rnd).shedMark before
    else s
  let (s, qs) := ({ s with alm := { s.alm with pinsWait := false } } : State).showAlarms
  s.collect qs rnd n tk

def execMachineStep (m : Fin 1024) (t : Time) (s : State) : Res :=
  let s := s.advance t
  match s.nextRun (0x4C00 + m.val) (fun w => match w with | .machine _ _ _ _ _ => true | _ => false) with
  | some i =>
    (match i.work with
     | .machine _ r n ls tk =>
       .next (if i.serving then
           (let old := match i.slot with | some x => s.pair.oldSlots.contains x | none => false
            let s : State := { s with pair := { s.pair with emitNow := old && s.holding, muteNow := old && s.activeRole } }
            let s := ((if s.flag Reg.AMR_RUN [m.val] then s.amStep m r n ls tk else s).markRan i.key).pubFlush r n
            { s with pair := { s.pair with emitNow := false, muteNow := false } }) else s)
     | _ => .next s)
  | none => .next s

/-! ### Acknowledgement, retransmission, standard alarms in time, pins (R295, R296, R298, R299) -/

/-- A write of ALM_ACK (R295). The acknowledgement's record names no mailbag: its POSTMARK is free (R302). -/
def State.ackWrite (s : State) (w : Word) : State :=
  let m := w.toNat % 1024
  let st := s.rd Reg.AMR_STATE [m]
  let s := s.setWord (Reg.ALM_ACK_AM.off []) (storedWord (Reg.ALM_ACK_AM.off []) false (s.word (Reg.ALM_ACK_AM.off [])) w)
  if !s.amOk m then s.wr Reg.ALM_ACK_STATUS [] 3
  else if s.flag Reg.AM_ST_LATCH [m, st] then
    let (k, s) := s.draw
    let before := s.srcShed 2
    (((s.setFlag Reg.AMR_ACK_PEND [m] true).wr Reg.ALM_ACK_STATUS [] 1).alarmRec m st st
      (bitN (s.flag Reg.GLB_MODE_TEST []) 0 + bitN (s.flag Reg.AMR_INHIBIT [m]) 2) (s.rd Reg.AM_ST_SEV [m, st])
      (s.rd Reg.AMR_INPUTS [m] + 16 * s.rd Reg.AMR_UNKNOWN [m]) (s.rd Reg.AMR_OUT [m]) (Config.freeNat k) (s.rd Reg.AM_RND [m])).shedMark before
  else s.wr Reg.ALM_ACK_STATUS [] 2

def execAlmAck (w : Word) (s : State) : Res := .next (s.hostGate (Reg.ALM_ACK_AM.off []) w fun a => a.ackWrite w)

/-- The next message of a publication's schedule (R299): its sqNum counts and its interval doubles up to T0. -/
def State.pubRepeat (s : State) (q : Nat) : State :=
  let p := sget s.alm.pubs q pub0
  let wait := if p.wait = 0 then s.pubT0 q else min (2 * p.wait) (s.pubT0 q)
  let s : State := { s with alm := { s.alm with pubs := sset s.alm.pubs q { p with wait := wait, next := s.now + wait * msU } } }
  let (s, ok) := (s.wr Reg.ALM_PUB_SQNUM [q] (wrapOne (s.rd Reg.ALM_PUB_SQNUM [q]))).pubSend q false
  let s : State := { s with alm := { s.alm with refused := if ok then s.alm.refused.filter (· != q) else (s.alm.refused ++ [q]).eraseDups } }
  s.stdAlarm 6 (!s.alm.refused.isEmpty)

def execGooseRetransmit (q : Fin 16) (t : Time) (s : State) : Res :=
  let s := s.advance t
  .next (if s.processing && s.flag Reg.ALM_PUB_CFG_EN [q.val] && decide ((sget s.alm.pubs q.val pub0).next ≤ s.now) then s.pubRepeat q
    else s)

/-- 10 s without a franking failure, or without a shed of an alarm record (R296): the alarm is over. -/
def execStdAlarmExpiry (code : Fin 16) (t : Time) (s : State) : Res :=
  let s := s.advance t
  let due := decide (sget s.alm.stdAt code.val 0 + 10 * second ≤ s.now)
  .next (if (code.val = 1 ∨ code.val = 9) ∧ due = true then s.stdAlarm code false else s)

def execAlarmPinMinw (p : Fin 8) (t : Time) (s : State) : Res :=
  let s := s.advance t
  .next (if s.now < sget s.alm.pins p.val 0 then s
    else
      let s : State := { s with alm := { s.alm with pins := serase s.alm.pins p } }
      s.drivePins)

/-- ALM_OE_N changes (R298, R312). A row that repeats the level says nothing new. -/
def execAlmOeNChange (level : Bool) (s : State) : Res :=
  if s.alm.oeN = level then .next s
  else
    let s : State := { s with alm := { s.alm with oeN := level } }
    .next ((s.setFlag Reg.ALM_PIN_STAT_OE [] (!level)).notice bALM 6 (if level then 1 else 0) 0 0).drivePins

end Sys2Proof.Machine
end

