-- ==== Sys2Proof/Machine/Letterbox.lean ====
section
/-! DEFINITION. Running a letterbox command (R216, R217): its fields, its checks, and its answer. -/
namespace Sys2Proof.Machine

/-- The fields of a command's 64 bytes. -/
def cmdOf (cmd : List Byte) : LbCmd :=
  { flags := leAt cmd 2 2, tag := leAt cmd 4 4, addr := leAt cmd 8 8, len := leAt cmd 16 4
    param := (List.range 11).map fun i => leAt cmd (20 + 4 * i) 4 }

/-- What running a command leaves: a completion, its completion owed by an engine, or the command waits. -/
inductive LbAns where
  | done (status len : Nat) (result : List Byte)
  | engine
  | wait
  deriving DecidableEq, Repr

/-- The completion of an item in service is settled; empty bytes stand for one that an engine owes. -/
def State.lbSettle (s : State) (i : Item) (m : Nat) (cmd res : List Byte) : State :=
  s.mapItems fun x => if x.key == i.key then { x with ran := true, work := .letterbox m cmd (some res) } else x

/-- Run a command of a ring: the one in service on the ring's flow, if it is this one. Reserved bits set complete with
STATUS 2 (R217). -/
def State.lbRun (s : State) (m target op : Nat) (c : LbCmd) (f : List Byte → State → State × LbAns) : State :=
  match s.nextRun (lbFlow m) fun w => match w with | .letterbox _ _ none => true | _ => false with
  | none => s
  | some i =>
    match i.work with
    | .letterbox _ cmd none =>
      if i.serving ∧ leAt cmd 0 1 = target ∧ leAt cmd 1 1 = op ∧ cmdOf cmd = c then
        if 2 ≤ c.flags then (s.lbBad m).lbSettle i m cmd (completionBytes cmd 2 0 [])
        else
          match f cmd s with
          | (a, .done status len result) => a.lbSettle i m cmd (completionBytes cmd status len result)
          | (a, .engine) => a.lbSettle i m cmd []
          | (_, .wait) => s
      else s
    | _ => s

/-! ### The journal (R471 to R474) -/

/-- The owner of a record: 1 the settings store, 2 the Strongroom. -/
def JRec.owner : JRec → Nat
  | .settings _ _ _ _ => 1
  | .key _ _ _ _ _ _ => 2

/-- An owner has at most one record that is not closed; its next transaction waits (R473). -/
def State.journalBusy (s : State) (o : Nat) : Bool := s.nvs.jrn.any fun r => r.owner == o

/-- A record stays open: its command was cut off. -/
def State.leaveOpen (s : State) (r : JRec) : State := { s with nvs := { s.nvs with jrn := s.nvs.jrn ++ [r] } }

/-- A transaction that is closed, or left open, has taken a journal SEQ. -/
def State.nextJournal (s : State) : State := { s with nvs := { s.nvs with jseq := (s.nvs.jseq + 1) % 2 ^ 32 } }

/-- A parameter word of a command. -/
def lbW (c : LbCmd) (i : Nat) : Nat := nth c.param i 0

/-- The row NOP (R216). -/
def execLbNop (m : Fin 16) (c : LbCmd) (_b : HostBuf) (target : Nat) (s : State) : Res :=
  .next (if target ≤ 0x16 then s.lbRun m.val target 0 c fun _ a => (a, .done 0 0 []) else s)

end Sys2Proof.Machine
end

