-- ==== Sys2Proof/Machine/Descriptors.lean ====
section
/-! DEFINITION. Format descriptors (R109 to R114): reading and writing them, building them from configuration frames, and
turning a block of a data frame into the values of a letter. Octet layouts of C37.118.2 frames are log entry 23. -/
namespace Sys2Proof.Machine

/-! ### A descriptor as 64 words (R113) -/

/-- A field of a descriptor held as its 64 words; `i` is the index of a scale or a digital unit. -/
def dget (ws : List Word) (f : Fld) (i : Nat) : Nat := f.get (ws.getD ((f.base - 0x800000) / 4 + i) 0#32)

def dput (ws : List Word) (f : Fld) (i v : Nat) : List Word :=
  let k := (f.base - 0x800000) / 4 + i
  ws.set k (f.put (ws.getD k 0#32) v)

/-- CHECK: a CRC-32C over bytes 0x00 to 0x1B and 0x20 to 0xFF (R113). -/
def descCheck (ws : List Word) : Nat := crc32c ((ws.take 7 ++ ws.drop 8).flatMap wordBytes)

/-- CHECK passes. -/
def descSound (ws : List Word) : Bool := dget ws Reg.DESC_CHECK 0 == descCheck ws

/-- A usable descriptor: VALID with a CHECK that passes. -/
def descOk (ws : List Word) : Bool := dget ws Reg.DESC_VALID 0 == 1 && descSound ws

/-- The current descriptor of a SID. -/
def State.desc (s : State) (sid : Nat) : List Word := (List.range 64).map fun i => s.word (0x800000 + 256 * sid + 4 * i)

def State.putDesc (s : State) (sid : Nat) (ws : List Word) : State :=
  forEach (List.range 64) (fun i a => a.put 0x800000 (0x800000 + 256 * sid + 4 * i) (ws.getD i 0#32)) s

/-- The candidate of a SID. -/
def State.cand (s : State) (sid : Nat) : Option Cand := s.adm.cands.find? fun c => c.sid == sid

def State.dropCand (s : State) (sid : Nat) : State :=
  ({ s with adm := { s.adm with cands := s.adm.cands.filter fun c => c.sid != sid } } : State).wr Reg.STAB_CAND [sid] 0

/-- TIME_BASE of a descriptor; for 90-5, 16,777,216 is held as 0. -/
def descTimeBase (ws : List Word) : Nat :=
  let t := dget ws Reg.DESC_TIME_BASE 0
  if t = 0 ∧ dget ws Reg.DESC_KIND 0 ≠ 0 then 16777216 else t

/-- Show what the stream table gives of the current descriptor (R139). -/
def State.showDesc (s : State) (sid : Nat) (ws : List Word) : State :=
  s.wr Reg.STAB_CFGCNT [sid] (dget ws Reg.DESC_CFGCNT 0) |>.wr Reg.STAB_BLK [sid] (dget ws Reg.DESC_BLK 0)
    |>.wr Reg.STAB_RATE [sid] (dget ws Reg.DESC_RATE 0) |>.wr Reg.STAB_GEN [sid] (dget ws Reg.DESC_GEN 0)

/-- Members of Rounds are checked anew for eligibility after a descriptor change (R150). -/
def State.clearInelig (s : State) (sid : Nat) : State :=
  forEach s.whl.rnds (fun e a => a.setRnd e.1 { a.rndSt e.1 with inelig := (a.rndSt e.1).inelig.filter (· != sid) }) s

/-- A stream's rate may have changed: the Rounds that name it judge it anew, and a member may have become ineligible, or eligible (R150,
R180). -/
def State.streamJudged (s : State) (sid : Nat) : State := forEach (s.rndsNaming sid) (fun r a => a.showMembers r) (s.clearInelig sid)

/-- The counts of a stream's block as its configuration frame gave them, while its descriptor is of that frame (log entry 67). -/
def State.setCounts (s : State) (sid : Nat) (c : Option (Nat × Nat × Nat)) : State :=
  let rest := serase s.adm.shapes sid
  { s with adm := { s.adm with shapes := match c with | some n => sset rest sid n | none => rest } }

/-- Put a descriptor of a configuration frame into force (R109, R113); GEN counts a replacement. -/
def State.useDesc (s : State) (sid : Nat) (ws : List Word) (c : Nat × Nat × Nat) : State :=
  let old := s.desc sid
  let gen := if descOk old then (dget old Reg.DESC_GEN 0 + 1) % 256 else dget old Reg.DESC_GEN 0
  let ws := dput ws Reg.DESC_GEN 0 gen
  let ws := dput ws Reg.DESC_CHECK 0 (descCheck ws)
  ((((s.setCounts sid (some c)).putDesc sid ws).showDesc sid ws).dropCand sid).streamJudged sid

/-! ### Configuration frames (R109, R111) -/

/-- What a PMU block of a configuration frame says. -/
structure CfgBlk where
  idcode : Nat
  format : Nat
  phn : Nat
  ann : Nat
  dgn : Nat
  phs : List Word
  ans : List Word
  digs : List Nat
  fnom50 : Bool
  cfgcnt : Nat
  deriving DecidableEq, Repr

/-- The length of a block in a data frame. -/
def CfgBlk.len (b : CfgBlk) : Nat :=
  2 + b.phn * (if b.format / 2 % 2 = 1 then 8 else 4) + (if b.format / 8 % 2 = 1 then 8 else 4) +
    b.ann * (if b.format / 4 % 2 = 1 then 4 else 2) + 2 * b.dgn

/-- Skip a number of names: 16 octets each in CFG-2, a length octet and its characters in CFG-3. -/
def skipNames (v3 : Bool) : Nat → List Byte → List Byte
  | 0, bs => bs
  | n + 1, bs => skipNames v3 n (if v3 then bs.drop (1 + leAt bs 0 1) else bs.drop 16)

/-- A float32 carried in four octets, most significant first. -/
def beWord (bs : List Byte) (o : Nat) : Word := BitVec.ofNat 32 (beAt bs o 4)

/-- PHUNIT as a scale: its low 24 bits times 10^-5 (R113). -/
def phUnit (bs : List Byte) (o : Nat) : Word := F32.ofRat (beAt bs (o + 1) 3) 100000

/-- Read one block; none where the octets run out. Of a CFG-3 frame's 12-octet phasor scale the second word, a float32, is the scale,
and the angle offset is not used: the spec gives only PHUNIT (log entry 73, DESIGN CHOICE). -/
def cfgBlkAt (v3 : Bool) (bs : List Byte) : Option (CfgBlk × List Byte) :=
  let bs := skipNames v3 1 bs
  let ido := beAt bs 0 2
  let bs := if v3 then bs.drop 18 else bs.drop 2
  let format := beAt bs 0 2
  let p := beAt bs 2 2
  let a := beAt bs 4 2
  let d := beAt bs 6 2
  let bs := skipNames v3 (p + a + 16 * d) (bs.drop 8)
  let ps := if v3 then 12 else 4
  let as := if v3 then 8 else 4
  let need := p * ps + a * as + 4 * d + (if v3 then 21 else 0) + 4
  if bs.length < need then none
  else
    let phs := (List.range (min p 32)).map fun i =>
      if format / 2 % 2 = 1 then F32.one else if v3 then beWord bs (12 * i + 4) else phUnit bs (4 * i)
    let bs := bs.drop (p * ps)
    let ans := (List.range (min a 16)).map fun i => if v3 then beWord bs (8 * i) else F32.one
    let bs := bs.drop (a * as)
    let digs := (List.range (min d 8)).map fun i => beAt bs (4 * i) 4
    let bs := bs.drop (4 * d + (if v3 then 21 else 0))
    some (⟨ido, format, p, a, d, phs, ans, digs, beAt bs 0 2 % 2 == 1, beAt bs 2 2⟩, bs.drop 4)

/-- Read a number of blocks. -/
def cfgBlks (v3 : Bool) : Nat → List Byte → Option (List CfgBlk × List Byte)
  | 0, bs => some ([], bs)
  | n + 1, bs =>
    match cfgBlkAt v3 bs with
    | none => none
    | some (b, rest) => (cfgBlks v3 n rest).map fun r => (b :: r.1, r.2)

/-- A configuration frame's contents from its TIME_BASE on: TIME_BASE, at most 256 blocks (BLK, R113), and DATA_RATE. -/
def cfgParse (v3 : Bool) (bs : List Byte) : Option (Nat × List CfgBlk × Int) :=
  let n := beAt bs 4 2
  if bs.length < 8 ∨ 256 < n then none
  else
    match cfgBlks v3 n (bs.drop 6) with
    | none => none
    | some (blks, rest) => if rest.length < 2 then none else some (beAt bs 1 3, blks, toSigned 16 (beAt rest 0 2))

/-- A configuration frame's contents, and what is kept of a CFG-3 frame in parts: CONT_IDX numbers the parts from 1, the last is 65,535,
and 0 stands for a frame that is whole (C37.118.2; log entry 124, PRESUMED). The answer is none for a part out of order. -/
def cfgPart (v3 : Bool) (kept : Option (Nat × List Byte)) (bs : List Byte) : Option (List Byte ⊕ (Nat × List Byte)) :=
  let body := (bs.drop (if v3 then 16 else 14)).take (bs.length - (if v3 then 18 else 16))
  let i := if v3 then beAt bs 14 2 else 0
  if i = 0 then some (.inl body)
  else if i = 1 then some (.inr (1, body))
  else match kept with
    | some (k, had) => if i = 65535 then some (.inl (had ++ body)) else if i = k + 1 then some (.inr (i, had ++ body)) else none
    | none => none

/-- The phasors, analogs and digital words of a block of a configuration frame. -/
def blkCount (blks : List CfgBlk) (i : Nat) : Nat × Nat × Nat := match blks[i]? with | some b => (b.phn, b.ann, b.dgn) | none => (0, 0, 0)

/-- The rate code of a DATA_RATE, 15 where it is not supported (R111). -/
def rateOf (r : Int) : Nat := if r ≤ 0 then 15 else (rateCode r.toNat).getD 15

/-- The descriptor words of block `i` of a configuration frame (R109, R113). -/
def buildDesc (v3 : Bool) (idcode tb : Nat) (blks : List CfgBlk) (rate : Int) (i : Nat) : List Word :=
  match blks[i]? with
  | none => List.replicate 64 0#32
  | some b =>
    let f (k : Nat) : Nat := b.format / 2 ^ k % 2
    let ofs := ((blks.take i).map CfgBlk.len).sum
    let size := 16 + (blks.map CfgBlk.len).sum
    let code := rateOf rate
    let trunc := decide (32 < b.phn ∨ 16 < b.ann ∨ 8 < b.dgn)
    let w0 := (if code < 12 then 2 ^ 31 else 0) + (if v3 then 2 ^ 26 else 0) + f 1 * 2 ^ 25 + f 0 * 2 ^ 24 + f 2 * 2 ^ 23 +
      f 3 * 2 ^ 22 + (if trunc then 2 ^ 20 else 0) + (if b.fnom50 then 2 ^ 16 else 0) + b.cfgcnt
    let w1 := min 255 b.phn * 2 ^ 24 + min 255 b.ann * 2 ^ 16 + min 255 b.dgn * 2 ^ 8 + i
    let head := [w0, w1, ofs * 2 ^ 16 + b.len, size % 65536 * 2 ^ 16 + code, idcode * 2 ^ 16 + b.idcode, tb, 0, 0].map (BitVec.ofNat 32)
    let pad (n : Nat) (ws : List Word) := ws ++ List.replicate (n - ws.length) 0#32
    let ws := head ++ pad 32 b.phs ++ pad 16 b.ans ++ pad 8 (b.digs.map (BitVec.ofNat 32))
    dput ws Reg.DESC_CHECK 0 (descCheck ws)

/-! ### Data frames (R109, R114) -/

/-- Where a block's values stand: octets of its phasors, phasors read, octets of FREQ, of one analog and of all analogs, analogs and
digital words read. -/
structure BlkShape where
  ph : Nat
  phN : Nat
  fr : Nat
  anSz : Nat
  an : Nat
  anN : Nat
  dgN : Nat
  deriving DecidableEq, Repr

/-- The phasors, analogs and digital words of a block. Counts saturate at 255 in a descriptor (R113): one that does is the configuration
frame's where that is known, else it follows from the block's length, and where that is not enough it is a free value (log entry 67).
`fixed` octets stand beside them, and one of each takes `up`, `ua` and `ud`. -/
def blkCounts (ws : List Word) (known : Option (Nat × Nat × Nat)) (fixed up ua ud : Nat) : Nat × Nat × Nat :=
  let p := dget ws Reg.DESC_PHNMR 0
  let a := dget ws Reg.DESC_ANNMR 0
  let d := dget ws Reg.DESC_DGNMR 0
  let len := dget ws Reg.DESC_BLK_LEN 0
  match known with
  | some (np, na, nd) => (if p < 255 then p else np, if a < 255 then a else na, if d < 255 then d else nd)
  | none =>
    let p := if p < 255 then p else if a < 255 ∧ d < 255 then (len - fixed - a * ua - d * ud) / up else Config.satCount 0 len
    let a := if a < 255 then a else if d < 255 then (len - fixed - p * up - d * ud) / ua else Config.satCount 1 len
    (p, a, if d < 255 then d else (len - fixed - p * up - a * ua) / ud)

/-- The shape of a block by its descriptor. -/
def blkShape (ws : List Word) (known : Option (Nat × Nat × Nat)) : BlkShape :=
  let ps := if dget ws Reg.DESC_PH_FLOAT 0 = 1 then 8 else 4
  let fr := if dget ws Reg.DESC_FR_FLOAT 0 = 1 then 4 else 2
  let az := if dget ws Reg.DESC_AN_FLOAT 0 = 1 then 4 else 2
  let (p, a, d) := blkCounts ws known (2 + 2 * fr) ps az 2
  ⟨p * ps, min p 32, fr, az, a * az, min a 16, min d 8⟩

/-- One phasor (R114). -/
def phasorIn (ws : List Word) (bs : List Byte) (o i : Nat) : Word × Word :=
  let sc := BitVec.ofNat 32 (dget ws Reg.DESC_PHSCALE i)
  let polar := dget ws Reg.DESC_PH_POLAR 0 = 1
  if dget ws Reg.DESC_PH_FLOAT 0 = 1 then
    let a := beWord bs o
    let b := beWord bs (o + 4)
    if polar then (F32.mul a (cosF b), F32.mul a (sinF b)) else (a, b)
  else if polar then
    let m := F32.mul (F32.ofInt (beAt bs o 2)) sc
    let a := F32.ofRat (toSigned 16 (beAt bs (o + 2) 2)) 10000
    (F32.mul m (cosF a), F32.mul m (sinF a))
  else (F32.mul (F32.ofInt (toSigned 16 (beAt bs o 2))) sc, F32.mul (F32.ofInt (toSigned 16 (beAt bs (o + 2) 2))) sc)

/-- FREQ and DFREQ (R114). -/
def freqIn (ws : List Word) (bs : List Byte) (o : Nat) : Word × Word :=
  if dget ws Reg.DESC_FR_FLOAT 0 = 1 then (beWord bs o, beWord bs (o + 4))
  else
    let nom : Int := if dget ws Reg.DESC_FNOM50 0 = 1 then 50000 else 60000
    (F32.ofRat (nom + toSigned 16 (beAt bs o 2)) 1000, F32.ofRat (toSigned 16 (beAt bs (o + 2) 2)) 100)

/-- One analog (R114). -/
def analogIn (ws : List Word) (bs : List Byte) (o i : Nat) : Word :=
  let sc := BitVec.ofNat 32 (dget ws Reg.DESC_ANSCALE i)
  if dget ws Reg.DESC_AN_FLOAT 0 = 1 then F32.mul (beWord bs o) sc else F32.mul (F32.ofInt (toSigned 16 (beAt bs o 2))) sc

/-- The values of a block whose octets are `bs`: STAT, phasors, frequency, ROCOF, analogs, digital words. -/
structure BlkVals where
  stat : Nat
  ph : List (Word × Word)
  freq : Word
  rocof : Word
  an : List Word
  dg : List Nat
  deriving DecidableEq, Repr

def blkVals (ws : List Word) (known : Option (Nat × Nat × Nat)) (bs : List Byte) : BlkVals :=
  let b := blkShape ws known
  let ps := if dget ws Reg.DESC_PH_FLOAT 0 = 1 then 8 else 4
  let o := 2 + b.ph
  let oa := o + 2 * b.fr
  let od := oa + b.an
  let (f, r) := freqIn ws bs o
  ⟨beAt bs 0 2, (List.range b.phN).map (fun i => phasorIn ws bs (2 + i * ps) i), f, r,
    (List.range b.anN).map (fun i => analogIn ws bs (oa + i * b.anSz) i),
    (List.range b.dgN).map fun i => beAt bs (od + 2 * i) 2⟩

/-- FLAGS that the descriptor gives a letter (R127): TRUNC, CONV_POLAR, CONV_INT, and CFG_CAND while a candidate is held. -/
def descFlags (ws : List Word) (cand : Bool) : Nat :=
  let p := decide (0 < dget ws Reg.DESC_PHNMR 0)
  let int_ := (p && dget ws Reg.DESC_PH_FLOAT 0 == 0) || dget ws Reg.DESC_FR_FLOAT 0 == 0 ||
    (decide (0 < dget ws Reg.DESC_ANNMR 0) && dget ws Reg.DESC_AN_FLOAT 0 == 0)
  dget ws Reg.DESC_TRUNC 0 * 0x8000 + (if p && dget ws Reg.DESC_PH_POLAR 0 == 1 then 0x4000 else 0) + (if int_ then 0x2000 else 0) +
    (if cand then 0x400 else 0)

end Sys2Proof.Machine
end

