-- ==== Sys2Proof/Machine/Admission.lean ====
section
/-! DEFINITION. Admission (R105 to R107, R110, R117 to R124): senders and their cache, rules, SIDs, requests to senders and
stream connections. -/
namespace Sys2Proof.Machine

/-! ### Senders (R119) -/

/-- What identifies the sender of a frame: kind (0 C37.118.2, 1 R-SV, 2 R-GOOSE), connection or VLAN, source and IDCODE or
APPID. -/
structure Who where
  kind : Nat
  conn : Option Nat
  vlan : Nat
  src : Nat
  v6 : Bool
  ident : Nat
  sport : Nat
  port : Nat
  keyId : Option Nat
  deriving DecidableEq, Repr

/-- A VLAN as STAB.VLAN codes it: [12] tagged, [11:0] VID. -/
def vlanCode (v : Option Nat) : Nat := match v with | some n => 4096 + n % 4096 | none => 0

/-- Does a cache entry identify the sender? -/
def Sender.isWho (e : Sender) (w : Who) : Bool :=
  match w.conn with
  | some c => e.conn == some c
  | none => e.conn.isNone && (e.kind == 0) == (w.kind == 0) && e.vlan == w.vlan && e.src == w.src && e.v6 == w.v6 && e.ident == w.ident

def State.sender (s : State) (w : Who) : Option Sender := s.adm.senders.find? fun e => e.isWho w

def State.senderByKey (s : State) (k : Nat) : Option Sender := s.adm.senders.find? fun e => e.key == k

def State.putSender (s : State) (e : Sender) : State :=
  { s with adm := { s.adm with senders := s.adm.senders.map fun x => if x.key == e.key then e else x } }

/-- Show SIDS_USED, PENDING and QUAR (R135). -/
def State.showAdm (s : State) : State :=
  let used := ((s.entries 0x400000 256 16384).filter fun sid => s.rd Reg.STAB_STATE [sid] != 0).length
  let pend := ((List.range 64).filter fun e => s.flag Reg.ADM_PEND_VALID [e])
  s.wr Reg.ADM_STAT_SIDS_USED [] used
    |>.wr Reg.ADM_STAT_PENDING [] ((pend.filter fun e => !s.flag Reg.ADM_PEND_QUAR [e]).length)
    |>.wr Reg.ADM_STAT_QUAR [] ((pend.filter fun e => s.flag Reg.ADM_PEND_QUAR [e]).length)

/-- Free a pending entry (R136). -/
def State.freeEntry (s : State) (e : Option Nat) : State :=
  match e with
  | none => s
  | some e =>
    let s := forEach [0x50100 + 16 * e, 0x50104 + 16 * e, 0x50108 + 16 * e, 0x5010C + 16 * e, 0x50500 + 4 * e, 0x50600 + 4 * e]
      (fun o a => a.put 0x50000 o 0#32) s
    s.showAdm

/-- Remove a sender from the cache. -/
def State.dropSender (s : State) (e : Sender) : State :=
  (({ s with adm := { s.adm with senders := s.adm.senders.filter fun x => x.key != e.key
                                 replay := s.adm.replay.filter fun r => r.sender != e.key } } : State).freeEntry e.entry)

/-- The sender a full cache gives up: the oldest refused entry, then the oldest quarantined one (R119). -/
def State.evictable (s : State) : Option Sender :=
  match s.adm.senders.find? fun e => e.st == .refused with
  | some e => some e
  | none => s.adm.senders.find? fun e => e.st == .quarantined

/-- Room for one more sender, after an eviction if the cache is full. -/
def State.makeRoom (s : State) : State × Bool :=
  if s.adm.senders.length < 32768 then (s, true)
  else match s.evictable with
    | some e => (s.dropSender e, true)
    | none => (s, false)

/-- Fill a pending entry (R136). -/
def State.fillEntry (s : State) (e : Nat) (quar : Bool) (x : Sender) : State :=
  let s := s.setFlag Reg.ADM_PEND_VALID [e] true |>.setFlag Reg.ADM_PEND_QUAR [e] quar |>.wr Reg.ADM_PEND_KIND [e] x.kind
    |>.wr Reg.ADM_PEND_PORT [e] x.port |>.wr Reg.ADM_PEND_TAGGED [e] (x.vlan / 4096) |>.setFlag Reg.ADM_PEND_V6 [e] x.v6
    |>.wr Reg.ADM_PEND_ID [e] x.ident
  let s := s.wr Reg.ADM_PEND_SRC [e, 0] x.src |>.wr Reg.ADM_PEND_SRC [e, 1] (x.src / 2 ^ 32) |>.wr Reg.ADM_PEND_SRC [e, 2] (x.src / 2 ^ 64)
  ((s.wr Reg.ADM_PEND_HI_SRC [e] (x.src / 2 ^ 96)).wr Reg.ADM_PEND_VID_VID [e] (x.vlan % 4096)).showAdm

def State.freePend (s : State) : Option Nat := (List.range 64).find? fun e => !s.flag Reg.ADM_PEND_VALID [e]

/-! ### Rules (R120, R137) -/

/-- Does the address of a rule name a source, down to its length? 0 is any. -/
def State.ruleAddr (s : State) (r : Nat) (w : Who) : Bool :=
  let n := s.rd Reg.ADM_RULE_PREFIX [r]
  let v6 := s.flag Reg.ADM_RULE_V6 [r]
  let a := s.rdWords Reg.ADM_RULE_ADDR [r] 4
  let bits := if v6 then 128 else 32
  n == 0 || (v6 == w.v6 && (if v6 then a else a % 2 ^ 32) / 2 ^ (bits - min n bits) == w.src / 2 ^ (bits - min n bits))

/-- Do all fields of a rule match (R120)? -/
def State.ruleFits (s : State) (r : Nat) (w : Who) : Bool :=
  let t := s.rd Reg.ADM_RULE_TRANSPORT [r]
  let ports := s.rd Reg.ADM_RULE_PORTS [r]
  let kinds := s.rd Reg.ADM_RULE_KIND_MASK [r]
  let il := s.rd Reg.ADM_RULE_ID_LO [r]
  let ih := s.rd Reg.ADM_RULE_ID_HI [r]
  let al := s.rd Reg.ADM_RULE_APPID_LO [r]
  let ah := s.rd Reg.ADM_RULE_APPID_HI [r]
  let key := s.rd Reg.ADM_RULE_KEYID [r]
  let vl := s.flag Reg.ADM_RULE_VLAN_ANY [r] || (s.rd Reg.ADM_RULE_TAGGED [r] * 4096 + (if s.flag Reg.ADM_RULE_TAGGED [r] then s.rd Reg.ADM_RULE_VID [r] else 0) == w.vlan)
  let spanI := il == 0 && ih == 65535
  let spanA := al == 0 && ah == 65535
  let inI := decide (il ≤ w.ident ∧ w.ident ≤ ih)
  let inA := decide (al ≤ w.ident ∧ w.ident ≤ ah)
  s.flag Reg.ADM_RULE_VALID [r] && (t == 0 || t == 3 || (t == 2) == w.conn.isSome) && (ports == 0 || ports / 2 ^ w.port % 2 == 1) &&
    (kinds == 0 || kinds / 2 ^ w.kind % 2 == 1) && s.ruleAddr r w && vl &&
    (if w.kind = 0 then inI && spanA else inA && spanI) && (key == 0 || w.keyId == some key)

/-- What the rules decide (R120): the decision, whether franking is required, and the idle limit given, of which 0 is 600 (R137). -/
def State.ruleFor (s : State) (w : Who) : Nat × Bool × Nat :=
  match (s.entries 0x51000 64 256).find? fun r => s.ruleFits r w with
  | some r =>
    let i := s.rd Reg.ADM_RULE_IDLE_RI [r]
    (s.rd Reg.ADM_RULE_DECISION [r], s.flag Reg.ADM_RULE_REQ_FRANK [r], if i = 0 then 600 else i)
  | none => (s.rd Reg.ADM_CTL_DEFAULT [], false, 600)

/-! ### Frames counted dead at ingress (R103) -/

/-- Count a frame dead that yields no letter: once, against the sender's SID where one exists, else against the port. -/
def State.deadFrame (s : State) (sid : Option Nat) (port code : Nat) : State :=
  match sid with
  | some sid => (((s.inc Reg.STAB_DEAD [sid]).wr Reg.STAB_LAST_DEAD [sid] code).dead code sid none false none)
  | none =>
    let n := sget s.adm.deadPort port 0
    ({ s with adm := { s.adm with deadPort := sset s.adm.deadPort port (n + 1) } } : State).dead code 0xFFFF none false none

/-- The SID a sender's dead frames count against: R103 names the sender's SID, and of several the model takes the first in block order (log
entry 125, DESIGN CHOICE). -/
def Sender.firstSid (e : Sender) : Option Nat := e.sids.head?.map (·.1)

/-! ### Commands to senders (R105, R106, R110, R123) -/

/-- A C37.118.2 command frame: 1 data off, 2 data on, 5 send CFG-2. -/
def State.cmdBytes (s : State) (ident cmd : Nat) : List Byte :=
  let (soc, fr) := s.socFrac s.now 1000000
  c37Frame 0xAA41 (beBytes 2 ident ++ beBytes 4 soc ++ beBytes 4 fr ++ beBytes 2 cmd)

/-- Send a command to a sender: to its source over UDP, or over its connection. -/
def State.sendCmd (s : State) (e : Sender) (cmd : Nat) : State :=
  let b := s.cmdBytes e.ident cmd
  let pcp := s.rd Reg.NET_EGR_PCP_DATA []
  match e.conn with
  | some c => s.tx e.port 3 pcp none (.tcp c b)
  | none => if e.kind = 0 then s.tx e.port 3 pcp none (.c37 e.v6 e.src e.sport b) else s

/-- A data frame that fits nothing: "send CFG-2", at most once every 10 s per sender (R110). -/
def State.askCfg (s : State) (e : Sender) : State :=
  if (match e.reqLast with | some t => decide (s.now < t + 10 * second) | none => false) then s
  else (s.putSender { e with reqLast := some s.now }).sendCmd e 5

/-! ### SIDs (R121 to R123, R153) -/

/-- Do the identity fields of a SID name a sender's PMU block of an IDCODE (R121)? -/
def State.names (s : State) (sid : Nat) (e : Sender) (pmu : Nat) : Bool :=
  s.rd Reg.STAB_KIND [sid] == e.kind && s.flag Reg.STAB_TCP [sid] == e.conn.isSome && s.rd Reg.STAB_FR_IDCODE [sid] == e.ident &&
    s.rd Reg.STAB_PMU_IDCODE [sid] == pmu && s.rdWords Reg.STAB_SRC [sid] 4 == e.src && s.rd Reg.STAB_SRC_PORT [sid] == e.sport && s.rd Reg.STAB_VLAN [sid] == e.vlan

/-- Identity fields all 0 name no sender (R153). -/
def State.nameless (s : State) (sid : Nat) : Bool :=
  s.rd Reg.STAB_KIND [sid] == 0 && s.rd Reg.STAB_TCP [sid] == 0 && s.rd Reg.STAB_FR_IDCODE [sid] == 0 && s.rd Reg.STAB_PMU_IDCODE [sid] == 0 &&
    s.rdWords Reg.STAB_SRC [sid] 4 == 0 && s.rd Reg.STAB_SRC_PORT [sid] == 0 && s.rd Reg.STAB_VLAN [sid] == 0

/-- A free SID (R139). -/
def State.sidFree (s : State) (sid : Nat) : Bool := s.rd Reg.STAB_STATE [sid] == 0

/-- The free SIDs that name a sender and whose descriptors are valid (R121). A sender's PMU IDCODEs are not known before its
configuration frame: the descriptor's is the one that the SID's must name (log entry 68, DEDUCED). -/
def State.heldSids (s : State) (e : Sender) : List (Nat × Nat) :=
  ((s.entries 0x400000 256 16384).filter fun sid =>
    s.sidFree sid && s.names sid e (dget (s.desc sid) Reg.DESC_PMU_IDCODE 0) && descOk (s.desc sid)).map fun sid =>
    (sid, dget (s.desc sid) Reg.DESC_BLK 0)

/-- The SID free the longest, the lowest among equals; pinned SIDs never go to another sender (R121, R122). -/
def State.oldestFree (s : State) : Option Nat :=
  ((List.range 16384).foldl (fun (a : Option (Nat × Time)) sid =>
    if s.sidFree sid && !s.flag Reg.STAB_PINNED [sid] then
      let t := sget s.adm.freedAt sid 0
      match a with
      | none => some (sid, t)
      | some (_, u) => if t < u then some (sid, t) else a
    else a) none).map (·.1)

/-- The SID for a block (R121): the one the sender held for it, else the one free the longest. -/
def State.sidFor (s : State) (e : Sender) (blk pmu : Nat) : Option Nat :=
  match (s.entries 0x400000 256 16384).find? fun sid => s.sidFree sid && s.names sid e pmu && s.rd Reg.STAB_BLK [sid] == blk with
  | some sid => some sid
  | none => s.oldestFree

/-- A stream goes live: its tracker starts anew (R160). -/
def State.goLive (s : State) (sid : Nat) : State :=
  ((s.wr Reg.STAB_STATE [sid] 3).wr Reg.STAB_SEEDED [sid] 0).wr Reg.STAB_IDLE_CNT [sid] 0

/-- The descriptor of a SID is cleared: VALID = 0, with its CHECK (R113). -/
def State.clearDesc (s : State) (sid : Nat) : State :=
  let ws := dput (s.desc sid) Reg.DESC_VALID 0 0
  (s.setCounts sid none).putDesc sid (dput ws Reg.DESC_CHECK 0 (descCheck ws))

/-- Give a SID to a sender's block and put its identity into the stream table (R121, R139, R153). A SID that another sender held
has no descriptor of this one (R109). -/
def State.giveSid (s : State) (e : Sender) (sid blk pmu : Nat) : State :=
  let s := if s.names sid e pmu then s
    else (if s.nameless sid || s.flag Reg.STAB_PINNED [sid] then s else s.membClear sid).clearDesc sid
  let s := s.wr Reg.STAB_KIND [sid] e.kind |>.setFlag Reg.STAB_TCP [sid] e.conn.isSome |>.setFlag Reg.STAB_REQ_FRANK [sid] e.reqFrank
    |>.wr Reg.STAB_IDLE_RI [sid] e.idleRi |>.wr Reg.STAB_BLK [sid] blk |>.wr Reg.STAB_FR_IDCODE [sid] e.ident
    |>.wr Reg.STAB_PMU_IDCODE [sid] pmu
  let s := s.wrWords Reg.STAB_SRC [sid] 4 e.src |>.wr Reg.STAB_SRC_PORT [sid] e.sport |>.wr Reg.STAB_VLAN [sid] e.vlan
  s.goLive sid

/-- Add a SID to a sender, in block order. -/
def State.senderGets (s : State) (k sid blk : Nat) : State :=
  match s.senderByKey k with
  | some e => s.putSender { e with st := .admitted, firstDead := none, reqN := 0
                                   sids := (e.sids.filter fun x => decide (x.2 < blk)) ++ [(sid, blk)] ++ e.sids.filter fun x => decide (blk < x.2) }
  | none => s

/-- SIDs at once for an admitted sender that held some, or for which the Manifest prepared them (R121). The rule's idle limit is given
to them (R137). -/
def State.giveHeld (s : State) (k : Nat) : State :=
  match s.senderByKey k with
  | none => s
  | some e => (forEach (s.heldSids e) (fun x a =>
      ((a.wr Reg.STAB_IDLE_RI [x.1] e.idleRi).goLive x.1).senderGets k x.1 x.2) s).showAdm

/-- An essential member that retires lapses at once in its Rounds (R158, R180). -/
def State.lapseAll (s : State) (sid : Nat) : State :=
  forEach ((s.rndsNaming sid).filter fun r => s.membCode Reg.WHL_MEMB_ACTIVE r sid == 2 && !(s.rndSt r).lapsed.contains sid) (fun r a =>
    let st := a.rndSt r
    let a := (a.setRnd r { st with lapsed := st.lapsed ++ [sid] }).whlNotice r 5 sid 0
    a.showMembers r) s

/-- A stream is retired (R123): SID quarantine, "data off" over TCP, and, with the last of its sender's SIDs, the cache entry goes. -/
def State.retire (s : State) (sid : Nat) : State :=
  let s : State := { s with adm := { s.adm with freedAt := sset s.adm.freedAt sid s.now } }
  let s := ((s.lapseAll sid).wr Reg.STAB_STATE [sid] 1).notice bADM 3 sid 0 0
  let s := s.dropCand sid
  match s.adm.senders.find? fun e => e.sids.any fun x => x.1 == sid with
  | none => s.showAdm
  | some e =>
    let rest := e.sids.filter fun x => x.1 != sid
    let s := if e.conn.isSome then s.sendCmd e 1 else s
    let s := if rest.isEmpty then s.dropSender e else s.putSender { e with sids := rest }
    (s.endFlow sid).showAdm

/-! ### Decisions (R120, R135) -/

/-- Refuse a sender. -/
def State.refuse (s : State) (e : Sender) : State := (s.freeEntry e.entry).putSender { e with st := .refused, entry := none, since := s.now }

/-- Begin admission of a sender: awaiting configuration, or SIDs at once. -/
def State.accept (s : State) (e : Sender) : State :=
  let s := (s.freeEntry e.entry).putSender { e with st := .awaiting, entry := none, since := s.now }
  (s.notice bADM 0 e.ident 0 0).giveHeld e.key

/-- Hold a sender in a pending entry for the host, or in quarantine. -/
def State.pend (s : State) (e : Sender) (quar : Bool) : State :=
  match s.freePend with
  | none => if quar then s.putSender { e with st := .quarantined } else s.refuse e
  | some n =>
    let s := (s.fillEntry n quar e).putSender { e with st := if quar then .quarantined else .pending, entry := some n, since := s.now }
    if quar then s else s.notice bADM 1 n e.ident 0

/-- Enter an unknown sender into the cache and decide (R119, R120). -/
def State.decideNew (s : State) (w : Who) (d : Nat × Bool × Nat) : State :=
  match s.makeRoom with
  | (s, false) => s.inc Reg.ADM_REFUSED_FRAMES_COUNT []
  | (s, true) =>
    let e : Sender := ⟨s.adm.nextId, w.kind, w.conn, w.vlan, w.src, w.v6, w.ident, w.sport, w.port, .refused, [], d.2.1, d.2.2, none,
      s.now, 0, none, none, none, none, w.keyId, false, none⟩
    let s : State := { s with adm := { s.adm with senders := s.adm.senders ++ [e], nextId := s.adm.nextId + 1 } }
    if d.1 = 0 then s.accept e else if d.1 = 1 then s.pend e false else if d.1 = 2 then s.pend e true else s.refuse e

/-- What a frame of a sender that is not let in counts (R120). -/
def State.countHeldOff (s : State) (e : Sender) : State :=
  match e.st with
  | .refused =>
    let s := s.inc Reg.ADM_REFUSED_FRAMES_COUNT []
    if (match e.refLog with | some t => decide (s.now < t + 60 * second) | none => false) then s
    else (s.putSender { e with refLog := some s.now }).logEvent bADM 0x82 e.ident 3 0
  | .quarantined =>
    let s := s.inc Reg.ADM_QUAR_FRAMES_COUNT []
    if e.entry.isNone ∧ s.freePend.isSome then s.pend e true else s
  | _ => s

/-- May frames of the sender go on to the parser? -/
def Sender.letIn (e : Sender) : Bool := match e.st with | .admitted | .awaiting => true | _ => false

/-- Franking required of a sender (R117): of any of its streams, or, before it has one, by its rule. -/
def State.needsFrank (s : State) (e : Sender) : Bool :=
  if e.sids.isEmpty then e.reqFrank else e.sids.any fun x => s.flag Reg.STAB_REQ_FRANK [x.1]

/-- Allocate SIDs to the blocks of a sender that have none, in block order (R121); the blocks refused are counted. -/
def State.allocBlocks (s : State) (k : Nat) (pmus : List Nat) : State :=
  let step (a : State × Nat) (x : Nat × Nat) : State × Nat :=
    match a.1.senderByKey k with
    | none => a
    | some e =>
      if e.sids.any fun y => y.2 == x.1 then a
      else match a.1.sidFor e x.1 x.2 with
        | some sid => ((a.1.giveSid e sid x.1 x.2).senderGets k sid x.1, a.2)
        | none => (a.1, a.2 + 1)
  let (s, lost) := (pmus.zipIdx.map fun p => (p.2, p.1)).foldl step (s, 0)
  let s := s.showAdm
  if lost = 0 then s
  else match s.senderByKey k with
    | some e => s.notice bADM 4 e.ident lost 0
    | none => s

/-! ### Letters leave the port (R126, R184) -/

/-- Count a letter formed (R139); a pinned stream that was idle is live again (R122), and its idle count clears (R123). What it
cleared stands by for an instant that is not later than the letter's stamp. `octets` are those of its frame. -/
def State.letterFormed (s : State) (l : Letter) (octets : Nat) : State :=
  let s : State := { s with adm := { s.adm with cleared := sset s.adm.cleared l.sid (s.rd Reg.STAB_IDLE_CNT [l.sid], l.arr) } }
  let s := s.bump64 Reg.STAB_LETTERS [l.sid] 1 |>.wr64 Reg.STAB_LAST_SEC [l.sid] (secOf l.arr) |>.wr Reg.STAB_LAST_NS [l.sid] (nsOf l.arr)
  let seen := s.rd Reg.STAB_PORTS_SEEN [l.sid]
  let p := l.path / 64
  let s := if seen / 2 ^ p % 2 = 1 then s else s.wr Reg.STAB_PORTS_SEEN [l.sid] (seen + 2 ^ p)
  (if s.rd Reg.STAB_STATE [l.sid] = 4 then s.goLive l.sid else s.wr Reg.STAB_IDLE_CNT [l.sid] 0).handOver l false octets

/-- The letters of one frame, in block order (R128). -/
def State.lettersFormed (s : State) (ls : List Letter) (octets : Nat) : State := forEach ls (fun l a => a.letterFormed l octets) s

/-- Form a letter (R114, R125 to R127): its instant at the stream's rate, and the off-grid flag. -/
def State.mkLetter (s : State) (sid flags port lanB tcp gen : Nat) (t arr : Time) (ws : List Word) (v : BlkVals) (tq : Nat) : Letter :=
  let code := dget ws Reg.DESC_RATE 0
  let r := fps code
  let n := instantOf t r
  let off := if offGrid t r s.roundTol then 0x800 else 0
  ⟨sid, flags + off, n / r, n % r, code, arr, v.stat, dget ws Reg.DESC_CFGCNT 0, v.ph.length, v.an.length, v.dg.length,
    port * 64 + lanB * 32 + tcp * 16 + gen % 16, tq, v.ph, v.freq, v.rocof, v.an, v.dg⟩

end Sys2Proof.Machine
end

