-- ==== Sys2Proof/Machine/PortFront.lean ====
section
/-! DEFINITION. The receive front of a port (R92, R94, R96, R97, R102 stages 1 to 3), which every frame passes, and what the
front's counters and addresses are. -/
namespace Sys2Proof.Machine

def State.port (s : State) (p : Nat) : PortSt := sget s.net.ports p port0
def State.setPort (s : State) (p : Nat) (v : PortSt) : State := { s with net := { s.net with ports := sset s.net.ports p v } }

def State.disc (s : State) (p : Nat) : State := s.inc Reg.NET_PORT_RX_DISC [p]

/-- Is a VLAN tag accepted on a port (R94)? -/
def State.vlanOk (s : State) (p : Nat) (v : Option Nat) : Bool :=
  match v with
  | none => s.flag Reg.NET_PORT_VLAN_UNTAG_OK [p]
  | some n => (List.range 16).any fun i => s.flag Reg.NET_PORT_VID_EN [p, i] && s.rd Reg.NET_PORT_VID_VID [p, i] == n

/-- FORGET_MS as a time, held to 10 to 2,000 ms (R133). -/
def State.prpForget (s : State) : Time := clampN 10 2000 (s.rd Reg.NET_PRP_FORGET_MS []) * msU

/-- The node table is full (R97): at most one record every 60 s. -/
def State.prpFull (s : State) : State :=
  if (match s.net.prpFullAt with | some t => decide (s.now < t + 60 * second) | none => false) then s.noticeQuiet bNET 6
  else ({ s with net := { s.net with prpFullAt := some s.now } } : State).notice bNET 6 0 0 0

/-- The entries of the node table that are not forgotten, and whether one is of a frame's source and sequence number. -/
def State.prpLive (s : State) : List PrpEnt := s.net.prp.filter fun e => decide (s.now < e.t + s.prpForget)
def PrpEnt.isFor (e : PrpEnt) (f : RxHead) (pair q : Nat) : Bool := e.mac == f.mac && e.pair == pair && e.seq == q

/-- Was a frame's number seen from the other LAN (R96)? -/
def State.prpDup (s : State) (f : RxHead) : Bool :=
  match s.prpOf f.port, f.prpSeq with
  | some (pair, lanB), some q => s.prpLive.any fun e => e.isFor f pair q && e.lanB != lanB
  | _, _ => false

/-- PRP duplicate discard (R96): the state with the frame noted, and whether the frame goes on. -/
def State.prpPass (s : State) (f : RxHead) : State × Bool :=
  match s.prpOf f.port, f.prpSeq with
  | some (pair, lanB), some q =>
    if s.prpDup f then (s.inc Reg.NET_PORT_PRP_DUP [f.port], false)
    else if s.prpLive.length < 32768 ∨ s.prpLive.any fun e => e.isFor f pair q then
      ({ s with net := { s.net with prp := (s.prpLive.filter fun e => !e.isFor f pair q) ++ [⟨f.mac, pair, q, lanB, s.now⟩] } }, true)
    else (s.prpFull, true)
  | _, _ => (s, true)

/-- Is a frame's length and VLAN accepted (R92, R94)? -/
def State.frontOk (s : State) (f : RxHead) : Bool :=
  decide (f.len ≤ if s.flag Reg.NET_PORT_CFG_JUMBO [f.port] then 9216 else 1522) && s.vlanOk f.port f.vlan

/-- The arrival time of a frame at the reference plane (R75, R76). -/
def State.arrival (s : State) (f : RxHead) : Time := s.rxTime f.port f.raw f.bofs

/-- Stages 1 to 3 of a frame with a good FCS on an enabled port: its length, VLAN and PRP. Stage 6 has then passed its stamp
(R156): frames come to the block in the order in which stage 6 takes them (R104, log entry 65). -/
def State.rxFront (s : State) (f : RxHead) : State × Bool :=
  let s := s.advance f.raw
  if !s.flag Reg.NET_PORT_CFG_EN [f.port] then (s, false)
  else
    let s := s.inc Reg.NET_PORT_RX_FRAMES [f.port]
    let s := s.setPort f.port { s.port f.port with stamp := max (s.port f.port).stamp (s.arrival f) }
    if s.frontOk f then s.prpPass f else (s.disc f.port, false)

/-- A later part of a frame whose first part passed or failed the front: nothing is counted twice. -/
def State.rxMore (s : State) (f : RxHead) : State × Bool :=
  let s := s.advance f.raw
  (s, s.flag Reg.NET_PORT_CFG_EN [f.port] && s.frontOk f && !s.prpDup f)

/-- Run something on a frame that passes the front. -/
def State.onFrame (s : State) (f : RxHead) (k : State → State) : State :=
  match s.rxFront f with
  | (s, true) => k s
  | (s, false) => s

/-! ### The port's own addresses and groups (R93, R105) -/

/-- The port's own addresses. -/
def State.ownAddr (s : State) (p addr : Nat) (v6 : Bool) : Bool :=
  addr != 0 && (if v6 then s.rdWords Reg.NET_PORT_IP6_ADDR [p] 4 == addr else s.rd Reg.NET_PORT_IP4_ADDR [p] == addr)

/-- May a datagram to this address enter: to the port's own address, or to a group it joined (R105)? -/
def State.addrOk (s : State) (p addr : Nat) (v6 : Bool) : Bool := s.ownAddr p addr v6 || s.net.groups.contains (p, v6, addr)

/-- Membership reports for a port's groups (R93). -/
def State.sendReports (s : State) (p : Nat) : State :=
  forEach (s.net.groups.filter fun g => g.1 == p) (fun g a =>
    a.tx p 3 (a.rd Reg.NET_EGR_PCP_DATA []) none (.groupReport g.2.1 g.2.2)) s

/-- The groups that the Manifest in force names are joined, up to 256 per port, and reported (R93; log entry 64). -/
def State.joinGroups (s : State) : State :=
  let gs := (Config.manifestGroups s.strt.shadow).eraseDups
  let s : State := { s with net := { s.net with groups := (List.range 4).flatMap fun p => (gs.filter fun g => g.1 == p).take 256 } }
  forEach (List.range 4) (fun p a => a.sendReports p) s

end Sys2Proof.Machine
end

