-- ==== Sys2Proof/Machine/Ingress.lean ====
section
/-! DEFINITION. The ingress pipeline (R102 to R118, R128): C37.118.2 frames and IEC 61850-90-5 SPDUs past the receive front, on
their way to letters. Rows are in Machine/PortRows.lean and Machine/AdmRows.lean. -/
namespace Sys2Proof.Machine

/-! ### C37.118.2 structure and senders (R102 stage 5, R119) -/

/-- The frame type in SYNC: 0 data, 1 header, 2 CFG-1, 3 CFG-2, 4 command, 5 CFG-3. -/
def c37Type (b : List Byte) : Nat := beAt b 1 1 / 16 % 8
def c37Id (b : List Byte) : Nat := beAt b 4 2

/-- The reason a frame's structure fails, if it does: malformed, or checksum (R103). -/
def c37Bad (b : List Byte) : Option Nat :=
  if b.length < 16 ∨ beAt b 0 1 ≠ 0xAA ∨ beAt b 2 2 ≠ b.length then some 0x0A
  else if crcCcitt (b.take (b.length - 2)) ≠ beAt b (b.length - 2) 2 then some 0x09
  else none

/-- The sender of a C37.118.2 frame. -/
def whoC37 (f : RxFrame) : Who := ⟨0, f.conn, vlanCode f.vlan, f.src, f.v6, c37Id f.payload, if f.conn.isSome then f.dport else f.sport, f.port, none⟩

/-- A franking failure of stage 7 (R102, R118): dead, and, first of its SID or sender in 10 s, the notice; the standard alarm
runs from the last. `e` is the sender's cache entry, where it has one. -/
def State.frankFail (s : State) (w : Who) (e : Option Sender) (port code : Nat) : State :=
  let s := s.deadFrame (e.bind Sender.firstSid) port code
  let live := s.adm.frankMarks.filter fun m => decide (s.now < m.t + 10 * second)
  let mine (m : FrankMark) : Bool :=
    m.conn == w.conn && m.vlan == w.vlan && m.src == w.src && m.v6 == w.v6 && m.ident == w.ident && m.c37 == (w.kind == 0)
  let recent := match e with
    | some e => e.frankLog.any fun t => decide (s.now < t + 10 * second)
    | none => live.any mine
  let s := if recent then s
    else
      let s : State := match e with
        | some e => s.putSender { e with frankLog := some s.now }
        | none => { s with adm := { s.adm with frankMarks := live ++ [⟨w.conn, w.vlan, w.src, w.v6, w.ident, w.kind == 0, s.now⟩] } }
      s.notice bADM 6 w.ident code 0
  (s.stdSeen 1).stdAlarm 1 true

/-- Find or decide the sender of a C37.118.2 frame, and go on with it where its frames pass (R102 stages 5 to 8). -/
def State.withSender (s : State) (f : RxFrame) (k : State → Sender → State) : State :=
  let w := whoC37 f
  match s.sender w with
  | some e =>
    if !e.letIn then s.countHeldOff e
    else match c37Bad f.payload with
      | some code => s.deadFrame e.firstSid f.port code
      | none => if s.needsFrank e then s.frankFail w (some e) f.port 0x06 else k s e
  | none =>
    if s.holding then s
    else match c37Bad f.payload with
    | some code => s.deadFrame none f.port code
    | none =>
      let d := s.ruleFor w
      if d.2.1 then s.frankFail w none f.port 0x06
      else
        let s := s.decideNew w d
        match s.sender w with
        | some e => if e.letIn then k s e else s.countHeldOff e
        | none => s

/-! ### Data frames (R109 to R114, R128) -/

/-- Settle which descriptor reads a stream's block of a frame (R109): its words, or a reason code. -/
def State.pickDesc (s : State) (sid : Nat) (b : List Byte) : State × (List Word ⊕ Nat) :=
  let cur := s.desc sid
  let fits (ws : List Word) : Bool := descOk ws && dget ws Reg.DESC_FRAMESIZE 0 == b.length
  if !descOk cur then (s, .inr (if descSound cur && dget cur Reg.DESC_RATE 0 == 15 then 0x0B else 0x07))
  else
    match s.cand sid with
    | none => (s, if fits cur then .inl cur else .inr 0x08)
    | some c =>
      if fits cur then
        let bit := beAt b (14 + dget cur Reg.DESC_BLK_OFS 0) 2 / 0x400 % 2
        if c.seen10 ∧ bit = 0 then
          let s := s.useDesc sid c.words c.counts
          let ws := s.desc sid
          (s, if fits ws then .inl ws else .inr (if descSound ws && !descOk ws && dget ws Reg.DESC_RATE 0 == 15 then 0x0B else 0x08))
        else if bit = 1 then
          ({ s with adm := { s.adm with cands := s.adm.cands.map fun x => if x.sid == sid then { x with seen10 := true } else x } }, .inl cur)
        else (s, .inl cur)
      else if fits c.words then
        let s := s.useDesc sid c.words c.counts
        (s, .inl (s.desc sid))
      else (s, .inr 0x08)

/-- The letter of one block, or a reason code. -/
def State.blockLetter (s : State) (sid : Nat) (f : RxFrame) (arr : Time) : State × (Letter ⊕ Nat) :=
  match s.pickDesc sid f.payload with
  | (s, .inr code) => (s, .inr code)
  | (s, .inl ws) =>
    match s.toTai (beAt f.payload 6 4) (beAt f.payload 11 3) (descTimeBase ws) arr with
    | none => (s, .inr 0x01)
    | some t =>
      let v := blkVals ws (sfind s.adm.shapes sid) (f.payload.drop (14 + dget ws Reg.DESC_BLK_OFS 0))
      let lanB := match s.prpOf f.port with | some (_, b) => (if b then 1 else 0) | none => 0
      (s, .inl (s.mkLetter sid (descFlags ws (s.cand sid).isSome) f.port lanB (if f.conn.isSome then 1 else 0) (dget ws Reg.DESC_GEN 0) t arr ws v
        (beAt f.payload 10 1)))

/-- The first data frame of a stream without a descriptor starts its sender's requests (R110). -/
def State.startAsking (s : State) (k : Nat) : State :=
  match s.senderByKey k with
  | none => s
  | some e => if e.firstDead.isNone then s.putSender { e with firstDead := some s.now } else s

/-- What a frame that yields no letter leads to (R103, R110): it is dead once, with the first of the reasons its blocks give, and each
reason of any block asks what it asks. -/
def State.noLetter (s : State) (e : Sender) (port : Nat) (codes : List Nat) : State :=
  let s := s.deadFrame e.firstSid port (codes.headD 0x07)
  let s := if codes.contains 0x07 then s.startAsking e.key else s
  match s.senderByKey e.key with
  | none => s
  | some e => if codes.contains 0x08 then s.askCfg e else s

/-- Parse a data frame of an admitted sender. -/
def State.parseData (s : State) (e : Sender) (f : RxFrame) (arr : Time) : State :=
  if e.sids.isEmpty then s.noLetter e f.port [if e.badRate then 0x0B else 0x07]
  else
    let (s, ls, bad) := e.sids.foldl (fun (a : State × List Letter × List Nat) x =>
      match a.1.blockLetter x.1 f arr with
      | (s, .inl l) => (s, a.2.1 ++ [l], a.2.2)
      | (s, .inr c) => (s, a.2.1, a.2.2 ++ [c])) (s, [], [])
    if ls.isEmpty then s.noLetter e f.port bad
    else
      let s := if bad.contains 0x07 then s.startAsking e.key else s
      s.lettersFormed ls f.payload.length

/-- A frame goes on to stage 5: in a mode that processes streams (R28), over a connection, or to the port's address or a group it
joined and to the UDP port of its kind (R105). -/
def State.taken (s : State) (f : RxFrame) (udp : Nat) : Bool :=
  s.processing && (f.conn.isSome || (f.dport == udp && s.addrOk f.port f.dst f.v6))

/-- A C37.118.2 data frame past the front. -/
def State.c37Data (s : State) (f : RxFrame) (arr : Time) : State :=
  if s.taken f (s.rd Reg.NET_UDP_C37 []) then s.withSender f fun a e => a.parseData e f arr else s.disc f.port

/-! ### Configuration frames (R109, R111, R121) -/

/-- Put a new descriptor of a stream into force, or hold it as a candidate (R109). R111's record, once for each descriptor built, is read
as that of a truncated one (log entry 124, DEDUCED). -/
def State.newDesc (s : State) (sid : Nat) (ws : List Word) (c : Nat × Nat × Nat) : State :=
  let s := if dget ws Reg.DESC_TRUNC 0 = 1 then s.logEvent bADM 0x82 sid 0 0 else s
  if descOk (s.desc sid) then
    ({ s with adm := { s.adm with cands := (s.adm.cands.filter fun c => c.sid != sid) ++ [⟨sid, ws, false, c⟩] } } : State).wr Reg.STAB_CAND [sid] 1
  else
    let s := s.useDesc sid ws c
    if s.rd Reg.STAB_STATE [sid] = 2 ∧ descOk ws then s.goLive sid else s

/-- Build the descriptors of a configuration frame whose contents are whole. -/
def State.buildDescs (s : State) (e : Sender) (f : RxFrame) (v3 : Bool) (bs : List Byte) : State :=
  match cfgParse v3 bs with
  | none => s.deadFrame e.firstSid f.port 0x0A
  | some (tb, blks, rate) =>
    let ok := rateOf rate != 15
    let s := s.putSender { e with badRate := !ok }
    let s := if ok then s.allocBlocks e.key (blks.map (·.idcode)) else s
    match s.senderByKey e.key with
    | none => s
    | some e =>
      let mine := e.sids.filter fun x => decide (x.2 < blks.length)
      let s := forEach mine (fun x a => a.newDesc x.1 (buildDesc v3 (c37Id f.payload) tb blks rate x.2) (blkCount blks x.2)) s
      let s := if mine.isEmpty then s else s.notice bADM 2 e.ident blks.length 0
      let s := s.showAdm
      if ok ∧ e.conn.isSome then s.sendCmd e 2 else s

/-- A configuration frame of an admitted sender: CFG-2, CFG-3, or a part of a CFG-3. A header frame, a frame of a type that C37.118.2 does
not give, and a configuration frame whose blocks or parts cannot be read, are malformed (log entry 124, DESIGN CHOICE). -/
def State.parseCfg (s : State) (e : Sender) (f : RxFrame) : State :=
  let t := c37Type f.payload
  if t ≠ 3 ∧ t ≠ 5 then s.deadFrame e.firstSid f.port 0x0A
  else match cfgPart (t == 5) e.parts f.payload with
    | none => (s.putSender { e with parts := none }).deadFrame e.firstSid f.port 0x0A
    | some (.inr k) => s.putSender { e with parts := some k }
    | some (.inl bs) => let e := { e with parts := none }; (s.putSender e).buildDescs e f (t == 5) bs

/-- A C37.118.2 configuration frame past the front; CFG-1 is ignored. -/
def State.c37Cfg (s : State) (f : RxFrame) : State :=
  if !s.taken f (s.rd Reg.NET_UDP_C37 []) then s.disc f.port
  else if c37Type f.payload = 2 ∨ s.holding = true then s
  else s.withSender f fun a e => a.parseCfg e f

/-! ### Franking (R115 to R118) -/

/-- The replay window (R116): the window with the number taken, or none where it was seen or lies below. A window that
starts after a start has `base`, where it is not 0, as its highest number (R451). -/
def replayNext (base : Nat) (old : Option Replay) (sender keyId gen num : Nat) : Option Replay :=
  let old := old.filter fun r => r.keyId == keyId && r.gen == gen
  match if old.isNone ∧ base ≠ 0 then some ⟨sender, keyId, gen, base, 0⟩ else old with
  | none => some ⟨sender, keyId, gen, num, 0⟩
  | some r =>
    if r.high < num then some { r with high := num, seen := (r.seen * 2 + 1) * 2 ^ min 64 (num - r.high - 1) % 2 ^ 64 }
    else if num = r.high ∨ num + 64 < r.high then none
    else
      let i := r.high - 1 - num
      if r.seen / 2 ^ i % 2 = 1 then none else some { r with seen := r.seen + 2 ^ i }

/-- A sender's replay window with a franked SPDU's number taken, or none where it refuses it (R116). `key` names the sender by its cache
key, and a sender that is not in the cache yet by the key it will get. -/
def State.replayWindow (s : State) (key id gen num : Nat) : Option Replay :=
  replayNext (s.startHigh id) (s.adm.replay.find? fun r => r.sender == key) key id gen num

/-- A sender's replay window takes the place of its last one, and the number counts for the key (R116, R451). -/
def State.replayTake (s : State) (r : Replay) (id num : Nat) : State :=
  ({ s with adm := { s.adm with replay := (s.adm.replay.filter fun x => x.sender != r.sender) ++ [r] } } : State).noteRx id num

/-- Stage 7 (R115 to R117): whether the SPDU was franked, or the reason it fails. -/
def State.frank (s : State) (p : Spdu) (key : Nat) (need : Bool) : State × (Bool ⊕ Nat) :=
  if p.encrypted then (s, .inr 0x05)
  else match p.keyId with
    | none => (s, if need then .inr 0x06 else .inl false)
    | some id =>
      let gen := s.keyGen id
      match s.useKey id 0 p.alg with
      | (s, none) => (s, .inr 0x03)
      | (s, some mat) =>
        if !tagFits p.alg p.tagBits || frankTag p.alg p.tagBits mat (Config.gmacIv id p.num) p.signed != p.tag then (s, .inr 0x02)
        else match s.replayWindow key id gen p.num with
          | none => (s, .inr 0x04)
          | some r => (s.replayTake r id p.num, .inl true)

/-! ### 90-5 datasets (R112) -/

/-- The values of an R-SV or R-GOOSE dataset; `q` octets of quality follow each value. Quality words whose validity is
invalid set STAT bit 15; which bits of the word say so is not in the spec: its two low bits reading 1, as in IEC 61850 (log entry
72, PRESUMED). -/
def svVals (ws : List Word) (bs : List Byte) : BlkVals :=
  let q := if dget ws Reg.DESC_QUAL 0 = 1 then 4 else 0
  let goose := dget ws Reg.DESC_KIND 0 = 2
  let nf := if goose then 0 else 2
  let (p, a, d) := blkCounts ws none (nf * (4 + q)) (2 * (4 + q)) (4 + q) (2 + q)
  let vals := 2 * p + nf + a
  let o (i : Nat) : Nat := i * (4 + q)
  let od (i : Nat) : Nat := vals * (4 + q) + i * (2 + q)
  let bad := q != 0 && ((List.range vals).any (fun i => beAt bs (o i + 4) 4 % 4 == 1) || (List.range d).any fun i => beAt bs (od i + 2) 4 % 4 == 1)
  let polar := dget ws Reg.DESC_PH_POLAR 0 = 1
  let ph (i : Nat) : Word × Word :=
    let x := beWord bs (o (2 * i))
    let y := beWord bs (o (2 * i + 1))
    if polar then (F32.mul x (cosF y), F32.mul x (sinF y)) else (x, y)
  ⟨if bad then 0x8000 else 0, (List.range (min p 32)).map ph, if goose then F32.nan else beWord bs (o (2 * p)),
    if goose then F32.nan else beWord bs (o (2 * p + 1)),
    (List.range (min a 16)).map (fun i => F32.mul (beWord bs (o (2 * p + nf + i))) (BitVec.ofNat 32 (dget ws Reg.DESC_ANSCALE i))),
    (List.range (min d 8)).map fun i => beAt bs (od i) 2⟩

/-- One stream's letter from one ASDU, or a reason code. -/
def State.asduLetter (s : State) (sid port : Nat) (franked : Bool) (rg : Bool) (a : SpduAsdu) (arr : Time) : Letter ⊕ Nat :=
  let ws := s.desc sid
  let lanB := match s.prpOf port with | some (_, b) => (if b then 1 else 0) | none => 0
  let fl := (if franked then 0x1000 else 0) + dget ws Reg.DESC_TRUNC 0 * 0x8000 + (if dget ws Reg.DESC_PH_POLAR 0 = 1 then 0x4000 else 0)
  if !descOk ws ∨ dget ws Reg.DESC_KIND 0 ≠ (if rg then 2 else 1) then .inr 0x07
  else if a.data.length < dget ws Reg.DESC_BLK_OFS 0 + dget ws Reg.DESC_BLK_LEN 0 then .inr 0x08
  else
    let v := svVals ws (a.data.drop (dget ws Reg.DESC_BLK_OFS 0))
    let mk (fl : Nat) (t : Time) (tq : Nat) := s.mkLetter sid fl port lanB 0 (dget ws Reg.DESC_GEN 0) t arr ws v tq
    if rg then .inl (mk (fl + 0x100) arr ((a.refr.map (·.2.2)).getD 0))
    else match a.refr with
      | none => .inr 0x01
      | some (sec, fr, tq) => match s.toTai sec fr 16777216 arr with
        | none => .inr 0x01
        | some t => .inl (mk fl t tq)

/-- Parse an SPDU of an admitted sender: letters for R-SV, held values for R-GOOSE. -/
def State.parseSpdu (s : State) (e : Sender) (port : Nat) (p : Spdu) (franked : Bool) (arr : Time) : State :=
  let rs := p.asdus.flatMap fun a => e.sids.map fun x => s.asduLetter x.1 port franked p.rgoose a arr
  let ls := rs.filterMap fun r => match r with | .inl l => some l | .inr _ => none
  let bad := rs.filterMap fun r => match r with | .inl _ => none | .inr c => some c
  if ls.isEmpty then s.noLetter e port bad
  else if p.rgoose then
    forEach ls (fun l a => { a with adm := { a.adm with hold := sset a.adm.hold l.sid l } }) s
  else s.lettersFormed ls ((p.asdus.map fun a => a.data.length).sum)

def whoSpdu (f : RxFrame) (p : Spdu) : Who :=
  ⟨if p.rgoose then 2 else 1, none, vlanCode f.vlan, f.src, f.v6, p.appid, f.sport, f.port, p.keyId⟩

/-- An SPDU past the front (R102 stages 4 to 11). -/
def State.spduIn (s : State) (f : RxFrame) (p : Spdu) (arr : Time) : State :=
  let w := whoSpdu f p
  if f.conn.isSome || !s.taken f (s.rd Reg.NET_UDP_R905 []) then s.disc f.port
  else match s.sender w with
    | some e =>
      if !e.letIn then s.countHeldOff e
      else if !p.wellFormed then s.deadFrame e.firstSid f.port 0x0A
      else match s.frank p e.key (s.needsFrank e) with
        | (s, .inr code) => s.frankFail w (s.senderByKey e.key) f.port code
        | (s, .inl fr) => s.parseSpdu e f.port p fr arr
    | none =>
      if s.holding then s
      else if !p.wellFormed then s.deadFrame none f.port 0x0A
      else
        let d := s.ruleFor w
        match s.frank p s.adm.nextId d.2.1 with
        | (s, .inr code) => s.frankFail w none f.port code
        | (s, .inl fr) =>
          let s := s.decideNew w d
          match s.sender w with
          | some e => if e.letIn then s.parseSpdu e f.port p fr arr else s.countHeldOff e
          | none => { s with adm := { s.adm with replay := s.adm.replay.filter fun r => r.sender != s.adm.nextId } }

end Sys2Proof.Machine
end

