-- ==== Sys2Proof/Machine/AdmRows.lean ====
section
/-! DEFINITION. The rows of ingress and admission (R102 to R128): frames of streams, connections, requests, decisions,
retirement and descriptors written by the host. -/
namespace Sys2Proof.Machine

/-! ### Frames -/

def execC37DataFrame (f : RxFrame) (s : State) : Res := .next (s.onFrame f.toRxHead fun a => a.c37Data f (a.arrival f.toRxHead))
def execC37CfgFrame (f : RxFrame) (s : State) : Res := .next (s.onFrame f.toRxHead fun a => a.c37Cfg f)
def execSpduReceived (f : RxFrame) (p : Spdu) (s : State) : Res := .next (s.onFrame f.toRxHead fun a => a.spduIn f p (a.arrival f.toRxHead))

/-! ### Stream connections (R106 to R108) -/

def State.conn (s : State) (k : Nat) : Option Conn := s.net.conns.find? fun c => c.key == k
def State.putConn (s : State) (c : Conn) : State :=
  { s with net := { s.net with conns := s.net.conns.map fun x => if x.key == c.key then c else x } }

/-- The frames that are complete at the front of a connection's octets, and what is left; none where framing is lost. -/
def takeFrames : Nat → List Byte → List (List Byte) × Option (List Byte)
  | 0, bs => ([], some bs)
  | k + 1, bs =>
    if bs.length < 4 then ([], some bs)
    else
      let n := beAt bs 2 2
      if beAt bs 0 1 ≠ 0xAA ∨ n < 16 then ([], none)
      else if bs.length < n then ([], some bs)
      else
        let (fs, rest) := takeFrames k (bs.drop n)
        (bs.take n :: fs, rest)

/-- One frame received over a connection. -/
def State.tcpFrame (s : State) (f : RxFrame) (bs : List Byte) : State :=
  let g := { f with payload := bs }
  let t := c37Type bs
  if t = 0 then s.c37Data g (s.arrival f.toRxHead) else if t = 4 then s.disc f.port else s.c37Cfg g

/-- A segment: frames complete at its last byte arrive with its stamp (R108). -/
def State.tcpIn (s : State) (f : RxFrame) : State :=
  match f.conn.bind s.conn with
  | none => s.disc f.port
  | some c =>
    let all := c.buf ++ f.payload
    let (fs, rest) := takeFrames (all.length / 16 + 1) all
    let s := s.putConn { c with buf := rest.getD [] }
    let g := { f with src := c.addr, v6 := c.v6, dport := c.dport }
    let s := forEach fs (fun bs a => a.tcpFrame g bs) s
    if rest.isNone then s.deadFrame (((s.sender (whoC37 g)).bind Sender.firstSid)) f.port 0x0A else s

def execTcpSegment (f : RxFrame) (s : State) : Res := .next (s.onFrame f.toRxHead fun a => a.tcpIn f)

/-- The address a rule names: IPv4 stands in the first word of ADDR (R137). -/
def State.ruleDest (s : State) (r : Nat) : Nat := s.rdWords Reg.ADM_RULE_ADDR [r] (if s.flag Reg.ADM_RULE_V6 [r] then 4 else 1)

/-- The rules that ask for a connection (R106): VALID, TCP, and a whole address. -/
def State.connRules (s : State) : List Nat :=
  (s.entries 0x51000 64 256).filter fun r => s.flag Reg.ADM_RULE_VALID [r] && s.rd Reg.ADM_RULE_TRANSPORT [r] == 2 &&
    s.rd Reg.ADM_RULE_PREFIX [r] == (if s.flag Reg.ADM_RULE_V6 [r] then 128 else 32)

/-- The port a rule's connection goes to (R137). -/
def State.ruleTcp (s : State) (r : Nat) : Nat := let p := s.rd Reg.ADM_RULE_TCP_PORT [r]; if p = 0 then 4712 else p

/-- The IDCODE to ask over a connection: the pinned stream's, or the rule's lowest. -/
def State.connIdent (s : State) (c : Conn) : Nat :=
  match s.adm.senders.find? fun e => e.conn == some c.key with
  | some e => e.ident
  | none =>
    match (s.entries 0x400000 256 16384).find? fun sid => s.flag Reg.STAB_PINNED [sid] && s.flag Reg.STAB_TCP [sid] &&
        s.rdWords Reg.STAB_SRC [sid] 4 == c.addr && s.rd Reg.STAB_SRC_PORT [sid] == c.dport with
    | some sid => s.rd Reg.STAB_FR_IDCODE [sid]
    | none => match s.connRules.find? fun r => s.ruleDest r == c.addr && s.flag Reg.ADM_RULE_V6 [r] == c.v6 && s.ruleTcp r == c.dport with
      | some r => s.rd Reg.ADM_RULE_ID_LO [r]
      | none => 0

/-- Is a valid descriptor held for a stream of a connection (R106)? -/
def State.connDesc (s : State) (c : Conn) : Bool :=
  match s.adm.senders.find? fun e => e.conn == some c.key with
  | some e => e.sids.any fun x => descOk (s.desc x.1)
  | none => (s.entries 0x400000 256 16384).any fun sid => s.flag Reg.STAB_PINNED [sid] && s.flag Reg.STAB_TCP [sid] &&
      s.rdWords Reg.STAB_SRC [sid] 4 == c.addr && s.rd Reg.STAB_SRC_PORT [sid] == c.dport && descOk (s.desc sid)

/-- A new connection (R106): "send CFG-2", and "data on" where a valid descriptor is held. -/
def execTcpConnected (conn : Nat) (t : Time) (s : State) : Res :=
  let s := s.advance t
  match s.conn conn with
  | none => .next s
  | some c =>
    let ask (a : State) (cmd : Nat) : State := a.tx c.port 3 (a.rd Reg.NET_EGR_PCP_DATA []) none (.tcp conn (a.cmdBytes (a.connIdent c) cmd))
    let s := ask (s.putConn { c with up := true, waiting := false, fails := 0, buf := [] }) 5
    .next (if s.connDesc c then ask s 2 else s)

def execTcpConnFail (conn : Nat) (t : Time) (s : State) : Res :=
  let s := s.advance t
  match s.conn conn with
  | none => .next s
  | some c => .next (s.putConn { c with up := false, waiting := true, fails := c.fails + 1, buf := [], failAt := s.now })

/-- When a failed connection is opened again (R107): 1 s after its first failure, each further wait doubled up to 64 s. -/
def Conn.retryAt (c : Conn) : Time := c.failAt + min 64 (2 ^ (c.fails - 1)) * second

/-- Open a connection with its receive window of 64 KiB and the MSS of its port's largest frame (R106): less 22 octets of
Ethernet header, tag and FCS, and the IP and TCP headers (log entry 66). -/
def State.openConn (s : State) (c : Conn) : State :=
  let mss := (if s.flag Reg.NET_PORT_CFG_JUMBO [c.port] then 9216 else 1522) - 22 - (if c.v6 then 60 else 40)
  s.tx c.port 3 (s.rd Reg.NET_EGR_PCP_DATA []) none (.tcpOpen c.key c.addr c.v6 c.dport 65536 mss)

def execTcpReconnect (conn : Nat) (t : Time) (s : State) : Res :=
  let s := s.advance t
  match s.conn conn with
  | none => .next s
  | some c => .next (if c.waiting ∧ c.retryAt ≤ s.now then
      (s.putConn { c with waiting := false }).openConn c
    else s)

/-- The connections that pinned streams and committed rules ask for (R106): address, family, port, local port. The spec names no local port:
it is the lowest enabled one, of the rule's PORTS where a rule asks (log entry 66, DESIGN CHOICE). -/
def State.wantedConns (s : State) : List (Nat × Bool × Nat × Nat) :=
  let lowest (m : Nat) : Nat := ((List.range 4).find? fun p => s.flag Reg.NET_PORT_CFG_EN [p] && (m == 0 || m / 2 ^ p % 2 == 1)).getD 0
  let pinned := ((s.entries 0x400000 256 16384).filter fun sid => s.flag Reg.STAB_PINNED [sid] && s.flag Reg.STAB_TCP [sid]).map fun sid =>
    (s.rdWords Reg.STAB_SRC [sid] 4, decide (2 ^ 32 ≤ s.rdWords Reg.STAB_SRC [sid] 4), s.rd Reg.STAB_SRC_PORT [sid], lowest 0)
  let rules := s.connRules.map fun r => (s.ruleDest r, s.flag Reg.ADM_RULE_V6 [r], s.ruleTcp r, lowest (s.rd Reg.ADM_RULE_PORTS [r]))
  (pinned ++ rules).eraseDups

/-- Open what is not open yet; the 1,025th is refused (R107). -/
def State.openConns (s : State) : State :=
  forEach s.wantedConns (fun x a =>
    if a.net.conns.any fun c => c.addr == x.1 && c.v6 == x.2.1 && c.dport == x.2.2.1 then a
    else if 1024 ≤ a.net.conns.length then a.notice bADM 5 x.1 0 0
    else
      let c : Conn := ⟨a.adm.nextId, x.1, x.2.1, x.2.2.1, x.2.2.2, false, 0, false, [], 0⟩
      ({ a with adm := { a.adm with nextId := c.key + 1 }, net := { a.net with conns := a.net.conns ++ [c] } } : State).openConn c) s

/-! ### Timers of senders (R110, R119, R120) -/

/-- Is a sender without a valid descriptor for some of its streams, or without any stream yet (R110)? -/
def State.lacksDesc (s : State) (e : Sender) : Bool := e.sids.isEmpty || e.sids.any fun x => !descOk (s.desc x.1)

/-- When the next request of a stream without a descriptor falls due (R110): 2 s after its first data frame, then five times
every 2 s, then every 30 s (log entry 29). -/
def Sender.requestAt (e : Sender) : Option Time :=
  e.firstDead.map fun t => if e.reqN = 0 then t + 2 * second else (e.reqLast.getD t) + (if e.reqN ≤ 5 then 2 else 30) * second

/-- The request timer of a stream without a descriptor (R110). -/
def execCfgRequestTimer (sender : Nat) (t : Time) (s : State) : Res :=
  let s := s.advance t
  match s.senderByKey sender with
  | none => .next s
  | some e =>
    if e.letIn = false ∨ s.lacksDesc e = false then .next (s.putSender { e with firstDead := none, reqN := 0 })
    else .next (if e.requestAt.any fun u => decide (u ≤ s.now) then
        (s.putSender { e with reqN := e.reqN + 1, reqLast := some s.now }).sendCmd e 5
      else s)

def execPendingTimeout (entry : Fin 64) (t : Time) (s : State) : Res :=
  let s := s.advance t
  match s.adm.senders.find? fun e => e.entry == some entry.val && e.st == .pending with
  | none => .next s
  | some e => .next (if e.since + clampN 1 600 (s.rd Reg.ADM_CTL_HOST_TO []) * second ≤ s.now then s.refuse e else s)

def execRefusedExpiry (sender : Nat) (t : Time) (s : State) : Res :=
  let s := s.advance t
  match s.senderByKey sender with
  | none => .next s
  | some e => .next (if e.st = .refused ∧ e.since + 60 * second ≤ s.now then s.dropSender e else s)

/-! ### Host decisions (R121, R124, R135) -/

/-- A write of ADM_DECIDE. -/
def State.admDecideWrite (s : State) (w : Word) : State :=
  let n := Reg.ADM_DECIDE_ENTRY.get w
  let d := Reg.ADM_DECIDE_DECISION.get w
  match s.adm.senders.find? fun e => e.entry == some n with
  | none => s.wr Reg.ADM_DECIDE_STATUS [] 2
  | some e =>
    if d = 0 then
      if (s.heldSids e).isEmpty ∧ s.oldestFree.isNone then s.wr Reg.ADM_DECIDE_STATUS [] 3
      else (s.accept e).wr Reg.ADM_DECIDE_STATUS [] 1
    else if d = 2 then
      (((s.setFlag Reg.ADM_PEND_QUAR [n] true).putSender { e with st := .quarantined }).showAdm).wr Reg.ADM_DECIDE_STATUS [] 1
    else (s.refuse e).wr Reg.ADM_DECIDE_STATUS [] 1

def execAdmDecide (w : Word) (s : State) : Res := .next (s.hostGate (Reg.ADM_DECIDE_ENTRY.off []) w fun s => s.admDecideWrite w)

/-- Swap the rule banks. -/
def State.swapBanks (s : State) : State :=
  let a := s.listed 0x51000 0x55000
  let b := s.listed 0x55000 0x59000
  let va := a.map fun o => (o + 0x4000, s.word o)
  let vb := b.map fun o => (o - 0x4000, s.word o)
  let s := forEach (a ++ b) (fun o x => x.put 0x50000 o 0#32) s
  forEach (va ++ vb) (fun e x => x.put 0x50000 e.1 e.2) s

/-- The admitted senders that a new set of rules no longer lets in (R124). -/
def State.reeval (s : State) : List Sender :=
  (s.adm.senders.filter fun e => e.letIn && !(e.sids.any fun x => s.flag Reg.STAB_PINNED [x.1])).filter fun e =>
    let d := s.ruleFor ⟨e.kind, e.conn, e.vlan, e.src, e.v6, e.ident, e.sport, e.port, e.keyId⟩
    d.1 == 2 || d.1 == 3 || (d.2.1 && (e.kind == 0 || e.keyId.isNone))

/-- A write of ADM_CTL; COMMIT swaps the banks and clears the entries of senders not let in. With REEVAL the senders to retire are those of
the new rules; without, those that an earlier commit has made due stay due (R124). -/
def State.admCtlWrite (s : State) (w : Word) : State :=
  let s := s.wr Reg.ADM_CTL_HOST_TO [] (Reg.ADM_CTL_HOST_TO.get w) |>.wr Reg.ADM_CTL_DEFAULT [] (Reg.ADM_CTL_DEFAULT.get w)
    |>.wr Reg.ADM_CTL_REEVAL [] (Reg.ADM_CTL_REEVAL.get w)
  if Reg.ADM_CTL_COMMIT.get w = 0 then s
  else
    let s := s.swapBanks
    let s := forEach (s.adm.senders.filter fun e => !e.letIn) (fun e a => a.dropSender e) s
    let s : State := if s.flag Reg.ADM_CTL_REEVAL [] then
        let out := s.reeval
        { s with adm := { s.adm with retireAt := out.flatMap fun e => e.sids.map (·.1)
                                     dropAt := (out.filter fun e => e.sids.isEmpty).map (·.key) } }
      else s
    (s.notice bADM 7 0 0 0).openConns

def execAdmCommit (w : Word) (s : State) : Res := .next (s.hostGate (Reg.ADM_CTL_COMMIT.off []) w fun s => s.admCtlWrite w)

/-! ### Idle counting and retirement (R28, R122, R123) -/

/-- The idle count that a letter cleared although it is stamped at the instant or later, too late to cancel it (R7, R123). -/
def State.clearedLate (s : State) (sid : Nat) (t : Time) : Option Nat :=
  ((sfind s.adm.cleared sid).filter fun c => decide (t ≤ c.2)).map (·.1)

/-- A stream's reporting instant passes without a letter (R123). A member of a pair in STANDBY counts, and what follows from the
count reaches it through the copy (R415). -/
def State.idleInstant (s : State) (sid : Nat) (t : Time) : State :=
  let st := s.rd Reg.STAB_STATE [sid]
  if !s.processing ∨ (st ≠ 3 ∧ st ≠ 4) then s
  else
    let late := s.clearedLate sid t
    let n := min (late.getD (s.rd Reg.STAB_IDLE_CNT [sid]) + 1) 65535
    let s : State := { s with adm := { s.adm with cleared := serase s.adm.cleared sid } }
    if n < max 1 (s.rd Reg.STAB_IDLE_RI [sid]) ∨ s.holding then s.wr Reg.STAB_IDLE_CNT [sid] (if late.isSome then 0 else n)
    else
      let s := s.wr Reg.STAB_IDLE_CNT [sid] n
      if s.flag Reg.STAB_PINNED [sid] then s.wr Reg.STAB_STATE [sid] 4 else s.retire sid

def execStreamInstant (sid : Fin 16384) (t : Time) (s : State) : Res := .next ((s.advance t).idleInstant sid t)

/-- The SID is free 10 s after retirement. -/
def execSidQuarantineEnd (sid : Fin 16384) (t : Time) (s : State) : Res :=
  let s := s.advance t
  .next (if s.rd Reg.STAB_STATE [sid] = 1 ∧ sget s.adm.freedAt sid 0 + 10 * second ≤ s.now then
      (({ s with adm := { s.adm with freedAt := sset s.adm.freedAt sid s.now } } : State).wr Reg.STAB_STATE [sid] 0).showAdm
    else s)

/-! ### Descriptors written by the host (R113) -/

/-- A usable descriptor stands: it is shown, and its stream's Rounds judge it anew (R150). -/
def State.descStands (s : State) (sid : Nat) (ws : List Word) : State :=
  (s.showDesc sid ws).streamJudged sid

/-- A write of the CHECK word of a descriptor (R113). -/
def State.descCheckWrite (s : State) (sid : Nat) (w : Word) : State :=
  let off := Reg.DESC_CHECK.off [sid]
  let st := s.rd Reg.STAB_STATE [sid]
  let open_ := s.mode == .loading || s.mode == .service || st == 0 || st == 2
  if !open_ then s.logRefused off w.toNat
  else
    let s := s.put 0x800000 off w
    let ws := s.desc sid
    if st = 3 ∨ st = 4 then
      if descOk ws then
        let ws := dput ws Reg.DESC_GEN 0 (s.rd Reg.STAB_GEN [sid] + 1)
        let ws := dput ws Reg.DESC_CHECK 0 (descCheck ws)
        (((s.setCounts sid none).putDesc sid ws).dropCand sid).descStands sid ws
      else forEach (s.rndsNaming sid) (fun r a => a.showMembers r) (s.wr Reg.STAB_STATE [sid] 2).showAdm
    else if descOk ws then
      let s := (s.setCounts sid none).descStands sid ws
      if st = 2 then (s.goLive sid).showAdm
      else forEach (s.adm.senders.filter fun e => e.st == .awaiting) (fun e a => a.giveHeld e.key) s
    else s

def execDescriptorCheckWrite (sid : Fin 16384) (w : Word) (s : State) : Res :=
  .next (s.hostGate (Reg.DESC_CHECK.off [sid]) w fun s => s.descCheckWrite sid w)

/-! ### R-GOOSE sample-and-hold (R112) -/

/-- At an instant of an R-GOOSE stream: the last valid message's words with the instant's postmark. -/
def execRgooseHoldLetter (sid : Fin 16384) (t : Time) (s : State) : Res :=
  let s := s.advance t
  match sfind s.adm.hold sid with
  | none => .next s
  | some l =>
    if !s.processing ∨ s.rd Reg.STAB_STATE [sid] < 3 then .next s
    else
      let r := fps l.rate
      let n := instantOf t r
      .next (s.letterFormed { l with sec := n / r, k := n % r, flags := if l.flags / 0x800 % 2 = 1 then l.flags - 0x800 else l.flags } 0)

end Sys2Proof.Machine
end

