-- ==== Sys2Proof/Machine/Placement.lean ====
section
/-! DEFINITION. Placement (R18, R196 to R203, R221, R222): the active set, homes and fallbacks, bundles, affinities, the pass, the
fast rebalance, pins, and the moves of flows. Loads and affinities are kept as numbers whose unit the spec leaves open: sorter
cycles per second, and 2^-16 of a cost unit (log entry 28). -/
namespace Sys2Proof.Machine

/-! ### The active set and fallbacks (R221) -/

/-- The next sorter of the active set after one, in number order, wrapping. -/
def State.nextActive (s : State) (n : Nat) : Nat :=
  let a := sortAsc s.sof.active
  (a.find? fun k => decide (n < k)).getD (a.headD n)

/-- Every flow that may have a home: streams, Rounds, analysis groups, and housekeeping flows that have been homed. -/
def State.allFlows (s : State) : List Nat :=
  List.range 0x4008 ++ (List.range 64).map (0x4400 + ·) ++ (List.range 256).map (0x4800 + ·) ++ s.sof.homes.map (·.1)

/-- Every flow's fallback is the next sorter of the active set after its home. -/
def State.setFallbacks (s : State) : State := forEach s.allFlows (fun f a => a.setFallback f (a.nextActive (a.ownHome f))) s

/-- PLC_STAT.ACTIVE shows the active set; ACTIVE_CHG tells that it changed (R228). -/
def State.showActive (s : State) : State :=
  let n := s.sof.active.length
  if s.rd Reg.PLC_STAT_ACTIVE [] = n then s else (s.wr Reg.PLC_STAT_ACTIVE [] n).notice bPLC 3 n 0 0

/-- A new active set: sorters in Off that join it are woken, ACTIVE is shown, and fallbacks follow. -/
def State.setActive (s : State) (xs : List Nat) : State :=
  let old := sortAsc s.sof.active
  let xs := sortAsc xs
  if xs = old ∧ s.rd Reg.PLC_STAT_ACTIVE [] = xs.length then s
  else
    let s : State := { s with sof := { s.sof with active := xs } }
    let s := s.showActive
    let s := if s.processing then forEach (xs.filter fun n => s.srtState n == 3) (fun n a => a.wake n none) s else s
    s.setFallbacks

/-! ### Pins (R202) -/

/-- The sorter a flow is pinned to. -/
def State.pinOf (s : State) (f : Nat) : Option Nat :=
  if f < 0x4008 then (if s.stabRd Reg.STAB_PIN Reg.LSTAB_PIN f = 1 then some (s.stabRd Reg.STAB_PIN_SRT Reg.LSTAB_PIN_SRT f) else none)
  else if 0x4400 ≤ f ∧ f < 0x4440 then (if s.flag Reg.PLC_RND_PIN [f - 0x4400] then some (s.rd Reg.PLC_RND_PIN_SRT [f - 0x4400]) else none)
  else if 0x4800 ≤ f ∧ f < 0x4900 then (if s.flag Reg.PLC_AG_PIN [f - 0x4800] then some (s.rd Reg.PLC_AG_PIN_SRT [f - 0x4800]) else none)
  else none

/-- The pinned flows. -/
def State.pinnedFlows (s : State) : List Nat := (s.allFlows.take 0x4148).filter fun f => (s.pinOf f).isSome

/-- HOMED of every sorter, counted anew (R220). -/
def State.showHomed (s : State) : State :=
  let hs := s.allFlows.map s.ownHome
  forEach (List.range 64) (fun n a => a.wr Reg.SRT_HOMED [n] (hs.filter (· == n)).length) s

/-- Sorters that placement has left with nothing go to Off (R21, R199). -/
def State.restSurplus (s : State) : State :=
  forEach (List.range 64) (fun n a => if a.processing && a.surplus n then a.sorterOff n else a) s

/-- The first homing (R221): pinned flows on their sorters, which join the active set, the others round-robin over the first
MIN_ACTIVE unfenced sorters. -/
def State.homeAll (s : State) : State :=
  let n := clampN 1 64 (s.rd Reg.PLC_CFG_MIN_ACTIVE [])
  let base := s.unfenced.take n
  let pins := ((s.pinnedFlows.filterMap s.pinOf).filter fun k => !s.fenced k).eraseDups
  let xs := sortAsc (base ++ pins.filter fun k => !base.contains k)
  let deal (a : State × Nat) (f : Nat) : State × Nat :=
    match a.1.pinOf f with
    | some k => if a.1.fenced k then (a.1.setHome f (nth base (a.2 % max 1 base.length) 0), a.2 + 1) else (a.1.setHome f k, a.2)
    | none => (a.1.setHome f (nth base (a.2 % max 1 base.length) 0), a.2 + 1)
  let s := ((List.range 0x4008).foldl deal (s, 0)).1
  let s := (((List.range 64).map (0x4400 + ·)).foldl deal (s, 0)).1
  let s := (((List.range 256).map (0x4800 + ·)).foldl deal (s, 0)).1
  let s : State := { s with sof := { s.sof with active := xs, homes := [], fallbacks := [], moves := [], movedAt := [], aff := [], loads := [], tabCrc := 0 } }
  s.showActive.setFallbacks.showHomed

/-- Homes kept over a warm start (R222): one that names a fenced sorter is replaced; a lost pin is noticed. -/
def State.homeKept (s : State) : State :=
  let live := s.sof.active.filter fun n => !s.fenced n
  let s : State := { s with sof := { s.sof with active := if live.isEmpty then s.unfenced.take (clampN 1 64 (s.rd Reg.PLC_CFG_MIN_ACTIVE [])) else live
                                                moves := [], rebalance := [], pinLost := [] } }
  let s := forEach s.allFlows (fun f a => if a.fenced (a.ownHome f) then a.setHome f (a.nextActive (a.ownHome f)) else a) s
  -- a pin that names a fenced sorter: its flow is homed elsewhere now, or was before (R202)
  let s := forEach s.pinnedFlows (fun f a => match a.pinOf f with
    | some k => if a.fenced k then ({ a with sof := { a.sof with pinLost := a.sof.pinLost ++ [(f, k)] } } : State).notice bPLC 1 f k 0 else a
    | none => a) s
  s.showActive.setFallbacks.showHomed

/-! ### Moves (R200) -/

/-- Schedule a move of a flow. -/
def State.scheduleMove (s : State) (f dst : Nat) : State :=
  if s.sof.moves.any fun m => m.flow == f then s
  else ({ s with sof := { s.sof with moves := s.sof.moves ++ [⟨f, dst, false, false⟩] } } : State).showMoves

/-- A scheduled move begins: the flow's items that have not started wait at the destination, held, and so do its new ones; its
state is copied once it has nothing in service (log entry 54). -/
def State.beginMove (s : State) (f : Nat) : State :=
  match s.sof.moves.find? fun m => m.flow == f with
  | none => s
  | some m =>
    let s : State := { s with sof := { s.sof with moves := s.sof.moves.map fun m => if m.flow = f then { m with started := true } else m } }
    let s := (s.mapItems fun i => if i.flow == f && !i.serving then { i with held := true, srt := m.dst, guest := false, ready := none } else i).moveQuiet f
    s.showDepth (s.ownHome f)

/-- At a boundary the oldest scheduled moves begin, at most MOVES_BND; one whose destination is fenced is abandoned. -/
def State.beginMoves (s : State) : State :=
  let s : State := { s with sof := { s.sof with moves := s.sof.moves.filter fun m => m.started || !s.fenced m.dst } }
  let go := (s.sof.moves.filter fun m => !m.started).take (max 1 (s.rd Reg.PLC_CFG_MOVES_BND []))
  (forEach go (fun m a => a.beginMove m.flow) s).showMoves

/-- The state of a moving flow is copied: the destination becomes its home. A destination fenced meanwhile abandons the move;
where the source was fenced during the copy, a group resumes from its checkpoint (R203). -/
def State.finishMove (s : State) (m : Move) : State :=
  if s.fenced m.dst then (s.endMove m.flow).releaseHeld m.flow
  else
    let src := s.ownHome m.flow
    let s := if s.fenced src ∧ 0x4800 ≤ m.flow ∧ m.flow < 0x4900 then s.resumeGrp (m.flow - 0x4800) else s
    let s := (s.rehome m.flow m.dst).setFallback m.flow (s.nextActive m.dst)
    let s : State := { s with sof := { s.sof with movedAt := sset s.sof.movedAt m.flow s.now } }
    ((s.endMove m.flow).releaseHeld m.flow).restSurplus

def execFlowStateCopyDone (flow : Nat) (t : Time) (s : State) : Res :=
  let s := s.advance t
  match s.sof.moves.find? fun m => m.flow == flow && m.copying with
  | some m => .next (s.finishMove m)
  | none => .next s

/-! ### Bundles (R197) -/

/-- A bundle: a key that stays the same from pass to pass, its flows, its coherent group, and whether the loop may move it. -/
structure Bundle where
  key : Nat
  flows : List Nat
  coh : Option Nat
  free : Bool

/-- The coherent group of a stream, by the last complete clustering. -/
def State.cohOf (s : State) (sid : Nat) : Option Nat :=
  match s.isl.coh with
  | none => none
  | some xs => (xs.find? fun x => s.rd Reg.SITE_SID [x.1] == sid).map (·.2)

/-- The source that COH_SRC names (R196): none; the current clustering; or the previous one, while a newer is under way, or falls
at this same boundary (`cue`). -/
def State.cohSrc (s : State) (cue : Bool) : Nat :=
  let st := s.rd Reg.ISL_STAT_STATE []
  if (st ≠ 1 ∧ st ≠ 2) ∨ s.isl.coh.isNone then 0
  else if cue || s.sof.items.any (fun i => i.flow == 0x5002 && !i.ran) then 2 else 1

/-- The streams: those with a life state, and the local ones. -/
def State.streams (s : State) : List Nat :=
  ((List.range 16384).filter fun sid => s.rd Reg.STAB_STATE [sid] != 0) ++ (List.range 8).map (16384 + ·)

def State.loadOf (s : State) (f : Nat) : Nat := sget s.sof.loads f 0

/-- A sorter's capacity, cycles per second (R198). -/
def State.capacity (s : State) : Nat := s.sof.clk * 1000000

/-- Cut a list of flows into chunks whose load stays within a limit; `none` is no limit. -/
def chunked (load : Nat → Nat) (limit : Nat) (fs : List Nat) : List (List Nat) :=
  (fs.foldl (fun (a : List (List Nat)) f =>
    match a with
    | c :: r => if (c.map load).sum + load f ≤ limit then (c ++ [f]) :: r else [f] :: c :: r
    | [] => [[f]]) []).reverse

/-- The key of an unpinned stream: its coherent group, else the lowest Round that names it, else itself. -/
def State.bundleKey (s : State) (useCoh : Bool) (sid : Nat) : Nat :=
  match (if useCoh then s.cohOf sid else none) with
  | some c => 2 ^ 32 + c
  | none => match s.rndsOn.find? fun r => s.isMember r sid with
    | some r => 2 ^ 33 + r
    | none => sid

/-- The bundles of the moment. -/
def State.bundles (s : State) : List Bundle :=
  let useCoh := s.cohSrc false != 0
  let ss := s.streams.filter fun f => (s.pinOf f).isNone
  let limit := clampN 1 50 (s.rd Reg.PLC_TGT_CHUNK []) * s.capacity / 100
  let keyed := ss.map fun f => (s.bundleKey useCoh f, f)
  let keys := (keyed.map (·.1)).eraseDups
  let strm := keys.flatMap fun k =>
    let fs := (keyed.filter fun x => x.1 == k).map (·.2)
    let cs := if (fs.map s.loadOf).sum ≤ limit then [fs] else chunked s.loadOf limit fs
    cs.zipIdx.map fun c => ({ key := k * 2 ^ 16 + c.2, flows := c.1, coh := if 2 ^ 32 ≤ k ∧ k < 2 ^ 33 then some (k - 2 ^ 32) else none, free := true } : Bundle)
  let own (f : Nat) : Bundle := { key := 2 ^ 60 + f, flows := [f], coh := none, free := (s.pinOf f).isNone }
  strm ++ (s.streams.filter fun f => (s.pinOf f).isSome).map (fun f => ({ key := f * 2 ^ 16, flows := [f], coh := none, free := false } : Bundle)) ++
    s.rndsOn.map (fun r => own (0x4400 + r)) ++ s.grpsOn.map fun g => own (0x4800 + g)

def bundleHome (s : State) (b : Bundle) : Nat := s.ownHome (b.flows.headD 0)

/-- A bundle's load, with that of the flows that follow it. -/
def bundleLoad (s : State) (b : Bundle) : Nat :=
  (s.sof.loads.map fun e => if b.flows.contains ((s.feeder e.1).getD e.1) then e.2 else 0).sum

/-- A bundle that moved within HOLD_S is held. -/
def bundleHeld (s : State) (b : Bundle) : Bool :=
  b.flows.any fun f => match sfind s.sof.movedAt f with | some t => decide (s.now < t + s.rd Reg.PLC_CFG_HOLD_S [] * second) | none => false

/-! ### Affinity and load (R198) -/

/-- The Rounds that name members of a bundle; a Round's own flow counts as named by it. -/
def bundleRnds (s : State) (b : Bundle) : List Nat :=
  s.rndsOn.filter fun r => b.flows.any fun f => f == 0x4400 + r || (decide (f < 0x4008) && s.isMember r f)

/-- The channels of analysis-group bundle `y` that draw on streams of `x`. -/
def State.sharedChans (s : State) (x y : Bundle) : Nat :=
  let f := y.flows.headD 0
  if 0x4800 ≤ f ∧ f < 0x4900 then ((s.chansOf (f - 0x4800)).filter fun c => x.flows.contains (s.rd Reg.CH_SID [c])).length else 0

def State.affNew (s : State) (x y : Bundle) : Nat :=
  let rs := bundleRnds s y
  s.rd Reg.PLC_AFF_WR [] * ((bundleRnds s x).filter rs.contains).length +
    (if x.coh.isSome && x.coh == y.coh then s.rd Reg.PLC_AFF_WC [] else 0) + s.rd Reg.PLC_AFF_WA [] * (s.sharedChans x y + s.sharedChans y x)

/-- Each pair of a list, the earlier first. -/
def pairsOf {α : Type} : List α → List (α × α)
  | [] => []
  | x :: r => r.map (fun y => (x, y)) ++ pairsOf r

def affGet (m : List ((Nat × Nat) × Nat)) (x y : Nat) : Nat :=
  ((m.find? fun e => e.1 == (min x y, max x y)).map (·.2)).getD 0

/-- Affinities after a pass: a + (new − a) / 8. -/
def State.affUpdate (s : State) (bs : List Bundle) : List ((Nat × Nat) × Nat) :=
  (pairsOf bs).filterMap fun p =>
    let v := roundDiv (7 * affGet s.sof.aff p.1.key p.2.key + s.affNew p.1 p.2 * 65536) 8
    if v = 0 then none else some ((min p.1.key p.2.key, max p.1.key p.2.key), v)

/-- The affinity and load tables as bytes in DRAM; the spec gives no layout (log entry 61). -/
def State.tabBytes (s : State) : List Byte :=
  s.sof.loads.flatMap (fun e => leBytes 2 e.1 ++ leBytes 8 e.2) ++
    s.sof.aff.flatMap fun e => leBytes 8 e.1.1 ++ leBytes 8 e.1.2 ++ leBytes 4 e.2

/-- Store the tables' CRC-32C with them (R222). -/
def State.sealTables (s : State) : State := { s with sof := { s.sof with tabCrc := crc32c s.tabBytes } }

/-- Loads after a second: load + (sample − load) / 4, shown for streams (R198). -/
def State.loadUpdate (s : State) : State :=
  let fs := ((s.sof.loads.map (·.1)) ++ (s.sof.used.map (·.1))).eraseDups
  let ls := fs.map fun f => (f, roundDiv (3 * s.loadOf f + sget s.sof.used f 0) 4)
  let s : State := { s with sof := { s.sof with loads := ls.filter fun e => e.2 != 0, used := [], loadSec := secOf s.now } }
  let s := forEach (ls.filter fun e => decide (e.1 < 0x4008)) (fun e a => a.stabWr Reg.STAB_LOAD Reg.LSTAB_LOAD e.1 e.2) s
  s.sealTables.showLoads

/-! ### The pass (R199) -/

def State.capPct (s : State) : Nat := clampN 10 100 (s.rd Reg.PLC_TGT_CAP [])
def State.utilPct (s : State) : Nat := clampN 10 s.capPct (s.rd Reg.PLC_TGT_UTIL [])

/-- What a pass plans with: bundles with load and planned home, the homes and loads of flows in no bundle, and affinities. -/
structure Plan where
  bs : List (Bundle × Nat × Nat)
  loose : List (Nat × Nat)
  aff : List ((Nat × Nat) × Nat)
  wl : Nat
  limit : Nat
  capacity : Nat

/-- The load of a sorter without a bundle. -/
def Plan.without (p : Plan) (key n : Nat) : Nat :=
  ((p.bs.filter fun b => b.2.2 == n && b.1.key != key).map (·.2.1)).sum + ((p.loose.filter fun e => e.1 == n).map (·.2)).sum

/-- The cost of a bundle on a sorter. -/
def Plan.cost (p : Plan) (b : Bundle × Nat × Nat) (n : Nat) : Nat :=
  p.wl * roundDiv ((p.without b.1.key n + b.2.1 - p.limit) * 100 * 65536) (max 1 p.capacity) +
    ((p.bs.filter fun x => x.2.2 != n && x.1.key != b.1.key).map fun x => affGet p.aff b.1.key x.1.key).sum

/-- The least element of a list by a measure, the earliest among equals. -/
def argMin (f : Nat → Nat) : List Nat → Option Nat
  | [] => none
  | x :: r => match argMin f r with
    | none => some x
    | some y => if f y < f x then some y else some x

def Plan.move (p : Plan) (key n : Nat) : Plan := { p with bs := p.bs.map fun b => if b.1.key = key then (b.1, b.2.1, n) else b }

/-- One pass over the bundles in order: the plan and the moves, of bundle keys. -/
def planPass (held : Bundle → Bool) (active : List Nat) (gainMin maxMoves : Nat) (p : Plan) : Plan × List (Bundle × Nat) :=
  let order := sortBy (fun (a b : Bundle × Nat × Nat) =>
    decide (b.2.1 < a.2.1) || (a.2.1 == b.2.1 && decide (a.1.flows.headD 0 < b.1.flows.headD 0))) p.bs
  order.foldl (fun (acc : Plan × List (Bundle × Nat)) b =>
    if !b.1.free || held b.1 || decide (maxMoves ≤ acc.2.length) then acc
    else
      match argMin (acc.1.cost b) active with
      | none => acc
      | some best =>
        let gain : Int := (acc.1.cost b b.2.2 : Int) - acc.1.cost b best
        if !active.contains b.2.2 ∨ (gainMin * 65536 : Int) ≤ gain then (acc.1.move b.1.key best, acc.2 ++ [(b.1, best)]) else acc) (p, [])

/-- The load a sorter holds by the homes of flows. -/
def State.sorterLoad (s : State) (n : Nat) : Nat := (s.sof.loads.map fun e => if s.home e.1 = n then e.2 else 0).sum

def State.plan (s : State) (bs : List Bundle) : Plan :=
  let rest := s.sof.loads.filter fun e => !bs.any fun b => b.flows.contains ((s.feeder e.1).getD e.1)
  ⟨bs.map fun b => (b, bundleLoad s b, bundleHome s b), rest.map fun e => (s.home e.1, e.2), s.sof.aff, s.rd Reg.PLC_AFF_WL [], s.utilPct * s.capacity / 100, s.capacity⟩

/-- The active set that a pass chooses: the unfenced sorters with the most load. -/
def State.chooseActive (s : State) : List Nat :=
  let tot := (s.sof.loads.map (·.2)).sum
  let n := min (max (clampN 1 64 (s.rd Reg.PLC_CFG_MIN_ACTIVE [])) (ceilDiv (tot * 100) (max 1 (s.utilPct * s.capacity)))) s.unfenced.length
  ((sortBy (fun (a b : Nat × Nat) => decide (b.2 < a.2) || (a.2 == b.2 && decide (a.1 < b.1))) (s.unfenced.map fun k => (k, s.sorterLoad k))).take n).map (·.1)

/-- Housekeeping flows with no feeder go to the least loaded active sorter (R197). -/
def State.homeLoose (s : State) : State :=
  let fs := (s.sof.homes.map (·.1) ++ (s.sof.loads.map (·.1)).filter fun f => decide (0x4008 ≤ f) && (s.feeder f).isNone &&
    !orderedFlow f && !decide (0x4800 ≤ f ∧ f < 0x4900)).eraseDups
  match argMin s.sorterLoad (sortAsc s.sof.active) with
  | none => s
  | some n => forEach fs (fun f a =>
      (if (sfind a.sof.homes f).isSome then a.rehome f n else (a.setHome f n).inc Reg.SRT_HOMED [n]).setFallback f (a.nextActive n)) s

/-- The affinity cut by the homes after a pass, in cost units, saturating. -/
def Plan.cut (p : Plan) : Nat :=
  min (2 ^ 32 - 1) ((((pairsOf p.bs).filter fun x => x.1.2.2 != x.2.2.2).map fun x => affGet p.aff x.1.1.key x.2.1.key).sum / 65536)

/-- A placement pass (R196, R199); `cue`: a clustering falls at the same boundary. -/
def State.placementPass (s : State) (cue : Bool) : State :=
  let src := s.cohSrc cue
  let bs := s.bundles
  let s : State := { s with sof := { s.sof with aff := s.affUpdate bs } }
  let s := s.sealTables
  let s := forEach bs.zipIdx (fun b a => forEach (b.1.flows.filter fun f => decide (f < 0x4008)) (fun f a => a.stabWr Reg.STAB_BUNDLE Reg.LSTAB_BUNDLE f b.2) a) s
  let act := s.chooseActive
  let s := (s.setActive act).homeLoose
  let (p, ms) := planPass (bundleHeld s) (sortAsc act) (s.rd Reg.PLC_GAIN_GAIN_MIN []) (max 1 (s.rd Reg.PLC_GAIN_MAX_MOVES [])) (s.plan bs)
  let s := forEach ms (fun m a => forEach (m.1.flows.filter fun f => a.ownHome f != m.2) (fun f a => a.scheduleMove f m.2) a) s
  let s := s.inc Reg.PLC_STAT_PASSES [] |>.wr Reg.PLC_STAT_COH_SRC [] src |>.wr Reg.PLC_MOVES_LAST [] ms.length |>.wr Reg.PLC_CUT_VALUE [] p.cut
  s.notice bPLC 0 ms.length 0 0

/-! ### The fast rebalance (R201) -/

/-- Move the heaviest unpinned bundles off a sorter until its load is below UTIL; `fuel` bounds their number. -/
def State.shedLoad (s : State) (n : Nat) (p : Plan) : Nat → State × Plan
  | 0 => (s, p)
  | k + 1 =>
    if p.without (2 ^ 70) n < p.limit then (s, p)
    else
      let mine := p.bs.filter fun b => b.2.2 == n && b.1.free
      match sortBy (fun (a b : Bundle × Nat × Nat) => decide (b.2.1 < a.2.1)) mine with
      | [] => (s, p)
      | b :: _ =>
        let room := (sortAsc s.sof.active).filter fun a => a != n && decide (p.without (2 ^ 70) a + b.2.1 ≤ p.limit)
        let (s, dst) := match argMin (p.without (2 ^ 70)) room with
          | some d => (s, some d)
          | none => match s.unfenced.find? fun d => s.srtState d == 3 && !s.sof.active.contains d with
            | some d => (s.setActive (s.sof.active ++ [d]), some d)
            | none => (s, none)
        match dst with
        | none => (s, p)
        | some d => (forEach b.1.flows (fun f a => a.scheduleMove f d) s).shedLoad n (p.move b.1.key d) k

/-- The overloaded sorters shed load; their moves come before those already scheduled. -/
def State.rebalanceRun (s : State) : State :=
  if s.sof.rebalance.isEmpty then s
  else
    let old := s.sof.moves.filter fun m => !m.started
    let s : State := { s with sof := { s.sof with moves := s.sof.moves.filter (·.started) } }
    let bs := s.bundles
    let s := forEach s.sof.rebalance (fun n a => (a.shedLoad n (a.plan bs) bs.length).1) s
    let new := s.sof.moves
    let keep := old.filter fun m => !new.any fun x => x.flow == m.flow
    ({ s with sof := { s.sof with rebalance := [], moves := new ++ keep } } : State).showMoves

/-! ### The RND0 boundary -/

/-- A pinned flow goes to its sorter, or, where that is fenced, to its fallback with a notice (R202); a flow that a fence has just
moved (`moved`) is on its fallback. With `en` false homes are frozen (R225). -/
def State.pinFlow (s : State) (en : Bool) (moved : List Nat) (f : Nat) : State :=
  match s.pinOf f with
  | none => s
  | some k =>
    if s.sof.moves.any fun m => m.flow == f && m.started then s
    else if s.fenced k then
      if s.sof.pinLost.contains (f, k) then s
      else
        let s : State := { s with sof := { s.sof with pinLost := s.sof.pinLost ++ [(f, k)] } }
        let n := s.ownFallback f
        (if moved.contains f || !en then s else (s.rehome f n).setFallback f (s.nextActive n)).notice bPLC 1 f k 0
    else
      if s.ownHome f = k || !en then s
      else
        let s := if s.sof.active.contains k then s else s.setActive (s.sof.active ++ [k])
        let s : State := { s with sof := { s.sof with moves := s.sof.moves.filter fun m => m.flow != f } }
        ((s.scheduleMove f k).beginMove f)

/-- The flows that a fenced sorter must lose: those homed on it whose move away has not begun (R18, R203). -/
def State.fencedFlows (s : State) : List Nat :=
  s.allFlows.filter fun f => s.fenced (s.ownHome f) && !s.sof.moves.any fun m => m.flow == f && m.started

/-- The flows homed on a fenced sorter move to the next of the active set; a group resumes from its checkpoint (R18, R271). -/
def State.leaveFenced (s : State) : State :=
  forEach s.fencedFlows (fun f a =>
    let n := a.nextActive (a.ownHome f)
    let a := (a.rehome f n).setFallback f (a.nextActive n)
    if 0x4800 ≤ f ∧ f < 0x4900 ∧ a.grpsOn.contains (f - 0x4800) then (a.resumeGrp (f - 0x4800)).showGrp (f - 0x4800) else a) s

/-- The active set is shown and not empty. -/
def State.activeDue (s : State) : State :=
  if s.rd Reg.PLC_STAT_ACTIVE [] != s.sof.active.length || s.sof.active.isEmpty then
    s.setActive (if s.sof.active.isEmpty then s.unfenced.take 1 else s.sof.active)
  else s

/-- Placement at an RND0 mailbag boundary: fences, pins, the loads and the pass once a second, the rebalance, and the moves that
begin. With EN = 0 homes are frozen but for fence moves (R225). -/
def State.placementBoundary (s : State) (cue : Bool) : State :=
  let en := s.flag Reg.PLC_CFG_EN []
  -- the first boundary after a second boundary is the one at which a pass may run (R196)
  let first := decide (s.sof.lastPass < secOf s.now)
  let s : State := { s with sof := { s.sof with lastPass := secOf s.now, pinLost := s.sof.pinLost.filter fun x => s.pinOf x.1 == some x.2 } }
  let s := s.activeDue
  let moved := s.fencedFlows
  let s := s.leaveFenced
  let s := forEach s.pinnedFlows (fun f a => a.pinFlow en moved f) s
  let s := if s.sof.loadSec < secOf s.now then s.loadUpdate else s
  if en then
    let s := s.rebalanceRun
    let s := if s.processing && first then s.placementPass cue else s
    s.beginMoves.restSurplus
  else ({ s with sof := { s.sof with rebalance := [] } } : State).restSurplus

end Sys2Proof.Machine
end

