-- ==== Sys2Proof/Machine/MirrorWrite.lean ====
section
/-! DEFINITION. Host writes to the mirrored blocks, ADM, WHL, OSC, ISL and ALM (R113, R152, R169, R295, R301, R418): what a write of a
whole word does when it takes effect. The block's notice registers have rows of their own. -/
namespace Sys2Proof.Machine

/-- A write of WHL_RNDn_COMMIT (R152). -/
def State.commitWrite (s : State) (r : Nat) (w : Word) : State :=
  if Reg.WHL_RND_COMMIT_GO.get w = 0 ∨ s.rd Reg.WHL_RND_COMMIT_STATUS [r] = 1 then s
  else if 65535 < s.frameSize r (s.membersIn Reg.WHL_MEMB_SHADOW r).length then
    (s.wr Reg.WHL_RND_COMMIT_STATUS [r] 3).whlNotice r 2 0 0
  else s.announce r

/-- Hold an RWL value of a Round until its next mailbag boundary (R169, R301). -/
def State.holdCfg (s : State) (r off : Nat) (w : Word) : State :=
  let st := s.rndSt r
  s.setRnd r { st with pendCfg := (st.pendCfg.filter fun e => e.1 != off) ++ [(off, w)] }

/-- A Round is disabled: its flow ends (R193) and no mailbag stays open. -/
def State.roundOff (s : State) (r : Nat) : State :=
  let st := s.rndSt r
  (s.setRnd r { st with bags := [], adds := [] }).endFlow (0x4400 + r)

/-- A Round was enabled or disabled by a write. -/
def State.roundSwitch (s : State) (r : Nat) (was : Bool) : State :=
  if was == s.rndOn r then s else (if was then s.roundOff r else s).checkMachines

/-- A word of a Round's block. While the Round dispatches, in SERVICE, its RWL values wait for the boundary; disabling it does not,
and what waited stands then. A change of layout of a Round that is off takes effect at once (R169; log entry 63). -/
def State.rndWrite (s : State) (r off : Nat) (w : Word) : State :=
  if off = Reg.WHL_RND_COMMIT_GO.off [r] then s.commitWrite r w
  else if off = Reg.WHL_RND_MAX_DSP.off [r] then s.wr Reg.WHL_RND_MAX_DSP [r] 0
  else
    let was := s.rndOn r
    if s.processing && s.rwlOpen && was && rwlMask off != 0#32 && off != Reg.PLC_RND_HOME.off [r] then
      let s := (s.setWord off (storedWord off false (s.word off) w)).holdCfg r off w
      if off = Reg.WHL_RND_CTL_EN.off [r] ∧ Reg.WHL_RND_CTL_EN.get w = 0 ∧ r ≠ 0 then (s.applyCfg r).roundSwitch r was else s
    else ((s.layoutChange r [off] fun s => s.store off w).rerate r (s.rndFps r)).roundSwitch r was

/-- A word of a descriptor but for CHECK (R113). -/
def State.descWrite (s : State) (sid off : Nat) (w : Word) : State :=
  let st := s.rd Reg.STAB_STATE [sid]
  if s.rwlOpen ∨ st = 0 ∨ st = 2 then s.put 0x800000 off w else s.logRefused off w.toNat

/-- A word of a STAB entry: the RWL fields of a stream in STATE 3 or 4 stand, and a write that would change one is recorded (R11,
R139). -/
def State.stabWrite (s : State) (sid off : Nat) (w : Word) : State :=
  let st := s.stabRd Reg.STAB_STATE Reg.LSTAB_STATE sid
  if st = 3 ∨ st = 4 then
    let no := (s.word off &&& rwlMask off) != (w &&& rwlMask off)
    let s := s.setWord off (storedWord off false (s.word off) w)
    if no then s.logRefused off w.toNat else s
  else s.store off w

/-- A word of a machine's definition: the machine is judged anew (R290, R295). -/
def State.amWrite (s : State) (m off : Nat) (w : Word) : State := ((s.store off w).amCheck m).stdPublish

/-- INHIBIT of a machine (R295): its outputs are 0 while it is set. -/
def State.inhibitWrite (s : State) (m off : Nat) (w : Word) : State :=
  let s := s.store off w
  let on := s.flag Reg.AMR_INHIBIT [m]
  let out := if on then 0 else if s.flag Reg.AMR_RUN [m] then s.rd Reg.AM_ST_OUT [m, s.rd Reg.AMR_STATE [m]] else 0
  (s.wr Reg.AMR_OUT [m] out).stdPublish

/-- A host write of a whole word of a mirrored block takes effect. -/
def State.blockWrite (s : State) (off : Nat) (w : Word) : State :=
  if off = Reg.ADM_DECIDE_ENTRY.off [] then s.admDecideWrite w
  else if off = Reg.ADM_CTL_COMMIT.off [] then s.admCtlWrite w
  else if off = Reg.ALM_ACK_AM.off [] then s.ackWrite w
  else if 0x61000 ≤ off ∧ off < 0x63000 then s.rndWrite ((off - 0x61000) / 0x80) off w
  else if 0x800000 ≤ off ∧ off < 0xC00000 then
    let sid := (off - 0x800000) / 256
    if off % 256 = 0x1C then s.descCheckWrite sid w else s.descWrite sid off w
  else if 0x400000 ≤ off ∧ off < 0x800000 then
    let sid := (off - 0x400000) / 256
    if off % 256 = 0xA0 then s.stabWr Reg.STAB_MAX_L Reg.LSTAB_MAX_L sid 0 else s.stabWrite sid off w
  else if 0xC00000 ≤ off ∧ off < 0xC00800 then
    let sid := 16384 + (off - 0xC00000) / 256
    if off % 256 = 0xA0 then s.stabWr Reg.STAB_MAX_L Reg.LSTAB_MAX_L sid 0 else s.stabWrite sid off w
  else if 0xF60000 ≤ off ∧ off < 0xFA0000 then s.amWrite ((off - 0xF60000) / 256) off w
  else if off = Reg.OSC_DEF_CTL_MODE.off [] then { (s.store off w) with osc := { s.osc with defDue := true } }
  else if 0xD20000 ≤ off ∧ off < 0xD40000 then s.chanWrite off w
  else if 0x91000 ≤ off ∧ off < 0x95000 ∧ off % 64 = 0 then s.agCfgWrite ((off - 0x91000) / 64) off w
  else if off = Reg.ISL_CTL_EN.off [] then s.islCtlWrite w
  else if off = Reg.ALM_CTL_EN.off [] then (s.store off w).checkMachines
  else if 0xB0060 ≤ off ∧ off < 0xB00A0 then (s.store off w).stdPublish
  else if 0xB0100 ≤ off ∧ off < 0xB0120 then (s.store off w).drivePins
  else if 0xB0200 ≤ off ∧ off < 0xB0300 then
    let r := (off - 0xB0200) / 4
    if s.processing && s.rwlOpen && s.rndOn r then s.holdCfg r off w else s.layoutChange r [off] fun s => s.store off w
  else if 0xFA0000 ≤ off ∧ off < 0xFA8000 ∧ off % 0x20 = 0 then s.inhibitWrite ((off - 0xFA0000) / 0x20) off w
  else s.store off w

/-- The areas of BAR0 that hold mirrored registers (R418). -/
def mirrorAreas : List Nat := [6, 7, 10, 11, 12, 27, 28, 29, 30, 32, 33, 34, 35, 36, 37, 38, 39, 40, 41]

/-- A mirrored write takes effect at a boundary. -/
def State.mirrorWrite (s : State) (off : Nat) (w : Word) : State :=
  if mirrorAreas.contains (areaOf off) then s.blockWrite off w else s

/-- The row ROUND_COMMIT. -/
def execRoundCommit (rnd : Fin 64) (w : Word) (s : State) : Res :=
  .next (s.hostGate (Reg.WHL_RND_COMMIT_GO.off [rnd.val]) w fun a => a.commitWrite rnd.val w)

/-- A write of MAX_DSP clears it, on either unit of a pair (R178, R418). -/
def execMaxDspClear (rnd : Fin 64) (w : Word) (s : State) : Res :=
  .next (s.hostGate (Reg.WHL_RND_MAX_DSP.off [rnd.val]) w fun a => a.wr Reg.WHL_RND_MAX_DSP [rnd.val] 0)

/-- A write of MAX_L clears it (R179, R418). -/
def execMaxLClear (sid : Fin 16392) (w : Word) (s : State) : Res :=
  let off := if sid.val < 16384 then Reg.STAB_MAX_L.off [sid.val] else Reg.LSTAB_MAX_L.off [sid.val - 16384]
  .next (s.hostGate off w fun a => a.stabWr Reg.STAB_MAX_L Reg.LSTAB_MAX_L sid.val 0)

end Sys2Proof.Machine
end

