-- ==== Sys2Proof/Machine/PairOps.lean ====
section
/-! DEFINITION. The pair (R406, R413, R416 to R419, R426, R429, R431): the state copy and its records, mirrored writes, forwarding, and the
exchange of roles at an RND0 mailbag boundary. -/
namespace Sys2Proof.Machine

/-! ### The state copy (R416, R417) -/

/-- An item of the state copy: tag, number, words compared with the last COPY, and the record. -/
structure CopyItem where
  tag : Nat
  key : Nat
  words : List Word
  rec_ : CopyRec

def State.copyMachines (s : State) : List CopyItem :=
  s.amListed.map fun m =>
    let st := s.rd Reg.AMR_STATE [m]
    let es := s.rd Reg.AMR_ENTRY_SEC [m]
    let en := s.rd Reg.AMR_ENTRY_NS [m]
    let a := s.flag Reg.AMR_ACK_PEND [m]
    let i := s.flag Reg.AMR_INHIBIT [m]
    let te := s.flag Reg.AMR_TEST_ENTRY [m]
    let o := s.rd Reg.AMR_OUT [m]
    ⟨1, m, [st, es, en, bitN a 0 + bitN i 1 + bitN te 2, o].map natWord, .machine m st es en a i te o⟩

def State.copyAlarms (s : State) : List CopyItem :=
  let ws := (List.range 16).map fun w => s.rd Reg.ALM_WORD_BITS [w]
  let pub (q : Nat) : CopyItem :=
    let p := sget s.alm.pubs q pub0
    let st := s.rd Reg.ALM_PUB_STNUM [q]
    let sq := s.rd Reg.ALM_PUB_SQNUM [q]
    ⟨3, q, [st, sq, p.wait].map natWord, .publication q st sq p.wait p.next⟩
  ⟨2, 0, ws.map natWord, .alarmWords ws⟩ :: ((List.range 16).filter fun q => s.flag Reg.ALM_PUB_CFG_EN [q]).map pub

def State.copyKeys (s : State) : List CopyItem :=
  (s.key.run.filter fun e => (s.cat e.1).state != 0 && (s.cat e.1).use / 2 % 2 == 1).map fun e =>
    ⟨4, e.1, [natWord e.2.spdu], .sendKey (s.cat e.1).keyid e.2.spdu⟩

def State.copyIsl (s : State) : List CopyItem :=
  ((List.range 64).filter fun g => s.flag Reg.CG_VALID [g] || (sfind s.isl.cgs g).isSome).map (fun g =>
    let ws := (List.range 16).map fun k => s.word (Reg.CG_VALID.off [g] + 4 * k)
    ⟨5, g, ws ++ [natWord (s.cg g).first], .group g ws (s.cg g).first⟩) ++
  s.ties.map (fun t =>
    let st := s.rd Reg.TIE_STATUS [t]
    let a := s.rd Reg.TIE_AGE_RI [t]
    ⟨6, t, [st, a].map natWord, .tie t st a⟩) ++
  [⟨11, 0, [natWord (s.rd Reg.ISL_CLUST_COUNT [])], .clustering (s.rd Reg.ISL_CLUST_COUNT [])⟩]

/-- The sender-cache state of a SID: 0 none, else 1 plus the state. -/
def State.cacheState (s : State) (sid : Nat) : Nat :=
  match s.adm.senders.find? fun e => e.sids.any fun x => x.1 == sid with
  | none => 0
  | some e => match e.st with | .admitted => 1 | .awaiting => 2 | .pending => 3 | .quarantined => 4 | .refused => 5

/-- The words of a STAB entry that identify its stream: CTL without what the units count for themselves, then +0x04 to +0x1C. -/
def State.identWords (s : State) (sid : Nat) : List Word :=
  (List.range 8).map fun i => s.word (0x400000 + 256 * sid + 4 * i) &&& (if i = 0 then BitVec.ofNat 32 0xFF0FFFFF else BitVec.ofNat 32 0xFFFFFFFF)

def State.copyAdm (s : State) : List CopyItem :=
  (s.entries 0x400000 256 16384).map (fun sid =>
    let ws := s.identWords sid
    let st := s.rd Reg.STAB_STATE [sid]
    ⟨7, sid, ws ++ [natWord (s.cacheState sid)], .admission sid ws st (s.cacheState sid)⟩) ++
  (s.entries 0x800000 256 16384).map (fun sid =>
    let ws := s.desc sid
    ⟨8, sid, ws, .descr sid ws (instantOf s.now (s.sidFps sid))⟩)

def State.copyRounds (s : State) : List CopyItem :=
  s.rndsOn.map fun r =>
    let st := s.rndSt r
    let c := s.rd Reg.WHL_RND_STAT_CFGCNT [r]
    let k := s.rd Reg.WHL_RND_COMMIT_STATUS [r]
    let src := match st.gateSrc with | some g => [bitN g.1 0, g.2.1 % 2 ^ 32, g.2.2.1, g.2.2.2] | none => []
    ⟨9, r, ([c, k, bitN st.gate 0, st.seq] ++ src).map natWord, .round r c k st.gate st.gateSrc st.seq⟩

def State.copyItems (s : State) : List CopyItem :=
  s.copyMachines ++ s.copyAlarms ++ s.copyKeys ++ s.copyIsl ++ s.copyAdm ++ s.copyRounds

/-- A partner in STANDBY that is heard. -/
def State.standbyThere (s : State) : Bool := match s.pair.partner with | some p => p.mode == 3 | none => false

/-- The octets of decimated samples. -/
def sampleBytes (xs : List DecSample) : List Byte :=
  xs.flatMap fun x => leBytes 8 x.j ++ leBytes 2 x.xs.length ++ x.xs.flatMap fun e => leBytes 2 e.1 ++ wordBytes e.2.1 ++ leBytes 1 (bitN e.2.2 0)

/-- Send a catch-up of a group or of the islanding tracker: the checkpoint and the samples that follow it (R421). -/
def State.sendCatch (s : State) (isl : Bool) (g : Nat) : State :=
  if isl then s.plkSend (.catchup true 0 (s.rd Reg.ISL_CLUST_COUNT []) ((trkWords s.isl.trk).flatMap wordBytes))
  else match sfind s.osc.ckpts g with
    | some k => s.plkSend (.catchup false g k.grp.epoch ((grpWords k.grp).flatMap wordBytes ++ sampleBytes (sget s.osc.recent g [])))
    | none => s.plkSend (.catchup false g (s.grp g).epoch ((grpWords (s.grp g)).flatMap wordBytes))

/-- Send a COPY: what changed since the last one, or everything to a partner that joins, with the mirrored writes. A join is
followed by catch-ups of every enabled group and of the islanding tracker (R406). -/
def State.sendCopy (s : State) (pm : Nat) (mirror : List (Nat × Word × Nat)) : State :=
  let full := s.pair.fullDue
  let items := s.copyItems
  let new := items.filter fun i => full || !s.pair.copied.any fun c => c.1 == i.tag && c.2.1 == i.key && c.2.2 == i.words
  let q := (s.rd Reg.PAIR_COPYSEQ [] + 1) % 2 ^ 32
  let recs := new.map (·.rec_) ++ mirror.map fun m => CopyRec.mirrored m.1 m.2.1 m.2.2
  let s : State := { s with pair := { s.pair with copied := items.map (fun i => (i.tag, i.key, i.words)), fullDue := false } }
  let s := (s.wr Reg.PAIR_COPYSEQ [] q).plkSend (.copy ⟨q, full, recs, pm⟩)
  if !full then s
  else
    let s := forEach s.grpsOn (fun g a => a.sendCatch false g) s
    if s.flag Reg.ISL_CTL_EN [] then s.sendCatch true 0 else s

/-- An admission record (tag 7): identity, state, and the sender it belongs to. -/
def State.applyAdmission (s : State) (sid : Nat) (ws : List Word) (st cache : Nat) : State :=
  let was := s.rd Reg.STAB_STATE [sid]
  let s := if st = 1 ∧ 2 ≤ was then s.retire sid else s
  let seen := s.rd Reg.STAB_PORTS_SEEN [sid]
  let s := forEach ws.zipIdx (fun t a => a.put 0x400000 (0x400000 + 256 * sid + 4 * t.2) t.1) s
  let s := (s.wr Reg.STAB_PORTS_SEEN [sid] seen).wr Reg.STAB_STATE [sid] st
  let s := if st = 3 ∧ was ≠ 3 ∧ was ≠ 4 then s.goLive sid else s
  let src := s.rdWords Reg.STAB_SRC [sid] 4
  let tcp := s.flag Reg.STAB_TCP [sid]
  let conn := if tcp then (s.net.conns.find? fun c => c.addr == src && c.dport == s.rd Reg.STAB_SRC_PORT [sid]).map (·.key) else none
  let blk := s.rd Reg.STAB_BLK [sid]
  let who : Who := ⟨s.rd Reg.STAB_KIND [sid], conn, s.rd Reg.STAB_VLAN [sid], src, decide (2 ^ 32 ≤ src), s.rd Reg.STAB_FR_IDCODE [sid],
    s.rd Reg.STAB_SRC_PORT [sid], 0, none⟩
  let s := if cache = 0 ∨ st < 2 then s
    else match s.sender who with
      | some e => s.senderGets e.key sid blk
      | none =>
        let k := s.adm.nextId
        let e : Sender := ⟨k, who.kind, conn, who.vlan, src, who.v6, who.ident, who.sport, 0, .admitted, [], s.flag Reg.STAB_REQ_FRANK [sid],
          s.rd Reg.STAB_IDLE_RI [sid], none, s.now, 0, none, none, none, none, none, false, none⟩
        ({ s with adm := { s.adm with senders := s.adm.senders ++ [e], nextId := k + 1 } } : State).senderGets k sid blk
  s.showAdm

/-- One record of a COPY is applied; the copied state wins (R416). -/
def State.applyRec (s : State) (c : CopyRec) : State :=
  match c with
  | .machine m st es en ack inh te out =>
    let s := (s.wr Reg.AMR_STATE [m] st).wr Reg.AMR_ENTRY_SEC [m] es |>.wr Reg.AMR_ENTRY_NS [m] en |>.setFlag Reg.AMR_ACK_PEND [m] ack
      |>.setFlag Reg.AMR_INHIBIT [m] inh |>.setFlag Reg.AMR_TEST_ENTRY [m] te |>.wr Reg.AMR_OUT [m] out
    s.setAm m { s.am m with entry := es * second + en * nsU }
  | .alarmWords ws => forEach ws.zipIdx (fun t a => a.wr Reg.ALM_WORD_BITS [t.2] t.1) s
  | .publication q st sq step next =>
    let s := (s.wr Reg.ALM_PUB_STNUM [q] st).wr Reg.ALM_PUB_SQNUM [q] sq
    let p := sget s.alm.pubs q pub0
    { s with alm := { s.alm with pubs := sset s.alm.pubs q { p with wait := step, next := next } } }
  | .sendKey id n =>
    match s.keyFor id 1 with
    | some k => s.setRun k { s.keyRun k with spdu := n }
    | none => s
  | .group g ws first =>
    let s := forEach ws.zipIdx (fun t a => a.put 0xFB8000 (Reg.CG_VALID.off [g] + 4 * t.2) t.1) s
    (s.setCg g { s.cg g with first := first }).showIsl
  | .tie t st age => (s.wr Reg.TIE_STATUS [t] st).wr Reg.TIE_AGE_RI [t] age
  | .admission sid ws st cache => s.applyAdmission sid ws st cache
  | .descr sid ws _ => (((s.setCounts sid none).putDesc sid ws).showDesc sid ws).clearInelig sid
  | .round r c k gate src seq =>
    let s := (s.wr Reg.WHL_RND_STAT_CFGCNT [r] c).wr Reg.WHL_RND_COMMIT_STATUS [r] k
    s.setRnd r { s.rndSt r with gate := gate, gateSrc := src, seq := seq }
  | .mirrored addr w _ => s.mirrorWrite addr w
  | .clustering n => s.wr Reg.ISL_CLUST_COUNT [] n

/-! ### Mirrored writes and reception maps at the boundary (R413, R418) -/

/-- Deferred host writes take effect; on the active unit the COPY carries them. -/
def State.mirrorBoundary (s : State) (pm : Nat) : State :=
  let ms := s.pair.mirror
  let s : State := { s with pair := { s.pair with mirror := [] } }
  let s := forEach ms (fun m a => a.mirrorWrite m.1 m.2.1) s
  if s.activeRole && s.standbyThere then s.sendCopy pm ms else s

/-- The reception map of this boundary. -/
def State.sendMap (s : State) : State :=
  if !s.flag Reg.PAIR_CFG_EN [] then s
  else
    let m := sortAsc s.pair.rxOwn
    ({ s with pair := { s.pair with lastOwn := m, rxOwn := [] } } : State).plkSend (.rxmap m)

/-! ### Exchange of roles (R426, R429, R431) -/

/-- Every release slot open now. -/
def State.openSlots (s : State) : List (Nat × Nat) := s.whl.rnds.flatMap fun e => e.2.slots.map fun x => (e.1, x.seq)

/-- The mode of the active role as resources stand (R30). -/
def State.roleMode (s : State) : Mode := if s.flag Reg.GLB_MODE_DEG [] then .degraded else .active

/-- Emit what is held, in postmark order per Round; the frames' time to the wire runs from now (R426). -/
def State.emitHeld (s : State) : State :=
  let hs := s.pair.held
  let s : State := { s with pair := { s.pair with held := [], rels := [] } }
  forEach hs (fun h a => match h with
    | .slot r sl => (a.slotOut false r { sl with dsp := a.now }).inc Reg.PAIR_REPLAYED []
    | .pub q _ _ b => a.pubFrames false q b) s

/-- Every key that signs R-GOOSE goes on PAIR_SPDU.SKIP further (R426). -/
def State.skipSpdu (s : State) : State :=
  let n := s.rd Reg.PAIR_SPDU_SKIP []
  forEach (s.key.run.filter fun e => (s.cat e.1).use / 2 % 2 == 1) (fun e a => (a.setRun e.1 { e.2 with spdu := e.2.spdu + n }).reserve e.1) s

/-- The standby takes the role of a failed partner. -/
def State.takeOver (s : State) : State :=
  let s : State := { s with pair := { s.pair with declared := false, switch := none, follow := [], catching := [], digests := [], oldSlots := [] } }
  let s := ((s.inc Reg.PAIR_TAKEOVERS []).notice bPAIR 4 0 0 0).skipSpdu
  ((s.modeTo s.roleMode 3).rejudge).emitHeld

/-- A switchover's boundary is counted on both units. -/
def State.switched (s : State) : State :=
  let s : State := { s with pair := { s.pair with switch := none, revertDue := false, oldSlots := s.openSlots } }
  (s.inc Reg.PAIR_SWITCHES []).notice bPAIR 5 0 0 0

/-- The unit that gives up the role: to STANDBY; a request for STANDBY is complete, one for WATCH or SERVICE waits one more
boundary (R32). -/
def State.giveRole (s : State) (cause : Nat) : State :=
  let s := (s.switched).modeTo .standby cause
  let s : State := { s with pair := { s.pair with held := [], rels := [], follow := [], catching := [], digests := [] } }
  if s.rd Reg.GLB_MODE_REQ_STATUS [] = 1 then
    if s.glb.reqTarget = 3 then s.reqEnd 2 0 else s
  else s

/-- The unit that takes the role: what it held before the boundary is the other unit's to emit. -/
def State.takeRole (s : State) (cause : Nat) : State :=
  let s := s.switched
  let s : State := { s with pair := { s.pair with held := [], rels := [], follow := [], catching := [], digests := [], declared := false } }
  (s.modeTo s.roleMode cause).rejudge

/-- A switchover that does not come about: the request that started it is refused with REASON 3 (R429, R431). -/
def State.switchFail (s : State) : State :=
  let s : State := { s with pair := { s.pair with switch := none } }
  if s.rd Reg.GLB_MODE_REQ_STATUS [] = 1 then s.reqEnd 3 3 else s

/-- Role changes at the RND0 boundary of instant `n`; the second part says whether one happened. -/
def State.roleBoundary (s : State) (n : Nat) : State × Bool :=
  if s.holding ∧ s.pair.declared = true then (s.takeOver, true)
  else match s.pair.switch with
    | some w =>
      if n < w.k then (s, false)
      else if !w.agreed then (s.switchFail, false)
      else if s.activeRole then (s.giveRole w.cause, true)
      else if s.holding then (s.takeRole w.cause, true)
      else ({ s with pair := { s.pair with switch := none } }, false)
    | none =>
      if s.activeRole ∧ s.flag Reg.PAIR_STAT_DUAL [] = true ∧ s.preferred = false then
        let s := (s.modeTo .standby 4).setFlag Reg.PAIR_STAT_DUAL [] false
        (s.rejudge, true)
      else (s, false)

/-- A pending host request whose boundary has come (R30, R32, R36). -/
def State.requestBoundary (s : State) : State :=
  if s.rd Reg.GLB_MODE_REQ_STATUS [] ≠ 1 ∨ s.pair.switch.isSome = true then s
  else if s.glb.reqTarget = 2 ∧ s.targetOk 2 = true then (s.modeTo .watch 11).reqEnd 2 0
  else if s.glb.reqTarget = 7 ∧ s.targetOk 7 = true then (s.modeTo .service 10).reqEnd 2 0
  else s

/-- Resources restored (R30): DEGRADED ends. -/
def State.restoreBoundary (s : State) : State :=
  if s.mode = .degraded ∧ s.flag Reg.GLB_MODE_DEG [] = false then (s.modeTo .active 7).rejudge else s

end Sys2Proof.Machine
end

