-- ==== Sys2Proof/Machine/Capture.lean ====
section
/-! DEFINITION. The capture engine: trigger conditions (R374 to R376), records (R379 to R385), cross-triggers (R386, R387) and the
host's writes to a unit (R382, R383). -/
namespace Sys2Proof.Machine

/-! ### Trigger conditions (R375, R376) -/

def State.capWord (s : State) (f : Fld) (u : Nat) : Word := BitVec.ofNat 32 (s.rd f [u])

/-- The condition's code; 6 and 7 are treated as 5. -/
def State.capType (s : State) (u : Nat) : Nat := min 5 (s.rd Reg.CAP_U_CFG_TTYPE [u])

/-- A duration in µs as float32. -/
def usF (d : Nat) : Word := F32.ofRat d usU

/-- A condition at a sample (R376): its MEASURE and PEAK, and whether it is met here and not at the sample before. -/
structure CapHit where
  measure : Word
  peak : Word
  fresh : Bool

/-- The excursion after a sample of the trigger channel, and the condition it meets. A timeout stays met to the end of an excursion on
which the unit has not fired. -/
def State.capExcursion (s : State) (u : Nat) (t : Time) (x : Option Word) (e : Option CapExc) : Option CapExc × Option CapHit :=
  let up := s.flag Reg.CAP_U_TRIG_POL [u]
  let a := s.capWord Reg.CAP_U_LEVEL_A u
  let h := let v := s.capWord Reg.CAP_U_HYST u; if F32.lt v F32.zero then F32.zero else v
  let b := s.capWord Reg.CAP_U_LEVEL_B u
  let tmin := s.rd Reg.CAP_U_TMIN_US [u] * usU
  let tmax := s.rd Reg.CAP_U_TMAX_US [u] * usU
  let ty := s.capType u
  let reach (v : Word) : Bool := if up then F32.le b v else F32.le v b
  match x with
  | none => (none, none)
  | some v =>
    match e with
    | none =>
      if (if up then F32.le a v else F32.le v a) then
        let late := ty == 3 && tmax == 0
        (some ⟨t, v, reach v, late, false⟩, if ty = 0 then some ⟨v, v, true⟩ else if late then some ⟨F32.zero, v, true⟩ else none)
      else (none, none)
    | some e =>
      let d := t - e.start
      if (if up then F32.lt v (F32.sub a h) else F32.lt (F32.add a h) v) then
        let hit := (ty == 1 && decide (tmin ≤ d ∧ d < tmax)) || (ty == 2 && !e.reached && decide (tmin ≤ d))
        (none, if hit then some ⟨usF d, e.peak, true⟩ else none)
      else
        let e := { e with peak := if up then F32.max e.peak v else F32.min e.peak v, reached := e.reached || reach v }
        if ty = 3 ∧ e.fired = false ∧ tmax ≤ d then (some { e with met := true }, some ⟨usF d, e.peak, !e.met⟩) else (some e, none)

/-- The slew condition at a sample: whether it holds, and s_j. -/
def State.capSlew (s : State) (u rate : Nat) (line : List (Option Word)) : Bool × Word :=
  let d := clampN 1 4096 (s.rd Reg.CAP_U_TRIG_SPAN [u])
  match line.getD 0 none, line.getD d none with
  | some x, some y =>
    let v := F32.div (F32.mul (F32.sub x y) (F32.ofInt rate)) (F32.ofInt d)
    let k := F32.abs (s.capWord Reg.CAP_U_SLEW u)
    (if s.flag Reg.CAP_U_TRIG_POL [u] then F32.le k v else F32.le v (F32.neg k), v)
  | _, _ => (false, F32.zero)

/-- The trigger logic takes a sample: the unit after it, and the condition met. A slew rate stays met while it holds and the unit has not
fired on it. -/
def State.capTrigger (s : State) (u rate : Nat) (t : Time) (x : Option Word) (v : CapUnit) : CapUnit × Option CapHit :=
  let ty := s.capType u
  if ty < 4 then
    let (e, hit) := s.capExcursion u t x v.exc
    ({ v with exc := e }, hit)
  else if ty = 4 then
    let line := (x :: v.line).take 4097
    let (on, m) := s.capSlew u rate line
    ({ v with line := line, slew := on, slewFired := on && v.slewFired }, if on && !v.slewFired then some ⟨m, F32.nan, !v.slew⟩ else none)
  else (v, none)

/-- The unit fires on its own condition, which is then spent: once per excursion, or until the slew condition was false. -/
def capSpent (v : CapUnit) : CapUnit := { v with exc := v.exc.map fun e => { e with fired := true }, slewFired := v.slew }

/-! ### Records (R379 to R385) -/

/-- The header of a record with FLAGS bits added, up to CHECK. -/
def capHead (u : Nat) (r : CapRec) (extra : Nat) : List Byte :=
  let time (t : Time) : List Byte := secNs t ++ leBytes 2 (fracOf t)
  let edge := match r.edge with | some t => leBytes 4 (nsOf t) ++ leBytes 4 (secOf t) | none => List.replicate 8 0
  leBytes 1 1 ++ leBytes 1 u ++ leBytes 2 (r.flags + extra) ++ leBytes 4 r.seq ++ leBytes 1 r.ttype ++ leBytes 1 r.cause ++
    leBytes 1 r.nch ++ leBytes 1 r.source ++ time r.trigT ++ time r.firstT ++ leBytes 4 r.rate ++ leBytes 4 r.nPre ++
    leBytes 4 r.total ++ wordBytes r.trigVal ++ wordBytes r.measure ++ wordBytes r.peak ++ r.stats.flatMap wordBytes ++
    leBytes 2 r.retrig ++ leBytes 2 r.lost ++ edge ++ leBytes 4 r.body.length

/-- The bytes of a record with FLAGS bits added. -/
def capBytes (u : Nat) (r : CapRec) (extra : Nat) : List Byte := sealRec (capHead u r extra) ++ r.body

/-- A segment is written: its header's CHECK, and the CRC-32C over its body (R396). -/
def capSealed (u : Nat) (r : CapRec) : CapRec := { r with check := crc32c (capHead u r 0), crc := crc32c r.body }

/-- A held segment passes both tests of R396. -/
def capSound (u : Nat) (r : CapRec) : Bool := r.check == crc32c (capHead u r 0) && r.crc == crc32c r.body

/-- Offer a record to the SRC 6 rings whose SEL passes the unit; it is never cut (R384). -/
def State.capOffer (s : State) (u : Nat) (r : CapRec) (extra : Nat) : State :=
  s.offer 6 64 u 0x5003 (fun sel => sel == 0 || sel / 2 ^ u % 2 == 1) (capBytes u r extra) none

/-- A held record is offered; with KEEP = 0 its segment is then free (R382). -/
def State.capRelease (s : State) (u seq : Nat) : State :=
  match (s.capUnit u).held.find? fun h => h.1.seq == seq with
  | none => s
  | some (r, _) =>
    let s := s.capOffer u r 0
    let v := s.capUnit u
    let held := if s.flag Reg.CAP_U_CFG_KEEP [u] then v.held.map fun h => if h.1.seq == seq then (h.1, true) else h
      else v.held.filter fun h => h.1.seq != seq
    (s.setCapUnit u { v with held := held }).showSegs u

/-- MIN, MAX, MEAN and RMS over the present values of channel 0. -/
def capStats (xs : List Word) : List Word :=
  match xs.filter fun x => !F32.isNaN x with
  | [] => List.replicate 4 F32.nan
  | x :: r =>
    let ys := x :: r
    [r.foldl F32.min x, r.foldl F32.max x, meanF ys, F32.sqrt (F32.div (sumSq ys) (F32.ofInt ys.length))]

/-- Commands held by the engine. -/
def State.cmpCmds (s : State) : Nat :=
  (s.cmp.jobs.filter fun j => match j with | .cmd _ _ _ _ _ => true | _ => false).length

/-- CMP_STAT as the engine's work stands (R401): a capture record is served before any command, so that with one in work every
command waits. -/
def State.cmpShow (s : State) : State :=
  (s.setFlag Reg.CMP_STAT_BUSY [] !s.cmp.jobs.isEmpty).wr Reg.CMP_STAT_QUEUED []
    (if s.cmpCmds < s.cmp.jobs.length then s.cmpCmds else s.cmpCmds - 1)

/-- The record of a unit that has taken its last sample. -/
def State.capRecord (s : State) (u rate : Nat) (v : CapUnit) (c : CapCur) : CapRec :=
  let smps := v.hist.reverse
  let gap := smps.any fun x => x.2.any F32.isNaN
  let b (c : Bool) (n : Nat) : Nat := if c then n else 0
  { seq := s.rd Reg.CAP_U_SEQ [u]
    flags := b (s.mode == .service) 1 + b v.after.isSome 0x10 + b c.short 0x20 + b gap 0x40 + b v.rebuilt 0x100 + b v.wrote 0x200
    ttype := s.capType u, cause := c.cause, nch := s.capNch u
    source := s.rd Reg.CAP_U_CFG_SRCK [u] + 2 * s.rd Reg.CAP_U_CFG_RND [u] + 128 * s.rd Reg.CAP_U_CFG_PT [u]
    trigT := c.trigT, firstT := (smps.headD (c.trigT, [])).1, rate := rate, nPre := c.nPre, total := smps.length
    trigVal := c.trigVal, measure := c.measure, peak := c.peak, stats := capStats (smps.map fun x => x.2.headD F32.nan)
    retrig := c.retrig, lost := min 65535 (v.after.getD 0), edge := c.edge
    body := smps.flatMap fun x => x.2.flatMap wordBytes }

/-- A record is complete (R380, R382): it is held, the next free segment is looked for, and it is offered, or compressed
first. -/
def State.capComplete (s : State) (u rate : Nat) (v : CapUnit) (c : CapCur) : State :=
  let s := ((s.inc Reg.CAP_U_SEQ [u]).inc Reg.CAP_U_RECORDS [u]).inc Reg.CAP_REC_COUNT []
  let r := s.capRecord u rate v c
  let stop := s.capSegs u ≤ v.held.length + 1 && !s.flag Reg.CAP_U_CFG_OVF [u]
  let reuse := s.capSegs u ≤ v.held.length + 1 && s.flag Reg.CAP_U_CFG_OVF [u]
  let r := capSealed u (if stop then { r with flags := r.flags + 8 } else r)
  let v := { v with hist := [], cur := none, hold := some c.trigT, early := 0, after := none, rebuilt := false, wrote := reuse, missed := 0
                    held := v.held ++ [(r, false)] }
  let s := (s.setCapUnit u v).notice bCAP 0 u r.seq 0
  let s := if stop then (s.setCapState u 4).notice bCAP 1 u r.seq 0
    else s.setCapState u (if s.capPre u = 0 then 2 else 1)
  -- the record is offered, or waits for the engine, before an old segment is gathered into
  let s : State := if s.flag Reg.CAP_U_CFG_CMP [u] then
      ({ s with cmp := { s.cmp with jobs := s.cmp.jobs ++ [.cap u r.seq] } } : State).cmpShow
    else s.capRelease u r.seq
  let s := if reuse then
      ((s.setCapUnit u { s.capUnit u with held := (s.capUnit u).held.drop (if (s.capUnit u).held.length < s.capSegs u then 0 else 1) }).inc
        Reg.CAP_U_OVERWRITTEN [u]).notice bCAP 2 u r.seq 0
    else s
  if v.sync then s.capFill u else s.showSegs u

/-- A unit pulls XTRG_FIRE low (R386). -/
def State.xfirePull (s : State) (u : Nat) : State :=
  if s.flag Reg.CAP_U_CFG_XOUT [u] && s.xDrives then
    ({ s with cap := { s.cap with pulling := u :: s.cap.pulling, fireAt := s.now } } : State).setFlag Reg.CAP_XTRG_FIRE_LINE [] false
  else s

/-- Count a condition that starts no record (R381). -/
def State.capRetrig (s : State) (u : Nat) : State := s.inc Reg.CAP_U_RETRIG [u]

/-- PEAK follows the excursion that the trigger sample lies in, to its end or the record's (R376). -/
def capPeak (v : CapUnit) (c : CapCur) : CapCur :=
  match c.exc, v.exc with
  | some t, some e => if e.start = t then { c with peak := e.peak } else { c with exc := none }
  | _, _ => { c with exc := none }

/-- A sample while the unit records: conditions met count, and the last sample completes the record. -/
def State.capPostSample (s : State) (u rate : Nat) (t : Time) (xs : List Word) (v : CapUnit) (c : CapCur) (n : Nat) : State :=
  let s := forEach (List.range n) (fun _ a => a.capRetrig u) s
  let c := capPeak v { c with retrig := min 65535 (c.retrig + n), left := c.left - 1 }
  let v := { v with hist := (t, xs) :: v.hist, cur := some c, force := false }
  if c.left = 0 then s.capComplete u rate v c else s.setCapUnit u v

/-- The unit fires at a sample (R376, R380, R386). -/
def State.capFire (s : State) (u rate : Nat) (t : Time) (xs : List Word) (v : CapUnit) (cause : Nat) (m pk : Word) (more : Nat) : State :=
  let c : CapCur :=
    { trigT := t, trigVal := xs.headD F32.nan, measure := m, peak := pk, cause := cause
      edge := if cause = 1 then v.edge else none, nPre := v.hist.length, short := decide (v.hist.length < s.capPre u)
      left := s.capPost u, retrig := min 65535 (v.early + more), exc := if s.capType u < 4 then v.exc.map (·.start) else none }
  let s := forEach (List.range more) (fun _ a => a.capRetrig u) s
  let v := { v with hist := (t, xs) :: v.hist, cur := some c, force := false, edge := none, early := 0 }
  let v := if cause = 0 then capSpent v else v
  let s := if cause = 1 then s else s.xfirePull u
  if c.left = 0 then (s.setCapState u 3).capComplete u rate v c
  else (s.setCapUnit u v).setCapState u 3

/-- The hold-off after the last trigger covers an instant (R380). -/
def State.capHeldOff (s : State) (u : Nat) (v : CapUnit) (t : Time) : Bool :=
  match v.hold with | some h => decide (t < h + s.rd Reg.CAP_U_SEGS_HOLD_US [u] * usU) | none => false

/-- What the unit fires with (R376): on its own condition, what that gives; otherwise MEASURE is stated for TTYPE 5 only, and PEAK for
types 0 to 3 within an excursion, and they are free. -/
def State.capFigures (s : State) (u : Nat) (v : CapUnit) (hit : Option CapHit) : State × Word × Word :=
  let (k, s) := s.draw
  let (l, s) := s.draw
  match hit with
  | some h => (s, h.measure, h.peak)
  | none => (s, if s.capType u = 5 then F32.zero else Config.freeWord k,
      match v.exc with | some e => e.peak | none => if s.capType u < 4 then Config.freeWord l else F32.nan)

/-- A sample of a stopped unit (R382): a condition that would have fired it counts as lost, and is spent. -/
def State.capStopSample (s : State) (u : Nat) (t : Time) (v : CapUnit) (hit : Option CapHit) : State :=
  let ready := !s.flag Reg.CAP_U_CFG_XARM [u] || s.flag Reg.CAP_XTRG_ARM_LINE []
  if hit.isSome && !s.capHeldOff u v t && ready then
    (s.setCapUnit u { capSpent v with missed := v.missed + 1 }).inc Reg.CAP_U_LOST [u]
  else s.setCapUnit u v

/-- A sample of a unit that fired at an XTRG_FIRE edge and awaits its trigger sample, the first at or after the edge (R386); its own
condition at that sample is the record's cause, and the edge then counts (R387). -/
def State.capEdgeSample (s : State) (u rate : Nat) (t : Time) (xs : List Word) (v : CapUnit) (hit : Option CapHit) (e : Time) : State :=
  if e ≤ t then
    let (s, m, pk) := s.capFigures u v hit
    s.capFire u rate t xs v (if hit.isSome then 0 else 1) m pk (bitN hit.isSome 0)
  else
    let n := match hit with | some h => bitN h.fresh 0 | none => 0
    let s := if n = 0 then s else s.capRetrig u
    s.setCapUnit u { v with hist := ((t, xs) :: v.hist).take (s.capPre u), early := v.early + n }

/-- A sample of a unit that fills or is armed (R380, R386). A unit with XARM fires on its own condition only while XTRG_ARM reads high.
What the rules leave open of counting and of conditions that could not fire is in log entry 133 (DEDUCED). -/
def State.capWatchSample (s : State) (u rate : Nat) (t : Time) (xs : List Word) (v : CapUnit) (hit : Option CapHit) : State :=
  let armed := s.capState u == 2
  let can := armed || !s.flag Reg.CAP_U_CFG_PREFULL [u]
  let xarm := s.flag Reg.CAP_U_CFG_XARM [u]
  let s := if xarm && hit.isSome then s.readArm else s
  let ready := !xarm || s.flag Reg.CAP_XTRG_ARM_LINE []
  let fresh := match hit with | some h => h.fresh | none => false
  let s := if fresh && !ready then (s.inc Reg.CAP_U_NOT_READY [u]).notice bCAP 5 u 0 0 else s
  let own := hit.isSome && can && ready
  let off := s.capHeldOff u v t
  if (own || (can && v.force)) && !off then
    let h := if own then hit else none
    let (s, m, pk) := s.capFigures u v h
    s.capFire u rate t xs v (if own then 0 else 2) m pk 0
  else
    let s := if off && ((own && fresh) || (can && v.force)) then s.capRetrig u else s
    let hist := ((t, xs) :: v.hist).take (s.capPre u)
    let s := s.setCapUnit u { v with hist := hist, force := false }
    if !armed ∧ s.capPre u ≤ hist.length then s.setCapState u 2 else s

/-- A unit takes a sample (R372, R378). -/
def State.capSample (s : State) (u rate : Nat) (t : Time) (xs : List Word) : State :=
  let st := s.capState u
  if st = 0 ∨ st = 5 then s
  else
    let x := (xs.head?).filter fun w => !F32.isNaN w
    let (v, hit) := s.capTrigger u rate t x (s.capUnit u)
    if st = 4 then s.capStopSample u t v hit
    else
      match v.cur, v.edge with
      | some c, _ => s.capPostSample u rate t xs v c (match hit with | some h => bitN h.fresh 0 | none => 0)
      | none, some e => s.capEdgeSample u rate t xs v hit e
      | none, none => s.capWatchSample u rate t xs v hit

/-! ### Sources (R372 to R374) -/

/-- A channel of a letter unit at a mailbag: quiet NaN where missing. -/
def State.capLetter (s : State) (u r : Nat) (ls : List Letter) (c : Nat) : Word :=
  let w := s.rd Reg.CAP_U_CH [u, c]
  let sid := w / 256 % 2 ^ 15
  let f := w % 256
  if !s.isMember r sid then F32.nan
  else match letterOf ls sid with
    | none => if f = 192 then F32.zero else F32.nan
    | some l =>
      if f = 192 then F32.one
      else if statOk (s.flag Reg.CAP_U_CFG_USE_TEST [u]) l then ((letterField l f).filter F32.isFinite).getD F32.nan
      else F32.nan

/-- The letter units of a Round read a mailbag at its dispatch. -/
def State.capMailbag (s : State) (r _n : Nat) (tk : Time) (ls : List Letter) : State :=
  forEach ((List.range 32).filter fun u => !s.flag Reg.CAP_U_CFG_SRCK [u] && s.rd Reg.CAP_U_CFG_RND [u] == r)
    (fun u a => a.capSample u (a.rndFps r) tk ((List.range (a.capNch u)).map (a.capLetter u r ls))) s

/-- The sample units of a point read an output sample. -/
def State.capPoint (s : State) (p : Nat) (t : Time) (x : AcqSmp) : State :=
  forEach ((List.range 32).filter fun u => s.flag Reg.CAP_U_CFG_SRCK [u] && s.rd Reg.CAP_U_CFG_PT [u] == p)
    (fun u a => a.capSample u (a.ptRate p) t ((List.range (a.capNch u)).map fun c =>
      let k := a.rd Reg.CAP_U_CH [u, c] % 8
      if x.flt / 2 ^ k % 2 = 1 then F32.nan else x.xs.getD k F32.nan)) s

/-! ### The host's writes (R382, R383) -/

/-- A write of CAP_Uu_ACK: every held record of a unit that keeps them, whose SEQ lies in the 2^31 values ending at the one
written, is freed. -/
def State.capAckWrite (s : State) (u : Nat) (w : Word) : State :=
  if s.flag Reg.CAP_U_CFG_KEEP [u] then
    let v := s.capUnit u
    (s.setCapUnit u { v with held := v.held.filter fun h => decide (2 ^ 31 ≤ (w.toNat + 2 ^ 32 - h.1.seq) % 2 ^ 32) }).showSegs u
  else s

/-- ARM: a stopped unit enters filling; its first record tells what it missed. -/
def State.capArmWrite (s : State) (u : Nat) : State :=
  if s.capState u = 4 then
    let v := s.capUnit u
    (s.setCapUnit u { v with after := some v.missed, missed := 0 }).capFill u
  else s

/-- FORCE: the unit fires at its next sample; in post it counts. -/
def State.capForceWrite (s : State) (u : Nat) : State :=
  let st := s.capState u
  if st = 1 ∨ st = 2 then s.setCapUnit u { s.capUnit u with force := true }
  else if st = 3 then
    let v := s.capUnit u
    (s.setCapUnit u { v with cur := v.cur.map (fun c => { c with retrig := min 65535 (c.retrig + 1) })
                             early := if v.edge.isSome then v.early + 1 else v.early }).capRetrig u
  else s

/-- The row CAP_ACK. -/
def execCapAck (u : Fin 32) (w : Word) (s : State) : Res :=
  .next (s.hostGate (Reg.CAP_U_ACK_SEQ.off [u.val]) w fun a => a.capAckWrite u.val w)
/-- The row CAP_ARM: a write of CAP_Uu_ARM with ARM set. -/
def execCapArm (u : Fin 32) (s : State) : Res :=
  .next (s.hostGate (Reg.CAP_U_ARM_ARM.off [u.val]) (Reg.CAP_U_ARM_ARM.put 0#32 1) fun a => a.capArmWrite u.val)
/-- The row CAP_FORCE: a write of CAP_Uu_ARM with FORCE set. -/
def execCapForce (u : Fin 32) (s : State) : Res :=
  .next (s.hostGate (Reg.CAP_U_ARM_FORCE.off [u.val]) (Reg.CAP_U_ARM_FORCE.put 0#32 1) fun a => a.capForceWrite u.val)

/-! ### Cross-trigger lines (R386) -/

/-- A unit with XIN that fills or is armed fires at an XTRG_FIRE edge (R386), unless it may fire only when armed (R378) or is held off,
where the edge counts (R380). -/
def State.capEdge (s : State) (t : Time) (u : Nat) : State :=
  let st := s.capState u
  let v := s.capUnit u
  if (st ≠ 1 ∧ st ≠ 2) ∨ (st = 1 ∧ s.flag Reg.CAP_U_CFG_PREFULL [u] = true) then s
  else if s.capHeldOff u v t then s.capRetrig u
  else (s.setCapUnit u { v with edge := some t, early := 0 }).setCapState u 3

/-- The row XTRG_FIRE_EDGE: a falling edge, unless the line is still low from an earlier pulse (R387). The units that caused the pull
do not answer it. -/
def execXtrgFireEdge (t : Time) (s : State) : Res :=
  let s := s.advance t
  .next (if s.cap.fireLow then s
  else
    let s := ({ s with cap := { s.cap with fireLow := true } } : State).setFlag Reg.CAP_XTRG_FIRE_LINE [] false
    if s.processing then
      forEach ((List.range 32).filter fun u => s.flag Reg.CAP_U_CFG_XIN [u] && !s.cap.pulling.contains u) (fun u a => a.capEdge t u)
        (s.notice bCAP 3 0 0 0)
    else s)

/-- The row XTRG_FIRE_RELEASE: FIRE_W_US after the fire. -/
def execXtrgFireRelease (t : Time) (s : State) : Res :=
  let s := s.advance t
  let due := s.cap.pulling.isEmpty || decide (s.cap.fireAt + max 2 (s.rd Reg.CAP_XTRG_FIRE_W_US []) * usU ≤ s.now)
  .next (if due then ({ s with cap := { s.cap with pulling := [], fireLow := false } } : State).setFlag Reg.CAP_XTRG_FIRE_LINE [] true else s)

/-- A unit answers a SYNC edge: it discards its history and LOST and enters filling, after its record if it is in post. -/
def State.capSync (s : State) (u : Nat) : State :=
  let st := s.capState u
  let v := s.capUnit u
  if st = 3 then s.setCapUnit u { v with sync := true }
  else
  let v := { v with after := v.after.map fun _ => 0 }
  if st = 4 then (s.setCapUnit u { v with after := some 0, missed := 0 }).capFill u
  else (s.setCapUnit u v).capFill u

/-- The row XTRG_SYNC_EDGE. -/
def execXtrgSyncEdge (t : Time) (s : State) : Res :=
  let s := s.advance t
  .next (if s.cap.syncLow then s
  else
    let s := ({ s with cap := { s.cap with syncLow := true } } : State).setFlag Reg.CAP_XTRG_SYNC_LINE [] false
    if s.processing then
      forEach ((List.range 32).filter fun u => s.flag Reg.CAP_U_CFG_XSYNC [u] && s.capState u != 0 && s.capState u != 5)
        (fun u a => a.capSync u) (s.notice bCAP 4 0 0 0)
    else s)

/-- A write of CAP_XTRG; in a mode that drives the lines SYNC_GO pulls XTRG_SYNC low. -/
def State.xtrgWrite (s : State) (w : Word) : State :=
  let s := (s.store (Reg.CAP_XTRG_SYNC_GO.off []) w).setFlag Reg.CAP_XTRG_SYNC_GO [] false
  if w.getLsbD 0 && s.xDrives then
    ({ s with cap := { s.cap with syncAt := some s.now } } : State).setFlag Reg.CAP_XTRG_SYNC_LINE [] false
  else s

/-- The row SYNC_GO. -/
def execSyncGo (w : Word) (s : State) : Res := .next (s.hostGate (Reg.CAP_XTRG_SYNC_GO.off []) w fun a => a.xtrgWrite w)

/-- The row XTRG_SYNC_RELEASE: 10 µs after SYNC_GO. -/
def execXtrgSyncRelease (t : Time) (s : State) : Res :=
  let s := s.advance t
  let early := match s.cap.syncAt with | some u => decide (s.now < u + 10 * usU) | none => false
  .next (if early then s else ({ s with cap := { s.cap with syncAt := none, syncLow := false } } : State).setFlag Reg.CAP_XTRG_SYNC_LINE [] true)

/-- The row RESEND (R384): a held record is offered again with FLAGS.RESENT. -/
def execResend (m : Fin 16) (c : LbCmd) (_b : HostBuf) (s : State) : Res :=
  .next (s.lbRun m.val 0xE 1 c fun _ a =>
    if 32 ≤ lbW c 0 then (a.lbBad m.val, .done 2 0 [])
    else match (a.capUnit (lbW c 0)).held.find? fun h => h.1.seq == lbW c 1 with
      | some h => (a.capOffer (lbW c 0) h.1 0x80, .done 0 0 [])
      | none => (a, .done 2 0 []))

end Sys2Proof.Machine
end

