-- ==== Sys2Proof/Machine/Codec.lean ====
section
/-! DEFINITION. The compression engine's code: mapping and prediction (R390, R391), residue groups (R392), blocks (R393), and
decoding with its refusals (R395). -/
namespace Sys2Proof.Machine

/-! ### Elements and prediction (R390, R391) -/

/-- Width of an element type. -/
def elemW (elem : Nat) : Nat := if elem = 0 then 16 else 32

/-- The order-preserving map of a float32 word, its own inverse (R390). -/
def floatMap (u : Nat) : Nat := if u < 2 ^ 31 then u else u ^^^ 0x7FFFFFFF

def elemMap (elem u : Nat) : Nat := if elem = 2 then floatMap u else u

/-- The elements of a raw buffer, mapped. -/
def elemsOf (elem : Nat) (raw : List Byte) : List Nat :=
  (List.range (raw.length / (elemW elem / 8))).map fun i => elemMap elem (leAt raw (i * (elemW elem / 8)) (elemW elem / 8))

/-- One channel's values. -/
def chanOf (nch c : Nat) (xs : List Nat) : List Nat := (List.range (xs.length / nch)).map fun j => xs.getD (j * nch + c) 0

/-- The prediction of R391 from the two values before, the neighbour's value and the neighbour's value before. -/
def predict (w pred x1 x2 n0 n1 : Nat) : Nat :=
  if pred = 0 then 0
  else if pred = 1 then x1
  else if pred = 2 then (2 * x1 + 2 ^ w - x2 % 2 ^ w) % 2 ^ w
  else (n0 + x1 + 2 ^ w - n1 % 2 ^ w) % 2 ^ w

/-- A residue's code number: 2r, or −2r − 1 of a negative one. -/
def zigzag (w r : Nat) : Nat := if r < 2 ^ (w - 1) then 2 * r else 2 * (2 ^ w - r) - 1
def unzigzag (w z : Nat) : Nat := if z % 2 = 0 then z / 2 else (2 ^ w - (z + 1) / 2) % 2 ^ w

/-- The code numbers of a channel; `ys` is the channel before it. -/
def residues (w pred : Nat) : List Nat → List Nat → Nat → Nat → Nat → List Nat
  | [], _, _, _, _ => []
  | x :: xs, ys, x1, x2, n1 =>
    let n0 := ys.headD 0
    zigzag w ((x + 2 ^ w - predict w pred x1 x2 n0 n1) % 2 ^ w) :: residues w pred xs ys.tail x x1 n0

/-- The values of a channel from its code numbers. -/
def restore (w pred : Nat) : List Nat → List Nat → Nat → Nat → Nat → List Nat
  | [], _, _, _, _ => []
  | z :: zs, ys, x1, x2, n1 =>
    let n0 := ys.headD 0
    let x := (predict w pred x1 x2 n0 n1 + unzigzag w z) % 2 ^ w
    x :: restore w pred zs ys.tail x x1 n0

/-- PRED 3 uses PRED 1 in channel 0. -/
def predOf (pred c : Nat) : Nat := if pred = 3 ∧ c = 0 then 1 else pred

/-! ### Groups (R392) -/

/-- `n` bits of a number, most significant first. -/
def bitsOf (n v : Nat) : List Bool := ((List.range n).reverse).map fun i => v / 2 ^ i % 2 == 1

/-- The code of one value with a parameter k. -/
def codeVal (w k z : Nat) : List Bool :=
  if k = 31 then bitsOf w z
  else
    let q := z / 2 ^ k
    if q < 24 then List.replicate q true ++ [false] ++ bitsOf k z else List.replicate 24 true ++ bitsOf w z

/-- Bits of a value's code, without forming it. -/
def costVal (w k z : Nat) : Nat := if k = 31 then w else let q := z / 2 ^ k; if q < 24 then q + 1 + k else 24 + w

/-- The parameters an encoder may use. -/
def kAllowed (w k : Nat) : Bool := k == 31 || decide (k < w)

/-- The parameter of fewest bits for a group, ties to the smaller. -/
def bestK (w : Nat) (zs : List Nat) : Nat :=
  let cost (k : Nat) : Nat := (zs.map (costVal w k)).sum
  ((List.range 32).filter (kAllowed w)).foldl (fun b k => if cost k < cost b then k else b) 0

/-- Consecutive groups of 64. -/
def groups : Nat → List Nat → List (List Nat)
  | 0, _ => []
  | f + 1, zs => if zs.isEmpty then [] else zs.take 64 :: groups f (zs.drop 64)

/-- Bits packed most significant first, the last byte padded with zeros. -/
def packBits : Nat → List Bool → List Byte
  | 0, _ => []
  | f + 1, bs => if bs.isEmpty then [] else
      BitVec.ofNat 8 (((List.range 8).map fun i => if bs.getD i false then 2 ^ (7 - i) else 0).sum) :: packBits f (bs.drop 8)

def codeChan (w : Nat) (zs : List Nat) : List Byte :=
  let bits := (groups zs.length zs).flatMap fun g => let k := bestK w g; bitsOf 5 k ++ g.flatMap (codeVal w k)
  packBits (bits.length / 8 + 1) bits

/-- The payload of a coded block. -/
def payload (elem nch pred : Nat) (raw : List Byte) : List Byte :=
  let w := elemW elem
  let xs := elemsOf elem raw
  let ch (c : Nat) : List Nat := chanOf nch c xs
  let code := (List.range nch).flatMap fun c =>
    codeChan w (residues w (predOf pred c) (ch c) (if c = 0 then [] else ch (c - 1)) 0 0 0)
  padTo (ceilDiv code.length 4 * 4) code

/-! ### Blocks (R393) -/

def blockHeader (typ elem nch pred nsamp rawLen payLen check : Nat) : List Byte :=
  let h := leBytes 1 typ ++ leBytes 1 elem ++ leBytes 1 nch ++ leBytes 1 pred ++ leBytes 4 nsamp ++ leBytes 4 rawLen ++
    leBytes 4 payLen ++ leBytes 4 check ++ List.replicate 8 0
  h ++ leBytes 4 (crc32c h)

/-- Compress a raw buffer: the block, and whether it is stored for want of gain (R393, R395). -/
def compressBlock (elem nch pred : Nat) (raw : List Byte) : List Byte × Bool :=
  let nsamp := raw.length / (nch * (elemW elem / 8))
  let pay := payload elem nch pred raw
  if pay.length < raw.length then
    (blockHeader 1 elem nch pred nsamp raw.length pay.length (crc32c raw) ++ pay, false)
  else (blockHeader 2 elem nch 0 nsamp raw.length raw.length (crc32c raw) ++ raw, true)

/-! ### Decoding (R395) -/

/-- A number from bits, most significant first, with the bits left. -/
def takeBits (n : Nat) (bs : List Bool) : Option (Nat × List Bool) :=
  if bs.length < n then none else some ((bs.take n).foldl (fun a b => 2 * a + (if b then 1 else 0)) 0, bs.drop n)

/-- One-bits up to 24 and the zero-bit that ends fewer. -/
def takeOnes : Nat → Nat → List Bool → Option (Nat × List Bool)
  | 0, q, bs => some (q, bs)
  | f + 1, q, bs => match bs with
    | [] => none
    | true :: r => takeOnes f (q + 1) r
    | false :: r => some (q, r)

def takeVal (w k : Nat) (bs : List Bool) : Option (Nat × List Bool) :=
  if k = 31 then takeBits w bs
  else match takeOnes 24 0 bs with
    | none => none
    | some (q, r) => if q < 24 then (takeBits k r).map fun x => (q * 2 ^ k + x.1, x.2) else takeBits w r

def takeVals (w k : Nat) : Nat → List Bool → Option (List Nat × List Bool)
  | 0, bs => some ([], bs)
  | n + 1, bs => match takeVal w k bs with
    | none => none
    | some (z, r) => (takeVals w k n r).map fun x => (z :: x.1, x.2)

/-- The groups of a channel: fuel, values to come, bits. -/
def takeChan (w : Nat) : Nat → Nat → List Bool → Option (List Nat × List Bool)
  | 0, n, bs => if n = 0 then some ([], bs) else none
  | f + 1, n, bs =>
    if n = 0 then some ([], bs)
    else match takeBits 5 bs with
      | none => none
      | some (k, r) =>
        if kAllowed w k then
          match takeVals w k (min 64 n) r with
          | none => none
          | some (zs, r2) => (takeChan w f (n - min 64 n) r2).map fun x => (zs ++ x.1, x.2)
        else none

/-- The channels in order, each from a byte boundary; what is left after the last is padding. -/
def takeChans (w nsamp : Nat) : Nat → List Bool → Option (List (List Nat) × Nat)
  | 0, _ => some ([], 0)
  | c + 1, bs => match takeChan w (nsamp + 1) nsamp bs with
    | none => none
    | some (zs, r) =>
      if c = 0 then some ([zs], r.length)
      else (takeChans w nsamp c (r.drop (r.length % 8))).map fun x => (zs :: x.1, x.2)

/-- Undo the prediction, channel by channel. -/
def restoreChans (w pred : Nat) (c : Nat) (before : List Nat) : List (List Nat) → List (List Nat)
  | [] => []
  | zs :: r => let xs := restore w (predOf pred c) zs before 0 0 0; xs :: restoreChans w pred (c + 1) xs r

/-- The outcome of DECODE: 5 malformed, 4 check failed with the output, 0 with the output (R395). -/
def decodeBlock (blk : List Byte) : Nat × List Byte × Nat :=
  let h := blk.take 32
  let typ := leAt h 0 1
  let elem := leAt h 1 1
  let nch := leAt h 2 1
  let pred := leAt h 3 1
  let nsamp := leAt h 4 4
  let rawLen := leAt h 8 4
  let payLen := leAt h 12 4
  let pay := slice blk 32 payLen
  let check := leAt h 16 4
  let finish (raw : List Byte) : Nat × List Byte × Nat := (if crc32c raw = check then 0 else 4, raw, crc32c raw)
  if blk.length < 32 + payLen ∨ leAt h 28 4 ≠ crc32c (h.take 28) ∨ nch = 0 ∨ 64 < nch ∨ 2 < elem ∨ 3 < pred ∨
      rawLen ≠ nsamp * nch * (elemW elem / 8) then (5, [], 0)
  else if typ = 2 then (if payLen < rawLen then (5, [], 0) else finish (pay.take rawLen))
  else if typ = 1 then
    match takeChans (elemW elem) nsamp nch (pay.flatMap fun b => bitsOf 8 b.toNat) with
    | none => (5, [], 0)
    | some (zss, left) =>
      if 31 < left then (5, [], 0)
      else
        let xs := restoreChans (elemW elem) pred 0 [] zss
        finish ((List.range nsamp).flatMap fun j => xs.flatMap fun ch => leBytes (elemW elem / 8) (elemMap elem (ch.getD j 0)))
  else (5, [], 0)

end Sys2Proof.Machine
end

