-- ==== Sys2Proof/Machine/Comp.lean ====
section
/-! DEFINITION. The compression engine's commands and the end of a block (R394, R395, R401). -/
namespace Sys2Proof.Machine

/-- CODE 3: a bad parameter of COMPRESS (R395). -/
def cmpBad (c : LbCmd) : Bool :=
  let w := lbW c 3
  let elem := w % 256
  let nch := w / 256 % 256
  nch == 0 || decide (64 < nch) || decide (2 < elem) || c.len == 0 || decide (2 ^ 20 < c.len) || c.len % (nch * (elemW elem / 8)) != 0

/-- The 16-byte result: CODE, output length, RAW_CHECK. -/
def cmpResult (code len check : Nat) : List Byte :=
  leBytes 1 code ++ List.replicate 3 0 ++ leBytes 4 len ++ leBytes 4 check ++ List.replicate 4 0

/-- A command joins the engine: with CMP_CTL.EN = 0 it completes with STATUS 4; a full engine lets it wait. -/
def State.cmpCmd (s : State) (m : Nat) (dec : Bool) (c : LbCmd) (b : HostBuf) (cmd : List Byte) : State × LbAns :=
  if !s.flag Reg.CMP_CTL_EN [] then (s, .done 4 0 [])
  else if (if dec then c.len == 0 else cmpBad c) then (s, .done 2 0 (cmpResult 3 0 0))
  else if 16 ≤ s.cmpCmds then (s, .wait)
  else (({ s with cmp := { s.cmp with jobs := s.cmp.jobs ++ [.cmd m dec cmd (b.data.take c.len) b.err] } } : State).cmpShow, .engine)

/-- The row COMPRESS (R394). PARAM word 3 has reserved bits outside ELEM, NCH, PRED and RING. -/
def execCompress (m : Fin 16) (c : LbCmd) (b : HostBuf) (s : State) : Res :=
  .next (s.lbRun m.val 0xF 1 c fun cmd a =>
    let w := lbW c 3
    if w / 2 ^ 18 % 64 ≠ 0 ∨ w / 2 ^ 25 ≠ 0 then (a.lbBad m.val, .done 2 0 []) else a.cmpCmd m.val false c b cmd)

/-- The row DECODE (R394). -/
def execDecode (m : Fin 16) (c : LbCmd) (b : HostBuf) (s : State) : Res :=
  .next (s.lbRun m.val 0xF 2 c fun cmd a => a.cmpCmd m.val true c b cmd)

/-- Count an outcome and set its notice (R395, R402). -/
def State.cmpCount (s : State) (m code : Nat) : State :=
  if code = 1 then (s.inc Reg.CMP_STORED []).notice bCMP 0 m code 0
  else if code = 2 then (s.inc Reg.CMP_NOSPACE []).notice bCMP 1 m code 0
  else if code = 4 then (s.inc Reg.CMP_FAIL []).notice bCMP 2 m code 0
  else if code = 5 then (s.inc Reg.CMP_FAIL []).notice bCMP 3 m code 0
  else s

/-- A command's output goes to the SRC 7 rings or to the host buffer at DEST; `err` is that write's PCIe error. -/
def State.cmpPut (s : State) (m : Nat) (cmd out : List Byte) (code check : Nat) (err : Bool) : State :=
  let c := cmdOf cmd
  let dest := lbW c 0 + 2 ^ 32 * lbW c 1
  let ring := leAt cmd 1 1 == 1 && lbW c 3 / 2 ^ 24 % 2 == 1 && dest == 0
  if ring then
    ((s.cmpCount m code).offer 7 64 (c.tag % 65536) 0x5004 (fun _ => true) out none).lbDone m cmd
      (completionBytes cmd 0 0 (cmpResult code out.length check))
  else if lbW c 2 < out.length then (s.cmpCount m 2).lbDone m cmd (completionBytes cmd 0 0 (cmpResult 2 0 check))
  else if err then s.lbDone m cmd (completionBytes cmd 5 0 (cmpResult 6 0 0))
  else ((s.cmpCount m code).emit (.hostWrite dest out)).lbDone m cmd (completionBytes cmd 0 out.length (cmpResult code out.length check))

/-- Count a block made from raw bytes (R401). -/
def State.cmpMade (s : State) (raw blk : Nat) : State :=
  ((s.bump64 Reg.CMP_IN [] raw).bump64 Reg.CMP_OUT [] blk).inc Reg.CMP_BLOCKS []

/-- A command's block is finished. -/
def State.cmpCmdDone (s : State) (m : Nat) (dec : Bool) (cmd data : List Byte) (readErr err : Bool) : State :=
  let c := cmdOf cmd
  if readErr then s.lbDone m cmd (completionBytes cmd 5 0 (cmpResult 6 0 0))
  else if dec then
    let (code, out, check) := decodeBlock data
    if code = 5 then (s.cmpCount m 5).lbDone m cmd (completionBytes cmd 0 0 (cmpResult 5 0 0))
    else s.cmpPut m cmd out code check err
  else
    let w := lbW c 3
    let (blk, stored) := compressBlock (w % 256) (w / 256 % 256) (w / 2 ^ 16 % 4) data
    let fits := (w / 2 ^ 24 % 2 = 1 ∧ lbW c 0 + lbW c 1 = 0) ∨ blk.length ≤ lbW c 2
    let s := if fits ∧ err = false then s.cmpMade data.length blk.length else s
    s.cmpPut m cmd blk (if stored then 1 else 0) (crc32c data) err

/-- A held record's body is replaced by its block, and the record is offered (R385). -/
def State.cmpCapDone (s : State) (u seq : Nat) : State :=
  let v := s.capUnit u
  match v.held.find? fun h => h.1.seq == seq with
  | none => s
  | some (r, o) =>
    let (blk, stored) := compressBlock 2 r.nch (s.rd Reg.CAP_U_CFG_CPRED [u]) r.body
    let r2 := capSealed u { r with body := blk, flags := r.flags + 2 + (if stored then 4 else 0) }
    let s := s.setCapUnit u { v with held := v.held.map fun h => if h.1.seq == seq then (r2, o) else h }
    let s := (s.cmpMade r.body.length blk.length)
    (if stored then s.cmpCount u 1 else s).capRelease u seq

/-- The job the engine finishes next: capture records are served before commands (R394). -/
def cmpFront (js : List CmpJob) : Option CmpJob :=
  match js.find? fun j => match j with | .cap _ _ => true | _ => false with
  | some j => some j
  | none => js.head?

/-- The row COMPRESS_DONE (R395). -/
def execCompressDone (err : Bool) (t : Time) (s : State) : Res :=
  let s := s.advance t
  .next (match cmpFront s.cmp.jobs with
  | none => s
  | some j =>
    let s := ({ s with cmp := { s.cmp with jobs := s.cmp.jobs.erase j } } : State).cmpShow
    match j with
    | .cap u seq => s.cmpCapDone u seq
    | .cmd m dec cmd data e => s.cmpCmdDone m dec cmd data e err)

end Sys2Proof.Machine
end

