-- ==== Sys2Proof/Machine/HalfCycle.lean ====
section
/-! DEFINITION. Urms(1/2) (R362): the fundamental of each voltage channel, its zero crossings, and the one-cycle windows that they
end. The spec gives the band-pass's order, centre and bandwidth and not its coefficients: these are free among those that meet what it
gives (log entry 123). -/
namespace Sys2Proof.Machine

/-! ### The band-pass -/

/-- The squared magnitude of x + y z + w z² on the unit circle at f/16 Hz, at `rate` samples per second, in units of 2^-618. -/
def circle2 (x y w : Int) (rate f : Nat) : Int :=
  let c (k : Nat) : Int := cosUnits ((twoPi * (k * f) / (16 * rate) % twoPi : Nat))
  (x * x + y * y + w * w) * 2 ^ 320 + 2 * (x * y + y * w) * c 1 + 2 * x * w * c 2

/-- Numerator and denominator of a section's power gain at f/16 Hz. -/
def bandGain (c : Config.BandCoef) (rate f : Nat) : Int × Int :=
  (circle2 (F32.units c.b0) (F32.units c.b1) (F32.units c.b2) rate f, circle2 (2 ^ 149) (F32.units c.a1) (F32.units c.a2) rate f)

/-- Coefficients that the band-pass may have: a stable section whose gain is greatest at f0 among whole Hz, and half of that in power,
within one hundredth, at two frequencies 30 Hz apart about f0. -/
def bandOk (rate f0 : Nat) (c : Config.BandCoef) : Bool :=
  let g := bandGain c rate
  let top := g (16 * f0)
  [c.b0, c.b1, c.b2, c.a1, c.a2].all F32.isFinite && decide (0 < top.1) &&
    decide ((F32.units c.a2).natAbs < 2 ^ 149) && decide (((F32.units c.a1).natAbs : Int) < 2 ^ 149 + F32.units c.a2) &&
    (List.range (rate / 2 + 1)).all (fun f => let x := g (16 * f); decide (x.1 * top.2 ≤ top.1 * x.2)) &&
    (List.range (16 * 30)).any fun i =>
      let lo := 16 * (f0 - 30) + i
      [lo, lo + 16 * 30].all fun f =>
        let x := g f
        decide ((2 * x.1 * top.2 - top.1 * x.2).natAbs * 100 ≤ (top.1 * x.2).natAbs)

/-- The second-order section with a pole pair at f0 and 30 Hz between its half-power points, for a rate: what stands in should the free
value not meet `bandOk`. -/
def bandStandIn (rate f0 : Nat) : Config.BandCoef :=
  let th := F32.mul pi32 (F32.ofRat 30 rate)
  let al := F32.div (sinF th) (cosF th)
  let k := F32.div F32.one (F32.add F32.one al)
  { b0 := F32.mul al k, b1 := F32.zero, b2 := F32.neg (F32.mul al k)
    a1 := F32.mul (F32.ofInt (-2)) (F32.mul (cosF (F32.mul pi32 (F32.ofRat (2 * f0) rate))) k), a2 := F32.mul (F32.sub F32.one al) k }

/-- The band-pass of a rate and a nominal frequency. -/
def bandCoefs (rate f0 : Nat) : Config.BandCoef :=
  let c := Config.bandPass rate f0
  if bandOk rate f0 c then c else bandStandIn rate f0

/-- One sample through the second-order band-pass; the newest of its inputs and outputs come first. -/
def bandPass (c : Config.BandCoef) (x : Word) (k : HalfCh) : Word :=
  let z (xs : List Word) (i : Nat) : Word := xs.getD i F32.zero
  F32.fma c.b0 x (F32.fma c.b1 (z k.xs 0) (F32.fma c.b2 (z k.xs 1) (F32.neg (F32.fma c.a1 (z k.ys 0) (F32.mul c.a2 (z k.ys 1))))))

/-- The direction of a zero crossing between two values: true where it is positive-going. A value of 0 lies on the positive side. -/
def crossDir (a b : Word) : Option Bool :=
  if F32.lt a F32.zero && F32.le F32.zero b then some true else if F32.le F32.zero a && F32.lt b F32.zero then some false else none

/-- The instant of a crossing between two samples, interpolated linearly to 1 ns. -/
def crossTime (t0 t1 : Time) (a b : Word) : Time :=
  let n := (F32.units a).natAbs
  let d := (F32.units b - F32.units a).natAbs
  roundDiv (t0 * d + (t1 - t0) * n) (d * nsU) * nsU

/-- The RMS of a channel's calibrated samples with instants in [a, b), from samples newest first. -/
def windowRms (rate ch : Nat) (hist : List AcqSmp) (a b : Time) : Word :=
  let xs := (hist.filter fun x => decide (a ≤ instantTime x.n rate ∧ instantTime x.n rate < b)).map fun x => x.xs.getD ch F32.zero
  F32.sqrt (F32.div (sumSq xs) (F32.ofInt xs.length))

/-- A crossing of a channel: it ends the window that the last crossing in its direction began, and the value is stamped there. -/
def State.halfCross (s : State) (p ch : Nat) (c : Time × Bool) : State :=
  let v := s.nrgPt p
  let k := sget v.half ch {}
  let out := match k.cross.find? fun x => x.2 == c.2 with
    | some (a, _) => [(c.1, ch, windowRms (s.ptRate p) ch (s.acqPt p).hist a c.1)]
    | none => []
  s.setNrgPt p { v with half := sset v.half ch { k with cross := (c :: k.cross).take 2 }, due := v.due ++ out }

/-- A crossing that did not come within 1.5 half periods of the one before, a half-open window (R7): it is placed one half period after
that. -/
def State.halfPlaced (s : State) (p ch : Nat) (t : Time) : State :=
  match (sget (s.nrgPt p).half ch {}).cross with
  | (c, up) :: _ => if 3 * second ≤ 4 * s.ptF0 p * (t - c) then s.halfCross p ch (c + roundDiv second (2 * s.ptF0 p), !up) else s
  | [] => s

/-- One voltage channel takes a calibrated sample of instant `t`. -/
def State.halfSample (s : State) (p ch : Nat) (t : Time) (x : Word) : State :=
  let v := s.nrgPt p
  let k := sget v.half ch {}
  let y := bandPass (bandCoefs (s.ptRate p) (s.ptF0 p)) x k
  let prev := k.ys.head?
  let s := s.setNrgPt p { v with half := sset v.half ch { k with xs := (x :: k.xs).take 2, ys := (y :: k.ys).take 2, last := t } }
  match prev.bind fun a => (crossDir a y).map fun up => (crossTime k.last t a y, up) with
  | some c => (s.halfPlaced p ch c.1).halfCross p ch c
  | none => s.halfPlaced p ch t

/-- The voltage channels of a point that are not faulted (R365) take an output sample. -/
def State.halfPush (s : State) (p : Nat) (x : AcqSmp) : State :=
  if (s.acqPt p).filled.isSome then
    forEach [0, 1, 2] (fun ch a =>
      if a.inFault p ch then a else a.halfSample p ch (instantTime x.n (a.ptRate p)) (x.xs.getD ch F32.zero)) s
  else s

end Sys2Proof.Machine
end

