-- ==== Sys2Proof/Machine/Acq.lean ====
section
/-! DEFINITION. The calibration stage and cross-fades (R322 to R326), path selection (R327 to R330), and the rows of the
acquisition chains. -/
namespace Sys2Proof.Machine

/-! ### The calibration stage (R322, R325) -/

/-- sin(πx) / (πx). -/
def sincF (x : Word) : Word := if F32.isZero x then F32.one else F32.div (sinF (F32.mul pi32 x)) (F32.mul pi32 x)

/-- The Blackman weight of one of nine taps, with its zero ends or without them. -/
def blackman (i : Nat) : Word :=
  let q := if Config.blackmanEnds then F32.ofRat i 8 else F32.ofRat (i + 1) 10
  F32.fma (F32.ofRat 8 100) (cosF (F32.mul twoPi32 (F32.mul (F32.ofInt 2) q)))
    (F32.fma (F32.neg (F32.ofRat 1 2)) (cosF (F32.mul twoPi32 q)) (F32.ofRat 42 100))

/-- The nine taps of FD_τ, newest sample first: a Blackman-windowed sinc of unity gain at 0 Hz. A positive τ is a lag to remove,
so the delay is 4 − τ samples (log entry 91). -/
def fdTaps (tau : Word) : List Word :=
  let h := (List.range 9).map fun i => F32.mul (blackman i) (sincF (F32.add (F32.ofInt ((i : Int) - 4)) tau))
  let k := sumF h
  h.map fun x => F32.div x k

/-- The stage's output with one set of coefficients, from the delay line, newest first. -/
def calStage (c : Coef) (line : List Word) : Word :=
  F32.mul c.g ((line.zip (fdTaps c.tau)).foldl (fun a x => F32.fma x.2 (F32.sub x.1 c.ofs) a) F32.zero)

/-- The raised-cosine weight of sample j of a fade over X samples (R325). -/
def fadeW (j x : Nat) : Word :=
  F32.mul (half 1) (F32.sub F32.one (cosF (F32.mul pi32 (F32.ofRat (j + 1) (x + 1)))))

/-- Where an input's cross-fade stands at a sample: the fade that is over leaves the new coefficients alone. -/
def fadeEnd (n : Nat) (k : AcqIn) : AcqIn :=
  match k.nxt with
  | some (c, n0, x) => if n0 + x ≤ n then { k with cur := c, nxt := none } else k
  | none => k

/-- An input's calibrated sample n. -/
def calOut (n : Nat) (k : AcqIn) : Word :=
  match k.nxt with
  | some (c, n0, x) =>
    if n < n0 then calStage k.cur k.line
    else
      let w := fadeW (n - n0) x
      F32.add (F32.mul (F32.sub F32.one w) (calStage k.cur k.line)) (F32.mul w (calStage c k.line))
  | none => calStage k.cur k.line

/-- An input takes a chain output. -/
def calPush (x : Word) (k : AcqIn) : AcqIn :=
  let d := F32.sub x k.cur.ofs
  { k with line := (x :: k.line).take 9, sq := F32.fma d d k.sq, sqN := k.sqN + 1 }

/-! ### Path selection (R327 to R330) -/

def State.splUp (s : State) (p : Nat) : Nat :=
  max (s.rd Reg.ACQ_PT_SPL_UP [p]) (s.rd Reg.ACQ_PT_SPL_DOWN [p] + 1)
def State.splForce (s : State) (p : Nat) : Nat := s.rd Reg.ACQ_PT_SPL_FORCE [p]

def State.acqPh (s : State) (p k : Nat) : AcqPh := (s.acqPt p).phs.getD k acqPh0
def State.mapPhs (s : State) (p : Nat) (f : Nat → AcqPh → AcqPh) : State :=
  let v := s.acqPt p
  s.setAcqPt p { v with phs := (v.phs.zipIdx).map fun x => f x.2 x.1 }

/-- The phases that move with one: all three under GANG (R329). -/
def State.gang (s : State) (p k : Nat) : List Nat := if s.flag Reg.ACQ_PT_SPL_GANG [p] then [0, 1, 2] else [k]

/-- Phases as a mask. -/
def phMask (ks : List Nat) : Nat := (ks.map (2 ^ ·)).sum

/-- An up-splice of some phases at a sample: those on path L or fading to it whose move is not yet decided and whose path H
is not faulted. -/
def State.upSplice (s : State) (p n : Nat) (ks : List Nat) : State :=
  let go := ks.filter fun k =>
    let h := s.acqPh p k
    h.path != 0 && h.hard.isNone && !s.inFault p (3 + k)
  if go.isEmpty then s
  else
    ((s.mapPhs p fun k h => if go.contains k then { h with hard := some n } else h).inc Reg.ACQ_PT_SPLICES_UP [p]).notice bACQ 2 p
      (phMask go) 0

/-- The conditions of a down-splice of one phase but for the zero crossing (R328, R329). -/
def State.downOk (s : State) (p k : Nat) : Bool :=
  let h := s.acqPh p k
  let hold := max 1 (s.rd Reg.ACQ_PT_SPL_HOLD_CYC [p]) * second / s.ptF0 p
  s.splForce p != 1 && !s.inFault p (6 + k) && (s.splForce p == 2 || decide (h.high + hold + cicDelay ≤ s.now))

/-- Down-splices that start at a sample: `ys` are the path H outputs. -/
def State.downSplice (s : State) (p n : Nat) (ys : List Word) : State :=
  let groups : List (List Nat) := if s.flag Reg.ACQ_PT_SPL_GANG [p] then [[0, 1, 2]] else [[0], [1], [2]]
  forEach groups (fun ks a =>
    let on := ks.filter fun k => (a.acqPh p k).path == 0
    match ks.find? fun k => !a.inFault p (3 + k) with
    | none => a
    | some r =>
      let cross := F32.lt (a.acqPh p r).prevH F32.zero && F32.le F32.zero (ys.getD r F32.zero)
      if cross && !on.isEmpty && ks.all (a.downOk p) then
        ((a.mapPhs p fun k h => if on.contains k then { h with path := 2, start := n, hard := none } else h).inc
          Reg.ACQ_PT_SPLICES_DOWN [p]).notice bACQ 3 p (phMask on) 0
      else a) s

/-- A phase's output from its two paths. -/
def pathOut (spl n : Nat) (h : AcqPh) (yh yl : Word) : Word :=
  if h.path = 0 then yh
  else if h.path = 1 then yl
  else
    let w := F32.ofRat (n - h.start + 1) (spl + 1)
    F32.add (F32.mul (F32.sub F32.one w) yh) (F32.mul w yl)

/-- Path selection at a sample: hard splices that take effect, forced paths, down-splices, and fades that are over. -/
def State.selectPaths (s : State) (p n : Nat) (yhs : List Word) : State :=
  let s := forEach [0, 1, 2] (fun k a =>
    if a.inFault p (6 + k) || a.splForce p == 1 then a.upSplice p n (a.gang p k) else a) s
  let s := s.mapPhs p fun _ h => match h.hard with | some m => if m ≤ n then { h with path := 0, hard := none } else h | none => h
  let s := s.downSplice p n yhs
  let spl := max 1 (s.rd Reg.ACQ_PT_SPL_SPL [p])
  s.mapPhs p fun k h =>
    { h with path := if h.path = 2 ∧ h.start + spl ≤ n then 1 else h.path, prevH := yhs.getD k F32.zero }

/-- Bits of a list of flags. -/
def bitsMask (bs : List Bool) : Nat := ((bs.zipIdx).map fun x => if x.1 then 2 ^ x.2 else 0).sum

/-- Output sample n of a point (R317, R319, R322, R327): calibration, overload, path selection, and the sample for the
estimator, the energy block and capture. -/
def State.acqSample (s : State) (p n : Nat) (xs : List Word) : State :=
  let v := s.acqPt p
  let ins := (v.ins.zipIdx).map fun x => fadeEnd n (calPush (xs.getD x.2 F32.zero) x.1)
  let ys := ins.map (calOut n)
  let thr := F32.ofQ16 (s.rd Reg.ACQ_PT_OVR_THR [p])
  let ovr := ins.map fun k => F32.le thr (F32.abs (k.line.getD 4 F32.zero))
  let fade := ins.any fun k => match k.nxt with | some (_, n0, _) => decide (n0 ≤ n) | none => false
  let s := (s.setAcqPt p { v with ins := ins }).calDone
  let s := s.wr Reg.ACQ_PT_STAT_OVR [p] (bitsMask ovr)
  let s := s.selectPaths p n ((ys.drop 3).take 3)
  let spl := max 1 (s.rd Reg.ACQ_PT_SPL_SPL [p])
  let phs := (s.acqPt p).phs
  let cur := (phs.zipIdx).map fun x => pathOut spl n x.1 (ys.getD (3 + x.2) F32.zero) (ys.getD (6 + x.2) F32.zero)
  -- what holds of the inputs a phase's output comes from
  let used (f : Nat → Bool) : List Bool := (phs.zipIdx).map fun x =>
    (x.1.path != 1 && f (3 + x.2)) || (x.1.path != 0 && f (6 + x.2))
  let volt (f : Nat → Bool) : List Bool := [f 0, f 1, f 2]
  let ov (j : Nat) : Bool := ovr.getD j false
  -- path L at or above UP that no path H can take over from is used overloaded (R329)
  let up := F32.ofRat (s.splUp p) 256
  let stuck := (phs.zipIdx).map fun x => x.1.path == 1 && s.inFault p (3 + x.2) &&
    F32.le up (F32.abs (((ins.getD (6 + x.2) acqIn0).line).getD 4 F32.zero))
  let marks := volt ov ++ ((used ov).zip stuck).map fun x => x.1 || x.2
  let pl := phs.map fun h => h.path != 0
  let sp := phs.map fun h => h.path == 2
  let x : AcqSmp :=
    { n := n, xs := ys.take 3 ++ cur, pathL := bitsMask pl, ovr := bitsMask marks
      flt := bitsMask (volt (s.inFault p) ++ used (s.inFault p)), fade := fade, interp := false, splice := bitsMask sp }
  let w := s.acqPt p
  let s := ((s.setAcqPt p { w with hist := (x :: w.hist).take (s.ptRate p) }).wr Reg.ACQ_PT_STAT_PATH_L [p] x.pathL).showFading p
  let cnt := (marks.filter id).length
  let s := if cnt = 0 then s else (s.bump Reg.ACQ_PT_OVR_CNT [p] cnt).noticeFirst bACQ 1 p x.ovr 0
  (s.halfPush p x).capPoint p (instantTime n (s.ptRate p)) x

/-- While the chain fills, a chain output only enters the calibration stage's delay lines (R338). -/
def State.acqFill (s : State) (p : Nat) (xs : List Word) : State :=
  let v := s.acqPt p
  s.setAcqPt p { v with ins := (v.ins.zipIdx).map fun x => { calPush (xs.getD x.2 F32.zero) x.1 with sq := F32.zero, sqN := 0 } }

/-- Output sample n of a point: the chain's output four samples on completes it (R318), and leaves with those before it the outputs that
wait. -/
def State.acqTake (s : State) (p n : Nat) : State :=
  let v := s.acqPt p
  match sfind v.ready (n + 4) with
  | none => s
  | some xs =>
    let s := s.setAcqPt p { v with ready := v.ready.filter fun r => decide (n + 4 < r.1) }
    if v.filled.isSome then s.acqSample p n xs else s.acqFill p xs

/-- The row OUTPUT_SAMPLE: calibrated sample `n`, whose instant lies one total delay before at the latest, becomes available (R319). -/
def execOutputSample (pt : Fin 2) (n : Nat) (t : Time) (s : State) : Res :=
  let s := s.advance t
  let p := pt.val
  .next (if s.clocked p && decide (instantTime n (s.ptRate p) + s.ptDelay p ≤ t) && decide (s.nextSmp p ≤ n) then s.acqTake p n else s)

/-- A look-ahead sample of a phase's path L is judged (R327, R328): at UP or above the phase moves hard to path H from the first output
sample whose window holds it, or the next one if that was emitted. -/
def State.lookJudge (s : State) (p : Nat) (t : Time) (k : Nat) (v : Int) : State :=
  let s := if cicReaches v (s.rd Reg.ACQ_PT_SPL_DOWN [p]) then
      s.mapPhs p fun j h => if j = k then { h with high := t - cicDelay } else h
    else s
  if cicReaches v (s.splUp p) = true ∧ s.splForce p ≠ 2 then
    s.upSplice p (max (s.nextSmp p) (ceilDiv ((t - s.ptDelay p) * s.ptRate p) second)) (s.gang p k)
  else s

/-- A point's clock runs and its first millisecond, whose modulator data is discarded, is over (R338). -/
def State.sampling (s : State) (p : Nat) : Bool := s.clocked p && decide ((s.acqPt p).start + msU ≤ s.now)

/-- The nine inputs' bits: six of the voltages and of path H, then three of path L. -/
def inputBits (bits lbits : List (List Bool)) : List (List Bool) := (List.range 6).map (fun i => bits.getD i []) ++ lbits

/-- The row LOOK_AHEAD_SAMPLE: the nine inputs' next CIC samples, from the modulator bits of 125 periods as latched on the edges that EDGE
selects (R315), those of path L, which are judged, in `lbits`; all go down the chain. -/
def execLookAheadSample (pt : Fin 2) (bits lbits : List (List Bool)) (t : Time) (s : State) : Res :=
  let s := s.advance t
  let p := pt.val
  .next (if s.sampling p then
    let r := (s.acqPt p).chainPush (s.preset p) (instantOf (t - cicDelay) 160000) (inputBits bits lbits)
    forEach [0, 1, 2] (fun k a => a.lookJudge p t k (r.2.getD (6 + k) 0)) (s.setAcqPt p r.1)
  else s)

/-- An input's fault bit and its onset (R316): path L's forces path H at once, and the last voltage's ends every supply event
of the point (R329, R365). -/
def State.faultOn (s : State) (p j : Nat) : State :=
  let s := ((s.wr Reg.ACQ_PT_STAT_FAULT [p] (s.rd Reg.ACQ_PT_STAT_FAULT [p] + 2 ^ j)).inc Reg.ACQ_PT_FAULTS [p]).notice bACQ 0 (9 * p + j) 1 0
  -- a voltage channel that clears starts with no value and no crossing
  let s := if j < 3 then
      let v := s.nrgPt p
      s.setNrgPt p { v with urms := serase v.urms j, half := serase v.half j, due := v.due.filter fun x => x.2.1 != j }
    else s
  let s := if 6 ≤ j then s.upSplice p (s.nextSmp p) (s.gang p (j - 6)) else s
  if j < 3 ∧ s.inFault p 0 ∧ s.inFault p 1 ∧ s.inFault p 2 then s.pqEndAll p 4 else s

/-- The row INPUT_FAULT. -/
def execInputFault (i : Fin 18) (t : Time) (s : State) : Res :=
  let s := s.advance t
  .next (if s.clocked (i.val / 9) && !s.inFault (i.val / 9) (i.val % 9) then s.faultOn (i.val / 9) (i.val % 9) else s)

/-- The row INPUT_FAULT_CLEAR. -/
def execInputFaultClear (i : Fin 18) (t : Time) (s : State) : Res :=
  let s := s.advance t
  let p := i.val / 9
  .next (if s.inFault p (i.val % 9) then
    s.wr Reg.ACQ_PT_STAT_FAULT [p] (s.rd Reg.ACQ_PT_STAT_FAULT [p] - 2 ^ (i.val % 9))
  else s)

/-! ### Curves (R324, R326) -/

/-- Do new coefficients differ from those applied by more than 10 ppm in gain or 10 µrad in phase? -/
def coefMoved (a b : Coef) : Bool :=
  F32.lt (F32.mul (F32.ofRat 10 1000000) (F32.abs a.g)) (F32.abs (F32.sub b.g a.g)) ||
    F32.lt (F32.ofInt 10) (F32.abs (F32.sub b.ph a.ph))

/-- RMS since the last lookup, after OFFSET, as a fraction of full scale; at the instant of a lookup that came first, its key. -/
def inRms (k : AcqIn) : Word := if k.sqN = 0 then k.key else F32.sqrt (F32.div k.sq (F32.ofInt k.sqN))

/-- The curve lookup of one point: an input whose coefficients moved fades to the new ones over 64 samples. -/
def State.lookup (s : State) (p : Nat) : State :=
  let v := s.acqPt p
  let n0 := s.nextSmp p
  let rs := (v.ins.zipIdx).map fun x =>
    let (c, held) := s.coefOf p x.2 (inRms x.1)
    let k := { x.1 with sq := F32.zero, sqN := 0, key := inRms x.1 }
    if k.nxt.isNone && coefMoved k.cur c then ({ k with nxt := some (c, n0, 64) }, held) else (k, held)
  ((s.setAcqPt p { v with ins := rs.map (·.1) }).tauSeen p (rs.any (·.2))).showFading p

/-- The row CURVE_LOOKUP: a 200 ms instant of device time, each once. -/
def execCurveLookup (t : Time) (s : State) : Res :=
  let s := s.advance t
  .next (if t % (200 * msU) = 0 ∧ s.acq.looked ≠ some t then
    let s : State := { s with acq := { s.acq with looked := some t } }
    forEach [0, 1] (fun p a => if a.clocked p then a.lookup p else a) s
  else s)

/-- Does a shadow entry have VALID = 1 and a failing CHECK (R326)? -/
def State.curveBad (s : State) (base i : Nat) : Bool :=
  s.flag Reg.SCURVE_VALID [i] && (s.word (base + 128 * i + 0x7C)).toNat != crc32c (s.regBytes (base + 128 * i) 31)

/-- A write of ACQ_CAL. -/
def State.calWrite (s : State) (w : Word) : State :=
  let pending := s.rd Reg.ACQ_CAL_STATUS [] == 1
  let s := (s.store (Reg.ACQ_CAL_COMMIT.off []) w).setFlag Reg.ACQ_CAL_COMMIT [] false
  if !w.getLsbD 31 || pending then s
  else if (List.range 18).any (s.curveBad 0xFC1000) then (s.wr Reg.ACQ_CAL_STATUS [] 3).notice bACQ 5 0 0 0
  else s.wr Reg.ACQ_CAL_STATUS [] 1

/-- The row CAL_COMMIT: a write of ACQ_CAL. -/
def execCalCommit (w : Word) (s : State) : Res := .next (s.hostGate (Reg.ACQ_CAL_COMMIT.off []) w fun a => a.calWrite w)

/-- The shadow bank is copied to the active bank. -/
def State.copyCurves (s : State) : State :=
  forEach (List.range 576) (fun i a => a.put 0xFC0000 (0xFC0000 + 4 * i) (a.word (0xFC1000 + 4 * i))) s

/-- A running point fades each input to its new coefficients from a sample on, over XF samples; a fade in progress is
over. -/
def State.commitFade (s : State) (p n0 : Nat) : State :=
  let v := s.acqPt p
  let xf := clampN 16 4096 (s.rd Reg.ACQ_CAL_XF [])
  let rs := (v.ins.zipIdx).map fun x =>
    let (c, held) := s.coefOf p x.2 (inRms x.1)
    let k := match x.1.nxt with | some (d, _, _) => { x.1 with cur := d, nxt := none } | none => x.1
    ({ k with nxt := some (c, n0, xf) }, held)
  ((s.setAcqPt p { v with ins := rs.map (·.1) }).tauSeen p (rs.any (·.2))).showFading p

/-- The row CAL_COMMIT_APPLY: at a whole second the pending commit is applied; it is done when its last fade ends. -/
def execCalCommitApply (t : Time) (s : State) : Res :=
  let s := s.advance t
  .next (if s.rd Reg.ACQ_CAL_STATUS [] = 1 ∧ s.acq.calFade = false ∧ t % second = 0 then
    let s := s.copyCurves
    let s := forEach [0, 1] (fun p a => if a.clocked p then a.commitFade p (secOf t * a.ptRate p) else a) s
    ({ s with acq := { s.acq with calFade := true } } : State).calDone
  else s)

end Sys2Proof.Machine
end

