-- ==== Sys2Proof/Machine/Backup.lean ====
section
/-! DEFINITION. The backup domain (R491 to R499, R504, R505): its clock and the clock's group of registers, compensation, the
alarm, PON, and the timebase's write of the clock (R82). -/
namespace Sys2Proof.Machine

/-- An event of the backup domain: its notice now, or at the next cold start when the device is in BACKUP (R505). -/
def State.bkdNotice (s : State) (bit d0 d1 d2 : Nat) : State :=
  if s.powered then s.notice bBKD bit d0 d1 d2
  else { s with bkd := { s.bkd with due := s.bkd.due ++ [(bit, d0, d1, d2)] } }

/-! ### The clock (R492 to R495) -/

def State.bkdSec (s : State) : Nat := s.rd Reg.BKD_SEC_LO_SEC [] + 2 ^ 32 * s.rd Reg.BKD_SEC_HI_SEC []
def State.bkdSet (s : State) : Nat := s.rd Reg.BKD_SET_SEC_LO_SEC [] + 2 ^ 32 * s.rd Reg.BKD_SET_SEC_HI_SEC []
def State.bkdAlm (s : State) : Nat := s.rd Reg.BKD_ALM_SEC_LO_SEC [] + 2 ^ 32 * s.rd Reg.BKD_ALM_SEC_HI_SEC []

/-- BKD_SUB: units of 2^-15 s since the present second began. -/
def State.bkdSub (s : State) : Nat := min 32767 ((s.now - s.bkd.tickAt) * 32768 / second)

/-- The count takes a value; `tick` says that a second begins with it. -/
def State.putBkdSec (s : State) (v : Nat) (tick : Bool) : State :=
  let s := (s.wr Reg.BKD_SEC_LO_SEC [] v).wr Reg.BKD_SEC_HI_SEC [] (v / 2 ^ 32)
  if tick then { s with bkd := { s.bkd with tickAt := s.now } } else s

/-- PON (R499): high with AUTO, else as the ON latch. -/
def State.showPon (s : State) : State :=
  s.setFlag Reg.BKD_PON_LEVEL [] (s.flag Reg.BKD_PON_AUTO [] || s.flag Reg.BKD_STAT_ON [])

/-! ### The alarm (R498) -/

/-- The alarm fires: it ends an OFF write that waits, and with WAKE sets the ON latch (R498, R499). -/
def State.fireAlarm (s : State) (late : Bool) : State :=
  let s := ((s.setFlag Reg.BKD_ALM_CTL_ARMED [] false).setFlag Reg.BKD_ALM_CTL_FIRED [] true).setFlag Reg.BKD_ALM_CTL_LATE [] late
  let s : State := { s with bkd := { s.bkd with offAt := none } }
  let s := if s.flag Reg.BKD_ALM_CTL_WAKE [] then (s.setFlag Reg.BKD_STAT_ON [] true).showPon else s
  let s := s.bkdNotice 0 0 s.bkd.alarm 0
  if late then s.bkdNotice 1 0 s.bkd.alarm 0 else s

/-- The alarm is judged against the clock: on reaching its value it fires, beyond it it fires late. -/
def State.judgeAlarm (s : State) : State :=
  if s.flag Reg.BKD_ALM_CTL_ARMED [] then
    if s.bkdSec = s.bkd.alarm then s.fireAlarm false else if s.bkd.alarm < s.bkdSec then s.fireAlarm true else s
  else s

/-- An adjustment (R494, R495, R498): OSF becomes 0. -/
def State.adjustBkd (s : State) (v : Nat) : State := ((s.putBkdSec v true).setFlag Reg.BKD_STAT_OSF [] false).judgeAlarm

/-- A pending commit takes the place of the increment (R494). -/
def State.commitBkd (s : State) : State := ((s.adjustBkd s.bkdSet).wr Reg.BKD_SET_COMMIT_STATUS [] 2).bkdNotice 3 0 2 0

/-- The row BKD_SECOND_TICK (R492). -/
def execBkdSecondTick (t : Time) (s : State) : Res :=
  let s := s.advance t
  .next (if s.rd Reg.BKD_SET_COMMIT_STATUS [] = 1 then s.commitBkd else (s.putBkdSec (s.bkdSec + 1) true).judgeAlarm)

/-- The row BKD_COMMIT_APPLY (R494). -/
def execBkdCommitApply (t : Time) (s : State) : Res :=
  let s := s.advance t
  .next (if s.rd Reg.BKD_SET_COMMIT_STATUS [] = 1 then s.commitBkd else s)

/-- A write of BKD_SET_COMMIT (R494): refused while a time domain is locked; ignored while one is pending. -/
def State.bkdCommitWrite (s : State) (w : Word) : State :=
  if Reg.BKD_SET_COMMIT_GO.get w = 0 ∨ s.rd Reg.BKD_SET_COMMIT_STATUS [] = 1 then s
  else if s.domLocked 0 || s.domLocked 1 then
    ((s.logRefused (Reg.BKD_SET_COMMIT_GO.off []) w.toNat).wr Reg.BKD_SET_COMMIT_STATUS [] 3).bkdNotice 3 0 3 0
  else s.wr Reg.BKD_SET_COMMIT_STATUS [] 1

/-- The row BKD_COMMIT. -/
def execBkdCommit (w : Word) (s : State) : Res :=
  .next (s.hostGate (Reg.BKD_SET_COMMIT_GO.off []) w fun a => a.bkdCommitWrite w)

/-- The shadow of the clock group, frozen now if none is held or `fresh` (R493). -/
def State.bkdFreeze (s : State) (fresh : Bool) : (Nat × Nat) × State :=
  let live := (s.bkdSec, s.bkdSub)
  let held : State := { s with bkd := { s.bkd with shadow := some live } }
  match s.bkd.shadow with
  | some v => if fresh then (live, held) else (v, s)
  | none => (live, held)

/-- The row BKD_SEC_FREEZE (R493). -/
def execBkdSecFreeze (s : State) : Res :=
  .next (s.hostRead 0x30010 fun s => let (v, s) := s.bkdFreeze true; s.answer (v.1 % 2 ^ 32))

/-- The row BKD_SEC_WORD_READ (R493). -/
def execBkdSecWordRead (s : State) : Res :=
  .next (s.hostRead 0x30014 fun s => let (v, s) := s.bkdFreeze false; s.answer (v.1 / 2 ^ 32 % 2 ^ 16))

/-- The row BKD_SEC_RELEASE (R493). -/
def execBkdSecRelease (s : State) : Res :=
  .next (s.hostRead 0x30018 fun s =>
    let (v, s) := s.bkdFreeze false
    ({ s with bkd := { s.bkd with shadow := none } } : State).answer v.2)

/-- The row BACKUP_CLOCK_WRITE (R82, R494). The 1,000 s count in device time, and a step does not move them (log entry 127, DESIGN
CHOICE). -/
def execBackupClockWrite (t : Time) (s : State) : Res :=
  let s := s.advance t
  -- at a second boundary, 1,000 s after the last write
  let due := t % second == 0 && (match s.tb.bkdAt with | some u => decide (u + 1000 * second ≤ s.now) | none => true)
  .next (if s.powered ∧ (s.domLocked 0 || s.domLocked 1) = true ∧ due = true then
    let s : State := { s with tb := { s.tb with bkdAt := some s.now } }
    let err := ((s.bkdSec * 32768 + s.bkdSub : Nat) : Int) - (s.now * 32768 / second : Nat)
    (s.wr Reg.BKD_ERR_ERR [] (satSigned 32 err)).adjustBkd (secOf s.now % 2 ^ 48)
  else s)

/-! ### Arming (R498, R504) -/

/-- A write of BKD_ALM_CTL: WAKE, the W1C bits, DISARM, then ARM. -/
def State.almCtl (s : State) (w : Word) : State :=
  let off := Reg.BKD_ALM_CTL_ARM.off []
  let s := s.store off (w &&& 0x7FFFFFFD#32)
  let s := if w.getLsbD 1 then s.setFlag Reg.BKD_ALM_CTL_ARMED [] false else s
  if w.getLsbD 31 then
    let s : State := { s with bkd := { s.bkd with alarm := s.bkdAlm } }
    let s := s.setFlag Reg.BKD_ALM_CTL_ARMED [] true
    if s.bkd.alarm ≤ s.bkdSec then s.fireAlarm true else s
  else s

/-- The row ALARM_ARM (R498). -/
def execAlarmArm (w : Word) (s : State) : Res := .next (s.hostGate (Reg.BKD_ALM_CTL_ARM.off []) w fun s => s.almCtl w)
/-- The row ALARM_DISARM (R504). -/
def execAlarmDisarm (w : Word) (s : State) : Res := .next (s.hostGate (Reg.BKD_ALM_CTL_DISARM.off []) w fun s => s.almCtl w)

/-! ### Compensation (R496, R497) -/

/-- N of a window at a temperature in sQ8.8 (R496). -/
def State.tcN (s : State) (temp : Nat) : Int :=
  let dt := toSigned 16 temp - toSigned 16 (s.rd Reg.BKD_TC2_T0 [])
  let c := (s.rd Reg.BKD_TC_K [] : Int) * dt * dt - toSigned 16 (s.rd Reg.BKD_TC2_OFS_PPB []) * 2 ^ 24
  roundDivI (c * 2 ^ 20) (10 ^ 9 * 2 ^ 24)

/-- The row TC_WINDOW (R496); MODE 3 is treated as 1. -/
def execTcWindow (temp : Word) (s : State) : Res :=
  .next (if s.rd Reg.BKD_TC_MODE [] % 2 = 1 then
    (s.wr Reg.BKD_STAT_TEMP [] temp.toNat).wr Reg.BKD_CORR_N [] (ofSigned 16 (s.tcN temp.toNat))
  else s)

/-- The row TRIM_WINDOW (R497): the window is 2 × CAL cycles shorter, which BKD_CORR shows. -/
def execTrimWindow (s : State) : Res :=
  .next (if s.rd Reg.BKD_TC_MODE [] = 2 then s.wr Reg.BKD_CORR_N [] (ofSigned 16 (2 * toSigned 8 (s.rd Reg.BKD_TRIM_CAL []))) else s)

/-! ### Supply, oscillator and PON (R491, R495, R499) -/

/-- An OFF write (R499): with the right KEY the ON latch clears 10 ms later. -/
def State.ponOffWrite (s : State) (w : Word) : State :=
  if w.getLsbD 8 = false ∨ w.toNat % 256 ≠ 0xA5 then s
  else
    let s := (s.store (Reg.BKD_PON_OFF.off []) (w &&& 0xFFFFFE00#32)).showPon
    ({ s with bkd := { s.bkd with offAt := some s.now } } : State).bkdNotice 5 0 0 0

/-- The row PON_OFF. -/
def execPonOff (w : Word) (s : State) : Res := .next (s.hostGate (Reg.BKD_PON_OFF.off []) w fun a => a.ponOffWrite w)

/-- The row PON_OFF_APPLY (R499). -/
def execPonOffApply (t : Time) (s : State) : Res :=
  let s := s.advance t
  .next (match s.bkd.offAt with
  | some u => if s.now < u + 10 * msU then s else ((({ s with bkd := { s.bkd with offAt := none } } : State).setFlag Reg.BKD_STAT_ON [] false)).showPon
  | none => s)

/-- The row OSC_STOP (R495). -/
def execOscStop (t : Time) (s : State) : Res :=
  let s := s.advance t
  .next (if s.flag Reg.BKD_STAT_OSF [] then s
    else
      let s := s.setFlag Reg.BKD_STAT_OSF [] true
      -- in BACKUP the next cold start finds OSF and sets its notice (R495)
      if s.powered then s.notice bBKD 2 0 0 0 else s)

/-- The row VBAT_LOW_CHANGE (R491). -/
def execVbatLowChange (low : Bool) (s : State) : Res :=
  let was := s.flag Reg.BKD_STAT_VBAT_LOW []
  let s := s.setFlag Reg.BKD_STAT_VBAT_LOW [] low
  .next (if low && !was then s.bkdNotice 4 0 1 0 else s)

/-- Put the fields of some reset kinds at their reset values (R13). -/
def State.resetKinds (s : State) (p : RKind → Bool) : State :=
  forEach (s.regs.map (·.1)) (fun off a =>
    a.setWord off ((fieldsAt off).foldl (fun w f => if p f.kind then f.put w f.reset else w) (a.word off))) s

/-- The row BACKUP_DOMAIN_POWERED (R495, R499, R507): every field of the backup domain takes its reset value, with OSF, the ON
latch and PON 1. -/
def execBackupDomainPowered (t : Time) (s : State) : Res :=
  let s := s.advance t
  .next (if s.powered then s else { s.resetKinds (· == .b) with bkd := { BkdSt.reset with tickAt := s.now } })

end Sys2Proof.Machine
end

