-- ==== Sys2Proof/Machine/Def.lean ====
section
/-! DEFINITION. Source localisation by dissipating energy (R259 to R263): the target frequency, the branches' history, and at
each epoch the flows, ranks and bus list. -/
namespace Sys2Proof.Machine

/-- What a branch's chain takes before the first good instant: unstated (log entry 12). -/
def brFirst (b : Nat) : Word × Word × Word × Word :=
  (Config.heldFirst (8192 + 4 * b), Config.heldFirst (8193 + 4 * b), Config.heldFirst (8194 + 4 * b), Config.heldFirst (8195 + 4 * b))

def br0 : BrSt := ⟨[], none, []⟩

/-- A branch's four quantities from a letter (R261): P, Q, θ and ln|V|. -/
def State.brValue (s : State) (b : Nat) (ls : List Letter) (prev : Option Word) : BrSample :=
  match letterOf ls (s.rd Reg.BR_SID [b]) with
  | none => none
  | some l =>
    let v := phasorAt l (s.rd Reg.BR_V_IDX [b])
    let i := phasorAt l (s.rd Reg.BR_I_IDX [b])
    let i := if s.flag Reg.BR_INVERT [b] then (F32.neg i.1, F32.neg i.2) else i
    if statOk s.useTest l && finite2 v && finite2 i then
      let z := mulConj v i
      let k := if s.flag Reg.BR_MULT3 [b] then F32.ofInt 3 else F32.one
      let a := angleF v.1 v.2
      some (F32.mul k z.1, F32.mul k z.2, (prev.map fun p => unwrapTo p a).getD a, logF (cabs v))
    else none

/-- The branches that the feeding Round serves. -/
def State.branches (s : State) : List Nat :=
  (List.range 2048).filter s.brOk

/-- One instant into a branch's delay line; a missing one holds the last good values. -/
def brPush (b : Nat) (k : BrSt) (v : BrSample) (len : Nat) : BrSt :=
  { k with line := ((v.isSome, v.getD (k.last.getD (brFirst b))) :: k.line).take len, last := v <|> k.last }

/-- The samples of history that a branch keeps: those of the longest window, 8 periods of 0.01 Hz (R243, R261). -/
def brDepth : Nat := 20000

/-- One decimated sample of a branch (R238, R261), present where its last instant was. -/
def brSample (r j : Nat) (k : BrSt) : BrSt :=
  let out (f : Word × Word × Word × Word → Word) : Word := firOut r j (k.line.map fun x => f x.2)
  let x := (out (·.1), out (·.2.1), out (·.2.2.1), out (·.2.2.2))
  { k with hist := ((k.line.headD (false, x)).1, x) :: k.hist.take (brDepth - 1) }

/-! ### The target (R260) -/

/-- The automatic target: the active line of largest AMP / norm, with its group, its number and its START. -/
def State.autoLine (s : State) : Option (Word × Nat × Nat × Nat) :=
  let all := s.grpsOn.flatMap fun g =>
    let v := s.grp g
    v.lines.zipIdx.filterMap fun t => t.1.map fun l =>
      let c := v.seats.getD l.pos 0
      (F32.div l.amp (chainNorm (grpChain v c) (s.chNorm c)), l.freq, g, t.2, l.start)
  (all.foldl (fun (a : Option (Word × Word × Nat × Nat × Nat)) x => match a with
    | none => some x | some y => if F32.lt y.1 x.1 then some x else a) none).map (·.2)

/-- The frequency that OSC_DEF_CTL asks for, and what names its target. -/
def State.defWant (s : State) : Option (Word × Option (Nat × Nat × Nat)) :=
  let m := s.rd Reg.OSC_DEF_CTL_MODE []
  if m = 1 then s.autoLine.map fun x => (x.1, some x.2)
  else if m = 2 then
    let f := BitVec.ofNat 32 (s.rd Reg.OSC_DEF_FREQ_F [])
    some (F32.max (F32.ofRat 1 10) (F32.min (F32.ofInt 5) f), none)
  else if m = 3 then
    let g := s.rd Reg.OSC_DEF_CTL_GROUP []
    let k := s.rd Reg.OSC_DEF_CTL_SLOT []
    (((s.grp g).slots.getD k none)).map fun x => (x.freq, some (g, 4 + k, x.firstSec))
  else none

/-- Is the target line or slot still there? -/
def State.defStands (s : State) (t : Option (Nat × Nat × Nat)) : Bool :=
  match t with
  | none => true
  | some (g, k, since) =>
    let v := s.grp g
    s.grpsOn.contains g &&
      (if k < 4 then (match v.lines.getD k none with | some l => l.start == since | none => false)
       else match v.slots.getD (k - 4) none with | some m => m.firstSec == since | none => false)

/-- The computation restarts at a sample (R260). -/
def State.defRestart (s : State) (j : Nat) (w : Option (Word × Option (Nat × Nat × Nat))) : State :=
  let s : State := { s with osc := { s.osc with defF := w.map (·.1), defTarget := w.bind (·.2), defStart := j } }
  s.clearDef.wr Reg.OSC_DEF_STAT_EPOCHS [] 0

/-- Settle the target at an epoch: it restarts when f_d changes by more than 1 bin, or when the line or slot it followed is gone. -/
def State.defTargetAt (s : State) (j : Nat) : State :=
  let w := s.defWant
  let s := match w, s.osc.defF with
    | some x, some f =>
      if s.defStands s.osc.defTarget && nearBins f x.1 1 1 then { s with osc := { s.osc with defF := some x.1, defTarget := x.2 } }
      else s.defRestart j w
    | none, none => s
    | _, _ => s.defRestart j w
  s.wr Reg.OSC_DEF_STAT_SRC [] (s.rd Reg.OSC_DEF_CTL_MODE []) |>.wr Reg.OSC_DEF_FNOW_F [] (s.osc.defF.getD F32.zero).toNat

/-! ### The window (R261, R262) -/

/-- 25 × T_w, the window in samples: the least whole number of periods that WIN_S and 8 periods ask for. -/
def State.defSpan (s : State) (f : Word) : Word :=
  let win := F32.ofInt (clampN 10 255 (s.rd Reg.OSC_DEF_CTL_WIN_S []))
  let t := F32.max win (F32.div (F32.ofInt 8) f)
  let periods := -((-(F32.toScaled (F32.mul t f) (2 ^ 20))) / (2 ^ 20 : Int))
  F32.div (F32.ofInt (25 * periods)) f

/-- N_w, the window's samples. -/
def State.defWindow (s : State) (f : Word) : Nat := (F32.toScaled (s.defSpan f) 1).toNat

/-- The window has filled: T_w has passed since the computation restarted. -/
def State.defFilled (s : State) (f : Word) (j : Nat) : Bool :=
  decide (F32.toScaled (s.defSpan f) (2 ^ 10) ≤ ((j - s.osc.defStart : Nat) : Int) * 2 ^ 10)

/-- A coefficient of R261 over the present samples: times in samples, oldest first. -/
def coef (omega : Word) (xs : List (Nat × Word)) : Word × Word :=
  let m := meanF (xs.map (·.2))
  let d := xs.map fun x => F32.sub x.2 m
  let ang := xs.map fun x => F32.mul omega (F32.mul (F32.ofInt x.1) (F32.ofRat 4 100))
  let k := F32.div (F32.ofInt 2) (F32.ofInt xs.length)
  (F32.mul k (dotF d (ang.map cosF)), F32.neg (F32.mul k (dotF d (ang.map sinF))))

/-- A branch's flow and PAMP; none where fewer than 90 % of the window's samples are present. -/
def brFlow (f : Word) (nw : Nat) (hist : List (Bool × (Word × Word × Word × Word))) : Option (Word × Word) :=
  let xs := ((hist.take nw).reverse.zipIdx).filter fun t => t.1.1
  if xs.length * 10 < 9 * nw then none
  else
    let w := F32.mul twoPi32 f
    let c (g : Word × Word × Word × Word → Word) := coef w (xs.map fun t => (t.2, g t.1.2))
    let p := c (·.1)
    let a := mulConj p (c (·.2.2.1))
    let b := mulConj (c (·.2.1)) (c (·.2.2.2))
    some (F32.mul (F32.div w (F32.ofInt 2)) (F32.add a.2 b.2), F32.mul (F32.ofInt 2) (cabs p))

/-- NET of a label over the valid branches (R262). -/
def State.busNet (s : State) (fl : List (Nat × Word × Word)) (label : Nat) : Word :=
  F32.sub (sumF ((fl.filter fun x => s.rd Reg.BR_FROM_BUS [x.1] == label).map (·.2.1)))
    (sumF ((fl.filter fun x => s.rd Reg.BR_TO_BUS [x.1] == label).map (·.2.1)))

/-- The first labels by NET, descending, the lower label first among equals. -/
def State.busList (s : State) (fl : List (Nat × Word × Word)) : List (Nat × Word) :=
  let labels := (fl.flatMap fun x => [s.rd Reg.BR_FROM_BUS [x.1], s.rd Reg.BR_TO_BUS [x.1]]).eraseDups
  let before (a b : Nat × Word) : Bool := F32.lt b.2 a.2 || (F32.feq a.2 b.2 && decide (a.1 < b.1))
  (sortBy before (labels.map fun l => (l, s.busNet fl l))).take 16

/-- Write the results of an epoch. -/
def State.defWrite (s : State) (fl : List (Nat × Word × Word)) : State :=
  let ep := s.rd Reg.OSC_DEF_STAT_EPOCHS []
  let ranked := sortBy (fun (a b : Nat × Word × Word) => F32.lt b.2.1 a.2.1 || (F32.feq a.2.1 b.2.1 && decide (a.1 < b.1))) fl
  let s := s.clearDef
  let s := forEach ranked.zipIdx (fun t a =>
    let b := t.1.1
    a.wr Reg.BRRES_DEF [b] t.1.2.1.toNat |>.wr Reg.BRRES_PAMP [b] t.1.2.2.toNat |>.wr Reg.BRRES_RANK [b] (t.2 + 1)
      |>.setFlag Reg.BRRES_RVALID [b] true |>.wr Reg.BRRES_EPOCHS [b] ep) s
  let bl := s.busList fl
  let s := forEach bl.zipIdx (fun t a =>
    (a.setFlag Reg.BUS_VALID [t.2] true).wr Reg.BUS_LABEL [t.2] t.1.1 |>.wr Reg.BUS_NET [t.2] t.1.2.toNat) s
  let s := s.setFlag Reg.OSC_DEF_STAT_VALID [] true |>.wr Reg.OSC_DEF_TOP_BUS [] ((bl.headD (0, F32.zero)).1)
    |>.wr Reg.OSC_DEF_TOP_VALID_BR [] fl.length
  s.notice bOSC 8 0 0 0

/-- An epoch of the computation, with the samples before sample `j`. -/
def State.defEpochRun (s : State) (j : Nat) : State :=
  let s := s.defTargetAt j
  match s.osc.defF with
  | none => s
  | some f =>
    let s := if s.osc.defStart = j then s else s.incSat Reg.OSC_DEF_STAT_EPOCHS []
    let nw := s.defWindow f
    if !s.defFilled f j then s
    else s.defWrite (s.osc.brs.filterMap fun b => (brFlow f nw b.2.hist).map fun x => (b.1, x.1, x.2))

/-- At an epoch after a write of MODE, GROUP or SLOT, checks 1 and 4 are made again (R263): what they find stands until a passing
value is written. A definition that failed check 2 or 3 stays failed. -/
def State.defRecheck (s : State) : State :=
  if !s.osc.defDue then s
  else
    let s : State := { s with osc := { s.osc with defDue := false } }
    let was := s.rd Reg.OSC_DEF_STAT_CFGERR []
    if was = 2 ∨ was = 3 then s
    else s.defJudge (if s.rd Reg.OSC_DEF_CTL_MODE [] = 0 then 0 else s.defChecks false)

/-- MODE 0 has taken effect: no history is kept (R260). -/
def State.defOff (s : State) (j : Nat) : State :=
  let s := s.defTargetAt j
  { s with osc := { s.osc with brs := [], defN := none, defJ := none } }

/-- The epoch that a decimated sample of the branches passes. -/
def State.defPass (s : State) (j : Nat) : State :=
  let s := s.defRecheck
  if s.rd Reg.OSC_DEF_CTL_MODE [] = 0 then s.defOff j
  else if s.rd Reg.OSC_DEF_STAT_CFGERR [] = 0 then s.defEpochRun j else s

/-- One decimated sample of every branch, after the epoch that it passes. -/
def State.defSample (s : State) (r j : Nat) : State :=
  let e := epochOf j
  let s := if s.osc.defJ.isSome ∧ s.osc.defEpoch < e then s.defPass j else s
  let off := s.rd Reg.OSC_DEF_CTL_MODE [] = 0 ∧ s.osc.defJ.isNone
  { s with osc := { s.osc with brs := s.osc.brs.map (fun b => (b.1, brSample (s.rndFps r) j b.2))
                               defJ := if off then none else some j, defEpoch := max e s.osc.defEpoch } }

/-- One instant of the branches' Round into the delay lines. -/
def State.defPush (s : State) (r : Nat) (ls : List Letter) : State :=
  let brs := s.branches.map fun b =>
    let k := sget s.osc.brs b br0
    (b, brPush b k (if s.fed r (s.rd Reg.BR_SID [b]) then s.brValue b ls (k.last.map (·.2.2.1)) else none) (lineLen (s.rndFps r)))
  { s with osc := { s.osc with brs := brs } }

/-- One item of the computation (R261). While the definition fails its checks, no history is kept (R263). -/
def State.defItem (s : State) (r n : Nat) (ls : List Letter) : State :=
  let ms := instantsSince s.osc.defN n
  forEach ms (fun m a =>
    let a := if a.rd Reg.OSC_DEF_STAT_CFGERR [] = 0 ∧ (a.osc.defDue ∨ a.rd Reg.OSC_DEF_CTL_MODE [] ≠ 0) then a.defPush r (if m = n then ls else []) else a
    let a : State := { a with osc := { a.osc with defN := some m } }
    match sampleOf (a.rndFps r) m with
    | some j => a.defSample r j
    | none => a) s

def execDefUpdate (t : Time) (s : State) : Res :=
  let s := s.advance t
  match s.nextRun 0x5C10 (fun w => match w with | .defUpd _ _ _ _ => true | _ => false) with
  | some i =>
    (match i.work with
     | .defUpd r n ls _ => .next (if i.serving then (s.defItem r n ls).markRan i.key else s)
     | _ => .next s)
  | none => .next s

end Sys2Proof.Machine
end

