-- ==== Sys2Proof/Machine/SofRows.lean ====
section
/-! DEFINITION. The rows of the Sorting Office (R181 to R201, R216, R220, R223) and of sorter power (R16 to R24, R601): items that
end, are stolen, expire or run too long, host cancels, housekeeping, and wakes. -/
namespace Sys2Proof.Machine

/-! ### Items (R188 to R195) -/

/-- Is a sorter one of those woken for run entry (R39)? -/
def State.wakesFor (s : State) (n : Nat) : Bool := s.glb.runWake && s.sof.active.contains n

/-- A sorter that finished something goes to Off if the device processes no streams and it serves no letterbox, or if placement
has left it outside the active set with no homed flows (R21). -/
def State.sorterRest (s : State) (n : Nat) : State :=
  if s.busy n then s
  else if s.processing then (if s.surplus n then s.sorterOff n else s)
  else if s.wakesFor n then s
  else if s.sof.items.any (fun i => i.srt == n && i.work.letterboxWork) || s.srtState n == 3 || n == s.unfenced.headD 64 then s
  else s.sorterOff n

/-- An item completes (R191): its output, its slot, the sorter's row, and the next item. -/
def State.finishItem (s : State) (i : Item) (n cycles : Nat) : State :=
  let s := (s.completeItem i).traceEv 3 i.cls n i.flow 0 (traceSeq i.work i.slot)
  let s := (s.bump64 Reg.SRT_ITEMS [n] 1).chargeSorter n i.flow cycles
  ((s.moveQuiet i.flow).sorterNext n true).kick.sorterRest n

def execItemEnd (srt : Fin 64) (t : Time) (cycles : Nat) (s : State) : Res :=
  let s := s.advance t
  match s.inService srt with
  | none => .next s
  | some i => .next (if i.finished then s.finishItem i srt cycles else s)

def execItemStealable (thief : Fin 64) (t : Time) (s : State) : Res := .next ((s.advance t).sorterNext thief true)

def execItemExpiry (item : Nat) (t : Time) (s : State) : Res :=
  let s := s.advance t
  match s.sof.items.find? fun i => i.key == item with
  | none => .next s
  | some i =>
    if i.serving ∨ i.cls ≠ 2 ∨ (s.expiresAt i).all (fun u => decide (s.now < u)) then .next s
    else .next (s.expireItem i).kick

/-- Whether a sorter owes the known-answer test. -/
def State.setKat (s : State) (n : Nat) (b : Bool) : State := s.setSrtHid n { s.srtHid n with kat := b }

/-- The sorter that stopped an item runs the known-answer test at once (R193, R432): a failure fences it. -/
def State.katOutcome (s : State) (n : Nat) (pass : Bool) : State :=
  let s := s.setKat n false
  if pass then s.sorterNext n true else s.fence n

/-- An item in service exceeds ITEM_MAX (R193): its results are discarded, and its sorter takes no new work before the test. -/
def State.timeLimit (s : State) (i : Item) (n : Nat) (pass : Bool) : State :=
  let s := (s.notice bSOF 2 i.flow n 0).setKat n true
  let s := if i.work.isMachine then s.reissue i n else s.cancelItem i 0x1B
  (s.katOutcome n pass).kick

/-- SOF_CTL.ITEM_MAX as a time (R223). -/
def State.itemMax (s : State) : Time := max 2 (s.rd Reg.SOF_CTL_ITEM_MAX []) * 10 * usU

def execItemTimeLimit (srt : Fin 64) (katPass : Bool) (t : Time) (s : State) : Res :=
  let s := s.advance t
  match s.inService srt with
  | none => .next s
  | some i => .next (if i.ran ∨ s.now < i.since + s.itemMax then s else s.timeLimit i srt katPass)

/-- Does a host cancel of a flow take an item (R193, R195)? Every waiting one, and one that starts at this moment (log entry 55). -/
def State.hostTakes (s : State) (flow : Nat) (i : Item) : Bool :=
  i.flow == flow && (!i.serving || (i.since == s.now && !i.ran))

/-- A write of SOF_CANCEL (R193, R223). An item that expires at the same moment counts as expired (R195). -/
def State.cancelWrite (s : State) (w : Word) : State :=
  let flow := w.toNat % 65536
  if !w.getLsbD 31 then s
  else if !flowUsed flow || isAlarmFlow flow then (s.wr Reg.SOF_CANCEL_STATUS [] 2).notice bSOF 6 flow 2 0
  else
    let s := forEach (s.sof.items.filter (s.hostTakes flow)) (fun i a =>
      if s.expired i then a.expireItem { i with serving := false } else a.cancelItem { i with serving := false } 0x1C) s
    (s.wr Reg.SOF_CANCEL_STATUS [] 1).notice bSOF 6 flow 1 0 |>.kick

def execHostCancel (w : Word) (s : State) : Res := .next (s.hostGate (Reg.SOF_CANCEL_GO.off []) w fun a => a.cancelWrite w)

/-- The flow of a housekeeping item (R182). -/
def hkFlow (n : Nat) : Nat := 0x5C40 + n % 0xC0

/-- The clustering of a whole second (R279): due once, from the first dispatch of the islanding Round with t_k at or after that second
on, and skipped while the previous one has not completed. -/
def State.clusterDue (s : State) : State :=
  let st := s.rd Reg.ISL_STAT_STATE []
  if (st ≠ 1 ∧ st ≠ 2) ∨ secOf s.isl.lastTk ≤ s.isl.clustSec then s
  else
  let s : State := { s with isl := { s.isl with clustSec := secOf s.isl.lastTk } }
  if s.sof.items.any fun i => i.flow == 0x5002 then s.inc Reg.ISL_CLUST_SKIPPED []
  else s.enqueueC3 0x5002 .clustering

def execHousekeepingTimer (kind : HkKind) (t : Time) (s : State) : Res :=
  let s := s.advance t
  if !s.processing || !s.hkRoom then .next s
  else match kind with
    | .clustering => .next s.clusterDue
    | .kat n => .next (if s.srtState n != 0 then s else s.enqueueC3 0x5C20 (.kat n))
    | .other n => .next (s.enqueueC3 (hkFlow n) (.housekeep n))

/-! ### Sorter power (R20 to R24, R601) -/

/-- The latest state between bursts that PWR_SRT_POLICY.DEEPEST allows (R48): 0 Run, 1 Nap, 2 Sleep. -/
def State.deepest (s : State) : Nat := min 2 (s.rd Reg.PWR_SRT_POLICY_DEEPEST [])

/-- The Rounds that bring work to a sorter: those whose own flow, a member stream, or an analysis group they feed is homed on it. -/
def State.roundsOn (s : State) (n : Nat) : List Nat :=
  s.rndsOn.filter fun r => s.rd Reg.PLC_RND_HOME [r] == n || (s.grpsOn.any fun g => s.agRnd g == r && s.rd Reg.PLC_AG_HOME [g] == n) ||
    (s.members r).any fun sid => s.ownHome sid == n

/-- The predicted first arrival of a Round that comes next (R163): t_k + FIRST of the earliest instant for which it is not past. -/
def State.nextArrival (s : State) (r : Nat) : Time :=
  let f := s.rndFps r
  let first := s.rd Reg.WHL_RND_FIRST_US [r] * 256000
  let k := instantOf (s.now - first) f
  let at_ (j : Nat) : Time := instantTime j f + first
  if s.now < at_ (k - 1) then at_ (k - 1) else if s.now < at_ k then at_ k else at_ (k + 1)

/-- The next burst predicted for a sorter's flows (R21, R163). -/
def State.nextBurst (s : State) (n : Nat) : Option Time :=
  ((s.roundsOn n).map s.nextArrival).foldl (fun (a : Option Time) t =>
    match a with | none => some t | some u => some (min t u)) none

/-- A sorter in Nap goes on to Sleep when the next burst is more than SLEEP_MIN away (R21). -/
def State.sleepIf (s : State) (n : Nat) : State :=
  let far := match s.nextBurst n with
    | none => true
    | some t => decide (max 1 (s.rd Reg.PWR_SRT_POLICY_SLEEP_MIN []) * 100 * nsU < t - s.now)
  if s.srtState n = 1 ∧ s.deepest = 2 ∧ (s.srtHid n).waking = none ∧ far = true then s.setSrtState n 2 else s

/-- Every sorter in Nap is judged again where what its next burst rests on may have changed: at a Round's instant, at a mailbag
boundary, and when the policy is written (log entry 52). -/
def State.sleepAll (s : State) : State :=
  if s.processing then forEach (List.range 64) (fun n a => a.sleepIf n) s else s

/-- Nothing waits in a sorter's pigeonholes and nothing is in service. -/
def State.emptyHoles (s : State) (n : Nat) : Bool := !(s.sof.items.any fun i => i.srt == n && (i.serving || i.ready.isSome))

def execNapEntry (srt : Fin 64) (t : Time) (s : State) : Res :=
  let s := s.advance t
  let n := srt.val
  let idle := decide (max 1 (s.rd Reg.PWR_SRT_POLICY_NAP_IDLE []) * 8 * usU ≤ (s.now - (s.srtHid n).idle) * s.sof.clk)
  if idle && s.processing && s.srtState n == 0 && (s.srtHid n).waking.isNone && s.emptyHoles n && decide (1 ≤ s.deepest) then .next ((s.setSrtState n 1).sleepIf n)
  else .next s

/-- LEAD of PWR_WAKE, held to 2,000 ns or more (R49). -/
def State.wakeLead (s : State) : Time := max 2000 (s.rd Reg.PWR_WAKE_LEAD []) * nsU

/-- The row SCHEDULED_WAKE (R22, R163): the home of a Round is woken LEAD before its predicted first arrival, and not earlier. -/
def execScheduledWake (rnd : Fin 64) (t : Time) (s : State) : Res :=
  let s := s.advance t
  let first := s.nextArrival rnd
  if s.processing && s.rndOn rnd && decide (first ≤ s.now + s.wakeLead) then .next (s.wake (s.home (0x4400 + rnd)) (some first))
  else .next s

/-- A waking sorter reaches Run (R20, R570): WAKE_LATE if a scheduled wake passed the predicted first arrival. -/
def State.wakeDone (s : State) (n : Nat) : State :=
  let h := s.srtHid n
  match h.waking with
  | none => s
  | some (_, _, sched) =>
    let s := ((s.setSrtState n 0).setSrtHid n { h with waking := none, idle := s.now }).inc Reg.SRT_WAKES [n]
    let s := match sched with | some f => if f < s.now then s.notice bPWR 4 n 0 0 else s | none => s
    s.sorterNext n true

def execSorterWakeDone (srt : Fin 64) (t : Time) (s : State) : Res :=
  let s := s.advance t
  match (s.srtHid srt).waking with
  | some (since, left, _) => .next (if since + wakeTime left ≤ s.now then s.wakeDone srt else s)
  | none => .next s

def execOffEntry (srt : Fin 64) (t : Time) (s : State) : Res :=
  let s := s.advance t
  if !s.processing && !s.wakesFor srt && s.emptyHoles srt && s.srtState srt != 3 && decide ((s.srtHid srt).idle + msU ≤ s.now) then .next (s.sorterOff srt) else .next s

/-! ### Faults of sorters and SRAM (R16, R33) -/

def execSequencerFault (srt : Fin 64) (t : Time) (s : State) : Res :=
  let s := s.advance t
  .next (if s.mode = .backup then s else s.fence srt)

/-! ### Statistics that a write clears (R220, R223) -/

def execMaxWaitClear (srt : Fin 64) (w : Word) (s : State) : Res :=
  .next (s.hostGate (Reg.SRT_MAX_WAIT.off [srt.val]) w fun a => a.wr Reg.SRT_MAX_WAIT [srt.val] 0)

def execClsHighClear (c : Fin 4) (w : Word) (s : State) : Res :=
  .next (s.hostGate (Reg.SOF_CLS_HIGH_HIGH.off [c.val]) w fun a => a.wr Reg.SOF_CLS_HIGH_HIGH [c.val] 0)

end Sys2Proof.Machine
end

