-- ==== Sys2Proof/Machine/Dispatching.lean ====
section
/-! DEFINITION. Mailbags on their way out (R144, R148 to R166, R172 to R174, R190 to R192, R413, R414): filing, instants, deadlines, dispatch
with the work it spawns, following the active unit's dispatches, RND0 boundaries, and command frames to Rounds. -/
namespace Sys2Proof.Machine

/-! ### Composing a mailbag (R157, R159, R165) -/

/-- A mailbag as it is dispatched: instant count and time, close, cause (0 quorum, 1 deadline), deadline, clamp, QUORUM_AT,
sequence number, present letters by rising SID, addenda. -/
structure Bagged where
  n : Nat
  tk : Time
  close : Time
  cause : Nat
  dk : Nat
  clamp : Bool
  qat : Nat
  seq : Nat
  ls : List Letter
  adds : List Letter

/-- The copy of a filed letter that goes into a mailbag: FLAGS[6] is DUP_SEEN. -/
def WSlot.copy (w : WSlot) : Letter := { w.letter with flags := w.letter.flags + bitN w.dup 6 }

/-- The addenda that go with a mailbag: those of members (R159), with DUP_SEEN where a duplicate came meanwhile (R165). -/
def State.takeAdds (s : State) (r : Nat) : State × List Letter :=
  let st := s.rndSt r
  let seen (l : Letter) : Bool := s.whl.wheel.any fun w => w.sid == l.sid && w.tag == l.sec * fps l.rate + l.k && w.dup
  (s.setRnd r { st with adds := [] }, (st.adds.filter fun l => s.isMember r l.sid).map fun l =>
    if seen l && l.flags / 64 % 2 == 0 then { l with flags := l.flags + 64 } else l)

/-- The members' letters of a mailbag that are stamped outside its close, in the order of filing (R159, R165). -/
def State.lateSlots (s : State) (r n : Nat) (close : Time × Bool) : List WSlot :=
  s.whl.wheel.filter fun w => s.isMember r w.sid && s.gridInstant r w.sid w.tag == some n && !inClose close w.letter.arr

/-- Count the letters of a mailbag that came after its close. -/
def State.countLates (s : State) (r n : Nat) (close : Time × Bool) : State :=
  forEach (s.lateSlots r n close) (fun w a => a.countLate r w.letter w.dup) s

/-- One member of a mailbag by this unit's own stamps: present, refused as off-grid, or absent. -/
def State.ownMember (s : State) (r n : Nat) (close : Time × Bool) (sid : Nat) : State × List Letter :=
  match s.memberLetter r sid n with
  | none => (s, [])
  | some w =>
    if !inClose close w.letter.arr then (s, [])
    else if s.flag Reg.WHL_RND_CTL_OFFGRID_DEAD [r] ∧ w.letter.flags / 0x800 % 2 = 1 then (s.deadLetter 0x13 w.letter, [])
    else (s, [w.copy])

/-- Compose the mailbag by this unit's own decision. Letters late for it are addenda of the next one. -/
def State.composeOwn (s : State) (r : Nat) (b : Mailbag) (c : Time × Bool) : State × Bagged :=
  let (s, adds) := s.takeAdds r
  let s := s.countLates r b.n c
  let (s, ls) := (s.members r).foldl (fun (a : State × List Letter) sid =>
    let (s, l) := a.1.ownMember r b.n c sid
    (s, a.2 ++ l)) (s, [])
  let qat := if c.2 then min (2 ^ 32 - 1) (roundDiv ((c.1 - b.tk) * 256) usU) else 2 ^ 32 - 1
  (s, ⟨b.n, b.tk, c.1, if c.2 then 0 else 1, b.dk, b.clamp, qat, (s.rndSt r).seq % 65536, ls, adds⟩)

/-! ### Presence (R150, R158, R180) -/

/-- An ineligible member: counted at every mailbag, noticed at its first after a commit or a descriptor change. -/
def State.countInelig (s : State) (r sid : Nat) : State :=
  let s := s.inc Reg.WHL_RND_INELIG [r]
  let st := s.rndSt r
  if st.inelig.contains sid then s
  else ((s.setRnd r { st with inelig := st.inelig ++ [sid] }).whlNotice r 3 sid 0).logEvent bWHL 4 r sid 0

/-- Absences of an essential member in a row; at ABSENT_RI it lapses, and it returns with a mailbag in which it is present. -/
def State.essential (s : State) (r sid : Nat) (here : Bool) : State :=
  let st := s.rndSt r
  if here then s.setRnd r { st with absent := serase st.absent sid, lapsed := st.lapsed.filter (· != sid) }
  else
    let k := sget st.absent sid 0 + 1
    let s := s.setRnd r { st with absent := sset st.absent sid k }
    if st.lapsed.contains sid || decide (k < max 1 (s.rd Reg.WHL_RND_QUO_ABSENT_RI [r])) then s
    else (s.setRnd r { s.rndSt r with lapsed := st.lapsed ++ [sid] }).whlNotice r 5 sid 0

/-- Presence of every member at a dispatch. -/
def State.presence (s : State) (r : Nat) (ls : List Letter) : State :=
  let ms := s.members r
  let s := forEach (ms.filter fun sid => !s.eligible r sid) (fun sid a => a.countInelig r sid) s
  let s := forEach (ms.filter fun sid => s.membCode Reg.WHL_MEMB_ACTIVE r sid == 2)
    (fun sid a => a.essential r sid (ls.any fun l => l.sid == sid)) s
  s.showMembers r

/-! ### The dispatch record (R164) -/

/-- The 64 bytes of a dispatch record. -/
def State.dispatchRec (s : State) (r : Nat) (x : Bagged) : List Byte :=
  let st := s.rndSt r
  let e := s.liveSet r
  let ms := (s.members r).length
  let rf := bitN (s.flag Reg.GLB_MODE_TEST []) 0 + bitN (!x.adds.isEmpty) 1 + bitN (s.rd Reg.WHL_RND_COMMIT_STATUS [r] == 1) 2 +
    bitN (s.flag Reg.GLB_MODE_DEG []) 3 + bitN x.clamp 4 + bitN e.isEmpty 5
  let c := leBytes 1 r ++ leBytes 1 x.cause ++ leBytes 2 rf ++ leBytes 8 (s.rndMark r x.n) ++
    leBytes 6 (secOf s.now) ++ leBytes 4 (nsOf s.now) ++ leBytes 2 x.seq ++ leBytes 4 x.dk ++ leBytes 4 x.qat ++
    leBytes 2 ms ++ leBytes 2 x.ls.length ++ leBytes 2 e.length ++ leBytes 2 (x.ls.filter fun l => e.contains l.sid).length ++
    leBytes 2 (x.ls.filter fun l => l.flags / 0x800 % 2 == 1).length ++ leBytes 2 x.adds.length ++ leBytes 2 (ms - x.ls.length) ++
    leBytes 2 (s.rd Reg.WHL_RND_STAT_CFGCNT [r]) ++ leBytes 4 st.lateN ++ leBytes 4 st.dupN ++ leBytes 4 (384 * (x.ls.length + x.adds.length))
  c ++ leBytes 4 (crc32c c)

/-- VDIG of the present letters (R411). -/
def vdigOf (ls : List Letter) : Nat := crc32c (ls.flatMap fun l => ((letterBytes l).take 0x178).drop 0x18)

/-- What a DISPATCH says beside the record (R411). -/
def plkOf (r : Nat) (x : Bagged) : PlkDispatch :=
  ⟨r, x.n, x.seq, x.cause, x.dk, x.qat, x.close, vdigOf x.ls, x.adds.map (fun l => (l.sid, (l.sec * fps l.rate + l.k) % 65536)), x.ls.map (·.sid)⟩

/-! ### What a dispatch spawns (R190, R233, R261, R277, R282, R294, R301) -/

/-- The machines that a Round's dispatch steps. -/
def State.machinesOf (s : State) (r : Nat) : List Nat := s.amListed.filter fun m => s.flag Reg.AMR_RUN [m] && s.rd Reg.AM_RND [m] == r

/-- Does a Round's dispatch feed islanding? -/
def State.feedsIsl (s : State) (r : Nat) : Bool :=
  r == s.islRnd && s.flag Reg.ISL_CTL_EN [] && (s.rd Reg.ISL_STAT_STATE [] == 1 || s.rd Reg.ISL_STAT_STATE [] == 2)

/-- Does a Round's dispatch feed source localisation? -/
def State.feedsDef (s : State) (r : Nat) : Bool :=
  s.rd Reg.OSC_DEF_CTL_RND [] == r && (s.rd Reg.OSC_DEF_CTL_MODE [] != 0 || s.osc.defJ.isSome)

/-- The analysis groups that a Round's dispatch feeds. -/
def State.groupsOf (s : State) (r : Nat) : List Nat := s.grpsOn.filter fun g => s.agRnd g == r

/-- Items of islanding: the tracker's and the separation test's. -/
def State.spawnIsl (s : State) (r : Nat) (x : Bagged) : State :=
  if !s.feedsIsl r then s
  else
    let s : State := { s with isl := { s.isl with lastTk := x.tk } }
    (s.enqueue 0x5001 2 (.coherency x.n x.ls x.tk) none (some x.tk)).enqueue 0x5000 2 (.separation x.n x.ls x.tk) none (some x.tk)

/-- The items of a mailbag: the Round's own, the machines' steps, the groups', source localisation's and islanding's. -/
def State.spawn (s : State) (r : Nat) (x : Bagged) : State :=
  let slot := some (r, x.seq)
  let s := s.enqueue (0x4400 + r) 2 (.derive_ r x.n x.ls) slot (some x.tk)
  let s := s.spawnIsl r x
  let s := forEach (s.machinesOf r) (fun m a => a.enqueue (0x4C00 + m) 0 (.machine m r x.n x.ls x.tk) slot none) s
  let s := forEach (s.groupsOf r) (fun g a => a.enqueue (0x4800 + g) 2 (.group g r x.n x.ls x.adds x.tk) none (some x.tk)) s
  if s.feedsDef r then s.enqueue 0x5C10 2 (.defUpd r x.n x.ls x.tk) none (some x.tk) else s

/-- The fan-out of a Round's dispatch, by class (R186, R187). The dispatch itself is class 1 work that a row of its own does. -/
def State.dspFan (s : State) (r : Nat) : Nat → Nat
  | 0 => (s.machinesOf r).length
  | 2 => 1 + (if s.feedsIsl r then 2 else 0) + (s.groupsOf r).length + (if s.feedsDef r then 1 else 0)
  | _ => 0

/-- Are the reservations of a dispatch granted (R187)? It has waited since its mailbag's close. -/
def State.dspRoom (s : State) (r : Nat) (close : Time) : Bool :=
  let first (c : Nat) : Bool := !(s.sof.items.any fun j => !j.serving && decide (j.enq < close) && j.work.fanOut c != 0) && !s.dspWaits close
  (List.range 4).all fun c => s.poolFits c (s.dspFan r c) (first c)

/-- Open the release slot of a dispatch, forcing the oldest of 64 (R191, R192). -/
def State.openSlot (s : State) (r : Nat) (x : Bagged) (rec_ : List Byte) : State :=
  let s := if 64 ≤ (s.rndSt r).slots.length then s.forceOldest r else s
  let st := s.rndSt r
  let ring := if s.flag Reg.WHL_RND_CTL_HOST [r] then some (rec_, (x.ls ++ x.adds).flatMap letterBytes) else none
  s.setRnd r { st with slots := st.slots ++ [⟨x.seq, x.n, s.now, 1 + (s.machinesOf r).length, 0, false, none, ring⟩] }

/-- Dispatch a composed mailbag: presence, record, counters, slot, work, and the frame to a standby (R156 to R166, R191, R411). -/
def State.dispatchBag (s : State) (r : Nat) (x : Bagged) : State :=
  let rec_ := s.dispatchRec r x
  let s := s.presence r x.ls
  let s := s.countDraws (s.escapes (s.dspFan r)) 1 (s.home (0x4400 + r)) (0x4400 + r) x.seq
  let st := s.rndSt r
  let s := s.setRnd r { st with bags := st.bags.filter (fun b => decide (x.n < b.n)), last := some x.n, lateN := 0, dupN := 0
                                seq := (x.seq + 1) % 65536
                                recs := ((x.n, rec_.take 48) :: st.recs).take 64
                                closes := ((x.n, x.close, x.cause == 0) :: st.closes).take 64
                                sent := if s.activeRole then ((x.seq, x.ls) :: st.sent).take 4 else [] }
  let s := s.inc Reg.WHL_RND_DISPATCHED [r]
  let s := if x.cause = 1 then s.inc Reg.WHL_RND_BY_DEADLINE [r] else s
  let lag := roundDiv (s.now - x.close) nsU
  let s := if s.rd Reg.WHL_RND_MAX_DSP [r] < lag then s.wr Reg.WHL_RND_MAX_DSP [r] (min lag (2 ^ 32 - 1)) else s
  let s := (s.openSlot r x rec_).spawn r x
  let s := s.capMailbag r x.n x.tk x.ls
  if s.activeRole then s.plkSend (.dispatch rec_ (s.members r) (plkOf r x)) else s

/-! ### Boundaries (R31, R124, R149, R152, R280) -/

/-- Senders that new rules no longer let in are retired (R124). -/
def State.retireDue (s : State) : State :=
  let xs := s.adm.retireAt
  let ks := s.adm.dropAt
  let s : State := { s with adm := { s.adm with retireAt := [], dropAt := [] } }
  let s := forEach xs (fun sid a => if 2 ≤ a.sidState sid then a.retire sid else a) s
  forEach (s.adm.senders.filter fun e => ks.contains e.key && e.sids.isEmpty) (fun e a => a.dropSender e) s

/-- What happens at an RND0 mailbag boundary in a mode that processes streams. -/
def State.rnd0Boundary (s : State) (n pm : Nat) : State :=
  let s : State := { s with strt := { s.strt with stall := s.now } }
  let s := s.mirrorBoundary pm
  let (s, moved) := s.roleBoundary n
  let s := s.restoreBoundary
  let s := if moved then s else s.requestBoundary
  let s := s.retireDue
  -- the clustering of a whole second is cued by this boundary if it is the islanding Round's (log entry 60)
  let s := if s.processing then s.placementBoundary (s.islRnd == 0 && n % s.rndFps 0 == 0) else s
  s.sendMap

/-- A mailbag boundary of a Round. -/
def State.boundary (s : State) (r n : Nat) (tk : Time) : State :=
  let pm := s.rndMark r n
  let s := s.layoutBoundary r
  let s := if r = s.islRnd then s.applyClustering tk pm else s
  (if r = 0 then s.rnd0Boundary n pm else s).sleepAll

/-- Dispatch by this unit's own decision. -/
def State.dispatchOwn (s : State) (r : Nat) (b : Mailbag) (c : Time × Bool) : State :=
  let (s, x) := s.composeOwn r b c
  (s.dispatchBag r x).boundary r x.n x.tk

/-- A letter stamped inside a mailbag's close still waits to be filed (R156). -/
def State.inFlightFor (s : State) (r : Nat) (b : Mailbag) (c : Time × Bool) : Bool :=
  let mine (l : Letter) : Bool := s.isMember r l.sid && s.gridInstant r l.sid (l.sec * s.sidFps l.sid + l.k) == some b.n && inClose c l.arr
  (s.sof.items.any fun i => !i.ran && (match i.work with | .file l _ => mine l | _ => false)) || s.sof.overflow.any fun x => mine x.letter

/-- The last stamps that the ways a letter may come have passed (R156): the enabled ports', local acquisition's while a local stream is
enabled (R334), and the pair link's (R413). -/
def State.passed (s : State) : List Time :=
  ((List.range 4).filter fun p => s.flag Reg.NET_PORT_CFG_EN [p]).map (fun p => (sget s.net.ports p port0).stamp) ++
    (if (List.range 8).any s.lsOn then [s.acq.stamp] else []) ++ (if s.flag Reg.PAIR_CFG_EN [] then [s.pair.stamp] else [])

/-- No port can still deliver a letter stamped by a close (R156): each has passed a later stamp, or has received nothing for 2 µs after the
close. -/
def State.portsPassed (s : State) (close : Time) : Bool := s.passed.all fun t => decide (close < t) || decide (close + 2 * usU ≤ s.now)

/-- In STANDBY a mailbag waits for the active unit's DISPATCH, until that unit is declared failed (R414, R426). -/
def State.follows (s : State) : Bool := s.holding && !s.pair.declared

def execDispatch (rnd : Fin 64) (t : Time) (s : State) : Res :=
  let s := s.advance t
  match (s.rndSt rnd).bags.head? with
  | some b =>
    match b.close with
    | some c => .next (if !s.processing || s.follows || !s.portsPassed c.1 || s.inFlightFor rnd b c || !s.dspRoom rnd c.1 then s
        else s.dispatchOwn rnd b c)
    | none => .next s
  | none => .next s

/-! ### Following (R413, R414) -/

/-- The mailbag a DISPATCH frame describes, from the letters this unit has, and the present members whose letter it lacks. -/
def State.composeFollow (s : State) (d : PlkDispatch) : Bagged × List Nat :=
  let r := d.rnd
  let got := d.present.filterMap fun sid => (s.memberLetter r sid d.n).map WSlot.copy
  let lack := d.present.filter fun sid => (s.memberLetter r sid d.n).isNone
  let adds := d.adds.filterMap fun a => (s.whl.wheel.find? fun w => w.sid == a.1 && w.tag % 65536 == a.2).map fun w =>
    { w.letter with flags := w.letter.flags + 128 + bitN w.dup 6 }
  let clamp := match (s.rndSt r).bags.find? fun b => b.n == d.n with | some b => b.clamp | none => false
  (⟨d.n, instantTime d.n (s.rndFps r), d.close, d.cause, d.deadline, clamp, d.quorumAt, d.seq, got, adds⟩, lack)

/-- The off-grid letters of a mailbag that the Round refuses are dead, once per Round (R157). -/
def State.countOffGrid (s : State) (r n : Nat) (close : Time × Bool) : State :=
  if s.flag Reg.WHL_RND_CTL_OFFGRID_DEAD [r] then
    forEach ((s.members r).filterMap fun sid => s.memberLetter r sid n) (fun w a =>
      if inClose close w.letter.arr ∧ w.letter.flags / 0x800 % 2 = 1 then a.deadLetter 0x13 w.letter else a) s
  else s

/-- Dispatch the mailbag that a follow describes, once its reservations are granted. Letters that this unit filed stamped after the
active unit's close are late (R159). -/
def State.followNow (s : State) (f : Follow) (x : Bagged) : State :=
  let r := f.d.rnd
  if !s.dspRoom r x.close then s else
  let s : State := { s with pair := { s.pair with follow := s.pair.follow.filter fun g => !(g.d.rnd == r && g.d.n == f.d.n) } }
  let s := s.wr Reg.PAIR_LAG_LAST_US [] (min 65535 (roundDiv (s.now - f.since) usU))
  let s := s.setRnd r { s.rndSt r with adds := [] }
  let s := (s.countLates r x.n (x.close, x.cause == 0)).countOffGrid r x.n (x.close, x.cause == 0)
  (s.dispatchBag r x).boundary r x.n x.tk

/-- Go on with the oldest mailbag to follow of a Round: dispatch it, or fetch what it lacks or what differs. -/
def State.tryFollow (s : State) (r : Nat) (force : Bool) : State :=
  match s.pair.follow.find? fun f => f.d.rnd == r with
  | none => s
  | some f =>
    let (x, lack) := s.composeFollow f.d
    let mark (g : Follow) : State := { s with pair := { s.pair with follow := s.pair.follow.map fun h => if h.d.rnd == r && h.d.n == f.d.n then g else h } }
    if force then s.followNow f x
    else if !lack.isEmpty then
      if f.fetched then s else (mark { f with fetched := true }).plkSend (.fetch (.letters (Fin.ofNat 64 r) f.d.seq lack))
    else if vdigOf x.ls ≠ f.d.vdig then
      if f.checked then s else (mark { f with checked := true }).plkSend (.fetch (.askCheck (Fin.ofNat 64 r) f.d.seq))
    else s.followNow f x

/-- A DISPATCH that the standby follows: none of an instant that has gone out. -/
def State.followFrame (s : State) (d : PlkDispatch) : State :=
  let old := match (s.rndSt d.rnd).last with | some k => decide (d.n ≤ k) | none => false
  if !s.follows || old || !s.whl.started || 64 ≤ d.rnd then s
  else ({ s with pair := { s.pair with follow := s.pair.follow ++ [⟨d, s.now, false, false⟩] } } : State).tryFollow d.rnd false

def execPlkDispatch (d : PlkIn PlkDispatch) (t : Time) (s : State) : Res :=
  .next ((s.advance t).linkRow false d.head fun a => a.followFrame d.msg)

/-- PAIR_LAG.MAX_US has passed: the mailbag goes without the members still missing. -/
def execFollowLate (rnd : Fin 64) (t : Time) (s : State) : Res :=
  let s := s.advance t
  let wait := clampN 20 2000 (s.rd Reg.PAIR_LAG_MAX_US []) * usU
  .next (if s.pair.follow.any fun f => f.d.rnd == rnd.val && decide (f.since + wait ≤ s.now) then
      ((s.inc Reg.PAIR_FOLLOW_LATE []).notice bPAIR 9 rnd 0 0).tryFollow rnd true
    else s)

/-- A letter comes over the link (R413, R414): fetched for a mailbag that waits for it, or forwarded and filed. -/
def State.fwdLetter (s : State) (l : Letter) : State :=
  let s : State := { s with pair := { s.pair with stamp := max s.pair.stamp l.arr } }
  let n := l.sec * s.sidFps l.sid + l.k
  match s.pair.follow.find? fun f => (f.fetched || f.checked) && f.d.present.contains l.sid && s.gridInstant f.d.rnd l.sid n == some f.d.n with
  | some f => ((s.inc Reg.PAIR_FETCHED []).putSlot ⟨l.sid, n, l, false⟩).tryFollow f.d.rnd false
  | none => if s.processing then s.handOver l true 384 else s

def execFwd (l : PlkIn Letter) (s : State) : Res := .next (s.linkRow false l.head fun a => a.fwdLetter l.msg)

/-- A check list comes (R414): the standby fetches the letters whose CRC differs. The CRCs are those of the mailbag's present letters, in
ascending SID order. -/
def State.checkLetters (s : State) (r seq : Nat) (crcs : List Nat) : State :=
  match s.pair.follow.find? fun f => f.d.rnd == r && f.d.seq == seq && f.checked with
  | none => s
  | some f =>
    let (x, _) := s.composeFollow f.d
    let own (sid : Nat) : Option Nat := (x.ls.find? fun l => l.sid == sid).map fun l => vdigOf [l]
    let bad := (f.d.present.zip crcs).filter fun e => own e.1 != some e.2
    if bad.isEmpty then s else s.plkSend (.fetch (.letters (Fin.ofNat 64 r) seq (bad.map (·.1))))

/-! ### Filing (R144, R413) -/

/-- A letter was filed: the next map shows its stream, and it goes to a partner that lacks the stream. -/
def State.pairFiled (s : State) (l : Letter) (fwd : Bool) : State :=
  if !s.flag Reg.PAIR_CFG_EN [] then s
  else if fwd then s.inc Reg.PAIR_FWD_IN []
  else
    let s : State := { s with pair := { s.pair with rxOwn := if s.pair.rxOwn.contains l.sid then s.pair.rxOwn else s.pair.rxOwn ++ [l.sid] } }
    if s.pair.fwding.contains l.sid then (s.inc Reg.PAIR_FWD_OUT []).plkSend (.fwd l) else s

def execFileLetter (sid : Nat) (t : Time) (s : State) : Res :=
  let s := s.advance t
  match s.nextRun sid (fun w => match w with | .file _ _ => true | _ => false) with
  | some i =>
    (match i.work with
     | .file l fwd => .next (if i.serving then
         (forEach (s.rndsOf l.sid) (fun r a => a.tryFollow r false) (((s.markRan i.key).fileLetter l).pairFiled l fwd)).drainOverflow else s)
     | _ => .next s)
  | none => .next s

/-! ### Instants and deadlines (R149, R155, R161, R174) -/

/-- In WATCH and HELD the RND0 instant itself is the boundary (R149): what waits for one happens, retirements and the moves of
placement among it (R18, R124). -/
def State.idleBoundary (s : State) (n : Nat) : State :=
  let s := ((s.layoutBoundary 0).mirrorBoundary (s.rndMark 0 n)).runCheck
  let s := if s.mode = .watch then s.runEntry else s
  ((s.requestBoundary).retireDue.placementBoundary false).sendMap

def State.roundInstant (s : State) (r : Nat) (t : Time) : State :=
  let n := instantOf t (s.rndFps r)
  if s.processing then
    let s : State := if r = 0 then { s with whl := { s.whl with started := true } } else s
    let st := s.rndSt r
    let past := (match st.last with | some k => decide (n ≤ k) | none => false) || st.bags.any fun b => decide (n ≤ b.n)
    if s.whl.started && s.rndOn r && !past then s.openBag r n else s
  else if r = 0 ∧ (s.mode = .watch ∨ s.mode = .held) then s.idleBoundary n
  else s

def execRoundInstant (rnd : Fin 64) (t : Time) (s : State) : Res := .next ((s.advance t).roundInstant rnd t).sleepAll

/-- A deadline passes: mailbags due and not closed close by deadline (R155). -/
def execDeadlineClose (rnd : Fin 64) (t : Time) (s : State) : Res :=
  let s := s.advance t
  let st := s.rndSt rnd
  let due (b : Mailbag) : Mailbag := if b.close.isNone && decide (b.deadline ≤ s.now) then { b with close := some (b.deadline, false) } else b
  .next (s.setRnd rnd { st with bags := st.bags.map due }).showOcc

/-! ### Command frames (R28, R172) -/

/-- The Round a command frame names: its IDCODE, on a port of its OUT.PORTS. -/
def State.cmdRound (s : State) (f : RxFrame) : Option Nat :=
  s.rndsOn.find? fun r => s.rd Reg.WHL_RND_OUT_IDCODE [r] == c37Id f.payload && s.rd Reg.WHL_RND_OUT_PORTS [r] / 2 ^ f.port.val % 2 == 1

/-- A command frame past the front: discarded where no Round answers, else answered. -/
def State.command (s : State) (f : RxFrame) (k : State → Nat → State) : State :=
  if f.conn.isSome || !s.taken f (s.rd Reg.NET_UDP_C37 []) then s.disc f.port
  else match c37Bad f.payload with
    | some code => s.deadFrame none f.port code
    | none => match s.cmdRound f with
      | none => s.disc f.port
      | some r => k s r

/-- Answer the requester with a frame of the Round. -/
def State.answerTo (s : State) (f : RxFrame) (b : List Byte) : State :=
  s.tx f.port 2 (s.rd Reg.NET_EGR_PCP_DATA []) none (.c37 f.v6 f.src f.sport b)

def State.cmdSendCfg (s : State) (f : RxFrame) : State := s.command f fun b r => b.answerTo f (b.cfgFrame r)
def State.cmdSendHeader (s : State) (f : RxFrame) : State := s.command f fun b r => b.answerTo f (b.hdrFrame r)
def State.cmdDataOn (s : State) (f : RxFrame) : State :=
  s.command f fun b r => b.setRnd r { b.rndSt r with gate := true, gateSrc := some (f.v6, f.src, f.sport, f.port) }
def State.cmdDataOff (s : State) (f : RxFrame) : State := s.command f fun b r => b.setRnd r { b.rndSt r with gate := false }
def State.cmdOther (s : State) (f : RxFrame) : State := s.command f fun b r => b.inc Reg.WHL_RND_CMD_IGN [r]

/-- A command frame by its command word: 1 data off, 2 data on, 3 send header, 4 and 5 send CFG-1 and CFG-2. -/
def State.anyCommand (s : State) (f : RxFrame) : State :=
  let c := beAt f.payload 14 2
  if c = 1 then s.cmdDataOff f else if c = 2 then s.cmdDataOn f else if c = 3 then s.cmdSendHeader f
  else if c = 4 ∨ c = 5 then s.cmdSendCfg f else s.cmdOther f

def execCmdSendCfg (f : RxFrame) (s : State) : Res := .next (s.onFrame f.toRxHead fun a => a.cmdSendCfg f)
def execCmdSendHeader (f : RxFrame) (s : State) : Res := .next (s.onFrame f.toRxHead fun a => a.cmdSendHeader f)
def execCmdDataOn (f : RxFrame) (s : State) : Res := .next (s.onFrame f.toRxHead fun a => a.cmdDataOn f)
def execCmdDataOff (f : RxFrame) (s : State) : Res := .next (s.onFrame f.toRxHead fun a => a.cmdDataOff f)
def execCmdOther (f : RxFrame) (s : State) : Res := .next (s.onFrame f.toRxHead fun a => a.cmdOther f)

end Sys2Proof.Machine
end

