-- ==== Sys2Proof/Machine/LocalStreams.lean ====
section
/-! DEFINITION. The local phasor estimator (R332, R333), local letters (R334, R335), and sampled-value slots (R336). -/
namespace Sys2Proof.Machine

/-! ### The estimator (R332, R333) -/

/-- What an estimate needs: class M or not, the stream's rate, nominal frequency, output rate, and the samples, oldest first. -/
structure Estim where
  m : Bool
  fps : Nat
  f0 : Nat
  rate : Nat
  smps : List AcqSmp

/-- Half the window's span: a nominal cycle, or 4 RI. -/
def estHalf (m : Bool) (r f0 : Nat) : Nat := if m then roundDiv (4 * second) r else roundDiv second f0

/-- Δ = 1 / (4 f0). -/
def estDelta (f0 : Nat) : Nat := roundDiv second (4 * f0)

/-- The M class window at an offset in units of 2^-16 ns: a sinc of cutoff 0.2 × the stream's rate, under a Hamming window of 8 RI
with the usual weights 0.54 and 0.46 (log entry 91). -/
def hammingSinc (fps : Nat) (u : Int) : Word :=
  let x := F32.ofRat (u * fps) second
  F32.mul (F32.fma (F32.ofRat 46 100) (cosF (F32.div (F32.mul twoPi32 x) (F32.ofInt 8))) (F32.ofRat 54 100)) (sincF (F32.mul (F32.ofRat 4 10) x))

/-- The window's weight at an offset from its centre. -/
def Estim.weight (e : Estim) (u : Int) : Word :=
  if e.m then hammingSinc e.fps u
  else F32.ofRat ((second : Int) - (u.natAbs * e.f0 : Nat)) second

/-- The samples of the window around a time, which is half-open (R7), with their weights. -/
def Estim.window (e : Estim) (tc : Time) : List (AcqSmp × Word) :=
  let h := estHalf e.m e.fps e.f0
  (e.smps.filter fun x => decide (tc ≤ instantTime x.n e.rate + h ∧ instantTime x.n e.rate < tc + h)).map fun x =>
    (x, e.weight ((instantTime x.n e.rate : Int) - (tc : Int)))

/-- The phasor of a channel around a time, before the gain correction (R332). -/
def Estim.phasor (e : Estim) (tc : Time) (ch : Nat) : Word × Word :=
  let ws := e.window tc
  let ang (x : AcqSmp) : Word := F32.mul twoPi32 (F32.ofRat (e.f0 * x.n % e.rate : Nat) e.rate)
  let v := ws.map fun x => F32.mul (x.1.xs.getD ch F32.zero) x.2
  let k := F32.div 0x3FB504F3#32 (sumF (ws.map (·.2)))
  (F32.mul k (dotF v (ws.map fun x => cosF (ang x.1))),
   F32.neg (F32.mul k (dotF v (ws.map fun x => sinF (ang x.1)))))

/-- The positive-sequence combination of three phasors. -/
def positive (a b c : Word × Word) : Word × Word :=
  let h : Word := half 1
  let r : Word := 0x3F5DB3D7#32
  let rot (s : Word) (z : Word × Word) : Word × Word :=
    (F32.sub (F32.neg (F32.mul h z.1)) (F32.mul s z.2), F32.sub (F32.mul s z.1) (F32.mul h z.2))
  let u := rot r b
  let w := rot (F32.neg r) c
  let third (x : Word) : Word := F32.div x (F32.ofInt 3)
  (third (F32.add (F32.add a.1 u.1) w.1), third (F32.add (F32.add a.2 u.2) w.2))

/-- An angle difference in (−π, π]. -/
def wrapPi (x : Word) : Word :=
  if F32.lt pi32 x then F32.sub x twoPi32 else if F32.le x (F32.neg pi32) then F32.add x twoPi32 else x

/-- The angle of V1 around a time (R333). -/
def Estim.phi (e : Estim) (tc : Time) : Word :=
  let v := positive (e.phasor tc 0) (e.phasor tc 1) (e.phasor tc 2)
  angleF v.1 v.2

/-- FREQ and ROCOF at a time (R333). -/
def Estim.freq (e : Estim) (tc : Time) : Word × Word :=
  let d := estDelta e.f0
  let lo := e.phi (tc - d)
  let mid := e.phi tc
  let hi := e.phi (tc + d)
  let f := F32.add (F32.ofInt e.f0) (F32.div (F32.mul (wrapPi (F32.sub hi lo)) (F32.ofInt e.f0)) pi32)
  let r := F32.div (F32.mul (wrapPi (F32.sub (wrapPi (F32.sub hi mid)) (wrapPi (F32.sub mid lo)))) (F32.ofInt (8 * e.f0 * e.f0))) pi32
  (f, r)

/-- The window's gain at a frequency off its centre: |Σ w e^(−j2πΔu)| / Σ w. -/
def Estim.gain (e : Estim) (tc : Time) (df : Word) : Word :=
  let ws := e.window tc
  let ang := ws.map fun x => F32.mul (F32.mul twoPi32 df) (F32.ofRat ((instantTime x.1.n e.rate : Int) - (tc : Int)) second)
  let w := ws.map (·.2)
  F32.div (cabs (dotF w (ang.map cosF), dotF w (ang.map sinF))) (sumF w)

/-- A channel's phasor with the window's gain at f − f0 removed from its magnitude (R332). -/
def Estim.corrected (e : Estim) (tc : Time) (f : Word) (ch : Nat) : Word × Word :=
  let g := e.gain tc (F32.sub f (F32.ofInt e.f0))
  let z := e.phasor tc ch
  (F32.div z.1 g, F32.div z.2 g)

/-- RMS of a channel over the nominal cycle centred on a time, harmonics included (R334). -/
def Estim.rms (e : Estim) (tc : Time) (ch : Nat) : Word :=
  let h := second / (2 * e.f0)
  let xs := (e.smps.filter fun x => let t := instantTime x.n e.rate; decide (tc ≤ t + h ∧ t < tc + h)).map fun x => x.xs.getD ch F32.zero
  F32.sqrt (F32.div (sumSq xs) (F32.ofInt xs.length))

/-! ### Local letters (R333 to R335) -/

/-- The estimator of a local stream over its source's samples. -/
def State.lsEstim (s : State) (n : Nat) : Estim :=
  ⟨s.lsM n, s.lsFps n, s.lsF0 n, s.lsRate n,
    (if n < 4 then (s.acqPt (n / 2)).hist else sget s.acq.svs (n - 4) []).reverse⟩

/-- The span a letter's estimates use, half-open (R7): from t_k − Δ less half a window to t_k + Δ plus half a window. -/
def State.lsReach (s : State) (n : Nat) : Nat := estDelta (s.lsF0 n) + estHalf (s.lsM n) (s.lsFps n) (s.lsF0 n)

/-- The first instant of a stream whose window lies wholly after a time (R338). -/
def State.lsFirst (s : State) (n : Nat) (t : Time) : Nat := ceilDiv ((t + s.lsReach n) * s.lsFps n) second

/-- The letter of a stream's instant k (R334, R335): `gap` says that a sampled-value gap exceeds the limit of R336. -/
def State.lsLetter (s : State) (n k : Nat) (gap : Bool) : Letter :=
  let e := s.lsEstim n
  let r := s.lsFps n
  let tk := instantTime k r
  let span := e.smps.filter fun x => let t := instantTime x.n e.rate; decide (tk ≤ t + s.lsReach n ∧ t < tk + s.lsReach n)
  let or (f : AcqSmp → Nat) : Nat := span.foldl (fun a x => a ||| f x) 0
  let pl := or (·.pathL)
  let pth := if n < 4 then (span.foldl (fun a x => a ||| (7 - x.pathL % 8) ||| x.splice) 0) else 0
  -- an input that the estimator uses is faulted, or its active curve entry is not VALID (R323)
  let p := n / 2
  let bad (j : Nat) : Bool := n < 4 && !s.flag Reg.CURVE_VALID [9 * p + j]
  let invalid (c : Nat) : Bool :=
    if c < 3 then bad c else (pth / 2 ^ (c - 3) % 2 == 1 && bad c) || (pl / 2 ^ (c - 3) % 2 == 1 && bad (c + 3))
  let flt := or (·.flt) ||| bitsMask ((List.range 6).map invalid)
  let hurt (c : Nat) : Bool := flt / 2 ^ c % 2 == 1
  let vBad := hurt 0 || hurt 1 || hurt 2
  let iBad := hurt 3 || hurt 4 || hurt 5
  let (f, rc) := e.freq tk
  let nan2 : Word × Word := (F32.nan, F32.nan)
  let ph (c : Nat) : Word × Word := e.corrected tk f c
  let put (c : Nat) : Word × Word := if hurt c then nan2 else ph c
  let v1 := if vBad then nan2 else positive (ph 0) (ph 1) (ph 2)
  let i1 := if iBad then nan2 else positive (ph 3) (ph 4) (ph 5)
  let ovr := or (·.ovr)
  let any (g : AcqSmp → Bool) : Bool := span.any g
  let unsync := decide (4 ≤ n) && !s.flag Reg.ACQ_SV_STAT_SYNCED [n - 4]
  let far := !vBad && !(F32.le (F32.ofInt (e.f0 - 10)) f && F32.le f (F32.ofInt (e.f0 + 10)))
  let b (c : Bool) (v : Nat) : Nat := if c then v else 0
  let inval := flt != 0 || ovr != 0 || gap || far
  let cfg := match (s.acqLs n).cfgAt with | some t => decide (s.now < t + 60 * second) | none => false
  let serr := s.serrNow
  let stat := (if inval then 0x4000 else if s.mode = .service then 0x8000 else 0) + b (serr || unsync) 0x2000 + b cfg 0x400 +
    (if unsync then 7 else s.sqNow) * 64 + s.unlkCode * 16
  let dig := pl % 8 + ovr / 8 % 8 * 8 + b (ovr % 8 != 0) 0x40 + b (flt != 0) 0x80 + b (any (·.fade)) 0x100 + b (any (·.interp)) 0x200 +
    b unsync 0x400
  { sid := 16384 + n, flags := 0x200, sec := k / r, k := k % r, rate := s.rd Reg.ACQ_LS_CFG_RATE [n], arr := s.now, stat := stat
    cfgcnt := s.rd Reg.ACQ_LS_STAT_CFGCNT [n], phn := 8, ann := 6, dgn := 1, path := 0, tq := s.fqNow
    ph := [put 0, put 1, put 2, v1, put 3, put 4, put 5, i1]
    freq := if vBad then F32.nan else f, rocof := if vBad then F32.nan else rc
    an := (List.range 6).map (fun c => if hurt c then F32.nan else e.rms tk c)
    dg := [dig] }

/-- Form and hand over the letter of a stream's next instant; a unit in STANDBY forms it and does not file it (R413). -/
def State.lsForm (s : State) (n k : Nat) (gap : Bool) : State :=
  let l := s.lsLetter n k gap
  let s := (s.setAcqLs n { s.acqLs n with next := some (k + 1) }).setFlag Reg.ACQ_LS_STAT_LIVE [n] true
  let s := s.inc Reg.ACQ_LS_LETTERS [n]
  let s := if l.stat / 0x4000 % 4 = 1 then s.inc Reg.ACQ_LS_INVALID [n] else s
  let s := (s.bump64 Reg.LSTAB_LETTERS [n] 1).wr64 Reg.LSTAB_LAST_SEC [n] (secOf l.arr) |>.wr Reg.LSTAB_LAST_NS [n] (nsOf l.arr)
  let s : State := { s with acq := { s.acq with stamp := l.arr } }
  if s.mode = .standby then s else s.handOver l false 0

/-- The newest sample of a stream's source. -/
def State.lsNewest (s : State) (n : Nat) : Option Nat :=
  ((if n < 4 then (s.acqPt (n / 2)).hist else sget s.acq.svs (n - 4) []).head?).map (·.n)

/-- The last sample that a letter's windows need. -/
def State.lsNeeds (s : State) (n k : Nat) : Nat := ceilDiv ((instantTime k (s.lsFps n) + s.lsReach n) * s.lsRate n) second - 1

/-! ### Sampled-value slots (R336) -/

/-- Missing samples that lie in a span are filled where their run is of at most two, from the neighbours of the run; `xs` newest first. -/
def svFill (span : Nat × Nat) : List AcqSmp → List AcqSmp
  | a :: b :: r =>
    let g := a.n - b.n
    let mix (i : Nat) : List AcqSmp :=
      if span.1 ≤ b.n + i ∧ b.n + i ≤ span.2 then
        [{ n := b.n + i, xs := (a.xs.zip b.xs).map fun v => F32.fma (F32.ofRat i g) (F32.sub v.1 v.2) v.2
           pathL := 0, ovr := 0, flt := 0, fade := false, interp := true, splice := 0 }]
      else []
    if g = 2 then a :: (mix 1 ++ svFill span (b :: r))
    else if g = 3 then a :: (mix 2 ++ mix 1 ++ svFill span (b :: r))
    else a :: svFill span (b :: r)
  | xs => xs

/-- The samples that a slot's letter of instant k needs, and how many of them are there. -/
def State.svSpan (s : State) (q k : Nat) : Nat × Nat :=
  let n := q + 4
  (ceilDiv ((instantTime k (s.lsFps n) - s.lsReach n) * s.svRate q) second, s.lsNeeds n k)

def svHave (span : Nat × Nat) (xs : List AcqSmp) : Nat := (xs.filter fun x => decide (span.1 ≤ x.n ∧ x.n ≤ span.2)).length

/-- No sample that a slot's letter of instant k needs is missing. -/
def State.svWhole (s : State) (q k : Nat) : Bool :=
  let p := s.svSpan q k
  decide (p.2 + 1 - p.1 ≤ svHave p (sget s.acq.svs q []))

/-- A slot's letter: gaps of at most two samples in its windows are filled and counted; a longer one, or samples that do not reach over the
window, invalidate it. -/
def State.svLetter (s : State) (q : Nat) : State :=
  let n := q + 4
  match (s.acqLs n).next with
  | none => s
  | some k =>
    let p := s.svSpan q k
    let before := sget s.acq.svs q []
    let after := svFill p before
    let s := s.bump Reg.ACQ_SV_INTERP [q] (after.length - before.length)
    let s : State := { s with acq := { s.acq with svs := sset s.acq.svs q after } }
    s.lsForm n k (decide (svHave p after < p.2 + 1 - p.1))

/-- The row LOCAL_LETTER: a stream whose last needed sample is there; a slot waits for a missing one until SV_WAIT_TIMEOUT. -/
def execLocalLetter (n : Fin 8) (t : Time) (s : State) : Res :=
  let s := s.advance t
  .next (match (s.acqLs n.val).next, s.lsNewest n.val with
  | some k, some newest =>
    if s.processing && s.lsOn n.val && decide (s.lsNeeds n.val k ≤ newest) &&
        (decide (n.val < 4) || s.svWhole (n.val - 4) k) then
      if n.val < 4 then s.lsForm n.val k false else s.svLetter (n.val - 4)
    else s
  | _, _ => s)

/-- The row SV_WAIT_TIMEOUT: WAIT_US after the last needed instant the estimator proceeds with the samples it has. -/
def execSvWaitTimeout (q : Fin 4) (t : Time) (s : State) : Res :=
  let s := s.advance t
  let n := q.val + 4
  .next (match (s.acqLs n).next with
  | some k =>
    if s.processing && s.lsOn n &&
        decide (instantTime k (s.lsFps n) + s.lsReach n + s.rd Reg.ACQ_SV_CFG_WAIT_US [q.val] * usU ≤ s.now) then s.svLetter q.val
    else s
  | none => s)

/-- The row SV_LOST: 100 ms with no matching ASDU. -/
def execSvLost (q : Fin 4) (t : Time) (s : State) : Res :=
  let s := s.advance t
  .next (if s.flag Reg.ACQ_SV_STAT_RECEIVING [q.val] && decide (sget s.acq.svAt q.val 0 + 100 * msU ≤ s.now) then
    (s.setFlag Reg.ACQ_SV_STAT_RECEIVING [q.val] false).notice bACQ 6 q.val 0 0
  else s)

/-- Put a sample among those of a slot, newest first; one that is there already stays, unless it was interpolated. -/
def svPut (x : AcqSmp) : List AcqSmp → List AcqSmp
  | [] => [x]
  | y :: r => if y.n < x.n then x :: y :: r else if y.n = x.n then (if y.interp then x else y) :: r else y :: svPut x r

/-- A port that carries sampled values: 1000BASE-X or 10GBASE-R (R336). -/
def State.svPort (s : State) (p : Nat) : Bool := s.rd Reg.NET_PORT_CFG_MODE [p] != 0

/-- The slots an ASDU matches. -/
def State.svMatch (s : State) (a : SvAsdu) : List Nat :=
  (List.range 4).filter fun q =>
    s.flag Reg.ACQ_SV_CFG_EN [q] && s.rd Reg.ACQ_SV_CFG_APPID [q] == a.appid &&
    s.rd Reg.ACQ_SV_CFG_PORTS [q] / 2 ^ a.port.val % 2 == 1 && s.svPort a.port.val &&
    s.regBytes (Reg.ACQ_SV_SVID.off [q, 0]) 8 == padTo 32 (a.svId.take 32)

/-- An ASDU reaches a slot. -/
def State.svTake (s : State) (a : SvAsdu) (q : Nat) : State :=
  let r := s.svRate q
  if a.rate ≠ r then s.inc Reg.ACQ_SV_BAD [q]
  else
    let s : State := { s with acq := { s.acq with svAt := sset s.acq.svAt q s.now } }
    let s := s.setFlag Reg.ACQ_SV_STAT_RECEIVING [q] true
    let was := s.flag Reg.ACQ_SV_STAT_SYNCED [q]
    let s := s.setFlag Reg.ACQ_SV_STAT_SYNCED [q] (a.smpSynch != 0)
    let s := if was && a.smpSynch == 0 then s.notice bACQ 7 q 0 0 else s
    -- IA, IB, IC, IN, VA, VB, VC, VN; bit 11 of a quality word is test
    let usedCh := [4, 5, 6, 0, 1, 2]
    let poor := (List.range 8).any fun c => (a.values.getD c (0#32, 0#32)).2 &&& 0xFFFFF7FF#32 != 0#32
    if r ≤ a.smpCnt ∨ poor = true then s.inc Reg.ACQ_SV_BAD [q]
    else
      let sec := if a.raw % second * r < a.smpCnt * second then secOf a.raw - 1 else secOf a.raw
      let n := sec * r + a.smpCnt
      let val (c : Nat) : Word :=
        F32.ofRat (toSigned 32 (a.values.getD c (0#32, 0#32)).1.toNat) (if c < 4 then 1000 else 100)
      let x : AcqSmp := { n := n, xs := usedCh.map val, pathL := 0, ovr := 0, flt := 0, fade := false, interp := false, splice := 0 }
      let s : State := { s with acq := { s.acq with svs := sset s.acq.svs q ((svPut x (sget s.acq.svs q [])).take r) } }
      let l := s.acqLs (q + 4)
      -- the first letter is that of the first instant whose window lies after the first sample
      if l.next.isNone && s.lsOn (q + 4) then s.setAcqLs (q + 4) { l with next := some (s.lsFirst (q + 4) (instantTime n r)) } else s

/-- The row SV_ASDU: a frame's first ASDU meets the receive front, its others follow it. In a mode that processes no streams the
frame is discarded and counted (R28, R102). -/
def execSvAsdu (a : SvAsdu) (s : State) : Res :=
  .next (match (if a.idx = 0 then s.rxFront a.toRxHead else s.rxMore a.toRxHead) with
    | (s, true) => if s.processing then forEach (s.svMatch a) (fun q b => b.svTake a q) s else if a.idx = 0 then s.disc a.port else s
    | (s, false) => s)

/-- The row CHAIN_FILLED, 1 ms and a total delay after the clock started: the point is running, its streams' first letters are set, metering and its capture units begin. -/
def execChainFilled (pt : Fin 2) (t : Time) (s : State) : Res :=
  let s := s.advance t
  let p := pt.val
  .next (if s.clocked p && (s.acqPt p).filled.isNone && decide ((s.acqPt p).start + msU + s.ptDelay p ≤ s.now) then
    let s := (s.setAcqPt p { s.acqPt p with filled := some t }).setFlag Reg.ACQ_PT_STAT_RUNNING [p] true
    let s := forEach [2 * p, 2 * p + 1] (fun n a =>
      if a.lsOn n then a.setAcqLs n { a.acqLs n with next := some (a.lsFirst n t) } else a) s
    s.capFilled p
  else s)

end Sys2Proof.Machine
end

