-- ==== Sys2Proof/Machine/Energy.lean ====
section
/-! DEFINITION. The energy block (R346 to R361, R366) and the supply-event detector (R362 to R365). -/
namespace Sys2Proof.Machine

/-! ### A quantum's quantities (R347) -/

/-- A quantum's averages: P_T, Q_T, S_T, P_F, Q_F, S_F. -/
structure Quant where
  pt : Word
  qt : Word
  st : Word
  pf : Word
  qf : Word
  sf : Word
  deriving DecidableEq, Repr

/-- The samples of quantum q, oldest first. -/
def quantSmps (f0 rate q : Nat) (hist : List AcqSmp) : List AcqSmp := (hist.filter fun x => x.n * f0 / rate == q).reverse

/-- sgn0: negative only below zero. -/
def neg0 (x : Word) : Bool := F32.lt x F32.zero

/-- The quantities of quantum q of a point (R347). -/
def State.quantOf (s : State) (p q : Nat) : Quant :=
  let f0 := s.ptF0 p
  let rate := s.ptRate p
  let hist := (s.acqPt p).hist
  let xs := quantSmps f0 rate q hist
  let n := F32.ofInt xs.length
  let col (c : Nat) : List Word := xs.map fun x => x.xs.getD c F32.zero
  let pt := sumF ([0, 1, 2].map fun k => F32.div (dotF (col k) (col (3 + k))) n)
  let rms (c : Nat) : Word := F32.sqrt (F32.div (sumSq (col c)) n)
  let st := sumF ([0, 1, 2].map fun k => F32.mul (rms k) (rms (3 + k)))
  let e : Estim := ⟨false, f0, f0, rate, hist.reverse⟩
  let tc := instantTime (2 * q + 1) (2 * f0)
  let f := (e.freq tc).1
  let vi (k : Nat) : (Word × Word) × (Word × Word) := (e.corrected tc f k, e.corrected tc f (3 + k))
  let pq := [0, 1, 2].map fun k => mulConj (vi k).1 (vi k).2
  let pf := sumF (pq.map (·.1))
  let qf := sumF (pq.map (·.2))
  let sf := sumF ([0, 1, 2].map fun k => F32.mul (cabs (vi k).1) (cabs (vi k).2))
  let q2 := F32.fma st st (F32.neg (F32.mul pt pt))
  let qm := F32.sqrt (if F32.lt q2 F32.zero then F32.zero else q2)
  ⟨pt, if neg0 qf then F32.neg qm else qm, st, pf, qf, sf⟩

/-- A quantity over a quantum in units of 2^-16 mWh: joules divided by 3.6, rounded once (R350). -/
def energyUnits (x : Word) (f0 : Nat) : Nat :=
  if F32.isFinite x then roundDiv (F32.magUnits x * 655360) (2 ^ 149 * 36 * f0) else 0

/-- What one set's quantities add to its eight registers (R349). -/
def routed (p q s : Word) (f0 : Nat) : List Nat :=
  let e (b : Bool) (x : Word) : Nat := if b then energyUnits x f0 else 0
  let pn := neg0 p
  let qn := neg0 q
  [e (!pn) p, e pn p, e (!pn && !qn) q, e (pn && !qn) q, e (pn && qn) q, e (!pn && qn) q, e (!pn) s, e pn s]

/-- The sixteen additions of a quantum. -/
def Quant.adds (u : Quant) (f0 : Nat) : List Nat := routed u.pt u.qt u.st f0 ++ routed u.pf u.qf u.sf f0

/-! ### Registers (R350 to R353, R360) -/

def regTop : Nat := 2 ^ 80

/-- A wrap of a billing register (R352). -/
def State.nrgWrap (s : State) (p i : Nat) : State :=
  ((s.setFlag Reg.NRG_PT_WRAP_WRAP [p, i] true).inc Reg.NRG_PT_WRAP_WRAPS [p, i]).notice bNRG 3 (16 * p + i) 0 0

def orFlags (v : NrgPt) (f : Nat) : NrgPt := { v with iv := v.iv.map fun a => { a with flags := a.flags ||| f } }

/-- Add a quantum to the billing registers. -/
def State.billAdd (s : State) (p : Nat) (adds : List Nat) : State :=
  let v := s.nrgPt p
  let sums := (v.bill.zip adds).map fun x => x.1 + x.2
  let wraps := (sums.zipIdx.filter fun x => decide (regTop ≤ x.1)).map (·.2)
  let v := { v with bill := sums.map (· % regTop) }
  forEach wraps (fun i a => a.nrgWrap p i) (s.setNrgPt p (if wraps.isEmpty then v else orFlags v 0x20))

/-- The count of a register, without its residue. -/
def regCount (r : Nat) : Nat := r / 65536

/-- Copy a point's registers and wrap words into its snapshot bank at the first boundary after the request (R353). The register map
gives the copied wrap words no offset. -/
def State.snapTake (s : State) (p : Nat) (qe : Time) : State :=
  let v := s.nrgPt p
  if v.snapDue.any fun t => decide (t < qe) then
    let s := s.setNrgPt p { v with snapDue := none, snapWraps := (List.range 16).map fun i => s.word (Reg.NRG_PT_WRAP_WRAP.off [p, i]) }
    let s := forEach (List.range 16) (fun i a =>
      (a.wr64 Reg.NRG_PT_SNAP [p, i] (regCount (v.bill.getD i 0))).wr64 Reg.NRG_PT_TSNAP [p, i] (regCount (v.test.getD i 0))) s
    ((s.wr Reg.NRG_PT_SNAP_SEC [p] (secOf qe)).wr Reg.NRG_PT_SNAP_NS [p] (nsOf qe)).snapFinish p
  else s

/-- Apply a preset that waits, at the first boundary after its request (R360): allowed only in SERVICE. -/
def State.presetTake (s : State) (p : Nat) (qe : Time) : State :=
  let v := s.nrgPt p
  match v.preset.filter fun x => decide (x.2.2 < qe) with
  | none => s
  | some (i, x, _) =>
    let s := s.setNrgPt p { v with preset := none }
    if s.mode ≠ .service then (s.wr Reg.NRG_PT_PRE_IDX_STATUS [p] 3).notice bNRG 8 (32 * p + i) 0 3
    else
      let old := regCount (if i < 16 then v.bill.getD i 0 else v.test.getD (i - 16) 0)
      let put (l : List Nat) (k : Nat) : List Nat := l.set k (x * 65536)
      let w : NrgPt := if i < 16 then { v with bill := put v.bill i } else { v with test := put v.test (i - 16) }
      let s := s.setNrgPt p { w with preset := none, preFlag := true }
      let s := (s.wr Reg.NRG_PT_PRE_IDX_STATUS [p] 2).noticeQuiet bNRG 8
      -- old and new values, low words and high words, in two records
      (s.logEvent bNRG 9 (32 * p + i) (old % 2 ^ 32) (x % 2 ^ 32)).logEvent bNRG 0x82 (32 * p + i) (old / 2 ^ 32) (x / 2 ^ 32)

/-! ### Intervals (R357, R358) -/

def State.ivNew (s : State) (p : Nat) (start : Time) : IvAcc :=
  let v := s.nrgPt p
  ⟨start, s.intIdx start, 0, 0, 0, 0, 0, 0, 0, v.bill, v.test, none, none⟩

/-- The interval that a quantum belongs to is in progress; a time that is not in it opens another, and the
intervals from that one on have no record. -/
def State.ivOpen (s : State) (p : Nat) (qs : Time) : State :=
  let v := s.nrgPt p
  let new := s.ivNew p (s.intStart qs)
  match v.iv with
  | some a => if a.idx = s.intIdx qs then s
      else s.setNrgPt p { v with iv := some { new with idx := s.intIdx qs }, skipped := min 65535 (v.skipped + max 1 (s.intIdx qs - a.idx).toNat), gap := true }
  | none => s.setNrgPt p { v with iv := some { new with idx := s.intIdx qs } }

/-- DIR of an interval record: ADIR, RDIR, NOLOAD. -/
def State.dirBits (s : State) (p : Nat) : Nat :=
  s.rd Reg.NRG_PT_DIR_ADIR [p] + 2 * s.rd Reg.NRG_PT_DIR_RDIR [p] + 4 * s.rd Reg.NRG_PT_DIR_NOLOAD [p]

/-- A quantum's end that is an interval's last boundary sets the record aside; an interval without metered quanta is
skipped. -/
def State.ivClose (s : State) (p : Nat) (qe : Time) : State :=
  let v := s.nrgPt p
  match v.iv with
  | none => s
  | some a =>
    if a.start < qe ∧ qe % second = 0 ∧ s.intIdx qe ≠ a.idx then
      let regs := if a.metered = 0 ∧ 0 < a.test then v.test else v.bill
      let done : IvDone := ⟨a, qe, regs, s.ptF0 p, s.dirBits p⟩
      let v := { v with iv := some (s.ivNew p qe) }
      if a.metered + a.test = 0 then s.setNrgPt p { v with skipped := min 65535 (v.skipped + 1), gap := true }
      else s.setNrgPt p { v with ivDone := some done }
    else s

/-- The 192 bytes of an interval record (R358). -/
def ivRecord (p intS skipped : Nat) (flags : Nat) (d : IvDone) (seq : Nat) : List Byte :=
  let a := d.acc
  let test := a.metered == 0 && decide (0 < a.test)
  let base := if test then a.tbase else a.base
  let diff (i : Nat) : Int := (((regCount (d.regs.getD i 0) + 2 ^ 64 - regCount (base.getD i 0)) % 2 ^ 64 : Nat) : Int)
  let q := if test then a.test else a.metered
  -- mWh, 3.6 J each, over q / f0 seconds, in W
  let avg (x : Int) : Word := F32.ofRat (x * 36 * (d.f0 : Int)) (10 * q)
  let ms := (d.stop - a.start) / msU
  let leap := if ms ≠ 1000 * intS then 0x80 else 0
  sealRec (leBytes 1 1 ++ leBytes 1 p ++ leBytes 2 (flags ||| leap) ++ leBytes 4 seq ++ leBytes 6 (secOf a.start) ++ leBytes 2 skipped ++
    leBytes 4 ms ++ leBytes 4 a.missing ++ leBytes 4 (min 255 a.sags * 65536 + min 255 a.swells * 256 + min 255 a.intrs) ++
    leBytes 4 0 ++ ((List.range 16).flatMap fun i => leBytes 8 (regCount (d.regs.getD i 0))) ++
    wordBytes (avg (diff 0 - diff 1)) ++ wordBytes (avg (diff 2 + diff 3 - diff 4 - diff 5)) ++
    wordBytes (a.pmax.getD F32.nan) ++ wordBytes (a.pmin.getD F32.nan) ++ leBytes 4 d.dir ++ List.replicate 8 0)

/-- The row INTERVAL_END: the interval's record is written, held and offered (R358, R359). -/
def execIntervalEnd (pt : Fin 2) (t : Time) (s : State) : Res :=
  let s := s.advance t
  let p := pt.val
  let v := s.nrgPt p
  .next (match v.ivDone with
  | none => s
  | some d =>
    let a := d.acc
    let b (c : Bool) (n : Nat) : Nat := if c then n else 0
    let flags := a.flags ||| b (v.gap || a.missing != 0) 1 ||| b v.restored 0x400
    let s := s.setNrgPt p { v with ivDone := none, gap := false, skipped := 0, restored := false }
    let mk := ivRecord p s.intS v.skipped flags d
    let s := s.nrgOffer p 1 mk
    let seq := s.rd Reg.NRG_PT_RECSEQ [p]
    let bs := mk seq
    let s := forEach (List.range 48) (fun i x => x.wr Reg.NRG_HIST [p, seq % 16, i] (leAt bs (4 * i) 4)) s
    s.notice bNRG 0 p seq 0)

/-! ### Quanta (R346, R354 to R356) -/

/-- Is quantum q of a point metered (R355)? -/
def State.metered (s : State) (p q : Nat) : Bool :=
  let f0 := s.ptF0 p
  s.clocked p &&
    (match (s.acqPt p).filled with | some f => decide (f ≤ instantTime q f0) | none => false) &&
    (let xs := quantSmps f0 (s.ptRate p) q (s.acqPt p).hist; !xs.isEmpty && xs.all fun x => x.flt == 0)

/-- One direction bit of a point, of a power above or below the creep level. -/
def State.turn (s : State) (p : Nat) (c : Word) (f : Fld) (x : Word) : State :=
  let was := s.flag f [p]
  let now_ := if F32.lt x (F32.neg c) then true else if F32.lt c x then false else was
  if now_ = was then s else (s.setFlag f [p] now_).notice bNRG 2 p (if now_ then 1 else 0) 0

/-- DIR after a metered quantum (R354). -/
def State.direct (s : State) (p : Nat) (u : Quant) : State :=
  let c : Word := BitVec.ofNat 32 (s.rd Reg.NRG_PT_CREEP [p])
  let s := (s.turn p c Reg.NRG_PT_DIR_ADIR u.pt).turn p c Reg.NRG_PT_DIR_RDIR u.qt
  s.setFlag Reg.NRG_PT_DIR_NOLOAD [p] (F32.lt (F32.abs u.pt) c && F32.lt (F32.abs u.qt) c)

/-- Does a quantum contain SERVICE time (R356, R361)? One that ended before the entry does not; the quantum in which the entry lies counts
as from entry: the spec does not say (log entry 118, DESIGN CHOICE). -/
def State.quantService (s : State) (q f0 : Nat) : Bool := s.mode == .service && decide (s.nrg.svcAt < instantTime (q + 1) f0)

/-- A metered quantum: its energies are routed and its averages shown (R347 to R349, R356). -/
def State.meter (s : State) (p q : Nat) : State :=
  let u := s.quantOf p q
  let f0 := s.ptF0 p
  let svc := s.quantService q f0
  let test := svc && s.flag Reg.NRG_CTL_TESTREG []
  let xs := quantSmps f0 (s.ptRate p) q (s.acqPt p).hist
  -- a splice between this quantum and the one before counts as well
  let before := (s.acqPt p).hist.find? fun x => decide (x.n * f0 / s.ptRate p < q)
  let b (c : Bool) (n : Nat) : Nat := if c then n else 0
  let flags := b svc 2 ||| b (xs.any fun x => x.ovr != 0) 8 ||| b (xs.any (·.fade)) 0x10 |||
    b (xs.any fun x => x.splice != 0 || x.pathL != (before.getD (xs.headD x)).pathL) 0x100 ||| b (!(s.nrgPt p).evs.isEmpty) 0x200 |||
    b (s.rd Reg.ACQ_PT_STAT_FAULT [p] != 0) 4
  let s := if test then
      let v := s.nrgPt p
      (s.setNrgPt p { v with test := (v.test.zip (u.adds f0)).map fun x => (x.1 + x.2) % regTop }).inc Reg.NRG_PT_MISSING_Q [p]
    else s.billAdd p (u.adds f0)
  let v := s.nrgPt p
  let top (x : Option Word) (f : Word → Word → Word) : Option Word := some (match x with | some w => f w u.pt | none => u.pt)
  let s := s.setNrgPt p { v with iv := v.iv.map fun (a : IvAcc) =>
    let a := { a with flags := a.flags ||| flags, pmax := top a.pmax F32.max, pmin := top a.pmin F32.min }
    if test then { a with test := a.test + 1, missing := a.missing + 1 } else { a with metered := a.metered + 1 } }
  let s := forEach ([u.pt, u.qt, u.st, u.pf, u.qf, u.sf].zipIdx) (fun x a => a.wr Reg.NRG_PT_AVG [p, x.2] x.1.toNat) s
  ((s.setFlag Reg.NRG_PT_STAT_METERING [p] true).setFlag Reg.NRG_PT_STAT_TESTSET [p] test).direct p u

/-- An unmetered quantum adds nothing and is counted (R355). -/
def State.unmeter (s : State) (p q : Nat) : State :=
  let v := s.nrgPt p
  let f := (if s.rd Reg.ACQ_PT_STAT_FAULT [p] != 0 then 4 else 0) + (if s.quantService q (s.ptF0 p) then 2 else 0)
  ((s.setNrgPt p { v with iv := v.iv.map fun (a : IvAcc) => { a with missing := a.missing + 1, flags := a.flags ||| f } }).inc
    Reg.NRG_PT_MISSING_Q [p]).setFlag Reg.NRG_PT_STAT_METERING [p] false

/-- What an MRAM slot keeps of a point (R366): test registers never enter MRAM, and every start clears them (R356). -/
def State.nrgKeep (s : State) (p : Nat) : NrgKeep :=
  let v := s.nrgPt p
  ⟨v.bill, (List.range 16).map fun i => s.word (Reg.NRG_PT_WRAP_WRAP.off [p, i]), s.flag Reg.NRG_PT_DIR_ADIR [p],
    s.flag Reg.NRG_PT_DIR_RDIR [p], s.rd Reg.NRG_PT_RECSEQ [p], v.iv.map fun (a : IvAcc) => { a with tbase := List.replicate 16 0 }⟩

/-- Once a second, when every enabled point has reached the whole-second boundary, both points are written to the older slot
(R366); not in BACKUP, nor in LOADING, where the registers may not have been restored yet. -/
def State.nrgPersist (s : State) (qe : Time) : State :=
  let reached (p : Nat) : Bool := !s.ptOn p || (match (s.nrgPt p).lastQ with
    | some (f0, q) => decide (qe ≤ instantTime (q + 1) f0) | none => false)
  if s.powered = true ∧ s.mode ≠ .loading ∧ qe % second = 0 ∧ s.nrg.savedSec ≠ secOf qe ∧ (List.range 2).all reached = true then
    let pts := (List.range 2).map s.nrgKeep
    let sq (x : Option NrgSave) : Nat := match x with | some v => if v.ok then v.seq else 0 | none => 0
    let v : NrgSave := ⟨max (sq s.nvs.nrgA) (sq s.nvs.nrgB) + 1, pts, true⟩
    let s : State := { s with nrg := { s.nrg with savedSec := secOf qe } }
    if sq s.nvs.nrgA ≤ sq s.nvs.nrgB then { s with nvs := { s.nvs with nrgA := some v } } else { s with nvs := { s.nvs with nrgB := some v } }
  else s

/-- The end of quantum q of a point (R348, R361): energies, then the interval's boundary, then a snapshot, then a preset. -/
def State.quantum (s : State) (p q : Nat) : State :=
  let f0 := s.ptF0 p
  let qs := instantTime q f0
  let qe := instantTime (q + 1) f0
  let s := s.ivOpen p qs
  let s := if s.metered p q then s.meter p q else s.unmeter p q
  let s := s.setNrgPt p { s.nrgPt p with lastQ := some (f0, q) }
  let s := s.ivClose p qe
  let s := (s.snapTake p qe).presetTake p qe
  -- an applied preset flags the interval that is now in progress
  let v := s.nrgPt p
  let s := if v.preFlag then s.setNrgPt p { orFlags v 0x40 with preFlag := false } else s
  s.nrgPersist qe

/-- The quantum whose end comes next: after the last one while the point meters, else the one that ended last. -/
def State.dueQuantum (s : State) (p : Nat) : Nat :=
  let f0 := s.ptF0 p
  let ended := s.now * f0 / second - 1
  match (s.nrgPt p).lastQ with
  | some (f, q) => if f = f0 ∧ s.clocked p = true ∧ (s.acqPt p).filled.isSome = true then q + 1 else ended
  | none => ended

/-- The samples and the estimator window of quantum q are there, or it is not going to be metered. -/
def State.quantReady (s : State) (p q : Nat) : Bool :=
  let f0 := s.ptF0 p
  if s.metered p q then
    let tc := instantTime (2 * q + 1) (2 * f0)
    match (s.acqPt p).hist with
    | x :: _ => decide ((tc + second / f0 + estDelta f0) * s.ptRate p / second ≤ x.n)
    | [] => false
  else true

/-- The row QUANTUM_END. With no point enabled no quantum ends, and a whole second still writes the registers (R366). -/
def execQuantumEnd (pt : Fin 2) (t : Time) (s : State) : Res :=
  let s := s.advance t
  let p := pt.val
  let q := s.dueQuantum p
  .next (if (List.range 2).any s.ptOn = false then s.nrgPersist (secOf s.now * second)
    else if s.ptOn p && (s.nrgPt p).lastQ != some (s.ptF0 p, q) && decide (instantTime (q + 1) (s.ptF0 p) ≤ s.now) && s.quantReady p q
    then s.quantum p q else s)

/-- A request for a snapshot; one that is pending stands. -/
def State.snapWrite (s : State) (w : Word) : State :=
  if w.getLsbD 0 && s.rd Reg.NRG_SNAP_STATUS [] != 1 then
    let s := s.wr Reg.NRG_SNAP_STATUS [] 1
    let s : State := { s with nrg := { s.nrg with snapAt := s.now } }
    forEach [0, 1] (fun p a => if a.ptOn p then a.setNrgPt p { a.nrgPt p with snapDue := some a.now } else a) s
  else s

/-- The row NRG_SNAP. -/
def execNrgSnap (w : Word) (s : State) : Res := .next (s.hostGate (Reg.NRG_SNAP_GO.off []) w fun a => a.snapWrite w)

/-- The row SNAP_DONE: with no point enabled a pending snapshot is done at the next whole second. -/
def execSnapDone (t : Time) (s : State) : Res :=
  let s := s.advance t
  .next (if s.rd Reg.NRG_SNAP_STATUS [] = 1 ∧ s.ptOn 0 = false ∧ s.ptOn 1 = false ∧ t % second = 0 ∧ s.nrg.snapAt < t then
    (s.wr Reg.NRG_SNAP_STATUS [] 2).notice bNRG 1 0 0 0
  else s)

/-- A write of PRE_IDX. A request is refused outside SERVICE; one that is pending stands. -/
def State.presetWrite (s : State) (p : Nat) (w : Word) : State :=
  let pending := s.rd Reg.NRG_PT_PRE_IDX_STATUS [p] == 1
  let s := (s.store (Reg.NRG_PT_PRE_IDX_GO.off [p]) w).setFlag Reg.NRG_PT_PRE_IDX_GO [p] false
  if !w.getLsbD 31 || pending then s
  else if s.mode ≠ .service then (s.wr Reg.NRG_PT_PRE_IDX_STATUS [p] 3).notice bNRG 8 (32 * p + w.toNat % 32) 0 3
  else (s.wr Reg.NRG_PT_PRE_IDX_STATUS [p] 1).setNrgPt p
    { s.nrgPt p with preset := some (w.toNat % 32, s.rd64 Reg.NRG_PT_PRE_VAL [p], s.now) }

/-- The row NRG_PRESET. -/
def execNrgPreset (pt : Fin 2) (w : Word) (s : State) : Res :=
  .next (s.hostGate (Reg.NRG_PT_PRE_IDX_GO.off [pt.val]) w fun a => a.presetWrite pt.val w)

/-! ### Supply events (R362 to R365) -/

def State.sagPct (s : State) (p : Nat) : Nat := clampN 2 99 (s.rd Reg.NRG_PT_THR_SAG_PCT [p])
def State.swellPct (s : State) (p : Nat) : Nat := clampN 101 200 (s.rd Reg.NRG_PT_THR_SWELL_PCT [p])
def State.intPct (s : State) (p : Nat) : Nat := clampN 1 (s.sagPct p - 1) (s.rd Reg.NRG_PT_THR_INT_PCT [p])
def State.pqHyst (s : State) (p : Nat) : Nat := clampN 1 100 (s.rd Reg.NRG_PT_THR_HYST [p])

/-- Is a value below (or above) a number of tenths of a percent of U_din? -/
def belowPm (v udin : Word) (pm : Nat) : Bool := F32.isFinite v && decide (F32.units v * 1000 < F32.units udin * pm)
def abovePm (v udin : Word) (pm : Nat) : Bool := F32.isFinite v && decide (F32.units udin * pm < F32.units v * 1000)

/-- A supply event's type in NRG_PT_SAGS, SWELLS and INTRS. -/
def pqCount (typ : Nat) : Fld := if typ = 0 then Reg.NRG_PT_SAGS else if typ = 1 then Reg.NRG_PT_SWELLS else Reg.NRG_PT_INTRS

/-- A supply event begins (R364): counted, shown, logged, and its start record offered. -/
def State.pqStart (s : State) (p typ : Nat) (t : Time) (e : PqEv) : State :=
  let v := s.nrgPt p
  let one (b : Bool) (n : Nat) : Nat := if b then n + 1 else n
  let v := { v with evs := sset v.evs typ e
                    iv := v.iv.map fun (a : IvAcc) => { a with flags := a.flags ||| 0x200, sags := one (typ == 0) a.sags
                                                               swells := one (typ == 1) a.swells, intrs := one (typ == 2) a.intrs } }
  -- an interruption lies inside a sag (R363)
  let v := if typ = 2 then { v with evs := v.evs.map fun x => if x.1 = 0 then (0, { x.2 with nested := true }) else x } else v
  let s := ((s.setNrgPt p v).inc (pqCount typ) [p]).setFlag (pqBit typ) [p] true
  let u : Word := BitVec.ofNat 32 (s.rd Reg.NRG_PT_UDIN [p])
  (s.nrgOffer p 2 (pqRecord p s.pqFlags typ u { e with start := t } none)).notice bNRG (4 + typ) p typ 0

/-- The lowest or highest of some channel values, with its channel. -/
def extreme (low : Bool) (xs : List (Nat × Word)) : Nat × Word :=
  match xs with
  | [] => (0, F32.nan)
  | x :: r => r.foldl (fun a y => if (if low then F32.lt y.2 a.2 else F32.lt a.2 y.2) then y else a) x

/-- One type of event judged over the latest values of the channels that take part. -/
def State.pqJudge (s : State) (p typ : Nat) (t : Time) (xs : List (Nat × Word)) : State :=
  let u : Word := BitVec.ofNat 32 (s.rd Reg.NRG_PT_UDIN [p])
  let h := s.pqHyst p
  let pm := 10 * (if typ = 0 then s.sagPct p else if typ = 1 then s.swellPct p else s.intPct p)
  let crossed := (xs.filter fun x => if typ = 1 then abovePm x.2 u pm else belowPm x.2 u pm).map (·.1)
  let begins := if typ = 2 then xs.all fun x => belowPm x.2 u pm else !crossed.isEmpty
  let ends := if typ = 0 then xs.all fun x => !belowPm x.2 u (pm + h)
    else if typ = 1 then xs.all fun x => !abovePm x.2 u (pm - h)
    else xs.any fun x => !belowPm x.2 u (pm + h)
  let ext := extreme (typ != 1) xs
  let v := s.nrgPt p
  match sfind v.evs typ with
  | none => if begins then
      s.pqStart p typ t ⟨t, phMask crossed, ext.2, ext.1, typ == 0 && (sfind v.evs 2).isSome⟩ else s
  | some e =>
    if ends then s.pqEnd p typ t 0
    else
      let more := if typ = 1 then F32.lt e.ext ext.2 else F32.lt ext.2 e.ext
      let e2 : PqEv := { e with chs := e.chs ||| phMask crossed, ext := if more then ext.2 else e.ext, extCh := if more then ext.1 else e.extCh }
      s.setNrgPt p { v with evs := sset v.evs typ e2 }

/-- The earliest stamp of some values. -/
def firstStamp (due : List (Time × Nat × Word)) : Option Time :=
  due.foldl (fun (a : Option Time) x => match a with | some t => some (min t x.1) | none => some x.1) none

/-- The values of one stamp are judged together (R363); faulted channels take no part. -/
def State.judgeStamp (s : State) (p : Nat) (st : Time) : State :=
  let v := s.nrgPt p
  let urms := (v.due.filter fun x => x.1 == st).foldl (fun a x => sset a x.2.1 x.2.2) v.urms
  let s := s.setNrgPt p { v with urms := urms, due := v.due.filter fun x => x.1 != st }
  let xs := urms.filter fun x => !s.inFault p x.1
  if xs.isEmpty then s else forEach [0, 1, 2] (fun typ a => a.pqJudge p typ st xs) s

/-- The row URMS_HALF_VALUE: of the windows that have ended, those of the earliest stamp are judged; a row that names another
stamp finds nothing to judge. With UDIN = 0.0 detection is off and the values are let go. -/
def execUrmsHalfValue (pt : Fin 2) (stamp t : Time) (s : State) : Res :=
  let s := s.advance t
  let p := pt.val
  .next (if F32.isZero (BitVec.ofNat 32 (s.rd Reg.NRG_PT_UDIN [p])) then s.setNrgPt p { s.nrgPt p with due := [] }
    else if firstStamp (s.nrgPt p).due = some stamp ∧ s.clocked p then s.judgeStamp p stamp
    else s)

end Sys2Proof.Machine
end

