-- ==== Sys2Proof/Machine/Strongroom.lean ====
section
/-! DEFINITION. The Strongroom (R439 to R467): derivation, slots and their load, the letterbox commands of TARGET 0x11,
authorisation, the counter table, and the service authorisation of R529. -/
namespace Sys2Proof.Machine

/-! ### Derivation (R440, R442, R452) -/

def ascii (t : String) : List Byte := t.toList.map fun c => BitVec.ofNat 8 c.toNat

/-- The first `k` of the blocks K(i), K(i+1), ... of the counter-mode KDF. -/
def kdfBlocks (key label ctx : List Byte) (bits i : Nat) : Nat → List Byte
  | 0 => []
  | k + 1 => hmac384 key (beBytes 4 i ++ label ++ [0#8] ++ ctx ++ beBytes 4 bits) ++ kdfBlocks key label ctx bits (i + 1) k

/-- The counter-mode KDF of R452, giving a number of bytes. -/
def kdf (key label ctx : List Byte) (len : Nat) : List Byte :=
  (kdfBlocks key label ctx (8 * len) 1 (ceilDiv len 48)).take len

/-- SERIAL as KEY_SERIAL shows it, low word first. -/
def State.serialBytes (s : State) : List Byte := leBytes 16 s.key.serial

/-- The order of P-384 (FIPS 186-5). -/
def p384n : Nat := 0xffffffffffffffffffffffffffffffffffffffffffffffffc7634d81f4372ddf581a0db248b0a77aecec196accc52973

/-- The identity scalar, big-endian: (c mod (n − 1)) + 1 (R440). -/
def State.identity (s : State) : List Byte :=
  beBytes 48 (ofBe (kdf Config.rootSecret (ascii "GRV7160 IDENTITY") s.serialBytes 56) % (p384n - 1) + 1)

/-- The context byte of the storage roots of a life-cycle state (R440). -/
def rootOf (lc : Nat) : Nat := if lc = 1 then 1 else 2

/-! ### Slots (R443 to R446, R457) -/

/-- A new physical slot is taken: the lowest free one that is not bad; none where there is none (R457). -/
def State.newPhys (s : State) : Option Nat := s.spareSlots.head?

/-- Put material in place for a logical slot (R457): the new physical slot is written and verified, the journal flips to the new
entry, the old physical slot is zeroised and freed, and the cache is loaded. Its counters start anew. -/
def State.install (s : State) (n p : Nat) (e : CatEnt) (m : PhysSlot) (spdu : Nat) : State :=
  let s := s.zeroiseSlot n
  let gen := ((s.cat n).gen + 1) % 65536
  let s : State := { s with key := { s.key with
                              phys := sset s.key.phys p { m with owner := n, gen := gen }
                              cache := sset s.key.cache n ⟨gen, m.mat, m.pub⟩ } }
  let s : State := { s with key := { s.key with run := sset s.key.run n { run0 with spdu := spdu, spduRes := spdu } } }
  ((s.nextJournal).setCat n { e with gen := gen, phys := p }).reserve n

/-- An update that is cut off (R458): nothing stands of a spare being written; an open record names the spare that holds the new
material, and after the commit the new entry is its. -/
def State.installCut (s : State) (n p : Nat) (e : CatEnt) (m : PhysSlot) (spdu : Nat) (c : MramCut) : State :=
  let gen := ((s.cat n).gen + 1) % 65536
  let r (done : Bool) : JRec := .key s.nvs.jseq done n (s.cat n).phys p { e with gen := gen, phys := p }
  let spare : State := { s with key := { s.key with phys := sset s.key.phys p { m with owner := n, gen := gen } } }
  match c with
  | .writing => s
  | .opened => (spare.nextJournal).leaveOpen (r false)
  | .committed => (spare.nextJournal).leaveOpen (r true)
  | .flipped => (s.install n p e m spdu).leaveOpen (r true)

/-- A slot fails its TAG or its unwrap (R446): unusable, out of the cache, its physical slot marked bad. -/
def State.badSlot (s : State) (n : Nat) : State :=
  let e := s.cat n
  let bad := if s.key.bad.contains e.phys then s.key.bad else s.key.bad ++ [e.phys]
  let s : State := { s with key := { s.key with cache := serase s.key.cache n, bad := bad } }
  ((s.inc Reg.KEY_TAGFAIL_COUNT []).setCat n { e with state := 3 }).notice bKEY 0 n e.phys 0

/-- Load a live slot into the cache, checking its TAG and its unwrap under the present roots (R446). The identity is derived,
not loaded. -/
def State.loadSlot (s : State) (n : Nat) : State :=
  let e := s.cat n
  if e.state ≠ 1 then s
  else if n = 0 then
    let d := s.identity
    { s with key := { s.key with cache := sset s.key.cache 0 ⟨e.gen, d, ecPublic d⟩ } }
  else match sfind s.key.phys e.phys with
    | some m =>
      if m.ok ∧ m.root = rootOf (s.rd Reg.KEY_LC_STATE []) ∧ m.owner = n ∧ m.gen = e.gen then
        { s with key := { s.key with cache := sset s.key.cache n ⟨e.gen, m.mat, m.pub⟩ } }
      else s.badSlot n
    | none => s.badSlot n

/-- Load every live slot. -/
def State.loadSlots (s : State) : State := forEach (s.key.cat.map (·.1)) (fun n a => a.loadSlot n) s

/-! ### Parents (R453, R454) -/

/-- Is `a` slot `n` or one of its descendants? Depth is at most 4. -/
def State.under (s : State) (n a : Nat) : Nat → Bool
  | 0 => a == n
  | k + 1 => a == n || (match (s.cat a).parent with | some p => s.under n p k | none => false)

/-- A slot and its descendants that hold an entry. -/
def State.family (s : State) (n : Nat) : List Nat :=
  (s.key.cat.filter fun e => e.2.state != 0 && s.under n e.1 5).map (·.1)

/-- How strict an EXP code is (R449). -/
def expRank (e : Nat) : Nat := if e = 0 then 0 else if e = 2 then 1 else 2

/-- USE bits a KTYPE allows (R447): FRANK 1, SIGN_RG 2, DERIVE 4, UNWRAP 8, SEAL 16, VERIFY 32. -/
def useAllowed (kt : Nat) : Nat := nth [0, 3, 11, 3, 4, 16, 32] kt 0

def subsetBits (a b : Nat) : Bool := (List.range 16).all fun i => a / 2 ^ i % 2 == 0 || b / 2 ^ i % 2 == 1

/-- Bytes of material a KTYPE takes (R445, R447). -/
def matOk (kt len : Nat) : Bool :=
  if kt = 1 then len == 16 else if kt = 2 then len == 32
  else if kt = 3 then [16, 24, 32, 40, 48].contains len else if kt = 4 then len == 32 || len == 48 else false

/-! ### Authorisation (R442) -/

/-- A new challenge: the counter is incremented and written first. -/
def State.newChallenge (s : State) : State × List Byte :=
  let c := (s.key.chalCtr + 1) % 2 ^ 64
  let bytes := kdf Config.rootSecret (ascii "GRV7160 CHALLENGE") (beBytes 8 c) 32
  let s : State := { s with key := { s.key with chalCtr := c, chal := some (bytes, s.now) } }
  -- it replaces any earlier challenge, and the authorisation that rests on it (R442, R529)
  (if s.rd Reg.STRT_SVC_AUTH_STAT [] = 1 then s.wr Reg.STRT_SVC_AUTH_STAT [] 3 else s, bytes)

/-- The public key of slot 1, while it is live. -/
def State.ownerKey (s : State) : Option (List Byte) :=
  if (s.cat 1).state = 1 ∧ s.keyPast 1 = false ∧ (s.cat 1).use / 32 % 2 = 1 then (sfind s.key.cache 1).map (·.pub) else none

/-- The key that verifies Manifests, authorisations in TEST and SCRAP (R440, R441). -/
def State.verifyKey (s : State) : Option (List Byte) :=
  if s.rd Reg.KEY_LC_STATE [] = 1 then some Config.testKey else s.ownerKey

/-- Does a signature authorise an opcode, its parameters and the rest of its buffer under the challenge in force? -/
def State.authOk (s : State) (key : Option (List Byte)) (op : Nat) (params : List Nat) (buf sig : List Byte) : Bool :=
  match key, s.key.chal with
  | some k, some (c, t) => decide (s.now < t + 60 * second) && sig.length == 96 &&
      ecdsaVerify k (ascii "GRV7160 AUTH" ++ s.serialBytes ++ c ++ leBytes 1 op ++
        (List.range 11).flatMap (fun i => leBytes 4 (nth params i 0)) ++ buf) sig
  | _, _ => false

/-- A challenge serves one authorised command. -/
def State.spendChallenge (s : State) : State := { s with key := { s.key with chal := none } }

/-! ### Answers (R456) -/

/-- STATUS of a KCODE. -/
def kStatus (k : Nat) : Nat := nth [0, 4, 2, 2, 2, 2, 0, 2, 2, 2, 3, 5] k 2

def kAns (k slot gen len : Nat) : LbAns := .done (kStatus k) len (leBytes 4 k ++ leBytes 4 slot ++ leBytes 4 gen)

/-- Modes of R456: A for a slot, B, S. A wrong mode completes with STATUS 3 and no result. -/
def State.keyModeB (s : State) : Bool :=
  match s.mode with | .watch | .standby | .active | .degraded | .service => true | _ => false
def State.keyModeA (s : State) (slot : Nat) : Bool := if slot < 3 then s.mode == .service else s.keyModeB

/-- The attributes a command gives a slot. -/
def keyAttr (c : LbCmd) : CatEnt :=
  let w0 := lbW c 0
  { state := 1, ktype := w0 / 2 ^ 16 % 16, parent := some (w0 / 256 % 256), depth := 0, exp := w0 / 2 ^ 20 % 4, phys := 0
    keyid := lbW c 1, gen := 0, use := lbW c 2 % 65536, notAfter := lbW c 3 + 2 ^ 32 * (lbW c 4 % 65536), useLimit := lbW c 5, ok := true }

def lbSlot (c : LbCmd) : Nat := lbW c 0 % 256

/-- The KCODE that bars new material from a slot, or 0 (R453, R456): parent, cycle and depth, attributes, key ID; and an update of slot 1
by a command that carries no signature. Which code answers where several checks fail is the model's choice (log entry 98). -/
def State.childCode (s : State) (n : Nat) (e : CatEnt) (useBit : Nat) : Nat :=
  let p := e.parent.getD 0
  let pe := s.cat p
  let held := s.key.cat.any fun x => x.1 != n && x.2.state != 0 && x.2.keyid == e.keyid && x.2.use % 4 != 0
  if n = 0 then 4
  else if e.parent.isSome ∧ (pe.state ≠ 1 ∨ pe.use / 2 ^ useBit % 2 = 0) then 2
  else if e.parent.isSome ∧ (s.under n p 5 = true ∨ (3 ≤ n ∧ 4 < pe.depth + 1)) then 8
  else if e.ktype = 0 ∨ e.ktype = 5 ∨ 6 < e.ktype ∨ subsetBits e.use (useAllowed e.ktype) = false then 4
  else if e.parent.isSome ∧ pe.notAfter ≠ 0 ∧ (e.notAfter = 0 ∨ pe.notAfter < e.notAfter) then 4
  else if e.parent.isSome ∧ expRank e.exp < expRank pe.exp then 4
  else if e.keyid = 0 ∨ held = true then 5
  else if n = 1 ∧ e.parent.isSome ∧ (s.cat 1).state ≠ 0 then 7
  else 0

/-- The entry as it is written: its depth (R453). -/
def State.withDepth (s : State) (n : Nat) (e : CatEnt) : CatEnt :=
  { e with depth := match e.parent with | some p => if n < 3 then 0 else (s.cat p).depth + 1 | none => 0 }

/-- A physical slot whose read-back failed is marked bad, and counts as a failure of its TAG or unwrap (R457, R465). -/
def State.markBad (s : State) (n p : Nat) : State :=
  (({ s with key := { s.key with bad := s.key.bad ++ [p] } } : State).inc Reg.KEY_TAGFAIL_COUNT []).showKeyStat.notice bKEY 0 n p 0

/-- The attempts of R457 to write one of the spares given: one whose read-back fails is marked bad and the next is tried. -/
def State.takeSpare (s : State) (n : Nat) (bad : List Nat) : List Nat → State × Option Nat
  | [] => (s, none)
  | p :: r => if bad.contains p then (s.markBad n p).takeSpare n bad r else (s, some p)

/-- Write the slot (R457), or answer KCODE 6 where no spare physical slot takes it. -/
def State.putKey (s : State) (n : Nat) (e : CatEnt) (root : Nat) (mat pub label ctx : List Byte) (spdu : Nat) (b : HostBuf) :
    State × LbAns :=
  match s.takeSpare n b.bad (s.spareSlots.take 2) with
  | (s, none) => (s, kAns 6 n 0 0)
  | (s, some p) =>
    let m : PhysSlot := ⟨e.ktype, e.keyid, n, 0, pub, mat, label, ctx, root, true⟩
    match b.cut with
    | some c => ((s.installCut n p (s.withDepth n e) m spdu c).setFlag Reg.KEY_STAT_BUSY [] true, .engine)
    | none =>
      let s := s.install n p (s.withDepth n e) m spdu
      (s, kAns 0 n (s.cat n).gen 0)

def State.root (s : State) : Nat := rootOf (s.rd Reg.KEY_LC_STATE [])

/-! ### IMPORT and DERIVE -/

/-- IMPORT of a public key, KTYPE 6: the key, then the signature of the slot 1 key, of the test key in TEST (R456). It is not
wrapped and names no parent. R456 names the key for an update of slot 1 only; the verifying key for the others is a choice (log entry 98). -/
def State.importPub (s : State) (c : LbCmd) (b : HostBuf) : State × LbAns :=
  let n := lbSlot c
  let e := { keyAttr c with parent := none }
  let code := s.childCode n e 3
  let data := b.data.take c.len
  -- an update of slot 1 needs the present slot 1 key
  let key := if n = 1 ∧ (s.cat 1).state = 1 then s.ownerKey else s.verifyKey
  if code ≠ 0 then (s, kAns code n 0 0)
  else if b.err ∨ data.length ≠ 192 then (s, kAns 11 n 0 0)
  else if s.authOk key 1 c.param (data.take 96) (data.drop 96) = false then (s, kAns 7 n 0 0)
  else s.spendChallenge.putKey n e s.root [] (data.take 96) [] [] (lbW c 6) b

/-- IMPORT of wrapped material (R456). -/
def State.importKey (s : State) (c : LbCmd) (b : HostBuf) : State × LbAns :=
  let n := lbSlot c
  let e := keyAttr c
  let p := e.parent.getD 0
  let s := s.expireNow p
  let code := s.childCode n e 3
  if code ≠ 0 then (s, kAns code n 0 0)
  else if b.err then (s, kAns 11 n 0 0)
  else if s.newPhys.isNone then (s, kAns 6 n 0 0)
  else match s.useSlot p 3 with
    | (s, none) => (s, kAns 2 n 0 0)
    | (s, some kek) =>
      match keyUnwrap kek (b.data.take c.len) with
      | none => (s, kAns 3 n 0 0)
      | some m => if matOk e.ktype m.length then s.putKey n e s.root m [] [] [] (lbW c 6) b else (s, kAns 4 n 0 0)

/-- The row IMPORT (R456). -/
def execLbImport (m : Fin 16) (c : LbCmd) (b : HostBuf) (s : State) : Res :=
  .next (s.lbRun m.val 0x11 1 c fun _ a =>
    if a.keyModeA (lbSlot c) = false then (a, .done 3 0 [])
    else if a.journalBusy 2 then (a, .wait)
    else if (keyAttr c).ktype = 6 then a.importPub c b else a.importKey c b)

/-- DERIVE (R452): a child of a parent by the KDF with the label and context of the buffer. -/
def State.deriveKey (s : State) (c : LbCmd) (b : HostBuf) : State × LbAns :=
  let n := lbSlot c
  let e := keyAttr c
  let p := e.parent.getD 0
  let data := b.data.take c.len
  let ll := leAt data 0 1
  let cl := leAt data 1 1
  let s := s.expireNow p
  let code := s.childCode n e 2
  if code ≠ 0 then (s, kAns code n 0 0)
  else if b.err ∨ data.length < 4 + ll + cl then (s, kAns 11 n 0 0)
  else if e.ktype = 6 ∨ 32 < ll ∨ 64 < cl then (s, kAns 4 n 0 0)
  else if s.newPhys.isNone then (s, kAns 6 n 0 0)
  else match s.useSlot p 2 with
    | (s, none) => (s, kAns 2 n 0 0)
    | (s, some k) =>
      let label := (data.drop 4).take ll
      let ctx := (data.drop (4 + ll)).take cl
      let len := if e.ktype = 1 then 16 else if e.ktype = 2 then 32 else Config.deriveLen e.ktype
      s.putKey n e s.root (kdf k label ctx len) [] label ctx (lbW c 6) b

/-- The row DERIVE (R452, R456). -/
def execDerive (m : Fin 16) (c : LbCmd) (b : HostBuf) (s : State) : Res :=
  .next (s.lbRun m.val 0x11 2 c fun _ a =>
    if a.keyModeA (lbSlot c) = false then (a, .done 3 0 []) else if a.journalBusy 2 then (a, .wait) else a.deriveKey c b)

/-! ### INVALIDATE and DELETE -/

/-- A slot and its descendants go invalid in one transaction, zeroised in cache and MRAM (R454). -/
def State.invalidateFamily (s : State) (n : Nat) : State × Nat :=
  let ns := (s.family n).filter fun a => (s.cat a).state != 2
  let t := forEach ns (fun a x => (x.zeroiseSlot a).setCat a { x.cat a with state := 2 }) s
  (if ns.isEmpty then t else t.notice bKEY 1 n ns.length 0, ns.length)

/-- The row INVALIDATE (R454, R456). -/
def execInvalidate (m : Fin 16) (c : LbCmd) (_b : HostBuf) (s : State) : Res :=
  .next (s.lbRun m.val 0x11 3 c fun _ a =>
    if a.keyModeA (lbSlot c) = false then (a, .done 3 0 [])
    else if a.journalBusy 2 then (a, .wait)
    else
      let (a, k) := a.invalidateFamily (lbSlot c)
      (a, kAns 0 (lbSlot c) k 0))

/-- DELETE (R456): the entry becomes empty and its physical slot is zeroised; its update count GEN
stays, on which the spec is silent (log entry 98). -/
def State.deleteSlot (s : State) (n : Nat) : State × LbAns :=
  let e := s.cat n
  if n = 0 then (s, kAns 4 n 0 0)
  else if e.state = 1 ∧ 1 < (s.family n).length then (s, kAns 9 n 0 0)
  else
    let s := s.zeroiseSlot n
    let s : State := { s with key := { s.key with run := serase s.key.run n } }
    (s.setCat n { cat0 with gen := e.gen }, kAns 0 n e.gen 0)

/-- The row DELETE. -/
def execLbDelete (m : Fin 16) (c : LbCmd) (_b : HostBuf) (s : State) : Res :=
  .next (s.lbRun m.val 0x11 4 c fun _ a => if a.keyModeA (lbSlot c) = false then (a, .done 3 0 [])
    else if a.journalBusy 2 then (a, .wait) else a.deleteSlot (lbSlot c))

/-! ### SEAL, GET_CERT and GET_CHALLENGE -/

/-- Bytes 0x000 to 0x13F of the Seal statement (R461). -/
def State.sealBody (s : State) (nonce : List Byte) : List Byte :=
  let f (b : Bool) (i : Nat) : Nat := if b then 2 ^ i else 0
  let flags := f (s.flag Reg.KEY_LC_DEBUG_OPEN []) 0 + f (s.flag Reg.GLB_MODE_PAIRED []) 1 + f s.activeRole 2 +
    f (s.flag Reg.GLB_MODE_TEST []) 3 + f (s.rd Reg.TB_STAT_STATE [] != 2) 4 + f s.key.ctrLost 5
  let views := (List.range 256).flatMap fun n => s.regBytes (0x111000 + 32 * n) 6
  ascii "SEAL" ++ leBytes 2 1 ++ leBytes 2 416 ++ wordBytes (s.word 0) ++ s.serialBytes ++
    leBytes 1 (s.rd Reg.KEY_LC_STATE []) ++ leBytes 1 (s.rd Reg.GLB_MODE_CUR []) ++ leBytes 1 flags ++ leBytes 1 0 ++
    leBytes 6 (secOf s.now) ++ leBytes 4 (nsOf s.now) ++ leBytes 2 0 ++ leBytes 4 s.uncNow ++ padTo 32 nonce ++
    s.regBytes 0x10020 12 ++ leBytes 4 (s.rd Reg.STRT_MVER_MVER []) ++ leBytes 4 0 ++ padTo 48 s.strt.fuseHash ++
    padTo 48 (sha384 views) ++ leBytes 4 (s.rd Reg.STRT_COLD_COUNT []) ++ leBytes 4 (s.rd Reg.STRT_WARM_COUNT []) ++
    leBytes 4 (s.rd Reg.KEY_SEALSEQ_COUNT []) ++ List.replicate 12 0 ++
    padTo 48 (sha384 (((sfind s.key.cache 0).map (·.pub)).getD [])) ++ List.replicate 16 0

/-- The row SEAL (R461, R462): each statement is one use of slot 0. -/
def execSeal (m : Fin 16) (c : LbCmd) (b : HostBuf) (s : State) : Res :=
  .next (s.lbRun m.val 0x11 5 c fun _ a =>
    if a.keyModeB = false then (a, .done 3 0 [])
    else if b.err ∨ c.len < 416 then (a, kAns 11 0 0 0)
    else match a.useSlot 0 4 with
      | (a, none) => (a, kAns 2 0 0 0)
      | (a, some d) =>
        let a := a.inc Reg.KEY_SEALSEQ_COUNT []
        let body := a.sealBody ((List.range 8).flatMap fun i => leBytes 4 (lbW c i))
        (a.emit (.hostWrite c.addr (body ++ padTo 96 (ecdsaSign d body))), kAns 0 0 (a.cat 0).gen 416))

/-- The row GET_CERT (R443, R456). -/
def execGetCert (m : Fin 16) (c : LbCmd) (b : HostBuf) (s : State) : Res :=
  .next (s.lbRun m.val 0x11 6 c fun _ a =>
    if a.keyModeB = false then (a, .done 3 0 [])
    else if b.err ∨ c.len < Config.certChain.length then (a, kAns 11 0 0 0)
    else (a.emit (.hostWrite c.addr Config.certChain), kAns 0 0 (a.cat 0).gen Config.certChain.length))

/-- The row GET_CHALLENGE (R442). -/
def execGetChallenge (m : Fin 16) (c : LbCmd) (b : HostBuf) (s : State) : Res :=
  .next (s.lbRun m.val 0x11 7 c fun _ a =>
    if a.keyModeB = false then (a, .done 3 0 [])
    else if b.err ∨ c.len < 32 then (a, kAns 11 0 0 0)
    else
      let (a, bytes) := a.newChallenge
      (a.emit (.hostWrite c.addr bytes), kAns 0 0 (a.cat 0).gen 32))

/-! ### Life-cycle moves (R441) -/

/-- Erase slots: their entries, material and counters. -/
def State.eraseSlots (s : State) (ns : List Nat) : State :=
  forEach ns (fun n a =>
    let a := a.zeroiseSlot n
    let a : State := { a with key := { a.key with run := serase a.key.run n } }
    a.setCat n cat0) s

/-- Both copies of the counter table are empty. -/
def State.eraseCounters (s : State) : State :=
  { s with key := { s.key with ctrA := { s.key.ctrA with ents := [] }, ctrB := { s.key.ctrB with ents := [] } } }

/-- A life-cycle fuse is burned; the new state takes effect at the next start. -/
def State.burn (s : State) (lc : Nat) : State :=
  ({ s with key := { s.key with fuse := lc } } : State).notice bKEY 5 0 lc 0

/-- A life-cycle command: its mode, state, buffer and authorisation, then its work, after which the fuse is burned last, unless the
supply is lost before (R441); `need` is its buffer's length. -/
def State.lcMove (s : State) (op need : Nat) (c : LbCmd) (b : HostBuf) (allowed : Bool) (key : Option (List Byte))
    (lc : Nat) (f : List Byte → State → State × Bool) : State × LbAns :=
  let data := b.data.take c.len
  if s.mode ≠ .service then (s, .done 3 0 [])
  else if allowed = false then (s, kAns 10 0 0 0)
  else if b.err ∨ data.length ≠ need then (s, kAns 11 0 0 0)
  else if s.authOk key op c.param (data.take (need - 96)) (data.drop (need - 96)) = false then (s, kAns 7 0 0 0)
  else
    match f data s.spendChallenge with
    | (s, false) => (s, kAns 6 0 0 0)
    | (s, true) => if b.cut.isSome then (s, .engine) else (s.burn lc, kAns 0 0 0 0)

/-- The owner's keys, wrapped under the roots of OWNED: the Manifest key in slot 1, the secret in slot 2. The fuse is burned
once both are in place; a command that is cut off has erased and installed nothing. -/
def State.takeOwner (s : State) (data : List Byte) (b : HostBuf) : State × Bool :=
  let s := (s.eraseSlots ((s.key.cat.map (·.1)).filter (· != 0))).eraseCounters
  if b.cut.isSome then (s, true)
  else
    let put (a : State) (n kt use : Nat) (mat pub : List Byte) : State :=
      (a.putKey n { cat0 with state := 1, ktype := kt, use := use } 2 mat pub [] [] 0 b).1
    let s := put (put s 1 6 32 [] (data.take 96)) 2 4 4 ((data.drop 96).take 32) []
    (s, (s.cat 1).state == 1 && (s.cat 2).state == 1)

/-- The row TAKE_OWNERSHIP: TEST to OWNED, authorised by the test key. -/
def execTakeOwnership (m : Fin 16) (c : LbCmd) (b : HostBuf) (s : State) : Res :=
  .next (s.lbRun m.val 0x11 8 c fun _ a =>
    a.lcMove 8 224 c b (a.rd Reg.KEY_LC_STATE [] == 1 && a.key.fuse == 1) (some Config.testKey) 2 fun d x => x.takeOwner d b)

/-- The row LOCK: OWNED to LOCKED, authorised by the slot 1 key. -/
def execLbLock (m : Fin 16) (c : LbCmd) (b : HostBuf) (s : State) : Res :=
  .next (s.lbRun m.val 0x11 9 c fun _ a =>
    a.lcMove 9 96 c b (a.rd Reg.KEY_LC_STATE [] == 2 && a.key.fuse == 2) a.ownerKey 3 fun _ x => (x, true))

/-- Every physical slot, the catalogue and the counter table are zeroised (R441). -/
def State.scrapAll (s : State) : State :=
  let s := (s.eraseSlots (s.key.cat.map (·.1))).eraseCounters
  ({ s with key := { s.key with phys := [], cache := [], run := [] } } : State).showKeyStat

/-- The row SCRAP: authorised by the slot 1 key, or by the test key in TEST. -/
def execScrap (m : Fin 16) (c : LbCmd) (b : HostBuf) (s : State) : Res :=
  .next (s.lbRun m.val 0x11 10 c fun _ a =>
    let lc := a.rd Reg.KEY_LC_STATE []
    let key := if lc = 1 then (match a.ownerKey with | some k => some k | none => some Config.testKey) else a.ownerKey
    let key := if lc = 1 ∧ a.authOk key 10 c.param [] ((b.data.take c.len).take 96) = false then some Config.testKey else key
    a.lcMove 10 96 c b (decide (1 ≤ lc ∧ lc ≤ 3) && a.key.fuse != 4) key 4 fun _ x => (x.scrapAll, true))

/-! ### Expiry and counters (R448, R450, R451) -/

/-- The row KEY_EXPIRY (R448). -/
def execKeyExpiry (slot : Fin 256) (t : Time) (s : State) : Res :=
  let s := s.advance t
  .next (if s.powered then s.expireNow slot.val else s)

/-- The counters as the table holds them. -/
def State.ctrEntries (s : State) : List (Nat × (Nat × Nat × Nat)) :=
  s.key.run.map fun e => (e.1, (e.2.useRes, e.2.spduRes, e.2.rxHigh))

/-- Write the older copy of the counter table (R451, R470). -/
def State.writeCounters (s : State) : State :=
  let a := s.key.ctrA
  let b := s.key.ctrB
  if newerIsA a.ok b.ok a.seq b.seq then
    { s with key := { s.key with ctrB := ⟨(a.seq + 1) % 2 ^ 32, s.ctrEntries, true⟩ } }
  else { s with key := { s.key with ctrA := ⟨(b.seq + 1) % 2 ^ 32, s.ctrEntries, true⟩ } }

/-- The row RESERVE_WRITE_DONE (R450): the raised reserves are in the counter table. -/
def execReserveWriteDone (slot : Fin 256) (s : State) : Res :=
  let n := slot.val
  let r := s.keyRun n
  .next (match r.pend with
  | none => s
  | some (u, v) => ((s.setRun n { r with useRes := u, spduRes := v, pend := none }).writeCounters).reserve n)

/-- The row COUNTER_TABLE_WRITE (R451): at a whole second. -/
def execCounterTableWrite (t : Time) (s : State) : Res :=
  let s := s.advance t
  .next (if s.powered && t % second == 0 then s.writeCounters else s)

/-! ### The service authorisation (R529, R530) -/

/-- Show a challenge in STRT_CHAL0 to STRT_CHAL7. -/
def State.showChallenge (s : State) (bytes : List Byte) : State :=
  forEach (List.range 8) (fun i a => a.wr Reg.STRT_CHAL_CHAL [i] (leAt bytes (4 * i) 4)) s

/-- CHAL_REQ (R529). -/
def State.chalWrite (s : State) (w : Word) : State :=
  if w.getLsbD 31 = false then s
  else
    let (s, bytes) := s.newChallenge
    s.showChallenge bytes

/-- SUBMIT (R529): the signature in STRT_SIG0 to STRT_SIG23 is verified under the slot 1 key. -/
def State.submitWrite (s : State) (w : Word) : State :=
  if w.getLsbD 30 = false ∨ s.strt.svcSub.isSome then s
  else
    let at_ := w.getLsbD 29
    let ok := s.authOk s.ownerKey 0xC0 [if at_ then 1 else 0] [] (s.regBytes 0x10090 24)
    let t := match s.key.chal with | some (_, t) => t | none => 0
    let s : State := if ok then s.spendChallenge else s
    { s with strt := { s.strt with svcSub := some (at_, ok, t) } }

/-- The row CHAL_REQ. -/
def execChalReq (w : Word) (s : State) : Res := .next (s.hostGate (Reg.STRT_SVC_CHAL_REQ.off []) w fun a => a.chalWrite w)
/-- The row SUBMIT. -/
def execSubmit (w : Word) (s : State) : Res := .next (s.hostGate (Reg.STRT_SVC_SUBMIT.off []) w fun a => a.submitWrite w)

/-- The row SVC_AUTH_DONE (R529). With AT_START the SUBMIT is itself the use. -/
def execSvcAuthDone (t : Time) (s : State) : Res :=
  let s := s.advance t
  .next (match s.strt.svcSub with
  | none => s
  | some (at_, ok, issued) =>
    let s : State := { s with strt := { s.strt with svcSub := none, svcAt := issued } }
    let s := if ok ∧ at_ then ((s.setFlag Reg.STRT_SVC_NEXT [] true).wr Reg.STRT_SVC_AUTH_STAT [] 3).saveRec
      else s.wr Reg.STRT_SVC_AUTH_STAT [] (if ok then 1 else 2)
    s.notice bSTRT 5 0 (if ok then 1 else 2) 0)

/-- The row CHALLENGE_EXPIRY (R442, R529): 60 s after its issue a challenge and the authorisation that rests on it expire. -/
def execChallengeExpiry (t : Time) (s : State) : Res :=
  let s := s.advance t
  let s : State := match s.key.chal with
    | some (_, i) => if i + 60 * second ≤ s.now then s.spendChallenge else s
    | none => s
  .next (if s.rd Reg.STRT_SVC_AUTH_STAT [] = 1 ∧ s.strt.svcAt + 60 * second ≤ s.now then s.wr Reg.STRT_SVC_AUTH_STAT [] 3 else s)

end Sys2Proof.Machine
end

