-- ==== Sys2Proof/Machine/Image.lean ====
section
/-! DEFINITION. The Manifest (R508 to R514): the flash, an image's header, directory, sections and entries, and the checks of
acceptance. -/
namespace Sys2Proof.Machine

/-! ### Flash (R508, R531) -/

/-- Flash slots are 4 MiB; slot `n` begins there. -/
def slotSize : Nat := 0x400000

/-- A byte of the flash; an erased byte reads 0xFF (log entry 9). -/
def State.flashAt (s : State) (a : Nat) : Byte := sget s.nvs.flash a 0xFF#8

def State.flashBytes (s : State) (a n : Nat) : List Byte := (List.range n).map fun i => s.flashAt (a + i)

/-- Put bytes into the flash, keeping its list canonical: nothing erased is listed. -/
def State.flashPut (s : State) (a : Nat) (bs : List Byte) : State :=
  forEach bs.zipIdx (fun x t =>
    let k := a + x.2
    { t with nvs := { t.nvs with flash := if x.1 = 0xFF#8 then serase t.nvs.flash k else sset t.nvs.flash k x.1 } }) s

/-! ### Layout (R509 to R513) -/

def imMagic : List Byte := [0x47#8, 0x4D#8, 0x41#8, 0x4E#8]
def imNsec (d : List Byte) : Nat := leAt d 0x06 2
def imLen (d : List Byte) : Nat := leAt d 0x08 4
def imMver (d : List Byte) : Nat := leAt d 0x0C 4
def imMin (d : List Byte) : Nat := leAt d 0x10 4

/-- A directory entry. -/
structure ImSec where
  typ : Nat
  ofs : Nat
  len : Nat
  check : Nat
  deriving DecidableEq, Repr

def imSecs (d : List Byte) : List ImSec :=
  (List.range (imNsec d)).map fun i =>
    let o := 0x100 + 16 * i
    ⟨leAt d o 1, leAt d (o + 4) 4, leAt d (o + 8) 4, leAt d (o + 12) 4⟩

def imBody (d : List Byte) (e : ImSec) : List Byte := slice d e.ofs e.len

/-- The sections of a type, in directory order. -/
def imOf (d : List Byte) (typ : Nat) : List ImSec := (imSecs d).filter fun e => e.typ == typ

/-- The header and the directory, as R515 compares them with the shadow. -/
def imHead (d : List Byte) : List Byte := d.take (0x100 + 16 * imNsec d)

/-- The START section (R511). -/
structure ImStart where
  lockout : Nat
  minSorters : Nat
  flags : Nat
  stableS : Nat
  stallMs : Nat
  hostMs : Nat
  deriving DecidableEq, Repr

def imStart (d : List Byte) : ImStart :=
  let b := match imOf d 1 with | e :: _ => imBody d e | [] => []
  ⟨leAt b 0 1, leAt b 1 1, leAt b 2 2, leAt b 4 2, leAt b 6 2, leAt b 8 2⟩

/-- The DRAM section's entries (R512): region, channel, MiB. -/
def imDram (d : List Byte) : List (Nat × Nat × Nat) :=
  match imOf d 2 with
  | e :: _ => let b := imBody d e; (List.range (b.length / 8)).map fun i => (leAt b (8 * i) 1, leAt b (8 * i + 1) 1, leAt b (8 * i + 4) 4)
  | [] => []

/-- The settings allow list (R510): inclusive ranges of offsets. -/
def imAllow (d : List Byte) : List (Nat × Nat) :=
  match imOf d 5 with
  | e :: _ => let b := imBody d e; (List.range (b.length / 8)).map fun i => (leAt b (8 * i) 4, leAt b (8 * i + 4) 4)
  | [] => []

/-- An entry of a REGS section (offset, mask, value) or of a TABLE section (offset, words), with its REAPPLY bit (R510). -/
inductive ImEnt where
  | reg (re : Bool) (off mask val : Nat)
  | table (re : Bool) (off : Nat) (ws : List Nat)
  deriving DecidableEq, Repr

def ImEnt.re : ImEnt → Bool
  | .reg r _ _ _ => r
  | .table r _ _ => r

def ImEnt.off : ImEnt → Nat
  | .reg _ o _ _ => o
  | .table _ o _ => o

def regEnts (b : List Byte) : List ImEnt :=
  (List.range (b.length / 12)).map fun i =>
    let o := leAt b (12 * i) 4
    .reg (o % 2 == 1) (o - o % 2) (leAt b (12 * i + 4) 4) (leAt b (12 * i + 8) 4)

/-- TABLE entries follow one another; the entries read, and whether they fill the section with no entry cut short. -/
def tableEnts (b : List Byte) : Nat → List ImEnt × Bool
  | 0 => ([], b.isEmpty)
  | k + 1 =>
    if b.isEmpty then ([], true)
    else
      let o := leAt b 0 4
      let n := leAt b 4 4
      if b.length < 8 + n ∨ n % 4 ≠ 0 ∨ b.length < 8 then ([], false)
      else
        let (es, ok) := tableEnts (b.drop (8 + n)) k
        (.table (o % 2 == 1) (o - o % 2) ((List.range (n / 4)).map fun i => leAt b (8 + 4 * i) 4) :: es, ok)

/-- Every REGS and TABLE entry in the order of R518. -/
def imEnts (d : List Byte) : List ImEnt :=
  (imSecs d).flatMap fun e =>
    if e.typ = 3 then regEnts (imBody d e) else if e.typ = 4 then (tableEnts (imBody d e) e.len).1 else []

/-- The signature block (R513): its last 256 bytes. -/
def imSig (d : List Byte) : List Byte := slice d (imLen d - 256) 256

/-! ### Acceptance (R514) -/

/-- Check 1: MAGIC, FORMAT, HDR_CHECK. -/
def imCheck1 (d : List Byte) : Bool :=
  d.take 4 == imMagic && leAt d 4 2 == 1 && decide (256 ≤ d.length) && leAt d 0xFC 4 == crc32c (d.take 0xFC)

/-- Check 2: IMG_LEN. -/
def imCheck2 (d : List Byte) : Bool :=
  decide (4096 ≤ imLen d) && decide (imLen d ≤ slotSize) && imLen d % 16 == 0 && decide (imLen d ≤ d.length)

/-- No two sections share a byte. -/
def apart : List ImSec → Bool
  | [] => true
  | e :: r => (r.all fun f => decide (e.ofs + e.len ≤ f.ofs) || decide (f.ofs + f.len ≤ e.ofs)) && apart r

/-- Check 3: the directory, and the places, types and counts of the sections. -/
def imCheck3 (d : List Byte) : Bool :=
  let n := imNsec d
  let es := imSecs d
  let cnt (t : Nat) := (es.filter fun e => e.typ == t).length
  decide (1 ≤ n ∧ n ≤ 64) && decide (0x100 + 16 * n + 256 ≤ imLen d) &&
    (es.all fun e => e.ofs % 16 == 0 && decide (0x100 + 16 * n ≤ e.ofs) && decide (e.ofs + e.len + 256 ≤ imLen d) &&
      [1, 2, 3, 4, 5, 15].contains e.typ) &&
    apart es && cnt 1 == 1 && cnt 2 == 1 && decide (cnt 5 ≤ 1) && (imAllow d).length ≤ 256

/-- Check 4: every section's CHECK. -/
def imCheck4 (d : List Byte) : Bool := (imSecs d).all fun e => e.check == crc32c (imBody d e)

/-- Check 5: the signature block names the verifying key. -/
def imCheck5 (d : List Byte) (key : Option (List Byte)) : Bool :=
  let b := imSig d
  match key with
  | some k => b.take 4 == [0x47#8, 0x53#8, 0x49#8, 0x47#8] && leAt b 4 2 == 1 && leAt b 6 2 == 1 && slice b 8 48 == sha384 k
  | none => false

/-- Check 6: SIG verifies over the image up to the first 64 bytes of the block. -/
def imCheck6 (d : List Byte) (key : Option (List Byte)) : Bool :=
  match key with
  | some k => ecdsaVerify k (d.take (imLen d - 256 + 0x40)) (slice (imSig d) 0x40 96)
  | none => false

/-- Check 7: the version floor. -/
def State.imCheck7 (s : State) (d : List Byte) : Bool :=
  decide (s.rd Reg.STRT_MFLOOR_MVER [] ≤ imMver d) && decide (imMin d ≤ imMver d)

/-- Check 8: the device, its revision code, and its serial number where BIND is set. -/
def State.imCheck8 (s : State) (d : List Byte) : Bool :=
  let rev := (s.word 0).toNat % 256
  let maxR := leAt d 0x19 1
  leAt d 0x14 4 == 0x7160000 && decide (leAt d 0x18 1 ≤ rev) && (maxR == 255 || decide (rev ≤ maxR)) &&
    (leAt d 0x1B 1 % 2 == 0 || slice d 0x20 16 == leBytes 16 s.key.serial)

/-- The DRAM section keeps R512 with a number of GiB fitted. -/
def dramOk (es : List (Nat × Nat × Nat)) (gib : Nat) : Bool :=
  es.contains (1, 2, 384) && (es.all fun e => decide (1 ≤ e.1 ∧ e.1 ≤ 6) && (if e.1 = 1 then e == (1, 2, 384) else decide (e.2.1 < 2))) &&
    ((List.range 7).all fun r => decide ((es.filter fun e => e.1 == r).length ≤ 1)) && decide (2 * (es.map fun e => e.2.2).sum ≤ 1024 * gib)

/-- Check 9: the fitted DRAM. -/
def State.imCheck9 (s : State) (d : List Byte) : Bool :=
  let g := s.rd Reg.GLB_CAPS_DRAM_GIB []
  decide (leAt d 0x1A 1 ≤ g) && dramOk (imDram d) g

/-- The last byte of the table window that holds an offset (R571). -/
def windowEnd (o : Nat) : Option Nat :=
  ([(0x400000, 0x7FFFFF), (0x800000, 0xBFFFFF), (0xC00000, 0xC007FF), (0xC10000, 0xD0FFFF), (0xD10000, 0xD10FFF),
    (0xD20000, 0xD3FFFF), (0xD40000, 0xF3FFFF), (0xF40000, 0xF4FFFF), (0xF50000, 0xF57FFF), (0xF58000, 0xF5807F),
    (0xF60000, 0xF9FFFF), (0xFA0000, 0xFA7FFF), (0xFA8000, 0xFB7FFF), (0xFB8000, 0xFB8FFF), (0xFB9000, 0xFB9FFF),
    (0xFC0000, 0xFC08FF), (0xFC1000, 0xFC18FF), (0xFD0000, 0xFD1BFF), (0xFE0000, 0xFE0FFF), (0xFE1000, 0xFE1FFF)].find? fun w =>
      decide (w.1 ≤ o ∧ o ≤ w.2)).map (·.2)

/-- An entry of check 10. -/
def ImEnt.fits : ImEnt → Bool
  | .reg _ o _ _ => o % 4 == 0 && decide (o < 0x400000) && !(fieldsAt o).isEmpty && !([0, 1, 0x11, 0x12, 0x13].contains (o / 0x10000))
  | .table _ o ws => o % 4 == 0 && match windowEnd o with | some e => decide (o + 4 * ws.length ≤ e + 1) | none => false

/-- Check 10: the fields of START, the offsets of REGS entries, the places of TABLE entries. A section whose length is no whole
number of entries fails (log entry 41). -/
def imCheck10 (d : List Byte) : Bool :=
  let st := imStart d
  ((imOf d 1).all fun e => e.len == 64) && ((imOf d 3).all fun e => e.len % 12 == 0) &&
    ((imOf d 2 ++ imOf d 5).all fun e => e.len % 8 == 0) &&
    ((imOf d 4).all fun e => (tableEnts (imBody d e) e.len).2) &&
    decide (1 ≤ st.lockout ∧ st.lockout ≤ 15) && decide (1 ≤ st.minSorters ∧ st.minSorters ≤ 64) && decide (st.flags < 16) &&
    decide (10 ≤ st.stableS ∧ st.stableS ≤ 3600) && decide (10 ≤ st.stallMs ∧ st.stallMs ≤ 10000) &&
    decide (100 ≤ st.hostMs ∧ st.hostMs ≤ 60000) && (imEnts d).all ImEnt.fits

/-- The refusal code of an image but for check 9, 0 where it passes. -/
def State.imCode (s : State) (d : List Byte) : Nat :=
  let key := s.verifyKey
  if !imCheck1 d then 1
  else if !imCheck2 d then 2
  else if !imCheck3 d then 3
  else if !imCheck4 d then 4
  else if !imCheck5 d key then 5
  else if !imCheck6 d key then 6
  else if !s.imCheck7 d then 7
  else if !s.imCheck8 d then 8
  else if !imCheck10 d then 10
  else 0

end Sys2Proof.Machine
end

