-- ==== Sys2Proof/Machine/Flash.lean ====
section
/-! DEFINITION. The flash commands of SERVICE (R531). -/
namespace Sys2Proof.Machine

/-- The answer of a flash command: SCODE, the refusal code of an image, RESULT_LEN. -/
def fAns (code refusal len : Nat) : LbAns :=
  .done (if code = 1 ∨ code = 2 then 2 else if code = 11 then 5 else 0) len [BitVec.ofNat 8 code, BitVec.ofNat 8 refusal]

/-- The size of the flash the device addresses (R508). -/
def flashSize : Nat := 0x800000

/-- Does a range touch the slot that STRT_STAT.MSRC names? -/
def State.protectedRange (s : State) (off len : Nat) : Bool :=
  let m := s.rd Reg.STRT_STAT_MSRC []
  (m == 1 || m == 2) && decide (off < slotSize * m ∧ slotSize * (m - 1) < off + len)

/-- The row FLASH_READ: every slot may be read (log entry 138, DESIGN CHOICE). -/
def execFlashRead (m : Fin 16) (c : LbCmd) (b : HostBuf) (s : State) : Res :=
  .next (s.lbRun m.val 1 1 c fun _ a =>
    if a.mode ≠ .service then (a, .done 3 0 [])
    else if a.nvs.fop.isSome then (a, .wait)
    else if flashSize < lbW c 0 + c.len then (a, fAns 1 0 0)
    else if b.err then (a, fAns 11 0 0)
    else (a.emit (.hostWrite c.addr (a.flashBytes (lbW c 0) c.len)), fAns 0 0 c.len))

/-- An erase or a program starts; its completion comes when it is done. -/
def State.flashStart (s : State) (m : Nat) (cmd : List Byte) (erase : Bool) (off len : Nat) (data : List Byte) : State × LbAns :=
  if len = 0 then (s, fAns 0 0 0)
  else (({ s with nvs := { s.nvs with fop := some ⟨m, cmd, erase, off, len, data⟩ } } : State).emit (.flashOp erase off len), .engine)

/-- The row FLASH_ERASE. -/
def execFlashErase (m : Fin 16) (c : LbCmd) (_b : HostBuf) (s : State) : Res :=
  .next (s.lbRun m.val 1 2 c fun cmd a =>
    let off := lbW c 0
    let len := lbW c 1
    if a.mode ≠ .service then (a, .done 3 0 [])
    else if a.nvs.fop.isSome then (a, .wait)
    else if off % 4096 ≠ 0 ∨ len % 4096 ≠ 0 ∨ flashSize < off + len then (a, fAns 1 0 0)
    else if a.protectedRange off len then (a, fAns 2 0 0)
    else a.flashStart m.val cmd true off len [])

/-- The row FLASH_WRITE. -/
def execFlashWrite (m : Fin 16) (c : LbCmd) (b : HostBuf) (s : State) : Res :=
  .next (s.lbRun m.val 1 3 c fun cmd a =>
    let off := lbW c 0
    if a.mode ≠ .service then (a, .done 3 0 [])
    else if a.nvs.fop.isSome then (a, .wait)
    else if off % 256 ≠ 0 ∨ c.len % 256 ≠ 0 ∨ flashSize < off + c.len then (a, fAns 1 0 0)
    else if a.protectedRange off c.len then (a, fAns 2 0 0)
    else if b.err then (a, fAns 11 0 0)
    else a.flashStart m.val cmd false off c.len (padTo c.len (b.data.take c.len)))

/-- The first failing check of R514 on an image, check 9 among them; 0 where all pass. -/
def State.imCodeAll (s : State) (d : List Byte) : Nat :=
  let k := s.imCode d
  if (k = 0 ∨ k = 10) ∧ s.imCheck9 d = false then 9 else k

/-- The row IMAGE_CHECK: never applied. -/
def execImageCheck (m : Fin 16) (c : LbCmd) (b : HostBuf) (s : State) : Res :=
  .next (s.lbRun m.val 1 4 c fun _ a =>
    if a.mode ≠ .service then (a, .done 3 0 [])
    else if a.nvs.fop.isSome then (a, .wait)
    else if b.err then (a, fAns 11 0 0)
    else
      let k := a.imCodeAll (b.data.take c.len)
      (a, if k = 0 then fAns 0 0 0 else fAns 4 k 0))

/-- The row FLASH_OP_DONE: an erase leaves 0xFF; a program clears bits, and its read-back is compared. A command that did not
complete in time leaves free bytes. -/
def execFlashOpDone (ok : Bool) (t : Time) (s : State) : Res :=
  let s := s.advance t
  .next (match s.nvs.fop with
  | none => s
  | some f =>
    let s : State := { s with nvs := { s.nvs with fop := none } }
    if ok then
      let old := s.flashBytes f.addr f.len
      let new := if f.erase then List.replicate f.len 0xFF#8 else (old.zip f.data).map fun x => x.1 &&& x.2
      let good := f.erase || new == f.data
      let slots := [f.addr / slotSize, (f.addr + f.len - 1) / slotSize]
      let s := s.flashPut f.addr new
      let s : State := if good then { s with nvs := { s.nvs with taint := s.nvs.taint.filter fun n => !slots.contains n } } else s
      s.lbDone f.m f.cmd (completionBytes f.cmd 0 0 [if good then 0#8 else 3#8])
    else
      let k := s.free
      let s : State := { s with free := k + f.len }
      (s.flashPut f.addr ((List.range f.len).map fun i => Config.freeByte (k + i))).lbDone f.m f.cmd (completionBytes f.cmd 0 0 [3#8]))

end Sys2Proof.Machine
end

