-- ==== Sys2Proof/Machine/PairRows.lean ====
section
/-! DEFINITION. Rows of the pair (R403 to R435): heartbeats and failure, HELLO, switchovers, the link's frames, acknowledgement and
lanes. -/
namespace Sys2Proof.Machine

/-! ### Heartbeats (R423 to R425) -/

/-- The heartbeat word but for its CRC: SYNC, MODE, DEG, READY, PREF, HB_SEQ, RND0_SEQ, SCORE. -/
def State.hbHead (s : State) : Nat :=
  0xA7 * 2 ^ 48 + s.rd Reg.GLB_MODE_CUR [] * 2 ^ 45 + s.rd Reg.GLB_MODE_DEG [] * 2 ^ 44 + s.rd Reg.PAIR_STAT_READY [] * 2 ^ 43 +
    bitN s.preferred 42 + s.pair.hbSeq % 65536 * 2 ^ 24 + ((s.rndSt 0).seq + 65535) % 65536 * 2 ^ 8 + s.rd Reg.PAIR_HEALTH_SCORE []

/-- The seven octets a heartbeat's CRC covers, MSB first. -/
def hbBytes (head : Nat) : List Byte := beBytes 7 head

/-- The heartbeat word. -/
def State.hbWord (s : State) : Nat := s.hbHead * 256 + crc8 (hbBytes s.hbHead)

/-- PAIR_SILENT: microseconds since the last valid word on each path. -/
def State.showSilent (s : State) : State :=
  let us (w : Option Time) : Nat := match w with | some t => min 65535 (roundDiv (s.now - t) usU) | none => 65535
  (s.wr Reg.PAIR_SILENT_A_US [] (us s.pair.wordA)).wr Reg.PAIR_SILENT_B_US [] (us s.pair.wordB)

/-- Path A: an HB frame on every lane that is up. -/
def State.hbFrames (s : State) (w : Nat) : State :=
  let l := s.rd Reg.PAIR_STAT_LANES []
  forEach ([0, 1].filter fun n => l / 2 ^ n % 2 == 1) (fun n a => a.emit (.plk n ((⟨1, false, 0, leBytes 8 w⟩ : PlkFrame).bytes false a.now))) s

def execHeartbeatSend (t : Time) (s : State) : Res :=
  let s := s.advance t
  .next (if s.powered = false ∨ s.flag Reg.PAIR_CFG_EN [] = false then s
    else
      let s := s.refreshScore
      let w := s.hbWord
      let s := (s.hbFrames w).emit (.heartbeat true w)
      ({ s with pair := { s.pair with hbSeq := (s.pair.hbSeq + 1) % 65536 } } : State).showSilent)

/-- Is a heartbeat word valid (R423)? -/
def hbValid (w : Nat) : Bool := w / 2 ^ 56 == 0xA7 && w / 2 ^ 53 % 8 != 0 && w % 256 == crc8 (hbBytes (w / 256))

/-- What a standby dispatches once its partner is declared failed (R426): what it follows, then what its own decision closed. -/
def State.flushRound (s : State) (r : Nat) : Nat → State
  | 0 => s
  | k + 1 =>
    if s.pair.follow.any fun f => f.d.rnd == r then (s.tryFollow r true).flushRound r k
    else match (s.rndSt r).bags.head? with
      | some b =>
        (match b.close with
         | some c => if s.inFlightFor r b c then s else (s.dispatchOwn r b c).flushRound r k
         | none => s)
      | none => s

/-- The standby declares its partner failed (R425). -/
def State.declareFailed (s : State) : State :=
  let s : State := { s with pair := { s.pair with declared := true, lost := true } }
  let s := ((s.wr Reg.PAIR_DECL_SEC [] (secOf s.now)).wr Reg.PAIR_DECL_NS [] (nsOf s.now)).notice bPAIR 0 0 0 0
  forEach s.rndsOn (fun r a => a.flushRound r 65) s

/-- No declaration was made, and the unit is in STANDBY. -/
def State.mayDeclare (s : State) : Bool := s.holding && !s.pair.declared

/-- An agreed switchover. -/
def State.agreed (s : State) : Bool := match s.pair.switch with | some w => w.agreed | none => false

/-- The partner as a valid word shows it. -/
def State.seePartner (s : State) (w : Nat) : State :=
  let mode := w / 2 ^ 53 % 8
  let seq := w / 2 ^ 16 % 65536
  let since := match s.pair.partner with | some p => if p.rndSeq = seq then p.rndAt else s.now | none => s.now
  let was := match s.pair.partner with | some p => decide (p.mode = 4 ∨ p.mode = 5) | none => false
  let deg := w / 2 ^ 52 % 2 == 1
  let ready := w / 2 ^ 51 % 2 == 1
  let joins := mode == 3 && (match s.pair.partner with | some p => p.mode != 3 | none => true)
  let p : Partner := ⟨mode, deg, ready, w / 2 ^ 50 % 2 == 1, seq, since, w / 256 % 256, was⟩
  let s : State := { s with pair := { s.pair with partner := some p, fullDue := s.pair.fullDue || joins } }
  s.setFlag Reg.PAIR_STAT_PARTNER_READY [] ready |>.wr Reg.PAIR_STAT_PARTNER_MODE [] mode |>.setFlag Reg.PAIR_STAT_PARTNER_DEG [] deg
    |>.wr Reg.PAIR_STAT_PARTNER_SCORE [] p.score |>.weighRoles

/-- A failure that a word itself shows (R425): the role was given up with no switchover agreed, or RND0 stands still. -/
def State.wordFailure (s : State) : Bool :=
  match s.pair.partner with
  | none => false
  | some p =>
    if p.mode = 4 ∨ p.mode = 5 then decide (p.rndAt + 4 * second / s.rndFps 0 ≤ s.now)
    else p.wasActive && !s.agreed

/-- Both units hold the active role (R431). -/
def State.dualCheck (s : State) : State :=
  match s.pair.partner with
  | none => s
  | some p =>
    let dual := s.activeRole && decide (p.mode = 4 ∨ p.mode = 5) && !s.agreed
    if dual = s.flag Reg.PAIR_STAT_DUAL [] then s
    else
      let s := s.setFlag Reg.PAIR_STAT_DUAL [] dual
      if dual then s.notice bPAIR 10 0 0 0 else s

def State.heartbeat (s : State) (pathB : Bool) (w : Nat) : State :=
  let a := s.flag Reg.PAIR_STAT_PATH_A []
  let b := s.flag Reg.PAIR_STAT_PATH_B []
  let s : State := if pathB then { s with pair := { s.pair with wordB := some s.now } } else { s with pair := { s.pair with wordA := some s.now } }
  let s := (if pathB then s.setFlag Reg.PAIR_STAT_PATH_B [] true else s.setFlag Reg.PAIR_STAT_PATH_A [] true).showSilent
  let s := if a || b then s else s.notice bPAIR 2 (bitN pathB 0) 1 0
  let s := if s.pair.lost then ({ s with pair := { s.pair with lost := false } } : State).notice bPAIR 1 0 0 0 else s
  let s := s.seePartner w
  let s := if s.mayDeclare && s.wordFailure then s.declareFailed else s
  let s := if s.activeRole ∧ s.pair.switch.isSome = true ∧ s.standbyThere = false then s.switchFail else s
  ((s.dualCheck).partnerAlarm).runCheck

def execHeartbeatReceived (pathB : Bool) (word : BitVec 64) (t : Time) (s : State) : Res :=
  let s := s.advance t
  .next (if s.powered && s.flag Reg.PAIR_CFG_EN [] && hbValid word.toNat then s.heartbeat pathB word.toNat else s)

/-- A path becomes silent (R424): alone it is noticed; with the other it ends what needs a partner. -/
def State.goSilent (s : State) (pathB : Bool) : State :=
  let s := if pathB then s.setFlag Reg.PAIR_STAT_PATH_B [] false else s.setFlag Reg.PAIR_STAT_PATH_A [] false
  let s := s.showSilent
  if s.flag Reg.PAIR_STAT_PATH_A [] || s.flag Reg.PAIR_STAT_PATH_B [] then s.notice bPAIR 2 (bitN pathB 0) 0 0
  else
    let s := if s.mayDeclare then s.declareFailed else s
    let s := if s.activeRole ∧ s.pair.switch.isSome = true then s.switchFail else s
    s.partnerAlarm.runCheck

/-- 300 µs have passed since the last valid word on a path that is alive. -/
def State.silentDue (s : State) (pathB : Bool) : Bool :=
  s.flag (if pathB then Reg.PAIR_STAT_PATH_B else Reg.PAIR_STAT_PATH_A) [] &&
    (match (if pathB then s.pair.wordB else s.pair.wordA) with | some t => decide (t + 300 * usU ≤ s.now) | none => true)

def execPathSilent (pathB : Bool) (t : Time) (s : State) : Res :=
  let s := s.advance t
  .next (if s.silentDue pathB then s.goSilent pathB else s)

/-! ### Roles (R404, R405) -/

/-- JOIN_MS has passed since run enable with no partner heard. -/
def execJoinTimeout (t : Time) (s : State) : Res :=
  let s := s.advance t
  let due := decide (s.pair.runAt + clampN 100 65535 (s.rd Reg.PAIR_CFG_JOIN_MS []) * msU ≤ s.now)
  let heard := s.flag Reg.PAIR_STAT_PATH_A [] || s.flag Reg.PAIR_STAT_PATH_B []
  .next (if s.mode = .watch ∧ s.flag Reg.GLB_MODE_RUN_EN [] = true ∧ heard = false ∧ due = true then
      ({ s with pair := { s.pair with joinOver := true } } : State).runCheck
    else s)

/-- This unit's HELLO. -/
def State.ownHello (s : State) : PlkMsg :=
  .hello s.digest (s.flag Reg.PAIR_CFG_PREF []) (s.rd Reg.NET_PORT_MAC_LO_ADDR [0] + 2 ^ 32 * s.rd Reg.NET_PORT_MAC_HI_ADDR [0])

/-- Send a HELLO: the sender's two streams start again from SEQ 0 with an empty replay store (log entry 135, DESIGN CHOICE). -/
def State.sendHello (s : State) : State :=
  ({ s with pair := { s.pair with txSeq := 0, txSeq2 := 0, unacked := [], retries := 0 } } : State).plkSend s.ownHello

/-- Send a HELLO of one's own accord. -/
def State.sayHello (s : State) : State := ({ s with pair := { s.pair with helloSent := true } } : State).sendHello

/-- Both streams of the sender of a HELLO start again. -/
def State.restartRx (s : State) (f : PlkHead) : State :=
  ({ s with pair := { s.pair with rxSeq := (f.seq + f.frames) % 2 ^ 32, rxSeq2 := 0 } } : State).rxCounted f.frames

/-- Where this unit had said none, a HELLO is answered, and the standby of a link that went down has lost JOINED (R410). -/
def State.answerHello (s : State) : State :=
  if s.pair.helloSent then { s with pair := { s.pair with helloSent := false } }
  else (s.setFlag Reg.PAIR_STAT_JOINED [] false).sendHello

/-- A HELLO comes (R403, R404, R410): data-down is over, the answer where none was sent before, and the conflicts. -/
def State.hello (s : State) (h : HelloMsg) : State :=
  let s : State := { s with pair := { s.pair with peer := some (h.digest, h.pref, h.mac), mismatch := h.digest != s.digest } }
  let s := (s.setFlag Reg.PAIR_STAT_DATA_DOWN [] false).answerHello
  let s : State := if s.activeRole then { s with pair := { s.pair with fullDue := true } } else s
  let bad := s.flag Reg.PAIR_CFG_PREF [] == h.pref || s.keptInWatch
  let was := s.flag Reg.PAIR_STAT_CFG_CONFLICT []
  let s := s.setFlag Reg.PAIR_STAT_CFG_CONFLICT [] bad
  let s := if bad && !was then s.notice bPAIR 11 (bitN s.pair.mismatch 0) 0 0 else s
  let s := if s.keptInWatch then s.setFlag Reg.GLB_MODE_RUN_EN [] false else s
  (s.refreshReady).runCheck

/-- The last frame taken in order, sent again: a HELLO that this unit has answered. -/
def State.helloTwice (s : State) (f : PlkHead) : Bool :=
  f.retx && !s.flag Reg.PAIR_STAT_DATA_DOWN [] && s.pair.rxSeq == (f.seq + f.frames) % 2 ^ 32

def execHello (m : PlkIn HelloMsg) (s : State) : Res :=
  let s := s.advance m.msg.t
  .next (if !s.plkHears m.head then s else if s.helloTwice m.head then s.rxCounted m.head.frames else (s.restartRx m.head).hello m.msg)

/-! ### Switchovers (R428 to R430, R433) -/

/-- The standby receives SWITCH_OFFER: it accepts if it is READY. -/
def State.offered (s : State) (k : Nat) : State :=
  if !s.holding then s
  else if s.flag Reg.PAIR_STAT_READY [] then
    ({ s with pair := { s.pair with switch := some ⟨k, false, true, if s.pair.revertDue then 4 else 5⟩ } } : State).plkSend (.switchAccept k)
  else s.plkSend .switchRefuse

def execSwitchOffer (k : PlkIn Nat) (t : Time) (s : State) : Res := .next ((s.advance t).linkRow false k.head fun a => a.offered k.msg)

/-- The active unit's offer is accepted. -/
def State.accepted (s : State) (k : Nat) : State :=
  match s.pair.switch with
  | some w => if w.mine && w.k == k then { s with pair := { s.pair with switch := some { w with agreed := true } } } else s
  | none => s

def execSwitchAccept (k : PlkIn Nat) (t : Time) (s : State) : Res := .next ((s.advance t).linkRow false k.head fun a => a.accepted k.msg)

/-- The active unit's offer is refused. -/
def State.offerRefused (s : State) : State :=
  match s.pair.switch with
  | some w => if w.mine then s.switchFail else s
  | none => s

/-- The row SWITCH_REFUSE; the message says no more than when it came. -/
def execSwitchRefuse (t : PlkIn Time) (s : State) : Res := .next ((s.advance t.msg).linkRow false t.head fun a => a.offerRefused)

/-- The revert conditions have held for REVERT_S (R430). On the preferred standby they make its next entry a take-back; the active
unit, which sees them in the heartbeat, offers the switchover (R429). -/
def execRevert (t : Time) (s : State) : Res :=
  let s := s.advance t
  .next (if !(s.flag Reg.PAIR_CFG_REVERT [] && s.revertFit && s.heldFor s.pair.fitSince s.revertTime) then s
    else if s.holding then { s with pair := { s.pair with revertDue := true } }
    else if s.pair.switch.isNone then s.switchStart 4 else s)

/-- The partner's SCORE has stayed 32 above for 10 s (R433); at most once per REVERT_S. -/
def execAutoSwitchover (t : Time) (s : State) : Res :=
  let s := s.advance t
  let soon := match s.pair.lastAuto with | some u => decide (s.now < u + s.revertTime) | none => false
  .next (if s.flag Reg.PAIR_CFG_AUTO_SW [] && s.partnerAhead && s.heldFor s.pair.aheadSince (10 * second) && !soon && s.pair.switch.isNone then
      ({ s with pair := { s.pair with lastAuto := some s.now } } : State).switchStart 5
    else s)

/-! ### Forwarding (R413) -/

def execFwdOn (sid : PlkIn Nat) (s : State) : Res :=
  .next (s.linkRow false sid.head fun a =>
    { a with pair := { a.pair with peerFwd := if a.pair.peerFwd.contains sid.msg then a.pair.peerFwd else a.pair.peerFwd ++ [sid.msg] } })

def execFwdOff (sid : PlkIn Nat) (s : State) : Res :=
  .next (s.linkRow false sid.head fun a => { a with pair := { a.pair with peerFwd := a.pair.peerFwd.filter (· != sid.msg) } })

/-- A reception map of the partner: forwarding starts where 8 maps lack a stream received here, and stops after 64 maps that
show it. -/
def State.seeMap (s : State) (sids : List Nat) : State :=
  let maps := (sids :: s.pair.peerMaps).take 8
  let runs := s.pair.fwding.map fun sid => (sid, if sids.contains sid then sget s.pair.isRx sid 0 + 1 else 0)
  let stop := (runs.filter fun x => decide (64 ≤ x.2)).map (·.1)
  let start := if maps.length < 8 then [] else
    s.pair.lastOwn.filter fun sid => !s.pair.fwding.contains sid && !maps.any fun m => m.contains sid
  let s : State := { s with pair := { s.pair with peerMaps := maps, isRx := runs.filter fun x => decide (x.2 < 64)
                                                  fwding := (s.pair.fwding.filter fun x => !stop.contains x) ++ start } }
  let s := forEach stop (fun sid a => a.plkSend (.fwdOff sid)) s
  forEach start (fun sid a => a.plkSend (.fwdOn sid)) s

def execRxmap (sids : PlkIn (List Nat)) (s : State) : Res := .next (s.linkRow false sids.head fun a => a.seeMap sids.msg)

/-! ### The standby's side: copies, releases, digests, catch-ups (R406, R416 to R421) -/

/-- The active unit sends letters of a mailbag (R414). -/
def State.sendLetters (s : State) (r seq : Nat) (sids : List Nat) : State :=
  match (s.rndSt r).sent.find? fun x => x.1 == seq with
  | none => s
  | some (_, ls) => forEach (ls.filter fun l => sids.contains l.sid) (fun l a => a.plkSend (.fwd { l with flags := l.flags / 256 * 256 })) s

/-- It sends one CRC-32C per present letter of a mailbag (R414). -/
def State.sendCheck (s : State) (r : Fin 64) (seq : Nat) : State :=
  match (s.rndSt r).sent.find? fun x => x.1 == seq with
  | none => s
  | some (_, ls) => s.plkSend (.fetch (.checkList r seq (ls.map fun l => vdigOf [l])))

/-- A FETCH: the active unit answers what is asked for; the standby takes a check list (R414, R420, R421). -/
def State.fetched (s : State) (m : FetchMsg) : State :=
  match m with
  | .letters r q sids => if s.activeRole then s.sendLetters r q sids else s
  | .askCheck r q => if s.activeRole then s.sendCheck r q else s
  | .checkList r q crcs => if s.holding then s.checkLetters r q crcs else s
  | .catchup isl g => if s.activeRole then s.sendCatch isl g else s

def execFetch (k : PlkIn FetchKind) (rnd : Fin 64) (seq : Nat) (list : List Nat) (t : Time) (s : State) : Res :=
  .next ((s.advance t).linkRow false k.head fun a => a.fetched (k.msg.what rnd seq list))

/-- The full copy has been applied: the unit has joined, and catch-ups of every enabled group and of the tracker follow. -/
def State.joined (s : State) : State :=
  let c := (s.grpsOn.map fun g => (⟨false, g, 0, false⟩ : Catching)) ++
    (if s.flag Reg.ISL_CTL_EN [] && s.rd Reg.ISL_STAT_STATE [] != 5 then [⟨true, 0, 0, false⟩] else [])
  ({ s with pair := { s.pair with catching := c } } : State).setFlag Reg.PAIR_STAT_JOINED [] true

/-- A COPY is applied in full; the full copy lets the unit join (R406, R416). -/
def State.applyCopy (s : State) (c : CopyFrame) : State :=
  let s := (forEach c.recs (fun x a => a.applyRec x) s).wr Reg.PAIR_COPYSEQ [] c.seq
  (if c.full then s.joined else s).refreshReady

def execCopy (c : PlkIn CopyFrame) (t : Time) (s : State) : Res :=
  .next ((s.advance t).linkRow false c.head fun a => if a.holding then a.applyCopy c.msg else a)

/-- A release confirmation: the matching held output is discarded, or discarded when it is formed. -/
def State.release (s : State) (r : RelMsg) : State :=
  if !s.holding then s
  else if s.pair.held.any fun h => h.isRel r then { s with pair := { s.pair with held := s.pair.held.filter fun h => !h.isRel r } }
  else { s with pair := { s.pair with rels := (r :: s.pair.rels).take 64 } }

def execRel (r : PlkIn RelMsg) (s : State) : Res := .next (s.linkRow false r.head fun a => a.release r.msg)

/-- This unit's value at an epoch, if it is there: the checkpoint's epoch and CRC, or the clustering count and the tracker's. -/
def State.ownDigest (s : State) (isl : Bool) (g : Nat) : Nat × Nat :=
  if isl then (s.rd Reg.ISL_CLUST_COUNT [], wordsCrc (trkWords s.isl.trk))
  else match sfind s.osc.ckpts g with
    | some k => (k.grp.epoch, k.crc)
    | none => (0, 0)

/-- A DIGEST on the standby: compared with its own value for the same epoch, or kept until that epoch comes (R420). -/
def State.seeDigest (s : State) (isl : Bool) (unit n crc : Nat) : State :=
  let own := s.ownDigest isl unit
  if !s.holding then s
  else if own.1 = n then s.digestCompare isl unit own.2 crc
  else if own.1 < n then { s with pair := { s.pair with digests := s.pair.digests ++ [(isl, unit, n, crc)] } }
  else s

def execDigest (isl : PlkIn Bool) (unit : Nat) (n : Nat) (crc : Nat) (s : State) : Res :=
  .next (s.linkRow true isl.head fun a => a.seeDigest isl.msg unit n crc)

/-- A group's checkpoint is installed and its trackers run again over the samples that follow; its delay lines stay this
unit's own. -/
def State.installGrp (s : State) (g : Nat) (v : GrpSt) (xs : List DecSample) : State :=
  let own := s.grp g
  let keep (e : Nat × Chain) : Nat × Chain :=
    let k := grpChain own e.1
    (e.1, { e.2 with line := k.line, last := k.last, miss := k.miss, stale := k.stale })
  let v := { v with chains := v.chains.map keep, lastN := own.lastN }
  let v := xs.foldl (fun v x => { s.grpTrack g x.j (s.grpCentre x.j x.xs v) with lastJ := some x.j }) v
  (s.setGrp g v).showGrp g

/-- The islanding tracker and its centroids are installed. -/
def State.installTrk (s : State) (v : IslTrk) : State :=
  let own := s.isl.trk
  let keep (e : Nat × Chain) : Nat × Chain :=
    let k := trkChain own e.1
    (e.1, { e.2 with line := k.line, last := k.last, miss := k.miss, stale := k.stale })
  (s.setTrk { v with chains := v.chains.map keep, lastN := own.lastN }).showTrk

/-- A catch-up is installed (R421); the next DIGEST that matches ends it. -/
def State.installCatch (s : State) (c : CatchupMsg) : State :=
  let isl := c.trk.isSome
  let s := match c.grp with | some v => s.installGrp c.group v c.samples | none => s
  let s := match c.trk with | some v => s.installTrk v | none => s
  let s : State := { s with pair := { s.pair with catching := s.pair.catching.map fun x => if x.isl == isl && (isl || x.which == c.group) then { x with inPlace := true } else x } }
  s.refreshReady

def execCatchup (c : PlkIn CatchupMsg) (s : State) : Res :=
  .next (s.linkRow true c.head fun a => if a.holding then a.installCatch c.msg else a)

/-! ### Acknowledgement and lanes (R407, R410) -/

/-- An ACK: the highest SEQ received in order of each stream. -/
def execPlkAck (seqs : List Nat) (t : Time) (s : State) : Res :=
  let s := s.advance t
  let done (u : PlkFrame) : Bool :=
    match seqs[if u.second then 1 else 0]? with
    | some q => decide ((q + 2 ^ 32 - u.seq) % 2 ^ 32 < 2 ^ 31)
    | none => false
  let rest := s.pair.unacked.filter fun u => !done u
  .next (if rest.length < s.pair.unacked.length then { s with pair := { s.pair with unacked := rest, retries := 0, progAt := s.now } } else s)

/-- The receiver sends its ACK. -/
def execAckSend (t : Time) (s : State) : Res :=
  let s := s.advance t
  .next (if s.powered && s.flag Reg.PAIR_CFG_EN [] then s.sendAck else s)

/-- The link is data-down (R410): noticed as it becomes so, the store flushed and JOINED lost; a HELLO asks the partner for a new start. -/
def State.dataDown (s : State) : State :=
  let was := s.flag Reg.PAIR_STAT_DATA_DOWN []
  let s : State := { s with pair := { s.pair with unacked := [], retries := 0, follow := [] } }
  let s := s.setFlag Reg.PAIR_STAT_DATA_DOWN [] true
  let s := if was then s else s.notice bPAIR 12 0 0 0
  ((s.setFlag Reg.PAIR_STAT_JOINED [] false).refreshReady).sayHello

/-- 20 µs without progress: the frames not acknowledged go out again; after 8 times the link is data-down. -/
def execRetransmit (t : Time) (s : State) : Res :=
  let s := s.advance t
  .next (if s.pair.unacked.isEmpty || decide (s.now < s.pair.progAt + 20 * usU) then s
    else if 8 ≤ s.pair.retries then s.dataDown
    else
      let us := s.pair.unacked
      let s := (forEach us (fun u a => a.plkEmit true u) s).bump Reg.PAIR_RETX [] us.length
      { s with pair := { s.pair with retries := s.pair.retries + 1, progAt := s.now } })

/-- A failed test (R432, R433). -/
def State.selfTestFail (s : State) (code : Nat) : State :=
  let s : State := { s with pair := { s.pair with failAt := some s.now } }
  (((s.wr Reg.PAIR_HEALTH_ST_FAIL [] code).inc Reg.PAIR_ST_FAILS []).notice bPAIR 13 code 0 0).refreshScore

/-- A lane comes up. When the link first carries data, and after data-down, a HELLO goes out (R404, R410). -/
def execLaneUp (l : Fin 2) (t : Time) (s : State) : Res :=
  let s := s.advance t
  let m := s.rd Reg.PAIR_STAT_LANES []
  .next (if s.powered = false ∨ m / 2 ^ l.val % 2 = 1 then s
    else
      let s := (s.wr Reg.PAIR_STAT_LANES [] (m + 2 ^ l.val)).notice bPAIR 3 l 1 0
      if m = 0 ∧ s.flag Reg.PAIR_CFG_EN [] = true ∧ (s.pair.peer = none ∨ s.flag Reg.PAIR_STAT_DATA_DOWN [] = true) then s.sayHello else s)

/-- A lane goes down, by loss of block lock or by CRC errors, which are a failed test. -/
def execLaneDown (l : Fin 2) (errs : Bool) (t : Time) (s : State) : Res :=
  let s := s.advance t
  let m := s.rd Reg.PAIR_STAT_LANES []
  .next (if m / 2 ^ l.val % 2 = 0 then s
    else
      let s := (s.wr Reg.PAIR_STAT_LANES [] (m - 2 ^ l.val)).notice bPAIR 3 l 0 0
      if errs && s.processing then s.selfTestFail 5 else s)

end Sys2Proof.Machine
end

