-- ==== Sys2Proof/Machine/Store.lean ====
section
/-! DEFINITION. The settings store and the Logbook (R475 to R490): images and their commands, records as bytes, writing and
reading them, the last gasp, and the operating counters. -/
namespace Sys2Proof.Machine

/-! ### Settings images (R476) -/

/-- COUNT and LEN of an image. -/
def imgCount (d : List Byte) : Nat := leAt d 0x0C 4
def imgLen (d : List Byte) : Nat := 0x44 + 12 * imgCount d

/-- Entry `e` of an image: offset, mask, value. -/
def imgEntry (d : List Byte) (e : Nat) : Nat × Nat × Nat :=
  (leAt d (0x40 + 12 * e) 4, leAt d (0x44 + 12 * e) 4, leAt d (0x48 + 12 * e) 4)

/-- The CRC of an image passes; a header that names no image of a bank's size fails. -/
def imgCrcOk (d : List Byte) : Bool :=
  decide (imgCount d ≤ 131072) && decide (imgLen d ≤ d.length) && crc32c (d.take (imgLen d - 4)) == leAt d (imgLen d - 4) 4

/-- The checks of STORE (R476, R477): MAGIC, FORMAT, LEN, COUNT, each OFFSET, the CRC. -/
def imgOk (d : List Byte) : Bool :=
  d.take 4 == [0x47#8, 0x53#8, 0x45#8, 0x54#8] && leAt d 4 2 == 1 && decide (imgCount d ≤ 131072) && leAt d 8 4 == imgLen d &&
    decide (imgLen d ≤ d.length) &&
    ((List.range (imgCount d)).all fun e => let o := (imgEntry d e).1; o % 4 == 0 && decide (o < 0x1000000)) && imgCrcOk d

/-- The image as it is written: SEQ, the hash of the Manifest in force, and the CRC anew. -/
def imgMade (d : List Byte) (seq : Nat) (mhash : List Byte) : List Byte :=
  let body := d.take 0x10 ++ leBytes 4 seq ++ slice d 0x14 12 ++ padTo 32 (mhash.take 32) ++ slice d 0x40 (imgLen d - 0x44)
  body ++ leBytes 4 (crc32c body)

/-- The contents of a bank: 0 A, 1 B. -/
def State.bank (s : State) (b : Nat) : List Byte := if b = 0 then s.nvs.bankA else s.nvs.bankB
def State.setBank (s : State) (b : Nat) (d : List Byte) : State :=
  if b = 0 then { s with nvs := { s.nvs with bankA := d } } else { s with nvs := { s.nvs with bankB := d } }

/-- Show the selector in NVS_STAT.SEL and NVS_SEQ. -/
def State.showSel (s : State) : State :=
  match s.nvs.sel with
  | none => (s.wr Reg.NVS_STAT_SEL [] 2).wr Reg.NVS_SEQ_SEQ [] 0
  | some (b, q) => (s.wr Reg.NVS_STAT_SEL [] b).wr Reg.NVS_SEQ_SEQ [] q

/-- Move the selector through a journal transaction (R473, R478). -/
def State.chooseBank (s : State) (sel : Option (Nat × Nat)) : State := ({ s with nvs := { s.nvs with sel := sel } } : State).nextJournal.showSel

/-- A transaction of the settings store that is cut off (R478): what it names, and how far it came. -/
def State.chooseCut (s : State) (sel : Option (Nat × Nat)) (c : MramCut) : State :=
  let r (done : Bool) : JRec := match sel with | some (b, q) => .settings s.nvs.jseq done b q | none => .settings s.nvs.jseq done 2 0
  match c with
  | .writing => s
  | .opened => (s.nextJournal).leaveOpen (r false)
  | .committed => (s.nextJournal).leaveOpen (r true)
  | .flipped => (s.chooseBank sel).leaveOpen (r true)

/-- Move the selector, cut off or not; without a cut `done` ends the command, and after one the command stays in progress (R500). -/
def State.selectBank (s : State) (sel : Option (Nat × Nat)) (cut : Option MramCut) (done : State → State × LbAns) : State × LbAns :=
  match cut with
  | some c => ((s.chooseCut sel c).setFlag Reg.NVS_STAT_BUSY [] true, .engine)
  | none => done (s.chooseBank sel)

/-- STATUS of an NCODE (R477), with the code as the result. -/
def nAns (k len : Nat) : LbAns := .done (if k = 2 ∨ k = 4 then 2 else if k = 11 then 5 else 0) len (leBytes 4 k)

/-- The row STORE (R477). -/
def execLbStore (m : Fin 16) (c : LbCmd) (b : HostBuf) (s : State) : Res :=
  .next (s.lbRun m.val 0x12 1 c fun _ a =>
    let d := b.data.take c.len
    if a.mode ≠ .service then (a, .done 3 0 [])
    else if a.journalBusy 1 then (a, .wait)
    else if b.err then (a, nAns 11 0)
    else if imgOk d = false then (a, nAns 2 0)
    else
      let (bk, q) := match a.nvs.sel with | none => (0, 1) | some (x, y) => (1 - x, (y + 1) % 2 ^ 32)
      let a := a.setBank bk (imgMade d q (a.regBytes 0x10020 12))
      -- a bank whose read-back fails, or that is written in part, holds no image that passes
      if b.cut = some .writing then ((a.setBank bk []).setFlag Reg.NVS_STAT_BUSY [] true, .engine)
      else if b.bad.contains bk then ((a.setBank bk []).notice bNVS 1 bk q 3, nAns 3 0)
      else a.selectBank (some (bk, q)) b.cut fun a => ((a.inc Reg.NVS_STORES_COUNT []).notice bNVS 0 bk q 0, nAns 0 0))

/-- The row NVS_READ, command READ of the settings store (R477). -/
def execNvsRead (m : Fin 16) (c : LbCmd) (b : HostBuf) (s : State) : Res :=
  .next (s.lbRun m.val 0x12 2 c fun _ a =>
    match a.nvs.sel with
    | none => (a, nAns 5 0)
    | some (bk, _) =>
      let d := a.bank bk
      let d := d.take (min d.length (imgLen d))
      if b.err ∨ c.len < d.length then (a, nAns 11 0) else (a.emit (.hostWrite c.addr d), nAns 0 d.length))

/-- The row SELECT_OTHER (R477): the other bank with the SEQ of its image. -/
def execSelectOther (m : Fin 16) (c : LbCmd) (b : HostBuf) (s : State) : Res :=
  .next (s.lbRun m.val 0x12 3 c fun _ a =>
    if a.mode ≠ .service then (a, .done 3 0 [])
    else if a.journalBusy 1 then (a, .wait)
    else match a.nvs.sel with
      | none => (a, nAns 4 0)
      | some (bk, _) =>
        let d := a.bank (1 - bk)
        if imgCrcOk d then a.selectBank (some (1 - bk, leAt d 0x10 4)) b.cut fun a => (a, nAns 0 0) else (a, nAns 4 0))

/-- The row ERASE (R477). -/
def execErase (m : Fin 16) (c : LbCmd) (b : HostBuf) (s : State) : Res :=
  .next (s.lbRun m.val 0x12 4 c fun _ a =>
    if a.mode ≠ .service then (a, .done 3 0 []) else if a.journalBusy 1 then (a, .wait) else a.selectBank none b.cut fun a => (a, nAns 0 0))

/-! ### Logbook records (R480) -/

/-- The fixed part of a record without its CHECK. -/
def recFixed (r : LogRec) : List Byte :=
  leBytes 4 r.seq ++ leBytes 2 r.ev.code ++ leBytes 1 r.ev.src ++ leBytes 1 r.ev.flags ++ leBytes 6 (secOf r.ev.t) ++
    leBytes 1 r.ev.mode ++ leBytes 1 r.ev.tq ++ leBytes 4 (nsOf r.ev.t) ++ leBytes 2 (min 65535 r.lost) ++ leBytes 2 0 ++
    leBytes 4 r.cycle ++ leBytes 4 r.ev.d0 ++ leBytes 4 r.ev.d1 ++ leBytes 4 r.ev.d2 ++ leBytes 4 r.ev.d3

/-- The repeat part without its RCHECK. -/
def recRepeat (r : LogRec) : List Byte :=
  leBytes 2 r.ev.rep ++ leBytes 2 0 ++ leBytes 4 (nsOf r.ev.last) ++ leBytes 4 (secOf r.ev.last)

/-- The 64 bytes of a record. -/
def recBytes (r : LogRec) : List Byte :=
  let f := recFixed r
  let p := recRepeat r
  f ++ leBytes 4 (crc32c f) ++ p ++ leBytes 4 (crc32c p)

/-- Read a record from MRAM: a part that fails its check gives the bytes as read, which are free (R485). -/
def State.readRec (s : State) (r : LogRec) : State × List Byte :=
  let b := recBytes r
  let (n, s) := if r.ok && r.rok then (0, s) else s.draw
  let free (k len : Nat) : List Byte := (List.range len).map fun i => Config.freeByte (64 * n + k + i)
  (s, (if r.ok then b.take 48 else free 0 48) ++ (if r.rok then b.drop 48 else free 48 16))

/-- Offer a record to the ring whose SRC is 8; INFO is its SEQ (R485). -/
def State.offerRec (s : State) (r : LogRec) : State := s.offer 8 64 r.seq 0x5C30 (fun _ => true) (recBytes r) none

/-- The waiting repeat part is written (R483). -/
def State.rewriteRep (s : State) : State :=
  match s.log.live, s.log.recs.getLast? with
  | some (n, t), some r =>
    { s with log := { s.log with live := none, rewAt := some s.now, recs := s.log.recs.dropLast ++ [{ r with ev := { r.ev with rep := n, last := t } }] } }
  | _, _ => s

/-- The final rewrite of a record that repeated, before the next record (R483, R485). -/
def State.finalRewrite (s : State) : State :=
  if s.log.repd then
    let s := s.rewriteRep
    let s : State := { s with log := { s.log with repd := false } }
    match s.log.recs.getLast? with | some r => s.offerRec r | none => s
  else s

/-- The record an event becomes now. -/
def State.newRec (s : State) (e : LogEv) : LogRec :=
  ⟨s.rd Reg.LOG_HEAD_SEQ [], s.log.lostSince, s.rd Reg.LOG_CYCLES_COUNT [], e, true, true⟩

/-- Append a record (R482): past 65,536 it replaces the oldest. COUNT is the number of valid records (R490). -/
def State.appendRec (s : State) (e : LogEv) : State :=
  let r := s.newRec e
  let full := decide (65536 ≤ s.log.recs.length)
  let first := full && !s.log.wrapSeen
  let recs := (if full then s.log.recs.drop 1 else s.log.recs) ++ [r]
  let s : State := { s with log := { s.log with recs := recs, lostSince := 0, live := none, repd := false
                                                wrapSeen := s.log.wrapSeen || full } }
  let s := (s.inc Reg.LOG_HEAD_SEQ []).wr Reg.LOG_COUNT_COUNT [] (recs.filter (·.ok)).length
  let s := if full then s.setFlag Reg.LOG_STAT_WRAPPED [] true else s
  let s := s.noticeQuiet bLOG 0
  (if first then s.noticeQuiet bLOG 1 else s).offerRec r

/-- A record formed while the Logbook is sealed (R488): UNSTORED, offered, and counted in LOG_LOST. -/
def State.unstored (s : State) (e : LogEv) : State :=
  let r := s.newRec { e with flags := e.flags + 8 }
  let s : State := { s with log := { s.log with lostSince := s.log.lostSince + 1 } }
  (s.inc Reg.LOG_LOST_COUNT []).offerRec r

/-- MRAM offset of a record's position (R468, R482). -/
def recOffset (seq : Nat) : Nat := 0x800000 + 64 * (seq % 65536)

/-- The last gasp (R488): its record, the seal, standard alarm 2 and the GPIO; `bad` says that the sector's read-back failed. -/
def State.lastGasp (s : State) (bad : Bool) : State :=
  let seq := s.rd Reg.LOG_HEAD_SEQ []
  let e := s.logEv bLOG 0x87 (recOffset seq) seq (s.rd Reg.LOG_LOST_COUNT []) 0
  let r := { s.newRec { e with flags := e.flags + 4 } with ok := !bad, rok := !bad }
  let gasp := (if 64 ≤ s.log.gasp.length then s.log.gasp.drop 1 else s.log.gasp) ++ [r]
  let s : State := { s with log := { s.log with gasp := gasp } }
  let s := if bad then (s.setFlag Reg.LOG_STAT_GASP_FAIL [] true).noticeQuiet bLOG 5 else s
  let s := (s.setFlag Reg.LOG_STAT_SEALED [] true).noticeQuiet bLOG 3
  let s := s.stdAlarm 2 true
  { s with log := { s.log with gpioSeal := s.flag Reg.LOG_CFG_GASP_EN [] } }

/-- The event that is written next: the record of a CLEAR, else the head of the staging queue (R484, R486). -/
def State.takeStaged (s : State) : State × Option LogEv :=
  match s.log.clearEv, s.log.stage with
  | some e, _ => ({ s with log := { s.log with clearEv := none } }, some e)
  | none, e :: r => (({ s with log := { s.log with stage := r } } : State).staged, some e)
  | none, [] => (s, none)

/-- The row LOG_RECORD_WRITE (R482, R488). -/
def execLogRecordWrite (fault : LogFault) (t : Time) (s : State) : Res :=
  let s := s.advance t
  .next (if s.powered = false ∨ s.flag Reg.LOG_STAT_READY [] = false then s
    else match s.takeStaged with
    | (s, none) => s
    | (s, some e) =>
      if s.flag Reg.LOG_STAT_SEALED [] then s.unstored e
      else
        let s := s.finalRewrite
        match fault with
        | .none => s.appendRec e
        | .mismatchOnce => s.appendRec e
        | .mismatchTwice bad => (s.lastGasp bad).unstored e
        | .uncorrectable bad => (s.lastGasp bad).unstored e)

/-- The row REPEAT_REWRITE (R483). -/
def execRepeatRewrite (t : Time) (s : State) : Res :=
  let s := s.advance t
  let early := match s.log.rewAt with | some u => decide (s.now < u + 100 * usU) | none => false
  .next (if s.powered ∧ s.flag Reg.LOG_STAT_READY [] ∧ s.flag Reg.LOG_STAT_SEALED [] = false ∧ early = false then s.rewriteRep else s)

/-! ### Reading and clearing (R485, R486) -/

/-- How far a record's SEQ lies after another, modulo 2^32. -/
def recAfter (r : LogRec) (first : Nat) : Nat := (r.seq + 2 ^ 32 - first % 2 ^ 32) % 2 ^ 32

/-- The held records of a run of SEQs, rising from the first. -/
def State.recRun (s : State) (first n : Nat) : List LogRec :=
  let rs := s.log.recs.filter fun r => decide (recAfter r first < n)
  (rs.filter fun r => decide (recAfter r first < 2 ^ 31)) ++ rs.filter fun r => decide (2 ^ 31 ≤ recAfter r first)

/-- Read records one after another. -/
def State.readRecs (s : State) : List LogRec → State × List Byte
  | [] => (s, [])
  | r :: rs =>
    let (s, b) := s.readRec r
    let (s, bs) := s.readRecs rs
    (s, b ++ bs)

/-- The row LOG_READ, command READ of the Logbook (R485). -/
def execLogRead (m : Fin 16) (c : LbCmd) (b : HostBuf) (s : State) : Res :=
  .next (s.lbRun m.val 0x13 1 c fun _ a =>
    if b.err then (a, .done 5 0 [])
    else
      let rs := (a.recRun (lbW c 0) (lbW c 1)).take (c.len / 64)
      let (a, bytes) := a.readRecs rs
      (if bytes.isEmpty then a else a.emit (.hostWrite c.addr bytes), .done 0 bytes.length (leBytes 4 rs.length)))

/-- The row LOG_CLEAR, command CLEAR of the Logbook (R486). -/
def execLogClear (m : Fin 16) (c : LbCmd) (_b : HostBuf) (s : State) : Res :=
  .next (s.lbRun m.val 0x13 2 c fun _ a =>
    if a.mode ≠ .service then (a, .done 3 0 [])
    else
      let n := a.log.recs.length
      let e := a.logEv bLOG 0x83 n 0 0 0
      let a : State := { a with log := { a.log with recs := [], live := none, repd := false, clearEv := some e, wrapSeen := false } }
      (((a.wr Reg.LOG_COUNT_COUNT [] 0).setFlag Reg.LOG_STAT_WRAPPED [] false).noticeQuiet bLOG 4, .done 0 0 []))

/-- What the Logbook window shows at an entry (R485): the record with SEQ = FIRST + i, or none, which reads 0. -/
def State.window (s : State) (i : Nat) : Option LogRec :=
  s.log.recs.find? fun r => r.seq == (s.rd Reg.LOG_WIN_FIRST [] + i) % 2 ^ 32

/-! ### Operating counters (R487) -/

/-- LOG_OPSEC as it stands: whole seconds counted up to now. -/
def State.countOpsec (s : State) : State :=
  let n := (s.now - s.log.opsecT) / second
  ({ s with log := { s.log with opsecT := s.log.opsecT + n * second } } : State).bump Reg.LOG_OPSEC_SEC [] n

/-- Save the operating counters in the older copy (R470, R487). -/
def State.saveOps (s : State) : State :=
  let a := s.log.opA
  let b := s.log.opB
  let put (q : Nat) : OpCopy := ⟨(q + 1) % 2 ^ 32, true, s.rd Reg.LOG_OPSEC_SEC [], s.rd Reg.LOG_CYCLES_COUNT []⟩
  let above := let d := (b.seq + 2 ^ 32 - a.seq) % 2 ^ 32; decide (0 < d ∧ d < 2 ^ 31)
  if a.ok && (!b.ok || !above) then { s with log := { s.log with opB := put a.seq } }
  else { s with log := { s.log with opA := put b.seq } }

/-- The copy that is in force: the newer of those that pass (R470). -/
def State.opsNow (s : State) : OpCopy :=
  let a := s.log.opA
  let b := s.log.opB
  if a.ok && (!b.ok || !decide (0 < (b.seq + 2 ^ 32 - a.seq) % 2 ^ 32 ∧ (b.seq + 2 ^ 32 - a.seq) % 2 ^ 32 < 2 ^ 31)) then a else b

/-- The row OPSEC_SAVE (R487): LOG_OPSEC has reached a multiple of 60 since it was saved. -/
def execOpsecSave (t : Time) (s : State) : Res :=
  let s := s.advance t
  .next (if s.powered then
    let s := s.countOpsec
    if s.opsNow.opsec / 60 < s.rd Reg.LOG_OPSEC_SEC [] / 60 then s.saveOps else s
  else s)

end Sys2Proof.Machine
end

