-- ==== Sys2Proof/Machine/Health.lean ====
section
/-! DEFINITION. Memories and their tests (R16, R33, R42, R43, R432, R567, R568), temperature and supplies (R592 to R597), and the
I²C buses (R598). -/
namespace Sys2Proof.Machine

/-! ### DRAM channels (R42, R43) -/

/-- What the loss of a DRAM region takes with it; the region is empty on the other channel (R42, R271, R397). -/
def State.loseRegion (s : State) (r : Nat) : State :=
  if r = 1 ∨ r = 7 then
    let mine (x : WSlot) : Bool := x.sid % 2 == (if r = 1 then 0 else 1)
    let gone := s.whl.wheel.filter mine
    let s : State := { s with whl := { s.whl with wheel := s.whl.wheel.filter fun x => !mine x } }
    forEach gone (fun x a => a.deadLetter 0x1A x.letter) s
  else if r = 2 then
    let s : State := { s with osc := { s.osc with ckpts := [], recent := [] } }
    forEach (s.osc.grps.map (·.1)) (fun g a => (a.setGrp g (a.grpNew g)).showGrp g) s
  else if r = 3 then
    let s : State := { s with osc := { s.osc with brs := [], defF := none, defTarget := none, defN := none, defJ := none } }
    s.clearDef.wr Reg.OSC_DEF_STAT_EPOCHS [] 0
  else if r = 4 then
    let s : State := { s with isl := { s.isl with trk := s.trkNew, done := none } }
    (if s.rd Reg.ISL_STAT_STATE [] = 2 then s.wr Reg.ISL_STAT_STATE [] 1 else s).islAlarm
  else if r = 5 then { s with sof := { s.sof with aff := [], loads := [], tabCrc := 0 } }
  else
    let s : State := { s with cmp := { s.cmp with jobs := s.cmp.jobs.filter fun j => match j with | .cap _ _ => false | _ => true } }
    let s := s.cmpShow
    let s := forEach (List.range 32) (fun u a =>
      let a := a.setCapUnit u { a.capUnit u with held := [], rebuilt := true }
      if [1, 2, 3, 4].contains (a.capState u) then a.capFill u else a.showSegs u) s
    s.notice bCAP 7 0 0 0

/-- A channel is lost (R42): the regions on it are rebuilt on the other one; with both lost the device goes to HELD. -/
def State.loseChannel (s : State) (ch : Nat) : State :=
  if s.flag Reg.MEM_CH_STAT_LOST [ch] then s
  else
    let s := (s.setFlag Reg.MEM_CH_STAT_LOST [ch] true).notice bMEM 6 ch 0 0
    let old := (s.word (Reg.GLB_DEG_CAUSE_SORTER.off [])).toNat
    let s := if ch = 0 then s.setFlag Reg.GLB_DEG_CAUSE_DRAM0 [] true else s.setFlag Reg.GLB_DEG_CAUSE_DRAM1 [] true
    let s := s.setFlag Reg.GLB_MODE_DEG [] true |>.notice bGLB 2 old (s.word (Reg.GLB_DEG_CAUSE_SORTER.off [])).toNat 0
    if s.flag Reg.MEM_CH_STAT_LOST [1 - ch] then s.fatal 4
    else
      let regions := (s.mem.dram.filter fun e => e.2.1 == ch).map (·.1)
      let s : State := { s with mem := { s.mem with dram := s.mem.dram.map fun e => if e.2.1 == ch then (e.1, 1 - ch, e.2.2) else e } }
      (forEach regions (fun r a => a.loseRegion r) s).refreshDeg

def State.ueTimes (s : State) (ch : Nat) : List Time := if ch = 0 then s.mem.ue0 else s.mem.ue1
def State.setUeTimes (s : State) (ch : Nat) (ts : List Time) : State :=
  if ch = 0 then { s with mem := { s.mem with ue0 := ts } } else { s with mem := { s.mem with ue1 := ts } }

/-- Show the last DRAM codeword in error (R567). -/
def State.dramLast (s : State) (ch addr : Nat) (ue : Bool) : State :=
  ((s.wr Reg.MEM_CH_LAST_LO_ADDR [ch] addr).wr Reg.MEM_CH_LAST_HI_ADDR [ch] (addr / 2 ^ 32)).setFlag Reg.MEM_CH_LAST_HI_UE [ch] ue

/-- An uncorrectable DRAM codeword counts with its address and notice (R567). -/
def State.dramCount (s : State) (c addr : Nat) : State :=
  ((s.inc Reg.MEM_CH_UE_COUNT [c]).dramLast c addr true).notice bMEM 3 c addr 0

/-- What read the codeword: an item of a sorter, which is reissued, or the patrol, whose test has failed (R17, R432). -/
def State.dramMet (s : State) (item : Option Nat) : State :=
  match item with
  | some n => (match s.inService n with | some i => if i.ran then s else (s.reissue i n).kick | none => s)
  | none => if s.processing then s.selfTestFail 3 else s

/-- The times of a channel's uncorrectable codewords within the last second. -/
def State.ueRecent (s : State) (c : Nat) : List Time := (s.ueTimes c).filter fun u => decide (s.now < u + second)

/-- One more within the last second: the sixteenth loses the channel (R568). -/
def State.ueWindow (s : State) (c : Nat) : State :=
  let ts := s.ueRecent c ++ [s.now]
  let s := s.setUeTimes c ts
  if 16 ≤ ts.length then s.loseChannel c else s

/-- The row DRAM_UE (R568): `item` is the sorter whose item read the codeword; without one the patrol found it. An item whose
results are written is over and is not reissued (R181). -/
def execDramUe (ch : Fin 2) (addr : Nat) (item : Option Nat) (t : Time) (s : State) : Res :=
  let s := s.advance t
  .next (if s.powered = false ∨ s.flag Reg.MEM_CH_STAT_LOST [ch.val] then s
    else ((s.dramCount ch addr).dramMet item).ueWindow ch)

/-- The row DRAM_PATROL_PASS (R432): `pct` of the pass is done; at 100 the pass is complete. The pass
counts when the last channel in use ends it (log entry 139, DESIGN CHOICE). -/
def execDramPatrolPass (ch : Fin 2) (pct corrected addr : Nat) (t : Time) (s : State) : Res :=
  let s := s.advance t
  let c := ch.val
  .next (if s.processing = false ∨ s.flag Reg.MEM_CH_STAT_LOST [c] then s
    else
      let s := s.wr Reg.MEM_CH_PATROL_PCT [c] (if 100 ≤ pct then 0 else pct)
      let last := c = 1 ∨ s.flag Reg.MEM_CH_STAT_LOST [1] ∨ s.rd Reg.MEM_CH_STAT_GIB [1] = 0
      let s := if 100 ≤ pct ∧ last then s.inc Reg.MEM_SCRUB_DRAM [] else s
      if corrected = 0 then s
      else ((s.bump Reg.MEM_CH_CE_COUNT [c] corrected).dramLast c addr false).noticeFirst bMEM 2 c addr 0)

/-! ### SRAM (R15, R16, R33, R432) -/

def State.sramLast (s : State) (wh index : Nat) : State := (s.wr Reg.MEM_SRAM_LAST_WHERE [] wh).wr Reg.MEM_SRAM_LAST_INDEX [] index

/-- The row SRAM_UE (R16, R33): a sorter is fenced; in central SRAM the error is fatal. -/
def execSramUe (wh : Fin 65) (index : Nat) (t : Time) (s : State) : Res :=
  let s := s.advance t
  .next (if s.powered = false then s
    else
      let s := ((s.inc Reg.MEM_SRAM_UE_COUNT []).sramLast wh index).notice bMEM 1 wh index 0
      let s := if s.processing then s.selfTestFail 1 else s
      if wh.val < 64 then s.fence wh else s.fatal 3)

/-- The row SRAM_SCRUB_PASS (R432). -/
def execSramScrubPass (corrected lastWhere lastIndex : Nat) (t : Time) (s : State) : Res :=
  let s := s.advance t
  .next (if s.processing = false then s
    else
      let s := s.inc Reg.MEM_SCRUB_SRAM []
      if corrected = 0 then s
      else ((s.bump Reg.MEM_SRAM_CE_COUNT [] corrected).sramLast lastWhere lastIndex).noticeFirst bMEM 0 lastWhere lastIndex 0)

/-- The item of flow 0x5C20 that runs a sorter's test has run (R186, R432). -/
def State.katRan (s : State) (n : Nat) : State :=
  match s.nextRun 0x5C20 (fun w => match w with | .kat k => k == n | _ => false) with
  | some i => s.markRan i.key
  | none => s

/-- The row KNOWN_ANSWER_TEST (R432): a sorter that is not in Run is skipped. -/
def execKnownAnswerTest (srt : Fin 64) (pass : Bool) (t : Time) (s : State) : Res :=
  let n := srt.val
  let s := (s.advance t).katRan n
  .next (if s.processing = false ∨ s.fenced n = true ∨ s.srtState n ≠ 0 ∨ pass = true then s else (s.selfTestFail 2).fence n)

/-! ### MRAM (R33, R443, R446, R468, R485) -/

/-- Corrected MRAM words count, with the last one's place (R469, R568, R569). -/
def State.mramCorrected (s : State) (n addr : Nat) : State :=
  if n = 0 then s
  else (((s.bump Reg.MEM_MRAM_CE_COUNT [] n).setFlag Reg.MEM_MRAM_LAST_VALID [] true).wr Reg.MEM_MRAM_LAST_ADDR [] (addr / 8)).noticeFirst
    bMEM 4 addr 0 0

/-- The row MRAM_READ_CHECK (R432, R446): every live slot is loaded again; `bad` names physical slots whose TAG or unwrap fails,
`corrected` counts the words the code corrected, the last of them at `addr`. An uncorrectable read is a MRAM_UE of its own. -/
def execMramReadCheck (bad : List Nat) (corrected addr : Nat) (t : Time) (s : State) : Res :=
  let s := s.advance t
  .next (if s.processing = false then s
    else
      let phys := s.key.phys.map fun e => if bad.contains e.1 then (e.1, { e.2 with ok := false }) else e
      (({ s with key := { s.key with phys := phys } } : State).loadSlots).mramCorrected corrected addr)

/-- An uncorrectable read in the Strongroom region, by its owner (R33, R443 to R451). -/
def State.keyUe (s : State) (o : Nat) : State :=
  if o < 0x2000 then
    let n := o / 32
    let s : State := { s with key := { s.key with cat := sset s.key.cat n { s.cat n with ok := false } } }
    s.fatal 2
  else if o < 0x42000 then
    let p := (o - 0x2000) / 512
    let phys := s.key.phys.map fun e => if e.1 == p then (e.1, { e.2 with ok := false }) else e
    let s : State := { s with key := { s.key with phys := phys } }
    forEach ((s.key.cat.filter fun e => e.2.state == 1 && e.2.phys == p && e.1 != 0).map (·.1)) (fun n a => a.loadSlot n) s
  else if o < 0x44000 then { s with key := { s.key with ctrA := { s.key.ctrA with ok := false } } }
  else if o < 0x46000 then { s with key := { s.key with ctrB := { s.key.ctrB with ok := false } } }
  else s

/-- An uncorrectable read in the journal and counters region (R468 to R487): the copy or record read is lost. -/
def State.jrnUe (s : State) (o : Nat) : State :=
  let pos (r : JRec) : Nat := match r with | .settings q _ _ _ => q % 1024 | .key q _ _ _ _ _ => q % 1024
  if o < 0x10000 then { s with nvs := { s.nvs with jrn := s.nvs.jrn.filter fun r => pos r != o / 64 } }
  else if o < 0x10008 then { s with nvs := { s.nvs with sel := none } }
  else if 0x10040 ≤ o ∧ o < 0x10080 then { s with log := { s.log with opA := { s.log.opA with ok := false } } }
  else if 0x10080 ≤ o ∧ o < 0x100C0 then { s with log := { s.log with opB := { s.log.opB with ok := false } } }
  else if 0x11000 ≤ o ∧ o < 0x12000 then { s with nvs := { s.nvs with nrgA := s.nvs.nrgA.map fun v => { v with ok := false } } }
  else if 0x12000 ≤ o ∧ o < 0x13000 then { s with nvs := { s.nvs with nrgB := s.nvs.nrgB.map fun v => { v with ok := false } } }
  else if 0x13000 ≤ o ∧ o < 0x13080 then { s with strt := { s.strt with recA := { s.strt.recA with ok := false } } }
  else if 0x13080 ≤ o ∧ o < 0x13100 then { s with strt := { s.strt with recB := { s.strt.recB with ok := false } } }
  else s

/-- An uncorrectable read of a Logbook record: the bytes as read fail their check, and LOG_BADREAD counts it (R485). -/
def State.logUe (s : State) (o : Nat) : State :=
  let hit (r : LogRec) : Bool := r.seq % 65536 == o / 64
  let recs := s.log.recs.map fun r => if hit r then (if o % 64 < 0x30 then { r with ok := false } else { r with rok := false }) else r
  ({ s with log := { s.log with recs := recs } } : State).inc Reg.LOG_BADREAD_COUNT []

/-- An uncorrectable MRAM read counts with its place and notice (R567). -/
def State.mramCount (s : State) (addr : Nat) : State :=
  (((s.inc Reg.MEM_MRAM_UE_COUNT []).setFlag Reg.MEM_MRAM_LAST_VALID [] true).wr Reg.MEM_MRAM_LAST_ADDR [] (addr / 8)).notice bMEM 5 addr 0 0

/-- The row MRAM_UE (R469, R568): the owner of the region handles it. -/
def execMramUe (addr : Nat) (t : Time) (s : State) : Res :=
  let s := s.advance t
  .next (if s.powered = false ∨ 0x1000000 ≤ addr then s
    else
      let s := s.mramCount addr
      if addr < 0x400000 then (if s.processing then s.selfTestFail 4 else s).fatal 1
      else if addr < 0x600000 then s.setBank 0 []
      else if addr < 0x800000 then s.setBank 1 []
      else if addr < 0xC00000 then s.logUe (addr - 0x800000)
      else if addr < 0xC80000 then (if addr < 0xC02000 ∧ s.processing = true then s.selfTestFail 4 else s).keyUe (addr - 0xC00000)
      else if addr < 0xD00000 then s.jrnUe (addr - 0xC80000)
      else s)

/-! ### Temperature (R592, R594, R599) -/

def State.warnC (s : State) : Nat := clampN 60 105 (s.rd Reg.PWR_THERM_WARN_C [])
def State.critC (s : State) : Nat := clampN (s.warnC + 5) 115 (s.rd Reg.PWR_THERM_CRIT_C [])
def State.hystC (s : State) : Nat := clampN 1 20 (s.rd Reg.PWR_THERM_HYST [])

/-- The hottest sensor: the first of the highest readings, in sQ8.8. -/
def hottest (xs : List Word) : Nat × Int :=
  let v (i : Nat) : Int := toSigned 16 (xs.getD i 0).toNat
  (List.range xs.length).foldl (fun a i => if a.2 < v i then (i, v i) else a) (0, v 0)

/-- A threshold's bit (R594). -/
def thermBit (was : Bool) (tj : Int) (lim hyst : Nat) : Bool :=
  if (lim * 256 : Nat) ≤ tj then true else if tj < ((lim : Int) - hyst) * 256 then false else was

/-- WARN and CRIT follow TJ and the thresholds, with standard alarm 10 (R594). -/
def State.thermCheck (s : State) : State :=
  let tj := toSigned 16 (s.rd Reg.PWR_TJ_TJ [])
  let hot := s.rd Reg.PWR_TJ_HOT []
  let w := s.flag Reg.PWR_THERM_WARN []
  let c := s.flag Reg.PWR_THERM_CRIT []
  let w1 := thermBit w tj s.warnC s.hystC
  let c1 := thermBit c tj s.critC s.hystC
  let s := (s.setFlag Reg.PWR_THERM_WARN [] w1).setFlag Reg.PWR_THERM_CRIT [] c1
  let s := if w1 ∧ w = false then s.notice bPWR 2 hot (ofSigned 16 tj) 0 else s
  let s := if c1 ∧ c = false then s.notice bPWR 3 hot (ofSigned 16 tj) 0 else s
  s.stdAlarm 10 w1

/-- The row TJ_SAMPLE (R592, R594). -/
def execTjSample (sensors : List Word) (t : Time) (s : State) : Res :=
  let s := s.advance t
  .next (if s.powered = false ∨ sensors.length ≠ 8 then s
    else
      let h := hottest sensors
      let s := (s.wr Reg.PWR_TJ_HOT [] h.1).wr Reg.PWR_TJ_TJ [] (ofSigned 16 h.2)
      let s := if toSigned 16 (s.rd Reg.PWR_TJ_PEAK_PEAK []) < h.2 then s.wr Reg.PWR_TJ_PEAK_PEAK [] (ofSigned 16 h.2) else s
      s.thermCheck)

/-- The row TJ_PEAK_RESET (R599). -/
def execTjPeakReset (w : Word) (s : State) : Res :=
  .next (s.hostGate (Reg.PWR_TJ_PEAK_PEAK.off []) w fun s => s.wr Reg.PWR_TJ_PEAK_PEAK [] (s.rd Reg.PWR_TJ_TJ []))

/-! ### Supplies (R597) -/

/-- Set or clear the bit `b` of a rail in a field. -/
def State.railBit (s : State) (f : Fld) (b : Nat) (on : Bool) : State :=
  let v := s.rd f []
  s.wr f [] (if on then (if v / b % 2 = 1 then v else v + b) else (if v / b % 2 = 1 then v - b else v))

/-- The row SUPPLY_EXCURSION: `high` or low, and whether the rail is outside its recommended range now or back in it. -/
def execSupplyExcursion (high : Bool) (rail : Fin 8) (now_ : Bool) (s : State) : Res :=
  let seen := if high then Reg.PWR_SUPPLY_HIGH_SEEN else Reg.PWR_SUPPLY_LOW_SEEN
  let b := 2 ^ rail.val
  .next (if s.powered = false then s
    else if now_ then
      let first := s.rd seen [] / b % 2 = 0
      let s := (s.railBit seen b true).railBit Reg.PWR_SUPPLY_OUT b true
      if first then s.logEvent bPWR 0x82 rail (if high then 1 else 0) 0 else s
    else s.railBit Reg.PWR_SUPPLY_OUT b false)

/-! ### I²C (R598) -/

/-- A write of PWR_I2C_CTL: the fields are written; GO is ignored while a transaction runs. LEN 5 to 7 is treated as 4. -/
def State.i2cWrite (s : State) (w : Word) : State :=
  let busy := decide (s.rd Reg.PWR_I2C_CTL_STATUS [] = 1)
  let s := s.store (Reg.PWR_I2C_CTL_GO.off []) (w &&& 0x7FFFFFFF#32)
  if w.getLsbD 31 = false ∨ busy then s
  else
    let len := min 4 (s.rd Reg.PWR_I2C_CTL_LEN [])
    let read := s.flag Reg.PWR_I2C_CTL_READ []
    let s : State := { s with mem := { s.mem with i2c := some (read, len) } }
    (s.wr Reg.PWR_I2C_CTL_STATUS [] 1).emit (.i2c (s.flag Reg.PWR_I2C_CTL_BUS []) (s.rd Reg.PWR_I2C_CTL_ADDR [])
      (s.rd Reg.PWR_I2C_CTL_CMD []) len read (s.flag Reg.PWR_I2C_CTL_PEC []) (s.rd Reg.PWR_I2C_DATA_DATA []))

/-- The row I2C_GO. -/
def execI2cGo (w : Word) (s : State) : Res := .next (s.hostGate (Reg.PWR_I2C_CTL_GO.off []) w fun a => a.i2cWrite w)

/-- The row I2C_DONE: a read leaves the received bytes in PWR_I2C_DATA. -/
def execI2cDone (ok : Bool) (data : Word) (s : State) : Res :=
  .next (match s.mem.i2c with
  | none => s
  | some (read, len) =>
    let s : State := { s with mem := { s.mem with i2c := none } }
    if ok then
      let m := 2 ^ (8 * len)
      let old := s.rd Reg.PWR_I2C_DATA_DATA []
      let s := if read then s.wr Reg.PWR_I2C_DATA_DATA [] (old / m * m + data.toNat % m) else s
      s.wr Reg.PWR_I2C_CTL_STATUS [] 2
    else s.wr Reg.PWR_I2C_CTL_STATUS [] 3)

end Sys2Proof.Machine
end

