-- ==== Sys2Proof/Machine/PortRows.lean ====
section
/-! DEFINITION. The rows of the network ports (R92 to R100, R33, R42): link state, pause, shedding, neighbour messages and
reassembly. -/
namespace Sys2Proof.Machine

/-! ### Frames the port itself handles (R93) -/

def execOtherFrame (f : RxFrame) (s : State) : Res := .next (s.onFrame f.toRxHead fun a => a.disc f.port)

def execArpRequest (f : RxFrame) (addr : Nat) (s : State) : Res :=
  .next (s.onFrame f.toRxHead fun a =>
    if a.ownAddr f.port addr f.v6 then a.tx f.port 3 (a.rd Reg.NET_EGR_PCP_DATA []) none (.arpReply addr f.src) else a)

/-- The row ECHO_REQUEST (R93). The 100 answers a second count per port and per whole second of device time (log entry 129, DESIGN
CHOICE). -/
def execEchoRequest (f : RxFrame) (addr : Nat) (s : State) : Res :=
  .next (s.onFrame f.toRxHead fun a =>
    let p := a.port f.port
    let n := if p.echoSec = secOf a.now then p.echoCnt else 0
    if a.ownAddr f.port addr f.v6 ∧ f.payload.length ≤ 1500 ∧ n < 100 then
      (a.setPort f.port { p with echoSec := secOf a.now, echoCnt := n + 1 }).tx f.port 3 (a.rd Reg.NET_EGR_PCP_DATA []) none
        (.echoReply f.src f.payload)
    else a)

/-! ### Reassembly (R95) -/

def FragCtx.isFor (c : FragCtx) (x : FragId) : Bool := c.v6 == x.v6 && c.src == x.src && c.dst == x.dst && c.ident == x.ident

/-- Count discarded fragments. -/
def State.reasmFail (s : State) (n : Nat) : State := (s.bump Reg.NET_REASM_FAIL_COUNT [] n).notice bNET 7 n 0 0

def State.dropFrag (s : State) (x : FragId) : State :=
  { s with net := { s.net with frags := s.net.frags.filter fun c => !c.isFor x } }

/-- The octets of a datagram whose parts cover it from 0 to its total, in order of offset. -/
def FragCtx.whole (c : FragCtx) : Option (List Byte) :=
  let ps := sortAsc (c.parts.map (·.1))
  let all := ps.foldl (fun (a : Option (List Byte)) o =>
    match a with
    | none => none
    | some bs => if o ≤ bs.length then some (bs.take o ++ sget c.parts o []) else none) (some [])
  match c.total, all with
  | some n, some bs => if n ≤ bs.length then some (bs.take n) else none
  | _, _ => none

/-- A complete UDP datagram enters the pipeline with the stamp of its last fragment: an SPDU, or a C37.118.2 frame by its type. -/
def State.datagram (s : State) (f : RxFrame) (bs : List Byte) (p : Spdu) : State :=
  let g := { f with sport := beAt bs 0 2, dport := beAt bs 2 2, payload := bs.drop 8, conn := none }
  if g.dport = s.rd Reg.NET_UDP_R905 [] then s.spduIn g p (s.arrival f.toRxHead)
  else if c37Type g.payload = 0 then s.c37Data g (s.arrival f.toRxHead)
  else if c37Type g.payload = 4 then s.anyCommand g else s.c37Cfg g

/-- A context takes a fragment; the datagram goes on where it is whole. One above 9,216 octets counts in NET_REASM_FAIL (log entry 128, DESIGN
CHOICE). -/
def State.fragJoin (s : State) (f : RxFrame) (x : FragId) (p : Spdu) (c : FragCtx) : State :=
  let c := { c with parts := sset c.parts x.offset f.payload
                    total := if x.more then c.total else some (x.offset + f.payload.length) }
  match c.whole with
  | some bs => if 9216 < bs.length then (s.dropFrag x).reasmFail c.parts.length else (s.dropFrag x).datagram f bs p
  | none => { s with net := { s.net with frags := s.net.frags.filter (fun k => !k.isFor x) ++ [c] } }

/-- A fragment joins its context, or opens one. -/
def State.fragIn (s : State) (f : RxFrame) (x : FragId) (p : Spdu) : State :=
  match s.net.frags.find? fun c => c.isFor x with
  | none =>
    if 512 ≤ s.net.frags.length then s.reasmFail 1
    else s.fragJoin f x p ⟨x.v6, x.src, x.dst, x.ident, none, [], f.port, f.vlan, s.now⟩
  | some c => s.fragJoin f x p c

def execFragment (f : FragFrame) (ctx : FragId) (s : State) : Res :=
  .next (s.onFrame f.toRxHead fun a => a.fragIn f.toRxFrame ctx f.spdu)

def execReasmTimeout (ctx : FragId) (t : Time) (s : State) : Res :=
  let s := s.advance t
  match s.net.frags.find? fun c => c.isFor ctx with
  | none => .next s
  | some c => .next (if c.start + 5 * msU ≤ s.now then (s.dropFrag ctx).reasmFail c.parts.length else s)

/-! ### Links (R33, R34, R42, R134) -/

def execLinkDown (port : Fin 4) (t : Time) (s : State) : Res :=
  let s := s.advance t
  .next (if s.flag Reg.NET_PORT_CFG_EN [port] then
      let s := (s.setFlag Reg.NET_PORT_STAT_LINK [port] false).setPort port { s.port port with lost := true, restoring := none }
      (s.notice bNET port port 0 0).refreshDeg
    else s)

def execLinkUp (port : Fin 4) (t : Time) (s : State) : Res :=
  let s := s.advance t
  .next (if s.flag Reg.NET_PORT_CFG_EN [port] then
      let p := s.port port
      let was := s.rd Reg.GLB_DEG_CAUSE_PORT [] / 2 ^ port.val % 2 == 1
      let s := (s.setFlag Reg.NET_PORT_STAT_LINK [port] true).wr Reg.NET_PORT_STAT_SPEED [port] (min 2 (s.rd Reg.NET_PORT_CFG_MODE [port]))
      (((s.setPort port { p with lost := p.lost || was, restoring := some s.now }).notice bNET port port 1 0).refreshDeg).sendReports port
    else s)

/-- The link held with a clean receive for 1 s (R42); a failed port is not restored. -/
def execPortRestore (port : Fin 4) (t : Time) (s : State) : Res :=
  let s := s.advance t
  let p := s.port port
  .next (if s.flag Reg.NET_PORT_STAT_LINK [port] && p.restoring.any (fun t => decide (t + second ≤ s.now)) && !p.failed then
      (s.setPort port { p with lost := false, restoring := none }).refreshDeg
    else s)

/-- A hardware fault of a port (R33): failed until the next start; the failure of every enabled port is fatal. -/
def execPortFail (port : Fin 4) (t : Time) (s : State) : Res :=
  let s := s.advance t
  .next (s.setPort port { s.port port with failed := true, restoring := none }).portsChanged

def execFcsErrFrame (port : Fin 4) (t : Time) (s : State) : Res :=
  let s := s.advance t
  let p := s.port port
  let s := s.inc Reg.NET_PORT_FCS_ERR [port]
  .next (s.setPort port { p with restoring := if p.restoring.isSome then some s.now else none })

/-! ### Pause and shedding (R99, R100) -/

/-- A port is paused, for every frame or for some priority. -/
def PortSt.held (p : PortSt) : Bool := p.paused || !p.prios.isEmpty

/-- A frame as it starts: a PTP message carries the stamp of its own delimiter (R75). -/
def TxFrame.stamped (f : TxFrame) (s : State) : TxFrame :=
  match f.body with
  | .pdelayReq n _ => { f with body := .pdelayReq n (s.txTime f.port s.now) }
  | .pdelayFollowUp n _ => { f with body := .pdelayFollowUp n (s.txTime f.port s.now) }
  | _ => f

/-- Transmit what a port's pause no longer holds, in strict priority (R100). Within its third class the device sends Round data and
answers before commands to senders and frames of its own: the spec gives no order inside a class (log entry 74, DESIGN CHOICE). -/
def State.flushPort (s : State) (p : Nat) : State :=
  let v := s.port p
  let stay (f : TxFrame) : Bool := v.paused || v.prios.contains f.pcp
  let s := s.setPort p { v with queue := v.queue.filter stay }
  forEach [0, 1, 2, 3] (fun c a => forEach (v.queue.filter fun f => f.cls == c && !stay f) (fun f b => b.startTx (f.stamped b)) a) s

/-- A port's pause state changes: shown in STAT.PAUSED, and what it no longer holds goes out. -/
def State.setPause (s : State) (p : Nat) (v : PortSt) : State := ((s.setPort p v).setFlag Reg.NET_PORT_STAT_PAUSED [p] v.held).flushPort p

/-- A pause frame, which is no data frame: it is counted as received, and VLAN and PRP do not concern it (log entry 75). -/
def execPauseFrame (port : Fin 4) (prio : Option (Fin 8)) (t : Time) (s : State) : Res :=
  let s := s.advance t
  .next (if s.flag Reg.NET_PORT_CFG_EN [port] = false then s
    else
      let s := s.inc Reg.NET_PORT_RX_FRAMES [port]
      let p := s.port port
      let q : PortSt := { p with pausedAt := if p.held then p.pausedAt else s.now }
      if s.rd Reg.NET_PAUSE_MAX_US [] = 0 ∨ p.cut then s
      else match prio with
        | none => s.setPause port { q with paused := true }
        | some k =>
          if s.rd Reg.NET_EGR_PFC_MASK [] / 2 ^ k.val % 2 = 1 then s.setPause port { q with prios := (p.prios ++ [k.val]).eraseDups } else s)

/-- The bound on pause is reached (R99): what was queued goes out, then pause is honoured again. -/
def execPauseCut (port : Fin 4) (t : Time) (s : State) : Res :=
  let s := s.advance t
  let bound := min 2000 (s.rd Reg.NET_PAUSE_MAX_US []) * usU
  .next (if (s.port port).held ∧ (s.port port).pausedAt + bound ≤ s.now then
      ((s.inc Reg.NET_PORT_PAUSE_CUT [port]).notice bNET 4 port 0 0).setPause port { s.port port with paused := false, prios := [] }
    else s)

/-- A pause time runs out: that of every frame, or that of one priority (R99). -/
def execPauseEnd (w : PauseTime) (t : Time) (s : State) : Res :=
  let s := s.advance t
  let p := s.port w.port
  .next (s.setPause w.port (match w.prio with
    | none => { p with paused := false }
    | some k => { p with prios := p.prios.filter (· != k.val) }))

/-- Data frames that have waited 1 RI of their Round are shed (R100). -/
def execEgressShed (port : Fin 4) (t : Time) (s : State) : Res :=
  let s := s.advance t
  let p := s.port port
  let s := s.setPort port { p with queue := p.queue.filter fun f => (s.overdue f).isNone }
  .next (forEach (p.queue.filterMap s.overdue) (fun x a => a.shedFrame port x) s)

end Sys2Proof.Machine
end

