-- ==== Sys2Proof/Machine/Rings.lean ====
section
/-! DEFINITION. The rows of the host rings (R208 to R218, R229 to R231, R580, R601): doorbells, enables, moderation, PCIe
errors, bus mastering, and commands as they arrive. -/
namespace Sys2Proof.Machine

/-- Rings run outside BACKUP and LOADING (R522). -/
def State.ringsRun (s : State) : Bool := s.powered && s.mode != .loading

/-- A doorbell value that is ignored (R218). -/
def State.doorbellBad (s : State) (ring value : Nat) : State := s.notice bHIF 4 ring value 0

/-- Is a count within a ring: PROD less CONS neither negative nor above its size (R218)? -/
def inRing (prod cons size : Nat) : Bool := decide ((prod + 2 ^ 32 - cons) % 2 ^ 32 ≤ size)

/-- Take one doorbell word of a poste restante ring. -/
def State.prCons (s : State) (r : Nat) (prod cons : Fld) (size : Nat) (w : Word) : State :=
  if inRing (s.rd prod [r]) w.toNat size then s.wr cons [r] w.toNat else s.doorbellBad r w.toNat

/-- An access to a page of BAR2 (R231): a read answers 0; a write reaches a ring that is enabled. -/
def State.bell (s : State) (b : Bell) (en : Bool) (f : Option Word → State → State) : State :=
  match b with
  | .read => if s.powered then s.answer 0 else s
  | .write w0 => if s.ringsRun && en then f w0 s else s

/-- The row PR_DOORBELL: CONS, CONS_B (the word at +0x4) or both are written, or neither, at another offset of the page. -/
def execPrDoorbell (ring : Fin 128) (b : Bell) (consB : Option Word) (s : State) : Res :=
  let r := ring.val
  .next (s.bell b (s.flag Reg.PR_CFG_EN [r]) fun cons s =>
    let s := match cons with | some w => s.prCons r Reg.PR_PROD Reg.PR_CONS (2 ^ s.prSlog r) w | none => s
    let s := match consB with | some w => s.prCons r Reg.PR_PROD_B Reg.PR_CONS_B (2 ^ s.prDlog r) w | none => s
    if cons.isSome || consB.isSome then s.prResume r else s)

def execModTimeout (ring : Fin 128) (t : Time) (s : State) : Res :=
  let s := s.advance t
  let h := sget s.hif.rings ring ring0
  if 2 ≤ s.rd Reg.PR_CFG_NOTIFY [ring] ∧ 0 < h.unnot ∧ h.first + max 1 (s.rd Reg.PR_MOD_MOD_US [ring]) * usU ≤ s.now then
    .next (({ s with hif := { s.hif with rings := sset s.hif.rings ring { h with unnot := 0 } } } : State).raiseVector
      (s.rd Reg.PR_CFG_VEC [ring]))
  else .next s

/-- What a write of CFG.EN = 1 clears (R213, R229). -/
def State.prClear (s : State) (r : Nat) : State :=
  let s : State := { s with hif := { s.hif with rings := sset s.hif.rings r ring0 } }
  let s := (s.wr Reg.PR_PROD [r] 0).wr Reg.PR_PROD_B [r] 0
  let s := (s.wr Reg.PR_CONS [r] 0).wr Reg.PR_CONS_B [r] 0
  (s.wr Reg.PR_GAP [r] 0).setFlag Reg.PR_STAT_DROPPING [r] false

/-- A write of a poste restante ring's CFG. -/
def State.prCfg (s : State) (r : Nat) (w : Word) : State :=
  let s := s.store (Reg.PR_CFG_EN.off [r]) w
  if Reg.PR_CFG_EN.get w = 1 then s.prClear r else s

def execPrEnable (ring : Fin 128) (w : Word) (s : State) : Res :=
  .next (s.hostGate (Reg.PR_CFG_EN.off [ring.val]) w fun a => a.prCfg ring w)

/-! ### Letterbox rings (R216) -/

/-- The commands a letterbox ring may have fetched and not completed (R230). -/
def State.lbDepth (s : State) (m : Nat) : Nat := clampN 1 64 (s.rd Reg.LB_CFG_DEPTH [m])

/-- Commands of a ring fetched and not completed: those that CONS and DONE count, and those from before its last enable. -/
def State.lbOutstanding (s : State) (m : Nat) : Nat :=
  (s.rd Reg.LB_CONS [m] + 2 ^ 32 - s.rd Reg.LB_DONE [m]) % 2 ^ 32 + sget s.hif.lbOld m 0

/-- A write of a letterbox ring's CFG. EN = 1 starts the counts anew; commands still outstanding run on and are not counted in the
new DONE (log entry 58). -/
def State.lbCfg (s : State) (m : Nat) (w : Word) : State :=
  let s := s.store (Reg.LB_CFG_EN.off [m]) w
  if Reg.LB_CFG_EN.get w = 1 then
    let s : State := { s with hif := { s.hif with lbOld := sset s.hif.lbOld m (s.lbOutstanding m) } }
    ((s.wr Reg.LB_PROD [m] 0).wr Reg.LB_CONS [m] 0).wr Reg.LB_DONE [m] 0
  else s

def execLbEnable (m : Fin 16) (w : Word) (s : State) : Res :=
  .next (s.hostGate (Reg.LB_CFG_EN.off [m.val]) w fun a => a.lbCfg m w)

/-- The row LB_DOORBELL: PROD is written, or another offset of the page. -/
def execLbDoorbell (m : Fin 16) (b : Bell) (s : State) : Res :=
  .next (s.bell b (s.flag Reg.LB_CFG_EN [m.val]) fun prod s =>
    match prod with
    | none => s
    | some w =>
      if inRing w.toNat (s.rd Reg.LB_CONS [m.val]) (2 ^ clampN 4 12 (s.rd Reg.LB_CFG_SLOG2 [m.val])) then
        s.wr Reg.LB_PROD [m.val] w.toNat
      else s.doorbellBad (128 + m.val) w.toNat)

/-- May the device fetch a command of a ring (R216, R218)? Its item of class 3 needs room in the pool (R186). -/
def State.lbMayFetch (s : State) (m : Nat) : Bool :=
  s.ringsRun && s.flag Reg.LB_CFG_EN [m] && s.flag Reg.HIF_STAT_BME [] && s.rd Reg.LB_PROD [m] != s.rd Reg.LB_CONS [m] &&
    decide (s.lbOutstanding m < s.lbDepth m) && s.hkRoom

def execLbCommandFetched (m : Fin 16) (cmd : List Byte) (t : Time) (s : State) : Res :=
  let s := s.advance t
  if s.lbMayFetch m ∧ cmd.length = 64 then .next ((s.inc Reg.LB_CONS [m.val]).enqueueC3 (lbFlow m) (.letterbox m cmd none))
  else .next s

/-! ### Errors, bus mastering, the link (R218, R229, R580) -/

def execRingPcieError (lb : Bool) (ring : Fin 128) (s : State) : Res :=
  if !s.ringsRun then .next s
  else if lb then
    if ring.val < 16 ∧ s.flag Reg.LB_CFG_EN [ring.val] then
      .next (((s.setFlag Reg.LB_CFG_EN [ring.val] false).setFlag Reg.LB_STAT_PCIE_ERR [ring.val] true).notice bHIF 1 (128 + ring.val) 0 0)
    else .next s
  else if s.flag Reg.PR_CFG_EN [ring.val] then
    .next (((s.setFlag Reg.PR_CFG_EN [ring.val] false).setFlag Reg.PR_STAT_PCIE_ERR [ring.val] true).notice bHIF 1 ring.val 0 0)
  else .next s

def execBmeOff (s : State) : Res :=
  if s.powered ∧ s.flag Reg.HIF_STAT_BME [] then .next ((s.setFlag Reg.HIF_STAT_BME [] false).notice bHIF 5 0 0 0) else .next s

/-- PCIe bus mastering comes on, with MSI-X Enable as configuration space has it (log entry 6). -/
def execBusMasteringOn (msix : Bool) (s : State) : Res :=
  if s.powered ∧ s.flag Reg.HIF_STAT_LINK [] then
    .next ({ s with hif := { s.hif with msixEn := msix } } |>.setFlag Reg.HIF_STAT_BME [] true)
  else .next s

def execPcieLinkUp (s : State) : Res := if s.powered then .next (s.setFlag Reg.HIF_STAT_LINK [] true) else .next s

/-- Every ring that is enabled is disabled as R218 has it: EN falls and PCIE_ERR is set. -/
def State.ringsOff (s : State) : State :=
  let s := forEach (List.range 128) (fun r a =>
    if a.flag Reg.PR_CFG_EN [r] then (a.setFlag Reg.PR_CFG_EN [r] false).setFlag Reg.PR_STAT_PCIE_ERR [r] true else a) s
  forEach (List.range 16) (fun m a =>
    if a.flag Reg.LB_CFG_EN [m] then (a.setFlag Reg.LB_CFG_EN [m] false).setFlag Reg.LB_STAT_PCIE_ERR [m] true else a) s

/-- PERST_N resets the link and configuration space only (R580): the link, bus mastering and MSI-X go off, every ring is
disabled, and BME_OFF is noticed. -/
def State.perst (s : State) : State :=
  let s : State := { s with hif := { s.hif with msixEn := false } }
  let s := (s.setFlag Reg.HIF_STAT_LINK [] false).setFlag Reg.HIF_STAT_BME [] false
  s.ringsOff.notice bHIF 5 0 0 0

def execPerst (s : State) : Res := if s.powered then .next s.perst else .next s

end Sys2Proof.Machine
end

