-- ==== Sys2Proof/Machine/StartBegin.lean ====
section
/-! DEFINITION. How a start begins (R506, R507, R520, R527) and what each kind keeps (R82, R83, R130, R174, R175, R222, R270, R306,
R340, R368, R396, R435), the power-fail cut (R469), and failed starts (R524 to R526). -/
namespace Sys2Proof.Machine

/-! ### The flash command under way (R527, R531) -/

/-- A flash command is abandoned: what its range holds is free, and the slot is refused at the next cold start. -/
def State.flashAbandon (s : State) : State :=
  match s.nvs.fop with
  | none => s
  | some f =>
    let k := s.free
    let s : State := { s with free := k + f.len, nvs := { s.nvs with fop := none, taint := [f.addr / slotSize, (f.addr + f.len - 1) / slotSize] ++ s.nvs.taint } }
    s.flashPut f.addr ((List.range f.len).map fun i => Config.freeByte (k + i))

/-! ### The power-fail cut (R30, R469, R527, R582, R583) -/

/-- The device enters BACKUP: what is in SRAM is lost, what is in MRAM and in the backup domain stays. The words
stored for BAR0, which nothing reads before the next start resets them, stay in the state (log entry 136, DESIGN CHOICE). -/
def State.powerCut (s : State) : State :=
  if s.powered then
    let s := s.flashAbandon
    { s with powered := false, log := { s.log with stage := [], lostSince := 0, live := none, repd := false, clearEv := none } }
  else s

/-! ### Fields and state that a start resets (R507) -/

/-- The sub-structures that a cold start empties: DRAM, SRAM, sorters and links. -/
def State.coldClear (s : State) : State :=
  { s with sof := .reset, hif := .reset, net := .reset, adm := .reset, whl := .reset, alm := { AlmSt.reset with oeN := s.alm.oeN }
           glb := .reset, pair := .reset, acq := .reset, nrg := .reset, cap := { CapSt.reset with fireLow := s.cap.fireLow, syncLow := s.cap.syncLow }, cmp := .reset, osc := .reset, isl := .reset
           mem := .reset
           key := { s.key with run := [], cache := [], cacheOk := false, chal := none, ctrLost := false } }

/-- What a start forgets of an earlier one. -/
def State.startClear (s : State) : State :=
  { s with strt := { s.strt with slots := [], cand := none, code := 0, hdrOk := false, imageDone := false, dramDone := false
                                 changed := false, retryAt := none, settled := false, lockDue := false, svcSub := none, stableSince := none } }

/-- Device time is loaded from the backup-domain clock; the clock's own second goes on (R82). -/
def State.loadTime (s : State) : State :=
  let sub := s.now - s.bkd.tickAt
  let n := s.bkdSec * second
  { s with now := n, log := { s.log with opsecT := n, rewAt := none }, bkd := { s.bkd with tickAt := n - sub }, tb := .reset }

/-- Show how the start was triggered. -/
def State.showStart (s : State) (kind src : Nat) (full : Bool) : State :=
  ((s.wr Reg.STRT_STAT_KIND [] kind).wr Reg.STRT_STAT_SRC [] src).setFlag Reg.STRT_STAT_FULL [] full

/-- The levels at ALM_OE_N and on the cross-trigger lines, which no start changes, and the compression engine's work, shown after
registers of kind W took their reset values (R309, R398, R401). -/
def State.showOe (s : State) : State := ((s.setFlag Reg.ALM_PIN_STAT_OE [] (!s.alm.oeN)).showLines).cmpShow

/-- Registers and state of a cold start (R507). -/
def State.coldReset (s : State) : State :=
  (((s.coldClear.startClear).resetKinds fun z => z == .c || z == .w || z == .d).showOe).staged

/-! ### Cold starts (R82, R487, R495, R505) -/

/-- The operating counters are read from their copies, and an entry from BACKUP is counted and saved (R487). -/
def State.startOps (s : State) : State :=
  let a := s.log.opA
  let b := s.log.opB
  let v : Option OpCopy := if newerIsA a.ok b.ok a.seq b.seq then some a else if b.ok then some b else none
  let s := (s.wr Reg.LOG_OPSEC_SEC [] ((v.map (·.opsec)).getD 0)).wr Reg.LOG_CYCLES_COUNT [] ((v.map (·.cycles)).getD 0 + 1)
  let s := s.saveOps
  if v.isNone then s.logEvent bLOG 0x82 0x10040 0 0 else s

/-- What step 1 of a cold start does at its beginning: device time, one steering frame, and what the backup domain reports. -/
def State.coldTime (s : State) : State :=
  let s := s.loadTime
  let s := { s with strt := { s.strt with began := s.now } }.steerFrame 0
  let s := if s.flag Reg.BKD_STAT_OSF [] then (s.logEvent bBKD 0x86 (s.bkdSec % 2 ^ 32) 0 0).notice bBKD 2 0 0 0 else s
  let due := s.bkd.due
  forEach due (fun x a => a.notice bBKD x.1 x.2.1 x.2.2.1 x.2.2.2) { s with bkd := { s.bkd with due := [] } }

/-- A cold start begins (R506): from BACKUP, kind 0, or as a retry, kind 1. -/
def State.coldBegin (s : State) (kind src : Nat) : State :=
  let s := if kind = 0 then s else s.countOpsec
  let s := s.flashAbandon
  let s : State := { s with powered := true, strt := { s.strt with counted := false } }
  let s := (s.coldReset.showStart kind src false).coldTime
  let s := if kind = 0 then s.startOps else s
  if kind = 1 then s.wr Reg.GLB_MODE_CAUSE [] 12 else s

/-! ### Warm starts: the timebase (R83) -/

/-- The timebase at a warm start: a counter that is 2 s off the backup-domain clock is loaded anew, and then STATE and SEL return to
their reset values without STATE_CHG or SWITCH, as at a cold start (log entry 80, DESIGN CHOICE). `unc` is TB_UNC as it stood. -/
def State.warmTime (s : State) (unc : Nat) : State :=
  let ref := s.bkdSec * second + s.bkdSub * (second / 32768)
  let away := if ref ≤ s.now then s.now - ref else ref - s.now
  let st := s.rd Reg.TB_STAT_STATE []
  if 2 * second < away then
    let s := s.loadTime
    let s := (s.setWord (Reg.TB_STAT_STATE.off []) (resetWord (Reg.TB_STAT_STATE.off []))).wr Reg.TB_UNC_UNC [] (2 ^ 32 - 1)
    (s.steerFrame 0).refreshUtc
  else
    let tb : TbSt := { s.tb with dom0 := .reset, dom1 := .reset, shadow := none, commit := none, disagree := false, agreeSince := none, lockN := [] }
    let s : State := { s with tb := tb }
    let s := s.refreshUtc
    if 2 ≤ st ∧ st ≤ 4 then
      let s := s.setTb 4
      { s with tb := { s.tb with holdT := s.now, holdUnc := unc } }
    else (s.setTb 0).wr Reg.TB_UNC_UNC [] (2 ^ 32 - 1)

/-! ### Warm starts: streams (R130, R175, R222) -/

/-- The sender cache is rebuilt from the kept streams; a stream whose descriptor's CHECK fails awaits its configuration. -/
def State.warmAdm (s : State) : State :=
  let live (e : Sender) : Bool := (match e.st with | .admitted => true | _ => false) && !e.sids.isEmpty
  let keep := (s.adm.senders.filter live).map fun e => { e with reqN := 0, reqLast := none, firstDead := none, parts := none }
  let s : State := { s with adm := { AdmSt.reset with senders := keep, nextId := s.adm.nextId, freedAt := s.adm.freedAt, shapes := s.adm.shapes } }
  let s := forEach (s.entries 0x400000 256 16384) (fun sid a =>
    if 2 ≤ a.rd Reg.STAB_STATE [sid] ∧ a.rd Reg.STAB_STATE [sid] ≤ 4 ∧ descSound (a.desc sid) = false then
      (a.putDesc sid (List.replicate 64 0#32)).wr Reg.STAB_STATE [sid] 2 else a) s
  let wanted := s.wantedConns
  let conns := (s.net.conns.filter fun c => wanted.any fun w => w.1 == c.addr && w.2.1 == c.v6 && w.2.2.1 == c.dport).map fun c =>
    { c with up := false, fails := 0, waiting := true, buf := [] }
  { s with net := { s.net with conns := conns } }

/-- A tracker is kept while q, m and d lie within 64 RI and d ≤ q (R175); its words are in units of 1/256 µs. -/
def State.trackOk (s : State) (sid : Nat) : Bool :=
  let q := s.stabRd Reg.STAB_Q Reg.LSTAB_Q sid
  let m := s.stabRd Reg.STAB_M Reg.LSTAB_M sid
  let d := s.stabRd Reg.STAB_D Reg.LSTAB_D sid
  let lim (x : Nat) : Bool := decide (x * s.sidFps sid ≤ 64 * 256 * 1000000)
  lim q && lim m && lim d && decide (d ≤ q)

/-- The wheel is empty, no mailbag is open, announcing commits are abandoned, and values that waited for a boundary stand. -/
def State.warmWhl (s : State) : State :=
  let pend := s.whl.rnds.flatMap fun e => e.2.pendCfg
  let s : State := { s with whl := .reset }
  let s := forEach pend (fun e a =>
    let w := storedWord e.1 true (a.word e.1) e.2
    if e.1 < 0xB0000 then a.put 0x60000 e.1 w else a.put 0xB0000 e.1 w) s
  let sids := s.entries 0x400000 256 16384 ++ (s.entries 0xC00000 256 8).map (16384 + ·)
  forEach sids (fun sid a => if a.trackOk sid then a else a.stabWr Reg.STAB_SEEDED Reg.LSTAB_SEEDED sid 0) s

/-- Sorting Office and placement: the pigeonholes, windows and staging are empty, what R222 names is kept, the affinity and load
tables only if their CRC-32C passes. -/
def State.warmSof (s : State) : State :=
  let ok := crc32c s.tabBytes == s.sof.tabCrc
  { s with sof := { SofSt.reset with homes := s.sof.homes, fallbacks := s.sof.fallbacks, active := s.sof.active, movedAt := s.sof.movedAt
                                     aff := if ok then s.sof.aff else [], loads := if ok then s.sof.loads else []
                                     tabCrc := if ok then s.sof.tabCrc else 0
                                     lastPass := s.sof.lastPass, loadSec := s.sof.loadSec, nextId := s.sof.nextId, clk := s.sof.clk } }

/-- Ports: what waited is gone, and a failed port is judged anew (R33). -/
def State.warmNet (s : State) : State :=
  { s with net := { s.net with ports := [], frags := [], prpFullAt := none } }

/-! ### Warm starts: analysis, alarms, metering, capture (R270, R306, R340, R368, R396) -/

/-- The last applied clustering, which R306 keeps: sites with their group and cosine, and the centroids; in LOADING the one that an
earlier start kept and has not resumed. -/
def State.keptClusters (s : State) : Option (List (Nat × (Nat × Nat)) × List (Nat × List Word)) :=
  let a := (s.sites.filter fun i => s.flag Reg.SITE_ASSIGNED [i]).map fun i => (i, (s.rd Reg.SITE_CG [i], s.rd Reg.SITE_COS [i]))
  if !a.isEmpty then some (a, s.isl.trk.cents) else if s.mode = .loading then s.isl.done else none

/-- A machine in a latched state that it entered outside SERVICE keeps it, with its entry instant (R306). -/
def State.amKept (s : State) (m : Nat) : Bool :=
  s.amOk m && s.flag Reg.AM_ST_LATCH [m, s.rd Reg.AMR_STATE [m]] && !s.flag Reg.AMR_TEST_ENTRY [m]

def State.warmAlm (s : State) : State :=
  let kept := (s.alm.ams.filter fun e => s.amKept e.1).map fun e => (e.1, { e.2 with b := 0 })
  let s : State := { s with alm := { AlmSt.reset with oeN := s.alm.oeN, ams := kept } }
  forEach ((s.entries 0xFA0000 32 1024).filter fun m => !s.amKept m) (fun m a =>
    (a.amRest m).setFlag Reg.AMR_INHIBIT [m] (a.amOk m && a.flag Reg.AMR_INHIBIT [m])) s

/-- Supply events end with GAP, and nothing is taken from a snapshot or a preset; the test registers are cleared (R356, R368). -/
def State.warmNrg (s : State) : State :=
  let s := forEach (List.range 2) (fun p a =>
    let a := a.pqEndAll p 8
    a.setNrgPt p { a.nrgPt p with urms := [], half := [], due := [], snapDue := none, preset := none, test := List.replicate 16 0 }) s
  s

/-- Capture: a held segment stays where its header's CHECK and its body's CRC-32C pass, and every other is freed; history and records
under way are discarded. A held record that was not offered yet waits for the engine again (log entry 97). -/
def State.warmCap (s : State) : State :=
  let units := s.cap.units.map fun e => (e.1, { capFresh e.2 with held := e.2.held.filter fun h => capSound e.1 h.1, hold := none })
  let jobs := units.flatMap fun e => (e.2.held.filter fun h => !h.2).map fun h => CmpJob.cap e.1 h.1.seq
  { s with cap := { s.cap with units := units, pulling := [], syncAt := none }, cmp := { jobs := jobs } }

/-- Everything of R507's warm column but the registers. -/
def State.warmClear (s : State) : State :=
  let isl : IslSt := { IslSt.reset with done := s.keptClusters, recSeq := s.isl.recSeq }
  let osc : OscSt := { OscSt.reset with ckpts := s.osc.ckpts }
  let acq : AcqSt := { AcqSt.reset with ls := s.acq.ls.map fun e => (e.1, { e.2 with next := none }) }
  let s := (((s.warmAdm.warmWhl).warmSof).warmNet).warmAlm.warmCap
  { s with isl := isl, osc := osc, acq := acq, glb := .reset, pair := { PairSt.reset with failAt := s.pair.failAt }
           hif := { HifSt.reset with msixEn := s.hif.msixEn }, mem := { s.mem with ue0 := [], ue1 := [], i2c := none }
           key := { s.key with chal := none } }

/-- Registers of kind W take their reset values but for the PCIe link's (R222). -/
def State.warmRegs (s : State) : State :=
  let link := s.rd Reg.HIF_STAT_LINK []
  let bme := s.rd Reg.HIF_STAT_BME []
  (((s.resetKinds (· == .w)).wr Reg.HIF_STAT_LINK [] link).wr Reg.HIF_STAT_BME [] bme).showOe.staged

/-- A warm trigger during a start whose DONE is 0: the sequence goes on from step 2, and its kind stays (R527). GLB_MODE.PREV keeps what
the interrupted start showed: the mode does not change, and the spec says nothing of PREV here (log entry 81, DESIGN CHOICE). A lockout
that the interrupted start owes is still owed (R525). -/
def State.restartStep2 (s : State) (src : Nat) : State :=
  let kind := s.rd Reg.STRT_STAT_KIND []
  let full := s.flag Reg.STRT_STAT_FULL []
  let cause := s.rd Reg.GLB_MODE_CAUSE []
  let tb := s.tb
  let lockDue := s.strt.lockDue
  let s := s.flashAbandon
  let s := if kind = 2 then (s.warmClear.startClear).warmRegs else { s.coldReset with tb := tb }
  let s : State := { s with strt := { s.strt with lockDue := lockDue } }
  ((s.showStart kind src full).wr Reg.GLB_MODE_CAUSE [] cause).wr Reg.STRT_STAT_PHASE [] 2

/-- A warm start (R506); from SERVICE it is the service exit (R532). -/
def State.warmBegin (s : State) (src : Nat) (full : Bool) : State :=
  if s.mode = .backup then s
  else if s.mode = .loading then s.restartStep2 src
  else
    let old := s.mode
    let unc := s.uncNow
    let s := s.countOpsec
    let s := s.warmNrg
    let s := (s.flashAbandon.warmClear.startClear).warmRegs
    let s := (s.showStart 2 (if old = .service then 5 else src) full).wr Reg.GLB_MODE_PREV [] old.code
    let s : State := { s with strt := { s.strt with counted := false } }
    let s := s.warmTime unc
    { s with strt := { s.strt with began := s.now } }

/-! ### Failed starts (R524 to R526) -/

/-- A notice of the start: its bit is set when step 5 ends (R535). -/
def State.strtNotice (s : State) (bit d0 d1 d2 : Nat) : State :=
  if s.mode = .loading ∧ s.rd Reg.STRT_STAT_PHASE [] ≤ 5 then { s with strt := { s.strt with due := s.strt.due ++ [(bit, d0, d1, d2)] } }
  else s.notice bSTRT bit d0 d1 d2

/-- The lockout (R525). -/
def State.lockout (s : State) : State :=
  let s := (s.wr Reg.STRT_FAIL_CODE [] 6).saveRec
  (s.notice bSTRT 2 0 (s.rd Reg.STRT_FAIL_ATTEMPTS []) 6).modeTo .held 9

/-- A failure is counted (R525): its code, ATTEMPTS, the start record, START_FAIL. -/
def State.countFail (s : State) (code sub : Nat) : State :=
  (((s.wr Reg.STRT_FAIL_CODE [] code).wr Reg.STRT_FAIL_SUB [] sub).incSat Reg.STRT_FAIL_ATTEMPTS []).saveRec

/-- ATTEMPTS has reached LOCKOUT. -/
def State.locked (s : State) : Bool := decide (s.rd Reg.STRT_FAIL_LOCKOUT [] ≤ s.rd Reg.STRT_FAIL_ATTEMPTS [])

/-- A start fails with code 1, 2 or 3: a retry 100 ms × ATTEMPTS later, or the lockout, before which steps 1 to 5 are completed. -/
def State.startFail (s : State) (code sub : Nat) : State :=
  let s := (s.countFail code sub).strtNotice 1 0 code sub
  if s.locked then
    (if s.rd Reg.STRT_STAT_PHASE [] ≤ 5 then { s with strt := { s.strt with lockDue := true } } else s.lockout)
  else { s with strt := { s.strt with retryAt := some (s.now + 100 * msU * s.rd Reg.STRT_FAIL_ATTEMPTS []) } }

end Sys2Proof.Machine
end

