-- ==== Sys2Proof/Machine/StartSteps.lean ====
section
/-! DEFINITION. Steps 2 to 8 of a start (R519): fuses, journal and start record (R474, R526, R533), the Strongroom (R449, R463,
R464), the Logbook (R489, R490), the choice of the Manifest (R515 to R517), DRAM, and the self-test of the sorters. -/
namespace Sys2Proof.Machine

/-- Does a warm start run the steps of R520 as on cold start? -/
def State.fullStart (s : State) : Bool := s.flag Reg.STRT_STAT_FULL []

/-- The step that STRT_STAT.PHASE shows; a start that has ended in HELD goes no further. -/
def State.phase (s : State) (n : Nat) : State := if s.mode = .loading then s.wr Reg.STRT_STAT_PHASE [] n else s

/-! ### Step 2: fuses and the function image -/

/-- No authorisation is needed: SVC_OPEN of the Manifest in force, or TEST (R529). -/
def State.showOpen (s : State) : State :=
  s.setFlag Reg.STRT_SVC_OPEN [] (s.strt.svcOpen || s.rd Reg.KEY_LC_STATE [] == 1)

/-- The fuses are read; a start in SCRAPPED is fatal (R33, R440). -/
def State.startFuses (s : State) (hash : List Byte) : State :=
  let s : State := { s with strt := { s.strt with fuseHash := hash } }
  let s := ((s.wr Reg.KEY_LC_STATE [] s.key.fuse).wrWords Reg.KEY_SERIAL_SERIAL [] 4 s.key.serial).showDebug
  let s := s.showOpen
  if s.key.fuse = 4 then s.fatal 6 else s.phase 3

/-! ### Step 3: the journal and the start record -/

/-- Settle one journal record (R458, R472, R474). -/
def State.settleRec (s : State) (r : JRec) : State :=
  match r with
  | .settings _ committed bank q =>
    let s : State := if committed then { s with nvs := { s.nvs with sel := if bank = 2 then none else some (bank, q) } } else s
    (s.setFlag Reg.NVS_STAT_JREPLAY [] true).notice bNVS 5 bank 0 0
  | .key _ committed slot _ new ent =>
    let s : State :=
      if committed then { s with key := { s.key with cat := sset s.key.cat slot ent, phys := s.key.phys.filter fun e => e.2.owner != slot || e.1 == new } }
      else { s with key := { s.key with phys := serase s.key.phys new } }
    { s with strt := { s.strt with settled := true } }

/-- Every open record is settled, in ascending SEQ. -/
def State.settleJournal (s : State) : State :=
  let s := forEach s.nvs.jrn (fun r a => a.settleRec r) s
  { s with nvs := { s.nvs with jrn := [] } }

/-- The start record as it is taken. -/
def State.takeRec (s : State) : State :=
  match s.recTaken with
  | some r =>
    let s := ((s.wr Reg.STRT_COLD_COUNT [] r.cold).wr Reg.STRT_WARM_COUNT [] (if s.warmStart then r.warm else 0)).wr
      Reg.STRT_FAIL_ATTEMPTS [] r.attempts
    let s := ((s.wr Reg.STRT_FAIL_LOCKOUT [] r.lockout).wr Reg.STRT_FAIL_CODE [] r.code).wr Reg.STRT_FAIL_SUB [] r.sub
    let s := ((s.setFlag Reg.STRT_SVC_NEXT [] r.next).wr Reg.STRT_MFLOOR_MVER [] r.mfloor).wr Reg.STRT_MVER_MVER [] r.mver
    let s := (s.wrWords Reg.STRT_MHASH_HASH [] 12 (ofLe r.mhash)).wr Reg.STRT_STAT_MSRC [] (if s.warmStart then r.msrc else 0)
    { s with strt := { s.strt with stableS := r.stableS } }
  | none =>
    -- neither copy passes (R527)
    let sh := s.strt.shadow
    let s := ((s.wr Reg.STRT_COLD_COUNT [] 0).wr Reg.STRT_WARM_COUNT [] 0).wr Reg.STRT_FAIL_ATTEMPTS [] 0
    let s := ((s.wr Reg.STRT_FAIL_LOCKOUT [] 3).wr Reg.STRT_FAIL_CODE [] 0).wr Reg.STRT_FAIL_SUB [] 0
    let s := ((s.setFlag Reg.STRT_SVC_NEXT [] false).wr Reg.STRT_MFLOOR_MVER [] (if imCheck1 sh then imMver sh else 0)).wr
      Reg.STRT_MVER_MVER [] 0
    let s := (s.wrWords Reg.STRT_MHASH_HASH [] 12 0).wr Reg.STRT_STAT_MSRC [] 0
    ({ s with strt := { s.strt with stableS := 60 } } : State).strtNotice 7 0 0 0

/-- Step 3: COLD or WARM counts once in a start, and a power cycle gives one more try (R526). -/
def State.startRecord (s : State) : State :=
  let s := s.settleJournal.showSel
  let s := s.takeRec
  let s := if s.strt.counted then s else if s.warmStart then s.inc Reg.STRT_WARM_COUNT [] else s.inc Reg.STRT_COLD_COUNT []
  let s : State := { s with strt := { s.strt with counted := true } }
  let again := s.rd Reg.STRT_STAT_KIND [] = 0 ∧ s.locked = true ∧ s.strt.lockDue = false
  let s := if again then s.wr Reg.STRT_FAIL_ATTEMPTS [] (s.rd Reg.STRT_FAIL_LOCKOUT [] - 1) else s
  (s.setFlag Reg.STRT_STAT_DONE [] false).saveRec.phase 4

/-! ### Step 4: the Strongroom -/

/-- The keys that a part in TEST has from the start: the identity, and the test transport key (R440). -/
def State.testKeys (s : State) : State :=
  let s := if (s.cat 0).state = 0 ∧ s.rd Reg.KEY_LC_STATE [] ≠ 4 then s.setCat 0 { cat0 with state := 1, ktype := 5, use := 16 } else s
  if (s.cat 2).state = 0 ∧ s.rd Reg.KEY_LC_STATE [] = 1 then
    match s.newPhys with
    | some p => s.install 2 p { cat0 with state := 1, ktype := 4, use := 4 } ⟨4, 0, 2, 0, [], Config.testTransport, [], [], 1, true⟩ 0
    | none => s
  else s

/-- Expiry at reset (R449): EXP 1 and 3 at every start, EXP 2 at a cold start. -/
def State.expireStart (s : State) : State :=
  let due (e : CatEnt) : Bool := (e.state == 1 || e.state == 4) && (e.exp == 1 || e.exp == 3 || (e.exp == 2 && !s.warmStart))
  forEach ((s.key.cat.filter fun e => due e.2).map (·.1)) (fun n a => a.endSlot n 5 2 true) s

/-- Load the cache, or keep it over a warm start and load what differs by GEN (R463, R464). -/
def State.loadCache (s : State) : State :=
  let lc := s.rd Reg.KEY_LC_STATE []
  if s.warmStart ∧ s.fullStart = false ∧ s.key.cacheOk = true ∧ s.key.cacheRoot = lc ∧ s.strt.settled = false then
    forEach ((s.key.cat.filter fun e => e.2.state == 1 && (sfind s.key.cache e.1).map (·.gen) != some e.2.gen).map (·.1))
      (fun n a => a.loadSlot n) s
  else
    let s : State := { s with key := { s.key with cache := [] } }
    let s := s.loadSlots
    { s with key := { s.key with cacheOk := true, cacheRoot := lc } }

/-- Step 4: Strongroom steps 1 to 5. `bad` names the physical slots whose TAG or unwrap fails. -/
def State.startKeys (s : State) (bad : List Nat) : State :=
  let s : State := { s with key := { s.key with phys := s.key.phys.map fun e => if bad.contains e.1 then (e.1, { e.2 with ok := false }) else e } }
  if s.key.cat.any fun e => !e.2.ok then s.fatal 2
  else
    let s := s.testKeys.expireStart.loadCache
    let s := (forEach (s.key.cat.map (·.1)) (fun n a => a.showSlot n) s).showKeyStat
    let s := s.setFlag Reg.KEY_STAT_JREPLAY [] s.strt.settled
    (if s.strt.settled then s.notice bKEY 6 0 0 0 else s).phase 5

/-! ### Step 5: the Logbook -/

/-- The head and the count as reading every record gives them; with no valid record the head stands (R486, R502). -/
def State.findHead (s : State) : State :=
  let ok := s.log.recs.filter (·.ok)
  let s := match ok.getLast? with
    | some r => s.wr Reg.LOG_HEAD_SEQ [] (r.seq + 1)
    | none => s
  s.wr Reg.LOG_COUNT_COUNT [] ok.length

/-- A sealed Logbook at a cold start (R489): the seal ends where the test pattern reads back, and the position is empty. -/
def State.testSeal (s : State) (testOk : Bool) : State :=
  if s.flag Reg.LOG_STAT_SEALED [] = false ∨ s.warmStart then s
  else
    let s : State := { s with log := { s.log with gpioSeal := false } }
    if testOk then
      let gone (r : LogRec) : Bool := match s.log.gasp.getLast? with | some g => recOffset r.seq == g.ev.d0 | none => false
      let s : State := { s with log := { s.log with recs := s.log.recs.filter fun r => !gone r } }
      (s.setFlag Reg.LOG_STAT_SEALED [] false).noticeQuiet bLOG 6
    else (s.noticeQuiet bLOG 3).stdAlarm 2 true

/-- Step 5: the Logbook is ready, the start's notices are set, and record 0x84 follows; then the lockout, where it is due. -/
def State.startLog (s : State) (testOk : Bool) : State :=
  let s := s.testSeal testOk
  let kept := s.warmStart && (match s.log.recs.getLast? with
    | some r => r.ok && (r.seq + 1) % 2 ^ 32 == s.rd Reg.LOG_HEAD_SEQ [] | none => false)
  let s := if kept then s else s.findHead
  let s := (s.setFlag Reg.LOG_STAT_READY [] true).phase 6
  let due := s.strt.due
  let s : State := { s with strt := { s.strt with due := [] } }
  let s := forEach due (fun x a => a.notice bSTRT x.1 x.2.1 x.2.2.1 x.2.2.2) s
  let s := s.countOpsec
  let s := s.logEvent bSTRT 0x84 (if s.warmStart then 1 else 0) (s.rd Reg.LOG_CYCLES_COUNT []) (s.rd Reg.LOG_OPSEC_SEC [])
  if s.strt.lockDue ∨ (s.rd Reg.STRT_STAT_KIND [] ≠ 0 ∧ s.locked = true) then s.lockout else s

/-! ### Steps 6 and 7: the Manifest and DRAM -/

/-- A slot's image: its header, and its whole length once the header passes check 1. -/
def State.slotImage (s : State) (n : Nat) : List Byte :=
  let h := s.flashBytes (slotSize * n) 256
  if imCheck1 h then s.flashBytes (slotSize * n) (min slotSize (max 256 (imLen h))) else h

def State.mhashNow (s : State) : List Byte := s.regBytes 0x10020 12
def imHash (d : List Byte) : List Byte := sha384 (d.take (imLen d))

/-- A candidate is refused (R515). -/
def State.refusedImage (s : State) (n code : Nat) : State :=
  let s : State := { s with strt := { s.strt with code := code } }
  ((s.wr Reg.STRT_MSEL_CODE [] code).wr Reg.STRT_MSEL_SLOT [] n).notice bSTRT 3 n code 0

/-- The next candidate whose checks but check 9 pass. With none left, the shadow stands in where no slot's header was read;
else the start fails with code 1. A slot that an abandoned write left is refused (R527), with code 4 (log
entry 138, DESIGN CHOICE). -/
def State.nextImage (s : State) : Nat → State
  | 0 => s
  | k + 1 =>
    match s.strt.slots with
    | n :: r =>
      let s : State := { s with strt := { s.strt with slots := r } }
      let d := s.slotImage n
      let sh := s.strt.shadow
      if s.nvs.taint.contains n then (s.refusedImage n 4).nextImage k
      else if imHead d = imHead sh ∧ s.mhashNow = imHash sh ∧ s.imCode sh = 0 then
        { s with strt := { s.strt with cand := some (n, sh, true) } }
      else
        let code := s.imCode d
        if code = 0 then { s with strt := { s.strt with cand := some (n, d, false) } } else (s.refusedImage n code).nextImage k
    | [] =>
      let sh := s.strt.shadow
      if s.strt.hdrOk = false ∧ s.imCode sh = 0 then { s with strt := { s.strt with hdrOk := true, cand := some (2, sh, true) } }
      else s.startFail 1 (if s.strt.code = 0 then 1 else s.strt.code)

/-- Read both headers and order the candidates by falling MVER, slot 0 first on ties (R515). -/
def State.chooseImage (s : State) : State :=
  let h (n : Nat) : List Byte := s.flashBytes (slotSize * n) 256
  let ok := [0, 1].filter fun n => imCheck1 (h n)
  let order := if ok = [0, 1] ∧ imMver (h 0) < imMver (h 1) then [1, 0] else ok
  ({ s with strt := { s.strt with slots := order, hdrOk := !order.isEmpty } } : State).nextImage 3

/-- The end of step 6: a warm start keeps the shadow where it passes (slot code 3), else the Manifest is chosen. -/
def State.imageStep (s : State) : State :=
  let s : State := { s with strt := { s.strt with imageDone := true } }
  let sh := s.strt.shadow
  if s.warmStart ∧ s.fullStart = false ∧ imCheck1 sh ∧ imCheck2 sh ∧ imCheck3 sh ∧ imCheck4 sh ∧ imHash sh = s.mhashNow then
    { s with strt := { s.strt with cand := some (3, sh, true) } }
  else s.chooseImage

/-- What the START section of the image in force rules (R511, R525). -/
def State.useStart (s : State) (d : List Byte) : State :=
  let st := imStart d
  ({ s with strt := { s.strt with minSorters := st.minSorters, autoRun := st.flags / 8 % 2 == 1, svcOpen := st.flags % 2 == 1 } } : State).showOpen

/-- An image is accepted (R515 to R517): the shadow, the start record, the floor. -/
def State.acceptImage (s : State) (n : Nat) (d : List Byte) (fromShadow : Bool) : State :=
  let d := d.take (imLen d)
  let hash := imHash d
  let st := imStart d
  let floor := s.rd Reg.STRT_MFLOOR_MVER []
  let s : State := { s with strt := { s.strt with changed := hash != s.mhashNow, stableS := st.stableS
                                                  shadow := if fromShadow then s.strt.shadow else d } }
  let s := ((s.wrWords Reg.STRT_MHASH_HASH [] 12 (ofLe hash)).wr Reg.STRT_MVER_MVER [] (imMver d)).wr Reg.STRT_STAT_MSRC [] (n + 1)
  let s := (s.wr Reg.STRT_FAIL_LOCKOUT [] st.lockout).wr Reg.STRT_MFLOOR_MVER [] (max floor (imMin d))
  let s := if floor < imMin d then s.notice bSTRT 6 0 (imMin d) 0 else s
  (s.useStart d).saveRec

/-- Once steps 6 and 7 have both ended, check 9 decides on the candidate; the next one follows a refusal. -/
def State.judgeImage (s : State) : Nat → State
  | 0 => s
  | k + 1 =>
    if s.strt.imageDone && s.strt.dramDone then
      match s.strt.cand with
      | none => s
      | some (n, d, fromShadow) =>
        let s : State := { s with strt := { s.strt with cand := none } }
        if n = 3 then (s.useStart d).phase 8
        else if s.imCheck9 d then (s.acceptImage n d fromShadow).phase 8
        else if n = 2 then s.startFail 1 9
        else ((s.refusedImage n 9).nextImage 3).judgeImage k
    else s

/-- Step 7 of one channel: what is fitted, and whether it was trained or kept. Whether registered devices are fitted no
command tells; it is a free value. -/
def State.dramChannel (s : State) (ch gib : Nat) (ok kept : Bool) : State :=
  let s := (s.wr Reg.MEM_CH_STAT_GIB [ch] gib).setFlag Reg.MEM_CH_STAT_TRAINED [ch] (ok && !kept)
  let s := s.setFlag Reg.MEM_CH_STAT_RETAINED [ch] (ok && kept && s.warmStart)
  let s := s.wr (if ch = 0 then Reg.GLB_CAPS_CH0_GIB else Reg.GLB_CAPS_CH1_GIB) [] gib
  if kept ∧ s.warmStart then s
  else let (k, s) := s.draw; s.setFlag Reg.MEM_CH_STAT_REGISTERED [ch] (Config.freeBool k)

/-- Step 7: both channels; one that fails full training is lost (R42). What a channel that is trained anew held fails its owners' CRCs
(R270, R306, R396, R507). -/
def State.dramStep (s : State) (gib0 gib1 : Nat) (ok0 ok1 kept0 kept1 : Bool) : State :=
  let s : State := { s with strt := { s.strt with dramDone := true } }
  let s := ((s.dramChannel 0 gib0 ok0 kept0).dramChannel 1 gib1 ok1 kept1).wr Reg.GLB_CAPS_DRAM_GIB [] (gib0 + gib1)
  let retrained (ch : Nat) (kept : Bool) (a : State) : State :=
    if a.warmStart ∧ kept = false then
      forEach ((a.mem.dram.filter fun e => e.2.1 == ch).map (·.1)) (fun r b => b.loseRegion r) (a.notice bMEM 7 ch 0 0) else a
  let s := retrained 1 kept1 (retrained 0 kept0 s)
  let s := if ok0 then s else s.loseChannel 0
  if ok1 then s else s.loseChannel 1

/-! ### Step 8: the sorters -/

/-- Step 8: fences are decided again. -/
def State.startSorters (s : State) (failed : List Nat) : State :=
  let s := (s.wr Reg.PWR_SRT_FENCE_FENCE [0] 0).wr Reg.PWR_SRT_FENCE_FENCE [1] 0
  let s := forEach (failed.filter (· < 64)) (fun n a => a.fence n) s
  (s.refreshDeg.sorterFloor).phase 9

end Sys2Proof.Machine
end

