-- ==== Sys2Proof/Machine/StartApply.lean ====
section
/-! DEFINITION. Steps 9 and 10 of a start: applying the Manifest and the settings image (R479, R518), owner reloads (R130, R175,
R340), the remaining start actions of each block (R174, R221, R222, R306, R367, R450, R451), the definition checks, and leaving
LOADING (R523). -/
namespace Sys2Proof.Machine

/-! ### Writing with LOADING access (R10, R518) -/

/-- (old AND NOT MASK) OR (VALUE AND MASK) under the access codes: RW and RWL fields take it, W1C and W1S bits act on the bits
that VALUE and MASK both name, WO bits are not kept. -/
def applied (off mask val : Nat) (old : Word) : Word :=
  let m := BitVec.ofNat 32 mask
  let v := BitVec.ofNat 32 val &&& m
  let put := accMask off fun a => a == .rw || a == .rwl
  let w := (old &&& ~~~ m) ||| v
  (((old &&& ~~~ put) ||| (w &&& put)) &&& ~~~ (accMask off (· == .w1c) &&& v)) ||| (accMask off (· == .w1s) &&& v)

/-- The tables that hosts read only and the Manifest loads: active ADM rules (R137), active membership (R151), active curves
(R323). -/
def loadedOff (off : Nat) : Bool :=
  decide (0x51000 ≤ off ∧ off < 0x55000) || decide (0xC10000 ≤ off ∧ off < 0xD10000) || decide (0xFC0000 ≤ off ∧ off < 0xFC0900)

/-- A write of the Manifest. -/
def State.manifestWrite (s : State) (off mask val : Nat) : State :=
  let old := s.word off
  if loadedOff off then
    let m := BitVec.ofNat 32 mask &&& accMask off fun _ => true
    s.setWord off ((old &&& ~~~ m) ||| (BitVec.ofNat 32 val &&& m))
  else (s.setWord off (applied off mask val old)).cfgLoaded off old

/-- The words an entry writes: offset, mask, value. -/
def ImEnt.writes : ImEnt → List (Nat × Nat × Nat)
  | .reg _ o m v => [(o, m, v)]
  | .table _ o ws => ws.zipIdx.map fun x => (o + 4 * x.2, 2 ^ 32 - 1, x.1)

/-- Write the words of entries that lie in a range. -/
def State.applyEnts (s : State) (es : List ImEnt) (inRange : Nat → Bool) : State :=
  forEach (es.flatMap ImEnt.writes) (fun x a => if inRange x.1 then a.manifestWrite x.1 x.2.1 x.2.2 else a) s

/-! ### The Manifest (R518) -/

/-- START: the watchdog (R511, R534). -/
def State.applyStart (s : State) (d : List Byte) : State :=
  let st := imStart d
  ((s.setFlag Reg.STRT_WDOG_STALL_EN [] (st.flags / 2 % 2 == 1)).setFlag Reg.STRT_WDOG_HOST_EN [] (st.flags / 4 % 2 == 1)).wr
    Reg.STRT_WDOG_STALL_MS [] st.stallMs |>.wr Reg.STRT_WDOG_HOST_MS [] st.hostMs

/-- DRAM: the regions; the wheel has a half on each channel, and a region of a lost channel stands on the other (R42, R512). -/
def State.applyDram (s : State) (d : List Byte) : State :=
  let es := (imDram d).flatMap fun e => if e.1 = 1 then [(1, 0, 192), (7, 1, 192)] else [e]
  let place (e : Nat × Nat × Nat) : Nat × Nat × Nat := if s.flag Reg.MEM_CH_STAT_LOST [e.2.1] then (e.1, 1 - e.2.1, e.2.2) else e
  let cap := match es.find? fun e => e.1 == 6 with | some e => e.2.2 | none => 0
  ({ s with mem := { s.mem with dram := es.map place } } : State).wr Reg.CAP_MEM_MIB [] cap

/-- Words from `lo` up to and not with `hi` take their reset values. -/
def State.clearRange (s : State) (lo hi : Nat) : State := forEach (s.listed lo hi) (fun o a => a.setWord o (resetWord o)) s

/-- Load a range again from the Manifest. -/
def State.reload (s : State) (es : List ImEnt) (lo hi : Nat) : State := (s.clearRange lo hi).applyEnts es fun o => decide (lo ≤ o ∧ o < hi)

/-- A Round's active table passes its CHECK, or holds nothing. -/
def State.membOk (s : State) (r : Nat) : Bool :=
  let o := Reg.WHL_MEMB_ACTIVE.off [r, 0]
  (s.listed o (o + 0x2000)).isEmpty || s.rd Reg.WHL_MEMB_ACTIVE [r, 2047] == crc32c ((s.regBytes o 1025).take 4098)

/-- The owner reloads of a warm start: the ADM banks (R130), Rounds whose table fails (R175), the curves (R340). -/
def State.ownerReloads (s : State) (es : List ImEnt) : State :=
  let s := (s.reload es 0x51000 0x55000).clearRange 0x55000 0x59000
  let s := forEach ((List.range 64).filter fun r => !s.membOk r) (fun r a =>
    let o := Reg.WHL_MEMB_ACTIVE.off [r, 0]
    ((a.reload es o (o + 0x2000)).reload es (0x61000 + 0x80 * r) (0x61000 + 0x80 * (r + 1))).logEvent bWHL 0x81 r 0 0) s
  let bad := (List.range 18).any fun i => s.flag Reg.CURVE_VALID [i] &&
    (s.word (0xFC0000 + 128 * i + 0x7C)).toNat != crc32c (s.regBytes (0xFC0000 + 128 * i) 31)
  if bad then ((s.reload es 0xFC0000 0xFC0900).reload es 0xFC1000 0xFC1900).logEvent bACQ 0x81 0 0 0 else s

/-- The Manifest's sections: whole at a cold start, and at a full warm start that changes the image; else the REAPPLY entries and
the owner reloads. -/
def State.applyManifest (s : State) : State :=
  let d := s.strt.shadow
  let es := imEnts d
  if s.warmStart = false then (((s.applyStart d).applyDram d).applyEnts es fun _ => true)
  else if s.fullStart ∧ s.strt.changed then ((s.ownerReloads es).applyStart d |>.applyDram d).applyEnts es fun _ => true
  else (s.ownerReloads es).applyEnts (es.filter ImEnt.re) fun _ => true

/-! ### The settings image (R479) -/

/-- A word of a STAB entry whose stream is in STATE 3 or 4, whose RWL fields stand even in LOADING (R139). -/
def State.stabHeld (s : State) (off : Nat) : Bool :=
  if 0x400000 ≤ off ∧ off < 0x800000 then let st := s.rd Reg.STAB_STATE [(off - 0x400000) / 256]; st == 3 || st == 4
  else if 0xC00000 ≤ off ∧ off < 0xC00800 then let st := s.rd Reg.LSTAB_STATE [(off - 0xC00000) / 256]; st == 3 || st == 4
  else false

/-- One entry: written where the allow list and the register map hold it, else skipped. -/
def State.applySetting (allow : List (Nat × Nat)) (x : Nat × Nat × Nat) (a : State) : State :=
  let off := x.1
  if (allow.any fun r => decide (r.1 ≤ off ∧ off ≤ r.2)) && !(fieldsAt off).isEmpty then
    let old := a.word off
    let new := applied off x.2.1 x.2.2 old
    let held := if a.stabHeld off then rwlMask off else 0#32
    let a := if (old ^^^ new) &&& held = 0#32 then a else a.logRefused off new.toNat
    ((a.setWord off ((old &&& held) ||| (new &&& ~~~held))).cfgLoaded off old).inc Reg.NVS_APPLIED_COUNT []
  else
    let a := if a.rd Reg.NVS_SKIPPED_COUNT [] = 0 then a.wr Reg.NVS_FIRST_SKIP_OFFSET [] off else a
    a.inc Reg.NVS_SKIPPED_COUNT []

/-- The settings image follows the Manifest; one record a start gives the counts. -/
def State.applySettings (s : State) : State :=
  let s := match s.nvs.sel with
    | none => s
    | some (b, q) =>
      let d := s.bank b
      if imgCrcOk d = false then (s.setFlag Reg.NVS_STAT_BAD [] true).notice bNVS 3 b q 0
      else if leAt d 6 2 % 2 = 0 ∧ slice d 0x20 32 ≠ s.mhashNow.take 32 then (s.setFlag Reg.NVS_STAT_STALE [] true).notice bNVS 4 b q 0
      else
        let allow := imAllow s.strt.shadow
        (forEach ((List.range (imgCount d)).map (imgEntry d)) (fun x (a : State) => a.applySetting allow x) s).notice bNVS 2 b q 0
  s.logEvent bNVS 0x85 (s.rd Reg.NVS_APPLIED_COUNT []) (s.rd Reg.NVS_SKIPPED_COUNT []) (s.rd Reg.NVS_FIRST_SKIP_OFFSET [])

/-- Step 9. -/
def State.startApply (s : State) : State :=
  let s := s.applyManifest.applySettings
  ((s.setFlag Reg.GLB_MODE_PAIRED [] (s.flag Reg.PAIR_CFG_EN [])).showPon).phase 10

/-! ### Step 10: counters of keys (R450, R451) -/

/-- Restore the counters from the newest copy; with neither, limited and signing keys are exhausted. -/
def State.restoreCounters (s : State) : State :=
  let a := s.key.ctrA
  let b := s.key.ctrB
  let c : Option CtrCopy := if newerIsA a.ok b.ok a.seq b.seq then some a else if b.ok then some b else none
  let ents := match c with | some x => x.ents | none => []
  let slots := (s.key.cat.filter fun e => e.2.state != 0).map (·.1)
  let run := slots.map fun n => let (u, p, h) := sget ents n (0, 0, 0); (n, (⟨u, p, h, u, p, none, h⟩ : KeyRun))
  let s : State := { s with key := { s.key with run := run, ctrLost := c.isNone } }
  let s := if c.isNone then s.notice bKEY 7 0 0 0 else s
  forEach slots (fun n a =>
    let e := a.cat n
    let r := a.keyRun n
    let sign := e.use / 2 % 2 == 1
    let out := if c.isNone then e.useLimit != 0 || sign
      else (e.useLimit != 0 && decide (e.useLimit ≤ r.used)) || (sign && decide (2 ^ 32 ≤ r.spdu))
    if e.state = 1 ∧ out = true then a.endSlot n 4 3 false else (a.showSlot n).reserve n) s

/-! ### Step 10: the blocks -/

/-- Energy registers from the newest slot that passes (R367). -/
def State.restoreEnergy (s : State) : State :=
  let pick (x : Option NrgSave) : Option NrgSave := x.filter (·.ok)
  let v := match pick s.nvs.nrgA, pick s.nvs.nrgB with
    | some a, some b => some (if a.seq < b.seq then b else a)
    | some a, none => some a
    | none, b => b
  match v with
  | some v => forEach (v.pts.zipIdx) (fun x a =>
      let k := x.1
      let p := x.2
      let a := a.setNrgPt p { bill := k.bill, iv := k.iv, restored := true }
      let a := forEach k.wraps.zipIdx (fun w b => b.put 0xD0000 (Reg.NRG_PT_WRAP_WRAP.off [p, w.2]) w.1) a
      ((a.setFlag Reg.NRG_PT_DIR_ADIR [p] k.adir).setFlag Reg.NRG_PT_DIR_RDIR [p] k.rdir).wr Reg.NRG_PT_RECSEQ [p] k.recSeq) s
  | none =>
    (forEach (List.range 2) (fun p a =>
      let a := a.setNrgPt p { restored := true }
      forEach (List.range 16) (fun i b => b.put 0xD0000 (Reg.NRG_PT_WRAP_WRAP.off [p, i]) 0#32) a) s).notice bNRG 9 0 0 0

/-- Islanding groups of a kept clustering resume in joined at once (R306). -/
def State.resumeClusters (s : State) : State :=
  match s.isl.done with
  | none => s
  | some (a, cs) =>
    let s : State := { s with isl := { s.isl with done := none } }
    if s.rd Reg.ISL_STAT_STATE [] ≠ 1 ∧ s.rd Reg.ISL_STAT_STATE [] ≠ 2 then s
    else
      let a := a.filter fun x => s.siteOk x.1
      let s : State := { s with isl := { s.isl with trk := { s.isl.trk with cents := cs } } }
      let s := forEach a (fun x b =>
        ((b.setFlag Reg.SITE_ASSIGNED [x.1] true).wr Reg.SITE_CG [x.1] x.2.1).wr Reg.SITE_COS [x.1] x.2.2) s
      let gs := (List.range 64).filter fun g => a.any fun x => x.2.1 == g
      let s := forEach gs (fun g b => (b.setFlag Reg.CG_VALID [g] true).cgEnter g 1 s.now) s
      (forEach gs (fun g b => b.cgCount g) s).showIsl

/-- Groups resume from their checkpoints at a warm start (R270). -/
def State.resumeGroups (s : State) : State :=
  forEach (s.entries 0x91000 64 256) (fun g a => if a.flag Reg.OSC_AG_CFG_EN [g] && a.grpCheck g == 0 then a.resumeGrp g else a) s

/-- Rounds: d_now (R174, R175) and the members shown. -/
def State.startRounds (s : State) : State :=
  forEach (List.range 64) (fun r a =>
    let d := if a.warmStart then (a.dlClamp r (a.rd Reg.WHL_RND_DLNOW_D [r])).1 else 256 * a.rd Reg.WHL_RND_DLINIT_US [r]
    (a.wr Reg.WHL_RND_DLNOW_D [r] d).showMembers r) s

/-- Stream connections: those kept are opened again, and what the Manifest asks for besides (R106, R130); multicast groups are joined
(R93). -/
def State.startConns (s : State) : State :=
  let s := forEach (s.net.conns.filter (·.waiting)) (fun c a =>
    (a.putConn { c with waiting := false }).openConn c) s
  s.openConns.joinGroups

/-- The remaining start actions of the blocks, and the definition checks. -/
def State.startBlocks (s : State) : State :=
  let s := s.restoreCounters
  let s := if s.warmStart then s.homeKept else s.homeAll
  let s := forEach (s.entries 0x800000 256 16384) (fun sid a => if descOk (a.desc sid) then a.showDesc sid (a.desc sid) else a) s
  let s := (forEach (List.range 8) (fun n a => a.nameLs n) s).startConns.startRounds
  let s := (forEach [0, 1] (fun d a => if a.domConf d then a.domTo d 1 else a) s).sameDomnum
  let s := if s.warmStart then s.resumeGroups else s
  let s := s.checkAnalysis.resumeClusters.checkMachines
  let s := forEach (List.range 8) (fun n a => a.checkLs n) s
  let s := if s.warmStart && s.nrg.ok then s else s.restoreEnergy
  let s := s.intCheck
  let sealed := s.flag Reg.LOG_STAT_SEALED []
  let s : State := { s with log := { s.log with gpioSeal := sealed && s.flag Reg.LOG_CFG_GASP_EN [] } }
  ((if sealed then s.stdAlarm 2 true else s).tbRefresh).portsChanged

/-! ### Leaving LOADING (R39, R523) -/

/-- The start is complete. -/
def State.startDone (s : State) : State :=
  let next := s.flag Reg.STRT_SVC_NEXT []
  let s := (s.setFlag Reg.STRT_STAT_DONE [] true).wr Reg.STRT_STAT_LOAD_MS [] (min 65535 (roundDiv (s.now - s.strt.began) msU))
  let s := ((s.phase 0).setFlag Reg.STRT_SVC_NEXT [] false).saveRec.notice bSTRT 0 0 0 0
  let s : State := { s with pair := { s.pair with joinOver := false } }
  if next then (s.modeTo .service 10).refreshDeg
  else
    let s := s.modeTo .watch 1
    let s := if s.strt.autoRun && !s.keptInWatch then ({ s with pair := { s.pair with runAt := s.now } } : State).setFlag Reg.GLB_MODE_RUN_EN [] true else s
    s.refreshDeg.runCheck

/-- Step 10. -/
def State.startFinish (s : State) : State :=
  let s := s.startBlocks
  if s.mode = .loading then s.startDone else s

end Sys2Proof.Machine
end

