-- ==== Sys2Proof/Machine/Start.lean ====
section
/-! DEFINITION. The rows of starts and resets (R506, R519 to R528, R582, R583), the always-on watchdog (R528), and mode requests
(R36 to R39, R428, R530). -/
namespace Sys2Proof.Machine

/-! ### Supplies and resets -/

/-- The row COLD_START: only from BACKUP. -/
def execColdStart (t : Time) (s : State) : Res :=
  let s := s.advance t
  .next (if s.powered then s else s.coldBegin 0 0)

/-- The row SUPPLY_TRIP (R582): whatever rail and level, the power-fail cut. -/
def execSupplyTrip (t : Time) (_high : Bool) (_rail : Fin 8) (s : State) : Res := .next ((s.advance t).powerCut)

/-- The row PORST_N_ASSERT (R583). -/
def execPorstNAssert (t : Time) (s : State) : Res := .next ((s.advance t).powerCut)

/-- The row WRST_N_LOW: low for at least 1 µs. -/
def execWrstNLow (t : Time) (lowNs : Nat) (s : State) : Res :=
  let s := s.advance t
  .next (if 1000 ≤ lowNs then s.warmBegin 2 false else s)

/-- A write of STRT_CTL (R506, R520). -/
def State.ctlWrite (s : State) (w : Word) : State :=
  if s.responds (Reg.STRT_CTL_WARM.off []) ∧ Reg.STRT_CTL_WARM.get w = 1 ∧ Reg.STRT_CTL_KEY.get w = 0x57A7 then
    s.warmBegin 3 (Reg.STRT_CTL_FULL.get w == 1)
  else s

def execWarmStart (w : Word) (s : State) : Res := .next (s.ctlWrite w)
def execWarmStartFull (w : Word) (s : State) : Res := .next (s.ctlWrite w)

/-! ### The sequence (R519) -/

/-- The time a step's end carries. -/
def stepTime : StepEnd → Time
  | .plain t => t
  | .fuses _ t => t
  | .keys _ t => t
  | .logbook _ t => t
  | .dram _ _ _ _ _ _ t => t
  | .sorters _ t => t

/-- Steps 6 and 7 run in parallel: PHASE is 7 once step 6 has ended and step 7 has not. -/
def State.show67 (s : State) : State :=
  if s.strt.retryAt.isNone ∧ s.rd Reg.STRT_STAT_PHASE [] = 6 ∧ s.strt.imageDone ∧ s.strt.dramDone = false then s.phase 7 else s

/-- A step ends: what it brings must fit the step in progress. -/
def State.endStep (s : State) (o : StepEnd) : State :=
  let p := s.rd Reg.STRT_STAT_PHASE []
  match o with
  | .plain _ =>
    if p = 1 then s.phase 2
    else if p = 3 then s.startRecord
    else if p = 6 ∧ s.strt.imageDone = false then (s.imageStep.judgeImage 4).show67
    else if p = 9 then s.startApply
    else if p = 10 then s.startFinish
    else s
  | .fuses h _ => if p = 2 then s.startFuses h else s
  | .keys bad _ => if p = 4 then s.startKeys bad else s
  | .logbook ok _ => if p = 5 then s.startLog ok else s
  | .dram g0 g1 ok0 ok1 k0 k1 _ => if (p = 6 ∨ p = 7) ∧ s.strt.dramDone = false then (s.dramStep g0 g1 ok0 ok1 k0 k1).judgeImage 4 else s
  | .sorters f _ => if p = 8 then s.startSorters f else s

/-- The row START_STEP_END: no step is in progress outside LOADING or while a retry waits. -/
def execStartStepEnd (o : StepEnd) (s : State) : Res :=
  let s := s.advance (stepTime o)
  .next (if s.mode = .loading ∧ s.strt.retryAt.isNone then s.endStep o else s)

/-! ### Failed starts (R521, R524, R525) -/

/-- The start timer's limit (R521): 200 ms of a warm start, 1,000 ms of a cold one. -/
def State.startLimit (s : State) : Time := (if s.warmStart then 200 else 1000) * msU

/-- A start is under way, and a span has passed since it began. -/
def State.startOver (s : State) (d : Time) : Bool :=
  s.mode == .loading && s.strt.retryAt.isNone && !s.strt.lockDue && decide (s.strt.began + d ≤ s.now)

/-- The row START_TIMER. -/
def execStartTimer (t : Time) (s : State) : Res :=
  let s := s.advance t
  .next (if s.startOver s.startLimit then s.startFail 3 (s.rd Reg.STRT_STAT_PHASE []) else s)

/-- The row PLL_LOCK_TIMEOUT: in step 1, 2 ms after the start began (R524). -/
def execPllLockTimeout (t : Time) (s : State) : Res :=
  let s := s.advance t
  .next (if s.startOver (2 * msU) ∧ s.rd Reg.STRT_STAT_PHASE [] = 1 then s.startFail 2 0 else s)

/-- The row START_RETRY: the retry is due. -/
def execStartRetry (t : Time) (s : State) : Res :=
  let s := s.advance t
  .next (match s.strt.retryAt with
  | some r => if s.mode = .loading ∧ r ≤ s.now then s.coldBegin 1 1 else s
  | none => s)

/-- The row STABLE_TIMER (R525). -/
def execStableTimer (t : Time) (s : State) : Res :=
  let s := s.advance t
  .next (match s.strt.stableSince with
  | some b => if s.powered ∧ b + s.strt.stableS * second ≤ s.now then (s.wr Reg.STRT_FAIL_ATTEMPTS [] 0).saveRec else s
  | none => s)

/-! ### The watchdog (R528) -/

/-- Expiry: counted, and a warm start whose notices wait for step 5 (R535). -/
def State.watchdogStart (s : State) (sub : Nat) : State :=
  let s := (s.countFail 5 sub).warmBegin 4 false
  { s with strt := { s.strt with due := s.strt.due ++ [(4, 0, sub, 0), (1, 0, 5, sub)] } }

/-- The row WATCHDOG_STALL. -/
def execWatchdogStall (t : Time) (s : State) : Res :=
  let s := s.advance t
  let ms := clampN 10 10000 (s.rd Reg.STRT_WDOG_STALL_MS [])
  .next (if s.processing ∧ s.flag Reg.STRT_WDOG_STALL_EN [] ∧ s.strt.stall + ms * msU ≤ s.now then s.watchdogStart 1 else s)

/-- The row WATCHDOG_HOST. -/
def execWatchdogHost (t : Time) (s : State) : Res :=
  let s := s.advance t
  let ms := clampN 100 60000 (s.rd Reg.STRT_WDOG_HOST_MS [])
  .next (if s.mode.steady ∧ s.flag Reg.STRT_WDOG_HOST_EN [] ∧ s.strt.kick + ms * msU ≤ s.now then s.watchdogStart 2 else s)

/-- A write of STRT_KICK. -/
def State.kickWrite (s : State) (w : Word) : State :=
  if s.responds (Reg.STRT_KICK_KEY.off []) ∧ Reg.STRT_KICK_KEY.get w = 0xC35A then { s with strt := { s.strt with kick := s.now } } else s

def execStrtKick (w : Word) (s : State) : Res := .next (s.kickWrite w)

/-! ### Requests (R36 to R39) -/

/-- A write of GLB_MODE_REQ. -/
def State.reqWrite (s : State) (target : Nat) (force : Bool) : State :=
  if s.responds (Reg.GLB_MODE_REQ_TARGET.off []) then s.request target force else s

def execReqWatch (force : Bool) (s : State) : Res := .next (s.reqWrite 2 force)
def execReqSwitchover (force : Bool) (s : State) : Res := .next (s.reqWrite 3 force)
def execReqRunEnable (force : Bool) (s : State) : Res := .next (s.reqWrite 4 force)
def execReqService (force : Bool) (s : State) : Res := .next (s.reqWrite 7 force)

end Sys2Proof.Machine
end

