-- ==== Sys2Proof/Machine/Timebase.lean ====
section
/-! DEFINITION. The rows of the timebase (chapter 2): PTP messages, timers, selection, host loads, TB_NOW reads, PPS and
leap seconds. -/
namespace Sys2Proof.Machine

/-! ### PTP messages (R58 to R61) -/

/-- A PTP message past the receive front goes to its domain; one of no domain is discarded and counted (R59, R102). -/
def State.ptpMsg (s : State) (h : RxHead) (domNum : Nat) (k : Nat → State → State) : State :=
  s.onFrame h fun a =>
    match a.domFor domNum h.port with
    | none => a.disc h.port
    | some d => k d a

/-- The mean link delay of a domain on a port, in 2^-16 ns. -/
def DomSt.linkDelay (v : DomSt) (p : Nat) : Int := sget v.pdelay p 0

/-- θ of a Sync (R60): the domain's time less the device's, both at the reference plane. -/
def State.theta (s : State) (d : Nat) (m : SyncMsg) : Int :=
  let t2 := s.rxTime m.port m.raw m.bofs
  let asym := fsU (toSigned 16 (s.rd Reg.TB_PASYM_ASYM [m.port]) * 100000)
  (m.t1 : Int) + m.corr + (s.dom d).linkDelay m.port + asym - t2

/-- A sample of a domain (R60, R61): θ and ψ, the domain's state, the selection, and the servo on the selected domain. -/
def State.sample (s : State) (d : Nat) (m : SyncMsg) : State :=
  let th := s.theta d m
  let a := s.dispNow
  let x : PsiSample := ⟨(s.now : Int) - a / psiU, th * psiU + a⟩
  let s := (s.setDom d { s.dom d with theta := th }).wr Reg.TB_DOM_OFS_THETA [d] (satSigned 32 (roundDivI th nsU))
  let s := s.inc Reg.TB_DOM_SYNCS_COUNT [d]
  let (s, out) := s.domSample d x
  let s := s.tbSelect
  let s := if s.rd Reg.TB_STAT_SEL [] = d ∧ s.domLocked d ∧ out = false then s.servo th m.logSync else s
  s.refreshAgree.tbRefresh.runCheck

def execPtpSync (m : SyncMsg) (s : State) : Res :=
  .next (s.ptpMsg m.toRxHead m.domNum fun d a =>
    match (a.dom d).chosen with
    | some c => if c.senderId = m.senderId ∧ c.port = m.port then a.sample d m else a
    | none => a)

/-- An Announce interval in `Time` units; logAnnounceInterval runs from 0 to 2 (R58), and a value outside is held to that range: the
spec says nothing of such messages (log entry 77, DESIGN CHOICE). -/
def annInterval (a : Announce) : Time := second * 2 ^ (clampI 0 2 a.logInterval).toNat

/-- How IEEE 1588 ranks two grandmasters, and two paths to one grandmaster, over the fields an Announce carries; the lower is better. -/
def annMaster (a : Announce) : List Nat := [a.prio1, a.clockClass, a.accuracy, a.variance, a.prio2, a.gmId]
def annPath (a : Announce) : List Nat := [a.steps, a.senderId, a.port.val]

/-- Lexicographic order. -/
def lexLt : List Nat → List Nat → Bool
  | a :: as, b :: bs => decide (a < b) || (a == b && lexLt as bs)
  | _, _ => false

/-- The dataset comparison of IEEE 1588-2019 (R58): Announces that name one grandmaster are ranked by their paths alone. -/
def annBetter (a b : Announce) : Bool := if a.gmId = b.gmId then lexLt (annPath a) (annPath b) else lexLt (annMaster a) (annMaster b)

/-- Is the Announce from the same master over the same port? -/
def annSame (a b : Announce) : Bool := a.port == b.port && a.senderId == b.senderId

/-- The best of the masters heard. -/
def bestMaster : List Heard → Option Heard
  | [] => none
  | x :: r => match bestMaster r with
    | none => some x
    | some y => if annBetter y.ann x.ann then some y else some x

/-- Has a master's Announce not timed out: three intervals have not passed without it (R58)? -/
def Heard.live (m : Heard) (t : Time) : Bool := decide (t < m.last + 3 * annInterval m.ann)

/-- A master's next Announce (R60): intervals run from its first; one that passes without an Announce begins the count anew. -/
def Heard.again (m : Heard) (a : Announce) : Heard :=
  let i := (a.raw - m.first) / annInterval a
  if i ≤ m.idx then ⟨a, m.idx, m.first, a.raw⟩ else if i = m.idx + 1 then ⟨a, i, m.first, a.raw⟩ else ⟨a, 0, a.raw, a.raw⟩

/-- The masters still heard, with the new Announce counted; a master on ARB timescale is none (R58). -/
def heardMasters (ms : List Heard) (a : Announce) : List Heard :=
  let live := ms.filter fun m => m.live a.raw
  let it := match live.find? fun m => annSame m.ann a with
    | some m => m.again a
    | none => ⟨a, 0, a.raw, a.raw⟩
  (live.filter fun m => !annSame m.ann a) ++ (if a.ptpScale then [it] else [])

/-- Show a chosen master (R87). -/
def State.showMaster (s : State) (d : Nat) (a : Announce) : State :=
  s.wr Reg.TB_DOM_STAT_UTC_OFS [d] (ofSigned 16 a.utcOfs) |>.setFlag Reg.TB_DOM_STAT_UTCV [d] a.utcValid
    |>.wr Reg.TB_DOM_STAT_PORT [d] a.port |>.wr64 Reg.TB_DOM_GM_ID [d] a.gmId |>.wr Reg.TB_DOM_GMINACC_NS [d] a.inacc

/-- Both domains carry a valid offset and differ (R67). -/
def State.utcDiffer (s : State) : Bool :=
  s.flag Reg.TB_DOM_STAT_UTCV [0] && s.flag Reg.TB_DOM_STAT_UTCV [1] &&
    s.rd Reg.TB_DOM_STAT_UTC_OFS [0] != s.rd Reg.TB_DOM_STAT_UTC_OFS [1]

/-- A domain begins a new line in qualified. -/
def State.requalify (s : State) (d : Nat) : State :=
  if s.domState d = 2 then s.setDom d { s.dom d with psis := [], onLine := 0, offLine := 0 } else s.domTo d 2

/-- A domain has no master (R60): listening. -/
def State.noMaster (s : State) (d : Nat) : State :=
  let s := (s.setDom d { s.dom d with chosen := none }).domTo d 1
  if d = s.rd Reg.TB_STAT_SEL [] then s.refreshUtc else s

/-- A domain's masters are judged at an Announce (R58, R60): the best is chosen, and two consecutive intervals with its Announce make the
domain qualified; a change of master takes a qualified or locked domain to qualified. -/
def State.announced (s : State) (d : Nat) (a : Announce) : State :=
  let was := s.utcDiffer
  let v := s.dom d
  let ms := heardMasters v.masters a
  let s := s.setDom d { v with masters := ms }
  match bestMaster ms with
  | none => (s.noMaster d).tbSelect
  | some b =>
    let changed := match v.chosen with | some o => !annSame o b.ann | none => true
    let s := (s.setDom d { s.dom d with chosen := some b.ann }).showMaster d b.ann
    let st := s.domState d
    let s := if st = 2 ∨ st = 3 then (if changed then s.requalify d else s)
      else if 2 ≤ b.idx then s.requalify d else s.domTo d 1
    let s := if d = s.rd Reg.TB_STAT_SEL [] then s.refreshUtc else s
    let s := if s.utcDiffer && !was then s.notice bTB 11 (s.rd Reg.TB_DOM_STAT_UTC_OFS [0]) (s.rd Reg.TB_DOM_STAT_UTC_OFS [1]) 0 else s
    s.tbSelect

def execPtpAnnounce (h : RxHead) (a : AnnData) (s : State) : Res := .next (s.ptpMsg h a.domNum fun d x => x.announced d ⟨h, a⟩)

/-- A received Pdelay_Req is answered in two-step mode (R58). -/
def execPdelayReq (m : PdelayMsg) (s : State) : Res :=
  .next (s.ptpMsg m.toRxHead m.domNum fun _ s =>
    let pcp := s.rd Reg.NET_EGR_PCP_PTP []
    let s := s.tx m.port 0 pcp none (.pdelayResp m.domNum (s.arrival m.toRxHead))
    s.tx m.port 0 pcp none (.pdelayFollowUp m.domNum (s.txTime m.port s.now)))

/-- The peer delay: half of the round trip less the responder's turnaround and the corrections. -/
def State.meanLink (s : State) (m : PdelayMsg) : Int :=
  let t1 := s.txTime m.port m.t1raw
  let t4 := s.arrival m.toRxHead
  roundDivI (((t4 : Int) - t1) - ((m.t3 : Int) - m.t2) - m.corr) 2

/-- A Pdelay response: the domain's link delay on the port. PDELAY shows the chosen master's port, or any port's while none is
chosen, and a negative delay as 0: the spec has one field for two ports, unsigned (log entry 79, DESIGN CHOICE). -/
def execPdelayResp (m : PdelayMsg) (s : State) : Res :=
  .next (s.ptpMsg m.toRxHead m.domNum fun d s =>
    let v := s.dom d
    let x := s.meanLink m
    let s := s.setDom d { v with pdelay := sset v.pdelay m.port x }
    let shown := match v.chosen with | some a => a.port == m.port | none => true
    if shown then s.wr Reg.TB_DOM_PDELAY_NS [d] (min (roundDiv (max x 0).toNat 256) (2 ^ 32 - 1)) else s)

def execPdelayReqSend (dom : Fin 2) (t : Time) (s : State) : Res :=
  let s := s.advance t
  let early := match (s.dom dom).reqAt with | some u => decide (s.now < u + second) | none => false
  .next (if s.domConf dom && !early then
      let s := s.setDom dom { s.dom dom with reqAt := some s.now }
      forEach (s.domPorts dom) (fun p a =>
        a.tx p 0 (a.rd Reg.NET_EGR_PCP_PTP []) none (.pdelayReq (a.rd Reg.TB_DOM_CFG_DOMNUM [dom]) (a.txTime p a.now))) s
    else s)

/-- The chosen master's Announce timed out (R60): lost from locked, else listening. -/
def execAnnounceTimeout (dom : Fin 2) (t : Time) (s : State) : Res :=
  let s := s.advance t
  let v := s.dom dom
  -- three Announce intervals without one from the chosen master (R58)
  let due (a : Announce) : Bool := !v.masters.any fun m => annSame m.ann a && m.live s.now
  match v.chosen.filter due with
  | none => .next s
  | some a =>
    let s := s.setDom dom { v with masters := v.masters.filter fun m => !annSame m.ann a, chosen := none }
    let s := if s.domLocked dom then s.domTo dom 4 else if s.domState dom = 4 then s else s.domTo dom 1
    let s := if dom.val = s.rd Reg.TB_STAT_SEL [] then s.refreshUtc else s
    .next s.tbSelect

/-- Agreement has held for 10 s (R68). -/
def execTimeAgree (t : Time) (s : State) : Res :=
  let s := s.advance t
  let held := match s.tb.agreeSince with | some u => decide (u + 10 * second ≤ s.now) | none => false
  .next (if s.tb.disagree && held && !s.farApart then
      (({ s with tb := { s.tb with disagree := false, agreeSince := none } } : State).notice bTB 4 0 0 0).stdAlarm 0 false
    else s)

/-- A revert comes due once PREF has been locked for REVERT_S (R65 rule 3); while slewing it waits (R67). -/
def execDomainRevert (t : Time) (s : State) : Res :=
  let s := s.advance t
  let p := s.rd Reg.TB_SEL_PREF []
  .next (if s.flag Reg.TB_SEL_REVERT [] && s.rd Reg.TB_STAT_SEL [] != p && s.domLocked p && s.rd Reg.TB_STAT_STATE [] == 2 &&
      decide ((s.dom p).lockAt + clampN 1 3600 (s.rd Reg.TB_SEL_REVERT_S []) * second ≤ s.now) then
      (s.select p).tbSelect else s)

/-- A write of TB_SEL: its RW fields take the value; SWITCH selects the other domain if it is locked (R65 rule 4). -/
def State.tbSelWrite (s : State) (w : Word) : State :=
  let s := s.wr Reg.TB_SEL_REVERT_S [] (Reg.TB_SEL_REVERT_S.get w) |>.wr Reg.TB_SEL_REVERT [] (Reg.TB_SEL_REVERT.get w)
    |>.wr Reg.TB_SEL_PREF [] (Reg.TB_SEL_PREF.get w)
  let o := 1 - s.rd Reg.TB_STAT_SEL []
  if Reg.TB_SEL_SWITCH.get w = 0 then s
  else if s.domLocked o then (s.select o).tbSelect else s.logRefused (Reg.TB_SEL_SWITCH.off []) w.toNat

def execTbSelSwitch (w : Word) (s : State) : Res := .next (s.hostGate (Reg.TB_SEL_SWITCH.off []) w fun s => s.tbSelWrite w)

/-! ### Host loads (R56, R57) and TB_NOW (R54, R55) -/

/-- A commit ends, done or refused (R91). -/
def State.setDone (s : State) (st : Nat) : State := (s.wr Reg.TB_SET_COMMIT_STATUS [] st).notice bTB 12 0 st 0

/-- May staged time be loaded (R57)? -/
def State.commitOk (s : State) : Bool := s.stepAllowed && !s.domLocked 0 && !s.domLocked 1

/-- A write of TB_SET_COMMIT (R56, R57): the staged value is taken, with the second boundary that RES = 1 waits for. -/
def State.timeCommitWrite (s : State) (w : Word) : State :=
  if Reg.TB_SET_COMMIT_GO.get w = 0 ∨ s.rd Reg.TB_SET_COMMIT_STATUS [] = 1 then s
  else
    let ns := s.rd Reg.TB_SET_NS_NS []
    if !s.commitOk ∨ 1000000000 ≤ ns then (s.logRefused (Reg.TB_SET_COMMIT_GO.off []) w.toNat).setDone 3
    else
      let sec := s.rd Reg.TB_SET_SEC_LO_SEC [] + 2 ^ 32 * s.rd Reg.TB_SET_SEC_HI_SEC []
      let v := if Reg.TB_SET_COMMIT_RES.get w = 1 then (sec * second, some ((secOf s.now + 1) * second)) else (sec * second + ns * nsU, none)
      ({ s with tb := { s.tb with commit := some v } } : State).wr Reg.TB_SET_COMMIT_STATUS [] 1

def execTimeCommit (w : Word) (s : State) : Res := .next (s.hostGate (Reg.TB_SET_COMMIT_GO.off []) w fun s => s.timeCommitWrite w)

/-- The staged time takes effect (R56): at a tick, or at the second boundary that RES = 1 waits for, the counter reads it, with this tick
as the first of a group of five. In a mode that allows no step (R52), or with a domain locked by now (R57), the load is refused
(log entry 76). STATE is left at free (R57). -/
def execTimeCommitApply (t : Time) (s : State) : Res :=
  let s := s.advance t
  match s.tb.commit with
  | none => .next s
  | some (v, due) =>
    if due.any fun u => decide (s.now < u) then .next s
    else
      let s : State := { s with tb := { s.tb with commit := none } }
      if !s.commitOk then .next ((s.logRefused (Reg.TB_SET_COMMIT_GO.off []) 0).setDone 3)
      else
        let s := s.stepBy (((v + (due.map fun u => s.now - u).getD 0 : Nat) : Int) - s.now)
        let s : State := { s with tb := { s.tb with phase := 0, grid := v % (8 * nsU) } }
        .next ((s.setTb 0).setDone 2).tbRefresh.runCheck

/-- The shadow of TB_NOW, frozen now if none is held. -/
def State.tbFreeze (s : State) (fresh : Bool) : Time × State :=
  match s.tb.shadow with
  | some t => if fresh then (s.now, { s with tb := { s.tb with shadow := some s.now } }) else (t, s)
  | none => (s.now, { s with tb := { s.tb with shadow := some s.now } })

def execTbNowFreeze (s : State) : Res :=
  .next (s.hostRead 0x20010 fun s => let (t, s) := s.tbFreeze true; s.answer (secOf t % 2 ^ 32))

def execTbNowWordRead (ns : Bool) (s : State) : Res :=
  .next (s.hostRead 0x20014 fun s => let (t, s) := s.tbFreeze false; s.answer (if ns then nsOf t else secOf t / 2 ^ 32 % 2 ^ 16))

def execTbNowRelease (s : State) : Res :=
  .next (s.hostRead 0x2001C fun s =>
    let (t, s) := s.tbFreeze false
    ({ s with tb := { s.tb with shadow := none } } : State).answer (fracOf t))

/-! ### PPS (R73, R74) -/

/-- PPS_OUT is driven in locked, slewing and holdover, and with FREE in every state. -/
def State.ppsDriven (s : State) : Bool := s.timeOk || s.flag Reg.TB_PPS_FREE []

/-- A time lies OUT_COMP before a second boundary. -/
def State.ppsEdgeAt (s : State) (t : Time) : Bool := ((t : Int) + toSigned 16 (s.rd Reg.TB_PPS_OUT_COMP []) * nsU) % second == 0

/-- PPS_OUT rises, earlier than the second by OUT_COMP (R73). -/
def execPpsOutEdge (t : Time) (s : State) : Res :=
  let s := s.advance t
  .next (if s.ppsDriven && s.ppsEdgeAt t then { s with tb := { s.tb with ppsOut := true, ppsAt := s.now } } else s)

/-- PPS_OUT falls when it has been high for WIDTH (R73). -/
def execPpsOutEnd (t : Time) (s : State) : Res :=
  let s := s.advance t
  .next (if s.tb.ppsAt + clampN 1 999 (s.rd Reg.TB_PPS_WIDTH []) * msU ≤ s.now then { s with tb := { s.tb with ppsOut := false } } else s)

/-- A rising edge on PPS_IN (R74): its distance from the nearest second of device time. -/
def execPpsInEdge (t : Time) (s : State) : Res :=
  let s := s.advance t
  let near := (2 * t + second) / (2 * second) * second
  let s : State := { s with tb := { s.tb with ppsInAt := s.now } }
  .next ((s.wr Reg.TB_PPS_IN_OFS [] (satSigned 31 (roundDivI ((t : Int) - near) nsU))).setFlag Reg.TB_PPS_IN_PRESENT [] true)

def execPpsInLost (t : Time) (s : State) : Res :=
  let s := s.advance t
  .next (if s.flag Reg.TB_PPS_IN_PRESENT [] && decide (s.tb.ppsInAt + 2 * second ≤ s.now) then (s.setFlag Reg.TB_PPS_IN_PRESENT [] false).notice bTB 10 0 0 0 else s)

/-! ### Leap seconds (R79, R80) -/

/-- 60 s before a leap (R80). -/
def execLeapPending (t : Time) (s : State) : Res :=
  let s := s.advance t
  match s.leapFlag.1.filter fun _ => !s.flag Reg.TB_UTC_LSP [] with
  | none => .next s
  | some neg =>
    let s := (s.setFlag Reg.TB_UTC_LSP [] true).setFlag Reg.TB_UTC_LSD [] neg
    let s : State := { s with tb := { s.tb with leapT := some (t + 60 * second, neg), ofsBefore := s.utcOfs } }
    .next (s.notice bTB 8 (if neg then 1 else 0) 0 0)

/-- The leap that takes effect: the one that LSP announces, else the one that is flagged. A flag that is withdrawn within the 60 s takes
no announced leap back: the spec does not say (log entry 114, DESIGN CHOICE). -/
def State.leapNow (s : State) : Option Bool :=
  match s.tb.leapT with
  | some (_, neg) => if s.flag Reg.TB_UTC_LSP [] then some neg else s.leapFlag.1
  | none => s.leapFlag.1

/-- A leap takes effect (R79, R80): the new offset applies from this TAI second, whichever of PTP and TB_UTC.OFFSET supplies it. -/
def execLeap (t : Time) (s : State) : Res :=
  let s := s.advance t
  -- not before the instant that LEAP_PENDING named, and once
  let early := match s.tb.leapT with | some (u, _) => decide (s.now < u) | none => false
  match s.leapNow.filter fun _ => !early && !s.flag Reg.TB_UTC_LSO [] with
  | none => .next s
  | some neg =>
    let o := s.utcOfs
    let n := if neg then o - 1 else o + 1
    let s := (s.wr Reg.TB_UTC_OFFSET [] (ofSigned 16 n)).setFlag Reg.TB_UTC_LSO [] true |>.setFlag Reg.TB_UTC_LSD [] neg
    let s : State := { s with tb := { s.tb with leapT := some (t, neg), ofsBefore := o, ptpOfs := n
                                                leapEnd := some (if neg then t else t + second) } }
    .next (s.notice bTB 9 (if neg then 1 else 0) 0 0).tbRefresh

def execLeapOccurredEnd (t : Time) (s : State) : Res :=
  let s := s.advance t
  let early := match s.tb.leapT with | some (u, _) => decide (s.now < u + 86400 * second) | none => false
  .next (if early then s else (({ s with tb := { s.tb with leapT := none } } : State).tbRefresh).setFlag Reg.TB_UTC_LSO [] false)

def execHostLeapClear (t : Time) (s : State) : Res := .next ((s.advance t).tbRefresh.wr Reg.TB_UTC_HOST_LEAP [] 0)

/-- SERR_US is reached in holdover (R72). -/
def execSyncError (t : Time) (s : State) : Res := .next (s.advance t).tbRefresh

end Sys2Proof.Machine
end

