-- ==== Sys2Proof/Machine/Registers.lean ====
section
/-! DEFINITION. Host access to BAR0 (R9 to R14, R537 to R548): the counter latch, notices, MSI-X masks, and a write of any
register. -/
namespace Sys2Proof.Machine

/-! ### The counter latch (R538, R539) -/

/-- The 64-bit values that the latch covers. -/
def latched : List Fld :=
  [Reg.STAB_LETTERS, Reg.LSTAB_LETTERS, Reg.SOF_DLO_CNT_COUNT, Reg.SRT_ITEMS, Reg.SRT_BUSY, Reg.CMP_IN, Reg.CMP_OUT]

/-- Is an offset the low word of such a value? -/
def counterLow (off : Nat) : Bool :=
  latched.any fun f => decide (f.base ≤ off) && coversDist f.dims.dropLast (off - f.base)

/-- What a host read finds is as of its moment: the time block's bounds and codes (R71, R72), the sorters' load, the pair's silent
times and SCORE, which change as time goes on, are renewed before the word is read. -/
def State.renewed (s : State) : State := if s.mode = .loading then s else s.tbRefresh.showLoads.showSilent.refreshScore

/-- The row COUNTER_LATCH_LOW: a read of a low word loads the latch with the high word and its address. -/
def execCounterLatchLow (addr : Nat) (s : State) : Res :=
  let off := addr / 4 * 4
  .next (s.hostRead off fun s =>
    let s := s.renewed
    let s : State := if counterLow off then
        { s with hif := { s.hif with latch := s.word (off + 4), latchAddr := some (off + 4) } } else s
    s.answer (s.shown off).toNat)

/-- The row COUNTER_LATCH_HIGH: a read of the high word answers the latch where its address matches. -/
def execCounterLatchHigh (addr : Nat) (s : State) : Res :=
  let off := addr / 4 * 4
  .next (s.hostRead off fun s => let s := s.renewed; s.answer (if s.hif.latchAddr = some off then s.hif.latch else s.shown off).toNat)

/-! ### Notices (R14, R180, R274, R546, R547) -/

/-- A write of a block's NOTICE: bits written 1 clear, and with them what Rounds and groups contributed to those bits (R180,
R274). -/
def State.noticeWrite (s : State) (b : Nat) (w : Word) : State :=
  let s := (s.store (noticeOff b) w).refreshSum
  if b = bWHL then
    ({ s with whl := { s.whl with contrib := s.whl.contrib.filter fun e => !w.getLsbD e.1 } } : State).showContrib
  else if b = bOSC then
    ({ s with osc := { s.osc with contrib := s.osc.contrib.filter fun e => !w.getLsbD e.1 } } : State).showGrpContrib
  else s

/-- A write of a block's NOTICE_EN: a 1 to the enable bit of a NOTICE bit that is 1 raises the vector. -/
def State.enableWrite (s : State) (b : Nat) (w : Word) : State :=
  let s := (s.store (noticeOff b + 4) w).refreshSum
  if s.word (noticeOff b) &&& s.word (noticeOff b + 4) = 0#32 then s
  else s.raiseVector ((s.word (noticeOff b + 8)).toNat % 64)

/-- The row NOTICE_CLEAR. -/
def execNoticeClear (block : Fin 23) (w : Word) (s : State) : Res :=
  .next (s.hostGate (noticeOff block.val) w fun a => a.noticeWrite block.val w)

/-- The row NOTICE_ENABLE. -/
def execNoticeEnable (block : Fin 23) (w : Word) (s : State) : Res :=
  .next (s.hostGate (noticeOff block.val + 4) w fun a => a.enableWrite block.val w)

/-- The notice register and its place in the triplet that an offset belongs to. -/
def noticeAt (off : Nat) : Option (Nat × Nat) :=
  (List.range 23).findSome? fun b =>
    if off = noticeOff b then some (b, 0) else if off = noticeOff b + 4 then some (b, 1) else none

/-! ### The MSI-X table (R547, R548) -/

/-- A write of the vector control word of an MSI-X entry: unmasking a vector whose pending bit is set sends one message. -/
def State.maskWrite (s : State) (v : Nat) (w : Word) : State :=
  let s := s.store (Reg.MSIX_CTRL.off [v]) w
  let o := Reg.MSIX_PBA.off [v / 32]
  if s.rd Reg.MSIX_CTRL [v] % 2 = 0 ∧ (s.word o).getLsbD (v % 32) ∧ s.hif.msixEn ∧ s.flag Reg.HIF_STAT_BME [] then
    (s.put 0x170000 o (s.word o &&& ~~~ BitVec.ofNat 32 (2 ^ (v % 32)))).emit (.msix v)
  else s

/-- The row MSIX_UNMASK. -/
def execMsixUnmask (vec : Fin 64) (s : State) : Res :=
  let off := Reg.MSIX_CTRL.off [vec.val]
  let w := s.word off &&& 0xFFFFFFFE#32
  .next (s.hostGate off w fun a => a.maskWrite vec.val w)

/-! ### A write of any register (R9 to R11, R537) -/

/-- A write to a time domain's CFG (R59, R60): the domains it configures listen, one it does not is off. -/
def State.domWrite (s : State) (off : Nat) (w : Word) : State :=
  let was (d : Nat) := s.domConf d
  let before := s.word off
  let s := s.store off w
  let s := forEach [0, 1] (fun d a => if a.domConf d = was d then a else a.domTo d (if a.domConf d then 1 else 0)) s
  (if s.word off = before then s else s.sameDomnum).tbSelect

/-- A point's CFG changed (R314, R338): one that is disabled stops, and its events end with GAP; one whose clock is to run starts anew, with
an empty chain. The spec says this of the entry to a mode; a write in SERVICE is taken alike (log entry 121, DESIGN CHOICE). -/
def State.ptChanged (s : State) (p : Nat) : State :=
  let s := (s.stopPt p).setFlag Reg.NRG_PT_STAT_METERING [p] false
  let s := if s.ptOn p then s else (s.pqEndAll p 8).nrgOff p
  if s.clocked p then s.startPt p else s

/-- A local stream's CFG changed: in a mode that processes streams it is checked and STAB.STATE follows (R331, R338); it forms no letter until
a first one is set, that of the first instant whose window lies wholly after this time (log entry 121). -/
def State.lsRenewed (s : State) (n : Nat) : State :=
  let s := (s.setAcqLs n { s.acqLs n with next := none }).setFlag Reg.ACQ_LS_STAT_LIVE [n] false
  let s := if s.processing then s.checkLs n else s.showLs n
  if s.clocked (n / 2) && decide (n < 4) && (s.acqPt (n / 2)).filled.isSome && s.lsOn n then
    s.setAcqLs n { s.acqLs n with next := some (s.lsFirst n s.now) }
  else s

/-- A write of ACQ_PTp_CFG, ACQ_SVq_CFG or ACQ_LSn_CFG: a change that the standard calls a configuration change counts (R343). -/
def State.acqWrite (s : State) (off : Nat) (w : Word) : State :=
  let old := s.word off
  let s := s.store off w
  let new := s.word off
  let ns := cfgChanged off old new
  let s := forEach ns (fun n a => (a.lsChanged n).streamJudged (16384 + n)) s
  let on := Reg.ACQ_PT_CFG_EN.get old != Reg.ACQ_PT_CFG_EN.get new
  if Reg.ACQ_PT_CFG_EN.covers off then
    if ns.isEmpty && !on then s else s.ptChanged ((off - Reg.ACQ_PT_CFG_EN.base) / 0x100)
  else if Reg.ACQ_LS_CFG_EN.covers off then forEach ns (fun n a => a.lsRenewed n) s
  else s

/-- A write to a capture unit's block: a changed RWL field frees the unit's records when SERVICE is left (R388). -/
def State.capWrite (s : State) (off : Nat) (w : Word) : State :=
  let u := (off - 0xE1000) / 0x80
  if off = Reg.CAP_U_ACK_SEQ.off [u] then s.capAckWrite u w
  else if off = Reg.CAP_U_ARM_ARM.off [u] then
    let s := if Reg.CAP_U_ARM_ARM.get w = 1 then s.capArmWrite u else s
    if Reg.CAP_U_ARM_FORCE.get w = 1 then s.capForceWrite u else s
  else
    let old := s.word off
    let s := s.store off w
    let s := if s.flag Reg.CAP_U_CFG_EN [u] || s.capState u == 0 then s else (s.capOff u).wr Reg.CAP_U_STAT_CFGERR [u] 0
    if s.mode = .service ∧ s.word off ≠ old ∧ s.cap.changed.contains u = false then
      { s with cap := { s.cap with changed := s.cap.changed ++ [u] } }
    else s

/-- A write of CAP_CTL: with EN = 0 every unit that is not invalid is off (R378). -/
def State.capCtlWrite (s : State) (w : Word) : State :=
  let s := s.store (Reg.CAP_CTL_EN.off []) w
  if s.flag Reg.CAP_CTL_EN [] then s
  else forEach ((List.range 32).filter fun u => s.capState u != 0 && s.capState u != 5) (fun u a => a.capOff u) s

/-- A write of SOF_TRC_CTL: the trace starts with nothing recorded, or stops (R219). -/
def State.trcWrite (s : State) (w : Word) : State :=
  let was := s.flag Reg.SOF_TRC_CTL_EN []
  let s := s.store (Reg.SOF_TRC_CTL_EN.off []) w
  let on := s.flag Reg.SOF_TRC_CTL_EN []
  if on = was then s
  else
    let s := ({ s with sof := { s.sof with trace := [], traceN := 0 } } : State).wr Reg.SOF_TRC_CTL_STAT [] (if on then 1 else 0)
    if on && !s.trcRing then s.trcStop 2 else s

/-- A write of BKD_PON (R499). -/
def State.ponWrite (s : State) (w : Word) : State :=
  if w.getLsbD 8 then s.ponOffWrite w else (s.store (Reg.BKD_PON_AUTO.off []) (w &&& 0xFFFFFE00#32)).showPon

/-- A write of STRT_SVC (R529). -/
def State.svcWrite (s : State) (w : Word) : State := (s.chalWrite w).submitWrite w

/-- A write of LOG_CFG: the seal drives its GPIO while GASP_EN is set (R488). -/
def State.logCfgWrite (s : State) (off : Nat) (w : Word) : State :=
  let s := s.store off w
  { s with log := { s.log with gpioSeal := s.flag Reg.LOG_STAT_SEALED [] && s.flag Reg.LOG_CFG_GASP_EN [] } }

/-- A write of PAIR_CFG: GLB_MODE.PAIRED follows EN (R403). -/
def State.pairCfgWrite (s : State) (off : Nat) (w : Word) : State :=
  let s := s.store off w
  s.setFlag Reg.GLB_MODE_PAIRED [] (s.flag Reg.PAIR_CFG_EN [])

/-- A host write of a whole word outside the mirrored blocks. -/
def State.plainWrite (s : State) (off : Nat) (w : Word) : State :=
  let is (f : Fld) : Bool := off == f.off []
  if is Reg.GLB_MODE_REQ_TARGET then s.request (Reg.GLB_MODE_REQ_TARGET.get w) (Reg.GLB_MODE_REQ_FORCE.get w == 1)
  else if is Reg.STRT_CTL_WARM then s.ctlWrite w
  else if is Reg.STRT_KICK_KEY then s.kickWrite w
  else if is Reg.STRT_SVC_CHAL_REQ then s.svcWrite w
  else if is Reg.TB_SET_COMMIT_GO then s.timeCommitWrite w
  else if is Reg.TB_SEL_SWITCH then s.tbSelWrite w
  else if is Reg.TB_HOLD_RATE || is Reg.TB_UTC_OFFSET then (s.store off w).tbRefresh
  else if Reg.TB_DOM_CFG_PROFILE.covers off then s.domWrite off w
  else if is Reg.BKD_SET_COMMIT_GO then s.bkdCommitWrite w
  else if is Reg.BKD_ALM_CTL_ARM then s.almCtl w
  else if is Reg.BKD_PON_OFF then s.ponWrite w
  else if Reg.NET_PORT_CFG_EN.covers off then (s.store off w).portsChanged
  else if is Reg.SOF_CANCEL_GO then s.cancelWrite w
  else if Reg.SOF_CLS_HIGH_HIGH.covers off then s.setWord off 0#32
  else if is Reg.SOF_TRC_CTL_EN then s.trcWrite w
  else if Reg.SRT_MAX_WAIT.covers off then s.setWord off 0#32
  else if is Reg.ACQ_CAL_COMMIT then s.calWrite w
  else if Reg.ACQ_PT_CFG_EN.covers off || Reg.ACQ_LS_CFG_EN.covers off || Reg.ACQ_SV_CFG_EN.covers off then s.acqWrite off w
  else if is Reg.NRG_CTL_INT_S then
    let old := s.rd Reg.NRG_CTL_INT_S []
    let s := s.store off w
    if s.rd Reg.NRG_CTL_INT_S [] = old then s else s.intCheck
  else if is Reg.NRG_SNAP_GO then s.snapWrite w
  else if off = Reg.NRG_PT_PRE_IDX_GO.off [0] then s.presetWrite 0 w
  else if off = Reg.NRG_PT_PRE_IDX_GO.off [1] then s.presetWrite 1 w
  else if is Reg.CAP_XTRG_SYNC_GO then s.xtrgWrite w
  else if is Reg.CAP_CTL_EN then s.capCtlWrite w
  else if 0xE1000 ≤ off ∧ off < 0xE2000 then s.capWrite off w
  else if is Reg.PAIR_CFG_EN then s.pairCfgWrite off w
  else if is Reg.LOG_CFG_GASP_EN then s.logCfgWrite off w
  else if Reg.PR_CFG_EN.covers off then s.prCfg ((off - Reg.PR_CFG_EN.base) / 0x40) w
  else if Reg.LB_CFG_EN.covers off then s.lbCfg ((off - Reg.LB_CFG_EN.base) / 0x40) w
  else if is Reg.PWR_SRT_POLICY_DEEPEST then (s.store off w).sleepAll
  else if is Reg.PWR_TJ_PEAK_PEAK then s.wr Reg.PWR_TJ_PEAK_PEAK [] (s.rd Reg.PWR_TJ_TJ [])
  else if is Reg.PWR_THERM_WARN_C then (s.store off w).thermCheck
  else if is Reg.PWR_I2C_CTL_GO then s.i2cWrite w
  else if 0x170000 ≤ off ∧ off < 0x170400 ∧ off % 16 = 12 then s.maskWrite ((off - 0x170000) / 16) w
  else s.store off w

/-- Does a word hold a field that a mirrored write may change in every mode: RW, WO or W1C (R418)? -/
def mirrorable (off : Nat) : Bool := accMask off (fun a => a == .rw || a == .wo || a == .w1c || a == .w1s) != 0#32

/-- A host write of a whole word: a notice register, a word of a mirrored block, or any other. -/
def State.hostWrite (s : State) (off : Nat) (w : Word) : State :=
  match noticeAt off with
  | some (b, 0) => s.noticeWrite b w
  | some (b, _) => s.enableWrite b w
  | none =>
    let o := ownerOf off
    if o = bWHL ∨ o = bADM ∨ o = bOSC ∨ o = bISL ∨ o = bALM then
      if mirrorable off then s.hostGate off w fun a => a.blockWrite off w else s.blockWrite off w
    else s.plainWrite off w

/-- The row REGISTER_WRITE: writes to unassigned offsets, and in LOADING to what does not answer, have no effect; a word whose
byte enables are not all set is not written, and recorded. -/
def execRegisterWrite (addr : Nat) (value : Word) (be : Fin 16) (s : State) : Res :=
  let off := addr / 4 * 4
  .next (if s.responds off = false ∨ 0x1000000 ≤ off ∨ (fieldsAt off).isEmpty then s
    else if be.val ≠ 15 then s.logRefused off value.toNat
    else s.hostWrite off value)

end Sys2Proof.Machine
end

