-- ==== Sys2Proof/Machine/Dispatch.lean ====
section
/-! DEFINITION. One arm per command: a direct call of its meaning, or a rejection by name. -/
namespace Sys2Proof.Machine

/-- What a command does to everything but the queue. -/
def exec (i : Instr) (s : State) : Host.Outcome State Fault Refusal :=
  match i with
  | .coldStart t => Sys2Proof.Machine.execColdStart t s
  | .supplyTrip t high rail => Sys2Proof.Machine.execSupplyTrip t high rail s
  | .porstNAssert t => Sys2Proof.Machine.execPorstNAssert t s
  | .wrstNLow t lowNs => Sys2Proof.Machine.execWrstNLow t lowNs s
  | .warmStart w => Sys2Proof.Machine.execWarmStart w s
  | .warmStartFull w => Sys2Proof.Machine.execWarmStartFull w s
  | .startStepEnd o => Sys2Proof.Machine.execStartStepEnd o s
  | .startTimer t => Sys2Proof.Machine.execStartTimer t s
  | .pllLockTimeout t => Sys2Proof.Machine.execPllLockTimeout t s
  | .startRetry t => Sys2Proof.Machine.execStartRetry t s
  | .stableTimer t => Sys2Proof.Machine.execStableTimer t s
  | .watchdogStall t => Sys2Proof.Machine.execWatchdogStall t s
  | .watchdogHost t => Sys2Proof.Machine.execWatchdogHost t s
  | .strtKick w => Sys2Proof.Machine.execStrtKick w s
  | .reqWatch force => Sys2Proof.Machine.execReqWatch force s
  | .reqSwitchover force => Sys2Proof.Machine.execReqSwitchover force s
  | .reqRunEnable force => Sys2Proof.Machine.execReqRunEnable force s
  | .reqService force => Sys2Proof.Machine.execReqService force s
  | .sramUe wh index t => Sys2Proof.Machine.execSramUe wh index t s
  | .sequencerFault srt t => Sys2Proof.Machine.execSequencerFault srt t s
  | .napEntry srt t => Sys2Proof.Machine.execNapEntry srt t s
  | .scheduledWake rnd t => Sys2Proof.Machine.execScheduledWake rnd t s
  | .sorterWakeDone srt t => Sys2Proof.Machine.execSorterWakeDone srt t s
  | .offEntry srt t => Sys2Proof.Machine.execOffEntry srt t s
  | .itemEnd srt t cycles => Sys2Proof.Machine.execItemEnd srt t cycles s
  | .itemStealable thief t => Sys2Proof.Machine.execItemStealable thief t s
  | .itemExpiry item t => Sys2Proof.Machine.execItemExpiry item t s
  | .itemTimeLimit srt katPass t => Sys2Proof.Machine.execItemTimeLimit srt katPass t s
  | .hostCancel w => Sys2Proof.Machine.execHostCancel w s
  | .housekeepingTimer kind t => Sys2Proof.Machine.execHousekeepingTimer kind t s
  | .flowStateCopyDone flow t => Sys2Proof.Machine.execFlowStateCopyDone flow t s
  | .prDoorbell ring b w4 => Sys2Proof.Machine.execPrDoorbell ring b w4 s
  | .modTimeout ring t => Sys2Proof.Machine.execModTimeout ring t s
  | .prEnable ring w => Sys2Proof.Machine.execPrEnable ring w s
  | .lbEnable m w => Sys2Proof.Machine.execLbEnable m w s
  | .lbDoorbell m b => Sys2Proof.Machine.execLbDoorbell m b s
  | .lbCommandFetched m cmd t => Sys2Proof.Machine.execLbCommandFetched m cmd t s
  | .ringPcieError lb ring => Sys2Proof.Machine.execRingPcieError lb ring s
  | .bmeOff => Sys2Proof.Machine.execBmeOff s
  | .perst => Sys2Proof.Machine.execPerst s
  | .lbNop m c b target => Sys2Proof.Machine.execLbNop m c b target s
  | .resend m c b => Sys2Proof.Machine.execResend m c b s
  | .compress m c b => Sys2Proof.Machine.execCompress m c b s
  | .decode m c b => Sys2Proof.Machine.execDecode m c b s
  | .compressDone err t => Sys2Proof.Machine.execCompressDone err t s
  | .lbImport m c b => Sys2Proof.Machine.execLbImport m c b s
  | .derive m c b => Sys2Proof.Machine.execDerive m c b s
  | .invalidate m c b => Sys2Proof.Machine.execInvalidate m c b s
  | .lbDelete m c b => Sys2Proof.Machine.execLbDelete m c b s
  | .seal m c b => Sys2Proof.Machine.execSeal m c b s
  | .getCert m c b => Sys2Proof.Machine.execGetCert m c b s
  | .getChallenge m c b => Sys2Proof.Machine.execGetChallenge m c b s
  | .takeOwnership m c b => Sys2Proof.Machine.execTakeOwnership m c b s
  | .lbLock m c b => Sys2Proof.Machine.execLbLock m c b s
  | .scrap m c b => Sys2Proof.Machine.execScrap m c b s
  | .lbStore m c b => Sys2Proof.Machine.execLbStore m c b s
  | .nvsRead m c b => Sys2Proof.Machine.execNvsRead m c b s
  | .selectOther m c b => Sys2Proof.Machine.execSelectOther m c b s
  | .erase m c b => Sys2Proof.Machine.execErase m c b s
  | .logRead m c b => Sys2Proof.Machine.execLogRead m c b s
  | .logClear m c b => Sys2Proof.Machine.execLogClear m c b s
  | .flashRead m c b => Sys2Proof.Machine.execFlashRead m c b s
  | .flashErase m c b => Sys2Proof.Machine.execFlashErase m c b s
  | .flashWrite m c b => Sys2Proof.Machine.execFlashWrite m c b s
  | .imageCheck m c b => Sys2Proof.Machine.execImageCheck m c b s
  | .flashOpDone ok t => Sys2Proof.Machine.execFlashOpDone ok t s
  | .c37DataFrame f => Sys2Proof.Machine.execC37DataFrame f s
  | .c37CfgFrame f => Sys2Proof.Machine.execC37CfgFrame f s
  | .spduReceived f p => Sys2Proof.Machine.execSpduReceived f p s
  | .svAsdu a => Sys2Proof.Machine.execSvAsdu a s
  | .otherFrame f => Sys2Proof.Machine.execOtherFrame f s
  | .arpRequest f addr => Sys2Proof.Machine.execArpRequest f addr s
  | .echoRequest f addr => Sys2Proof.Machine.execEchoRequest f addr s
  | .fragment f ctx => Sys2Proof.Machine.execFragment f ctx s
  | .reasmTimeout ctx t => Sys2Proof.Machine.execReasmTimeout ctx t s
  | .tcpSegment f => Sys2Proof.Machine.execTcpSegment f s
  | .tcpConnected conn t => Sys2Proof.Machine.execTcpConnected conn t s
  | .tcpConnFail conn t => Sys2Proof.Machine.execTcpConnFail conn t s
  | .tcpReconnect conn t => Sys2Proof.Machine.execTcpReconnect conn t s
  | .cfgRequestTimer sender t => Sys2Proof.Machine.execCfgRequestTimer sender t s
  | .pendingTimeout entry t => Sys2Proof.Machine.execPendingTimeout entry t s
  | .refusedExpiry sender t => Sys2Proof.Machine.execRefusedExpiry sender t s
  | .admDecide w => Sys2Proof.Machine.execAdmDecide w s
  | .admCommit w => Sys2Proof.Machine.execAdmCommit w s
  | .streamInstant sid t => Sys2Proof.Machine.execStreamInstant sid t s
  | .sidQuarantineEnd sid t => Sys2Proof.Machine.execSidQuarantineEnd sid t s
  | .descriptorCheckWrite sid w => Sys2Proof.Machine.execDescriptorCheckWrite sid w s
  | .rgooseHoldLetter sid t => Sys2Proof.Machine.execRgooseHoldLetter sid t s
  | .linkDown port t => Sys2Proof.Machine.execLinkDown port t s
  | .linkUp port t => Sys2Proof.Machine.execLinkUp port t s
  | .portRestore port t => Sys2Proof.Machine.execPortRestore port t s
  | .portFail port t => Sys2Proof.Machine.execPortFail port t s
  | .pauseFrame port prio t => Sys2Proof.Machine.execPauseFrame port prio t s
  | .pauseCut port t => Sys2Proof.Machine.execPauseCut port t s
  | .egressShed port t => Sys2Proof.Machine.execEgressShed port t s
  | .cmdSendCfg f => Sys2Proof.Machine.execCmdSendCfg f s
  | .cmdSendHeader f => Sys2Proof.Machine.execCmdSendHeader f s
  | .cmdDataOn f => Sys2Proof.Machine.execCmdDataOn f s
  | .cmdDataOff f => Sys2Proof.Machine.execCmdDataOff f s
  | .cmdOther f => Sys2Proof.Machine.execCmdOther f s
  | .ptpSync m => Sys2Proof.Machine.execPtpSync m s
  | .ptpAnnounce h a => Sys2Proof.Machine.execPtpAnnounce h a s
  | .pdelayReq m => Sys2Proof.Machine.execPdelayReq m s
  | .pdelayResp m => Sys2Proof.Machine.execPdelayResp m s
  | .pdelayReqSend dom t => Sys2Proof.Machine.execPdelayReqSend dom t s
  | .announceTimeout dom t => Sys2Proof.Machine.execAnnounceTimeout dom t s
  | .timeAgree t => Sys2Proof.Machine.execTimeAgree t s
  | .domainRevert t => Sys2Proof.Machine.execDomainRevert t s
  | .tbSelSwitch w => Sys2Proof.Machine.execTbSelSwitch w s
  | .timeCommit w => Sys2Proof.Machine.execTimeCommit w s
  | .timeCommitApply t => Sys2Proof.Machine.execTimeCommitApply t s
  | .tbNowFreeze => Sys2Proof.Machine.execTbNowFreeze s
  | .tbNowWordRead ns => Sys2Proof.Machine.execTbNowWordRead ns s
  | .tbNowRelease => Sys2Proof.Machine.execTbNowRelease s
  | .ppsOutEdge t => Sys2Proof.Machine.execPpsOutEdge t s
  | .ppsOutEnd t => Sys2Proof.Machine.execPpsOutEnd t s
  | .ppsInEdge t => Sys2Proof.Machine.execPpsInEdge t s
  | .ppsInLost t => Sys2Proof.Machine.execPpsInLost t s
  | .backupClockWrite t => Sys2Proof.Machine.execBackupClockWrite t s
  | .leapPending t => Sys2Proof.Machine.execLeapPending t s
  | .leap t => Sys2Proof.Machine.execLeap t s
  | .leapOccurredEnd t => Sys2Proof.Machine.execLeapOccurredEnd t s
  | .hostLeapClear t => Sys2Proof.Machine.execHostLeapClear t s
  | .fileLetter sid t => Sys2Proof.Machine.execFileLetter sid t s
  | .roundInstant rnd t => Sys2Proof.Machine.execRoundInstant rnd t s
  | .deadlineClose rnd t => Sys2Proof.Machine.execDeadlineClose rnd t s
  | .dispatch rnd t => Sys2Proof.Machine.execDispatch rnd t s
  | .roundCommit rnd w => Sys2Proof.Machine.execRoundCommit rnd w s
  | .groupUpdate g t => Sys2Proof.Machine.execGroupUpdate g t s
  | .defUpdate t => Sys2Proof.Machine.execDefUpdate t s
  | .coherencyUpdate t => Sys2Proof.Machine.execCoherencyUpdate t s
  | .clustering t => Sys2Proof.Machine.execClustering t s
  | .separation t => Sys2Proof.Machine.execSeparation t s
  | .machineStep m t => Sys2Proof.Machine.execMachineStep m t s
  | .gooseRetransmit q t => Sys2Proof.Machine.execGooseRetransmit q t s
  | .almAck w => Sys2Proof.Machine.execAlmAck w s
  | .stdAlarmExpiry code t => Sys2Proof.Machine.execStdAlarmExpiry code t s
  | .alarmPinMinw p t => Sys2Proof.Machine.execAlarmPinMinw p t s
  | .almOeNChange level => Sys2Proof.Machine.execAlmOeNChange level s
  | .outputSample pt n t => Sys2Proof.Machine.execOutputSample pt n t s
  | .lookAheadSample pt bits lbits t => Sys2Proof.Machine.execLookAheadSample pt bits lbits t s
  | .inputFault inp t => Sys2Proof.Machine.execInputFault inp t s
  | .inputFaultClear inp t => Sys2Proof.Machine.execInputFaultClear inp t s
  | .curveLookup t => Sys2Proof.Machine.execCurveLookup t s
  | .calCommit w => Sys2Proof.Machine.execCalCommit w s
  | .calCommitApply t => Sys2Proof.Machine.execCalCommitApply t s
  | .localLetter n t => Sys2Proof.Machine.execLocalLetter n t s
  | .svWaitTimeout q t => Sys2Proof.Machine.execSvWaitTimeout q t s
  | .svLost q t => Sys2Proof.Machine.execSvLost q t s
  | .chainFilled pt t => Sys2Proof.Machine.execChainFilled pt t s
  | .quantumEnd pt t => Sys2Proof.Machine.execQuantumEnd pt t s
  | .intervalEnd pt t => Sys2Proof.Machine.execIntervalEnd pt t s
  | .nrgSnap w => Sys2Proof.Machine.execNrgSnap w s
  | .nrgPreset pt w => Sys2Proof.Machine.execNrgPreset pt w s
  | .urmsHalfValue pt stamp t => Sys2Proof.Machine.execUrmsHalfValue pt stamp t s
  | .capAck u w => Sys2Proof.Machine.execCapAck u w s
  | .capArm u => Sys2Proof.Machine.execCapArm u s
  | .capForce u => Sys2Proof.Machine.execCapForce u s
  | .xtrgFireEdge t => Sys2Proof.Machine.execXtrgFireEdge t s
  | .xtrgFireRelease t => Sys2Proof.Machine.execXtrgFireRelease t s
  | .xtrgSyncEdge t => Sys2Proof.Machine.execXtrgSyncEdge t s
  | .syncGo w => Sys2Proof.Machine.execSyncGo w s
  | .xtrgSyncRelease t => Sys2Proof.Machine.execXtrgSyncRelease t s
  | .heartbeatSend t => Sys2Proof.Machine.execHeartbeatSend t s
  | .heartbeatReceived pathB word t => Sys2Proof.Machine.execHeartbeatReceived pathB word t s
  | .pathSilent pathB t => Sys2Proof.Machine.execPathSilent pathB t s
  | .joinTimeout t => Sys2Proof.Machine.execJoinTimeout t s
  | .hello m => Sys2Proof.Machine.execHello m s
  | .switchOffer k t => Sys2Proof.Machine.execSwitchOffer k t s
  | .switchAccept k t => Sys2Proof.Machine.execSwitchAccept k t s
  | .switchRefuse t => Sys2Proof.Machine.execSwitchRefuse t s
  | .fwdOn sid => Sys2Proof.Machine.execFwdOn sid s
  | .fwdOff sid => Sys2Proof.Machine.execFwdOff sid s
  | .fwd l => Sys2Proof.Machine.execFwd l s
  | .plkDispatch d t => Sys2Proof.Machine.execPlkDispatch d t s
  | .fetch k rnd seq list t => Sys2Proof.Machine.execFetch k rnd seq list t s
  | .copy c t => Sys2Proof.Machine.execCopy c t s
  | .rel r => Sys2Proof.Machine.execRel r s
  | .digest isl unit n crc => Sys2Proof.Machine.execDigest isl unit n crc s
  | .catchup c => Sys2Proof.Machine.execCatchup c s
  | .plkAck seqs t => Sys2Proof.Machine.execPlkAck seqs t s
  | .rxmap sids => Sys2Proof.Machine.execRxmap sids s
  | .ackSend t => Sys2Proof.Machine.execAckSend t s
  | .retransmit t => Sys2Proof.Machine.execRetransmit t s
  | .laneUp l t => Sys2Proof.Machine.execLaneUp l t s
  | .laneDown l errs t => Sys2Proof.Machine.execLaneDown l errs t s
  | .followLate rnd t => Sys2Proof.Machine.execFollowLate rnd t s
  | .revert t => Sys2Proof.Machine.execRevert t s
  | .autoSwitchover t => Sys2Proof.Machine.execAutoSwitchover t s
  | .sramScrubPass corrected lastWhere lastIndex t => Sys2Proof.Machine.execSramScrubPass corrected lastWhere lastIndex t s
  | .knownAnswerTest srt pass t => Sys2Proof.Machine.execKnownAnswerTest srt pass t s
  | .dramPatrolPass ch pct corrected addr t => Sys2Proof.Machine.execDramPatrolPass ch pct corrected addr t s
  | .mramReadCheck bad corrected addr t => Sys2Proof.Machine.execMramReadCheck bad corrected addr t s
  | .dramUe ch addr item t => Sys2Proof.Machine.execDramUe ch addr item t s
  | .mramUe addr t => Sys2Proof.Machine.execMramUe addr t s
  | .keyExpiry slot t => Sys2Proof.Machine.execKeyExpiry slot t s
  | .reserveWriteDone slot => Sys2Proof.Machine.execReserveWriteDone slot s
  | .counterTableWrite t => Sys2Proof.Machine.execCounterTableWrite t s
  | .challengeExpiry t => Sys2Proof.Machine.execChallengeExpiry t s
  | .chalReq w => Sys2Proof.Machine.execChalReq w s
  | .submit w => Sys2Proof.Machine.execSubmit w s
  | .svcAuthDone t => Sys2Proof.Machine.execSvcAuthDone t s
  | .logRecordWrite fault t => Sys2Proof.Machine.execLogRecordWrite fault t s
  | .repeatRewrite t => Sys2Proof.Machine.execRepeatRewrite t s
  | .opsecSave t => Sys2Proof.Machine.execOpsecSave t s
  | .bkdSecFreeze => Sys2Proof.Machine.execBkdSecFreeze s
  | .bkdSecWordRead => Sys2Proof.Machine.execBkdSecWordRead s
  | .bkdSecRelease => Sys2Proof.Machine.execBkdSecRelease s
  | .bkdCommit w => Sys2Proof.Machine.execBkdCommit w s
  | .bkdCommitApply t => Sys2Proof.Machine.execBkdCommitApply t s
  | .bkdSecondTick t => Sys2Proof.Machine.execBkdSecondTick t s
  | .alarmArm w => Sys2Proof.Machine.execAlarmArm w s
  | .alarmDisarm w => Sys2Proof.Machine.execAlarmDisarm w s
  | .tcWindow temp => Sys2Proof.Machine.execTcWindow temp s
  | .trimWindow => Sys2Proof.Machine.execTrimWindow s
  | .ponOff w => Sys2Proof.Machine.execPonOff w s
  | .ponOffApply t => Sys2Proof.Machine.execPonOffApply t s
  | .oscStop t => Sys2Proof.Machine.execOscStop t s
  | .vbatLowChange low => Sys2Proof.Machine.execVbatLowChange low s
  | .counterLatchLow addr => Sys2Proof.Machine.execCounterLatchLow addr s
  | .counterLatchHigh addr => Sys2Proof.Machine.execCounterLatchHigh addr s
  | .noticeClear block w => Sys2Proof.Machine.execNoticeClear block w s
  | .noticeEnable block w => Sys2Proof.Machine.execNoticeEnable block w s
  | .msixUnmask vec => Sys2Proof.Machine.execMsixUnmask vec s
  | .maxDspClear rnd w => Sys2Proof.Machine.execMaxDspClear rnd w s
  | .maxLClear sid w => Sys2Proof.Machine.execMaxLClear sid w s
  | .maxWaitClear srt w => Sys2Proof.Machine.execMaxWaitClear srt w s
  | .clsHighClear c w => Sys2Proof.Machine.execClsHighClear c w s
  | .tjPeakReset w => Sys2Proof.Machine.execTjPeakReset w s
  | .registerWrite addr value be => Sys2Proof.Machine.execRegisterWrite addr value be s
  | .tjSample sensors t => Sys2Proof.Machine.execTjSample sensors t s
  | .supplyExcursion high rail now_ => Sys2Proof.Machine.execSupplyExcursion high rail now_ s
  | .i2cGo w => Sys2Proof.Machine.execI2cGo w s
  | .i2cDone ok data => Sys2Proof.Machine.execI2cDone ok data s
  | .syncError t => Sys2Proof.Machine.execSyncError t s
  | .pauseEnd w t => Sys2Proof.Machine.execPauseEnd w t s
  | .fcsErrFrame port t => Sys2Proof.Machine.execFcsErrFrame port t s
  | .snapDone t => Sys2Proof.Machine.execSnapDone t s
  | .backupDomainPowered t => Sys2Proof.Machine.execBackupDomainPowered t s
  | .pcieLinkUp => Sys2Proof.Machine.execPcieLinkUp s
  | .busMasteringOn msix => Sys2Proof.Machine.execBusMasteringOn msix s

end Sys2Proof.Machine
end

