-- ==== Sys2Proof/Machine/Tick.lean ====
section
/-! DEFINITION. The tick of the time counter (R51): what a step on an empty queue does. -/
namespace Sys2Proof.Machine

/-- What one tick of the 625 MHz clock adds to device time, in units of 2^-16 ns: 1.6 ns is 104857.6 units, so five ticks
add 524288 units (R51). -/
def tickDelta (phase : Nat) : Nat := if phase = 1 ∨ phase = 3 then 104857 else 104858

/-- Where the k-th tick of a group reads, past the group's 8 ns step, in units of 2^-16 ns. -/
def tickAt : Nat → Nat
  | 0 => 0
  | k + 1 => tickAt k + tickDelta k

/-- One tick: the counter reads the next of its five fractions (R51), wherever in the group an event left device time, and the phase of
the five-tick pattern moves on. In BACKUP the counter has no clock. -/
def State.tick (s : State) : State :=
  if s.powered then
    let r := (s.now + (8 * nsU - s.tb.grid % (8 * nsU))) % (8 * nsU)
    let k := if r < tickAt 1 then 1 else if r < tickAt 2 then 2 else if r < tickAt 3 then 3 else if r < tickAt 4 then 4 else 5
    { s with now := s.now + (tickAt k - r), tb := { s.tb with phase := k % 5 } }
  else s

/-- Device time reads one of the five fractions of its group, the one of `phase`. -/
def State.onTick (s : State) : Bool :=
  decide (s.tb.phase < 5) && (s.now + (8 * nsU - s.tb.grid % (8 * nsU))) % (8 * nsU) == tickAt s.tb.phase

end Sys2Proof.Machine
end

