-- ==== Sys2Proof/Safety.lean ====
section
/-! DEFINITION. The terms claims are stated in: the canonical form of the register store, what a command leaves unchanged, and a
step that completes. -/
namespace Sys2Proof.Machine

/-- Offsets strictly rising. -/
def risingKeys : List (Nat × Word) → Bool
  | [] => true
  | [_] => true
  | a :: b :: r => decide (a.1 < b.1) && risingKeys (b :: r)

/-- The canonical form of the store of BAR0: offsets strictly rising, and no word equal to its reset value listed. Equal contents
are then equal lists. -/
def regsOk (m : List (Nat × Word)) : Bool := risingKeys m && m.all fun e => e.2 != resetWord e.1

/-- The store of a state is in canonical form. -/
def State.storeOk (s : State) : Bool := regsOk s.regs

/-- The Logbook within its bounds (R482, R484, R488): 64 staged events, 65,536 records, 64 last-gasp records. -/
def State.logOk (s : State) : Bool :=
  decide (s.log.stage.length ≤ 64) && decide (s.log.recs.length ≤ 65536) && decide (s.log.gasp.length ≤ 64)

/-- What every step keeps of the store and the Logbook. -/
def State.sound (s : State) : Bool := s.storeOk && s.logOk

/-- The received frame of a row that stage 6 takes (R102, R104). -/
def frameOf : Instr → Option RxHead
  | .c37DataFrame f => some f.toRxHead
  | .c37CfgFrame f => some f.toRxHead
  | .spduReceived f _ => some f.toRxHead
  | .fragment f _ => some f.toRxHead
  | .tcpSegment f => some f.toRxHead
  | .cmdSendCfg f => some f.toRxHead
  | .cmdSendHeader f => some f.toRxHead
  | .cmdDataOn f => some f.toRxHead
  | .cmdDataOff f => some f.toRxHead
  | .cmdOther f => some f.toRxHead
  | _ => none

/-- Do the waiting frames stand in the order in which stage 6 takes them: by MAC stamp, and among equal stamps by ascending port (R104)? The
environment queues them so (log entry 65). -/
def State.inStampOrder (s : State) : Prop :=
  (s.pending.filterMap frameOf).Pairwise fun f g => s.arrival f < s.arrival g ∨ (s.arrival f = s.arrival g ∧ f.port.val ≤ g.port.val)

/-- The parts of the state beside the words of BAR0. -/
inductive Part where
  | power | now | log | sof | hif | net | adm | whl | tb | key | alm | glb | strt | nvs | pair | acq | nrg | cap | cmp | osc | isl
  | bkd | mem | out | free | queue
  deriving DecidableEq, Repr

/-- Two states agree on a part. -/
def Part.same (p : Part) (s u : State) : Prop :=
  match p with
  | .power => u.powered = s.powered
  | .now => u.now = s.now
  | .log => u.log = s.log
  | .sof => u.sof = s.sof
  | .hif => u.hif = s.hif
  | .net => u.net = s.net
  | .adm => u.adm = s.adm
  | .whl => u.whl = s.whl
  | .tb => u.tb = s.tb
  | .key => u.key = s.key
  | .alm => u.alm = s.alm
  | .glb => u.glb = s.glb
  | .strt => u.strt = s.strt
  | .nvs => u.nvs = s.nvs
  | .pair => u.pair = s.pair
  | .acq => u.acq = s.acq
  | .nrg => u.nrg = s.nrg
  | .cap => u.cap = s.cap
  | .cmp => u.cmp = s.cmp
  | .osc => u.osc = s.osc
  | .isl => u.isl = s.isl
  | .bkd => u.bkd = s.bkd
  | .mem => u.mem = s.mem
  | .out => u.out = s.out
  | .free => u.free = s.free
  | .queue => u.pending = s.pending

/-- A frame: every part but those listed, and every word of BAR0 but those at offsets that `touched` admits, is as before. -/
structure Frame (parts : List Part) (touched : Nat → Bool) (s u : State) : Prop where
  parts_same : ∀ p : Part, p ∉ parts → p.same s u
  words_same : ∀ off : Nat, touched off = false → u.word off = s.word off

/-- A step from a state completes: it stops neither with a fault nor with a refusal. -/
def State.completes (s : State) : Prop := ∃ u : State, step s = .next u

/-- A warm start has just begun: LOADING in phase 1, KIND 2, the trigger as SRC (5 from SERVICE), FULL, and the mode left as PREV
(R35, R506, R534). -/
def State.startedWarm (u : State) (old : Mode) (src : Nat) (full : Bool) : Prop :=
  u.mode = .loading ∧ u.rd Reg.STRT_STAT_PHASE [] = 1 ∧ u.rd Reg.STRT_STAT_KIND [] = 2 ∧
    u.rd Reg.STRT_STAT_SRC [] = (if old = .service then 5 else src) ∧ u.flag Reg.STRT_STAT_FULL [] = full ∧
    u.rd Reg.GLB_MODE_PREV [] = old.code

/-- A NOTICE bit of a block is set (R14). -/
def State.noticed (u : State) (b bit : Nat) : Prop := (u.word (noticeOff b)).getLsbD bit = true

/-- A host write to an offset takes effect in this unit at once: the register answers (R522), and it is not mirrored or this unit is
neither the active nor the standby unit of a pair (R415). -/
def State.takesWrite (s : State) (off : Nat) : Prop :=
  s.responds off = true ∧ (mirroredOff off = false ∨ (s.holding = false ∧ s.activeRole = false))

/-- The item of a flow that a content row acts on: the oldest of the flow whose content has not run, of a kind, in service. -/
def State.servingItem (s : State) (flow : Nat) (p : Work → Bool) (i : Item) : Prop :=
  s.nextRun flow p = some i ∧ i.serving = true

/-- A letterbox item stands ready to run a command on ring `m` (R207, R216): the oldest unrun item of the ring's flow, in service,
holds 64 bytes that spell the command's target, opcode and operands, and no reserved flag is set. -/
def State.lbReady (s : State) (m target op : Nat) (c : LbCmd) (i : Item) (cmd : List Byte) : Prop :=
  s.nextRun (lbFlow m) (fun w => match w with | .letterbox _ _ none => true | _ => false) = some i ∧
    i.work = .letterbox m cmd none ∧ i.serving = true ∧ leAt cmd 0 1 = target ∧ leAt cmd 1 1 = op ∧ cmdOf cmd = c ∧ c.flags < 2

/-- The state after a letterbox command whose block answered: the completion's bytes settle the item, an engine keeps it, and a command
that must wait leaves the state as it was. -/
def State.lbAnswer (s : State) (i : Item) (m : Nat) (cmd : List Byte) (p : State × LbAns) : State :=
  match p with
  | (a, .done status len result) => a.lbSettle i m cmd (completionBytes cmd status len result)
  | (a, .engine) => a.lbSettle i m cmd []
  | (_, .wait) => s

/-! ### What a command may change -/

/-! The areas of BAR0, as `areaOf` numbers them. -/
namespace Area
abbrev notice : Nat := 0
abbrev glb : Nat := 1
abbrev strt : Nat := 2
abbrev tb : Nat := 3
abbrev bkd : Nat := 4
abbrev net : Nat := 5
abbrev adm : Nat := 6
abbrev whl : Nat := 7
abbrev sof : Nat := 8
abbrev plc : Nat := 9
abbrev osc : Nat := 10
abbrev isl : Nat := 11
abbrev alm : Nat := 12
abbrev acq : Nat := 13
abbrev nrg : Nat := 14
abbrev cap : Nat := 15
abbrev cmp : Nat := 16
abbrev pair : Nat := 17
abbrev key : Nat := 18
abbrev nvs : Nat := 19
abbrev log : Nat := 20
abbrev hif : Nat := 21
abbrev pr : Nat := 22
abbrev lb : Nat := 23
abbrev mem : Nat := 24
abbrev pwr : Nat := 25
abbrev msix : Nat := 26
abbrev stab : Nat := 27
abbrev desc : Nat := 28
abbrev lstab : Nat := 29
abbrev memb : Nat := 30
abbrev srt : Nat := 31
abbrev ch : Nat := 32
abbrev page : Nat := 33
abbrev br : Nat := 34
abbrev brres : Nat := 35
abbrev bus : Nat := 36
abbrev am : Nat := 37
abbrev amr : Nat := 38
abbrev site : Nat := 39
abbrev cg : Nat := 40
abbrev tie : Nat := 41
abbrev curve : Nat := 42
abbrev scurve : Nat := 43
abbrev energy : Nat := 44
abbrev logbook : Nat := 45
/-- Every area. -/
def all : List Nat := List.range 46
end Area

/-- Parts of the state and areas of BAR0 that a command may change. -/
structure Touch where
  parts : List Part
  areas : List Nat

/-- Every part of the state. -/
def Part.every : List Part :=
  [.power, .now, .log, .sof, .hif, .net, .adm, .whl, .tb, .key, .alm, .glb, .strt, .nvs, .pair, .acq, .nrg, .cap, .cmp, .osc, .isl,
    .bkd, .mem, .out, .free, .queue]

/-- All areas, and all parts but those listed. -/
def Touch.allBut (ps : List Part) : Touch := ⟨Part.every.filter fun p => !ps.contains p, Area.all⟩

/-- What a notice with its record and its vector changes (R14, R35, R480), and these parts and areas. -/
def Touch.noting (ps : List Part) (as : List Nat) : Touch := ⟨.log :: .out :: ps, Area.notice :: Area.log :: Area.msix :: as⟩

/-- What a change of the mode or of DEG touches (R35, R39, R40, R45), and these parts and areas. -/
def Touch.moding (ps : List Part) (as : List Nat) : Touch :=
  .noting ([.sof, .hif, .net, .whl, .key, .alm, .glb, .strt, .pair, .acq, .nrg, .cap, .osc, .isl, .free] ++ ps)
    ([Area.glb, Area.strt, Area.net, Area.sof, Area.osc, Area.isl, Area.alm, Area.acq, Area.nrg, Area.cap, Area.pair, Area.key,
      Area.pr, Area.lb, Area.pwr, Area.stab, Area.lstab, Area.srt, Area.ch, Area.brres, Area.bus] ++ as)

/-- What each command may change: every other part of the state, and every word in another area, it leaves as it was. -/
def mayTouch (c : Instr) : Touch :=
  match c with
  | .coldStart _ => .allBut [.queue]
  | .supplyTrip _ _ _ => ⟨[.power, .now, .log, .nvs, .free], []⟩
  | .porstNAssert _ => ⟨[.power, .now, .log, .nvs, .free], []⟩
  | .wrstNLow _ _ => .allBut [.power, .queue]
  | .warmStart _ => .allBut [.power, .queue]
  | .warmStartFull _ => .allBut [.power, .queue]
  | .startStepEnd _ => .allBut [.power, .bkd, .queue]
  | .startTimer _ => .moding [.now] [Area.tie]
  | .pllLockTimeout _ => .moding [.now] [Area.tie]
  | .startRetry _ => .allBut [.queue]
  | .stableTimer _ => ⟨[.now, .strt], [Area.strt]⟩
  | .watchdogStall _ => .allBut [.power, .queue]
  | .watchdogHost _ => .allBut [.power, .queue]
  | .strtKick _ => ⟨[.strt], []⟩
  | .reqWatch _ => .moding [] [Area.tie]
  | .reqSwitchover _ => .moding [] [Area.tie]
  | .reqRunEnable _ => .moding [] [Area.tie]
  | .reqService _ => .moding [] [Area.tie]
  | .sramUe _ _ _ => .moding [.now] [Area.plc, Area.mem, Area.tie]
  | .sequencerFault _ _ => .moding [.now] [Area.plc, Area.tie]
  | .napEntry _ _ => ⟨[.now], [Area.pwr]⟩
  | .scheduledWake _ _ => .noting [.now, .sof, .hif] [Area.sof, Area.pr]
  | .sorterWakeDone _ _ => .noting [.now, .sof, .hif] [Area.sof, Area.pr, Area.pwr, Area.stab, Area.lstab, Area.srt]
  | .offEntry _ _ => ⟨[.now, .sof], [Area.pwr]⟩
  | .itemEnd _ _ _ => .noting [.now, .sof, .hif, .net, .whl, .pair] [Area.net, Area.sof, Area.pair, Area.pr, Area.lb,
      Area.pwr, Area.stab, Area.lstab, Area.srt]
  | .itemStealable _ _ => .noting [.now, .sof, .hif] [Area.sof, Area.pr, Area.stab, Area.lstab, Area.srt]
  | .itemExpiry _ _ => .noting [.now, .sof, .hif, .net, .whl, .pair, .isl, .free] [Area.net, Area.sof, Area.osc, Area.isl,
      Area.pair, Area.pr, Area.lb, Area.stab, Area.lstab, Area.srt, Area.tie]
  | .itemTimeLimit _ _ _ => .moding [.now] [Area.plc, Area.tie]
  | .hostCancel _ => .noting [.sof, .hif, .net, .whl, .pair, .isl, .free] [Area.net, Area.sof, Area.osc, Area.isl, Area.pair,
      Area.pr, Area.lb, Area.stab, Area.lstab, Area.srt, Area.tie]
  | .housekeepingTimer _ _ => .noting [.now, .sof, .hif, .isl] [Area.sof, Area.isl, Area.pr, Area.stab, Area.lstab, Area.srt]
  | .flowStateCopyDone _ _ => .noting [.now, .sof, .hif, .osc] [Area.sof, Area.plc, Area.pr, Area.pwr, Area.stab, Area.lstab,
      Area.srt]
  | .prDoorbell _ _ _ => .noting [] [Area.pr]
  | .modTimeout _ _ => ⟨[.now, .hif, .out], [Area.msix]⟩
  | .prEnable _ _ => .noting [.hif, .pair] [Area.pr]
  | .lbEnable _ _ => .noting [.hif, .pair] [Area.lb]
  | .lbDoorbell _ _ => .noting [] [Area.lb]
  | .lbCommandFetched _ _ _ => .noting [.now, .sof, .hif] [Area.sof, Area.pr, Area.lb, Area.stab, Area.lstab, Area.srt]
  | .ringPcieError _ _ => .noting [] [Area.pr, Area.lb]
  | .bmeOff => .noting [] [Area.hif]
  | .perst => .noting [.hif] [Area.hif, Area.pr, Area.lb]
  | .lbNop _ _ _ _ => .noting [.sof] [Area.lb]
  | .resend _ _ _ => .noting [.sof, .hif] [Area.sof, Area.pr, Area.lb]
  | .compress _ _ _ => .noting [.sof, .cmp] [Area.cmp, Area.lb]
  | .decode _ _ _ => .noting [.sof, .cmp] [Area.cmp, Area.lb]
  | .compressDone _ _ => .noting [.now, .sof, .hif, .cap, .cmp] [Area.sof, Area.cap, Area.cmp, Area.pr, Area.lb, Area.stab,
      Area.lstab, Area.srt]
  | .lbImport _ _ _ => .noting [.sof, .key, .nvs] [Area.key, Area.lb]
  | .derive _ _ _ => .noting [.sof, .key, .nvs] [Area.key, Area.lb]
  | .invalidate _ _ _ => .noting [.sof, .key] [Area.key, Area.lb]
  | .lbDelete _ _ _ => .noting [.sof, .key] [Area.key, Area.lb]
  | .seal _ _ _ => .noting [.sof, .key] [Area.key, Area.lb]
  | .getCert _ _ _ => .noting [.sof] [Area.lb]
  | .getChallenge _ _ _ => .noting [.sof, .key] [Area.strt, Area.lb]
  | .takeOwnership _ _ _ => .noting [.sof, .key, .nvs] [Area.key, Area.lb]
  | .lbLock _ _ _ => .noting [.sof, .key] [Area.lb]
  | .scrap _ _ _ => .noting [.sof, .key] [Area.key, Area.lb]
  | .lbStore _ _ _ => .noting [.sof, .nvs] [Area.nvs, Area.lb]
  | .nvsRead _ _ _ => .noting [.sof] [Area.lb]
  | .selectOther _ _ _ => .noting [.sof, .nvs] [Area.nvs, Area.lb]
  | .erase _ _ _ => .noting [.sof, .nvs] [Area.nvs, Area.lb]
  | .logRead _ _ _ => .noting [.sof, .free] [Area.lb]
  | .logClear _ _ _ => .noting [.sof] [Area.lb]
  | .flashRead _ _ _ => .noting [.sof] [Area.lb]
  | .flashErase _ _ _ => .noting [.sof, .nvs] [Area.lb]
  | .flashWrite _ _ _ => .noting [.sof, .nvs] [Area.lb]
  | .imageCheck _ _ _ => .noting [.sof] [Area.lb]
  | .flashOpDone _ _ => .noting [.now, .sof, .hif, .nvs, .free] [Area.sof, Area.pr, Area.lb, Area.stab, Area.lstab, Area.srt]
  | .c37DataFrame _ => .noting [.now, .sof, .hif, .net, .adm, .whl, .key, .alm, .pair] [Area.net, Area.adm, Area.whl,
      Area.sof, Area.alm, Area.pair, Area.key, Area.pr, Area.stab, Area.desc, Area.lstab, Area.srt]
  | .c37CfgFrame _ => .noting [.now, .sof, .hif, .net, .adm, .whl, .key, .alm, .pair] [Area.net, Area.adm, Area.whl, Area.sof,
      Area.alm, Area.pair, Area.key, Area.pr, Area.stab, Area.desc, Area.memb]
  | .spduReceived _ _ => .noting [.now, .sof, .hif, .net, .adm, .key, .alm, .pair] [Area.net, Area.adm, Area.sof, Area.alm,
      Area.pair, Area.key, Area.pr, Area.stab, Area.lstab, Area.srt]
  | .svAsdu _ => .noting [.now, .net, .acq] [Area.net, Area.acq]
  | .otherFrame _ => .noting [.now, .net] [Area.net]
  | .arpRequest _ _ => .noting [.now, .sof, .hif, .net] [Area.net, Area.sof, Area.pr]
  | .echoRequest _ _ => .noting [.now, .sof, .hif, .net] [Area.net, Area.sof, Area.pr]
  | .fragment _ _ => .noting [.now, .sof, .hif, .net, .adm, .whl, .key, .alm, .pair] [Area.net, Area.adm, Area.whl, Area.sof,
      Area.alm, Area.pair, Area.key, Area.pr, Area.stab, Area.desc, Area.lstab, Area.memb, Area.srt]
  | .reasmTimeout _ _ => .noting [.now, .net] [Area.net]
  | .tcpSegment _ => .noting [.now, .sof, .hif, .net, .adm, .whl, .key, .alm, .pair] [Area.net, Area.adm, Area.whl, Area.sof,
      Area.alm, Area.pair, Area.key, Area.pr, Area.stab, Area.desc, Area.lstab, Area.memb, Area.srt]
  | .tcpConnected _ _ => .noting [.now, .sof, .hif, .net] [Area.net, Area.sof, Area.pr]
  | .tcpConnFail _ _ => ⟨[.now, .net], []⟩
  | .tcpReconnect _ _ => .noting [.now, .sof, .hif, .net] [Area.net, Area.sof, Area.pr]
  | .cfgRequestTimer _ _ => .noting [.now, .sof, .hif, .net, .adm] [Area.net, Area.sof, Area.pr]
  | .pendingTimeout _ _ => ⟨[.now, .adm], [Area.adm]⟩
  | .refusedExpiry _ _ => ⟨[.now, .adm], [Area.adm]⟩
  | .admDecide _ => .noting [.adm, .pair] [Area.adm, Area.stab]
  | .admCommit _ => .noting [.sof, .hif, .net, .adm, .pair] [Area.net, Area.adm, Area.sof, Area.pr]
  | .streamInstant _ _ => .noting [.now, .sof, .hif, .net, .adm, .whl, .pair, .isl, .free] [Area.net, Area.adm, Area.whl,
      Area.sof, Area.osc, Area.isl, Area.pair, Area.pr, Area.lb, Area.stab, Area.lstab, Area.srt, Area.tie]
  | .sidQuarantineEnd _ _ => ⟨[.now, .adm], [Area.adm, Area.stab]⟩
  | .descriptorCheckWrite _ _ => .noting [.adm, .whl, .pair] [Area.adm, Area.whl, Area.stab, Area.desc]
  | .rgooseHoldLetter _ _ => .noting [.now, .sof, .hif, .adm] [Area.sof, Area.pr, Area.stab, Area.lstab, Area.srt]
  | .linkDown _ _ => .moding [.now] [Area.tie]
  | .linkUp _ _ => .moding [.now] [Area.tie]
  | .portRestore _ _ => .moding [.now] [Area.tie]
  | .portFail _ _ => .moding [.now] [Area.tie]
  | .pauseFrame _ _ _ => .noting [.now, .sof, .hif, .net] [Area.net, Area.sof, Area.pr]
  | .pauseCut _ _ => .noting [.now, .sof, .hif, .net] [Area.net, Area.sof, Area.pr]
  | .egressShed _ _ => .noting [.now, .sof, .hif, .net] [Area.net, Area.sof, Area.pr]
  | .cmdSendCfg _ => .noting [.now, .sof, .hif, .net, .adm] [Area.net, Area.sof, Area.pr, Area.stab]
  | .cmdSendHeader _ => .noting [.now, .sof, .hif, .net, .adm] [Area.net, Area.sof, Area.pr, Area.stab]
  | .cmdDataOn _ => .noting [.now, .sof, .hif, .net, .adm, .whl] [Area.net, Area.sof, Area.pr, Area.stab]
  | .cmdDataOff _ => .noting [.now, .sof, .hif, .net, .adm, .whl] [Area.net, Area.sof, Area.pr, Area.stab]
  | .cmdOther _ => .noting [.now, .sof, .hif, .net, .adm] [Area.net, Area.whl, Area.sof, Area.pr, Area.stab]
  | .ptpSync _ => .moding [.now, .tb, .bkd] [Area.tb, Area.tie]
  | .ptpAnnounce _ _ => .moding [.now, .tb] [Area.tb, Area.tie]
  | .pdelayReq _ => .noting [.now, .sof, .hif, .net] [Area.net, Area.sof, Area.pr]
  | .pdelayResp _ => .noting [.now, .net, .tb] [Area.tb, Area.net]
  | .pdelayReqSend _ _ => .noting [.now, .sof, .hif, .net, .tb] [Area.net, Area.sof, Area.pr]
  | .announceTimeout _ _ => .moding [.now, .tb] [Area.tb, Area.tie]
  | .timeAgree _ => .noting [.now, .sof, .hif, .net, .tb, .key, .alm, .pair] [Area.net, Area.sof, Area.alm, Area.pair,
      Area.key, Area.pr]
  | .domainRevert _ => .moding [.now, .tb] [Area.tb, Area.tie]
  | .tbSelSwitch _ => .moding [.tb] [Area.tb, Area.tie]
  | .timeCommit _ => .noting [.tb, .pair] [Area.tb]
  | .timeCommitApply _ => .noting [.now, .sof, .hif, .net, .tb, .key, .alm, .glb, .pair, .bkd] [Area.tb, Area.net, Area.sof,
      Area.alm, Area.pair, Area.key, Area.pr, Area.pwr, Area.srt]
  | .tbNowFreeze => ⟨[.tb, .out], []⟩
  | .tbNowWordRead _ => ⟨[.tb, .out], []⟩
  | .tbNowRelease => ⟨[.tb, .out], []⟩
  | .ppsOutEdge _ => ⟨[.now, .tb], []⟩
  | .ppsOutEnd _ => ⟨[.now, .tb], []⟩
  | .ppsInEdge _ => ⟨[.now, .tb], [Area.tb]⟩
  | .ppsInLost _ => .noting [.now] [Area.tb]
  | .backupClockWrite _ => .noting [.now, .tb, .bkd] [Area.bkd]
  | .leapPending _ => .noting [.now, .tb] [Area.tb]
  | .leap _ => .noting [.now, .sof, .hif, .net, .tb, .key, .alm, .pair] [Area.tb, Area.net, Area.sof, Area.alm, Area.pair,
      Area.key, Area.pr]
  | .leapOccurredEnd _ => .noting [.now, .sof, .hif, .net, .tb, .key, .alm, .pair] [Area.tb, Area.net, Area.sof, Area.alm,
      Area.pair, Area.key, Area.pr]
  | .hostLeapClear _ => .noting [.now, .sof, .hif, .net, .tb, .key, .alm, .pair] [Area.tb, Area.net, Area.sof, Area.alm,
      Area.pair, Area.key, Area.pr]
  | .fileLetter _ _ => .moding [.now, .adm, .cmp] [Area.adm, Area.whl, Area.plc, Area.cmp, Area.desc, Area.memb, Area.page,
      Area.br, Area.am, Area.amr, Area.site, Area.cg, Area.tie]
  | .roundInstant _ _ => .moding [.now, .adm] [Area.adm, Area.whl, Area.plc, Area.desc, Area.memb, Area.page, Area.br,
      Area.am, Area.amr, Area.site, Area.cg, Area.tie]
  | .deadlineClose _ _ => ⟨[.now, .whl], [Area.sof]⟩
  | .dispatch _ _ => .moding [.now, .adm, .cmp] [Area.adm, Area.whl, Area.plc, Area.cmp, Area.desc, Area.memb, Area.page,
      Area.br, Area.am, Area.amr, Area.site, Area.cg, Area.tie]
  | .roundCommit _ _ => .noting [.whl, .pair] [Area.whl]
  | .groupUpdate _ _ => .noting [.now, .sof, .hif, .net, .key, .alm, .pair, .osc] [Area.net, Area.sof, Area.osc, Area.alm,
      Area.pair, Area.key, Area.pr, Area.ch, Area.page]
  | .defUpdate _ => .noting [.now, .sof, .osc] [Area.osc, Area.brres, Area.bus]
  | .coherencyUpdate _ => .noting [.now, .sof, .hif, .net, .key, .alm, .pair, .isl] [Area.net, Area.sof, Area.isl, Area.alm,
      Area.pair, Area.key, Area.pr, Area.site]
  | .clustering _ => ⟨[.now, .sof, .isl], [Area.isl]⟩
  | .separation _ => .noting [.now, .sof, .hif, .isl, .free] [Area.sof, Area.isl, Area.pr, Area.site, Area.cg, Area.tie]
  | .machineStep _ _ => .noting [.now, .sof, .hif, .net, .key, .alm, .pair, .free] [Area.net, Area.sof, Area.alm, Area.pair,
      Area.key, Area.pr, Area.amr]
  | .gooseRetransmit _ _ => .noting [.now, .sof, .hif, .net, .key, .alm, .pair] [Area.net, Area.sof, Area.alm, Area.pair,
      Area.key, Area.pr]
  | .almAck _ => .noting [.sof, .hif, .alm, .pair, .free] [Area.sof, Area.alm, Area.pr, Area.amr]
  | .stdAlarmExpiry _ _ => .noting [.now, .sof, .hif, .net, .key, .alm, .pair] [Area.net, Area.sof, Area.alm, Area.pair,
      Area.key, Area.pr]
  | .alarmPinMinw _ _ => ⟨[.now, .alm], [Area.alm]⟩
  | .almOeNChange _ => .noting [.alm] [Area.alm]
  | .outputSample _ _ _ => .noting [.now, .sof, .hif, .acq, .nrg, .cap, .cmp, .free] [Area.sof, Area.acq, Area.cap, Area.cmp,
      Area.pr]
  | .lookAheadSample _ _ _ _ => .noting [.now, .acq] [Area.acq]
  | .inputFault _ _ => .noting [.now, .sof, .hif, .acq, .nrg] [Area.sof, Area.acq, Area.nrg, Area.pr]
  | .inputFaultClear _ _ => ⟨[.now], [Area.acq]⟩
  | .curveLookup _ => ⟨[.now, .acq], [Area.acq]⟩
  | .calCommit _ => .noting [.pair] [Area.acq]
  | .calCommitApply _ => .noting [.now, .acq] [Area.acq, Area.curve]
  | .localLetter _ _ => .noting [.now, .sof, .hif, .acq] [Area.sof, Area.acq, Area.pr, Area.stab, Area.lstab, Area.srt]
  | .svWaitTimeout _ _ => .noting [.now, .sof, .hif, .acq] [Area.sof, Area.acq, Area.pr, Area.stab, Area.lstab, Area.srt]
  | .svLost _ _ => .noting [.now] [Area.acq]
  | .chainFilled _ _ => ⟨[.now, .acq, .cap, .free], [Area.acq, Area.cap]⟩
  | .quantumEnd _ _ => .noting [.now, .nvs, .nrg] [Area.nrg]
  | .intervalEnd _ _ => .noting [.now, .sof, .hif, .nrg] [Area.sof, Area.nrg, Area.pr, Area.energy]
  | .nrgSnap _ => .noting [.pair, .nrg] [Area.nrg]
  | .nrgPreset _ _ => .noting [.pair, .nrg] [Area.nrg]
  | .urmsHalfValue _ _ _ => .noting [.now, .sof, .hif, .nrg] [Area.sof, Area.nrg, Area.pr]
  | .capAck _ _ => .noting [.pair, .cap] [Area.cap]
  | .capArm _ => .noting [.pair, .cap, .free] [Area.cap]
  | .capForce _ => .noting [.pair, .cap] [Area.cap]
  | .xtrgFireEdge _ => .noting [.now, .cap, .free] [Area.cap]
  | .xtrgFireRelease _ => ⟨[.now, .cap], [Area.cap]⟩
  | .xtrgSyncEdge _ => .noting [.now, .cap, .free] [Area.cap]
  | .syncGo _ => .noting [.pair, .cap] [Area.cap]
  | .xtrgSyncRelease _ => ⟨[.now, .cap], [Area.cap]⟩
  | .heartbeatSend _ => ⟨[.now, .pair, .out], [Area.pair]⟩
  | .heartbeatReceived _ _ _ => .moding [.now, .adm, .cmp] [Area.adm, Area.whl, Area.plc, Area.cmp, Area.desc, Area.memb,
      Area.page, Area.br, Area.am, Area.amr, Area.site, Area.cg, Area.tie]
  | .pathSilent _ _ => .moding [.now, .adm, .cmp] [Area.adm, Area.whl, Area.plc, Area.cmp, Area.desc, Area.memb, Area.page,
      Area.br, Area.am, Area.amr, Area.site, Area.cg, Area.tie]
  | .joinTimeout _ => .noting [.now, .sof, .hif, .glb, .pair] [Area.sof, Area.pr, Area.pwr, Area.srt]
  | .hello _ => .noting [.now, .sof, .hif, .glb, .pair] [Area.glb, Area.sof, Area.pair, Area.pr, Area.pwr, Area.srt]
  | .switchOffer _ _ => ⟨[.now, .pair, .out], []⟩
  | .switchAccept _ _ => ⟨[.now, .pair, .out], []⟩
  | .switchRefuse _ => .noting [.now, .glb, .pair] [Area.glb]
  | .fwdOn _ => ⟨[.pair, .out], []⟩
  | .fwdOff _ => ⟨[.pair, .out], []⟩
  | .fwd _ => .moding [.adm, .cmp] [Area.adm, Area.whl, Area.plc, Area.cmp, Area.desc, Area.memb, Area.page, Area.br, Area.am,
      Area.amr, Area.site, Area.cg, Area.tie]
  | .plkDispatch _ _ => .moding [.now, .adm, .cmp] [Area.adm, Area.whl, Area.plc, Area.cmp, Area.desc, Area.memb, Area.page,
      Area.br, Area.am, Area.amr, Area.site, Area.cg, Area.tie]
  | .fetch _ _ _ _ _ => ⟨[.now, .pair, .out], []⟩
  | .copy _ _ => .noting [.now, .sof, .hif, .net, .adm, .whl, .key, .alm, .pair, .osc, .isl, .free] [Area.net, Area.adm,
      Area.whl, Area.sof, Area.osc, Area.isl, Area.alm, Area.pair, Area.key, Area.pr, Area.lb, Area.stab, Area.desc,
      Area.lstab, Area.memb, Area.srt, Area.ch, Area.page, Area.br, Area.brres, Area.bus, Area.am, Area.amr, Area.site,
      Area.cg, Area.tie]
  | .rel _ => ⟨[.pair, .out], []⟩
  | .digest _ _ _ _ => .noting [.pair] [Area.pair]
  | .catchup _ => .noting [.sof, .hif, .net, .key, .alm, .pair, .osc, .isl] [Area.net, Area.sof, Area.osc, Area.isl, Area.alm,
      Area.pair, Area.key, Area.pr, Area.ch, Area.site]
  | .plkAck _ _ => ⟨[.now, .pair], []⟩
  | .rxmap _ => ⟨[.pair, .out], []⟩
  | .ackSend _ => ⟨[.now, .pair, .out], []⟩
  | .retransmit _ => .noting [.now, .pair] [Area.pair]
  | .laneUp _ _ => .noting [.now, .pair] [Area.pair]
  | .laneDown _ _ _ => .noting [.now, .pair] [Area.pair]
  | .followLate _ _ => .moding [.now, .adm, .cmp] [Area.adm, Area.whl, Area.plc, Area.cmp, Area.desc, Area.memb, Area.page,
      Area.br, Area.am, Area.amr, Area.site, Area.cg, Area.tie]
  | .revert _ => ⟨[.now, .pair, .out], []⟩
  | .autoSwitchover _ => ⟨[.now, .pair, .out], []⟩
  | .sramScrubPass _ _ _ _ => .noting [.now] [Area.mem]
  | .knownAnswerTest _ _ _ => .moding [.now] [Area.plc, Area.tie]
  | .dramPatrolPass _ _ _ _ _ => .noting [.now] [Area.mem]
  | .mramReadCheck _ _ _ _ => .noting [.now, .key] [Area.key, Area.mem]
  | .dramUe _ _ _ _ => .moding [.now, .cmp, .mem] [Area.cmp, Area.mem, Area.tie]
  | .mramUe _ _ => .moding [.now, .nvs] [Area.mem, Area.tie]
  | .keyExpiry _ _ => .noting [.now, .key] [Area.key]
  | .reserveWriteDone _ => ⟨[.key], [Area.key]⟩
  | .counterTableWrite _ => ⟨[.now, .key], []⟩
  | .challengeExpiry _ => ⟨[.now, .key], [Area.strt]⟩
  | .chalReq _ => .noting [.key, .pair] [Area.strt]
  | .submit _ => .noting [.key, .strt, .pair] []
  | .svcAuthDone _ => .noting [.now, .strt] [Area.strt]
  | .logRecordWrite _ _ => .noting [.now, .sof, .hif, .net, .key, .alm, .pair] [Area.net, Area.sof, Area.alm, Area.pair,
      Area.key, Area.pr]
  | .repeatRewrite _ => ⟨[.now, .log], []⟩
  | .opsecSave _ => ⟨[.now, .log], [Area.log]⟩
  | .bkdSecFreeze => ⟨[.bkd, .out], []⟩
  | .bkdSecWordRead => ⟨[.bkd, .out], []⟩
  | .bkdSecRelease => ⟨[.bkd, .out], []⟩
  | .bkdCommit _ => .noting [.pair, .bkd] [Area.bkd]
  | .bkdCommitApply _ => .noting [.now, .bkd] [Area.bkd]
  | .bkdSecondTick _ => .noting [.now, .bkd] [Area.bkd]
  | .alarmArm _ => .noting [.pair, .bkd] [Area.bkd]
  | .alarmDisarm _ => .noting [.pair, .bkd] [Area.bkd]
  | .tcWindow _ => ⟨[], [Area.bkd]⟩
  | .trimWindow => ⟨[], [Area.bkd]⟩
  | .ponOff _ => .noting [.pair, .bkd] [Area.bkd]
  | .ponOffApply _ => ⟨[.now, .bkd], [Area.bkd]⟩
  | .oscStop _ => .noting [.now] [Area.bkd]
  | .vbatLowChange _ => .noting [.bkd] [Area.bkd]
  | .counterLatchLow _ => .noting [.sof, .hif, .net, .tb, .key, .alm, .pair] [Area.tb, Area.net, Area.sof, Area.alm,
      Area.pair, Area.key, Area.pr, Area.srt]
  | .counterLatchHigh _ => .noting [.sof, .hif, .net, .tb, .key, .alm, .pair] [Area.tb, Area.net, Area.sof, Area.alm,
      Area.pair, Area.key, Area.pr, Area.srt]
  | .noticeClear _ _ => .noting [.whl, .pair, .osc] [Area.whl, Area.osc]
  | .noticeEnable _ _ => .noting [.pair] []
  | .msixUnmask _ => .noting [.pair] []
  | .maxDspClear _ _ => .noting [.pair] [Area.whl]
  | .maxLClear _ _ => .noting [.pair] [Area.stab, Area.lstab]
  | .maxWaitClear _ _ => .noting [.pair] [Area.srt]
  | .clsHighClear _ _ => .noting [.pair] [Area.sof]
  | .tjPeakReset _ => .noting [.pair] [Area.pwr]
  | .registerWrite _ _ _ => .allBut [.power, .queue]
  | .tjSample _ _ => .noting [.now, .sof, .hif, .net, .key, .alm, .pair] [Area.net, Area.sof, Area.alm, Area.pair, Area.key,
      Area.pr, Area.pwr]
  | .supplyExcursion _ _ _ => .noting [] [Area.pwr]
  | .i2cGo _ => .noting [.pair, .mem] [Area.pwr]
  | .i2cDone _ _ => ⟨[.mem], [Area.pwr]⟩
  | .syncError _ => .noting [.now, .sof, .hif, .net, .tb, .key, .alm, .pair] [Area.tb, Area.net, Area.sof, Area.alm,
      Area.pair, Area.key, Area.pr]
  | .pauseEnd _ _ => .noting [.now, .sof, .hif, .net] [Area.net, Area.sof, Area.pr]
  | .fcsErrFrame _ _ => ⟨[.now, .net], [Area.net]⟩
  | .snapDone _ => .noting [.now] [Area.nrg]
  | .backupDomainPowered _ => ⟨[.now, .bkd], Area.all⟩
  | .pcieLinkUp => ⟨[], [Area.hif]⟩
  | .busMasteringOn _ => ⟨[.hif], [Area.hif]⟩

/-- From one state to another only what a command may change differs. -/
def Touch.frame (t : Touch) (s u : State) : Prop := Frame t.parts (fun off => t.areas.contains (areaOf off)) s u

end Sys2Proof.Machine
end

