-- ==== Sys2Proof/Certificates/Slice0/Obligations.lean ====
section
/-! DEFINITION. The statements for the provers. Each docstring cites the rules of spec/ it says. -/

open Sys2Proof Sys2Proof.Machine

/-! ### The queue, the step and reset -/

/-- A step with a command at the front of the queue is that command's meaning on the state with the queue's rest. -/
def Obligations.StepRunsFrontCommand : Prop :=
  ∀ (c : Instr) (s : State) (rest : List Instr), step { s with pending := c :: rest } = exec c { s with pending := rest }

/-- On an empty queue the block idles (the model's choice, log entry 1): unpowered it changes nothing; powered, only device time and the
phase of the 625 MHz count move, to the next tick of the count, less than 1.7 ns ahead; from a tick, five idle steps make 8 ns (R51). -/
def Obligations.StepIdlesOnEmptyQueue : Prop :=
  ∀ s : State, s.pending = [] →
    step s = .next s.tick ∧
    (s.powered = false → s.tick = s) ∧
    Frame [.now, .tb] (fun _ => false) s s.tick ∧
    (s.powered = true → s.tick.onTick = true ∧ s.now < s.tick.now ∧ s.tick.now ≤ s.now + 104858) ∧
    (s.powered = true → s.onTick = true → s.tick.tick.tick.tick.tick = { s with now := s.now + 8 * nsU })

/-- State.reset (BACKUP, the model's choice of log entry 4): the queue is empty, every word of BAR0 reads its reset value, nothing has
left the device, and the register store and the Logbook are in their canonical forms. -/
def Obligations.ResetState : Prop :=
  State.reset.mode = .backup ∧ State.reset.pending = [] ∧ State.reset.out = [] ∧ State.reset.sound = true ∧
    ∀ off : Nat, State.reset.word off = resetWord off

/-- Every step keeps the register store in canonical form: offsets rising, no word at its reset value listed. -/
def Obligations.StepKeepsRegisterStore : Prop :=
  ∀ s u : State, s.storeOk = true → step s = .next u → u.storeOk = true

/-- Every step keeps the Logbook within its bounds: 64 staged events, 65,536 records, 64 records in the last-gasp sector. -/
def Obligations.StepKeepsLogbookBounds : Prop :=
  ∀ s u : State, s.logOk = true → step s = .next u → u.logOk = true

/-- The queue is first in, first out: a step takes its front and leaves the rest as it stands; no command enters it. What left the device
is never taken back, and the number of a free value is never used again. -/
def Obligations.QueueAndOutputs : Prop :=
  (∀ s u : State, step s = .next u → u.pending = s.pending.tail) ∧
  (∀ s u : State, step s = .next u → s.out <+: u.out ∧ s.free ≤ u.free)

/-- No command ends in a fault or a refusal: every step of every state completes. -/
def Obligations.EveryStepCompletes : Prop :=
  ∀ s : State, s.completes

/-- What each command leaves as it was: every part of the state and every word of BAR0 outside the parts and areas that `mayTouch` lists
for it. -/
def Obligations.FrameOfEveryCommand : Prop :=
  ∀ (c : Instr) (s u : State), exec c s = .next u → (mayTouch c).frame s u

/-- Only a cold start or its retry powers the block up, and only a supply trip or PORST_N powers it down. -/
def Obligations.PowerChangesOnlyByStartOrCut : Prop :=
  ∀ (c : Instr) (s u : State), exec c s = .next u →
    (s.powered = false → u.powered = true → (∃ t, c = .coldStart t) ∨ ∃ t, c = .startRetry t) ∧
    (s.powered = true → u.powered = false → (∃ t h r, c = .supplyTrip t h r) ∨ ∃ t, c = .porstNAssert t)

/-- Words and fields of BAR0: a word reads as written and every other word as before; a field reads as written modulo its width, and every
field in other bits or another word as before; indices outside its arrays write nothing. -/
def Obligations.RegisterFieldsReadBack : Prop :=
  (∀ (s : State) (off o : Nat) (w : Word), (s.setWord off w).word o = if o = off then w else s.word o) ∧
  (∀ (s : State) (f : Fld) (idx : List Nat) (v : Nat), f.lo ≤ f.hi → f.hi < 32 → idxOk f.dims idx = true →
    (s.wr f idx v).rd f idx = v % 2 ^ f.width) ∧
  (∀ (s : State) (f g : Fld) (idx jdx : List Nat) (v : Nat), f.lo ≤ f.hi → f.hi < 32 → g.lo ≤ g.hi → g.hi < 32 →
    (g.off jdx ≠ f.off idx ∨ f.hi < g.lo ∨ g.hi < f.lo) → (s.wr f idx v).rd g jdx = s.rd g jdx) ∧
  (∀ (s : State) (f : Fld) (idx : List Nat) (v : Nat), idxOk f.dims idx = false → s.wr f idx v = s)

/-! ### Power, starts and modes -/

/-- A supply trip and PORST_N in a powered mode enter BACKUP at once (R30). What was only staged for the Logbook is gone; its records and
last-gasp sector, the keys, the settings banks and the backup domain stand. In BACKUP a host write has no effect and a second cut changes
nothing. The stored words of BAR0, which nothing can read there, stand until the next start clears them (the model's choice, log entry
136). -/
def Obligations.PowerCutEntersBackup : Prop :=
  ∀ (t : Time) (high : Bool) (rail : Fin 8) (s : State), s.powered = true →
    ∃ u, exec (.supplyTrip t high rail) s = .next u ∧ exec (.porstNAssert t) s = .next u ∧ u.mode = .backup ∧ u.powered = false ∧
      u.now = max s.now t ∧ u.log.stage = [] ∧ u.log.recs = s.log.recs ∧ u.log.gasp = s.log.gasp ∧ u.key = s.key ∧
      u.nvs.bankA = s.nvs.bankA ∧ u.nvs.bankB = s.nvs.bankB ∧ u.nvs.sel = s.nvs.sel ∧ u.bkd = s.bkd ∧
      (∀ off, u.word off = s.word off) ∧ u.pending = s.pending ∧
      exec (.supplyTrip t high rail) u = .next u ∧ exec (.porstNAssert t) u = .next u ∧
      ∀ (addr : Nat) (w : Word) (be : Fin 16), exec (.registerWrite addr w be) u = .next u

/-- A cold start from BACKUP enters LOADING in phase 1 (R30, R506, R519): the main domain is powered, STRT_STAT shows a cold start from
BACKUP, and device time is the backup clock's (R82). The retry of a failed start, once it is due, is a cold start with KIND 1, SRC 1 and
CAUSE 12 (R524). -/
def Obligations.ColdStartEntersLoading : Prop :=
  (∀ (t : Time) (s : State), s.powered = false →
    ∃ u, exec (.coldStart t) s = .next u ∧ u.powered = true ∧ u.mode = .loading ∧ u.rd Reg.STRT_STAT_PHASE [] = 1 ∧
      u.rd Reg.STRT_STAT_KIND [] = 0 ∧ u.rd Reg.STRT_STAT_SRC [] = 0 ∧ u.now = s.bkdSec * second ∧ u.pending = s.pending) ∧
  (∀ (t r : Time) (s : State), s.mode = .loading → s.strt.retryAt = some r → r ≤ max s.now t →
    ∃ u, exec (.startRetry t) s = .next u ∧ u.powered = true ∧ u.mode = .loading ∧ u.rd Reg.STRT_STAT_PHASE [] = 1 ∧
      u.rd Reg.STRT_STAT_KIND [] = 1 ∧ u.rd Reg.STRT_STAT_SRC [] = 1 ∧ u.rd Reg.GLB_MODE_CAUSE [] = 12 ∧ u.pending = s.pending)

/-- The triggers of a warm start (R506, R528): WRST_N held low for 1 µs, a write of STRT_CTL with WARM = 1 and its key, and a watchdog
whose time is over. Each enters LOADING with KIND 2, the trigger as SRC (5 from SERVICE), FULL as asked and the mode left as PREV; a
watchdog start has the notices of R528 and of its failure waiting for step 5. -/
def Obligations.WarmStartEntersLoading : Prop :=
  (∀ (t : Time) (lowNs : Nat) (s : State), 1000 ≤ lowNs → s.mode ≠ .backup → s.mode ≠ .loading →
    ∃ u, exec (.wrstNLow t lowNs) s = .next u ∧ u.startedWarm s.mode 2 false ∧ u.pending = s.pending) ∧
  (∀ (w : Word) (s : State), s.mode ≠ .backup → s.mode ≠ .loading → Reg.STRT_CTL_WARM.get w = 1 → Reg.STRT_CTL_KEY.get w = 0x57A7 →
    ∃ u, exec (.warmStart w) s = .next u ∧ exec (.warmStartFull w) s = .next u ∧
      u.startedWarm s.mode 3 (Reg.STRT_CTL_FULL.get w == 1) ∧ u.pending = s.pending) ∧
  (∀ (t : Time) (s : State), s.processing = true → s.flag Reg.STRT_WDOG_STALL_EN [] = true →
    s.strt.stall + clampN 10 10000 (s.rd Reg.STRT_WDOG_STALL_MS []) * msU ≤ max s.now t →
    ∃ u, exec (.watchdogStall t) s = .next u ∧ u.startedWarm s.mode 4 false ∧ (4, 0, 1, 0) ∈ u.strt.due ∧ (1, 0, 5, 1) ∈ u.strt.due) ∧
  (∀ (t : Time) (s : State), s.mode.steady = true → s.flag Reg.STRT_WDOG_HOST_EN [] = true →
    s.strt.kick + clampN 100 60000 (s.rd Reg.STRT_WDOG_HOST_MS []) * msU ≤ max s.now t →
    ∃ u, exec (.watchdogHost t) s = .next u ∧ u.startedWarm s.mode 4 false ∧ (4, 0, 2, 0) ∈ u.strt.due ∧ (1, 0, 5, 2) ∈ u.strt.due)

/-- A write of STRT_CTL without WARM = 1 or without its key, and one of STRT_KICK with a wrong key, have no effect; one of STRT_KICK with
the key restarts the host watchdog and nothing else (R528, R534). The timers of a start (R521, R524): the start timer and the PLL timer
fail the start with CODE 3 (SUB the phase) once 1,000 ms (200 ms in a warm start) have passed since it began, and with CODE 2 (SUB 0) once
2 ms have passed in phase 1, one more attempt counted, and below the lockout a retry due 100 ms × ATTEMPTS later; before its time and
outside LOADING neither does anything. The stable timer clears ATTEMPTS (R525). -/
def Obligations.StartKeysAndTimers : Prop :=
  ((∀ (w : Word) (s : State), (Reg.STRT_CTL_WARM.get w ≠ 1 ∨ Reg.STRT_CTL_KEY.get w ≠ 0x57A7) →
    exec (.warmStart w) s = .next s ∧ exec (.warmStartFull w) s = .next s) ∧
  (∀ (w : Word) (s : State), Reg.STRT_KICK_KEY.get w ≠ 0xC35A → exec (.strtKick w) s = .next s) ∧
  (∀ (w : Word) (s : State), s.powered = true → Reg.STRT_KICK_KEY.get w = 0xC35A →
    exec (.strtKick w) s = .next { s with strt := { s.strt with kick := s.now } })) ∧
  ((∀ (t : Time) (s : State), s.mode = .loading → s.strt.retryAt = none → s.strt.lockDue = false →
    s.rd Reg.STRT_FAIL_ATTEMPTS [] + 1 < s.rd Reg.STRT_FAIL_LOCKOUT [] →
    (s.strt.began + (if s.warmStart then 200 else 1000) * msU ≤ max s.now t →
      ∃ u, exec (.startTimer t) s = .next u ∧ u.rd Reg.STRT_FAIL_CODE [] = 3 ∧
      u.rd Reg.STRT_FAIL_SUB [] = s.rd Reg.STRT_STAT_PHASE [] ∧
      u.rd Reg.STRT_FAIL_ATTEMPTS [] = s.rd Reg.STRT_FAIL_ATTEMPTS [] + 1 ∧ u.mode = .loading ∧
      u.strt.retryAt = some (max s.now t + 100 * msU * (s.rd Reg.STRT_FAIL_ATTEMPTS [] + 1))) ∧
    (s.rd Reg.STRT_STAT_PHASE [] = 1 → s.strt.began + 2 * msU ≤ max s.now t →
      ∃ u, exec (.pllLockTimeout t) s = .next u ∧ u.rd Reg.STRT_FAIL_CODE [] = 2 ∧ u.rd Reg.STRT_FAIL_SUB [] = 0 ∧
        u.rd Reg.STRT_FAIL_ATTEMPTS [] = s.rd Reg.STRT_FAIL_ATTEMPTS [] + 1 ∧
        u.strt.retryAt = some (max s.now t + 100 * msU * (s.rd Reg.STRT_FAIL_ATTEMPTS [] + 1)))) ∧
  (∀ (t : Time) (s : State),
    ((s.mode ≠ .loading ∨ max s.now t < s.strt.began + (if s.warmStart then 200 else 1000) * msU) →
      exec (.startTimer t) s = .next (s.advance t)) ∧
    ((s.mode ≠ .loading ∨ max s.now t < s.strt.began + 2 * msU) → exec (.pllLockTimeout t) s = .next (s.advance t))) ∧
  (∀ (t b : Time) (s : State), s.powered = true → s.strt.stableSince = some b → b + s.strt.stableS * second ≤ max s.now t →
    ∃ u, exec (.stableTimer t) s = .next u ∧ u.rd Reg.STRT_FAIL_ATTEMPTS [] = 0 ∧ u.mode = s.mode))

/-- The steps of a start (R519): each row that ends a step runs what the spec gives at that end and shows the next step in PHASE; it acts
only in LOADING and while no retry is awaited. Steps 1, 2 and 4 are given by their results; the others by the operation named. -/
def Obligations.StartStepsRun : Prop :=
  ∀ s : State, s.mode = .loading → s.strt.retryAt = none →
    (∀ t, s.rd Reg.STRT_STAT_PHASE [] = 1 →
      exec (.startStepEnd (.plain t)) s = .next ((s.advance t).wr Reg.STRT_STAT_PHASE [] 2)) ∧
    (∀ h t, s.rd Reg.STRT_STAT_PHASE [] = 2 → s.key.fuse ≠ 4 →
      ∃ u, exec (.startStepEnd (.fuses h t)) s = .next u ∧ u.rd Reg.STRT_STAT_PHASE [] = 3 ∧ u.strt.fuseHash = h ∧
        u.rd Reg.KEY_LC_STATE [] = s.key.fuse % 8) ∧
    (∀ t, s.rd Reg.STRT_STAT_PHASE [] = 3 → exec (.startStepEnd (.plain t)) s = .next (s.advance t).startRecord) ∧
    (∀ bad t, s.rd Reg.STRT_STAT_PHASE [] = 4 → exec (.startStepEnd (.keys bad t)) s = .next ((s.advance t).startKeys bad)) ∧
    (∀ ok t, s.rd Reg.STRT_STAT_PHASE [] = 5 → exec (.startStepEnd (.logbook ok t)) s = .next ((s.advance t).startLog ok)) ∧
    (∀ t, s.rd Reg.STRT_STAT_PHASE [] = 6 → s.strt.imageDone = false →
      exec (.startStepEnd (.plain t)) s = .next (((s.advance t).imageStep.judgeImage 4).show67)) ∧
    (∀ g0 g1 ok0 ok1 k0 k1 t, (s.rd Reg.STRT_STAT_PHASE [] = 6 ∨ s.rd Reg.STRT_STAT_PHASE [] = 7) → s.strt.dramDone = false →
      exec (.startStepEnd (.dram g0 g1 ok0 ok1 k0 k1 t)) s = .next (((s.advance t).dramStep g0 g1 ok0 ok1 k0 k1).judgeImage 4)) ∧
    (∀ f t, s.rd Reg.STRT_STAT_PHASE [] = 8 → exec (.startStepEnd (.sorters f t)) s = .next ((s.advance t).startSorters f)) ∧
    (∀ t, s.rd Reg.STRT_STAT_PHASE [] = 9 → exec (.startStepEnd (.plain t)) s = .next (s.advance t).startApply) ∧
    (∀ t, s.rd Reg.STRT_STAT_PHASE [] = 10 → exec (.startStepEnd (.plain t)) s = .next (s.advance t).startFinish)

/-- Requests for a mode (R36, R38, R39): the first failing check gives STATUS 3 and its REASON, a request while one is pending gets REASON
2 and nothing else happens to it, an accepted run enable completes at once with RUN_EN = 1, and an accepted request that needs no
hand-over waits with STATUS 1; one that needs it starts the switchover with it; in HELD an authorised request for SERVICE completes at
once. -/
def Obligations.ModeRequests : Prop :=
  (∀ (force : Bool) (s : State), s.powered = true → s.rd Reg.GLB_MODE_REQ_STATUS [] = 1 →
    exec (.reqWatch force) s = .next (s.wr Reg.GLB_MODE_REQ_REASON [] 2) ∧
    exec (.reqSwitchover force) s = .next (s.wr Reg.GLB_MODE_REQ_REASON [] 2) ∧
    exec (.reqRunEnable force) s = .next (s.wr Reg.GLB_MODE_REQ_REASON [] 2) ∧
    exec (.reqService force) s = .next (s.wr Reg.GLB_MODE_REQ_REASON [] 2)) ∧
  (∀ (force : Bool) (s : State), s.powered = true → s.rd Reg.GLB_MODE_REQ_STATUS [] ≠ 1 →
    (s.judge 2 force false ≠ 0 → ∃ u, exec (.reqWatch force) s = .next u ∧ u.rd Reg.GLB_MODE_REQ_STATUS [] = 3 ∧
      u.rd Reg.GLB_MODE_REQ_REASON [] = s.judge 2 force false ∧ u.noticed bGLB 1 ∧ u.mode = s.mode) ∧
    (s.judge 7 force false ≠ 0 → ∃ u, exec (.reqService force) s = .next u ∧ u.rd Reg.GLB_MODE_REQ_STATUS [] = 3 ∧
      u.rd Reg.GLB_MODE_REQ_REASON [] = s.judge 7 force false ∧ u.noticed bGLB 1 ∧ u.mode = s.mode) ∧
    (s.judge 2 force false = 0 → s.needsHandover = false → ∃ u, exec (.reqWatch force) s = .next u ∧
      u.rd Reg.GLB_MODE_REQ_STATUS [] = 1 ∧ u.rd Reg.GLB_MODE_REQ_REASON [] = 0 ∧ u.flag Reg.GLB_MODE_RUN_EN [] = false ∧
      u.glb.reqTarget = 2) ∧
    (s.judge 3 force false = 0 → s.partnerReady = true → ∃ u, exec (.reqSwitchover force) s = .next u ∧
      u.rd Reg.GLB_MODE_REQ_STATUS [] = 1 ∧ u.glb.reqTarget = 3 ∧ u.pair.switch.isSome = true) ∧
    (s.judge 3 force false = 0 → s.partnerReady = false → ∃ u, exec (.reqSwitchover force) s = .next u ∧
      u.rd Reg.GLB_MODE_REQ_STATUS [] = 3 ∧ u.rd Reg.GLB_MODE_REQ_REASON [] = 3) ∧
    (s.judge 4 force false = 0 → ∃ u, exec (.reqRunEnable force) s = .next u ∧ u.rd Reg.GLB_MODE_REQ_STATUS [] = 2 ∧
      u.flag Reg.GLB_MODE_RUN_EN [] = true ∧ u.noticed bGLB 1) ∧
    (s.judge 7 force false = 0 → s.mode ≠ .held → s.needsHandover = false → ∃ u, exec (.reqService force) s = .next u ∧
      u.rd Reg.GLB_MODE_REQ_STATUS [] = 1 ∧ u.glb.reqTarget = 7 ∧ u.flag Reg.GLB_MODE_RUN_EN [] = false ∧
      u.rd Reg.STRT_SVC_AUTH_STAT [] ≠ 1) ∧
    (s.judge 7 force false = 0 → s.mode = .held → ∃ u, exec (.reqService force) s = .next u ∧ u.mode = .service ∧
      u.rd Reg.GLB_MODE_REQ_STATUS [] = 2 ∧ u.flag Reg.GLB_MODE_RUN_EN [] = false) ∧
    (s.needsHandover = true →
      (s.judge 2 force false = 0 → ∃ u, exec (.reqWatch force) s = .next u ∧ u.rd Reg.GLB_MODE_REQ_STATUS [] = 1 ∧
        u.glb.reqTarget = 2 ∧ u.pair.switch.isSome = true) ∧
      (s.judge 7 force false = 0 → ∃ u, exec (.reqService force) s = .next u ∧ u.rd Reg.GLB_MODE_REQ_STATUS [] = 1 ∧
        u.glb.reqTarget = 7 ∧ u.pair.switch.isSome = true))) ∧
  (∀ (force : Bool) (s : State), s.powered = true → s.mode ≠ .watch →
    s.rd Reg.GLB_MODE_REQ_STATUS [] ≠ 1 → ∃ u, exec (.reqRunEnable force) s = .next u ∧ u.rd Reg.GLB_MODE_REQ_STATUS [] = 3 ∧
      u.rd Reg.GLB_MODE_REQ_REASON [] = 1)

/-! ### Faults and self-tests -/

/-- Faults of a sorter: in a powered mode a sequencer fault fences the sorter, and on a fenced one it changes nothing (R16); an
uncorrectable SRAM error counts with its place and notice, in a processing mode as failed self-test 1 too (R432), and then fences the sorter
it lies in or, in the central SRAM, is fatal (R33). A known-answer test that fails on a sorter in Run counts failed self-test 2 and fences
it; one that passes only has its item run (R432). DRAM, on a channel in use (R568): an uncorrectable codeword counts with its address and
notice, the item that read it is reissued, and its time enters the last second's; the sixteenth there loses the channel; on a lost channel
nothing changes. MRAM: an uncorrectable read counts with its place and notice; in the Manifest shadow it is fatal, a settings bank is lost,
the Logbook, the Strongroom and the journal act on theirs, and beyond them nothing else happens. In a processing mode a scrub or patrol pass
counts and corrected codewords count with the last place, and the read check marks bad slots and loads the catalogue anew. -/
def Obligations.SorterAndMemoryErrors : Prop :=
  ((∀ (srt : Fin 64) (t : Time) (s : State), s.powered = true →
    (s.fenced srt = false → exec (.sequencerFault srt t) s = .next ((s.advance t).fence srt)) ∧
    (s.fenced srt = true → exec (.sequencerFault srt t) s = .next (s.advance t))) ∧
  (∀ (wh : Fin 65) (index : Nat) (t : Time) (s a : State), s.powered = true →
    a = (((s.advance t).inc Reg.MEM_SRAM_UE_COUNT []).sramLast wh index).notice bMEM 1 wh index 0 →
    (s.processing = false → exec (.sramUe wh index t) s = .next (if wh.val < 64 then a.fence wh else a.fatal 3)) ∧
    (s.processing = true →
      exec (.sramUe wh index t) s = .next (if wh.val < 64 then (a.selfTestFail 1).fence wh else (a.selfTestFail 1).fatal 3))) ∧
  (∀ (srt : Fin 64) (t : Time) (s : State), s.processing = true → s.fenced srt = false → s.srtState srt = 0 →
    exec (.knownAnswerTest srt false t) s = .next ((((s.advance t).katRan srt).selfTestFail 2).fence srt) ∧
    exec (.knownAnswerTest srt true t) s = .next ((s.advance t).katRan srt))) ∧
  ((∀ (ch : Fin 2) (addr : Nat) (item : Option Nat) (t : Time) (s : State), s.powered = true →
    (s.flag Reg.MEM_CH_STAT_LOST [ch] = true → exec (.dramUe ch addr item t) s = .next (s.advance t)) ∧
    (s.flag Reg.MEM_CH_STAT_LOST [ch] = false →
      exec (.dramUe ch addr item t) s = .next ((((s.advance t).dramCount ch addr).dramMet item).ueWindow ch))) ∧
  (∀ (ch : Fin 2) (addr : Nat) (t : Time) (s : State), s.powered = true → s.processing = false →
    s.flag Reg.MEM_CH_STAT_LOST [ch] = false →
    (((s.advance t).ueRecent ch).length < 15 →
      ∃ u, exec (.dramUe ch addr none t) s = .next u ∧ u.rd Reg.MEM_CH_UE_COUNT [ch] = (s.rd Reg.MEM_CH_UE_COUNT [ch] + 1) % 2 ^ 32 ∧
        u.noticed bMEM 3 ∧ u.mode = s.mode ∧ u.ueTimes ch = (s.advance t).ueRecent ch ++ [max s.now t]) ∧
    (15 ≤ ((s.advance t).ueRecent ch).length →
      exec (.dramUe ch addr none t) s =
        .next ((((s.advance t).dramCount ch addr).setUeTimes ch ((s.advance t).ueRecent ch ++ [max s.now t])).loseChannel ch))) ∧
  (∀ (addr : Nat) (t : Time) (s a : State), s.powered = true → a = (s.advance t).mramCount addr →
    a.rd Reg.MEM_MRAM_UE_COUNT [] = (s.rd Reg.MEM_MRAM_UE_COUNT [] + 1) % 2 ^ 32 ∧ a.flag Reg.MEM_MRAM_LAST_VALID [] = true ∧
    a.noticed bMEM 5 ∧
    (addr < 0x400000 → s.processing = false → exec (.mramUe addr t) s = .next (a.fatal 1)) ∧
    (addr < 0x400000 → s.processing = true → exec (.mramUe addr t) s = .next ((a.selfTestFail 4).fatal 1)) ∧
    (0x400000 ≤ addr → addr < 0x600000 → exec (.mramUe addr t) s = .next (a.setBank 0 [])) ∧
    (0x600000 ≤ addr → addr < 0x800000 → exec (.mramUe addr t) s = .next (a.setBank 1 [])) ∧
    (0x800000 ≤ addr → addr < 0xC00000 → exec (.mramUe addr t) s = .next (a.logUe (addr - 0x800000))) ∧
    (0xC02000 ≤ addr → addr < 0xC80000 → exec (.mramUe addr t) s = .next (a.keyUe (addr - 0xC00000))) ∧
    (0xC80000 ≤ addr → addr < 0xD00000 → exec (.mramUe addr t) s = .next (a.jrnUe (addr - 0xC80000))) ∧
    (0xD00000 ≤ addr → addr < 0x1000000 → exec (.mramUe addr t) s = .next a)) ∧
  (∀ (corrected wh index : Nat) (t : Time) (s : State), s.processing = true →
    exec (.sramScrubPass 0 wh index t) s = .next ((s.advance t).inc Reg.MEM_SCRUB_SRAM []) ∧
    (corrected ≠ 0 → ∃ u, exec (.sramScrubPass corrected wh index t) s = .next u ∧
      u.rd Reg.MEM_SCRUB_SRAM [] = (s.rd Reg.MEM_SCRUB_SRAM [] + 1) % 2 ^ 16 ∧
      u.rd Reg.MEM_SRAM_CE_COUNT [] = (s.rd Reg.MEM_SRAM_CE_COUNT [] + corrected) % 2 ^ 32 ∧
      u.rd Reg.MEM_SRAM_LAST_WHERE [] = wh % 2 ^ Reg.MEM_SRAM_LAST_WHERE.width ∧ u.noticed bMEM 0)) ∧
  (∀ (ch : Fin 2) (pct corrected addr : Nat) (t : Time) (s : State), s.processing = true →
    s.flag Reg.MEM_CH_STAT_LOST [ch] = false → corrected ≠ 0 → pct < 100 →
    ∃ u, exec (.dramPatrolPass ch pct corrected addr t) s = .next u ∧ u.rd Reg.MEM_CH_PATROL_PCT [ch] = pct ∧
      u.rd Reg.MEM_CH_CE_COUNT [ch] = (s.rd Reg.MEM_CH_CE_COUNT [ch] + corrected) % 2 ^ 32 ∧ u.noticed bMEM 2) ∧
  (∀ (pct addr : Nat) (t : Time) (s : State), s.processing = true → s.flag Reg.MEM_CH_STAT_LOST [1] = false → 100 ≤ pct →
    ∃ u, exec (.dramPatrolPass 1 pct 0 addr t) s = .next u ∧ u.rd Reg.MEM_CH_PATROL_PCT [1] = 0 ∧
      u.rd Reg.MEM_SCRUB_DRAM [] = (s.rd Reg.MEM_SCRUB_DRAM [] + 1) % 2 ^ 16) ∧
  (∀ (bad : List Nat) (corrected addr : Nat) (t : Time) (s : State), s.processing = true →
    exec (.mramReadCheck bad corrected addr t) s =
      .next ((({ s.advance t with
        key := { s.key with phys := (s.key.phys.map fun e => if bad.contains e.1 then (e.1, { e.2 with ok := false }) else e) } }
          : State).loadSlots).mramCorrected corrected addr)))

/-! ### Sorters, items and flows -/

/-- The power states of a sorter (R20 to R23): after its idle time an empty sorter in Run goes to Nap, and on to Sleep if the policy
allows and no burst is near; the scheduled wake of a Round wakes its home sorter WAKE.LEAD before the next arrival it is woken for, and no
earlier; a wake ends in Run once its latency is over and counts in WAKES; outside the processing modes an empty sorter that is idle for 1
ms, and is not being woken for the entry to run, goes to Off. Housekeeping and moves (R186, R200, R279, R432): with room in class 3 the
timer enqueues a known-answer test of a sorter in Run on flow 0x5C20 and other housekeeping on the flows above it, and the clustering is
spawned once per whole second of the islanding Round's instants, or skipped while one waits; a flow state copied makes the moving flow's new home take over. -/
def Obligations.SorterPowerAndHousekeeping : Prop :=
  ((∀ (srt : Fin 64) (t : Time) (s : State), s.processing = true → s.srtState srt = 0 → (s.srtHid srt).waking = none →
    s.emptyHoles srt = true → 1 ≤ s.deepest →
    max 1 (s.rd Reg.PWR_SRT_POLICY_NAP_IDLE []) * 8 * usU ≤ (max s.now t - (s.srtHid srt).idle) * s.sof.clk →
    ∃ u, exec (.napEntry srt t) s = .next u ∧ (u.srtState srt = 1 ∨ (u.srtState srt = 2 ∧ s.deepest = 2)) ∧
      (s.deepest = 1 → u.srtState srt = 1) ∧ u.sof = s.sof) ∧
  (∀ (rnd : Fin 64) (t : Time) (s : State), s.processing = true → s.rndOn rnd = true →
    ((s.advance t).nextArrival rnd ≤ max s.now t + s.wakeLead →
      exec (.scheduledWake rnd t) s = .next ((s.advance t).wake (s.home (0x4400 + rnd)) (some ((s.advance t).nextArrival rnd)))) ∧
    (max s.now t + s.wakeLead < (s.advance t).nextArrival rnd → exec (.scheduledWake rnd t) s = .next (s.advance t))) ∧
  (∀ (srt : Fin 64) (t since : Time) (left : Nat) (sch : Option Time) (s : State), (s.srtHid srt).waking = some (since, left, sch) →
    (max s.now t < since + wakeTime left → exec (.sorterWakeDone srt t) s = .next (s.advance t)) ∧
    (since + wakeTime left ≤ max s.now t →
      ∃ u, exec (.sorterWakeDone srt t) s = .next u ∧ u.srtState srt = 0 ∧ (u.srtHid srt).waking = none ∧
        u.rd Reg.SRT_WAKES [srt] = (s.rd Reg.SRT_WAKES [srt] + 1) % 2 ^ 32)) ∧
  (∀ (srt : Fin 64) (t : Time) (s : State), s.processing = false → s.wakesFor srt = false → s.emptyHoles srt = true → s.srtState srt ≠ 3 →
    (s.srtHid srt).idle + msU ≤ max s.now t →
    ∃ u, exec (.offEntry srt t) s = .next u ∧ u.srtState srt = 3 ∧ (u.srtHid srt).waking = none)) ∧
  ((∀ (n : Nat) (t : Time) (s : State), s.processing = true → s.hkRoom = true →
    (s.srtState n = 0 → exec (.housekeepingTimer (.kat n) t) s = .next ((s.advance t).enqueueC3 0x5C20 (.kat n))) ∧
    (s.srtState n ≠ 0 → exec (.housekeepingTimer (.kat n) t) s = .next (s.advance t)) ∧
    exec (.housekeepingTimer (.other n) t) s = .next ((s.advance t).enqueueC3 (hkFlow n) (.housekeep n))) ∧
  (∀ (t : Time) (s : State), s.processing = true → s.hkRoom = true →
    (s.rd Reg.ISL_STAT_STATE [] = 1 ∨ s.rd Reg.ISL_STAT_STATE [] = 2) → s.isl.clustSec < secOf s.isl.lastTk →
    ((s.sof.items.any fun i => i.flow == 0x5002) = false →
      exec (.housekeepingTimer .clustering t) s =
        .next (({ s.advance t with isl := { s.isl with clustSec := secOf s.isl.lastTk } } : State).enqueueC3 0x5002 .clustering)) ∧
    ((s.sof.items.any fun i => i.flow == 0x5002) = true →
      ∃ u, exec (.housekeepingTimer .clustering t) s = .next u ∧
        u.rd Reg.ISL_CLUST_SKIPPED [] = (s.rd Reg.ISL_CLUST_SKIPPED [] + 1) % 2 ^ Reg.ISL_CLUST_SKIPPED.width ∧ u.sof = s.sof)) ∧
  (∀ (t : Time) (s : State), secOf s.isl.lastTk ≤ s.isl.clustSec → exec (.housekeepingTimer .clustering t) s = .next (s.advance t)) ∧
  (∀ (flow : Nat) (t : Time) (m : Move) (s : State), (s.sof.moves.find? fun x => x.flow == flow && x.copying) = some m →
    exec (.flowStateCopyDone flow t) s = .next ((s.advance t).finishMove m)))

/-- Items (R181, R188, R189, R193): an item whose content has run ends, gives its outputs and frees its sorter; a thief takes what it may
steal; a class 2 item past its window is cancelled with reason 0x15; an item past the time limit is reissued or cancelled. SOF_CANCEL
(R193, R223): with GO = 1 a flow in use that is no alarm flow has its waiting items cancelled with reason 0x1C (0x15 for one that is past
its window too) and STATUS 1, any other flow number gives STATUS 2, and both set their notice; without GO nothing happens. -/
def Obligations.ItemsEndAndCancel : Prop :=
  ((∀ (srt : Fin 64) (t : Time) (cycles : Nat) (i : Item) (s : State), s.inService srt = some i → i.finished = true →
    exec (.itemEnd srt t cycles) s = .next ((s.advance t).finishItem i srt cycles)) ∧
  (∀ (srt : Fin 64) (t : Time) (cycles : Nat) (i : Item) (s : State), s.inService srt = some i → i.finished = false →
    exec (.itemEnd srt t cycles) s = .next (s.advance t)) ∧
  (∀ (thief : Fin 64) (t : Time) (s : State),
    exec (.itemStealable thief t) s = .next ((s.advance t).sorterNext thief true)) ∧
  (∀ (item : Nat) (t e : Time) (i : Item) (s : State), (s.sof.items.find? fun j => j.key == item) = some i → i.serving = false →
    i.cls = 2 → s.expiresAt i = some e →
    (max s.now t < e → exec (.itemExpiry item t) s = .next (s.advance t)) ∧
    (e ≤ max s.now t →
      exec (.itemExpiry item t) s =
        .next (((s.advance t).expireItem i).kick))) ∧
  (∀ (i : Item) (s : State), s.expireItem i = (s.cancelItem i 0x15).noticeFirst bSOF 3 i.flow 0 0) ∧
  (∀ (srt : Fin 64) (pass : Bool) (t : Time) (i : Item) (s : State), s.inService srt = some i → i.ran = false →
    i.since + s.itemMax ≤ max s.now t →
    exec (.itemTimeLimit srt pass t) s = .next ((s.advance t).timeLimit i srt pass))) ∧
  (∀ (w : Word) (s : State), s.takesWrite (Reg.SOF_CANCEL_GO.off []) →
    (w.getLsbD 31 = false → exec (.hostCancel w) s = .next s) ∧
    (w.getLsbD 31 = true → (flowUsed (w.toNat % 65536) = false ∨ isAlarmFlow (w.toNat % 65536) = true) →
      ∃ u, exec (.hostCancel w) s = .next u ∧ u.rd Reg.SOF_CANCEL_STATUS [] = 2 ∧ u.noticed bSOF 6 ∧ u.sof = s.sof) ∧
    (w.getLsbD 31 = true → flowUsed (w.toNat % 65536) = true → isAlarmFlow (w.toNat % 65536) = false →
      exec (.hostCancel w) s =
        .next ((((forEach (s.sof.items.filter (s.hostTakes (w.toNat % 65536)))
          (fun i a => if s.expired i then a.expireItem { i with serving := false } else a.cancelItem { i with serving := false } 0x1C) s).wr Reg.SOF_CANCEL_STATUS [] 1).notice
          bSOF 6 (w.toNat % 65536) 1 0).kick)))

/-! ### The host interface -/

/-- Doorbells (R209, R210, R216): a CONS or PROD that lies in the ring is taken; one that does not leaves the register and sets
HIF_NOTICE.BAD_DB; each word of a doorbell may be written alone; one of a ring that is not enabled has no effect; a read in BAR2 returns
0. Rings (R208, R214 to R216, R222): a write of CFG is stored, its fixed source kept for PR0 to PR63, and EN = 1 clears the counts; a
moderated vector is raised when the time since the first unannounced item is over; a letterbox command that the device may fetch counts in
CONS and becomes a class 3 item of the ring's flow; a PCIe error disables the ring and sets PCIE_ERR and the notice. -/
def Obligations.RingsAndDoorbells : Prop :=
  ((∀ (ring : Fin 128) (cons consB : Word) (s : State), s.ringsRun = true → s.flag Reg.PR_CFG_EN [ring] = true →
    inRing (s.rd Reg.PR_PROD [ring]) cons.toNat (2 ^ s.prSlog ring) = true →
    inRing (s.rd Reg.PR_PROD_B [ring]) consB.toNat (2 ^ s.prDlog ring) = true →
    (∃ u, exec (.prDoorbell ring (.write (some cons)) (some consB)) s = .next u ∧ u.rd Reg.PR_CONS [ring] = cons.toNat ∧
      u.rd Reg.PR_CONS_B [ring] = consB.toNat ∧ u.rd Reg.PR_PROD [ring] = s.rd Reg.PR_PROD [ring]) ∧
    (∃ u, exec (.prDoorbell ring (.write (some cons)) none) s = .next u ∧ u.rd Reg.PR_CONS [ring] = cons.toNat ∧
      u.rd Reg.PR_CONS_B [ring] = s.rd Reg.PR_CONS_B [ring]) ∧
    (∃ u, exec (.prDoorbell ring (.write none) (some consB)) s = .next u ∧ u.rd Reg.PR_CONS [ring] = s.rd Reg.PR_CONS [ring] ∧
      u.rd Reg.PR_CONS_B [ring] = consB.toNat)) ∧
  (∀ (ring : Fin 128) (cons : Word) (consB : Option Word) (s : State), s.ringsRun = true → s.flag Reg.PR_CFG_EN [ring] = true →
    inRing (s.rd Reg.PR_PROD [ring]) cons.toNat (2 ^ s.prSlog ring) = false →
    ∃ u, exec (.prDoorbell ring (.write (some cons)) consB) s = .next u ∧ u.rd Reg.PR_CONS [ring] = s.rd Reg.PR_CONS [ring] ∧ u.noticed bHIF 4) ∧
  (∀ (m : Fin 16) (prod : Word) (s : State), s.ringsRun = true → s.flag Reg.LB_CFG_EN [m] = true →
    (inRing prod.toNat (s.rd Reg.LB_CONS [m]) (2 ^ clampN 4 12 (s.rd Reg.LB_CFG_SLOG2 [m])) = true →
      exec (.lbDoorbell m (.write (some prod))) s = .next (s.wr Reg.LB_PROD [m] prod.toNat)) ∧
    (inRing prod.toNat (s.rd Reg.LB_CONS [m]) (2 ^ clampN 4 12 (s.rd Reg.LB_CFG_SLOG2 [m])) = false →
      ∃ u, exec (.lbDoorbell m (.write (some prod))) s = .next u ∧ u.rd Reg.LB_PROD [m] = s.rd Reg.LB_PROD [m] ∧ u.noticed bHIF 4)) ∧
  (∀ (ring : Fin 128) (m : Fin 16) (a b : Option Word) (s : State),
    (s.flag Reg.PR_CFG_EN [ring] = false → exec (.prDoorbell ring (.write a) b) s = .next s) ∧
    exec (.prDoorbell ring (.write none) none) s = .next s ∧
    (s.flag Reg.LB_CFG_EN [m] = false → exec (.lbDoorbell m (.write a)) s = .next s) ∧
    (s.powered = true → exec (.prDoorbell ring .read b) s = .next (s.emit (.readData 0#32)) ∧
      exec (.lbDoorbell m .read) s = .next (s.emit (.readData 0#32))))) ∧
  ((∀ (ring : Fin 128) (w : Word) (s : State), s.takesWrite (Reg.PR_CFG_EN.off [ring]) →
    exec (.prEnable ring w) s = .next (s.prCfg ring w)) ∧
  (∀ (m : Fin 16) (w : Word) (s : State), s.takesWrite (Reg.LB_CFG_EN.off [m]) → Reg.LB_CFG_EN.get w = 1 →
    ∃ u, exec (.lbEnable m w) s = .next u ∧ u.flag Reg.LB_CFG_EN [m] = true ∧ u.rd Reg.LB_PROD [m] = 0 ∧ u.rd Reg.LB_CONS [m] = 0 ∧
      u.rd Reg.LB_DONE [m] = 0) ∧
  (∀ (ring : Fin 128) (t : Time) (s : State), 2 ≤ s.rd Reg.PR_CFG_NOTIFY [ring] → 0 < (sget s.hif.rings ring ring0).unnot →
    (sget s.hif.rings ring ring0).first + max 1 (s.rd Reg.PR_MOD_MOD_US [ring]) * usU ≤ max s.now t →
    ∃ u, exec (.modTimeout ring t) s = .next u ∧ (sget u.hif.rings ring ring0).unnot = 0 ∧
      (s.hif.msixEn = true → s.flag Reg.HIF_STAT_BME [] = true → s.rd Reg.MSIX_CTRL [s.rd Reg.PR_CFG_VEC [ring]] % 2 = 0 →
        u.out = s.out ++ [.msix (s.rd Reg.PR_CFG_VEC [ring])])) ∧
  (∀ (m : Fin 16) (cmd : List Byte) (t : Time) (s : State), s.lbMayFetch m = true → cmd.length = 64 →
    exec (.lbCommandFetched m cmd t) s =
      .next (((s.advance t).inc Reg.LB_CONS [m]).enqueueC3 (lbFlow m) (.letterbox m cmd none))) ∧
  (∀ (ring : Fin 128) (s : State), s.ringsRun = true → s.flag Reg.PR_CFG_EN [ring] = true →
    ∃ u, exec (.ringPcieError false ring) s = .next u ∧ u.flag Reg.PR_CFG_EN [ring] = false ∧
      u.flag Reg.PR_STAT_PCIE_ERR [ring] = true ∧ u.noticed bHIF 1) ∧
  (∀ (ring : Fin 128) (s : State), ring.val < 16 → s.ringsRun = true → s.flag Reg.LB_CFG_EN [ring] = true →
    ∃ u, exec (.ringPcieError true ring) s = .next u ∧ u.flag Reg.LB_CFG_EN [ring] = false ∧
      u.flag Reg.LB_STAT_PCIE_ERR [ring] = true ∧ u.noticed bHIF 1))

/-- The PCIe link (R208, R229, R232): bus mastering turned off clears BME and sets HIF_NOTICE.PCIE; a fundamental reset also clears LINK
and stops every ring; the link up sets LINK, and bus mastering on a link sets BME and takes the MSI-X enable with it. -/
def Obligations.PcieLink : Prop :=
  (∀ s : State, s.powered = true → s.flag Reg.HIF_STAT_BME [] = true →
    ∃ u, exec .bmeOff s = .next u ∧ u.flag Reg.HIF_STAT_BME [] = false ∧ u.noticed bHIF 5 ∧
      u.flag Reg.HIF_STAT_LINK [] = s.flag Reg.HIF_STAT_LINK []) ∧
  (∀ s : State, s.powered = true →
    (∃ u, exec .perst s = .next u ∧ u.flag Reg.HIF_STAT_BME [] = false ∧ u.flag Reg.HIF_STAT_LINK [] = false ∧
      u.hif.msixEn = false ∧ u.noticed bHIF 5) ∧
    exec .pcieLinkUp s = .next (s.setFlag Reg.HIF_STAT_LINK [] true)) ∧
  (∀ (msix : Bool) (s : State), s.powered = true → s.flag Reg.HIF_STAT_LINK [] = true →
    ∃ u, exec (.busMasteringOn msix) s = .next u ∧ u.flag Reg.HIF_STAT_BME [] = true ∧ u.hif.msixEn = msix)

/-! ### Letterbox commands -/

/-- Letterbox commands whose item is in service, by ring, target, opcode and command (`lbReady`). A NOP of a known target completes with
STATUS 0 (R216, R537); one with a reserved flag bit is counted in BAD with a notice and completes with STATUS 2 (R217). RESEND of a held
record offers it again with FLAGS[7] and completes with STATUS 0, of a record that is not held with STATUS 2, and of a unit above 31 with
BAD and STATUS 2 (R387). COMPRESS and DECODE (R394): with the engine disabled STATUS 4; reserved bits of COMPRESS set, BAD and STATUS 2;
operands that the engine refuses, STATUS 2 with CODE 3; with 16 commands queued they wait; otherwise they join the engine's queue with their
buffer and BUSY is 1. At the engine's end its front job, a capture record before any command, leaves the queue and is completed by the
operation of its kind; with no job nothing changes. -/
def Obligations.NopCaptureAndCompressionCommands : Prop :=
  (∀ (m : Fin 16) (c : LbCmd) (b : HostBuf) (target : Nat) (i : Item) (cmd : List Byte) (s : State), target ≤ 0x16 →
    (s.lbReady m target 0 c i cmd → exec (.lbNop m c b target) s = .next (s.lbSettle i m cmd (completionBytes cmd 0 0 []))) ∧
    (s.nextRun (lbFlow m) (fun w => match w with | .letterbox _ _ none => true | _ => false) = some i →
      i.work = .letterbox m cmd none → i.serving = true → leAt cmd 0 1 = target → leAt cmd 1 1 = 0 → cmdOf cmd = c → 2 ≤ c.flags →
      exec (.lbNop m c b target) s = .next ((s.lbBad m).lbSettle i m cmd (completionBytes cmd 2 0 [])) ∧
      (s.lbBad m).rd Reg.LB_BAD [m] = (s.rd Reg.LB_BAD [m] + 1) % 2 ^ Reg.LB_BAD.width ∧ (s.lbBad m).noticed bHIF 2)) ∧
  ((∀ (m : Fin 16) (c : LbCmd) (b : HostBuf) (i : Item) (cmd : List Byte) (s : State), s.lbReady m 0xE 1 c i cmd →
    (∀ h : CapRec × Bool, lbW c 0 < 32 → ((s.capUnit (lbW c 0)).held.find? fun h => h.1.seq == lbW c 1) = some h →
      exec (.resend m c b) s = .next ((s.capOffer (lbW c 0) h.1 0x80).lbSettle i m cmd (completionBytes cmd 0 0 []))) ∧
    (lbW c 0 < 32 → ((s.capUnit (lbW c 0)).held.find? fun h => h.1.seq == lbW c 1) = none →
      exec (.resend m c b) s = .next (s.lbSettle i m cmd (completionBytes cmd 2 0 []))) ∧
    (32 ≤ lbW c 0 → exec (.resend m c b) s = .next ((s.lbBad m).lbSettle i m cmd (completionBytes cmd 2 0 [])))) ∧
  (∀ (m : Fin 16) (c : LbCmd) (b : HostBuf) (i : Item) (cmd : List Byte) (s : State),
    (s.lbReady m 0xF 2 c i cmd →
      (s.flag Reg.CMP_CTL_EN [] = false → exec (.decode m c b) s = .next (s.lbSettle i m cmd (completionBytes cmd 4 0 []))) ∧
      (s.flag Reg.CMP_CTL_EN [] = true → c.len = 0 →
        exec (.decode m c b) s = .next (s.lbSettle i m cmd (completionBytes cmd 2 0 (cmpResult 3 0 0)))) ∧
      (s.flag Reg.CMP_CTL_EN [] = true → c.len ≠ 0 → 16 ≤ s.cmpCmds → exec (.decode m c b) s = .next s) ∧
      (s.flag Reg.CMP_CTL_EN [] = true → c.len ≠ 0 → s.cmpCmds < 16 →
        ∃ u, exec (.decode m c b) s = .next u ∧ u.cmp.jobs = s.cmp.jobs ++ [.cmd m true cmd (b.data.take c.len) b.err] ∧
          u.flag Reg.CMP_STAT_BUSY [] = true)) ∧
    (s.lbReady m 0xF 1 c i cmd → (lbW c 3 / 2 ^ 18 % 64 ≠ 0 ∨ lbW c 3 / 2 ^ 25 ≠ 0) →
      exec (.compress m c b) s = .next ((s.lbBad m).lbSettle i m cmd (completionBytes cmd 2 0 []))) ∧
    (s.lbReady m 0xF 1 c i cmd → lbW c 3 / 2 ^ 18 % 64 = 0 → lbW c 3 / 2 ^ 25 = 0 →
      (s.flag Reg.CMP_CTL_EN [] = false → exec (.compress m c b) s = .next (s.lbSettle i m cmd (completionBytes cmd 4 0 []))) ∧
      (s.flag Reg.CMP_CTL_EN [] = true → cmpBad c = true →
        exec (.compress m c b) s = .next (s.lbSettle i m cmd (completionBytes cmd 2 0 (cmpResult 3 0 0)))) ∧
      (s.flag Reg.CMP_CTL_EN [] = true → cmpBad c = false → 16 ≤ s.cmpCmds → exec (.compress m c b) s = .next s) ∧
      (s.flag Reg.CMP_CTL_EN [] = true → cmpBad c = false → s.cmpCmds < 16 →
        ∃ u, exec (.compress m c b) s = .next u ∧ u.cmp.jobs = s.cmp.jobs ++ [.cmd m false cmd (b.data.take c.len) b.err] ∧
          u.flag Reg.CMP_STAT_BUSY [] = true))) ∧
  (∀ (err : Bool) (t : Time) (s : State),
    (∀ u seq, cmpFront s.cmp.jobs = some (.cap u seq) →
      exec (.compressDone err t) s =
        .next ((({ s.advance t with cmp := { s.cmp with jobs := s.cmp.jobs.erase (.cap u seq) } } : State).cmpShow).cmpCapDone u seq)) ∧
    (∀ m dec cmd data e, cmpFront s.cmp.jobs = some (.cmd m dec cmd data e) →
      exec (.compressDone err t) s =
        .next ((({ s.advance t with cmp := { s.cmp with jobs := s.cmp.jobs.erase (.cmd m dec cmd data e) } } : State).cmpShow).cmpCmdDone
          m dec cmd data e err)) ∧
    (s.cmp.jobs = [] → exec (.compressDone err t) s = .next (s.advance t)) ∧
    (∀ u seq, .cap u seq ∈ s.cmp.jobs → ∃ v q, cmpFront s.cmp.jobs = some (.cap v q))))

/-- Strongroom commands whose item is in service (R454, R456). In a mode that allows it IMPORT and DERIVE are answered by the operation of
their kind (`importKey`, `importPub`, `deriveKey`); a child that breaks a rule of R447 or R453 gets its KCODE and only its parent's expiry
is judged. While the journal still holds a cut command of the Strongroom all four wait (the model's choice, log entry 101). INVALIDATE makes
every slot of the family that was not so invalid and answers the slot and how many there were. DELETE empties the slot and keeps its GEN;
of a live slot with descendants it answers KCODE 9, of slot 0 KCODE 4 (the model's choice, log entry 98). In any other mode each of the four
completes with STATUS 3 and nothing else changes. -/
def Obligations.StrongroomCommands : Prop :=
  ∀ (m : Fin 16) (c : LbCmd) (b : HostBuf) (i : Item) (cmd : List Byte) (s : State),
    (s.keyModeA (lbSlot c) = true →
      (s.journalBusy 2 = true →
        (s.lbReady m 0x11 1 c i cmd → exec (.lbImport m c b) s = .next s) ∧ (s.lbReady m 0x11 2 c i cmd → exec (.derive m c b) s = .next s) ∧
        (s.lbReady m 0x11 3 c i cmd → exec (.invalidate m c b) s = .next s) ∧ (s.lbReady m 0x11 4 c i cmd → exec (.lbDelete m c b) s = .next s)) ∧
      (s.journalBusy 2 = false →
        (s.lbReady m 0x11 1 c i cmd →
          ((keyAttr c).ktype ≠ 6 → exec (.lbImport m c b) s = .next (s.lbAnswer i m cmd (s.importKey c b))) ∧
          ((keyAttr c).ktype = 6 → exec (.lbImport m c b) s = .next (s.lbAnswer i m cmd (s.importPub c b))) ∧
          (∀ a : State, (keyAttr c).ktype ≠ 6 → a = s.expireNow ((keyAttr c).parent.getD 0) →
            a.childCode (lbSlot c) (keyAttr c) 3 ≠ 0 → exec (.lbImport m c b) s =
              .next (s.lbAnswer i m cmd (a, kAns (a.childCode (lbSlot c) (keyAttr c) 3) (lbSlot c) 0 0)))) ∧
        (s.lbReady m 0x11 2 c i cmd →
          exec (.derive m c b) s = .next (s.lbAnswer i m cmd (s.deriveKey c b)) ∧
          (∀ a : State, a = s.expireNow ((keyAttr c).parent.getD 0) → a.childCode (lbSlot c) (keyAttr c) 2 ≠ 0 →
            exec (.derive m c b) s =
              .next (s.lbAnswer i m cmd (a, kAns (a.childCode (lbSlot c) (keyAttr c) 2) (lbSlot c) 0 0)))) ∧
        (s.lbReady m 0x11 3 c i cmd →
          exec (.invalidate m c b) s = .next (s.lbAnswer i m cmd ((s.invalidateFamily (lbSlot c)).1,
            kAns 0 (lbSlot c) ((s.family (lbSlot c)).filter fun n => (s.cat n).state != 2).length 0)) ∧
          ∀ n, n ∈ s.family (lbSlot c) → ((s.invalidateFamily (lbSlot c)).1.cat n).state = 2) ∧
        (s.lbReady m 0x11 4 c i cmd →
          (lbSlot c = 0 → exec (.lbDelete m c b) s = .next (s.lbSettle i m cmd (completionBytes cmd 2 0
            (leBytes 4 4 ++ leBytes 4 0 ++ leBytes 4 0)))) ∧
          (lbSlot c ≠ 0 → (s.cat (lbSlot c)).state = 1 → 1 < (s.family (lbSlot c)).length →
            exec (.lbDelete m c b) s = .next (s.lbSettle i m cmd (completionBytes cmd 2 0
              (leBytes 4 9 ++ leBytes 4 (lbSlot c) ++ leBytes 4 0)))) ∧
          (lbSlot c ≠ 0 → ((s.cat (lbSlot c)).state ≠ 1 ∨ (s.family (lbSlot c)).length ≤ 1) →
            ∃ u, exec (.lbDelete m c b) s = .next u ∧ u.cat (lbSlot c) = { cat0 with gen := (s.cat (lbSlot c)).gen } ∧
              u.keyRun (lbSlot c) = run0)))) ∧
    (s.keyModeA (lbSlot c) = false →
      (s.lbReady m 0x11 1 c i cmd → exec (.lbImport m c b) s = .next (s.lbSettle i m cmd (completionBytes cmd 3 0 []))) ∧
      (s.lbReady m 0x11 2 c i cmd → exec (.derive m c b) s = .next (s.lbSettle i m cmd (completionBytes cmd 3 0 []))) ∧
      (s.lbReady m 0x11 3 c i cmd → exec (.invalidate m c b) s = .next (s.lbSettle i m cmd (completionBytes cmd 3 0 []))) ∧
      (s.lbReady m 0x11 4 c i cmd → exec (.lbDelete m c b) s = .next (s.lbSettle i m cmd (completionBytes cmd 3 0 []))))

/-- SEAL, GET_CERT and GET_CHALLENGE in a mode that allows them, with a buffer long enough and no buffer error, leave in the host's buffer the
statement's body and its signature by slot 0, with KEY_SEALSEQ counting it; the certificate chain; and a new challenge of 32 bytes, issued
now, with the challenge count one higher. A buffer too short for the statement or the chain gives KCODE 11 (R456, R461, R462). Moves of the
life cycle in SERVICE (R440, R456): TAKE_OWNERSHIP in TEST, LOCK in OWNED and SCRAP in OWNED or LOCKED, with data of the right length and no
supply cut: a signature that does not verify over the challenge gives KCODE 7 and changes nothing else; one that does spends the challenge,
makes the move and burns its fuse, except that TAKE_OWNERSHIP burns none where slots 1 and 2 could not both be written, which gives KCODE 6.
In another mode the three moves complete with STATUS 3. -/
def Obligations.SealAndLifeCycleCommands : Prop :=
  (∀ (m : Fin 16) (c : LbCmd) (b : HostBuf) (i : Item) (cmd : List Byte) (s : State), s.keyModeB = true →
    (∀ (a : State) (d : List Byte), s.lbReady m 0x11 5 c i cmd → b.err = false → 416 ≤ c.len → s.useSlot 0 4 = (a, some d) →
      ∃ u body, exec (.seal m c b) s = .next u ∧
        body = (a.inc Reg.KEY_SEALSEQ_COUNT []).sealBody ((List.range 8).flatMap fun k => leBytes 4 (lbW c k)) ∧
        u.out = a.out ++ [.hostWrite c.addr (body ++ padTo 96 (ecdsaSign d body))] ∧
        u.rd Reg.KEY_SEALSEQ_COUNT [] = (a.rd Reg.KEY_SEALSEQ_COUNT [] + 1) % 2 ^ 32) ∧
    (s.lbReady m 0x11 6 c i cmd → b.err = false →
      exec (.getCert m c b) s = .next (s.lbAnswer i m cmd (if Config.certChain.length ≤ c.len then
        (s.emit (.hostWrite c.addr Config.certChain), kAns 0 0 (s.cat 0).gen Config.certChain.length) else (s, kAns 11 0 0 0)))) ∧
    (s.lbReady m 0x11 7 c i cmd → b.err = false → 32 ≤ c.len →
      ∃ u, exec (.getChallenge m c b) s = .next u ∧ u.out = s.out ++ [.hostWrite c.addr s.newChallenge.2] ∧
        s.newChallenge.2.length = 32 ∧ u.key.chal = some (s.newChallenge.2, s.now) ∧ u.key.chalCtr = (s.key.chalCtr + 1) % 2 ^ 64) ∧
    (s.lbReady m 0x11 5 c i cmd → c.len < 416 →
      exec (.seal m c b) s = .next (s.lbAnswer i m cmd (s, kAns 11 0 0 0)))) ∧
  (∀ (m : Fin 16) (c : LbCmd) (b : HostBuf) (i : Item) (cmd : List Byte) (s : State),
    (s.mode ≠ .service →
      (s.lbReady m 0x11 8 c i cmd → exec (.takeOwnership m c b) s = .next (s.lbSettle i m cmd (completionBytes cmd 3 0 []))) ∧
      (s.lbReady m 0x11 9 c i cmd → exec (.lbLock m c b) s = .next (s.lbSettle i m cmd (completionBytes cmd 3 0 []))) ∧
      (s.lbReady m 0x11 10 c i cmd → exec (.scrap m c b) s = .next (s.lbSettle i m cmd (completionBytes cmd 3 0 [])))) ∧
    (s.mode = .service →
      (s.lbReady m 0x11 8 c i cmd → s.rd Reg.KEY_LC_STATE [] = 1 → s.key.fuse = 1 → b.err = false → b.cut = none → (b.data.take c.len).length = 224 →
        exec (.takeOwnership m c b) s = .next (s.lbAnswer i m cmd
          (if s.authOk (some Config.testKey) 8 c.param ((b.data.take c.len).take 128) ((b.data.take c.len).drop 128) = true then
            (if (s.spendChallenge.takeOwner (b.data.take c.len) b).2 = true then
              ((s.spendChallenge.takeOwner (b.data.take c.len) b).1.burn 2, kAns 0 0 0 0)
            else ((s.spendChallenge.takeOwner (b.data.take c.len) b).1, kAns 6 0 0 0))
          else (s, kAns 7 0 0 0)))) ∧
      (s.lbReady m 0x11 9 c i cmd → s.rd Reg.KEY_LC_STATE [] = 2 → s.key.fuse = 2 → b.err = false → b.cut = none → (b.data.take c.len).length = 96 →
        exec (.lbLock m c b) s = .next (s.lbAnswer i m cmd
          (if s.authOk s.ownerKey 9 c.param [] (b.data.take c.len) = true then (s.spendChallenge.burn 3, kAns 0 0 0 0)
          else (s, kAns 7 0 0 0)))) ∧
      (s.lbReady m 0x11 10 c i cmd → (s.rd Reg.KEY_LC_STATE [] = 2 ∨ s.rd Reg.KEY_LC_STATE [] = 3) → s.key.fuse ≠ 4 → b.err = false → b.cut = none →
        (b.data.take c.len).length = 96 →
        exec (.scrap m c b) s = .next (s.lbAnswer i m cmd
          (if s.authOk s.ownerKey 10 c.param [] (b.data.take c.len) = true then (s.spendChallenge.scrapAll.burn 4, kAns 0 0 0 0)
          else (s, kAns 7 0 0 0))))))

/-- The settings store (R473 to R477): in SERVICE, with no supply cut and no cut command of the store in the journal, STORE of an image
that passes writes it, with the next sequence number and the Manifest's hash, to the bank not selected and selects that bank; SELECT_OTHER
takes the other bank if its image passes, ERASE selects none; READ writes the selected image to the host where it fits the buffer; outside
SERVICE the first three complete with STATUS 3. CLEAR of the Logbook (R486) in SERVICE discards every held record, zeroes COUNT and
WRAPPED, has the record of code 0x83 written next, and leaves LOG_HEAD, LOG_LOST, LOG_OPSEC, LOG_CYCLES, the staged events and the last-gasp
sector; elsewhere it completes with STATUS 3. READ (R485) writes to the host the records of the range it names, as many as the buffer
holds. -/
def Obligations.SettingsAndLogbookCommands : Prop :=
  (∀ (m : Fin 16) (c : LbCmd) (b : HostBuf) (i : Item) (cmd : List Byte) (s : State),
    (s.mode ≠ .service →
      (s.lbReady m 0x12 1 c i cmd → exec (.lbStore m c b) s = .next (s.lbSettle i m cmd (completionBytes cmd 3 0 []))) ∧
      (s.lbReady m 0x12 3 c i cmd → exec (.selectOther m c b) s = .next (s.lbSettle i m cmd (completionBytes cmd 3 0 []))) ∧
      (s.lbReady m 0x12 4 c i cmd → exec (.erase m c b) s = .next (s.lbSettle i m cmd (completionBytes cmd 3 0 [])))) ∧
    (s.mode = .service →
      (∀ bk q, s.lbReady m 0x12 1 c i cmd → s.journalBusy 1 = false → s.nvs.sel = some (bk, q) → bk < 2 → b.err = false → b.cut = none →
        imgOk (b.data.take c.len) = true → b.bad.contains (1 - bk) = false →
        ∃ u, exec (.lbStore m c b) s = .next u ∧ u.nvs.sel = some (1 - bk, (q + 1) % 2 ^ 32) ∧ u.bank bk = s.bank bk ∧
          u.bank (1 - bk) = imgMade (b.data.take c.len) ((q + 1) % 2 ^ 32) (s.regBytes 0x10020 12) ∧
          u.rd Reg.NVS_STORES_COUNT [] = (s.rd Reg.NVS_STORES_COUNT [] + 1) % 2 ^ Reg.NVS_STORES_COUNT.width ∧ u.noticed bNVS 0) ∧
      (∀ bk q, s.lbReady m 0x12 3 c i cmd → s.journalBusy 1 = false → b.cut = none → s.nvs.sel = some (bk, q) → imgCrcOk (s.bank (1 - bk)) = true →
        ∃ u, exec (.selectOther m c b) s = .next u ∧ u.nvs.sel = some (1 - bk, leAt (s.bank (1 - bk)) 0x10 4) ∧ u.nvs.bankA = s.nvs.bankA ∧
          u.nvs.bankB = s.nvs.bankB) ∧
      (s.lbReady m 0x12 4 c i cmd → s.journalBusy 1 = false → b.cut = none →
        ∃ u, exec (.erase m c b) s = .next u ∧ u.nvs.sel = none ∧ u.nvs.bankA = s.nvs.bankA ∧ u.nvs.bankB = s.nvs.bankB)) ∧
    (∀ bk q, s.lbReady m 0x12 2 c i cmd → s.nvs.sel = some (bk, q) → b.err = false →
      ((s.bank bk).take (min (s.bank bk).length (imgLen (s.bank bk)))).length ≤ c.len →
      ∃ u, exec (.nvsRead m c b) s = .next u ∧
        u.out = s.out ++ [.hostWrite c.addr ((s.bank bk).take (min (s.bank bk).length (imgLen (s.bank bk))))] ∧ u.nvs = s.nvs)) ∧
  (∀ (m : Fin 16) (c : LbCmd) (b : HostBuf) (i : Item) (cmd : List Byte) (s : State),
    (s.lbReady m 0x13 2 c i cmd → s.mode = .service →
      ∃ u, exec (.logClear m c b) s = .next u ∧ u.log.recs = [] ∧ u.log.clearEv = some (s.logEv bLOG 0x83 s.log.recs.length 0 0 0) ∧
        u.rd Reg.LOG_COUNT_COUNT [] = 0 ∧ u.flag Reg.LOG_STAT_WRAPPED [] = false ∧ u.log.stage = s.log.stage ∧ u.log.gasp = s.log.gasp ∧
        u.rd Reg.LOG_HEAD_SEQ [] = s.rd Reg.LOG_HEAD_SEQ [] ∧ u.rd Reg.LOG_LOST_COUNT [] = s.rd Reg.LOG_LOST_COUNT [] ∧
        u.rd Reg.LOG_OPSEC_SEC [] = s.rd Reg.LOG_OPSEC_SEC [] ∧ u.rd Reg.LOG_CYCLES_COUNT [] = s.rd Reg.LOG_CYCLES_COUNT []) ∧
    (s.lbReady m 0x13 2 c i cmd → s.mode ≠ .service →
      exec (.logClear m c b) s = .next (s.lbSettle i m cmd (completionBytes cmd 3 0 []))) ∧
    (s.lbReady m 0x13 1 c i cmd → b.err = false → (s.readRecs ((s.recRun (lbW c 0) (lbW c 1)).take (c.len / 64))).2 ≠ [] →
      ∃ u, exec (.logRead m c b) s = .next u ∧ u.log = s.log ∧
        u.out = s.out ++ [.hostWrite c.addr (s.readRecs ((s.recRun (lbW c 0) (lbW c 1)).take (c.len / 64))).2]))

/-- Flash commands (R531, R532) in SERVICE with no operation under way: READ writes the bytes to the host, ERASE and WRITE of an aligned
range that no slot in force forbids start, CHECK answers the refusal code of the image; while an operation runs they wait; outside SERVICE
they complete with STATUS 3. An operation that ends well erases its range or clears the bits that its data clears; one that fails ends
too, and what its range then holds is free. -/
def Obligations.FlashCommands : Prop :=
  (∀ (m : Fin 16) (c : LbCmd) (b : HostBuf) (i : Item) (cmd : List Byte) (s : State),
    (s.mode ≠ .service →
      (s.lbReady m 1 1 c i cmd → exec (.flashRead m c b) s = .next (s.lbSettle i m cmd (completionBytes cmd 3 0 []))) ∧
      (s.lbReady m 1 2 c i cmd → exec (.flashErase m c b) s = .next (s.lbSettle i m cmd (completionBytes cmd 3 0 []))) ∧
      (s.lbReady m 1 3 c i cmd → exec (.flashWrite m c b) s = .next (s.lbSettle i m cmd (completionBytes cmd 3 0 []))) ∧
      (s.lbReady m 1 4 c i cmd → exec (.imageCheck m c b) s = .next (s.lbSettle i m cmd (completionBytes cmd 3 0 [])))) ∧
    (s.mode = .service → s.nvs.fop.isSome = true →
      (s.lbReady m 1 1 c i cmd → exec (.flashRead m c b) s = .next s) ∧ (s.lbReady m 1 2 c i cmd → exec (.flashErase m c b) s = .next s) ∧
      (s.lbReady m 1 3 c i cmd → exec (.flashWrite m c b) s = .next s) ∧ (s.lbReady m 1 4 c i cmd → exec (.imageCheck m c b) s = .next s)) ∧
    (s.mode = .service → s.nvs.fop = none → b.err = false →
      (s.lbReady m 1 1 c i cmd → lbW c 0 + c.len ≤ flashSize →
        ∃ u, exec (.flashRead m c b) s = .next u ∧ u.out = s.out ++ [.hostWrite c.addr (s.flashBytes (lbW c 0) c.len)] ∧ u.nvs = s.nvs) ∧
      (s.lbReady m 1 2 c i cmd → lbW c 0 % 4096 = 0 → lbW c 1 % 4096 = 0 → lbW c 0 + lbW c 1 ≤ flashSize →
        s.protectedRange (lbW c 0) (lbW c 1) = false →
        exec (.flashErase m c b) s = .next (s.lbAnswer i m cmd (s.flashStart m cmd true (lbW c 0) (lbW c 1) []))) ∧
      (s.lbReady m 1 3 c i cmd → lbW c 0 % 256 = 0 → c.len % 256 = 0 → lbW c 0 + c.len ≤ flashSize →
        s.protectedRange (lbW c 0) c.len = false →
        exec (.flashWrite m c b) s =
          .next (s.lbAnswer i m cmd (s.flashStart m cmd false (lbW c 0) c.len (padTo c.len (b.data.take c.len))))) ∧
      (s.lbReady m 1 4 c i cmd →
        exec (.imageCheck m c b) s = .next (s.lbAnswer i m cmd (s, if s.imCodeAll (b.data.take c.len) = 0 then fAns 0 0 0
          else fAns 4 (s.imCodeAll (b.data.take c.len)) 0))))) ∧
  (∀ (t : Time) (f : FlashOp) (s : State), s.nvs.fop = some f → f.erase = true →
    ∃ u, exec (.flashOpDone true t) s = .next u ∧ u.nvs.fop = none ∧ u.nvs.flash = (s.flashPut f.addr (List.replicate f.len 0xFF#8)).nvs.flash) ∧
  (∀ (t : Time) (f : FlashOp) (s : State), s.nvs.fop = some f → f.erase = false →
    ∃ u, exec (.flashOpDone true t) s = .next u ∧ u.nvs.fop = none ∧
      u.nvs.flash = (s.flashPut f.addr (((s.flashBytes f.addr f.len).zip f.data).map fun x => x.1 &&& x.2)).nvs.flash) ∧
  (∀ (t : Time) (f : FlashOp) (s : State), s.nvs.fop = some f →
    ∃ u, exec (.flashOpDone false t) s = .next u ∧ u.nvs.fop = none ∧ u.free = s.free + f.len ∧
      u.nvs.flash = (s.flashPut f.addr ((List.range f.len).map fun n => Config.freeByte (s.free + n))).nvs.flash) ∧
  (∀ (ok : Bool) (t : Time) (s : State), s.nvs.fop = none → exec (.flashOpDone ok t) s = .next (s.advance t))

/-! ### Network, admission and ports -/

/-- Received frames (R94, R96, R102, R103, R109 to R118): on a port that is not enabled a frame changes nothing but device time; on one
that is, it counts in RX_FRAMES, and one that passes the port's stages, `rxFront`, goes to the operation of its kind, a data frame and an
SPDU with their arrival time, while one that does not goes no further; frames of no other kind are discarded and counted. Requests to the
port itself (R93): an ARP or neighbour request for an address of the port is answered; an echo request for one of its addresses is answered
up to 100 times in a second of device time (the model's choice, log entry 129) and up to 1,500 bytes; any other is dropped without effect. -/
def Obligations.FramesAndRequestsReceived : Prop :=
  (∀ (f : RxFrame) (s a : State),
    (s.flag Reg.NET_PORT_CFG_EN [f.port] = false → s.rxFront f.toRxHead = (s.advance f.raw, false)) ∧
    (s.flag Reg.NET_PORT_CFG_EN [f.port] = true → (s.rxFront f.toRxHead).1.rd Reg.NET_PORT_RX_FRAMES [f.port] =
      (s.rd Reg.NET_PORT_RX_FRAMES [f.port] + 1) % 2 ^ 32) ∧
    (s.rxFront f.toRxHead = (a, true) →
      exec (.c37DataFrame f) s = .next (a.c37Data f (a.arrival f.toRxHead)) ∧ exec (.c37CfgFrame f) s = .next (a.c37Cfg f) ∧
      (∀ p, exec (.spduReceived f p) s = .next (a.spduIn f p (a.arrival f.toRxHead))) ∧ exec (.otherFrame f) s = .next (a.disc f.port) ∧
      (∀ x p, exec (.fragment ⟨f, p⟩ x) s = .next (a.fragIn f x p)) ∧ exec (.tcpSegment f) s = .next (a.tcpIn f)) ∧
    (s.rxFront f.toRxHead = (a, false) →
      exec (.c37DataFrame f) s = .next a ∧ exec (.c37CfgFrame f) s = .next a ∧ (∀ p, exec (.spduReceived f p) s = .next a) ∧
      exec (.otherFrame f) s = .next a ∧ (∀ x p, exec (.fragment ⟨f, p⟩ x) s = .next a) ∧ exec (.tcpSegment f) s = .next a)) ∧
  (∀ (f : RxFrame) (addr : Nat) (s a : State), s.rxFront f.toRxHead = (a, true) →
    (a.ownAddr f.port addr f.v6 = true →
      exec (.arpRequest f addr) s = .next (a.tx f.port 3 (a.rd Reg.NET_EGR_PCP_DATA []) none (.arpReply addr f.src))) ∧
    (a.ownAddr f.port addr f.v6 = false → exec (.arpRequest f addr) s = .next a ∧ exec (.echoRequest f addr) s = .next a) ∧
    (a.ownAddr f.port addr f.v6 = true → f.payload.length ≤ 1500 →
      (if (a.port f.port).echoSec = secOf a.now then (a.port f.port).echoCnt else 0) < 100 →
      exec (.echoRequest f addr) s =
        .next ((a.setPort f.port { a.port f.port with echoSec := secOf a.now
                                                      echoCnt := (if (a.port f.port).echoSec = secOf a.now then (a.port f.port).echoCnt else 0) + 1 }).tx
          f.port 3 (a.rd Reg.NET_EGR_PCP_DATA []) none (.echoReply f.src f.payload))) ∧
    ((1500 < f.payload.length ∨ ((a.port f.port).echoSec = secOf a.now ∧ 100 ≤ (a.port f.port).echoCnt)) →
      exec (.echoRequest f addr) s = .next a))

/-- Connections and their timers (R106, R107, R110): fragments that are not whole after 5 ms are dropped and counted with a notice; a
connection that comes up asks for CFG-2, and for data where a descriptor is already held; one that fails waits longer each time and is
opened again when its wait is over; a sender whose stream lacks a descriptor is asked for one at the times of R110. -/
def Obligations.ConnectionTimers : Prop :=
  (∀ (x : FragId) (t : Time) (c : FragCtx) (s : State), (s.net.frags.find? fun c => c.isFor x) = some c → c.start + 5 * msU ≤ max s.now t →
    ∃ u, exec (.reasmTimeout x t) s = .next u ∧ u.net.frags = s.net.frags.filter (fun c => !c.isFor x) ∧ u.noticed bNET 7 ∧
      u.rd Reg.NET_REASM_FAIL_COUNT [] = (s.rd Reg.NET_REASM_FAIL_COUNT [] + c.parts.length) % 2 ^ Reg.NET_REASM_FAIL_COUNT.width) ∧
  (∀ (n : Nat) (t : Time) (c : Conn) (s a : State), s.conn n = some c →
    (a = (fun b : State => b.tx c.port 3 (b.rd Reg.NET_EGR_PCP_DATA []) none (TxBody.tcp n (b.cmdBytes (b.connIdent c) 5)))
        ((s.advance t).putConn { c with up := true, waiting := false, fails := 0, buf := [] }) →
      (a.connDesc c = false → exec (.tcpConnected n t) s = .next a) ∧
      (a.connDesc c = true → exec (.tcpConnected n t) s =
        .next (a.tx c.port 3 (a.rd Reg.NET_EGR_PCP_DATA []) none (.tcp n (a.cmdBytes (a.connIdent c) 2))))) ∧
    exec (.tcpConnFail n t) s =
      .next ((s.advance t).putConn { c with up := false, waiting := true, fails := c.fails + 1, buf := [], failAt := max s.now t }) ∧
    (c.waiting = true → c.retryAt ≤ max s.now t →
      exec (.tcpReconnect n t) s = .next (((s.advance t).putConn { c with waiting := false }).openConn c))) ∧
  (∀ (n : Nat) (t r : Time) (e : Sender) (s : State), s.senderByKey n = some e → e.letIn = true → s.lacksDesc e = true →
    e.requestAt = some r → r ≤ max s.now t →
    exec (.cfgRequestTimer n t) s =
      .next (((s.advance t).putSender { e with reqN := e.reqN + 1, reqLast := some (max s.now t) }).sendCmd e 5))

/-- Admission timers and decisions (R120, R121, R123): a pending sender not decided within HOST_TO is refused and a refused one is
forgotten after 60 s; ADM_DECIDE on an entry without a sender gives STATUS 2, an acceptance without a SID to give STATUS 3, any other
decision STATUS 1; COMMIT swaps the rule banks, forgets the senders that no rule let in and sets its notice; a quarantined SID is free
after 10 s. -/
def Obligations.AdmissionDecisions : Prop :=
  (∀ (n : Fin 64) (t : Time) (e : Sender) (s : State), (s.adm.senders.find? fun e => e.entry == some n.val && e.st == .pending) = some e →
    e.since + clampN 1 600 (s.rd Reg.ADM_CTL_HOST_TO []) * second ≤ max s.now t →
    exec (.pendingTimeout n t) s = .next ((s.advance t).refuse e)) ∧
  (∀ (n : Nat) (t : Time) (e : Sender) (s : State), s.senderByKey n = some e → e.st = .refused → e.since + 60 * second ≤ max s.now t →
    ∃ u, exec (.refusedExpiry n t) s = .next u ∧ u.adm.senders = s.adm.senders.filter (fun x => x.key != e.key)) ∧
  (∀ (w : Word) (s : State), s.takesWrite (Reg.ADM_DECIDE_ENTRY.off []) →
    ((s.adm.senders.find? fun e => e.entry == some (Reg.ADM_DECIDE_ENTRY.get w)) = none →
      exec (.admDecide w) s = .next (s.wr Reg.ADM_DECIDE_STATUS [] 2)) ∧
    (∀ e, (s.adm.senders.find? fun e => e.entry == some (Reg.ADM_DECIDE_ENTRY.get w)) = some e → Reg.ADM_DECIDE_DECISION.get w = 1 →
      exec (.admDecide w) s = .next ((s.refuse e).wr Reg.ADM_DECIDE_STATUS [] 1)) ∧
    (∀ e, (s.adm.senders.find? fun e => e.entry == some (Reg.ADM_DECIDE_ENTRY.get w)) = some e → Reg.ADM_DECIDE_DECISION.get w = 2 →
      ∃ u, exec (.admDecide w) s = .next u ∧ u.rd Reg.ADM_DECIDE_STATUS [] = 1 ∧
        u.flag Reg.ADM_PEND_QUAR [Reg.ADM_DECIDE_ENTRY.get w] = true) ∧
    (∀ e, (s.adm.senders.find? fun e => e.entry == some (Reg.ADM_DECIDE_ENTRY.get w)) = some e → Reg.ADM_DECIDE_DECISION.get w = 0 →
      exec (.admDecide w) s = .next (if (s.heldSids e).isEmpty = true ∧ s.oldestFree.isNone = true then s.wr Reg.ADM_DECIDE_STATUS [] 3
        else (s.accept e).wr Reg.ADM_DECIDE_STATUS [] 1))) ∧
  (∀ (w : Word) (s : State), s.takesWrite (Reg.ADM_CTL_COMMIT.off []) →
    (Reg.ADM_CTL_COMMIT.get w = 0 → ∃ u, exec (.admCommit w) s = .next u ∧ u.rd Reg.ADM_CTL_HOST_TO [] = Reg.ADM_CTL_HOST_TO.get w ∧
      u.rd Reg.ADM_CTL_DEFAULT [] = Reg.ADM_CTL_DEFAULT.get w ∧ u.adm = s.adm) ∧
    (Reg.ADM_CTL_COMMIT.get w = 1 → ∃ u, exec (.admCommit w) s = .next u ∧ u.noticed bADM 7)) ∧
  (∀ (sid : Fin 16384) (t : Time) (s : State), s.rd Reg.STAB_STATE [sid] = 1 → sget s.adm.freedAt sid 0 + 10 * second ≤ max s.now t →
    ∃ u, exec (.sidQuarantineEnd sid t) s = .next u ∧ u.rd Reg.STAB_STATE [sid] = 0)

/-- Streams (R111, R122, R123, R128): an instant that a live stream misses is counted, one whose letter came after it starts the count
anew, a pinned one at its idle limit goes to state 4, and in STANDBY one is only counted; a CHECK written to a descriptor while it may not
be written is refused and recorded; a held R-GOOSE state is filed again as a letter of the instant, without its first-copy flag. -/
def Obligations.StreamsAndDescriptors : Prop :=
  (∀ (sid : Fin 16384) (t : Time) (s : State), s.processing = true → (s.rd Reg.STAB_STATE [sid] = 3 ∨ s.rd Reg.STAB_STATE [sid] = 4) →
    (s.clearedLate sid t = none →
      ((min (s.rd Reg.STAB_IDLE_CNT [sid] + 1) 65535 < max 1 (s.rd Reg.STAB_IDLE_RI [sid]) ∨ s.holding = true) →
        ∃ u, exec (.streamInstant sid t) s = .next u ∧ u.rd Reg.STAB_IDLE_CNT [sid] = min (s.rd Reg.STAB_IDLE_CNT [sid] + 1) 65535 ∧
          u.rd Reg.STAB_STATE [sid] = s.rd Reg.STAB_STATE [sid]) ∧
      (max 1 (s.rd Reg.STAB_IDLE_RI [sid]) ≤ min (s.rd Reg.STAB_IDLE_CNT [sid] + 1) 65535 → s.holding = false →
        s.flag Reg.STAB_PINNED [sid] = true →
        ∃ u, exec (.streamInstant sid t) s = .next u ∧ u.rd Reg.STAB_STATE [sid] = 4)) ∧
    (∀ n, s.clearedLate sid t = some n → min (n + 1) 65535 < max 1 (s.rd Reg.STAB_IDLE_RI [sid]) →
      ∃ u, exec (.streamInstant sid t) s = .next u ∧ u.rd Reg.STAB_IDLE_CNT [sid] = 0)) ∧
  (∀ (sid : Fin 16384) (w : Word) (s : State), s.takesWrite (Reg.DESC_CHECK.off [sid]) → s.mode ≠ .loading → s.mode ≠ .service →
    s.rd Reg.STAB_STATE [sid] ≠ 0 → s.rd Reg.STAB_STATE [sid] ≠ 2 →
    exec (.descriptorCheckWrite sid w) s = .next (s.logRefused (Reg.DESC_CHECK.off [sid]) w.toNat)) ∧
  (∀ (sid : Fin 16384) (w : Word) (s : State), s.takesWrite (Reg.DESC_CHECK.off [sid]) → s.mode = .service →
    (s.rd Reg.STAB_STATE [sid] = 3 ∨ s.rd Reg.STAB_STATE [sid] = 4) →
    descOk ((s.put 0x800000 (Reg.DESC_CHECK.off [sid]) w).desc sid) = false →
    exec (.descriptorCheckWrite sid w) s =
      .next (forEach ((s.put 0x800000 (Reg.DESC_CHECK.off [sid]) w).rndsNaming sid) (fun r a => a.showMembers r)
        (((s.put 0x800000 (Reg.DESC_CHECK.off [sid]) w).wr Reg.STAB_STATE [sid] 2).showAdm))) ∧
  (∀ (sid : Fin 16384) (t : Time) (l : Letter) (s : State), s.processing = true → 3 ≤ s.rd Reg.STAB_STATE [sid] →
    sfind s.adm.hold sid = some l →
    exec (.rgooseHoldLetter sid t) s =
      .next ((s.advance t).letterFormed { l with sec := instantOf t (fps l.rate) / fps l.rate, k := instantOf t (fps l.rate) % fps l.rate
                                                 flags := if l.flags / 0x800 % 2 = 1 then l.flags - 0x800 else l.flags } 0))

/-- Links (R33, R42, R92, R131): a link that goes down on an enabled port clears LINK and marks the port lost, one that comes up sets LINK
and its speed, reports the groups joined and waits for a clean second, after which the port is restored; a frame with a wrong FCS is
counted and restarts that second; a hardware fault marks the port failed and shows it in GLB_DEG_CAUSE, and where every enabled port has
failed it is fatal, before any move to DEGRADED. Pause and egress (R99, R100): a pause frame or an enabled priority's pauses an enabled
port; once the pause has lasted PAUSE_MAX.US (at most 2,000 µs), PAUSE_CUT counts with a notice and the port sends again; the end of a
pause, the port's or a priority's, ends that one, and PAUSED shows whether one is left; a frame that outlived its release window leaves
the queue and is counted in TX_SHED. -/
def Obligations.PortsAndPause : Prop :=
  ((∀ (p : Fin 4) (t : Time) (s : State), s.flag Reg.NET_PORT_CFG_EN [p] = true →
    exec (.linkDown p t) s =
      .next (((((s.advance t).setFlag Reg.NET_PORT_STAT_LINK [p] false).setPort p { s.port p with lost := true, restoring := none }).notice
        bNET p p 0 0).refreshDeg)) ∧
  (∀ (p : Fin 4) (t : Time) (s : State), s.flag Reg.NET_PORT_CFG_EN [p] = true →
    exec (.linkUp p t) s =
      .next ((((((s.advance t).setFlag Reg.NET_PORT_STAT_LINK [p] true).wr Reg.NET_PORT_STAT_SPEED [p]
        (min 2 (s.rd Reg.NET_PORT_CFG_MODE [p]))).setPort p
          { s.port p with lost := (s.port p).lost || (s.rd Reg.GLB_DEG_CAUSE_PORT [] / 2 ^ p.val % 2 == 1), restoring := some (max s.now t) }).notice
        bNET p p 1 0).refreshDeg.sendReports p)) ∧
  (∀ (p : Fin 4) (t r : Time) (s : State), s.flag Reg.NET_PORT_STAT_LINK [p] = true → (s.port p).restoring = some r →
    r + second ≤ max s.now t → (s.port p).failed = false →
    exec (.portRestore p t) s = .next (((s.advance t).setPort p { s.port p with lost := false, restoring := none }).refreshDeg)) ∧
  (∀ (p : Fin 4) (t : Time) (s : State), ∃ u, exec (.fcsErrFrame p t) s = .next u ∧
    u.rd Reg.NET_PORT_FCS_ERR [p] = (s.rd Reg.NET_PORT_FCS_ERR [p] + 1) % 2 ^ 32 ∧
    (u.port p).restoring = (s.port p).restoring.map (fun _ => max s.now t) ∧ (u.port p).failed = (s.port p).failed) ∧
  (∀ (p : Fin 4) (t : Time) (s a : State),
    a = ((s.advance t).setPort p { s.port p with failed := true, restoring := none }).showDeg →
    ((∃ q, q < 4 ∧ a.flag Reg.NET_PORT_CFG_EN [q] = true) →
      (∀ q, q < 4 → a.flag Reg.NET_PORT_CFG_EN [q] = true → (a.port q).failed = true) → exec (.portFail p t) s = .next (a.fatal 7).degMove) ∧
    ((∀ q, q < 4 → a.flag Reg.NET_PORT_CFG_EN [q] = false) → exec (.portFail p t) s = .next a.degMove) ∧
    ((∃ q, q < 4 ∧ a.flag Reg.NET_PORT_CFG_EN [q] = true ∧ (a.port q).failed = false) → exec (.portFail p t) s = .next a.degMove))) ∧
  ((∀ (p : Fin 4) (t : Time) (s : State), s.rd Reg.NET_PAUSE_MAX_US [] ≠ 0 → (s.port p).cut = false → s.flag Reg.NET_PORT_CFG_EN [p] = true →
    (∃ u, exec (.pauseFrame p none t) s = .next u ∧ u.flag Reg.NET_PORT_STAT_PAUSED [p] = true ∧ (u.port p).paused = true ∧
      (u.port p).pausedAt = (if (s.port p).held then (s.port p).pausedAt else max s.now t)) ∧
    (∀ k : Fin 8, s.rd Reg.NET_EGR_PFC_MASK [] / 2 ^ k.val % 2 = 1 →
      ∃ u, exec (.pauseFrame p (some k) t) s = .next u ∧ u.flag Reg.NET_PORT_STAT_PAUSED [p] = true ∧ k.val ∈ (u.port p).prios) ∧
    (∀ k : Fin 8, s.rd Reg.NET_EGR_PFC_MASK [] / 2 ^ k.val % 2 = 0 → exec (.pauseFrame p (some k) t) s =
      .next ((s.advance t).inc Reg.NET_PORT_RX_FRAMES [p]))) ∧
  (∀ (p : Fin 4) (t : Time) (s : State), (s.port p).held = true →
    (s.port p).pausedAt + min 2000 (s.rd Reg.NET_PAUSE_MAX_US []) * usU ≤ max s.now t →
    exec (.pauseCut p t) s =
      .next ((((s.advance t).inc Reg.NET_PORT_PAUSE_CUT [p]).notice bNET 4 p 0 0).setPause p { s.port p with paused := false, prios := [] })) ∧
  (∀ (p : Fin 4) (t : Time) (s : State),
    exec (.pauseEnd ⟨p, none⟩ t) s = .next ((s.advance t).setPause p { s.port p with paused := false }) ∧
    (∀ k : Fin 8, exec (.pauseEnd ⟨p, some k⟩ t) s =
      .next ((s.advance t).setPause p { s.port p with prios := (s.port p).prios.filter (· != k.val) })) ∧
    (∀ (q : PortSt) (a : State), (a.setPause p q).flag Reg.NET_PORT_STAT_PAUSED [p] = q.held)) ∧
  (∀ (p : Fin 4) (t : Time) (s : State),
    ∃ u, exec (.egressShed p t) s = .next u ∧
      (u.port p).queue = (s.port p).queue.filter (fun f => !(f.shedAt.any fun x => decide (x.1 ≤ max s.now t))) ∧
      u.rd Reg.NET_PORT_TX_SHED [p] = (s.rd Reg.NET_PORT_TX_SHED [p] +
        ((s.port p).queue.filter (fun f => f.shedAt.any fun x => decide (x.1 ≤ max s.now t))).length) % 2 ^ Reg.NET_PORT_TX_SHED.width))

/-- Subscribers' commands (R101, R174): a well-formed command frame for a Round is answered with its configuration or its header, opens or
shuts the Round's data gate, or counts as ignored. -/
def Obligations.SubscriberCommands : Prop :=
  ∀ (f : RxFrame) (s a : State) (r : Nat), s.rxFront f.toRxHead = (a, true) → a.processing = true → f.conn = none →
    f.dport = a.rd Reg.NET_UDP_C37 [] → a.addrOk f.port f.dst f.v6 = true → c37Bad f.payload = none → a.cmdRound f = some r →
    exec (.cmdSendCfg f) s = .next (a.answerTo f (a.cfgFrame r)) ∧
    exec (.cmdSendHeader f) s = .next (a.answerTo f (a.hdrFrame r)) ∧
    (∃ u, exec (.cmdDataOn f) s = .next u ∧ (u.rndSt r).gate = true ∧ (u.rndSt r).gateSrc = some (f.v6, f.src, f.sport, f.port.val)) ∧
    (∃ u, exec (.cmdDataOff f) s = .next u ∧ (u.rndSt r).gate = false) ∧
    exec (.cmdOther f) s = .next (a.inc Reg.WHL_RND_CMD_IGN [r])

/-! ### Time -/

/-- PTP messages of a configured domain that pass the port's stages (R58 to R61, R65): a Sync of the chosen master gives an offset sample,
one of another sender changes nothing further; an Announce enters the list of masters heard, of which the best is chosen; where none is
left the domain has no master, and where the best stays the same and the domain is qualifying or locked only its dataset is shown. A
chosen master not heard for its timeout is dropped: a locked domain goes to state 4, one in no other state than 4 to state 1. Messages of
no domain are discarded and counted, and those that do not pass the port go no further. Path delay (R76): a request of a configured domain
is answered with its reception and transmission times; a response gives the mean link delay, shown in ns (rounded, at least 0) where its
port is the chosen master's or no master is chosen (the model's choice, log entry 79); a domain sends its requests no more often than once
a second. -/
def Obligations.PtpAndPathDelay : Prop :=
  ((∀ (m : SyncMsg) (s a : State),
    (s.rxFront m.toRxHead = (a, false) → exec (.ptpSync m) s = .next a) ∧
    (s.rxFront m.toRxHead = (a, true) → a.domFor m.domNum m.port = none → exec (.ptpSync m) s = .next (a.disc m.port)) ∧
    (∀ d c, s.rxFront m.toRxHead = (a, true) → a.domFor m.domNum m.port = some d → (a.dom d).chosen = some c →
      (c.senderId = m.senderId → c.port = m.port → exec (.ptpSync m) s = .next (a.sample d m)) ∧
      (c.senderId ≠ m.senderId → exec (.ptpSync m) s = .next a))) ∧
  (∀ (m : Announce) (s a : State),
    (s.rxFront m.toRxHead = (a, false) → exec (.ptpAnnounce m.toRxHead m.toAnnData) s = .next a) ∧
    (s.rxFront m.toRxHead = (a, true) → a.domFor m.domNum m.port = none → exec (.ptpAnnounce m.toRxHead m.toAnnData) s = .next (a.disc m.port)) ∧
    (∀ d x, s.rxFront m.toRxHead = (a, true) → a.domFor m.domNum m.port = some d →
      exec (.ptpAnnounce m.toRxHead m.toAnnData) s = .next (a.announced d m) ∧
      (x = a.setDom d { a.dom d with masters := heardMasters (a.dom d).masters m } →
      (bestMaster (heardMasters (a.dom d).masters m) = none → exec (.ptpAnnounce m.toRxHead m.toAnnData) s = .next (x.noMaster d).tbSelect) ∧
      (∀ b o y, bestMaster (heardMasters (a.dom d).masters m) = some b → (a.dom d).chosen = some o → annSame o b.ann = true →
        y = (x.setDom d { x.dom d with chosen := some b.ann }).showMaster d b.ann → (y.domState d = 2 ∨ y.domState d = 3) →
        d ≠ y.rd Reg.TB_STAT_SEL [] → y.utcDiffer = false → exec (.ptpAnnounce m.toRxHead m.toAnnData) s = .next y.tbSelect)))) ∧
  (∀ (d : Fin 2) (t : Time) (s : State), (s.dom d).chosen = none → exec (.announceTimeout d t) s = .next (s.advance t)) ∧
  (∀ (d : Fin 2) (t : Time) (a : Announce) (s : State), (s.dom d).chosen = some a →
    ((s.dom d).masters.any fun m => annSame m.ann a && m.live (max s.now t)) = true → exec (.announceTimeout d t) s = .next (s.advance t)) ∧
  (∀ (d : Fin 2) (t : Time) (a : Announce) (s b c : State), (s.dom d).chosen = some a →
    ((s.dom d).masters.any fun m => annSame m.ann a && m.live (max s.now t)) = false →
    b = (s.advance t).setDom d { s.dom d with masters := (s.dom d).masters.filter fun m => !annSame m.ann a, chosen := none } →
    c = (if s.domLocked d then b.domTo d 4 else if s.domState d = 4 then b else b.domTo d 1) →
    exec (.announceTimeout d t) s = .next (if d.val = s.rd Reg.TB_STAT_SEL [] then c.refreshUtc else c).tbSelect)) ∧
  ((∀ (m : PdelayMsg) (d : Nat) (s a : State), s.rxFront m.toRxHead = (a, true) → a.domFor m.domNum m.port = some d →
    exec (.pdelayReq m) s =
      .next ((fun b : State => b.tx m.port 0 (a.rd Reg.NET_EGR_PCP_PTP []) none (TxBody.pdelayFollowUp m.domNum (b.txTime m.port b.now)))
        (a.tx m.port 0 (a.rd Reg.NET_EGR_PCP_PTP []) none (TxBody.pdelayResp m.domNum (a.arrival m.toRxHead)))) ∧
    (d < 2 → ((a.dom d).chosen = none ∨ ∃ x, (a.dom d).chosen = some x ∧ x.port = m.port) →
      ∃ u, exec (.pdelayResp m) s = .next u ∧ (u.dom d).pdelay = sset (a.dom d).pdelay m.port (a.meanLink m) ∧
        u.rd Reg.TB_DOM_PDELAY_NS [d] =
          min (roundDiv (max (a.meanLink m) 0).toNat 256) (2 ^ 32 - 1) % 2 ^ Reg.TB_DOM_PDELAY_NS.width) ∧
    (∀ x, (a.dom d).chosen = some x → x.port ≠ m.port → exec (.pdelayResp m) s =
      .next (a.setDom d { a.dom d with pdelay := sset (a.dom d).pdelay m.port (a.meanLink m) }))) ∧
  (∀ (m : PdelayMsg) (s a : State),
    (s.rxFront m.toRxHead = (a, true) → a.domFor m.domNum m.port = none →
      exec (.pdelayReq m) s = .next (a.disc m.port) ∧ exec (.pdelayResp m) s = .next (a.disc m.port)) ∧
    (s.rxFront m.toRxHead = (a, false) → exec (.pdelayReq m) s = .next a ∧ exec (.pdelayResp m) s = .next a)) ∧
  (∀ (d : Fin 2) (t : Time) (s : State), s.domConf d = true → (s.dom d).reqAt = none →
    exec (.pdelayReqSend d t) s =
      .next (forEach ((s.advance t).domPorts d) (fun p a =>
        a.tx p 0 (a.rd Reg.NET_EGR_PCP_PTP []) none (.pdelayReq (a.rd Reg.TB_DOM_CFG_DOMNUM [d]) (a.txTime p a.now)))
        ((s.advance t).setDom d { s.dom d with reqAt := some (max s.now t) }))) ∧
  (∀ (d : Fin 2) (t r : Time) (s : State), (s.dom d).reqAt = some r → max s.now t < r + second →
    exec (.pdelayReqSend d t) s = .next (s.advance t)))

/-- Choice of the domain (R65 to R68, R71): time that agreed for 10 s ends the disagreement; a locked preferred domain is taken back after
REVERT_S; a write of TB_SEL with SWITCH = 1 selects the other domain while it is locked and is otherwise refused and recorded; a new
offset refreshes the shown uncertainty. -/
def Obligations.DomainSelection : Prop :=
  (∀ (t r : Time) (s : State), s.tb.disagree = true → s.tb.agreeSince = some r → r + 10 * second ≤ max s.now t →
    (s.advance t).farApart = false →
    exec (.timeAgree t) s =
      .next ((({ s.advance t with tb := { s.tb with disagree := false, agreeSince := none } } : State).notice bTB 4 0 0 0).stdAlarm 0 false)) ∧
  (∀ (t : Time) (p : Nat) (s : State), p = s.rd Reg.TB_SEL_PREF [] → s.flag Reg.TB_SEL_REVERT [] = true →
    s.rd Reg.TB_STAT_SEL [] ≠ p → s.domLocked p = true → s.rd Reg.TB_STAT_STATE [] = 2 →
    (s.dom p).lockAt + clampN 1 3600 (s.rd Reg.TB_SEL_REVERT_S []) * second ≤ max s.now t →
    exec (.domainRevert t) s = .next (((s.advance t).select p).tbSelect)) ∧
  (∀ (w : Word) (s a : State), s.takesWrite (Reg.TB_SEL_SWITCH.off []) →
    a = ((s.wr Reg.TB_SEL_REVERT_S [] (Reg.TB_SEL_REVERT_S.get w)).wr Reg.TB_SEL_REVERT [] (Reg.TB_SEL_REVERT.get w)).wr Reg.TB_SEL_PREF []
      (Reg.TB_SEL_PREF.get w) →
    (Reg.TB_SEL_SWITCH.get w = 0 → exec (.tbSelSwitch w) s = .next a) ∧
    (Reg.TB_SEL_SWITCH.get w = 1 → a.domLocked (1 - a.rd Reg.TB_STAT_SEL []) = true →
      exec (.tbSelSwitch w) s = .next ((a.select (1 - a.rd Reg.TB_STAT_SEL [])).tbSelect)) ∧
    (Reg.TB_SEL_SWITCH.get w = 1 → a.domLocked (1 - a.rd Reg.TB_STAT_SEL []) = false →
      exec (.tbSelSwitch w) s = .next (a.logRefused (Reg.TB_SEL_SWITCH.off []) w.toNat))) ∧
  (∀ (t : Time) (s : State), exec (.syncError t) s = .next (s.advance t).tbRefresh)

/-- Setting the time (R56, R57): GO while a commit is pending has no effect; in another mode than LOADING, WATCH and HELD, with a locked
domain or with nanoseconds of a second or more, the commit is refused with STATUS 3 and a record; otherwise it waits with STATUS 1 and the
staged time, with RES = 1 the whole seconds for the next second boundary; at its instant, if a step is still allowed, device time becomes
that time with STATUS 2, and otherwise the commit is refused with STATUS 3 (the model's choice, log entry 76). -/
def Obligations.TimeCommit : Prop :=
  (∀ (w : Word) (s : State), s.takesWrite (Reg.TB_SET_COMMIT_GO.off []) →
    ((Reg.TB_SET_COMMIT_GO.get w = 0 ∨ s.rd Reg.TB_SET_COMMIT_STATUS [] = 1) → exec (.timeCommit w) s = .next s) ∧
    (Reg.TB_SET_COMMIT_GO.get w = 1 → s.rd Reg.TB_SET_COMMIT_STATUS [] ≠ 1 →
      ((s.stepAllowed = false ∨ s.domLocked 0 = true ∨ s.domLocked 1 = true ∨ 1000000000 ≤ s.rd Reg.TB_SET_NS_NS []) →
        exec (.timeCommit w) s = .next ((s.logRefused (Reg.TB_SET_COMMIT_GO.off []) w.toNat).setDone 3)) ∧
      (s.stepAllowed = true → s.domLocked 0 = false → s.domLocked 1 = false → s.rd Reg.TB_SET_NS_NS [] < 1000000000 →
        Reg.TB_SET_COMMIT_RES.get w = 0 →
        ∃ u, exec (.timeCommit w) s = .next u ∧ u.rd Reg.TB_SET_COMMIT_STATUS [] = 1 ∧
          u.tb.commit = some ((s.rd Reg.TB_SET_SEC_LO_SEC [] + 2 ^ 32 * s.rd Reg.TB_SET_SEC_HI_SEC []) * second +
            s.rd Reg.TB_SET_NS_NS [] * nsU, none)) ∧
      (s.stepAllowed = true → s.domLocked 0 = false → s.domLocked 1 = false → s.rd Reg.TB_SET_NS_NS [] < 1000000000 →
        Reg.TB_SET_COMMIT_RES.get w = 1 →
        ∃ u, exec (.timeCommit w) s = .next u ∧ u.rd Reg.TB_SET_COMMIT_STATUS [] = 1 ∧
          u.tb.commit = some ((s.rd Reg.TB_SET_SEC_LO_SEC [] + 2 ^ 32 * s.rd Reg.TB_SET_SEC_HI_SEC []) * second,
            some ((secOf s.now + 1) * second))))) ∧
  (∀ (t v : Time) (due : Option Time) (s : State), s.tb.commit = some (v, due) →
    ((∀ b, due = some b → b ≤ max s.now t) → s.stepAllowed = true → s.domLocked 0 = false → s.domLocked 1 = false →
      ∃ u, exec (.timeCommitApply t) s = .next u ∧ u.rd Reg.TB_SET_COMMIT_STATUS [] = 2 ∧ u.tb.commit = none ∧
        u.now = v + (match due with | some b => max s.now t - b | none => 0)) ∧
    ((∀ b, due = some b → b ≤ max s.now t) → (s.stepAllowed = false ∨ s.domLocked 0 = true ∨ s.domLocked 1 = true) →
      ∃ u, exec (.timeCommitApply t) s = .next u ∧ u.rd Reg.TB_SET_COMMIT_STATUS [] = 3 ∧ u.tb.commit = none ∧ u.now = max s.now t) ∧
    (∀ b, due = some b → max s.now t < b → exec (.timeCommitApply t) s = .next (s.advance t))) ∧
  (∀ (t : Time) (s : State), s.tb.commit = none → exec (.timeCommitApply t) s = .next (s.advance t))

/-- The time register groups. Reads of TB_NOW: SEC_LO freezes a new shadow of the live counter and returns its word; another word returns
the shadow's, freezing one first if none is held; FRAC then releases it; the counter keeps its value throughout (R54). BKD_SEC_LO,
BKD_SEC_HI and BKD_SUB form such a group too, where a read of BKD_SUB releases (R493). -/
def Obligations.TimeGroupReads : Prop :=
  (∀ (s : State) (v : Time), s.responds 0x20010 = true → v = s.tb.shadow.getD s.now →
    exec .tbNowFreeze s =
      .next (({ s with tb := { s.tb with shadow := some s.now } } : State).emit (.readData (BitVec.ofNat 32 (secOf s.now)))) ∧
    exec (.tbNowWordRead false) s =
      .next (({ s with tb := { s.tb with shadow := some v } } : State).emit (.readData (BitVec.ofNat 32 (secOf v / 2 ^ 32 % 2 ^ 16)))) ∧
    exec (.tbNowWordRead true) s =
      .next (({ s with tb := { s.tb with shadow := some v } } : State).emit (.readData (BitVec.ofNat 32 (nsOf v)))) ∧
    exec .tbNowRelease s =
      .next (({ s with tb := { s.tb with shadow := none } } : State).emit (.readData (BitVec.ofNat 32 (fracOf v))))) ∧
  (∀ (s : State) (v : Nat × Nat), s.responds 0x30010 = true → v = s.bkd.shadow.getD (s.bkdSec, s.bkdSub) →
    exec .bkdSecFreeze s =
      .next (({ s with bkd := { s.bkd with shadow := some (s.bkdSec, s.bkdSub) } } : State).emit (.readData (BitVec.ofNat 32 s.bkdSec))) ∧
    exec .bkdSecWordRead s =
      .next (({ s with bkd := { s.bkd with shadow := some v } } : State).emit (.readData (BitVec.ofNat 32 (v.1 / 2 ^ 32 % 2 ^ 16)))) ∧
    exec .bkdSecRelease s =
      .next (({ s with bkd := { s.bkd with shadow := none } } : State).emit (.readData (BitVec.ofNat 32 v.2))))

/-- PPS_IN (R74): each rising edge is stamped, OFS is the edge minus the nearest device second in ns, and PRESENT is 1; after 2 s without
an edge PRESENT goes to 0 and TB_NOTICE.PPS_IN_LOST is set. Neither steers device time: only the event's own time moves it. -/
def Obligations.PpsInMonitor : Prop :=
  (∀ (t : Time) (s : State), ∃ u, exec (.ppsInEdge t) s = .next u ∧ u.flag Reg.TB_PPS_IN_PRESENT [] = true ∧ u.tb.ppsInAt = max s.now t ∧
    u.rd Reg.TB_PPS_IN_OFS [] =
      satSigned 31 (roundDivI ((t : Int) - ((2 * t + second) / (2 * second) * second : Nat)) nsU) % 2 ^ Reg.TB_PPS_IN_OFS.width ∧
    u.now = max s.now t ∧ u.tb = { s.tb with ppsInAt := max s.now t }) ∧
  (∀ (t : Time) (s : State), s.flag Reg.TB_PPS_IN_PRESENT [] = true → s.tb.ppsInAt + 2 * second ≤ max s.now t →
    ∃ u, exec (.ppsInLost t) s = .next u ∧ u.flag Reg.TB_PPS_IN_PRESENT [] = false ∧ u.noticed bTB 10 ∧
      u.rd Reg.TB_PPS_IN_OFS [] = s.rd Reg.TB_PPS_IN_OFS [] ∧ u.now = max s.now t ∧ u.tb = s.tb) ∧
  (∀ (t : Time) (s : State), max s.now t < s.tb.ppsInAt + 2 * second → exec (.ppsInLost t) s = .next (s.advance t))

/-- PPS_OUT (R73): the pulse starts at the second that OUT_COMP shifts, while the time is good or FREE = 1, and ends once WIDTH is over.
Leap seconds and the backup clock (R79 to R82): a pending leap sets LSP, its direction and its notice 60 s ahead; at the leap, the one
LEAP_PENDING told of while LSP still stands, the offset moves by one second, LSO is set and the notice left; LSO ends a day later; a host's
leap word is cleared. At a second boundary with a locked domain, at most once in 1,000 s of device time (the model's choice, log entry
127), BKD_ERR shows the backup clock's error in its ticks and the clock is set to device time's second. -/
def Obligations.PpsOutAndLeapSeconds : Prop :=
  ((∀ (t : Time) (s : State), s.ppsDriven = true → s.ppsEdgeAt t = true →
    exec (.ppsOutEdge t) s = .next { s.advance t with tb := { s.tb with ppsOut := true, ppsAt := max s.now t } }) ∧
  (∀ (t : Time) (s : State), s.ppsEdgeAt t = false → exec (.ppsOutEdge t) s = .next (s.advance t)) ∧
  (∀ (t : Time) (s : State), s.tb.ppsAt + clampN 1 999 (s.rd Reg.TB_PPS_WIDTH []) * msU ≤ max s.now t →
    exec (.ppsOutEnd t) s = .next { s.advance t with tb := { s.tb with ppsOut := false } }) ∧
  (∀ (t : Time) (s : State), max s.now t < s.tb.ppsAt + clampN 1 999 (s.rd Reg.TB_PPS_WIDTH []) * msU →
    exec (.ppsOutEnd t) s = .next (s.advance t))) ∧
  ((∀ (t : Time) (neg : Bool) (s : State), (s.advance t).leapFlag.1 = some neg → s.flag Reg.TB_UTC_LSP [] = false →
    ∃ u, exec (.leapPending t) s = .next u ∧ u.flag Reg.TB_UTC_LSP [] = true ∧ u.flag Reg.TB_UTC_LSD [] = neg ∧
      u.tb.leapT = some (t + 60 * second, neg) ∧ u.noticed bTB 8) ∧
  (∀ (t : Time) (neg : Bool) (s : State),
    ((s.tb.leapT = none ∧ (s.advance t).leapFlag.1 = some neg) ∨
      (∃ u, s.tb.leapT = some (u, neg) ∧ s.flag Reg.TB_UTC_LSP [] = true ∧ u ≤ max s.now t)) → s.flag Reg.TB_UTC_LSO [] = false →
    exec (.leap t) s =
      .next ((({ (((s.advance t).wr Reg.TB_UTC_OFFSET [] (ofSigned 16 (if neg then s.utcOfs - 1 else s.utcOfs + 1))).setFlag
            Reg.TB_UTC_LSO [] true).setFlag Reg.TB_UTC_LSD [] neg with
          tb := { s.tb with leapT := some (t, neg), ofsBefore := s.utcOfs, ptpOfs := (if neg then s.utcOfs - 1 else s.utcOfs + 1), leapEnd := some (if neg then t else t + second) } } : State).notice
        bTB 9 (if neg then 1 else 0) 0 0).tbRefresh)) ∧
  (∀ (t : Time) (s : State), (s.tb.leapT = none ∨ ∃ r neg, s.tb.leapT = some (r, neg) ∧ r + 86400 * second ≤ max s.now t) →
    ∃ u, exec (.leapOccurredEnd t) s = .next u ∧ u.flag Reg.TB_UTC_LSO [] = false ∧ u.tb.leapT = none) ∧
  (∀ (t r : Time) (neg : Bool) (s : State), s.tb.leapT = some (r, neg) → max s.now t < r + 86400 * second →
    exec (.leapOccurredEnd t) s = .next (s.advance t)) ∧
  (∀ (t : Time) (s : State), ∃ u, exec (.hostLeapClear t) s = .next u ∧ u.rd Reg.TB_UTC_HOST_LEAP [] = 0) ∧
  (∀ (t : Time) (s : State), s.powered = true → (s.domLocked 0 = true ∨ s.domLocked 1 = true) → t % second = 0 →
    (∀ r, s.tb.bkdAt = some r → r + 1000 * second ≤ max s.now t) →
    ∃ u a, a = ({ s.advance t with tb := { s.tb with bkdAt := some (max s.now t) } } : State) ∧ exec (.backupClockWrite t) s = .next u ∧
      u = (a.wr Reg.BKD_ERR_ERR [] (satSigned 32 (((a.bkdSec * 32768 + a.bkdSub : Nat) : Int) - (a.now * 32768 / second : Nat)))).adjustBkd
        (secOf a.now % 2 ^ 48)) ∧
  (∀ (t r : Time) (s : State), s.tb.bkdAt = some r → max s.now t < r + 1000 * second →
    exec (.backupClockWrite t) s = .next (s.advance t)))

/-! ### The wheel, analysis and alarms -/

/-- Filing and mailbags (R144, R148, R152, R155, R156): a filing item in service files its letter once and lets a waiting mailbag follow;
an instant of an enabled Round, past every instant it has dispatched or opened, opens its mailbag; a deadline that passes closes what is
still open at it; a closed mailbag whose letters are in, once every port has passed its close and its items have room, is composed and
dispatched by the unit that leads, and until then DISPATCH changes nothing but device time; GO of a commit is refused with STATUS 3 where
the frame would be too long, and announces the table otherwise. -/
def Obligations.WheelAndMailbags : Prop :=
  (∀ (sid : Nat) (t : Time) (i : Item) (l : Letter) (fwd : Bool) (s : State),
    s.servingItem sid (fun w => match w with | .file _ _ => true | _ => false) i → i.work = .file l fwd →
    exec (.fileLetter sid t) s = .next (let a := (((s.advance t).markRan i.key).fileLetter l).pairFiled l fwd
      (forEach (s.rndsOf l.sid) (fun r a => a.tryFollow r false) a).drainOverflow)) ∧
  (∀ (r : Fin 64) (t : Time) (s : State), s.processing = true → s.whl.started = true → r.val ≠ 0 → s.rndOn r = true →
    ((match (s.rndSt r).last with | some k => decide (instantOf t (s.rndFps r) ≤ k) | none => false) ||
      (s.rndSt r).bags.any fun b => decide (instantOf t (s.rndFps r) ≤ b.n)) = false →
    exec (.roundInstant r t) s = .next ((s.advance t).openBag r (instantOf t (s.rndFps r))).sleepAll) ∧
  (∀ (r : Fin 64) (t : Time) (s : State),
    ∃ u, exec (.deadlineClose r t) s = .next u ∧ (u.rndSt r).bags = (s.rndSt r).bags.map (fun b =>
      if b.close.isNone && decide (b.deadline ≤ max s.now t) then { b with close := some (b.deadline, false) } else b)) ∧
  (∀ (r : Fin 64) (t : Time) (b : Mailbag) (c : Time × Bool) (s : State), (s.rndSt r).bags.head? = some b → b.close = some c →
    s.processing = true → s.follows = false → (s.advance t).portsPassed c.1 = true → (s.advance t).inFlightFor r b c = false →
    s.dspRoom r c.1 = true → exec (.dispatch r t) s = .next ((s.advance t).dispatchOwn r b c)) ∧
  (∀ (r : Fin 64) (t : Time) (b : Mailbag) (c : Time × Bool) (s : State), (s.rndSt r).bags.head? = some b → b.close = some c →
    (s.processing = false ∨ s.follows = true ∨ (s.advance t).portsPassed c.1 = false ∨ (s.advance t).inFlightFor r b c = true ∨
      s.dspRoom r c.1 = false) → exec (.dispatch r t) s = .next (s.advance t)) ∧
  (∀ (r : Fin 64) (w : Word) (s : State), s.takesWrite (Reg.WHL_RND_COMMIT_GO.off [r]) →
    ((Reg.WHL_RND_COMMIT_GO.get w = 0 ∨ s.rd Reg.WHL_RND_COMMIT_STATUS [r] = 1) → exec (.roundCommit r w) s = .next s) ∧
    (Reg.WHL_RND_COMMIT_GO.get w = 1 → s.rd Reg.WHL_RND_COMMIT_STATUS [r] ≠ 1 →
      (65535 < s.frameSize r (s.membersIn Reg.WHL_MEMB_SHADOW r).length →
        exec (.roundCommit r w) s = .next ((s.wr Reg.WHL_RND_COMMIT_STATUS [r] 3).whlNotice r 2 0 0)) ∧
      (s.frameSize r (s.membersIn Reg.WHL_MEMB_SHADOW r).length ≤ 65535 → exec (.roundCommit r w) s = .next (s.announce r))))

/-- The analysis items (R237, R270, R277, R279, R287): an item of its kind in service runs its content once on the letters it carries and
is then marked as run; one of a group that is not enabled is marked as run without any content. -/
def Obligations.AnalysisItems : Prop :=
  (∀ (g : Fin 256) (t tk : Time) (i : Item) (g' r n : Nat) (ls adds : List Letter) (s : State),
    s.servingItem (0x4800 + g.val) (fun w => match w with | .group _ _ _ _ _ _ => true | _ => false) i →
    i.work = .group g' r n ls adds tk → s.grpsOn.contains g.val = true →
    exec (.groupUpdate g t) s = .next (((s.advance t).grpItem g r n ls adds).markRan i.key)) ∧
  (∀ (g : Fin 256) (t : Time) (i : Item) (s : State),
    s.servingItem (0x4800 + g.val) (fun w => match w with | .group _ _ _ _ _ _ => true | _ => false) i → s.grpsOn.contains g.val = false →
    exec (.groupUpdate g t) s = .next ((s.advance t).markRan i.key)) ∧
  (∀ (t tk : Time) (i : Item) (r n : Nat) (ls : List Letter) (s : State),
    s.servingItem 0x5C10 (fun w => match w with | .defUpd _ _ _ _ => true | _ => false) i → i.work = .defUpd r n ls tk →
    exec (.defUpdate t) s = .next (((s.advance t).defItem r n ls).markRan i.key)) ∧
  (∀ (t tk : Time) (i : Item) (n : Nat) (ls : List Letter) (s : State),
    s.servingItem 0x5001 (fun w => match w with | .coherency _ _ _ => true | _ => false) i → i.work = .coherency n ls tk →
    exec (.coherencyUpdate t) s = .next (((s.advance t).islItem n ls).markRan i.key)) ∧
  (∀ (t : Time) (i : Item) (s : State),
    s.servingItem 0x5002 (fun w => match w with | .clustering => true | _ => false) i →
    exec (.clustering t) s = .next ((s.advance t).clusterRun.markRan i.key)) ∧
  (∀ (t tk : Time) (i : Item) (n : Nat) (ls : List Letter) (s : State),
    s.servingItem 0x5000 (fun w => match w with | .separation _ _ _ => true | _ => false) i → i.work = .separation n ls tk →
    exec (.separation t) s = .next (((s.advance t).sepItem n ls tk).markRan i.key))

/-- Alarm machines and publications (R290, R295, R299, R300): a step in service of a running machine of no pair steps it, and `pubFlush` then
sends what its Round's instant changed; a publication repeats when its interval is over and not before; an acknowledgement of an undefined
machine gives STATUS 3, in a state without LATCH STATUS 2, and in one with LATCH it sets ACK_PEND with STATUS 1. Standard alarms and pins
(R296, R298): alarms 1 and 9 end 10 s after their last cause, no other by time; a pin is judged again once its minimum width is over; a
change of ALM_OE_N shows in OE, sets its notice and drives the pins anew, and no change does nothing. -/
def Obligations.AlarmMachinesAndPins : Prop :=
  ((∀ (m : Fin 1024) (t tk : Time) (i : Item) (m' r n : Nat) (ls : List Letter) (s : State),
    s.servingItem (0x4C00 + m.val) (fun w => match w with | .machine _ _ _ _ _ => true | _ => false) i →
    i.work = .machine m' r n ls tk → i.slot = none → s.flag Reg.AMR_RUN [m] = true → s.pair.emitNow = false → s.pair.muteNow = false →
    ∃ a, a = (((s.advance t).amStep m r n ls tk).markRan i.key).pubFlush r n ∧
      exec (.machineStep m t) s = .next { a with pair := { a.pair with emitNow := false, muteNow := false } }) ∧
  (∀ (q : Fin 16) (t : Time) (s : State), s.processing = true → s.flag Reg.ALM_PUB_CFG_EN [q] = true →
    ((sget s.alm.pubs q.val pub0).next ≤ max s.now t → exec (.gooseRetransmit q t) s = .next ((s.advance t).pubRepeat q)) ∧
    (max s.now t < (sget s.alm.pubs q.val pub0).next → exec (.gooseRetransmit q t) s = .next (s.advance t))) ∧
  (∀ (w : Word) (s : State), s.takesWrite (Reg.ALM_ACK_AM.off []) →
    (s.amOk (w.toNat % 1024) = false → ∃ u, exec (.almAck w) s = .next u ∧ u.rd Reg.ALM_ACK_STATUS [] = 3) ∧
    (s.amOk (w.toNat % 1024) = true → s.flag Reg.AM_ST_LATCH [w.toNat % 1024, s.rd Reg.AMR_STATE [w.toNat % 1024]] = false →
      ∃ u, exec (.almAck w) s = .next u ∧ u.rd Reg.ALM_ACK_STATUS [] = 2 ∧
        u.flag Reg.AMR_ACK_PEND [w.toNat % 1024] = s.flag Reg.AMR_ACK_PEND [w.toNat % 1024]) ∧
    (s.amOk (w.toNat % 1024) = true → s.flag Reg.AM_ST_LATCH [w.toNat % 1024, s.rd Reg.AMR_STATE [w.toNat % 1024]] = true →
      ∃ u, exec (.almAck w) s = .next u ∧ u.rd Reg.ALM_ACK_STATUS [] = 1 ∧ u.flag Reg.AMR_ACK_PEND [w.toNat % 1024] = true))) ∧
  ((∀ (c : Fin 16) (t : Time) (s : State),
    ((c.val = 1 ∨ c.val = 9) → sget s.alm.stdAt c.val 0 + 10 * second ≤ max s.now t →
      exec (.stdAlarmExpiry c t) s = .next ((s.advance t).stdAlarm c false)) ∧
    (max s.now t < sget s.alm.stdAt c.val 0 + 10 * second → exec (.stdAlarmExpiry c t) s = .next (s.advance t)) ∧
    (c.val ≠ 1 → c.val ≠ 9 → exec (.stdAlarmExpiry c t) s = .next (s.advance t))) ∧
  (∀ (p : Fin 8) (t : Time) (s : State),
    (sget s.alm.pins p.val 0 ≤ max s.now t →
      exec (.alarmPinMinw p t) s = .next (({ s.advance t with alm := { s.alm with pins := serase s.alm.pins p } } : State).drivePins)) ∧
    (max s.now t < sget s.alm.pins p.val 0 → exec (.alarmPinMinw p t) s = .next (s.advance t))) ∧
  (∀ (level : Bool) (s : State), s.alm.oeN ≠ level →
    ∃ u a, a = ({ s with alm := { s.alm with oeN := level } } : State).setFlag Reg.ALM_PIN_STAT_OE [] (!level) ∧
      exec (.almOeNChange level) s = .next u ∧ u = (a.notice bALM 6 (if level then 1 else 0) 0 0).drivePins ∧ u.alm.oeN = level ∧
      u.flag Reg.ALM_PIN_STAT_OE [] = !level ∧ u.noticed bALM 6) ∧
  (∀ (level : Bool) (s : State), s.alm.oeN = level → exec (.almOeNChange level) s = .next s))

/-! ### Local acquisition, energy and capture -/

/-- Samples of a point whose clock runs (R316, R318, R328, R338). OUTPUT_SAMPLE takes the chain's outputs of the sample it names
where they are ready, while the chain fills into the inputs' lines alone and then through the whole of `acqSample`; one already taken, or
whose instant does not lie a total delay back, changes nothing. The bits of a look-ahead period, from 1 ms after the clock's start, go through the chains, whose look-ahead values are judged for
the three phases: at or above DOWN the phase stays high for its time, at or above UP an up-splice of its gang is begun at the next sample
not yet taken, unless path L is forced. A fault is shown, counted and noticed at its onset, and its bit goes when the input clears. 1 ms and
the total delay after its start the chain is filled and RUNNING is 1. Without a running clock none of the three does anything. -/
def Obligations.AcquisitionSamples : Prop :=
  (∀ (p : Fin 2) (n : Nat) (t : Time) (s : State), s.clocked p = true → instantTime n (s.ptRate p) + s.ptDelay p ≤ t → s.nextSmp p ≤ n →
    exec (.outputSample p n t) s = .next ((s.advance t).acqTake p n)) ∧
  (∀ (p : Fin 2) (n : Nat) (t : Time) (s : State),
    (s.clocked p = false ∨ t < instantTime n (s.ptRate p) + s.ptDelay p ∨ n < s.nextSmp p) →
    exec (.outputSample p n t) s = .next (s.advance t)) ∧
  (∀ (p : Fin 2) (n : Nat) (xs : List Word) (s a : State), sfind (s.acqPt p).ready (n + 4) = some xs →
    a = s.setAcqPt p { s.acqPt p with ready := (s.acqPt p).ready.filter fun r => decide (n + 4 < r.1) } →
    s.acqTake p n = (if (s.acqPt p).filled.isSome then a.acqSample p n xs else a.acqFill p xs)) ∧
  (∀ (p : Fin 2) (n : Nat) (s : State), sfind (s.acqPt p).ready (n + 4) = none → s.acqTake p n = s) ∧
  (∀ (p : Fin 2) (bits lbits : List (List Bool)) (t : Time) (r : AcqPt × List Int) (s : State), (s.advance t).sampling p = true →
    r = (s.acqPt p).chainPush (s.preset p) (instantOf (t - cicDelay) 160000) (inputBits bits lbits) →
    exec (.lookAheadSample p bits lbits t) s =
      .next (forEach [0, 1, 2] (fun k a => a.lookJudge p t k (r.2.getD (6 + k) 0)) ((s.advance t).setAcqPt p r.1))) ∧
  (∀ (p : Fin 2) (bits lbits : List (List Bool)) (t : Time) (s : State), (s.advance t).sampling p = false →
    exec (.lookAheadSample p bits lbits t) s = .next (s.advance t)) ∧
  (∀ (p k : Nat) (t : Time) (v : Int) (a b : State),
    b = (if cicReaches v (a.rd Reg.ACQ_PT_SPL_DOWN [p]) = true then
      a.mapPhs p fun j h => if j = k then { h with high := t - cicDelay } else h else a) →
    ((cicReaches v (b.splUp p) = false ∨ b.splForce p = 2) → a.lookJudge p t k v = b) ∧
    (cicReaches v (b.splUp p) = true → b.splForce p ≠ 2 → a.lookJudge p t k v =
      b.upSplice p (max (b.nextSmp p) (ceilDiv ((t - b.ptDelay p) * b.ptRate p) second)) (b.gang p k))) ∧
  (∀ (i : Fin 18) (t : Time) (s : State), s.clocked (i.val / 9) = true → s.inFault (i.val / 9) (i.val % 9) = false →
    exec (.inputFault i t) s = .next ((s.advance t).faultOn (i.val / 9) (i.val % 9)) ∧
    (3 ≤ i.val % 9 → i.val % 9 < 6 →
      ∃ u, exec (.inputFault i t) s = .next u ∧ u.inFault (i.val / 9) (i.val % 9) = true ∧ u.noticed bACQ 0 ∧
        u.rd Reg.ACQ_PT_FAULTS [i.val / 9] = (s.rd Reg.ACQ_PT_FAULTS [i.val / 9] + 1) % 2 ^ Reg.ACQ_PT_FAULTS.width)) ∧
  (∀ (i : Fin 18) (t : Time) (s : State), (s.clocked (i.val / 9) = false ∨ s.inFault (i.val / 9) (i.val % 9) = true) →
    exec (.inputFault i t) s = .next (s.advance t)) ∧
  (∀ (i : Fin 18) (t : Time) (s : State),
    (s.inFault (i.val / 9) (i.val % 9) = true →
      ∃ u, exec (.inputFaultClear i t) s = .next u ∧ u.inFault (i.val / 9) (i.val % 9) = false) ∧
    (s.inFault (i.val / 9) (i.val % 9) = false → exec (.inputFaultClear i t) s = .next (s.advance t))) ∧
  (∀ (p : Fin 2) (t : Time) (s : State), s.clocked p = true → (s.acqPt p).filled = none →
    (s.acqPt p).start + msU + s.ptDelay p ≤ max s.now t →
    exec (.chainFilled p t) s =
      .next ((forEach [2 * p.val, 2 * p.val + 1] (fun n a => if a.lsOn n then a.setAcqLs n { a.acqLs n with next := some (a.lsFirst n t) } else a)
        (((s.advance t).setAcqPt p { s.acqPt p with filled := some t }).setFlag Reg.ACQ_PT_STAT_RUNNING [p] true)).capFilled p)) ∧
  (∀ (p : Fin 2) (t : Time) (s : State),
    (s.clocked p = false ∨ (s.acqPt p).filled.isSome = true ∨ max s.now t < (s.acqPt p).start + msU + s.ptDelay p) →
    exec (.chainFilled p t) s = .next (s.advance t))

/-- Calibration (R320, R324, R326): curves are looked up every 200 ms of device time, once; COMMIT is refused with STATUS 3 and its notice
while a shadow curve is invalid, waits with STATUS 1 otherwise, and is ignored while one waits; at the next second it is applied: the
shadow bank becomes the active one and each running point's inputs begin their fade. Local streams and sampled values (R331, R333, R336,
R337): a letter is formed once its samples are there, one of a sampled-value stream once its span is whole, or after WAIT_US without; an
ASDU that passes the port's stages goes in a processing mode to each slot it matches, and is otherwise discarded with its frame; 100 ms
without a sample clears RECEIVING with a notice. -/
def Obligations.CalibrationAndLocalStreams : Prop :=
  ((∀ (t : Time) (s : State), t % (200 * msU) = 0 → s.acq.looked ≠ some t →
    exec (.curveLookup t) s =
      .next (forEach [0, 1] (fun p a => if a.clocked p then a.lookup p else a) { s.advance t with acq := { s.acq with looked := some t } })) ∧
  (∀ (t : Time) (s : State), (t % (200 * msU) ≠ 0 ∨ s.acq.looked = some t) → exec (.curveLookup t) s = .next (s.advance t)) ∧
  (∀ (w : Word) (s a : State), s.takesWrite (Reg.ACQ_CAL_COMMIT.off []) → w.getLsbD 31 = true → s.rd Reg.ACQ_CAL_STATUS [] ≠ 1 →
    a = (s.store (Reg.ACQ_CAL_COMMIT.off []) w).setFlag Reg.ACQ_CAL_COMMIT [] false →
    ((List.range 18).any (a.curveBad 0xFC1000) = true →
      ∃ u, exec (.calCommit w) s = .next u ∧ u.rd Reg.ACQ_CAL_STATUS [] = 3 ∧ u.noticed bACQ 5) ∧
    ((List.range 18).any (a.curveBad 0xFC1000) = false → ∃ u, exec (.calCommit w) s = .next u ∧ u.rd Reg.ACQ_CAL_STATUS [] = 1)) ∧
  (∀ (w : Word) (s : State), s.takesWrite (Reg.ACQ_CAL_COMMIT.off []) → (w.getLsbD 31 = false ∨ s.rd Reg.ACQ_CAL_STATUS [] = 1) →
    exec (.calCommit w) s = .next ((s.store (Reg.ACQ_CAL_COMMIT.off []) w).setFlag Reg.ACQ_CAL_COMMIT [] false)) ∧
  (∀ (t : Time) (s a : State), s.rd Reg.ACQ_CAL_STATUS [] = 1 → s.acq.calFade = false → t % second = 0 →
    a = forEach [0, 1] (fun p b => if b.clocked p then b.commitFade p (secOf t * b.ptRate p) else b) (s.advance t).copyCurves →
    exec (.calCommitApply t) s = .next (({ a with acq := { a.acq with calFade := true } } : State).calDone)) ∧
  (∀ (t : Time) (s : State), (s.rd Reg.ACQ_CAL_STATUS [] ≠ 1 ∨ s.acq.calFade = true ∨ t % second ≠ 0) →
    exec (.calCommitApply t) s = .next (s.advance t))) ∧
  ((∀ (n : Fin 8) (t : Time) (k newest : Nat) (s : State), (s.acqLs n.val).next = some k → (s.advance t).lsNewest n.val = some newest →
    s.processing = true → s.lsOn n.val = true →
    ((s.advance t).lsNeeds n.val k ≤ newest → n.val < 4 → exec (.localLetter n t) s = .next ((s.advance t).lsForm n.val k false)) ∧
    ((s.advance t).lsNeeds n.val k ≤ newest → 4 ≤ n.val → (s.advance t).svWhole (n.val - 4) k = true →
      exec (.localLetter n t) s = .next ((s.advance t).svLetter (n.val - 4))) ∧
    (newest < (s.advance t).lsNeeds n.val k → exec (.localLetter n t) s = .next (s.advance t))) ∧
  (∀ (n : Fin 8) (t : Time) (s : State), (s.acqLs n.val).next = none → exec (.localLetter n t) s = .next (s.advance t)) ∧
  (∀ (q : Fin 4) (t : Time) (k : Nat) (s : State), (s.acqLs (q.val + 4)).next = some k → s.processing = true → s.lsOn (q.val + 4) = true →
    (instantTime k ((s.advance t).lsFps (q.val + 4)) + (s.advance t).lsReach (q.val + 4) + s.rd Reg.ACQ_SV_CFG_WAIT_US [q.val] * usU ≤
      max s.now t → exec (.svWaitTimeout q t) s = .next ((s.advance t).svLetter q.val)) ∧
    (max s.now t < instantTime k ((s.advance t).lsFps (q.val + 4)) + (s.advance t).lsReach (q.val + 4) +
      s.rd Reg.ACQ_SV_CFG_WAIT_US [q.val] * usU → exec (.svWaitTimeout q t) s = .next (s.advance t))) ∧
  (∀ (x : SvAsdu) (s a : State), (if x.idx = 0 then s.rxFront x.toRxHead else s.rxMore x.toRxHead) = (a, true) →
    (a.processing = true → exec (.svAsdu x) s = .next (forEach (a.svMatch x) (fun q b => b.svTake x q) a)) ∧
    (a.processing = false → x.idx = 0 → exec (.svAsdu x) s = .next (a.disc x.port)) ∧
    (a.processing = false → x.idx ≠ 0 → exec (.svAsdu x) s = .next a)) ∧
  (∀ (x : SvAsdu) (s a : State), (if x.idx = 0 then s.rxFront x.toRxHead else s.rxMore x.toRxHead) = (a, false) →
    exec (.svAsdu x) s = .next a) ∧
  (∀ (q : Fin 4) (t : Time) (s : State), s.flag Reg.ACQ_SV_STAT_RECEIVING [q.val] = true → sget s.acq.svAt q.val 0 + 100 * msU ≤ max s.now t →
    ∃ u, exec (.svLost q t) s = .next u ∧ u.flag Reg.ACQ_SV_STAT_RECEIVING [q.val] = false ∧ u.noticed bACQ 6))

/-- Energy (R348, R358, R361, R363, R366): a quantum whose end has come and whose samples are there is metered once; with no point enabled
the row saves the registers at a whole second instead. A snapshot request waits with STATUS 1 from its GO on for every enabled point, and
with no point enabled ends at the next second with STATUS 2 and its notice. A preset of GO is refused with STATUS 3 outside SERVICE and
waits with STATUS 1, its value and its time in it; an interval that has ended writes its record and its notice. Half-cycle voltages (R362,
R365): on a clocked point with a declared voltage the values of the earliest stamp that wait enter the point's three, and sags, swells and
interruptions are judged at that stamp on those without a fault, if any; without a declared voltage they are dropped, and on any other
point nothing happens. -/
def Obligations.EnergyAndSupplyEvents : Prop :=
  ((∀ (p : Fin 2) (t : Time) (s : State), s.ptOn p = true → (s.nrgPt p).lastQ ≠ some (s.ptF0 p, (s.advance t).dueQuantum p) →
    instantTime ((s.advance t).dueQuantum p + 1) (s.ptF0 p) ≤ max s.now t → (s.advance t).quantReady p ((s.advance t).dueQuantum p) = true →
    exec (.quantumEnd p t) s = .next ((s.advance t).quantum p ((s.advance t).dueQuantum p))) ∧
  (∀ (p : Fin 2) (t : Time) (s : State), s.ptOn p = false → (s.ptOn 0 = true ∨ s.ptOn 1 = true) →
    exec (.quantumEnd p t) s = .next (s.advance t)) ∧
  (∀ (p : Fin 2) (t : Time) (s : State), s.ptOn 0 = false → s.ptOn 1 = false →
    exec (.quantumEnd p t) s = .next ((s.advance t).nrgPersist (secOf (max s.now t) * second))) ∧
  (∀ (p : Fin 2) (t : Time) (s : State), (s.nrgPt p).ivDone = none → exec (.intervalEnd p t) s = .next (s.advance t)) ∧
  (∀ (p : Fin 2) (t : Time) (s : State), (s.nrgPt p).ivDone.isSome = true →
    ∃ u, exec (.intervalEnd p t) s = .next u ∧ (u.nrgPt p).ivDone = none ∧ (u.nrgPt p).skipped = 0 ∧ u.noticed bNRG 0 ∧
      u.rd Reg.NRG_PT_RECSEQ [p] = (s.rd Reg.NRG_PT_RECSEQ [p] + 1) % 2 ^ Reg.NRG_PT_RECSEQ.width) ∧
  (∀ (w : Word) (s : State), s.takesWrite (Reg.NRG_SNAP_GO.off []) → w.getLsbD 0 = true → s.rd Reg.NRG_SNAP_STATUS [] ≠ 1 →
    ∃ u, exec (.nrgSnap w) s = .next u ∧ u.rd Reg.NRG_SNAP_STATUS [] = 1 ∧
      (s.ptOn 0 = true → (u.nrgPt 0).snapDue = some s.now) ∧ (s.ptOn 1 = true → (u.nrgPt 1).snapDue = some s.now)) ∧
  (∀ (w : Word) (s : State), s.takesWrite (Reg.NRG_SNAP_GO.off []) → (w.getLsbD 0 = false ∨ s.rd Reg.NRG_SNAP_STATUS [] = 1) →
    exec (.nrgSnap w) s = .next s) ∧
  (∀ (t : Time) (s : State), s.rd Reg.NRG_SNAP_STATUS [] = 1 → s.ptOn 0 = false → s.ptOn 1 = false → t % second = 0 →
    s.nrg.snapAt < t → ∃ u, exec (.snapDone t) s = .next u ∧ u.rd Reg.NRG_SNAP_STATUS [] = 2 ∧ u.noticed bNRG 1) ∧
  (∀ (t : Time) (s : State), (s.rd Reg.NRG_SNAP_STATUS [] ≠ 1 ∨ s.ptOn 0 = true ∨ s.ptOn 1 = true ∨ t ≤ s.nrg.snapAt) →
    exec (.snapDone t) s = .next (s.advance t)) ∧
  (∀ (p : Fin 2) (w : Word) (s : State), s.takesWrite (Reg.NRG_PT_PRE_IDX_GO.off [p.val]) → w.getLsbD 31 = true →
    s.rd Reg.NRG_PT_PRE_IDX_STATUS [p.val] ≠ 1 →
    (s.mode ≠ .service → ∃ u, exec (.nrgPreset p w) s = .next u ∧ u.rd Reg.NRG_PT_PRE_IDX_STATUS [p.val] = 3 ∧ u.noticed bNRG 8) ∧
    (s.mode = .service → ∃ u, exec (.nrgPreset p w) s = .next u ∧ u.rd Reg.NRG_PT_PRE_IDX_STATUS [p.val] = 1 ∧
      (u.nrgPt p.val).preset = some (w.toNat % 32, s.rd64 Reg.NRG_PT_PRE_VAL [p.val], s.now)))) ∧
  ((∀ (p : Fin 2) (st t : Time) (s : State), F32.isZero (BitVec.ofNat 32 (s.rd Reg.NRG_PT_UDIN [p])) = true →
    exec (.urmsHalfValue p st t) s = .next ((s.advance t).setNrgPt p { s.nrgPt p with due := [] })) ∧
  (∀ (p : Fin 2) (st t : Time) (s : State), F32.isZero (BitVec.ofNat 32 (s.rd Reg.NRG_PT_UDIN [p])) = false →
    (s.clocked p = false ∨ firstStamp (s.nrgPt p).due ≠ some st) → exec (.urmsHalfValue p st t) s = .next (s.advance t)) ∧
  (∀ (p : Fin 2) (t st : Time) (urms xs : List (Nat × Word)) (s : State), s.clocked p = true →
    F32.isZero (BitVec.ofNat 32 (s.rd Reg.NRG_PT_UDIN [p])) = false → firstStamp (s.nrgPt p).due = some st →
    urms = ((s.nrgPt p).due.filter fun x => x.1 == st).foldl (fun a x => sset a x.2.1 x.2.2) (s.nrgPt p).urms →
    xs = urms.filter (fun x => !s.inFault p x.1) →
    (xs ≠ [] → exec (.urmsHalfValue p st t) s =
      .next (forEach [0, 1, 2] (fun typ a => a.pqJudge p typ st xs)
        ((s.advance t).setNrgPt p { s.nrgPt p with urms := urms, due := (s.nrgPt p).due.filter fun x => x.1 != st }))) ∧
    (xs = [] → exec (.urmsHalfValue p st t) s =
      .next ((s.advance t).setNrgPt p { s.nrgPt p with urms := urms, due := (s.nrgPt p).due.filter fun x => x.1 != st }))))

/-- Capture units (R379, R381, R383, R388): ARM of a stopped unit fills it again; FORCE in filling or armed waits for the next sample, in
post it counts under RETRIG, and in off, stopped and invalid it is ignored; ACK releases the held records up to its SEQ while KEEP = 1. The
trigger lines (R386, R390 to R392): a line shows low from its falling edge on, and an edge of a line that is low already changes nothing; in
a processing mode the edge sets its notice, and FIRE goes to every unit with XIN that does not drive it, SYNC to every unit with XSYNC that
is not off or invalid. At its FIRE edge an armed unit, and a filling one without PREFULL, enters post unless its hold-off counts the
edge under RETRIG; any other stays as it is. SYNC_GO pulls SYNC where the unit drives its lines; a line is released and shows high once
its own pulse, FIRE_W_US (at least 2 µs) or 10 µs, is over. -/
def Obligations.CaptureAndTriggerLines : Prop :=
  (∀ (u : Fin 32) (s : State),
    (s.takesWrite (Reg.CAP_U_ARM_ARM.off [u.val]) →
      (s.capState u = 4 → exec (.capArm u) s =
        .next ((s.setCapUnit u { s.capUnit u with after := some (s.capUnit u).missed, missed := 0 }).capFill u)) ∧
      (s.capState u ≠ 4 → exec (.capArm u) s = .next s)) ∧
    (s.takesWrite (Reg.CAP_U_ARM_FORCE.off [u.val]) →
      ((s.capState u = 1 ∨ s.capState u = 2) → exec (.capForce u) s = .next (s.setCapUnit u { s.capUnit u with force := true })) ∧
      (s.capState u = 3 → exec (.capForce u) s =
        .next ((s.setCapUnit u { s.capUnit u with
          cur := (s.capUnit u).cur.map (fun c => { c with retrig := min 65535 (c.retrig + 1) })
          early := if (s.capUnit u).edge.isSome then (s.capUnit u).early + 1 else (s.capUnit u).early }).capRetrig u)) ∧
      ((s.capState u = 0 ∨ s.capState u = 4 ∨ s.capState u = 5) → exec (.capForce u) s = .next s)) ∧
    (∀ w : Word, s.takesWrite (Reg.CAP_U_ACK_SEQ.off [u.val]) →
      (s.flag Reg.CAP_U_CFG_KEEP [u.val] = false → exec (.capAck u w) s = .next s) ∧
      (s.flag Reg.CAP_U_CFG_KEEP [u.val] = true → exec (.capAck u w) s =
        .next ((s.setCapUnit u { s.capUnit u with
          held := ((s.capUnit u).held.filter fun h => decide (2 ^ 31 ≤ (w.toNat + 2 ^ 32 - h.1.seq) % 2 ^ 32)) }).showSegs u)))) ∧
  ((∀ (t : Time) (s : State), s.cap.fireLow = true → exec (.xtrgFireEdge t) s = .next (s.advance t)) ∧
  (∀ (t : Time) (s : State), s.cap.syncLow = true → exec (.xtrgSyncEdge t) s = .next (s.advance t)) ∧
  (∀ (t : Time) (s a : State), s.cap.fireLow = false →
    a = ({ s.advance t with cap := { s.cap with fireLow := true } } : State).setFlag Reg.CAP_XTRG_FIRE_LINE [] false →
    (a.processing = false → exec (.xtrgFireEdge t) s = .next a) ∧
    (a.processing = true → exec (.xtrgFireEdge t) s =
      .next (forEach ((List.range 32).filter fun u => a.flag Reg.CAP_U_CFG_XIN [u] && !a.cap.pulling.contains u) (fun u b => b.capEdge t u)
        (a.notice bCAP 3 0 0 0)))) ∧
  (∀ (t : Time) (s a : State), s.cap.syncLow = false →
    a = ({ s.advance t with cap := { s.cap with syncLow := true } } : State).setFlag Reg.CAP_XTRG_SYNC_LINE [] false →
    (a.processing = false → exec (.xtrgSyncEdge t) s = .next a) ∧
    (a.processing = true → exec (.xtrgSyncEdge t) s =
      .next (forEach ((List.range 32).filter fun u => a.flag Reg.CAP_U_CFG_XSYNC [u] && a.capState u != 0 && a.capState u != 5)
        (fun u b => b.capSync u) (a.notice bCAP 4 0 0 0)))) ∧
  (∀ (t : Time) (u : Nat) (s : State),
    ((s.capState u ≠ 1 ∧ s.capState u ≠ 2) ∨ (s.capState u = 1 ∧ s.flag Reg.CAP_U_CFG_PREFULL [u] = true) → s.capEdge t u = s) ∧
    (s.capState u = 2 ∨ (s.capState u = 1 ∧ s.flag Reg.CAP_U_CFG_PREFULL [u] = false) →
      (s.capHeldOff u (s.capUnit u) t = true → s.capEdge t u = s.capRetrig u) ∧
      (s.capHeldOff u (s.capUnit u) t = false →
        s.capEdge t u = (s.setCapUnit u { s.capUnit u with edge := some t, early := 0 }).setCapState u 3))) ∧
  (∀ (t : Time) (s : State),
    ((s.cap.pulling = [] ∨ s.cap.fireAt + max 2 (s.rd Reg.CAP_XTRG_FIRE_W_US []) * usU ≤ max s.now t) →
      exec (.xtrgFireRelease t) s =
        .next (({ s.advance t with cap := { s.cap with pulling := [], fireLow := false } } : State).setFlag Reg.CAP_XTRG_FIRE_LINE [] true)) ∧
    (s.cap.pulling ≠ [] → max s.now t < s.cap.fireAt + max 2 (s.rd Reg.CAP_XTRG_FIRE_W_US []) * usU →
      exec (.xtrgFireRelease t) s = .next (s.advance t))) ∧
  (∀ (t : Time) (s : State), (∀ r, s.cap.syncAt = some r → r + 10 * usU ≤ max s.now t) →
    exec (.xtrgSyncRelease t) s =
      .next (({ s.advance t with cap := { s.cap with syncAt := none, syncLow := false } } : State).setFlag Reg.CAP_XTRG_SYNC_LINE [] true)) ∧
  (∀ (t r : Time) (s : State), s.cap.syncAt = some r → max s.now t < r + 10 * usU →
    exec (.xtrgSyncRelease t) s = .next (s.advance t)) ∧
  (∀ (w : Word) (s a : State), s.takesWrite (Reg.CAP_XTRG_SYNC_GO.off []) →
    a = (s.store (Reg.CAP_XTRG_SYNC_GO.off []) w).setFlag Reg.CAP_XTRG_SYNC_GO [] false →
    (w.getLsbD 0 = true → a.xDrives = true →
      exec (.syncGo w) s = .next (({ a with cap := { a.cap with syncAt := some a.now } } : State).setFlag Reg.CAP_XTRG_SYNC_LINE [] false)) ∧
    ((w.getLsbD 0 = false ∨ a.xDrives = false) → exec (.syncGo w) s = .next a)))

/-! ### The pair -/

/-- Heartbeats (R423 to R425, R405, R407): a powered member sends its word as a frame of type 1 on each lane that is up and on path B, and
counts it; another unit sends none. A valid word from the partner is taken by a powered member and an invalid one is not; a path without a
word for 300 µs goes silent, which while the other lives only sets the notice; a lane that comes up or goes down shows in LANES with its
notice, the first one up of a member that has no partner's HELLO or whose data link is down sends HELLO (the model's choice, log entry
135), and one that goes down for errors in a processing mode is a failed self-test; JOIN_MS without a partner lets a unit in WATCH run
alone. -/
def Obligations.Heartbeats : Prop :=
  (∀ (t : Time) (s : State), s.powered = true → s.flag Reg.PAIR_CFG_EN [] = true →
    ∃ u, exec (.heartbeatSend t) s = .next u ∧ u.pair.hbSeq = (s.pair.hbSeq + 1) % 65536 ∧
      u.out = (s.advance t).refreshScore.out ++
        (([0, 1].filter fun n => s.rd Reg.PAIR_STAT_LANES [] / 2 ^ n % 2 == 1).map fun n => Output.plk n
          (PlkFrame.bytes ⟨1, false, 0, leBytes 8 (s.advance t).refreshScore.hbWord⟩ false (max s.now t))) ++
        [.heartbeat true (s.advance t).refreshScore.hbWord]) ∧
  (∀ (t : Time) (s : State), (s.powered = false ∨ s.flag Reg.PAIR_CFG_EN [] = false) → exec (.heartbeatSend t) s = .next (s.advance t)) ∧
  (∀ (b : Bool) (w : BitVec 64) (t : Time) (s : State),
    (s.powered = true → s.flag Reg.PAIR_CFG_EN [] = true → hbValid w.toNat = true →
      exec (.heartbeatReceived b w t) s = .next ((s.advance t).heartbeat b w.toNat)) ∧
    ((s.powered = false ∨ s.flag Reg.PAIR_CFG_EN [] = false ∨ hbValid w.toNat = false) →
      exec (.heartbeatReceived b w t) s = .next (s.advance t))) ∧
  (∀ (t : Time) (s : State), (s.advance t).silentDue false = true → s.flag Reg.PAIR_STAT_PATH_B [] = true →
    ∃ u, exec (.pathSilent false t) s = .next u ∧ u.flag Reg.PAIR_STAT_PATH_A [] = false ∧ u.flag Reg.PAIR_STAT_PATH_B [] = true ∧
      u.noticed bPAIR 2 ∧ u.mode = s.mode ∧ u.pair = s.pair) ∧
  (∀ (b : Bool) (t : Time) (s : State), (s.advance t).silentDue b = true → exec (.pathSilent b t) s = .next ((s.advance t).goSilent b)) ∧
  (∀ (b : Bool) (t : Time) (s : State), (s.advance t).silentDue b = false → exec (.pathSilent b t) s = .next (s.advance t)) ∧
  (∀ (t : Time) (s : State), s.mode = .watch → s.flag Reg.GLB_MODE_RUN_EN [] = true → s.flag Reg.PAIR_STAT_PATH_A [] = false →
    s.flag Reg.PAIR_STAT_PATH_B [] = false → s.pair.runAt + clampN 100 65535 (s.rd Reg.PAIR_CFG_JOIN_MS []) * msU ≤ max s.now t →
    exec (.joinTimeout t) s = .next (({ s.advance t with pair := { s.pair with joinOver := true } } : State).runCheck)) ∧
  (∀ (l : Fin 2) (t : Time) (s a : State), s.powered = true → s.rd Reg.PAIR_STAT_LANES [] / 2 ^ l.val % 2 = 0 →
    a = ((s.advance t).wr Reg.PAIR_STAT_LANES [] (s.rd Reg.PAIR_STAT_LANES [] + 2 ^ l.val)).notice bPAIR 3 l 1 0 →
    a.rd Reg.PAIR_STAT_LANES [] = s.rd Reg.PAIR_STAT_LANES [] + 2 ^ l.val ∧ a.noticed bPAIR 3 ∧
    (s.rd Reg.PAIR_STAT_LANES [] = 0 → a.flag Reg.PAIR_CFG_EN [] = true → (a.pair.peer = none ∨ a.flag Reg.PAIR_STAT_DATA_DOWN [] = true) →
      exec (.laneUp l t) s = .next a.sayHello) ∧
    ((s.rd Reg.PAIR_STAT_LANES [] ≠ 0 ∨ a.flag Reg.PAIR_CFG_EN [] = false ∨
      (a.pair.peer.isSome = true ∧ a.flag Reg.PAIR_STAT_DATA_DOWN [] = false)) → exec (.laneUp l t) s = .next a)) ∧
  (∀ (l : Fin 2) (errs : Bool) (t : Time) (s a : State), s.rd Reg.PAIR_STAT_LANES [] / 2 ^ l.val % 2 = 1 →
    a = ((s.advance t).wr Reg.PAIR_STAT_LANES [] (s.rd Reg.PAIR_STAT_LANES [] - 2 ^ l.val)).notice bPAIR 3 l 0 0 →
    a.rd Reg.PAIR_STAT_LANES [] = s.rd Reg.PAIR_STAT_LANES [] - 2 ^ l.val ∧ a.noticed bPAIR 3 ∧
    ((errs = false ∨ s.processing = false) → exec (.laneDown l errs t) s = .next a) ∧
    (errs = true → s.processing = true → exec (.laneDown l errs t) s = .next (a.selfTestFail 5))) ∧
  (∀ (l : Fin 2) (t : Time) (s : State),
    ((s.powered = false ∨ s.rd Reg.PAIR_STAT_LANES [] / 2 ^ l.val % 2 = 1) → exec (.laneUp l t) s = .next (s.advance t)) ∧
    (∀ errs, s.rd Reg.PAIR_STAT_LANES [] / 2 ^ l.val % 2 = 0 → exec (.laneDown l errs t) s = .next (s.advance t)))

/-- Switchovers (R404, R429 to R431): a HELLO that is heard, and is no repetition of the last one, restarts the reception at its number and
is taken (log entry 135). Of the frames next in order a standby that is ready accepts an offer and notes the instant, one that is not
refuses, and a unit of another role lets it be; an acceptance of the offered instant agrees the switchover and a refusal ends it. A
preferred unit that has been fit for the role for the revert time is due to take it back; an active unit whose partner has scored 32
higher for 10 s offers a switchover, not twice within the gap. -/
def Obligations.Switchovers : Prop :=
  (∀ (f : PlkHead) (h : HelloMsg) (s : State),
    ((s.advance h.t).plkHears f = true → (s.advance h.t).helloTwice f = false →
      exec (.hello ⟨f, h⟩) s = .next (((s.advance h.t).restartRx f).hello h)) ∧
    ((s.advance h.t).plkHears f = true → (s.advance h.t).helloTwice f = true →
      exec (.hello ⟨f, h⟩) s = .next ((s.advance h.t).rxCounted f.frames)) ∧
    ((s.advance h.t).plkHears f = false → exec (.hello ⟨f, h⟩) s = .next (s.advance h.t))) ∧
  (∀ (f : PlkHead) (k : Nat) (t : Time) (s a : State), (s.advance t).plkHears f = true → (s.advance t).inOrder false f = true →
    a = (s.advance t).received false f →
    (a.holding = true → a.flag Reg.PAIR_STAT_READY [] = true → exec (.switchOffer ⟨f, k⟩ t) s =
      .next (({ a with pair := { a.pair with switch := some ⟨k, false, true, if a.pair.revertDue then 4 else 5⟩ } } : State).plkSend (.switchAccept k))) ∧
    (a.holding = true → a.flag Reg.PAIR_STAT_READY [] = false → exec (.switchOffer ⟨f, k⟩ t) s = .next (a.plkSend .switchRefuse)) ∧
    (a.holding = false → exec (.switchOffer ⟨f, k⟩ t) s = .next a) ∧
    (∀ w : Switch, a.pair.switch = some w → w.mine = true → w.k = k → exec (.switchAccept ⟨f, k⟩ t) s =
      .next { a with pair := { a.pair with switch := some { w with agreed := true } } }) ∧
    (∀ w : Switch, a.pair.switch = some w → (w.mine = false ∨ w.k ≠ k) → exec (.switchAccept ⟨f, k⟩ t) s = .next a) ∧
    (∀ w : Switch, a.pair.switch = some w → w.mine = true → exec (.switchRefuse ⟨f, t⟩) s = .next a.switchFail) ∧
    (∀ w : Switch, a.pair.switch = some w → w.mine = false → exec (.switchRefuse ⟨f, t⟩) s = .next a) ∧
    (a.pair.switch = none → exec (.switchAccept ⟨f, k⟩ t) s = .next a ∧ exec (.switchRefuse ⟨f, t⟩) s = .next a)) ∧
  (∀ (t r : Time) (s : State), s.flag Reg.PAIR_CFG_REVERT [] = true → s.revertFit = true → s.pair.fitSince = some r →
    (max s.now t < r + s.revertTime → exec (.revert t) s = .next (s.advance t)) ∧
    (r + s.revertTime ≤ max s.now t →
      (s.holding = true → exec (.revert t) s = .next { s.advance t with pair := { s.pair with revertDue := true } }) ∧
      (s.holding = false → s.pair.switch = none → exec (.revert t) s = .next ((s.advance t).switchStart 4)))) ∧
  (∀ (t r : Time) (s : State), s.flag Reg.PAIR_CFG_AUTO_SW [] = true → s.partnerAhead = true → s.pair.aheadSince = some r →
    s.pair.switch = none →
    (max s.now t < r + 10 * second → exec (.autoSwitchover t) s = .next (s.advance t)) ∧
    (∀ u, s.pair.lastAuto = some u → max s.now t < u + s.revertTime → exec (.autoSwitchover t) s = .next (s.advance t)) ∧
    (r + 10 * second ≤ max s.now t → (∀ u, s.pair.lastAuto = some u → u + s.revertTime ≤ max s.now t) →
      exec (.autoSwitchover t) s =
        .next (({ s.advance t with pair := { s.pair with lastAuto := some (max s.now t) } } : State).switchStart 5)))

/-- Messages of the pair link (R406, R410, R411, R413 to R421). Order: a frame that a powered member does not hear (CRC or PAIR_CFG.EN
against it) changes nothing but device time; one that is heard and is not the next of its stream is only counted; the next one is counted,
its stream's number moves past it and its message is taken. Messages that keep the units alike: forwarding on and off and forwarded
letters, reception maps, and, in the standby alone, copies, of which a full one joins it, releases, digests and catch-ups. A standby notes a
mailbag decision not older than its last mailbag and follows it, a unit of another role lets it be; the active unit answers a FETCH of
letters, of a check list or of a catch-up, and the standby takes the check list it asked for. The link's own frames: an ACK drops what it
acknowledges and restarts the retransmission timer; a powered member acknowledges; what is not acknowledged within 20 µs is sent again,
and after eight times the data link is down; a mailbag followed too late counts in FOLLOW_LATE and is dispatched as it is. -/
def Obligations.PairLink : Prop :=
  ((∀ (f : PlkHead) (s : State), s.plkHears f = false →
    (∀ sid, exec (.fwdOn ⟨f, sid⟩) s = .next s ∧ exec (.fwdOff ⟨f, sid⟩) s = .next s) ∧ (∀ sids, exec (.rxmap ⟨f, sids⟩) s = .next s) ∧
    (∀ l, exec (.fwd ⟨f, l⟩) s = .next s) ∧ (∀ c t, exec (.copy ⟨f, c⟩ t) s = .next (s.advance t)) ∧ (∀ r, exec (.rel ⟨f, r⟩) s = .next s) ∧
    (∀ isl g n crc, exec (.digest ⟨f, isl⟩ g n crc) s = .next s) ∧ (∀ c, exec (.catchup ⟨f, c⟩) s = .next s) ∧
    (∀ d t, exec (.plkDispatch ⟨f, d⟩ t) s = .next (s.advance t)) ∧ (∀ k r q list t, exec (.fetch ⟨f, k⟩ r q list t) s = .next (s.advance t))) ∧
  (∀ (f : PlkHead) (s : State), s.plkHears f = true →
    (s.inOrder false f = false →
      (∀ sid, exec (.fwdOn ⟨f, sid⟩) s = .next (s.rxCounted f.frames) ∧ exec (.fwdOff ⟨f, sid⟩) s = .next (s.rxCounted f.frames)) ∧
      (∀ sids, exec (.rxmap ⟨f, sids⟩) s = .next (s.rxCounted f.frames)) ∧ (∀ l, exec (.fwd ⟨f, l⟩) s = .next (s.rxCounted f.frames)) ∧
      (∀ c t, exec (.copy ⟨f, c⟩ t) s = .next ((s.advance t).rxCounted f.frames)) ∧ (∀ r, exec (.rel ⟨f, r⟩) s = .next (s.rxCounted f.frames)) ∧
      (∀ d t, exec (.plkDispatch ⟨f, d⟩ t) s = .next ((s.advance t).rxCounted f.frames)) ∧
      (∀ k r q list t, exec (.fetch ⟨f, k⟩ r q list t) s = .next ((s.advance t).rxCounted f.frames))) ∧
    (s.inOrder true f = false →
      (∀ isl g n crc, exec (.digest ⟨f, isl⟩ g n crc) s = .next (s.rxCounted f.frames)) ∧
      (∀ c, exec (.catchup ⟨f, c⟩) s = .next (s.rxCounted f.frames)))) ∧
  (∀ (f : PlkHead) (s a : State), s.plkHears f = true → s.inOrder false f = true → a = s.received false f →
    (∀ sid, (∃ u, exec (.fwdOn ⟨f, sid⟩) s = .next u ∧ sid ∈ u.pair.peerFwd ∧ ∀ x, x ∈ u.pair.peerFwd ↔ x = sid ∨ x ∈ a.pair.peerFwd) ∧
      exec (.fwdOff ⟨f, sid⟩) s = .next { a with pair := { a.pair with peerFwd := a.pair.peerFwd.filter (· != sid) } }) ∧
    (∀ sids, exec (.rxmap ⟨f, sids⟩) s = .next (a.seeMap sids)) ∧
    (∀ l : Letter, a.pair.follow = [] → exec (.fwd ⟨f, l⟩) s =
      .next (if a.processing = true then
        ({ a with pair := { a.pair with stamp := max a.pair.stamp l.arr } } : State).handOver l true 384
      else { a with pair := { a.pair with stamp := max a.pair.stamp l.arr } })) ∧
    (∀ l : Letter, exec (.fwd ⟨f, l⟩) s = .next (a.fwdLetter l)) ∧
    (∀ r : RelMsg,
      (a.holding = true → (a.pair.held.any fun h => h.isRel r) = true → exec (.rel ⟨f, r⟩) s =
        .next { a with pair := { a.pair with held := a.pair.held.filter fun h => !h.isRel r } }) ∧
      (a.holding = true → (a.pair.held.any fun h => h.isRel r) = false → exec (.rel ⟨f, r⟩) s =
        .next { a with pair := { a.pair with rels := (r :: a.pair.rels).take 64 } }) ∧
      (a.holding = false → exec (.rel ⟨f, r⟩) s = .next a))) ∧
  (∀ (f : PlkHead) (s a : State), s.plkHears f = true → s.inOrder true f = true → a = s.received true f →
    (∀ (isl : Bool) (g n crc : Nat),
      (a.holding = true → (a.ownDigest isl g).1 = n → exec (.digest ⟨f, isl⟩ g n crc) s =
        .next (a.digestCompare isl g (a.ownDigest isl g).2 crc)) ∧
      (a.holding = true → (a.ownDigest isl g).1 < n → exec (.digest ⟨f, isl⟩ g n crc) s =
        .next { a with pair := { a.pair with digests := a.pair.digests ++ [(isl, g, n, crc)] } }) ∧
      ((a.holding = false ∨ n < (a.ownDigest isl g).1) → exec (.digest ⟨f, isl⟩ g n crc) s = .next a)) ∧
    (∀ c : CatchupMsg, exec (.catchup ⟨f, c⟩) s = .next (if a.holding = true then a.installCatch c else a))) ∧
  (∀ (f : PlkHead) (c : CopyFrame) (t : Time) (s a b : State), (s.advance t).plkHears f = true → (s.advance t).inOrder false f = true →
    a = (s.advance t).received false f → b = (forEach c.recs (fun x y => y.applyRec x) a).wr Reg.PAIR_COPYSEQ [] c.seq →
    (a.holding = true → exec (.copy ⟨f, c⟩ t) s = .next (if c.full = true then b.joined else b).refreshReady) ∧
    (a.holding = false → exec (.copy ⟨f, c⟩ t) s = .next a))) ∧
  ((∀ (f : PlkHead) (t : Time) (s a : State), (s.advance t).plkHears f = true → (s.advance t).inOrder false f = true →
    a = (s.advance t).received false f →
    (∀ d : PlkDispatch, a.follows = true → (a.rndSt d.rnd).last = none → a.whl.started = true → d.rnd < 64 →
      exec (.plkDispatch ⟨f, d⟩ t) s =
        .next (({ a with pair := { a.pair with follow := a.pair.follow ++ [⟨d, a.now, false, false⟩] } } : State).tryFollow d.rnd false)) ∧
    (∀ (d : PlkDispatch) (k : Nat), a.follows = true → (a.rndSt d.rnd).last = some k → k < d.n → a.whl.started = true → d.rnd < 64 →
      exec (.plkDispatch ⟨f, d⟩ t) s =
        .next (({ a with pair := { a.pair with follow := a.pair.follow ++ [⟨d, a.now, false, false⟩] } } : State).tryFollow d.rnd false)) ∧
    (∀ (d : PlkDispatch), (a.follows = false ∨ a.whl.started = false ∨ 64 ≤ d.rnd ∨ ∃ k, (a.rndSt d.rnd).last = some k ∧ d.n ≤ k) →
      exec (.plkDispatch ⟨f, d⟩ t) s = .next a) ∧
    (a.activeRole = true →
      (∀ r q sids, exec (.fetch ⟨f, .letters⟩ r q sids t) s = .next (a.sendLetters r q sids)) ∧
      (∀ r q list, exec (.fetch ⟨f, .askCheck⟩ r q list t) s = .next (a.sendCheck r q)) ∧
      (∀ isl g r q list, exec (.fetch ⟨f, .catchup isl g⟩ r q list t) s = .next (a.sendCatch isl g))) ∧
    (a.activeRole = false →
      (∀ r q sids, exec (.fetch ⟨f, .letters⟩ r q sids t) s = .next a) ∧ (∀ r q list, exec (.fetch ⟨f, .askCheck⟩ r q list t) s = .next a) ∧
      (∀ isl g r q list, exec (.fetch ⟨f, .catchup isl g⟩ r q list t) s = .next a)) ∧
    (∀ r q crcs, exec (.fetch ⟨f, .checkList⟩ r q crcs t) s = .next (if a.holding = true then a.checkLetters r q crcs else a))) ∧
  (∀ (q0 q1 : Nat) (t : Time) (s : State),
    (s.pair.unacked.any fun u => decide (((if u.second then q1 else q0) + 2 ^ 32 - u.seq) % 2 ^ 32 < 2 ^ 31)) = true →
    ∃ u, exec (.plkAck [q0, q1] t) s = .next u ∧ u.pair.retries = 0 ∧ u.pair.progAt = max s.now t ∧
      u.pair.unacked = s.pair.unacked.filter (fun u => !decide (((if u.second then q1 else q0) + 2 ^ 32 - u.seq) % 2 ^ 32 < 2 ^ 31))) ∧
  (∀ (t : Time) (s : State),
    ((s.powered = true ∧ s.flag Reg.PAIR_CFG_EN [] = true) → exec (.ackSend t) s = .next (s.advance t).sendAck ∧
      (s.rd Reg.PAIR_STAT_LANES [] % 2 = 1 → (s.advance t).sendAck.out = s.out ++ [.plk 0 (PlkFrame.bytes
        ⟨10, false, 0, leBytes 4 ((s.pair.rxSeq + 2 ^ 32 - 1) % 2 ^ 32) ++ leBytes 4 ((s.pair.rxSeq2 + 2 ^ 32 - 1) % 2 ^ 32)⟩ false
        (max s.now t))])) ∧
    ((s.powered = false ∨ s.flag Reg.PAIR_CFG_EN [] = false) → exec (.ackSend t) s = .next (s.advance t))) ∧
  (∀ (t : Time) (s : State), s.pair.unacked ≠ [] → s.pair.progAt + 20 * usU ≤ max s.now t →
    (s.pair.retries < 8 → ∃ u, exec (.retransmit t) s = .next u ∧ u.pair.retries = s.pair.retries + 1 ∧ u.pair.progAt = max s.now t ∧
      u.pair.unacked = s.pair.unacked) ∧
    (8 ≤ s.pair.retries → exec (.retransmit t) s = .next (s.advance t).dataDown)) ∧
  (∀ (t : Time) (s : State), (s.pair.unacked = [] ∨ max s.now t < s.pair.progAt + 20 * usU) → exec (.retransmit t) s = .next (s.advance t)) ∧
  (∀ (r : Fin 64) (t : Time) (s : State),
    ((s.pair.follow.any fun f => f.d.rnd == r.val && decide (f.since + clampN 20 2000 (s.rd Reg.PAIR_LAG_MAX_US []) * usU ≤ max s.now t)) = true →
      exec (.followLate r t) s = .next ((((s.advance t).inc Reg.PAIR_FOLLOW_LATE []).notice bPAIR 9 r 0 0).tryFollow r true)) ∧
    ((s.pair.follow.any fun f => f.d.rnd == r.val && decide (f.since + clampN 20 2000 (s.rd Reg.PAIR_LAG_MAX_US []) * usU ≤ max s.now t)) = false →
      exec (.followLate r t) s = .next (s.advance t))))

/-! ### Keys, the Logbook and the backup domain -/

/-- Keys in time (R446, R447, R450, R464): in a powered mode the slot named is judged for its expiry, a reserve whose writing ends is in force
with the counters, the counter table is written at whole seconds, a challenge older than 60 s is gone and an authorisation older than 60 s
shows 3. Service authorisation (R529): CHAL_REQ issues a new challenge, SUBMIT takes the signature over it and the bit for the next start,
and its judgement is pending until SVC_AUTH_DONE, which shows 1 for a good one and 2 for a bad one, or NEXT with 3 for a good one that is
to hold at the next start, and sets its notice. -/
def Obligations.KeysAndServiceAuthorisation : Prop :=
  ((∀ (n : Fin 256) (t : Time) (s : State), s.powered = true → exec (.keyExpiry n t) s = .next ((s.advance t).expireNow n.val)) ∧
  (∀ (n : Fin 256) (u v : Nat) (s : State), (s.keyRun n.val).pend = some (u, v) →
    exec (.reserveWriteDone n) s =
      .next (((s.setRun n.val { s.keyRun n.val with useRes := u, spduRes := v, pend := none }).writeCounters).reserve n.val)) ∧
  (∀ (n : Fin 256) (s : State), (s.keyRun n.val).pend = none → exec (.reserveWriteDone n) s = .next s) ∧
  (∀ (t : Time) (s : State), s.powered = true → t % second = 0 → exec (.counterTableWrite t) s = .next (s.advance t).writeCounters) ∧
  (∀ (t i : Time) (c : List Byte) (s : State), s.key.chal = some (c, i) → i + 60 * second ≤ max s.now t →
    ∃ u, exec (.challengeExpiry t) s = .next u ∧ u.key.chal = none) ∧
  (∀ (t : Time) (s : State), s.rd Reg.STRT_SVC_AUTH_STAT [] = 1 → s.strt.svcAt + 60 * second ≤ max s.now t →
    ∃ u, exec (.challengeExpiry t) s = .next u ∧ u.rd Reg.STRT_SVC_AUTH_STAT [] = 3)) ∧
  ((∀ (w : Word) (s : State), s.takesWrite (Reg.STRT_SVC_CHAL_REQ.off []) →
    (w.getLsbD 31 = true → ∃ u, exec (.chalReq w) s = .next u ∧ u.key.chal = some (s.newChallenge.2, s.now) ∧
      u.key.chalCtr = (s.key.chalCtr + 1) % 2 ^ 64) ∧
    (w.getLsbD 31 = false → exec (.chalReq w) s = .next s)) ∧
  (∀ (w : Word) (s : State), s.takesWrite (Reg.STRT_SVC_SUBMIT.off []) →
    (w.getLsbD 30 = true → s.strt.svcSub = none → ∃ u ok i, exec (.submit w) s = .next u ∧ u.strt.svcSub = some (w.getLsbD 29, ok, i) ∧
      ok = s.authOk s.ownerKey 0xC0 [if w.getLsbD 29 then 1 else 0] [] (s.regBytes 0x10090 24)) ∧
    (w.getLsbD 30 = false ∨ s.strt.svcSub.isSome = true → exec (.submit w) s = .next s)) ∧
  (∀ (t i : Time) (ok : Bool) (s : State), s.strt.svcSub = some (false, ok, i) →
    ∃ u, exec (.svcAuthDone t) s = .next u ∧ u.rd Reg.STRT_SVC_AUTH_STAT [] = (if ok then 1 else 2) ∧ u.strt.svcSub = none ∧ u.noticed bSTRT 5) ∧
  (∀ (t i : Time) (s : State), s.strt.svcSub = some (true, true, i) →
    ∃ u, exec (.svcAuthDone t) s = .next u ∧ u.rd Reg.STRT_SVC_AUTH_STAT [] = 3 ∧ u.flag Reg.STRT_SVC_NEXT [] = true ∧ u.noticed bSTRT 5) ∧
  (∀ (t i : Time) (s : State), s.strt.svcSub = some (true, false, i) →
    ∃ u, exec (.svcAuthDone t) s = .next u ∧ u.rd Reg.STRT_SVC_AUTH_STAT [] = 2 ∧ u.strt.svcSub = none ∧ u.noticed bSTRT 5) ∧
  (∀ (t : Time) (s : State), s.strt.svcSub = none → exec (.svcAuthDone t) s = .next (s.advance t)))

/-- Writing the Logbook (R482, R483, R488): with nothing staged nothing is written; the oldest staged event becomes the newest record at
LOG_HEAD, also after one mismatch, the oldest record making room in a full Logbook; after two mismatches or an uncorrectable word the
last-gasp sector is used and the event counts as not stored, and so it does in a sealed Logbook; a repetition count is written at most
every 100 µs; the operating seconds are saved once a minute. -/
def Obligations.LogbookWrites : Prop :=
  (∀ (f : LogFault) (t : Time) (s : State), s.powered = true → s.flag Reg.LOG_STAT_READY [] = true → s.log.clearEv = none → s.log.stage = [] →
    exec (.logRecordWrite f t) s = .next (s.advance t)) ∧
  (∀ (t : Time) (e : LogEv) (r : List LogEv) (s : State), s.powered = true → s.flag Reg.LOG_STAT_READY [] = true → s.log.clearEv = none →
    s.log.stage = e :: r → s.flag Reg.LOG_STAT_SEALED [] = false → s.log.repd = false →
    ∃ u x, exec (.logRecordWrite .none t) s = .next u ∧ exec (.logRecordWrite .mismatchOnce t) s = .next u ∧
      u.log.recs = (if 65536 ≤ s.log.recs.length then s.log.recs.drop 1 else s.log.recs) ++ [x] ∧ x.ev = e ∧
      x.seq = s.rd Reg.LOG_HEAD_SEQ [] ∧ u.rd Reg.LOG_HEAD_SEQ [] = (s.rd Reg.LOG_HEAD_SEQ [] + 1) % 2 ^ 32 ∧ u.noticed bLOG 0) ∧
  (∀ (t : Time) (e : LogEv) (r : List LogEv) (s a : State), s.powered = true → s.flag Reg.LOG_STAT_READY [] = true → s.log.clearEv = none →
    s.log.stage = e :: r → s.flag Reg.LOG_STAT_SEALED [] = false →
    a = (({ s.advance t with log := { s.log with stage := r } } : State).staged).finalRewrite →
    ∀ bad, exec (.logRecordWrite (.mismatchTwice bad) t) s = .next ((a.lastGasp bad).unstored e) ∧
      exec (.logRecordWrite (.uncorrectable bad) t) s = .next ((a.lastGasp bad).unstored e)) ∧
  (∀ (f : LogFault) (t : Time) (e : LogEv) (r : List LogEv) (s : State), s.powered = true → s.flag Reg.LOG_STAT_READY [] = true →
    s.log.clearEv = none → s.log.stage = e :: r → s.flag Reg.LOG_STAT_SEALED [] = true →
    exec (.logRecordWrite f t) s =
      .next ((({ s.advance t with log := { s.log with stage := r } } : State).staged).unstored e)) ∧
  (∀ (t : Time) (s : State), s.powered = true → s.flag Reg.LOG_STAT_READY [] = true → s.flag Reg.LOG_STAT_SEALED [] = false →
    s.log.rewAt = none → exec (.repeatRewrite t) s = .next (s.advance t).rewriteRep) ∧
  (∀ (t r : Time) (s : State), s.log.rewAt = some r → max s.now t < r + 100 * usU → exec (.repeatRewrite t) s = .next (s.advance t)) ∧
  (∀ (t : Time) (s : State), s.powered = true →
    (s.advance t).countOpsec.opsNow.opsec / 60 < (s.advance t).countOpsec.rd Reg.LOG_OPSEC_SEC [] / 60 →
    exec (.opsecSave t) s = .next (s.advance t).countOpsec.saveOps) ∧
  (∀ (t : Time) (s : State), s.powered = true →
    (s.advance t).countOpsec.rd Reg.LOG_OPSEC_SEC [] / 60 ≤ (s.advance t).countOpsec.opsNow.opsec / 60 →
    exec (.opsecSave t) s = .next (s.advance t).countOpsec)

/-- The backup clock (R494). Writes of the clock go to BKD_SET, and GO makes BKD_SEC take the staged value at the next seconds tick, in
place of the increment; the commit is refused with STATUS 3 and a Logbook record while a domain is locked; a GO written while STATUS = 1
is ignored. Without a commit a tick counts one second. -/
def Obligations.BackupClock : Prop :=
  (∀ (w : Word) (s : State), s.takesWrite (Reg.BKD_SET_COMMIT_GO.off []) →
    ((Reg.BKD_SET_COMMIT_GO.get w = 0 ∨ s.rd Reg.BKD_SET_COMMIT_STATUS [] = 1) → exec (.bkdCommit w) s = .next s) ∧
    (Reg.BKD_SET_COMMIT_GO.get w = 1 → s.rd Reg.BKD_SET_COMMIT_STATUS [] ≠ 1 → (s.domLocked 0 = true ∨ s.domLocked 1 = true) →
      exec (.bkdCommit w) s =
        .next (((s.logRefused (Reg.BKD_SET_COMMIT_GO.off []) w.toNat).wr Reg.BKD_SET_COMMIT_STATUS [] 3).bkdNotice 3 0 3 0)) ∧
    (Reg.BKD_SET_COMMIT_GO.get w = 1 → s.rd Reg.BKD_SET_COMMIT_STATUS [] ≠ 1 → s.domLocked 0 = false → s.domLocked 1 = false →
      exec (.bkdCommit w) s = .next (s.wr Reg.BKD_SET_COMMIT_STATUS [] 1))) ∧
  (∀ (t : Time) (s : State), s.rd Reg.BKD_SET_COMMIT_STATUS [] = 1 →
    ∃ u, exec (.bkdSecondTick t) s = .next u ∧ exec (.bkdCommitApply t) s = .next u ∧ u.bkdSec = s.bkdSet % 2 ^ 48 ∧
      u.rd Reg.BKD_SET_COMMIT_STATUS [] = 2 ∧ u.bkd.tickAt = max s.now t) ∧
  (∀ (t : Time) (s : State), s.rd Reg.BKD_SET_COMMIT_STATUS [] ≠ 1 →
    (∃ u, exec (.bkdSecondTick t) s = .next u ∧ u.bkdSec = (s.bkdSec + 1) % 2 ^ 48 ∧ u.bkd.tickAt = max s.now t) ∧
    exec (.bkdCommitApply t) s = .next (s.advance t))

/-- The backup alarm and PON (R498 to R502): ARM takes the alarm time and sets ARMED, which stays for a time to come and fires at once,
late, for one that is over; DISARM clears ARMED; OFF with its key starts the 10 ms after which ON and, without AUTO, the level go to 0.
The backup domain's oscillator and supply (R495 to R497, R499, R579): a stopped oscillator sets OSF; the first power of the domain, in
BACKUP, brings its fields to their reset values; native compensation samples the temperature and trims by it, MODE 2 by CAL; VBAT low
shows in its bit, with the notice when it begins. -/
def Obligations.BackupAlarmAndDomain : Prop :=
  ((∀ (w : Word) (s : State), s.takesWrite (Reg.BKD_ALM_CTL_ARM.off []) → w.getLsbD 31 = true →
    (s.bkdSec < s.bkdAlm → ∃ u, exec (.alarmArm w) s = .next u ∧ u.flag Reg.BKD_ALM_CTL_ARMED [] = true ∧ u.bkd.alarm = s.bkdAlm) ∧
    (s.bkdAlm ≤ s.bkdSec → ∃ u, exec (.alarmArm w) s = .next u ∧ u.flag Reg.BKD_ALM_CTL_ARMED [] = false ∧
      u.flag Reg.BKD_ALM_CTL_FIRED [] = true ∧ u.flag Reg.BKD_ALM_CTL_LATE [] = true)) ∧
  (∀ (w : Word) (s : State), s.takesWrite (Reg.BKD_ALM_CTL_DISARM.off []) → w.getLsbD 1 = true → w.getLsbD 31 = false →
    ∃ u, exec (.alarmDisarm w) s = .next u ∧ u.flag Reg.BKD_ALM_CTL_ARMED [] = false ∧ u.bkd = s.bkd) ∧
  (∀ (w : Word) (s : State), s.takesWrite (Reg.BKD_PON_OFF.off []) →
    (w.getLsbD 8 = true → w.toNat % 256 = 0xA5 → ∃ u, exec (.ponOff w) s = .next u ∧ u.bkd.offAt = some s.now) ∧
    ((w.getLsbD 8 = false ∨ w.toNat % 256 ≠ 0xA5) → exec (.ponOff w) s = .next s)) ∧
  (∀ (t r : Time) (s : State), s.bkd.offAt = some r →
    (max s.now t < r + 10 * msU → exec (.ponOffApply t) s = .next (s.advance t)) ∧
    (r + 10 * msU ≤ max s.now t → ∃ u, exec (.ponOffApply t) s = .next u ∧ u.flag Reg.BKD_STAT_ON [] = false ∧ u.bkd.offAt = none ∧
      u.flag Reg.BKD_PON_LEVEL [] = s.flag Reg.BKD_PON_AUTO [])) ∧
  (∀ (t : Time) (s : State), s.bkd.offAt = none → exec (.ponOffApply t) s = .next (s.advance t))) ∧
  ((∀ (t : Time) (s : State), s.flag Reg.BKD_STAT_OSF [] = false → s.powered = true →
    ∃ u, exec (.oscStop t) s = .next u ∧ u.flag Reg.BKD_STAT_OSF [] = true ∧ u.noticed bBKD 2) ∧
  (∀ (t : Time) (s : State), s.flag Reg.BKD_STAT_OSF [] = true → exec (.oscStop t) s = .next (s.advance t)) ∧
  (∀ (t : Time) (s : State), s.powered = false →
    ∃ u, exec (.backupDomainPowered t) s = .next u ∧ u.bkd = { BkdSt.reset with tickAt := max s.now t } ∧ u.flag Reg.BKD_STAT_OSF [] = true) ∧
  (∀ (temp : Word) (s : State), s.rd Reg.BKD_TC_MODE [] % 2 = 1 →
    exec (.tcWindow temp) s = .next ((s.wr Reg.BKD_STAT_TEMP [] temp.toNat).wr Reg.BKD_CORR_N []
      (ofSigned 16 (s.tcN temp.toNat)))) ∧
  (∀ s : State, s.rd Reg.BKD_TC_MODE [] = 2 →
    exec .trimWindow s = .next (s.wr Reg.BKD_CORR_N [] (ofSigned 16 (2 * toSigned 8 (s.rd Reg.BKD_TRIM_CAL []))))) ∧
  (∀ s : State, s.flag Reg.BKD_STAT_VBAT_LOW [] = false → s.powered = true →
    ∃ u, exec (.vbatLowChange true) s = .next u ∧ u.flag Reg.BKD_STAT_VBAT_LOW [] = true ∧ u.noticed bBKD 4) ∧
  (∀ s : State, exec (.vbatLowChange false) s = .next (s.setFlag Reg.BKD_STAT_VBAT_LOW [] false)))

/-! ### Registers and the board -/

/-- GLB_SCRATCH (R544): bits [31:0], read and written as a whole, 0 at reset; a warm start keeps the word, and a cold start from BACKUP
brings it back to 0. -/
def Obligations.ScratchRegister : Prop :=
  (∀ (w : Word) (s : State), s.powered = true → s.mode ≠ .loading → exec (.registerWrite 0x8 w 15) s = .next (s.setWord 0x8 w)) ∧
  (∀ s : State, s.powered = true → s.mode ≠ .loading → s.hif.latchAddr ≠ some 0x8 →
    exec (.counterLatchHigh 0x8) s = .next (s.renewed.emit (.readData (s.word 0x8)))) ∧
  resetWord 0x8 = 0#32 ∧
  (∀ (t : Time) (lowNs : Nat) (s : State), 1000 ≤ lowNs → s.mode ≠ .backup → s.mode ≠ .loading →
    ∃ u, exec (.wrstNLow t lowNs) s = .next u ∧ u.word 0x8 = s.word 0x8) ∧
  (∀ (t : Time) (s : State), s.powered = false → ∃ u, exec (.coldStart t) s = .next u ∧ u.word 0x8 = 0#32)

/-- Unassigned offsets and partial writes (R9, R536, R537): a write to an offset that holds no field changes nothing; a write with some
byte enables off leaves the register and is recorded; in BACKUP no register answers; a read shows 0 in write-only bits. Writes in a pair
(R406, R415): the standby unit of a pair refuses and records a write to a mirrored register, the active unit holds it for the next
boundary, where both units apply it, and a unit in neither role, or a register that is not mirrored, takes it at once. -/
def Obligations.RegisterWrites : Prop :=
  ((∀ (addr : Nat) (w : Word) (be : Fin 16) (s : State), (fieldsAt (addr / 4 * 4)).isEmpty = true → exec (.registerWrite addr w be) s = .next s) ∧
  (∀ (addr : Nat) (w : Word) (be : Fin 16) (s : State), s.powered = false →
    exec (.registerWrite addr w be) s = .next s ∧ exec (.counterLatchLow addr) s = .next s) ∧
  (∀ (addr : Nat) (w : Word) (be : Fin 16) (s : State), s.responds (addr / 4 * 4) = true → addr < 0x1000000 →
    (fieldsAt (addr / 4 * 4)).isEmpty = false → be.val ≠ 15 →
    exec (.registerWrite addr w be) s = .next (s.logRefused (addr / 4 * 4) w.toNat))) ∧
  ((∀ (w : Word) (s : State), s.responds (Reg.ADM_DECIDE_ENTRY.off []) = true →
    (s.holding = true → exec (.admDecide w) s = .next (s.logRefused (Reg.ADM_DECIDE_ENTRY.off []) w.toNat)) ∧
    (s.activeRole = true →
      exec (.admDecide w) s =
        .next { s with pair := { s.pair with mirror := s.pair.mirror ++ [(Reg.ADM_DECIDE_ENTRY.off [], w, 15)] } })) ∧
  (∀ (w : Word) (s : State), s.responds (Reg.ALM_ACK_AM.off []) = true →
    (s.holding = true → exec (.almAck w) s = .next (s.logRefused (Reg.ALM_ACK_AM.off []) w.toNat)) ∧
    (s.activeRole = true →
      exec (.almAck w) s = .next { s with pair := { s.pair with mirror := s.pair.mirror ++ [(Reg.ALM_ACK_AM.off [], w, 15)] } })) ∧
  (∀ (r : Fin 64) (w : Word) (s : State), s.responds (Reg.WHL_RND_COMMIT_GO.off [r.val]) = true →
    (s.holding = true → exec (.roundCommit r w) s = .next (s.logRefused (Reg.WHL_RND_COMMIT_GO.off [r.val]) w.toNat)) ∧
    (s.activeRole = true →
      exec (.roundCommit r w) s =
        .next { s with pair := { s.pair with mirror := s.pair.mirror ++ [(Reg.WHL_RND_COMMIT_GO.off [r.val], w, 15)] } })))

/-- Counters of two words (R538, R539): a read of the low word latches the high word, and the next read of that high word returns the
latched value; a word that is not latched is read as it stands, values that depend on time being renewed first; where no register answers
a read in a powered mode returns 0. Maxima that a write clears (R178, R179, R220, R223): any value written to MAX_DSP, MAX_WAIT or HIGH
clears it and nothing else, and any value written to MAX_L clears it; a write of TJ_PEAK sets it to the present temperature. -/
def Obligations.CounterLatchAndMaxima : Prop :=
  ((∀ (addr : Nat) (s : State), s.powered = true → s.responds (addr / 4 * 4) = false →
    exec (.counterLatchLow addr) s = .next (s.emit (.readData 0#32)) ∧ exec (.counterLatchHigh addr) s = .next (s.emit (.readData 0#32))) ∧
  (∀ (addr : Nat) (s : State), s.responds (addr / 4 * 4) = true → counterLow (addr / 4 * 4) = true →
    ∃ u, exec (.counterLatchLow addr) s = .next u ∧ u.hif.latch = s.renewed.word (addr / 4 * 4 + 4) ∧
      u.hif.latchAddr = some (addr / 4 * 4 + 4) ∧ u.out = s.renewed.out ++ [.readData (s.renewed.shown (addr / 4 * 4))]) ∧
  (∀ (addr : Nat) (s : State), s.responds (addr / 4 * 4) = true → s.hif.latchAddr = some (addr / 4 * 4) →
    exec (.counterLatchHigh addr) s = .next (s.renewed.emit (.readData s.hif.latch))) ∧
  (∀ (addr : Nat) (s : State), s.responds (addr / 4 * 4) = true → s.hif.latchAddr ≠ some (addr / 4 * 4) →
    exec (.counterLatchHigh addr) s = .next (s.renewed.emit (.readData (s.renewed.shown (addr / 4 * 4)))))) ∧
  ((∀ (r : Fin 64) (w : Word) (s : State), s.takesWrite (Reg.WHL_RND_MAX_DSP.off [r.val]) →
    exec (.maxDspClear r w) s = .next (s.wr Reg.WHL_RND_MAX_DSP [r.val] 0)) ∧
  (∀ (sid : Fin 16392) (w : Word) (s : State),
    s.takesWrite (if sid.val < 16384 then Reg.STAB_MAX_L.off [sid.val] else Reg.LSTAB_MAX_L.off [sid.val - 16384]) →
    ∃ u, exec (.maxLClear sid w) s = .next u ∧ u.stabRd Reg.STAB_MAX_L Reg.LSTAB_MAX_L sid.val = 0) ∧
  (∀ (n : Fin 64) (w : Word) (s : State), s.takesWrite (Reg.SRT_MAX_WAIT.off [n.val]) →
    exec (.maxWaitClear n w) s = .next (s.wr Reg.SRT_MAX_WAIT [n.val] 0)) ∧
  (∀ (c : Fin 4) (w : Word) (s : State), s.takesWrite (Reg.SOF_CLS_HIGH_HIGH.off [c.val]) →
    exec (.clsHighClear c w) s = .next (s.wr Reg.SOF_CLS_HIGH_HIGH [c.val] 0)) ∧
  (∀ (w : Word) (s : State), s.takesWrite (Reg.PWR_TJ_PEAK_PEAK.off []) →
    exec (.tjPeakReset w) s = .next (s.wr Reg.PWR_TJ_PEAK_PEAK [] (s.rd Reg.PWR_TJ_TJ []))))

/-- Notice registers and vectors (R12, R14, R545 to R548): a write of NOTICE is taken by `noticeWrite`, which in NET_NOTICE clears the bits
written as 1 and leaves the others; a write of NOTICE_EN is taken by `enableWrite`, which stores it, refreshes GLB_NOTICE_SUM and raises the
block's vector where a pending bit is enabled then and not otherwise; unmasking a vector whose message is pending sends it and clears its
pending bit. -/
def Obligations.NoticeRegisters : Prop :=
  (∀ (b : Fin 23) (w : Word) (s : State), s.takesWrite (noticeOff b.val) →
    exec (.noticeClear b w) s = .next (s.noticeWrite b.val w)) ∧
  (∀ (w : Word) (s : State), s.takesWrite (noticeOff bNET) →
    ∃ u, exec (.noticeClear 4 w) s = .next u ∧
      ∀ i, i < 8 → (u.word (noticeOff bNET)).getLsbD i = ((s.word (noticeOff bNET)).getLsbD i && !w.getLsbD i)) ∧
  (∀ (b : Fin 23) (w : Word) (s : State), s.takesWrite (noticeOff b.val + 4) →
    exec (.noticeEnable b w) s = .next (s.enableWrite b.val w)) ∧
  (∀ (b : Nat) (w : Word) (s a : State), a = (s.store (noticeOff b + 4) w).refreshSum →
    (a.word (noticeOff b) &&& a.word (noticeOff b + 4) = 0#32 → s.enableWrite b w = a) ∧
    (a.word (noticeOff b) &&& a.word (noticeOff b + 4) ≠ 0#32 → s.enableWrite b w = a.raiseVector ((a.word (noticeOff b + 8)).toNat % 64))) ∧
  (∀ (v : Fin 64) (s : State), s.takesWrite (Reg.MSIX_CTRL.off [v.val]) → s.hif.msixEn = true → s.flag Reg.HIF_STAT_BME [] = true →
    (s.word (Reg.MSIX_PBA.off [v.val / 32])).getLsbD (v.val % 32) = true →
    ∃ u, exec (.msixUnmask v) s = .next u ∧ u.out = s.out ++ [.msix v.val] ∧
      (u.word (Reg.MSIX_PBA.off [v.val / 32])).getLsbD (v.val % 32) = false ∧ u.rd Reg.MSIX_CTRL [v.val] % 2 = 0)

/-- What a NOTICE event does in every block (R14, R480, R547): its bit is set, no other bit of a NOTICE register is cleared, and nothing
but the notice registers, the Logbook's own state and registers, the MSI-X region and the outputs changes. -/
def Obligations.NoticeSetsItsBit : Prop :=
  ∀ (s : State) (b : Fin 23) (bit d0 d1 d2 : Nat), bit < 32 →
    (s.notice b bit d0 d1 d2).noticed b bit ∧
    (∀ c i : Nat, s.noticed c i → (s.notice b bit d0 d1 d2).noticed c i) ∧
    Frame [.log, .out] (fun off => areaOf off = Area.notice ∨ areaOf off = Area.log ∨ areaOf off = Area.msix) s (s.notice b bit d0 d1 d2)

/-- Supply excursions (R597): a rail outside its recommended range sets its bit in LOW_SEEN or HIGH_SEEN, and the first such event after
the bit was cleared writes a Logbook record with code 0x82; PWR_SUPPLY.OUT shows the rail while it is out. -/
def Obligations.SupplyExcursions : Prop :=
  (∀ (high : Bool) (rail : Fin 8) (s : State), s.powered = true →
    ∃ a, a = (s.railBit (if high then Reg.PWR_SUPPLY_HIGH_SEEN else Reg.PWR_SUPPLY_LOW_SEEN) (2 ^ rail.val) true).railBit Reg.PWR_SUPPLY_OUT
        (2 ^ rail.val) true ∧
      a.rd (if high then Reg.PWR_SUPPLY_HIGH_SEEN else Reg.PWR_SUPPLY_LOW_SEEN) [] / 2 ^ rail.val % 2 = 1 ∧
      a.rd Reg.PWR_SUPPLY_OUT [] / 2 ^ rail.val % 2 = 1 ∧
      exec (.supplyExcursion high rail true) s =
        .next (if s.rd (if high then Reg.PWR_SUPPLY_HIGH_SEEN else Reg.PWR_SUPPLY_LOW_SEEN) [] / 2 ^ rail.val % 2 = 0 then
          a.logEvent bPWR 0x82 rail (if high then 1 else 0) 0 else a)) ∧
  (∀ (high : Bool) (rail : Fin 8) (s : State), s.powered = true →
    exec (.supplyExcursion high rail false) s = .next (s.railBit Reg.PWR_SUPPLY_OUT (2 ^ rail.val) false))

/-- Temperature and I²C (R590, R594, R598): eight sensors give the hottest as HOT and TJ, PEAK keeps the highest, and WARN and CRIT are
judged; GO of an idle I²C port starts the transaction its fields describe with STATUS 1, and its end shows STATUS 2 with the bytes read,
or 3. -/
def Obligations.TemperatureAndI2c : Prop :=
  (∀ (xs : List Word) (t : Time) (s : State), s.powered = true → xs.length = 8 →
    ∃ a : State, a.rd Reg.PWR_TJ_HOT [] = (hottest xs).1 % 2 ^ Reg.PWR_TJ_HOT.width ∧ a.rd Reg.PWR_TJ_TJ [] = ofSigned 16 (hottest xs).2 % 2 ^ 16 ∧
      a.now = max s.now t ∧ exec (.tjSample xs t) s = .next a.thermCheck) ∧
  (∀ (w : Word) (s : State), s.takesWrite (Reg.PWR_I2C_CTL_GO.off []) → w.getLsbD 31 = true → s.rd Reg.PWR_I2C_CTL_STATUS [] ≠ 1 →
    ∃ u, exec (.i2cGo w) s = .next u ∧ u.rd Reg.PWR_I2C_CTL_STATUS [] = 1 ∧ u.mem.i2c.isSome = true) ∧
  (∀ (ok : Bool) (data : Word) (s : State), s.mem.i2c = none → exec (.i2cDone ok data) s = .next s) ∧
  (∀ (data : Word) (read : Bool) (len : Nat) (s : State), s.mem.i2c = some (read, len) →
    (∃ u, exec (.i2cDone true data) s = .next u ∧ u.rd Reg.PWR_I2C_CTL_STATUS [] = 2 ∧ u.mem.i2c = none ∧
      (read = false → u.rd Reg.PWR_I2C_DATA_DATA [] = s.rd Reg.PWR_I2C_DATA_DATA [])) ∧
    (∃ u, exec (.i2cDone false data) s = .next u ∧ u.rd Reg.PWR_I2C_CTL_STATUS [] = 3 ∧ u.mem.i2c = none))

/-! ### Every form -/

/-- Every form of every command completes, from reset on: in every state and for all operands, `exec` answers a next state, of which
everything stands that `mayTouch` does not list for the command. The block has no fault and no refusal (R36, R536, R537): a command it
turns away is a next state too. What each form does in that next state is stated command by command below and above. -/
def Obligations.EveryCommandCompletes : Prop :=
  ∀ (c : Instr) (s : State), ∃ u : State, exec c s = .next u ∧ (mayTouch c).frame s u
end

