-- ==== Sys2Proof/Laws/Within.lean ====
section
/-! SUPPORT. What every operation of the model may change: parts of the state and areas of BAR0, as the bits of a mask. -/
namespace Sys2Proof.Machine

/-! ### Masks -/

/-- Every bit of the first mask is one of the second. -/
abbrev Incl (a b : Nat) : Prop := a ||| b = b

/-- The bit of the area an offset lies in. -/
def areaBit (off : Nat) : Nat := 2 ^ (32 + areaOf off)

/-- The bits of all areas. -/
def allAreas : Nat := 0x3fffffffffff00000000

/-- The words of a field from the first to behind the last. -/
def Fld.span (f : Fld) : Nat := (f.dims.map fun d => d.1 * (d.2 - 1)).sum + 1

/-- Every word of a field lies in one area. -/
def Fld.fits (f : Fld) : Bool :=
  f.dims.isEmpty ||
    ((noticeOffs.all fun o => decide (o < f.base) || decide (f.base + f.span ≤ o)) &&
      areaStarts.countP (· ≤ f.base) == areaStarts.countP (· ≤ f.base + f.span - 1))

/-- The bit of the area of a field. -/
def fldMask (f : Fld) : Nat := if f.fits then areaBit f.base else allAreas

variable {a b M : Nat}

theorem Incl.bit {i : Nat} (h : Incl a b) (k : a.testBit i = true) : b.testBit i = true := by
  rw [← h, Nat.testBit_or, k]; rfl

theorem Incl.of (h : Incl b M) (k : Incl a b) : Incl a M := by
  unfold Incl at *; rw [← h, ← Nat.or_assoc, k]

theorem areaBit_bit (off : Nat) : (areaBit off).testBit (32 + areaOf off) = true := by simp [areaBit]

theorem Incl.area {off off' : Nat} (h : Incl (areaBit off) M) (k : areaOf off' = areaOf off) : M.testBit (32 + areaOf off') = true := by
  rw [k]; exact h.bit (areaBit_bit off)

theorem areaOf_lt (off : Nat) : areaOf off < 46 := by
  unfold areaOf
  split
  · omega
  · exact Nat.lt_of_le_of_lt List.countP_le_length (by decide)

theorem sub_any {off : Nat} (h : Incl allAreas M) : Incl (areaBit off) M := by
  refine h.of ?_
  have := areaOf_lt off
  unfold areaBit
  generalize areaOf off = n at *
  interval_cases n <;> rfl

theorem sub_anyf {f : Fld} (h : Incl allAreas M) : Incl (fldMask f) M := by
  unfold fldMask; split
  · exact sub_any h
  · exact h

theorem sub_ite {c : Prop} [Decidable c] {f g : Fld} (h : Incl (fldMask f) M) (k : Incl (fldMask g) M) :
    Incl (fldMask (if c then f else g)) M := by split; exacts [h, k]

theorem areaOf_noticeOff (b k : Nat) (hk : k = 0 ∨ k = 4 ∨ k = 8) : areaOf (noticeOff b + k) = 0 := by
  have h : noticeOff b + k ∈ noticeOffs := by
    unfold noticeOffs
    refine List.mem_cons_of_mem _ (List.mem_flatMap.mpr ?_)
    rcases Nat.lt_or_ge b 23 with hb | hb
    · exact ⟨b, List.mem_range.mpr hb, by rcases hk with rfl | rfl | rfl <;> simp⟩
    · refine ⟨0, by decide, ?_⟩
      have : noticeOff b = noticeOff 0 := by unfold noticeOff; simp [hb]
      rw [this]
      rcases hk with rfl | rfl | rfl <;> simp
  unfold areaOf
  rw [if_pos (by simpa using h)]

theorem sub_notice {b k : Nat} (h : Incl 0x100000000 M) (hk : k = 0 ∨ k = 4 ∨ k = 8 := by decide) : Incl (areaBit (noticeOff b + k)) M := by
  unfold areaBit; rw [areaOf_noticeOff b k hk]; exact h

theorem sub_notice0 {b : Nat} (h : Incl 0x100000000 M) : Incl (areaBit (noticeOff b)) M := sub_notice (k := 0) h

theorem idxOff_lt {ds : List (Nat × Nat)} {idx : List Nat} (h : idxOk ds idx = true) :
    idxOff ds idx ≤ (ds.map fun d => d.1 * (d.2 - 1)).sum := by
  induction ds generalizing idx with
  | nil => simp [idxOff]
  | cons d ds ih =>
    cases idx with
    | nil => simp [idxOk] at h
    | cons i is =>
      obtain ⟨st, n⟩ := d
      simp only [idxOk, Bool.and_eq_true, decide_eq_true_eq] at h
      simp only [idxOff, List.map_cons, List.sum_cons]
      exact Nat.add_le_add (Nat.mul_le_mul_left _ (by omega)) (ih h.2)

theorem areaOf_fld {f : Fld} {idx : List Nat} (hf : f.fits = true) (h : idxOk f.dims idx = true) : areaOf (f.off idx) = areaOf f.base := by
  unfold Fld.fits at hf
  have hi := idxOff_lt h
  rw [Bool.or_eq_true] at hf
  rcases hf with hf | hf
  · have : f.dims = [] := by simpa using hf
    unfold Fld.off; rw [this]; cases idx <;> rfl
  · simp only [Bool.and_eq_true, List.all_eq_true, Bool.or_eq_true, decide_eq_true_eq, beq_iff_eq] at hf
    have hs : f.span = (f.dims.map fun d => d.1 * (d.2 - 1)).sum + 1 := rfl
    have lo : f.base ≤ f.off idx := Nat.le_add_right _ _
    have up : f.off idx ≤ f.base + f.span - 1 := by unfold Fld.off; omega
    have no : ∀ o, f.base ≤ o → o ≤ f.base + f.span - 1 → noticeOffs.contains o = false := by
      intro o h1 h2
      rw [Bool.eq_false_iff]
      intro hc
      have := hf.1 o (by simpa using hc)
      omega
    have mono : ∀ {p q : Nat}, p ≤ q → areaStarts.countP (· ≤ p) ≤ areaStarts.countP (· ≤ q) := by
      intro p q hpq
      exact List.countP_mono_left fun e _ he => by simp only [decide_eq_true_eq] at he ⊢; omega
    unfold areaOf
    rw [no _ lo up, no _ (Nat.le_refl _) (by omega)]
    exact Nat.le_antisymm (hf.2 ▸ mono up) (mono lo)

/-! ### What a chain of operations may change -/

/-- From `s` to `t` only the parts and the words of the areas of a mask change. -/
structure Within (M : Nat) (s t : State) : Prop where
  parts : ∀ p : Part, M.testBit p.ctorIdx = false → p.same s t
  words : ∀ off : Nat, M.testBit (32 + areaOf off) = false → t.word off = s.word off

/-- What a command answers changes only what a mask admits. -/
def WithinRes (M : Nat) (s : State) (r : Res) : Prop := ∀ t, r = .next t → Within M s t

variable {s x y : State}

theorem Part.same_refl (p : Part) : p.same s s := by cases p <;> rfl

theorem Part.same_trans {p : Part} (h : p.same s x) (k : p.same x y) : p.same s y := by
  cases p <;> exact Eq.trans k h

theorem Within.refl (s : State) : Within M s s := ⟨fun p _ => p.same_refl, fun _ _ => rfl⟩

theorem Within.trans (h : Within M s x) (k : Within M x y) : Within M s y :=
  ⟨fun p e => Part.same_trans (h.parts p e) (k.parts p e), fun o e => (k.words o e).trans (h.words o e)⟩

theorem Within.upd (h : Within M s x) (hr : y.regs = x.regs) (hp : ∀ p : Part, M.testBit p.ctorIdx = false → p.same x y) : Within M s y :=
  h.trans ⟨hp, fun o _ => by unfold State.word; rw [hr]⟩

theorem Within.ite {c : Prop} [Decidable c] {x y : State} (hy : Within M s y) (hx : Within M s y → Within M s x) :
    Within M s (if c then x else y) := by split; exacts [hx hy, hy]

theorem Within.ite1 {α : Type} {c : Prop} [Decidable c] {x y : State × α} (hy : Within M s y.1) (hx : Within M s y.1 → Within M s x.1) :
    Within M s (if c then x else y).1 := by split; exacts [hx hy, hy]

theorem Within.ite2 {α : Type} {c : Prop} [Decidable c] {x y : α × State} (hy : Within M s y.2) (hx : Within M s y.2 → Within M s x.2) :
    Within M s (if c then x else y).2 := by split; exacts [hx hy, hy]

theorem Within.forEach {α : Type} {xs : List α} {f : α → State → State} (h : Within M s x)
    (hf : ∀ a y, Within M s y → Within M s (f a y)) : Within M s (forEach xs f x) := by
  unfold Machine.forEach
  induction xs generalizing x with
  | nil => exact h
  | cons a r ih => exact ih (hf a x h)

theorem Within.foldl {α : Type} {xs : List α} {f : State → α → State} (h : Within M s x)
    (hf : ∀ y a, Within M s y → Within M s (f y a)) : Within M s (xs.foldl f x) := by
  induction xs generalizing x with
  | nil => exact h
  | cons a r ih => exact ih (hf x a h)

theorem Within.foldl1 {α β : Type} {xs : List α} {p : State × β} {f : State × β → α → State × β} (h : Within M s p.1)
    (hf : ∀ y a, Within M s y.1 → Within M s (f y a).1) : Within M s (xs.foldl f p).1 := by
  induction xs generalizing p with
  | nil => exact h
  | cons a r ih => exact ih (hf p a h)

theorem Within.of_fst {α : Type} {p : State × α} {a : α} (e : p = (x, a)) (h : Within M s p.1) : Within M s x := by rw [e] at h; exact h

theorem Within.of_snd {α : Type} {p : α × State} {a : α} (e : p = (a, x)) (h : Within M s p.2) : Within M s x := by rw [e] at h; exact h

theorem Within.mk1 {α : Type} {a : α} (h : Within M s x) : Within M s (x, a).1 := h

theorem Within.mk2 {α : Type} {a : α} (h : Within M s x) : Within M s (a, x).2 := h

theorem WithinRes.next (h : Within M s x) : WithinRes M s (.next x) := fun t e => by injection e with e; exact e ▸ h

theorem WithinRes.ite {c : Prop} [Decidable c] {x y : Res} (hy : WithinRes M s y) (hx : WithinRes M s x) :
    WithinRes M s (if c then x else y) := by split; exacts [hx, hy]

/-! ### The primitive operations -/

theorem sget_serase {α : Type} {m : List (Nat × α)} {k j : Nat} {d : α} (h : j ≠ k) : sget (serase m k) j d = sget m j d := by
  induction m with
  | nil => rfl
  | cons a r ih =>
    obtain ⟨a, v⟩ := a
    unfold serase at *
    rw [List.filter_cons]
    by_cases e : a = k
    · subst e
      simp only [bne_self_eq_false, Bool.false_eq_true, if_false]
      rw [ih, sget]
      simp [Ne.symm h]
    · simp only [bne_iff_ne, ne_eq, e, not_false_eq_true, if_true, sget]
      split
      · rfl
      · exact ih

theorem sget_sput {α : Type} {m : List (Nat × α)} {k j : Nat} {v d : α} (h : j ≠ k) : sget (sput m k v) j d = sget m j d := by
  induction m with
  | nil => simp [sput, sget, Ne.symm h]
  | cons a r ih =>
    obtain ⟨a, w⟩ := a
    rw [sput]
    split
    · simp [sget, Ne.symm h]
    · simp only [sget]
      split
      · rfl
      · exact ih

theorem sget_sput_same {α : Type} {m : List (Nat × α)} {k : Nat} {v d : α} (h : ∀ e ∈ m, e.1 ≠ k) : sget (sput m k v) k d = v := by
  induction m with
  | nil => simp [sput, sget]
  | cons a r ih =>
    obtain ⟨a, w⟩ := a
    have ha : a ≠ k := h (a, w) (by simp)
    rw [sput]
    split
    · simp [sget]
    · simp only [sget, ha, if_false]
      exact ih fun e he => h e (by simp [he])

/-- A written word reads as written. -/
@[simp] theorem State.word_setWord (s : State) (off : Nat) (w : Word) : (s.setWord off w).word off = w := by
  unfold State.word State.setWord
  dsimp only
  split
  · rename_i e
    rw [e]
    have : ∀ m : List (Nat × Word), sget (serase m off) off (resetWord off) = resetWord off := by
      intro m
      induction m with
      | nil => rfl
      | cons a r ih =>
        unfold serase at *
        rw [List.filter_cons]
        split
        · rename_i ne
          rw [sget]
          simp only [bne_iff_ne, ne_eq] at ne
          rw [if_neg ne]; exact ih
        · exact ih
    exact this _
  · exact sget_sput_same fun e he => by simpa [serase] using (List.mem_filter.mp he).2

/-- A write of a word leaves every other word. -/
theorem State.word_setWord_ne (s : State) {off o : Nat} (w : Word) (h : o ≠ off) : (s.setWord off w).word o = s.word o := by
  unfold State.word State.setWord
  dsimp only
  split
  · exact sget_serase h
  · unfold sset; rw [sget_sput h, sget_serase h]

theorem State.setWord_in {off : Nat} {w : Word} (k : Incl (areaBit off) M) (h : Within M s x) : Within M s (x.setWord off w) :=
  h.trans ⟨fun p _ => by cases p <;> rfl, fun o e => State.word_setWord_ne x w fun he => by
    subst he; rw [k.area rfl] at e; exact absurd e (by decide)⟩

theorem State.put_in {base off : Nat} {w : Word} (k : Incl (areaBit base) M) (h : Within M s x) : Within M s (x.put base off w) := by
  unfold State.put
  split
  · rename_i e
    refine State.setWord_in ?_ h
    unfold areaBit at *; rw [e]; exact k
  · exact h

theorem State.wr_in {f : Fld} {idx : List Nat} {v : Nat} (k : Incl (fldMask f) M) (h : Within M s x) : Within M s (x.wr f idx v) := by
  unfold State.wr
  split
  · rename_i ok
    refine State.setWord_in ?_ h
    unfold fldMask at k
    split at k
    · rename_i hf
      unfold areaBit at *; rw [areaOf_fld hf ok]; exact k
    · exact sub_any k
  · exact h

theorem State.stabWr_in {f g : Fld} {sid v : Nat} (k : Incl (fldMask f) M) (l : Incl (fldMask g) M) (h : Within M s x) :
    Within M s (x.stabWr f g sid v) := by
  unfold State.stabWr stab
  split
  · exact State.wr_in k h
  · exact State.wr_in l h

/-! ### Updates of parts -/

theorem Within.set_now {now'} (h : Within M s x) (k : Incl 0x2 M) :
    Within M s (State.mk x.powered x.regs now' x.log x.sof x.hif x.net x.adm x.whl x.tb x.key x.alm x.glb x.strt x.nvs x.pair x.acq x.nrg x.cap x.cmp x.osc x.isl x.bkd x.mem x.out x.free x.pending) :=
  h.upd rfl fun p e => by cases p <;> first | rfl | exact Bool.noConfusion (e.symm.trans (k.bit (by decide)))

theorem Within.set_out {out'} (h : Within M s x) (k : Incl 0x800000 M) :
    Within M s (State.mk x.powered x.regs x.now x.log x.sof x.hif x.net x.adm x.whl x.tb x.key x.alm x.glb x.strt x.nvs x.pair x.acq x.nrg x.cap x.cmp x.osc x.isl x.bkd x.mem out' x.free x.pending) :=
  h.upd rfl fun p e => by cases p <;> first | rfl | exact Bool.noConfusion (e.symm.trans (k.bit (by decide)))

theorem Within.set_free {free'} (h : Within M s x) (k : Incl 0x1000000 M) :
    Within M s (State.mk x.powered x.regs x.now x.log x.sof x.hif x.net x.adm x.whl x.tb x.key x.alm x.glb x.strt x.nvs x.pair x.acq x.nrg x.cap x.cmp x.osc x.isl x.bkd x.mem x.out free' x.pending) :=
  h.upd rfl fun p e => by cases p <;> first | rfl | exact Bool.noConfusion (e.symm.trans (k.bit (by decide)))

theorem Within.set_log {log'} (h : Within M s x) (k : Incl 0x4 M) :
    Within M s (State.mk x.powered x.regs x.now log' x.sof x.hif x.net x.adm x.whl x.tb x.key x.alm x.glb x.strt x.nvs x.pair x.acq x.nrg x.cap x.cmp x.osc x.isl x.bkd x.mem x.out x.free x.pending) :=
  h.upd rfl fun p e => by cases p <;> first | rfl | exact Bool.noConfusion (e.symm.trans (k.bit (by decide)))

theorem Within.set_hif {hif'} (h : Within M s x) (k : Incl 0x10 M) :
    Within M s (State.mk x.powered x.regs x.now x.log x.sof hif' x.net x.adm x.whl x.tb x.key x.alm x.glb x.strt x.nvs x.pair x.acq x.nrg x.cap x.cmp x.osc x.isl x.bkd x.mem x.out x.free x.pending) :=
  h.upd rfl fun p e => by cases p <;> first | rfl | exact Bool.noConfusion (e.symm.trans (k.bit (by decide)))

theorem Within.set_sof {sof'} (h : Within M s x) (k : Incl 0x8 M) :
    Within M s (State.mk x.powered x.regs x.now x.log sof' x.hif x.net x.adm x.whl x.tb x.key x.alm x.glb x.strt x.nvs x.pair x.acq x.nrg x.cap x.cmp x.osc x.isl x.bkd x.mem x.out x.free x.pending) :=
  h.upd rfl fun p e => by cases p <;> first | rfl | exact Bool.noConfusion (e.symm.trans (k.bit (by decide)))

theorem Within.set_net {net'} (h : Within M s x) (k : Incl 0x20 M) :
    Within M s (State.mk x.powered x.regs x.now x.log x.sof x.hif net' x.adm x.whl x.tb x.key x.alm x.glb x.strt x.nvs x.pair x.acq x.nrg x.cap x.cmp x.osc x.isl x.bkd x.mem x.out x.free x.pending) :=
  h.upd rfl fun p e => by cases p <;> first | rfl | exact Bool.noConfusion (e.symm.trans (k.bit (by decide)))

theorem Within.set_now_tb {now' tb'} (h : Within M s x) (k : Incl 0x102 M) :
    Within M s (State.mk x.powered x.regs now' x.log x.sof x.hif x.net x.adm x.whl tb' x.key x.alm x.glb x.strt x.nvs x.pair x.acq x.nrg x.cap x.cmp x.osc x.isl x.bkd x.mem x.out x.free x.pending) :=
  h.upd rfl fun p e => by cases p <;> first | rfl | exact Bool.noConfusion (e.symm.trans (k.bit (by decide)))

theorem Within.set_key {key'} (h : Within M s x) (k : Incl 0x200 M) :
    Within M s (State.mk x.powered x.regs x.now x.log x.sof x.hif x.net x.adm x.whl x.tb key' x.alm x.glb x.strt x.nvs x.pair x.acq x.nrg x.cap x.cmp x.osc x.isl x.bkd x.mem x.out x.free x.pending) :=
  h.upd rfl fun p e => by cases p <;> first | rfl | exact Bool.noConfusion (e.symm.trans (k.bit (by decide)))

theorem Within.set_pair {pair'} (h : Within M s x) (k : Incl 0x4000 M) :
    Within M s (State.mk x.powered x.regs x.now x.log x.sof x.hif x.net x.adm x.whl x.tb x.key x.alm x.glb x.strt x.nvs pair' x.acq x.nrg x.cap x.cmp x.osc x.isl x.bkd x.mem x.out x.free x.pending) :=
  h.upd rfl fun p e => by cases p <;> first | rfl | exact Bool.noConfusion (e.symm.trans (k.bit (by decide)))

theorem Within.set_alm {alm'} (h : Within M s x) (k : Incl 0x400 M) :
    Within M s (State.mk x.powered x.regs x.now x.log x.sof x.hif x.net x.adm x.whl x.tb x.key alm' x.glb x.strt x.nvs x.pair x.acq x.nrg x.cap x.cmp x.osc x.isl x.bkd x.mem x.out x.free x.pending) :=
  h.upd rfl fun p e => by cases p <;> first | rfl | exact Bool.noConfusion (e.symm.trans (k.bit (by decide)))

theorem Within.set_whl {whl'} (h : Within M s x) (k : Incl 0x80 M) :
    Within M s (State.mk x.powered x.regs x.now x.log x.sof x.hif x.net x.adm whl' x.tb x.key x.alm x.glb x.strt x.nvs x.pair x.acq x.nrg x.cap x.cmp x.osc x.isl x.bkd x.mem x.out x.free x.pending) :=
  h.upd rfl fun p e => by cases p <;> first | rfl | exact Bool.noConfusion (e.symm.trans (k.bit (by decide)))

theorem Within.set_osc {osc'} (h : Within M s x) (k : Incl 0x80000 M) :
    Within M s (State.mk x.powered x.regs x.now x.log x.sof x.hif x.net x.adm x.whl x.tb x.key x.alm x.glb x.strt x.nvs x.pair x.acq x.nrg x.cap x.cmp osc' x.isl x.bkd x.mem x.out x.free x.pending) :=
  h.upd rfl fun p e => by cases p <;> first | rfl | exact Bool.noConfusion (e.symm.trans (k.bit (by decide)))

theorem Within.set_isl {isl'} (h : Within M s x) (k : Incl 0x100000 M) :
    Within M s (State.mk x.powered x.regs x.now x.log x.sof x.hif x.net x.adm x.whl x.tb x.key x.alm x.glb x.strt x.nvs x.pair x.acq x.nrg x.cap x.cmp x.osc isl' x.bkd x.mem x.out x.free x.pending) :=
  h.upd rfl fun p e => by cases p <;> first | rfl | exact Bool.noConfusion (e.symm.trans (k.bit (by decide)))

theorem Within.set_acq {acq'} (h : Within M s x) (k : Incl 0x8000 M) :
    Within M s (State.mk x.powered x.regs x.now x.log x.sof x.hif x.net x.adm x.whl x.tb x.key x.alm x.glb x.strt x.nvs x.pair acq' x.nrg x.cap x.cmp x.osc x.isl x.bkd x.mem x.out x.free x.pending) :=
  h.upd rfl fun p e => by cases p <;> first | rfl | exact Bool.noConfusion (e.symm.trans (k.bit (by decide)))

theorem Within.set_nrg {nrg'} (h : Within M s x) (k : Incl 0x10000 M) :
    Within M s (State.mk x.powered x.regs x.now x.log x.sof x.hif x.net x.adm x.whl x.tb x.key x.alm x.glb x.strt x.nvs x.pair x.acq nrg' x.cap x.cmp x.osc x.isl x.bkd x.mem x.out x.free x.pending) :=
  h.upd rfl fun p e => by cases p <;> first | rfl | exact Bool.noConfusion (e.symm.trans (k.bit (by decide)))

theorem Within.set_cap {cap'} (h : Within M s x) (k : Incl 0x20000 M) :
    Within M s (State.mk x.powered x.regs x.now x.log x.sof x.hif x.net x.adm x.whl x.tb x.key x.alm x.glb x.strt x.nvs x.pair x.acq x.nrg cap' x.cmp x.osc x.isl x.bkd x.mem x.out x.free x.pending) :=
  h.upd rfl fun p e => by cases p <;> first | rfl | exact Bool.noConfusion (e.symm.trans (k.bit (by decide)))

theorem Within.set_strt {strt'} (h : Within M s x) (k : Incl 0x1000 M) :
    Within M s (State.mk x.powered x.regs x.now x.log x.sof x.hif x.net x.adm x.whl x.tb x.key x.alm x.glb strt' x.nvs x.pair x.acq x.nrg x.cap x.cmp x.osc x.isl x.bkd x.mem x.out x.free x.pending) :=
  h.upd rfl fun p e => by cases p <;> first | rfl | exact Bool.noConfusion (e.symm.trans (k.bit (by decide)))

theorem Within.set_glb {glb'} (h : Within M s x) (k : Incl 0x800 M) :
    Within M s (State.mk x.powered x.regs x.now x.log x.sof x.hif x.net x.adm x.whl x.tb x.key x.alm glb' x.strt x.nvs x.pair x.acq x.nrg x.cap x.cmp x.osc x.isl x.bkd x.mem x.out x.free x.pending) :=
  h.upd rfl fun p e => by cases p <;> first | rfl | exact Bool.noConfusion (e.symm.trans (k.bit (by decide)))

theorem Within.set_tb {tb'} (h : Within M s x) (k : Incl 0x100 M) :
    Within M s (State.mk x.powered x.regs x.now x.log x.sof x.hif x.net x.adm x.whl tb' x.key x.alm x.glb x.strt x.nvs x.pair x.acq x.nrg x.cap x.cmp x.osc x.isl x.bkd x.mem x.out x.free x.pending) :=
  h.upd rfl fun p e => by cases p <;> first | rfl | exact Bool.noConfusion (e.symm.trans (k.bit (by decide)))

theorem Within.set_now_log_tb_bkd {now' log' tb' bkd'} (h : Within M s x) (k : Incl 0x200106 M) :
    Within M s (State.mk x.powered x.regs now' log' x.sof x.hif x.net x.adm x.whl tb' x.key x.alm x.glb x.strt x.nvs x.pair x.acq x.nrg x.cap x.cmp x.osc x.isl bkd' x.mem x.out x.free x.pending) :=
  h.upd rfl fun p e => by cases p <;> first | rfl | exact Bool.noConfusion (e.symm.trans (k.bit (by decide)))

theorem Within.set_adm {adm'} (h : Within M s x) (k : Incl 0x40 M) :
    Within M s (State.mk x.powered x.regs x.now x.log x.sof x.hif x.net adm' x.whl x.tb x.key x.alm x.glb x.strt x.nvs x.pair x.acq x.nrg x.cap x.cmp x.osc x.isl x.bkd x.mem x.out x.free x.pending) :=
  h.upd rfl fun p e => by cases p <;> first | rfl | exact Bool.noConfusion (e.symm.trans (k.bit (by decide)))

theorem Within.set_net_adm {net' adm'} (h : Within M s x) (k : Incl 0x60 M) :
    Within M s (State.mk x.powered x.regs x.now x.log x.sof x.hif net' adm' x.whl x.tb x.key x.alm x.glb x.strt x.nvs x.pair x.acq x.nrg x.cap x.cmp x.osc x.isl x.bkd x.mem x.out x.free x.pending) :=
  h.upd rfl fun p e => by cases p <;> first | rfl | exact Bool.noConfusion (e.symm.trans (k.bit (by decide)))

theorem Within.set_alm_free {alm' free'} (h : Within M s x) (k : Incl 0x1000400 M) :
    Within M s (State.mk x.powered x.regs x.now x.log x.sof x.hif x.net x.adm x.whl x.tb x.key alm' x.glb x.strt x.nvs x.pair x.acq x.nrg x.cap x.cmp x.osc x.isl x.bkd x.mem x.out free' x.pending) :=
  h.upd rfl fun p e => by cases p <;> first | rfl | exact Bool.noConfusion (e.symm.trans (k.bit (by decide)))

theorem Within.set_cmp {cmp'} (h : Within M s x) (k : Incl 0x40000 M) :
    Within M s (State.mk x.powered x.regs x.now x.log x.sof x.hif x.net x.adm x.whl x.tb x.key x.alm x.glb x.strt x.nvs x.pair x.acq x.nrg x.cap cmp' x.osc x.isl x.bkd x.mem x.out x.free x.pending) :=
  h.upd rfl fun p e => by cases p <;> first | rfl | exact Bool.noConfusion (e.symm.trans (k.bit (by decide)))

theorem Within.set_bkd {bkd'} (h : Within M s x) (k : Incl 0x200000 M) :
    Within M s (State.mk x.powered x.regs x.now x.log x.sof x.hif x.net x.adm x.whl x.tb x.key x.alm x.glb x.strt x.nvs x.pair x.acq x.nrg x.cap x.cmp x.osc x.isl bkd' x.mem x.out x.free x.pending) :=
  h.upd rfl fun p e => by cases p <;> first | rfl | exact Bool.noConfusion (e.symm.trans (k.bit (by decide)))

theorem Within.set_nvs {nvs'} (h : Within M s x) (k : Incl 0x2000 M) :
    Within M s (State.mk x.powered x.regs x.now x.log x.sof x.hif x.net x.adm x.whl x.tb x.key x.alm x.glb x.strt nvs' x.pair x.acq x.nrg x.cap x.cmp x.osc x.isl x.bkd x.mem x.out x.free x.pending) :=
  h.upd rfl fun p e => by cases p <;> first | rfl | exact Bool.noConfusion (e.symm.trans (k.bit (by decide)))

theorem Within.set_key_nvs {key' nvs'} (h : Within M s x) (k : Incl 0x2200 M) :
    Within M s (State.mk x.powered x.regs x.now x.log x.sof x.hif x.net x.adm x.whl x.tb key' x.alm x.glb x.strt nvs' x.pair x.acq x.nrg x.cap x.cmp x.osc x.isl x.bkd x.mem x.out x.free x.pending) :=
  h.upd rfl fun p e => by cases p <;> first | rfl | exact Bool.noConfusion (e.symm.trans (k.bit (by decide)))

theorem Within.set_mem {mem'} (h : Within M s x) (k : Incl 0x400000 M) :
    Within M s (State.mk x.powered x.regs x.now x.log x.sof x.hif x.net x.adm x.whl x.tb x.key x.alm x.glb x.strt x.nvs x.pair x.acq x.nrg x.cap x.cmp x.osc x.isl x.bkd mem' x.out x.free x.pending) :=
  h.upd rfl fun p e => by cases p <;> first | rfl | exact Bool.noConfusion (e.symm.trans (k.bit (by decide)))

theorem Within.set_nvs_free {nvs' free'} (h : Within M s x) (k : Incl 0x1002000 M) :
    Within M s (State.mk x.powered x.regs x.now x.log x.sof x.hif x.net x.adm x.whl x.tb x.key x.alm x.glb x.strt nvs' x.pair x.acq x.nrg x.cap x.cmp x.osc x.isl x.bkd x.mem x.out free' x.pending) :=
  h.upd rfl fun p e => by cases p <;> first | rfl | exact Bool.noConfusion (e.symm.trans (k.bit (by decide)))

theorem Within.set_powered_log {powered' log'} (h : Within M s x) (k : Incl 0x5 M) :
    Within M s (State.mk powered' x.regs x.now log' x.sof x.hif x.net x.adm x.whl x.tb x.key x.alm x.glb x.strt x.nvs x.pair x.acq x.nrg x.cap x.cmp x.osc x.isl x.bkd x.mem x.out x.free x.pending) :=
  h.upd rfl fun p e => by cases p <;> first | rfl | exact Bool.noConfusion (e.symm.trans (k.bit (by decide)))

theorem Within.set_sof_hif_net_adm_whl_key_alm_glb_pair_acq_nrg_cap_cmp_osc_isl_mem {sof' hif' net' adm' whl' key' alm' glb' pair' acq' nrg' cap' cmp' osc' isl' mem'} (h : Within M s x) (k : Incl 0x5fcef8 M) :
    Within M s (State.mk x.powered x.regs x.now x.log sof' hif' net' adm' whl' x.tb key' alm' glb' x.strt x.nvs pair' acq' nrg' cap' cmp' osc' isl' x.bkd mem' x.out x.free x.pending) :=
  h.upd rfl fun p e => by cases p <;> first | rfl | exact Bool.noConfusion (e.symm.trans (k.bit (by decide)))

theorem Within.set_powered_strt {powered' strt'} (h : Within M s x) (k : Incl 0x1001 M) :
    Within M s (State.mk powered' x.regs x.now x.log x.sof x.hif x.net x.adm x.whl x.tb x.key x.alm x.glb strt' x.nvs x.pair x.acq x.nrg x.cap x.cmp x.osc x.isl x.bkd x.mem x.out x.free x.pending) :=
  h.upd rfl fun p e => by cases p <;> first | rfl | exact Bool.noConfusion (e.symm.trans (k.bit (by decide)))

theorem Within.set_cap_cmp {cap' cmp'} (h : Within M s x) (k : Incl 0x60000 M) :
    Within M s (State.mk x.powered x.regs x.now x.log x.sof x.hif x.net x.adm x.whl x.tb x.key x.alm x.glb x.strt x.nvs x.pair x.acq x.nrg cap' cmp' x.osc x.isl x.bkd x.mem x.out x.free x.pending) :=
  h.upd rfl fun p e => by cases p <;> first | rfl | exact Bool.noConfusion (e.symm.trans (k.bit (by decide)))

theorem Within.set_hif_key_glb_pair_acq_osc_isl_mem {hif' key' glb' pair' acq' osc' isl' mem'} (h : Within M s x) (k : Incl 0x58ca10 M) :
    Within M s (State.mk x.powered x.regs x.now x.log x.sof hif' x.net x.adm x.whl x.tb key' x.alm glb' x.strt x.nvs pair' acq' x.nrg x.cap x.cmp osc' isl' x.bkd mem' x.out x.free x.pending) :=
  h.upd rfl fun p e => by cases p <;> first | rfl | exact Bool.noConfusion (e.symm.trans (k.bit (by decide)))

theorem Within.set_pending {pending'} (h : Within M s x) (k : Incl 0x2000000 M) :
    Within M s (State.mk x.powered x.regs x.now x.log x.sof x.hif x.net x.adm x.whl x.tb x.key x.alm x.glb x.strt x.nvs x.pair x.acq x.nrg x.cap x.cmp x.osc x.isl x.bkd x.mem x.out x.free pending') :=
  h.upd rfl fun p e => by cases p <;> first | rfl | exact Bool.noConfusion (e.symm.trans (k.bit (by decide)))

end Sys2Proof.Machine
end

