-- ==== Sys2Proof/Laws/State.lean ====
section
/-! SUPPORT. The small laws of State: what each primitive update leaves of every field of the record, and reading a register field
after a write. -/
namespace Sys2Proof.Machine

variable (s : State)

/-! ### The fields of the record after each primitive update -/

@[simp] theorem State.setWord_powered (off : Nat) (w : Word) : (s.setWord off w).powered = s.powered := rfl
@[simp] theorem State.setWord_now (off : Nat) (w : Word) : (s.setWord off w).now = s.now := rfl
@[simp] theorem State.setWord_log (off : Nat) (w : Word) : (s.setWord off w).log = s.log := rfl
@[simp] theorem State.setWord_sof (off : Nat) (w : Word) : (s.setWord off w).sof = s.sof := rfl
@[simp] theorem State.setWord_hif (off : Nat) (w : Word) : (s.setWord off w).hif = s.hif := rfl
@[simp] theorem State.setWord_net (off : Nat) (w : Word) : (s.setWord off w).net = s.net := rfl
@[simp] theorem State.setWord_adm (off : Nat) (w : Word) : (s.setWord off w).adm = s.adm := rfl
@[simp] theorem State.setWord_whl (off : Nat) (w : Word) : (s.setWord off w).whl = s.whl := rfl
@[simp] theorem State.setWord_tb (off : Nat) (w : Word) : (s.setWord off w).tb = s.tb := rfl
@[simp] theorem State.setWord_key (off : Nat) (w : Word) : (s.setWord off w).key = s.key := rfl
@[simp] theorem State.setWord_alm (off : Nat) (w : Word) : (s.setWord off w).alm = s.alm := rfl
@[simp] theorem State.setWord_glb (off : Nat) (w : Word) : (s.setWord off w).glb = s.glb := rfl
@[simp] theorem State.setWord_strt (off : Nat) (w : Word) : (s.setWord off w).strt = s.strt := rfl
@[simp] theorem State.setWord_nvs (off : Nat) (w : Word) : (s.setWord off w).nvs = s.nvs := rfl
@[simp] theorem State.setWord_pair (off : Nat) (w : Word) : (s.setWord off w).pair = s.pair := rfl
@[simp] theorem State.setWord_acq (off : Nat) (w : Word) : (s.setWord off w).acq = s.acq := rfl
@[simp] theorem State.setWord_nrg (off : Nat) (w : Word) : (s.setWord off w).nrg = s.nrg := rfl
@[simp] theorem State.setWord_cap (off : Nat) (w : Word) : (s.setWord off w).cap = s.cap := rfl
@[simp] theorem State.setWord_cmp (off : Nat) (w : Word) : (s.setWord off w).cmp = s.cmp := rfl
@[simp] theorem State.setWord_osc (off : Nat) (w : Word) : (s.setWord off w).osc = s.osc := rfl
@[simp] theorem State.setWord_isl (off : Nat) (w : Word) : (s.setWord off w).isl = s.isl := rfl
@[simp] theorem State.setWord_bkd (off : Nat) (w : Word) : (s.setWord off w).bkd = s.bkd := rfl
@[simp] theorem State.setWord_mem (off : Nat) (w : Word) : (s.setWord off w).mem = s.mem := rfl
@[simp] theorem State.setWord_out (off : Nat) (w : Word) : (s.setWord off w).out = s.out := rfl
@[simp] theorem State.setWord_free (off : Nat) (w : Word) : (s.setWord off w).free = s.free := rfl
@[simp] theorem State.setWord_pending (off : Nat) (w : Word) : (s.setWord off w).pending = s.pending := rfl

@[simp] theorem State.put_powered (base off : Nat) (w : Word) : (s.put base off w).powered = s.powered := by unfold State.put; split <;> rfl
@[simp] theorem State.put_now (base off : Nat) (w : Word) : (s.put base off w).now = s.now := by unfold State.put; split <;> rfl
@[simp] theorem State.put_log (base off : Nat) (w : Word) : (s.put base off w).log = s.log := by unfold State.put; split <;> rfl
@[simp] theorem State.put_sof (base off : Nat) (w : Word) : (s.put base off w).sof = s.sof := by unfold State.put; split <;> rfl
@[simp] theorem State.put_hif (base off : Nat) (w : Word) : (s.put base off w).hif = s.hif := by unfold State.put; split <;> rfl
@[simp] theorem State.put_net (base off : Nat) (w : Word) : (s.put base off w).net = s.net := by unfold State.put; split <;> rfl
@[simp] theorem State.put_adm (base off : Nat) (w : Word) : (s.put base off w).adm = s.adm := by unfold State.put; split <;> rfl
@[simp] theorem State.put_whl (base off : Nat) (w : Word) : (s.put base off w).whl = s.whl := by unfold State.put; split <;> rfl
@[simp] theorem State.put_tb (base off : Nat) (w : Word) : (s.put base off w).tb = s.tb := by unfold State.put; split <;> rfl
@[simp] theorem State.put_key (base off : Nat) (w : Word) : (s.put base off w).key = s.key := by unfold State.put; split <;> rfl
@[simp] theorem State.put_alm (base off : Nat) (w : Word) : (s.put base off w).alm = s.alm := by unfold State.put; split <;> rfl
@[simp] theorem State.put_glb (base off : Nat) (w : Word) : (s.put base off w).glb = s.glb := by unfold State.put; split <;> rfl
@[simp] theorem State.put_strt (base off : Nat) (w : Word) : (s.put base off w).strt = s.strt := by unfold State.put; split <;> rfl
@[simp] theorem State.put_nvs (base off : Nat) (w : Word) : (s.put base off w).nvs = s.nvs := by unfold State.put; split <;> rfl
@[simp] theorem State.put_pair (base off : Nat) (w : Word) : (s.put base off w).pair = s.pair := by unfold State.put; split <;> rfl
@[simp] theorem State.put_acq (base off : Nat) (w : Word) : (s.put base off w).acq = s.acq := by unfold State.put; split <;> rfl
@[simp] theorem State.put_nrg (base off : Nat) (w : Word) : (s.put base off w).nrg = s.nrg := by unfold State.put; split <;> rfl
@[simp] theorem State.put_cap (base off : Nat) (w : Word) : (s.put base off w).cap = s.cap := by unfold State.put; split <;> rfl
@[simp] theorem State.put_cmp (base off : Nat) (w : Word) : (s.put base off w).cmp = s.cmp := by unfold State.put; split <;> rfl
@[simp] theorem State.put_osc (base off : Nat) (w : Word) : (s.put base off w).osc = s.osc := by unfold State.put; split <;> rfl
@[simp] theorem State.put_isl (base off : Nat) (w : Word) : (s.put base off w).isl = s.isl := by unfold State.put; split <;> rfl
@[simp] theorem State.put_bkd (base off : Nat) (w : Word) : (s.put base off w).bkd = s.bkd := by unfold State.put; split <;> rfl
@[simp] theorem State.put_mem (base off : Nat) (w : Word) : (s.put base off w).mem = s.mem := by unfold State.put; split <;> rfl
@[simp] theorem State.put_out (base off : Nat) (w : Word) : (s.put base off w).out = s.out := by unfold State.put; split <;> rfl
@[simp] theorem State.put_free (base off : Nat) (w : Word) : (s.put base off w).free = s.free := by unfold State.put; split <;> rfl
@[simp] theorem State.put_pending (base off : Nat) (w : Word) : (s.put base off w).pending = s.pending := by unfold State.put; split <;> rfl

@[simp] theorem State.wr_powered (f : Fld) (idx : List Nat) (v : Nat) : (s.wr f idx v).powered = s.powered := by unfold State.wr; split <;> rfl
@[simp] theorem State.wr_now (f : Fld) (idx : List Nat) (v : Nat) : (s.wr f idx v).now = s.now := by unfold State.wr; split <;> rfl
@[simp] theorem State.wr_log (f : Fld) (idx : List Nat) (v : Nat) : (s.wr f idx v).log = s.log := by unfold State.wr; split <;> rfl
@[simp] theorem State.wr_sof (f : Fld) (idx : List Nat) (v : Nat) : (s.wr f idx v).sof = s.sof := by unfold State.wr; split <;> rfl
@[simp] theorem State.wr_hif (f : Fld) (idx : List Nat) (v : Nat) : (s.wr f idx v).hif = s.hif := by unfold State.wr; split <;> rfl
@[simp] theorem State.wr_net (f : Fld) (idx : List Nat) (v : Nat) : (s.wr f idx v).net = s.net := by unfold State.wr; split <;> rfl
@[simp] theorem State.wr_adm (f : Fld) (idx : List Nat) (v : Nat) : (s.wr f idx v).adm = s.adm := by unfold State.wr; split <;> rfl
@[simp] theorem State.wr_whl (f : Fld) (idx : List Nat) (v : Nat) : (s.wr f idx v).whl = s.whl := by unfold State.wr; split <;> rfl
@[simp] theorem State.wr_tb (f : Fld) (idx : List Nat) (v : Nat) : (s.wr f idx v).tb = s.tb := by unfold State.wr; split <;> rfl
@[simp] theorem State.wr_key (f : Fld) (idx : List Nat) (v : Nat) : (s.wr f idx v).key = s.key := by unfold State.wr; split <;> rfl
@[simp] theorem State.wr_alm (f : Fld) (idx : List Nat) (v : Nat) : (s.wr f idx v).alm = s.alm := by unfold State.wr; split <;> rfl
@[simp] theorem State.wr_glb (f : Fld) (idx : List Nat) (v : Nat) : (s.wr f idx v).glb = s.glb := by unfold State.wr; split <;> rfl
@[simp] theorem State.wr_strt (f : Fld) (idx : List Nat) (v : Nat) : (s.wr f idx v).strt = s.strt := by unfold State.wr; split <;> rfl
@[simp] theorem State.wr_nvs (f : Fld) (idx : List Nat) (v : Nat) : (s.wr f idx v).nvs = s.nvs := by unfold State.wr; split <;> rfl
@[simp] theorem State.wr_pair (f : Fld) (idx : List Nat) (v : Nat) : (s.wr f idx v).pair = s.pair := by unfold State.wr; split <;> rfl
@[simp] theorem State.wr_acq (f : Fld) (idx : List Nat) (v : Nat) : (s.wr f idx v).acq = s.acq := by unfold State.wr; split <;> rfl
@[simp] theorem State.wr_nrg (f : Fld) (idx : List Nat) (v : Nat) : (s.wr f idx v).nrg = s.nrg := by unfold State.wr; split <;> rfl
@[simp] theorem State.wr_cap (f : Fld) (idx : List Nat) (v : Nat) : (s.wr f idx v).cap = s.cap := by unfold State.wr; split <;> rfl
@[simp] theorem State.wr_cmp (f : Fld) (idx : List Nat) (v : Nat) : (s.wr f idx v).cmp = s.cmp := by unfold State.wr; split <;> rfl
@[simp] theorem State.wr_osc (f : Fld) (idx : List Nat) (v : Nat) : (s.wr f idx v).osc = s.osc := by unfold State.wr; split <;> rfl
@[simp] theorem State.wr_isl (f : Fld) (idx : List Nat) (v : Nat) : (s.wr f idx v).isl = s.isl := by unfold State.wr; split <;> rfl
@[simp] theorem State.wr_bkd (f : Fld) (idx : List Nat) (v : Nat) : (s.wr f idx v).bkd = s.bkd := by unfold State.wr; split <;> rfl
@[simp] theorem State.wr_mem (f : Fld) (idx : List Nat) (v : Nat) : (s.wr f idx v).mem = s.mem := by unfold State.wr; split <;> rfl
@[simp] theorem State.wr_out (f : Fld) (idx : List Nat) (v : Nat) : (s.wr f idx v).out = s.out := by unfold State.wr; split <;> rfl
@[simp] theorem State.wr_free (f : Fld) (idx : List Nat) (v : Nat) : (s.wr f idx v).free = s.free := by unfold State.wr; split <;> rfl
@[simp] theorem State.wr_pending (f : Fld) (idx : List Nat) (v : Nat) : (s.wr f idx v).pending = s.pending := by unfold State.wr; split <;> rfl

@[simp] theorem State.setFlag_powered (f : Fld) (idx : List Nat) (b : Bool) : (s.setFlag f idx b).powered = s.powered := s.wr_powered _ _ _
@[simp] theorem State.setFlag_now (f : Fld) (idx : List Nat) (b : Bool) : (s.setFlag f idx b).now = s.now := s.wr_now _ _ _
@[simp] theorem State.setFlag_log (f : Fld) (idx : List Nat) (b : Bool) : (s.setFlag f idx b).log = s.log := s.wr_log _ _ _
@[simp] theorem State.setFlag_sof (f : Fld) (idx : List Nat) (b : Bool) : (s.setFlag f idx b).sof = s.sof := s.wr_sof _ _ _
@[simp] theorem State.setFlag_hif (f : Fld) (idx : List Nat) (b : Bool) : (s.setFlag f idx b).hif = s.hif := s.wr_hif _ _ _
@[simp] theorem State.setFlag_net (f : Fld) (idx : List Nat) (b : Bool) : (s.setFlag f idx b).net = s.net := s.wr_net _ _ _
@[simp] theorem State.setFlag_adm (f : Fld) (idx : List Nat) (b : Bool) : (s.setFlag f idx b).adm = s.adm := s.wr_adm _ _ _
@[simp] theorem State.setFlag_whl (f : Fld) (idx : List Nat) (b : Bool) : (s.setFlag f idx b).whl = s.whl := s.wr_whl _ _ _
@[simp] theorem State.setFlag_tb (f : Fld) (idx : List Nat) (b : Bool) : (s.setFlag f idx b).tb = s.tb := s.wr_tb _ _ _
@[simp] theorem State.setFlag_key (f : Fld) (idx : List Nat) (b : Bool) : (s.setFlag f idx b).key = s.key := s.wr_key _ _ _
@[simp] theorem State.setFlag_alm (f : Fld) (idx : List Nat) (b : Bool) : (s.setFlag f idx b).alm = s.alm := s.wr_alm _ _ _
@[simp] theorem State.setFlag_glb (f : Fld) (idx : List Nat) (b : Bool) : (s.setFlag f idx b).glb = s.glb := s.wr_glb _ _ _
@[simp] theorem State.setFlag_strt (f : Fld) (idx : List Nat) (b : Bool) : (s.setFlag f idx b).strt = s.strt := s.wr_strt _ _ _
@[simp] theorem State.setFlag_nvs (f : Fld) (idx : List Nat) (b : Bool) : (s.setFlag f idx b).nvs = s.nvs := s.wr_nvs _ _ _
@[simp] theorem State.setFlag_pair (f : Fld) (idx : List Nat) (b : Bool) : (s.setFlag f idx b).pair = s.pair := s.wr_pair _ _ _
@[simp] theorem State.setFlag_acq (f : Fld) (idx : List Nat) (b : Bool) : (s.setFlag f idx b).acq = s.acq := s.wr_acq _ _ _
@[simp] theorem State.setFlag_nrg (f : Fld) (idx : List Nat) (b : Bool) : (s.setFlag f idx b).nrg = s.nrg := s.wr_nrg _ _ _
@[simp] theorem State.setFlag_cap (f : Fld) (idx : List Nat) (b : Bool) : (s.setFlag f idx b).cap = s.cap := s.wr_cap _ _ _
@[simp] theorem State.setFlag_cmp (f : Fld) (idx : List Nat) (b : Bool) : (s.setFlag f idx b).cmp = s.cmp := s.wr_cmp _ _ _
@[simp] theorem State.setFlag_osc (f : Fld) (idx : List Nat) (b : Bool) : (s.setFlag f idx b).osc = s.osc := s.wr_osc _ _ _
@[simp] theorem State.setFlag_isl (f : Fld) (idx : List Nat) (b : Bool) : (s.setFlag f idx b).isl = s.isl := s.wr_isl _ _ _
@[simp] theorem State.setFlag_bkd (f : Fld) (idx : List Nat) (b : Bool) : (s.setFlag f idx b).bkd = s.bkd := s.wr_bkd _ _ _
@[simp] theorem State.setFlag_mem (f : Fld) (idx : List Nat) (b : Bool) : (s.setFlag f idx b).mem = s.mem := s.wr_mem _ _ _
@[simp] theorem State.setFlag_out (f : Fld) (idx : List Nat) (b : Bool) : (s.setFlag f idx b).out = s.out := s.wr_out _ _ _
@[simp] theorem State.setFlag_free (f : Fld) (idx : List Nat) (b : Bool) : (s.setFlag f idx b).free = s.free := s.wr_free _ _ _
@[simp] theorem State.setFlag_pending (f : Fld) (idx : List Nat) (b : Bool) : (s.setFlag f idx b).pending = s.pending := s.wr_pending _ _ _

@[simp] theorem State.inc_powered (f : Fld) (idx : List Nat) : (s.inc f idx).powered = s.powered := s.wr_powered _ _ _
@[simp] theorem State.inc_now (f : Fld) (idx : List Nat) : (s.inc f idx).now = s.now := s.wr_now _ _ _
@[simp] theorem State.inc_log (f : Fld) (idx : List Nat) : (s.inc f idx).log = s.log := s.wr_log _ _ _
@[simp] theorem State.inc_sof (f : Fld) (idx : List Nat) : (s.inc f idx).sof = s.sof := s.wr_sof _ _ _
@[simp] theorem State.inc_hif (f : Fld) (idx : List Nat) : (s.inc f idx).hif = s.hif := s.wr_hif _ _ _
@[simp] theorem State.inc_net (f : Fld) (idx : List Nat) : (s.inc f idx).net = s.net := s.wr_net _ _ _
@[simp] theorem State.inc_adm (f : Fld) (idx : List Nat) : (s.inc f idx).adm = s.adm := s.wr_adm _ _ _
@[simp] theorem State.inc_whl (f : Fld) (idx : List Nat) : (s.inc f idx).whl = s.whl := s.wr_whl _ _ _
@[simp] theorem State.inc_tb (f : Fld) (idx : List Nat) : (s.inc f idx).tb = s.tb := s.wr_tb _ _ _
@[simp] theorem State.inc_key (f : Fld) (idx : List Nat) : (s.inc f idx).key = s.key := s.wr_key _ _ _
@[simp] theorem State.inc_alm (f : Fld) (idx : List Nat) : (s.inc f idx).alm = s.alm := s.wr_alm _ _ _
@[simp] theorem State.inc_glb (f : Fld) (idx : List Nat) : (s.inc f idx).glb = s.glb := s.wr_glb _ _ _
@[simp] theorem State.inc_strt (f : Fld) (idx : List Nat) : (s.inc f idx).strt = s.strt := s.wr_strt _ _ _
@[simp] theorem State.inc_nvs (f : Fld) (idx : List Nat) : (s.inc f idx).nvs = s.nvs := s.wr_nvs _ _ _
@[simp] theorem State.inc_pair (f : Fld) (idx : List Nat) : (s.inc f idx).pair = s.pair := s.wr_pair _ _ _
@[simp] theorem State.inc_acq (f : Fld) (idx : List Nat) : (s.inc f idx).acq = s.acq := s.wr_acq _ _ _
@[simp] theorem State.inc_nrg (f : Fld) (idx : List Nat) : (s.inc f idx).nrg = s.nrg := s.wr_nrg _ _ _
@[simp] theorem State.inc_cap (f : Fld) (idx : List Nat) : (s.inc f idx).cap = s.cap := s.wr_cap _ _ _
@[simp] theorem State.inc_cmp (f : Fld) (idx : List Nat) : (s.inc f idx).cmp = s.cmp := s.wr_cmp _ _ _
@[simp] theorem State.inc_osc (f : Fld) (idx : List Nat) : (s.inc f idx).osc = s.osc := s.wr_osc _ _ _
@[simp] theorem State.inc_isl (f : Fld) (idx : List Nat) : (s.inc f idx).isl = s.isl := s.wr_isl _ _ _
@[simp] theorem State.inc_bkd (f : Fld) (idx : List Nat) : (s.inc f idx).bkd = s.bkd := s.wr_bkd _ _ _
@[simp] theorem State.inc_mem (f : Fld) (idx : List Nat) : (s.inc f idx).mem = s.mem := s.wr_mem _ _ _
@[simp] theorem State.inc_out (f : Fld) (idx : List Nat) : (s.inc f idx).out = s.out := s.wr_out _ _ _
@[simp] theorem State.inc_free (f : Fld) (idx : List Nat) : (s.inc f idx).free = s.free := s.wr_free _ _ _
@[simp] theorem State.inc_pending (f : Fld) (idx : List Nat) : (s.inc f idx).pending = s.pending := s.wr_pending _ _ _

@[simp] theorem State.bump_powered (f : Fld) (idx : List Nat) (n : Nat) : (s.bump f idx n).powered = s.powered := s.wr_powered _ _ _
@[simp] theorem State.bump_now (f : Fld) (idx : List Nat) (n : Nat) : (s.bump f idx n).now = s.now := s.wr_now _ _ _
@[simp] theorem State.bump_log (f : Fld) (idx : List Nat) (n : Nat) : (s.bump f idx n).log = s.log := s.wr_log _ _ _
@[simp] theorem State.bump_sof (f : Fld) (idx : List Nat) (n : Nat) : (s.bump f idx n).sof = s.sof := s.wr_sof _ _ _
@[simp] theorem State.bump_hif (f : Fld) (idx : List Nat) (n : Nat) : (s.bump f idx n).hif = s.hif := s.wr_hif _ _ _
@[simp] theorem State.bump_net (f : Fld) (idx : List Nat) (n : Nat) : (s.bump f idx n).net = s.net := s.wr_net _ _ _
@[simp] theorem State.bump_adm (f : Fld) (idx : List Nat) (n : Nat) : (s.bump f idx n).adm = s.adm := s.wr_adm _ _ _
@[simp] theorem State.bump_whl (f : Fld) (idx : List Nat) (n : Nat) : (s.bump f idx n).whl = s.whl := s.wr_whl _ _ _
@[simp] theorem State.bump_tb (f : Fld) (idx : List Nat) (n : Nat) : (s.bump f idx n).tb = s.tb := s.wr_tb _ _ _
@[simp] theorem State.bump_key (f : Fld) (idx : List Nat) (n : Nat) : (s.bump f idx n).key = s.key := s.wr_key _ _ _
@[simp] theorem State.bump_alm (f : Fld) (idx : List Nat) (n : Nat) : (s.bump f idx n).alm = s.alm := s.wr_alm _ _ _
@[simp] theorem State.bump_glb (f : Fld) (idx : List Nat) (n : Nat) : (s.bump f idx n).glb = s.glb := s.wr_glb _ _ _
@[simp] theorem State.bump_strt (f : Fld) (idx : List Nat) (n : Nat) : (s.bump f idx n).strt = s.strt := s.wr_strt _ _ _
@[simp] theorem State.bump_nvs (f : Fld) (idx : List Nat) (n : Nat) : (s.bump f idx n).nvs = s.nvs := s.wr_nvs _ _ _
@[simp] theorem State.bump_pair (f : Fld) (idx : List Nat) (n : Nat) : (s.bump f idx n).pair = s.pair := s.wr_pair _ _ _
@[simp] theorem State.bump_acq (f : Fld) (idx : List Nat) (n : Nat) : (s.bump f idx n).acq = s.acq := s.wr_acq _ _ _
@[simp] theorem State.bump_nrg (f : Fld) (idx : List Nat) (n : Nat) : (s.bump f idx n).nrg = s.nrg := s.wr_nrg _ _ _
@[simp] theorem State.bump_cap (f : Fld) (idx : List Nat) (n : Nat) : (s.bump f idx n).cap = s.cap := s.wr_cap _ _ _
@[simp] theorem State.bump_cmp (f : Fld) (idx : List Nat) (n : Nat) : (s.bump f idx n).cmp = s.cmp := s.wr_cmp _ _ _
@[simp] theorem State.bump_osc (f : Fld) (idx : List Nat) (n : Nat) : (s.bump f idx n).osc = s.osc := s.wr_osc _ _ _
@[simp] theorem State.bump_isl (f : Fld) (idx : List Nat) (n : Nat) : (s.bump f idx n).isl = s.isl := s.wr_isl _ _ _
@[simp] theorem State.bump_bkd (f : Fld) (idx : List Nat) (n : Nat) : (s.bump f idx n).bkd = s.bkd := s.wr_bkd _ _ _
@[simp] theorem State.bump_mem (f : Fld) (idx : List Nat) (n : Nat) : (s.bump f idx n).mem = s.mem := s.wr_mem _ _ _
@[simp] theorem State.bump_out (f : Fld) (idx : List Nat) (n : Nat) : (s.bump f idx n).out = s.out := s.wr_out _ _ _
@[simp] theorem State.bump_free (f : Fld) (idx : List Nat) (n : Nat) : (s.bump f idx n).free = s.free := s.wr_free _ _ _
@[simp] theorem State.bump_pending (f : Fld) (idx : List Nat) (n : Nat) : (s.bump f idx n).pending = s.pending := s.wr_pending _ _ _

@[simp] theorem State.incSat_powered (f : Fld) (idx : List Nat) : (s.incSat f idx).powered = s.powered := s.wr_powered _ _ _
@[simp] theorem State.incSat_now (f : Fld) (idx : List Nat) : (s.incSat f idx).now = s.now := s.wr_now _ _ _
@[simp] theorem State.incSat_log (f : Fld) (idx : List Nat) : (s.incSat f idx).log = s.log := s.wr_log _ _ _
@[simp] theorem State.incSat_sof (f : Fld) (idx : List Nat) : (s.incSat f idx).sof = s.sof := s.wr_sof _ _ _
@[simp] theorem State.incSat_hif (f : Fld) (idx : List Nat) : (s.incSat f idx).hif = s.hif := s.wr_hif _ _ _
@[simp] theorem State.incSat_net (f : Fld) (idx : List Nat) : (s.incSat f idx).net = s.net := s.wr_net _ _ _
@[simp] theorem State.incSat_adm (f : Fld) (idx : List Nat) : (s.incSat f idx).adm = s.adm := s.wr_adm _ _ _
@[simp] theorem State.incSat_whl (f : Fld) (idx : List Nat) : (s.incSat f idx).whl = s.whl := s.wr_whl _ _ _
@[simp] theorem State.incSat_tb (f : Fld) (idx : List Nat) : (s.incSat f idx).tb = s.tb := s.wr_tb _ _ _
@[simp] theorem State.incSat_key (f : Fld) (idx : List Nat) : (s.incSat f idx).key = s.key := s.wr_key _ _ _
@[simp] theorem State.incSat_alm (f : Fld) (idx : List Nat) : (s.incSat f idx).alm = s.alm := s.wr_alm _ _ _
@[simp] theorem State.incSat_glb (f : Fld) (idx : List Nat) : (s.incSat f idx).glb = s.glb := s.wr_glb _ _ _
@[simp] theorem State.incSat_strt (f : Fld) (idx : List Nat) : (s.incSat f idx).strt = s.strt := s.wr_strt _ _ _
@[simp] theorem State.incSat_nvs (f : Fld) (idx : List Nat) : (s.incSat f idx).nvs = s.nvs := s.wr_nvs _ _ _
@[simp] theorem State.incSat_pair (f : Fld) (idx : List Nat) : (s.incSat f idx).pair = s.pair := s.wr_pair _ _ _
@[simp] theorem State.incSat_acq (f : Fld) (idx : List Nat) : (s.incSat f idx).acq = s.acq := s.wr_acq _ _ _
@[simp] theorem State.incSat_nrg (f : Fld) (idx : List Nat) : (s.incSat f idx).nrg = s.nrg := s.wr_nrg _ _ _
@[simp] theorem State.incSat_cap (f : Fld) (idx : List Nat) : (s.incSat f idx).cap = s.cap := s.wr_cap _ _ _
@[simp] theorem State.incSat_cmp (f : Fld) (idx : List Nat) : (s.incSat f idx).cmp = s.cmp := s.wr_cmp _ _ _
@[simp] theorem State.incSat_osc (f : Fld) (idx : List Nat) : (s.incSat f idx).osc = s.osc := s.wr_osc _ _ _
@[simp] theorem State.incSat_isl (f : Fld) (idx : List Nat) : (s.incSat f idx).isl = s.isl := s.wr_isl _ _ _
@[simp] theorem State.incSat_bkd (f : Fld) (idx : List Nat) : (s.incSat f idx).bkd = s.bkd := s.wr_bkd _ _ _
@[simp] theorem State.incSat_mem (f : Fld) (idx : List Nat) : (s.incSat f idx).mem = s.mem := s.wr_mem _ _ _
@[simp] theorem State.incSat_out (f : Fld) (idx : List Nat) : (s.incSat f idx).out = s.out := s.wr_out _ _ _
@[simp] theorem State.incSat_free (f : Fld) (idx : List Nat) : (s.incSat f idx).free = s.free := s.wr_free _ _ _
@[simp] theorem State.incSat_pending (f : Fld) (idx : List Nat) : (s.incSat f idx).pending = s.pending := s.wr_pending _ _ _

@[simp] theorem State.stabWr_powered (f g : Fld) (sid v : Nat) : (s.stabWr f g sid v).powered = s.powered := by unfold State.stabWr stab; split <;> exact s.wr_powered _ _ _
@[simp] theorem State.stabWr_now (f g : Fld) (sid v : Nat) : (s.stabWr f g sid v).now = s.now := by unfold State.stabWr stab; split <;> exact s.wr_now _ _ _
@[simp] theorem State.stabWr_log (f g : Fld) (sid v : Nat) : (s.stabWr f g sid v).log = s.log := by unfold State.stabWr stab; split <;> exact s.wr_log _ _ _
@[simp] theorem State.stabWr_sof (f g : Fld) (sid v : Nat) : (s.stabWr f g sid v).sof = s.sof := by unfold State.stabWr stab; split <;> exact s.wr_sof _ _ _
@[simp] theorem State.stabWr_hif (f g : Fld) (sid v : Nat) : (s.stabWr f g sid v).hif = s.hif := by unfold State.stabWr stab; split <;> exact s.wr_hif _ _ _
@[simp] theorem State.stabWr_net (f g : Fld) (sid v : Nat) : (s.stabWr f g sid v).net = s.net := by unfold State.stabWr stab; split <;> exact s.wr_net _ _ _
@[simp] theorem State.stabWr_adm (f g : Fld) (sid v : Nat) : (s.stabWr f g sid v).adm = s.adm := by unfold State.stabWr stab; split <;> exact s.wr_adm _ _ _
@[simp] theorem State.stabWr_whl (f g : Fld) (sid v : Nat) : (s.stabWr f g sid v).whl = s.whl := by unfold State.stabWr stab; split <;> exact s.wr_whl _ _ _
@[simp] theorem State.stabWr_tb (f g : Fld) (sid v : Nat) : (s.stabWr f g sid v).tb = s.tb := by unfold State.stabWr stab; split <;> exact s.wr_tb _ _ _
@[simp] theorem State.stabWr_key (f g : Fld) (sid v : Nat) : (s.stabWr f g sid v).key = s.key := by unfold State.stabWr stab; split <;> exact s.wr_key _ _ _
@[simp] theorem State.stabWr_alm (f g : Fld) (sid v : Nat) : (s.stabWr f g sid v).alm = s.alm := by unfold State.stabWr stab; split <;> exact s.wr_alm _ _ _
@[simp] theorem State.stabWr_glb (f g : Fld) (sid v : Nat) : (s.stabWr f g sid v).glb = s.glb := by unfold State.stabWr stab; split <;> exact s.wr_glb _ _ _
@[simp] theorem State.stabWr_strt (f g : Fld) (sid v : Nat) : (s.stabWr f g sid v).strt = s.strt := by unfold State.stabWr stab; split <;> exact s.wr_strt _ _ _
@[simp] theorem State.stabWr_nvs (f g : Fld) (sid v : Nat) : (s.stabWr f g sid v).nvs = s.nvs := by unfold State.stabWr stab; split <;> exact s.wr_nvs _ _ _
@[simp] theorem State.stabWr_pair (f g : Fld) (sid v : Nat) : (s.stabWr f g sid v).pair = s.pair := by unfold State.stabWr stab; split <;> exact s.wr_pair _ _ _
@[simp] theorem State.stabWr_acq (f g : Fld) (sid v : Nat) : (s.stabWr f g sid v).acq = s.acq := by unfold State.stabWr stab; split <;> exact s.wr_acq _ _ _
@[simp] theorem State.stabWr_nrg (f g : Fld) (sid v : Nat) : (s.stabWr f g sid v).nrg = s.nrg := by unfold State.stabWr stab; split <;> exact s.wr_nrg _ _ _
@[simp] theorem State.stabWr_cap (f g : Fld) (sid v : Nat) : (s.stabWr f g sid v).cap = s.cap := by unfold State.stabWr stab; split <;> exact s.wr_cap _ _ _
@[simp] theorem State.stabWr_cmp (f g : Fld) (sid v : Nat) : (s.stabWr f g sid v).cmp = s.cmp := by unfold State.stabWr stab; split <;> exact s.wr_cmp _ _ _
@[simp] theorem State.stabWr_osc (f g : Fld) (sid v : Nat) : (s.stabWr f g sid v).osc = s.osc := by unfold State.stabWr stab; split <;> exact s.wr_osc _ _ _
@[simp] theorem State.stabWr_isl (f g : Fld) (sid v : Nat) : (s.stabWr f g sid v).isl = s.isl := by unfold State.stabWr stab; split <;> exact s.wr_isl _ _ _
@[simp] theorem State.stabWr_bkd (f g : Fld) (sid v : Nat) : (s.stabWr f g sid v).bkd = s.bkd := by unfold State.stabWr stab; split <;> exact s.wr_bkd _ _ _
@[simp] theorem State.stabWr_mem (f g : Fld) (sid v : Nat) : (s.stabWr f g sid v).mem = s.mem := by unfold State.stabWr stab; split <;> exact s.wr_mem _ _ _
@[simp] theorem State.stabWr_out (f g : Fld) (sid v : Nat) : (s.stabWr f g sid v).out = s.out := by unfold State.stabWr stab; split <;> exact s.wr_out _ _ _
@[simp] theorem State.stabWr_free (f g : Fld) (sid v : Nat) : (s.stabWr f g sid v).free = s.free := by unfold State.stabWr stab; split <;> exact s.wr_free _ _ _
@[simp] theorem State.stabWr_pending (f g : Fld) (sid v : Nat) : (s.stabWr f g sid v).pending = s.pending := by unfold State.stabWr stab; split <;> exact s.wr_pending _ _ _

@[simp] theorem State.advance_powered (t : Time) : (s.advance t).powered = s.powered := rfl
@[simp] theorem State.advance_regs (t : Time) : (s.advance t).regs = s.regs := rfl
@[simp] theorem State.advance_log (t : Time) : (s.advance t).log = s.log := rfl
@[simp] theorem State.advance_sof (t : Time) : (s.advance t).sof = s.sof := rfl
@[simp] theorem State.advance_hif (t : Time) : (s.advance t).hif = s.hif := rfl
@[simp] theorem State.advance_net (t : Time) : (s.advance t).net = s.net := rfl
@[simp] theorem State.advance_adm (t : Time) : (s.advance t).adm = s.adm := rfl
@[simp] theorem State.advance_whl (t : Time) : (s.advance t).whl = s.whl := rfl
@[simp] theorem State.advance_tb (t : Time) : (s.advance t).tb = s.tb := rfl
@[simp] theorem State.advance_key (t : Time) : (s.advance t).key = s.key := rfl
@[simp] theorem State.advance_alm (t : Time) : (s.advance t).alm = s.alm := rfl
@[simp] theorem State.advance_glb (t : Time) : (s.advance t).glb = s.glb := rfl
@[simp] theorem State.advance_strt (t : Time) : (s.advance t).strt = s.strt := rfl
@[simp] theorem State.advance_nvs (t : Time) : (s.advance t).nvs = s.nvs := rfl
@[simp] theorem State.advance_pair (t : Time) : (s.advance t).pair = s.pair := rfl
@[simp] theorem State.advance_acq (t : Time) : (s.advance t).acq = s.acq := rfl
@[simp] theorem State.advance_nrg (t : Time) : (s.advance t).nrg = s.nrg := rfl
@[simp] theorem State.advance_cap (t : Time) : (s.advance t).cap = s.cap := rfl
@[simp] theorem State.advance_cmp (t : Time) : (s.advance t).cmp = s.cmp := rfl
@[simp] theorem State.advance_osc (t : Time) : (s.advance t).osc = s.osc := rfl
@[simp] theorem State.advance_isl (t : Time) : (s.advance t).isl = s.isl := rfl
@[simp] theorem State.advance_bkd (t : Time) : (s.advance t).bkd = s.bkd := rfl
@[simp] theorem State.advance_mem (t : Time) : (s.advance t).mem = s.mem := rfl
@[simp] theorem State.advance_out (t : Time) : (s.advance t).out = s.out := rfl
@[simp] theorem State.advance_free (t : Time) : (s.advance t).free = s.free := rfl
@[simp] theorem State.advance_pending (t : Time) : (s.advance t).pending = s.pending := rfl

@[simp] theorem State.emit_powered (o : Output) : (s.emit o).powered = s.powered := rfl
@[simp] theorem State.emit_regs (o : Output) : (s.emit o).regs = s.regs := rfl
@[simp] theorem State.emit_now (o : Output) : (s.emit o).now = s.now := rfl
@[simp] theorem State.emit_log (o : Output) : (s.emit o).log = s.log := rfl
@[simp] theorem State.emit_sof (o : Output) : (s.emit o).sof = s.sof := rfl
@[simp] theorem State.emit_hif (o : Output) : (s.emit o).hif = s.hif := rfl
@[simp] theorem State.emit_net (o : Output) : (s.emit o).net = s.net := rfl
@[simp] theorem State.emit_adm (o : Output) : (s.emit o).adm = s.adm := rfl
@[simp] theorem State.emit_whl (o : Output) : (s.emit o).whl = s.whl := rfl
@[simp] theorem State.emit_tb (o : Output) : (s.emit o).tb = s.tb := rfl
@[simp] theorem State.emit_key (o : Output) : (s.emit o).key = s.key := rfl
@[simp] theorem State.emit_alm (o : Output) : (s.emit o).alm = s.alm := rfl
@[simp] theorem State.emit_glb (o : Output) : (s.emit o).glb = s.glb := rfl
@[simp] theorem State.emit_strt (o : Output) : (s.emit o).strt = s.strt := rfl
@[simp] theorem State.emit_nvs (o : Output) : (s.emit o).nvs = s.nvs := rfl
@[simp] theorem State.emit_pair (o : Output) : (s.emit o).pair = s.pair := rfl
@[simp] theorem State.emit_acq (o : Output) : (s.emit o).acq = s.acq := rfl
@[simp] theorem State.emit_nrg (o : Output) : (s.emit o).nrg = s.nrg := rfl
@[simp] theorem State.emit_cap (o : Output) : (s.emit o).cap = s.cap := rfl
@[simp] theorem State.emit_cmp (o : Output) : (s.emit o).cmp = s.cmp := rfl
@[simp] theorem State.emit_osc (o : Output) : (s.emit o).osc = s.osc := rfl
@[simp] theorem State.emit_isl (o : Output) : (s.emit o).isl = s.isl := rfl
@[simp] theorem State.emit_bkd (o : Output) : (s.emit o).bkd = s.bkd := rfl
@[simp] theorem State.emit_mem (o : Output) : (s.emit o).mem = s.mem := rfl
@[simp] theorem State.emit_free (o : Output) : (s.emit o).free = s.free := rfl
@[simp] theorem State.emit_pending (o : Output) : (s.emit o).pending = s.pending := rfl

@[simp] theorem State.draw_powered : (s.draw.2).powered = s.powered := rfl
@[simp] theorem State.draw_regs : (s.draw.2).regs = s.regs := rfl
@[simp] theorem State.draw_now : (s.draw.2).now = s.now := rfl
@[simp] theorem State.draw_log : (s.draw.2).log = s.log := rfl
@[simp] theorem State.draw_sof : (s.draw.2).sof = s.sof := rfl
@[simp] theorem State.draw_hif : (s.draw.2).hif = s.hif := rfl
@[simp] theorem State.draw_net : (s.draw.2).net = s.net := rfl
@[simp] theorem State.draw_adm : (s.draw.2).adm = s.adm := rfl
@[simp] theorem State.draw_whl : (s.draw.2).whl = s.whl := rfl
@[simp] theorem State.draw_tb : (s.draw.2).tb = s.tb := rfl
@[simp] theorem State.draw_key : (s.draw.2).key = s.key := rfl
@[simp] theorem State.draw_alm : (s.draw.2).alm = s.alm := rfl
@[simp] theorem State.draw_glb : (s.draw.2).glb = s.glb := rfl
@[simp] theorem State.draw_strt : (s.draw.2).strt = s.strt := rfl
@[simp] theorem State.draw_nvs : (s.draw.2).nvs = s.nvs := rfl
@[simp] theorem State.draw_pair : (s.draw.2).pair = s.pair := rfl
@[simp] theorem State.draw_acq : (s.draw.2).acq = s.acq := rfl
@[simp] theorem State.draw_nrg : (s.draw.2).nrg = s.nrg := rfl
@[simp] theorem State.draw_cap : (s.draw.2).cap = s.cap := rfl
@[simp] theorem State.draw_cmp : (s.draw.2).cmp = s.cmp := rfl
@[simp] theorem State.draw_osc : (s.draw.2).osc = s.osc := rfl
@[simp] theorem State.draw_isl : (s.draw.2).isl = s.isl := rfl
@[simp] theorem State.draw_bkd : (s.draw.2).bkd = s.bkd := rfl
@[simp] theorem State.draw_mem : (s.draw.2).mem = s.mem := rfl
@[simp] theorem State.draw_out : (s.draw.2).out = s.out := rfl
@[simp] theorem State.draw_pending : (s.draw.2).pending = s.pending := rfl

@[simp] theorem State.advance_now_eq (t : Time) : (s.advance t).now = max s.now t := rfl

@[simp] theorem State.emit_out_eq (o : Output) : (s.emit o).out = s.out ++ [o] := rfl

@[simp] theorem State.draw_free_eq : s.draw.2.free = s.free + 1 := rfl

@[simp] theorem State.draw_fst : s.draw.1 = s.free := rfl

/-! ### Register fields -/

/-- States with the same store read the same. -/
theorem State.word_congr {s t : State} (h : t.regs = s.regs) (off : Nat) : t.word off = s.word off := by unfold State.word; rw [h]

theorem State.rd_congr {s t : State} (h : t.regs = s.regs) (f : Fld) (idx : List Nat) : t.rd f idx = s.rd f idx := by
  unfold State.rd; rw [State.word_congr h]

theorem State.flag_congr {s t : State} (h : t.regs = s.regs) (f : Fld) (idx : List Nat) : t.flag f idx = s.flag f idx := by
  unfold State.flag; rw [State.rd_congr h]

@[simp] theorem State.word_advance (t : Time) (off : Nat) : (s.advance t).word off = s.word off := rfl
@[simp] theorem State.word_emit (o : Output) (off : Nat) : (s.emit o).word off = s.word off := rfl
@[simp] theorem State.word_draw (off : Nat) : s.draw.2.word off = s.word off := rfl
@[simp] theorem State.rd_advance (t : Time) (f : Fld) (idx : List Nat) : (s.advance t).rd f idx = s.rd f idx := rfl
@[simp] theorem State.rd_emit (o : Output) (f : Fld) (idx : List Nat) : (s.emit o).rd f idx = s.rd f idx := rfl
@[simp] theorem State.rd_draw (f : Fld) (idx : List Nat) : s.draw.2.rd f idx = s.rd f idx := rfl
@[simp] theorem State.flag_advance (t : Time) (f : Fld) (idx : List Nat) : (s.advance t).flag f idx = s.flag f idx := rfl
@[simp] theorem State.flag_emit (o : Output) (f : Fld) (idx : List Nat) : (s.emit o).flag f idx = s.flag f idx := rfl
@[simp] theorem State.mode_advance (t : Time) : (s.advance t).mode = s.mode := rfl
@[simp] theorem State.processing_advance (t : Time) : (s.advance t).processing = s.processing := rfl
@[simp] theorem State.mode_emit (o : Output) : (s.emit o).mode = s.mode := rfl

/-- A field's value fits its width. -/
theorem State.rd_lt (f : Fld) (idx : List Nat) : s.rd f idx < 2 ^ f.width := Nat.mod_lt _ (Nat.pow_pos (by decide))

/-- Is this a field of a 32-bit word? -/
def Fld.sane (f : Fld) : Bool := decide (f.lo ≤ f.hi) && decide (f.hi < 32)

theorem Fld.mask_bit {f : Fld} (h : f.sane = true) (i : Nat) : f.mask.getLsbD i = (decide (f.lo ≤ i) && decide (i ≤ f.hi)) := by
  simp only [Fld.sane, Bool.and_eq_true, decide_eq_true_eq] at h
  unfold Fld.mask Fld.width
  rw [BitVec.getLsbD_ofNat, Nat.testBit_mul_two_pow, Nat.testBit_two_pow_sub_one]
  by_cases h1 : f.lo ≤ i
  · by_cases h2 : i ≤ f.hi
    · have h3 : i - f.lo < f.hi - f.lo + 1 := by omega
      have h4 : i < 32 := by omega
      simp [h1, h2, h3, h4]
    · have h3 : ¬ (i - f.lo < f.hi - f.lo + 1) := by omega
      simp [h1, h2, h3]
  · simp [h1]

theorem Fld.put_bit {f : Fld} (h : f.sane = true) (w : Word) (v i : Nat) :
    (f.put w v).getLsbD i = if f.lo ≤ i ∧ i ≤ f.hi then v.testBit (i - f.lo) else w.getLsbD i := by
  have hm := Fld.mask_bit h i
  simp only [Fld.sane, Bool.and_eq_true, decide_eq_true_eq] at h
  unfold Fld.put
  rw [BitVec.getLsbD_or, BitVec.getLsbD_and, BitVec.getLsbD_not, hm, BitVec.getLsbD_ofNat, Nat.testBit_mul_two_pow, Nat.testBit_mod_two_pow]
  unfold Fld.width
  by_cases h1 : f.lo ≤ i
  · by_cases h2 : i ≤ f.hi
    · have h3 : i - f.lo < f.hi - f.lo + 1 := by omega
      have h4 : i < 32 := by omega
      simp [h1, h2, h3, h4]
    · have h3 : ¬ (i - f.lo < f.hi - f.lo + 1) := by omega
      by_cases h4 : i < 32
      · simp [h2, h3, h4]
      · have h5 : w.getLsbD i = false := BitVec.getLsbD_of_ge w i (by omega)
        simp [h2, h3, h4, h5]
  · by_cases h4 : i < 32
    · simp [h1, h4]
    · have h5 : w.getLsbD i = false := BitVec.getLsbD_of_ge w i (by omega)
      simp [h1, h4, h5]

theorem Fld.get_bit (f : Fld) (w : Word) (i : Nat) : (f.get w).testBit i = (decide (i < f.width) && w.getLsbD (f.lo + i)) := by
  unfold Fld.get
  rw [Nat.testBit_mod_two_pow, Nat.testBit_div_two_pow, BitVec.testBit_toNat, Nat.add_comm]

/-- A field of a word that is put reads as put, modulo its width. -/
theorem Fld.get_put {f : Fld} (h : f.sane = true) (w : Word) (v : Nat) : f.get (f.put w v) = v % 2 ^ f.width := by
  refine Nat.eq_of_testBit_eq fun i => ?_
  rw [Fld.get_bit, Fld.put_bit h, Nat.testBit_mod_two_pow]
  simp only [Fld.sane, Bool.and_eq_true, decide_eq_true_eq] at h
  by_cases hi : i < f.width
  · have : f.lo ≤ f.lo + i ∧ f.lo + i ≤ f.hi := by unfold Fld.width at hi; omega
    simp [hi, this]
  · simp [hi]

/-- A field of other bits of the word is left. -/
theorem Fld.get_put_ne {f g : Fld} (h : f.sane = true) (hg : g.sane = true) (d : f.hi < g.lo ∨ g.hi < f.lo) (w : Word) (v : Nat) :
    g.get (f.put w v) = g.get w := by
  refine Nat.eq_of_testBit_eq fun i => ?_
  rw [Fld.get_bit, Fld.get_bit, Fld.put_bit h]
  simp only [Fld.sane, Bool.and_eq_true, decide_eq_true_eq] at hg
  by_cases hi : i < g.width
  · have : ¬ (f.lo ≤ g.lo + i ∧ g.lo + i ≤ f.hi) := by unfold Fld.width at hi; omega
    simp [this]
  · simp [hi]

/-- A register field that is written reads as written, modulo its width. -/
theorem State.rd_wr_same {f : Fld} {idx : List Nat} (v : Nat) (h : f.sane = true) (ok : idxOk f.dims idx = true) :
    (s.wr f idx v).rd f idx = v % 2 ^ f.width := by
  unfold State.rd State.wr
  rw [if_pos ok, State.word_setWord, Fld.get_put h]

/-- A write of a field leaves every word at another offset. -/
theorem State.word_wr_off {f : Fld} {idx : List Nat} {o : Nat} (v : Nat) (h : o ≠ f.off idx) : (s.wr f idx v).word o = s.word o := by
  unfold State.wr; split
  · exact State.word_setWord_ne _ _ h
  · rfl

/-- A write of a field leaves the fields of every other word. -/
theorem State.rd_wr_off {f g : Fld} {idx jdx : List Nat} (v : Nat) (h : g.off jdx ≠ f.off idx) : (s.wr f idx v).rd g jdx = s.rd g jdx := by
  unfold State.rd; rw [State.word_wr_off _ _ h]

/-- A write of a field leaves the fields in other bits, of the same word or another. -/
theorem State.rd_wr_bits {f g : Fld} {idx jdx : List Nat} (v : Nat) (h : f.sane = true) (hg : g.sane = true) (d : f.hi < g.lo ∨ g.hi < f.lo) :
    (s.wr f idx v).rd g jdx = s.rd g jdx := by
  by_cases e : g.off jdx = f.off idx
  · unfold State.rd State.wr
    split
    · rw [e, State.word_setWord, Fld.get_put_ne h hg d]
    · rfl
  · exact s.rd_wr_off v e

/-- Setting a one-bit field. -/
theorem State.flag_setFlag_same {f : Fld} {idx : List Nat} (b : Bool) (h : f.sane = true) (ok : idxOk f.dims idx = true) (one : f.width = 1) :
    (s.setFlag f idx b).flag f idx = b := by
  unfold State.flag State.setFlag
  rw [s.rd_wr_same _ h ok, one]
  cases b <;> rfl

/-- Counting in a field. -/
theorem State.rd_inc_same {f : Fld} {idx : List Nat} (h : f.sane = true) (ok : idxOk f.dims idx = true) :
    (s.inc f idx).rd f idx = (s.rd f idx + 1) % 2 ^ f.width := s.rd_wr_same _ h ok

theorem State.rd_bump_same {f : Fld} {idx : List Nat} (n : Nat) (h : f.sane = true) (ok : idxOk f.dims idx = true) :
    (s.bump f idx n).rd f idx = (s.rd f idx + n) % 2 ^ f.width := s.rd_wr_same _ h ok

/-! ### What operations within a mask leave -/

/-- An operation that changes no word of a field's area leaves the field. -/
theorem Within.rd {M : Nat} {s t : State} (h : Within M s t) {f : Fld} {idx : List Nat} (ok : idxOk f.dims idx = true)
    (fits : f.fits = true) (out : M.testBit (32 + areaOf f.base) = false) : t.rd f idx = s.rd f idx := by
  unfold State.rd
  rw [h.words _ (by rw [areaOf_fld fits ok]; exact out)]

theorem Within.flag {M : Nat} {s t : State} (h : Within M s t) {f : Fld} {idx : List Nat} (ok : idxOk f.dims idx = true)
    (fits : f.fits = true) (out : M.testBit (32 + areaOf f.base) = false) : t.flag f idx = s.flag f idx := by
  unfold State.flag; rw [h.rd ok fits out]

end Sys2Proof.Machine
end

