-- ==== Sys2Proof/Laws/Advance.lean ====
section
/-! SUPPORT. What a step of device time alone leaves unchanged: every reading of the state that does not read device time, and the
write of a register that reaches this unit. -/

open Sys2Proof Sys2Proof.Machine

@[simp] theorem State.advance_membOk (s : State) (tm : Time) (r : Nat) : (s.advance tm).membOk r = s.membOk r := rfl
@[simp] theorem State.advance_ownAddr (s : State) (tm : Time) (p addr : Nat) (v6 : Bool) : (s.advance tm).ownAddr p addr v6 = s.ownAddr p addr v6 := rfl
@[simp] theorem State.advance_rxTime (s : State) (tm : Time) (p : Nat) (raw : Time) (bofs : Nat) : (s.advance tm).rxTime p raw bofs = s.rxTime p raw bofs := rfl
@[simp] theorem State.advance_txTime (s : State) (tm : Time) (p : Nat) (raw : Time) : (s.advance tm).txTime p raw = s.txTime p raw := rfl
@[simp] theorem State.advance_steerCode (s : State) (tm : Time) (f : Int) : (s.advance tm).steerCode f = s.steerCode f := rfl
@[simp] theorem State.advance_dom (s : State) (tm : Time) (d : Nat) : (s.advance tm).dom d = s.dom d := rfl
@[simp] theorem State.advance_domPorts (s : State) (tm : Time) (d : Nat) : (s.advance tm).domPorts d = s.domPorts d := rfl
@[simp] theorem State.advance_domFor (s : State) (tm : Time) (num port : Nat) : (s.advance tm).domFor num port = s.domFor num port := rfl
@[simp] theorem State.advance_domState (s : State) (tm : Time) (d : Nat) : (s.advance tm).domState d = s.domState d := rfl
@[simp] theorem State.advance_domLocked (s : State) (tm : Time) (d : Nat) : (s.advance tm).domLocked d = s.domLocked d := rfl
@[simp] theorem State.advance_lockNs (s : State) (tm : Time) : (s.advance tm).lockNs = s.lockNs  := rfl
@[simp] theorem State.advance_stepNs (s : State) (tm : Time) : (s.advance tm).stepNs = s.stepNs  := rfl
@[simp] theorem State.advance_pullU (s : State) (tm : Time) : (s.advance tm).pullU = s.pullU  := rfl
@[simp] theorem State.advance_leapFlag (s : State) (tm : Time) : (s.advance tm).leapFlag = s.leapFlag  := rfl
@[simp] theorem State.advance_utcOfs (s : State) (tm : Time) : (s.advance tm).utcOfs = s.utcOfs  := rfl
@[simp] theorem State.advance_toTai (s : State) (tm : Time) (soc frac tb : Nat) (arr : Time) : (s.advance tm).toTai soc frac tb arr = s.toTai soc frac tb arr := rfl
@[simp] theorem State.advance_farApart (s : State) (tm : Time) : (s.advance tm).farApart = s.farApart  := rfl
@[simp] theorem State.advance_gains (s : State) (tm : Time) : (s.advance tm).gains = s.gains  := rfl
@[simp] theorem State.advance_recTaken (s : State) (tm : Time) : (s.advance tm).recTaken = s.recTaken  := rfl
@[simp] theorem State.advance_recNow (s : State) (tm : Time) (seq : Nat) : (s.advance tm).recNow seq = s.recNow seq := rfl
@[simp] theorem State.advance_quantOf (s : State) (tm : Time) (p q : Nat) : (s.advance tm).quantOf p q = s.quantOf p q := rfl
@[simp] theorem State.advance_ivNew (s : State) (tm : Time) (p : Nat) (start : Time) : (s.advance tm).ivNew p start = s.ivNew p start := rfl
@[simp] theorem State.advance_dirBits (s : State) (tm : Time) (p : Nat) : (s.advance tm).dirBits p = s.dirBits p := rfl
@[simp] theorem State.advance_metered (s : State) (tm : Time) (p q : Nat) : (s.advance tm).metered p q = s.metered p q := rfl
@[simp] theorem State.advance_nrgKeep (s : State) (tm : Time) (p : Nat) : (s.advance tm).nrgKeep p = s.nrgKeep p := rfl
@[simp] theorem State.advance_quantReady (s : State) (tm : Time) (p q : Nat) : (s.advance tm).quantReady p q = s.quantReady p q := rfl
@[simp] theorem State.advance_sagPct (s : State) (tm : Time) (p : Nat) : (s.advance tm).sagPct p = s.sagPct p := rfl
@[simp] theorem State.advance_swellPct (s : State) (tm : Time) (p : Nat) : (s.advance tm).swellPct p = s.swellPct p := rfl
@[simp] theorem State.advance_intPct (s : State) (tm : Time) (p : Nat) : (s.advance tm).intPct p = s.intPct p := rfl
@[simp] theorem State.advance_pqHyst (s : State) (tm : Time) (p : Nat) : (s.advance tm).pqHyst p = s.pqHyst p := rfl
@[simp] theorem State.advance_itemMax (s : State) (tm : Time) : (s.advance tm).itemMax = s.itemMax  := rfl
@[simp] theorem State.advance_hkRoom (s : State) (tm : Time) : (s.advance tm).hkRoom = s.hkRoom  := rfl
@[simp] theorem State.advance_deepest (s : State) (tm : Time) : (s.advance tm).deepest = s.deepest  := rfl
@[simp] theorem State.advance_roundsOn (s : State) (tm : Time) (n : Nat) : (s.advance tm).roundsOn n = s.roundsOn n := rfl
@[simp] theorem State.advance_emptyHoles (s : State) (tm : Time) (n : Nat) : (s.advance tm).emptyHoles n = s.emptyHoles n := rfl
@[simp] theorem State.advance_wakeLead (s : State) (tm : Time) : (s.advance tm).wakeLead = s.wakeLead  := rfl
@[simp] theorem State.advance_splUp (s : State) (tm : Time) (p : Nat) : (s.advance tm).splUp p = s.splUp p := rfl
@[simp] theorem State.advance_splForce (s : State) (tm : Time) (p : Nat) : (s.advance tm).splForce p = s.splForce p := rfl
@[simp] theorem State.advance_acqPh (s : State) (tm : Time) (p k : Nat) : (s.advance tm).acqPh p k = s.acqPh p k := rfl
@[simp] theorem State.advance_gang (s : State) (tm : Time) (p k : Nat) : (s.advance tm).gang p k = s.gang p k := rfl
@[simp] theorem State.advance_nextSmp (s : State) (tm : Time) (p : Nat) : (s.advance tm).nextSmp p = s.nextSmp p := rfl
@[simp] theorem State.advance_curveBad (s : State) (tm : Time) (base i : Nat) : (s.advance tm).curveBad base i = s.curveBad base i := rfl
@[simp] theorem State.advance_machinesOf (s : State) (tm : Time) (r : Nat) : (s.advance tm).machinesOf r = s.machinesOf r := rfl
@[simp] theorem State.advance_inFlightFor (s : State) (tm : Time) (r : Nat) (b : Mailbag) (c : Time × Bool) : (s.advance tm).inFlightFor r b c = s.inFlightFor r b c := rfl
@[simp] theorem State.advance_follows (s : State) (tm : Time) : (s.advance tm).follows = s.follows  := rfl
@[simp] theorem State.advance_composeFollow (s : State) (tm : Time) (d : PlkDispatch) : (s.advance tm).composeFollow d = s.composeFollow d := rfl
@[simp] theorem State.advance_cmdRound (s : State) (tm : Time) (f : RxFrame) : (s.advance tm).cmdRound f = s.cmdRound f := rfl
@[simp] theorem State.advance_amOk (s : State) (tm : Time) (m : Nat) : (s.advance tm).amOk m = s.amOk m := rfl
@[simp] theorem State.advance_am (s : State) (tm : Time) (m : Nat) : (s.advance tm).am m = s.am m := rfl
@[simp] theorem State.advance_amListed (s : State) (tm : Time) : (s.advance tm).amListed = s.amListed  := rfl
@[simp] theorem State.advance_inLetter (s : State) (tm : Time) (rnd : Nat) (ls : List Letter) (sel : Nat) : (s.advance tm).inLetter rnd ls sel = s.inLetter rnd ls sel := rfl
@[simp] theorem State.advance_inPage (s : State) (tm : Time) (g : Nat) (tk : Time) : (s.advance tm).inPage g tk = s.inPage g tk := rfl
@[simp] theorem State.advance_inIsl (s : State) (tm : Time) (rnd n sel : Nat) : (s.advance tm).inIsl rnd n sel = s.inIsl rnd n sel := rfl
@[simp] theorem State.advance_inOut (s : State) (tm : Time) (rnd n sel : Nat) : (s.advance tm).inOut rnd n sel = s.inOut rnd n sel := rfl
@[simp] theorem State.advance_gpioLevel (s : State) (tm : Time) (free : Nat) (p : Nat) : (s.advance tm).gpioLevel free p = s.gpioLevel free p := rfl
@[simp] theorem State.advance_inSupply (s : State) (tm : Time) (sel : Nat) : (s.advance tm).inSupply sel = s.inSupply sel := rfl
@[simp] theorem State.advance_amNext (s : State) (tm : Time) (m v : Nat) (tk : Time) : (s.advance tm).amNext m v tk = s.amNext m v tk := rfl
@[simp] theorem State.advance_ratio (s : State) (tm : Time) (r sid : Nat) : (s.advance tm).ratio r sid = s.ratio r sid := rfl
@[simp] theorem State.advance_eligible (s : State) (tm : Time) (r sid : Nat) : (s.advance tm).eligible r sid = s.eligible r sid := rfl
@[simp] theorem State.advance_gridInstant (s : State) (tm : Time) (r sid n : Nat) : (s.advance tm).gridInstant r sid n = s.gridInstant r sid n := rfl
@[simp] theorem State.advance_lapsedNow (s : State) (tm : Time) (r sid : Nat) : (s.advance tm).lapsedNow r sid = s.lapsedNow r sid := rfl
@[simp] theorem State.advance_liveSet (s : State) (tm : Time) (r : Nat) : (s.advance tm).liveSet r = s.liveSet r := rfl
@[simp] theorem State.advance_rndsOf (s : State) (tm : Time) (sid : Nat) : (s.advance tm).rndsOf sid = s.rndsOf sid := rfl
@[simp] theorem State.advance_quorum (s : State) (tm : Time) (r : Nat) : (s.advance tm).quorum r = s.quorum r := rfl
@[simp] theorem State.advance_slotAt (s : State) (tm : Time) (sid n : Nat) : (s.advance tm).slotAt sid n = s.slotAt sid n := rfl
@[simp] theorem State.advance_filed (s : State) (tm : Time) (sid n : Nat) : (s.advance tm).filed sid n = s.filed sid n := rfl
@[simp] theorem State.advance_memberLetter (s : State) (tm : Time) (r sid n : Nat) : (s.advance tm).memberLetter r sid n = s.memberLetter r sid n := rfl
@[simp] theorem State.advance_latency (s : State) (tm : Time) (l : Letter) : (s.advance tm).latency l = s.latency l := rfl
@[simp] theorem State.advance_quorumClose (s : State) (tm : Time) (r : Nat) (b : Mailbag) : (s.advance tm).quorumClose r b = s.quorumClose r b := rfl
@[simp] theorem State.advance_nextDeadline (s : State) (tm : Time) (r : Nat) : (s.advance tm).nextDeadline r = s.nextDeadline r := rfl
@[simp] theorem State.advance_nextFirst (s : State) (tm : Time) (r : Nat) : (s.advance tm).nextFirst r = s.nextFirst r := rfl
@[simp] theorem State.advance_warmStart (s : State) (tm : Time) : (s.advance tm).warmStart = s.warmStart  := rfl
@[simp] theorem State.advance_fullStart (s : State) (tm : Time) : (s.advance tm).fullStart = s.fullStart  := rfl
@[simp] theorem State.advance_slotImage (s : State) (tm : Time) (n : Nat) : (s.advance tm).slotImage n = s.slotImage n := rfl
@[simp] theorem State.advance_mhashNow (s : State) (tm : Time) : (s.advance tm).mhashNow = s.mhashNow  := rfl
@[simp] theorem State.advance_slotOpen (s : State) (tm : Time) (slot : Option (Nat × Nat)) : (s.advance tm).slotOpen slot = s.slotOpen slot := rfl
@[simp] theorem State.advance_itemRnd (s : State) (tm : Time) (w : Work) : (s.advance tm).itemRnd w = s.itemRnd w := rfl
@[simp] theorem State.advance_expiresAt (s : State) (tm : Time) (i : Item) : (s.advance tm).expiresAt i = s.expiresAt i := rfl
@[simp] theorem State.advance_itemMark (s : State) (tm : Time) (w : Work) : (s.advance tm).itemMark w = s.itemMark w := rfl
@[simp] theorem State.advance_otherSorter (s : State) (tm : Time) (n flow : Nat) : (s.advance tm).otherSorter n flow = s.otherSorter n flow := rfl
@[simp] theorem State.advance_inService (s : State) (tm : Time) (n : Nat) : (s.advance tm).inService n = s.inService n := rfl
@[simp] theorem State.advance_desc (s : State) (tm : Time) (sid : Nat) : (s.advance tm).desc sid = s.desc sid := rfl
@[simp] theorem State.advance_cand (s : State) (tm : Time) (sid : Nat) : (s.advance tm).cand sid = s.cand sid := rfl
@[simp] theorem State.advance_ueTimes (s : State) (tm : Time) (ch : Nat) : (s.advance tm).ueTimes ch = s.ueTimes ch := rfl
@[simp] theorem State.advance_warnC (s : State) (tm : Time) : (s.advance tm).warnC = s.warnC  := rfl
@[simp] theorem State.advance_critC (s : State) (tm : Time) : (s.advance tm).critC = s.critC  := rfl
@[simp] theorem State.advance_hystC (s : State) (tm : Time) : (s.advance tm).hystC = s.hystC  := rfl
@[simp] theorem State.advance_port (s : State) (tm : Time) (p : Nat) : (s.advance tm).port p = s.port p := rfl
@[simp] theorem State.advance_vlanOk (s : State) (tm : Time) (p : Nat) (v : Option Nat) : (s.advance tm).vlanOk p v = s.vlanOk p v := rfl
@[simp] theorem State.advance_prpForget (s : State) (tm : Time) : (s.advance tm).prpForget = s.prpForget  := rfl
@[simp] theorem State.advance_asduLetter (s : State) (tm : Time) (sid port : Nat) (franked : Bool) (rg : Bool) (a : SpduAsdu) (arr : Time) : (s.advance tm).asduLetter sid port franked rg a arr = s.asduLetter sid port franked rg a arr := rfl
@[simp] theorem State.advance_gapMax (s : State) (tm : Time) : (s.advance tm).gapMax = s.gapMax  := rfl
@[simp] theorem State.advance_useTest (s : State) (tm : Time) : (s.advance tm).useTest = s.useTest  := rfl
@[simp] theorem State.advance_chValue (s : State) (tm : Time) (g c : Nat) (ls : List Letter) (prev : Option Word) : (s.advance tm).chValue g c ls prev = s.chValue g c ls prev := rfl
@[simp] theorem State.advance_fed (s : State) (tm : Time) (r sid : Nat) : (s.advance tm).fed r sid = s.fed r sid := rfl
@[simp] theorem State.advance_grpPush (s : State) (tm : Time) (g r : Nat) (ls : List Letter) (v : GrpSt) : (s.advance tm).grpPush g r ls v = s.grpPush g r ls v := rfl
@[simp] theorem State.advance_grpAdd (s : State) (tm : Time) (g r n : Nat) (l : Letter) (v : GrpSt) : (s.advance tm).grpAdd g r n l v = s.grpAdd g r n l v := rfl
@[simp] theorem State.advance_grpAdds (s : State) (tm : Time) (g r n : Nat) (adds : List Letter) (v : GrpSt) : (s.advance tm).grpAdds g r n adds v = s.grpAdds g r n adds v := rfl
@[simp] theorem State.advance_chNorm (s : State) (tm : Time) (c : Nat) : (s.advance tm).chNorm c = s.chNorm c := rfl
@[simp] theorem State.advance_grpValues (s : State) (tm : Time) (g r j : Nat) (v : GrpSt) : (s.advance tm).grpValues g r j v = s.grpValues g r j v := rfl
@[simp] theorem State.advance_grpCentre (s : State) (tm : Time) (j : Nat) (xs : List (Nat × Word × Bool)) (v : GrpSt) : (s.advance tm).grpCentre j xs v = s.grpCentre j xs v := rfl
@[simp] theorem State.advance_grpTrack (s : State) (tm : Time) (g j : Nat) (v : GrpSt) : (s.advance tm).grpTrack g j v = s.grpTrack g j v := rfl
@[simp] theorem State.advance_grpDark (s : State) (tm : Time) (v : GrpSt) : (s.advance tm).grpDark v = s.grpDark v := rfl
@[simp] theorem State.advance_grpSuspend (s : State) (tm : Time) (g j : Nat) (v : GrpSt) : (s.advance tm).grpSuspend g j v = s.grpSuspend g j v := rfl
@[simp] theorem State.advance_grpResettle (s : State) (tm : Time) (j0 : Option Nat) (j : Nat) (v : GrpSt) : (s.advance tm).grpResettle j0 j v = s.grpResettle j0 j v := rfl
@[simp] theorem State.advance_bandCands (s : State) (tm : Time) (v : GrpSt) (slow : Bool) : (s.advance tm).bandCands v slow = s.bandCands v slow := rfl
@[simp] theorem State.advance_muteShape (s : State) (tm : Time) (v : GrpSt) (c : ModeCand) : (s.advance tm).muteShape v c = s.muteShape v c := rfl
@[simp] theorem State.advance_foPersist (s : State) (tm : Time) : (s.advance tm).foPersist = s.foPersist  := rfl
@[simp] theorem State.advance_lineStep (s : State) (tm : Time) (cs : List LineCand) (b : Nat) (v : GrpSt) : (s.advance tm).lineStep cs b v = s.lineStep cs b v := rfl
@[simp] theorem State.advance_autoChosen (s : State) (tm : Time) (v : GrpSt) (ranked : List Nat) (seats : Nat) : (s.advance tm).autoChosen v ranked seats = s.autoChosen v ranked seats := rfl
@[simp] theorem State.advance_giveSeat (s : State) (tm : Time) (h c : Nat) (v : GrpSt) : (s.advance tm).giveSeat h c v = s.giveSeat h c v := rfl
@[simp] theorem State.advance_pageBody (s : State) (tm : Time) (g b : Nat) : (s.advance tm).pageBody g b = s.pageBody g b := rfl
@[simp] theorem State.advance_grpCrc (s : State) (tm : Time) (g : Nat) : (s.advance tm).grpCrc g = s.grpCrc g := rfl
@[simp] theorem State.advance_preset (s : State) (tm : Time) (p : Nat) : (s.advance tm).preset p = s.preset p := rfl
@[simp] theorem State.advance_ptRate (s : State) (tm : Time) (p : Nat) : (s.advance tm).ptRate p = s.ptRate p := rfl
@[simp] theorem State.advance_ptDelay (s : State) (tm : Time) (p : Nat) : (s.advance tm).ptDelay p = s.ptDelay p := rfl
@[simp] theorem State.advance_ptF0 (s : State) (tm : Time) (p : Nat) : (s.advance tm).ptF0 p = s.ptF0 p := rfl
@[simp] theorem State.advance_ptOn (s : State) (tm : Time) (p : Nat) : (s.advance tm).ptOn p = s.ptOn p := rfl
@[simp] theorem State.advance_clocked (s : State) (tm : Time) (p : Nat) : (s.advance tm).clocked p = s.clocked p := rfl
@[simp] theorem State.advance_acqPt (s : State) (tm : Time) (p : Nat) : (s.advance tm).acqPt p = s.acqPt p := rfl
@[simp] theorem State.advance_acqLs (s : State) (tm : Time) (n : Nat) : (s.advance tm).acqLs n = s.acqLs n := rfl
@[simp] theorem State.advance_inFault (s : State) (tm : Time) (p j : Nat) : (s.advance tm).inFault p j = s.inFault p j := rfl
@[simp] theorem State.advance_curvePts (s : State) (tm : Time) (i : Nat) : (s.advance tm).curvePts i = s.curvePts i := rfl
@[simp] theorem State.advance_coefOf (s : State) (tm : Time) (p j : Nat) (key : Word) : (s.advance tm).coefOf p j key = s.coefOf p j key := rfl
@[simp] theorem State.advance_lsFps (s : State) (tm : Time) (n : Nat) : (s.advance tm).lsFps n = s.lsFps n := rfl
@[simp] theorem State.advance_lsM (s : State) (tm : Time) (n : Nat) : (s.advance tm).lsM n = s.lsM n := rfl
@[simp] theorem State.advance_lsF0 (s : State) (tm : Time) (n : Nat) : (s.advance tm).lsF0 n = s.lsF0 n := rfl
@[simp] theorem State.advance_svRate (s : State) (tm : Time) (q : Nat) : (s.advance tm).svRate q = s.svRate q := rfl
@[simp] theorem State.advance_lsRate (s : State) (tm : Time) (n : Nat) : (s.advance tm).lsRate n = s.lsRate n := rfl
@[simp] theorem State.advance_lsSrcOn (s : State) (tm : Time) (n : Nat) : (s.advance tm).lsSrcOn n = s.lsSrcOn n := rfl
@[simp] theorem State.advance_lsCheck (s : State) (tm : Time) (n : Nat) : (s.advance tm).lsCheck n = s.lsCheck n := rfl
@[simp] theorem State.advance_lsOn (s : State) (tm : Time) (n : Nat) : (s.advance tm).lsOn n = s.lsOn n := rfl
@[simp] theorem State.advance_capWord (s : State) (tm : Time) (f : Fld) (u : Nat) : (s.advance tm).capWord f u = s.capWord f u := rfl
@[simp] theorem State.advance_capType (s : State) (tm : Time) (u : Nat) : (s.advance tm).capType u = s.capType u := rfl
@[simp] theorem State.advance_capExcursion (s : State) (tm : Time) (u : Nat) (t : Time) (x : Option Word) (e : Option CapExc) : (s.advance tm).capExcursion u t x e = s.capExcursion u t x e := rfl
@[simp] theorem State.advance_capSlew (s : State) (tm : Time) (u rate : Nat) (line : List (Option Word)) : (s.advance tm).capSlew u rate line = s.capSlew u rate line := rfl
@[simp] theorem State.advance_capTrigger (s : State) (tm : Time) (u rate : Nat) (t : Time) (x : Option Word) (v : CapUnit) : (s.advance tm).capTrigger u rate t x v = s.capTrigger u rate t x v := rfl
@[simp] theorem State.advance_capRecord (s : State) (tm : Time) (u rate : Nat) (v : CapUnit) (c : CapCur) : (s.advance tm).capRecord u rate v c = s.capRecord u rate v c := rfl
@[simp] theorem State.advance_capLetter (s : State) (tm : Time) (u r : Nat) (ls : List Letter) (c : Nat) : (s.advance tm).capLetter u r ls c = s.capLetter u r ls c := rfl
@[simp] theorem State.advance_nrgPt (s : State) (tm : Time) (p : Nat) : (s.advance tm).nrgPt p = s.nrgPt p := rfl
@[simp] theorem State.advance_pqFlags (s : State) (tm : Time) : (s.advance tm).pqFlags = s.pqFlags  := rfl
@[simp] theorem State.advance_intS (s : State) (tm : Time) : (s.advance tm).intS = s.intS  := rfl
@[simp] theorem State.advance_intStart (s : State) (tm : Time) (t : Time) : (s.advance tm).intStart t = s.intStart t := rfl
@[simp] theorem State.advance_activeRole (s : State) (tm : Time) : (s.advance tm).activeRole = s.activeRole  := rfl
@[simp] theorem State.advance_holding (s : State) (tm : Time) : (s.advance tm).holding = s.holding  := rfl
@[simp] theorem State.advance_responds (s : State) (tm : Time) (off : Nat) : (s.advance tm).responds off = s.responds off := rfl
@[simp] theorem State.advance_word (s : State) (tm : Time) (off : Nat) : (s.advance tm).word off = s.word off := rfl
@[simp] theorem State.advance_rd (s : State) (tm : Time) (f : Fld) (idx : List Nat) : (s.advance tm).rd f idx = s.rd f idx := rfl
@[simp] theorem State.advance_flag (s : State) (tm : Time) (f : Fld) (idx : List Nat) : (s.advance tm).flag f idx = s.flag f idx := rfl
@[simp] theorem State.advance_rd64 (s : State) (tm : Time) (f : Fld) (idx : List Nat) : (s.advance tm).rd64 f idx = s.rd64 f idx := rfl
@[simp] theorem State.advance_rdWords (s : State) (tm : Time) (f : Fld) (idx : List Nat) (n : Nat) : (s.advance tm).rdWords f idx n = s.rdWords f idx n := rfl
@[simp] theorem State.advance_listed (s : State) (tm : Time) (lo hi : Nat) : (s.advance tm).listed lo hi = s.listed lo hi := rfl
@[simp] theorem State.advance_entries (s : State) (tm : Time) (base stride count : Nat) : (s.advance tm).entries base stride count = s.entries base stride count := rfl
@[simp] theorem State.advance_regBytes (s : State) (tm : Time) (off nwords : Nat) : (s.advance tm).regBytes off nwords = s.regBytes off nwords := rfl
@[simp] theorem State.advance_mode (s : State) (tm : Time) : (s.advance tm).mode = s.mode  := rfl
@[simp] theorem State.advance_processing (s : State) (tm : Time) : (s.advance tm).processing = s.processing  := rfl
@[simp] theorem State.advance_emitting (s : State) (tm : Time) : (s.advance tm).emitting = s.emitting  := rfl
@[simp] theorem State.advance_stepAllowed (s : State) (tm : Time) : (s.advance tm).stepAllowed = s.stepAllowed  := rfl
@[simp] theorem State.advance_rwlOpen (s : State) (tm : Time) : (s.advance tm).rwlOpen = s.rwlOpen  := rfl
@[simp] theorem State.advance_prSrc (s : State) (tm : Time) (r : Nat) : (s.advance tm).prSrc r = s.prSrc r := rfl
@[simp] theorem State.advance_ringTakes (s : State) (tm : Time) (src rnd : Nat) (sel : Nat → Bool) (r : Nat) : (s.advance tm).ringTakes src rnd sel r = s.ringTakes src rnd sel r := rfl
@[simp] theorem State.advance_prSlog (s : State) (tm : Time) (r : Nat) : (s.advance tm).prSlog r = s.prSlog r := rfl
@[simp] theorem State.advance_prDlog (s : State) (tm : Time) (r : Nat) : (s.advance tm).prDlog r = s.prDlog r := rfl
@[simp] theorem State.advance_prFreeD (s : State) (tm : Time) (r : Nat) : (s.advance tm).prFreeD r = s.prFreeD r := rfl
@[simp] theorem State.advance_prFreeB (s : State) (tm : Time) (r : Nat) : (s.advance tm).prFreeB r = s.prFreeB r := rfl
@[simp] theorem State.advance_prStart (s : State) (tm : Time) (r len : Nat) : (s.advance tm).prStart r len = s.prStart r len := rfl
@[simp] theorem State.advance_prNeed (s : State) (tm : Time) (r len : Nat) : (s.advance tm).prNeed r len = s.prNeed r len := rfl
@[simp] theorem State.advance_roundTol (s : State) (tm : Time) : (s.advance tm).roundTol = s.roundTol  := rfl
@[simp] theorem State.advance_stabRd (s : State) (tm : Time) (f g : Fld) (sid : Nat) : (s.advance tm).stabRd f g sid = s.stabRd f g sid := rfl
@[simp] theorem State.advance_sidFps (s : State) (tm : Time) (sid : Nat) : (s.advance tm).sidFps sid = s.sidFps sid := rfl
@[simp] theorem State.advance_sidState (s : State) (tm : Time) (sid : Nat) : (s.advance tm).sidState sid = s.sidState sid := rfl
@[simp] theorem State.advance_prpOf (s : State) (tm : Time) (p : Nat) : (s.advance tm).prpOf p = s.prpOf p := rfl
@[simp] theorem State.advance_portVlan (s : State) (tm : Time) (p : Nat) : (s.advance tm).portVlan p = s.portVlan p := rfl
@[simp] theorem State.advance_srtState (s : State) (tm : Time) (n : Nat) : (s.advance tm).srtState n = s.srtState n := rfl
@[simp] theorem State.advance_fenced (s : State) (tm : Time) (n : Nat) : (s.advance tm).fenced n = s.fenced n := rfl
@[simp] theorem State.advance_srtHid (s : State) (tm : Time) (n : Nat) : (s.advance tm).srtHid n = s.srtHid n := rfl
@[simp] theorem State.advance_unfenced (s : State) (tm : Time) : (s.advance tm).unfenced = s.unfenced  := rfl
@[simp] theorem State.advance_feeder (s : State) (tm : Time) (flow : Nat) : (s.advance tm).feeder flow = s.feeder flow := rfl
@[simp] theorem State.advance_ownHome (s : State) (tm : Time) (flow : Nat) : (s.advance tm).ownHome flow = s.ownHome flow := rfl
@[simp] theorem State.advance_ownFallback (s : State) (tm : Time) (flow : Nat) : (s.advance tm).ownFallback flow = s.ownFallback flow := rfl
@[simp] theorem State.advance_home (s : State) (tm : Time) (flow : Nat) : (s.advance tm).home flow = s.home flow := rfl
@[simp] theorem State.advance_fallback (s : State) (tm : Time) (flow : Nat) : (s.advance tm).fallback flow = s.fallback flow := rfl
@[simp] theorem State.advance_occ (s : State) (tm : Time) (c : Nat) : (s.advance tm).occ c = s.occ c := rfl
@[simp] theorem State.advance_place (s : State) (tm : Time) (flow : Nat) : (s.advance tm).place flow = s.place flow := rfl
@[simp] theorem State.advance_surplus (s : State) (tm : Time) (n : Nat) : (s.advance tm).surplus n = s.surplus n := rfl
@[simp] theorem State.advance_busy (s : State) (tm : Time) (n : Nat) : (s.advance tm).busy n = s.busy n := rfl
@[simp] theorem State.advance_readsIsl (s : State) (tm : Time) (m : Nat) : (s.advance tm).readsIsl m = s.readsIsl m := rfl
@[simp] theorem State.advance_waitsSep (s : State) (tm : Time) (i : Item) : (s.advance tm).waitsSep i = s.waitsSep i := rfl
@[simp] theorem State.advance_startable (s : State) (tm : Time) (i : Item) : (s.advance tm).startable i = s.startable i := rfl
@[simp] theorem State.advance_granted (s : State) (tm : Time) (i : Item) : (s.advance tm).granted i = s.granted i := rfl
@[simp] theorem State.advance_nextRun (s : State) (tm : Time) (flow : Nat) (p : Work → Bool) : (s.advance tm).nextRun flow p = s.nextRun flow p := rfl
@[simp] theorem State.advance_cmpCmds (s : State) (tm : Time) : (s.advance tm).cmpCmds = s.cmpCmds  := rfl
@[simp] theorem State.advance_capUnit (s : State) (tm : Time) (u : Nat) : (s.advance tm).capUnit u = s.capUnit u := rfl
@[simp] theorem State.advance_capState (s : State) (tm : Time) (u : Nat) : (s.advance tm).capState u = s.capState u := rfl
@[simp] theorem State.advance_capNch (s : State) (tm : Time) (u : Nat) : (s.advance tm).capNch u = s.capNch u := rfl
@[simp] theorem State.advance_capPre (s : State) (tm : Time) (u : Nat) : (s.advance tm).capPre u = s.capPre u := rfl
@[simp] theorem State.advance_capPost (s : State) (tm : Time) (u : Nat) : (s.advance tm).capPost u = s.capPost u := rfl
@[simp] theorem State.advance_capSegs (s : State) (tm : Time) (u : Nat) : (s.advance tm).capSegs u = s.capSegs u := rfl
@[simp] theorem State.advance_capSegBytes (s : State) (tm : Time) (u : Nat) : (s.advance tm).capSegBytes u = s.capSegBytes u := rfl
@[simp] theorem State.advance_capChOk (s : State) (tm : Time) (u c : Nat) : (s.advance tm).capChOk u c = s.capChOk u c := rfl
@[simp] theorem State.advance_capCheck (s : State) (tm : Time) (u : Nat) : (s.advance tm).capCheck u = s.capCheck u := rfl
@[simp] theorem State.advance_capFree (s : State) (tm : Time) (u : Nat) : (s.advance tm).capFree u = s.capFree u := rfl
@[simp] theorem State.advance_xDrives (s : State) (tm : Time) : (s.advance tm).xDrives = s.xDrives  := rfl
@[simp] theorem State.advance_armPull (s : State) (tm : Time) : (s.advance tm).armPull = s.armPull  := rfl
@[simp] theorem State.advance_capValid (s : State) (tm : Time) (u : Nat) : (s.advance tm).capValid u = s.capValid u := rfl
@[simp] theorem State.advance_theta (s : State) (tm : Time) (d : Nat) (m : SyncMsg) : (s.advance tm).theta d m = s.theta d m := rfl
@[simp] theorem State.advance_utcDiffer (s : State) (tm : Time) : (s.advance tm).utcDiffer = s.utcDiffer  := rfl
@[simp] theorem State.advance_meanLink (s : State) (tm : Time) (m : PdelayMsg) : (s.advance tm).meanLink m = s.meanLink m := rfl
@[simp] theorem State.advance_ppsDriven (s : State) (tm : Time) : (s.advance tm).ppsDriven = s.ppsDriven  := rfl
@[simp] theorem State.advance_ppsEdgeAt (s : State) (tm : Time) (t : Time) : (s.advance tm).ppsEdgeAt t = s.ppsEdgeAt t := rfl
@[simp] theorem State.advance_cat (s : State) (tm : Time) (n : Nat) : (s.advance tm).cat n = s.cat n := rfl
@[simp] theorem State.advance_keyRun (s : State) (tm : Time) (n : Nat) : (s.advance tm).keyRun n = s.keyRun n := rfl
@[simp] theorem State.advance_spareSlots (s : State) (tm : Time) : (s.advance tm).spareSlots = s.spareSlots  := rfl
@[simp] theorem State.advance_inReserve (s : State) (tm : Time) (n : Nat) (sign : Bool) : (s.advance tm).inReserve n sign = s.inReserve n sign := rfl
@[simp] theorem State.advance_keyFor (s : State) (tm : Time) (keyid useBit : Nat) : (s.advance tm).keyFor keyid useBit = s.keyFor keyid useBit := rfl
@[simp] theorem State.advance_startHigh (s : State) (tm : Time) (keyid : Nat) : (s.advance tm).startHigh keyid = s.startHigh keyid := rfl
@[simp] theorem State.advance_membCode (s : State) (tm : Time) (f : Fld) (r sid : Nat) : (s.advance tm).membCode f r sid = s.membCode f r sid := rfl
@[simp] theorem State.advance_isMember (s : State) (tm : Time) (r sid : Nat) : (s.advance tm).isMember r sid = s.isMember r sid := rfl
@[simp] theorem State.advance_membersIn (s : State) (tm : Time) (f : Fld) (r : Nat) : (s.advance tm).membersIn f r = s.membersIn f r := rfl
@[simp] theorem State.advance_members (s : State) (tm : Time) (r : Nat) : (s.advance tm).members r = s.members r := rfl
@[simp] theorem State.advance_rndOn (s : State) (tm : Time) (r : Nat) : (s.advance tm).rndOn r = s.rndOn r := rfl
@[simp] theorem State.advance_rndsOn (s : State) (tm : Time) : (s.advance tm).rndsOn = s.rndsOn  := rfl
@[simp] theorem State.advance_rndFps (s : State) (tm : Time) (r : Nat) : (s.advance tm).rndFps r = s.rndFps r := rfl
@[simp] theorem State.advance_rndSt (s : State) (tm : Time) (r : Nat) : (s.advance tm).rndSt r = s.rndSt r := rfl
@[simp] theorem State.advance_rndPhn (s : State) (tm : Time) (r : Nat) : (s.advance tm).rndPhn r = s.rndPhn r := rfl
@[simp] theorem State.advance_rndAnn (s : State) (tm : Time) (r : Nat) : (s.advance tm).rndAnn r = s.rndAnn r := rfl
@[simp] theorem State.advance_rndDgn (s : State) (tm : Time) (r : Nat) : (s.advance tm).rndDgn r = s.rndDgn r := rfl
@[simp] theorem State.advance_frameSize (s : State) (tm : Time) (r m : Nat) : (s.advance tm).frameSize r m = s.frameSize r m := rfl
@[simp] theorem State.advance_overlay (s : State) (tm : Time) (r : Nat) : (s.advance tm).overlay r = s.overlay r := rfl
@[simp] theorem State.advance_digUnit (s : State) (tm : Time) (r sid w : Nat) : (s.advance tm).digUnit r sid w = s.digUnit r sid w := rfl
@[simp] theorem State.advance_rndFnom (s : State) (tm : Time) (sid : Nat) : (s.advance tm).rndFnom sid = s.rndFnom sid := rfl
@[simp] theorem State.advance_cfgBlk (s : State) (tm : Time) (r sid : Nat) : (s.advance tm).cfgBlk r sid = s.cfgBlk r sid := rfl
@[simp] theorem State.advance_overlaid (s : State) (tm : Time) (r : Nat) (f : OutFrame) : (s.advance tm).overlaid r f = s.overlaid r f := rfl
@[simp] theorem State.advance_portsOf (s : State) (tm : Time) (mask : Nat) : (s.advance tm).portsOf mask = s.portsOf mask := rfl
@[simp] theorem State.advance_rndDst (s : State) (tm : Time) (r : Nat) : (s.advance tm).rndDst r = s.rndDst r := rfl
@[simp] theorem State.advance_sender (s : State) (tm : Time) (w : Who) : (s.advance tm).sender w = s.sender w := rfl
@[simp] theorem State.advance_senderByKey (s : State) (tm : Time) (k : Nat) : (s.advance tm).senderByKey k = s.senderByKey k := rfl
@[simp] theorem State.advance_evictable (s : State) (tm : Time) : (s.advance tm).evictable = s.evictable  := rfl
@[simp] theorem State.advance_freePend (s : State) (tm : Time) : (s.advance tm).freePend = s.freePend  := rfl
@[simp] theorem State.advance_ruleAddr (s : State) (tm : Time) (r : Nat) (w : Who) : (s.advance tm).ruleAddr r w = s.ruleAddr r w := rfl
@[simp] theorem State.advance_ruleFits (s : State) (tm : Time) (r : Nat) (w : Who) : (s.advance tm).ruleFits r w = s.ruleFits r w := rfl
@[simp] theorem State.advance_ruleFor (s : State) (tm : Time) (w : Who) : (s.advance tm).ruleFor w = s.ruleFor w := rfl
@[simp] theorem State.advance_names (s : State) (tm : Time) (sid : Nat) (e : Sender) : (s.advance tm).names sid e = s.names sid e := rfl
@[simp] theorem State.advance_nameless (s : State) (tm : Time) (sid : Nat) : (s.advance tm).nameless sid = s.nameless sid := rfl
@[simp] theorem State.advance_sidFree (s : State) (tm : Time) (sid : Nat) : (s.advance tm).sidFree sid = s.sidFree sid := rfl
@[simp] theorem State.advance_heldSids (s : State) (tm : Time) (e : Sender) : (s.advance tm).heldSids e = s.heldSids e := rfl
@[simp] theorem State.advance_oldestFree (s : State) (tm : Time) : (s.advance tm).oldestFree = s.oldestFree  := rfl
@[simp] theorem State.advance_sidFor (s : State) (tm : Time) (e : Sender) (blk : Nat) : (s.advance tm).sidFor e blk = s.sidFor e blk := rfl
@[simp] theorem State.advance_needsFrank (s : State) (tm : Time) (e : Sender) : (s.advance tm).needsFrank e = s.needsFrank e := rfl
@[simp] theorem State.advance_staging (s : State) (tm : Time) : (s.advance tm).staging = s.staging  := rfl
@[simp] theorem State.advance_mkLetter (s : State) (tm : Time) (sid flags port lanB tcp gen : Nat) (t arr : Time) (ws : List Word) (v : BlkVals) (tq : Nat) : (s.advance tm).mkLetter sid flags port lanB tcp gen t arr ws v tq = s.mkLetter sid flags port lanB tcp gen t arr ws v tq := rfl
@[simp] theorem State.advance_bkdSec (s : State) (tm : Time) : (s.advance tm).bkdSec = s.bkdSec  := rfl
@[simp] theorem State.advance_bkdSet (s : State) (tm : Time) : (s.advance tm).bkdSet = s.bkdSet  := rfl
@[simp] theorem State.advance_bkdAlm (s : State) (tm : Time) : (s.advance tm).bkdAlm = s.bkdAlm  := rfl
@[simp] theorem State.advance_tcN (s : State) (tm : Time) (temp : Nat) : (s.advance tm).tcN temp = s.tcN temp := rfl
@[simp] theorem State.advance_copyMachines (s : State) (tm : Time) : (s.advance tm).copyMachines = s.copyMachines  := rfl
@[simp] theorem State.advance_copyAlarms (s : State) (tm : Time) : (s.advance tm).copyAlarms = s.copyAlarms  := rfl
@[simp] theorem State.advance_copyKeys (s : State) (tm : Time) : (s.advance tm).copyKeys = s.copyKeys  := rfl
@[simp] theorem State.advance_copyIsl (s : State) (tm : Time) : (s.advance tm).copyIsl = s.copyIsl  := rfl
@[simp] theorem State.advance_cacheState (s : State) (tm : Time) (sid : Nat) : (s.advance tm).cacheState sid = s.cacheState sid := rfl
@[simp] theorem State.advance_identWords (s : State) (tm : Time) (sid : Nat) : (s.advance tm).identWords sid = s.identWords sid := rfl
@[simp] theorem State.advance_copyRounds (s : State) (tm : Time) : (s.advance tm).copyRounds = s.copyRounds  := rfl
@[simp] theorem State.advance_standbyThere (s : State) (tm : Time) : (s.advance tm).standbyThere = s.standbyThere  := rfl
@[simp] theorem State.advance_openSlots (s : State) (tm : Time) : (s.advance tm).openSlots = s.openSlots  := rfl
@[simp] theorem State.advance_roleMode (s : State) (tm : Time) : (s.advance tm).roleMode = s.roleMode  := rfl
@[simp] theorem State.advance_rwlRefused (s : State) (tm : Time) (off : Nat) (w : Word) : (s.advance tm).rwlRefused off w = s.rwlRefused off w := rfl
@[simp] theorem State.advance_shown (s : State) (tm : Time) (off : Nat) : (s.advance tm).shown off = s.shown off := rfl
@[simp] theorem State.advance_crcAt (s : State) (tm : Time) (off n : Nat) : (s.advance tm).crcAt off n = s.crcAt off n := rfl
@[simp] theorem State.advance_chOk (s : State) (tm : Time) (c : Nat) : (s.advance tm).chOk c = s.chOk c := rfl
@[simp] theorem State.advance_chansOf (s : State) (tm : Time) (g : Nat) : (s.advance tm).chansOf g = s.chansOf g := rfl
@[simp] theorem State.advance_memberChans (s : State) (tm : Time) (g : Nat) : (s.advance tm).memberChans g = s.memberChans g := rfl
@[simp] theorem State.advance_candChans (s : State) (tm : Time) (g : Nat) : (s.advance tm).candChans g = s.candChans g := rfl
@[simp] theorem State.advance_agRnd (s : State) (tm : Time) (g : Nat) : (s.advance tm).agRnd g = s.agRnd g := rfl
@[simp] theorem State.advance_agModes (s : State) (tm : Time) (g : Nat) : (s.advance tm).agModes g = s.agModes g := rfl
@[simp] theorem State.advance_fgtF (s : State) (tm : Time) : (s.advance tm).fgtF = s.fgtF  := rfl
@[simp] theorem State.advance_fgtS (s : State) (tm : Time) : (s.advance tm).fgtS = s.fgtS  := rfl
@[simp] theorem State.advance_rateOk (s : State) (tm : Time) (r : Nat) : (s.advance tm).rateOk r = s.rateOk r := rfl
@[simp] theorem State.advance_grpCheck (s : State) (tm : Time) (g : Nat) : (s.advance tm).grpCheck g = s.grpCheck g := rfl
@[simp] theorem State.advance_agRank (s : State) (tm : Time) (g : Nat) : (s.advance tm).agRank g = s.agRank g := rfl
@[simp] theorem State.advance_seedFast (s : State) (tm : Time) (g n : Nat) : (s.advance tm).seedFast g n = s.seedFast g n := rfl
@[simp] theorem State.advance_seedSlow (s : State) (tm : Time) (g n : Nat) : (s.advance tm).seedSlow g n = s.seedSlow g n := rfl
@[simp] theorem State.advance_grpNew (s : State) (tm : Time) (g : Nat) : (s.advance tm).grpNew g = s.grpNew g := rfl
@[simp] theorem State.advance_grp (s : State) (tm : Time) (g : Nat) : (s.advance tm).grp g = s.grp g := rfl
@[simp] theorem State.advance_chStale (s : State) (tm : Time) (v : GrpSt) (c : Nat) : (s.advance tm).chStale v c = s.chStale v c := rfl
@[simp] theorem State.advance_chMute (s : State) (tm : Time) (v : GrpSt) (c : Nat) : (s.advance tm).chMute v c = s.chMute v c := rfl
@[simp] theorem State.advance_grpState (s : State) (tm : Time) (g : Nat) (v : GrpSt) : (s.advance tm).grpState g v = s.grpState g v := rfl
@[simp] theorem State.advance_defCrc (s : State) (tm : Time) (g : Nat) : (s.advance tm).defCrc g = s.defCrc g := rfl
@[simp] theorem State.advance_grpsOn (s : State) (tm : Time) : (s.advance tm).grpsOn = s.grpsOn  := rfl
@[simp] theorem State.advance_brOk (s : State) (tm : Time) (b : Nat) : (s.advance tm).brOk b = s.brOk b := rfl
@[simp] theorem State.advance_defCheck (s : State) (tm : Time) : (s.advance tm).defCheck = s.defCheck  := rfl
@[simp] theorem State.advance_siteOk (s : State) (tm : Time) (i : Nat) : (s.advance tm).siteOk i = s.siteOk i := rfl
@[simp] theorem State.advance_sites (s : State) (tm : Time) : (s.advance tm).sites = s.sites  := rfl
@[simp] theorem State.advance_tieOk (s : State) (tm : Time) (t : Nat) : (s.advance tm).tieOk t = s.tieOk t := rfl
@[simp] theorem State.advance_ties (s : State) (tm : Time) : (s.advance tm).ties = s.ties  := rfl
@[simp] theorem State.advance_islCheck (s : State) (tm : Time) : (s.advance tm).islCheck = s.islCheck  := rfl
@[simp] theorem State.advance_islFgt (s : State) (tm : Time) : (s.advance tm).islFgt = s.islFgt  := rfl
@[simp] theorem State.advance_islRank (s : State) (tm : Time) : (s.advance tm).islRank = s.islRank  := rfl
@[simp] theorem State.advance_trkNew (s : State) (tm : Time) : (s.advance tm).trkNew = s.trkNew  := rfl
@[simp] theorem State.advance_grpFits (s : State) (tm : Time) (g : Nat) : (s.advance tm).grpFits g = s.grpFits g := rfl
@[simp] theorem State.advance_hbHead (s : State) (tm : Time) : (s.advance tm).hbHead = s.hbHead  := rfl
@[simp] theorem State.advance_hbWord (s : State) (tm : Time) : (s.advance tm).hbWord = s.hbWord  := rfl
@[simp] theorem State.advance_mayDeclare (s : State) (tm : Time) : (s.advance tm).mayDeclare = s.mayDeclare  := rfl
@[simp] theorem State.advance_agreed (s : State) (tm : Time) : (s.advance tm).agreed = s.agreed  := rfl
@[simp] theorem State.advance_ownHello (s : State) (tm : Time) : (s.advance tm).ownHello = s.ownHello  := rfl
@[simp] theorem State.advance_ownDigest (s : State) (tm : Time) (isl : Bool) (g : Nat) : (s.advance tm).ownDigest isl g = s.ownDigest isl g := rfl
@[simp] theorem State.advance_serialBytes (s : State) (tm : Time) : (s.advance tm).serialBytes = s.serialBytes  := rfl
@[simp] theorem State.advance_identity (s : State) (tm : Time) : (s.advance tm).identity = s.identity  := rfl
@[simp] theorem State.advance_newPhys (s : State) (tm : Time) : (s.advance tm).newPhys = s.newPhys  := rfl
@[simp] theorem State.advance_family (s : State) (tm : Time) (n : Nat) : (s.advance tm).family n = s.family n := rfl
@[simp] theorem State.advance_keyModeB (s : State) (tm : Time) : (s.advance tm).keyModeB = s.keyModeB  := rfl
@[simp] theorem State.advance_keyModeA (s : State) (tm : Time) (slot : Nat) : (s.advance tm).keyModeA slot = s.keyModeA slot := rfl
@[simp] theorem State.advance_childCode (s : State) (tm : Time) (n : Nat) (e : CatEnt) (useBit : Nat) : (s.advance tm).childCode n e useBit = s.childCode n e useBit := rfl
@[simp] theorem State.advance_withDepth (s : State) (tm : Time) (n : Nat) (e : CatEnt) : (s.advance tm).withDepth n e = s.withDepth n e := rfl
@[simp] theorem State.advance_root (s : State) (tm : Time) : (s.advance tm).root = s.root  := rfl
@[simp] theorem State.advance_ctrEntries (s : State) (tm : Time) : (s.advance tm).ctrEntries = s.ctrEntries  := rfl
@[simp] theorem State.advance_islRnd (s : State) (tm : Time) : (s.advance tm).islRnd = s.islRnd  := rfl
@[simp] theorem State.advance_islUseTest (s : State) (tm : Time) : (s.advance tm).islUseTest = s.islUseTest  := rfl
@[simp] theorem State.advance_siteLetter (s : State) (tm : Time) (i : Nat) (ls : List Letter) : (s.advance tm).siteLetter i ls = s.siteLetter i ls := rfl
@[simp] theorem State.advance_trkPush (s : State) (tm : Time) (r : Nat) (ls : List Letter) (v : IslTrk) : (s.advance tm).trkPush r ls v = s.trkPush r ls v := rfl
@[simp] theorem State.advance_trkSample (s : State) (tm : Time) (r j : Nat) (v : IslTrk) : (s.advance tm).trkSample r j v = s.trkSample r j v := rfl
@[simp] theorem State.advance_minSites (s : State) (tm : Time) : (s.advance tm).minSites = s.minSites  := rfl
@[simp] theorem State.advance_pinned (s : State) (tm : Time) : (s.advance tm).pinned = s.pinned  := rfl
@[simp] theorem State.advance_clustIn (s : State) (tm : Time) : (s.advance tm).clustIn = s.clustIn  := rfl
@[simp] theorem State.advance_groups (s : State) (tm : Time) : (s.advance tm).groups = s.groups  := rfl
@[simp] theorem State.advance_islFrozen (s : State) (tm : Time) : (s.advance tm).islFrozen = s.islFrozen  := rfl
@[simp] theorem State.advance_groupSites (s : State) (tm : Time) (g : Nat) : (s.advance tm).groupSites g = s.groupSites g := rfl
@[simp] theorem State.advance_bounding (s : State) (tm : Time) (g : Nat) : (s.advance tm).bounding g = s.bounding g := rfl
@[simp] theorem State.advance_tiesOpen (s : State) (tm : Time) (g : Nat) : (s.advance tm).tiesOpen g = s.tiesOpen g := rfl
@[simp] theorem State.advance_bkrOpen (s : State) (tm : Time) (g : Nat) : (s.advance tm).bkrOpen g = s.bkrOpen g := rfl
@[simp] theorem State.advance_cg (s : State) (tm : Time) (g : Nat) : (s.advance tm).cg g = s.cg g := rfl
@[simp] theorem State.advance_cgQuorum (s : State) (tm : Time) (g : Nat) : (s.advance tm).cgQuorum g = s.cgQuorum g := rfl
@[simp] theorem State.advance_hasQuorum (s : State) (tm : Time) (g : Nat) : (s.advance tm).hasQuorum g = s.hasQuorum g := rfl
@[simp] theorem State.advance_reference (s : State) (tm : Time) (f : Fld) : (s.advance tm).reference f = s.reference f := rfl
@[simp] theorem State.advance_dfLimit (s : State) (tm : Time) : (s.advance tm).dfLimit = s.dfLimit  := rfl
@[simp] theorem State.advance_drLimit (s : State) (tm : Time) : (s.advance tm).drLimit = s.drLimit  := rfl
@[simp] theorem State.advance_cgAbs (s : State) (tm : Time) (f : Fld) (g : Nat) : (s.advance tm).cgAbs f g = s.cgAbs f g := rfl
@[simp] theorem State.advance_showsSep (s : State) (tm : Time) (g : Nat) : (s.advance tm).showsSep g = s.showsSep g := rfl
@[simp] theorem State.advance_rejoins (s : State) (tm : Time) (g : Nat) : (s.advance tm).rejoins g = s.rejoins g := rfl
@[simp] theorem State.advance_flashAt (s : State) (tm : Time) (a : Nat) : (s.advance tm).flashAt a = s.flashAt a := rfl
@[simp] theorem State.advance_flashBytes (s : State) (tm : Time) (a n : Nat) : (s.advance tm).flashBytes a n = s.flashBytes a n := rfl
@[simp] theorem State.advance_imCheck7 (s : State) (tm : Time) (d : List Byte) : (s.advance tm).imCheck7 d = s.imCheck7 d := rfl
@[simp] theorem State.advance_imCheck8 (s : State) (tm : Time) (d : List Byte) : (s.advance tm).imCheck8 d = s.imCheck8 d := rfl
@[simp] theorem State.advance_imCheck9 (s : State) (tm : Time) (d : List Byte) : (s.advance tm).imCheck9 d = s.imCheck9 d := rfl
@[simp] theorem State.advance_alarmBits (s : State) (tm : Time) : (s.advance tm).alarmBits = s.alarmBits  := rfl
@[simp] theorem State.advance_alarmShown (s : State) (tm : Time) : (s.advance tm).alarmShown = s.alarmShown  := rfl
@[simp] theorem State.advance_pubT0 (s : State) (tm : Time) (q : Nat) : (s.advance tm).pubT0 q = s.pubT0 q := rfl
@[simp] theorem State.advance_pubTmin (s : State) (tm : Time) (q : Nat) : (s.advance tm).pubTmin q = s.pubTmin q := rfl
@[simp] theorem State.advance_pubCount (s : State) (tm : Time) (q : Nat) : (s.advance tm).pubCount q = s.pubCount q := rfl
@[simp] theorem State.advance_pubHas (s : State) (tm : Time) (q bit : Nat) : (s.advance tm).pubHas q bit = s.pubHas q bit := rfl
@[simp] theorem State.advance_pubMembers (s : State) (tm : Time) (q : Nat) : (s.advance tm).pubMembers q = s.pubMembers q := rfl
@[simp] theorem State.advance_pubPorts (s : State) (tm : Time) (q : Nat) : (s.advance tm).pubPorts q = s.pubPorts q := rfl
@[simp] theorem State.advance_srcShed (s : State) (tm : Time) (src : Nat) : (s.advance tm).srcShed src = s.srcShed src := rfl
@[simp] theorem State.advance_alarmPin (s : State) (tm : Time) (p : Nat) : (s.advance tm).alarmPin p = s.alarmPin p := rfl
@[simp] theorem State.advance_lsEstim (s : State) (tm : Time) (n : Nat) : (s.advance tm).lsEstim n = s.lsEstim n := rfl
@[simp] theorem State.advance_lsReach (s : State) (tm : Time) (n : Nat) : (s.advance tm).lsReach n = s.lsReach n := rfl
@[simp] theorem State.advance_lsFirst (s : State) (tm : Time) (n : Nat) (t : Time) : (s.advance tm).lsFirst n t = s.lsFirst n t := rfl
@[simp] theorem State.advance_lsNewest (s : State) (tm : Time) (n : Nat) : (s.advance tm).lsNewest n = s.lsNewest n := rfl
@[simp] theorem State.advance_lsNeeds (s : State) (tm : Time) (n k : Nat) : (s.advance tm).lsNeeds n k = s.lsNeeds n k := rfl
@[simp] theorem State.advance_svSpan (s : State) (tm : Time) (q k : Nat) : (s.advance tm).svSpan q k = s.svSpan q k := rfl
@[simp] theorem State.advance_svWhole (s : State) (tm : Time) (q k : Nat) : (s.advance tm).svWhole q k = s.svWhole q k := rfl
@[simp] theorem State.advance_svPort (s : State) (tm : Time) (p : Nat) : (s.advance tm).svPort p = s.svPort p := rfl
@[simp] theorem State.advance_svMatch (s : State) (tm : Time) (a : SvAsdu) : (s.advance tm).svMatch a = s.svMatch a := rfl
@[simp] theorem State.advance_nextActive (s : State) (tm : Time) (n : Nat) : (s.advance tm).nextActive n = s.nextActive n := rfl
@[simp] theorem State.advance_allFlows (s : State) (tm : Time) : (s.advance tm).allFlows = s.allFlows  := rfl
@[simp] theorem State.advance_pinOf (s : State) (tm : Time) (f : Nat) : (s.advance tm).pinOf f = s.pinOf f := rfl
@[simp] theorem State.advance_pinnedFlows (s : State) (tm : Time) : (s.advance tm).pinnedFlows = s.pinnedFlows  := rfl
@[simp] theorem State.advance_cohOf (s : State) (tm : Time) (sid : Nat) : (s.advance tm).cohOf sid = s.cohOf sid := rfl
@[simp] theorem State.advance_cohSrc (s : State) (tm : Time) : (s.advance tm).cohSrc = s.cohSrc  := rfl
@[simp] theorem State.advance_streams (s : State) (tm : Time) : (s.advance tm).streams = s.streams  := rfl
@[simp] theorem State.advance_loadOf (s : State) (tm : Time) (f : Nat) : (s.advance tm).loadOf f = s.loadOf f := rfl
@[simp] theorem State.advance_capacity (s : State) (tm : Time) : (s.advance tm).capacity = s.capacity  := rfl
@[simp] theorem State.advance_bundleKey (s : State) (tm : Time) (useCoh : Bool) (sid : Nat) : (s.advance tm).bundleKey useCoh sid = s.bundleKey useCoh sid := rfl
@[simp] theorem State.advance_bundles (s : State) (tm : Time) : (s.advance tm).bundles = s.bundles  := rfl
@[simp] theorem State.advance_sharedChans (s : State) (tm : Time) (x y : Bundle) : (s.advance tm).sharedChans x y = s.sharedChans x y := rfl
@[simp] theorem State.advance_affNew (s : State) (tm : Time) (x y : Bundle) : (s.advance tm).affNew x y = s.affNew x y := rfl
@[simp] theorem State.advance_affUpdate (s : State) (tm : Time) (bs : List Bundle) : (s.advance tm).affUpdate bs = s.affUpdate bs := rfl
@[simp] theorem State.advance_capPct (s : State) (tm : Time) : (s.advance tm).capPct = s.capPct  := rfl
@[simp] theorem State.advance_utilPct (s : State) (tm : Time) : (s.advance tm).utilPct = s.utilPct  := rfl
@[simp] theorem State.advance_sorterLoad (s : State) (tm : Time) (n : Nat) : (s.advance tm).sorterLoad n = s.sorterLoad n := rfl
@[simp] theorem State.advance_plan (s : State) (tm : Time) (bs : List Bundle) : (s.advance tm).plan bs = s.plan bs := rfl
@[simp] theorem State.advance_chooseActive (s : State) (tm : Time) : (s.advance tm).chooseActive = s.chooseActive  := rfl
@[simp] theorem State.advance_bank (s : State) (tm : Time) (b : Nat) : (s.advance tm).bank b = s.bank b := rfl
@[simp] theorem State.advance_newRec (s : State) (tm : Time) (e : LogEv) : (s.advance tm).newRec e = s.newRec e := rfl
@[simp] theorem State.advance_recRun (s : State) (tm : Time) (first n : Nat) : (s.advance tm).recRun first n = s.recRun first n := rfl
@[simp] theorem State.advance_window (s : State) (tm : Time) (i : Nat) : (s.advance tm).window i = s.window i := rfl
@[simp] theorem State.advance_opsNow (s : State) (tm : Time) : (s.advance tm).opsNow = s.opsNow  := rfl
@[simp] theorem State.advance_trackOk (s : State) (tm : Time) (sid : Nat) : (s.advance tm).trackOk sid = s.trackOk sid := rfl
@[simp] theorem State.advance_keptClusters (s : State) (tm : Time) : (s.advance tm).keptClusters = s.keptClusters  := rfl
@[simp] theorem State.advance_amKept (s : State) (tm : Time) (m : Nat) : (s.advance tm).amKept m = s.amKept m := rfl
@[simp] theorem State.advance_locked (s : State) (tm : Time) : (s.advance tm).locked = s.locked  := rfl
@[simp] theorem State.advance_rwlBytes (s : State) (tm : Time) (off : Nat) : (s.advance tm).rwlBytes off = s.rwlBytes off := rfl
@[simp] theorem State.advance_digest (s : State) (tm : Time) : (s.advance tm).digest = s.digest  := rfl
@[simp] theorem State.advance_roleOf (s : State) (tm : Time) (m : Mode) : (s.advance tm).roleOf m = s.roleOf m := rfl
@[simp] theorem State.advance_partnerReady (s : State) (tm : Time) : (s.advance tm).partnerReady = s.partnerReady  := rfl
@[simp] theorem State.advance_preferred (s : State) (tm : Time) : (s.advance tm).preferred = s.preferred  := rfl
@[simp] theorem State.advance_keptInWatch (s : State) (tm : Time) : (s.advance tm).keptInWatch = s.keptInWatch  := rfl
@[simp] theorem State.advance_targetOk (s : State) (tm : Time) (target : Nat) : (s.advance tm).targetOk target = s.targetOk target := rfl
@[simp] theorem State.advance_svcOk (s : State) (tm : Time) : (s.advance tm).svcOk = s.svcOk  := rfl
@[simp] theorem State.advance_leavesRole (s : State) (tm : Time) : (s.advance tm).leavesRole = s.leavesRole  := rfl
@[simp] theorem State.advance_judge (s : State) (tm : Time) (target : Nat) (force bound : Bool) : (s.advance tm).judge target force bound = s.judge target force bound := rfl
@[simp] theorem State.advance_needsHandover (s : State) (tm : Time) : (s.advance tm).needsHandover = s.needsHandover  := rfl
@[simp] theorem State.advance_domConf (s : State) (tm : Time) (d : Nat) : (s.advance tm).domConf d = s.domConf d := rfl
@[simp] theorem State.advance_lostPorts (s : State) (tm : Time) : (s.advance tm).lostPorts = s.lostPorts  := rfl
@[simp] theorem State.advance_degWord (s : State) (tm : Time) : (s.advance tm).degWord = s.degWord  := rfl
@[simp] theorem State.advance_grant (s : State) (tm : Time) : (s.advance tm).grant = s.grant  := rfl
@[simp] theorem State.advance_timeOk (s : State) (tm : Time) : (s.advance tm).timeOk = s.timeOk  := rfl
@[simp] theorem State.advance_runOk (s : State) (tm : Time) : (s.advance tm).runOk = s.runOk  := rfl
@[simp] theorem State.advance_brValue (s : State) (tm : Time) (b : Nat) (ls : List Letter) (prev : Word) : (s.advance tm).brValue b ls prev = s.brValue b ls prev := rfl
@[simp] theorem State.advance_branches (s : State) (tm : Time) : (s.advance tm).branches = s.branches  := rfl
@[simp] theorem State.advance_autoLine (s : State) (tm : Time) : (s.advance tm).autoLine = s.autoLine  := rfl
@[simp] theorem State.advance_defWant (s : State) (tm : Time) : (s.advance tm).defWant = s.defWant  := rfl
@[simp] theorem State.advance_defWindow (s : State) (tm : Time) (f : Word) : (s.advance tm).defWindow f = s.defWindow f := rfl
@[simp] theorem State.advance_busNet (s : State) (tm : Time) (fl : List (Nat × Word × Word)) (label : Nat) : (s.advance tm).busNet fl label = s.busNet fl label := rfl
@[simp] theorem State.advance_busList (s : State) (tm : Time) (fl : List (Nat × Word × Word)) : (s.advance tm).busList fl = s.busList fl := rfl
@[simp] theorem State.advance_protectedRange (s : State) (tm : Time) (off len : Nat) : (s.advance tm).protectedRange off len = s.protectedRange off len := rfl
@[simp] theorem State.advance_ringsRun (s : State) (tm : Time) : (s.advance tm).ringsRun = s.ringsRun  := rfl
@[simp] theorem State.advance_lbDepth (s : State) (tm : Time) (m : Nat) : (s.advance tm).lbDepth m = s.lbDepth m := rfl
@[simp] theorem State.advance_lbMayFetch (s : State) (tm : Time) (m : Nat) : (s.advance tm).lbMayFetch m = s.lbMayFetch m := rfl
@[simp] theorem State.advance_conn (s : State) (tm : Time) (k : Nat) : (s.advance tm).conn k = s.conn k := rfl
@[simp] theorem State.advance_connIdent (s : State) (tm : Time) (c : Conn) : (s.advance tm).connIdent c = s.connIdent c := rfl
@[simp] theorem State.advance_wantedConns (s : State) (tm : Time) : (s.advance tm).wantedConns = s.wantedConns  := rfl
@[simp] theorem State.advance_lacksDesc (s : State) (tm : Time) (e : Sender) : (s.advance tm).lacksDesc e = s.lacksDesc e := rfl
@[simp] theorem State.advance_storeOk (s : State) (tm : Time) : (s.advance tm).storeOk = s.storeOk  := rfl
@[simp] theorem State.advance_logOk (s : State) (tm : Time) : (s.advance tm).logOk = s.logOk  := rfl
@[simp] theorem State.advance_sound (s : State) (tm : Time) : (s.advance tm).sound = s.sound  := rfl
@[simp] theorem State.advance_connDesc (s : State) (tm : Time) (c : Conn) : (s.advance tm).connDesc c = s.connDesc c := rfl
@[simp] theorem State.advance_reeval (s : State) (tm : Time) : (s.advance tm).reeval = s.reeval := rfl
@[simp] theorem State.advance_clearedLate (s : State) (tm : Time) (sid : Nat) (t : Time) : (s.advance tm).clearedLate sid t = s.clearedLate sid t := rfl
@[simp] theorem State.advance_lateSlots (s : State) (tm : Time) (r n : Nat) (close : Time × Bool) : (s.advance tm).lateSlots r n close = s.lateSlots r n close := rfl
@[simp] theorem State.advance_feedsIsl (s : State) (tm : Time) (r : Nat) : (s.advance tm).feedsIsl r = s.feedsIsl r := rfl
@[simp] theorem State.advance_feedsDef (s : State) (tm : Time) (r : Nat) : (s.advance tm).feedsDef r = s.feedsDef r := rfl
@[simp] theorem State.advance_groupsOf (s : State) (tm : Time) (r : Nat) : (s.advance tm).groupsOf r = s.groupsOf r := rfl
@[simp] theorem State.advance_dspRoom (s : State) (tm : Time) (r : Nat) (close : Time) : (s.advance tm).dspRoom r close = s.dspRoom r close := rfl
@[simp] theorem State.advance_taken (s : State) (tm : Time) (f : RxFrame) (udp : Nat) : (s.advance tm).taken f udp = s.taken f udp := rfl
@[simp] theorem State.advance_replayWindow (s : State) (tm : Time) (key id gen num : Nat) : (s.advance tm).replayWindow key id gen num = s.replayWindow key id gen num := rfl
@[simp] theorem State.advance_keyGen (s : State) (tm : Time) (keyid : Nat) : (s.advance tm).keyGen keyid = s.keyGen keyid := rfl
@[simp] theorem State.advance_journalBusy (s : State) (tm : Time) (o : Nat) : (s.advance tm).journalBusy o = s.journalBusy o := rfl
@[simp] theorem State.advance_ofsAt (s : State) (tm : Time) (t : Time) : (s.advance tm).ofsAt t = s.ofsAt t := rfl
@[simp] theorem State.advance_ringNames (s : State) (tm : Time) (src sel r : Nat) : (s.advance tm).ringNames src sel r = s.ringNames src sel r := rfl
@[simp] theorem State.advance_ringBelow (s : State) (tm : Time) (src sel hi : Nat) : (s.advance tm).ringBelow src sel hi = s.ringBelow src sel hi := rfl
@[simp] theorem State.advance_prResumeAt (s : State) (tm : Time) (r : Nat) : (s.advance tm).prResumeAt r = s.prResumeAt r := rfl
@[simp] theorem State.advance_prFits (s : State) (tm : Time) (r len : Nat) : (s.advance tm).prFits r len = s.prFits r len := rfl
@[simp] theorem State.advance_sourceRuns (s : State) (tm : Time) (src : Nat) : (s.advance tm).sourceRuns src = s.sourceRuns src := rfl
@[simp] theorem State.advance_trcRing (s : State) (tm : Time) : (s.advance tm).trcRing = s.trcRing := rfl
@[simp] theorem State.advance_trcPasses (s : State) (tm : Time) (ev srt flow : Nat) : (s.advance tm).trcPasses ev srt flow = s.trcPasses ev srt flow := rfl
@[simp] theorem State.advance_looping (s : State) (tm : Time) (p : Nat) : (s.advance tm).looping p = s.looping p := rfl
@[simp] theorem State.advance_rndRate (s : State) (tm : Time) (r : Nat) : (s.advance tm).rndRate r = s.rndRate r := rfl
@[simp] theorem State.advance_rndMark (s : State) (tm : Time) (r n : Nat) : (s.advance tm).rndMark r n = s.rndMark r n := rfl
@[simp] theorem State.advance_inHole (s : State) (tm : Time) (i : Item) : (s.advance tm).inHole i = s.inHole i := rfl
@[simp] theorem State.advance_dspWaits (s : State) (tm : Time) (t : Time) : (s.advance tm).dspWaits t = s.dspWaits t := rfl
@[simp] theorem State.advance_oldestFan (s : State) (tm : Time) (c : Nat) (i : Item) : (s.advance tm).oldestFan c i = s.oldestFan c i := rfl
@[simp] theorem State.advance_poolFits (s : State) (tm : Time) (c need : Nat) (oldest : Bool) : (s.advance tm).poolFits c need oldest = s.poolFits c need oldest := rfl
@[simp] theorem State.advance_c3Due (s : State) (tm : Time) (n : Nat) : (s.advance tm).c3Due n = s.c3Due n := rfl
@[simp] theorem State.advance_grpLetters (s : State) (tm : Time) (g : Nat) (ls : List Letter) : (s.advance tm).grpLetters g ls = s.grpLetters g ls := rfl
@[simp] theorem State.advance_chReads (s : State) (tm : Time) (g sid c : Nat) : (s.advance tm).chReads g sid c = s.chReads g sid c := rfl
@[simp] theorem State.advance_modeWords (s : State) (tm : Time) (v : GrpSt) (o : Option ModeSlot) : (s.advance tm).modeWords v o = s.modeWords v o := rfl
@[simp] theorem State.advance_fastSettling (s : State) (tm : Time) (v : GrpSt) : (s.advance tm).fastSettling v = s.fastSettling v := rfl
@[simp] theorem State.advance_slowSettling (s : State) (tm : Time) (v : GrpSt) : (s.advance tm).slowSettling v = s.slowSettling v := rfl
@[simp] theorem State.advance_revertFit (s : State) (tm : Time) : (s.advance tm).revertFit = s.revertFit := rfl
@[simp] theorem State.advance_partnerAhead (s : State) (tm : Time) : (s.advance tm).partnerAhead = s.partnerAhead := rfl
@[simp] theorem State.advance_revertTime (s : State) (tm : Time) : (s.advance tm).revertTime = s.revertTime := rfl
@[simp] theorem State.advance_tabBytes (s : State) (tm : Time) : (s.advance tm).tabBytes = s.tabBytes := rfl
@[simp] theorem State.advance_fencedFlows (s : State) (tm : Time) : (s.advance tm).fencedFlows = s.fencedFlows := rfl
@[simp] theorem State.advance_frontOk (s : State) (tm : Time) (f : RxHead) : (s.advance tm).frontOk f = s.frontOk f := rfl
@[simp] theorem State.advance_addrOk (s : State) (tm : Time) (p addr : Nat) (v6 : Bool) : (s.advance tm).addrOk p addr v6 = s.addrOk p addr v6 := rfl
@[simp] theorem State.advance_lbOutstanding (s : State) (tm : Time) (m : Nat) : (s.advance tm).lbOutstanding m = s.lbOutstanding m := rfl
@[simp] theorem State.advance_rndsNaming (s : State) (tm : Time) (sid : Nat) : (s.advance tm).rndsNaming sid = s.rndsNaming sid := rfl
@[simp] theorem State.advance_lateFor (s : State) (tm : Time) (r k : Nat) (l : Letter) : (s.advance tm).lateFor r k l = s.lateFor r k l := rfl
@[simp] theorem State.advance_dlClamp (s : State) (tm : Time) (r d : Nat) : (s.advance tm).dlClamp r d = s.dlClamp r d := rfl
@[simp] theorem State.advance_blockSids (s : State) (tm : Time) (r : Nat) : (s.advance tm).blockSids r = s.blockSids r := rfl
@[simp] theorem State.advance_rndBase (s : State) (tm : Time) (r : Nat) : (s.advance tm).rndBase r = s.rndBase r := rfl
@[simp] theorem State.advance_wakesFor (s : State) (tm : Time) (n : Nat) : (s.advance tm).wakesFor n = s.wakesFor n := rfl
@[simp] theorem State.advance_stagingRoom (s : State) (tm : Time) : (s.advance tm).stagingRoom = s.stagingRoom := rfl
@[simp] theorem State.advance_startLimit (s : State) (tm : Time) : (s.advance tm).startLimit = s.startLimit := rfl
@[simp] theorem State.advance_commitOk (s : State) (tm : Time) : (s.advance tm).commitOk = s.commitOk := rfl
@[simp] theorem State.advance_arrival (s : State) (tm : Time) (f : RxHead) : (s.advance tm).arrival f = s.arrival f := rfl

/-- A host write that reaches this unit has its effect. -/
theorem State.hostGate_takes {s : State} {off : Nat} (h : s.takesWrite off) (w : Word) (eff : State → State) :
    s.hostGate off w eff = eff s := by
  obtain ⟨h1, h2⟩ := h
  rcases h2 with h2 | ⟨h2, h3⟩ <;> simp [State.hostGate, *]
end

