-- ==== Sys2Proof/Laws/Keeps.lean ====
section
/-! SUPPORT. What every operation of the model keeps: the canonical form of the store of BAR0, the Logbook's bounds, the queue
of commands, the free values drawn, and the outputs made so far. -/
namespace Sys2Proof.Machine

/-- From `s` to `t` the store stays canonical and the Logbook within its bounds, the queue is the same, no free value returns,
and outputs are only appended. -/
structure Keeps (s t : State) : Prop where
  store : s.storeOk = true → t.storeOk = true
  log : s.logOk = true → t.logOk = true
  queue : t.pending = s.pending
  free : s.free ≤ t.free
  out : s.out <+: t.out

theorem Keeps.refl (s : State) : Keeps s s := ⟨id, id, rfl, Nat.le_refl _, List.prefix_refl _⟩

theorem Keeps.trans {s t u : State} (h : Keeps s t) (k : Keeps t u) : Keeps s u :=
  ⟨fun x => k.store (h.store x), fun x => k.log (h.log x), k.queue.trans h.queue, Nat.le_trans h.free k.free, h.out.trans k.out⟩

/-! ### The store -/

theorem risingKeys_cons {a : Nat × Word} {m : List (Nat × Word)} :
    risingKeys (a :: m) = true ↔ (∀ e ∈ m, a.1 < e.1) ∧ risingKeys m = true := by
  induction m generalizing a with
  | nil => simp [risingKeys]
  | cons b r ih =>
    rw [risingKeys, Bool.and_eq_true, decide_eq_true_eq, ih]
    constructor
    · rintro ⟨h, h1, h2⟩
      refine ⟨fun e he => ?_, h1, h2⟩
      rcases List.mem_cons.mp he with rfl | he
      · exact h
      · exact Nat.lt_trans h (h1 e he)
    · rintro ⟨h, h1, h2⟩
      exact ⟨h b (by simp), h1, h2⟩

theorem risingKeys_serase {m : List (Nat × Word)} (k : Nat) (h : risingKeys m = true) : risingKeys (serase m k) = true := by
  induction m with
  | nil => rfl
  | cons a r ih =>
    rw [risingKeys_cons] at h
    unfold serase
    rw [List.filter_cons]
    split
    · exact risingKeys_cons.mpr ⟨fun e he => h.1 e (List.mem_filter.mp he).1, ih h.2⟩
    · exact ih h.2

theorem mem_sput {α : Type} {m : List (Nat × α)} {k : Nat} {v : α} {e : Nat × α} (h : e ∈ sput m k v) : e = (k, v) ∨ e ∈ m := by
  induction m with
  | nil => simpa [sput] using h
  | cons a r ih =>
    obtain ⟨a, w⟩ := a
    rw [sput] at h
    split at h
    · rcases List.mem_cons.mp h with h | h
      · exact .inl h
      · exact .inr h
    · rcases List.mem_cons.mp h with h | h
      · exact .inr (by simp [h])
      · rcases ih h with h | h
        · exact .inl h
        · exact .inr (by simp [h])

theorem risingKeys_sput {m : List (Nat × Word)} {k : Nat} {v : Word} (h : risingKeys m = true) (hk : ∀ e ∈ m, e.1 ≠ k) :
    risingKeys (sput m k v) = true := by
  induction m with
  | nil => rfl
  | cons a r ih =>
    obtain ⟨a, w⟩ := a
    rw [risingKeys_cons] at h
    rw [sput]
    split
    · rename_i lt
      refine risingKeys_cons.mpr ⟨fun e he => ?_, risingKeys_cons.mpr h⟩
      rcases List.mem_cons.mp he with rfl | he
      · exact lt
      · exact Nat.lt_trans lt (h.1 e he)
    · rename_i nlt
      refine risingKeys_cons.mpr ⟨fun e he => ?_, ih h.2 fun e he => hk e (by simp [he])⟩
      rcases mem_sput he with rfl | he
      · have := hk (a, w) (by simp); simp at this nlt ⊢; omega
      · exact h.1 e he

theorem regsOk_serase {m : List (Nat × Word)} (k : Nat) (h : regsOk m = true) : regsOk (serase m k) = true := by
  rw [regsOk, Bool.and_eq_true, List.all_eq_true] at h ⊢
  exact ⟨risingKeys_serase k h.1, fun e he => h.2 e (List.mem_filter.mp he).1⟩

theorem regsOk_sset {m : List (Nat × Word)} {k : Nat} {v : Word} (h : regsOk m = true) (hv : v ≠ resetWord k) :
    regsOk (sset m k v) = true := by
  rw [regsOk, Bool.and_eq_true, List.all_eq_true] at h ⊢
  refine ⟨risingKeys_sput (risingKeys_serase k h.1) fun e he => ?_, fun e he => ?_⟩
  · simpa [serase] using (List.mem_filter.mp he).2
  · rcases mem_sput he with rfl | he
    · simpa using hv
    · exact h.2 e (List.mem_filter.mp he).1

/-- A write of a word keeps the canonical form. -/
theorem State.setWord_storeOk {s : State} (off : Nat) (w : Word) (h : s.storeOk = true) : (s.setWord off w).storeOk = true := by
  unfold State.storeOk State.setWord at *
  dsimp only
  split
  · exact regsOk_serase off h
  · rename_i hw; exact regsOk_sset h hw

/-! ### Steps of the chain -/

variable {s x y : State}

/-- An update of fields other than the store, the queue, the free counter, the outputs and the Logbook's lists. -/
theorem Keeps.upd (h : Keeps s x) (hr : y.regs = x.regs) (hq : y.pending = x.pending) (hf : y.free = x.free) (ho : y.out = x.out)
    (hs : y.log.stage = x.log.stage) (hc : y.log.recs = x.log.recs) (hg : y.log.gasp = x.log.gasp) : Keeps s y :=
  ⟨fun k => by have := h.store k; unfold State.storeOk at *; rw [hr]; exact this,
    fun k => by have := h.log k; unfold State.logOk at *; rw [hs, hc, hg]; exact this,
    hq.trans h.queue, hf ▸ h.free, ho ▸ h.out⟩

/-- An update of the Logbook's lists that keeps them within their bounds. -/
theorem Keeps.updLog (h : Keeps s x) (hr : y.regs = x.regs) (hq : y.pending = x.pending) (hf : y.free = x.free) (ho : y.out = x.out)
    (hl : x.logOk = true → y.logOk = true) : Keeps s y :=
  ⟨fun k => by have := h.store k; unfold State.storeOk at *; rw [hr]; exact this, fun k => hl (h.log k), hq.trans h.queue,
    hf ▸ h.free, ho ▸ h.out⟩

/-- An update that takes free values. -/
theorem Keeps.updFree (h : Keeps s x) (hr : y.regs = x.regs) (hq : y.pending = x.pending) (hf : x.free ≤ y.free) (ho : y.out = x.out)
    (hl : y.log = x.log) : Keeps s y :=
  ⟨fun k => by have := h.store k; unfold State.storeOk at *; rw [hr]; exact this,
    fun k => by have := h.log k; unfold State.logOk at *; rw [hl]; exact this, hq.trans h.queue, Nat.le_trans h.free hf, ho ▸ h.out⟩

/-- An update of fields other than the store, the Logbook, the queue, the free counter and the outputs. -/
theorem Keeps.fields {powered' now' sof' hif' net' adm' whl' tb' key' alm' glb' strt' nvs' pair' acq' nrg' cap' cmp' osc' isl' bkd' mem'} (h : Keeps s x) :
    Keeps s (State.mk powered' x.regs now' x.log sof' hif' net' adm' whl' tb' key' alm' glb' strt' nvs' pair' acq' nrg' cap' cmp' osc' isl' bkd' mem' x.out x.free x.pending) :=
  ⟨fun k => h.store k, fun k => h.log k, h.queue, h.free, h.out⟩

/-- The same with an update of the Logbook that leaves its three lists. -/
theorem Keeps.logFields {powered' now' sof' hif' net' adm' whl' tb' key' alm' glb' strt' nvs' pair' acq' nrg' cap' cmp' osc' isl' bkd' mem' lostSince'' live'' repd'' clearEv'' gpioSeal'' opA'' opB'' opsecT'' wrapSeen'' rewAt''}
    (h : Keeps s x) :
    Keeps s (State.mk powered' x.regs now' (LogSt.mk x.log.stage lostSince'' x.log.recs x.log.gasp live'' repd'' clearEv'' gpioSeal'' opA'' opB'' opsecT'' wrapSeen'' rewAt'') sof' hif' net' adm' whl' tb' key' alm' glb' strt' nvs' pair' acq' nrg' cap' cmp' osc' isl' bkd' mem' x.out x.free x.pending) :=
  ⟨fun k => h.store k, fun k => h.log k, h.queue, h.free, h.out⟩

/-- The same with free values taken. -/
theorem Keeps.takes {n powered' now' sof' hif' net' adm' whl' tb' key' alm' glb' strt' nvs' pair' acq' nrg' cap' cmp' osc' isl' bkd' mem'} (h : Keeps s x) :
    Keeps s (State.mk powered' x.regs now' x.log sof' hif' net' adm' whl' tb' key' alm' glb' strt' nvs' pair' acq' nrg' cap' cmp' osc' isl' bkd' mem' x.out (x.free + n) x.pending) :=
  ⟨fun k => h.store k, fun k => h.log k, h.queue, Nat.le_trans h.free (Nat.le_add_right _ _), h.out⟩

theorem Keeps.ite {c : Prop} [Decidable c] {x y : State} (hy : Keeps s y) (hx : Keeps s y → Keeps s x) :
    Keeps s (if c then x else y) := by split; exacts [hx hy, hy]

theorem Keeps.ite1 {α : Type} {c : Prop} [Decidable c] {x y : State × α} (hy : Keeps s y.1) (hx : Keeps s y.1 → Keeps s x.1) :
    Keeps s (if c then x else y).1 := by split; exacts [hx hy, hy]

theorem Keeps.ite2 {α : Type} {c : Prop} [Decidable c] {x y : α × State} (hy : Keeps s y.2) (hx : Keeps s y.2 → Keeps s x.2) :
    Keeps s (if c then x else y).2 := by split; exacts [hx hy, hy]

theorem Keeps.forEach {α : Type} {xs : List α} {f : α → State → State} (h : Keeps s x) (hf : ∀ a y, Keeps s y → Keeps s (f a y)) :
    Keeps s (forEach xs f x) := by
  unfold Machine.forEach
  induction xs generalizing x with
  | nil => exact h
  | cons a r ih => exact ih (hf a x h)

theorem Keeps.foldl {α : Type} {xs : List α} {f : State → α → State} (h : Keeps s x) (hf : ∀ y a, Keeps s y → Keeps s (f y a)) :
    Keeps s (xs.foldl f x) := by
  induction xs generalizing x with
  | nil => exact h
  | cons a r ih => exact ih (hf x a h)

theorem Keeps.foldl1 {α β : Type} {xs : List α} {p : State × β} {f : State × β → α → State × β} (h : Keeps s p.1)
    (hf : ∀ y a, Keeps s y.1 → Keeps s (f y a).1) : Keeps s (xs.foldl f p).1 := by
  induction xs generalizing p with
  | nil => exact h
  | cons a r ih => exact ih (hf p a h)

theorem Keeps.of_fst {α : Type} {p : State × α} {a : α} (e : p = (x, a)) (h : Keeps s p.1) : Keeps s x := by rw [e] at h; exact h

theorem Keeps.of_snd {α : Type} {p : α × State} {a : α} (e : p = (a, x)) (h : Keeps s p.2) : Keeps s x := by rw [e] at h; exact h

theorem Keeps.mk1 {α : Type} {a : α} (h : Keeps s x) : Keeps s (x, a).1 := h

theorem Keeps.mk2 {α : Type} {a : α} (h : Keeps s x) : Keeps s (a, x).2 := h

/-- What a command answers keeps what `Keeps` says. -/
def KeepsRes (s : State) (r : Res) : Prop := ∀ t, r = .next t → Keeps s t

theorem KeepsRes.next (h : Keeps s x) : KeepsRes s (.next x) := fun t e => by injection e with e; exact e ▸ h

theorem KeepsRes.ite {c : Prop} [Decidable c] {x y : Res} (hy : KeepsRes s y) (hx : KeepsRes s x) :
    KeepsRes s (if c then x else y) := by split; exacts [hx, hy]

/-! ### The primitive operations -/

theorem State.setWord_keeps {off : Nat} {w : Word} (h : Keeps s x) : Keeps s (x.setWord off w) :=
  h.trans ⟨State.setWord_storeOk off w, id, rfl, Nat.le_refl _, List.prefix_refl _⟩

theorem State.emit_keeps {o : Output} (h : Keeps s x) : Keeps s (x.emit o) :=
  h.trans ⟨id, id, rfl, Nat.le_refl _, List.prefix_append _ _⟩

theorem State.draw_keeps (h : Keeps s x) : Keeps s x.draw.2 :=
  h.trans ⟨id, id, rfl, Nat.le_succ _, List.prefix_refl _⟩

end Sys2Proof.Machine
end

