-- ==== Sys2Proof/Laws/KeepsOps.lean ====
section
/-! SUPPORT. Each operation and each meaning keeps what `Keeps` says: the shared operations. -/
namespace Sys2Proof.Machine

variable {s x : State}

theorem State.wr_keeps {p2} {p3} {p4} (h : Keeps s x) : Keeps s (State.wr x p2 p3 p4) := by
  unfold State.wr
  refine Keeps.ite ?_ (fun _ => ?_)
  · exact h
  · exact State.setWord_keeps h

theorem State.put_keeps {p2} {p3} {p4} (h : Keeps s x) : Keeps s (State.put x p2 p3 p4) := by
  unfold State.put
  refine Keeps.ite ?_ (fun _ => ?_)
  · exact h
  · exact State.setWord_keeps h

theorem State.setFlag_keeps {p2} {p3} {p4} (h : Keeps s x) : Keeps s (State.setFlag x p2 p3 p4) := by
  unfold State.setFlag
  exact State.wr_keeps h

theorem State.inc_keeps {p2} {p3} (h : Keeps s x) : Keeps s (State.inc x p2 p3) := by
  unfold State.inc
  exact State.wr_keeps h

theorem State.bump_keeps {p2} {p3} {p4} (h : Keeps s x) : Keeps s (State.bump x p2 p3 p4) := by
  unfold State.bump
  exact State.wr_keeps h

theorem State.incSat_keeps {p2} {p3} (h : Keeps s x) : Keeps s (State.incSat x p2 p3) := by
  unfold State.incSat
  exact State.wr_keeps h

theorem State.wr64_keeps {p2} {p3} {p4} (h : Keeps s x) : Keeps s (State.wr64 x p2 p3 p4) := by
  unfold State.wr64
  exact State.wr_keeps (State.wr_keeps h)

theorem State.bump64_keeps {p2} {p3} {p4} (h : Keeps s x) : Keeps s (State.bump64 x p2 p3 p4) := by
  unfold State.bump64
  exact State.wr64_keeps h

theorem State.wrWords_keeps {p2} {p3} {p4} {p5} (h : Keeps s x) : Keeps s (State.wrWords x p2 p3 p4 p5) := by
  unfold State.wrWords
  refine Keeps.forEach ?_ (fun y1 y2 h3 => ?_)
  · exact h
  · exact State.wr_keeps h3

theorem State.advance_keeps {p2} (h : Keeps s x) : Keeps s (State.advance x p2) := by
  unfold State.advance
  exact Keeps.fields h

theorem State.raiseVector_keeps {p2} (h : Keeps s x) : Keeps s (State.raiseVector x p2) := by
  unfold State.raiseVector
  refine Keeps.ite ?_ (fun _ => ?_)
  · exact h
  · refine Keeps.ite ?_ (fun _ => ?_)
    · exact State.emit_keeps h
    · exact State.put_keeps h

theorem State.refreshSum_keeps (h : Keeps s x) : Keeps s (State.refreshSum x) := by
  unfold State.refreshSum
  exact State.wr_keeps h

theorem State.noticeQuiet_keeps {p2} {p3} (h : Keeps s x) : Keeps s (State.noticeQuiet x p2 p3) := by
  unfold State.noticeQuiet
  extract_lets -merge +onlyGivenNames v1
  have h2 : Keeps s v1 := State.refreshSum_keeps (State.setWord_keeps h)
  clear_value v1
  refine Keeps.ite ?_ (fun _ => ?_)
  · exact h2
  · exact State.raiseVector_keeps h2

theorem State.staged_keeps (h : Keeps s x) : Keeps s (State.staged x) := by
  unfold State.staged
  exact State.wr_keeps h

theorem State.logPut_keeps {p2} (h : Keeps s x) : Keeps s (State.logPut x p2) := by
  unfold State.logPut
  extract_lets sealed l1 fresh
  have hf : Keeps s fresh := by
    unfold fresh
    split
    · rename_i hl
      refine State.staged_keeps (h.updLog rfl rfl rfl rfl fun k => ?_)
      simp only [State.logOk, Bool.and_eq_true, decide_eq_true_eq, List.length_append, List.length_cons, List.length_nil] at k ⊢
      exact ⟨⟨by omega, k.1.2⟩, k.2⟩
    · exact State.noticeQuiet_keeps (State.inc_keeps (Keeps.logFields h))
  clear_value fresh
  split
  · split
    · exact hf
    · extract_lets n
      split
      · exact h.upd rfl rfl rfl rfl rfl rfl rfl
      · exact hf
  · split
    · refine h.updLog rfl rfl rfl rfl fun k => ?_
      rename_i hq _
      have : x.log.stage ≠ [] := by rintro e; rw [e] at hq; simp at hq
      have := List.length_pos_iff.mpr this
      simp only [State.logOk, Bool.and_eq_true, decide_eq_true_eq, List.length_append, List.length_cons, List.length_nil,
        List.length_dropLast] at k ⊢
      exact ⟨⟨by omega, k.1.2⟩, k.2⟩
    · exact hf

theorem State.logEvent_keeps {p2} {p3} {p4} {p5} {p6} (h : Keeps s x) : Keeps s (State.logEvent x p2 p3 p4 p5 p6) := by
  unfold State.logEvent
  exact State.logPut_keeps h

theorem State.notice_keeps {p2} {p3} {p4} {p5} {p6} (h : Keeps s x) : Keeps s (State.notice x p2 p3 p4 p5 p6) := by
  unfold State.notice
  refine Keeps.ite ?_ (fun _ => ?_)
  · exact State.noticeQuiet_keeps h
  · exact State.logEvent_keeps (State.noticeQuiet_keeps h)

theorem State.noticeFirst_keeps {p2} {p3} {p4} {p5} {p6} (h : Keeps s x) : Keeps s (State.noticeFirst x p2 p3 p4 p5 p6) := by
  unfold State.noticeFirst
  refine Keeps.ite ?_ (fun _ => ?_)
  · exact State.notice_keeps h
  · exact h

theorem State.logRefused_keeps {p2} {p3} (h : Keeps s x) : Keeps s (State.logRefused x p2 p3) := by
  unfold State.logRefused
  exact State.logEvent_keeps h

theorem State.prNotify_keeps {p2} (h : Keeps s x) : Keeps s (State.prNotify x p2) := by
  unfold State.prNotify
  extract_lets -merge +onlyGivenNames v1 v2
  clear_value v1 v2
  refine Keeps.ite ?_ (fun _ => ?_)
  · refine Keeps.ite ?_ (fun _ => ?_)
    · extract_lets -merge +onlyGivenNames v3
      clear_value v3
      refine Keeps.ite ?_ (fun _ => ?_)
      · exact Keeps.fields h
      · exact State.raiseVector_keeps (Keeps.fields h)
    · exact State.raiseVector_keeps h
  · exact h

theorem State.prDeliver_keeps {p2} {p3} {p4} {p5} {p6} (h : Keeps s x) : Keeps s (State.prDeliver x p2 p3 p4 p5 p6) := by
  unfold State.prDeliver
  extract_lets -merge +onlyGivenNames v1 v2 v3 v4 v5 v6 v7 v8
  clear_value v1 v2 v3 v4 v5 v6 v7 v8
  exact State.prNotify_keeps (State.wr_keeps (State.wr_keeps (State.wr_keeps (State.emit_keeps h))))

theorem State.prShed_keeps {p2} (h : Keeps s x) : Keeps s (State.prShed x p2) := by
  unfold State.prShed
  extract_lets -merge +onlyGivenNames v1
  have h2 : Keeps s v1 := State.incSat_keeps (State.inc_keeps h)
  clear_value v1
  extract_lets -merge +onlyGivenNames v3
  have h4 : Keeps s v3 := by
    unfold v3
    refine Keeps.ite ?_ (fun _ => ?_)
    · exact h2
    · exact State.setFlag_keeps h2
  clear_value v3
  exact State.noticeFirst_keeps h4

theorem State.prResume_keeps {p2} (h : Keeps s x) : Keeps s (State.prResume x p2) := by
  unfold State.prResume
  refine Keeps.ite ?_ (fun _ => ?_)
  · exact h
  · exact State.notice_keeps (State.setFlag_keeps h)

theorem State.prPut_keeps {p2} {p3} {p4} {p5} {p6} (h : Keeps s x) : Keeps s (State.prPut x p2 p3 p4 p5 p6).1 := by
  unfold State.prPut
  extract_lets -merge +onlyGivenNames v1 v2
  clear_value v1 v2
  extract_lets -merge +onlyGivenNames v3
  have h4 : Keeps s v3 := Keeps.fields h
  clear_value v3
  refine Keeps.ite1 ?_ (fun _ => ?_)
  · extract_lets -merge +onlyGivenNames v5
    have h6 : Keeps s v5 := State.prResume_keeps h4
    clear_value v5
    refine Keeps.ite1 ?_ (fun _ => ?_)
    · refine Keeps.ite1 ?_ (fun _ => ?_)
      · split
        · refine Keeps.ite1 ?_ (fun _ => ?_)
          · exact Keeps.mk1 (State.prShed_keeps h6)
          · exact Keeps.mk1 (State.prDeliver_keeps (State.noticeFirst_keeps (State.inc_keeps h6)))
        · exact Keeps.mk1 (State.prShed_keeps h6)
      · exact Keeps.mk1 (State.prDeliver_keeps h6)
    · exact Keeps.mk1 (State.prShed_keeps h6)
  · exact Keeps.mk1 (State.prShed_keeps h4)

theorem State.offerSample_keeps {p2} {p3} (h : Keeps s x) : Keeps s (State.offerSample x p2 p3) := by
  unfold State.offerSample
  refine Keeps.ite ?_ (fun _ => ?_)
  · exact h
  · refine Keeps.forEach ?_ (fun y1 y2 h3 => ?_)
    · exact h
    · exact State.prPut_keeps h3

theorem State.dead_keeps {p2} {p3} {p4} {p5} {p6} (h : Keeps s x) : Keeps s (State.dead x p2 p3 p4 p5 p6) := by
  unfold State.dead
  extract_lets -merge +onlyGivenNames v1
  have h2 : Keeps s v1 := State.bump64_keeps h
  clear_value v1
  extract_lets -merge +onlyGivenNames v3 v4 v5 v6
  clear_value v3 v4 v5 v6
  extract_lets -merge +onlyGivenNames v7
  have h8 : Keeps s v7 := Keeps.fields h2
  clear_value v7
  refine Keeps.ite ?_ (fun _ => ?_)
  · exact h8
  · extract_lets -merge +onlyGivenNames v9
    clear_value v9
    exact State.offerSample_keeps h8

theorem State.trcStop_keeps {p2} (h : Keeps s x) : Keeps s (State.trcStop x p2) := by
  unfold State.trcStop
  exact State.notice_keeps (State.wr_keeps h)

theorem State.trcFlush_keeps (h : Keeps s x) : Keeps s (State.trcFlush x) := by
  unfold State.trcFlush
  refine Keeps.ite ?_ (fun _ => ?_)
  · extract_lets -merge +onlyGivenNames v1 v2
    clear_value v1 v2
    extract_lets -merge +onlyGivenNames v3
    have h4 : Keeps s v3 := Keeps.fields h
    clear_value v3
    refine Keeps.ite ?_ (fun _ => ?_)
    · exact h4
    · refine Keeps.forEach ?_ (fun y5 y6 h7 => ?_)
      · exact h4
      · split
        · rename_i z8 z9 z10
          have h11 : Keeps s z9 := Keeps.of_fst z10 (State.prPut_keeps h7)
          exact h11
        · rename_i z12 z13 z14 z15 z16
          have h17 : Keeps s z13 := Keeps.of_fst z16 (State.prPut_keeps h7)
          exact State.dead_keeps h17
  · exact h

theorem State.traceEv_keeps {p2} {p3} {p4} {p5} {p6} {p7} (h : Keeps s x) : Keeps s (State.traceEv x p2 p3 p4 p5 p6 p7) := by
  unfold State.traceEv
  refine Keeps.ite ?_ (fun _ => ?_)
  · refine Keeps.ite ?_ (fun _ => ?_)
    · extract_lets -merge +onlyGivenNames v1 v2
      clear_value v1 v2
      extract_lets -merge +onlyGivenNames v3
      have h4 : Keeps s v3 := Keeps.fields h
      clear_value v3
      extract_lets -merge +onlyGivenNames v5
      have h6 : Keeps s v5 := State.trcFlush_keeps h4
      clear_value v5
      extract_lets -merge +onlyGivenNames v7
      clear_value v7
      refine Keeps.ite ?_ (fun _ => ?_)
      · exact h6
      · exact State.trcStop_keeps h6
    · exact State.trcStop_keeps h
  · exact h

theorem State.deadLetter_keeps {p2} {p3} (h : Keeps s x) : Keeps s (State.deadLetter x p2 p3) := by
  unfold State.deadLetter
  exact State.dead_keeps h

theorem State.stabWr_keeps {p2} {p3} {p4} {p5} (h : Keeps s x) : Keeps s (State.stabWr x p2 p3 p4 p5) := by
  unfold State.stabWr
  exact State.wr_keeps h

theorem State.setRnd_keeps {p2} {p3} (h : Keeps s x) : Keeps s (State.setRnd x p2 p3) := by
  unfold State.setRnd
  exact Keeps.fields h

theorem State.shedFrame_keeps {p2} {p3} (h : Keeps s x) : Keeps s (State.shedFrame x p2 p3) := by
  unfold State.shedFrame
  split
  exact State.dead_keeps (State.notice_keeps (State.inc_keeps h))

theorem State.startTx_keeps {p2} (h : Keeps s x) : Keeps s (State.startTx x p2) := by
  unfold State.startTx
  split
  · exact State.shedFrame_keeps h
  · extract_lets -merge +onlyGivenNames v1
    have h2 : Keeps s v1 := by
      unfold v1
      refine Keeps.ite ?_ (fun _ => ?_)
      · exact State.inc_keeps h
      · exact h
    clear_value v1
    exact State.emit_keeps h2

theorem State.txOne_keeps {p2} (h : Keeps s x) : Keeps s (State.txOne x p2) := by
  unfold State.txOne
  extract_lets -merge +onlyGivenNames v1
  clear_value v1
  refine Keeps.ite ?_ (fun _ => ?_)
  · refine Keeps.ite ?_ (fun _ => ?_)
    · exact State.startTx_keeps h
    · exact Keeps.fields h
  · exact State.inc_keeps h

theorem State.txV_keeps {p2} {p3} {p4} {p5} {p6} {p7} {p8} (h : Keeps s x) : Keeps s (State.txV x p2 p3 p4 p5 p6 p7 p8) := by
  unfold State.txV
  split
  · refine Keeps.ite ?_ (fun _ => ?_)
    · exact h
    · exact State.txOne_keeps h
  · extract_lets -merge +onlyGivenNames v1 v2
    clear_value v1 v2
    extract_lets -merge +onlyGivenNames v3
    have h4 : Keeps s v3 := Keeps.fields h
    clear_value v3
    refine Keeps.forEach ?_ (fun y5 y6 h7 => ?_)
    · exact h4
    · refine Keeps.ite ?_ (fun _ => ?_)
      · exact h7
      · exact State.txOne_keeps h7

theorem State.tx_keeps {p2} {p3} {p4} {p5} {p6} (h : Keeps s x) : Keeps s (State.tx x p2 p3 p4 p5 p6) := by
  unfold State.tx
  exact State.txV_keeps h

theorem State.setSrtState_keeps {p2} {p3} (h : Keeps s x) : Keeps s (State.setSrtState x p2 p3) := by
  unfold State.setSrtState
  extract_lets -merge +onlyGivenNames v1 v2
  clear_value v1 v2
  exact State.put_keeps h

theorem State.setSrtHid_keeps {p2} {p3} (h : Keeps s x) : Keeps s (State.setSrtHid x p2 p3) := by
  unfold State.setSrtHid
  exact Keeps.fields h

theorem State.setHome_keeps {p2} {p3} (h : Keeps s x) : Keeps s (State.setHome x p2 p3) := by
  unfold State.setHome
  refine Keeps.ite ?_ (fun _ => ?_)
  · refine Keeps.ite ?_ (fun _ => ?_)
    · refine Keeps.ite ?_ (fun _ => ?_)
      · exact Keeps.fields h
      · exact State.wr_keeps h
    · exact State.wr_keeps h
  · exact State.stabWr_keeps h

theorem State.setFallback_keeps {p2} {p3} (h : Keeps s x) : Keeps s (State.setFallback x p2 p3) := by
  unfold State.setFallback
  refine Keeps.ite ?_ (fun _ => ?_)
  · refine Keeps.ite ?_ (fun _ => ?_)
    · refine Keeps.ite ?_ (fun _ => ?_)
      · exact Keeps.fields h
      · exact State.wr_keeps h
    · exact State.wr_keeps h
  · exact State.stabWr_keeps h

theorem State.countShed_keeps {p2} {p3} {p4} (h : Keeps s x) : Keeps s (State.countShed x p2 p3 p4) := by
  unfold State.countShed
  split
  exact State.traceEv_keeps (State.dead_keeps h)

theorem State.prOffer_keeps {p2} {p3} {p4} {p5} {p6} {p7} (h : Keeps s x) : Keeps s (State.prOffer x p2 p3 p4 p5 p6 p7) := by
  unfold State.prOffer
  split
  · rename_i z1 z2 z3
    have h4 : Keeps s z2 := Keeps.of_fst z3 (State.prPut_keeps h)
    exact h4
  · rename_i z5 z6 z7 z8 z9
    have h10 : Keeps s z6 := Keeps.of_fst z9 (State.prPut_keeps h)
    exact State.countShed_keeps h10

theorem State.offer_keeps {p2} {p3} {p4} {p5} {p6} {p7} {p8} (h : Keeps s x) : Keeps s (State.offer x p2 p3 p4 p5 p6 p7 p8) := by
  unfold State.offer
  refine Keeps.ite ?_ (fun _ => ?_)
  · exact h
  · refine Keeps.forEach ?_ (fun y1 y2 h3 => ?_)
    · exact h
    · exact State.prOffer_keeps h3

theorem State.showOcc_keeps (h : Keeps s x) : Keeps s (State.showOcc x) := by
  unfold State.showOcc
  refine Keeps.forEach ?_ (fun y1 y2 h3 => ?_)
  · exact h
  · extract_lets -merge +onlyGivenNames v4
    clear_value v4
    extract_lets -merge +onlyGivenNames v5
    have h6 : Keeps s v5 := State.wr_keeps h3
    clear_value v5
    refine Keeps.ite ?_ (fun _ => ?_)
    · exact h6
    · exact State.wr_keeps h6

theorem State.showDepth_keeps {p2} (h : Keeps s x) : Keeps s (State.showDepth x p2) := by
  unfold State.showDepth
  extract_lets -merge +onlyGivenNames v1
  clear_value v1
  exact State.wr_keeps h

theorem State.rehome_keeps {p2} {p3} (h : Keeps s x) : Keeps s (State.rehome x p2 p3) := by
  unfold State.rehome
  extract_lets -merge +onlyGivenNames v1
  clear_value v1
  refine Keeps.ite ?_ (fun _ => ?_)
  · extract_lets -merge +onlyGivenNames v2
    have h3 : Keeps s v2 := State.setHome_keeps h
    clear_value v2
    extract_lets -merge +onlyGivenNames v4
    have h5 : Keeps s v4 := State.inc_keeps (State.wr_keeps h3)
    clear_value v4
    extract_lets -merge +onlyGivenNames v6
    have h7 : Keeps s v6 := State.traceEv_keeps (State.inc_keeps (State.inc_keeps h5))
    clear_value v6
    refine Keeps.ite ?_ (fun _ => ?_)
    · exact h7
    · exact State.stabWr_keeps (State.stabWr_keeps h7)
  · exact h

theorem State.wake_keeps {p2} {p3} (h : Keeps s x) : Keeps s (State.wake x p2 p3) := by
  unfold State.wake
  extract_lets -merge +onlyGivenNames v1
  clear_value v1
  refine Keeps.ite ?_ (fun _ => ?_)
  · refine Keeps.ite ?_ (fun _ => ?_)
    · exact State.traceEv_keeps (State.setSrtHid_keeps h)
    · exact h
  · exact h

theorem State.wakeHoles_keeps (h : Keeps s x) : Keeps s (State.wakeHoles x) := by
  unfold State.wakeHoles
  refine Keeps.forEach ?_ (fun y1 y2 h3 => ?_)
  · exact h
  · exact State.wake_keeps h3

theorem State.countDraws_keeps {p2} {p3} {p4} {p5} {p6} (h : Keeps s x) : Keeps s (State.countDraws x p2 p3 p4 p5 p6) := by
  unfold State.countDraws
  refine Keeps.forEach ?_ (fun y1 y2 h3 => ?_)
  · exact h
  · exact State.traceEv_keeps (State.notice_keeps (State.inc_keeps h3))

theorem State.startItem_keeps {p2} {p3} (h : Keeps s x) : Keeps s (State.startItem x p2 p3) := by
  unfold State.startItem
  extract_lets -merge +onlyGivenNames v1
  have h2 : Keeps s v1 := State.countDraws_keeps h
  clear_value v1
  extract_lets -merge +onlyGivenNames v3
  clear_value v3
  extract_lets -merge +onlyGivenNames v4
  have h5 : Keeps s v4 := by
    unfold v4
    refine Keeps.ite ?_ (fun _ => ?_)
    · exact h2
    · exact State.wr_keeps h2
  clear_value v4
  extract_lets -merge +onlyGivenNames v6
  clear_value v6
  extract_lets -merge +onlyGivenNames v7
  have h8 : Keeps s v7 := Keeps.fields h5
  clear_value v7
  exact State.showOcc_keeps (State.showDepth_keeps (State.traceEv_keeps h8))

theorem State.countSteal_keeps {p2} {p3} (h : Keeps s x) : Keeps s (State.countSteal x p2 p3) := by
  unfold State.countSteal
  extract_lets -merge +onlyGivenNames v1
  have h2 : Keeps s v1 := State.traceEv_keeps (State.inc_keeps (State.inc_keeps h))
  clear_value v1
  refine Keeps.ite ?_ (fun _ => ?_)
  · exact h2
  · exact State.stabWr_keeps h2

theorem State.sorterNext_keeps {p2} {p3} (h : Keeps s x) : Keeps s (State.sorterNext x p2 p3) := by
  unfold State.sorterNext
  refine Keeps.ite ?_ (fun _ => ?_)
  · refine Keeps.ite ?_ (fun _ => ?_)
    · split
      · exact h
      · refine State.startItem_keeps ?_
        refine Keeps.ite ?_ (fun _ => ?_)
        · exact h
        · exact State.setSrtHid_keeps h
      · exact State.startItem_keeps (State.countSteal_keeps h)
    · extract_lets -merge +onlyGivenNames v1
      clear_value v1
      extract_lets -merge +onlyGivenNames v2
      have h3 : Keeps s v2 := State.setSrtHid_keeps h
      clear_value v2
      split
      · exact h3
      · exact State.startItem_keeps h3
  · exact h

theorem State.kick_keeps (h : Keeps s x) : Keeps s (State.kick x) := by
  unfold State.kick
  refine Keeps.forEach ?_ (fun y1 y2 h3 => ?_)
  · exact h
  · exact State.sorterNext_keeps h3

theorem State.mapItems_keeps {p2} (h : Keeps s x) : Keeps s (State.mapItems x p2) := by
  unfold State.mapItems
  exact Keeps.fields h

theorem State.tokens_keeps (h : Keeps s x) : Keeps s (State.tokens x) := by
  unfold State.tokens
  extract_lets -merge +onlyGivenNames v1
  clear_value v1
  extract_lets -merge +onlyGivenNames v2
  have h3 : Keeps s v2 := State.mapItems_keeps h
  clear_value v2
  refine Keeps.forEach ?_ (fun y4 y5 h6 => ?_)
  · exact h3
  · exact State.wake_keeps (State.showDepth_keeps h6)

theorem State.enqueue_keeps {p2} {p3} {p4} {p5} {p6} (h : Keeps s x) : Keeps s (State.enqueue x p2 p3 p4 p5 p6) := by
  unfold State.enqueue
  extract_lets -merge +onlyGivenNames v1
  clear_value v1
  split
  extract_lets -merge +onlyGivenNames v2 v3
  clear_value v2 v3
  extract_lets -merge +onlyGivenNames v4
  have h5 : Keeps s v4 := Keeps.fields h
  clear_value v4
  exact State.sorterNext_keeps (State.tokens_keeps (State.showOcc_keeps (State.traceEv_keeps h5)))

theorem State.enqueueC3_keeps {p2} {p3} (h : Keeps s x) : Keeps s (State.enqueueC3 x p2 p3) := by
  unfold State.enqueueC3
  extract_lets -merge +onlyGivenNames v1
  clear_value v1
  exact State.enqueue_keeps (State.countDraws_keeps h)

theorem State.dropItem_keeps {p2} (h : Keeps s x) : Keeps s (State.dropItem x p2) := by
  unfold State.dropItem
  exact Keeps.fields h

theorem State.markRan_keeps {p2} (h : Keeps s x) : Keeps s (State.markRan x p2) := by
  unfold State.markRan
  exact State.mapItems_keeps h

theorem State.tick_keeps (h : Keeps s x) : Keeps s (State.tick x) := by
  unfold State.tick
  refine Keeps.ite ?_ (fun _ => ?_)
  · exact h
  · extract_lets -merge +onlyGivenNames v1 v2
    clear_value v1 v2
    exact Keeps.fields h

theorem State.showSlot_keeps {p2} (h : Keeps s x) : Keeps s (State.showSlot x p2) := by
  unfold State.showSlot
  extract_lets -merge +onlyGivenNames v1 v2
  clear_value v1 v2
  extract_lets -merge +onlyGivenNames v3
  have h4 : Keeps s v3 := State.wr_keeps (State.wr_keeps (State.wr_keeps (State.setFlag_keeps (State.wr_keeps (State.wr_keeps (State.wr_keeps h))))))
  clear_value v3
  extract_lets -merge +onlyGivenNames v5
  have h6 : Keeps s v5 := State.wr_keeps (State.wr_keeps (State.wr_keeps (State.wr_keeps (State.wr_keeps h4))))
  clear_value v5
  exact State.wr_keeps (State.wr_keeps (State.wr_keeps h6))

theorem State.showKeyStat_keeps (h : Keeps s x) : Keeps s (State.showKeyStat x) := by
  unfold State.showKeyStat
  extract_lets -merge +onlyGivenNames v1 v2
  clear_value v1 v2
  extract_lets -merge +onlyGivenNames v3
  have h4 : Keeps s v3 := State.wr_keeps (State.wr_keeps (State.wr_keeps h))
  clear_value v3
  refine Keeps.ite ?_ (fun _ => ?_)
  · exact h4
  · exact State.notice_keeps h4

theorem State.setCat_keeps {p2} {p3} (h : Keeps s x) : Keeps s (State.setCat x p2 p3) := by
  unfold State.setCat
  exact State.showKeyStat_keeps (State.showSlot_keeps (Keeps.fields h))

theorem State.setRun_keeps {p2} {p3} (h : Keeps s x) : Keeps s (State.setRun x p2 p3) := by
  unfold State.setRun
  exact State.showSlot_keeps (Keeps.fields h)

theorem State.zeroiseSlot_keeps {p2} (h : Keeps s x) : Keeps s (State.zeroiseSlot x p2) := by
  unfold State.zeroiseSlot
  exact Keeps.fields h

theorem State.endSlot_keeps {p2} {p3} {p4} {p5} (h : Keeps s x) : Keeps s (State.endSlot x p2 p3 p4 p5) := by
  unfold State.endSlot
  extract_lets -merge +onlyGivenNames v1
  have h2 : Keeps s v1 := by
    unfold v1
    refine Keeps.ite ?_ (fun _ => ?_)
    · exact h
    · exact State.zeroiseSlot_keeps h
  clear_value v1
  exact State.notice_keeps (State.setCat_keeps h2)

theorem State.reserve_keeps {p2} (h : Keeps s x) : Keeps s (State.reserve x p2) := by
  unfold State.reserve
  extract_lets -merge +onlyGivenNames v1 v2 v3 v4 v5
  clear_value v1 v2 v3 v4 v5
  refine Keeps.ite ?_ (fun _ => ?_)
  · exact h
  · exact State.setRun_keeps h

theorem State.countUse_keeps {p2} {p3} (h : Keeps s x) : Keeps s (State.countUse x p2 p3) := by
  unfold State.countUse
  extract_lets -merge +onlyGivenNames v1 v2
  clear_value v1 v2
  extract_lets -merge +onlyGivenNames v3
  have h4 : Keeps s v3 := State.reserve_keeps (State.setRun_keeps h)
  clear_value v3
  extract_lets -merge +onlyGivenNames v5
  clear_value v5
  refine Keeps.ite ?_ (fun _ => ?_)
  · exact h4
  · exact State.endSlot_keeps h4

theorem State.refuseUse_keeps {p2} (h : Keeps s x) : Keeps s (State.refuseUse x p2) := by
  unfold State.refuseUse
  exact State.noticeFirst_keeps (State.inc_keeps h)

theorem State.expireNow_keeps {p2} (h : Keeps s x) : Keeps s (State.expireNow x p2) := by
  unfold State.expireNow
  refine Keeps.ite ?_ (fun _ => ?_)
  · exact h
  · exact State.endSlot_keeps h

theorem State.useSlot_keeps {p2} {p3} (h : Keeps s x) : Keeps s (State.useSlot x p2 p3).1 := by
  unfold State.useSlot
  extract_lets -merge +onlyGivenNames v1
  have h2 : Keeps s v1 := State.expireNow_keeps h
  clear_value v1
  split
  · refine Keeps.ite1 ?_ (fun _ => ?_)
    · exact Keeps.mk1 (State.refuseUse_keeps h2)
    · exact Keeps.mk1 (State.countUse_keeps h2)
  · exact Keeps.mk1 (State.refuseUse_keeps h2)

theorem State.noteRx_keeps {p2} {p3} (h : Keeps s x) : Keeps s (State.noteRx x p2 p3) := by
  unfold State.noteRx
  split
  · extract_lets -merge +onlyGivenNames v1
    clear_value v1
    exact State.setRun_keeps h
  · exact h

theorem State.useKey_keeps {p2} {p3} {p4} (h : Keeps s x) : Keeps s (State.useKey x p2 p3 p4).1 := by
  unfold State.useKey
  split
  · exact Keeps.mk1 (State.refuseUse_keeps h)
  · extract_lets -merge +onlyGivenNames v1
    have h2 : Keeps s v1 := State.expireNow_keeps h
    clear_value v1
    extract_lets -merge +onlyGivenNames v3
    clear_value v3
    split
    · refine Keeps.ite1 ?_ (fun _ => ?_)
      · exact Keeps.mk1 (State.refuseUse_keeps h2)
      · exact Keeps.mk1 (State.countUse_keeps h2)
    · exact Keeps.mk1 (State.refuseUse_keeps h2)

theorem State.plkEmit_keeps {p2} {p3} (h : Keeps s x) : Keeps s (State.plkEmit x p2 p3) := by
  unfold State.plkEmit
  extract_lets -merge +onlyGivenNames v1 v2
  clear_value v1 v2
  refine Keeps.ite ?_ (fun _ => ?_)
  · exact State.emit_keeps h
  · exact h

theorem State.plkPut_keeps {p2} {p3} {p4} (h : Keeps s x) : Keeps s (State.plkPut x p2 p3 p4) := by
  unfold State.plkPut
  extract_lets -merge +onlyGivenNames v1 v2 v3 v4 v5
  clear_value v1 v2 v3 v4 v5
  extract_lets -merge +onlyGivenNames v6
  have h7 : Keeps s v6 := by
    unfold v6
    refine Keeps.ite ?_ (fun _ => ?_)
    · exact Keeps.fields h
    · exact Keeps.fields h
  clear_value v6
  exact State.plkEmit_keeps h7

theorem State.plkSend_keeps {p2} (h : Keeps s x) : Keeps s (State.plkSend x p2) := by
  unfold State.plkSend
  refine Keeps.ite ?_ (fun _ => ?_)
  · extract_lets -merge +onlyGivenNames v1
    clear_value v1
    extract_lets -merge +onlyGivenNames v2
    have h3 : Keeps s v2 := by
      unfold v2
      refine Keeps.ite ?_ (fun _ => ?_)
      · exact h
      · exact Keeps.fields h
    clear_value v2
    extract_lets -merge +onlyGivenNames v4
    clear_value v4
    refine Keeps.forEach ?_ (fun y5 y6 h7 => ?_)
    · exact h3
    · exact State.plkPut_keeps h7
  · exact h

theorem State.sendAck_keeps (h : Keeps s x) : Keeps s (State.sendAck x) := by
  unfold State.sendAck
  extract_lets -merge +onlyGivenNames v1
  clear_value v1
  extract_lets -merge +onlyGivenNames v2
  have h3 : Keeps s v2 := Keeps.fields h
  clear_value v2
  exact State.plkEmit_keeps h3

theorem State.rxCounted_keeps {p2} (h : Keeps s x) : Keeps s (State.rxCounted x p2) := by
  unfold State.rxCounted
  extract_lets -merge +onlyGivenNames v1
  clear_value v1
  extract_lets -merge +onlyGivenNames v2
  have h3 : Keeps s v2 := Keeps.fields h
  clear_value v2
  refine Keeps.ite ?_ (fun _ => ?_)
  · exact h3
  · exact State.sendAck_keeps h3

theorem State.received_keeps {p2} {p3} (h : Keeps s x) : Keeps s (State.received x p2 p3) := by
  unfold State.received
  extract_lets -merge +onlyGivenNames v1
  clear_value v1
  exact State.rxCounted_keeps (Keeps.fields h)

theorem State.linkRow_keeps {p2} {p3} {p4} (h : Keeps s x) (kp4 : ∀ b1, Keeps s b1 → Keeps s (p4 b1)) : Keeps s (State.linkRow x p2 p3 p4) := by
  unfold State.linkRow
  refine Keeps.ite ?_ (fun _ => ?_)
  · refine Keeps.ite ?_ (fun _ => ?_)
    · exact State.rxCounted_keeps h
    · exact kp4 _ (State.received_keeps h)
  · exact h

theorem State.hold_keeps {p2} {p3} (h : Keeps s x) : Keeps s (State.hold x p2 p3) := by
  unfold State.hold
  refine Keeps.ite ?_ (fun _ => ?_)
  · extract_lets -merge +onlyGivenNames v1 v2 v3 v4
    clear_value v1 v2 v3 v4
    extract_lets -merge +onlyGivenNames v5
    have h6 : Keeps s v5 := Keeps.fields h
    clear_value v5
    refine Keeps.ite ?_ (fun _ => ?_)
    · exact h6
    · exact State.inc_keeps h6
  · exact Keeps.fields h

theorem State.weighRoles_keeps (h : Keeps s x) : Keeps s (State.weighRoles x) := by
  unfold State.weighRoles
  extract_lets -merge +onlyGivenNames v1
  clear_value v1
  exact Keeps.fields h

theorem State.setReady_keeps {p2} (h : Keeps s x) : Keeps s (State.setReady x p2) := by
  unfold State.setReady
  refine Keeps.ite ?_ (fun _ => ?_)
  · exact State.weighRoles_keeps (State.notice_keeps (State.setFlag_keeps h))
  · exact h

theorem State.refreshReady_keeps (h : Keeps s x) : Keeps s (State.refreshReady x) := by
  unfold State.refreshReady
  extract_lets -merge +onlyGivenNames v1
  have h2 : Keeps s v1 := State.wr_keeps h
  clear_value v1
  exact State.setReady_keeps h2

theorem State.askCatch_keeps {p2} {p3} (h : Keeps s x) : Keeps s (State.askCatch x p2 p3) := by
  unfold State.askCatch
  extract_lets -merge +onlyGivenNames v1
  clear_value v1
  exact State.plkSend_keeps (Keeps.fields h)

theorem State.catchEpoch_keeps {p2} (h : Keeps s x) : Keeps s (State.catchEpoch x p2) := by
  unfold State.catchEpoch
  refine Keeps.ite ?_ (fun _ => ?_)
  · exact Keeps.fields h
  · exact State.askCatch_keeps h

theorem State.digestCompare_keeps {p2} {p3} {p4} {p5} (h : Keeps s x) : Keeps s (State.digestCompare x p2 p3 p4 p5) := by
  unfold State.digestCompare
  extract_lets -merge +onlyGivenNames v1 v2
  clear_value v1 v2
  extract_lets -merge +onlyGivenNames v3
  have h4 : Keeps s v3 := State.notice_keeps (State.inc_keeps h)
  clear_value v3
  extract_lets -merge +onlyGivenNames v5
  have h6 : Keeps s v5 := by
    unfold v5
    refine Keeps.ite ?_ (fun _ => ?_)
    · split
      · rename_i z7
        exact State.askCatch_keeps h4
      · rename_i z8 z9
        exact State.catchEpoch_keeps h4
    · split
      · rename_i z10 z11 z12
        refine Keeps.ite ?_ (fun _ => ?_)
        · exact State.catchEpoch_keeps h
        · exact State.notice_keeps (Keeps.fields h)
      · rename_i z13 z14
        exact h
  clear_value v5
  exact State.refreshReady_keeps h6

theorem State.digestReached_keeps {p2} {p3} {p4} {p5} (h : Keeps s x) : Keeps s (State.digestReached x p2 p3 p4 p5) := by
  unfold State.digestReached
  refine Keeps.ite ?_ (fun _ => ?_)
  · extract_lets -merge +onlyGivenNames v1 v2
    clear_value v1 v2
    extract_lets -merge +onlyGivenNames v3
    have h4 : Keeps s v3 := Keeps.fields h
    clear_value v3
    split
    · exact State.digestCompare_keeps h4
    · exact h4
  · exact h

theorem State.hostGate_keeps {p2} {p3} {p4} (h : Keeps s x) (kp4 : ∀ b1, Keeps s b1 → Keeps s (p4 b1)) : Keeps s (State.hostGate x p2 p3 p4) := by
  unfold State.hostGate
  refine Keeps.ite ?_ (fun _ => ?_)
  · refine Keeps.ite ?_ (fun _ => ?_)
    · exact kp4 _ h
    · refine Keeps.ite ?_ (fun _ => ?_)
      · refine Keeps.ite ?_ (fun _ => ?_)
        · exact kp4 _ h
        · exact Keeps.fields h
      · exact State.logRefused_keeps h
  · exact h

theorem State.answer_keeps {p2} (h : Keeps s x) : Keeps s (State.answer x p2) := by
  unfold State.answer
  exact State.emit_keeps h

theorem State.hostRead_keeps {p2} {p3} (h : Keeps s x) (kp3 : ∀ b1, Keeps s b1 → Keeps s (p3 b1)) : Keeps s (State.hostRead x p2 p3) := by
  unfold State.hostRead
  refine Keeps.ite ?_ (fun _ => ?_)
  · refine Keeps.ite ?_ (fun _ => ?_)
    · exact h
    · exact State.answer_keeps h
  · exact kp3 _ h

theorem State.drivePins_keeps (h : Keeps s x) : Keeps s (State.drivePins x) := by
  unfold State.drivePins
  extract_lets -merge +onlyGivenNames v1
  clear_value v1
  refine Keeps.ite ?_ (fun _ => ?_)
  · refine Keeps.forEach ?_ (fun y2 y3 h4 => ?_)
    · exact h
    · extract_lets -merge +onlyGivenNames v5 v6 v7 v8 v9 v10
      clear_value v5 v6 v7 v8 v9 v10
      extract_lets -merge +onlyGivenNames v11
      have h12 : Keeps s v11 := by
        unfold v11
        refine Keeps.ite ?_ (fun _ => ?_)
        · exact h4
        · exact Keeps.fields h4
      clear_value v11
      refine Keeps.ite ?_ (fun _ => ?_)
      · exact State.wr_keeps h12
      · exact h12
  · exact h

theorem State.pubFrames_keeps {p2} {p3} {p4} (h : Keeps s x) : Keeps s (State.pubFrames x p2 p3 p4) := by
  unfold State.pubFrames
  extract_lets -merge +onlyGivenNames v1
  clear_value v1
  refine Keeps.forEach ?_ (fun y2 y3 h4 => ?_)
  · exact h
  · exact State.txV_keeps h4

theorem State.pubOut_keeps {p2} {p3} {p4} (h : Keeps s x) : Keeps s (State.pubOut x p2 p3 p4) := by
  unfold State.pubOut
  extract_lets -merge +onlyGivenNames v1
  have h2 : Keeps s v1 := State.inc_keeps (State.pubFrames_keeps h)
  clear_value v1
  extract_lets -merge +onlyGivenNames v3 v4
  clear_value v3 v4
  refine Keeps.ite ?_ (fun _ => ?_)
  · refine Keeps.ite ?_ (fun _ => ?_)
    · refine Keeps.ite ?_ (fun _ => ?_)
      · exact h2
      · exact State.hold_keeps h2
    · exact State.plkSend_keeps h2
  · exact h2

theorem State.pubSend_keeps {p2} {p3} (h : Keeps s x) : Keeps s (State.pubSend x p2 p3).1 := by
  unfold State.pubSend
  refine Keeps.ite1 ?_ (fun _ => ?_)
  · exact Keeps.mk1 (State.pubOut_keeps h)
  · extract_lets -merge +onlyGivenNames v1 v2 v3
    clear_value v1 v2 v3
    split
    · rename_i z4 z5 z6 z7
      have h8 : Keeps s z5 := Keeps.of_fst z7 (State.useKey_keeps h)
      extract_lets -merge +onlyGivenNames v9
      clear_value v9
      exact Keeps.mk1 (State.pubOut_keeps h8)
    · rename_i z10 z11 z12
      have h13 : Keeps s z11 := Keeps.of_fst z12 (State.useKey_keeps h)
      exact Keeps.mk1 (State.notice_keeps (State.incSat_keeps h13))

theorem State.pubChange_keeps {p2} {p3} {p4} (h : Keeps s x) : Keeps s (State.pubChange x p2 p3 p4).1 := by
  unfold State.pubChange
  extract_lets -merge +onlyGivenNames v1
  have h2 : Keeps s v1 := State.wr_keeps (State.wr_keeps h)
  clear_value v1
  extract_lets -merge +onlyGivenNames v3 v4
  clear_value v3 v4
  extract_lets -merge +onlyGivenNames v5
  have h6 : Keeps s v5 := Keeps.fields h2
  clear_value v5
  exact State.pubSend_keeps h6

theorem State.alarmRec_keeps {p2} {p3} {p4} {p5} {p6} {p7} {p8} {p9} {p10} (h : Keeps s x) : Keeps s (State.alarmRec x p2 p3 p4 p5 p6 p7 p8 p9 p10) := by
  unfold State.alarmRec
  extract_lets -merge +onlyGivenNames v1
  have h2 : Keeps s v1 := State.inc_keeps h
  clear_value v1
  exact State.offer_keeps h2

theorem State.stdMark_keeps {p2} {p3} (h : Keeps s x) : Keeps s (State.stdMark x p2 p3) := by
  unfold State.stdMark
  extract_lets -merge +onlyGivenNames v1
  clear_value v1
  refine Keeps.ite ?_ (fun _ => ?_)
  · extract_lets -merge +onlyGivenNames v2
    have h3 : Keeps s v2 := State.wr_keeps h
    clear_value v2
    extract_lets -merge +onlyGivenNames v4
    clear_value v4
    extract_lets -merge +onlyGivenNames v5
    have h6 : Keeps s v5 := State.logEvent_keeps (State.notice_keeps h3)
    clear_value v5
    exact State.alarmRec_keeps h6
  · exact h

theorem State.stdSeen_keeps {p2} (h : Keeps s x) : Keeps s (State.stdSeen x p2) := by
  unfold State.stdSeen
  exact Keeps.fields h

theorem State.shedMark_keeps {p2} (h : Keeps s x) : Keeps s (State.shedMark x p2) := by
  unfold State.shedMark
  refine Keeps.ite ?_ (fun _ => ?_)
  · exact State.stdMark_keeps (State.stdSeen_keeps h)
  · exact h

theorem State.showAlarms_keeps (h : Keeps s x) : Keeps s (State.showAlarms x).1 := by
  unfold State.showAlarms
  extract_lets -merge +onlyGivenNames v1 v2
  clear_value v1 v2
  extract_lets -merge +onlyGivenNames v3
  have h4 : Keeps s v3 := by
    unfold v3
    refine Keeps.forEach ?_ (fun y5 y6 h7 => ?_)
    · exact h
    · exact State.wr_keeps h7
  clear_value v3
  extract_lets -merge +onlyGivenNames v8
  clear_value v8
  exact Keeps.mk1 (State.drivePins_keeps h4)

theorem State.pubRound_keeps {p2} {p3} {p4} (h : Keeps s x) : Keeps s (State.pubRound x p2 p3 p4) := by
  unfold State.pubRound
  extract_lets -merge +onlyGivenNames v1
  have h2 : Keeps s v1 := by
    unfold v1
    refine Keeps.ite ?_ (fun _ => ?_)
    · exact h
    · refine Keeps.forEach ?_ (fun y3 y4 h5 => ?_)
      · exact h
      · split
        rename_i z6 z7 z8 z9
        have h10 : Keeps s z7 := Keeps.of_fst z9 (State.pubChange_keeps h5)
        exact Keeps.fields h10
  clear_value v1
  exact State.shedMark_keeps (State.stdMark_keeps h2)

theorem State.stdPublish_keeps (h : Keeps s x) : Keeps s (State.stdPublish x) := by
  unfold State.stdPublish
  split
  rename_i z1 z2 z3 z4
  have h5 : Keeps s z2 := Keeps.of_fst z4 (State.showAlarms_keeps h)
  extract_lets -merge +onlyGivenNames v6
  have h7 : Keeps s v6 := State.pubRound_keeps h5
  clear_value v6
  split
  rename_i z8 z9 z10 z11
  have h12 : Keeps s z9 := Keeps.of_fst z11 (State.showAlarms_keeps h7)
  exact State.showAlarms_keeps (State.pubRound_keeps h12)

theorem State.stdAlarm_keeps {p2} {p3} (h : Keeps s x) : Keeps s (State.stdAlarm x p2 p3) := by
  unfold State.stdAlarm
  refine Keeps.ite ?_ (fun _ => ?_)
  · exact State.stdPublish_keeps (State.shedMark_keeps (State.stdMark_keeps h))
  · exact h

theorem State.sendFrame_keeps {p2} {p3} {p4} (h : Keeps s x) : Keeps s (State.sendFrame x p2 p3 p4) := by
  unfold State.sendFrame
  split
  · exact h
  · extract_lets -merge +onlyGivenNames v1
    clear_value v1
    split
    · exact h
    · refine Keeps.ite ?_ (fun _ => ?_)
      · exact h
      · refine Keeps.forEach ?_ (fun y2 y3 h4 => ?_)
        · exact h
        · exact State.txV_keeps h4

theorem State.slotOut_keeps {p2} {p3} {p4} (h : Keeps s x) : Keeps s (State.slotOut x p2 p3 p4) := by
  unfold State.slotOut
  extract_lets -merge +onlyGivenNames v1
  have h2 : Keeps s v1 := State.sendFrame_keeps h
  clear_value v1
  split
  · exact h2
  · exact State.offer_keeps h2

theorem State.emitSlot_keeps {p2} {p3} (h : Keeps s x) : Keeps s (State.emitSlot x p2 p3) := by
  unfold State.emitSlot
  extract_lets -merge +onlyGivenNames v1 v2 v3
  clear_value v1 v2 v3
  extract_lets -merge +onlyGivenNames v4
  have h5 : Keeps s v4 := Keeps.fields h
  clear_value v4
  refine Keeps.ite ?_ (fun _ => ?_)
  · refine Keeps.ite ?_ (fun _ => ?_)
    · extract_lets -merge +onlyGivenNames v6
      have h7 : Keeps s v6 := State.slotOut_keeps h5
      clear_value v6
      refine Keeps.ite ?_ (fun _ => ?_)
      · refine Keeps.ite ?_ (fun _ => ?_)
        · exact h7
        · exact State.hold_keeps h7
      · exact State.plkSend_keeps h7
    · extract_lets -merge +onlyGivenNames v8
      clear_value v8
      extract_lets -merge +onlyGivenNames v9
      have h10 : Keeps s v9 := State.slotOut_keeps (Keeps.fields h5)
      clear_value v9
      exact State.plkSend_keeps (Keeps.fields h10)
  · exact h5

theorem State.modSlot_keeps {p2} {p3} {p4} (h : Keeps s x) : Keeps s (State.modSlot x p2 p3 p4) := by
  unfold State.modSlot
  extract_lets -merge +onlyGivenNames v1
  clear_value v1
  exact State.setRnd_keeps h

theorem State.releaseScan_keeps {r k} (h : Keeps s x) : Keeps s (State.releaseScan x r k) := by
  induction k generalizing x with
  | zero => exact h
  | succ k ih =>
    unfold State.releaseScan
    split
    · exact h
    · split
      · extract_lets q a b
        have ha : Keeps s a := State.setRnd_keeps h
        refine ih ?_
        unfold b
        split
        · exact State.traceEv_keeps (State.emitSlot_keeps ha)
        · exact State.traceEv_keeps ha
      · exact h

theorem State.slotEnd_keeps {p2} {p3} (h : Keeps s x) : Keeps s (State.slotEnd x p2 p3) := by
  unfold State.slotEnd
  split
  · exact h
  · extract_lets -merge +onlyGivenNames v1
    have h2 : Keeps s v1 := State.modSlot_keeps h
    clear_value v1
    exact State.releaseScan_keeps h2

theorem State.showLoad_keeps {p2} (h : Keeps s x) : Keeps s (State.showLoad x p2) := by
  unfold State.showLoad
  exact State.wr_keeps h

theorem State.showLoads_keeps (h : Keeps s x) : Keeps s (State.showLoads x) := by
  unfold State.showLoads
  refine Keeps.forEach ?_ (fun y1 y2 h3 => ?_)
  · exact h
  · exact State.showLoad_keeps h3

theorem State.chargeSorter_keeps {p2} {p3} {p4} (h : Keeps s x) : Keeps s (State.chargeSorter x p2 p3 p4) := by
  unfold State.chargeSorter
  extract_lets -merge +onlyGivenNames v1 v2
  clear_value v1 v2
  extract_lets -merge +onlyGivenNames v3
  have h4 : Keeps s v3 := State.setSrtHid_keeps (State.bump64_keeps h)
  clear_value v3
  extract_lets -merge +onlyGivenNames v5
  clear_value v5
  extract_lets -merge +onlyGivenNames v6
  have h7 : Keeps s v6 := Keeps.fields h4
  clear_value v6
  extract_lets -merge +onlyGivenNames v8
  have h9 : Keeps s v8 := State.showLoad_keeps h7
  clear_value v8
  refine Keeps.ite ?_ (fun _ => ?_)
  · exact h9
  · exact State.notice_keeps (Keeps.fields h9)

theorem State.chargeStopped_keeps {p2} (h : Keeps s x) : Keeps s (State.chargeStopped x p2) := by
  unfold State.chargeStopped
  refine Keeps.ite ?_ (fun _ => ?_)
  · exact h
  · exact State.chargeSorter_keeps h

theorem State.handOver_keeps {p2} {p3} {p4} (h : Keeps s x) : Keeps s (State.handOver x p2 p3 p4) := by
  unfold State.handOver
  refine Keeps.ite ?_ (fun _ => ?_)
  · extract_lets -merge +onlyGivenNames v1 v2 v3
    clear_value v1 v2 v3
    refine Keeps.ite ?_ (fun _ => ?_)
    · refine Keeps.ite ?_ (fun _ => ?_)
      · exact State.dead_keeps (State.notice_keeps (Keeps.fields h))
      · exact h
    · exact Keeps.fields h
  · exact State.enqueue_keeps h

theorem State.drainOverflow_keeps (h : Keeps s x) : Keeps s (State.drainOverflow x) := by
  unfold State.drainOverflow
  split
  · exact h
  · refine Keeps.ite ?_ (fun _ => ?_)
    · exact h
    · exact State.enqueue_keeps (Keeps.fields h)

theorem State.showMoves_keeps (h : Keeps s x) : Keeps s (State.showMoves x) := by
  unfold State.showMoves
  exact State.setFlag_keeps (State.wr_keeps h)

theorem State.moveQuiet_keeps {p2} (h : Keeps s x) : Keeps s (State.moveQuiet x p2) := by
  unfold State.moveQuiet
  refine Keeps.ite ?_ (fun _ => ?_)
  · exact Keeps.fields h
  · exact h

theorem State.releaseHeld_keeps {p2} (h : Keeps s x) : Keeps s (State.releaseHeld x p2) := by
  unfold State.releaseHeld
  split
  exact State.kick_keeps (State.tokens_keeps (State.mapItems_keeps h))

theorem State.endMove_keeps {p2} (h : Keeps s x) : Keeps s (State.endMove x p2) := by
  unfold State.endMove
  exact State.showMoves_keeps (Keeps.fields h)

theorem State.abandonMoves_keeps {p2} (h : Keeps s x) : Keeps s (State.abandonMoves x p2) := by
  unfold State.abandonMoves
  refine Keeps.forEach ?_ (fun y1 y2 h3 => ?_)
  · exact h
  · exact State.releaseHeld_keeps (State.endMove_keeps h3)

theorem State.lbBad_keeps {p2} (h : Keeps s x) : Keeps s (State.lbBad x p2) := by
  unfold State.lbBad
  exact State.notice_keeps (State.inc_keeps h)

theorem State.lbDone_keeps {p2} {p3} {p4} (h : Keeps s x) : Keeps s (State.lbDone x p2 p3 p4) := by
  unfold State.lbDone
  extract_lets -merge +onlyGivenNames v1 v2
  clear_value v1 v2
  extract_lets -merge +onlyGivenNames v3
  have h4 : Keeps s v3 := by
    unfold v3
    refine Keeps.ite ?_ (fun _ => ?_)
    · exact Keeps.fields h
    · exact State.inc_keeps h
  clear_value v3
  refine Keeps.ite ?_ (fun _ => ?_)
  · exact h4
  · exact State.enqueue_keeps h4

theorem State.lostSlot_keeps {p2} (h : Keeps s x) : Keeps s (State.lostSlot x p2) := by
  unfold State.lostSlot
  split
  exact State.dead_keeps h

theorem State.putFrame_keeps {p2} {p3} (h : Keeps s x) : Keeps s (State.putFrame x p2 p3) := by
  unfold State.putFrame
  split
  · refine Keeps.ite ?_ (fun _ => ?_)
    · exact State.lostSlot_keeps h
    · exact State.modSlot_keeps h
  · exact h

theorem State.itemOutput_keeps {p2} (h : Keeps s x) : Keeps s (State.itemOutput x p2) := by
  unfold State.itemOutput
  split
  · refine Keeps.ite ?_ (fun _ => ?_)
    · exact h
    · split
      · refine Keeps.ite ?_ (fun _ => ?_)
        · exact State.lostSlot_keeps h
        · exact State.enqueue_keeps (State.modSlot_keeps h)
      · exact h
  · exact State.putFrame_keeps h
  · extract_lets -merge +onlyGivenNames v1
    clear_value v1
    refine Keeps.ite ?_ (fun _ => ?_)
    · exact State.countShed_keeps h
    · exact State.prOffer_keeps h
  · exact State.offer_keeps h
  · refine Keeps.ite ?_ (fun _ => ?_)
    · exact State.lbDone_keeps h
    · exact h
  · refine Keeps.ite ?_ (fun _ => ?_)
    · exact State.lbDone_keeps h
    · exact State.lbDone_keeps (State.lbBad_keeps h)
  · exact h

theorem State.completeItem_keeps {p2} (h : Keeps s x) : Keeps s (State.completeItem x p2) := by
  unfold State.completeItem
  extract_lets -merge +onlyGivenNames v1
  have h2 : Keeps s v1 := State.itemOutput_keeps (State.dropItem_keeps h)
  clear_value v1
  exact State.slotEnd_keeps (State.showOcc_keeps (State.tokens_keeps h2))

theorem State.showGrpContrib_keeps (h : Keeps s x) : Keeps s (State.showGrpContrib x) := by
  unfold State.showGrpContrib
  extract_lets -merge +onlyGivenNames v1
  clear_value v1
  refine Keeps.forEach ?_ (fun y2 y3 h4 => ?_)
  · exact h
  · exact State.wr_keeps h4

theorem State.oscNotice_keeps {p2} {p3} {p4} {p5} (h : Keeps s x) : Keeps s (State.oscNotice x p2 p3 p4 p5) := by
  unfold State.oscNotice
  extract_lets -merge +onlyGivenNames v1
  clear_value v1
  extract_lets -merge +onlyGivenNames v2
  have h3 : Keeps s v2 := by
    unfold v2
    refine Keeps.ite ?_ (fun _ => ?_)
    · exact State.showGrpContrib_keeps (Keeps.fields h)
    · exact h
  clear_value v2
  exact State.notice_keeps h3

theorem State.setGrp_keeps {p2} {p3} (h : Keeps s x) : Keeps s (State.setGrp x p2 p3) := by
  unfold State.setGrp
  exact Keeps.fields h

theorem State.showRunning_keeps (h : Keeps s x) : Keeps s (State.showRunning x) := by
  unfold State.showRunning
  extract_lets -merge +onlyGivenNames v1
  clear_value v1
  exact State.wr_keeps h

theorem State.suspAlarm_keeps (h : Keeps s x) : Keeps s (State.suspAlarm x) := by
  unfold State.suspAlarm
  exact State.stdAlarm_keeps h

theorem State.islAlarm_keeps (h : Keeps s x) : Keeps s (State.islAlarm x) := by
  unfold State.islAlarm
  exact State.stdAlarm_keeps h

theorem State.showGrp_keeps {p2} (h : Keeps s x) : Keeps s (State.showGrp x p2) := by
  unfold State.showGrp
  extract_lets -merge +onlyGivenNames v1 v2 v3 v4
  clear_value v1 v2 v3 v4
  extract_lets -merge +onlyGivenNames v5
  have h6 : Keeps s v5 := State.wr_keeps (State.wr_keeps (State.wr_keeps (State.setFlag_keeps (State.wr_keeps h))))
  clear_value v5
  extract_lets -merge +onlyGivenNames v7
  have h8 : Keeps s v7 := State.wr_keeps (State.wr_keeps h6)
  clear_value v7
  extract_lets -merge +onlyGivenNames v9
  have h10 : Keeps s v9 := by
    unfold v9
    refine Keeps.forEach ?_ (fun y11 y12 h13 => ?_)
    · exact h8
    · extract_lets -merge +onlyGivenNames v14 v15 v16
      clear_value v14 v15 v16
      extract_lets -merge +onlyGivenNames v17
      have h18 : Keeps s v17 := State.setFlag_keeps (State.setFlag_keeps (State.setFlag_keeps h13))
      clear_value v17
      exact State.wr_keeps (State.wr_keeps h18)
  clear_value v9
  extract_lets -merge +onlyGivenNames v19
  have h20 : Keeps s v19 := by
    unfold v19
    refine Keeps.ite ?_ (fun _ => ?_)
    · exact h10
    · exact State.oscNotice_keeps h10
  clear_value v19
  extract_lets -merge +onlyGivenNames v21
  have h22 : Keeps s v21 := by
    unfold v21
    refine Keeps.ite ?_ (fun _ => ?_)
    · exact h20
    · exact State.oscNotice_keeps h20
  clear_value v21
  exact State.suspAlarm_keeps (State.showRunning_keeps h22)

theorem State.quietChan_keeps {p2} (h : Keeps s x) : Keeps s (State.quietChan x p2) := by
  unfold State.quietChan
  refine Keeps.ite ?_ (fun _ => ?_)
  · exact State.wr_keeps (State.setFlag_keeps (State.setFlag_keeps (State.setFlag_keeps h)))
  · exact h

theorem State.checkpoint_keeps {p2} (h : Keeps s x) : Keeps s (State.checkpoint x p2) := by
  unfold State.checkpoint
  exact Keeps.fields h

theorem State.resumeGrp_keeps {p2} (h : Keeps s x) : Keeps s (State.resumeGrp x p2) := by
  unfold State.resumeGrp
  split
  · refine Keeps.ite ?_ (fun _ => ?_)
    · exact State.setGrp_keeps h
    · exact State.setGrp_keeps h
  · exact State.setGrp_keeps h

theorem State.clearDef_keeps (h : Keeps s x) : Keeps s (State.clearDef x) := by
  unfold State.clearDef
  extract_lets -merge +onlyGivenNames v1
  clear_value v1
  extract_lets -merge +onlyGivenNames v2
  have h3 : Keeps s v2 := by
    unfold v2
    refine Keeps.forEach ?_ (fun y4 y5 h6 => ?_)
    · exact h
    · refine Keeps.ite ?_ (fun _ => ?_)
      · exact State.put_keeps h6
      · exact State.put_keeps h6
  clear_value v2
  exact State.wr_keeps (State.wr_keeps (State.setFlag_keeps h3))

theorem State.defJudge_keeps {p2} (h : Keeps s x) : Keeps s (State.defJudge x p2) := by
  unfold State.defJudge
  extract_lets -merge +onlyGivenNames v1
  have h2 : Keeps s v1 := State.wr_keeps h
  clear_value v1
  refine Keeps.ite ?_ (fun _ => ?_)
  · extract_lets -merge +onlyGivenNames v3
    have h4 : Keeps s v3 := State.notice_keeps h2
    clear_value v3
    exact State.clearDef_keeps (Keeps.fields h4)
  · exact h2

theorem State.checkGrp_keeps {p2} (h : Keeps s x) : Keeps s (State.checkGrp x p2) := by
  unfold State.checkGrp
  refine Keeps.ite ?_ (fun _ => ?_)
  · extract_lets -merge +onlyGivenNames v1
    clear_value v1
    extract_lets -merge +onlyGivenNames v2
    have h3 : Keeps s v2 := State.wr_keeps h
    clear_value v2
    refine Keeps.ite ?_ (fun _ => ?_)
    · exact State.oscNotice_keeps (State.wr_keeps (Keeps.fields h3))
    · extract_lets -merge +onlyGivenNames v4
      clear_value v4
      extract_lets -merge +onlyGivenNames v5
      have h6 : Keeps s v5 := by
        unfold v5
        refine Keeps.ite ?_ (fun _ => ?_)
        · exact State.setGrp_keeps (Keeps.fields h3)
        · exact h3
      clear_value v5
      exact State.showGrp_keeps h6
  · exact State.wr_keeps (State.wr_keeps h)

theorem State.checkIsl_keeps (h : Keeps s x) : Keeps s (State.checkIsl x) := by
  unfold State.checkIsl
  refine Keeps.ite ?_ (fun _ => ?_)
  · extract_lets -merge +onlyGivenNames v1
    clear_value v1
    extract_lets -merge +onlyGivenNames v2
    have h3 : Keeps s v2 := State.wr_keeps h
    clear_value v2
    refine Keeps.ite ?_ (fun _ => ?_)
    · exact State.notice_keeps (State.wr_keeps h3)
    · extract_lets -merge +onlyGivenNames v4 v5
      clear_value v4 v5
      extract_lets -merge +onlyGivenNames v6
      have h7 : Keeps s v6 := by
        unfold v6
        refine Keeps.ite ?_ (fun _ => ?_)
        · exact Keeps.fields h3
        · exact h3
      clear_value v6
      exact State.wr_keeps h7
  · exact State.wr_keeps (State.wr_keeps h)

theorem State.checkAnalysis_keeps (h : Keeps s x) : Keeps s (State.checkAnalysis x) := by
  unfold State.checkAnalysis
  extract_lets -merge +onlyGivenNames v1
  have h2 : Keeps s v1 := by
    unfold v1
    refine Keeps.forEach ?_ (fun y3 y4 h5 => ?_)
    · exact h
    · exact State.checkGrp_keeps h5
  clear_value v1
  extract_lets -merge +onlyGivenNames v6
  have h7 : Keeps s v6 := by
    unfold v6
    refine Keeps.forEach ?_ (fun y8 y9 h10 => ?_)
    · exact h2
    · exact State.quietChan_keeps h10
  clear_value v6
  extract_lets -merge +onlyGivenNames v11
  have h12 : Keeps s v11 := State.suspAlarm_keeps (State.showRunning_keeps h7)
  clear_value v11
  extract_lets -merge +onlyGivenNames v13
  have h14 : Keeps s v13 := State.defJudge_keeps h12
  clear_value v13
  extract_lets -merge +onlyGivenNames v15
  clear_value v15
  extract_lets -merge +onlyGivenNames v16
  have h17 : Keeps s v16 := Keeps.fields h14
  clear_value v16
  exact State.islAlarm_keeps (State.checkIsl_keeps h17)

theorem State.setAcqPt_keeps {p2} {p3} (h : Keeps s x) : Keeps s (State.setAcqPt x p2 p3) := by
  unfold State.setAcqPt
  exact Keeps.fields h

theorem State.setAcqLs_keeps {p2} {p3} (h : Keeps s x) : Keeps s (State.setAcqLs x p2 p3) := by
  unfold State.setAcqLs
  exact Keeps.fields h

theorem State.tauSeen_keeps {p2} {p3} (h : Keeps s x) : Keeps s (State.tauSeen x p2 p3) := by
  unfold State.tauSeen
  refine Keeps.ite ?_ (fun _ => ?_)
  · exact h
  · exact State.setFlag_keeps h

theorem State.showFading_keeps {p2} (h : Keeps s x) : Keeps s (State.showFading x p2) := by
  unfold State.showFading
  exact State.setFlag_keeps h

theorem State.calDone_keeps (h : Keeps s x) : Keeps s (State.calDone x) := by
  unfold State.calDone
  refine Keeps.ite ?_ (fun _ => ?_)
  · exact h
  · exact State.notice_keeps (State.wr_keeps (Keeps.fields h))

theorem State.showLs_keeps {p2} (h : Keeps s x) : Keeps s (State.showLs x p2) := by
  unfold State.showLs
  exact State.wr_keeps h

theorem State.nameLs_keeps {p2} (h : Keeps s x) : Keeps s (State.nameLs x p2) := by
  unfold State.nameLs
  extract_lets -merge +onlyGivenNames v1
  clear_value v1
  exact State.wr_keeps (State.wr_keeps (State.wr_keeps (State.wr_keeps h)))

theorem State.lsChanged_keeps {p2} (h : Keeps s x) : Keeps s (State.lsChanged x p2) := by
  unfold State.lsChanged
  exact State.setAcqLs_keeps (State.nameLs_keeps (State.inc_keeps h))

theorem State.cfgLoaded_keeps {p2} {p3} (h : Keeps s x) : Keeps s (State.cfgLoaded x p2 p3) := by
  unfold State.cfgLoaded
  refine Keeps.ite ?_ (fun _ => ?_)
  · exact h
  · refine Keeps.forEach ?_ (fun y1 y2 h3 => ?_)
    · exact h
    · exact State.lsChanged_keeps h3

theorem State.checkLs_keeps {p2} (h : Keeps s x) : Keeps s (State.checkLs x p2) := by
  unfold State.checkLs
  refine Keeps.ite ?_ (fun _ => ?_)
  · exact State.showLs_keeps (State.wr_keeps h)
  · extract_lets -merge +onlyGivenNames v1
    clear_value v1
    extract_lets -merge +onlyGivenNames v2
    have h3 : Keeps s v2 := State.wr_keeps h
    clear_value v2
    refine State.showLs_keeps ?_
    refine Keeps.ite ?_ (fun _ => ?_)
    · exact State.notice_keeps h3
    · exact h3

theorem State.startPt_keeps {p2} (h : Keeps s x) : Keeps s (State.startPt x p2) := by
  unfold State.startPt
  refine Keeps.ite ?_ (fun _ => ?_)
  · exact h
  · extract_lets -merge +onlyGivenNames v1 v2 v3 v4
    clear_value v1 v2 v3 v4
    extract_lets -merge +onlyGivenNames v5
    have h6 : Keeps s v5 := State.setAcqPt_keeps h
    clear_value v5
    exact State.wr_keeps (State.wr_keeps (State.tauSeen_keeps h6))

theorem State.stopPt_keeps {p2} (h : Keeps s x) : Keeps s (State.stopPt x p2) := by
  unfold State.stopPt
  extract_lets -merge +onlyGivenNames v1 v2
  clear_value v1 v2
  extract_lets -merge +onlyGivenNames v3
  have h4 : Keeps s v3 := State.showFading_keeps (State.setFlag_keeps (State.setAcqPt_keeps h))
  clear_value v3
  refine Keeps.forEach ?_ (fun y5 y6 h7 => ?_)
  · exact h4
  · exact State.setFlag_keeps (State.setAcqLs_keeps h7)

theorem State.acqEnter_keeps (h : Keeps s x) : Keeps s (State.acqEnter x) := by
  unfold State.acqEnter
  extract_lets -merge +onlyGivenNames v1
  have h2 : Keeps s v1 := by
    unfold v1
    refine Keeps.forEach ?_ (fun y3 y4 h5 => ?_)
    · exact h
    · exact State.startPt_keeps h5
  clear_value v1
  refine Keeps.forEach ?_ (fun y6 y7 h8 => ?_)
  · exact h2
  · exact State.checkLs_keeps (State.setAcqLs_keeps h8)

theorem State.acqLeave_keeps (h : Keeps s x) : Keeps s (State.acqLeave x) := by
  unfold State.acqLeave
  extract_lets -merge +onlyGivenNames v1
  have h2 : Keeps s v1 := by
    unfold v1
    refine Keeps.forEach ?_ (fun y3 y4 h5 => ?_)
    · exact h
    · exact State.stopPt_keeps h5
  clear_value v1
  extract_lets -merge +onlyGivenNames v6
  have h7 : Keeps s v6 := by
    unfold v6
    refine Keeps.forEach ?_ (fun y8 y9 h10 => ?_)
    · exact h2
    · exact State.showLs_keeps (State.setFlag_keeps (State.setAcqLs_keeps h10))
  clear_value v6
  exact State.calDone_keeps (Keeps.fields h7)

theorem State.setNrgPt_keeps {p2} {p3} (h : Keeps s x) : Keeps s (State.setNrgPt x p2 p3) := by
  unfold State.setNrgPt
  exact Keeps.fields h

theorem State.nrgOffer_keeps {p2} {p3} {p4} (h : Keeps s x) : Keeps s (State.nrgOffer x p2 p3 p4) := by
  unfold State.nrgOffer
  extract_lets -merge +onlyGivenNames v1
  have h2 : Keeps s v1 := State.inc_keeps h
  clear_value v1
  exact State.offer_keeps h2

theorem State.pqEnd_keeps {p2} {p3} {p4} {p5} (h : Keeps s x) : Keeps s (State.pqEnd x p2 p3 p4 p5) := by
  unfold State.pqEnd
  extract_lets -merge +onlyGivenNames v1
  clear_value v1
  split
  · exact h
  · extract_lets -merge +onlyGivenNames v2
    have h3 : Keeps s v2 := State.setFlag_keeps (State.setNrgPt_keeps h)
    clear_value v2
    extract_lets -merge +onlyGivenNames v4
    clear_value v4
    exact State.notice_keeps (State.nrgOffer_keeps h3)

theorem State.pqEndAll_keeps {p2} {p3} (h : Keeps s x) : Keeps s (State.pqEndAll x p2 p3) := by
  unfold State.pqEndAll
  refine Keeps.forEach ?_ (fun y1 y2 h3 => ?_)
  · exact h
  · exact State.pqEnd_keeps h3

theorem State.intCheck_keeps (h : Keeps s x) : Keeps s (State.intCheck x) := by
  unfold State.intCheck
  extract_lets -merge +onlyGivenNames v1
  clear_value v1
  refine Keeps.ite ?_ (fun _ => ?_)
  · exact State.logEvent_keeps h
  · exact h

theorem State.snapFinish_keeps {p2} (h : Keeps s x) : Keeps s (State.snapFinish x p2) := by
  unfold State.snapFinish
  refine Keeps.ite ?_ (fun _ => ?_)
  · exact h
  · exact State.notice_keeps (State.wr_keeps h)

theorem State.nrgOff_keeps {p2} (h : Keeps s x) : Keeps s (State.nrgOff x p2) := by
  unfold State.nrgOff
  refine Keeps.ite ?_ (fun _ => ?_)
  · exact h
  · exact State.snapFinish_keeps (State.setNrgPt_keeps h)

theorem State.nrgLeave_keeps (h : Keeps s x) : Keeps s (State.nrgLeave x) := by
  unfold State.nrgLeave
  refine Keeps.forEach ?_ (fun y1 y2 h3 => ?_)
  · exact h
  · extract_lets -merge +onlyGivenNames v4
    have h5 : Keeps s v4 := State.pqEndAll_keeps h3
    clear_value v4
    exact State.setFlag_keeps (State.setNrgPt_keeps h5)

theorem State.setCapUnit_keeps {p2} {p3} (h : Keeps s x) : Keeps s (State.setCapUnit x p2 p3) := by
  unfold State.setCapUnit
  exact Keeps.fields h

theorem State.showSegs_keeps {p2} (h : Keeps s x) : Keeps s (State.showSegs x p2) := by
  unfold State.showSegs
  extract_lets -merge +onlyGivenNames v1
  clear_value v1
  extract_lets -merge +onlyGivenNames v2
  have h3 : Keeps s v2 := State.wr_keeps h
  clear_value v2
  exact State.wr_keeps (State.wr_keeps h3)

theorem State.readArm_keeps (h : Keeps s x) : Keeps s (State.readArm x) := by
  unfold State.readArm
  refine Keeps.ite ?_ (fun _ => ?_)
  · split
    rename_i z1 z2 z3 z4
    have h5 : Keeps s z3 := Keeps.of_snd z4 (State.draw_keeps h)
    exact State.setFlag_keeps h5
  · exact State.setFlag_keeps h

theorem State.armFollow_keeps {p2} (h : Keeps s x) : Keeps s (State.armFollow x p2) := by
  unfold State.armFollow
  refine Keeps.ite ?_ (fun _ => ?_)
  · refine Keeps.ite ?_ (fun _ => ?_)
    · exact h
    · exact State.readArm_keeps h
  · exact State.setFlag_keeps h

theorem State.setCapState_keeps {p2} {p3} (h : Keeps s x) : Keeps s (State.setCapState x p2 p3) := by
  unfold State.setCapState
  exact State.armFollow_keeps (State.showSegs_keeps (State.wr_keeps h))

theorem State.capOff_keeps {p2} (h : Keeps s x) : Keeps s (State.capOff x p2) := by
  unfold State.capOff
  exact State.setCapState_keeps (State.setCapUnit_keeps h)

theorem State.capFill_keeps {p2} (h : Keeps s x) : Keeps s (State.capFill x p2) := by
  unfold State.capFill
  exact State.setCapState_keeps (State.setCapUnit_keeps h)

theorem State.checkCap_keeps (h : Keeps s x) : Keeps s (State.checkCap x) := by
  unfold State.checkCap
  extract_lets -merge +onlyGivenNames v1
  have h2 : Keeps s v1 := by
    unfold v1
    refine Keeps.forEach ?_ (fun y3 y4 h5 => ?_)
    · exact h
    · exact State.setCapUnit_keeps h5
  clear_value v1
  extract_lets -merge +onlyGivenNames v6
  clear_value v6
  extract_lets -merge +onlyGivenNames v7
  have h8 : Keeps s v7 := Keeps.fields h2
  clear_value v7
  refine Keeps.forEach ?_ (fun y9 y10 h11 => ?_)
  · exact h8
  · refine Keeps.ite ?_ (fun _ => ?_)
    · exact State.setCapState_keeps (State.wr_keeps h11)
    · extract_lets -merge +onlyGivenNames v12
      clear_value v12
      extract_lets -merge +onlyGivenNames v13
      have h14 : Keeps s v13 := State.wr_keeps h11
      clear_value v13
      refine Keeps.ite ?_ (fun _ => ?_)
      · exact State.notice_keeps (State.setCapState_keeps h14)
      · refine Keeps.ite ?_ (fun _ => ?_)
        · exact State.showSegs_keeps h14
        · exact State.setCapState_keeps h14

theorem State.capEnter_keeps (h : Keeps s x) : Keeps s (State.capEnter x) := by
  unfold State.capEnter
  extract_lets -merge +onlyGivenNames v1
  have h2 : Keeps s v1 := by
    unfold v1
    refine Keeps.forEach ?_ (fun y3 y4 h5 => ?_)
    · exact h
    · refine Keeps.ite ?_ (fun _ => ?_)
      · exact h5
      · exact State.capFill_keeps h5
  clear_value v1
  exact State.readArm_keeps h2

theorem State.showLines_keeps (h : Keeps s x) : Keeps s (State.showLines x) := by
  unfold State.showLines
  exact State.readArm_keeps (State.setFlag_keeps (State.setFlag_keeps h))

theorem State.capLeave_keeps (h : Keeps s x) : Keeps s (State.capLeave x) := by
  unfold State.capLeave
  extract_lets -merge +onlyGivenNames v1
  have h2 : Keeps s v1 := by
    unfold v1
    refine Keeps.forEach ?_ (fun y3 y4 h5 => ?_)
    · exact h
    · refine Keeps.ite ?_ (fun _ => ?_)
      · exact State.capOff_keeps h5
      · exact h5
  clear_value v1
  exact State.showLines_keeps (Keeps.fields h2)

theorem State.capFilled_keeps {p2} (h : Keeps s x) : Keeps s (State.capFilled x p2) := by
  unfold State.capFilled
  refine Keeps.forEach ?_ (fun y1 y2 h3 => ?_)
  · exact h
  · refine Keeps.ite ?_ (fun _ => ?_)
    · exact h3
    · exact State.capFill_keeps h3

theorem State.saveRec_keeps (h : Keeps s x) : Keeps s (State.saveRec x) := by
  unfold State.saveRec
  extract_lets -merge +onlyGivenNames v1 v2
  clear_value v1 v2
  refine Keeps.ite ?_ (fun _ => ?_)
  · exact Keeps.fields h
  · exact Keeps.fields h

theorem State.sorterOff_keeps {p2} (h : Keeps s x) : Keeps s (State.sorterOff x p2) := by
  unfold State.sorterOff
  extract_lets -merge +onlyGivenNames v1
  clear_value v1
  exact State.setSrtHid_keeps (State.setSrtState_keeps h)

theorem State.sortersOff_keeps (h : Keeps s x) : Keeps s (State.sortersOff x) := by
  unfold State.sortersOff
  refine Keeps.forEach ?_ (fun y1 y2 h3 => ?_)
  · exact h
  · refine Keeps.ite ?_ (fun _ => ?_)
    · exact State.sorterOff_keeps h3
    · exact h3

theorem State.closeRounds_keeps (h : Keeps s x) : Keeps s (State.closeRounds x) := by
  unfold State.closeRounds
  extract_lets -merge +onlyGivenNames v1
  have h2 : Keeps s v1 := by
    unfold v1
    refine Keeps.forEach ?_ (fun y3 y4 h5 => ?_)
    · exact h
    · exact State.setRnd_keeps h5
  clear_value v1
  exact Keeps.fields h2

theorem State.replaceWaiting_keeps {p2} (h : Keeps s x) : Keeps s (State.replaceWaiting x p2) := by
  unfold State.replaceWaiting
  exact State.wakeHoles_keeps (State.tokens_keeps (State.mapItems_keeps h))

theorem State.enterRun_keeps (h : Keeps s x) : Keeps s (State.enterRun x) := by
  unfold State.enterRun
  extract_lets -merge +onlyGivenNames v1
  have h2 : Keeps s v1 := State.capEnter_keeps (State.acqEnter_keeps (State.closeRounds_keeps h))
  clear_value v1
  refine Keeps.forEach ?_ (fun y3 y4 h5 => ?_)
  · exact h2
  · exact State.wake_keeps h5

theorem State.halfCross_keeps {p2} {p3} {p4} (h : Keeps s x) : Keeps s (State.halfCross x p2 p3 p4) := by
  unfold State.halfCross
  extract_lets -merge +onlyGivenNames v1 v2 v3
  clear_value v1 v2 v3
  exact State.setNrgPt_keeps h

theorem State.halfPlaced_keeps {p2} {p3} {p4} (h : Keeps s x) : Keeps s (State.halfPlaced x p2 p3 p4) := by
  unfold State.halfPlaced
  split
  · refine Keeps.ite ?_ (fun _ => ?_)
    · exact h
    · exact State.halfCross_keeps h
  · exact h

theorem State.halfSample_keeps {p2} {p3} {p4} {p5} (h : Keeps s x) : Keeps s (State.halfSample x p2 p3 p4 p5) := by
  unfold State.halfSample
  extract_lets -merge +onlyGivenNames v1 v2 v3 v4
  clear_value v1 v2 v3 v4
  extract_lets -merge +onlyGivenNames v5
  have h6 : Keeps s v5 := State.setNrgPt_keeps h
  clear_value v5
  split
  · exact State.halfCross_keeps (State.halfPlaced_keeps h6)
  · exact State.halfPlaced_keeps h6

theorem State.halfPush_keeps {p2} {p3} (h : Keeps s x) : Keeps s (State.halfPush x p2 p3) := by
  unfold State.halfPush
  refine Keeps.ite ?_ (fun _ => ?_)
  · exact h
  · refine Keeps.forEach ?_ (fun y1 y2 h3 => ?_)
    · exact h
    · refine Keeps.ite ?_ (fun _ => ?_)
      · exact State.halfSample_keeps h3
      · exact h3

end Sys2Proof.Machine
end

