-- ==== Sys2Proof/Laws/KeepsMode.lean ====
section
/-! SUPPORT. Each operation and each meaning keeps what `Keeps` says: modes, time, Rounds and descriptors. -/
namespace Sys2Proof.Machine

variable {s x : State}

theorem State.modeWord_keeps {p2} {p3} (h : Keeps s x) : Keeps s (State.modeWord x p2 p3) := by
  unfold State.modeWord
  extract_lets -merge +onlyGivenNames v1 v2 v3
  clear_value v1 v2 v3
  exact State.setWord_keeps h

theorem State.showDebug_keeps (h : Keeps s x) : Keeps s (State.showDebug x) := by
  unfold State.showDebug
  extract_lets -merge +onlyGivenNames v1
  clear_value v1
  exact State.setFlag_keeps h

theorem State.partnerAlarm_keeps (h : Keeps s x) : Keeps s (State.partnerAlarm x) := by
  unfold State.partnerAlarm
  extract_lets -merge +onlyGivenNames v1
  clear_value v1
  exact State.stdAlarm_keeps h

theorem State.clkSet_keeps (h : Keeps s x) : Keeps s (State.clkSet x) := by
  unfold State.clkSet
  extract_lets -merge +onlyGivenNames v1
  clear_value v1
  refine Keeps.ite ?_ (fun _ => ?_)
  · exact State.notice_keeps (Keeps.fields h)
  · exact h

theorem State.runRest_keeps (h : Keeps s x) : Keeps s (State.runRest x) := by
  unfold State.runRest
  refine Keeps.ite ?_ (fun _ => ?_)
  · exact h
  · exact State.replaceWaiting_keeps (State.sortersOff_keeps (Keeps.fields h))

theorem State.runCheck_keeps (h : Keeps s x) : Keeps s (State.runCheck x) := by
  unfold State.runCheck
  refine Keeps.ite ?_ (fun _ => ?_)
  · refine Keeps.ite ?_ (fun _ => ?_)
    · exact State.runRest_keeps h
    · refine Keeps.forEach ?_ (fun y1 y2 h3 => ?_)
      · exact Keeps.fields h
      · exact State.wake_keeps h3
  · exact h

theorem State.reqEnd_keeps {p2} {p3} (h : Keeps s x) : Keeps s (State.reqEnd x p2 p3) := by
  unfold State.reqEnd
  extract_lets -merge +onlyGivenNames v1
  clear_value v1
  extract_lets -merge +onlyGivenNames v2
  have h3 : Keeps s v2 := Keeps.fields h
  clear_value v2
  exact State.notice_keeps (State.wr_keeps (State.wr_keeps h3))

theorem State.switchStart_keeps {p2} (h : Keeps s x) : Keeps s (State.switchStart x p2) := by
  unfold State.switchStart
  extract_lets -merge +onlyGivenNames v1 v2 v3
  clear_value v1 v2 v3
  extract_lets -merge +onlyGivenNames v4
  have h5 : Keeps s v4 := Keeps.fields h
  clear_value v4
  exact State.plkSend_keeps h5

theorem State.refreshScore_keeps (h : Keeps s x) : Keeps s (State.refreshScore x) := by
  unfold State.refreshScore
  extract_lets -merge +onlyGivenNames v1 v2 v3 v4
  clear_value v1 v2 v3 v4
  exact State.weighRoles_keeps (State.wr_keeps (State.wr_keeps h))

theorem State.showDeg_keeps (h : Keeps s x) : Keeps s (State.showDeg x) := by
  unfold State.showDeg
  extract_lets -merge +onlyGivenNames v1
  subst v1
  extract_lets -merge +onlyGivenNames v2 v3
  clear_value v2 v3
  extract_lets -merge +onlyGivenNames v4
  subst v4
  extract_lets -merge +onlyGivenNames v5
  have h6 : Keeps s v5 := State.setFlag_keeps (State.setWord_keeps h)
  clear_value v5
  extract_lets -merge +onlyGivenNames v7
  have h8 : Keeps s v7 := by
    unfold v7
    refine Keeps.ite ?_ (fun _ => ?_)
    · exact State.refreshScore_keeps (State.notice_keeps h6)
    · exact State.refreshScore_keeps h
  clear_value v7
  exact State.stdAlarm_keeps (State.stdAlarm_keeps h8)

theorem State.fenceMark_keeps {p2} (h : Keeps s x) : Keeps s (State.fenceMark x p2) := by
  unfold State.fenceMark
  extract_lets -merge +onlyGivenNames v1
  clear_value v1
  extract_lets -merge +onlyGivenNames v2
  have h3 : Keeps s v2 := State.notice_keeps (State.sorterOff_keeps (State.wr_keeps h))
  clear_value v2
  exact Keeps.fields h3

theorem State.steerFrame_keeps {p2} (h : Keeps s x) : Keeps s (State.steerFrame x p2) := by
  unfold State.steerFrame
  extract_lets -merge +onlyGivenNames v1 v2
  clear_value v1 v2
  exact State.emit_keeps h

theorem State.steer_keeps {p2} (h : Keeps s x) : Keeps s (State.steer x p2) := by
  unfold State.steer
  extract_lets d t a b c
  have ha : Keeps s a := h.upd rfl rfl rfl rfl rfl rfl rfl
  refine State.steerFrame_keeps ?_
  unfold c
  split
  · exact State.wr_keeps ha
  · have hb : Keeps s b := State.wr_keeps ha
    exact ⟨hb.store, hb.log, hb.queue, Nat.le_trans ha.free (Nat.le_succ _), hb.out⟩

theorem State.tbRefresh_keeps (h : Keeps s x) : Keeps s (State.tbRefresh x) := by
  unfold State.tbRefresh
  extract_lets -merge +onlyGivenNames v1 v2
  clear_value v1 v2
  extract_lets -merge +onlyGivenNames v3
  have h4 : Keeps s v3 := State.setFlag_keeps (State.wr_keeps (State.wr_keeps (State.wr_keeps (State.wr_keeps h))))
  clear_value v3
  extract_lets -merge +onlyGivenNames v5
  have h6 : Keeps s v5 := State.setFlag_keeps h4
  clear_value v5
  extract_lets -merge +onlyGivenNames v7
  clear_value v7
  extract_lets -merge +onlyGivenNames v8
  have h9 : Keeps s v8 := by
    unfold v8
    split
    · refine Keeps.ite ?_ (fun _ => ?_)
      · exact h4
      · exact Keeps.fields h6
    · exact h4
  clear_value v8
  exact State.stdAlarm_keeps (State.stdAlarm_keeps h9)

theorem State.setTb_keeps {p2} (h : Keeps s x) : Keeps s (State.setTb x p2) := by
  unfold State.setTb
  extract_lets -merge +onlyGivenNames v1
  clear_value v1
  refine Keeps.ite ?_ (fun _ => ?_)
  · extract_lets -merge +onlyGivenNames v2
    clear_value v2
    extract_lets -merge +onlyGivenNames v3
    have h4 : Keeps s v3 := State.notice_keeps (State.wr_keeps h)
    clear_value v3
    extract_lets -merge +onlyGivenNames v5
    have h6 : Keeps s v5 := State.wr_keeps h4
    clear_value v5
    extract_lets -merge +onlyGivenNames v7
    clear_value v7
    extract_lets -merge +onlyGivenNames v8
    have h9 : Keeps s v8 := by
      unfold v8
      refine Keeps.ite ?_ (fun _ => ?_)
      · exact h4
      · exact Keeps.fields h6
    clear_value v8
    extract_lets -merge +onlyGivenNames v10
    clear_value v10
    extract_lets -merge +onlyGivenNames v11
    have h12 : Keeps s v11 := by
      unfold v11
      refine Keeps.ite ?_ (fun _ => ?_)
      · exact h9
      · exact Keeps.fields h9
    clear_value v11
    extract_lets -merge +onlyGivenNames v13
    clear_value v13
    extract_lets -merge +onlyGivenNames v14
    have h15 : Keeps s v14 := by
      unfold v14
      refine Keeps.ite ?_ (fun _ => ?_)
      · exact h12
      · exact Keeps.fields h12
    clear_value v14
    refine Keeps.ite ?_ (fun _ => ?_)
    · exact h15
    · exact State.notice_keeps h15
  · exact h

theorem State.setDom_keeps {p2} {p3} (h : Keeps s x) : Keeps s (State.setDom x p2 p3) := by
  unfold State.setDom
  refine Keeps.ite ?_ (fun _ => ?_)
  · exact Keeps.fields h
  · exact Keeps.fields h

theorem State.sameDomnum_keeps (h : Keeps s x) : Keeps s (State.sameDomnum x) := by
  unfold State.sameDomnum
  extract_lets -merge +onlyGivenNames v1 v2
  clear_value v1 v2
  refine Keeps.ite ?_ (fun _ => ?_)
  · exact h
  · exact State.logEvent_keeps h

theorem State.domTo_keeps {p2} {p3} (h : Keeps s x) : Keeps s (State.domTo x p2 p3) := by
  unfold State.domTo
  extract_lets -merge +onlyGivenNames v1
  clear_value v1
  refine Keeps.ite ?_ (fun _ => ?_)
  · extract_lets -merge +onlyGivenNames v2
    have h3 : Keeps s v2 := State.notice_keeps (State.wr_keeps h)
    clear_value v2
    extract_lets -merge +onlyGivenNames v4 v5
    clear_value v4 v5
    exact State.setDom_keeps h3
  · exact h

theorem State.domSample_keeps {p2} {p3} (h : Keeps s x) : Keeps s (State.domSample x p2 p3).1 := by
  unfold State.domSample
  extract_lets -merge +onlyGivenNames v1 v2
  clear_value v1 v2
  refine Keeps.ite1 ?_ (fun _ => ?_)
  · refine Keeps.ite1 ?_ (fun _ => ?_)
    · exact Keeps.mk1 h
    · refine Keeps.ite1 ?_ (fun _ => ?_)
      · extract_lets -merge +onlyGivenNames v3
        have h4 : Keeps s v3 := State.setDom_keeps h
        clear_value v3
        refine Keeps.mk1 ?_
        refine Keeps.ite ?_ (fun _ => ?_)
        · exact h4
        · exact State.domTo_keeps h4
      · exact Keeps.mk1 (State.setDom_keeps h)
  · extract_lets -merge +onlyGivenNames v5 v6
    clear_value v5 v6
    extract_lets -merge +onlyGivenNames v7
    have h8 : Keeps s v7 := State.setDom_keeps h
    clear_value v7
    refine Keeps.mk1 ?_
    refine Keeps.ite ?_ (fun _ => ?_)
    · exact h8
    · exact State.domTo_keeps h8

theorem State.refreshUtc_keeps (h : Keeps s x) : Keeps s (State.refreshUtc x) := by
  unfold State.refreshUtc
  extract_lets -merge +onlyGivenNames v1 v2
  clear_value v1 v2
  extract_lets -merge +onlyGivenNames v3
  have h4 : Keeps s v3 := State.setFlag_keeps (State.setFlag_keeps h)
  clear_value v3
  extract_lets -merge +onlyGivenNames v5
  clear_value v5
  refine Keeps.ite ?_ (fun _ => ?_)
  · exact h4
  · extract_lets -merge +onlyGivenNames v6
    have h7 : Keeps s v6 := State.wr_keeps h4
    clear_value v6
    exact Keeps.fields h7

theorem State.select_keeps {p2} (h : Keeps s x) : Keeps s (State.select x p2) := by
  unfold State.select
  extract_lets -merge +onlyGivenNames v1
  clear_value v1
  refine Keeps.ite ?_ (fun _ => ?_)
  · exact State.refreshUtc_keeps (State.notice_keeps (State.wr_keeps h))
  · exact h

theorem State.refreshAgree_keeps (h : Keeps s x) : Keeps s (State.refreshAgree x) := by
  unfold State.refreshAgree
  refine Keeps.ite ?_ (fun _ => ?_)
  · refine Keeps.ite ?_ (fun _ => ?_)
    · exact Keeps.fields h
    · split
      · exact Keeps.fields h
      · exact h
  · extract_lets -merge +onlyGivenNames v1
    clear_value v1
    extract_lets -merge +onlyGivenNames v2
    have h3 : Keeps s v2 := Keeps.fields h
    clear_value v2
    refine Keeps.ite ?_ (fun _ => ?_)
    · exact State.stdAlarm_keeps (State.notice_keeps (Keeps.fields h3))
    · exact h3

theorem State.holdover_keeps (h : Keeps s x) : Keeps s (State.holdover x) := by
  unfold State.holdover
  exact State.steer_keeps (State.setTb_keeps h)

theorem State.stepBy_keeps {p2} (h : Keeps s x) : Keeps s (State.stepBy x p2) := by
  unfold State.stepBy
  extract_lets -merge +onlyGivenNames v1 v2 v3 v4
  clear_value v1 v2 v3 v4
  exact State.notice_keeps (Keeps.logFields h)

theorem State.servo_keeps {p2} {p3} (h : Keeps s x) : Keeps s (State.servo x p2 p3) := by
  unfold State.servo
  split
  rename_i z1 z2 z3 z4
  have h5 : Keeps s z2 := Keeps.of_fst z4 (by
    refine Keeps.ite1 ?_ (fun _ => ?_)
    · exact Keeps.mk1 h
    · exact Keeps.mk1 (State.stepBy_keeps h))
  extract_lets -merge +onlyGivenNames v6 v7
  clear_value v6 v7
  refine Keeps.ite ?_ (fun _ => ?_)
  · split
    extract_lets -merge +onlyGivenNames v8 v9
    clear_value v8 v9
    extract_lets -merge +onlyGivenNames v10
    have h11 : Keeps s v10 := Keeps.fields h5
    clear_value v10
    extract_lets -merge +onlyGivenNames v12
    have h13 : Keeps s v12 := State.setTb_keeps h11
    clear_value v12
    extract_lets -merge +onlyGivenNames v14
    clear_value v14
    extract_lets -merge +onlyGivenNames v15
    have h16 : Keeps s v15 := Keeps.fields h13
    clear_value v15
    exact State.steer_keeps h16
  · extract_lets -merge +onlyGivenNames v17 v18
    clear_value v17 v18
    exact State.steer_keeps (State.setTb_keeps h5)

theorem State.showContrib_keeps (h : Keeps s x) : Keeps s (State.showContrib x) := by
  unfold State.showContrib
  extract_lets -merge +onlyGivenNames v1
  clear_value v1
  exact State.wr_keeps (State.wr_keeps h)

theorem State.contribute_keeps {p2} {p3} (h : Keeps s x) : Keeps s (State.contribute x p2 p3) := by
  unfold State.contribute
  refine Keeps.ite ?_ (fun _ => ?_)
  · exact State.showContrib_keeps (Keeps.fields h)
  · exact h

theorem State.whlNotice_keeps {p2} {p3} {p4} {p5} (h : Keeps s x) : Keeps s (State.whlNotice x p2 p3 p4 p5) := by
  unfold State.whlNotice
  exact State.notice_keeps (State.contribute_keeps h)

theorem State.showMembers_keeps {p2} (h : Keeps s x) : Keeps s (State.showMembers x p2) := by
  unfold State.showMembers
  extract_lets -merge +onlyGivenNames v1 v2 v3
  clear_value v1 v2 v3
  extract_lets -merge +onlyGivenNames v4
  have h5 : Keeps s v4 := State.wr_keeps (State.wr_keeps (State.wr_keeps h))
  clear_value v4
  refine Keeps.ite ?_ (fun _ => ?_)
  · exact h5
  · exact State.whlNotice_keeps h5

theorem State.putSlot_keeps {p2} (h : Keeps s x) : Keeps s (State.putSlot x p2) := by
  unfold State.putSlot
  exact Keeps.fields h

theorem State.addendum_keeps {p2} {p3} (h : Keeps s x) : Keeps s (State.addendum x p2 p3) := by
  unfold State.addendum
  extract_lets -merge +onlyGivenNames v1
  clear_value v1
  refine Keeps.ite ?_ (fun _ => ?_)
  · refine Keeps.ite ?_ (fun _ => ?_)
    · exact State.deadLetter_keeps (State.inc_keeps h)
    · exact State.setRnd_keeps h
  · exact h

theorem State.countLate_keeps {p2} {p3} {p4} (h : Keeps s x) : Keeps s (State.countLate x p2 p3 p4) := by
  unfold State.countLate
  extract_lets -merge +onlyGivenNames v1
  have h2 : Keeps s v1 := State.stabWr_keeps (State.inc_keeps h)
  clear_value v1
  extract_lets -merge +onlyGivenNames v3
  clear_value v3
  exact State.addendum_keeps (State.deadLetter_keeps (State.setRnd_keeps h2))

theorem State.markDup_keeps {p2} (h : Keeps s x) : Keeps s (State.markDup x p2) := by
  unfold State.markDup
  exact Keeps.fields h

theorem State.countDup_keeps {p2} (h : Keeps s x) : Keeps s (State.countDup x p2) := by
  unfold State.countDup
  extract_lets -merge +onlyGivenNames v1
  have h2 : Keeps s v1 := State.markDup_keeps h
  clear_value v1
  extract_lets -merge +onlyGivenNames v3
  have h4 : Keeps s v3 := State.stabWr_keeps h2
  clear_value v3
  refine Keeps.forEach ?_ (fun y5 y6 h7 => ?_)
  · exact h4
  · extract_lets -merge +onlyGivenNames v8
    clear_value v8
    exact State.setRnd_keeps (State.inc_keeps h7)

theorem State.countStale_keeps {p2} (h : Keeps s x) : Keeps s (State.countStale x p2) := by
  unfold State.countStale
  extract_lets -merge +onlyGivenNames v1
  have h2 : Keeps s v1 := State.inc_keeps h
  clear_value v1
  extract_lets -merge +onlyGivenNames v3
  have h4 : Keeps s v3 := State.stabWr_keeps h2
  clear_value v3
  extract_lets -merge +onlyGivenNames v5
  clear_value v5
  extract_lets -merge +onlyGivenNames v6
  have h7 : Keeps s v6 := by
    unfold v6
    refine Keeps.forEach ?_ (fun y8 y9 h10 => ?_)
    · exact h4
    · extract_lets -merge +onlyGivenNames v11
      clear_value v11
      exact State.contribute_keeps (State.setRnd_keeps (State.inc_keeps h10))
  clear_value v6
  exact State.deadLetter_keeps (State.notice_keeps h7)

theorem State.countFuture_keeps {p2} (h : Keeps s x) : Keeps s (State.countFuture x p2) := by
  unfold State.countFuture
  extract_lets -merge +onlyGivenNames v1
  have h2 : Keeps s v1 := State.inc_keeps h
  clear_value v1
  exact State.deadLetter_keeps (State.stabWr_keeps h2)

theorem State.displaced_keeps {p2} (h : Keeps s x) : Keeps s (State.displaced x p2) := by
  unfold State.displaced
  refine Keeps.forEach ?_ (fun y1 y2 h3 => ?_)
  · exact h
  · split
    · exact h3
    · refine Keeps.ite ?_ (fun _ => ?_)
      · exact State.countLate_keeps h3
      · exact h3

theorem State.tracker_keeps {p2} {p3} (h : Keeps s x) : Keeps s (State.tracker x p2 p3) := by
  unfold State.tracker
  extract_lets -merge +onlyGivenNames v1
  clear_value v1
  extract_lets -merge +onlyGivenNames v2
  have h3 : Keeps s v2 := State.stabWr_keeps h
  clear_value v2
  extract_lets -merge +onlyGivenNames v4
  have h5 : Keeps s v4 := by
    unfold v4
    refine Keeps.ite ?_ (fun _ => ?_)
    · exact h3
    · exact State.stabWr_keeps h3
  clear_value v4
  extract_lets -merge +onlyGivenNames v6
  have h7 : ∀ b1 b2 b3 b4, Keeps s b1 → Keeps s (v6 b1 b2 b3 b4) := by
    intro y8 y9 y10 y11 h12
    unfold v6
    exact State.stabWr_keeps (State.stabWr_keeps (State.stabWr_keeps h12))
  clear_value v6
  refine Keeps.ite ?_ (fun _ => ?_)
  · split
    exact h7 _ _ _ _ h5
  · extract_lets -merge +onlyGivenNames v13
    clear_value v13
    refine State.stabWr_keeps ?_
    exact h7 _ _ _ _ h5

theorem State.closeCheck_keeps {p2} {p3} (h : Keeps s x) : Keeps s (State.closeCheck x p2 p3) := by
  unfold State.closeCheck
  extract_lets -merge +onlyGivenNames v1
  clear_value v1
  exact State.showOcc_keeps (State.setRnd_keeps h)

theorem State.filedInRounds_keeps {p2} {p3} (h : Keeps s x) : Keeps s (State.filedInRounds x p2 p3) := by
  unfold State.filedInRounds
  refine Keeps.forEach ?_ (fun y1 y2 h3 => ?_)
  · exact h
  · split
    · exact h3
    · refine Keeps.ite ?_ (fun _ => ?_)
      · refine Keeps.ite ?_ (fun _ => ?_)
        · exact h3
        · exact State.closeCheck_keeps h3
      · refine Keeps.ite ?_ (fun _ => ?_)
        · exact h3
        · exact State.countLate_keeps h3

theorem State.offGridCount_keeps {p2} (h : Keeps s x) : Keeps s (State.offGridCount x p2) := by
  unfold State.offGridCount
  refine Keeps.ite ?_ (fun _ => ?_)
  · exact h
  · exact State.stabWr_keeps h

theorem State.fileLetter_keeps {p2} (h : Keeps s x) : Keeps s (State.fileLetter x p2) := by
  unfold State.fileLetter
  extract_lets -merge +onlyGivenNames v1 v2 v3
  clear_value v1 v2 v3
  refine Keeps.ite ?_ (fun _ => ?_)
  · refine Keeps.ite ?_ (fun _ => ?_)
    · split
      · refine Keeps.ite ?_ (fun _ => ?_)
        · exact State.filedInRounds_keeps (State.tracker_keeps (State.offGridCount_keeps (State.putSlot_keeps (State.displaced_keeps h))))
        · exact State.countDup_keeps h
      · exact State.filedInRounds_keeps (State.tracker_keeps (State.offGridCount_keeps (State.putSlot_keeps h)))
    · exact State.countStale_keeps h
  · exact State.countFuture_keeps h

theorem State.openBag_keeps {p2} {p3} (h : Keeps s x) : Keeps s (State.openBag x p2 p3) := by
  unfold State.openBag
  split
  extract_lets -merge +onlyGivenNames v1
  have h2 : Keeps s v1 := State.setFlag_keeps (State.wr_keeps h)
  clear_value v1
  extract_lets -merge +onlyGivenNames v3
  have h4 : Keeps s v3 := by
    unfold v3
    refine Keeps.ite ?_ (fun _ => ?_)
    · exact h2
    · exact State.whlNotice_keeps h2
  clear_value v3
  extract_lets -merge +onlyGivenNames v5
  have h6 : Keeps s v5 := by
    unfold v5
    split
    · exact State.wr_keeps h4
    · exact h4
  clear_value v5
  extract_lets -merge +onlyGivenNames v7 v8
  clear_value v7 v8
  exact State.closeCheck_keeps (State.setRnd_keeps h6)

theorem State.membSeal_keeps {p2} (h : Keeps s x) : Keeps s (State.membSeal x p2) := by
  unfold State.membSeal
  exact State.wr_keeps h

theorem State.copyShadow_keeps {p2} (h : Keeps s x) : Keeps s (State.copyShadow x p2) := by
  unfold State.copyShadow
  extract_lets -merge +onlyGivenNames v1 v2
  clear_value v1 v2
  extract_lets -merge +onlyGivenNames v3
  subst v3
  extract_lets -merge +onlyGivenNames v4
  have h5 : Keeps s v4 := by
    unfold v4
    refine Keeps.forEach ?_ (fun y6 y7 h8 => ?_)
    · exact h
    · exact State.put_keeps h8
  clear_value v4
  extract_lets -merge +onlyGivenNames v9
  have h10 : Keeps s v9 := by
    unfold v9
    refine Keeps.forEach ?_ (fun y11 y12 h13 => ?_)
    · exact h5
    · exact State.put_keeps h13
  clear_value v9
  exact State.membSeal_keeps h10

theorem State.cfgCount_keeps {p2} (h : Keeps s x) : Keeps s (State.cfgCount x p2) := by
  unfold State.cfgCount
  exact State.inc_keeps h

theorem State.applyCommit_keeps {p2} (h : Keeps s x) : Keeps s (State.applyCommit x p2) := by
  unfold State.applyCommit
  extract_lets -merge +onlyGivenNames v1
  have h2 : Keeps s v1 := State.cfgCount_keeps (State.copyShadow_keeps h)
  clear_value v1
  extract_lets -merge +onlyGivenNames v3 v4
  clear_value v3 v4
  extract_lets -merge +onlyGivenNames v5
  have h6 : Keeps s v5 := State.setRnd_keeps h2
  clear_value v5
  exact State.whlNotice_keeps (State.showMembers_keeps (State.wr_keeps h6))

theorem State.layoutChange_keeps {p2} {p3} {p4} (h : Keeps s x) (kp4 : ∀ b1, Keeps s b1 → Keeps s (p4 b1)) : Keeps s (State.layoutChange x p2 p3 p4) := by
  unfold State.layoutChange
  extract_lets -merge +onlyGivenNames v1
  have h2 : Keeps s v1 := by
    unfold v1
    exact kp4 _ h
  clear_value v1
  refine Keeps.ite ?_ (fun _ => ?_)
  · exact h2
  · exact State.cfgCount_keeps h2

theorem State.rerate_keeps {p2} {p3} (h : Keeps s x) : Keeps s (State.rerate x p2 p3) := by
  unfold State.rerate
  extract_lets -merge +onlyGivenNames v1
  clear_value v1
  refine Keeps.ite ?_ (fun _ => ?_)
  · extract_lets -merge +onlyGivenNames v2 v3
    clear_value v2 v3
    extract_lets -merge +onlyGivenNames v4
    have h5 : Keeps s v4 := State.setRnd_keeps h
    clear_value v4
    extract_lets -merge +onlyGivenNames v6 v7
    clear_value v6 v7
    refine State.showMembers_keeps ?_
    refine Keeps.forEach ?_ (fun y8 y9 h10 => ?_)
    · exact h5
    · split
      · extract_lets -merge +onlyGivenNames v11
        clear_value v11
        exact State.setRnd_keeps h10
      · exact State.openBag_keeps h10
  · exact h

theorem State.applyCfg_keeps {p2} (h : Keeps s x) : Keeps s (State.applyCfg x p2) := by
  unfold State.applyCfg
  extract_lets -merge +onlyGivenNames v1
  clear_value v1
  extract_lets -merge +onlyGivenNames v2
  have h3 : ∀ b1 b2, Keeps s b2 → Keeps s (v2 b1 b2) := by
    intro y4 y5 h6
    unfold v2
    extract_lets -merge +onlyGivenNames v7
    clear_value v7
    refine Keeps.ite ?_ (fun _ => ?_)
    · exact State.put_keeps h6
    · exact State.put_keeps h6
  clear_value v2
  refine State.rerate_keeps ?_
  refine State.layoutChange_keeps h (fun y8 h9 => ?_)
  refine State.setRnd_keeps ?_
  refine Keeps.forEach ?_ (fun y10 y11 h12 => ?_)
  · exact h9
  · exact h3 _ _ h12

theorem State.layoutBoundary_keeps {p2} (h : Keeps s x) : Keeps s (State.layoutBoundary x p2) := by
  unfold State.layoutBoundary
  extract_lets -merge +onlyGivenNames v1
  have h2 : Keeps s v1 := State.applyCfg_keeps h
  clear_value v1
  split
  · refine Keeps.ite ?_ (fun _ => ?_)
    · exact h2
    · exact State.applyCommit_keeps h2
  · exact h2

theorem State.announce_keeps {p2} (h : Keeps s x) : Keeps s (State.announce x p2) := by
  unfold State.announce
  extract_lets -merge +onlyGivenNames v1 v2
  clear_value v1 v2
  exact State.wr_keeps (State.setRnd_keeps h)

theorem State.membErase_keeps {p2} {p3} {p4} (h : Keeps s x) : Keeps s (State.membErase x p2 p3 p4) := by
  unfold State.membErase
  extract_lets -merge +onlyGivenNames v1
  subst v1
  extract_lets -merge +onlyGivenNames v2
  subst v2
  exact State.put_keeps h

theorem State.membClear_keeps {p2} (h : Keeps s x) : Keeps s (State.membClear x p2) := by
  unfold State.membClear
  extract_lets -merge +onlyGivenNames v1
  clear_value v1
  refine Keeps.forEach ?_ (fun y2 y3 h4 => ?_)
  · exact h
  · extract_lets -merge +onlyGivenNames v5
    clear_value v5
    extract_lets -merge +onlyGivenNames v6
    have h7 : Keeps s v6 := State.membErase_keeps h4
    clear_value v6
    extract_lets -merge +onlyGivenNames v8
    clear_value v8
    extract_lets -merge +onlyGivenNames v9
    have h10 : Keeps s v9 := State.setRnd_keeps (State.membSeal_keeps (State.membErase_keeps h7))
    clear_value v9
    extract_lets -merge +onlyGivenNames v11
    have h12 : Keeps s v11 := by
      unfold v11
      refine Keeps.ite ?_ (fun _ => ?_)
      · exact h7
      · refine State.showMembers_keeps ?_
        refine Keeps.ite ?_ (fun _ => ?_)
        · exact State.announce_keeps h10
        · exact h10
    clear_value v11
    exact State.whlNotice_keeps h12

theorem State.putDesc_keeps {p2} {p3} (h : Keeps s x) : Keeps s (State.putDesc x p2 p3) := by
  unfold State.putDesc
  refine Keeps.forEach ?_ (fun y1 y2 h3 => ?_)
  · exact h
  · exact State.put_keeps h3

theorem State.dropCand_keeps {p2} (h : Keeps s x) : Keeps s (State.dropCand x p2) := by
  unfold State.dropCand
  exact State.wr_keeps (Keeps.fields h)

theorem State.showDesc_keeps {p2} {p3} (h : Keeps s x) : Keeps s (State.showDesc x p2 p3) := by
  unfold State.showDesc
  exact State.wr_keeps (State.wr_keeps (State.wr_keeps (State.wr_keeps h)))

theorem State.clearInelig_keeps {p2} (h : Keeps s x) : Keeps s (State.clearInelig x p2) := by
  unfold State.clearInelig
  refine Keeps.forEach ?_ (fun y1 y2 h3 => ?_)
  · exact h
  · exact State.setRnd_keeps h3

theorem State.streamJudged_keeps {p2} (h : Keeps s x) : Keeps s (State.streamJudged x p2) := by
  unfold State.streamJudged
  refine Keeps.forEach ?_ (fun y1 y2 h3 => ?_)
  · exact State.clearInelig_keeps h
  · exact State.showMembers_keeps h3

theorem State.setCounts_keeps {p2} {p3} (h : Keeps s x) : Keeps s (State.setCounts x p2 p3) := by
  unfold State.setCounts
  extract_lets -merge +onlyGivenNames v1
  clear_value v1
  exact Keeps.fields h

theorem State.useDesc_keeps {p2} {p3} {p4} (h : Keeps s x) : Keeps s (State.useDesc x p2 p3 p4) := by
  unfold State.useDesc
  extract_lets -merge +onlyGivenNames v1 v2 v3 v4
  clear_value v1 v2 v3 v4
  exact State.streamJudged_keeps (State.dropCand_keeps (State.showDesc_keeps (State.putDesc_keeps (State.setCounts_keeps h))))

end Sys2Proof.Machine
end

