-- ==== Sys2Proof/Laws/KeepsAdm.lean ====
section
/-! SUPPORT. Each operation and each meaning keeps what `Keeps` says: admission, frames and streams. -/
namespace Sys2Proof.Machine

variable {s x : State}

theorem State.putSender_keeps {p2} (h : Keeps s x) : Keeps s (State.putSender x p2) := by
  unfold State.putSender
  exact Keeps.fields h

theorem State.showAdm_keeps (h : Keeps s x) : Keeps s (State.showAdm x) := by
  unfold State.showAdm
  extract_lets -merge +onlyGivenNames v1 v2
  clear_value v1 v2
  exact State.wr_keeps (State.wr_keeps (State.wr_keeps h))

theorem State.freeEntry_keeps {p2} (h : Keeps s x) : Keeps s (State.freeEntry x p2) := by
  unfold State.freeEntry
  split
  · exact h
  · extract_lets -merge +onlyGivenNames v1
    have h2 : Keeps s v1 := by
      unfold v1
      refine Keeps.forEach ?_ (fun y3 y4 h5 => ?_)
      · exact h
      · exact State.put_keeps h5
    clear_value v1
    exact State.showAdm_keeps h2

theorem State.dropSender_keeps {p2} (h : Keeps s x) : Keeps s (State.dropSender x p2) := by
  unfold State.dropSender
  exact State.freeEntry_keeps (Keeps.fields h)

theorem State.makeRoom_keeps (h : Keeps s x) : Keeps s (State.makeRoom x).1 := by
  unfold State.makeRoom
  refine Keeps.ite1 ?_ (fun _ => ?_)
  · split
    · exact Keeps.mk1 (State.dropSender_keeps h)
    · exact Keeps.mk1 h
  · exact Keeps.mk1 h

theorem State.fillEntry_keeps {p2} {p3} {p4} (h : Keeps s x) : Keeps s (State.fillEntry x p2 p3 p4) := by
  unfold State.fillEntry
  extract_lets -merge +onlyGivenNames v1
  have h2 : Keeps s v1 := State.wr_keeps (State.setFlag_keeps (State.wr_keeps (State.wr_keeps (State.wr_keeps (State.setFlag_keeps (State.setFlag_keeps h))))))
  clear_value v1
  extract_lets -merge +onlyGivenNames v3
  have h4 : Keeps s v3 := State.wr_keeps (State.wr_keeps (State.wr_keeps h2))
  clear_value v3
  exact State.showAdm_keeps (State.wr_keeps (State.wr_keeps h4))

theorem State.deadFrame_keeps {p2} {p3} {p4} (h : Keeps s x) : Keeps s (State.deadFrame x p2 p3 p4) := by
  unfold State.deadFrame
  split
  · exact State.dead_keeps (State.wr_keeps (State.inc_keeps h))
  · extract_lets -merge +onlyGivenNames v1
    clear_value v1
    exact State.dead_keeps (Keeps.fields h)

theorem State.sendCmd_keeps {p2} {p3} (h : Keeps s x) : Keeps s (State.sendCmd x p2 p3) := by
  unfold State.sendCmd
  extract_lets -merge +onlyGivenNames v1 v2
  clear_value v1 v2
  split
  · exact State.tx_keeps h
  · refine Keeps.ite ?_ (fun _ => ?_)
    · exact h
    · exact State.tx_keeps h

theorem State.askCfg_keeps {p2} (h : Keeps s x) : Keeps s (State.askCfg x p2) := by
  unfold State.askCfg
  refine Keeps.ite ?_ (fun _ => ?_)
  · exact State.sendCmd_keeps (State.putSender_keeps h)
  · exact h

theorem State.goLive_keeps {p2} (h : Keeps s x) : Keeps s (State.goLive x p2) := by
  unfold State.goLive
  exact State.wr_keeps (State.wr_keeps (State.wr_keeps h))

theorem State.clearDesc_keeps {p2} (h : Keeps s x) : Keeps s (State.clearDesc x p2) := by
  unfold State.clearDesc
  extract_lets -merge +onlyGivenNames v1
  clear_value v1
  exact State.putDesc_keeps (State.setCounts_keeps h)

theorem State.giveSid_keeps {p2} {p3} {p4} {p5} (h : Keeps s x) : Keeps s (State.giveSid x p2 p3 p4 p5) := by
  unfold State.giveSid
  extract_lets -merge +onlyGivenNames v1
  have h2 : Keeps s v1 := by
    unfold v1
    refine Keeps.ite ?_ (fun _ => ?_)
    · refine State.clearDesc_keeps ?_
      refine Keeps.ite ?_ (fun _ => ?_)
      · exact State.membClear_keeps h
      · exact h
    · exact h
  clear_value v1
  extract_lets -merge +onlyGivenNames v3
  have h4 : Keeps s v3 := State.wr_keeps (State.wr_keeps (State.wr_keeps (State.wr_keeps (State.setFlag_keeps (State.setFlag_keeps (State.wr_keeps h2))))))
  clear_value v3
  extract_lets -merge +onlyGivenNames v5
  have h6 : Keeps s v5 := State.wr_keeps (State.wr_keeps (State.wrWords_keeps h4))
  clear_value v5
  exact State.goLive_keeps h6

theorem State.senderGets_keeps {p2} {p3} {p4} (h : Keeps s x) : Keeps s (State.senderGets x p2 p3 p4) := by
  unfold State.senderGets
  split
  · exact State.putSender_keeps h
  · exact h

theorem State.giveHeld_keeps {p2} (h : Keeps s x) : Keeps s (State.giveHeld x p2) := by
  unfold State.giveHeld
  split
  · exact h
  · refine State.showAdm_keeps ?_
    refine Keeps.forEach ?_ (fun y1 y2 h3 => ?_)
    · exact h
    · exact State.senderGets_keeps (State.goLive_keeps (State.wr_keeps h3))

theorem State.lapseAll_keeps {p2} (h : Keeps s x) : Keeps s (State.lapseAll x p2) := by
  unfold State.lapseAll
  refine Keeps.forEach ?_ (fun y1 y2 h3 => ?_)
  · exact h
  · extract_lets -merge +onlyGivenNames v4
    clear_value v4
    extract_lets -merge +onlyGivenNames v5
    have h6 : Keeps s v5 := State.whlNotice_keeps (State.setRnd_keeps h3)
    clear_value v5
    exact State.showMembers_keeps h6

theorem State.refuse_keeps {p2} (h : Keeps s x) : Keeps s (State.refuse x p2) := by
  unfold State.refuse
  exact State.putSender_keeps (State.freeEntry_keeps h)

theorem State.accept_keeps {p2} (h : Keeps s x) : Keeps s (State.accept x p2) := by
  unfold State.accept
  extract_lets -merge +onlyGivenNames v1
  have h2 : Keeps s v1 := State.putSender_keeps (State.freeEntry_keeps h)
  clear_value v1
  exact State.giveHeld_keeps (State.notice_keeps h2)

theorem State.pend_keeps {p2} {p3} (h : Keeps s x) : Keeps s (State.pend x p2 p3) := by
  unfold State.pend
  split
  · refine Keeps.ite ?_ (fun _ => ?_)
    · exact State.refuse_keeps h
    · exact State.putSender_keeps h
  · extract_lets -merge +onlyGivenNames v1
    have h2 : Keeps s v1 := State.putSender_keeps (State.fillEntry_keeps h)
    clear_value v1
    refine Keeps.ite ?_ (fun _ => ?_)
    · exact State.notice_keeps h2
    · exact h2

theorem State.decideNew_keeps {p2} {p3} (h : Keeps s x) : Keeps s (State.decideNew x p2 p3) := by
  unfold State.decideNew
  split
  · rename_i z1 z2 z3
    have h4 : Keeps s z2 := Keeps.of_fst z3 (State.makeRoom_keeps h)
    exact State.inc_keeps h4
  · rename_i z5 z6 z7
    have h8 : Keeps s z6 := Keeps.of_fst z7 (State.makeRoom_keeps h)
    extract_lets -merge +onlyGivenNames v9 v10
    clear_value v9 v10
    extract_lets -merge +onlyGivenNames v11
    have h12 : Keeps s v11 := Keeps.fields h8
    clear_value v11
    refine Keeps.ite ?_ (fun _ => ?_)
    · refine Keeps.ite ?_ (fun _ => ?_)
      · refine Keeps.ite ?_ (fun _ => ?_)
        · exact State.refuse_keeps h12
        · exact State.pend_keeps h12
      · exact State.pend_keeps h12
    · exact State.accept_keeps h12

theorem State.countHeldOff_keeps {p2} (h : Keeps s x) : Keeps s (State.countHeldOff x p2) := by
  unfold State.countHeldOff
  split
  · extract_lets -merge +onlyGivenNames v1
    have h2 : Keeps s v1 := State.inc_keeps h
    clear_value v1
    refine Keeps.ite ?_ (fun _ => ?_)
    · exact State.logEvent_keeps (State.putSender_keeps h2)
    · exact h2
  · extract_lets -merge +onlyGivenNames v3
    have h4 : Keeps s v3 := State.inc_keeps h
    clear_value v3
    refine Keeps.ite ?_ (fun _ => ?_)
    · exact h4
    · exact State.pend_keeps h4
  · exact h

theorem State.allocBlocks_keeps {p2} {p3} (h : Keeps s x) : Keeps s (State.allocBlocks x p2 p3) := by
  unfold State.allocBlocks
  extract_lets -merge +onlyGivenNames v1
  have h2 : ∀ b1 b2, Keeps s b1.1 → Keeps s (v1 b1 b2).1 := by
    intro y3 y4 h5
    unfold v1
    split
    · exact h5
    · refine Keeps.ite1 ?_ (fun _ => ?_)
      · split
        · exact Keeps.mk1 (State.senderGets_keeps (State.giveSid_keeps h5))
        · exact Keeps.mk1 h5
      · exact h5
  clear_value v1
  split
  rename_i z6 z7 z8 z9
  have h10 : Keeps s z7 := Keeps.of_fst z9 (by
    refine Keeps.foldl1 ?_ (fun y11 y12 h13 => ?_)
    · exact Keeps.mk1 h
    · exact h2 _ _ h13)
  extract_lets -merge +onlyGivenNames v14
  have h15 : Keeps s v14 := State.showAdm_keeps h10
  clear_value v14
  refine Keeps.ite ?_ (fun _ => ?_)
  · split
    · exact State.notice_keeps h15
    · exact h15
  · exact h15

theorem State.letterFormed_keeps {p2} {p3} (h : Keeps s x) : Keeps s (State.letterFormed x p2 p3) := by
  unfold State.letterFormed
  extract_lets -merge +onlyGivenNames v1
  clear_value v1
  extract_lets -merge +onlyGivenNames v2
  have h3 : Keeps s v2 := Keeps.fields h
  clear_value v2
  extract_lets -merge +onlyGivenNames v4
  have h5 : Keeps s v4 := State.wr_keeps (State.wr64_keeps (State.bump64_keeps h3))
  clear_value v4
  extract_lets -merge +onlyGivenNames v6 v7
  clear_value v6 v7
  extract_lets -merge +onlyGivenNames v8
  have h9 : Keeps s v8 := by
    unfold v8
    refine Keeps.ite ?_ (fun _ => ?_)
    · exact State.wr_keeps h5
    · exact h5
  clear_value v8
  refine State.handOver_keeps ?_
  refine Keeps.ite ?_ (fun _ => ?_)
  · exact State.wr_keeps h9
  · exact State.goLive_keeps h9

theorem State.lettersFormed_keeps {p2} {p3} (h : Keeps s x) : Keeps s (State.lettersFormed x p2 p3) := by
  unfold State.lettersFormed
  refine Keeps.forEach ?_ (fun y1 y2 h3 => ?_)
  · exact h
  · exact State.letterFormed_keeps h3

theorem State.setPort_keeps {p2} {p3} (h : Keeps s x) : Keeps s (State.setPort x p2 p3) := by
  unfold State.setPort
  exact Keeps.fields h

theorem State.disc_keeps {p2} (h : Keeps s x) : Keeps s (State.disc x p2) := by
  unfold State.disc
  exact State.inc_keeps h

theorem State.prpFull_keeps (h : Keeps s x) : Keeps s (State.prpFull x) := by
  unfold State.prpFull
  refine Keeps.ite ?_ (fun _ => ?_)
  · exact State.notice_keeps (Keeps.fields h)
  · exact State.noticeQuiet_keeps h

theorem State.prpPass_keeps {p2} (h : Keeps s x) : Keeps s (State.prpPass x p2).1 := by
  unfold State.prpPass
  split
  · refine Keeps.ite1 ?_ (fun _ => ?_)
    · refine Keeps.ite1 ?_ (fun _ => ?_)
      · exact Keeps.mk1 (State.prpFull_keeps h)
      · exact Keeps.mk1 (Keeps.fields h)
    · exact Keeps.mk1 (State.inc_keeps h)
  · exact Keeps.mk1 h

theorem State.rxFront_keeps {p2} (h : Keeps s x) : Keeps s (State.rxFront x p2).1 := by
  unfold State.rxFront
  extract_lets -merge +onlyGivenNames v1
  have h2 : Keeps s v1 := State.advance_keeps h
  clear_value v1
  refine Keeps.ite1 ?_ (fun _ => ?_)
  · extract_lets -merge +onlyGivenNames v3
    have h4 : Keeps s v3 := State.inc_keeps h2
    clear_value v3
    extract_lets -merge +onlyGivenNames v5
    clear_value v5
    extract_lets -merge +onlyGivenNames v6
    have h7 : Keeps s v6 := State.setPort_keeps h4
    clear_value v6
    refine Keeps.ite1 ?_ (fun _ => ?_)
    · exact Keeps.mk1 (State.disc_keeps h7)
    · exact State.prpPass_keeps h7
  · exact Keeps.mk1 h2

theorem State.rxMore_keeps {p2} (h : Keeps s x) : Keeps s (State.rxMore x p2).1 := by
  unfold State.rxMore
  extract_lets -merge +onlyGivenNames v1
  have h2 : Keeps s v1 := State.advance_keeps h
  clear_value v1
  exact Keeps.mk1 h2

theorem State.onFrame_keeps {p2} {p3} (h : Keeps s x) (kp3 : ∀ b1, Keeps s b1 → Keeps s (p3 b1)) : Keeps s (State.onFrame x p2 p3) := by
  unfold State.onFrame
  split
  · rename_i z1 z2 z3
    have h4 : Keeps s z2 := Keeps.of_fst z3 (State.rxFront_keeps h)
    exact kp3 _ h4
  · rename_i z5 z6 z7
    have h8 : Keeps s z6 := Keeps.of_fst z7 (State.rxFront_keeps h)
    exact h8

theorem State.sendReports_keeps {p2} (h : Keeps s x) : Keeps s (State.sendReports x p2) := by
  unfold State.sendReports
  refine Keeps.forEach ?_ (fun y1 y2 h3 => ?_)
  · exact h
  · exact State.tx_keeps h3

theorem State.joinGroups_keeps (h : Keeps s x) : Keeps s (State.joinGroups x) := by
  unfold State.joinGroups
  extract_lets -merge +onlyGivenNames v1 v2
  clear_value v1 v2
  extract_lets -merge +onlyGivenNames v3
  have h4 : Keeps s v3 := Keeps.fields h
  clear_value v3
  refine Keeps.forEach ?_ (fun y5 y6 h7 => ?_)
  · exact h4
  · exact State.sendReports_keeps h7

theorem State.frankFail_keeps {p2} {p3} {p4} {p5} (h : Keeps s x) : Keeps s (State.frankFail x p2 p3 p4 p5) := by
  unfold State.frankFail
  extract_lets -merge +onlyGivenNames v1
  have h2 : Keeps s v1 := State.deadFrame_keeps h
  clear_value v1
  extract_lets -merge +onlyGivenNames v3 v4 v5 v6
  clear_value v3 v4 v5 v6
  extract_lets -merge +onlyGivenNames v7
  have h8 : Keeps s v7 := by
    unfold v7
    split
    · rename_i z9 z10
      exact State.putSender_keeps h2
    · rename_i z11
      exact Keeps.fields h2
  clear_value v7
  extract_lets -merge +onlyGivenNames v12
  have h13 : Keeps s v12 := by
    unfold v12
    refine Keeps.ite ?_ (fun _ => ?_)
    · exact State.notice_keeps h8
    · exact h2
  clear_value v12
  exact State.stdAlarm_keeps (State.stdSeen_keeps h13)

theorem State.withSender_keeps {p2} {p3} (h : Keeps s x) (kp3 : ∀ b1 b2, Keeps s b1 → Keeps s (p3 b1 b2)) : Keeps s (State.withSender x p2 p3) := by
  unfold State.withSender
  extract_lets -merge +onlyGivenNames v1
  clear_value v1
  split
  · refine Keeps.ite ?_ (fun _ => ?_)
    · split
      · exact State.deadFrame_keeps h
      · refine Keeps.ite ?_ (fun _ => ?_)
        · exact kp3 _ _ h
        · exact State.frankFail_keeps h
    · exact State.countHeldOff_keeps h
  · refine Keeps.ite ?_ (fun _ => ?_)
    · split
      · exact State.deadFrame_keeps h
      · extract_lets -merge +onlyGivenNames v2
        clear_value v2
        refine Keeps.ite ?_ (fun _ => ?_)
        · extract_lets -merge +onlyGivenNames v3
          have h4 : Keeps s v3 := State.decideNew_keeps h
          clear_value v3
          split
          · refine Keeps.ite ?_ (fun _ => ?_)
            · exact State.countHeldOff_keeps h4
            · exact kp3 _ _ h4
          · exact h4
        · exact State.frankFail_keeps h
    · exact h

theorem State.pickDesc_keeps {p2} {p3} (h : Keeps s x) : Keeps s (State.pickDesc x p2 p3).1 := by
  unfold State.pickDesc
  extract_lets -merge +onlyGivenNames v1 v2
  clear_value v1 v2
  refine Keeps.ite1 ?_ (fun _ => ?_)
  · split
    · exact Keeps.mk1 h
    · refine Keeps.ite1 ?_ (fun _ => ?_)
      · refine Keeps.ite1 ?_ (fun _ => ?_)
        · exact Keeps.mk1 h
        · extract_lets -merge +onlyGivenNames v3
          have h4 : Keeps s v3 := State.useDesc_keeps h
          clear_value v3
          exact Keeps.mk1 h4
      · extract_lets -merge +onlyGivenNames v5
        clear_value v5
        refine Keeps.ite1 ?_ (fun _ => ?_)
        · refine Keeps.ite1 ?_ (fun _ => ?_)
          · exact Keeps.mk1 h
          · exact Keeps.mk1 (Keeps.fields h)
        · extract_lets -merge +onlyGivenNames v6
          have h7 : Keeps s v6 := State.useDesc_keeps h
          clear_value v6
          extract_lets -merge +onlyGivenNames v8
          clear_value v8
          exact Keeps.mk1 h7
  · exact Keeps.mk1 h

theorem State.blockLetter_keeps {p2} {p3} {p4} (h : Keeps s x) : Keeps s (State.blockLetter x p2 p3 p4).1 := by
  unfold State.blockLetter
  split
  · rename_i z1 z2 z3 z4
    have h5 : Keeps s z2 := Keeps.of_fst z4 (State.pickDesc_keeps h)
    exact Keeps.mk1 h5
  · rename_i z6 z7 z8 z9
    have h10 : Keeps s z7 := Keeps.of_fst z9 (State.pickDesc_keeps h)
    split
    · exact Keeps.mk1 h10
    · extract_lets -merge +onlyGivenNames v11 v12
      clear_value v11 v12
      exact Keeps.mk1 h10

theorem State.startAsking_keeps {p2} (h : Keeps s x) : Keeps s (State.startAsking x p2) := by
  unfold State.startAsking
  split
  · exact h
  · refine Keeps.ite ?_ (fun _ => ?_)
    · exact h
    · exact State.putSender_keeps h

theorem State.noLetter_keeps {p2} {p3} {p4} (h : Keeps s x) : Keeps s (State.noLetter x p2 p3 p4) := by
  unfold State.noLetter
  extract_lets -merge +onlyGivenNames v1
  have h2 : Keeps s v1 := State.deadFrame_keeps h
  clear_value v1
  extract_lets -merge +onlyGivenNames v3
  have h4 : Keeps s v3 := by
    unfold v3
    refine Keeps.ite ?_ (fun _ => ?_)
    · exact h2
    · exact State.startAsking_keeps h2
  clear_value v3
  split
  · exact h4
  · refine Keeps.ite ?_ (fun _ => ?_)
    · exact h4
    · exact State.askCfg_keeps h4

theorem State.parseData_keeps {p2} {p3} {p4} (h : Keeps s x) : Keeps s (State.parseData x p2 p3 p4) := by
  unfold State.parseData
  refine Keeps.ite ?_ (fun _ => ?_)
  · split
    rename_i z1 z2 z3 z4 z5
    have h6 : Keeps s z2 := Keeps.of_fst z5 (by
      refine Keeps.foldl1 ?_ (fun y7 y8 h9 => ?_)
      · exact Keeps.mk1 h
      · split
        · rename_i z10 z11 z12 z13
          have h14 : Keeps s z11 := Keeps.of_fst z13 (State.blockLetter_keeps h9)
          exact Keeps.mk1 h14
        · rename_i z15 z16 z17 z18
          have h19 : Keeps s z16 := Keeps.of_fst z18 (State.blockLetter_keeps h9)
          exact Keeps.mk1 h19)
    refine Keeps.ite ?_ (fun _ => ?_)
    · extract_lets -merge +onlyGivenNames v20
      have h21 : Keeps s v20 := by
        unfold v20
        refine Keeps.ite ?_ (fun _ => ?_)
        · exact h6
        · exact State.startAsking_keeps h6
      clear_value v20
      exact State.lettersFormed_keeps h21
    · exact State.noLetter_keeps h6
  · exact State.noLetter_keeps h

theorem State.c37Data_keeps {p2} {p3} (h : Keeps s x) : Keeps s (State.c37Data x p2 p3) := by
  unfold State.c37Data
  refine Keeps.ite ?_ (fun _ => ?_)
  · exact State.disc_keeps h
  · refine State.withSender_keeps h (fun y1 y2 h3 => ?_)
    exact State.parseData_keeps h3

theorem State.newDesc_keeps {p2} {p3} {p4} (h : Keeps s x) : Keeps s (State.newDesc x p2 p3 p4) := by
  unfold State.newDesc
  extract_lets -merge +onlyGivenNames v1
  have h2 : Keeps s v1 := by
    unfold v1
    refine Keeps.ite ?_ (fun _ => ?_)
    · exact h
    · exact State.logEvent_keeps h
  clear_value v1
  refine Keeps.ite ?_ (fun _ => ?_)
  · extract_lets -merge +onlyGivenNames v3
    have h4 : Keeps s v3 := State.useDesc_keeps h2
    clear_value v3
    refine Keeps.ite ?_ (fun _ => ?_)
    · exact h4
    · exact State.goLive_keeps h4
  · exact State.wr_keeps (Keeps.fields h2)

theorem State.buildDescs_keeps {p2} {p3} {p4} {p5} (h : Keeps s x) : Keeps s (State.buildDescs x p2 p3 p4 p5) := by
  unfold State.buildDescs
  split
  · exact State.deadFrame_keeps h
  · extract_lets -merge +onlyGivenNames v1
    clear_value v1
    extract_lets -merge +onlyGivenNames v2
    have h3 : Keeps s v2 := State.putSender_keeps h
    clear_value v2
    extract_lets -merge +onlyGivenNames v4
    have h5 : Keeps s v4 := by
      unfold v4
      refine Keeps.ite ?_ (fun _ => ?_)
      · exact h3
      · exact State.allocBlocks_keeps h3
    clear_value v4
    split
    · exact h5
    · extract_lets -merge +onlyGivenNames v6
      clear_value v6
      extract_lets -merge +onlyGivenNames v7
      have h8 : Keeps s v7 := by
        unfold v7
        refine Keeps.forEach ?_ (fun y9 y10 h11 => ?_)
        · exact h5
        · exact State.newDesc_keeps h11
      clear_value v7
      extract_lets -merge +onlyGivenNames v12
      have h13 : Keeps s v12 := by
        unfold v12
        refine Keeps.ite ?_ (fun _ => ?_)
        · exact State.notice_keeps h8
        · exact h8
      clear_value v12
      extract_lets -merge +onlyGivenNames v14
      have h15 : Keeps s v14 := State.showAdm_keeps h13
      clear_value v14
      refine Keeps.ite ?_ (fun _ => ?_)
      · exact h15
      · exact State.sendCmd_keeps h15

theorem State.parseCfg_keeps {p2} {p3} (h : Keeps s x) : Keeps s (State.parseCfg x p2 p3) := by
  unfold State.parseCfg
  extract_lets -merge +onlyGivenNames v1
  clear_value v1
  refine Keeps.ite ?_ (fun _ => ?_)
  · split
    · exact State.deadFrame_keeps (State.putSender_keeps h)
    · exact State.putSender_keeps h
    · extract_lets -merge +onlyGivenNames v2
      clear_value v2
      exact State.buildDescs_keeps (State.putSender_keeps h)
  · exact State.deadFrame_keeps h

theorem State.c37Cfg_keeps {p2} (h : Keeps s x) : Keeps s (State.c37Cfg x p2) := by
  unfold State.c37Cfg
  refine Keeps.ite ?_ (fun _ => ?_)
  · refine Keeps.ite ?_ (fun _ => ?_)
    · refine State.withSender_keeps h (fun y1 y2 h3 => ?_)
      exact State.parseCfg_keeps h3
    · exact h
  · exact State.disc_keeps h

theorem State.replayTake_keeps {p2} {p3} {p4} (h : Keeps s x) : Keeps s (State.replayTake x p2 p3 p4) := by
  unfold State.replayTake
  exact State.noteRx_keeps (Keeps.fields h)

theorem State.frank_keeps {p2} {p3} {p4} (h : Keeps s x) : Keeps s (State.frank x p2 p3 p4).1 := by
  unfold State.frank
  refine Keeps.ite1 ?_ (fun _ => ?_)
  · split
    · exact Keeps.mk1 h
    · extract_lets -merge +onlyGivenNames v1
      clear_value v1
      split
      · rename_i z2 z3 z4
        have h5 : Keeps s z3 := Keeps.of_fst z4 (State.useKey_keeps h)
        exact Keeps.mk1 h5
      · rename_i z6 z7 z8 z9
        have h10 : Keeps s z7 := Keeps.of_fst z9 (State.useKey_keeps h)
        refine Keeps.ite1 ?_ (fun _ => ?_)
        · split
          · exact Keeps.mk1 h10
          · exact Keeps.mk1 (State.replayTake_keeps h10)
        · exact Keeps.mk1 h10
  · exact Keeps.mk1 h

theorem State.parseSpdu_keeps {p2} {p3} {p4} {p5} {p6} (h : Keeps s x) : Keeps s (State.parseSpdu x p2 p3 p4 p5 p6) := by
  unfold State.parseSpdu
  extract_lets -merge +onlyGivenNames v1 v2 v3
  clear_value v1 v2 v3
  refine Keeps.ite ?_ (fun _ => ?_)
  · refine Keeps.ite ?_ (fun _ => ?_)
    · exact State.lettersFormed_keeps h
    · refine Keeps.forEach ?_ (fun y4 y5 h6 => ?_)
      · exact h
      · exact Keeps.fields h6
  · exact State.noLetter_keeps h

theorem State.spduIn_keeps {p2} {p3} {p4} (h : Keeps s x) : Keeps s (State.spduIn x p2 p3 p4) := by
  unfold State.spduIn
  extract_lets -merge +onlyGivenNames v1
  clear_value v1
  refine Keeps.ite ?_ (fun _ => ?_)
  · split
    · refine Keeps.ite ?_ (fun _ => ?_)
      · refine Keeps.ite ?_ (fun _ => ?_)
        · split
          · rename_i z2 z3 z4 z5
            have h6 : Keeps s z3 := Keeps.of_fst z5 (State.frank_keeps h)
            exact State.frankFail_keeps h6
          · rename_i z7 z8 z9 z10
            have h11 : Keeps s z8 := Keeps.of_fst z10 (State.frank_keeps h)
            exact State.parseSpdu_keeps h11
        · exact State.deadFrame_keeps h
      · exact State.countHeldOff_keeps h
    · refine Keeps.ite ?_ (fun _ => ?_)
      · refine Keeps.ite ?_ (fun _ => ?_)
        · extract_lets -merge +onlyGivenNames v12
          clear_value v12
          split
          · rename_i z13 z14 z15 z16
            have h17 : Keeps s z14 := Keeps.of_fst z16 (State.frank_keeps h)
            exact State.frankFail_keeps h17
          · rename_i z18 z19 z20 z21
            have h22 : Keeps s z19 := Keeps.of_fst z21 (State.frank_keeps h)
            extract_lets -merge +onlyGivenNames v23
            have h24 : Keeps s v23 := State.decideNew_keeps h22
            clear_value v23
            split
            · refine Keeps.ite ?_ (fun _ => ?_)
              · exact State.countHeldOff_keeps h24
              · exact State.parseSpdu_keeps h24
            · exact Keeps.fields h24
        · exact State.deadFrame_keeps h
      · exact h
  · exact State.disc_keeps h

theorem execC37DataFrame_keeps {p1} : KeepsRes s (execC37DataFrame p1 s) := by
  have h := Keeps.refl s
  unfold execC37DataFrame
  refine KeepsRes.next ?_
  refine State.onFrame_keeps h (fun y1 h2 => ?_)
  exact State.c37Data_keeps h2

theorem execC37CfgFrame_keeps {p1} : KeepsRes s (execC37CfgFrame p1 s) := by
  have h := Keeps.refl s
  unfold execC37CfgFrame
  refine KeepsRes.next ?_
  refine State.onFrame_keeps h (fun y1 h2 => ?_)
  exact State.c37Cfg_keeps h2

theorem execSpduReceived_keeps {p1} {p2} : KeepsRes s (execSpduReceived p1 p2 s) := by
  have h := Keeps.refl s
  unfold execSpduReceived
  refine KeepsRes.next ?_
  refine State.onFrame_keeps h (fun y1 h2 => ?_)
  exact State.spduIn_keeps h2

theorem State.putConn_keeps {p2} (h : Keeps s x) : Keeps s (State.putConn x p2) := by
  unfold State.putConn
  exact Keeps.fields h

theorem State.tcpFrame_keeps {p2} {p3} (h : Keeps s x) : Keeps s (State.tcpFrame x p2 p3) := by
  unfold State.tcpFrame
  extract_lets -merge +onlyGivenNames v1 v2
  clear_value v1 v2
  refine Keeps.ite ?_ (fun _ => ?_)
  · refine Keeps.ite ?_ (fun _ => ?_)
    · exact State.c37Cfg_keeps h
    · exact State.disc_keeps h
  · exact State.c37Data_keeps h

theorem State.tcpIn_keeps {p2} (h : Keeps s x) : Keeps s (State.tcpIn x p2) := by
  unfold State.tcpIn
  split
  · exact State.disc_keeps h
  · extract_lets -merge +onlyGivenNames v1
    clear_value v1
    split
    extract_lets -merge +onlyGivenNames v2
    have h3 : Keeps s v2 := State.putConn_keeps h
    clear_value v2
    extract_lets -merge +onlyGivenNames v4
    clear_value v4
    extract_lets -merge +onlyGivenNames v5
    have h6 : Keeps s v5 := by
      unfold v5
      refine Keeps.forEach ?_ (fun y7 y8 h9 => ?_)
      · exact h3
      · exact State.tcpFrame_keeps h9
    clear_value v5
    refine Keeps.ite ?_ (fun _ => ?_)
    · exact h6
    · exact State.deadFrame_keeps h6

theorem execTcpSegment_keeps {p1} : KeepsRes s (execTcpSegment p1 s) := by
  have h := Keeps.refl s
  unfold execTcpSegment
  refine KeepsRes.next ?_
  refine State.onFrame_keeps h (fun y1 h2 => ?_)
  exact State.tcpIn_keeps h2

theorem execTcpConnected_keeps {p1} {p2} : KeepsRes s (execTcpConnected p1 p2 s) := by
  have h := Keeps.refl s
  unfold execTcpConnected
  extract_lets -merge +onlyGivenNames v1
  have h2 : Keeps s v1 := State.advance_keeps h
  clear_value v1
  split
  · exact KeepsRes.next h2
  · extract_lets -merge +onlyGivenNames v3
    have h4 : ∀ b1 b2, Keeps s b1 → Keeps s (v3 b1 b2) := by
      intro y5 y6 h7
      unfold v3
      exact State.tx_keeps h7
    clear_value v3
    extract_lets -merge +onlyGivenNames v8
    have h9 : Keeps s v8 := by
      unfold v8
      exact h4 _ _ (State.putConn_keeps h2)
    clear_value v8
    refine KeepsRes.next ?_
    refine Keeps.ite ?_ (fun _ => ?_)
    · exact h9
    · exact h4 _ _ h9

theorem execTcpConnFail_keeps {p1} {p2} : KeepsRes s (execTcpConnFail p1 p2 s) := by
  have h := Keeps.refl s
  unfold execTcpConnFail
  extract_lets -merge +onlyGivenNames v1
  have h2 : Keeps s v1 := State.advance_keeps h
  clear_value v1
  split
  · exact KeepsRes.next h2
  · exact KeepsRes.next (State.putConn_keeps h2)

theorem State.openConn_keeps {p2} (h : Keeps s x) : Keeps s (State.openConn x p2) := by
  unfold State.openConn
  extract_lets -merge +onlyGivenNames v1
  clear_value v1
  exact State.tx_keeps h

theorem execTcpReconnect_keeps {p1} {p2} : KeepsRes s (execTcpReconnect p1 p2 s) := by
  have h := Keeps.refl s
  unfold execTcpReconnect
  extract_lets -merge +onlyGivenNames v1
  have h2 : Keeps s v1 := State.advance_keeps h
  clear_value v1
  split
  · exact KeepsRes.next h2
  · refine KeepsRes.next ?_
    refine Keeps.ite ?_ (fun _ => ?_)
    · exact h2
    · exact State.openConn_keeps (State.putConn_keeps h2)

theorem State.openConns_keeps (h : Keeps s x) : Keeps s (State.openConns x) := by
  unfold State.openConns
  refine Keeps.forEach ?_ (fun y1 y2 h3 => ?_)
  · exact h
  · refine Keeps.ite ?_ (fun _ => ?_)
    · refine Keeps.ite ?_ (fun _ => ?_)
      · extract_lets -merge +onlyGivenNames v4
        clear_value v4
        exact State.openConn_keeps (Keeps.fields h3)
      · exact State.notice_keeps h3
    · exact h3

theorem execCfgRequestTimer_keeps {p1} {p2} : KeepsRes s (execCfgRequestTimer p1 p2 s) := by
  have h := Keeps.refl s
  unfold execCfgRequestTimer
  extract_lets -merge +onlyGivenNames v1
  have h2 : Keeps s v1 := State.advance_keeps h
  clear_value v1
  split
  · exact KeepsRes.next h2
  · refine KeepsRes.ite ?_ ?_
    · refine KeepsRes.next ?_
      refine Keeps.ite ?_ (fun _ => ?_)
      · exact h2
      · exact State.sendCmd_keeps (State.putSender_keeps h2)
    · exact KeepsRes.next (State.putSender_keeps h2)

theorem execPendingTimeout_keeps {p1} {p2} : KeepsRes s (execPendingTimeout p1 p2 s) := by
  have h := Keeps.refl s
  unfold execPendingTimeout
  extract_lets -merge +onlyGivenNames v1
  have h2 : Keeps s v1 := State.advance_keeps h
  clear_value v1
  split
  · exact KeepsRes.next h2
  · refine KeepsRes.next ?_
    refine Keeps.ite ?_ (fun _ => ?_)
    · exact h2
    · exact State.refuse_keeps h2

theorem execRefusedExpiry_keeps {p1} {p2} : KeepsRes s (execRefusedExpiry p1 p2 s) := by
  have h := Keeps.refl s
  unfold execRefusedExpiry
  extract_lets -merge +onlyGivenNames v1
  have h2 : Keeps s v1 := State.advance_keeps h
  clear_value v1
  split
  · exact KeepsRes.next h2
  · refine KeepsRes.next ?_
    refine Keeps.ite ?_ (fun _ => ?_)
    · exact h2
    · exact State.dropSender_keeps h2

theorem State.admDecideWrite_keeps {p2} (h : Keeps s x) : Keeps s (State.admDecideWrite x p2) := by
  unfold State.admDecideWrite
  extract_lets -merge +onlyGivenNames v1 v2
  clear_value v1 v2
  split
  · exact State.wr_keeps h
  · refine Keeps.ite ?_ (fun _ => ?_)
    · refine Keeps.ite ?_ (fun _ => ?_)
      · exact State.wr_keeps (State.refuse_keeps h)
      · exact State.wr_keeps (State.showAdm_keeps (State.putSender_keeps (State.setFlag_keeps h)))
    · refine Keeps.ite ?_ (fun _ => ?_)
      · exact State.wr_keeps (State.accept_keeps h)
      · exact State.wr_keeps h

theorem execAdmDecide_keeps {p1} : KeepsRes s (execAdmDecide p1 s) := by
  have h := Keeps.refl s
  unfold execAdmDecide
  refine KeepsRes.next ?_
  refine State.hostGate_keeps h (fun y1 h2 => ?_)
  exact State.admDecideWrite_keeps h2

theorem State.swapBanks_keeps (h : Keeps s x) : Keeps s (State.swapBanks x) := by
  unfold State.swapBanks
  extract_lets -merge +onlyGivenNames v1 v2 v3 v4
  clear_value v1 v2 v3 v4
  extract_lets -merge +onlyGivenNames v5
  have h6 : Keeps s v5 := by
    unfold v5
    refine Keeps.forEach ?_ (fun y7 y8 h9 => ?_)
    · exact h
    · exact State.put_keeps h9
  clear_value v5
  refine Keeps.forEach ?_ (fun y10 y11 h12 => ?_)
  · exact h6
  · exact State.put_keeps h12

theorem State.admCtlWrite_keeps {p2} (h : Keeps s x) : Keeps s (State.admCtlWrite x p2) := by
  unfold State.admCtlWrite
  extract_lets -merge +onlyGivenNames v1
  have h2 : Keeps s v1 := State.wr_keeps (State.wr_keeps (State.wr_keeps h))
  clear_value v1
  refine Keeps.ite ?_ (fun _ => ?_)
  · extract_lets -merge +onlyGivenNames v3
    have h4 : Keeps s v3 := State.swapBanks_keeps h2
    clear_value v3
    extract_lets -merge +onlyGivenNames v5
    have h6 : Keeps s v5 := by
      unfold v5
      refine Keeps.forEach ?_ (fun y7 y8 h9 => ?_)
      · exact h4
      · exact State.dropSender_keeps h9
    clear_value v5
    extract_lets -merge +onlyGivenNames v10 v11
    clear_value v10 v11
    extract_lets -merge +onlyGivenNames v12
    have h13 : Keeps s v12 := by
      unfold v12
      refine Keeps.ite ?_ (fun _ => ?_)
      · exact h6
      · exact Keeps.fields h6
    clear_value v12
    exact State.openConns_keeps (State.notice_keeps h13)
  · exact h2

theorem execAdmCommit_keeps {p1} : KeepsRes s (execAdmCommit p1 s) := by
  have h := Keeps.refl s
  unfold execAdmCommit
  refine KeepsRes.next ?_
  refine State.hostGate_keeps h (fun y1 h2 => ?_)
  exact State.admCtlWrite_keeps h2

theorem execSidQuarantineEnd_keeps {p1} {p2} : KeepsRes s (execSidQuarantineEnd p1 p2 s) := by
  have h := Keeps.refl s
  unfold execSidQuarantineEnd
  extract_lets -merge +onlyGivenNames v1
  have h2 : Keeps s v1 := State.advance_keeps h
  clear_value v1
  refine KeepsRes.next ?_
  refine Keeps.ite ?_ (fun _ => ?_)
  · exact h2
  · exact State.showAdm_keeps (State.wr_keeps (Keeps.fields h2))

theorem State.descStands_keeps {p2} {p3} (h : Keeps s x) : Keeps s (State.descStands x p2 p3) := by
  unfold State.descStands
  exact State.streamJudged_keeps (State.showDesc_keeps h)

theorem State.descCheckWrite_keeps {p2} {p3} (h : Keeps s x) : Keeps s (State.descCheckWrite x p2 p3) := by
  unfold State.descCheckWrite
  extract_lets -merge +onlyGivenNames v1
  subst v1
  extract_lets -merge +onlyGivenNames v2 v3
  clear_value v2 v3
  refine Keeps.ite ?_ (fun _ => ?_)
  · extract_lets -merge +onlyGivenNames v4
    have h5 : Keeps s v4 := State.put_keeps h
    clear_value v4
    extract_lets -merge +onlyGivenNames v6
    clear_value v6
    refine Keeps.ite ?_ (fun _ => ?_)
    · refine Keeps.ite ?_ (fun _ => ?_)
      · exact h5
      · extract_lets -merge +onlyGivenNames v7
        have h8 : Keeps s v7 := State.descStands_keeps (State.setCounts_keeps h5)
        clear_value v7
        refine Keeps.ite ?_ (fun _ => ?_)
        · refine Keeps.forEach ?_ (fun y9 y10 h11 => ?_)
          · exact h8
          · exact State.giveHeld_keeps h11
        · exact State.showAdm_keeps (State.goLive_keeps h8)
    · refine Keeps.ite ?_ (fun _ => ?_)
      · refine Keeps.forEach ?_ (fun y12 y13 h14 => ?_)
        · exact State.showAdm_keeps (State.wr_keeps h5)
        · exact State.showMembers_keeps h14
      · extract_lets -merge +onlyGivenNames v15 v16
        clear_value v15 v16
        exact State.descStands_keeps (State.dropCand_keeps (State.putDesc_keeps (State.setCounts_keeps h5)))
  · exact State.logRefused_keeps h

theorem execDescriptorCheckWrite_keeps {p1} {p2} : KeepsRes s (execDescriptorCheckWrite p1 p2 s) := by
  have h := Keeps.refl s
  unfold execDescriptorCheckWrite
  refine KeepsRes.next ?_
  refine State.hostGate_keeps h (fun y1 h2 => ?_)
  exact State.descCheckWrite_keeps h2

theorem execRgooseHoldLetter_keeps {p1} {p2} : KeepsRes s (execRgooseHoldLetter p1 p2 s) := by
  have h := Keeps.refl s
  unfold execRgooseHoldLetter
  extract_lets -merge +onlyGivenNames v1
  have h2 : Keeps s v1 := State.advance_keeps h
  clear_value v1
  split
  · exact KeepsRes.next h2
  · refine KeepsRes.ite ?_ ?_
    · extract_lets -merge +onlyGivenNames v3 v4
      clear_value v3 v4
      exact KeepsRes.next (State.letterFormed_keeps h2)
    · exact KeepsRes.next h2

theorem execOtherFrame_keeps {p1} : KeepsRes s (execOtherFrame p1 s) := by
  have h := Keeps.refl s
  unfold execOtherFrame
  refine KeepsRes.next ?_
  refine State.onFrame_keeps h (fun y1 h2 => ?_)
  exact State.disc_keeps h2

theorem execArpRequest_keeps {p1} {p2} : KeepsRes s (execArpRequest p1 p2 s) := by
  have h := Keeps.refl s
  unfold execArpRequest
  refine KeepsRes.next ?_
  refine State.onFrame_keeps h (fun y1 h2 => ?_)
  refine Keeps.ite ?_ (fun _ => ?_)
  · exact h2
  · exact State.tx_keeps h2

theorem execEchoRequest_keeps {p1} {p2} : KeepsRes s (execEchoRequest p1 p2 s) := by
  have h := Keeps.refl s
  unfold execEchoRequest
  refine KeepsRes.next ?_
  refine State.onFrame_keeps h (fun y1 h2 => ?_)
  extract_lets -merge +onlyGivenNames v3 v4
  clear_value v3 v4
  refine Keeps.ite ?_ (fun _ => ?_)
  · exact h2
  · exact State.tx_keeps (State.setPort_keeps h2)

theorem State.reasmFail_keeps {p2} (h : Keeps s x) : Keeps s (State.reasmFail x p2) := by
  unfold State.reasmFail
  exact State.notice_keeps (State.bump_keeps h)

theorem State.dropFrag_keeps {p2} (h : Keeps s x) : Keeps s (State.dropFrag x p2) := by
  unfold State.dropFrag
  exact Keeps.fields h

theorem execReasmTimeout_keeps {p1} {p2} : KeepsRes s (execReasmTimeout p1 p2 s) := by
  have h := Keeps.refl s
  unfold execReasmTimeout
  extract_lets -merge +onlyGivenNames v1
  have h2 : Keeps s v1 := State.advance_keeps h
  clear_value v1
  split
  · exact KeepsRes.next h2
  · refine KeepsRes.next ?_
    refine Keeps.ite ?_ (fun _ => ?_)
    · exact h2
    · exact State.reasmFail_keeps (State.dropFrag_keeps h2)

theorem execFcsErrFrame_keeps {p1} {p2} : KeepsRes s (execFcsErrFrame p1 p2 s) := by
  have h := Keeps.refl s
  unfold execFcsErrFrame
  extract_lets -merge +onlyGivenNames v1
  have h2 : Keeps s v1 := State.advance_keeps h
  clear_value v1
  extract_lets -merge +onlyGivenNames v3
  clear_value v3
  extract_lets -merge +onlyGivenNames v4
  have h5 : Keeps s v4 := State.inc_keeps h2
  clear_value v4
  exact KeepsRes.next (State.setPort_keeps h5)

theorem State.flushPort_keeps {p2} (h : Keeps s x) : Keeps s (State.flushPort x p2) := by
  unfold State.flushPort
  extract_lets -merge +onlyGivenNames v1 v2
  clear_value v1 v2
  extract_lets -merge +onlyGivenNames v3
  have h4 : Keeps s v3 := State.setPort_keeps h
  clear_value v3
  refine Keeps.forEach ?_ (fun y5 y6 h7 => ?_)
  · exact h4
  · refine Keeps.forEach ?_ (fun y8 y9 h10 => ?_)
    · exact h7
    · exact State.startTx_keeps h10

theorem State.setPause_keeps {p2} {p3} (h : Keeps s x) : Keeps s (State.setPause x p2 p3) := by
  unfold State.setPause
  exact State.flushPort_keeps (State.setFlag_keeps (State.setPort_keeps h))

theorem execPauseFrame_keeps {p1} {p2} {p3} : KeepsRes s (execPauseFrame p1 p2 p3 s) := by
  have h := Keeps.refl s
  unfold execPauseFrame
  extract_lets -merge +onlyGivenNames v1
  have h2 : Keeps s v1 := State.advance_keeps h
  clear_value v1
  refine KeepsRes.next ?_
  refine Keeps.ite ?_ (fun _ => ?_)
  · extract_lets -merge +onlyGivenNames v3
    have h4 : Keeps s v3 := State.inc_keeps h2
    clear_value v3
    extract_lets -merge +onlyGivenNames v5 v6
    clear_value v5 v6
    refine Keeps.ite ?_ (fun _ => ?_)
    · split
      · exact State.setPause_keeps h4
      · refine Keeps.ite ?_ (fun _ => ?_)
        · exact h4
        · exact State.setPause_keeps h4
    · exact h4
  · exact h2

theorem execPauseCut_keeps {p1} {p2} : KeepsRes s (execPauseCut p1 p2 s) := by
  have h := Keeps.refl s
  unfold execPauseCut
  extract_lets -merge +onlyGivenNames v1
  have h2 : Keeps s v1 := State.advance_keeps h
  clear_value v1
  extract_lets -merge +onlyGivenNames v3
  clear_value v3
  refine KeepsRes.next ?_
  refine Keeps.ite ?_ (fun _ => ?_)
  · exact h2
  · exact State.setPause_keeps (State.notice_keeps (State.inc_keeps h2))

theorem execPauseEnd_keeps {p1} {p2} : KeepsRes s (execPauseEnd p1 p2 s) := by
  have h := Keeps.refl s
  unfold execPauseEnd
  extract_lets -merge +onlyGivenNames v1
  have h2 : Keeps s v1 := State.advance_keeps h
  clear_value v1
  extract_lets -merge +onlyGivenNames v3
  clear_value v3
  exact KeepsRes.next (State.setPause_keeps h2)

theorem execEgressShed_keeps {p1} {p2} : KeepsRes s (execEgressShed p1 p2 s) := by
  have h := Keeps.refl s
  unfold execEgressShed
  extract_lets -merge +onlyGivenNames v1
  have h2 : Keeps s v1 := State.advance_keeps h
  clear_value v1
  extract_lets -merge +onlyGivenNames v3
  clear_value v3
  extract_lets -merge +onlyGivenNames v4
  have h5 : Keeps s v4 := State.setPort_keeps h2
  clear_value v4
  refine KeepsRes.next ?_
  refine Keeps.forEach ?_ (fun y6 y7 h8 => ?_)
  · exact h5
  · exact State.shedFrame_keeps h8

end Sys2Proof.Machine
end

