-- ==== Sys2Proof/Laws/KeepsOsc.lean ====
section
/-! SUPPORT. Each operation and each meaning keeps what `Keeps` says: oscillation, islanding, placement and alarms. -/
namespace Sys2Proof.Machine

variable {s x : State}

theorem State.islRec_keeps {p2} {p3} {p4} (h : Keeps s x) : Keeps s (State.islRec x p2 p3 p4) := by
  unfold State.islRec
  extract_lets -merge +onlyGivenNames v1
  clear_value v1
  split
  rename_i z2 z3 z4 z5
  have h6 : Keeps s z4 := Keeps.of_snd z5 (State.draw_keeps h)
  extract_lets -merge +onlyGivenNames v7 v8 v9 v10
  clear_value v7 v8 v9 v10
  extract_lets -merge +onlyGivenNames v11
  have h12 : Keeps s v11 := Keeps.fields h6
  clear_value v11
  exact State.offer_keeps h12

theorem State.tieAged_keeps {p2} (h : Keeps s x) : Keeps s (State.tieAged x p2) := by
  unfold State.tieAged
  extract_lets -merge +onlyGivenNames v1
  clear_value v1
  exact State.wr_keeps (State.wr_keeps h)

theorem State.tieTold_keeps {p2} {p3} {p4} (h : Keeps s x) : Keeps s (State.tieTold x p2 p3 p4) := by
  unfold State.tieTold
  refine Keeps.ite ?_ (fun _ => ?_)
  · exact State.islRec_keeps (State.notice_keeps h)
  · exact h

theorem State.tiesMissed_keeps {p2} (h : Keeps s x) : Keeps s (State.tiesMissed x p2) := by
  unfold State.tiesMissed
  refine State.inc_keeps ?_
  refine Keeps.forEach ?_ (fun y1 y2 h3 => ?_)
  · exact h
  · exact State.tieTold_keeps (State.tieAged_keeps h3)

theorem State.cancelItem_keeps {p2} {p3} (h : Keeps s x) : Keeps s (State.cancelItem x p2 p3) := by
  unfold State.cancelItem
  split
  extract_lets -merge +onlyGivenNames v1
  have h2 : Keeps s v1 := State.chargeStopped_keeps (State.dropItem_keeps h)
  clear_value v1
  extract_lets -merge +onlyGivenNames v3
  have h4 : Keeps s v3 := by
    unfold v3
    refine Keeps.ite ?_ (fun _ => ?_)
    · exact State.inc_keeps h2
    · exact h2
  clear_value v3
  extract_lets -merge +onlyGivenNames v5
  have h6 : Keeps s v5 := State.showDepth_keeps (State.showOcc_keeps (State.traceEv_keeps (State.dead_keeps h4)))
  clear_value v5
  extract_lets -merge +onlyGivenNames v7
  have h8 : Keeps s v7 := State.moveQuiet_keeps (State.tokens_keeps h6)
  clear_value v7
  extract_lets -merge +onlyGivenNames v9
  have h10 : Keeps s v9 := by
    unfold v9
    split
    · exact State.lbDone_keeps h8
    · exact State.drainOverflow_keeps h8
    · refine Keeps.ite ?_ (fun _ => ?_)
      · exact h8
      · exact State.inc_keeps h8
    · exact State.tiesMissed_keeps h8
    · exact h8
  clear_value v9
  exact State.slotEnd_keeps h10

theorem State.expireItem_keeps {p2} (h : Keeps s x) : Keeps s (State.expireItem x p2) := by
  unfold State.expireItem
  exact State.noticeFirst_keeps (State.cancelItem_keeps h)

theorem State.cancelWhere_keeps {p2} {p3} (h : Keeps s x) : Keeps s (State.cancelWhere x p2 p3) := by
  unfold State.cancelWhere
  refine Keeps.forEach ?_ (fun y1 y2 h3 => ?_)
  · exact h
  · exact State.cancelItem_keeps h3

theorem State.endFlow_keeps {p2} (h : Keeps s x) : Keeps s (State.endFlow x p2) := by
  unfold State.endFlow
  exact State.cancelWhere_keeps h

theorem State.forceOldest_keeps {p2} (h : Keeps s x) : Keeps s (State.forceOldest x p2) := by
  unfold State.forceOldest
  split
  · exact h
  · extract_lets -merge +onlyGivenNames v1
    clear_value v1
    extract_lets -merge +onlyGivenNames v2
    have h3 : Keeps s v2 := State.mapItems_keeps h
    clear_value v2
    extract_lets -merge +onlyGivenNames v4
    have h5 : Keeps s v4 := State.cancelWhere_keeps h3
    clear_value v4
    extract_lets -merge +onlyGivenNames v6
    have h7 : Keeps s v6 := State.modSlot_keeps h5
    clear_value v6
    exact State.releaseScan_keeps (State.notice_keeps h7)

theorem State.reissue_keeps {p2} {p3} (h : Keeps s x) : Keeps s (State.reissue x p2 p3) := by
  unfold State.reissue
  refine Keeps.ite ?_ (fun _ => ?_)
  · extract_lets -merge +onlyGivenNames v1
    have h2 : Keeps s v1 := State.chargeStopped_keeps h
    clear_value v1
    extract_lets -merge +onlyGivenNames v3
    clear_value v3
    split
    extract_lets -merge +onlyGivenNames v4
    have h5 : Keeps s v4 := State.mapItems_keeps h2
    clear_value v4
    exact State.sorterNext_keeps (State.moveQuiet_keeps (State.tokens_keeps (State.traceEv_keeps h5)))
  · exact State.cancelItem_keeps h

theorem State.store_keeps {p2} {p3} (h : Keeps s x) : Keeps s (State.store x p2 p3) := by
  unfold State.store
  extract_lets -merge +onlyGivenNames v1
  clear_value v1
  extract_lets -merge +onlyGivenNames v2
  have h3 : Keeps s v2 := State.setWord_keeps h
  clear_value v2
  refine Keeps.ite ?_ (fun _ => ?_)
  · exact h3
  · exact State.logRefused_keeps h3

theorem State.chanWrite_keeps {p2} {p3} (h : Keeps s x) : Keeps s (State.chanWrite x p2 p3) := by
  unfold State.chanWrite
  exact State.quietChan_keeps (State.store_keeps h)

theorem State.islCtlWrite_keeps {p2} (h : Keeps s x) : Keeps s (State.islCtlWrite x p2) := by
  unfold State.islCtlWrite
  extract_lets -merge +onlyGivenNames v1
  have h2 : Keeps s v1 := State.store_keeps h
  clear_value v1
  refine State.islAlarm_keeps ?_
  refine Keeps.ite ?_ (fun _ => ?_)
  · exact State.wr_keeps (State.wr_keeps h2)
  · exact h2

theorem State.agCfgWrite_keeps {p2} {p3} {p4} (h : Keeps s x) : Keeps s (State.agCfgWrite x p2 p3 p4) := by
  unfold State.agCfgWrite
  extract_lets -merge +onlyGivenNames v1
  have h2 : Keeps s v1 := State.store_keeps h
  clear_value v1
  refine Keeps.ite ?_ (fun _ => ?_)
  · extract_lets -merge +onlyGivenNames v3
    have h4 : Keeps s v3 := State.wr_keeps (State.wr_keeps h2)
    clear_value v3
    refine State.suspAlarm_keeps ?_
    refine State.showRunning_keeps ?_
    refine Keeps.forEach ?_ (fun y5 y6 h7 => ?_)
    · exact h4
    · exact State.quietChan_keeps h7
  · exact h2

theorem State.leaveRun_keeps (h : Keeps s x) : Keeps s (State.leaveRun x) := by
  unfold State.leaveRun
  extract_lets -merge +onlyGivenNames v1 v2
  clear_value v1 v2
  extract_lets -merge +onlyGivenNames v3
  have h4 : Keeps s v3 := State.cancelWhere_keeps (Keeps.fields h)
  clear_value v3
  extract_lets -merge +onlyGivenNames v5
  have h6 : Keeps s v5 := by
    unfold v5
    refine Keeps.forEach ?_ (fun y7 y8 h9 => ?_)
    · exact h4
    · exact State.deadLetter_keeps h9
  clear_value v5
  exact State.replaceWaiting_keeps (State.sortersOff_keeps (State.capLeave_keeps (State.acqLeave_keeps (State.closeRounds_keeps h6))))

theorem State.modeTo_keeps {p2} {p3} (h : Keeps s x) : Keeps s (State.modeTo x p2 p3) := by
  unfold State.modeTo
  extract_lets -merge +onlyGivenNames v1 v2
  clear_value v1 v2
  extract_lets -merge +onlyGivenNames v3
  have h4 : Keeps s v3 := by
    unfold v3
    refine Keeps.ite ?_ (fun _ => ?_)
    · exact h
    · exact State.nrgLeave_keeps h
  clear_value v3
  extract_lets -merge +onlyGivenNames v5
  have h6 : Keeps s v5 := State.armFollow_keeps (State.notice_keeps (State.modeWord_keeps h4))
  clear_value v5
  extract_lets -merge +onlyGivenNames v7
  clear_value v7
  extract_lets -merge +onlyGivenNames v8
  have h9 : Keeps s v8 := by
    unfold v8
    refine Keeps.ite ?_ (fun _ => ?_)
    · exact h6
    · exact Keeps.fields h6
  clear_value v8
  extract_lets -merge +onlyGivenNames v10
  have h11 : Keeps s v10 := by
    unfold v10
    refine Keeps.ite ?_ (fun _ => ?_)
    · exact h9
    · exact State.clkSet_keeps (State.checkCap_keeps h9)
  clear_value v10
  extract_lets -merge +onlyGivenNames v12
  have h13 : Keeps s v12 := by
    unfold v12
    refine Keeps.ite ?_ (fun _ => ?_)
    · exact h11
    · exact State.checkAnalysis_keeps h11
  clear_value v12
  extract_lets -merge +onlyGivenNames v14 v15
  clear_value v14 v15
  extract_lets -merge +onlyGivenNames v16
  have h17 : Keeps s v16 := by
    unfold v16
    refine Keeps.ite ?_ (fun _ => ?_)
    · exact State.runRest_keeps h13
    · exact Keeps.fields h13
  clear_value v16
  extract_lets -merge +onlyGivenNames v18
  clear_value v18
  extract_lets -merge +onlyGivenNames v19
  have h20 : Keeps s v19 := Keeps.fields h17
  clear_value v19
  extract_lets -merge +onlyGivenNames v21
  have h22 : Keeps s v21 := State.wr_keeps h20
  clear_value v21
  extract_lets -merge +onlyGivenNames v23
  clear_value v23
  extract_lets -merge +onlyGivenNames v24
  have h25 : Keeps s v24 := by
    unfold v24
    refine Keeps.ite ?_ (fun _ => ?_)
    · exact h22
    · exact Keeps.fields h22
  clear_value v24
  extract_lets -merge +onlyGivenNames v26
  have h27 : Keeps s v26 := by
    unfold v26
    refine Keeps.ite ?_ (fun _ => ?_)
    · exact State.setReady_keeps (State.setFlag_keeps h25)
    · exact h25
  clear_value v26
  extract_lets -merge +onlyGivenNames v28
  have h29 : Keeps s v28 := by
    unfold v28
    refine Keeps.ite ?_ (fun _ => ?_)
    · exact h27
    · exact State.saveRec_keeps (State.wr_keeps h27)
  clear_value v28
  extract_lets -merge +onlyGivenNames v30
  have h31 : Keeps s v30 := State.showDebug_keeps h29
  clear_value v30
  extract_lets -merge +onlyGivenNames v32
  have h33 : Keeps s v32 := by
    unfold v32
    refine Keeps.ite ?_ (fun _ => ?_)
    · refine Keeps.ite ?_ (fun _ => ?_)
      · exact h31
      · exact State.enterRun_keeps h31
    · exact State.leaveRun_keeps h31
  clear_value v32
  extract_lets -merge +onlyGivenNames v34
  clear_value v34
  extract_lets -merge +onlyGivenNames v35
  have h36 : Keeps s v35 := Keeps.fields h33
  clear_value v35
  extract_lets -merge +onlyGivenNames v37
  have h38 : Keeps s v37 := State.drivePins_keeps h36
  clear_value v37
  exact State.weighRoles_keeps (State.partnerAlarm_keeps h38)

theorem State.reqStart_keeps {p2} {p3} (h : Keeps s x) : Keeps s (State.reqStart x p2 p3) := by
  unfold State.reqStart
  extract_lets -merge +onlyGivenNames v1
  have h2 : Keeps s v1 := State.wr_keeps h
  clear_value v1
  extract_lets -merge +onlyGivenNames v3
  have h4 : Keeps s v3 := by
    unfold v3
    refine Keeps.ite ?_ (fun _ => ?_)
    · exact h2
    · exact State.runCheck_keeps (State.setFlag_keeps h2)
  clear_value v3
  extract_lets -merge +onlyGivenNames v5
  have h6 : Keeps s v5 := by
    unfold v5
    refine Keeps.ite ?_ (fun _ => ?_)
    · exact h4
    · exact State.wr_keeps h4
  clear_value v5
  refine Keeps.ite ?_ (fun _ => ?_)
  · refine Keeps.ite ?_ (fun _ => ?_)
    · extract_lets -merge +onlyGivenNames v7
      clear_value v7
      extract_lets -merge +onlyGivenNames v8
      have h9 : Keeps s v8 := Keeps.fields h6
      clear_value v8
      extract_lets -merge +onlyGivenNames v10
      have h11 : Keeps s v10 := State.wr_keeps h9
      clear_value v10
      refine Keeps.ite ?_ (fun _ => ?_)
      · refine Keeps.ite ?_ (fun _ => ?_)
        · exact h11
        · exact State.switchStart_keeps h11
      · refine Keeps.ite ?_ (fun _ => ?_)
        · exact State.reqEnd_keeps h11
        · exact State.switchStart_keeps h11
    · exact State.reqEnd_keeps (State.modeTo_keeps h6)
  · exact State.runCheck_keeps (State.reqEnd_keeps (State.setFlag_keeps (Keeps.fields h6)))

theorem State.request_keeps {p2} {p3} (h : Keeps s x) : Keeps s (State.request x p2 p3) := by
  unfold State.request
  refine Keeps.ite ?_ (fun _ => ?_)
  · extract_lets -merge +onlyGivenNames v1
    clear_value v1
    refine Keeps.ite ?_ (fun _ => ?_)
    · exact State.reqEnd_keeps h
    · exact State.reqStart_keeps h
  · exact State.wr_keeps h

theorem State.rejudge_keeps (h : Keeps s x) : Keeps s (State.rejudge x) := by
  unfold State.rejudge
  refine Keeps.ite ?_ (fun _ => ?_)
  · exact h
  · extract_lets -merge +onlyGivenNames v1 v2
    clear_value v1 v2
    refine Keeps.ite ?_ (fun _ => ?_)
    · refine Keeps.ite ?_ (fun _ => ?_)
      · exact h
      · exact State.reqEnd_keeps (State.modeTo_keeps h)
    · exact State.reqEnd_keeps h

theorem State.degMove_keeps (h : Keeps s x) : Keeps s (State.degMove x) := by
  unfold State.degMove
  refine Keeps.ite ?_ (fun _ => ?_)
  · exact h
  · exact State.rejudge_keeps (State.modeTo_keeps h)

theorem State.refreshDeg_keeps (h : Keeps s x) : Keeps s (State.refreshDeg x) := by
  unfold State.refreshDeg
  exact State.degMove_keeps (State.showDeg_keeps h)

theorem State.fatal_keeps {p2} (h : Keeps s x) : Keeps s (State.fatal x p2) := by
  unfold State.fatal
  refine Keeps.ite ?_ (fun _ => ?_)
  · refine Keeps.ite ?_ (fun _ => ?_)
    · extract_lets -merge +onlyGivenNames v1
      have h2 : Keeps s v1 := by
        unfold v1
        refine Keeps.ite ?_ (fun _ => ?_)
        · exact h
        · exact State.saveRec_keeps (State.wr_keeps (State.wr_keeps h))
      clear_value v1
      exact State.rejudge_keeps (State.notice_keeps (State.modeTo_keeps h2))
    · exact State.notice_keeps h
  · exact h

theorem State.unload_keeps {p2} (h : Keeps s x) : Keeps s (State.unload x p2) := by
  unfold State.unload
  extract_lets -merge +onlyGivenNames v1
  have h2 : Keeps s v1 := by
    unfold v1
    split
    · exact h
    · refine Keeps.ite ?_ (fun _ => ?_)
      · exact State.reissue_keeps h
      · exact State.completeItem_keeps h
  clear_value v1
  exact State.replaceWaiting_keeps h2

theorem State.portFloor_keeps (h : Keeps s x) : Keeps s (State.portFloor x) := by
  unfold State.portFloor
  refine Keeps.ite ?_ (fun _ => ?_)
  · exact h
  · exact State.fatal_keeps h

theorem State.portsChanged_keeps (h : Keeps s x) : Keeps s (State.portsChanged x) := by
  unfold State.portsChanged
  exact State.degMove_keeps (State.portFloor_keeps (State.showDeg_keeps h))

theorem State.sorterFloor_keeps (h : Keeps s x) : Keeps s (State.sorterFloor x) := by
  unfold State.sorterFloor
  refine Keeps.ite ?_ (fun _ => ?_)
  · exact h
  · exact State.fatal_keeps h

theorem State.fence_keeps {p2} (h : Keeps s x) : Keeps s (State.fence x p2) := by
  unfold State.fence
  refine Keeps.ite ?_ (fun _ => ?_)
  · exact State.degMove_keeps (State.sorterFloor_keeps (State.kick_keeps (State.showDeg_keeps (State.abandonMoves_keeps (State.unload_keeps (State.fenceMark_keeps h))))))
  · exact h

theorem State.runEntry_keeps (h : Keeps s x) : Keeps s (State.runEntry x) := by
  unfold State.runEntry
  refine Keeps.ite ?_ (fun _ => ?_)
  · exact h
  · split
    · exact h
    · extract_lets -merge +onlyGivenNames v1
      clear_value v1
      extract_lets -merge +onlyGivenNames v2
      have h3 : Keeps s v2 := by
        unfold v2
        refine Keeps.ite ?_ (fun _ => ?_)
        · exact State.wr_keeps h
        · exact State.wr_keeps h
      clear_value v2
      extract_lets -merge +onlyGivenNames v4
      have h5 : Keeps s v4 := State.rejudge_keeps (State.modeTo_keeps h3)
      clear_value v4
      refine Keeps.ite ?_ (fun _ => ?_)
      · exact h5
      · exact State.rejudge_keeps (State.modeTo_keeps h5)
    · exact State.rejudge_keeps (State.modeTo_keeps h)

theorem State.tbSelect_keeps (h : Keeps s x) : Keeps s (State.tbSelect x) := by
  unfold State.tbSelect
  extract_lets -merge +onlyGivenNames v1
  clear_value v1
  extract_lets -merge +onlyGivenNames v2
  have h3 : Keeps s v2 := by
    unfold v2
    refine Keeps.ite ?_ (fun _ => ?_)
    · refine Keeps.ite ?_ (fun _ => ?_)
      · refine Keeps.ite ?_ (fun _ => ?_)
        · exact h
        · exact State.holdover_keeps h
      · exact State.select_keeps h
    · exact h
  clear_value v2
  extract_lets -merge +onlyGivenNames v4
  have h5 : Keeps s v4 := by
    unfold v4
    refine Keeps.ite ?_ (fun _ => ?_)
    · exact h3
    · exact State.setTb_keeps h3
  clear_value v4
  exact State.runCheck_keeps (State.refreshDeg_keeps (State.tbRefresh_keeps (State.refreshAgree_keeps h5)))

theorem State.retire_keeps {p2} (h : Keeps s x) : Keeps s (State.retire x p2) := by
  unfold State.retire
  extract_lets -merge +onlyGivenNames v1
  clear_value v1
  extract_lets -merge +onlyGivenNames v2
  have h3 : Keeps s v2 := Keeps.fields h
  clear_value v2
  extract_lets -merge +onlyGivenNames v4
  have h5 : Keeps s v4 := State.notice_keeps (State.wr_keeps (State.lapseAll_keeps h3))
  clear_value v4
  extract_lets -merge +onlyGivenNames v6
  have h7 : Keeps s v6 := State.dropCand_keeps h5
  clear_value v6
  split
  · exact State.showAdm_keeps h7
  · extract_lets -merge +onlyGivenNames v8
    clear_value v8
    extract_lets -merge +onlyGivenNames v9
    have h10 : Keeps s v9 := by
      unfold v9
      refine Keeps.ite ?_ (fun _ => ?_)
      · exact h7
      · exact State.sendCmd_keeps h7
    clear_value v9
    extract_lets -merge +onlyGivenNames v11
    have h12 : Keeps s v11 := by
      unfold v11
      refine Keeps.ite ?_ (fun _ => ?_)
      · exact State.putSender_keeps h10
      · exact State.dropSender_keeps h10
    clear_value v11
    exact State.showAdm_keeps (State.endFlow_keeps h12)

theorem State.idleInstant_keeps {p2} {p3} (h : Keeps s x) : Keeps s (State.idleInstant x p2 p3) := by
  unfold State.idleInstant
  extract_lets -merge +onlyGivenNames v1
  clear_value v1
  refine Keeps.ite ?_ (fun _ => ?_)
  · extract_lets -merge +onlyGivenNames v2 v3 v4
    clear_value v2 v3 v4
    extract_lets -merge +onlyGivenNames v5
    have h6 : Keeps s v5 := Keeps.fields h
    clear_value v5
    refine Keeps.ite ?_ (fun _ => ?_)
    · extract_lets -merge +onlyGivenNames v7
      have h8 : Keeps s v7 := State.wr_keeps h6
      clear_value v7
      refine Keeps.ite ?_ (fun _ => ?_)
      · exact State.retire_keeps h8
      · exact State.wr_keeps h8
    · exact State.wr_keeps h6
  · exact h

theorem execStreamInstant_keeps {p1} {p2} : KeepsRes s (execStreamInstant p1 p2 s) := by
  have h := Keeps.refl s
  unfold execStreamInstant
  exact KeepsRes.next (State.idleInstant_keeps (State.advance_keeps h))

theorem State.extractModes_keeps {p2} {p3} (h : Keeps s x) : Keeps s (State.extractModes x p2 p3) := by
  unfold State.extractModes
  extract_lets -merge +onlyGivenNames v1 v2 v3 v4 v5 v6
  clear_value v1 v2 v3 v4 v5 v6
  split
  extract_lets -merge +onlyGivenNames v7
  have h8 : Keeps s v7 := State.bump_keeps (State.bump_keeps (State.setGrp_keeps h))
  clear_value v7
  extract_lets -merge +onlyGivenNames v9
  have h10 : Keeps s v9 := by
    unfold v9
    refine Keeps.ite ?_ (fun _ => ?_)
    · exact State.oscNotice_keeps h8
    · exact h8
  clear_value v9
  refine Keeps.ite ?_ (fun _ => ?_)
  · exact State.oscNotice_keeps h10
  · exact h10

theorem State.forcedLines_keeps {p2} {p3} (h : Keeps s x) : Keeps s (State.forcedLines x p2 p3) := by
  unfold State.forcedLines
  extract_lets -merge +onlyGivenNames v1 v2 v3 v4 v5
  clear_value v1 v2 v3 v4 v5
  split
  extract_lets -merge +onlyGivenNames v6
  have h7 : Keeps s v6 := State.setGrp_keeps h
  clear_value v6
  extract_lets -merge +onlyGivenNames v8
  have h9 : Keeps s v8 := by
    unfold v8
    refine Keeps.ite ?_ (fun _ => ?_)
    · exact State.oscNotice_keeps h7
    · exact h7
  clear_value v8
  refine Keeps.ite ?_ (fun _ => ?_)
  · exact State.oscNotice_keeps h9
  · exact h9

theorem State.autoSelect_keeps {p2} {p3} (h : Keeps s x) : Keeps s (State.autoSelect x p2 p3) := by
  unfold State.autoSelect
  extract_lets -merge +onlyGivenNames v1
  clear_value v1
  refine Keeps.ite ?_ (fun _ => ?_)
  · split
    extract_lets -merge +onlyGivenNames v2
    have h3 : Keeps s v2 := State.setGrp_keeps h
    clear_value v2
    refine Keeps.ite ?_ (fun _ => ?_)
    · exact State.oscNotice_keeps (State.bump_keeps h3)
    · exact h3
  · exact h

theorem State.publish_keeps {p2} {p3} (h : Keeps s x) : Keeps s (State.publish x p2 p3) := by
  unfold State.publish
  extract_lets -merge +onlyGivenNames v1 v2 v3 v4
  clear_value v1 v2 v3 v4
  extract_lets -merge +onlyGivenNames v5
  have h6 : Keeps s v5 := by
    unfold v5
    refine Keeps.forEach ?_ (fun y7 y8 h9 => ?_)
    · exact h
    · exact State.put_keeps h9
  clear_value v5
  extract_lets -merge +onlyGivenNames v10
  have h11 : Keeps s v10 := State.inc_keeps (State.wr_keeps h6)
  clear_value v10
  extract_lets -merge +onlyGivenNames v12
  clear_value v12
  extract_lets -merge +onlyGivenNames v13
  have h14 : Keeps s v13 := Keeps.fields h11
  clear_value v13
  extract_lets -merge +onlyGivenNames v15
  have h16 : Keeps s v15 := State.oscNotice_keeps h14
  clear_value v15
  exact State.offer_keeps h16

theorem State.epochRun_keeps {p2} {p3} (h : Keeps s x) : Keeps s (State.epochRun x p2 p3) := by
  unfold State.epochRun
  extract_lets -merge +onlyGivenNames v1
  have h2 : Keeps s v1 := State.extractModes_keeps h
  clear_value v1
  extract_lets -merge +onlyGivenNames v3
  have h4 : Keeps s v3 := State.forcedLines_keeps h2
  clear_value v3
  extract_lets -merge +onlyGivenNames v5
  have h6 : Keeps s v5 := State.autoSelect_keeps h4
  clear_value v5
  extract_lets -merge +onlyGivenNames v7
  have h8 : Keeps s v7 := State.publish_keeps (State.showGrp_keeps h6)
  clear_value v7
  extract_lets -merge +onlyGivenNames v9
  clear_value v9
  extract_lets -merge +onlyGivenNames v10
  have h11 : Keeps s v10 := State.checkpoint_keeps (State.setGrp_keeps h8)
  clear_value v10
  refine Keeps.ite ?_ (fun _ => ?_)
  · exact State.digestReached_keeps h11
  · exact State.plkSend_keeps h11

theorem State.missEpochs_keeps {p2} {p3} (h : Keeps s x) : Keeps s (State.missEpochs x p2 p3) := by
  unfold State.missEpochs
  refine Keeps.ite ?_ (fun _ => ?_)
  · exact State.oscNotice_keeps (State.bump_keeps (State.bump_keeps h))
  · exact h

theorem State.holdPage_keeps {p2} {p3} (h : Keeps s x) : Keeps s (State.holdPage x p2 p3) := by
  unfold State.holdPage
  exact State.publish_keeps (State.showGrp_keeps h)

theorem State.passEpoch_keeps {p2} {p3} {p4} {p5} (h : Keeps s x) : Keeps s (State.passEpoch x p2 p3 p4 p5) := by
  unfold State.passEpoch
  extract_lets -merge +onlyGivenNames v1 v2 v3
  clear_value v1 v2 v3
  extract_lets -merge +onlyGivenNames v4
  have h5 : Keeps s v4 := State.setGrp_keeps h
  clear_value v4
  refine Keeps.ite ?_ (fun _ => ?_)
  · extract_lets -merge +onlyGivenNames v6
    have h7 : Keeps s v6 := State.missEpochs_keeps h5
    clear_value v6
    refine Keeps.ite ?_ (fun _ => ?_)
    · exact State.epochRun_keeps h7
    · exact h7
  · exact h5

theorem State.keepRecent_keeps {p2} {p3} (h : Keeps s x) : Keeps s (State.keepRecent x p2 p3) := by
  unfold State.keepRecent
  exact Keeps.fields h

theorem State.noticeStale_keeps {p2} {p3} (h : Keeps s x) : Keeps s (State.noticeStale x p2 p3) := by
  unfold State.noticeStale
  extract_lets -merge +onlyGivenNames v1
  clear_value v1
  refine Keeps.ite ?_ (fun _ => ?_)
  · exact State.oscNotice_keeps h
  · exact h

theorem State.trackSample_keeps {p2} {p3} {p4} (h : Keeps s x) : Keeps s (State.trackSample x p2 p3 p4) := by
  unfold State.trackSample
  extract_lets -merge +onlyGivenNames v1 v2
  clear_value v1 v2
  extract_lets -merge +onlyGivenNames v3
  have h4 : Keeps s v3 := State.setGrp_keeps h
  clear_value v3
  refine Keeps.forEach ?_ (fun y5 y6 h7 => ?_)
  · exact h4
  · exact State.wr_keeps h7

theorem State.grpSample_keeps {p2} {p3} {p4} (h : Keeps s x) : Keeps s (State.grpSample x p2 p3 p4) := by
  unfold State.grpSample
  extract_lets -merge +onlyGivenNames v1
  clear_value v1
  exact State.showGrp_keeps (State.trackSample_keeps (State.keepRecent_keeps h))

theorem State.grpInstant_keeps {p2} {p3} {p4} {p5} {p6} {p7} {p8} (h : Keeps s x) : Keeps s (State.grpInstant x p2 p3 p4 p5 p6 p7 p8) := by
  unfold State.grpInstant
  extract_lets -merge +onlyGivenNames v1
  clear_value v1
  extract_lets -merge +onlyGivenNames v2
  have h3 : Keeps s v2 := by
    unfold v2
    split
    · rename_i z4 z5
      exact State.passEpoch_keeps h
    · rename_i z6
      exact h
  clear_value v2
  extract_lets -merge +onlyGivenNames v7 v8
  clear_value v7 v8
  split
  extract_lets -merge +onlyGivenNames v9
  have h10 : Keeps s v9 := State.bump_keeps (State.setGrp_keeps h3)
  clear_value v9
  refine State.noticeStale_keeps ?_
  split
  · exact State.grpSample_keeps h10
  · exact h10

theorem State.grpItem_keeps {p2} {p3} {p4} {p5} {p6} (h : Keeps s x) : Keeps s (State.grpItem x p2 p3 p4 p5 p6) := by
  unfold State.grpItem
  extract_lets -merge +onlyGivenNames v1 v2 v3 v4 v5
  clear_value v1 v2 v3 v4 v5
  extract_lets -merge +onlyGivenNames v6
  have h7 : Keeps s v6 := by
    unfold v6
    refine Keeps.forEach ?_ (fun y8 y9 h10 => ?_)
    · exact h
    · refine State.grpInstant_keeps ?_
      refine Keeps.ite ?_ (fun _ => ?_)
      · exact h10
      · exact State.setGrp_keeps h10
  clear_value v6
  refine Keeps.ite ?_ (fun _ => ?_)
  · exact State.showGrp_keeps h7
  · exact State.holdPage_keeps h7

theorem execGroupUpdate_keeps {p1} {p2} : KeepsRes s (execGroupUpdate p1 p2 s) := by
  have h := Keeps.refl s
  unfold execGroupUpdate
  extract_lets -merge +onlyGivenNames v1
  have h2 : Keeps s v1 := State.advance_keeps h
  clear_value v1
  split
  · split
    · refine KeepsRes.next ?_
      refine Keeps.ite ?_ (fun _ => ?_)
      · refine Keeps.ite ?_ (fun _ => ?_)
        · exact h2
        · exact State.markRan_keeps h2
      · exact State.markRan_keeps (State.grpItem_keeps h2)
    · exact KeepsRes.next h2
  · exact KeepsRes.next h2

theorem State.setTrk_keeps {p2} (h : Keeps s x) : Keeps s (State.setTrk x p2) := by
  unfold State.setTrk
  exact Keeps.fields h

theorem State.showTrk_keeps (h : Keeps s x) : Keeps s (State.showTrk x) := by
  unfold State.showTrk
  extract_lets -merge +onlyGivenNames v1
  have h2 : Keeps s v1 := by
    unfold v1
    refine Keeps.forEach ?_ (fun y3 y4 h5 => ?_)
    · exact h
    · exact State.setFlag_keeps h5
  clear_value v1
  refine Keeps.ite ?_ (fun _ => ?_)
  · exact h2
  · exact State.islAlarm_keeps (State.notice_keeps (State.wr_keeps h2))

theorem State.islItem_keeps {p2} {p3} (h : Keeps s x) : Keeps s (State.islItem x p2 p3) := by
  unfold State.islItem
  extract_lets -merge +onlyGivenNames v1
  clear_value v1
  refine Keeps.forEach ?_ (fun y2 y3 h4 => ?_)
  · exact h
  · extract_lets -merge +onlyGivenNames v5 v6
    clear_value v5 v6
    exact State.showTrk_keeps (State.setTrk_keeps h4)

theorem execCoherencyUpdate_keeps {p1} : KeepsRes s (execCoherencyUpdate p1 s) := by
  have h := Keeps.refl s
  unfold execCoherencyUpdate
  extract_lets -merge +onlyGivenNames v1
  have h2 : Keeps s v1 := State.advance_keeps h
  clear_value v1
  split
  · split
    · refine KeepsRes.next ?_
      refine Keeps.ite ?_ (fun _ => ?_)
      · exact h2
      · exact State.markRan_keeps (State.islItem_keeps h2)
    · exact KeepsRes.next h2
  · exact KeepsRes.next h2

theorem State.clusterRun_keeps (h : Keeps s x) : Keeps s (State.clusterRun x) := by
  unfold State.clusterRun
  extract_lets -merge +onlyGivenNames v1
  clear_value v1
  exact State.inc_keeps (Keeps.fields h)

theorem execClustering_keeps {p1} : KeepsRes s (execClustering p1 s) := by
  have h := Keeps.refl s
  unfold execClustering
  extract_lets -merge +onlyGivenNames v1
  have h2 : Keeps s v1 := State.advance_keeps h
  clear_value v1
  split
  · refine KeepsRes.next ?_
    refine Keeps.ite ?_ (fun _ => ?_)
    · exact h2
    · exact State.markRan_keeps (State.clusterRun_keeps h2)
  · exact KeepsRes.next h2

theorem State.showIsl_keeps (h : Keeps s x) : Keeps s (State.showIsl x) := by
  unfold State.showIsl
  extract_lets -merge +onlyGivenNames v1
  clear_value v1
  exact State.wr_keeps (State.wr_keeps (State.setFlag_keeps h))

theorem State.setCg_keeps {p2} {p3} (h : Keeps s x) : Keeps s (State.setCg x p2 p3) := by
  unfold State.setCg
  exact Keeps.fields h

theorem State.cgEnter_keeps {p2} {p3} {p4} (h : Keeps s x) : Keeps s (State.cgEnter x p2 p3 p4) := by
  unfold State.cgEnter
  exact State.wr_keeps (State.wr_keeps (State.wr_keeps h))

theorem State.cgCount_keeps {p2} (h : Keeps s x) : Keeps s (State.cgCount x p2) := by
  unfold State.cgCount
  exact State.setFlag_keeps (State.wr_keeps (State.wr_keeps (State.setFlag_keeps (State.wr_keeps h))))

theorem State.applyClustering_keeps {p2} {p3} (h : Keeps s x) : Keeps s (State.applyClustering x p2 p3) := by
  unfold State.applyClustering
  split
  · exact h
  · refine Keeps.ite ?_ (fun _ => ?_)
    · extract_lets -merge +onlyGivenNames v1 v2 v3 v4
      clear_value v1 v2 v3 v4
      extract_lets -merge +onlyGivenNames v5
      have h6 : Keeps s v5 := Keeps.fields h
      clear_value v5
      extract_lets -merge +onlyGivenNames v7
      have h8 : Keeps s v7 := State.inc_keeps h6
      clear_value v7
      extract_lets -merge +onlyGivenNames v9
      have h10 : Keeps s v9 := by
        unfold v9
        refine Keeps.forEach ?_ (fun y11 y12 h13 => ?_)
        · exact h8
        · split
          · exact State.wr_keeps (State.wr_keeps (State.setFlag_keeps h13))
          · exact State.wr_keeps (State.wr_keeps (State.setFlag_keeps h13))
      clear_value v9
      extract_lets -merge +onlyGivenNames v14
      have h15 : Keeps s v14 := by
        unfold v14
        refine Keeps.forEach ?_ (fun y16 y17 h18 => ?_)
        · exact h10
        · extract_lets -merge +onlyGivenNames v19
          clear_value v19
          extract_lets -merge +onlyGivenNames v20
          have h21 : Keeps s v20 := Keeps.fields h18
          clear_value v20
          refine Keeps.forEach ?_ (fun y22 y23 h24 => ?_)
          · exact h21
          · exact State.put_keeps h24
      clear_value v14
      extract_lets -merge +onlyGivenNames v25
      have h26 : Keeps s v25 := by
        unfold v25
        refine Keeps.forEach ?_ (fun y27 y28 h29 => ?_)
        · exact h15
        · exact State.cgEnter_keeps (State.setFlag_keeps h29)
      clear_value v25
      extract_lets -merge +onlyGivenNames v30
      have h31 : Keeps s v30 := by
        unfold v30
        refine State.inc_keeps ?_
        refine Keeps.forEach ?_ (fun y32 y33 h34 => ?_)
        · exact h26
        · exact State.cgCount_keeps h34
      clear_value v30
      extract_lets -merge +onlyGivenNames v35
      have h36 : Keeps s v35 := State.islRec_keeps (State.notice_keeps (State.showIsl_keeps (State.wr_keeps h31)))
      clear_value v35
      extract_lets -merge +onlyGivenNames v37
      have h38 : Keeps s v37 := by
        unfold v37
        refine Keeps.ite ?_ (fun _ => ?_)
        · exact State.notice_keeps h36
        · exact h36
      clear_value v37
      refine Keeps.ite ?_ (fun _ => ?_)
      · exact State.digestReached_keeps h38
      · exact State.plkSend_keeps h38
    · exact h

theorem State.tieRead_keeps {p2} {p3} {p4} (h : Keeps s x) : Keeps s (State.tieRead x p2 p3 p4) := by
  unfold State.tieRead
  extract_lets -merge +onlyGivenNames v1 v2
  clear_value v1 v2
  extract_lets -merge +onlyGivenNames v3
  have h4 : Keeps s v3 := by
    unfold v3
    split
    · extract_lets -merge +onlyGivenNames v5
      clear_value v5
      exact State.wr_keeps (State.wr_keeps h)
    · exact State.tieAged_keeps h
  clear_value v3
  exact State.tieTold_keeps h4

theorem State.cgMeasure_keeps {p2} {p3} (h : Keeps s x) : Keeps s (State.cgMeasure x p2 p3) := by
  unfold State.cgMeasure
  extract_lets -merge +onlyGivenNames v1
  clear_value v1
  extract_lets -merge +onlyGivenNames v2
  have h3 : Keeps s v2 := State.wr_keeps (State.cgCount_keeps h)
  clear_value v2
  split
  rename_i z4 z5 z6 z7
  have h8 : Keeps s z6 := Keeps.of_snd z7 (State.draw_keeps h3)
  split
  rename_i z9 z10 z11 z12
  have h13 : Keeps s z11 := Keeps.of_snd z12 (State.draw_keeps h8)
  extract_lets -merge +onlyGivenNames v14 v15
  clear_value v14 v15
  extract_lets -merge +onlyGivenNames v16
  have h17 : Keeps s v16 := State.wr_keeps (State.wr_keeps h13)
  clear_value v16
  exact State.setCg_keeps h17

theorem State.cgDiffs_keeps {p2} {p3} {p4} (h : Keeps s x) : Keeps s (State.cgDiffs x p2 p3 p4) := by
  unfold State.cgDiffs
  split
  rename_i z1 z2 z3 z4
  have h5 : Keeps s z3 := Keeps.of_snd z4 (State.draw_keeps h)
  split
  rename_i z6 z7 z8 z9
  have h10 : Keeps s z8 := Keeps.of_snd z9 (State.draw_keeps h5)
  extract_lets -merge +onlyGivenNames v11
  clear_value v11
  exact State.wr_keeps (State.wr_keeps h10)

theorem State.declare_keeps {p2} {p3} {p4} {p5} (h : Keeps s x) : Keeps s (State.declare x p2 p3 p4 p5) := by
  unfold State.declare
  extract_lets -merge +onlyGivenNames v1
  have h2 : Keeps s v1 := State.wr_keeps (State.setFlag_keeps (State.cgEnter_keeps h))
  clear_value v1
  exact State.islRec_keeps (State.notice_keeps (State.showIsl_keeps (State.inc_keeps h2)))

theorem State.sepState_keeps {p2} {p3} {p4} {p5} {p6} (h : Keeps s x) : Keeps s (State.sepState x p2 p3 p4 p5 p6) := by
  unfold State.sepState
  extract_lets -merge +onlyGivenNames v1
  clear_value v1
  refine Keeps.ite ?_ (fun _ => ?_)
  · refine Keeps.ite ?_ (fun _ => ?_)
    · refine Keeps.ite ?_ (fun _ => ?_)
      · refine Keeps.ite ?_ (fun _ => ?_)
        · exact h
        · exact State.islRec_keeps (State.showIsl_keeps (State.cgEnter_keeps h))
      · extract_lets -merge +onlyGivenNames v2
        clear_value v2
        extract_lets -merge +onlyGivenNames v3
        have h4 : Keeps s v3 := State.wr_keeps h
        clear_value v3
        refine Keeps.ite ?_ (fun _ => ?_)
        · exact h4
        · exact State.islRec_keeps (State.notice_keeps (State.showIsl_keeps (State.wr_keeps (State.cgEnter_keeps h4))))
    · refine Keeps.ite ?_ (fun _ => ?_)
      · refine Keeps.ite ?_ (fun _ => ?_)
        · exact h
        · exact State.islRec_keeps (State.showIsl_keeps (State.inc_keeps (State.cgEnter_keeps h)))
      · exact State.declare_keeps h
  · refine Keeps.ite ?_ (fun _ => ?_)
    · exact h
    · exact State.islRec_keeps (State.notice_keeps (State.showIsl_keeps (State.setCg_keeps (State.cgEnter_keeps h))))

theorem State.darkCheck_keeps {p2} {p3} {p4} (h : Keeps s x) : Keeps s (State.darkCheck x p2 p3 p4) := by
  unfold State.darkCheck
  extract_lets -merge +onlyGivenNames v1 v2
  clear_value v1 v2
  refine Keeps.ite ?_ (fun _ => ?_)
  · refine Keeps.ite ?_ (fun _ => ?_)
    · refine Keeps.ite ?_ (fun _ => ?_)
      · exact h
      · exact State.islRec_keeps (State.notice_keeps (State.showIsl_keeps (State.cgEnter_keeps h)))
    · exact State.declare_keeps h
  · exact h

theorem State.sepItem_keeps {p2} {p3} {p4} (h : Keeps s x) : Keeps s (State.sepItem x p2 p3 p4) := by
  unfold State.sepItem
  extract_lets -merge +onlyGivenNames v1 v2
  clear_value v1 v2
  extract_lets -merge +onlyGivenNames v3
  have h4 : Keeps s v3 := by
    unfold v3
    refine Keeps.forEach ?_ (fun y5 y6 h7 => ?_)
    · exact h
    · exact State.tieRead_keeps h7
  clear_value v3
  extract_lets -merge +onlyGivenNames v8
  have h9 : Keeps s v8 := by
    unfold v8
    refine Keeps.forEach ?_ (fun y10 y11 h12 => ?_)
    · exact h4
    · exact State.setFlag_keeps h12
  clear_value v8
  extract_lets -merge +onlyGivenNames v13
  have h14 : Keeps s v13 := State.inc_keeps h9
  clear_value v13
  extract_lets -merge +onlyGivenNames v15
  have h16 : Keeps s v15 := by
    unfold v15
    refine Keeps.forEach ?_ (fun y17 y18 h19 => ?_)
    · exact h14
    · exact State.cgMeasure_keeps h19
  clear_value v15
  extract_lets -merge +onlyGivenNames v20 v21
  clear_value v20 v21
  extract_lets -merge +onlyGivenNames v22
  have h23 : Keeps s v22 := by
    unfold v22
    refine Keeps.forEach ?_ (fun y24 y25 h26 => ?_)
    · exact h16
    · exact State.cgDiffs_keeps h26
  clear_value v22
  extract_lets -merge +onlyGivenNames v27
  have h28 : Keeps s v27 := by
    unfold v27
    refine Keeps.forEach ?_ (fun y29 y30 h31 => ?_)
    · exact h23
    · exact State.darkCheck_keeps (State.sepState_keeps h31)
  clear_value v27
  extract_lets -merge +onlyGivenNames v32
  clear_value v32
  extract_lets -merge +onlyGivenNames v33
  have h34 : Keeps s v33 := Keeps.fields h28
  clear_value v33
  exact State.showIsl_keeps (State.inc_keeps (State.inc_keeps h34))

theorem execSeparation_keeps {p1} : KeepsRes s (execSeparation p1 s) := by
  have h := Keeps.refl s
  unfold execSeparation
  extract_lets -merge +onlyGivenNames v1
  have h2 : Keeps s v1 := State.advance_keeps h
  clear_value v1
  split
  · split
    · refine KeepsRes.next ?_
      refine Keeps.ite ?_ (fun _ => ?_)
      · exact h2
      · exact State.markRan_keeps (State.sepItem_keeps h2)
    · exact KeepsRes.next h2
  · exact KeepsRes.next h2

theorem State.setFallbacks_keeps (h : Keeps s x) : Keeps s (State.setFallbacks x) := by
  unfold State.setFallbacks
  refine Keeps.forEach ?_ (fun y1 y2 h3 => ?_)
  · exact h
  · exact State.setFallback_keeps h3

theorem State.showActive_keeps (h : Keeps s x) : Keeps s (State.showActive x) := by
  unfold State.showActive
  extract_lets -merge +onlyGivenNames v1
  clear_value v1
  refine Keeps.ite ?_ (fun _ => ?_)
  · exact State.notice_keeps (State.wr_keeps h)
  · exact h

theorem State.setActive_keeps {p2} (h : Keeps s x) : Keeps s (State.setActive x p2) := by
  unfold State.setActive
  extract_lets -merge +onlyGivenNames v1 v2
  clear_value v1 v2
  refine Keeps.ite ?_ (fun _ => ?_)
  · extract_lets -merge +onlyGivenNames v3
    clear_value v3
    extract_lets -merge +onlyGivenNames v4
    have h5 : Keeps s v4 := Keeps.fields h
    clear_value v4
    extract_lets -merge +onlyGivenNames v6
    have h7 : Keeps s v6 := State.showActive_keeps h5
    clear_value v6
    extract_lets -merge +onlyGivenNames v8
    have h9 : Keeps s v8 := by
      unfold v8
      refine Keeps.ite ?_ (fun _ => ?_)
      · exact h7
      · refine Keeps.forEach ?_ (fun y10 y11 h12 => ?_)
        · exact h7
        · exact State.wake_keeps h12
    clear_value v8
    exact State.setFallbacks_keeps h9
  · exact h

theorem State.showHomed_keeps (h : Keeps s x) : Keeps s (State.showHomed x) := by
  unfold State.showHomed
  extract_lets -merge +onlyGivenNames v1
  clear_value v1
  refine Keeps.forEach ?_ (fun y2 y3 h4 => ?_)
  · exact h
  · exact State.wr_keeps h4

theorem State.restSurplus_keeps (h : Keeps s x) : Keeps s (State.restSurplus x) := by
  unfold State.restSurplus
  refine Keeps.forEach ?_ (fun y1 y2 h3 => ?_)
  · exact h
  · refine Keeps.ite ?_ (fun _ => ?_)
    · exact h3
    · exact State.sorterOff_keeps h3

theorem State.homeAll_keeps (h : Keeps s x) : Keeps s (State.homeAll x) := by
  unfold State.homeAll
  extract_lets -merge +onlyGivenNames v1 v2 v3 v4
  clear_value v1 v2 v3 v4
  extract_lets -merge +onlyGivenNames v5
  have h6 : ∀ b1 b2, Keeps s b1.1 → Keeps s (v5 b1 b2).1 := by
    intro y7 y8 h9
    unfold v5
    split
    · refine Keeps.ite1 ?_ (fun _ => ?_)
      · exact Keeps.mk1 (State.setHome_keeps h9)
      · exact Keeps.mk1 (State.setHome_keeps h9)
    · exact Keeps.mk1 (State.setHome_keeps h9)
  clear_value v5
  extract_lets -merge +onlyGivenNames v10
  have h11 : Keeps s v10 := by
    unfold v10
    refine Keeps.foldl1 ?_ (fun y12 y13 h14 => ?_)
    · exact Keeps.mk1 h
    · exact h6 _ _ h14
  clear_value v10
  extract_lets -merge +onlyGivenNames v15
  have h16 : Keeps s v15 := by
    unfold v15
    refine Keeps.foldl1 ?_ (fun y17 y18 h19 => ?_)
    · exact Keeps.mk1 h11
    · exact h6 _ _ h19
  clear_value v15
  extract_lets -merge +onlyGivenNames v20
  have h21 : Keeps s v20 := by
    unfold v20
    refine Keeps.foldl1 ?_ (fun y22 y23 h24 => ?_)
    · exact Keeps.mk1 h16
    · exact h6 _ _ h24
  clear_value v20
  extract_lets -merge +onlyGivenNames v25
  clear_value v25
  extract_lets -merge +onlyGivenNames v26
  have h27 : Keeps s v26 := Keeps.fields h21
  clear_value v26
  exact State.showHomed_keeps (State.setFallbacks_keeps (State.showActive_keeps h27))

theorem State.homeKept_keeps (h : Keeps s x) : Keeps s (State.homeKept x) := by
  unfold State.homeKept
  extract_lets -merge +onlyGivenNames v1 v2
  clear_value v1 v2
  extract_lets -merge +onlyGivenNames v3
  have h4 : Keeps s v3 := Keeps.fields h
  clear_value v3
  extract_lets -merge +onlyGivenNames v5
  have h6 : Keeps s v5 := by
    unfold v5
    refine Keeps.forEach ?_ (fun y7 y8 h9 => ?_)
    · exact h4
    · refine Keeps.ite ?_ (fun _ => ?_)
      · exact h9
      · exact State.setHome_keeps h9
  clear_value v5
  extract_lets -merge +onlyGivenNames v10
  have h11 : Keeps s v10 := by
    unfold v10
    refine Keeps.forEach ?_ (fun y12 y13 h14 => ?_)
    · exact h6
    · split
      · refine Keeps.ite ?_ (fun _ => ?_)
        · exact h14
        · exact State.notice_keeps (Keeps.fields h14)
      · exact h14
  clear_value v10
  exact State.showHomed_keeps (State.setFallbacks_keeps (State.showActive_keeps h11))

theorem State.scheduleMove_keeps {p2} {p3} (h : Keeps s x) : Keeps s (State.scheduleMove x p2 p3) := by
  unfold State.scheduleMove
  refine Keeps.ite ?_ (fun _ => ?_)
  · exact State.showMoves_keeps (Keeps.fields h)
  · exact h

theorem State.beginMove_keeps {p2} (h : Keeps s x) : Keeps s (State.beginMove x p2) := by
  unfold State.beginMove
  split
  · exact h
  · extract_lets -merge +onlyGivenNames v1
    clear_value v1
    extract_lets -merge +onlyGivenNames v2
    have h3 : Keeps s v2 := Keeps.fields h
    clear_value v2
    extract_lets -merge +onlyGivenNames v4
    have h5 : Keeps s v4 := State.moveQuiet_keeps (State.mapItems_keeps h3)
    clear_value v4
    exact State.showDepth_keeps h5

theorem State.beginMoves_keeps (h : Keeps s x) : Keeps s (State.beginMoves x) := by
  unfold State.beginMoves
  extract_lets -merge +onlyGivenNames v1
  clear_value v1
  extract_lets -merge +onlyGivenNames v2
  have h3 : Keeps s v2 := Keeps.fields h
  clear_value v2
  extract_lets -merge +onlyGivenNames v4
  clear_value v4
  refine State.showMoves_keeps ?_
  refine Keeps.forEach ?_ (fun y5 y6 h7 => ?_)
  · exact h3
  · exact State.beginMove_keeps h7

theorem State.finishMove_keeps {p2} (h : Keeps s x) : Keeps s (State.finishMove x p2) := by
  unfold State.finishMove
  refine Keeps.ite ?_ (fun _ => ?_)
  · extract_lets -merge +onlyGivenNames v1
    clear_value v1
    extract_lets -merge +onlyGivenNames v2
    have h3 : Keeps s v2 := by
      unfold v2
      refine Keeps.ite ?_ (fun _ => ?_)
      · exact h
      · exact State.resumeGrp_keeps h
    clear_value v2
    extract_lets -merge +onlyGivenNames v4
    have h5 : Keeps s v4 := State.setFallback_keeps (State.rehome_keeps h3)
    clear_value v4
    extract_lets -merge +onlyGivenNames v6
    clear_value v6
    extract_lets -merge +onlyGivenNames v7
    have h8 : Keeps s v7 := Keeps.fields h5
    clear_value v7
    exact State.restSurplus_keeps (State.releaseHeld_keeps (State.endMove_keeps h8))
  · exact State.releaseHeld_keeps (State.endMove_keeps h)

theorem execFlowStateCopyDone_keeps {p1} {p2} : KeepsRes s (execFlowStateCopyDone p1 p2 s) := by
  have h := Keeps.refl s
  unfold execFlowStateCopyDone
  extract_lets -merge +onlyGivenNames v1
  have h2 : Keeps s v1 := State.advance_keeps h
  clear_value v1
  split
  · exact KeepsRes.next (State.finishMove_keeps h2)
  · exact KeepsRes.next h2

theorem State.sealTables_keeps (h : Keeps s x) : Keeps s (State.sealTables x) := by
  unfold State.sealTables
  exact Keeps.fields h

theorem State.loadUpdate_keeps (h : Keeps s x) : Keeps s (State.loadUpdate x) := by
  unfold State.loadUpdate
  extract_lets -merge +onlyGivenNames v1 v2 v3
  clear_value v1 v2 v3
  extract_lets -merge +onlyGivenNames v4
  have h5 : Keeps s v4 := Keeps.fields h
  clear_value v4
  extract_lets -merge +onlyGivenNames v6
  have h7 : Keeps s v6 := by
    unfold v6
    refine Keeps.forEach ?_ (fun y8 y9 h10 => ?_)
    · exact h5
    · exact State.stabWr_keeps h10
  clear_value v6
  exact State.showLoads_keeps (State.sealTables_keeps h7)

theorem State.homeLoose_keeps (h : Keeps s x) : Keeps s (State.homeLoose x) := by
  unfold State.homeLoose
  extract_lets -merge +onlyGivenNames v1
  clear_value v1
  split
  · exact h
  · refine Keeps.forEach ?_ (fun y2 y3 h4 => ?_)
    · exact h
    · refine State.setFallback_keeps ?_
      refine Keeps.ite ?_ (fun _ => ?_)
      · exact State.inc_keeps (State.setHome_keeps h4)
      · exact State.rehome_keeps h4

theorem State.placementPass_keeps {p2} (h : Keeps s x) : Keeps s (State.placementPass x p2) := by
  unfold State.placementPass
  extract_lets -merge +onlyGivenNames v1 v2 v3
  clear_value v1 v2 v3
  extract_lets -merge +onlyGivenNames v4
  have h5 : Keeps s v4 := Keeps.fields h
  clear_value v4
  extract_lets -merge +onlyGivenNames v6
  have h7 : Keeps s v6 := State.sealTables_keeps h5
  clear_value v6
  extract_lets -merge +onlyGivenNames v8
  have h9 : Keeps s v8 := by
    unfold v8
    refine Keeps.forEach ?_ (fun y10 y11 h12 => ?_)
    · exact h7
    · refine Keeps.forEach ?_ (fun y13 y14 h15 => ?_)
      · exact h12
      · exact State.stabWr_keeps h15
  clear_value v8
  extract_lets -merge +onlyGivenNames v16
  clear_value v16
  extract_lets -merge +onlyGivenNames v17
  have h18 : Keeps s v17 := State.homeLoose_keeps (State.setActive_keeps h9)
  clear_value v17
  split
  extract_lets -merge +onlyGivenNames v19
  have h20 : Keeps s v19 := by
    unfold v19
    refine Keeps.forEach ?_ (fun y21 y22 h23 => ?_)
    · exact h18
    · refine Keeps.forEach ?_ (fun y24 y25 h26 => ?_)
      · exact h23
      · exact State.scheduleMove_keeps h26
  clear_value v19
  extract_lets -merge +onlyGivenNames v27
  have h28 : Keeps s v27 := State.wr_keeps (State.wr_keeps (State.wr_keeps (State.inc_keeps h20)))
  clear_value v27
  exact State.notice_keeps h28

theorem State.shedLoad_keeps {n p k} (h : Keeps s x) : Keeps s (State.shedLoad x n p k).1 := by
  induction k generalizing x p with
  | zero => exact h
  | succ k ih =>
    unfold State.shedLoad
    refine Keeps.ite1 ?_ fun _ => h
    extract_lets mine
    split
    · exact h
    · extract_lets room
      split
      rename_i z a d e
      have ha : Keeps s a := by
        split at e
        · cases e; exact h
        · split at e
          · cases e; exact State.setActive_keeps h
          · cases e; exact h
      split
      · exact ha
      · exact ih (Keeps.forEach ha fun _ _ hy => State.scheduleMove_keeps hy)

theorem State.rebalanceRun_keeps (h : Keeps s x) : Keeps s (State.rebalanceRun x) := by
  unfold State.rebalanceRun
  refine Keeps.ite ?_ (fun _ => ?_)
  · extract_lets -merge +onlyGivenNames v1 v2
    clear_value v1 v2
    extract_lets -merge +onlyGivenNames v3
    have h4 : Keeps s v3 := Keeps.fields h
    clear_value v3
    extract_lets -merge +onlyGivenNames v5
    clear_value v5
    extract_lets -merge +onlyGivenNames v6
    have h7 : Keeps s v6 := by
      unfold v6
      refine Keeps.forEach ?_ (fun y8 y9 h10 => ?_)
      · exact h4
      · exact State.shedLoad_keeps h10
    clear_value v6
    extract_lets -merge +onlyGivenNames v11 v12
    clear_value v11 v12
    exact State.showMoves_keeps (Keeps.fields h7)
  · exact h

theorem State.pinFlow_keeps {p2} {p3} {p4} (h : Keeps s x) : Keeps s (State.pinFlow x p2 p3 p4) := by
  unfold State.pinFlow
  split
  · exact h
  · refine Keeps.ite ?_ (fun _ => ?_)
    · refine Keeps.ite ?_ (fun _ => ?_)
      · refine Keeps.ite ?_ (fun _ => ?_)
        · extract_lets -merge +onlyGivenNames v1
          have h2 : Keeps s v1 := by
            unfold v1
            refine Keeps.ite ?_ (fun _ => ?_)
            · exact State.setActive_keeps h
            · exact h
          clear_value v1
          extract_lets -merge +onlyGivenNames v3
          clear_value v3
          extract_lets -merge +onlyGivenNames v4
          have h5 : Keeps s v4 := Keeps.fields h2
          clear_value v4
          exact State.beginMove_keeps (State.scheduleMove_keeps h5)
        · exact h
      · refine Keeps.ite ?_ (fun _ => ?_)
        · extract_lets -merge +onlyGivenNames v6
          clear_value v6
          extract_lets -merge +onlyGivenNames v7
          have h8 : Keeps s v7 := Keeps.fields h
          clear_value v7
          extract_lets -merge +onlyGivenNames v9
          clear_value v9
          refine State.notice_keeps ?_
          refine Keeps.ite ?_ (fun _ => ?_)
          · exact State.setFallback_keeps (State.rehome_keeps h8)
          · exact h8
        · exact h
    · exact h

theorem State.leaveFenced_keeps (h : Keeps s x) : Keeps s (State.leaveFenced x) := by
  unfold State.leaveFenced
  refine Keeps.forEach ?_ (fun y1 y2 h3 => ?_)
  · exact h
  · extract_lets -merge +onlyGivenNames v4
    clear_value v4
    extract_lets -merge +onlyGivenNames v5
    have h6 : Keeps s v5 := State.setFallback_keeps (State.rehome_keeps h3)
    clear_value v5
    refine Keeps.ite ?_ (fun _ => ?_)
    · exact h6
    · exact State.showGrp_keeps (State.resumeGrp_keeps h6)

theorem State.activeDue_keeps (h : Keeps s x) : Keeps s (State.activeDue x) := by
  unfold State.activeDue
  refine Keeps.ite ?_ (fun _ => ?_)
  · exact h
  · exact State.setActive_keeps h

theorem State.placementBoundary_keeps {p2} (h : Keeps s x) : Keeps s (State.placementBoundary x p2) := by
  unfold State.placementBoundary
  extract_lets -merge +onlyGivenNames v1 v2 v3
  clear_value v1 v2 v3
  extract_lets -merge +onlyGivenNames v4
  have h5 : Keeps s v4 := Keeps.fields h
  clear_value v4
  extract_lets -merge +onlyGivenNames v6
  have h7 : Keeps s v6 := State.activeDue_keeps h5
  clear_value v6
  extract_lets -merge +onlyGivenNames v8
  clear_value v8
  extract_lets -merge +onlyGivenNames v9
  have h10 : Keeps s v9 := State.leaveFenced_keeps h7
  clear_value v9
  extract_lets -merge +onlyGivenNames v11
  have h12 : Keeps s v11 := by
    unfold v11
    refine Keeps.forEach ?_ (fun y13 y14 h15 => ?_)
    · exact h10
    · exact State.pinFlow_keeps h15
  clear_value v11
  extract_lets -merge +onlyGivenNames v16
  have h17 : Keeps s v16 := by
    unfold v16
    refine Keeps.ite ?_ (fun _ => ?_)
    · exact h12
    · exact State.loadUpdate_keeps h12
  clear_value v16
  refine Keeps.ite ?_ (fun _ => ?_)
  · exact State.restSurplus_keeps (Keeps.fields h17)
  · extract_lets -merge +onlyGivenNames v18
    have h19 : Keeps s v18 := State.rebalanceRun_keeps h17
    clear_value v18
    extract_lets -merge +onlyGivenNames v20
    have h21 : Keeps s v20 := by
      unfold v20
      refine Keeps.ite ?_ (fun _ => ?_)
      · exact h19
      · exact State.placementPass_keeps h19
    clear_value v20
    exact State.restSurplus_keeps (State.beginMoves_keeps h21)

theorem State.setAm_keeps {p2} {p3} (h : Keeps s x) : Keeps s (State.setAm x p2 p3) := by
  unfold State.setAm
  exact Keeps.fields h

theorem State.amRest_keeps {p2} (h : Keeps s x) : Keeps s (State.amRest x p2) := by
  unfold State.amRest
  exact State.wr_keeps (State.wr_keeps (State.setFlag_keeps (State.setFlag_keeps (State.wr_keeps (State.wr_keeps h)))))

theorem State.amCheck_keeps {p2} (h : Keeps s x) : Keeps s (State.amCheck x p2) := by
  unfold State.amCheck
  extract_lets -merge +onlyGivenNames v1 v2 v3
  clear_value v1 v2 v3
  extract_lets -merge +onlyGivenNames v4
  have h5 : Keeps s v4 := State.setFlag_keeps h
  clear_value v4
  refine Keeps.ite ?_ (fun _ => ?_)
  · extract_lets -merge +onlyGivenNames v6
    clear_value v6
    extract_lets -merge +onlyGivenNames v7
    have h8 : Keeps s v7 := by
      unfold v7
      refine Keeps.ite ?_ (fun _ => ?_)
      · exact h5
      · exact State.setAm_keeps (State.amRest_keeps h5)
    clear_value v7
    refine Keeps.ite ?_ (fun _ => ?_)
    · exact h8
    · extract_lets -merge +onlyGivenNames v9
      have h10 : Keeps s v9 := State.wr_keeps h8
      clear_value v9
      refine Keeps.ite ?_ (fun _ => ?_)
      · exact h10
      · exact State.logEvent_keeps h10
  · extract_lets -merge +onlyGivenNames v11 v12
    clear_value v11 v12
    extract_lets -merge +onlyGivenNames v13
    have h14 : Keeps s v13 := State.setAm_keeps (State.amRest_keeps h5)
    clear_value v13
    refine Keeps.ite ?_ (fun _ => ?_)
    · exact h14
    · exact State.notice_keeps h14

theorem State.checkMachines_keeps (h : Keeps s x) : Keeps s (State.checkMachines x) := by
  unfold State.checkMachines
  refine State.stdPublish_keeps ?_
  refine Keeps.forEach ?_ (fun y1 y2 h3 => ?_)
  · exact h
  · exact State.amCheck_keeps h3

theorem State.collect_keeps {p2} {p3} {p4} {p5} (h : Keeps s x) : Keeps s (State.collect x p2 p3 p4 p5) := by
  unfold State.collect
  refine Keeps.forEach ?_ (fun y1 y2 h3 => ?_)
  · exact h
  · extract_lets -merge +onlyGivenNames v4 v5
    clear_value v4 v5
    refine Keeps.ite ?_ (fun _ => ?_)
    · exact Keeps.fields h3
    · exact h3

theorem State.pubFlush_keeps {p2} {p3} (h : Keeps s x) : Keeps s (State.pubFlush x p2 p3) := by
  unfold State.pubFlush
  refine Keeps.ite ?_ (fun _ => ?_)
  · extract_lets -merge +onlyGivenNames v1 v2
    clear_value v1 v2
    extract_lets -merge +onlyGivenNames v3
    have h4 : Keeps s v3 := by
      unfold v3
      refine Keeps.forEach ?_ (fun y5 y6 h7 => ?_)
      · exact h
      · extract_lets -merge +onlyGivenNames v8
        clear_value v8
        split
        · extract_lets -merge +onlyGivenNames v9
          clear_value v9
          extract_lets -merge +onlyGivenNames v10
          have h11 : Keeps s v10 := Keeps.fields h7
          clear_value v10
          exact State.pubRound_keeps h11
        · exact h7
    clear_value v3
    refine Keeps.ite ?_ (fun _ => ?_)
    · exact State.stdPublish_keeps h4
    · exact h4
  · exact h

theorem State.keepOut_keeps {p2} {p3} {p4} (h : Keeps s x) : Keeps s (State.keepOut x p2 p3 p4) := by
  unfold State.keepOut
  extract_lets -merge +onlyGivenNames v1 v2
  clear_value v1 v2
  exact Keeps.fields h

theorem State.amStep_keeps {p2} {p3} {p4} {p5} {p6} (h : Keeps s x) : Keeps s (State.amStep x p2 p3 p4 p5 p6) := by
  unfold State.amStep
  extract_lets -merge +onlyGivenNames v1 v2 v3 v4 v5
  clear_value v1 v2 v3 v4 v5
  split
  extract_lets -merge +onlyGivenNames v6
  clear_value v6
  extract_lets -merge +onlyGivenNames v7
  have h8 : Keeps s v7 := State.keepOut_keeps h
  clear_value v7
  extract_lets -merge +onlyGivenNames v9
  have h10 : Keeps s v9 := Keeps.takes h8
  clear_value v9
  extract_lets -merge +onlyGivenNames v11
  have h12 : Keeps s v11 := State.setAm_keeps h10
  clear_value v11
  extract_lets -merge +onlyGivenNames v13
  have h14 : Keeps s v13 := by
    unfold v13
    refine Keeps.ite ?_ (fun _ => ?_)
    · exact h12
    · exact State.setFlag_keeps h12
  clear_value v13
  extract_lets -merge +onlyGivenNames v15
  have h16 : Keeps s v15 := State.wr_keeps (State.inc_keeps (State.wr_keeps (State.wr_keeps h14)))
  clear_value v15
  extract_lets -merge +onlyGivenNames v17
  have h18 : Keeps s v17 := by
    unfold v17
    refine Keeps.ite ?_ (fun _ => ?_)
    · exact h16
    · exact State.setFlag_keeps (State.inc_keeps (State.wr_keeps (State.wr_keeps h16)))
  clear_value v17
  extract_lets -merge +onlyGivenNames v19
  clear_value v19
  extract_lets -merge +onlyGivenNames v20
  have h21 : Keeps s v20 := State.wr_keeps h18
  clear_value v20
  extract_lets -merge +onlyGivenNames v22
  have h23 : Keeps s v22 := by
    unfold v22
    refine Keeps.ite ?_ (fun _ => ?_)
    · exact h21
    · exact State.notice_keeps h21
  clear_value v22
  extract_lets -merge +onlyGivenNames v24 v25
  clear_value v24 v25
  extract_lets -merge +onlyGivenNames v26
  have h27 : Keeps s v26 := State.notice_keeps h23
  clear_value v26
  extract_lets -merge +onlyGivenNames v28
  have h29 : Keeps s v28 := by
    unfold v28
    refine Keeps.ite ?_ (fun _ => ?_)
    · exact h27
    · exact State.notice_keeps h27
  clear_value v28
  extract_lets -merge +onlyGivenNames v30
  have h31 : Keeps s v30 := by
    unfold v30
    refine Keeps.ite ?_ (fun _ => ?_)
    · exact h23
    · exact State.shedMark_keeps (State.alarmRec_keeps h29)
  clear_value v30
  split
  rename_i z32 z33 z34 z35
  have h36 : Keeps s z33 := Keeps.of_fst z35 (State.showAlarms_keeps (Keeps.fields h31))
  exact State.collect_keeps h36

theorem execMachineStep_keeps {p1} {p2} : KeepsRes s (execMachineStep p1 p2 s) := by
  have h := Keeps.refl s
  unfold execMachineStep
  extract_lets -merge +onlyGivenNames v1
  have h2 : Keeps s v1 := State.advance_keeps h
  clear_value v1
  split
  · split
    · refine KeepsRes.next ?_
      refine Keeps.ite ?_ (fun _ => ?_)
      · exact h2
      · extract_lets -merge +onlyGivenNames v3 v4
        clear_value v3 v4
        extract_lets -merge +onlyGivenNames v5
        have h6 : Keeps s v5 := Keeps.fields h2
        clear_value v5
        extract_lets -merge +onlyGivenNames v7
        have h8 : Keeps s v7 := by
          unfold v7
          refine State.pubFlush_keeps ?_
          refine State.markRan_keeps ?_
          refine Keeps.ite ?_ (fun _ => ?_)
          · exact h6
          · exact State.amStep_keeps h6
        clear_value v7
        exact Keeps.fields h8
    · exact KeepsRes.next h2
  · exact KeepsRes.next h2

theorem State.ackWrite_keeps {p2} (h : Keeps s x) : Keeps s (State.ackWrite x p2) := by
  unfold State.ackWrite
  extract_lets -merge +onlyGivenNames v1 v2
  clear_value v1 v2
  extract_lets -merge +onlyGivenNames v3
  have h4 : Keeps s v3 := State.setWord_keeps h
  clear_value v3
  refine Keeps.ite ?_ (fun _ => ?_)
  · refine Keeps.ite ?_ (fun _ => ?_)
    · exact State.wr_keeps h4
    · split
      rename_i z5 z6 z7 z8
      have h9 : Keeps s z7 := Keeps.of_snd z8 (State.draw_keeps h4)
      extract_lets -merge +onlyGivenNames v10
      clear_value v10
      exact State.shedMark_keeps (State.alarmRec_keeps (State.wr_keeps (State.setFlag_keeps h9)))
  · exact State.wr_keeps h4

theorem execAlmAck_keeps {p1} : KeepsRes s (execAlmAck p1 s) := by
  have h := Keeps.refl s
  unfold execAlmAck
  refine KeepsRes.next ?_
  refine State.hostGate_keeps h (fun y1 h2 => ?_)
  exact State.ackWrite_keeps h2

theorem State.pubRepeat_keeps {p2} (h : Keeps s x) : Keeps s (State.pubRepeat x p2) := by
  unfold State.pubRepeat
  extract_lets -merge +onlyGivenNames v1 v2 v3
  clear_value v1 v2 v3
  extract_lets -merge +onlyGivenNames v4
  have h5 : Keeps s v4 := Keeps.fields h
  clear_value v4
  split
  rename_i z6 z7 z8 z9
  have h10 : Keeps s z7 := Keeps.of_fst z9 (State.pubSend_keeps (State.wr_keeps h5))
  extract_lets -merge +onlyGivenNames v11
  clear_value v11
  extract_lets -merge +onlyGivenNames v12
  have h13 : Keeps s v12 := Keeps.fields h10
  clear_value v12
  exact State.stdAlarm_keeps h13

theorem execGooseRetransmit_keeps {p1} {p2} : KeepsRes s (execGooseRetransmit p1 p2 s) := by
  have h := Keeps.refl s
  unfold execGooseRetransmit
  extract_lets -merge +onlyGivenNames v1
  have h2 : Keeps s v1 := State.advance_keeps h
  clear_value v1
  refine KeepsRes.next ?_
  refine Keeps.ite ?_ (fun _ => ?_)
  · exact h2
  · exact State.pubRepeat_keeps h2

theorem execStdAlarmExpiry_keeps {p1} {p2} : KeepsRes s (execStdAlarmExpiry p1 p2 s) := by
  have h := Keeps.refl s
  unfold execStdAlarmExpiry
  extract_lets -merge +onlyGivenNames v1
  have h2 : Keeps s v1 := State.advance_keeps h
  clear_value v1
  extract_lets -merge +onlyGivenNames v3
  clear_value v3
  refine KeepsRes.next ?_
  refine Keeps.ite ?_ (fun _ => ?_)
  · exact h2
  · exact State.stdAlarm_keeps h2

theorem execAlarmPinMinw_keeps {p1} {p2} : KeepsRes s (execAlarmPinMinw p1 p2 s) := by
  have h := Keeps.refl s
  unfold execAlarmPinMinw
  extract_lets -merge +onlyGivenNames v1
  have h2 : Keeps s v1 := State.advance_keeps h
  clear_value v1
  refine KeepsRes.next ?_
  refine Keeps.ite ?_ (fun _ => ?_)
  · extract_lets -merge +onlyGivenNames v3
    clear_value v3
    extract_lets -merge +onlyGivenNames v4
    have h5 : Keeps s v4 := Keeps.fields h2
    clear_value v4
    exact State.drivePins_keeps h5
  · exact h2

theorem execAlmOeNChange_keeps {p1} : KeepsRes s (execAlmOeNChange p1 s) := by
  have h := Keeps.refl s
  unfold execAlmOeNChange
  refine KeepsRes.ite ?_ ?_
  · extract_lets -merge +onlyGivenNames v1
    clear_value v1
    extract_lets -merge +onlyGivenNames v2
    have h3 : Keeps s v2 := Keeps.fields h
    clear_value v2
    exact KeepsRes.next (State.drivePins_keeps (State.notice_keeps (State.setFlag_keeps h3)))
  · exact KeepsRes.next h

theorem State.commitWrite_keeps {p2} {p3} (h : Keeps s x) : Keeps s (State.commitWrite x p2 p3) := by
  unfold State.commitWrite
  refine Keeps.ite ?_ (fun _ => ?_)
  · refine Keeps.ite ?_ (fun _ => ?_)
    · exact State.announce_keeps h
    · exact State.whlNotice_keeps (State.wr_keeps h)
  · exact h

theorem State.holdCfg_keeps {p2} {p3} {p4} (h : Keeps s x) : Keeps s (State.holdCfg x p2 p3 p4) := by
  unfold State.holdCfg
  extract_lets -merge +onlyGivenNames v1
  clear_value v1
  exact State.setRnd_keeps h

theorem State.roundOff_keeps {p2} (h : Keeps s x) : Keeps s (State.roundOff x p2) := by
  unfold State.roundOff
  extract_lets -merge +onlyGivenNames v1
  clear_value v1
  exact State.endFlow_keeps (State.setRnd_keeps h)

theorem State.roundSwitch_keeps {p2} {p3} (h : Keeps s x) : Keeps s (State.roundSwitch x p2 p3) := by
  unfold State.roundSwitch
  refine Keeps.ite ?_ (fun _ => ?_)
  · refine State.checkMachines_keeps ?_
    refine Keeps.ite ?_ (fun _ => ?_)
    · exact h
    · exact State.roundOff_keeps h
  · exact h

theorem State.rndWrite_keeps {p2} {p3} {p4} (h : Keeps s x) : Keeps s (State.rndWrite x p2 p3 p4) := by
  unfold State.rndWrite
  refine Keeps.ite ?_ (fun _ => ?_)
  · refine Keeps.ite ?_ (fun _ => ?_)
    · extract_lets -merge +onlyGivenNames v1
      clear_value v1
      refine Keeps.ite ?_ (fun _ => ?_)
      · refine State.roundSwitch_keeps ?_
        refine State.rerate_keeps ?_
        refine State.layoutChange_keeps h (fun y2 h3 => ?_)
        exact State.store_keeps h3
      · extract_lets -merge +onlyGivenNames v4
        have h5 : Keeps s v4 := State.holdCfg_keeps (State.setWord_keeps h)
        clear_value v4
        refine Keeps.ite ?_ (fun _ => ?_)
        · exact h5
        · exact State.roundSwitch_keeps (State.applyCfg_keeps h5)
    · exact State.wr_keeps h
  · exact State.commitWrite_keeps h

theorem State.descWrite_keeps {p2} {p3} {p4} (h : Keeps s x) : Keeps s (State.descWrite x p2 p3 p4) := by
  unfold State.descWrite
  extract_lets -merge +onlyGivenNames v1
  clear_value v1
  refine Keeps.ite ?_ (fun _ => ?_)
  · exact State.logRefused_keeps h
  · exact State.put_keeps h

theorem State.stabWrite_keeps {p2} {p3} {p4} (h : Keeps s x) : Keeps s (State.stabWrite x p2 p3 p4) := by
  unfold State.stabWrite
  extract_lets -merge +onlyGivenNames v1
  clear_value v1
  refine Keeps.ite ?_ (fun _ => ?_)
  · exact State.store_keeps h
  · extract_lets -merge +onlyGivenNames v2
    clear_value v2
    extract_lets -merge +onlyGivenNames v3
    have h4 : Keeps s v3 := State.setWord_keeps h
    clear_value v3
    refine Keeps.ite ?_ (fun _ => ?_)
    · exact h4
    · exact State.logRefused_keeps h4

theorem State.amWrite_keeps {p2} {p3} {p4} (h : Keeps s x) : Keeps s (State.amWrite x p2 p3 p4) := by
  unfold State.amWrite
  exact State.stdPublish_keeps (State.amCheck_keeps (State.store_keeps h))

theorem State.inhibitWrite_keeps {p2} {p3} {p4} (h : Keeps s x) : Keeps s (State.inhibitWrite x p2 p3 p4) := by
  unfold State.inhibitWrite
  extract_lets -merge +onlyGivenNames v1
  have h2 : Keeps s v1 := State.store_keeps h
  clear_value v1
  extract_lets -merge +onlyGivenNames v3 v4
  clear_value v3 v4
  exact State.stdPublish_keeps (State.wr_keeps h2)

theorem State.blockWrite_keeps {p2} {p3} (h : Keeps s x) : Keeps s (State.blockWrite x p2 p3) := by
  unfold State.blockWrite
  refine Keeps.ite ?_ (fun _ => ?_)
  · refine Keeps.ite ?_ (fun _ => ?_)
    · refine Keeps.ite ?_ (fun _ => ?_)
      · refine Keeps.ite ?_ (fun _ => ?_)
        · refine Keeps.ite ?_ (fun _ => ?_)
          · refine Keeps.ite ?_ (fun _ => ?_)
            · refine Keeps.ite ?_ (fun _ => ?_)
              · refine Keeps.ite ?_ (fun _ => ?_)
                · refine Keeps.ite ?_ (fun _ => ?_)
                  · refine Keeps.ite ?_ (fun _ => ?_)
                    · refine Keeps.ite ?_ (fun _ => ?_)
                      · refine Keeps.ite ?_ (fun _ => ?_)
                        · refine Keeps.ite ?_ (fun _ => ?_)
                          · refine Keeps.ite ?_ (fun _ => ?_)
                            · refine Keeps.ite ?_ (fun _ => ?_)
                              · refine Keeps.ite ?_ (fun _ => ?_)
                                · refine Keeps.ite ?_ (fun _ => ?_)
                                  · exact State.store_keeps h
                                  · exact State.inhibitWrite_keeps h
                                · extract_lets -merge +onlyGivenNames v1
                                  clear_value v1
                                  refine Keeps.ite ?_ (fun _ => ?_)
                                  · refine State.layoutChange_keeps h (fun y2 h3 => ?_)
                                    exact State.store_keeps h3
                                  · exact State.holdCfg_keeps h
                              · exact State.drivePins_keeps (State.store_keeps h)
                            · exact State.stdPublish_keeps (State.store_keeps h)
                          · exact State.checkMachines_keeps (State.store_keeps h)
                        · exact State.islCtlWrite_keeps h
                      · exact State.agCfgWrite_keeps h
                    · exact State.chanWrite_keeps h
                  · extract_lets -merge +onlyGivenNames v4
                    have h5 : Keeps s v4 := State.store_keeps h
                    clear_value v4
                    exact Keeps.fields h5
                · exact State.amWrite_keeps h
              · extract_lets -merge +onlyGivenNames v6
                clear_value v6
                refine Keeps.ite ?_ (fun _ => ?_)
                · exact State.stabWrite_keeps h
                · exact State.stabWr_keeps h
            · extract_lets -merge +onlyGivenNames v7
              clear_value v7
              refine Keeps.ite ?_ (fun _ => ?_)
              · exact State.stabWrite_keeps h
              · exact State.stabWr_keeps h
          · extract_lets -merge +onlyGivenNames v8
            clear_value v8
            refine Keeps.ite ?_ (fun _ => ?_)
            · exact State.descWrite_keeps h
            · exact State.descCheckWrite_keeps h
        · exact State.rndWrite_keeps h
      · exact State.ackWrite_keeps h
    · exact State.admCtlWrite_keeps h
  · exact State.admDecideWrite_keeps h

theorem State.mirrorWrite_keeps {p2} {p3} (h : Keeps s x) : Keeps s (State.mirrorWrite x p2 p3) := by
  unfold State.mirrorWrite
  refine Keeps.ite ?_ (fun _ => ?_)
  · exact h
  · exact State.blockWrite_keeps h

theorem execRoundCommit_keeps {p1} {p2} : KeepsRes s (execRoundCommit p1 p2 s) := by
  have h := Keeps.refl s
  unfold execRoundCommit
  refine KeepsRes.next ?_
  refine State.hostGate_keeps h (fun y1 h2 => ?_)
  exact State.commitWrite_keeps h2

theorem execMaxDspClear_keeps {p1} {p2} : KeepsRes s (execMaxDspClear p1 p2 s) := by
  have h := Keeps.refl s
  unfold execMaxDspClear
  refine KeepsRes.next ?_
  refine State.hostGate_keeps h (fun y1 h2 => ?_)
  exact State.wr_keeps h2

theorem execMaxLClear_keeps {p1} {p2} : KeepsRes s (execMaxLClear p1 p2 s) := by
  have h := Keeps.refl s
  unfold execMaxLClear
  extract_lets -merge +onlyGivenNames v1
  subst v1
  refine KeepsRes.next ?_
  refine State.hostGate_keeps h (fun y2 h3 => ?_)
  exact State.stabWr_keeps h3

theorem execLinkDown_keeps {p1} {p2} : KeepsRes s (execLinkDown p1 p2 s) := by
  have h := Keeps.refl s
  unfold execLinkDown
  extract_lets -merge +onlyGivenNames v1
  have h2 : Keeps s v1 := State.advance_keeps h
  clear_value v1
  refine KeepsRes.next ?_
  refine Keeps.ite ?_ (fun _ => ?_)
  · exact h2
  · extract_lets -merge +onlyGivenNames v3
    clear_value v3
    extract_lets -merge +onlyGivenNames v4
    have h5 : Keeps s v4 := State.setPort_keeps (State.setFlag_keeps h2)
    clear_value v4
    exact State.refreshDeg_keeps (State.notice_keeps h5)

theorem execLinkUp_keeps {p1} {p2} : KeepsRes s (execLinkUp p1 p2 s) := by
  have h := Keeps.refl s
  unfold execLinkUp
  extract_lets -merge +onlyGivenNames v1
  have h2 : Keeps s v1 := State.advance_keeps h
  clear_value v1
  refine KeepsRes.next ?_
  refine Keeps.ite ?_ (fun _ => ?_)
  · exact h2
  · extract_lets -merge +onlyGivenNames v3 v4
    clear_value v3 v4
    extract_lets -merge +onlyGivenNames v5
    have h6 : Keeps s v5 := State.wr_keeps (State.setFlag_keeps h2)
    clear_value v5
    exact State.sendReports_keeps (State.refreshDeg_keeps (State.notice_keeps (State.setPort_keeps h6)))

theorem execPortRestore_keeps {p1} {p2} : KeepsRes s (execPortRestore p1 p2 s) := by
  have h := Keeps.refl s
  unfold execPortRestore
  extract_lets -merge +onlyGivenNames v1
  have h2 : Keeps s v1 := State.advance_keeps h
  clear_value v1
  extract_lets -merge +onlyGivenNames v3
  clear_value v3
  refine KeepsRes.next ?_
  refine Keeps.ite ?_ (fun _ => ?_)
  · exact h2
  · exact State.refreshDeg_keeps (State.setPort_keeps h2)

theorem execPortFail_keeps {p1} {p2} : KeepsRes s (execPortFail p1 p2 s) := by
  have h := Keeps.refl s
  unfold execPortFail
  extract_lets -merge +onlyGivenNames v1
  have h2 : Keeps s v1 := State.advance_keeps h
  clear_value v1
  exact KeepsRes.next (State.portsChanged_keeps (State.setPort_keeps h2))

end Sys2Proof.Machine
end

