-- ==== Sys2Proof/Laws/KeepsPair.lean ====
section
/-! SUPPORT. Each operation and each meaning keeps what `Keeps` says: the pair, the Letterbox, capture and compression. -/
namespace Sys2Proof.Machine

variable {s x : State}

theorem State.sendCatch_keeps {p2} {p3} (h : Keeps s x) : Keeps s (State.sendCatch x p2 p3) := by
  unfold State.sendCatch
  refine Keeps.ite ?_ (fun _ => ?_)
  · split
    · exact State.plkSend_keeps h
    · exact State.plkSend_keeps h
  · exact State.plkSend_keeps h

theorem State.sendCopy_keeps {p2} {p3} (h : Keeps s x) : Keeps s (State.sendCopy x p2 p3) := by
  unfold State.sendCopy
  extract_lets -merge +onlyGivenNames v1 v2 v3 v4 v5 v6
  clear_value v1 v2 v3 v4 v5 v6
  extract_lets -merge +onlyGivenNames v7
  have h8 : Keeps s v7 := Keeps.fields h
  clear_value v7
  extract_lets -merge +onlyGivenNames v9
  have h10 : Keeps s v9 := State.plkSend_keeps (State.wr_keeps h8)
  clear_value v9
  refine Keeps.ite ?_ (fun _ => ?_)
  · extract_lets -merge +onlyGivenNames v11
    have h12 : Keeps s v11 := by
      unfold v11
      refine Keeps.forEach ?_ (fun y13 y14 h15 => ?_)
      · exact h10
      · exact State.sendCatch_keeps h15
    clear_value v11
    refine Keeps.ite ?_ (fun _ => ?_)
    · exact h12
    · exact State.sendCatch_keeps h12
  · exact h10

theorem State.applyAdmission_keeps {p2} {p3} {p4} {p5} (h : Keeps s x) : Keeps s (State.applyAdmission x p2 p3 p4 p5) := by
  unfold State.applyAdmission
  extract_lets -merge +onlyGivenNames v1
  clear_value v1
  extract_lets -merge +onlyGivenNames v2
  have h3 : Keeps s v2 := by
    unfold v2
    refine Keeps.ite ?_ (fun _ => ?_)
    · exact h
    · exact State.retire_keeps h
  clear_value v2
  extract_lets -merge +onlyGivenNames v4
  clear_value v4
  extract_lets -merge +onlyGivenNames v5
  have h6 : Keeps s v5 := by
    unfold v5
    refine Keeps.forEach ?_ (fun y7 y8 h9 => ?_)
    · exact h3
    · exact State.put_keeps h9
  clear_value v5
  extract_lets -merge +onlyGivenNames v10
  have h11 : Keeps s v10 := State.wr_keeps (State.wr_keeps h6)
  clear_value v10
  extract_lets -merge +onlyGivenNames v12
  have h13 : Keeps s v12 := by
    unfold v12
    refine Keeps.ite ?_ (fun _ => ?_)
    · exact h11
    · exact State.goLive_keeps h11
  clear_value v12
  extract_lets -merge +onlyGivenNames v14 v15 v16 v17 v18 v19 v20 v21
  clear_value v14 v15 v16 v17 v18 v19 v20 v21
  extract_lets -merge +onlyGivenNames v22
  have h23 : Keeps s v22 := by
    unfold v22
    refine Keeps.ite ?_ (fun _ => ?_)
    · split
      · exact State.senderGets_keeps h13
      · exact State.senderGets_keeps (Keeps.fields h13)
    · exact h13
  clear_value v22
  exact State.showAdm_keeps h23

theorem State.applyRec_keeps {p2} (h : Keeps s x) : Keeps s (State.applyRec x p2) := by
  unfold State.applyRec
  split
  · extract_lets -merge +onlyGivenNames v1
    have h2 : Keeps s v1 := State.wr_keeps (State.setFlag_keeps (State.setFlag_keeps (State.setFlag_keeps (State.wr_keeps (State.wr_keeps (State.wr_keeps h))))))
    clear_value v1
    exact State.setAm_keeps h2
  · refine Keeps.forEach ?_ (fun y3 y4 h5 => ?_)
    · exact h
    · exact State.wr_keeps h5
  · extract_lets -merge +onlyGivenNames v6
    have h7 : Keeps s v6 := State.wr_keeps (State.wr_keeps h)
    clear_value v6
    extract_lets -merge +onlyGivenNames v8
    clear_value v8
    exact Keeps.fields h7
  · split
    · exact State.setRun_keeps h
    · exact h
  · extract_lets -merge +onlyGivenNames v9
    have h10 : Keeps s v9 := by
      unfold v9
      refine Keeps.forEach ?_ (fun y11 y12 h13 => ?_)
      · exact h
      · exact State.put_keeps h13
    clear_value v9
    exact State.showIsl_keeps (State.setCg_keeps h10)
  · exact State.wr_keeps (State.wr_keeps h)
  · exact State.applyAdmission_keeps h
  · exact State.clearInelig_keeps (State.showDesc_keeps (State.putDesc_keeps (State.setCounts_keeps h)))
  · extract_lets -merge +onlyGivenNames v14
    have h15 : Keeps s v14 := State.wr_keeps (State.wr_keeps h)
    clear_value v14
    exact State.setRnd_keeps h15
  · exact State.mirrorWrite_keeps h
  · exact State.wr_keeps h

theorem State.mirrorBoundary_keeps {p2} (h : Keeps s x) : Keeps s (State.mirrorBoundary x p2) := by
  unfold State.mirrorBoundary
  extract_lets -merge +onlyGivenNames v1 v2
  clear_value v1 v2
  extract_lets -merge +onlyGivenNames v3
  have h4 : Keeps s v3 := Keeps.fields h
  clear_value v3
  extract_lets -merge +onlyGivenNames v5
  have h6 : Keeps s v5 := by
    unfold v5
    refine Keeps.forEach ?_ (fun y7 y8 h9 => ?_)
    · exact h4
    · exact State.mirrorWrite_keeps h9
  clear_value v5
  refine Keeps.ite ?_ (fun _ => ?_)
  · exact h6
  · exact State.sendCopy_keeps h6

theorem State.sendMap_keeps (h : Keeps s x) : Keeps s (State.sendMap x) := by
  unfold State.sendMap
  refine Keeps.ite ?_ (fun _ => ?_)
  · extract_lets -merge +onlyGivenNames v1
    clear_value v1
    exact State.plkSend_keeps (Keeps.fields h)
  · exact h

theorem State.emitHeld_keeps (h : Keeps s x) : Keeps s (State.emitHeld x) := by
  unfold State.emitHeld
  extract_lets -merge +onlyGivenNames v1 v2
  clear_value v1 v2
  extract_lets -merge +onlyGivenNames v3
  have h4 : Keeps s v3 := Keeps.fields h
  clear_value v3
  refine Keeps.forEach ?_ (fun y5 y6 h7 => ?_)
  · exact h4
  · split
    · exact State.inc_keeps (State.slotOut_keeps h7)
    · exact State.pubFrames_keeps h7

theorem State.skipSpdu_keeps (h : Keeps s x) : Keeps s (State.skipSpdu x) := by
  unfold State.skipSpdu
  extract_lets -merge +onlyGivenNames v1
  clear_value v1
  refine Keeps.forEach ?_ (fun y2 y3 h4 => ?_)
  · exact h
  · exact State.reserve_keeps (State.setRun_keeps h4)

theorem State.takeOver_keeps (h : Keeps s x) : Keeps s (State.takeOver x) := by
  unfold State.takeOver
  extract_lets -merge +onlyGivenNames v1
  clear_value v1
  extract_lets -merge +onlyGivenNames v2
  have h3 : Keeps s v2 := Keeps.fields h
  clear_value v2
  extract_lets -merge +onlyGivenNames v4
  have h5 : Keeps s v4 := State.skipSpdu_keeps (State.notice_keeps (State.inc_keeps h3))
  clear_value v4
  exact State.emitHeld_keeps (State.rejudge_keeps (State.modeTo_keeps h5))

theorem State.switched_keeps (h : Keeps s x) : Keeps s (State.switched x) := by
  unfold State.switched
  extract_lets -merge +onlyGivenNames v1
  clear_value v1
  extract_lets -merge +onlyGivenNames v2
  have h3 : Keeps s v2 := Keeps.fields h
  clear_value v2
  exact State.notice_keeps (State.inc_keeps h3)

theorem State.giveRole_keeps {p2} (h : Keeps s x) : Keeps s (State.giveRole x p2) := by
  unfold State.giveRole
  extract_lets -merge +onlyGivenNames v1
  have h2 : Keeps s v1 := State.modeTo_keeps (State.switched_keeps h)
  clear_value v1
  extract_lets -merge +onlyGivenNames v3
  clear_value v3
  extract_lets -merge +onlyGivenNames v4
  have h5 : Keeps s v4 := Keeps.fields h2
  clear_value v4
  refine Keeps.ite ?_ (fun _ => ?_)
  · exact h5
  · refine Keeps.ite ?_ (fun _ => ?_)
    · exact h5
    · exact State.reqEnd_keeps h5

theorem State.takeRole_keeps {p2} (h : Keeps s x) : Keeps s (State.takeRole x p2) := by
  unfold State.takeRole
  extract_lets -merge +onlyGivenNames v1
  have h2 : Keeps s v1 := State.switched_keeps h
  clear_value v1
  extract_lets -merge +onlyGivenNames v3
  clear_value v3
  extract_lets -merge +onlyGivenNames v4
  have h5 : Keeps s v4 := Keeps.fields h2
  clear_value v4
  exact State.rejudge_keeps (State.modeTo_keeps h5)

theorem State.switchFail_keeps (h : Keeps s x) : Keeps s (State.switchFail x) := by
  unfold State.switchFail
  extract_lets -merge +onlyGivenNames v1
  clear_value v1
  extract_lets -merge +onlyGivenNames v2
  have h3 : Keeps s v2 := Keeps.fields h
  clear_value v2
  refine Keeps.ite ?_ (fun _ => ?_)
  · exact h3
  · exact State.reqEnd_keeps h3

theorem State.roleBoundary_keeps {p2} (h : Keeps s x) : Keeps s (State.roleBoundary x p2).1 := by
  unfold State.roleBoundary
  refine Keeps.ite1 ?_ (fun _ => ?_)
  · split
    · refine Keeps.ite1 ?_ (fun _ => ?_)
      · refine Keeps.ite1 ?_ (fun _ => ?_)
        · refine Keeps.ite1 ?_ (fun _ => ?_)
          · refine Keeps.ite1 ?_ (fun _ => ?_)
            · exact Keeps.mk1 (Keeps.fields h)
            · exact Keeps.mk1 (State.takeRole_keeps h)
          · exact Keeps.mk1 (State.giveRole_keeps h)
        · exact Keeps.mk1 (State.switchFail_keeps h)
      · exact Keeps.mk1 h
    · refine Keeps.ite1 ?_ (fun _ => ?_)
      · exact Keeps.mk1 h
      · extract_lets -merge +onlyGivenNames v1
        have h2 : Keeps s v1 := State.setFlag_keeps (State.modeTo_keeps h)
        clear_value v1
        exact Keeps.mk1 (State.rejudge_keeps h2)
  · exact Keeps.mk1 (State.takeOver_keeps h)

theorem State.requestBoundary_keeps (h : Keeps s x) : Keeps s (State.requestBoundary x) := by
  unfold State.requestBoundary
  refine Keeps.ite ?_ (fun _ => ?_)
  · refine Keeps.ite ?_ (fun _ => ?_)
    · refine Keeps.ite ?_ (fun _ => ?_)
      · exact h
      · exact State.reqEnd_keeps (State.modeTo_keeps h)
    · exact State.reqEnd_keeps (State.modeTo_keeps h)
  · exact h

theorem State.restoreBoundary_keeps (h : Keeps s x) : Keeps s (State.restoreBoundary x) := by
  unfold State.restoreBoundary
  refine Keeps.ite ?_ (fun _ => ?_)
  · exact h
  · exact State.rejudge_keeps (State.modeTo_keeps h)

theorem State.lbSettle_keeps {p2} {p3} {p4} {p5} (h : Keeps s x) : Keeps s (State.lbSettle x p2 p3 p4 p5) := by
  unfold State.lbSettle
  exact State.mapItems_keeps h

theorem State.lbRun_keeps {p2} {p3} {p4} {p5} {p6} (h : Keeps s x) (kp6 : ∀ b1 b2, Keeps s b2 → Keeps s (p6 b1 b2).1) : Keeps s (State.lbRun x p2 p3 p4 p5 p6) := by
  unfold State.lbRun
  split
  · exact h
  · split
    · refine Keeps.ite ?_ (fun _ => ?_)
      · exact h
      · refine Keeps.ite ?_ (fun _ => ?_)
        · split
          · rename_i z1 z2 z3 z4 z5 z6
            have h7 : Keeps s z2 := Keeps.of_fst z6 (kp6 _ _ h)
            exact State.lbSettle_keeps h7
          · rename_i z8 z9 z10
            have h11 : Keeps s z9 := Keeps.of_fst z10 (kp6 _ _ h)
            exact State.lbSettle_keeps h11
          · rename_i z12 z13 z14
            have h15 : Keeps s z13 := Keeps.of_fst z14 (kp6 _ _ h)
            exact h
        · exact State.lbSettle_keeps (State.lbBad_keeps h)
    · exact h

theorem State.leaveOpen_keeps {p2} (h : Keeps s x) : Keeps s (State.leaveOpen x p2) := by
  unfold State.leaveOpen
  exact Keeps.fields h

theorem State.nextJournal_keeps (h : Keeps s x) : Keeps s (State.nextJournal x) := by
  unfold State.nextJournal
  exact Keeps.fields h

theorem execLbNop_keeps {p1} {p2} {p3} {p4} : KeepsRes s (execLbNop p1 p2 p3 p4 s) := by
  have h := Keeps.refl s
  unfold execLbNop
  refine KeepsRes.next ?_
  refine Keeps.ite ?_ (fun _ => ?_)
  · exact h
  · refine State.lbRun_keeps h (fun y1 y2 h3 => ?_)
    exact Keeps.mk1 h3

theorem State.capOffer_keeps {p2} {p3} {p4} (h : Keeps s x) : Keeps s (State.capOffer x p2 p3 p4) := by
  unfold State.capOffer
  exact State.offer_keeps h

theorem State.capRelease_keeps {p2} {p3} (h : Keeps s x) : Keeps s (State.capRelease x p2 p3) := by
  unfold State.capRelease
  split
  · exact h
  · extract_lets -merge +onlyGivenNames v1
    have h2 : Keeps s v1 := State.capOffer_keeps h
    clear_value v1
    extract_lets -merge +onlyGivenNames v3 v4
    clear_value v3 v4
    exact State.showSegs_keeps (State.setCapUnit_keeps h2)

theorem State.cmpShow_keeps (h : Keeps s x) : Keeps s (State.cmpShow x) := by
  unfold State.cmpShow
  exact State.wr_keeps (State.setFlag_keeps h)

theorem State.capComplete_keeps {p2} {p3} {p4} {p5} (h : Keeps s x) : Keeps s (State.capComplete x p2 p3 p4 p5) := by
  unfold State.capComplete
  extract_lets -merge +onlyGivenNames v1
  have h2 : Keeps s v1 := State.inc_keeps (State.inc_keeps (State.inc_keeps h))
  clear_value v1
  extract_lets -merge +onlyGivenNames v3 v4 v5 v6 v7
  clear_value v3 v4 v5 v6 v7
  extract_lets -merge +onlyGivenNames v8
  have h9 : Keeps s v8 := State.notice_keeps (State.setCapUnit_keeps h2)
  clear_value v8
  extract_lets -merge +onlyGivenNames v10
  have h11 : Keeps s v10 := by
    unfold v10
    refine Keeps.ite ?_ (fun _ => ?_)
    · exact State.setCapState_keeps h9
    · exact State.notice_keeps (State.setCapState_keeps h9)
  clear_value v10
  extract_lets -merge +onlyGivenNames v12
  clear_value v12
  extract_lets -merge +onlyGivenNames v13
  have h14 : Keeps s v13 := by
    unfold v13
    refine Keeps.ite ?_ (fun _ => ?_)
    · exact State.capRelease_keeps h11
    · exact State.cmpShow_keeps (Keeps.fields h11)
  clear_value v13
  extract_lets -merge +onlyGivenNames v15
  clear_value v15
  extract_lets -merge +onlyGivenNames v16
  have h17 : Keeps s v16 := by
    unfold v16
    refine Keeps.ite ?_ (fun _ => ?_)
    · exact h14
    · exact State.notice_keeps (State.inc_keeps (State.setCapUnit_keeps h14))
  clear_value v16
  refine Keeps.ite ?_ (fun _ => ?_)
  · exact State.showSegs_keeps h17
  · exact State.capFill_keeps h17

theorem State.xfirePull_keeps {p2} (h : Keeps s x) : Keeps s (State.xfirePull x p2) := by
  unfold State.xfirePull
  refine Keeps.ite ?_ (fun _ => ?_)
  · exact h
  · exact State.setFlag_keeps (Keeps.fields h)

theorem State.capRetrig_keeps {p2} (h : Keeps s x) : Keeps s (State.capRetrig x p2) := by
  unfold State.capRetrig
  exact State.inc_keeps h

theorem State.capPostSample_keeps {p2} {p3} {p4} {p5} {p6} {p7} {p8} (h : Keeps s x) : Keeps s (State.capPostSample x p2 p3 p4 p5 p6 p7 p8) := by
  unfold State.capPostSample
  extract_lets -merge +onlyGivenNames v1
  have h2 : Keeps s v1 := by
    unfold v1
    refine Keeps.forEach ?_ (fun y3 y4 h5 => ?_)
    · exact h
    · exact State.capRetrig_keeps h5
  clear_value v1
  extract_lets -merge +onlyGivenNames v6 v7
  clear_value v6 v7
  refine Keeps.ite ?_ (fun _ => ?_)
  · exact State.setCapUnit_keeps h2
  · exact State.capComplete_keeps h2

theorem State.capFire_keeps {p2} {p3} {p4} {p5} {p6} {p7} {p8} {p9} {p10} (h : Keeps s x) : Keeps s (State.capFire x p2 p3 p4 p5 p6 p7 p8 p9 p10) := by
  unfold State.capFire
  extract_lets -merge +onlyGivenNames v1
  clear_value v1
  extract_lets -merge +onlyGivenNames v2
  have h3 : Keeps s v2 := by
    unfold v2
    refine Keeps.forEach ?_ (fun y4 y5 h6 => ?_)
    · exact h
    · exact State.capRetrig_keeps h6
  clear_value v2
  extract_lets -merge +onlyGivenNames v7 v8
  clear_value v7 v8
  extract_lets -merge +onlyGivenNames v9
  have h10 : Keeps s v9 := by
    unfold v9
    refine Keeps.ite ?_ (fun _ => ?_)
    · exact State.xfirePull_keeps h3
    · exact h3
  clear_value v9
  refine Keeps.ite ?_ (fun _ => ?_)
  · exact State.setCapState_keeps (State.setCapUnit_keeps h10)
  · exact State.capComplete_keeps (State.setCapState_keeps h10)

theorem State.capFigures_keeps {p2} {p3} {p4} (h : Keeps s x) : Keeps s (State.capFigures x p2 p3 p4).1 := by
  unfold State.capFigures
  split
  rename_i z1 z2 z3 z4
  have h5 : Keeps s z3 := Keeps.of_snd z4 (State.draw_keeps h)
  split
  rename_i z6 z7 z8 z9
  have h10 : Keeps s z8 := Keeps.of_snd z9 (State.draw_keeps h5)
  split
  · exact Keeps.mk1 h10
  · exact Keeps.mk1 h10

theorem State.capStopSample_keeps {p2} {p3} {p4} {p5} (h : Keeps s x) : Keeps s (State.capStopSample x p2 p3 p4 p5) := by
  unfold State.capStopSample
  extract_lets -merge +onlyGivenNames v1
  clear_value v1
  refine Keeps.ite ?_ (fun _ => ?_)
  · exact State.setCapUnit_keeps h
  · exact State.inc_keeps (State.setCapUnit_keeps h)

theorem State.capEdgeSample_keeps {p2} {p3} {p4} {p5} {p6} {p7} {p8} (h : Keeps s x) : Keeps s (State.capEdgeSample x p2 p3 p4 p5 p6 p7 p8) := by
  unfold State.capEdgeSample
  refine Keeps.ite ?_ (fun _ => ?_)
  · extract_lets -merge +onlyGivenNames v1
    extract_lets -merge +onlyGivenNames v2
    have h3 : Keeps s v2 := by
      unfold v2
      refine Keeps.ite ?_ (fun _ => ?_)
      · exact State.capRetrig_keeps h
      · exact h
    clear_value v2
    exact State.setCapUnit_keeps h3
  · split
    rename_i z4 z5 z6 z7 z8
    have h9 : Keeps s z5 := Keeps.of_fst z8 (State.capFigures_keeps h)
    exact State.capFire_keeps h9

theorem State.capWatchSample_keeps {p2} {p3} {p4} {p5} {p6} {p7} (h : Keeps s x) : Keeps s (State.capWatchSample x p2 p3 p4 p5 p6 p7) := by
  unfold State.capWatchSample
  extract_lets -merge +onlyGivenNames v1 v2 v3
  clear_value v1 v2 v3
  extract_lets -merge +onlyGivenNames v4
  have h5 : Keeps s v4 := by
    unfold v4
    refine Keeps.ite ?_ (fun _ => ?_)
    · exact h
    · exact State.readArm_keeps h
  clear_value v4
  extract_lets -merge +onlyGivenNames v6 v7
  clear_value v6 v7
  extract_lets -merge +onlyGivenNames v8
  have h9 : Keeps s v8 := by
    unfold v8
    refine Keeps.ite ?_ (fun _ => ?_)
    · exact h5
    · exact State.notice_keeps (State.inc_keeps h5)
  clear_value v8
  extract_lets -merge +onlyGivenNames v10 v11
  clear_value v10 v11
  refine Keeps.ite ?_ (fun _ => ?_)
  · extract_lets -merge +onlyGivenNames v12
    have h13 : Keeps s v12 := by
      unfold v12
      refine Keeps.ite ?_ (fun _ => ?_)
      · exact h9
      · exact State.capRetrig_keeps h9
    clear_value v12
    extract_lets -merge +onlyGivenNames v14
    clear_value v14
    extract_lets -merge +onlyGivenNames v15
    have h16 : Keeps s v15 := State.setCapUnit_keeps h13
    clear_value v15
    refine Keeps.ite ?_ (fun _ => ?_)
    · exact h16
    · exact State.setCapState_keeps h16
  · extract_lets -merge +onlyGivenNames v17
    clear_value v17
    split
    rename_i z18 z19 z20 z21 z22
    have h23 : Keeps s z19 := Keeps.of_fst z22 (State.capFigures_keeps h9)
    exact State.capFire_keeps h23

theorem State.capSample_keeps {p2} {p3} {p4} {p5} (h : Keeps s x) : Keeps s (State.capSample x p2 p3 p4 p5) := by
  unfold State.capSample
  extract_lets -merge +onlyGivenNames v1
  clear_value v1
  refine Keeps.ite ?_ (fun _ => ?_)
  · extract_lets -merge +onlyGivenNames v2
    clear_value v2
    split
    refine Keeps.ite ?_ (fun _ => ?_)
    · split
      · exact State.capPostSample_keeps h
      · exact State.capEdgeSample_keeps h
      · exact State.capWatchSample_keeps h
    · exact State.capStopSample_keeps h
  · exact h

theorem State.capMailbag_keeps {p2} {p3} {p4} {p5} (h : Keeps s x) : Keeps s (State.capMailbag x p2 p3 p4 p5) := by
  unfold State.capMailbag
  refine Keeps.forEach ?_ (fun y1 y2 h3 => ?_)
  · exact h
  · exact State.capSample_keeps h3

theorem State.capPoint_keeps {p2} {p3} {p4} (h : Keeps s x) : Keeps s (State.capPoint x p2 p3 p4) := by
  unfold State.capPoint
  refine Keeps.forEach ?_ (fun y1 y2 h3 => ?_)
  · exact h
  · exact State.capSample_keeps h3

theorem State.capAckWrite_keeps {p2} {p3} (h : Keeps s x) : Keeps s (State.capAckWrite x p2 p3) := by
  unfold State.capAckWrite
  refine Keeps.ite ?_ (fun _ => ?_)
  · exact h
  · extract_lets -merge +onlyGivenNames v1
    clear_value v1
    exact State.showSegs_keeps (State.setCapUnit_keeps h)

theorem State.capArmWrite_keeps {p2} (h : Keeps s x) : Keeps s (State.capArmWrite x p2) := by
  unfold State.capArmWrite
  refine Keeps.ite ?_ (fun _ => ?_)
  · exact h
  · extract_lets -merge +onlyGivenNames v1
    clear_value v1
    exact State.capFill_keeps (State.setCapUnit_keeps h)

theorem State.capForceWrite_keeps {p2} (h : Keeps s x) : Keeps s (State.capForceWrite x p2) := by
  unfold State.capForceWrite
  extract_lets -merge +onlyGivenNames v1
  clear_value v1
  refine Keeps.ite ?_ (fun _ => ?_)
  · refine Keeps.ite ?_ (fun _ => ?_)
    · exact h
    · extract_lets -merge +onlyGivenNames v2
      clear_value v2
      exact State.capRetrig_keeps (State.setCapUnit_keeps h)
  · exact State.setCapUnit_keeps h

theorem execCapAck_keeps {p1} {p2} : KeepsRes s (execCapAck p1 p2 s) := by
  have h := Keeps.refl s
  unfold execCapAck
  refine KeepsRes.next ?_
  refine State.hostGate_keeps h (fun y1 h2 => ?_)
  exact State.capAckWrite_keeps h2

theorem execCapArm_keeps {p1} : KeepsRes s (execCapArm p1 s) := by
  have h := Keeps.refl s
  unfold execCapArm
  refine KeepsRes.next ?_
  refine State.hostGate_keeps h (fun y1 h2 => ?_)
  exact State.capArmWrite_keeps h2

theorem execCapForce_keeps {p1} : KeepsRes s (execCapForce p1 s) := by
  have h := Keeps.refl s
  unfold execCapForce
  refine KeepsRes.next ?_
  refine State.hostGate_keeps h (fun y1 h2 => ?_)
  exact State.capForceWrite_keeps h2

theorem State.capEdge_keeps {p2} {p3} (h : Keeps s x) : Keeps s (State.capEdge x p2 p3) := by
  unfold State.capEdge
  extract_lets -merge +onlyGivenNames v1 v2
  clear_value v1 v2
  refine Keeps.ite ?_ (fun _ => ?_)
  · refine Keeps.ite ?_ (fun _ => ?_)
    · exact State.setCapState_keeps (State.setCapUnit_keeps h)
    · exact State.capRetrig_keeps h
  · exact h

theorem execXtrgFireEdge_keeps {p1} : KeepsRes s (execXtrgFireEdge p1 s) := by
  have h := Keeps.refl s
  unfold execXtrgFireEdge
  extract_lets -merge +onlyGivenNames v1
  have h2 : Keeps s v1 := State.advance_keeps h
  clear_value v1
  refine KeepsRes.next ?_
  refine Keeps.ite ?_ (fun _ => ?_)
  · extract_lets -merge +onlyGivenNames v3
    clear_value v3
    extract_lets -merge +onlyGivenNames v4
    have h5 : Keeps s v4 := State.setFlag_keeps (Keeps.fields h2)
    clear_value v4
    refine Keeps.ite ?_ (fun _ => ?_)
    · exact h5
    · refine Keeps.forEach ?_ (fun y6 y7 h8 => ?_)
      · exact State.notice_keeps h5
      · exact State.capEdge_keeps h8
  · exact h2

theorem execXtrgFireRelease_keeps {p1} : KeepsRes s (execXtrgFireRelease p1 s) := by
  have h := Keeps.refl s
  unfold execXtrgFireRelease
  extract_lets -merge +onlyGivenNames v1
  have h2 : Keeps s v1 := State.advance_keeps h
  clear_value v1
  extract_lets -merge +onlyGivenNames v3
  clear_value v3
  refine KeepsRes.next ?_
  refine Keeps.ite ?_ (fun _ => ?_)
  · exact h2
  · exact State.setFlag_keeps (Keeps.fields h2)

theorem State.capSync_keeps {p2} (h : Keeps s x) : Keeps s (State.capSync x p2) := by
  unfold State.capSync
  extract_lets -merge +onlyGivenNames v1 v2
  clear_value v1 v2
  refine Keeps.ite ?_ (fun _ => ?_)
  · extract_lets -merge +onlyGivenNames v3
    clear_value v3
    refine Keeps.ite ?_ (fun _ => ?_)
    · exact State.capFill_keeps (State.setCapUnit_keeps h)
    · exact State.capFill_keeps (State.setCapUnit_keeps h)
  · exact State.setCapUnit_keeps h

theorem execXtrgSyncEdge_keeps {p1} : KeepsRes s (execXtrgSyncEdge p1 s) := by
  have h := Keeps.refl s
  unfold execXtrgSyncEdge
  extract_lets -merge +onlyGivenNames v1
  have h2 : Keeps s v1 := State.advance_keeps h
  clear_value v1
  refine KeepsRes.next ?_
  refine Keeps.ite ?_ (fun _ => ?_)
  · extract_lets -merge +onlyGivenNames v3
    clear_value v3
    extract_lets -merge +onlyGivenNames v4
    have h5 : Keeps s v4 := State.setFlag_keeps (Keeps.fields h2)
    clear_value v4
    refine Keeps.ite ?_ (fun _ => ?_)
    · exact h5
    · refine Keeps.forEach ?_ (fun y6 y7 h8 => ?_)
      · exact State.notice_keeps h5
      · exact State.capSync_keeps h8
  · exact h2

theorem State.xtrgWrite_keeps {p2} (h : Keeps s x) : Keeps s (State.xtrgWrite x p2) := by
  unfold State.xtrgWrite
  extract_lets -merge +onlyGivenNames v1
  have h2 : Keeps s v1 := State.setFlag_keeps (State.store_keeps h)
  clear_value v1
  refine Keeps.ite ?_ (fun _ => ?_)
  · exact h2
  · exact State.setFlag_keeps (Keeps.fields h2)

theorem execSyncGo_keeps {p1} : KeepsRes s (execSyncGo p1 s) := by
  have h := Keeps.refl s
  unfold execSyncGo
  refine KeepsRes.next ?_
  refine State.hostGate_keeps h (fun y1 h2 => ?_)
  exact State.xtrgWrite_keeps h2

theorem execXtrgSyncRelease_keeps {p1} : KeepsRes s (execXtrgSyncRelease p1 s) := by
  have h := Keeps.refl s
  unfold execXtrgSyncRelease
  extract_lets -merge +onlyGivenNames v1
  have h2 : Keeps s v1 := State.advance_keeps h
  clear_value v1
  extract_lets -merge +onlyGivenNames v3
  clear_value v3
  refine KeepsRes.next ?_
  refine Keeps.ite ?_ (fun _ => ?_)
  · exact State.setFlag_keeps (Keeps.fields h2)
  · exact h2

theorem execResend_keeps {p1} {p2} {p3} : KeepsRes s (execResend p1 p2 p3 s) := by
  have h := Keeps.refl s
  unfold execResend
  refine KeepsRes.next ?_
  refine State.lbRun_keeps h (fun y1 y2 h3 => ?_)
  refine Keeps.ite1 ?_ (fun _ => ?_)
  · split
    · exact Keeps.mk1 (State.capOffer_keeps h3)
    · exact Keeps.mk1 h3
  · exact Keeps.mk1 (State.lbBad_keeps h3)

theorem State.cmpCmd_keeps {p2} {p3} {p4} {p5} {p6} (h : Keeps s x) : Keeps s (State.cmpCmd x p2 p3 p4 p5 p6).1 := by
  unfold State.cmpCmd
  refine Keeps.ite1 ?_ (fun _ => ?_)
  · refine Keeps.ite1 ?_ (fun _ => ?_)
    · refine Keeps.ite1 ?_ (fun _ => ?_)
      · exact Keeps.mk1 (State.cmpShow_keeps (Keeps.fields h))
      · exact Keeps.mk1 h
    · exact Keeps.mk1 h
  · exact Keeps.mk1 h

theorem execCompress_keeps {p1} {p2} {p3} : KeepsRes s (execCompress p1 p2 p3 s) := by
  have h := Keeps.refl s
  unfold execCompress
  refine KeepsRes.next ?_
  refine State.lbRun_keeps h (fun y1 y2 h3 => ?_)
  extract_lets -merge +onlyGivenNames v4
  clear_value v4
  refine Keeps.ite1 ?_ (fun _ => ?_)
  · exact State.cmpCmd_keeps h3
  · exact Keeps.mk1 (State.lbBad_keeps h3)

theorem execDecode_keeps {p1} {p2} {p3} : KeepsRes s (execDecode p1 p2 p3 s) := by
  have h := Keeps.refl s
  unfold execDecode
  refine KeepsRes.next ?_
  refine State.lbRun_keeps h (fun y1 y2 h3 => ?_)
  exact State.cmpCmd_keeps h3

theorem State.cmpCount_keeps {p2} {p3} (h : Keeps s x) : Keeps s (State.cmpCount x p2 p3) := by
  unfold State.cmpCount
  refine Keeps.ite ?_ (fun _ => ?_)
  · refine Keeps.ite ?_ (fun _ => ?_)
    · refine Keeps.ite ?_ (fun _ => ?_)
      · refine Keeps.ite ?_ (fun _ => ?_)
        · exact h
        · exact State.notice_keeps (State.inc_keeps h)
      · exact State.notice_keeps (State.inc_keeps h)
    · exact State.notice_keeps (State.inc_keeps h)
  · exact State.notice_keeps (State.inc_keeps h)

theorem State.cmpPut_keeps {p2} {p3} {p4} {p5} {p6} {p7} (h : Keeps s x) : Keeps s (State.cmpPut x p2 p3 p4 p5 p6 p7) := by
  unfold State.cmpPut
  extract_lets -merge +onlyGivenNames v1 v2 v3
  clear_value v1 v2 v3
  refine Keeps.ite ?_ (fun _ => ?_)
  · refine Keeps.ite ?_ (fun _ => ?_)
    · refine Keeps.ite ?_ (fun _ => ?_)
      · exact State.lbDone_keeps (State.emit_keeps (State.cmpCount_keeps h))
      · exact State.lbDone_keeps h
    · exact State.lbDone_keeps (State.cmpCount_keeps h)
  · exact State.lbDone_keeps (State.offer_keeps (State.cmpCount_keeps h))

theorem State.cmpMade_keeps {p2} {p3} (h : Keeps s x) : Keeps s (State.cmpMade x p2 p3) := by
  unfold State.cmpMade
  exact State.inc_keeps (State.bump64_keeps (State.bump64_keeps h))

theorem State.cmpCmdDone_keeps {p2} {p3} {p4} {p5} {p6} {p7} (h : Keeps s x) : Keeps s (State.cmpCmdDone x p2 p3 p4 p5 p6 p7) := by
  unfold State.cmpCmdDone
  extract_lets -merge +onlyGivenNames v1
  clear_value v1
  refine Keeps.ite ?_ (fun _ => ?_)
  · refine Keeps.ite ?_ (fun _ => ?_)
    · extract_lets -merge +onlyGivenNames v2
      clear_value v2
      split
      extract_lets -merge +onlyGivenNames v3
      extract_lets -merge +onlyGivenNames v4
      have h5 : Keeps s v4 := by
        unfold v4
        refine Keeps.ite ?_ (fun _ => ?_)
        · exact h
        · exact State.cmpMade_keeps h
      clear_value v4
      exact State.cmpPut_keeps h5
    · split
      refine Keeps.ite ?_ (fun _ => ?_)
      · exact State.cmpPut_keeps h
      · exact State.lbDone_keeps (State.cmpCount_keeps h)
  · exact State.lbDone_keeps h

theorem State.cmpCapDone_keeps {p2} {p3} (h : Keeps s x) : Keeps s (State.cmpCapDone x p2 p3) := by
  unfold State.cmpCapDone
  extract_lets -merge +onlyGivenNames v1
  clear_value v1
  split
  · exact h
  · split
    extract_lets -merge +onlyGivenNames v2
    clear_value v2
    extract_lets -merge +onlyGivenNames v3
    have h4 : Keeps s v3 := State.setCapUnit_keeps h
    clear_value v3
    extract_lets -merge +onlyGivenNames v5
    have h6 : Keeps s v5 := State.cmpMade_keeps h4
    clear_value v5
    refine State.capRelease_keeps ?_
    refine Keeps.ite ?_ (fun _ => ?_)
    · exact h6
    · exact State.cmpCount_keeps h6

theorem execCompressDone_keeps {p1} {p2} : KeepsRes s (execCompressDone p1 p2 s) := by
  have h := Keeps.refl s
  unfold execCompressDone
  extract_lets -merge +onlyGivenNames v1
  have h2 : Keeps s v1 := State.advance_keeps h
  clear_value v1
  refine KeepsRes.next ?_
  split
  · exact h2
  · extract_lets -merge +onlyGivenNames v3
    clear_value v3
    extract_lets -merge +onlyGivenNames v4
    have h5 : Keeps s v4 := State.cmpShow_keeps (Keeps.fields h2)
    clear_value v4
    split
    · exact State.cmpCapDone_keeps h5
    · exact State.cmpCmdDone_keeps h5

end Sys2Proof.Machine
end

