-- ==== Sys2Proof/Laws/KeepsUnits.lean ====
section
/-! SUPPORT. Each operation and each meaning keeps what `Keeps` says: acquisition, the backup clock, definitions, dispatching and local streams. -/
namespace Sys2Proof.Machine

variable {s x : State}

theorem State.mapPhs_keeps {p2} {p3} (h : Keeps s x) : Keeps s (State.mapPhs x p2 p3) := by
  unfold State.mapPhs
  extract_lets -merge +onlyGivenNames v1
  clear_value v1
  exact State.setAcqPt_keeps h

theorem State.upSplice_keeps {p2} {p3} {p4} (h : Keeps s x) : Keeps s (State.upSplice x p2 p3 p4) := by
  unfold State.upSplice
  extract_lets -merge +onlyGivenNames v1
  clear_value v1
  refine Keeps.ite ?_ (fun _ => ?_)
  · exact State.notice_keeps (State.inc_keeps (State.mapPhs_keeps h))
  · exact h

theorem State.downSplice_keeps {p2} {p3} {p4} (h : Keeps s x) : Keeps s (State.downSplice x p2 p3 p4) := by
  unfold State.downSplice
  extract_lets -merge +onlyGivenNames v1
  clear_value v1
  refine Keeps.forEach ?_ (fun y2 y3 h4 => ?_)
  · exact h
  · extract_lets -merge +onlyGivenNames v5
    clear_value v5
    split
    · exact h4
    · extract_lets -merge +onlyGivenNames v6
      clear_value v6
      refine Keeps.ite ?_ (fun _ => ?_)
      · exact h4
      · exact State.notice_keeps (State.inc_keeps (State.mapPhs_keeps h4))

theorem State.selectPaths_keeps {p2} {p3} {p4} (h : Keeps s x) : Keeps s (State.selectPaths x p2 p3 p4) := by
  unfold State.selectPaths
  extract_lets -merge +onlyGivenNames v1
  have h2 : Keeps s v1 := by
    unfold v1
    refine Keeps.forEach ?_ (fun y3 y4 h5 => ?_)
    · exact h
    · refine Keeps.ite ?_ (fun _ => ?_)
      · exact h5
      · exact State.upSplice_keeps h5
  clear_value v1
  extract_lets -merge +onlyGivenNames v6
  have h7 : Keeps s v6 := State.mapPhs_keeps h2
  clear_value v6
  extract_lets -merge +onlyGivenNames v8
  have h9 : Keeps s v8 := State.downSplice_keeps h7
  clear_value v8
  extract_lets -merge +onlyGivenNames v10
  clear_value v10
  exact State.mapPhs_keeps h9

theorem State.acqSample_keeps {p2} {p3} {p4} (h : Keeps s x) : Keeps s (State.acqSample x p2 p3 p4) := by
  unfold State.acqSample
  extract_lets -merge +onlyGivenNames v1 v2 v3 v4 v5 v6
  clear_value v1 v2 v3 v4 v5 v6
  extract_lets -merge +onlyGivenNames v7
  have h8 : Keeps s v7 := State.calDone_keeps (State.setAcqPt_keeps h)
  clear_value v7
  extract_lets -merge +onlyGivenNames v9
  have h10 : Keeps s v9 := State.wr_keeps h8
  clear_value v9
  extract_lets -merge +onlyGivenNames v11
  have h12 : Keeps s v11 := State.selectPaths_keeps h10
  clear_value v11
  extract_lets -merge +onlyGivenNames v13 v14 v15 v16 v17 v18 v19 v20 v21 v22 v23 v24 v25
  clear_value v13 v14 v15 v16 v17 v18 v19 v20 v21 v22 v23 v24 v25
  extract_lets -merge +onlyGivenNames v26
  have h27 : Keeps s v26 := State.showFading_keeps (State.wr_keeps (State.setAcqPt_keeps h12))
  clear_value v26
  extract_lets -merge +onlyGivenNames v28
  clear_value v28
  extract_lets -merge +onlyGivenNames v29
  have h30 : Keeps s v29 := by
    unfold v29
    refine Keeps.ite ?_ (fun _ => ?_)
    · exact State.noticeFirst_keeps (State.bump_keeps h27)
    · exact h27
  clear_value v29
  exact State.capPoint_keeps (State.halfPush_keeps h30)

theorem State.acqFill_keeps {p2} {p3} (h : Keeps s x) : Keeps s (State.acqFill x p2 p3) := by
  unfold State.acqFill
  extract_lets -merge +onlyGivenNames v1
  clear_value v1
  exact State.setAcqPt_keeps h

theorem State.acqTake_keeps {p2} {p3} (h : Keeps s x) : Keeps s (State.acqTake x p2 p3) := by
  unfold State.acqTake
  extract_lets -merge +onlyGivenNames v1
  clear_value v1
  split
  · exact h
  · extract_lets -merge +onlyGivenNames v2
    have h3 : Keeps s v2 := State.setAcqPt_keeps h
    clear_value v2
    refine Keeps.ite ?_ (fun _ => ?_)
    · exact State.acqFill_keeps h3
    · exact State.acqSample_keeps h3

theorem execOutputSample_keeps {p1} {p2} {p3} : KeepsRes s (execOutputSample p1 p2 p3 s) := by
  have h := Keeps.refl s
  unfold execOutputSample
  extract_lets -merge +onlyGivenNames v1
  have h2 : Keeps s v1 := State.advance_keeps h
  clear_value v1
  extract_lets -merge +onlyGivenNames v3
  clear_value v3
  refine KeepsRes.next ?_
  refine Keeps.ite ?_ (fun _ => ?_)
  · exact h2
  · exact State.acqTake_keeps h2

theorem State.lookJudge_keeps {p2} {p3} {p4} {p5} (h : Keeps s x) : Keeps s (State.lookJudge x p2 p3 p4 p5) := by
  unfold State.lookJudge
  extract_lets -merge +onlyGivenNames v1
  have h2 : Keeps s v1 := by
    unfold v1
    refine Keeps.ite ?_ (fun _ => ?_)
    · exact h
    · exact State.mapPhs_keeps h
  clear_value v1
  refine Keeps.ite ?_ (fun _ => ?_)
  · exact h2
  · exact State.upSplice_keeps h2

theorem execLookAheadSample_keeps {p1} {p2} {p3} {p4} : KeepsRes s (execLookAheadSample p1 p2 p3 p4 s) := by
  have h := Keeps.refl s
  unfold execLookAheadSample
  extract_lets -merge +onlyGivenNames v1
  have h2 : Keeps s v1 := State.advance_keeps h
  clear_value v1
  extract_lets -merge +onlyGivenNames v3
  clear_value v3
  refine KeepsRes.next ?_
  refine Keeps.ite ?_ (fun _ => ?_)
  · exact h2
  · extract_lets -merge +onlyGivenNames v4
    clear_value v4
    refine Keeps.forEach ?_ (fun y5 y6 h7 => ?_)
    · exact State.setAcqPt_keeps h2
    · exact State.lookJudge_keeps h7

theorem State.faultOn_keeps {p2} {p3} (h : Keeps s x) : Keeps s (State.faultOn x p2 p3) := by
  unfold State.faultOn
  extract_lets -merge +onlyGivenNames v1
  have h2 : Keeps s v1 := State.notice_keeps (State.inc_keeps (State.wr_keeps h))
  clear_value v1
  extract_lets -merge +onlyGivenNames v3
  clear_value v3
  extract_lets -merge +onlyGivenNames v4
  have h5 : Keeps s v4 := by
    unfold v4
    refine Keeps.ite ?_ (fun _ => ?_)
    · exact h2
    · exact State.setNrgPt_keeps h2
  clear_value v4
  extract_lets -merge +onlyGivenNames v6
  have h7 : Keeps s v6 := by
    unfold v6
    refine Keeps.ite ?_ (fun _ => ?_)
    · exact h5
    · exact State.upSplice_keeps h5
  clear_value v6
  refine Keeps.ite ?_ (fun _ => ?_)
  · exact h7
  · exact State.pqEndAll_keeps h7

theorem execInputFault_keeps {p1} {p2} : KeepsRes s (execInputFault p1 p2 s) := by
  have h := Keeps.refl s
  unfold execInputFault
  extract_lets -merge +onlyGivenNames v1
  have h2 : Keeps s v1 := State.advance_keeps h
  clear_value v1
  refine KeepsRes.next ?_
  refine Keeps.ite ?_ (fun _ => ?_)
  · exact h2
  · exact State.faultOn_keeps h2

theorem execInputFaultClear_keeps {p1} {p2} : KeepsRes s (execInputFaultClear p1 p2 s) := by
  have h := Keeps.refl s
  unfold execInputFaultClear
  extract_lets -merge +onlyGivenNames v1
  have h2 : Keeps s v1 := State.advance_keeps h
  clear_value v1
  extract_lets -merge +onlyGivenNames v3
  clear_value v3
  refine KeepsRes.next ?_
  refine Keeps.ite ?_ (fun _ => ?_)
  · exact h2
  · exact State.wr_keeps h2

theorem State.lookup_keeps {p2} (h : Keeps s x) : Keeps s (State.lookup x p2) := by
  unfold State.lookup
  extract_lets -merge +onlyGivenNames v1 v2 v3
  clear_value v1 v2 v3
  exact State.showFading_keeps (State.tauSeen_keeps (State.setAcqPt_keeps h))

theorem execCurveLookup_keeps {p1} : KeepsRes s (execCurveLookup p1 s) := by
  have h := Keeps.refl s
  unfold execCurveLookup
  extract_lets -merge +onlyGivenNames v1
  have h2 : Keeps s v1 := State.advance_keeps h
  clear_value v1
  refine KeepsRes.next ?_
  refine Keeps.ite ?_ (fun _ => ?_)
  · exact h2
  · extract_lets -merge +onlyGivenNames v3
    clear_value v3
    extract_lets -merge +onlyGivenNames v4
    have h5 : Keeps s v4 := Keeps.fields h2
    clear_value v4
    refine Keeps.forEach ?_ (fun y6 y7 h8 => ?_)
    · exact h5
    · refine Keeps.ite ?_ (fun _ => ?_)
      · exact h8
      · exact State.lookup_keeps h8

theorem State.calWrite_keeps {p2} (h : Keeps s x) : Keeps s (State.calWrite x p2) := by
  unfold State.calWrite
  extract_lets -merge +onlyGivenNames v1
  clear_value v1
  extract_lets -merge +onlyGivenNames v2
  have h3 : Keeps s v2 := State.setFlag_keeps (State.store_keeps h)
  clear_value v2
  refine Keeps.ite ?_ (fun _ => ?_)
  · refine Keeps.ite ?_ (fun _ => ?_)
    · exact State.wr_keeps h3
    · exact State.notice_keeps (State.wr_keeps h3)
  · exact h3

theorem execCalCommit_keeps {p1} : KeepsRes s (execCalCommit p1 s) := by
  have h := Keeps.refl s
  unfold execCalCommit
  refine KeepsRes.next ?_
  refine State.hostGate_keeps h (fun y1 h2 => ?_)
  exact State.calWrite_keeps h2

theorem State.copyCurves_keeps (h : Keeps s x) : Keeps s (State.copyCurves x) := by
  unfold State.copyCurves
  refine Keeps.forEach ?_ (fun y1 y2 h3 => ?_)
  · exact h
  · exact State.put_keeps h3

theorem State.commitFade_keeps {p2} {p3} (h : Keeps s x) : Keeps s (State.commitFade x p2 p3) := by
  unfold State.commitFade
  extract_lets -merge +onlyGivenNames v1 v2 v3
  clear_value v1 v2 v3
  exact State.showFading_keeps (State.tauSeen_keeps (State.setAcqPt_keeps h))

theorem execCalCommitApply_keeps {p1} : KeepsRes s (execCalCommitApply p1 s) := by
  have h := Keeps.refl s
  unfold execCalCommitApply
  extract_lets -merge +onlyGivenNames v1
  have h2 : Keeps s v1 := State.advance_keeps h
  clear_value v1
  refine KeepsRes.next ?_
  refine Keeps.ite ?_ (fun _ => ?_)
  · exact h2
  · extract_lets -merge +onlyGivenNames v3
    have h4 : Keeps s v3 := State.copyCurves_keeps h2
    clear_value v3
    extract_lets -merge +onlyGivenNames v5
    have h6 : Keeps s v5 := by
      unfold v5
      refine Keeps.forEach ?_ (fun y7 y8 h9 => ?_)
      · exact h4
      · refine Keeps.ite ?_ (fun _ => ?_)
        · exact h9
        · exact State.commitFade_keeps h9
    clear_value v5
    exact State.calDone_keeps (Keeps.fields h6)

theorem State.bkdNotice_keeps {p2} {p3} {p4} {p5} (h : Keeps s x) : Keeps s (State.bkdNotice x p2 p3 p4 p5) := by
  unfold State.bkdNotice
  refine Keeps.ite ?_ (fun _ => ?_)
  · exact Keeps.fields h
  · exact State.notice_keeps h

theorem State.putBkdSec_keeps {p2} {p3} (h : Keeps s x) : Keeps s (State.putBkdSec x p2 p3) := by
  unfold State.putBkdSec
  extract_lets -merge +onlyGivenNames v1
  have h2 : Keeps s v1 := State.wr_keeps (State.wr_keeps h)
  clear_value v1
  refine Keeps.ite ?_ (fun _ => ?_)
  · exact h2
  · exact Keeps.fields h2

theorem State.showPon_keeps (h : Keeps s x) : Keeps s (State.showPon x) := by
  unfold State.showPon
  exact State.setFlag_keeps h

theorem State.fireAlarm_keeps {p2} (h : Keeps s x) : Keeps s (State.fireAlarm x p2) := by
  unfold State.fireAlarm
  extract_lets -merge +onlyGivenNames v1
  have h2 : Keeps s v1 := State.setFlag_keeps (State.setFlag_keeps (State.setFlag_keeps h))
  clear_value v1
  extract_lets -merge +onlyGivenNames v3
  clear_value v3
  extract_lets -merge +onlyGivenNames v4
  have h5 : Keeps s v4 := Keeps.fields h2
  clear_value v4
  extract_lets -merge +onlyGivenNames v6
  have h7 : Keeps s v6 := by
    unfold v6
    refine Keeps.ite ?_ (fun _ => ?_)
    · exact h5
    · exact State.showPon_keeps (State.setFlag_keeps h5)
  clear_value v6
  extract_lets -merge +onlyGivenNames v8
  have h9 : Keeps s v8 := State.bkdNotice_keeps h7
  clear_value v8
  refine Keeps.ite ?_ (fun _ => ?_)
  · exact h9
  · exact State.bkdNotice_keeps h9

theorem State.judgeAlarm_keeps (h : Keeps s x) : Keeps s (State.judgeAlarm x) := by
  unfold State.judgeAlarm
  refine Keeps.ite ?_ (fun _ => ?_)
  · exact h
  · refine Keeps.ite ?_ (fun _ => ?_)
    · refine Keeps.ite ?_ (fun _ => ?_)
      · exact h
      · exact State.fireAlarm_keeps h
    · exact State.fireAlarm_keeps h

theorem State.adjustBkd_keeps {p2} (h : Keeps s x) : Keeps s (State.adjustBkd x p2) := by
  unfold State.adjustBkd
  exact State.judgeAlarm_keeps (State.setFlag_keeps (State.putBkdSec_keeps h))

theorem State.commitBkd_keeps (h : Keeps s x) : Keeps s (State.commitBkd x) := by
  unfold State.commitBkd
  exact State.bkdNotice_keeps (State.wr_keeps (State.adjustBkd_keeps h))

theorem execBkdSecondTick_keeps {p1} : KeepsRes s (execBkdSecondTick p1 s) := by
  have h := Keeps.refl s
  unfold execBkdSecondTick
  extract_lets -merge +onlyGivenNames v1
  have h2 : Keeps s v1 := State.advance_keeps h
  clear_value v1
  refine KeepsRes.next ?_
  refine Keeps.ite ?_ (fun _ => ?_)
  · exact State.judgeAlarm_keeps (State.putBkdSec_keeps h2)
  · exact State.commitBkd_keeps h2

theorem execBkdCommitApply_keeps {p1} : KeepsRes s (execBkdCommitApply p1 s) := by
  have h := Keeps.refl s
  unfold execBkdCommitApply
  extract_lets -merge +onlyGivenNames v1
  have h2 : Keeps s v1 := State.advance_keeps h
  clear_value v1
  refine KeepsRes.next ?_
  refine Keeps.ite ?_ (fun _ => ?_)
  · exact h2
  · exact State.commitBkd_keeps h2

theorem State.bkdCommitWrite_keeps {p2} (h : Keeps s x) : Keeps s (State.bkdCommitWrite x p2) := by
  unfold State.bkdCommitWrite
  refine Keeps.ite ?_ (fun _ => ?_)
  · refine Keeps.ite ?_ (fun _ => ?_)
    · exact State.wr_keeps h
    · exact State.bkdNotice_keeps (State.wr_keeps (State.logRefused_keeps h))
  · exact h

theorem execBkdCommit_keeps {p1} : KeepsRes s (execBkdCommit p1 s) := by
  have h := Keeps.refl s
  unfold execBkdCommit
  refine KeepsRes.next ?_
  refine State.hostGate_keeps h (fun y1 h2 => ?_)
  exact State.bkdCommitWrite_keeps h2

theorem State.bkdFreeze_keeps {p2} (h : Keeps s x) : Keeps s (State.bkdFreeze x p2).2 := by
  unfold State.bkdFreeze
  extract_lets -merge +onlyGivenNames v1 v2
  clear_value v1 v2
  extract_lets -merge +onlyGivenNames v3
  have h4 : Keeps s v3 := Keeps.fields h
  clear_value v3
  split
  · refine Keeps.ite2 ?_ (fun _ => ?_)
    · exact Keeps.mk2 h
    · exact Keeps.mk2 h4
  · exact Keeps.mk2 h4

theorem execBkdSecFreeze_keeps : KeepsRes s (execBkdSecFreeze s) := by
  have h := Keeps.refl s
  unfold execBkdSecFreeze
  refine KeepsRes.next ?_
  refine State.hostRead_keeps h (fun y1 h2 => ?_)
  split
  rename_i z3 z4 z5 z6
  have h7 : Keeps s z5 := Keeps.of_snd z6 (State.bkdFreeze_keeps h2)
  exact State.answer_keeps h7

theorem execBkdSecWordRead_keeps : KeepsRes s (execBkdSecWordRead s) := by
  have h := Keeps.refl s
  unfold execBkdSecWordRead
  refine KeepsRes.next ?_
  refine State.hostRead_keeps h (fun y1 h2 => ?_)
  split
  rename_i z3 z4 z5 z6
  have h7 : Keeps s z5 := Keeps.of_snd z6 (State.bkdFreeze_keeps h2)
  exact State.answer_keeps h7

theorem execBkdSecRelease_keeps : KeepsRes s (execBkdSecRelease s) := by
  have h := Keeps.refl s
  unfold execBkdSecRelease
  refine KeepsRes.next ?_
  refine State.hostRead_keeps h (fun y1 h2 => ?_)
  split
  rename_i z3 z4 z5 z6
  have h7 : Keeps s z5 := Keeps.of_snd z6 (State.bkdFreeze_keeps h2)
  exact State.answer_keeps (Keeps.fields h7)

theorem execBackupClockWrite_keeps {p1} : KeepsRes s (execBackupClockWrite p1 s) := by
  have h := Keeps.refl s
  unfold execBackupClockWrite
  extract_lets -merge +onlyGivenNames v1
  have h2 : Keeps s v1 := State.advance_keeps h
  clear_value v1
  extract_lets -merge +onlyGivenNames v3
  clear_value v3
  refine KeepsRes.next ?_
  refine Keeps.ite ?_ (fun _ => ?_)
  · exact h2
  · extract_lets -merge +onlyGivenNames v4
    clear_value v4
    extract_lets -merge +onlyGivenNames v5
    have h6 : Keeps s v5 := Keeps.fields h2
    clear_value v5
    extract_lets -merge +onlyGivenNames v7
    clear_value v7
    exact State.adjustBkd_keeps (State.wr_keeps h6)

theorem State.almCtl_keeps {p2} (h : Keeps s x) : Keeps s (State.almCtl x p2) := by
  unfold State.almCtl
  extract_lets -merge +onlyGivenNames v1
  subst v1
  extract_lets -merge +onlyGivenNames v2
  have h3 : Keeps s v2 := State.store_keeps h
  clear_value v2
  extract_lets -merge +onlyGivenNames v4
  have h5 : Keeps s v4 := by
    unfold v4
    refine Keeps.ite ?_ (fun _ => ?_)
    · exact h3
    · exact State.setFlag_keeps h3
  clear_value v4
  refine Keeps.ite ?_ (fun _ => ?_)
  · exact h5
  · extract_lets -merge +onlyGivenNames v6
    clear_value v6
    extract_lets -merge +onlyGivenNames v7
    have h8 : Keeps s v7 := Keeps.fields h5
    clear_value v7
    extract_lets -merge +onlyGivenNames v9
    have h10 : Keeps s v9 := State.setFlag_keeps h8
    clear_value v9
    refine Keeps.ite ?_ (fun _ => ?_)
    · exact h10
    · exact State.fireAlarm_keeps h10

theorem execAlarmArm_keeps {p1} : KeepsRes s (execAlarmArm p1 s) := by
  have h := Keeps.refl s
  unfold execAlarmArm
  refine KeepsRes.next ?_
  refine State.hostGate_keeps h (fun y1 h2 => ?_)
  exact State.almCtl_keeps h2

theorem execAlarmDisarm_keeps {p1} : KeepsRes s (execAlarmDisarm p1 s) := by
  have h := Keeps.refl s
  unfold execAlarmDisarm
  refine KeepsRes.next ?_
  refine State.hostGate_keeps h (fun y1 h2 => ?_)
  exact State.almCtl_keeps h2

theorem execTcWindow_keeps {p1} : KeepsRes s (execTcWindow p1 s) := by
  have h := Keeps.refl s
  unfold execTcWindow
  refine KeepsRes.next ?_
  refine Keeps.ite ?_ (fun _ => ?_)
  · exact h
  · exact State.wr_keeps (State.wr_keeps h)

theorem execTrimWindow_keeps : KeepsRes s (execTrimWindow s) := by
  have h := Keeps.refl s
  unfold execTrimWindow
  refine KeepsRes.next ?_
  refine Keeps.ite ?_ (fun _ => ?_)
  · exact h
  · exact State.wr_keeps h

theorem State.ponOffWrite_keeps {p2} (h : Keeps s x) : Keeps s (State.ponOffWrite x p2) := by
  unfold State.ponOffWrite
  refine Keeps.ite ?_ (fun _ => ?_)
  · extract_lets -merge +onlyGivenNames v1
    have h2 : Keeps s v1 := State.showPon_keeps (State.store_keeps h)
    clear_value v1
    exact State.bkdNotice_keeps (Keeps.fields h2)
  · exact h

theorem execPonOff_keeps {p1} : KeepsRes s (execPonOff p1 s) := by
  have h := Keeps.refl s
  unfold execPonOff
  refine KeepsRes.next ?_
  refine State.hostGate_keeps h (fun y1 h2 => ?_)
  exact State.ponOffWrite_keeps h2

theorem execPonOffApply_keeps {p1} : KeepsRes s (execPonOffApply p1 s) := by
  have h := Keeps.refl s
  unfold execPonOffApply
  extract_lets -merge +onlyGivenNames v1
  have h2 : Keeps s v1 := State.advance_keeps h
  clear_value v1
  refine KeepsRes.next ?_
  split
  · refine Keeps.ite ?_ (fun _ => ?_)
    · exact State.showPon_keeps (State.setFlag_keeps (Keeps.fields h2))
    · exact h2
  · exact h2

theorem execOscStop_keeps {p1} : KeepsRes s (execOscStop p1 s) := by
  have h := Keeps.refl s
  unfold execOscStop
  extract_lets -merge +onlyGivenNames v1
  have h2 : Keeps s v1 := State.advance_keeps h
  clear_value v1
  refine KeepsRes.next ?_
  refine Keeps.ite ?_ (fun _ => ?_)
  · extract_lets -merge +onlyGivenNames v3
    have h4 : Keeps s v3 := State.setFlag_keeps h2
    clear_value v3
    refine Keeps.ite ?_ (fun _ => ?_)
    · exact h4
    · exact State.notice_keeps h4
  · exact h2

theorem execVbatLowChange_keeps {p1} : KeepsRes s (execVbatLowChange p1 s) := by
  have h := Keeps.refl s
  unfold execVbatLowChange
  extract_lets -merge +onlyGivenNames v1
  clear_value v1
  extract_lets -merge +onlyGivenNames v2
  have h3 : Keeps s v2 := State.setFlag_keeps h
  clear_value v2
  refine KeepsRes.next ?_
  refine Keeps.ite ?_ (fun _ => ?_)
  · exact h3
  · exact State.bkdNotice_keeps h3

theorem State.resetKinds_keeps {p2} (h : Keeps s x) : Keeps s (State.resetKinds x p2) := by
  unfold State.resetKinds
  refine Keeps.forEach ?_ (fun y1 y2 h3 => ?_)
  · exact h
  · exact State.setWord_keeps h3

theorem execBackupDomainPowered_keeps {p1} : KeepsRes s (execBackupDomainPowered p1 s) := by
  have h := Keeps.refl s
  unfold execBackupDomainPowered
  extract_lets -merge +onlyGivenNames v1
  have h2 : Keeps s v1 := State.advance_keeps h
  clear_value v1
  refine KeepsRes.next ?_
  refine Keeps.ite ?_ (fun _ => ?_)
  · extract_lets -merge +onlyGivenNames v3
    have h4 : Keeps s v3 := State.resetKinds_keeps h2
    clear_value v3
    exact Keeps.fields h4
  · exact h2

theorem State.defRestart_keeps {p2} {p3} (h : Keeps s x) : Keeps s (State.defRestart x p2 p3) := by
  unfold State.defRestart
  extract_lets -merge +onlyGivenNames v1
  clear_value v1
  extract_lets -merge +onlyGivenNames v2
  have h3 : Keeps s v2 := Keeps.fields h
  clear_value v2
  exact State.wr_keeps (State.clearDef_keeps h3)

theorem State.defTargetAt_keeps {p2} (h : Keeps s x) : Keeps s (State.defTargetAt x p2) := by
  unfold State.defTargetAt
  extract_lets -merge +onlyGivenNames v1 v2
  clear_value v1 v2
  extract_lets -merge +onlyGivenNames v3
  have h4 : Keeps s v3 := by
    unfold v3
    split
    · rename_i z5 z6 z7 z8 z9
      refine Keeps.ite ?_ (fun _ => ?_)
      · exact State.defRestart_keeps h
      · exact Keeps.fields h
    · rename_i z10 z11 z12
      exact h
    · rename_i z13 z14 z15 z16 z17
      exact State.defRestart_keeps h
  clear_value v3
  exact State.wr_keeps (State.wr_keeps h4)

theorem State.defWrite_keeps {p2} (h : Keeps s x) : Keeps s (State.defWrite x p2) := by
  unfold State.defWrite
  extract_lets -merge +onlyGivenNames v1 v2
  clear_value v1 v2
  extract_lets -merge +onlyGivenNames v3
  have h4 : Keeps s v3 := State.clearDef_keeps h
  clear_value v3
  extract_lets -merge +onlyGivenNames v5
  have h6 : Keeps s v5 := by
    unfold v5
    refine Keeps.forEach ?_ (fun y7 y8 h9 => ?_)
    · exact h4
    · extract_lets -merge +onlyGivenNames v10
      clear_value v10
      exact State.wr_keeps (State.setFlag_keeps (State.wr_keeps (State.wr_keeps (State.wr_keeps h9))))
  clear_value v5
  extract_lets -merge +onlyGivenNames v11
  clear_value v11
  extract_lets -merge +onlyGivenNames v12
  have h13 : Keeps s v12 := by
    unfold v12
    refine Keeps.forEach ?_ (fun y14 y15 h16 => ?_)
    · exact h6
    · exact State.wr_keeps (State.wr_keeps (State.setFlag_keeps h16))
  clear_value v12
  extract_lets -merge +onlyGivenNames v17
  have h18 : Keeps s v17 := State.wr_keeps (State.wr_keeps (State.setFlag_keeps h13))
  clear_value v17
  exact State.notice_keeps h18

theorem State.defEpochRun_keeps {p2} (h : Keeps s x) : Keeps s (State.defEpochRun x p2) := by
  unfold State.defEpochRun
  extract_lets -merge +onlyGivenNames v1
  have h2 : Keeps s v1 := State.defTargetAt_keeps h
  clear_value v1
  split
  · exact h2
  · extract_lets -merge +onlyGivenNames v3
    have h4 : Keeps s v3 := by
      unfold v3
      refine Keeps.ite ?_ (fun _ => ?_)
      · exact State.incSat_keeps h2
      · exact h2
    clear_value v3
    extract_lets -merge +onlyGivenNames v5
    clear_value v5
    refine Keeps.ite ?_ (fun _ => ?_)
    · exact State.defWrite_keeps h4
    · exact h4

theorem State.defRecheck_keeps (h : Keeps s x) : Keeps s (State.defRecheck x) := by
  unfold State.defRecheck
  refine Keeps.ite ?_ (fun _ => ?_)
  · extract_lets -merge +onlyGivenNames v1
    clear_value v1
    extract_lets -merge +onlyGivenNames v2
    have h3 : Keeps s v2 := Keeps.fields h
    clear_value v2
    extract_lets -merge +onlyGivenNames v4
    clear_value v4
    refine Keeps.ite ?_ (fun _ => ?_)
    · exact State.defJudge_keeps h3
    · exact h3
  · exact h

theorem State.defOff_keeps {p2} (h : Keeps s x) : Keeps s (State.defOff x p2) := by
  unfold State.defOff
  extract_lets -merge +onlyGivenNames v1
  have h2 : Keeps s v1 := State.defTargetAt_keeps h
  clear_value v1
  exact Keeps.fields h2

theorem State.defPass_keeps {p2} (h : Keeps s x) : Keeps s (State.defPass x p2) := by
  unfold State.defPass
  extract_lets -merge +onlyGivenNames v1
  have h2 : Keeps s v1 := State.defRecheck_keeps h
  clear_value v1
  refine Keeps.ite ?_ (fun _ => ?_)
  · refine Keeps.ite ?_ (fun _ => ?_)
    · exact h2
    · exact State.defEpochRun_keeps h2
  · exact State.defOff_keeps h2

theorem State.defSample_keeps {p2} {p3} (h : Keeps s x) : Keeps s (State.defSample x p2 p3) := by
  unfold State.defSample
  extract_lets -merge +onlyGivenNames v1
  clear_value v1
  extract_lets -merge +onlyGivenNames v2
  have h3 : Keeps s v2 := by
    unfold v2
    refine Keeps.ite ?_ (fun _ => ?_)
    · exact h
    · exact State.defPass_keeps h
  clear_value v2
  extract_lets -merge +onlyGivenNames v4
  exact Keeps.fields h3

theorem State.defPush_keeps {p2} {p3} (h : Keeps s x) : Keeps s (State.defPush x p2 p3) := by
  unfold State.defPush
  extract_lets -merge +onlyGivenNames v1
  clear_value v1
  exact Keeps.fields h

theorem State.defItem_keeps {p2} {p3} {p4} (h : Keeps s x) : Keeps s (State.defItem x p2 p3 p4) := by
  unfold State.defItem
  extract_lets -merge +onlyGivenNames v1
  clear_value v1
  refine Keeps.forEach ?_ (fun y2 y3 h4 => ?_)
  · exact h
  · extract_lets -merge +onlyGivenNames v5
    have h6 : Keeps s v5 := by
      unfold v5
      refine Keeps.ite ?_ (fun _ => ?_)
      · exact h4
      · exact State.defPush_keeps h4
    clear_value v5
    extract_lets -merge +onlyGivenNames v7
    clear_value v7
    extract_lets -merge +onlyGivenNames v8
    have h9 : Keeps s v8 := Keeps.fields h6
    clear_value v8
    split
    · exact State.defSample_keeps h9
    · exact h9

theorem execDefUpdate_keeps {p1} : KeepsRes s (execDefUpdate p1 s) := by
  have h := Keeps.refl s
  unfold execDefUpdate
  extract_lets -merge +onlyGivenNames v1
  have h2 : Keeps s v1 := State.advance_keeps h
  clear_value v1
  split
  · split
    · refine KeepsRes.next ?_
      refine Keeps.ite ?_ (fun _ => ?_)
      · exact h2
      · exact State.markRan_keeps (State.defItem_keeps h2)
    · exact KeepsRes.next h2
  · exact KeepsRes.next h2

theorem State.takeAdds_keeps {p2} (h : Keeps s x) : Keeps s (State.takeAdds x p2).1 := by
  unfold State.takeAdds
  extract_lets -merge +onlyGivenNames v1 v2
  clear_value v1 v2
  exact Keeps.mk1 (State.setRnd_keeps h)

theorem State.countLates_keeps {p2} {p3} {p4} (h : Keeps s x) : Keeps s (State.countLates x p2 p3 p4) := by
  unfold State.countLates
  refine Keeps.forEach ?_ (fun y1 y2 h3 => ?_)
  · exact h
  · exact State.countLate_keeps h3

theorem State.ownMember_keeps {p2} {p3} {p4} {p5} (h : Keeps s x) : Keeps s (State.ownMember x p2 p3 p4 p5).1 := by
  unfold State.ownMember
  split
  · exact Keeps.mk1 h
  · refine Keeps.ite1 ?_ (fun _ => ?_)
    · refine Keeps.ite1 ?_ (fun _ => ?_)
      · exact Keeps.mk1 h
      · exact Keeps.mk1 (State.deadLetter_keeps h)
    · exact Keeps.mk1 h

theorem State.composeOwn_keeps {p2} {p3} {p4} (h : Keeps s x) : Keeps s (State.composeOwn x p2 p3 p4).1 := by
  unfold State.composeOwn
  split
  rename_i z1 z2 z3 z4
  have h5 : Keeps s z2 := Keeps.of_fst z4 (State.takeAdds_keeps h)
  extract_lets -merge +onlyGivenNames v6
  have h7 : Keeps s v6 := State.countLates_keeps h5
  clear_value v6
  split
  rename_i z8 z9 z10 z11
  have h12 : Keeps s z9 := Keeps.of_fst z11 (by
    refine Keeps.foldl1 ?_ (fun y13 y14 h15 => ?_)
    · exact Keeps.mk1 h7
    · split
      rename_i z16 z17 z18 z19
      have h20 : Keeps s z17 := Keeps.of_fst z19 (State.ownMember_keeps h15)
      exact Keeps.mk1 h20)
  extract_lets -merge +onlyGivenNames v21
  clear_value v21
  exact Keeps.mk1 h12

theorem State.countInelig_keeps {p2} {p3} (h : Keeps s x) : Keeps s (State.countInelig x p2 p3) := by
  unfold State.countInelig
  extract_lets -merge +onlyGivenNames v1
  have h2 : Keeps s v1 := State.inc_keeps h
  clear_value v1
  extract_lets -merge +onlyGivenNames v3
  clear_value v3
  refine Keeps.ite ?_ (fun _ => ?_)
  · exact State.logEvent_keeps (State.whlNotice_keeps (State.setRnd_keeps h2))
  · exact h2

theorem State.essential_keeps {p2} {p3} {p4} (h : Keeps s x) : Keeps s (State.essential x p2 p3 p4) := by
  unfold State.essential
  extract_lets -merge +onlyGivenNames v1
  clear_value v1
  refine Keeps.ite ?_ (fun _ => ?_)
  · extract_lets -merge +onlyGivenNames v2
    clear_value v2
    extract_lets -merge +onlyGivenNames v3
    have h4 : Keeps s v3 := State.setRnd_keeps h
    clear_value v3
    refine Keeps.ite ?_ (fun _ => ?_)
    · exact State.whlNotice_keeps (State.setRnd_keeps h4)
    · exact h4
  · exact State.setRnd_keeps h

theorem State.presence_keeps {p2} {p3} (h : Keeps s x) : Keeps s (State.presence x p2 p3) := by
  unfold State.presence
  extract_lets -merge +onlyGivenNames v1
  clear_value v1
  extract_lets -merge +onlyGivenNames v2
  have h3 : Keeps s v2 := by
    unfold v2
    refine Keeps.forEach ?_ (fun y4 y5 h6 => ?_)
    · exact h
    · exact State.countInelig_keeps h6
  clear_value v2
  extract_lets -merge +onlyGivenNames v7
  have h8 : Keeps s v7 := by
    unfold v7
    refine Keeps.forEach ?_ (fun y9 y10 h11 => ?_)
    · exact h3
    · exact State.essential_keeps h11
  clear_value v7
  exact State.showMembers_keeps h8

theorem State.spawnIsl_keeps {p2} {p3} (h : Keeps s x) : Keeps s (State.spawnIsl x p2 p3) := by
  unfold State.spawnIsl
  refine Keeps.ite ?_ (fun _ => ?_)
  · extract_lets -merge +onlyGivenNames v1
    clear_value v1
    extract_lets -merge +onlyGivenNames v2
    have h3 : Keeps s v2 := Keeps.fields h
    clear_value v2
    exact State.enqueue_keeps (State.enqueue_keeps h3)
  · exact h

theorem State.spawn_keeps {p2} {p3} (h : Keeps s x) : Keeps s (State.spawn x p2 p3) := by
  unfold State.spawn
  extract_lets -merge +onlyGivenNames v1
  clear_value v1
  extract_lets -merge +onlyGivenNames v2
  have h3 : Keeps s v2 := State.enqueue_keeps h
  clear_value v2
  extract_lets -merge +onlyGivenNames v4
  have h5 : Keeps s v4 := State.spawnIsl_keeps h3
  clear_value v4
  extract_lets -merge +onlyGivenNames v6
  have h7 : Keeps s v6 := by
    unfold v6
    refine Keeps.forEach ?_ (fun y8 y9 h10 => ?_)
    · exact h5
    · exact State.enqueue_keeps h10
  clear_value v6
  extract_lets -merge +onlyGivenNames v11
  have h12 : Keeps s v11 := by
    unfold v11
    refine Keeps.forEach ?_ (fun y13 y14 h15 => ?_)
    · exact h7
    · exact State.enqueue_keeps h15
  clear_value v11
  refine Keeps.ite ?_ (fun _ => ?_)
  · exact h12
  · exact State.enqueue_keeps h12

theorem State.openSlot_keeps {p2} {p3} {p4} (h : Keeps s x) : Keeps s (State.openSlot x p2 p3 p4) := by
  unfold State.openSlot
  extract_lets -merge +onlyGivenNames v1
  have h2 : Keeps s v1 := by
    unfold v1
    refine Keeps.ite ?_ (fun _ => ?_)
    · exact h
    · exact State.forceOldest_keeps h
  clear_value v1
  extract_lets -merge +onlyGivenNames v3 v4
  clear_value v3 v4
  exact State.setRnd_keeps h2

theorem State.dispatchBag_keeps {p2} {p3} (h : Keeps s x) : Keeps s (State.dispatchBag x p2 p3) := by
  unfold State.dispatchBag
  extract_lets -merge +onlyGivenNames v1
  clear_value v1
  extract_lets -merge +onlyGivenNames v2
  have h3 : Keeps s v2 := State.presence_keeps h
  clear_value v2
  extract_lets -merge +onlyGivenNames v4
  have h5 : Keeps s v4 := State.countDraws_keeps h3
  clear_value v4
  extract_lets -merge +onlyGivenNames v6
  clear_value v6
  extract_lets -merge +onlyGivenNames v7
  have h8 : Keeps s v7 := State.setRnd_keeps h5
  clear_value v7
  extract_lets -merge +onlyGivenNames v9
  have h10 : Keeps s v9 := State.inc_keeps h8
  clear_value v9
  extract_lets -merge +onlyGivenNames v11
  have h12 : Keeps s v11 := by
    unfold v11
    refine Keeps.ite ?_ (fun _ => ?_)
    · exact h10
    · exact State.inc_keeps h10
  clear_value v11
  extract_lets -merge +onlyGivenNames v13
  clear_value v13
  extract_lets -merge +onlyGivenNames v14
  have h15 : Keeps s v14 := by
    unfold v14
    refine Keeps.ite ?_ (fun _ => ?_)
    · exact h12
    · exact State.wr_keeps h12
  clear_value v14
  extract_lets -merge +onlyGivenNames v16
  have h17 : Keeps s v16 := State.spawn_keeps (State.openSlot_keeps h15)
  clear_value v16
  extract_lets -merge +onlyGivenNames v18
  have h19 : Keeps s v18 := State.capMailbag_keeps h17
  clear_value v18
  refine Keeps.ite ?_ (fun _ => ?_)
  · exact h19
  · exact State.plkSend_keeps h19

theorem State.retireDue_keeps (h : Keeps s x) : Keeps s (State.retireDue x) := by
  unfold State.retireDue
  extract_lets -merge +onlyGivenNames v1 v2 v3
  clear_value v1 v2 v3
  extract_lets -merge +onlyGivenNames v4
  have h5 : Keeps s v4 := Keeps.fields h
  clear_value v4
  extract_lets -merge +onlyGivenNames v6
  have h7 : Keeps s v6 := by
    unfold v6
    refine Keeps.forEach ?_ (fun y8 y9 h10 => ?_)
    · exact h5
    · refine Keeps.ite ?_ (fun _ => ?_)
      · exact h10
      · exact State.retire_keeps h10
  clear_value v6
  refine Keeps.forEach ?_ (fun y11 y12 h13 => ?_)
  · exact h7
  · exact State.dropSender_keeps h13

theorem State.rnd0Boundary_keeps {p2} {p3} (h : Keeps s x) : Keeps s (State.rnd0Boundary x p2 p3) := by
  unfold State.rnd0Boundary
  extract_lets -merge +onlyGivenNames v1
  clear_value v1
  extract_lets -merge +onlyGivenNames v2
  have h3 : Keeps s v2 := Keeps.fields h
  clear_value v2
  extract_lets -merge +onlyGivenNames v4
  have h5 : Keeps s v4 := State.mirrorBoundary_keeps h3
  clear_value v4
  split
  rename_i z6 z7 z8 z9
  have h10 : Keeps s z7 := Keeps.of_fst z9 (State.roleBoundary_keeps h5)
  extract_lets -merge +onlyGivenNames v11
  have h12 : Keeps s v11 := State.restoreBoundary_keeps h10
  clear_value v11
  extract_lets -merge +onlyGivenNames v13
  have h14 : Keeps s v13 := by
    unfold v13
    refine Keeps.ite ?_ (fun _ => ?_)
    · exact State.requestBoundary_keeps h12
    · exact h12
  clear_value v13
  extract_lets -merge +onlyGivenNames v15
  have h16 : Keeps s v15 := State.retireDue_keeps h14
  clear_value v15
  extract_lets -merge +onlyGivenNames v17
  have h18 : Keeps s v17 := by
    unfold v17
    refine Keeps.ite ?_ (fun _ => ?_)
    · exact h16
    · exact State.placementBoundary_keeps h16
  clear_value v17
  exact State.sendMap_keeps h18

theorem State.countOffGrid_keeps {p2} {p3} {p4} (h : Keeps s x) : Keeps s (State.countOffGrid x p2 p3 p4) := by
  unfold State.countOffGrid
  refine Keeps.ite ?_ (fun _ => ?_)
  · exact h
  · refine Keeps.forEach ?_ (fun y1 y2 h3 => ?_)
    · exact h
    · refine Keeps.ite ?_ (fun _ => ?_)
      · exact h3
      · exact State.deadLetter_keeps h3

theorem State.checkLetters_keeps {p2} {p3} {p4} (h : Keeps s x) : Keeps s (State.checkLetters x p2 p3 p4) := by
  unfold State.checkLetters
  split
  · exact h
  · split
    extract_lets -merge +onlyGivenNames v1 v2
    clear_value v1 v2
    refine Keeps.ite ?_ (fun _ => ?_)
    · exact State.plkSend_keeps h
    · exact h

theorem State.pairFiled_keeps {p2} {p3} (h : Keeps s x) : Keeps s (State.pairFiled x p2 p3) := by
  unfold State.pairFiled
  refine Keeps.ite ?_ (fun _ => ?_)
  · refine Keeps.ite ?_ (fun _ => ?_)
    · extract_lets -merge +onlyGivenNames v1
      clear_value v1
      extract_lets -merge +onlyGivenNames v2
      have h3 : Keeps s v2 := Keeps.fields h
      clear_value v2
      refine Keeps.ite ?_ (fun _ => ?_)
      · exact h3
      · exact State.plkSend_keeps (State.inc_keeps h3)
    · exact State.inc_keeps h
  · exact h

theorem State.idleBoundary_keeps {p2} (h : Keeps s x) : Keeps s (State.idleBoundary x p2) := by
  unfold State.idleBoundary
  extract_lets -merge +onlyGivenNames v1
  have h2 : Keeps s v1 := State.runCheck_keeps (State.mirrorBoundary_keeps (State.layoutBoundary_keeps h))
  clear_value v1
  extract_lets -merge +onlyGivenNames v3
  have h4 : Keeps s v3 := by
    unfold v3
    refine Keeps.ite ?_ (fun _ => ?_)
    · exact h2
    · exact State.runEntry_keeps h2
  clear_value v3
  exact State.sendMap_keeps (State.placementBoundary_keeps (State.retireDue_keeps (State.requestBoundary_keeps h4)))

theorem State.roundInstant_keeps {p2} {p3} (h : Keeps s x) : Keeps s (State.roundInstant x p2 p3) := by
  unfold State.roundInstant
  extract_lets -merge +onlyGivenNames v1
  clear_value v1
  refine Keeps.ite ?_ (fun _ => ?_)
  · refine Keeps.ite ?_ (fun _ => ?_)
    · exact h
    · exact State.idleBoundary_keeps h
  · extract_lets -merge +onlyGivenNames v2
    clear_value v2
    extract_lets -merge +onlyGivenNames v3
    have h4 : Keeps s v3 := by
      unfold v3
      refine Keeps.ite ?_ (fun _ => ?_)
      · exact h
      · exact Keeps.fields h
    clear_value v3
    extract_lets -merge +onlyGivenNames v5 v6
    clear_value v5 v6
    refine Keeps.ite ?_ (fun _ => ?_)
    · exact h4
    · exact State.openBag_keeps h4

theorem execDeadlineClose_keeps {p1} {p2} : KeepsRes s (execDeadlineClose p1 p2 s) := by
  have h := Keeps.refl s
  unfold execDeadlineClose
  extract_lets -merge +onlyGivenNames v1
  have h2 : Keeps s v1 := State.advance_keeps h
  clear_value v1
  extract_lets -merge +onlyGivenNames v3 v4
  clear_value v3 v4
  exact KeepsRes.next (State.showOcc_keeps (State.setRnd_keeps h2))

theorem State.command_keeps {p2} {p3} (h : Keeps s x) (kp3 : ∀ b1 b2, Keeps s b1 → Keeps s (p3 b1 b2)) : Keeps s (State.command x p2 p3) := by
  unfold State.command
  refine Keeps.ite ?_ (fun _ => ?_)
  · split
    · exact State.deadFrame_keeps h
    · split
      · exact State.disc_keeps h
      · exact kp3 _ _ h
  · exact State.disc_keeps h

theorem State.answerTo_keeps {p2} {p3} (h : Keeps s x) : Keeps s (State.answerTo x p2 p3) := by
  unfold State.answerTo
  exact State.tx_keeps h

theorem State.cmdSendCfg_keeps {p2} (h : Keeps s x) : Keeps s (State.cmdSendCfg x p2) := by
  unfold State.cmdSendCfg
  refine State.command_keeps h (fun y1 y2 h3 => ?_)
  exact State.answerTo_keeps h3

theorem State.cmdSendHeader_keeps {p2} (h : Keeps s x) : Keeps s (State.cmdSendHeader x p2) := by
  unfold State.cmdSendHeader
  refine State.command_keeps h (fun y1 y2 h3 => ?_)
  exact State.answerTo_keeps h3

theorem State.cmdDataOn_keeps {p2} (h : Keeps s x) : Keeps s (State.cmdDataOn x p2) := by
  unfold State.cmdDataOn
  refine State.command_keeps h (fun y1 y2 h3 => ?_)
  exact State.setRnd_keeps h3

theorem State.cmdDataOff_keeps {p2} (h : Keeps s x) : Keeps s (State.cmdDataOff x p2) := by
  unfold State.cmdDataOff
  refine State.command_keeps h (fun y1 y2 h3 => ?_)
  exact State.setRnd_keeps h3

theorem State.cmdOther_keeps {p2} (h : Keeps s x) : Keeps s (State.cmdOther x p2) := by
  unfold State.cmdOther
  refine State.command_keeps h (fun y1 y2 h3 => ?_)
  exact State.inc_keeps h3

theorem State.anyCommand_keeps {p2} (h : Keeps s x) : Keeps s (State.anyCommand x p2) := by
  unfold State.anyCommand
  extract_lets -merge +onlyGivenNames v1
  clear_value v1
  refine Keeps.ite ?_ (fun _ => ?_)
  · refine Keeps.ite ?_ (fun _ => ?_)
    · refine Keeps.ite ?_ (fun _ => ?_)
      · refine Keeps.ite ?_ (fun _ => ?_)
        · exact State.cmdOther_keeps h
        · exact State.cmdSendCfg_keeps h
      · exact State.cmdSendHeader_keeps h
    · exact State.cmdDataOn_keeps h
  · exact State.cmdDataOff_keeps h

theorem execCmdSendCfg_keeps {p1} : KeepsRes s (execCmdSendCfg p1 s) := by
  have h := Keeps.refl s
  unfold execCmdSendCfg
  refine KeepsRes.next ?_
  refine State.onFrame_keeps h (fun y1 h2 => ?_)
  exact State.cmdSendCfg_keeps h2

theorem execCmdSendHeader_keeps {p1} : KeepsRes s (execCmdSendHeader p1 s) := by
  have h := Keeps.refl s
  unfold execCmdSendHeader
  refine KeepsRes.next ?_
  refine State.onFrame_keeps h (fun y1 h2 => ?_)
  exact State.cmdSendHeader_keeps h2

theorem execCmdDataOn_keeps {p1} : KeepsRes s (execCmdDataOn p1 s) := by
  have h := Keeps.refl s
  unfold execCmdDataOn
  refine KeepsRes.next ?_
  refine State.onFrame_keeps h (fun y1 h2 => ?_)
  exact State.cmdDataOn_keeps h2

theorem execCmdDataOff_keeps {p1} : KeepsRes s (execCmdDataOff p1 s) := by
  have h := Keeps.refl s
  unfold execCmdDataOff
  refine KeepsRes.next ?_
  refine State.onFrame_keeps h (fun y1 h2 => ?_)
  exact State.cmdDataOff_keeps h2

theorem execCmdOther_keeps {p1} : KeepsRes s (execCmdOther p1 s) := by
  have h := Keeps.refl s
  unfold execCmdOther
  refine KeepsRes.next ?_
  refine State.onFrame_keeps h (fun y1 h2 => ?_)
  exact State.cmdOther_keeps h2

theorem State.lsForm_keeps {p2} {p3} {p4} (h : Keeps s x) : Keeps s (State.lsForm x p2 p3 p4) := by
  unfold State.lsForm
  extract_lets -merge +onlyGivenNames v1 v2
  clear_value v1 v2
  extract_lets -merge +onlyGivenNames v3
  have h4 : Keeps s v3 := State.setFlag_keeps (State.setAcqLs_keeps h)
  clear_value v3
  extract_lets -merge +onlyGivenNames v5
  have h6 : Keeps s v5 := State.inc_keeps h4
  clear_value v5
  extract_lets -merge +onlyGivenNames v7
  have h8 : Keeps s v7 := by
    unfold v7
    refine Keeps.ite ?_ (fun _ => ?_)
    · exact h6
    · exact State.inc_keeps h6
  clear_value v7
  extract_lets -merge +onlyGivenNames v9
  have h10 : Keeps s v9 := State.wr_keeps (State.wr64_keeps (State.bump64_keeps h8))
  clear_value v9
  extract_lets -merge +onlyGivenNames v11
  clear_value v11
  extract_lets -merge +onlyGivenNames v12
  have h13 : Keeps s v12 := Keeps.fields h10
  clear_value v12
  refine Keeps.ite ?_ (fun _ => ?_)
  · exact State.handOver_keeps h13
  · exact h13

theorem State.svLetter_keeps {p2} (h : Keeps s x) : Keeps s (State.svLetter x p2) := by
  unfold State.svLetter
  extract_lets -merge +onlyGivenNames v1
  clear_value v1
  split
  · exact h
  · extract_lets -merge +onlyGivenNames v2 v3 v4
    clear_value v2 v3 v4
    extract_lets -merge +onlyGivenNames v5
    have h6 : Keeps s v5 := State.bump_keeps h
    clear_value v5
    extract_lets -merge +onlyGivenNames v7
    clear_value v7
    extract_lets -merge +onlyGivenNames v8
    have h9 : Keeps s v8 := Keeps.fields h6
    clear_value v8
    exact State.lsForm_keeps h9

theorem execLocalLetter_keeps {p1} {p2} : KeepsRes s (execLocalLetter p1 p2 s) := by
  have h := Keeps.refl s
  unfold execLocalLetter
  extract_lets -merge +onlyGivenNames v1
  have h2 : Keeps s v1 := State.advance_keeps h
  clear_value v1
  refine KeepsRes.next ?_
  split
  · refine Keeps.ite ?_ (fun _ => ?_)
    · exact h2
    · refine Keeps.ite ?_ (fun _ => ?_)
      · exact State.svLetter_keeps h2
      · exact State.lsForm_keeps h2
  · exact h2

theorem execSvWaitTimeout_keeps {p1} {p2} : KeepsRes s (execSvWaitTimeout p1 p2 s) := by
  have h := Keeps.refl s
  unfold execSvWaitTimeout
  extract_lets -merge +onlyGivenNames v1
  have h2 : Keeps s v1 := State.advance_keeps h
  clear_value v1
  extract_lets -merge +onlyGivenNames v3
  clear_value v3
  refine KeepsRes.next ?_
  split
  · refine Keeps.ite ?_ (fun _ => ?_)
    · exact h2
    · exact State.svLetter_keeps h2
  · exact h2

theorem execSvLost_keeps {p1} {p2} : KeepsRes s (execSvLost p1 p2 s) := by
  have h := Keeps.refl s
  unfold execSvLost
  extract_lets -merge +onlyGivenNames v1
  have h2 : Keeps s v1 := State.advance_keeps h
  clear_value v1
  refine KeepsRes.next ?_
  refine Keeps.ite ?_ (fun _ => ?_)
  · exact h2
  · exact State.notice_keeps (State.setFlag_keeps h2)

theorem State.svTake_keeps {p2} {p3} (h : Keeps s x) : Keeps s (State.svTake x p2 p3) := by
  unfold State.svTake
  extract_lets -merge +onlyGivenNames v1
  clear_value v1
  refine Keeps.ite ?_ (fun _ => ?_)
  · extract_lets -merge +onlyGivenNames v2
    clear_value v2
    extract_lets -merge +onlyGivenNames v3
    have h4 : Keeps s v3 := Keeps.fields h
    clear_value v3
    extract_lets -merge +onlyGivenNames v5
    have h6 : Keeps s v5 := State.setFlag_keeps h4
    clear_value v5
    extract_lets -merge +onlyGivenNames v7
    clear_value v7
    extract_lets -merge +onlyGivenNames v8
    have h9 : Keeps s v8 := State.setFlag_keeps h6
    clear_value v8
    extract_lets -merge +onlyGivenNames v10
    have h11 : Keeps s v10 := by
      unfold v10
      refine Keeps.ite ?_ (fun _ => ?_)
      · exact h9
      · exact State.notice_keeps h9
    clear_value v10
    extract_lets -merge +onlyGivenNames v12 v13
    clear_value v12 v13
    refine Keeps.ite ?_ (fun _ => ?_)
    · extract_lets -merge +onlyGivenNames v14 v15 v16 v17 v18
      clear_value v14 v15 v16 v17 v18
      extract_lets -merge +onlyGivenNames v19
      have h20 : Keeps s v19 := Keeps.fields h11
      clear_value v19
      extract_lets -merge +onlyGivenNames v21
      clear_value v21
      refine Keeps.ite ?_ (fun _ => ?_)
      · exact h20
      · exact State.setAcqLs_keeps h20
    · exact State.inc_keeps h11
  · exact State.inc_keeps h

theorem execSvAsdu_keeps {p1} : KeepsRes s (execSvAsdu p1 s) := by
  have h := Keeps.refl s
  unfold execSvAsdu
  refine KeepsRes.next ?_
  split
  · rename_i z1 z2 z3
    have h4 : Keeps s z2 := Keeps.of_fst z3 (by
      refine Keeps.ite1 ?_ (fun _ => ?_)
      · exact State.rxMore_keeps h
      · exact State.rxFront_keeps h)
    refine Keeps.ite ?_ (fun _ => ?_)
    · refine Keeps.ite ?_ (fun _ => ?_)
      · exact h4
      · exact State.disc_keeps h4
    · refine Keeps.forEach ?_ (fun y5 y6 h7 => ?_)
      · exact h4
      · exact State.svTake_keeps h7
  · rename_i z8 z9 z10
    have h11 : Keeps s z9 := Keeps.of_fst z10 (by
      refine Keeps.ite1 ?_ (fun _ => ?_)
      · exact State.rxMore_keeps h
      · exact State.rxFront_keeps h)
    exact h11

theorem execChainFilled_keeps {p1} {p2} : KeepsRes s (execChainFilled p1 p2 s) := by
  have h := Keeps.refl s
  unfold execChainFilled
  extract_lets -merge +onlyGivenNames v1
  have h2 : Keeps s v1 := State.advance_keeps h
  clear_value v1
  extract_lets -merge +onlyGivenNames v3
  clear_value v3
  refine KeepsRes.next ?_
  refine Keeps.ite ?_ (fun _ => ?_)
  · exact h2
  · extract_lets -merge +onlyGivenNames v4
    clear_value v4
    extract_lets -merge +onlyGivenNames v5
    have h6 : Keeps s v5 := State.setFlag_keeps (State.setAcqPt_keeps h2)
    clear_value v5
    extract_lets -merge +onlyGivenNames v7
    have h8 : Keeps s v7 := by
      unfold v7
      refine Keeps.forEach ?_ (fun y9 y10 h11 => ?_)
      · exact h6
      · refine Keeps.ite ?_ (fun _ => ?_)
        · exact h11
        · exact State.setAcqLs_keeps h11
    clear_value v7
    exact State.capFilled_keeps h8

theorem State.datagram_keeps {p2} {p3} {p4} (h : Keeps s x) : Keeps s (State.datagram x p2 p3 p4) := by
  unfold State.datagram
  extract_lets -merge +onlyGivenNames v1
  clear_value v1
  refine Keeps.ite ?_ (fun _ => ?_)
  · refine Keeps.ite ?_ (fun _ => ?_)
    · refine Keeps.ite ?_ (fun _ => ?_)
      · exact State.c37Cfg_keeps h
      · exact State.anyCommand_keeps h
    · exact State.c37Data_keeps h
  · exact State.spduIn_keeps h

theorem State.fragJoin_keeps {p2} {p3} {p4} {p5} (h : Keeps s x) : Keeps s (State.fragJoin x p2 p3 p4 p5) := by
  unfold State.fragJoin
  extract_lets -merge +onlyGivenNames v1
  clear_value v1
  split
  · refine Keeps.ite ?_ (fun _ => ?_)
    · exact State.datagram_keeps (State.dropFrag_keeps h)
    · exact State.reasmFail_keeps (State.dropFrag_keeps h)
  · exact Keeps.fields h

theorem State.fragIn_keeps {p2} {p3} {p4} (h : Keeps s x) : Keeps s (State.fragIn x p2 p3 p4) := by
  unfold State.fragIn
  split
  · refine Keeps.ite ?_ (fun _ => ?_)
    · exact State.fragJoin_keeps h
    · exact State.reasmFail_keeps h
  · exact State.fragJoin_keeps h

theorem execFragment_keeps {p1} {p2} : KeepsRes s (execFragment p1 p2 s) := by
  have h := Keeps.refl s
  unfold execFragment
  refine KeepsRes.next ?_
  refine State.onFrame_keeps h (fun y1 h2 => ?_)
  exact State.fragIn_keeps h2

end Sys2Proof.Machine
end

