-- ==== Sys2Proof/Laws/KeepsKeys.lean ====
section
/-! SUPPORT. Each operation and each meaning keeps what `Keeps` says: energy, the Strongroom and the flash. -/
namespace Sys2Proof.Machine

variable {s x : State}

theorem State.nrgWrap_keeps {p2} {p3} (h : Keeps s x) : Keeps s (State.nrgWrap x p2 p3) := by
  unfold State.nrgWrap
  exact State.notice_keeps (State.inc_keeps (State.setFlag_keeps h))

theorem State.billAdd_keeps {p2} {p3} (h : Keeps s x) : Keeps s (State.billAdd x p2 p3) := by
  unfold State.billAdd
  extract_lets -merge +onlyGivenNames v1 v2 v3 v4
  clear_value v1 v2 v3 v4
  refine Keeps.forEach ?_ (fun y5 y6 h7 => ?_)
  · exact State.setNrgPt_keeps h
  · exact State.nrgWrap_keeps h7

theorem State.snapTake_keeps {p2} {p3} (h : Keeps s x) : Keeps s (State.snapTake x p2 p3) := by
  unfold State.snapTake
  extract_lets -merge +onlyGivenNames v1
  clear_value v1
  refine Keeps.ite ?_ (fun _ => ?_)
  · exact h
  · extract_lets -merge +onlyGivenNames v2
    have h3 : Keeps s v2 := State.setNrgPt_keeps h
    clear_value v2
    extract_lets -merge +onlyGivenNames v4
    have h5 : Keeps s v4 := by
      unfold v4
      refine Keeps.forEach ?_ (fun y6 y7 h8 => ?_)
      · exact h3
      · exact State.wr64_keeps (State.wr64_keeps h8)
    clear_value v4
    exact State.snapFinish_keeps (State.wr_keeps (State.wr_keeps h5))

theorem State.presetTake_keeps {p2} {p3} (h : Keeps s x) : Keeps s (State.presetTake x p2 p3) := by
  unfold State.presetTake
  extract_lets -merge +onlyGivenNames v1
  clear_value v1
  split
  · exact h
  · extract_lets -merge +onlyGivenNames v2
    have h3 : Keeps s v2 := State.setNrgPt_keeps h
    clear_value v2
    refine Keeps.ite ?_ (fun _ => ?_)
    · extract_lets -merge +onlyGivenNames v4 v5 v6
      clear_value v4 v5 v6
      extract_lets -merge +onlyGivenNames v7
      have h8 : Keeps s v7 := State.setNrgPt_keeps h3
      clear_value v7
      extract_lets -merge +onlyGivenNames v9
      have h10 : Keeps s v9 := State.noticeQuiet_keeps (State.wr_keeps h8)
      clear_value v9
      exact State.logEvent_keeps (State.logEvent_keeps h10)
    · exact State.notice_keeps (State.wr_keeps h3)

theorem State.ivOpen_keeps {p2} {p3} (h : Keeps s x) : Keeps s (State.ivOpen x p2 p3) := by
  unfold State.ivOpen
  extract_lets -merge +onlyGivenNames v1 v2
  clear_value v1 v2
  split
  · refine Keeps.ite ?_ (fun _ => ?_)
    · exact State.setNrgPt_keeps h
    · exact h
  · exact State.setNrgPt_keeps h

theorem State.ivClose_keeps {p2} {p3} (h : Keeps s x) : Keeps s (State.ivClose x p2 p3) := by
  unfold State.ivClose
  extract_lets -merge +onlyGivenNames v1
  clear_value v1
  split
  · exact h
  · refine Keeps.ite ?_ (fun _ => ?_)
    · exact h
    · extract_lets -merge +onlyGivenNames v2 v3 v4
      clear_value v2 v3 v4
      refine Keeps.ite ?_ (fun _ => ?_)
      · exact State.setNrgPt_keeps h
      · exact State.setNrgPt_keeps h

theorem execIntervalEnd_keeps {p1} {p2} : KeepsRes s (execIntervalEnd p1 p2 s) := by
  have h := Keeps.refl s
  unfold execIntervalEnd
  extract_lets -merge +onlyGivenNames v1
  have h2 : Keeps s v1 := State.advance_keeps h
  clear_value v1
  extract_lets -merge +onlyGivenNames v3 v4
  clear_value v3 v4
  refine KeepsRes.next ?_
  split
  · exact h2
  · extract_lets -merge +onlyGivenNames v5 v6 v7
    clear_value v5 v6 v7
    extract_lets -merge +onlyGivenNames v8
    have h9 : Keeps s v8 := State.setNrgPt_keeps h2
    clear_value v8
    extract_lets -merge +onlyGivenNames v10
    clear_value v10
    extract_lets -merge +onlyGivenNames v11
    have h12 : Keeps s v11 := State.nrgOffer_keeps h9
    clear_value v11
    extract_lets -merge +onlyGivenNames v13 v14
    clear_value v13 v14
    extract_lets -merge +onlyGivenNames v15
    have h16 : Keeps s v15 := by
      unfold v15
      refine Keeps.forEach ?_ (fun y17 y18 h19 => ?_)
      · exact h12
      · exact State.wr_keeps h19
    clear_value v15
    exact State.notice_keeps h16

theorem State.turn_keeps {p2} {p3} {p4} {p5} (h : Keeps s x) : Keeps s (State.turn x p2 p3 p4 p5) := by
  unfold State.turn
  extract_lets -merge +onlyGivenNames v1 v2
  clear_value v1 v2
  refine Keeps.ite ?_ (fun _ => ?_)
  · exact State.notice_keeps (State.setFlag_keeps h)
  · exact h

theorem State.direct_keeps {p2} {p3} (h : Keeps s x) : Keeps s (State.direct x p2 p3) := by
  unfold State.direct
  extract_lets -merge +onlyGivenNames v1
  clear_value v1
  extract_lets -merge +onlyGivenNames v2
  have h3 : Keeps s v2 := State.turn_keeps (State.turn_keeps h)
  clear_value v2
  exact State.setFlag_keeps h3

theorem State.meter_keeps {p2} {p3} (h : Keeps s x) : Keeps s (State.meter x p2 p3) := by
  unfold State.meter
  extract_lets -merge +onlyGivenNames v1 v2 v3 v4 v5 v6 v7 v8 v9
  clear_value v1 v2 v3 v4 v5 v6 v7 v8 v9
  extract_lets -merge +onlyGivenNames v10
  have h11 : Keeps s v10 := by
    unfold v10
    refine Keeps.ite ?_ (fun _ => ?_)
    · exact State.billAdd_keeps h
    · exact State.inc_keeps (State.setNrgPt_keeps h)
  clear_value v10
  extract_lets -merge +onlyGivenNames v12 v13
  clear_value v12 v13
  extract_lets -merge +onlyGivenNames v14
  have h15 : Keeps s v14 := State.setNrgPt_keeps h11
  clear_value v14
  extract_lets -merge +onlyGivenNames v16
  have h17 : Keeps s v16 := by
    unfold v16
    refine Keeps.forEach ?_ (fun y18 y19 h20 => ?_)
    · exact h15
    · exact State.wr_keeps h20
  clear_value v16
  exact State.direct_keeps (State.setFlag_keeps (State.setFlag_keeps h17))

theorem State.unmeter_keeps {p2} {p3} (h : Keeps s x) : Keeps s (State.unmeter x p2 p3) := by
  unfold State.unmeter
  extract_lets -merge +onlyGivenNames v1 v2
  clear_value v1 v2
  exact State.setFlag_keeps (State.inc_keeps (State.setNrgPt_keeps h))

theorem State.nrgPersist_keeps {p2} (h : Keeps s x) : Keeps s (State.nrgPersist x p2) := by
  unfold State.nrgPersist
  extract_lets -merge +onlyGivenNames v1
  clear_value v1
  refine Keeps.ite ?_ (fun _ => ?_)
  · exact h
  · extract_lets -merge +onlyGivenNames v2 v3 v4 v5
    clear_value v2 v3 v4 v5
    extract_lets -merge +onlyGivenNames v6
    have h7 : Keeps s v6 := Keeps.fields h
    clear_value v6
    refine Keeps.ite ?_ (fun _ => ?_)
    · exact Keeps.fields h7
    · exact Keeps.fields h7

theorem State.quantum_keeps {p2} {p3} (h : Keeps s x) : Keeps s (State.quantum x p2 p3) := by
  unfold State.quantum
  extract_lets -merge +onlyGivenNames v1 v2 v3
  clear_value v1 v2 v3
  extract_lets -merge +onlyGivenNames v4
  have h5 : Keeps s v4 := State.ivOpen_keeps h
  clear_value v4
  extract_lets -merge +onlyGivenNames v6
  have h7 : Keeps s v6 := by
    unfold v6
    refine Keeps.ite ?_ (fun _ => ?_)
    · exact State.unmeter_keeps h5
    · exact State.meter_keeps h5
  clear_value v6
  extract_lets -merge +onlyGivenNames v8
  clear_value v8
  extract_lets -merge +onlyGivenNames v9
  have h10 : Keeps s v9 := State.setNrgPt_keeps h7
  clear_value v9
  extract_lets -merge +onlyGivenNames v11
  have h12 : Keeps s v11 := State.ivClose_keeps h10
  clear_value v11
  extract_lets -merge +onlyGivenNames v13
  have h14 : Keeps s v13 := State.presetTake_keeps (State.snapTake_keeps h12)
  clear_value v13
  extract_lets -merge +onlyGivenNames v15 v16
  clear_value v15 v16
  extract_lets -merge +onlyGivenNames v17
  have h18 : Keeps s v17 := by
    unfold v17
    refine Keeps.ite ?_ (fun _ => ?_)
    · exact h14
    · exact State.setNrgPt_keeps h14
  clear_value v17
  exact State.nrgPersist_keeps h18

theorem execQuantumEnd_keeps {p1} {p2} : KeepsRes s (execQuantumEnd p1 p2 s) := by
  have h := Keeps.refl s
  unfold execQuantumEnd
  extract_lets -merge +onlyGivenNames v1
  have h2 : Keeps s v1 := State.advance_keeps h
  clear_value v1
  extract_lets -merge +onlyGivenNames v3 v4
  clear_value v3 v4
  refine KeepsRes.next ?_
  refine Keeps.ite ?_ (fun _ => ?_)
  · refine Keeps.ite ?_ (fun _ => ?_)
    · exact h2
    · exact State.quantum_keeps h2
  · exact State.nrgPersist_keeps h2

theorem State.snapWrite_keeps {p2} (h : Keeps s x) : Keeps s (State.snapWrite x p2) := by
  unfold State.snapWrite
  refine Keeps.ite ?_ (fun _ => ?_)
  · exact h
  · extract_lets -merge +onlyGivenNames v1
    have h2 : Keeps s v1 := State.wr_keeps h
    clear_value v1
    extract_lets -merge +onlyGivenNames v3
    clear_value v3
    extract_lets -merge +onlyGivenNames v4
    have h5 : Keeps s v4 := Keeps.fields h2
    clear_value v4
    refine Keeps.forEach ?_ (fun y6 y7 h8 => ?_)
    · exact h5
    · refine Keeps.ite ?_ (fun _ => ?_)
      · exact h8
      · exact State.setNrgPt_keeps h8

theorem execNrgSnap_keeps {p1} : KeepsRes s (execNrgSnap p1 s) := by
  have h := Keeps.refl s
  unfold execNrgSnap
  refine KeepsRes.next ?_
  refine State.hostGate_keeps h (fun y1 h2 => ?_)
  exact State.snapWrite_keeps h2

theorem execSnapDone_keeps {p1} : KeepsRes s (execSnapDone p1 s) := by
  have h := Keeps.refl s
  unfold execSnapDone
  extract_lets -merge +onlyGivenNames v1
  have h2 : Keeps s v1 := State.advance_keeps h
  clear_value v1
  refine KeepsRes.next ?_
  refine Keeps.ite ?_ (fun _ => ?_)
  · exact h2
  · exact State.notice_keeps (State.wr_keeps h2)

theorem State.presetWrite_keeps {p2} {p3} (h : Keeps s x) : Keeps s (State.presetWrite x p2 p3) := by
  unfold State.presetWrite
  extract_lets -merge +onlyGivenNames v1
  clear_value v1
  extract_lets -merge +onlyGivenNames v2
  have h3 : Keeps s v2 := State.setFlag_keeps (State.store_keeps h)
  clear_value v2
  refine Keeps.ite ?_ (fun _ => ?_)
  · refine Keeps.ite ?_ (fun _ => ?_)
    · exact State.setNrgPt_keeps (State.wr_keeps h3)
    · exact State.notice_keeps (State.wr_keeps h3)
  · exact h3

theorem execNrgPreset_keeps {p1} {p2} : KeepsRes s (execNrgPreset p1 p2 s) := by
  have h := Keeps.refl s
  unfold execNrgPreset
  refine KeepsRes.next ?_
  refine State.hostGate_keeps h (fun y1 h2 => ?_)
  exact State.presetWrite_keeps h2

theorem State.pqStart_keeps {p2} {p3} {p4} {p5} (h : Keeps s x) : Keeps s (State.pqStart x p2 p3 p4 p5) := by
  unfold State.pqStart
  extract_lets -merge +onlyGivenNames v1 v2 v3 v4
  clear_value v1 v2 v3 v4
  extract_lets -merge +onlyGivenNames v5
  have h6 : Keeps s v5 := State.setFlag_keeps (State.inc_keeps (State.setNrgPt_keeps h))
  clear_value v5
  extract_lets -merge +onlyGivenNames v7
  clear_value v7
  exact State.notice_keeps (State.nrgOffer_keeps h6)

theorem State.pqJudge_keeps {p2} {p3} {p4} {p5} (h : Keeps s x) : Keeps s (State.pqJudge x p2 p3 p4 p5) := by
  unfold State.pqJudge
  extract_lets -merge +onlyGivenNames v1 v2 v3 v4 v5 v6 v7 v8
  clear_value v1 v2 v3 v4 v5 v6 v7 v8
  split
  · refine Keeps.ite ?_ (fun _ => ?_)
    · exact h
    · exact State.pqStart_keeps h
  · refine Keeps.ite ?_ (fun _ => ?_)
    · extract_lets -merge +onlyGivenNames v9 v10
      clear_value v9 v10
      exact State.setNrgPt_keeps h
    · exact State.pqEnd_keeps h

theorem State.judgeStamp_keeps {p2} {p3} (h : Keeps s x) : Keeps s (State.judgeStamp x p2 p3) := by
  unfold State.judgeStamp
  extract_lets -merge +onlyGivenNames v1 v2
  clear_value v1 v2
  extract_lets -merge +onlyGivenNames v3
  have h4 : Keeps s v3 := State.setNrgPt_keeps h
  clear_value v3
  extract_lets -merge +onlyGivenNames v5
  clear_value v5
  refine Keeps.ite ?_ (fun _ => ?_)
  · refine Keeps.forEach ?_ (fun y6 y7 h8 => ?_)
    · exact h4
    · exact State.pqJudge_keeps h8
  · exact h4

theorem execUrmsHalfValue_keeps {p1} {p2} {p3} : KeepsRes s (execUrmsHalfValue p1 p2 p3 s) := by
  have h := Keeps.refl s
  unfold execUrmsHalfValue
  extract_lets -merge +onlyGivenNames v1
  have h2 : Keeps s v1 := State.advance_keeps h
  clear_value v1
  extract_lets -merge +onlyGivenNames v3
  clear_value v3
  refine KeepsRes.next ?_
  refine Keeps.ite ?_ (fun _ => ?_)
  · refine Keeps.ite ?_ (fun _ => ?_)
    · exact h2
    · exact State.judgeStamp_keeps h2
  · exact State.setNrgPt_keeps h2

theorem State.install_keeps {p2} {p3} {p4} {p5} {p6} (h : Keeps s x) : Keeps s (State.install x p2 p3 p4 p5 p6) := by
  unfold State.install
  extract_lets -merge +onlyGivenNames v1
  have h2 : Keeps s v1 := State.zeroiseSlot_keeps h
  clear_value v1
  extract_lets -merge +onlyGivenNames v3 v4
  clear_value v3 v4
  extract_lets -merge +onlyGivenNames v5
  have h6 : Keeps s v5 := Keeps.fields h2
  clear_value v5
  extract_lets -merge +onlyGivenNames v7 v8
  clear_value v7 v8
  extract_lets -merge +onlyGivenNames v9
  have h10 : Keeps s v9 := Keeps.fields h6
  clear_value v9
  exact State.reserve_keeps (State.setCat_keeps (State.nextJournal_keeps h10))

theorem State.installCut_keeps {p2} {p3} {p4} {p5} {p6} {p7} (h : Keeps s x) : Keeps s (State.installCut x p2 p3 p4 p5 p6 p7) := by
  unfold State.installCut
  extract_lets -merge +onlyGivenNames v1 v2 v3
  clear_value v1 v2 v3
  extract_lets -merge +onlyGivenNames v4
  have h5 : Keeps s v4 := Keeps.fields h
  clear_value v4
  split
  · exact h
  · exact State.leaveOpen_keeps (State.nextJournal_keeps h5)
  · exact State.leaveOpen_keeps (State.nextJournal_keeps h5)
  · exact State.leaveOpen_keeps (State.install_keeps h)

theorem State.badSlot_keeps {p2} (h : Keeps s x) : Keeps s (State.badSlot x p2) := by
  unfold State.badSlot
  extract_lets -merge +onlyGivenNames v1 v2 v3
  clear_value v1 v2 v3
  extract_lets -merge +onlyGivenNames v4
  have h5 : Keeps s v4 := Keeps.fields h
  clear_value v4
  exact State.notice_keeps (State.setCat_keeps (State.inc_keeps h5))

theorem State.loadSlot_keeps {p2} (h : Keeps s x) : Keeps s (State.loadSlot x p2) := by
  unfold State.loadSlot
  extract_lets -merge +onlyGivenNames v1
  clear_value v1
  refine Keeps.ite ?_ (fun _ => ?_)
  · refine Keeps.ite ?_ (fun _ => ?_)
    · split
      · refine Keeps.ite ?_ (fun _ => ?_)
        · exact State.badSlot_keeps h
        · exact Keeps.fields h
      · exact State.badSlot_keeps h
    · extract_lets -merge +onlyGivenNames v2
      clear_value v2
      exact Keeps.fields h
  · exact h

theorem State.loadSlots_keeps (h : Keeps s x) : Keeps s (State.loadSlots x) := by
  unfold State.loadSlots
  refine Keeps.forEach ?_ (fun y1 y2 h3 => ?_)
  · exact h
  · exact State.loadSlot_keeps h3

theorem State.newChallenge_keeps (h : Keeps s x) : Keeps s (State.newChallenge x).1 := by
  unfold State.newChallenge
  extract_lets -merge +onlyGivenNames v1 v2 v3
  clear_value v1 v2 v3
  extract_lets -merge +onlyGivenNames v4
  have h5 : Keeps s v4 := Keeps.fields h
  clear_value v4
  refine Keeps.mk1 ?_
  refine Keeps.ite ?_ (fun _ => ?_)
  · exact h5
  · exact State.wr_keeps h5

theorem State.spendChallenge_keeps (h : Keeps s x) : Keeps s (State.spendChallenge x) := by
  unfold State.spendChallenge
  exact Keeps.fields h

theorem State.markBad_keeps {p2} {p3} (h : Keeps s x) : Keeps s (State.markBad x p2 p3) := by
  unfold State.markBad
  exact State.notice_keeps (State.showKeyStat_keeps (State.inc_keeps (Keeps.fields h)))

theorem State.takeSpare_keeps {n bad l} (h : Keeps s x) : Keeps s (State.takeSpare x n bad l).1 := by
  induction l generalizing x with
  | nil => exact h
  | cons p r ih => unfold State.takeSpare; exact Keeps.ite1 h fun _ => ih (State.markBad_keeps h)

theorem State.putKey_keeps {p2} {p3} {p4} {p5} {p6} {p7} {p8} {p9} {p10} (h : Keeps s x) : Keeps s (State.putKey x p2 p3 p4 p5 p6 p7 p8 p9 p10).1 := by
  unfold State.putKey
  split
  · rename_i z1 z2 z3
    have h4 : Keeps s z2 := Keeps.of_fst z3 (State.takeSpare_keeps h)
    exact Keeps.mk1 h4
  · rename_i z5 z6 z7 z8
    have h9 : Keeps s z6 := Keeps.of_fst z8 (State.takeSpare_keeps h)
    extract_lets -merge +onlyGivenNames v10
    clear_value v10
    split
    · exact Keeps.mk1 (State.setFlag_keeps (State.installCut_keeps h9))
    · extract_lets -merge +onlyGivenNames v11
      have h12 : Keeps s v11 := State.install_keeps h9
      clear_value v11
      exact Keeps.mk1 h12

theorem State.importPub_keeps {p2} {p3} (h : Keeps s x) : Keeps s (State.importPub x p2 p3).1 := by
  unfold State.importPub
  extract_lets -merge +onlyGivenNames v1 v2 v3 v4 v5 v6
  clear_value v1 v2 v3 v4 v5 v6
  refine Keeps.ite1 ?_ (fun _ => ?_)
  · refine Keeps.ite1 ?_ (fun _ => ?_)
    · refine Keeps.ite1 ?_ (fun _ => ?_)
      · exact State.putKey_keeps (State.spendChallenge_keeps h)
      · exact Keeps.mk1 h
    · exact Keeps.mk1 h
  · exact Keeps.mk1 h

theorem State.importKey_keeps {p2} {p3} (h : Keeps s x) : Keeps s (State.importKey x p2 p3).1 := by
  unfold State.importKey
  extract_lets -merge +onlyGivenNames v1 v2 v3
  clear_value v1 v2 v3
  extract_lets -merge +onlyGivenNames v4
  have h5 : Keeps s v4 := State.expireNow_keeps h
  clear_value v4
  extract_lets -merge +onlyGivenNames v6
  clear_value v6
  refine Keeps.ite1 ?_ (fun _ => ?_)
  · refine Keeps.ite1 ?_ (fun _ => ?_)
    · refine Keeps.ite1 ?_ (fun _ => ?_)
      · split
        · rename_i z7 z8 z9
          have h10 : Keeps s z8 := Keeps.of_fst z9 (State.useSlot_keeps h5)
          exact Keeps.mk1 h10
        · rename_i z11 z12 z13 z14
          have h15 : Keeps s z12 := Keeps.of_fst z14 (State.useSlot_keeps h5)
          split
          · exact Keeps.mk1 h15
          · refine Keeps.ite1 ?_ (fun _ => ?_)
            · exact Keeps.mk1 h15
            · exact State.putKey_keeps h15
      · exact Keeps.mk1 h5
    · exact Keeps.mk1 h5
  · exact Keeps.mk1 h5

theorem execLbImport_keeps {p1} {p2} {p3} : KeepsRes s (execLbImport p1 p2 p3 s) := by
  have h := Keeps.refl s
  unfold execLbImport
  refine KeepsRes.next ?_
  refine State.lbRun_keeps h (fun y1 y2 h3 => ?_)
  refine Keeps.ite1 ?_ (fun _ => ?_)
  · refine Keeps.ite1 ?_ (fun _ => ?_)
    · refine Keeps.ite1 ?_ (fun _ => ?_)
      · exact State.importKey_keeps h3
      · exact State.importPub_keeps h3
    · exact Keeps.mk1 h3
  · exact Keeps.mk1 h3

theorem State.deriveKey_keeps {p2} {p3} (h : Keeps s x) : Keeps s (State.deriveKey x p2 p3).1 := by
  unfold State.deriveKey
  extract_lets -merge +onlyGivenNames v1 v2 v3 v4 v5 v6
  clear_value v1 v2 v3 v4 v5 v6
  extract_lets -merge +onlyGivenNames v7
  have h8 : Keeps s v7 := State.expireNow_keeps h
  clear_value v7
  extract_lets -merge +onlyGivenNames v9
  clear_value v9
  refine Keeps.ite1 ?_ (fun _ => ?_)
  · refine Keeps.ite1 ?_ (fun _ => ?_)
    · refine Keeps.ite1 ?_ (fun _ => ?_)
      · refine Keeps.ite1 ?_ (fun _ => ?_)
        · split
          · rename_i z10 z11 z12
            have h13 : Keeps s z11 := Keeps.of_fst z12 (State.useSlot_keeps h8)
            exact Keeps.mk1 h13
          · rename_i z14 z15 z16 z17
            have h18 : Keeps s z15 := Keeps.of_fst z17 (State.useSlot_keeps h8)
            extract_lets -merge +onlyGivenNames v19 v20 v21
            clear_value v19 v20 v21
            exact State.putKey_keeps h18
        · exact Keeps.mk1 h8
      · exact Keeps.mk1 h8
    · exact Keeps.mk1 h8
  · exact Keeps.mk1 h8

theorem execDerive_keeps {p1} {p2} {p3} : KeepsRes s (execDerive p1 p2 p3 s) := by
  have h := Keeps.refl s
  unfold execDerive
  refine KeepsRes.next ?_
  refine State.lbRun_keeps h (fun y1 y2 h3 => ?_)
  refine Keeps.ite1 ?_ (fun _ => ?_)
  · refine Keeps.ite1 ?_ (fun _ => ?_)
    · exact State.deriveKey_keeps h3
    · exact Keeps.mk1 h3
  · exact Keeps.mk1 h3

theorem State.invalidateFamily_keeps {p2} (h : Keeps s x) : Keeps s (State.invalidateFamily x p2).1 := by
  unfold State.invalidateFamily
  extract_lets -merge +onlyGivenNames v1
  clear_value v1
  extract_lets -merge +onlyGivenNames v2
  have h3 : Keeps s v2 := by
    unfold v2
    refine Keeps.forEach ?_ (fun y4 y5 h6 => ?_)
    · exact h
    · exact State.setCat_keeps (State.zeroiseSlot_keeps h6)
  clear_value v2
  refine Keeps.mk1 ?_
  refine Keeps.ite ?_ (fun _ => ?_)
  · exact State.notice_keeps h3
  · exact h3

theorem execInvalidate_keeps {p1} {p2} {p3} : KeepsRes s (execInvalidate p1 p2 p3 s) := by
  have h := Keeps.refl s
  unfold execInvalidate
  refine KeepsRes.next ?_
  refine State.lbRun_keeps h (fun y1 y2 h3 => ?_)
  refine Keeps.ite1 ?_ (fun _ => ?_)
  · refine Keeps.ite1 ?_ (fun _ => ?_)
    · split
      rename_i z4 z5 z6 z7
      have h8 : Keeps s z5 := Keeps.of_fst z7 (State.invalidateFamily_keeps h3)
      exact Keeps.mk1 h8
    · exact Keeps.mk1 h3
  · exact Keeps.mk1 h3

theorem State.deleteSlot_keeps {p2} (h : Keeps s x) : Keeps s (State.deleteSlot x p2).1 := by
  unfold State.deleteSlot
  extract_lets -merge +onlyGivenNames v1
  clear_value v1
  refine Keeps.ite1 ?_ (fun _ => ?_)
  · refine Keeps.ite1 ?_ (fun _ => ?_)
    · extract_lets -merge +onlyGivenNames v2
      have h3 : Keeps s v2 := State.zeroiseSlot_keeps h
      clear_value v2
      extract_lets -merge +onlyGivenNames v4
      clear_value v4
      extract_lets -merge +onlyGivenNames v5
      have h6 : Keeps s v5 := Keeps.fields h3
      clear_value v5
      exact Keeps.mk1 (State.setCat_keeps h6)
    · exact Keeps.mk1 h
  · exact Keeps.mk1 h

theorem execLbDelete_keeps {p1} {p2} {p3} : KeepsRes s (execLbDelete p1 p2 p3 s) := by
  have h := Keeps.refl s
  unfold execLbDelete
  refine KeepsRes.next ?_
  refine State.lbRun_keeps h (fun y1 y2 h3 => ?_)
  refine Keeps.ite1 ?_ (fun _ => ?_)
  · refine Keeps.ite1 ?_ (fun _ => ?_)
    · exact State.deleteSlot_keeps h3
    · exact Keeps.mk1 h3
  · exact Keeps.mk1 h3

theorem execSeal_keeps {p1} {p2} {p3} : KeepsRes s (execSeal p1 p2 p3 s) := by
  have h := Keeps.refl s
  unfold execSeal
  refine KeepsRes.next ?_
  refine State.lbRun_keeps h (fun y1 y2 h3 => ?_)
  refine Keeps.ite1 ?_ (fun _ => ?_)
  · refine Keeps.ite1 ?_ (fun _ => ?_)
    · split
      · rename_i z4 z5 z6
        have h7 : Keeps s z5 := Keeps.of_fst z6 (State.useSlot_keeps h3)
        exact Keeps.mk1 h7
      · rename_i z8 z9 z10 z11
        have h12 : Keeps s z9 := Keeps.of_fst z11 (State.useSlot_keeps h3)
        extract_lets -merge +onlyGivenNames v13
        have h14 : Keeps s v13 := State.inc_keeps h12
        clear_value v13
        extract_lets -merge +onlyGivenNames v15
        clear_value v15
        exact Keeps.mk1 (State.emit_keeps h14)
    · exact Keeps.mk1 h3
  · exact Keeps.mk1 h3

theorem execGetCert_keeps {p1} {p2} {p3} : KeepsRes s (execGetCert p1 p2 p3 s) := by
  have h := Keeps.refl s
  unfold execGetCert
  refine KeepsRes.next ?_
  refine State.lbRun_keeps h (fun y1 y2 h3 => ?_)
  refine Keeps.ite1 ?_ (fun _ => ?_)
  · refine Keeps.ite1 ?_ (fun _ => ?_)
    · exact Keeps.mk1 (State.emit_keeps h3)
    · exact Keeps.mk1 h3
  · exact Keeps.mk1 h3

theorem execGetChallenge_keeps {p1} {p2} {p3} : KeepsRes s (execGetChallenge p1 p2 p3 s) := by
  have h := Keeps.refl s
  unfold execGetChallenge
  refine KeepsRes.next ?_
  refine State.lbRun_keeps h (fun y1 y2 h3 => ?_)
  refine Keeps.ite1 ?_ (fun _ => ?_)
  · refine Keeps.ite1 ?_ (fun _ => ?_)
    · split
      rename_i z4 z5 z6 z7
      have h8 : Keeps s z5 := Keeps.of_fst z7 (State.newChallenge_keeps h3)
      exact Keeps.mk1 (State.emit_keeps h8)
    · exact Keeps.mk1 h3
  · exact Keeps.mk1 h3

theorem State.eraseSlots_keeps {p2} (h : Keeps s x) : Keeps s (State.eraseSlots x p2) := by
  unfold State.eraseSlots
  refine Keeps.forEach ?_ (fun y1 y2 h3 => ?_)
  · exact h
  · extract_lets -merge +onlyGivenNames v4
    have h5 : Keeps s v4 := State.zeroiseSlot_keeps h3
    clear_value v4
    extract_lets -merge +onlyGivenNames v6
    clear_value v6
    extract_lets -merge +onlyGivenNames v7
    have h8 : Keeps s v7 := Keeps.fields h5
    clear_value v7
    exact State.setCat_keeps h8

theorem State.eraseCounters_keeps (h : Keeps s x) : Keeps s (State.eraseCounters x) := by
  unfold State.eraseCounters
  exact Keeps.fields h

theorem State.burn_keeps {p2} (h : Keeps s x) : Keeps s (State.burn x p2) := by
  unfold State.burn
  exact State.notice_keeps (Keeps.fields h)

theorem State.lcMove_keeps {p2} {p3} {p4} {p5} {p6} {p7} {p8} {p9} (h : Keeps s x) (kp9 : ∀ b1 b2, Keeps s b2 → Keeps s (p9 b1 b2).1) : Keeps s (State.lcMove x p2 p3 p4 p5 p6 p7 p8 p9).1 := by
  unfold State.lcMove
  extract_lets -merge +onlyGivenNames v1
  clear_value v1
  refine Keeps.ite1 ?_ (fun _ => ?_)
  · refine Keeps.ite1 ?_ (fun _ => ?_)
    · refine Keeps.ite1 ?_ (fun _ => ?_)
      · refine Keeps.ite1 ?_ (fun _ => ?_)
        · split
          · rename_i z2 z3 z4
            have h5 : Keeps s z3 := Keeps.of_fst z4 (kp9 _ _ (State.spendChallenge_keeps h))
            exact Keeps.mk1 h5
          · rename_i z6 z7 z8
            have h9 : Keeps s z7 := Keeps.of_fst z8 (kp9 _ _ (State.spendChallenge_keeps h))
            refine Keeps.ite1 ?_ (fun _ => ?_)
            · exact Keeps.mk1 (State.burn_keeps h9)
            · exact Keeps.mk1 h9
        · exact Keeps.mk1 h
      · exact Keeps.mk1 h
    · exact Keeps.mk1 h
  · exact Keeps.mk1 h

theorem State.takeOwner_keeps {p2} {p3} (h : Keeps s x) : Keeps s (State.takeOwner x p2 p3).1 := by
  unfold State.takeOwner
  extract_lets -merge +onlyGivenNames v1
  have h2 : Keeps s v1 := State.eraseCounters_keeps (State.eraseSlots_keeps h)
  clear_value v1
  refine Keeps.ite1 ?_ (fun _ => ?_)
  · extract_lets -merge +onlyGivenNames v3
    clear_value v3
    extract_lets -merge +onlyGivenNames v4
    have h5 : ∀ b1 b2 b3 b4 b5 b6, Keeps s b1 → Keeps s (v4 b1 b2 b3 b4 b5 b6) := by
      intro y6 y7 y8 y9 y10 y11 h12
      unfold v4
      exact State.putKey_keeps h12
    clear_value v4
    extract_lets -merge +onlyGivenNames v13
    have h14 : Keeps s v13 := by
      unfold v13
      refine h5 _ _ _ _ _ _ ?_
      exact h5 _ _ _ _ _ _ h2
    clear_value v13
    exact Keeps.mk1 h14
  · exact Keeps.mk1 h2

theorem execTakeOwnership_keeps {p1} {p2} {p3} : KeepsRes s (execTakeOwnership p1 p2 p3 s) := by
  have h := Keeps.refl s
  unfold execTakeOwnership
  refine KeepsRes.next ?_
  refine State.lbRun_keeps h (fun y1 y2 h3 => ?_)
  refine State.lcMove_keeps h3 (fun y4 y5 h6 => ?_)
  exact State.takeOwner_keeps h6

theorem execLbLock_keeps {p1} {p2} {p3} : KeepsRes s (execLbLock p1 p2 p3 s) := by
  have h := Keeps.refl s
  unfold execLbLock
  refine KeepsRes.next ?_
  refine State.lbRun_keeps h (fun y1 y2 h3 => ?_)
  refine State.lcMove_keeps h3 (fun y4 y5 h6 => ?_)
  exact Keeps.mk1 h6

theorem State.scrapAll_keeps (h : Keeps s x) : Keeps s (State.scrapAll x) := by
  unfold State.scrapAll
  extract_lets -merge +onlyGivenNames v1
  have h2 : Keeps s v1 := State.eraseCounters_keeps (State.eraseSlots_keeps h)
  clear_value v1
  exact State.showKeyStat_keeps (Keeps.fields h2)

theorem execScrap_keeps {p1} {p2} {p3} : KeepsRes s (execScrap p1 p2 p3 s) := by
  have h := Keeps.refl s
  unfold execScrap
  refine KeepsRes.next ?_
  refine State.lbRun_keeps h (fun y1 y2 h3 => ?_)
  extract_lets -merge +onlyGivenNames v4 v5 v6
  clear_value v4 v5 v6
  refine State.lcMove_keeps h3 (fun y7 y8 h9 => ?_)
  exact Keeps.mk1 (State.scrapAll_keeps h9)

theorem execKeyExpiry_keeps {p1} {p2} : KeepsRes s (execKeyExpiry p1 p2 s) := by
  have h := Keeps.refl s
  unfold execKeyExpiry
  extract_lets -merge +onlyGivenNames v1
  have h2 : Keeps s v1 := State.advance_keeps h
  clear_value v1
  refine KeepsRes.next ?_
  refine Keeps.ite ?_ (fun _ => ?_)
  · exact h2
  · exact State.expireNow_keeps h2

theorem State.writeCounters_keeps (h : Keeps s x) : Keeps s (State.writeCounters x) := by
  unfold State.writeCounters
  extract_lets -merge +onlyGivenNames v1 v2
  clear_value v1 v2
  refine Keeps.ite ?_ (fun _ => ?_)
  · exact Keeps.fields h
  · exact Keeps.fields h

theorem execReserveWriteDone_keeps {p1} : KeepsRes s (execReserveWriteDone p1 s) := by
  have h := Keeps.refl s
  unfold execReserveWriteDone
  extract_lets -merge +onlyGivenNames v1 v2
  clear_value v1 v2
  refine KeepsRes.next ?_
  split
  · exact h
  · exact State.reserve_keeps (State.writeCounters_keeps (State.setRun_keeps h))

theorem execCounterTableWrite_keeps {p1} : KeepsRes s (execCounterTableWrite p1 s) := by
  have h := Keeps.refl s
  unfold execCounterTableWrite
  extract_lets -merge +onlyGivenNames v1
  have h2 : Keeps s v1 := State.advance_keeps h
  clear_value v1
  refine KeepsRes.next ?_
  refine Keeps.ite ?_ (fun _ => ?_)
  · exact h2
  · exact State.writeCounters_keeps h2

theorem State.showChallenge_keeps {p2} (h : Keeps s x) : Keeps s (State.showChallenge x p2) := by
  unfold State.showChallenge
  refine Keeps.forEach ?_ (fun y1 y2 h3 => ?_)
  · exact h
  · exact State.wr_keeps h3

theorem State.chalWrite_keeps {p2} (h : Keeps s x) : Keeps s (State.chalWrite x p2) := by
  unfold State.chalWrite
  refine Keeps.ite ?_ (fun _ => ?_)
  · split
    rename_i z1 z2 z3 z4
    have h5 : Keeps s z2 := Keeps.of_fst z4 (State.newChallenge_keeps h)
    exact State.showChallenge_keeps h5
  · exact h

theorem State.submitWrite_keeps {p2} (h : Keeps s x) : Keeps s (State.submitWrite x p2) := by
  unfold State.submitWrite
  refine Keeps.ite ?_ (fun _ => ?_)
  · extract_lets -merge +onlyGivenNames v1 v2 v3
    clear_value v1 v2 v3
    extract_lets -merge +onlyGivenNames v4
    have h5 : Keeps s v4 := by
      unfold v4
      refine Keeps.ite ?_ (fun _ => ?_)
      · exact h
      · exact State.spendChallenge_keeps h
    clear_value v4
    exact Keeps.fields h5
  · exact h

theorem execChalReq_keeps {p1} : KeepsRes s (execChalReq p1 s) := by
  have h := Keeps.refl s
  unfold execChalReq
  refine KeepsRes.next ?_
  refine State.hostGate_keeps h (fun y1 h2 => ?_)
  exact State.chalWrite_keeps h2

theorem execSubmit_keeps {p1} : KeepsRes s (execSubmit p1 s) := by
  have h := Keeps.refl s
  unfold execSubmit
  refine KeepsRes.next ?_
  refine State.hostGate_keeps h (fun y1 h2 => ?_)
  exact State.submitWrite_keeps h2

theorem execSvcAuthDone_keeps {p1} : KeepsRes s (execSvcAuthDone p1 s) := by
  have h := Keeps.refl s
  unfold execSvcAuthDone
  extract_lets -merge +onlyGivenNames v1
  have h2 : Keeps s v1 := State.advance_keeps h
  clear_value v1
  refine KeepsRes.next ?_
  split
  · exact h2
  · extract_lets -merge +onlyGivenNames v3
    clear_value v3
    extract_lets -merge +onlyGivenNames v4
    have h5 : Keeps s v4 := Keeps.fields h2
    clear_value v4
    extract_lets -merge +onlyGivenNames v6
    have h7 : Keeps s v6 := by
      unfold v6
      refine Keeps.ite ?_ (fun _ => ?_)
      · exact State.wr_keeps h5
      · exact State.saveRec_keeps (State.wr_keeps (State.setFlag_keeps h5))
    clear_value v6
    exact State.notice_keeps h7

theorem execChallengeExpiry_keeps {p1} : KeepsRes s (execChallengeExpiry p1 s) := by
  have h := Keeps.refl s
  unfold execChallengeExpiry
  extract_lets -merge +onlyGivenNames v1
  have h2 : Keeps s v1 := State.advance_keeps h
  clear_value v1
  extract_lets -merge +onlyGivenNames v3
  have h4 : Keeps s v3 := by
    unfold v3
    split
    · refine Keeps.ite ?_ (fun _ => ?_)
      · exact h2
      · exact State.spendChallenge_keeps h2
    · exact h2
  clear_value v3
  refine KeepsRes.next ?_
  refine Keeps.ite ?_ (fun _ => ?_)
  · exact h4
  · exact State.wr_keeps h4

theorem State.flashPut_keeps {p2} {p3} (h : Keeps s x) : Keeps s (State.flashPut x p2 p3) := by
  unfold State.flashPut
  refine Keeps.forEach ?_ (fun y1 y2 h3 => ?_)
  · exact h
  · extract_lets -merge +onlyGivenNames v4
    clear_value v4
    exact Keeps.fields h3

theorem execFlashRead_keeps {p1} {p2} {p3} : KeepsRes s (execFlashRead p1 p2 p3 s) := by
  have h := Keeps.refl s
  unfold execFlashRead
  refine KeepsRes.next ?_
  refine State.lbRun_keeps h (fun y1 y2 h3 => ?_)
  refine Keeps.ite1 ?_ (fun _ => ?_)
  · refine Keeps.ite1 ?_ (fun _ => ?_)
    · refine Keeps.ite1 ?_ (fun _ => ?_)
      · refine Keeps.ite1 ?_ (fun _ => ?_)
        · exact Keeps.mk1 (State.emit_keeps h3)
        · exact Keeps.mk1 h3
      · exact Keeps.mk1 h3
    · exact Keeps.mk1 h3
  · exact Keeps.mk1 h3

theorem State.flashStart_keeps {p2} {p3} {p4} {p5} {p6} {p7} (h : Keeps s x) : Keeps s (State.flashStart x p2 p3 p4 p5 p6 p7).1 := by
  unfold State.flashStart
  refine Keeps.ite1 ?_ (fun _ => ?_)
  · exact Keeps.mk1 (State.emit_keeps (Keeps.fields h))
  · exact Keeps.mk1 h

theorem execFlashErase_keeps {p1} {p2} {p3} : KeepsRes s (execFlashErase p1 p2 p3 s) := by
  have h := Keeps.refl s
  unfold execFlashErase
  refine KeepsRes.next ?_
  refine State.lbRun_keeps h (fun y1 y2 h3 => ?_)
  extract_lets -merge +onlyGivenNames v4 v5
  clear_value v4 v5
  refine Keeps.ite1 ?_ (fun _ => ?_)
  · refine Keeps.ite1 ?_ (fun _ => ?_)
    · refine Keeps.ite1 ?_ (fun _ => ?_)
      · refine Keeps.ite1 ?_ (fun _ => ?_)
        · exact State.flashStart_keeps h3
        · exact Keeps.mk1 h3
      · exact Keeps.mk1 h3
    · exact Keeps.mk1 h3
  · exact Keeps.mk1 h3

theorem execFlashWrite_keeps {p1} {p2} {p3} : KeepsRes s (execFlashWrite p1 p2 p3 s) := by
  have h := Keeps.refl s
  unfold execFlashWrite
  refine KeepsRes.next ?_
  refine State.lbRun_keeps h (fun y1 y2 h3 => ?_)
  extract_lets -merge +onlyGivenNames v4
  clear_value v4
  refine Keeps.ite1 ?_ (fun _ => ?_)
  · refine Keeps.ite1 ?_ (fun _ => ?_)
    · refine Keeps.ite1 ?_ (fun _ => ?_)
      · refine Keeps.ite1 ?_ (fun _ => ?_)
        · refine Keeps.ite1 ?_ (fun _ => ?_)
          · exact State.flashStart_keeps h3
          · exact Keeps.mk1 h3
        · exact Keeps.mk1 h3
      · exact Keeps.mk1 h3
    · exact Keeps.mk1 h3
  · exact Keeps.mk1 h3

theorem execImageCheck_keeps {p1} {p2} {p3} : KeepsRes s (execImageCheck p1 p2 p3 s) := by
  have h := Keeps.refl s
  unfold execImageCheck
  refine KeepsRes.next ?_
  refine State.lbRun_keeps h (fun y1 y2 h3 => ?_)
  refine Keeps.ite1 ?_ (fun _ => ?_)
  · refine Keeps.ite1 ?_ (fun _ => ?_)
    · refine Keeps.ite1 ?_ (fun _ => ?_)
      · extract_lets -merge +onlyGivenNames v4
        clear_value v4
        exact Keeps.mk1 h3
      · exact Keeps.mk1 h3
    · exact Keeps.mk1 h3
  · exact Keeps.mk1 h3

theorem execFlashOpDone_keeps {p1} {p2} : KeepsRes s (execFlashOpDone p1 p2 s) := by
  have h := Keeps.refl s
  unfold execFlashOpDone
  extract_lets -merge +onlyGivenNames v1
  have h2 : Keeps s v1 := by
    unfold v1
    exact State.advance_keeps h
  clear_value v1
  extract_lets -merge +onlyGivenNames v3
  clear_value v3
  extract_lets -merge +onlyGivenNames v4
  have h5 : Keeps s v4 := Keeps.fields h2
  clear_value v4
  extract_lets -merge +onlyGivenNames v6
  refine KeepsRes.next ?_
  split
  · rename_i z9 z10
    exact h2
  · rename_i z11 z12 z13
    extract_lets -merge +onlyGivenNames v14
    clear_value v14
    extract_lets -merge +onlyGivenNames v15
    clear_value v15
    extract_lets -merge +onlyGivenNames v16
    clear_value v16
    extract_lets -merge +onlyGivenNames v17
    clear_value v17
    extract_lets -merge +onlyGivenNames v18
    have h19 : Keeps s v18 := by
      unfold v18
      exact State.flashPut_keeps h5
    clear_value v18
    extract_lets -merge +onlyGivenNames v20
    clear_value v20
    extract_lets -merge +onlyGivenNames v21
    have h22 : Keeps s v21 := by
      unfold v21
      refine Keeps.ite ?_ (fun _ => ?_)
      · exact h19
      · exact Keeps.fields h19
    clear_value v21
    extract_lets -merge +onlyGivenNames v23
    have h24 : Keeps s v23 := Keeps.takes h5
    clear_value v23
    refine Keeps.ite ?_ (fun _ => ?_)
    · exact State.lbDone_keeps (State.flashPut_keeps h24)
    · exact State.lbDone_keeps h22

end Sys2Proof.Machine
end

