-- ==== Sys2Proof/Laws/KeepsStore.lean ====
section
/-! SUPPORT. Each operation and each meaning keeps what `Keeps` says: the pair's link, the Logbook, health, the rings and the sorters. -/
namespace Sys2Proof.Machine

variable {s x : State}

theorem State.sorterRest_keeps {p2} (h : Keeps s x) : Keeps s (State.sorterRest x p2) := by
  unfold State.sorterRest
  refine Keeps.ite ?_ (fun _ => ?_)
  · refine Keeps.ite ?_ (fun _ => ?_)
    · refine Keeps.ite ?_ (fun _ => ?_)
      · refine Keeps.ite ?_ (fun _ => ?_)
        · exact State.sorterOff_keeps h
        · exact h
      · exact h
    · refine Keeps.ite ?_ (fun _ => ?_)
      · exact h
      · exact State.sorterOff_keeps h
  · exact h

theorem State.finishItem_keeps {p2} {p3} {p4} (h : Keeps s x) : Keeps s (State.finishItem x p2 p3 p4) := by
  unfold State.finishItem
  extract_lets -merge +onlyGivenNames v1
  have h2 : Keeps s v1 := State.traceEv_keeps (State.completeItem_keeps h)
  clear_value v1
  extract_lets -merge +onlyGivenNames v3
  have h4 : Keeps s v3 := State.chargeSorter_keeps (State.bump64_keeps h2)
  clear_value v3
  exact State.sorterRest_keeps (State.kick_keeps (State.sorterNext_keeps (State.moveQuiet_keeps h4)))

theorem execItemEnd_keeps {p1} {p2} {p3} : KeepsRes s (execItemEnd p1 p2 p3 s) := by
  have h := Keeps.refl s
  unfold execItemEnd
  extract_lets -merge +onlyGivenNames v1
  have h2 : Keeps s v1 := State.advance_keeps h
  clear_value v1
  split
  · exact KeepsRes.next h2
  · refine KeepsRes.next ?_
    refine Keeps.ite ?_ (fun _ => ?_)
    · exact h2
    · exact State.finishItem_keeps h2

theorem execItemStealable_keeps {p1} {p2} : KeepsRes s (execItemStealable p1 p2 s) := by
  have h := Keeps.refl s
  unfold execItemStealable
  exact KeepsRes.next (State.sorterNext_keeps (State.advance_keeps h))

theorem execItemExpiry_keeps {p1} {p2} : KeepsRes s (execItemExpiry p1 p2 s) := by
  have h := Keeps.refl s
  unfold execItemExpiry
  extract_lets -merge +onlyGivenNames v1
  have h2 : Keeps s v1 := State.advance_keeps h
  clear_value v1
  split
  · exact KeepsRes.next h2
  · refine KeepsRes.ite ?_ ?_
    · exact KeepsRes.next (State.kick_keeps (State.expireItem_keeps h2))
    · exact KeepsRes.next h2

theorem State.setKat_keeps {p2} {p3} (h : Keeps s x) : Keeps s (State.setKat x p2 p3) := by
  unfold State.setKat
  exact State.setSrtHid_keeps h

theorem State.katOutcome_keeps {p2} {p3} (h : Keeps s x) : Keeps s (State.katOutcome x p2 p3) := by
  unfold State.katOutcome
  extract_lets -merge +onlyGivenNames v1
  have h2 : Keeps s v1 := State.setKat_keeps h
  clear_value v1
  refine Keeps.ite ?_ (fun _ => ?_)
  · exact State.fence_keeps h2
  · exact State.sorterNext_keeps h2

theorem State.timeLimit_keeps {p2} {p3} {p4} (h : Keeps s x) : Keeps s (State.timeLimit x p2 p3 p4) := by
  unfold State.timeLimit
  extract_lets -merge +onlyGivenNames v1
  have h2 : Keeps s v1 := State.setKat_keeps (State.notice_keeps h)
  clear_value v1
  extract_lets -merge +onlyGivenNames v3
  have h4 : Keeps s v3 := by
    unfold v3
    refine Keeps.ite ?_ (fun _ => ?_)
    · exact State.cancelItem_keeps h2
    · exact State.reissue_keeps h2
  clear_value v3
  exact State.kick_keeps (State.katOutcome_keeps h4)

theorem execItemTimeLimit_keeps {p1} {p2} {p3} : KeepsRes s (execItemTimeLimit p1 p2 p3 s) := by
  have h := Keeps.refl s
  unfold execItemTimeLimit
  extract_lets -merge +onlyGivenNames v1
  have h2 : Keeps s v1 := State.advance_keeps h
  clear_value v1
  split
  · exact KeepsRes.next h2
  · refine KeepsRes.next ?_
    refine Keeps.ite ?_ (fun _ => ?_)
    · exact State.timeLimit_keeps h2
    · exact h2

theorem State.cancelWrite_keeps {p2} (h : Keeps s x) : Keeps s (State.cancelWrite x p2) := by
  unfold State.cancelWrite
  extract_lets -merge +onlyGivenNames v1
  clear_value v1
  refine Keeps.ite ?_ (fun _ => ?_)
  · refine Keeps.ite ?_ (fun _ => ?_)
    · extract_lets -merge +onlyGivenNames v2
      have h3 : Keeps s v2 := by
        unfold v2
        refine Keeps.forEach ?_ (fun y4 y5 h6 => ?_)
        · exact h
        · refine Keeps.ite ?_ (fun _ => ?_)
          · exact State.cancelItem_keeps h6
          · exact State.expireItem_keeps h6
      clear_value v2
      exact State.kick_keeps (State.notice_keeps (State.wr_keeps h3))
    · exact State.notice_keeps (State.wr_keeps h)
  · exact h

theorem execHostCancel_keeps {p1} : KeepsRes s (execHostCancel p1 s) := by
  have h := Keeps.refl s
  unfold execHostCancel
  refine KeepsRes.next ?_
  refine State.hostGate_keeps h (fun y1 h2 => ?_)
  exact State.cancelWrite_keeps h2

theorem State.clusterDue_keeps (h : Keeps s x) : Keeps s (State.clusterDue x) := by
  unfold State.clusterDue
  extract_lets -merge +onlyGivenNames v1
  clear_value v1
  refine Keeps.ite ?_ (fun _ => ?_)
  · extract_lets -merge +onlyGivenNames v2
    clear_value v2
    extract_lets -merge +onlyGivenNames v3
    have h4 : Keeps s v3 := Keeps.fields h
    clear_value v3
    refine Keeps.ite ?_ (fun _ => ?_)
    · exact State.enqueueC3_keeps h4
    · exact State.inc_keeps h4
  · exact h

theorem execHousekeepingTimer_keeps {p1} {p2} : KeepsRes s (execHousekeepingTimer p1 p2 s) := by
  have h := Keeps.refl s
  unfold execHousekeepingTimer
  extract_lets -merge +onlyGivenNames v1
  have h2 : Keeps s v1 := State.advance_keeps h
  clear_value v1
  refine KeepsRes.ite ?_ ?_
  · split
    · exact KeepsRes.next (State.clusterDue_keeps h2)
    · refine KeepsRes.next ?_
      refine Keeps.ite ?_ (fun _ => ?_)
      · exact State.enqueueC3_keeps h2
      · exact h2
    · exact KeepsRes.next (State.enqueueC3_keeps h2)
  · exact KeepsRes.next h2

theorem State.sleepIf_keeps {p2} (h : Keeps s x) : Keeps s (State.sleepIf x p2) := by
  unfold State.sleepIf
  extract_lets -merge +onlyGivenNames v1
  refine Keeps.ite ?_ (fun _ => ?_)
  · exact h
  · exact State.setSrtState_keeps h

theorem State.sleepAll_keeps (h : Keeps s x) : Keeps s (State.sleepAll x) := by
  unfold State.sleepAll
  refine Keeps.ite ?_ (fun _ => ?_)
  · exact h
  · refine Keeps.forEach ?_ (fun y1 y2 h3 => ?_)
    · exact h
    · exact State.sleepIf_keeps h3

theorem execNapEntry_keeps {p1} {p2} : KeepsRes s (execNapEntry p1 p2 s) := by
  have h := Keeps.refl s
  unfold execNapEntry
  extract_lets -merge +onlyGivenNames v1
  have h2 : Keeps s v1 := State.advance_keeps h
  clear_value v1
  extract_lets -merge +onlyGivenNames v3 v4
  clear_value v3 v4
  refine KeepsRes.ite ?_ ?_
  · exact KeepsRes.next h2
  · exact KeepsRes.next (State.sleepIf_keeps (State.setSrtState_keeps h2))

theorem execScheduledWake_keeps {p1} {p2} : KeepsRes s (execScheduledWake p1 p2 s) := by
  have h := Keeps.refl s
  unfold execScheduledWake
  extract_lets -merge +onlyGivenNames v1
  have h2 : Keeps s v1 := State.advance_keeps h
  clear_value v1
  extract_lets -merge +onlyGivenNames v3
  clear_value v3
  refine KeepsRes.ite ?_ ?_
  · exact KeepsRes.next h2
  · exact KeepsRes.next (State.wake_keeps h2)

theorem State.wakeDone_keeps {p2} (h : Keeps s x) : Keeps s (State.wakeDone x p2) := by
  unfold State.wakeDone
  extract_lets -merge +onlyGivenNames v1
  clear_value v1
  split
  · exact h
  · extract_lets -merge +onlyGivenNames v2
    have h3 : Keeps s v2 := State.inc_keeps (State.setSrtHid_keeps (State.setSrtState_keeps h))
    clear_value v2
    extract_lets -merge +onlyGivenNames v4
    have h5 : Keeps s v4 := by
      unfold v4
      split
      · rename_i z6 z7 z8
        refine Keeps.ite ?_ (fun _ => ?_)
        · exact h3
        · exact State.notice_keeps h3
      · rename_i z9 z10
        exact h3
    clear_value v4
    exact State.sorterNext_keeps h5

theorem execSorterWakeDone_keeps {p1} {p2} : KeepsRes s (execSorterWakeDone p1 p2 s) := by
  have h := Keeps.refl s
  unfold execSorterWakeDone
  extract_lets -merge +onlyGivenNames v1
  have h2 : Keeps s v1 := State.advance_keeps h
  clear_value v1
  split
  · refine KeepsRes.next ?_
    refine Keeps.ite ?_ (fun _ => ?_)
    · exact h2
    · exact State.wakeDone_keeps h2
  · exact KeepsRes.next h2

theorem execOffEntry_keeps {p1} {p2} : KeepsRes s (execOffEntry p1 p2 s) := by
  have h := Keeps.refl s
  unfold execOffEntry
  extract_lets -merge +onlyGivenNames v1
  have h2 : Keeps s v1 := State.advance_keeps h
  clear_value v1
  refine KeepsRes.ite ?_ ?_
  · exact KeepsRes.next h2
  · exact KeepsRes.next (State.sorterOff_keeps h2)

theorem execSequencerFault_keeps {p1} {p2} : KeepsRes s (execSequencerFault p1 p2 s) := by
  have h := Keeps.refl s
  unfold execSequencerFault
  extract_lets -merge +onlyGivenNames v1
  have h2 : Keeps s v1 := State.advance_keeps h
  clear_value v1
  refine KeepsRes.next ?_
  refine Keeps.ite ?_ (fun _ => ?_)
  · exact State.fence_keeps h2
  · exact h2

theorem execMaxWaitClear_keeps {p1} {p2} : KeepsRes s (execMaxWaitClear p1 p2 s) := by
  have h := Keeps.refl s
  unfold execMaxWaitClear
  refine KeepsRes.next ?_
  refine State.hostGate_keeps h (fun y1 h2 => ?_)
  exact State.wr_keeps h2

theorem execClsHighClear_keeps {p1} {p2} : KeepsRes s (execClsHighClear p1 p2 s) := by
  have h := Keeps.refl s
  unfold execClsHighClear
  refine KeepsRes.next ?_
  refine State.hostGate_keeps h (fun y1 h2 => ?_)
  exact State.wr_keeps h2

theorem State.boundary_keeps {p2} {p3} {p4} (h : Keeps s x) : Keeps s (State.boundary x p2 p3 p4) := by
  unfold State.boundary
  extract_lets -merge +onlyGivenNames v1
  clear_value v1
  extract_lets -merge +onlyGivenNames v2
  have h3 : Keeps s v2 := State.layoutBoundary_keeps h
  clear_value v2
  extract_lets -merge +onlyGivenNames v4
  have h5 : Keeps s v4 := by
    unfold v4
    refine Keeps.ite ?_ (fun _ => ?_)
    · exact h3
    · exact State.applyClustering_keeps h3
  clear_value v4
  refine State.sleepAll_keeps ?_
  refine Keeps.ite ?_ (fun _ => ?_)
  · exact h5
  · exact State.rnd0Boundary_keeps h5

theorem State.dispatchOwn_keeps {p2} {p3} {p4} (h : Keeps s x) : Keeps s (State.dispatchOwn x p2 p3 p4) := by
  unfold State.dispatchOwn
  split
  rename_i z1 z2 z3 z4
  have h5 : Keeps s z2 := Keeps.of_fst z4 (State.composeOwn_keeps h)
  exact State.boundary_keeps (State.dispatchBag_keeps h5)

theorem execDispatch_keeps {p1} {p2} : KeepsRes s (execDispatch p1 p2 s) := by
  have h := Keeps.refl s
  unfold execDispatch
  extract_lets -merge +onlyGivenNames v1
  have h2 : Keeps s v1 := State.advance_keeps h
  clear_value v1
  split
  · split
    · refine KeepsRes.next ?_
      refine Keeps.ite ?_ (fun _ => ?_)
      · exact State.dispatchOwn_keeps h2
      · exact h2
    · exact KeepsRes.next h2
  · exact KeepsRes.next h2

theorem State.followNow_keeps {p2} {p3} (h : Keeps s x) : Keeps s (State.followNow x p2 p3) := by
  unfold State.followNow
  extract_lets -merge +onlyGivenNames v1
  clear_value v1
  refine Keeps.ite ?_ (fun _ => ?_)
  · extract_lets -merge +onlyGivenNames v2
    clear_value v2
    extract_lets -merge +onlyGivenNames v3
    have h4 : Keeps s v3 := Keeps.fields h
    clear_value v3
    extract_lets -merge +onlyGivenNames v5
    have h6 : Keeps s v5 := State.wr_keeps h4
    clear_value v5
    extract_lets -merge +onlyGivenNames v7
    clear_value v7
    extract_lets -merge +onlyGivenNames v8
    have h9 : Keeps s v8 := State.setRnd_keeps h6
    clear_value v8
    extract_lets -merge +onlyGivenNames v10
    have h11 : Keeps s v10 := State.countOffGrid_keeps (State.countLates_keeps h9)
    clear_value v10
    exact State.boundary_keeps (State.dispatchBag_keeps h11)
  · exact h

theorem State.tryFollow_keeps {p2} {p3} (h : Keeps s x) : Keeps s (State.tryFollow x p2 p3) := by
  unfold State.tryFollow
  split
  · exact h
  · split
    extract_lets -merge +onlyGivenNames v1
    clear_value v1
    extract_lets -merge +onlyGivenNames v2
    have h3 : ∀ b1, Keeps s (v2 b1) := by
      intro y4
      unfold v2
      exact Keeps.fields h
    clear_value v2
    refine Keeps.ite ?_ (fun _ => ?_)
    · refine Keeps.ite ?_ (fun _ => ?_)
      · refine Keeps.ite ?_ (fun _ => ?_)
        · exact State.followNow_keeps h
        · refine Keeps.ite ?_ (fun _ => ?_)
          · refine State.plkSend_keeps ?_
            exact h3 _
          · exact h
      · refine Keeps.ite ?_ (fun _ => ?_)
        · refine State.plkSend_keeps ?_
          exact h3 _
        · exact h
    · exact State.followNow_keeps h

theorem State.followFrame_keeps {p2} (h : Keeps s x) : Keeps s (State.followFrame x p2) := by
  unfold State.followFrame
  extract_lets -merge +onlyGivenNames v1
  clear_value v1
  refine Keeps.ite ?_ (fun _ => ?_)
  · exact State.tryFollow_keeps (Keeps.fields h)
  · exact h

theorem execPlkDispatch_keeps {p1} {p2} : KeepsRes s (execPlkDispatch p1 p2 s) := by
  have h := Keeps.refl s
  unfold execPlkDispatch
  refine KeepsRes.next ?_
  refine State.linkRow_keeps (State.advance_keeps h) (fun y1 h2 => ?_)
  exact State.followFrame_keeps h2

theorem execFollowLate_keeps {p1} {p2} : KeepsRes s (execFollowLate p1 p2 s) := by
  have h := Keeps.refl s
  unfold execFollowLate
  extract_lets -merge +onlyGivenNames v1
  have h2 : Keeps s v1 := State.advance_keeps h
  clear_value v1
  extract_lets -merge +onlyGivenNames v3
  clear_value v3
  refine KeepsRes.next ?_
  refine Keeps.ite ?_ (fun _ => ?_)
  · exact h2
  · exact State.tryFollow_keeps (State.notice_keeps (State.inc_keeps h2))

theorem State.fwdLetter_keeps {p2} (h : Keeps s x) : Keeps s (State.fwdLetter x p2) := by
  unfold State.fwdLetter
  extract_lets -merge +onlyGivenNames v1
  clear_value v1
  extract_lets -merge +onlyGivenNames v2
  have h3 : Keeps s v2 := Keeps.fields h
  clear_value v2
  extract_lets -merge +onlyGivenNames v4
  clear_value v4
  split
  · exact State.tryFollow_keeps (State.putSlot_keeps (State.inc_keeps h3))
  · refine Keeps.ite ?_ (fun _ => ?_)
    · exact h3
    · exact State.handOver_keeps h3

theorem execFwd_keeps {p1} : KeepsRes s (execFwd p1 s) := by
  have h := Keeps.refl s
  unfold execFwd
  refine KeepsRes.next ?_
  refine State.linkRow_keeps h (fun y1 h2 => ?_)
  exact State.fwdLetter_keeps h2

theorem execFileLetter_keeps {p1} {p2} : KeepsRes s (execFileLetter p1 p2 s) := by
  have h := Keeps.refl s
  unfold execFileLetter
  extract_lets -merge +onlyGivenNames v1
  have h2 : Keeps s v1 := State.advance_keeps h
  clear_value v1
  split
  · split
    · refine KeepsRes.next ?_
      refine Keeps.ite ?_ (fun _ => ?_)
      · exact h2
      · refine State.drainOverflow_keeps ?_
        refine Keeps.forEach ?_ (fun y3 y4 h5 => ?_)
        · exact State.pairFiled_keeps (State.fileLetter_keeps (State.markRan_keeps h2))
        · exact State.tryFollow_keeps h5
    · exact KeepsRes.next h2
  · exact KeepsRes.next h2

theorem execRoundInstant_keeps {p1} {p2} : KeepsRes s (execRoundInstant p1 p2 s) := by
  have h := Keeps.refl s
  unfold execRoundInstant
  exact KeepsRes.next (State.sleepAll_keeps (State.roundInstant_keeps (State.advance_keeps h)))

theorem State.showSilent_keeps (h : Keeps s x) : Keeps s (State.showSilent x) := by
  unfold State.showSilent
  extract_lets -merge +onlyGivenNames v1
  clear_value v1
  exact State.wr_keeps (State.wr_keeps h)

theorem State.hbFrames_keeps {p2} (h : Keeps s x) : Keeps s (State.hbFrames x p2) := by
  unfold State.hbFrames
  extract_lets -merge +onlyGivenNames v1
  clear_value v1
  refine Keeps.forEach ?_ (fun y2 y3 h4 => ?_)
  · exact h
  · exact State.emit_keeps h4

theorem execHeartbeatSend_keeps {p1} : KeepsRes s (execHeartbeatSend p1 s) := by
  have h := Keeps.refl s
  unfold execHeartbeatSend
  extract_lets -merge +onlyGivenNames v1
  have h2 : Keeps s v1 := State.advance_keeps h
  clear_value v1
  refine KeepsRes.next ?_
  refine Keeps.ite ?_ (fun _ => ?_)
  · extract_lets -merge +onlyGivenNames v3
    have h4 : Keeps s v3 := State.refreshScore_keeps h2
    clear_value v3
    extract_lets -merge +onlyGivenNames v5
    clear_value v5
    extract_lets -merge +onlyGivenNames v6
    have h7 : Keeps s v6 := State.emit_keeps (State.hbFrames_keeps h4)
    clear_value v6
    exact State.showSilent_keeps (Keeps.fields h7)
  · exact h2

theorem State.flushRound_keeps {r k} (h : Keeps s x) : Keeps s (State.flushRound x r k) := by
  induction k generalizing x with
  | zero => exact h
  | succ k ih =>
    unfold State.flushRound
    split
    · exact ih (State.tryFollow_keeps h)
    · split
      · split
        · exact Keeps.ite (ih (State.dispatchOwn_keeps h)) fun _ => h
        · exact h
      · exact h

theorem State.declareFailed_keeps (h : Keeps s x) : Keeps s (State.declareFailed x) := by
  unfold State.declareFailed
  extract_lets -merge +onlyGivenNames v1
  clear_value v1
  extract_lets -merge +onlyGivenNames v2
  have h3 : Keeps s v2 := Keeps.fields h
  clear_value v2
  extract_lets -merge +onlyGivenNames v4
  have h5 : Keeps s v4 := State.notice_keeps (State.wr_keeps (State.wr_keeps h3))
  clear_value v4
  refine Keeps.forEach ?_ (fun y6 y7 h8 => ?_)
  · exact h5
  · exact State.flushRound_keeps h8

theorem State.seePartner_keeps {p2} (h : Keeps s x) : Keeps s (State.seePartner x p2) := by
  unfold State.seePartner
  extract_lets -merge +onlyGivenNames v1 v2 v3 v4 v5 v6 v7 v8 v9
  clear_value v1 v2 v3 v4 v5 v6 v7 v8 v9
  extract_lets -merge +onlyGivenNames v10
  have h11 : Keeps s v10 := Keeps.fields h
  clear_value v10
  exact State.weighRoles_keeps (State.wr_keeps (State.setFlag_keeps (State.wr_keeps (State.setFlag_keeps h11))))

theorem State.dualCheck_keeps (h : Keeps s x) : Keeps s (State.dualCheck x) := by
  unfold State.dualCheck
  split
  · exact h
  · extract_lets -merge +onlyGivenNames v1
    clear_value v1
    refine Keeps.ite ?_ (fun _ => ?_)
    · extract_lets -merge +onlyGivenNames v2
      have h3 : Keeps s v2 := State.setFlag_keeps h
      clear_value v2
      refine Keeps.ite ?_ (fun _ => ?_)
      · exact h3
      · exact State.notice_keeps h3
    · exact h

theorem State.heartbeat_keeps {p2} {p3} (h : Keeps s x) : Keeps s (State.heartbeat x p2 p3) := by
  unfold State.heartbeat
  extract_lets -merge +onlyGivenNames v1 v2 v3 v4
  clear_value v1 v2 v3 v4
  extract_lets -merge +onlyGivenNames v5
  have h6 : Keeps s v5 := by
    unfold v5
    refine Keeps.ite ?_ (fun _ => ?_)
    · exact Keeps.fields h
    · exact Keeps.fields h
  clear_value v5
  extract_lets -merge +onlyGivenNames v7
  have h8 : Keeps s v7 := by
    unfold v7
    refine State.showSilent_keeps ?_
    refine Keeps.ite ?_ (fun _ => ?_)
    · exact State.setFlag_keeps h6
    · exact State.setFlag_keeps h6
  clear_value v7
  extract_lets -merge +onlyGivenNames v9
  have h10 : Keeps s v9 := by
    unfold v9
    refine Keeps.ite ?_ (fun _ => ?_)
    · exact State.notice_keeps h8
    · exact h8
  clear_value v9
  extract_lets -merge +onlyGivenNames v11
  clear_value v11
  extract_lets -merge +onlyGivenNames v12
  have h13 : Keeps s v12 := by
    unfold v12
    refine Keeps.ite ?_ (fun _ => ?_)
    · exact h10
    · exact State.notice_keeps (Keeps.fields h10)
  clear_value v12
  extract_lets -merge +onlyGivenNames v14
  have h15 : Keeps s v14 := State.seePartner_keeps h13
  clear_value v14
  extract_lets -merge +onlyGivenNames v16
  have h17 : Keeps s v16 := by
    unfold v16
    refine Keeps.ite ?_ (fun _ => ?_)
    · exact h15
    · exact State.declareFailed_keeps h15
  clear_value v16
  extract_lets -merge +onlyGivenNames v18
  have h19 : Keeps s v18 := by
    unfold v18
    refine Keeps.ite ?_ (fun _ => ?_)
    · exact h17
    · exact State.switchFail_keeps h17
  clear_value v18
  exact State.runCheck_keeps (State.partnerAlarm_keeps (State.dualCheck_keeps h19))

theorem execHeartbeatReceived_keeps {p1} {p2} {p3} : KeepsRes s (execHeartbeatReceived p1 p2 p3 s) := by
  have h := Keeps.refl s
  unfold execHeartbeatReceived
  extract_lets -merge +onlyGivenNames v1
  have h2 : Keeps s v1 := State.advance_keeps h
  clear_value v1
  refine KeepsRes.next ?_
  refine Keeps.ite ?_ (fun _ => ?_)
  · exact h2
  · exact State.heartbeat_keeps h2

theorem State.goSilent_keeps {p2} (h : Keeps s x) : Keeps s (State.goSilent x p2) := by
  unfold State.goSilent
  extract_lets -merge +onlyGivenNames v1
  have h2 : Keeps s v1 := by
    unfold v1
    refine Keeps.ite ?_ (fun _ => ?_)
    · exact State.setFlag_keeps h
    · exact State.setFlag_keeps h
  clear_value v1
  extract_lets -merge +onlyGivenNames v3
  have h4 : Keeps s v3 := State.showSilent_keeps h2
  clear_value v3
  refine Keeps.ite ?_ (fun _ => ?_)
  · extract_lets -merge +onlyGivenNames v5
    have h6 : Keeps s v5 := by
      unfold v5
      refine Keeps.ite ?_ (fun _ => ?_)
      · exact h4
      · exact State.declareFailed_keeps h4
    clear_value v5
    extract_lets -merge +onlyGivenNames v7
    have h8 : Keeps s v7 := by
      unfold v7
      refine Keeps.ite ?_ (fun _ => ?_)
      · exact h6
      · exact State.switchFail_keeps h6
    clear_value v7
    exact State.runCheck_keeps (State.partnerAlarm_keeps h8)
  · exact State.notice_keeps h4

theorem execPathSilent_keeps {p1} {p2} : KeepsRes s (execPathSilent p1 p2 s) := by
  have h := Keeps.refl s
  unfold execPathSilent
  extract_lets -merge +onlyGivenNames v1
  have h2 : Keeps s v1 := State.advance_keeps h
  clear_value v1
  refine KeepsRes.next ?_
  refine Keeps.ite ?_ (fun _ => ?_)
  · exact h2
  · exact State.goSilent_keeps h2

theorem execJoinTimeout_keeps {p1} : KeepsRes s (execJoinTimeout p1 s) := by
  have h := Keeps.refl s
  unfold execJoinTimeout
  extract_lets -merge +onlyGivenNames v1
  have h2 : Keeps s v1 := State.advance_keeps h
  clear_value v1
  extract_lets -merge +onlyGivenNames v3 v4
  clear_value v3 v4
  refine KeepsRes.next ?_
  refine Keeps.ite ?_ (fun _ => ?_)
  · exact h2
  · exact State.runCheck_keeps (Keeps.fields h2)

theorem State.sendHello_keeps (h : Keeps s x) : Keeps s (State.sendHello x) := by
  unfold State.sendHello
  exact State.plkSend_keeps (Keeps.fields h)

theorem State.sayHello_keeps (h : Keeps s x) : Keeps s (State.sayHello x) := by
  unfold State.sayHello
  exact State.sendHello_keeps (Keeps.fields h)

theorem State.restartRx_keeps {p2} (h : Keeps s x) : Keeps s (State.restartRx x p2) := by
  unfold State.restartRx
  exact State.rxCounted_keeps (Keeps.fields h)

theorem State.answerHello_keeps (h : Keeps s x) : Keeps s (State.answerHello x) := by
  unfold State.answerHello
  refine Keeps.ite ?_ (fun _ => ?_)
  · exact State.sendHello_keeps (State.setFlag_keeps h)
  · exact Keeps.fields h

theorem State.hello_keeps {p2} (h : Keeps s x) : Keeps s (State.hello x p2) := by
  unfold State.hello
  extract_lets -merge +onlyGivenNames v1
  clear_value v1
  extract_lets -merge +onlyGivenNames v2
  have h3 : Keeps s v2 := Keeps.fields h
  clear_value v2
  extract_lets -merge +onlyGivenNames v4
  have h5 : Keeps s v4 := State.answerHello_keeps (State.setFlag_keeps h3)
  clear_value v4
  extract_lets -merge +onlyGivenNames v6
  clear_value v6
  extract_lets -merge +onlyGivenNames v7
  have h8 : Keeps s v7 := by
    unfold v7
    refine Keeps.ite ?_ (fun _ => ?_)
    · exact h5
    · exact Keeps.fields h5
  clear_value v7
  extract_lets -merge +onlyGivenNames v9 v10
  clear_value v9 v10
  extract_lets -merge +onlyGivenNames v11
  have h12 : Keeps s v11 := State.setFlag_keeps h8
  clear_value v11
  extract_lets -merge +onlyGivenNames v13
  have h14 : Keeps s v13 := by
    unfold v13
    refine Keeps.ite ?_ (fun _ => ?_)
    · exact h12
    · exact State.notice_keeps h12
  clear_value v13
  extract_lets -merge +onlyGivenNames v15
  have h16 : Keeps s v15 := by
    unfold v15
    refine Keeps.ite ?_ (fun _ => ?_)
    · exact h14
    · exact State.setFlag_keeps h14
  clear_value v15
  exact State.runCheck_keeps (State.refreshReady_keeps h16)

theorem execHello_keeps {p1} : KeepsRes s (execHello p1 s) := by
  have h := Keeps.refl s
  unfold execHello
  extract_lets -merge +onlyGivenNames v1
  have h2 : Keeps s v1 := State.advance_keeps h
  clear_value v1
  refine KeepsRes.next ?_
  refine Keeps.ite ?_ (fun _ => ?_)
  · refine Keeps.ite ?_ (fun _ => ?_)
    · exact State.hello_keeps (State.restartRx_keeps h2)
    · exact State.rxCounted_keeps h2
  · exact h2

theorem State.offered_keeps {p2} (h : Keeps s x) : Keeps s (State.offered x p2) := by
  unfold State.offered
  refine Keeps.ite ?_ (fun _ => ?_)
  · refine Keeps.ite ?_ (fun _ => ?_)
    · exact State.plkSend_keeps h
    · exact State.plkSend_keeps (Keeps.fields h)
  · exact h

theorem execSwitchOffer_keeps {p1} {p2} : KeepsRes s (execSwitchOffer p1 p2 s) := by
  have h := Keeps.refl s
  unfold execSwitchOffer
  refine KeepsRes.next ?_
  refine State.linkRow_keeps (State.advance_keeps h) (fun y1 h2 => ?_)
  exact State.offered_keeps h2

theorem State.accepted_keeps {p2} (h : Keeps s x) : Keeps s (State.accepted x p2) := by
  unfold State.accepted
  split
  · refine Keeps.ite ?_ (fun _ => ?_)
    · exact h
    · exact Keeps.fields h
  · exact h

theorem execSwitchAccept_keeps {p1} {p2} : KeepsRes s (execSwitchAccept p1 p2 s) := by
  have h := Keeps.refl s
  unfold execSwitchAccept
  refine KeepsRes.next ?_
  refine State.linkRow_keeps (State.advance_keeps h) (fun y1 h2 => ?_)
  exact State.accepted_keeps h2

theorem State.offerRefused_keeps (h : Keeps s x) : Keeps s (State.offerRefused x) := by
  unfold State.offerRefused
  split
  · refine Keeps.ite ?_ (fun _ => ?_)
    · exact h
    · exact State.switchFail_keeps h
  · exact h

theorem execSwitchRefuse_keeps {p1} : KeepsRes s (execSwitchRefuse p1 s) := by
  have h := Keeps.refl s
  unfold execSwitchRefuse
  refine KeepsRes.next ?_
  refine State.linkRow_keeps (State.advance_keeps h) (fun y1 h2 => ?_)
  exact State.offerRefused_keeps h2

theorem execRevert_keeps {p1} : KeepsRes s (execRevert p1 s) := by
  have h := Keeps.refl s
  unfold execRevert
  extract_lets -merge +onlyGivenNames v1
  have h2 : Keeps s v1 := State.advance_keeps h
  clear_value v1
  refine KeepsRes.next ?_
  refine Keeps.ite ?_ (fun _ => ?_)
  · refine Keeps.ite ?_ (fun _ => ?_)
    · refine Keeps.ite ?_ (fun _ => ?_)
      · exact h2
      · exact State.switchStart_keeps h2
    · exact Keeps.fields h2
  · exact h2

theorem execAutoSwitchover_keeps {p1} : KeepsRes s (execAutoSwitchover p1 s) := by
  have h := Keeps.refl s
  unfold execAutoSwitchover
  extract_lets -merge +onlyGivenNames v1
  have h2 : Keeps s v1 := State.advance_keeps h
  clear_value v1
  extract_lets -merge +onlyGivenNames v3
  clear_value v3
  refine KeepsRes.next ?_
  refine Keeps.ite ?_ (fun _ => ?_)
  · exact h2
  · exact State.switchStart_keeps (Keeps.fields h2)

theorem execFwdOn_keeps {p1} : KeepsRes s (execFwdOn p1 s) := by
  have h := Keeps.refl s
  unfold execFwdOn
  refine KeepsRes.next ?_
  refine State.linkRow_keeps h (fun y1 h2 => ?_)
  exact Keeps.fields h2

theorem execFwdOff_keeps {p1} : KeepsRes s (execFwdOff p1 s) := by
  have h := Keeps.refl s
  unfold execFwdOff
  refine KeepsRes.next ?_
  refine State.linkRow_keeps h (fun y1 h2 => ?_)
  exact Keeps.fields h2

theorem State.seeMap_keeps {p2} (h : Keeps s x) : Keeps s (State.seeMap x p2) := by
  unfold State.seeMap
  extract_lets -merge +onlyGivenNames v1 v2 v3 v4 v5
  clear_value v1 v2 v3 v4 v5
  extract_lets -merge +onlyGivenNames v6
  have h7 : Keeps s v6 := Keeps.fields h
  clear_value v6
  extract_lets -merge +onlyGivenNames v8
  have h9 : Keeps s v8 := by
    unfold v8
    refine Keeps.forEach ?_ (fun y10 y11 h12 => ?_)
    · exact h7
    · exact State.plkSend_keeps h12
  clear_value v8
  refine Keeps.forEach ?_ (fun y13 y14 h15 => ?_)
  · exact h9
  · exact State.plkSend_keeps h15

theorem execRxmap_keeps {p1} : KeepsRes s (execRxmap p1 s) := by
  have h := Keeps.refl s
  unfold execRxmap
  refine KeepsRes.next ?_
  refine State.linkRow_keeps h (fun y1 h2 => ?_)
  exact State.seeMap_keeps h2

theorem State.sendLetters_keeps {p2} {p3} {p4} (h : Keeps s x) : Keeps s (State.sendLetters x p2 p3 p4) := by
  unfold State.sendLetters
  split
  · exact h
  · refine Keeps.forEach ?_ (fun y1 y2 h3 => ?_)
    · exact h
    · exact State.plkSend_keeps h3

theorem State.sendCheck_keeps {p2} {p3} (h : Keeps s x) : Keeps s (State.sendCheck x p2 p3) := by
  unfold State.sendCheck
  split
  · exact h
  · exact State.plkSend_keeps h

theorem State.fetched_keeps {p2} (h : Keeps s x) : Keeps s (State.fetched x p2) := by
  unfold State.fetched
  split
  · refine Keeps.ite ?_ (fun _ => ?_)
    · exact h
    · exact State.sendLetters_keeps h
  · refine Keeps.ite ?_ (fun _ => ?_)
    · exact h
    · exact State.sendCheck_keeps h
  · refine Keeps.ite ?_ (fun _ => ?_)
    · exact h
    · exact State.checkLetters_keeps h
  · refine Keeps.ite ?_ (fun _ => ?_)
    · exact h
    · exact State.sendCatch_keeps h

theorem execFetch_keeps {p1} {p2} {p3} {p4} {p5} : KeepsRes s (execFetch p1 p2 p3 p4 p5 s) := by
  have h := Keeps.refl s
  unfold execFetch
  refine KeepsRes.next ?_
  refine State.linkRow_keeps (State.advance_keeps h) (fun y1 h2 => ?_)
  exact State.fetched_keeps h2

theorem State.joined_keeps (h : Keeps s x) : Keeps s (State.joined x) := by
  unfold State.joined
  extract_lets -merge +onlyGivenNames v1
  clear_value v1
  exact State.setFlag_keeps (Keeps.fields h)

theorem State.applyCopy_keeps {p2} (h : Keeps s x) : Keeps s (State.applyCopy x p2) := by
  unfold State.applyCopy
  extract_lets -merge +onlyGivenNames v1
  have h2 : Keeps s v1 := by
    unfold v1
    refine State.wr_keeps ?_
    refine Keeps.forEach ?_ (fun y3 y4 h5 => ?_)
    · exact h
    · exact State.applyRec_keeps h5
  clear_value v1
  refine State.refreshReady_keeps ?_
  refine Keeps.ite ?_ (fun _ => ?_)
  · exact h2
  · exact State.joined_keeps h2

theorem execCopy_keeps {p1} {p2} : KeepsRes s (execCopy p1 p2 s) := by
  have h := Keeps.refl s
  unfold execCopy
  refine KeepsRes.next ?_
  refine State.linkRow_keeps (State.advance_keeps h) (fun y1 h2 => ?_)
  refine Keeps.ite ?_ (fun _ => ?_)
  · exact h2
  · exact State.applyCopy_keeps h2

theorem State.release_keeps {p2} (h : Keeps s x) : Keeps s (State.release x p2) := by
  unfold State.release
  refine Keeps.ite ?_ (fun _ => ?_)
  · refine Keeps.ite ?_ (fun _ => ?_)
    · exact Keeps.fields h
    · exact Keeps.fields h
  · exact h

theorem execRel_keeps {p1} : KeepsRes s (execRel p1 s) := by
  have h := Keeps.refl s
  unfold execRel
  refine KeepsRes.next ?_
  refine State.linkRow_keeps h (fun y1 h2 => ?_)
  exact State.release_keeps h2

theorem State.seeDigest_keeps {p2} {p3} {p4} {p5} (h : Keeps s x) : Keeps s (State.seeDigest x p2 p3 p4 p5) := by
  unfold State.seeDigest
  extract_lets -merge +onlyGivenNames v1
  clear_value v1
  refine Keeps.ite ?_ (fun _ => ?_)
  · refine Keeps.ite ?_ (fun _ => ?_)
    · refine Keeps.ite ?_ (fun _ => ?_)
      · exact h
      · exact Keeps.fields h
    · exact State.digestCompare_keeps h
  · exact h

theorem execDigest_keeps {p1} {p2} {p3} {p4} : KeepsRes s (execDigest p1 p2 p3 p4 s) := by
  have h := Keeps.refl s
  unfold execDigest
  refine KeepsRes.next ?_
  refine State.linkRow_keeps h (fun y1 h2 => ?_)
  exact State.seeDigest_keeps h2

theorem State.installGrp_keeps {p2} {p3} {p4} (h : Keeps s x) : Keeps s (State.installGrp x p2 p3 p4) := by
  unfold State.installGrp
  extract_lets -merge +onlyGivenNames v1 v2 v3 v4
  clear_value v1 v2 v3 v4
  exact State.showGrp_keeps (State.setGrp_keeps h)

theorem State.installTrk_keeps {p2} (h : Keeps s x) : Keeps s (State.installTrk x p2) := by
  unfold State.installTrk
  extract_lets -merge +onlyGivenNames v1 v2
  clear_value v1 v2
  exact State.showTrk_keeps (State.setTrk_keeps h)

theorem State.installCatch_keeps {p2} (h : Keeps s x) : Keeps s (State.installCatch x p2) := by
  unfold State.installCatch
  extract_lets -merge +onlyGivenNames v1
  clear_value v1
  extract_lets -merge +onlyGivenNames v2
  have h3 : Keeps s v2 := by
    unfold v2
    split
    · exact State.installGrp_keeps h
    · exact h
  clear_value v2
  extract_lets -merge +onlyGivenNames v4
  have h5 : Keeps s v4 := by
    unfold v4
    split
    · exact State.installTrk_keeps h3
    · exact h3
  clear_value v4
  extract_lets -merge +onlyGivenNames v6
  clear_value v6
  extract_lets -merge +onlyGivenNames v7
  have h8 : Keeps s v7 := Keeps.fields h5
  clear_value v7
  exact State.refreshReady_keeps h8

theorem execCatchup_keeps {p1} : KeepsRes s (execCatchup p1 s) := by
  have h := Keeps.refl s
  unfold execCatchup
  refine KeepsRes.next ?_
  refine State.linkRow_keeps h (fun y1 h2 => ?_)
  refine Keeps.ite ?_ (fun _ => ?_)
  · exact h2
  · exact State.installCatch_keeps h2

theorem execPlkAck_keeps {p1} {p2} : KeepsRes s (execPlkAck p1 p2 s) := by
  have h := Keeps.refl s
  unfold execPlkAck
  extract_lets -merge +onlyGivenNames v1
  have h2 : Keeps s v1 := State.advance_keeps h
  clear_value v1
  extract_lets -merge +onlyGivenNames v3 v4
  clear_value v3 v4
  refine KeepsRes.next ?_
  refine Keeps.ite ?_ (fun _ => ?_)
  · exact h2
  · exact Keeps.fields h2

theorem execAckSend_keeps {p1} : KeepsRes s (execAckSend p1 s) := by
  have h := Keeps.refl s
  unfold execAckSend
  extract_lets -merge +onlyGivenNames v1
  have h2 : Keeps s v1 := State.advance_keeps h
  clear_value v1
  refine KeepsRes.next ?_
  refine Keeps.ite ?_ (fun _ => ?_)
  · exact h2
  · exact State.sendAck_keeps h2

theorem State.dataDown_keeps (h : Keeps s x) : Keeps s (State.dataDown x) := by
  unfold State.dataDown
  extract_lets -merge +onlyGivenNames v1 v2
  clear_value v1 v2
  extract_lets -merge +onlyGivenNames v3
  have h4 : Keeps s v3 := Keeps.fields h
  clear_value v3
  extract_lets -merge +onlyGivenNames v5
  have h6 : Keeps s v5 := State.setFlag_keeps h4
  clear_value v5
  extract_lets -merge +onlyGivenNames v7
  have h8 : Keeps s v7 := by
    unfold v7
    refine Keeps.ite ?_ (fun _ => ?_)
    · exact State.notice_keeps h6
    · exact h6
  clear_value v7
  exact State.sayHello_keeps (State.refreshReady_keeps (State.setFlag_keeps h8))

theorem execRetransmit_keeps {p1} : KeepsRes s (execRetransmit p1 s) := by
  have h := Keeps.refl s
  unfold execRetransmit
  extract_lets -merge +onlyGivenNames v1
  have h2 : Keeps s v1 := State.advance_keeps h
  clear_value v1
  refine KeepsRes.next ?_
  refine Keeps.ite ?_ (fun _ => ?_)
  · refine Keeps.ite ?_ (fun _ => ?_)
    · extract_lets -merge +onlyGivenNames v3
      clear_value v3
      extract_lets -merge +onlyGivenNames v4
      have h5 : Keeps s v4 := by
        unfold v4
        refine State.bump_keeps ?_
        refine Keeps.forEach ?_ (fun y6 y7 h8 => ?_)
        · exact h2
        · exact State.plkEmit_keeps h8
      clear_value v4
      exact Keeps.fields h5
    · exact State.dataDown_keeps h2
  · exact h2

theorem State.selfTestFail_keeps {p2} (h : Keeps s x) : Keeps s (State.selfTestFail x p2) := by
  unfold State.selfTestFail
  extract_lets -merge +onlyGivenNames v1
  clear_value v1
  extract_lets -merge +onlyGivenNames v2
  have h3 : Keeps s v2 := Keeps.fields h
  clear_value v2
  exact State.refreshScore_keeps (State.notice_keeps (State.inc_keeps (State.wr_keeps h3)))

theorem execLaneUp_keeps {p1} {p2} : KeepsRes s (execLaneUp p1 p2 s) := by
  have h := Keeps.refl s
  unfold execLaneUp
  extract_lets -merge +onlyGivenNames v1
  have h2 : Keeps s v1 := State.advance_keeps h
  clear_value v1
  extract_lets -merge +onlyGivenNames v3
  clear_value v3
  refine KeepsRes.next ?_
  refine Keeps.ite ?_ (fun _ => ?_)
  · extract_lets -merge +onlyGivenNames v4
    have h5 : Keeps s v4 := State.notice_keeps (State.wr_keeps h2)
    clear_value v4
    refine Keeps.ite ?_ (fun _ => ?_)
    · exact h5
    · exact State.sayHello_keeps h5
  · exact h2

theorem execLaneDown_keeps {p1} {p2} {p3} : KeepsRes s (execLaneDown p1 p2 p3 s) := by
  have h := Keeps.refl s
  unfold execLaneDown
  extract_lets -merge +onlyGivenNames v1
  have h2 : Keeps s v1 := State.advance_keeps h
  clear_value v1
  extract_lets -merge +onlyGivenNames v3
  clear_value v3
  refine KeepsRes.next ?_
  refine Keeps.ite ?_ (fun _ => ?_)
  · extract_lets -merge +onlyGivenNames v4
    have h5 : Keeps s v4 := State.notice_keeps (State.wr_keeps h2)
    clear_value v4
    refine Keeps.ite ?_ (fun _ => ?_)
    · exact h5
    · exact State.selfTestFail_keeps h5
  · exact h2

theorem State.setBank_keeps {p2} {p3} (h : Keeps s x) : Keeps s (State.setBank x p2 p3) := by
  unfold State.setBank
  refine Keeps.ite ?_ (fun _ => ?_)
  · exact Keeps.fields h
  · exact Keeps.fields h

theorem State.showSel_keeps (h : Keeps s x) : Keeps s (State.showSel x) := by
  unfold State.showSel
  split
  · exact State.wr_keeps (State.wr_keeps h)
  · exact State.wr_keeps (State.wr_keeps h)

theorem State.chooseBank_keeps {p2} (h : Keeps s x) : Keeps s (State.chooseBank x p2) := by
  unfold State.chooseBank
  exact State.showSel_keeps (State.nextJournal_keeps (Keeps.fields h))

theorem State.chooseCut_keeps {p2} {p3} (h : Keeps s x) : Keeps s (State.chooseCut x p2 p3) := by
  unfold State.chooseCut
  extract_lets -merge +onlyGivenNames v1
  clear_value v1
  split
  · exact h
  · exact State.leaveOpen_keeps (State.nextJournal_keeps h)
  · exact State.leaveOpen_keeps (State.nextJournal_keeps h)
  · exact State.leaveOpen_keeps (State.chooseBank_keeps h)

theorem State.selectBank_keeps {p2} {p3} {p4} (h : Keeps s x) (kp4 : ∀ b1, Keeps s b1 → Keeps s (p4 b1).1) : Keeps s (State.selectBank x p2 p3 p4).1 := by
  unfold State.selectBank
  split
  · exact Keeps.mk1 (State.setFlag_keeps (State.chooseCut_keeps h))
  · exact kp4 _ (State.chooseBank_keeps h)

theorem execLbStore_keeps {p1} {p2} {p3} : KeepsRes s (execLbStore p1 p2 p3 s) := by
  have h := Keeps.refl s
  unfold execLbStore
  refine KeepsRes.next ?_
  refine State.lbRun_keeps h (fun y1 y2 h3 => ?_)
  extract_lets -merge +onlyGivenNames v4
  clear_value v4
  refine Keeps.ite1 ?_ (fun _ => ?_)
  · refine Keeps.ite1 ?_ (fun _ => ?_)
    · refine Keeps.ite1 ?_ (fun _ => ?_)
      · refine Keeps.ite1 ?_ (fun _ => ?_)
        · split
          extract_lets -merge +onlyGivenNames v5
          have h6 : Keeps s v5 := State.setBank_keeps h3
          clear_value v5
          refine Keeps.ite1 ?_ (fun _ => ?_)
          · refine Keeps.ite1 ?_ (fun _ => ?_)
            · refine State.selectBank_keeps h6 (fun y7 h8 => ?_)
              exact Keeps.mk1 (State.notice_keeps (State.inc_keeps h8))
            · exact Keeps.mk1 (State.notice_keeps (State.setBank_keeps h6))
          · exact Keeps.mk1 (State.setFlag_keeps (State.setBank_keeps h6))
        · exact Keeps.mk1 h3
      · exact Keeps.mk1 h3
    · exact Keeps.mk1 h3
  · exact Keeps.mk1 h3

theorem execNvsRead_keeps {p1} {p2} {p3} : KeepsRes s (execNvsRead p1 p2 p3 s) := by
  have h := Keeps.refl s
  unfold execNvsRead
  refine KeepsRes.next ?_
  refine State.lbRun_keeps h (fun y1 y2 h3 => ?_)
  split
  · exact Keeps.mk1 h3
  · extract_lets -merge +onlyGivenNames v4 v5
    clear_value v4 v5
    refine Keeps.ite1 ?_ (fun _ => ?_)
    · exact Keeps.mk1 (State.emit_keeps h3)
    · exact Keeps.mk1 h3

theorem execSelectOther_keeps {p1} {p2} {p3} : KeepsRes s (execSelectOther p1 p2 p3 s) := by
  have h := Keeps.refl s
  unfold execSelectOther
  refine KeepsRes.next ?_
  refine State.lbRun_keeps h (fun y1 y2 h3 => ?_)
  refine Keeps.ite1 ?_ (fun _ => ?_)
  · refine Keeps.ite1 ?_ (fun _ => ?_)
    · split
      · exact Keeps.mk1 h3
      · extract_lets -merge +onlyGivenNames v4
        clear_value v4
        refine Keeps.ite1 ?_ (fun _ => ?_)
        · exact Keeps.mk1 h3
        · refine State.selectBank_keeps h3 (fun y5 h6 => ?_)
          exact Keeps.mk1 h6
    · exact Keeps.mk1 h3
  · exact Keeps.mk1 h3

theorem execErase_keeps {p1} {p2} {p3} : KeepsRes s (execErase p1 p2 p3 s) := by
  have h := Keeps.refl s
  unfold execErase
  refine KeepsRes.next ?_
  refine State.lbRun_keeps h (fun y1 y2 h3 => ?_)
  refine Keeps.ite1 ?_ (fun _ => ?_)
  · refine Keeps.ite1 ?_ (fun _ => ?_)
    · refine State.selectBank_keeps h3 (fun y4 h5 => ?_)
      exact Keeps.mk1 h5
    · exact Keeps.mk1 h3
  · exact Keeps.mk1 h3

theorem State.readRec_keeps {p2} (h : Keeps s x) : Keeps s (State.readRec x p2).1 := by
  unfold State.readRec
  extract_lets -merge +onlyGivenNames v1
  clear_value v1
  split
  rename_i z2 z3 z4 z5
  have h6 : Keeps s z4 := Keeps.of_snd z5 (by
    refine Keeps.ite2 ?_ (fun _ => ?_)
    · exact State.draw_keeps h
    · exact Keeps.mk2 h)
  extract_lets -merge +onlyGivenNames v7
  clear_value v7
  exact Keeps.mk1 h6

theorem State.offerRec_keeps {p2} (h : Keeps s x) : Keeps s (State.offerRec x p2) := by
  unfold State.offerRec
  exact State.offer_keeps h

theorem State.rewriteRep_keeps (h : Keeps s x) : Keeps s (State.rewriteRep x) := by
  unfold State.rewriteRep
  split
  · refine h.updLog rfl rfl rfl rfl fun k => ?_
    rename_i r _ hr
    have : x.log.recs ≠ [] := by rintro e; rw [e] at hr; simp at hr
    have := List.length_pos_iff.mpr this
    simp only [State.logOk, Bool.and_eq_true, decide_eq_true_eq, List.length_append, List.length_cons, List.length_nil,
      List.length_dropLast] at k ⊢
    exact ⟨⟨k.1.1, by omega⟩, k.2⟩
  · exact h

theorem State.finalRewrite_keeps (h : Keeps s x) : Keeps s (State.finalRewrite x) := by
  unfold State.finalRewrite
  refine Keeps.ite ?_ (fun _ => ?_)
  · exact h
  · extract_lets -merge +onlyGivenNames v1
    have h2 : Keeps s v1 := State.rewriteRep_keeps h
    clear_value v1
    extract_lets -merge +onlyGivenNames v3
    extract_lets -merge +onlyGivenNames v4
    have h5 : Keeps s v4 := Keeps.logFields h2
    clear_value v4
    split
    · exact State.offerRec_keeps h5
    · exact h5

theorem State.appendRec_keeps {p2} (h : Keeps s x) : Keeps s (State.appendRec x p2) := by
  unfold State.appendRec
  extract_lets r full first recs l a b c d
  have ha : Keeps s a := by
    refine h.updLog rfl rfl rfl rfl fun k => ?_
    simp only [State.logOk, Bool.and_eq_true, decide_eq_true_eq] at k ⊢
    refine ⟨⟨k.1.1, ?_⟩, k.2⟩
    simp only [a, recs, full, List.length_append, List.length_cons, List.length_nil]
    split
    · simp only [List.length_drop]; omega
    · rename_i n; simp only [decide_eq_true_eq] at n; omega
  clear_value a
  have hb : Keeps s b := State.wr_keeps (State.inc_keeps ha)
  clear_value b
  have hc : Keeps s c := Keeps.ite hb fun _ => State.setFlag_keeps hb
  clear_value c
  have hd : Keeps s d := State.noticeQuiet_keeps hc
  exact State.offerRec_keeps (Keeps.ite hd fun _ => State.noticeQuiet_keeps hd)

theorem State.unstored_keeps {p2} (h : Keeps s x) : Keeps s (State.unstored x p2) := by
  unfold State.unstored
  extract_lets -merge +onlyGivenNames v1
  clear_value v1
  extract_lets -merge +onlyGivenNames v2
  extract_lets -merge +onlyGivenNames v3
  have h4 : Keeps s v3 := Keeps.logFields h
  clear_value v3
  exact State.offerRec_keeps (State.inc_keeps h4)

theorem State.lastGasp_keeps {p2} (h : Keeps s x) : Keeps s (State.lastGasp x p2) := by
  unfold State.lastGasp
  extract_lets seq e q r gasp l a b c d l2
  have ha : Keeps s a := by
    refine h.updLog rfl rfl rfl rfl fun k => ?_
    simp only [State.logOk, Bool.and_eq_true, decide_eq_true_eq] at k ⊢
    refine ⟨k.1, ?_⟩
    simp only [a, gasp, List.length_append, List.length_cons, List.length_nil]
    split
    · simp only [List.length_drop]; omega
    · omega
  clear_value a
  have hb : Keeps s b := Keeps.ite ha fun _ => State.noticeQuiet_keeps (State.setFlag_keeps ha)
  clear_value b
  have hd : Keeps s d := State.stdAlarm_keeps (State.noticeQuiet_keeps (State.setFlag_keeps hb))
  exact hd.upd rfl rfl rfl rfl rfl rfl rfl

theorem State.takeStaged_keeps (h : Keeps s x) : Keeps s (State.takeStaged x).1 := by
  unfold State.takeStaged
  split
  · exact h.upd rfl rfl rfl rfl rfl rfl rfl
  · rename_i hc
    refine State.staged_keeps (h.updLog rfl rfl rfl rfl fun k => ?_)
    simp only [State.logOk, Bool.and_eq_true, decide_eq_true_eq, hc, List.length_cons] at k ⊢
    exact ⟨⟨by omega, k.1.2⟩, k.2⟩
  · exact h

theorem execLogRecordWrite_keeps {p1} {p2} : KeepsRes s (execLogRecordWrite p1 p2 s) := by
  have h := Keeps.refl s
  unfold execLogRecordWrite
  extract_lets -merge +onlyGivenNames v1
  have h2 : Keeps s v1 := State.advance_keeps h
  clear_value v1
  refine KeepsRes.next ?_
  refine Keeps.ite ?_ (fun _ => ?_)
  · split
    · rename_i z3 z4 z5
      have h6 : Keeps s z4 := Keeps.of_fst z5 (State.takeStaged_keeps h2)
      exact h6
    · rename_i z7 z8 z9 z10
      have h11 : Keeps s z8 := Keeps.of_fst z10 (State.takeStaged_keeps h2)
      refine Keeps.ite ?_ (fun _ => ?_)
      · extract_lets -merge +onlyGivenNames v12
        have h13 : Keeps s v12 := State.finalRewrite_keeps h11
        clear_value v12
        split
        · exact State.appendRec_keeps h13
        · exact State.appendRec_keeps h13
        · exact State.unstored_keeps (State.lastGasp_keeps h13)
        · exact State.unstored_keeps (State.lastGasp_keeps h13)
      · exact State.unstored_keeps h11
  · exact h2

theorem execRepeatRewrite_keeps {p1} : KeepsRes s (execRepeatRewrite p1 s) := by
  have h := Keeps.refl s
  unfold execRepeatRewrite
  extract_lets -merge +onlyGivenNames v1
  have h2 : Keeps s v1 := State.advance_keeps h
  clear_value v1
  extract_lets -merge +onlyGivenNames v3
  clear_value v3
  refine KeepsRes.next ?_
  refine Keeps.ite ?_ (fun _ => ?_)
  · exact h2
  · exact State.rewriteRep_keeps h2

theorem State.readRecs_keeps {l} (h : Keeps s x) : Keeps s (State.readRecs x l).1 := by
  induction l generalizing x with
  | nil => exact h
  | cons r rs ih => unfold State.readRecs; exact ih (State.readRec_keeps h)

theorem execLogRead_keeps {p1} {p2} {p3} : KeepsRes s (execLogRead p1 p2 p3 s) := by
  have h := Keeps.refl s
  unfold execLogRead
  refine KeepsRes.next ?_
  refine State.lbRun_keeps h (fun y1 y2 h3 => ?_)
  refine Keeps.ite1 ?_ (fun _ => ?_)
  · extract_lets -merge +onlyGivenNames v4
    clear_value v4
    split
    rename_i z5 z6 z7 z8
    have h9 : Keeps s z6 := Keeps.of_fst z8 (State.readRecs_keeps h3)
    refine Keeps.mk1 ?_
    refine Keeps.ite ?_ (fun _ => ?_)
    · exact State.emit_keeps h9
    · exact h9
  · exact Keeps.mk1 h3

theorem execLogClear_keeps {p1 p2 p3} : KeepsRes s (execLogClear p1 p2 p3 s) := by
  have h := Keeps.refl s
  unfold execLogClear
  refine KeepsRes.next (State.lbRun_keeps h fun c a ha => ?_)
  dsimp only
  split
  · exact ha
  · refine State.noticeQuiet_keeps (State.setFlag_keeps (State.wr_keeps (ha.updLog rfl rfl rfl rfl fun k => ?_)))
    simp only [State.logOk, Bool.and_eq_true, decide_eq_true_eq] at k ⊢
    exact ⟨⟨k.1.1, Nat.zero_le _⟩, k.2⟩

theorem State.countOpsec_keeps (h : Keeps s x) : Keeps s (State.countOpsec x) := by
  unfold State.countOpsec
  extract_lets -merge +onlyGivenNames v1
  clear_value v1
  exact State.bump_keeps (Keeps.logFields h)

theorem State.saveOps_keeps (h : Keeps s x) : Keeps s (State.saveOps x) := by
  unfold State.saveOps
  extract_lets -merge +onlyGivenNames v1
  extract_lets -merge +onlyGivenNames v2
  extract_lets -merge +onlyGivenNames v3
  clear_value v3
  extract_lets -merge +onlyGivenNames v4
  extract_lets -merge +onlyGivenNames v5
  clear_value v5
  refine Keeps.ite ?_ (fun _ => ?_)
  · exact Keeps.logFields h
  · exact Keeps.logFields h

theorem execOpsecSave_keeps {p1} : KeepsRes s (execOpsecSave p1 s) := by
  have h := Keeps.refl s
  unfold execOpsecSave
  extract_lets -merge +onlyGivenNames v1
  have h2 : Keeps s v1 := State.advance_keeps h
  clear_value v1
  refine KeepsRes.next ?_
  refine Keeps.ite ?_ (fun _ => ?_)
  · exact h2
  · extract_lets -merge +onlyGivenNames v3
    have h4 : Keeps s v3 := State.countOpsec_keeps h2
    clear_value v3
    refine Keeps.ite ?_ (fun _ => ?_)
    · exact h4
    · exact State.saveOps_keeps h4

theorem State.loseRegion_keeps {p2} (h : Keeps s x) : Keeps s (State.loseRegion x p2) := by
  unfold State.loseRegion
  refine Keeps.ite ?_ (fun _ => ?_)
  · refine Keeps.ite ?_ (fun _ => ?_)
    · refine Keeps.ite ?_ (fun _ => ?_)
      · refine Keeps.ite ?_ (fun _ => ?_)
        · refine Keeps.ite ?_ (fun _ => ?_)
          · extract_lets -merge +onlyGivenNames v1
            clear_value v1
            extract_lets -merge +onlyGivenNames v2
            have h3 : Keeps s v2 := Keeps.fields h
            clear_value v2
            extract_lets -merge +onlyGivenNames v4
            have h5 : Keeps s v4 := State.cmpShow_keeps h3
            clear_value v4
            extract_lets -merge +onlyGivenNames v6
            have h7 : Keeps s v6 := by
              unfold v6
              refine Keeps.forEach ?_ (fun y8 y9 h10 => ?_)
              · exact h5
              · extract_lets -merge +onlyGivenNames v11
                clear_value v11
                extract_lets -merge +onlyGivenNames v12
                have h13 : Keeps s v12 := State.setCapUnit_keeps h10
                clear_value v12
                refine Keeps.ite ?_ (fun _ => ?_)
                · exact State.showSegs_keeps h13
                · exact State.capFill_keeps h13
            clear_value v6
            exact State.notice_keeps h7
          · exact Keeps.fields h
        · extract_lets -merge +onlyGivenNames v14
          clear_value v14
          extract_lets -merge +onlyGivenNames v15
          have h16 : Keeps s v15 := Keeps.fields h
          clear_value v15
          refine State.islAlarm_keeps ?_
          refine Keeps.ite ?_ (fun _ => ?_)
          · exact h16
          · exact State.wr_keeps h16
      · extract_lets -merge +onlyGivenNames v17
        clear_value v17
        extract_lets -merge +onlyGivenNames v18
        have h19 : Keeps s v18 := Keeps.fields h
        clear_value v18
        exact State.wr_keeps (State.clearDef_keeps h19)
    · extract_lets -merge +onlyGivenNames v20
      clear_value v20
      extract_lets -merge +onlyGivenNames v21
      have h22 : Keeps s v21 := Keeps.fields h
      clear_value v21
      refine Keeps.forEach ?_ (fun y23 y24 h25 => ?_)
      · exact h22
      · exact State.showGrp_keeps (State.setGrp_keeps h25)
  · extract_lets -merge +onlyGivenNames v26 v27 v28
    clear_value v26 v27 v28
    extract_lets -merge +onlyGivenNames v29
    have h30 : Keeps s v29 := Keeps.fields h
    clear_value v29
    refine Keeps.forEach ?_ (fun y31 y32 h33 => ?_)
    · exact h30
    · exact State.deadLetter_keeps h33

theorem State.loseChannel_keeps {p2} (h : Keeps s x) : Keeps s (State.loseChannel x p2) := by
  unfold State.loseChannel
  refine Keeps.ite ?_ (fun _ => ?_)
  · extract_lets -merge +onlyGivenNames v1
    have h2 : Keeps s v1 := State.notice_keeps (State.setFlag_keeps h)
    clear_value v1
    extract_lets -merge +onlyGivenNames v3
    subst v3
    extract_lets -merge +onlyGivenNames v4
    have h5 : Keeps s v4 := by
      unfold v4
      refine Keeps.ite ?_ (fun _ => ?_)
      · exact State.setFlag_keeps h2
      · exact State.setFlag_keeps h2
    clear_value v4
    extract_lets -merge +onlyGivenNames v6
    have h7 : Keeps s v6 := State.notice_keeps (State.setFlag_keeps h5)
    clear_value v6
    refine Keeps.ite ?_ (fun _ => ?_)
    · extract_lets -merge +onlyGivenNames v8 v9
      clear_value v8 v9
      extract_lets -merge +onlyGivenNames v10
      have h11 : Keeps s v10 := Keeps.fields h7
      clear_value v10
      refine State.refreshDeg_keeps ?_
      refine Keeps.forEach ?_ (fun y12 y13 h14 => ?_)
      · exact h11
      · exact State.loseRegion_keeps h14
    · exact State.fatal_keeps h7
  · exact h

theorem State.setUeTimes_keeps {p2} {p3} (h : Keeps s x) : Keeps s (State.setUeTimes x p2 p3) := by
  unfold State.setUeTimes
  refine Keeps.ite ?_ (fun _ => ?_)
  · exact Keeps.fields h
  · exact Keeps.fields h

theorem State.dramLast_keeps {p2} {p3} {p4} (h : Keeps s x) : Keeps s (State.dramLast x p2 p3 p4) := by
  unfold State.dramLast
  exact State.setFlag_keeps (State.wr_keeps (State.wr_keeps h))

theorem State.dramCount_keeps {p2} {p3} (h : Keeps s x) : Keeps s (State.dramCount x p2 p3) := by
  unfold State.dramCount
  exact State.notice_keeps (State.dramLast_keeps (State.inc_keeps h))

theorem State.dramMet_keeps {p2} (h : Keeps s x) : Keeps s (State.dramMet x p2) := by
  unfold State.dramMet
  split
  · split
    · refine Keeps.ite ?_ (fun _ => ?_)
      · exact State.kick_keeps (State.reissue_keeps h)
      · exact h
    · exact h
  · refine Keeps.ite ?_ (fun _ => ?_)
    · exact h
    · exact State.selfTestFail_keeps h

theorem State.ueWindow_keeps {p2} (h : Keeps s x) : Keeps s (State.ueWindow x p2) := by
  unfold State.ueWindow
  extract_lets -merge +onlyGivenNames v1
  clear_value v1
  extract_lets -merge +onlyGivenNames v2
  have h3 : Keeps s v2 := State.setUeTimes_keeps h
  clear_value v2
  refine Keeps.ite ?_ (fun _ => ?_)
  · exact h3
  · exact State.loseChannel_keeps h3

theorem execDramUe_keeps {p1} {p2} {p3} {p4} : KeepsRes s (execDramUe p1 p2 p3 p4 s) := by
  have h := Keeps.refl s
  unfold execDramUe
  extract_lets -merge +onlyGivenNames v1
  have h2 : Keeps s v1 := State.advance_keeps h
  clear_value v1
  refine KeepsRes.next ?_
  refine Keeps.ite ?_ (fun _ => ?_)
  · exact State.ueWindow_keeps (State.dramMet_keeps (State.dramCount_keeps h2))
  · exact h2

theorem execDramPatrolPass_keeps {p1} {p2} {p3} {p4} {p5} : KeepsRes s (execDramPatrolPass p1 p2 p3 p4 p5 s) := by
  have h := Keeps.refl s
  unfold execDramPatrolPass
  extract_lets -merge +onlyGivenNames v1
  have h2 : Keeps s v1 := State.advance_keeps h
  clear_value v1
  extract_lets -merge +onlyGivenNames v3
  clear_value v3
  refine KeepsRes.next ?_
  refine Keeps.ite ?_ (fun _ => ?_)
  · extract_lets -merge +onlyGivenNames v4
    have h5 : Keeps s v4 := State.wr_keeps h2
    clear_value v4
    extract_lets -merge +onlyGivenNames v6
    extract_lets -merge +onlyGivenNames v7
    have h8 : Keeps s v7 := by
      unfold v7
      refine Keeps.ite ?_ (fun _ => ?_)
      · exact h5
      · exact State.inc_keeps h5
    clear_value v7
    refine Keeps.ite ?_ (fun _ => ?_)
    · exact State.noticeFirst_keeps (State.dramLast_keeps (State.bump_keeps h8))
    · exact h8
  · exact h2

theorem State.sramLast_keeps {p2} {p3} (h : Keeps s x) : Keeps s (State.sramLast x p2 p3) := by
  unfold State.sramLast
  exact State.wr_keeps (State.wr_keeps h)

theorem execSramUe_keeps {p1} {p2} {p3} : KeepsRes s (execSramUe p1 p2 p3 s) := by
  have h := Keeps.refl s
  unfold execSramUe
  extract_lets -merge +onlyGivenNames v1
  have h2 : Keeps s v1 := State.advance_keeps h
  clear_value v1
  refine KeepsRes.next ?_
  refine Keeps.ite ?_ (fun _ => ?_)
  · extract_lets -merge +onlyGivenNames v3
    have h4 : Keeps s v3 := State.notice_keeps (State.sramLast_keeps (State.inc_keeps h2))
    clear_value v3
    extract_lets -merge +onlyGivenNames v5
    have h6 : Keeps s v5 := by
      unfold v5
      refine Keeps.ite ?_ (fun _ => ?_)
      · exact h4
      · exact State.selfTestFail_keeps h4
    clear_value v5
    refine Keeps.ite ?_ (fun _ => ?_)
    · exact State.fatal_keeps h6
    · exact State.fence_keeps h6
  · exact h2

theorem execSramScrubPass_keeps {p1} {p2} {p3} {p4} : KeepsRes s (execSramScrubPass p1 p2 p3 p4 s) := by
  have h := Keeps.refl s
  unfold execSramScrubPass
  extract_lets -merge +onlyGivenNames v1
  have h2 : Keeps s v1 := State.advance_keeps h
  clear_value v1
  refine KeepsRes.next ?_
  refine Keeps.ite ?_ (fun _ => ?_)
  · extract_lets -merge +onlyGivenNames v3
    have h4 : Keeps s v3 := State.inc_keeps h2
    clear_value v3
    refine Keeps.ite ?_ (fun _ => ?_)
    · exact State.noticeFirst_keeps (State.sramLast_keeps (State.bump_keeps h4))
    · exact h4
  · exact h2

theorem State.katRan_keeps {p2} (h : Keeps s x) : Keeps s (State.katRan x p2) := by
  unfold State.katRan
  split
  · exact State.markRan_keeps h
  · exact h

theorem execKnownAnswerTest_keeps {p1} {p2} {p3} : KeepsRes s (execKnownAnswerTest p1 p2 p3 s) := by
  have h := Keeps.refl s
  unfold execKnownAnswerTest
  extract_lets -merge +onlyGivenNames v1
  clear_value v1
  extract_lets -merge +onlyGivenNames v2
  have h3 : Keeps s v2 := State.katRan_keeps (State.advance_keeps h)
  clear_value v2
  refine KeepsRes.next ?_
  refine Keeps.ite ?_ (fun _ => ?_)
  · exact State.fence_keeps (State.selfTestFail_keeps h3)
  · exact h3

theorem State.mramCorrected_keeps {p2} {p3} (h : Keeps s x) : Keeps s (State.mramCorrected x p2 p3) := by
  unfold State.mramCorrected
  refine Keeps.ite ?_ (fun _ => ?_)
  · exact State.noticeFirst_keeps (State.wr_keeps (State.setFlag_keeps (State.bump_keeps h)))
  · exact h

theorem execMramReadCheck_keeps {p1} {p2} {p3} {p4} : KeepsRes s (execMramReadCheck p1 p2 p3 p4 s) := by
  have h := Keeps.refl s
  unfold execMramReadCheck
  extract_lets -merge +onlyGivenNames v1
  have h2 : Keeps s v1 := State.advance_keeps h
  clear_value v1
  refine KeepsRes.next ?_
  refine Keeps.ite ?_ (fun _ => ?_)
  · extract_lets -merge +onlyGivenNames v3
    clear_value v3
    exact State.mramCorrected_keeps (State.loadSlots_keeps (Keeps.fields h2))
  · exact h2

theorem State.keyUe_keeps {p2} (h : Keeps s x) : Keeps s (State.keyUe x p2) := by
  unfold State.keyUe
  refine Keeps.ite ?_ (fun _ => ?_)
  · refine Keeps.ite ?_ (fun _ => ?_)
    · refine Keeps.ite ?_ (fun _ => ?_)
      · refine Keeps.ite ?_ (fun _ => ?_)
        · exact h
        · exact Keeps.fields h
      · exact Keeps.fields h
    · extract_lets -merge +onlyGivenNames v1 v2 v3
      clear_value v1 v2 v3
      extract_lets -merge +onlyGivenNames v4
      have h5 : Keeps s v4 := Keeps.fields h
      clear_value v4
      refine Keeps.forEach ?_ (fun y6 y7 h8 => ?_)
      · exact h5
      · exact State.loadSlot_keeps h8
  · extract_lets -merge +onlyGivenNames v9 v10 v11
    clear_value v9 v10 v11
    extract_lets -merge +onlyGivenNames v12
    have h13 : Keeps s v12 := Keeps.fields h
    clear_value v12
    exact State.fatal_keeps h13

theorem State.jrnUe_keeps {p2} (h : Keeps s x) : Keeps s (State.jrnUe x p2) := by
  unfold State.jrnUe
  extract_lets -merge +onlyGivenNames v1
  clear_value v1
  refine Keeps.ite ?_ (fun _ => ?_)
  · refine Keeps.ite ?_ (fun _ => ?_)
    · refine Keeps.ite ?_ (fun _ => ?_)
      · refine Keeps.ite ?_ (fun _ => ?_)
        · refine Keeps.ite ?_ (fun _ => ?_)
          · refine Keeps.ite ?_ (fun _ => ?_)
            · refine Keeps.ite ?_ (fun _ => ?_)
              · refine Keeps.ite ?_ (fun _ => ?_)
                · exact h
                · exact Keeps.fields h
              · exact Keeps.fields h
            · exact Keeps.fields h
          · exact Keeps.fields h
        · exact Keeps.logFields h
      · exact Keeps.logFields h
    · exact Keeps.fields h
  · exact Keeps.fields h

theorem State.logUe_keeps {p2} (h : Keeps s x) : Keeps s (State.logUe x p2) := by
  unfold State.logUe
  refine State.inc_keeps (h.updLog rfl rfl rfl rfl fun k => ?_)
  simpa only [State.logOk, List.length_map] using k

theorem State.mramCount_keeps {p2} (h : Keeps s x) : Keeps s (State.mramCount x p2) := by
  unfold State.mramCount
  exact State.notice_keeps (State.wr_keeps (State.setFlag_keeps (State.inc_keeps h)))

theorem execMramUe_keeps {p1} {p2} : KeepsRes s (execMramUe p1 p2 s) := by
  have h := Keeps.refl s
  unfold execMramUe
  extract_lets -merge +onlyGivenNames v1
  have h2 : Keeps s v1 := State.advance_keeps h
  clear_value v1
  refine KeepsRes.next ?_
  refine Keeps.ite ?_ (fun _ => ?_)
  · extract_lets -merge +onlyGivenNames v3
    have h4 : Keeps s v3 := State.mramCount_keeps h2
    clear_value v3
    refine Keeps.ite ?_ (fun _ => ?_)
    · refine Keeps.ite ?_ (fun _ => ?_)
      · refine Keeps.ite ?_ (fun _ => ?_)
        · refine Keeps.ite ?_ (fun _ => ?_)
          · refine Keeps.ite ?_ (fun _ => ?_)
            · refine Keeps.ite ?_ (fun _ => ?_)
              · exact h4
              · exact State.jrnUe_keeps h4
            · refine State.keyUe_keeps ?_
              refine Keeps.ite ?_ (fun _ => ?_)
              · exact h4
              · exact State.selfTestFail_keeps h4
          · exact State.logUe_keeps h4
        · exact State.setBank_keeps h4
      · exact State.setBank_keeps h4
    · refine State.fatal_keeps ?_
      refine Keeps.ite ?_ (fun _ => ?_)
      · exact h4
      · exact State.selfTestFail_keeps h4
  · exact h2

theorem State.thermCheck_keeps (h : Keeps s x) : Keeps s (State.thermCheck x) := by
  unfold State.thermCheck
  extract_lets -merge +onlyGivenNames v1 v2 v3 v4 v5 v6
  clear_value v1 v2 v3 v4 v5 v6
  extract_lets -merge +onlyGivenNames v7
  have h8 : Keeps s v7 := State.setFlag_keeps (State.setFlag_keeps h)
  clear_value v7
  extract_lets -merge +onlyGivenNames v9
  have h10 : Keeps s v9 := by
    unfold v9
    refine Keeps.ite ?_ (fun _ => ?_)
    · exact h8
    · exact State.notice_keeps h8
  clear_value v9
  extract_lets -merge +onlyGivenNames v11
  have h12 : Keeps s v11 := by
    unfold v11
    refine Keeps.ite ?_ (fun _ => ?_)
    · exact h10
    · exact State.notice_keeps h10
  clear_value v11
  exact State.stdAlarm_keeps h12

theorem execTjSample_keeps {p1} {p2} : KeepsRes s (execTjSample p1 p2 s) := by
  have h := Keeps.refl s
  unfold execTjSample
  extract_lets -merge +onlyGivenNames v1
  have h2 : Keeps s v1 := State.advance_keeps h
  clear_value v1
  refine KeepsRes.next ?_
  refine Keeps.ite ?_ (fun _ => ?_)
  · extract_lets -merge +onlyGivenNames v3
    clear_value v3
    extract_lets -merge +onlyGivenNames v4
    have h5 : Keeps s v4 := State.wr_keeps (State.wr_keeps h2)
    clear_value v4
    extract_lets -merge +onlyGivenNames v6
    have h7 : Keeps s v6 := by
      unfold v6
      refine Keeps.ite ?_ (fun _ => ?_)
      · exact h5
      · exact State.wr_keeps h5
    clear_value v6
    exact State.thermCheck_keeps h7
  · exact h2

theorem execTjPeakReset_keeps {p1} : KeepsRes s (execTjPeakReset p1 s) := by
  have h := Keeps.refl s
  unfold execTjPeakReset
  refine KeepsRes.next ?_
  refine State.hostGate_keeps h (fun y1 h2 => ?_)
  exact State.wr_keeps h2

theorem State.railBit_keeps {p2} {p3} {p4} (h : Keeps s x) : Keeps s (State.railBit x p2 p3 p4) := by
  unfold State.railBit
  extract_lets -merge +onlyGivenNames v1
  clear_value v1
  exact State.wr_keeps h

theorem execSupplyExcursion_keeps {p1} {p2} {p3} : KeepsRes s (execSupplyExcursion p1 p2 p3 s) := by
  have h := Keeps.refl s
  unfold execSupplyExcursion
  extract_lets -merge +onlyGivenNames v1
  subst v1
  extract_lets -merge +onlyGivenNames v2
  clear_value v2
  refine KeepsRes.next ?_
  refine Keeps.ite ?_ (fun _ => ?_)
  · refine Keeps.ite ?_ (fun _ => ?_)
    · exact State.railBit_keeps h
    · extract_lets -merge +onlyGivenNames v3
      extract_lets -merge +onlyGivenNames v4
      have h5 : Keeps s v4 := State.railBit_keeps (State.railBit_keeps h)
      clear_value v4
      refine Keeps.ite ?_ (fun _ => ?_)
      · exact h5
      · exact State.logEvent_keeps h5
  · exact h

theorem State.i2cWrite_keeps {p2} (h : Keeps s x) : Keeps s (State.i2cWrite x p2) := by
  unfold State.i2cWrite
  extract_lets -merge +onlyGivenNames v1
  clear_value v1
  extract_lets -merge +onlyGivenNames v2
  have h3 : Keeps s v2 := State.store_keeps h
  clear_value v2
  refine Keeps.ite ?_ (fun _ => ?_)
  · extract_lets -merge +onlyGivenNames v4 v5 v6
    clear_value v4 v5 v6
    extract_lets -merge +onlyGivenNames v7
    have h8 : Keeps s v7 := Keeps.fields h3
    clear_value v7
    exact State.emit_keeps (State.wr_keeps h8)
  · exact h3

theorem execI2cGo_keeps {p1} : KeepsRes s (execI2cGo p1 s) := by
  have h := Keeps.refl s
  unfold execI2cGo
  refine KeepsRes.next ?_
  refine State.hostGate_keeps h (fun y1 h2 => ?_)
  exact State.i2cWrite_keeps h2

theorem execI2cDone_keeps {p1} {p2} : KeepsRes s (execI2cDone p1 p2 s) := by
  have h := Keeps.refl s
  unfold execI2cDone
  refine KeepsRes.next ?_
  split
  · exact h
  · extract_lets -merge +onlyGivenNames v1
    clear_value v1
    extract_lets -merge +onlyGivenNames v2
    have h3 : Keeps s v2 := Keeps.fields h
    clear_value v2
    refine Keeps.ite ?_ (fun _ => ?_)
    · exact State.wr_keeps h3
    · extract_lets -merge +onlyGivenNames v4 v5
      clear_value v4 v5
      extract_lets -merge +onlyGivenNames v6
      have h7 : Keeps s v6 := by
        unfold v6
        refine Keeps.ite ?_ (fun _ => ?_)
        · exact h3
        · exact State.wr_keeps h3
      clear_value v6
      exact State.wr_keeps h7

theorem State.doorbellBad_keeps {p2} {p3} (h : Keeps s x) : Keeps s (State.doorbellBad x p2 p3) := by
  unfold State.doorbellBad
  exact State.notice_keeps h

theorem State.prCons_keeps {p2} {p3} {p4} {p5} {p6} (h : Keeps s x) : Keeps s (State.prCons x p2 p3 p4 p5 p6) := by
  unfold State.prCons
  refine Keeps.ite ?_ (fun _ => ?_)
  · exact State.doorbellBad_keeps h
  · exact State.wr_keeps h

theorem State.bell_keeps {p2} {p3} {p4} (h : Keeps s x) (kp4 : ∀ b1 b2, Keeps s b2 → Keeps s (p4 b1 b2)) : Keeps s (State.bell x p2 p3 p4) := by
  unfold State.bell
  split
  · refine Keeps.ite ?_ (fun _ => ?_)
    · exact h
    · exact State.answer_keeps h
  · refine Keeps.ite ?_ (fun _ => ?_)
    · exact h
    · exact kp4 _ _ h

theorem execPrDoorbell_keeps {p1} {p2} {p3} : KeepsRes s (execPrDoorbell p1 p2 p3 s) := by
  have h := Keeps.refl s
  unfold execPrDoorbell
  extract_lets -merge +onlyGivenNames v1
  clear_value v1
  refine KeepsRes.next ?_
  refine State.bell_keeps h (fun y2 y3 h4 => ?_)
  extract_lets -merge +onlyGivenNames v5
  have h6 : Keeps s v5 := by
    unfold v5
    split
    · rename_i z7 z8
      exact State.prCons_keeps h4
    · rename_i z9
      exact h4
  clear_value v5
  extract_lets -merge +onlyGivenNames v10
  have h11 : Keeps s v10 := by
    unfold v10
    split
    · rename_i z12 z13
      exact State.prCons_keeps h6
    · rename_i z14
      exact h6
  clear_value v10
  refine Keeps.ite ?_ (fun _ => ?_)
  · exact h11
  · exact State.prResume_keeps h11

theorem execModTimeout_keeps {p1} {p2} : KeepsRes s (execModTimeout p1 p2 s) := by
  have h := Keeps.refl s
  unfold execModTimeout
  extract_lets -merge +onlyGivenNames v1
  have h2 : Keeps s v1 := State.advance_keeps h
  clear_value v1
  extract_lets -merge +onlyGivenNames v3
  clear_value v3
  refine KeepsRes.ite ?_ ?_
  · exact KeepsRes.next h2
  · exact KeepsRes.next (State.raiseVector_keeps (Keeps.fields h2))

theorem State.prClear_keeps {p2} (h : Keeps s x) : Keeps s (State.prClear x p2) := by
  unfold State.prClear
  extract_lets -merge +onlyGivenNames v1
  clear_value v1
  extract_lets -merge +onlyGivenNames v2
  have h3 : Keeps s v2 := Keeps.fields h
  clear_value v2
  extract_lets -merge +onlyGivenNames v4
  have h5 : Keeps s v4 := State.wr_keeps (State.wr_keeps h3)
  clear_value v4
  extract_lets -merge +onlyGivenNames v6
  have h7 : Keeps s v6 := State.wr_keeps (State.wr_keeps h5)
  clear_value v6
  exact State.setFlag_keeps (State.wr_keeps h7)

theorem State.prCfg_keeps {p2} {p3} (h : Keeps s x) : Keeps s (State.prCfg x p2 p3) := by
  unfold State.prCfg
  extract_lets -merge +onlyGivenNames v1
  have h2 : Keeps s v1 := State.store_keeps h
  clear_value v1
  refine Keeps.ite ?_ (fun _ => ?_)
  · exact h2
  · exact State.prClear_keeps h2

theorem execPrEnable_keeps {p1} {p2} : KeepsRes s (execPrEnable p1 p2 s) := by
  have h := Keeps.refl s
  unfold execPrEnable
  refine KeepsRes.next ?_
  refine State.hostGate_keeps h (fun y1 h2 => ?_)
  exact State.prCfg_keeps h2

theorem State.lbCfg_keeps {p2} {p3} (h : Keeps s x) : Keeps s (State.lbCfg x p2 p3) := by
  unfold State.lbCfg
  extract_lets -merge +onlyGivenNames v1
  have h2 : Keeps s v1 := State.store_keeps h
  clear_value v1
  refine Keeps.ite ?_ (fun _ => ?_)
  · exact h2
  · extract_lets -merge +onlyGivenNames v3
    clear_value v3
    extract_lets -merge +onlyGivenNames v4
    have h5 : Keeps s v4 := Keeps.fields h2
    clear_value v4
    exact State.wr_keeps (State.wr_keeps (State.wr_keeps h5))

theorem execLbEnable_keeps {p1} {p2} : KeepsRes s (execLbEnable p1 p2 s) := by
  have h := Keeps.refl s
  unfold execLbEnable
  refine KeepsRes.next ?_
  refine State.hostGate_keeps h (fun y1 h2 => ?_)
  exact State.lbCfg_keeps h2

theorem execLbDoorbell_keeps {p1} {p2} : KeepsRes s (execLbDoorbell p1 p2 s) := by
  have h := Keeps.refl s
  unfold execLbDoorbell
  refine KeepsRes.next ?_
  refine State.bell_keeps h (fun y1 y2 h3 => ?_)
  split
  · exact h3
  · refine Keeps.ite ?_ (fun _ => ?_)
    · exact State.doorbellBad_keeps h3
    · exact State.wr_keeps h3

theorem execLbCommandFetched_keeps {p1} {p2} {p3} : KeepsRes s (execLbCommandFetched p1 p2 p3 s) := by
  have h := Keeps.refl s
  unfold execLbCommandFetched
  extract_lets -merge +onlyGivenNames v1
  have h2 : Keeps s v1 := State.advance_keeps h
  clear_value v1
  refine KeepsRes.ite ?_ ?_
  · exact KeepsRes.next h2
  · exact KeepsRes.next (State.enqueueC3_keeps (State.inc_keeps h2))

theorem execRingPcieError_keeps {p1} {p2} : KeepsRes s (execRingPcieError p1 p2 s) := by
  have h := Keeps.refl s
  unfold execRingPcieError
  refine KeepsRes.ite ?_ ?_
  · refine KeepsRes.ite ?_ ?_
    · refine KeepsRes.ite ?_ ?_
      · exact KeepsRes.next h
      · exact KeepsRes.next (State.notice_keeps (State.setFlag_keeps (State.setFlag_keeps h)))
    · refine KeepsRes.ite ?_ ?_
      · exact KeepsRes.next h
      · exact KeepsRes.next (State.notice_keeps (State.setFlag_keeps (State.setFlag_keeps h)))
  · exact KeepsRes.next h

theorem execBmeOff_keeps : KeepsRes s (execBmeOff s) := by
  have h := Keeps.refl s
  unfold execBmeOff
  refine KeepsRes.ite ?_ ?_
  · exact KeepsRes.next h
  · exact KeepsRes.next (State.notice_keeps (State.setFlag_keeps h))

theorem execBusMasteringOn_keeps {p1} : KeepsRes s (execBusMasteringOn p1 s) := by
  have h := Keeps.refl s
  unfold execBusMasteringOn
  refine KeepsRes.ite ?_ ?_
  · exact KeepsRes.next h
  · exact KeepsRes.next (State.setFlag_keeps (Keeps.fields h))

theorem execPcieLinkUp_keeps : KeepsRes s (execPcieLinkUp s) := by
  have h := Keeps.refl s
  unfold execPcieLinkUp
  refine KeepsRes.ite ?_ ?_
  · exact KeepsRes.next h
  · exact KeepsRes.next (State.setFlag_keeps h)

theorem State.ringsOff_keeps (h : Keeps s x) : Keeps s (State.ringsOff x) := by
  unfold State.ringsOff
  extract_lets -merge +onlyGivenNames v1
  have h2 : Keeps s v1 := by
    unfold v1
    refine Keeps.forEach ?_ (fun y3 y4 h5 => ?_)
    · exact h
    · refine Keeps.ite ?_ (fun _ => ?_)
      · exact h5
      · exact State.setFlag_keeps (State.setFlag_keeps h5)
  clear_value v1
  refine Keeps.forEach ?_ (fun y6 y7 h8 => ?_)
  · exact h2
  · refine Keeps.ite ?_ (fun _ => ?_)
    · exact h8
    · exact State.setFlag_keeps (State.setFlag_keeps h8)

theorem State.perst_keeps (h : Keeps s x) : Keeps s (State.perst x) := by
  unfold State.perst
  extract_lets -merge +onlyGivenNames v1
  clear_value v1
  extract_lets -merge +onlyGivenNames v2
  have h3 : Keeps s v2 := Keeps.fields h
  clear_value v2
  extract_lets -merge +onlyGivenNames v4
  have h5 : Keeps s v4 := State.setFlag_keeps (State.setFlag_keeps h3)
  clear_value v4
  exact State.notice_keeps (State.ringsOff_keeps h5)

theorem execPerst_keeps : KeepsRes s (execPerst s) := by
  have h := Keeps.refl s
  unfold execPerst
  refine KeepsRes.ite ?_ ?_
  · exact KeepsRes.next h
  · exact KeepsRes.next (State.perst_keeps h)

end Sys2Proof.Machine
end

