-- ==== Sys2Proof/Laws/KeepsStart.lean ====
section
/-! SUPPORT. Each operation and each meaning keeps what `Keeps` says: the start. -/
namespace Sys2Proof.Machine

variable {s x : State}

theorem State.flashAbandon_keeps (h : Keeps s x) : Keeps s (State.flashAbandon x) := by
  unfold State.flashAbandon
  extract_lets -merge +onlyGivenNames v1
  extract_lets -merge +onlyGivenNames v2
  clear_value v2
  split
  · rename_i z4 z5
    exact h
  · rename_i z6 z7 z8
    extract_lets -merge +onlyGivenNames v9
    have h10 : Keeps s v9 := Keeps.takes h
    clear_value v9
    exact State.flashPut_keeps h10

theorem State.powerCut_keeps (h : Keeps s x) : Keeps s (State.powerCut x) := by
  unfold State.powerCut
  split
  · refine (State.flashAbandon_keeps h).updLog rfl rfl rfl rfl fun k => ?_
    simp only [State.logOk, Bool.and_eq_true, decide_eq_true_eq] at k ⊢
    exact ⟨⟨Nat.zero_le _, k.1.2⟩, k.2⟩
  · exact h

theorem State.coldClear_keeps (h : Keeps s x) : Keeps s (State.coldClear x) := by
  unfold State.coldClear
  exact Keeps.fields h

theorem State.startClear_keeps (h : Keeps s x) : Keeps s (State.startClear x) := by
  unfold State.startClear
  exact Keeps.fields h

theorem State.loadTime_keeps (h : Keeps s x) : Keeps s (State.loadTime x) := by
  unfold State.loadTime
  extract_lets -merge +onlyGivenNames v1 v2
  clear_value v1 v2
  exact Keeps.logFields h

theorem State.showStart_keeps {p2} {p3} {p4} (h : Keeps s x) : Keeps s (State.showStart x p2 p3 p4) := by
  unfold State.showStart
  exact State.setFlag_keeps (State.wr_keeps (State.wr_keeps h))

theorem State.showOe_keeps (h : Keeps s x) : Keeps s (State.showOe x) := by
  unfold State.showOe
  exact State.cmpShow_keeps (State.showLines_keeps (State.setFlag_keeps h))

theorem State.coldReset_keeps (h : Keeps s x) : Keeps s (State.coldReset x) := by
  unfold State.coldReset
  exact State.staged_keeps (State.showOe_keeps (State.resetKinds_keeps (State.startClear_keeps (State.coldClear_keeps h))))

theorem State.startOps_keeps (h : Keeps s x) : Keeps s (State.startOps x) := by
  unfold State.startOps
  extract_lets -merge +onlyGivenNames v1 v2 v3
  clear_value v1 v2 v3
  extract_lets -merge +onlyGivenNames v4
  have h5 : Keeps s v4 := State.wr_keeps (State.wr_keeps h)
  clear_value v4
  extract_lets -merge +onlyGivenNames v6
  have h7 : Keeps s v6 := State.saveOps_keeps h5
  clear_value v6
  refine Keeps.ite ?_ (fun _ => ?_)
  · exact h7
  · exact State.logEvent_keeps h7

theorem State.coldTime_keeps (h : Keeps s x) : Keeps s (State.coldTime x) := by
  unfold State.coldTime
  extract_lets -merge +onlyGivenNames v1
  have h2 : Keeps s v1 := State.loadTime_keeps h
  clear_value v1
  extract_lets -merge +onlyGivenNames v3
  clear_value v3
  extract_lets -merge +onlyGivenNames v4
  have h5 : Keeps s v4 := State.steerFrame_keeps (Keeps.fields h2)
  clear_value v4
  extract_lets -merge +onlyGivenNames v6
  have h7 : Keeps s v6 := by
    unfold v6
    refine Keeps.ite ?_ (fun _ => ?_)
    · exact h5
    · exact State.notice_keeps (State.logEvent_keeps h5)
  clear_value v6
  extract_lets -merge +onlyGivenNames v8
  clear_value v8
  refine Keeps.forEach ?_ (fun y9 y10 h11 => ?_)
  · exact Keeps.fields h7
  · exact State.notice_keeps h11

theorem State.coldBegin_keeps {p2} {p3} (h : Keeps s x) : Keeps s (State.coldBegin x p2 p3) := by
  unfold State.coldBegin
  extract_lets -merge +onlyGivenNames v1
  have h2 : Keeps s v1 := by
    unfold v1
    refine Keeps.ite ?_ (fun _ => ?_)
    · exact State.countOpsec_keeps h
    · exact h
  clear_value v1
  extract_lets -merge +onlyGivenNames v3
  have h4 : Keeps s v3 := State.flashAbandon_keeps h2
  clear_value v3
  extract_lets -merge +onlyGivenNames v5
  clear_value v5
  extract_lets -merge +onlyGivenNames v6
  have h7 : Keeps s v6 := Keeps.fields h4
  clear_value v6
  extract_lets -merge +onlyGivenNames v8
  have h9 : Keeps s v8 := State.coldTime_keeps (State.showStart_keeps (State.coldReset_keeps h7))
  clear_value v8
  extract_lets -merge +onlyGivenNames v10
  have h11 : Keeps s v10 := by
    unfold v10
    refine Keeps.ite ?_ (fun _ => ?_)
    · exact h9
    · exact State.startOps_keeps h9
  clear_value v10
  refine Keeps.ite ?_ (fun _ => ?_)
  · exact h11
  · exact State.wr_keeps h11

theorem State.warmTime_keeps {p2} (h : Keeps s x) : Keeps s (State.warmTime x p2) := by
  unfold State.warmTime
  extract_lets -merge +onlyGivenNames v1 v2 v3
  clear_value v1 v2 v3
  refine Keeps.ite ?_ (fun _ => ?_)
  · extract_lets -merge +onlyGivenNames v4 v5
    clear_value v4 v5
    extract_lets -merge +onlyGivenNames v6
    have h7 : Keeps s v6 := Keeps.fields h
    clear_value v6
    extract_lets -merge +onlyGivenNames v8
    have h9 : Keeps s v8 := State.refreshUtc_keeps h7
    clear_value v8
    refine Keeps.ite ?_ (fun _ => ?_)
    · exact State.wr_keeps (State.setTb_keeps h9)
    · extract_lets -merge +onlyGivenNames v10
      have h11 : Keeps s v10 := State.setTb_keeps h9
      clear_value v10
      exact Keeps.fields h11
  · extract_lets -merge +onlyGivenNames v12
    have h13 : Keeps s v12 := State.loadTime_keeps h
    clear_value v12
    extract_lets -merge +onlyGivenNames v14
    have h15 : Keeps s v14 := State.wr_keeps (State.setWord_keeps h13)
    clear_value v14
    exact State.refreshUtc_keeps (State.steerFrame_keeps h15)

theorem State.warmAdm_keeps (h : Keeps s x) : Keeps s (State.warmAdm x) := by
  unfold State.warmAdm
  extract_lets -merge +onlyGivenNames v1 v2 v3
  clear_value v1 v2 v3
  extract_lets -merge +onlyGivenNames v4
  have h5 : Keeps s v4 := Keeps.fields h
  clear_value v4
  extract_lets -merge +onlyGivenNames v6
  have h7 : Keeps s v6 := by
    unfold v6
    refine Keeps.forEach ?_ (fun y8 y9 h10 => ?_)
    · exact h5
    · refine Keeps.ite ?_ (fun _ => ?_)
      · exact h10
      · exact State.wr_keeps (State.putDesc_keeps h10)
  clear_value v6
  extract_lets -merge +onlyGivenNames v11 v12
  clear_value v11 v12
  exact Keeps.fields h7

theorem State.warmWhl_keeps (h : Keeps s x) : Keeps s (State.warmWhl x) := by
  unfold State.warmWhl
  extract_lets -merge +onlyGivenNames v1
  clear_value v1
  extract_lets -merge +onlyGivenNames v2
  have h3 : Keeps s v2 := Keeps.fields h
  clear_value v2
  extract_lets -merge +onlyGivenNames v4
  have h5 : Keeps s v4 := by
    unfold v4
    refine Keeps.forEach ?_ (fun y6 y7 h8 => ?_)
    · exact h3
    · extract_lets -merge +onlyGivenNames v9
      clear_value v9
      refine Keeps.ite ?_ (fun _ => ?_)
      · exact State.put_keeps h8
      · exact State.put_keeps h8
  clear_value v4
  extract_lets -merge +onlyGivenNames v10
  clear_value v10
  refine Keeps.forEach ?_ (fun y11 y12 h13 => ?_)
  · exact h5
  · refine Keeps.ite ?_ (fun _ => ?_)
    · exact State.stabWr_keeps h13
    · exact h13

theorem State.warmSof_keeps (h : Keeps s x) : Keeps s (State.warmSof x) := by
  unfold State.warmSof
  extract_lets -merge +onlyGivenNames v1
  clear_value v1
  exact Keeps.fields h

theorem State.warmNet_keeps (h : Keeps s x) : Keeps s (State.warmNet x) := by
  unfold State.warmNet
  exact Keeps.fields h

theorem State.warmAlm_keeps (h : Keeps s x) : Keeps s (State.warmAlm x) := by
  unfold State.warmAlm
  extract_lets -merge +onlyGivenNames v1 v2
  clear_value v1 v2
  extract_lets -merge +onlyGivenNames v3
  have h4 : Keeps s v3 := Keeps.fields h
  clear_value v3
  refine Keeps.forEach ?_ (fun y5 y6 h7 => ?_)
  · exact h4
  · exact State.setFlag_keeps (State.amRest_keeps h7)

theorem State.warmNrg_keeps (h : Keeps s x) : Keeps s (State.warmNrg x) := by
  unfold State.warmNrg
  extract_lets -merge +onlyGivenNames v1
  have h2 : Keeps s v1 := by
    unfold v1
    refine Keeps.forEach ?_ (fun y3 y4 h5 => ?_)
    · exact h
    · extract_lets -merge +onlyGivenNames v6
      have h7 : Keeps s v6 := State.pqEndAll_keeps h5
      clear_value v6
      exact State.setNrgPt_keeps h7
  clear_value v1
  exact h2

theorem State.warmCap_keeps (h : Keeps s x) : Keeps s (State.warmCap x) := by
  unfold State.warmCap
  extract_lets -merge +onlyGivenNames v1 v2
  clear_value v1 v2
  exact Keeps.fields h

theorem State.warmClear_keeps (h : Keeps s x) : Keeps s (State.warmClear x) := by
  unfold State.warmClear
  extract_lets -merge +onlyGivenNames v1 v2 v3 v4 v5 v6
  clear_value v1 v2 v3 v4 v5 v6
  extract_lets -merge +onlyGivenNames v7
  have h8 : Keeps s v7 := State.warmCap_keeps (State.warmAlm_keeps (State.warmNet_keeps (State.warmSof_keeps (State.warmWhl_keeps (State.warmAdm_keeps h)))))
  clear_value v7
  exact Keeps.fields h8

theorem State.warmRegs_keeps (h : Keeps s x) : Keeps s (State.warmRegs x) := by
  unfold State.warmRegs
  extract_lets -merge +onlyGivenNames v1 v2
  clear_value v1 v2
  exact State.staged_keeps (State.showOe_keeps (State.wr_keeps (State.wr_keeps (State.resetKinds_keeps h))))

theorem State.restartStep2_keeps {p2} (h : Keeps s x) : Keeps s (State.restartStep2 x p2) := by
  unfold State.restartStep2
  extract_lets -merge +onlyGivenNames v1 v2 v3 v4 v5
  clear_value v1 v2 v3 v4 v5
  extract_lets -merge +onlyGivenNames v6
  have h7 : Keeps s v6 := State.flashAbandon_keeps h
  clear_value v6
  extract_lets -merge +onlyGivenNames v8
  have h9 : Keeps s v8 := State.coldReset_keeps h7
  clear_value v8
  extract_lets -merge +onlyGivenNames v10
  have h11 : Keeps s v10 := by
    unfold v10
    refine Keeps.ite ?_ (fun _ => ?_)
    · exact Keeps.fields h9
    · exact State.warmRegs_keeps (State.startClear_keeps (State.warmClear_keeps h7))
  clear_value v10
  extract_lets -merge +onlyGivenNames v12
  clear_value v12
  extract_lets -merge +onlyGivenNames v13
  have h14 : Keeps s v13 := Keeps.fields h11
  clear_value v13
  exact State.wr_keeps (State.wr_keeps (State.showStart_keeps h14))

theorem State.warmBegin_keeps {p2} {p3} (h : Keeps s x) : Keeps s (State.warmBegin x p2 p3) := by
  unfold State.warmBegin
  refine Keeps.ite ?_ (fun _ => ?_)
  · refine Keeps.ite ?_ (fun _ => ?_)
    · extract_lets -merge +onlyGivenNames v1 v2
      clear_value v1 v2
      extract_lets -merge +onlyGivenNames v3
      have h4 : Keeps s v3 := State.countOpsec_keeps h
      clear_value v3
      extract_lets -merge +onlyGivenNames v5
      have h6 : Keeps s v5 := State.warmNrg_keeps h4
      clear_value v5
      extract_lets -merge +onlyGivenNames v7
      have h8 : Keeps s v7 := State.warmRegs_keeps (State.startClear_keeps (State.warmClear_keeps (State.flashAbandon_keeps h6)))
      clear_value v7
      extract_lets -merge +onlyGivenNames v9
      have h10 : Keeps s v9 := State.wr_keeps (State.showStart_keeps h8)
      clear_value v9
      extract_lets -merge +onlyGivenNames v11
      clear_value v11
      extract_lets -merge +onlyGivenNames v12
      have h13 : Keeps s v12 := Keeps.fields h10
      clear_value v12
      extract_lets -merge +onlyGivenNames v14
      have h15 : Keeps s v14 := State.warmTime_keeps h13
      clear_value v14
      exact Keeps.fields h15
    · exact State.restartStep2_keeps h
  · exact h

theorem State.strtNotice_keeps {p2} {p3} {p4} {p5} (h : Keeps s x) : Keeps s (State.strtNotice x p2 p3 p4 p5) := by
  unfold State.strtNotice
  refine Keeps.ite ?_ (fun _ => ?_)
  · exact State.notice_keeps h
  · exact Keeps.fields h

theorem State.lockout_keeps (h : Keeps s x) : Keeps s (State.lockout x) := by
  unfold State.lockout
  extract_lets -merge +onlyGivenNames v1
  have h2 : Keeps s v1 := State.saveRec_keeps (State.wr_keeps h)
  clear_value v1
  exact State.modeTo_keeps (State.notice_keeps h2)

theorem State.countFail_keeps {p2} {p3} (h : Keeps s x) : Keeps s (State.countFail x p2 p3) := by
  unfold State.countFail
  exact State.saveRec_keeps (State.incSat_keeps (State.wr_keeps (State.wr_keeps h)))

theorem State.startFail_keeps {p2} {p3} (h : Keeps s x) : Keeps s (State.startFail x p2 p3) := by
  unfold State.startFail
  extract_lets -merge +onlyGivenNames v1
  have h2 : Keeps s v1 := State.strtNotice_keeps (State.countFail_keeps h)
  clear_value v1
  refine Keeps.ite ?_ (fun _ => ?_)
  · exact Keeps.fields h2
  · refine Keeps.ite ?_ (fun _ => ?_)
    · exact State.lockout_keeps h2
    · exact Keeps.fields h2

theorem State.phase_keeps {p2} (h : Keeps s x) : Keeps s (State.phase x p2) := by
  unfold State.phase
  refine Keeps.ite ?_ (fun _ => ?_)
  · exact h
  · exact State.wr_keeps h

theorem State.showOpen_keeps (h : Keeps s x) : Keeps s (State.showOpen x) := by
  unfold State.showOpen
  exact State.setFlag_keeps h

theorem State.startFuses_keeps {p2} (h : Keeps s x) : Keeps s (State.startFuses x p2) := by
  unfold State.startFuses
  extract_lets -merge +onlyGivenNames v1
  clear_value v1
  extract_lets -merge +onlyGivenNames v2
  have h3 : Keeps s v2 := Keeps.fields h
  clear_value v2
  extract_lets -merge +onlyGivenNames v4
  have h5 : Keeps s v4 := State.showDebug_keeps (State.wrWords_keeps (State.wr_keeps h3))
  clear_value v4
  extract_lets -merge +onlyGivenNames v6
  have h7 : Keeps s v6 := State.showOpen_keeps h5
  clear_value v6
  refine Keeps.ite ?_ (fun _ => ?_)
  · exact State.phase_keeps h7
  · exact State.fatal_keeps h7

theorem State.settleRec_keeps {p2} (h : Keeps s x) : Keeps s (State.settleRec x p2) := by
  unfold State.settleRec
  split
  · extract_lets -merge +onlyGivenNames v1
    clear_value v1
    extract_lets -merge +onlyGivenNames v2
    have h3 : Keeps s v2 := by
      unfold v2
      refine Keeps.ite ?_ (fun _ => ?_)
      · exact h
      · exact Keeps.fields h
    clear_value v2
    exact State.notice_keeps (State.setFlag_keeps h3)
  · extract_lets -merge +onlyGivenNames v4 v5
    clear_value v4 v5
    extract_lets -merge +onlyGivenNames v6
    have h7 : Keeps s v6 := by
      unfold v6
      refine Keeps.ite ?_ (fun _ => ?_)
      · exact Keeps.fields h
      · exact Keeps.fields h
    clear_value v6
    exact Keeps.fields h7

theorem State.settleJournal_keeps (h : Keeps s x) : Keeps s (State.settleJournal x) := by
  unfold State.settleJournal
  extract_lets -merge +onlyGivenNames v1
  have h2 : Keeps s v1 := by
    unfold v1
    refine Keeps.forEach ?_ (fun y3 y4 h5 => ?_)
    · exact h
    · exact State.settleRec_keeps h5
  clear_value v1
  exact Keeps.fields h2

theorem State.takeRec_keeps (h : Keeps s x) : Keeps s (State.takeRec x) := by
  unfold State.takeRec
  split
  · extract_lets -merge +onlyGivenNames v1
    have h2 : Keeps s v1 := State.wr_keeps (State.wr_keeps (State.wr_keeps h))
    clear_value v1
    extract_lets -merge +onlyGivenNames v3
    have h4 : Keeps s v3 := State.wr_keeps (State.wr_keeps (State.wr_keeps h2))
    clear_value v3
    extract_lets -merge +onlyGivenNames v5
    have h6 : Keeps s v5 := State.wr_keeps (State.wr_keeps (State.setFlag_keeps h4))
    clear_value v5
    extract_lets -merge +onlyGivenNames v7
    have h8 : Keeps s v7 := State.wr_keeps (State.wrWords_keeps h6)
    clear_value v7
    exact Keeps.fields h8
  · extract_lets -merge +onlyGivenNames v9
    clear_value v9
    extract_lets -merge +onlyGivenNames v10
    have h11 : Keeps s v10 := State.wr_keeps (State.wr_keeps (State.wr_keeps h))
    clear_value v10
    extract_lets -merge +onlyGivenNames v12
    have h13 : Keeps s v12 := State.wr_keeps (State.wr_keeps (State.wr_keeps h11))
    clear_value v12
    extract_lets -merge +onlyGivenNames v14
    have h15 : Keeps s v14 := State.wr_keeps (State.wr_keeps (State.setFlag_keeps h13))
    clear_value v14
    extract_lets -merge +onlyGivenNames v16
    have h17 : Keeps s v16 := State.wr_keeps (State.wrWords_keeps h15)
    clear_value v16
    exact State.strtNotice_keeps (Keeps.fields h17)

theorem State.startRecord_keeps (h : Keeps s x) : Keeps s (State.startRecord x) := by
  unfold State.startRecord
  extract_lets -merge +onlyGivenNames v1
  have h2 : Keeps s v1 := State.showSel_keeps (State.settleJournal_keeps h)
  clear_value v1
  extract_lets -merge +onlyGivenNames v3
  have h4 : Keeps s v3 := State.takeRec_keeps h2
  clear_value v3
  extract_lets -merge +onlyGivenNames v5
  have h6 : Keeps s v5 := by
    unfold v5
    refine Keeps.ite ?_ (fun _ => ?_)
    · refine Keeps.ite ?_ (fun _ => ?_)
      · exact State.inc_keeps h4
      · exact State.inc_keeps h4
    · exact h4
  clear_value v5
  extract_lets -merge +onlyGivenNames v7
  clear_value v7
  extract_lets -merge +onlyGivenNames v8
  have h9 : Keeps s v8 := Keeps.fields h6
  clear_value v8
  extract_lets -merge +onlyGivenNames v10
  extract_lets -merge +onlyGivenNames v11
  have h12 : Keeps s v11 := by
    unfold v11
    refine Keeps.ite ?_ (fun _ => ?_)
    · exact h9
    · exact State.wr_keeps h9
  clear_value v11
  exact State.phase_keeps (State.saveRec_keeps (State.setFlag_keeps h12))

theorem State.testKeys_keeps (h : Keeps s x) : Keeps s (State.testKeys x) := by
  unfold State.testKeys
  extract_lets -merge +onlyGivenNames v1
  clear_value v1
  extract_lets -merge +onlyGivenNames v2
  have h3 : Keeps s v2 := by
    unfold v2
    refine Keeps.ite ?_ (fun _ => ?_)
    · exact h
    · exact State.setCat_keeps h
  clear_value v2
  refine Keeps.ite ?_ (fun _ => ?_)
  · exact h3
  · split
    · exact State.install_keeps h3
    · exact h3

theorem State.expireStart_keeps (h : Keeps s x) : Keeps s (State.expireStart x) := by
  unfold State.expireStart
  extract_lets -merge +onlyGivenNames v1
  clear_value v1
  refine Keeps.forEach ?_ (fun y2 y3 h4 => ?_)
  · exact h
  · exact State.endSlot_keeps h4

theorem State.loadCache_keeps (h : Keeps s x) : Keeps s (State.loadCache x) := by
  unfold State.loadCache
  extract_lets -merge +onlyGivenNames v1
  clear_value v1
  refine Keeps.ite ?_ (fun _ => ?_)
  · extract_lets -merge +onlyGivenNames v2
    clear_value v2
    extract_lets -merge +onlyGivenNames v3
    have h4 : Keeps s v3 := Keeps.fields h
    clear_value v3
    extract_lets -merge +onlyGivenNames v5
    have h6 : Keeps s v5 := State.loadSlots_keeps h4
    clear_value v5
    exact Keeps.fields h6
  · refine Keeps.forEach ?_ (fun y7 y8 h9 => ?_)
    · exact h
    · exact State.loadSlot_keeps h9

theorem State.startKeys_keeps {p2} (h : Keeps s x) : Keeps s (State.startKeys x p2) := by
  unfold State.startKeys
  extract_lets -merge +onlyGivenNames v1
  clear_value v1
  extract_lets -merge +onlyGivenNames v2
  have h3 : Keeps s v2 := Keeps.fields h
  clear_value v2
  refine Keeps.ite ?_ (fun _ => ?_)
  · extract_lets -merge +onlyGivenNames v4
    have h5 : Keeps s v4 := State.loadCache_keeps (State.expireStart_keeps (State.testKeys_keeps h3))
    clear_value v4
    extract_lets -merge +onlyGivenNames v6
    have h7 : Keeps s v6 := by
      unfold v6
      refine State.showKeyStat_keeps ?_
      refine Keeps.forEach ?_ (fun y8 y9 h10 => ?_)
      · exact h5
      · exact State.showSlot_keeps h10
    clear_value v6
    extract_lets -merge +onlyGivenNames v11
    have h12 : Keeps s v11 := State.setFlag_keeps h7
    clear_value v11
    refine State.phase_keeps ?_
    refine Keeps.ite ?_ (fun _ => ?_)
    · exact h12
    · exact State.notice_keeps h12
  · exact State.fatal_keeps h3

theorem State.findHead_keeps (h : Keeps s x) : Keeps s (State.findHead x) := by
  unfold State.findHead
  extract_lets -merge +onlyGivenNames v1
  clear_value v1
  extract_lets -merge +onlyGivenNames v2
  have h3 : Keeps s v2 := by
    unfold v2
    split
    · exact State.wr_keeps h
    · exact h
  clear_value v2
  exact State.wr_keeps h3

theorem State.testSeal_keeps {p2} (h : Keeps s x) : Keeps s (State.testSeal x p2) := by
  unfold State.testSeal
  split
  · exact h
  · extract_lets l a gone l2 b
    have ha : Keeps s a := h.upd rfl rfl rfl rfl rfl rfl rfl
    clear_value a
    split
    · refine State.noticeQuiet_keeps (State.setFlag_keeps (ha.updLog rfl rfl rfl rfl fun k => ?_))
      simp only [State.logOk, Bool.and_eq_true, decide_eq_true_eq] at k ⊢
      exact ⟨⟨k.1.1, Nat.le_trans (List.length_filter_le _ _) k.1.2⟩, k.2⟩
    · exact State.stdAlarm_keeps (State.noticeQuiet_keeps ha)

theorem State.startLog_keeps {p2} (h : Keeps s x) : Keeps s (State.startLog x p2) := by
  unfold State.startLog
  extract_lets -merge +onlyGivenNames v1
  have h2 : Keeps s v1 := State.testSeal_keeps h
  clear_value v1
  extract_lets -merge +onlyGivenNames v3
  clear_value v3
  extract_lets -merge +onlyGivenNames v4
  have h5 : Keeps s v4 := by
    unfold v4
    refine Keeps.ite ?_ (fun _ => ?_)
    · exact State.findHead_keeps h2
    · exact h2
  clear_value v4
  extract_lets -merge +onlyGivenNames v6
  have h7 : Keeps s v6 := State.phase_keeps (State.setFlag_keeps h5)
  clear_value v6
  extract_lets -merge +onlyGivenNames v8 v9
  clear_value v8 v9
  extract_lets -merge +onlyGivenNames v10
  have h11 : Keeps s v10 := Keeps.fields h7
  clear_value v10
  extract_lets -merge +onlyGivenNames v12
  have h13 : Keeps s v12 := by
    unfold v12
    refine Keeps.forEach ?_ (fun y14 y15 h16 => ?_)
    · exact h11
    · exact State.notice_keeps h16
  clear_value v12
  extract_lets -merge +onlyGivenNames v17
  have h18 : Keeps s v17 := State.countOpsec_keeps h13
  clear_value v17
  extract_lets -merge +onlyGivenNames v19
  have h20 : Keeps s v19 := State.logEvent_keeps h18
  clear_value v19
  refine Keeps.ite ?_ (fun _ => ?_)
  · exact h20
  · exact State.lockout_keeps h20

theorem State.refusedImage_keeps {p2} {p3} (h : Keeps s x) : Keeps s (State.refusedImage x p2 p3) := by
  unfold State.refusedImage
  extract_lets -merge +onlyGivenNames v1
  clear_value v1
  extract_lets -merge +onlyGivenNames v2
  have h3 : Keeps s v2 := Keeps.fields h
  clear_value v2
  exact State.notice_keeps (State.wr_keeps (State.wr_keeps h3))

theorem State.nextImage_keeps {k} (h : Keeps s x) : Keeps s (State.nextImage x k) := by
  induction k generalizing x with
  | zero => exact h
  | succ k ih =>
    unfold State.nextImage
    split
    · rename_i n r _
      extract_lets q a d sh code
      have ha : Keeps s a := Keeps.fields h
      clear_value a
      refine Keeps.ite ?_ fun _ => ih (State.refusedImage_keeps ha)
      refine Keeps.ite ?_ fun _ => Keeps.fields ha
      exact Keeps.ite (ih (State.refusedImage_keeps ha)) fun _ => Keeps.fields ha
    · extract_lets sh
      exact Keeps.ite (State.startFail_keeps h) fun _ => Keeps.fields h

theorem State.chooseImage_keeps (h : Keeps s x) : Keeps s (State.chooseImage x) := by
  unfold State.chooseImage
  extract_lets -merge +onlyGivenNames v1 v2 v3
  clear_value v1 v2 v3
  exact State.nextImage_keeps (Keeps.fields h)

theorem State.imageStep_keeps (h : Keeps s x) : Keeps s (State.imageStep x) := by
  unfold State.imageStep
  extract_lets -merge +onlyGivenNames v1
  clear_value v1
  extract_lets -merge +onlyGivenNames v2
  have h3 : Keeps s v2 := Keeps.fields h
  clear_value v2
  extract_lets -merge +onlyGivenNames v4
  clear_value v4
  refine Keeps.ite ?_ (fun _ => ?_)
  · exact State.chooseImage_keeps h3
  · exact Keeps.fields h3

theorem State.useStart_keeps {p2} (h : Keeps s x) : Keeps s (State.useStart x p2) := by
  unfold State.useStart
  extract_lets -merge +onlyGivenNames v1
  clear_value v1
  exact State.showOpen_keeps (Keeps.fields h)

theorem State.acceptImage_keeps {p2} {p3} {p4} (h : Keeps s x) : Keeps s (State.acceptImage x p2 p3 p4) := by
  unfold State.acceptImage
  extract_lets -merge +onlyGivenNames v1 v2 v3 v4 v5
  clear_value v1 v2 v3 v4 v5
  extract_lets -merge +onlyGivenNames v6
  have h7 : Keeps s v6 := Keeps.fields h
  clear_value v6
  extract_lets -merge +onlyGivenNames v8
  have h9 : Keeps s v8 := State.wr_keeps (State.wr_keeps (State.wrWords_keeps h7))
  clear_value v8
  extract_lets -merge +onlyGivenNames v10
  have h11 : Keeps s v10 := State.wr_keeps (State.wr_keeps h9)
  clear_value v10
  extract_lets -merge +onlyGivenNames v12
  have h13 : Keeps s v12 := by
    unfold v12
    refine Keeps.ite ?_ (fun _ => ?_)
    · exact h11
    · exact State.notice_keeps h11
  clear_value v12
  exact State.saveRec_keeps (State.useStart_keeps h13)

theorem State.judgeImage_keeps {k} (h : Keeps s x) : Keeps s (State.judgeImage x k) := by
  induction k generalizing x with
  | zero => exact h
  | succ k ih =>
    unfold State.judgeImage
    refine Keeps.ite h fun _ => ?_
    split
    · exact h
    · extract_lets q a
      have ha : Keeps s a := Keeps.fields h
      clear_value a
      refine Keeps.ite ?_ fun _ => State.phase_keeps (State.useStart_keeps ha)
      refine Keeps.ite ?_ fun _ => State.phase_keeps (State.acceptImage_keeps ha)
      exact Keeps.ite (ih (State.nextImage_keeps (State.refusedImage_keeps ha))) fun _ => State.startFail_keeps ha

theorem State.dramChannel_keeps {p2} {p3} {p4} {p5} (h : Keeps s x) : Keeps s (State.dramChannel x p2 p3 p4 p5) := by
  unfold State.dramChannel
  extract_lets -merge +onlyGivenNames v1
  have h2 : Keeps s v1 := State.setFlag_keeps (State.wr_keeps h)
  clear_value v1
  extract_lets -merge +onlyGivenNames v3
  have h4 : Keeps s v3 := State.setFlag_keeps h2
  clear_value v3
  extract_lets -merge +onlyGivenNames v5
  have h6 : Keeps s v5 := State.wr_keeps h4
  clear_value v5
  refine Keeps.ite ?_ (fun _ => ?_)
  · split
    rename_i z7 z8 z9 z10
    have h11 : Keeps s z9 := Keeps.of_snd z10 (State.draw_keeps h6)
    exact State.setFlag_keeps h11
  · exact h6

theorem State.dramStep_keeps {p2} {p3} {p4} {p5} {p6} {p7} (h : Keeps s x) : Keeps s (State.dramStep x p2 p3 p4 p5 p6 p7) := by
  unfold State.dramStep
  extract_lets -merge +onlyGivenNames v1
  clear_value v1
  extract_lets -merge +onlyGivenNames v2
  have h3 : Keeps s v2 := Keeps.fields h
  clear_value v2
  extract_lets -merge +onlyGivenNames v4
  have h5 : Keeps s v4 := State.wr_keeps (State.dramChannel_keeps (State.dramChannel_keeps h3))
  clear_value v4
  extract_lets -merge +onlyGivenNames v6
  have h7 : ∀ b1 b2 b3, Keeps s b3 → Keeps s (v6 b1 b2 b3) := by
    intro y8 y9 y10 h11
    unfold v6
    refine Keeps.ite ?_ (fun _ => ?_)
    · exact h11
    · refine Keeps.forEach ?_ (fun y12 y13 h14 => ?_)
      · exact State.notice_keeps h11
      · exact State.loseRegion_keeps h14
  clear_value v6
  extract_lets -merge +onlyGivenNames v15
  have h16 : Keeps s v15 := by
    unfold v15
    refine h7 _ _ _ ?_
    exact h7 _ _ _ h5
  clear_value v15
  extract_lets -merge +onlyGivenNames v17
  have h18 : Keeps s v17 := by
    unfold v17
    refine Keeps.ite ?_ (fun _ => ?_)
    · exact State.loseChannel_keeps h16
    · exact h16
  clear_value v17
  refine Keeps.ite ?_ (fun _ => ?_)
  · exact State.loseChannel_keeps h18
  · exact h18

theorem State.startSorters_keeps {p2} (h : Keeps s x) : Keeps s (State.startSorters x p2) := by
  unfold State.startSorters
  extract_lets -merge +onlyGivenNames v1
  have h2 : Keeps s v1 := State.wr_keeps (State.wr_keeps h)
  clear_value v1
  extract_lets -merge +onlyGivenNames v3
  have h4 : Keeps s v3 := by
    unfold v3
    refine Keeps.forEach ?_ (fun y5 y6 h7 => ?_)
    · exact h2
    · exact State.fence_keeps h7
  clear_value v3
  exact State.phase_keeps (State.sorterFloor_keeps (State.refreshDeg_keeps h4))

theorem State.manifestWrite_keeps {p2} {p3} {p4} (h : Keeps s x) : Keeps s (State.manifestWrite x p2 p3 p4) := by
  unfold State.manifestWrite
  extract_lets -merge +onlyGivenNames v1
  clear_value v1
  refine Keeps.ite ?_ (fun _ => ?_)
  · exact State.cfgLoaded_keeps (State.setWord_keeps h)
  · extract_lets -merge +onlyGivenNames v2
    clear_value v2
    exact State.setWord_keeps h

theorem State.applyEnts_keeps {p2} {p3} (h : Keeps s x) : Keeps s (State.applyEnts x p2 p3) := by
  unfold State.applyEnts
  refine Keeps.forEach ?_ (fun y1 y2 h3 => ?_)
  · exact h
  · refine Keeps.ite ?_ (fun _ => ?_)
    · exact h3
    · exact State.manifestWrite_keeps h3

theorem State.applyStart_keeps {p2} (h : Keeps s x) : Keeps s (State.applyStart x p2) := by
  unfold State.applyStart
  extract_lets -merge +onlyGivenNames v1
  clear_value v1
  exact State.wr_keeps (State.wr_keeps (State.setFlag_keeps (State.setFlag_keeps h)))

theorem State.applyDram_keeps {p2} (h : Keeps s x) : Keeps s (State.applyDram x p2) := by
  unfold State.applyDram
  extract_lets -merge +onlyGivenNames v1 v2 v3
  clear_value v1 v2 v3
  exact State.wr_keeps (Keeps.fields h)

theorem State.clearRange_keeps {p2} {p3} (h : Keeps s x) : Keeps s (State.clearRange x p2 p3) := by
  unfold State.clearRange
  refine Keeps.forEach ?_ (fun y1 y2 h3 => ?_)
  · exact h
  · exact State.setWord_keeps h3

theorem State.reload_keeps {p2} {p3} {p4} (h : Keeps s x) : Keeps s (State.reload x p2 p3 p4) := by
  unfold State.reload
  exact State.applyEnts_keeps (State.clearRange_keeps h)

theorem State.ownerReloads_keeps {p2} (h : Keeps s x) : Keeps s (State.ownerReloads x p2) := by
  unfold State.ownerReloads
  extract_lets -merge +onlyGivenNames v1
  have h2 : Keeps s v1 := State.clearRange_keeps (State.reload_keeps h)
  clear_value v1
  extract_lets -merge +onlyGivenNames v3
  have h4 : Keeps s v3 := by
    unfold v3
    refine Keeps.forEach ?_ (fun y5 y6 h7 => ?_)
    · exact h2
    · extract_lets -merge +onlyGivenNames v8
      subst v8
      exact State.logEvent_keeps (State.reload_keeps (State.reload_keeps h7))
  clear_value v3
  extract_lets -merge +onlyGivenNames v9
  clear_value v9
  refine Keeps.ite ?_ (fun _ => ?_)
  · exact h4
  · exact State.logEvent_keeps (State.reload_keeps (State.reload_keeps h4))

theorem State.applyManifest_keeps (h : Keeps s x) : Keeps s (State.applyManifest x) := by
  unfold State.applyManifest
  extract_lets -merge +onlyGivenNames v1 v2
  clear_value v1 v2
  refine Keeps.ite ?_ (fun _ => ?_)
  · refine Keeps.ite ?_ (fun _ => ?_)
    · exact State.applyEnts_keeps (State.ownerReloads_keeps h)
    · exact State.applyEnts_keeps (State.applyDram_keeps (State.applyStart_keeps (State.ownerReloads_keeps h)))
  · exact State.applyEnts_keeps (State.applyDram_keeps (State.applyStart_keeps h))

theorem State.applySetting_keeps {p1} {p2} (h : Keeps s x) : Keeps s (State.applySetting p1 p2 x) := by
  unfold State.applySetting
  extract_lets -merge +onlyGivenNames v1
  clear_value v1
  refine Keeps.ite ?_ (fun _ => ?_)
  · extract_lets -merge +onlyGivenNames v2
    have h3 : Keeps s v2 := by
      unfold v2
      refine Keeps.ite ?_ (fun _ => ?_)
      · exact h
      · exact State.wr_keeps h
    clear_value v2
    exact State.inc_keeps h3
  · extract_lets -merge +onlyGivenNames v4 v5 v6
    clear_value v4 v5 v6
    extract_lets -merge +onlyGivenNames v7
    have h8 : Keeps s v7 := by
      unfold v7
      refine Keeps.ite ?_ (fun _ => ?_)
      · exact State.logRefused_keeps h
      · exact h
    clear_value v7
    exact State.inc_keeps (State.cfgLoaded_keeps (State.setWord_keeps h8))

theorem State.applySettings_keeps (h : Keeps s x) : Keeps s (State.applySettings x) := by
  unfold State.applySettings
  extract_lets -merge +onlyGivenNames v1
  clear_value v1
  extract_lets -merge +onlyGivenNames v2
  have h3 : Keeps s v2 := by
    unfold v2
    split
    · exact h
    · extract_lets -merge +onlyGivenNames v4
      clear_value v4
      refine Keeps.ite ?_ (fun _ => ?_)
      · refine Keeps.ite ?_ (fun _ => ?_)
        · refine State.notice_keeps ?_
          refine Keeps.forEach ?_ (fun y5 y6 h7 => ?_)
          · exact h
          · exact State.applySetting_keeps h7
        · exact State.notice_keeps (State.setFlag_keeps h)
      · exact State.notice_keeps (State.setFlag_keeps h)
  clear_value v2
  exact State.logEvent_keeps h3

theorem State.startApply_keeps (h : Keeps s x) : Keeps s (State.startApply x) := by
  unfold State.startApply
  extract_lets -merge +onlyGivenNames v1
  have h2 : Keeps s v1 := State.applySettings_keeps (State.applyManifest_keeps h)
  clear_value v1
  exact State.phase_keeps (State.showPon_keeps (State.setFlag_keeps h2))

theorem State.restoreCounters_keeps (h : Keeps s x) : Keeps s (State.restoreCounters x) := by
  unfold State.restoreCounters
  extract_lets -merge +onlyGivenNames v1 v2 v3 v4 v5 v6 v7
  clear_value v1 v2 v3 v4 v5 v6 v7
  extract_lets -merge +onlyGivenNames v8
  have h9 : Keeps s v8 := Keeps.fields h
  clear_value v8
  extract_lets -merge +onlyGivenNames v10
  have h11 : Keeps s v10 := by
    unfold v10
    refine Keeps.ite ?_ (fun _ => ?_)
    · exact h9
    · exact State.notice_keeps h9
  clear_value v10
  refine Keeps.forEach ?_ (fun y12 y13 h14 => ?_)
  · exact h11
  · extract_lets -merge +onlyGivenNames v15 v16 v17 v18
    clear_value v15 v16 v17 v18
    refine Keeps.ite ?_ (fun _ => ?_)
    · exact State.reserve_keeps (State.showSlot_keeps h14)
    · exact State.endSlot_keeps h14

theorem State.restoreEnergy_keeps (h : Keeps s x) : Keeps s (State.restoreEnergy x) := by
  unfold State.restoreEnergy
  extract_lets -merge +onlyGivenNames v1 v2
  clear_value v1 v2
  split
  · refine Keeps.forEach ?_ (fun y3 y4 h5 => ?_)
    · exact h
    · extract_lets -merge +onlyGivenNames v6 v7
      clear_value v6 v7
      extract_lets -merge +onlyGivenNames v8
      have h9 : Keeps s v8 := State.setNrgPt_keeps h5
      clear_value v8
      extract_lets -merge +onlyGivenNames v10
      have h11 : Keeps s v10 := by
        unfold v10
        refine Keeps.forEach ?_ (fun y12 y13 h14 => ?_)
        · exact h9
        · exact State.put_keeps h14
      clear_value v10
      exact State.wr_keeps (State.setFlag_keeps (State.setFlag_keeps h11))
  · refine State.notice_keeps ?_
    refine Keeps.forEach ?_ (fun y15 y16 h17 => ?_)
    · exact h
    · extract_lets -merge +onlyGivenNames v18
      have h19 : Keeps s v18 := State.setNrgPt_keeps h17
      clear_value v18
      refine Keeps.forEach ?_ (fun y20 y21 h22 => ?_)
      · exact h19
      · exact State.put_keeps h22

theorem State.resumeClusters_keeps (h : Keeps s x) : Keeps s (State.resumeClusters x) := by
  unfold State.resumeClusters
  split
  · exact h
  · extract_lets -merge +onlyGivenNames v1
    clear_value v1
    extract_lets -merge +onlyGivenNames v2
    have h3 : Keeps s v2 := Keeps.fields h
    clear_value v2
    refine Keeps.ite ?_ (fun _ => ?_)
    · extract_lets -merge +onlyGivenNames v4 v5 v6
      clear_value v4 v5 v6
      extract_lets -merge +onlyGivenNames v7
      have h8 : Keeps s v7 := Keeps.fields h3
      clear_value v7
      extract_lets -merge +onlyGivenNames v9
      have h10 : Keeps s v9 := by
        unfold v9
        refine Keeps.forEach ?_ (fun y11 y12 h13 => ?_)
        · exact h8
        · exact State.wr_keeps (State.wr_keeps (State.setFlag_keeps h13))
      clear_value v9
      extract_lets -merge +onlyGivenNames v14
      clear_value v14
      extract_lets -merge +onlyGivenNames v15
      have h16 : Keeps s v15 := by
        unfold v15
        refine Keeps.forEach ?_ (fun y17 y18 h19 => ?_)
        · exact h10
        · exact State.cgEnter_keeps (State.setFlag_keeps h19)
      clear_value v15
      refine State.showIsl_keeps ?_
      refine Keeps.forEach ?_ (fun y20 y21 h22 => ?_)
      · exact h16
      · exact State.cgCount_keeps h22
    · exact h3

theorem State.resumeGroups_keeps (h : Keeps s x) : Keeps s (State.resumeGroups x) := by
  unfold State.resumeGroups
  refine Keeps.forEach ?_ (fun y1 y2 h3 => ?_)
  · exact h
  · refine Keeps.ite ?_ (fun _ => ?_)
    · exact h3
    · exact State.resumeGrp_keeps h3

theorem State.startRounds_keeps (h : Keeps s x) : Keeps s (State.startRounds x) := by
  unfold State.startRounds
  refine Keeps.forEach ?_ (fun y1 y2 h3 => ?_)
  · exact h
  · extract_lets -merge +onlyGivenNames v4
    clear_value v4
    exact State.showMembers_keeps (State.wr_keeps h3)

theorem State.startConns_keeps (h : Keeps s x) : Keeps s (State.startConns x) := by
  unfold State.startConns
  extract_lets -merge +onlyGivenNames v1
  have h2 : Keeps s v1 := by
    unfold v1
    refine Keeps.forEach ?_ (fun y3 y4 h5 => ?_)
    · exact h
    · exact State.openConn_keeps (State.putConn_keeps h5)
  clear_value v1
  exact State.joinGroups_keeps (State.openConns_keeps h2)

theorem State.startBlocks_keeps (h : Keeps s x) : Keeps s (State.startBlocks x) := by
  unfold State.startBlocks
  extract_lets -merge +onlyGivenNames v1
  have h2 : Keeps s v1 := State.restoreCounters_keeps h
  clear_value v1
  extract_lets -merge +onlyGivenNames v3
  have h4 : Keeps s v3 := by
    unfold v3
    refine Keeps.ite ?_ (fun _ => ?_)
    · exact State.homeAll_keeps h2
    · exact State.homeKept_keeps h2
  clear_value v3
  extract_lets -merge +onlyGivenNames v5
  have h6 : Keeps s v5 := by
    unfold v5
    refine Keeps.forEach ?_ (fun y7 y8 h9 => ?_)
    · exact h4
    · refine Keeps.ite ?_ (fun _ => ?_)
      · exact h9
      · exact State.showDesc_keeps h9
  clear_value v5
  extract_lets -merge +onlyGivenNames v10
  have h11 : Keeps s v10 := by
    unfold v10
    refine State.startRounds_keeps ?_
    refine State.startConns_keeps ?_
    refine Keeps.forEach ?_ (fun y12 y13 h14 => ?_)
    · exact h6
    · exact State.nameLs_keeps h14
  clear_value v10
  extract_lets -merge +onlyGivenNames v15
  have h16 : Keeps s v15 := by
    unfold v15
    refine State.sameDomnum_keeps ?_
    refine Keeps.forEach ?_ (fun y17 y18 h19 => ?_)
    · exact h11
    · refine Keeps.ite ?_ (fun _ => ?_)
      · exact h19
      · exact State.domTo_keeps h19
  clear_value v15
  extract_lets -merge +onlyGivenNames v20
  have h21 : Keeps s v20 := by
    unfold v20
    refine Keeps.ite ?_ (fun _ => ?_)
    · exact h16
    · exact State.resumeGroups_keeps h16
  clear_value v20
  extract_lets -merge +onlyGivenNames v22
  have h23 : Keeps s v22 := State.checkMachines_keeps (State.resumeClusters_keeps (State.checkAnalysis_keeps h21))
  clear_value v22
  extract_lets -merge +onlyGivenNames v24
  have h25 : Keeps s v24 := by
    unfold v24
    refine Keeps.forEach ?_ (fun y26 y27 h28 => ?_)
    · exact h23
    · exact State.checkLs_keeps h28
  clear_value v24
  extract_lets -merge +onlyGivenNames v29
  have h30 : Keeps s v29 := by
    unfold v29
    refine Keeps.ite ?_ (fun _ => ?_)
    · exact State.restoreEnergy_keeps h25
    · exact h25
  clear_value v29
  extract_lets -merge +onlyGivenNames v31
  have h32 : Keeps s v31 := State.intCheck_keeps h30
  clear_value v31
  extract_lets -merge +onlyGivenNames v33
  clear_value v33
  extract_lets -merge +onlyGivenNames v34
  extract_lets -merge +onlyGivenNames v35
  have h36 : Keeps s v35 := Keeps.logFields h32
  clear_value v35
  refine State.portsChanged_keeps ?_
  refine State.tbRefresh_keeps ?_
  refine Keeps.ite ?_ (fun _ => ?_)
  · exact h36
  · exact State.stdAlarm_keeps h36

theorem State.startDone_keeps (h : Keeps s x) : Keeps s (State.startDone x) := by
  unfold State.startDone
  extract_lets -merge +onlyGivenNames v1
  clear_value v1
  extract_lets -merge +onlyGivenNames v2
  have h3 : Keeps s v2 := State.wr_keeps (State.setFlag_keeps h)
  clear_value v2
  extract_lets -merge +onlyGivenNames v4
  have h5 : Keeps s v4 := State.notice_keeps (State.saveRec_keeps (State.setFlag_keeps (State.phase_keeps h3)))
  clear_value v4
  extract_lets -merge +onlyGivenNames v6
  clear_value v6
  extract_lets -merge +onlyGivenNames v7
  have h8 : Keeps s v7 := Keeps.fields h5
  clear_value v7
  refine Keeps.ite ?_ (fun _ => ?_)
  · extract_lets -merge +onlyGivenNames v9
    have h10 : Keeps s v9 := State.modeTo_keeps h8
    clear_value v9
    extract_lets -merge +onlyGivenNames v11
    clear_value v11
    extract_lets -merge +onlyGivenNames v12
    have h13 : Keeps s v12 := by
      unfold v12
      refine Keeps.ite ?_ (fun _ => ?_)
      · exact h10
      · exact State.setFlag_keeps (Keeps.fields h10)
    clear_value v12
    exact State.runCheck_keeps (State.refreshDeg_keeps h13)
  · exact State.refreshDeg_keeps (State.modeTo_keeps h8)

theorem State.startFinish_keeps (h : Keeps s x) : Keeps s (State.startFinish x) := by
  unfold State.startFinish
  extract_lets -merge +onlyGivenNames v1
  have h2 : Keeps s v1 := State.startBlocks_keeps h
  clear_value v1
  refine Keeps.ite ?_ (fun _ => ?_)
  · exact h2
  · exact State.startDone_keeps h2

theorem execColdStart_keeps {p1} : KeepsRes s (execColdStart p1 s) := by
  have h := Keeps.refl s
  unfold execColdStart
  extract_lets -merge +onlyGivenNames v1
  have h2 : Keeps s v1 := State.advance_keeps h
  clear_value v1
  refine KeepsRes.next ?_
  refine Keeps.ite ?_ (fun _ => ?_)
  · exact State.coldBegin_keeps h2
  · exact h2

theorem execSupplyTrip_keeps {p1} {p2} {p3} : KeepsRes s (execSupplyTrip p1 p2 p3 s) := by
  have h := Keeps.refl s
  unfold execSupplyTrip
  exact KeepsRes.next (State.powerCut_keeps (State.advance_keeps h))

theorem execPorstNAssert_keeps {p1} : KeepsRes s (execPorstNAssert p1 s) := by
  have h := Keeps.refl s
  unfold execPorstNAssert
  exact KeepsRes.next (State.powerCut_keeps (State.advance_keeps h))

theorem execWrstNLow_keeps {p1} {p2} : KeepsRes s (execWrstNLow p1 p2 s) := by
  have h := Keeps.refl s
  unfold execWrstNLow
  extract_lets -merge +onlyGivenNames v1
  have h2 : Keeps s v1 := State.advance_keeps h
  clear_value v1
  refine KeepsRes.next ?_
  refine Keeps.ite ?_ (fun _ => ?_)
  · exact h2
  · exact State.warmBegin_keeps h2

theorem State.ctlWrite_keeps {p2} (h : Keeps s x) : Keeps s (State.ctlWrite x p2) := by
  unfold State.ctlWrite
  refine Keeps.ite ?_ (fun _ => ?_)
  · exact h
  · exact State.warmBegin_keeps h

theorem execWarmStart_keeps {p1} : KeepsRes s (execWarmStart p1 s) := by
  have h := Keeps.refl s
  unfold execWarmStart
  exact KeepsRes.next (State.ctlWrite_keeps h)

theorem execWarmStartFull_keeps {p1} : KeepsRes s (execWarmStartFull p1 s) := by
  have h := Keeps.refl s
  unfold execWarmStartFull
  exact KeepsRes.next (State.ctlWrite_keeps h)

theorem State.show67_keeps (h : Keeps s x) : Keeps s (State.show67 x) := by
  unfold State.show67
  refine Keeps.ite ?_ (fun _ => ?_)
  · exact h
  · exact State.phase_keeps h

theorem State.endStep_keeps {p2} (h : Keeps s x) : Keeps s (State.endStep x p2) := by
  unfold State.endStep
  extract_lets -merge +onlyGivenNames v1
  clear_value v1
  split
  · refine Keeps.ite ?_ (fun _ => ?_)
    · refine Keeps.ite ?_ (fun _ => ?_)
      · refine Keeps.ite ?_ (fun _ => ?_)
        · refine Keeps.ite ?_ (fun _ => ?_)
          · refine Keeps.ite ?_ (fun _ => ?_)
            · exact h
            · exact State.startFinish_keeps h
          · exact State.startApply_keeps h
        · exact State.show67_keeps (State.judgeImage_keeps (State.imageStep_keeps h))
      · exact State.startRecord_keeps h
    · exact State.phase_keeps h
  · refine Keeps.ite ?_ (fun _ => ?_)
    · exact h
    · exact State.startFuses_keeps h
  · refine Keeps.ite ?_ (fun _ => ?_)
    · exact h
    · exact State.startKeys_keeps h
  · refine Keeps.ite ?_ (fun _ => ?_)
    · exact h
    · exact State.startLog_keeps h
  · refine Keeps.ite ?_ (fun _ => ?_)
    · exact h
    · exact State.judgeImage_keeps (State.dramStep_keeps h)
  · refine Keeps.ite ?_ (fun _ => ?_)
    · exact h
    · exact State.startSorters_keeps h

theorem execStartStepEnd_keeps {p1} : KeepsRes s (execStartStepEnd p1 s) := by
  have h := Keeps.refl s
  unfold execStartStepEnd
  extract_lets -merge +onlyGivenNames v1
  have h2 : Keeps s v1 := State.advance_keeps h
  clear_value v1
  refine KeepsRes.next ?_
  refine Keeps.ite ?_ (fun _ => ?_)
  · exact h2
  · exact State.endStep_keeps h2

theorem execStartTimer_keeps {p1} : KeepsRes s (execStartTimer p1 s) := by
  have h := Keeps.refl s
  unfold execStartTimer
  extract_lets -merge +onlyGivenNames v1
  have h2 : Keeps s v1 := State.advance_keeps h
  clear_value v1
  refine KeepsRes.next ?_
  refine Keeps.ite ?_ (fun _ => ?_)
  · exact h2
  · exact State.startFail_keeps h2

theorem execPllLockTimeout_keeps {p1} : KeepsRes s (execPllLockTimeout p1 s) := by
  have h := Keeps.refl s
  unfold execPllLockTimeout
  extract_lets -merge +onlyGivenNames v1
  have h2 : Keeps s v1 := State.advance_keeps h
  clear_value v1
  refine KeepsRes.next ?_
  refine Keeps.ite ?_ (fun _ => ?_)
  · exact h2
  · exact State.startFail_keeps h2

theorem execStartRetry_keeps {p1} : KeepsRes s (execStartRetry p1 s) := by
  have h := Keeps.refl s
  unfold execStartRetry
  extract_lets -merge +onlyGivenNames v1
  have h2 : Keeps s v1 := State.advance_keeps h
  clear_value v1
  refine KeepsRes.next ?_
  split
  · refine Keeps.ite ?_ (fun _ => ?_)
    · exact h2
    · exact State.coldBegin_keeps h2
  · exact h2

theorem execStableTimer_keeps {p1} : KeepsRes s (execStableTimer p1 s) := by
  have h := Keeps.refl s
  unfold execStableTimer
  extract_lets -merge +onlyGivenNames v1
  have h2 : Keeps s v1 := State.advance_keeps h
  clear_value v1
  refine KeepsRes.next ?_
  split
  · refine Keeps.ite ?_ (fun _ => ?_)
    · exact h2
    · exact State.saveRec_keeps (State.wr_keeps h2)
  · exact h2

theorem State.watchdogStart_keeps {p2} (h : Keeps s x) : Keeps s (State.watchdogStart x p2) := by
  unfold State.watchdogStart
  extract_lets -merge +onlyGivenNames v1
  have h2 : Keeps s v1 := State.warmBegin_keeps (State.countFail_keeps h)
  clear_value v1
  exact Keeps.fields h2

theorem execWatchdogStall_keeps {p1} : KeepsRes s (execWatchdogStall p1 s) := by
  have h := Keeps.refl s
  unfold execWatchdogStall
  extract_lets -merge +onlyGivenNames v1
  have h2 : Keeps s v1 := State.advance_keeps h
  clear_value v1
  extract_lets -merge +onlyGivenNames v3
  clear_value v3
  refine KeepsRes.next ?_
  refine Keeps.ite ?_ (fun _ => ?_)
  · exact h2
  · exact State.watchdogStart_keeps h2

theorem execWatchdogHost_keeps {p1} : KeepsRes s (execWatchdogHost p1 s) := by
  have h := Keeps.refl s
  unfold execWatchdogHost
  extract_lets -merge +onlyGivenNames v1
  have h2 : Keeps s v1 := State.advance_keeps h
  clear_value v1
  extract_lets -merge +onlyGivenNames v3
  clear_value v3
  refine KeepsRes.next ?_
  refine Keeps.ite ?_ (fun _ => ?_)
  · exact h2
  · exact State.watchdogStart_keeps h2

theorem State.kickWrite_keeps {p2} (h : Keeps s x) : Keeps s (State.kickWrite x p2) := by
  unfold State.kickWrite
  refine Keeps.ite ?_ (fun _ => ?_)
  · exact h
  · exact Keeps.fields h

theorem execStrtKick_keeps {p1} : KeepsRes s (execStrtKick p1 s) := by
  have h := Keeps.refl s
  unfold execStrtKick
  exact KeepsRes.next (State.kickWrite_keeps h)

theorem State.reqWrite_keeps {p2} {p3} (h : Keeps s x) : Keeps s (State.reqWrite x p2 p3) := by
  unfold State.reqWrite
  refine Keeps.ite ?_ (fun _ => ?_)
  · exact h
  · exact State.request_keeps h

theorem execReqWatch_keeps {p1} : KeepsRes s (execReqWatch p1 s) := by
  have h := Keeps.refl s
  unfold execReqWatch
  exact KeepsRes.next (State.reqWrite_keeps h)

theorem execReqSwitchover_keeps {p1} : KeepsRes s (execReqSwitchover p1 s) := by
  have h := Keeps.refl s
  unfold execReqSwitchover
  exact KeepsRes.next (State.reqWrite_keeps h)

theorem execReqRunEnable_keeps {p1} : KeepsRes s (execReqRunEnable p1 s) := by
  have h := Keeps.refl s
  unfold execReqRunEnable
  exact KeepsRes.next (State.reqWrite_keeps h)

theorem execReqService_keeps {p1} : KeepsRes s (execReqService p1 s) := by
  have h := Keeps.refl s
  unfold execReqService
  exact KeepsRes.next (State.reqWrite_keeps h)

end Sys2Proof.Machine
end

