-- ==== Sys2Proof/Laws/KeepsHost.lean ====
section
/-! SUPPORT. Each operation and each meaning keeps what `Keeps` says: time and the host's registers; every command. -/
namespace Sys2Proof.Machine

variable {s x : State}

theorem State.ptpMsg_keeps {p2} {p3} {p4} (h : Keeps s x) (kp4 : ∀ b1 b2, Keeps s b2 → Keeps s (p4 b1 b2)) : Keeps s (State.ptpMsg x p2 p3 p4) := by
  unfold State.ptpMsg
  refine State.onFrame_keeps h (fun y1 h2 => ?_)
  split
  · exact State.disc_keeps h2
  · exact kp4 _ _ h2

theorem State.sample_keeps {p2} {p3} (h : Keeps s x) : Keeps s (State.sample x p2 p3) := by
  unfold State.sample
  extract_lets -merge +onlyGivenNames v1 v2 v3 v4
  clear_value v1 v2 v3 v4
  extract_lets -merge +onlyGivenNames v5
  have h6 : Keeps s v5 := State.wr_keeps (State.setDom_keeps h)
  clear_value v5
  extract_lets -merge +onlyGivenNames v7
  have h8 : Keeps s v7 := State.inc_keeps h6
  clear_value v7
  split
  rename_i z9 z10 z11 z12
  have h13 : Keeps s z10 := Keeps.of_fst z12 (State.domSample_keeps h8)
  extract_lets -merge +onlyGivenNames v14
  have h15 : Keeps s v14 := State.tbSelect_keeps h13
  clear_value v14
  extract_lets -merge +onlyGivenNames v16
  have h17 : Keeps s v16 := by
    unfold v16
    refine Keeps.ite ?_ (fun _ => ?_)
    · exact h15
    · exact State.servo_keeps h15
  clear_value v16
  exact State.runCheck_keeps (State.tbRefresh_keeps (State.refreshAgree_keeps h17))

theorem execPtpSync_keeps {p1} : KeepsRes s (execPtpSync p1 s) := by
  have h := Keeps.refl s
  unfold execPtpSync
  refine KeepsRes.next ?_
  refine State.ptpMsg_keeps h (fun y1 y2 h3 => ?_)
  split
  · refine Keeps.ite ?_ (fun _ => ?_)
    · exact h3
    · exact State.sample_keeps h3
  · exact h3

theorem State.showMaster_keeps {p2} {p3} (h : Keeps s x) : Keeps s (State.showMaster x p2 p3) := by
  unfold State.showMaster
  exact State.wr_keeps (State.wr64_keeps (State.wr_keeps (State.setFlag_keeps (State.wr_keeps h))))

theorem State.requalify_keeps {p2} (h : Keeps s x) : Keeps s (State.requalify x p2) := by
  unfold State.requalify
  refine Keeps.ite ?_ (fun _ => ?_)
  · exact State.domTo_keeps h
  · exact State.setDom_keeps h

theorem State.noMaster_keeps {p2} (h : Keeps s x) : Keeps s (State.noMaster x p2) := by
  unfold State.noMaster
  extract_lets -merge +onlyGivenNames v1
  clear_value v1
  extract_lets -merge +onlyGivenNames v2
  have h3 : Keeps s v2 := State.domTo_keeps (State.setDom_keeps h)
  clear_value v2
  refine Keeps.ite ?_ (fun _ => ?_)
  · exact h3
  · exact State.refreshUtc_keeps h3

theorem State.announced_keeps {p2} {p3} (h : Keeps s x) : Keeps s (State.announced x p2 p3) := by
  unfold State.announced
  extract_lets -merge +onlyGivenNames v1 v2 v3
  clear_value v1 v2 v3
  extract_lets -merge +onlyGivenNames v4
  have h5 : Keeps s v4 := State.setDom_keeps h
  clear_value v4
  split
  · exact State.tbSelect_keeps (State.noMaster_keeps h5)
  · extract_lets -merge +onlyGivenNames v6 v7
    clear_value v6 v7
    extract_lets -merge +onlyGivenNames v8
    have h9 : Keeps s v8 := State.showMaster_keeps (State.setDom_keeps h5)
    clear_value v8
    extract_lets -merge +onlyGivenNames v10
    clear_value v10
    extract_lets -merge +onlyGivenNames v11
    have h12 : Keeps s v11 := by
      unfold v11
      refine Keeps.ite ?_ (fun _ => ?_)
      · refine Keeps.ite ?_ (fun _ => ?_)
        · exact State.domTo_keeps h9
        · exact State.requalify_keeps h9
      · refine Keeps.ite ?_ (fun _ => ?_)
        · exact h9
        · exact State.requalify_keeps h9
    clear_value v11
    extract_lets -merge +onlyGivenNames v13
    have h14 : Keeps s v13 := by
      unfold v13
      refine Keeps.ite ?_ (fun _ => ?_)
      · exact h12
      · exact State.refreshUtc_keeps h12
    clear_value v13
    extract_lets -merge +onlyGivenNames v15
    have h16 : Keeps s v15 := by
      unfold v15
      refine Keeps.ite ?_ (fun _ => ?_)
      · exact h14
      · exact State.notice_keeps h14
    clear_value v15
    exact State.tbSelect_keeps h16

theorem execPtpAnnounce_keeps {p1} {p2} : KeepsRes s (execPtpAnnounce p1 p2 s) := by
  have h := Keeps.refl s
  unfold execPtpAnnounce
  refine KeepsRes.next ?_
  refine State.ptpMsg_keeps h (fun y1 y2 h3 => ?_)
  exact State.announced_keeps h3

theorem execPdelayReq_keeps {p1} : KeepsRes s (execPdelayReq p1 s) := by
  have h := Keeps.refl s
  unfold execPdelayReq
  refine KeepsRes.next ?_
  refine State.ptpMsg_keeps h (fun y1 y2 h3 => ?_)
  extract_lets -merge +onlyGivenNames v4
  clear_value v4
  extract_lets -merge +onlyGivenNames v5
  have h6 : Keeps s v5 := State.tx_keeps h3
  clear_value v5
  exact State.tx_keeps h6

theorem execPdelayResp_keeps {p1} : KeepsRes s (execPdelayResp p1 s) := by
  have h := Keeps.refl s
  unfold execPdelayResp
  refine KeepsRes.next ?_
  refine State.ptpMsg_keeps h (fun y1 y2 h3 => ?_)
  extract_lets -merge +onlyGivenNames v4 v5
  clear_value v4 v5
  extract_lets -merge +onlyGivenNames v6
  have h7 : Keeps s v6 := State.setDom_keeps h3
  clear_value v6
  extract_lets -merge +onlyGivenNames v8
  clear_value v8
  refine Keeps.ite ?_ (fun _ => ?_)
  · exact h7
  · exact State.wr_keeps h7

theorem execPdelayReqSend_keeps {p1} {p2} : KeepsRes s (execPdelayReqSend p1 p2 s) := by
  have h := Keeps.refl s
  unfold execPdelayReqSend
  extract_lets -merge +onlyGivenNames v1
  have h2 : Keeps s v1 := State.advance_keeps h
  clear_value v1
  extract_lets -merge +onlyGivenNames v3
  clear_value v3
  refine KeepsRes.next ?_
  refine Keeps.ite ?_ (fun _ => ?_)
  · exact h2
  · extract_lets -merge +onlyGivenNames v4
    clear_value v4
    extract_lets -merge +onlyGivenNames v5
    have h6 : Keeps s v5 := State.setDom_keeps h2
    clear_value v5
    refine Keeps.forEach ?_ (fun y7 y8 h9 => ?_)
    · exact h6
    · exact State.tx_keeps h9

theorem execAnnounceTimeout_keeps {p1} {p2} : KeepsRes s (execAnnounceTimeout p1 p2 s) := by
  have h := Keeps.refl s
  unfold execAnnounceTimeout
  extract_lets -merge +onlyGivenNames v1
  have h2 : Keeps s v1 := State.advance_keeps h
  clear_value v1
  extract_lets -merge +onlyGivenNames v3 v4
  clear_value v3 v4
  split
  · exact KeepsRes.next h2
  · extract_lets -merge +onlyGivenNames v5
    have h6 : Keeps s v5 := State.setDom_keeps h2
    clear_value v5
    extract_lets -merge +onlyGivenNames v7
    have h8 : Keeps s v7 := by
      unfold v7
      refine Keeps.ite ?_ (fun _ => ?_)
      · refine Keeps.ite ?_ (fun _ => ?_)
        · exact State.domTo_keeps h6
        · exact h6
      · exact State.domTo_keeps h6
    clear_value v7
    extract_lets -merge +onlyGivenNames v9
    have h10 : Keeps s v9 := by
      unfold v9
      refine Keeps.ite ?_ (fun _ => ?_)
      · exact h8
      · exact State.refreshUtc_keeps h8
    clear_value v9
    exact KeepsRes.next (State.tbSelect_keeps h10)

theorem execTimeAgree_keeps {p1} : KeepsRes s (execTimeAgree p1 s) := by
  have h := Keeps.refl s
  unfold execTimeAgree
  extract_lets -merge +onlyGivenNames v1
  have h2 : Keeps s v1 := State.advance_keeps h
  clear_value v1
  extract_lets -merge +onlyGivenNames v3
  clear_value v3
  refine KeepsRes.next ?_
  refine Keeps.ite ?_ (fun _ => ?_)
  · exact h2
  · exact State.stdAlarm_keeps (State.notice_keeps (Keeps.fields h2))

theorem execDomainRevert_keeps {p1} : KeepsRes s (execDomainRevert p1 s) := by
  have h := Keeps.refl s
  unfold execDomainRevert
  extract_lets -merge +onlyGivenNames v1
  have h2 : Keeps s v1 := State.advance_keeps h
  clear_value v1
  extract_lets -merge +onlyGivenNames v3
  clear_value v3
  refine KeepsRes.next ?_
  refine Keeps.ite ?_ (fun _ => ?_)
  · exact h2
  · exact State.tbSelect_keeps (State.select_keeps h2)

theorem State.tbSelWrite_keeps {p2} (h : Keeps s x) : Keeps s (State.tbSelWrite x p2) := by
  unfold State.tbSelWrite
  extract_lets -merge +onlyGivenNames v1
  have h2 : Keeps s v1 := State.wr_keeps (State.wr_keeps (State.wr_keeps h))
  clear_value v1
  extract_lets -merge +onlyGivenNames v3
  clear_value v3
  refine Keeps.ite ?_ (fun _ => ?_)
  · refine Keeps.ite ?_ (fun _ => ?_)
    · exact State.logRefused_keeps h2
    · exact State.tbSelect_keeps (State.select_keeps h2)
  · exact h2

theorem execTbSelSwitch_keeps {p1} : KeepsRes s (execTbSelSwitch p1 s) := by
  have h := Keeps.refl s
  unfold execTbSelSwitch
  refine KeepsRes.next ?_
  refine State.hostGate_keeps h (fun y1 h2 => ?_)
  exact State.tbSelWrite_keeps h2

theorem State.setDone_keeps {p2} (h : Keeps s x) : Keeps s (State.setDone x p2) := by
  unfold State.setDone
  exact State.notice_keeps (State.wr_keeps h)

theorem State.timeCommitWrite_keeps {p2} (h : Keeps s x) : Keeps s (State.timeCommitWrite x p2) := by
  unfold State.timeCommitWrite
  refine Keeps.ite ?_ (fun _ => ?_)
  · extract_lets -merge +onlyGivenNames v1
    clear_value v1
    refine Keeps.ite ?_ (fun _ => ?_)
    · extract_lets -merge +onlyGivenNames v2 v3
      clear_value v2 v3
      exact State.wr_keeps (Keeps.fields h)
    · exact State.setDone_keeps (State.logRefused_keeps h)
  · exact h

theorem execTimeCommit_keeps {p1} : KeepsRes s (execTimeCommit p1 s) := by
  have h := Keeps.refl s
  unfold execTimeCommit
  refine KeepsRes.next ?_
  refine State.hostGate_keeps h (fun y1 h2 => ?_)
  exact State.timeCommitWrite_keeps h2

theorem execTimeCommitApply_keeps {p1} : KeepsRes s (execTimeCommitApply p1 s) := by
  have h := Keeps.refl s
  unfold execTimeCommitApply
  extract_lets -merge +onlyGivenNames v1
  have h2 : Keeps s v1 := State.advance_keeps h
  clear_value v1
  split
  · exact KeepsRes.next h2
  · refine KeepsRes.ite ?_ ?_
    · extract_lets -merge +onlyGivenNames v3
      clear_value v3
      extract_lets -merge +onlyGivenNames v4
      have h5 : Keeps s v4 := Keeps.fields h2
      clear_value v4
      refine KeepsRes.ite ?_ ?_
      · extract_lets -merge +onlyGivenNames v6
        have h7 : Keeps s v6 := State.stepBy_keeps h5
        clear_value v6
        extract_lets -merge +onlyGivenNames v8
        clear_value v8
        extract_lets -merge +onlyGivenNames v9
        have h10 : Keeps s v9 := Keeps.fields h7
        clear_value v9
        exact KeepsRes.next (State.runCheck_keeps (State.tbRefresh_keeps (State.setDone_keeps (State.setTb_keeps h10))))
      · exact KeepsRes.next (State.setDone_keeps (State.logRefused_keeps h5))
    · exact KeepsRes.next h2

theorem State.tbFreeze_keeps {p2} (h : Keeps s x) : Keeps s (State.tbFreeze x p2).2 := by
  unfold State.tbFreeze
  split
  · refine Keeps.ite2 ?_ (fun _ => ?_)
    · exact Keeps.mk2 h
    · exact Keeps.mk2 (Keeps.fields h)
  · exact Keeps.mk2 (Keeps.fields h)

theorem execTbNowFreeze_keeps : KeepsRes s (execTbNowFreeze s) := by
  have h := Keeps.refl s
  unfold execTbNowFreeze
  refine KeepsRes.next ?_
  refine State.hostRead_keeps h (fun y1 h2 => ?_)
  split
  rename_i z3 z4 z5 z6
  have h7 : Keeps s z5 := Keeps.of_snd z6 (State.tbFreeze_keeps h2)
  exact State.answer_keeps h7

theorem execTbNowWordRead_keeps {p1} : KeepsRes s (execTbNowWordRead p1 s) := by
  have h := Keeps.refl s
  unfold execTbNowWordRead
  refine KeepsRes.next ?_
  refine State.hostRead_keeps h (fun y1 h2 => ?_)
  split
  rename_i z3 z4 z5 z6
  have h7 : Keeps s z5 := Keeps.of_snd z6 (State.tbFreeze_keeps h2)
  exact State.answer_keeps h7

theorem execTbNowRelease_keeps : KeepsRes s (execTbNowRelease s) := by
  have h := Keeps.refl s
  unfold execTbNowRelease
  refine KeepsRes.next ?_
  refine State.hostRead_keeps h (fun y1 h2 => ?_)
  split
  rename_i z3 z4 z5 z6
  have h7 : Keeps s z5 := Keeps.of_snd z6 (State.tbFreeze_keeps h2)
  exact State.answer_keeps (Keeps.fields h7)

theorem execPpsOutEdge_keeps {p1} : KeepsRes s (execPpsOutEdge p1 s) := by
  have h := Keeps.refl s
  unfold execPpsOutEdge
  extract_lets -merge +onlyGivenNames v1
  have h2 : Keeps s v1 := State.advance_keeps h
  clear_value v1
  refine KeepsRes.next ?_
  refine Keeps.ite ?_ (fun _ => ?_)
  · exact h2
  · exact Keeps.fields h2

theorem execPpsOutEnd_keeps {p1} : KeepsRes s (execPpsOutEnd p1 s) := by
  have h := Keeps.refl s
  unfold execPpsOutEnd
  extract_lets -merge +onlyGivenNames v1
  have h2 : Keeps s v1 := State.advance_keeps h
  clear_value v1
  refine KeepsRes.next ?_
  refine Keeps.ite ?_ (fun _ => ?_)
  · exact h2
  · exact Keeps.fields h2

theorem execPpsInEdge_keeps {p1} : KeepsRes s (execPpsInEdge p1 s) := by
  have h := Keeps.refl s
  unfold execPpsInEdge
  extract_lets -merge +onlyGivenNames v1
  have h2 : Keeps s v1 := State.advance_keeps h
  clear_value v1
  extract_lets -merge +onlyGivenNames v3 v4
  clear_value v3 v4
  extract_lets -merge +onlyGivenNames v5
  have h6 : Keeps s v5 := Keeps.fields h2
  clear_value v5
  exact KeepsRes.next (State.setFlag_keeps (State.wr_keeps h6))

theorem execPpsInLost_keeps {p1} : KeepsRes s (execPpsInLost p1 s) := by
  have h := Keeps.refl s
  unfold execPpsInLost
  extract_lets -merge +onlyGivenNames v1
  have h2 : Keeps s v1 := State.advance_keeps h
  clear_value v1
  refine KeepsRes.next ?_
  refine Keeps.ite ?_ (fun _ => ?_)
  · exact h2
  · exact State.notice_keeps (State.setFlag_keeps h2)

theorem execLeapPending_keeps {p1} : KeepsRes s (execLeapPending p1 s) := by
  have h := Keeps.refl s
  unfold execLeapPending
  extract_lets -merge +onlyGivenNames v1
  have h2 : Keeps s v1 := State.advance_keeps h
  clear_value v1
  split
  · exact KeepsRes.next h2
  · extract_lets -merge +onlyGivenNames v3
    have h4 : Keeps s v3 := State.setFlag_keeps (State.setFlag_keeps h2)
    clear_value v3
    extract_lets -merge +onlyGivenNames v5
    clear_value v5
    extract_lets -merge +onlyGivenNames v6
    have h7 : Keeps s v6 := Keeps.fields h4
    clear_value v6
    exact KeepsRes.next (State.notice_keeps h7)

theorem execLeap_keeps {p1} : KeepsRes s (execLeap p1 s) := by
  have h := Keeps.refl s
  unfold execLeap
  extract_lets -merge +onlyGivenNames v1
  have h2 : Keeps s v1 := State.advance_keeps h
  clear_value v1
  extract_lets -merge +onlyGivenNames v3
  clear_value v3
  split
  · exact KeepsRes.next h2
  · extract_lets -merge +onlyGivenNames v4 v5
    clear_value v4 v5
    extract_lets -merge +onlyGivenNames v6
    have h7 : Keeps s v6 := State.setFlag_keeps (State.setFlag_keeps (State.wr_keeps h2))
    clear_value v6
    extract_lets -merge +onlyGivenNames v8
    clear_value v8
    extract_lets -merge +onlyGivenNames v9
    have h10 : Keeps s v9 := Keeps.fields h7
    clear_value v9
    exact KeepsRes.next (State.tbRefresh_keeps (State.notice_keeps h10))

theorem execLeapOccurredEnd_keeps {p1} : KeepsRes s (execLeapOccurredEnd p1 s) := by
  have h := Keeps.refl s
  unfold execLeapOccurredEnd
  extract_lets -merge +onlyGivenNames v1
  have h2 : Keeps s v1 := State.advance_keeps h
  clear_value v1
  extract_lets -merge +onlyGivenNames v3
  clear_value v3
  refine KeepsRes.next ?_
  refine Keeps.ite ?_ (fun _ => ?_)
  · exact State.setFlag_keeps (State.tbRefresh_keeps (Keeps.fields h2))
  · exact h2

theorem execHostLeapClear_keeps {p1} : KeepsRes s (execHostLeapClear p1 s) := by
  have h := Keeps.refl s
  unfold execHostLeapClear
  exact KeepsRes.next (State.wr_keeps (State.tbRefresh_keeps (State.advance_keeps h)))

theorem execSyncError_keeps {p1} : KeepsRes s (execSyncError p1 s) := by
  have h := Keeps.refl s
  unfold execSyncError
  exact KeepsRes.next (State.tbRefresh_keeps (State.advance_keeps h))

theorem State.renewed_keeps (h : Keeps s x) : Keeps s (State.renewed x) := by
  unfold State.renewed
  refine Keeps.ite ?_ (fun _ => ?_)
  · exact State.refreshScore_keeps (State.showSilent_keeps (State.showLoads_keeps (State.tbRefresh_keeps h)))
  · exact h

theorem execCounterLatchLow_keeps {p1} : KeepsRes s (execCounterLatchLow p1 s) := by
  have h := Keeps.refl s
  unfold execCounterLatchLow
  extract_lets -merge +onlyGivenNames v1
  clear_value v1
  refine KeepsRes.next ?_
  refine State.hostRead_keeps h (fun y2 h3 => ?_)
  extract_lets -merge +onlyGivenNames v4
  have h5 : Keeps s v4 := State.renewed_keeps h3
  clear_value v4
  extract_lets -merge +onlyGivenNames v6
  clear_value v6
  extract_lets -merge +onlyGivenNames v7
  have h8 : Keeps s v7 := by
    unfold v7
    refine Keeps.ite ?_ (fun _ => ?_)
    · exact h5
    · exact Keeps.fields h5
  clear_value v7
  exact State.answer_keeps h8

theorem execCounterLatchHigh_keeps {p1} : KeepsRes s (execCounterLatchHigh p1 s) := by
  have h := Keeps.refl s
  unfold execCounterLatchHigh
  extract_lets -merge +onlyGivenNames v1
  clear_value v1
  refine KeepsRes.next ?_
  refine State.hostRead_keeps h (fun y2 h3 => ?_)
  extract_lets -merge +onlyGivenNames v4
  have h5 : Keeps s v4 := State.renewed_keeps h3
  clear_value v4
  exact State.answer_keeps h5

theorem State.noticeWrite_keeps {p2} {p3} (h : Keeps s x) : Keeps s (State.noticeWrite x p2 p3) := by
  unfold State.noticeWrite
  extract_lets -merge +onlyGivenNames v1
  have h2 : Keeps s v1 := State.refreshSum_keeps (State.store_keeps h)
  clear_value v1
  refine Keeps.ite ?_ (fun _ => ?_)
  · refine Keeps.ite ?_ (fun _ => ?_)
    · exact h2
    · exact State.showGrpContrib_keeps (Keeps.fields h2)
  · exact State.showContrib_keeps (Keeps.fields h2)

theorem State.enableWrite_keeps {p2} {p3} (h : Keeps s x) : Keeps s (State.enableWrite x p2 p3) := by
  unfold State.enableWrite
  extract_lets -merge +onlyGivenNames v1
  have h2 : Keeps s v1 := State.refreshSum_keeps (State.store_keeps h)
  clear_value v1
  refine Keeps.ite ?_ (fun _ => ?_)
  · exact State.raiseVector_keeps h2
  · exact h2

theorem execNoticeClear_keeps {p1} {p2} : KeepsRes s (execNoticeClear p1 p2 s) := by
  have h := Keeps.refl s
  unfold execNoticeClear
  refine KeepsRes.next ?_
  refine State.hostGate_keeps h (fun y1 h2 => ?_)
  exact State.noticeWrite_keeps h2

theorem execNoticeEnable_keeps {p1} {p2} : KeepsRes s (execNoticeEnable p1 p2 s) := by
  have h := Keeps.refl s
  unfold execNoticeEnable
  refine KeepsRes.next ?_
  refine State.hostGate_keeps h (fun y1 h2 => ?_)
  exact State.enableWrite_keeps h2

theorem State.maskWrite_keeps {p2} {p3} (h : Keeps s x) : Keeps s (State.maskWrite x p2 p3) := by
  unfold State.maskWrite
  extract_lets -merge +onlyGivenNames v1
  have h2 : Keeps s v1 := State.store_keeps h
  clear_value v1
  extract_lets -merge +onlyGivenNames v3
  subst v3
  refine Keeps.ite ?_ (fun _ => ?_)
  · exact h2
  · exact State.emit_keeps (State.put_keeps h2)

theorem execMsixUnmask_keeps {p1} : KeepsRes s (execMsixUnmask p1 s) := by
  have h := Keeps.refl s
  unfold execMsixUnmask
  extract_lets -merge +onlyGivenNames v1
  subst v1
  extract_lets -merge +onlyGivenNames v2
  clear_value v2
  refine KeepsRes.next ?_
  refine State.hostGate_keeps h (fun y3 h4 => ?_)
  exact State.maskWrite_keeps h4

theorem State.domWrite_keeps {p2} {p3} (h : Keeps s x) : Keeps s (State.domWrite x p2 p3) := by
  unfold State.domWrite
  extract_lets -merge +onlyGivenNames v1 v2
  clear_value v1 v2
  extract_lets -merge +onlyGivenNames v3
  have h4 : Keeps s v3 := State.store_keeps h
  clear_value v3
  extract_lets -merge +onlyGivenNames v5
  have h6 : Keeps s v5 := by
    unfold v5
    refine Keeps.forEach ?_ (fun y7 y8 h9 => ?_)
    · exact h4
    · refine Keeps.ite ?_ (fun _ => ?_)
      · exact State.domTo_keeps h9
      · exact h9
  clear_value v5
  refine State.tbSelect_keeps ?_
  refine Keeps.ite ?_ (fun _ => ?_)
  · exact State.sameDomnum_keeps h6
  · exact h6

theorem State.ptChanged_keeps {p2} (h : Keeps s x) : Keeps s (State.ptChanged x p2) := by
  unfold State.ptChanged
  extract_lets -merge +onlyGivenNames v1
  have h2 : Keeps s v1 := State.setFlag_keeps (State.stopPt_keeps h)
  clear_value v1
  extract_lets -merge +onlyGivenNames v3
  have h4 : Keeps s v3 := by
    unfold v3
    refine Keeps.ite ?_ (fun _ => ?_)
    · exact State.nrgOff_keeps (State.pqEndAll_keeps h2)
    · exact h2
  clear_value v3
  refine Keeps.ite ?_ (fun _ => ?_)
  · exact h4
  · exact State.startPt_keeps h4

theorem State.lsRenewed_keeps {p2} (h : Keeps s x) : Keeps s (State.lsRenewed x p2) := by
  unfold State.lsRenewed
  extract_lets -merge +onlyGivenNames v1
  clear_value v1
  extract_lets -merge +onlyGivenNames v2
  have h3 : Keeps s v2 := State.setFlag_keeps (State.setAcqLs_keeps h)
  clear_value v2
  extract_lets -merge +onlyGivenNames v4
  have h5 : Keeps s v4 := by
    unfold v4
    refine Keeps.ite ?_ (fun _ => ?_)
    · exact State.showLs_keeps h3
    · exact State.checkLs_keeps h3
  clear_value v4
  refine Keeps.ite ?_ (fun _ => ?_)
  · exact h5
  · exact State.setAcqLs_keeps h5

theorem State.acqWrite_keeps {p2} {p3} (h : Keeps s x) : Keeps s (State.acqWrite x p2 p3) := by
  unfold State.acqWrite
  extract_lets -merge +onlyGivenNames v1
  clear_value v1
  extract_lets -merge +onlyGivenNames v2
  have h3 : Keeps s v2 := State.store_keeps h
  clear_value v2
  extract_lets -merge +onlyGivenNames v4 v5
  clear_value v4 v5
  extract_lets -merge +onlyGivenNames v6
  have h7 : Keeps s v6 := by
    unfold v6
    refine Keeps.forEach ?_ (fun y8 y9 h10 => ?_)
    · exact h3
    · exact State.streamJudged_keeps (State.lsChanged_keeps h10)
  clear_value v6
  extract_lets -merge +onlyGivenNames v11
  clear_value v11
  refine Keeps.ite ?_ (fun _ => ?_)
  · refine Keeps.ite ?_ (fun _ => ?_)
    · exact h7
    · refine Keeps.forEach ?_ (fun y12 y13 h14 => ?_)
      · exact h7
      · exact State.lsRenewed_keeps h14
  · refine Keeps.ite ?_ (fun _ => ?_)
    · exact State.ptChanged_keeps h7
    · exact h7

theorem State.capWrite_keeps {p2} {p3} (h : Keeps s x) : Keeps s (State.capWrite x p2 p3) := by
  unfold State.capWrite
  extract_lets -merge +onlyGivenNames v1
  clear_value v1
  refine Keeps.ite ?_ (fun _ => ?_)
  · refine Keeps.ite ?_ (fun _ => ?_)
    · extract_lets -merge +onlyGivenNames v2
      clear_value v2
      extract_lets -merge +onlyGivenNames v3
      have h4 : Keeps s v3 := State.store_keeps h
      clear_value v3
      extract_lets -merge +onlyGivenNames v5
      have h6 : Keeps s v5 := by
        unfold v5
        refine Keeps.ite ?_ (fun _ => ?_)
        · exact State.wr_keeps (State.capOff_keeps h4)
        · exact h4
      clear_value v5
      refine Keeps.ite ?_ (fun _ => ?_)
      · exact h6
      · exact Keeps.fields h6
    · extract_lets -merge +onlyGivenNames v7
      have h8 : Keeps s v7 := by
        unfold v7
        refine Keeps.ite ?_ (fun _ => ?_)
        · exact h
        · exact State.capArmWrite_keeps h
      clear_value v7
      refine Keeps.ite ?_ (fun _ => ?_)
      · exact h8
      · exact State.capForceWrite_keeps h8
  · exact State.capAckWrite_keeps h

theorem State.capCtlWrite_keeps {p2} (h : Keeps s x) : Keeps s (State.capCtlWrite x p2) := by
  unfold State.capCtlWrite
  extract_lets -merge +onlyGivenNames v1
  have h2 : Keeps s v1 := State.store_keeps h
  clear_value v1
  refine Keeps.ite ?_ (fun _ => ?_)
  · refine Keeps.forEach ?_ (fun y3 y4 h5 => ?_)
    · exact h2
    · exact State.capOff_keeps h5
  · exact h2

theorem State.trcWrite_keeps {p2} (h : Keeps s x) : Keeps s (State.trcWrite x p2) := by
  unfold State.trcWrite
  extract_lets -merge +onlyGivenNames v1
  clear_value v1
  extract_lets -merge +onlyGivenNames v2
  have h3 : Keeps s v2 := State.store_keeps h
  clear_value v2
  extract_lets -merge +onlyGivenNames v4
  clear_value v4
  refine Keeps.ite ?_ (fun _ => ?_)
  · extract_lets -merge +onlyGivenNames v5
    clear_value v5
    extract_lets -merge +onlyGivenNames v6
    have h7 : Keeps s v6 := State.wr_keeps (Keeps.fields h3)
    clear_value v6
    refine Keeps.ite ?_ (fun _ => ?_)
    · exact h7
    · exact State.trcStop_keeps h7
  · exact h3

theorem State.ponWrite_keeps {p2} (h : Keeps s x) : Keeps s (State.ponWrite x p2) := by
  unfold State.ponWrite
  refine Keeps.ite ?_ (fun _ => ?_)
  · exact State.showPon_keeps (State.store_keeps h)
  · exact State.ponOffWrite_keeps h

theorem State.svcWrite_keeps {p2} (h : Keeps s x) : Keeps s (State.svcWrite x p2) := by
  unfold State.svcWrite
  exact State.submitWrite_keeps (State.chalWrite_keeps h)

theorem State.logCfgWrite_keeps {p2} {p3} (h : Keeps s x) : Keeps s (State.logCfgWrite x p2 p3) := by
  unfold State.logCfgWrite
  extract_lets -merge +onlyGivenNames v1
  have h2 : Keeps s v1 := State.store_keeps h
  clear_value v1
  exact Keeps.logFields h2

theorem State.pairCfgWrite_keeps {p2} {p3} (h : Keeps s x) : Keeps s (State.pairCfgWrite x p2 p3) := by
  unfold State.pairCfgWrite
  extract_lets -merge +onlyGivenNames v1
  have h2 : Keeps s v1 := State.store_keeps h
  clear_value v1
  exact State.setFlag_keeps h2

theorem State.plainWrite_keeps {p2} {p3} (h : Keeps s x) : Keeps s (State.plainWrite x p2 p3) := by
  unfold State.plainWrite
  extract_lets -merge +onlyGivenNames v1
  clear_value v1
  refine Keeps.ite ?_ (fun _ => ?_)
  · refine Keeps.ite ?_ (fun _ => ?_)
    · refine Keeps.ite ?_ (fun _ => ?_)
      · refine Keeps.ite ?_ (fun _ => ?_)
        · refine Keeps.ite ?_ (fun _ => ?_)
          · refine Keeps.ite ?_ (fun _ => ?_)
            · refine Keeps.ite ?_ (fun _ => ?_)
              · refine Keeps.ite ?_ (fun _ => ?_)
                · refine Keeps.ite ?_ (fun _ => ?_)
                  · refine Keeps.ite ?_ (fun _ => ?_)
                    · refine Keeps.ite ?_ (fun _ => ?_)
                      · refine Keeps.ite ?_ (fun _ => ?_)
                        · refine Keeps.ite ?_ (fun _ => ?_)
                          · refine Keeps.ite ?_ (fun _ => ?_)
                            · refine Keeps.ite ?_ (fun _ => ?_)
                              · refine Keeps.ite ?_ (fun _ => ?_)
                                · refine Keeps.ite ?_ (fun _ => ?_)
                                  · refine Keeps.ite ?_ (fun _ => ?_)
                                    · refine Keeps.ite ?_ (fun _ => ?_)
                                      · refine Keeps.ite ?_ (fun _ => ?_)
                                        · refine Keeps.ite ?_ (fun _ => ?_)
                                          · refine Keeps.ite ?_ (fun _ => ?_)
                                            · refine Keeps.ite ?_ (fun _ => ?_)
                                              · refine Keeps.ite ?_ (fun _ => ?_)
                                                · refine Keeps.ite ?_ (fun _ => ?_)
                                                  · refine Keeps.ite ?_ (fun _ => ?_)
                                                    · refine Keeps.ite ?_ (fun _ => ?_)
                                                      · refine Keeps.ite ?_ (fun _ => ?_)
                                                        · refine Keeps.ite ?_ (fun _ => ?_)
                                                          · refine Keeps.ite ?_ (fun _ => ?_)
                                                            · refine Keeps.ite ?_ (fun _ => ?_)
                                                              · refine Keeps.ite ?_ (fun _ => ?_)
                                                                · refine Keeps.ite ?_ (fun _ => ?_)
                                                                  · refine Keeps.ite ?_ (fun _ => ?_)
                                                                    · exact State.store_keeps h
                                                                    · exact State.maskWrite_keeps h
                                                                  · exact State.i2cWrite_keeps h
                                                                · exact State.thermCheck_keeps (State.store_keeps h)
                                                              · exact State.wr_keeps h
                                                            · exact State.sleepAll_keeps (State.store_keeps h)
                                                          · exact State.lbCfg_keeps h
                                                        · exact State.prCfg_keeps h
                                                      · exact State.logCfgWrite_keeps h
                                                    · exact State.pairCfgWrite_keeps h
                                                  · exact State.capWrite_keeps h
                                                · exact State.capCtlWrite_keeps h
                                              · exact State.xtrgWrite_keeps h
                                            · exact State.presetWrite_keeps h
                                          · exact State.presetWrite_keeps h
                                        · exact State.snapWrite_keeps h
                                      · extract_lets -merge +onlyGivenNames v2
                                        clear_value v2
                                        extract_lets -merge +onlyGivenNames v3
                                        have h4 : Keeps s v3 := State.store_keeps h
                                        clear_value v3
                                        refine Keeps.ite ?_ (fun _ => ?_)
                                        · exact State.intCheck_keeps h4
                                        · exact h4
                                    · exact State.acqWrite_keeps h
                                  · exact State.calWrite_keeps h
                                · exact State.setWord_keeps h
                              · exact State.trcWrite_keeps h
                            · exact State.setWord_keeps h
                          · exact State.cancelWrite_keeps h
                        · exact State.portsChanged_keeps (State.store_keeps h)
                      · exact State.ponWrite_keeps h
                    · exact State.almCtl_keeps h
                  · exact State.bkdCommitWrite_keeps h
                · exact State.domWrite_keeps h
              · exact State.tbRefresh_keeps (State.store_keeps h)
            · exact State.tbSelWrite_keeps h
          · exact State.timeCommitWrite_keeps h
        · exact State.svcWrite_keeps h
      · exact State.kickWrite_keeps h
    · exact State.ctlWrite_keeps h
  · exact State.request_keeps h

theorem State.hostWrite_keeps {p2} {p3} (h : Keeps s x) : Keeps s (State.hostWrite x p2 p3) := by
  unfold State.hostWrite
  split
  · exact State.noticeWrite_keeps h
  · exact State.enableWrite_keeps h
  · extract_lets -merge +onlyGivenNames v1
    clear_value v1
    refine Keeps.ite ?_ (fun _ => ?_)
    · exact State.plainWrite_keeps h
    · refine Keeps.ite ?_ (fun _ => ?_)
      · exact State.blockWrite_keeps h
      · refine State.hostGate_keeps h (fun y2 h3 => ?_)
        exact State.blockWrite_keeps h3

theorem execRegisterWrite_keeps {p1} {p2} {p3} : KeepsRes s (execRegisterWrite p1 p2 p3 s) := by
  have h := Keeps.refl s
  unfold execRegisterWrite
  extract_lets -merge +onlyGivenNames v1
  clear_value v1
  refine KeepsRes.next ?_
  refine Keeps.ite ?_ (fun _ => ?_)
  · refine Keeps.ite ?_ (fun _ => ?_)
    · exact State.hostWrite_keeps h
    · exact State.logRefused_keeps h
  · exact h

/-- Every command keeps what `Keeps` says. -/
theorem exec_keeps (c : Instr) (s : State) : KeepsRes s (exec c s) :=
  match c with
  | .coldStart a1 => @execColdStart_keeps s a1
  | .supplyTrip a1 a2 a3 => @execSupplyTrip_keeps s a1 a2 a3
  | .porstNAssert a1 => @execPorstNAssert_keeps s a1
  | .wrstNLow a1 a2 => @execWrstNLow_keeps s a1 a2
  | .warmStart a1 => @execWarmStart_keeps s a1
  | .warmStartFull a1 => @execWarmStartFull_keeps s a1
  | .startStepEnd a1 => @execStartStepEnd_keeps s a1
  | .startTimer a1 => @execStartTimer_keeps s a1
  | .pllLockTimeout a1 => @execPllLockTimeout_keeps s a1
  | .startRetry a1 => @execStartRetry_keeps s a1
  | .stableTimer a1 => @execStableTimer_keeps s a1
  | .watchdogStall a1 => @execWatchdogStall_keeps s a1
  | .watchdogHost a1 => @execWatchdogHost_keeps s a1
  | .strtKick a1 => @execStrtKick_keeps s a1
  | .reqWatch a1 => @execReqWatch_keeps s a1
  | .reqSwitchover a1 => @execReqSwitchover_keeps s a1
  | .reqRunEnable a1 => @execReqRunEnable_keeps s a1
  | .reqService a1 => @execReqService_keeps s a1
  | .sramUe a1 a2 a3 => @execSramUe_keeps s a1 a2 a3
  | .sequencerFault a1 a2 => @execSequencerFault_keeps s a1 a2
  | .napEntry a1 a2 => @execNapEntry_keeps s a1 a2
  | .scheduledWake a1 a2 => @execScheduledWake_keeps s a1 a2
  | .sorterWakeDone a1 a2 => @execSorterWakeDone_keeps s a1 a2
  | .offEntry a1 a2 => @execOffEntry_keeps s a1 a2
  | .itemEnd a1 a2 a3 => @execItemEnd_keeps s a1 a2 a3
  | .itemStealable a1 a2 => @execItemStealable_keeps s a1 a2
  | .itemExpiry a1 a2 => @execItemExpiry_keeps s a1 a2
  | .itemTimeLimit a1 a2 a3 => @execItemTimeLimit_keeps s a1 a2 a3
  | .hostCancel a1 => @execHostCancel_keeps s a1
  | .housekeepingTimer a1 a2 => @execHousekeepingTimer_keeps s a1 a2
  | .flowStateCopyDone a1 a2 => @execFlowStateCopyDone_keeps s a1 a2
  | .prDoorbell a1 a2 a3 => @execPrDoorbell_keeps s a1 a2 a3
  | .modTimeout a1 a2 => @execModTimeout_keeps s a1 a2
  | .prEnable a1 a2 => @execPrEnable_keeps s a1 a2
  | .lbEnable a1 a2 => @execLbEnable_keeps s a1 a2
  | .lbDoorbell a1 a2 => @execLbDoorbell_keeps s a1 a2
  | .lbCommandFetched a1 a2 a3 => @execLbCommandFetched_keeps s a1 a2 a3
  | .ringPcieError a1 a2 => @execRingPcieError_keeps s a1 a2
  | .bmeOff => @execBmeOff_keeps s
  | .perst => @execPerst_keeps s
  | .lbNop a1 a2 a3 a4 => @execLbNop_keeps s a1 a2 a3 a4
  | .resend a1 a2 a3 => @execResend_keeps s a1 a2 a3
  | .compress a1 a2 a3 => @execCompress_keeps s a1 a2 a3
  | .decode a1 a2 a3 => @execDecode_keeps s a1 a2 a3
  | .compressDone a1 a2 => @execCompressDone_keeps s a1 a2
  | .lbImport a1 a2 a3 => @execLbImport_keeps s a1 a2 a3
  | .derive a1 a2 a3 => @execDerive_keeps s a1 a2 a3
  | .invalidate a1 a2 a3 => @execInvalidate_keeps s a1 a2 a3
  | .lbDelete a1 a2 a3 => @execLbDelete_keeps s a1 a2 a3
  | .seal a1 a2 a3 => @execSeal_keeps s a1 a2 a3
  | .getCert a1 a2 a3 => @execGetCert_keeps s a1 a2 a3
  | .getChallenge a1 a2 a3 => @execGetChallenge_keeps s a1 a2 a3
  | .takeOwnership a1 a2 a3 => @execTakeOwnership_keeps s a1 a2 a3
  | .lbLock a1 a2 a3 => @execLbLock_keeps s a1 a2 a3
  | .scrap a1 a2 a3 => @execScrap_keeps s a1 a2 a3
  | .lbStore a1 a2 a3 => @execLbStore_keeps s a1 a2 a3
  | .nvsRead a1 a2 a3 => @execNvsRead_keeps s a1 a2 a3
  | .selectOther a1 a2 a3 => @execSelectOther_keeps s a1 a2 a3
  | .erase a1 a2 a3 => @execErase_keeps s a1 a2 a3
  | .logRead a1 a2 a3 => @execLogRead_keeps s a1 a2 a3
  | .logClear a1 a2 a3 => @execLogClear_keeps s a1 a2 a3
  | .flashRead a1 a2 a3 => @execFlashRead_keeps s a1 a2 a3
  | .flashErase a1 a2 a3 => @execFlashErase_keeps s a1 a2 a3
  | .flashWrite a1 a2 a3 => @execFlashWrite_keeps s a1 a2 a3
  | .imageCheck a1 a2 a3 => @execImageCheck_keeps s a1 a2 a3
  | .flashOpDone a1 a2 => @execFlashOpDone_keeps s a1 a2
  | .c37DataFrame a1 => @execC37DataFrame_keeps s a1
  | .c37CfgFrame a1 => @execC37CfgFrame_keeps s a1
  | .spduReceived a1 a2 => @execSpduReceived_keeps s a1 a2
  | .svAsdu a1 => @execSvAsdu_keeps s a1
  | .otherFrame a1 => @execOtherFrame_keeps s a1
  | .arpRequest a1 a2 => @execArpRequest_keeps s a1 a2
  | .echoRequest a1 a2 => @execEchoRequest_keeps s a1 a2
  | .fragment a1 a2 => @execFragment_keeps s a1 a2
  | .reasmTimeout a1 a2 => @execReasmTimeout_keeps s a1 a2
  | .tcpSegment a1 => @execTcpSegment_keeps s a1
  | .tcpConnected a1 a2 => @execTcpConnected_keeps s a1 a2
  | .tcpConnFail a1 a2 => @execTcpConnFail_keeps s a1 a2
  | .tcpReconnect a1 a2 => @execTcpReconnect_keeps s a1 a2
  | .cfgRequestTimer a1 a2 => @execCfgRequestTimer_keeps s a1 a2
  | .pendingTimeout a1 a2 => @execPendingTimeout_keeps s a1 a2
  | .refusedExpiry a1 a2 => @execRefusedExpiry_keeps s a1 a2
  | .admDecide a1 => @execAdmDecide_keeps s a1
  | .admCommit a1 => @execAdmCommit_keeps s a1
  | .streamInstant a1 a2 => @execStreamInstant_keeps s a1 a2
  | .sidQuarantineEnd a1 a2 => @execSidQuarantineEnd_keeps s a1 a2
  | .descriptorCheckWrite a1 a2 => @execDescriptorCheckWrite_keeps s a1 a2
  | .rgooseHoldLetter a1 a2 => @execRgooseHoldLetter_keeps s a1 a2
  | .linkDown a1 a2 => @execLinkDown_keeps s a1 a2
  | .linkUp a1 a2 => @execLinkUp_keeps s a1 a2
  | .portRestore a1 a2 => @execPortRestore_keeps s a1 a2
  | .portFail a1 a2 => @execPortFail_keeps s a1 a2
  | .pauseFrame a1 a2 a3 => @execPauseFrame_keeps s a1 a2 a3
  | .pauseCut a1 a2 => @execPauseCut_keeps s a1 a2
  | .egressShed a1 a2 => @execEgressShed_keeps s a1 a2
  | .cmdSendCfg a1 => @execCmdSendCfg_keeps s a1
  | .cmdSendHeader a1 => @execCmdSendHeader_keeps s a1
  | .cmdDataOn a1 => @execCmdDataOn_keeps s a1
  | .cmdDataOff a1 => @execCmdDataOff_keeps s a1
  | .cmdOther a1 => @execCmdOther_keeps s a1
  | .ptpSync a1 => @execPtpSync_keeps s a1
  | .ptpAnnounce a1 a2 => @execPtpAnnounce_keeps s a1 a2
  | .pdelayReq a1 => @execPdelayReq_keeps s a1
  | .pdelayResp a1 => @execPdelayResp_keeps s a1
  | .pdelayReqSend a1 a2 => @execPdelayReqSend_keeps s a1 a2
  | .announceTimeout a1 a2 => @execAnnounceTimeout_keeps s a1 a2
  | .timeAgree a1 => @execTimeAgree_keeps s a1
  | .domainRevert a1 => @execDomainRevert_keeps s a1
  | .tbSelSwitch a1 => @execTbSelSwitch_keeps s a1
  | .timeCommit a1 => @execTimeCommit_keeps s a1
  | .timeCommitApply a1 => @execTimeCommitApply_keeps s a1
  | .tbNowFreeze => @execTbNowFreeze_keeps s
  | .tbNowWordRead a1 => @execTbNowWordRead_keeps s a1
  | .tbNowRelease => @execTbNowRelease_keeps s
  | .ppsOutEdge a1 => @execPpsOutEdge_keeps s a1
  | .ppsOutEnd a1 => @execPpsOutEnd_keeps s a1
  | .ppsInEdge a1 => @execPpsInEdge_keeps s a1
  | .ppsInLost a1 => @execPpsInLost_keeps s a1
  | .backupClockWrite a1 => @execBackupClockWrite_keeps s a1
  | .leapPending a1 => @execLeapPending_keeps s a1
  | .leap a1 => @execLeap_keeps s a1
  | .leapOccurredEnd a1 => @execLeapOccurredEnd_keeps s a1
  | .hostLeapClear a1 => @execHostLeapClear_keeps s a1
  | .fileLetter a1 a2 => @execFileLetter_keeps s a1 a2
  | .roundInstant a1 a2 => @execRoundInstant_keeps s a1 a2
  | .deadlineClose a1 a2 => @execDeadlineClose_keeps s a1 a2
  | .dispatch a1 a2 => @execDispatch_keeps s a1 a2
  | .roundCommit a1 a2 => @execRoundCommit_keeps s a1 a2
  | .groupUpdate a1 a2 => @execGroupUpdate_keeps s a1 a2
  | .defUpdate a1 => @execDefUpdate_keeps s a1
  | .coherencyUpdate a1 => @execCoherencyUpdate_keeps s a1
  | .clustering a1 => @execClustering_keeps s a1
  | .separation a1 => @execSeparation_keeps s a1
  | .machineStep a1 a2 => @execMachineStep_keeps s a1 a2
  | .gooseRetransmit a1 a2 => @execGooseRetransmit_keeps s a1 a2
  | .almAck a1 => @execAlmAck_keeps s a1
  | .stdAlarmExpiry a1 a2 => @execStdAlarmExpiry_keeps s a1 a2
  | .alarmPinMinw a1 a2 => @execAlarmPinMinw_keeps s a1 a2
  | .almOeNChange a1 => @execAlmOeNChange_keeps s a1
  | .outputSample a1 a2 a3 => @execOutputSample_keeps s a1 a2 a3
  | .lookAheadSample a1 a2 a3 a4 => @execLookAheadSample_keeps s a1 a2 a3 a4
  | .inputFault a1 a2 => @execInputFault_keeps s a1 a2
  | .inputFaultClear a1 a2 => @execInputFaultClear_keeps s a1 a2
  | .curveLookup a1 => @execCurveLookup_keeps s a1
  | .calCommit a1 => @execCalCommit_keeps s a1
  | .calCommitApply a1 => @execCalCommitApply_keeps s a1
  | .localLetter a1 a2 => @execLocalLetter_keeps s a1 a2
  | .svWaitTimeout a1 a2 => @execSvWaitTimeout_keeps s a1 a2
  | .svLost a1 a2 => @execSvLost_keeps s a1 a2
  | .chainFilled a1 a2 => @execChainFilled_keeps s a1 a2
  | .quantumEnd a1 a2 => @execQuantumEnd_keeps s a1 a2
  | .intervalEnd a1 a2 => @execIntervalEnd_keeps s a1 a2
  | .nrgSnap a1 => @execNrgSnap_keeps s a1
  | .nrgPreset a1 a2 => @execNrgPreset_keeps s a1 a2
  | .urmsHalfValue a1 a2 a3 => @execUrmsHalfValue_keeps s a1 a2 a3
  | .capAck a1 a2 => @execCapAck_keeps s a1 a2
  | .capArm a1 => @execCapArm_keeps s a1
  | .capForce a1 => @execCapForce_keeps s a1
  | .xtrgFireEdge a1 => @execXtrgFireEdge_keeps s a1
  | .xtrgFireRelease a1 => @execXtrgFireRelease_keeps s a1
  | .xtrgSyncEdge a1 => @execXtrgSyncEdge_keeps s a1
  | .syncGo a1 => @execSyncGo_keeps s a1
  | .xtrgSyncRelease a1 => @execXtrgSyncRelease_keeps s a1
  | .heartbeatSend a1 => @execHeartbeatSend_keeps s a1
  | .heartbeatReceived a1 a2 a3 => @execHeartbeatReceived_keeps s a1 a2 a3
  | .pathSilent a1 a2 => @execPathSilent_keeps s a1 a2
  | .joinTimeout a1 => @execJoinTimeout_keeps s a1
  | .hello a1 => @execHello_keeps s a1
  | .switchOffer a1 a2 => @execSwitchOffer_keeps s a1 a2
  | .switchAccept a1 a2 => @execSwitchAccept_keeps s a1 a2
  | .switchRefuse a1 => @execSwitchRefuse_keeps s a1
  | .fwdOn a1 => @execFwdOn_keeps s a1
  | .fwdOff a1 => @execFwdOff_keeps s a1
  | .fwd a1 => @execFwd_keeps s a1
  | .plkDispatch a1 a2 => @execPlkDispatch_keeps s a1 a2
  | .fetch a1 a2 a3 a4 a5 => @execFetch_keeps s a1 a2 a3 a4 a5
  | .copy a1 a2 => @execCopy_keeps s a1 a2
  | .rel a1 => @execRel_keeps s a1
  | .digest a1 a2 a3 a4 => @execDigest_keeps s a1 a2 a3 a4
  | .catchup a1 => @execCatchup_keeps s a1
  | .plkAck a1 a2 => @execPlkAck_keeps s a1 a2
  | .rxmap a1 => @execRxmap_keeps s a1
  | .ackSend a1 => @execAckSend_keeps s a1
  | .retransmit a1 => @execRetransmit_keeps s a1
  | .laneUp a1 a2 => @execLaneUp_keeps s a1 a2
  | .laneDown a1 a2 a3 => @execLaneDown_keeps s a1 a2 a3
  | .followLate a1 a2 => @execFollowLate_keeps s a1 a2
  | .revert a1 => @execRevert_keeps s a1
  | .autoSwitchover a1 => @execAutoSwitchover_keeps s a1
  | .sramScrubPass a1 a2 a3 a4 => @execSramScrubPass_keeps s a1 a2 a3 a4
  | .knownAnswerTest a1 a2 a3 => @execKnownAnswerTest_keeps s a1 a2 a3
  | .dramPatrolPass a1 a2 a3 a4 a5 => @execDramPatrolPass_keeps s a1 a2 a3 a4 a5
  | .mramReadCheck a1 a2 a3 a4 => @execMramReadCheck_keeps s a1 a2 a3 a4
  | .dramUe a1 a2 a3 a4 => @execDramUe_keeps s a1 a2 a3 a4
  | .mramUe a1 a2 => @execMramUe_keeps s a1 a2
  | .keyExpiry a1 a2 => @execKeyExpiry_keeps s a1 a2
  | .reserveWriteDone a1 => @execReserveWriteDone_keeps s a1
  | .counterTableWrite a1 => @execCounterTableWrite_keeps s a1
  | .challengeExpiry a1 => @execChallengeExpiry_keeps s a1
  | .chalReq a1 => @execChalReq_keeps s a1
  | .submit a1 => @execSubmit_keeps s a1
  | .svcAuthDone a1 => @execSvcAuthDone_keeps s a1
  | .logRecordWrite a1 a2 => @execLogRecordWrite_keeps s a1 a2
  | .repeatRewrite a1 => @execRepeatRewrite_keeps s a1
  | .opsecSave a1 => @execOpsecSave_keeps s a1
  | .bkdSecFreeze => @execBkdSecFreeze_keeps s
  | .bkdSecWordRead => @execBkdSecWordRead_keeps s
  | .bkdSecRelease => @execBkdSecRelease_keeps s
  | .bkdCommit a1 => @execBkdCommit_keeps s a1
  | .bkdCommitApply a1 => @execBkdCommitApply_keeps s a1
  | .bkdSecondTick a1 => @execBkdSecondTick_keeps s a1
  | .alarmArm a1 => @execAlarmArm_keeps s a1
  | .alarmDisarm a1 => @execAlarmDisarm_keeps s a1
  | .tcWindow a1 => @execTcWindow_keeps s a1
  | .trimWindow => @execTrimWindow_keeps s
  | .ponOff a1 => @execPonOff_keeps s a1
  | .ponOffApply a1 => @execPonOffApply_keeps s a1
  | .oscStop a1 => @execOscStop_keeps s a1
  | .vbatLowChange a1 => @execVbatLowChange_keeps s a1
  | .counterLatchLow a1 => @execCounterLatchLow_keeps s a1
  | .counterLatchHigh a1 => @execCounterLatchHigh_keeps s a1
  | .noticeClear a1 a2 => @execNoticeClear_keeps s a1 a2
  | .noticeEnable a1 a2 => @execNoticeEnable_keeps s a1 a2
  | .msixUnmask a1 => @execMsixUnmask_keeps s a1
  | .maxDspClear a1 a2 => @execMaxDspClear_keeps s a1 a2
  | .maxLClear a1 a2 => @execMaxLClear_keeps s a1 a2
  | .maxWaitClear a1 a2 => @execMaxWaitClear_keeps s a1 a2
  | .clsHighClear a1 a2 => @execClsHighClear_keeps s a1 a2
  | .tjPeakReset a1 => @execTjPeakReset_keeps s a1
  | .registerWrite a1 a2 a3 => @execRegisterWrite_keeps s a1 a2 a3
  | .tjSample a1 a2 => @execTjSample_keeps s a1 a2
  | .supplyExcursion a1 a2 a3 => @execSupplyExcursion_keeps s a1 a2 a3
  | .i2cGo a1 => @execI2cGo_keeps s a1
  | .i2cDone a1 a2 => @execI2cDone_keeps s a1 a2
  | .syncError a1 => @execSyncError_keeps s a1
  | .pauseEnd a1 a2 => @execPauseEnd_keeps s a1 a2
  | .fcsErrFrame a1 a2 => @execFcsErrFrame_keeps s a1 a2
  | .snapDone a1 => @execSnapDone_keeps s a1
  | .backupDomainPowered a1 => @execBackupDomainPowered_keeps s a1
  | .pcieLinkUp => @execPcieLinkUp_keeps s
  | .busMasteringOn a1 => @execBusMasteringOn_keeps s a1

end Sys2Proof.Machine
end

