-- ==== Sys2Proof/Laws/WithinOps.lean ====
section
/-! SUPPORT. What each operation and each meaning may change: the shared operations. -/
namespace Sys2Proof.Machine

variable {M : Nat} {s x : State}

theorem State.setFlag_in {p2 : Fld} {p3 : List ℕ} {p4 : Bool} (_hM : Incl 0x0 M) (kk1 : Incl (fldMask p2) M) (h : Within M s x) : Within M s (State.setFlag x p2 p3 p4) := by
  unfold State.setFlag
  exact State.wr_in kk1 h

theorem State.inc_in {p2 : Fld} {p3 : List ℕ} (_hM : Incl 0x0 M) (kk1 : Incl (fldMask p2) M) (h : Within M s x) : Within M s (State.inc x p2 p3) := by
  unfold State.inc
  exact State.wr_in kk1 h

theorem State.bump_in {p2 : Fld} {p3 : List ℕ} {p4 : ℕ} (_hM : Incl 0x0 M) (kk1 : Incl (fldMask p2) M) (h : Within M s x) : Within M s (State.bump x p2 p3 p4) := by
  unfold State.bump
  exact State.wr_in kk1 h

theorem State.incSat_in {p2 : Fld} {p3 : List ℕ} (_hM : Incl 0x0 M) (kk1 : Incl (fldMask p2) M) (h : Within M s x) : Within M s (State.incSat x p2 p3) := by
  unfold State.incSat
  exact State.wr_in kk1 h

theorem State.wr64_in {p2 : Fld} {p3 : List ℕ} {p4 : ℕ} (_hM : Incl 0x0 M) (kk1 : Incl (fldMask p2) M) (h : Within M s x) : Within M s (State.wr64 x p2 p3 p4) := by
  unfold State.wr64
  exact State.wr_in kk1 (State.wr_in kk1 h)

theorem State.bump64_in {p2 : Fld} {p3 : List ℕ} {p4 : ℕ} (hM : Incl 0x0 M) (kk1 : Incl (fldMask p2) M) (h : Within M s x) : Within M s (State.bump64 x p2 p3 p4) := by
  unfold State.bump64
  exact State.wr64_in (hM.of rfl) kk1 h

theorem State.wrWords_in {p2 : Fld} {p3 : List ℕ} {p4 : ℕ} {p5 : ℕ} (_hM : Incl 0x0 M) (kk1 : Incl (fldMask p2) M) (h : Within M s x) : Within M s (State.wrWords x p2 p3 p4 p5) := by
  unfold State.wrWords
  refine Within.forEach ?_ (fun y1 y2 h3 => ?_)
  · exact h
  · exact State.wr_in kk1 h3

theorem State.advance_in {p2} (hM : Incl 0x2 M) (h : Within M s x) : Within M s (State.advance x p2) := by
  unfold State.advance
  exact Within.set_now h (hM.of rfl)

theorem State.emit_in {p2} (hM : Incl 0x800000 M) (h : Within M s x) : Within M s (State.emit x p2) := by
  unfold State.emit
  exact Within.set_out h (hM.of rfl)

theorem State.draw_in (hM : Incl 0x1000000 M) (h : Within M s x) : Within M s (State.draw x).2 := by
  unfold State.draw
  exact Within.mk2 (Within.set_free h (hM.of rfl))

theorem State.raiseVector_in {p2} (hM : Incl 0x400000000800000 M) (h : Within M s x) : Within M s (State.raiseVector x p2) := by
  unfold State.raiseVector
  refine Within.ite ?_ (fun _ => ?_)
  · exact h
  · refine Within.ite ?_ (fun _ => ?_)
    · exact State.emit_in (hM.of rfl) h
    · exact State.put_in (hM.of rfl) h

theorem State.refreshSum_in (hM : Incl 0x100000000 M) (h : Within M s x) : Within M s (State.refreshSum x) := by
  unfold State.refreshSum
  exact State.wr_in (hM.of rfl) h

theorem State.noticeQuiet_in {p2} {p3} (hM : Incl 0x400000100800000 M) (h : Within M s x) : Within M s (State.noticeQuiet x p2 p3) := by
  unfold State.noticeQuiet
  extract_lets -merge +onlyGivenNames v1
  have h2 : Within M s v1 := State.refreshSum_in (hM.of rfl) (State.setWord_in (sub_notice0 (hM.of rfl)) h)
  clear_value v1
  refine Within.ite ?_ (fun _ => ?_)
  · exact h2
  · exact State.raiseVector_in (hM.of rfl) h2

theorem State.staged_in (hM : Incl 0x10000000000000 M) (h : Within M s x) : Within M s (State.staged x) := by
  unfold State.staged
  exact State.wr_in (hM.of rfl) h

theorem State.logPut_in {p2} (hM : Incl 0x410000100800004 M) (h : Within M s x) : Within M s (State.logPut x p2) := by
  unfold State.logPut
  extract_lets -merge +onlyGivenNames v1
  clear_value v1
  extract_lets -merge +onlyGivenNames v2
  extract_lets -merge +onlyGivenNames v3
  extract_lets -merge +onlyGivenNames v4
  have h5 : Within M s v4 := by
    unfold v4
    refine Within.ite ?_ (fun _ => ?_)
    · exact State.noticeQuiet_in (hM.of rfl) (State.inc_in (hM.of rfl) (hM.of rfl) (Within.set_log h (hM.of rfl)))
    · exact State.staged_in (hM.of rfl) (Within.set_log h (hM.of rfl))
  clear_value v4
  split
  · split
    · exact h5
    · extract_lets -merge +onlyGivenNames v6
      clear_value v6
      refine Within.ite ?_ (fun _ => ?_)
      · exact h5
      · exact Within.set_log h (hM.of rfl)
  · refine Within.ite ?_ (fun _ => ?_)
    · exact h5
    · exact Within.set_log h (hM.of rfl)

theorem State.logEvent_in {p2} {p3} {p4} {p5} {p6} (hM : Incl 0x410000100800004 M) (h : Within M s x) : Within M s (State.logEvent x p2 p3 p4 p5 p6) := by
  unfold State.logEvent
  exact State.logPut_in (hM.of rfl) h

theorem State.notice_in {p2} {p3} {p4} {p5} {p6} (hM : Incl 0x410000100800004 M) (h : Within M s x) : Within M s (State.notice x p2 p3 p4 p5 p6) := by
  unfold State.notice
  refine Within.ite ?_ (fun _ => ?_)
  · exact State.noticeQuiet_in (hM.of rfl) h
  · exact State.logEvent_in (hM.of rfl) (State.noticeQuiet_in (hM.of rfl) h)

theorem State.noticeFirst_in {p2} {p3} {p4} {p5} {p6} (hM : Incl 0x410000100800004 M) (h : Within M s x) : Within M s (State.noticeFirst x p2 p3 p4 p5 p6) := by
  unfold State.noticeFirst
  refine Within.ite ?_ (fun _ => ?_)
  · exact State.notice_in (hM.of rfl) h
  · exact h

theorem State.logRefused_in {p2} {p3} (hM : Incl 0x410000100800004 M) (h : Within M s x) : Within M s (State.logRefused x p2 p3) := by
  unfold State.logRefused
  exact State.logEvent_in (hM.of rfl) h

theorem State.prNotify_in {p2} (hM : Incl 0x400000000800010 M) (h : Within M s x) : Within M s (State.prNotify x p2) := by
  unfold State.prNotify
  extract_lets -merge +onlyGivenNames v1 v2
  clear_value v1 v2
  refine Within.ite ?_ (fun _ => ?_)
  · refine Within.ite ?_ (fun _ => ?_)
    · extract_lets -merge +onlyGivenNames v3
      clear_value v3
      refine Within.ite ?_ (fun _ => ?_)
      · exact Within.set_hif h (hM.of rfl)
      · exact State.raiseVector_in (hM.of rfl) (Within.set_hif h (hM.of rfl))
    · exact State.raiseVector_in (hM.of rfl) h
  · exact h

theorem State.prDeliver_in {p2} {p3} {p4} {p5} {p6} (hM : Incl 0x440000000800010 M) (h : Within M s x) : Within M s (State.prDeliver x p2 p3 p4 p5 p6) := by
  unfold State.prDeliver
  extract_lets -merge +onlyGivenNames v1 v2 v3 v4 v5 v6 v7 v8
  clear_value v1 v2 v3 v4 v5 v6 v7 v8
  exact State.prNotify_in (hM.of rfl) (State.wr_in (hM.of rfl) (State.wr_in (hM.of rfl) (State.wr_in (hM.of rfl) (State.emit_in (hM.of rfl) h))))

theorem State.prShed_in {p2} (hM : Incl 0x450000100800004 M) (h : Within M s x) : Within M s (State.prShed x p2) := by
  unfold State.prShed
  extract_lets -merge +onlyGivenNames v1
  have h2 : Within M s v1 := State.incSat_in (hM.of rfl) (hM.of rfl) (State.inc_in (hM.of rfl) (hM.of rfl) h)
  clear_value v1
  extract_lets -merge +onlyGivenNames v3
  have h4 : Within M s v3 := by
    unfold v3
    refine Within.ite ?_ (fun _ => ?_)
    · exact h2
    · exact State.setFlag_in (hM.of rfl) (hM.of rfl) h2
  clear_value v3
  exact State.noticeFirst_in (hM.of rfl) h4

theorem State.prResume_in {p2} (hM : Incl 0x450000100800004 M) (h : Within M s x) : Within M s (State.prResume x p2) := by
  unfold State.prResume
  refine Within.ite ?_ (fun _ => ?_)
  · exact h
  · exact State.notice_in (hM.of rfl) (State.setFlag_in (hM.of rfl) (hM.of rfl) h)

theorem State.prPut_in {p2} {p3} {p4} {p5} {p6} (hM : Incl 0x450000100800014 M) (h : Within M s x) : Within M s (State.prPut x p2 p3 p4 p5 p6).1 := by
  unfold State.prPut
  extract_lets -merge +onlyGivenNames v1 v2
  clear_value v1 v2
  extract_lets -merge +onlyGivenNames v3
  have h4 : Within M s v3 := Within.set_hif h (hM.of rfl)
  clear_value v3
  refine Within.ite1 ?_ (fun _ => ?_)
  · extract_lets -merge +onlyGivenNames v5
    have h6 : Within M s v5 := State.prResume_in (hM.of rfl) h4
    clear_value v5
    refine Within.ite1 ?_ (fun _ => ?_)
    · refine Within.ite1 ?_ (fun _ => ?_)
      · split
        · refine Within.ite1 ?_ (fun _ => ?_)
          · exact Within.mk1 (State.prShed_in (hM.of rfl) h6)
          · exact Within.mk1 (State.prDeliver_in (hM.of rfl) (State.noticeFirst_in (hM.of rfl) (State.inc_in (hM.of rfl) (hM.of rfl) h6)))
        · exact Within.mk1 (State.prShed_in (hM.of rfl) h6)
      · exact Within.mk1 (State.prDeliver_in (hM.of rfl) h6)
    · exact Within.mk1 (State.prShed_in (hM.of rfl) h6)
  · exact Within.mk1 (State.prShed_in (hM.of rfl) h4)

theorem State.offerSample_in {p2} {p3} (hM : Incl 0x450000100800014 M) (h : Within M s x) : Within M s (State.offerSample x p2 p3) := by
  unfold State.offerSample
  refine Within.ite ?_ (fun _ => ?_)
  · exact h
  · refine Within.forEach ?_ (fun y1 y2 h3 => ?_)
    · exact h
    · exact State.prPut_in (hM.of rfl) h3

theorem State.dead_in {p2} {p3} {p4} {p5} {p6} (hM : Incl 0x45001010080001c M) (h : Within M s x) : Within M s (State.dead x p2 p3 p4 p5 p6) := by
  unfold State.dead
  extract_lets -merge +onlyGivenNames v1
  have h2 : Within M s v1 := State.bump64_in (hM.of rfl) (hM.of rfl) h
  clear_value v1
  extract_lets -merge +onlyGivenNames v3 v4 v5 v6
  clear_value v3 v4 v5 v6
  extract_lets -merge +onlyGivenNames v7
  have h8 : Within M s v7 := Within.set_sof h2 (hM.of rfl)
  clear_value v7
  refine Within.ite ?_ (fun _ => ?_)
  · exact h8
  · extract_lets -merge +onlyGivenNames v9
    clear_value v9
    exact State.offerSample_in (hM.of rfl) h8

theorem State.trcStop_in {p2} (hM : Incl 0x410010100800004 M) (h : Within M s x) : Within M s (State.trcStop x p2) := by
  unfold State.trcStop
  exact State.notice_in (hM.of rfl) (State.wr_in (hM.of rfl) h)

theorem State.trcFlush_in (hM : Incl 0x45001010080001c M) (h : Within M s x) : Within M s (State.trcFlush x) := by
  unfold State.trcFlush
  refine Within.ite ?_ (fun _ => ?_)
  · extract_lets -merge +onlyGivenNames v1 v2
    clear_value v1 v2
    extract_lets -merge +onlyGivenNames v3
    have h4 : Within M s v3 := Within.set_sof h (hM.of rfl)
    clear_value v3
    refine Within.ite ?_ (fun _ => ?_)
    · exact h4
    · refine Within.forEach ?_ (fun y5 y6 h7 => ?_)
      · exact h4
      · split
        · rename_i z8 z9 z10
          have h11 : Within M s z9 := Within.of_fst z10 (State.prPut_in (hM.of rfl) h7)
          exact h11
        · rename_i z12 z13 z14 z15 z16
          have h17 : Within M s z13 := Within.of_fst z16 (State.prPut_in (hM.of rfl) h7)
          exact State.dead_in (hM.of rfl) h17
  · exact h

theorem State.traceEv_in {p2} {p3} {p4} {p5} {p6} {p7} (hM : Incl 0x45001010080001c M) (h : Within M s x) : Within M s (State.traceEv x p2 p3 p4 p5 p6 p7) := by
  unfold State.traceEv
  refine Within.ite ?_ (fun _ => ?_)
  · refine Within.ite ?_ (fun _ => ?_)
    · extract_lets -merge +onlyGivenNames v1 v2
      clear_value v1 v2
      extract_lets -merge +onlyGivenNames v3
      have h4 : Within M s v3 := Within.set_sof h (hM.of rfl)
      clear_value v3
      extract_lets -merge +onlyGivenNames v5
      have h6 : Within M s v5 := State.trcFlush_in (hM.of rfl) h4
      clear_value v5
      extract_lets -merge +onlyGivenNames v7
      clear_value v7
      refine Within.ite ?_ (fun _ => ?_)
      · exact h6
      · exact State.trcStop_in (hM.of rfl) h6
    · exact State.trcStop_in (hM.of rfl) h
  · exact h

theorem State.deadLetter_in {p2} {p3} (hM : Incl 0x45001010080001c M) (h : Within M s x) : Within M s (State.deadLetter x p2 p3) := by
  unfold State.deadLetter
  exact State.dead_in (hM.of rfl) h

theorem State.setRnd_in {p2} {p3} (hM : Incl 0x80 M) (h : Within M s x) : Within M s (State.setRnd x p2 p3) := by
  unfold State.setRnd
  exact Within.set_whl h (hM.of rfl)

theorem State.shedFrame_in {p2} {p3} (hM : Incl 0x45001210080001c M) (h : Within M s x) : Within M s (State.shedFrame x p2 p3) := by
  unfold State.shedFrame
  split
  exact State.dead_in (hM.of rfl) (State.notice_in (hM.of rfl) (State.inc_in (hM.of rfl) (hM.of rfl) h))

theorem State.startTx_in {p2} (hM : Incl 0x45001210080001c M) (h : Within M s x) : Within M s (State.startTx x p2) := by
  unfold State.startTx
  split
  · exact State.shedFrame_in (hM.of rfl) h
  · extract_lets -merge +onlyGivenNames v1
    have h2 : Within M s v1 := by
      unfold v1
      refine Within.ite ?_ (fun _ => ?_)
      · exact State.inc_in (hM.of rfl) (hM.of rfl) h
      · exact h
    clear_value v1
    exact State.emit_in (hM.of rfl) h2

theorem State.txOne_in {p2} (hM : Incl 0x45001210080003c M) (h : Within M s x) : Within M s (State.txOne x p2) := by
  unfold State.txOne
  extract_lets -merge +onlyGivenNames v1
  clear_value v1
  refine Within.ite ?_ (fun _ => ?_)
  · refine Within.ite ?_ (fun _ => ?_)
    · exact State.startTx_in (hM.of rfl) h
    · exact Within.set_net h (hM.of rfl)
  · exact State.inc_in (hM.of rfl) (hM.of rfl) h

theorem State.txV_in {p2} {p3} {p4} {p5} {p6} {p7} {p8} (hM : Incl 0x45001210080003c M) (h : Within M s x) : Within M s (State.txV x p2 p3 p4 p5 p6 p7 p8) := by
  unfold State.txV
  split
  · refine Within.ite ?_ (fun _ => ?_)
    · exact h
    · exact State.txOne_in (hM.of rfl) h
  · extract_lets -merge +onlyGivenNames v1 v2
    clear_value v1 v2
    extract_lets -merge +onlyGivenNames v3
    have h4 : Within M s v3 := Within.set_net h (hM.of rfl)
    clear_value v3
    refine Within.forEach ?_ (fun y5 y6 h7 => ?_)
    · exact h4
    · refine Within.ite ?_ (fun _ => ?_)
      · exact h7
      · exact State.txOne_in (hM.of rfl) h7

theorem State.tx_in {p2} {p3} {p4} {p5} {p6} (hM : Incl 0x45001210080003c M) (h : Within M s x) : Within M s (State.tx x p2 p3 p4 p5 p6) := by
  unfold State.tx
  exact State.txV_in (hM.of rfl) h

theorem State.setSrtState_in {p2} {p3} (hM : Incl 0x200000000000000 M) (h : Within M s x) : Within M s (State.setSrtState x p2 p3) := by
  unfold State.setSrtState
  extract_lets -merge +onlyGivenNames v1 v2
  clear_value v1 v2
  exact State.put_in (hM.of rfl) h

theorem State.setSrtHid_in {p2} {p3} (hM : Incl 0x8 M) (h : Within M s x) : Within M s (State.setSrtHid x p2 p3) := by
  unfold State.setSrtHid
  exact Within.set_sof h (hM.of rfl)

theorem State.setHome_in {p2} {p3} (hM : Incl 0x2800020000000008 M) (h : Within M s x) : Within M s (State.setHome x p2 p3) := by
  unfold State.setHome
  refine Within.ite ?_ (fun _ => ?_)
  · refine Within.ite ?_ (fun _ => ?_)
    · refine Within.ite ?_ (fun _ => ?_)
      · exact Within.set_sof h (hM.of rfl)
      · exact State.wr_in (hM.of rfl) h
    · exact State.wr_in (hM.of rfl) h
  · exact State.stabWr_in (hM.of rfl) (hM.of rfl) h

theorem State.setFallback_in {p2} {p3} (hM : Incl 0x2800020000000008 M) (h : Within M s x) : Within M s (State.setFallback x p2 p3) := by
  unfold State.setFallback
  refine Within.ite ?_ (fun _ => ?_)
  · refine Within.ite ?_ (fun _ => ?_)
    · refine Within.ite ?_ (fun _ => ?_)
      · exact Within.set_sof h (hM.of rfl)
      · exact State.wr_in (hM.of rfl) h
    · exact State.wr_in (hM.of rfl) h
  · exact State.stabWr_in (hM.of rfl) (hM.of rfl) h

theorem State.countShed_in {p2} {p3} {p4} (hM : Incl 0x45001010080001c M) (h : Within M s x) : Within M s (State.countShed x p2 p3 p4) := by
  unfold State.countShed
  split
  exact State.traceEv_in (hM.of rfl) (State.dead_in (hM.of rfl) h)

theorem State.prOffer_in {p2} {p3} {p4} {p5} {p6} {p7} (hM : Incl 0x45001010080001c M) (h : Within M s x) : Within M s (State.prOffer x p2 p3 p4 p5 p6 p7) := by
  unfold State.prOffer
  split
  · rename_i z1 z2 z3
    have h4 : Within M s z2 := Within.of_fst z3 (State.prPut_in (hM.of rfl) h)
    exact h4
  · rename_i z5 z6 z7 z8 z9
    have h10 : Within M s z6 := Within.of_fst z9 (State.prPut_in (hM.of rfl) h)
    exact State.countShed_in (hM.of rfl) h10

theorem State.offer_in {p2} {p3} {p4} {p5} {p6} {p7} {p8} (hM : Incl 0x45001010080001c M) (h : Within M s x) : Within M s (State.offer x p2 p3 p4 p5 p6 p7 p8) := by
  unfold State.offer
  refine Within.ite ?_ (fun _ => ?_)
  · exact h
  · refine Within.forEach ?_ (fun y1 y2 h3 => ?_)
    · exact h
    · exact State.prOffer_in (hM.of rfl) h3

theorem State.showOcc_in (hM : Incl 0x10000000000 M) (h : Within M s x) : Within M s (State.showOcc x) := by
  unfold State.showOcc
  refine Within.forEach ?_ (fun y1 y2 h3 => ?_)
  · exact h
  · extract_lets -merge +onlyGivenNames v4
    clear_value v4
    extract_lets -merge +onlyGivenNames v5
    have h6 : Within M s v5 := State.wr_in (hM.of rfl) h3
    clear_value v5
    refine Within.ite ?_ (fun _ => ?_)
    · exact h6
    · exact State.wr_in (hM.of rfl) h6

theorem State.showDepth_in {p2} (hM : Incl 0x8000000000000000 M) (h : Within M s x) : Within M s (State.showDepth x p2) := by
  unfold State.showDepth
  extract_lets -merge +onlyGivenNames v1
  clear_value v1
  exact State.wr_in (hM.of rfl) h

theorem State.rehome_in {p2} {p3} (hM : Incl 0xac5003010080001c M) (h : Within M s x) : Within M s (State.rehome x p2 p3) := by
  unfold State.rehome
  extract_lets -merge +onlyGivenNames v1
  clear_value v1
  refine Within.ite ?_ (fun _ => ?_)
  · extract_lets -merge +onlyGivenNames v2
    have h3 : Within M s v2 := State.setHome_in (hM.of rfl) h
    clear_value v2
    extract_lets -merge +onlyGivenNames v4
    have h5 : Within M s v4 := State.inc_in (hM.of rfl) (hM.of rfl) (State.wr_in (hM.of rfl) h3)
    clear_value v4
    extract_lets -merge +onlyGivenNames v6
    have h7 : Within M s v6 := State.traceEv_in (hM.of rfl) (State.inc_in (hM.of rfl) (hM.of rfl) (State.inc_in (hM.of rfl) (hM.of rfl) h5))
    clear_value v6
    refine Within.ite ?_ (fun _ => ?_)
    · exact h7
    · exact State.stabWr_in (hM.of rfl) (hM.of rfl) (State.stabWr_in (hM.of rfl) (hM.of rfl) h7)
  · exact h

theorem State.wake_in {p2} {p3} (hM : Incl 0x45001010080001c M) (h : Within M s x) : Within M s (State.wake x p2 p3) := by
  unfold State.wake
  extract_lets -merge +onlyGivenNames v1
  clear_value v1
  refine Within.ite ?_ (fun _ => ?_)
  · refine Within.ite ?_ (fun _ => ?_)
    · exact State.traceEv_in (hM.of rfl) (State.setSrtHid_in (hM.of rfl) h)
    · exact h
  · exact h

theorem State.wakeHoles_in (hM : Incl 0x45001010080001c M) (h : Within M s x) : Within M s (State.wakeHoles x) := by
  unfold State.wakeHoles
  refine Within.forEach ?_ (fun y1 y2 h3 => ?_)
  · exact h
  · exact State.wake_in (hM.of rfl) h3

theorem State.countDraws_in {p2} {p3} {p4} {p5} {p6} (hM : Incl 0x45001010080001c M) (h : Within M s x) : Within M s (State.countDraws x p2 p3 p4 p5 p6) := by
  unfold State.countDraws
  refine Within.forEach ?_ (fun y1 y2 h3 => ?_)
  · exact h
  · exact State.traceEv_in (hM.of rfl) (State.notice_in (hM.of rfl) (State.inc_in (hM.of rfl) (hM.of rfl) h3))

theorem State.startItem_in {p2} {p3} (hM : Incl 0x845001010080001c M) (h : Within M s x) : Within M s (State.startItem x p2 p3) := by
  unfold State.startItem
  extract_lets -merge +onlyGivenNames v1
  have h2 : Within M s v1 := State.countDraws_in (hM.of rfl) h
  clear_value v1
  extract_lets -merge +onlyGivenNames v3
  clear_value v3
  extract_lets -merge +onlyGivenNames v4
  have h5 : Within M s v4 := by
    unfold v4
    refine Within.ite ?_ (fun _ => ?_)
    · exact h2
    · exact State.wr_in (hM.of rfl) h2
  clear_value v4
  extract_lets -merge +onlyGivenNames v6
  clear_value v6
  extract_lets -merge +onlyGivenNames v7
  have h8 : Within M s v7 := Within.set_sof h5 (hM.of rfl)
  clear_value v7
  exact State.showOcc_in (hM.of rfl) (State.showDepth_in (hM.of rfl) (State.traceEv_in (hM.of rfl) h8))

theorem State.countSteal_in {p2} {p3} (hM : Incl 0xac5001010080001c M) (h : Within M s x) : Within M s (State.countSteal x p2 p3) := by
  unfold State.countSteal
  extract_lets -merge +onlyGivenNames v1
  have h2 : Within M s v1 := State.traceEv_in (hM.of rfl) (State.inc_in (hM.of rfl) (hM.of rfl) (State.inc_in (hM.of rfl) (hM.of rfl) h))
  clear_value v1
  refine Within.ite ?_ (fun _ => ?_)
  · exact h2
  · exact State.stabWr_in (hM.of rfl) (hM.of rfl) h2

theorem State.sorterNext_in {p2} {p3} (hM : Incl 0xac5001010080001c M) (h : Within M s x) : Within M s (State.sorterNext x p2 p3) := by
  unfold State.sorterNext
  refine Within.ite ?_ (fun _ => ?_)
  · refine Within.ite ?_ (fun _ => ?_)
    · split
      · exact h
      · refine State.startItem_in (hM.of rfl) ?_
        refine Within.ite ?_ (fun _ => ?_)
        · exact h
        · exact State.setSrtHid_in (hM.of rfl) h
      · exact State.startItem_in (hM.of rfl) (State.countSteal_in (hM.of rfl) h)
    · extract_lets -merge +onlyGivenNames v1
      clear_value v1
      extract_lets -merge +onlyGivenNames v2
      have h3 : Within M s v2 := State.setSrtHid_in (hM.of rfl) h
      clear_value v2
      split
      · exact h3
      · exact State.startItem_in (hM.of rfl) h3
  · exact h

theorem State.kick_in (hM : Incl 0xac5001010080001c M) (h : Within M s x) : Within M s (State.kick x) := by
  unfold State.kick
  refine Within.forEach ?_ (fun y1 y2 h3 => ?_)
  · exact h
  · exact State.sorterNext_in (hM.of rfl) h3

theorem State.mapItems_in {p2} (hM : Incl 0x8 M) (h : Within M s x) : Within M s (State.mapItems x p2) := by
  unfold State.mapItems
  exact Within.set_sof h (hM.of rfl)

theorem State.tokens_in (hM : Incl 0x845001010080001c M) (h : Within M s x) : Within M s (State.tokens x) := by
  unfold State.tokens
  extract_lets -merge +onlyGivenNames v1
  clear_value v1
  extract_lets -merge +onlyGivenNames v2
  have h3 : Within M s v2 := State.mapItems_in (hM.of rfl) h
  clear_value v2
  refine Within.forEach ?_ (fun y4 y5 h6 => ?_)
  · exact h3
  · exact State.wake_in (hM.of rfl) (State.showDepth_in (hM.of rfl) h6)

theorem State.enqueue_in {p2} {p3} {p4} {p5} {p6} (hM : Incl 0xac5001010080001c M) (h : Within M s x) : Within M s (State.enqueue x p2 p3 p4 p5 p6) := by
  unfold State.enqueue
  extract_lets -merge +onlyGivenNames v1
  clear_value v1
  split
  extract_lets -merge +onlyGivenNames v2 v3
  clear_value v2 v3
  extract_lets -merge +onlyGivenNames v4
  have h5 : Within M s v4 := Within.set_sof h (hM.of rfl)
  clear_value v4
  exact State.sorterNext_in (hM.of rfl) (State.tokens_in (hM.of rfl) (State.showOcc_in (hM.of rfl) (State.traceEv_in (hM.of rfl) h5)))

theorem State.enqueueC3_in {p2} {p3} (hM : Incl 0xac5001010080001c M) (h : Within M s x) : Within M s (State.enqueueC3 x p2 p3) := by
  unfold State.enqueueC3
  extract_lets -merge +onlyGivenNames v1
  clear_value v1
  exact State.enqueue_in (hM.of rfl) (State.countDraws_in (hM.of rfl) h)

theorem State.dropItem_in {p2} (hM : Incl 0x8 M) (h : Within M s x) : Within M s (State.dropItem x p2) := by
  unfold State.dropItem
  exact Within.set_sof h (hM.of rfl)

theorem State.markRan_in {p2} (hM : Incl 0x8 M) (h : Within M s x) : Within M s (State.markRan x p2) := by
  unfold State.markRan
  exact State.mapItems_in (hM.of rfl) h

theorem State.tick_in (hM : Incl 0x102 M) (h : Within M s x) : Within M s (State.tick x) := by
  unfold State.tick
  refine Within.ite ?_ (fun _ => ?_)
  · exact h
  · extract_lets -merge +onlyGivenNames v1 v2
    clear_value v1 v2
    exact Within.set_now_tb h (hM.of rfl)

theorem State.showSlot_in {p2} (hM : Incl 0x4000000000000 M) (h : Within M s x) : Within M s (State.showSlot x p2) := by
  unfold State.showSlot
  extract_lets -merge +onlyGivenNames v1 v2
  clear_value v1 v2
  extract_lets -merge +onlyGivenNames v3
  have h4 : Within M s v3 := State.wr_in (hM.of rfl) (State.wr_in (hM.of rfl) (State.wr_in (hM.of rfl) (State.setFlag_in (hM.of rfl) (hM.of rfl) (State.wr_in (hM.of rfl) (State.wr_in (hM.of rfl) (State.wr_in (hM.of rfl) h))))))
  clear_value v3
  extract_lets -merge +onlyGivenNames v5
  have h6 : Within M s v5 := State.wr_in (hM.of rfl) (State.wr_in (hM.of rfl) (State.wr_in (hM.of rfl) (State.wr_in (hM.of rfl) (State.wr_in (hM.of rfl) h4))))
  clear_value v5
  exact State.wr_in (hM.of rfl) (State.wr_in (hM.of rfl) (State.wr_in (hM.of rfl) h6))

theorem State.showKeyStat_in (hM : Incl 0x414000100800004 M) (h : Within M s x) : Within M s (State.showKeyStat x) := by
  unfold State.showKeyStat
  extract_lets -merge +onlyGivenNames v1 v2
  clear_value v1 v2
  extract_lets -merge +onlyGivenNames v3
  have h4 : Within M s v3 := State.wr_in (hM.of rfl) (State.wr_in (hM.of rfl) (State.wr_in (hM.of rfl) h))
  clear_value v3
  refine Within.ite ?_ (fun _ => ?_)
  · exact h4
  · exact State.notice_in (hM.of rfl) h4

theorem State.setCat_in {p2} {p3} (hM : Incl 0x414000100800204 M) (h : Within M s x) : Within M s (State.setCat x p2 p3) := by
  unfold State.setCat
  exact State.showKeyStat_in (hM.of rfl) (State.showSlot_in (hM.of rfl) (Within.set_key h (hM.of rfl)))

theorem State.setRun_in {p2} {p3} (hM : Incl 0x4000000000200 M) (h : Within M s x) : Within M s (State.setRun x p2 p3) := by
  unfold State.setRun
  exact State.showSlot_in (hM.of rfl) (Within.set_key h (hM.of rfl))

theorem State.zeroiseSlot_in {p2} (hM : Incl 0x200 M) (h : Within M s x) : Within M s (State.zeroiseSlot x p2) := by
  unfold State.zeroiseSlot
  exact Within.set_key h (hM.of rfl)

theorem State.endSlot_in {p2} {p3} {p4} {p5} (hM : Incl 0x414000100800204 M) (h : Within M s x) : Within M s (State.endSlot x p2 p3 p4 p5) := by
  unfold State.endSlot
  extract_lets -merge +onlyGivenNames v1
  have h2 : Within M s v1 := by
    unfold v1
    refine Within.ite ?_ (fun _ => ?_)
    · exact h
    · exact State.zeroiseSlot_in (hM.of rfl) h
  clear_value v1
  exact State.notice_in (hM.of rfl) (State.setCat_in (hM.of rfl) h2)

theorem State.reserve_in {p2} (hM : Incl 0x4000000000200 M) (h : Within M s x) : Within M s (State.reserve x p2) := by
  unfold State.reserve
  extract_lets -merge +onlyGivenNames v1 v2 v3 v4 v5
  clear_value v1 v2 v3 v4 v5
  refine Within.ite ?_ (fun _ => ?_)
  · exact h
  · exact State.setRun_in (hM.of rfl) h

theorem State.countUse_in {p2} {p3} (hM : Incl 0x414000100800204 M) (h : Within M s x) : Within M s (State.countUse x p2 p3) := by
  unfold State.countUse
  extract_lets -merge +onlyGivenNames v1 v2
  clear_value v1 v2
  extract_lets -merge +onlyGivenNames v3
  have h4 : Within M s v3 := State.reserve_in (hM.of rfl) (State.setRun_in (hM.of rfl) h)
  clear_value v3
  extract_lets -merge +onlyGivenNames v5
  clear_value v5
  refine Within.ite ?_ (fun _ => ?_)
  · exact h4
  · exact State.endSlot_in (hM.of rfl) h4

theorem State.refuseUse_in {p2} (hM : Incl 0x414000100800004 M) (h : Within M s x) : Within M s (State.refuseUse x p2) := by
  unfold State.refuseUse
  exact State.noticeFirst_in (hM.of rfl) (State.inc_in (hM.of rfl) (hM.of rfl) h)

theorem State.expireNow_in {p2} (hM : Incl 0x414000100800204 M) (h : Within M s x) : Within M s (State.expireNow x p2) := by
  unfold State.expireNow
  refine Within.ite ?_ (fun _ => ?_)
  · exact h
  · exact State.endSlot_in (hM.of rfl) h

theorem State.useSlot_in {p2} {p3} (hM : Incl 0x414000100800204 M) (h : Within M s x) : Within M s (State.useSlot x p2 p3).1 := by
  unfold State.useSlot
  extract_lets -merge +onlyGivenNames v1
  have h2 : Within M s v1 := State.expireNow_in (hM.of rfl) h
  clear_value v1
  split
  · refine Within.ite1 ?_ (fun _ => ?_)
    · exact Within.mk1 (State.refuseUse_in (hM.of rfl) h2)
    · exact Within.mk1 (State.countUse_in (hM.of rfl) h2)
  · exact Within.mk1 (State.refuseUse_in (hM.of rfl) h2)

theorem State.noteRx_in {p2} {p3} (hM : Incl 0x4000000000200 M) (h : Within M s x) : Within M s (State.noteRx x p2 p3) := by
  unfold State.noteRx
  split
  · extract_lets -merge +onlyGivenNames v1
    clear_value v1
    exact State.setRun_in (hM.of rfl) h
  · exact h

theorem State.useKey_in {p2} {p3} {p4} (hM : Incl 0x414000100800204 M) (h : Within M s x) : Within M s (State.useKey x p2 p3 p4).1 := by
  unfold State.useKey
  split
  · exact Within.mk1 (State.refuseUse_in (hM.of rfl) h)
  · extract_lets -merge +onlyGivenNames v1
    have h2 : Within M s v1 := State.expireNow_in (hM.of rfl) h
    clear_value v1
    extract_lets -merge +onlyGivenNames v3
    clear_value v3
    split
    · refine Within.ite1 ?_ (fun _ => ?_)
      · exact Within.mk1 (State.refuseUse_in (hM.of rfl) h2)
      · exact Within.mk1 (State.countUse_in (hM.of rfl) h2)
    · exact Within.mk1 (State.refuseUse_in (hM.of rfl) h2)

theorem State.plkEmit_in {p2} {p3} (hM : Incl 0x800000 M) (h : Within M s x) : Within M s (State.plkEmit x p2 p3) := by
  unfold State.plkEmit
  extract_lets -merge +onlyGivenNames v1 v2
  clear_value v1 v2
  refine Within.ite ?_ (fun _ => ?_)
  · exact State.emit_in (hM.of rfl) h
  · exact h

theorem State.plkPut_in {p2} {p3} {p4} (hM : Incl 0x804000 M) (h : Within M s x) : Within M s (State.plkPut x p2 p3 p4) := by
  unfold State.plkPut
  extract_lets -merge +onlyGivenNames v1 v2 v3 v4 v5
  clear_value v1 v2 v3 v4 v5
  extract_lets -merge +onlyGivenNames v6
  have h7 : Within M s v6 := by
    unfold v6
    refine Within.ite ?_ (fun _ => ?_)
    · exact Within.set_pair h (hM.of rfl)
    · exact Within.set_pair h (hM.of rfl)
  clear_value v6
  exact State.plkEmit_in (hM.of rfl) h7

theorem State.plkSend_in {p2} (hM : Incl 0x804000 M) (h : Within M s x) : Within M s (State.plkSend x p2) := by
  unfold State.plkSend
  refine Within.ite ?_ (fun _ => ?_)
  · extract_lets -merge +onlyGivenNames v1
    clear_value v1
    extract_lets -merge +onlyGivenNames v2
    have h3 : Within M s v2 := by
      unfold v2
      refine Within.ite ?_ (fun _ => ?_)
      · exact h
      · exact Within.set_pair h (hM.of rfl)
    clear_value v2
    extract_lets -merge +onlyGivenNames v4
    clear_value v4
    refine Within.forEach ?_ (fun y5 y6 h7 => ?_)
    · exact h3
    · exact State.plkPut_in (hM.of rfl) h7
  · exact h

theorem State.sendAck_in (hM : Incl 0x804000 M) (h : Within M s x) : Within M s (State.sendAck x) := by
  unfold State.sendAck
  extract_lets -merge +onlyGivenNames v1
  clear_value v1
  extract_lets -merge +onlyGivenNames v2
  have h3 : Within M s v2 := Within.set_pair h (hM.of rfl)
  clear_value v2
  exact State.plkEmit_in (hM.of rfl) h3

theorem State.rxCounted_in {p2} (hM : Incl 0x804000 M) (h : Within M s x) : Within M s (State.rxCounted x p2) := by
  unfold State.rxCounted
  extract_lets -merge +onlyGivenNames v1
  clear_value v1
  extract_lets -merge +onlyGivenNames v2
  have h3 : Within M s v2 := Within.set_pair h (hM.of rfl)
  clear_value v2
  refine Within.ite ?_ (fun _ => ?_)
  · exact h3
  · exact State.sendAck_in (hM.of rfl) h3

theorem State.received_in {p2} {p3} (hM : Incl 0x804000 M) (h : Within M s x) : Within M s (State.received x p2 p3) := by
  unfold State.received
  extract_lets -merge +onlyGivenNames v1
  clear_value v1
  exact State.rxCounted_in (hM.of rfl) (Within.set_pair h (hM.of rfl))

theorem State.linkRow_in {p2} {p3} {p4} (hM : Incl 0x804000 M) (h : Within M s x) (kp4 : ∀ b1, Within M s b1 → Within M s (p4 b1)) : Within M s (State.linkRow x p2 p3 p4) := by
  unfold State.linkRow
  refine Within.ite ?_ (fun _ => ?_)
  · refine Within.ite ?_ (fun _ => ?_)
    · exact State.rxCounted_in (hM.of rfl) h
    · exact kp4 _ (State.received_in (hM.of rfl) h)
  · exact h

theorem State.hold_in {p2} {p3} (hM : Incl 0x2000000004000 M) (h : Within M s x) : Within M s (State.hold x p2 p3) := by
  unfold State.hold
  refine Within.ite ?_ (fun _ => ?_)
  · extract_lets -merge +onlyGivenNames v1 v2 v3 v4
    clear_value v1 v2 v3 v4
    extract_lets -merge +onlyGivenNames v5
    have h6 : Within M s v5 := Within.set_pair h (hM.of rfl)
    clear_value v5
    refine Within.ite ?_ (fun _ => ?_)
    · exact h6
    · exact State.inc_in (hM.of rfl) (hM.of rfl) h6
  · exact Within.set_pair h (hM.of rfl)

theorem State.weighRoles_in (hM : Incl 0x4000 M) (h : Within M s x) : Within M s (State.weighRoles x) := by
  unfold State.weighRoles
  extract_lets -merge +onlyGivenNames v1
  clear_value v1
  exact Within.set_pair h (hM.of rfl)

theorem State.setReady_in {p2} (hM : Incl 0x412000100804004 M) (h : Within M s x) : Within M s (State.setReady x p2) := by
  unfold State.setReady
  refine Within.ite ?_ (fun _ => ?_)
  · exact State.weighRoles_in (hM.of rfl) (State.notice_in (hM.of rfl) (State.setFlag_in (hM.of rfl) (hM.of rfl) h))
  · exact h

theorem State.refreshReady_in (hM : Incl 0x412000100804004 M) (h : Within M s x) : Within M s (State.refreshReady x) := by
  unfold State.refreshReady
  extract_lets -merge +onlyGivenNames v1
  have h2 : Within M s v1 := State.wr_in (hM.of rfl) h
  clear_value v1
  exact State.setReady_in (hM.of rfl) h2

theorem State.askCatch_in {p2} {p3} (hM : Incl 0x804000 M) (h : Within M s x) : Within M s (State.askCatch x p2 p3) := by
  unfold State.askCatch
  extract_lets -merge +onlyGivenNames v1
  clear_value v1
  exact State.plkSend_in (hM.of rfl) (Within.set_pair h (hM.of rfl))

theorem State.catchEpoch_in {p2} (hM : Incl 0x804000 M) (h : Within M s x) : Within M s (State.catchEpoch x p2) := by
  unfold State.catchEpoch
  refine Within.ite ?_ (fun _ => ?_)
  · exact Within.set_pair h (hM.of rfl)
  · exact State.askCatch_in (hM.of rfl) h

theorem State.digestCompare_in {p2} {p3} {p4} {p5} (hM : Incl 0x412000100804004 M) (h : Within M s x) : Within M s (State.digestCompare x p2 p3 p4 p5) := by
  unfold State.digestCompare
  extract_lets -merge +onlyGivenNames v1 v2
  clear_value v1 v2
  extract_lets -merge +onlyGivenNames v3
  have h4 : Within M s v3 := State.notice_in (hM.of rfl) (State.inc_in (hM.of rfl) (hM.of rfl) h)
  clear_value v3
  extract_lets -merge +onlyGivenNames v5
  have h6 : Within M s v5 := by
    unfold v5
    refine Within.ite ?_ (fun _ => ?_)
    · split
      · rename_i z7
        exact State.askCatch_in (hM.of rfl) h4
      · rename_i z8 z9
        exact State.catchEpoch_in (hM.of rfl) h4
    · split
      · rename_i z10 z11 z12
        refine Within.ite ?_ (fun _ => ?_)
        · exact State.catchEpoch_in (hM.of rfl) h
        · exact State.notice_in (hM.of rfl) (Within.set_pair h (hM.of rfl))
      · rename_i z13 z14
        exact h
  clear_value v5
  exact State.refreshReady_in (hM.of rfl) h6

theorem State.digestReached_in {p2} {p3} {p4} {p5} (hM : Incl 0x412000100804004 M) (h : Within M s x) : Within M s (State.digestReached x p2 p3 p4 p5) := by
  unfold State.digestReached
  refine Within.ite ?_ (fun _ => ?_)
  · extract_lets -merge +onlyGivenNames v1 v2
    clear_value v1 v2
    extract_lets -merge +onlyGivenNames v3
    have h4 : Within M s v3 := Within.set_pair h (hM.of rfl)
    clear_value v3
    split
    · exact State.digestCompare_in (hM.of rfl) h4
    · exact h4
  · exact h

theorem State.hostGate_in {p2} {p3} {p4} (hM : Incl 0x410000100804004 M) (h : Within M s x) (kp4 : ∀ b1, Within M s b1 → Within M s (p4 b1)) : Within M s (State.hostGate x p2 p3 p4) := by
  unfold State.hostGate
  refine Within.ite ?_ (fun _ => ?_)
  · refine Within.ite ?_ (fun _ => ?_)
    · exact kp4 _ h
    · refine Within.ite ?_ (fun _ => ?_)
      · refine Within.ite ?_ (fun _ => ?_)
        · exact kp4 _ h
        · exact Within.set_pair h (hM.of rfl)
      · exact State.logRefused_in (hM.of rfl) h
  · exact h

theorem State.answer_in {p2} (hM : Incl 0x800000 M) (h : Within M s x) : Within M s (State.answer x p2) := by
  unfold State.answer
  exact State.emit_in (hM.of rfl) h

theorem State.hostRead_in {p2} {p3} (hM : Incl 0x800000 M) (h : Within M s x) (kp3 : ∀ b1, Within M s b1 → Within M s (p3 b1)) : Within M s (State.hostRead x p2 p3) := by
  unfold State.hostRead
  refine Within.ite ?_ (fun _ => ?_)
  · refine Within.ite ?_ (fun _ => ?_)
    · exact h
    · exact State.answer_in (hM.of rfl) h
  · exact kp3 _ h

theorem State.drivePins_in (hM : Incl 0x100000000400 M) (h : Within M s x) : Within M s (State.drivePins x) := by
  unfold State.drivePins
  extract_lets -merge +onlyGivenNames v1
  clear_value v1
  refine Within.ite ?_ (fun _ => ?_)
  · refine Within.forEach ?_ (fun y2 y3 h4 => ?_)
    · exact h
    · extract_lets -merge +onlyGivenNames v5 v6 v7 v8 v9 v10
      clear_value v5 v6 v7 v8 v9 v10
      extract_lets -merge +onlyGivenNames v11
      have h12 : Within M s v11 := by
        unfold v11
        refine Within.ite ?_ (fun _ => ?_)
        · exact h4
        · exact Within.set_alm h4 (hM.of rfl)
      clear_value v11
      refine Within.ite ?_ (fun _ => ?_)
      · exact State.wr_in (hM.of rfl) h12
      · exact h12
  · exact h

theorem State.pubFrames_in {p2} {p3} {p4} (hM : Incl 0x45001210080003c M) (h : Within M s x) : Within M s (State.pubFrames x p2 p3 p4) := by
  unfold State.pubFrames
  extract_lets -merge +onlyGivenNames v1
  clear_value v1
  refine Within.forEach ?_ (fun y2 y3 h4 => ?_)
  · exact h
  · exact State.txV_in (hM.of rfl) h4

theorem State.pubOut_in {p2} {p3} {p4} (hM : Incl 0x45211210080403c M) (h : Within M s x) : Within M s (State.pubOut x p2 p3 p4) := by
  unfold State.pubOut
  extract_lets -merge +onlyGivenNames v1
  have h2 : Within M s v1 := State.inc_in (hM.of rfl) (hM.of rfl) (State.pubFrames_in (hM.of rfl) h)
  clear_value v1
  extract_lets -merge +onlyGivenNames v3 v4
  clear_value v3 v4
  refine Within.ite ?_ (fun _ => ?_)
  · refine Within.ite ?_ (fun _ => ?_)
    · refine Within.ite ?_ (fun _ => ?_)
      · exact h2
      · exact State.hold_in (hM.of rfl) h2
    · exact State.plkSend_in (hM.of rfl) h2
  · exact h2

theorem State.pubSend_in {p2} {p3} (hM : Incl 0x45611210080423c M) (h : Within M s x) : Within M s (State.pubSend x p2 p3).1 := by
  unfold State.pubSend
  refine Within.ite1 ?_ (fun _ => ?_)
  · exact Within.mk1 (State.pubOut_in (hM.of rfl) h)
  · extract_lets -merge +onlyGivenNames v1 v2 v3
    clear_value v1 v2 v3
    split
    · rename_i z4 z5 z6 z7
      have h8 : Within M s z5 := Within.of_fst z7 (State.useKey_in (hM.of rfl) h)
      extract_lets -merge +onlyGivenNames v9
      clear_value v9
      exact Within.mk1 (State.pubOut_in (hM.of rfl) h8)
    · rename_i z10 z11 z12
      have h13 : Within M s z11 := Within.of_fst z12 (State.useKey_in (hM.of rfl) h)
      exact Within.mk1 (State.notice_in (hM.of rfl) (State.incSat_in (hM.of rfl) (hM.of rfl) h13))

theorem State.pubChange_in {p2} {p3} {p4} (hM : Incl 0x45611210080463c M) (h : Within M s x) : Within M s (State.pubChange x p2 p3 p4).1 := by
  unfold State.pubChange
  extract_lets -merge +onlyGivenNames v1
  have h2 : Within M s v1 := State.wr_in (hM.of rfl) (State.wr_in (hM.of rfl) h)
  clear_value v1
  extract_lets -merge +onlyGivenNames v3 v4
  clear_value v3 v4
  extract_lets -merge +onlyGivenNames v5
  have h6 : Within M s v5 := Within.set_alm h2 (hM.of rfl)
  clear_value v5
  exact State.pubSend_in (hM.of rfl) h6

theorem State.alarmRec_in {p2} {p3} {p4} {p5} {p6} {p7} {p8} {p9} {p10} (hM : Incl 0x45011010080001c M) (h : Within M s x) : Within M s (State.alarmRec x p2 p3 p4 p5 p6 p7 p8 p9 p10) := by
  unfold State.alarmRec
  extract_lets -merge +onlyGivenNames v1
  have h2 : Within M s v1 := State.inc_in (hM.of rfl) (hM.of rfl) h
  clear_value v1
  exact State.offer_in (hM.of rfl) h2

theorem State.stdMark_in {p2} {p3} (hM : Incl 0x45011010080001c M) (h : Within M s x) : Within M s (State.stdMark x p2 p3) := by
  unfold State.stdMark
  extract_lets -merge +onlyGivenNames v1
  clear_value v1
  refine Within.ite ?_ (fun _ => ?_)
  · extract_lets -merge +onlyGivenNames v2
    have h3 : Within M s v2 := State.wr_in (hM.of rfl) h
    clear_value v2
    extract_lets -merge +onlyGivenNames v4
    clear_value v4
    extract_lets -merge +onlyGivenNames v5
    have h6 : Within M s v5 := State.logEvent_in (hM.of rfl) (State.notice_in (hM.of rfl) h3)
    clear_value v5
    exact State.alarmRec_in (hM.of rfl) h6
  · exact h

theorem State.stdSeen_in {p2} (hM : Incl 0x400 M) (h : Within M s x) : Within M s (State.stdSeen x p2) := by
  unfold State.stdSeen
  exact Within.set_alm h (hM.of rfl)

theorem State.shedMark_in {p2} (hM : Incl 0x45011010080041c M) (h : Within M s x) : Within M s (State.shedMark x p2) := by
  unfold State.shedMark
  refine Within.ite ?_ (fun _ => ?_)
  · exact State.stdMark_in (hM.of rfl) (State.stdSeen_in (hM.of rfl) h)
  · exact h

theorem State.showAlarms_in (hM : Incl 0x100000000400 M) (h : Within M s x) : Within M s (State.showAlarms x).1 := by
  unfold State.showAlarms
  extract_lets -merge +onlyGivenNames v1 v2
  clear_value v1 v2
  extract_lets -merge +onlyGivenNames v3
  have h4 : Within M s v3 := by
    unfold v3
    refine Within.forEach ?_ (fun y5 y6 h7 => ?_)
    · exact h
    · exact State.wr_in (hM.of rfl) h7
  clear_value v3
  extract_lets -merge +onlyGivenNames v8
  clear_value v8
  exact Within.mk1 (State.drivePins_in (hM.of rfl) h4)

theorem State.pubRound_in {p2} {p3} {p4} (hM : Incl 0x45611210080463c M) (h : Within M s x) : Within M s (State.pubRound x p2 p3 p4) := by
  unfold State.pubRound
  extract_lets -merge +onlyGivenNames v1
  have h2 : Within M s v1 := by
    unfold v1
    refine Within.ite ?_ (fun _ => ?_)
    · exact h
    · refine Within.forEach ?_ (fun y3 y4 h5 => ?_)
      · exact h
      · split
        rename_i z6 z7 z8 z9
        have h10 : Within M s z7 := Within.of_fst z9 (State.pubChange_in (hM.of rfl) h5)
        exact Within.set_alm h10 (hM.of rfl)
  clear_value v1
  exact State.shedMark_in (hM.of rfl) (State.stdMark_in (hM.of rfl) h2)

theorem State.stdPublish_in (hM : Incl 0x45611210080463c M) (h : Within M s x) : Within M s (State.stdPublish x) := by
  unfold State.stdPublish
  split
  rename_i z1 z2 z3 z4
  have h5 : Within M s z2 := Within.of_fst z4 (State.showAlarms_in (hM.of rfl) h)
  extract_lets -merge +onlyGivenNames v6
  have h7 : Within M s v6 := State.pubRound_in (hM.of rfl) h5
  clear_value v6
  split
  rename_i z8 z9 z10 z11
  have h12 : Within M s z9 := Within.of_fst z11 (State.showAlarms_in (hM.of rfl) h7)
  exact State.showAlarms_in (hM.of rfl) (State.pubRound_in (hM.of rfl) h12)

theorem State.stdAlarm_in {p2} {p3} (hM : Incl 0x45611210080463c M) (h : Within M s x) : Within M s (State.stdAlarm x p2 p3) := by
  unfold State.stdAlarm
  refine Within.ite ?_ (fun _ => ?_)
  · exact State.stdPublish_in (hM.of rfl) (State.shedMark_in (hM.of rfl) (State.stdMark_in (hM.of rfl) h))
  · exact h

theorem State.sendFrame_in {p2} {p3} {p4} (hM : Incl 0x45001210080003c M) (h : Within M s x) : Within M s (State.sendFrame x p2 p3 p4) := by
  unfold State.sendFrame
  split
  · exact h
  · extract_lets -merge +onlyGivenNames v1
    clear_value v1
    split
    · exact h
    · refine Within.ite ?_ (fun _ => ?_)
      · exact h
      · refine Within.forEach ?_ (fun y2 y3 h4 => ?_)
        · exact h
        · exact State.txV_in (hM.of rfl) h4

theorem State.slotOut_in {p2} {p3} {p4} (hM : Incl 0x45001210080003c M) (h : Within M s x) : Within M s (State.slotOut x p2 p3 p4) := by
  unfold State.slotOut
  extract_lets -merge +onlyGivenNames v1
  have h2 : Within M s v1 := State.sendFrame_in (hM.of rfl) h
  clear_value v1
  split
  · exact h2
  · exact State.offer_in (hM.of rfl) h2

theorem State.emitSlot_in {p2} {p3} (hM : Incl 0x45201210080403c M) (h : Within M s x) : Within M s (State.emitSlot x p2 p3) := by
  unfold State.emitSlot
  extract_lets -merge +onlyGivenNames v1 v2 v3
  clear_value v1 v2 v3
  extract_lets -merge +onlyGivenNames v4
  have h5 : Within M s v4 := Within.set_pair h (hM.of rfl)
  clear_value v4
  refine Within.ite ?_ (fun _ => ?_)
  · refine Within.ite ?_ (fun _ => ?_)
    · extract_lets -merge +onlyGivenNames v6
      have h7 : Within M s v6 := State.slotOut_in (hM.of rfl) h5
      clear_value v6
      refine Within.ite ?_ (fun _ => ?_)
      · refine Within.ite ?_ (fun _ => ?_)
        · exact h7
        · exact State.hold_in (hM.of rfl) h7
      · exact State.plkSend_in (hM.of rfl) h7
    · extract_lets -merge +onlyGivenNames v8
      clear_value v8
      extract_lets -merge +onlyGivenNames v9
      have h10 : Within M s v9 := State.slotOut_in (hM.of rfl) (Within.set_pair h5 (hM.of rfl))
      clear_value v9
      exact State.plkSend_in (hM.of rfl) (Within.set_pair h10 (hM.of rfl))
  · exact h5

theorem State.modSlot_in {p2} {p3} {p4} (hM : Incl 0x80 M) (h : Within M s x) : Within M s (State.modSlot x p2 p3 p4) := by
  unfold State.modSlot
  extract_lets -merge +onlyGivenNames v1
  clear_value v1
  exact State.setRnd_in (hM.of rfl) h

theorem State.releaseScan_in {r k} (hM : Incl 0x4520121008040bc M) (h : Within M s x) : Within M s (State.releaseScan x r k) := by
  induction k generalizing x with
  | zero => exact h
  | succ k ih =>
    unfold State.releaseScan
    split
    · exact h
    · split
      · extract_lets q a b
        have ha : Within M s a := State.setRnd_in (hM.of rfl) h
        refine ih ?_
        unfold b
        split
        · exact State.traceEv_in (hM.of rfl) (State.emitSlot_in (hM.of rfl) ha)
        · exact State.traceEv_in (hM.of rfl) ha
      · exact h

theorem State.slotEnd_in {p2} {p3} (hM : Incl 0x4520121008040bc M) (h : Within M s x) : Within M s (State.slotEnd x p2 p3) := by
  unfold State.slotEnd
  split
  · exact h
  · extract_lets -merge +onlyGivenNames v1
    have h2 : Within M s v1 := State.modSlot_in (hM.of rfl) h
    clear_value v1
    exact State.releaseScan_in (hM.of rfl) h2

theorem State.showLoad_in {p2} (hM : Incl 0x8000000000000000 M) (h : Within M s x) : Within M s (State.showLoad x p2) := by
  unfold State.showLoad
  exact State.wr_in (hM.of rfl) h

theorem State.showLoads_in (hM : Incl 0x8000000000000000 M) (h : Within M s x) : Within M s (State.showLoads x) := by
  unfold State.showLoads
  refine Within.forEach ?_ (fun y1 y2 h3 => ?_)
  · exact h
  · exact State.showLoad_in (hM.of rfl) h3

theorem State.chargeSorter_in {p2} {p3} {p4} (hM : Incl 0x841000010080000c M) (h : Within M s x) : Within M s (State.chargeSorter x p2 p3 p4) := by
  unfold State.chargeSorter
  extract_lets -merge +onlyGivenNames v1 v2
  clear_value v1 v2
  extract_lets -merge +onlyGivenNames v3
  have h4 : Within M s v3 := State.setSrtHid_in (hM.of rfl) (State.bump64_in (hM.of rfl) (hM.of rfl) h)
  clear_value v3
  extract_lets -merge +onlyGivenNames v5
  clear_value v5
  extract_lets -merge +onlyGivenNames v6
  have h7 : Within M s v6 := Within.set_sof h4 (hM.of rfl)
  clear_value v6
  extract_lets -merge +onlyGivenNames v8
  have h9 : Within M s v8 := State.showLoad_in (hM.of rfl) h7
  clear_value v8
  refine Within.ite ?_ (fun _ => ?_)
  · exact h9
  · exact State.notice_in (hM.of rfl) (Within.set_sof h9 (hM.of rfl))

theorem State.chargeStopped_in {p2} (hM : Incl 0x841000010080000c M) (h : Within M s x) : Within M s (State.chargeStopped x p2) := by
  unfold State.chargeStopped
  refine Within.ite ?_ (fun _ => ?_)
  · exact h
  · exact State.chargeSorter_in (hM.of rfl) h

theorem State.handOver_in {p2} {p3} {p4} (hM : Incl 0xac5001010080001c M) (h : Within M s x) : Within M s (State.handOver x p2 p3 p4) := by
  unfold State.handOver
  refine Within.ite ?_ (fun _ => ?_)
  · extract_lets -merge +onlyGivenNames v1 v2 v3
    clear_value v1 v2 v3
    refine Within.ite ?_ (fun _ => ?_)
    · refine Within.ite ?_ (fun _ => ?_)
      · exact State.dead_in (hM.of rfl) (State.notice_in (hM.of rfl) (Within.set_sof h (hM.of rfl)))
      · exact h
    · exact Within.set_sof h (hM.of rfl)
  · exact State.enqueue_in (hM.of rfl) h

theorem State.drainOverflow_in (hM : Incl 0xac5001010080001c M) (h : Within M s x) : Within M s (State.drainOverflow x) := by
  unfold State.drainOverflow
  split
  · exact h
  · refine Within.ite ?_ (fun _ => ?_)
    · exact h
    · exact State.enqueue_in (hM.of rfl) (Within.set_sof h (hM.of rfl))

theorem State.showMoves_in (hM : Incl 0x20000000000 M) (h : Within M s x) : Within M s (State.showMoves x) := by
  unfold State.showMoves
  exact State.setFlag_in (hM.of rfl) (hM.of rfl) (State.wr_in (hM.of rfl) h)

theorem State.moveQuiet_in {p2} (hM : Incl 0x8 M) (h : Within M s x) : Within M s (State.moveQuiet x p2) := by
  unfold State.moveQuiet
  refine Within.ite ?_ (fun _ => ?_)
  · exact Within.set_sof h (hM.of rfl)
  · exact h

theorem State.releaseHeld_in {p2} (hM : Incl 0xac5001010080001c M) (h : Within M s x) : Within M s (State.releaseHeld x p2) := by
  unfold State.releaseHeld
  split
  exact State.kick_in (hM.of rfl) (State.tokens_in (hM.of rfl) (State.mapItems_in (hM.of rfl) h))

theorem State.endMove_in {p2} (hM : Incl 0x20000000008 M) (h : Within M s x) : Within M s (State.endMove x p2) := by
  unfold State.endMove
  exact State.showMoves_in (hM.of rfl) (Within.set_sof h (hM.of rfl))

theorem State.abandonMoves_in {p2} (hM : Incl 0xac5003010080001c M) (h : Within M s x) : Within M s (State.abandonMoves x p2) := by
  unfold State.abandonMoves
  refine Within.forEach ?_ (fun y1 y2 h3 => ?_)
  · exact h
  · exact State.releaseHeld_in (hM.of rfl) (State.endMove_in (hM.of rfl) h3)

theorem State.lbBad_in {p2} (hM : Incl 0x490000100800004 M) (h : Within M s x) : Within M s (State.lbBad x p2) := by
  unfold State.lbBad
  exact State.notice_in (hM.of rfl) (State.inc_in (hM.of rfl) (hM.of rfl) h)

theorem State.lbDone_in {p2} {p3} {p4} (hM : Incl 0xacd001010080001c M) (h : Within M s x) : Within M s (State.lbDone x p2 p3 p4) := by
  unfold State.lbDone
  extract_lets -merge +onlyGivenNames v1 v2
  clear_value v1 v2
  extract_lets -merge +onlyGivenNames v3
  have h4 : Within M s v3 := by
    unfold v3
    refine Within.ite ?_ (fun _ => ?_)
    · exact Within.set_hif h (hM.of rfl)
    · exact State.inc_in (hM.of rfl) (hM.of rfl) h
  clear_value v3
  refine Within.ite ?_ (fun _ => ?_)
  · exact h4
  · exact State.enqueue_in (hM.of rfl) h4

theorem State.lostSlot_in {p2} (hM : Incl 0x45001010080001c M) (h : Within M s x) : Within M s (State.lostSlot x p2) := by
  unfold State.lostSlot
  split
  exact State.dead_in (hM.of rfl) h

theorem State.putFrame_in {p2} {p3} (hM : Incl 0x45001010080009c M) (h : Within M s x) : Within M s (State.putFrame x p2 p3) := by
  unfold State.putFrame
  split
  · refine Within.ite ?_ (fun _ => ?_)
    · exact State.lostSlot_in (hM.of rfl) h
    · exact State.modSlot_in (hM.of rfl) h
  · exact h

theorem State.itemOutput_in {p2} (hM : Incl 0xacd001010080009c M) (h : Within M s x) : Within M s (State.itemOutput x p2) := by
  unfold State.itemOutput
  split
  · refine Within.ite ?_ (fun _ => ?_)
    · exact h
    · split
      · refine Within.ite ?_ (fun _ => ?_)
        · exact State.lostSlot_in (hM.of rfl) h
        · exact State.enqueue_in (hM.of rfl) (State.modSlot_in (hM.of rfl) h)
      · exact h
  · exact State.putFrame_in (hM.of rfl) h
  · extract_lets -merge +onlyGivenNames v1
    clear_value v1
    refine Within.ite ?_ (fun _ => ?_)
    · exact State.countShed_in (hM.of rfl) h
    · exact State.prOffer_in (hM.of rfl) h
  · exact State.offer_in (hM.of rfl) h
  · refine Within.ite ?_ (fun _ => ?_)
    · exact State.lbDone_in (hM.of rfl) h
    · exact h
  · refine Within.ite ?_ (fun _ => ?_)
    · exact State.lbDone_in (hM.of rfl) h
    · exact State.lbDone_in (hM.of rfl) (State.lbBad_in (hM.of rfl) h)
  · exact h

theorem State.completeItem_in {p2} (hM : Incl 0xacd20121008040bc M) (h : Within M s x) : Within M s (State.completeItem x p2) := by
  unfold State.completeItem
  extract_lets -merge +onlyGivenNames v1
  have h2 : Within M s v1 := State.itemOutput_in (hM.of rfl) (State.dropItem_in (hM.of rfl) h)
  clear_value v1
  exact State.slotEnd_in (hM.of rfl) (State.showOcc_in (hM.of rfl) (State.tokens_in (hM.of rfl) h2))

theorem State.showGrpContrib_in (hM : Incl 0x40000000000 M) (h : Within M s x) : Within M s (State.showGrpContrib x) := by
  unfold State.showGrpContrib
  extract_lets -merge +onlyGivenNames v1
  clear_value v1
  refine Within.forEach ?_ (fun y2 y3 h4 => ?_)
  · exact h
  · exact State.wr_in (hM.of rfl) h4

theorem State.oscNotice_in {p2} {p3} {p4} {p5} (hM : Incl 0x410040100880004 M) (h : Within M s x) : Within M s (State.oscNotice x p2 p3 p4 p5) := by
  unfold State.oscNotice
  extract_lets -merge +onlyGivenNames v1
  clear_value v1
  extract_lets -merge +onlyGivenNames v2
  have h3 : Within M s v2 := by
    unfold v2
    refine Within.ite ?_ (fun _ => ?_)
    · exact State.showGrpContrib_in (hM.of rfl) (Within.set_osc h (hM.of rfl))
    · exact h
  clear_value v2
  exact State.notice_in (hM.of rfl) h3

theorem State.setGrp_in {p2} {p3} (hM : Incl 0x80000 M) (h : Within M s x) : Within M s (State.setGrp x p2 p3) := by
  unfold State.setGrp
  exact Within.set_osc h (hM.of rfl)

theorem State.showRunning_in (hM : Incl 0x40000000000 M) (h : Within M s x) : Within M s (State.showRunning x) := by
  unfold State.showRunning
  extract_lets -merge +onlyGivenNames v1
  clear_value v1
  exact State.wr_in (hM.of rfl) h

theorem State.suspAlarm_in (hM : Incl 0x45611210080463c M) (h : Within M s x) : Within M s (State.suspAlarm x) := by
  unfold State.suspAlarm
  exact State.stdAlarm_in (hM.of rfl) h

theorem State.islAlarm_in (hM : Incl 0x45611210080463c M) (h : Within M s x) : Within M s (State.islAlarm x) := by
  unfold State.islAlarm
  exact State.stdAlarm_in (hM.of rfl) h

theorem State.showGrp_in {p2} (hM : Incl 0x1045615210088463c M) (h : Within M s x) : Within M s (State.showGrp x p2) := by
  unfold State.showGrp
  extract_lets -merge +onlyGivenNames v1 v2 v3 v4
  clear_value v1 v2 v3 v4
  extract_lets -merge +onlyGivenNames v5
  have h6 : Within M s v5 := State.wr_in (hM.of rfl) (State.wr_in (hM.of rfl) (State.wr_in (hM.of rfl) (State.setFlag_in (hM.of rfl) (hM.of rfl) (State.wr_in (hM.of rfl) h))))
  clear_value v5
  extract_lets -merge +onlyGivenNames v7
  have h8 : Within M s v7 := State.wr_in (hM.of rfl) (State.wr_in (hM.of rfl) h6)
  clear_value v7
  extract_lets -merge +onlyGivenNames v9
  have h10 : Within M s v9 := by
    unfold v9
    refine Within.forEach ?_ (fun y11 y12 h13 => ?_)
    · exact h8
    · extract_lets -merge +onlyGivenNames v14 v15 v16
      clear_value v14 v15 v16
      extract_lets -merge +onlyGivenNames v17
      have h18 : Within M s v17 := State.setFlag_in (hM.of rfl) (hM.of rfl) (State.setFlag_in (hM.of rfl) (hM.of rfl) (State.setFlag_in (hM.of rfl) (hM.of rfl) h13))
      clear_value v17
      exact State.wr_in (hM.of rfl) (State.wr_in (hM.of rfl) h18)
  clear_value v9
  extract_lets -merge +onlyGivenNames v19
  have h20 : Within M s v19 := by
    unfold v19
    refine Within.ite ?_ (fun _ => ?_)
    · exact h10
    · exact State.oscNotice_in (hM.of rfl) h10
  clear_value v19
  extract_lets -merge +onlyGivenNames v21
  have h22 : Within M s v21 := by
    unfold v21
    refine Within.ite ?_ (fun _ => ?_)
    · exact h20
    · exact State.oscNotice_in (hM.of rfl) h20
  clear_value v21
  exact State.suspAlarm_in (hM.of rfl) (State.showRunning_in (hM.of rfl) h22)

theorem State.quietChan_in {p2} (hM : Incl 0x10000000000000000 M) (h : Within M s x) : Within M s (State.quietChan x p2) := by
  unfold State.quietChan
  refine Within.ite ?_ (fun _ => ?_)
  · exact State.wr_in (hM.of rfl) (State.setFlag_in (hM.of rfl) (hM.of rfl) (State.setFlag_in (hM.of rfl) (hM.of rfl) (State.setFlag_in (hM.of rfl) (hM.of rfl) h)))
  · exact h

theorem State.checkpoint_in {p2} (hM : Incl 0x80000 M) (h : Within M s x) : Within M s (State.checkpoint x p2) := by
  unfold State.checkpoint
  exact Within.set_osc h (hM.of rfl)

theorem State.resumeGrp_in {p2} (hM : Incl 0x80000 M) (h : Within M s x) : Within M s (State.resumeGrp x p2) := by
  unfold State.resumeGrp
  split
  · refine Within.ite ?_ (fun _ => ?_)
    · exact State.setGrp_in (hM.of rfl) h
    · exact State.setGrp_in (hM.of rfl) h
  · exact State.setGrp_in (hM.of rfl) h

theorem State.clearDef_in (hM : Incl 0x180000040000000000 M) (h : Within M s x) : Within M s (State.clearDef x) := by
  unfold State.clearDef
  extract_lets -merge +onlyGivenNames v1
  clear_value v1
  extract_lets -merge +onlyGivenNames v2
  have h3 : Within M s v2 := by
    unfold v2
    refine Within.forEach ?_ (fun y4 y5 h6 => ?_)
    · exact h
    · refine Within.ite ?_ (fun _ => ?_)
      · exact State.put_in (hM.of rfl) h6
      · exact State.put_in (hM.of rfl) h6
  clear_value v2
  exact State.wr_in (hM.of rfl) (State.wr_in (hM.of rfl) (State.setFlag_in (hM.of rfl) (hM.of rfl) h3))

theorem State.defJudge_in {p2} (hM : Incl 0x180410040100880004 M) (h : Within M s x) : Within M s (State.defJudge x p2) := by
  unfold State.defJudge
  extract_lets -merge +onlyGivenNames v1
  have h2 : Within M s v1 := State.wr_in (hM.of rfl) h
  clear_value v1
  refine Within.ite ?_ (fun _ => ?_)
  · extract_lets -merge +onlyGivenNames v3
    have h4 : Within M s v3 := State.notice_in (hM.of rfl) h2
    clear_value v3
    exact State.clearDef_in (hM.of rfl) (Within.set_osc h4 (hM.of rfl))
  · exact h2

theorem State.checkGrp_in {p2} (hM : Incl 0x1045615210088463c M) (h : Within M s x) : Within M s (State.checkGrp x p2) := by
  unfold State.checkGrp
  refine Within.ite ?_ (fun _ => ?_)
  · extract_lets -merge +onlyGivenNames v1
    clear_value v1
    extract_lets -merge +onlyGivenNames v2
    have h3 : Within M s v2 := State.wr_in (hM.of rfl) h
    clear_value v2
    refine Within.ite ?_ (fun _ => ?_)
    · exact State.oscNotice_in (hM.of rfl) (State.wr_in (hM.of rfl) (Within.set_osc h3 (hM.of rfl)))
    · extract_lets -merge +onlyGivenNames v4
      clear_value v4
      extract_lets -merge +onlyGivenNames v5
      have h6 : Within M s v5 := by
        unfold v5
        refine Within.ite ?_ (fun _ => ?_)
        · exact State.setGrp_in (hM.of rfl) (Within.set_osc h3 (hM.of rfl))
        · exact h3
      clear_value v5
      exact State.showGrp_in (hM.of rfl) h6
  · exact State.wr_in (hM.of rfl) (State.wr_in (hM.of rfl) h)

theorem State.checkIsl_in (hM : Incl 0x410080100900004 M) (h : Within M s x) : Within M s (State.checkIsl x) := by
  unfold State.checkIsl
  refine Within.ite ?_ (fun _ => ?_)
  · extract_lets -merge +onlyGivenNames v1
    clear_value v1
    extract_lets -merge +onlyGivenNames v2
    have h3 : Within M s v2 := State.wr_in (hM.of rfl) h
    clear_value v2
    refine Within.ite ?_ (fun _ => ?_)
    · exact State.notice_in (hM.of rfl) (State.wr_in (hM.of rfl) h3)
    · extract_lets -merge +onlyGivenNames v4 v5
      clear_value v4 v5
      extract_lets -merge +onlyGivenNames v6
      have h7 : Within M s v6 := by
        unfold v6
        refine Within.ite ?_ (fun _ => ?_)
        · exact Within.set_isl h3 (hM.of rfl)
        · exact h3
      clear_value v6
      exact State.wr_in (hM.of rfl) h7
  · exact State.wr_in (hM.of rfl) (State.wr_in (hM.of rfl) h)

theorem State.checkAnalysis_in (hM : Incl 0x1904561d210098463c M) (h : Within M s x) : Within M s (State.checkAnalysis x) := by
  unfold State.checkAnalysis
  extract_lets -merge +onlyGivenNames v1
  have h2 : Within M s v1 := by
    unfold v1
    refine Within.forEach ?_ (fun y3 y4 h5 => ?_)
    · exact h
    · exact State.checkGrp_in (hM.of rfl) h5
  clear_value v1
  extract_lets -merge +onlyGivenNames v6
  have h7 : Within M s v6 := by
    unfold v6
    refine Within.forEach ?_ (fun y8 y9 h10 => ?_)
    · exact h2
    · exact State.quietChan_in (hM.of rfl) h10
  clear_value v6
  extract_lets -merge +onlyGivenNames v11
  have h12 : Within M s v11 := State.suspAlarm_in (hM.of rfl) (State.showRunning_in (hM.of rfl) h7)
  clear_value v11
  extract_lets -merge +onlyGivenNames v13
  have h14 : Within M s v13 := State.defJudge_in (hM.of rfl) h12
  clear_value v13
  extract_lets -merge +onlyGivenNames v15
  clear_value v15
  extract_lets -merge +onlyGivenNames v16
  have h17 : Within M s v16 := Within.set_osc h14 (hM.of rfl)
  clear_value v16
  exact State.islAlarm_in (hM.of rfl) (State.checkIsl_in (hM.of rfl) h17)

theorem State.setAcqPt_in {p2} {p3} (hM : Incl 0x8000 M) (h : Within M s x) : Within M s (State.setAcqPt x p2 p3) := by
  unfold State.setAcqPt
  exact Within.set_acq h (hM.of rfl)

theorem State.setAcqLs_in {p2} {p3} (hM : Incl 0x8000 M) (h : Within M s x) : Within M s (State.setAcqLs x p2 p3) := by
  unfold State.setAcqLs
  exact Within.set_acq h (hM.of rfl)

theorem State.tauSeen_in {p2} {p3} (hM : Incl 0x200000000000 M) (h : Within M s x) : Within M s (State.tauSeen x p2 p3) := by
  unfold State.tauSeen
  refine Within.ite ?_ (fun _ => ?_)
  · exact h
  · exact State.setFlag_in (hM.of rfl) (hM.of rfl) h

theorem State.showFading_in {p2} (hM : Incl 0x200000000000 M) (h : Within M s x) : Within M s (State.showFading x p2) := by
  unfold State.showFading
  exact State.setFlag_in (hM.of rfl) (hM.of rfl) h

theorem State.calDone_in (hM : Incl 0x410200100808004 M) (h : Within M s x) : Within M s (State.calDone x) := by
  unfold State.calDone
  refine Within.ite ?_ (fun _ => ?_)
  · exact h
  · exact State.notice_in (hM.of rfl) (State.wr_in (hM.of rfl) (Within.set_acq h (hM.of rfl)))

theorem State.showLs_in {p2} (hM : Incl 0x2000000000000000 M) (h : Within M s x) : Within M s (State.showLs x p2) := by
  unfold State.showLs
  exact State.wr_in (hM.of rfl) h

theorem State.nameLs_in {p2} (hM : Incl 0x2000000000000000 M) (h : Within M s x) : Within M s (State.nameLs x p2) := by
  unfold State.nameLs
  extract_lets -merge +onlyGivenNames v1
  clear_value v1
  exact State.wr_in (hM.of rfl) (State.wr_in (hM.of rfl) (State.wr_in (hM.of rfl) (State.wr_in (hM.of rfl) h)))

theorem State.lsChanged_in {p2} (hM : Incl 0x2000200000008000 M) (h : Within M s x) : Within M s (State.lsChanged x p2) := by
  unfold State.lsChanged
  exact State.setAcqLs_in (hM.of rfl) (State.nameLs_in (hM.of rfl) (State.inc_in (hM.of rfl) (hM.of rfl) h))

theorem State.cfgLoaded_in {p2} {p3} (hM : Incl 0x2000200000008000 M) (h : Within M s x) : Within M s (State.cfgLoaded x p2 p3) := by
  unfold State.cfgLoaded
  refine Within.ite ?_ (fun _ => ?_)
  · exact h
  · refine Within.forEach ?_ (fun y1 y2 h3 => ?_)
    · exact h
    · exact State.lsChanged_in (hM.of rfl) h3

theorem State.checkLs_in {p2} (hM : Incl 0x2410200100800004 M) (h : Within M s x) : Within M s (State.checkLs x p2) := by
  unfold State.checkLs
  refine Within.ite ?_ (fun _ => ?_)
  · exact State.showLs_in (hM.of rfl) (State.wr_in (hM.of rfl) h)
  · extract_lets -merge +onlyGivenNames v1
    clear_value v1
    extract_lets -merge +onlyGivenNames v2
    have h3 : Within M s v2 := State.wr_in (hM.of rfl) h
    clear_value v2
    refine State.showLs_in (hM.of rfl) ?_
    refine Within.ite ?_ (fun _ => ?_)
    · exact State.notice_in (hM.of rfl) h3
    · exact h3

theorem State.startPt_in {p2} (hM : Incl 0x200000008000 M) (h : Within M s x) : Within M s (State.startPt x p2) := by
  unfold State.startPt
  refine Within.ite ?_ (fun _ => ?_)
  · exact h
  · extract_lets -merge +onlyGivenNames v1 v2 v3 v4
    clear_value v1 v2 v3 v4
    extract_lets -merge +onlyGivenNames v5
    have h6 : Within M s v5 := State.setAcqPt_in (hM.of rfl) h
    clear_value v5
    exact State.wr_in (hM.of rfl) (State.wr_in (hM.of rfl) (State.tauSeen_in (hM.of rfl) h6))

theorem State.stopPt_in {p2} (hM : Incl 0x200000008000 M) (h : Within M s x) : Within M s (State.stopPt x p2) := by
  unfold State.stopPt
  extract_lets -merge +onlyGivenNames v1 v2
  clear_value v1 v2
  extract_lets -merge +onlyGivenNames v3
  have h4 : Within M s v3 := State.showFading_in (hM.of rfl) (State.setFlag_in (hM.of rfl) (hM.of rfl) (State.setAcqPt_in (hM.of rfl) h))
  clear_value v3
  refine Within.forEach ?_ (fun y5 y6 h7 => ?_)
  · exact h4
  · exact State.setFlag_in (hM.of rfl) (hM.of rfl) (State.setAcqLs_in (hM.of rfl) h7)

theorem State.acqEnter_in (hM : Incl 0x2410200100808004 M) (h : Within M s x) : Within M s (State.acqEnter x) := by
  unfold State.acqEnter
  extract_lets -merge +onlyGivenNames v1
  have h2 : Within M s v1 := by
    unfold v1
    refine Within.forEach ?_ (fun y3 y4 h5 => ?_)
    · exact h
    · exact State.startPt_in (hM.of rfl) h5
  clear_value v1
  refine Within.forEach ?_ (fun y6 y7 h8 => ?_)
  · exact h2
  · exact State.checkLs_in (hM.of rfl) (State.setAcqLs_in (hM.of rfl) h8)

theorem State.acqLeave_in (hM : Incl 0x2410200100808004 M) (h : Within M s x) : Within M s (State.acqLeave x) := by
  unfold State.acqLeave
  extract_lets -merge +onlyGivenNames v1
  have h2 : Within M s v1 := by
    unfold v1
    refine Within.forEach ?_ (fun y3 y4 h5 => ?_)
    · exact h
    · exact State.stopPt_in (hM.of rfl) h5
  clear_value v1
  extract_lets -merge +onlyGivenNames v6
  have h7 : Within M s v6 := by
    unfold v6
    refine Within.forEach ?_ (fun y8 y9 h10 => ?_)
    · exact h2
    · exact State.showLs_in (hM.of rfl) (State.setFlag_in (hM.of rfl) (hM.of rfl) (State.setAcqLs_in (hM.of rfl) h10))
  clear_value v6
  exact State.calDone_in (hM.of rfl) (Within.set_acq h7 (hM.of rfl))

theorem State.setNrgPt_in {p2} {p3} (hM : Incl 0x10000 M) (h : Within M s x) : Within M s (State.setNrgPt x p2 p3) := by
  unfold State.setNrgPt
  exact Within.set_nrg h (hM.of rfl)

theorem State.nrgOffer_in {p2} {p3} {p4} (hM : Incl 0x45041010080001c M) (h : Within M s x) : Within M s (State.nrgOffer x p2 p3 p4) := by
  unfold State.nrgOffer
  extract_lets -merge +onlyGivenNames v1
  have h2 : Within M s v1 := State.inc_in (hM.of rfl) (hM.of rfl) h
  clear_value v1
  exact State.offer_in (hM.of rfl) h2

theorem State.pqEnd_in {p2} {p3} {p4} {p5} (hM : Incl 0x45041010081001c M) (h : Within M s x) : Within M s (State.pqEnd x p2 p3 p4 p5) := by
  unfold State.pqEnd
  extract_lets -merge +onlyGivenNames v1
  clear_value v1
  split
  · exact h
  · extract_lets -merge +onlyGivenNames v2
    have h3 : Within M s v2 := State.setFlag_in (hM.of rfl) (sub_ite (hM.of rfl) (sub_ite (hM.of rfl) (hM.of rfl))) (State.setNrgPt_in (hM.of rfl) h)
    clear_value v2
    extract_lets -merge +onlyGivenNames v4
    clear_value v4
    exact State.notice_in (hM.of rfl) (State.nrgOffer_in (hM.of rfl) h3)

theorem State.pqEndAll_in {p2} {p3} (hM : Incl 0x45041010081001c M) (h : Within M s x) : Within M s (State.pqEndAll x p2 p3) := by
  unfold State.pqEndAll
  refine Within.forEach ?_ (fun y1 y2 h3 => ?_)
  · exact h
  · exact State.pqEnd_in (hM.of rfl) h3

theorem State.intCheck_in (hM : Incl 0x410000100800004 M) (h : Within M s x) : Within M s (State.intCheck x) := by
  unfold State.intCheck
  extract_lets -merge +onlyGivenNames v1
  clear_value v1
  refine Within.ite ?_ (fun _ => ?_)
  · exact State.logEvent_in (hM.of rfl) h
  · exact h

theorem State.snapFinish_in {p2} (hM : Incl 0x410400100800004 M) (h : Within M s x) : Within M s (State.snapFinish x p2) := by
  unfold State.snapFinish
  refine Within.ite ?_ (fun _ => ?_)
  · exact h
  · exact State.notice_in (hM.of rfl) (State.wr_in (hM.of rfl) h)

theorem State.nrgOff_in {p2} (hM : Incl 0x410400100810004 M) (h : Within M s x) : Within M s (State.nrgOff x p2) := by
  unfold State.nrgOff
  refine Within.ite ?_ (fun _ => ?_)
  · exact h
  · exact State.snapFinish_in (hM.of rfl) (State.setNrgPt_in (hM.of rfl) h)

theorem State.nrgLeave_in (hM : Incl 0x45041010081001c M) (h : Within M s x) : Within M s (State.nrgLeave x) := by
  unfold State.nrgLeave
  refine Within.forEach ?_ (fun y1 y2 h3 => ?_)
  · exact h
  · extract_lets -merge +onlyGivenNames v4
    have h5 : Within M s v4 := State.pqEndAll_in (hM.of rfl) h3
    clear_value v4
    exact State.setFlag_in (hM.of rfl) (hM.of rfl) (State.setNrgPt_in (hM.of rfl) h5)

theorem State.setCapUnit_in {p2} {p3} (hM : Incl 0x20000 M) (h : Within M s x) : Within M s (State.setCapUnit x p2 p3) := by
  unfold State.setCapUnit
  exact Within.set_cap h (hM.of rfl)

theorem State.showSegs_in {p2} (hM : Incl 0x800000000000 M) (h : Within M s x) : Within M s (State.showSegs x p2) := by
  unfold State.showSegs
  extract_lets -merge +onlyGivenNames v1
  clear_value v1
  extract_lets -merge +onlyGivenNames v2
  have h3 : Within M s v2 := State.wr_in (hM.of rfl) h
  clear_value v2
  exact State.wr_in (hM.of rfl) (State.wr_in (hM.of rfl) h3)

theorem State.readArm_in (hM : Incl 0x800001000000 M) (h : Within M s x) : Within M s (State.readArm x) := by
  unfold State.readArm
  refine Within.ite ?_ (fun _ => ?_)
  · split
    rename_i z1 z2 z3 z4
    have h5 : Within M s z3 := Within.of_snd z4 (State.draw_in (hM.of rfl) h)
    exact State.setFlag_in (hM.of rfl) (hM.of rfl) h5
  · exact State.setFlag_in (hM.of rfl) (hM.of rfl) h

theorem State.armFollow_in {p2} (hM : Incl 0x800001000000 M) (h : Within M s x) : Within M s (State.armFollow x p2) := by
  unfold State.armFollow
  refine Within.ite ?_ (fun _ => ?_)
  · refine Within.ite ?_ (fun _ => ?_)
    · exact h
    · exact State.readArm_in (hM.of rfl) h
  · exact State.setFlag_in (hM.of rfl) (hM.of rfl) h

theorem State.setCapState_in {p2} {p3} (hM : Incl 0x800001000000 M) (h : Within M s x) : Within M s (State.setCapState x p2 p3) := by
  unfold State.setCapState
  exact State.armFollow_in (hM.of rfl) (State.showSegs_in (hM.of rfl) (State.wr_in (hM.of rfl) h))

theorem State.capOff_in {p2} (hM : Incl 0x800001020000 M) (h : Within M s x) : Within M s (State.capOff x p2) := by
  unfold State.capOff
  exact State.setCapState_in (hM.of rfl) (State.setCapUnit_in (hM.of rfl) h)

theorem State.capFill_in {p2} (hM : Incl 0x800001020000 M) (h : Within M s x) : Within M s (State.capFill x p2) := by
  unfold State.capFill
  exact State.setCapState_in (hM.of rfl) (State.setCapUnit_in (hM.of rfl) h)

theorem State.checkCap_in (hM : Incl 0x410800101820004 M) (h : Within M s x) : Within M s (State.checkCap x) := by
  unfold State.checkCap
  extract_lets -merge +onlyGivenNames v1
  have h2 : Within M s v1 := by
    unfold v1
    refine Within.forEach ?_ (fun y3 y4 h5 => ?_)
    · exact h
    · exact State.setCapUnit_in (hM.of rfl) h5
  clear_value v1
  extract_lets -merge +onlyGivenNames v6
  clear_value v6
  extract_lets -merge +onlyGivenNames v7
  have h8 : Within M s v7 := Within.set_cap h2 (hM.of rfl)
  clear_value v7
  refine Within.forEach ?_ (fun y9 y10 h11 => ?_)
  · exact h8
  · refine Within.ite ?_ (fun _ => ?_)
    · exact State.setCapState_in (hM.of rfl) (State.wr_in (hM.of rfl) h11)
    · extract_lets -merge +onlyGivenNames v12
      clear_value v12
      extract_lets -merge +onlyGivenNames v13
      have h14 : Within M s v13 := State.wr_in (hM.of rfl) h11
      clear_value v13
      refine Within.ite ?_ (fun _ => ?_)
      · exact State.notice_in (hM.of rfl) (State.setCapState_in (hM.of rfl) h14)
      · refine Within.ite ?_ (fun _ => ?_)
        · exact State.showSegs_in (hM.of rfl) h14
        · exact State.setCapState_in (hM.of rfl) h14

theorem State.capEnter_in (hM : Incl 0x800001020000 M) (h : Within M s x) : Within M s (State.capEnter x) := by
  unfold State.capEnter
  extract_lets -merge +onlyGivenNames v1
  have h2 : Within M s v1 := by
    unfold v1
    refine Within.forEach ?_ (fun y3 y4 h5 => ?_)
    · exact h
    · refine Within.ite ?_ (fun _ => ?_)
      · exact h5
      · exact State.capFill_in (hM.of rfl) h5
  clear_value v1
  exact State.readArm_in (hM.of rfl) h2

theorem State.showLines_in (hM : Incl 0x800001000000 M) (h : Within M s x) : Within M s (State.showLines x) := by
  unfold State.showLines
  exact State.readArm_in (hM.of rfl) (State.setFlag_in (hM.of rfl) (hM.of rfl) (State.setFlag_in (hM.of rfl) (hM.of rfl) h))

theorem State.capLeave_in (hM : Incl 0x800001020000 M) (h : Within M s x) : Within M s (State.capLeave x) := by
  unfold State.capLeave
  extract_lets -merge +onlyGivenNames v1
  have h2 : Within M s v1 := by
    unfold v1
    refine Within.forEach ?_ (fun y3 y4 h5 => ?_)
    · exact h
    · refine Within.ite ?_ (fun _ => ?_)
      · exact State.capOff_in (hM.of rfl) h5
      · exact h5
  clear_value v1
  exact State.showLines_in (hM.of rfl) (Within.set_cap h2 (hM.of rfl))

theorem State.capFilled_in {p2} (hM : Incl 0x800001020000 M) (h : Within M s x) : Within M s (State.capFilled x p2) := by
  unfold State.capFilled
  refine Within.forEach ?_ (fun y1 y2 h3 => ?_)
  · exact h
  · refine Within.ite ?_ (fun _ => ?_)
    · exact h3
    · exact State.capFill_in (hM.of rfl) h3

theorem State.saveRec_in (hM : Incl 0x1000 M) (h : Within M s x) : Within M s (State.saveRec x) := by
  unfold State.saveRec
  extract_lets -merge +onlyGivenNames v1 v2
  clear_value v1 v2
  refine Within.ite ?_ (fun _ => ?_)
  · exact Within.set_strt h (hM.of rfl)
  · exact Within.set_strt h (hM.of rfl)

theorem State.sorterOff_in {p2} (hM : Incl 0x200000000000008 M) (h : Within M s x) : Within M s (State.sorterOff x p2) := by
  unfold State.sorterOff
  extract_lets -merge +onlyGivenNames v1
  clear_value v1
  exact State.setSrtHid_in (hM.of rfl) (State.setSrtState_in (hM.of rfl) h)

theorem State.sortersOff_in (hM : Incl 0x200000000000008 M) (h : Within M s x) : Within M s (State.sortersOff x) := by
  unfold State.sortersOff
  refine Within.forEach ?_ (fun y1 y2 h3 => ?_)
  · exact h
  · refine Within.ite ?_ (fun _ => ?_)
    · exact State.sorterOff_in (hM.of rfl) h3
    · exact h3

theorem State.closeRounds_in (hM : Incl 0x80 M) (h : Within M s x) : Within M s (State.closeRounds x) := by
  unfold State.closeRounds
  extract_lets -merge +onlyGivenNames v1
  have h2 : Within M s v1 := by
    unfold v1
    refine Within.forEach ?_ (fun y3 y4 h5 => ?_)
    · exact h
    · exact State.setRnd_in (hM.of rfl) h5
  clear_value v1
  exact Within.set_whl h2 (hM.of rfl)

theorem State.replaceWaiting_in {p2} (hM : Incl 0x845001010080001c M) (h : Within M s x) : Within M s (State.replaceWaiting x p2) := by
  unfold State.replaceWaiting
  exact State.wakeHoles_in (hM.of rfl) (State.tokens_in (hM.of rfl) (State.mapItems_in (hM.of rfl) h))

theorem State.enterRun_in (hM : Incl 0x2450a1010182809c M) (h : Within M s x) : Within M s (State.enterRun x) := by
  unfold State.enterRun
  extract_lets -merge +onlyGivenNames v1
  have h2 : Within M s v1 := State.capEnter_in (hM.of rfl) (State.acqEnter_in (hM.of rfl) (State.closeRounds_in (hM.of rfl) h))
  clear_value v1
  refine Within.forEach ?_ (fun y3 y4 h5 => ?_)
  · exact h2
  · exact State.wake_in (hM.of rfl) h5

theorem State.halfCross_in {p2} {p3} {p4} (hM : Incl 0x10000 M) (h : Within M s x) : Within M s (State.halfCross x p2 p3 p4) := by
  unfold State.halfCross
  extract_lets -merge +onlyGivenNames v1 v2 v3
  clear_value v1 v2 v3
  exact State.setNrgPt_in (hM.of rfl) h

theorem State.halfPlaced_in {p2} {p3} {p4} (hM : Incl 0x10000 M) (h : Within M s x) : Within M s (State.halfPlaced x p2 p3 p4) := by
  unfold State.halfPlaced
  split
  · refine Within.ite ?_ (fun _ => ?_)
    · exact h
    · exact State.halfCross_in (hM.of rfl) h
  · exact h

theorem State.halfSample_in {p2} {p3} {p4} {p5} (hM : Incl 0x10000 M) (h : Within M s x) : Within M s (State.halfSample x p2 p3 p4 p5) := by
  unfold State.halfSample
  extract_lets -merge +onlyGivenNames v1 v2 v3 v4
  clear_value v1 v2 v3 v4
  extract_lets -merge +onlyGivenNames v5
  have h6 : Within M s v5 := State.setNrgPt_in (hM.of rfl) h
  clear_value v5
  split
  · exact State.halfCross_in (hM.of rfl) (State.halfPlaced_in (hM.of rfl) h6)
  · exact State.halfPlaced_in (hM.of rfl) h6

theorem State.halfPush_in {p2} {p3} (hM : Incl 0x10000 M) (h : Within M s x) : Within M s (State.halfPush x p2 p3) := by
  unfold State.halfPush
  refine Within.ite ?_ (fun _ => ?_)
  · exact h
  · refine Within.forEach ?_ (fun y1 y2 h3 => ?_)
    · exact h
    · refine Within.ite ?_ (fun _ => ?_)
      · exact State.halfSample_in (hM.of rfl) h3
      · exact h3

theorem State.withFetchWord_in {p2} {p3} (hM : Incl 0x2000000 M) (h : Within M s x) : Within M s (State.withFetchWord x p2 p3) := by
  unfold State.withFetchWord
  split
  · exact h
  · exact Within.set_pending h (hM.of rfl)

end Sys2Proof.Machine
end

