-- ==== Sys2Proof/Laws/Notices.lean ====
section
/-! SUPPORT. What a notice leaves: its bit is set, no bit of any NOTICE register is cleared by it or by a Logbook event, and only the
notice registers, the Logbook's registers and the vectors change. -/
namespace Sys2Proof.Machine

variable (s : State)

/-- The notice registers do not lie in the MSI-X region. -/
theorem noticeOff_area (b : Nat) : areaOf (noticeOff b) = 0 := areaOf_noticeOff b 0 (.inl rfl)

theorem noticeOff_ne_sum (b : Nat) : noticeOff b ≠ 0x30 := by
  unfold noticeOff
  split
  · decide
  · split <;> omega

theorem State.raiseVector_word (v b : Nat) : (s.raiseVector v).word (noticeOff b) = s.word (noticeOff b) := by
  have h : Within 0x400000000800000 s (s.raiseVector v) := State.raiseVector_in rfl (.refl s)
  exact h.words _ (by rw [noticeOff_area]; decide)

theorem State.refreshSum_word (b : Nat) : s.refreshSum.word (noticeOff b) = s.word (noticeOff b) := by
  unfold State.refreshSum
  exact s.word_wr_off _ (noticeOff_ne_sum b)

/-- A notice's register after it, but for the Logbook event it may write. -/
theorem State.noticeQuiet_word (b bit c : Nat) :
    (s.noticeQuiet b bit).word (noticeOff c) =
      if noticeOff c = noticeOff b then s.word (noticeOff b) ||| BitVec.ofNat 32 (2 ^ bit) else s.word (noticeOff c) := by
  unfold State.noticeQuiet
  dsimp only
  have key : ∀ t : State, t.word (noticeOff c) =
      (if noticeOff c = noticeOff b then s.word (noticeOff b) ||| BitVec.ofNat 32 (2 ^ bit) else s.word (noticeOff c)) →
      (if (t.word (noticeOff b + 4)).getLsbD bit then t.raiseVector ((t.word (noticeOff b + 8)).toNat % 64) else t).word (noticeOff c) =
      (if noticeOff c = noticeOff b then s.word (noticeOff b) ||| BitVec.ofNat 32 (2 ^ bit) else s.word (noticeOff c)) := by
    intro t h
    split
    · rw [State.raiseVector_word, h]
    · exact h
  refine key _ ?_
  rw [State.refreshSum_word]
  split
  · rename_i e; rw [e, State.word_setWord]
  · rename_i e; exact State.word_setWord_ne _ _ e

theorem bit_or (w : Word) (bit i : Nat) (h : w.getLsbD i = true) : (w ||| BitVec.ofNat 32 (2 ^ bit)).getLsbD i = true := by
  rw [BitVec.getLsbD_or, h, Bool.true_or]

/-- No notice clears a bit of a NOTICE register. -/
theorem State.noticeQuiet_keepsBit (b bit c i : Nat) (h : (s.word (noticeOff c)).getLsbD i = true) :
    ((s.noticeQuiet b bit).word (noticeOff c)).getLsbD i = true := by
  rw [State.noticeQuiet_word]
  split
  · rename_i e; rw [e] at h; exact bit_or _ _ _ h
  · exact h

/-- No Logbook event clears a bit of a NOTICE register. -/
theorem State.logPut_keepsBit (e : LogEv) (c i : Nat) (h : (s.word (noticeOff c)).getLsbD i = true) :
    ((s.logPut e).word (noticeOff c)).getLsbD i = true := by
  have wrOk : ∀ (t : State) (f : Fld) (idx : List Nat) (v : Nat), areaOf (f.off idx) ≠ 0 → (t.wr f idx v).word (noticeOff c) = t.word (noticeOff c) := by
    intro t f idx v hf
    exact t.word_wr_off v fun e => hf (by rw [← e]; exact noticeOff_area c)
  have stage : ∀ l : LogSt, ((({ s with log := l } : State).staged).word (noticeOff c)).getLsbD i = true := by
    intro l
    unfold State.staged
    rw [wrOk _ _ _ _ (by decide)]; exact h
  have lost : ∀ l : LogSt, (((({ s with log := l } : State).inc Reg.LOG_LOST_COUNT []).noticeQuiet bLOG 2).word (noticeOff c)).getLsbD i = true := by
    intro l
    refine State.noticeQuiet_keepsBit _ _ _ _ _ ?_
    unfold State.inc
    rw [wrOk _ _ _ _ (by decide)]; exact h
  unfold State.logPut
  extract_lets sealed l1 fresh
  have hf : (fresh.word (noticeOff c)).getLsbD i = true := by
    unfold fresh
    split
    · exact stage _
    · exact lost _
  clear_value fresh sealed
  split
  · split
    · exact hf
    · extract_lets n
      split
      · exact h
      · exact hf
  · split
    · exact h
    · exact hf

/-- A notice sets its bit (R14). -/
theorem State.notice_bit {b bit : Nat} (d0 d1 d2 : Nat) (hbit : bit < 32) :
    ((s.notice b bit d0 d1 d2).word (noticeOff b)).getLsbD bit = true := by
  have q : ((s.noticeQuiet b bit).word (noticeOff b)).getLsbD bit = true := by
    rw [State.noticeQuiet_word, if_pos rfl, BitVec.getLsbD_or, BitVec.getLsbD_ofNat, Nat.testBit_two_pow_self]
    simp [hbit]
  unfold State.notice
  split
  · exact State.logPut_keepsBit _ _ _ _ q
  · exact q

/-- No notice clears a bit of a NOTICE register. -/
theorem State.notice_keepsBit (b bit d0 d1 d2 c i : Nat) (h : (s.word (noticeOff c)).getLsbD i = true) :
    ((s.notice b bit d0 d1 d2).word (noticeOff c)).getLsbD i = true := by
  unfold State.notice
  split
  · exact State.logPut_keepsBit _ _ _ _ (State.noticeQuiet_keepsBit _ _ _ _ _ h)
  · exact State.noticeQuiet_keepsBit _ _ _ _ _ h

/-- After a notice that marks only the first event its bit is set too. -/
theorem State.noticeFirst_bit {b bit : Nat} (d0 d1 d2 : Nat) (hbit : bit < 32) :
    ((s.noticeFirst b bit d0 d1 d2).word (noticeOff b)).getLsbD bit = true := by
  unfold State.noticeFirst
  split
  · rename_i h; exact h
  · exact State.notice_bit s d0 d1 d2 hbit

/-- What a notice may change: the Logbook's state, the outputs, and words of the notice registers, LOG and the MSI-X region. -/
theorem State.notice_within (b bit d0 d1 d2 : Nat) : Within 0x410000100800004 s (s.notice b bit d0 d1 d2) :=
  State.notice_in rfl (.refl s)

/-- A register field outside those areas reads as before a notice. -/
theorem State.rd_notice (b bit d0 d1 d2 : Nat) {f : Fld} {idx : List Nat} (ok : idxOk f.dims idx = true) (fits : f.fits = true)
    (out : (0x410000100800004 : Nat).testBit (32 + areaOf f.base) = false) : (s.notice b bit d0 d1 d2).rd f idx = s.rd f idx :=
  (s.notice_within b bit d0 d1 d2).rd ok fits out

theorem State.flag_notice (b bit d0 d1 d2 : Nat) {f : Fld} {idx : List Nat} (ok : idxOk f.dims idx = true) (fits : f.fits = true)
    (out : (0x410000100800004 : Nat).testBit (32 + areaOf f.base) = false) : (s.notice b bit d0 d1 d2).flag f idx = s.flag f idx :=
  (s.notice_within b bit d0 d1 d2).flag ok fits out

/-- Every part but the Logbook's state and the outputs is as before a notice. -/
theorem State.notice_part (b bit d0 d1 d2 : Nat) (p : Part) (h : p ≠ .log) (k : p ≠ .out) : p.same s (s.notice b bit d0 d1 d2) :=
  (s.notice_within b bit d0 d1 d2).parts p (by cases p <;> first | rfl | exact absurd rfl h | exact absurd rfl k)

end Sys2Proof.Machine
end

