-- ==== Sys2Proof/Laws/WithinMode.lean ====
section
/-! SUPPORT. What each operation and each meaning may change: modes, time, Rounds and descriptors. -/
namespace Sys2Proof.Machine

variable {M : Nat} {s x : State}

theorem State.modeWord_in {p2} {p3} (hM : Incl 0x200000000 M) (h : Within M s x) : Within M s (State.modeWord x p2 p3) := by
  unfold State.modeWord
  extract_lets -merge +onlyGivenNames v1 v2 v3
  clear_value v1 v2 v3
  exact State.setWord_in (hM.of rfl) h

theorem State.showDebug_in (hM : Incl 0x4000000000000 M) (h : Within M s x) : Within M s (State.showDebug x) := by
  unfold State.showDebug
  extract_lets -merge +onlyGivenNames v1
  clear_value v1
  exact State.setFlag_in (hM.of rfl) (hM.of rfl) h

theorem State.partnerAlarm_in (hM : Incl 0x45611210080463c M) (h : Within M s x) : Within M s (State.partnerAlarm x) := by
  unfold State.partnerAlarm
  extract_lets -merge +onlyGivenNames v1
  clear_value v1
  exact State.stdAlarm_in (hM.of rfl) h

theorem State.clkSet_in (hM : Incl 0x41000010080000c M) (h : Within M s x) : Within M s (State.clkSet x) := by
  unfold State.clkSet
  extract_lets -merge +onlyGivenNames v1
  clear_value v1
  refine Within.ite ?_ (fun _ => ?_)
  · exact State.notice_in (hM.of rfl) (Within.set_sof h (hM.of rfl))
  · exact h

theorem State.runRest_in (hM : Incl 0x865001010080081c M) (h : Within M s x) : Within M s (State.runRest x) := by
  unfold State.runRest
  refine Within.ite ?_ (fun _ => ?_)
  · exact h
  · exact State.replaceWaiting_in (hM.of rfl) (State.sortersOff_in (hM.of rfl) (Within.set_glb h (hM.of rfl)))

theorem State.runCheck_in (hM : Incl 0x865001010080081c M) (h : Within M s x) : Within M s (State.runCheck x) := by
  unfold State.runCheck
  refine Within.ite ?_ (fun _ => ?_)
  · refine Within.ite ?_ (fun _ => ?_)
    · exact State.runRest_in (hM.of rfl) h
    · refine Within.forEach ?_ (fun y1 y2 h3 => ?_)
      · exact Within.set_glb h (hM.of rfl)
      · exact State.wake_in (hM.of rfl) h3
  · exact h

theorem State.reqEnd_in {p2} {p3} (hM : Incl 0x410000300800804 M) (h : Within M s x) : Within M s (State.reqEnd x p2 p3) := by
  unfold State.reqEnd
  extract_lets -merge +onlyGivenNames v1
  clear_value v1
  extract_lets -merge +onlyGivenNames v2
  have h3 : Within M s v2 := Within.set_glb h (hM.of rfl)
  clear_value v2
  exact State.notice_in (hM.of rfl) (State.wr_in (hM.of rfl) (State.wr_in (hM.of rfl) h3))

theorem State.switchStart_in {p2} (hM : Incl 0x804000 M) (h : Within M s x) : Within M s (State.switchStart x p2) := by
  unfold State.switchStart
  extract_lets -merge +onlyGivenNames v1 v2 v3
  clear_value v1 v2 v3
  extract_lets -merge +onlyGivenNames v4
  have h5 : Within M s v4 := Within.set_pair h (hM.of rfl)
  clear_value v4
  exact State.plkSend_in (hM.of rfl) h5

theorem State.refreshScore_in (hM : Incl 0x2000000004000 M) (h : Within M s x) : Within M s (State.refreshScore x) := by
  unfold State.refreshScore
  extract_lets -merge +onlyGivenNames v1 v2 v3 v4
  clear_value v1 v2 v3 v4
  exact State.weighRoles_in (hM.of rfl) (State.wr_in (hM.of rfl) (State.wr_in (hM.of rfl) h))

theorem State.showDeg_in (hM : Incl 0x45611230080463c M) (h : Within M s x) : Within M s (State.showDeg x) := by
  unfold State.showDeg
  extract_lets -merge +onlyGivenNames v1
  subst v1
  extract_lets -merge +onlyGivenNames v2 v3
  clear_value v2 v3
  extract_lets -merge +onlyGivenNames v4
  subst v4
  extract_lets -merge +onlyGivenNames v5
  have h6 : Within M s v5 := State.setFlag_in (hM.of rfl) (hM.of rfl) (State.setWord_in (hM.of rfl) h)
  clear_value v5
  extract_lets -merge +onlyGivenNames v7
  have h8 : Within M s v7 := by
    unfold v7
    refine Within.ite ?_ (fun _ => ?_)
    · exact State.refreshScore_in (hM.of rfl) (State.notice_in (hM.of rfl) h6)
    · exact State.refreshScore_in (hM.of rfl) h
  clear_value v7
  exact State.stdAlarm_in (hM.of rfl) (State.stdAlarm_in (hM.of rfl) h8)

theorem State.fenceMark_in {p2} (hM : Incl 0x61000010080000c M) (h : Within M s x) : Within M s (State.fenceMark x p2) := by
  unfold State.fenceMark
  extract_lets -merge +onlyGivenNames v1
  clear_value v1
  extract_lets -merge +onlyGivenNames v2
  have h3 : Within M s v2 := State.notice_in (hM.of rfl) (State.sorterOff_in (hM.of rfl) (State.wr_in (hM.of rfl) h))
  clear_value v2
  exact Within.set_sof h3 (hM.of rfl)

theorem State.steerFrame_in {p2} (hM : Incl 0x800000 M) (h : Within M s x) : Within M s (State.steerFrame x p2) := by
  unfold State.steerFrame
  extract_lets -merge +onlyGivenNames v1 v2
  clear_value v1 v2
  exact State.emit_in (hM.of rfl) h

theorem State.steer_in {p2} (hM : Incl 0x801800100 M) (h : Within M s x) : Within M s (State.steer x p2) := by
  unfold State.steer
  extract_lets -merge +onlyGivenNames v1 v2
  clear_value v1 v2
  extract_lets -merge +onlyGivenNames v3
  have h4 : Within M s v3 := Within.set_tb h (hM.of rfl)
  clear_value v3
  extract_lets -merge +onlyGivenNames v5
  have h6 : Within M s v5 := State.wr_in (hM.of rfl) h4
  clear_value v5
  extract_lets -merge +onlyGivenNames v7
  have h8 : Within M s v7 := by
    unfold v7
    refine Within.ite ?_ (fun _ => ?_)
    · exact Within.set_free h6 (hM.of rfl)
    · exact State.wr_in (hM.of rfl) h4
  clear_value v7
  exact State.steerFrame_in (hM.of rfl) h8

theorem State.tbRefresh_in (hM : Incl 0x45611290080473c M) (h : Within M s x) : Within M s (State.tbRefresh x) := by
  unfold State.tbRefresh
  extract_lets -merge +onlyGivenNames v1 v2
  clear_value v1 v2
  extract_lets -merge +onlyGivenNames v3
  have h4 : Within M s v3 := State.setFlag_in (hM.of rfl) (hM.of rfl) (State.wr_in (hM.of rfl) (State.wr_in (hM.of rfl) (State.wr_in (hM.of rfl) (State.wr_in (hM.of rfl) h))))
  clear_value v3
  extract_lets -merge +onlyGivenNames v5
  have h6 : Within M s v5 := State.setFlag_in (hM.of rfl) (hM.of rfl) h4
  clear_value v5
  extract_lets -merge +onlyGivenNames v7
  clear_value v7
  extract_lets -merge +onlyGivenNames v8
  have h9 : Within M s v8 := by
    unfold v8
    split
    · refine Within.ite ?_ (fun _ => ?_)
      · exact h4
      · exact Within.set_tb h6 (hM.of rfl)
    · exact h4
  clear_value v8
  exact State.stdAlarm_in (hM.of rfl) (State.stdAlarm_in (hM.of rfl) h9)

theorem State.setTb_in {p2} (hM : Incl 0x410000900800104 M) (h : Within M s x) : Within M s (State.setTb x p2) := by
  unfold State.setTb
  extract_lets -merge +onlyGivenNames v1
  clear_value v1
  refine Within.ite ?_ (fun _ => ?_)
  · extract_lets -merge +onlyGivenNames v2
    clear_value v2
    extract_lets -merge +onlyGivenNames v3
    have h4 : Within M s v3 := State.notice_in (hM.of rfl) (State.wr_in (hM.of rfl) h)
    clear_value v3
    extract_lets -merge +onlyGivenNames v5
    have h6 : Within M s v5 := State.wr_in (hM.of rfl) h4
    clear_value v5
    extract_lets -merge +onlyGivenNames v7
    clear_value v7
    extract_lets -merge +onlyGivenNames v8
    have h9 : Within M s v8 := by
      unfold v8
      refine Within.ite ?_ (fun _ => ?_)
      · exact h4
      · exact Within.set_tb h6 (hM.of rfl)
    clear_value v8
    extract_lets -merge +onlyGivenNames v10
    clear_value v10
    extract_lets -merge +onlyGivenNames v11
    have h12 : Within M s v11 := by
      unfold v11
      refine Within.ite ?_ (fun _ => ?_)
      · exact h9
      · exact Within.set_tb h9 (hM.of rfl)
    clear_value v11
    extract_lets -merge +onlyGivenNames v13
    clear_value v13
    extract_lets -merge +onlyGivenNames v14
    have h15 : Within M s v14 := by
      unfold v14
      refine Within.ite ?_ (fun _ => ?_)
      · exact h12
      · exact Within.set_tb h12 (hM.of rfl)
    clear_value v14
    refine Within.ite ?_ (fun _ => ?_)
    · exact h15
    · exact State.notice_in (hM.of rfl) h15
  · exact h

theorem State.setDom_in {p2} {p3} (hM : Incl 0x100 M) (h : Within M s x) : Within M s (State.setDom x p2 p3) := by
  unfold State.setDom
  refine Within.ite ?_ (fun _ => ?_)
  · exact Within.set_tb h (hM.of rfl)
  · exact Within.set_tb h (hM.of rfl)

theorem State.sameDomnum_in (hM : Incl 0x410000100800004 M) (h : Within M s x) : Within M s (State.sameDomnum x) := by
  unfold State.sameDomnum
  extract_lets -merge +onlyGivenNames v1 v2
  clear_value v1 v2
  refine Within.ite ?_ (fun _ => ?_)
  · exact h
  · exact State.logEvent_in (hM.of rfl) h

theorem State.domTo_in {p2} {p3} (hM : Incl 0x410000900800104 M) (h : Within M s x) : Within M s (State.domTo x p2 p3) := by
  unfold State.domTo
  extract_lets -merge +onlyGivenNames v1
  clear_value v1
  refine Within.ite ?_ (fun _ => ?_)
  · extract_lets -merge +onlyGivenNames v2
    have h3 : Within M s v2 := State.notice_in (hM.of rfl) (State.wr_in (hM.of rfl) h)
    clear_value v2
    extract_lets -merge +onlyGivenNames v4 v5
    clear_value v4 v5
    exact State.setDom_in (hM.of rfl) h3
  · exact h

theorem State.domSample_in {p2} {p3} (hM : Incl 0x410000900800104 M) (h : Within M s x) : Within M s (State.domSample x p2 p3).1 := by
  unfold State.domSample
  extract_lets -merge +onlyGivenNames v1 v2
  clear_value v1 v2
  refine Within.ite1 ?_ (fun _ => ?_)
  · refine Within.ite1 ?_ (fun _ => ?_)
    · exact Within.mk1 h
    · refine Within.ite1 ?_ (fun _ => ?_)
      · extract_lets -merge +onlyGivenNames v3
        have h4 : Within M s v3 := State.setDom_in (hM.of rfl) h
        clear_value v3
        refine Within.mk1 ?_
        refine Within.ite ?_ (fun _ => ?_)
        · exact h4
        · exact State.domTo_in (hM.of rfl) h4
      · exact Within.mk1 (State.setDom_in (hM.of rfl) h)
  · extract_lets -merge +onlyGivenNames v5 v6
    clear_value v5 v6
    extract_lets -merge +onlyGivenNames v7
    have h8 : Within M s v7 := State.setDom_in (hM.of rfl) h
    clear_value v7
    refine Within.mk1 ?_
    refine Within.ite ?_ (fun _ => ?_)
    · exact h8
    · exact State.domTo_in (hM.of rfl) h8

theorem State.refreshUtc_in (hM : Incl 0x800000100 M) (h : Within M s x) : Within M s (State.refreshUtc x) := by
  unfold State.refreshUtc
  extract_lets -merge +onlyGivenNames v1 v2
  clear_value v1 v2
  extract_lets -merge +onlyGivenNames v3
  have h4 : Within M s v3 := State.setFlag_in (hM.of rfl) (hM.of rfl) (State.setFlag_in (hM.of rfl) (hM.of rfl) h)
  clear_value v3
  extract_lets -merge +onlyGivenNames v5
  clear_value v5
  refine Within.ite ?_ (fun _ => ?_)
  · exact h4
  · extract_lets -merge +onlyGivenNames v6
    have h7 : Within M s v6 := State.wr_in (hM.of rfl) h4
    clear_value v6
    exact Within.set_tb h7 (hM.of rfl)

theorem State.select_in {p2} (hM : Incl 0x410000900800104 M) (h : Within M s x) : Within M s (State.select x p2) := by
  unfold State.select
  extract_lets -merge +onlyGivenNames v1
  clear_value v1
  refine Within.ite ?_ (fun _ => ?_)
  · exact State.refreshUtc_in (hM.of rfl) (State.notice_in (hM.of rfl) (State.wr_in (hM.of rfl) h))
  · exact h

theorem State.refreshAgree_in (hM : Incl 0x45611210080473c M) (h : Within M s x) : Within M s (State.refreshAgree x) := by
  unfold State.refreshAgree
  refine Within.ite ?_ (fun _ => ?_)
  · refine Within.ite ?_ (fun _ => ?_)
    · exact Within.set_tb h (hM.of rfl)
    · split
      · exact Within.set_tb h (hM.of rfl)
      · exact h
  · extract_lets -merge +onlyGivenNames v1
    clear_value v1
    extract_lets -merge +onlyGivenNames v2
    have h3 : Within M s v2 := Within.set_tb h (hM.of rfl)
    clear_value v2
    refine Within.ite ?_ (fun _ => ?_)
    · exact State.stdAlarm_in (hM.of rfl) (State.notice_in (hM.of rfl) (Within.set_tb h3 (hM.of rfl)))
    · exact h3

theorem State.holdover_in (hM : Incl 0x410000901800104 M) (h : Within M s x) : Within M s (State.holdover x) := by
  unfold State.holdover
  exact State.steer_in (hM.of rfl) (State.setTb_in (hM.of rfl) h)

theorem State.stepBy_in {p2} (hM : Incl 0x410000100a00106 M) (h : Within M s x) : Within M s (State.stepBy x p2) := by
  unfold State.stepBy
  extract_lets -merge +onlyGivenNames v1 v2 v3 v4
  clear_value v1 v2 v3 v4
  exact State.notice_in (hM.of rfl) (Within.set_now_log_tb_bkd h (hM.of rfl))

theorem State.servo_in {p2} {p3} (hM : Incl 0x410000901a00106 M) (h : Within M s x) : Within M s (State.servo x p2 p3) := by
  unfold State.servo
  split
  rename_i z1 z2 z3 z4
  have h5 : Within M s z2 := Within.of_fst z4 (by
    refine Within.ite1 ?_ (fun _ => ?_)
    · exact Within.mk1 h
    · exact Within.mk1 (State.stepBy_in (hM.of rfl) h))
  extract_lets -merge +onlyGivenNames v6 v7
  clear_value v6 v7
  refine Within.ite ?_ (fun _ => ?_)
  · split
    extract_lets -merge +onlyGivenNames v8 v9
    clear_value v8 v9
    extract_lets -merge +onlyGivenNames v10
    have h11 : Within M s v10 := Within.set_tb h5 (hM.of rfl)
    clear_value v10
    extract_lets -merge +onlyGivenNames v12
    have h13 : Within M s v12 := State.setTb_in (hM.of rfl) h11
    clear_value v12
    extract_lets -merge +onlyGivenNames v14
    clear_value v14
    extract_lets -merge +onlyGivenNames v15
    have h16 : Within M s v15 := Within.set_tb h13 (hM.of rfl)
    clear_value v15
    exact State.steer_in (hM.of rfl) h16
  · extract_lets -merge +onlyGivenNames v17 v18
    clear_value v17 v18
    exact State.steer_in (hM.of rfl) (State.setTb_in (hM.of rfl) h5)

theorem State.showContrib_in (hM : Incl 0x8000000000 M) (h : Within M s x) : Within M s (State.showContrib x) := by
  unfold State.showContrib
  extract_lets -merge +onlyGivenNames v1
  clear_value v1
  exact State.wr_in (hM.of rfl) (State.wr_in (hM.of rfl) h)

theorem State.contribute_in {p2} {p3} (hM : Incl 0x8000000080 M) (h : Within M s x) : Within M s (State.contribute x p2 p3) := by
  unfold State.contribute
  refine Within.ite ?_ (fun _ => ?_)
  · exact State.showContrib_in (hM.of rfl) (Within.set_whl h (hM.of rfl))
  · exact h

theorem State.whlNotice_in {p2} {p3} {p4} {p5} (hM : Incl 0x410008100800084 M) (h : Within M s x) : Within M s (State.whlNotice x p2 p3 p4 p5) := by
  unfold State.whlNotice
  exact State.notice_in (hM.of rfl) (State.contribute_in (hM.of rfl) h)

theorem State.showMembers_in {p2} (hM : Incl 0x410008100800084 M) (h : Within M s x) : Within M s (State.showMembers x p2) := by
  unfold State.showMembers
  extract_lets -merge +onlyGivenNames v1 v2 v3
  clear_value v1 v2 v3
  extract_lets -merge +onlyGivenNames v4
  have h5 : Within M s v4 := State.wr_in (hM.of rfl) (State.wr_in (hM.of rfl) (State.wr_in (hM.of rfl) h))
  clear_value v4
  refine Within.ite ?_ (fun _ => ?_)
  · exact h5
  · exact State.whlNotice_in (hM.of rfl) h5

theorem State.putSlot_in {p2} (hM : Incl 0x80 M) (h : Within M s x) : Within M s (State.putSlot x p2) := by
  unfold State.putSlot
  exact Within.set_whl h (hM.of rfl)

theorem State.addendum_in {p2} {p3} (hM : Incl 0x45001810080009c M) (h : Within M s x) : Within M s (State.addendum x p2 p3) := by
  unfold State.addendum
  extract_lets -merge +onlyGivenNames v1
  clear_value v1
  refine Within.ite ?_ (fun _ => ?_)
  · refine Within.ite ?_ (fun _ => ?_)
    · exact State.deadLetter_in (hM.of rfl) (State.inc_in (hM.of rfl) (hM.of rfl) h)
    · exact State.setRnd_in (hM.of rfl) h
  · exact h

theorem State.countLate_in {p2} {p3} {p4} (hM : Incl 0x2c5001810080009c M) (h : Within M s x) : Within M s (State.countLate x p2 p3 p4) := by
  unfold State.countLate
  extract_lets -merge +onlyGivenNames v1
  have h2 : Within M s v1 := State.stabWr_in (hM.of rfl) (hM.of rfl) (State.inc_in (hM.of rfl) (hM.of rfl) h)
  clear_value v1
  extract_lets -merge +onlyGivenNames v3
  clear_value v3
  exact State.addendum_in (hM.of rfl) (State.deadLetter_in (hM.of rfl) (State.setRnd_in (hM.of rfl) h2))

theorem State.markDup_in {p2} (hM : Incl 0x80 M) (h : Within M s x) : Within M s (State.markDup x p2) := by
  unfold State.markDup
  exact Within.set_whl h (hM.of rfl)

theorem State.countDup_in {p2} (hM : Incl 0x2800008000000080 M) (h : Within M s x) : Within M s (State.countDup x p2) := by
  unfold State.countDup
  extract_lets -merge +onlyGivenNames v1
  have h2 : Within M s v1 := State.markDup_in (hM.of rfl) h
  clear_value v1
  extract_lets -merge +onlyGivenNames v3
  have h4 : Within M s v3 := State.stabWr_in (hM.of rfl) (hM.of rfl) h2
  clear_value v3
  refine Within.forEach ?_ (fun y5 y6 h7 => ?_)
  · exact h4
  · extract_lets -merge +onlyGivenNames v8
    clear_value v8
    exact State.setRnd_in (hM.of rfl) (State.inc_in (hM.of rfl) (hM.of rfl) h7)

theorem State.countStale_in {p2} (hM : Incl 0x2c5001810080009c M) (h : Within M s x) : Within M s (State.countStale x p2) := by
  unfold State.countStale
  extract_lets -merge +onlyGivenNames v1
  have h2 : Within M s v1 := State.inc_in (hM.of rfl) (hM.of rfl) h
  clear_value v1
  extract_lets -merge +onlyGivenNames v3
  have h4 : Within M s v3 := State.stabWr_in (hM.of rfl) (hM.of rfl) h2
  clear_value v3
  extract_lets -merge +onlyGivenNames v5
  clear_value v5
  extract_lets -merge +onlyGivenNames v6
  have h7 : Within M s v6 := by
    unfold v6
    refine Within.forEach ?_ (fun y8 y9 h10 => ?_)
    · exact h4
    · extract_lets -merge +onlyGivenNames v11
      clear_value v11
      exact State.contribute_in (hM.of rfl) (State.setRnd_in (hM.of rfl) (State.inc_in (hM.of rfl) (hM.of rfl) h10))
  clear_value v6
  exact State.deadLetter_in (hM.of rfl) (State.notice_in (hM.of rfl) h7)

theorem State.countFuture_in {p2} (hM : Incl 0x2c5001810080001c M) (h : Within M s x) : Within M s (State.countFuture x p2) := by
  unfold State.countFuture
  extract_lets -merge +onlyGivenNames v1
  have h2 : Within M s v1 := State.inc_in (hM.of rfl) (hM.of rfl) h
  clear_value v1
  exact State.deadLetter_in (hM.of rfl) (State.stabWr_in (hM.of rfl) (hM.of rfl) h2)

theorem State.displaced_in {p2} (hM : Incl 0x2c5001810080009c M) (h : Within M s x) : Within M s (State.displaced x p2) := by
  unfold State.displaced
  refine Within.forEach ?_ (fun y1 y2 h3 => ?_)
  · exact h
  · split
    · exact h3
    · refine Within.ite ?_ (fun _ => ?_)
      · exact State.countLate_in (hM.of rfl) h3
      · exact h3

theorem State.tracker_in {p2} {p3} (hM : Incl 0x2800000000000000 M) (h : Within M s x) : Within M s (State.tracker x p2 p3) := by
  unfold State.tracker
  extract_lets -merge +onlyGivenNames v1
  clear_value v1
  extract_lets -merge +onlyGivenNames v2
  have h3 : Within M s v2 := State.stabWr_in (hM.of rfl) (hM.of rfl) h
  clear_value v2
  extract_lets -merge +onlyGivenNames v4
  have h5 : Within M s v4 := by
    unfold v4
    refine Within.ite ?_ (fun _ => ?_)
    · exact h3
    · exact State.stabWr_in (hM.of rfl) (hM.of rfl) h3
  clear_value v4
  extract_lets -merge +onlyGivenNames v6
  have h7 : ∀ b1 b2 b3 b4, Within M s b1 → Within M s (v6 b1 b2 b3 b4) := by
    intro y8 y9 y10 y11 h12
    unfold v6
    exact State.stabWr_in (hM.of rfl) (hM.of rfl) (State.stabWr_in (hM.of rfl) (hM.of rfl) (State.stabWr_in (hM.of rfl) (hM.of rfl) h12))
  clear_value v6
  refine Within.ite ?_ (fun _ => ?_)
  · split
    exact h7 _ _ _ _ h5
  · extract_lets -merge +onlyGivenNames v13
    clear_value v13
    refine State.stabWr_in (hM.of rfl) (hM.of rfl) ?_
    exact h7 _ _ _ _ h5

theorem State.closeCheck_in {p2} {p3} (hM : Incl 0x10000000080 M) (h : Within M s x) : Within M s (State.closeCheck x p2 p3) := by
  unfold State.closeCheck
  extract_lets -merge +onlyGivenNames v1
  clear_value v1
  exact State.showOcc_in (hM.of rfl) (State.setRnd_in (hM.of rfl) h)

theorem State.filedInRounds_in {p2} {p3} (hM : Incl 0x2c5001810080009c M) (h : Within M s x) : Within M s (State.filedInRounds x p2 p3) := by
  unfold State.filedInRounds
  refine Within.forEach ?_ (fun y1 y2 h3 => ?_)
  · exact h
  · split
    · exact h3
    · refine Within.ite ?_ (fun _ => ?_)
      · refine Within.ite ?_ (fun _ => ?_)
        · exact h3
        · exact State.closeCheck_in (hM.of rfl) h3
      · refine Within.ite ?_ (fun _ => ?_)
        · exact h3
        · exact State.countLate_in (hM.of rfl) h3

theorem State.offGridCount_in {p2} (hM : Incl 0x2800000000000000 M) (h : Within M s x) : Within M s (State.offGridCount x p2) := by
  unfold State.offGridCount
  refine Within.ite ?_ (fun _ => ?_)
  · exact h
  · exact State.stabWr_in (hM.of rfl) (hM.of rfl) h

theorem State.fileLetter_in {p2} (hM : Incl 0x2c5001810080009c M) (h : Within M s x) : Within M s (State.fileLetter x p2) := by
  unfold State.fileLetter
  extract_lets -merge +onlyGivenNames v1 v2 v3
  clear_value v1 v2 v3
  refine Within.ite ?_ (fun _ => ?_)
  · refine Within.ite ?_ (fun _ => ?_)
    · split
      · refine Within.ite ?_ (fun _ => ?_)
        · exact State.filedInRounds_in (hM.of rfl) (State.tracker_in (hM.of rfl) (State.offGridCount_in (hM.of rfl) (State.putSlot_in (hM.of rfl) (State.displaced_in (hM.of rfl) h))))
        · exact State.countDup_in (hM.of rfl) h
      · exact State.filedInRounds_in (hM.of rfl) (State.tracker_in (hM.of rfl) (State.offGridCount_in (hM.of rfl) (State.putSlot_in (hM.of rfl) h)))
    · exact State.countStale_in (hM.of rfl) h
  · exact State.countFuture_in (hM.of rfl) h

theorem State.openBag_in {p2} {p3} (hM : Incl 0x410018100800084 M) (h : Within M s x) : Within M s (State.openBag x p2 p3) := by
  unfold State.openBag
  split
  extract_lets -merge +onlyGivenNames v1
  have h2 : Within M s v1 := State.setFlag_in (hM.of rfl) (hM.of rfl) (State.wr_in (hM.of rfl) h)
  clear_value v1
  extract_lets -merge +onlyGivenNames v3
  have h4 : Within M s v3 := by
    unfold v3
    refine Within.ite ?_ (fun _ => ?_)
    · exact h2
    · exact State.whlNotice_in (hM.of rfl) h2
  clear_value v3
  extract_lets -merge +onlyGivenNames v5
  have h6 : Within M s v5 := by
    unfold v5
    split
    · exact State.wr_in (hM.of rfl) h4
    · exact h4
  clear_value v5
  extract_lets -merge +onlyGivenNames v7 v8
  clear_value v7 v8
  exact State.closeCheck_in (hM.of rfl) (State.setRnd_in (hM.of rfl) h6)

theorem State.membSeal_in {p2} (hM : Incl 0x4000000000000000 M) (h : Within M s x) : Within M s (State.membSeal x p2) := by
  unfold State.membSeal
  exact State.wr_in (hM.of rfl) h

theorem State.copyShadow_in {p2} (hM : Incl 0x4000000000000000 M) (h : Within M s x) : Within M s (State.copyShadow x p2) := by
  unfold State.copyShadow
  extract_lets -merge +onlyGivenNames v1 v2
  clear_value v1 v2
  extract_lets -merge +onlyGivenNames v3
  subst v3
  extract_lets -merge +onlyGivenNames v4
  have h5 : Within M s v4 := by
    unfold v4
    refine Within.forEach ?_ (fun y6 y7 h8 => ?_)
    · exact h
    · exact State.put_in (hM.of rfl) h8
  clear_value v4
  extract_lets -merge +onlyGivenNames v9
  have h10 : Within M s v9 := by
    unfold v9
    refine Within.forEach ?_ (fun y11 y12 h13 => ?_)
    · exact h5
    · exact State.put_in (hM.of rfl) h13
  clear_value v9
  exact State.membSeal_in (hM.of rfl) h10

theorem State.cfgCount_in {p2} (hM : Incl 0x8000000000 M) (h : Within M s x) : Within M s (State.cfgCount x p2) := by
  unfold State.cfgCount
  exact State.inc_in (hM.of rfl) (hM.of rfl) h

theorem State.applyCommit_in {p2} (hM : Incl 0x4410008100800084 M) (h : Within M s x) : Within M s (State.applyCommit x p2) := by
  unfold State.applyCommit
  extract_lets -merge +onlyGivenNames v1
  have h2 : Within M s v1 := State.cfgCount_in (hM.of rfl) (State.copyShadow_in (hM.of rfl) h)
  clear_value v1
  extract_lets -merge +onlyGivenNames v3 v4
  clear_value v3 v4
  extract_lets -merge +onlyGivenNames v5
  have h6 : Within M s v5 := State.setRnd_in (hM.of rfl) h2
  clear_value v5
  exact State.whlNotice_in (hM.of rfl) (State.showMembers_in (hM.of rfl) (State.wr_in (hM.of rfl) h6))

theorem State.layoutChange_in {p2} {p3} {p4} (hM : Incl 0x8000000000 M) (h : Within M s x) (kp4 : ∀ b1, Within M s b1 → Within M s (p4 b1)) : Within M s (State.layoutChange x p2 p3 p4) := by
  unfold State.layoutChange
  extract_lets -merge +onlyGivenNames v1
  have h2 : Within M s v1 := by
    unfold v1
    exact kp4 _ h
  clear_value v1
  refine Within.ite ?_ (fun _ => ?_)
  · exact h2
  · exact State.cfgCount_in (hM.of rfl) h2

theorem State.rerate_in {p2} {p3} (hM : Incl 0x410018100800084 M) (h : Within M s x) : Within M s (State.rerate x p2 p3) := by
  unfold State.rerate
  extract_lets -merge +onlyGivenNames v1
  clear_value v1
  refine Within.ite ?_ (fun _ => ?_)
  · extract_lets -merge +onlyGivenNames v2 v3
    clear_value v2 v3
    extract_lets -merge +onlyGivenNames v4
    have h5 : Within M s v4 := State.setRnd_in (hM.of rfl) h
    clear_value v4
    extract_lets -merge +onlyGivenNames v6 v7
    clear_value v6 v7
    refine State.showMembers_in (hM.of rfl) ?_
    refine Within.forEach ?_ (fun y8 y9 h10 => ?_)
    · exact h5
    · split
      · extract_lets -merge +onlyGivenNames v11
        clear_value v11
        exact State.setRnd_in (hM.of rfl) h10
      · exact State.openBag_in (hM.of rfl) h10
  · exact h

theorem State.applyCfg_in {p2} (hM : Incl 0x410118100800084 M) (h : Within M s x) : Within M s (State.applyCfg x p2) := by
  unfold State.applyCfg
  extract_lets -merge +onlyGivenNames v1
  clear_value v1
  extract_lets -merge +onlyGivenNames v2
  have h3 : ∀ b1 b2, Within M s b2 → Within M s (v2 b1 b2) := by
    intro y4 y5 h6
    unfold v2
    extract_lets -merge +onlyGivenNames v7
    clear_value v7
    refine Within.ite ?_ (fun _ => ?_)
    · exact State.put_in (hM.of rfl) h6
    · exact State.put_in (hM.of rfl) h6
  clear_value v2
  refine State.rerate_in (hM.of rfl) ?_
  refine State.layoutChange_in (hM.of rfl) h (fun y8 h9 => ?_)
  refine State.setRnd_in (hM.of rfl) ?_
  refine Within.forEach ?_ (fun y10 y11 h12 => ?_)
  · exact h9
  · exact h3 _ _ h12

theorem State.layoutBoundary_in {p2} (hM : Incl 0x4410118100800084 M) (h : Within M s x) : Within M s (State.layoutBoundary x p2) := by
  unfold State.layoutBoundary
  extract_lets -merge +onlyGivenNames v1
  have h2 : Within M s v1 := State.applyCfg_in (hM.of rfl) h
  clear_value v1
  split
  · refine Within.ite ?_ (fun _ => ?_)
    · exact h2
    · exact State.applyCommit_in (hM.of rfl) h2
  · exact h2

theorem State.announce_in {p2} (hM : Incl 0x8000000080 M) (h : Within M s x) : Within M s (State.announce x p2) := by
  unfold State.announce
  extract_lets -merge +onlyGivenNames v1 v2
  clear_value v1 v2
  exact State.wr_in (hM.of rfl) (State.setRnd_in (hM.of rfl) h)

theorem State.membErase_in {p2} {p3} {p4} (hM : Incl 0x4000000000000000 M) (h : Within M s x) : Within M s (State.membErase x p2 p3 p4) := by
  unfold State.membErase
  extract_lets -merge +onlyGivenNames v1
  subst v1
  extract_lets -merge +onlyGivenNames v2
  subst v2
  exact State.put_in (hM.of rfl) h

theorem State.membClear_in {p2} (hM : Incl 0x4410008100800084 M) (h : Within M s x) : Within M s (State.membClear x p2) := by
  unfold State.membClear
  extract_lets -merge +onlyGivenNames v1
  clear_value v1
  refine Within.forEach ?_ (fun y2 y3 h4 => ?_)
  · exact h
  · extract_lets -merge +onlyGivenNames v5
    clear_value v5
    extract_lets -merge +onlyGivenNames v6
    have h7 : Within M s v6 := State.membErase_in (hM.of rfl) h4
    clear_value v6
    extract_lets -merge +onlyGivenNames v8
    clear_value v8
    extract_lets -merge +onlyGivenNames v9
    have h10 : Within M s v9 := State.setRnd_in (hM.of rfl) (State.membSeal_in (hM.of rfl) (State.membErase_in (hM.of rfl) h7))
    clear_value v9
    extract_lets -merge +onlyGivenNames v11
    have h12 : Within M s v11 := by
      unfold v11
      refine Within.ite ?_ (fun _ => ?_)
      · exact h7
      · refine State.showMembers_in (hM.of rfl) ?_
        refine Within.ite ?_ (fun _ => ?_)
        · exact State.announce_in (hM.of rfl) h10
        · exact h10
    clear_value v11
    exact State.whlNotice_in (hM.of rfl) h12

theorem State.putDesc_in {p2} {p3} (hM : Incl 0x1000000000000000 M) (h : Within M s x) : Within M s (State.putDesc x p2 p3) := by
  unfold State.putDesc
  refine Within.forEach ?_ (fun y1 y2 h3 => ?_)
  · exact h
  · exact State.put_in (hM.of rfl) h3

theorem State.dropCand_in {p2} (hM : Incl 0x800000000000040 M) (h : Within M s x) : Within M s (State.dropCand x p2) := by
  unfold State.dropCand
  exact State.wr_in (hM.of rfl) (Within.set_adm h (hM.of rfl))

theorem State.showDesc_in {p2} {p3} (hM : Incl 0x800000000000000 M) (h : Within M s x) : Within M s (State.showDesc x p2 p3) := by
  unfold State.showDesc
  exact State.wr_in (hM.of rfl) (State.wr_in (hM.of rfl) (State.wr_in (hM.of rfl) (State.wr_in (hM.of rfl) h)))

theorem State.clearInelig_in {p2} (hM : Incl 0x80 M) (h : Within M s x) : Within M s (State.clearInelig x p2) := by
  unfold State.clearInelig
  refine Within.forEach ?_ (fun y1 y2 h3 => ?_)
  · exact h
  · exact State.setRnd_in (hM.of rfl) h3

theorem State.streamJudged_in {p2} (hM : Incl 0x410008100800084 M) (h : Within M s x) : Within M s (State.streamJudged x p2) := by
  unfold State.streamJudged
  refine Within.forEach ?_ (fun y1 y2 h3 => ?_)
  · exact State.clearInelig_in (hM.of rfl) h
  · exact State.showMembers_in (hM.of rfl) h3

theorem State.setCounts_in {p2} {p3} (hM : Incl 0x40 M) (h : Within M s x) : Within M s (State.setCounts x p2 p3) := by
  unfold State.setCounts
  extract_lets -merge +onlyGivenNames v1
  clear_value v1
  exact Within.set_adm h (hM.of rfl)

theorem State.useDesc_in {p2} {p3} {p4} (hM : Incl 0x1c100081008000c4 M) (h : Within M s x) : Within M s (State.useDesc x p2 p3 p4) := by
  unfold State.useDesc
  extract_lets -merge +onlyGivenNames v1 v2 v3 v4
  clear_value v1 v2 v3 v4
  exact State.streamJudged_in (hM.of rfl) (State.dropCand_in (hM.of rfl) (State.showDesc_in (hM.of rfl) (State.putDesc_in (hM.of rfl) (State.setCounts_in (hM.of rfl) h))))

end Sys2Proof.Machine
end

