-- ==== Sys2Proof/Laws/WithinAdm.lean ====
section
/-! SUPPORT. What each operation and each meaning may change: admission, frames and streams. -/
namespace Sys2Proof.Machine

variable {M : Nat} {s x : State}

theorem State.putSender_in {p2} (hM : Incl 0x40 M) (h : Within M s x) : Within M s (State.putSender x p2) := by
  unfold State.putSender
  exact Within.set_adm h (hM.of rfl)

theorem State.showAdm_in (hM : Incl 0x4000000000 M) (h : Within M s x) : Within M s (State.showAdm x) := by
  unfold State.showAdm
  extract_lets -merge +onlyGivenNames v1 v2
  clear_value v1 v2
  exact State.wr_in (hM.of rfl) (State.wr_in (hM.of rfl) (State.wr_in (hM.of rfl) h))

theorem State.freeEntry_in {p2} (hM : Incl 0x4000000000 M) (h : Within M s x) : Within M s (State.freeEntry x p2) := by
  unfold State.freeEntry
  split
  · exact h
  · extract_lets -merge +onlyGivenNames v1
    have h2 : Within M s v1 := by
      unfold v1
      refine Within.forEach ?_ (fun y3 y4 h5 => ?_)
      · exact h
      · exact State.put_in (hM.of rfl) h5
    clear_value v1
    exact State.showAdm_in (hM.of rfl) h2

theorem State.dropSender_in {p2} (hM : Incl 0x4000000040 M) (h : Within M s x) : Within M s (State.dropSender x p2) := by
  unfold State.dropSender
  exact State.freeEntry_in (hM.of rfl) (Within.set_adm h (hM.of rfl))

theorem State.makeRoom_in (hM : Incl 0x4000000040 M) (h : Within M s x) : Within M s (State.makeRoom x).1 := by
  unfold State.makeRoom
  refine Within.ite1 ?_ (fun _ => ?_)
  · split
    · exact Within.mk1 (State.dropSender_in (hM.of rfl) h)
    · exact Within.mk1 h
  · exact Within.mk1 h

theorem State.fillEntry_in {p2} {p3} {p4} (hM : Incl 0x4000000000 M) (h : Within M s x) : Within M s (State.fillEntry x p2 p3 p4) := by
  unfold State.fillEntry
  extract_lets -merge +onlyGivenNames v1
  have h2 : Within M s v1 := State.wr_in (hM.of rfl) (State.setFlag_in (hM.of rfl) (hM.of rfl) (State.wr_in (hM.of rfl) (State.wr_in (hM.of rfl) (State.wr_in (hM.of rfl) (State.setFlag_in (hM.of rfl) (hM.of rfl) (State.setFlag_in (hM.of rfl) (hM.of rfl) h))))))
  clear_value v1
  extract_lets -merge +onlyGivenNames v3
  have h4 : Within M s v3 := State.wr_in (hM.of rfl) (State.wr_in (hM.of rfl) (State.wr_in (hM.of rfl) h2))
  clear_value v3
  exact State.showAdm_in (hM.of rfl) (State.wr_in (hM.of rfl) (State.wr_in (hM.of rfl) h4))

theorem State.deadFrame_in {p2} {p3} {p4} (hM : Incl 0xc5001010080005c M) (h : Within M s x) : Within M s (State.deadFrame x p2 p3 p4) := by
  unfold State.deadFrame
  split
  · exact State.dead_in (hM.of rfl) (State.wr_in (hM.of rfl) (State.inc_in (hM.of rfl) (hM.of rfl) h))
  · extract_lets -merge +onlyGivenNames v1
    clear_value v1
    exact State.dead_in (hM.of rfl) (Within.set_adm h (hM.of rfl))

theorem State.sendCmd_in {p2} {p3} (hM : Incl 0x45001210080003c M) (h : Within M s x) : Within M s (State.sendCmd x p2 p3) := by
  unfold State.sendCmd
  extract_lets -merge +onlyGivenNames v1 v2
  clear_value v1 v2
  split
  · exact State.tx_in (hM.of rfl) h
  · refine Within.ite ?_ (fun _ => ?_)
    · exact h
    · exact State.tx_in (hM.of rfl) h

theorem State.askCfg_in {p2} (hM : Incl 0x45001210080007c M) (h : Within M s x) : Within M s (State.askCfg x p2) := by
  unfold State.askCfg
  refine Within.ite ?_ (fun _ => ?_)
  · exact State.sendCmd_in (hM.of rfl) (State.putSender_in (hM.of rfl) h)
  · exact h

theorem State.goLive_in {p2} (hM : Incl 0x800000000000000 M) (h : Within M s x) : Within M s (State.goLive x p2) := by
  unfold State.goLive
  exact State.wr_in (hM.of rfl) (State.wr_in (hM.of rfl) (State.wr_in (hM.of rfl) h))

theorem State.clearDesc_in {p2} (hM : Incl 0x1000000000000040 M) (h : Within M s x) : Within M s (State.clearDesc x p2) := by
  unfold State.clearDesc
  extract_lets -merge +onlyGivenNames v1
  clear_value v1
  exact State.putDesc_in (hM.of rfl) (State.setCounts_in (hM.of rfl) h)

theorem State.giveSid_in {p2} {p3} {p4} {p5} (hM : Incl 0x5c100081008000c4 M) (h : Within M s x) : Within M s (State.giveSid x p2 p3 p4 p5) := by
  unfold State.giveSid
  extract_lets -merge +onlyGivenNames v1
  have h2 : Within M s v1 := by
    unfold v1
    refine Within.ite ?_ (fun _ => ?_)
    · refine State.clearDesc_in (hM.of rfl) ?_
      refine Within.ite ?_ (fun _ => ?_)
      · exact State.membClear_in (hM.of rfl) h
      · exact h
    · exact h
  clear_value v1
  extract_lets -merge +onlyGivenNames v3
  have h4 : Within M s v3 := State.wr_in (hM.of rfl) (State.wr_in (hM.of rfl) (State.wr_in (hM.of rfl) (State.wr_in (hM.of rfl) (State.setFlag_in (hM.of rfl) (hM.of rfl) (State.setFlag_in (hM.of rfl) (hM.of rfl) (State.wr_in (hM.of rfl) h2))))))
  clear_value v3
  extract_lets -merge +onlyGivenNames v5
  have h6 : Within M s v5 := State.wr_in (hM.of rfl) (State.wr_in (hM.of rfl) (State.wrWords_in (hM.of rfl) (hM.of rfl) h4))
  clear_value v5
  exact State.goLive_in (hM.of rfl) h6

theorem State.senderGets_in {p2} {p3} {p4} (hM : Incl 0x40 M) (h : Within M s x) : Within M s (State.senderGets x p2 p3 p4) := by
  unfold State.senderGets
  split
  · exact State.putSender_in (hM.of rfl) h
  · exact h

theorem State.giveHeld_in {p2} (hM : Incl 0x800004000000040 M) (h : Within M s x) : Within M s (State.giveHeld x p2) := by
  unfold State.giveHeld
  split
  · exact h
  · refine State.showAdm_in (hM.of rfl) ?_
    refine Within.forEach ?_ (fun y1 y2 h3 => ?_)
    · exact h
    · exact State.senderGets_in (hM.of rfl) (State.goLive_in (hM.of rfl) (State.wr_in (hM.of rfl) h3))

theorem State.lapseAll_in {p2} (hM : Incl 0x410008100800084 M) (h : Within M s x) : Within M s (State.lapseAll x p2) := by
  unfold State.lapseAll
  refine Within.forEach ?_ (fun y1 y2 h3 => ?_)
  · exact h
  · extract_lets -merge +onlyGivenNames v4
    clear_value v4
    extract_lets -merge +onlyGivenNames v5
    have h6 : Within M s v5 := State.whlNotice_in (hM.of rfl) (State.setRnd_in (hM.of rfl) h3)
    clear_value v5
    exact State.showMembers_in (hM.of rfl) h6

theorem State.refuse_in {p2} (hM : Incl 0x4000000040 M) (h : Within M s x) : Within M s (State.refuse x p2) := by
  unfold State.refuse
  exact State.putSender_in (hM.of rfl) (State.freeEntry_in (hM.of rfl) h)

theorem State.accept_in {p2} (hM : Incl 0xc10004100800044 M) (h : Within M s x) : Within M s (State.accept x p2) := by
  unfold State.accept
  extract_lets -merge +onlyGivenNames v1
  have h2 : Within M s v1 := State.putSender_in (hM.of rfl) (State.freeEntry_in (hM.of rfl) h)
  clear_value v1
  exact State.giveHeld_in (hM.of rfl) (State.notice_in (hM.of rfl) h2)

theorem State.pend_in {p2} {p3} (hM : Incl 0x410004100800044 M) (h : Within M s x) : Within M s (State.pend x p2 p3) := by
  unfold State.pend
  split
  · refine Within.ite ?_ (fun _ => ?_)
    · exact State.refuse_in (hM.of rfl) h
    · exact State.putSender_in (hM.of rfl) h
  · extract_lets -merge +onlyGivenNames v1
    have h2 : Within M s v1 := State.putSender_in (hM.of rfl) (State.fillEntry_in (hM.of rfl) h)
    clear_value v1
    refine Within.ite ?_ (fun _ => ?_)
    · exact State.notice_in (hM.of rfl) h2
    · exact h2

theorem State.decideNew_in {p2} {p3} (hM : Incl 0xc10004100800044 M) (h : Within M s x) : Within M s (State.decideNew x p2 p3) := by
  unfold State.decideNew
  split
  · rename_i z1 z2 z3
    have h4 : Within M s z2 := Within.of_fst z3 (State.makeRoom_in (hM.of rfl) h)
    exact State.inc_in (hM.of rfl) (hM.of rfl) h4
  · rename_i z5 z6 z7
    have h8 : Within M s z6 := Within.of_fst z7 (State.makeRoom_in (hM.of rfl) h)
    extract_lets -merge +onlyGivenNames v9 v10
    clear_value v9 v10
    extract_lets -merge +onlyGivenNames v11
    have h12 : Within M s v11 := Within.set_adm h8 (hM.of rfl)
    clear_value v11
    refine Within.ite ?_ (fun _ => ?_)
    · refine Within.ite ?_ (fun _ => ?_)
      · refine Within.ite ?_ (fun _ => ?_)
        · exact State.refuse_in (hM.of rfl) h12
        · exact State.pend_in (hM.of rfl) h12
      · exact State.pend_in (hM.of rfl) h12
    · exact State.accept_in (hM.of rfl) h12

theorem State.countHeldOff_in {p2} (hM : Incl 0x410004100800044 M) (h : Within M s x) : Within M s (State.countHeldOff x p2) := by
  unfold State.countHeldOff
  split
  · extract_lets -merge +onlyGivenNames v1
    have h2 : Within M s v1 := State.inc_in (hM.of rfl) (hM.of rfl) h
    clear_value v1
    refine Within.ite ?_ (fun _ => ?_)
    · exact State.logEvent_in (hM.of rfl) (State.putSender_in (hM.of rfl) h2)
    · exact h2
  · extract_lets -merge +onlyGivenNames v3
    have h4 : Within M s v3 := State.inc_in (hM.of rfl) (hM.of rfl) h
    clear_value v3
    refine Within.ite ?_ (fun _ => ?_)
    · exact h4
    · exact State.pend_in (hM.of rfl) h4
  · exact h

theorem State.allocBlocks_in {p2} {p3} (hM : Incl 0x5c1000c1008000c4 M) (h : Within M s x) : Within M s (State.allocBlocks x p2 p3) := by
  unfold State.allocBlocks
  extract_lets -merge +onlyGivenNames v1
  have h2 : ∀ b1 b2, Within M s b1.1 → Within M s (v1 b1 b2).1 := by
    intro y3 y4 h5
    unfold v1
    split
    · exact h5
    · refine Within.ite1 ?_ (fun _ => ?_)
      · split
        · exact Within.mk1 (State.senderGets_in (hM.of rfl) (State.giveSid_in (hM.of rfl) h5))
        · exact Within.mk1 h5
      · exact h5
  clear_value v1
  split
  rename_i z6 z7 z8 z9
  have h10 : Within M s z7 := Within.of_fst z9 (by
    refine Within.foldl1 ?_ (fun y11 y12 h13 => ?_)
    · exact Within.mk1 h
    · exact h2 _ _ h13)
  extract_lets -merge +onlyGivenNames v14
  have h15 : Within M s v14 := State.showAdm_in (hM.of rfl) h10
  clear_value v14
  refine Within.ite ?_ (fun _ => ?_)
  · split
    · exact State.notice_in (hM.of rfl) h15
    · exact h15
  · exact h15

theorem State.letterFormed_in {p2} {p3} (hM : Incl 0xac5001010080005c M) (h : Within M s x) : Within M s (State.letterFormed x p2 p3) := by
  unfold State.letterFormed
  extract_lets -merge +onlyGivenNames v1
  clear_value v1
  extract_lets -merge +onlyGivenNames v2
  have h3 : Within M s v2 := Within.set_adm h (hM.of rfl)
  clear_value v2
  extract_lets -merge +onlyGivenNames v4
  have h5 : Within M s v4 := State.wr_in (hM.of rfl) (State.wr64_in (hM.of rfl) (hM.of rfl) (State.bump64_in (hM.of rfl) (hM.of rfl) h3))
  clear_value v4
  extract_lets -merge +onlyGivenNames v6 v7
  clear_value v6 v7
  extract_lets -merge +onlyGivenNames v8
  have h9 : Within M s v8 := by
    unfold v8
    refine Within.ite ?_ (fun _ => ?_)
    · exact State.wr_in (hM.of rfl) h5
    · exact h5
  clear_value v8
  refine State.handOver_in (hM.of rfl) ?_
  refine Within.ite ?_ (fun _ => ?_)
  · exact State.wr_in (hM.of rfl) h9
  · exact State.goLive_in (hM.of rfl) h9

theorem State.lettersFormed_in {p2} {p3} (hM : Incl 0xac5001010080005c M) (h : Within M s x) : Within M s (State.lettersFormed x p2 p3) := by
  unfold State.lettersFormed
  refine Within.forEach ?_ (fun y1 y2 h3 => ?_)
  · exact h
  · exact State.letterFormed_in (hM.of rfl) h3

theorem State.setPort_in {p2} {p3} (hM : Incl 0x20 M) (h : Within M s x) : Within M s (State.setPort x p2 p3) := by
  unfold State.setPort
  exact Within.set_net h (hM.of rfl)

theorem State.disc_in {p2} (hM : Incl 0x2000000000 M) (h : Within M s x) : Within M s (State.disc x p2) := by
  unfold State.disc
  exact State.inc_in (hM.of rfl) (hM.of rfl) h

theorem State.prpFull_in (hM : Incl 0x410000100800024 M) (h : Within M s x) : Within M s (State.prpFull x) := by
  unfold State.prpFull
  refine Within.ite ?_ (fun _ => ?_)
  · exact State.notice_in (hM.of rfl) (Within.set_net h (hM.of rfl))
  · exact State.noticeQuiet_in (hM.of rfl) h

theorem State.prpPass_in {p2} (hM : Incl 0x410002100800024 M) (h : Within M s x) : Within M s (State.prpPass x p2).1 := by
  unfold State.prpPass
  split
  · refine Within.ite1 ?_ (fun _ => ?_)
    · refine Within.ite1 ?_ (fun _ => ?_)
      · exact Within.mk1 (State.prpFull_in (hM.of rfl) h)
      · exact Within.mk1 (Within.set_net h (hM.of rfl))
    · exact Within.mk1 (State.inc_in (hM.of rfl) (hM.of rfl) h)
  · exact Within.mk1 h

theorem State.rxFront_in {p2} (hM : Incl 0x410002100800026 M) (h : Within M s x) : Within M s (State.rxFront x p2).1 := by
  unfold State.rxFront
  extract_lets -merge +onlyGivenNames v1
  have h2 : Within M s v1 := State.advance_in (hM.of rfl) h
  clear_value v1
  refine Within.ite1 ?_ (fun _ => ?_)
  · extract_lets -merge +onlyGivenNames v3
    have h4 : Within M s v3 := State.inc_in (hM.of rfl) (hM.of rfl) h2
    clear_value v3
    extract_lets -merge +onlyGivenNames v5
    clear_value v5
    extract_lets -merge +onlyGivenNames v6
    have h7 : Within M s v6 := State.setPort_in (hM.of rfl) h4
    clear_value v6
    refine Within.ite1 ?_ (fun _ => ?_)
    · exact Within.mk1 (State.disc_in (hM.of rfl) h7)
    · exact State.prpPass_in (hM.of rfl) h7
  · exact Within.mk1 h2

theorem State.rxMore_in {p2} (hM : Incl 0x2 M) (h : Within M s x) : Within M s (State.rxMore x p2).1 := by
  unfold State.rxMore
  extract_lets -merge +onlyGivenNames v1
  have h2 : Within M s v1 := State.advance_in (hM.of rfl) h
  clear_value v1
  exact Within.mk1 h2

theorem State.onFrame_in {p2} {p3} (hM : Incl 0x410002100800026 M) (h : Within M s x) (kp3 : ∀ b1, Within M s b1 → Within M s (p3 b1)) : Within M s (State.onFrame x p2 p3) := by
  unfold State.onFrame
  split
  · rename_i z1 z2 z3
    have h4 : Within M s z2 := Within.of_fst z3 (State.rxFront_in (hM.of rfl) h)
    exact kp3 _ h4
  · rename_i z5 z6 z7
    have h8 : Within M s z6 := Within.of_fst z7 (State.rxFront_in (hM.of rfl) h)
    exact h8

theorem State.sendReports_in {p2} (hM : Incl 0x45001210080003c M) (h : Within M s x) : Within M s (State.sendReports x p2) := by
  unfold State.sendReports
  refine Within.forEach ?_ (fun y1 y2 h3 => ?_)
  · exact h
  · exact State.tx_in (hM.of rfl) h3

theorem State.joinGroups_in (hM : Incl 0x45001210080003c M) (h : Within M s x) : Within M s (State.joinGroups x) := by
  unfold State.joinGroups
  extract_lets -merge +onlyGivenNames v1 v2
  clear_value v1 v2
  extract_lets -merge +onlyGivenNames v3
  have h4 : Within M s v3 := Within.set_net h (hM.of rfl)
  clear_value v3
  refine Within.forEach ?_ (fun y5 y6 h7 => ?_)
  · exact h4
  · exact State.sendReports_in (hM.of rfl) h7

theorem State.frankFail_in {p2} {p3} {p4} {p5} (hM : Incl 0xc5611210080467c M) (h : Within M s x) : Within M s (State.frankFail x p2 p3 p4 p5) := by
  unfold State.frankFail
  extract_lets -merge +onlyGivenNames v1
  have h2 : Within M s v1 := State.deadFrame_in (hM.of rfl) h
  clear_value v1
  extract_lets -merge +onlyGivenNames v3 v4 v5 v6
  clear_value v3 v4 v5 v6
  extract_lets -merge +onlyGivenNames v7
  have h8 : Within M s v7 := by
    unfold v7
    split
    · rename_i z9 z10
      exact State.putSender_in (hM.of rfl) h2
    · rename_i z11
      exact Within.set_adm h2 (hM.of rfl)
  clear_value v7
  extract_lets -merge +onlyGivenNames v12
  have h13 : Within M s v12 := by
    unfold v12
    refine Within.ite ?_ (fun _ => ?_)
    · exact State.notice_in (hM.of rfl) h8
    · exact h2
  clear_value v12
  exact State.stdAlarm_in (hM.of rfl) (State.stdSeen_in (hM.of rfl) h13)

theorem State.withSender_in {p2} {p3} (hM : Incl 0xc5611610080467c M) (h : Within M s x) (kp3 : ∀ b1 b2, Within M s b1 → Within M s (p3 b1 b2)) : Within M s (State.withSender x p2 p3) := by
  unfold State.withSender
  extract_lets -merge +onlyGivenNames v1
  clear_value v1
  split
  · refine Within.ite ?_ (fun _ => ?_)
    · split
      · exact State.deadFrame_in (hM.of rfl) h
      · refine Within.ite ?_ (fun _ => ?_)
        · exact kp3 _ _ h
        · exact State.frankFail_in (hM.of rfl) h
    · exact State.countHeldOff_in (hM.of rfl) h
  · refine Within.ite ?_ (fun _ => ?_)
    · split
      · exact State.deadFrame_in (hM.of rfl) h
      · extract_lets -merge +onlyGivenNames v2
        clear_value v2
        refine Within.ite ?_ (fun _ => ?_)
        · extract_lets -merge +onlyGivenNames v3
          have h4 : Within M s v3 := State.decideNew_in (hM.of rfl) h
          clear_value v3
          split
          · refine Within.ite ?_ (fun _ => ?_)
            · exact State.countHeldOff_in (hM.of rfl) h4
            · exact kp3 _ _ h4
          · exact h4
        · exact State.frankFail_in (hM.of rfl) h
    · exact h

theorem State.pickDesc_in {p2} {p3} (hM : Incl 0x1c100081008000c4 M) (h : Within M s x) : Within M s (State.pickDesc x p2 p3).1 := by
  unfold State.pickDesc
  extract_lets -merge +onlyGivenNames v1 v2
  clear_value v1 v2
  refine Within.ite1 ?_ (fun _ => ?_)
  · split
    · exact Within.mk1 h
    · refine Within.ite1 ?_ (fun _ => ?_)
      · refine Within.ite1 ?_ (fun _ => ?_)
        · exact Within.mk1 h
        · extract_lets -merge +onlyGivenNames v3
          have h4 : Within M s v3 := State.useDesc_in (hM.of rfl) h
          clear_value v3
          exact Within.mk1 h4
      · extract_lets -merge +onlyGivenNames v5
        clear_value v5
        refine Within.ite1 ?_ (fun _ => ?_)
        · refine Within.ite1 ?_ (fun _ => ?_)
          · exact Within.mk1 h
          · exact Within.mk1 (Within.set_adm h (hM.of rfl))
        · extract_lets -merge +onlyGivenNames v6
          have h7 : Within M s v6 := State.useDesc_in (hM.of rfl) h
          clear_value v6
          extract_lets -merge +onlyGivenNames v8
          clear_value v8
          exact Within.mk1 h7
  · exact Within.mk1 h

theorem State.blockLetter_in {p2} {p3} {p4} (hM : Incl 0x1c100081008000c4 M) (h : Within M s x) : Within M s (State.blockLetter x p2 p3 p4).1 := by
  unfold State.blockLetter
  split
  · rename_i z1 z2 z3 z4
    have h5 : Within M s z2 := Within.of_fst z4 (State.pickDesc_in (hM.of rfl) h)
    exact Within.mk1 h5
  · rename_i z6 z7 z8 z9
    have h10 : Within M s z7 := Within.of_fst z9 (State.pickDesc_in (hM.of rfl) h)
    split
    · exact Within.mk1 h10
    · extract_lets -merge +onlyGivenNames v11 v12
      clear_value v11 v12
      exact Within.mk1 h10

theorem State.startAsking_in {p2} (hM : Incl 0x40 M) (h : Within M s x) : Within M s (State.startAsking x p2) := by
  unfold State.startAsking
  split
  · exact h
  · refine Within.ite ?_ (fun _ => ?_)
    · exact h
    · exact State.putSender_in (hM.of rfl) h

theorem State.noLetter_in {p2} {p3} {p4} (hM : Incl 0xc5001210080007c M) (h : Within M s x) : Within M s (State.noLetter x p2 p3 p4) := by
  unfold State.noLetter
  extract_lets -merge +onlyGivenNames v1
  have h2 : Within M s v1 := State.deadFrame_in (hM.of rfl) h
  clear_value v1
  extract_lets -merge +onlyGivenNames v3
  have h4 : Within M s v3 := by
    unfold v3
    refine Within.ite ?_ (fun _ => ?_)
    · exact h2
    · exact State.startAsking_in (hM.of rfl) h2
  clear_value v3
  split
  · exact h4
  · refine Within.ite ?_ (fun _ => ?_)
    · exact h4
    · exact State.askCfg_in (hM.of rfl) h4

theorem State.parseData_in {p2} {p3} {p4} (hM : Incl 0xbc5001a1008000fc M) (h : Within M s x) : Within M s (State.parseData x p2 p3 p4) := by
  unfold State.parseData
  refine Within.ite ?_ (fun _ => ?_)
  · split
    rename_i z1 z2 z3 z4 z5
    have h6 : Within M s z2 := Within.of_fst z5 (by
      refine Within.foldl1 ?_ (fun y7 y8 h9 => ?_)
      · exact Within.mk1 h
      · split
        · rename_i z10 z11 z12 z13
          have h14 : Within M s z11 := Within.of_fst z13 (State.blockLetter_in (hM.of rfl) h9)
          exact Within.mk1 h14
        · rename_i z15 z16 z17 z18
          have h19 : Within M s z16 := Within.of_fst z18 (State.blockLetter_in (hM.of rfl) h9)
          exact Within.mk1 h19)
    refine Within.ite ?_ (fun _ => ?_)
    · extract_lets -merge +onlyGivenNames v20
      have h21 : Within M s v20 := by
        unfold v20
        refine Within.ite ?_ (fun _ => ?_)
        · exact h6
        · exact State.startAsking_in (hM.of rfl) h6
      clear_value v20
      exact State.lettersFormed_in (hM.of rfl) h21
    · exact State.noLetter_in (hM.of rfl) h6
  · exact State.noLetter_in (hM.of rfl) h

theorem State.c37Data_in {p2} {p3} (hM : Incl 0xbc5611e1008046fc M) (h : Within M s x) : Within M s (State.c37Data x p2 p3) := by
  unfold State.c37Data
  refine Within.ite ?_ (fun _ => ?_)
  · exact State.disc_in (hM.of rfl) h
  · refine State.withSender_in (hM.of rfl) h (fun y1 y2 h3 => ?_)
    exact State.parseData_in (hM.of rfl) h3

theorem State.newDesc_in {p2} {p3} {p4} (hM : Incl 0x1c100081008000c4 M) (h : Within M s x) : Within M s (State.newDesc x p2 p3 p4) := by
  unfold State.newDesc
  extract_lets -merge +onlyGivenNames v1
  have h2 : Within M s v1 := by
    unfold v1
    refine Within.ite ?_ (fun _ => ?_)
    · exact h
    · exact State.logEvent_in (hM.of rfl) h
  clear_value v1
  refine Within.ite ?_ (fun _ => ?_)
  · extract_lets -merge +onlyGivenNames v3
    have h4 : Within M s v3 := State.useDesc_in (hM.of rfl) h2
    clear_value v3
    refine Within.ite ?_ (fun _ => ?_)
    · exact h4
    · exact State.goLive_in (hM.of rfl) h4
  · exact State.wr_in (hM.of rfl) (Within.set_adm h2 (hM.of rfl))

theorem State.buildDescs_in {p2} {p3} {p4} {p5} (hM : Incl 0x5c5001e1008000fc M) (h : Within M s x) : Within M s (State.buildDescs x p2 p3 p4 p5) := by
  unfold State.buildDescs
  split
  · exact State.deadFrame_in (hM.of rfl) h
  · extract_lets -merge +onlyGivenNames v1
    clear_value v1
    extract_lets -merge +onlyGivenNames v2
    have h3 : Within M s v2 := State.putSender_in (hM.of rfl) h
    clear_value v2
    extract_lets -merge +onlyGivenNames v4
    have h5 : Within M s v4 := by
      unfold v4
      refine Within.ite ?_ (fun _ => ?_)
      · exact h3
      · exact State.allocBlocks_in (hM.of rfl) h3
    clear_value v4
    split
    · exact h5
    · extract_lets -merge +onlyGivenNames v6
      clear_value v6
      extract_lets -merge +onlyGivenNames v7
      have h8 : Within M s v7 := by
        unfold v7
        refine Within.forEach ?_ (fun y9 y10 h11 => ?_)
        · exact h5
        · exact State.newDesc_in (hM.of rfl) h11
      clear_value v7
      extract_lets -merge +onlyGivenNames v12
      have h13 : Within M s v12 := by
        unfold v12
        refine Within.ite ?_ (fun _ => ?_)
        · exact State.notice_in (hM.of rfl) h8
        · exact h8
      clear_value v12
      extract_lets -merge +onlyGivenNames v14
      have h15 : Within M s v14 := State.showAdm_in (hM.of rfl) h13
      clear_value v14
      refine Within.ite ?_ (fun _ => ?_)
      · exact h15
      · exact State.sendCmd_in (hM.of rfl) h15

theorem State.parseCfg_in {p2} {p3} (hM : Incl 0x5c5001e1008000fc M) (h : Within M s x) : Within M s (State.parseCfg x p2 p3) := by
  unfold State.parseCfg
  extract_lets -merge +onlyGivenNames v1
  clear_value v1
  refine Within.ite ?_ (fun _ => ?_)
  · split
    · exact State.deadFrame_in (hM.of rfl) (State.putSender_in (hM.of rfl) h)
    · exact State.putSender_in (hM.of rfl) h
    · extract_lets -merge +onlyGivenNames v2
      clear_value v2
      exact State.buildDescs_in (hM.of rfl) (State.putSender_in (hM.of rfl) h)
  · exact State.deadFrame_in (hM.of rfl) h

theorem State.c37Cfg_in {p2} (hM : Incl 0x5c5611e1008046fc M) (h : Within M s x) : Within M s (State.c37Cfg x p2) := by
  unfold State.c37Cfg
  refine Within.ite ?_ (fun _ => ?_)
  · refine Within.ite ?_ (fun _ => ?_)
    · refine State.withSender_in (hM.of rfl) h (fun y1 y2 h3 => ?_)
      exact State.parseCfg_in (hM.of rfl) h3
    · exact h
  · exact State.disc_in (hM.of rfl) h

theorem State.replayTake_in {p2} {p3} {p4} (hM : Incl 0x4000000000240 M) (h : Within M s x) : Within M s (State.replayTake x p2 p3 p4) := by
  unfold State.replayTake
  exact State.noteRx_in (hM.of rfl) (Within.set_adm h (hM.of rfl))

theorem State.frank_in {p2} {p3} {p4} (hM : Incl 0x414000100800244 M) (h : Within M s x) : Within M s (State.frank x p2 p3 p4).1 := by
  unfold State.frank
  refine Within.ite1 ?_ (fun _ => ?_)
  · split
    · exact Within.mk1 h
    · extract_lets -merge +onlyGivenNames v1
      clear_value v1
      split
      · rename_i z2 z3 z4
        have h5 : Within M s z3 := Within.of_fst z4 (State.useKey_in (hM.of rfl) h)
        exact Within.mk1 h5
      · rename_i z6 z7 z8 z9
        have h10 : Within M s z7 := Within.of_fst z9 (State.useKey_in (hM.of rfl) h)
        refine Within.ite1 ?_ (fun _ => ?_)
        · split
          · exact Within.mk1 h10
          · exact Within.mk1 (State.replayTake_in (hM.of rfl) h10)
        · exact Within.mk1 h10
  · exact Within.mk1 h

theorem State.parseSpdu_in {p2} {p3} {p4} {p5} {p6} (hM : Incl 0xac5001210080007c M) (h : Within M s x) : Within M s (State.parseSpdu x p2 p3 p4 p5 p6) := by
  unfold State.parseSpdu
  extract_lets -merge +onlyGivenNames v1 v2 v3
  clear_value v1 v2 v3
  refine Within.ite ?_ (fun _ => ?_)
  · refine Within.ite ?_ (fun _ => ?_)
    · exact State.lettersFormed_in (hM.of rfl) h
    · refine Within.forEach ?_ (fun y4 y5 h6 => ?_)
      · exact h
      · exact Within.set_adm h6 (hM.of rfl)
  · exact State.noLetter_in (hM.of rfl) h

theorem State.spduIn_in {p2} {p3} {p4} (hM : Incl 0xac5611610080467c M) (h : Within M s x) : Within M s (State.spduIn x p2 p3 p4) := by
  unfold State.spduIn
  extract_lets -merge +onlyGivenNames v1
  clear_value v1
  refine Within.ite ?_ (fun _ => ?_)
  · split
    · refine Within.ite ?_ (fun _ => ?_)
      · refine Within.ite ?_ (fun _ => ?_)
        · split
          · rename_i z2 z3 z4 z5
            have h6 : Within M s z3 := Within.of_fst z5 (State.frank_in (hM.of rfl) h)
            exact State.frankFail_in (hM.of rfl) h6
          · rename_i z7 z8 z9 z10
            have h11 : Within M s z8 := Within.of_fst z10 (State.frank_in (hM.of rfl) h)
            exact State.parseSpdu_in (hM.of rfl) h11
        · exact State.deadFrame_in (hM.of rfl) h
      · exact State.countHeldOff_in (hM.of rfl) h
    · refine Within.ite ?_ (fun _ => ?_)
      · refine Within.ite ?_ (fun _ => ?_)
        · extract_lets -merge +onlyGivenNames v12
          clear_value v12
          split
          · rename_i z13 z14 z15 z16
            have h17 : Within M s z14 := Within.of_fst z16 (State.frank_in (hM.of rfl) h)
            exact State.frankFail_in (hM.of rfl) h17
          · rename_i z18 z19 z20 z21
            have h22 : Within M s z19 := Within.of_fst z21 (State.frank_in (hM.of rfl) h)
            extract_lets -merge +onlyGivenNames v23
            have h24 : Within M s v23 := State.decideNew_in (hM.of rfl) h22
            clear_value v23
            split
            · refine Within.ite ?_ (fun _ => ?_)
              · exact State.countHeldOff_in (hM.of rfl) h24
              · exact State.parseSpdu_in (hM.of rfl) h24
            · exact Within.set_adm h24 (hM.of rfl)
        · exact State.deadFrame_in (hM.of rfl) h
      · exact h
  · exact State.disc_in (hM.of rfl) h

theorem execC37DataFrame_in {p1} (hM : Incl 0xbc5611e1008046fe M) : WithinRes M s (execC37DataFrame p1 s) := by
  have h : Within M s s := Within.refl s
  unfold execC37DataFrame
  refine WithinRes.next ?_
  refine State.onFrame_in (hM.of rfl) h (fun y1 h2 => ?_)
  exact State.c37Data_in (hM.of rfl) h2

theorem execC37CfgFrame_in {p1} (hM : Incl 0x5c5611e1008046fe M) : WithinRes M s (execC37CfgFrame p1 s) := by
  have h : Within M s s := Within.refl s
  unfold execC37CfgFrame
  refine WithinRes.next ?_
  refine State.onFrame_in (hM.of rfl) h (fun y1 h2 => ?_)
  exact State.c37Cfg_in (hM.of rfl) h2

theorem execSpduReceived_in {p1} {p2} (hM : Incl 0xac5611610080467e M) : WithinRes M s (execSpduReceived p1 p2 s) := by
  have h : Within M s s := Within.refl s
  unfold execSpduReceived
  refine WithinRes.next ?_
  refine State.onFrame_in (hM.of rfl) h (fun y1 h2 => ?_)
  exact State.spduIn_in (hM.of rfl) h2

theorem State.putConn_in {p2} (hM : Incl 0x20 M) (h : Within M s x) : Within M s (State.putConn x p2) := by
  unfold State.putConn
  exact Within.set_net h (hM.of rfl)

theorem State.tcpFrame_in {p2} {p3} (hM : Incl 0xfc5611e1008046fc M) (h : Within M s x) : Within M s (State.tcpFrame x p2 p3) := by
  unfold State.tcpFrame
  extract_lets -merge +onlyGivenNames v1 v2
  clear_value v1 v2
  refine Within.ite ?_ (fun _ => ?_)
  · refine Within.ite ?_ (fun _ => ?_)
    · exact State.c37Cfg_in (hM.of rfl) h
    · exact State.disc_in (hM.of rfl) h
  · exact State.c37Data_in (hM.of rfl) h

theorem State.tcpIn_in {p2} (hM : Incl 0xfc5611e1008046fc M) (h : Within M s x) : Within M s (State.tcpIn x p2) := by
  unfold State.tcpIn
  split
  · exact State.disc_in (hM.of rfl) h
  · extract_lets -merge +onlyGivenNames v1
    clear_value v1
    split
    extract_lets -merge +onlyGivenNames v2
    have h3 : Within M s v2 := State.putConn_in (hM.of rfl) h
    clear_value v2
    extract_lets -merge +onlyGivenNames v4
    clear_value v4
    extract_lets -merge +onlyGivenNames v5
    have h6 : Within M s v5 := by
      unfold v5
      refine Within.forEach ?_ (fun y7 y8 h9 => ?_)
      · exact h3
      · exact State.tcpFrame_in (hM.of rfl) h9
    clear_value v5
    refine Within.ite ?_ (fun _ => ?_)
    · exact h6
    · exact State.deadFrame_in (hM.of rfl) h6

theorem execTcpSegment_in {p1} (hM : Incl 0xfc5611e1008046fe M) : WithinRes M s (execTcpSegment p1 s) := by
  have h : Within M s s := Within.refl s
  unfold execTcpSegment
  refine WithinRes.next ?_
  refine State.onFrame_in (hM.of rfl) h (fun y1 h2 => ?_)
  exact State.tcpIn_in (hM.of rfl) h2

theorem execTcpConnected_in {p1} {p2} (hM : Incl 0x45001210080003e M) : WithinRes M s (execTcpConnected p1 p2 s) := by
  have h : Within M s s := Within.refl s
  unfold execTcpConnected
  extract_lets -merge +onlyGivenNames v1
  have h2 : Within M s v1 := State.advance_in (hM.of rfl) h
  clear_value v1
  split
  · exact WithinRes.next h2
  · extract_lets -merge +onlyGivenNames v3
    have h4 : ∀ b1 b2, Within M s b1 → Within M s (v3 b1 b2) := by
      intro y5 y6 h7
      unfold v3
      exact State.tx_in (hM.of rfl) h7
    clear_value v3
    extract_lets -merge +onlyGivenNames v8
    have h9 : Within M s v8 := by
      unfold v8
      exact h4 _ _ (State.putConn_in (hM.of rfl) h2)
    clear_value v8
    refine WithinRes.next ?_
    refine Within.ite ?_ (fun _ => ?_)
    · exact h9
    · exact h4 _ _ h9

theorem execTcpConnFail_in {p1} {p2} (hM : Incl 0x22 M) : WithinRes M s (execTcpConnFail p1 p2 s) := by
  have h : Within M s s := Within.refl s
  unfold execTcpConnFail
  extract_lets -merge +onlyGivenNames v1
  have h2 : Within M s v1 := State.advance_in (hM.of rfl) h
  clear_value v1
  split
  · exact WithinRes.next h2
  · exact WithinRes.next (State.putConn_in (hM.of rfl) h2)

theorem State.openConn_in {p2} (hM : Incl 0x45001210080003c M) (h : Within M s x) : Within M s (State.openConn x p2) := by
  unfold State.openConn
  extract_lets -merge +onlyGivenNames v1
  clear_value v1
  exact State.tx_in (hM.of rfl) h

theorem execTcpReconnect_in {p1} {p2} (hM : Incl 0x45001210080003e M) : WithinRes M s (execTcpReconnect p1 p2 s) := by
  have h : Within M s s := Within.refl s
  unfold execTcpReconnect
  extract_lets -merge +onlyGivenNames v1
  have h2 : Within M s v1 := State.advance_in (hM.of rfl) h
  clear_value v1
  split
  · exact WithinRes.next h2
  · refine WithinRes.next ?_
    refine Within.ite ?_ (fun _ => ?_)
    · exact h2
    · exact State.openConn_in (hM.of rfl) (State.putConn_in (hM.of rfl) h2)

theorem State.openConns_in (hM : Incl 0x45001210080007c M) (h : Within M s x) : Within M s (State.openConns x) := by
  unfold State.openConns
  refine Within.forEach ?_ (fun y1 y2 h3 => ?_)
  · exact h
  · refine Within.ite ?_ (fun _ => ?_)
    · refine Within.ite ?_ (fun _ => ?_)
      · extract_lets -merge +onlyGivenNames v4
        clear_value v4
        exact State.openConn_in (hM.of rfl) (Within.set_net_adm h3 (hM.of rfl))
      · exact State.notice_in (hM.of rfl) h3
    · exact h3

theorem execCfgRequestTimer_in {p1} {p2} (hM : Incl 0x45001210080007e M) : WithinRes M s (execCfgRequestTimer p1 p2 s) := by
  have h : Within M s s := Within.refl s
  unfold execCfgRequestTimer
  extract_lets -merge +onlyGivenNames v1
  have h2 : Within M s v1 := State.advance_in (hM.of rfl) h
  clear_value v1
  split
  · exact WithinRes.next h2
  · refine WithinRes.ite ?_ ?_
    · refine WithinRes.next ?_
      refine Within.ite ?_ (fun _ => ?_)
      · exact h2
      · exact State.sendCmd_in (hM.of rfl) (State.putSender_in (hM.of rfl) h2)
    · exact WithinRes.next (State.putSender_in (hM.of rfl) h2)

theorem execPendingTimeout_in {p1} {p2} (hM : Incl 0x4000000042 M) : WithinRes M s (execPendingTimeout p1 p2 s) := by
  have h : Within M s s := Within.refl s
  unfold execPendingTimeout
  extract_lets -merge +onlyGivenNames v1
  have h2 : Within M s v1 := State.advance_in (hM.of rfl) h
  clear_value v1
  split
  · exact WithinRes.next h2
  · refine WithinRes.next ?_
    refine Within.ite ?_ (fun _ => ?_)
    · exact h2
    · exact State.refuse_in (hM.of rfl) h2

theorem execRefusedExpiry_in {p1} {p2} (hM : Incl 0x4000000042 M) : WithinRes M s (execRefusedExpiry p1 p2 s) := by
  have h : Within M s s := Within.refl s
  unfold execRefusedExpiry
  extract_lets -merge +onlyGivenNames v1
  have h2 : Within M s v1 := State.advance_in (hM.of rfl) h
  clear_value v1
  split
  · exact WithinRes.next h2
  · refine WithinRes.next ?_
    refine Within.ite ?_ (fun _ => ?_)
    · exact h2
    · exact State.dropSender_in (hM.of rfl) h2

theorem State.admDecideWrite_in {p2} (hM : Incl 0xc10004100800044 M) (h : Within M s x) : Within M s (State.admDecideWrite x p2) := by
  unfold State.admDecideWrite
  extract_lets -merge +onlyGivenNames v1 v2
  clear_value v1 v2
  split
  · exact State.wr_in (hM.of rfl) h
  · refine Within.ite ?_ (fun _ => ?_)
    · refine Within.ite ?_ (fun _ => ?_)
      · exact State.wr_in (hM.of rfl) (State.refuse_in (hM.of rfl) h)
      · exact State.wr_in (hM.of rfl) (State.showAdm_in (hM.of rfl) (State.putSender_in (hM.of rfl) (State.setFlag_in (hM.of rfl) (hM.of rfl) h)))
    · refine Within.ite ?_ (fun _ => ?_)
      · exact State.wr_in (hM.of rfl) (State.accept_in (hM.of rfl) h)
      · exact State.wr_in (hM.of rfl) h

theorem execAdmDecide_in {p1} (hM : Incl 0xc10004100804044 M) : WithinRes M s (execAdmDecide p1 s) := by
  have h : Within M s s := Within.refl s
  unfold execAdmDecide
  refine WithinRes.next ?_
  refine State.hostGate_in (hM.of rfl) h (fun y1 h2 => ?_)
  exact State.admDecideWrite_in (hM.of rfl) h2

theorem State.swapBanks_in (hM : Incl 0x4000000000 M) (h : Within M s x) : Within M s (State.swapBanks x) := by
  unfold State.swapBanks
  extract_lets -merge +onlyGivenNames v1 v2 v3 v4
  clear_value v1 v2 v3 v4
  extract_lets -merge +onlyGivenNames v5
  have h6 : Within M s v5 := by
    unfold v5
    refine Within.forEach ?_ (fun y7 y8 h9 => ?_)
    · exact h
    · exact State.put_in (hM.of rfl) h9
  clear_value v5
  refine Within.forEach ?_ (fun y10 y11 h12 => ?_)
  · exact h6
  · exact State.put_in (hM.of rfl) h12

theorem State.admCtlWrite_in {p2} (hM : Incl 0x45001610080007c M) (h : Within M s x) : Within M s (State.admCtlWrite x p2) := by
  unfold State.admCtlWrite
  extract_lets -merge +onlyGivenNames v1
  have h2 : Within M s v1 := State.wr_in (hM.of rfl) (State.wr_in (hM.of rfl) (State.wr_in (hM.of rfl) h))
  clear_value v1
  refine Within.ite ?_ (fun _ => ?_)
  · extract_lets -merge +onlyGivenNames v3
    have h4 : Within M s v3 := State.swapBanks_in (hM.of rfl) h2
    clear_value v3
    extract_lets -merge +onlyGivenNames v5
    have h6 : Within M s v5 := by
      unfold v5
      refine Within.forEach ?_ (fun y7 y8 h9 => ?_)
      · exact h4
      · exact State.dropSender_in (hM.of rfl) h9
    clear_value v5
    extract_lets -merge +onlyGivenNames v10 v11
    clear_value v10 v11
    extract_lets -merge +onlyGivenNames v12
    have h13 : Within M s v12 := by
      unfold v12
      refine Within.ite ?_ (fun _ => ?_)
      · exact h6
      · exact Within.set_adm h6 (hM.of rfl)
    clear_value v12
    exact State.openConns_in (hM.of rfl) (State.notice_in (hM.of rfl) h13)
  · exact h2

theorem execAdmCommit_in {p1} (hM : Incl 0x45001610080407c M) : WithinRes M s (execAdmCommit p1 s) := by
  have h : Within M s s := Within.refl s
  unfold execAdmCommit
  refine WithinRes.next ?_
  refine State.hostGate_in (hM.of rfl) h (fun y1 h2 => ?_)
  exact State.admCtlWrite_in (hM.of rfl) h2

theorem execSidQuarantineEnd_in {p1} {p2} (hM : Incl 0x800004000000042 M) : WithinRes M s (execSidQuarantineEnd p1 p2 s) := by
  have h : Within M s s := Within.refl s
  unfold execSidQuarantineEnd
  extract_lets -merge +onlyGivenNames v1
  have h2 : Within M s v1 := State.advance_in (hM.of rfl) h
  clear_value v1
  refine WithinRes.next ?_
  refine Within.ite ?_ (fun _ => ?_)
  · exact h2
  · exact State.showAdm_in (hM.of rfl) (State.wr_in (hM.of rfl) (Within.set_adm h2 (hM.of rfl)))

theorem State.descStands_in {p2} {p3} (hM : Incl 0xc10008100800084 M) (h : Within M s x) : Within M s (State.descStands x p2 p3) := by
  unfold State.descStands
  exact State.streamJudged_in (hM.of rfl) (State.showDesc_in (hM.of rfl) h)

theorem State.descCheckWrite_in {p2} {p3} (hM : Incl 0x1c1000c1008000c4 M) (h : Within M s x) : Within M s (State.descCheckWrite x p2 p3) := by
  unfold State.descCheckWrite
  extract_lets -merge +onlyGivenNames v1
  subst v1
  extract_lets -merge +onlyGivenNames v2 v3
  clear_value v2 v3
  refine Within.ite ?_ (fun _ => ?_)
  · extract_lets -merge +onlyGivenNames v4
    have h5 : Within M s v4 := State.put_in (hM.of rfl) h
    clear_value v4
    extract_lets -merge +onlyGivenNames v6
    clear_value v6
    refine Within.ite ?_ (fun _ => ?_)
    · refine Within.ite ?_ (fun _ => ?_)
      · exact h5
      · extract_lets -merge +onlyGivenNames v7
        have h8 : Within M s v7 := State.descStands_in (hM.of rfl) (State.setCounts_in (hM.of rfl) h5)
        clear_value v7
        refine Within.ite ?_ (fun _ => ?_)
        · refine Within.forEach ?_ (fun y9 y10 h11 => ?_)
          · exact h8
          · exact State.giveHeld_in (hM.of rfl) h11
        · exact State.showAdm_in (hM.of rfl) (State.goLive_in (hM.of rfl) h8)
    · refine Within.ite ?_ (fun _ => ?_)
      · refine Within.forEach ?_ (fun y12 y13 h14 => ?_)
        · exact State.showAdm_in (hM.of rfl) (State.wr_in (hM.of rfl) h5)
        · exact State.showMembers_in (hM.of rfl) h14
      · extract_lets -merge +onlyGivenNames v15 v16
        clear_value v15 v16
        exact State.descStands_in (hM.of rfl) (State.dropCand_in (hM.of rfl) (State.putDesc_in (hM.of rfl) (State.setCounts_in (hM.of rfl) h5)))
  · exact State.logRefused_in (hM.of rfl) h

theorem execDescriptorCheckWrite_in {p1} {p2} (hM : Incl 0x1c1000c1008040c4 M) : WithinRes M s (execDescriptorCheckWrite p1 p2 s) := by
  have h : Within M s s := Within.refl s
  unfold execDescriptorCheckWrite
  refine WithinRes.next ?_
  refine State.hostGate_in (hM.of rfl) h (fun y1 h2 => ?_)
  exact State.descCheckWrite_in (hM.of rfl) h2

theorem execRgooseHoldLetter_in {p1} {p2} (hM : Incl 0xac5001010080005e M) : WithinRes M s (execRgooseHoldLetter p1 p2 s) := by
  have h : Within M s s := Within.refl s
  unfold execRgooseHoldLetter
  extract_lets -merge +onlyGivenNames v1
  have h2 : Within M s v1 := State.advance_in (hM.of rfl) h
  clear_value v1
  split
  · exact WithinRes.next h2
  · refine WithinRes.ite ?_ ?_
    · extract_lets -merge +onlyGivenNames v3 v4
      clear_value v3 v4
      exact WithinRes.next (State.letterFormed_in (hM.of rfl) h2)
    · exact WithinRes.next h2

theorem execOtherFrame_in {p1} (hM : Incl 0x410002100800026 M) : WithinRes M s (execOtherFrame p1 s) := by
  have h : Within M s s := Within.refl s
  unfold execOtherFrame
  refine WithinRes.next ?_
  refine State.onFrame_in (hM.of rfl) h (fun y1 h2 => ?_)
  exact State.disc_in (hM.of rfl) h2

theorem execArpRequest_in {p1} {p2} (hM : Incl 0x45001210080003e M) : WithinRes M s (execArpRequest p1 p2 s) := by
  have h : Within M s s := Within.refl s
  unfold execArpRequest
  refine WithinRes.next ?_
  refine State.onFrame_in (hM.of rfl) h (fun y1 h2 => ?_)
  refine Within.ite ?_ (fun _ => ?_)
  · exact h2
  · exact State.tx_in (hM.of rfl) h2

theorem execEchoRequest_in {p1} {p2} (hM : Incl 0x45001210080003e M) : WithinRes M s (execEchoRequest p1 p2 s) := by
  have h : Within M s s := Within.refl s
  unfold execEchoRequest
  refine WithinRes.next ?_
  refine State.onFrame_in (hM.of rfl) h (fun y1 h2 => ?_)
  extract_lets -merge +onlyGivenNames v3 v4
  clear_value v3 v4
  refine Within.ite ?_ (fun _ => ?_)
  · exact h2
  · exact State.tx_in (hM.of rfl) (State.setPort_in (hM.of rfl) h2)

theorem State.reasmFail_in {p2} (hM : Incl 0x410002100800004 M) (h : Within M s x) : Within M s (State.reasmFail x p2) := by
  unfold State.reasmFail
  exact State.notice_in (hM.of rfl) (State.bump_in (hM.of rfl) (hM.of rfl) h)

theorem State.dropFrag_in {p2} (hM : Incl 0x20 M) (h : Within M s x) : Within M s (State.dropFrag x p2) := by
  unfold State.dropFrag
  exact Within.set_net h (hM.of rfl)

theorem execReasmTimeout_in {p1} {p2} (hM : Incl 0x410002100800026 M) : WithinRes M s (execReasmTimeout p1 p2 s) := by
  have h : Within M s s := Within.refl s
  unfold execReasmTimeout
  extract_lets -merge +onlyGivenNames v1
  have h2 : Within M s v1 := State.advance_in (hM.of rfl) h
  clear_value v1
  split
  · exact WithinRes.next h2
  · refine WithinRes.next ?_
    refine Within.ite ?_ (fun _ => ?_)
    · exact h2
    · exact State.reasmFail_in (hM.of rfl) (State.dropFrag_in (hM.of rfl) h2)

theorem execFcsErrFrame_in {p1} {p2} (hM : Incl 0x2000000022 M) : WithinRes M s (execFcsErrFrame p1 p2 s) := by
  have h : Within M s s := Within.refl s
  unfold execFcsErrFrame
  extract_lets -merge +onlyGivenNames v1
  have h2 : Within M s v1 := State.advance_in (hM.of rfl) h
  clear_value v1
  extract_lets -merge +onlyGivenNames v3
  clear_value v3
  extract_lets -merge +onlyGivenNames v4
  have h5 : Within M s v4 := State.inc_in (hM.of rfl) (hM.of rfl) h2
  clear_value v4
  exact WithinRes.next (State.setPort_in (hM.of rfl) h5)

theorem State.flushPort_in {p2} (hM : Incl 0x45001210080003c M) (h : Within M s x) : Within M s (State.flushPort x p2) := by
  unfold State.flushPort
  extract_lets -merge +onlyGivenNames v1 v2
  clear_value v1 v2
  extract_lets -merge +onlyGivenNames v3
  have h4 : Within M s v3 := State.setPort_in (hM.of rfl) h
  clear_value v3
  refine Within.forEach ?_ (fun y5 y6 h7 => ?_)
  · exact h4
  · refine Within.forEach ?_ (fun y8 y9 h10 => ?_)
    · exact h7
    · exact State.startTx_in (hM.of rfl) h10

theorem State.setPause_in {p2} {p3} (hM : Incl 0x45001210080003c M) (h : Within M s x) : Within M s (State.setPause x p2 p3) := by
  unfold State.setPause
  exact State.flushPort_in (hM.of rfl) (State.setFlag_in (hM.of rfl) (hM.of rfl) (State.setPort_in (hM.of rfl) h))

theorem execPauseFrame_in {p1} {p2} {p3} (hM : Incl 0x45001210080003e M) : WithinRes M s (execPauseFrame p1 p2 p3 s) := by
  have h : Within M s s := Within.refl s
  unfold execPauseFrame
  extract_lets -merge +onlyGivenNames v1
  have h2 : Within M s v1 := State.advance_in (hM.of rfl) h
  clear_value v1
  refine WithinRes.next ?_
  refine Within.ite ?_ (fun _ => ?_)
  · extract_lets -merge +onlyGivenNames v3
    have h4 : Within M s v3 := State.inc_in (hM.of rfl) (hM.of rfl) h2
    clear_value v3
    extract_lets -merge +onlyGivenNames v5 v6
    clear_value v5 v6
    refine Within.ite ?_ (fun _ => ?_)
    · split
      · exact State.setPause_in (hM.of rfl) h4
      · refine Within.ite ?_ (fun _ => ?_)
        · exact h4
        · exact State.setPause_in (hM.of rfl) h4
    · exact h4
  · exact h2

theorem execPauseCut_in {p1} {p2} (hM : Incl 0x45001210080003e M) : WithinRes M s (execPauseCut p1 p2 s) := by
  have h : Within M s s := Within.refl s
  unfold execPauseCut
  extract_lets -merge +onlyGivenNames v1
  have h2 : Within M s v1 := State.advance_in (hM.of rfl) h
  clear_value v1
  extract_lets -merge +onlyGivenNames v3
  clear_value v3
  refine WithinRes.next ?_
  refine Within.ite ?_ (fun _ => ?_)
  · exact h2
  · exact State.setPause_in (hM.of rfl) (State.notice_in (hM.of rfl) (State.inc_in (hM.of rfl) (hM.of rfl) h2))

theorem execPauseEnd_in {p1} {p2} (hM : Incl 0x45001210080003e M) : WithinRes M s (execPauseEnd p1 p2 s) := by
  have h : Within M s s := Within.refl s
  unfold execPauseEnd
  extract_lets -merge +onlyGivenNames v1
  have h2 : Within M s v1 := State.advance_in (hM.of rfl) h
  clear_value v1
  extract_lets -merge +onlyGivenNames v3
  clear_value v3
  exact WithinRes.next (State.setPause_in (hM.of rfl) h2)

theorem execEgressShed_in {p1} {p2} (hM : Incl 0x45001210080003e M) : WithinRes M s (execEgressShed p1 p2 s) := by
  have h : Within M s s := Within.refl s
  unfold execEgressShed
  extract_lets -merge +onlyGivenNames v1
  have h2 : Within M s v1 := State.advance_in (hM.of rfl) h
  clear_value v1
  extract_lets -merge +onlyGivenNames v3
  clear_value v3
  extract_lets -merge +onlyGivenNames v4
  have h5 : Within M s v4 := State.setPort_in (hM.of rfl) h2
  clear_value v4
  refine WithinRes.next ?_
  refine Within.forEach ?_ (fun y6 y7 h8 => ?_)
  · exact h5
  · exact State.shedFrame_in (hM.of rfl) h8

end Sys2Proof.Machine
end

