-- ==== Sys2Proof/Laws/WithinOsc.lean ====
section
/-! SUPPORT. What each operation and each meaning may change: oscillation, islanding, placement and alarms. -/
namespace Sys2Proof.Machine

variable {M : Nat} {s x : State}

theorem State.islRec_in {p2} {p3} {p4} (hM : Incl 0x45001010190001c M) (h : Within M s x) : Within M s (State.islRec x p2 p3 p4) := by
  unfold State.islRec
  extract_lets -merge +onlyGivenNames v1
  clear_value v1
  split
  rename_i z2 z3 z4 z5
  have h6 : Within M s z4 := Within.of_snd z5 (State.draw_in (hM.of rfl) h)
  extract_lets -merge +onlyGivenNames v7 v8 v9 v10
  clear_value v7 v8 v9 v10
  extract_lets -merge +onlyGivenNames v11
  have h12 : Within M s v11 := Within.set_isl h6 (hM.of rfl)
  clear_value v11
  exact State.offer_in (hM.of rfl) h12

theorem State.tieAged_in {p2} (hM : Incl 0x2000000000000000000 M) (h : Within M s x) : Within M s (State.tieAged x p2) := by
  unfold State.tieAged
  extract_lets -merge +onlyGivenNames v1
  clear_value v1
  exact State.wr_in (hM.of rfl) (State.wr_in (hM.of rfl) h)

theorem State.tieTold_in {p2} {p3} {p4} (hM : Incl 0x45001010190001c M) (h : Within M s x) : Within M s (State.tieTold x p2 p3 p4) := by
  unfold State.tieTold
  refine Within.ite ?_ (fun _ => ?_)
  · exact State.islRec_in (hM.of rfl) (State.notice_in (hM.of rfl) h)
  · exact h

theorem State.tiesMissed_in {p2} (hM : Incl 0x200045009010190001c M) (h : Within M s x) : Within M s (State.tiesMissed x p2) := by
  unfold State.tiesMissed
  refine State.inc_in (hM.of rfl) (hM.of rfl) ?_
  refine Within.forEach ?_ (fun y1 y2 h3 => ?_)
  · exact h
  · exact State.tieTold_in (hM.of rfl) (State.tieAged_in (hM.of rfl) h3)

theorem State.cancelItem_in {p2} {p3} (hM : Incl 0x200acd20d21019040bc M) (h : Within M s x) : Within M s (State.cancelItem x p2 p3) := by
  unfold State.cancelItem
  split
  extract_lets -merge +onlyGivenNames v1
  have h2 : Within M s v1 := State.chargeStopped_in (hM.of rfl) (State.dropItem_in (hM.of rfl) h)
  clear_value v1
  extract_lets -merge +onlyGivenNames v3
  have h4 : Within M s v3 := by
    unfold v3
    refine Within.ite ?_ (fun _ => ?_)
    · exact State.inc_in (hM.of rfl) (hM.of rfl) h2
    · exact h2
  clear_value v3
  extract_lets -merge +onlyGivenNames v5
  have h6 : Within M s v5 := State.showDepth_in (hM.of rfl) (State.showOcc_in (hM.of rfl) (State.traceEv_in (hM.of rfl) (State.dead_in (hM.of rfl) h4)))
  clear_value v5
  extract_lets -merge +onlyGivenNames v7
  have h8 : Within M s v7 := State.moveQuiet_in (hM.of rfl) (State.tokens_in (hM.of rfl) h6)
  clear_value v7
  extract_lets -merge +onlyGivenNames v9
  have h10 : Within M s v9 := by
    unfold v9
    split
    · exact State.lbDone_in (hM.of rfl) h8
    · exact State.drainOverflow_in (hM.of rfl) h8
    · refine Within.ite ?_ (fun _ => ?_)
      · exact h8
      · exact State.inc_in (hM.of rfl) (hM.of rfl) h8
    · exact State.tiesMissed_in (hM.of rfl) h8
    · exact h8
  clear_value v9
  exact State.slotEnd_in (hM.of rfl) h10

theorem State.expireItem_in {p2} (hM : Incl 0x200acd20d21019040bc M) (h : Within M s x) : Within M s (State.expireItem x p2) := by
  unfold State.expireItem
  exact State.noticeFirst_in (hM.of rfl) (State.cancelItem_in (hM.of rfl) h)

theorem State.cancelWhere_in {p2} {p3} (hM : Incl 0x200acd20d21019040bc M) (h : Within M s x) : Within M s (State.cancelWhere x p2 p3) := by
  unfold State.cancelWhere
  refine Within.forEach ?_ (fun y1 y2 h3 => ?_)
  · exact h
  · exact State.cancelItem_in (hM.of rfl) h3

theorem State.endFlow_in {p2} (hM : Incl 0x200acd20d21019040bc M) (h : Within M s x) : Within M s (State.endFlow x p2) := by
  unfold State.endFlow
  exact State.cancelWhere_in (hM.of rfl) h

theorem State.forceOldest_in {p2} (hM : Incl 0x200acd20d21019040bc M) (h : Within M s x) : Within M s (State.forceOldest x p2) := by
  unfold State.forceOldest
  split
  · exact h
  · extract_lets -merge +onlyGivenNames v1
    clear_value v1
    extract_lets -merge +onlyGivenNames v2
    have h3 : Within M s v2 := State.mapItems_in (hM.of rfl) h
    clear_value v2
    extract_lets -merge +onlyGivenNames v4
    have h5 : Within M s v4 := State.cancelWhere_in (hM.of rfl) h3
    clear_value v4
    extract_lets -merge +onlyGivenNames v6
    have h7 : Within M s v6 := State.modSlot_in (hM.of rfl) h5
    clear_value v6
    exact State.releaseScan_in (hM.of rfl) (State.notice_in (hM.of rfl) h7)

theorem State.reissue_in {p2} {p3} (hM : Incl 0x200acd20d21019040bc M) (h : Within M s x) : Within M s (State.reissue x p2 p3) := by
  unfold State.reissue
  refine Within.ite ?_ (fun _ => ?_)
  · extract_lets -merge +onlyGivenNames v1
    have h2 : Within M s v1 := State.chargeStopped_in (hM.of rfl) h
    clear_value v1
    extract_lets -merge +onlyGivenNames v3
    clear_value v3
    split
    extract_lets -merge +onlyGivenNames v4
    have h5 : Within M s v4 := State.mapItems_in (hM.of rfl) h2
    clear_value v4
    exact State.sorterNext_in (hM.of rfl) (State.moveQuiet_in (hM.of rfl) (State.tokens_in (hM.of rfl) (State.traceEv_in (hM.of rfl) h5)))
  · exact State.cancelItem_in (hM.of rfl) h

theorem State.store_in {p2 : ℕ} {p3 : Word} (hM : Incl 0x410000100800004 M) (kk1 : Incl (areaBit p2) M) (h : Within M s x) : Within M s (State.store x p2 p3) := by
  unfold State.store
  extract_lets -merge +onlyGivenNames v1
  clear_value v1
  extract_lets -merge +onlyGivenNames v2
  have h3 : Within M s v2 := State.setWord_in kk1 h
  clear_value v2
  refine Within.ite ?_ (fun _ => ?_)
  · exact h3
  · exact State.logRefused_in (hM.of rfl) h3

theorem State.chanWrite_in {p2 : ℕ} {p3 : Word} (hM : Incl 0x10410000100800004 M) (kk1 : Incl (areaBit p2) M) (h : Within M s x) : Within M s (State.chanWrite x p2 p3) := by
  unfold State.chanWrite
  exact State.quietChan_in (hM.of rfl) (State.store_in (hM.of rfl) kk1 h)

theorem State.islCtlWrite_in {p2} (hM : Incl 0x45619210080463c M) (h : Within M s x) : Within M s (State.islCtlWrite x p2) := by
  unfold State.islCtlWrite
  extract_lets -merge +onlyGivenNames v1
  have h2 : Within M s v1 := State.store_in (hM.of rfl) (hM.of rfl) h
  clear_value v1
  refine State.islAlarm_in (hM.of rfl) ?_
  refine Within.ite ?_ (fun _ => ?_)
  · exact State.wr_in (hM.of rfl) (State.wr_in (hM.of rfl) h2)
  · exact h2

theorem State.agCfgWrite_in {p2 : ℕ} {p3 : ℕ} {p4 : Word} (hM : Incl 0x1045615210080463c M) (kk1 : Incl (areaBit p3) M) (h : Within M s x) : Within M s (State.agCfgWrite x p2 p3 p4) := by
  unfold State.agCfgWrite
  extract_lets -merge +onlyGivenNames v1
  have h2 : Within M s v1 := State.store_in (hM.of rfl) kk1 h
  clear_value v1
  refine Within.ite ?_ (fun _ => ?_)
  · extract_lets -merge +onlyGivenNames v3
    have h4 : Within M s v3 := State.wr_in (hM.of rfl) (State.wr_in (hM.of rfl) h2)
    clear_value v3
    refine State.suspAlarm_in (hM.of rfl) ?_
    refine State.showRunning_in (hM.of rfl) ?_
    refine Within.forEach ?_ (fun y5 y6 h7 => ?_)
    · exact h4
    · exact State.quietChan_in (hM.of rfl) h7
  · exact h2

theorem State.leaveRun_in (hM : Incl 0x200aed2ad210192c0bc M) (h : Within M s x) : Within M s (State.leaveRun x) := by
  unfold State.leaveRun
  extract_lets -merge +onlyGivenNames v1 v2
  clear_value v1 v2
  extract_lets -merge +onlyGivenNames v3
  have h4 : Within M s v3 := State.cancelWhere_in (hM.of rfl) (Within.set_sof h (hM.of rfl))
  clear_value v3
  extract_lets -merge +onlyGivenNames v5
  have h6 : Within M s v5 := by
    unfold v5
    refine Within.forEach ?_ (fun y7 y8 h9 => ?_)
    · exact h4
    · exact State.deadLetter_in (hM.of rfl) h9
  clear_value v5
  exact State.replaceWaiting_in (hM.of rfl) (State.sortersOff_in (hM.of rfl) (State.capLeave_in (hM.of rfl) (State.acqLeave_in (hM.of rfl) (State.closeRounds_in (hM.of rfl) h6))))

theorem State.modeTo_in {p2} {p3} (hM : Incl 0x219aed6fd27019bdebc M) (h : Within M s x) : Within M s (State.modeTo x p2 p3) := by
  unfold State.modeTo
  extract_lets -merge +onlyGivenNames v1 v2
  clear_value v1 v2
  extract_lets -merge +onlyGivenNames v3
  have h4 : Within M s v3 := by
    unfold v3
    refine Within.ite ?_ (fun _ => ?_)
    · exact h
    · exact State.nrgLeave_in (hM.of rfl) h
  clear_value v3
  extract_lets -merge +onlyGivenNames v5
  have h6 : Within M s v5 := State.armFollow_in (hM.of rfl) (State.notice_in (hM.of rfl) (State.modeWord_in (hM.of rfl) h4))
  clear_value v5
  extract_lets -merge +onlyGivenNames v7
  clear_value v7
  extract_lets -merge +onlyGivenNames v8
  have h9 : Within M s v8 := by
    unfold v8
    refine Within.ite ?_ (fun _ => ?_)
    · exact h6
    · exact Within.set_nrg h6 (hM.of rfl)
  clear_value v8
  extract_lets -merge +onlyGivenNames v10
  have h11 : Within M s v10 := by
    unfold v10
    refine Within.ite ?_ (fun _ => ?_)
    · exact h9
    · exact State.clkSet_in (hM.of rfl) (State.checkCap_in (hM.of rfl) h9)
  clear_value v10
  extract_lets -merge +onlyGivenNames v12
  have h13 : Within M s v12 := by
    unfold v12
    refine Within.ite ?_ (fun _ => ?_)
    · exact h11
    · exact State.checkAnalysis_in (hM.of rfl) h11
  clear_value v12
  extract_lets -merge +onlyGivenNames v14 v15
  clear_value v14 v15
  extract_lets -merge +onlyGivenNames v16
  have h17 : Within M s v16 := by
    unfold v16
    refine Within.ite ?_ (fun _ => ?_)
    · exact State.runRest_in (hM.of rfl) h13
    · exact Within.set_glb h13 (hM.of rfl)
  clear_value v16
  extract_lets -merge +onlyGivenNames v18
  clear_value v18
  extract_lets -merge +onlyGivenNames v19
  have h20 : Within M s v19 := Within.set_strt h17 (hM.of rfl)
  clear_value v19
  extract_lets -merge +onlyGivenNames v21
  have h22 : Within M s v21 := State.wr_in (hM.of rfl) h20
  clear_value v21
  extract_lets -merge +onlyGivenNames v23
  clear_value v23
  extract_lets -merge +onlyGivenNames v24
  have h25 : Within M s v24 := by
    unfold v24
    refine Within.ite ?_ (fun _ => ?_)
    · exact h22
    · exact Within.set_pair h22 (hM.of rfl)
  clear_value v24
  extract_lets -merge +onlyGivenNames v26
  have h27 : Within M s v26 := by
    unfold v26
    refine Within.ite ?_ (fun _ => ?_)
    · exact State.setReady_in (hM.of rfl) (State.setFlag_in (hM.of rfl) (hM.of rfl) h25)
    · exact h25
  clear_value v26
  extract_lets -merge +onlyGivenNames v28
  have h29 : Within M s v28 := by
    unfold v28
    refine Within.ite ?_ (fun _ => ?_)
    · exact h27
    · exact State.saveRec_in (hM.of rfl) (State.wr_in (hM.of rfl) h27)
  clear_value v28
  extract_lets -merge +onlyGivenNames v30
  have h31 : Within M s v30 := State.showDebug_in (hM.of rfl) h29
  clear_value v30
  extract_lets -merge +onlyGivenNames v32
  have h33 : Within M s v32 := by
    unfold v32
    refine Within.ite ?_ (fun _ => ?_)
    · refine Within.ite ?_ (fun _ => ?_)
      · exact h31
      · exact State.enterRun_in (hM.of rfl) h31
    · exact State.leaveRun_in (hM.of rfl) h31
  clear_value v32
  extract_lets -merge +onlyGivenNames v34
  clear_value v34
  extract_lets -merge +onlyGivenNames v35
  have h36 : Within M s v35 := Within.set_alm h33 (hM.of rfl)
  clear_value v35
  extract_lets -merge +onlyGivenNames v37
  have h38 : Within M s v37 := State.drivePins_in (hM.of rfl) h36
  clear_value v37
  exact State.weighRoles_in (hM.of rfl) (State.partnerAlarm_in (hM.of rfl) h38)

theorem State.reqStart_in {p2} {p3} (hM : Incl 0x219aed6fd27019bdebc M) (h : Within M s x) : Within M s (State.reqStart x p2 p3) := by
  unfold State.reqStart
  extract_lets -merge +onlyGivenNames v1
  have h2 : Within M s v1 := State.wr_in (hM.of rfl) h
  clear_value v1
  extract_lets -merge +onlyGivenNames v3
  have h4 : Within M s v3 := by
    unfold v3
    refine Within.ite ?_ (fun _ => ?_)
    · exact h2
    · exact State.runCheck_in (hM.of rfl) (State.setFlag_in (hM.of rfl) (hM.of rfl) h2)
  clear_value v3
  extract_lets -merge +onlyGivenNames v5
  have h6 : Within M s v5 := by
    unfold v5
    refine Within.ite ?_ (fun _ => ?_)
    · exact h4
    · exact State.wr_in (hM.of rfl) h4
  clear_value v5
  refine Within.ite ?_ (fun _ => ?_)
  · refine Within.ite ?_ (fun _ => ?_)
    · extract_lets -merge +onlyGivenNames v7
      clear_value v7
      extract_lets -merge +onlyGivenNames v8
      have h9 : Within M s v8 := Within.set_glb h6 (hM.of rfl)
      clear_value v8
      extract_lets -merge +onlyGivenNames v10
      have h11 : Within M s v10 := State.wr_in (hM.of rfl) h9
      clear_value v10
      refine Within.ite ?_ (fun _ => ?_)
      · refine Within.ite ?_ (fun _ => ?_)
        · exact h11
        · exact State.switchStart_in (hM.of rfl) h11
      · refine Within.ite ?_ (fun _ => ?_)
        · exact State.reqEnd_in (hM.of rfl) h11
        · exact State.switchStart_in (hM.of rfl) h11
    · exact State.reqEnd_in (hM.of rfl) (State.modeTo_in (hM.of rfl) h6)
  · exact State.runCheck_in (hM.of rfl) (State.reqEnd_in (hM.of rfl) (State.setFlag_in (hM.of rfl) (hM.of rfl) (Within.set_pair h6 (hM.of rfl))))

theorem State.request_in {p2} {p3} (hM : Incl 0x219aed6fd27019bdebc M) (h : Within M s x) : Within M s (State.request x p2 p3) := by
  unfold State.request
  refine Within.ite ?_ (fun _ => ?_)
  · extract_lets -merge +onlyGivenNames v1
    clear_value v1
    refine Within.ite ?_ (fun _ => ?_)
    · exact State.reqEnd_in (hM.of rfl) h
    · exact State.reqStart_in (hM.of rfl) h
  · exact State.wr_in (hM.of rfl) h

theorem State.rejudge_in (hM : Incl 0x219aed6fd27019bdebc M) (h : Within M s x) : Within M s (State.rejudge x) := by
  unfold State.rejudge
  refine Within.ite ?_ (fun _ => ?_)
  · exact h
  · extract_lets -merge +onlyGivenNames v1 v2
    clear_value v1 v2
    refine Within.ite ?_ (fun _ => ?_)
    · refine Within.ite ?_ (fun _ => ?_)
      · exact h
      · exact State.reqEnd_in (hM.of rfl) (State.modeTo_in (hM.of rfl) h)
    · exact State.reqEnd_in (hM.of rfl) h

theorem State.degMove_in (hM : Incl 0x219aed6fd27019bdebc M) (h : Within M s x) : Within M s (State.degMove x) := by
  unfold State.degMove
  refine Within.ite ?_ (fun _ => ?_)
  · exact h
  · exact State.rejudge_in (hM.of rfl) (State.modeTo_in (hM.of rfl) h)

theorem State.refreshDeg_in (hM : Incl 0x219aed6fd27019bdebc M) (h : Within M s x) : Within M s (State.refreshDeg x) := by
  unfold State.refreshDeg
  exact State.degMove_in (hM.of rfl) (State.showDeg_in (hM.of rfl) h)

theorem State.fatal_in {p2} (hM : Incl 0x219aed6fd27019bdebc M) (h : Within M s x) : Within M s (State.fatal x p2) := by
  unfold State.fatal
  refine Within.ite ?_ (fun _ => ?_)
  · refine Within.ite ?_ (fun _ => ?_)
    · extract_lets -merge +onlyGivenNames v1
      have h2 : Within M s v1 := by
        unfold v1
        refine Within.ite ?_ (fun _ => ?_)
        · exact h
        · exact State.saveRec_in (hM.of rfl) (State.wr_in (hM.of rfl) (State.wr_in (hM.of rfl) h))
      clear_value v1
      exact State.rejudge_in (hM.of rfl) (State.notice_in (hM.of rfl) (State.modeTo_in (hM.of rfl) h2))
    · exact State.notice_in (hM.of rfl) h
  · exact h

theorem State.unload_in {p2} (hM : Incl 0x200acd20d21019040bc M) (h : Within M s x) : Within M s (State.unload x p2) := by
  unfold State.unload
  extract_lets -merge +onlyGivenNames v1
  have h2 : Within M s v1 := by
    unfold v1
    split
    · exact h
    · refine Within.ite ?_ (fun _ => ?_)
      · exact State.reissue_in (hM.of rfl) h
      · exact State.completeItem_in (hM.of rfl) h
  clear_value v1
  exact State.replaceWaiting_in (hM.of rfl) h2

theorem State.portFloor_in (hM : Incl 0x219aed6fd27019bdebc M) (h : Within M s x) : Within M s (State.portFloor x) := by
  unfold State.portFloor
  refine Within.ite ?_ (fun _ => ?_)
  · exact h
  · exact State.fatal_in (hM.of rfl) h

theorem State.portsChanged_in (hM : Incl 0x219aed6fd27019bdebc M) (h : Within M s x) : Within M s (State.portsChanged x) := by
  unfold State.portsChanged
  exact State.degMove_in (hM.of rfl) (State.portFloor_in (hM.of rfl) (State.showDeg_in (hM.of rfl) h))

theorem State.sorterFloor_in (hM : Incl 0x219aed6fd27019bdebc M) (h : Within M s x) : Within M s (State.sorterFloor x) := by
  unfold State.sorterFloor
  refine Within.ite ?_ (fun _ => ?_)
  · exact h
  · exact State.fatal_in (hM.of rfl) h

theorem State.fence_in {p2} (hM : Incl 0x219aed6ff27019bdebc M) (h : Within M s x) : Within M s (State.fence x p2) := by
  unfold State.fence
  refine Within.ite ?_ (fun _ => ?_)
  · exact State.degMove_in (hM.of rfl) (State.sorterFloor_in (hM.of rfl) (State.kick_in (hM.of rfl) (State.showDeg_in (hM.of rfl) (State.abandonMoves_in (hM.of rfl) (State.unload_in (hM.of rfl) (State.fenceMark_in (hM.of rfl) h))))))
  · exact h

theorem State.runEntry_in (hM : Incl 0x219aed6fd27019bdebc M) (h : Within M s x) : Within M s (State.runEntry x) := by
  unfold State.runEntry
  refine Within.ite ?_ (fun _ => ?_)
  · exact h
  · split
    · exact h
    · extract_lets -merge +onlyGivenNames v1
      clear_value v1
      extract_lets -merge +onlyGivenNames v2
      have h3 : Within M s v2 := by
        unfold v2
        refine Within.ite ?_ (fun _ => ?_)
        · exact State.wr_in (hM.of rfl) h
        · exact State.wr_in (hM.of rfl) h
      clear_value v2
      extract_lets -merge +onlyGivenNames v4
      have h5 : Within M s v4 := State.rejudge_in (hM.of rfl) (State.modeTo_in (hM.of rfl) h3)
      clear_value v4
      refine Within.ite ?_ (fun _ => ?_)
      · exact h5
      · exact State.rejudge_in (hM.of rfl) (State.modeTo_in (hM.of rfl) h5)
    · exact State.rejudge_in (hM.of rfl) (State.modeTo_in (hM.of rfl) h)

theorem State.tbSelect_in (hM : Incl 0x219aed6fd2f019bdfbc M) (h : Within M s x) : Within M s (State.tbSelect x) := by
  unfold State.tbSelect
  extract_lets -merge +onlyGivenNames v1
  clear_value v1
  extract_lets -merge +onlyGivenNames v2
  have h3 : Within M s v2 := by
    unfold v2
    refine Within.ite ?_ (fun _ => ?_)
    · refine Within.ite ?_ (fun _ => ?_)
      · refine Within.ite ?_ (fun _ => ?_)
        · exact h
        · exact State.holdover_in (hM.of rfl) h
      · exact State.select_in (hM.of rfl) h
    · exact h
  clear_value v2
  extract_lets -merge +onlyGivenNames v4
  have h5 : Within M s v4 := by
    unfold v4
    refine Within.ite ?_ (fun _ => ?_)
    · exact h3
    · exact State.setTb_in (hM.of rfl) h3
  clear_value v4
  exact State.runCheck_in (hM.of rfl) (State.refreshDeg_in (hM.of rfl) (State.tbRefresh_in (hM.of rfl) (State.refreshAgree_in (hM.of rfl) h5)))

theorem State.retire_in {p2} (hM : Incl 0x200acd20de1019040fc M) (h : Within M s x) : Within M s (State.retire x p2) := by
  unfold State.retire
  extract_lets -merge +onlyGivenNames v1
  clear_value v1
  extract_lets -merge +onlyGivenNames v2
  have h3 : Within M s v2 := Within.set_adm h (hM.of rfl)
  clear_value v2
  extract_lets -merge +onlyGivenNames v4
  have h5 : Within M s v4 := State.notice_in (hM.of rfl) (State.wr_in (hM.of rfl) (State.lapseAll_in (hM.of rfl) h3))
  clear_value v4
  extract_lets -merge +onlyGivenNames v6
  have h7 : Within M s v6 := State.dropCand_in (hM.of rfl) h5
  clear_value v6
  split
  · exact State.showAdm_in (hM.of rfl) h7
  · extract_lets -merge +onlyGivenNames v8
    clear_value v8
    extract_lets -merge +onlyGivenNames v9
    have h10 : Within M s v9 := by
      unfold v9
      refine Within.ite ?_ (fun _ => ?_)
      · exact h7
      · exact State.sendCmd_in (hM.of rfl) h7
    clear_value v9
    extract_lets -merge +onlyGivenNames v11
    have h12 : Within M s v11 := by
      unfold v11
      refine Within.ite ?_ (fun _ => ?_)
      · exact State.putSender_in (hM.of rfl) h10
      · exact State.dropSender_in (hM.of rfl) h10
    clear_value v11
    exact State.showAdm_in (hM.of rfl) (State.endFlow_in (hM.of rfl) h12)

theorem State.idleInstant_in {p2} {p3} (hM : Incl 0x200acd20de1019040fc M) (h : Within M s x) : Within M s (State.idleInstant x p2 p3) := by
  unfold State.idleInstant
  extract_lets -merge +onlyGivenNames v1
  clear_value v1
  refine Within.ite ?_ (fun _ => ?_)
  · extract_lets -merge +onlyGivenNames v2 v3 v4
    clear_value v2 v3 v4
    extract_lets -merge +onlyGivenNames v5
    have h6 : Within M s v5 := Within.set_adm h (hM.of rfl)
    clear_value v5
    refine Within.ite ?_ (fun _ => ?_)
    · extract_lets -merge +onlyGivenNames v7
      have h8 : Within M s v7 := State.wr_in (hM.of rfl) h6
      clear_value v7
      refine Within.ite ?_ (fun _ => ?_)
      · exact State.retire_in (hM.of rfl) h8
      · exact State.wr_in (hM.of rfl) h8
    · exact State.wr_in (hM.of rfl) h6
  · exact h

theorem execStreamInstant_in {p1} {p2} (hM : Incl 0x200acd20de1019040fe M) : WithinRes M s (execStreamInstant p1 p2 s) := by
  have h : Within M s s := Within.refl s
  unfold execStreamInstant
  exact WithinRes.next (State.idleInstant_in (hM.of rfl) (State.advance_in (hM.of rfl) h))

theorem State.extractModes_in {p2} {p3} (hM : Incl 0x410040100880004 M) (h : Within M s x) : Within M s (State.extractModes x p2 p3) := by
  unfold State.extractModes
  extract_lets -merge +onlyGivenNames v1 v2 v3 v4 v5 v6
  clear_value v1 v2 v3 v4 v5 v6
  split
  extract_lets -merge +onlyGivenNames v7
  have h8 : Within M s v7 := State.bump_in (hM.of rfl) (hM.of rfl) (State.bump_in (hM.of rfl) (hM.of rfl) (State.setGrp_in (hM.of rfl) h))
  clear_value v7
  extract_lets -merge +onlyGivenNames v9
  have h10 : Within M s v9 := by
    unfold v9
    refine Within.ite ?_ (fun _ => ?_)
    · exact State.oscNotice_in (hM.of rfl) h8
    · exact h8
  clear_value v9
  refine Within.ite ?_ (fun _ => ?_)
  · exact State.oscNotice_in (hM.of rfl) h10
  · exact h10

theorem State.forcedLines_in {p2} {p3} (hM : Incl 0x410040100880004 M) (h : Within M s x) : Within M s (State.forcedLines x p2 p3) := by
  unfold State.forcedLines
  extract_lets -merge +onlyGivenNames v1 v2 v3 v4 v5
  clear_value v1 v2 v3 v4 v5
  split
  extract_lets -merge +onlyGivenNames v6
  have h7 : Within M s v6 := State.setGrp_in (hM.of rfl) h
  clear_value v6
  extract_lets -merge +onlyGivenNames v8
  have h9 : Within M s v8 := by
    unfold v8
    refine Within.ite ?_ (fun _ => ?_)
    · exact State.oscNotice_in (hM.of rfl) h7
    · exact h7
  clear_value v8
  refine Within.ite ?_ (fun _ => ?_)
  · exact State.oscNotice_in (hM.of rfl) h9
  · exact h9

theorem State.autoSelect_in {p2} {p3} (hM : Incl 0x410040100880004 M) (h : Within M s x) : Within M s (State.autoSelect x p2 p3) := by
  unfold State.autoSelect
  extract_lets -merge +onlyGivenNames v1
  clear_value v1
  refine Within.ite ?_ (fun _ => ?_)
  · split
    extract_lets -merge +onlyGivenNames v2
    have h3 : Within M s v2 := State.setGrp_in (hM.of rfl) h
    clear_value v2
    refine Within.ite ?_ (fun _ => ?_)
    · exact State.oscNotice_in (hM.of rfl) (State.bump_in (hM.of rfl) (hM.of rfl) h3)
    · exact h3
  · exact h

theorem State.publish_in {p2} {p3} (hM : Incl 0x2045005010088001c M) (h : Within M s x) : Within M s (State.publish x p2 p3) := by
  unfold State.publish
  extract_lets -merge +onlyGivenNames v1 v2 v3 v4
  clear_value v1 v2 v3 v4
  extract_lets -merge +onlyGivenNames v5
  have h6 : Within M s v5 := by
    unfold v5
    refine Within.forEach ?_ (fun y7 y8 h9 => ?_)
    · exact h
    · exact State.put_in (hM.of rfl) h9
  clear_value v5
  extract_lets -merge +onlyGivenNames v10
  have h11 : Within M s v10 := State.inc_in (hM.of rfl) (hM.of rfl) (State.wr_in (hM.of rfl) h6)
  clear_value v10
  extract_lets -merge +onlyGivenNames v12
  clear_value v12
  extract_lets -merge +onlyGivenNames v13
  have h14 : Within M s v13 := Within.set_osc h11 (hM.of rfl)
  clear_value v13
  extract_lets -merge +onlyGivenNames v15
  have h16 : Within M s v15 := State.oscNotice_in (hM.of rfl) h14
  clear_value v15
  exact State.offer_in (hM.of rfl) h16

theorem State.epochRun_in {p2} {p3} (hM : Incl 0x3045615210088463c M) (h : Within M s x) : Within M s (State.epochRun x p2 p3) := by
  unfold State.epochRun
  extract_lets -merge +onlyGivenNames v1
  have h2 : Within M s v1 := State.extractModes_in (hM.of rfl) h
  clear_value v1
  extract_lets -merge +onlyGivenNames v3
  have h4 : Within M s v3 := State.forcedLines_in (hM.of rfl) h2
  clear_value v3
  extract_lets -merge +onlyGivenNames v5
  have h6 : Within M s v5 := State.autoSelect_in (hM.of rfl) h4
  clear_value v5
  extract_lets -merge +onlyGivenNames v7
  have h8 : Within M s v7 := State.publish_in (hM.of rfl) (State.showGrp_in (hM.of rfl) h6)
  clear_value v7
  extract_lets -merge +onlyGivenNames v9
  clear_value v9
  extract_lets -merge +onlyGivenNames v10
  have h11 : Within M s v10 := State.checkpoint_in (hM.of rfl) (State.setGrp_in (hM.of rfl) h8)
  clear_value v10
  refine Within.ite ?_ (fun _ => ?_)
  · exact State.digestReached_in (hM.of rfl) h11
  · exact State.plkSend_in (hM.of rfl) h11

theorem State.missEpochs_in {p2} {p3} (hM : Incl 0x410040100880004 M) (h : Within M s x) : Within M s (State.missEpochs x p2 p3) := by
  unfold State.missEpochs
  refine Within.ite ?_ (fun _ => ?_)
  · exact State.oscNotice_in (hM.of rfl) (State.bump_in (hM.of rfl) (hM.of rfl) (State.bump_in (hM.of rfl) (hM.of rfl) h))
  · exact h

theorem State.holdPage_in {p2} {p3} (hM : Incl 0x3045615210088463c M) (h : Within M s x) : Within M s (State.holdPage x p2 p3) := by
  unfold State.holdPage
  exact State.publish_in (hM.of rfl) (State.showGrp_in (hM.of rfl) h)

theorem State.passEpoch_in {p2} {p3} {p4} {p5} (hM : Incl 0x3045615210088463c M) (h : Within M s x) : Within M s (State.passEpoch x p2 p3 p4 p5) := by
  unfold State.passEpoch
  extract_lets -merge +onlyGivenNames v1 v2 v3
  clear_value v1 v2 v3
  extract_lets -merge +onlyGivenNames v4
  have h5 : Within M s v4 := State.setGrp_in (hM.of rfl) h
  clear_value v4
  refine Within.ite ?_ (fun _ => ?_)
  · extract_lets -merge +onlyGivenNames v6
    have h7 : Within M s v6 := State.missEpochs_in (hM.of rfl) h5
    clear_value v6
    refine Within.ite ?_ (fun _ => ?_)
    · exact State.epochRun_in (hM.of rfl) h7
    · exact h7
  · exact h5

theorem State.keepRecent_in {p2} {p3} (hM : Incl 0x80000 M) (h : Within M s x) : Within M s (State.keepRecent x p2 p3) := by
  unfold State.keepRecent
  exact Within.set_osc h (hM.of rfl)

theorem State.noticeStale_in {p2} {p3} (hM : Incl 0x410040100880004 M) (h : Within M s x) : Within M s (State.noticeStale x p2 p3) := by
  unfold State.noticeStale
  extract_lets -merge +onlyGivenNames v1
  clear_value v1
  refine Within.ite ?_ (fun _ => ?_)
  · exact State.oscNotice_in (hM.of rfl) h
  · exact h

theorem State.trackSample_in {p2} {p3} {p4} (hM : Incl 0x10000000000080000 M) (h : Within M s x) : Within M s (State.trackSample x p2 p3 p4) := by
  unfold State.trackSample
  extract_lets -merge +onlyGivenNames v1 v2
  clear_value v1 v2
  extract_lets -merge +onlyGivenNames v3
  have h4 : Within M s v3 := State.setGrp_in (hM.of rfl) h
  clear_value v3
  refine Within.forEach ?_ (fun y5 y6 h7 => ?_)
  · exact h4
  · exact State.wr_in (hM.of rfl) h7

theorem State.grpSample_in {p2} {p3} {p4} (hM : Incl 0x1045615210088463c M) (h : Within M s x) : Within M s (State.grpSample x p2 p3 p4) := by
  unfold State.grpSample
  extract_lets -merge +onlyGivenNames v1
  clear_value v1
  exact State.showGrp_in (hM.of rfl) (State.trackSample_in (hM.of rfl) (State.keepRecent_in (hM.of rfl) h))

theorem State.grpInstant_in {p2} {p3} {p4} {p5} {p6} {p7} {p8} (hM : Incl 0x3045615210088463c M) (h : Within M s x) : Within M s (State.grpInstant x p2 p3 p4 p5 p6 p7 p8) := by
  unfold State.grpInstant
  extract_lets -merge +onlyGivenNames v1
  clear_value v1
  extract_lets -merge +onlyGivenNames v2
  have h3 : Within M s v2 := by
    unfold v2
    split
    · rename_i z4 z5
      exact State.passEpoch_in (hM.of rfl) h
    · rename_i z6
      exact h
  clear_value v2
  extract_lets -merge +onlyGivenNames v7 v8
  clear_value v7 v8
  split
  extract_lets -merge +onlyGivenNames v9
  have h10 : Within M s v9 := State.bump_in (hM.of rfl) (hM.of rfl) (State.setGrp_in (hM.of rfl) h3)
  clear_value v9
  refine State.noticeStale_in (hM.of rfl) ?_
  split
  · exact State.grpSample_in (hM.of rfl) h10
  · exact h10

theorem State.grpItem_in {p2} {p3} {p4} {p5} {p6} (hM : Incl 0x3045615210088463c M) (h : Within M s x) : Within M s (State.grpItem x p2 p3 p4 p5 p6) := by
  unfold State.grpItem
  extract_lets -merge +onlyGivenNames v1 v2 v3 v4 v5
  clear_value v1 v2 v3 v4 v5
  extract_lets -merge +onlyGivenNames v6
  have h7 : Within M s v6 := by
    unfold v6
    refine Within.forEach ?_ (fun y8 y9 h10 => ?_)
    · exact h
    · refine State.grpInstant_in (hM.of rfl) ?_
      refine Within.ite ?_ (fun _ => ?_)
      · exact h10
      · exact State.setGrp_in (hM.of rfl) h10
  clear_value v6
  refine Within.ite ?_ (fun _ => ?_)
  · exact State.showGrp_in (hM.of rfl) h7
  · exact State.holdPage_in (hM.of rfl) h7

theorem execGroupUpdate_in {p1} {p2} (hM : Incl 0x3045615210088463e M) : WithinRes M s (execGroupUpdate p1 p2 s) := by
  have h : Within M s s := Within.refl s
  unfold execGroupUpdate
  extract_lets -merge +onlyGivenNames v1
  have h2 : Within M s v1 := State.advance_in (hM.of rfl) h
  clear_value v1
  split
  · split
    · refine WithinRes.next ?_
      refine Within.ite ?_ (fun _ => ?_)
      · refine Within.ite ?_ (fun _ => ?_)
        · exact h2
        · exact State.markRan_in (hM.of rfl) h2
      · exact State.markRan_in (hM.of rfl) (State.grpItem_in (hM.of rfl) h2)
    · exact WithinRes.next h2
  · exact WithinRes.next h2

theorem State.setTrk_in {p2} (hM : Incl 0x100000 M) (h : Within M s x) : Within M s (State.setTrk x p2) := by
  unfold State.setTrk
  exact Within.set_isl h (hM.of rfl)

theorem State.showTrk_in (hM : Incl 0x80045619210080463c M) (h : Within M s x) : Within M s (State.showTrk x) := by
  unfold State.showTrk
  extract_lets -merge +onlyGivenNames v1
  have h2 : Within M s v1 := by
    unfold v1
    refine Within.forEach ?_ (fun y3 y4 h5 => ?_)
    · exact h
    · exact State.setFlag_in (hM.of rfl) (hM.of rfl) h5
  clear_value v1
  refine Within.ite ?_ (fun _ => ?_)
  · exact h2
  · exact State.islAlarm_in (hM.of rfl) (State.notice_in (hM.of rfl) (State.wr_in (hM.of rfl) h2))

theorem State.islItem_in {p2} {p3} (hM : Incl 0x80045619210090463c M) (h : Within M s x) : Within M s (State.islItem x p2 p3) := by
  unfold State.islItem
  extract_lets -merge +onlyGivenNames v1
  clear_value v1
  refine Within.forEach ?_ (fun y2 y3 h4 => ?_)
  · exact h
  · extract_lets -merge +onlyGivenNames v5 v6
    clear_value v5 v6
    exact State.showTrk_in (hM.of rfl) (State.setTrk_in (hM.of rfl) h4)

theorem execCoherencyUpdate_in {p1} (hM : Incl 0x80045619210090463e M) : WithinRes M s (execCoherencyUpdate p1 s) := by
  have h : Within M s s := Within.refl s
  unfold execCoherencyUpdate
  extract_lets -merge +onlyGivenNames v1
  have h2 : Within M s v1 := State.advance_in (hM.of rfl) h
  clear_value v1
  split
  · split
    · refine WithinRes.next ?_
      refine Within.ite ?_ (fun _ => ?_)
      · exact h2
      · exact State.markRan_in (hM.of rfl) (State.islItem_in (hM.of rfl) h2)
    · exact WithinRes.next h2
  · exact WithinRes.next h2

theorem State.clusterRun_in (hM : Incl 0x80000100000 M) (h : Within M s x) : Within M s (State.clusterRun x) := by
  unfold State.clusterRun
  extract_lets -merge +onlyGivenNames v1
  clear_value v1
  exact State.inc_in (hM.of rfl) (hM.of rfl) (Within.set_isl h (hM.of rfl))

theorem execClustering_in {p1} (hM : Incl 0x8000010000a M) : WithinRes M s (execClustering p1 s) := by
  have h : Within M s s := Within.refl s
  unfold execClustering
  extract_lets -merge +onlyGivenNames v1
  have h2 : Within M s v1 := State.advance_in (hM.of rfl) h
  clear_value v1
  split
  · refine WithinRes.next ?_
    refine Within.ite ?_ (fun _ => ?_)
    · exact h2
    · exact State.markRan_in (hM.of rfl) (State.clusterRun_in (hM.of rfl) h2)
  · exact WithinRes.next h2

theorem State.showIsl_in (hM : Incl 0x80000000000 M) (h : Within M s x) : Within M s (State.showIsl x) := by
  unfold State.showIsl
  extract_lets -merge +onlyGivenNames v1
  clear_value v1
  exact State.wr_in (hM.of rfl) (State.wr_in (hM.of rfl) (State.setFlag_in (hM.of rfl) (hM.of rfl) h))

theorem State.setCg_in {p2} {p3} (hM : Incl 0x100000 M) (h : Within M s x) : Within M s (State.setCg x p2 p3) := by
  unfold State.setCg
  exact Within.set_isl h (hM.of rfl)

theorem State.cgEnter_in {p2} {p3} {p4} (hM : Incl 0x1000000000000000000 M) (h : Within M s x) : Within M s (State.cgEnter x p2 p3 p4) := by
  unfold State.cgEnter
  exact State.wr_in (hM.of rfl) (State.wr_in (hM.of rfl) (State.wr_in (hM.of rfl) h))

theorem State.cgCount_in {p2} (hM : Incl 0x1000000000000000000 M) (h : Within M s x) : Within M s (State.cgCount x p2) := by
  unfold State.cgCount
  exact State.setFlag_in (hM.of rfl) (hM.of rfl) (State.wr_in (hM.of rfl) (State.wr_in (hM.of rfl) (State.setFlag_in (hM.of rfl) (hM.of rfl) (State.wr_in (hM.of rfl) h))))

theorem State.applyClustering_in {p2} {p3} (hM : Incl 0x180045209010190401c M) (h : Within M s x) : Within M s (State.applyClustering x p2 p3) := by
  unfold State.applyClustering
  split
  · exact h
  · refine Within.ite ?_ (fun _ => ?_)
    · extract_lets -merge +onlyGivenNames v1 v2 v3 v4
      clear_value v1 v2 v3 v4
      extract_lets -merge +onlyGivenNames v5
      have h6 : Within M s v5 := Within.set_isl h (hM.of rfl)
      clear_value v5
      extract_lets -merge +onlyGivenNames v7
      have h8 : Within M s v7 := State.inc_in (hM.of rfl) (hM.of rfl) h6
      clear_value v7
      extract_lets -merge +onlyGivenNames v9
      have h10 : Within M s v9 := by
        unfold v9
        refine Within.forEach ?_ (fun y11 y12 h13 => ?_)
        · exact h8
        · split
          · exact State.wr_in (hM.of rfl) (State.wr_in (hM.of rfl) (State.setFlag_in (hM.of rfl) (hM.of rfl) h13))
          · exact State.wr_in (hM.of rfl) (State.wr_in (hM.of rfl) (State.setFlag_in (hM.of rfl) (hM.of rfl) h13))
      clear_value v9
      extract_lets -merge +onlyGivenNames v14
      have h15 : Within M s v14 := by
        unfold v14
        refine Within.forEach ?_ (fun y16 y17 h18 => ?_)
        · exact h10
        · extract_lets -merge +onlyGivenNames v19
          clear_value v19
          extract_lets -merge +onlyGivenNames v20
          have h21 : Within M s v20 := Within.set_isl h18 (hM.of rfl)
          clear_value v20
          refine Within.forEach ?_ (fun y22 y23 h24 => ?_)
          · exact h21
          · exact State.put_in (hM.of rfl) h24
      clear_value v14
      extract_lets -merge +onlyGivenNames v25
      have h26 : Within M s v25 := by
        unfold v25
        refine Within.forEach ?_ (fun y27 y28 h29 => ?_)
        · exact h15
        · exact State.cgEnter_in (hM.of rfl) (State.setFlag_in (hM.of rfl) (hM.of rfl) h29)
      clear_value v25
      extract_lets -merge +onlyGivenNames v30
      have h31 : Within M s v30 := by
        unfold v30
        refine State.inc_in (hM.of rfl) (hM.of rfl) ?_
        refine Within.forEach ?_ (fun y32 y33 h34 => ?_)
        · exact h26
        · exact State.cgCount_in (hM.of rfl) h34
      clear_value v30
      extract_lets -merge +onlyGivenNames v35
      have h36 : Within M s v35 := State.islRec_in (hM.of rfl) (State.notice_in (hM.of rfl) (State.showIsl_in (hM.of rfl) (State.wr_in (hM.of rfl) h31)))
      clear_value v35
      extract_lets -merge +onlyGivenNames v37
      have h38 : Within M s v37 := by
        unfold v37
        refine Within.ite ?_ (fun _ => ?_)
        · exact State.notice_in (hM.of rfl) h36
        · exact h36
      clear_value v37
      refine Within.ite ?_ (fun _ => ?_)
      · exact State.digestReached_in (hM.of rfl) h38
      · exact State.plkSend_in (hM.of rfl) h38
    · exact h

theorem State.tieRead_in {p2} {p3} {p4} (hM : Incl 0x200045001010190001c M) (h : Within M s x) : Within M s (State.tieRead x p2 p3 p4) := by
  unfold State.tieRead
  extract_lets -merge +onlyGivenNames v1 v2
  clear_value v1 v2
  extract_lets -merge +onlyGivenNames v3
  have h4 : Within M s v3 := by
    unfold v3
    split
    · extract_lets -merge +onlyGivenNames v5
      clear_value v5
      exact State.wr_in (hM.of rfl) (State.wr_in (hM.of rfl) h)
    · exact State.tieAged_in (hM.of rfl) h
  clear_value v3
  exact State.tieTold_in (hM.of rfl) h4

theorem State.cgMeasure_in {p2} {p3} (hM : Incl 0x1000000000001100000 M) (h : Within M s x) : Within M s (State.cgMeasure x p2 p3) := by
  unfold State.cgMeasure
  extract_lets -merge +onlyGivenNames v1
  clear_value v1
  extract_lets -merge +onlyGivenNames v2
  have h3 : Within M s v2 := State.wr_in (hM.of rfl) (State.cgCount_in (hM.of rfl) h)
  clear_value v2
  split
  rename_i z4 z5 z6 z7
  have h8 : Within M s z6 := Within.of_snd z7 (State.draw_in (hM.of rfl) h3)
  split
  rename_i z9 z10 z11 z12
  have h13 : Within M s z11 := Within.of_snd z12 (State.draw_in (hM.of rfl) h8)
  extract_lets -merge +onlyGivenNames v14 v15
  clear_value v14 v15
  extract_lets -merge +onlyGivenNames v16
  have h17 : Within M s v16 := State.wr_in (hM.of rfl) (State.wr_in (hM.of rfl) h13)
  clear_value v16
  exact State.setCg_in (hM.of rfl) h17

theorem State.cgDiffs_in {p2} {p3} {p4} (hM : Incl 0x1000000000001000000 M) (h : Within M s x) : Within M s (State.cgDiffs x p2 p3 p4) := by
  unfold State.cgDiffs
  split
  rename_i z1 z2 z3 z4
  have h5 : Within M s z3 := Within.of_snd z4 (State.draw_in (hM.of rfl) h)
  split
  rename_i z6 z7 z8 z9
  have h10 : Within M s z8 := Within.of_snd z9 (State.draw_in (hM.of rfl) h5)
  extract_lets -merge +onlyGivenNames v11
  clear_value v11
  exact State.wr_in (hM.of rfl) (State.wr_in (hM.of rfl) h10)

theorem State.declare_in {p2} {p3} {p4} {p5} (hM : Incl 0x100045009010190001c M) (h : Within M s x) : Within M s (State.declare x p2 p3 p4 p5) := by
  unfold State.declare
  extract_lets -merge +onlyGivenNames v1
  have h2 : Within M s v1 := State.wr_in (hM.of rfl) (State.setFlag_in (hM.of rfl) (hM.of rfl) (State.cgEnter_in (hM.of rfl) h))
  clear_value v1
  exact State.islRec_in (hM.of rfl) (State.notice_in (hM.of rfl) (State.showIsl_in (hM.of rfl) (State.inc_in (hM.of rfl) (hM.of rfl) h2)))

theorem State.sepState_in {p2} {p3} {p4} {p5} {p6} (hM : Incl 0x100045009010190001c M) (h : Within M s x) : Within M s (State.sepState x p2 p3 p4 p5 p6) := by
  unfold State.sepState
  extract_lets -merge +onlyGivenNames v1
  clear_value v1
  refine Within.ite ?_ (fun _ => ?_)
  · refine Within.ite ?_ (fun _ => ?_)
    · refine Within.ite ?_ (fun _ => ?_)
      · refine Within.ite ?_ (fun _ => ?_)
        · exact h
        · exact State.islRec_in (hM.of rfl) (State.showIsl_in (hM.of rfl) (State.cgEnter_in (hM.of rfl) h))
      · extract_lets -merge +onlyGivenNames v2
        clear_value v2
        extract_lets -merge +onlyGivenNames v3
        have h4 : Within M s v3 := State.wr_in (hM.of rfl) h
        clear_value v3
        refine Within.ite ?_ (fun _ => ?_)
        · exact h4
        · exact State.islRec_in (hM.of rfl) (State.notice_in (hM.of rfl) (State.showIsl_in (hM.of rfl) (State.wr_in (hM.of rfl) (State.cgEnter_in (hM.of rfl) h4))))
    · refine Within.ite ?_ (fun _ => ?_)
      · refine Within.ite ?_ (fun _ => ?_)
        · exact h
        · exact State.islRec_in (hM.of rfl) (State.showIsl_in (hM.of rfl) (State.inc_in (hM.of rfl) (hM.of rfl) (State.cgEnter_in (hM.of rfl) h)))
      · exact State.declare_in (hM.of rfl) h
  · refine Within.ite ?_ (fun _ => ?_)
    · exact h
    · exact State.islRec_in (hM.of rfl) (State.notice_in (hM.of rfl) (State.showIsl_in (hM.of rfl) (State.setCg_in (hM.of rfl) (State.cgEnter_in (hM.of rfl) h))))

theorem State.darkCheck_in {p2} {p3} {p4} (hM : Incl 0x100045009010190001c M) (h : Within M s x) : Within M s (State.darkCheck x p2 p3 p4) := by
  unfold State.darkCheck
  extract_lets -merge +onlyGivenNames v1 v2
  clear_value v1 v2
  refine Within.ite ?_ (fun _ => ?_)
  · refine Within.ite ?_ (fun _ => ?_)
    · refine Within.ite ?_ (fun _ => ?_)
      · exact h
      · exact State.islRec_in (hM.of rfl) (State.notice_in (hM.of rfl) (State.showIsl_in (hM.of rfl) (State.cgEnter_in (hM.of rfl) h)))
    · exact State.declare_in (hM.of rfl) h
  · exact h

theorem State.sepItem_in {p2} {p3} {p4} (hM : Incl 0x380045009010190001c M) (h : Within M s x) : Within M s (State.sepItem x p2 p3 p4) := by
  unfold State.sepItem
  extract_lets -merge +onlyGivenNames v1 v2
  clear_value v1 v2
  extract_lets -merge +onlyGivenNames v3
  have h4 : Within M s v3 := by
    unfold v3
    refine Within.forEach ?_ (fun y5 y6 h7 => ?_)
    · exact h
    · exact State.tieRead_in (hM.of rfl) h7
  clear_value v3
  extract_lets -merge +onlyGivenNames v8
  have h9 : Within M s v8 := by
    unfold v8
    refine Within.forEach ?_ (fun y10 y11 h12 => ?_)
    · exact h4
    · exact State.setFlag_in (hM.of rfl) (hM.of rfl) h12
  clear_value v8
  extract_lets -merge +onlyGivenNames v13
  have h14 : Within M s v13 := State.inc_in (hM.of rfl) (hM.of rfl) h9
  clear_value v13
  extract_lets -merge +onlyGivenNames v15
  have h16 : Within M s v15 := by
    unfold v15
    refine Within.forEach ?_ (fun y17 y18 h19 => ?_)
    · exact h14
    · exact State.cgMeasure_in (hM.of rfl) h19
  clear_value v15
  extract_lets -merge +onlyGivenNames v20 v21
  clear_value v20 v21
  extract_lets -merge +onlyGivenNames v22
  have h23 : Within M s v22 := by
    unfold v22
    refine Within.forEach ?_ (fun y24 y25 h26 => ?_)
    · exact h16
    · exact State.cgDiffs_in (hM.of rfl) h26
  clear_value v22
  extract_lets -merge +onlyGivenNames v27
  have h28 : Within M s v27 := by
    unfold v27
    refine Within.forEach ?_ (fun y29 y30 h31 => ?_)
    · exact h23
    · exact State.darkCheck_in (hM.of rfl) (State.sepState_in (hM.of rfl) h31)
  clear_value v27
  extract_lets -merge +onlyGivenNames v32
  clear_value v32
  extract_lets -merge +onlyGivenNames v33
  have h34 : Within M s v33 := Within.set_isl h28 (hM.of rfl)
  clear_value v33
  exact State.showIsl_in (hM.of rfl) (State.inc_in (hM.of rfl) (hM.of rfl) (State.inc_in (hM.of rfl) (hM.of rfl) h34))

theorem execSeparation_in {p1} (hM : Incl 0x380045009010190001e M) : WithinRes M s (execSeparation p1 s) := by
  have h : Within M s s := Within.refl s
  unfold execSeparation
  extract_lets -merge +onlyGivenNames v1
  have h2 : Within M s v1 := State.advance_in (hM.of rfl) h
  clear_value v1
  split
  · split
    · refine WithinRes.next ?_
      refine Within.ite ?_ (fun _ => ?_)
      · exact h2
      · exact State.markRan_in (hM.of rfl) (State.sepItem_in (hM.of rfl) h2)
    · exact WithinRes.next h2
  · exact WithinRes.next h2

theorem State.setFallbacks_in (hM : Incl 0x2800020000000008 M) (h : Within M s x) : Within M s (State.setFallbacks x) := by
  unfold State.setFallbacks
  refine Within.forEach ?_ (fun y1 y2 h3 => ?_)
  · exact h
  · exact State.setFallback_in (hM.of rfl) h3

theorem State.showActive_in (hM : Incl 0x410020100800004 M) (h : Within M s x) : Within M s (State.showActive x) := by
  unfold State.showActive
  extract_lets -merge +onlyGivenNames v1
  clear_value v1
  refine Within.ite ?_ (fun _ => ?_)
  · exact State.notice_in (hM.of rfl) (State.wr_in (hM.of rfl) h)
  · exact h

theorem State.setActive_in {p2} (hM : Incl 0x2c5003010080001c M) (h : Within M s x) : Within M s (State.setActive x p2) := by
  unfold State.setActive
  extract_lets -merge +onlyGivenNames v1 v2
  clear_value v1 v2
  refine Within.ite ?_ (fun _ => ?_)
  · extract_lets -merge +onlyGivenNames v3
    clear_value v3
    extract_lets -merge +onlyGivenNames v4
    have h5 : Within M s v4 := Within.set_sof h (hM.of rfl)
    clear_value v4
    extract_lets -merge +onlyGivenNames v6
    have h7 : Within M s v6 := State.showActive_in (hM.of rfl) h5
    clear_value v6
    extract_lets -merge +onlyGivenNames v8
    have h9 : Within M s v8 := by
      unfold v8
      refine Within.ite ?_ (fun _ => ?_)
      · exact h7
      · refine Within.forEach ?_ (fun y10 y11 h12 => ?_)
        · exact h7
        · exact State.wake_in (hM.of rfl) h12
    clear_value v8
    exact State.setFallbacks_in (hM.of rfl) h9
  · exact h

theorem State.showHomed_in (hM : Incl 0x8000000000000000 M) (h : Within M s x) : Within M s (State.showHomed x) := by
  unfold State.showHomed
  extract_lets -merge +onlyGivenNames v1
  clear_value v1
  refine Within.forEach ?_ (fun y2 y3 h4 => ?_)
  · exact h
  · exact State.wr_in (hM.of rfl) h4

theorem State.restSurplus_in (hM : Incl 0x200000000000008 M) (h : Within M s x) : Within M s (State.restSurplus x) := by
  unfold State.restSurplus
  refine Within.forEach ?_ (fun y1 y2 h3 => ?_)
  · exact h
  · refine Within.ite ?_ (fun _ => ?_)
    · exact h3
    · exact State.sorterOff_in (hM.of rfl) h3

theorem State.homeAll_in (hM : Incl 0xac1002010080000c M) (h : Within M s x) : Within M s (State.homeAll x) := by
  unfold State.homeAll
  extract_lets -merge +onlyGivenNames v1 v2 v3 v4
  clear_value v1 v2 v3 v4
  extract_lets -merge +onlyGivenNames v5
  have h6 : ∀ b1 b2, Within M s b1.1 → Within M s (v5 b1 b2).1 := by
    intro y7 y8 h9
    unfold v5
    split
    · refine Within.ite1 ?_ (fun _ => ?_)
      · exact Within.mk1 (State.setHome_in (hM.of rfl) h9)
      · exact Within.mk1 (State.setHome_in (hM.of rfl) h9)
    · exact Within.mk1 (State.setHome_in (hM.of rfl) h9)
  clear_value v5
  extract_lets -merge +onlyGivenNames v10
  have h11 : Within M s v10 := by
    unfold v10
    refine Within.foldl1 ?_ (fun y12 y13 h14 => ?_)
    · exact Within.mk1 h
    · exact h6 _ _ h14
  clear_value v10
  extract_lets -merge +onlyGivenNames v15
  have h16 : Within M s v15 := by
    unfold v15
    refine Within.foldl1 ?_ (fun y17 y18 h19 => ?_)
    · exact Within.mk1 h11
    · exact h6 _ _ h19
  clear_value v15
  extract_lets -merge +onlyGivenNames v20
  have h21 : Within M s v20 := by
    unfold v20
    refine Within.foldl1 ?_ (fun y22 y23 h24 => ?_)
    · exact Within.mk1 h16
    · exact h6 _ _ h24
  clear_value v20
  extract_lets -merge +onlyGivenNames v25
  clear_value v25
  extract_lets -merge +onlyGivenNames v26
  have h27 : Within M s v26 := Within.set_sof h21 (hM.of rfl)
  clear_value v26
  exact State.showHomed_in (hM.of rfl) (State.setFallbacks_in (hM.of rfl) (State.showActive_in (hM.of rfl) h27))

theorem State.homeKept_in (hM : Incl 0xac1002010080000c M) (h : Within M s x) : Within M s (State.homeKept x) := by
  unfold State.homeKept
  extract_lets -merge +onlyGivenNames v1 v2
  clear_value v1 v2
  extract_lets -merge +onlyGivenNames v3
  have h4 : Within M s v3 := Within.set_sof h (hM.of rfl)
  clear_value v3
  extract_lets -merge +onlyGivenNames v5
  have h6 : Within M s v5 := by
    unfold v5
    refine Within.forEach ?_ (fun y7 y8 h9 => ?_)
    · exact h4
    · refine Within.ite ?_ (fun _ => ?_)
      · exact h9
      · exact State.setHome_in (hM.of rfl) h9
  clear_value v5
  extract_lets -merge +onlyGivenNames v10
  have h11 : Within M s v10 := by
    unfold v10
    refine Within.forEach ?_ (fun y12 y13 h14 => ?_)
    · exact h6
    · split
      · refine Within.ite ?_ (fun _ => ?_)
        · exact h14
        · exact State.notice_in (hM.of rfl) (Within.set_sof h14 (hM.of rfl))
      · exact h14
  clear_value v10
  exact State.showHomed_in (hM.of rfl) (State.setFallbacks_in (hM.of rfl) (State.showActive_in (hM.of rfl) h11))

theorem State.scheduleMove_in {p2} {p3} (hM : Incl 0x20000000008 M) (h : Within M s x) : Within M s (State.scheduleMove x p2 p3) := by
  unfold State.scheduleMove
  refine Within.ite ?_ (fun _ => ?_)
  · exact State.showMoves_in (hM.of rfl) (Within.set_sof h (hM.of rfl))
  · exact h

theorem State.beginMove_in {p2} (hM : Incl 0x8000000000000008 M) (h : Within M s x) : Within M s (State.beginMove x p2) := by
  unfold State.beginMove
  split
  · exact h
  · extract_lets -merge +onlyGivenNames v1
    clear_value v1
    extract_lets -merge +onlyGivenNames v2
    have h3 : Within M s v2 := Within.set_sof h (hM.of rfl)
    clear_value v2
    extract_lets -merge +onlyGivenNames v4
    have h5 : Within M s v4 := State.moveQuiet_in (hM.of rfl) (State.mapItems_in (hM.of rfl) h3)
    clear_value v4
    exact State.showDepth_in (hM.of rfl) h5

theorem State.beginMoves_in (hM : Incl 0x8000020000000008 M) (h : Within M s x) : Within M s (State.beginMoves x) := by
  unfold State.beginMoves
  extract_lets -merge +onlyGivenNames v1
  clear_value v1
  extract_lets -merge +onlyGivenNames v2
  have h3 : Within M s v2 := Within.set_sof h (hM.of rfl)
  clear_value v2
  extract_lets -merge +onlyGivenNames v4
  clear_value v4
  refine State.showMoves_in (hM.of rfl) ?_
  refine Within.forEach ?_ (fun y5 y6 h7 => ?_)
  · exact h3
  · exact State.beginMove_in (hM.of rfl) h7

theorem State.finishMove_in {p2} (hM : Incl 0xae5003010088001c M) (h : Within M s x) : Within M s (State.finishMove x p2) := by
  unfold State.finishMove
  refine Within.ite ?_ (fun _ => ?_)
  · extract_lets -merge +onlyGivenNames v1
    clear_value v1
    extract_lets -merge +onlyGivenNames v2
    have h3 : Within M s v2 := by
      unfold v2
      refine Within.ite ?_ (fun _ => ?_)
      · exact h
      · exact State.resumeGrp_in (hM.of rfl) h
    clear_value v2
    extract_lets -merge +onlyGivenNames v4
    have h5 : Within M s v4 := State.setFallback_in (hM.of rfl) (State.rehome_in (hM.of rfl) h3)
    clear_value v4
    extract_lets -merge +onlyGivenNames v6
    clear_value v6
    extract_lets -merge +onlyGivenNames v7
    have h8 : Within M s v7 := Within.set_sof h5 (hM.of rfl)
    clear_value v7
    exact State.restSurplus_in (hM.of rfl) (State.releaseHeld_in (hM.of rfl) (State.endMove_in (hM.of rfl) h8))
  · exact State.releaseHeld_in (hM.of rfl) (State.endMove_in (hM.of rfl) h)

theorem execFlowStateCopyDone_in {p1} {p2} (hM : Incl 0xae5003010088001e M) : WithinRes M s (execFlowStateCopyDone p1 p2 s) := by
  have h : Within M s s := Within.refl s
  unfold execFlowStateCopyDone
  extract_lets -merge +onlyGivenNames v1
  have h2 : Within M s v1 := State.advance_in (hM.of rfl) h
  clear_value v1
  split
  · exact WithinRes.next (State.finishMove_in (hM.of rfl) h2)
  · exact WithinRes.next h2

theorem State.sealTables_in (hM : Incl 0x8 M) (h : Within M s x) : Within M s (State.sealTables x) := by
  unfold State.sealTables
  exact Within.set_sof h (hM.of rfl)

theorem State.loadUpdate_in (hM : Incl 0xa800000000000008 M) (h : Within M s x) : Within M s (State.loadUpdate x) := by
  unfold State.loadUpdate
  extract_lets -merge +onlyGivenNames v1 v2 v3
  clear_value v1 v2 v3
  extract_lets -merge +onlyGivenNames v4
  have h5 : Within M s v4 := Within.set_sof h (hM.of rfl)
  clear_value v4
  extract_lets -merge +onlyGivenNames v6
  have h7 : Within M s v6 := by
    unfold v6
    refine Within.forEach ?_ (fun y8 y9 h10 => ?_)
    · exact h5
    · exact State.stabWr_in (hM.of rfl) (hM.of rfl) h10
  clear_value v6
  exact State.showLoads_in (hM.of rfl) (State.sealTables_in (hM.of rfl) h7)

theorem State.homeLoose_in (hM : Incl 0xac5003010080001c M) (h : Within M s x) : Within M s (State.homeLoose x) := by
  unfold State.homeLoose
  extract_lets -merge +onlyGivenNames v1
  clear_value v1
  split
  · exact h
  · refine Within.forEach ?_ (fun y2 y3 h4 => ?_)
    · exact h
    · refine State.setFallback_in (hM.of rfl) ?_
      refine Within.ite ?_ (fun _ => ?_)
      · exact State.inc_in (hM.of rfl) (hM.of rfl) (State.setHome_in (hM.of rfl) h4)
      · exact State.rehome_in (hM.of rfl) h4

theorem State.placementPass_in {p2} (hM : Incl 0xac5003010080001c M) (h : Within M s x) : Within M s (State.placementPass x p2) := by
  unfold State.placementPass
  extract_lets -merge +onlyGivenNames v1 v2 v3
  clear_value v1 v2 v3
  extract_lets -merge +onlyGivenNames v4
  have h5 : Within M s v4 := Within.set_sof h (hM.of rfl)
  clear_value v4
  extract_lets -merge +onlyGivenNames v6
  have h7 : Within M s v6 := State.sealTables_in (hM.of rfl) h5
  clear_value v6
  extract_lets -merge +onlyGivenNames v8
  have h9 : Within M s v8 := by
    unfold v8
    refine Within.forEach ?_ (fun y10 y11 h12 => ?_)
    · exact h7
    · refine Within.forEach ?_ (fun y13 y14 h15 => ?_)
      · exact h12
      · exact State.stabWr_in (hM.of rfl) (hM.of rfl) h15
  clear_value v8
  extract_lets -merge +onlyGivenNames v16
  clear_value v16
  extract_lets -merge +onlyGivenNames v17
  have h18 : Within M s v17 := State.homeLoose_in (hM.of rfl) (State.setActive_in (hM.of rfl) h9)
  clear_value v17
  split
  extract_lets -merge +onlyGivenNames v19
  have h20 : Within M s v19 := by
    unfold v19
    refine Within.forEach ?_ (fun y21 y22 h23 => ?_)
    · exact h18
    · refine Within.forEach ?_ (fun y24 y25 h26 => ?_)
      · exact h23
      · exact State.scheduleMove_in (hM.of rfl) h26
  clear_value v19
  extract_lets -merge +onlyGivenNames v27
  have h28 : Within M s v27 := State.wr_in (hM.of rfl) (State.wr_in (hM.of rfl) (State.wr_in (hM.of rfl) (State.inc_in (hM.of rfl) (hM.of rfl) h20)))
  clear_value v27
  exact State.notice_in (hM.of rfl) h28

theorem State.shedLoad_in {n p k} (hM : Incl 0x2c5003010080001c M) (h : Within M s x) : Within M s (State.shedLoad x n p k).1 := by
  induction k generalizing x p with
  | zero => exact h
  | succ k ih =>
    unfold State.shedLoad
    refine Within.ite1 ?_ fun _ => h
    extract_lets mine
    split
    · exact h
    · extract_lets room
      split
      rename_i z a d e
      have ha : Within M s a := by
        split at e
        · cases e; exact h
        · split at e
          · cases e; exact State.setActive_in (hM.of rfl) h
          · cases e; exact h
      split
      · exact ha
      · exact ih (Within.forEach ha fun _ _ hy => State.scheduleMove_in (hM.of rfl) hy)

theorem State.rebalanceRun_in (hM : Incl 0x2c5003010080001c M) (h : Within M s x) : Within M s (State.rebalanceRun x) := by
  unfold State.rebalanceRun
  refine Within.ite ?_ (fun _ => ?_)
  · extract_lets -merge +onlyGivenNames v1 v2
    clear_value v1 v2
    extract_lets -merge +onlyGivenNames v3
    have h4 : Within M s v3 := Within.set_sof h (hM.of rfl)
    clear_value v3
    extract_lets -merge +onlyGivenNames v5
    clear_value v5
    extract_lets -merge +onlyGivenNames v6
    have h7 : Within M s v6 := by
      unfold v6
      refine Within.forEach ?_ (fun y8 y9 h10 => ?_)
      · exact h4
      · exact State.shedLoad_in (hM.of rfl) h10
    clear_value v6
    extract_lets -merge +onlyGivenNames v11 v12
    clear_value v11 v12
    exact State.showMoves_in (hM.of rfl) (Within.set_sof h7 (hM.of rfl))
  · exact h

theorem State.pinFlow_in {p2} {p3} {p4} (hM : Incl 0xac5003010080001c M) (h : Within M s x) : Within M s (State.pinFlow x p2 p3 p4) := by
  unfold State.pinFlow
  split
  · exact h
  · refine Within.ite ?_ (fun _ => ?_)
    · refine Within.ite ?_ (fun _ => ?_)
      · refine Within.ite ?_ (fun _ => ?_)
        · extract_lets -merge +onlyGivenNames v1
          have h2 : Within M s v1 := by
            unfold v1
            refine Within.ite ?_ (fun _ => ?_)
            · exact State.setActive_in (hM.of rfl) h
            · exact h
          clear_value v1
          extract_lets -merge +onlyGivenNames v3
          clear_value v3
          extract_lets -merge +onlyGivenNames v4
          have h5 : Within M s v4 := Within.set_sof h2 (hM.of rfl)
          clear_value v4
          exact State.beginMove_in (hM.of rfl) (State.scheduleMove_in (hM.of rfl) h5)
        · exact h
      · refine Within.ite ?_ (fun _ => ?_)
        · extract_lets -merge +onlyGivenNames v6
          clear_value v6
          extract_lets -merge +onlyGivenNames v7
          have h8 : Within M s v7 := Within.set_sof h (hM.of rfl)
          clear_value v7
          extract_lets -merge +onlyGivenNames v9
          clear_value v9
          refine State.notice_in (hM.of rfl) ?_
          refine Within.ite ?_ (fun _ => ?_)
          · exact State.setFallback_in (hM.of rfl) (State.rehome_in (hM.of rfl) h8)
          · exact h8
        · exact h
    · exact h

theorem State.leaveFenced_in (hM : Incl 0x1ac5617210088463c M) (h : Within M s x) : Within M s (State.leaveFenced x) := by
  unfold State.leaveFenced
  refine Within.forEach ?_ (fun y1 y2 h3 => ?_)
  · exact h
  · extract_lets -merge +onlyGivenNames v4
    clear_value v4
    extract_lets -merge +onlyGivenNames v5
    have h6 : Within M s v5 := State.setFallback_in (hM.of rfl) (State.rehome_in (hM.of rfl) h3)
    clear_value v5
    refine Within.ite ?_ (fun _ => ?_)
    · exact h6
    · exact State.showGrp_in (hM.of rfl) (State.resumeGrp_in (hM.of rfl) h6)

theorem State.activeDue_in (hM : Incl 0x2c5003010080001c M) (h : Within M s x) : Within M s (State.activeDue x) := by
  unfold State.activeDue
  refine Within.ite ?_ (fun _ => ?_)
  · exact h
  · exact State.setActive_in (hM.of rfl) h

theorem State.placementBoundary_in {p2} (hM : Incl 0x1ae5617210088463c M) (h : Within M s x) : Within M s (State.placementBoundary x p2) := by
  unfold State.placementBoundary
  extract_lets -merge +onlyGivenNames v1 v2 v3
  clear_value v1 v2 v3
  extract_lets -merge +onlyGivenNames v4
  have h5 : Within M s v4 := Within.set_sof h (hM.of rfl)
  clear_value v4
  extract_lets -merge +onlyGivenNames v6
  have h7 : Within M s v6 := State.activeDue_in (hM.of rfl) h5
  clear_value v6
  extract_lets -merge +onlyGivenNames v8
  clear_value v8
  extract_lets -merge +onlyGivenNames v9
  have h10 : Within M s v9 := State.leaveFenced_in (hM.of rfl) h7
  clear_value v9
  extract_lets -merge +onlyGivenNames v11
  have h12 : Within M s v11 := by
    unfold v11
    refine Within.forEach ?_ (fun y13 y14 h15 => ?_)
    · exact h10
    · exact State.pinFlow_in (hM.of rfl) h15
  clear_value v11
  extract_lets -merge +onlyGivenNames v16
  have h17 : Within M s v16 := by
    unfold v16
    refine Within.ite ?_ (fun _ => ?_)
    · exact h12
    · exact State.loadUpdate_in (hM.of rfl) h12
  clear_value v16
  refine Within.ite ?_ (fun _ => ?_)
  · exact State.restSurplus_in (hM.of rfl) (Within.set_sof h17 (hM.of rfl))
  · extract_lets -merge +onlyGivenNames v18
    have h19 : Within M s v18 := State.rebalanceRun_in (hM.of rfl) h17
    clear_value v18
    extract_lets -merge +onlyGivenNames v20
    have h21 : Within M s v20 := by
      unfold v20
      refine Within.ite ?_ (fun _ => ?_)
      · exact h19
      · exact State.placementPass_in (hM.of rfl) h19
    clear_value v20
    exact State.restSurplus_in (hM.of rfl) (State.beginMoves_in (hM.of rfl) h21)

theorem State.setAm_in {p2} {p3} (hM : Incl 0x400 M) (h : Within M s x) : Within M s (State.setAm x p2 p3) := by
  unfold State.setAm
  exact Within.set_alm h (hM.of rfl)

theorem State.amRest_in {p2} (hM : Incl 0x400000000000000000 M) (h : Within M s x) : Within M s (State.amRest x p2) := by
  unfold State.amRest
  exact State.wr_in (hM.of rfl) (State.wr_in (hM.of rfl) (State.setFlag_in (hM.of rfl) (hM.of rfl) (State.setFlag_in (hM.of rfl) (hM.of rfl) (State.wr_in (hM.of rfl) (State.wr_in (hM.of rfl) h)))))

theorem State.amCheck_in {p2} (hM : Incl 0x400410000100800404 M) (h : Within M s x) : Within M s (State.amCheck x p2) := by
  unfold State.amCheck
  extract_lets -merge +onlyGivenNames v1 v2 v3
  clear_value v1 v2 v3
  extract_lets -merge +onlyGivenNames v4
  have h5 : Within M s v4 := State.setFlag_in (hM.of rfl) (hM.of rfl) h
  clear_value v4
  refine Within.ite ?_ (fun _ => ?_)
  · extract_lets -merge +onlyGivenNames v6
    clear_value v6
    extract_lets -merge +onlyGivenNames v7
    have h8 : Within M s v7 := by
      unfold v7
      refine Within.ite ?_ (fun _ => ?_)
      · exact h5
      · exact State.setAm_in (hM.of rfl) (State.amRest_in (hM.of rfl) h5)
    clear_value v7
    refine Within.ite ?_ (fun _ => ?_)
    · exact h8
    · extract_lets -merge +onlyGivenNames v9
      have h10 : Within M s v9 := State.wr_in (hM.of rfl) h8
      clear_value v9
      refine Within.ite ?_ (fun _ => ?_)
      · exact h10
      · exact State.logEvent_in (hM.of rfl) h10
  · extract_lets -merge +onlyGivenNames v11 v12
    clear_value v11 v12
    extract_lets -merge +onlyGivenNames v13
    have h14 : Within M s v13 := State.setAm_in (hM.of rfl) (State.amRest_in (hM.of rfl) h5)
    clear_value v13
    refine Within.ite ?_ (fun _ => ?_)
    · exact h14
    · exact State.notice_in (hM.of rfl) h14

theorem State.checkMachines_in (hM : Incl 0x40045611210080463c M) (h : Within M s x) : Within M s (State.checkMachines x) := by
  unfold State.checkMachines
  refine State.stdPublish_in (hM.of rfl) ?_
  refine Within.forEach ?_ (fun y1 y2 h3 => ?_)
  · exact h
  · exact State.amCheck_in (hM.of rfl) h3

theorem State.collect_in {p2} {p3} {p4} {p5} (hM : Incl 0x400 M) (h : Within M s x) : Within M s (State.collect x p2 p3 p4 p5) := by
  unfold State.collect
  refine Within.forEach ?_ (fun y1 y2 h3 => ?_)
  · exact h
  · extract_lets -merge +onlyGivenNames v4 v5
    clear_value v4 v5
    refine Within.ite ?_ (fun _ => ?_)
    · exact Within.set_alm h3 (hM.of rfl)
    · exact h3

theorem State.pubFlush_in {p2} {p3} (hM : Incl 0x45611210080463c M) (h : Within M s x) : Within M s (State.pubFlush x p2 p3) := by
  unfold State.pubFlush
  refine Within.ite ?_ (fun _ => ?_)
  · extract_lets -merge +onlyGivenNames v1 v2
    clear_value v1 v2
    extract_lets -merge +onlyGivenNames v3
    have h4 : Within M s v3 := by
      unfold v3
      refine Within.forEach ?_ (fun y5 y6 h7 => ?_)
      · exact h
      · extract_lets -merge +onlyGivenNames v8
        clear_value v8
        split
        · extract_lets -merge +onlyGivenNames v9
          clear_value v9
          extract_lets -merge +onlyGivenNames v10
          have h11 : Within M s v10 := Within.set_alm h7 (hM.of rfl)
          clear_value v10
          exact State.pubRound_in (hM.of rfl) h11
        · exact h7
    clear_value v3
    refine Within.ite ?_ (fun _ => ?_)
    · exact State.stdPublish_in (hM.of rfl) h4
    · exact h4
  · exact h

theorem State.keepOut_in {p2} {p3} {p4} (hM : Incl 0x400 M) (h : Within M s x) : Within M s (State.keepOut x p2 p3 p4) := by
  unfold State.keepOut
  extract_lets -merge +onlyGivenNames v1 v2
  clear_value v1 v2
  exact Within.set_alm h (hM.of rfl)

theorem State.amStep_in {p2} {p3} {p4} {p5} {p6} (hM : Incl 0x40045011010180041c M) (h : Within M s x) : Within M s (State.amStep x p2 p3 p4 p5 p6) := by
  unfold State.amStep
  extract_lets -merge +onlyGivenNames v1 v2 v3 v4 v5
  clear_value v1 v2 v3 v4 v5
  split
  extract_lets -merge +onlyGivenNames v6
  clear_value v6
  extract_lets -merge +onlyGivenNames v7
  have h8 : Within M s v7 := State.keepOut_in (hM.of rfl) h
  clear_value v7
  extract_lets -merge +onlyGivenNames v9
  have h10 : Within M s v9 := Within.set_free h8 (hM.of rfl)
  clear_value v9
  extract_lets -merge +onlyGivenNames v11
  have h12 : Within M s v11 := State.setAm_in (hM.of rfl) h10
  clear_value v11
  extract_lets -merge +onlyGivenNames v13
  have h14 : Within M s v13 := by
    unfold v13
    refine Within.ite ?_ (fun _ => ?_)
    · exact h12
    · exact State.setFlag_in (hM.of rfl) (hM.of rfl) h12
  clear_value v13
  extract_lets -merge +onlyGivenNames v15
  have h16 : Within M s v15 := State.wr_in (hM.of rfl) (State.inc_in (hM.of rfl) (hM.of rfl) (State.wr_in (hM.of rfl) (State.wr_in (hM.of rfl) h14)))
  clear_value v15
  extract_lets -merge +onlyGivenNames v17
  have h18 : Within M s v17 := by
    unfold v17
    refine Within.ite ?_ (fun _ => ?_)
    · exact h16
    · exact State.setFlag_in (hM.of rfl) (hM.of rfl) (State.inc_in (hM.of rfl) (hM.of rfl) (State.wr_in (hM.of rfl) (State.wr_in (hM.of rfl) h16)))
  clear_value v17
  extract_lets -merge +onlyGivenNames v19
  clear_value v19
  extract_lets -merge +onlyGivenNames v20
  have h21 : Within M s v20 := State.wr_in (hM.of rfl) h18
  clear_value v20
  extract_lets -merge +onlyGivenNames v22
  have h23 : Within M s v22 := by
    unfold v22
    refine Within.ite ?_ (fun _ => ?_)
    · exact h21
    · exact State.notice_in (hM.of rfl) h21
  clear_value v22
  extract_lets -merge +onlyGivenNames v24 v25
  clear_value v24 v25
  extract_lets -merge +onlyGivenNames v26
  have h27 : Within M s v26 := State.notice_in (hM.of rfl) h23
  clear_value v26
  extract_lets -merge +onlyGivenNames v28
  have h29 : Within M s v28 := by
    unfold v28
    refine Within.ite ?_ (fun _ => ?_)
    · exact h27
    · exact State.notice_in (hM.of rfl) h27
  clear_value v28
  extract_lets -merge +onlyGivenNames v30
  have h31 : Within M s v30 := by
    unfold v30
    refine Within.ite ?_ (fun _ => ?_)
    · exact h23
    · exact State.shedMark_in (hM.of rfl) (State.alarmRec_in (hM.of rfl) h29)
  clear_value v30
  split
  rename_i z32 z33 z34 z35
  have h36 : Within M s z33 := Within.of_fst z35 (State.showAlarms_in (hM.of rfl) (Within.set_alm h31 (hM.of rfl)))
  exact State.collect_in (hM.of rfl) h36

theorem execMachineStep_in {p1} {p2} (hM : Incl 0x40045611210180463e M) : WithinRes M s (execMachineStep p1 p2 s) := by
  have h : Within M s s := Within.refl s
  unfold execMachineStep
  extract_lets -merge +onlyGivenNames v1
  have h2 : Within M s v1 := State.advance_in (hM.of rfl) h
  clear_value v1
  split
  · split
    · refine WithinRes.next ?_
      refine Within.ite ?_ (fun _ => ?_)
      · exact h2
      · extract_lets -merge +onlyGivenNames v3 v4
        clear_value v3 v4
        extract_lets -merge +onlyGivenNames v5
        have h6 : Within M s v5 := Within.set_pair h2 (hM.of rfl)
        clear_value v5
        extract_lets -merge +onlyGivenNames v7
        have h8 : Within M s v7 := by
          unfold v7
          refine State.pubFlush_in (hM.of rfl) ?_
          refine State.markRan_in (hM.of rfl) ?_
          refine Within.ite ?_ (fun _ => ?_)
          · exact h6
          · exact State.amStep_in (hM.of rfl) h6
        clear_value v7
        exact Within.set_pair h8 (hM.of rfl)
    · exact WithinRes.next h2
  · exact WithinRes.next h2

theorem State.ackWrite_in {p2} (hM : Incl 0x40045011010180041c M) (h : Within M s x) : Within M s (State.ackWrite x p2) := by
  unfold State.ackWrite
  extract_lets -merge +onlyGivenNames v1 v2
  clear_value v1 v2
  extract_lets -merge +onlyGivenNames v3
  have h4 : Within M s v3 := State.setWord_in (hM.of rfl) h
  clear_value v3
  refine Within.ite ?_ (fun _ => ?_)
  · refine Within.ite ?_ (fun _ => ?_)
    · exact State.wr_in (hM.of rfl) h4
    · split
      rename_i z5 z6 z7 z8
      have h9 : Within M s z7 := Within.of_snd z8 (State.draw_in (hM.of rfl) h4)
      extract_lets -merge +onlyGivenNames v10
      clear_value v10
      exact State.shedMark_in (hM.of rfl) (State.alarmRec_in (hM.of rfl) (State.wr_in (hM.of rfl) (State.setFlag_in (hM.of rfl) (hM.of rfl) h9)))
  · exact State.wr_in (hM.of rfl) h4

theorem execAlmAck_in {p1} (hM : Incl 0x40045011010180441c M) : WithinRes M s (execAlmAck p1 s) := by
  have h : Within M s s := Within.refl s
  unfold execAlmAck
  refine WithinRes.next ?_
  refine State.hostGate_in (hM.of rfl) h (fun y1 h2 => ?_)
  exact State.ackWrite_in (hM.of rfl) h2

theorem State.pubRepeat_in {p2} (hM : Incl 0x45611210080463c M) (h : Within M s x) : Within M s (State.pubRepeat x p2) := by
  unfold State.pubRepeat
  extract_lets -merge +onlyGivenNames v1 v2 v3
  clear_value v1 v2 v3
  extract_lets -merge +onlyGivenNames v4
  have h5 : Within M s v4 := Within.set_alm h (hM.of rfl)
  clear_value v4
  split
  rename_i z6 z7 z8 z9
  have h10 : Within M s z7 := Within.of_fst z9 (State.pubSend_in (hM.of rfl) (State.wr_in (hM.of rfl) h5))
  extract_lets -merge +onlyGivenNames v11
  clear_value v11
  extract_lets -merge +onlyGivenNames v12
  have h13 : Within M s v12 := Within.set_alm h10 (hM.of rfl)
  clear_value v12
  exact State.stdAlarm_in (hM.of rfl) h13

theorem execGooseRetransmit_in {p1} {p2} (hM : Incl 0x45611210080463e M) : WithinRes M s (execGooseRetransmit p1 p2 s) := by
  have h : Within M s s := Within.refl s
  unfold execGooseRetransmit
  extract_lets -merge +onlyGivenNames v1
  have h2 : Within M s v1 := State.advance_in (hM.of rfl) h
  clear_value v1
  refine WithinRes.next ?_
  refine Within.ite ?_ (fun _ => ?_)
  · exact h2
  · exact State.pubRepeat_in (hM.of rfl) h2

theorem execStdAlarmExpiry_in {p1} {p2} (hM : Incl 0x45611210080463e M) : WithinRes M s (execStdAlarmExpiry p1 p2 s) := by
  have h : Within M s s := Within.refl s
  unfold execStdAlarmExpiry
  extract_lets -merge +onlyGivenNames v1
  have h2 : Within M s v1 := State.advance_in (hM.of rfl) h
  clear_value v1
  extract_lets -merge +onlyGivenNames v3
  clear_value v3
  refine WithinRes.next ?_
  refine Within.ite ?_ (fun _ => ?_)
  · exact h2
  · exact State.stdAlarm_in (hM.of rfl) h2

theorem execAlarmPinMinw_in {p1} {p2} (hM : Incl 0x100000000402 M) : WithinRes M s (execAlarmPinMinw p1 p2 s) := by
  have h : Within M s s := Within.refl s
  unfold execAlarmPinMinw
  extract_lets -merge +onlyGivenNames v1
  have h2 : Within M s v1 := State.advance_in (hM.of rfl) h
  clear_value v1
  refine WithinRes.next ?_
  refine Within.ite ?_ (fun _ => ?_)
  · extract_lets -merge +onlyGivenNames v3
    clear_value v3
    extract_lets -merge +onlyGivenNames v4
    have h5 : Within M s v4 := Within.set_alm h2 (hM.of rfl)
    clear_value v4
    exact State.drivePins_in (hM.of rfl) h5
  · exact h2

theorem execAlmOeNChange_in {p1} (hM : Incl 0x410100100800404 M) : WithinRes M s (execAlmOeNChange p1 s) := by
  have h : Within M s s := Within.refl s
  unfold execAlmOeNChange
  refine WithinRes.ite ?_ ?_
  · extract_lets -merge +onlyGivenNames v1
    clear_value v1
    extract_lets -merge +onlyGivenNames v2
    have h3 : Within M s v2 := Within.set_alm h (hM.of rfl)
    clear_value v2
    exact WithinRes.next (State.drivePins_in (hM.of rfl) (State.notice_in (hM.of rfl) (State.setFlag_in (hM.of rfl) (hM.of rfl) h3)))
  · exact WithinRes.next h

theorem State.commitWrite_in {p2} {p3} (hM : Incl 0x410008100800084 M) (h : Within M s x) : Within M s (State.commitWrite x p2 p3) := by
  unfold State.commitWrite
  refine Within.ite ?_ (fun _ => ?_)
  · refine Within.ite ?_ (fun _ => ?_)
    · exact State.announce_in (hM.of rfl) h
    · exact State.whlNotice_in (hM.of rfl) (State.wr_in (hM.of rfl) h)
  · exact h

theorem State.holdCfg_in {p2} {p3} {p4} (hM : Incl 0x80 M) (h : Within M s x) : Within M s (State.holdCfg x p2 p3 p4) := by
  unfold State.holdCfg
  extract_lets -merge +onlyGivenNames v1
  clear_value v1
  exact State.setRnd_in (hM.of rfl) h

theorem State.roundOff_in {p2} (hM : Incl 0x200acd20d21019040bc M) (h : Within M s x) : Within M s (State.roundOff x p2) := by
  unfold State.roundOff
  extract_lets -merge +onlyGivenNames v1
  clear_value v1
  exact State.endFlow_in (hM.of rfl) (State.setRnd_in (hM.of rfl) h)

theorem State.roundSwitch_in {p2} {p3} (hM : Incl 0x240acd61d21019046bc M) (h : Within M s x) : Within M s (State.roundSwitch x p2 p3) := by
  unfold State.roundSwitch
  refine Within.ite ?_ (fun _ => ?_)
  · refine State.checkMachines_in (hM.of rfl) ?_
    refine Within.ite ?_ (fun _ => ?_)
    · exact h
    · exact State.roundOff_in (hM.of rfl) h
  · exact h

theorem State.rndWrite_in {p2 : ℕ} {p3 : ℕ} {p4 : Word} (hM : Incl 0x240acd61da1019046bc M) (kk1 : Incl (areaBit p3) M) (h : Within M s x) : Within M s (State.rndWrite x p2 p3 p4) := by
  unfold State.rndWrite
  refine Within.ite ?_ (fun _ => ?_)
  · refine Within.ite ?_ (fun _ => ?_)
    · extract_lets -merge +onlyGivenNames v1
      clear_value v1
      refine Within.ite ?_ (fun _ => ?_)
      · refine State.roundSwitch_in (hM.of rfl) ?_
        refine State.rerate_in (hM.of rfl) ?_
        refine State.layoutChange_in (hM.of rfl) h (fun y2 h3 => ?_)
        exact State.store_in (hM.of rfl) kk1 h3
      · extract_lets -merge +onlyGivenNames v4
        have h5 : Within M s v4 := State.holdCfg_in (hM.of rfl) (State.setWord_in kk1 h)
        clear_value v4
        refine Within.ite ?_ (fun _ => ?_)
        · exact h5
        · exact State.roundSwitch_in (hM.of rfl) (State.applyCfg_in (hM.of rfl) h5)
    · exact State.wr_in (hM.of rfl) h
  · exact State.commitWrite_in (hM.of rfl) h

theorem State.descWrite_in {p2} {p3} {p4} (hM : Incl 0x1410000100800004 M) (h : Within M s x) : Within M s (State.descWrite x p2 p3 p4) := by
  unfold State.descWrite
  extract_lets -merge +onlyGivenNames v1
  clear_value v1
  refine Within.ite ?_ (fun _ => ?_)
  · exact State.logRefused_in (hM.of rfl) h
  · exact State.put_in (hM.of rfl) h

theorem State.stabWrite_in {p2 : ℕ} {p3 : ℕ} {p4 : Word} (hM : Incl 0x410000100800004 M) (kk1 : Incl (areaBit p3) M) (h : Within M s x) : Within M s (State.stabWrite x p2 p3 p4) := by
  unfold State.stabWrite
  extract_lets -merge +onlyGivenNames v1
  clear_value v1
  refine Within.ite ?_ (fun _ => ?_)
  · exact State.store_in (hM.of rfl) kk1 h
  · extract_lets -merge +onlyGivenNames v2
    clear_value v2
    extract_lets -merge +onlyGivenNames v3
    have h4 : Within M s v3 := State.setWord_in kk1 h
    clear_value v3
    refine Within.ite ?_ (fun _ => ?_)
    · exact h4
    · exact State.logRefused_in (hM.of rfl) h4

theorem State.amWrite_in {p2 : ℕ} {p3 : ℕ} {p4 : Word} (hM : Incl 0x40045611210080463c M) (kk1 : Incl (areaBit p3) M) (h : Within M s x) : Within M s (State.amWrite x p2 p3 p4) := by
  unfold State.amWrite
  exact State.stdPublish_in (hM.of rfl) (State.amCheck_in (hM.of rfl) (State.store_in (hM.of rfl) kk1 h))

theorem State.inhibitWrite_in {p2 : ℕ} {p3 : ℕ} {p4 : Word} (hM : Incl 0x40045611210080463c M) (kk1 : Incl (areaBit p3) M) (h : Within M s x) : Within M s (State.inhibitWrite x p2 p3 p4) := by
  unfold State.inhibitWrite
  extract_lets -merge +onlyGivenNames v1
  have h2 : Within M s v1 := State.store_in (hM.of rfl) kk1 h
  clear_value v1
  extract_lets -merge +onlyGivenNames v3 v4
  clear_value v3 v4
  exact State.stdPublish_in (hM.of rfl) (State.wr_in (hM.of rfl) h2)

theorem State.blockWrite_in {p2 : ℕ} {p3 : Word} (hM : Incl 0x241bcd61de1019846fc M) (kk1 : Incl (areaBit p2) M) (h : Within M s x) : Within M s (State.blockWrite x p2 p3) := by
  unfold State.blockWrite
  refine Within.ite ?_ (fun _ => ?_)
  · refine Within.ite ?_ (fun _ => ?_)
    · refine Within.ite ?_ (fun _ => ?_)
      · refine Within.ite ?_ (fun _ => ?_)
        · refine Within.ite ?_ (fun _ => ?_)
          · refine Within.ite ?_ (fun _ => ?_)
            · refine Within.ite ?_ (fun _ => ?_)
              · refine Within.ite ?_ (fun _ => ?_)
                · refine Within.ite ?_ (fun _ => ?_)
                  · refine Within.ite ?_ (fun _ => ?_)
                    · refine Within.ite ?_ (fun _ => ?_)
                      · refine Within.ite ?_ (fun _ => ?_)
                        · refine Within.ite ?_ (fun _ => ?_)
                          · refine Within.ite ?_ (fun _ => ?_)
                            · refine Within.ite ?_ (fun _ => ?_)
                              · refine Within.ite ?_ (fun _ => ?_)
                                · refine Within.ite ?_ (fun _ => ?_)
                                  · exact State.store_in (hM.of rfl) kk1 h
                                  · exact State.inhibitWrite_in (hM.of rfl) kk1 h
                                · extract_lets -merge +onlyGivenNames v1
                                  clear_value v1
                                  refine Within.ite ?_ (fun _ => ?_)
                                  · refine State.layoutChange_in (hM.of rfl) h (fun y2 h3 => ?_)
                                    exact State.store_in (hM.of rfl) kk1 h3
                                  · exact State.holdCfg_in (hM.of rfl) h
                              · exact State.drivePins_in (hM.of rfl) (State.store_in (hM.of rfl) kk1 h)
                            · exact State.stdPublish_in (hM.of rfl) (State.store_in (hM.of rfl) kk1 h)
                          · exact State.checkMachines_in (hM.of rfl) (State.store_in (hM.of rfl) kk1 h)
                        · exact State.islCtlWrite_in (hM.of rfl) h
                      · exact State.agCfgWrite_in (hM.of rfl) kk1 h
                    · exact State.chanWrite_in (hM.of rfl) kk1 h
                  · extract_lets -merge +onlyGivenNames v4
                    have h5 : Within M s v4 := State.store_in (hM.of rfl) kk1 h
                    clear_value v4
                    exact Within.set_osc h5 (hM.of rfl)
                · exact State.amWrite_in (hM.of rfl) kk1 h
              · extract_lets -merge +onlyGivenNames v6
                clear_value v6
                refine Within.ite ?_ (fun _ => ?_)
                · exact State.stabWrite_in (hM.of rfl) kk1 h
                · exact State.stabWr_in (hM.of rfl) (hM.of rfl) h
            · extract_lets -merge +onlyGivenNames v7
              clear_value v7
              refine Within.ite ?_ (fun _ => ?_)
              · exact State.stabWrite_in (hM.of rfl) kk1 h
              · exact State.stabWr_in (hM.of rfl) (hM.of rfl) h
          · extract_lets -merge +onlyGivenNames v8
            clear_value v8
            refine Within.ite ?_ (fun _ => ?_)
            · exact State.descWrite_in (hM.of rfl) h
            · exact State.descCheckWrite_in (hM.of rfl) h
        · exact State.rndWrite_in (hM.of rfl) kk1 h
      · exact State.ackWrite_in (hM.of rfl) h
    · exact State.admCtlWrite_in (hM.of rfl) h
  · exact State.admDecideWrite_in (hM.of rfl) h

theorem State.mirrorWrite_in {p2 p3} (hM : Incl 0x3fffcd61de1019846fc M) (h : Within M s x) : Within M s (State.mirrorWrite x p2 p3) := by
  unfold State.mirrorWrite
  split
  · rename_i hc
    refine State.blockWrite_in (hM.of rfl) ?_ h
    unfold mirrorAreas at hc
    unfold areaBit
    generalize areaOf p2 = n at hc ⊢
    simp only [List.contains_iff_mem, List.mem_cons, List.not_mem_nil, or_false] at hc
    rcases hc with rfl | rfl | rfl | rfl | rfl | rfl | rfl | rfl | rfl | rfl | rfl | rfl | rfl | rfl | rfl | rfl | rfl | rfl | rfl <;>
      exact hM.of rfl
  · exact h

theorem execRoundCommit_in {p1} {p2} (hM : Incl 0x410008100804084 M) : WithinRes M s (execRoundCommit p1 p2 s) := by
  have h : Within M s s := Within.refl s
  unfold execRoundCommit
  refine WithinRes.next ?_
  refine State.hostGate_in (hM.of rfl) h (fun y1 h2 => ?_)
  exact State.commitWrite_in (hM.of rfl) h2

theorem execMaxDspClear_in {p1} {p2} (hM : Incl 0x410008100804004 M) : WithinRes M s (execMaxDspClear p1 p2 s) := by
  have h : Within M s s := Within.refl s
  unfold execMaxDspClear
  refine WithinRes.next ?_
  refine State.hostGate_in (hM.of rfl) h (fun y1 h2 => ?_)
  exact State.wr_in (hM.of rfl) h2

theorem execMaxLClear_in {p1} {p2} (hM : Incl 0x2c10000100804004 M) : WithinRes M s (execMaxLClear p1 p2 s) := by
  have h : Within M s s := Within.refl s
  unfold execMaxLClear
  extract_lets -merge +onlyGivenNames v1
  subst v1
  refine WithinRes.next ?_
  refine State.hostGate_in (hM.of rfl) h (fun y2 h3 => ?_)
  exact State.stabWr_in (hM.of rfl) (hM.of rfl) h3

theorem execLinkDown_in {p1} {p2} (hM : Incl 0x219aed6fd27019bdebe M) : WithinRes M s (execLinkDown p1 p2 s) := by
  have h : Within M s s := Within.refl s
  unfold execLinkDown
  extract_lets -merge +onlyGivenNames v1
  have h2 : Within M s v1 := State.advance_in (hM.of rfl) h
  clear_value v1
  refine WithinRes.next ?_
  refine Within.ite ?_ (fun _ => ?_)
  · exact h2
  · extract_lets -merge +onlyGivenNames v3
    clear_value v3
    extract_lets -merge +onlyGivenNames v4
    have h5 : Within M s v4 := State.setPort_in (hM.of rfl) (State.setFlag_in (hM.of rfl) (hM.of rfl) h2)
    clear_value v4
    exact State.refreshDeg_in (hM.of rfl) (State.notice_in (hM.of rfl) h5)

theorem execLinkUp_in {p1} {p2} (hM : Incl 0x219aed6fd27019bdebe M) : WithinRes M s (execLinkUp p1 p2 s) := by
  have h : Within M s s := Within.refl s
  unfold execLinkUp
  extract_lets -merge +onlyGivenNames v1
  have h2 : Within M s v1 := State.advance_in (hM.of rfl) h
  clear_value v1
  refine WithinRes.next ?_
  refine Within.ite ?_ (fun _ => ?_)
  · exact h2
  · extract_lets -merge +onlyGivenNames v3 v4
    clear_value v3 v4
    extract_lets -merge +onlyGivenNames v5
    have h6 : Within M s v5 := State.wr_in (hM.of rfl) (State.setFlag_in (hM.of rfl) (hM.of rfl) h2)
    clear_value v5
    exact State.sendReports_in (hM.of rfl) (State.refreshDeg_in (hM.of rfl) (State.notice_in (hM.of rfl) (State.setPort_in (hM.of rfl) h6)))

theorem execPortRestore_in {p1} {p2} (hM : Incl 0x219aed6fd27019bdebe M) : WithinRes M s (execPortRestore p1 p2 s) := by
  have h : Within M s s := Within.refl s
  unfold execPortRestore
  extract_lets -merge +onlyGivenNames v1
  have h2 : Within M s v1 := State.advance_in (hM.of rfl) h
  clear_value v1
  extract_lets -merge +onlyGivenNames v3
  clear_value v3
  refine WithinRes.next ?_
  refine Within.ite ?_ (fun _ => ?_)
  · exact h2
  · exact State.refreshDeg_in (hM.of rfl) (State.setPort_in (hM.of rfl) h2)

theorem execPortFail_in {p1} {p2} (hM : Incl 0x219aed6fd27019bdebe M) : WithinRes M s (execPortFail p1 p2 s) := by
  have h : Within M s s := Within.refl s
  unfold execPortFail
  extract_lets -merge +onlyGivenNames v1
  have h2 : Within M s v1 := State.advance_in (hM.of rfl) h
  clear_value v1
  exact WithinRes.next (State.portsChanged_in (hM.of rfl) (State.setPort_in (hM.of rfl) h2))

end Sys2Proof.Machine
end

