-- ==== Sys2Proof/Laws/WithinPair.lean ====
section
/-! SUPPORT. What each operation and each meaning may change: the pair, the Letterbox, capture and compression. -/
namespace Sys2Proof.Machine

variable {M : Nat} {s x : State}

theorem State.sendCatch_in {p2} {p3} (hM : Incl 0x804000 M) (h : Within M s x) : Within M s (State.sendCatch x p2 p3) := by
  unfold State.sendCatch
  refine Within.ite ?_ (fun _ => ?_)
  · split
    · exact State.plkSend_in (hM.of rfl) h
    · exact State.plkSend_in (hM.of rfl) h
  · exact State.plkSend_in (hM.of rfl) h

theorem State.sendCopy_in {p2} {p3} (hM : Incl 0x2000000804000 M) (h : Within M s x) : Within M s (State.sendCopy x p2 p3) := by
  unfold State.sendCopy
  extract_lets -merge +onlyGivenNames v1 v2 v3 v4 v5 v6
  clear_value v1 v2 v3 v4 v5 v6
  extract_lets -merge +onlyGivenNames v7
  have h8 : Within M s v7 := Within.set_pair h (hM.of rfl)
  clear_value v7
  extract_lets -merge +onlyGivenNames v9
  have h10 : Within M s v9 := State.plkSend_in (hM.of rfl) (State.wr_in (hM.of rfl) h8)
  clear_value v9
  refine Within.ite ?_ (fun _ => ?_)
  · extract_lets -merge +onlyGivenNames v11
    have h12 : Within M s v11 := by
      unfold v11
      refine Within.forEach ?_ (fun y13 y14 h15 => ?_)
      · exact h10
      · exact State.sendCatch_in (hM.of rfl) h15
    clear_value v11
    refine Within.ite ?_ (fun _ => ?_)
    · exact h12
    · exact State.sendCatch_in (hM.of rfl) h12
  · exact h10

theorem State.applyAdmission_in {p2} {p3} {p4} {p5} (hM : Incl 0x200acd20de1019040fc M) (h : Within M s x) : Within M s (State.applyAdmission x p2 p3 p4 p5) := by
  unfold State.applyAdmission
  extract_lets -merge +onlyGivenNames v1
  clear_value v1
  extract_lets -merge +onlyGivenNames v2
  have h3 : Within M s v2 := by
    unfold v2
    refine Within.ite ?_ (fun _ => ?_)
    · exact h
    · exact State.retire_in (hM.of rfl) h
  clear_value v2
  extract_lets -merge +onlyGivenNames v4
  clear_value v4
  extract_lets -merge +onlyGivenNames v5
  have h6 : Within M s v5 := by
    unfold v5
    refine Within.forEach ?_ (fun y7 y8 h9 => ?_)
    · exact h3
    · exact State.put_in (hM.of rfl) h9
  clear_value v5
  extract_lets -merge +onlyGivenNames v10
  have h11 : Within M s v10 := State.wr_in (hM.of rfl) (State.wr_in (hM.of rfl) h6)
  clear_value v10
  extract_lets -merge +onlyGivenNames v12
  have h13 : Within M s v12 := by
    unfold v12
    refine Within.ite ?_ (fun _ => ?_)
    · exact h11
    · exact State.goLive_in (hM.of rfl) h11
  clear_value v12
  extract_lets -merge +onlyGivenNames v14 v15 v16 v17 v18 v19 v20 v21
  clear_value v14 v15 v16 v17 v18 v19 v20 v21
  extract_lets -merge +onlyGivenNames v22
  have h23 : Within M s v22 := by
    unfold v22
    refine Within.ite ?_ (fun _ => ?_)
    · split
      · exact State.senderGets_in (hM.of rfl) h13
      · exact State.senderGets_in (hM.of rfl) (Within.set_adm h13 (hM.of rfl))
    · exact h13
  clear_value v22
  exact State.showAdm_in (hM.of rfl) h23

theorem State.applyRec_in {p2} (hM : Incl 0x3fffcd61de1019846fc M) (h : Within M s x) : Within M s (State.applyRec x p2) := by
  unfold State.applyRec
  split
  · extract_lets -merge +onlyGivenNames v1
    have h2 : Within M s v1 := State.wr_in (hM.of rfl) (State.setFlag_in (hM.of rfl) (hM.of rfl) (State.setFlag_in (hM.of rfl) (hM.of rfl) (State.setFlag_in (hM.of rfl) (hM.of rfl) (State.wr_in (hM.of rfl) (State.wr_in (hM.of rfl) (State.wr_in (hM.of rfl) h))))))
    clear_value v1
    exact State.setAm_in (hM.of rfl) h2
  · refine Within.forEach ?_ (fun y3 y4 h5 => ?_)
    · exact h
    · exact State.wr_in (hM.of rfl) h5
  · extract_lets -merge +onlyGivenNames v6
    have h7 : Within M s v6 := State.wr_in (hM.of rfl) (State.wr_in (hM.of rfl) h)
    clear_value v6
    extract_lets -merge +onlyGivenNames v8
    clear_value v8
    exact Within.set_alm h7 (hM.of rfl)
  · split
    · exact State.setRun_in (hM.of rfl) h
    · exact h
  · extract_lets -merge +onlyGivenNames v9
    have h10 : Within M s v9 := by
      unfold v9
      refine Within.forEach ?_ (fun y11 y12 h13 => ?_)
      · exact h
      · exact State.put_in (hM.of rfl) h13
    clear_value v9
    exact State.showIsl_in (hM.of rfl) (State.setCg_in (hM.of rfl) h10)
  · exact State.wr_in (hM.of rfl) (State.wr_in (hM.of rfl) h)
  · exact State.applyAdmission_in (hM.of rfl) h
  · exact State.clearInelig_in (hM.of rfl) (State.showDesc_in (hM.of rfl) (State.putDesc_in (hM.of rfl) (State.setCounts_in (hM.of rfl) h)))
  · extract_lets -merge +onlyGivenNames v14
    have h15 : Within M s v14 := State.wr_in (hM.of rfl) (State.wr_in (hM.of rfl) h)
    clear_value v14
    exact State.setRnd_in (hM.of rfl) h15
  · exact State.mirrorWrite_in (hM.of rfl) h
  · exact State.wr_in (hM.of rfl) h

theorem State.mirrorBoundary_in {p2} (hM : Incl 0x3fffcd61de1019846fc M) (h : Within M s x) : Within M s (State.mirrorBoundary x p2) := by
  unfold State.mirrorBoundary
  extract_lets -merge +onlyGivenNames v1 v2
  clear_value v1 v2
  extract_lets -merge +onlyGivenNames v3
  have h4 : Within M s v3 := Within.set_pair h (hM.of rfl)
  clear_value v3
  extract_lets -merge +onlyGivenNames v5
  have h6 : Within M s v5 := by
    unfold v5
    refine Within.forEach ?_ (fun y7 y8 h9 => ?_)
    · exact h4
    · exact State.mirrorWrite_in (hM.of rfl) h9
  clear_value v5
  refine Within.ite ?_ (fun _ => ?_)
  · exact h6
  · exact State.sendCopy_in (hM.of rfl) h6

theorem State.sendMap_in (hM : Incl 0x804000 M) (h : Within M s x) : Within M s (State.sendMap x) := by
  unfold State.sendMap
  refine Within.ite ?_ (fun _ => ?_)
  · extract_lets -merge +onlyGivenNames v1
    clear_value v1
    exact State.plkSend_in (hM.of rfl) (Within.set_pair h (hM.of rfl))
  · exact h

theorem State.emitHeld_in (hM : Incl 0x45201210080403c M) (h : Within M s x) : Within M s (State.emitHeld x) := by
  unfold State.emitHeld
  extract_lets -merge +onlyGivenNames v1 v2
  clear_value v1 v2
  extract_lets -merge +onlyGivenNames v3
  have h4 : Within M s v3 := Within.set_pair h (hM.of rfl)
  clear_value v3
  refine Within.forEach ?_ (fun y5 y6 h7 => ?_)
  · exact h4
  · split
    · exact State.inc_in (hM.of rfl) (hM.of rfl) (State.slotOut_in (hM.of rfl) h7)
    · exact State.pubFrames_in (hM.of rfl) h7

theorem State.skipSpdu_in (hM : Incl 0x4000000000200 M) (h : Within M s x) : Within M s (State.skipSpdu x) := by
  unfold State.skipSpdu
  extract_lets -merge +onlyGivenNames v1
  clear_value v1
  refine Within.forEach ?_ (fun y2 y3 h4 => ?_)
  · exact h
  · exact State.reserve_in (hM.of rfl) (State.setRun_in (hM.of rfl) h4)

theorem State.takeOver_in (hM : Incl 0x219aed6fd27019bdebc M) (h : Within M s x) : Within M s (State.takeOver x) := by
  unfold State.takeOver
  extract_lets -merge +onlyGivenNames v1
  clear_value v1
  extract_lets -merge +onlyGivenNames v2
  have h3 : Within M s v2 := Within.set_pair h (hM.of rfl)
  clear_value v2
  extract_lets -merge +onlyGivenNames v4
  have h5 : Within M s v4 := State.skipSpdu_in (hM.of rfl) (State.notice_in (hM.of rfl) (State.inc_in (hM.of rfl) (hM.of rfl) h3))
  clear_value v4
  exact State.emitHeld_in (hM.of rfl) (State.rejudge_in (hM.of rfl) (State.modeTo_in (hM.of rfl) h5))

theorem State.switched_in (hM : Incl 0x412000100804004 M) (h : Within M s x) : Within M s (State.switched x) := by
  unfold State.switched
  extract_lets -merge +onlyGivenNames v1
  clear_value v1
  extract_lets -merge +onlyGivenNames v2
  have h3 : Within M s v2 := Within.set_pair h (hM.of rfl)
  clear_value v2
  exact State.notice_in (hM.of rfl) (State.inc_in (hM.of rfl) (hM.of rfl) h3)

theorem State.giveRole_in {p2} (hM : Incl 0x219aed6fd27019bdebc M) (h : Within M s x) : Within M s (State.giveRole x p2) := by
  unfold State.giveRole
  extract_lets -merge +onlyGivenNames v1
  have h2 : Within M s v1 := State.modeTo_in (hM.of rfl) (State.switched_in (hM.of rfl) h)
  clear_value v1
  extract_lets -merge +onlyGivenNames v3
  clear_value v3
  extract_lets -merge +onlyGivenNames v4
  have h5 : Within M s v4 := Within.set_pair h2 (hM.of rfl)
  clear_value v4
  refine Within.ite ?_ (fun _ => ?_)
  · exact h5
  · refine Within.ite ?_ (fun _ => ?_)
    · exact h5
    · exact State.reqEnd_in (hM.of rfl) h5

theorem State.takeRole_in {p2} (hM : Incl 0x219aed6fd27019bdebc M) (h : Within M s x) : Within M s (State.takeRole x p2) := by
  unfold State.takeRole
  extract_lets -merge +onlyGivenNames v1
  have h2 : Within M s v1 := State.switched_in (hM.of rfl) h
  clear_value v1
  extract_lets -merge +onlyGivenNames v3
  clear_value v3
  extract_lets -merge +onlyGivenNames v4
  have h5 : Within M s v4 := Within.set_pair h2 (hM.of rfl)
  clear_value v4
  exact State.rejudge_in (hM.of rfl) (State.modeTo_in (hM.of rfl) h5)

theorem State.switchFail_in (hM : Incl 0x410000300804804 M) (h : Within M s x) : Within M s (State.switchFail x) := by
  unfold State.switchFail
  extract_lets -merge +onlyGivenNames v1
  clear_value v1
  extract_lets -merge +onlyGivenNames v2
  have h3 : Within M s v2 := Within.set_pair h (hM.of rfl)
  clear_value v2
  refine Within.ite ?_ (fun _ => ?_)
  · exact h3
  · exact State.reqEnd_in (hM.of rfl) h3

theorem State.roleBoundary_in {p2} (hM : Incl 0x219aed6fd27019bdebc M) (h : Within M s x) : Within M s (State.roleBoundary x p2).1 := by
  unfold State.roleBoundary
  refine Within.ite1 ?_ (fun _ => ?_)
  · split
    · refine Within.ite1 ?_ (fun _ => ?_)
      · refine Within.ite1 ?_ (fun _ => ?_)
        · refine Within.ite1 ?_ (fun _ => ?_)
          · refine Within.ite1 ?_ (fun _ => ?_)
            · exact Within.mk1 (Within.set_pair h (hM.of rfl))
            · exact Within.mk1 (State.takeRole_in (hM.of rfl) h)
          · exact Within.mk1 (State.giveRole_in (hM.of rfl) h)
        · exact Within.mk1 (State.switchFail_in (hM.of rfl) h)
      · exact Within.mk1 h
    · refine Within.ite1 ?_ (fun _ => ?_)
      · exact Within.mk1 h
      · extract_lets -merge +onlyGivenNames v1
        have h2 : Within M s v1 := State.setFlag_in (hM.of rfl) (hM.of rfl) (State.modeTo_in (hM.of rfl) h)
        clear_value v1
        exact Within.mk1 (State.rejudge_in (hM.of rfl) h2)
  · exact Within.mk1 (State.takeOver_in (hM.of rfl) h)

theorem State.requestBoundary_in (hM : Incl 0x219aed6fd27019bdebc M) (h : Within M s x) : Within M s (State.requestBoundary x) := by
  unfold State.requestBoundary
  refine Within.ite ?_ (fun _ => ?_)
  · refine Within.ite ?_ (fun _ => ?_)
    · refine Within.ite ?_ (fun _ => ?_)
      · exact h
      · exact State.reqEnd_in (hM.of rfl) (State.modeTo_in (hM.of rfl) h)
    · exact State.reqEnd_in (hM.of rfl) (State.modeTo_in (hM.of rfl) h)
  · exact h

theorem State.restoreBoundary_in (hM : Incl 0x219aed6fd27019bdebc M) (h : Within M s x) : Within M s (State.restoreBoundary x) := by
  unfold State.restoreBoundary
  refine Within.ite ?_ (fun _ => ?_)
  · exact h
  · exact State.rejudge_in (hM.of rfl) (State.modeTo_in (hM.of rfl) h)

theorem State.lbSettle_in {p2} {p3} {p4} {p5} (hM : Incl 0x8 M) (h : Within M s x) : Within M s (State.lbSettle x p2 p3 p4 p5) := by
  unfold State.lbSettle
  exact State.mapItems_in (hM.of rfl) h

theorem State.lbRun_in {p2} {p3} {p4} {p5} {p6} (hM : Incl 0x49000010080000c M) (h : Within M s x) (kp6 : ∀ b1 b2, Within M s b2 → Within M s (p6 b1 b2).1) : Within M s (State.lbRun x p2 p3 p4 p5 p6) := by
  unfold State.lbRun
  split
  · exact h
  · split
    · refine Within.ite ?_ (fun _ => ?_)
      · exact h
      · refine Within.ite ?_ (fun _ => ?_)
        · split
          · rename_i z1 z2 z3 z4 z5 z6
            have h7 : Within M s z2 := Within.of_fst z6 (kp6 _ _ h)
            exact State.lbSettle_in (hM.of rfl) h7
          · rename_i z8 z9 z10
            have h11 : Within M s z9 := Within.of_fst z10 (kp6 _ _ h)
            exact State.lbSettle_in (hM.of rfl) h11
          · rename_i z12 z13 z14
            have h15 : Within M s z13 := Within.of_fst z14 (kp6 _ _ h)
            exact h
        · exact State.lbSettle_in (hM.of rfl) (State.lbBad_in (hM.of rfl) h)
    · exact h

theorem State.leaveOpen_in {p2} (hM : Incl 0x2000 M) (h : Within M s x) : Within M s (State.leaveOpen x p2) := by
  unfold State.leaveOpen
  exact Within.set_nvs h (hM.of rfl)

theorem State.nextJournal_in (hM : Incl 0x2000 M) (h : Within M s x) : Within M s (State.nextJournal x) := by
  unfold State.nextJournal
  exact Within.set_nvs h (hM.of rfl)

theorem execLbNop_in {p1} {p2} {p3} {p4} (hM : Incl 0x49000010080000c M) : WithinRes M s (execLbNop p1 p2 p3 p4 s) := by
  have h : Within M s s := Within.refl s
  unfold execLbNop
  refine WithinRes.next ?_
  refine Within.ite ?_ (fun _ => ?_)
  · exact h
  · refine State.lbRun_in (hM.of rfl) h (fun y1 y2 h3 => ?_)
    exact Within.mk1 h3

theorem State.capOffer_in {p2} {p3} {p4} (hM : Incl 0x45001010080001c M) (h : Within M s x) : Within M s (State.capOffer x p2 p3 p4) := by
  unfold State.capOffer
  exact State.offer_in (hM.of rfl) h

theorem State.capRelease_in {p2} {p3} (hM : Incl 0x45081010082001c M) (h : Within M s x) : Within M s (State.capRelease x p2 p3) := by
  unfold State.capRelease
  split
  · exact h
  · extract_lets -merge +onlyGivenNames v1
    have h2 : Within M s v1 := State.capOffer_in (hM.of rfl) h
    clear_value v1
    extract_lets -merge +onlyGivenNames v3 v4
    clear_value v3 v4
    exact State.showSegs_in (hM.of rfl) (State.setCapUnit_in (hM.of rfl) h2)

theorem State.cmpShow_in (hM : Incl 0x1000000000000 M) (h : Within M s x) : Within M s (State.cmpShow x) := by
  unfold State.cmpShow
  exact State.wr_in (hM.of rfl) (State.setFlag_in (hM.of rfl) (hM.of rfl) h)

theorem State.capComplete_in {p2} {p3} {p4} {p5} (hM : Incl 0x45181010186001c M) (h : Within M s x) : Within M s (State.capComplete x p2 p3 p4 p5) := by
  unfold State.capComplete
  extract_lets -merge +onlyGivenNames v1
  have h2 : Within M s v1 := State.inc_in (hM.of rfl) (hM.of rfl) (State.inc_in (hM.of rfl) (hM.of rfl) (State.inc_in (hM.of rfl) (hM.of rfl) h))
  clear_value v1
  extract_lets -merge +onlyGivenNames v3 v4 v5 v6 v7
  clear_value v3 v4 v5 v6 v7
  extract_lets -merge +onlyGivenNames v8
  have h9 : Within M s v8 := State.notice_in (hM.of rfl) (State.setCapUnit_in (hM.of rfl) h2)
  clear_value v8
  extract_lets -merge +onlyGivenNames v10
  have h11 : Within M s v10 := by
    unfold v10
    refine Within.ite ?_ (fun _ => ?_)
    · exact State.setCapState_in (hM.of rfl) h9
    · exact State.notice_in (hM.of rfl) (State.setCapState_in (hM.of rfl) h9)
  clear_value v10
  extract_lets -merge +onlyGivenNames v12
  clear_value v12
  extract_lets -merge +onlyGivenNames v13
  have h14 : Within M s v13 := by
    unfold v13
    refine Within.ite ?_ (fun _ => ?_)
    · exact State.capRelease_in (hM.of rfl) h11
    · exact State.cmpShow_in (hM.of rfl) (Within.set_cmp h11 (hM.of rfl))
  clear_value v13
  extract_lets -merge +onlyGivenNames v15
  clear_value v15
  extract_lets -merge +onlyGivenNames v16
  have h17 : Within M s v16 := by
    unfold v16
    refine Within.ite ?_ (fun _ => ?_)
    · exact h14
    · exact State.notice_in (hM.of rfl) (State.inc_in (hM.of rfl) (hM.of rfl) (State.setCapUnit_in (hM.of rfl) h14))
  clear_value v16
  refine Within.ite ?_ (fun _ => ?_)
  · exact State.showSegs_in (hM.of rfl) h17
  · exact State.capFill_in (hM.of rfl) h17

theorem State.xfirePull_in {p2} (hM : Incl 0x800000020000 M) (h : Within M s x) : Within M s (State.xfirePull x p2) := by
  unfold State.xfirePull
  refine Within.ite ?_ (fun _ => ?_)
  · exact h
  · exact State.setFlag_in (hM.of rfl) (hM.of rfl) (Within.set_cap h (hM.of rfl))

theorem State.capRetrig_in {p2} (hM : Incl 0x800000000000 M) (h : Within M s x) : Within M s (State.capRetrig x p2) := by
  unfold State.capRetrig
  exact State.inc_in (hM.of rfl) (hM.of rfl) h

theorem State.capPostSample_in {p2} {p3} {p4} {p5} {p6} {p7} {p8} (hM : Incl 0x45181010186001c M) (h : Within M s x) : Within M s (State.capPostSample x p2 p3 p4 p5 p6 p7 p8) := by
  unfold State.capPostSample
  extract_lets -merge +onlyGivenNames v1
  have h2 : Within M s v1 := by
    unfold v1
    refine Within.forEach ?_ (fun y3 y4 h5 => ?_)
    · exact h
    · exact State.capRetrig_in (hM.of rfl) h5
  clear_value v1
  extract_lets -merge +onlyGivenNames v6 v7
  clear_value v6 v7
  refine Within.ite ?_ (fun _ => ?_)
  · exact State.setCapUnit_in (hM.of rfl) h2
  · exact State.capComplete_in (hM.of rfl) h2

theorem State.capFire_in {p2} {p3} {p4} {p5} {p6} {p7} {p8} {p9} {p10} (hM : Incl 0x45181010186001c M) (h : Within M s x) : Within M s (State.capFire x p2 p3 p4 p5 p6 p7 p8 p9 p10) := by
  unfold State.capFire
  extract_lets -merge +onlyGivenNames v1
  clear_value v1
  extract_lets -merge +onlyGivenNames v2
  have h3 : Within M s v2 := by
    unfold v2
    refine Within.forEach ?_ (fun y4 y5 h6 => ?_)
    · exact h
    · exact State.capRetrig_in (hM.of rfl) h6
  clear_value v2
  extract_lets -merge +onlyGivenNames v7 v8
  clear_value v7 v8
  extract_lets -merge +onlyGivenNames v9
  have h10 : Within M s v9 := by
    unfold v9
    refine Within.ite ?_ (fun _ => ?_)
    · exact State.xfirePull_in (hM.of rfl) h3
    · exact h3
  clear_value v9
  refine Within.ite ?_ (fun _ => ?_)
  · exact State.setCapState_in (hM.of rfl) (State.setCapUnit_in (hM.of rfl) h10)
  · exact State.capComplete_in (hM.of rfl) (State.setCapState_in (hM.of rfl) h10)

theorem State.capFigures_in {p2} {p3} {p4} (hM : Incl 0x1000000 M) (h : Within M s x) : Within M s (State.capFigures x p2 p3 p4).1 := by
  unfold State.capFigures
  split
  rename_i z1 z2 z3 z4
  have h5 : Within M s z3 := Within.of_snd z4 (State.draw_in (hM.of rfl) h)
  split
  rename_i z6 z7 z8 z9
  have h10 : Within M s z8 := Within.of_snd z9 (State.draw_in (hM.of rfl) h5)
  split
  · exact Within.mk1 h10
  · exact Within.mk1 h10

theorem State.capStopSample_in {p2} {p3} {p4} {p5} (hM : Incl 0x800000020000 M) (h : Within M s x) : Within M s (State.capStopSample x p2 p3 p4 p5) := by
  unfold State.capStopSample
  extract_lets -merge +onlyGivenNames v1
  clear_value v1
  refine Within.ite ?_ (fun _ => ?_)
  · exact State.setCapUnit_in (hM.of rfl) h
  · exact State.inc_in (hM.of rfl) (hM.of rfl) (State.setCapUnit_in (hM.of rfl) h)

theorem State.capEdgeSample_in {p2} {p3} {p4} {p5} {p6} {p7} {p8} (hM : Incl 0x45181010186001c M) (h : Within M s x) : Within M s (State.capEdgeSample x p2 p3 p4 p5 p6 p7 p8) := by
  unfold State.capEdgeSample
  refine Within.ite ?_ (fun _ => ?_)
  · extract_lets -merge +onlyGivenNames v1
    extract_lets -merge +onlyGivenNames v2
    have h3 : Within M s v2 := by
      unfold v2
      refine Within.ite ?_ (fun _ => ?_)
      · exact State.capRetrig_in (hM.of rfl) h
      · exact h
    clear_value v2
    exact State.setCapUnit_in (hM.of rfl) h3
  · split
    rename_i z4 z5 z6 z7 z8
    have h9 : Within M s z5 := Within.of_fst z8 (State.capFigures_in (hM.of rfl) h)
    exact State.capFire_in (hM.of rfl) h9

theorem State.capWatchSample_in {p2} {p3} {p4} {p5} {p6} {p7} (hM : Incl 0x45181010186001c M) (h : Within M s x) : Within M s (State.capWatchSample x p2 p3 p4 p5 p6 p7) := by
  unfold State.capWatchSample
  extract_lets -merge +onlyGivenNames v1 v2 v3
  clear_value v1 v2 v3
  extract_lets -merge +onlyGivenNames v4
  have h5 : Within M s v4 := by
    unfold v4
    refine Within.ite ?_ (fun _ => ?_)
    · exact h
    · exact State.readArm_in (hM.of rfl) h
  clear_value v4
  extract_lets -merge +onlyGivenNames v6 v7
  clear_value v6 v7
  extract_lets -merge +onlyGivenNames v8
  have h9 : Within M s v8 := by
    unfold v8
    refine Within.ite ?_ (fun _ => ?_)
    · exact h5
    · exact State.notice_in (hM.of rfl) (State.inc_in (hM.of rfl) (hM.of rfl) h5)
  clear_value v8
  extract_lets -merge +onlyGivenNames v10 v11
  clear_value v10 v11
  refine Within.ite ?_ (fun _ => ?_)
  · extract_lets -merge +onlyGivenNames v12
    have h13 : Within M s v12 := by
      unfold v12
      refine Within.ite ?_ (fun _ => ?_)
      · exact h9
      · exact State.capRetrig_in (hM.of rfl) h9
    clear_value v12
    extract_lets -merge +onlyGivenNames v14
    clear_value v14
    extract_lets -merge +onlyGivenNames v15
    have h16 : Within M s v15 := State.setCapUnit_in (hM.of rfl) h13
    clear_value v15
    refine Within.ite ?_ (fun _ => ?_)
    · exact h16
    · exact State.setCapState_in (hM.of rfl) h16
  · extract_lets -merge +onlyGivenNames v17
    clear_value v17
    split
    rename_i z18 z19 z20 z21 z22
    have h23 : Within M s z19 := Within.of_fst z22 (State.capFigures_in (hM.of rfl) h9)
    exact State.capFire_in (hM.of rfl) h23

theorem State.capSample_in {p2} {p3} {p4} {p5} (hM : Incl 0x45181010186001c M) (h : Within M s x) : Within M s (State.capSample x p2 p3 p4 p5) := by
  unfold State.capSample
  extract_lets -merge +onlyGivenNames v1
  clear_value v1
  refine Within.ite ?_ (fun _ => ?_)
  · extract_lets -merge +onlyGivenNames v2
    clear_value v2
    split
    refine Within.ite ?_ (fun _ => ?_)
    · split
      · exact State.capPostSample_in (hM.of rfl) h
      · exact State.capEdgeSample_in (hM.of rfl) h
      · exact State.capWatchSample_in (hM.of rfl) h
    · exact State.capStopSample_in (hM.of rfl) h
  · exact h

theorem State.capMailbag_in {p2} {p3} {p4} {p5} (hM : Incl 0x45181010186001c M) (h : Within M s x) : Within M s (State.capMailbag x p2 p3 p4 p5) := by
  unfold State.capMailbag
  refine Within.forEach ?_ (fun y1 y2 h3 => ?_)
  · exact h
  · exact State.capSample_in (hM.of rfl) h3

theorem State.capPoint_in {p2} {p3} {p4} (hM : Incl 0x45181010186001c M) (h : Within M s x) : Within M s (State.capPoint x p2 p3 p4) := by
  unfold State.capPoint
  refine Within.forEach ?_ (fun y1 y2 h3 => ?_)
  · exact h
  · exact State.capSample_in (hM.of rfl) h3

theorem State.capAckWrite_in {p2} {p3} (hM : Incl 0x800000020000 M) (h : Within M s x) : Within M s (State.capAckWrite x p2 p3) := by
  unfold State.capAckWrite
  refine Within.ite ?_ (fun _ => ?_)
  · exact h
  · extract_lets -merge +onlyGivenNames v1
    clear_value v1
    exact State.showSegs_in (hM.of rfl) (State.setCapUnit_in (hM.of rfl) h)

theorem State.capArmWrite_in {p2} (hM : Incl 0x800001020000 M) (h : Within M s x) : Within M s (State.capArmWrite x p2) := by
  unfold State.capArmWrite
  refine Within.ite ?_ (fun _ => ?_)
  · exact h
  · extract_lets -merge +onlyGivenNames v1
    clear_value v1
    exact State.capFill_in (hM.of rfl) (State.setCapUnit_in (hM.of rfl) h)

theorem State.capForceWrite_in {p2} (hM : Incl 0x800000020000 M) (h : Within M s x) : Within M s (State.capForceWrite x p2) := by
  unfold State.capForceWrite
  extract_lets -merge +onlyGivenNames v1
  clear_value v1
  refine Within.ite ?_ (fun _ => ?_)
  · refine Within.ite ?_ (fun _ => ?_)
    · exact h
    · extract_lets -merge +onlyGivenNames v2
      clear_value v2
      exact State.capRetrig_in (hM.of rfl) (State.setCapUnit_in (hM.of rfl) h)
  · exact State.setCapUnit_in (hM.of rfl) h

theorem execCapAck_in {p1} {p2} (hM : Incl 0x410800100824004 M) : WithinRes M s (execCapAck p1 p2 s) := by
  have h : Within M s s := Within.refl s
  unfold execCapAck
  refine WithinRes.next ?_
  refine State.hostGate_in (hM.of rfl) h (fun y1 h2 => ?_)
  exact State.capAckWrite_in (hM.of rfl) h2

theorem execCapArm_in {p1} (hM : Incl 0x410800101824004 M) : WithinRes M s (execCapArm p1 s) := by
  have h : Within M s s := Within.refl s
  unfold execCapArm
  refine WithinRes.next ?_
  refine State.hostGate_in (hM.of rfl) h (fun y1 h2 => ?_)
  exact State.capArmWrite_in (hM.of rfl) h2

theorem execCapForce_in {p1} (hM : Incl 0x410800100824004 M) : WithinRes M s (execCapForce p1 s) := by
  have h : Within M s s := Within.refl s
  unfold execCapForce
  refine WithinRes.next ?_
  refine State.hostGate_in (hM.of rfl) h (fun y1 h2 => ?_)
  exact State.capForceWrite_in (hM.of rfl) h2

theorem State.capEdge_in {p2} {p3} (hM : Incl 0x800001020000 M) (h : Within M s x) : Within M s (State.capEdge x p2 p3) := by
  unfold State.capEdge
  extract_lets -merge +onlyGivenNames v1 v2
  clear_value v1 v2
  refine Within.ite ?_ (fun _ => ?_)
  · refine Within.ite ?_ (fun _ => ?_)
    · exact State.setCapState_in (hM.of rfl) (State.setCapUnit_in (hM.of rfl) h)
    · exact State.capRetrig_in (hM.of rfl) h
  · exact h

theorem execXtrgFireEdge_in {p1} (hM : Incl 0x410800101820006 M) : WithinRes M s (execXtrgFireEdge p1 s) := by
  have h : Within M s s := Within.refl s
  unfold execXtrgFireEdge
  extract_lets -merge +onlyGivenNames v1
  have h2 : Within M s v1 := State.advance_in (hM.of rfl) h
  clear_value v1
  refine WithinRes.next ?_
  refine Within.ite ?_ (fun _ => ?_)
  · extract_lets -merge +onlyGivenNames v3
    clear_value v3
    extract_lets -merge +onlyGivenNames v4
    have h5 : Within M s v4 := State.setFlag_in (hM.of rfl) (hM.of rfl) (Within.set_cap h2 (hM.of rfl))
    clear_value v4
    refine Within.ite ?_ (fun _ => ?_)
    · exact h5
    · refine Within.forEach ?_ (fun y6 y7 h8 => ?_)
      · exact State.notice_in (hM.of rfl) h5
      · exact State.capEdge_in (hM.of rfl) h8
  · exact h2

theorem execXtrgFireRelease_in {p1} (hM : Incl 0x800000020002 M) : WithinRes M s (execXtrgFireRelease p1 s) := by
  have h : Within M s s := Within.refl s
  unfold execXtrgFireRelease
  extract_lets -merge +onlyGivenNames v1
  have h2 : Within M s v1 := State.advance_in (hM.of rfl) h
  clear_value v1
  extract_lets -merge +onlyGivenNames v3
  clear_value v3
  refine WithinRes.next ?_
  refine Within.ite ?_ (fun _ => ?_)
  · exact h2
  · exact State.setFlag_in (hM.of rfl) (hM.of rfl) (Within.set_cap h2 (hM.of rfl))

theorem State.capSync_in {p2} (hM : Incl 0x800001020000 M) (h : Within M s x) : Within M s (State.capSync x p2) := by
  unfold State.capSync
  extract_lets -merge +onlyGivenNames v1 v2
  clear_value v1 v2
  refine Within.ite ?_ (fun _ => ?_)
  · extract_lets -merge +onlyGivenNames v3
    clear_value v3
    refine Within.ite ?_ (fun _ => ?_)
    · exact State.capFill_in (hM.of rfl) (State.setCapUnit_in (hM.of rfl) h)
    · exact State.capFill_in (hM.of rfl) (State.setCapUnit_in (hM.of rfl) h)
  · exact State.setCapUnit_in (hM.of rfl) h

theorem execXtrgSyncEdge_in {p1} (hM : Incl 0x410800101820006 M) : WithinRes M s (execXtrgSyncEdge p1 s) := by
  have h : Within M s s := Within.refl s
  unfold execXtrgSyncEdge
  extract_lets -merge +onlyGivenNames v1
  have h2 : Within M s v1 := State.advance_in (hM.of rfl) h
  clear_value v1
  refine WithinRes.next ?_
  refine Within.ite ?_ (fun _ => ?_)
  · extract_lets -merge +onlyGivenNames v3
    clear_value v3
    extract_lets -merge +onlyGivenNames v4
    have h5 : Within M s v4 := State.setFlag_in (hM.of rfl) (hM.of rfl) (Within.set_cap h2 (hM.of rfl))
    clear_value v4
    refine Within.ite ?_ (fun _ => ?_)
    · exact h5
    · refine Within.forEach ?_ (fun y6 y7 h8 => ?_)
      · exact State.notice_in (hM.of rfl) h5
      · exact State.capSync_in (hM.of rfl) h8
  · exact h2

theorem State.xtrgWrite_in {p2} (hM : Incl 0x410800100820004 M) (h : Within M s x) : Within M s (State.xtrgWrite x p2) := by
  unfold State.xtrgWrite
  extract_lets -merge +onlyGivenNames v1
  have h2 : Within M s v1 := State.setFlag_in (hM.of rfl) (hM.of rfl) (State.store_in (hM.of rfl) (hM.of rfl) h)
  clear_value v1
  refine Within.ite ?_ (fun _ => ?_)
  · exact h2
  · exact State.setFlag_in (hM.of rfl) (hM.of rfl) (Within.set_cap h2 (hM.of rfl))

theorem execSyncGo_in {p1} (hM : Incl 0x410800100824004 M) : WithinRes M s (execSyncGo p1 s) := by
  have h : Within M s s := Within.refl s
  unfold execSyncGo
  refine WithinRes.next ?_
  refine State.hostGate_in (hM.of rfl) h (fun y1 h2 => ?_)
  exact State.xtrgWrite_in (hM.of rfl) h2

theorem execXtrgSyncRelease_in {p1} (hM : Incl 0x800000020002 M) : WithinRes M s (execXtrgSyncRelease p1 s) := by
  have h : Within M s s := Within.refl s
  unfold execXtrgSyncRelease
  extract_lets -merge +onlyGivenNames v1
  have h2 : Within M s v1 := State.advance_in (hM.of rfl) h
  clear_value v1
  extract_lets -merge +onlyGivenNames v3
  clear_value v3
  refine WithinRes.next ?_
  refine Within.ite ?_ (fun _ => ?_)
  · exact State.setFlag_in (hM.of rfl) (hM.of rfl) (Within.set_cap h2 (hM.of rfl))
  · exact h2

theorem execResend_in {p1} {p2} {p3} (hM : Incl 0x4d001010080001c M) : WithinRes M s (execResend p1 p2 p3 s) := by
  have h : Within M s s := Within.refl s
  unfold execResend
  refine WithinRes.next ?_
  refine State.lbRun_in (hM.of rfl) h (fun y1 y2 h3 => ?_)
  refine Within.ite1 ?_ (fun _ => ?_)
  · split
    · exact Within.mk1 (State.capOffer_in (hM.of rfl) h3)
    · exact Within.mk1 h3
  · exact Within.mk1 (State.lbBad_in (hM.of rfl) h3)

theorem State.cmpCmd_in {p2} {p3} {p4} {p5} {p6} (hM : Incl 0x1000000040000 M) (h : Within M s x) : Within M s (State.cmpCmd x p2 p3 p4 p5 p6).1 := by
  unfold State.cmpCmd
  refine Within.ite1 ?_ (fun _ => ?_)
  · refine Within.ite1 ?_ (fun _ => ?_)
    · refine Within.ite1 ?_ (fun _ => ?_)
      · exact Within.mk1 (State.cmpShow_in (hM.of rfl) (Within.set_cmp h (hM.of rfl)))
      · exact Within.mk1 h
    · exact Within.mk1 h
  · exact Within.mk1 h

theorem execCompress_in {p1} {p2} {p3} (hM : Incl 0x49100010084000c M) : WithinRes M s (execCompress p1 p2 p3 s) := by
  have h : Within M s s := Within.refl s
  unfold execCompress
  refine WithinRes.next ?_
  refine State.lbRun_in (hM.of rfl) h (fun y1 y2 h3 => ?_)
  extract_lets -merge +onlyGivenNames v4
  clear_value v4
  refine Within.ite1 ?_ (fun _ => ?_)
  · exact State.cmpCmd_in (hM.of rfl) h3
  · exact Within.mk1 (State.lbBad_in (hM.of rfl) h3)

theorem execDecode_in {p1} {p2} {p3} (hM : Incl 0x49100010084000c M) : WithinRes M s (execDecode p1 p2 p3 s) := by
  have h : Within M s s := Within.refl s
  unfold execDecode
  refine WithinRes.next ?_
  refine State.lbRun_in (hM.of rfl) h (fun y1 y2 h3 => ?_)
  exact State.cmpCmd_in (hM.of rfl) h3

theorem State.cmpCount_in {p2} {p3} (hM : Incl 0x411000100800004 M) (h : Within M s x) : Within M s (State.cmpCount x p2 p3) := by
  unfold State.cmpCount
  refine Within.ite ?_ (fun _ => ?_)
  · refine Within.ite ?_ (fun _ => ?_)
    · refine Within.ite ?_ (fun _ => ?_)
      · refine Within.ite ?_ (fun _ => ?_)
        · exact h
        · exact State.notice_in (hM.of rfl) (State.inc_in (hM.of rfl) (hM.of rfl) h)
      · exact State.notice_in (hM.of rfl) (State.inc_in (hM.of rfl) (hM.of rfl) h)
    · exact State.notice_in (hM.of rfl) (State.inc_in (hM.of rfl) (hM.of rfl) h)
  · exact State.notice_in (hM.of rfl) (State.inc_in (hM.of rfl) (hM.of rfl) h)

theorem State.cmpPut_in {p2} {p3} {p4} {p5} {p6} {p7} (hM : Incl 0xacd101010080001c M) (h : Within M s x) : Within M s (State.cmpPut x p2 p3 p4 p5 p6 p7) := by
  unfold State.cmpPut
  extract_lets -merge +onlyGivenNames v1 v2 v3
  clear_value v1 v2 v3
  refine Within.ite ?_ (fun _ => ?_)
  · refine Within.ite ?_ (fun _ => ?_)
    · refine Within.ite ?_ (fun _ => ?_)
      · exact State.lbDone_in (hM.of rfl) (State.emit_in (hM.of rfl) (State.cmpCount_in (hM.of rfl) h))
      · exact State.lbDone_in (hM.of rfl) h
    · exact State.lbDone_in (hM.of rfl) (State.cmpCount_in (hM.of rfl) h)
  · exact State.lbDone_in (hM.of rfl) (State.offer_in (hM.of rfl) (State.cmpCount_in (hM.of rfl) h))

theorem State.cmpMade_in {p2} {p3} (hM : Incl 0x1000000000000 M) (h : Within M s x) : Within M s (State.cmpMade x p2 p3) := by
  unfold State.cmpMade
  exact State.inc_in (hM.of rfl) (hM.of rfl) (State.bump64_in (hM.of rfl) (hM.of rfl) (State.bump64_in (hM.of rfl) (hM.of rfl) h))

theorem State.cmpCmdDone_in {p2} {p3} {p4} {p5} {p6} {p7} (hM : Incl 0xacd101010080001c M) (h : Within M s x) : Within M s (State.cmpCmdDone x p2 p3 p4 p5 p6 p7) := by
  unfold State.cmpCmdDone
  extract_lets -merge +onlyGivenNames v1
  clear_value v1
  refine Within.ite ?_ (fun _ => ?_)
  · refine Within.ite ?_ (fun _ => ?_)
    · extract_lets -merge +onlyGivenNames v2
      clear_value v2
      split
      extract_lets -merge +onlyGivenNames v3
      extract_lets -merge +onlyGivenNames v4
      have h5 : Within M s v4 := by
        unfold v4
        refine Within.ite ?_ (fun _ => ?_)
        · exact h
        · exact State.cmpMade_in (hM.of rfl) h
      clear_value v4
      exact State.cmpPut_in (hM.of rfl) h5
    · split
      refine Within.ite ?_ (fun _ => ?_)
      · exact State.cmpPut_in (hM.of rfl) h
      · exact State.lbDone_in (hM.of rfl) (State.cmpCount_in (hM.of rfl) h)
  · exact State.lbDone_in (hM.of rfl) h

theorem State.cmpCapDone_in {p2} {p3} (hM : Incl 0x45181010082001c M) (h : Within M s x) : Within M s (State.cmpCapDone x p2 p3) := by
  unfold State.cmpCapDone
  extract_lets -merge +onlyGivenNames v1
  clear_value v1
  split
  · exact h
  · split
    extract_lets -merge +onlyGivenNames v2
    clear_value v2
    extract_lets -merge +onlyGivenNames v3
    have h4 : Within M s v3 := State.setCapUnit_in (hM.of rfl) h
    clear_value v3
    extract_lets -merge +onlyGivenNames v5
    have h6 : Within M s v5 := State.cmpMade_in (hM.of rfl) h4
    clear_value v5
    refine State.capRelease_in (hM.of rfl) ?_
    refine Within.ite ?_ (fun _ => ?_)
    · exact h6
    · exact State.cmpCount_in (hM.of rfl) h6

theorem execCompressDone_in {p1} {p2} (hM : Incl 0xacd181010086001e M) : WithinRes M s (execCompressDone p1 p2 s) := by
  have h : Within M s s := Within.refl s
  unfold execCompressDone
  extract_lets -merge +onlyGivenNames v1
  have h2 : Within M s v1 := State.advance_in (hM.of rfl) h
  clear_value v1
  refine WithinRes.next ?_
  split
  · exact h2
  · extract_lets -merge +onlyGivenNames v3
    clear_value v3
    extract_lets -merge +onlyGivenNames v4
    have h5 : Within M s v4 := State.cmpShow_in (hM.of rfl) (Within.set_cmp h2 (hM.of rfl))
    clear_value v4
    split
    · exact State.cmpCapDone_in (hM.of rfl) h5
    · exact State.cmpCmdDone_in (hM.of rfl) h5

end Sys2Proof.Machine
end

