-- ==== Sys2Proof/Laws/WithinUnits.lean ====
section
/-! SUPPORT. What each operation and each meaning may change: acquisition, the backup clock, definitions, dispatching and local streams. -/
namespace Sys2Proof.Machine

variable {M : Nat} {s x : State}

theorem State.mapPhs_in {p2} {p3} (hM : Incl 0x8000 M) (h : Within M s x) : Within M s (State.mapPhs x p2 p3) := by
  unfold State.mapPhs
  extract_lets -merge +onlyGivenNames v1
  clear_value v1
  exact State.setAcqPt_in (hM.of rfl) h

theorem State.upSplice_in {p2} {p3} {p4} (hM : Incl 0x410200100808004 M) (h : Within M s x) : Within M s (State.upSplice x p2 p3 p4) := by
  unfold State.upSplice
  extract_lets -merge +onlyGivenNames v1
  clear_value v1
  refine Within.ite ?_ (fun _ => ?_)
  · exact State.notice_in (hM.of rfl) (State.inc_in (hM.of rfl) (hM.of rfl) (State.mapPhs_in (hM.of rfl) h))
  · exact h

theorem State.downSplice_in {p2} {p3} {p4} (hM : Incl 0x410200100808004 M) (h : Within M s x) : Within M s (State.downSplice x p2 p3 p4) := by
  unfold State.downSplice
  extract_lets -merge +onlyGivenNames v1
  clear_value v1
  refine Within.forEach ?_ (fun y2 y3 h4 => ?_)
  · exact h
  · extract_lets -merge +onlyGivenNames v5
    clear_value v5
    split
    · exact h4
    · extract_lets -merge +onlyGivenNames v6
      clear_value v6
      refine Within.ite ?_ (fun _ => ?_)
      · exact h4
      · exact State.notice_in (hM.of rfl) (State.inc_in (hM.of rfl) (hM.of rfl) (State.mapPhs_in (hM.of rfl) h4))

theorem State.selectPaths_in {p2} {p3} {p4} (hM : Incl 0x410200100808004 M) (h : Within M s x) : Within M s (State.selectPaths x p2 p3 p4) := by
  unfold State.selectPaths
  extract_lets -merge +onlyGivenNames v1
  have h2 : Within M s v1 := by
    unfold v1
    refine Within.forEach ?_ (fun y3 y4 h5 => ?_)
    · exact h
    · refine Within.ite ?_ (fun _ => ?_)
      · exact h5
      · exact State.upSplice_in (hM.of rfl) h5
  clear_value v1
  extract_lets -merge +onlyGivenNames v6
  have h7 : Within M s v6 := State.mapPhs_in (hM.of rfl) h2
  clear_value v6
  extract_lets -merge +onlyGivenNames v8
  have h9 : Within M s v8 := State.downSplice_in (hM.of rfl) h7
  clear_value v8
  extract_lets -merge +onlyGivenNames v10
  clear_value v10
  exact State.mapPhs_in (hM.of rfl) h9

theorem State.acqSample_in {p2} {p3} {p4} (hM : Incl 0x451a1010187801c M) (h : Within M s x) : Within M s (State.acqSample x p2 p3 p4) := by
  unfold State.acqSample
  extract_lets -merge +onlyGivenNames v1 v2 v3 v4 v5 v6
  clear_value v1 v2 v3 v4 v5 v6
  extract_lets -merge +onlyGivenNames v7
  have h8 : Within M s v7 := State.calDone_in (hM.of rfl) (State.setAcqPt_in (hM.of rfl) h)
  clear_value v7
  extract_lets -merge +onlyGivenNames v9
  have h10 : Within M s v9 := State.wr_in (hM.of rfl) h8
  clear_value v9
  extract_lets -merge +onlyGivenNames v11
  have h12 : Within M s v11 := State.selectPaths_in (hM.of rfl) h10
  clear_value v11
  extract_lets -merge +onlyGivenNames v13 v14 v15 v16 v17 v18 v19 v20 v21 v22 v23 v24 v25
  clear_value v13 v14 v15 v16 v17 v18 v19 v20 v21 v22 v23 v24 v25
  extract_lets -merge +onlyGivenNames v26
  have h27 : Within M s v26 := State.showFading_in (hM.of rfl) (State.wr_in (hM.of rfl) (State.setAcqPt_in (hM.of rfl) h12))
  clear_value v26
  extract_lets -merge +onlyGivenNames v28
  clear_value v28
  extract_lets -merge +onlyGivenNames v29
  have h30 : Within M s v29 := by
    unfold v29
    refine Within.ite ?_ (fun _ => ?_)
    · exact State.noticeFirst_in (hM.of rfl) (State.bump_in (hM.of rfl) (hM.of rfl) h27)
    · exact h27
  clear_value v29
  exact State.capPoint_in (hM.of rfl) (State.halfPush_in (hM.of rfl) h30)

theorem State.acqFill_in {p2} {p3} (hM : Incl 0x8000 M) (h : Within M s x) : Within M s (State.acqFill x p2 p3) := by
  unfold State.acqFill
  extract_lets -merge +onlyGivenNames v1
  clear_value v1
  exact State.setAcqPt_in (hM.of rfl) h

theorem State.acqTake_in {p2} {p3} (hM : Incl 0x451a1010187801c M) (h : Within M s x) : Within M s (State.acqTake x p2 p3) := by
  unfold State.acqTake
  extract_lets -merge +onlyGivenNames v1
  clear_value v1
  split
  · exact h
  · extract_lets -merge +onlyGivenNames v2
    have h3 : Within M s v2 := State.setAcqPt_in (hM.of rfl) h
    clear_value v2
    refine Within.ite ?_ (fun _ => ?_)
    · exact State.acqFill_in (hM.of rfl) h3
    · exact State.acqSample_in (hM.of rfl) h3

theorem execOutputSample_in {p1} {p2} {p3} (hM : Incl 0x451a1010187801e M) : WithinRes M s (execOutputSample p1 p2 p3 s) := by
  have h : Within M s s := Within.refl s
  unfold execOutputSample
  extract_lets -merge +onlyGivenNames v1
  have h2 : Within M s v1 := State.advance_in (hM.of rfl) h
  clear_value v1
  extract_lets -merge +onlyGivenNames v3
  clear_value v3
  refine WithinRes.next ?_
  refine Within.ite ?_ (fun _ => ?_)
  · exact h2
  · exact State.acqTake_in (hM.of rfl) h2

theorem State.lookJudge_in {p2} {p3} {p4} {p5} (hM : Incl 0x410200100808004 M) (h : Within M s x) : Within M s (State.lookJudge x p2 p3 p4 p5) := by
  unfold State.lookJudge
  extract_lets -merge +onlyGivenNames v1
  have h2 : Within M s v1 := by
    unfold v1
    refine Within.ite ?_ (fun _ => ?_)
    · exact h
    · exact State.mapPhs_in (hM.of rfl) h
  clear_value v1
  refine Within.ite ?_ (fun _ => ?_)
  · exact h2
  · exact State.upSplice_in (hM.of rfl) h2

theorem execLookAheadSample_in {p1} {p2} {p3} {p4} (hM : Incl 0x410200100808006 M) : WithinRes M s (execLookAheadSample p1 p2 p3 p4 s) := by
  have h : Within M s s := Within.refl s
  unfold execLookAheadSample
  extract_lets -merge +onlyGivenNames v1
  have h2 : Within M s v1 := State.advance_in (hM.of rfl) h
  clear_value v1
  extract_lets -merge +onlyGivenNames v3
  clear_value v3
  refine WithinRes.next ?_
  refine Within.ite ?_ (fun _ => ?_)
  · exact h2
  · extract_lets -merge +onlyGivenNames v4
    clear_value v4
    refine Within.forEach ?_ (fun y5 y6 h7 => ?_)
    · exact State.setAcqPt_in (hM.of rfl) h2
    · exact State.lookJudge_in (hM.of rfl) h7

theorem State.faultOn_in {p2} {p3} (hM : Incl 0x45061010081801c M) (h : Within M s x) : Within M s (State.faultOn x p2 p3) := by
  unfold State.faultOn
  extract_lets -merge +onlyGivenNames v1
  have h2 : Within M s v1 := State.notice_in (hM.of rfl) (State.inc_in (hM.of rfl) (hM.of rfl) (State.wr_in (hM.of rfl) h))
  clear_value v1
  extract_lets -merge +onlyGivenNames v3
  clear_value v3
  extract_lets -merge +onlyGivenNames v4
  have h5 : Within M s v4 := by
    unfold v4
    refine Within.ite ?_ (fun _ => ?_)
    · exact h2
    · exact State.setNrgPt_in (hM.of rfl) h2
  clear_value v4
  extract_lets -merge +onlyGivenNames v6
  have h7 : Within M s v6 := by
    unfold v6
    refine Within.ite ?_ (fun _ => ?_)
    · exact h5
    · exact State.upSplice_in (hM.of rfl) h5
  clear_value v6
  refine Within.ite ?_ (fun _ => ?_)
  · exact h7
  · exact State.pqEndAll_in (hM.of rfl) h7

theorem execInputFault_in {p1} {p2} (hM : Incl 0x45061010081801e M) : WithinRes M s (execInputFault p1 p2 s) := by
  have h : Within M s s := Within.refl s
  unfold execInputFault
  extract_lets -merge +onlyGivenNames v1
  have h2 : Within M s v1 := State.advance_in (hM.of rfl) h
  clear_value v1
  refine WithinRes.next ?_
  refine Within.ite ?_ (fun _ => ?_)
  · exact h2
  · exact State.faultOn_in (hM.of rfl) h2

theorem execInputFaultClear_in {p1} {p2} (hM : Incl 0x200000000002 M) : WithinRes M s (execInputFaultClear p1 p2 s) := by
  have h : Within M s s := Within.refl s
  unfold execInputFaultClear
  extract_lets -merge +onlyGivenNames v1
  have h2 : Within M s v1 := State.advance_in (hM.of rfl) h
  clear_value v1
  extract_lets -merge +onlyGivenNames v3
  clear_value v3
  refine WithinRes.next ?_
  refine Within.ite ?_ (fun _ => ?_)
  · exact h2
  · exact State.wr_in (hM.of rfl) h2

theorem State.lookup_in {p2} (hM : Incl 0x200000008000 M) (h : Within M s x) : Within M s (State.lookup x p2) := by
  unfold State.lookup
  extract_lets -merge +onlyGivenNames v1 v2 v3
  clear_value v1 v2 v3
  exact State.showFading_in (hM.of rfl) (State.tauSeen_in (hM.of rfl) (State.setAcqPt_in (hM.of rfl) h))

theorem execCurveLookup_in {p1} (hM : Incl 0x200000008002 M) : WithinRes M s (execCurveLookup p1 s) := by
  have h : Within M s s := Within.refl s
  unfold execCurveLookup
  extract_lets -merge +onlyGivenNames v1
  have h2 : Within M s v1 := State.advance_in (hM.of rfl) h
  clear_value v1
  refine WithinRes.next ?_
  refine Within.ite ?_ (fun _ => ?_)
  · exact h2
  · extract_lets -merge +onlyGivenNames v3
    clear_value v3
    extract_lets -merge +onlyGivenNames v4
    have h5 : Within M s v4 := Within.set_acq h2 (hM.of rfl)
    clear_value v4
    refine Within.forEach ?_ (fun y6 y7 h8 => ?_)
    · exact h5
    · refine Within.ite ?_ (fun _ => ?_)
      · exact h8
      · exact State.lookup_in (hM.of rfl) h8

theorem State.calWrite_in {p2} (hM : Incl 0x410200100800004 M) (h : Within M s x) : Within M s (State.calWrite x p2) := by
  unfold State.calWrite
  extract_lets -merge +onlyGivenNames v1
  clear_value v1
  extract_lets -merge +onlyGivenNames v2
  have h3 : Within M s v2 := State.setFlag_in (hM.of rfl) (hM.of rfl) (State.store_in (hM.of rfl) (hM.of rfl) h)
  clear_value v2
  refine Within.ite ?_ (fun _ => ?_)
  · refine Within.ite ?_ (fun _ => ?_)
    · exact State.wr_in (hM.of rfl) h3
    · exact State.notice_in (hM.of rfl) (State.wr_in (hM.of rfl) h3)
  · exact h3

theorem execCalCommit_in {p1} (hM : Incl 0x410200100804004 M) : WithinRes M s (execCalCommit p1 s) := by
  have h : Within M s s := Within.refl s
  unfold execCalCommit
  refine WithinRes.next ?_
  refine State.hostGate_in (hM.of rfl) h (fun y1 h2 => ?_)
  exact State.calWrite_in (hM.of rfl) h2

theorem State.copyCurves_in (hM : Incl 0x4000000000000000000 M) (h : Within M s x) : Within M s (State.copyCurves x) := by
  unfold State.copyCurves
  refine Within.forEach ?_ (fun y1 y2 h3 => ?_)
  · exact h
  · exact State.put_in (hM.of rfl) h3

theorem State.commitFade_in {p2} {p3} (hM : Incl 0x200000008000 M) (h : Within M s x) : Within M s (State.commitFade x p2 p3) := by
  unfold State.commitFade
  extract_lets -merge +onlyGivenNames v1 v2 v3
  clear_value v1 v2 v3
  exact State.showFading_in (hM.of rfl) (State.tauSeen_in (hM.of rfl) (State.setAcqPt_in (hM.of rfl) h))

theorem execCalCommitApply_in {p1} (hM : Incl 0x4000410200100808006 M) : WithinRes M s (execCalCommitApply p1 s) := by
  have h : Within M s s := Within.refl s
  unfold execCalCommitApply
  extract_lets -merge +onlyGivenNames v1
  have h2 : Within M s v1 := State.advance_in (hM.of rfl) h
  clear_value v1
  refine WithinRes.next ?_
  refine Within.ite ?_ (fun _ => ?_)
  · exact h2
  · extract_lets -merge +onlyGivenNames v3
    have h4 : Within M s v3 := State.copyCurves_in (hM.of rfl) h2
    clear_value v3
    extract_lets -merge +onlyGivenNames v5
    have h6 : Within M s v5 := by
      unfold v5
      refine Within.forEach ?_ (fun y7 y8 h9 => ?_)
      · exact h4
      · refine Within.ite ?_ (fun _ => ?_)
        · exact h9
        · exact State.commitFade_in (hM.of rfl) h9
    clear_value v5
    exact State.calDone_in (hM.of rfl) (Within.set_acq h6 (hM.of rfl))

theorem State.bkdNotice_in {p2} {p3} {p4} {p5} (hM : Incl 0x410000100a00004 M) (h : Within M s x) : Within M s (State.bkdNotice x p2 p3 p4 p5) := by
  unfold State.bkdNotice
  refine Within.ite ?_ (fun _ => ?_)
  · exact Within.set_bkd h (hM.of rfl)
  · exact State.notice_in (hM.of rfl) h

theorem State.putBkdSec_in {p2} {p3} (hM : Incl 0x1000200000 M) (h : Within M s x) : Within M s (State.putBkdSec x p2 p3) := by
  unfold State.putBkdSec
  extract_lets -merge +onlyGivenNames v1
  have h2 : Within M s v1 := State.wr_in (hM.of rfl) (State.wr_in (hM.of rfl) h)
  clear_value v1
  refine Within.ite ?_ (fun _ => ?_)
  · exact h2
  · exact Within.set_bkd h2 (hM.of rfl)

theorem State.showPon_in (hM : Incl 0x1000000000 M) (h : Within M s x) : Within M s (State.showPon x) := by
  unfold State.showPon
  exact State.setFlag_in (hM.of rfl) (hM.of rfl) h

theorem State.fireAlarm_in {p2} (hM : Incl 0x410001100a00004 M) (h : Within M s x) : Within M s (State.fireAlarm x p2) := by
  unfold State.fireAlarm
  extract_lets -merge +onlyGivenNames v1
  have h2 : Within M s v1 := State.setFlag_in (hM.of rfl) (hM.of rfl) (State.setFlag_in (hM.of rfl) (hM.of rfl) (State.setFlag_in (hM.of rfl) (hM.of rfl) h))
  clear_value v1
  extract_lets -merge +onlyGivenNames v3
  clear_value v3
  extract_lets -merge +onlyGivenNames v4
  have h5 : Within M s v4 := Within.set_bkd h2 (hM.of rfl)
  clear_value v4
  extract_lets -merge +onlyGivenNames v6
  have h7 : Within M s v6 := by
    unfold v6
    refine Within.ite ?_ (fun _ => ?_)
    · exact h5
    · exact State.showPon_in (hM.of rfl) (State.setFlag_in (hM.of rfl) (hM.of rfl) h5)
  clear_value v6
  extract_lets -merge +onlyGivenNames v8
  have h9 : Within M s v8 := State.bkdNotice_in (hM.of rfl) h7
  clear_value v8
  refine Within.ite ?_ (fun _ => ?_)
  · exact h9
  · exact State.bkdNotice_in (hM.of rfl) h9

theorem State.judgeAlarm_in (hM : Incl 0x410001100a00004 M) (h : Within M s x) : Within M s (State.judgeAlarm x) := by
  unfold State.judgeAlarm
  refine Within.ite ?_ (fun _ => ?_)
  · exact h
  · refine Within.ite ?_ (fun _ => ?_)
    · refine Within.ite ?_ (fun _ => ?_)
      · exact h
      · exact State.fireAlarm_in (hM.of rfl) h
    · exact State.fireAlarm_in (hM.of rfl) h

theorem State.adjustBkd_in {p2} (hM : Incl 0x410001100a00004 M) (h : Within M s x) : Within M s (State.adjustBkd x p2) := by
  unfold State.adjustBkd
  exact State.judgeAlarm_in (hM.of rfl) (State.setFlag_in (hM.of rfl) (hM.of rfl) (State.putBkdSec_in (hM.of rfl) h))

theorem State.commitBkd_in (hM : Incl 0x410001100a00004 M) (h : Within M s x) : Within M s (State.commitBkd x) := by
  unfold State.commitBkd
  exact State.bkdNotice_in (hM.of rfl) (State.wr_in (hM.of rfl) (State.adjustBkd_in (hM.of rfl) h))

theorem execBkdSecondTick_in {p1} (hM : Incl 0x410001100a00006 M) : WithinRes M s (execBkdSecondTick p1 s) := by
  have h : Within M s s := Within.refl s
  unfold execBkdSecondTick
  extract_lets -merge +onlyGivenNames v1
  have h2 : Within M s v1 := State.advance_in (hM.of rfl) h
  clear_value v1
  refine WithinRes.next ?_
  refine Within.ite ?_ (fun _ => ?_)
  · exact State.judgeAlarm_in (hM.of rfl) (State.putBkdSec_in (hM.of rfl) h2)
  · exact State.commitBkd_in (hM.of rfl) h2

theorem execBkdCommitApply_in {p1} (hM : Incl 0x410001100a00006 M) : WithinRes M s (execBkdCommitApply p1 s) := by
  have h : Within M s s := Within.refl s
  unfold execBkdCommitApply
  extract_lets -merge +onlyGivenNames v1
  have h2 : Within M s v1 := State.advance_in (hM.of rfl) h
  clear_value v1
  refine WithinRes.next ?_
  refine Within.ite ?_ (fun _ => ?_)
  · exact h2
  · exact State.commitBkd_in (hM.of rfl) h2

theorem State.bkdCommitWrite_in {p2} (hM : Incl 0x410001100a00004 M) (h : Within M s x) : Within M s (State.bkdCommitWrite x p2) := by
  unfold State.bkdCommitWrite
  refine Within.ite ?_ (fun _ => ?_)
  · refine Within.ite ?_ (fun _ => ?_)
    · exact State.wr_in (hM.of rfl) h
    · exact State.bkdNotice_in (hM.of rfl) (State.wr_in (hM.of rfl) (State.logRefused_in (hM.of rfl) h))
  · exact h

theorem execBkdCommit_in {p1} (hM : Incl 0x410001100a04004 M) : WithinRes M s (execBkdCommit p1 s) := by
  have h : Within M s s := Within.refl s
  unfold execBkdCommit
  refine WithinRes.next ?_
  refine State.hostGate_in (hM.of rfl) h (fun y1 h2 => ?_)
  exact State.bkdCommitWrite_in (hM.of rfl) h2

theorem State.bkdFreeze_in {p2} (hM : Incl 0x200000 M) (h : Within M s x) : Within M s (State.bkdFreeze x p2).2 := by
  unfold State.bkdFreeze
  extract_lets -merge +onlyGivenNames v1 v2
  clear_value v1 v2
  extract_lets -merge +onlyGivenNames v3
  have h4 : Within M s v3 := Within.set_bkd h (hM.of rfl)
  clear_value v3
  split
  · refine Within.ite2 ?_ (fun _ => ?_)
    · exact Within.mk2 h
    · exact Within.mk2 h4
  · exact Within.mk2 h4

theorem execBkdSecFreeze_in (hM : Incl 0xa00000 M) : WithinRes M s (execBkdSecFreeze s) := by
  have h : Within M s s := Within.refl s
  unfold execBkdSecFreeze
  refine WithinRes.next ?_
  refine State.hostRead_in (hM.of rfl) h (fun y1 h2 => ?_)
  split
  rename_i z3 z4 z5 z6
  have h7 : Within M s z5 := Within.of_snd z6 (State.bkdFreeze_in (hM.of rfl) h2)
  exact State.answer_in (hM.of rfl) h7

theorem execBkdSecWordRead_in (hM : Incl 0xa00000 M) : WithinRes M s (execBkdSecWordRead s) := by
  have h : Within M s s := Within.refl s
  unfold execBkdSecWordRead
  refine WithinRes.next ?_
  refine State.hostRead_in (hM.of rfl) h (fun y1 h2 => ?_)
  split
  rename_i z3 z4 z5 z6
  have h7 : Within M s z5 := Within.of_snd z6 (State.bkdFreeze_in (hM.of rfl) h2)
  exact State.answer_in (hM.of rfl) h7

theorem execBkdSecRelease_in (hM : Incl 0xa00000 M) : WithinRes M s (execBkdSecRelease s) := by
  have h : Within M s s := Within.refl s
  unfold execBkdSecRelease
  refine WithinRes.next ?_
  refine State.hostRead_in (hM.of rfl) h (fun y1 h2 => ?_)
  split
  rename_i z3 z4 z5 z6
  have h7 : Within M s z5 := Within.of_snd z6 (State.bkdFreeze_in (hM.of rfl) h2)
  exact State.answer_in (hM.of rfl) (Within.set_bkd h7 (hM.of rfl))

theorem execBackupClockWrite_in {p1} (hM : Incl 0x410001100a00106 M) : WithinRes M s (execBackupClockWrite p1 s) := by
  have h : Within M s s := Within.refl s
  unfold execBackupClockWrite
  extract_lets -merge +onlyGivenNames v1
  have h2 : Within M s v1 := State.advance_in (hM.of rfl) h
  clear_value v1
  extract_lets -merge +onlyGivenNames v3
  clear_value v3
  refine WithinRes.next ?_
  refine Within.ite ?_ (fun _ => ?_)
  · exact h2
  · extract_lets -merge +onlyGivenNames v4
    clear_value v4
    extract_lets -merge +onlyGivenNames v5
    have h6 : Within M s v5 := Within.set_tb h2 (hM.of rfl)
    clear_value v5
    extract_lets -merge +onlyGivenNames v7
    clear_value v7
    exact State.adjustBkd_in (hM.of rfl) (State.wr_in (hM.of rfl) h6)

theorem State.almCtl_in {p2} (hM : Incl 0x410001100a00004 M) (h : Within M s x) : Within M s (State.almCtl x p2) := by
  unfold State.almCtl
  extract_lets -merge +onlyGivenNames v1
  subst v1
  extract_lets -merge +onlyGivenNames v2
  have h3 : Within M s v2 := State.store_in (hM.of rfl) (hM.of rfl) h
  clear_value v2
  extract_lets -merge +onlyGivenNames v4
  have h5 : Within M s v4 := by
    unfold v4
    refine Within.ite ?_ (fun _ => ?_)
    · exact h3
    · exact State.setFlag_in (hM.of rfl) (hM.of rfl) h3
  clear_value v4
  refine Within.ite ?_ (fun _ => ?_)
  · exact h5
  · extract_lets -merge +onlyGivenNames v6
    clear_value v6
    extract_lets -merge +onlyGivenNames v7
    have h8 : Within M s v7 := Within.set_bkd h5 (hM.of rfl)
    clear_value v7
    extract_lets -merge +onlyGivenNames v9
    have h10 : Within M s v9 := State.setFlag_in (hM.of rfl) (hM.of rfl) h8
    clear_value v9
    refine Within.ite ?_ (fun _ => ?_)
    · exact h10
    · exact State.fireAlarm_in (hM.of rfl) h10

theorem execAlarmArm_in {p1} (hM : Incl 0x410001100a04004 M) : WithinRes M s (execAlarmArm p1 s) := by
  have h : Within M s s := Within.refl s
  unfold execAlarmArm
  refine WithinRes.next ?_
  refine State.hostGate_in (hM.of rfl) h (fun y1 h2 => ?_)
  exact State.almCtl_in (hM.of rfl) h2

theorem execAlarmDisarm_in {p1} (hM : Incl 0x410001100a04004 M) : WithinRes M s (execAlarmDisarm p1 s) := by
  have h : Within M s s := Within.refl s
  unfold execAlarmDisarm
  refine WithinRes.next ?_
  refine State.hostGate_in (hM.of rfl) h (fun y1 h2 => ?_)
  exact State.almCtl_in (hM.of rfl) h2

theorem execTcWindow_in {p1} (hM : Incl 0x1000000000 M) : WithinRes M s (execTcWindow p1 s) := by
  have h : Within M s s := Within.refl s
  unfold execTcWindow
  refine WithinRes.next ?_
  refine Within.ite ?_ (fun _ => ?_)
  · exact h
  · exact State.wr_in (hM.of rfl) (State.wr_in (hM.of rfl) h)

theorem execTrimWindow_in (hM : Incl 0x1000000000 M) : WithinRes M s (execTrimWindow s) := by
  have h : Within M s s := Within.refl s
  unfold execTrimWindow
  refine WithinRes.next ?_
  refine Within.ite ?_ (fun _ => ?_)
  · exact h
  · exact State.wr_in (hM.of rfl) h

theorem State.ponOffWrite_in {p2} (hM : Incl 0x410001100a00004 M) (h : Within M s x) : Within M s (State.ponOffWrite x p2) := by
  unfold State.ponOffWrite
  refine Within.ite ?_ (fun _ => ?_)
  · extract_lets -merge +onlyGivenNames v1
    have h2 : Within M s v1 := State.showPon_in (hM.of rfl) (State.store_in (hM.of rfl) (hM.of rfl) h)
    clear_value v1
    exact State.bkdNotice_in (hM.of rfl) (Within.set_bkd h2 (hM.of rfl))
  · exact h

theorem execPonOff_in {p1} (hM : Incl 0x410001100a04004 M) : WithinRes M s (execPonOff p1 s) := by
  have h : Within M s s := Within.refl s
  unfold execPonOff
  refine WithinRes.next ?_
  refine State.hostGate_in (hM.of rfl) h (fun y1 h2 => ?_)
  exact State.ponOffWrite_in (hM.of rfl) h2

theorem execPonOffApply_in {p1} (hM : Incl 0x1000200002 M) : WithinRes M s (execPonOffApply p1 s) := by
  have h : Within M s s := Within.refl s
  unfold execPonOffApply
  extract_lets -merge +onlyGivenNames v1
  have h2 : Within M s v1 := State.advance_in (hM.of rfl) h
  clear_value v1
  refine WithinRes.next ?_
  split
  · refine Within.ite ?_ (fun _ => ?_)
    · exact State.showPon_in (hM.of rfl) (State.setFlag_in (hM.of rfl) (hM.of rfl) (Within.set_bkd h2 (hM.of rfl)))
    · exact h2
  · exact h2

theorem execOscStop_in {p1} (hM : Incl 0x410001100800006 M) : WithinRes M s (execOscStop p1 s) := by
  have h : Within M s s := Within.refl s
  unfold execOscStop
  extract_lets -merge +onlyGivenNames v1
  have h2 : Within M s v1 := State.advance_in (hM.of rfl) h
  clear_value v1
  refine WithinRes.next ?_
  refine Within.ite ?_ (fun _ => ?_)
  · extract_lets -merge +onlyGivenNames v3
    have h4 : Within M s v3 := State.setFlag_in (hM.of rfl) (hM.of rfl) h2
    clear_value v3
    refine Within.ite ?_ (fun _ => ?_)
    · exact h4
    · exact State.notice_in (hM.of rfl) h4
  · exact h2

theorem execVbatLowChange_in {p1} (hM : Incl 0x410001100a00004 M) : WithinRes M s (execVbatLowChange p1 s) := by
  have h : Within M s s := Within.refl s
  unfold execVbatLowChange
  extract_lets -merge +onlyGivenNames v1
  clear_value v1
  extract_lets -merge +onlyGivenNames v2
  have h3 : Within M s v2 := State.setFlag_in (hM.of rfl) (hM.of rfl) h
  clear_value v2
  refine WithinRes.next ?_
  refine Within.ite ?_ (fun _ => ?_)
  · exact h3
  · exact State.bkdNotice_in (hM.of rfl) h3

theorem State.resetKinds_in {p2} (hM : Incl 0x3fffffffffff00000000 M) (h : Within M s x) : Within M s (State.resetKinds x p2) := by
  unfold State.resetKinds
  refine Within.forEach ?_ (fun y1 y2 h3 => ?_)
  · exact h
  · exact State.setWord_in (sub_any (hM.of rfl)) h3

theorem execBackupDomainPowered_in {p1} (hM : Incl 0x3fffffffffff00200002 M) : WithinRes M s (execBackupDomainPowered p1 s) := by
  have h : Within M s s := Within.refl s
  unfold execBackupDomainPowered
  extract_lets -merge +onlyGivenNames v1
  have h2 : Within M s v1 := State.advance_in (hM.of rfl) h
  clear_value v1
  refine WithinRes.next ?_
  refine Within.ite ?_ (fun _ => ?_)
  · extract_lets -merge +onlyGivenNames v3
    have h4 : Within M s v3 := State.resetKinds_in (hM.of rfl) h2
    clear_value v3
    exact Within.set_bkd h4 (hM.of rfl)
  · exact h2

theorem State.defRestart_in {p2} {p3} (hM : Incl 0x180000040000080000 M) (h : Within M s x) : Within M s (State.defRestart x p2 p3) := by
  unfold State.defRestart
  extract_lets -merge +onlyGivenNames v1
  clear_value v1
  extract_lets -merge +onlyGivenNames v2
  have h3 : Within M s v2 := Within.set_osc h (hM.of rfl)
  clear_value v2
  exact State.wr_in (hM.of rfl) (State.clearDef_in (hM.of rfl) h3)

theorem State.defTargetAt_in {p2} (hM : Incl 0x180000040000080000 M) (h : Within M s x) : Within M s (State.defTargetAt x p2) := by
  unfold State.defTargetAt
  extract_lets -merge +onlyGivenNames v1 v2
  clear_value v1 v2
  extract_lets -merge +onlyGivenNames v3
  have h4 : Within M s v3 := by
    unfold v3
    split
    · rename_i z5 z6 z7 z8 z9
      refine Within.ite ?_ (fun _ => ?_)
      · exact State.defRestart_in (hM.of rfl) h
      · exact Within.set_osc h (hM.of rfl)
    · rename_i z10 z11 z12
      exact h
    · rename_i z13 z14 z15 z16 z17
      exact State.defRestart_in (hM.of rfl) h
  clear_value v3
  exact State.wr_in (hM.of rfl) (State.wr_in (hM.of rfl) h4)

theorem State.defWrite_in {p2} (hM : Incl 0x180410040100800004 M) (h : Within M s x) : Within M s (State.defWrite x p2) := by
  unfold State.defWrite
  extract_lets -merge +onlyGivenNames v1 v2
  clear_value v1 v2
  extract_lets -merge +onlyGivenNames v3
  have h4 : Within M s v3 := State.clearDef_in (hM.of rfl) h
  clear_value v3
  extract_lets -merge +onlyGivenNames v5
  have h6 : Within M s v5 := by
    unfold v5
    refine Within.forEach ?_ (fun y7 y8 h9 => ?_)
    · exact h4
    · extract_lets -merge +onlyGivenNames v10
      clear_value v10
      exact State.wr_in (hM.of rfl) (State.setFlag_in (hM.of rfl) (hM.of rfl) (State.wr_in (hM.of rfl) (State.wr_in (hM.of rfl) (State.wr_in (hM.of rfl) h9))))
  clear_value v5
  extract_lets -merge +onlyGivenNames v11
  clear_value v11
  extract_lets -merge +onlyGivenNames v12
  have h13 : Within M s v12 := by
    unfold v12
    refine Within.forEach ?_ (fun y14 y15 h16 => ?_)
    · exact h6
    · exact State.wr_in (hM.of rfl) (State.wr_in (hM.of rfl) (State.setFlag_in (hM.of rfl) (hM.of rfl) h16))
  clear_value v12
  extract_lets -merge +onlyGivenNames v17
  have h18 : Within M s v17 := State.wr_in (hM.of rfl) (State.wr_in (hM.of rfl) (State.setFlag_in (hM.of rfl) (hM.of rfl) h13))
  clear_value v17
  exact State.notice_in (hM.of rfl) h18

theorem State.defEpochRun_in {p2} (hM : Incl 0x180410040100880004 M) (h : Within M s x) : Within M s (State.defEpochRun x p2) := by
  unfold State.defEpochRun
  extract_lets -merge +onlyGivenNames v1
  have h2 : Within M s v1 := State.defTargetAt_in (hM.of rfl) h
  clear_value v1
  split
  · exact h2
  · extract_lets -merge +onlyGivenNames v3
    have h4 : Within M s v3 := by
      unfold v3
      refine Within.ite ?_ (fun _ => ?_)
      · exact State.incSat_in (hM.of rfl) (hM.of rfl) h2
      · exact h2
    clear_value v3
    extract_lets -merge +onlyGivenNames v5
    clear_value v5
    refine Within.ite ?_ (fun _ => ?_)
    · exact State.defWrite_in (hM.of rfl) h4
    · exact h4

theorem State.defRecheck_in (hM : Incl 0x180410040100880004 M) (h : Within M s x) : Within M s (State.defRecheck x) := by
  unfold State.defRecheck
  refine Within.ite ?_ (fun _ => ?_)
  · extract_lets -merge +onlyGivenNames v1
    clear_value v1
    extract_lets -merge +onlyGivenNames v2
    have h3 : Within M s v2 := Within.set_osc h (hM.of rfl)
    clear_value v2
    extract_lets -merge +onlyGivenNames v4
    clear_value v4
    refine Within.ite ?_ (fun _ => ?_)
    · exact State.defJudge_in (hM.of rfl) h3
    · exact h3
  · exact h

theorem State.defOff_in {p2} (hM : Incl 0x180000040000080000 M) (h : Within M s x) : Within M s (State.defOff x p2) := by
  unfold State.defOff
  extract_lets -merge +onlyGivenNames v1
  have h2 : Within M s v1 := State.defTargetAt_in (hM.of rfl) h
  clear_value v1
  exact Within.set_osc h2 (hM.of rfl)

theorem State.defPass_in {p2} (hM : Incl 0x180410040100880004 M) (h : Within M s x) : Within M s (State.defPass x p2) := by
  unfold State.defPass
  extract_lets -merge +onlyGivenNames v1
  have h2 : Within M s v1 := State.defRecheck_in (hM.of rfl) h
  clear_value v1
  refine Within.ite ?_ (fun _ => ?_)
  · refine Within.ite ?_ (fun _ => ?_)
    · exact h2
    · exact State.defEpochRun_in (hM.of rfl) h2
  · exact State.defOff_in (hM.of rfl) h2

theorem State.defSample_in {p2} {p3} (hM : Incl 0x180410040100880004 M) (h : Within M s x) : Within M s (State.defSample x p2 p3) := by
  unfold State.defSample
  extract_lets -merge +onlyGivenNames v1
  clear_value v1
  extract_lets -merge +onlyGivenNames v2
  have h3 : Within M s v2 := by
    unfold v2
    refine Within.ite ?_ (fun _ => ?_)
    · exact h
    · exact State.defPass_in (hM.of rfl) h
  clear_value v2
  extract_lets -merge +onlyGivenNames v4
  exact Within.set_osc h3 (hM.of rfl)

theorem State.defPush_in {p2} {p3} (hM : Incl 0x80000 M) (h : Within M s x) : Within M s (State.defPush x p2 p3) := by
  unfold State.defPush
  extract_lets -merge +onlyGivenNames v1
  clear_value v1
  exact Within.set_osc h (hM.of rfl)

theorem State.defItem_in {p2} {p3} {p4} (hM : Incl 0x180410040100880004 M) (h : Within M s x) : Within M s (State.defItem x p2 p3 p4) := by
  unfold State.defItem
  extract_lets -merge +onlyGivenNames v1
  clear_value v1
  refine Within.forEach ?_ (fun y2 y3 h4 => ?_)
  · exact h
  · extract_lets -merge +onlyGivenNames v5
    have h6 : Within M s v5 := by
      unfold v5
      refine Within.ite ?_ (fun _ => ?_)
      · exact h4
      · exact State.defPush_in (hM.of rfl) h4
    clear_value v5
    extract_lets -merge +onlyGivenNames v7
    clear_value v7
    extract_lets -merge +onlyGivenNames v8
    have h9 : Within M s v8 := Within.set_osc h6 (hM.of rfl)
    clear_value v8
    split
    · exact State.defSample_in (hM.of rfl) h9
    · exact h9

theorem execDefUpdate_in {p1} (hM : Incl 0x18041004010088000e M) : WithinRes M s (execDefUpdate p1 s) := by
  have h : Within M s s := Within.refl s
  unfold execDefUpdate
  extract_lets -merge +onlyGivenNames v1
  have h2 : Within M s v1 := State.advance_in (hM.of rfl) h
  clear_value v1
  split
  · split
    · refine WithinRes.next ?_
      refine Within.ite ?_ (fun _ => ?_)
      · exact h2
      · exact State.markRan_in (hM.of rfl) (State.defItem_in (hM.of rfl) h2)
    · exact WithinRes.next h2
  · exact WithinRes.next h2

theorem State.takeAdds_in {p2} (hM : Incl 0x80 M) (h : Within M s x) : Within M s (State.takeAdds x p2).1 := by
  unfold State.takeAdds
  extract_lets -merge +onlyGivenNames v1 v2
  clear_value v1 v2
  exact Within.mk1 (State.setRnd_in (hM.of rfl) h)

theorem State.countLates_in {p2} {p3} {p4} (hM : Incl 0x2c5001810080009c M) (h : Within M s x) : Within M s (State.countLates x p2 p3 p4) := by
  unfold State.countLates
  refine Within.forEach ?_ (fun y1 y2 h3 => ?_)
  · exact h
  · exact State.countLate_in (hM.of rfl) h3

theorem State.ownMember_in {p2} {p3} {p4} {p5} (hM : Incl 0x45001010080001c M) (h : Within M s x) : Within M s (State.ownMember x p2 p3 p4 p5).1 := by
  unfold State.ownMember
  split
  · exact Within.mk1 h
  · refine Within.ite1 ?_ (fun _ => ?_)
    · refine Within.ite1 ?_ (fun _ => ?_)
      · exact Within.mk1 h
      · exact Within.mk1 (State.deadLetter_in (hM.of rfl) h)
    · exact Within.mk1 h

theorem State.composeOwn_in {p2} {p3} {p4} (hM : Incl 0x2c5001810080009c M) (h : Within M s x) : Within M s (State.composeOwn x p2 p3 p4).1 := by
  unfold State.composeOwn
  split
  rename_i z1 z2 z3 z4
  have h5 : Within M s z2 := Within.of_fst z4 (State.takeAdds_in (hM.of rfl) h)
  extract_lets -merge +onlyGivenNames v6
  have h7 : Within M s v6 := State.countLates_in (hM.of rfl) h5
  clear_value v6
  split
  rename_i z8 z9 z10 z11
  have h12 : Within M s z9 := Within.of_fst z11 (by
    refine Within.foldl1 ?_ (fun y13 y14 h15 => ?_)
    · exact Within.mk1 h7
    · split
      rename_i z16 z17 z18 z19
      have h20 : Within M s z17 := Within.of_fst z19 (State.ownMember_in (hM.of rfl) h15)
      exact Within.mk1 h20)
  extract_lets -merge +onlyGivenNames v21
  clear_value v21
  exact Within.mk1 h12

theorem State.countInelig_in {p2} {p3} (hM : Incl 0x410008100800084 M) (h : Within M s x) : Within M s (State.countInelig x p2 p3) := by
  unfold State.countInelig
  extract_lets -merge +onlyGivenNames v1
  have h2 : Within M s v1 := State.inc_in (hM.of rfl) (hM.of rfl) h
  clear_value v1
  extract_lets -merge +onlyGivenNames v3
  clear_value v3
  refine Within.ite ?_ (fun _ => ?_)
  · exact State.logEvent_in (hM.of rfl) (State.whlNotice_in (hM.of rfl) (State.setRnd_in (hM.of rfl) h2))
  · exact h2

theorem State.essential_in {p2} {p3} {p4} (hM : Incl 0x410008100800084 M) (h : Within M s x) : Within M s (State.essential x p2 p3 p4) := by
  unfold State.essential
  extract_lets -merge +onlyGivenNames v1
  clear_value v1
  refine Within.ite ?_ (fun _ => ?_)
  · extract_lets -merge +onlyGivenNames v2
    clear_value v2
    extract_lets -merge +onlyGivenNames v3
    have h4 : Within M s v3 := State.setRnd_in (hM.of rfl) h
    clear_value v3
    refine Within.ite ?_ (fun _ => ?_)
    · exact State.whlNotice_in (hM.of rfl) (State.setRnd_in (hM.of rfl) h4)
    · exact h4
  · exact State.setRnd_in (hM.of rfl) h

theorem State.presence_in {p2} {p3} (hM : Incl 0x410008100800084 M) (h : Within M s x) : Within M s (State.presence x p2 p3) := by
  unfold State.presence
  extract_lets -merge +onlyGivenNames v1
  clear_value v1
  extract_lets -merge +onlyGivenNames v2
  have h3 : Within M s v2 := by
    unfold v2
    refine Within.forEach ?_ (fun y4 y5 h6 => ?_)
    · exact h
    · exact State.countInelig_in (hM.of rfl) h6
  clear_value v2
  extract_lets -merge +onlyGivenNames v7
  have h8 : Within M s v7 := by
    unfold v7
    refine Within.forEach ?_ (fun y9 y10 h11 => ?_)
    · exact h3
    · exact State.essential_in (hM.of rfl) h11
  clear_value v7
  exact State.showMembers_in (hM.of rfl) h8

theorem State.spawnIsl_in {p2} {p3} (hM : Incl 0xac5001010090001c M) (h : Within M s x) : Within M s (State.spawnIsl x p2 p3) := by
  unfold State.spawnIsl
  refine Within.ite ?_ (fun _ => ?_)
  · extract_lets -merge +onlyGivenNames v1
    clear_value v1
    extract_lets -merge +onlyGivenNames v2
    have h3 : Within M s v2 := Within.set_isl h (hM.of rfl)
    clear_value v2
    exact State.enqueue_in (hM.of rfl) (State.enqueue_in (hM.of rfl) h3)
  · exact h

theorem State.spawn_in {p2} {p3} (hM : Incl 0xac5001010090001c M) (h : Within M s x) : Within M s (State.spawn x p2 p3) := by
  unfold State.spawn
  extract_lets -merge +onlyGivenNames v1
  clear_value v1
  extract_lets -merge +onlyGivenNames v2
  have h3 : Within M s v2 := State.enqueue_in (hM.of rfl) h
  clear_value v2
  extract_lets -merge +onlyGivenNames v4
  have h5 : Within M s v4 := State.spawnIsl_in (hM.of rfl) h3
  clear_value v4
  extract_lets -merge +onlyGivenNames v6
  have h7 : Within M s v6 := by
    unfold v6
    refine Within.forEach ?_ (fun y8 y9 h10 => ?_)
    · exact h5
    · exact State.enqueue_in (hM.of rfl) h10
  clear_value v6
  extract_lets -merge +onlyGivenNames v11
  have h12 : Within M s v11 := by
    unfold v11
    refine Within.forEach ?_ (fun y13 y14 h15 => ?_)
    · exact h7
    · exact State.enqueue_in (hM.of rfl) h15
  clear_value v11
  refine Within.ite ?_ (fun _ => ?_)
  · exact h12
  · exact State.enqueue_in (hM.of rfl) h12

theorem State.openSlot_in {p2} {p3} {p4} (hM : Incl 0x200acd20d21019040bc M) (h : Within M s x) : Within M s (State.openSlot x p2 p3 p4) := by
  unfold State.openSlot
  extract_lets -merge +onlyGivenNames v1
  have h2 : Within M s v1 := by
    unfold v1
    refine Within.ite ?_ (fun _ => ?_)
    · exact h
    · exact State.forceOldest_in (hM.of rfl) h
  clear_value v1
  extract_lets -merge +onlyGivenNames v3 v4
  clear_value v3 v4
  exact State.setRnd_in (hM.of rfl) h2

theorem State.dispatchBag_in {p2} {p3} (hM : Incl 0x200acd38da1019640bc M) (h : Within M s x) : Within M s (State.dispatchBag x p2 p3) := by
  unfold State.dispatchBag
  extract_lets -merge +onlyGivenNames v1
  clear_value v1
  extract_lets -merge +onlyGivenNames v2
  have h3 : Within M s v2 := State.presence_in (hM.of rfl) h
  clear_value v2
  extract_lets -merge +onlyGivenNames v4
  have h5 : Within M s v4 := State.countDraws_in (hM.of rfl) h3
  clear_value v4
  extract_lets -merge +onlyGivenNames v6
  clear_value v6
  extract_lets -merge +onlyGivenNames v7
  have h8 : Within M s v7 := State.setRnd_in (hM.of rfl) h5
  clear_value v7
  extract_lets -merge +onlyGivenNames v9
  have h10 : Within M s v9 := State.inc_in (hM.of rfl) (hM.of rfl) h8
  clear_value v9
  extract_lets -merge +onlyGivenNames v11
  have h12 : Within M s v11 := by
    unfold v11
    refine Within.ite ?_ (fun _ => ?_)
    · exact h10
    · exact State.inc_in (hM.of rfl) (hM.of rfl) h10
  clear_value v11
  extract_lets -merge +onlyGivenNames v13
  clear_value v13
  extract_lets -merge +onlyGivenNames v14
  have h15 : Within M s v14 := by
    unfold v14
    refine Within.ite ?_ (fun _ => ?_)
    · exact h12
    · exact State.wr_in (hM.of rfl) h12
  clear_value v14
  extract_lets -merge +onlyGivenNames v16
  have h17 : Within M s v16 := State.spawn_in (hM.of rfl) (State.openSlot_in (hM.of rfl) h15)
  clear_value v16
  extract_lets -merge +onlyGivenNames v18
  have h19 : Within M s v18 := State.capMailbag_in (hM.of rfl) h17
  clear_value v18
  refine Within.ite ?_ (fun _ => ?_)
  · exact h19
  · exact State.plkSend_in (hM.of rfl) h19

theorem State.retireDue_in (hM : Incl 0x200acd20de1019040fc M) (h : Within M s x) : Within M s (State.retireDue x) := by
  unfold State.retireDue
  extract_lets -merge +onlyGivenNames v1 v2 v3
  clear_value v1 v2 v3
  extract_lets -merge +onlyGivenNames v4
  have h5 : Within M s v4 := Within.set_adm h (hM.of rfl)
  clear_value v4
  extract_lets -merge +onlyGivenNames v6
  have h7 : Within M s v6 := by
    unfold v6
    refine Within.forEach ?_ (fun y8 y9 h10 => ?_)
    · exact h5
    · refine Within.ite ?_ (fun _ => ?_)
      · exact h10
      · exact State.retire_in (hM.of rfl) h10
  clear_value v6
  refine Within.forEach ?_ (fun y11 y12 h13 => ?_)
  · exact h7
  · exact State.dropSender_in (hM.of rfl) h13

theorem State.rnd0Boundary_in {p2} {p3} (hM : Incl 0x3fffed6ffe7019bdefc M) (h : Within M s x) : Within M s (State.rnd0Boundary x p2 p3) := by
  unfold State.rnd0Boundary
  extract_lets -merge +onlyGivenNames v1
  clear_value v1
  extract_lets -merge +onlyGivenNames v2
  have h3 : Within M s v2 := Within.set_strt h (hM.of rfl)
  clear_value v2
  extract_lets -merge +onlyGivenNames v4
  have h5 : Within M s v4 := State.mirrorBoundary_in (hM.of rfl) h3
  clear_value v4
  split
  rename_i z6 z7 z8 z9
  have h10 : Within M s z7 := Within.of_fst z9 (State.roleBoundary_in (hM.of rfl) h5)
  extract_lets -merge +onlyGivenNames v11
  have h12 : Within M s v11 := State.restoreBoundary_in (hM.of rfl) h10
  clear_value v11
  extract_lets -merge +onlyGivenNames v13
  have h14 : Within M s v13 := by
    unfold v13
    refine Within.ite ?_ (fun _ => ?_)
    · exact State.requestBoundary_in (hM.of rfl) h12
    · exact h12
  clear_value v13
  extract_lets -merge +onlyGivenNames v15
  have h16 : Within M s v15 := State.retireDue_in (hM.of rfl) h14
  clear_value v15
  extract_lets -merge +onlyGivenNames v17
  have h18 : Within M s v17 := by
    unfold v17
    refine Within.ite ?_ (fun _ => ?_)
    · exact h16
    · exact State.placementBoundary_in (hM.of rfl) h16
  clear_value v17
  exact State.sendMap_in (hM.of rfl) h18

theorem State.countOffGrid_in {p2} {p3} {p4} (hM : Incl 0x45001010080001c M) (h : Within M s x) : Within M s (State.countOffGrid x p2 p3 p4) := by
  unfold State.countOffGrid
  refine Within.ite ?_ (fun _ => ?_)
  · exact h
  · refine Within.forEach ?_ (fun y1 y2 h3 => ?_)
    · exact h
    · refine Within.ite ?_ (fun _ => ?_)
      · exact h3
      · exact State.deadLetter_in (hM.of rfl) h3

theorem State.checkLetters_in {p2} {p3} {p4} (hM : Incl 0x804000 M) (h : Within M s x) : Within M s (State.checkLetters x p2 p3 p4) := by
  unfold State.checkLetters
  split
  · exact h
  · split
    extract_lets -merge +onlyGivenNames v1 v2
    clear_value v1 v2
    refine Within.ite ?_ (fun _ => ?_)
    · exact State.plkSend_in (hM.of rfl) h
    · exact h

theorem State.pairFiled_in {p2} {p3} (hM : Incl 0x2000000804000 M) (h : Within M s x) : Within M s (State.pairFiled x p2 p3) := by
  unfold State.pairFiled
  refine Within.ite ?_ (fun _ => ?_)
  · refine Within.ite ?_ (fun _ => ?_)
    · extract_lets -merge +onlyGivenNames v1
      clear_value v1
      extract_lets -merge +onlyGivenNames v2
      have h3 : Within M s v2 := Within.set_pair h (hM.of rfl)
      clear_value v2
      refine Within.ite ?_ (fun _ => ?_)
      · exact h3
      · exact State.plkSend_in (hM.of rfl) (State.inc_in (hM.of rfl) (hM.of rfl) h3)
    · exact State.inc_in (hM.of rfl) (hM.of rfl) h
  · exact h

theorem State.idleBoundary_in {p2} (hM : Incl 0x3fffed6ffe7019bdefc M) (h : Within M s x) : Within M s (State.idleBoundary x p2) := by
  unfold State.idleBoundary
  extract_lets -merge +onlyGivenNames v1
  have h2 : Within M s v1 := State.runCheck_in (hM.of rfl) (State.mirrorBoundary_in (hM.of rfl) (State.layoutBoundary_in (hM.of rfl) h))
  clear_value v1
  extract_lets -merge +onlyGivenNames v3
  have h4 : Within M s v3 := by
    unfold v3
    refine Within.ite ?_ (fun _ => ?_)
    · exact h2
    · exact State.runEntry_in (hM.of rfl) h2
  clear_value v3
  exact State.sendMap_in (hM.of rfl) (State.placementBoundary_in (hM.of rfl) (State.retireDue_in (hM.of rfl) (State.requestBoundary_in (hM.of rfl) h4)))

theorem State.roundInstant_in {p2} {p3} (hM : Incl 0x3fffed6ffe7019bdefc M) (h : Within M s x) : Within M s (State.roundInstant x p2 p3) := by
  unfold State.roundInstant
  extract_lets -merge +onlyGivenNames v1
  clear_value v1
  refine Within.ite ?_ (fun _ => ?_)
  · refine Within.ite ?_ (fun _ => ?_)
    · exact h
    · exact State.idleBoundary_in (hM.of rfl) h
  · extract_lets -merge +onlyGivenNames v2
    clear_value v2
    extract_lets -merge +onlyGivenNames v3
    have h4 : Within M s v3 := by
      unfold v3
      refine Within.ite ?_ (fun _ => ?_)
      · exact h
      · exact Within.set_whl h (hM.of rfl)
    clear_value v3
    extract_lets -merge +onlyGivenNames v5 v6
    clear_value v5 v6
    refine Within.ite ?_ (fun _ => ?_)
    · exact h4
    · exact State.openBag_in (hM.of rfl) h4

theorem execDeadlineClose_in {p1} {p2} (hM : Incl 0x10000000082 M) : WithinRes M s (execDeadlineClose p1 p2 s) := by
  have h : Within M s s := Within.refl s
  unfold execDeadlineClose
  extract_lets -merge +onlyGivenNames v1
  have h2 : Within M s v1 := State.advance_in (hM.of rfl) h
  clear_value v1
  extract_lets -merge +onlyGivenNames v3 v4
  clear_value v3 v4
  exact WithinRes.next (State.showOcc_in (hM.of rfl) (State.setRnd_in (hM.of rfl) h2))

theorem State.command_in {p2} {p3} (hM : Incl 0xc5001210080005c M) (h : Within M s x) (kp3 : ∀ b1 b2, Within M s b1 → Within M s (p3 b1 b2)) : Within M s (State.command x p2 p3) := by
  unfold State.command
  refine Within.ite ?_ (fun _ => ?_)
  · split
    · exact State.deadFrame_in (hM.of rfl) h
    · split
      · exact State.disc_in (hM.of rfl) h
      · exact kp3 _ _ h
  · exact State.disc_in (hM.of rfl) h

theorem State.answerTo_in {p2} {p3} (hM : Incl 0x45001210080003c M) (h : Within M s x) : Within M s (State.answerTo x p2 p3) := by
  unfold State.answerTo
  exact State.tx_in (hM.of rfl) h

theorem State.cmdSendCfg_in {p2} (hM : Incl 0xc5001210080007c M) (h : Within M s x) : Within M s (State.cmdSendCfg x p2) := by
  unfold State.cmdSendCfg
  refine State.command_in (hM.of rfl) h (fun y1 y2 h3 => ?_)
  exact State.answerTo_in (hM.of rfl) h3

theorem State.cmdSendHeader_in {p2} (hM : Incl 0xc5001210080007c M) (h : Within M s x) : Within M s (State.cmdSendHeader x p2) := by
  unfold State.cmdSendHeader
  refine State.command_in (hM.of rfl) h (fun y1 y2 h3 => ?_)
  exact State.answerTo_in (hM.of rfl) h3

theorem State.cmdDataOn_in {p2} (hM : Incl 0xc500121008000dc M) (h : Within M s x) : Within M s (State.cmdDataOn x p2) := by
  unfold State.cmdDataOn
  refine State.command_in (hM.of rfl) h (fun y1 y2 h3 => ?_)
  exact State.setRnd_in (hM.of rfl) h3

theorem State.cmdDataOff_in {p2} (hM : Incl 0xc500121008000dc M) (h : Within M s x) : Within M s (State.cmdDataOff x p2) := by
  unfold State.cmdDataOff
  refine State.command_in (hM.of rfl) h (fun y1 y2 h3 => ?_)
  exact State.setRnd_in (hM.of rfl) h3

theorem State.cmdOther_in {p2} (hM : Incl 0xc5001a10080005c M) (h : Within M s x) : Within M s (State.cmdOther x p2) := by
  unfold State.cmdOther
  refine State.command_in (hM.of rfl) h (fun y1 y2 h3 => ?_)
  exact State.inc_in (hM.of rfl) (hM.of rfl) h3

theorem State.anyCommand_in {p2} (hM : Incl 0xc5001a1008000fc M) (h : Within M s x) : Within M s (State.anyCommand x p2) := by
  unfold State.anyCommand
  extract_lets -merge +onlyGivenNames v1
  clear_value v1
  refine Within.ite ?_ (fun _ => ?_)
  · refine Within.ite ?_ (fun _ => ?_)
    · refine Within.ite ?_ (fun _ => ?_)
      · refine Within.ite ?_ (fun _ => ?_)
        · exact State.cmdOther_in (hM.of rfl) h
        · exact State.cmdSendCfg_in (hM.of rfl) h
      · exact State.cmdSendHeader_in (hM.of rfl) h
    · exact State.cmdDataOn_in (hM.of rfl) h
  · exact State.cmdDataOff_in (hM.of rfl) h

theorem execCmdSendCfg_in {p1} (hM : Incl 0xc5001210080007e M) : WithinRes M s (execCmdSendCfg p1 s) := by
  have h : Within M s s := Within.refl s
  unfold execCmdSendCfg
  refine WithinRes.next ?_
  refine State.onFrame_in (hM.of rfl) h (fun y1 h2 => ?_)
  exact State.cmdSendCfg_in (hM.of rfl) h2

theorem execCmdSendHeader_in {p1} (hM : Incl 0xc5001210080007e M) : WithinRes M s (execCmdSendHeader p1 s) := by
  have h : Within M s s := Within.refl s
  unfold execCmdSendHeader
  refine WithinRes.next ?_
  refine State.onFrame_in (hM.of rfl) h (fun y1 h2 => ?_)
  exact State.cmdSendHeader_in (hM.of rfl) h2

theorem execCmdDataOn_in {p1} (hM : Incl 0xc500121008000fe M) : WithinRes M s (execCmdDataOn p1 s) := by
  have h : Within M s s := Within.refl s
  unfold execCmdDataOn
  refine WithinRes.next ?_
  refine State.onFrame_in (hM.of rfl) h (fun y1 h2 => ?_)
  exact State.cmdDataOn_in (hM.of rfl) h2

theorem execCmdDataOff_in {p1} (hM : Incl 0xc500121008000fe M) : WithinRes M s (execCmdDataOff p1 s) := by
  have h : Within M s s := Within.refl s
  unfold execCmdDataOff
  refine WithinRes.next ?_
  refine State.onFrame_in (hM.of rfl) h (fun y1 h2 => ?_)
  exact State.cmdDataOff_in (hM.of rfl) h2

theorem execCmdOther_in {p1} (hM : Incl 0xc5001a10080007e M) : WithinRes M s (execCmdOther p1 s) := by
  have h : Within M s s := Within.refl s
  unfold execCmdOther
  refine WithinRes.next ?_
  refine State.onFrame_in (hM.of rfl) h (fun y1 h2 => ?_)
  exact State.cmdOther_in (hM.of rfl) h2

theorem State.lsForm_in {p2} {p3} {p4} (hM : Incl 0xac5021010080801c M) (h : Within M s x) : Within M s (State.lsForm x p2 p3 p4) := by
  unfold State.lsForm
  extract_lets -merge +onlyGivenNames v1 v2
  clear_value v1 v2
  extract_lets -merge +onlyGivenNames v3
  have h4 : Within M s v3 := State.setFlag_in (hM.of rfl) (hM.of rfl) (State.setAcqLs_in (hM.of rfl) h)
  clear_value v3
  extract_lets -merge +onlyGivenNames v5
  have h6 : Within M s v5 := State.inc_in (hM.of rfl) (hM.of rfl) h4
  clear_value v5
  extract_lets -merge +onlyGivenNames v7
  have h8 : Within M s v7 := by
    unfold v7
    refine Within.ite ?_ (fun _ => ?_)
    · exact h6
    · exact State.inc_in (hM.of rfl) (hM.of rfl) h6
  clear_value v7
  extract_lets -merge +onlyGivenNames v9
  have h10 : Within M s v9 := State.wr_in (hM.of rfl) (State.wr64_in (hM.of rfl) (hM.of rfl) (State.bump64_in (hM.of rfl) (hM.of rfl) h8))
  clear_value v9
  extract_lets -merge +onlyGivenNames v11
  clear_value v11
  extract_lets -merge +onlyGivenNames v12
  have h13 : Within M s v12 := Within.set_acq h10 (hM.of rfl)
  clear_value v12
  refine Within.ite ?_ (fun _ => ?_)
  · exact State.handOver_in (hM.of rfl) h13
  · exact h13

theorem State.svLetter_in {p2} (hM : Incl 0xac5021010080801c M) (h : Within M s x) : Within M s (State.svLetter x p2) := by
  unfold State.svLetter
  extract_lets -merge +onlyGivenNames v1
  clear_value v1
  split
  · exact h
  · extract_lets -merge +onlyGivenNames v2 v3 v4
    clear_value v2 v3 v4
    extract_lets -merge +onlyGivenNames v5
    have h6 : Within M s v5 := State.bump_in (hM.of rfl) (hM.of rfl) h
    clear_value v5
    extract_lets -merge +onlyGivenNames v7
    clear_value v7
    extract_lets -merge +onlyGivenNames v8
    have h9 : Within M s v8 := Within.set_acq h6 (hM.of rfl)
    clear_value v8
    exact State.lsForm_in (hM.of rfl) h9

theorem execLocalLetter_in {p1} {p2} (hM : Incl 0xac5021010080801e M) : WithinRes M s (execLocalLetter p1 p2 s) := by
  have h : Within M s s := Within.refl s
  unfold execLocalLetter
  extract_lets -merge +onlyGivenNames v1
  have h2 : Within M s v1 := State.advance_in (hM.of rfl) h
  clear_value v1
  refine WithinRes.next ?_
  split
  · refine Within.ite ?_ (fun _ => ?_)
    · exact h2
    · refine Within.ite ?_ (fun _ => ?_)
      · exact State.svLetter_in (hM.of rfl) h2
      · exact State.lsForm_in (hM.of rfl) h2
  · exact h2

theorem execSvWaitTimeout_in {p1} {p2} (hM : Incl 0xac5021010080801e M) : WithinRes M s (execSvWaitTimeout p1 p2 s) := by
  have h : Within M s s := Within.refl s
  unfold execSvWaitTimeout
  extract_lets -merge +onlyGivenNames v1
  have h2 : Within M s v1 := State.advance_in (hM.of rfl) h
  clear_value v1
  extract_lets -merge +onlyGivenNames v3
  clear_value v3
  refine WithinRes.next ?_
  split
  · refine Within.ite ?_ (fun _ => ?_)
    · exact h2
    · exact State.svLetter_in (hM.of rfl) h2
  · exact h2

theorem execSvLost_in {p1} {p2} (hM : Incl 0x410200100800006 M) : WithinRes M s (execSvLost p1 p2 s) := by
  have h : Within M s s := Within.refl s
  unfold execSvLost
  extract_lets -merge +onlyGivenNames v1
  have h2 : Within M s v1 := State.advance_in (hM.of rfl) h
  clear_value v1
  refine WithinRes.next ?_
  refine Within.ite ?_ (fun _ => ?_)
  · exact h2
  · exact State.notice_in (hM.of rfl) (State.setFlag_in (hM.of rfl) (hM.of rfl) h2)

theorem State.svTake_in {p2} {p3} (hM : Incl 0x410200100808004 M) (h : Within M s x) : Within M s (State.svTake x p2 p3) := by
  unfold State.svTake
  extract_lets -merge +onlyGivenNames v1
  clear_value v1
  refine Within.ite ?_ (fun _ => ?_)
  · extract_lets -merge +onlyGivenNames v2
    clear_value v2
    extract_lets -merge +onlyGivenNames v3
    have h4 : Within M s v3 := Within.set_acq h (hM.of rfl)
    clear_value v3
    extract_lets -merge +onlyGivenNames v5
    have h6 : Within M s v5 := State.setFlag_in (hM.of rfl) (hM.of rfl) h4
    clear_value v5
    extract_lets -merge +onlyGivenNames v7
    clear_value v7
    extract_lets -merge +onlyGivenNames v8
    have h9 : Within M s v8 := State.setFlag_in (hM.of rfl) (hM.of rfl) h6
    clear_value v8
    extract_lets -merge +onlyGivenNames v10
    have h11 : Within M s v10 := by
      unfold v10
      refine Within.ite ?_ (fun _ => ?_)
      · exact h9
      · exact State.notice_in (hM.of rfl) h9
    clear_value v10
    extract_lets -merge +onlyGivenNames v12 v13
    clear_value v12 v13
    refine Within.ite ?_ (fun _ => ?_)
    · extract_lets -merge +onlyGivenNames v14 v15 v16 v17 v18
      clear_value v14 v15 v16 v17 v18
      extract_lets -merge +onlyGivenNames v19
      have h20 : Within M s v19 := Within.set_acq h11 (hM.of rfl)
      clear_value v19
      extract_lets -merge +onlyGivenNames v21
      clear_value v21
      refine Within.ite ?_ (fun _ => ?_)
      · exact h20
      · exact State.setAcqLs_in (hM.of rfl) h20
    · exact State.inc_in (hM.of rfl) (hM.of rfl) h11
  · exact State.inc_in (hM.of rfl) (hM.of rfl) h

theorem execSvAsdu_in {p1} (hM : Incl 0x410202100808026 M) : WithinRes M s (execSvAsdu p1 s) := by
  have h : Within M s s := Within.refl s
  unfold execSvAsdu
  refine WithinRes.next ?_
  split
  · rename_i z1 z2 z3
    have h4 : Within M s z2 := Within.of_fst z3 (by
      refine Within.ite1 ?_ (fun _ => ?_)
      · exact State.rxMore_in (hM.of rfl) h
      · exact State.rxFront_in (hM.of rfl) h)
    refine Within.ite ?_ (fun _ => ?_)
    · refine Within.ite ?_ (fun _ => ?_)
      · exact h4
      · exact State.disc_in (hM.of rfl) h4
    · refine Within.forEach ?_ (fun y5 y6 h7 => ?_)
      · exact h4
      · exact State.svTake_in (hM.of rfl) h7
  · rename_i z8 z9 z10
    have h11 : Within M s z9 := Within.of_fst z10 (by
      refine Within.ite1 ?_ (fun _ => ?_)
      · exact State.rxMore_in (hM.of rfl) h
      · exact State.rxFront_in (hM.of rfl) h)
    exact h11

theorem execChainFilled_in {p1} {p2} (hM : Incl 0xa00001028002 M) : WithinRes M s (execChainFilled p1 p2 s) := by
  have h : Within M s s := Within.refl s
  unfold execChainFilled
  extract_lets -merge +onlyGivenNames v1
  have h2 : Within M s v1 := State.advance_in (hM.of rfl) h
  clear_value v1
  extract_lets -merge +onlyGivenNames v3
  clear_value v3
  refine WithinRes.next ?_
  refine Within.ite ?_ (fun _ => ?_)
  · exact h2
  · extract_lets -merge +onlyGivenNames v4
    clear_value v4
    extract_lets -merge +onlyGivenNames v5
    have h6 : Within M s v5 := State.setFlag_in (hM.of rfl) (hM.of rfl) (State.setAcqPt_in (hM.of rfl) h2)
    clear_value v5
    extract_lets -merge +onlyGivenNames v7
    have h8 : Within M s v7 := by
      unfold v7
      refine Within.forEach ?_ (fun y9 y10 h11 => ?_)
      · exact h6
      · refine Within.ite ?_ (fun _ => ?_)
        · exact h11
        · exact State.setAcqLs_in (hM.of rfl) h11
    clear_value v7
    exact State.capFilled_in (hM.of rfl) h8

theorem State.datagram_in {p2} {p3} {p4} (hM : Incl 0xfc5611e1008046fc M) (h : Within M s x) : Within M s (State.datagram x p2 p3 p4) := by
  unfold State.datagram
  extract_lets -merge +onlyGivenNames v1
  clear_value v1
  refine Within.ite ?_ (fun _ => ?_)
  · refine Within.ite ?_ (fun _ => ?_)
    · refine Within.ite ?_ (fun _ => ?_)
      · exact State.c37Cfg_in (hM.of rfl) h
      · exact State.anyCommand_in (hM.of rfl) h
    · exact State.c37Data_in (hM.of rfl) h
  · exact State.spduIn_in (hM.of rfl) h

theorem State.fragJoin_in {p2} {p3} {p4} {p5} (hM : Incl 0xfc5611e1008046fc M) (h : Within M s x) : Within M s (State.fragJoin x p2 p3 p4 p5) := by
  unfold State.fragJoin
  extract_lets -merge +onlyGivenNames v1
  clear_value v1
  split
  · refine Within.ite ?_ (fun _ => ?_)
    · exact State.datagram_in (hM.of rfl) (State.dropFrag_in (hM.of rfl) h)
    · exact State.reasmFail_in (hM.of rfl) (State.dropFrag_in (hM.of rfl) h)
  · exact Within.set_net h (hM.of rfl)

theorem State.fragIn_in {p2} {p3} {p4} (hM : Incl 0xfc5611e1008046fc M) (h : Within M s x) : Within M s (State.fragIn x p2 p3 p4) := by
  unfold State.fragIn
  split
  · refine Within.ite ?_ (fun _ => ?_)
    · exact State.fragJoin_in (hM.of rfl) h
    · exact State.reasmFail_in (hM.of rfl) h
  · exact State.fragJoin_in (hM.of rfl) h

theorem execFragment_in {p1} {p2} (hM : Incl 0xfc5611e1008046fe M) : WithinRes M s (execFragment p1 p2 s) := by
  have h : Within M s s := Within.refl s
  unfold execFragment
  refine WithinRes.next ?_
  refine State.onFrame_in (hM.of rfl) h (fun y1 h2 => ?_)
  exact State.fragIn_in (hM.of rfl) h2

end Sys2Proof.Machine
end

