-- ==== Sys2Proof/Laws/WithinKeys.lean ====
section
/-! SUPPORT. What each operation and each meaning may change: energy, the Strongroom and the flash. -/
namespace Sys2Proof.Machine

variable {M : Nat} {s x : State}

theorem State.nrgWrap_in {p2} {p3} (hM : Incl 0x410400100800004 M) (h : Within M s x) : Within M s (State.nrgWrap x p2 p3) := by
  unfold State.nrgWrap
  exact State.notice_in (hM.of rfl) (State.inc_in (hM.of rfl) (hM.of rfl) (State.setFlag_in (hM.of rfl) (hM.of rfl) h))

theorem State.billAdd_in {p2} {p3} (hM : Incl 0x410400100810004 M) (h : Within M s x) : Within M s (State.billAdd x p2 p3) := by
  unfold State.billAdd
  extract_lets -merge +onlyGivenNames v1 v2 v3 v4
  clear_value v1 v2 v3 v4
  refine Within.forEach ?_ (fun y5 y6 h7 => ?_)
  · exact State.setNrgPt_in (hM.of rfl) h
  · exact State.nrgWrap_in (hM.of rfl) h7

theorem State.snapTake_in {p2} {p3} (hM : Incl 0x410400100810004 M) (h : Within M s x) : Within M s (State.snapTake x p2 p3) := by
  unfold State.snapTake
  extract_lets -merge +onlyGivenNames v1
  clear_value v1
  refine Within.ite ?_ (fun _ => ?_)
  · exact h
  · extract_lets -merge +onlyGivenNames v2
    have h3 : Within M s v2 := State.setNrgPt_in (hM.of rfl) h
    clear_value v2
    extract_lets -merge +onlyGivenNames v4
    have h5 : Within M s v4 := by
      unfold v4
      refine Within.forEach ?_ (fun y6 y7 h8 => ?_)
      · exact h3
      · exact State.wr64_in (hM.of rfl) (hM.of rfl) (State.wr64_in (hM.of rfl) (hM.of rfl) h8)
    clear_value v4
    exact State.snapFinish_in (hM.of rfl) (State.wr_in (hM.of rfl) (State.wr_in (hM.of rfl) h5))

theorem State.presetTake_in {p2} {p3} (hM : Incl 0x410400100810004 M) (h : Within M s x) : Within M s (State.presetTake x p2 p3) := by
  unfold State.presetTake
  extract_lets -merge +onlyGivenNames v1
  clear_value v1
  split
  · exact h
  · extract_lets -merge +onlyGivenNames v2
    have h3 : Within M s v2 := State.setNrgPt_in (hM.of rfl) h
    clear_value v2
    refine Within.ite ?_ (fun _ => ?_)
    · extract_lets -merge +onlyGivenNames v4 v5 v6
      clear_value v4 v5 v6
      extract_lets -merge +onlyGivenNames v7
      have h8 : Within M s v7 := State.setNrgPt_in (hM.of rfl) h3
      clear_value v7
      extract_lets -merge +onlyGivenNames v9
      have h10 : Within M s v9 := State.noticeQuiet_in (hM.of rfl) (State.wr_in (hM.of rfl) h8)
      clear_value v9
      exact State.logEvent_in (hM.of rfl) (State.logEvent_in (hM.of rfl) h10)
    · exact State.notice_in (hM.of rfl) (State.wr_in (hM.of rfl) h3)

theorem State.ivOpen_in {p2} {p3} (hM : Incl 0x10000 M) (h : Within M s x) : Within M s (State.ivOpen x p2 p3) := by
  unfold State.ivOpen
  extract_lets -merge +onlyGivenNames v1 v2
  clear_value v1 v2
  split
  · refine Within.ite ?_ (fun _ => ?_)
    · exact State.setNrgPt_in (hM.of rfl) h
    · exact h
  · exact State.setNrgPt_in (hM.of rfl) h

theorem State.ivClose_in {p2} {p3} (hM : Incl 0x10000 M) (h : Within M s x) : Within M s (State.ivClose x p2 p3) := by
  unfold State.ivClose
  extract_lets -merge +onlyGivenNames v1
  clear_value v1
  split
  · exact h
  · refine Within.ite ?_ (fun _ => ?_)
    · exact h
    · extract_lets -merge +onlyGivenNames v2 v3 v4
      clear_value v2 v3 v4
      refine Within.ite ?_ (fun _ => ?_)
      · exact State.setNrgPt_in (hM.of rfl) h
      · exact State.setNrgPt_in (hM.of rfl) h

theorem execIntervalEnd_in {p1} {p2} (hM : Incl 0x1000045041010081001e M) : WithinRes M s (execIntervalEnd p1 p2 s) := by
  have h : Within M s s := Within.refl s
  unfold execIntervalEnd
  extract_lets -merge +onlyGivenNames v1
  have h2 : Within M s v1 := State.advance_in (hM.of rfl) h
  clear_value v1
  extract_lets -merge +onlyGivenNames v3 v4
  clear_value v3 v4
  refine WithinRes.next ?_
  split
  · exact h2
  · extract_lets -merge +onlyGivenNames v5 v6 v7
    clear_value v5 v6 v7
    extract_lets -merge +onlyGivenNames v8
    have h9 : Within M s v8 := State.setNrgPt_in (hM.of rfl) h2
    clear_value v8
    extract_lets -merge +onlyGivenNames v10
    clear_value v10
    extract_lets -merge +onlyGivenNames v11
    have h12 : Within M s v11 := State.nrgOffer_in (hM.of rfl) h9
    clear_value v11
    extract_lets -merge +onlyGivenNames v13 v14
    clear_value v13 v14
    extract_lets -merge +onlyGivenNames v15
    have h16 : Within M s v15 := by
      unfold v15
      refine Within.forEach ?_ (fun y17 y18 h19 => ?_)
      · exact h12
      · exact State.wr_in (hM.of rfl) h19
    clear_value v15
    exact State.notice_in (hM.of rfl) h16

theorem State.turn_in {p2 : ℕ} {p3 : Word} {p4 : Fld} {p5 : Word} (hM : Incl 0x410000100800004 M) (kk1 : Incl (fldMask p4) M) (h : Within M s x) : Within M s (State.turn x p2 p3 p4 p5) := by
  unfold State.turn
  extract_lets -merge +onlyGivenNames v1 v2
  clear_value v1 v2
  refine Within.ite ?_ (fun _ => ?_)
  · exact State.notice_in (hM.of rfl) (State.setFlag_in (hM.of rfl) kk1 h)
  · exact h

theorem State.direct_in {p2} {p3} (hM : Incl 0x410400100800004 M) (h : Within M s x) : Within M s (State.direct x p2 p3) := by
  unfold State.direct
  extract_lets -merge +onlyGivenNames v1
  clear_value v1
  extract_lets -merge +onlyGivenNames v2
  have h3 : Within M s v2 := State.turn_in (hM.of rfl) (hM.of rfl) (State.turn_in (hM.of rfl) (hM.of rfl) h)
  clear_value v2
  exact State.setFlag_in (hM.of rfl) (hM.of rfl) h3

theorem State.meter_in {p2} {p3} (hM : Incl 0x410400100810004 M) (h : Within M s x) : Within M s (State.meter x p2 p3) := by
  unfold State.meter
  extract_lets -merge +onlyGivenNames v1 v2 v3 v4 v5 v6 v7 v8 v9
  clear_value v1 v2 v3 v4 v5 v6 v7 v8 v9
  extract_lets -merge +onlyGivenNames v10
  have h11 : Within M s v10 := by
    unfold v10
    refine Within.ite ?_ (fun _ => ?_)
    · exact State.billAdd_in (hM.of rfl) h
    · exact State.inc_in (hM.of rfl) (hM.of rfl) (State.setNrgPt_in (hM.of rfl) h)
  clear_value v10
  extract_lets -merge +onlyGivenNames v12 v13
  clear_value v12 v13
  extract_lets -merge +onlyGivenNames v14
  have h15 : Within M s v14 := State.setNrgPt_in (hM.of rfl) h11
  clear_value v14
  extract_lets -merge +onlyGivenNames v16
  have h17 : Within M s v16 := by
    unfold v16
    refine Within.forEach ?_ (fun y18 y19 h20 => ?_)
    · exact h15
    · exact State.wr_in (hM.of rfl) h20
  clear_value v16
  exact State.direct_in (hM.of rfl) (State.setFlag_in (hM.of rfl) (hM.of rfl) (State.setFlag_in (hM.of rfl) (hM.of rfl) h17))

theorem State.unmeter_in {p2} {p3} (hM : Incl 0x400000010000 M) (h : Within M s x) : Within M s (State.unmeter x p2 p3) := by
  unfold State.unmeter
  extract_lets -merge +onlyGivenNames v1 v2
  clear_value v1 v2
  exact State.setFlag_in (hM.of rfl) (hM.of rfl) (State.inc_in (hM.of rfl) (hM.of rfl) (State.setNrgPt_in (hM.of rfl) h))

theorem State.nrgPersist_in {p2} (hM : Incl 0x12000 M) (h : Within M s x) : Within M s (State.nrgPersist x p2) := by
  unfold State.nrgPersist
  extract_lets -merge +onlyGivenNames v1
  clear_value v1
  refine Within.ite ?_ (fun _ => ?_)
  · exact h
  · extract_lets -merge +onlyGivenNames v2 v3 v4 v5
    clear_value v2 v3 v4 v5
    extract_lets -merge +onlyGivenNames v6
    have h7 : Within M s v6 := Within.set_nrg h (hM.of rfl)
    clear_value v6
    refine Within.ite ?_ (fun _ => ?_)
    · exact Within.set_nvs h7 (hM.of rfl)
    · exact Within.set_nvs h7 (hM.of rfl)

theorem State.quantum_in {p2} {p3} (hM : Incl 0x410400100812004 M) (h : Within M s x) : Within M s (State.quantum x p2 p3) := by
  unfold State.quantum
  extract_lets -merge +onlyGivenNames v1 v2 v3
  clear_value v1 v2 v3
  extract_lets -merge +onlyGivenNames v4
  have h5 : Within M s v4 := State.ivOpen_in (hM.of rfl) h
  clear_value v4
  extract_lets -merge +onlyGivenNames v6
  have h7 : Within M s v6 := by
    unfold v6
    refine Within.ite ?_ (fun _ => ?_)
    · exact State.unmeter_in (hM.of rfl) h5
    · exact State.meter_in (hM.of rfl) h5
  clear_value v6
  extract_lets -merge +onlyGivenNames v8
  clear_value v8
  extract_lets -merge +onlyGivenNames v9
  have h10 : Within M s v9 := State.setNrgPt_in (hM.of rfl) h7
  clear_value v9
  extract_lets -merge +onlyGivenNames v11
  have h12 : Within M s v11 := State.ivClose_in (hM.of rfl) h10
  clear_value v11
  extract_lets -merge +onlyGivenNames v13
  have h14 : Within M s v13 := State.presetTake_in (hM.of rfl) (State.snapTake_in (hM.of rfl) h12)
  clear_value v13
  extract_lets -merge +onlyGivenNames v15 v16
  clear_value v15 v16
  extract_lets -merge +onlyGivenNames v17
  have h18 : Within M s v17 := by
    unfold v17
    refine Within.ite ?_ (fun _ => ?_)
    · exact h14
    · exact State.setNrgPt_in (hM.of rfl) h14
  clear_value v17
  exact State.nrgPersist_in (hM.of rfl) h18

theorem execQuantumEnd_in {p1} {p2} (hM : Incl 0x410400100812006 M) : WithinRes M s (execQuantumEnd p1 p2 s) := by
  have h : Within M s s := Within.refl s
  unfold execQuantumEnd
  extract_lets -merge +onlyGivenNames v1
  have h2 : Within M s v1 := State.advance_in (hM.of rfl) h
  clear_value v1
  extract_lets -merge +onlyGivenNames v3 v4
  clear_value v3 v4
  refine WithinRes.next ?_
  refine Within.ite ?_ (fun _ => ?_)
  · refine Within.ite ?_ (fun _ => ?_)
    · exact h2
    · exact State.quantum_in (hM.of rfl) h2
  · exact State.nrgPersist_in (hM.of rfl) h2

theorem State.snapWrite_in {p2} (hM : Incl 0x400000010000 M) (h : Within M s x) : Within M s (State.snapWrite x p2) := by
  unfold State.snapWrite
  refine Within.ite ?_ (fun _ => ?_)
  · exact h
  · extract_lets -merge +onlyGivenNames v1
    have h2 : Within M s v1 := State.wr_in (hM.of rfl) h
    clear_value v1
    extract_lets -merge +onlyGivenNames v3
    clear_value v3
    extract_lets -merge +onlyGivenNames v4
    have h5 : Within M s v4 := Within.set_nrg h2 (hM.of rfl)
    clear_value v4
    refine Within.forEach ?_ (fun y6 y7 h8 => ?_)
    · exact h5
    · refine Within.ite ?_ (fun _ => ?_)
      · exact h8
      · exact State.setNrgPt_in (hM.of rfl) h8

theorem execNrgSnap_in {p1} (hM : Incl 0x410400100814004 M) : WithinRes M s (execNrgSnap p1 s) := by
  have h : Within M s s := Within.refl s
  unfold execNrgSnap
  refine WithinRes.next ?_
  refine State.hostGate_in (hM.of rfl) h (fun y1 h2 => ?_)
  exact State.snapWrite_in (hM.of rfl) h2

theorem execSnapDone_in {p1} (hM : Incl 0x410400100800006 M) : WithinRes M s (execSnapDone p1 s) := by
  have h : Within M s s := Within.refl s
  unfold execSnapDone
  extract_lets -merge +onlyGivenNames v1
  have h2 : Within M s v1 := State.advance_in (hM.of rfl) h
  clear_value v1
  refine WithinRes.next ?_
  refine Within.ite ?_ (fun _ => ?_)
  · exact h2
  · exact State.notice_in (hM.of rfl) (State.wr_in (hM.of rfl) h2)

theorem State.presetWrite_in {p2 : ℕ} {p3 : Word} (hM : Incl 0x410400100810004 M) (kk1 : Incl (areaBit (Reg.NRG_PT_PRE_IDX_GO.off [p2])) M) (h : Within M s x) : Within M s (State.presetWrite x p2 p3) := by
  unfold State.presetWrite
  extract_lets -merge +onlyGivenNames v1
  clear_value v1
  extract_lets -merge +onlyGivenNames v2
  have h3 : Within M s v2 := State.setFlag_in (hM.of rfl) (hM.of rfl) (State.store_in (hM.of rfl) kk1 h)
  clear_value v2
  refine Within.ite ?_ (fun _ => ?_)
  · refine Within.ite ?_ (fun _ => ?_)
    · exact State.setNrgPt_in (hM.of rfl) (State.wr_in (hM.of rfl) h3)
    · exact State.notice_in (hM.of rfl) (State.wr_in (hM.of rfl) h3)
  · exact h3

theorem execNrgPreset_in {p1 : Fin 2} {p2 : Word} (hM : Incl 0x410400100814004 M) (kk1 : Incl (areaBit (Reg.NRG_PT_PRE_IDX_GO.off [↑p1])) M) : WithinRes M s (execNrgPreset p1 p2 s) := by
  have h : Within M s s := Within.refl s
  unfold execNrgPreset
  refine WithinRes.next ?_
  refine State.hostGate_in (hM.of rfl) h (fun y1 h2 => ?_)
  exact State.presetWrite_in (hM.of rfl) kk1 h2

theorem State.pqStart_in {p2} {p3} {p4} {p5} (hM : Incl 0x45041010081001c M) (h : Within M s x) : Within M s (State.pqStart x p2 p3 p4 p5) := by
  unfold State.pqStart
  extract_lets -merge +onlyGivenNames v1 v2 v3 v4
  clear_value v1 v2 v3 v4
  extract_lets -merge +onlyGivenNames v5
  have h6 : Within M s v5 := State.setFlag_in (hM.of rfl) (sub_ite (hM.of rfl) (sub_ite (hM.of rfl) (hM.of rfl))) (State.inc_in (hM.of rfl) (sub_ite (hM.of rfl) (sub_ite (hM.of rfl) (hM.of rfl))) (State.setNrgPt_in (hM.of rfl) h))
  clear_value v5
  extract_lets -merge +onlyGivenNames v7
  clear_value v7
  exact State.notice_in (hM.of rfl) (State.nrgOffer_in (hM.of rfl) h6)

theorem State.pqJudge_in {p2} {p3} {p4} {p5} (hM : Incl 0x45041010081001c M) (h : Within M s x) : Within M s (State.pqJudge x p2 p3 p4 p5) := by
  unfold State.pqJudge
  extract_lets -merge +onlyGivenNames v1 v2 v3 v4 v5 v6 v7 v8
  clear_value v1 v2 v3 v4 v5 v6 v7 v8
  split
  · refine Within.ite ?_ (fun _ => ?_)
    · exact h
    · exact State.pqStart_in (hM.of rfl) h
  · refine Within.ite ?_ (fun _ => ?_)
    · extract_lets -merge +onlyGivenNames v9 v10
      clear_value v9 v10
      exact State.setNrgPt_in (hM.of rfl) h
    · exact State.pqEnd_in (hM.of rfl) h

theorem State.judgeStamp_in {p2} {p3} (hM : Incl 0x45041010081001c M) (h : Within M s x) : Within M s (State.judgeStamp x p2 p3) := by
  unfold State.judgeStamp
  extract_lets -merge +onlyGivenNames v1 v2
  clear_value v1 v2
  extract_lets -merge +onlyGivenNames v3
  have h4 : Within M s v3 := State.setNrgPt_in (hM.of rfl) h
  clear_value v3
  extract_lets -merge +onlyGivenNames v5
  clear_value v5
  refine Within.ite ?_ (fun _ => ?_)
  · refine Within.forEach ?_ (fun y6 y7 h8 => ?_)
    · exact h4
    · exact State.pqJudge_in (hM.of rfl) h8
  · exact h4

theorem execUrmsHalfValue_in {p1} {p2} {p3} (hM : Incl 0x45041010081001e M) : WithinRes M s (execUrmsHalfValue p1 p2 p3 s) := by
  have h : Within M s s := Within.refl s
  unfold execUrmsHalfValue
  extract_lets -merge +onlyGivenNames v1
  have h2 : Within M s v1 := State.advance_in (hM.of rfl) h
  clear_value v1
  extract_lets -merge +onlyGivenNames v3
  clear_value v3
  refine WithinRes.next ?_
  refine Within.ite ?_ (fun _ => ?_)
  · refine Within.ite ?_ (fun _ => ?_)
    · exact h2
    · exact State.judgeStamp_in (hM.of rfl) h2
  · exact State.setNrgPt_in (hM.of rfl) h2

theorem State.install_in {p2} {p3} {p4} {p5} {p6} (hM : Incl 0x414000100802204 M) (h : Within M s x) : Within M s (State.install x p2 p3 p4 p5 p6) := by
  unfold State.install
  extract_lets -merge +onlyGivenNames v1
  have h2 : Within M s v1 := State.zeroiseSlot_in (hM.of rfl) h
  clear_value v1
  extract_lets -merge +onlyGivenNames v3 v4
  clear_value v3 v4
  extract_lets -merge +onlyGivenNames v5
  have h6 : Within M s v5 := Within.set_key h2 (hM.of rfl)
  clear_value v5
  extract_lets -merge +onlyGivenNames v7 v8
  clear_value v7 v8
  extract_lets -merge +onlyGivenNames v9
  have h10 : Within M s v9 := Within.set_key h6 (hM.of rfl)
  clear_value v9
  exact State.reserve_in (hM.of rfl) (State.setCat_in (hM.of rfl) (State.nextJournal_in (hM.of rfl) h10))

theorem State.installCut_in {p2} {p3} {p4} {p5} {p6} {p7} (hM : Incl 0x414000100802204 M) (h : Within M s x) : Within M s (State.installCut x p2 p3 p4 p5 p6 p7) := by
  unfold State.installCut
  extract_lets -merge +onlyGivenNames v1 v2 v3
  clear_value v1 v2 v3
  extract_lets -merge +onlyGivenNames v4
  have h5 : Within M s v4 := Within.set_key h (hM.of rfl)
  clear_value v4
  split
  · exact h
  · exact State.leaveOpen_in (hM.of rfl) (State.nextJournal_in (hM.of rfl) h5)
  · exact State.leaveOpen_in (hM.of rfl) (State.nextJournal_in (hM.of rfl) h5)
  · exact State.leaveOpen_in (hM.of rfl) (State.install_in (hM.of rfl) h)

theorem State.badSlot_in {p2} (hM : Incl 0x414000100800204 M) (h : Within M s x) : Within M s (State.badSlot x p2) := by
  unfold State.badSlot
  extract_lets -merge +onlyGivenNames v1 v2 v3
  clear_value v1 v2 v3
  extract_lets -merge +onlyGivenNames v4
  have h5 : Within M s v4 := Within.set_key h (hM.of rfl)
  clear_value v4
  exact State.notice_in (hM.of rfl) (State.setCat_in (hM.of rfl) (State.inc_in (hM.of rfl) (hM.of rfl) h5))

theorem State.loadSlot_in {p2} (hM : Incl 0x414000100800204 M) (h : Within M s x) : Within M s (State.loadSlot x p2) := by
  unfold State.loadSlot
  extract_lets -merge +onlyGivenNames v1
  clear_value v1
  refine Within.ite ?_ (fun _ => ?_)
  · refine Within.ite ?_ (fun _ => ?_)
    · split
      · refine Within.ite ?_ (fun _ => ?_)
        · exact State.badSlot_in (hM.of rfl) h
        · exact Within.set_key h (hM.of rfl)
      · exact State.badSlot_in (hM.of rfl) h
    · extract_lets -merge +onlyGivenNames v2
      clear_value v2
      exact Within.set_key h (hM.of rfl)
  · exact h

theorem State.loadSlots_in (hM : Incl 0x414000100800204 M) (h : Within M s x) : Within M s (State.loadSlots x) := by
  unfold State.loadSlots
  refine Within.forEach ?_ (fun y1 y2 h3 => ?_)
  · exact h
  · exact State.loadSlot_in (hM.of rfl) h3

theorem State.newChallenge_in (hM : Incl 0x400000200 M) (h : Within M s x) : Within M s (State.newChallenge x).1 := by
  unfold State.newChallenge
  extract_lets -merge +onlyGivenNames v1 v2 v3
  clear_value v1 v2 v3
  extract_lets -merge +onlyGivenNames v4
  have h5 : Within M s v4 := Within.set_key h (hM.of rfl)
  clear_value v4
  refine Within.mk1 ?_
  refine Within.ite ?_ (fun _ => ?_)
  · exact h5
  · exact State.wr_in (hM.of rfl) h5

theorem State.spendChallenge_in (hM : Incl 0x200 M) (h : Within M s x) : Within M s (State.spendChallenge x) := by
  unfold State.spendChallenge
  exact Within.set_key h (hM.of rfl)

theorem State.markBad_in {p2} {p3} (hM : Incl 0x414000100800204 M) (h : Within M s x) : Within M s (State.markBad x p2 p3) := by
  unfold State.markBad
  exact State.notice_in (hM.of rfl) (State.showKeyStat_in (hM.of rfl) (State.inc_in (hM.of rfl) (hM.of rfl) (Within.set_key h (hM.of rfl))))

theorem State.takeSpare_in {n bad l} (hM : Incl 0x414000100800204 M) (h : Within M s x) : Within M s (State.takeSpare x n bad l).1 := by
  induction l generalizing x with
  | nil => exact h
  | cons p r ih => unfold State.takeSpare; exact Within.ite1 h fun _ => ih (State.markBad_in (hM.of rfl) h)

theorem State.putKey_in {p2} {p3} {p4} {p5} {p6} {p7} {p8} {p9} {p10} (hM : Incl 0x414000100802204 M) (h : Within M s x) : Within M s (State.putKey x p2 p3 p4 p5 p6 p7 p8 p9 p10).1 := by
  unfold State.putKey
  split
  · rename_i z1 z2 z3
    have h4 : Within M s z2 := Within.of_fst z3 (State.takeSpare_in (hM.of rfl) h)
    exact Within.mk1 h4
  · rename_i z5 z6 z7 z8
    have h9 : Within M s z6 := Within.of_fst z8 (State.takeSpare_in (hM.of rfl) h)
    extract_lets -merge +onlyGivenNames v10
    clear_value v10
    split
    · exact Within.mk1 (State.setFlag_in (hM.of rfl) (hM.of rfl) (State.installCut_in (hM.of rfl) h9))
    · extract_lets -merge +onlyGivenNames v11
      have h12 : Within M s v11 := State.install_in (hM.of rfl) h9
      clear_value v11
      exact Within.mk1 h12

theorem State.importPub_in {p2} {p3} (hM : Incl 0x414000100802204 M) (h : Within M s x) : Within M s (State.importPub x p2 p3).1 := by
  unfold State.importPub
  extract_lets -merge +onlyGivenNames v1 v2 v3 v4 v5 v6
  clear_value v1 v2 v3 v4 v5 v6
  refine Within.ite1 ?_ (fun _ => ?_)
  · refine Within.ite1 ?_ (fun _ => ?_)
    · refine Within.ite1 ?_ (fun _ => ?_)
      · exact State.putKey_in (hM.of rfl) (State.spendChallenge_in (hM.of rfl) h)
      · exact Within.mk1 h
    · exact Within.mk1 h
  · exact Within.mk1 h

theorem State.importKey_in {p2} {p3} (hM : Incl 0x414000100802204 M) (h : Within M s x) : Within M s (State.importKey x p2 p3).1 := by
  unfold State.importKey
  extract_lets -merge +onlyGivenNames v1 v2 v3
  clear_value v1 v2 v3
  extract_lets -merge +onlyGivenNames v4
  have h5 : Within M s v4 := State.expireNow_in (hM.of rfl) h
  clear_value v4
  extract_lets -merge +onlyGivenNames v6
  clear_value v6
  refine Within.ite1 ?_ (fun _ => ?_)
  · refine Within.ite1 ?_ (fun _ => ?_)
    · refine Within.ite1 ?_ (fun _ => ?_)
      · split
        · rename_i z7 z8 z9
          have h10 : Within M s z8 := Within.of_fst z9 (State.useSlot_in (hM.of rfl) h5)
          exact Within.mk1 h10
        · rename_i z11 z12 z13 z14
          have h15 : Within M s z12 := Within.of_fst z14 (State.useSlot_in (hM.of rfl) h5)
          split
          · exact Within.mk1 h15
          · refine Within.ite1 ?_ (fun _ => ?_)
            · exact Within.mk1 h15
            · exact State.putKey_in (hM.of rfl) h15
      · exact Within.mk1 h5
    · exact Within.mk1 h5
  · exact Within.mk1 h5

theorem execLbImport_in {p1} {p2} {p3} (hM : Incl 0x49400010080220c M) : WithinRes M s (execLbImport p1 p2 p3 s) := by
  have h : Within M s s := Within.refl s
  unfold execLbImport
  refine WithinRes.next ?_
  refine State.lbRun_in (hM.of rfl) h (fun y1 y2 h3 => ?_)
  refine Within.ite1 ?_ (fun _ => ?_)
  · refine Within.ite1 ?_ (fun _ => ?_)
    · refine Within.ite1 ?_ (fun _ => ?_)
      · exact State.importKey_in (hM.of rfl) h3
      · exact State.importPub_in (hM.of rfl) h3
    · exact Within.mk1 h3
  · exact Within.mk1 h3

theorem State.deriveKey_in {p2} {p3} (hM : Incl 0x414000100802204 M) (h : Within M s x) : Within M s (State.deriveKey x p2 p3).1 := by
  unfold State.deriveKey
  extract_lets -merge +onlyGivenNames v1 v2 v3 v4 v5 v6
  clear_value v1 v2 v3 v4 v5 v6
  extract_lets -merge +onlyGivenNames v7
  have h8 : Within M s v7 := State.expireNow_in (hM.of rfl) h
  clear_value v7
  extract_lets -merge +onlyGivenNames v9
  clear_value v9
  refine Within.ite1 ?_ (fun _ => ?_)
  · refine Within.ite1 ?_ (fun _ => ?_)
    · refine Within.ite1 ?_ (fun _ => ?_)
      · refine Within.ite1 ?_ (fun _ => ?_)
        · split
          · rename_i z10 z11 z12
            have h13 : Within M s z11 := Within.of_fst z12 (State.useSlot_in (hM.of rfl) h8)
            exact Within.mk1 h13
          · rename_i z14 z15 z16 z17
            have h18 : Within M s z15 := Within.of_fst z17 (State.useSlot_in (hM.of rfl) h8)
            extract_lets -merge +onlyGivenNames v19 v20 v21
            clear_value v19 v20 v21
            exact State.putKey_in (hM.of rfl) h18
        · exact Within.mk1 h8
      · exact Within.mk1 h8
    · exact Within.mk1 h8
  · exact Within.mk1 h8

theorem execDerive_in {p1} {p2} {p3} (hM : Incl 0x49400010080220c M) : WithinRes M s (execDerive p1 p2 p3 s) := by
  have h : Within M s s := Within.refl s
  unfold execDerive
  refine WithinRes.next ?_
  refine State.lbRun_in (hM.of rfl) h (fun y1 y2 h3 => ?_)
  refine Within.ite1 ?_ (fun _ => ?_)
  · refine Within.ite1 ?_ (fun _ => ?_)
    · exact State.deriveKey_in (hM.of rfl) h3
    · exact Within.mk1 h3
  · exact Within.mk1 h3

theorem State.invalidateFamily_in {p2} (hM : Incl 0x414000100800204 M) (h : Within M s x) : Within M s (State.invalidateFamily x p2).1 := by
  unfold State.invalidateFamily
  extract_lets -merge +onlyGivenNames v1
  clear_value v1
  extract_lets -merge +onlyGivenNames v2
  have h3 : Within M s v2 := by
    unfold v2
    refine Within.forEach ?_ (fun y4 y5 h6 => ?_)
    · exact h
    · exact State.setCat_in (hM.of rfl) (State.zeroiseSlot_in (hM.of rfl) h6)
  clear_value v2
  refine Within.mk1 ?_
  refine Within.ite ?_ (fun _ => ?_)
  · exact State.notice_in (hM.of rfl) h3
  · exact h3

theorem execInvalidate_in {p1} {p2} {p3} (hM : Incl 0x49400010080020c M) : WithinRes M s (execInvalidate p1 p2 p3 s) := by
  have h : Within M s s := Within.refl s
  unfold execInvalidate
  refine WithinRes.next ?_
  refine State.lbRun_in (hM.of rfl) h (fun y1 y2 h3 => ?_)
  refine Within.ite1 ?_ (fun _ => ?_)
  · refine Within.ite1 ?_ (fun _ => ?_)
    · split
      rename_i z4 z5 z6 z7
      have h8 : Within M s z5 := Within.of_fst z7 (State.invalidateFamily_in (hM.of rfl) h3)
      exact Within.mk1 h8
    · exact Within.mk1 h3
  · exact Within.mk1 h3

theorem State.deleteSlot_in {p2} (hM : Incl 0x414000100800204 M) (h : Within M s x) : Within M s (State.deleteSlot x p2).1 := by
  unfold State.deleteSlot
  extract_lets -merge +onlyGivenNames v1
  clear_value v1
  refine Within.ite1 ?_ (fun _ => ?_)
  · refine Within.ite1 ?_ (fun _ => ?_)
    · extract_lets -merge +onlyGivenNames v2
      have h3 : Within M s v2 := State.zeroiseSlot_in (hM.of rfl) h
      clear_value v2
      extract_lets -merge +onlyGivenNames v4
      clear_value v4
      extract_lets -merge +onlyGivenNames v5
      have h6 : Within M s v5 := Within.set_key h3 (hM.of rfl)
      clear_value v5
      exact Within.mk1 (State.setCat_in (hM.of rfl) h6)
    · exact Within.mk1 h
  · exact Within.mk1 h

theorem execLbDelete_in {p1} {p2} {p3} (hM : Incl 0x49400010080020c M) : WithinRes M s (execLbDelete p1 p2 p3 s) := by
  have h : Within M s s := Within.refl s
  unfold execLbDelete
  refine WithinRes.next ?_
  refine State.lbRun_in (hM.of rfl) h (fun y1 y2 h3 => ?_)
  refine Within.ite1 ?_ (fun _ => ?_)
  · refine Within.ite1 ?_ (fun _ => ?_)
    · exact State.deleteSlot_in (hM.of rfl) h3
    · exact Within.mk1 h3
  · exact Within.mk1 h3

theorem execSeal_in {p1} {p2} {p3} (hM : Incl 0x49400010080020c M) : WithinRes M s (execSeal p1 p2 p3 s) := by
  have h : Within M s s := Within.refl s
  unfold execSeal
  refine WithinRes.next ?_
  refine State.lbRun_in (hM.of rfl) h (fun y1 y2 h3 => ?_)
  refine Within.ite1 ?_ (fun _ => ?_)
  · refine Within.ite1 ?_ (fun _ => ?_)
    · split
      · rename_i z4 z5 z6
        have h7 : Within M s z5 := Within.of_fst z6 (State.useSlot_in (hM.of rfl) h3)
        exact Within.mk1 h7
      · rename_i z8 z9 z10 z11
        have h12 : Within M s z9 := Within.of_fst z11 (State.useSlot_in (hM.of rfl) h3)
        extract_lets -merge +onlyGivenNames v13
        have h14 : Within M s v13 := State.inc_in (hM.of rfl) (hM.of rfl) h12
        clear_value v13
        extract_lets -merge +onlyGivenNames v15
        clear_value v15
        exact Within.mk1 (State.emit_in (hM.of rfl) h14)
    · exact Within.mk1 h3
  · exact Within.mk1 h3

theorem execGetCert_in {p1} {p2} {p3} (hM : Incl 0x49000010080000c M) : WithinRes M s (execGetCert p1 p2 p3 s) := by
  have h : Within M s s := Within.refl s
  unfold execGetCert
  refine WithinRes.next ?_
  refine State.lbRun_in (hM.of rfl) h (fun y1 y2 h3 => ?_)
  refine Within.ite1 ?_ (fun _ => ?_)
  · refine Within.ite1 ?_ (fun _ => ?_)
    · exact Within.mk1 (State.emit_in (hM.of rfl) h3)
    · exact Within.mk1 h3
  · exact Within.mk1 h3

theorem execGetChallenge_in {p1} {p2} {p3} (hM : Incl 0x49000050080020c M) : WithinRes M s (execGetChallenge p1 p2 p3 s) := by
  have h : Within M s s := Within.refl s
  unfold execGetChallenge
  refine WithinRes.next ?_
  refine State.lbRun_in (hM.of rfl) h (fun y1 y2 h3 => ?_)
  refine Within.ite1 ?_ (fun _ => ?_)
  · refine Within.ite1 ?_ (fun _ => ?_)
    · split
      rename_i z4 z5 z6 z7
      have h8 : Within M s z5 := Within.of_fst z7 (State.newChallenge_in (hM.of rfl) h3)
      exact Within.mk1 (State.emit_in (hM.of rfl) h8)
    · exact Within.mk1 h3
  · exact Within.mk1 h3

theorem State.eraseSlots_in {p2} (hM : Incl 0x414000100800204 M) (h : Within M s x) : Within M s (State.eraseSlots x p2) := by
  unfold State.eraseSlots
  refine Within.forEach ?_ (fun y1 y2 h3 => ?_)
  · exact h
  · extract_lets -merge +onlyGivenNames v4
    have h5 : Within M s v4 := State.zeroiseSlot_in (hM.of rfl) h3
    clear_value v4
    extract_lets -merge +onlyGivenNames v6
    clear_value v6
    extract_lets -merge +onlyGivenNames v7
    have h8 : Within M s v7 := Within.set_key h5 (hM.of rfl)
    clear_value v7
    exact State.setCat_in (hM.of rfl) h8

theorem State.eraseCounters_in (hM : Incl 0x200 M) (h : Within M s x) : Within M s (State.eraseCounters x) := by
  unfold State.eraseCounters
  exact Within.set_key h (hM.of rfl)

theorem State.burn_in {p2} (hM : Incl 0x410000100800204 M) (h : Within M s x) : Within M s (State.burn x p2) := by
  unfold State.burn
  exact State.notice_in (hM.of rfl) (Within.set_key h (hM.of rfl))

theorem State.lcMove_in {p2} {p3} {p4} {p5} {p6} {p7} {p8} {p9} (hM : Incl 0x410000100800204 M) (h : Within M s x) (kp9 : ∀ b1 b2, Within M s b2 → Within M s (p9 b1 b2).1) : Within M s (State.lcMove x p2 p3 p4 p5 p6 p7 p8 p9).1 := by
  unfold State.lcMove
  extract_lets -merge +onlyGivenNames v1
  clear_value v1
  refine Within.ite1 ?_ (fun _ => ?_)
  · refine Within.ite1 ?_ (fun _ => ?_)
    · refine Within.ite1 ?_ (fun _ => ?_)
      · refine Within.ite1 ?_ (fun _ => ?_)
        · split
          · rename_i z2 z3 z4
            have h5 : Within M s z3 := Within.of_fst z4 (kp9 _ _ (State.spendChallenge_in (hM.of rfl) h))
            exact Within.mk1 h5
          · rename_i z6 z7 z8
            have h9 : Within M s z7 := Within.of_fst z8 (kp9 _ _ (State.spendChallenge_in (hM.of rfl) h))
            refine Within.ite1 ?_ (fun _ => ?_)
            · exact Within.mk1 (State.burn_in (hM.of rfl) h9)
            · exact Within.mk1 h9
        · exact Within.mk1 h
      · exact Within.mk1 h
    · exact Within.mk1 h
  · exact Within.mk1 h

theorem State.takeOwner_in {p2} {p3} (hM : Incl 0x414000100802204 M) (h : Within M s x) : Within M s (State.takeOwner x p2 p3).1 := by
  unfold State.takeOwner
  extract_lets -merge +onlyGivenNames v1
  have h2 : Within M s v1 := State.eraseCounters_in (hM.of rfl) (State.eraseSlots_in (hM.of rfl) h)
  clear_value v1
  refine Within.ite1 ?_ (fun _ => ?_)
  · extract_lets -merge +onlyGivenNames v3
    clear_value v3
    extract_lets -merge +onlyGivenNames v4
    have h5 : ∀ b1 b2 b3 b4 b5 b6, Within M s b1 → Within M s (v4 b1 b2 b3 b4 b5 b6) := by
      intro y6 y7 y8 y9 y10 y11 h12
      unfold v4
      exact State.putKey_in (hM.of rfl) h12
    clear_value v4
    extract_lets -merge +onlyGivenNames v13
    have h14 : Within M s v13 := by
      unfold v13
      refine h5 _ _ _ _ _ _ ?_
      exact h5 _ _ _ _ _ _ h2
    clear_value v13
    exact Within.mk1 h14
  · exact Within.mk1 h2

theorem execTakeOwnership_in {p1} {p2} {p3} (hM : Incl 0x49400010080220c M) : WithinRes M s (execTakeOwnership p1 p2 p3 s) := by
  have h : Within M s s := Within.refl s
  unfold execTakeOwnership
  refine WithinRes.next ?_
  refine State.lbRun_in (hM.of rfl) h (fun y1 y2 h3 => ?_)
  refine State.lcMove_in (hM.of rfl) h3 (fun y4 y5 h6 => ?_)
  exact State.takeOwner_in (hM.of rfl) h6

theorem execLbLock_in {p1} {p2} {p3} (hM : Incl 0x49000010080020c M) : WithinRes M s (execLbLock p1 p2 p3 s) := by
  have h : Within M s s := Within.refl s
  unfold execLbLock
  refine WithinRes.next ?_
  refine State.lbRun_in (hM.of rfl) h (fun y1 y2 h3 => ?_)
  refine State.lcMove_in (hM.of rfl) h3 (fun y4 y5 h6 => ?_)
  exact Within.mk1 h6

theorem State.scrapAll_in (hM : Incl 0x414000100800204 M) (h : Within M s x) : Within M s (State.scrapAll x) := by
  unfold State.scrapAll
  extract_lets -merge +onlyGivenNames v1
  have h2 : Within M s v1 := State.eraseCounters_in (hM.of rfl) (State.eraseSlots_in (hM.of rfl) h)
  clear_value v1
  exact State.showKeyStat_in (hM.of rfl) (Within.set_key h2 (hM.of rfl))

theorem execScrap_in {p1} {p2} {p3} (hM : Incl 0x49400010080020c M) : WithinRes M s (execScrap p1 p2 p3 s) := by
  have h : Within M s s := Within.refl s
  unfold execScrap
  refine WithinRes.next ?_
  refine State.lbRun_in (hM.of rfl) h (fun y1 y2 h3 => ?_)
  extract_lets -merge +onlyGivenNames v4 v5 v6
  clear_value v4 v5 v6
  refine State.lcMove_in (hM.of rfl) h3 (fun y7 y8 h9 => ?_)
  exact Within.mk1 (State.scrapAll_in (hM.of rfl) h9)

theorem execKeyExpiry_in {p1} {p2} (hM : Incl 0x414000100800206 M) : WithinRes M s (execKeyExpiry p1 p2 s) := by
  have h : Within M s s := Within.refl s
  unfold execKeyExpiry
  extract_lets -merge +onlyGivenNames v1
  have h2 : Within M s v1 := State.advance_in (hM.of rfl) h
  clear_value v1
  refine WithinRes.next ?_
  refine Within.ite ?_ (fun _ => ?_)
  · exact h2
  · exact State.expireNow_in (hM.of rfl) h2

theorem State.writeCounters_in (hM : Incl 0x200 M) (h : Within M s x) : Within M s (State.writeCounters x) := by
  unfold State.writeCounters
  extract_lets -merge +onlyGivenNames v1 v2
  clear_value v1 v2
  refine Within.ite ?_ (fun _ => ?_)
  · exact Within.set_key h (hM.of rfl)
  · exact Within.set_key h (hM.of rfl)

theorem execReserveWriteDone_in {p1} (hM : Incl 0x4000000000200 M) : WithinRes M s (execReserveWriteDone p1 s) := by
  have h : Within M s s := Within.refl s
  unfold execReserveWriteDone
  extract_lets -merge +onlyGivenNames v1 v2
  clear_value v1 v2
  refine WithinRes.next ?_
  split
  · exact h
  · exact State.reserve_in (hM.of rfl) (State.writeCounters_in (hM.of rfl) (State.setRun_in (hM.of rfl) h))

theorem execCounterTableWrite_in {p1} (hM : Incl 0x202 M) : WithinRes M s (execCounterTableWrite p1 s) := by
  have h : Within M s s := Within.refl s
  unfold execCounterTableWrite
  extract_lets -merge +onlyGivenNames v1
  have h2 : Within M s v1 := State.advance_in (hM.of rfl) h
  clear_value v1
  refine WithinRes.next ?_
  refine Within.ite ?_ (fun _ => ?_)
  · exact h2
  · exact State.writeCounters_in (hM.of rfl) h2

theorem State.showChallenge_in {p2} (hM : Incl 0x400000000 M) (h : Within M s x) : Within M s (State.showChallenge x p2) := by
  unfold State.showChallenge
  refine Within.forEach ?_ (fun y1 y2 h3 => ?_)
  · exact h
  · exact State.wr_in (hM.of rfl) h3

theorem State.chalWrite_in {p2} (hM : Incl 0x400000200 M) (h : Within M s x) : Within M s (State.chalWrite x p2) := by
  unfold State.chalWrite
  refine Within.ite ?_ (fun _ => ?_)
  · split
    rename_i z1 z2 z3 z4
    have h5 : Within M s z2 := Within.of_fst z4 (State.newChallenge_in (hM.of rfl) h)
    exact State.showChallenge_in (hM.of rfl) h5
  · exact h

theorem State.submitWrite_in {p2} (hM : Incl 0x1200 M) (h : Within M s x) : Within M s (State.submitWrite x p2) := by
  unfold State.submitWrite
  refine Within.ite ?_ (fun _ => ?_)
  · extract_lets -merge +onlyGivenNames v1 v2 v3
    clear_value v1 v2 v3
    extract_lets -merge +onlyGivenNames v4
    have h5 : Within M s v4 := by
      unfold v4
      refine Within.ite ?_ (fun _ => ?_)
      · exact h
      · exact State.spendChallenge_in (hM.of rfl) h
    clear_value v4
    exact Within.set_strt h5 (hM.of rfl)
  · exact h

theorem execChalReq_in {p1} (hM : Incl 0x410000500804204 M) : WithinRes M s (execChalReq p1 s) := by
  have h : Within M s s := Within.refl s
  unfold execChalReq
  refine WithinRes.next ?_
  refine State.hostGate_in (hM.of rfl) h (fun y1 h2 => ?_)
  exact State.chalWrite_in (hM.of rfl) h2

theorem execSubmit_in {p1} (hM : Incl 0x410000100805204 M) : WithinRes M s (execSubmit p1 s) := by
  have h : Within M s s := Within.refl s
  unfold execSubmit
  refine WithinRes.next ?_
  refine State.hostGate_in (hM.of rfl) h (fun y1 h2 => ?_)
  exact State.submitWrite_in (hM.of rfl) h2

theorem execSvcAuthDone_in {p1} (hM : Incl 0x410000500801006 M) : WithinRes M s (execSvcAuthDone p1 s) := by
  have h : Within M s s := Within.refl s
  unfold execSvcAuthDone
  extract_lets -merge +onlyGivenNames v1
  have h2 : Within M s v1 := State.advance_in (hM.of rfl) h
  clear_value v1
  refine WithinRes.next ?_
  split
  · exact h2
  · extract_lets -merge +onlyGivenNames v3
    clear_value v3
    extract_lets -merge +onlyGivenNames v4
    have h5 : Within M s v4 := Within.set_strt h2 (hM.of rfl)
    clear_value v4
    extract_lets -merge +onlyGivenNames v6
    have h7 : Within M s v6 := by
      unfold v6
      refine Within.ite ?_ (fun _ => ?_)
      · exact State.wr_in (hM.of rfl) h5
      · exact State.saveRec_in (hM.of rfl) (State.wr_in (hM.of rfl) (State.setFlag_in (hM.of rfl) (hM.of rfl) h5))
    clear_value v6
    exact State.notice_in (hM.of rfl) h7

theorem execChallengeExpiry_in {p1} (hM : Incl 0x400000202 M) : WithinRes M s (execChallengeExpiry p1 s) := by
  have h : Within M s s := Within.refl s
  unfold execChallengeExpiry
  extract_lets -merge +onlyGivenNames v1
  have h2 : Within M s v1 := State.advance_in (hM.of rfl) h
  clear_value v1
  extract_lets -merge +onlyGivenNames v3
  have h4 : Within M s v3 := by
    unfold v3
    split
    · refine Within.ite ?_ (fun _ => ?_)
      · exact h2
      · exact State.spendChallenge_in (hM.of rfl) h2
    · exact h2
  clear_value v3
  refine WithinRes.next ?_
  refine Within.ite ?_ (fun _ => ?_)
  · exact h4
  · exact State.wr_in (hM.of rfl) h4

theorem State.flashPut_in {p2} {p3} (hM : Incl 0x2000 M) (h : Within M s x) : Within M s (State.flashPut x p2 p3) := by
  unfold State.flashPut
  refine Within.forEach ?_ (fun y1 y2 h3 => ?_)
  · exact h
  · extract_lets -merge +onlyGivenNames v4
    clear_value v4
    exact Within.set_nvs h3 (hM.of rfl)

theorem execFlashRead_in {p1} {p2} {p3} (hM : Incl 0x49000010080000c M) : WithinRes M s (execFlashRead p1 p2 p3 s) := by
  have h : Within M s s := Within.refl s
  unfold execFlashRead
  refine WithinRes.next ?_
  refine State.lbRun_in (hM.of rfl) h (fun y1 y2 h3 => ?_)
  refine Within.ite1 ?_ (fun _ => ?_)
  · refine Within.ite1 ?_ (fun _ => ?_)
    · refine Within.ite1 ?_ (fun _ => ?_)
      · refine Within.ite1 ?_ (fun _ => ?_)
        · exact Within.mk1 (State.emit_in (hM.of rfl) h3)
        · exact Within.mk1 h3
      · exact Within.mk1 h3
    · exact Within.mk1 h3
  · exact Within.mk1 h3

theorem State.flashStart_in {p2} {p3} {p4} {p5} {p6} {p7} (hM : Incl 0x802000 M) (h : Within M s x) : Within M s (State.flashStart x p2 p3 p4 p5 p6 p7).1 := by
  unfold State.flashStart
  refine Within.ite1 ?_ (fun _ => ?_)
  · exact Within.mk1 (State.emit_in (hM.of rfl) (Within.set_nvs h (hM.of rfl)))
  · exact Within.mk1 h

theorem execFlashErase_in {p1} {p2} {p3} (hM : Incl 0x49000010080200c M) : WithinRes M s (execFlashErase p1 p2 p3 s) := by
  have h : Within M s s := Within.refl s
  unfold execFlashErase
  refine WithinRes.next ?_
  refine State.lbRun_in (hM.of rfl) h (fun y1 y2 h3 => ?_)
  extract_lets -merge +onlyGivenNames v4 v5
  clear_value v4 v5
  refine Within.ite1 ?_ (fun _ => ?_)
  · refine Within.ite1 ?_ (fun _ => ?_)
    · refine Within.ite1 ?_ (fun _ => ?_)
      · refine Within.ite1 ?_ (fun _ => ?_)
        · exact State.flashStart_in (hM.of rfl) h3
        · exact Within.mk1 h3
      · exact Within.mk1 h3
    · exact Within.mk1 h3
  · exact Within.mk1 h3

theorem execFlashWrite_in {p1} {p2} {p3} (hM : Incl 0x49000010080200c M) : WithinRes M s (execFlashWrite p1 p2 p3 s) := by
  have h : Within M s s := Within.refl s
  unfold execFlashWrite
  refine WithinRes.next ?_
  refine State.lbRun_in (hM.of rfl) h (fun y1 y2 h3 => ?_)
  extract_lets -merge +onlyGivenNames v4
  clear_value v4
  refine Within.ite1 ?_ (fun _ => ?_)
  · refine Within.ite1 ?_ (fun _ => ?_)
    · refine Within.ite1 ?_ (fun _ => ?_)
      · refine Within.ite1 ?_ (fun _ => ?_)
        · refine Within.ite1 ?_ (fun _ => ?_)
          · exact State.flashStart_in (hM.of rfl) h3
          · exact Within.mk1 h3
        · exact Within.mk1 h3
      · exact Within.mk1 h3
    · exact Within.mk1 h3
  · exact Within.mk1 h3

theorem execImageCheck_in {p1} {p2} {p3} (hM : Incl 0x49000010080000c M) : WithinRes M s (execImageCheck p1 p2 p3 s) := by
  have h : Within M s s := Within.refl s
  unfold execImageCheck
  refine WithinRes.next ?_
  refine State.lbRun_in (hM.of rfl) h (fun y1 y2 h3 => ?_)
  refine Within.ite1 ?_ (fun _ => ?_)
  · refine Within.ite1 ?_ (fun _ => ?_)
    · refine Within.ite1 ?_ (fun _ => ?_)
      · extract_lets -merge +onlyGivenNames v4
        clear_value v4
        exact Within.mk1 h3
      · exact Within.mk1 h3
    · exact Within.mk1 h3
  · exact Within.mk1 h3

theorem execFlashOpDone_in {p1} {p2} (hM : Incl 0xacd001010180201e M) : WithinRes M s (execFlashOpDone p1 p2 s) := by
  have h : Within M s s := Within.refl s
  unfold execFlashOpDone
  extract_lets -merge +onlyGivenNames v1
  have h2 : Within M s v1 := State.advance_in (hM.of rfl) h
  clear_value v1
  refine WithinRes.next ?_
  split
  · exact h2
  · extract_lets -merge +onlyGivenNames v3
    clear_value v3
    extract_lets -merge +onlyGivenNames v4
    have h5 : Within M s v4 := Within.set_nvs h2 (hM.of rfl)
    clear_value v4
    refine Within.ite ?_ (fun _ => ?_)
    · extract_lets -merge +onlyGivenNames v6
      clear_value v6
      extract_lets -merge +onlyGivenNames v7
      have h8 : Within M s v7 := Within.set_free h5 (hM.of rfl)
      clear_value v7
      exact State.lbDone_in (hM.of rfl) (State.flashPut_in (hM.of rfl) h8)
    · extract_lets -merge +onlyGivenNames v9 v10 v11 v12
      clear_value v9 v10 v11 v12
      extract_lets -merge +onlyGivenNames v13
      have h14 : Within M s v13 := State.flashPut_in (hM.of rfl) h5
      clear_value v13
      extract_lets -merge +onlyGivenNames v15
      clear_value v15
      extract_lets -merge +onlyGivenNames v16
      have h17 : Within M s v16 := by
        unfold v16
        refine Within.ite ?_ (fun _ => ?_)
        · exact h14
        · exact Within.set_nvs h14 (hM.of rfl)
      clear_value v16
      exact State.lbDone_in (hM.of rfl) h17

end Sys2Proof.Machine
end

