-- ==== Sys2Proof/Laws/WithinStore.lean ====
section
/-! SUPPORT. What each operation and each meaning may change: the pair's link, the Logbook, health, the rings and the sorters. -/
namespace Sys2Proof.Machine

variable {M : Nat} {s x : State}

theorem State.sorterRest_in {p2} (hM : Incl 0x200000000000008 M) (h : Within M s x) : Within M s (State.sorterRest x p2) := by
  unfold State.sorterRest
  refine Within.ite ?_ (fun _ => ?_)
  · refine Within.ite ?_ (fun _ => ?_)
    · refine Within.ite ?_ (fun _ => ?_)
      · refine Within.ite ?_ (fun _ => ?_)
        · exact State.sorterOff_in (hM.of rfl) h
        · exact h
      · exact h
    · refine Within.ite ?_ (fun _ => ?_)
      · exact h
      · exact State.sorterOff_in (hM.of rfl) h
  · exact h

theorem State.finishItem_in {p2} {p3} {p4} (hM : Incl 0xaed20121008040bc M) (h : Within M s x) : Within M s (State.finishItem x p2 p3 p4) := by
  unfold State.finishItem
  extract_lets -merge +onlyGivenNames v1
  have h2 : Within M s v1 := State.traceEv_in (hM.of rfl) (State.completeItem_in (hM.of rfl) h)
  clear_value v1
  extract_lets -merge +onlyGivenNames v3
  have h4 : Within M s v3 := State.chargeSorter_in (hM.of rfl) (State.bump64_in (hM.of rfl) (hM.of rfl) h2)
  clear_value v3
  exact State.sorterRest_in (hM.of rfl) (State.kick_in (hM.of rfl) (State.sorterNext_in (hM.of rfl) (State.moveQuiet_in (hM.of rfl) h4)))

theorem execItemEnd_in {p1} {p2} {p3} (hM : Incl 0xaed20121008040be M) : WithinRes M s (execItemEnd p1 p2 p3 s) := by
  have h : Within M s s := Within.refl s
  unfold execItemEnd
  extract_lets -merge +onlyGivenNames v1
  have h2 : Within M s v1 := State.advance_in (hM.of rfl) h
  clear_value v1
  split
  · exact WithinRes.next h2
  · refine WithinRes.next ?_
    refine Within.ite ?_ (fun _ => ?_)
    · exact h2
    · exact State.finishItem_in (hM.of rfl) h2

theorem execItemStealable_in {p1} {p2} (hM : Incl 0xac5001010080001e M) : WithinRes M s (execItemStealable p1 p2 s) := by
  have h : Within M s s := Within.refl s
  unfold execItemStealable
  exact WithinRes.next (State.sorterNext_in (hM.of rfl) (State.advance_in (hM.of rfl) h))

theorem execItemExpiry_in {p1} {p2} (hM : Incl 0x200acd20d21019040be M) : WithinRes M s (execItemExpiry p1 p2 s) := by
  have h : Within M s s := Within.refl s
  unfold execItemExpiry
  extract_lets -merge +onlyGivenNames v1
  have h2 : Within M s v1 := State.advance_in (hM.of rfl) h
  clear_value v1
  split
  · exact WithinRes.next h2
  · refine WithinRes.ite ?_ ?_
    · exact WithinRes.next (State.kick_in (hM.of rfl) (State.expireItem_in (hM.of rfl) h2))
    · exact WithinRes.next h2

theorem State.setKat_in {p2} {p3} (hM : Incl 0x8 M) (h : Within M s x) : Within M s (State.setKat x p2 p3) := by
  unfold State.setKat
  exact State.setSrtHid_in (hM.of rfl) h

theorem State.katOutcome_in {p2} {p3} (hM : Incl 0x219aed6ff27019bdebc M) (h : Within M s x) : Within M s (State.katOutcome x p2 p3) := by
  unfold State.katOutcome
  extract_lets -merge +onlyGivenNames v1
  have h2 : Within M s v1 := State.setKat_in (hM.of rfl) h
  clear_value v1
  refine Within.ite ?_ (fun _ => ?_)
  · exact State.fence_in (hM.of rfl) h2
  · exact State.sorterNext_in (hM.of rfl) h2

theorem State.timeLimit_in {p2} {p3} {p4} (hM : Incl 0x219aed6ff27019bdebc M) (h : Within M s x) : Within M s (State.timeLimit x p2 p3 p4) := by
  unfold State.timeLimit
  extract_lets -merge +onlyGivenNames v1
  have h2 : Within M s v1 := State.setKat_in (hM.of rfl) (State.notice_in (hM.of rfl) h)
  clear_value v1
  extract_lets -merge +onlyGivenNames v3
  have h4 : Within M s v3 := by
    unfold v3
    refine Within.ite ?_ (fun _ => ?_)
    · exact State.cancelItem_in (hM.of rfl) h2
    · exact State.reissue_in (hM.of rfl) h2
  clear_value v3
  exact State.kick_in (hM.of rfl) (State.katOutcome_in (hM.of rfl) h4)

theorem execItemTimeLimit_in {p1} {p2} {p3} (hM : Incl 0x219aed6ff27019bdebe M) : WithinRes M s (execItemTimeLimit p1 p2 p3 s) := by
  have h : Within M s s := Within.refl s
  unfold execItemTimeLimit
  extract_lets -merge +onlyGivenNames v1
  have h2 : Within M s v1 := State.advance_in (hM.of rfl) h
  clear_value v1
  split
  · exact WithinRes.next h2
  · refine WithinRes.next ?_
    refine Within.ite ?_ (fun _ => ?_)
    · exact State.timeLimit_in (hM.of rfl) h2
    · exact h2

theorem State.cancelWrite_in {p2} (hM : Incl 0x200acd20d21019040bc M) (h : Within M s x) : Within M s (State.cancelWrite x p2) := by
  unfold State.cancelWrite
  extract_lets -merge +onlyGivenNames v1
  clear_value v1
  refine Within.ite ?_ (fun _ => ?_)
  · refine Within.ite ?_ (fun _ => ?_)
    · extract_lets -merge +onlyGivenNames v2
      have h3 : Within M s v2 := by
        unfold v2
        refine Within.forEach ?_ (fun y4 y5 h6 => ?_)
        · exact h
        · refine Within.ite ?_ (fun _ => ?_)
          · exact State.cancelItem_in (hM.of rfl) h6
          · exact State.expireItem_in (hM.of rfl) h6
      clear_value v2
      exact State.kick_in (hM.of rfl) (State.notice_in (hM.of rfl) (State.wr_in (hM.of rfl) h3))
    · exact State.notice_in (hM.of rfl) (State.wr_in (hM.of rfl) h)
  · exact h

theorem execHostCancel_in {p1} (hM : Incl 0x200acd20d21019040bc M) : WithinRes M s (execHostCancel p1 s) := by
  have h : Within M s s := Within.refl s
  unfold execHostCancel
  refine WithinRes.next ?_
  refine State.hostGate_in (hM.of rfl) h (fun y1 h2 => ?_)
  exact State.cancelWrite_in (hM.of rfl) h2

theorem State.clusterDue_in (hM : Incl 0xac5009010090001c M) (h : Within M s x) : Within M s (State.clusterDue x) := by
  unfold State.clusterDue
  extract_lets -merge +onlyGivenNames v1
  clear_value v1
  refine Within.ite ?_ (fun _ => ?_)
  · extract_lets -merge +onlyGivenNames v2
    clear_value v2
    extract_lets -merge +onlyGivenNames v3
    have h4 : Within M s v3 := Within.set_isl h (hM.of rfl)
    clear_value v3
    refine Within.ite ?_ (fun _ => ?_)
    · exact State.enqueueC3_in (hM.of rfl) h4
    · exact State.inc_in (hM.of rfl) (hM.of rfl) h4
  · exact h

theorem execHousekeepingTimer_in {p1} {p2} (hM : Incl 0xac5009010090001e M) : WithinRes M s (execHousekeepingTimer p1 p2 s) := by
  have h : Within M s s := Within.refl s
  unfold execHousekeepingTimer
  extract_lets -merge +onlyGivenNames v1
  have h2 : Within M s v1 := State.advance_in (hM.of rfl) h
  clear_value v1
  refine WithinRes.ite ?_ ?_
  · split
    · exact WithinRes.next (State.clusterDue_in (hM.of rfl) h2)
    · refine WithinRes.next ?_
      refine Within.ite ?_ (fun _ => ?_)
      · exact State.enqueueC3_in (hM.of rfl) h2
      · exact h2
    · exact WithinRes.next (State.enqueueC3_in (hM.of rfl) h2)
  · exact WithinRes.next h2

theorem State.sleepIf_in {p2} (hM : Incl 0x200000000000000 M) (h : Within M s x) : Within M s (State.sleepIf x p2) := by
  unfold State.sleepIf
  extract_lets -merge +onlyGivenNames v1
  refine Within.ite ?_ (fun _ => ?_)
  · exact h
  · exact State.setSrtState_in (hM.of rfl) h

theorem State.sleepAll_in (hM : Incl 0x200000000000000 M) (h : Within M s x) : Within M s (State.sleepAll x) := by
  unfold State.sleepAll
  refine Within.ite ?_ (fun _ => ?_)
  · exact h
  · refine Within.forEach ?_ (fun y1 y2 h3 => ?_)
    · exact h
    · exact State.sleepIf_in (hM.of rfl) h3

theorem execNapEntry_in {p1} {p2} (hM : Incl 0x200000000000002 M) : WithinRes M s (execNapEntry p1 p2 s) := by
  have h : Within M s s := Within.refl s
  unfold execNapEntry
  extract_lets -merge +onlyGivenNames v1
  have h2 : Within M s v1 := State.advance_in (hM.of rfl) h
  clear_value v1
  extract_lets -merge +onlyGivenNames v3 v4
  clear_value v3 v4
  refine WithinRes.ite ?_ ?_
  · exact WithinRes.next h2
  · exact WithinRes.next (State.sleepIf_in (hM.of rfl) (State.setSrtState_in (hM.of rfl) h2))

theorem execScheduledWake_in {p1} {p2} (hM : Incl 0x45001010080001e M) : WithinRes M s (execScheduledWake p1 p2 s) := by
  have h : Within M s s := Within.refl s
  unfold execScheduledWake
  extract_lets -merge +onlyGivenNames v1
  have h2 : Within M s v1 := State.advance_in (hM.of rfl) h
  clear_value v1
  extract_lets -merge +onlyGivenNames v3
  clear_value v3
  refine WithinRes.ite ?_ ?_
  · exact WithinRes.next h2
  · exact WithinRes.next (State.wake_in (hM.of rfl) h2)

theorem State.wakeDone_in {p2} (hM : Incl 0xae5001010080001c M) (h : Within M s x) : Within M s (State.wakeDone x p2) := by
  unfold State.wakeDone
  extract_lets -merge +onlyGivenNames v1
  clear_value v1
  split
  · exact h
  · extract_lets -merge +onlyGivenNames v2
    have h3 : Within M s v2 := State.inc_in (hM.of rfl) (hM.of rfl) (State.setSrtHid_in (hM.of rfl) (State.setSrtState_in (hM.of rfl) h))
    clear_value v2
    extract_lets -merge +onlyGivenNames v4
    have h5 : Within M s v4 := by
      unfold v4
      split
      · rename_i z6 z7 z8
        refine Within.ite ?_ (fun _ => ?_)
        · exact h3
        · exact State.notice_in (hM.of rfl) h3
      · rename_i z9 z10
        exact h3
    clear_value v4
    exact State.sorterNext_in (hM.of rfl) h5

theorem execSorterWakeDone_in {p1} {p2} (hM : Incl 0xae5001010080001e M) : WithinRes M s (execSorterWakeDone p1 p2 s) := by
  have h : Within M s s := Within.refl s
  unfold execSorterWakeDone
  extract_lets -merge +onlyGivenNames v1
  have h2 : Within M s v1 := State.advance_in (hM.of rfl) h
  clear_value v1
  split
  · refine WithinRes.next ?_
    refine Within.ite ?_ (fun _ => ?_)
    · exact h2
    · exact State.wakeDone_in (hM.of rfl) h2
  · exact WithinRes.next h2

theorem execOffEntry_in {p1} {p2} (hM : Incl 0x20000000000000a M) : WithinRes M s (execOffEntry p1 p2 s) := by
  have h : Within M s s := Within.refl s
  unfold execOffEntry
  extract_lets -merge +onlyGivenNames v1
  have h2 : Within M s v1 := State.advance_in (hM.of rfl) h
  clear_value v1
  refine WithinRes.ite ?_ ?_
  · exact WithinRes.next h2
  · exact WithinRes.next (State.sorterOff_in (hM.of rfl) h2)

theorem execSequencerFault_in {p1} {p2} (hM : Incl 0x219aed6ff27019bdebe M) : WithinRes M s (execSequencerFault p1 p2 s) := by
  have h : Within M s s := Within.refl s
  unfold execSequencerFault
  extract_lets -merge +onlyGivenNames v1
  have h2 : Within M s v1 := State.advance_in (hM.of rfl) h
  clear_value v1
  refine WithinRes.next ?_
  refine Within.ite ?_ (fun _ => ?_)
  · exact State.fence_in (hM.of rfl) h2
  · exact h2

theorem execMaxWaitClear_in {p1} {p2} (hM : Incl 0x8410000100804004 M) : WithinRes M s (execMaxWaitClear p1 p2 s) := by
  have h : Within M s s := Within.refl s
  unfold execMaxWaitClear
  refine WithinRes.next ?_
  refine State.hostGate_in (hM.of rfl) h (fun y1 h2 => ?_)
  exact State.wr_in (hM.of rfl) h2

theorem execClsHighClear_in {p1} {p2} (hM : Incl 0x410010100804004 M) : WithinRes M s (execClsHighClear p1 p2 s) := by
  have h : Within M s s := Within.refl s
  unfold execClsHighClear
  refine WithinRes.next ?_
  refine State.hostGate_in (hM.of rfl) h (fun y1 h2 => ?_)
  exact State.wr_in (hM.of rfl) h2

theorem State.boundary_in {p2} {p3} {p4} (hM : Incl 0x3fffed6ffe7019bdefc M) (h : Within M s x) : Within M s (State.boundary x p2 p3 p4) := by
  unfold State.boundary
  extract_lets -merge +onlyGivenNames v1
  clear_value v1
  extract_lets -merge +onlyGivenNames v2
  have h3 : Within M s v2 := State.layoutBoundary_in (hM.of rfl) h
  clear_value v2
  extract_lets -merge +onlyGivenNames v4
  have h5 : Within M s v4 := by
    unfold v4
    refine Within.ite ?_ (fun _ => ?_)
    · exact h3
    · exact State.applyClustering_in (hM.of rfl) h3
  clear_value v4
  refine State.sleepAll_in (hM.of rfl) ?_
  refine Within.ite ?_ (fun _ => ?_)
  · exact h5
  · exact State.rnd0Boundary_in (hM.of rfl) h5

theorem State.dispatchOwn_in {p2} {p3} {p4} (hM : Incl 0x3fffed7ffe7019fdefc M) (h : Within M s x) : Within M s (State.dispatchOwn x p2 p3 p4) := by
  unfold State.dispatchOwn
  split
  rename_i z1 z2 z3 z4
  have h5 : Within M s z2 := Within.of_fst z4 (State.composeOwn_in (hM.of rfl) h)
  exact State.boundary_in (hM.of rfl) (State.dispatchBag_in (hM.of rfl) h5)

theorem execDispatch_in {p1} {p2} (hM : Incl 0x3fffed7ffe7019fdefe M) : WithinRes M s (execDispatch p1 p2 s) := by
  have h : Within M s s := Within.refl s
  unfold execDispatch
  extract_lets -merge +onlyGivenNames v1
  have h2 : Within M s v1 := State.advance_in (hM.of rfl) h
  clear_value v1
  split
  · split
    · refine WithinRes.next ?_
      refine Within.ite ?_ (fun _ => ?_)
      · exact State.dispatchOwn_in (hM.of rfl) h2
      · exact h2
    · exact WithinRes.next h2
  · exact WithinRes.next h2

theorem State.followNow_in {p2} {p3} (hM : Incl 0x3fffed7ffe7019fdefc M) (h : Within M s x) : Within M s (State.followNow x p2 p3) := by
  unfold State.followNow
  extract_lets -merge +onlyGivenNames v1
  clear_value v1
  refine Within.ite ?_ (fun _ => ?_)
  · extract_lets -merge +onlyGivenNames v2
    clear_value v2
    extract_lets -merge +onlyGivenNames v3
    have h4 : Within M s v3 := Within.set_pair h (hM.of rfl)
    clear_value v3
    extract_lets -merge +onlyGivenNames v5
    have h6 : Within M s v5 := State.wr_in (hM.of rfl) h4
    clear_value v5
    extract_lets -merge +onlyGivenNames v7
    clear_value v7
    extract_lets -merge +onlyGivenNames v8
    have h9 : Within M s v8 := State.setRnd_in (hM.of rfl) h6
    clear_value v8
    extract_lets -merge +onlyGivenNames v10
    have h11 : Within M s v10 := State.countOffGrid_in (hM.of rfl) (State.countLates_in (hM.of rfl) h9)
    clear_value v10
    exact State.boundary_in (hM.of rfl) (State.dispatchBag_in (hM.of rfl) h11)
  · exact h

theorem State.tryFollow_in {p2} {p3} (hM : Incl 0x3fffed7ffe7019fdefc M) (h : Within M s x) : Within M s (State.tryFollow x p2 p3) := by
  unfold State.tryFollow
  split
  · exact h
  · split
    extract_lets -merge +onlyGivenNames v1
    clear_value v1
    extract_lets -merge +onlyGivenNames v2
    have h3 : ∀ b1, Within M s (v2 b1) := by
      intro y4
      unfold v2
      exact Within.set_pair h (hM.of rfl)
    clear_value v2
    refine Within.ite ?_ (fun _ => ?_)
    · refine Within.ite ?_ (fun _ => ?_)
      · refine Within.ite ?_ (fun _ => ?_)
        · exact State.followNow_in (hM.of rfl) h
        · refine Within.ite ?_ (fun _ => ?_)
          · refine State.plkSend_in (hM.of rfl) ?_
            exact h3 _
          · exact h
      · refine Within.ite ?_ (fun _ => ?_)
        · refine State.plkSend_in (hM.of rfl) ?_
          exact h3 _
        · exact h
    · exact State.followNow_in (hM.of rfl) h

theorem State.followFrame_in {p2} (hM : Incl 0x3fffed7ffe7019fdefc M) (h : Within M s x) : Within M s (State.followFrame x p2) := by
  unfold State.followFrame
  extract_lets -merge +onlyGivenNames v1
  clear_value v1
  refine Within.ite ?_ (fun _ => ?_)
  · exact State.tryFollow_in (hM.of rfl) (Within.set_pair h (hM.of rfl))
  · exact h

theorem execPlkDispatch_in {p1} {p2} (hM : Incl 0x3fffed7ffe7019fdefe M) : WithinRes M s (execPlkDispatch p1 p2 s) := by
  have h : Within M s s := Within.refl s
  unfold execPlkDispatch
  refine WithinRes.next ?_
  refine State.linkRow_in (hM.of rfl) (State.advance_in (hM.of rfl) h) (fun y1 h2 => ?_)
  exact State.followFrame_in (hM.of rfl) h2

theorem execFollowLate_in {p1} {p2} (hM : Incl 0x3fffed7ffe7019fdefe M) : WithinRes M s (execFollowLate p1 p2 s) := by
  have h : Within M s s := Within.refl s
  unfold execFollowLate
  extract_lets -merge +onlyGivenNames v1
  have h2 : Within M s v1 := State.advance_in (hM.of rfl) h
  clear_value v1
  extract_lets -merge +onlyGivenNames v3
  clear_value v3
  refine WithinRes.next ?_
  refine Within.ite ?_ (fun _ => ?_)
  · exact h2
  · exact State.tryFollow_in (hM.of rfl) (State.notice_in (hM.of rfl) (State.inc_in (hM.of rfl) (hM.of rfl) h2))

theorem State.fwdLetter_in {p2} (hM : Incl 0x3fffed7ffe7019fdefc M) (h : Within M s x) : Within M s (State.fwdLetter x p2) := by
  unfold State.fwdLetter
  extract_lets -merge +onlyGivenNames v1
  clear_value v1
  extract_lets -merge +onlyGivenNames v2
  have h3 : Within M s v2 := Within.set_pair h (hM.of rfl)
  clear_value v2
  extract_lets -merge +onlyGivenNames v4
  clear_value v4
  split
  · exact State.tryFollow_in (hM.of rfl) (State.putSlot_in (hM.of rfl) (State.inc_in (hM.of rfl) (hM.of rfl) h3))
  · refine Within.ite ?_ (fun _ => ?_)
    · exact h3
    · exact State.handOver_in (hM.of rfl) h3

theorem execFwd_in {p1} (hM : Incl 0x3fffed7ffe7019fdefc M) : WithinRes M s (execFwd p1 s) := by
  have h : Within M s s := Within.refl s
  unfold execFwd
  refine WithinRes.next ?_
  refine State.linkRow_in (hM.of rfl) h (fun y1 h2 => ?_)
  exact State.fwdLetter_in (hM.of rfl) h2

theorem execFileLetter_in {p1} {p2} (hM : Incl 0x3fffed7ffe7019fdefe M) : WithinRes M s (execFileLetter p1 p2 s) := by
  have h : Within M s s := Within.refl s
  unfold execFileLetter
  extract_lets -merge +onlyGivenNames v1
  have h2 : Within M s v1 := State.advance_in (hM.of rfl) h
  clear_value v1
  split
  · split
    · refine WithinRes.next ?_
      refine Within.ite ?_ (fun _ => ?_)
      · exact h2
      · refine State.drainOverflow_in (hM.of rfl) ?_
        refine Within.forEach ?_ (fun y3 y4 h5 => ?_)
        · exact State.pairFiled_in (hM.of rfl) (State.fileLetter_in (hM.of rfl) (State.markRan_in (hM.of rfl) h2))
        · exact State.tryFollow_in (hM.of rfl) h5
    · exact WithinRes.next h2
  · exact WithinRes.next h2

theorem execRoundInstant_in {p1} {p2} (hM : Incl 0x3fffed6ffe7019bdefe M) : WithinRes M s (execRoundInstant p1 p2 s) := by
  have h : Within M s s := Within.refl s
  unfold execRoundInstant
  exact WithinRes.next (State.sleepAll_in (hM.of rfl) (State.roundInstant_in (hM.of rfl) (State.advance_in (hM.of rfl) h)))

theorem State.showSilent_in (hM : Incl 0x2000000000000 M) (h : Within M s x) : Within M s (State.showSilent x) := by
  unfold State.showSilent
  extract_lets -merge +onlyGivenNames v1
  clear_value v1
  exact State.wr_in (hM.of rfl) (State.wr_in (hM.of rfl) h)

theorem State.hbFrames_in {p2} (hM : Incl 0x800000 M) (h : Within M s x) : Within M s (State.hbFrames x p2) := by
  unfold State.hbFrames
  extract_lets -merge +onlyGivenNames v1
  clear_value v1
  refine Within.forEach ?_ (fun y2 y3 h4 => ?_)
  · exact h
  · exact State.emit_in (hM.of rfl) h4

theorem execHeartbeatSend_in {p1} (hM : Incl 0x2000000804002 M) : WithinRes M s (execHeartbeatSend p1 s) := by
  have h : Within M s s := Within.refl s
  unfold execHeartbeatSend
  extract_lets -merge +onlyGivenNames v1
  have h2 : Within M s v1 := State.advance_in (hM.of rfl) h
  clear_value v1
  refine WithinRes.next ?_
  refine Within.ite ?_ (fun _ => ?_)
  · extract_lets -merge +onlyGivenNames v3
    have h4 : Within M s v3 := State.refreshScore_in (hM.of rfl) h2
    clear_value v3
    extract_lets -merge +onlyGivenNames v5
    clear_value v5
    extract_lets -merge +onlyGivenNames v6
    have h7 : Within M s v6 := State.emit_in (hM.of rfl) (State.hbFrames_in (hM.of rfl) h4)
    clear_value v6
    exact State.showSilent_in (hM.of rfl) (Within.set_pair h7 (hM.of rfl))
  · exact h2

theorem State.flushRound_in {r k} (hM : Incl 0x3fffed7ffe7019fdefc M) (h : Within M s x) : Within M s (State.flushRound x r k) := by
  induction k generalizing x with
  | zero => exact h
  | succ k ih =>
    unfold State.flushRound
    split
    · exact ih (State.tryFollow_in (hM.of rfl) h)
    · split
      · split
        · exact Within.ite (ih (State.dispatchOwn_in (hM.of rfl) h)) fun _ => h
        · exact h
      · exact h

theorem State.declareFailed_in (hM : Incl 0x3fffed7ffe7019fdefc M) (h : Within M s x) : Within M s (State.declareFailed x) := by
  unfold State.declareFailed
  extract_lets -merge +onlyGivenNames v1
  clear_value v1
  extract_lets -merge +onlyGivenNames v2
  have h3 : Within M s v2 := Within.set_pair h (hM.of rfl)
  clear_value v2
  extract_lets -merge +onlyGivenNames v4
  have h5 : Within M s v4 := State.notice_in (hM.of rfl) (State.wr_in (hM.of rfl) (State.wr_in (hM.of rfl) h3))
  clear_value v4
  refine Within.forEach ?_ (fun y6 y7 h8 => ?_)
  · exact h5
  · exact State.flushRound_in (hM.of rfl) h8

theorem State.seePartner_in {p2} (hM : Incl 0x2000000004000 M) (h : Within M s x) : Within M s (State.seePartner x p2) := by
  unfold State.seePartner
  extract_lets -merge +onlyGivenNames v1 v2 v3 v4 v5 v6 v7 v8 v9
  clear_value v1 v2 v3 v4 v5 v6 v7 v8 v9
  extract_lets -merge +onlyGivenNames v10
  have h11 : Within M s v10 := Within.set_pair h (hM.of rfl)
  clear_value v10
  exact State.weighRoles_in (hM.of rfl) (State.wr_in (hM.of rfl) (State.setFlag_in (hM.of rfl) (hM.of rfl) (State.wr_in (hM.of rfl) (State.setFlag_in (hM.of rfl) (hM.of rfl) h11))))

theorem State.dualCheck_in (hM : Incl 0x412000100800004 M) (h : Within M s x) : Within M s (State.dualCheck x) := by
  unfold State.dualCheck
  split
  · exact h
  · extract_lets -merge +onlyGivenNames v1
    clear_value v1
    refine Within.ite ?_ (fun _ => ?_)
    · extract_lets -merge +onlyGivenNames v2
      have h3 : Within M s v2 := State.setFlag_in (hM.of rfl) (hM.of rfl) h
      clear_value v2
      refine Within.ite ?_ (fun _ => ?_)
      · exact h3
      · exact State.notice_in (hM.of rfl) h3
    · exact h

theorem State.heartbeat_in {p2} {p3} (hM : Incl 0x3fffed7ffe7019fdefc M) (h : Within M s x) : Within M s (State.heartbeat x p2 p3) := by
  unfold State.heartbeat
  extract_lets -merge +onlyGivenNames v1 v2 v3 v4
  clear_value v1 v2 v3 v4
  extract_lets -merge +onlyGivenNames v5
  have h6 : Within M s v5 := by
    unfold v5
    refine Within.ite ?_ (fun _ => ?_)
    · exact Within.set_pair h (hM.of rfl)
    · exact Within.set_pair h (hM.of rfl)
  clear_value v5
  extract_lets -merge +onlyGivenNames v7
  have h8 : Within M s v7 := by
    unfold v7
    refine State.showSilent_in (hM.of rfl) ?_
    refine Within.ite ?_ (fun _ => ?_)
    · exact State.setFlag_in (hM.of rfl) (hM.of rfl) h6
    · exact State.setFlag_in (hM.of rfl) (hM.of rfl) h6
  clear_value v7
  extract_lets -merge +onlyGivenNames v9
  have h10 : Within M s v9 := by
    unfold v9
    refine Within.ite ?_ (fun _ => ?_)
    · exact State.notice_in (hM.of rfl) h8
    · exact h8
  clear_value v9
  extract_lets -merge +onlyGivenNames v11
  clear_value v11
  extract_lets -merge +onlyGivenNames v12
  have h13 : Within M s v12 := by
    unfold v12
    refine Within.ite ?_ (fun _ => ?_)
    · exact h10
    · exact State.notice_in (hM.of rfl) (Within.set_pair h10 (hM.of rfl))
  clear_value v12
  extract_lets -merge +onlyGivenNames v14
  have h15 : Within M s v14 := State.seePartner_in (hM.of rfl) h13
  clear_value v14
  extract_lets -merge +onlyGivenNames v16
  have h17 : Within M s v16 := by
    unfold v16
    refine Within.ite ?_ (fun _ => ?_)
    · exact h15
    · exact State.declareFailed_in (hM.of rfl) h15
  clear_value v16
  extract_lets -merge +onlyGivenNames v18
  have h19 : Within M s v18 := by
    unfold v18
    refine Within.ite ?_ (fun _ => ?_)
    · exact h17
    · exact State.switchFail_in (hM.of rfl) h17
  clear_value v18
  exact State.runCheck_in (hM.of rfl) (State.partnerAlarm_in (hM.of rfl) (State.dualCheck_in (hM.of rfl) h19))

theorem execHeartbeatReceived_in {p1} {p2} {p3} (hM : Incl 0x3fffed7ffe7019fdefe M) : WithinRes M s (execHeartbeatReceived p1 p2 p3 s) := by
  have h : Within M s s := Within.refl s
  unfold execHeartbeatReceived
  extract_lets -merge +onlyGivenNames v1
  have h2 : Within M s v1 := State.advance_in (hM.of rfl) h
  clear_value v1
  refine WithinRes.next ?_
  refine Within.ite ?_ (fun _ => ?_)
  · exact h2
  · exact State.heartbeat_in (hM.of rfl) h2

theorem State.goSilent_in {p2} (hM : Incl 0x3fffed7ffe7019fdefc M) (h : Within M s x) : Within M s (State.goSilent x p2) := by
  unfold State.goSilent
  extract_lets -merge +onlyGivenNames v1
  have h2 : Within M s v1 := by
    unfold v1
    refine Within.ite ?_ (fun _ => ?_)
    · exact State.setFlag_in (hM.of rfl) (hM.of rfl) h
    · exact State.setFlag_in (hM.of rfl) (hM.of rfl) h
  clear_value v1
  extract_lets -merge +onlyGivenNames v3
  have h4 : Within M s v3 := State.showSilent_in (hM.of rfl) h2
  clear_value v3
  refine Within.ite ?_ (fun _ => ?_)
  · extract_lets -merge +onlyGivenNames v5
    have h6 : Within M s v5 := by
      unfold v5
      refine Within.ite ?_ (fun _ => ?_)
      · exact h4
      · exact State.declareFailed_in (hM.of rfl) h4
    clear_value v5
    extract_lets -merge +onlyGivenNames v7
    have h8 : Within M s v7 := by
      unfold v7
      refine Within.ite ?_ (fun _ => ?_)
      · exact h6
      · exact State.switchFail_in (hM.of rfl) h6
    clear_value v7
    exact State.runCheck_in (hM.of rfl) (State.partnerAlarm_in (hM.of rfl) h8)
  · exact State.notice_in (hM.of rfl) h4

theorem execPathSilent_in {p1} {p2} (hM : Incl 0x3fffed7ffe7019fdefe M) : WithinRes M s (execPathSilent p1 p2 s) := by
  have h : Within M s s := Within.refl s
  unfold execPathSilent
  extract_lets -merge +onlyGivenNames v1
  have h2 : Within M s v1 := State.advance_in (hM.of rfl) h
  clear_value v1
  refine WithinRes.next ?_
  refine Within.ite ?_ (fun _ => ?_)
  · exact h2
  · exact State.goSilent_in (hM.of rfl) h2

theorem execJoinTimeout_in {p1} (hM : Incl 0x865001010080481e M) : WithinRes M s (execJoinTimeout p1 s) := by
  have h : Within M s s := Within.refl s
  unfold execJoinTimeout
  extract_lets -merge +onlyGivenNames v1
  have h2 : Within M s v1 := State.advance_in (hM.of rfl) h
  clear_value v1
  extract_lets -merge +onlyGivenNames v3 v4
  clear_value v3 v4
  refine WithinRes.next ?_
  refine Within.ite ?_ (fun _ => ?_)
  · exact h2
  · exact State.runCheck_in (hM.of rfl) (Within.set_pair h2 (hM.of rfl))

theorem State.sendHello_in (hM : Incl 0x804000 M) (h : Within M s x) : Within M s (State.sendHello x) := by
  unfold State.sendHello
  exact State.plkSend_in (hM.of rfl) (Within.set_pair h (hM.of rfl))

theorem State.sayHello_in (hM : Incl 0x804000 M) (h : Within M s x) : Within M s (State.sayHello x) := by
  unfold State.sayHello
  exact State.sendHello_in (hM.of rfl) (Within.set_pair h (hM.of rfl))

theorem State.restartRx_in {p2} (hM : Incl 0x804000 M) (h : Within M s x) : Within M s (State.restartRx x p2) := by
  unfold State.restartRx
  exact State.rxCounted_in (hM.of rfl) (Within.set_pair h (hM.of rfl))

theorem State.answerHello_in (hM : Incl 0x2000000804000 M) (h : Within M s x) : Within M s (State.answerHello x) := by
  unfold State.answerHello
  refine Within.ite ?_ (fun _ => ?_)
  · exact State.sendHello_in (hM.of rfl) (State.setFlag_in (hM.of rfl) (hM.of rfl) h)
  · exact Within.set_pair h (hM.of rfl)

theorem State.hello_in {p2} (hM : Incl 0x865201030080481c M) (h : Within M s x) : Within M s (State.hello x p2) := by
  unfold State.hello
  extract_lets -merge +onlyGivenNames v1
  clear_value v1
  extract_lets -merge +onlyGivenNames v2
  have h3 : Within M s v2 := Within.set_pair h (hM.of rfl)
  clear_value v2
  extract_lets -merge +onlyGivenNames v4
  have h5 : Within M s v4 := State.answerHello_in (hM.of rfl) (State.setFlag_in (hM.of rfl) (hM.of rfl) h3)
  clear_value v4
  extract_lets -merge +onlyGivenNames v6
  clear_value v6
  extract_lets -merge +onlyGivenNames v7
  have h8 : Within M s v7 := by
    unfold v7
    refine Within.ite ?_ (fun _ => ?_)
    · exact h5
    · exact Within.set_pair h5 (hM.of rfl)
  clear_value v7
  extract_lets -merge +onlyGivenNames v9 v10
  clear_value v9 v10
  extract_lets -merge +onlyGivenNames v11
  have h12 : Within M s v11 := State.setFlag_in (hM.of rfl) (hM.of rfl) h8
  clear_value v11
  extract_lets -merge +onlyGivenNames v13
  have h14 : Within M s v13 := by
    unfold v13
    refine Within.ite ?_ (fun _ => ?_)
    · exact h12
    · exact State.notice_in (hM.of rfl) h12
  clear_value v13
  extract_lets -merge +onlyGivenNames v15
  have h16 : Within M s v15 := by
    unfold v15
    refine Within.ite ?_ (fun _ => ?_)
    · exact h14
    · exact State.setFlag_in (hM.of rfl) (hM.of rfl) h14
  clear_value v15
  exact State.runCheck_in (hM.of rfl) (State.refreshReady_in (hM.of rfl) h16)

theorem execHello_in {p1} (hM : Incl 0x865201030080481e M) : WithinRes M s (execHello p1 s) := by
  have h : Within M s s := Within.refl s
  unfold execHello
  extract_lets -merge +onlyGivenNames v1
  have h2 : Within M s v1 := State.advance_in (hM.of rfl) h
  clear_value v1
  refine WithinRes.next ?_
  refine Within.ite ?_ (fun _ => ?_)
  · refine Within.ite ?_ (fun _ => ?_)
    · exact State.hello_in (hM.of rfl) (State.restartRx_in (hM.of rfl) h2)
    · exact State.rxCounted_in (hM.of rfl) h2
  · exact h2

theorem State.offered_in {p2} (hM : Incl 0x804000 M) (h : Within M s x) : Within M s (State.offered x p2) := by
  unfold State.offered
  refine Within.ite ?_ (fun _ => ?_)
  · refine Within.ite ?_ (fun _ => ?_)
    · exact State.plkSend_in (hM.of rfl) h
    · exact State.plkSend_in (hM.of rfl) (Within.set_pair h (hM.of rfl))
  · exact h

theorem execSwitchOffer_in {p1} {p2} (hM : Incl 0x804002 M) : WithinRes M s (execSwitchOffer p1 p2 s) := by
  have h : Within M s s := Within.refl s
  unfold execSwitchOffer
  refine WithinRes.next ?_
  refine State.linkRow_in (hM.of rfl) (State.advance_in (hM.of rfl) h) (fun y1 h2 => ?_)
  exact State.offered_in (hM.of rfl) h2

theorem State.accepted_in {p2} (hM : Incl 0x4000 M) (h : Within M s x) : Within M s (State.accepted x p2) := by
  unfold State.accepted
  split
  · refine Within.ite ?_ (fun _ => ?_)
    · exact h
    · exact Within.set_pair h (hM.of rfl)
  · exact h

theorem execSwitchAccept_in {p1} {p2} (hM : Incl 0x804002 M) : WithinRes M s (execSwitchAccept p1 p2 s) := by
  have h : Within M s s := Within.refl s
  unfold execSwitchAccept
  refine WithinRes.next ?_
  refine State.linkRow_in (hM.of rfl) (State.advance_in (hM.of rfl) h) (fun y1 h2 => ?_)
  exact State.accepted_in (hM.of rfl) h2

theorem State.offerRefused_in (hM : Incl 0x410000300804804 M) (h : Within M s x) : Within M s (State.offerRefused x) := by
  unfold State.offerRefused
  split
  · refine Within.ite ?_ (fun _ => ?_)
    · exact h
    · exact State.switchFail_in (hM.of rfl) h
  · exact h

theorem execSwitchRefuse_in {p1} (hM : Incl 0x410000300804806 M) : WithinRes M s (execSwitchRefuse p1 s) := by
  have h : Within M s s := Within.refl s
  unfold execSwitchRefuse
  refine WithinRes.next ?_
  refine State.linkRow_in (hM.of rfl) (State.advance_in (hM.of rfl) h) (fun y1 h2 => ?_)
  exact State.offerRefused_in (hM.of rfl) h2

theorem execRevert_in {p1} (hM : Incl 0x804002 M) : WithinRes M s (execRevert p1 s) := by
  have h : Within M s s := Within.refl s
  unfold execRevert
  extract_lets -merge +onlyGivenNames v1
  have h2 : Within M s v1 := State.advance_in (hM.of rfl) h
  clear_value v1
  refine WithinRes.next ?_
  refine Within.ite ?_ (fun _ => ?_)
  · refine Within.ite ?_ (fun _ => ?_)
    · refine Within.ite ?_ (fun _ => ?_)
      · exact h2
      · exact State.switchStart_in (hM.of rfl) h2
    · exact Within.set_pair h2 (hM.of rfl)
  · exact h2

theorem execAutoSwitchover_in {p1} (hM : Incl 0x804002 M) : WithinRes M s (execAutoSwitchover p1 s) := by
  have h : Within M s s := Within.refl s
  unfold execAutoSwitchover
  extract_lets -merge +onlyGivenNames v1
  have h2 : Within M s v1 := State.advance_in (hM.of rfl) h
  clear_value v1
  extract_lets -merge +onlyGivenNames v3
  clear_value v3
  refine WithinRes.next ?_
  refine Within.ite ?_ (fun _ => ?_)
  · exact h2
  · exact State.switchStart_in (hM.of rfl) (Within.set_pair h2 (hM.of rfl))

theorem execFwdOn_in {p1} (hM : Incl 0x804000 M) : WithinRes M s (execFwdOn p1 s) := by
  have h : Within M s s := Within.refl s
  unfold execFwdOn
  refine WithinRes.next ?_
  refine State.linkRow_in (hM.of rfl) h (fun y1 h2 => ?_)
  exact Within.set_pair h2 (hM.of rfl)

theorem execFwdOff_in {p1} (hM : Incl 0x804000 M) : WithinRes M s (execFwdOff p1 s) := by
  have h : Within M s s := Within.refl s
  unfold execFwdOff
  refine WithinRes.next ?_
  refine State.linkRow_in (hM.of rfl) h (fun y1 h2 => ?_)
  exact Within.set_pair h2 (hM.of rfl)

theorem State.seeMap_in {p2} (hM : Incl 0x804000 M) (h : Within M s x) : Within M s (State.seeMap x p2) := by
  unfold State.seeMap
  extract_lets -merge +onlyGivenNames v1 v2 v3 v4 v5
  clear_value v1 v2 v3 v4 v5
  extract_lets -merge +onlyGivenNames v6
  have h7 : Within M s v6 := Within.set_pair h (hM.of rfl)
  clear_value v6
  extract_lets -merge +onlyGivenNames v8
  have h9 : Within M s v8 := by
    unfold v8
    refine Within.forEach ?_ (fun y10 y11 h12 => ?_)
    · exact h7
    · exact State.plkSend_in (hM.of rfl) h12
  clear_value v8
  refine Within.forEach ?_ (fun y13 y14 h15 => ?_)
  · exact h9
  · exact State.plkSend_in (hM.of rfl) h15

theorem execRxmap_in {p1} (hM : Incl 0x804000 M) : WithinRes M s (execRxmap p1 s) := by
  have h : Within M s s := Within.refl s
  unfold execRxmap
  refine WithinRes.next ?_
  refine State.linkRow_in (hM.of rfl) h (fun y1 h2 => ?_)
  exact State.seeMap_in (hM.of rfl) h2

theorem State.sendLetters_in {p2} {p3} {p4} (hM : Incl 0x804000 M) (h : Within M s x) : Within M s (State.sendLetters x p2 p3 p4) := by
  unfold State.sendLetters
  split
  · exact h
  · refine Within.forEach ?_ (fun y1 y2 h3 => ?_)
    · exact h
    · exact State.plkSend_in (hM.of rfl) h3

theorem State.sendCheck_in {p2} {p3} (hM : Incl 0x804000 M) (h : Within M s x) : Within M s (State.sendCheck x p2 p3) := by
  unfold State.sendCheck
  split
  · exact h
  · exact State.plkSend_in (hM.of rfl) h

theorem State.fetched_in {p2} (hM : Incl 0x804000 M) (h : Within M s x) : Within M s (State.fetched x p2) := by
  unfold State.fetched
  split
  · refine Within.ite ?_ (fun _ => ?_)
    · exact h
    · exact State.sendLetters_in (hM.of rfl) h
  · refine Within.ite ?_ (fun _ => ?_)
    · exact h
    · exact State.sendCheck_in (hM.of rfl) h
  · refine Within.ite ?_ (fun _ => ?_)
    · exact h
    · exact State.checkLetters_in (hM.of rfl) h
  · refine Within.ite ?_ (fun _ => ?_)
    · exact h
    · exact State.sendCatch_in (hM.of rfl) h

theorem execFetch_in {p1} {p2} {p3} {p4} {p5} (hM : Incl 0x804002 M) : WithinRes M s (execFetch p1 p2 p3 p4 p5 s) := by
  have h : Within M s s := Within.refl s
  unfold execFetch
  refine WithinRes.next ?_
  refine State.linkRow_in (hM.of rfl) (State.advance_in (hM.of rfl) h) (fun y1 h2 => ?_)
  exact State.fetched_in (hM.of rfl) h2

theorem State.joined_in (hM : Incl 0x2000000004000 M) (h : Within M s x) : Within M s (State.joined x) := by
  unfold State.joined
  extract_lets -merge +onlyGivenNames v1
  clear_value v1
  exact State.setFlag_in (hM.of rfl) (hM.of rfl) (Within.set_pair h (hM.of rfl))

theorem State.applyCopy_in {p2} (hM : Incl 0x3fffcd61de1019846fc M) (h : Within M s x) : Within M s (State.applyCopy x p2) := by
  unfold State.applyCopy
  extract_lets -merge +onlyGivenNames v1
  have h2 : Within M s v1 := by
    unfold v1
    refine State.wr_in (hM.of rfl) ?_
    refine Within.forEach ?_ (fun y3 y4 h5 => ?_)
    · exact h
    · exact State.applyRec_in (hM.of rfl) h5
  clear_value v1
  refine State.refreshReady_in (hM.of rfl) ?_
  refine Within.ite ?_ (fun _ => ?_)
  · exact h2
  · exact State.joined_in (hM.of rfl) h2

theorem execCopy_in {p1} {p2} (hM : Incl 0x3fffcd61de1019846fe M) : WithinRes M s (execCopy p1 p2 s) := by
  have h : Within M s s := Within.refl s
  unfold execCopy
  refine WithinRes.next ?_
  refine State.linkRow_in (hM.of rfl) (State.advance_in (hM.of rfl) h) (fun y1 h2 => ?_)
  refine Within.ite ?_ (fun _ => ?_)
  · exact h2
  · exact State.applyCopy_in (hM.of rfl) h2

theorem State.release_in {p2} (hM : Incl 0x4000 M) (h : Within M s x) : Within M s (State.release x p2) := by
  unfold State.release
  refine Within.ite ?_ (fun _ => ?_)
  · refine Within.ite ?_ (fun _ => ?_)
    · exact Within.set_pair h (hM.of rfl)
    · exact Within.set_pair h (hM.of rfl)
  · exact h

theorem execRel_in {p1} (hM : Incl 0x804000 M) : WithinRes M s (execRel p1 s) := by
  have h : Within M s s := Within.refl s
  unfold execRel
  refine WithinRes.next ?_
  refine State.linkRow_in (hM.of rfl) h (fun y1 h2 => ?_)
  exact State.release_in (hM.of rfl) h2

theorem State.seeDigest_in {p2} {p3} {p4} {p5} (hM : Incl 0x412000100804004 M) (h : Within M s x) : Within M s (State.seeDigest x p2 p3 p4 p5) := by
  unfold State.seeDigest
  extract_lets -merge +onlyGivenNames v1
  clear_value v1
  refine Within.ite ?_ (fun _ => ?_)
  · refine Within.ite ?_ (fun _ => ?_)
    · refine Within.ite ?_ (fun _ => ?_)
      · exact h
      · exact Within.set_pair h (hM.of rfl)
    · exact State.digestCompare_in (hM.of rfl) h
  · exact h

theorem execDigest_in {p1} {p2} {p3} {p4} (hM : Incl 0x412000100804004 M) : WithinRes M s (execDigest p1 p2 p3 p4 s) := by
  have h : Within M s s := Within.refl s
  unfold execDigest
  refine WithinRes.next ?_
  refine State.linkRow_in (hM.of rfl) h (fun y1 h2 => ?_)
  exact State.seeDigest_in (hM.of rfl) h2

theorem State.installGrp_in {p2} {p3} {p4} (hM : Incl 0x1045615210088463c M) (h : Within M s x) : Within M s (State.installGrp x p2 p3 p4) := by
  unfold State.installGrp
  extract_lets -merge +onlyGivenNames v1 v2 v3 v4
  clear_value v1 v2 v3 v4
  exact State.showGrp_in (hM.of rfl) (State.setGrp_in (hM.of rfl) h)

theorem State.installTrk_in {p2} (hM : Incl 0x80045619210090463c M) (h : Within M s x) : Within M s (State.installTrk x p2) := by
  unfold State.installTrk
  extract_lets -merge +onlyGivenNames v1 v2
  clear_value v1 v2
  exact State.showTrk_in (hM.of rfl) (State.setTrk_in (hM.of rfl) h)

theorem State.installCatch_in {p2} (hM : Incl 0x8104561d210098463c M) (h : Within M s x) : Within M s (State.installCatch x p2) := by
  unfold State.installCatch
  extract_lets -merge +onlyGivenNames v1
  clear_value v1
  extract_lets -merge +onlyGivenNames v2
  have h3 : Within M s v2 := by
    unfold v2
    split
    · exact State.installGrp_in (hM.of rfl) h
    · exact h
  clear_value v2
  extract_lets -merge +onlyGivenNames v4
  have h5 : Within M s v4 := by
    unfold v4
    split
    · exact State.installTrk_in (hM.of rfl) h3
    · exact h3
  clear_value v4
  extract_lets -merge +onlyGivenNames v6
  clear_value v6
  extract_lets -merge +onlyGivenNames v7
  have h8 : Within M s v7 := Within.set_pair h5 (hM.of rfl)
  clear_value v7
  exact State.refreshReady_in (hM.of rfl) h8

theorem execCatchup_in {p1} (hM : Incl 0x8104561d210098463c M) : WithinRes M s (execCatchup p1 s) := by
  have h : Within M s s := Within.refl s
  unfold execCatchup
  refine WithinRes.next ?_
  refine State.linkRow_in (hM.of rfl) h (fun y1 h2 => ?_)
  refine Within.ite ?_ (fun _ => ?_)
  · exact h2
  · exact State.installCatch_in (hM.of rfl) h2

theorem execPlkAck_in {p1} {p2} (hM : Incl 0x4002 M) : WithinRes M s (execPlkAck p1 p2 s) := by
  have h : Within M s s := Within.refl s
  unfold execPlkAck
  extract_lets -merge +onlyGivenNames v1
  have h2 : Within M s v1 := State.advance_in (hM.of rfl) h
  clear_value v1
  extract_lets -merge +onlyGivenNames v3 v4
  clear_value v3 v4
  refine WithinRes.next ?_
  refine Within.ite ?_ (fun _ => ?_)
  · exact h2
  · exact Within.set_pair h2 (hM.of rfl)

theorem execAckSend_in {p1} (hM : Incl 0x804002 M) : WithinRes M s (execAckSend p1 s) := by
  have h : Within M s s := Within.refl s
  unfold execAckSend
  extract_lets -merge +onlyGivenNames v1
  have h2 : Within M s v1 := State.advance_in (hM.of rfl) h
  clear_value v1
  refine WithinRes.next ?_
  refine Within.ite ?_ (fun _ => ?_)
  · exact h2
  · exact State.sendAck_in (hM.of rfl) h2

theorem State.dataDown_in (hM : Incl 0x412000100804004 M) (h : Within M s x) : Within M s (State.dataDown x) := by
  unfold State.dataDown
  extract_lets -merge +onlyGivenNames v1 v2
  clear_value v1 v2
  extract_lets -merge +onlyGivenNames v3
  have h4 : Within M s v3 := Within.set_pair h (hM.of rfl)
  clear_value v3
  extract_lets -merge +onlyGivenNames v5
  have h6 : Within M s v5 := State.setFlag_in (hM.of rfl) (hM.of rfl) h4
  clear_value v5
  extract_lets -merge +onlyGivenNames v7
  have h8 : Within M s v7 := by
    unfold v7
    refine Within.ite ?_ (fun _ => ?_)
    · exact State.notice_in (hM.of rfl) h6
    · exact h6
  clear_value v7
  exact State.sayHello_in (hM.of rfl) (State.refreshReady_in (hM.of rfl) (State.setFlag_in (hM.of rfl) (hM.of rfl) h8))

theorem execRetransmit_in {p1} (hM : Incl 0x412000100804006 M) : WithinRes M s (execRetransmit p1 s) := by
  have h : Within M s s := Within.refl s
  unfold execRetransmit
  extract_lets -merge +onlyGivenNames v1
  have h2 : Within M s v1 := State.advance_in (hM.of rfl) h
  clear_value v1
  refine WithinRes.next ?_
  refine Within.ite ?_ (fun _ => ?_)
  · refine Within.ite ?_ (fun _ => ?_)
    · extract_lets -merge +onlyGivenNames v3
      clear_value v3
      extract_lets -merge +onlyGivenNames v4
      have h5 : Within M s v4 := by
        unfold v4
        refine State.bump_in (hM.of rfl) (hM.of rfl) ?_
        refine Within.forEach ?_ (fun y6 y7 h8 => ?_)
        · exact h2
        · exact State.plkEmit_in (hM.of rfl) h8
      clear_value v4
      exact Within.set_pair h5 (hM.of rfl)
    · exact State.dataDown_in (hM.of rfl) h2
  · exact h2

theorem State.selfTestFail_in {p2} (hM : Incl 0x412000100804004 M) (h : Within M s x) : Within M s (State.selfTestFail x p2) := by
  unfold State.selfTestFail
  extract_lets -merge +onlyGivenNames v1
  clear_value v1
  extract_lets -merge +onlyGivenNames v2
  have h3 : Within M s v2 := Within.set_pair h (hM.of rfl)
  clear_value v2
  exact State.refreshScore_in (hM.of rfl) (State.notice_in (hM.of rfl) (State.inc_in (hM.of rfl) (hM.of rfl) (State.wr_in (hM.of rfl) h3)))

theorem execLaneUp_in {p1} {p2} (hM : Incl 0x412000100804006 M) : WithinRes M s (execLaneUp p1 p2 s) := by
  have h : Within M s s := Within.refl s
  unfold execLaneUp
  extract_lets -merge +onlyGivenNames v1
  have h2 : Within M s v1 := State.advance_in (hM.of rfl) h
  clear_value v1
  extract_lets -merge +onlyGivenNames v3
  clear_value v3
  refine WithinRes.next ?_
  refine Within.ite ?_ (fun _ => ?_)
  · extract_lets -merge +onlyGivenNames v4
    have h5 : Within M s v4 := State.notice_in (hM.of rfl) (State.wr_in (hM.of rfl) h2)
    clear_value v4
    refine Within.ite ?_ (fun _ => ?_)
    · exact h5
    · exact State.sayHello_in (hM.of rfl) h5
  · exact h2

theorem execLaneDown_in {p1} {p2} {p3} (hM : Incl 0x412000100804006 M) : WithinRes M s (execLaneDown p1 p2 p3 s) := by
  have h : Within M s s := Within.refl s
  unfold execLaneDown
  extract_lets -merge +onlyGivenNames v1
  have h2 : Within M s v1 := State.advance_in (hM.of rfl) h
  clear_value v1
  extract_lets -merge +onlyGivenNames v3
  clear_value v3
  refine WithinRes.next ?_
  refine Within.ite ?_ (fun _ => ?_)
  · extract_lets -merge +onlyGivenNames v4
    have h5 : Within M s v4 := State.notice_in (hM.of rfl) (State.wr_in (hM.of rfl) h2)
    clear_value v4
    refine Within.ite ?_ (fun _ => ?_)
    · exact h5
    · exact State.selfTestFail_in (hM.of rfl) h5
  · exact h2

theorem State.setBank_in {p2} {p3} (hM : Incl 0x2000 M) (h : Within M s x) : Within M s (State.setBank x p2 p3) := by
  unfold State.setBank
  refine Within.ite ?_ (fun _ => ?_)
  · exact Within.set_nvs h (hM.of rfl)
  · exact Within.set_nvs h (hM.of rfl)

theorem State.showSel_in (hM : Incl 0x8000000000000 M) (h : Within M s x) : Within M s (State.showSel x) := by
  unfold State.showSel
  split
  · exact State.wr_in (hM.of rfl) (State.wr_in (hM.of rfl) h)
  · exact State.wr_in (hM.of rfl) (State.wr_in (hM.of rfl) h)

theorem State.chooseBank_in {p2} (hM : Incl 0x8000000002000 M) (h : Within M s x) : Within M s (State.chooseBank x p2) := by
  unfold State.chooseBank
  exact State.showSel_in (hM.of rfl) (State.nextJournal_in (hM.of rfl) (Within.set_nvs h (hM.of rfl)))

theorem State.chooseCut_in {p2} {p3} (hM : Incl 0x8000000002000 M) (h : Within M s x) : Within M s (State.chooseCut x p2 p3) := by
  unfold State.chooseCut
  extract_lets -merge +onlyGivenNames v1
  clear_value v1
  split
  · exact h
  · exact State.leaveOpen_in (hM.of rfl) (State.nextJournal_in (hM.of rfl) h)
  · exact State.leaveOpen_in (hM.of rfl) (State.nextJournal_in (hM.of rfl) h)
  · exact State.leaveOpen_in (hM.of rfl) (State.chooseBank_in (hM.of rfl) h)

theorem State.selectBank_in {p2} {p3} {p4} (hM : Incl 0x8000000002000 M) (h : Within M s x) (kp4 : ∀ b1, Within M s b1 → Within M s (p4 b1).1) : Within M s (State.selectBank x p2 p3 p4).1 := by
  unfold State.selectBank
  split
  · exact Within.mk1 (State.setFlag_in (hM.of rfl) (hM.of rfl) (State.chooseCut_in (hM.of rfl) h))
  · exact kp4 _ (State.chooseBank_in (hM.of rfl) h)

theorem execLbStore_in {p1} {p2} {p3} (hM : Incl 0x49800010080200c M) : WithinRes M s (execLbStore p1 p2 p3 s) := by
  have h : Within M s s := Within.refl s
  unfold execLbStore
  refine WithinRes.next ?_
  refine State.lbRun_in (hM.of rfl) h (fun y1 y2 h3 => ?_)
  extract_lets -merge +onlyGivenNames v4
  clear_value v4
  refine Within.ite1 ?_ (fun _ => ?_)
  · refine Within.ite1 ?_ (fun _ => ?_)
    · refine Within.ite1 ?_ (fun _ => ?_)
      · refine Within.ite1 ?_ (fun _ => ?_)
        · split
          extract_lets -merge +onlyGivenNames v5
          have h6 : Within M s v5 := State.setBank_in (hM.of rfl) h3
          clear_value v5
          refine Within.ite1 ?_ (fun _ => ?_)
          · refine Within.ite1 ?_ (fun _ => ?_)
            · refine State.selectBank_in (hM.of rfl) h6 (fun y7 h8 => ?_)
              exact Within.mk1 (State.notice_in (hM.of rfl) (State.inc_in (hM.of rfl) (hM.of rfl) h8))
            · exact Within.mk1 (State.notice_in (hM.of rfl) (State.setBank_in (hM.of rfl) h6))
          · exact Within.mk1 (State.setFlag_in (hM.of rfl) (hM.of rfl) (State.setBank_in (hM.of rfl) h6))
        · exact Within.mk1 h3
      · exact Within.mk1 h3
    · exact Within.mk1 h3
  · exact Within.mk1 h3

theorem execNvsRead_in {p1} {p2} {p3} (hM : Incl 0x49000010080000c M) : WithinRes M s (execNvsRead p1 p2 p3 s) := by
  have h : Within M s s := Within.refl s
  unfold execNvsRead
  refine WithinRes.next ?_
  refine State.lbRun_in (hM.of rfl) h (fun y1 y2 h3 => ?_)
  split
  · exact Within.mk1 h3
  · extract_lets -merge +onlyGivenNames v4 v5
    clear_value v4 v5
    refine Within.ite1 ?_ (fun _ => ?_)
    · exact Within.mk1 (State.emit_in (hM.of rfl) h3)
    · exact Within.mk1 h3

theorem execSelectOther_in {p1} {p2} {p3} (hM : Incl 0x49800010080200c M) : WithinRes M s (execSelectOther p1 p2 p3 s) := by
  have h : Within M s s := Within.refl s
  unfold execSelectOther
  refine WithinRes.next ?_
  refine State.lbRun_in (hM.of rfl) h (fun y1 y2 h3 => ?_)
  refine Within.ite1 ?_ (fun _ => ?_)
  · refine Within.ite1 ?_ (fun _ => ?_)
    · split
      · exact Within.mk1 h3
      · extract_lets -merge +onlyGivenNames v4
        clear_value v4
        refine Within.ite1 ?_ (fun _ => ?_)
        · exact Within.mk1 h3
        · refine State.selectBank_in (hM.of rfl) h3 (fun y5 h6 => ?_)
          exact Within.mk1 h6
    · exact Within.mk1 h3
  · exact Within.mk1 h3

theorem execErase_in {p1} {p2} {p3} (hM : Incl 0x49800010080200c M) : WithinRes M s (execErase p1 p2 p3 s) := by
  have h : Within M s s := Within.refl s
  unfold execErase
  refine WithinRes.next ?_
  refine State.lbRun_in (hM.of rfl) h (fun y1 y2 h3 => ?_)
  refine Within.ite1 ?_ (fun _ => ?_)
  · refine Within.ite1 ?_ (fun _ => ?_)
    · refine State.selectBank_in (hM.of rfl) h3 (fun y4 h5 => ?_)
      exact Within.mk1 h5
    · exact Within.mk1 h3
  · exact Within.mk1 h3

theorem State.readRec_in {p2} (hM : Incl 0x1000000 M) (h : Within M s x) : Within M s (State.readRec x p2).1 := by
  unfold State.readRec
  extract_lets -merge +onlyGivenNames v1
  clear_value v1
  split
  rename_i z2 z3 z4 z5
  have h6 : Within M s z4 := Within.of_snd z5 (by
    refine Within.ite2 ?_ (fun _ => ?_)
    · exact State.draw_in (hM.of rfl) h
    · exact Within.mk2 h)
  extract_lets -merge +onlyGivenNames v7
  clear_value v7
  exact Within.mk1 h6

theorem State.offerRec_in {p2} (hM : Incl 0x45001010080001c M) (h : Within M s x) : Within M s (State.offerRec x p2) := by
  unfold State.offerRec
  exact State.offer_in (hM.of rfl) h

theorem State.rewriteRep_in (hM : Incl 0x4 M) (h : Within M s x) : Within M s (State.rewriteRep x) := by
  unfold State.rewriteRep
  split
  · exact Within.set_log h (hM.of rfl)
  · exact h

theorem State.finalRewrite_in (hM : Incl 0x45001010080001c M) (h : Within M s x) : Within M s (State.finalRewrite x) := by
  unfold State.finalRewrite
  refine Within.ite ?_ (fun _ => ?_)
  · exact h
  · extract_lets -merge +onlyGivenNames v1
    have h2 : Within M s v1 := State.rewriteRep_in (hM.of rfl) h
    clear_value v1
    extract_lets -merge +onlyGivenNames v3
    extract_lets -merge +onlyGivenNames v4
    have h5 : Within M s v4 := Within.set_log h2 (hM.of rfl)
    clear_value v4
    split
    · exact State.offerRec_in (hM.of rfl) h5
    · exact h5

theorem State.appendRec_in {p2} (hM : Incl 0x45001010080001c M) (h : Within M s x) : Within M s (State.appendRec x p2) := by
  unfold State.appendRec
  extract_lets -merge +onlyGivenNames v1 v2 v3 v4
  clear_value v1 v2 v3 v4
  extract_lets -merge +onlyGivenNames v5
  extract_lets -merge +onlyGivenNames v6
  have h7 : Within M s v6 := Within.set_log h (hM.of rfl)
  clear_value v6
  extract_lets -merge +onlyGivenNames v8
  have h9 : Within M s v8 := State.wr_in (hM.of rfl) (State.inc_in (hM.of rfl) (hM.of rfl) h7)
  clear_value v8
  extract_lets -merge +onlyGivenNames v10
  have h11 : Within M s v10 := by
    unfold v10
    refine Within.ite ?_ (fun _ => ?_)
    · exact h9
    · exact State.setFlag_in (hM.of rfl) (hM.of rfl) h9
  clear_value v10
  extract_lets -merge +onlyGivenNames v12
  have h13 : Within M s v12 := State.noticeQuiet_in (hM.of rfl) h11
  clear_value v12
  refine State.offerRec_in (hM.of rfl) ?_
  refine Within.ite ?_ (fun _ => ?_)
  · exact h13
  · exact State.noticeQuiet_in (hM.of rfl) h13

theorem State.unstored_in {p2} (hM : Incl 0x45001010080001c M) (h : Within M s x) : Within M s (State.unstored x p2) := by
  unfold State.unstored
  extract_lets -merge +onlyGivenNames v1
  clear_value v1
  extract_lets -merge +onlyGivenNames v2
  extract_lets -merge +onlyGivenNames v3
  have h4 : Within M s v3 := Within.set_log h (hM.of rfl)
  clear_value v3
  exact State.offerRec_in (hM.of rfl) (State.inc_in (hM.of rfl) (hM.of rfl) h4)

theorem State.lastGasp_in {p2} (hM : Incl 0x45611210080463c M) (h : Within M s x) : Within M s (State.lastGasp x p2) := by
  unfold State.lastGasp
  extract_lets -merge +onlyGivenNames v1 v2 v3 v4 v5
  clear_value v1 v2 v3 v4 v5
  extract_lets -merge +onlyGivenNames v6
  extract_lets -merge +onlyGivenNames v7
  have h8 : Within M s v7 := Within.set_log h (hM.of rfl)
  clear_value v7
  extract_lets -merge +onlyGivenNames v9
  have h10 : Within M s v9 := by
    unfold v9
    refine Within.ite ?_ (fun _ => ?_)
    · exact h8
    · exact State.noticeQuiet_in (hM.of rfl) (State.setFlag_in (hM.of rfl) (hM.of rfl) h8)
  clear_value v9
  extract_lets -merge +onlyGivenNames v11
  have h12 : Within M s v11 := State.noticeQuiet_in (hM.of rfl) (State.setFlag_in (hM.of rfl) (hM.of rfl) h10)
  clear_value v11
  extract_lets -merge +onlyGivenNames v13
  have h14 : Within M s v13 := State.stdAlarm_in (hM.of rfl) h12
  clear_value v13
  exact Within.set_log h14 (hM.of rfl)

theorem State.takeStaged_in (hM : Incl 0x10000000000004 M) (h : Within M s x) : Within M s (State.takeStaged x).1 := by
  unfold State.takeStaged
  split
  · exact Within.mk1 (Within.set_log h (hM.of rfl))
  · exact Within.mk1 (State.staged_in (hM.of rfl) (Within.set_log h (hM.of rfl)))
  · exact Within.mk1 h

theorem execLogRecordWrite_in {p1} {p2} (hM : Incl 0x45611210080463e M) : WithinRes M s (execLogRecordWrite p1 p2 s) := by
  have h : Within M s s := Within.refl s
  unfold execLogRecordWrite
  extract_lets -merge +onlyGivenNames v1
  have h2 : Within M s v1 := State.advance_in (hM.of rfl) h
  clear_value v1
  refine WithinRes.next ?_
  refine Within.ite ?_ (fun _ => ?_)
  · split
    · rename_i z3 z4 z5
      have h6 : Within M s z4 := Within.of_fst z5 (State.takeStaged_in (hM.of rfl) h2)
      exact h6
    · rename_i z7 z8 z9 z10
      have h11 : Within M s z8 := Within.of_fst z10 (State.takeStaged_in (hM.of rfl) h2)
      refine Within.ite ?_ (fun _ => ?_)
      · extract_lets -merge +onlyGivenNames v12
        have h13 : Within M s v12 := State.finalRewrite_in (hM.of rfl) h11
        clear_value v12
        split
        · exact State.appendRec_in (hM.of rfl) h13
        · exact State.appendRec_in (hM.of rfl) h13
        · exact State.unstored_in (hM.of rfl) (State.lastGasp_in (hM.of rfl) h13)
        · exact State.unstored_in (hM.of rfl) (State.lastGasp_in (hM.of rfl) h13)
      · exact State.unstored_in (hM.of rfl) h11
  · exact h2

theorem execRepeatRewrite_in {p1} (hM : Incl 0x6 M) : WithinRes M s (execRepeatRewrite p1 s) := by
  have h : Within M s s := Within.refl s
  unfold execRepeatRewrite
  extract_lets -merge +onlyGivenNames v1
  have h2 : Within M s v1 := State.advance_in (hM.of rfl) h
  clear_value v1
  extract_lets -merge +onlyGivenNames v3
  clear_value v3
  refine WithinRes.next ?_
  refine Within.ite ?_ (fun _ => ?_)
  · exact h2
  · exact State.rewriteRep_in (hM.of rfl) h2

theorem State.readRecs_in {l} (hM : Incl 0x1000000 M) (h : Within M s x) : Within M s (State.readRecs x l).1 := by
  induction l generalizing x with
  | nil => exact h
  | cons r rs ih => unfold State.readRecs; exact ih (State.readRec_in (hM.of rfl) h)

theorem execLogRead_in {p1} {p2} {p3} (hM : Incl 0x49000010180000c M) : WithinRes M s (execLogRead p1 p2 p3 s) := by
  have h : Within M s s := Within.refl s
  unfold execLogRead
  refine WithinRes.next ?_
  refine State.lbRun_in (hM.of rfl) h (fun y1 y2 h3 => ?_)
  refine Within.ite1 ?_ (fun _ => ?_)
  · extract_lets -merge +onlyGivenNames v4
    clear_value v4
    split
    rename_i z5 z6 z7 z8
    have h9 : Within M s z6 := Within.of_fst z8 (State.readRecs_in (hM.of rfl) h3)
    refine Within.mk1 ?_
    refine Within.ite ?_ (fun _ => ?_)
    · exact State.emit_in (hM.of rfl) h9
    · exact h9
  · exact Within.mk1 h3

theorem execLogClear_in {p1} {p2} {p3} (hM : Incl 0x49000010080000c M) : WithinRes M s (execLogClear p1 p2 p3 s) := by
  have h : Within M s s := Within.refl s
  unfold execLogClear
  refine WithinRes.next ?_
  refine State.lbRun_in (hM.of rfl) h (fun y1 y2 h3 => ?_)
  refine Within.ite1 ?_ (fun _ => ?_)
  · extract_lets -merge +onlyGivenNames v4 v5
    clear_value v4 v5
    extract_lets -merge +onlyGivenNames v6
    extract_lets -merge +onlyGivenNames v7
    have h8 : Within M s v7 := Within.set_log h3 (hM.of rfl)
    clear_value v7
    exact Within.mk1 (State.noticeQuiet_in (hM.of rfl) (State.setFlag_in (hM.of rfl) (hM.of rfl) (State.wr_in (hM.of rfl) h8)))
  · exact Within.mk1 h3

theorem State.countOpsec_in (hM : Incl 0x10000000000004 M) (h : Within M s x) : Within M s (State.countOpsec x) := by
  unfold State.countOpsec
  extract_lets -merge +onlyGivenNames v1
  clear_value v1
  exact State.bump_in (hM.of rfl) (hM.of rfl) (Within.set_log h (hM.of rfl))

theorem State.saveOps_in (hM : Incl 0x4 M) (h : Within M s x) : Within M s (State.saveOps x) := by
  unfold State.saveOps
  extract_lets -merge +onlyGivenNames v1
  extract_lets -merge +onlyGivenNames v2
  extract_lets -merge +onlyGivenNames v3
  clear_value v3
  extract_lets -merge +onlyGivenNames v4
  extract_lets -merge +onlyGivenNames v5
  clear_value v5
  refine Within.ite ?_ (fun _ => ?_)
  · exact Within.set_log h (hM.of rfl)
  · exact Within.set_log h (hM.of rfl)

theorem execOpsecSave_in {p1} (hM : Incl 0x10000000000006 M) : WithinRes M s (execOpsecSave p1 s) := by
  have h : Within M s s := Within.refl s
  unfold execOpsecSave
  extract_lets -merge +onlyGivenNames v1
  have h2 : Within M s v1 := State.advance_in (hM.of rfl) h
  clear_value v1
  refine WithinRes.next ?_
  refine Within.ite ?_ (fun _ => ?_)
  · exact h2
  · extract_lets -merge +onlyGivenNames v3
    have h4 : Within M s v3 := State.countOpsec_in (hM.of rfl) h2
    clear_value v3
    refine Within.ite ?_ (fun _ => ?_)
    · exact h4
    · exact State.saveOps_in (hM.of rfl) h4

theorem State.loseRegion_in {p2} (hM : Incl 0x1904579d21019e46bc M) (h : Within M s x) : Within M s (State.loseRegion x p2) := by
  unfold State.loseRegion
  refine Within.ite ?_ (fun _ => ?_)
  · refine Within.ite ?_ (fun _ => ?_)
    · refine Within.ite ?_ (fun _ => ?_)
      · refine Within.ite ?_ (fun _ => ?_)
        · refine Within.ite ?_ (fun _ => ?_)
          · extract_lets -merge +onlyGivenNames v1
            clear_value v1
            extract_lets -merge +onlyGivenNames v2
            have h3 : Within M s v2 := Within.set_cmp h (hM.of rfl)
            clear_value v2
            extract_lets -merge +onlyGivenNames v4
            have h5 : Within M s v4 := State.cmpShow_in (hM.of rfl) h3
            clear_value v4
            extract_lets -merge +onlyGivenNames v6
            have h7 : Within M s v6 := by
              unfold v6
              refine Within.forEach ?_ (fun y8 y9 h10 => ?_)
              · exact h5
              · extract_lets -merge +onlyGivenNames v11
                clear_value v11
                extract_lets -merge +onlyGivenNames v12
                have h13 : Within M s v12 := State.setCapUnit_in (hM.of rfl) h10
                clear_value v12
                refine Within.ite ?_ (fun _ => ?_)
                · exact State.showSegs_in (hM.of rfl) h13
                · exact State.capFill_in (hM.of rfl) h13
            clear_value v6
            exact State.notice_in (hM.of rfl) h7
          · exact Within.set_sof h (hM.of rfl)
        · extract_lets -merge +onlyGivenNames v14
          clear_value v14
          extract_lets -merge +onlyGivenNames v15
          have h16 : Within M s v15 := Within.set_isl h (hM.of rfl)
          clear_value v15
          refine State.islAlarm_in (hM.of rfl) ?_
          refine Within.ite ?_ (fun _ => ?_)
          · exact h16
          · exact State.wr_in (hM.of rfl) h16
      · extract_lets -merge +onlyGivenNames v17
        clear_value v17
        extract_lets -merge +onlyGivenNames v18
        have h19 : Within M s v18 := Within.set_osc h (hM.of rfl)
        clear_value v18
        exact State.wr_in (hM.of rfl) (State.clearDef_in (hM.of rfl) h19)
    · extract_lets -merge +onlyGivenNames v20
      clear_value v20
      extract_lets -merge +onlyGivenNames v21
      have h22 : Within M s v21 := Within.set_osc h (hM.of rfl)
      clear_value v21
      refine Within.forEach ?_ (fun y23 y24 h25 => ?_)
      · exact h22
      · exact State.showGrp_in (hM.of rfl) (State.setGrp_in (hM.of rfl) h25)
  · extract_lets -merge +onlyGivenNames v26 v27 v28
    clear_value v26 v27 v28
    extract_lets -merge +onlyGivenNames v29
    have h30 : Within M s v29 := Within.set_whl h (hM.of rfl)
    clear_value v29
    refine Within.forEach ?_ (fun y31 y32 h33 => ?_)
    · exact h30
    · exact State.deadLetter_in (hM.of rfl) h33

theorem State.loseChannel_in {p2} (hM : Incl 0x219afd7fd2701dfdebc M) (h : Within M s x) : Within M s (State.loseChannel x p2) := by
  unfold State.loseChannel
  refine Within.ite ?_ (fun _ => ?_)
  · extract_lets -merge +onlyGivenNames v1
    have h2 : Within M s v1 := State.notice_in (hM.of rfl) (State.setFlag_in (hM.of rfl) (hM.of rfl) h)
    clear_value v1
    extract_lets -merge +onlyGivenNames v3
    subst v3
    extract_lets -merge +onlyGivenNames v4
    have h5 : Within M s v4 := by
      unfold v4
      refine Within.ite ?_ (fun _ => ?_)
      · exact State.setFlag_in (hM.of rfl) (hM.of rfl) h2
      · exact State.setFlag_in (hM.of rfl) (hM.of rfl) h2
    clear_value v4
    extract_lets -merge +onlyGivenNames v6
    have h7 : Within M s v6 := State.notice_in (hM.of rfl) (State.setFlag_in (hM.of rfl) (hM.of rfl) h5)
    clear_value v6
    refine Within.ite ?_ (fun _ => ?_)
    · extract_lets -merge +onlyGivenNames v8 v9
      clear_value v8 v9
      extract_lets -merge +onlyGivenNames v10
      have h11 : Within M s v10 := Within.set_mem h7 (hM.of rfl)
      clear_value v10
      refine State.refreshDeg_in (hM.of rfl) ?_
      refine Within.forEach ?_ (fun y12 y13 h14 => ?_)
      · exact h11
      · exact State.loseRegion_in (hM.of rfl) h14
    · exact State.fatal_in (hM.of rfl) h7
  · exact h

theorem State.setUeTimes_in {p2} {p3} (hM : Incl 0x400000 M) (h : Within M s x) : Within M s (State.setUeTimes x p2 p3) := by
  unfold State.setUeTimes
  refine Within.ite ?_ (fun _ => ?_)
  · exact Within.set_mem h (hM.of rfl)
  · exact Within.set_mem h (hM.of rfl)

theorem State.dramLast_in {p2} {p3} {p4} (hM : Incl 0x100000000000000 M) (h : Within M s x) : Within M s (State.dramLast x p2 p3 p4) := by
  unfold State.dramLast
  exact State.setFlag_in (hM.of rfl) (hM.of rfl) (State.wr_in (hM.of rfl) (State.wr_in (hM.of rfl) h))

theorem State.dramCount_in {p2} {p3} (hM : Incl 0x510000100800004 M) (h : Within M s x) : Within M s (State.dramCount x p2 p3) := by
  unfold State.dramCount
  exact State.notice_in (hM.of rfl) (State.dramLast_in (hM.of rfl) (State.inc_in (hM.of rfl) (hM.of rfl) h))

theorem State.dramMet_in {p2} (hM : Incl 0x200acd20d21019040bc M) (h : Within M s x) : Within M s (State.dramMet x p2) := by
  unfold State.dramMet
  split
  · split
    · refine Within.ite ?_ (fun _ => ?_)
      · exact State.kick_in (hM.of rfl) (State.reissue_in (hM.of rfl) h)
      · exact h
    · exact h
  · refine Within.ite ?_ (fun _ => ?_)
    · exact h
    · exact State.selfTestFail_in (hM.of rfl) h

theorem State.ueWindow_in {p2} (hM : Incl 0x219afd7fd2701dfdebc M) (h : Within M s x) : Within M s (State.ueWindow x p2) := by
  unfold State.ueWindow
  extract_lets -merge +onlyGivenNames v1
  clear_value v1
  extract_lets -merge +onlyGivenNames v2
  have h3 : Within M s v2 := State.setUeTimes_in (hM.of rfl) h
  clear_value v2
  refine Within.ite ?_ (fun _ => ?_)
  · exact h3
  · exact State.loseChannel_in (hM.of rfl) h3

theorem execDramUe_in {p1} {p2} {p3} {p4} (hM : Incl 0x219afd7fd2701dfdebe M) : WithinRes M s (execDramUe p1 p2 p3 p4 s) := by
  have h : Within M s s := Within.refl s
  unfold execDramUe
  extract_lets -merge +onlyGivenNames v1
  have h2 : Within M s v1 := State.advance_in (hM.of rfl) h
  clear_value v1
  refine WithinRes.next ?_
  refine Within.ite ?_ (fun _ => ?_)
  · exact State.ueWindow_in (hM.of rfl) (State.dramMet_in (hM.of rfl) (State.dramCount_in (hM.of rfl) h2))
  · exact h2

theorem execDramPatrolPass_in {p1} {p2} {p3} {p4} {p5} (hM : Incl 0x510000100800006 M) : WithinRes M s (execDramPatrolPass p1 p2 p3 p4 p5 s) := by
  have h : Within M s s := Within.refl s
  unfold execDramPatrolPass
  extract_lets -merge +onlyGivenNames v1
  have h2 : Within M s v1 := State.advance_in (hM.of rfl) h
  clear_value v1
  extract_lets -merge +onlyGivenNames v3
  clear_value v3
  refine WithinRes.next ?_
  refine Within.ite ?_ (fun _ => ?_)
  · extract_lets -merge +onlyGivenNames v4
    have h5 : Within M s v4 := State.wr_in (hM.of rfl) h2
    clear_value v4
    extract_lets -merge +onlyGivenNames v6
    extract_lets -merge +onlyGivenNames v7
    have h8 : Within M s v7 := by
      unfold v7
      refine Within.ite ?_ (fun _ => ?_)
      · exact h5
      · exact State.inc_in (hM.of rfl) (hM.of rfl) h5
    clear_value v7
    refine Within.ite ?_ (fun _ => ?_)
    · exact State.noticeFirst_in (hM.of rfl) (State.dramLast_in (hM.of rfl) (State.bump_in (hM.of rfl) (hM.of rfl) h8))
    · exact h8
  · exact h2

theorem State.sramLast_in {p2} {p3} (hM : Incl 0x100000000000000 M) (h : Within M s x) : Within M s (State.sramLast x p2 p3) := by
  unfold State.sramLast
  exact State.wr_in (hM.of rfl) (State.wr_in (hM.of rfl) h)

theorem execSramUe_in {p1} {p2} {p3} (hM : Incl 0x219afd6ff27019bdebe M) : WithinRes M s (execSramUe p1 p2 p3 s) := by
  have h : Within M s s := Within.refl s
  unfold execSramUe
  extract_lets -merge +onlyGivenNames v1
  have h2 : Within M s v1 := State.advance_in (hM.of rfl) h
  clear_value v1
  refine WithinRes.next ?_
  refine Within.ite ?_ (fun _ => ?_)
  · extract_lets -merge +onlyGivenNames v3
    have h4 : Within M s v3 := State.notice_in (hM.of rfl) (State.sramLast_in (hM.of rfl) (State.inc_in (hM.of rfl) (hM.of rfl) h2))
    clear_value v3
    extract_lets -merge +onlyGivenNames v5
    have h6 : Within M s v5 := by
      unfold v5
      refine Within.ite ?_ (fun _ => ?_)
      · exact h4
      · exact State.selfTestFail_in (hM.of rfl) h4
    clear_value v5
    refine Within.ite ?_ (fun _ => ?_)
    · exact State.fatal_in (hM.of rfl) h6
    · exact State.fence_in (hM.of rfl) h6
  · exact h2

theorem execSramScrubPass_in {p1} {p2} {p3} {p4} (hM : Incl 0x510000100800006 M) : WithinRes M s (execSramScrubPass p1 p2 p3 p4 s) := by
  have h : Within M s s := Within.refl s
  unfold execSramScrubPass
  extract_lets -merge +onlyGivenNames v1
  have h2 : Within M s v1 := State.advance_in (hM.of rfl) h
  clear_value v1
  refine WithinRes.next ?_
  refine Within.ite ?_ (fun _ => ?_)
  · extract_lets -merge +onlyGivenNames v3
    have h4 : Within M s v3 := State.inc_in (hM.of rfl) (hM.of rfl) h2
    clear_value v3
    refine Within.ite ?_ (fun _ => ?_)
    · exact State.noticeFirst_in (hM.of rfl) (State.sramLast_in (hM.of rfl) (State.bump_in (hM.of rfl) (hM.of rfl) h4))
    · exact h4
  · exact h2

theorem State.katRan_in {p2} (hM : Incl 0x8 M) (h : Within M s x) : Within M s (State.katRan x p2) := by
  unfold State.katRan
  split
  · exact State.markRan_in (hM.of rfl) h
  · exact h

theorem execKnownAnswerTest_in {p1} {p2} {p3} (hM : Incl 0x219aed6ff27019bdebe M) : WithinRes M s (execKnownAnswerTest p1 p2 p3 s) := by
  have h : Within M s s := Within.refl s
  unfold execKnownAnswerTest
  extract_lets -merge +onlyGivenNames v1
  clear_value v1
  extract_lets -merge +onlyGivenNames v2
  have h3 : Within M s v2 := State.katRan_in (hM.of rfl) (State.advance_in (hM.of rfl) h)
  clear_value v2
  refine WithinRes.next ?_
  refine Within.ite ?_ (fun _ => ?_)
  · exact State.fence_in (hM.of rfl) (State.selfTestFail_in (hM.of rfl) h3)
  · exact h3

theorem State.mramCorrected_in {p2} {p3} (hM : Incl 0x510000100800004 M) (h : Within M s x) : Within M s (State.mramCorrected x p2 p3) := by
  unfold State.mramCorrected
  refine Within.ite ?_ (fun _ => ?_)
  · exact State.noticeFirst_in (hM.of rfl) (State.wr_in (hM.of rfl) (State.setFlag_in (hM.of rfl) (hM.of rfl) (State.bump_in (hM.of rfl) (hM.of rfl) h)))
  · exact h

theorem execMramReadCheck_in {p1} {p2} {p3} {p4} (hM : Incl 0x514000100800206 M) : WithinRes M s (execMramReadCheck p1 p2 p3 p4 s) := by
  have h : Within M s s := Within.refl s
  unfold execMramReadCheck
  extract_lets -merge +onlyGivenNames v1
  have h2 : Within M s v1 := State.advance_in (hM.of rfl) h
  clear_value v1
  refine WithinRes.next ?_
  refine Within.ite ?_ (fun _ => ?_)
  · extract_lets -merge +onlyGivenNames v3
    clear_value v3
    exact State.mramCorrected_in (hM.of rfl) (State.loadSlots_in (hM.of rfl) (Within.set_key h2 (hM.of rfl)))
  · exact h2

theorem State.keyUe_in {p2} (hM : Incl 0x219aed6fd27019bdebc M) (h : Within M s x) : Within M s (State.keyUe x p2) := by
  unfold State.keyUe
  refine Within.ite ?_ (fun _ => ?_)
  · refine Within.ite ?_ (fun _ => ?_)
    · refine Within.ite ?_ (fun _ => ?_)
      · refine Within.ite ?_ (fun _ => ?_)
        · exact h
        · exact Within.set_key h (hM.of rfl)
      · exact Within.set_key h (hM.of rfl)
    · extract_lets -merge +onlyGivenNames v1 v2 v3
      clear_value v1 v2 v3
      extract_lets -merge +onlyGivenNames v4
      have h5 : Within M s v4 := Within.set_key h (hM.of rfl)
      clear_value v4
      refine Within.forEach ?_ (fun y6 y7 h8 => ?_)
      · exact h5
      · exact State.loadSlot_in (hM.of rfl) h8
  · extract_lets -merge +onlyGivenNames v9 v10 v11
    clear_value v9 v10 v11
    extract_lets -merge +onlyGivenNames v12
    have h13 : Within M s v12 := Within.set_key h (hM.of rfl)
    clear_value v12
    exact State.fatal_in (hM.of rfl) h13

theorem State.jrnUe_in {p2} (hM : Incl 0x3004 M) (h : Within M s x) : Within M s (State.jrnUe x p2) := by
  unfold State.jrnUe
  extract_lets -merge +onlyGivenNames v1
  clear_value v1
  refine Within.ite ?_ (fun _ => ?_)
  · refine Within.ite ?_ (fun _ => ?_)
    · refine Within.ite ?_ (fun _ => ?_)
      · refine Within.ite ?_ (fun _ => ?_)
        · refine Within.ite ?_ (fun _ => ?_)
          · refine Within.ite ?_ (fun _ => ?_)
            · refine Within.ite ?_ (fun _ => ?_)
              · refine Within.ite ?_ (fun _ => ?_)
                · exact h
                · exact Within.set_strt h (hM.of rfl)
              · exact Within.set_strt h (hM.of rfl)
            · exact Within.set_nvs h (hM.of rfl)
          · exact Within.set_nvs h (hM.of rfl)
        · exact Within.set_log h (hM.of rfl)
      · exact Within.set_log h (hM.of rfl)
    · exact Within.set_nvs h (hM.of rfl)
  · exact Within.set_nvs h (hM.of rfl)

theorem State.logUe_in {p2} (hM : Incl 0x10000000000004 M) (h : Within M s x) : Within M s (State.logUe x p2) := by
  unfold State.logUe
  extract_lets -merge +onlyGivenNames v1 v2
  clear_value v1 v2
  exact State.inc_in (hM.of rfl) (hM.of rfl) (Within.set_log h (hM.of rfl))

theorem State.mramCount_in {p2} (hM : Incl 0x510000100800004 M) (h : Within M s x) : Within M s (State.mramCount x p2) := by
  unfold State.mramCount
  exact State.notice_in (hM.of rfl) (State.wr_in (hM.of rfl) (State.setFlag_in (hM.of rfl) (hM.of rfl) (State.inc_in (hM.of rfl) (hM.of rfl) h)))

theorem execMramUe_in {p1} {p2} (hM : Incl 0x219afd6fd27019bfebe M) : WithinRes M s (execMramUe p1 p2 s) := by
  have h : Within M s s := Within.refl s
  unfold execMramUe
  extract_lets -merge +onlyGivenNames v1
  have h2 : Within M s v1 := State.advance_in (hM.of rfl) h
  clear_value v1
  refine WithinRes.next ?_
  refine Within.ite ?_ (fun _ => ?_)
  · extract_lets -merge +onlyGivenNames v3
    have h4 : Within M s v3 := State.mramCount_in (hM.of rfl) h2
    clear_value v3
    refine Within.ite ?_ (fun _ => ?_)
    · refine Within.ite ?_ (fun _ => ?_)
      · refine Within.ite ?_ (fun _ => ?_)
        · refine Within.ite ?_ (fun _ => ?_)
          · refine Within.ite ?_ (fun _ => ?_)
            · refine Within.ite ?_ (fun _ => ?_)
              · exact h4
              · exact State.jrnUe_in (hM.of rfl) h4
            · refine State.keyUe_in (hM.of rfl) ?_
              refine Within.ite ?_ (fun _ => ?_)
              · exact h4
              · exact State.selfTestFail_in (hM.of rfl) h4
          · exact State.logUe_in (hM.of rfl) h4
        · exact State.setBank_in (hM.of rfl) h4
      · exact State.setBank_in (hM.of rfl) h4
    · refine State.fatal_in (hM.of rfl) ?_
      refine Within.ite ?_ (fun _ => ?_)
      · exact h4
      · exact State.selfTestFail_in (hM.of rfl) h4
  · exact h2

theorem State.thermCheck_in (hM : Incl 0x65611210080463c M) (h : Within M s x) : Within M s (State.thermCheck x) := by
  unfold State.thermCheck
  extract_lets -merge +onlyGivenNames v1 v2 v3 v4 v5 v6
  clear_value v1 v2 v3 v4 v5 v6
  extract_lets -merge +onlyGivenNames v7
  have h8 : Within M s v7 := State.setFlag_in (hM.of rfl) (hM.of rfl) (State.setFlag_in (hM.of rfl) (hM.of rfl) h)
  clear_value v7
  extract_lets -merge +onlyGivenNames v9
  have h10 : Within M s v9 := by
    unfold v9
    refine Within.ite ?_ (fun _ => ?_)
    · exact h8
    · exact State.notice_in (hM.of rfl) h8
  clear_value v9
  extract_lets -merge +onlyGivenNames v11
  have h12 : Within M s v11 := by
    unfold v11
    refine Within.ite ?_ (fun _ => ?_)
    · exact h10
    · exact State.notice_in (hM.of rfl) h10
  clear_value v11
  exact State.stdAlarm_in (hM.of rfl) h12

theorem execTjSample_in {p1} {p2} (hM : Incl 0x65611210080463e M) : WithinRes M s (execTjSample p1 p2 s) := by
  have h : Within M s s := Within.refl s
  unfold execTjSample
  extract_lets -merge +onlyGivenNames v1
  have h2 : Within M s v1 := State.advance_in (hM.of rfl) h
  clear_value v1
  refine WithinRes.next ?_
  refine Within.ite ?_ (fun _ => ?_)
  · extract_lets -merge +onlyGivenNames v3
    clear_value v3
    extract_lets -merge +onlyGivenNames v4
    have h5 : Within M s v4 := State.wr_in (hM.of rfl) (State.wr_in (hM.of rfl) h2)
    clear_value v4
    extract_lets -merge +onlyGivenNames v6
    have h7 : Within M s v6 := by
      unfold v6
      refine Within.ite ?_ (fun _ => ?_)
      · exact h5
      · exact State.wr_in (hM.of rfl) h5
    clear_value v6
    exact State.thermCheck_in (hM.of rfl) h7
  · exact h2

theorem execTjPeakReset_in {p1} (hM : Incl 0x610000100804004 M) : WithinRes M s (execTjPeakReset p1 s) := by
  have h : Within M s s := Within.refl s
  unfold execTjPeakReset
  refine WithinRes.next ?_
  refine State.hostGate_in (hM.of rfl) h (fun y1 h2 => ?_)
  exact State.wr_in (hM.of rfl) h2

theorem State.railBit_in {p2 : Fld} {p3 : ℕ} {p4 : Bool} (_hM : Incl 0x0 M) (kk1 : Incl (fldMask p2) M) (h : Within M s x) : Within M s (State.railBit x p2 p3 p4) := by
  unfold State.railBit
  extract_lets -merge +onlyGivenNames v1
  clear_value v1
  exact State.wr_in kk1 h

theorem execSupplyExcursion_in {p1} {p2} {p3} (hM : Incl 0x610000100800004 M) : WithinRes M s (execSupplyExcursion p1 p2 p3 s) := by
  have h : Within M s s := Within.refl s
  unfold execSupplyExcursion
  extract_lets -merge +onlyGivenNames v1
  subst v1
  extract_lets -merge +onlyGivenNames v2
  clear_value v2
  refine WithinRes.next ?_
  refine Within.ite ?_ (fun _ => ?_)
  · refine Within.ite ?_ (fun _ => ?_)
    · exact State.railBit_in (hM.of rfl) (hM.of rfl) h
    · extract_lets -merge +onlyGivenNames v3
      extract_lets -merge +onlyGivenNames v4
      have h5 : Within M s v4 := State.railBit_in (hM.of rfl) (hM.of rfl) (State.railBit_in (hM.of rfl) (sub_ite (hM.of rfl) (hM.of rfl)) h)
      clear_value v4
      refine Within.ite ?_ (fun _ => ?_)
      · exact h5
      · exact State.logEvent_in (hM.of rfl) h5
  · exact h

theorem State.i2cWrite_in {p2} (hM : Incl 0x610000100c00004 M) (h : Within M s x) : Within M s (State.i2cWrite x p2) := by
  unfold State.i2cWrite
  extract_lets -merge +onlyGivenNames v1
  clear_value v1
  extract_lets -merge +onlyGivenNames v2
  have h3 : Within M s v2 := State.store_in (hM.of rfl) (hM.of rfl) h
  clear_value v2
  refine Within.ite ?_ (fun _ => ?_)
  · extract_lets -merge +onlyGivenNames v4 v5 v6
    clear_value v4 v5 v6
    extract_lets -merge +onlyGivenNames v7
    have h8 : Within M s v7 := Within.set_mem h3 (hM.of rfl)
    clear_value v7
    exact State.emit_in (hM.of rfl) (State.wr_in (hM.of rfl) h8)
  · exact h3

theorem execI2cGo_in {p1} (hM : Incl 0x610000100c04004 M) : WithinRes M s (execI2cGo p1 s) := by
  have h : Within M s s := Within.refl s
  unfold execI2cGo
  refine WithinRes.next ?_
  refine State.hostGate_in (hM.of rfl) h (fun y1 h2 => ?_)
  exact State.i2cWrite_in (hM.of rfl) h2

theorem execI2cDone_in {p1} {p2} (hM : Incl 0x200000000400000 M) : WithinRes M s (execI2cDone p1 p2 s) := by
  have h : Within M s s := Within.refl s
  unfold execI2cDone
  refine WithinRes.next ?_
  split
  · exact h
  · extract_lets -merge +onlyGivenNames v1
    clear_value v1
    extract_lets -merge +onlyGivenNames v2
    have h3 : Within M s v2 := Within.set_mem h (hM.of rfl)
    clear_value v2
    refine Within.ite ?_ (fun _ => ?_)
    · exact State.wr_in (hM.of rfl) h3
    · extract_lets -merge +onlyGivenNames v4 v5
      clear_value v4 v5
      extract_lets -merge +onlyGivenNames v6
      have h7 : Within M s v6 := by
        unfold v6
        refine Within.ite ?_ (fun _ => ?_)
        · exact h3
        · exact State.wr_in (hM.of rfl) h3
      clear_value v6
      exact State.wr_in (hM.of rfl) h7

theorem State.doorbellBad_in {p2} {p3} (hM : Incl 0x410000100800004 M) (h : Within M s x) : Within M s (State.doorbellBad x p2 p3) := by
  unfold State.doorbellBad
  exact State.notice_in (hM.of rfl) h

theorem State.prCons_in {p2 : ℕ} {p3 : Fld} {p4 : Fld} {p5 : ℕ} {p6 : Word} (hM : Incl 0x410000100800004 M) (kk1 : Incl (fldMask p4) M) (h : Within M s x) : Within M s (State.prCons x p2 p3 p4 p5 p6) := by
  unfold State.prCons
  refine Within.ite ?_ (fun _ => ?_)
  · exact State.doorbellBad_in (hM.of rfl) h
  · exact State.wr_in kk1 h

theorem State.bell_in {p2} {p3} {p4} (hM : Incl 0x800000 M) (h : Within M s x) (kp4 : ∀ b1 b2, Within M s b2 → Within M s (p4 b1 b2)) : Within M s (State.bell x p2 p3 p4) := by
  unfold State.bell
  split
  · refine Within.ite ?_ (fun _ => ?_)
    · exact h
    · exact State.answer_in (hM.of rfl) h
  · refine Within.ite ?_ (fun _ => ?_)
    · exact h
    · exact kp4 _ _ h

theorem execPrDoorbell_in {p1} {p2} {p3} (hM : Incl 0x450000100800004 M) : WithinRes M s (execPrDoorbell p1 p2 p3 s) := by
  have h : Within M s s := Within.refl s
  unfold execPrDoorbell
  extract_lets -merge +onlyGivenNames v1
  clear_value v1
  refine WithinRes.next ?_
  refine State.bell_in (hM.of rfl) h (fun y2 y3 h4 => ?_)
  extract_lets -merge +onlyGivenNames v5
  have h6 : Within M s v5 := by
    unfold v5
    split
    · rename_i z7 z8
      exact State.prCons_in (hM.of rfl) (hM.of rfl) h4
    · rename_i z9
      exact h4
  clear_value v5
  extract_lets -merge +onlyGivenNames v10
  have h11 : Within M s v10 := by
    unfold v10
    split
    · rename_i z12 z13
      exact State.prCons_in (hM.of rfl) (hM.of rfl) h6
    · rename_i z14
      exact h6
  clear_value v10
  refine Within.ite ?_ (fun _ => ?_)
  · exact h11
  · exact State.prResume_in (hM.of rfl) h11

theorem execModTimeout_in {p1} {p2} (hM : Incl 0x400000000800012 M) : WithinRes M s (execModTimeout p1 p2 s) := by
  have h : Within M s s := Within.refl s
  unfold execModTimeout
  extract_lets -merge +onlyGivenNames v1
  have h2 : Within M s v1 := State.advance_in (hM.of rfl) h
  clear_value v1
  extract_lets -merge +onlyGivenNames v3
  clear_value v3
  refine WithinRes.ite ?_ ?_
  · exact WithinRes.next h2
  · exact WithinRes.next (State.raiseVector_in (hM.of rfl) (Within.set_hif h2 (hM.of rfl)))

theorem State.prClear_in {p2} (hM : Incl 0x40000000000010 M) (h : Within M s x) : Within M s (State.prClear x p2) := by
  unfold State.prClear
  extract_lets -merge +onlyGivenNames v1
  clear_value v1
  extract_lets -merge +onlyGivenNames v2
  have h3 : Within M s v2 := Within.set_hif h (hM.of rfl)
  clear_value v2
  extract_lets -merge +onlyGivenNames v4
  have h5 : Within M s v4 := State.wr_in (hM.of rfl) (State.wr_in (hM.of rfl) h3)
  clear_value v4
  extract_lets -merge +onlyGivenNames v6
  have h7 : Within M s v6 := State.wr_in (hM.of rfl) (State.wr_in (hM.of rfl) h5)
  clear_value v6
  exact State.setFlag_in (hM.of rfl) (hM.of rfl) (State.wr_in (hM.of rfl) h7)

theorem State.prCfg_in {p2 : ℕ} {p3 : Word} (hM : Incl 0x450000100800014 M) (kk1 : Incl (areaBit (Reg.PR_CFG_EN.off [p2])) M) (h : Within M s x) : Within M s (State.prCfg x p2 p3) := by
  unfold State.prCfg
  extract_lets -merge +onlyGivenNames v1
  have h2 : Within M s v1 := State.store_in (hM.of rfl) kk1 h
  clear_value v1
  refine Within.ite ?_ (fun _ => ?_)
  · exact h2
  · exact State.prClear_in (hM.of rfl) h2

theorem execPrEnable_in {p1 : Fin 128} {p2 : Word} (hM : Incl 0x450000100804014 M) (kk1 : Incl (areaBit (Reg.PR_CFG_EN.off [↑p1])) M) : WithinRes M s (execPrEnable p1 p2 s) := by
  have h : Within M s s := Within.refl s
  unfold execPrEnable
  refine WithinRes.next ?_
  refine State.hostGate_in (hM.of rfl) h (fun y1 h2 => ?_)
  exact State.prCfg_in (hM.of rfl) kk1 h2

theorem State.lbCfg_in {p2 : ℕ} {p3 : Word} (hM : Incl 0x490000100800014 M) (kk1 : Incl (areaBit (Reg.LB_CFG_EN.off [p2])) M) (h : Within M s x) : Within M s (State.lbCfg x p2 p3) := by
  unfold State.lbCfg
  extract_lets -merge +onlyGivenNames v1
  have h2 : Within M s v1 := State.store_in (hM.of rfl) kk1 h
  clear_value v1
  refine Within.ite ?_ (fun _ => ?_)
  · exact h2
  · extract_lets -merge +onlyGivenNames v3
    clear_value v3
    extract_lets -merge +onlyGivenNames v4
    have h5 : Within M s v4 := Within.set_hif h2 (hM.of rfl)
    clear_value v4
    exact State.wr_in (hM.of rfl) (State.wr_in (hM.of rfl) (State.wr_in (hM.of rfl) h5))

theorem execLbEnable_in {p1 : Fin 16} {p2 : Word} (hM : Incl 0x490000100804014 M) (kk1 : Incl (areaBit (Reg.LB_CFG_EN.off [↑p1])) M) : WithinRes M s (execLbEnable p1 p2 s) := by
  have h : Within M s s := Within.refl s
  unfold execLbEnable
  refine WithinRes.next ?_
  refine State.hostGate_in (hM.of rfl) h (fun y1 h2 => ?_)
  exact State.lbCfg_in (hM.of rfl) kk1 h2

theorem execLbDoorbell_in {p1} {p2} (hM : Incl 0x490000100800004 M) : WithinRes M s (execLbDoorbell p1 p2 s) := by
  have h : Within M s s := Within.refl s
  unfold execLbDoorbell
  refine WithinRes.next ?_
  refine State.bell_in (hM.of rfl) h (fun y1 y2 h3 => ?_)
  split
  · exact h3
  · refine Within.ite ?_ (fun _ => ?_)
    · exact State.doorbellBad_in (hM.of rfl) h3
    · exact State.wr_in (hM.of rfl) h3

theorem execLbCommandFetched_in {p1} {p2} {p3} (hM : Incl 0xacd001010080001e M) : WithinRes M s (execLbCommandFetched p1 p2 p3 s) := by
  have h : Within M s s := Within.refl s
  unfold execLbCommandFetched
  extract_lets -merge +onlyGivenNames v1
  have h2 : Within M s v1 := State.advance_in (hM.of rfl) h
  clear_value v1
  refine WithinRes.ite ?_ ?_
  · exact WithinRes.next h2
  · exact WithinRes.next (State.enqueueC3_in (hM.of rfl) (State.inc_in (hM.of rfl) (hM.of rfl) h2))

theorem execRingPcieError_in {p1} {p2} (hM : Incl 0x4d0000100800004 M) : WithinRes M s (execRingPcieError p1 p2 s) := by
  have h : Within M s s := Within.refl s
  unfold execRingPcieError
  refine WithinRes.ite ?_ ?_
  · refine WithinRes.ite ?_ ?_
    · refine WithinRes.ite ?_ ?_
      · exact WithinRes.next h
      · exact WithinRes.next (State.notice_in (hM.of rfl) (State.setFlag_in (hM.of rfl) (hM.of rfl) (State.setFlag_in (hM.of rfl) (hM.of rfl) h)))
    · refine WithinRes.ite ?_ ?_
      · exact WithinRes.next h
      · exact WithinRes.next (State.notice_in (hM.of rfl) (State.setFlag_in (hM.of rfl) (hM.of rfl) (State.setFlag_in (hM.of rfl) (hM.of rfl) h)))
  · exact WithinRes.next h

theorem execBmeOff_in (hM : Incl 0x430000100800004 M) : WithinRes M s (execBmeOff s) := by
  have h : Within M s s := Within.refl s
  unfold execBmeOff
  refine WithinRes.ite ?_ ?_
  · exact WithinRes.next h
  · exact WithinRes.next (State.notice_in (hM.of rfl) (State.setFlag_in (hM.of rfl) (hM.of rfl) h))

theorem execBusMasteringOn_in {p1} (hM : Incl 0x20000000000010 M) : WithinRes M s (execBusMasteringOn p1 s) := by
  have h : Within M s s := Within.refl s
  unfold execBusMasteringOn
  refine WithinRes.ite ?_ ?_
  · exact WithinRes.next h
  · exact WithinRes.next (State.setFlag_in (hM.of rfl) (hM.of rfl) (Within.set_hif h (hM.of rfl)))

theorem execPcieLinkUp_in (hM : Incl 0x20000000000000 M) : WithinRes M s (execPcieLinkUp s) := by
  have h : Within M s s := Within.refl s
  unfold execPcieLinkUp
  refine WithinRes.ite ?_ ?_
  · exact WithinRes.next h
  · exact WithinRes.next (State.setFlag_in (hM.of rfl) (hM.of rfl) h)

theorem State.ringsOff_in (hM : Incl 0xc0000000000000 M) (h : Within M s x) : Within M s (State.ringsOff x) := by
  unfold State.ringsOff
  extract_lets -merge +onlyGivenNames v1
  have h2 : Within M s v1 := by
    unfold v1
    refine Within.forEach ?_ (fun y3 y4 h5 => ?_)
    · exact h
    · refine Within.ite ?_ (fun _ => ?_)
      · exact h5
      · exact State.setFlag_in (hM.of rfl) (hM.of rfl) (State.setFlag_in (hM.of rfl) (hM.of rfl) h5)
  clear_value v1
  refine Within.forEach ?_ (fun y6 y7 h8 => ?_)
  · exact h2
  · refine Within.ite ?_ (fun _ => ?_)
    · exact h8
    · exact State.setFlag_in (hM.of rfl) (hM.of rfl) (State.setFlag_in (hM.of rfl) (hM.of rfl) h8)

theorem State.perst_in (hM : Incl 0x4f0000100800014 M) (h : Within M s x) : Within M s (State.perst x) := by
  unfold State.perst
  extract_lets -merge +onlyGivenNames v1
  clear_value v1
  extract_lets -merge +onlyGivenNames v2
  have h3 : Within M s v2 := Within.set_hif h (hM.of rfl)
  clear_value v2
  extract_lets -merge +onlyGivenNames v4
  have h5 : Within M s v4 := State.setFlag_in (hM.of rfl) (hM.of rfl) (State.setFlag_in (hM.of rfl) (hM.of rfl) h3)
  clear_value v4
  exact State.notice_in (hM.of rfl) (State.ringsOff_in (hM.of rfl) h5)

theorem execPerst_in (hM : Incl 0x4f0000100800014 M) : WithinRes M s (execPerst s) := by
  have h : Within M s s := Within.refl s
  unfold execPerst
  refine WithinRes.ite ?_ ?_
  · exact WithinRes.next h
  · exact WithinRes.next (State.perst_in (hM.of rfl) h)

end Sys2Proof.Machine
end

