-- ==== Sys2Proof/Laws/WithinStart.lean ====
section
/-! SUPPORT. What each operation and each meaning may change: the start. -/
namespace Sys2Proof.Machine

variable {M : Nat} {s x : State}

theorem State.flashAbandon_in (hM : Incl 0x1002000 M) (h : Within M s x) : Within M s (State.flashAbandon x) := by
  unfold State.flashAbandon
  split
  · exact h
  · extract_lets -merge +onlyGivenNames v1 v2
    clear_value v1 v2
    extract_lets -merge +onlyGivenNames v3
    have h4 : Within M s v3 := Within.set_nvs_free h (hM.of rfl)
    clear_value v3
    exact State.flashPut_in (hM.of rfl) h4

theorem State.powerCut_in (hM : Incl 0x1002005 M) (h : Within M s x) : Within M s (State.powerCut x) := by
  unfold State.powerCut
  refine Within.ite ?_ (fun _ => ?_)
  · exact h
  · extract_lets -merge +onlyGivenNames v1
    have h2 : Within M s v1 := State.flashAbandon_in (hM.of rfl) h
    clear_value v1
    exact Within.set_powered_log h2 (hM.of rfl)

theorem State.coldClear_in (hM : Incl 0x5fcef8 M) (h : Within M s x) : Within M s (State.coldClear x) := by
  unfold State.coldClear
  exact Within.set_sof_hif_net_adm_whl_key_alm_glb_pair_acq_nrg_cap_cmp_osc_isl_mem h (hM.of rfl)

theorem State.startClear_in (hM : Incl 0x1000 M) (h : Within M s x) : Within M s (State.startClear x) := by
  unfold State.startClear
  exact Within.set_strt h (hM.of rfl)

theorem State.loadTime_in (hM : Incl 0x200106 M) (h : Within M s x) : Within M s (State.loadTime x) := by
  unfold State.loadTime
  extract_lets -merge +onlyGivenNames v1 v2
  clear_value v1 v2
  exact Within.set_now_log_tb_bkd h (hM.of rfl)

theorem State.showStart_in {p2} {p3} {p4} (hM : Incl 0x400000000 M) (h : Within M s x) : Within M s (State.showStart x p2 p3 p4) := by
  unfold State.showStart
  exact State.setFlag_in (hM.of rfl) (hM.of rfl) (State.wr_in (hM.of rfl) (State.wr_in (hM.of rfl) h))

theorem State.showOe_in (hM : Incl 0x1900001000000 M) (h : Within M s x) : Within M s (State.showOe x) := by
  unfold State.showOe
  exact State.cmpShow_in (hM.of rfl) (State.showLines_in (hM.of rfl) (State.setFlag_in (hM.of rfl) (hM.of rfl) h))

theorem State.coldReset_in (hM : Incl 0x3fffffffffff015fdef8 M) (h : Within M s x) : Within M s (State.coldReset x) := by
  unfold State.coldReset
  exact State.staged_in (hM.of rfl) (State.showOe_in (hM.of rfl) (State.resetKinds_in (hM.of rfl) (State.startClear_in (hM.of rfl) (State.coldClear_in (hM.of rfl) h))))

theorem State.startOps_in (hM : Incl 0x410000100800004 M) (h : Within M s x) : Within M s (State.startOps x) := by
  unfold State.startOps
  extract_lets -merge +onlyGivenNames v1 v2 v3
  clear_value v1 v2 v3
  extract_lets -merge +onlyGivenNames v4
  have h5 : Within M s v4 := State.wr_in (hM.of rfl) (State.wr_in (hM.of rfl) h)
  clear_value v4
  extract_lets -merge +onlyGivenNames v6
  have h7 : Within M s v6 := State.saveOps_in (hM.of rfl) h5
  clear_value v6
  refine Within.ite ?_ (fun _ => ?_)
  · exact h7
  · exact State.logEvent_in (hM.of rfl) h7

theorem State.coldTime_in (hM : Incl 0x410000100a01106 M) (h : Within M s x) : Within M s (State.coldTime x) := by
  unfold State.coldTime
  extract_lets -merge +onlyGivenNames v1
  have h2 : Within M s v1 := State.loadTime_in (hM.of rfl) h
  clear_value v1
  extract_lets -merge +onlyGivenNames v3
  clear_value v3
  extract_lets -merge +onlyGivenNames v4
  have h5 : Within M s v4 := State.steerFrame_in (hM.of rfl) (Within.set_strt h2 (hM.of rfl))
  clear_value v4
  extract_lets -merge +onlyGivenNames v6
  have h7 : Within M s v6 := by
    unfold v6
    refine Within.ite ?_ (fun _ => ?_)
    · exact h5
    · exact State.notice_in (hM.of rfl) (State.logEvent_in (hM.of rfl) h5)
  clear_value v6
  extract_lets -merge +onlyGivenNames v8
  clear_value v8
  refine Within.forEach ?_ (fun y9 y10 h11 => ?_)
  · exact Within.set_bkd h7 (hM.of rfl)
  · exact State.notice_in (hM.of rfl) h11

theorem State.coldBegin_in {p2} {p3} (hM : Incl 0x3fffffffffff01ffffff M) (h : Within M s x) : Within M s (State.coldBegin x p2 p3) := by
  unfold State.coldBegin
  extract_lets -merge +onlyGivenNames v1
  have h2 : Within M s v1 := by
    unfold v1
    refine Within.ite ?_ (fun _ => ?_)
    · exact State.countOpsec_in (hM.of rfl) h
    · exact h
  clear_value v1
  extract_lets -merge +onlyGivenNames v3
  have h4 : Within M s v3 := State.flashAbandon_in (hM.of rfl) h2
  clear_value v3
  extract_lets -merge +onlyGivenNames v5
  clear_value v5
  extract_lets -merge +onlyGivenNames v6
  have h7 : Within M s v6 := Within.set_powered_strt h4 (hM.of rfl)
  clear_value v6
  extract_lets -merge +onlyGivenNames v8
  have h9 : Within M s v8 := State.coldTime_in (hM.of rfl) (State.showStart_in (hM.of rfl) (State.coldReset_in (hM.of rfl) h7))
  clear_value v8
  extract_lets -merge +onlyGivenNames v10
  have h11 : Within M s v10 := by
    unfold v10
    refine Within.ite ?_ (fun _ => ?_)
    · exact h9
    · exact State.startOps_in (hM.of rfl) h9
  clear_value v10
  refine Within.ite ?_ (fun _ => ?_)
  · exact h11
  · exact State.wr_in (hM.of rfl) h11

theorem State.warmTime_in {p2} (hM : Incl 0x410000900a00106 M) (h : Within M s x) : Within M s (State.warmTime x p2) := by
  unfold State.warmTime
  extract_lets -merge +onlyGivenNames v1 v2 v3
  clear_value v1 v2 v3
  refine Within.ite ?_ (fun _ => ?_)
  · extract_lets -merge +onlyGivenNames v4 v5
    clear_value v4 v5
    extract_lets -merge +onlyGivenNames v6
    have h7 : Within M s v6 := Within.set_tb h (hM.of rfl)
    clear_value v6
    extract_lets -merge +onlyGivenNames v8
    have h9 : Within M s v8 := State.refreshUtc_in (hM.of rfl) h7
    clear_value v8
    refine Within.ite ?_ (fun _ => ?_)
    · exact State.wr_in (hM.of rfl) (State.setTb_in (hM.of rfl) h9)
    · extract_lets -merge +onlyGivenNames v10
      have h11 : Within M s v10 := State.setTb_in (hM.of rfl) h9
      clear_value v10
      exact Within.set_tb h11 (hM.of rfl)
  · extract_lets -merge +onlyGivenNames v12
    have h13 : Within M s v12 := State.loadTime_in (hM.of rfl) h
    clear_value v12
    extract_lets -merge +onlyGivenNames v14
    have h15 : Within M s v14 := State.wr_in (hM.of rfl) (State.setWord_in (hM.of rfl) h13)
    clear_value v14
    exact State.refreshUtc_in (hM.of rfl) (State.steerFrame_in (hM.of rfl) h15)

theorem State.warmAdm_in (hM : Incl 0x1800000000000060 M) (h : Within M s x) : Within M s (State.warmAdm x) := by
  unfold State.warmAdm
  extract_lets -merge +onlyGivenNames v1 v2 v3
  clear_value v1 v2 v3
  extract_lets -merge +onlyGivenNames v4
  have h5 : Within M s v4 := Within.set_adm h (hM.of rfl)
  clear_value v4
  extract_lets -merge +onlyGivenNames v6
  have h7 : Within M s v6 := by
    unfold v6
    refine Within.forEach ?_ (fun y8 y9 h10 => ?_)
    · exact h5
    · refine Within.ite ?_ (fun _ => ?_)
      · exact h10
      · exact State.wr_in (hM.of rfl) (State.putDesc_in (hM.of rfl) h10)
  clear_value v6
  extract_lets -merge +onlyGivenNames v11 v12
  clear_value v11 v12
  exact Within.set_net h7 (hM.of rfl)

theorem State.warmWhl_in (hM : Incl 0x2800108000000080 M) (h : Within M s x) : Within M s (State.warmWhl x) := by
  unfold State.warmWhl
  extract_lets -merge +onlyGivenNames v1
  clear_value v1
  extract_lets -merge +onlyGivenNames v2
  have h3 : Within M s v2 := Within.set_whl h (hM.of rfl)
  clear_value v2
  extract_lets -merge +onlyGivenNames v4
  have h5 : Within M s v4 := by
    unfold v4
    refine Within.forEach ?_ (fun y6 y7 h8 => ?_)
    · exact h3
    · extract_lets -merge +onlyGivenNames v9
      clear_value v9
      refine Within.ite ?_ (fun _ => ?_)
      · exact State.put_in (hM.of rfl) h8
      · exact State.put_in (hM.of rfl) h8
  clear_value v4
  extract_lets -merge +onlyGivenNames v10
  clear_value v10
  refine Within.forEach ?_ (fun y11 y12 h13 => ?_)
  · exact h5
  · refine Within.ite ?_ (fun _ => ?_)
    · exact State.stabWr_in (hM.of rfl) (hM.of rfl) h13
    · exact h13

theorem State.warmSof_in (hM : Incl 0x8 M) (h : Within M s x) : Within M s (State.warmSof x) := by
  unfold State.warmSof
  extract_lets -merge +onlyGivenNames v1
  clear_value v1
  exact Within.set_sof h (hM.of rfl)

theorem State.warmNet_in (hM : Incl 0x20 M) (h : Within M s x) : Within M s (State.warmNet x) := by
  unfold State.warmNet
  exact Within.set_net h (hM.of rfl)

theorem State.warmAlm_in (hM : Incl 0x400000000000000400 M) (h : Within M s x) : Within M s (State.warmAlm x) := by
  unfold State.warmAlm
  extract_lets -merge +onlyGivenNames v1 v2
  clear_value v1 v2
  extract_lets -merge +onlyGivenNames v3
  have h4 : Within M s v3 := Within.set_alm h (hM.of rfl)
  clear_value v3
  refine Within.forEach ?_ (fun y5 y6 h7 => ?_)
  · exact h4
  · exact State.setFlag_in (hM.of rfl) (hM.of rfl) (State.amRest_in (hM.of rfl) h7)

theorem State.warmNrg_in (hM : Incl 0x45041010081001c M) (h : Within M s x) : Within M s (State.warmNrg x) := by
  unfold State.warmNrg
  extract_lets -merge +onlyGivenNames v1
  have h2 : Within M s v1 := by
    unfold v1
    refine Within.forEach ?_ (fun y3 y4 h5 => ?_)
    · exact h
    · extract_lets -merge +onlyGivenNames v6
      have h7 : Within M s v6 := State.pqEndAll_in (hM.of rfl) h5
      clear_value v6
      exact State.setNrgPt_in (hM.of rfl) h7
  clear_value v1
  exact h2

theorem State.warmCap_in (hM : Incl 0x60000 M) (h : Within M s x) : Within M s (State.warmCap x) := by
  unfold State.warmCap
  extract_lets -merge +onlyGivenNames v1 v2
  clear_value v1 v2
  exact Within.set_cap_cmp h (hM.of rfl)

theorem State.warmClear_in (hM : Incl 0x4038001080005ecef8 M) (h : Within M s x) : Within M s (State.warmClear x) := by
  unfold State.warmClear
  extract_lets -merge +onlyGivenNames v1 v2 v3 v4 v5 v6
  clear_value v1 v2 v3 v4 v5 v6
  extract_lets -merge +onlyGivenNames v7
  have h8 : Within M s v7 := State.warmCap_in (hM.of rfl) (State.warmAlm_in (hM.of rfl) (State.warmNet_in (hM.of rfl) (State.warmSof_in (hM.of rfl) (State.warmWhl_in (hM.of rfl) (State.warmAdm_in (hM.of rfl) h)))))
  clear_value v7
  exact Within.set_hif_key_glb_pair_acq_osc_isl_mem h8 (hM.of rfl)

theorem State.warmRegs_in (hM : Incl 0x3fffffffffff01000000 M) (h : Within M s x) : Within M s (State.warmRegs x) := by
  unfold State.warmRegs
  extract_lets -merge +onlyGivenNames v1 v2
  clear_value v1 v2
  exact State.staged_in (hM.of rfl) (State.showOe_in (hM.of rfl) (State.wr_in (hM.of rfl) (State.wr_in (hM.of rfl) (State.resetKinds_in (hM.of rfl) h))))

theorem State.restartStep2_in {p2} (hM : Incl 0x3fffffffffff015ffff8 M) (h : Within M s x) : Within M s (State.restartStep2 x p2) := by
  unfold State.restartStep2
  extract_lets -merge +onlyGivenNames v1 v2 v3 v4 v5
  clear_value v1 v2 v3 v4 v5
  extract_lets -merge +onlyGivenNames v6
  have h7 : Within M s v6 := State.flashAbandon_in (hM.of rfl) h
  clear_value v6
  extract_lets -merge +onlyGivenNames v8
  have h9 : Within M s v8 := State.coldReset_in (hM.of rfl) h7
  clear_value v8
  extract_lets -merge +onlyGivenNames v10
  have h11 : Within M s v10 := by
    unfold v10
    refine Within.ite ?_ (fun _ => ?_)
    · exact Within.set_tb h9 (hM.of rfl)
    · exact State.warmRegs_in (hM.of rfl) (State.startClear_in (hM.of rfl) (State.warmClear_in (hM.of rfl) h7))
  clear_value v10
  extract_lets -merge +onlyGivenNames v12
  clear_value v12
  extract_lets -merge +onlyGivenNames v13
  have h14 : Within M s v13 := Within.set_strt h11 (hM.of rfl)
  clear_value v13
  exact State.wr_in (hM.of rfl) (State.wr_in (hM.of rfl) (State.showStart_in (hM.of rfl) h14))

theorem State.warmBegin_in {p2} {p3} (hM : Incl 0x3fffffffffff01fffffe M) (h : Within M s x) : Within M s (State.warmBegin x p2 p3) := by
  unfold State.warmBegin
  refine Within.ite ?_ (fun _ => ?_)
  · refine Within.ite ?_ (fun _ => ?_)
    · extract_lets -merge +onlyGivenNames v1 v2
      clear_value v1 v2
      extract_lets -merge +onlyGivenNames v3
      have h4 : Within M s v3 := State.countOpsec_in (hM.of rfl) h
      clear_value v3
      extract_lets -merge +onlyGivenNames v5
      have h6 : Within M s v5 := State.warmNrg_in (hM.of rfl) h4
      clear_value v5
      extract_lets -merge +onlyGivenNames v7
      have h8 : Within M s v7 := State.warmRegs_in (hM.of rfl) (State.startClear_in (hM.of rfl) (State.warmClear_in (hM.of rfl) (State.flashAbandon_in (hM.of rfl) h6)))
      clear_value v7
      extract_lets -merge +onlyGivenNames v9
      have h10 : Within M s v9 := State.wr_in (hM.of rfl) (State.showStart_in (hM.of rfl) h8)
      clear_value v9
      extract_lets -merge +onlyGivenNames v11
      clear_value v11
      extract_lets -merge +onlyGivenNames v12
      have h13 : Within M s v12 := Within.set_strt h10 (hM.of rfl)
      clear_value v12
      extract_lets -merge +onlyGivenNames v14
      have h15 : Within M s v14 := State.warmTime_in (hM.of rfl) h13
      clear_value v14
      exact Within.set_strt h15 (hM.of rfl)
    · exact State.restartStep2_in (hM.of rfl) h
  · exact h

theorem State.strtNotice_in {p2} {p3} {p4} {p5} (hM : Incl 0x410000100801004 M) (h : Within M s x) : Within M s (State.strtNotice x p2 p3 p4 p5) := by
  unfold State.strtNotice
  refine Within.ite ?_ (fun _ => ?_)
  · exact State.notice_in (hM.of rfl) h
  · exact Within.set_strt h (hM.of rfl)

theorem State.lockout_in (hM : Incl 0x219aed6fd27019bdebc M) (h : Within M s x) : Within M s (State.lockout x) := by
  unfold State.lockout
  extract_lets -merge +onlyGivenNames v1
  have h2 : Within M s v1 := State.saveRec_in (hM.of rfl) (State.wr_in (hM.of rfl) h)
  clear_value v1
  exact State.modeTo_in (hM.of rfl) (State.notice_in (hM.of rfl) h2)

theorem State.countFail_in {p2} {p3} (hM : Incl 0x400001000 M) (h : Within M s x) : Within M s (State.countFail x p2 p3) := by
  unfold State.countFail
  exact State.saveRec_in (hM.of rfl) (State.incSat_in (hM.of rfl) (hM.of rfl) (State.wr_in (hM.of rfl) (State.wr_in (hM.of rfl) h)))

theorem State.startFail_in {p2} {p3} (hM : Incl 0x219aed6fd27019bdebc M) (h : Within M s x) : Within M s (State.startFail x p2 p3) := by
  unfold State.startFail
  extract_lets -merge +onlyGivenNames v1
  have h2 : Within M s v1 := State.strtNotice_in (hM.of rfl) (State.countFail_in (hM.of rfl) h)
  clear_value v1
  refine Within.ite ?_ (fun _ => ?_)
  · exact Within.set_strt h2 (hM.of rfl)
  · refine Within.ite ?_ (fun _ => ?_)
    · exact State.lockout_in (hM.of rfl) h2
    · exact Within.set_strt h2 (hM.of rfl)

theorem State.phase_in {p2} (hM : Incl 0x400000000 M) (h : Within M s x) : Within M s (State.phase x p2) := by
  unfold State.phase
  refine Within.ite ?_ (fun _ => ?_)
  · exact h
  · exact State.wr_in (hM.of rfl) h

theorem State.showOpen_in (hM : Incl 0x400000000 M) (h : Within M s x) : Within M s (State.showOpen x) := by
  unfold State.showOpen
  exact State.setFlag_in (hM.of rfl) (hM.of rfl) h

theorem State.startFuses_in {p2} (hM : Incl 0x219aed6fd27019bdebc M) (h : Within M s x) : Within M s (State.startFuses x p2) := by
  unfold State.startFuses
  extract_lets -merge +onlyGivenNames v1
  clear_value v1
  extract_lets -merge +onlyGivenNames v2
  have h3 : Within M s v2 := Within.set_strt h (hM.of rfl)
  clear_value v2
  extract_lets -merge +onlyGivenNames v4
  have h5 : Within M s v4 := State.showDebug_in (hM.of rfl) (State.wrWords_in (hM.of rfl) (hM.of rfl) (State.wr_in (hM.of rfl) h3))
  clear_value v4
  extract_lets -merge +onlyGivenNames v6
  have h7 : Within M s v6 := State.showOpen_in (hM.of rfl) h5
  clear_value v6
  refine Within.ite ?_ (fun _ => ?_)
  · exact State.phase_in (hM.of rfl) h7
  · exact State.fatal_in (hM.of rfl) h7

theorem State.settleRec_in {p2} (hM : Incl 0x418000100803204 M) (h : Within M s x) : Within M s (State.settleRec x p2) := by
  unfold State.settleRec
  split
  · extract_lets -merge +onlyGivenNames v1
    clear_value v1
    extract_lets -merge +onlyGivenNames v2
    have h3 : Within M s v2 := by
      unfold v2
      refine Within.ite ?_ (fun _ => ?_)
      · exact h
      · exact Within.set_nvs h (hM.of rfl)
    clear_value v2
    exact State.notice_in (hM.of rfl) (State.setFlag_in (hM.of rfl) (hM.of rfl) h3)
  · extract_lets -merge +onlyGivenNames v4 v5
    clear_value v4 v5
    extract_lets -merge +onlyGivenNames v6
    have h7 : Within M s v6 := by
      unfold v6
      refine Within.ite ?_ (fun _ => ?_)
      · exact Within.set_key h (hM.of rfl)
      · exact Within.set_key h (hM.of rfl)
    clear_value v6
    exact Within.set_strt h7 (hM.of rfl)

theorem State.settleJournal_in (hM : Incl 0x418000100803204 M) (h : Within M s x) : Within M s (State.settleJournal x) := by
  unfold State.settleJournal
  extract_lets -merge +onlyGivenNames v1
  have h2 : Within M s v1 := by
    unfold v1
    refine Within.forEach ?_ (fun y3 y4 h5 => ?_)
    · exact h
    · exact State.settleRec_in (hM.of rfl) h5
  clear_value v1
  exact Within.set_nvs h2 (hM.of rfl)

theorem State.takeRec_in (hM : Incl 0x410000500801004 M) (h : Within M s x) : Within M s (State.takeRec x) := by
  unfold State.takeRec
  split
  · extract_lets -merge +onlyGivenNames v1
    have h2 : Within M s v1 := State.wr_in (hM.of rfl) (State.wr_in (hM.of rfl) (State.wr_in (hM.of rfl) h))
    clear_value v1
    extract_lets -merge +onlyGivenNames v3
    have h4 : Within M s v3 := State.wr_in (hM.of rfl) (State.wr_in (hM.of rfl) (State.wr_in (hM.of rfl) h2))
    clear_value v3
    extract_lets -merge +onlyGivenNames v5
    have h6 : Within M s v5 := State.wr_in (hM.of rfl) (State.wr_in (hM.of rfl) (State.setFlag_in (hM.of rfl) (hM.of rfl) h4))
    clear_value v5
    extract_lets -merge +onlyGivenNames v7
    have h8 : Within M s v7 := State.wr_in (hM.of rfl) (State.wrWords_in (hM.of rfl) (hM.of rfl) h6)
    clear_value v7
    exact Within.set_strt h8 (hM.of rfl)
  · extract_lets -merge +onlyGivenNames v9
    clear_value v9
    extract_lets -merge +onlyGivenNames v10
    have h11 : Within M s v10 := State.wr_in (hM.of rfl) (State.wr_in (hM.of rfl) (State.wr_in (hM.of rfl) h))
    clear_value v10
    extract_lets -merge +onlyGivenNames v12
    have h13 : Within M s v12 := State.wr_in (hM.of rfl) (State.wr_in (hM.of rfl) (State.wr_in (hM.of rfl) h11))
    clear_value v12
    extract_lets -merge +onlyGivenNames v14
    have h15 : Within M s v14 := State.wr_in (hM.of rfl) (State.wr_in (hM.of rfl) (State.setFlag_in (hM.of rfl) (hM.of rfl) h13))
    clear_value v14
    extract_lets -merge +onlyGivenNames v16
    have h17 : Within M s v16 := State.wr_in (hM.of rfl) (State.wrWords_in (hM.of rfl) (hM.of rfl) h15)
    clear_value v16
    exact State.strtNotice_in (hM.of rfl) (Within.set_strt h17 (hM.of rfl))

theorem State.startRecord_in (hM : Incl 0x418000500803204 M) (h : Within M s x) : Within M s (State.startRecord x) := by
  unfold State.startRecord
  extract_lets -merge +onlyGivenNames v1
  have h2 : Within M s v1 := State.showSel_in (hM.of rfl) (State.settleJournal_in (hM.of rfl) h)
  clear_value v1
  extract_lets -merge +onlyGivenNames v3
  have h4 : Within M s v3 := State.takeRec_in (hM.of rfl) h2
  clear_value v3
  extract_lets -merge +onlyGivenNames v5
  have h6 : Within M s v5 := by
    unfold v5
    refine Within.ite ?_ (fun _ => ?_)
    · refine Within.ite ?_ (fun _ => ?_)
      · exact State.inc_in (hM.of rfl) (hM.of rfl) h4
      · exact State.inc_in (hM.of rfl) (hM.of rfl) h4
    · exact h4
  clear_value v5
  extract_lets -merge +onlyGivenNames v7
  clear_value v7
  extract_lets -merge +onlyGivenNames v8
  have h9 : Within M s v8 := Within.set_strt h6 (hM.of rfl)
  clear_value v8
  extract_lets -merge +onlyGivenNames v10
  extract_lets -merge +onlyGivenNames v11
  have h12 : Within M s v11 := by
    unfold v11
    refine Within.ite ?_ (fun _ => ?_)
    · exact h9
    · exact State.wr_in (hM.of rfl) h9
  clear_value v11
  exact State.phase_in (hM.of rfl) (State.saveRec_in (hM.of rfl) (State.setFlag_in (hM.of rfl) (hM.of rfl) h12))

theorem State.testKeys_in (hM : Incl 0x414000100802204 M) (h : Within M s x) : Within M s (State.testKeys x) := by
  unfold State.testKeys
  extract_lets -merge +onlyGivenNames v1
  clear_value v1
  extract_lets -merge +onlyGivenNames v2
  have h3 : Within M s v2 := by
    unfold v2
    refine Within.ite ?_ (fun _ => ?_)
    · exact h
    · exact State.setCat_in (hM.of rfl) h
  clear_value v2
  refine Within.ite ?_ (fun _ => ?_)
  · exact h3
  · split
    · exact State.install_in (hM.of rfl) h3
    · exact h3

theorem State.expireStart_in (hM : Incl 0x414000100800204 M) (h : Within M s x) : Within M s (State.expireStart x) := by
  unfold State.expireStart
  extract_lets -merge +onlyGivenNames v1
  clear_value v1
  refine Within.forEach ?_ (fun y2 y3 h4 => ?_)
  · exact h
  · exact State.endSlot_in (hM.of rfl) h4

theorem State.loadCache_in (hM : Incl 0x414000100800204 M) (h : Within M s x) : Within M s (State.loadCache x) := by
  unfold State.loadCache
  extract_lets -merge +onlyGivenNames v1
  clear_value v1
  refine Within.ite ?_ (fun _ => ?_)
  · extract_lets -merge +onlyGivenNames v2
    clear_value v2
    extract_lets -merge +onlyGivenNames v3
    have h4 : Within M s v3 := Within.set_key h (hM.of rfl)
    clear_value v3
    extract_lets -merge +onlyGivenNames v5
    have h6 : Within M s v5 := State.loadSlots_in (hM.of rfl) h4
    clear_value v5
    exact Within.set_key h6 (hM.of rfl)
  · refine Within.forEach ?_ (fun y7 y8 h9 => ?_)
    · exact h
    · exact State.loadSlot_in (hM.of rfl) h9

theorem State.startKeys_in {p2} (hM : Incl 0x219aed6fd27019bfebc M) (h : Within M s x) : Within M s (State.startKeys x p2) := by
  unfold State.startKeys
  extract_lets -merge +onlyGivenNames v1
  clear_value v1
  extract_lets -merge +onlyGivenNames v2
  have h3 : Within M s v2 := Within.set_key h (hM.of rfl)
  clear_value v2
  refine Within.ite ?_ (fun _ => ?_)
  · extract_lets -merge +onlyGivenNames v4
    have h5 : Within M s v4 := State.loadCache_in (hM.of rfl) (State.expireStart_in (hM.of rfl) (State.testKeys_in (hM.of rfl) h3))
    clear_value v4
    extract_lets -merge +onlyGivenNames v6
    have h7 : Within M s v6 := by
      unfold v6
      refine State.showKeyStat_in (hM.of rfl) ?_
      refine Within.forEach ?_ (fun y8 y9 h10 => ?_)
      · exact h5
      · exact State.showSlot_in (hM.of rfl) h10
    clear_value v6
    extract_lets -merge +onlyGivenNames v11
    have h12 : Within M s v11 := State.setFlag_in (hM.of rfl) (hM.of rfl) h7
    clear_value v11
    refine State.phase_in (hM.of rfl) ?_
    refine Within.ite ?_ (fun _ => ?_)
    · exact h12
    · exact State.notice_in (hM.of rfl) h12
  · exact State.fatal_in (hM.of rfl) h3

theorem State.findHead_in (hM : Incl 0x10000000000000 M) (h : Within M s x) : Within M s (State.findHead x) := by
  unfold State.findHead
  extract_lets -merge +onlyGivenNames v1
  clear_value v1
  extract_lets -merge +onlyGivenNames v2
  have h3 : Within M s v2 := by
    unfold v2
    split
    · exact State.wr_in (hM.of rfl) h
    · exact h
  clear_value v2
  exact State.wr_in (hM.of rfl) h3

theorem State.testSeal_in {p2} (hM : Incl 0x45611210080463c M) (h : Within M s x) : Within M s (State.testSeal x p2) := by
  unfold State.testSeal
  refine Within.ite ?_ (fun _ => ?_)
  · extract_lets -merge +onlyGivenNames v1
    extract_lets -merge +onlyGivenNames v2
    have h3 : Within M s v2 := Within.set_log h (hM.of rfl)
    clear_value v2
    refine Within.ite ?_ (fun _ => ?_)
    · exact State.stdAlarm_in (hM.of rfl) (State.noticeQuiet_in (hM.of rfl) h3)
    · extract_lets -merge +onlyGivenNames v4
      clear_value v4
      extract_lets -merge +onlyGivenNames v5
      extract_lets -merge +onlyGivenNames v6
      have h7 : Within M s v6 := Within.set_log h3 (hM.of rfl)
      clear_value v6
      exact State.noticeQuiet_in (hM.of rfl) (State.setFlag_in (hM.of rfl) (hM.of rfl) h7)
  · exact h

theorem State.startLog_in {p2} (hM : Incl 0x219aed6fd27019bdebc M) (h : Within M s x) : Within M s (State.startLog x p2) := by
  unfold State.startLog
  extract_lets -merge +onlyGivenNames v1
  have h2 : Within M s v1 := State.testSeal_in (hM.of rfl) h
  clear_value v1
  extract_lets -merge +onlyGivenNames v3
  clear_value v3
  extract_lets -merge +onlyGivenNames v4
  have h5 : Within M s v4 := by
    unfold v4
    refine Within.ite ?_ (fun _ => ?_)
    · exact State.findHead_in (hM.of rfl) h2
    · exact h2
  clear_value v4
  extract_lets -merge +onlyGivenNames v6
  have h7 : Within M s v6 := State.phase_in (hM.of rfl) (State.setFlag_in (hM.of rfl) (hM.of rfl) h5)
  clear_value v6
  extract_lets -merge +onlyGivenNames v8 v9
  clear_value v8 v9
  extract_lets -merge +onlyGivenNames v10
  have h11 : Within M s v10 := Within.set_strt h7 (hM.of rfl)
  clear_value v10
  extract_lets -merge +onlyGivenNames v12
  have h13 : Within M s v12 := by
    unfold v12
    refine Within.forEach ?_ (fun y14 y15 h16 => ?_)
    · exact h11
    · exact State.notice_in (hM.of rfl) h16
  clear_value v12
  extract_lets -merge +onlyGivenNames v17
  have h18 : Within M s v17 := State.countOpsec_in (hM.of rfl) h13
  clear_value v17
  extract_lets -merge +onlyGivenNames v19
  have h20 : Within M s v19 := State.logEvent_in (hM.of rfl) h18
  clear_value v19
  refine Within.ite ?_ (fun _ => ?_)
  · exact h20
  · exact State.lockout_in (hM.of rfl) h20

theorem State.refusedImage_in {p2} {p3} (hM : Incl 0x410000500801004 M) (h : Within M s x) : Within M s (State.refusedImage x p2 p3) := by
  unfold State.refusedImage
  extract_lets -merge +onlyGivenNames v1
  clear_value v1
  extract_lets -merge +onlyGivenNames v2
  have h3 : Within M s v2 := Within.set_strt h (hM.of rfl)
  clear_value v2
  exact State.notice_in (hM.of rfl) (State.wr_in (hM.of rfl) (State.wr_in (hM.of rfl) h3))

theorem State.nextImage_in {k} (hM : Incl 0x219aed6fd27019bdebc M) (h : Within M s x) : Within M s (State.nextImage x k) := by
  induction k generalizing x with
  | zero => exact h
  | succ k ih =>
    unfold State.nextImage
    split
    · rename_i n r _
      extract_lets q a d sh code
      have ha : Within M s a := Within.set_strt h (hM.of rfl)
      clear_value a
      refine Within.ite ?_ fun _ => ih (State.refusedImage_in (hM.of rfl) ha)
      refine Within.ite ?_ fun _ => Within.set_strt ha (hM.of rfl)
      exact Within.ite (ih (State.refusedImage_in (hM.of rfl) ha)) fun _ => Within.set_strt ha (hM.of rfl)
    · extract_lets sh
      exact Within.ite (State.startFail_in (hM.of rfl) h) fun _ => Within.set_strt h (hM.of rfl)

theorem State.chooseImage_in (hM : Incl 0x219aed6fd27019bdebc M) (h : Within M s x) : Within M s (State.chooseImage x) := by
  unfold State.chooseImage
  extract_lets -merge +onlyGivenNames v1 v2 v3
  clear_value v1 v2 v3
  exact State.nextImage_in (hM.of rfl) (Within.set_strt h (hM.of rfl))

theorem State.imageStep_in (hM : Incl 0x219aed6fd27019bdebc M) (h : Within M s x) : Within M s (State.imageStep x) := by
  unfold State.imageStep
  extract_lets -merge +onlyGivenNames v1
  clear_value v1
  extract_lets -merge +onlyGivenNames v2
  have h3 : Within M s v2 := Within.set_strt h (hM.of rfl)
  clear_value v2
  extract_lets -merge +onlyGivenNames v4
  clear_value v4
  refine Within.ite ?_ (fun _ => ?_)
  · exact State.chooseImage_in (hM.of rfl) h3
  · exact Within.set_strt h3 (hM.of rfl)

theorem State.useStart_in {p2} (hM : Incl 0x400001000 M) (h : Within M s x) : Within M s (State.useStart x p2) := by
  unfold State.useStart
  extract_lets -merge +onlyGivenNames v1
  clear_value v1
  exact State.showOpen_in (hM.of rfl) (Within.set_strt h (hM.of rfl))

theorem State.acceptImage_in {p2} {p3} {p4} (hM : Incl 0x410000500801004 M) (h : Within M s x) : Within M s (State.acceptImage x p2 p3 p4) := by
  unfold State.acceptImage
  extract_lets -merge +onlyGivenNames v1 v2 v3 v4 v5
  clear_value v1 v2 v3 v4 v5
  extract_lets -merge +onlyGivenNames v6
  have h7 : Within M s v6 := Within.set_strt h (hM.of rfl)
  clear_value v6
  extract_lets -merge +onlyGivenNames v8
  have h9 : Within M s v8 := State.wr_in (hM.of rfl) (State.wr_in (hM.of rfl) (State.wrWords_in (hM.of rfl) (hM.of rfl) h7))
  clear_value v8
  extract_lets -merge +onlyGivenNames v10
  have h11 : Within M s v10 := State.wr_in (hM.of rfl) (State.wr_in (hM.of rfl) h9)
  clear_value v10
  extract_lets -merge +onlyGivenNames v12
  have h13 : Within M s v12 := by
    unfold v12
    refine Within.ite ?_ (fun _ => ?_)
    · exact h11
    · exact State.notice_in (hM.of rfl) h11
  clear_value v12
  exact State.saveRec_in (hM.of rfl) (State.useStart_in (hM.of rfl) h13)

theorem State.judgeImage_in {k} (hM : Incl 0x219aed6fd27019bdebc M) (h : Within M s x) : Within M s (State.judgeImage x k) := by
  induction k generalizing x with
  | zero => exact h
  | succ k ih =>
    unfold State.judgeImage
    refine Within.ite h fun _ => ?_
    split
    · exact h
    · extract_lets q a
      have ha : Within M s a := Within.set_strt h (hM.of rfl)
      clear_value a
      refine Within.ite ?_ fun _ => State.phase_in (hM.of rfl) (State.useStart_in (hM.of rfl) ha)
      refine Within.ite ?_ fun _ => State.phase_in (hM.of rfl) (State.acceptImage_in (hM.of rfl) ha)
      exact Within.ite (ih (State.nextImage_in (hM.of rfl) (State.refusedImage_in (hM.of rfl) ha))) fun _ => State.startFail_in (hM.of rfl) ha

theorem State.dramChannel_in {p2} {p3} {p4} {p5} (hM : Incl 0x100000201000000 M) (h : Within M s x) : Within M s (State.dramChannel x p2 p3 p4 p5) := by
  unfold State.dramChannel
  extract_lets -merge +onlyGivenNames v1
  have h2 : Within M s v1 := State.setFlag_in (hM.of rfl) (hM.of rfl) (State.wr_in (hM.of rfl) h)
  clear_value v1
  extract_lets -merge +onlyGivenNames v3
  have h4 : Within M s v3 := State.setFlag_in (hM.of rfl) (hM.of rfl) h2
  clear_value v3
  extract_lets -merge +onlyGivenNames v5
  have h6 : Within M s v5 := State.wr_in (sub_ite (hM.of rfl) (hM.of rfl)) h4
  clear_value v5
  refine Within.ite ?_ (fun _ => ?_)
  · split
    rename_i z7 z8 z9 z10
    have h11 : Within M s z9 := Within.of_snd z10 (State.draw_in (hM.of rfl) h6)
    exact State.setFlag_in (hM.of rfl) (hM.of rfl) h11
  · exact h6

theorem State.dramStep_in {p2} {p3} {p4} {p5} {p6} {p7} (hM : Incl 0x219afd7fd2701dfdebc M) (h : Within M s x) : Within M s (State.dramStep x p2 p3 p4 p5 p6 p7) := by
  unfold State.dramStep
  extract_lets -merge +onlyGivenNames v1
  clear_value v1
  extract_lets -merge +onlyGivenNames v2
  have h3 : Within M s v2 := Within.set_strt h (hM.of rfl)
  clear_value v2
  extract_lets -merge +onlyGivenNames v4
  have h5 : Within M s v4 := State.wr_in (hM.of rfl) (State.dramChannel_in (hM.of rfl) (State.dramChannel_in (hM.of rfl) h3))
  clear_value v4
  extract_lets -merge +onlyGivenNames v6
  have h7 : ∀ b1 b2 b3, Within M s b3 → Within M s (v6 b1 b2 b3) := by
    intro y8 y9 y10 h11
    unfold v6
    refine Within.ite ?_ (fun _ => ?_)
    · exact h11
    · refine Within.forEach ?_ (fun y12 y13 h14 => ?_)
      · exact State.notice_in (hM.of rfl) h11
      · exact State.loseRegion_in (hM.of rfl) h14
  clear_value v6
  extract_lets -merge +onlyGivenNames v15
  have h16 : Within M s v15 := by
    unfold v15
    refine h7 _ _ _ ?_
    exact h7 _ _ _ h5
  clear_value v15
  extract_lets -merge +onlyGivenNames v17
  have h18 : Within M s v17 := by
    unfold v17
    refine Within.ite ?_ (fun _ => ?_)
    · exact State.loseChannel_in (hM.of rfl) h16
    · exact h16
  clear_value v17
  refine Within.ite ?_ (fun _ => ?_)
  · exact State.loseChannel_in (hM.of rfl) h18
  · exact h18

theorem State.startSorters_in {p2} (hM : Incl 0x219aed6ff27019bdebc M) (h : Within M s x) : Within M s (State.startSorters x p2) := by
  unfold State.startSorters
  extract_lets -merge +onlyGivenNames v1
  have h2 : Within M s v1 := State.wr_in (hM.of rfl) (State.wr_in (hM.of rfl) h)
  clear_value v1
  extract_lets -merge +onlyGivenNames v3
  have h4 : Within M s v3 := by
    unfold v3
    refine Within.forEach ?_ (fun y5 y6 h7 => ?_)
    · exact h2
    · exact State.fence_in (hM.of rfl) h7
  clear_value v3
  exact State.phase_in (hM.of rfl) (State.sorterFloor_in (hM.of rfl) (State.refreshDeg_in (hM.of rfl) h4))

theorem State.manifestWrite_in {p2 : ℕ} {p3 : ℕ} {p4 : ℕ} (hM : Incl 0x2000200000008000 M) (kk1 : Incl (areaBit p2) M) (h : Within M s x) : Within M s (State.manifestWrite x p2 p3 p4) := by
  unfold State.manifestWrite
  extract_lets -merge +onlyGivenNames v1
  clear_value v1
  refine Within.ite ?_ (fun _ => ?_)
  · exact State.cfgLoaded_in (hM.of rfl) (State.setWord_in kk1 h)
  · extract_lets -merge +onlyGivenNames v2
    clear_value v2
    exact State.setWord_in kk1 h

theorem State.applyEnts_in {p2} {p3} (hM : Incl 0x3fffffffffff00008000 M) (h : Within M s x) : Within M s (State.applyEnts x p2 p3) := by
  unfold State.applyEnts
  refine Within.forEach ?_ (fun y1 y2 h3 => ?_)
  · exact h
  · refine Within.ite ?_ (fun _ => ?_)
    · exact h3
    · exact State.manifestWrite_in (hM.of rfl) (sub_any (hM.of rfl)) h3

theorem State.applyStart_in {p2} (hM : Incl 0x400000000 M) (h : Within M s x) : Within M s (State.applyStart x p2) := by
  unfold State.applyStart
  extract_lets -merge +onlyGivenNames v1
  clear_value v1
  exact State.wr_in (hM.of rfl) (State.wr_in (hM.of rfl) (State.setFlag_in (hM.of rfl) (hM.of rfl) (State.setFlag_in (hM.of rfl) (hM.of rfl) h)))

theorem State.applyDram_in {p2} (hM : Incl 0x800000400000 M) (h : Within M s x) : Within M s (State.applyDram x p2) := by
  unfold State.applyDram
  extract_lets -merge +onlyGivenNames v1 v2 v3
  clear_value v1 v2 v3
  exact State.wr_in (hM.of rfl) (Within.set_mem h (hM.of rfl))

theorem State.clearRange_in {p2} {p3} (hM : Incl 0x3fffffffffff00000000 M) (h : Within M s x) : Within M s (State.clearRange x p2 p3) := by
  unfold State.clearRange
  refine Within.forEach ?_ (fun y1 y2 h3 => ?_)
  · exact h
  · exact State.setWord_in (sub_any (hM.of rfl)) h3

theorem State.reload_in {p2} {p3} {p4} (hM : Incl 0x3fffffffffff00008000 M) (h : Within M s x) : Within M s (State.reload x p2 p3 p4) := by
  unfold State.reload
  exact State.applyEnts_in (hM.of rfl) (State.clearRange_in (hM.of rfl) h)

theorem State.ownerReloads_in {p2} (hM : Incl 0x3fffffffffff00808004 M) (h : Within M s x) : Within M s (State.ownerReloads x p2) := by
  unfold State.ownerReloads
  extract_lets -merge +onlyGivenNames v1
  have h2 : Within M s v1 := State.clearRange_in (hM.of rfl) (State.reload_in (hM.of rfl) h)
  clear_value v1
  extract_lets -merge +onlyGivenNames v3
  have h4 : Within M s v3 := by
    unfold v3
    refine Within.forEach ?_ (fun y5 y6 h7 => ?_)
    · exact h2
    · extract_lets -merge +onlyGivenNames v8
      subst v8
      exact State.logEvent_in (hM.of rfl) (State.reload_in (hM.of rfl) (State.reload_in (hM.of rfl) h7))
  clear_value v3
  extract_lets -merge +onlyGivenNames v9
  clear_value v9
  refine Within.ite ?_ (fun _ => ?_)
  · exact h4
  · exact State.logEvent_in (hM.of rfl) (State.reload_in (hM.of rfl) (State.reload_in (hM.of rfl) h4))

theorem State.applyManifest_in (hM : Incl 0x3fffffffffff00c08004 M) (h : Within M s x) : Within M s (State.applyManifest x) := by
  unfold State.applyManifest
  extract_lets -merge +onlyGivenNames v1 v2
  clear_value v1 v2
  refine Within.ite ?_ (fun _ => ?_)
  · refine Within.ite ?_ (fun _ => ?_)
    · exact State.applyEnts_in (hM.of rfl) (State.ownerReloads_in (hM.of rfl) h)
    · exact State.applyEnts_in (hM.of rfl) (State.applyDram_in (hM.of rfl) (State.applyStart_in (hM.of rfl) (State.ownerReloads_in (hM.of rfl) h)))
  · exact State.applyEnts_in (hM.of rfl) (State.applyDram_in (hM.of rfl) (State.applyStart_in (hM.of rfl) h))

theorem State.applySetting_in {p1} {p2} (hM : Incl 0x3fffffffffff00808004 M) (h : Within M s x) : Within M s (State.applySetting p1 p2 x) := by
  unfold State.applySetting
  extract_lets -merge +onlyGivenNames v1
  clear_value v1
  refine Within.ite ?_ (fun _ => ?_)
  · extract_lets -merge +onlyGivenNames v2
    have h3 : Within M s v2 := by
      unfold v2
      refine Within.ite ?_ (fun _ => ?_)
      · exact h
      · exact State.wr_in (hM.of rfl) h
    clear_value v2
    exact State.inc_in (hM.of rfl) (hM.of rfl) h3
  · extract_lets -merge +onlyGivenNames v4 v5 v6
    clear_value v4 v5 v6
    extract_lets -merge +onlyGivenNames v7
    have h8 : Within M s v7 := by
      unfold v7
      refine Within.ite ?_ (fun _ => ?_)
      · exact State.logRefused_in (hM.of rfl) h
      · exact h
    clear_value v7
    exact State.inc_in (hM.of rfl) (hM.of rfl) (State.cfgLoaded_in (hM.of rfl) (State.setWord_in (sub_any (hM.of rfl)) h8))

theorem State.applySettings_in (hM : Incl 0x3fffffffffff00808004 M) (h : Within M s x) : Within M s (State.applySettings x) := by
  unfold State.applySettings
  extract_lets -merge +onlyGivenNames v1
  clear_value v1
  extract_lets -merge +onlyGivenNames v2
  have h3 : Within M s v2 := by
    unfold v2
    split
    · exact h
    · extract_lets -merge +onlyGivenNames v4
      clear_value v4
      refine Within.ite ?_ (fun _ => ?_)
      · refine Within.ite ?_ (fun _ => ?_)
        · refine State.notice_in (hM.of rfl) ?_
          refine Within.forEach ?_ (fun y5 y6 h7 => ?_)
          · exact h
          · exact State.applySetting_in (hM.of rfl) h7
        · exact State.notice_in (hM.of rfl) (State.setFlag_in (hM.of rfl) (hM.of rfl) h)
      · exact State.notice_in (hM.of rfl) (State.setFlag_in (hM.of rfl) (hM.of rfl) h)
  clear_value v2
  exact State.logEvent_in (hM.of rfl) h3

theorem State.startApply_in (hM : Incl 0x3fffffffffff00c08004 M) (h : Within M s x) : Within M s (State.startApply x) := by
  unfold State.startApply
  extract_lets -merge +onlyGivenNames v1
  have h2 : Within M s v1 := State.applySettings_in (hM.of rfl) (State.applyManifest_in (hM.of rfl) h)
  clear_value v1
  exact State.phase_in (hM.of rfl) (State.showPon_in (hM.of rfl) (State.setFlag_in (hM.of rfl) (hM.of rfl) h2))

theorem State.restoreCounters_in (hM : Incl 0x414000100800204 M) (h : Within M s x) : Within M s (State.restoreCounters x) := by
  unfold State.restoreCounters
  extract_lets -merge +onlyGivenNames v1 v2 v3 v4 v5 v6 v7
  clear_value v1 v2 v3 v4 v5 v6 v7
  extract_lets -merge +onlyGivenNames v8
  have h9 : Within M s v8 := Within.set_key h (hM.of rfl)
  clear_value v8
  extract_lets -merge +onlyGivenNames v10
  have h11 : Within M s v10 := by
    unfold v10
    refine Within.ite ?_ (fun _ => ?_)
    · exact h9
    · exact State.notice_in (hM.of rfl) h9
  clear_value v10
  refine Within.forEach ?_ (fun y12 y13 h14 => ?_)
  · exact h11
  · extract_lets -merge +onlyGivenNames v15 v16 v17 v18
    clear_value v15 v16 v17 v18
    refine Within.ite ?_ (fun _ => ?_)
    · exact State.reserve_in (hM.of rfl) (State.showSlot_in (hM.of rfl) h14)
    · exact State.endSlot_in (hM.of rfl) h14

theorem State.restoreEnergy_in (hM : Incl 0x410400100810004 M) (h : Within M s x) : Within M s (State.restoreEnergy x) := by
  unfold State.restoreEnergy
  extract_lets -merge +onlyGivenNames v1 v2
  clear_value v1 v2
  split
  · refine Within.forEach ?_ (fun y3 y4 h5 => ?_)
    · exact h
    · extract_lets -merge +onlyGivenNames v6 v7
      clear_value v6 v7
      extract_lets -merge +onlyGivenNames v8
      have h9 : Within M s v8 := State.setNrgPt_in (hM.of rfl) h5
      clear_value v8
      extract_lets -merge +onlyGivenNames v10
      have h11 : Within M s v10 := by
        unfold v10
        refine Within.forEach ?_ (fun y12 y13 h14 => ?_)
        · exact h9
        · exact State.put_in (hM.of rfl) h14
      clear_value v10
      exact State.wr_in (hM.of rfl) (State.setFlag_in (hM.of rfl) (hM.of rfl) (State.setFlag_in (hM.of rfl) (hM.of rfl) h11))
  · refine State.notice_in (hM.of rfl) ?_
    refine Within.forEach ?_ (fun y15 y16 h17 => ?_)
    · exact h
    · extract_lets -merge +onlyGivenNames v18
      have h19 : Within M s v18 := State.setNrgPt_in (hM.of rfl) h17
      clear_value v18
      refine Within.forEach ?_ (fun y20 y21 h22 => ?_)
      · exact h19
      · exact State.put_in (hM.of rfl) h22

theorem State.resumeClusters_in (hM : Incl 0x1800000080000100000 M) (h : Within M s x) : Within M s (State.resumeClusters x) := by
  unfold State.resumeClusters
  split
  · exact h
  · extract_lets -merge +onlyGivenNames v1
    clear_value v1
    extract_lets -merge +onlyGivenNames v2
    have h3 : Within M s v2 := Within.set_isl h (hM.of rfl)
    clear_value v2
    refine Within.ite ?_ (fun _ => ?_)
    · extract_lets -merge +onlyGivenNames v4 v5 v6
      clear_value v4 v5 v6
      extract_lets -merge +onlyGivenNames v7
      have h8 : Within M s v7 := Within.set_isl h3 (hM.of rfl)
      clear_value v7
      extract_lets -merge +onlyGivenNames v9
      have h10 : Within M s v9 := by
        unfold v9
        refine Within.forEach ?_ (fun y11 y12 h13 => ?_)
        · exact h8
        · exact State.wr_in (hM.of rfl) (State.wr_in (hM.of rfl) (State.setFlag_in (hM.of rfl) (hM.of rfl) h13))
      clear_value v9
      extract_lets -merge +onlyGivenNames v14
      clear_value v14
      extract_lets -merge +onlyGivenNames v15
      have h16 : Within M s v15 := by
        unfold v15
        refine Within.forEach ?_ (fun y17 y18 h19 => ?_)
        · exact h10
        · exact State.cgEnter_in (hM.of rfl) (State.setFlag_in (hM.of rfl) (hM.of rfl) h19)
      clear_value v15
      refine State.showIsl_in (hM.of rfl) ?_
      refine Within.forEach ?_ (fun y20 y21 h22 => ?_)
      · exact h16
      · exact State.cgCount_in (hM.of rfl) h22
    · exact h3

theorem State.resumeGroups_in (hM : Incl 0x80000 M) (h : Within M s x) : Within M s (State.resumeGroups x) := by
  unfold State.resumeGroups
  refine Within.forEach ?_ (fun y1 y2 h3 => ?_)
  · exact h
  · refine Within.ite ?_ (fun _ => ?_)
    · exact h3
    · exact State.resumeGrp_in (hM.of rfl) h3

theorem State.startRounds_in (hM : Incl 0x410008100800084 M) (h : Within M s x) : Within M s (State.startRounds x) := by
  unfold State.startRounds
  refine Within.forEach ?_ (fun y1 y2 h3 => ?_)
  · exact h
  · extract_lets -merge +onlyGivenNames v4
    clear_value v4
    exact State.showMembers_in (hM.of rfl) (State.wr_in (hM.of rfl) h3)

theorem State.startConns_in (hM : Incl 0x45001210080007c M) (h : Within M s x) : Within M s (State.startConns x) := by
  unfold State.startConns
  extract_lets -merge +onlyGivenNames v1
  have h2 : Within M s v1 := by
    unfold v1
    refine Within.forEach ?_ (fun y3 y4 h5 => ?_)
    · exact h
    · exact State.openConn_in (hM.of rfl) (State.putConn_in (hM.of rfl) h5)
  clear_value v1
  exact State.joinGroups_in (hM.of rfl) (State.openConns_in (hM.of rfl) h2)

theorem State.startBlocks_in (hM : Incl 0x3d9aed6ffaf019bdffc M) (h : Within M s x) : Within M s (State.startBlocks x) := by
  unfold State.startBlocks
  extract_lets -merge +onlyGivenNames v1
  have h2 : Within M s v1 := State.restoreCounters_in (hM.of rfl) h
  clear_value v1
  extract_lets -merge +onlyGivenNames v3
  have h4 : Within M s v3 := by
    unfold v3
    refine Within.ite ?_ (fun _ => ?_)
    · exact State.homeAll_in (hM.of rfl) h2
    · exact State.homeKept_in (hM.of rfl) h2
  clear_value v3
  extract_lets -merge +onlyGivenNames v5
  have h6 : Within M s v5 := by
    unfold v5
    refine Within.forEach ?_ (fun y7 y8 h9 => ?_)
    · exact h4
    · refine Within.ite ?_ (fun _ => ?_)
      · exact h9
      · exact State.showDesc_in (hM.of rfl) h9
  clear_value v5
  extract_lets -merge +onlyGivenNames v10
  have h11 : Within M s v10 := by
    unfold v10
    refine State.startRounds_in (hM.of rfl) ?_
    refine State.startConns_in (hM.of rfl) ?_
    refine Within.forEach ?_ (fun y12 y13 h14 => ?_)
    · exact h6
    · exact State.nameLs_in (hM.of rfl) h14
  clear_value v10
  extract_lets -merge +onlyGivenNames v15
  have h16 : Within M s v15 := by
    unfold v15
    refine State.sameDomnum_in (hM.of rfl) ?_
    refine Within.forEach ?_ (fun y17 y18 h19 => ?_)
    · exact h11
    · refine Within.ite ?_ (fun _ => ?_)
      · exact h19
      · exact State.domTo_in (hM.of rfl) h19
  clear_value v15
  extract_lets -merge +onlyGivenNames v20
  have h21 : Within M s v20 := by
    unfold v20
    refine Within.ite ?_ (fun _ => ?_)
    · exact h16
    · exact State.resumeGroups_in (hM.of rfl) h16
  clear_value v20
  extract_lets -merge +onlyGivenNames v22
  have h23 : Within M s v22 := State.checkMachines_in (hM.of rfl) (State.resumeClusters_in (hM.of rfl) (State.checkAnalysis_in (hM.of rfl) h21))
  clear_value v22
  extract_lets -merge +onlyGivenNames v24
  have h25 : Within M s v24 := by
    unfold v24
    refine Within.forEach ?_ (fun y26 y27 h28 => ?_)
    · exact h23
    · exact State.checkLs_in (hM.of rfl) h28
  clear_value v24
  extract_lets -merge +onlyGivenNames v29
  have h30 : Within M s v29 := by
    unfold v29
    refine Within.ite ?_ (fun _ => ?_)
    · exact State.restoreEnergy_in (hM.of rfl) h25
    · exact h25
  clear_value v29
  extract_lets -merge +onlyGivenNames v31
  have h32 : Within M s v31 := State.intCheck_in (hM.of rfl) h30
  clear_value v31
  extract_lets -merge +onlyGivenNames v33
  clear_value v33
  extract_lets -merge +onlyGivenNames v34
  extract_lets -merge +onlyGivenNames v35
  have h36 : Within M s v35 := Within.set_log h32 (hM.of rfl)
  clear_value v35
  refine State.portsChanged_in (hM.of rfl) ?_
  refine State.tbRefresh_in (hM.of rfl) ?_
  refine Within.ite ?_ (fun _ => ?_)
  · exact h36
  · exact State.stdAlarm_in (hM.of rfl) h36

theorem State.startDone_in (hM : Incl 0x219aed6fd27019bdebc M) (h : Within M s x) : Within M s (State.startDone x) := by
  unfold State.startDone
  extract_lets -merge +onlyGivenNames v1
  clear_value v1
  extract_lets -merge +onlyGivenNames v2
  have h3 : Within M s v2 := State.wr_in (hM.of rfl) (State.setFlag_in (hM.of rfl) (hM.of rfl) h)
  clear_value v2
  extract_lets -merge +onlyGivenNames v4
  have h5 : Within M s v4 := State.notice_in (hM.of rfl) (State.saveRec_in (hM.of rfl) (State.setFlag_in (hM.of rfl) (hM.of rfl) (State.phase_in (hM.of rfl) h3)))
  clear_value v4
  extract_lets -merge +onlyGivenNames v6
  clear_value v6
  extract_lets -merge +onlyGivenNames v7
  have h8 : Within M s v7 := Within.set_pair h5 (hM.of rfl)
  clear_value v7
  refine Within.ite ?_ (fun _ => ?_)
  · extract_lets -merge +onlyGivenNames v9
    have h10 : Within M s v9 := State.modeTo_in (hM.of rfl) h8
    clear_value v9
    extract_lets -merge +onlyGivenNames v11
    clear_value v11
    extract_lets -merge +onlyGivenNames v12
    have h13 : Within M s v12 := by
      unfold v12
      refine Within.ite ?_ (fun _ => ?_)
      · exact h10
      · exact State.setFlag_in (hM.of rfl) (hM.of rfl) (Within.set_pair h10 (hM.of rfl))
    clear_value v12
    exact State.runCheck_in (hM.of rfl) (State.refreshDeg_in (hM.of rfl) h13)
  · exact State.refreshDeg_in (hM.of rfl) (State.modeTo_in (hM.of rfl) h8)

theorem State.startFinish_in (hM : Incl 0x3d9aed6ffaf019bdffc M) (h : Within M s x) : Within M s (State.startFinish x) := by
  unfold State.startFinish
  extract_lets -merge +onlyGivenNames v1
  have h2 : Within M s v1 := State.startBlocks_in (hM.of rfl) h
  clear_value v1
  refine Within.ite ?_ (fun _ => ?_)
  · exact h2
  · exact State.startDone_in (hM.of rfl) h2

theorem execColdStart_in {p1} (hM : Incl 0x3fffffffffff01ffffff M) : WithinRes M s (execColdStart p1 s) := by
  have h : Within M s s := Within.refl s
  unfold execColdStart
  extract_lets -merge +onlyGivenNames v1
  have h2 : Within M s v1 := State.advance_in (hM.of rfl) h
  clear_value v1
  refine WithinRes.next ?_
  refine Within.ite ?_ (fun _ => ?_)
  · exact State.coldBegin_in (hM.of rfl) h2
  · exact h2

theorem execSupplyTrip_in {p1} {p2} {p3} (hM : Incl 0x1002007 M) : WithinRes M s (execSupplyTrip p1 p2 p3 s) := by
  have h : Within M s s := Within.refl s
  unfold execSupplyTrip
  exact WithinRes.next (State.powerCut_in (hM.of rfl) (State.advance_in (hM.of rfl) h))

theorem execPorstNAssert_in {p1} (hM : Incl 0x1002007 M) : WithinRes M s (execPorstNAssert p1 s) := by
  have h : Within M s s := Within.refl s
  unfold execPorstNAssert
  exact WithinRes.next (State.powerCut_in (hM.of rfl) (State.advance_in (hM.of rfl) h))

theorem execWrstNLow_in {p1} {p2} (hM : Incl 0x3fffffffffff01fffffe M) : WithinRes M s (execWrstNLow p1 p2 s) := by
  have h : Within M s s := Within.refl s
  unfold execWrstNLow
  extract_lets -merge +onlyGivenNames v1
  have h2 : Within M s v1 := State.advance_in (hM.of rfl) h
  clear_value v1
  refine WithinRes.next ?_
  refine Within.ite ?_ (fun _ => ?_)
  · exact h2
  · exact State.warmBegin_in (hM.of rfl) h2

theorem State.ctlWrite_in {p2} (hM : Incl 0x3fffffffffff01fffffe M) (h : Within M s x) : Within M s (State.ctlWrite x p2) := by
  unfold State.ctlWrite
  refine Within.ite ?_ (fun _ => ?_)
  · exact h
  · exact State.warmBegin_in (hM.of rfl) h

theorem execWarmStart_in {p1} (hM : Incl 0x3fffffffffff01fffffe M) : WithinRes M s (execWarmStart p1 s) := by
  have h : Within M s s := Within.refl s
  unfold execWarmStart
  exact WithinRes.next (State.ctlWrite_in (hM.of rfl) h)

theorem execWarmStartFull_in {p1} (hM : Incl 0x3fffffffffff01fffffe M) : WithinRes M s (execWarmStartFull p1 s) := by
  have h : Within M s s := Within.refl s
  unfold execWarmStartFull
  exact WithinRes.next (State.ctlWrite_in (hM.of rfl) h)

theorem State.show67_in (hM : Incl 0x400000000 M) (h : Within M s x) : Within M s (State.show67 x) := by
  unfold State.show67
  refine Within.ite ?_ (fun _ => ?_)
  · exact h
  · exact State.phase_in (hM.of rfl) h

theorem State.endStep_in {p2} (hM : Incl 0x3fffffffffff01dffffc M) (h : Within M s x) : Within M s (State.endStep x p2) := by
  unfold State.endStep
  extract_lets -merge +onlyGivenNames v1
  clear_value v1
  split
  · refine Within.ite ?_ (fun _ => ?_)
    · refine Within.ite ?_ (fun _ => ?_)
      · refine Within.ite ?_ (fun _ => ?_)
        · refine Within.ite ?_ (fun _ => ?_)
          · refine Within.ite ?_ (fun _ => ?_)
            · exact h
            · exact State.startFinish_in (hM.of rfl) h
          · exact State.startApply_in (hM.of rfl) h
        · exact State.show67_in (hM.of rfl) (State.judgeImage_in (hM.of rfl) (State.imageStep_in (hM.of rfl) h))
      · exact State.startRecord_in (hM.of rfl) h
    · exact State.phase_in (hM.of rfl) h
  · refine Within.ite ?_ (fun _ => ?_)
    · exact h
    · exact State.startFuses_in (hM.of rfl) h
  · refine Within.ite ?_ (fun _ => ?_)
    · exact h
    · exact State.startKeys_in (hM.of rfl) h
  · refine Within.ite ?_ (fun _ => ?_)
    · exact h
    · exact State.startLog_in (hM.of rfl) h
  · refine Within.ite ?_ (fun _ => ?_)
    · exact h
    · exact State.judgeImage_in (hM.of rfl) (State.dramStep_in (hM.of rfl) h)
  · refine Within.ite ?_ (fun _ => ?_)
    · exact h
    · exact State.startSorters_in (hM.of rfl) h

theorem execStartStepEnd_in {p1} (hM : Incl 0x3fffffffffff01dffffe M) : WithinRes M s (execStartStepEnd p1 s) := by
  have h : Within M s s := Within.refl s
  unfold execStartStepEnd
  extract_lets -merge +onlyGivenNames v1
  have h2 : Within M s v1 := State.advance_in (hM.of rfl) h
  clear_value v1
  refine WithinRes.next ?_
  refine Within.ite ?_ (fun _ => ?_)
  · exact h2
  · exact State.endStep_in (hM.of rfl) h2

theorem execStartTimer_in {p1} (hM : Incl 0x219aed6fd27019bdebe M) : WithinRes M s (execStartTimer p1 s) := by
  have h : Within M s s := Within.refl s
  unfold execStartTimer
  extract_lets -merge +onlyGivenNames v1
  have h2 : Within M s v1 := State.advance_in (hM.of rfl) h
  clear_value v1
  refine WithinRes.next ?_
  refine Within.ite ?_ (fun _ => ?_)
  · exact h2
  · exact State.startFail_in (hM.of rfl) h2

theorem execPllLockTimeout_in {p1} (hM : Incl 0x219aed6fd27019bdebe M) : WithinRes M s (execPllLockTimeout p1 s) := by
  have h : Within M s s := Within.refl s
  unfold execPllLockTimeout
  extract_lets -merge +onlyGivenNames v1
  have h2 : Within M s v1 := State.advance_in (hM.of rfl) h
  clear_value v1
  refine WithinRes.next ?_
  refine Within.ite ?_ (fun _ => ?_)
  · exact h2
  · exact State.startFail_in (hM.of rfl) h2

theorem execStartRetry_in {p1} (hM : Incl 0x3fffffffffff01ffffff M) : WithinRes M s (execStartRetry p1 s) := by
  have h : Within M s s := Within.refl s
  unfold execStartRetry
  extract_lets -merge +onlyGivenNames v1
  have h2 : Within M s v1 := State.advance_in (hM.of rfl) h
  clear_value v1
  refine WithinRes.next ?_
  split
  · refine Within.ite ?_ (fun _ => ?_)
    · exact h2
    · exact State.coldBegin_in (hM.of rfl) h2
  · exact h2

theorem execStableTimer_in {p1} (hM : Incl 0x400001002 M) : WithinRes M s (execStableTimer p1 s) := by
  have h : Within M s s := Within.refl s
  unfold execStableTimer
  extract_lets -merge +onlyGivenNames v1
  have h2 : Within M s v1 := State.advance_in (hM.of rfl) h
  clear_value v1
  refine WithinRes.next ?_
  split
  · refine Within.ite ?_ (fun _ => ?_)
    · exact h2
    · exact State.saveRec_in (hM.of rfl) (State.wr_in (hM.of rfl) h2)
  · exact h2

theorem State.watchdogStart_in {p2} (hM : Incl 0x3fffffffffff01fffffe M) (h : Within M s x) : Within M s (State.watchdogStart x p2) := by
  unfold State.watchdogStart
  extract_lets -merge +onlyGivenNames v1
  have h2 : Within M s v1 := State.warmBegin_in (hM.of rfl) (State.countFail_in (hM.of rfl) h)
  clear_value v1
  exact Within.set_strt h2 (hM.of rfl)

theorem execWatchdogStall_in {p1} (hM : Incl 0x3fffffffffff01fffffe M) : WithinRes M s (execWatchdogStall p1 s) := by
  have h : Within M s s := Within.refl s
  unfold execWatchdogStall
  extract_lets -merge +onlyGivenNames v1
  have h2 : Within M s v1 := State.advance_in (hM.of rfl) h
  clear_value v1
  extract_lets -merge +onlyGivenNames v3
  clear_value v3
  refine WithinRes.next ?_
  refine Within.ite ?_ (fun _ => ?_)
  · exact h2
  · exact State.watchdogStart_in (hM.of rfl) h2

theorem execWatchdogHost_in {p1} (hM : Incl 0x3fffffffffff01fffffe M) : WithinRes M s (execWatchdogHost p1 s) := by
  have h : Within M s s := Within.refl s
  unfold execWatchdogHost
  extract_lets -merge +onlyGivenNames v1
  have h2 : Within M s v1 := State.advance_in (hM.of rfl) h
  clear_value v1
  extract_lets -merge +onlyGivenNames v3
  clear_value v3
  refine WithinRes.next ?_
  refine Within.ite ?_ (fun _ => ?_)
  · exact h2
  · exact State.watchdogStart_in (hM.of rfl) h2

theorem State.kickWrite_in {p2} (hM : Incl 0x1000 M) (h : Within M s x) : Within M s (State.kickWrite x p2) := by
  unfold State.kickWrite
  refine Within.ite ?_ (fun _ => ?_)
  · exact h
  · exact Within.set_strt h (hM.of rfl)

theorem execStrtKick_in {p1} (hM : Incl 0x1000 M) : WithinRes M s (execStrtKick p1 s) := by
  have h : Within M s s := Within.refl s
  unfold execStrtKick
  exact WithinRes.next (State.kickWrite_in (hM.of rfl) h)

theorem State.reqWrite_in {p2} {p3} (hM : Incl 0x219aed6fd27019bdebc M) (h : Within M s x) : Within M s (State.reqWrite x p2 p3) := by
  unfold State.reqWrite
  refine Within.ite ?_ (fun _ => ?_)
  · exact h
  · exact State.request_in (hM.of rfl) h

theorem execReqWatch_in {p1} (hM : Incl 0x219aed6fd27019bdebc M) : WithinRes M s (execReqWatch p1 s) := by
  have h : Within M s s := Within.refl s
  unfold execReqWatch
  exact WithinRes.next (State.reqWrite_in (hM.of rfl) h)

theorem execReqSwitchover_in {p1} (hM : Incl 0x219aed6fd27019bdebc M) : WithinRes M s (execReqSwitchover p1 s) := by
  have h : Within M s s := Within.refl s
  unfold execReqSwitchover
  exact WithinRes.next (State.reqWrite_in (hM.of rfl) h)

theorem execReqRunEnable_in {p1} (hM : Incl 0x219aed6fd27019bdebc M) : WithinRes M s (execReqRunEnable p1 s) := by
  have h : Within M s s := Within.refl s
  unfold execReqRunEnable
  exact WithinRes.next (State.reqWrite_in (hM.of rfl) h)

theorem execReqService_in {p1} (hM : Incl 0x219aed6fd27019bdebc M) : WithinRes M s (execReqService p1 s) := by
  have h : Within M s s := Within.refl s
  unfold execReqService
  exact WithinRes.next (State.reqWrite_in (hM.of rfl) h)

end Sys2Proof.Machine
end

