-- ==== Sys2Proof/Laws/WithinHost.lean ====
section
/-! SUPPORT. What each operation and each meaning may change: time and the host's registers; every command. -/
namespace Sys2Proof.Machine

variable {M : Nat} {s x : State}

theorem State.ptpMsg_in {p2} {p3} {p4} (hM : Incl 0x410002100800026 M) (h : Within M s x) (kp4 : ∀ b1 b2, Within M s b2 → Within M s (p4 b1 b2)) : Within M s (State.ptpMsg x p2 p3 p4) := by
  unfold State.ptpMsg
  refine State.onFrame_in (hM.of rfl) h (fun y1 h2 => ?_)
  split
  · exact State.disc_in (hM.of rfl) h2
  · exact kp4 _ _ h2

theorem State.sample_in {p2} {p3} (hM : Incl 0x219aed6fd2f01bbdfbe M) (h : Within M s x) : Within M s (State.sample x p2 p3) := by
  unfold State.sample
  extract_lets -merge +onlyGivenNames v1 v2 v3 v4
  clear_value v1 v2 v3 v4
  extract_lets -merge +onlyGivenNames v5
  have h6 : Within M s v5 := State.wr_in (hM.of rfl) (State.setDom_in (hM.of rfl) h)
  clear_value v5
  extract_lets -merge +onlyGivenNames v7
  have h8 : Within M s v7 := State.inc_in (hM.of rfl) (hM.of rfl) h6
  clear_value v7
  split
  rename_i z9 z10 z11 z12
  have h13 : Within M s z10 := Within.of_fst z12 (State.domSample_in (hM.of rfl) h8)
  extract_lets -merge +onlyGivenNames v14
  have h15 : Within M s v14 := State.tbSelect_in (hM.of rfl) h13
  clear_value v14
  extract_lets -merge +onlyGivenNames v16
  have h17 : Within M s v16 := by
    unfold v16
    refine Within.ite ?_ (fun _ => ?_)
    · exact h15
    · exact State.servo_in (hM.of rfl) h15
  clear_value v16
  exact State.runCheck_in (hM.of rfl) (State.tbRefresh_in (hM.of rfl) (State.refreshAgree_in (hM.of rfl) h17))

theorem execPtpSync_in {p1} (hM : Incl 0x219aed6fd2f01bbdfbe M) : WithinRes M s (execPtpSync p1 s) := by
  have h : Within M s s := Within.refl s
  unfold execPtpSync
  refine WithinRes.next ?_
  refine State.ptpMsg_in (hM.of rfl) h (fun y1 y2 h3 => ?_)
  split
  · refine Within.ite ?_ (fun _ => ?_)
    · exact h3
    · exact State.sample_in (hM.of rfl) h3
  · exact h3

theorem State.showMaster_in {p2} {p3} (hM : Incl 0x800000000 M) (h : Within M s x) : Within M s (State.showMaster x p2 p3) := by
  unfold State.showMaster
  exact State.wr_in (hM.of rfl) (State.wr64_in (hM.of rfl) (hM.of rfl) (State.wr_in (hM.of rfl) (State.setFlag_in (hM.of rfl) (hM.of rfl) (State.wr_in (hM.of rfl) h))))

theorem State.requalify_in {p2} (hM : Incl 0x410000900800104 M) (h : Within M s x) : Within M s (State.requalify x p2) := by
  unfold State.requalify
  refine Within.ite ?_ (fun _ => ?_)
  · exact State.domTo_in (hM.of rfl) h
  · exact State.setDom_in (hM.of rfl) h

theorem State.noMaster_in {p2} (hM : Incl 0x410000900800104 M) (h : Within M s x) : Within M s (State.noMaster x p2) := by
  unfold State.noMaster
  extract_lets -merge +onlyGivenNames v1
  clear_value v1
  extract_lets -merge +onlyGivenNames v2
  have h3 : Within M s v2 := State.domTo_in (hM.of rfl) (State.setDom_in (hM.of rfl) h)
  clear_value v2
  refine Within.ite ?_ (fun _ => ?_)
  · exact h3
  · exact State.refreshUtc_in (hM.of rfl) h3

theorem State.announced_in {p2} {p3} (hM : Incl 0x219aed6fd2f019bdfbc M) (h : Within M s x) : Within M s (State.announced x p2 p3) := by
  unfold State.announced
  extract_lets -merge +onlyGivenNames v1 v2 v3
  clear_value v1 v2 v3
  extract_lets -merge +onlyGivenNames v4
  have h5 : Within M s v4 := State.setDom_in (hM.of rfl) h
  clear_value v4
  split
  · exact State.tbSelect_in (hM.of rfl) (State.noMaster_in (hM.of rfl) h5)
  · extract_lets -merge +onlyGivenNames v6 v7
    clear_value v6 v7
    extract_lets -merge +onlyGivenNames v8
    have h9 : Within M s v8 := State.showMaster_in (hM.of rfl) (State.setDom_in (hM.of rfl) h5)
    clear_value v8
    extract_lets -merge +onlyGivenNames v10
    clear_value v10
    extract_lets -merge +onlyGivenNames v11
    have h12 : Within M s v11 := by
      unfold v11
      refine Within.ite ?_ (fun _ => ?_)
      · refine Within.ite ?_ (fun _ => ?_)
        · exact State.domTo_in (hM.of rfl) h9
        · exact State.requalify_in (hM.of rfl) h9
      · refine Within.ite ?_ (fun _ => ?_)
        · exact h9
        · exact State.requalify_in (hM.of rfl) h9
    clear_value v11
    extract_lets -merge +onlyGivenNames v13
    have h14 : Within M s v13 := by
      unfold v13
      refine Within.ite ?_ (fun _ => ?_)
      · exact h12
      · exact State.refreshUtc_in (hM.of rfl) h12
    clear_value v13
    extract_lets -merge +onlyGivenNames v15
    have h16 : Within M s v15 := by
      unfold v15
      refine Within.ite ?_ (fun _ => ?_)
      · exact h14
      · exact State.notice_in (hM.of rfl) h14
    clear_value v15
    exact State.tbSelect_in (hM.of rfl) h16

theorem execPtpAnnounce_in {p1} {p2} (hM : Incl 0x219aed6fd2f019bdfbe M) : WithinRes M s (execPtpAnnounce p1 p2 s) := by
  have h : Within M s s := Within.refl s
  unfold execPtpAnnounce
  refine WithinRes.next ?_
  refine State.ptpMsg_in (hM.of rfl) h (fun y1 y2 h3 => ?_)
  exact State.announced_in (hM.of rfl) h3

theorem execPdelayReq_in {p1} (hM : Incl 0x45001210080003e M) : WithinRes M s (execPdelayReq p1 s) := by
  have h : Within M s s := Within.refl s
  unfold execPdelayReq
  refine WithinRes.next ?_
  refine State.ptpMsg_in (hM.of rfl) h (fun y1 y2 h3 => ?_)
  extract_lets -merge +onlyGivenNames v4
  clear_value v4
  extract_lets -merge +onlyGivenNames v5
  have h6 : Within M s v5 := State.tx_in (hM.of rfl) h3
  clear_value v5
  exact State.tx_in (hM.of rfl) h6

theorem execPdelayResp_in {p1} (hM : Incl 0x410002900800126 M) : WithinRes M s (execPdelayResp p1 s) := by
  have h : Within M s s := Within.refl s
  unfold execPdelayResp
  refine WithinRes.next ?_
  refine State.ptpMsg_in (hM.of rfl) h (fun y1 y2 h3 => ?_)
  extract_lets -merge +onlyGivenNames v4 v5
  clear_value v4 v5
  extract_lets -merge +onlyGivenNames v6
  have h7 : Within M s v6 := State.setDom_in (hM.of rfl) h3
  clear_value v6
  extract_lets -merge +onlyGivenNames v8
  clear_value v8
  refine Within.ite ?_ (fun _ => ?_)
  · exact h7
  · exact State.wr_in (hM.of rfl) h7

theorem execPdelayReqSend_in {p1} {p2} (hM : Incl 0x45001210080013e M) : WithinRes M s (execPdelayReqSend p1 p2 s) := by
  have h : Within M s s := Within.refl s
  unfold execPdelayReqSend
  extract_lets -merge +onlyGivenNames v1
  have h2 : Within M s v1 := State.advance_in (hM.of rfl) h
  clear_value v1
  extract_lets -merge +onlyGivenNames v3
  clear_value v3
  refine WithinRes.next ?_
  refine Within.ite ?_ (fun _ => ?_)
  · exact h2
  · extract_lets -merge +onlyGivenNames v4
    clear_value v4
    extract_lets -merge +onlyGivenNames v5
    have h6 : Within M s v5 := State.setDom_in (hM.of rfl) h2
    clear_value v5
    refine Within.forEach ?_ (fun y7 y8 h9 => ?_)
    · exact h6
    · exact State.tx_in (hM.of rfl) h9

theorem execAnnounceTimeout_in {p1} {p2} (hM : Incl 0x219aed6fd2f019bdfbe M) : WithinRes M s (execAnnounceTimeout p1 p2 s) := by
  have h : Within M s s := Within.refl s
  unfold execAnnounceTimeout
  extract_lets -merge +onlyGivenNames v1
  have h2 : Within M s v1 := State.advance_in (hM.of rfl) h
  clear_value v1
  extract_lets -merge +onlyGivenNames v3 v4
  clear_value v3 v4
  split
  · exact WithinRes.next h2
  · extract_lets -merge +onlyGivenNames v5
    have h6 : Within M s v5 := State.setDom_in (hM.of rfl) h2
    clear_value v5
    extract_lets -merge +onlyGivenNames v7
    have h8 : Within M s v7 := by
      unfold v7
      refine Within.ite ?_ (fun _ => ?_)
      · refine Within.ite ?_ (fun _ => ?_)
        · exact State.domTo_in (hM.of rfl) h6
        · exact h6
      · exact State.domTo_in (hM.of rfl) h6
    clear_value v7
    extract_lets -merge +onlyGivenNames v9
    have h10 : Within M s v9 := by
      unfold v9
      refine Within.ite ?_ (fun _ => ?_)
      · exact h8
      · exact State.refreshUtc_in (hM.of rfl) h8
    clear_value v9
    exact WithinRes.next (State.tbSelect_in (hM.of rfl) h10)

theorem execTimeAgree_in {p1} (hM : Incl 0x45611210080473e M) : WithinRes M s (execTimeAgree p1 s) := by
  have h : Within M s s := Within.refl s
  unfold execTimeAgree
  extract_lets -merge +onlyGivenNames v1
  have h2 : Within M s v1 := State.advance_in (hM.of rfl) h
  clear_value v1
  extract_lets -merge +onlyGivenNames v3
  clear_value v3
  refine WithinRes.next ?_
  refine Within.ite ?_ (fun _ => ?_)
  · exact h2
  · exact State.stdAlarm_in (hM.of rfl) (State.notice_in (hM.of rfl) (Within.set_tb h2 (hM.of rfl)))

theorem execDomainRevert_in {p1} (hM : Incl 0x219aed6fd2f019bdfbe M) : WithinRes M s (execDomainRevert p1 s) := by
  have h : Within M s s := Within.refl s
  unfold execDomainRevert
  extract_lets -merge +onlyGivenNames v1
  have h2 : Within M s v1 := State.advance_in (hM.of rfl) h
  clear_value v1
  extract_lets -merge +onlyGivenNames v3
  clear_value v3
  refine WithinRes.next ?_
  refine Within.ite ?_ (fun _ => ?_)
  · exact h2
  · exact State.tbSelect_in (hM.of rfl) (State.select_in (hM.of rfl) h2)

theorem State.tbSelWrite_in {p2} (hM : Incl 0x219aed6fd2f019bdfbc M) (h : Within M s x) : Within M s (State.tbSelWrite x p2) := by
  unfold State.tbSelWrite
  extract_lets -merge +onlyGivenNames v1
  have h2 : Within M s v1 := State.wr_in (hM.of rfl) (State.wr_in (hM.of rfl) (State.wr_in (hM.of rfl) h))
  clear_value v1
  extract_lets -merge +onlyGivenNames v3
  clear_value v3
  refine Within.ite ?_ (fun _ => ?_)
  · refine Within.ite ?_ (fun _ => ?_)
    · exact State.logRefused_in (hM.of rfl) h2
    · exact State.tbSelect_in (hM.of rfl) (State.select_in (hM.of rfl) h2)
  · exact h2

theorem execTbSelSwitch_in {p1} (hM : Incl 0x219aed6fd2f019bdfbc M) : WithinRes M s (execTbSelSwitch p1 s) := by
  have h : Within M s s := Within.refl s
  unfold execTbSelSwitch
  refine WithinRes.next ?_
  refine State.hostGate_in (hM.of rfl) h (fun y1 h2 => ?_)
  exact State.tbSelWrite_in (hM.of rfl) h2

theorem State.setDone_in {p2} (hM : Incl 0x410000900800004 M) (h : Within M s x) : Within M s (State.setDone x p2) := by
  unfold State.setDone
  exact State.notice_in (hM.of rfl) (State.wr_in (hM.of rfl) h)

theorem State.timeCommitWrite_in {p2} (hM : Incl 0x410000900800104 M) (h : Within M s x) : Within M s (State.timeCommitWrite x p2) := by
  unfold State.timeCommitWrite
  refine Within.ite ?_ (fun _ => ?_)
  · extract_lets -merge +onlyGivenNames v1
    clear_value v1
    refine Within.ite ?_ (fun _ => ?_)
    · extract_lets -merge +onlyGivenNames v2 v3
      clear_value v2 v3
      exact State.wr_in (hM.of rfl) (Within.set_tb h (hM.of rfl))
    · exact State.setDone_in (hM.of rfl) (State.logRefused_in (hM.of rfl) h)
  · exact h

theorem execTimeCommit_in {p1} (hM : Incl 0x410000900804104 M) : WithinRes M s (execTimeCommit p1 s) := by
  have h : Within M s s := Within.refl s
  unfold execTimeCommit
  refine WithinRes.next ?_
  refine State.hostGate_in (hM.of rfl) h (fun y1 h2 => ?_)
  exact State.timeCommitWrite_in (hM.of rfl) h2

theorem execTimeCommitApply_in {p1} (hM : Incl 0x8656112900a04f3e M) : WithinRes M s (execTimeCommitApply p1 s) := by
  have h : Within M s s := Within.refl s
  unfold execTimeCommitApply
  extract_lets -merge +onlyGivenNames v1
  have h2 : Within M s v1 := State.advance_in (hM.of rfl) h
  clear_value v1
  split
  · exact WithinRes.next h2
  · refine WithinRes.ite ?_ ?_
    · extract_lets -merge +onlyGivenNames v3
      clear_value v3
      extract_lets -merge +onlyGivenNames v4
      have h5 : Within M s v4 := Within.set_tb h2 (hM.of rfl)
      clear_value v4
      refine WithinRes.ite ?_ ?_
      · extract_lets -merge +onlyGivenNames v6
        have h7 : Within M s v6 := State.stepBy_in (hM.of rfl) h5
        clear_value v6
        extract_lets -merge +onlyGivenNames v8
        clear_value v8
        extract_lets -merge +onlyGivenNames v9
        have h10 : Within M s v9 := Within.set_tb h7 (hM.of rfl)
        clear_value v9
        exact WithinRes.next (State.runCheck_in (hM.of rfl) (State.tbRefresh_in (hM.of rfl) (State.setDone_in (hM.of rfl) (State.setTb_in (hM.of rfl) h10))))
      · exact WithinRes.next (State.setDone_in (hM.of rfl) (State.logRefused_in (hM.of rfl) h5))
    · exact WithinRes.next h2

theorem State.tbFreeze_in {p2} (hM : Incl 0x100 M) (h : Within M s x) : Within M s (State.tbFreeze x p2).2 := by
  unfold State.tbFreeze
  split
  · refine Within.ite2 ?_ (fun _ => ?_)
    · exact Within.mk2 h
    · exact Within.mk2 (Within.set_tb h (hM.of rfl))
  · exact Within.mk2 (Within.set_tb h (hM.of rfl))

theorem execTbNowFreeze_in (hM : Incl 0x800100 M) : WithinRes M s (execTbNowFreeze s) := by
  have h : Within M s s := Within.refl s
  unfold execTbNowFreeze
  refine WithinRes.next ?_
  refine State.hostRead_in (hM.of rfl) h (fun y1 h2 => ?_)
  split
  rename_i z3 z4 z5 z6
  have h7 : Within M s z5 := Within.of_snd z6 (State.tbFreeze_in (hM.of rfl) h2)
  exact State.answer_in (hM.of rfl) h7

theorem execTbNowWordRead_in {p1} (hM : Incl 0x800100 M) : WithinRes M s (execTbNowWordRead p1 s) := by
  have h : Within M s s := Within.refl s
  unfold execTbNowWordRead
  refine WithinRes.next ?_
  refine State.hostRead_in (hM.of rfl) h (fun y1 h2 => ?_)
  split
  rename_i z3 z4 z5 z6
  have h7 : Within M s z5 := Within.of_snd z6 (State.tbFreeze_in (hM.of rfl) h2)
  exact State.answer_in (hM.of rfl) h7

theorem execTbNowRelease_in (hM : Incl 0x800100 M) : WithinRes M s (execTbNowRelease s) := by
  have h : Within M s s := Within.refl s
  unfold execTbNowRelease
  refine WithinRes.next ?_
  refine State.hostRead_in (hM.of rfl) h (fun y1 h2 => ?_)
  split
  rename_i z3 z4 z5 z6
  have h7 : Within M s z5 := Within.of_snd z6 (State.tbFreeze_in (hM.of rfl) h2)
  exact State.answer_in (hM.of rfl) (Within.set_tb h7 (hM.of rfl))

theorem execPpsOutEdge_in {p1} (hM : Incl 0x102 M) : WithinRes M s (execPpsOutEdge p1 s) := by
  have h : Within M s s := Within.refl s
  unfold execPpsOutEdge
  extract_lets -merge +onlyGivenNames v1
  have h2 : Within M s v1 := State.advance_in (hM.of rfl) h
  clear_value v1
  refine WithinRes.next ?_
  refine Within.ite ?_ (fun _ => ?_)
  · exact h2
  · exact Within.set_tb h2 (hM.of rfl)

theorem execPpsOutEnd_in {p1} (hM : Incl 0x102 M) : WithinRes M s (execPpsOutEnd p1 s) := by
  have h : Within M s s := Within.refl s
  unfold execPpsOutEnd
  extract_lets -merge +onlyGivenNames v1
  have h2 : Within M s v1 := State.advance_in (hM.of rfl) h
  clear_value v1
  refine WithinRes.next ?_
  refine Within.ite ?_ (fun _ => ?_)
  · exact h2
  · exact Within.set_tb h2 (hM.of rfl)

theorem execPpsInEdge_in {p1} (hM : Incl 0x800000102 M) : WithinRes M s (execPpsInEdge p1 s) := by
  have h : Within M s s := Within.refl s
  unfold execPpsInEdge
  extract_lets -merge +onlyGivenNames v1
  have h2 : Within M s v1 := State.advance_in (hM.of rfl) h
  clear_value v1
  extract_lets -merge +onlyGivenNames v3 v4
  clear_value v3 v4
  extract_lets -merge +onlyGivenNames v5
  have h6 : Within M s v5 := Within.set_tb h2 (hM.of rfl)
  clear_value v5
  exact WithinRes.next (State.setFlag_in (hM.of rfl) (hM.of rfl) (State.wr_in (hM.of rfl) h6))

theorem execPpsInLost_in {p1} (hM : Incl 0x410000900800006 M) : WithinRes M s (execPpsInLost p1 s) := by
  have h : Within M s s := Within.refl s
  unfold execPpsInLost
  extract_lets -merge +onlyGivenNames v1
  have h2 : Within M s v1 := State.advance_in (hM.of rfl) h
  clear_value v1
  refine WithinRes.next ?_
  refine Within.ite ?_ (fun _ => ?_)
  · exact h2
  · exact State.notice_in (hM.of rfl) (State.setFlag_in (hM.of rfl) (hM.of rfl) h2)

theorem execLeapPending_in {p1} (hM : Incl 0x410000900800106 M) : WithinRes M s (execLeapPending p1 s) := by
  have h : Within M s s := Within.refl s
  unfold execLeapPending
  extract_lets -merge +onlyGivenNames v1
  have h2 : Within M s v1 := State.advance_in (hM.of rfl) h
  clear_value v1
  split
  · exact WithinRes.next h2
  · extract_lets -merge +onlyGivenNames v3
    have h4 : Within M s v3 := State.setFlag_in (hM.of rfl) (hM.of rfl) (State.setFlag_in (hM.of rfl) (hM.of rfl) h2)
    clear_value v3
    extract_lets -merge +onlyGivenNames v5
    clear_value v5
    extract_lets -merge +onlyGivenNames v6
    have h7 : Within M s v6 := Within.set_tb h4 (hM.of rfl)
    clear_value v6
    exact WithinRes.next (State.notice_in (hM.of rfl) h7)

theorem execLeap_in {p1} (hM : Incl 0x45611290080473e M) : WithinRes M s (execLeap p1 s) := by
  have h : Within M s s := Within.refl s
  unfold execLeap
  extract_lets -merge +onlyGivenNames v1
  have h2 : Within M s v1 := State.advance_in (hM.of rfl) h
  clear_value v1
  extract_lets -merge +onlyGivenNames v3
  clear_value v3
  split
  · exact WithinRes.next h2
  · extract_lets -merge +onlyGivenNames v4 v5
    clear_value v4 v5
    extract_lets -merge +onlyGivenNames v6
    have h7 : Within M s v6 := State.setFlag_in (hM.of rfl) (hM.of rfl) (State.setFlag_in (hM.of rfl) (hM.of rfl) (State.wr_in (hM.of rfl) h2))
    clear_value v6
    extract_lets -merge +onlyGivenNames v8
    clear_value v8
    extract_lets -merge +onlyGivenNames v9
    have h10 : Within M s v9 := Within.set_tb h7 (hM.of rfl)
    clear_value v9
    exact WithinRes.next (State.tbRefresh_in (hM.of rfl) (State.notice_in (hM.of rfl) h10))

theorem execLeapOccurredEnd_in {p1} (hM : Incl 0x45611290080473e M) : WithinRes M s (execLeapOccurredEnd p1 s) := by
  have h : Within M s s := Within.refl s
  unfold execLeapOccurredEnd
  extract_lets -merge +onlyGivenNames v1
  have h2 : Within M s v1 := State.advance_in (hM.of rfl) h
  clear_value v1
  extract_lets -merge +onlyGivenNames v3
  clear_value v3
  refine WithinRes.next ?_
  refine Within.ite ?_ (fun _ => ?_)
  · exact State.setFlag_in (hM.of rfl) (hM.of rfl) (State.tbRefresh_in (hM.of rfl) (Within.set_tb h2 (hM.of rfl)))
  · exact h2

theorem execHostLeapClear_in {p1} (hM : Incl 0x45611290080473e M) : WithinRes M s (execHostLeapClear p1 s) := by
  have h : Within M s s := Within.refl s
  unfold execHostLeapClear
  exact WithinRes.next (State.wr_in (hM.of rfl) (State.tbRefresh_in (hM.of rfl) (State.advance_in (hM.of rfl) h)))

theorem execSyncError_in {p1} (hM : Incl 0x45611290080473e M) : WithinRes M s (execSyncError p1 s) := by
  have h : Within M s s := Within.refl s
  unfold execSyncError
  exact WithinRes.next (State.tbRefresh_in (hM.of rfl) (State.advance_in (hM.of rfl) h))

theorem State.renewed_in (hM : Incl 0x845611290080473c M) (h : Within M s x) : Within M s (State.renewed x) := by
  unfold State.renewed
  refine Within.ite ?_ (fun _ => ?_)
  · exact State.refreshScore_in (hM.of rfl) (State.showSilent_in (hM.of rfl) (State.showLoads_in (hM.of rfl) (State.tbRefresh_in (hM.of rfl) h)))
  · exact h

theorem execCounterLatchLow_in {p1} (hM : Incl 0x845611290080473c M) : WithinRes M s (execCounterLatchLow p1 s) := by
  have h : Within M s s := Within.refl s
  unfold execCounterLatchLow
  extract_lets -merge +onlyGivenNames v1
  clear_value v1
  refine WithinRes.next ?_
  refine State.hostRead_in (hM.of rfl) h (fun y2 h3 => ?_)
  extract_lets -merge +onlyGivenNames v4
  have h5 : Within M s v4 := State.renewed_in (hM.of rfl) h3
  clear_value v4
  extract_lets -merge +onlyGivenNames v6
  clear_value v6
  extract_lets -merge +onlyGivenNames v7
  have h8 : Within M s v7 := by
    unfold v7
    refine Within.ite ?_ (fun _ => ?_)
    · exact h5
    · exact Within.set_hif h5 (hM.of rfl)
  clear_value v7
  exact State.answer_in (hM.of rfl) h8

theorem execCounterLatchHigh_in {p1} (hM : Incl 0x845611290080473c M) : WithinRes M s (execCounterLatchHigh p1 s) := by
  have h : Within M s s := Within.refl s
  unfold execCounterLatchHigh
  extract_lets -merge +onlyGivenNames v1
  clear_value v1
  refine WithinRes.next ?_
  refine State.hostRead_in (hM.of rfl) h (fun y2 h3 => ?_)
  extract_lets -merge +onlyGivenNames v4
  have h5 : Within M s v4 := State.renewed_in (hM.of rfl) h3
  clear_value v4
  exact State.answer_in (hM.of rfl) h5

theorem State.noticeWrite_in {p2} {p3} (hM : Incl 0x410048100880084 M) (h : Within M s x) : Within M s (State.noticeWrite x p2 p3) := by
  unfold State.noticeWrite
  extract_lets -merge +onlyGivenNames v1
  have h2 : Within M s v1 := State.refreshSum_in (hM.of rfl) (State.store_in (hM.of rfl) (sub_notice0 (hM.of rfl)) h)
  clear_value v1
  refine Within.ite ?_ (fun _ => ?_)
  · refine Within.ite ?_ (fun _ => ?_)
    · exact h2
    · exact State.showGrpContrib_in (hM.of rfl) (Within.set_osc h2 (hM.of rfl))
  · exact State.showContrib_in (hM.of rfl) (Within.set_whl h2 (hM.of rfl))

theorem State.enableWrite_in {p2} {p3} (hM : Incl 0x410000100800004 M) (h : Within M s x) : Within M s (State.enableWrite x p2 p3) := by
  unfold State.enableWrite
  extract_lets -merge +onlyGivenNames v1
  have h2 : Within M s v1 := State.refreshSum_in (hM.of rfl) (State.store_in (hM.of rfl) (sub_notice (hM.of rfl)) h)
  clear_value v1
  refine Within.ite ?_ (fun _ => ?_)
  · exact State.raiseVector_in (hM.of rfl) h2
  · exact h2

theorem execNoticeClear_in {p1} {p2} (hM : Incl 0x410048100884084 M) : WithinRes M s (execNoticeClear p1 p2 s) := by
  have h : Within M s s := Within.refl s
  unfold execNoticeClear
  refine WithinRes.next ?_
  refine State.hostGate_in (hM.of rfl) h (fun y1 h2 => ?_)
  exact State.noticeWrite_in (hM.of rfl) h2

theorem execNoticeEnable_in {p1} {p2} (hM : Incl 0x410000100804004 M) : WithinRes M s (execNoticeEnable p1 p2 s) := by
  have h : Within M s s := Within.refl s
  unfold execNoticeEnable
  refine WithinRes.next ?_
  refine State.hostGate_in (hM.of rfl) h (fun y1 h2 => ?_)
  exact State.enableWrite_in (hM.of rfl) h2

theorem State.maskWrite_in {p2 : ℕ} {p3 : Word} (hM : Incl 0x410000100800004 M) (kk1 : Incl (areaBit (Reg.MSIX_CTRL.off [p2])) M) (h : Within M s x) : Within M s (State.maskWrite x p2 p3) := by
  unfold State.maskWrite
  extract_lets -merge +onlyGivenNames v1
  have h2 : Within M s v1 := State.store_in (hM.of rfl) kk1 h
  clear_value v1
  extract_lets -merge +onlyGivenNames v3
  subst v3
  refine Within.ite ?_ (fun _ => ?_)
  · exact h2
  · exact State.emit_in (hM.of rfl) (State.put_in (hM.of rfl) h2)

theorem execMsixUnmask_in {p1 : Fin 64} (hM : Incl 0x410000100804004 M) (kk1 : Incl (areaBit (Reg.MSIX_CTRL.off [↑p1])) M) : WithinRes M s (execMsixUnmask p1 s) := by
  have h : Within M s s := Within.refl s
  unfold execMsixUnmask
  extract_lets -merge +onlyGivenNames v1
  subst v1
  extract_lets -merge +onlyGivenNames v2
  clear_value v2
  refine WithinRes.next ?_
  refine State.hostGate_in (hM.of rfl) h (fun y3 h4 => ?_)
  exact State.maskWrite_in (hM.of rfl) kk1 h4

theorem State.domWrite_in {p2 : ℕ} {p3 : Word} (hM : Incl 0x219aed6fd2f019bdfbc M) (kk1 : Incl (areaBit p2) M) (h : Within M s x) : Within M s (State.domWrite x p2 p3) := by
  unfold State.domWrite
  extract_lets -merge +onlyGivenNames v1 v2
  clear_value v1 v2
  extract_lets -merge +onlyGivenNames v3
  have h4 : Within M s v3 := State.store_in (hM.of rfl) kk1 h
  clear_value v3
  extract_lets -merge +onlyGivenNames v5
  have h6 : Within M s v5 := by
    unfold v5
    refine Within.forEach ?_ (fun y7 y8 h9 => ?_)
    · exact h4
    · refine Within.ite ?_ (fun _ => ?_)
      · exact State.domTo_in (hM.of rfl) h9
      · exact h9
  clear_value v5
  refine State.tbSelect_in (hM.of rfl) ?_
  refine Within.ite ?_ (fun _ => ?_)
  · exact State.sameDomnum_in (hM.of rfl) h6
  · exact h6

theorem State.ptChanged_in {p2} (hM : Incl 0x45061010081801c M) (h : Within M s x) : Within M s (State.ptChanged x p2) := by
  unfold State.ptChanged
  extract_lets -merge +onlyGivenNames v1
  have h2 : Within M s v1 := State.setFlag_in (hM.of rfl) (hM.of rfl) (State.stopPt_in (hM.of rfl) h)
  clear_value v1
  extract_lets -merge +onlyGivenNames v3
  have h4 : Within M s v3 := by
    unfold v3
    refine Within.ite ?_ (fun _ => ?_)
    · exact State.nrgOff_in (hM.of rfl) (State.pqEndAll_in (hM.of rfl) h2)
    · exact h2
  clear_value v3
  refine Within.ite ?_ (fun _ => ?_)
  · exact h4
  · exact State.startPt_in (hM.of rfl) h4

theorem State.lsRenewed_in {p2} (hM : Incl 0x2410200100808004 M) (h : Within M s x) : Within M s (State.lsRenewed x p2) := by
  unfold State.lsRenewed
  extract_lets -merge +onlyGivenNames v1
  clear_value v1
  extract_lets -merge +onlyGivenNames v2
  have h3 : Within M s v2 := State.setFlag_in (hM.of rfl) (hM.of rfl) (State.setAcqLs_in (hM.of rfl) h)
  clear_value v2
  extract_lets -merge +onlyGivenNames v4
  have h5 : Within M s v4 := by
    unfold v4
    refine Within.ite ?_ (fun _ => ?_)
    · exact State.showLs_in (hM.of rfl) h3
    · exact State.checkLs_in (hM.of rfl) h3
  clear_value v4
  refine Within.ite ?_ (fun _ => ?_)
  · exact h5
  · exact State.setAcqLs_in (hM.of rfl) h5

theorem State.acqWrite_in {p2 : ℕ} {p3 : Word} (hM : Incl 0x245061810081809c M) (kk1 : Incl (areaBit p2) M) (h : Within M s x) : Within M s (State.acqWrite x p2 p3) := by
  unfold State.acqWrite
  extract_lets -merge +onlyGivenNames v1
  clear_value v1
  extract_lets -merge +onlyGivenNames v2
  have h3 : Within M s v2 := State.store_in (hM.of rfl) kk1 h
  clear_value v2
  extract_lets -merge +onlyGivenNames v4 v5
  clear_value v4 v5
  extract_lets -merge +onlyGivenNames v6
  have h7 : Within M s v6 := by
    unfold v6
    refine Within.forEach ?_ (fun y8 y9 h10 => ?_)
    · exact h3
    · exact State.streamJudged_in (hM.of rfl) (State.lsChanged_in (hM.of rfl) h10)
  clear_value v6
  extract_lets -merge +onlyGivenNames v11
  clear_value v11
  refine Within.ite ?_ (fun _ => ?_)
  · refine Within.ite ?_ (fun _ => ?_)
    · exact h7
    · refine Within.forEach ?_ (fun y12 y13 h14 => ?_)
      · exact h7
      · exact State.lsRenewed_in (hM.of rfl) h14
  · refine Within.ite ?_ (fun _ => ?_)
    · exact State.ptChanged_in (hM.of rfl) h7
    · exact h7

theorem State.capWrite_in {p2 : ℕ} {p3 : Word} (hM : Incl 0x410800101820004 M) (kk1 : Incl (areaBit p2) M) (h : Within M s x) : Within M s (State.capWrite x p2 p3) := by
  unfold State.capWrite
  extract_lets -merge +onlyGivenNames v1
  clear_value v1
  refine Within.ite ?_ (fun _ => ?_)
  · refine Within.ite ?_ (fun _ => ?_)
    · extract_lets -merge +onlyGivenNames v2
      clear_value v2
      extract_lets -merge +onlyGivenNames v3
      have h4 : Within M s v3 := State.store_in (hM.of rfl) kk1 h
      clear_value v3
      extract_lets -merge +onlyGivenNames v5
      have h6 : Within M s v5 := by
        unfold v5
        refine Within.ite ?_ (fun _ => ?_)
        · exact State.wr_in (hM.of rfl) (State.capOff_in (hM.of rfl) h4)
        · exact h4
      clear_value v5
      refine Within.ite ?_ (fun _ => ?_)
      · exact h6
      · exact Within.set_cap h6 (hM.of rfl)
    · extract_lets -merge +onlyGivenNames v7
      have h8 : Within M s v7 := by
        unfold v7
        refine Within.ite ?_ (fun _ => ?_)
        · exact h
        · exact State.capArmWrite_in (hM.of rfl) h
      clear_value v7
      refine Within.ite ?_ (fun _ => ?_)
      · exact h8
      · exact State.capForceWrite_in (hM.of rfl) h8
  · exact State.capAckWrite_in (hM.of rfl) h

theorem State.capCtlWrite_in {p2} (hM : Incl 0x410800101820004 M) (h : Within M s x) : Within M s (State.capCtlWrite x p2) := by
  unfold State.capCtlWrite
  extract_lets -merge +onlyGivenNames v1
  have h2 : Within M s v1 := State.store_in (hM.of rfl) (hM.of rfl) h
  clear_value v1
  refine Within.ite ?_ (fun _ => ?_)
  · refine Within.forEach ?_ (fun y3 y4 h5 => ?_)
    · exact h2
    · exact State.capOff_in (hM.of rfl) h5
  · exact h2

theorem State.trcWrite_in {p2} (hM : Incl 0x41001010080000c M) (h : Within M s x) : Within M s (State.trcWrite x p2) := by
  unfold State.trcWrite
  extract_lets -merge +onlyGivenNames v1
  clear_value v1
  extract_lets -merge +onlyGivenNames v2
  have h3 : Within M s v2 := State.store_in (hM.of rfl) (hM.of rfl) h
  clear_value v2
  extract_lets -merge +onlyGivenNames v4
  clear_value v4
  refine Within.ite ?_ (fun _ => ?_)
  · extract_lets -merge +onlyGivenNames v5
    clear_value v5
    extract_lets -merge +onlyGivenNames v6
    have h7 : Within M s v6 := State.wr_in (hM.of rfl) (Within.set_sof h3 (hM.of rfl))
    clear_value v6
    refine Within.ite ?_ (fun _ => ?_)
    · exact h7
    · exact State.trcStop_in (hM.of rfl) h7
  · exact h3

theorem State.ponWrite_in {p2} (hM : Incl 0x410001100a00004 M) (h : Within M s x) : Within M s (State.ponWrite x p2) := by
  unfold State.ponWrite
  refine Within.ite ?_ (fun _ => ?_)
  · exact State.showPon_in (hM.of rfl) (State.store_in (hM.of rfl) (hM.of rfl) h)
  · exact State.ponOffWrite_in (hM.of rfl) h

theorem State.svcWrite_in {p2} (hM : Incl 0x400001200 M) (h : Within M s x) : Within M s (State.svcWrite x p2) := by
  unfold State.svcWrite
  exact State.submitWrite_in (hM.of rfl) (State.chalWrite_in (hM.of rfl) h)

theorem State.logCfgWrite_in {p2 : ℕ} {p3 : Word} (hM : Incl 0x410000100800004 M) (kk1 : Incl (areaBit p2) M) (h : Within M s x) : Within M s (State.logCfgWrite x p2 p3) := by
  unfold State.logCfgWrite
  extract_lets -merge +onlyGivenNames v1
  have h2 : Within M s v1 := State.store_in (hM.of rfl) kk1 h
  clear_value v1
  exact Within.set_log h2 (hM.of rfl)

theorem State.pairCfgWrite_in {p2 : ℕ} {p3 : Word} (hM : Incl 0x410000300800004 M) (kk1 : Incl (areaBit p2) M) (h : Within M s x) : Within M s (State.pairCfgWrite x p2 p3) := by
  unfold State.pairCfgWrite
  extract_lets -merge +onlyGivenNames v1
  have h2 : Within M s v1 := State.store_in (hM.of rfl) kk1 h
  clear_value v1
  exact State.setFlag_in (hM.of rfl) (hM.of rfl) h2

theorem State.plainWrite_in {p2 : ℕ} {p3 : Word} (hM : Incl 0x3fffffffffff01fffffe M) (kk1 : Incl (areaBit p2) M) (kk2 : Incl (areaBit (Reg.MSIX_CTRL.off [(p2 - 1507328) / 16])) M) (kk3 : Incl (areaBit (Reg.LB_CFG_EN.off [(p2 - Reg.LB_CFG_EN.base) / 64])) M) (kk4 : Incl (areaBit (Reg.PR_CFG_EN.off [(p2 - Reg.PR_CFG_EN.base) / 64])) M) (h : Within M s x) : Within M s (State.plainWrite x p2 p3) := by
  unfold State.plainWrite
  extract_lets -merge +onlyGivenNames v1
  clear_value v1
  refine Within.ite ?_ (fun _ => ?_)
  · refine Within.ite ?_ (fun _ => ?_)
    · refine Within.ite ?_ (fun _ => ?_)
      · refine Within.ite ?_ (fun _ => ?_)
        · refine Within.ite ?_ (fun _ => ?_)
          · refine Within.ite ?_ (fun _ => ?_)
            · refine Within.ite ?_ (fun _ => ?_)
              · refine Within.ite ?_ (fun _ => ?_)
                · refine Within.ite ?_ (fun _ => ?_)
                  · refine Within.ite ?_ (fun _ => ?_)
                    · refine Within.ite ?_ (fun _ => ?_)
                      · refine Within.ite ?_ (fun _ => ?_)
                        · refine Within.ite ?_ (fun _ => ?_)
                          · refine Within.ite ?_ (fun _ => ?_)
                            · refine Within.ite ?_ (fun _ => ?_)
                              · refine Within.ite ?_ (fun _ => ?_)
                                · refine Within.ite ?_ (fun _ => ?_)
                                  · refine Within.ite ?_ (fun _ => ?_)
                                    · refine Within.ite ?_ (fun _ => ?_)
                                      · refine Within.ite ?_ (fun _ => ?_)
                                        · refine Within.ite ?_ (fun _ => ?_)
                                          · refine Within.ite ?_ (fun _ => ?_)
                                            · refine Within.ite ?_ (fun _ => ?_)
                                              · refine Within.ite ?_ (fun _ => ?_)
                                                · refine Within.ite ?_ (fun _ => ?_)
                                                  · refine Within.ite ?_ (fun _ => ?_)
                                                    · refine Within.ite ?_ (fun _ => ?_)
                                                      · refine Within.ite ?_ (fun _ => ?_)
                                                        · refine Within.ite ?_ (fun _ => ?_)
                                                          · refine Within.ite ?_ (fun _ => ?_)
                                                            · refine Within.ite ?_ (fun _ => ?_)
                                                              · refine Within.ite ?_ (fun _ => ?_)
                                                                · refine Within.ite ?_ (fun _ => ?_)
                                                                  · refine Within.ite ?_ (fun _ => ?_)
                                                                    · exact State.store_in (hM.of rfl) kk1 h
                                                                    · exact State.maskWrite_in (hM.of rfl) kk2 h
                                                                  · exact State.i2cWrite_in (hM.of rfl) h
                                                                · exact State.thermCheck_in (hM.of rfl) (State.store_in (hM.of rfl) kk1 h)
                                                              · exact State.wr_in (hM.of rfl) h
                                                            · exact State.sleepAll_in (hM.of rfl) (State.store_in (hM.of rfl) kk1 h)
                                                          · exact State.lbCfg_in (hM.of rfl) kk3 h
                                                        · exact State.prCfg_in (hM.of rfl) kk4 h
                                                      · exact State.logCfgWrite_in (hM.of rfl) kk1 h
                                                    · exact State.pairCfgWrite_in (hM.of rfl) kk1 h
                                                  · exact State.capWrite_in (hM.of rfl) kk1 h
                                                · exact State.capCtlWrite_in (hM.of rfl) h
                                              · exact State.xtrgWrite_in (hM.of rfl) h
                                            · exact State.presetWrite_in (hM.of rfl) (hM.of rfl) h
                                          · exact State.presetWrite_in (hM.of rfl) (hM.of rfl) h
                                        · exact State.snapWrite_in (hM.of rfl) h
                                      · extract_lets -merge +onlyGivenNames v2
                                        clear_value v2
                                        extract_lets -merge +onlyGivenNames v3
                                        have h4 : Within M s v3 := State.store_in (hM.of rfl) kk1 h
                                        clear_value v3
                                        refine Within.ite ?_ (fun _ => ?_)
                                        · exact State.intCheck_in (hM.of rfl) h4
                                        · exact h4
                                    · exact State.acqWrite_in (hM.of rfl) kk1 h
                                  · exact State.calWrite_in (hM.of rfl) h
                                · exact State.setWord_in kk1 h
                              · exact State.trcWrite_in (hM.of rfl) h
                            · exact State.setWord_in kk1 h
                          · exact State.cancelWrite_in (hM.of rfl) h
                        · exact State.portsChanged_in (hM.of rfl) (State.store_in (hM.of rfl) kk1 h)
                      · exact State.ponWrite_in (hM.of rfl) h
                    · exact State.almCtl_in (hM.of rfl) h
                  · exact State.bkdCommitWrite_in (hM.of rfl) h
                · exact State.domWrite_in (hM.of rfl) kk1 h
              · exact State.tbRefresh_in (hM.of rfl) (State.store_in (hM.of rfl) kk1 h)
            · exact State.tbSelWrite_in (hM.of rfl) h
          · exact State.timeCommitWrite_in (hM.of rfl) h
        · exact State.svcWrite_in (hM.of rfl) h
      · exact State.kickWrite_in (hM.of rfl) h
    · exact State.ctlWrite_in (hM.of rfl) h
  · exact State.request_in (hM.of rfl) h

theorem State.hostWrite_in {p2 : ℕ} {p3 : Word} (hM : Incl 0x3fffffffffff01fffffe M) (kk1 : Incl (areaBit p2) M) (kk2 : Incl (areaBit (Reg.MSIX_CTRL.off [(p2 - 1507328) / 16])) M) (kk3 : Incl (areaBit (Reg.LB_CFG_EN.off [(p2 - Reg.LB_CFG_EN.base) / 64])) M) (kk4 : Incl (areaBit (Reg.PR_CFG_EN.off [(p2 - Reg.PR_CFG_EN.base) / 64])) M) (h : Within M s x) : Within M s (State.hostWrite x p2 p3) := by
  unfold State.hostWrite
  split
  · exact State.noticeWrite_in (hM.of rfl) h
  · exact State.enableWrite_in (hM.of rfl) h
  · extract_lets -merge +onlyGivenNames v1
    clear_value v1
    refine Within.ite ?_ (fun _ => ?_)
    · exact State.plainWrite_in (hM.of rfl) kk1 kk2 kk3 kk4 h
    · refine Within.ite ?_ (fun _ => ?_)
      · exact State.blockWrite_in (hM.of rfl) kk1 h
      · refine State.hostGate_in (hM.of rfl) h (fun y2 h3 => ?_)
        exact State.blockWrite_in (hM.of rfl) kk1 h3

theorem execRegisterWrite_in {p1} {p2} {p3} (hM : Incl 0x3fffffffffff01fffffe M) : WithinRes M s (execRegisterWrite p1 p2 p3 s) := by
  have h : Within M s s := Within.refl s
  unfold execRegisterWrite
  extract_lets -merge +onlyGivenNames v1
  clear_value v1
  refine WithinRes.next ?_
  refine Within.ite ?_ (fun _ => ?_)
  · refine Within.ite ?_ (fun _ => ?_)
    · exact State.hostWrite_in (hM.of rfl) (sub_any (hM.of rfl)) (sub_any (hM.of rfl)) (sub_any (hM.of rfl)) (sub_any (hM.of rfl)) h
    · exact State.logRefused_in (hM.of rfl) h
  · exact h

/-! ### Every command -/

/-- The mask of what a command may change. -/
def Touch.mask (t : Touch) : Nat :=
  t.areas.foldl (fun a n => a ||| 2 ^ (32 + n)) (t.parts.foldl (fun a p => a ||| 2 ^ p.ctorIdx) 0)

theorem areaBit_fld {f : Fld} {idx : List Nat} (hf : f.fits = true) (ok : idxOk f.dims idx = true) : areaBit (f.off idx) = areaBit f.base := by
  unfold areaBit; rw [areaOf_fld hf ok]

/-- Every command changes only what `mayTouch` names. -/
theorem exec_within (c : Instr) (s : State) : WithinRes (mayTouch c).mask s (exec c s) :=
  match c with
  | .coldStart a1 => @execColdStart_in _ s a1 (by simp only [mayTouch]; decide +kernel)
  | .supplyTrip a1 a2 a3 => @execSupplyTrip_in _ s a1 a2 a3 (by simp only [mayTouch]; decide +kernel)
  | .porstNAssert a1 => @execPorstNAssert_in _ s a1 (by simp only [mayTouch]; decide +kernel)
  | .wrstNLow a1 a2 => @execWrstNLow_in _ s a1 a2 (by simp only [mayTouch]; decide +kernel)
  | .warmStart a1 => @execWarmStart_in _ s a1 (by simp only [mayTouch]; decide +kernel)
  | .warmStartFull a1 => @execWarmStartFull_in _ s a1 (by simp only [mayTouch]; decide +kernel)
  | .startStepEnd a1 => @execStartStepEnd_in _ s a1 (by simp only [mayTouch]; decide +kernel)
  | .startTimer a1 => @execStartTimer_in _ s a1 (by simp only [mayTouch]; decide +kernel)
  | .pllLockTimeout a1 => @execPllLockTimeout_in _ s a1 (by simp only [mayTouch]; decide +kernel)
  | .startRetry a1 => @execStartRetry_in _ s a1 (by simp only [mayTouch]; decide +kernel)
  | .stableTimer a1 => @execStableTimer_in _ s a1 (by simp only [mayTouch]; decide +kernel)
  | .watchdogStall a1 => @execWatchdogStall_in _ s a1 (by simp only [mayTouch]; decide +kernel)
  | .watchdogHost a1 => @execWatchdogHost_in _ s a1 (by simp only [mayTouch]; decide +kernel)
  | .strtKick a1 => @execStrtKick_in _ s a1 (by simp only [mayTouch]; decide +kernel)
  | .reqWatch a1 => @execReqWatch_in _ s a1 (by simp only [mayTouch]; decide +kernel)
  | .reqSwitchover a1 => @execReqSwitchover_in _ s a1 (by simp only [mayTouch]; decide +kernel)
  | .reqRunEnable a1 => @execReqRunEnable_in _ s a1 (by simp only [mayTouch]; decide +kernel)
  | .reqService a1 => @execReqService_in _ s a1 (by simp only [mayTouch]; decide +kernel)
  | .sramUe a1 a2 a3 => @execSramUe_in _ s a1 a2 a3 (by simp only [mayTouch]; decide +kernel)
  | .sequencerFault a1 a2 => @execSequencerFault_in _ s a1 a2 (by simp only [mayTouch]; decide +kernel)
  | .napEntry a1 a2 => @execNapEntry_in _ s a1 a2 (by simp only [mayTouch]; decide +kernel)
  | .scheduledWake a1 a2 => @execScheduledWake_in _ s a1 a2 (by simp only [mayTouch]; decide +kernel)
  | .sorterWakeDone a1 a2 => @execSorterWakeDone_in _ s a1 a2 (by simp only [mayTouch]; decide +kernel)
  | .offEntry a1 a2 => @execOffEntry_in _ s a1 a2 (by simp only [mayTouch]; decide +kernel)
  | .itemEnd a1 a2 a3 => @execItemEnd_in _ s a1 a2 a3 (by simp only [mayTouch]; decide +kernel)
  | .itemStealable a1 a2 => @execItemStealable_in _ s a1 a2 (by simp only [mayTouch]; decide +kernel)
  | .itemExpiry a1 a2 => @execItemExpiry_in _ s a1 a2 (by simp only [mayTouch]; decide +kernel)
  | .itemTimeLimit a1 a2 a3 => @execItemTimeLimit_in _ s a1 a2 a3 (by simp only [mayTouch]; decide +kernel)
  | .hostCancel a1 => @execHostCancel_in _ s a1 (by simp only [mayTouch]; decide +kernel)
  | .housekeepingTimer a1 a2 => @execHousekeepingTimer_in _ s a1 a2 (by simp only [mayTouch]; decide +kernel)
  | .flowStateCopyDone a1 a2 => @execFlowStateCopyDone_in _ s a1 a2 (by simp only [mayTouch]; decide +kernel)
  | .prDoorbell a1 a2 a3 => @execPrDoorbell_in _ s a1 a2 a3 (by simp only [mayTouch]; decide +kernel)
  | .modTimeout a1 a2 => @execModTimeout_in _ s a1 a2 (by simp only [mayTouch]; decide +kernel)
  | .prEnable a1 a2 => @execPrEnable_in _ s a1 a2 (by simp only [mayTouch]; decide +kernel) (by
      rw [areaBit_fld rfl (by simp [idxOk, Reg.PR_CFG_EN, a1.isLt])]; simp only [mayTouch]; decide +kernel)
  | .lbEnable a1 a2 => @execLbEnable_in _ s a1 a2 (by simp only [mayTouch]; decide +kernel) (by
      rw [areaBit_fld rfl (by simp [idxOk, Reg.LB_CFG_EN, a1.isLt])]; simp only [mayTouch]; decide +kernel)
  | .lbDoorbell a1 a2 => @execLbDoorbell_in _ s a1 a2 (by simp only [mayTouch]; decide +kernel)
  | .lbCommandFetched a1 a2 a3 => @execLbCommandFetched_in _ s a1 a2 a3 (by simp only [mayTouch]; decide +kernel)
  | .ringPcieError a1 a2 => @execRingPcieError_in _ s a1 a2 (by simp only [mayTouch]; decide +kernel)
  | .bmeOff => @execBmeOff_in _ s (by simp only [mayTouch]; decide +kernel)
  | .perst => @execPerst_in _ s (by simp only [mayTouch]; decide +kernel)
  | .lbNop a1 a2 a3 a4 => @execLbNop_in _ s a1 a2 a3 a4 (by simp only [mayTouch]; decide +kernel)
  | .resend a1 a2 a3 => @execResend_in _ s a1 a2 a3 (by simp only [mayTouch]; decide +kernel)
  | .compress a1 a2 a3 => @execCompress_in _ s a1 a2 a3 (by simp only [mayTouch]; decide +kernel)
  | .decode a1 a2 a3 => @execDecode_in _ s a1 a2 a3 (by simp only [mayTouch]; decide +kernel)
  | .compressDone a1 a2 => @execCompressDone_in _ s a1 a2 (by simp only [mayTouch]; decide +kernel)
  | .lbImport a1 a2 a3 => @execLbImport_in _ s a1 a2 a3 (by simp only [mayTouch]; decide +kernel)
  | .derive a1 a2 a3 => @execDerive_in _ s a1 a2 a3 (by simp only [mayTouch]; decide +kernel)
  | .invalidate a1 a2 a3 => @execInvalidate_in _ s a1 a2 a3 (by simp only [mayTouch]; decide +kernel)
  | .lbDelete a1 a2 a3 => @execLbDelete_in _ s a1 a2 a3 (by simp only [mayTouch]; decide +kernel)
  | .seal a1 a2 a3 => @execSeal_in _ s a1 a2 a3 (by simp only [mayTouch]; decide +kernel)
  | .getCert a1 a2 a3 => @execGetCert_in _ s a1 a2 a3 (by simp only [mayTouch]; decide +kernel)
  | .getChallenge a1 a2 a3 => @execGetChallenge_in _ s a1 a2 a3 (by simp only [mayTouch]; decide +kernel)
  | .takeOwnership a1 a2 a3 => @execTakeOwnership_in _ s a1 a2 a3 (by simp only [mayTouch]; decide +kernel)
  | .lbLock a1 a2 a3 => @execLbLock_in _ s a1 a2 a3 (by simp only [mayTouch]; decide +kernel)
  | .scrap a1 a2 a3 => @execScrap_in _ s a1 a2 a3 (by simp only [mayTouch]; decide +kernel)
  | .lbStore a1 a2 a3 => @execLbStore_in _ s a1 a2 a3 (by simp only [mayTouch]; decide +kernel)
  | .nvsRead a1 a2 a3 => @execNvsRead_in _ s a1 a2 a3 (by simp only [mayTouch]; decide +kernel)
  | .selectOther a1 a2 a3 => @execSelectOther_in _ s a1 a2 a3 (by simp only [mayTouch]; decide +kernel)
  | .erase a1 a2 a3 => @execErase_in _ s a1 a2 a3 (by simp only [mayTouch]; decide +kernel)
  | .logRead a1 a2 a3 => @execLogRead_in _ s a1 a2 a3 (by simp only [mayTouch]; decide +kernel)
  | .logClear a1 a2 a3 => @execLogClear_in _ s a1 a2 a3 (by simp only [mayTouch]; decide +kernel)
  | .flashRead a1 a2 a3 => @execFlashRead_in _ s a1 a2 a3 (by simp only [mayTouch]; decide +kernel)
  | .flashErase a1 a2 a3 => @execFlashErase_in _ s a1 a2 a3 (by simp only [mayTouch]; decide +kernel)
  | .flashWrite a1 a2 a3 => @execFlashWrite_in _ s a1 a2 a3 (by simp only [mayTouch]; decide +kernel)
  | .imageCheck a1 a2 a3 => @execImageCheck_in _ s a1 a2 a3 (by simp only [mayTouch]; decide +kernel)
  | .flashOpDone a1 a2 => @execFlashOpDone_in _ s a1 a2 (by simp only [mayTouch]; decide +kernel)
  | .c37DataFrame a1 => @execC37DataFrame_in _ s a1 (by simp only [mayTouch]; decide +kernel)
  | .c37CfgFrame a1 => @execC37CfgFrame_in _ s a1 (by simp only [mayTouch]; decide +kernel)
  | .spduReceived a1 a2 => @execSpduReceived_in _ s a1 a2 (by simp only [mayTouch]; decide +kernel)
  | .svAsdu a1 => @execSvAsdu_in _ s a1 (by simp only [mayTouch]; decide +kernel)
  | .otherFrame a1 => @execOtherFrame_in _ s a1 (by simp only [mayTouch]; decide +kernel)
  | .arpRequest a1 a2 => @execArpRequest_in _ s a1 a2 (by simp only [mayTouch]; decide +kernel)
  | .echoRequest a1 a2 => @execEchoRequest_in _ s a1 a2 (by simp only [mayTouch]; decide +kernel)
  | .fragment a1 a2 => @execFragment_in _ s a1 a2 (by simp only [mayTouch]; decide +kernel)
  | .reasmTimeout a1 a2 => @execReasmTimeout_in _ s a1 a2 (by simp only [mayTouch]; decide +kernel)
  | .tcpSegment a1 => @execTcpSegment_in _ s a1 (by simp only [mayTouch]; decide +kernel)
  | .tcpConnected a1 a2 => @execTcpConnected_in _ s a1 a2 (by simp only [mayTouch]; decide +kernel)
  | .tcpConnFail a1 a2 => @execTcpConnFail_in _ s a1 a2 (by simp only [mayTouch]; decide +kernel)
  | .tcpReconnect a1 a2 => @execTcpReconnect_in _ s a1 a2 (by simp only [mayTouch]; decide +kernel)
  | .cfgRequestTimer a1 a2 => @execCfgRequestTimer_in _ s a1 a2 (by simp only [mayTouch]; decide +kernel)
  | .pendingTimeout a1 a2 => @execPendingTimeout_in _ s a1 a2 (by simp only [mayTouch]; decide +kernel)
  | .refusedExpiry a1 a2 => @execRefusedExpiry_in _ s a1 a2 (by simp only [mayTouch]; decide +kernel)
  | .admDecide a1 => @execAdmDecide_in _ s a1 (by simp only [mayTouch]; decide +kernel)
  | .admCommit a1 => @execAdmCommit_in _ s a1 (by simp only [mayTouch]; decide +kernel)
  | .streamInstant a1 a2 => @execStreamInstant_in _ s a1 a2 (by simp only [mayTouch]; decide +kernel)
  | .sidQuarantineEnd a1 a2 => @execSidQuarantineEnd_in _ s a1 a2 (by simp only [mayTouch]; decide +kernel)
  | .descriptorCheckWrite a1 a2 => @execDescriptorCheckWrite_in _ s a1 a2 (by simp only [mayTouch]; decide +kernel)
  | .rgooseHoldLetter a1 a2 => @execRgooseHoldLetter_in _ s a1 a2 (by simp only [mayTouch]; decide +kernel)
  | .linkDown a1 a2 => @execLinkDown_in _ s a1 a2 (by simp only [mayTouch]; decide +kernel)
  | .linkUp a1 a2 => @execLinkUp_in _ s a1 a2 (by simp only [mayTouch]; decide +kernel)
  | .portRestore a1 a2 => @execPortRestore_in _ s a1 a2 (by simp only [mayTouch]; decide +kernel)
  | .portFail a1 a2 => @execPortFail_in _ s a1 a2 (by simp only [mayTouch]; decide +kernel)
  | .pauseFrame a1 a2 a3 => @execPauseFrame_in _ s a1 a2 a3 (by simp only [mayTouch]; decide +kernel)
  | .pauseCut a1 a2 => @execPauseCut_in _ s a1 a2 (by simp only [mayTouch]; decide +kernel)
  | .egressShed a1 a2 => @execEgressShed_in _ s a1 a2 (by simp only [mayTouch]; decide +kernel)
  | .cmdSendCfg a1 => @execCmdSendCfg_in _ s a1 (by simp only [mayTouch]; decide +kernel)
  | .cmdSendHeader a1 => @execCmdSendHeader_in _ s a1 (by simp only [mayTouch]; decide +kernel)
  | .cmdDataOn a1 => @execCmdDataOn_in _ s a1 (by simp only [mayTouch]; decide +kernel)
  | .cmdDataOff a1 => @execCmdDataOff_in _ s a1 (by simp only [mayTouch]; decide +kernel)
  | .cmdOther a1 => @execCmdOther_in _ s a1 (by simp only [mayTouch]; decide +kernel)
  | .ptpSync a1 => @execPtpSync_in _ s a1 (by simp only [mayTouch]; decide +kernel)
  | .ptpAnnounce a1 a2 => @execPtpAnnounce_in _ s a1 a2 (by simp only [mayTouch]; decide +kernel)
  | .pdelayReq a1 => @execPdelayReq_in _ s a1 (by simp only [mayTouch]; decide +kernel)
  | .pdelayResp a1 => @execPdelayResp_in _ s a1 (by simp only [mayTouch]; decide +kernel)
  | .pdelayReqSend a1 a2 => @execPdelayReqSend_in _ s a1 a2 (by simp only [mayTouch]; decide +kernel)
  | .announceTimeout a1 a2 => @execAnnounceTimeout_in _ s a1 a2 (by simp only [mayTouch]; decide +kernel)
  | .timeAgree a1 => @execTimeAgree_in _ s a1 (by simp only [mayTouch]; decide +kernel)
  | .domainRevert a1 => @execDomainRevert_in _ s a1 (by simp only [mayTouch]; decide +kernel)
  | .tbSelSwitch a1 => @execTbSelSwitch_in _ s a1 (by simp only [mayTouch]; decide +kernel)
  | .timeCommit a1 => @execTimeCommit_in _ s a1 (by simp only [mayTouch]; decide +kernel)
  | .timeCommitApply a1 => @execTimeCommitApply_in _ s a1 (by simp only [mayTouch]; decide +kernel)
  | .tbNowFreeze => @execTbNowFreeze_in _ s (by simp only [mayTouch]; decide +kernel)
  | .tbNowWordRead a1 => @execTbNowWordRead_in _ s a1 (by simp only [mayTouch]; decide +kernel)
  | .tbNowRelease => @execTbNowRelease_in _ s (by simp only [mayTouch]; decide +kernel)
  | .ppsOutEdge a1 => @execPpsOutEdge_in _ s a1 (by simp only [mayTouch]; decide +kernel)
  | .ppsOutEnd a1 => @execPpsOutEnd_in _ s a1 (by simp only [mayTouch]; decide +kernel)
  | .ppsInEdge a1 => @execPpsInEdge_in _ s a1 (by simp only [mayTouch]; decide +kernel)
  | .ppsInLost a1 => @execPpsInLost_in _ s a1 (by simp only [mayTouch]; decide +kernel)
  | .backupClockWrite a1 => @execBackupClockWrite_in _ s a1 (by simp only [mayTouch]; decide +kernel)
  | .leapPending a1 => @execLeapPending_in _ s a1 (by simp only [mayTouch]; decide +kernel)
  | .leap a1 => @execLeap_in _ s a1 (by simp only [mayTouch]; decide +kernel)
  | .leapOccurredEnd a1 => @execLeapOccurredEnd_in _ s a1 (by simp only [mayTouch]; decide +kernel)
  | .hostLeapClear a1 => @execHostLeapClear_in _ s a1 (by simp only [mayTouch]; decide +kernel)
  | .fileLetter a1 a2 => @execFileLetter_in _ s a1 a2 (by simp only [mayTouch]; decide +kernel)
  | .roundInstant a1 a2 => @execRoundInstant_in _ s a1 a2 (by simp only [mayTouch]; decide +kernel)
  | .deadlineClose a1 a2 => @execDeadlineClose_in _ s a1 a2 (by simp only [mayTouch]; decide +kernel)
  | .dispatch a1 a2 => @execDispatch_in _ s a1 a2 (by simp only [mayTouch]; decide +kernel)
  | .roundCommit a1 a2 => @execRoundCommit_in _ s a1 a2 (by simp only [mayTouch]; decide +kernel)
  | .groupUpdate a1 a2 => @execGroupUpdate_in _ s a1 a2 (by simp only [mayTouch]; decide +kernel)
  | .defUpdate a1 => @execDefUpdate_in _ s a1 (by simp only [mayTouch]; decide +kernel)
  | .coherencyUpdate a1 => @execCoherencyUpdate_in _ s a1 (by simp only [mayTouch]; decide +kernel)
  | .clustering a1 => @execClustering_in _ s a1 (by simp only [mayTouch]; decide +kernel)
  | .separation a1 => @execSeparation_in _ s a1 (by simp only [mayTouch]; decide +kernel)
  | .machineStep a1 a2 => @execMachineStep_in _ s a1 a2 (by simp only [mayTouch]; decide +kernel)
  | .gooseRetransmit a1 a2 => @execGooseRetransmit_in _ s a1 a2 (by simp only [mayTouch]; decide +kernel)
  | .almAck a1 => @execAlmAck_in _ s a1 (by simp only [mayTouch]; decide +kernel)
  | .stdAlarmExpiry a1 a2 => @execStdAlarmExpiry_in _ s a1 a2 (by simp only [mayTouch]; decide +kernel)
  | .alarmPinMinw a1 a2 => @execAlarmPinMinw_in _ s a1 a2 (by simp only [mayTouch]; decide +kernel)
  | .almOeNChange a1 => @execAlmOeNChange_in _ s a1 (by simp only [mayTouch]; decide +kernel)
  | .outputSample a1 a2 a3 => @execOutputSample_in _ s a1 a2 a3 (by simp only [mayTouch]; decide +kernel)
  | .lookAheadSample a1 a2 a3 a4 => @execLookAheadSample_in _ s a1 a2 a3 a4 (by simp only [mayTouch]; decide +kernel)
  | .inputFault a1 a2 => @execInputFault_in _ s a1 a2 (by simp only [mayTouch]; decide +kernel)
  | .inputFaultClear a1 a2 => @execInputFaultClear_in _ s a1 a2 (by simp only [mayTouch]; decide +kernel)
  | .curveLookup a1 => @execCurveLookup_in _ s a1 (by simp only [mayTouch]; decide +kernel)
  | .calCommit a1 => @execCalCommit_in _ s a1 (by simp only [mayTouch]; decide +kernel)
  | .calCommitApply a1 => @execCalCommitApply_in _ s a1 (by simp only [mayTouch]; decide +kernel)
  | .localLetter a1 a2 => @execLocalLetter_in _ s a1 a2 (by simp only [mayTouch]; decide +kernel)
  | .svWaitTimeout a1 a2 => @execSvWaitTimeout_in _ s a1 a2 (by simp only [mayTouch]; decide +kernel)
  | .svLost a1 a2 => @execSvLost_in _ s a1 a2 (by simp only [mayTouch]; decide +kernel)
  | .chainFilled a1 a2 => @execChainFilled_in _ s a1 a2 (by simp only [mayTouch]; decide +kernel)
  | .quantumEnd a1 a2 => @execQuantumEnd_in _ s a1 a2 (by simp only [mayTouch]; decide +kernel)
  | .intervalEnd a1 a2 => @execIntervalEnd_in _ s a1 a2 (by simp only [mayTouch]; decide +kernel)
  | .nrgSnap a1 => @execNrgSnap_in _ s a1 (by simp only [mayTouch]; decide +kernel)
  | .nrgPreset a1 a2 => @execNrgPreset_in _ s a1 a2 (by simp only [mayTouch]; decide +kernel) (by
      rw [areaBit_fld rfl (by simp [idxOk, Reg.NRG_PT_PRE_IDX_GO, a1.isLt])]; simp only [mayTouch]; decide +kernel)
  | .urmsHalfValue a1 a2 a3 => @execUrmsHalfValue_in _ s a1 a2 a3 (by simp only [mayTouch]; decide +kernel)
  | .capAck a1 a2 => @execCapAck_in _ s a1 a2 (by simp only [mayTouch]; decide +kernel)
  | .capArm a1 => @execCapArm_in _ s a1 (by simp only [mayTouch]; decide +kernel)
  | .capForce a1 => @execCapForce_in _ s a1 (by simp only [mayTouch]; decide +kernel)
  | .xtrgFireEdge a1 => @execXtrgFireEdge_in _ s a1 (by simp only [mayTouch]; decide +kernel)
  | .xtrgFireRelease a1 => @execXtrgFireRelease_in _ s a1 (by simp only [mayTouch]; decide +kernel)
  | .xtrgSyncEdge a1 => @execXtrgSyncEdge_in _ s a1 (by simp only [mayTouch]; decide +kernel)
  | .syncGo a1 => @execSyncGo_in _ s a1 (by simp only [mayTouch]; decide +kernel)
  | .xtrgSyncRelease a1 => @execXtrgSyncRelease_in _ s a1 (by simp only [mayTouch]; decide +kernel)
  | .heartbeatSend a1 => @execHeartbeatSend_in _ s a1 (by simp only [mayTouch]; decide +kernel)
  | .heartbeatReceived a1 a2 a3 => @execHeartbeatReceived_in _ s a1 a2 a3 (by simp only [mayTouch]; decide +kernel)
  | .pathSilent a1 a2 => @execPathSilent_in _ s a1 a2 (by simp only [mayTouch]; decide +kernel)
  | .joinTimeout a1 => @execJoinTimeout_in _ s a1 (by simp only [mayTouch]; decide +kernel)
  | .hello a1 => @execHello_in _ s a1 (by simp only [mayTouch]; decide +kernel)
  | .switchOffer a1 a2 => @execSwitchOffer_in _ s a1 a2 (by simp only [mayTouch]; decide +kernel)
  | .switchAccept a1 a2 => @execSwitchAccept_in _ s a1 a2 (by simp only [mayTouch]; decide +kernel)
  | .switchRefuse a1 => @execSwitchRefuse_in _ s a1 (by simp only [mayTouch]; decide +kernel)
  | .fwdOn a1 => @execFwdOn_in _ s a1 (by simp only [mayTouch]; decide +kernel)
  | .fwdOff a1 => @execFwdOff_in _ s a1 (by simp only [mayTouch]; decide +kernel)
  | .fwd a1 => @execFwd_in _ s a1 (by simp only [mayTouch]; decide +kernel)
  | .plkDispatch a1 a2 => @execPlkDispatch_in _ s a1 a2 (by simp only [mayTouch]; decide +kernel)
  | .fetch a1 a2 a3 a4 a5 => @execFetch_in _ s a1 a2 a3 a4 a5 (by simp only [mayTouch]; decide +kernel)
  | .copy a1 a2 => @execCopy_in _ s a1 a2 (by simp only [mayTouch]; decide +kernel)
  | .rel a1 => @execRel_in _ s a1 (by simp only [mayTouch]; decide +kernel)
  | .digest a1 a2 a3 a4 => @execDigest_in _ s a1 a2 a3 a4 (by simp only [mayTouch]; decide +kernel)
  | .catchup a1 => @execCatchup_in _ s a1 (by simp only [mayTouch]; decide +kernel)
  | .plkAck a1 a2 => @execPlkAck_in _ s a1 a2 (by simp only [mayTouch]; decide +kernel)
  | .rxmap a1 => @execRxmap_in _ s a1 (by simp only [mayTouch]; decide +kernel)
  | .ackSend a1 => @execAckSend_in _ s a1 (by simp only [mayTouch]; decide +kernel)
  | .retransmit a1 => @execRetransmit_in _ s a1 (by simp only [mayTouch]; decide +kernel)
  | .laneUp a1 a2 => @execLaneUp_in _ s a1 a2 (by simp only [mayTouch]; decide +kernel)
  | .laneDown a1 a2 a3 => @execLaneDown_in _ s a1 a2 a3 (by simp only [mayTouch]; decide +kernel)
  | .followLate a1 a2 => @execFollowLate_in _ s a1 a2 (by simp only [mayTouch]; decide +kernel)
  | .revert a1 => @execRevert_in _ s a1 (by simp only [mayTouch]; decide +kernel)
  | .autoSwitchover a1 => @execAutoSwitchover_in _ s a1 (by simp only [mayTouch]; decide +kernel)
  | .sramScrubPass a1 a2 a3 a4 => @execSramScrubPass_in _ s a1 a2 a3 a4 (by simp only [mayTouch]; decide +kernel)
  | .knownAnswerTest a1 a2 a3 => @execKnownAnswerTest_in _ s a1 a2 a3 (by simp only [mayTouch]; decide +kernel)
  | .dramPatrolPass a1 a2 a3 a4 a5 => @execDramPatrolPass_in _ s a1 a2 a3 a4 a5 (by simp only [mayTouch]; decide +kernel)
  | .mramReadCheck a1 a2 a3 a4 => @execMramReadCheck_in _ s a1 a2 a3 a4 (by simp only [mayTouch]; decide +kernel)
  | .dramUe a1 a2 a3 a4 => @execDramUe_in _ s a1 a2 a3 a4 (by simp only [mayTouch]; decide +kernel)
  | .mramUe a1 a2 => @execMramUe_in _ s a1 a2 (by simp only [mayTouch]; decide +kernel)
  | .keyExpiry a1 a2 => @execKeyExpiry_in _ s a1 a2 (by simp only [mayTouch]; decide +kernel)
  | .reserveWriteDone a1 => @execReserveWriteDone_in _ s a1 (by simp only [mayTouch]; decide +kernel)
  | .counterTableWrite a1 => @execCounterTableWrite_in _ s a1 (by simp only [mayTouch]; decide +kernel)
  | .challengeExpiry a1 => @execChallengeExpiry_in _ s a1 (by simp only [mayTouch]; decide +kernel)
  | .chalReq a1 => @execChalReq_in _ s a1 (by simp only [mayTouch]; decide +kernel)
  | .submit a1 => @execSubmit_in _ s a1 (by simp only [mayTouch]; decide +kernel)
  | .svcAuthDone a1 => @execSvcAuthDone_in _ s a1 (by simp only [mayTouch]; decide +kernel)
  | .logRecordWrite a1 a2 => @execLogRecordWrite_in _ s a1 a2 (by simp only [mayTouch]; decide +kernel)
  | .repeatRewrite a1 => @execRepeatRewrite_in _ s a1 (by simp only [mayTouch]; decide +kernel)
  | .opsecSave a1 => @execOpsecSave_in _ s a1 (by simp only [mayTouch]; decide +kernel)
  | .bkdSecFreeze => @execBkdSecFreeze_in _ s (by simp only [mayTouch]; decide +kernel)
  | .bkdSecWordRead => @execBkdSecWordRead_in _ s (by simp only [mayTouch]; decide +kernel)
  | .bkdSecRelease => @execBkdSecRelease_in _ s (by simp only [mayTouch]; decide +kernel)
  | .bkdCommit a1 => @execBkdCommit_in _ s a1 (by simp only [mayTouch]; decide +kernel)
  | .bkdCommitApply a1 => @execBkdCommitApply_in _ s a1 (by simp only [mayTouch]; decide +kernel)
  | .bkdSecondTick a1 => @execBkdSecondTick_in _ s a1 (by simp only [mayTouch]; decide +kernel)
  | .alarmArm a1 => @execAlarmArm_in _ s a1 (by simp only [mayTouch]; decide +kernel)
  | .alarmDisarm a1 => @execAlarmDisarm_in _ s a1 (by simp only [mayTouch]; decide +kernel)
  | .tcWindow a1 => @execTcWindow_in _ s a1 (by simp only [mayTouch]; decide +kernel)
  | .trimWindow => @execTrimWindow_in _ s (by simp only [mayTouch]; decide +kernel)
  | .ponOff a1 => @execPonOff_in _ s a1 (by simp only [mayTouch]; decide +kernel)
  | .ponOffApply a1 => @execPonOffApply_in _ s a1 (by simp only [mayTouch]; decide +kernel)
  | .oscStop a1 => @execOscStop_in _ s a1 (by simp only [mayTouch]; decide +kernel)
  | .vbatLowChange a1 => @execVbatLowChange_in _ s a1 (by simp only [mayTouch]; decide +kernel)
  | .counterLatchLow a1 => @execCounterLatchLow_in _ s a1 (by simp only [mayTouch]; decide +kernel)
  | .counterLatchHigh a1 => @execCounterLatchHigh_in _ s a1 (by simp only [mayTouch]; decide +kernel)
  | .noticeClear a1 a2 => @execNoticeClear_in _ s a1 a2 (by simp only [mayTouch]; decide +kernel)
  | .noticeEnable a1 a2 => @execNoticeEnable_in _ s a1 a2 (by simp only [mayTouch]; decide +kernel)
  | .msixUnmask a1 => @execMsixUnmask_in _ s a1 (by simp only [mayTouch]; decide +kernel) (by
      rw [areaBit_fld rfl (by simp [idxOk, Reg.MSIX_CTRL, a1.isLt])]; simp only [mayTouch]; decide +kernel)
  | .maxDspClear a1 a2 => @execMaxDspClear_in _ s a1 a2 (by simp only [mayTouch]; decide +kernel)
  | .maxLClear a1 a2 => @execMaxLClear_in _ s a1 a2 (by simp only [mayTouch]; decide +kernel)
  | .maxWaitClear a1 a2 => @execMaxWaitClear_in _ s a1 a2 (by simp only [mayTouch]; decide +kernel)
  | .clsHighClear a1 a2 => @execClsHighClear_in _ s a1 a2 (by simp only [mayTouch]; decide +kernel)
  | .tjPeakReset a1 => @execTjPeakReset_in _ s a1 (by simp only [mayTouch]; decide +kernel)
  | .registerWrite a1 a2 a3 => @execRegisterWrite_in _ s a1 a2 a3 (by simp only [mayTouch]; decide +kernel)
  | .tjSample a1 a2 => @execTjSample_in _ s a1 a2 (by simp only [mayTouch]; decide +kernel)
  | .supplyExcursion a1 a2 a3 => @execSupplyExcursion_in _ s a1 a2 a3 (by simp only [mayTouch]; decide +kernel)
  | .i2cGo a1 => @execI2cGo_in _ s a1 (by simp only [mayTouch]; decide +kernel)
  | .i2cDone a1 a2 => @execI2cDone_in _ s a1 a2 (by simp only [mayTouch]; decide +kernel)
  | .syncError a1 => @execSyncError_in _ s a1 (by simp only [mayTouch]; decide +kernel)
  | .pauseEnd a1 a2 => @execPauseEnd_in _ s a1 a2 (by simp only [mayTouch]; decide +kernel)
  | .fcsErrFrame a1 a2 => @execFcsErrFrame_in _ s a1 a2 (by simp only [mayTouch]; decide +kernel)
  | .snapDone a1 => @execSnapDone_in _ s a1 (by simp only [mayTouch]; decide +kernel)
  | .backupDomainPowered a1 => @execBackupDomainPowered_in _ s a1 (by simp only [mayTouch]; decide +kernel)
  | .pcieLinkUp => @execPcieLinkUp_in _ s (by simp only [mayTouch]; decide +kernel)
  | .busMasteringOn a1 => @execBusMasteringOn_in _ s a1 (by simp only [mayTouch]; decide +kernel)

theorem Touch.mask_part {t : Touch} {p : Part} (h : p ∉ t.parts) : t.mask.testBit p.ctorIdx = false := by
  have small : p.ctorIdx < 32 := by cases p <;> decide
  have base : ∀ (ps : List Part) (a : Nat), p ∉ ps → a.testBit p.ctorIdx = false →
      (ps.foldl (fun a p => a ||| 2 ^ p.ctorIdx) a).testBit p.ctorIdx = false := by
    intro ps
    induction ps with
    | nil => intro a _ h; exact h
    | cons q r ih =>
      intro a hp ha
      simp only [List.mem_cons, not_or] at hp
      refine ih _ hp.2 ?_
      rw [Nat.testBit_or, ha, Bool.false_or, Nat.testBit_two_pow]
      refine decide_eq_false fun e => hp.1 ?_
      revert e; cases p <;> cases q <;> decide
  have up : ∀ (as : List Nat) (a : Nat), a.testBit p.ctorIdx = false →
      (as.foldl (fun a n => a ||| 2 ^ (32 + n)) a).testBit p.ctorIdx = false := by
    intro as
    induction as with
    | nil => intro a h; exact h
    | cons n r ih =>
      intro a ha
      refine ih _ ?_
      rw [Nat.testBit_or, ha, Bool.false_or, Nat.testBit_two_pow]
      exact decide_eq_false (by omega)
  exact up _ _ (base _ _ h (Nat.zero_testBit _))

theorem Touch.mask_area {t : Touch} {n : Nat} (h : t.areas.contains n = false) : t.mask.testBit (32 + n) = false := by
  have base : ∀ (ps : List Part) (a : Nat), a.testBit (32 + n) = false →
      (ps.foldl (fun a p => a ||| 2 ^ p.ctorIdx) a).testBit (32 + n) = false := by
    intro ps
    induction ps with
    | nil => intro a h; exact h
    | cons q r ih =>
      intro a ha
      refine ih _ ?_
      rw [Nat.testBit_or, ha, Bool.false_or, Nat.testBit_two_pow]
      have : q.ctorIdx < 32 := by cases q <;> decide
      exact decide_eq_false (by omega)
  have up : ∀ (as : List Nat) (a : Nat), n ∉ as → a.testBit (32 + n) = false →
      (as.foldl (fun a n => a ||| 2 ^ (32 + n)) a).testBit (32 + n) = false := by
    intro as
    induction as with
    | nil => intro a _ h; exact h
    | cons m r ih =>
      intro a hn ha
      simp only [List.mem_cons, not_or] at hn
      refine ih _ hn.2 ?_
      rw [Nat.testBit_or, ha, Bool.false_or, Nat.testBit_two_pow]
      exact decide_eq_false (by omega)
  exact up _ _ (fun hm => by rw [List.contains_iff_mem.mpr hm] at h; cases h) (base _ _ (Nat.zero_testBit _))

/-- What lies within the mask of a set of parts and areas leaves the rest as it was. -/
theorem Within.frame {t : Touch} {s u : State} (h : Within t.mask s u) : t.frame s u :=
  ⟨fun p hp => h.parts p (Touch.mask_part hp), fun off ho => h.words off (Touch.mask_area ho)⟩

end Sys2Proof.Machine
end

