-- ==== Sys2Proof/WellFormed.lean ====
section
/-! DEFINITION. Which commands are well formed: operands inside the ranges that the wire formats, the register windows and the
tables of the spec give them. A command outside them names nothing the block can be sent. -/
namespace Sys2Proof

/-- What every frame carries: MAC address, VLAN tag, PRP sequence number and bit offset inside their fields (R75, R94, R96, R98). -/
def RxHead.wf (f : RxHead) : Bool :=
  decide (f.bofs < 66 ∧ f.mac < 2 ^ 48) && (f.vlan.all fun v => decide (v < 4096)) && f.prpSeq.all fun q => decide (q < 65536)

/-- A received frame: addresses and ports inside their fields, octets inside the frame. -/
def RxFrame.wf (f : RxFrame) : Bool :=
  f.toRxHead.wf && decide (f.sport < 65536 ∧ f.dport < 65536 ∧ f.payload.length ≤ f.len) &&
    decide (f.src < (if f.v6 then 2 ^ 128 else 2 ^ 32) ∧ f.dst < if f.v6 then 2 ^ 128 else 2 ^ 32)

/-- A letter's fields hold what R125 gives them. -/
def Letter.wf (l : Letter) : Bool :=
  decide (l.sid < 0x4008 ∧ l.flags < 65536 ∧ l.sec < 2 ^ 48 ∧ l.k < 256 ∧ l.rate < 16 ∧ l.stat < 65536 ∧ l.cfgcnt < 65536) &&
    decide (l.phn ≤ 32 ∧ l.ann ≤ 16 ∧ l.dgn ≤ 8 ∧ l.path < 256 ∧ l.tq < 256) &&
    decide (l.ph.length ≤ 32 ∧ l.an.length ≤ 16 ∧ l.dg.length ≤ 8) && l.dg.all fun d => decide (d < 65536)

/-- An ASDU's RefrTm (R116). -/
def SpduAsdu.wf (a : SpduAsdu) : Bool :=
  a.refr.all fun r => decide (r.1 < 2 ^ 32 ∧ r.2.1 < 2 ^ 24 ∧ r.2.2 < 256)

def Spdu.wf (p : Spdu) : Bool :=
  decide (p.appid < 65536 ∧ p.num < 2 ^ 32 ∧ p.alg < 256 ∧ p.tagBits < 65536) && (p.keyId.all fun k => decide (k < 2 ^ 32)) && p.asdus.all SpduAsdu.wf

/-- An ASDU of a sampled-value frame: eight channels (R333). -/
def SvAsdu.wf (a : SvAsdu) : Bool :=
  a.toRxHead.wf && decide (a.appid < 65536 ∧ a.smpCnt < 65536 ∧ a.smpSynch < 256) && a.values.length == 8

def AnnData.wf (a : AnnData) : Bool :=
  decide (a.domNum < 256 ∧ a.prio1 < 256 ∧ a.clockClass < 256 ∧ a.accuracy < 256 ∧ a.variance < 65536 ∧ a.prio2 < 256) &&
    decide (a.gmId < 2 ^ 64 ∧ a.steps < 65536 ∧ -32768 ≤ a.utcOfs ∧ a.utcOfs < 32768)

def SyncMsg.wf (m : SyncMsg) : Bool := m.toRxHead.wf && decide (m.domNum < 256)
def PdelayMsg.wf (m : PdelayMsg) : Bool := m.toRxHead.wf && decide (m.domNum < 256)

/-- A letterbox command's fields (R216). -/
def LbCmd.wf (c : LbCmd) : Bool :=
  decide (c.flags < 65536 ∧ c.tag < 2 ^ 32 ∧ c.addr < 2 ^ 64 ∧ c.len < 2 ^ 32) && c.param.length == 11 &&
    c.param.all fun p => decide (p < 2 ^ 32)

def HostBuf.wf (b : HostBuf) : Bool := decide (b.data.length < 2 ^ 32)

def FragId.wf (c : FragId) : Bool := decide (c.ident < 2 ^ 32 ∧ c.offset < 65536 ∧ c.offset % 8 = 0)

def HkKind.wf (k : HkKind) : Bool :=
  match k with | .clustering => true | .kat srt => decide (srt < 64) | .other _ => true

/-- What the end of a start step brings (R519): a SHA-384 hash, fitted sizes that a channel can have, sorters by number. -/
def StepEnd.wf (o : StepEnd) : Bool :=
  match o with
  | .plain _ => true
  | .fuses hash _ => hash.length == 48
  | .keys bad _ => bad.all fun p => decide (p < 512)
  | .logbook _ _ => true
  | .dram g0 g1 _ _ _ _ _ => decide (g0 < 256 ∧ g1 < 256 ∧ g0 + g1 < 256)
  | .sorters failed _ => failed.all fun n => decide (n < 64)

/-- A message of an ordered stream comes in one frame at least, with a 32-bit SEQ (R408). -/
def PlkHead.wf (h : PlkHead) : Bool := decide (h.seq < 2 ^ 32 ∧ 0 < h.frames)

def FetchMsg.wf (m : FetchMsg) : Bool :=
  match m with
  | .letters _ seq sids => decide (seq < 65536) && sids.all fun x => decide (x < 0x4008)
  | .askCheck _ seq => decide (seq < 65536)
  | .checkList _ seq crcs => decide (seq < 65536) && crcs.all fun x => decide (x < 2 ^ 32)
  | .catchup _ group => decide (group < 256)

def HelloMsg.wf (h : HelloMsg) : Bool := decide (h.digest < 2 ^ 32 ∧ h.mac < 2 ^ 48)

def PlkDispatch.wf (d : PlkDispatch) : Bool :=
  decide (d.rnd < 64 ∧ d.seq < 2 ^ 32 ∧ d.vdig < 2 ^ 32) && d.present.all fun x => decide (x < 0x4008)

/-- A record of a COPY frame names an object that exists (R417). -/
def CopyRec.wf (r : CopyRec) : Bool :=
  match r with
  | .machine m st _ ns _ _ _ out => decide (m < 1024 ∧ st < 8 ∧ ns < 1000000000 ∧ out < 256)
  | .alarmWords ws => ws.length == 16
  | .publication q _ _ _ _ => decide (q < 16)
  | .sendKey k n => decide (k < 2 ^ 32 ∧ n < 2 ^ 32)
  | .group g _ _ => decide (g < 64)
  | .tie t _ _ => decide (t < 256)
  | .admission sid _ _ _ => decide (sid < 16384)
  | .descr sid _ _ => decide (sid < 16384)
  | .round r c _ _ _ _ => decide (r < 64 ∧ c < 65536)
  | .mirrored a _ be => decide (a < 0x1000000 ∧ be < 16)
  | .clustering _ => true

def CopyFrame.wf (c : CopyFrame) : Bool := decide (c.seq < 2 ^ 32) && c.recs.all CopyRec.wf

def RelMsg.wf (r : RelMsg) : Bool :=
  match r with
  | .slot rnd _ => decide (rnd < 64)
  | .pub q _ _ => decide (q < 16)

/-- A command is well formed. -/
def Instr.wf (i : Instr) : Bool :=
  match i with
  | .coldStart _ => true
  | .supplyTrip _ _ _ => true
  | .porstNAssert _ => true
  | .wrstNLow _ lowNs => decide (1000 ≤ lowNs)
  | .warmStart w => w.toNat % 65536 == 0x57A7
  | .warmStartFull w => w.toNat % 65536 == 0x57A7
  | .startStepEnd o => o.wf
  | .startTimer _ => true
  | .pllLockTimeout _ => true
  | .startRetry _ => true
  | .stableTimer _ => true
  | .watchdogStall _ => true
  | .watchdogHost _ => true
  | .strtKick w => w.toNat % 65536 == 0xC35A
  | .reqWatch _ => true
  | .reqSwitchover _ => true
  | .reqRunEnable _ => true
  | .reqService _ => true
  | .sramUe _ index _ => decide (index < 2 ^ 22)
  | .sequencerFault _ _ => true
  | .napEntry _ _ => true
  | .scheduledWake _ _ => true
  | .sorterWakeDone _ _ => true
  | .offEntry _ _ => true
  | .itemEnd _ _ _ => true
  | .itemStealable _ _ => true
  | .itemExpiry _ _ => true
  | .itemTimeLimit _ _ _ => true
  | .hostCancel _ => true
  | .housekeepingTimer kind _ => kind.wf
  | .flowStateCopyDone flow _ => decide (flow < 65536)
  | .prDoorbell _ _ _ => true
  | .modTimeout _ _ => true
  | .prEnable _ _ => true
  | .lbEnable _ _ => true
  | .lbDoorbell _ _ => true
  | .lbCommandFetched _ cmd _ => cmd.length == 64
  | .ringPcieError lb ring => !lb || decide (ring.val < 16)
  | .bmeOff => true
  | .perst => true
  | .lbNop _ c b target => c.wf && b.wf && decide (target ≤ 0x16)
  | .resend _ c b => c.wf && b.wf
  | .compress _ c b => c.wf && b.wf
  | .decode _ c b => c.wf && b.wf
  | .compressDone _ _ => true
  | .lbImport _ c b => c.wf && b.wf
  | .derive _ c b => c.wf && b.wf
  | .invalidate _ c b => c.wf && b.wf
  | .lbDelete _ c b => c.wf && b.wf
  | .seal _ c b => c.wf && b.wf
  | .getCert _ c b => c.wf && b.wf
  | .getChallenge _ c b => c.wf && b.wf
  | .takeOwnership _ c b => c.wf && b.wf
  | .lbLock _ c b => c.wf && b.wf
  | .scrap _ c b => c.wf && b.wf
  | .lbStore _ c b => c.wf && b.wf
  | .nvsRead _ c b => c.wf && b.wf
  | .selectOther _ c b => c.wf && b.wf
  | .erase _ c b => c.wf && b.wf
  | .logRead _ c b => c.wf && b.wf
  | .logClear _ c b => c.wf && b.wf
  | .flashRead _ c b => c.wf && b.wf
  | .flashErase _ c b => c.wf && b.wf
  | .flashWrite _ c b => c.wf && b.wf
  | .imageCheck _ c b => c.wf && b.wf
  | .flashOpDone _ _ => true
  | .c37DataFrame f => f.wf
  | .c37CfgFrame f => f.wf
  | .spduReceived f p => f.wf && p.wf
  | .svAsdu a => a.wf
  | .otherFrame f => f.wf
  | .arpRequest f addr => f.wf && decide (addr < 2 ^ 32)
  | .echoRequest f addr => f.wf && decide (addr < 2 ^ 128)
  | .fragment f ctx => f.toRxFrame.wf && f.spdu.wf && ctx.wf
  | .reasmTimeout ctx _ => ctx.wf
  | .tcpSegment f => f.wf
  | .tcpConnected _ _ => true
  | .tcpConnFail _ _ => true
  | .tcpReconnect _ _ => true
  | .cfgRequestTimer _ _ => true
  | .pendingTimeout _ _ => true
  | .refusedExpiry _ _ => true
  | .admDecide _ => true
  | .admCommit _ => true
  | .streamInstant _ _ => true
  | .sidQuarantineEnd _ _ => true
  | .descriptorCheckWrite _ _ => true
  | .rgooseHoldLetter _ _ => true
  | .linkDown _ _ => true
  | .linkUp _ _ => true
  | .portRestore _ _ => true
  | .portFail _ _ => true
  | .pauseFrame _ _ _ => true
  | .pauseCut _ _ => true
  | .egressShed _ _ => true
  | .cmdSendCfg f => f.wf
  | .cmdSendHeader f => f.wf
  | .cmdDataOn f => f.wf
  | .cmdDataOff f => f.wf
  | .cmdOther f => f.wf
  | .ptpSync m => m.wf
  | .ptpAnnounce h a => h.wf && a.wf
  | .pdelayReq m => m.wf
  | .pdelayResp m => m.wf
  | .pdelayReqSend _ _ => true
  | .announceTimeout _ _ => true
  | .timeAgree _ => true
  | .domainRevert _ => true
  | .tbSelSwitch _ => true
  | .timeCommit _ => true
  | .timeCommitApply _ => true
  | .tbNowFreeze => true
  | .tbNowWordRead _ => true
  | .tbNowRelease => true
  | .ppsOutEdge _ => true
  | .ppsOutEnd _ => true
  | .ppsInEdge _ => true
  | .ppsInLost _ => true
  | .backupClockWrite _ => true
  | .leapPending _ => true
  | .leap _ => true
  | .leapOccurredEnd _ => true
  | .hostLeapClear _ => true
  | .fileLetter sid _ => decide (sid < 0x4008)
  | .roundInstant _ _ => true
  | .deadlineClose _ _ => true
  | .dispatch _ _ => true
  | .roundCommit _ _ => true
  | .groupUpdate _ _ => true
  | .defUpdate _ => true
  | .coherencyUpdate _ => true
  | .clustering _ => true
  | .separation _ => true
  | .machineStep _ _ => true
  | .gooseRetransmit _ _ => true
  | .almAck _ => true
  | .stdAlarmExpiry _ _ => true
  | .alarmPinMinw _ _ => true
  | .almOeNChange _ => true
  | .outputSample _ _ _ => true
  | .lookAheadSample _ bits lbits _ => bits.length == 6 && lbits.length == 3 && (bits ++ lbits).all fun b => b.length == 125
  | .inputFault _ _ => true
  | .inputFaultClear _ _ => true
  | .curveLookup _ => true
  | .calCommit _ => true
  | .calCommitApply _ => true
  | .localLetter _ _ => true
  | .svWaitTimeout _ _ => true
  | .svLost _ _ => true
  | .chainFilled _ _ => true
  | .quantumEnd _ _ => true
  | .intervalEnd _ _ => true
  | .nrgSnap _ => true
  | .nrgPreset _ _ => true
  | .urmsHalfValue _ _ _ => true
  | .capAck _ _ => true
  | .capArm _ => true
  | .capForce _ => true
  | .xtrgFireEdge _ => true
  | .xtrgFireRelease _ => true
  | .xtrgSyncEdge _ => true
  | .syncGo _ => true
  | .xtrgSyncRelease _ => true
  | .heartbeatSend _ => true
  | .heartbeatReceived _ _ _ => true
  | .pathSilent _ _ => true
  | .joinTimeout _ => true
  | .hello m => m.head.wf && m.msg.wf
  | .switchOffer k _ => k.head.wf && decide (k.msg < 2 ^ 64)
  | .switchAccept k _ => k.head.wf && decide (k.msg < 2 ^ 64)
  | .switchRefuse t => t.head.wf
  | .fwdOn sid => sid.head.wf && decide (sid.msg < 0x4008)
  | .fwdOff sid => sid.head.wf && decide (sid.msg < 0x4008)
  | .fwd l => l.head.wf && l.msg.wf
  | .plkDispatch d _ => d.head.wf && d.msg.wf
  | .fetch k rnd seq list _ => k.head.wf && (k.msg.what rnd seq list).wf
  | .copy c _ => c.head.wf && c.msg.wf
  | .rel r => r.head.wf && r.msg.wf
  | .digest isl unit _ crc => isl.head.wf && decide (unit < 256 ∧ crc < 2 ^ 32)
  | .catchup c => c.head.wf && decide (c.msg.group < 256)
  | .plkAck seqs _ => seqs.length == 2 && seqs.all fun x => decide (x < 2 ^ 32)
  | .rxmap sids => sids.head.wf && sids.msg.all fun x => decide (x < 0x4008)
  | .ackSend _ => true
  | .retransmit _ => true
  | .laneUp _ _ => true
  | .laneDown _ _ _ => true
  | .followLate _ _ => true
  | .revert _ => true
  | .autoSwitchover _ => true
  | .sramScrubPass _ lastWhere lastIndex _ => decide (lastWhere ≤ 64 ∧ lastIndex < 2 ^ 22)
  | .knownAnswerTest _ _ _ => true
  | .dramPatrolPass _ pct _ addr _ => decide (pct ≤ 100 ∧ addr < 2 ^ 35)
  | .mramReadCheck bad _ addr _ => decide (addr < 0x1000000) && bad.all fun x => decide (x < 512)
  | .dramUe _ addr _ _ => decide (addr < 2 ^ 35)
  | .mramUe addr _ => decide (addr < 0x1000000)
  | .keyExpiry _ _ => true
  | .reserveWriteDone _ => true
  | .counterTableWrite _ => true
  | .challengeExpiry _ => true
  | .chalReq _ => true
  | .submit _ => true
  | .svcAuthDone _ => true
  | .logRecordWrite _ _ => true
  | .repeatRewrite _ => true
  | .opsecSave _ => true
  | .bkdSecFreeze => true
  | .bkdSecWordRead => true
  | .bkdSecRelease => true
  | .bkdCommit _ => true
  | .bkdCommitApply _ => true
  | .bkdSecondTick _ => true
  | .alarmArm _ => true
  | .alarmDisarm _ => true
  | .tcWindow temp => decide (temp.toNat < 65536)
  | .trimWindow => true
  | .ponOff _ => true
  | .ponOffApply _ => true
  | .oscStop _ => true
  | .vbatLowChange _ => true
  | .counterLatchLow addr => decide (addr < 0x1000000)
  | .counterLatchHigh addr => decide (addr < 0x1000000)
  | .noticeClear _ _ => true
  | .noticeEnable _ _ => true
  | .msixUnmask _ => true
  | .maxDspClear _ _ => true
  | .maxLClear _ _ => true
  | .maxWaitClear _ _ => true
  | .clsHighClear _ _ => true
  | .tjPeakReset _ => true
  | .registerWrite addr _ _ => decide (addr < 0x1000000)
  | .tjSample sensors _ => sensors.length == 8 && sensors.all fun x => decide (x.toNat < 65536)
  | .supplyExcursion _ _ _ => true
  | .i2cGo _ => true
  | .i2cDone _ _ => true
  | .syncError _ => true
  | .pauseEnd _ _ => true
  | .fcsErrFrame _ _ => true
  | .snapDone _ => true
  | .backupDomainPowered _ => true
  | .pcieLinkUp => true
  | .busMasteringOn _ => true

end Sys2Proof
end

