-- ==== Sys2Proof/Tests/Slice0.lean ====
section
/-! SUPPORT. Tests: ill-formed commands are refused, words of the table decode, single steps give the spec's values, and the hypotheses of
each statement are met by a concrete state and operands. -/

open Sys2Proof Sys2Proof.Machine

set_option maxRecDepth 200000

/-- A powered block in the mode of a code. -/
def Tests.st (code : Nat) : State := ({ State.reset with powered := true } : State).wr Reg.GLB_MODE_CUR [] code

/-- A member of a pair in the mode of a code. -/
def Tests.pair (code : Nat) : State := (Tests.st code).wr Reg.PAIR_CFG_EN [] 1

/-- An item in service on sorter 0. -/
def Tests.item (flow cls : Nat) (w : Work) : Item := ⟨1, flow, cls, w, 0, false, 0, none, none, true, false, false, false, 0, none⟩

/-- A state with one item. -/
def Tests.withItem (s : State) (i : Item) : State := { s with sof := { s.sof with items := [i] } }

/-- A word with one field set. -/
def Tests.wd (f : Fld) (v : Nat) : Word := f.put 0#32 v

theorem Tests.pair_of {α : Type} {p : α × Bool} {b : Bool} (h : p.2 = b) : ∃ a, p = (a, b) := ⟨p.1, by rw [← h]⟩
/-! ### The hypotheses of the statements are met: the step, starts and faults -/

theorem witness_StepIdlesOnEmptyQueue :
    (State.reset.pending = [] ∧ State.reset.powered = false) ∧
    ((Tests.st 2).pending = [] ∧ (Tests.st 2).powered = true ∧ (Tests.st 2).onTick = true) ∧
    ((Tests.st 2).tick.powered = true ∧ (Tests.st 2).tick.onTick = true) := by decide

theorem witness_StepKeepsRegisterStore : State.reset.storeOk = true ∧ ∃ u, step State.reset = .next u := ⟨by decide, _, rfl⟩

theorem witness_StepKeepsLogbookBounds : State.reset.logOk = true ∧ ∃ u, step State.reset = .next u := ⟨by decide, _, rfl⟩

theorem witness_QueueAndOutputs : ∃ u, step { State.reset with pending := [.trimWindow, .bmeOff] } = .next u := ⟨_, rfl⟩

theorem witness_FrameOfEveryCommand : ∃ u, exec .trimWindow State.reset = .next u := ⟨_, rfl⟩

theorem witness_PowerChangesOnlyByStartOrCut :
    (State.reset.powered = false ∧ ∃ u, exec (.coldStart 0) State.reset = .next u) ∧
    ((Tests.st 2).powered = true ∧ ∃ u, exec (.porstNAssert 0) (Tests.st 2) = .next u ∧ u.powered = false) :=
  ⟨⟨rfl, _, rfl⟩, rfl, _, rfl, rfl⟩

theorem witness_RegisterFieldsReadBack :
    (Reg.STAB_STATE.lo ≤ Reg.STAB_STATE.hi ∧ Reg.STAB_STATE.hi < 32 ∧ idxOk Reg.STAB_STATE.dims [16383] = true) ∧
    (Reg.STAB_PINNED.lo ≤ Reg.STAB_PINNED.hi ∧ Reg.STAB_PINNED.hi < 32 ∧
      (Reg.STAB_PINNED.off [0] ≠ Reg.STAB_STATE.off [0] ∨ Reg.STAB_STATE.hi < Reg.STAB_PINNED.lo ∨
        Reg.STAB_PINNED.hi < Reg.STAB_STATE.lo)) ∧
    idxOk Reg.STAB_STATE.dims [16384] = false := by decide

theorem witness_PowerCutEntersBackup : (Tests.st 2).powered = true := by decide

/-- A start that waits for its retry at `r`. -/
def Tests.retry (r : Time) : State := { Tests.st 1 with strt := { (Tests.st 1).strt with retryAt := some r } }

theorem witness_ColdStartEntersLoading :
    State.reset.powered = false ∧
    ((Tests.retry 5).mode = .loading ∧ (Tests.retry 5).strt.retryAt = some 5 ∧ 5 ≤ max (Tests.retry 5).now 5) := by decide

def Tests.wdog : State := ((Tests.st 4).wr Reg.STRT_WDOG_STALL_EN [] 1).wr Reg.STRT_WDOG_HOST_EN [] 1

def Tests.warmWord : Word := Reg.STRT_CTL_KEY.put (Tests.wd Reg.STRT_CTL_WARM 1) 0x57A7

theorem witness_WarmStartEntersLoading :
    (1000 ≤ 1000 ∧ (Tests.st 2).mode ≠ .backup ∧ (Tests.st 2).mode ≠ .loading) ∧
    (Reg.STRT_CTL_WARM.get Tests.warmWord = 1 ∧ Reg.STRT_CTL_KEY.get Tests.warmWord = 0x57A7) ∧
    (Tests.wdog.processing = true ∧ Tests.wdog.flag Reg.STRT_WDOG_STALL_EN [] = true ∧
      Tests.wdog.strt.stall + clampN 10 10000 (Tests.wdog.rd Reg.STRT_WDOG_STALL_MS []) * msU ≤ max Tests.wdog.now (10000 * msU)) ∧
    (Tests.wdog.mode.steady = true ∧ Tests.wdog.flag Reg.STRT_WDOG_HOST_EN [] = true ∧
      Tests.wdog.strt.kick + clampN 100 60000 (Tests.wdog.rd Reg.STRT_WDOG_HOST_MS []) * msU ≤ max Tests.wdog.now (60000 * msU)) := by decide

/-- A start of the kind `kind` whose PHASE is 1 and which may be tried again. -/
def Tests.starting (kind : Nat) : State :=
  (((Tests.st 1).wr Reg.STRT_STAT_PHASE [] 1).wr Reg.STRT_FAIL_LOCKOUT [] 3).wr Reg.STRT_STAT_KIND [] kind

/-- A start whose PHASE is `p`. -/
def Tests.phase (p : Nat) : State := (Tests.st 1).wr Reg.STRT_STAT_PHASE [] p

theorem witness_StartKeysAndTimers :
    (Reg.STRT_CTL_WARM.get 0#32 ≠ 1 ∧ Reg.STRT_KICK_KEY.get 0#32 ≠ 0xC35A ∧
      (Tests.st 2).powered = true ∧ Reg.STRT_KICK_KEY.get (Tests.wd Reg.STRT_KICK_KEY 0xC35A) = 0xC35A) ∧
    ((Tests.starting 0).mode = .loading ∧ (Tests.starting 0).strt.retryAt = none ∧ (Tests.starting 0).strt.lockDue = false ∧
      (Tests.starting 0).rd Reg.STRT_FAIL_ATTEMPTS [] + 1 < (Tests.starting 0).rd Reg.STRT_FAIL_LOCKOUT [] ∧
      (Tests.starting 0).strt.began + (if (Tests.starting 0).warmStart then 200 else 1000) * msU ≤ max (Tests.starting 0).now (1000 * msU) ∧
      (Tests.starting 0).rd Reg.STRT_STAT_PHASE [] = 1 ∧ (Tests.starting 0).strt.began + 2 * msU ≤ max (Tests.starting 0).now (2 * msU)) ∧
    ((Tests.st 2).mode ≠ .loading ∧ (Tests.starting 2).warmStart = true ∧
      max (Tests.starting 2).now (200 * msU - 1) < (Tests.starting 2).strt.began + (if (Tests.starting 2).warmStart then 200 else 1000) * msU ∧
      max (Tests.starting 2).now (2 * msU - 1) < (Tests.starting 2).strt.began + 2 * msU) ∧
    (({ Tests.st 2 with strt := { (Tests.st 2).strt with stableSince := some 0, stableS := 1 } } : State).strt.stableSince = some 0 ∧
      0 + 1 * second ≤ max (Tests.st 2).now second) := by decide

theorem witness_StartStepsRun :
    (Tests.phase 1).mode = .loading ∧ (Tests.phase 1).strt.retryAt = none ∧ (Tests.phase 1).rd Reg.STRT_STAT_PHASE [] = 1 ∧
    ((Tests.phase 2).rd Reg.STRT_STAT_PHASE [] = 2 ∧ (Tests.phase 2).key.fuse ≠ 4) ∧ (Tests.phase 3).rd Reg.STRT_STAT_PHASE [] = 3 ∧
    (Tests.phase 4).rd Reg.STRT_STAT_PHASE [] = 4 ∧ (Tests.phase 5).rd Reg.STRT_STAT_PHASE [] = 5 ∧
    ((Tests.phase 6).rd Reg.STRT_STAT_PHASE [] = 6 ∧ (Tests.phase 6).strt.imageDone = false) ∧
    ((Tests.phase 7).rd Reg.STRT_STAT_PHASE [] = 7 ∧ (Tests.phase 7).strt.dramDone = false) ∧
    (Tests.phase 8).rd Reg.STRT_STAT_PHASE [] = 8 ∧ (Tests.phase 9).rd Reg.STRT_STAT_PHASE [] = 9 ∧
    (Tests.phase 10).rd Reg.STRT_STAT_PHASE [] = 10 := by decide

/-- An active unit with a partner ready to take over. -/
def Tests.withPartner (code : Nat) : State :=
  let s : State := (Tests.pair code).wr Reg.PAIR_STAT_PATH_A [] 1
  { s with pair := { s.pair with partner := some ⟨3, false, true, false, 0, 0, 40, false⟩ } }

/-- A state with a service authorisation in force. -/
def Tests.authorised (s : State) : State := s.wr Reg.STRT_SVC_AUTH_STAT [] 1

theorem witness_ModeRequests :
    (((Tests.st 2).wr Reg.GLB_MODE_REQ_STATUS [] 1).powered = true ∧
      ((Tests.st 2).wr Reg.GLB_MODE_REQ_STATUS [] 1).rd Reg.GLB_MODE_REQ_STATUS [] = 1) ∧
    ((Tests.st 2).rd Reg.GLB_MODE_REQ_STATUS [] ≠ 1 ∧ (Tests.st 2).judge 2 false false ≠ 0 ∧ (Tests.st 2).judge 7 false false ≠ 0) ∧
    ((Tests.st 3).judge 2 false false = 0 ∧ (Tests.st 3).needsHandover = false ∧ (Tests.st 4).judge 2 true false = 0) ∧
    ((Tests.withPartner 4).judge 3 false false = 0 ∧ (Tests.withPartner 4).partnerReady = true) ∧
    ((Tests.pair 4).judge 3 true false = 0 ∧ (Tests.pair 4).partnerReady = false) ∧
    (Tests.st 2).judge 4 false false = 0 ∧
    (((Tests.st 2).wr Reg.STRT_SVC_AUTH_STAT [] 1).judge 7 false false = 0 ∧ ((Tests.st 2).wr Reg.STRT_SVC_AUTH_STAT [] 1).mode ≠ .held ∧
      ((Tests.st 2).wr Reg.STRT_SVC_AUTH_STAT [] 1).needsHandover = false) ∧
    ((Tests.authorised (Tests.pair 6)).judge 7 false false = 0 ∧ (Tests.authorised (Tests.pair 6)).mode = .held) ∧
    ((Tests.authorised (Tests.withPartner 4)).needsHandover = true ∧ (Tests.authorised (Tests.withPartner 4)).judge 2 false false = 0 ∧
      (Tests.authorised (Tests.withPartner 4)).judge 7 false false = 0) ∧
    ((Tests.st 4).powered = true ∧ (Tests.st 4).mode ≠ .watch) := by decide

/-! Faults -/

theorem witness_SorterAndMemoryErrors :
    ((Tests.st 2).powered = true ∧ (Tests.st 2).mode ≠ .backup ∧ (Tests.st 2).processing = false ∧
      ((Tests.st 2).wr Reg.PWR_SRT_FENCE_FENCE [1] 0x80000000).fenced 63 = true) ∧
    ((Tests.st 4).processing = true ∧ (Tests.st 4).fenced 63 = false ∧ ((Tests.st 4).setWord 0x16000C 0#32).srtState 63 = 0) ∧
    ((Tests.st 2).flag Reg.MEM_CH_STAT_LOST [1] = false ∧ ((Tests.st 2).setFlag Reg.MEM_CH_STAT_LOST [1] true).flag Reg.MEM_CH_STAT_LOST [1] = true ∧
      (((Tests.st 2).setUeTimes 1 (List.replicate 14 0)).advance 0 |>.ueRecent 1).length < 15 ∧
      15 ≤ (((Tests.st 2).setUeTimes 1 (List.replicate 15 0)).advance 0 |>.ueRecent 1).length) ∧
    (0x3FFFFF < 0x400000 ∧ 0x400000 ≤ 0x400000 ∧ 0x5FFFFF < 0x600000 ∧ 0x600000 ≤ 0x600000 ∧ 0x7FFFFF < 0x800000 ∧ 0x800000 ≤ 0x800000 ∧
      0xBFFFFF < 0xC00000 ∧ 0xC02000 ≤ 0xC02000 ∧ 0xC7FFFF < 0xC80000 ∧ 0xC80000 ≤ 0xC80000 ∧ 0xCFFFFF < 0xD00000 ∧ 0xD00000 ≤ 0xD00000 ∧
      0xFFFFFF < 0x1000000) ∧ (1 ≠ 0 ∧ 99 < 100 ∧ 100 ≤ 100) := by decide
/-! ### Sorters, items, flows and the host interface -/

/-- Sorter 63 running in an active unit. -/
def Tests.run63 : State := (Tests.st 4).setWord 0x16000C 0#32

/-- Sorter 63 on its way out of Sleep since 0. -/
def Tests.waking : State := { Tests.run63 with sof := { Tests.run63.sof with srts := [(63, { srt0 with waking := some (0, 2, none) })] } }

def Tests.moving : State := { Tests.st 4 with sof := { (Tests.st 4).sof with moves := [⟨5, 7, true, true⟩] } }

/-- The islanding Round's instants have passed the first second, in the state of a code. -/
def Tests.clustDue (code : Nat) : State :=
  let s : State := (Tests.st 4).wr Reg.ISL_STAT_STATE [] code
  { s with isl := { s.isl with lastTk := second } }

def Tests.clustBusy : State := Tests.withItem (Tests.clustDue 1) (Tests.item 0x5002 3 .clustering)

theorem witness_SorterPowerAndHousekeeping :
    (Tests.run63.processing = true ∧ Tests.run63.srtState 63 = 0 ∧ (Tests.run63.srtHid 63).waking = none ∧ Tests.run63.emptyHoles 63 = true ∧
      1 ≤ Tests.run63.deepest ∧
      max 1 (Tests.run63.rd Reg.PWR_SRT_POLICY_NAP_IDLE []) * 8 * usU ≤
        (max Tests.run63.now second - (Tests.run63.srtHid 63).idle) * Tests.run63.sof.clk) ∧
    (((Tests.st 4).wr Reg.WHL_RND_CTL_EN [63] 1).processing = true ∧ ((Tests.st 4).wr Reg.WHL_RND_CTL_EN [63] 1).rndOn 63 = true ∧
      (((Tests.st 4).wr Reg.WHL_RND_CTL_EN [63] 1).advance (second - 1)).nextArrival 63 ≤
        max ((Tests.st 4).wr Reg.WHL_RND_CTL_EN [63] 1).now (second - 1) + ((Tests.st 4).wr Reg.WHL_RND_CTL_EN [63] 1).wakeLead ∧
      max ((Tests.st 4).wr Reg.WHL_RND_CTL_EN [63] 1).now 1 + ((Tests.st 4).wr Reg.WHL_RND_CTL_EN [63] 1).wakeLead <
        (((Tests.st 4).wr Reg.WHL_RND_CTL_EN [63] 1).advance 1).nextArrival 63) ∧
    ((Tests.waking.srtHid 63).waking = some (0, 2, none) ∧ max Tests.waking.now (wakeTime 2 - 1) < 0 + wakeTime 2 ∧
      0 + wakeTime 2 ≤ max Tests.waking.now (wakeTime 2)) ∧
    (((Tests.st 2).setWord 0x16000C 0#32).processing = false ∧ ((Tests.st 2).setWord 0x16000C 0#32).emptyHoles 63 = true ∧
      ((Tests.st 2).setWord 0x16000C 0#32).wakesFor 63 = false ∧ ((Tests.st 2).setWord 0x16000C 0#32).srtState 63 ≠ 3 ∧
        ((Tests.st 2).srtHid 63).idle + msU ≤ max (Tests.st 2).now msU) ∧
    ((Tests.st 4).processing = true ∧ (Tests.st 4).hkRoom = true ∧ Tests.run63.srtState 63 = 0 ∧
      ((Tests.st 4).setWord 0x16000C 0xC0000000#32).srtState 63 ≠ 0) ∧
    ((Tests.clustDue 2).processing = true ∧ (Tests.clustDue 2).rd Reg.ISL_STAT_STATE [] = 2 ∧
      (Tests.clustDue 2).isl.clustSec < secOf (Tests.clustDue 2).isl.lastTk ∧
      ((Tests.clustDue 2).sof.items.any fun i => i.flow == 0x5002) = false ∧ (Tests.clustDue 2).hkRoom = true ∧
      secOf (Tests.st 4).isl.lastTk ≤ (Tests.st 4).isl.clustSec) ∧
    (Tests.clustBusy.processing = true ∧ Tests.clustBusy.rd Reg.ISL_STAT_STATE [] = 1 ∧
      Tests.clustBusy.isl.clustSec < secOf Tests.clustBusy.isl.lastTk ∧
      (Tests.clustBusy.sof.items.any fun i => i.flow == 0x5002) = true ∧ Tests.clustBusy.hkRoom = true) ∧
    (Tests.moving.sof.moves.find? fun x => x.flow == 5 && x.copying) = some ⟨5, 7, true, true⟩ := by decide

/-- An item of class 2 that waits since its instant. -/
def Tests.stale : Item := { Tests.item 0x4800 2 (.group 0 0 0 [] [] 0) with serving := false, instant := some 0 }

/-- When that item's window is over. -/
def Tests.staleEnd : Time := ((Tests.withItem (Tests.st 4) Tests.stale).expiresAt Tests.stale).getD 0

theorem witness_ItemsEndAndCancel :
    ((Tests.withItem (Tests.st 4) (Tests.item 0x5C21 3 (.housekeep 1))).inService 0 = some (Tests.item 0x5C21 3 (.housekeep 1)) ∧
      (Tests.item 0x5C21 3 (.housekeep 1)).finished = true ∧
      (Tests.withItem (Tests.st 4) (Tests.item 0x5002 3 .clustering)).inService 0 = some (Tests.item 0x5002 3 .clustering) ∧
      (Tests.item 0x5002 3 .clustering).finished = false ∧ (Tests.item 0x5002 3 .clustering).ran = false ∧
      (Tests.item 0x5002 3 .clustering).since + (Tests.st 4).itemMax ≤ max (Tests.st 4).now (Tests.st 4).itemMax) ∧
    (((Tests.withItem (Tests.st 4) Tests.stale).sof.items.find? fun j => j.key == 1) = some Tests.stale ∧ Tests.stale.serving = false ∧
      Tests.stale.cls = 2 ∧ (Tests.withItem (Tests.st 4) Tests.stale).expiresAt Tests.stale = some Tests.staleEnd ∧
      max (Tests.st 4).now (Tests.staleEnd - 1) < Tests.staleEnd ∧ Tests.staleEnd ≤ max (Tests.st 4).now Tests.staleEnd) ∧
    ((Tests.st 4).takesWrite (Reg.SOF_CANCEL_GO.off []) ∧ (0#32).getLsbD 31 = false ∧ (0x80005FFF#32).getLsbD 31 = true ∧
      flowUsed (0x80005FFF#32 : Word).toNat = false ∧ isAlarmFlow ((0x80004C00#32 : Word).toNat % 65536) = true ∧
      flowUsed ((0x80004800#32 : Word).toNat % 65536) = true ∧ isAlarmFlow ((0x80004800#32 : Word).toNat % 65536) = false) := by
  unfold State.takesWrite; decide

/-- Processor ring 127 and letterbox ring 15 enabled. -/
def Tests.rings : State := (((Tests.st 4).wr Reg.PR_CFG_EN [127] 1).wr Reg.LB_CFG_EN [15] 1).wr Reg.HIF_STAT_BME [] 1

/-- Ring 127 moderated, with one descriptor unnotified since 0 and its vector unmasked. -/
def Tests.moderated : State :=
  let s := (Tests.rings.wr Reg.PR_CFG_NOTIFY [127] 2).wr Reg.MSIX_CTRL [0] 0
  { s with hif := { s.hif with msixEn := true, rings := [(127, { ring0 with unnot := 1, first := 0 })] } }

theorem witness_RingsAndDoorbells :
    (Tests.rings.ringsRun = true ∧ Tests.rings.flag Reg.PR_CFG_EN [127] = true ∧
      inRing (Tests.rings.rd Reg.PR_PROD [127]) 0 (2 ^ Tests.rings.prSlog 127) = true ∧
      inRing (Tests.rings.rd Reg.PR_PROD_B [127]) 0 (2 ^ Tests.rings.prDlog 127) = true ∧
      inRing (Tests.rings.rd Reg.PR_PROD [127]) 1 (2 ^ Tests.rings.prSlog 127) = false) ∧
    (Tests.rings.flag Reg.LB_CFG_EN [15] = true ∧
      inRing (2 ^ clampN 4 12 (Tests.rings.rd Reg.LB_CFG_SLOG2 [15])) (Tests.rings.rd Reg.LB_CONS [15])
        (2 ^ clampN 4 12 (Tests.rings.rd Reg.LB_CFG_SLOG2 [15])) = true ∧
      inRing 0xFFFFFFFF (Tests.rings.rd Reg.LB_CONS [15]) (2 ^ clampN 4 12 (Tests.rings.rd Reg.LB_CFG_SLOG2 [15])) = false) ∧
    ((Tests.st 4).flag Reg.PR_CFG_EN [0] = false ∧ (Tests.st 4).flag Reg.LB_CFG_EN [0] = false ∧ (Tests.st 4).powered = true) ∧
    (Tests.st 4).takesWrite (Reg.PR_CFG_EN.off [127]) ∧ (Tests.st 4).takesWrite (Reg.LB_CFG_EN.off [15]) ∧
    Reg.LB_CFG_EN.get (Tests.wd Reg.LB_CFG_EN 1) = 1 ∧
    (2 ≤ Tests.moderated.rd Reg.PR_CFG_NOTIFY [127] ∧ 0 < (sget Tests.moderated.hif.rings 127 ring0).unnot ∧
      (sget Tests.moderated.hif.rings 127 ring0).first + max 1 (Tests.moderated.rd Reg.PR_MOD_MOD_US [127]) * usU ≤ max Tests.moderated.now second ∧
      Tests.moderated.hif.msixEn = true ∧ Tests.moderated.flag Reg.HIF_STAT_BME [] = true ∧
      Tests.moderated.rd Reg.MSIX_CTRL [Tests.moderated.rd Reg.PR_CFG_VEC [127]] % 2 = 0) ∧
    ((Tests.rings.wr Reg.LB_PROD [15] 1).lbMayFetch 15 = true ∧ (List.replicate 64 (0#8 : Byte)).length = 64) := by
  unfold State.takesWrite; decide

theorem witness_PcieLink :
    (Tests.rings.powered = true ∧ Tests.rings.flag Reg.HIF_STAT_BME [] = true) ∧ (Tests.st 2).powered = true ∧
    ((Tests.st 2).wr Reg.HIF_STAT_LINK [] 1).flag Reg.HIF_STAT_LINK [] = true := by decide
/-! ### Letterbox commands -/

/-- The 64 bytes of a command with tag 7. -/
def Tests.cmd (target op addr len : Nat) (param : List Nat) : List Byte :=
  padTo 64 (leBytes 1 target ++ leBytes 1 op ++ leBytes 2 0 ++ leBytes 4 7 ++ leBytes 8 addr ++ leBytes 4 len ++ param.flatMap (leBytes 4))

/-- The item of a command on letterbox ring 15. -/
def Tests.lbItem (cmd : List Byte) : Item := Tests.item (lbFlow 15) 3 (.letterbox 15 cmd none)

/-- A state whose one item is that command. -/
def Tests.lb (s : State) (cmd : List Byte) : State := Tests.withItem s (Tests.lbItem cmd)

/-- The command stands ready in every state built so. -/
theorem Tests.lb_ready (s : State) {cmd : List Byte} {target op : Nat} (h : leAt cmd 0 1 = target ∧ leAt cmd 1 1 = op ∧ (cmdOf cmd).flags < 2) :
    (Tests.lb s cmd).lbReady 15 target op (cmdOf cmd) (Tests.lbItem cmd) cmd :=
  ⟨rfl, rfl, rfl, h.1, h.2.1, rfl, h.2.2⟩

def Tests.capRec : CapRec :=
  { seq := 9, flags := 0, ttype := 0, cause := 0, nch := 0, source := 0, trigT := 0, firstT := 0, rate := 0, nPre := 0, total := 0
    trigVal := 0, measure := 0, peak := 0, stats := [], retrig := 0, lost := 0, edge := none, body := [] }

/-- Capture unit 31 holds record 9. -/
def Tests.holds9 : State := (Tests.st 4).setCapUnit 31 { (Tests.st 4).capUnit 31 with held := [(Tests.capRec, false)] }

/-- The compression engine enabled, with a COMPRESS of one channel of 16-bit elements and a DECODE. -/
def Tests.cmpOn : State := (Tests.st 2).wr Reg.CMP_CTL_EN [] 1

def Tests.cmpOff : State := (Tests.st 2).wr Reg.CMP_CTL_EN [] 0

def Tests.compress : List Byte := Tests.cmd 0xF 1 0x1000 64 [0, 0, 0, 0x101]

def Tests.jobs (j : CmpJob) : State := { Tests.cmpOn with cmp := { Tests.cmpOn.cmp with jobs := [j] } }

/-- The engine with 16 commands queued. -/
def Tests.cmpFull : State := { Tests.cmpOn with cmp := { Tests.cmpOn.cmp with jobs := List.replicate 16 (.cmd 15 true [] [] false) } }

theorem witness_CompressionRefusals :
    (∃ c i cmd, (Tests.lb (Tests.st 2) cmd).lbReady 15 0xE 1 c i cmd ∧ 32 ≤ lbW c 0) ∧
    (∃ c i cmd, (Tests.lb Tests.cmpOn cmd).lbReady 15 0xF 2 c i cmd ∧ (Tests.lb Tests.cmpOn cmd).flag Reg.CMP_CTL_EN [] = true ∧ c.len = 0) ∧
    (∃ c i cmd, (Tests.lb Tests.cmpOff cmd).lbReady 15 0xF 2 c i cmd ∧ (Tests.lb Tests.cmpOff cmd).flag Reg.CMP_CTL_EN [] = false) ∧
    (∃ c i cmd, (Tests.lb Tests.cmpFull cmd).lbReady 15 0xF 2 c i cmd ∧ (Tests.lb Tests.cmpFull cmd).flag Reg.CMP_CTL_EN [] = true ∧ c.len ≠ 0 ∧
      16 ≤ (Tests.lb Tests.cmpFull cmd).cmpCmds) ∧
    (∃ c i cmd, (Tests.lb Tests.cmpOn cmd).lbReady 15 0xF 1 c i cmd ∧ lbW c 3 / 2 ^ 18 % 64 ≠ 0) ∧
    (∃ c i cmd, (Tests.lb Tests.cmpOn cmd).lbReady 15 0xF 1 c i cmd ∧ lbW c 3 / 2 ^ 25 ≠ 0) ∧
    (∃ c i cmd, (Tests.lb Tests.cmpOn cmd).lbReady 15 0xF 1 c i cmd ∧ lbW c 3 / 2 ^ 18 % 64 = 0 ∧ lbW c 3 / 2 ^ 25 = 0 ∧
      (Tests.lb Tests.cmpOn cmd).flag Reg.CMP_CTL_EN [] = true ∧ cmpBad c = true) ∧
    (∃ c i cmd, (Tests.lb Tests.cmpFull cmd).lbReady 15 0xF 1 c i cmd ∧ lbW c 3 / 2 ^ 18 % 64 = 0 ∧ lbW c 3 / 2 ^ 25 = 0 ∧
      (Tests.lb Tests.cmpFull cmd).flag Reg.CMP_CTL_EN [] = true ∧ cmpBad c = false ∧ 16 ≤ (Tests.lb Tests.cmpFull cmd).cmpCmds) ∧
    Tests.cmpOn.cmp.jobs = [] ∧ .cap 31 9 ∈ (Tests.jobs (.cap 31 9)).cmp.jobs :=
  ⟨⟨_, _, Tests.cmd 0xE 1 0 0 [32, 9], Tests.lb_ready _ (by decide), by decide⟩,
    ⟨_, _, Tests.cmd 0xF 2 0 0 [], Tests.lb_ready _ (by decide), by decide, by decide⟩,
    ⟨_, _, Tests.cmd 0xF 2 0 64 [], Tests.lb_ready _ (by decide), by decide⟩,
    ⟨_, _, Tests.cmd 0xF 2 0 64 [], Tests.lb_ready _ (by decide), by decide, by decide, by decide⟩,
    ⟨_, _, Tests.cmd 0xF 1 0 64 [0, 0, 0, 0x40101], Tests.lb_ready _ (by decide), by decide⟩,
    ⟨_, _, Tests.cmd 0xF 1 0 64 [0, 0, 0, 0x80000101], Tests.lb_ready _ (by decide), by decide⟩,
    ⟨_, _, Tests.cmd 0xF 1 0 64 [0, 0, 0, 0x4103], Tests.lb_ready _ (by decide), by decide, by decide, by decide, by decide⟩,
    ⟨_, _, Tests.compress, Tests.lb_ready _ (by decide), by decide, by decide, by decide, by decide, by decide⟩, by decide, by decide⟩

theorem witness_NopCaptureAndCompressionCommands :
    (∃ c i cmd, (Tests.lb (Tests.st 2) cmd).lbReady 15 0x16 0 c i cmd) ∧
    (∃ c i cmd, (Tests.lb (Tests.st 2) cmd).nextRun (lbFlow 15) (fun w => match w with | .letterbox _ _ none => true | _ => false) = some i ∧
      i.work = .letterbox 15 cmd none ∧ i.serving = true ∧ leAt cmd 0 1 = 0x16 ∧ leAt cmd 1 1 = 0 ∧ cmdOf cmd = c ∧ 2 ≤ c.flags) ∧
    (∃ c i cmd, (Tests.lb Tests.holds9 cmd).lbReady 15 0xE 1 c i cmd ∧ lbW c 0 < 32 ∧
      (((Tests.lb Tests.holds9 cmd).capUnit (lbW c 0)).held.find? fun h => h.1.seq == lbW c 1) = some (Tests.capRec, false)) ∧
    (∃ c i cmd, (Tests.lb Tests.holds9 cmd).lbReady 15 0xE 1 c i cmd ∧ lbW c 0 < 32 ∧
      (((Tests.lb Tests.holds9 cmd).capUnit (lbW c 0)).held.find? fun h => h.1.seq == lbW c 1) = none) ∧
    (∃ c i cmd, (Tests.lb Tests.cmpOff cmd).flag Reg.CMP_CTL_EN [] = false ∧ (Tests.lb Tests.cmpOff cmd).lbReady 15 0xF 1 c i cmd ∧
      lbW c 3 / 2 ^ 18 % 64 = 0 ∧ lbW c 3 / 2 ^ 25 = 0) ∧
    (∃ c i cmd, (Tests.lb Tests.cmpOn cmd).flag Reg.CMP_CTL_EN [] = true ∧ (Tests.lb Tests.cmpOn cmd).cmpCmds < 16 ∧
      (Tests.lb Tests.cmpOn cmd).lbReady 15 0xF 1 c i cmd ∧ cmpBad c = false ∧ lbW c 3 / 2 ^ 18 % 64 = 0 ∧ lbW c 3 / 2 ^ 25 = 0) ∧
    (∃ c i cmd, (Tests.lb Tests.cmpOn cmd).lbReady 15 0xF 2 c i cmd ∧ c.len ≠ 0) ∧
    cmpFront (Tests.jobs (.cap 31 9)).cmp.jobs = some (.cap 31 9) ∧
    cmpFront (Tests.jobs (.cmd 15 true [] [] false)).cmp.jobs = some (.cmd 15 true [] [] false) :=
  ⟨⟨_, _, Tests.cmd 0x16 0 0 0 [], Tests.lb_ready _ (by decide)⟩,
    ⟨cmdOf ([0x16, 0, 2, 0] ++ List.replicate 60 0),
      Tests.lbItem ([0x16, 0, 2, 0] ++ List.replicate 60 0), [0x16, 0, 2, 0] ++ List.replicate 60 0, rfl, rfl, rfl, by decide, by decide, rfl,
        by decide⟩,
    ⟨_, _, Tests.cmd 0xE 1 0 0 [31, 9], Tests.lb_ready _ (by decide), by decide, by decide⟩,
    ⟨_, _, Tests.cmd 0xE 1 0 0 [31, 8], Tests.lb_ready _ (by decide), by decide, by decide⟩,
    ⟨_, _, Tests.compress, by decide, Tests.lb_ready _ (by decide), by decide, by decide⟩,
    ⟨_, _, Tests.compress, by decide, by decide, Tests.lb_ready _ (by decide), by decide, by decide, by decide⟩,
    ⟨_, _, Tests.cmd 0xF 2 0 64 [], Tests.lb_ready _ (by decide), by decide⟩, by decide, by decide⟩

/-- The journal still holds a command of its owner that was cut off. -/
def Tests.cutOff (r : JRec) (s : State) : State := { s with nvs := { s.nvs with jrn := [r] } }

theorem witness_StrongroomCommands :
    (∀ op, op = 1 ∨ op = 2 → ∃ c i cmd, (Tests.lb (Tests.cutOff (.key 1 true 255 3 4 cat0) (Tests.st 2)) cmd).keyModeA (lbSlot c) = true ∧
      (Tests.lb (Tests.cutOff (.key 1 true 255 3 4 cat0) (Tests.st 2)) cmd).journalBusy 2 = true ∧
      (Tests.lb (Tests.cutOff (.key 1 true 255 3 4 cat0) (Tests.st 2)) cmd).lbReady 15 0x11 op c i cmd) ∧
    (∀ cmd, (Tests.lb (Tests.st 2) cmd).journalBusy 2 = false ∧ (Tests.lb (Tests.st 7) cmd).journalBusy 2 = false) ∧
    (∃ c i cmd, (Tests.lb (Tests.st 2) cmd).keyModeA (lbSlot c) = true ∧ (Tests.lb (Tests.st 2) cmd).lbReady 15 0x11 1 c i cmd ∧
      (keyAttr c).ktype ≠ 6) ∧
    (∃ c i cmd, (Tests.lb (Tests.st 7) cmd).keyModeA (lbSlot c) = true ∧ (Tests.lb (Tests.st 7) cmd).lbReady 15 0x11 1 c i cmd ∧
      (keyAttr c).ktype = 6) ∧
    (∀ op, op = 2 ∨ op = 3 ∨ op = 4 →
      (∃ c i cmd, (Tests.lb (Tests.st 2) cmd).keyModeA (lbSlot c) = true ∧ (Tests.lb (Tests.st 2) cmd).lbReady 15 0x11 op c i cmd) ∧
      ∃ c i cmd, (Tests.lb (Tests.st 2) cmd).keyModeA (lbSlot c) = false ∧ (Tests.lb (Tests.st 2) cmd).lbReady 15 0x11 op c i cmd) ∧
    ∃ c i cmd, (Tests.lb (Tests.st 6) cmd).keyModeA (lbSlot c) = false ∧ (Tests.lb (Tests.st 6) cmd).lbReady 15 0x11 1 c i cmd :=
  ⟨fun op h => by
      rcases h with rfl | rfl
      · exact ⟨_, _, Tests.cmd 0x11 1 0 32 [0x100FF], by decide, by decide, Tests.lb_ready _ (by decide)⟩
      · exact ⟨_, _, Tests.cmd 0x11 2 0 0 [0xFF], by decide, by decide, Tests.lb_ready _ (by decide)⟩,
    fun _ => ⟨rfl, rfl⟩, ⟨_, _, Tests.cmd 0x11 1 0 32 [0x10003], by decide, Tests.lb_ready _ (by decide), by decide⟩,
    ⟨_, _, Tests.cmd 0x11 1 0 32 [0x60002], by decide, Tests.lb_ready _ (by decide), by decide⟩,
    fun op h => by
      rcases h with rfl | rfl | rfl
      · exact ⟨⟨_, _, Tests.cmd 0x11 2 0 0 [0xFF], by decide, Tests.lb_ready _ (by decide)⟩, _, _, Tests.cmd 0x11 2 0 0 [2], by decide,
        Tests.lb_ready _ (by decide)⟩
      · exact ⟨⟨_, _, Tests.cmd 0x11 3 0 0 [0xFF], by decide, Tests.lb_ready _ (by decide)⟩, _, _, Tests.cmd 0x11 3 0 0 [2], by decide,
        Tests.lb_ready _ (by decide)⟩
      · exact ⟨⟨_, _, Tests.cmd 0x11 4 0 0 [0xFF], by decide, Tests.lb_ready _ (by decide)⟩, _, _, Tests.cmd 0x11 4 0 0 [2], by decide,
        Tests.lb_ready _ (by decide)⟩,
    _, _, Tests.cmd 0x11 1 0 0 [3], by decide, Tests.lb_ready _ (by decide)⟩

/-- Slot 255 live, with a live child in slot 254. -/
def Tests.parent : State :=
  { Tests.st 2 with key := { (Tests.st 2).key with cat := [(254, { cat0 with state := 1, parent := some 255 }), (255, { cat0 with state := 1 })] } }

theorem witness_StrongroomChildrenAndDeletes :
    (∃ c i cmd a, (Tests.lb (Tests.st 2) cmd).lbReady 15 0x11 1 c i cmd ∧ (keyAttr c).ktype ≠ 6 ∧
      a = (Tests.lb (Tests.st 2) cmd).expireNow ((keyAttr c).parent.getD 0) ∧ a.childCode (lbSlot c) (keyAttr c) 3 ≠ 0) ∧
    (∃ c i cmd a, (Tests.lb (Tests.st 2) cmd).lbReady 15 0x11 2 c i cmd ∧ a = (Tests.lb (Tests.st 2) cmd).expireNow ((keyAttr c).parent.getD 0) ∧
      a.childCode (lbSlot c) (keyAttr c) 2 ≠ 0) ∧
    (∃ c i cmd, (Tests.lb (Tests.st 7) cmd).keyModeA (lbSlot c) = true ∧ (Tests.lb (Tests.st 7) cmd).lbReady 15 0x11 4 c i cmd ∧ lbSlot c = 0) ∧
    (∃ c i cmd, (Tests.lb Tests.parent cmd).keyModeA (lbSlot c) = true ∧ (Tests.lb Tests.parent cmd).lbReady 15 0x11 4 c i cmd ∧ lbSlot c ≠ 0 ∧
      ((Tests.lb Tests.parent cmd).cat (lbSlot c)).state = 1 ∧ 1 < ((Tests.lb Tests.parent cmd).family (lbSlot c)).length) ∧
    (∃ c i cmd, (Tests.lb Tests.parent cmd).lbReady 15 0x11 4 c i cmd ∧ lbSlot c ≠ 0 ∧
      ((Tests.lb Tests.parent cmd).family (lbSlot c)).length ≤ 1) ∧
    255 ∈ Tests.parent.family 255 :=
  ⟨⟨_, _, Tests.cmd 0x11 1 0 32 [0xFF], _, Tests.lb_ready _ (by decide), by decide, rfl, by decide⟩,
    ⟨_, _, Tests.cmd 0x11 2 0 32 [0xFF], _, Tests.lb_ready _ (by decide), rfl, by decide⟩,
    ⟨_, _, Tests.cmd 0x11 4 0 0 [0], by decide, Tests.lb_ready _ (by decide), by decide⟩,
    ⟨_, _, Tests.cmd 0x11 4 0 0 [0xFF], by decide, Tests.lb_ready _ (by decide), by decide, by decide, by decide⟩,
    ⟨_, _, Tests.cmd 0x11 4 0 0 [0xFE], Tests.lb_ready _ (by decide), by decide, by decide⟩, by decide⟩

/-- Slot 0 holds a key that may sign Seal statements. -/
def Tests.slot0 : State :=
  { Tests.st 2 with key := { (Tests.st 2).key with cat := [(0, { cat0 with state := 1, use := 16 })], cache := [(0, ⟨1, [1], []⟩)] } }

/-- SERVICE with a life-cycle state and its fuse. -/
def Tests.life (lc : Nat) : State :=
  let s : State := (Tests.st 7).wr Reg.KEY_LC_STATE [] lc
  { s with key := { s.key with fuse := lc } }

/-- A buffer of zeros. -/
def Tests.buf (n : Nat) : HostBuf := ⟨List.replicate n 0, false, [], none⟩

theorem witness_SealAndLifeCycleCommands :
    (∃ c i cmd a d, (Tests.lb Tests.slot0 cmd).keyModeB = true ∧ (Tests.lb Tests.slot0 cmd).lbReady 15 0x11 5 c i cmd ∧ (Tests.buf 0).err = false ∧
      416 ≤ c.len ∧ (Tests.lb Tests.slot0 cmd).useSlot 0 4 = (a, some d)) ∧
    (∃ c i cmd, (Tests.lb (Tests.st 2) cmd).lbReady 15 0x11 5 c i cmd ∧ c.len < 416) ∧
    (∃ c i cmd, (Tests.lb (Tests.st 2) cmd).lbReady 15 0x11 6 c i cmd) ∧
    (∃ c i cmd, (Tests.lb (Tests.st 2) cmd).lbReady 15 0x11 7 c i cmd ∧ 32 ≤ c.len) ∧
    (∀ op, op = 8 ∨ op = 9 ∨ op = 10 → (Tests.st 2).mode ≠ .service ∧ ∃ c i cmd, (Tests.lb (Tests.st 2) cmd).lbReady 15 0x11 op c i cmd) ∧
    (∃ c i cmd, (Tests.lb (Tests.life 1) cmd).mode = .service ∧ (Tests.lb (Tests.life 1) cmd).lbReady 15 0x11 8 c i cmd ∧
      (Tests.life 1).rd Reg.KEY_LC_STATE [] = 1 ∧ (Tests.life 1).key.fuse = 1 ∧ (Tests.buf 224).cut = none ∧
        ((Tests.buf 224).data.take c.len).length = 224) ∧
    (∃ c i cmd, (Tests.lb (Tests.life 2) cmd).mode = .service ∧ (Tests.lb (Tests.life 2) cmd).lbReady 15 0x11 9 c i cmd ∧
      (Tests.life 2).rd Reg.KEY_LC_STATE [] = 2 ∧ (Tests.life 2).key.fuse = 2 ∧ (Tests.buf 96).cut = none ∧
        ((Tests.buf 96).data.take c.len).length = 96) ∧
    (∃ c i cmd, (Tests.lb (Tests.life 3) cmd).mode = .service ∧ (Tests.lb (Tests.life 3) cmd).lbReady 15 0x11 10 c i cmd ∧
      (Tests.life 3).rd Reg.KEY_LC_STATE [] = 3 ∧ (Tests.life 3).key.fuse ≠ 4 ∧ (Tests.buf 96).cut = none ∧
        ((Tests.buf 96).data.take c.len).length = 96) :=
  ⟨⟨_, _, Tests.cmd 0x11 5 0x1000 416 [], ((Tests.lb Tests.slot0 (Tests.cmd 0x11 5 0x1000 416 [])).useSlot 0 4).1, [1],
      by decide, Tests.lb_ready _ (by decide), rfl, by decide, rfl⟩,
    ⟨_, _, Tests.cmd 0x11 5 0 415 [], Tests.lb_ready _ (by decide), by decide⟩,
    ⟨_, _, Tests.cmd 0x11 6 0 0 [], Tests.lb_ready _ (by decide)⟩,
    ⟨_, _, Tests.cmd 0x11 7 0 32 [], Tests.lb_ready _ (by decide), by decide⟩,
    fun op h => ⟨by decide, by
      rcases h with rfl | rfl | rfl
      · exact ⟨_, _, Tests.cmd 0x11 8 0 0 [], Tests.lb_ready _ (by decide)⟩
      · exact ⟨_, _, Tests.cmd 0x11 9 0 0 [], Tests.lb_ready _ (by decide)⟩
      · exact ⟨_, _, Tests.cmd 0x11 10 0 0 [], Tests.lb_ready _ (by decide)⟩⟩,
    ⟨_, _, Tests.cmd 0x11 8 0 224 [], by decide, Tests.lb_ready _ (by decide), by decide, by decide, rfl, by decide⟩,
    ⟨_, _, Tests.cmd 0x11 9 0 96 [], by decide, Tests.lb_ready _ (by decide), by decide, by decide, rfl, by decide⟩,
    _, _, Tests.cmd 0x11 10 0 96 [], by decide, Tests.lb_ready _ (by decide), by decide, by decide, rfl, by decide⟩

/-- The shortest settings image: no entry. -/
def Tests.img : List Byte :=
  let h : List Byte := padTo 0x40 ([0x47, 0x53, 0x45, 0x54] ++ leBytes 2 1 ++ leBytes 2 0 ++ leBytes 4 0x44 ++ leBytes 4 0 ++ leBytes 4 5)
  h ++ leBytes 4 (crc32c h)

/-- SERVICE with bank 0 selected and that image in both banks. -/
def Tests.banks : State :=
  { Tests.st 7 with nvs := { (Tests.st 7).nvs with sel := some (0, 5), bankA := Tests.img, bankB := Tests.img } }

/-- SERVICE with three records in the Logbook. -/
def Tests.ev (n : Nat) : LogEv := ⟨0, n, 0, 0, 0, 0, 0, 0, 0, 0, 0, 0⟩
def Tests.records : State :=
  { Tests.st 7 with log := { (Tests.st 7).log with recs := [⟨1, 0, 0, Tests.ev 1, true, true⟩, ⟨2, 0, 0, Tests.ev 2, true, true⟩] } }

theorem witness_SettingsAndLogbookCommands :
    (∀ op, op = 1 ∨ op = 3 ∨ op = 4 → (Tests.st 2).mode ≠ .service ∧ ∃ c i cmd, (Tests.lb (Tests.st 2) cmd).lbReady 15 0x12 op c i cmd) ∧
    (∃ c i cmd, (Tests.lb Tests.banks cmd).mode = .service ∧ (Tests.lb Tests.banks cmd).lbReady 15 0x12 1 c i cmd ∧
      (Tests.lb Tests.banks cmd).journalBusy 1 = false ∧ (Tests.buf 0).cut = none ∧ (Tests.lb Tests.banks cmd).nvs.sel = some (0, 5) ∧
        imgOk (Tests.img.take c.len) = true ∧ ([] : List Nat).contains (1 - 0) = false) ∧
    (∃ c i cmd, (Tests.lb Tests.banks cmd).lbReady 15 0x12 3 c i cmd ∧ imgCrcOk ((Tests.lb Tests.banks cmd).bank (1 - 0)) = true) ∧
    (∃ c i cmd, (Tests.lb Tests.banks cmd).lbReady 15 0x12 4 c i cmd) ∧
    (∃ c i cmd, (Tests.lb Tests.banks cmd).lbReady 15 0x12 2 c i cmd ∧
      (((Tests.lb Tests.banks cmd).bank 0).take (min ((Tests.lb Tests.banks cmd).bank 0).length (imgLen ((Tests.lb Tests.banks cmd).bank 0)))).length ≤ c.len) ∧
    (∃ c i cmd, (Tests.lb Tests.records cmd).lbReady 15 0x13 2 c i cmd ∧ (Tests.lb Tests.records cmd).mode = .service) ∧
    (∃ c i cmd, (Tests.lb (Tests.st 2) cmd).lbReady 15 0x13 2 c i cmd ∧ (Tests.lb (Tests.st 2) cmd).mode ≠ .service) ∧
    (∃ c i cmd, (Tests.lb Tests.records cmd).lbReady 15 0x13 1 c i cmd ∧
      ((Tests.lb Tests.records cmd).readRecs (((Tests.lb Tests.records cmd).recRun (lbW c 0) (lbW c 1)).take (c.len / 64))).2 ≠ []) :=
  ⟨fun op h => ⟨by decide, by
      rcases h with rfl | rfl | rfl
      · exact ⟨_, _, Tests.cmd 0x12 1 0 0 [], Tests.lb_ready _ (by decide)⟩
      · exact ⟨_, _, Tests.cmd 0x12 3 0 0 [], Tests.lb_ready _ (by decide)⟩
      · exact ⟨_, _, Tests.cmd 0x12 4 0 0 [], Tests.lb_ready _ (by decide)⟩⟩,
    ⟨_, _, Tests.cmd 0x12 1 0 68 [], by decide, Tests.lb_ready _ (by decide), rfl, rfl, by decide, by decide, by decide⟩,
    ⟨_, _, Tests.cmd 0x12 3 0 0 [], Tests.lb_ready _ (by decide), by decide⟩,
    ⟨_, _, Tests.cmd 0x12 4 0 0 [], Tests.lb_ready _ (by decide)⟩,
    ⟨_, _, Tests.cmd 0x12 2 0 68 [], Tests.lb_ready _ (by decide), by decide⟩,
    ⟨_, _, Tests.cmd 0x13 2 0 0 [], Tests.lb_ready _ (by decide), by decide⟩,
    ⟨_, _, Tests.cmd 0x13 2 0 0 [], Tests.lb_ready _ (by decide), by decide⟩,
    _, _, Tests.cmd 0x13 1 0 64 [1, 2], Tests.lb_ready _ (by decide), by decide⟩

/-- SERVICE with an erasure under way. -/
def Tests.erasing : State := { Tests.st 7 with nvs := { (Tests.st 7).nvs with fop := some ⟨15, [], true, 0, 4096, []⟩ } }

theorem witness_FlashCommands :
    (∀ op, op = 1 ∨ op = 2 ∨ op = 3 ∨ op = 4 → (Tests.st 2).mode ≠ .service ∧ Tests.erasing.mode = .service ∧ Tests.erasing.nvs.fop.isSome = true ∧
      (∃ c i cmd, (Tests.lb (Tests.st 2) cmd).lbReady 15 1 op c i cmd) ∧ ∃ c i cmd, (Tests.lb Tests.erasing cmd).lbReady 15 1 op c i cmd) ∧
    ((Tests.st 7).mode = .service ∧ (Tests.st 7).nvs.fop = none) ∧
    (∃ c i cmd, (Tests.lb (Tests.st 7) cmd).lbReady 15 1 1 c i cmd ∧ lbW c 0 + c.len ≤ flashSize) ∧
    (∃ c i cmd, (Tests.lb (Tests.st 7) cmd).lbReady 15 1 2 c i cmd ∧ lbW c 0 % 4096 = 0 ∧ lbW c 1 % 4096 = 0 ∧ lbW c 0 + lbW c 1 ≤ flashSize ∧
      (Tests.lb (Tests.st 7) cmd).protectedRange (lbW c 0) (lbW c 1) = false) ∧
    (∃ c i cmd, (Tests.lb (Tests.st 7) cmd).lbReady 15 1 3 c i cmd ∧ lbW c 0 % 256 = 0 ∧ c.len % 256 = 0 ∧ lbW c 0 + c.len ≤ flashSize ∧
      (Tests.lb (Tests.st 7) cmd).protectedRange (lbW c 0) c.len = false) ∧
    (∃ c i cmd, (Tests.lb (Tests.st 7) cmd).lbReady 15 1 4 c i cmd) ∧
    Tests.erasing.nvs.fop = some ⟨15, [], true, 0, 4096, []⟩ ∧
    ({ Tests.st 7 with nvs := { (Tests.st 7).nvs with fop := some ⟨15, [], false, 0, 1, [0]⟩ } } : State).nvs.fop = some ⟨15, [], false, 0, 1, [0]⟩ :=
  ⟨fun op h => ⟨by decide, by decide, by decide, by
      rcases h with rfl | rfl | rfl | rfl
      · exact ⟨⟨_, _, Tests.cmd 1 1 0 0 [], Tests.lb_ready _ (by decide)⟩, _, _, Tests.cmd 1 1 0 0 [], Tests.lb_ready _ (by decide)⟩
      · exact ⟨⟨_, _, Tests.cmd 1 2 0 0 [], Tests.lb_ready _ (by decide)⟩, _, _, Tests.cmd 1 2 0 0 [], Tests.lb_ready _ (by decide)⟩
      · exact ⟨⟨_, _, Tests.cmd 1 3 0 0 [], Tests.lb_ready _ (by decide)⟩, _, _, Tests.cmd 1 3 0 0 [], Tests.lb_ready _ (by decide)⟩
      · exact ⟨⟨_, _, Tests.cmd 1 4 0 0 [], Tests.lb_ready _ (by decide)⟩, _, _, Tests.cmd 1 4 0 0 [], Tests.lb_ready _ (by decide)⟩⟩,
    by decide,
    ⟨_, _, Tests.cmd 1 1 0 4 [0x7FFFFC], Tests.lb_ready _ (by decide), by decide⟩,
    ⟨_, _, Tests.cmd 1 2 0 0 [0x7FF000, 4096], Tests.lb_ready _ (by decide), by decide, by decide, by decide, by decide⟩,
    ⟨_, _, Tests.cmd 1 3 0 256 [0x7FFF00], Tests.lb_ready _ (by decide), by decide, by decide, by decide, by decide⟩,
    ⟨_, _, Tests.cmd 1 4 0 0 [], Tests.lb_ready _ (by decide)⟩, by decide, by decide⟩
/-! ### Network, admission and ports -/

/-- Port 3 enabled in an active unit whose Round 0 sends IDCODE 7 there. -/
def Tests.net : State := (((Tests.st 4).wr Reg.NET_PORT_CFG_EN [3] 1).wr Reg.WHL_RND_OUT_IDCODE [0] 7).wr Reg.WHL_RND_OUT_PORTS [0] 8

/-- A command frame for IDCODE 7 with its check word. -/
def Tests.c37 : List Byte :=
  let h : List Byte := [0xAA, 0x41, 0, 18, 0, 7, 0, 0, 0, 0, 0, 0, 0, 0, 0, 5]
  h ++ beBytes 2 (crcCcitt h)

def Tests.frame (payload : List Byte) : RxFrame :=
  { port := 3, raw := 10, bofs := 0, len := 100, vlan := none, mac := 1, prpSeq := none, v6 := false, src := 9, sport := 4712, dst := 5
    dport := Tests.net.rd Reg.NET_UDP_C37 [], conn := none, payload := payload }

/-- The same port with the address 5. -/
def Tests.here : State := Tests.net.wr Reg.NET_PORT_IP4_ADDR [3] 5

theorem witness_FramesAndRequestsReceived :
    (Tests.net.flag Reg.NET_PORT_CFG_EN [(Tests.frame []).port] = true ∧ (Tests.st 4).flag Reg.NET_PORT_CFG_EN [(Tests.frame []).port] = false) ∧
    (∃ a, Tests.net.rxFront (Tests.frame []).toRxHead = (a, true)) ∧
    (∃ a, Tests.net.rxFront { Tests.frame [] with len := 9217 }.toRxHead = (a, false)) ∧
    (∃ a, Tests.here.rxFront (Tests.frame []).toRxHead = (a, true) ∧ a.ownAddr 3 5 false = true ∧ a.ownAddr 3 6 false = false ∧
      (if (a.port 3).echoSec = secOf a.now then (a.port 3).echoCnt else 0) < 100) ∧
    ((List.replicate 1500 (0#8 : Byte)).length ≤ 1500 ∧ 1500 < (List.replicate 1501 (0#8 : Byte)).length) :=
  ⟨by decide, Tests.pair_of (by decide), Tests.pair_of (by decide),
    ⟨(Tests.here.rxFront (Tests.frame []).toRxHead).1, rfl, by decide, by decide, by decide⟩, by simp⟩

/-- Port 3 has answered 100 echo requests in the second 0. -/
def Tests.echoed : State := { Tests.here with net := { Tests.here.net with ports := [(3, { port0 with echoSec := 0, echoCnt := 100 })] } }

theorem witness_EchoLimit : ∃ a, Tests.echoed.rxFront (Tests.frame []).toRxHead = (a, true) ∧ (a.port 3).echoSec = secOf a.now ∧
    100 ≤ (a.port 3).echoCnt := ⟨(Tests.echoed.rxFront (Tests.frame []).toRxHead).1, rfl, by decide, by decide⟩

/-- Fragments, a connection that waits, and a sender without a descriptor. -/
def Tests.frag : FragCtx := ⟨false, 9, 5, 1, none, [(0, [1])], 3, none, 0⟩
def Tests.connA : Conn := ⟨1, 9, false, 4712, 3, false, 1, true, [], 0⟩
def Tests.sender (st : SenderSt) (entry : Option Nat) : Sender :=
  { key := 1, kind := 0, conn := none, vlan := 0, src := 9, v6 := false, ident := 7, sport := 4712, port := 3, st := st, sids := [], reqFrank := false
    idleRi := 0, entry := entry, since := 0, reqN := 0, reqLast := none, firstDead := some 0, refLog := none, frankLog := none, keyId := none
    badRate := false, parts := none }
def Tests.withNet : State := { Tests.net with net := { Tests.net.net with frags := [Tests.frag], conns := [Tests.connA] } }
def Tests.withSender (e : Sender) : State := { Tests.net with adm := { Tests.net.adm with senders := [e] } }

/-- SID 16383 pinned to that connection's sender, its descriptor valid. -/
def Tests.described (s : State) : State :=
  let s := ((((s.wr Reg.STAB_PINNED [16383] 1).wr Reg.STAB_TCP [16383] 1).wr Reg.STAB_SRC [16383, 0] 9).wr Reg.STAB_SRC_PORT [16383] 4712).wr
    Reg.DESC_VALID [16383] 1
  s.wr Reg.DESC_CHECK [16383] (descCheck (s.desc 16383))

theorem witness_ConnectionTimers :
    ((Tests.withNet.net.frags.find? fun c => c.isFor ⟨false, 9, 5, 1, 0, true⟩) = some Tests.frag ∧
      Tests.frag.start + 5 * msU ≤ max Tests.withNet.now (5 * msU)) ∧
    (Tests.withNet.connDesc Tests.connA = false ∧
      ((Tests.described Tests.withNet).connDesc Tests.connA = true ∧ (Tests.described Tests.withNet).conn 1 = some Tests.connA)) ∧
    (Tests.withNet.conn 1 = some Tests.connA ∧ Tests.connA.waiting = true ∧ Tests.connA.retryAt ≤ max Tests.withNet.now second) ∧
    ((Tests.withSender (Tests.sender .admitted none)).senderByKey 1 = some (Tests.sender .admitted none) ∧
      (Tests.sender .admitted none).letIn = true ∧
      (Tests.withSender (Tests.sender .admitted none)).lacksDesc (Tests.sender .admitted none) = true ∧
      (Tests.sender .admitted none).requestAt = some (2 * second) ∧ 2 * second ≤ max Tests.net.now (2 * second)) := by decide

theorem witness_AdmissionDecisions :
    ((((Tests.withSender (Tests.sender .pending (some 63))).adm.senders.find? fun e => e.entry == some 63 && e.st == .pending) =
        some (Tests.sender .pending (some 63))) ∧
      (Tests.sender .pending (some 63)).since + clampN 1 600 (Tests.net.rd Reg.ADM_CTL_HOST_TO []) * second ≤ max Tests.net.now (600 * second)) ∧
    ((Tests.withSender (Tests.sender .refused none)).senderByKey 1 = some (Tests.sender .refused none) ∧ (Tests.sender .refused none).st = .refused ∧
      (Tests.sender .refused none).since + 60 * second ≤ max Tests.net.now (60 * second)) ∧
    ((Tests.withSender (Tests.sender .pending (some 63))).takesWrite (Reg.ADM_DECIDE_ENTRY.off []) ∧
      ((Tests.withSender (Tests.sender .pending (some 63))).adm.senders.find? fun e => e.entry == some (Reg.ADM_DECIDE_ENTRY.get 0#32)) = none ∧
      ((Tests.withSender (Tests.sender .pending (some 63))).adm.senders.find? fun e => e.entry == some (Reg.ADM_DECIDE_ENTRY.get (0x23F#32 : Word))) =
        some (Tests.sender .pending (some 63)) ∧
      Reg.ADM_DECIDE_DECISION.get (0x3F#32 : Word) = 0 ∧ Reg.ADM_DECIDE_DECISION.get (0x13F#32 : Word) = 1 ∧
      Reg.ADM_DECIDE_DECISION.get (0x23F#32 : Word) = 2) ∧
    (Tests.net.takesWrite (Reg.ADM_CTL_COMMIT.off []) ∧ Reg.ADM_CTL_COMMIT.get 0#32 = 0 ∧
      Reg.ADM_CTL_COMMIT.get (Tests.wd Reg.ADM_CTL_COMMIT 1) = 1) ∧
    ((Tests.net.wr Reg.STAB_STATE [16383] 1).rd Reg.STAB_STATE [16383] = 1 ∧
      sget Tests.net.adm.freedAt 16383 0 + 10 * second ≤ max Tests.net.now (10 * second)) := by
  unfold State.takesWrite; decide

/-- A stream in STATE 3. -/
def Tests.stream : State := Tests.net.wr Reg.STAB_STATE [16383] 3

/-- That stream pinned, at its idle limit. -/
def Tests.pinned : State := (Tests.stream.wr Reg.STAB_IDLE_RI [16383] 1).wr Reg.STAB_PINNED [16383] 1

/-- The stream's count was cleared by a letter that came after the instant 5, from 7. -/
def Tests.clearing : State := { Tests.stream with adm := { Tests.stream.adm with cleared := [(16383, 7, 6)] } }

def Tests.letter : Letter :=
  { sid := 16383, flags := 0x800, sec := 0, k := 0, rate := 1, arr := 0, stat := 0, cfgcnt := 0, phn := 0, ann := 0, dgn := 0, path := 0, tq := 0
    ph := [], freq := 0, rocof := 0, an := [], dg := [] }

def Tests.holding : State := { Tests.stream with adm := { Tests.stream.adm with hold := [(16383, Tests.letter)] } }

def Tests.service3 : State := (Tests.st 7).wr Reg.STAB_STATE [16383] 3

theorem witness_StreamsAndDescriptors :
    (Tests.stream.processing = true ∧ Tests.stream.rd Reg.STAB_STATE [16383] = 3 ∧ Tests.stream.clearedLate 16383 5 = none ∧
      min (Tests.stream.rd Reg.STAB_IDLE_CNT [16383] + 1) 65535 < max 1 (Tests.stream.rd Reg.STAB_IDLE_RI [16383])) ∧
    (Tests.pinned.processing = true ∧ Tests.pinned.rd Reg.STAB_STATE [16383] = 3 ∧ Tests.pinned.clearedLate 16383 5 = none ∧
      max 1 (Tests.pinned.rd Reg.STAB_IDLE_RI [16383]) ≤ min (Tests.pinned.rd Reg.STAB_IDLE_CNT [16383] + 1) 65535 ∧
      Tests.pinned.holding = false ∧ Tests.pinned.flag Reg.STAB_PINNED [16383] = true) ∧
    ((Tests.pair 3).holding = true ∧ (Tests.pair 3).processing = true) ∧
    (Tests.clearing.processing = true ∧ Tests.clearing.rd Reg.STAB_STATE [16383] = 3 ∧ Tests.clearing.clearedLate 16383 5 = some 7 ∧
      min (7 + 1) 65535 < max 1 (Tests.clearing.rd Reg.STAB_IDLE_RI [16383])) ∧
    (Tests.stream.takesWrite (Reg.DESC_CHECK.off [16383]) ∧ Tests.stream.mode ≠ .loading ∧ Tests.stream.mode ≠ .service ∧
      Tests.stream.rd Reg.STAB_STATE [16383] ≠ 0 ∧ Tests.stream.rd Reg.STAB_STATE [16383] ≠ 2) ∧
    (Tests.service3.takesWrite (Reg.DESC_CHECK.off [16383]) ∧ Tests.service3.mode = .service ∧ Tests.service3.rd Reg.STAB_STATE [16383] = 3 ∧
      descOk ((Tests.service3.put 0x800000 (Reg.DESC_CHECK.off [16383]) 1#32).desc 16383) = false) ∧
    (Tests.holding.processing = true ∧ 3 ≤ Tests.holding.rd Reg.STAB_STATE [16383] ∧ sfind Tests.holding.adm.hold 16383 = some Tests.letter) := by
  unfold State.takesWrite; decide

/-- Every port failed but port 3. -/
def Tests.failed : State :=
  { Tests.net with net := { Tests.net.net with ports := [(0, { port0 with failed := true }), (1, { port0 with failed := true }),
    (2, { port0 with failed := true })] } }

def Tests.portSt (v : PortSt) : State := { Tests.net with net := { Tests.net.net with ports := [(3, v)] } }

theorem witness_PortsAndPause :
    Tests.net.flag Reg.NET_PORT_CFG_EN [3] = true ∧
    (((Tests.portSt { port0 with restoring := some 0 }).wr Reg.NET_PORT_STAT_LINK [3] 1).flag Reg.NET_PORT_STAT_LINK [3] = true ∧
      ((Tests.portSt { port0 with restoring := some 0 }).port 3).restoring = some 0 ∧
      ((Tests.portSt { port0 with restoring := some 0 }).port 3).failed = false ∧ 0 + second ≤ max Tests.net.now second) ∧
    (∃ a, a = ((Tests.failed.advance 1).setPort 3 { Tests.failed.port 3 with failed := true, restoring := none }).showDeg ∧
      (∃ q, q < 4 ∧ a.flag Reg.NET_PORT_CFG_EN [q] = true) ∧ ∀ q, q < 4 → a.flag Reg.NET_PORT_CFG_EN [q] = true → (a.port q).failed = true) ∧
    (∃ a, a = ((Tests.net.advance 1).setPort 0 { Tests.net.port 0 with failed := true, restoring := none }).showDeg ∧
      ∃ q, q < 4 ∧ a.flag Reg.NET_PORT_CFG_EN [q] = true ∧ (a.port q).failed = false) ∧
    (∃ a, a = (((Tests.st 4).advance 1).setPort 0 { (Tests.st 4).port 0 with failed := true, restoring := none }).showDeg ∧
      ∀ q, q < 4 → a.flag Reg.NET_PORT_CFG_EN [q] = false) ∧
    (Tests.net.rd Reg.NET_PAUSE_MAX_US [] ≠ 0 ∧ (Tests.net.port 3).cut = false ∧ Tests.net.flag Reg.NET_PORT_CFG_EN [3] = true ∧
      (Tests.net.wr Reg.NET_EGR_PFC_MASK [] 0x80).rd Reg.NET_EGR_PFC_MASK [] / 2 ^ 7 % 2 = 1 ∧
      (Tests.net.wr Reg.NET_EGR_PFC_MASK [] 0x80).rd Reg.NET_EGR_PFC_MASK [] / 2 ^ 6 % 2 = 0) ∧
    (((Tests.portSt { port0 with paused := true }).port 3).held = true ∧
      ((Tests.portSt { port0 with paused := true }).port 3).pausedAt + min 2000 (Tests.net.rd Reg.NET_PAUSE_MAX_US []) * usU ≤ max Tests.net.now (2000 * usU)) ∧
    (((Tests.portSt { port0 with queue := [⟨3, 0, 0, none, none, some (5, 0, 0), true, .tcp 1 []⟩] }).port 3).queue.any fun f =>
      match f.shedAt with | some (u, _) => decide (u ≤ 5) | none => false) = true :=
  ⟨by decide, by decide, ⟨_, rfl, ⟨3, by decide⟩, by decide⟩, ⟨_, rfl, 3, by decide⟩, ⟨_, rfl, by decide⟩, by decide, by decide, by decide⟩

theorem witness_SubscriberCommands :
    ∃ a, Tests.here.rxFront (Tests.frame Tests.c37).toRxHead = (a, true) ∧ a.processing = true ∧ (Tests.frame Tests.c37).conn = none ∧
      (Tests.frame Tests.c37).dport = a.rd Reg.NET_UDP_C37 [] ∧
      a.addrOk (Tests.frame Tests.c37).port (Tests.frame Tests.c37).dst (Tests.frame Tests.c37).v6 = true ∧
        c37Bad (Tests.frame Tests.c37).payload = none ∧
      a.cmdRound (Tests.frame Tests.c37) = some 0 :=
  ⟨(Tests.here.rxFront (Tests.frame Tests.c37).toRxHead).1, rfl, by decide, rfl, by decide, by decide, by decide, by decide⟩
/-! ### Time -/

/-- Both domains configured (numbers 5 and 6) on port 3. -/
def Tests.ptp : State :=
  ((((Tests.net.wr Reg.TB_DOM_CFG_PROFILE [0] 1).wr Reg.TB_DOM_CFG_DOMNUM [0] 5).wr Reg.TB_DOM_CFG_PORTS [0] 8).wr Reg.TB_DOM_CFG_PROFILE [1] 1).wr
    Reg.TB_DOM_CFG_DOMNUM [1] 6 |>.wr Reg.TB_DOM_CFG_PORTS [1] 8

/-- A frame of 60 octets as it arrives on port 3. -/
def Tests.head : RxHead := { port := 3, raw := 5, bofs := 0, len := 60, vlan := none, mac := 1, prpSeq := none }

/-- A frame on port 3 that is longer than the port takes. -/
def Tests.long : RxHead := { Tests.head with len := 9217 }

def Tests.ann : Announce :=
  { toRxHead := Tests.head, domNum := 6, prio1 := 128, clockClass := 6, accuracy := 0x21, variance := 0, prio2 := 128, gmId := 11, steps := 0, senderId := 11
    logInterval := 0, ptpScale := true, utcOfs := 37, utcValid := true, leap61 := false, leap59 := true, inacc := 100 }

/-- Domain 1 has a chosen master. -/
def Tests.chosen : State :=
  { Tests.ptp with tb := { Tests.ptp.tb with dom1 := { Tests.ptp.tb.dom1 with masters := [⟨Tests.ann, 1, 0, 0⟩], chosen := some Tests.ann } } }

def Tests.sync (domNum sender : Nat) : SyncMsg := ⟨Tests.head, domNum, sender, 0, 10, 0⟩
def Tests.pdelay (domNum : Nat) : PdelayMsg := ⟨Tests.head, domNum, 0, 100, 200, 1000⟩

/-- What the port's stages leave of a frame that passes them. -/
def Tests.front (s : State) : State := (s.rxFront Tests.head).1

/-- Domain 1 qualified, its master chosen. -/
def Tests.qualified : State := Tests.chosen.wr Reg.TB_DOM_STAT_STATE [1] 2

theorem witness_PtpAndPathDelay :
    (Tests.chosen.rxFront Tests.head = (Tests.front Tests.chosen, true) ∧ (∃ a, Tests.chosen.rxFront Tests.long = (a, false)) ∧
      (Tests.front Tests.chosen).domFor 7 3 = none ∧ (Tests.front Tests.chosen).domFor 6 3 = some 1 ∧
      ((Tests.front Tests.chosen).dom 1).chosen = some Tests.ann ∧ Tests.ann.senderId = (Tests.sync 6 11).senderId ∧
      Tests.ann.port = (Tests.sync 6 11).port ∧ Tests.ann.senderId ≠ (Tests.sync 6 12).senderId) ∧
    (Tests.ptp.rxFront Tests.head = (Tests.front Tests.ptp, true) ∧ (Tests.front Tests.ptp).domFor 6 3 = some 1 ∧
      bestMaster (heardMasters ((Tests.front Tests.ptp).dom 1).masters { Tests.ann with ptpScale := false }) = none) ∧
    (∃ b o x y, Tests.qualified.rxFront Tests.head = (Tests.front Tests.qualified, true) ∧ (Tests.front Tests.qualified).domFor 6 3 = some 1 ∧
      x = (Tests.front Tests.qualified).setDom 1 { (Tests.front Tests.qualified).dom 1 with
        masters := heardMasters ((Tests.front Tests.qualified).dom 1).masters Tests.ann } ∧
      bestMaster (heardMasters ((Tests.front Tests.qualified).dom 1).masters Tests.ann) = some b ∧
      ((Tests.front Tests.qualified).dom 1).chosen = some o ∧ annSame o b.ann = true ∧
      y = (x.setDom 1 { x.dom 1 with chosen := some b.ann }).showMaster 1 b.ann ∧ (y.domState 1 = 2 ∨ y.domState 1 = 3) ∧
      1 ≠ y.rd Reg.TB_STAT_SEL [] ∧ y.utcDiffer = false) ∧
    ((Tests.ptp.dom 0).chosen = none ∧
      ((Tests.chosen.dom 1).masters.any fun m => annSame m.ann Tests.ann && m.live (max Tests.chosen.now (3 * second))) = false ∧
      ((Tests.chosen.dom 1).masters.any fun m => annSame m.ann Tests.ann && m.live (max Tests.chosen.now 0)) = true ∧
      (Tests.chosen.wr Reg.TB_DOM_STAT_STATE [1] 3).domLocked 1 = true) ∧
    ((Tests.front Tests.ptp).domFor 7 3 = none ∧ 1 < 2 ∧ ((Tests.front Tests.ptp).dom 1).chosen = none ∧
      ((Tests.front Tests.chosen).dom 1).chosen = some Tests.ann ∧ Tests.ann.port = (Tests.pdelay 6).port ∧
      (({ Tests.ann with port := 2 } : Announce)).port ≠ (Tests.pdelay 6).port) ∧
    (Tests.ptp.domConf 1 = true ∧ (Tests.ptp.dom 1).reqAt = none ∧
      (({ Tests.ptp with tb := { Tests.ptp.tb with dom1 := { Tests.ptp.tb.dom1 with reqAt := some 0 } } } : State).dom 1).reqAt = some 0 ∧
      max Tests.ptp.now (second - 1) < 0 + second) :=
  ⟨⟨rfl, Tests.pair_of (by decide), by decide⟩, ⟨rfl, by decide, by decide⟩,
    ⟨⟨Tests.ann, 1, 0, 5⟩, Tests.ann, _, _, rfl, by decide, rfl, by decide, by decide, by decide, rfl, by decide, by decide, by decide⟩,
      by decide, by decide, by decide⟩

/-- Disagreement that ended at 0. -/
def Tests.agreeing : State := { Tests.ptp with tb := { Tests.ptp.tb with disagree := true, agreeSince := some 0 } }

/-- Domain 1 selected and locked, domain 0 preferred and locked. -/
def Tests.onSecond : State :=
  ((((Tests.ptp.wr Reg.TB_SEL_REVERT [] 1).wr Reg.TB_STAT_SEL [] 1).wr Reg.TB_DOM_STAT_STATE [0] 3).wr Reg.TB_DOM_STAT_STATE [1] 3).wr Reg.TB_STAT_STATE [] 2

theorem witness_DomainSelection :
    (Tests.agreeing.tb.disagree = true ∧ Tests.agreeing.tb.agreeSince = some 0 ∧ 0 + 10 * second ≤ max Tests.agreeing.now (10 * second) ∧
      (Tests.agreeing.advance (10 * second)).farApart = false) ∧
    (0 = Tests.onSecond.rd Reg.TB_SEL_PREF [] ∧ Tests.onSecond.flag Reg.TB_SEL_REVERT [] = true ∧ Tests.onSecond.rd Reg.TB_STAT_SEL [] ≠ 0 ∧
      Tests.onSecond.domLocked 0 = true ∧ Tests.onSecond.rd Reg.TB_STAT_STATE [] = 2 ∧
      (Tests.onSecond.dom 0).lockAt + clampN 1 3600 (Tests.onSecond.rd Reg.TB_SEL_REVERT_S []) * second ≤ max Tests.onSecond.now (3600 * second)) ∧
    (Tests.onSecond.takesWrite (Reg.TB_SEL_SWITCH.off []) ∧ Reg.TB_SEL_SWITCH.get 0#32 = 0 ∧
      Reg.TB_SEL_SWITCH.get (Tests.wd Reg.TB_SEL_SWITCH 1) = 1 ∧
      Tests.onSecond.domLocked (1 - Tests.onSecond.rd Reg.TB_STAT_SEL []) = true ∧
        Tests.ptp.domLocked (1 - Tests.ptp.rd Reg.TB_STAT_SEL []) = false) := by
  unfold State.takesWrite; decide

/-- The time 7 committed for the boundary at 9, in the mode of a code. -/
def Tests.committed (code : Nat) : State := { Tests.st code with tb := { (Tests.st code).tb with commit := some (7, some 9) } }

theorem witness_TimeCommit :
    ((Tests.st 2).takesWrite (Reg.TB_SET_COMMIT_GO.off []) ∧ Reg.TB_SET_COMMIT_GO.get 0#32 = 0 ∧
      Reg.TB_SET_COMMIT_GO.get (Tests.wd Reg.TB_SET_COMMIT_GO 1) = 1 ∧
      ((Tests.st 2).wr Reg.TB_SET_COMMIT_STATUS [] 1).rd Reg.TB_SET_COMMIT_STATUS [] = 1 ∧ (Tests.st 2).rd Reg.TB_SET_COMMIT_STATUS [] ≠ 1) ∧
    ((Tests.st 4).stepAllowed = false ∧ 1000000000 ≤ ((Tests.st 2).wr Reg.TB_SET_NS_NS [] 1000000000).rd Reg.TB_SET_NS_NS [] ∧
      Tests.onSecond.domLocked 0 = true) ∧
    ((Tests.st 2).stepAllowed = true ∧ (Tests.st 2).domLocked 0 = false ∧ (Tests.st 2).domLocked 1 = false ∧
      ((Tests.st 2).wr Reg.TB_SET_NS_NS [] 999999999).rd Reg.TB_SET_NS_NS [] < 1000000000 ∧
        Reg.TB_SET_COMMIT_RES.get (Tests.wd Reg.TB_SET_COMMIT_GO 1) = 0 ∧
      Reg.TB_SET_COMMIT_RES.get (Reg.TB_SET_COMMIT_GO.put (Tests.wd Reg.TB_SET_COMMIT_RES 1) 1) = 1 ∧
      Reg.TB_SET_COMMIT_GO.get (Reg.TB_SET_COMMIT_GO.put (Tests.wd Reg.TB_SET_COMMIT_RES 1) 1) = 1) ∧
    ((Tests.committed 2).tb.commit = some (7, some 9) ∧ (∀ b, some 9 = some b → b ≤ max (Tests.committed 2).now 9) ∧
      (Tests.committed 2).stepAllowed = true ∧
      (Tests.committed 2).domLocked 0 = false ∧ (Tests.committed 2).domLocked 1 = false ∧ max (Tests.committed 2).now 8 < 9) ∧
    ((Tests.committed 4).tb.commit = some (7, some 9) ∧ (Tests.committed 4).stepAllowed = false) ∧ (Tests.st 2).tb.commit = none := by
  unfold State.takesWrite
  exact ⟨by decide, by decide, by decide, ⟨rfl, fun b h => by injection h with h; subst h; decide, by decide⟩, by decide, rfl⟩

theorem witness_TimeGroupReads :
    (Tests.st 2).responds 0x20010 = true ∧ (Tests.st 2).responds 0x30010 = true ∧ (∃ v, v = (Tests.st 2).tb.shadow.getD (Tests.st 2).now) :=
  ⟨by decide, by decide, _, rfl⟩

theorem witness_PpsInMonitor :
    ((Tests.st 2).wr Reg.TB_PPS_IN_PRESENT [] 1).flag Reg.TB_PPS_IN_PRESENT [] = true ∧
    (Tests.st 2).tb.ppsInAt + 2 * second ≤ max (Tests.st 2).now (2 * second) ∧
      max (Tests.st 2).now (2 * second - 1) < (Tests.st 2).tb.ppsInAt + 2 * second := by decide

/-- A host's leap word without a PTP master: a negative leap. -/
def Tests.leapWord : State := (Tests.st 4).wr Reg.TB_UTC_HOST_LEAP [] 2

theorem witness_PpsOutAndLeapSeconds :
    (((Tests.st 4).wr Reg.TB_PPS_FREE [] 1).ppsDriven = true ∧ ((Tests.st 4).wr Reg.TB_PPS_OUT_COMP [] 0).ppsEdgeAt second = true ∧
      ((Tests.st 4).wr Reg.TB_PPS_OUT_COMP [] 0).ppsEdgeAt (second + nsU) = false) ∧
    ((Tests.st 4).tb.ppsAt + clampN 1 999 ((Tests.st 4).rd Reg.TB_PPS_WIDTH []) * msU ≤ max (Tests.st 4).now (999 * msU) ∧
      max (Tests.st 4).now 0 < (Tests.st 4).tb.ppsAt + clampN 1 999 ((Tests.st 4).rd Reg.TB_PPS_WIDTH []) * msU) ∧
    ((Tests.leapWord.advance 5).leapFlag.1 = some true ∧ Tests.leapWord.flag Reg.TB_UTC_LSP [] = false ∧
      Tests.leapWord.flag Reg.TB_UTC_LSO [] = false ∧
      Tests.leapWord.tb.leapT = none) ∧
    (({ Tests.leapWord with tb := { Tests.leapWord.tb with leapT := some (0, true) } } : State).tb.leapT = some (0, true) ∧
      (Tests.leapWord.wr Reg.TB_UTC_LSP [] 1).flag Reg.TB_UTC_LSP [] = true ∧ 0 ≤ max Tests.leapWord.now 0 ∧
      0 + 86400 * second ≤ max Tests.leapWord.now (86400 * second) ∧
      max Tests.leapWord.now (86400 * second - 1) < 0 + 86400 * second) ∧
    (Tests.onSecond.powered = true ∧ Tests.onSecond.domLocked 0 = true ∧ second % second = 0 ∧ Tests.onSecond.tb.bkdAt = none ∧
      ({ Tests.onSecond with tb := { Tests.onSecond.tb with bkdAt := some 0 } } : State).tb.bkdAt = some 0 ∧
      max Tests.onSecond.now (1000 * second - 1) < 0 + 1000 * second) := by decide
/-! ### The wheel, analysis and alarms -/

/-- A filing item of SID 16383. -/
def Tests.filing : State := Tests.withItem (Tests.st 4) (Tests.item 16383 1 (.file Tests.letter false))

/-- A started wheel with Round 63 on. -/
def Tests.wheel : State :=
  let s : State := (Tests.st 4).wr Reg.WHL_RND_CTL_EN [63] 1
  { s with whl := { s.whl with started := true } }

/-- Round 63 with a closed mailbag. -/
def Tests.bag : Mailbag := ⟨1, 0, 0, false, some (5, false)⟩
def Tests.closed : State := Tests.wheel.setRnd 63 { rnd0St with bags := [Tests.bag] }

/-- Round 63 with more members in the shadow table than a frame holds. -/
def Tests.wide : State :=
  (List.range 15).foldl (fun s i => s.setWord (Reg.WHL_MEMB_SHADOW.off [63, 0] + 4 * i) 0x55555555#32) (Tests.st 4)

theorem witness_WheelAndMailbags :
    (Tests.filing.servingItem 16383 (fun w => match w with | .file _ _ => true | _ => false) (Tests.item 16383 1 (.file Tests.letter false)) ∧
      (Tests.item 16383 1 (.file Tests.letter false)).work = .file Tests.letter false) ∧
    (Tests.wheel.processing = true ∧ Tests.wheel.whl.started = true ∧ 63 ≠ 0 ∧ Tests.wheel.rndOn 63 = true ∧
      ((match (Tests.wheel.rndSt 63).last with | some k => decide (instantOf 0 (Tests.wheel.rndFps 63) ≤ k) | none => false) ||
        (Tests.wheel.rndSt 63).bags.any fun b => decide (instantOf 0 (Tests.wheel.rndFps 63) ≤ b.n)) = false) ∧
    ((Tests.closed.rndSt 63).bags.head? = some Tests.bag ∧ Tests.bag.close = some (5, false) ∧ Tests.closed.processing = true ∧
      Tests.closed.follows = false ∧ (Tests.closed.advance 9).portsPassed 5 = true ∧ Tests.closed.dspRoom 63 5 = true ∧
        (Tests.closed.advance 9).inFlightFor 63 Tests.bag (5, false) = false) ∧
    ((((Tests.st 2).setRnd 63 { rnd0St with bags := [Tests.bag] }).rndSt 63).bags.head? = some Tests.bag ∧
      ((Tests.st 2).setRnd 63 { rnd0St with bags := [Tests.bag] }).processing = false) ∧
    ((Tests.st 4).takesWrite (Reg.WHL_RND_COMMIT_GO.off [63]) ∧ Reg.WHL_RND_COMMIT_GO.get 0#32 = 0 ∧
      Reg.WHL_RND_COMMIT_GO.get (Tests.wd Reg.WHL_RND_COMMIT_GO 1) = 1 ∧ (Tests.st 4).rd Reg.WHL_RND_COMMIT_STATUS [63] ≠ 1 ∧
      65535 < Tests.wide.frameSize 63 (Tests.wide.membersIn Reg.WHL_MEMB_SHADOW 63).length ∧
      (Tests.st 4).frameSize 63 ((Tests.st 4).membersIn Reg.WHL_MEMB_SHADOW 63).length ≤ 65535) := by
  refine ⟨⟨⟨rfl, rfl⟩, rfl⟩, by decide, by decide, by decide, by unfold State.takesWrite; decide⟩

theorem witness_AnalysisItems :
    (∃ (i : Item) (s : State), s.servingItem (0x4800 + 255) (fun w => match w with | .group _ _ _ _ _ _ => true | _ => false) i ∧
      i.work = .group 255 0 1 [] [] 0 ∧ s.grpsOn.contains 255 = true) ∧
    (∃ (i : Item) (s : State), s.servingItem (0x4800 + 255) (fun w => match w with | .group _ _ _ _ _ _ => true | _ => false) i ∧
      s.grpsOn.contains 255 = false) ∧
    (∃ (i : Item) (s : State), s.servingItem 0x5C10 (fun w => match w with | .defUpd _ _ _ _ => true | _ => false) i ∧ i.work = .defUpd 0 1 [] 0) ∧
    (∃ (i : Item) (s : State), s.servingItem 0x5001 (fun w => match w with | .coherency _ _ _ => true | _ => false) i ∧ i.work = .coherency 1 [] 0) ∧
    (∃ (i : Item) (s : State), s.servingItem 0x5002 (fun w => match w with | .clustering => true | _ => false) i) ∧
    (∃ (i : Item) (s : State), s.servingItem 0x5000 (fun w => match w with | .separation _ _ _ => true | _ => false) i ∧
      i.work = .separation 1 [] 0) :=
  ⟨⟨Tests.item 0x48FF 2 (.group 255 0 1 [] [] 0),
    Tests.withItem ((Tests.st 4).wr Reg.OSC_AG_STAT_STATE [255] 1) (Tests.item 0x48FF 2 (.group 255 0 1 [] [] 0)),
      ⟨rfl, rfl⟩, rfl, by decide⟩,
    ⟨Tests.item 0x48FF 2 (.group 255 0 1 [] [] 0), Tests.withItem (Tests.st 4) (Tests.item 0x48FF 2 (.group 255 0 1 [] [] 0)),
      ⟨rfl, rfl⟩, by decide⟩,
    ⟨_, Tests.withItem (Tests.st 4) (Tests.item 0x5C10 2 (.defUpd 0 1 [] 0)), ⟨rfl, rfl⟩, rfl⟩,
    ⟨_, Tests.withItem (Tests.st 4) (Tests.item 0x5001 2 (.coherency 1 [] 0)), ⟨rfl, rfl⟩, rfl⟩,
    ⟨_, Tests.withItem (Tests.st 4) (Tests.item 0x5002 3 .clustering), rfl, rfl⟩,
    _, Tests.withItem (Tests.st 4) (Tests.item 0x5000 2 (.separation 1 [] 0)), ⟨rfl, rfl⟩, rfl⟩

/-- Alarm machine 5 defined, with LATCH in state 0 where asked. -/
def Tests.am5 (latch : Bool) : State :=
  let s := ((Tests.st 4).wr Reg.AM_VALID [5] 1).wr Reg.AM_ST_LATCH [5, 0] (if latch then 1 else 0)
  let o := Reg.AM_VALID.off [5]
  s.wr Reg.AM_CHECK [5] (crc32c (s.regBytes o 3 ++ s.regBytes (o + 16) 60))

def Tests.stepping : State := Tests.withItem ((Tests.st 4).wr Reg.AMR_RUN [1023] 1) (Tests.item 0x4FFF 2 (.machine 1023 0 1 [] 0))

theorem witness_AlarmMachinesAndPins :
    (Tests.stepping.servingItem (0x4C00 + 1023) (fun w => match w with | .machine _ _ _ _ _ => true | _ => false) (Tests.item 0x4FFF 2 (.machine 1023 0 1 [] 0)) ∧
      Tests.stepping.flag Reg.AMR_RUN [1023] = true ∧ Tests.stepping.pair.emitNow = false ∧ Tests.stepping.pair.muteNow = false ∧
      (Tests.item 0x4FFF 2 (.machine 1023 0 1 [] 0)).slot = none) ∧
    (((Tests.st 4).wr Reg.ALM_PUB_CFG_EN [15] 1).flag Reg.ALM_PUB_CFG_EN [15] = true ∧
      (sget (Tests.st 4).alm.pubs 15 pub0).next ≤ max (Tests.st 4).now 0 ∧
      (({ Tests.st 4 with alm := { (Tests.st 4).alm with pubs := [(15, { pub0 with next := 5 })] } } : State).now < 5)) ∧
    (Tests.st 4).takesWrite (Reg.ALM_ACK_AM.off []) ∧
    ((Tests.st 4).amOk ((5#32 : Word).toNat % 1024) = false ∧ (Tests.am5 false).amOk ((5#32 : Word).toNat % 1024) = true ∧
      (Tests.am5 false).flag Reg.AM_ST_LATCH [5, (Tests.am5 false).rd Reg.AMR_STATE [5]] = false ∧
      (Tests.am5 true).amOk ((5#32 : Word).toNat % 1024) = true ∧ (Tests.am5 true).flag Reg.AM_ST_LATCH [5,
        (Tests.am5 true).rd Reg.AMR_STATE [5]] = true) ∧
    (sget (Tests.st 4).alm.stdAt 9 0 + 10 * second ≤ max (Tests.st 4).now (10 * second) ∧ (15 ≠ 1 ∧ 15 ≠ 9) ∧
      max (Tests.st 4).now (10 * second - 1) < sget (Tests.st 4).alm.stdAt 9 0 + 10 * second) ∧
    (sget (Tests.st 4).alm.pins 7 0 ≤ max (Tests.st 4).now 0 ∧
      max (Tests.st 4).now 4 < sget ({ Tests.st 4 with alm := { (Tests.st 4).alm with pins := [(7, 5)] } } : State).alm.pins 7 0) ∧
    ((Tests.st 4).alm.oeN ≠ false ∧ (Tests.st 4).alm.oeN = true) := by
  refine ⟨⟨⟨rfl, rfl⟩, by decide, rfl, rfl, rfl⟩, by decide, by unfold State.takesWrite; decide, by decide, by decide, by decide, by decide⟩
/-! ### Local acquisition, energy and capture -/

/-- Point 1 enabled in an active unit, with a newest output sample `n`. -/
def Tests.smp (n : Nat) : AcqSmp := ⟨n, [], 0, 0, 0, false, false, 0⟩
def Tests.point : State :=
  let s : State := (Tests.st 4).wr Reg.ACQ_PT_CFG_EN [1] 1
  s.setAcqPt 1 { s.acqPt 1 with filled := some 0, hist := [Tests.smp 100000] }

/-- Point 1 whose chain fills. -/
def Tests.filling : State := (Tests.st 4).wr Reg.ACQ_PT_CFG_EN [1] 1

/-- Point 1 whose chains have given the outputs that instant 96 takes. -/
def Tests.made : State := Tests.filling.setAcqPt 1 { Tests.filling.acqPt 1 with ready := [(100, [])] }

theorem witness_AcquisitionSamples :
    (Tests.filling.clocked 1 = true ∧ Tests.filling.nextSmp 1 ≤ 0 ∧
      instantTime 96 (Tests.filling.ptRate 1) + Tests.filling.ptDelay 1 ≤ 12 * msU + Tests.filling.ptDelay 1) ∧
    (0 < instantTime 0 (Tests.filling.ptRate 1) + Tests.filling.ptDelay 1 ∧ 100000 < Tests.point.nextSmp 1) ∧
    (sfind (Tests.made.acqPt 1).ready (96 + 4) = some [] ∧ sfind (Tests.made.acqPt 1).ready (97 + 4) = none) ∧
    ((Tests.filling.advance second).sampling 1 = true ∧ (Tests.filling.advance (msU - 1)).sampling 1 = false) ∧
    (cicReaches 0 (Tests.filling.splUp 1) = false ∧ cicReaches (125 ^ 5) (Tests.filling.splUp 1) = true ∧ Tests.filling.splForce 1 ≠ 2 ∧
      (Tests.filling.wr Reg.ACQ_PT_SPL_FORCE [1] 2).splForce 1 = 2) ∧
    (Tests.filling.clocked (14 / 9) = true ∧ Tests.filling.inFault (14 / 9) (14 % 9) = false ∧ 3 ≤ 14 % 9 ∧ 14 % 9 < 6) ∧
    ((Tests.filling.wr Reg.ACQ_PT_STAT_FAULT [1] 0x100).inFault (17 / 9) (17 % 9) = true ∧ Tests.filling.inFault (17 / 9) (17 % 9) = false) ∧
    ((Tests.filling.acqPt 1).filled = none ∧ (Tests.filling.acqPt 1).start + msU + Tests.filling.ptDelay 1 ≤ max Tests.filling.now second ∧
      (Tests.point.acqPt 1).filled.isSome = true ∧ max Tests.filling.now msU < (Tests.filling.acqPt 1).start + msU + Tests.filling.ptDelay 1) ∧
    (Tests.st 4).clocked 1 = false := by decide

/-- A shadow curve declared valid with a wrong check word. -/
def Tests.badCurve : State := (Tests.st 7).wr Reg.SCURVE_VALID [17] 1

/-- A sampled value, the `idx`-th of its frame, on port 3. -/
def Tests.asdu (idx : Nat) : SvAsdu := ⟨Tests.head, idx, 0x4000, [], 4, 0, 2, List.replicate 8 (0#32, 0#32)⟩

/-- Port 3 enabled in WATCH. -/
def Tests.idle : State := (Tests.st 2).wr Reg.NET_PORT_CFG_EN [3] 1

theorem witness_CalibrationAndLocalStreams :
    ((200 * msU) % (200 * msU) = 0 ∧ (Tests.st 4).acq.looked ≠ some (200 * msU) ∧ (200 * msU + 1) % (200 * msU) ≠ 0) ∧
    ((0#32).getLsbD 31 = false ∧ (Tests.st 7).takesWrite (Reg.ACQ_CAL_COMMIT.off [])) ∧
    (Tests.badCurve.takesWrite (Reg.ACQ_CAL_COMMIT.off []) ∧ (0x80000000#32).getLsbD 31 = true ∧ Tests.badCurve.rd Reg.ACQ_CAL_STATUS [] ≠ 1 ∧
      (List.range 18).any (((Tests.badCurve.store (Reg.ACQ_CAL_COMMIT.off []) 0x80000000#32).setFlag Reg.ACQ_CAL_COMMIT [] false).curveBad 0xFC1000) = true ∧
      (List.range 18).any ((((Tests.st 7).store (Reg.ACQ_CAL_COMMIT.off []) 0x80000000#32).setFlag Reg.ACQ_CAL_COMMIT [] false).curveBad 0xFC1000) = false) ∧
    (((Tests.st 7).wr Reg.ACQ_CAL_STATUS [] 1).rd Reg.ACQ_CAL_STATUS [] = 1 ∧ (Tests.st 7).acq.calFade = false ∧ second % second = 0 ∧
      (Tests.st 7).clocked 0 = false ∧ (Tests.st 7).clocked 1 = false ∧ (Tests.st 7).rd Reg.ACQ_CAL_STATUS [] ≠ 1) ∧
    ((Tests.point.setAcqLs 3 { next := some 0 }).processing = true ∧ ((Tests.point.setAcqLs 3 { next := some 0 }).acqLs 3).next = some 0 ∧
      ((Tests.point.setAcqLs 3 { next := some 0 }).advance 5).lsNewest 3 = some 100000 ∧ (Tests.point.wr Reg.ACQ_LS_CFG_EN [3] 1).lsOn 3 = true ∧
      (Tests.point.advance 5).lsNeeds 3 0 ≤ 100000 ∧ 3 < 4 ∧ 4 ≤ (7 : Fin 8).val ∧ 100000 < (Tests.point.advance 5).lsNeeds 3 1000000) ∧
    ((Tests.st 4).acqLs 7).next = none ∧
    (((Tests.st 4).setAcqLs 7 { next := some 0 }).acqLs (3 + 4)).next = some 0 ∧ ((Tests.st 4).wr Reg.ACQ_LS_CFG_EN [7] 1).lsOn (3 + 4) = true ∧
    instantTime 0 ((Tests.st 4).lsFps 7) + (Tests.st 4).lsReach 7 + (Tests.st 4).rd Reg.ACQ_SV_CFG_WAIT_US [3] * usU ≤ max (Tests.st 4).now (10 * second) ∧
    max (Tests.st 4).now 0 <
      instantTime 0 ((Tests.st 4).lsFps 7) + (Tests.st 4).lsReach 7 + (Tests.st 4).rd Reg.ACQ_SV_CFG_WAIT_US [3] * usU ∧
    (((Tests.st 4).wr Reg.ACQ_SV_STAT_RECEIVING [3] 1).flag Reg.ACQ_SV_STAT_RECEIVING [3] = true ∧
      sget (Tests.st 4).acq.svAt 3 0 + 100 * msU ≤ max (Tests.st 4).now (100 * msU)) ∧
    (∃ a, (if (Tests.asdu 0).idx = 0 then Tests.net.rxFront (Tests.asdu 0).toRxHead else Tests.net.rxMore (Tests.asdu 0).toRxHead) = (a, true) ∧
      a.processing = true) ∧
    (∃ a, (if (Tests.asdu 1).idx = 0 then Tests.net.rxFront (Tests.asdu 1).toRxHead else Tests.net.rxMore (Tests.asdu 1).toRxHead) = (a, true)) ∧
    (∃ a, (if (Tests.asdu 0).idx = 0 then Tests.idle.rxFront (Tests.asdu 0).toRxHead else Tests.idle.rxMore (Tests.asdu 0).toRxHead) = (a, true) ∧
      a.processing = false) ∧
    (∃ a, (if (Tests.asdu 1).idx = 0 then Tests.idle.rxFront (Tests.asdu 1).toRxHead else Tests.idle.rxMore (Tests.asdu 1).toRxHead) = (a, true) ∧
      a.processing = false ∧ (Tests.asdu 1).idx ≠ 0) ∧
    (∃ a, (if (Tests.asdu 0).idx = 0 then (Tests.st 4).rxFront (Tests.asdu 0).toRxHead else (Tests.st 4).rxMore (Tests.asdu 0).toRxHead) = (a, false)) := by
  refine ⟨by decide, by unfold State.takesWrite; decide, by unfold State.takesWrite; decide, by decide, by decide, by decide, by decide, by decide,
    by decide, by decide, by decide, ⟨_, Prod.ext rfl (by decide), by decide⟩, Tests.pair_of (by decide), ⟨_, Prod.ext rfl (by decide), by decide⟩,
    ⟨_, Prod.ext rfl (by decide), by decide⟩, Tests.pair_of (by decide)⟩

/-- Sampled-value slot 3's stream with a newest sample and its next letter due. -/
def Tests.svs : State :=
  let s : State := (Tests.st 4).setAcqLs 7 { next := some 0 }
  s.wr Reg.ACQ_LS_CFG_EN [7] 1

theorem witness_SampledValueLetters : (Tests.svs.acqLs 7).next = some 0 ∧ Tests.svs.processing = true ∧ Tests.svs.lsOn 7 = true := by decide

/-- Point 1 with an interval that has ended. -/
def Tests.interval : State :=
  Tests.filling.setNrgPt 1 { Tests.filling.nrgPt 1 with ivDone := some ⟨⟨0, 0, 0, 0, 0, 0, 0, 0, 0, [], [], none, none⟩, 0, [], 50, 0⟩, skipped := 3 }

/-- Point 1 with a declared voltage and half-cycle values of two stamps that wait. -/
def Tests.halves : State :=
  let s := Tests.point.wr Reg.NRG_PT_UDIN [1] 0x43660000
  s.setNrgPt 1 { s.nrgPt 1 with due := [(6, 2, 0x43660000#32), (5, 2, 0x43660000#32)] }

theorem witness_EnergyAndSupplyEvents :
    (Tests.filling.ptOn 1 = true ∧ (Tests.filling.nrgPt 1).lastQ ≠ some (Tests.filling.ptF0 1, (Tests.filling.advance second).dueQuantum 1) ∧
      instantTime ((Tests.filling.advance second).dueQuantum 1 + 1) (Tests.filling.ptF0 1) ≤ max Tests.filling.now second ∧
      (Tests.filling.advance second).quantReady 1 ((Tests.filling.advance second).dueQuantum 1) = true) ∧
    ((Tests.st 4).ptOn 1 = false ∧ (Tests.st 4).ptOn 0 = false ∧ Tests.filling.ptOn 0 = false ∧ (Tests.filling.nrgPt 1).ivDone = none ∧ (Tests.interval.nrgPt 1).ivDone.isSome = true) ∧
    ((Tests.st 4).takesWrite (Reg.NRG_SNAP_GO.off []) ∧ (1#32).getLsbD 0 = true ∧ (Tests.st 4).rd Reg.NRG_SNAP_STATUS [] ≠ 1) ∧
    (((Tests.st 4).wr Reg.NRG_SNAP_STATUS [] 1).rd Reg.NRG_SNAP_STATUS [] = 1 ∧ (Tests.st 4).ptOn 0 = false ∧ second % second = 0 ∧
      (Tests.st 4).nrg.snapAt < second ∧ 0 ≤ (Tests.st 4).nrg.snapAt ∧ (0#32).getLsbD 0 = false) ∧
    ((Tests.st 4).takesWrite (Reg.NRG_PT_PRE_IDX_GO.off [1]) ∧ (0x80000000#32).getLsbD 31 = true ∧ (Tests.st 4).rd Reg.NRG_PT_PRE_IDX_STATUS [1] ≠ 1 ∧
      (Tests.st 4).mode ≠ .service ∧ (Tests.st 7).mode = .service ∧ (Tests.st 7).takesWrite (Reg.NRG_PT_PRE_IDX_GO.off [1])) ∧
    (F32.isZero (BitVec.ofNat 32 (Tests.point.rd Reg.NRG_PT_UDIN [1])) = true ∧
      F32.isZero (BitVec.ofNat 32 (Tests.halves.rd Reg.NRG_PT_UDIN [1])) = false ∧ Tests.halves.clocked 1 = true ∧
      firstStamp (Tests.halves.nrgPt 1).due = some 5 ∧ firstStamp (Tests.halves.nrgPt 1).due ≠ some 6 ∧ (Tests.st 4).clocked 1 = false ∧
      ((((Tests.halves.nrgPt 1).due.filter fun x => x.1 == 5).foldl (fun a x => sset a x.2.1 x.2.2) (Tests.halves.nrgPt 1).urms).filter
        fun x => !Tests.halves.inFault 1 x.1) ≠ [] ∧
      ((((Tests.halves.nrgPt 1).due.filter fun x => x.1 == 5).foldl (fun a x => sset a x.2.1 x.2.2) (Tests.halves.nrgPt 1).urms).filter
        fun x => !(Tests.halves.wr Reg.ACQ_PT_STAT_FAULT [1] 4).inFault 1 x.1) = []) := by
  unfold State.takesWrite; decide

theorem witness_CaptureAndTriggerLines :
    ((Tests.st 4).takesWrite (Reg.CAP_U_ARM_ARM.off [31]) ∧ (Tests.st 4).takesWrite (Reg.CAP_U_ARM_FORCE.off [31]) ∧
      (Tests.st 4).takesWrite (Reg.CAP_U_ACK_SEQ.off [31])) ∧
    (((Tests.st 4).wr Reg.CAP_U_STAT_STATE [31] 4).capState 31 = 4 ∧ (Tests.st 4).capState 31 = 0 ∧
      ((Tests.st 4).wr Reg.CAP_U_STAT_STATE [31] 1).capState 31 = 1 ∧ ((Tests.st 4).wr Reg.CAP_U_STAT_STATE [31] 3).capState 31 = 3) ∧
    ((Tests.st 4).flag Reg.CAP_U_CFG_KEEP [31] = false ∧ ((Tests.st 4).wr Reg.CAP_U_CFG_KEEP [31] 1).flag Reg.CAP_U_CFG_KEEP [31] = true) ∧
    ((Tests.st 4).processing = true ∧ (Tests.st 2).processing = false ∧ (Tests.st 4).cap.pulling = [] ∧ (Tests.st 4).cap.syncAt = none) ∧
    ((Tests.st 4).cap.fireLow = false ∧ (Tests.st 4).cap.syncLow = false ∧
      ({ Tests.st 4 with cap := { (Tests.st 4).cap with fireLow := true, syncLow := true, pulling := [31] } } : State).cap.fireLow = true ∧
      (((Tests.st 4).advance 0).setFlag Reg.CAP_XTRG_FIRE_LINE [] false).processing = true ∧
      (((Tests.st 2).advance 0).setFlag Reg.CAP_XTRG_SYNC_LINE [] false).processing = false) ∧
    (((Tests.st 4).wr Reg.CAP_U_STAT_STATE [31] 2).capHeldOff 31 ((Tests.st 4).capUnit 31) 5 = false ∧
      ((Tests.st 4).wr Reg.CAP_U_SEGS_HOLD_US [31] 1).capHeldOff 31 { (Tests.st 4).capUnit 31 with hold := some 5 } 5 = true) ∧
    (({ Tests.st 4 with cap := { (Tests.st 4).cap with pulling := [31] } } : State).cap.pulling ≠ [] ∧
      (Tests.st 4).cap.fireAt + max 2 ((Tests.st 4).rd Reg.CAP_XTRG_FIRE_W_US []) * usU ≤ max (Tests.st 4).now second ∧
      max (Tests.st 4).now 0 < (Tests.st 4).cap.fireAt + max 2 ((Tests.st 4).rd Reg.CAP_XTRG_FIRE_W_US []) * usU) ∧
    (({ Tests.st 4 with cap := { (Tests.st 4).cap with syncAt := some 0 } } : State).cap.syncAt = some 0 ∧
      max (Tests.st 4).now (10 * usU - 1) < 0 + 10 * usU) ∧
    ((Tests.st 4).takesWrite (Reg.CAP_XTRG_SYNC_GO.off []) ∧
      (((Tests.st 4).store (Reg.CAP_XTRG_SYNC_GO.off []) 1#32).setFlag Reg.CAP_XTRG_SYNC_GO [] false).xDrives = true ∧
      (((Tests.st 2).store (Reg.CAP_XTRG_SYNC_GO.off []) 1#32).setFlag Reg.CAP_XTRG_SYNC_GO [] false).xDrives = false) := by
  unfold State.takesWrite; decide
/-! ### The pair -/

/-- The pair link's own state of a member in the mode of a code. -/
def Tests.pairWith (code : Nat) (f : PairSt → PairSt) : State := { Tests.pair code with pair := f (Tests.pair code).pair }

/-- A heartbeat word of version 1 with its check byte. -/
def Tests.beat : Nat := let h := 0xA720000000000000 / 256; h * 256 + crc8 (hbBytes h)

def Tests.paths : State := ((Tests.pair 2).wr Reg.PAIR_STAT_PATH_A [] 1).wr Reg.PAIR_STAT_PATH_B [] 1

theorem witness_Heartbeats :
    ((Tests.pair 2).powered = true ∧ (Tests.pair 2).flag Reg.PAIR_CFG_EN [] = true) ∧
    (hbValid (BitVec.ofNat 64 Tests.beat).toNat = true ∧ hbValid (0#64).toNat = false) ∧
    ((Tests.paths.advance 5).silentDue false = true ∧ Tests.paths.flag Reg.PAIR_STAT_PATH_B [] = true ∧
      ((Tests.pair 2).advance 5).silentDue true = false) ∧
    (((Tests.pair 2).wr Reg.GLB_MODE_RUN_EN [] 1).mode = .watch ∧ ((Tests.pair 2).wr Reg.GLB_MODE_RUN_EN [] 1).flag Reg.GLB_MODE_RUN_EN [] = true ∧
      (Tests.pair 2).flag Reg.PAIR_STAT_PATH_A [] = false ∧ (Tests.pair 2).flag Reg.PAIR_STAT_PATH_B [] = false ∧
      (Tests.pair 2).pair.runAt + clampN 100 65535 ((Tests.pair 2).rd Reg.PAIR_CFG_JOIN_MS []) * msU ≤ max (Tests.pair 2).now (65535 * msU)) ∧
    ((Tests.st 2).powered = true ∧ (Tests.st 2).rd Reg.PAIR_STAT_LANES [] / 2 ^ 1 % 2 = 0 ∧ (Tests.st 2).flag Reg.PAIR_CFG_EN [] = false ∧
      ((Tests.st 2).wr Reg.PAIR_STAT_LANES [] 2).rd Reg.PAIR_STAT_LANES [] / 2 ^ 1 % 2 = 1) ∧
    ((Tests.pair 2).rd Reg.PAIR_STAT_LANES [] = 0 ∧ (Tests.pair 2).pair.peer = none ∧
      ((Tests.pair 2).wr Reg.PAIR_STAT_LANES [] 1).rd Reg.PAIR_STAT_LANES [] ≠ 0 ∧
      (Tests.pair 4).processing = true ∧ (Tests.pair 2).processing = false) := by decide

/-- A standby that prefers to be active, ready to take over, and its active partner. -/
def Tests.standby : State :=
  let s := (((Tests.pair 3).wr Reg.PAIR_STAT_READY [] 1).wr Reg.PAIR_CFG_PREF [] 1).wr Reg.PAIR_CFG_REVERT [] 1
  { s with pair := { s.pair with partner := some ⟨4, false, false, false, 0, 0, 0, true⟩, fitSince := some 0 } }

/-- An active unit that would rather be the standby, its partner ready and ahead of it since 0. -/
def Tests.ahead : State :=
  let s := (((Tests.withPartner 4).wr Reg.PAIR_CFG_AUTO_SW [] 1).wr Reg.PAIR_CFG_REVERT [] 1).wr Reg.PAIR_HEALTH_SCORE [] 8
  { s with pair := { s.pair with fitSince := some 0, aheadSince := some 0 } }

/-- A frame next in order, one out of order, one not heard, and a HELLO that comes again. -/
def Tests.inTurn : PlkHead := ⟨0, 1, false, true⟩
def Tests.late : PlkHead := ⟨7, 1, false, true⟩
def Tests.broken : PlkHead := ⟨0, 1, false, false⟩
def Tests.again : PlkHead := ⟨2 ^ 32 - 1, 1, true, true⟩

/-- What the reception of such a frame leaves of a state. -/
def Tests.heard (s : State) : State := (s.advance 5).received false Tests.inTurn

theorem witness_Switchovers :
    (((Tests.pair 2).advance 5).plkHears Tests.inTurn = true ∧ ((Tests.pair 2).advance 5).helloTwice Tests.inTurn = false ∧
      ((Tests.pair 2).advance 5).plkHears Tests.again = true ∧ ((Tests.pair 2).advance 5).helloTwice Tests.again = true ∧
      ((Tests.pair 2).advance 5).plkHears Tests.broken = false) ∧
    ((Tests.standby.advance 5).plkHears Tests.inTurn = true ∧ (Tests.standby.advance 5).inOrder false Tests.inTurn = true ∧
      (Tests.heard Tests.standby).holding = true ∧ (Tests.heard Tests.standby).flag Reg.PAIR_STAT_READY [] = true ∧
      (Tests.heard (Tests.pair 3)).holding = true ∧ (Tests.heard (Tests.pair 3)).flag Reg.PAIR_STAT_READY [] = false ∧
      (Tests.heard (Tests.pair 4)).holding = false) ∧
    ((Tests.heard (Tests.pairWith 4 fun p => { p with switch := some ⟨7, true, false, 5⟩ })).pair.switch = some ⟨7, true, false, 5⟩ ∧
      (Tests.heard (Tests.pairWith 4 fun p => { p with switch := some ⟨7, false, false, 5⟩ })).pair.switch = some ⟨7, false, false, 5⟩ ∧
      (Tests.heard (Tests.pair 4)).pair.switch = none) ∧
    (Tests.standby.flag Reg.PAIR_CFG_REVERT [] = true ∧ Tests.standby.revertFit = true ∧ Tests.standby.pair.fitSince = some 0 ∧
      max Tests.standby.now (Tests.standby.revertTime - 1) < 0 + Tests.standby.revertTime ∧
      0 + Tests.standby.revertTime ≤ max Tests.standby.now Tests.standby.revertTime ∧ Tests.standby.holding = true) ∧
    (Tests.ahead.flag Reg.PAIR_CFG_REVERT [] = true ∧ Tests.ahead.revertFit = true ∧ Tests.ahead.pair.fitSince = some 0 ∧
      Tests.ahead.holding = false) ∧
    (Tests.ahead.flag Reg.PAIR_CFG_AUTO_SW [] = true ∧ Tests.ahead.partnerAhead = true ∧ Tests.ahead.pair.aheadSince = some 0 ∧
      Tests.ahead.pair.switch = none ∧ Tests.ahead.pair.lastAuto = none ∧ 0 < Tests.ahead.revertTime ∧ max Tests.ahead.now (10 * second - 1) < 0 + 10 * second ∧
      0 + 10 * second ≤ max Tests.ahead.now (10 * second)) := by decide

def Tests.decision : PlkDispatch := ⟨63, 1, 0, 0, 0, 0, 5, 0, [], []⟩

/-- A frame that no ACK has answered. -/
def Tests.unacked : PlkFrame := ⟨2, false, 3, []⟩

/-- What the reception of a frame of the second stream leaves of a state. -/
def Tests.heard2 (s : State) : State := s.received true Tests.inTurn

theorem witness_PairLinkOrder :
    (Tests.pair 3).plkHears Tests.broken = false ∧ (Tests.pair 3).plkHears Tests.late = true ∧ (Tests.pair 3).inOrder false Tests.late = false ∧
    (Tests.pair 3).inOrder true Tests.late = false ∧ (Tests.pair 3).plkHears Tests.inTurn = true ∧ (Tests.pair 3).inOrder false Tests.inTurn = true ∧
    (Tests.pair 3).inOrder true Tests.inTurn = true ∧ ((Tests.pair 3).advance 5).inOrder false Tests.inTurn = true ∧
    ((Tests.pair 3).advance 5).plkHears Tests.inTurn = true := by decide

theorem witness_PairLink :
    ((Tests.heard (Tests.pair 3)).pair.follow = [] ∧ (Tests.heard (Tests.pair 3)).processing = true ∧ (Tests.heard (Tests.pair 3)).holding = true ∧
      (Tests.heard (Tests.pair 4)).holding = false) ∧
    (((Tests.heard (Tests.pairWith 3 fun p => { p with held := [.pub 1 2 3 (.tcp 1 [])] })).pair.held.any fun h => h.isRel (.pub 1 2 3)) = true ∧
      ((Tests.heard (Tests.pair 3)).pair.held.any fun h => h.isRel (.slot 63 1)) = false) ∧
    ((Tests.heard2 (Tests.pair 3)).holding = true ∧ ((Tests.heard2 (Tests.pair 3)).ownDigest false 255).1 = 0 ∧
      ((Tests.heard2 (Tests.pair 3)).ownDigest false 255).1 < 1 ∧ (Tests.heard2 (Tests.pair 4)).holding = false) ∧
    ((Tests.heard (Tests.pair 3)).follows = true ∧ ((Tests.heard (Tests.pair 3)).rndSt 63).last = none ∧
      (Tests.heard ({ Tests.pair 3 with whl := { (Tests.pair 3).whl with started := true } } : State)).whl.started = true ∧ Tests.decision.rnd < 64 ∧
      (Tests.heard ((Tests.pair 3).setRnd 63 { rnd0St with last := some 0 })).rndSt 63 = { rnd0St with last := some 0 } ∧ 0 < Tests.decision.n ∧
      (Tests.heard (Tests.pair 4)).follows = false) ∧
    ((Tests.heard (Tests.pair 4)).activeRole = true ∧ (Tests.heard (Tests.pair 3)).activeRole = false) ∧
    ((Tests.pairWith 3 fun p => { p with unacked := [Tests.unacked] }).pair.unacked.any fun u =>
      decide (((if u.second then 0 else 3) + 2 ^ 32 - u.seq) % 2 ^ 32 < 2 ^ 31)) = true ∧
    ((Tests.pair 3).powered = true ∧ (Tests.pair 3).flag Reg.PAIR_CFG_EN [] = true ∧
      ((Tests.pair 3).wr Reg.PAIR_STAT_LANES [] 1).rd Reg.PAIR_STAT_LANES [] % 2 = 1) ∧
    ((Tests.pairWith 3 fun p => { p with unacked := [Tests.unacked], retries := 8 }).pair.unacked ≠ [] ∧
      (Tests.pair 3).pair.progAt + 20 * usU ≤ max (Tests.pair 3).now (20 * usU) ∧
      8 ≤ (Tests.pairWith 3 fun p => { p with retries := 8 }).pair.retries ∧ (Tests.pairWith 3 fun p => { p with retries := 7 }).pair.retries < 8 ∧
      (Tests.pair 3).pair.unacked = []) ∧
    ((Tests.pairWith 3 fun p => { p with follow := [⟨Tests.decision, 0, false, false⟩] }).pair.follow.any fun f =>
      f.d.rnd == 63 && decide (f.since + clampN 20 2000 ((Tests.pair 3).rd Reg.PAIR_LAG_MAX_US []) * usU ≤ max (Tests.pair 3).now (2000 * usU))) = true ∧
    ((Tests.pair 3).pair.follow.any fun f => f.d.rnd == 63) = false := by decide

/-! ### Keys, the Logbook and the backup domain -/

def Tests.keyed (f : KeySt → KeySt) : State := { Tests.st 2 with key := f (Tests.st 2).key }
def Tests.strt (f : StrtSt → StrtSt) : State := { Tests.st 2 with strt := f (Tests.st 2).strt }

theorem witness_KeysAndServiceAuthorisation :
    (Tests.st 2).powered = true ∧
    (((Tests.keyed fun k => { k with run := [(255, { run0 with pend := some (9, 8) })] }).keyRun 255).pend = some (9, 8) ∧
      ((Tests.st 2).keyRun 255).pend = none) ∧
    second % second = 0 ∧
    ((Tests.keyed fun k => { k with chal := some ([1], 0) }).key.chal = some ([1], 0) ∧ 0 + 60 * second ≤ max (Tests.st 2).now (60 * second)) ∧
    (((Tests.st 2).wr Reg.STRT_SVC_AUTH_STAT [] 1).rd Reg.STRT_SVC_AUTH_STAT [] = 1 ∧
      (Tests.st 2).strt.svcAt + 60 * second ≤ max (Tests.st 2).now (60 * second)) ∧
    ((Tests.st 2).takesWrite (Reg.STRT_SVC_CHAL_REQ.off []) ∧ (0x80000000#32).getLsbD 31 = true ∧ (0#32).getLsbD 31 = false) ∧
    ((Tests.st 2).takesWrite (Reg.STRT_SVC_SUBMIT.off []) ∧ (0x60000000#32).getLsbD 30 = true ∧ (0#32).getLsbD 30 = false ∧
      (Tests.st 2).strt.svcSub = none ∧
      (Tests.strt fun x => { x with svcSub := some (false, true, 3) }).strt.svcSub = some (false, true, 3) ∧
      (Tests.strt fun x => { x with svcSub := some (true, true, 3) }).strt.svcSub = some (true, true, 3) ∧
      (Tests.strt fun x => { x with svcSub := some (true, false, 3) }).strt.svcSub = some (true, false, 3)) := by
  unfold State.takesWrite; decide

/-- The Logbook ready with one event staged. -/
def Tests.staged (seal_ : Bool) : State :=
  let s := ((Tests.st 2).wr Reg.LOG_STAT_READY [] 1).setFlag Reg.LOG_STAT_SEALED [] seal_
  { s with log := { s.log with stage := [Tests.ev 7] } }

theorem witness_LogbookWrites :
    (((Tests.st 2).wr Reg.LOG_STAT_READY [] 1).flag Reg.LOG_STAT_READY [] = true ∧ (Tests.st 2).log.clearEv = none ∧ (Tests.st 2).log.stage = []) ∧
    ((Tests.staged false).powered = true ∧ (Tests.staged false).flag Reg.LOG_STAT_READY [] = true ∧ (Tests.staged false).log.clearEv = none ∧
      (Tests.staged false).log.stage = [Tests.ev 7] ∧ (Tests.staged false).flag Reg.LOG_STAT_SEALED [] = false ∧
        (Tests.staged false).log.repd = false) ∧
    ((Tests.staged true).flag Reg.LOG_STAT_SEALED [] = true ∧ (Tests.staged true).flag Reg.LOG_STAT_READY [] = true) ∧
    ((Tests.staged false).log.rewAt = none ∧
      (({ Tests.staged false with log := { (Tests.staged false).log with rewAt := some 0 } } : State).log.rewAt = some 0) ∧
      max (Tests.staged false).now (100 * usU - 1) < 0 + 100 * usU) ∧
    ((((Tests.st 2).wr Reg.LOG_OPSEC_SEC [] 60).advance 0).countOpsec.opsNow.opsec / 60 <
        (((Tests.st 2).wr Reg.LOG_OPSEC_SEC [] 60).advance 0).countOpsec.rd Reg.LOG_OPSEC_SEC [] / 60 ∧
      ((Tests.st 2).advance 0).countOpsec.rd Reg.LOG_OPSEC_SEC [] / 60 ≤ ((Tests.st 2).advance 0).countOpsec.opsNow.opsec / 60) := by decide

theorem witness_BackupClock :
    ((Tests.st 2).takesWrite (Reg.BKD_SET_COMMIT_GO.off []) ∧ Reg.BKD_SET_COMMIT_GO.get 0#32 = 0 ∧
      Reg.BKD_SET_COMMIT_GO.get (Tests.wd Reg.BKD_SET_COMMIT_GO 1) = 1 ∧
      (Tests.st 2).rd Reg.BKD_SET_COMMIT_STATUS [] ≠ 1 ∧ (Tests.st 2).domLocked 0 = false ∧ (Tests.st 2).domLocked 1 = false) ∧
    (Tests.onSecond.takesWrite (Reg.BKD_SET_COMMIT_GO.off []) ∧ Tests.onSecond.rd Reg.BKD_SET_COMMIT_STATUS [] ≠ 1 ∧
      Tests.onSecond.domLocked 0 = true) ∧
    ((Tests.st 2).wr Reg.BKD_SET_COMMIT_STATUS [] 1).rd Reg.BKD_SET_COMMIT_STATUS [] = 1 := by
  unfold State.takesWrite; decide

def Tests.backup (f : BkdSt → BkdSt) : State := { Tests.st 2 with bkd := f (Tests.st 2).bkd }

theorem witness_BackupAlarmAndDomain :
    ((Tests.st 2).takesWrite (Reg.BKD_ALM_CTL_ARM.off []) ∧ (0x80000000#32).getLsbD 31 = true ∧
      ((Tests.st 2).wr Reg.BKD_ALM_SEC_LO_SEC [] 1).bkdSec < ((Tests.st 2).wr Reg.BKD_ALM_SEC_LO_SEC [] 1).bkdAlm ∧
        (Tests.st 2).bkdAlm ≤ (Tests.st 2).bkdSec) ∧
    ((Tests.st 2).takesWrite (Reg.BKD_ALM_CTL_DISARM.off []) ∧ (2#32).getLsbD 1 = true ∧ (2#32).getLsbD 31 = false) ∧
    ((Tests.st 2).takesWrite (Reg.BKD_PON_OFF.off []) ∧ (0x1A5#32).getLsbD 8 = true ∧ (0x1A5#32 : Word).toNat % 256 = 0xA5 ∧
      (0xA5#32).getLsbD 8 = false) ∧
    ((Tests.backup fun b => { b with offAt := some 0 }).bkd.offAt = some 0 ∧ max (Tests.st 2).now (10 * msU - 1) < 0 + 10 * msU ∧
      0 + 10 * msU ≤ max (Tests.st 2).now (10 * msU) ∧ (Tests.st 2).bkd.offAt = none) ∧
    (((Tests.st 2).wr Reg.BKD_STAT_OSF [] 0).flag Reg.BKD_STAT_OSF [] = false ∧
      ((Tests.st 2).wr Reg.BKD_STAT_OSF [] 1).flag Reg.BKD_STAT_OSF [] = true ∧
      State.reset.powered = false) ∧
    (((Tests.st 2).wr Reg.BKD_TC_MODE [] 1).rd Reg.BKD_TC_MODE [] % 2 = 1 ∧ ((Tests.st 2).wr Reg.BKD_TC_MODE [] 2).rd Reg.BKD_TC_MODE [] = 2) ∧
    (Tests.st 2).flag Reg.BKD_STAT_VBAT_LOW [] = false := by
  unfold State.takesWrite; decide

/-! ### Registers and the board -/

theorem witness_ScratchRegister :
    ((Tests.st 2).powered = true ∧ (Tests.st 2).mode ≠ .loading ∧ (Tests.st 2).hif.latchAddr ≠ some 0x8) ∧ (1000 ≤ 1000 ∧
      (Tests.st 2).mode ≠ .backup) ∧
    State.reset.powered = false := by decide

theorem witness_RegisterWrites :
    (fieldsAt (0xFFFFFF / 4 * 4)).isEmpty = true ∧ State.reset.powered = false ∧
    ((Tests.st 2).responds (0xB / 4 * 4) = true ∧ 0xB < 0x1000000 ∧ (fieldsAt (0xB / 4 * 4)).isEmpty = false ∧ (14 : Fin 16).val ≠ 15) ∧
    ((Tests.pair 3).responds (Reg.ADM_DECIDE_ENTRY.off []) = true ∧ (Tests.pair 3).holding = true ∧ (Tests.pair 4).activeRole = true ∧
      (Tests.pair 4).responds (Reg.ALM_ACK_AM.off []) = true ∧ (Tests.pair 4).responds (Reg.WHL_RND_COMMIT_GO.off [63]) = true) := by decide

theorem witness_CounterLatchAndMaxima :
    ((Tests.st 2).responds (Reg.SRT_ITEMS.off [63, 0] / 4 * 4) = true ∧ counterLow (Reg.SRT_ITEMS.off [63, 0] / 4 * 4) = true) ∧
    (({ Tests.st 2 with hif := { (Tests.st 2).hif with latchAddr := some 0x8 } } : State).hif.latchAddr = some (0xB / 4 * 4) ∧
      (Tests.st 2).hif.latchAddr ≠ some (0xB / 4 * 4)) ∧
    ((Tests.st 2).takesWrite (Reg.WHL_RND_MAX_DSP.off [63]) ∧
      (Tests.st 2).takesWrite (if 16383 < 16384 then Reg.STAB_MAX_L.off [16383] else Reg.LSTAB_MAX_L.off [16383 - 16384]) ∧
      (Tests.st 2).takesWrite (if 16391 < 16384 then Reg.STAB_MAX_L.off [16391] else Reg.LSTAB_MAX_L.off [16391 - 16384]) ∧
      (Tests.st 2).takesWrite (Reg.SRT_MAX_WAIT.off [63]) ∧ (Tests.st 2).takesWrite (Reg.SOF_CLS_HIGH_HIGH.off [3]) ∧
      (Tests.st 2).takesWrite (Reg.PWR_TJ_PEAK_PEAK.off [])) := by
  unfold State.takesWrite; decide

/-- Vector 63's message is pending while the host may be written. -/
def Tests.pba : State :=
  let s := ((Tests.st 2).wr Reg.HIF_STAT_BME [] 1).setWord (Reg.MSIX_PBA.off [63 / 32]) 0x80000000#32
  { s with hif := { s.hif with msixEn := true } }

theorem witness_NoticeRegisters :
    ((Tests.st 2).takesWrite (noticeOff 22) ∧ (Tests.st 2).takesWrite (noticeOff bNET) ∧ (Tests.st 2).takesWrite (noticeOff 22 + 4)) ∧
    (Tests.pba.takesWrite (Reg.MSIX_CTRL.off [63]) ∧ Tests.pba.hif.msixEn = true ∧ Tests.pba.flag Reg.HIF_STAT_BME [] = true ∧
      (Tests.pba.word (Reg.MSIX_PBA.off [63 / 32])).getLsbD (63 % 32) = true) := by
  unfold State.takesWrite; decide

theorem witness_NoticeSetsItsBit : 31 < 32 ∧ ((Tests.st 2).setWord (noticeOff bNET) 1#32).noticed bNET 0 := by unfold State.noticed; decide

theorem witness_SupplyExcursions : (Tests.st 2).powered = true := by decide

theorem witness_TemperatureAndI2c :
    ((Tests.st 2).powered = true ∧ (List.replicate 8 (0#32 : Word)).length = 8) ∧
    ((Tests.st 2).takesWrite (Reg.PWR_I2C_CTL_GO.off []) ∧ (0x80000000#32).getLsbD 31 = true ∧ (Tests.st 2).rd Reg.PWR_I2C_CTL_STATUS [] ≠ 1) ∧
    ((Tests.st 2).mem.i2c = none ∧ ({ Tests.st 2 with mem := { (Tests.st 2).mem with i2c := some (true, 4) } } : State).mem.i2c = some (true, 4)) := by
  unfold State.takesWrite; decide
/-! ### Ill-formed commands are refused, and well-formed ones pass -/

/-- The head of a well-formed frame. -/
def Tests.okHead : RxHead := ⟨0, 0, 65, 64, none, 0x1234, none⟩

/-- A well-formed frame. -/
def Tests.okFrame : RxFrame := ⟨Tests.okHead, false, 0xC0A80001, 4712, 0xC0A80002, 4713, none, []⟩

/-- A well-formed letter. -/
def Tests.okLetter : Letter := ⟨5, 0, 100, 0, 4, 0, 0, 0, 1, 0, 0, 0, 0, [(0#32, 0#32)], 0#32, 0#32, [], []⟩

/-- A well-formed frame header of the pair link. -/
def Tests.plkHead : PlkHead := ⟨0, 1, false, true⟩

def Tests.syncMsg : SyncMsg := ⟨Tests.okHead, 0, 1, 0, 0, 0⟩
def Tests.pdMsg : PdelayMsg := ⟨Tests.okHead, 0, 0, 0, 0, 0⟩
def Tests.okAnn : AnnData := ⟨0, 128, 6, 0x21, 0, 128, 1, 0, 1, 0, true, 37, true, false, false, 0⟩
def Tests.sv : SvAsdu := ⟨Tests.okHead, 0, 0x4000, [], 4, 0, 2, List.replicate 8 (0#32, 0#32)⟩
def Tests.lbCmd : LbCmd := ⟨0, 7, 0, 0, List.replicate 11 0⟩
def Tests.spdu : Spdu := ⟨true, false, 0, 0, none, 0, 128, false, [], [], []⟩

theorem test_wf_accepts :
    (Instr.c37DataFrame Tests.okFrame).wf = true ∧ (Instr.fwd ⟨Tests.plkHead, Tests.okLetter⟩).wf = true ∧ (Instr.ptpSync Tests.syncMsg).wf = true ∧
    (Instr.pdelayReq Tests.pdMsg).wf = true ∧ (Instr.ptpAnnounce Tests.okHead Tests.okAnn).wf = true ∧ (Instr.svAsdu Tests.sv).wf = true ∧
    (Instr.lbNop 0 Tests.lbCmd (Tests.buf 0) 0x16).wf = true ∧ (Instr.spduReceived Tests.okFrame Tests.spdu).wf = true := by decide

theorem test_wf_refuses_frames :
    (Instr.c37DataFrame { Tests.okFrame with bofs := 66 }).wf = false ∧ (Instr.c37CfgFrame { Tests.okFrame with mac := 2 ^ 48 }).wf = false ∧
    (Instr.otherFrame { Tests.okFrame with sport := 65536 }).wf = false ∧ (Instr.tcpSegment { Tests.okFrame with dport := 65536 }).wf = false ∧
    (Instr.cmdSendCfg { Tests.okFrame with payload := [0], len := 0 }).wf = false ∧
      (Instr.cmdSendHeader { Tests.okFrame with src := 2 ^ 32 }).wf = false ∧
    (Instr.cmdDataOn { Tests.okFrame with v6 := true, src := 2 ^ 128 }).wf = false ∧
    (Instr.cmdDataOff { Tests.okFrame with vlan := some 4096 }).wf = false ∧ (Instr.cmdOther { Tests.okFrame with prpSeq := some 65536 }).wf = false ∧
    (Instr.arpRequest Tests.okFrame (2 ^ 32)).wf = false ∧ (Instr.echoRequest Tests.okFrame (2 ^ 128)).wf = false ∧
    (Instr.fragment ⟨Tests.okFrame, Tests.spdu⟩ ⟨false, 0, 0, 0, 4, true⟩).wf = false ∧
      (Instr.reasmTimeout ⟨false, 0, 0, 2 ^ 32, 0, true⟩ 0).wf = false := by decide

theorem test_wf_refuses_letters :
    (Instr.fwd ⟨Tests.plkHead, { Tests.okLetter with sid := 0x4008 }⟩).wf = false ∧ (Instr.fwd ⟨Tests.plkHead, { Tests.okLetter with sec := 2 ^ 48 }⟩).wf = false ∧
    (Instr.fwd ⟨Tests.plkHead, { Tests.okLetter with rate := 16 }⟩).wf = false ∧ (Instr.fwd ⟨Tests.plkHead, { Tests.okLetter with phn := 33 }⟩).wf = false ∧
    (Instr.fwd ⟨Tests.plkHead, { Tests.okLetter with an := List.replicate 17 0#32 }⟩).wf = false ∧
      (Instr.fwd ⟨Tests.plkHead, { Tests.okLetter with dg := [65536] }⟩).wf = false := by decide

theorem test_wf_refuses_protocol_fields :
    (Instr.spduReceived Tests.okFrame { Tests.spdu with keyId := some (2 ^ 32) }).wf = false ∧
    (Instr.spduReceived Tests.okFrame { Tests.spdu with asdus := [⟨some (0, 2 ^ 24, 0), []⟩] }).wf = false ∧
    (Instr.svAsdu { Tests.sv with values := [] }).wf = false ∧ (Instr.ptpAnnounce Tests.okHead { Tests.okAnn with prio1 := 256 }).wf = false ∧
    (Instr.ptpAnnounce Tests.okHead { Tests.okAnn with utcOfs := 32768 }).wf = false ∧
      (Instr.ptpSync { Tests.syncMsg with domNum := 256 }).wf = false ∧
    (Instr.pdelayReq { Tests.pdMsg with bofs := 66 }).wf = false ∧ (Instr.hello ⟨Tests.plkHead, ⟨2 ^ 32, false, 0, 0⟩⟩).wf = false ∧
    (Instr.plkDispatch ⟨Tests.plkHead, ⟨64, 0, 0, 0, 0, 0, 0, 0, [], []⟩⟩ 0).wf = false ∧ (Instr.rel ⟨Tests.plkHead, .slot 64 0⟩).wf = false ∧
    (Instr.copy ⟨Tests.plkHead, ⟨0, true, [.machine 1024 0 0 0 false false false 0], 0⟩⟩ 0).wf = false := by decide

theorem test_wf_refuses_letterbox :
    (Instr.lbNop 0 { Tests.lbCmd with flags := 65536 } (Tests.buf 0) 0).wf = false ∧
      (Instr.resend 0 { Tests.lbCmd with param := [] } (Tests.buf 0)).wf = false ∧
    (Instr.seal 0 { Tests.lbCmd with addr := 2 ^ 64 } (Tests.buf 0)).wf = false ∧ (Instr.lbNop 0 Tests.lbCmd (Tests.buf 0) 0x17).wf = false ∧
    (Instr.lbCommandFetched 0 [] 0).wf = false ∧ (Instr.ringPcieError true 16).wf = false := by decide

theorem test_wf_refuses_keys_and_pins :
    (Instr.wrstNLow 0 999).wf = false ∧ (Instr.warmStart 0#32).wf = false ∧ (Instr.warmStartFull 0x57A6#32).wf = false ∧
    (Instr.strtKick 0xC35B#32).wf = false ∧ (Instr.housekeepingTimer (.kat 64) 0).wf = false ∧ (Instr.flowStateCopyDone 65536 0).wf = false ∧
    (Instr.startStepEnd (.fuses [] 0)).wf = false ∧ (Instr.startStepEnd (.keys [512] 0)).wf = false ∧
    (Instr.startStepEnd (.sorters [64] 0)).wf = false ∧ (Instr.startStepEnd (.dram 128 128 true true false false 0)).wf = false := by decide

theorem test_wf_refuses_places :
    (Instr.sramUe 0 (2 ^ 22) 0).wf = false ∧ (Instr.sramScrubPass 0 65 0 0).wf = false ∧ (Instr.dramPatrolPass 0 101 0 0 0).wf = false ∧
    (Instr.dramUe 0 (2 ^ 35) none 0).wf = false ∧ (Instr.mramUe 0x1000000 0).wf = false ∧ (Instr.mramReadCheck [512] 0 0 0).wf = false ∧
    (Instr.registerWrite 0x1000000 0#32 15).wf = false ∧ (Instr.counterLatchLow 0x1000000).wf = false ∧
      (Instr.counterLatchHigh 0x1000000).wf = false ∧
    (Instr.fileLetter 0x4008 0).wf = false ∧ (Instr.lookAheadSample 0 (List.replicate 6 (List.replicate 125 true)) [[]] 0).wf = false ∧
    (Instr.tcWindow 0x10000#32).wf = false ∧ (Instr.tjSample [] 0).wf = false ∧
    (Instr.fetch ⟨Tests.plkHead, .letters⟩ 0 65536 [] 0).wf = false ∧ (Instr.digest ⟨Tests.plkHead, false⟩ 256 0 0).wf = false ∧ (Instr.catchup ⟨Tests.plkHead, ⟨256, 0, none, none, []⟩⟩).wf = false ∧
    (Instr.plkAck [0] 0).wf = false ∧ (Instr.rxmap ⟨Tests.plkHead, [0x4008]⟩).wf = false ∧ (Instr.fwdOn ⟨Tests.plkHead, 0x4008⟩).wf = false ∧ (Instr.fwdOff ⟨Tests.plkHead, 0x4008⟩).wf = false ∧
    (Instr.switchOffer ⟨Tests.plkHead, 2 ^ 64⟩ 0).wf = false ∧ (Instr.switchAccept ⟨Tests.plkHead, 2 ^ 64⟩ 0).wf = false ∧
    (Instr.switchRefuse ⟨⟨2 ^ 32, 1, false, true⟩, 0⟩).wf = false ∧ (Instr.rxmap ⟨⟨0, 0, false, true⟩, []⟩).wf = false := by decide

/-! ### The table's words, and values the spec fixes -/

/-- The opcode table gives no row any bits. -/
theorem test_no_word_spells_a_command : decodeTableWord 16 0 = none ∧ decodeTableWord 32 0xFFFFFFFF = none := by decide

/-- An outcome's state. -/
def Tests.after (o : Host.Outcome State Fault Refusal) : State := match o with | .next u => u | _ => State.reset

/-- The check value of CRC-32C over the nine ASCII digits. -/
theorem test_crc32c : crc32c [0x31, 0x32, 0x33, 0x34, 0x35, 0x36, 0x37, 0x38, 0x39] = 0xE3069283#32 := by decide

/-- The check value of CRC-CCITT over the nine ASCII digits. -/
theorem test_crcCcitt : crcCcitt [0x31, 0x32, 0x33, 0x34, 0x35, 0x36, 0x37, 0x38, 0x39] = 0x29B1 := by decide

/-- 1.0 + 2.0 and 0.1 × 10 in binary32. -/
theorem test_f32 : F32.add 0x3F800000#32 0x40000000#32 = 0x40400000#32 ∧ F32.mul 0x3DCCCCCD#32 0x41200000#32 = 0x3F800000#32 := by decide

/-- R51: five ticks of 625 MHz are 8 ns. -/
theorem test_idle_ticks :
    (Tests.after (step (Tests.after (step (Tests.after (step (Tests.after (step (Tests.after (step (Tests.st 2)))))))))) ).now = 8 * nsU := by decide

/-- R30: with the main domain powered and every register at its reset value the mode is LOADING; R469: PORST_N leads to BACKUP. -/
theorem test_power_and_mode : ({ State.reset with powered := true } : State).mode = .loading ∧
    (Tests.after (exec (.porstNAssert 0) (Tests.st 4))).mode = .backup := by decide

/-- R12, R544: GLB_SCRATCH holds what is written; with a byte enable off it does not. -/
theorem test_scratch : (Tests.after (exec (.registerWrite 8 0xDEADBEEF#32 15) (Tests.st 2))).word 8 = 0xDEADBEEF#32 ∧
    (Tests.after (exec (.registerWrite 8 0xDEADBEEF#32 7) (Tests.st 2))).word 8 = 0#32 := by decide

/-- R494: without a commit a tick adds one second. -/
theorem test_backup_second : (Tests.after (exec (.bkdSecondTick 0) (Tests.st 2))).bkdSec = (Tests.st 2).bkdSec + 1 := by decide

/-- R528: a write of STRT_KICK with another key has no effect. -/
theorem test_kick_key : (Tests.after (exec (.strtKick 0xC35B#32) (Tests.st 4))).strt.kick = (Tests.st 4).strt.kick := by decide

/-- R209: a doorbell outside the ring is not taken and sets the notice. -/
theorem test_bad_doorbell : (Tests.after (exec (.lbDoorbell 15 (.write (some 0xFFFFFFFF#32))) Tests.rings)).rd Reg.LB_PROD [15] = 0 ∧
    ((Tests.after (exec (.lbDoorbell 15 (.write (some 0xFFFFFFFF#32))) Tests.rings)).word (noticeOff bHIF)).getLsbD 4 = true := by decide
end

section
/-! PROOFS of the family 00_scope: the register store and what commands leave, host writes, notices and vectors. First the rules
about steps, host writes and stored words that the obligations use; then the obligations. -/
namespace Sys2Proof.Machine

variable {s u : State}

/-! ### What a step does -/

/-- A step is one tick on an empty queue, or else the front command run with the queue's rest. -/
theorem step_cases (h : step s = .next u) :
    (s.pending = [] ∧ u = s.tick) ∨ ∃ c rest, s.pending = c :: rest ∧ exec c { s with pending := rest } = .next u := by
  unfold step at h
  split at h
  case h_1 hq => exact .inl ⟨hq, by injection h with h; exact h.symm⟩
  case h_2 c rest hq => exact .inr ⟨c, rest, hq, h⟩

/-! ### Where a host write goes (R9, R415, R418, R536) -/

/-- An unpowered block answers at no offset. -/
theorem State.responds_unpowered (h : s.powered = false) (off : Nat) : s.responds off = false := by simp [State.responds, h]

/-- An active unit is not the standby. -/
theorem State.holding_of_activeRole (h : s.activeRole = true) : s.holding = false := by
  unfold State.activeRole at h
  unfold State.holding
  cases hm : s.mode <;> simp_all

/-- The standby refuses and records a write to a mirrored register. -/
theorem State.hostGate_standby {off : Nat} (hr : s.responds off = true) (hm : mirroredOff off = true) (hh : s.holding = true)
    (w : Word) (eff : State → State) : s.hostGate off w eff = s.logRefused off w.toNat := by
  simp [State.hostGate, hr, hm, hh]

/-- The active unit keeps a write to a mirrored register for the next boundary. -/
theorem State.hostGate_active {off : Nat} (hr : s.responds off = true) (hm : mirroredOff off = true) (ha : s.activeRole = true)
    (w : Word) (eff : State → State) :
    s.hostGate off w eff = { s with pair := { s.pair with mirror := s.pair.mirror ++ [(off, w, 15)] } } := by
  simp [State.hostGate, hr, hm, ha, State.holding_of_activeRole ha]

/-- What a row that writes a mirrored register does in either unit of a pair. -/
theorem State.hostGate_pair {off : Nat} (hm : mirroredOff off = true) {w : Word} {eff : State → State} {r : Res}
    (he : r = .next (s.hostGate off w eff)) (hr : s.responds off = true) :
    (s.holding = true → r = .next (s.logRefused off w.toNat)) ∧
    (s.activeRole = true → r = .next { s with pair := { s.pair with mirror := s.pair.mirror ++ [(off, w, 15)] } }) :=
  ⟨fun hh => by rw [he, State.hostGate_standby hr hm hh], fun ha => by rw [he, State.hostGate_active hr hm ha]⟩

/-- COMMIT of every Round is mirrored. -/
theorem mirroredOff_roundCommit : ∀ r : Fin 64, mirroredOff (Reg.WHL_RND_COMMIT_GO.off [r.val]) = true := by decide

/-! ### What a host write stores in a word of one field (R10)

The two lemmas on `storedWord` keep `~~~ 0#32` from being evaluated: as `allOnes` it drops out of a conjunction. -/

variable {f : Fld} {off : Nat}

theorem accMask_of_fieldsAt (h : fieldsAt off = [f]) (p : Acc → Bool) : accMask off p = if p f.acc then f.mask else 0#32 := by
  simp [accMask, h]

/-- Where the word's one field is not RWL, no write is refused. -/
theorem State.store_of_fieldsAt (h : fieldsAt off = [f]) (hf : f.acc ≠ .rwl) (s : State) (w : Word) :
    s.store off w = s.setWord off (storedWord off s.rwlOpen (s.word off) w) := by
  have no : s.rwlRefused off w = false := by simp [State.rwlRefused, rwlMask, accMask_of_fieldsAt h, hf]
  simp [State.store, no]

/-- W1C: the field's bits that are written as 1 clear. -/
theorem storedWord_w1c (h : fieldsAt off = [f]) (hf : f.acc = .w1c) (lock : Bool) (old w : Word) :
    storedWord off lock old w = old &&& ~~~ (f.mask &&& w) := by
  simp [storedWord, accMask_of_fieldsAt h, hf, -BitVec.reduceNot, -BitVec.reduceAllOnes]

/-- RW: the field's bits are those written. -/
theorem storedWord_rw (h : fieldsAt off = [f]) (hf : f.acc = .rw) (lock : Bool) (old w : Word) :
    storedWord off lock old w = (old &&& ~~~ f.mask) ||| (w &&& f.mask) := by
  simp [storedWord, accMask_of_fieldsAt h, hf, -BitVec.reduceNot, -BitVec.reduceAllOnes]

/-- An RW field reads as the host wrote it. -/
theorem State.rd_store_rw {idx : List Nat} (h : fieldsAt (f.off idx) = [f]) (hf : f.acc = .rw) (hs : f.sane = true) (s : State)
    (w : Word) : (s.store (f.off idx) w).rd f idx = f.get w := by
  unfold State.rd
  rw [State.store_of_fieldsAt h (by simp [hf]), State.word_setWord, storedWord_rw h hf]
  refine Nat.eq_of_testBit_eq fun i => ?_
  rw [Fld.get_bit, Fld.get_bit]
  by_cases hi : i < f.width
  · have hm : f.mask.getLsbD (f.lo + i) = true := by
      rw [Fld.mask_bit hs]
      simp only [Fld.sane, Fld.width, Bool.and_eq_true, decide_eq_true_eq] at hs hi ⊢
      omega
    simp [hm]
  · simp [hi]

/-- A write of a word leaves the fields of every other word. -/
theorem State.rd_setWord_ne {idx : List Nat} (h : f.off idx ≠ off) (s : State) (w : Word) : (s.setWord off w).rd f idx = s.rd f idx := by
  unfold State.rd; rw [State.word_setWord_ne _ _ h]

/-! ### Notice registers (R14, R545) -/

theorem exec_noticeClear (b : Fin 23) (w : Word) (h : s.takesWrite (noticeOff b.val)) :
    exec (.noticeClear b w) s = .next (s.noticeWrite b.val w) :=
  congrArg Host.Outcome.next (State.hostGate_takes h _ _)

theorem exec_noticeEnable (b : Fin 23) (w : Word) (h : s.takesWrite (noticeOff b.val + 4)) :
    exec (.noticeEnable b w) s = .next (s.enableWrite b.val w) :=
  congrArg Host.Outcome.next (State.hostGate_takes h _ _)

/-- NET_NOTICE after a write: the bits written as 1 are clear, the others stand. -/
theorem State.noticeWrite_net_bit (s : State) (w : Word) {i : Nat} (hi : i < 8) :
    ((s.noticeWrite bNET w).word (noticeOff bNET)).getLsbD i = ((s.word (noticeOff bNET)).getLsbD i && !w.getLsbD i) := by
  have one : fieldsAt (noticeOff bNET) = [Reg.NET_NOTICE_BITS] := by decide
  have mask : Reg.NET_NOTICE_BITS.mask.getLsbD i = true := by
    rw [Fld.mask_bit (by decide), Bool.and_eq_true, decide_eq_true_eq, decide_eq_true_eq]
    exact ⟨Nat.zero_le i, Nat.le_of_lt_succ hi⟩
  have net : s.noticeWrite bNET w = (s.store (noticeOff bNET) w).refreshSum := rfl
  have hi' : i < 32 := by omega
  rw [net, State.refreshSum_word, State.store_of_fieldsAt one (by decide), State.word_setWord, storedWord_w1c one rfl,
    BitVec.getLsbD_and, BitVec.getLsbD_not, BitVec.getLsbD_and, mask, decide_eq_true hi', Bool.true_and, Bool.true_and]

/-! ### The MSI-X region (R547, R548) -/

theorem fieldsAt_msixCtrl : ∀ v : Fin 64, fieldsAt (Reg.MSIX_CTRL.off [v.val]) = [Reg.MSIX_CTRL] := by decide

theorem idxOk_msixPba : ∀ v : Fin 64, idxOk Reg.MSIX_PBA.dims [v.val / 32] = true := by decide

theorem areaOf_msixPba (v : Fin 64) : areaOf (Reg.MSIX_PBA.off [v.val / 32]) = areaOf 0x170000 := by
  rw [areaOf_fld (by decide) (idxOk_msixPba v)]; decide

theorem msixPba_ne_msixCtrl (v : Fin 64) : Reg.MSIX_PBA.off [v.val / 32] ≠ Reg.MSIX_CTRL.off [v.val] := by
  simp only [Fld.off, idxOff, Reg.MSIX_PBA, Reg.MSIX_CTRL]; omega

theorem hifStat_ne_msixCtrl (v : Fin 64) : Reg.HIF_STAT_BME.off [] ≠ Reg.MSIX_CTRL.off [v.val] := by
  simp only [Fld.off, idxOff, Reg.HIF_STAT_BME, Reg.MSIX_CTRL]; omega

/-- Unmasking a vector whose message is pending clears its pending bit and sends the message. -/
theorem State.maskWrite_unmask (s : State) (v : Fin 64) (w : Word) (hw : Reg.MSIX_CTRL.get w % 2 = 0) (en : s.hif.msixEn = true)
    (bme : s.flag Reg.HIF_STAT_BME [] = true) (pend : (s.word (Reg.MSIX_PBA.off [v.val / 32])).getLsbD (v.val % 32) = true) :
    s.maskWrite v w = ((s.store (Reg.MSIX_CTRL.off [v.val]) w).setWord (Reg.MSIX_PBA.off [v.val / 32])
      (s.word (Reg.MSIX_PBA.off [v.val / 32]) &&& ~~~ BitVec.ofNat 32 (2 ^ (v.val % 32)))).emit (.msix v) := by
  have unmasked := s.rd_store_rw (fieldsAt_msixCtrl v) rfl (by decide) w
  have plain := s.store_of_fieldsAt (fieldsAt_msixCtrl v) (by decide) w
  have pba : (s.store (Reg.MSIX_CTRL.off [v.val]) w).word (Reg.MSIX_PBA.off [v.val / 32]) = s.word (Reg.MSIX_PBA.off [v.val / 32]) := by
    rw [plain, State.word_setWord_ne _ _ (msixPba_ne_msixCtrl v)]
  have en' : (s.store (Reg.MSIX_CTRL.off [v.val]) w).hif.msixEn = true := by rw [plain]; exact en
  have bme' : (s.store (Reg.MSIX_CTRL.off [v.val]) w).flag Reg.HIF_STAT_BME [] = true := by
    unfold State.flag; rw [plain, State.rd_setWord_ne (hifStat_ne_msixCtrl v)]; exact bme
  simp only [State.maskWrite, unmasked, hw, pba, pend, en', bme', and_self, if_true, State.put, areaOf_msixPba]

/-- What the row MSIX_UNMASK writes to the control word does not mask the vector. -/
theorem msixCtrl_get_unmasked (w : Word) : Reg.MSIX_CTRL.get (w &&& 0xFFFFFFFE#32) % 2 = 0 := by
  have h : (Reg.MSIX_CTRL.get (w &&& 0xFFFFFFFE#32)).testBit 0 = false := by rw [Fld.get_bit]; simp [Reg.MSIX_CTRL]
  simpa [Nat.testBit_zero] using h

theorem exec_msixUnmask (v : Fin 64) (takes : s.takesWrite (Reg.MSIX_CTRL.off [v.val])) :
    exec (.msixUnmask v) s = .next (s.maskWrite v (s.word (Reg.MSIX_CTRL.off [v.val]) &&& 0xFFFFFFFE#32)) :=
  congrArg Host.Outcome.next (State.hostGate_takes takes _ _)

/-- The row MSIX_UNMASK with a message pending: one message leaves, and neither the pending bit nor the mask stands. -/
theorem exec_msixUnmask_pending (v : Fin 64) (takes : s.takesWrite (Reg.MSIX_CTRL.off [v.val])) (en : s.hif.msixEn = true)
    (bme : s.flag Reg.HIF_STAT_BME [] = true) (pend : (s.word (Reg.MSIX_PBA.off [v.val / 32])).getLsbD (v.val % 32) = true) :
    ∃ u, exec (.msixUnmask v) s = .next u ∧ u.out = s.out ++ [.msix v.val] ∧
      (u.word (Reg.MSIX_PBA.off [v.val / 32])).getLsbD (v.val % 32) = false ∧ u.rd Reg.MSIX_CTRL [v.val] % 2 = 0 := by
  have hw := msixCtrl_get_unmasked (s.word (Reg.MSIX_CTRL.off [v.val]))
  refine ⟨_, by rw [exec_msixUnmask v takes, State.maskWrite_unmask s v _ hw en bme pend], ?_, ?_, ?_⟩
  · rw [State.store_of_fieldsAt (fieldsAt_msixCtrl v) (by decide)]; rfl
  · have hv : v.val % 32 < 32 := Nat.mod_lt _ (by decide)
    rw [State.word_emit, State.word_setWord, BitVec.getLsbD_and, BitVec.getLsbD_not, BitVec.getLsbD_ofNat, Nat.testBit_two_pow_self,
      decide_eq_true hv]
    exact Bool.and_false _
  · rw [State.rd_emit, State.rd_setWord_ne (msixPba_ne_msixCtrl v).symm, State.rd_store_rw (fieldsAt_msixCtrl v) rfl (by decide)]
    exact hw

/-! ### The obligations -/

/-- Settles O4: a tick and every command keep what `Keeps` says, the store's form with it. -/
theorem stepKeepsRegisterStore : Obligations.StepKeepsRegisterStore := by
  intro s u hs h
  rcases step_cases h with ⟨-, rfl⟩ | ⟨c, rest, -, hc⟩
  · exact (State.tick_keeps (.refl s)).store hs
  · exact (exec_keeps c _ u hc).store hs

/-- Settles O8: every command changes only what the mask of `mayTouch` admits, and a change within that mask is its frame. -/
theorem frameOfEveryCommand : Obligations.FrameOfEveryCommand :=
  fun c s u h => (exec_within c s u h).frame

/-- Settles O10, by the laws of a written word and of a written field. -/
theorem registerFieldsReadBack : Obligations.RegisterFieldsReadBack := by
  have sane : ∀ {f : Fld}, f.lo ≤ f.hi → f.hi < 32 → f.sane = true := fun h k => by simp [Fld.sane, h, k]
  refine ⟨fun s off o w => ?_, fun s f idx v h k ok => s.rd_wr_same v (sane h k) ok, fun s f g idx jdx v hf kf hg kg d => ?_,
    fun s f idx v no => ?_⟩
  · split
    case isTrue e => rw [e, State.word_setWord]
    case isFalse e => exact s.word_setWord_ne w e
  · rcases d with off | bits
    · exact s.rd_wr_off v off
    · exact s.rd_wr_bits v (sane hf kf) (sane hg kg) bits
  · simp [State.wr, no]

/-- Settles O54: what holds no field, an unpowered block and byte enables that are off by the guards of the row; a write in a pair by
`hostGate`, through which the three rows of mirrored registers go. -/
theorem registerWrites : Obligations.RegisterWrites := by
  refine ⟨⟨fun addr w be s unassigned => ?_, fun addr w be s unpowered => ⟨?_, ?_⟩, fun addr w be s answers hlt assigned hbe => ?_⟩,
    fun w s => ?_, fun w s => ?_, fun r w s => ?_⟩
  · simp [exec, execRegisterWrite, unassigned]
  · simp [exec, execRegisterWrite, State.responds_unpowered unpowered]
  · simp [exec, execCounterLatchLow, State.hostRead, State.responds_unpowered unpowered, unpowered]
  · have inside : ¬ 0x1000000 ≤ addr / 4 * 4 := by omega
    simp [exec, execRegisterWrite, answers, inside, assigned, hbe]
  · exact State.hostGate_pair (by decide) rfl
  · exact State.hostGate_pair (by decide) rfl
  · exact State.hostGate_pair (mirroredOff_roundCommit r) rfl

/-- Settles O56: the rows of the notice registers take effect through `hostGate`; NET_NOTICE and the pending bits by their laws. -/
theorem noticeRegisters : Obligations.NoticeRegisters := by
  refine ⟨fun b w s h => exec_noticeClear b w h, fun w s h => ?_, fun b w s h => exec_noticeEnable b w h, fun b w s a ha => ?_,
    fun v s => exec_msixUnmask_pending v⟩
  · exact ⟨s.noticeWrite bNET w, exec_noticeClear 4 w h, fun i hi => s.noticeWrite_net_bit w hi⟩
  · subst ha
    exact ⟨fun quiet => if_pos quiet, fun pending => if_neg pending⟩

/-- Settles O57: the bit set and the bits kept by the laws of notices; the rest by their mask, which holds the Logbook's state, the
outputs and the areas NOTICE, LOG and MSI-X. -/
theorem noticeSetsItsBit : Obligations.NoticeSetsItsBit := by
  intro s b bit d0 d1 d2 hbit
  have within : (Touch.noting [] []).frame s (s.notice b bit d0 d1 d2) := (State.notice_in (by decide) (.refl s)).frame
  refine ⟨s.notice_bit d0 d1 d2 hbit, fun c i => s.notice_keepsBit b bit d0 d1 d2 c i, within.parts_same, fun off untouched => ?_⟩
  refine within.words_same off ?_
  simpa [Touch.noting] using untouched

end Sys2Proof.Machine
end

section /-! PROOFS of the family 01_architecture: power, requests for a mode, sorters, and the ports. -/
namespace Sys2Proof.Machine
variable {M : Nat} {s u x y : State} {c : Instr}

/-! ### Every command completes, and the reset state -/

/-- No command stops the block: what it turns away is a next state too. -/
theorem exec_completes (c : Instr) (s : State) : ∃ u, exec c s = .next u := by
  cases c
  case napEntry | scheduledWake | offEntry | itemEnd | itemTimeLimit | flowStateCopyDone | modTimeout | lbCommandFetched | bmeOff
      | perst | reasmTimeout | tcpConnected | tcpConnFail | tcpReconnect | pendingTimeout | refusedExpiry | announceTimeout | leapPending
      | leap | clustering | almOeNChange | pcieLinkUp | busMasteringOn | sorterWakeDone =>
    simp only [exec, execNapEntry, execScheduledWake, execOffEntry, execItemEnd, execItemTimeLimit, execFlowStateCopyDone, execModTimeout,
      execLbCommandFetched, execBmeOff, execPerst, execReasmTimeout, execTcpConnected, execTcpConnFail, execTcpReconnect,
      execPendingTimeout, execRefusedExpiry, execAnnounceTimeout, execLeapPending, execLeap, execClustering, execAlmOeNChange,
      execPcieLinkUp, execBusMasteringOn, execSorterWakeDone]
    split <;> exact ⟨_, rfl⟩
  case itemExpiry | cfgRequestTimer | rgooseHoldLetter =>
    simp only [exec, execItemExpiry, execCfgRequestTimer, execRgooseHoldLetter]
    split
    · exact ⟨_, rfl⟩
    · split <;> exact ⟨_, rfl⟩
  case fileLetter | dispatch | groupUpdate | defUpdate | coherencyUpdate | separation | machineStep =>
    simp only [exec, execFileLetter, execDispatch, execGroupUpdate, execDefUpdate, execCoherencyUpdate, execSeparation, execMachineStep]
    split
    · split <;> exact ⟨_, rfl⟩
    · exact ⟨_, rfl⟩
  case housekeepingTimer kind t =>
    simp only [exec, execHousekeepingTimer]
    split
    · exact ⟨_, rfl⟩
    · cases kind <;> exact ⟨_, rfl⟩
  case ringPcieError lb ring =>
    simp only [exec, execRingPcieError]
    split
    · exact ⟨_, rfl⟩
    · split <;> split <;> exact ⟨_, rfl⟩
  case timeCommitApply =>
    simp only [exec, execTimeCommitApply]
    split
    · exact ⟨_, rfl⟩
    · split
      · exact ⟨_, rfl⟩
      · split <;> exact ⟨_, rfl⟩
  all_goals exact ⟨_, rfl⟩

/-- Settles O60: every command completes, and what stands afterwards is the frame that holds of every step. -/
theorem everyCommandCompletes : Obligations.EveryCommandCompletes := by
  intro c s
  obtain ⟨u, h⟩ := exec_completes c s
  exact ⟨u, h, (exec_within c s u h).frame⟩

/-- Settles O3: the reset state computes, and no word of it is stored. -/
theorem resetState : Obligations.ResetState := ⟨rfl, rfl, rfl, by decide, fun _ => rfl⟩

/-! ### Power: who may change it -/

theorem exec_keeps_powered (h : exec c s = .next u) (k : (mayTouch c).parts.contains .power = false) :
    u.powered = s.powered :=
  (exec_within c s u h).frame.parts_same .power (by simpa using k)

/-- The commands that may change whether the main domain has power. -/
theorem power_touched (c : Instr) : (mayTouch c).parts.contains .power =
    match c with
    | .coldStart _ | .supplyTrip _ _ _ | .porstNAssert _ | .startRetry _ => true
    | _ => false := by
  cases c <;> rfl

theorem Within.mono {N : Nat} {t : State} (h : Within N s t) (k : Incl N M) : Within M s t := by
  have below : ∀ i, M.testBit i = false → N.testBit i = false := fun i hi => by
    rw [← k, Nat.testBit_or, Bool.or_eq_false_iff] at hi; exact hi.1
  exact ⟨fun p hp => h.parts p (below _ hp), fun o ho => h.words o (below _ ho)⟩

theorem Within.mode {t : State} (h : Within M s t) (power : M.testBit 0 = false) (glb : M.testBit 33 = false) : t.mode = s.mode := by
  unfold State.mode
  rw [show t.powered = s.powered from h.parts .power power, h.rd (f := Reg.GLB_MODE_CUR) rfl rfl glb]

theorem State.mode_of_unpowered (h : s.powered = false) : s.mode = .backup := by simp [State.mode, h]

theorem State.powerCut_powered : s.powerCut.powered = false := by
  unfold State.powerCut
  split
  · rfl
  · simpa using ‹¬s.powered = true›

theorem State.powerCut_unpowered (h : s.powered = false) : s.powerCut = s := by simp [State.powerCut, h]

/-! ### Reset kinds -/
def resetFields (p : RKind → Bool) (off : Nat) (w : Word) : Word :=
  (fieldsAt off).foldl (fun w f => if p f.kind then f.put w f.reset else w) w

theorem sget_of_unlisted {α : Type} {m : List (Nat × α)} {k : Nat} {d : α} (h : k ∉ m.map (·.1)) : sget m k d = d := by
  induction m with
  | nil => rfl
  | cons e r ih =>
    simp only [List.map_cons, List.mem_cons, not_or] at h
    rw [sget, if_neg (Ne.symm h.1), ih h.2]

theorem State.resetKinds_word_holds {p : RKind → Bool} {off : Nat} {Q : Word → Prop} (atReset : Q (resetWord off))
    (written : ∀ w, Q (resetFields p off w)) : Q ((s.resetKinds p).word off) := by
  have run : ∀ (offs : List Nat) (a : State), off ∈ offs ∨ Q (a.word off) →
      Q ((forEach offs (fun o a => a.setWord o (resetFields p o (a.word o))) a).word off) := by
    intro offs
    induction offs with
    | nil => intro a h; exact h.resolve_left (by simp)
    | cons o r ih =>
      intro a h
      refine ih _ ?_
      by_cases e : off = o
      · subst e; right; rw [State.word_setWord]; exact written _
      · rw [State.word_setWord_ne _ _ e]
        exact h.imp_left fun m => (List.mem_cons.mp m).resolve_left e
  refine run _ s ?_
  by_cases m : off ∈ s.regs.map (·.1)
  · exact .inl m
  · right; unfold State.word; rw [sget_of_unlisted m]; exact atReset

theorem State.resetKinds_word_kept {p : RKind → Bool} {off : Nat} (h : ∀ w, resetFields p off w = w) :
    (s.resetKinds p).word off = s.word off := by
  unfold State.resetKinds
  have run : ∀ (offs : List Nat) (a : State),
      (forEach offs (fun o a => a.setWord o (resetFields p o (a.word o))) a).word off = a.word off := by
    intro offs
    induction offs with
    | nil => intro a; rfl
    | cons o r ih =>
      intro a
      refine (ih _).trans ?_
      by_cases e : off = o
      · subst e; rw [State.word_setWord, h]
      · exact State.word_setWord_ne _ _ e
  exact run _ s


/-- A field of the word at an offset that shares no bit with another, holds its reset value, and fits the word. -/
def Fld.standsIn (f : Fld) (off : Nat) : Bool :=
  f.sane && decide (f.reset < 2 ^ f.width) && (fieldsAt off).contains f && f.get (resetWord off) == f.reset &&
    (fieldsAt off).all fun g => g == f || g.sane && (decide (g.hi < f.lo) || decide (f.hi < g.lo))

/-- A field of a kind that is reset takes its reset value. -/
theorem Fld.get_resetFields {f : Fld} {off : Nat} (h : f.standsIn off = true) {p : RKind → Bool} (hp : p f.kind = true) (w : Word) :
    f.get (resetFields p off w) = f.reset := by
  simp only [Fld.standsIn, Bool.and_eq_true, decide_eq_true_eq, List.contains_iff_mem, List.all_eq_true, Bool.or_eq_true, beq_iff_eq] at h
  obtain ⟨⟨⟨⟨sane, fits⟩, mem⟩, -⟩, apart⟩ := h
  have run : ∀ (l : List Fld) (w : Word), (∀ g ∈ l, g = f ∨ g.sane = true ∧ (g.hi < f.lo ∨ f.hi < g.lo)) → f ∈ l ∨ f.get w = f.reset →
      f.get (l.foldl (fun w f => if p f.kind then f.put w f.reset else w) w) = f.reset := by
    intro l
    induction l with
    | nil => intro w _ h; exact h.resolve_left (by simp)
    | cons g r ih =>
      intro w apart h
      refine ih _ (fun g m => apart g (List.mem_cons_of_mem _ m)) ?_
      rcases apart g List.mem_cons_self with rfl | ⟨gSane, d⟩
      · right; dsimp only; rw [if_pos hp, Fld.get_put sane, Nat.mod_eq_of_lt fits]
      · have other : f.get (if p g.kind then g.put w g.reset else w) = f.get w := by
          split
          · exact Fld.get_put_ne gSane sane d _ _
          · rfl
        rw [other]
        refine h.imp_left fun m => (List.mem_cons.mp m).resolve_left fun e => ?_
        subst e
        simp only [Fld.sane, Bool.and_eq_true, decide_eq_true_eq] at sane
        omega
  exact run _ w apart (.inl mem)

theorem State.rd_resetKinds {f : Fld} {idx : List Nat} (h : f.standsIn (f.off idx) = true) {p : RKind → Bool} (hp : p f.kind = true) :
    (s.resetKinds p).rd f idx = f.reset := by
  refine State.resetKinds_word_holds (Q := fun w => f.get w = f.reset) ?_ (Fld.get_resetFields h hp)
  simp only [Fld.standsIn, Bool.and_eq_true, beq_iff_eq] at h
  exact h.1.2

theorem State.rd_resetKinds_kept {f : Fld} {idx : List Nat} {p : RKind → Bool} (h : (fieldsAt (f.off idx)).all (fun g => !p g.kind) = true) :
    (s.resetKinds p).rd f idx = s.rd f idx := by
  unfold State.rd
  rw [State.resetKinds_word_kept fun w => ?_]
  have run : ∀ (l : List Fld), l.all (fun g => !p g.kind) = true → ∀ w : Word,
      l.foldl (fun w f => if p f.kind then f.put w f.reset else w) w = w := by
    intro l
    induction l with
    | nil => intro _ w; rfl
    | cons g r ih =>
      intro h w
      simp only [List.all_cons, Bool.and_eq_true, Bool.not_eq_true'] at h
      rw [List.foldl_cons, h.1]
      exact ih h.2 w
  exact run _ h w

/-! ### A cold start -/

/-- What a cold reset does to the words of GLB, STRT and the backup domain: nothing but the reset of their kinds. -/
theorem State.coldReset_rd {f : Fld} {idx : List Nat} (ok : idxOk f.dims idx = true) (fits : f.fits = true)
    (out : (0x11900001000000 : Nat).testBit (32 + areaOf f.base) = false) :
    s.coldReset.rd f idx = ((s.coldClear.startClear).resetKinds fun z => z == .c || z == .w || z == .d).rd f idx :=
  Within.rd (M := 0x11900001000000) (State.staged_in rfl (State.showOe_in rfl (.refl _))) ok fits out

theorem State.coldReset_reset {f : Fld} {idx : List Nat} (ok : idxOk f.dims idx = true) (fits : f.fits = true)
    (out : (0x11900001000000 : Nat).testBit (32 + areaOf f.base) = false) (stands : f.standsIn (f.off idx) = true) 
    (kind : (f.kind == .c || f.kind == .w || f.kind == .d) = true) :
    s.coldReset.rd f idx = f.reset := by
  rw [State.coldReset_rd ok fits out, State.rd_resetKinds stands kind]

theorem State.coldReset_bkdSec : s.coldReset.bkdSec = s.bkdSec := by
  unfold State.bkdSec
  rw [State.coldReset_rd rfl rfl (by decide), State.coldReset_rd rfl rfl (by decide),
    State.rd_resetKinds_kept (by decide), State.rd_resetKinds_kept (by decide)]
  rfl

theorem State.coldTime_now : s.coldTime.now = s.bkdSec * second := by
  have rest : Within 0x410000100a01004 s.loadTime s.coldTime := by
    unfold State.coldTime
    extract_lets loaded began steered osc due
    have h1 : Within 0x410000100a01004 loaded steered := State.steerFrame_in rfl (.set_strt (.refl _) rfl)
    have h2 : Within 0x410000100a01004 loaded osc := .ite h1 fun h => State.notice_in rfl (State.logEvent_in rfl h)
    exact .forEach (.set_bkd h2 rfl) fun _ _ h => State.notice_in rfl h
  exact rest.parts .now rfl

theorem State.coldBegin_eq (s : State) (kind src : Nat) : ∃ b x : State, b.powered = true ∧ b.bkdSec = s.bkdSec ∧
    Within 0x410000100800004 (b.coldReset.showStart kind src false).coldTime x ∧
    s.coldBegin kind src = if kind = 1 then x.wr Reg.GLB_MODE_CAUSE [] 12 else x := by
  unfold State.coldBegin
  extract_lets counted idle _ lit timed ops
  have kept : Within 0x10000001003004 s idle :=
    State.flashAbandon_in rfl (.ite (State.countOpsec_in rfl (.refl s)) fun _ => .refl s)
  refine ⟨lit, ops, rfl, ?_, .ite (.refl _) (State.startOps_in rfl), rfl⟩
  show idle.bkdSec = s.bkdSec
  unfold State.bkdSec
  rw [kept.rd rfl rfl (by decide), kept.rd rfl rfl (by decide)]

/-- What every cold start shows when it begins: LOADING in phase 1, how it was triggered, and the time of the backup clock. -/
structure State.startedCold (s u : State) (kind src : Nat) : Prop where
  powered : u.powered = true
  mode : u.mode = .loading
  phase : u.rd Reg.STRT_STAT_PHASE [] = 1
  kind : u.rd Reg.STRT_STAT_KIND [] = kind
  src : u.rd Reg.STRT_STAT_SRC [] = src
  now : u.now = s.bkdSec * second
  queue : u.pending = s.pending

theorem State.showStart_rd (s : State) (kind src : Nat) :
    (s.showStart kind src false).rd Reg.STRT_STAT_PHASE [] = s.rd Reg.STRT_STAT_PHASE [] ∧
    (s.showStart kind src false).rd Reg.STRT_STAT_KIND [] = kind % 4 ∧
    (s.showStart kind src false).rd Reg.STRT_STAT_SRC [] = src % 8 := by
  unfold State.showStart State.setFlag
  refine ⟨?_, ?_, ?_⟩
  · rw [State.rd_wr_bits _ _ rfl rfl (by decide), State.rd_wr_bits _ _ rfl rfl (by decide), State.rd_wr_bits _ _ rfl rfl (by decide)]
  · rw [State.rd_wr_bits _ _ rfl rfl (by decide), State.rd_wr_bits _ _ rfl rfl (by decide), State.rd_wr_same _ _ rfl rfl]
    rfl
  · rw [State.rd_wr_bits _ _ rfl rfl (by decide), State.rd_wr_same _ _ rfl rfl]
    rfl

theorem State.coldReset_cur : s.coldReset.rd Reg.GLB_MODE_CUR [] = 1 := State.coldReset_reset rfl rfl (by decide) (by decide) rfl

theorem State.coldReset_phase : s.coldReset.rd Reg.STRT_STAT_PHASE [] = 1 := State.coldReset_reset rfl rfl (by decide) (by decide) rfl

theorem State.coldBegin_starts (s : State) {kind src : Nat} (hk : kind < 4) (hs : src < 8) : s.startedCold (s.coldBegin kind src) kind src := by
  obtain ⟨b, x, power, clock, rest, eq⟩ := s.coldBegin_eq kind src
  obtain ⟨phase, kindShown, srcShown⟩ := b.coldReset.showStart_rd kind src
  have showing : Within 0x400000000 b.coldReset (b.coldReset.showStart kind src false) := State.showStart_in rfl (.refl _)
  have caused : Within 0x200000000 x (s.coldBegin kind src) := by
    rw [eq]; exact .ite (.refl x) (State.wr_in rfl)
  have settled : Within 0x410000300800004 (b.coldReset.showStart kind src false).coldTime (s.coldBegin kind src) :=
    (rest.mono rfl).trans (caused.mono rfl)
  have shown : Within 0x410000300a01106 (b.coldReset.showStart kind src false) (s.coldBegin kind src) :=
    (State.coldTime_in rfl (.refl _)).trans (settled.mono rfl)
  have whole : Within 0x3fffffffffff01fffffe b (s.coldBegin kind src) :=
    (State.coldReset_in rfl (.refl b)).trans ((showing.mono rfl).trans (shown.mono rfl))
  have lit : (s.coldBegin kind src).powered = true := (whole.parts .power rfl).trans power
  have cur : (s.coldBegin kind src).rd Reg.GLB_MODE_CUR [] = 1 := by
    have before : x.rd Reg.GLB_MODE_CUR [] = 1 := by
      rw [rest.rd rfl rfl (by decide), (State.coldTime_in (M := 0x410000100a01106) rfl (.refl _)).rd rfl rfl (by decide),
        showing.rd rfl rfl (by decide), State.coldReset_cur]
    rw [eq]
    split
    · rw [State.rd_wr_bits _ _ rfl rfl (by decide), before]
    · exact before
  refine ⟨lit, ?_, ?_, ?_, ?_, ?_, ?_⟩
  · unfold State.mode; rw [lit, cur]; rfl
  · rw [shown.rd rfl rfl (by decide), phase, State.coldReset_phase]
  · rw [shown.rd rfl rfl (by decide), kindShown, Nat.mod_eq_of_lt hk]
  · rw [shown.rd rfl rfl (by decide), srcShown, Nat.mod_eq_of_lt hs]
  · rw [show (s.coldBegin kind src).now = _ from settled.parts .now rfl, State.coldTime_now, ← clock, ← State.coldReset_bkdSec (s := b)]
    unfold State.bkdSec
    rw [showing.rd rfl rfl (by decide), showing.rd rfl rfl (by decide)]
  · exact (State.coldBegin_in (M := 0x3fffffffffff01ffffff) rfl (.refl s)).parts .queue rfl

/-- Settles O9: of the four commands that may touch the power, a start gives the block its power and a cut takes it. -/
theorem powerChangesOnlyByStartOrCut : Obligations.PowerChangesOnlyByStartOrCut := by
  intro c s u h
  cases touched : (mayTouch c).parts.contains .power
  case false =>
    have same := exec_keeps_powered h touched
    exact ⟨fun dark lit => by simp [same, dark] at lit, fun lit dark => by simp [same, lit] at dark⟩
  case true =>
    rw [power_touched] at touched
    split at touched
    case h_1 t =>
      refine ⟨fun _ _ => .inl ⟨t, rfl⟩, fun lit dark => ?_⟩
      cases h
      simp [lit] at dark
    case h_2 t high rail =>
      cases h
      exact ⟨fun _ lit => by simp [State.powerCut_powered] at lit, fun _ _ => .inl ⟨t, high, rail, rfl⟩⟩
    case h_3 t =>
      cases h
      exact ⟨fun _ lit => by simp [State.powerCut_powered] at lit, fun _ _ => .inr ⟨t, rfl⟩⟩
    case h_4 t =>
      refine ⟨fun _ _ => .inr ⟨t, rfl⟩, fun lit dark => ?_⟩
      cases h
      split at dark
      · split at dark
        · simp [((s.advance t).coldBegin_starts (kind := 1) (src := 1) (by decide) (by decide)).powered] at dark
        · simp [lit] at dark
      · simp [lit] at dark
    case h_5 => cases touched


theorem State.flashPut_nvs (s : State) (a : Nat) (bs : List Byte) : ∃ fl, (s.flashPut a bs).nvs = { s.nvs with flash := fl } := by
  unfold State.flashPut
  generalize bs.zipIdx = xs
  induction xs generalizing s with
  | nil => exact ⟨s.nvs.flash, rfl⟩
  | cons x r ih => exact ih _

theorem State.flashAbandon_banks (s : State) : s.flashAbandon.nvs.bankA = s.nvs.bankA ∧ s.flashAbandon.nvs.bankB = s.nvs.bankB ∧
    s.flashAbandon.nvs.sel = s.nvs.sel := by
  unfold State.flashAbandon
  split
  · exact ⟨rfl, rfl, rfl⟩
  · extract_lets _ _ freed
    obtain ⟨fl, eq⟩ := freed.flashPut_nvs _ _
    rw [eq]
    exact ⟨rfl, rfl, rfl⟩

theorem State.powerCut_log (lit : s.powered = true) :
    s.powerCut.log = { s.log with stage := [], lostSince := 0, live := none, repd := false, clearEv := none } := by
  have log : s.flashAbandon.log = s.log := (State.flashAbandon_in (M := 0x1002000) rfl (.refl s)).parts .log rfl
  simp [State.powerCut, lit, log]

theorem State.powerCut_nvs (lit : s.powered = true) : s.powerCut.nvs = s.flashAbandon.nvs := by simp [State.powerCut, lit]

/-- An operation that touches no area leaves every word. -/
theorem Within.word {t : State} (h : Within M s t) (small : M < 2 ^ 32) (off : Nat) : t.word off = s.word off :=
  h.words off (Nat.testBit_lt_two_pow (Nat.lt_of_lt_of_le small (Nat.pow_le_pow_right (by decide) (Nat.le_add_right _ _))))

theorem State.advance_unchanged {t : Time} (h : t ≤ s.now) : s.advance t = s := by
  unfold State.advance; rw [Nat.max_eq_left h]

theorem exec_cut_of_unpowered {t : Time} (dark : s.powered = false) (past : t ≤ s.now) :
    (∀ high rail, exec (.supplyTrip t high rail) s = .next s) ∧ exec (.porstNAssert t) s = .next s := by
  have same : (s.advance t).powerCut = s := by rw [State.advance_unchanged past, State.powerCut_unpowered dark]
  exact ⟨fun _ _ => congrArg _ same, congrArg _ same⟩

theorem exec_registerWrite_of_unpowered (dark : s.powered = false) (addr : Nat) (w : Word) (be : Fin 16) :
    exec (.registerWrite addr w be) s = .next s := by
  simp [exec, execRegisterWrite, State.responds_unpowered dark]

/-- Settles O11, by what a cut does to the Logbook, to the store of the banks and to the words of BAR0. -/
theorem powerCutEntersBackup : Obligations.PowerCutEntersBackup := by
  intro t high rail s lit
  have kept : Within 0x1002005 (s.advance t) (s.advance t).powerCut := State.powerCut_in rfl (.refl _)
  have dark : (s.advance t).powerCut.powered = false := State.powerCut_powered
  have now : (s.advance t).powerCut.now = max s.now t := kept.parts .now rfl
  obtain ⟨bankA, bankB, sel⟩ := (s.advance t).flashAbandon_banks
  obtain ⟨trip, porst⟩ := exec_cut_of_unpowered (t := t) dark (by rw [now]; exact Nat.le_max_right _ _)
  have log := State.powerCut_log (s := s.advance t) lit
  have nvs := State.powerCut_nvs (s := s.advance t) lit
  refine ⟨(s.advance t).powerCut, rfl, rfl, State.mode_of_unpowered dark, dark, now, by rw [log], by rw [log]; rfl, by rw [log]; rfl,
    kept.parts .key rfl, by rw [nvs]; exact bankA, by rw [nvs]; exact bankB, by rw [nvs]; exact sel, kept.parts .bkd rfl,
    kept.word (by decide), kept.parts .queue rfl, trip high rail, porst, exec_registerWrite_of_unpowered dark⟩

/-- Settles O12: both triggers run the same begin of a cold start. -/
theorem coldStartEntersLoading : Obligations.ColdStartEntersLoading := by
  refine ⟨fun t s dark => ?_, fun t r s loading due passed => ?_⟩
  · have begun := (s.advance t).coldBegin_starts (kind := 0) (src := 0) (by decide) (by decide)
    exact ⟨_, by simp [exec, execColdStart, dark], begun.powered, begun.mode, begun.phase, begun.kind, begun.src, begun.now, begun.queue⟩
  · have begun := (s.advance t).coldBegin_starts (kind := 1) (src := 1) (by decide) (by decide)
    refine ⟨(s.advance t).coldBegin 1 1, ?_, begun.powered, begun.mode, begun.phase, begun.kind, begun.src, ?_, begun.queue⟩
    · simp [exec, execStartRetry, loading, due, passed]
    · obtain ⟨b, x, -, -, -, eq⟩ := (s.advance t).coldBegin_eq 1 1
      rw [eq, if_pos rfl, State.rd_wr_same _ _ rfl rfl]
      rfl

/-! ### A sequencer fault where the mode is BACKUP -/

/-- The main domain has power and GLB_MODE.CUR holds code 0, which stands for no mode but BACKUP. -/
def poweredInBackup : State := { State.reset with powered := true, regs := [(0x10, 0#32)] }

/-- There a sequencer fault fences nothing, as in BACKUP. -/
theorem exec_sequencerFault_poweredInBackup : exec (.sequencerFault 0 0) poweredInBackup = .next poweredInBackup := by
  rfl

/-- Refutes O17: a state may hold power while GLB_MODE.CUR shows BACKUP's code, and there a sequencer fault does not fence the sorter. -/
theorem not_sorterAndMemoryErrors : ¬ Obligations.SorterAndMemoryErrors := by
  intro h
  obtain ⟨⟨fault, -, -⟩, -⟩ := h
  have fenced := (fault 0 0 poweredInBackup rfl).1 (by decide)
  rw [exec_sequencerFault_poweredInBackup] at fenced
  injection fenced with same
  have bit := congrArg (fun s => s.fenced 0) same
  revert bit
  decide +kernel

/-! ### What reports leave -/

/-- What every step of a fold keeps holds after it. -/
theorem forEach_holds {α : Type} {P : State → Prop} {f : α → State → State} (xs : List α) (h : P x) (hf : ∀ a y, P y → P (f a y)) :
    P (forEach xs f x) := by
  unfold Machine.forEach
  induction xs generalizing x with
  | nil => exact h
  | cons a r ih => exact ih (hf a x h)

/-- From `s` to `t` no bit of a NOTICE register is cleared, what each sorter holds stands, and no wake is counted. -/
structure Reports (s t : State) : Prop where
  bits : ∀ b i : Nat, s.noticed b i → t.noticed b i
  sorters : t.sof.srts = s.sof.srts
  wakes : ∀ n : Fin 64, t.rd Reg.SRT_WAKES [n] = s.rd Reg.SRT_WAKES [n]

theorem Reports.refl (s : State) : Reports s s := ⟨fun _ _ h => h, rfl, fun _ => rfl⟩

theorem Reports.trans (h : Reports s x) (k : Reports x y) : Reports s y :=
  ⟨fun b i e => k.bits b i (h.bits b i e), k.sorters.trans h.sorters, fun n => (k.wakes n).trans (h.wakes n)⟩

theorem Within.keepsNotices (h : Within M x y) (notices : M.testBit 32 = false) (b i : Nat) (on : x.noticed b i) : y.noticed b i := by
  unfold State.noticed
  rw [h.words _ (by rw [noticeOff_area]; exact notices)]
  exact on

theorem Within.srtWakes (h : Within M x y) (rows : M.testBit 63 = false) (n : Fin 64) :
    y.rd Reg.SRT_WAKES [n] = x.rd Reg.SRT_WAKES [n] :=
  h.rd (by simp [idxOk, Reg.SRT_WAKES]) (by decide) rows

theorem Within.reports (h : Within M x y) (sof : M.testBit 3 = false) (notices : M.testBit 32 = false) (rows : M.testBit 63 = false) :
    Reports x y :=
  ⟨h.keepsNotices notices, congrArg SofSt.srts (h.parts .sof sof), h.srtWakes rows⟩

/-- An operation after reports, where it touches neither the sorting office's state, nor a notice, nor a sorter's row. -/
theorem Reports.then (h : Reports s x) (k : Within M x y) (sof : M.testBit 3 = false) (notices : M.testBit 32 = false)
    (rows : M.testBit 63 = false) : Reports s y := h.trans (k.reports sof notices rows)

theorem Reports.set_sof {f : SofSt} (h : Reports s x) (srts : f.srts = x.sof.srts) : Reports s { x with sof := f } :=
  h.trans ⟨fun _ _ on => on, srts, fun _ => rfl⟩

theorem Reports.notice (h : Reports s x) (b bit d0 d1 d2 : Nat) : Reports s (x.notice b bit d0 d1 d2) :=
  h.trans ⟨fun c i => x.notice_keepsBit b bit d0 d1 d2 c i, congrArg SofSt.srts (x.notice_part b bit d0 d1 d2 .sof (by decide) (by decide)),
    (x.notice_within b bit d0 d1 d2).srtWakes rfl⟩

theorem Reports.noticeFirst (h : Reports s x) (b bit d0 d1 d2 : Nat) : Reports s (x.noticeFirst b bit d0 d1 d2) := by
  unfold State.noticeFirst
  split
  · exact h
  · exact h.notice ..

theorem Reports.forEach {α : Type} {f : α → State → State} (xs : List α) (h : Reports s x) (hf : ∀ a y, Reports s y → Reports s (f a y)) :
    Reports s (forEach xs f x) := forEach_holds xs h hf

/-! Rings, the Dead-Letter Office and the decision trace (R204 to R219). -/

theorem Reports.prShed (h : Reports s x) (r : Nat) : Reports s (x.prShed r) := by
  unfold State.prShed
  extract_lets counted dropping
  have shed : Within 0x40000000000000 x counted := State.incSat_in rfl rfl (State.inc_in rfl rfl (.refl x))
  have marked : Within 0x40000000000000 x dropping := .ite shed fun h => State.setFlag_in rfl rfl h
  exact (h.then marked rfl rfl rfl).noticeFirst ..

theorem Reports.prResume (h : Reports s x) (r : Nat) : Reports s (x.prResume r) := by
  unfold State.prResume
  split
  · exact (h.then (State.setFlag_in (M := 0x40000000000000) rfl rfl (.refl x)) rfl rfl rfl).notice ..
  · exact h

theorem Reports.prDeliver (h : Reports s x) (r typ info : Nat) (cut : Bool) (data : List Byte) : Reports s (x.prDeliver r typ info cut data) :=
  h.then (State.prDeliver_in (M := 0x440000000800010) rfl (.refl x)) rfl rfl rfl

theorem Reports.prPut (h : Reports s x) (r typ info : Nat) (data : List Byte) (cutRec : Option (List Byte)) :
    Reports s (x.prPut r typ info data cutRec).1 := by
  unfold State.prPut
  extract_lets _ _ numbered resumed
  have h1 : Reports s numbered := h.then (Within.set_hif (M := 0x10) (.refl x) rfl) rfl rfl rfl
  have h2 : Reports s resumed := h1.prResume r
  clear_value numbered resumed
  split
  · exact h1.prShed r
  · split
    · exact h2.prShed r
    · split
      · exact h2.prDeliver ..
      · split
        · split
          · exact ((h2.then (State.inc_in (M := 0x40000000000000) rfl rfl (.refl _)) rfl rfl rfl).noticeFirst ..).prDeliver ..
          · exact h2.prShed r
        · exact h2.prShed r

theorem Reports.offerSample (h : Reports s x) (code : Nat) (item : List Byte) : Reports s (x.offerSample code item) := by
  unfold State.offerSample
  split
  · exact h.forEach _ fun r y hy => hy.prPut ..
  · exact h

theorem Reports.dead (h : Reports s x) (code flow : Nat) (pm : Option Nat) (rec_ : Bool) (content : Option (List Byte)) :
    Reports s (x.dead code flow pm rec_ content) := by
  unfold State.dead
  extract_lets counted _ _ _ _ sampled _
  have h1 : Reports s counted := h.then (State.bump64_in (M := 0x10000000000) rfl rfl (.refl x)) rfl rfl rfl
  have h2 : Reports s sampled := h1.set_sof rfl
  split
  · exact h2.offerSample ..
  · exact h2

theorem Reports.trcStop (h : Reports s x) (stat : Nat) : Reports s (x.trcStop stat) :=
  (h.then (State.wr_in (M := 0x10000000000) rfl (.refl x)) rfl rfl rfl).notice ..

theorem Reports.trcFlush (h : Reports s x) : Reports s x.trcFlush := by
  unfold State.trcFlush
  split
  · exact h
  · extract_lets _ _ taken
    have h1 : Reports s taken := h.set_sof rfl
    split
    · refine h1.forEach _ fun r y hy => ?_
      have put := hy.prPut r 4 0 (x.sof.trace.take 64).flatten none
      split
      case h_1 e => rwa [e] at put
      case h_2 e => rw [e] at put; exact put.dead ..
    · exact h1

theorem Reports.traceEv (h : Reports s x) (ev cls srt flow aux seq : Nat) : Reports s (x.traceEv ev cls srt flow aux seq) := by
  unfold State.traceEv
  split
  · exact h
  · split
    · exact h.trcStop 2
    · extract_lets _ _ taken flushed _
      have h1 : Reports s flushed := Reports.trcFlush (h.set_sof rfl)
      split
      · exact h1.trcStop 3
      · exact h1

/-! Items and sorters that take them (R188). -/

/-- A write of a field of a sorter's row that is no count of wakes. -/
theorem Reports.wr_row {f : Fld} {n : Nat} (h : Reports s x) (v : Nat) (row : f.dims = [(0x40, 64)]) (other : f.base % 0x40 ≠ 0x18)
    (area : Incl (fldMask f) 0x8000000000000000) : Reports s (x.wr f [n] v) := by
  have k : Within 0x8000000000000000 x (x.wr f [n] v) := State.wr_in area (.refl x)
  refine h.trans ⟨k.keepsNotices rfl, by rw [State.wr_sof], fun m => State.rd_wr_off _ _ ?_⟩
  simp only [Fld.off, row, idxOff, Reg.SRT_WAKES]
  omega

theorem Reports.countDraws (h : Reports s x) (cs : List Nat) (cls srt flow seq : Nat) : Reports s (x.countDraws cs cls srt flow seq) :=
  h.forEach _ fun _ _ hy =>
    ((hy.then (State.inc_in (M := 0x10000000000) rfl rfl (.refl _)) rfl rfl rfl).notice ..).traceEv ..

theorem Reports.showDepth (h : Reports s x) (n : Nat) : Reports s (x.showDepth n) := h.wr_row _ rfl (by decide) rfl

theorem Reports.startItem (h : Reports s x) (i : Item) (n : Nat) : Reports s (x.startItem i n) := by
  unfold State.startItem
  extract_lets drawn wait waited _ serving
  have h1 : Reports s drawn := h.countDraws ..
  have h2 : Reports s waited := by
    unfold waited
    split
    · exact h1.wr_row _ rfl (by decide) rfl
    · exact h1
  have h3 : Reports s serving := h2.set_sof rfl
  exact Reports.then (Reports.showDepth (h3.traceEv ..) _) (State.showOcc_in (M := 0x10000000000) rfl (.refl _)) rfl rfl rfl

theorem Reports.countSteal (h : Reports s x) (n : Nat) (i : Item) : Reports s (x.countSteal n i) := by
  unfold State.countSteal
  extract_lets traced
  have h1 : Reports s traced := ((h.wr_row _ rfl (by decide) rfl).wr_row _ rfl (by decide) rfl).traceEv ..
  split
  · exact h1.then (State.stabWr_in (M := 0x2800000000000000) rfl rfl (.refl _)) rfl rfl rfl
  · exact h1

/-! ### Notices outlive the wakes of sorters -/

/-- From `s` to `t` no bit of a NOTICE register is cleared. -/
def KeepsNotices (s t : State) : Prop := ∀ b i : Nat, s.noticed b i → t.noticed b i

theorem KeepsNotices.forEach {α : Type} {f : α → State → State} (xs : List α) (h : KeepsNotices s x)
    (hf : ∀ a y, KeepsNotices s y → KeepsNotices s (f a y)) : KeepsNotices s (forEach xs f x) := forEach_holds xs h hf

theorem KeepsNotices.then (h : KeepsNotices s x) (k : Within M x y) (notices : M.testBit 32 = false) : KeepsNotices s y :=
  fun b i on => k.keepsNotices notices b i (h b i on)

theorem KeepsNotices.wake (h : KeepsNotices s x) (n : Nat) (sched : Option Time) : KeepsNotices s (x.wake n sched) := by
  unfold State.wake
  extract_lets hid
  split
  · exact h
  · split
    · exact h
    · have held : KeepsNotices s (x.setSrtHid n { hid with waking := some (x.now, x.srtState n, sched) }) :=
        h.then (State.setSrtHid_in (M := 0x8) rfl (.refl x)) rfl
      exact fun b i on => ((Reports.refl _).traceEv ..).bits b i (held b i on)

theorem KeepsNotices.tokens (h : KeepsNotices s x) : KeepsNotices s x.tokens := by
  unfold State.tokens
  extract_lets fresh ready
  have h1 : KeepsNotices s ready := h.then (State.mapItems_in (M := 0x8) rfl (.refl x)) rfl
  exact h1.forEach _ fun n y hy => (hy.then (State.showDepth_in (M := 0x8000000000000000) rfl (.refl y)) rfl).wake _ _

theorem KeepsNotices.wakeHoles (h : KeepsNotices s x) : KeepsNotices s x.wakeHoles := h.forEach _ fun _ _ hy => hy.wake _ _

theorem KeepsNotices.replaceWaiting (h : KeepsNotices s x) (p : Item → Bool) : KeepsNotices s (x.replaceWaiting p) := by
  unfold State.replaceWaiting
  exact .wakeHoles (.tokens (h.then (State.mapItems_in (M := 0x8) rfl (.refl x)) rfl))

theorem KeepsNotices.runRest (h : KeepsNotices s x) : KeepsNotices s x.runRest := by
  unfold State.runRest
  split
  · exact KeepsNotices.replaceWaiting
      (h.then (State.sortersOff_in (M := 0x200000000000808) rfl (Within.set_glb (.refl x) rfl)) rfl) _
  · exact h

theorem State.runCheck_keepsNotices (s : State) : KeepsNotices s s.runCheck := by
  have h : KeepsNotices s s := fun _ _ on => on
  unfold State.runCheck
  split
  · exact h
  · split
    · exact KeepsNotices.forEach _ (h.then (Within.set_glb (M := 0x800) (.refl s) rfl) rfl) fun n y hy => hy.wake _ _
    · exact h.runRest

/-! ### Transitions (R30, R35) -/

/-- What GLB_MODE.CUR and RUN_EN show in the word of a transition. -/
theorem State.modeWord_rd (s : State) (m : Mode) (cause : Nat) :
    (s.modeWord m cause).rd Reg.GLB_MODE_CUR [] = m.code ∧
    (s.modeWord m cause).rd Reg.GLB_MODE_RUN_EN [] = if m = .held then 0 else s.rd Reg.GLB_MODE_RUN_EN [] := by
  have code : m.code < 8 := by cases m <;> decide
  unfold State.modeWord
  extract_lets f run test
  have cur : f Reg.GLB_MODE_CUR < 8 := s.rd_lt _ _
  have deg : f Reg.GLB_MODE_DEG < 2 := s.rd_lt _ _
  have paired : f Reg.GLB_MODE_PAIRED < 2 := s.rd_lt _ _
  have runBit : run < 2 := by
    unfold run
    split
    · decide
    · exact s.rd_lt Reg.GLB_MODE_RUN_EN []
  have testBit : test < 2 := by unfold test; split <;> decide
  have shown (g : Fld) (h : g.off [] = 0x10) (n : Nat) :
      (s.setWord (Reg.GLB_MODE_CUR.off []) (BitVec.ofNat 32 n)).rd g [] = n % 2 ^ 32 / 2 ^ g.lo % 2 ^ g.width := by
    unfold State.rd
    rw [h, show Reg.GLB_MODE_CUR.off [] = 0x10 from rfl, State.word_setWord]
    rfl
  rw [shown Reg.GLB_MODE_CUR rfl, shown Reg.GLB_MODE_RUN_EN rfl]
  change _ / 2 ^ 0 % 2 ^ 3 = _ ∧ _ / 2 ^ 15 % 2 ^ 1 = run
  clear_value run test f
  omega

/-- What a transition may change besides GLB_MODE. -/
abbrev transitionMask : Nat := 0x219aed6fd25019bdebc

/-- After GLB_MODE is written, a transition leaves the GLB block and the supply of the main domain. -/
theorem State.modeTo_after (s : State) (m : Mode) (cause : Nat) : ∃ x : State, x.powered = s.powered ∧ x.word 0x10 = s.word 0x10 ∧
    Within transitionMask (x.modeWord m cause) (s.modeTo m cause) := by
  have left : ∀ c : Prop, [Decidable c] → Within 0x45041010081001c s (if c then s.nrgLeave else s) := fun c _ =>
    .ite (.refl s) fun h => State.nrgLeave_in rfl h
  unfold State.modeTo
  extract_lets was old gone moved _ served checked analysed since _ rested _ timed roled _ owing joined saved debug run _ waiting driven
  refine ⟨gone, (left _).parts .power rfl, (left _).words 0x10 (by decide), ?_⟩
  clear_value gone
  have h1 : Within transitionMask (gone.modeWord m cause) moved := State.armFollow_in rfl (State.notice_in rfl (.refl _))
  have h2 : Within transitionMask (gone.modeWord m cause) served := .ite h1 fun h => .set_nrg h rfl
  have h3 : Within transitionMask (gone.modeWord m cause) checked := .ite h2 fun h => State.clkSet_in rfl (State.checkCap_in rfl h)
  have h4 : Within transitionMask (gone.modeWord m cause) analysed := .ite h3 fun h => State.checkAnalysis_in rfl h
  have h5 : Within transitionMask (gone.modeWord m cause) rested := by
    unfold rested
    split
    · exact .set_glb h4 rfl
    · exact State.runRest_in rfl h4
  have h6 : Within transitionMask (gone.modeWord m cause) roled := State.wr_in rfl (.set_strt h5 rfl)
  have h7 : Within transitionMask (gone.modeWord m cause) owing := .ite h6 fun h => .set_pair h rfl
  have h8 : Within transitionMask (gone.modeWord m cause) joined := by
    unfold joined
    split
    · exact h7
    · exact State.setReady_in rfl (State.setFlag_in rfl rfl h7)
  have h9 : Within transitionMask (gone.modeWord m cause) saved := .ite h8 fun h => State.saveRec_in rfl (State.wr_in rfl h)
  have h10 : Within transitionMask (gone.modeWord m cause) debug := State.showDebug_in rfl h9
  have h11 : Within transitionMask (gone.modeWord m cause) run :=
    .ite (.ite h10 fun h => State.enterRun_in rfl h) fun _ => State.leaveRun_in rfl h10
  exact State.weighRoles_in rfl (State.partnerAlarm_in rfl (State.drivePins_in rfl (.set_alm h11 rfl)))

theorem Mode.ofCode_code (m : Mode) : Mode.ofCode m.code = m := by cases m <;> rfl

/-- A transition of a powered block ends in its mode; RUN_EN falls at entry to HELD and otherwise stands (R39). -/
theorem State.modeTo_glb (s : State) (m : Mode) (cause : Nat) (lit : s.powered = true) : (s.modeTo m cause).mode = m ∧
    (s.modeTo m cause).rd Reg.GLB_MODE_RUN_EN [] = if m = .held then 0 else s.rd Reg.GLB_MODE_RUN_EN [] := by
  obtain ⟨x, power, word, after⟩ := s.modeTo_after m cause
  obtain ⟨cur, run⟩ := x.modeWord_rd m cause
  have before : x.rd Reg.GLB_MODE_RUN_EN [] = s.rd Reg.GLB_MODE_RUN_EN [] := congrArg Reg.GLB_MODE_RUN_EN.get word
  constructor
  · unfold State.mode
    rw [after.rd rfl rfl (by decide), cur, Mode.ofCode_code, if_pos]
    rw [show (s.modeTo m cause).powered = _ from after.parts .power rfl]
    exact power.trans lit
  · rw [after.rd rfl rfl (by decide), run, before]

/-! ### Requests for a mode (R36, R38, R39) -/

theorem State.request_pending {target : Nat} {force : Bool} (busy : s.rd Reg.GLB_MODE_REQ_STATUS [] = 1) :
    s.request target force = s.wr Reg.GLB_MODE_REQ_REASON [] 2 := if_pos busy

theorem State.request_refused {target : Nat} {force : Bool} (idle : s.rd Reg.GLB_MODE_REQ_STATUS [] ≠ 1)
    (why : s.judge target force false ≠ 0) : s.request target force = s.reqEnd 3 (s.judge target force false) := by
  simp [State.request, idle, why]

theorem State.request_accepted {target : Nat} {force : Bool} (idle : s.rd Reg.GLB_MODE_REQ_STATUS [] ≠ 1)
    (ok : s.judge target force false = 0) : s.request target force = s.reqStart target force := by
  simp [State.request, idle, ok]

/-- A powered block takes a write of GLB_MODE_REQ in every mode. -/
theorem State.reqWrite_powered (lit : s.powered = true) (target : Nat) (force : Bool) : s.reqWrite target force = s.request target force := by
  have takes : s.responds (Reg.GLB_MODE_REQ_TARGET.off []) = true := by
    simp [State.responds, lit, Fld.off, Reg.GLB_MODE_REQ_TARGET, idxOff]
  simp [State.reqWrite, takes]

theorem State.judge_le (s : State) (target : Nat) (force bound : Bool) : s.judge target force bound ≤ 6 := by
  unfold State.judge
  split
  · decide
  · split
    · decide
    · split <;> decide

/-- The end of a request: its result, its notice, and the mode as it was. -/
theorem State.reqEnd_ends (s : State) {status reason : Nat} (hs : status < 4) (hr : reason < 16) :
    (s.reqEnd status reason).rd Reg.GLB_MODE_REQ_STATUS [] = status ∧ (s.reqEnd status reason).rd Reg.GLB_MODE_REQ_REASON [] = reason ∧
    (s.reqEnd status reason).noticed bGLB 1 ∧ (s.reqEnd status reason).mode = s.mode ∧
    (s.reqEnd status reason).rd Reg.GLB_MODE_RUN_EN [] = s.rd Reg.GLB_MODE_RUN_EN [] := by
  unfold State.reqEnd
  extract_lets _ free
  have sameRd : ∀ f : Fld, free.rd f [] = s.rd f [] := fun _ => rfl
  refine ⟨?_, ?_, State.notice_bit _ _ _ _ (by decide), ?_, ?_⟩
  · rw [State.rd_notice _ _ _ _ _ _ rfl rfl (by decide), State.rd_wr_bits _ _ rfl rfl (by decide), State.rd_wr_same _ _ rfl rfl]
    exact Nat.mod_eq_of_lt hs
  · rw [State.rd_notice _ _ _ _ _ _ rfl rfl (by decide), State.rd_wr_same _ _ rfl rfl]
    exact Nat.mod_eq_of_lt hr
  · rw [(State.notice_within _ _ _ _ _ _).mode rfl rfl]
    unfold State.mode
    rw [State.wr_powered, State.wr_powered, State.rd_wr_off _ _ (by decide), State.rd_wr_off _ _ (by decide)]
    rfl
  · rw [State.rd_notice _ _ _ _ _ _ rfl rfl (by decide), State.rd_wr_off _ _ (by decide), State.rd_wr_off _ _ (by decide)]
    rfl

/-- What an accepted request does before it waits or completes: REASON 0, and for a mode that runs nothing RUN_EN falls, and SERVICE uses
up its authorisation. -/
def State.reqPrep (s : State) (target : Nat) : State :=
  let s := s.wr Reg.GLB_MODE_REQ_REASON [] 0
  let s := if target = 2 ∨ target = 7 then (s.setFlag Reg.GLB_MODE_RUN_EN [] false).runCheck else s
  if target = 7 ∧ s.rd Reg.STRT_SVC_AUTH_STAT [] = 1 then s.wr Reg.STRT_SVC_AUTH_STAT [] 3 else s

/-- A request that waits: STATUS 1, its target and FORCE. -/
def State.reqWait (s : State) (target : Nat) (force : Bool) : State :=
  ({ s with glb := { s.glb with reqTarget := target, reqForce := force } } : State).wr Reg.GLB_MODE_REQ_STATUS [] 1

theorem State.reqStart_eq (s : State) (target : Nat) (force : Bool) : s.reqStart target force =
    let s := s.reqPrep target
    if target = 4 then ((({ s with pair := { s.pair with joinOver := false, runAt := s.now } } : State).setFlag Reg.GLB_MODE_RUN_EN [] true).reqEnd 2 0).runCheck
    else if target = 7 ∧ s.mode = .held then (s.modeTo .service 10).reqEnd 2 0
    else
      let s := s.reqWait target force
      if target = 3 then (if s.partnerReady then s.switchStart 5 else s.reqEnd 3 3)
      else if s.needsHandover then s.switchStart 5 else s := rfl

/-! ### A request that is accepted (R36, R38, R428) -/

theorem State.plkPut_switch (s : State) (typ : Nat) (last : Bool) (payload : List Byte) :
    (s.plkPut typ last payload).pair.switch = s.pair.switch := by
  unfold State.plkPut
  extract_lets f q u _ sent
  have emitted : Within 0x800000 sent (sent.plkEmit false f) := State.plkEmit_in rfl (.refl sent)
  refine (congrArg PairSt.switch (emitted.parts .pair rfl)).trans ?_
  unfold sent
  split <;> rfl

theorem State.plkSend_switch (s : State) (m : PlkMsg) : (s.plkSend m).pair.switch = s.pair.switch := by
  unfold State.plkSend
  split
  · rfl
  · extract_lets _ begun ps
    refine forEach_holds (P := fun a => a.pair.switch = s.pair.switch) _ ?_ fun x a same => (a.plkPut_switch ..).trans same
    unfold begun
    split <;> rfl

theorem State.switchStart_switch (s : State) (cause : Nat) : (s.switchStart cause).pair.switch.isSome = true := by
  unfold State.switchStart
  extract_lets
  rw [State.plkSend_switch]
  rfl

/-- Only the pair link's own state and its registers decide whether the partner is ready. -/
theorem Within.partnerReady {t : State} (h : Within M s t) (pair : M.testBit 14 = false) (area : M.testBit 49 = false) :
    t.partnerReady = s.partnerReady := by
  unfold State.partnerReady
  rw [h.flag (f := Reg.PAIR_STAT_PATH_A) rfl rfl area, h.flag (f := Reg.PAIR_STAT_PATH_B) rfl rfl area,
    show t.pair = s.pair from h.parts .pair pair]

theorem State.needsHandover_congr {t : State} (mode : t.mode = s.mode) (ready : t.partnerReady = s.partnerReady) :
    t.needsHandover = s.needsHandover := by
  unfold State.needsHandover State.leavesRole
  rw [mode, ready]

theorem State.wr_mode {f : Fld} {idx : List Nat} (off : Reg.GLB_MODE_CUR.off [] ≠ f.off idx) (v : Nat) : (s.wr f idx v).mode = s.mode := by
  unfold State.mode
  rw [State.wr_powered, State.rd_wr_off _ _ off]

/-- What stands, and what an accepted request for a mode that runs nothing has already changed, before it waits or completes. -/
structure State.stopped (s u : State) : Prop where
  powered : u.powered = s.powered
  mode : u.mode = s.mode
  partner : u.partnerReady = s.partnerReady
  reason : u.rd Reg.GLB_MODE_REQ_REASON [] = 0
  run : u.rd Reg.GLB_MODE_RUN_EN [] = 0

theorem State.reqPrep_stopped (s : State) {target : Nat} (h : target = 2 ∨ target = 7) : s.stopped (s.reqPrep target) := by
  unfold State.reqPrep
  extract_lets asked halted
  rw [show halted = (asked.setFlag Reg.GLB_MODE_RUN_EN [] false).runCheck from if_pos h]
  generalize stopping : asked.setFlag Reg.GLB_MODE_RUN_EN [] false = off
  have reasoned : Within 0x200000000 s off := stopping ▸ State.setFlag_in rfl rfl (State.wr_in rfl (.refl s))
  have checked : Within 0x865001010080081c off off.runCheck := State.runCheck_in rfl (.refl off)
  have rest : Within 0x865001050080081c off
      (if target = 7 ∧ off.runCheck.rd Reg.STRT_SVC_AUTH_STAT [] = 1 then off.runCheck.wr Reg.STRT_SVC_AUTH_STAT [] 3 else off.runCheck) :=
    .ite (checked.mono rfl) fun h => State.wr_in rfl h
  refine ⟨(rest.parts .power rfl).trans (reasoned.parts .power rfl), (rest.mode rfl rfl).trans ?_, ?_, ?_, ?_⟩
  · rw [← stopping]
    unfold State.mode State.setFlag
    rw [State.wr_powered, State.wr_powered, State.rd_wr_bits _ _ rfl rfl (by decide), State.rd_wr_off _ _ (by decide)]
  · exact (rest.partnerReady rfl rfl).trans (reasoned.partnerReady rfl rfl)
  · rw [rest.rd rfl rfl (by decide), ← stopping]
    unfold State.setFlag
    rw [State.rd_wr_off _ _ (by decide), State.rd_wr_same _ _ rfl rfl]
    rfl
  · rw [rest.rd rfl rfl (by decide), ← stopping]
    unfold State.setFlag
    rw [State.rd_wr_same _ _ rfl rfl]
    rfl

/-- A service authorisation is used up by the request that needs it. -/
theorem State.reqPrep_authUsed (s : State) : (s.reqPrep 7).rd Reg.STRT_SVC_AUTH_STAT [] ≠ 1 := by
  unfold State.reqPrep
  extract_lets _ halted
  split
  · rw [State.rd_wr_same _ _ rfl rfl]
    decide
  · simpa using ‹¬(7 = 7 ∧ halted.rd Reg.STRT_SVC_AUTH_STAT [] = 1)›

theorem State.reqPrep_run (s : State) {target : Nat} (h : ¬(target = 2 ∨ target = 7)) :
    s.reqPrep target = s.wr Reg.GLB_MODE_REQ_REASON [] 0 := by
  simp only [not_or] at h
  simp [State.reqPrep, h]

/-- A request waits, in a state to which a hand-over may add an offer to the partner. -/
structure State.waits (s u : State) (target : Nat) : Prop where
  status : u.rd Reg.GLB_MODE_REQ_STATUS [] = 1
  target : u.glb.reqTarget = target
  reason : u.rd Reg.GLB_MODE_REQ_REASON [] = s.rd Reg.GLB_MODE_REQ_REASON []
  run : u.rd Reg.GLB_MODE_RUN_EN [] = s.rd Reg.GLB_MODE_RUN_EN []
  auth : u.rd Reg.STRT_SVC_AUTH_STAT [] = s.rd Reg.STRT_SVC_AUTH_STAT []

theorem State.reqWait_waits (s : State) (target : Nat) (force : Bool) : s.waits (s.reqWait target force) target := by
  unfold State.reqWait
  refine ⟨State.rd_wr_same _ _ rfl rfl, by rw [State.wr_glb], ?_, ?_, ?_⟩
  · rw [State.rd_wr_bits _ _ rfl rfl (by decide)]; rfl
  · rw [State.rd_wr_off _ _ (by decide)]; rfl
  · rw [State.rd_wr_off _ _ (by decide)]; rfl

theorem State.waits.switchStart {target : Nat} (h : s.waits u target) (cause : Nat) : s.waits (u.switchStart cause) target := by
  have sent : Within 0x804000 u (u.switchStart cause) := State.switchStart_in rfl (.refl u)
  refine ⟨(sent.rd rfl rfl (by decide)).trans h.status, ?_, (sent.rd rfl rfl (by decide)).trans h.reason, 
    (sent.rd rfl rfl (by decide)).trans h.run, (sent.rd rfl rfl (by decide)).trans h.auth⟩
  rw [show (u.switchStart cause).glb = u.glb from sent.parts .glb rfl]
  exact h.target

theorem State.reqWait_mode (s : State) (target : Nat) (force : Bool) : (s.reqWait target force).mode = s.mode :=
  State.wr_mode (by decide) _

theorem State.reqWait_partnerReady (s : State) (target : Nat) (force : Bool) : (s.reqWait target force).partnerReady = s.partnerReady :=
  Within.partnerReady (M := 0x200000800) (State.wr_in rfl (.set_glb (.refl s) rfl)) rfl rfl

/-- A request for WATCH or SERVICE that does not complete at once waits, behind a hand-over where it needs one. -/
theorem State.reqStart_waits (s : State) {target : Nat} (force : Bool) (which : target = 2 ∨ target = 7)
    (later : ¬(target = 7 ∧ s.mode = .held)) :
    (s.reqPrep target).waits (s.reqStart target force) target ∧
    (s.needsHandover = true → (s.reqStart target force).pair.switch.isSome = true) := by
  have stop := s.reqPrep_stopped which
  have needs : ((s.reqPrep target).reqWait target force).needsHandover = s.needsHandover :=
    State.needsHandover_congr ((State.reqWait_mode ..).trans stop.mode) ((State.reqWait_partnerReady ..).trans stop.partner)
  rw [State.reqStart_eq]
  extract_lets prep _ wait
  rw [if_neg (by omega), if_neg (by rw [stop.mode]; exact later), if_neg (by omega), needs]
  have waiting := prep.reqWait_waits target force
  cases s.needsHandover
  · exact ⟨waiting, nofun⟩
  · exact ⟨waiting.switchStart 5, fun _ => wait.switchStart_switch 5⟩

/-- A request for SERVICE completes at once in HELD. -/
theorem State.reqStart_serviceFromHeld (s : State) (force : Bool) (lit : s.powered = true) (held : s.mode = .held) :
    (s.reqStart 7 force).mode = .service ∧ (s.reqStart 7 force).rd Reg.GLB_MODE_REQ_STATUS [] = 2 ∧
    (s.reqStart 7 force).rd Reg.GLB_MODE_RUN_EN [] = 0 := by
  have stop := s.reqPrep_stopped (target := 7) (by decide)
  obtain ⟨mode, run⟩ := (s.reqPrep 7).modeTo_glb .service 10 (stop.powered.trans lit)
  obtain ⟨status, -, -, same, runSame⟩ := ((s.reqPrep 7).modeTo .service 10).reqEnd_ends (status := 2) (reason := 0) (by decide) (by decide)
  rw [State.reqStart_eq]
  extract_lets prep
  rw [if_neg (by decide), if_pos ⟨rfl, stop.mode.trans held⟩]
  exact ⟨same.trans mode, status, by rw [runSame, run, if_neg (by decide), stop.run]⟩

/-- A request for run enable completes at once, and the conditions of run entry are evaluated (R39). -/
theorem State.reqStart_runEnable (s : State) (force : Bool) :
    (s.reqStart 4 force).rd Reg.GLB_MODE_REQ_STATUS [] = 2 ∧ (s.reqStart 4 force).flag Reg.GLB_MODE_RUN_EN [] = true ∧
    (s.reqStart 4 force).noticed bGLB 1 := by
  rw [State.reqStart_eq]
  extract_lets prep _ _
  rw [if_pos rfl]
  generalize ready : State.setFlag _ Reg.GLB_MODE_RUN_EN [] true = on
  have run : on.rd Reg.GLB_MODE_RUN_EN [] = 1 := by
    rw [← ready]; unfold State.setFlag; rw [State.rd_wr_same _ _ rfl rfl]; rfl
  obtain ⟨status, -, notice, -, runSame⟩ := on.reqEnd_ends (status := 2) (reason := 0) (by decide) (by decide)
  have checked : Within 0x865001010080081c (on.reqEnd 2 0) (on.reqEnd 2 0).runCheck := State.runCheck_in rfl (.refl _)
  refine ⟨(checked.rd rfl rfl (by decide)).trans status, ?_, State.runCheck_keepsNotices _ _ _ notice⟩
  unfold State.flag
  rw [checked.rd rfl rfl (by decide), runSame, run]
  rfl

/-- A switchover starts where the partner is ready, and is refused with REASON 3 where it is not. -/
theorem State.reqStart_switchover (s : State) (force : Bool) :
    (s.partnerReady = true → (s.wr Reg.GLB_MODE_REQ_REASON [] 0).waits (s.reqStart 3 force) 3 ∧
      (s.reqStart 3 force).pair.switch.isSome = true) ∧
    (s.partnerReady = false → (s.reqStart 3 force).rd Reg.GLB_MODE_REQ_STATUS [] = 3 ∧
      (s.reqStart 3 force).rd Reg.GLB_MODE_REQ_REASON [] = 3) := by
  have ready : ((s.wr Reg.GLB_MODE_REQ_REASON [] 0).reqWait 3 force).partnerReady = s.partnerReady :=
    (State.reqWait_partnerReady ..).trans (Within.partnerReady (M := 0x200000000) (State.wr_in rfl (.refl s)) rfl rfl)
  rw [State.reqStart_eq, State.reqPrep_run _ (by decide)]
  extract_lets asked _ wait
  rw [if_neg (by decide), if_neg (by simp), if_pos rfl]
  refine ⟨fun there => ?_, fun gone => ?_⟩
  · rw [if_pos (ready.trans there)]
    exact ⟨(asked.reqWait_waits 3 force).switchStart 5, wait.switchStart_switch 5⟩
  · rw [if_neg (by rw [ready, gone]; decide)]
    obtain ⟨status, reason, -⟩ := wait.reqEnd_ends (status := 3) (reason := 3) (by decide) (by decide)
    exact ⟨status, reason⟩

/-- Run enable is allowed from WATCH only (R38, check 2). -/
theorem State.judge_runEnable (h : s.mode ≠ .watch) (force bound : Bool) : s.judge 4 force bound = 1 := by
  have refused : s.targetOk 4 = false := by
    unfold State.targetOk
    split <;> simp_all
  simp [State.judge, refused]

theorem State.flag_eq_false {f : Fld} {idx : List Nat} (h : s.rd f idx = 0) : s.flag f idx = false := by
  unfold State.flag; rw [h]; rfl

/-- Settles O16: each request writes GLB_MODE_REQ, and the write is pending, refused or accepted by its first failing check. -/
theorem modeRequests : Obligations.ModeRequests := by
  have asks (force : Bool) (s : State) (lit : s.powered = true) : exec (.reqWatch force) s = .next (s.request 2 force) ∧
      exec (.reqSwitchover force) s = .next (s.request 3 force) ∧ exec (.reqRunEnable force) s = .next (s.request 4 force) ∧
      exec (.reqService force) s = .next (s.request 7 force) :=
    ⟨congrArg _ (State.reqWrite_powered lit _ _), congrArg _ (State.reqWrite_powered lit _ _), congrArg _ (State.reqWrite_powered lit _ _),
      congrArg _ (State.reqWrite_powered lit _ _)⟩
  have refusal (force : Bool) (s : State) (target : Nat) :=
    s.reqEnd_ends (status := 3) (reason := s.judge target force false) (by decide) (by have := s.judge_le target force false; omega)
  refine ⟨fun force s lit busy => ?_, fun force s lit idle => ?_, fun force s lit mode idle => ?_⟩
  · obtain ⟨watch, switchover, run, service⟩ := asks force s lit
    rw [watch, switchover, run, service]
    exact ⟨congrArg _ (State.request_pending busy), congrArg _ (State.request_pending busy), congrArg _ (State.request_pending busy),
      congrArg _ (State.request_pending busy)⟩
  · obtain ⟨watch, switchover, run, service⟩ := asks force s lit
    refine ⟨fun why => ?_, fun why => ?_, fun ok alone => ?_, fun ok ready => ?_, fun ok gone => ?_, fun ok => ?_, fun ok mode alone => ?_,
      fun ok held => ?_, fun needs => ⟨fun ok => ?_, fun ok => ?_⟩⟩
    · obtain ⟨status, reason, notice, same, -⟩ := refusal force s 2
      exact ⟨_, watch.trans (congrArg _ (State.request_refused idle why)), status, reason, notice, same⟩
    · obtain ⟨status, reason, notice, same, -⟩ := refusal force s 7
      exact ⟨_, service.trans (congrArg _ (State.request_refused idle why)), status, reason, notice, same⟩
    · have stop := s.reqPrep_stopped (target := 2) (by decide)
      obtain ⟨waits, -⟩ := s.reqStart_waits force (target := 2) (by decide) (by simp)
      exact ⟨_, watch.trans (congrArg _ (State.request_accepted idle ok)), waits.status, waits.reason.trans stop.reason,
        State.flag_eq_false (waits.run.trans stop.run), waits.target⟩
    · obtain ⟨waits, offered⟩ := (s.reqStart_switchover force).1 ready
      exact ⟨_, switchover.trans (congrArg _ (State.request_accepted idle ok)), waits.status, waits.target, offered⟩
    · exact ⟨_, switchover.trans (congrArg _ (State.request_accepted idle ok)), (s.reqStart_switchover force).2 gone⟩
    · exact ⟨_, run.trans (congrArg _ (State.request_accepted idle ok)), s.reqStart_runEnable force⟩
    · have stop := s.reqPrep_stopped (target := 7) (by decide)
      obtain ⟨waits, -⟩ := s.reqStart_waits force (target := 7) (by decide) (by simpa using mode)
      exact ⟨_, service.trans (congrArg _ (State.request_accepted idle ok)), waits.status, waits.target,
        State.flag_eq_false (waits.run.trans stop.run), by rw [waits.auth]; exact s.reqPrep_authUsed⟩
    · obtain ⟨mode, status, runOff⟩ := s.reqStart_serviceFromHeld force lit held
      exact ⟨_, service.trans (congrArg _ (State.request_accepted idle ok)), mode, status, State.flag_eq_false runOff⟩
    · obtain ⟨waits, offered⟩ := s.reqStart_waits force (target := 2) (by decide) (by simp)
      exact ⟨_, watch.trans (congrArg _ (State.request_accepted idle ok)), waits.status, waits.target, offered needs⟩
    · have mode : s.mode ≠ .held := fun held => by simp [State.needsHandover, State.leavesRole, held] at needs
      obtain ⟨waits, offered⟩ := s.reqStart_waits force (target := 7) (by decide) (by simpa using mode)
      exact ⟨_, service.trans (congrArg _ (State.request_accepted idle ok)), waits.status, waits.target, offered needs⟩
  · obtain ⟨-, -, run, -⟩ := asks force s lit
    have why : s.judge 4 force false = 1 := State.judge_runEnable mode force false
    obtain ⟨status, reason, -⟩ := refusal force s 4
    exact ⟨_, run.trans (congrArg _ (State.request_refused idle (by rw [why]; decide))), status, reason.trans why⟩

/-! ### Ports (R33, R42, R99, R100) -/

theorem sget_sset_same {α : Type} {m : List (Nat × α)} {k : Nat} {v d : α} : sget (sset m k v) k d = v :=
  sget_sput_same fun e he => by simpa [serase] using (List.mem_filter.mp he).2

@[simp] theorem State.port_setPort (s : State) (p : Nat) (v : PortSt) : (s.setPort p v).port p = v := sget_sset_same

theorem Within.port {t : State} (h : Within M s t) (net : M.testBit 5 = false) (p : Nat) : t.port p = s.port p := by
  unfold State.port; rw [show t.net = s.net from h.parts .net net]

/-- Is a data frame past its time? -/
theorem State.overdue_isSome (s : State) (f : TxFrame) : (s.overdue f).isSome = f.shedAt.any fun x => decide (x.1 ≤ s.now) := by
  unfold State.overdue
  cases f.shedAt with
  | none => rfl
  | some x => by_cases h : x.1 ≤ s.now <;> simp [Option.filter, h]

/-- A frame that is shed or sent leaves the pause shown for a port. -/
theorem State.startTx_paused (s : State) (f : TxFrame) (p : Fin 4) :
    (s.startTx f).flag Reg.NET_PORT_STAT_PAUSED [p] = s.flag Reg.NET_PORT_STAT_PAUSED [p] := by
  have counted (a : State) (g : Fld) (q : Nat) (row : g.dims = [(0x100, 4)]) (other : g.base % 0x100 ≠ 4) :
      (a.inc g [q]).flag Reg.NET_PORT_STAT_PAUSED [p] = a.flag Reg.NET_PORT_STAT_PAUSED [p] := by
    unfold State.flag State.inc
    rw [State.rd_wr_off]
    simp only [Fld.off, row, idxOff, Reg.NET_PORT_STAT_PAUSED]
    omega
  unfold State.startTx
  split
  case h_1 x _ =>
    unfold State.shedFrame
    obtain ⟨mark, known, content⟩ := s.bagMark x.1 x.2
    have buried : Within 0x45001010080001c ((s.inc Reg.NET_PORT_TX_SHED [f.port]).notice bNET 5 f.port 0 0) _ :=
      State.dead_in (p2 := 0x0C) (p3 := 0x4400 + x.1) (p4 := mark) (p5 := known) (p6 := content) rfl (.refl _)
    rw [buried.flag (by simp [idxOk, Reg.NET_PORT_STAT_PAUSED]) rfl rfl,
      (State.notice_within _ _ _ _ _ _).flag (by simp [idxOk, Reg.NET_PORT_STAT_PAUSED]) rfl rfl, counted _ _ _ rfl (by decide)]
  case h_2 =>
    extract_lets sent
    rw [State.flag_emit]
    unfold sent
    split
    · rfl
    · exact counted _ _ _ rfl (by decide)

/-- Within a flush of port `p`: what the port holds stands, and so does the pause it shows. -/
def State.samePause (s t : State) (p : Fin 4) : Prop :=
  t.port p = s.port p ∧ t.flag Reg.NET_PORT_STAT_PAUSED [p] = s.flag Reg.NET_PORT_STAT_PAUSED [p]

theorem State.samePause.startTx {p : Fin 4} (h : s.samePause x p) (f : TxFrame) : s.samePause (x.startTx f) p :=
  ⟨(Within.port (M := 0x45001210080001c) (State.startTx_in rfl (.refl x)) rfl p).trans h.1, (x.startTx_paused f p).trans h.2⟩

/-- What a port's pause no longer holds goes out: of the port only the queue changes, and the pause it shows stands. -/
theorem State.flushPort_port (s : State) (p : Fin 4) : ∃ queue, (s.setPort p { s.port p with queue := queue }).samePause (s.flushPort p) p := by
  unfold State.flushPort
  extract_lets v stay kept
  refine ⟨v.queue.filter stay, ?_⟩
  exact forEach_holds (P := fun a => kept.samePause a p) _ ⟨rfl, rfl⟩ fun c a h =>
    forEach_holds (P := fun a => kept.samePause a p) _ h fun f b k => k.startTx _

/-- A port's new pause state is the one given but for its queue, and PAUSED shows whether a pause is left. -/
theorem State.setPause_port (s : State) (p : Fin 4) (v : PortSt) : (∃ queue, (s.setPause p v).port p = { v with queue := queue }) ∧
    (s.setPause p v).flag Reg.NET_PORT_STAT_PAUSED [p] = v.held := by
  unfold State.setPause
  generalize shown : (s.setPort p v).setFlag Reg.NET_PORT_STAT_PAUSED [p] v.held = a
  have port : a.port p = v := by rw [← shown]; unfold State.port; rw [State.setFlag_net]; exact s.port_setPort p v
  have flag : a.flag Reg.NET_PORT_STAT_PAUSED [p] = v.held := by
    rw [← shown]; exact State.flag_setFlag_same _ _ rfl (by simp [idxOk, Reg.NET_PORT_STAT_PAUSED]) rfl
  obtain ⟨queue, same, paused⟩ := a.flushPort_port p
  refine ⟨⟨queue, ?_⟩, paused.trans flag⟩
  rw [same, State.port_setPort, port]

/-- The pause state of a port that a pause frame finds: a pause begins where none was held. -/
def State.pausing (s : State) (p : Nat) (t : Time) : PortSt :=
  { s.port p with pausedAt := if (s.port p).held then (s.port p).pausedAt else max s.now t }

theorem execPauseFrame_taken {p : Fin 4} {t : Time} (on : s.flag Reg.NET_PORT_CFG_EN [p] = true) (bound : s.rd Reg.NET_PAUSE_MAX_US [] ≠ 0)
    (cut : (s.port p).cut = false) :
    exec (.pauseFrame p none t) s =
      .next (((s.advance t).inc Reg.NET_PORT_RX_FRAMES [p]).setPause p { s.pausing p t with paused := true }) ∧
    ∀ k : Fin 8, exec (.pauseFrame p (some k) t) s = .next (if s.rd Reg.NET_EGR_PFC_MASK [] / 2 ^ k.val % 2 = 1 then
      ((s.advance t).inc Reg.NET_PORT_RX_FRAMES [p]).setPause p { s.pausing p t with prios := ((s.port p).prios ++ [k.val]).eraseDups }
      else (s.advance t).inc Reg.NET_PORT_RX_FRAMES [p]) := by
  have other (f : Fld) (one : f.dims = []) (far : f.base = 0x40400 ∨ f.base = 0x40410) :
      ((s.advance t).inc Reg.NET_PORT_RX_FRAMES [p]).rd f [] = s.rd f [] := by
    refine State.rd_wr_off _ _ ?_
    simp only [Fld.off, one, idxOff, Reg.NET_PORT_RX_FRAMES]
    omega
  have port : ((s.advance t).inc Reg.NET_PORT_RX_FRAMES [p]).port p = s.port p := by
    unfold State.port; rw [State.inc_net]; rfl
  simp [exec, execPauseFrame, State.pausing, on, port, cut, bound, other Reg.NET_PAUSE_MAX_US rfl (.inl rfl),
    other Reg.NET_EGR_PFC_MASK rfl (.inr rfl)]

/-! #### Frames shed at a port -/

theorem State.shedFrame_txShed (s : State) (p : Fin 4) (z : Nat × Nat) :
    (s.shedFrame p z).rd Reg.NET_PORT_TX_SHED [p] = (s.rd Reg.NET_PORT_TX_SHED [p] + 1) % 2 ^ Reg.NET_PORT_TX_SHED.width := by
  have ok : idxOk Reg.NET_PORT_TX_SHED.dims [p.val] = true := by simp [idxOk, Reg.NET_PORT_TX_SHED]
  unfold State.shedFrame
  obtain ⟨mark, known, content⟩ := s.bagMark z.1 z.2
  have buried : Within 0x45001010080001c ((s.inc Reg.NET_PORT_TX_SHED [p]).notice bNET 5 p 0 0) _ :=
    State.dead_in (p2 := 0x0C) (p3 := 0x4400 + z.1) (p4 := mark) (p5 := known) (p6 := content) rfl (.refl _)
  rw [buried.rd ok rfl rfl, (State.notice_within _ _ _ _ _ _).rd ok rfl rfl]
  exact State.rd_inc_same _ rfl ok

theorem State.shedFrames_txShed (p : Fin 4) (zs : List (Nat × Nat)) (s : State) :
    (forEach zs (fun z a => a.shedFrame p z) s).rd Reg.NET_PORT_TX_SHED [p] =
      (s.rd Reg.NET_PORT_TX_SHED [p] + zs.length) % 2 ^ Reg.NET_PORT_TX_SHED.width := by
  induction zs generalizing s with
  | nil => exact (Nat.mod_eq_of_lt (s.rd_lt _ _)).symm
  | cons z r ih =>
    refine (ih _).trans ?_
    rw [State.shedFrame_txShed, Nat.mod_add_mod, List.length_cons, Nat.add_assoc, Nat.add_comm 1]

theorem State.shedFrames_port (p : Fin 4) (zs : List (Nat × Nat)) (s : State) :
    (forEach zs (fun z a => a.shedFrame p z) s).port p = s.port p :=
  Within.port (M := 0x45001210080001c) (.forEach (.refl s) fun _ _ h => State.shedFrame_in rfl h) rfl p

/-! #### Links and faults of ports -/

theorem State.portsFailed_iff : s.portsFailed = true ↔ (∃ q, q < 4 ∧ s.flag Reg.NET_PORT_CFG_EN [q] = true) ∧
    ∀ q, q < 4 → s.flag Reg.NET_PORT_CFG_EN [q] = true → (s.port q).failed = true := by
  unfold State.portsFailed State.port
  simp only [Bool.and_eq_true, Bool.not_eq_true', List.isEmpty_eq_false_iff_exists_mem, List.mem_filter, List.mem_range, List.all_eq_true,
    and_imp]

/-- A hardware fault of a port moves the mode to HELD before any move to DEGRADED (R33). -/
theorem execPortFail_eq (p : Fin 4) (t : Time) (s : State) : exec (.portFail p t) s =
    .next ((((s.advance t).setPort p { s.port p with failed := true, restoring := none }).showDeg).portFloor.degMove) := rfl

theorem State.portFloor_failed (h : s.portsFailed = true) : s.portFloor = s.fatal 7 := if_pos h

theorem State.portFloor_sound (h : ¬s.portsFailed = true) : s.portFloor = s := if_neg h

theorem execPortRestore_due {p : Fin 4} {t r : Time} (link : s.flag Reg.NET_PORT_STAT_LINK [p] = true) (since : (s.port p).restoring = some r)
    (clean : r + second ≤ max s.now t) (sound : (s.port p).failed = false) : exec (.portRestore p t) s =
    .next (((s.advance t).setPort p { s.port p with lost := false, restoring := none }).refreshDeg) := by
  have now : r + second ≤ (s.advance t).now := clean
  have passed : ((s.advance t).flag Reg.NET_PORT_STAT_LINK [p] &&
      ((s.advance t).port p).restoring.any (fun r => decide (r + second ≤ (s.advance t).now)) && !((s.advance t).port p).failed) = true := by
    rw [State.flag_advance, link, show ((s.advance t).port p).restoring = some r from since, Option.any_some, decide_eq_true now,
      show ((s.advance t).port p).failed = false from sound]
    rfl
  exact congrArg Host.Outcome.next (if_pos passed)

/-- A frame with a wrong FCS is counted, and the clean second a port waits for begins anew. -/
theorem execFcsErrFrame_counts (p : Fin 4) (t : Time) (s : State) : ∃ u, exec (.fcsErrFrame p t) s = .next u ∧
    u.rd Reg.NET_PORT_FCS_ERR [p] = (s.rd Reg.NET_PORT_FCS_ERR [p] + 1) % 2 ^ 32 ∧
    (u.port p).restoring = (s.port p).restoring.map (fun _ => max s.now t) ∧ (u.port p).failed = (s.port p).failed := by
  refine ⟨_, rfl, State.rd_inc_same _ rfl (by simp [idxOk, Reg.NET_PORT_FCS_ERR]), ?_, ?_⟩
  · rw [State.port_setPort, State.inc_now]
    change (if (s.port p).restoring.isSome then some (max s.now t) else none) = _
    cases (s.port p).restoring <;> rfl
  · rw [State.port_setPort]
    rfl

/-! #### Frames shed -/

theorem execEgressShed_sheds (p : Fin 4) (t : Time) (s : State) : ∃ u, exec (.egressShed p t) s = .next u ∧
    (u.port p).queue = (s.port p).queue.filter (fun f => !(f.shedAt.any fun x => decide (x.1 ≤ max s.now t))) ∧
    u.rd Reg.NET_PORT_TX_SHED [p] = (s.rd Reg.NET_PORT_TX_SHED [p] +
      ((s.port p).queue.filter (fun f => f.shedAt.any fun x => decide (x.1 ≤ max s.now t))).length) % 2 ^ Reg.NET_PORT_TX_SHED.width := by
  have late (f : TxFrame) : ((s.advance t).overdue f).isSome = f.shedAt.any fun x => decide (x.1 ≤ max s.now t) :=
    (s.advance t).overdue_isSome f
  refine ⟨_, rfl, ?_, ?_⟩
  · rw [State.shedFrames_port, State.port_setPort]
    refine List.filter_congr fun f _ => ?_
    rw [← late, Option.not_isSome]
  · rw [State.shedFrames_txShed, List.length_filterMap_eq_countP, List.countP_eq_length_filter]
    exact congrArg (fun k => (s.rd Reg.NET_PORT_TX_SHED [p] + k) % 2 ^ Reg.NET_PORT_TX_SHED.width)
      (congrArg List.length (List.filter_congr fun f _ => late f))

/-- Settles O31: what each event of a port does, by the lemma of its command above or by its own case of `exec`. -/
theorem portsAndPause : Obligations.PortsAndPause := by
  refine ⟨⟨fun p t s on => ?_, fun p t s on => ?_, fun p t r s => execPortRestore_due, execFcsErrFrame_counts, fun p t s a ha => ?_⟩,
    fun p t s bound cut on => ?_, fun p t s held due => ?_, fun p t s => ⟨rfl, fun k => rfl, fun q a => (a.setPause_port p q).2⟩,
    execEgressShed_sheds⟩
  · simp [exec, execLinkDown, on]
  · simp [exec, execLinkUp, on]
  · have eq := execPortFail_eq p t s
    rw [← ha] at eq
    rw [eq]
    refine ⟨fun some all => ?_, fun none => ?_, fun ⟨q, hq, on, sound⟩ => ?_⟩
    · rw [State.portFloor_failed (State.portsFailed_iff.mpr ⟨some, all⟩)]
    · rw [State.portFloor_sound]
      rw [State.portsFailed_iff]
      rintro ⟨⟨q, hq, on⟩, -⟩
      simp [none q hq] at on
    · rw [State.portFloor_sound]
      rw [State.portsFailed_iff]
      rintro ⟨-, all⟩
      simp [all q hq on] at sound
  · obtain ⟨whole, prio⟩ := execPauseFrame_taken (t := t) on bound cut
    refine ⟨?_, fun k masked => ?_, fun k unmasked => ?_⟩
    · obtain ⟨⟨queue, port⟩, paused⟩ := ((s.advance t).inc Reg.NET_PORT_RX_FRAMES [p]).setPause_port p { s.pausing p t with paused := true }
      exact ⟨_, whole, paused, by rw [port], by rw [port]; rfl⟩
    · obtain ⟨⟨queue, port⟩, paused⟩ := ((s.advance t).inc Reg.NET_PORT_RX_FRAMES [p]).setPause_port p
        { s.pausing p t with prios := ((s.port p).prios ++ [k.val]).eraseDups }
      have listed : k.val ∈ ((s.port p).prios ++ [k.val]).eraseDups := List.mem_eraseDups.mpr (by simp)
      refine ⟨_, (prio k).trans (congrArg _ (if_pos masked)), paused.trans ?_, by rw [port]; exact listed⟩
      have some : (((s.port p).prios ++ [k.val]).eraseDups).isEmpty = false := List.isEmpty_eq_false_iff_exists_mem.mpr ⟨_, listed⟩
      simp [PortSt.held, some]
    · exact (prio k).trans (congrArg _ (if_neg (by rw [unmasked]; decide)))
  · have bound : ((s.advance t).port p).held = true ∧
        ((s.advance t).port p).pausedAt + min 2000 ((s.advance t).rd Reg.NET_PAUSE_MAX_US []) * usU ≤ (s.advance t).now := ⟨held, due⟩
    exact congrArg Host.Outcome.next (if_pos bound)

/-! ### Power states of sorters (R20 to R23) -/

/-- A digit of a number to base 4 put in the place of another. -/
theorem base4_put {w k v : Nat} (hw : w < 4 ^ 16) (hk : k < 16) (hv : v < 4) :
    w - w / 4 ^ k % 4 * 4 ^ k + v * 4 ^ k < 4 ^ 16 ∧ (w - w / 4 ^ k % 4 * 4 ^ k + v * 4 ^ k) / 4 ^ k % 4 = v := by
  have whole : 4 ^ 16 = 4 ^ (15 - k) * 4 * 4 ^ k := by rw [← Nat.pow_succ, ← Nat.pow_add]; congr 1; omega
  generalize 4 ^ (15 - k) = top at whole
  have hq : 0 < 4 ^ k := Nat.pow_pos (by decide)
  generalize 4 ^ k = q at whole hq ⊢
  have high : w / q < top * 4 := Nat.div_lt_of_lt_mul (by rwa [Nat.mul_comm, ← whole])
  have low : w % q < q := Nat.mod_lt _ hq
  have new : w - w / q % 4 * q + v * q = (w / q / 4 * 4 + v) * q + w % q := by
    have old : w = (w / q / 4 * 4) * q + w / q % 4 * q + w % q := by rw [← Nat.add_mul, Nat.div_add_mod', Nat.div_add_mod']
    rw [Nat.add_mul]
    omega
  rw [new]
  constructor
  · calc (w / q / 4 * 4 + v) * q + w % q < (w / q / 4 * 4 + v + 1) * q := by rw [Nat.succ_mul]; omega
      _ ≤ top * 4 * q := Nat.mul_le_mul_right _ (by omega)
      _ = 4 ^ 16 := whole.symm
  · rw [Nat.add_comm, Nat.add_mul_div_right _ _ hq, Nat.div_eq_of_lt low]
    omega

/-- The words that show the power states of the sorters stand in one area. -/
theorem areaOf_srtState (n : Fin 64) : areaOf (0x160000 + 4 * (n.val / 16)) = areaOf 0x160000 := by
  have row : n.val / 16 < 4 := by omega
  generalize n.val / 16 = i at row
  interval_cases i <;> decide

theorem State.srtState_setSrtState (s : State) (n : Fin 64) (v : Nat) : (s.setSrtState n v).srtState n = v % 4 := by
  obtain ⟨fits, digit⟩ := base4_put (k := n.val % 16) (v := v % 4) (s.word (0x160000 + 4 * (n.val / 16))).isLt (Nat.mod_lt _ (by decide))
    (Nat.mod_lt _ (by decide))
  unfold State.srtState State.setSrtState State.put
  rw [if_pos (areaOf_srtState n), State.word_setWord, BitVec.toNat_ofNat, show 2 ^ 32 = 4 ^ 16 by decide, Nat.mod_eq_of_lt fits]
  exact digit

@[simp] theorem State.setSrtState_sof (s : State) (n v : Nat) : (s.setSrtState n v).sof = s.sof := State.put_sof ..

@[simp] theorem State.srtHid_setSrtHid (s : State) (n : Nat) (h : SrtHid) : (s.setSrtHid n h).srtHid n = h := sget_sset_same

/-- The power state of a sorter is no field of the policy. -/
theorem State.deepest_setSrtState (s : State) (n : Fin 64) (v : Nat) : (s.setSrtState n v).deepest = s.deepest := by
  have same : (s.setSrtState n v).word 0x160018 = s.word 0x160018 := by
    unfold State.setSrtState State.put
    rw [if_pos (areaOf_srtState n)]
    exact State.word_setWord_ne _ _ (by omega)
  exact congrArg (fun w => min 2 (Reg.PWR_SRT_POLICY_DEEPEST.get w)) same

/-- A sorter in Nap stays there or goes on to Sleep, which the policy must allow. -/
theorem State.sleepIf_srtState (n : Fin 64) (nap : s.srtState n = 1) :
    ((s.sleepIf n).srtState n = 1 ∨ (s.sleepIf n).srtState n = 2 ∧ s.deepest = 2) ∧ (s.sleepIf n).sof = s.sof := by
  unfold State.sleepIf
  extract_lets far
  split
  case isTrue h =>
    obtain ⟨-, policy, -⟩ := h
    exact ⟨.inr ⟨State.srtState_setSrtState .., policy⟩, State.setSrtState_sof ..⟩
  case isFalse => exact ⟨.inl nap, rfl⟩

theorem Reports.srtHid (h : Reports s x) (n : Nat) : x.srtHid n = s.srtHid n := by
  unfold State.srtHid; rw [h.sorters]

/-- A sorter that takes an item is not woken by it, and no wake is counted. -/
theorem State.sorterNext_awake (s : State) (n : Nat) (maySteal : Bool) (awake : (s.srtHid n).waking = none) :
    ((s.sorterNext n maySteal).srtHid n).waking = none ∧
    ∀ m : Fin 64, (s.sorterNext n maySteal).rd Reg.SRT_WAKES [m] = s.rd Reg.SRT_WAKES [m] := by
  have counted (k : Nat) : ((s.setSrtHid n { s.srtHid n with c3 := k }).srtHid n).waking = none := by
    rw [State.srtHid_setSrtHid]; exact awake
  have started {a : State} (i : Item) (rest : (a.srtHid n).waking = none) (wakes : ∀ m : Fin 64, a.rd Reg.SRT_WAKES [m] = s.rd Reg.SRT_WAKES [m]) :
      ((a.startItem i n).srtHid n).waking = none ∧ ∀ m : Fin 64, (a.startItem i n).rd Reg.SRT_WAKES [m] = s.rd Reg.SRT_WAKES [m] := by
    have same : Reports a (a.startItem i n) := (Reports.refl a).startItem i n
    exact ⟨by rw [same.srtHid]; exact rest, fun m => (same.wakes m).trans (wakes m)⟩
  unfold State.sorterNext
  split
  case isTrue => exact ⟨awake, fun _ => rfl⟩
  case isFalse =>
    split
    case isTrue =>
      extract_lets a
      split
      · exact ⟨counted 0, fun _ => rfl⟩
      · exact started _ (counted 0) fun _ => rfl
    case isFalse =>
      split
      · exact ⟨awake, fun _ => rfl⟩
      · split
        · exact started _ (counted _) fun _ => rfl
        · exact started _ awake fun _ => rfl
      · rename_i i _
        have same : Reports s (s.countSteal n i) := (Reports.refl s).countSteal n i
        exact started _ (by rw [same.srtHid]; exact awake) same.wakes

theorem Within.srtState {t : State} (h : Within M s t) (pwr : M.testBit 57 = false) (n : Fin 64) : t.srtState n = s.srtState n := by
  unfold State.srtState
  rw [h.words _ (by rw [areaOf_srtState]; exact pwr)]

/-- A sorter in Run whose wake has been counted. -/
def State.woken (s : State) (n : Nat) : State :=
  ((s.setSrtState n 0).setSrtHid n { s.srtHid n with waking := none, idle := s.now }).inc Reg.SRT_WAKES [n]

/-- The end of a wake: a late one is noticed, and the sorter takes its next item. -/
theorem State.wakeDone_eq {n : Nat} {w : Time × Nat × Option Time} (waking : (s.srtHid n).waking = some w) :
    ∃ told, Within 0x410000100800004 (s.woken n) told ∧ Reports (s.woken n) told ∧ s.wakeDone n = told.sorterNext n true := by
  obtain ⟨since, left, sched⟩ := w
  cases sched with
  | none => exact ⟨s.woken n, .refl _, .refl _, by simp only [State.wakeDone, waking]; rfl⟩
  | some f =>
    refine ⟨if f < (s.woken n).now then (s.woken n).notice bPWR 4 n 0 0 else s.woken n, ?_, ?_, by simp only [State.wakeDone, waking]; rfl⟩
    · exact .ite (.refl _) fun _ => State.notice_within ..
    · split
      · exact (Reports.refl _).notice ..
      · exact .refl _

/-- A sorter whose wake is over runs, and the wake is counted (R20). -/
theorem State.wakeDone_runs (s : State) (n : Fin 64) {w : Time × Nat × Option Time} (waking : (s.srtHid n).waking = some w) :
    (s.wakeDone n).srtState n = 0 ∧ ((s.wakeDone n).srtHid n).waking = none ∧
    (s.wakeDone n).rd Reg.SRT_WAKES [n] = (s.rd Reg.SRT_WAKES [n] + 1) % 2 ^ 32 := by
  have ok : idxOk Reg.SRT_WAKES.dims [n.val] = true := by simp [idxOk, Reg.SRT_WAKES]
  have shown : Within 0x200000000000008 s ((s.setSrtState n 0).setSrtHid n { s.srtHid n with waking := none, idle := s.now }) :=
    State.setSrtHid_in rfl (State.setSrtState_in rfl (.refl s))
  obtain ⟨told, notice, report, eq⟩ := State.wakeDone_eq waking
  have state : told.srtState n = 0 := by
    rw [notice.srtState rfl, State.woken, (State.inc_in (M := 0x8000000000000000) rfl rfl (.refl _)).srtState rfl]
    exact s.srtState_setSrtState n 0
  have awake : (told.srtHid n).waking = none := by
    rw [report.srtHid]
    unfold State.woken State.srtHid
    rw [State.inc_sof]
    exact congrArg SrtHid.waking (State.srtHid_setSrtHid ..)
  have wakes : told.rd Reg.SRT_WAKES [n] = (s.rd Reg.SRT_WAKES [n] + 1) % 2 ^ 32 := by
    rw [report.wakes, State.woken, State.rd_inc_same _ rfl ok, shown.srtWakes rfl]
    rfl
  obtain ⟨rest, counted⟩ := told.sorterNext_awake n true awake
  rw [eq]
  exact ⟨((State.sorterNext_in (M := 0xac5001010080001c) rfl (.refl told)).srtState rfl n).trans state, rest, (counted n).trans wakes⟩

/-! ### Housekeeping (R186, R279, R432) -/

theorem State.hkRoom_gate (on : s.processing = true) (room : s.hkRoom = true) (t : Time) :
    ¬(!(s.advance t).processing || !(s.advance t).hkRoom) = true := by simp [on, room]

theorem execNapEntry_rests (n : Fin 64) (t : Time) (s : State) (on : s.processing = true) (run : s.srtState n = 0)
    (awake : (s.srtHid n).waking = none) (empty : s.emptyHoles n = true) (policy : 1 ≤ s.deepest)
    (idle : max 1 (s.rd Reg.PWR_SRT_POLICY_NAP_IDLE []) * 8 * usU ≤ (max s.now t - (s.srtHid n).idle) * s.sof.clk) :
    exec (.napEntry n t) s = .next (((s.advance t).setSrtState n 1).sleepIf n) := by
  have rests : (decide (max 1 ((s.advance t).rd Reg.PWR_SRT_POLICY_NAP_IDLE []) * 8 * usU ≤
      ((s.advance t).now - ((s.advance t).srtHid n).idle) * (s.advance t).sof.clk) && (s.advance t).processing &&
      (s.advance t).srtState n == 0 && ((s.advance t).srtHid n).waking.isNone && (s.advance t).emptyHoles n &&
      decide (1 ≤ (s.advance t).deepest)) = true := by
    have idle' : max 1 ((s.advance t).rd Reg.PWR_SRT_POLICY_NAP_IDLE []) * 8 * usU ≤
      ((s.advance t).now - ((s.advance t).srtHid n).idle) * (s.advance t).sof.clk := idle
    rw [decide_eq_true idle', State.processing_advance, on, show (s.advance t).srtState n = 0 from run,
      show ((s.advance t).srtHid n).waking = none from awake, State.advance_emptyHoles, empty, State.advance_deepest, decide_eq_true policy]
    rfl
  exact if_pos rests

/-- The clustering of a second for which it is still owed is spawned, or skipped while one waits (R279). -/
theorem State.clusterDue_owed (h : ¬((s.rd Reg.ISL_STAT_STATE [] ≠ 1 ∧ s.rd Reg.ISL_STAT_STATE [] ≠ 2) ∨ secOf s.isl.lastTk ≤ s.isl.clustSec)) :
    s.clusterDue = if (s.sof.items.any fun i => i.flow == 0x5002) = true then
        ({ s with isl := { s.isl with clustSec := secOf s.isl.lastTk } } : State).inc Reg.ISL_CLUST_SKIPPED []
      else ({ s with isl := { s.isl with clustSec := secOf s.isl.lastTk } } : State).enqueueC3 0x5002 .clustering := if_neg h

theorem State.clusterDue_done (h : secOf s.isl.lastTk ≤ s.isl.clustSec) : s.clusterDue = s := if_pos (.inr h)

theorem State.sorterOff_off (s : State) (n : Fin 64) : (s.sorterOff n).srtState n = 3 ∧ ((s.sorterOff n).srtHid n).waking = none :=
  ⟨s.srtState_setSrtState n 3, congrArg SrtHid.waking (State.srtHid_setSrtHid ..)⟩

/-- Settles O18: each form by the operation its guard lets through, and by what that operation does to the sorter. -/
theorem sorterPowerAndHousekeeping : Obligations.SorterPowerAndHousekeeping := by
  refine ⟨⟨fun n t s on run awake empty policy idle => ?_, fun r t s on rnd => ⟨fun near => ?_, fun far => ?_⟩,
    fun n t since left sch s waking => ⟨fun early => ?_, fun passed => ?_⟩, fun n t s off calm empty state idle => ?_⟩,
    fun n t s on room => ?_, fun t s on room state due => ?_, fun t s done => ?_, fun flow t m s found => ?_⟩
  · have nap : ((s.advance t).setSrtState n 1).srtState n = 1 := State.srtState_setSrtState ..
    have same : ((s.advance t).setSrtState n 1).deepest = s.deepest := State.deepest_setSrtState ..
    obtain ⟨shown, sof⟩ := State.sleepIf_srtState n nap
    rw [same] at shown
    refine ⟨_, execNapEntry_rests n t s on run awake empty policy idle, shown, fun one => ?_, sof.trans (State.setSrtState_sof ..)⟩
    exact shown.resolve_right fun h => by simp [one] at h
  · have due : ((s.advance t).processing && (s.advance t).rndOn r &&
        decide ((s.advance t).nextArrival r ≤ (s.advance t).now + (s.advance t).wakeLead)) = true := by
      simp only [State.processing_advance, State.advance_rndOn, on, rnd, Bool.and_self, Bool.true_and]
      exact decide_eq_true near
    exact if_pos due
  · have early : ¬((s.advance t).processing && (s.advance t).rndOn r &&
        decide ((s.advance t).nextArrival r ≤ (s.advance t).now + (s.advance t).wakeLead)) = true := by
      simp only [State.processing_advance, State.advance_rndOn, on, rnd, Bool.and_self, Bool.true_and]
      exact ne_true_of_eq_false (decide_eq_false (Nat.not_le.mpr far))
    exact if_neg early
  · have hid : ((s.advance t).srtHid n).waking = some (since, left, sch) := waking
    have still : ¬since + wakeTime left ≤ (s.advance t).now := Nat.not_le.mpr early
    simp only [exec, execSorterWakeDone, hid, if_neg still]
  · have hid : ((s.advance t).srtHid n).waking = some (since, left, sch) := waking
    have ended : since + wakeTime left ≤ (s.advance t).now := passed
    exact ⟨_, by simp only [exec, execSorterWakeDone, hid, if_pos ended], (s.advance t).wakeDone_runs n hid⟩
  · have rests : (!(s.advance t).processing && !(s.advance t).wakesFor n && (s.advance t).emptyHoles n && (s.advance t).srtState n != 3 &&
        decide (((s.advance t).srtHid n).idle + msU ≤ (s.advance t).now)) = true := by
      have idle' : ((s.advance t).srtHid n).idle + msU ≤ (s.advance t).now := idle
      rw [decide_eq_true idle', State.processing_advance, off, State.advance_wakesFor, calm, State.advance_emptyHoles, empty,
        State.advance_srtState, bne_iff_ne.mpr state]
      rfl
    exact ⟨_, if_pos rests, (s.advance t).sorterOff_off n⟩
  · have gate := State.hkRoom_gate on room t
    refine ⟨fun run => ?_, fun down => ?_, ?_⟩
    · have runs : ¬((s.advance t).srtState n != 0) = true := by simp [run]
      exact (if_neg gate).trans (congrArg Host.Outcome.next (if_neg runs))
    · have rests : ((s.advance t).srtState n != 0) = true := by simp [down]
      exact (if_neg gate).trans (congrArg Host.Outcome.next (if_pos rests))
    · exact if_neg gate
  · have gate := State.hkRoom_gate on room t
    have owed : exec (.housekeepingTimer .clustering t) s = .next (s.advance t).clusterDue := if_neg gate
    have dueNow : ¬(((s.advance t).rd Reg.ISL_STAT_STATE [] ≠ 1 ∧ (s.advance t).rd Reg.ISL_STAT_STATE [] ≠ 2) ∨
        secOf (s.advance t).isl.lastTk ≤ (s.advance t).isl.clustSec) := by
      simp only [State.rd_advance, State.advance_isl]
      omega
    rw [owed, State.clusterDue_owed dueNow]
    refine ⟨fun free => congrArg _ (if_neg ?_), fun busy => ⟨_, congrArg _ (if_pos ?_), ?_, ?_⟩⟩
    · rw [State.advance_sof, free]; decide
    · rw [State.advance_sof, busy]
    · exact State.rd_inc_same _ rfl rfl
    · exact State.inc_sof ..
  · have rests : (s.advance t).clusterDue = s.advance t := State.clusterDue_done done
    simp only [exec, execHousekeepingTimer, rests, ite_self]
  · simp only [exec, execFlowStateCopyDone, State.advance_sof, found]

end Sys2Proof.Machine
end

section /-! PROOFS of the family 02_time: the tick, reads and loads of device time, PPS and leap seconds, domains and PTP messages. -/
namespace Sys2Proof.Machine
variable {s x y : State}

/-! ### The tick (R51) -/

/-- How far device time stands past the last 8 ns step of the count. -/
def State.intoGroup (s : State) : Nat := (s.now + (8 * nsU - s.tb.grid % (8 * nsU))) % (8 * nsU)

/-- The first tick, of the five of a group, that lies beyond `r` past the group's step. -/
def tickAfter (r : Nat) : Nat :=
  if r < tickAt 1 then 1 else if r < tickAt 2 then 2 else if r < tickAt 3 then 3 else if r < tickAt 4 then 4 else 5

theorem tickAt_values : tickAt 1 = 104858 ∧ tickAt 2 = 209715 ∧ tickAt 3 = 314573 ∧ tickAt 4 = 419430 ∧ tickAt 5 = 8 * nsU := by decide

/-- The tick after `r` lies ahead of it, less than 1.7 ns. -/
theorem tickAfter_spec {r : Nat} (h : r < 8 * nsU) :
    tickAfter r ≤ 5 ∧ r < tickAt (tickAfter r) ∧ tickAt (tickAfter r) ≤ r + 104858 := by
  obtain ⟨one, two, three, four, five⟩ := tickAt_values
  have group : 8 * nsU = 524288 := rfl
  unfold tickAfter
  rw [one, two, three, four]
  split_ifs
  · rw [one]; omega
  · rw [two]; omega
  · rw [three]; omega
  · rw [four]; omega
  · rw [five]; omega

theorem tickAfter_tickAt : ∀ k < 5, tickAfter (tickAt k) = k + 1 := by decide

/-- The last tick of a group is the first of the next. -/
theorem tickAt_mod : ∀ k ≤ 5, tickAt k % (8 * nsU) = tickAt (k % 5) := by decide

/-- What a tick does: device time reads the next tick of its group, and the phase is that tick's. -/
theorem State.tick_of_powered (lit : s.powered = true) : s.tick =
    { s with now := s.now + (tickAt (tickAfter s.intoGroup) - s.intoGroup), tb := { s.tb with phase := tickAfter s.intoGroup % 5 } } :=
  if_pos lit

theorem State.tick_of_unpowered (dark : s.powered = false) : s.tick = s := if_neg (by rw [dark]; decide)

theorem State.onTick_iff : s.onTick = true ↔ s.tb.phase < 5 ∧ s.intoGroup = tickAt s.tb.phase := by
  simp [State.onTick, State.intoGroup]

/-- From anywhere in a group a tick brings device time onto one of the group's fractions. -/
theorem State.tick_onTick (lit : s.powered = true) : s.tick.onTick = true := by
  obtain ⟨bound, ahead, -⟩ := tickAfter_spec (r := s.intoGroup) (Nat.mod_lt _ (by decide))
  rw [State.onTick_iff, State.tick_of_powered lit]
  refine ⟨Nat.mod_lt _ (by decide), ?_⟩
  dsimp only
  rw [← tickAt_mod _ bound]
  generalize tickAt (tickAfter s.intoGroup) = next at ahead
  unfold State.intoGroup at ahead ⊢
  rw [show 8 * nsU = 524288 from rfl] at ahead ⊢
  dsimp only
  omega

/-- From a tick the next one is a step of its phase away. -/
theorem State.tick_of_onTick (lit : s.powered = true) (on : s.onTick = true) : s.tick =
    { s with now := s.now + tickDelta s.tb.phase, tb := { s.tb with phase := (s.tb.phase + 1) % 5 } } := by
  obtain ⟨phase, stands⟩ := State.onTick_iff.mp on
  rw [State.tick_of_powered lit, stands, tickAfter_tickAt _ phase, tickAt, Nat.add_sub_cancel_left]

theorem State.tick_powered (s : State) : s.tick.powered = s.powered := (State.tick_in (M := 0x102) rfl (.refl s)).parts .power rfl

/-- The five steps from any phase make up one group. -/
theorem tickDelta_group : ∀ p < 5, tickDelta p + tickDelta ((p + 1) % 5) + tickDelta ((p + 2) % 5) + tickDelta ((p + 3) % 5) +
    tickDelta ((p + 4) % 5) = 8 * nsU := by decide

theorem State.tick_five (lit : s.powered = true) (on : s.onTick = true) :
    s.tick.tick.tick.tick.tick = { s with now := s.now + 8 * nsU } := by
  have phase : s.tb.phase < 5 := (State.onTick_iff.mp on).1
  have again {a : State} (h : a.powered = true) : a.tick.powered = true ∧ a.tick.onTick = true :=
    ⟨(State.tick_powered a).trans h, State.tick_onTick h⟩
  obtain ⟨lit1, on1⟩ := again lit
  obtain ⟨lit2, on2⟩ := again lit1
  obtain ⟨lit3, on3⟩ := again lit2
  obtain ⟨lit4, on4⟩ := again lit3
  rw [State.tick_of_onTick lit4 on4, State.tick_of_onTick lit3 on3, State.tick_of_onTick lit2 on2, State.tick_of_onTick lit1 on1,
    State.tick_of_onTick lit on]
  dsimp only
  simp only [Nat.mod_add_mod, Nat.add_assoc, Nat.reduceAdd]
  rw [Nat.add_mod_right, Nat.mod_eq_of_lt phase]
  congr 2
  have := tickDelta_group _ phase
  omega

/-- Settles O2: a tick's mask is its frame, and how far it goes is where the next tick of the group lies. -/
theorem stepIdlesOnEmptyQueue : Obligations.StepIdlesOnEmptyQueue := by
  intro s idle
  have within : Within 0x102 s s.tick := State.tick_in rfl (.refl s)
  refine ⟨by unfold step; rw [idle], State.tick_of_unpowered, ⟨fun p other => within.parts p ?_, fun off _ => within.word (by decide) off⟩,
    fun lit => ⟨State.tick_onTick lit, ?_⟩, State.tick_five⟩
  · revert other; cases p <;> decide
  · obtain ⟨-, ahead, near⟩ := tickAfter_spec (r := s.intoGroup) (Nat.mod_lt _ (by decide))
    rw [State.tick_of_powered lit]
    exact ⟨Nat.lt_add_of_pos_right (Nat.sub_pos_of_lt ahead), Nat.add_le_add_left (Nat.sub_le_iff_le_add'.mpr near) _⟩

/-! ### What a notice leaves of the timebase -/

@[simp] theorem State.notice_now (s : State) (b bit d0 d1 d2 : Nat) : (s.notice b bit d0 d1 d2).now = s.now :=
  s.notice_part b bit d0 d1 d2 .now (by decide) (by decide)

@[simp] theorem State.notice_tb (s : State) (b bit d0 d1 d2 : Nat) : (s.notice b bit d0 d1 d2).tb = s.tb :=
  s.notice_part b bit d0 d1 d2 .tb (by decide) (by decide)

/-! ### Reads of the time groups (R54, R493) -/

/-- A read of the first word freezes the live counter. -/
theorem State.tbFreeze_fresh (s : State) : s.tbFreeze true = (s.now, { s with tb := { s.tb with shadow := some s.now } }) := by
  unfold State.tbFreeze
  split <;> rfl

/-- Another read takes the shadow as it stands, or freezes one. -/
theorem State.tbFreeze_held (s : State) :
    s.tbFreeze false = (s.tb.shadow.getD s.now, { s with tb := { s.tb with shadow := some (s.tb.shadow.getD s.now) } }) := by
  unfold State.tbFreeze
  split
  case h_1 v held => rw [held, Option.getD_some, ← held]; rfl
  case h_2 unheld => rw [unheld]; rfl

theorem State.bkdFreeze_fresh (s : State) : s.bkdFreeze true =
    ((s.bkdSec, s.bkdSub), { s with bkd := { s.bkd with shadow := some (s.bkdSec, s.bkdSub) } }) := by
  unfold State.bkdFreeze
  split <;> rfl

theorem State.bkdFreeze_held (s : State) : s.bkdFreeze false =
    (s.bkd.shadow.getD (s.bkdSec, s.bkdSub), { s with bkd := { s.bkd with shadow := some (s.bkd.shadow.getD (s.bkdSec, s.bkdSub)) } }) := by
  unfold State.bkdFreeze
  split
  case h_1 v held => rw [held, Option.getD_some, ← held]; rfl
  case h_2 unheld => rw [unheld]; rfl

/-- The words of a block answer, or not, as its first does. -/
theorem State.hostRead_in_block {first : Nat} (off : Nat) (answers : s.responds first = true) (same : s.responds off = s.responds first)
    (k : State → State) : s.hostRead off k = k s := if_pos (same.trans answers)

/-- An answer is cut to the 32 bits of a word. -/
theorem State.answer_mod (s : State) (n : Nat) : s.answer (n % 2 ^ 32) = s.emit (.readData (BitVec.ofNat 32 n)) :=
  congrArg (fun w => s.emit (.readData w)) (BitVec.eq_of_toNat_eq (by simp))

/-- Settles O36: each read by what it freezes; the words of a group stand in one block. -/
theorem timeGroupReads : Obligations.TimeGroupReads := by
  refine ⟨fun s v answers hv => ?_, fun s v answers hv => ?_⟩ <;> subst hv
  · refine ⟨congrArg Host.Outcome.next ((State.hostRead_in_block 0x20010 answers rfl _).trans ?_),
      congrArg Host.Outcome.next ((State.hostRead_in_block 0x20014 answers rfl _).trans ?_),
      congrArg Host.Outcome.next ((State.hostRead_in_block 0x20014 answers rfl _).trans ?_),
      congrArg Host.Outcome.next ((State.hostRead_in_block 0x2001C answers rfl _).trans ?_)⟩
    · rw [State.tbFreeze_fresh]; exact State.answer_mod ..
    · rw [State.tbFreeze_held]; rfl
    · rw [State.tbFreeze_held]; rfl
    · rw [State.tbFreeze_held]; rfl
  · refine ⟨congrArg Host.Outcome.next ((State.hostRead_in_block 0x30010 answers rfl _).trans ?_),
      congrArg Host.Outcome.next ((State.hostRead_in_block 0x30014 answers rfl _).trans ?_),
      congrArg Host.Outcome.next ((State.hostRead_in_block 0x30018 answers rfl _).trans ?_)⟩
    · rw [State.bkdFreeze_fresh]; exact State.answer_mod ..
    · rw [State.bkdFreeze_held]; rfl
    · rw [State.bkdFreeze_held]; rfl

/-! ### PPS_IN and PPS_OUT (R73, R74) -/

/-- Setting a flag leaves the fields in other bits. -/
theorem State.rd_setFlag_bits {f g : Fld} {idx jdx : List Nat} (b : Bool) (h : f.sane = true) (hg : g.sane = true)
    (d : f.hi < g.lo ∨ g.hi < f.lo) : (s.setFlag f idx b).rd g jdx = s.rd g jdx := s.rd_wr_bits _ h hg d

theorem State.flag_setFlag_bits {f g : Fld} {idx jdx : List Nat} (b : Bool) (h : f.sane = true) (hg : g.sane = true)
    (d : f.hi < g.lo ∨ g.hi < f.lo) : (s.setFlag f idx b).flag g jdx = s.flag g jdx := by
  unfold State.flag; rw [State.rd_setFlag_bits b h hg d]

/-- An edge writes its distance and PRESENT, and is stamped. -/
theorem exec_ppsInEdge (t : Time) (s : State) : exec (.ppsInEdge t) s = .next
    ((({ s.advance t with tb := { s.tb with ppsInAt := max s.now t } } : State).wr Reg.TB_PPS_IN_OFS []
      (satSigned 31 (roundDivI ((t : Int) - ((2 * t + second) / (2 * second) * second : Nat)) nsU))).setFlag
      Reg.TB_PPS_IN_PRESENT [] true) := rfl

theorem exec_ppsInLost_lost {t : Time} (present : s.flag Reg.TB_PPS_IN_PRESENT [] = true) (lost : s.tb.ppsInAt + 2 * second ≤ max s.now t) :
    exec (.ppsInLost t) s = .next (((s.advance t).setFlag Reg.TB_PPS_IN_PRESENT [] false).notice bTB 10 0 0 0) := by
  simp only [exec, execPpsInLost, State.flag_advance, State.advance_tb, State.advance_now_eq, present, lost, decide_true, Bool.and_self, if_true]

theorem exec_ppsInLost_early {t : Time} (early : max s.now t < s.tb.ppsInAt + 2 * second) :
    exec (.ppsInLost t) s = .next (s.advance t) := by
  simp only [exec, execPpsInLost, State.advance_tb, State.advance_now_eq, Nat.not_le.mpr early, decide_false, Bool.and_false,
    Bool.false_eq_true, if_false]

/-- Settles O37: an edge writes the two fields of TB_PPS_IN, a loss clears one of them, and neither writes more of the timebase. -/
theorem ppsInMonitor : Obligations.PpsInMonitor := by
  refine ⟨fun t s => ?_, fun t s present lost => ?_, fun t s early => exec_ppsInLost_early early⟩
  · refine ⟨_, exec_ppsInEdge t s, State.flag_setFlag_same _ _ rfl rfl rfl, by simp, ?_, by simp, by simp⟩
    rw [State.rd_setFlag_bits _ rfl rfl (by decide), State.rd_wr_same _ _ rfl rfl]
  · refine ⟨_, exec_ppsInLost_lost present lost, ?_, State.notice_bit _ 0 0 0 (by decide), ?_, by simp, by simp⟩
    · rw [State.flag_notice _ _ _ _ _ _ rfl rfl (by decide), State.flag_setFlag_same _ _ rfl rfl rfl]
    · rw [State.rd_notice _ _ _ _ _ _ rfl rfl (by decide), State.rd_setFlag_bits _ rfl rfl (by decide), State.rd_advance]

theorem exec_ppsOutEdge_rises {t : Time} (driven : s.ppsDriven = true) (edge : s.ppsEdgeAt t = true) :
    exec (.ppsOutEdge t) s = .next { s.advance t with tb := { s.tb with ppsOut := true, ppsAt := max s.now t } } := by
  have rises : ((s.advance t).ppsDriven && (s.advance t).ppsEdgeAt t) = true := Bool.and_eq_true_iff.mpr ⟨driven, edge⟩
  exact congrArg Host.Outcome.next (if_pos rises)

theorem exec_ppsOutEdge_rests {t : Time} (off : s.ppsEdgeAt t = false) : exec (.ppsOutEdge t) s = .next (s.advance t) := by
  have stays : ¬((s.advance t).ppsDriven && (s.advance t).ppsEdgeAt t) = true := by
    rw [show (s.advance t).ppsEdgeAt t = false from off, Bool.and_false]; decide
  exact congrArg Host.Outcome.next (if_neg stays)

/-! ### What a refresh of the timebase leaves (R72, R80) -/

/-- What a refresh shows in TB_STAT and TB_UNC. -/
def State.showQuality (s : State) : State :=
  s.wr Reg.TB_STAT_UNLK_S [] s.unlkNow |>.wr Reg.TB_UNC_UNC [] s.uncNow |>.wr Reg.TB_STAT_FQ [] s.fqNow
    |>.wr Reg.TB_STAT_SQ [] s.sqNow |>.setFlag Reg.TB_STAT_SERR [] s.serrNow

/-- A leap that is over is no longer pending. -/
def State.endLeap (s : State) : State :=
  match s.tb.leapEnd with
  | some e => if e ≤ s.now then { s.setFlag Reg.TB_UTC_LSP [] false with tb := { s.tb with leapEnd := none } } else s
  | none => s

theorem State.tbRefresh_eq (s : State) : s.tbRefresh =
    (s.showQuality.endLeap.stdAlarm 3 (s.rd Reg.TB_STAT_STATE [] == 4)).stdAlarm 12 s.serrNow := rfl

theorem State.showQuality_tb (s : State) : s.showQuality.tb = s.tb := by simp [State.showQuality]

theorem State.showQuality_word (s : State) {off : Nat} (stat : off ≠ Reg.TB_STAT_STATE.off []) (unc : off ≠ Reg.TB_UNC_UNC.off []) :
    s.showQuality.word off = s.word off := by
  unfold State.showQuality State.setFlag
  rw [State.word_wr_off (f := Reg.TB_STAT_SERR) _ _ stat, State.word_wr_off (f := Reg.TB_STAT_SQ) _ _ stat,
    State.word_wr_off (f := Reg.TB_STAT_FQ) _ _ stat, State.word_wr_off _ _ unc, State.word_wr_off (f := Reg.TB_STAT_UNLK_S) _ _ stat]

theorem State.endLeap_kept (s : State) : s.endLeap.tb.leapT = s.tb.leapT ∧ s.endLeap.tb.commit = s.tb.commit ∧
    ∀ off, off ≠ Reg.TB_UTC_LSP.off [] → s.endLeap.word off = s.word off := by
  unfold State.endLeap
  split
  · split
    · exact ⟨rfl, rfl, fun off utc =>
        (State.word_congr (s := s.setFlag Reg.TB_UTC_LSP [] false) rfl off).trans (State.word_wr_off _ _ utc)⟩
    · exact ⟨rfl, rfl, fun _ _ => rfl⟩
  · exact ⟨rfl, rfl, fun _ _ => rfl⟩

/-- The alarms that follow a refresh leave the timebase. -/
theorem State.tbRefresh_alarms (s : State) : Within 0x45611210080463c s.showQuality.endLeap s.tbRefresh := by
  rw [State.tbRefresh_eq]
  exact State.stdAlarm_in rfl (State.stdAlarm_in rfl (.refl _))

/-- A refresh leaves the leap under way, the pending commit and device time. -/
theorem State.tbRefresh_kept (s : State) :
    s.tbRefresh.tb.leapT = s.tb.leapT ∧ s.tbRefresh.tb.commit = s.tb.commit ∧ s.tbRefresh.now = s.now := by
  have same : s.tbRefresh.tb = s.showQuality.endLeap.tb := s.tbRefresh_alarms.parts .tb rfl
  obtain ⟨leapT, commit, -⟩ := s.showQuality.endLeap_kept
  rw [same, leapT, commit, State.showQuality_tb]
  exact ⟨rfl, rfl, (State.tbRefresh_in (M := 0x45611290080473c) rfl (.refl s)).parts .now rfl⟩

/-- A refresh leaves the words of the timebase but for TB_STAT, TB_UNC and TB_UTC. -/
theorem State.tbRefresh_rd (s : State) {f : Fld} {idx : List Nat} (ok : idxOk f.dims idx = true) (fits : f.fits = true)
    (out : (0x45611210080463c : Nat).testBit (32 + areaOf f.base) = false) (stat : f.off idx ≠ Reg.TB_STAT_STATE.off [])
    (unc : f.off idx ≠ Reg.TB_UNC_UNC.off []) (utc : f.off idx ≠ Reg.TB_UTC_LSP.off []) : s.tbRefresh.rd f idx = s.rd f idx := by
  obtain ⟨-, -, words⟩ := s.showQuality.endLeap_kept
  rw [s.tbRefresh_alarms.rd ok fits out]
  unfold State.rd
  rw [words _ utc, s.showQuality_word stat unc]

/-! ### Loads of device time (R56, R57) -/

theorem State.commitOk_iff : s.commitOk = true ↔ s.stepAllowed = true ∧ s.domLocked 0 = false ∧ s.domLocked 1 = false := by
  simp [State.commitOk, and_assoc]

theorem State.commitOk_eq_false_iff :
    s.commitOk = false ↔ s.stepAllowed = false ∨ s.domLocked 0 = true ∨ s.domLocked 1 = true := by
  rw [← Bool.not_eq_true, State.commitOk_iff, not_and_or, not_and_or, Bool.not_eq_true, Bool.not_eq_false, Bool.not_eq_false]

/-- The end of a commit shows in STATUS and leaves the timebase. -/
theorem State.setDone_spec (s : State) (st : Nat) :
    (s.setDone st).rd Reg.TB_SET_COMMIT_STATUS [] = st % 4 ∧ (s.setDone st).tb = s.tb ∧ (s.setDone st).now = s.now := by
  unfold State.setDone
  exact ⟨by rw [State.rd_notice _ _ _ _ _ _ rfl rfl (by decide), State.rd_wr_same _ _ rfl rfl]; rfl, by simp, by simp⟩

theorem State.setTb_commit (s : State) (st : Nat) : (s.setTb st).tb.commit = s.tb.commit := by
  unfold State.setTb
  extract_lets -merge old unc told _ _ counted _ fresh _ held
  have h0 : told.tb.commit = s.tb.commit := by rw [State.notice_tb, State.wr_tb]
  have h1 : counted.tb.commit = s.tb.commit := by
    unfold counted
    split <;> exact h0
  have h2 : fresh.tb.commit = s.tb.commit := by
    unfold fresh
    split <;> exact h1
  have h3 : held.tb.commit = s.tb.commit := by
    unfold held
    split <;> exact h2
  split
  · rfl
  · split
    · rw [State.notice_tb]; exact h3
    · exact h3

/-- A step moves device time and leaves the pending commit. -/
theorem State.stepBy_spec (s : State) (d : Int) :
    (s.stepBy d).now = ((s.now : Int) + d).toNat ∧ (s.stepBy d).tb.commit = s.tb.commit := by
  unfold State.stepBy
  exact ⟨State.notice_now .., by rw [State.notice_tb]⟩

/-- After device time is loaded the commit shows STATUS 2, and neither device time nor the pending commit moves again. -/
theorem State.loaded_spec (s : State) : let u := ((s.setTb 0).setDone 2).tbRefresh.runCheck
    u.rd Reg.TB_SET_COMMIT_STATUS [] = 2 ∧ u.tb.commit = s.tb.commit ∧ u.now = s.now := by
  extract_lets u
  obtain ⟨status, tb, now⟩ := (s.setTb 0).setDone_spec 2
  obtain ⟨-, commit, still⟩ := ((s.setTb 0).setDone 2).tbRefresh_kept
  have run : Within 0x865001010080081c ((s.setTb 0).setDone 2).tbRefresh u := State.runCheck_in rfl (.refl _)
  have free : (s.setTb 0).now = s.now := (State.setTb_in (M := 0x410000900800104) rfl (.refl s)).parts .now rfl
  refine ⟨?_, ?_, ?_⟩
  · rw [run.rd rfl rfl (by decide), State.tbRefresh_rd _ rfl rfl (by decide) (by decide) (by decide) (by decide), status]
  · rw [show u.tb = _ from run.parts .tb rfl, commit, tb, State.setTb_commit]
  · rw [show u.now = _ from run.parts .now rfl, still, now, free]

theorem State.timeCommitWrite_idle {w : Word} (h : Reg.TB_SET_COMMIT_GO.get w = 0 ∨ s.rd Reg.TB_SET_COMMIT_STATUS [] = 1) :
    s.timeCommitWrite w = s := if_pos h

theorem State.timeCommitWrite_refused {w : Word} (go : Reg.TB_SET_COMMIT_GO.get w = 1) (free : s.rd Reg.TB_SET_COMMIT_STATUS [] ≠ 1)
    (bad : s.commitOk = false ∨ 1000000000 ≤ s.rd Reg.TB_SET_NS_NS []) :
    s.timeCommitWrite w = (s.logRefused (Reg.TB_SET_COMMIT_GO.off []) w.toNat).setDone 3 := by
  unfold State.timeCommitWrite
  rw [if_neg (by simp [go, free])]
  exact if_pos (by simpa using bad)

/-- A commit that is taken waits, with the time it stages and the boundary it waits for. -/
theorem State.timeCommitWrite_staged {w : Word} (go : Reg.TB_SET_COMMIT_GO.get w = 1) (free : s.rd Reg.TB_SET_COMMIT_STATUS [] ≠ 1)
    (ok : s.commitOk = true) (ns : s.rd Reg.TB_SET_NS_NS [] < 1000000000) :
    (s.timeCommitWrite w).rd Reg.TB_SET_COMMIT_STATUS [] = 1 ∧
    (s.timeCommitWrite w).tb.commit = some (if Reg.TB_SET_COMMIT_RES.get w = 1 then
        ((s.rd Reg.TB_SET_SEC_LO_SEC [] + 2 ^ 32 * s.rd Reg.TB_SET_SEC_HI_SEC []) * second, some ((secOf s.now + 1) * second))
      else ((s.rd Reg.TB_SET_SEC_LO_SEC [] + 2 ^ 32 * s.rd Reg.TB_SET_SEC_HI_SEC []) * second + s.rd Reg.TB_SET_NS_NS [] * nsU, none)) := by
  unfold State.timeCommitWrite
  rw [if_neg (by simp [go, free])]
  dsimp only
  rw [if_neg (by simpa [ok] using ns)]
  exact ⟨State.rd_wr_same _ _ rfl rfl, by rw [State.wr_tb]⟩

theorem exec_timeCommit {w : Word} (h : s.takesWrite (Reg.TB_SET_COMMIT_GO.off [])) :
    exec (.timeCommit w) s = .next (s.timeCommitWrite w) := congrArg Host.Outcome.next (State.hostGate_takes h _ _)

/-- A commit is no longer pending. -/
def State.dropCommit (s : State) : State := { s with tb := { s.tb with commit := none } }

/-- Device time takes a staged time and what has passed since the boundary it waited for, as the first tick of a group. -/
def State.loadStaged (s : State) (v : Time) (due : Option Time) : State :=
  let x := s.stepBy (((v + (due.map fun u => s.now - u).getD 0 : Nat) : Int) - s.now)
  { x with tb := { x.tb with phase := 0, grid := v % (8 * nsU) } }

theorem State.loadStaged_spec (s : State) (v : Time) (due : Option Time) :
    (s.loadStaged v due).tb.commit = s.tb.commit ∧
    (s.loadStaged v due).now = v + (match due with | some b => s.now - b | none => 0) := by
  refine ⟨(s.stepBy_spec _).2, (s.stepBy_spec _).1.trans ?_⟩
  rw [add_sub_cancel, Int.toNat_natCast]
  cases due <;> rfl

section
variable {t v : Time} {due : Option Time} (pending : s.tb.commit = some (v, due))
include pending

theorem exec_timeCommitApply_early {b : Time} (h : due = some b) (early : max s.now t < b) :
    exec (.timeCommitApply t) s = .next (s.advance t) := by
  subst h
  simp only [exec, execTimeCommitApply, State.advance_tb, State.advance_now_eq, pending, Option.any_some, early, decide_true, if_true]

/-- At its instant a load is done or refused. -/
theorem exec_timeCommitApply_due (reached : ∀ b, due = some b → b ≤ max s.now t) :
    exec (.timeCommitApply t) s = if !(s.advance t).dropCommit.commitOk then
        .next (((s.advance t).dropCommit.logRefused (Reg.TB_SET_COMMIT_GO.off []) 0).setDone 3)
      else .next ((((s.advance t).dropCommit.loadStaged v due).setTb 0).setDone 2).tbRefresh.runCheck := by
  have now : ¬(due.any fun u => decide ((s.advance t).now < u)) = true := by
    cases due with
    | none => exact Bool.false_ne_true
    | some b => exact ne_true_of_eq_false (decide_eq_false (Nat.not_lt.mpr (reached b rfl)))
  simp only [exec, execTimeCommitApply, State.advance_tb, pending]
  exact if_neg now
end

/-- Settles O35: a write of GO by what it stages or refuses, and its instant by what the load leaves of the commit and of device time. -/
theorem timeCommit : Obligations.TimeCommit := by
  refine ⟨fun w s takes => ?_, fun t v due s pending => ⟨fun reached allowed free0 free1 => ?_, fun reached bad => ?_, fun b h early => ?_⟩,
    fun t s free => ?_⟩
  · rw [exec_timeCommit takes]
    refine ⟨fun idle => by rw [State.timeCommitWrite_idle idle], fun go free => ⟨fun bad => ?_, fun allowed free0 free1 ns res => ?_,
      fun allowed free0 free1 ns res => ?_⟩⟩
    · rw [State.timeCommitWrite_refused go free (by rw [State.commitOk_eq_false_iff]; tauto)]
    · obtain ⟨status, staged⟩ := State.timeCommitWrite_staged go free (State.commitOk_iff.mpr ⟨allowed, free0, free1⟩) ns
      exact ⟨_, rfl, status, staged.trans (congrArg some (if_neg (by simp [res])))⟩
    · obtain ⟨status, staged⟩ := State.timeCommitWrite_staged go free (State.commitOk_iff.mpr ⟨allowed, free0, free1⟩) ns
      exact ⟨_, rfl, status, staged.trans (congrArg some (if_pos res))⟩
  · have ok : (s.advance t).dropCommit.commitOk = true := State.commitOk_iff.mpr ⟨allowed, free0, free1⟩
    obtain ⟨commit, now⟩ := (s.advance t).dropCommit.loadStaged_spec v due
    obtain ⟨status, same, still⟩ := ((s.advance t).dropCommit.loadStaged v due).loaded_spec
    exact ⟨_, (exec_timeCommitApply_due pending reached).trans (if_neg (by simp [ok])), status, same.trans commit, still.trans now⟩
  · have no : (s.advance t).dropCommit.commitOk = false := State.commitOk_eq_false_iff.mpr bad
    have kept : Within 0x410000100800004 (s.advance t).dropCommit
        ((s.advance t).dropCommit.logRefused (Reg.TB_SET_COMMIT_GO.off []) 0) := State.logRefused_in rfl (.refl _)
    obtain ⟨status, tb, now⟩ := ((s.advance t).dropCommit.logRefused (Reg.TB_SET_COMMIT_GO.off []) 0).setDone_spec 3
    exact ⟨_, (exec_timeCommitApply_due pending reached).trans (if_pos (by simp [no])), status,
      congrArg TbSt.commit (tb.trans (kept.parts .tb rfl)), now.trans (kept.parts .now rfl)⟩
  · exact exec_timeCommitApply_early pending h early
  · simp only [exec, execTimeCommitApply, State.advance_tb, free]

/-! ### Leap seconds and the backup clock (R79 to R82) -/

/-- The fields of BAR0 do not depend on the state of the timebase. -/
theorem State.flag_set_tb (x : State) (v : TbSt) (f : Fld) (idx : List Nat) : ({ x with tb := v } : State).flag f idx = x.flag f idx := rfl

/-- A leap pending is told once: its flag, its direction, its instant and its notice (R80). -/
theorem exec_leapPending_tells {t : Time} {neg : Bool} (flagged : (s.advance t).leapFlag.1 = some neg)
    (new : s.flag Reg.TB_UTC_LSP [] = false) :
    ∃ u, exec (.leapPending t) s = .next u ∧ u.flag Reg.TB_UTC_LSP [] = true ∧ u.flag Reg.TB_UTC_LSD [] = neg ∧
      u.tb.leapT = some (t + 60 * second, neg) ∧ u.noticed bTB 8 := by
  have tells : ((s.advance t).leapFlag.1.filter fun _ => !(s.advance t).flag Reg.TB_UTC_LSP []) = some neg := by
    rw [flagged, State.flag_advance, new]; rfl
  simp only [exec, execLeapPending, tells]
  refine ⟨_, rfl, ?_, ?_, by rw [State.notice_tb], State.notice_bit _ _ 0 0 (by decide)⟩
  · rw [State.flag_notice _ _ _ _ _ _ rfl rfl (by decide), State.flag_set_tb, State.flag_setFlag_bits _ rfl rfl (by decide),
      State.flag_setFlag_same _ _ rfl rfl rfl]
  · rw [State.flag_notice _ _ _ _ _ _ rfl rfl (by decide), State.flag_set_tb, State.flag_setFlag_same _ _ rfl rfl rfl]

/-- The leap that takes effect is the one flagged, or the one told of while LSP stands. -/
theorem State.leapNow_of {neg : Bool} (h : (s.tb.leapT = none ∧ s.leapFlag.1 = some neg) ∨
    ∃ u, s.tb.leapT = some (u, neg) ∧ s.flag Reg.TB_UTC_LSP [] = true) : s.leapNow = some neg := by
  unfold State.leapNow
  rcases h with ⟨untold, flagged⟩ | ⟨u, told, stands⟩
  · simp only [untold, flagged]
  · simp only [told, stands, if_true]

/-- A leap takes effect once, not before the instant that was told, and from its second the new offset applies. -/
theorem exec_leap_takes {t : Time} {neg : Bool} (leap : (s.tb.leapT = none ∧ (s.advance t).leapFlag.1 = some neg) ∨
      ∃ u, s.tb.leapT = some (u, neg) ∧ s.flag Reg.TB_UTC_LSP [] = true ∧ u ≤ max s.now t)
    (first : s.flag Reg.TB_UTC_LSO [] = false) :
    exec (.leap t) s =
      .next ((({ (((s.advance t).wr Reg.TB_UTC_OFFSET [] (ofSigned 16 (if neg then s.utcOfs - 1 else s.utcOfs + 1))).setFlag
            Reg.TB_UTC_LSO [] true).setFlag Reg.TB_UTC_LSD [] neg with
          tb := { s.tb with leapT := some (t, neg), ofsBefore := s.utcOfs, ptpOfs := (if neg then s.utcOfs - 1 else s.utcOfs + 1),
                            leapEnd := some (if neg then t else t + second) } } : State).notice
        bTB 9 (if neg then 1 else 0) 0 0).tbRefresh) := by
  have now : (s.advance t).leapNow = some neg := State.leapNow_of (leap.imp_right fun ⟨u, told, stands, _⟩ => ⟨u, told, stands⟩)
  rcases leap with ⟨untold, -⟩ | ⟨u, told, -, reached⟩
  · simp only [exec, execLeap, now, State.advance_tb, untold, State.flag_advance, first, Option.filter, Bool.not_false, Bool.and_self,
      if_true, State.advance_utcOfs, State.setFlag_tb, State.wr_tb]
  · simp only [exec, execLeap, now, State.advance_tb, State.advance_now_eq, told, Nat.not_lt.mpr reached, decide_false, State.flag_advance,
      first, Option.filter, Bool.not_false, Bool.and_self, if_true, State.advance_utcOfs, State.setFlag_tb, State.wr_tb]

/-- LSO ends a day after the leap. -/
theorem exec_leapOccurredEnd_ends {t : Time}
    (past : s.tb.leapT = none ∨ ∃ r neg, s.tb.leapT = some (r, neg) ∧ r + 86400 * second ≤ max s.now t) :
    ∃ u, exec (.leapOccurredEnd t) s = .next u ∧ u.flag Reg.TB_UTC_LSO [] = false ∧ u.tb.leapT = none := by
  refine ⟨(({ s.advance t with tb := { s.tb with leapT := none } } : State).tbRefresh).setFlag Reg.TB_UTC_LSO [] false, ?_,
    State.flag_setFlag_same _ _ rfl rfl rfl, ?_⟩
  · rcases past with calm | ⟨r, neg, leap, ended⟩
    · simp only [exec, execLeapOccurredEnd, State.advance_tb, calm, Bool.false_eq_true, if_false]
    · simp only [exec, execLeapOccurredEnd, State.advance_tb, State.advance_now_eq, leap, Nat.not_lt.mpr ended, decide_false,
        Bool.false_eq_true, if_false]
  · rw [State.setFlag_tb, (State.tbRefresh_kept _).1]

/-- At a second boundary, with a locked domain, the backup clock's error is shown and the clock set (R81, R82). -/
theorem exec_backupClockWrite_writes {t : Time} {a : State}
    (ha : a = ({ s.advance t with tb := { s.tb with bkdAt := some (max s.now t) } } : State)) (lit : s.powered = true)
    (locked : s.domLocked 0 = true ∨ s.domLocked 1 = true) (whole : t % second = 0)
    (due : ∀ r, s.tb.bkdAt = some r → r + 1000 * second ≤ max s.now t) : exec (.backupClockWrite t) s =
      .next ((a.wr Reg.BKD_ERR_ERR [] (satSigned 32 (((a.bkdSec * 32768 + a.bkdSub : Nat) : Int) - (a.now * 32768 / second : Nat)))).adjustBkd
        (secOf a.now % 2 ^ 48)) := by
  subst ha
  have locked' : (s.domLocked 0 || s.domLocked 1) = true := Bool.or_eq_true_iff.mpr locked
  cases last : s.tb.bkdAt with
  | none =>
    simp only [exec, execBackupClockWrite, State.advance_powered, lit, State.advance_domLocked, locked', State.advance_tb,
      State.advance_now_eq, last, whole, beq_self_eq_true, Bool.and_self, and_self, if_true]
  | some r =>
    simp only [exec, execBackupClockWrite, State.advance_powered, lit, State.advance_domLocked, locked', State.advance_tb,
      State.advance_now_eq, last, whole, due r last, decide_true, beq_self_eq_true, Bool.and_self, and_self, if_true]

/-- Settles O38: each row by whether its guard lets it through, and by what its writes leave of the words and of the timebase. -/
theorem ppsOutAndLeapSeconds : Obligations.PpsOutAndLeapSeconds := by
  refine ⟨⟨fun t s driven edge => exec_ppsOutEdge_rises driven edge, fun t s off => exec_ppsOutEdge_rests off,
      fun t s past => congrArg Host.Outcome.next (if_pos past),
      fun t s high => congrArg Host.Outcome.next (if_neg (Nat.not_le.mpr high))⟩,
    fun t neg s flagged new => exec_leapPending_tells flagged new, fun t neg s leap first => exec_leap_takes leap first,
    fun t s past => exec_leapOccurredEnd_ends past, fun t r neg s leap early => ?_,
    fun t s => ⟨_, rfl, State.rd_wr_same _ _ rfl rfl⟩, fun t s lit locked whole due => ?_, fun t r s last early => ?_⟩
  · simp only [exec, execLeapOccurredEnd, State.advance_tb, State.advance_now_eq, leap, early, decide_true, if_true]
  · exact ⟨_, _, rfl, exec_backupClockWrite_writes rfl lit locked whole due, rfl⟩
  · simp only [exec, execBackupClockWrite, State.advance_tb, State.advance_now_eq, last, Nat.not_le.mpr early, decide_false, Bool.and_false,
      Bool.false_eq_true, and_false, if_false]

/-! ### Choice of the domain (R65 to R68, R71) -/

/-- Settles O34: each row by its guard, and a write of TB_SEL by what SWITCH asks for. -/
theorem domainSelection : Obligations.DomainSelection := by
  refine ⟨fun t r s apart since held agree => ?_, fun t p s pref revert other locked state due => ?_,
    fun w s a takes ha => ?_, fun t s => rfl⟩
  · simp only [exec, execTimeAgree, State.advance_tb, State.advance_now_eq, apart, since, held, agree, decide_true, Bool.not_false,
      Bool.and_self, if_true]
  · subst pref
    simp only [exec, execDomainRevert, State.flag_advance, State.rd_advance, State.advance_domLocked, State.advance_dom,
      State.advance_now_eq, revert, bne_iff_ne.mpr other, locked, state, due, beq_self_eq_true, decide_true, Bool.and_self, if_true]
  · subst ha
    have write : exec (.tbSelSwitch w) s = .next (s.tbSelWrite w) := congrArg Host.Outcome.next (State.hostGate_takes takes _ _)
    rw [write]
    refine ⟨fun zero => congrArg _ (if_pos zero), fun one locked => congrArg _ ?_, fun one free => congrArg _ ?_⟩
    · exact (if_neg (by simp [one])).trans (if_pos locked)
    · exact (if_neg (by simp [one])).trans (if_neg (by simp [free]))

/-! ### PTP messages (R58 to R61) and the path delay (R76) -/

section
variable {f : RxHead} {n d : Nat} {a : State} {k : Nat → State → State}

/-- A message that does not pass the port goes no further. -/
theorem State.ptpMsg_stopped (h : s.rxFront f = (a, false)) : s.ptpMsg f n k = a := by
  unfold State.ptpMsg State.onFrame; rw [h]

/-- A message of no domain is discarded and counted. -/
theorem State.ptpMsg_of_noDomain (h : s.rxFront f = (a, true)) (hd : a.domFor n f.port = none) : s.ptpMsg f n k = a.disc f.port := by
  unfold State.ptpMsg State.onFrame; simp only [h, hd]

/-- A message that passes goes to its domain. -/
theorem State.ptpMsg_of_domain (h : s.rxFront f = (a, true)) (hd : a.domFor n f.port = some d) : s.ptpMsg f n k = k d a := by
  unfold State.ptpMsg State.onFrame; simp only [h, hd]
end

theorem State.dom_congr (h : y.tb = x.tb) (d : Nat) : y.dom d = x.dom d := by unfold State.dom; rw [h]

@[simp] theorem State.dom_setDom (s : State) (d : Nat) (v : DomSt) : (s.setDom d v).dom d = v := by
  unfold State.dom State.setDom; split <;> rfl

@[simp] theorem State.rd_setDom (s : State) (d : Nat) (v : DomSt) (f : Fld) (idx : List Nat) : (s.setDom d v).rd f idx = s.rd f idx := by
  unfold State.setDom; split <;> rfl

@[simp] theorem State.domPorts_setDom (s : State) (d e : Nat) (v : DomSt) : (s.setDom d v).domPorts e = s.domPorts e := by
  simp only [State.domPorts, State.rd_setDom]

/-- A domain's new state leaves the selection. -/
theorem State.domTo_sel (s : State) (d st : Nat) : (s.domTo d st).rd Reg.TB_STAT_SEL [] = s.rd Reg.TB_STAT_SEL [] := by
  unfold State.domTo
  extract_lets old told v v'
  split
  · rfl
  · rw [State.rd_setDom, State.rd_notice _ _ _ _ _ _ rfl rfl (by decide), State.rd_wr_off]
    simp only [Fld.off, idxOff, Reg.TB_STAT_SEL, Reg.TB_DOM_STAT_STATE]
    omega

/-- Where the best master stays the same, a qualifying or locked domain that is not selected only shows its dataset. -/
theorem State.announced_same {d : Nat} {m : Announce} {b : Heard} {o : Announce} (best : bestMaster (heardMasters (s.dom d).masters m) = some b)
    (chosen : (s.dom d).chosen = some o) (same : annSame o b.ann = true)
    (hx : x = s.setDom d { s.dom d with masters := heardMasters (s.dom d).masters m })
    (hy : y = (x.setDom d { x.dom d with chosen := some b.ann }).showMaster d b.ann) (state : y.domState d = 2 ∨ y.domState d = 3)
    (other : d ≠ y.rd Reg.TB_STAT_SEL []) (agree : y.utcDiffer = false) : s.announced d m = y.tbSelect := by
  simp only [chosen] at hx hy
  unfold State.announced
  simp only [best, chosen, same, ← hx, ← hy, state, other, agree, if_true, if_false, Bool.not_true, Bool.false_and, Bool.false_eq_true]

theorem State.announced_none {d : Nat} {m : Announce} (unheard : bestMaster (heardMasters (s.dom d).masters m) = none)
    (hx : x = s.setDom d { s.dom d with masters := heardMasters (s.dom d).masters m }) : s.announced d m = (x.noMaster d).tbSelect := by
  unfold State.announced
  simp only [unheard, ← hx]

/-- The chosen master has not been heard for its timeout (R58). -/
theorem exec_announceTimeout_due {d : Fin 2} {t : Time} {a : Announce} {b c : State} (chosen : (s.dom d).chosen = some a)
    (due : ((s.dom d).masters.any fun m => annSame m.ann a && m.live (max s.now t)) = false)
    (hb : b = (s.advance t).setDom d { s.dom d with masters := (s.dom d).masters.filter fun m => !annSame m.ann a, chosen := none })
    (hc : c = if s.domLocked d then b.domTo d 4 else if s.domState d = 4 then b else b.domTo d 1) :
    exec (.announceTimeout d t) s = .next (if d.val = s.rd Reg.TB_STAT_SEL [] then c.refreshUtc else c).tbSelect := by
  have sel : c.rd Reg.TB_STAT_SEL [] = s.rd Reg.TB_STAT_SEL [] := by
    have before : b.rd Reg.TB_STAT_SEL [] = s.rd Reg.TB_STAT_SEL [] := by rw [hb, State.rd_setDom, State.rd_advance]
    rw [hc]
    split
    · rw [State.domTo_sel, before]
    · split
      · exact before
      · rw [State.domTo_sel, before]
  have state : b.domState d = s.domState d := by rw [hb]; exact State.rd_setDom ..
  have locked : b.domLocked d = s.domLocked d := by unfold State.domLocked; rw [state]
  rw [← locked, ← state] at hc
  simp only [exec, execAnnounceTimeout, State.advance_dom, State.advance_now_eq, chosen, Option.filter, due, Bool.not_false, if_true,
    ← hb, ← hc, sel]

theorem exec_announceTimeout_heard {d : Fin 2} {t : Time} {a : Announce} (chosen : (s.dom d).chosen = some a)
    (heard : ((s.dom d).masters.any fun m => annSame m.ann a && m.live (max s.now t)) = true) :
    exec (.announceTimeout d t) s = .next (s.advance t) := by
  simp only [exec, execAnnounceTimeout, State.advance_dom, State.advance_now_eq, chosen, Option.filter, heard, Bool.not_true,
    Bool.false_eq_true, if_false]

/-- A response of a domain's link gives its mean delay, shown where the port is the chosen master's or none is chosen. -/
theorem exec_pdelayResp {m : PdelayMsg} {a : State} {d : Nat} (h : s.rxFront m.toRxHead = (a, true))
    (hd : a.domFor m.domNum m.port = some d) : exec (.pdelayResp m) s = .next
      (let u := a.setDom d { a.dom d with pdelay := sset (a.dom d).pdelay m.port (a.meanLink m) }
       if (match (a.dom d).chosen with | some x => x.port == m.port | none => true) then
         u.wr Reg.TB_DOM_PDELAY_NS [d] (min (roundDiv (max (a.meanLink m) 0).toNat 256) (2 ^ 32 - 1)) else u) :=
  congrArg Host.Outcome.next (State.ptpMsg_of_domain h hd)

/-- Settles O33: messages by where the front and the domain's number send them, masters and timeouts by the lemmas above. -/
theorem ptpAndPathDelay : Obligations.PtpAndPathDelay := by
  refine ⟨⟨fun m s a => ⟨fun h => ?_, fun h hd => ?_, fun d c h hd chosen => ?_⟩,
      fun m s a => ⟨fun h => ?_, fun h hd => ?_, fun d x h hd => ?_⟩,
      fun d t s unchosen => ?_, fun d t a s chosen heard => exec_announceTimeout_heard chosen heard,
      fun d t a s b c chosen due hb hc => exec_announceTimeout_due chosen due hb hc⟩,
    fun m d s a h hd => ⟨?_, fun small shown => ?_, fun x chosen far => ?_⟩, fun m s a => ⟨fun h hd => ?_, fun h => ?_⟩,
    fun d t s conf first => ?_, fun d t r s last early => ?_⟩
  · exact congrArg _ (State.ptpMsg_stopped h)
  · exact congrArg _ (State.ptpMsg_of_noDomain h hd)
  · have sync : exec (.ptpSync m) s = .next (if c.senderId = m.senderId ∧ c.port = m.port then a.sample d m else a) := by
      refine congrArg _ ((State.ptpMsg_of_domain h hd).trans ?_)
      simp only [chosen]
    rw [sync]
    exact ⟨fun sender port => by rw [if_pos ⟨sender, port⟩], fun other => by rw [if_neg fun e => other e.1]⟩
  · exact congrArg _ (State.ptpMsg_stopped h)
  · exact congrArg _ (State.ptpMsg_of_noDomain h hd)
  · have takes : exec (.ptpAnnounce m.toRxHead m.toAnnData) s = .next (a.announced d m) := congrArg _ (State.ptpMsg_of_domain h hd)
    rw [takes]
    refine ⟨rfl, fun hx => ⟨fun unheard => ?_, fun b o y best chosen same hy state other agree => ?_⟩⟩
    · rw [State.announced_none unheard hx]
    · rw [State.announced_same best chosen same hx hy state other agree]
  · simp only [exec, execAnnounceTimeout, State.advance_dom, unchosen, Option.filter]
  · exact congrArg _ (State.ptpMsg_of_domain h hd)
  · have port : (match (a.dom d).chosen with | some x => x.port == m.port | none => true) = true := by
      rcases shown with unchosen | ⟨x, chosen, port⟩
      · rw [unchosen]
      · rw [chosen]; exact beq_iff_eq.mpr port
    refine ⟨_, exec_pdelayResp h hd, ?_⟩
    rw [if_pos port]
    exact ⟨by rw [State.dom_congr (State.wr_tb ..), State.dom_setDom],
      State.rd_wr_same _ _ rfl (by simp [idxOk, Reg.TB_DOM_PDELAY_NS, small])⟩
  · rw [exec_pdelayResp h hd]
    refine congrArg _ (if_neg ?_)
    rw [chosen]
    simpa using far
  · exact ⟨congrArg _ (State.ptpMsg_of_noDomain h hd), congrArg _ (State.ptpMsg_of_noDomain h hd)⟩
  · exact ⟨congrArg _ (State.ptpMsg_stopped h), congrArg _ (State.ptpMsg_stopped h)⟩
  · simp only [exec, execPdelayReqSend, State.advance_dom, State.advance_domConf, conf, first, Bool.not_false, Bool.and_self, if_true,
      State.domPorts_setDom, State.advance_now_eq]
  · simp only [exec, execPdelayReqSend, State.advance_dom, last, State.advance_now_eq, early, decide_true, Bool.not_true, Bool.and_false,
      Bool.false_eq_true, if_false]

end Sys2Proof.Machine
end

section
/-! PROOFS of the family 03_ports_streams: the receive front of a port, subscribers' commands, timers, streams and descriptors. -/
namespace Sys2Proof.Machine
variable {s a : State}

/-! ### The receive front of a port (R92, R94, R96) -/

/-- A frame that passes the front goes on. -/
theorem State.onFrame_passed {f : RxHead} (h : s.rxFront f = (a, true)) (k : State → State) : s.onFrame f k = k a := by
  unfold State.onFrame; rw [h]

/-- A frame that does not pass the front goes no further. -/
theorem State.onFrame_stopped {f : RxHead} (h : s.rxFront f = (a, false)) (k : State → State) : s.onFrame f k = a := by
  unfold State.onFrame; rw [h]

theorem State.rxFront_disabled {f : RxHead} (off : s.flag Reg.NET_PORT_CFG_EN [f.port] = false) : s.rxFront f = (s.advance f.raw, false) := by
  simp [State.rxFront, off]

/-- The counters of a port stand in words of their own. -/
theorem State.inc_rxFrames {g : Fld} (row : g.dims = [(0x100, 4)]) (other : g.base % 0x100 ≠ 0x40) (s : State) (p : Fin 4) :
    (s.inc g [p]).rd Reg.NET_PORT_RX_FRAMES [p] = s.rd Reg.NET_PORT_RX_FRAMES [p] := by
  refine s.rd_wr_off _ ?_
  simp only [Fld.off, row, idxOff, Reg.NET_PORT_RX_FRAMES]
  omega

/-- Duplicate discard counts in PRP_DUP, and a full node table sets its notice: neither changes RX_FRAMES. -/
theorem State.prpPass_rxFrames (s : State) (f : RxHead) :
    (s.prpPass f).1.rd Reg.NET_PORT_RX_FRAMES [f.port] = s.rd Reg.NET_PORT_RX_FRAMES [f.port] := by
  have full : Within 0x410000100800024 s s.prpFull := State.prpFull_in rfl (.refl s)
  unfold State.prpPass
  split
  · split
    · exact s.inc_rxFrames rfl (by decide) f.port
    · split
      · rfl
      · exact full.rd (by simp [idxOk, Reg.NET_PORT_RX_FRAMES]) rfl rfl
  · rfl

/-- A frame with a good FCS on an enabled port counts in RX_FRAMES, whether it passes or not (R132). -/
theorem State.rxFront_counts {f : RxHead} (on : s.flag Reg.NET_PORT_CFG_EN [f.port] = true) :
    (s.rxFront f).1.rd Reg.NET_PORT_RX_FRAMES [f.port] = (s.rd Reg.NET_PORT_RX_FRAMES [f.port] + 1) % 2 ^ 32 := by
  have counted := (s.advance f.raw).rd_inc_same (f := Reg.NET_PORT_RX_FRAMES) (idx := [f.port.val]) rfl (by simp [idxOk, Reg.NET_PORT_RX_FRAMES])
  unfold State.rxFront
  extract_lets b c v d
  rw [if_neg (by rw [show b.flag Reg.NET_PORT_CFG_EN [f.port] = true from on]; decide)]
  have noted : d.rd Reg.NET_PORT_RX_FRAMES [f.port] = (s.rd Reg.NET_PORT_RX_FRAMES [f.port] + 1) % 2 ^ 32 := counted
  split
  · exact (d.prpPass_rxFrames f).trans noted
  · exact (d.inc_rxFrames rfl (by decide) f.port).trans noted

/-! ### Requests to the port itself (R93) -/

section
variable {f : RxFrame} {addr : Nat} (passed : s.rxFront f.toRxHead = (a, true))
include passed

theorem exec_arpRequest_passed : exec (.arpRequest f addr) s = .next
    (if a.ownAddr f.port addr f.v6 then a.tx f.port 3 (a.rd Reg.NET_EGR_PCP_DATA []) none (.arpReply addr f.src) else a) :=
  congrArg _ (State.onFrame_passed passed _)

/-- The echo answers that a port has given in the second of device time (log entry 129). -/
def State.echoes (s : State) (p : Fin 4) : Nat := if (s.port p).echoSec = secOf s.now then (s.port p).echoCnt else 0

theorem exec_echoRequest_answered (own : a.ownAddr f.port addr f.v6 = true) (short : f.payload.length ≤ 1500) (few : a.echoes f.port < 100) :
    exec (.echoRequest f addr) s = .next
      ((a.setPort f.port { a.port f.port with echoSec := secOf a.now, echoCnt := a.echoes f.port + 1 }).tx f.port 3
        (a.rd Reg.NET_EGR_PCP_DATA []) none (.echoReply f.src f.payload)) :=
  congrArg Host.Outcome.next ((State.onFrame_passed passed _).trans (if_pos (And.intro own (And.intro short few))))

theorem exec_echoRequest_dropped (h : ¬(a.ownAddr f.port addr f.v6 = true ∧ f.payload.length ≤ 1500 ∧ a.echoes f.port < 100)) :
    exec (.echoRequest f addr) s = .next a :=
  congrArg Host.Outcome.next ((State.onFrame_passed passed _).trans (if_neg h))
end

/-- Settles O27: the counts and the disabled port by the laws of `rxFront`, each kind of frame by what `onFrame` does with one that passes
and with one that does not. -/
theorem framesAndRequestsReceived : Obligations.FramesAndRequestsReceived := by
  refine ⟨fun f s a => ⟨State.rxFront_disabled, State.rxFront_counts, fun passed => ?_, fun stopped => ?_⟩,
    fun f addr s a passed => ⟨fun own => ?_, fun foreign => ⟨?_, ?_⟩, fun own short few => exec_echoRequest_answered passed own short few,
      fun exceeds => exec_echoRequest_dropped passed ?_⟩⟩
  · have ends (k : State → State) : (.next (s.onFrame f.toRxHead k) : Res) = .next (k a) :=
      congrArg _ (State.onFrame_passed passed k)
    exact ⟨ends _, ends _, fun p => ends _, ends _, fun x p => ends _, ends _⟩
  · have ends (k : State → State) : (.next (s.onFrame f.toRxHead k) : Res) = .next a :=
      congrArg _ (State.onFrame_stopped stopped k)
    exact ⟨ends _, ends _, fun p => ends _, ends _, fun x p => ends _, ends _⟩
  · rw [exec_arpRequest_passed passed, if_pos own]
  · rw [exec_arpRequest_passed passed, if_neg (by simp [foreign])]
  · exact exec_echoRequest_dropped passed (by simp [foreign])
  · rintro ⟨-, short, few⟩
    rcases exceeds with long | ⟨second, many⟩
    · omega
    · rw [State.echoes, if_pos second] at few
      omega

/-! ### Subscribers' commands (R171, R172) -/

@[simp] theorem State.rndSt_setRnd (s : State) (r : Nat) (v : RndSt) : (s.setRnd r v).rndSt r = v := sget_sset_same

/-- A well-formed command frame for a Round goes to that Round. -/
theorem State.command_of_round {f : RxFrame} {r : Nat} (on : s.processing = true) (udp : f.conn = none)
    (dport : f.dport = s.rd Reg.NET_UDP_C37 []) (addr : s.addrOk f.port f.dst f.v6 = true) (sound : c37Bad f.payload = none)
    (round : s.cmdRound f = some r) (k : State → Nat → State) : s.command f k = k s r := by
  have taken : (f.conn.isSome || !s.taken f (s.rd Reg.NET_UDP_C37 [])) = false := by simp [State.taken, on, udp, dport, addr]
  unfold State.command
  simp only [taken, sound, round, Bool.false_eq_true, if_false]

/-- Settles O32: each command frame passes the front and reaches its Round. -/
theorem subscriberCommands : Obligations.SubscriberCommands := by
  intro f s a r passed on udp dport addr sound round
  have reaches (k : State → Nat → State) : s.onFrame f.toRxHead (fun b => b.command f k) = k a r :=
    (State.onFrame_passed passed _).trans (State.command_of_round on udp dport addr sound round k)
  refine ⟨congrArg _ (reaches _), congrArg _ (reaches _), ⟨_, congrArg Host.Outcome.next (reaches _), ?_, ?_⟩,
    ⟨_, congrArg Host.Outcome.next (reaches _), ?_⟩, congrArg _ (reaches _)⟩ <;> rw [State.rndSt_setRnd]

/-! ### Reassembly (R95) -/

theorem State.reasmFail_count (s : State) (n : Nat) : (s.reasmFail n).rd Reg.NET_REASM_FAIL_COUNT [] =
    (s.rd Reg.NET_REASM_FAIL_COUNT [] + n) % 2 ^ Reg.NET_REASM_FAIL_COUNT.width :=
  (State.rd_notice _ _ _ _ _ _ rfl rfl rfl).trans (s.rd_bump_same n rfl rfl)

theorem State.reasmFail_net (s : State) (n : Nat) : (s.reasmFail n).net = s.net :=
  (State.notice_part _ bNET 7 n 0 0 .net (by decide) (by decide)).trans (s.wr_net _ _ _)

theorem State.reasmFail_noticed (s : State) (n : Nat) : (s.reasmFail n).noticed bNET 7 := State.notice_bit _ n 0 0 (by decide)

theorem exec_reasmTimeout_due {x : FragId} {t : Time} {c : FragCtx} (ctx : (s.net.frags.find? fun c => c.isFor x) = some c)
    (due : c.start + 5 * msU ≤ max s.now t) :
    exec (.reasmTimeout x t) s = .next (((s.advance t).dropFrag x).reasmFail c.parts.length) := by
  simp only [exec, execReasmTimeout, State.advance_net, ctx, State.advance_now_eq]
  exact congrArg _ (if_pos due)

/-! ### Connections and requests to senders (R106, R107, R110) -/

/-- A command to the other end of a connection (R106). -/
def State.askConn (s : State) (c : Conn) (n cmd : Nat) : State :=
  s.tx c.port 3 (s.rd Reg.NET_EGR_PCP_DATA []) none (.tcp n (s.cmdBytes (s.connIdent c) cmd))

/-- A connection that comes up is asked for CFG-2, and for data where a descriptor is held. -/
theorem exec_tcpConnected_known {n : Nat} {t : Time} {c : Conn} (known : s.conn n = some c)
    (asked : a = ((s.advance t).putConn { c with up := true, waiting := false, fails := 0, buf := [] }).askConn c n 5) :
    exec (.tcpConnected n t) s = .next (if a.connDesc c then a.askConn c n 2 else a) := by
  simp only [exec, execTcpConnected, State.advance_conn, known, asked]
  rfl

theorem exec_tcpConnFail_known {n : Nat} {t : Time} {c : Conn} (known : s.conn n = some c) : exec (.tcpConnFail n t) s =
    .next ((s.advance t).putConn { c with up := false, waiting := true, fails := c.fails + 1, buf := [], failAt := max s.now t }) := by
  simp only [exec, execTcpConnFail, State.advance_conn, known, State.advance_now_eq]

theorem exec_tcpReconnect_due {n : Nat} {t : Time} {c : Conn} (known : s.conn n = some c) (waiting : c.waiting = true)
    (due : c.retryAt ≤ max s.now t) :
    exec (.tcpReconnect n t) s = .next (((s.advance t).putConn { c with waiting := false }).openConn c) := by
  simp only [exec, execTcpReconnect, State.advance_conn, known, State.advance_now_eq, waiting, due, and_self, if_true]

theorem exec_cfgRequestTimer_due {n : Nat} {t r : Time} {e : Sender} (known : s.senderByKey n = some e) (letIn : e.letIn = true)
    (lacks : s.lacksDesc e = true) (falls : e.requestAt = some r) (due : r ≤ max s.now t) : exec (.cfgRequestTimer n t) s =
    .next (((s.advance t).putSender { e with reqN := e.reqN + 1, reqLast := some (max s.now t) }).sendCmd e 5) := by
  simp only [exec, execCfgRequestTimer, State.advance_senderByKey, State.advance_lacksDesc, State.advance_now_eq, known, letIn, lacks, falls,
    Option.any_some, due, decide_true, Bool.true_eq_false, or_self, if_true, if_false]

/-- Settles O28: each timer by the lemma of its row. -/
theorem connectionTimers : Obligations.ConnectionTimers := by
  refine ⟨fun x t c s ctx due => ⟨_, exec_reasmTimeout_due ctx due, ?_, State.reasmFail_noticed _ _, State.reasmFail_count _ _⟩,
    fun n t c s a known => ⟨fun asked => ⟨fun undescribed => ?_, fun held => ?_⟩, exec_tcpConnFail_known known, exec_tcpReconnect_due known⟩,
    fun n t r e s => exec_cfgRequestTimer_due⟩
  · rw [State.reasmFail_net]; rfl
  · rw [exec_tcpConnected_known known asked, if_neg (by simp [undescribed])]
  · rw [exec_tcpConnected_known known asked, if_pos held]; rfl

/-! ### The instants of a stream (R122, R123) -/

/-- A stream that is live or, pinned, at its idle limit (R139). -/
def State.liveOrIdle (s : State) (sid : Nat) : Prop := s.rd Reg.STAB_STATE [sid] = 3 ∨ s.rd Reg.STAB_STATE [sid] = 4

/-- The idle count that an instant without a letter gives a stream. -/
def State.idleNext (s : State) (sid : Nat) (t : Time) : Nat := min ((s.clearedLate sid t).getD (s.rd Reg.STAB_IDLE_CNT [sid]) + 1) 65535

theorem State.idleNext_of_uncleared {sid : Nat} {t : Time} (h : s.clearedLate sid t = none) :
    s.idleNext sid t = min (s.rd Reg.STAB_IDLE_CNT [sid] + 1) 65535 := by rw [State.idleNext, h]; rfl

theorem State.idleNext_of_cleared {sid n : Nat} {t : Time} (h : s.clearedLate sid t = some n) :
    s.idleNext sid t = min (n + 1) 65535 := by rw [State.idleNext, h]; rfl

/-- The count that a letter cleared stands by for one instant. -/
def State.clearedDone (s : State) (sid : Nat) : State := { s with adm := { s.adm with cleared := serase s.adm.cleared sid } }

/-- What an instant without a letter does to a stream: below the limit and in STANDBY it counts, at the limit a pinned stream is idle and
any other retires. -/
theorem exec_streamInstant {sid : Fin 16384} {t : Time} (on : s.processing = true) (live : s.liveOrIdle sid) :
    exec (.streamInstant sid t) s = .next (
      let b := (s.advance t).clearedDone sid
      if s.idleNext sid t < max 1 (s.rd Reg.STAB_IDLE_RI [sid]) ∨ s.holding = true then
        b.wr Reg.STAB_IDLE_CNT [sid] (if (s.clearedLate sid t).isSome then 0 else s.idleNext sid t)
      else
        let b := b.wr Reg.STAB_IDLE_CNT [sid] (s.idleNext sid t)
        if b.flag Reg.STAB_PINNED [sid] then b.wr Reg.STAB_STATE [sid] 4 else b.retire sid) := by
  have judged : ¬((!(s.advance t).processing) = true ∨
      (s.advance t).rd Reg.STAB_STATE [sid] ≠ 3 ∧ (s.advance t).rd Reg.STAB_STATE [sid] ≠ 4) := by
    rw [State.processing_advance, State.rd_advance, on]
    rcases live with live | live <;> simp [live]
  exact congrArg _ (if_neg judged)

theorem idxOk_stab (f : Fld) (row : f.dims = [(0x100, 16384)]) (sid : Fin 16384) : idxOk f.dims [sid.val] = true := by
  simp [row, idxOk]

/-! ### CHECK of a descriptor (R113) -/

theorem exec_descriptorCheckWrite {sid : Fin 16384} {w : Word} (takes : s.takesWrite (Reg.DESC_CHECK.off [sid])) :
    exec (.descriptorCheckWrite sid w) s = .next (s.descCheckWrite sid w) :=
  congrArg Host.Outcome.next (State.hostGate_takes takes _ _)

/-- Outside LOADING and SERVICE a descriptor is written only while its SID is free or awaits configuration. -/
theorem State.descCheckWrite_refused {sid : Nat} {w : Word} (loading : s.mode ≠ .loading) (service : s.mode ≠ .service)
    (held : s.rd Reg.STAB_STATE [sid] ≠ 0) (configured : s.rd Reg.STAB_STATE [sid] ≠ 2) :
    s.descCheckWrite sid w = s.logRefused (Reg.DESC_CHECK.off [sid]) w.toNat := by
  simp [State.descCheckWrite, loading, service, held, configured]

/-- A live stream whose descriptor the host leaves unusable awaits configuration, and its Rounds judge it anew. -/
theorem State.descCheckWrite_unusable {sid : Nat} {w : Word} (service : s.mode = .service) (live : s.liveOrIdle sid)
    (bad : descOk ((s.put 0x800000 (Reg.DESC_CHECK.off [sid]) w).desc sid) = false) :
    s.descCheckWrite sid w =
      forEach ((s.put 0x800000 (Reg.DESC_CHECK.off [sid]) w).rndsNaming sid) (fun r a => a.showMembers r)
        (((s.put 0x800000 (Reg.DESC_CHECK.off [sid]) w).wr Reg.STAB_STATE [sid] 2).showAdm) := by
  unfold State.liveOrIdle at live
  simp [State.descCheckWrite, service, live, bad]

/-! ### Held R-GOOSE states (R112) -/

theorem exec_rgooseHoldLetter_held {sid : Fin 16384} {t : Time} {l : Letter} (on : s.processing = true)
    (live : 3 ≤ s.rd Reg.STAB_STATE [sid]) (held : sfind s.adm.hold sid = some l) : exec (.rgooseHoldLetter sid t) s =
    .next ((s.advance t).letterFormed { l with sec := instantOf t (fps l.rate) / fps l.rate, k := instantOf t (fps l.rate) % fps l.rate
                                               flags := if l.flags / 0x800 % 2 = 1 then l.flags - 0x800 else l.flags } 0) := by
  have judged : ¬((!s.processing) = true ∨ s.rd Reg.STAB_STATE [sid] < 3) := by rw [on]; simpa using live
  simp only [exec, execRgooseHoldLetter, State.advance_adm, held, State.processing_advance, State.rd_advance]
  exact if_neg judged

/-- Settles O30: an instant of a stream by its branches, CHECK and held states by the lemmas of their rows. -/
theorem streamsAndDescriptors : Obligations.StreamsAndDescriptors := by
  refine ⟨fun sid t s on live => ⟨fun unclear => ⟨fun counts => ?_, fun limit active pinned => ?_⟩, fun n cleared below => ?_⟩,
    fun sid w s takes loading service held configured => ?_, fun sid w s takes service live bad => ?_,
    fun sid t l s => exec_rgooseHoldLetter_held⟩
  · have next := State.idleNext_of_uncleared unclear
    refine ⟨_, (exec_streamInstant on live).trans (congrArg _ (if_pos (by rwa [next]))), ?_, ?_⟩
    · rw [State.rd_wr_same _ _ rfl (idxOk_stab _ rfl sid), unclear, next]
      exact Nat.mod_eq_of_lt (by simp [Fld.width, Reg.STAB_IDLE_CNT])
    · exact State.rd_wr_bits _ _ rfl rfl (.inl (by decide))
  · have next := State.idleNext_of_uncleared unclear
    have idle : ¬(s.idleNext sid t < max 1 (s.rd Reg.STAB_IDLE_RI [sid]) ∨ s.holding = true) := by
      rw [next, active]; simpa using limit
    refine ⟨_, (exec_streamInstant on live).trans (congrArg _ ((if_neg idle).trans (if_pos ?_))),
      State.rd_wr_same _ _ rfl (idxOk_stab _ rfl sid)⟩
    exact (congrArg (· != 0) (State.rd_wr_bits _ _ rfl rfl (.inl (by decide)))).trans pinned
  · have next := State.idleNext_of_cleared cleared
    refine ⟨_, (exec_streamInstant on live).trans (congrArg _ (if_pos (.inl (by rwa [next])))), ?_⟩
    rw [cleared]
    exact State.rd_wr_same _ _ rfl (idxOk_stab _ rfl sid)
  · rw [exec_descriptorCheckWrite takes, State.descCheckWrite_refused loading service held configured]
  · rw [exec_descriptorCheckWrite takes, State.descCheckWrite_unusable service live bad]

end Sys2Proof.Machine
end

section
/-! PROOFS of the family 04_alignment: filing, the mailbags of a Round, and COMMIT of a Round's table. -/
namespace Sys2Proof.Machine
variable {s : State} {t : Time} {r : Fin 64}

/-! ### Filing (R144) -/

/-- A filing item in service files its letter, and every Round that names the stream may go on with a mailbag it follows (R414). -/
theorem exec_fileLetter_serving {sid : Nat} {i : Item} {l : Letter} {fwd : Bool}
    (serving : s.servingItem sid (fun w => match w with | .file _ _ => true | _ => false) i) (work : i.work = .file l fwd) :
    exec (.fileLetter sid t) s = .next (forEach (s.rndsOf l.sid) (fun r a => a.tryFollow r false)
      ((((s.advance t).markRan i.key).fileLetter l).pairFiled l fwd)).drainOverflow := by
  obtain ⟨next, inService⟩ := serving
  simp only [exec, execFileLetter]
  split
  case h_1 j found =>
    obtain rfl : j = i := Option.some.inj (found.symm.trans next)
    simp only [work, inService, if_true, State.advance_rndsOf]
  case h_2 missing => exact absurd (missing.symm.trans next) (by simp)

/-! ### The instants of a Round (R148) -/

/-- An instant of a Round has gone out, or its mailbag is open. -/
def State.pastInstant (s : State) (r n : Nat) : Bool :=
  (match (s.rndSt r).last with | some k => decide (n ≤ k) | none => false) || (s.rndSt r).bags.any fun b => decide (n ≤ b.n)

/-- On a wheel that has started, a fresh instant of an enabled Round other than RND0 opens its mailbag. -/
theorem State.roundInstant_opens (on : s.processing = true) (started : s.whl.started = true) (notPacing : r.val ≠ 0)
    (enabled : s.rndOn r = true) (fresh : s.pastInstant r (instantOf t (s.rndFps r)) = false) :
    s.roundInstant r t = s.openBag r (instantOf t (s.rndFps r)) := by
  have opens : (s.whl.started && s.rndOn r && !s.pastInstant r (instantOf t (s.rndFps r))) = true := by
    rw [started, enabled, fresh]; rfl
  simp only [State.roundInstant, if_pos on, if_neg notPacing]
  exact if_pos opens

/-! ### Deadlines (R155) -/

/-- Showing the pool's occupancy leaves the Rounds. -/
@[simp] theorem State.rndSt_showOcc (s : State) (n : Nat) : s.showOcc.rndSt n = s.rndSt n := by
  have shown : Within 0x10000000000 s s.showOcc := State.showOcc_in rfl (.refl s)
  unfold State.rndSt
  rw [shown.parts .whl rfl]

/-! ### Dispatch (R156, R187) -/

/-- A closed mailbag still waits for what must come before this unit dispatches it. -/
def State.dispatchWaits (s : State) (r : Nat) (b : Mailbag) (c : Time × Bool) : Bool :=
  !s.processing || s.follows || !s.portsPassed c.1 || s.inFlightFor r b c || !s.dspRoom r c.1

theorem exec_dispatch_closed {b : Mailbag} {c : Time × Bool} (first : (s.rndSt r).bags.head? = some b) (closed : b.close = some c) :
    exec (.dispatch r t) s =
      .next (if (s.advance t).dispatchWaits r b c then s.advance t else (s.advance t).dispatchOwn r b c) := by
  simp only [exec, execDispatch, State.advance_rndSt, first, closed]
  rfl

/-! ### COMMIT of a Round's table (R152) -/

theorem exec_roundCommit {w : Word} (takes : s.takesWrite (Reg.WHL_RND_COMMIT_GO.off [r])) :
    exec (.roundCommit r w) s = .next (s.commitWrite r w) :=
  congrArg Host.Outcome.next (State.hostGate_takes takes _ _)

section
variable {w : Word}

theorem State.commitWrite_ignored (h : Reg.WHL_RND_COMMIT_GO.get w = 0 ∨ s.rd Reg.WHL_RND_COMMIT_STATUS [r] = 1) :
    s.commitWrite r w = s := if_pos h

/-- GO of a Round that announces nothing is judged by the frame that the shadow table makes (R152, R169). -/
theorem State.commitWrite_judged (go : Reg.WHL_RND_COMMIT_GO.get w = 1) (free : s.rd Reg.WHL_RND_COMMIT_STATUS [r] ≠ 1) :
    s.commitWrite r w = if 65535 < s.frameSize r (s.membersIn Reg.WHL_MEMB_SHADOW r).length then
      (s.wr Reg.WHL_RND_COMMIT_STATUS [r] 3).whlNotice r 2 0 0 else s.announce r :=
  if_neg (by simp [go, free])
end

/-- Settles O39: a filing item and a fresh instant by their one branch, a deadline by what showing the occupancy leaves, DISPATCH and COMMIT
by whether their guard lets them through. -/
theorem wheelAndMailbags : Obligations.WheelAndMailbags := by
  refine ⟨fun sid t i l fwd s => exec_fileLetter_serving, fun r t s on started notPacing enabled fresh => ?_,
    fun r t s => ⟨_, rfl, ?_⟩, fun r t b c s first closed on leads passed filed room => ?_,
    fun r t b c s first closed waits => ?_, fun r w s takes => ⟨fun ignored => ?_, fun go free => ⟨fun long => ?_, fun fits => ?_⟩⟩⟩
  · exact congrArg (fun a : State => Host.Outcome.next a.sleepAll)
      (State.roundInstant_opens (s := s.advance t) on started notPacing enabled fresh)
  · exact congrArg RndSt.bags ((State.rndSt_showOcc _ _).trans (State.rndSt_setRnd _ _ _))
  · have ready : (s.advance t).dispatchWaits r b c = false := by simp [State.dispatchWaits, on, leads, passed, filed, room]
    rw [exec_dispatch_closed first closed, if_neg (by simp [ready])]
  · have held : (s.advance t).dispatchWaits r b c = true := by
      rcases waits with h | h | h | h | h <;> simp [State.dispatchWaits, h]
    rw [exec_dispatch_closed first closed, if_pos held]
  · rw [exec_roundCommit takes, State.commitWrite_ignored ignored]
  · rw [exec_roundCommit takes, State.commitWrite_judged go free, if_pos long]
  · rw [exec_roundCommit takes, State.commitWrite_judged go free, if_neg (Nat.not_lt.mpr fits)]

end Sys2Proof.Machine
end

section
/-! PROOFS of the family 05_sorting_office: the host rings, the ends and cancels of items, and NOP, capture and compression commands. -/
namespace Sys2Proof.Machine
variable {s x : State} {f g : Fld} {n r : Nat}

/-! ### The registers of a ring (R209, R216) -/

/-- A field that each of `n` rings has for its own, 0x40 apart, in an area that no notice changes. -/
def Fld.ofRing (g : Fld) (n : Nat) : Bool :=
  g.dims == [(0x40, n)] && g.sane && g.fits && !(0x410000100800004 : Nat).testBit (32 + areaOf g.base)

theorem Fld.ofRing_iff : g.ofRing n = true ↔
    g.dims = [(0x40, n)] ∧ g.sane = true ∧ g.fits = true ∧ (0x410000100800004 : Nat).testBit (32 + areaOf g.base) = false := by
  simp [Fld.ofRing, and_assoc]

theorem Fld.idxOk_ofRing (hg : g.ofRing n = true) (lt : r < n) : idxOk g.dims [r] = true := by
  obtain ⟨dims, -⟩ := Fld.ofRing_iff.mp hg
  simp [dims, idxOk, lt]

/-- Fields of the same arrays with other bases lie in other words. -/
theorem State.rd_wr_base {idx : List Nat} (s : State) (v : Nat) (dims : g.dims = f.dims) (ne : g.base ≠ f.base) :
    (s.wr f idx v).rd g idx = s.rd g idx := by
  refine s.rd_wr_off v ?_
  simpa [Fld.off, dims] using ne

theorem State.rd_wr_ring (s : State) (v : Nat) (lt : r < n) (hf : f.ofRing n = true := by decide) :
    (s.wr f [r] v).rd f [r] = v % 2 ^ f.width := by
  obtain ⟨-, sane, -, -⟩ := Fld.ofRing_iff.mp hf
  exact s.rd_wr_same v sane (Fld.idxOk_ofRing hf lt)

theorem State.rd_notice_ring (s : State) (b bit d0 d1 d2 : Nat) (lt : r < n) (hg : g.ofRing n = true := by decide) :
    (s.notice b bit d0 d1 d2).rd g [r] = s.rd g [r] := by
  obtain ⟨-, -, fits, quiet⟩ := Fld.ofRing_iff.mp hg
  exact s.rd_notice b bit d0 d1 d2 (Fld.idxOk_ofRing hg lt) fits quiet

/-! ### Doorbells of the rings to the host (R209, R210) -/

/-- One word of a doorbell, if the access carries it. -/
def State.prTake (s : State) (r : Nat) (prod cons : Fld) (size : Nat) (w : Option Word) : State :=
  match w with
  | some w => s.prCons r prod cons size w
  | none => s

/-- What a doorbell of an enabled ring does. -/
def State.prBell (s : State) (r : Nat) (w wB : Option Word) : State :=
  let a := s.prTake r Reg.PR_PROD Reg.PR_CONS (2 ^ s.prSlog r) w
  (a.prTake r Reg.PR_PROD_B Reg.PR_CONS_B (2 ^ a.prDlog r) wB).prResume r

theorem exec_prDoorbell_enabled {ring : Fin 128} {w wB : Option Word} (run : s.ringsRun = true) (en : s.flag Reg.PR_CFG_EN [ring] = true)
    (carries : (w.isSome || wB.isSome) = true) : exec (.prDoorbell ring (.write w) wB) s = .next (s.prBell ring w wB) := by
  simp only [exec, execPrDoorbell, State.bell, run, en, Bool.and_self, if_true]
  exact congrArg Host.Outcome.next (if_pos carries)

theorem exec_prDoorbell_disabled {ring : Fin 128} {w wB : Option Word} (off : s.flag Reg.PR_CFG_EN [ring] = false) :
    exec (.prDoorbell ring (.write w) wB) s = .next s := by
  simp [exec, execPrDoorbell, State.bell, off]

section
variable {prod cons : Fld} {size : Nat} (s : State) (ring : Fin 128)

/-- A count within the ring is taken. -/
theorem State.prTake_taken {w : Word} (within : inRing (s.rd prod [ring]) w.toNat size = true)
    (hc : cons.ofRing 128 = true := by decide) (full : cons.width = 32 := by decide) :
    (s.prTake ring prod cons size (some w)).rd cons [ring] = w.toNat := by
  simp only [State.prTake, State.prCons, within, if_true]
  rw [s.rd_wr_ring _ ring.isLt hc, full, Nat.mod_eq_of_lt w.isLt]

/-- One outside it leaves the register and is noticed. -/
theorem State.prTake_refused {w : Word} (beyond : inRing (s.rd prod [ring]) w.toNat size = false) :
    s.prTake ring prod cons size (some w) = s.doorbellBad ring w.toNat := by
  simp [State.prTake, State.prCons, beyond]

theorem State.doorbellBad_noticed (id v : Nat) : (s.doorbellBad id v).noticed bHIF 4 := s.notice_bit _ _ _ (by decide)

/-- Every other register of the ring stays. -/
theorem State.rd_prTake (w : Option Word) (hg : g.ofRing 128 = true := by decide) (dims : g.dims = cons.dims := by decide)
    (ne : g.base ≠ cons.base := by decide) : (s.prTake ring prod cons size w).rd g [ring] = s.rd g [ring] := by
  cases w with
  | none => rfl
  | some w =>
    simp only [State.prTake, State.prCons]
    split
    · exact s.rd_wr_base _ dims ne
    · exact s.rd_notice_ring _ _ _ _ _ ring.isLt hg

/-- Going on after a drop changes DROPPING and nothing else of the ring. -/
theorem State.rd_prResume (hg : g.ofRing 128 = true := by decide) (dims : g.dims = Reg.PR_STAT_DROPPING.dims := by decide)
    (ne : g.base ≠ Reg.PR_STAT_DROPPING.base := by decide) : (s.prResume ring).rd g [ring] = s.rd g [ring] := by
  unfold State.prResume
  split
  · exact (State.rd_notice_ring _ _ _ _ _ _ ring.isLt hg).trans (s.rd_wr_base _ dims ne)
  · rfl
end

/-- A doorbell's word leaves every notice standing. -/
theorem Reports.prTake {prod cons : Fld} {size : Nat} (h : Reports s x) (w : Option Word) (hc : Incl (fldMask cons) 0x40000000000000 := by decide) :
    Reports s (x.prTake r prod cons size w) := by
  cases w with
  | none => exact h
  | some w =>
    simp only [State.prTake, State.prCons]
    split
    · exact h.then (State.wr_in hc (.refl x)) rfl rfl rfl
    · exact h.notice ..

section
variable (s : State) (ring : Fin 128) (w wB : Option Word)

theorem State.prBell_cons : (s.prBell ring w wB).rd Reg.PR_CONS [ring] =
    (s.prTake ring Reg.PR_PROD Reg.PR_CONS (2 ^ s.prSlog ring) w).rd Reg.PR_CONS [ring] :=
  (State.rd_prResume _ ring).trans (State.rd_prTake _ ring wB)

theorem State.prBell_prod : (s.prBell ring w wB).rd Reg.PR_PROD [ring] = s.rd Reg.PR_PROD [ring] :=
  (State.rd_prResume _ ring).trans ((State.rd_prTake _ ring wB).trans (s.rd_prTake ring w))

/-- The count of bytes is judged by the ring as it stood, whatever CONS did before it. -/
theorem State.prBell_consB_taken {v : Word} (within : inRing (s.rd Reg.PR_PROD_B [ring]) v.toNat (2 ^ s.prDlog ring) = true) :
    (s.prBell ring w (some v)).rd Reg.PR_CONS_B [ring] = v.toNat := by
  have prod : (s.prTake ring Reg.PR_PROD Reg.PR_CONS (2 ^ s.prSlog ring) w).rd Reg.PR_PROD_B [ring] = s.rd Reg.PR_PROD_B [ring] :=
    s.rd_prTake ring w
  have size : (s.prTake ring Reg.PR_PROD Reg.PR_CONS (2 ^ s.prSlog ring) w).prDlog ring = s.prDlog ring :=
    congrArg (clampN 16 30) (s.rd_prTake ring w)
  exact (State.rd_prResume _ ring).trans (State.prTake_taken _ ring (by rw [prod, size]; exact within))

theorem State.prBell_consB_none : (s.prBell ring w none).rd Reg.PR_CONS_B [ring] = s.rd Reg.PR_CONS_B [ring] :=
  (State.rd_prResume _ ring).trans (s.rd_prTake (cons := Reg.PR_CONS) ring w)

theorem State.prBell_cons_taken {v : Word} (within : inRing (s.rd Reg.PR_PROD [ring]) v.toNat (2 ^ s.prSlog ring) = true) :
    (s.prBell ring (some v) wB).rd Reg.PR_CONS [ring] = v.toNat :=
  (s.prBell_cons ring _ _).trans (s.prTake_taken ring within)

/-- A count outside the ring leaves CONS, and its notice outlives the rest of the doorbell. -/
theorem State.prBell_cons_refused {v : Word} (beyond : inRing (s.rd Reg.PR_PROD [ring]) v.toNat (2 ^ s.prSlog ring) = false) :
    (s.prBell ring (some v) wB).rd Reg.PR_CONS [ring] = s.rd Reg.PR_CONS [ring] ∧ (s.prBell ring (some v) wB).noticed bHIF 4 := by
  have refused := s.prTake_refused (cons := Reg.PR_CONS) ring beyond
  constructor
  · rw [State.prBell_cons, refused]
    exact s.rd_notice_ring _ _ _ _ _ ring.isLt
  · have kept : Reports (s.doorbellBad ring v.toNat) (s.prBell ring (some v) wB) := by
      unfold State.prBell
      rw [refused]
      exact ((Reports.refl _).prTake wB).prResume _
    exact kept.bits _ _ (s.doorbellBad_noticed _ _)
end

/-! ### Doorbells of the letterbox rings (R216) -/

section
variable {m : Fin 16}

theorem exec_lbDoorbell_enabled {w : Word} (run : s.ringsRun = true) (en : s.flag Reg.LB_CFG_EN [m] = true) :
    exec (.lbDoorbell m (.write (some w))) s =
      .next (if inRing w.toNat (s.rd Reg.LB_CONS [m]) (2 ^ clampN 4 12 (s.rd Reg.LB_CFG_SLOG2 [m])) then s.wr Reg.LB_PROD [m] w.toNat
        else s.doorbellBad (128 + m) w.toNat) := by
  simp only [exec, execLbDoorbell, State.bell, run, en, Bool.and_self, if_true]

theorem exec_lbDoorbell_disabled {w : Option Word} (off : s.flag Reg.LB_CFG_EN [m] = false) :
    exec (.lbDoorbell m (.write w)) s = .next s := by
  simp [exec, execLbDoorbell, State.bell, off]
end

/-! ### Writes of CFG (R213, R229) -/

/-- The bits that an access code picks in a word are those of its fields. -/
theorem accMask_bit (off : Nat) (p : Acc → Bool) (i : Nat) :
    (accMask off p).getLsbD i = (fieldsAt off).any fun f => p f.acc && f.mask.getLsbD i := by
  have fold : ∀ (fs : List Fld) (a : Word), (fs.foldl (fun a f => if p f.acc then a ||| f.mask else a) a).getLsbD i =
      (a.getLsbD i || fs.any fun f => p f.acc && f.mask.getLsbD i) := by
    intro fs
    induction fs with
    | nil => simp
    | cons f fs ih =>
      intro a
      rw [List.foldl_cons, ih]
      cases h : p f.acc <;> simp [h, Bool.or_assoc]
  simpa [accMask] using fold (fieldsAt off) 0#32

theorem accMask_eq_zero {off : Nat} {p : Acc → Bool} (unpicked : ∀ f ∈ fieldsAt off, p f.acc = false) : accMask off p = 0#32 := by
  refine BitVec.eq_of_getLsbD_eq fun i _ => ?_
  rw [accMask_bit, BitVec.getLsbD_zero, List.any_eq_false]
  intro f hf
  simp [unpicked f hf]

/-- In a word of RW fields alone each field reads as the host wrote it. -/
theorem State.rd_store_allRw {idx : List Nat} (all : ∀ g ∈ fieldsAt (f.off idx), g.acc = .rw) (mem : f ∈ fieldsAt (f.off idx))
    (sane : f.sane = true) (s : State) (w : Word) : (s.store (f.off idx) w).rd f idx = f.get w := by
  have no (p : Acc → Bool) (hp : p .rw = false) : accMask (f.off idx) p = 0#32 :=
    accMask_eq_zero fun g hg => by rw [all g hg, hp]
  have accepted : s.rwlRefused (f.off idx) w = false := by simp [State.rwlRefused, rwlMask, no]
  refine Nat.eq_of_testBit_eq fun i => ?_
  unfold State.rd
  rw [State.store, accepted, if_neg Bool.false_ne_true, State.word_setWord, Fld.get_bit, Fld.get_bit]
  by_cases hi : i < f.width
  · have mine : f.mask.getLsbD (f.lo + i) = true := by
      rw [Fld.mask_bit sane]
      simp only [Fld.sane, Fld.width, Bool.and_eq_true, decide_eq_true_eq] at sane hi ⊢
      omega
    have picked : (accMask (f.off idx) fun a => a == .rw || a == .wo || (a == .rwl && s.rwlOpen)).getLsbD (f.lo + i) = true := by
      rw [accMask_bit, List.any_eq_true]
      exact ⟨f, mem, by simp [all f mem, mine]⟩
    have lt : f.lo + i < 32 := BitVec.lt_of_getLsbD mine
    simp only [storedWord, no (· == .w1c) rfl, no (· == .w1s) rfl, BitVec.getLsbD_or, BitVec.getLsbD_and, BitVec.getLsbD_not, picked]
    simp [lt]
  · simp [hi]

theorem exec_prEnable {ring : Fin 128} {w : Word} (takes : s.takesWrite (Reg.PR_CFG_EN.off [ring])) :
    exec (.prEnable ring w) s = .next (s.prCfg ring w) :=
  congrArg Host.Outcome.next (State.hostGate_takes takes _ _)

theorem exec_lbEnable {m : Fin 16} {w : Word} (takes : s.takesWrite (Reg.LB_CFG_EN.off [m])) :
    exec (.lbEnable m w) s = .next (s.lbCfg m w) :=
  congrArg Host.Outcome.next (State.hostGate_takes takes _ _)

theorem fieldsAt_lbCfg : ∀ m : Fin 16, fieldsAt (Reg.LB_CFG_EN.off [m.val]) =
    [Reg.LB_CFG_EN, Reg.LB_CFG_SLOG2, Reg.LB_CFG_CPL_RING, Reg.LB_CFG_DEPTH] := by decide

theorem State.store_lbCfg (s : State) (m : Fin 16) (w : Word) :
    (s.store (Reg.LB_CFG_EN.off [m]) w).rd Reg.LB_CFG_EN [m] = Reg.LB_CFG_EN.get w :=
  State.rd_store_allRw (by rw [fieldsAt_lbCfg]; decide) (by rw [fieldsAt_lbCfg]; decide) (by decide) s w

/-- EN = 1 is stored, and the counts start anew. -/
theorem State.lbCfg_enables (s : State) (m : Fin 16) {w : Word} (en : Reg.LB_CFG_EN.get w = 1) :
    (s.lbCfg m w).flag Reg.LB_CFG_EN [m] = true ∧ (s.lbCfg m w).rd Reg.LB_PROD [m] = 0 ∧ (s.lbCfg m w).rd Reg.LB_CONS [m] = 0 ∧
      (s.lbCfg m w).rd Reg.LB_DONE [m] = 0 := by
  have ok : idxOk [(0x40, 16)] [m.val] = true := by simp [idxOk]
  unfold State.lbCfg
  rw [if_pos en]
  refine ⟨?_, ?_, ?_, State.rd_wr_same _ 0 rfl ok⟩
  · unfold State.flag
    simp (disch := decide) only [State.rd_wr_base]
    exact congrArg (· != 0) ((s.store_lbCfg m w).trans en)
  · simp (disch := decide) only [State.rd_wr_base]
    exact State.rd_wr_same _ 0 rfl ok
  · simp (disch := decide) only [State.rd_wr_base]
    exact State.rd_wr_same _ 0 rfl ok

/-! ### Moderated vectors (R215, R547) -/

theorem State.raiseVector_sends {v : Nat} (en : s.hif.msixEn = true) (bme : s.flag Reg.HIF_STAT_BME [] = true)
    (unmasked : s.rd Reg.MSIX_CTRL [v] % 2 = 0) : s.raiseVector v = s.emit (.msix v) := by
  simp [State.raiseVector, en, bme, unmasked]

@[simp] theorem State.raiseVector_hif (s : State) (v : Nat) : (s.raiseVector v).hif = s.hif :=
  (State.raiseVector_in (M := 0x400000000800000) rfl (.refl s)).parts .hif rfl

/-- All of a ring's items are announced. -/
def State.noneUnannounced (s : State) (r : Nat) : State :=
  { s with hif := { s.hif with rings := sset s.hif.rings r { sget s.hif.rings r ring0 with unnot := 0 } } }

theorem exec_modTimeout_due {ring : Fin 128} {t : Time} (moderated : 2 ≤ s.rd Reg.PR_CFG_NOTIFY [ring])
    (waiting : 0 < (sget s.hif.rings ring ring0).unnot)
    (past : (sget s.hif.rings ring ring0).first + max 1 (s.rd Reg.PR_MOD_MOD_US [ring]) * usU ≤ max s.now t) :
    exec (.modTimeout ring t) s = .next (((s.advance t).noneUnannounced ring).raiseVector (s.rd Reg.PR_CFG_VEC [ring])) := by
  simp only [exec, execModTimeout, State.advance_hif, State.rd_advance, State.advance_now_eq, moderated, waiting, past, and_self, if_true]
  rfl

/-! ### PCIe errors (R218) -/

/-- A ring with an error stops, shows it and is noticed, whichever kind of ring it is. -/
theorem State.ringError_shows {en err : Fld} (s : State) (id : Nat) (lt : r < n) (hen : en.ofRing n = true := by decide)
    (herr : err.ofRing n = true := by decide) (one : err.width = 1 := by decide)
    (apart : en.dims = err.dims ∧ en.base ≠ err.base := by decide) :
    let u := ((s.setFlag en [r] false).setFlag err [r] true).notice bHIF 1 id 0 0
    u.flag en [r] = false ∧ u.flag err [r] = true ∧ u.noticed bHIF 1 := by
  intro u
  have stopped : u.rd en [r] = 0 :=
    calc u.rd en [r] = (s.setFlag en [r] false).rd en [r] :=
          (State.rd_notice_ring _ _ _ _ _ _ lt hen).trans (State.rd_wr_base _ _ apart.1 apart.2)
      _ = 0 := (s.rd_wr_ring _ lt hen).trans (Nat.zero_mod _)
  have shown : u.rd err [r] = 1 :=
    calc u.rd err [r] = 1 % 2 ^ err.width := (State.rd_notice_ring _ _ _ _ _ _ lt herr).trans (State.rd_wr_ring _ _ lt herr)
      _ = 1 := by rw [one]; rfl
  exact ⟨by simp [State.flag, stopped], by simp [State.flag, shown], State.notice_bit _ _ _ _ (by decide)⟩

theorem exec_ringPcieError_pr {ring : Fin 128} (run : s.ringsRun = true) (en : s.flag Reg.PR_CFG_EN [ring] = true) :
    exec (.ringPcieError false ring) s =
      .next (((s.setFlag Reg.PR_CFG_EN [ring] false).setFlag Reg.PR_STAT_PCIE_ERR [ring] true).notice bHIF 1 ring 0 0) := by
  simp [exec, execRingPcieError, run, en]

theorem exec_ringPcieError_lb {ring : Fin 128} (lt : ring.val < 16) (run : s.ringsRun = true) (en : s.flag Reg.LB_CFG_EN [ring] = true) :
    exec (.ringPcieError true ring) s =
      .next (((s.setFlag Reg.LB_CFG_EN [ring] false).setFlag Reg.LB_STAT_PCIE_ERR [ring] true).notice bHIF 1 (128 + ring) 0 0) := by
  simp [exec, execRingPcieError, run, lt, en]

/-- Settles O20: a doorbell by what each of its two words does and leaves, CFG by what its word stores, a moderated vector by what is left
unannounced, and an error by what it shows. -/
theorem ringsAndDoorbells : Obligations.RingsAndDoorbells := by
  refine ⟨⟨fun ring cons consB s run en within withinB => ⟨?_, ?_, ?_⟩, fun ring cons consB s run en beyond => ?_,
    fun m prod s run en => ⟨fun within => ?_, fun beyond => ?_⟩,
    fun ring m a b s => ⟨exec_prDoorbell_disabled, ?_, exec_lbDoorbell_disabled, fun lit => ⟨?_, ?_⟩⟩⟩,
    fun ring w s => exec_prEnable, fun m w s takes en => ⟨_, exec_lbEnable takes, s.lbCfg_enables m en⟩,
    fun ring t s moderated waiting past => ⟨_, exec_modTimeout_due moderated waiting past, ?_, fun msix bme unmasked => ?_⟩,
    fun m cmd t s may full => ?_,
    fun ring s run en => ⟨_, exec_ringPcieError_pr run en, s.ringError_shows ring ring.isLt⟩,
    fun ring s lt run en => ⟨_, exec_ringPcieError_lb lt run en,
      s.ringError_shows (128 + ring) lt⟩⟩
  · exact ⟨_, exec_prDoorbell_enabled run en rfl, s.prBell_cons_taken ring _ within, s.prBell_consB_taken ring _ withinB,
      s.prBell_prod ring _ _⟩
  · exact ⟨_, exec_prDoorbell_enabled run en rfl, s.prBell_cons_taken ring _ within, s.prBell_consB_none ring _⟩
  · exact ⟨_, exec_prDoorbell_enabled run en rfl, s.prBell_cons ring _ _, s.prBell_consB_taken ring _ withinB⟩
  · exact ⟨_, exec_prDoorbell_enabled run en rfl, s.prBell_cons_refused ring _ beyond⟩
  · rw [exec_lbDoorbell_enabled run en, if_pos within]
  · refine ⟨_, by rw [exec_lbDoorbell_enabled run en, if_neg (by simp [beyond])], ?_, s.doorbellBad_noticed _ _⟩
    exact s.rd_notice_ring _ _ _ _ _ m.isLt
  · simp [exec, execPrDoorbell, State.bell]
  · simp [exec, execPrDoorbell, State.bell, lit, State.answer]
  · simp [exec, execLbDoorbell, State.bell, lit, State.answer]
  · rw [State.raiseVector_hif]
    exact congrArg RingHid.unnot sget_sset_same
  · rw [State.raiseVector_sends (s := (s.advance t).noneUnannounced ring) msix bme unmasked]; rfl
  · simp [exec, execLbCommandFetched, may, full]

/-! ### Items (R181, R188, R189, R193) -/

section
variable {srt : Fin 64} {t : Time} {i : Item}

theorem exec_itemEnd_serving {cycles : Nat} (serving : s.inService srt = some i) :
    exec (.itemEnd srt t cycles) s = .next (if i.finished then (s.advance t).finishItem i srt cycles else s.advance t) := by
  simp only [exec, execItemEnd, State.advance_inService, serving]

theorem exec_itemTimeLimit_serving {pass : Bool} (serving : s.inService srt = some i) :
    exec (.itemTimeLimit srt pass t) s =
      .next (if i.ran ∨ max s.now t < i.since + s.itemMax then s.advance t else (s.advance t).timeLimit i srt pass) := by
  simp only [exec, execItemTimeLimit, State.advance_inService, serving, State.advance_now_eq, State.advance_itemMax]
  rfl

theorem exec_itemExpiry_waiting {item : Nat} {e : Time} (found : (s.sof.items.find? fun j => j.key == item) = some i)
    (waits : i.serving = false) (cls : i.cls = 2) (expires : s.expiresAt i = some e) :
    exec (.itemExpiry item t) s = .next (if max s.now t < e then s.advance t else ((s.advance t).expireItem i).kick) := by
  simp only [exec, execItemExpiry, State.advance_sof, found, State.advance_expiresAt, expires, waits, cls, Option.all_some,
    State.advance_now_eq, Bool.false_eq_true, ne_eq, not_true, false_or]
  split
  next early => rw [if_pos (of_decide_eq_true early)]
  next due => rw [if_neg fun early => due (decide_eq_true early)]
end

/-! ### SOF_CANCEL (R193, R223) -/

section
variable {w : Word}

theorem exec_hostCancel (takes : s.takesWrite (Reg.SOF_CANCEL_GO.off [])) : exec (.hostCancel w) s = .next (s.cancelWrite w) :=
  congrArg Host.Outcome.next (State.hostGate_takes takes _ _)

theorem State.cancelWrite_without_go (go : w.getLsbD 31 = false) : s.cancelWrite w = s := if_pos (by rw [go]; rfl)

/-- A flow that a host may not cancel. -/
theorem State.cancelWrite_refused (go : w.getLsbD 31 = true)
    (bad : flowUsed (w.toNat % 65536) = false ∨ isAlarmFlow (w.toNat % 65536) = true) :
    s.cancelWrite w = (s.wr Reg.SOF_CANCEL_STATUS [] 2).notice bSOF 6 (w.toNat % 65536) 2 0 := by
  rcases bad with bad | bad <;> simp [State.cancelWrite, go, bad]

theorem State.cancelWrite_cancels (go : w.getLsbD 31 = true) (used : flowUsed (w.toNat % 65536) = true)
    (plain : isAlarmFlow (w.toNat % 65536) = false) :
    s.cancelWrite w = (((forEach (s.sof.items.filter (s.hostTakes (w.toNat % 65536)))
      (fun i a => if s.expired i then a.expireItem { i with serving := false } else a.cancelItem { i with serving := false } 0x1C) s).wr
        Reg.SOF_CANCEL_STATUS [] 1).notice bSOF 6 (w.toNat % 65536) 1 0).kick := by
  simp only [State.cancelWrite, go, used, plain, Bool.not_true, Bool.false_eq_true, Bool.or_self, if_false]
end

/-- Settles O19: the end, the limit and the expiry of an item by the one condition that each of them tests, SOF_CANCEL by its three
answers. -/
theorem itemsEndAndCancel : Obligations.ItemsEndAndCancel := by
  refine ⟨⟨fun srt t cycles i s serving done => ?_, fun srt t cycles i s serving undone => ?_, fun thief t s => rfl,
    fun item t e i s found waits cls expires => ⟨fun early => ?_, fun due => ?_⟩, fun i s => rfl,
    fun srt pass t i s serving unrun past => ?_⟩,
    fun w s takes => ⟨fun go => ?_, fun go bad => ?_, fun go used plain => ?_⟩⟩
  · rw [exec_itemEnd_serving serving, if_pos done]
  · rw [exec_itemEnd_serving serving, if_neg (by simp [undone])]
  · rw [exec_itemExpiry_waiting found waits cls expires, if_pos early]
  · rw [exec_itemExpiry_waiting found waits cls expires, if_neg (Nat.not_lt.mpr due)]
  · rw [exec_itemTimeLimit_serving serving, if_neg (by simp [unrun, Nat.not_lt.mpr past])]
  · rw [exec_hostCancel takes, State.cancelWrite_without_go go]
  · refine ⟨_, (exec_hostCancel takes).trans (congrArg _ (State.cancelWrite_refused go bad)), ?_,
      State.notice_bit _ _ _ _ (by decide), ?_⟩
    · rw [State.rd_notice _ _ _ _ _ _ rfl rfl rfl, State.rd_wr_same _ _ rfl rfl]; rfl
    · exact (State.notice_part _ _ _ _ _ _ .sof (by decide) (by decide)).trans (s.wr_sof _ _ _)
  · rw [exec_hostCancel takes, State.cancelWrite_cancels go used plain]

/-! ### Running a letterbox command (R216, R217) -/

section
variable {m target op : Nat} {c : LbCmd} {b : HostBuf} {i : Item} {cmd : List Byte}

/-- A letterbox item stands ready as `lbReady` has it, but for the command's flags. -/
def State.lbServes (s : State) (m target op : Nat) (c : LbCmd) (i : Item) (cmd : List Byte) : Prop :=
  s.nextRun (lbFlow m) (fun w => match w with | .letterbox _ _ none => true | _ => false) = some i ∧
    i.work = .letterbox m cmd none ∧ i.serving = true ∧ leAt cmd 0 1 = target ∧ leAt cmd 1 1 = op ∧ cmdOf cmd = c

theorem State.lbReady.serves (h : s.lbReady m target op c i cmd) : s.lbServes m target op c i cmd := by
  obtain ⟨next, work, serving, isTarget, isOp, isCmd, -⟩ := h
  exact ⟨next, work, serving, isTarget, isOp, isCmd⟩

theorem State.lbReady.flags (h : s.lbReady m target op c i cmd) : c.flags < 2 := by
  obtain ⟨-, -, -, -, -, -, flags⟩ := h
  exact flags

/-- The command in service runs: a reserved flag refuses it, and else its block answers. -/
theorem State.lbRun_serves (h : s.lbServes m target op c i cmd) (k : List Byte → State → State × LbAns) :
    s.lbRun m target op c k =
      if 2 ≤ c.flags then (s.lbBad m).lbSettle i m cmd (completionBytes cmd 2 0 []) else s.lbAnswer i m cmd (k cmd s) := by
  obtain ⟨next, work, serving, isTarget, isOp, isCmd⟩ := h
  unfold State.lbRun
  split
  next idle => exact absurd (idle.symm.trans next) (by simp)
  next j found =>
    obtain rfl : j = i := Option.some.inj (found.symm.trans next)
    simp only [work, serving, isTarget, isOp, isCmd, and_self, if_true]
    rfl

theorem State.lbRun_ready (h : s.lbReady m target op c i cmd) (k : List Byte → State → State × LbAns) :
    s.lbRun m target op c k = s.lbAnswer i m cmd (k cmd s) := by
  rw [State.lbRun_serves h.serves, if_neg (Nat.not_le.mpr h.flags)]

theorem State.lbRun_reserved (h : s.lbServes m target op c i cmd) (flags : 2 ≤ c.flags) (k : List Byte → State → State × LbAns) :
    s.lbRun m target op c k = (s.lbBad m).lbSettle i m cmd (completionBytes cmd 2 0 []) := by
  rw [State.lbRun_serves h, if_pos flags]

@[simp] theorem State.lbSettle_cmp (s : State) (i : Item) (m : Nat) (cmd res : List Byte) : (s.lbSettle i m cmd res).cmp = s.cmp := rfl

@[simp] theorem State.flag_lbSettle (s : State) (i : Item) (m : Nat) (cmd res : List Byte) (f : Fld) (idx : List Nat) :
    (s.lbSettle i m cmd res).flag f idx = s.flag f idx := rfl

/-- A refused command counts in its ring's BAD with a notice. -/
theorem State.lbBad_counts (s : State) (m : Fin 16) :
    (s.lbBad m).rd Reg.LB_BAD [m] = (s.rd Reg.LB_BAD [m] + 1) % 2 ^ Reg.LB_BAD.width ∧ (s.lbBad m).noticed bHIF 2 :=
  ⟨(State.rd_notice_ring _ _ _ _ _ _ m.isLt).trans (s.rd_wr_ring _ m.isLt),
    State.notice_bit _ _ _ _ (by decide)⟩
end

section
variable {m : Fin 16} {c : LbCmd} {b : HostBuf} {i : Item} {cmd : List Byte}

/-! ### NOP and RESEND (R216, R384) -/

theorem exec_lbNop_known {target : Nat} (known : target ≤ 0x16) :
    exec (.lbNop m c b target) s = .next (s.lbRun m target 0 c fun _ a => (a, .done 0 0 [])) :=
  congrArg Host.Outcome.next (if_pos known)

theorem exec_resend_held {h : CapRec × Bool} (ready : s.lbReady m 0xE 1 c i cmd) (unit : lbW c 0 < 32)
    (held : ((s.capUnit (lbW c 0)).held.find? fun h => h.1.seq == lbW c 1) = some h) :
    exec (.resend m c b) s = .next ((s.capOffer (lbW c 0) h.1 0x80).lbSettle i m cmd (completionBytes cmd 0 0 [])) := by
  simp only [exec, execResend, State.lbRun_ready ready, if_neg (Nat.not_le.mpr unit), held, State.lbAnswer]

theorem exec_resend_not_held (ready : s.lbReady m 0xE 1 c i cmd) (unit : lbW c 0 < 32)
    (gone : ((s.capUnit (lbW c 0)).held.find? fun h => h.1.seq == lbW c 1) = none) :
    exec (.resend m c b) s = .next (s.lbSettle i m cmd (completionBytes cmd 2 0 [])) := by
  simp only [exec, execResend, State.lbRun_ready ready, if_neg (Nat.not_le.mpr unit), gone, State.lbAnswer]

theorem exec_resend_no_unit (ready : s.lbReady m 0xE 1 c i cmd) (beyond : 32 ≤ lbW c 0) :
    exec (.resend m c b) s = .next ((s.lbBad m).lbSettle i m cmd (completionBytes cmd 2 0 [])) := by
  simp only [exec, execResend, State.lbRun_ready ready, if_pos beyond, State.lbAnswer]

/-! ### COMPRESS and DECODE (R394, R395) -/

theorem exec_decode_ready (ready : s.lbReady m 0xF 2 c i cmd) :
    exec (.decode m c b) s = .next (s.lbAnswer i m cmd (s.cmpCmd m true c b cmd)) :=
  congrArg Host.Outcome.next (State.lbRun_ready ready _)

theorem exec_compress_reserved (ready : s.lbReady m 0xF 1 c i cmd) (reserved : lbW c 3 / 2 ^ 18 % 64 ≠ 0 ∨ lbW c 3 / 2 ^ 25 ≠ 0) :
    exec (.compress m c b) s = .next ((s.lbBad m).lbSettle i m cmd (completionBytes cmd 2 0 [])) := by
  simp only [exec, execCompress, State.lbRun_ready ready, if_pos reserved, State.lbAnswer]

theorem exec_compress_ready (ready : s.lbReady m 0xF 1 c i cmd) (low : lbW c 3 / 2 ^ 18 % 64 = 0) (high : lbW c 3 / 2 ^ 25 = 0) :
    exec (.compress m c b) s = .next (s.lbAnswer i m cmd (s.cmpCmd m false c b cmd)) := by
  have plain : ¬(lbW c 3 / 2 ^ 18 % 64 ≠ 0 ∨ lbW c 3 / 2 ^ 25 ≠ 0) := not_or.mpr ⟨not_not.mpr low, not_not.mpr high⟩
  simp only [exec, execCompress, State.lbRun_ready ready, if_neg plain]

/-- CMP_STAT shows the engine's work. -/
theorem State.cmpShow_busy (s : State) : s.cmpShow.flag Reg.CMP_STAT_BUSY [] = !s.cmp.jobs.isEmpty := by
  unfold State.cmpShow State.flag
  rw [State.rd_wr_bits _ _ rfl rfl (.inl (by decide))]
  exact s.flag_setFlag_same _ rfl rfl rfl

@[simp] theorem State.cmpShow_cmp (s : State) : s.cmpShow.cmp = s.cmp := by simp [State.cmpShow, State.setFlag]

/-- The engine refuses a command's operands. -/
def cmpRefuses (dec : Bool) (c : LbCmd) : Bool := if dec then c.len == 0 else cmpBad c

/-- A command joins the engine's queue. -/
def State.cmpJoin (s : State) (m : Nat) (dec : Bool) (c : LbCmd) (b : HostBuf) (cmd : List Byte) : State :=
  ({ s with cmp := { s.cmp with jobs := s.cmp.jobs ++ [.cmd m dec cmd (b.data.take c.len) b.err] } } : State).cmpShow

theorem State.cmpJoin_joins (s : State) (m : Nat) (dec : Bool) (c : LbCmd) (b : HostBuf) (cmd : List Byte) :
    (s.cmpJoin m dec c b cmd).cmp.jobs = s.cmp.jobs ++ [.cmd m dec cmd (b.data.take c.len) b.err] ∧
      (s.cmpJoin m dec c b cmd).flag Reg.CMP_STAT_BUSY [] = true := by
  unfold State.cmpJoin
  exact ⟨by rw [State.cmpShow_cmp], by rw [State.cmpShow_busy]; simp⟩

theorem State.cmpCmd_eq (s : State) (m : Nat) (dec : Bool) (c : LbCmd) (b : HostBuf) (cmd : List Byte) : s.cmpCmd m dec c b cmd =
    if !s.flag Reg.CMP_CTL_EN [] then (s, .done 4 0 []) else if cmpRefuses dec c then (s, .done 2 0 (cmpResult 3 0 0))
    else if 16 ≤ s.cmpCmds then (s, .wait) else (s.cmpJoin m dec c b cmd, .engine) := rfl

/-- What a row answers whose command goes to the engine, of either kind: the four cases of R394 and R395. -/
theorem cmpRow_cases {row : Res} {dec : Bool} (runs : row = .next (s.lbAnswer i m cmd (s.cmpCmd m dec c b cmd))) :
    (s.flag Reg.CMP_CTL_EN [] = false → row = .next (s.lbSettle i m cmd (completionBytes cmd 4 0 []))) ∧
    (s.flag Reg.CMP_CTL_EN [] = true → cmpRefuses dec c = true →
      row = .next (s.lbSettle i m cmd (completionBytes cmd 2 0 (cmpResult 3 0 0)))) ∧
    (s.flag Reg.CMP_CTL_EN [] = true → cmpRefuses dec c = false → 16 ≤ s.cmpCmds → row = .next s) ∧
    (s.flag Reg.CMP_CTL_EN [] = true → cmpRefuses dec c = false → s.cmpCmds < 16 →
      ∃ u, row = .next u ∧ u.cmp.jobs = s.cmp.jobs ++ [.cmd m dec cmd (b.data.take c.len) b.err] ∧
        u.flag Reg.CMP_STAT_BUSY [] = true) := by
  rw [State.cmpCmd_eq] at runs
  subst runs
  refine ⟨fun disabled => ?_, fun on refused => ?_, fun on good full => ?_,
    fun on good room => ⟨(s.cmpJoin m dec c b cmd).lbSettle i m cmd [], ?_, ?_⟩⟩
  · simp [disabled, State.lbAnswer]
  · simp [on, refused, State.lbAnswer]
  · simp [on, good, full, State.lbAnswer]
  · simp [on, good, Nat.not_le.mpr room, State.lbAnswer]
  · rw [State.lbSettle_cmp, State.flag_lbSettle]
    exact s.cmpJoin_joins m dec c b cmd
end

/-! ### The engine's end (R394) -/

section
variable {err : Bool} {t : Time}

theorem exec_compressDone_cap {u seq : Nat} (front : cmpFront s.cmp.jobs = some (.cap u seq)) :
    exec (.compressDone err t) s =
      .next ((({ s.advance t with cmp := { s.cmp with jobs := s.cmp.jobs.erase (.cap u seq) } } : State).cmpShow).cmpCapDone u seq) := by
  simp only [exec, execCompressDone, State.advance_cmp, front]

theorem exec_compressDone_cmd {m : Nat} {dec e : Bool} {cmd data : List Byte} (front : cmpFront s.cmp.jobs = some (.cmd m dec cmd data e)) :
    exec (.compressDone err t) s =
      .next ((({ s.advance t with cmp := { s.cmp with jobs := s.cmp.jobs.erase (.cmd m dec cmd data e) } } : State).cmpShow).cmpCmdDone
        m dec cmd data e err) := by
  simp only [exec, execCompressDone, State.advance_cmp, front]

theorem exec_compressDone_idle (idle : s.cmp.jobs = []) : exec (.compressDone err t) s = .next (s.advance t) := by
  have front : cmpFront s.cmp.jobs = none := by rw [idle]; rfl
  simp only [exec, execCompressDone, State.advance_cmp, front]

/-- With a capture record in work the engine's front is one. -/
theorem cmpFront_of_cap {js : List CmpJob} {u seq : Nat} (mem : .cap u seq ∈ js) : ∃ v q, cmpFront js = some (.cap v q) := by
  unfold cmpFront
  split
  next j found =>
    cases j with
    | cap v q => exact ⟨v, q, rfl⟩
    | cmd m dec cmd data e => exact absurd (List.find?_some found) (by simp)
  next missing => exact absurd (List.find?_eq_none.mp missing _ mem) (by simp)
end

/-- Settles O22: every command by what `lbRun` makes of the item that stands ready, COMPRESS and DECODE by the engine's four answers, the
engine's end by the job at its front. -/
theorem nopCaptureAndCompressionCommands : Obligations.NopCaptureAndCompressionCommands := by
  refine ⟨fun m c b target i cmd s known => ⟨fun ready => ?_, fun next work serving isTarget isOp isCmd flags =>
      ⟨?_, s.lbBad_counts m⟩⟩,
    fun m c b i cmd s ready => ⟨fun h => exec_resend_held ready, exec_resend_not_held ready, exec_resend_no_unit ready⟩,
    fun m c b i cmd s => ⟨fun ready => ?_, exec_compress_reserved, fun ready low high => ?_⟩,
    fun err t s => ⟨fun u seq => exec_compressDone_cap, fun m dec cmd data e => exec_compressDone_cmd, exec_compressDone_idle,
      fun u seq => cmpFront_of_cap⟩⟩
  · rw [exec_lbNop_known known, State.lbRun_ready ready, State.lbAnswer]
  · have serves : s.lbServes m target 0 c i cmd := ⟨next, work, serving, isTarget, isOp, isCmd⟩
    rw [exec_lbNop_known known, State.lbRun_reserved serves flags]
  · simpa only [cmpRefuses, if_true, beq_iff_eq, beq_eq_false_iff_ne] using cmpRow_cases (exec_decode_ready (b := b) ready)
  · exact cmpRow_cases (exec_compress_ready ready low high)

end Sys2Proof.Machine
end

section
/-! PROOFS of the family 06_oscillation: the analysis items of groups, source localisation, islanding and separation. -/
namespace Sys2Proof.Machine

section
variable {s : State} {t tk : Time} {g : Fin 256} {i : Item} {r n : Nat} {ls : List Letter}

/-! ### The item a content row acts on (log entry 8) -/

/-- A row that acts on the next item of its flow, and idles where there is none, acts on the one in service; the passage of time moves none. -/
theorem State.servingItem_row {flow : Nat} {p : Work → Bool} {idle : Res} {row : Item → Res} (serving : s.servingItem flow p i) :
    (match (s.advance t).nextRun flow p with | some j => row j | none => idle) = row i := by
  rw [State.advance_nextRun, serving.1]

theorem State.servingItem_kind {flow : Nat} {p : Work → Bool} (serving : s.servingItem flow p i) : p i.work = true := by
  have next := serving.1
  unfold State.nextRun at next
  have named := List.find?_some next
  exact (Bool.and_eq_true_iff.mp named).2

/-! ### Items of groups (R237) -/

/-- A group's item in service runs for an enabled group alone, and is marked as run either way. -/
theorem exec_groupUpdate_serving {g' : Nat} {adds : List Letter}
    (serving : s.servingItem (0x4800 + g.val) (fun w => match w with | .group _ _ _ _ _ _ => true | _ => false) i)
    (work : i.work = .group g' r n ls adds tk) :
    exec (.groupUpdate g t) s =
      .next ((if s.grpsOn.contains g.val then (s.advance t).grpItem g r n ls adds else s.advance t).markRan i.key) := by
  refine (State.servingItem_row (t := t) serving).trans ?_
  simp only [work, serving.2, State.advance_grpsOn, Bool.true_and, if_true]
  split <;> rfl

theorem State.servingItem_group
    (serving : s.servingItem (0x4800 + g.val) (fun w => match w with | .group _ _ _ _ _ _ => true | _ => false) i) :
    ∃ g' r n ls adds tk, i.work = .group g' r n ls adds tk := by
  have isGroup := State.servingItem_kind serving
  split at isGroup
  case h_1 g' r n ls adds tk work => exact ⟨g', r, n, ls, adds, tk, work⟩
  case h_2 => contradiction

/-! ### Source localisation (R261), islanding and clustering (R277, R279), separation (R283, R287) -/

theorem exec_defUpdate_serving
    (serving : s.servingItem 0x5C10 (fun w => match w with | .defUpd _ _ _ _ => true | _ => false) i) (work : i.work = .defUpd r n ls tk) :
    exec (.defUpdate t) s = .next (((s.advance t).defItem r n ls).markRan i.key) := by
  refine (State.servingItem_row (t := t) serving).trans ?_
  simp only [work, serving.2, if_true]

theorem exec_coherencyUpdate_serving
    (serving : s.servingItem 0x5001 (fun w => match w with | .coherency _ _ _ => true | _ => false) i) (work : i.work = .coherency n ls tk) :
    exec (.coherencyUpdate t) s = .next (((s.advance t).islItem n ls).markRan i.key) := by
  refine (State.servingItem_row (t := t) serving).trans ?_
  simp only [work, serving.2, if_true]

theorem exec_clustering_serving (serving : s.servingItem 0x5002 (fun w => match w with | .clustering => true | _ => false) i) :
    exec (.clustering t) s = .next ((s.advance t).clusterRun.markRan i.key) := by
  refine (State.servingItem_row (t := t) serving).trans ?_
  simp only [serving.2, if_true]

theorem exec_separation_serving
    (serving : s.servingItem 0x5000 (fun w => match w with | .separation _ _ _ => true | _ => false) i) (work : i.work = .separation n ls tk) :
    exec (.separation t) s = .next (((s.advance t).sepItem n ls tk).markRan i.key) := by
  refine (State.servingItem_row (t := t) serving).trans ?_
  simp only [work, serving.2, if_true]
end

/-- Settles O40: each content row by the item it serves, that of a group by whether the group is enabled. -/
theorem analysisItems : Obligations.AnalysisItems := by
  refine ⟨fun g t tk i g' r n ls adds s serving work enabled => ?_, fun g t i s serving disabled => ?_,
    fun t tk i r n ls s => exec_defUpdate_serving, fun t tk i n ls s => exec_coherencyUpdate_serving,
    fun t i s => exec_clustering_serving, fun t tk i n ls s => exec_separation_serving⟩
  · rw [exec_groupUpdate_serving serving work, if_pos enabled]
  · obtain ⟨g', r, n, ls, adds, tk, work⟩ := State.servingItem_group serving
    rw [exec_groupUpdate_serving serving work, disabled, if_neg Bool.false_ne_true]

end Sys2Proof.Machine
end

section
/-! PROOFS of the family 07_islanding_alarms: alarm machines, publications, acknowledgements, standard alarms and alarm pins. -/
namespace Sys2Proof.Machine

variable {s : State} {t : Time}

/-! ### The step of a machine (R290, R294, R299) -/

/-- The step of a running machine that no slot of a pair holds, in a unit whose pair neither emits nor mutes: what its Round's instant
changed goes out after it. -/
theorem exec_machineStep_serving {m : Fin 1024} {tk : Time} {i : Item} {m' r n : Nat} {ls : List Letter}
    (serving : s.servingItem (0x4C00 + m.val) (fun w => match w with | .machine _ _ _ _ _ => true | _ => false) i)
    (work : i.work = .machine m' r n ls tk) (unpaired : i.slot = none) (running : s.flag Reg.AMR_RUN [m] = true)
    (silent : s.pair.emitNow = false) (unmuted : s.pair.muteNow = false) :
    ∃ a, a = (((s.advance t).amStep m r n ls tk).markRan i.key).pubFlush r n ∧
      exec (.machineStep m t) s = .next { a with pair := { a.pair with emitNow := false, muteNow := false } } := by
  have alone : { s.advance t with pair := { s.pair with emitNow := false, muteNow := false } } = s.advance t :=
    calc _ = { s.advance t with pair := { s.pair with emitNow := s.pair.emitNow, muteNow := s.pair.muteNow } } := by rw [silent, unmuted]
      _ = s.advance t := rfl
  refine ⟨_, rfl, (State.servingItem_row (t := t) serving).trans ?_⟩
  simp only [work, serving.2, unpaired, if_true, Bool.false_and, State.advance_pair, alone, State.flag_advance, running]

/-! ### The schedule of a publication (R299) -/

theorem exec_gooseRetransmit_enabled {q : Fin 16} (on : s.processing = true) (enabled : s.flag Reg.ALM_PUB_CFG_EN [q] = true) :
    exec (.gooseRetransmit q t) s =
      .next (if (sget s.alm.pubs q.val pub0).next ≤ max s.now t then (s.advance t).pubRepeat q else s.advance t) := by
  simp [exec, execGooseRetransmit, on, enabled]

/-! ### Reading flags -/

theorem State.flag_wr_bits {f g : Fld} {idx jdx : List Nat} (s : State) (v : Nat) (hf : f.sane = true) (hg : g.sane = true)
    (apart : f.hi < g.lo ∨ g.hi < f.lo) : (s.wr f idx v).flag g jdx = s.flag g jdx :=
  congrArg (· != 0) (s.rd_wr_bits v hf hg apart)

/-- A field reads the same where its word is the same. -/
theorem State.rd_of_word {x y : State} {f : Fld} {idx : List Nat} (same : x.word (f.off idx) = y.word (f.off idx)) :
    x.rd f idx = y.rd f idx := congrArg (f.get ·) same

theorem State.flag_of_word {x y : State} {f : Fld} {idx : List Nat} (same : x.word (f.off idx) = y.word (f.off idx)) :
    x.flag f idx = y.flag f idx := congrArg (· != 0) (State.rd_of_word same)

/-! ### Words below the definitions of machines (R290) -/

section
variable {f : Fld} {off : Nat} (s : State) (w : Word)

theorem State.rd_setWord_below (idx : List Nat) (below : off < f.base) : (s.setWord off w).rd f idx = s.rd f idx := by
  refine State.rd_setWord_ne ?_ s w
  have above : f.base ≤ f.off idx := Nat.le_add_right _ _
  omega

theorem State.flag_setWord_below (idx : List Nat) (below : off < f.base) : (s.setWord off w).flag f idx = s.flag f idx :=
  congrArg (· != 0) (s.rd_setWord_below w idx below)

theorem State.regBytes_setWord_below {o : Nat} (n : Nat) (below : off < o) : (s.setWord off w).regBytes o n = s.regBytes o n := by
  unfold State.regBytes
  refine congrArg (List.flatMap · _) (funext fun i => ?_)
  rw [State.word_setWord_ne s w (show o + 4 * i ≠ off by omega)]

/-- Whether a machine is defined rests on the words from the first definition on. -/
theorem State.amOk_setWord_below (m : Nat) (below : off < Reg.AM_VALID.base) : (s.setWord off w).amOk m = s.amOk m := by
  have start : Reg.AM_VALID.base ≤ Reg.AM_VALID.off [m] := Nat.le_add_right _ _
  have check : Reg.AM_VALID.base ≤ Reg.AM_CHECK.base := by decide
  unfold State.amOk
  dsimp only
  rw [s.flag_setWord_below w _ below, s.rd_setWord_below w _ (below.trans_le check), s.regBytes_setWord_below w _ (below.trans_le start),
    s.regBytes_setWord_below w _ (by omega)]
end

/-! ### What alarm records and standard alarm 9 leave (R296, R302) -/

/-- An offset at which no alarm record and no mark of a standard alarm writes: outside the areas of the rings, the notices and the
Logbook, and neither of their own two words. -/
def keptByRecords (off : Nat) : Prop :=
  (0x45001010080001c : Nat).testBit (32 + areaOf off) = false ∧ off ≠ Reg.ALM_RECSEQ_COUNT.off [] ∧ off ≠ Reg.ALM_STD_ACTIVE.off []

section
variable {off : Nat} (s : State)

theorem State.word_alarmRec (kept : keptByRecords off) (who old new flags sev inputs out pm rnd : Nat) :
    (s.alarmRec who old new flags sev inputs out pm rnd).word off = s.word off := by
  obtain ⟨apart, notSeq, -⟩ := kept
  have offered : Within 0x45001010080001c (s.inc Reg.ALM_RECSEQ_COUNT []) (s.alarmRec who old new flags sev inputs out pm rnd) :=
    State.offer_in rfl (.refl _)
  exact (offered.words off apart).trans (s.word_wr_off _ notSeq)

theorem State.word_stdMark (kept : keptByRecords off) (c : Nat) (on : Bool) : (s.stdMark c on).word off = s.word off := by
  unfold State.stdMark
  extract_lets v shown b told
  split
  · rfl
  · have reported : Within 0x45001010080001c shown told := State.logEvent_in rfl (State.notice_in rfl (.refl _))
    have ⟨apart, _, notActive⟩ := kept
    calc _ = told.word off := told.word_alarmRec kept ..
      _ = shown.word off := reported.words off apart
      _ = s.word off := s.word_wr_off _ notActive

theorem State.word_shedMark (kept : keptByRecords off) (before : Nat) : (s.shedMark before).word off = s.word off := by
  unfold State.shedMark
  split
  · rfl
  · exact (s.stdSeen 9).word_stdMark kept ..
end

/-! ### Acknowledgement (R295) -/

theorem exec_almAck {w : Word} (takes : s.takesWrite (Reg.ALM_ACK_AM.off [])) : exec (.almAck w) s = .next (s.ackWrite w) :=
  congrArg Host.Outcome.next (State.hostGate_takes takes _ _)

/-- ALM_ACK as the host's write leaves it, before the machine is judged. -/
def State.ackStored (s : State) (w : Word) : State :=
  s.setWord (Reg.ALM_ACK_AM.off []) (storedWord (Reg.ALM_ACK_AM.off []) false (s.word (Reg.ALM_ACK_AM.off [])) w)

/-- The machine that a write of ALM_ACK names. -/
abbrev ackMachine (w : Word) : Nat := w.toNat % 1024

/-- An acknowledgement that is taken. -/
def State.ackTaken (s : State) (w : Word) : State :=
  ((s.ackStored w).draw.2.setFlag Reg.AMR_ACK_PEND [ackMachine w] true).wr Reg.ALM_ACK_STATUS [] 1

section
variable (s : State) {w : Word}

theorem State.amOk_ackStored (m : Nat) : (s.ackStored w).amOk m = s.amOk m := s.amOk_setWord_below _ m (by decide)

theorem State.flag_ackStored {f : Fld} (idx : List Nat) (above : Reg.ALM_ACK_AM.off [] < f.base) :
    (s.ackStored w).flag f idx = s.flag f idx := s.flag_setWord_below _ idx above

theorem State.ackWrite_undefined (undefined : s.amOk (ackMachine w) = false) :
    s.ackWrite w = (s.ackStored w).wr Reg.ALM_ACK_STATUS [] 3 := by
  have bad : (!(s.ackStored w).amOk (ackMachine w)) = true := by rw [s.amOk_ackStored, undefined]; rfl
  exact if_pos bad

section
variable (defined : s.amOk (ackMachine w) = true)
include defined

theorem State.ackWrite_unlatched (unlatched : s.flag Reg.AM_ST_LATCH [ackMachine w, s.rd Reg.AMR_STATE [ackMachine w]] = false) :
    s.ackWrite w = (s.ackStored w).wr Reg.ALM_ACK_STATUS [] 2 := by
  have good : ¬(!(s.ackStored w).amOk (ackMachine w)) = true := by rw [s.amOk_ackStored, defined]; decide
  have free : ¬(s.ackStored w).flag Reg.AM_ST_LATCH [ackMachine w, s.rd Reg.AMR_STATE [ackMachine w]] = true := by
    rw [s.flag_ackStored _ (by decide), unlatched]; decide
  exact (if_neg good).trans (if_neg free)

/-- The record of an acknowledgement that is taken, and a shed of it, leave what the acknowledgement wrote. -/
theorem State.word_ackWrite_latched {off : Nat}
    (latched : s.flag Reg.AM_ST_LATCH [ackMachine w, s.rd Reg.AMR_STATE [ackMachine w]] = true) (kept : keptByRecords off) :
    (s.ackWrite w).word off = (s.ackTaken w).word off := by
  have good : ¬(!(s.ackStored w).amOk (ackMachine w)) = true := by rw [s.amOk_ackStored, defined]; decide
  have holds : (s.ackStored w).flag Reg.AM_ST_LATCH [ackMachine w, s.rd Reg.AMR_STATE [ackMachine w]] = true := by
    rw [s.flag_ackStored _ (by decide), latched]
  refine (congrArg (State.word · off) ((if_neg good).trans (if_pos holds))).trans ?_
  exact (State.word_shedMark _ kept _).trans ((s.ackTaken w).word_alarmRec kept ..)
end

/-! #### What it shows -/

theorem ackMachine_idxOk : idxOk Reg.AMR_ACK_PEND.dims [ackMachine w] = true := by
  have lt : ackMachine w < 1024 := Nat.mod_lt _ (by decide)
  simp [Reg.AMR_ACK_PEND, idxOk, lt]

theorem State.rd_wr_ackStatus (v : Nat) (fits : v < 4) : (s.wr Reg.ALM_ACK_STATUS [] v).rd Reg.ALM_ACK_STATUS [] = v :=
  (s.rd_wr_same v rfl rfl).trans (Nat.mod_eq_of_lt fits)

theorem State.flag_ackPend_wr_ackStatus (v m : Nat) :
    (s.wr Reg.ALM_ACK_STATUS [] v).flag Reg.AMR_ACK_PEND [m] = s.flag Reg.AMR_ACK_PEND [m] :=
  s.flag_wr_bits v rfl rfl (.inr (by decide))

theorem keptByRecords_ackStatus : keptByRecords (Reg.ALM_ACK_STATUS.off []) := ⟨by decide, by decide, by decide⟩

theorem keptByRecords_ackPend : keptByRecords (Reg.AMR_ACK_PEND.off [ackMachine w]) := by
  have start : Reg.AMR_ACK_PEND.base ≤ Reg.AMR_ACK_PEND.off [ackMachine w] := Nat.le_add_right _ _
  refine ⟨?_, ne_of_gt (Nat.lt_of_lt_of_le (by decide) start), ne_of_gt (Nat.lt_of_lt_of_le (by decide) start)⟩
  rw [areaOf_fld (by decide) ackMachine_idxOk]
  decide
end

/-! ### Standard alarms in time (R296) and pins (R298) -/

theorem exec_stdAlarmExpiry {c : Fin 16} : exec (.stdAlarmExpiry c t) s =
    .next (if (c.val = 1 ∨ c.val = 9) ∧ sget s.alm.stdAt c.val 0 + 10 * second ≤ max s.now t then (s.advance t).stdAlarm c false
      else s.advance t) := by
  simp [exec, execStdAlarmExpiry]

theorem exec_alarmPinMinw {p : Fin 8} : exec (.alarmPinMinw p t) s =
    .next (if max s.now t < sget s.alm.pins p.val 0 then s.advance t
      else ({ s.advance t with alm := { s.alm with pins := serase s.alm.pins p } } : State).drivePins) := rfl

/-- Driving the pins changes neither the level at ALM_OE_N nor what OE shows of it. -/
theorem State.drivePins_keeps_oe (s : State) :
    s.drivePins.alm.oeN = s.alm.oeN ∧ s.drivePins.flag Reg.ALM_PIN_STAT_OE [] = s.flag Reg.ALM_PIN_STAT_OE [] := by
  unfold State.drivePins
  extract_lets bits
  split
  · exact ⟨rfl, rfl⟩
  · refine forEach_holds (P := fun x => x.alm.oeN = s.alm.oeN ∧ x.flag Reg.ALM_PIN_STAT_OE [] = s.flag Reg.ALM_PIN_STAT_OE []) _
      ⟨rfl, rfl⟩ fun p a kept => ?_
    extract_lets want act was hold on pins timed
    have same : timed.alm.oeN = s.alm.oeN ∧ timed.flag Reg.ALM_PIN_STAT_OE [] = s.flag Reg.ALM_PIN_STAT_OE [] := by
      unfold timed
      split <;> exact kept
    split
    · exact same
    · refine ⟨by rw [State.wr_alm]; exact same.1, ?_⟩
      exact (timed.flag_wr_bits _ rfl rfl (.inl (by decide))).trans same.2

theorem KeepsNotices.drivePins (s : State) : KeepsNotices s s.drivePins :=
  fun b i => (State.drivePins_in (M := 0x100000000400) rfl (.refl s)).keepsNotices rfl b i

/-- OE as a change of ALM_OE_N shows it, with its notice, and the pins driven anew. -/
def State.tellOe (s : State) (oe : Bool) (d0 : Nat) : State := ((s.setFlag Reg.ALM_PIN_STAT_OE [] oe).notice bALM 6 d0 0 0).drivePins

theorem exec_almOeNChange_changed {level : Bool} (changed : s.alm.oeN ≠ level) : exec (.almOeNChange level) s =
    .next (({ s with alm := { s.alm with oeN := level } } : State).tellOe (!level) (if level then 1 else 0)) := if_neg changed

/-- The flag, its notice and the level outlive the pins' drive. -/
theorem State.tellOe_shows (s : State) (oe : Bool) (d0 : Nat) : (s.tellOe oe d0).alm.oeN = s.alm.oeN ∧
    (s.tellOe oe d0).flag Reg.ALM_PIN_STAT_OE [] = oe ∧ (s.tellOe oe d0).noticed bALM 6 := by
  have told : ∀ a : State, (a.notice bALM 6 d0 0 0).alm = a.alm := fun a => a.notice_part bALM 6 d0 0 0 .alm (by decide) (by decide)
  obtain ⟨level, shown⟩ := ((s.setFlag Reg.ALM_PIN_STAT_OE [] oe).notice bALM 6 d0 0 0).drivePins_keeps_oe
  refine ⟨?_, ?_, KeepsNotices.drivePins _ _ _ (State.notice_bit _ d0 0 0 (bit := 6) (by decide))⟩
  · exact level.trans (by rw [told, State.setFlag_alm])
  · refine shown.trans ((State.flag_notice _ bALM 6 d0 0 0 rfl (by decide) (by decide)).trans ?_)
    exact s.flag_setFlag_same oe rfl rfl rfl

/-- Settles O41: a step by the item it serves, an acknowledgement by whether its machine is defined and its state has LATCH, each row in
time by its one deadline, a change of ALM_OE_N by what the pins' drive leaves. -/
theorem alarmMachinesAndPins : Obligations.AlarmMachinesAndPins := by
  refine ⟨⟨fun m t tk i m' r n ls s => exec_machineStep_serving, fun q t s on enabled => ⟨fun due => ?_, fun early => ?_⟩,
      fun w s takes => ⟨fun undefined => ?_, fun defined unlatched => ?_, fun defined latched => ?_⟩⟩,
    fun c t s => ⟨fun timed due => ?_, fun early => ?_, fun not1 not9 => ?_⟩, fun p t s => ⟨fun ended => ?_, fun early => ?_⟩,
    fun level s changed => ⟨_, _, rfl, exec_almOeNChange_changed changed, rfl, State.tellOe_shows _ _ _⟩,
    fun level s same => if_pos same⟩
  · rw [exec_gooseRetransmit_enabled on enabled, if_pos due]
  · rw [exec_gooseRetransmit_enabled on enabled, if_neg (Nat.not_le.mpr early)]
  · exact ⟨_, exec_almAck takes, by rw [s.ackWrite_undefined undefined]; exact State.rd_wr_ackStatus _ 3 (by decide)⟩
  · refine ⟨_, exec_almAck takes, ?_⟩
    rw [s.ackWrite_unlatched defined unlatched, State.flag_ackPend_wr_ackStatus, s.flag_ackStored _ (by decide)]
    exact ⟨State.rd_wr_ackStatus _ 2 (by decide), rfl⟩
  · refine ⟨_, exec_almAck takes, ?_, ?_⟩
    · rw [State.rd_of_word (s.word_ackWrite_latched defined latched keptByRecords_ackStatus)]
      exact State.rd_wr_ackStatus _ 1 (by decide)
    · rw [State.flag_of_word (s.word_ackWrite_latched defined latched keptByRecords_ackPend)]
      exact (State.flag_ackPend_wr_ackStatus ..).trans (State.flag_setFlag_same _ _ rfl ackMachine_idxOk rfl)
  · rw [exec_stdAlarmExpiry, if_pos ⟨timed, due⟩]
  · rw [exec_stdAlarmExpiry, if_neg fun due => Nat.not_le.mpr early due.2]
  · rw [exec_stdAlarmExpiry, if_neg fun due => due.1.elim not1 not9]
  · rw [exec_alarmPinMinw, if_neg (Nat.not_lt.mpr ended)]
  · rw [exec_alarmPinMinw, if_pos early]

end Sys2Proof.Machine
end

section
/-! PROOFS of the family 12_strongroom: the commands on keys, the Seal statement, the challenge, the moves of the life cycle, and keys in
time. First what the operations on slots leave; then the obligations. -/
namespace Sys2Proof.Machine

variable {s : State}

/-! ### What a notice and a settled command leave -/

@[simp] theorem State.notice_key (s : State) (b bit d0 d1 d2 : Nat) : (s.notice b bit d0 d1 d2).key = s.key :=
  s.notice_part b bit d0 d1 d2 .key (by decide) (by decide)

@[simp] theorem State.lbSettle_key (s : State) (i : Item) (m : Nat) (cmd res : List Byte) : (s.lbSettle i m cmd res).key = s.key := rfl

@[simp] theorem State.lbSettle_out (s : State) (i : Item) (m : Nat) (cmd res : List Byte) : (s.lbSettle i m cmd res).out = s.out := rfl

@[simp] theorem State.rd_lbSettle (s : State) (i : Item) (m : Nat) (cmd res : List Byte) (f : Fld) (idx : List Nat) :
    (s.lbSettle i m cmd res).rd f idx = s.rd f idx := rfl

/-! ### Slots (R444, R454, R456) -/

theorem sget_serase_same {α : Type} {m : List (Nat × α)} {k : Nat} {d : α} : sget (serase m k) k d = d :=
  sget_of_unlisted (by simp [serase])

@[simp] theorem State.showSlot_key (s : State) (n : Nat) : (s.showSlot n).key = s.key :=
  (State.showSlot_in (M := 0x4000000000000) rfl (.refl s)).parts .key rfl

@[simp] theorem State.showKeyStat_key (s : State) : s.showKeyStat.key = s.key :=
  (State.showKeyStat_in (M := 0x414000100800004) rfl (.refl s)).parts .key rfl

@[simp] theorem State.setCat_key (s : State) (n : Nat) (e : CatEnt) :
    (s.setCat n e).key = { s.key with cat := sset s.key.cat n e } := by simp [State.setCat]

@[simp] theorem State.cat_setCat_same (s : State) (n : Nat) (e : CatEnt) : (s.setCat n e).cat n = e := by
  simp [State.cat, sget_sset_same]

theorem State.cat_setCat_ne (s : State) {n a : Nat} (e : CatEnt) (ne : a ≠ n) : (s.setCat n e).cat a = s.cat a := by
  simp [State.cat, sset, sget_sput ne, sget_serase ne]

theorem State.cat_of_key {t : State} (same : t.key.cat = s.key.cat) (n : Nat) : t.cat n = s.cat n := by simp [State.cat, same]

/-- INVALIDATE of one slot of a family. -/
def State.invalidSlot (a : Nat) (x : State) : State := (x.zeroiseSlot a).setCat a { x.cat a with state := 2 }

theorem State.invalidSlot_state (a n : Nat) (x : State) :
    ((x.invalidSlot a).cat n).state = if n = a then 2 else (x.cat n).state := by
  unfold State.invalidSlot
  split
  next e => rw [e, State.cat_setCat_same]
  next ne => rw [State.cat_setCat_ne _ _ ne]; rfl

/-- A slot that is named, or was invalid before, is invalid after its family's slots went invalid one by one. -/
theorem State.invalidSlots_state {n : Nat} (ns : List Nat) (h : n ∈ ns ∨ (s.cat n).state = 2) :
    ((forEach ns State.invalidSlot s).cat n).state = 2 := by
  induction ns generalizing s with
  | nil => exact h.resolve_left List.not_mem_nil
  | cons a r ih =>
    refine ih (s := s.invalidSlot a) ?_
    rw [State.invalidSlot_state]
    rcases h with named | invalid
    · exact (List.mem_cons.mp named).symm.imp_right fun e => if_pos e
    · exact .inr (by split <;> [rfl; exact invalid])

/-- No slot of the family is left in another state. -/
theorem State.invalidateFamily_state {n a : Nat} (member : a ∈ s.family n) : (((s.invalidateFamily n).1).cat a).state = 2 := by
  have named : a ∈ (s.family n).filter (fun a => (s.cat a).state != 2) ∨ (s.cat a).state = 2 := by
    by_cases invalid : (s.cat a).state = 2
    · exact .inr invalid
    · exact .inl (List.mem_filter.mpr ⟨member, by simpa using invalid⟩)
  have done := State.invalidSlots_state _ named
  unfold State.invalidateFamily
  dsimp only
  split
  · exact done
  · rw [State.cat_of_key (congrArg KeySt.cat (State.notice_key ..))]
    exact done

/-! ### The rows IMPORT, DERIVE, INVALIDATE and DELETE (R454, R456) -/

/-- A command on a slot by mode and journal: refused, waiting, or run. -/
def State.keyRow (s : State) (n : Nat) (p : State × LbAns) : State × LbAns :=
  if s.keyModeA n = false then (s, .done 3 0 []) else if s.journalBusy 2 then (s, .wait) else p

section
variable {m : Fin 16} {c : LbCmd} {b : HostBuf} {i : Item} {cmd : List Byte} {n : Nat} {p : State × LbAns} {row : Res}

theorem exec_lbImport_ready (ready : s.lbReady m 0x11 1 c i cmd) : exec (.lbImport m c b) s = .next (s.lbAnswer i m cmd
    (s.keyRow (lbSlot c) (if (keyAttr c).ktype = 6 then s.importPub c b else s.importKey c b))) :=
  congrArg Host.Outcome.next (State.lbRun_ready ready _)

theorem exec_derive_ready (ready : s.lbReady m 0x11 2 c i cmd) :
    exec (.derive m c b) s = .next (s.lbAnswer i m cmd (s.keyRow (lbSlot c) (s.deriveKey c b))) :=
  congrArg Host.Outcome.next (State.lbRun_ready ready _)

theorem exec_invalidate_ready (ready : s.lbReady m 0x11 3 c i cmd) : exec (.invalidate m c b) s = .next (s.lbAnswer i m cmd
    (s.keyRow (lbSlot c) ((s.invalidateFamily (lbSlot c)).1,
      kAns 0 (lbSlot c) ((s.family (lbSlot c)).filter fun n => (s.cat n).state != 2).length 0))) :=
  congrArg Host.Outcome.next (State.lbRun_ready ready _)

theorem exec_lbDelete_ready (ready : s.lbReady m 0x11 4 c i cmd) :
    exec (.lbDelete m c b) s = .next (s.lbAnswer i m cmd (s.keyRow (lbSlot c) (s.deleteSlot (lbSlot c)))) :=
  congrArg Host.Outcome.next (State.lbRun_ready ready _)

theorem keyRow_waits (run : row = .next (s.lbAnswer i m cmd (s.keyRow n p))) (mode : s.keyModeA n = true)
    (busy : s.journalBusy 2 = true) : row = .next s := by
  rw [run, State.keyRow, if_neg (by simp [mode]), if_pos busy]; rfl

theorem keyRow_runs (run : row = .next (s.lbAnswer i m cmd (s.keyRow n p))) (mode : s.keyModeA n = true)
    (free : s.journalBusy 2 = false) : row = .next (s.lbAnswer i m cmd p) := by
  rw [run, State.keyRow, if_neg (by simp [mode]), if_neg (by simp [free])]

theorem keyRow_refused (run : row = .next (s.lbAnswer i m cmd (s.keyRow n p))) (mode : s.keyModeA n = false) :
    row = .next (s.lbSettle i m cmd (completionBytes cmd 3 0 [])) := by
  rw [run, State.keyRow, if_pos mode]; rfl

theorem State.importKey_barred {a : State} (parent : a = s.expireNow ((keyAttr c).parent.getD 0))
    (barred : a.childCode (lbSlot c) (keyAttr c) 3 ≠ 0) :
    s.importKey c b = (a, kAns (a.childCode (lbSlot c) (keyAttr c) 3) (lbSlot c) 0 0) := by
  subst parent
  exact if_pos barred

theorem State.deriveKey_barred {a : State} (parent : a = s.expireNow ((keyAttr c).parent.getD 0))
    (barred : a.childCode (lbSlot c) (keyAttr c) 2 ≠ 0) :
    s.deriveKey c b = (a, kAns (a.childCode (lbSlot c) (keyAttr c) 2) (lbSlot c) 0 0) := by
  subst parent
  exact if_pos barred

theorem State.deleteSlot_identity : s.deleteSlot 0 = (s, kAns 4 0 0 0) := by rw [State.deleteSlot, if_pos (Eq.refl 0)]

theorem State.deleteSlot_parent (other : n ≠ 0) (live : (s.cat n).state = 1) (children : 1 < (s.family n).length) :
    s.deleteSlot n = (s, kAns 9 n 0 0) := by
  rw [State.deleteSlot, if_neg other, if_pos ⟨live, children⟩]

/-- What DELETE leaves in a slot that it may empty: no entry but GEN, and no counters. -/
theorem State.deleteSlot_empties (other : n ≠ 0) (may : (s.cat n).state ≠ 1 ∨ (s.family n).length ≤ 1) :
    ∃ a, s.deleteSlot n = (a, kAns 0 n (s.cat n).gen 0) ∧ a.cat n = { cat0 with gen := (s.cat n).gen } ∧ a.keyRun n = run0 := by
  have childless : ¬((s.cat n).state = 1 ∧ 1 < (s.family n).length) := fun h => may.elim (· h.1) (Nat.not_le.mpr h.2)
  refine ⟨_, by rw [State.deleteSlot, if_neg other, if_neg childless], State.cat_setCat_same .., ?_⟩
  rw [State.keyRun, State.setCat_key]
  exact sget_serase_same
end

/-- Settles O23: each of the four rows by its mode and the journal (`keyRow`), then by what its operation answers. -/
theorem strongroomCommands : Obligations.StrongroomCommands := by
  intro m c b i cmd s
  refine ⟨fun mode => ⟨fun busy => ⟨fun ready => ?_, fun ready => ?_, fun ready => ?_, fun ready => ?_⟩, fun free =>
      ⟨fun ready => ⟨fun secret => ?_, fun pub => ?_, fun a secret parent barred => ?_⟩, fun ready => ⟨?_, fun a parent barred => ?_⟩,
        fun ready => ⟨?_, fun n member => State.invalidateFamily_state member⟩,
        fun ready => ⟨fun identity => ?_, fun other live children => ?_, fun other may => ?_⟩⟩⟩,
    fun mode => ⟨fun ready => ?_, fun ready => ?_, fun ready => ?_, fun ready => ?_⟩⟩
  · exact keyRow_waits (exec_lbImport_ready ready) mode busy
  · exact keyRow_waits (exec_derive_ready ready) mode busy
  · exact keyRow_waits (exec_invalidate_ready ready) mode busy
  · exact keyRow_waits (exec_lbDelete_ready ready) mode busy
  · rw [keyRow_runs (exec_lbImport_ready ready) mode free, if_neg secret]
  · rw [keyRow_runs (exec_lbImport_ready ready) mode free, if_pos pub]
  · rw [keyRow_runs (exec_lbImport_ready ready) mode free, if_neg secret, State.importKey_barred parent barred]
  · exact keyRow_runs (exec_derive_ready ready) mode free
  · rw [keyRow_runs (exec_derive_ready ready) mode free, State.deriveKey_barred parent barred]
  · exact keyRow_runs (exec_invalidate_ready ready) mode free
  · rw [keyRow_runs (exec_lbDelete_ready ready) mode free, identity, State.deleteSlot_identity]; rfl
  · rw [keyRow_runs (exec_lbDelete_ready ready) mode free, State.deleteSlot_parent other live children]; rfl
  · obtain ⟨a, answer, entry, counters⟩ := s.deleteSlot_empties other may
    refine ⟨_, keyRow_runs (exec_lbDelete_ready ready) mode free, ?_⟩
    rw [answer]
    exact ⟨entry, counters⟩
  · exact keyRow_refused (exec_lbImport_ready ready) mode
  · exact keyRow_refused (exec_derive_ready ready) mode
  · exact keyRow_refused (exec_invalidate_ready ready) mode
  · exact keyRow_refused (exec_lbDelete_ready ready) mode

/-! ### Lengths of hashes and derived octets (R442, R452) -/

theorem length_natOct (n v : Nat) : (natOct n v).length = n := by
  induction n generalizing v with
  | zero => rfl
  | succ n ih => simp [natOct, ih]

theorem length_shaRound {w : Nat} (k : ShaKind w) (kw : BitVec w) : ∀ v : List (BitVec w), v.length = 8 → (shaRound k v kw).length = 8
  | [_, _, _, _, _, _, _, _], _ => rfl

theorem length_shaBlock {w : Nat} (k : ShaKind w) {v : List (BitVec w)} (eight : v.length = 8) (b : List Byte) :
    (shaBlock k v b).length = 8 := by
  have rounds : ∀ (kws v : List (BitVec w)), v.length = 8 → (kws.foldl (shaRound k) v).length = 8 := by
    intro kws
    induction kws with
    | nil => exact fun _ h => h
    | cons kw r ih => exact fun v h => ih _ (length_shaRound k kw v h)
  simp [shaBlock, eight, rounds _ v eight]

theorem length_shaOf {w : Nat} (k : ShaKind w) {v : List (BitVec w)} (eight : v.length = 8) (msg : List Byte) :
    (shaOf k v msg).length = 8 * (w / 8) := by
  have blocks : ∀ (bs : List (List Byte)) (v : List (BitVec w)), v.length = 8 → (bs.foldl (shaBlock k) v).length = 8 := by
    intro bs
    induction bs with
    | nil => exact fun _ h => h
    | cons b r ih => exact fun v h => ih _ (length_shaBlock k h b)
  simp only [shaOf, List.length_flatMap, length_natOct, List.map_const', List.sum_replicate_nat, blocks _ v eight]

theorem length_hmac384 (key msg : List Byte) : (hmac384 key msg).length = 48 := by
  rw [hmac384, hmacOf, sha384, List.length_take, length_shaOf sha384Kind rfl]
  rfl

theorem length_kdfBlocks (key label ctx : List Byte) (bits i k : Nat) : (kdfBlocks key label ctx bits i k).length = 48 * k := by
  induction k generalizing i with
  | zero => rfl
  | succ k ih => rw [kdfBlocks, List.length_append, length_hmac384, ih, Nat.mul_succ, Nat.add_comm]

/-- The KDF gives as many octets as are asked for. -/
theorem length_kdf (key label ctx : List Byte) (len : Nat) : (kdf key label ctx len).length = len := by
  have enough : len ≤ 48 * ceilDiv len 48 := by unfold ceilDiv; omega
  rw [kdf, List.length_take, length_kdfBlocks, Nat.min_eq_left enough]

/-! ### A new challenge (R442) -/

theorem State.newChallenge_length (s : State) : s.newChallenge.2.length = 32 := length_kdf ..

/-- A new challenge is in force from now on, and the challenge counter has counted it. -/
theorem State.newChallenge_issued (s : State) : s.newChallenge.1.key.chal = some (s.newChallenge.2, s.now) ∧
    s.newChallenge.1.key.chalCtr = (s.key.chalCtr + 1) % 2 ^ 64 := by
  unfold State.newChallenge
  dsimp only
  split
  · rw [State.wr_key]; exact ⟨rfl, rfl⟩
  · exact ⟨rfl, rfl⟩

theorem State.newChallenge_out (s : State) : s.newChallenge.1.out = s.out :=
  (State.newChallenge_in (M := 0x400000200) rfl (.refl s)).parts .out rfl

/-! ### SEAL, GET_CERT and GET_CHALLENGE (R456, R461, R462) -/

section
variable {m : Fin 16} {c : LbCmd} {b : HostBuf} {i : Item} {cmd : List Byte}

/-- The statement that a state gives on a nonce of a command, signed. -/
def State.sealSigned (s : State) (c : LbCmd) (d : List Byte) : List Byte :=
  let body := s.sealBody ((List.range 8).flatMap fun k => leBytes 4 (lbW c k))
  body ++ padTo 96 (ecdsaSign d body)

theorem exec_seal_signs {a : State} {d : List Byte} (mode : s.keyModeB = true) (ready : s.lbReady m 0x11 5 c i cmd)
    (intact : b.err = false) (fits : 416 ≤ c.len) (key : s.useSlot 0 4 = (a, some d)) :
    exec (.seal m c b) s = .next (((a.inc Reg.KEY_SEALSEQ_COUNT []).emit
      (.hostWrite c.addr ((a.inc Reg.KEY_SEALSEQ_COUNT []).sealSigned c d))).lbSettle i m cmd
        (completionBytes cmd 0 416 (leBytes 4 0 ++ leBytes 4 0 ++ leBytes 4 ((a.inc Reg.KEY_SEALSEQ_COUNT []).cat 0).gen))) := by
  have room : ¬(b.err = true ∨ c.len < 416) := by simp [intact, fits]
  simp only [exec, execSeal, State.lbRun_ready ready, mode, Bool.true_eq_false, if_false, room, key]
  rfl

theorem exec_seal_short (mode : s.keyModeB = true) (ready : s.lbReady m 0x11 5 c i cmd) (short : c.len < 416) :
    exec (.seal m c b) s = .next (s.lbAnswer i m cmd (s, kAns 11 0 0 0)) := by
  simp only [exec, execSeal, State.lbRun_ready ready, mode, Bool.true_eq_false, if_false, short, or_true, if_true]

theorem exec_getCert_reads (mode : s.keyModeB = true) (ready : s.lbReady m 0x11 6 c i cmd) (intact : b.err = false) :
    exec (.getCert m c b) s = .next (s.lbAnswer i m cmd (if Config.certChain.length ≤ c.len then
      (s.emit (.hostWrite c.addr Config.certChain), kAns 0 0 (s.cat 0).gen Config.certChain.length) else (s, kAns 11 0 0 0))) := by
  simp only [exec, execGetCert, State.lbRun_ready ready, mode, Bool.true_eq_false, if_false, intact, Bool.false_eq_true, false_or]
  split
  next short => rw [if_neg (Nat.not_le.mpr short)]
  next fits => rw [if_pos (Nat.not_lt.mp fits)]

theorem exec_getChallenge_issues (mode : s.keyModeB = true) (ready : s.lbReady m 0x11 7 c i cmd) (intact : b.err = false)
    (fits : 32 ≤ c.len) : exec (.getChallenge m c b) s = .next (s.lbAnswer i m cmd
      (s.newChallenge.1.emit (.hostWrite c.addr s.newChallenge.2), kAns 0 0 (s.newChallenge.1.cat 0).gen 32)) := by
  have room : ¬(b.err = true ∨ c.len < 32) := by simp [intact, fits]
  simp only [exec, execGetChallenge, State.lbRun_ready ready, mode, Bool.true_eq_false, if_false, room]

/-! ### Moves of the life cycle (R440, R441) -/

section
variable {op need lc : Nat} {allowed : Bool} {key : Option (List Byte)} {f : List Byte → State → State × Bool}

theorem State.lcMove_outside (mode : s.mode ≠ .service) : s.lcMove op need c b allowed key lc f = (s, .done 3 0 []) := if_pos mode

/-- A move that its state allows, with data of the right length and no cut: judged by its signature, then by its work. -/
theorem State.lcMove_judged (mode : s.mode = .service) (may : allowed = true) (intact : b.err = false) (uncut : b.cut = none)
    (size : (b.data.take c.len).length = need) : s.lcMove op need c b allowed key lc f =
      if s.authOk key op c.param ((b.data.take c.len).take (need - 96)) ((b.data.take c.len).drop (need - 96)) = true then
        (if (f (b.data.take c.len) s.spendChallenge).2 = true then
          ((f (b.data.take c.len) s.spendChallenge).1.burn lc, kAns 0 0 0 0)
        else ((f (b.data.take c.len) s.spendChallenge).1, kAns 6 0 0 0))
      else (s, kAns 7 0 0 0) := by
  have whole : ¬(b.err = true ∨ (b.data.take c.len).length ≠ need) := by simp [intact, size]
  unfold State.lcMove
  dsimp only
  rw [if_neg (not_not.mpr mode), if_neg (by simp [may]), if_neg whole]
  generalize f (b.data.take c.len) s.spendChallenge = work
  obtain ⟨a, done⟩ := work
  cases s.authOk key op c.param ((b.data.take c.len).take (need - 96)) ((b.data.take c.len).drop (need - 96)) with
  | false => rfl
  | true => cases done <;> simp [uncut]
end

theorem exec_takeOwnership_ready (ready : s.lbReady m 0x11 8 c i cmd) : exec (.takeOwnership m c b) s =
    .next (s.lbAnswer i m cmd (s.lcMove 8 224 c b (s.rd Reg.KEY_LC_STATE [] == 1 && s.key.fuse == 1) (some Config.testKey) 2
      fun d x => x.takeOwner d b)) :=
  congrArg Host.Outcome.next (State.lbRun_ready ready _)

theorem exec_lbLock_ready (ready : s.lbReady m 0x11 9 c i cmd) : exec (.lbLock m c b) s =
    .next (s.lbAnswer i m cmd (s.lcMove 9 96 c b (s.rd Reg.KEY_LC_STATE [] == 2 && s.key.fuse == 2) s.ownerKey 3 fun _ x => (x, true))) :=
  congrArg Host.Outcome.next (State.lbRun_ready ready _)

/-- The key that authorises SCRAP: the owner's, but in TEST the test key where the owner's does not verify. -/
def State.scrapKey (s : State) (c : LbCmd) (b : HostBuf) : Option (List Byte) :=
  let lc := s.rd Reg.KEY_LC_STATE []
  let key := if lc = 1 then (match s.ownerKey with | some k => some k | none => some Config.testKey) else s.ownerKey
  if lc = 1 ∧ s.authOk key 10 c.param [] ((b.data.take c.len).take 96) = false then some Config.testKey else key

theorem State.scrapKey_owner (beyondTest : s.rd Reg.KEY_LC_STATE [] ≠ 1) : s.scrapKey c b = s.ownerKey := by
  simp only [State.scrapKey, beyondTest, false_and, if_false]

theorem exec_scrap_ready (ready : s.lbReady m 0x11 10 c i cmd) : exec (.scrap m c b) s =
    .next (s.lbAnswer i m cmd (s.lcMove 10 96 c b (decide (1 ≤ s.rd Reg.KEY_LC_STATE [] ∧ s.rd Reg.KEY_LC_STATE [] ≤ 3) && s.key.fuse != 4)
      (s.scrapKey c b) 4 fun _ x => (x.scrapAll, true))) :=
  congrArg Host.Outcome.next (State.lbRun_ready ready _)
end

/-- Settles O24: the statement, the certificate and the challenge by what each row leaves; the moves of the life cycle by the one
operation that judges them (`lcMove`). -/
theorem sealAndLifeCycleCommands : Obligations.SealAndLifeCycleCommands := by
  refine ⟨fun m c b i cmd s mode => ⟨fun a d ready intact fits key => ?_, fun ready intact => ?_, fun ready intact fits => ?_,
      fun ready short => ?_⟩,
    fun m c b i cmd s => ⟨fun outside => ⟨fun ready => ?_, fun ready => ?_, fun ready => ?_⟩, fun mode =>
      ⟨fun ready state fuse intact uncut size => ?_, fun ready state fuse intact uncut size => ?_,
        fun ready state fuse intact uncut size => ?_⟩⟩⟩
  · refine ⟨_, _, exec_seal_signs mode ready intact fits key, rfl, ?_, ?_⟩
    · rw [State.lbSettle_out, State.emit_out_eq, State.inc_out]; rfl
    · rw [State.rd_lbSettle, State.rd_emit, State.rd_inc_same _ rfl rfl]; rfl
  · exact exec_getCert_reads mode ready intact
  · obtain ⟨issued, counted⟩ := s.newChallenge_issued
    refine ⟨_, exec_getChallenge_issues mode ready intact fits, ?_, s.newChallenge_length, issued, counted⟩
    exact congrArg (· ++ [.hostWrite c.addr s.newChallenge.2]) s.newChallenge_out
  · exact exec_seal_short mode ready short
  · rw [exec_takeOwnership_ready ready, State.lcMove_outside outside]; rfl
  · rw [exec_lbLock_ready ready, State.lcMove_outside outside]; rfl
  · rw [exec_scrap_ready ready, State.lcMove_outside outside]; rfl
  · rw [exec_takeOwnership_ready ready, State.lcMove_judged mode (by simp [state, fuse]) intact uncut size]
  · rw [exec_lbLock_ready ready, State.lcMove_judged mode (by simp [state, fuse]) intact uncut size]; rfl
  · have life : 1 ≤ s.rd Reg.KEY_LC_STATE [] ∧ s.rd Reg.KEY_LC_STATE [] ≤ 3 ∧ s.rd Reg.KEY_LC_STATE [] ≠ 1 := by omega
    obtain ⟨low, high, beyondTest⟩ := life
    rw [exec_scrap_ready ready, State.lcMove_judged mode (by simp [low, high, fuse]) intact uncut size, State.scrapKey_owner beyondTest]
    rfl

/-! ### Keys in time (R448, R450, R451) -/

section
variable {n : Fin 256} {t : Time}

theorem exec_keyExpiry_powered (lit : s.powered = true) : exec (.keyExpiry n t) s = .next ((s.advance t).expireNow n.val) :=
  congrArg Host.Outcome.next (if_pos lit)

theorem exec_reserveWriteDone_pending {u v : Nat} (pending : (s.keyRun n.val).pend = some (u, v)) :
    exec (.reserveWriteDone n) s =
      .next (((s.setRun n.val { s.keyRun n.val with useRes := u, spduRes := v, pend := none }).writeCounters).reserve n.val) := by
  simp only [exec, execReserveWriteDone, pending]

theorem exec_reserveWriteDone_idle (idle : (s.keyRun n.val).pend = none) : exec (.reserveWriteDone n) s = .next s := by
  simp only [exec, execReserveWriteDone, idle]

theorem exec_counterTableWrite_second (lit : s.powered = true) (whole : t % second = 0) :
    exec (.counterTableWrite t) s = .next (s.advance t).writeCounters :=
  congrArg Host.Outcome.next (if_pos (by simp [lit, whole]))
end

/-! ### Expiry of challenges and authorisations (R442, R529) -/

/-- A challenge older than 60 s is gone. -/
def State.dropOldChallenge (s : State) : State :=
  match s.key.chal with
  | some (_, i) => if i + 60 * second ≤ s.now then s.spendChallenge else s
  | none => s

theorem exec_challengeExpiry (t : Time) : exec (.challengeExpiry t) s =
    .next (if (s.advance t).dropOldChallenge.rd Reg.STRT_SVC_AUTH_STAT [] = 1 ∧
        (s.advance t).dropOldChallenge.strt.svcAt + 60 * second ≤ (s.advance t).dropOldChallenge.now
      then (s.advance t).dropOldChallenge.wr Reg.STRT_SVC_AUTH_STAT [] 3 else (s.advance t).dropOldChallenge) := rfl

theorem State.dropOldChallenge_old {c : List Byte} {i : Time} (issued : s.key.chal = some (c, i)) (old : i + 60 * second ≤ s.now) :
    s.dropOldChallenge.key.chal = none := by
  simp [State.dropOldChallenge, issued, old, State.spendChallenge]

/-- Only the challenge goes. -/
theorem State.dropOldChallenge_within (s : State) : Within 0x200 s s.dropOldChallenge := by
  unfold State.dropOldChallenge
  split
  · exact .ite (.refl s) fun _ => State.spendChallenge_in rfl (.refl s)
  · exact .refl s

theorem State.rd_authStat (s : State) (v : Nat) (fits : v < 4) :
    (s.wr Reg.STRT_SVC_AUTH_STAT [] v).rd Reg.STRT_SVC_AUTH_STAT [] = v :=
  (s.rd_wr_same v rfl rfl).trans (Nat.mod_eq_of_lt fits)

/-! ### CHAL_REQ and SUBMIT (R529) -/

section
variable {w : Word}

theorem exec_chalReq (takes : s.takesWrite (Reg.STRT_SVC_CHAL_REQ.off [])) : exec (.chalReq w) s = .next (s.chalWrite w) :=
  congrArg Host.Outcome.next (State.hostGate_takes takes _ _)

theorem State.chalWrite_requested (go : w.getLsbD 31 = true) : s.chalWrite w = s.newChallenge.1.showChallenge s.newChallenge.2 :=
  if_neg (by simp [go])

theorem State.chalWrite_not_requested (go : w.getLsbD 31 = false) : s.chalWrite w = s := if_pos go

@[simp] theorem State.showChallenge_key (s : State) (bytes : List Byte) : (s.showChallenge bytes).key = s.key :=
  (State.showChallenge_in (M := 0x400000000) rfl (.refl s)).parts .key rfl

theorem exec_submit (takes : s.takesWrite (Reg.STRT_SVC_SUBMIT.off [])) : exec (.submit w) s = .next (s.submitWrite w) :=
  congrArg Host.Outcome.next (State.hostGate_takes takes _ _)

theorem State.submitWrite_ignored (h : w.getLsbD 30 = false ∨ s.strt.svcSub.isSome = true) : s.submitWrite w = s := if_pos h

/-- A SUBMIT taken is pending with its judgement and with the bit for the next start. -/
theorem State.submitWrite_pending (go : w.getLsbD 30 = true) (idle : s.strt.svcSub = none) : ∃ i,
    (s.submitWrite w).strt.svcSub =
      some (w.getLsbD 29, s.authOk s.ownerKey 0xC0 [if w.getLsbD 29 then 1 else 0] [] (s.regBytes 0x10090 24), i) := by
  rw [State.submitWrite, if_neg (by simp [go, idle])]
  exact ⟨_, rfl⟩
end

/-! ### The judgement of a SUBMIT (R529) -/

section
variable {t i : Time}

theorem exec_svcAuthDone_idle (idle : s.strt.svcSub = none) : exec (.svcAuthDone t) s = .next (s.advance t) := by
  simp only [exec, execSvcAuthDone, State.advance_strt, idle]

/-- The SUBMIT under judgement is over, issued with the challenge of time `i`. -/
def State.svcOver (s : State) (i : Time) : State := { s with strt := { s.strt with svcSub := none, svcAt := i } }

/-- The judgement shown at once: a bad signature, or a good one that is not for the next start. -/
theorem exec_svcAuthDone_now {atStart ok : Bool} (pending : s.strt.svcSub = some (atStart, ok, i)) (now : ¬(ok = true ∧ atStart = true)) :
    exec (.svcAuthDone t) s = .next
      ((((s.advance t).svcOver i).wr Reg.STRT_SVC_AUTH_STAT [] (if ok then 1 else 2)).notice bSTRT 5 0 (if ok then 1 else 2) 0) := by
  simp only [exec, execSvcAuthDone, State.advance_strt, pending, if_neg now]
  rfl

theorem exec_svcAuthDone_next (pending : s.strt.svcSub = some (true, true, i)) : exec (.svcAuthDone t) s = .next
    (((((s.advance t).svcOver i).setFlag Reg.STRT_SVC_NEXT [] true).wr Reg.STRT_SVC_AUTH_STAT [] 3).saveRec.notice bSTRT 5 0 1 0) := by
  simp only [exec, execSvcAuthDone, State.advance_strt, pending]
  rfl

/-- The judgement's code is shown, its notice set, and nothing is pending. -/
theorem exec_svcAuthDone_shows {atStart ok : Bool} (pending : s.strt.svcSub = some (atStart, ok, i))
    (now : ¬(ok = true ∧ atStart = true)) : ∃ u, exec (.svcAuthDone t) s = .next u ∧
      u.rd Reg.STRT_SVC_AUTH_STAT [] = (if ok then 1 else 2) ∧ u.strt.svcSub = none ∧ u.noticed bSTRT 5 := by
  refine ⟨_, exec_svcAuthDone_now pending now, ?_, ?_, State.notice_bit _ _ _ _ (by decide)⟩
  · rw [State.rd_notice _ _ _ _ _ _ rfl rfl rfl, State.rd_authStat _ _ (by cases ok <;> decide)]
  · rw [State.notice_part _ bSTRT 5 0 _ 0 .strt (by decide) (by decide), State.wr_strt]
    rfl

theorem State.saveRec_regs (s : State) : s.saveRec.regs = s.regs := by
  unfold State.saveRec
  dsimp only
  split <;> rfl
end

/-- Settles O49: each row in time by the condition it tests; the authorisation by CHAL_REQ, SUBMIT and the judgement. -/
theorem keysAndServiceAuthorisation : Obligations.KeysAndServiceAuthorisation := by
  refine ⟨⟨fun n t s lit => exec_keyExpiry_powered lit, fun n u v s pending => exec_reserveWriteDone_pending pending,
      fun n s idle => exec_reserveWriteDone_idle idle, fun t s lit whole => exec_counterTableWrite_second lit whole,
      fun t i c s issued old => ?_, fun t s good old => ?_⟩,
    fun w s takes => ⟨fun go => ?_, fun go => ?_⟩, fun w s takes => ⟨fun go idle => ?_, fun ignored => ?_⟩,
    fun t i ok s pending => exec_svcAuthDone_shows pending (by simp), fun t i s pending => ?_,
    fun t i s pending => exec_svcAuthDone_shows pending (by simp), fun t s idle => exec_svcAuthDone_idle idle⟩
  · refine ⟨_, exec_challengeExpiry t, ?_⟩
    have gone : (s.advance t).dropOldChallenge.key.chal = none := State.dropOldChallenge_old issued old
    split
    · rw [State.wr_key, gone]
    · exact gone
  · have kept := (s.advance t).dropOldChallenge_within
    have stat : (s.advance t).dropOldChallenge.rd Reg.STRT_SVC_AUTH_STAT [] = 1 := (kept.rd rfl rfl rfl).trans good
    have past : (s.advance t).dropOldChallenge.strt.svcAt + 60 * second ≤ (s.advance t).dropOldChallenge.now := by
      rw [kept.parts .strt rfl, kept.parts .now rfl]
      exact old
    exact ⟨_, (exec_challengeExpiry t).trans (congrArg _ (if_pos ⟨stat, past⟩)), State.rd_authStat _ 3 (by decide)⟩
  · obtain ⟨issued, counted⟩ := s.newChallenge_issued
    refine ⟨_, exec_chalReq takes, ?_⟩
    rw [State.chalWrite_requested go, State.showChallenge_key]
    exact ⟨issued, counted⟩
  · rw [exec_chalReq takes, State.chalWrite_not_requested go]
  · obtain ⟨i, pending⟩ := State.submitWrite_pending go idle
    exact ⟨_, _, i, exec_submit takes, pending, rfl⟩
  · rw [exec_submit takes, State.submitWrite_ignored ignored]
  · refine ⟨_, exec_svcAuthDone_next pending, ?_, ?_, State.notice_bit _ _ _ _ (by decide)⟩
    · rw [State.rd_notice _ _ _ _ _ _ rfl rfl rfl, State.rd_congr (State.saveRec_regs _), State.rd_authStat _ 3 (by decide)]
    · rw [State.flag_notice _ _ _ _ _ _ rfl rfl rfl, State.flag_congr (State.saveRec_regs _),
        State.flag_wr_bits _ _ rfl rfl (.inl (by decide)), State.flag_setFlag_same _ _ rfl rfl rfl]

end Sys2Proof.Machine
end

section
/-! PROOFS of the family 13_persistence_logbook_rtc: the Logbook's bounds and records, the settings store, the backup clock, its alarm and
the backup domain. -/
namespace Sys2Proof.Machine

variable {s x : State}

/-- Settles O5: a tick and every command keep what `Keeps` says, the Logbook's bounds with it. -/
theorem stepKeepsLogbookBounds : Obligations.StepKeepsLogbookBounds := by
  intro s u hs h
  rcases step_cases h with ⟨-, rfl⟩ | ⟨c, rest, -, hc⟩
  · exact (State.tick_keeps (.refl s)).log hs
  · exact (exec_keeps c _ u hc).log hs

/-! ### What offers to the host rings leave (R204 to R219) -/

/-- What rings and the Sorting Office write for an item, notices apart: the registers of PR and SOF, the states of the host interface and
of the Sorting Office, the outputs, and the pending vectors. -/
abbrev offerMask : Nat := 0x440010000800018

/-- What holds of a state stands whatever rings and the Sorting Office write for an item, and after any notice. -/
structure StandsOffers (P : State → Prop) : Prop where
  within : ∀ {x y : State}, Within offerMask x y → P x → P y
  notice : ∀ (x : State) (b bit d0 d1 d2 : Nat), P x → P (x.notice b bit d0 d1 d2)

section
variable {P : State → Prop} (stands : StandsOffers P)
include stands

theorem StandsOffers.noticeFirst (h : P x) (b bit d0 d1 d2 : Nat) : P (x.noticeFirst b bit d0 d1 d2) := by
  unfold State.noticeFirst
  split
  · exact h
  · exact stands.notice _ _ _ _ _ _ h

theorem StandsOffers.prShed (h : P x) (r : Nat) : P (x.prShed r) := by
  unfold State.prShed
  extract_lets counted dropping
  have shed : Within offerMask x counted := State.incSat_in rfl rfl (State.inc_in rfl rfl (.refl x))
  have marked : Within offerMask x dropping := .ite shed fun h => State.setFlag_in rfl rfl h
  exact stands.noticeFirst (stands.within marked h) ..

theorem StandsOffers.prResume (h : P x) (r : Nat) : P (x.prResume r) := by
  unfold State.prResume
  split
  · exact stands.notice _ _ _ _ _ _ (stands.within (State.setFlag_in rfl rfl (.refl x)) h)
  · exact h

theorem StandsOffers.prDeliver (h : P x) (r typ info : Nat) (cut : Bool) (data : List Byte) : P (x.prDeliver r typ info cut data) :=
  stands.within (State.prDeliver_in rfl (.refl x)) h

theorem StandsOffers.prPut (h : P x) (r typ info : Nat) (data : List Byte) (cutRec : Option (List Byte)) :
    P (x.prPut r typ info data cutRec).1 := by
  unfold State.prPut
  extract_lets _ _ numbered resumed
  have h1 : P numbered := stands.within (Within.set_hif (.refl x) rfl) h
  have h2 : P resumed := stands.prResume h1 r
  clear_value numbered resumed
  split
  · exact stands.prShed h1 r
  · split
    · exact stands.prShed h2 r
    · split
      · exact stands.prDeliver h2 ..
      · split
        · split
          · exact stands.prDeliver (stands.noticeFirst (stands.within (State.inc_in rfl rfl (.refl _)) h2) ..) ..
          · exact stands.prShed h2 r
        · exact stands.prShed h2 r

theorem StandsOffers.offerSample (h : P x) (code : Nat) (item : List Byte) : P (x.offerSample code item) := by
  unfold State.offerSample
  split
  · exact forEach_holds _ h fun r y hy => stands.prPut hy ..
  · exact h

theorem StandsOffers.dead (h : P x) (code flow : Nat) (pm : Option Nat) (rec_ : Bool) (content : Option (List Byte)) :
    P (x.dead code flow pm rec_ content) := by
  unfold State.dead
  extract_lets counted _ _ _ _ sampled _
  have h1 : P sampled := stands.within (Within.set_sof (State.bump64_in (M := offerMask) rfl rfl (.refl x)) rfl) h
  split
  · exact stands.offerSample h1 ..
  · exact h1

theorem StandsOffers.trcStop (h : P x) (stat : Nat) : P (x.trcStop stat) :=
  stands.notice _ _ _ _ _ _ (stands.within (State.wr_in rfl (.refl x)) h)

theorem StandsOffers.trcFlush (h : P x) : P x.trcFlush := by
  unfold State.trcFlush
  split
  · exact h
  · extract_lets _ _ taken
    have h1 : P taken := stands.within (Within.set_sof (.refl x) rfl) h
    split
    · refine forEach_holds _ h1 fun r y hy => ?_
      have put := stands.prPut hy r 4 0 (x.sof.trace.take 64).flatten none
      split
      case h_1 e => rwa [e] at put
      case h_2 e => rw [e] at put; exact stands.dead put ..
    · exact h1

theorem StandsOffers.traceEv (h : P x) (ev cls srt flow aux seq : Nat) : P (x.traceEv ev cls srt flow aux seq) := by
  unfold State.traceEv
  split
  · exact h
  · split
    · exact stands.trcStop h 2
    · extract_lets _ _ taken flushed _
      have h1 : P flushed := stands.trcFlush (stands.within (Within.set_sof (.refl x) rfl) h)
      split
      · exact stands.trcStop h1 3
      · exact h1

theorem StandsOffers.prOffer (h : P x) (r typ info flow : Nat) (data : List Byte) (cutRec : Option (List Byte)) :
    P (x.prOffer r typ info flow data cutRec) := by
  have put := stands.prPut h r typ info data cutRec
  unfold State.prOffer
  split
  case h_1 e => rwa [e] at put
  case h_2 e => rw [e] at put; exact stands.traceEv (stands.dead put ..) ..

theorem StandsOffers.offer (h : P x) (src rnd info flow : Nat) (sel : Nat → Bool) (data : List Byte) (cutRec : Option (List Byte)) :
    P (x.offer src rnd info flow sel data cutRec) := by
  unfold State.offer
  split
  · exact forEach_holds _ h fun r y hy => stands.prOffer hy ..
  · exact h
end

/-- A notice that is set stands. -/
theorem standsOffers_noticed (b i : Nat) : StandsOffers fun x => x.noticed b i :=
  ⟨fun w h => w.keepsNotices (by decide) b i h, fun x c bit d0 d1 d2 h => x.notice_keepsBit c bit d0 d1 d2 b i h⟩

/-! ### What events and offers leave of the records (R482, R484) -/

/-- The records held, and the SEQ of the next. -/
def State.holdsRecs (s : State) (recs : List LogRec) (next : Nat) : Prop := s.log.recs = recs ∧ s.rd Reg.LOG_HEAD_SEQ [] = next

theorem Within.holdsRecs {M : Nat} {y : State} {recs : List LogRec} {next : Nat} (h : Within M x y) (log : M.testBit 2 = false)
    (area : M.testBit 52 = false) (holds : x.holdsRecs recs next) : y.holdsRecs recs next :=
  ⟨(congrArg LogSt.recs (h.parts .log log)).trans holds.1, (h.rd (f := Reg.LOG_HEAD_SEQ) (idx := []) rfl rfl area).trans holds.2⟩

theorem State.noticeQuiet_within (s : State) (b bit : Nat) : Within 0x400000100800000 s (s.noticeQuiet b bit) :=
  State.noticeQuiet_in rfl (.refl s)

theorem State.holdsRecs.of_same {y : State} {recs : List LogRec} {next : Nat} (h : x.holdsRecs recs next)
    (same : y.log.recs = x.log.recs) (regs : y.regs = x.regs) : y.holdsRecs recs next :=
  ⟨same.trans h.1, (State.rd_congr regs _ _).trans h.2⟩

theorem State.holdsRecs.wr {recs : List LogRec} {next : Nat} (h : s.holdsRecs recs next) {f : Fld} {idx : List Nat} (v : Nat)
    (other : Reg.LOG_HEAD_SEQ.off [] ≠ f.off idx) : (s.wr f idx v).holdsRecs recs next :=
  ⟨by rw [State.wr_log]; exact h.1, (State.rd_wr_off _ _ other).trans h.2⟩

/-- An event taken into the Logbook adds no record, and no SEQ is taken for it. -/
theorem State.holdsRecs.logPut {recs : List LogRec} {next : Nat} (h : s.holdsRecs recs next) (e : LogEv) :
    (s.logPut e).holdsRecs recs next := by
  unfold State.logPut
  extract_lets sealed l1 fresh
  have hf : fresh.holdsRecs recs next := by
    unfold fresh State.staged State.inc
    split
    · refine State.holdsRecs.wr ?_ _ (by decide)
      exact h.of_same rfl rfl
    · refine (State.noticeQuiet_within _ bLOG 2).holdsRecs (by decide) (by decide) (State.holdsRecs.wr ?_ _ (by decide))
      exact h.of_same rfl rfl
  clear_value fresh sealed
  split
  · split
    · exact hf
    · extract_lets n
      split
      · exact h.of_same rfl rfl
      · exact hf
  · split
    · exact h.of_same rfl rfl
    · exact hf

theorem standsOffers_holdsRecs (recs : List LogRec) (next : Nat) : StandsOffers fun x => x.holdsRecs recs next := by
  refine ⟨fun w h => w.holdsRecs (by decide) (by decide) h, fun x b bit d0 d1 d2 h => ?_⟩
  have quiet := (x.noticeQuiet_within b bit).holdsRecs (by decide) (by decide) h
  unfold State.notice
  split
  · exact quiet.logPut _
  · exact quiet

/-! ### Writing a record (R482, R488) -/

theorem State.holdsRecs.offerRec {recs : List LogRec} {next : Nat} (h : s.holdsRecs recs next) (r : LogRec) :
    (s.offerRec r).holdsRecs recs next := (standsOffers_holdsRecs recs next).offer h ..

theorem State.noticed_offerRec {b i : Nat} (on : s.noticed b i) (r : LogRec) : (s.offerRec r).noticed b i :=
  (standsOffers_noticed b i).offer on ..

/-- An event becomes the newest record, at LOG_HEAD, and the notice of a record tells of it. -/
theorem State.appendRec_holds (s : State) (e : LogEv) :
    (s.appendRec e).holdsRecs ((if 65536 ≤ s.log.recs.length then s.log.recs.drop 1 else s.log.recs) ++ [s.newRec e])
      ((s.rd Reg.LOG_HEAD_SEQ [] + 1) % 2 ^ 32) ∧ (s.appendRec e).noticed bLOG 0 := by
  generalize hnext : (s.rd Reg.LOG_HEAD_SEQ [] + 1) % 2 ^ 32 = next
  unfold State.appendRec
  extract_lets r full first recs _ held counted wrapped told
  have h1 : counted.holdsRecs recs next := by
    refine State.holdsRecs.wr ⟨?_, ?_⟩ _ (by decide)
    · rw [State.inc_log]
    · exact (State.rd_inc_same _ rfl rfl).trans hnext
  have h2 : wrapped.holdsRecs recs next := by
    unfold wrapped State.setFlag
    split
    · exact h1.wr _ (by decide)
    · exact h1
  have h3 : told.holdsRecs recs next ∧ told.noticed bLOG 0 :=
    ⟨(wrapped.noticeQuiet_within bLOG 0).holdsRecs (by decide) (by decide) h2, wrapped.notice_bit (b := bLOG) 0 0 0 (by decide)⟩
  have h4 : (if first then told.noticeQuiet bLOG 1 else told).holdsRecs recs next ∧
      (if first then told.noticeQuiet bLOG 1 else told).noticed bLOG 0 := by
    obtain ⟨holds, on⟩ := h3
    split
    · exact ⟨(told.noticeQuiet_within bLOG 1).holdsRecs (by decide) (by decide) holds, told.noticeQuiet_keepsBit bLOG 1 bLOG 0 on⟩
    · exact ⟨holds, on⟩
  obtain ⟨holds, on⟩ := h4
  have list : recs = (if 65536 ≤ s.log.recs.length then s.log.recs.drop 1 else s.log.recs) ++ [s.newRec e] := by
    simp only [recs, full, r, decide_eq_true_eq]
  rw [← list]
  exact ⟨holds.offerRec r, State.noticed_offerRec on r⟩

section
variable {f : LogFault} {t : Time} {e : LogEv} {rest : List LogEv}

/-- The oldest staged event has left the queue. -/
def State.unstaged (s : State) (rest : List LogEv) : State := ({ s with log := { s.log with stage := rest } } : State).staged

/-- What becomes of an event in the Logbook's memory. -/
def State.recorded (s : State) (e : LogEv) : LogFault → State
  | .none => s.appendRec e
  | .mismatchOnce => s.appendRec e
  | .mismatchTwice bad => (s.lastGasp bad).unstored e
  | .uncorrectable bad => (s.lastGasp bad).unstored e

theorem State.takeStaged_empty (clear : s.log.clearEv = none) (empty : s.log.stage = []) : s.takeStaged = (s, none) := by
  simp only [State.takeStaged, clear, empty]

theorem State.takeStaged_oldest (clear : s.log.clearEv = none) (oldest : s.log.stage = e :: rest) :
    s.takeStaged = (s.unstaged rest, some e) := by
  simp only [State.takeStaged, clear, oldest, State.unstaged]

theorem State.flag_unstaged (s : State) (rest : List LogEv) {g : Fld} (sane : g.sane = true) (high : 22 < g.lo) :
    (s.unstaged rest).flag g [] = s.flag g [] := State.flag_wr_bits _ _ rfl sane (.inl high)

theorem State.rd_unstaged_head (s : State) (rest : List LogEv) :
    (s.unstaged rest).rd Reg.LOG_HEAD_SEQ [] = s.rd Reg.LOG_HEAD_SEQ [] := State.rd_wr_off _ _ (by decide)

theorem State.unstaged_log (s : State) (rest : List LogEv) : (s.unstaged rest).log = { s.log with stage := rest } := State.wr_log ..

theorem exec_logRecordWrite_empty (lit : s.powered = true) (ready : s.flag Reg.LOG_STAT_READY [] = true) (clear : s.log.clearEv = none)
    (empty : s.log.stage = []) : exec (.logRecordWrite f t) s = .next (s.advance t) := by
  have runs : ¬(s.powered = false ∨ s.flag Reg.LOG_STAT_READY [] = false) := by simp [lit, ready]
  simp only [exec, execLogRecordWrite, State.advance_powered, State.flag_advance, runs, if_false,
    State.takeStaged_empty (s := s.advance t) clear empty]

theorem exec_logRecordWrite_oldest (lit : s.powered = true) (ready : s.flag Reg.LOG_STAT_READY [] = true) (clear : s.log.clearEv = none)
    (oldest : s.log.stage = e :: rest) : exec (.logRecordWrite f t) s = .next
      (if s.flag Reg.LOG_STAT_SEALED [] then ((s.advance t).unstaged rest).unstored e
      else ((s.advance t).unstaged rest).finalRewrite.recorded e f) := by
  have runs : ¬(s.powered = false ∨ s.flag Reg.LOG_STAT_READY [] = false) := by simp [lit, ready]
  simp only [exec, execLogRecordWrite, State.advance_powered, State.flag_advance, runs, if_false,
    State.takeStaged_oldest (s := s.advance t) clear oldest, State.flag_unstaged _ _ (g := Reg.LOG_STAT_SEALED) rfl (by decide)]
  cases f <;> rfl

theorem exec_logRecordWrite_open (lit : s.powered = true) (ready : s.flag Reg.LOG_STAT_READY [] = true) (clear : s.log.clearEv = none)
    (oldest : s.log.stage = e :: rest) (unsealed : s.flag Reg.LOG_STAT_SEALED [] = false) :
    exec (.logRecordWrite f t) s = .next (((s.advance t).unstaged rest).finalRewrite.recorded e f) := by
  rw [exec_logRecordWrite_oldest lit ready clear oldest, if_neg (by simp [unsealed])]

theorem State.finalRewrite_unrepeated (h : s.log.repd = false) : s.finalRewrite = s := if_neg (by simp [h])

/-! ### Repetitions and operating seconds (R483, R487) -/

theorem exec_repeatRewrite_due (lit : s.powered = true) (ready : s.flag Reg.LOG_STAT_READY [] = true)
    (unsealed : s.flag Reg.LOG_STAT_SEALED [] = false) (first : s.log.rewAt = none) :
    exec (.repeatRewrite t) s = .next (s.advance t).rewriteRep := by
  simp only [exec, execRepeatRewrite, State.advance_powered, State.flag_advance, State.advance_log, lit, ready, unsealed, first, and_self,
    if_true]

theorem exec_repeatRewrite_early {r : Time} (last : s.log.rewAt = some r) (early : max s.now t < r + 100 * usU) :
    exec (.repeatRewrite t) s = .next (s.advance t) := by
  simp only [exec, execRepeatRewrite, State.advance_log, State.advance_now_eq, last, early, decide_true, Bool.true_eq_false, and_false,
    if_false]

theorem exec_opsecSave_powered (lit : s.powered = true) : exec (.opsecSave t) s = .next
    (if (s.advance t).countOpsec.opsNow.opsec / 60 < (s.advance t).countOpsec.rd Reg.LOG_OPSEC_SEC [] / 60 then
      (s.advance t).countOpsec.saveOps else (s.advance t).countOpsec) :=
  congrArg Host.Outcome.next (if_pos lit)
end

/-- Settles O50: a record by what leaves the queue and what its memory answers, the two rewrites by the condition each row tests. -/
theorem logbookWrites : Obligations.LogbookWrites := by
  refine ⟨fun f t s lit ready clear empty => exec_logRecordWrite_empty lit ready clear empty,
    fun t e r s lit ready clear oldest unsealed unrepeated => ?_, fun t e r s a lit ready clear oldest unsealed ha bad => ?_,
    fun f t e r s lit ready clear oldest sealed => ?_, fun t s lit ready unsealed first => exec_repeatRewrite_due lit ready unsealed first,
    fun t r s last early => exec_repeatRewrite_early last early, fun t s lit due => ?_, fun t s lit saved => ?_⟩
  · have next : ((s.advance t).unstaged r).finalRewrite = (s.advance t).unstaged r :=
      State.finalRewrite_unrepeated (by rw [State.unstaged_log]; exact unrepeated)
    obtain ⟨⟨recs, head⟩, told⟩ := ((s.advance t).unstaged r).appendRec_holds e
    rw [State.unstaged_log] at recs
    rw [State.rd_unstaged_head] at head
    have write (f : LogFault) := exec_logRecordWrite_open (f := f) (t := t) lit ready clear oldest unsealed
    rw [next] at write
    exact ⟨_, _, write .none, write .mismatchOnce, recs, rfl, State.rd_unstaged_head .., head, told⟩
  · subst ha
    exact ⟨exec_logRecordWrite_open lit ready clear oldest unsealed, exec_logRecordWrite_open lit ready clear oldest unsealed⟩
  · rw [exec_logRecordWrite_oldest lit ready clear oldest, if_pos sealed]
    rfl
  · rw [exec_opsecSave_powered lit, if_pos due]
  · rw [exec_opsecSave_powered lit, if_neg (Nat.not_lt.mpr saved)]

/-! ### What settling and the journal leave (R471, R473) -/

@[simp] theorem State.lbSettle_nvs (s : State) (i : Item) (m : Nat) (cmd res : List Byte) : (s.lbSettle i m cmd res).nvs = s.nvs := rfl

@[simp] theorem State.notice_nvs (s : State) (b bit d0 d1 d2 : Nat) : (s.notice b bit d0 d1 d2).nvs = s.nvs :=
  s.notice_part b bit d0 d1 d2 .nvs (by decide) (by decide)

@[simp] theorem State.showSel_nvs (s : State) : s.showSel.nvs = s.nvs := by
  unfold State.showSel
  split <;> simp

/-- A transaction that moves the selector moves it, takes a journal SEQ, and leaves the banks. -/
theorem State.chooseBank_nvs (s : State) (sel : Option (Nat × Nat)) :
    (s.chooseBank sel).nvs = { s.nvs with sel := sel, jseq := (s.nvs.jseq + 1) % 2 ^ 32 } := by
  simp [State.chooseBank, State.nextJournal]

/-- It shows in NVS_STAT and NVS_SEQ alone. -/
theorem State.rd_chooseBank_stores (s : State) (sel : Option (Nat × Nat)) :
    (s.chooseBank sel).rd Reg.NVS_STORES_COUNT [] = s.rd Reg.NVS_STORES_COUNT [] := by
  unfold State.chooseBank State.showSel
  split <;> exact (State.rd_wr_off _ _ (by decide)).trans (State.rd_wr_off _ _ (by decide))

/-! ### Banks (R475) -/

theorem State.bank_setBank_same {bk : Nat} (s : State) (d : List Byte) : (s.setBank bk d).bank bk = d := by
  unfold State.setBank State.bank
  split <;> rfl

theorem State.bank_setBank_other {bk : Nat} (lt : bk < 2) (s : State) (d : List Byte) : (s.setBank (1 - bk) d).bank bk = s.bank bk := by
  obtain rfl | rfl : bk = 0 ∨ bk = 1 := by omega
  · rfl
  · rfl

theorem State.bank_of_nvs (a : x.nvs.bankA = s.nvs.bankA) (b : x.nvs.bankB = s.nvs.bankB) (bk : Nat) : x.bank bk = s.bank bk := by
  unfold State.bank
  rw [a, b]

theorem State.setBank_regs (s : State) (bk : Nat) (d : List Byte) : (s.setBank bk d).regs = s.regs := by
  unfold State.setBank
  split <;> rfl

/-! ### The commands of the settings store (R473 to R477) -/

section
variable {m : Fin 16} {c : LbCmd} {b : HostBuf} {i : Item} {cmd : List Byte} {bk q : Nat}

/-- A command that runs in SERVICE alone completes with STATUS 3 in every other mode. -/
theorem State.lbRun_outside {target op : Nat} (ready : s.lbReady m target op c i cmd) (mode : s.mode ≠ .service)
    (k : List Byte → State → State × LbAns) :
    s.lbRun m target op c (fun x a => if a.mode ≠ .service then (a, .done 3 0 []) else k x a) =
      s.lbSettle i m cmd (completionBytes cmd 3 0 []) := by
  rw [State.lbRun_ready ready, if_pos mode]
  rfl

/-- An image that is written and selected counts, and its notice tells of it. -/
def State.storedImage (s : State) (bk q : Nat) (image : List Byte) : State :=
  ((((s.setBank bk image).chooseBank (some (bk, q))).inc Reg.NVS_STORES_COUNT []).notice bNVS 0 bk q 0)

theorem exec_lbStore_stores (ready : s.lbReady m 0x12 1 c i cmd) (mode : s.mode = .service) (free : s.journalBusy 1 = false)
    (sel : s.nvs.sel = some (bk, q)) (intact : b.err = false) (uncut : b.cut = none) (passes : imgOk (b.data.take c.len) = true)
    (sound : b.bad.contains (1 - bk) = false) : exec (.lbStore m c b) s = .next
      ((s.storedImage (1 - bk) ((q + 1) % 2 ^ 32) (imgMade (b.data.take c.len) ((q + 1) % 2 ^ 32) (s.regBytes 0x10020 12))).lbSettle i m
        cmd (completionBytes cmd 0 0 (leBytes 4 0))) := by
  simp only [exec, execLbStore, State.lbRun_ready ready, mode, free, sel, intact, uncut, passes, sound, ne_eq, not_true_eq_false,
    Bool.false_eq_true, Bool.true_eq_false, if_false, reduceCtorEq, State.selectBank]
  rfl

theorem exec_selectOther_selects (ready : s.lbReady m 0x12 3 c i cmd) (mode : s.mode = .service) (free : s.journalBusy 1 = false)
    (sel : s.nvs.sel = some (bk, q)) (uncut : b.cut = none) (passes : imgCrcOk (s.bank (1 - bk)) = true) :
    exec (.selectOther m c b) s = .next ((s.chooseBank (some (1 - bk, leAt (s.bank (1 - bk)) 0x10 4))).lbSettle i m cmd
      (completionBytes cmd 0 0 (leBytes 4 0))) := by
  simp only [exec, execSelectOther, State.lbRun_ready ready, mode, free, sel, uncut, passes, ne_eq, not_true_eq_false, Bool.false_eq_true,
    if_false, if_true, State.selectBank]
  rfl

theorem exec_erase_deselects (ready : s.lbReady m 0x12 4 c i cmd) (mode : s.mode = .service) (free : s.journalBusy 1 = false)
    (uncut : b.cut = none) :
    exec (.erase m c b) s = .next ((s.chooseBank none).lbSettle i m cmd (completionBytes cmd 0 0 (leBytes 4 0))) := by
  simp only [exec, execErase, State.lbRun_ready ready, mode, free, uncut, ne_eq, not_true_eq_false, Bool.false_eq_true, if_false,
    State.selectBank]
  rfl

theorem exec_nvsRead_reads {d : List Byte} (hd : d = (s.bank bk).take (min (s.bank bk).length (imgLen (s.bank bk))))
    (ready : s.lbReady m 0x12 2 c i cmd) (sel : s.nvs.sel = some (bk, q)) (intact : b.err = false) (fits : d.length ≤ c.len) :
    exec (.nvsRead m c b) s = .next ((s.emit (.hostWrite c.addr d)).lbSettle i m cmd (completionBytes cmd 0 d.length (leBytes 4 0))) := by
  subst hd
  simp only [exec, execNvsRead, State.lbRun_ready ready, sel, intact, Bool.false_eq_true, Nat.not_lt.mpr fits, or_self, if_false]
  rfl

/-- What a STORE leaves: the image in its bank, selected, and the other bank as it was. -/
theorem State.storedImage_nvs (s : State) (bk q : Nat) (image : List Byte) : (s.storedImage bk q image).nvs =
    { (s.setBank bk image).nvs with sel := some (bk, q), jseq := ((s.setBank bk image).nvs.jseq + 1) % 2 ^ 32 } := by
  rw [State.storedImage, State.notice_nvs, State.inc_nvs, State.chooseBank_nvs]

theorem State.bank_storedImage (s : State) (bk q a : Nat) (image : List Byte) :
    (s.storedImage bk q image).bank a = (s.setBank bk image).bank a :=
  State.bank_of_nvs (by rw [State.storedImage_nvs]) (by rw [State.storedImage_nvs]) a

theorem State.storedImage_counts (s : State) (bk q : Nat) (image : List Byte) : (s.storedImage bk q image).rd Reg.NVS_STORES_COUNT [] =
    (s.rd Reg.NVS_STORES_COUNT [] + 1) % 2 ^ Reg.NVS_STORES_COUNT.width := by
  rw [State.storedImage, State.rd_notice _ _ _ _ _ _ rfl rfl (by decide), State.rd_inc_same _ rfl rfl, State.rd_chooseBank_stores,
    State.rd_congr (s.setBank_regs bk image)]

/-! ### CLEAR and READ of the Logbook (R485, R486) -/

/-- The Logbook with no record, before the record of the CLEAR. -/
def State.clearedLog (s : State) : State :=
  { s with log := { s.log with recs := [], live := none, repd := false
                               clearEv := some (s.logEv bLOG 0x83 s.log.recs.length 0 0 0), wrapSeen := false } }

/-- What CLEAR shows. -/
def State.showCleared (s : State) : State :=
  ((s.wr Reg.LOG_COUNT_COUNT [] 0).setFlag Reg.LOG_STAT_WRAPPED [] false).noticeQuiet bLOG 4

theorem exec_logClear_clears (ready : s.lbReady m 0x13 2 c i cmd) (mode : s.mode = .service) :
    exec (.logClear m c b) s = .next (s.clearedLog.showCleared.lbSettle i m cmd (completionBytes cmd 0 0 [])) := by
  simp only [exec, execLogClear, State.lbRun_ready ready, mode, ne_eq, not_true_eq_false, if_false]
  rfl

theorem State.showCleared_log (s : State) : s.showCleared.log = s.log := by
  rw [State.showCleared, show _ = _ from (State.noticeQuiet_within _ bLOG 4).parts .log rfl, State.setFlag, State.wr_log, State.wr_log]

/-- COUNT and WRAPPED are 0. -/
theorem State.showCleared_zeroes (s : State) : s.showCleared.rd Reg.LOG_COUNT_COUNT [] = 0 ∧
    s.showCleared.flag Reg.LOG_STAT_WRAPPED [] = false := by
  refine ⟨?_, ?_⟩
  · rw [State.showCleared, (State.noticeQuiet_within _ bLOG 4).rd rfl rfl (by decide), State.setFlag, State.rd_wr_off _ _ (by decide),
      State.rd_wr_same _ _ rfl rfl]
    rfl
  · rw [State.showCleared, (State.noticeQuiet_within _ bLOG 4).flag rfl rfl (by decide), State.flag_setFlag_same _ _ rfl rfl rfl]

/-- The Logbook's other counters stand. -/
theorem State.rd_showCleared (s : State) {f : Fld} (fits : f.fits = true := by decide) (dims : f.dims = [] := by decide)
    (area : areaOf f.base = Area.log := by decide) (count : f.base ≠ 0x130008 := by decide) (stat : f.base ≠ 0x130000 := by decide) :
    s.showCleared.rd f [] = s.rd f [] := by
  have ok : idxOk f.dims [] = true := by rw [dims]; rfl
  have off : f.off [] = f.base := by rw [Fld.off, dims]; rfl
  rw [State.showCleared, (State.noticeQuiet_within _ bLOG 4).rd ok fits (by rw [area]; decide), State.setFlag,
    State.rd_wr_off _ _ (by rw [off]; exact stat), State.rd_wr_off _ _ (by rw [off]; exact count)]

theorem exec_logRead_reads {rs : List LogRec} (ready : s.lbReady m 0x13 1 c i cmd) (intact : b.err = false)
    (hrs : rs = (s.recRun (lbW c 0) (lbW c 1)).take (c.len / 64)) (held : (s.readRecs rs).2 ≠ []) :
    exec (.logRead m c b) s = .next (((s.readRecs rs).1.emit (.hostWrite c.addr (s.readRecs rs).2)).lbSettle i m cmd
      (completionBytes cmd 0 (s.readRecs rs).2.length (leBytes 4 rs.length))) := by
  subst hrs
  have bytes : (s.readRecs ((s.recRun (lbW c 0) (lbW c 1)).take (c.len / 64))).2.isEmpty = false := by simpa using held
  simp only [exec, execLogRead, State.lbRun_ready ready, intact, Bool.false_eq_true, if_false, bytes]
  rfl

theorem State.readRecs_within (s : State) (rs : List LogRec) : Within 0x1000000 s (s.readRecs rs).1 := State.readRecs_in rfl (.refl s)
end

/-- Settles O25: each command by what `lbRun` makes of the item that stands ready, then by the mode, the journal and the image. -/
theorem settingsAndLogbookCommands : Obligations.SettingsAndLogbookCommands := by
  refine ⟨fun m c b i cmd s => ⟨fun mode => ⟨fun ready => ?_, fun ready => ?_, fun ready => ?_⟩,
      fun mode => ⟨fun bk q ready free sel lt intact uncut passes sound => ?_, fun bk q ready free uncut sel passes => ?_,
        fun ready free uncut => ?_⟩, fun bk q ready sel intact fits => ?_⟩,
    fun m c b i cmd s => ⟨fun ready mode => ?_, fun ready mode => ?_, fun ready intact held => ?_⟩⟩
  · exact congrArg Host.Outcome.next (State.lbRun_outside ready mode _)
  · exact congrArg Host.Outcome.next (State.lbRun_outside ready mode _)
  · exact congrArg Host.Outcome.next (State.lbRun_outside ready mode _)
  · refine ⟨_, exec_lbStore_stores ready mode free sel intact uncut passes sound, ?_, ?_, ?_, ?_, ?_⟩
    · rw [State.lbSettle_nvs, State.storedImage_nvs]
    · exact (State.bank_storedImage ..).trans (State.bank_setBank_other lt _ _)
    · exact (State.bank_storedImage ..).trans (State.bank_setBank_same _ _)
    · exact State.storedImage_counts ..
    · exact State.notice_bit _ _ _ _ (by decide)
  · refine ⟨_, exec_selectOther_selects ready mode free sel uncut passes, ?_, ?_, ?_⟩ <;> rw [State.lbSettle_nvs, State.chooseBank_nvs]
  · refine ⟨_, exec_erase_deselects ready mode free uncut, ?_, ?_, ?_⟩ <;> rw [State.lbSettle_nvs, State.chooseBank_nvs]
  · exact ⟨_, exec_nvsRead_reads rfl ready sel intact fits, rfl, rfl⟩
  · obtain ⟨count, wrapped⟩ := s.clearedLog.showCleared_zeroes
    have log : s.clearedLog.showCleared.log = s.clearedLog.log := State.showCleared_log _
    refine ⟨_, exec_logClear_clears ready mode, (congrArg LogSt.recs log :), (congrArg LogSt.clearEv log :), count, wrapped,
      (congrArg LogSt.stage log :), (congrArg LogSt.gasp log :), ?_, ?_, ?_, ?_⟩
    · exact s.clearedLog.rd_showCleared (f := Reg.LOG_HEAD_SEQ)
    · exact s.clearedLog.rd_showCleared (f := Reg.LOG_LOST_COUNT)
    · exact s.clearedLog.rd_showCleared (f := Reg.LOG_OPSEC_SEC)
    · exact s.clearedLog.rd_showCleared (f := Reg.LOG_CYCLES_COUNT)
  · exact congrArg Host.Outcome.next (State.lbRun_outside ready mode _)
  · have draws := s.readRecs_within ((s.recRun (lbW c 0) (lbW c 1)).take (c.len / 64))
    refine ⟨_, exec_logRead_reads ready intact rfl held, draws.parts .log rfl, ?_⟩
    rw [State.lbSettle_out, State.emit_out_eq, show _ = _ from draws.parts .out rfl]

/-! ### Events of the backup domain and the seconds count (R492, R505) -/

@[simp] theorem State.notice_bkd (s : State) (b bit d0 d1 d2 : Nat) : (s.notice b bit d0 d1 d2).bkd = s.bkd :=
  s.notice_part b bit d0 d1 d2 .bkd (by decide) (by decide)

/-- What an event of the backup domain may add to the domain's state is an entry of the list for the next cold start. -/
theorem State.bkdNotice_bkd (s : State) (bit d0 d1 d2 : Nat) :
    ∃ due, (s.bkdNotice bit d0 d1 d2).bkd = { s.bkd with due := due } := by
  unfold State.bkdNotice
  split
  · exact ⟨s.bkd.due, s.notice_bkd ..⟩
  · exact ⟨_, rfl⟩

theorem State.word_bkdNotice (s : State) (bit d0 d1 d2 : Nat) {off : Nat} (area : areaOf off = Area.bkd) :
    (s.bkdNotice bit d0 d1 d2).word off = s.word off :=
  (State.bkdNotice_in (M := 0x410000100a00004) rfl (.refl s)).words off (by rw [area]; decide)

theorem State.bkdNotice_lit (lit : s.powered = true) (bit d0 d1 d2 : Nat) :
    s.bkdNotice bit d0 d1 d2 = s.notice bBKD bit d0 d1 d2 := if_pos lit

theorem State.putBkdSec_bkdSec (s : State) (v : Nat) (tick : Bool) : (s.putBkdSec v tick).bkdSec = v % 2 ^ 48 := by
  have words : (s.putBkdSec v tick).bkdSec = ((s.wr Reg.BKD_SEC_LO_SEC [] v).wr Reg.BKD_SEC_HI_SEC [] (v / 2 ^ 32)).bkdSec := by
    cases tick <;> rfl
  rw [words, State.bkdSec, State.rd_wr_off _ _ (by decide), State.rd_wr_same _ _ rfl rfl, State.rd_wr_same _ _ rfl rfl]
  show v % 2 ^ 32 + 2 ^ 32 * (v / 2 ^ 32 % 2 ^ 16) = v % 2 ^ 48
  omega

/-! ### The alarm (R498) -/

/-- The alarm is no longer armed and shows that it fired. -/
def State.showFired (s : State) (late : Bool) : State :=
  ((s.setFlag Reg.BKD_ALM_CTL_ARMED [] false).setFlag Reg.BKD_ALM_CTL_FIRED [] true).setFlag Reg.BKD_ALM_CTL_LATE [] late

theorem State.showFired_bkd (s : State) (late : Bool) : (s.showFired late).bkd = s.bkd := by simp [State.showFired, State.setFlag]

/-- With WAKE an alarm sets the ON latch. -/
def State.wakeByAlarm (s : State) : State :=
  if s.flag Reg.BKD_ALM_CTL_WAKE [] then (s.setFlag Reg.BKD_STAT_ON [] true).showPon else s

/-- The events of an alarm that fired. -/
def State.tellAlarm (s : State) (late : Bool) : State :=
  let s := s.bkdNotice 0 0 s.bkd.alarm 0
  if late then s.bkdNotice 1 0 s.bkd.alarm 0 else s

/-- An OFF write no longer waits. -/
def State.endOff (s : State) : State := { s with bkd := { s.bkd with offAt := none } }

theorem State.fireAlarm_eq (s : State) (late : Bool) : s.fireAlarm late = (s.showFired late).endOff.wakeByAlarm.tellAlarm late := rfl

theorem State.word_endOff (s : State) (off : Nat) : s.endOff.word off = s.word off := rfl

theorem State.wakeByAlarm_bkd (s : State) : s.wakeByAlarm.bkd = s.bkd := by
  unfold State.wakeByAlarm State.showPon State.setFlag
  split <;> simp

theorem State.word_wakeByAlarm (s : State) {off : Nat} (stat : off ≠ Reg.BKD_STAT_ON.off []) (pon : off ≠ Reg.BKD_PON_LEVEL.off []) :
    s.wakeByAlarm.word off = s.word off := by
  unfold State.wakeByAlarm State.showPon State.setFlag
  split
  · rw [State.word_wr_off _ _ pon, State.word_wr_off _ _ stat]
  · rfl

theorem State.tellAlarm_bkd (s : State) (late : Bool) : ∃ due, (s.tellAlarm late).bkd = { s.bkd with due := due } := by
  obtain ⟨due, fired⟩ := s.bkdNotice_bkd 0 0 s.bkd.alarm 0
  unfold State.tellAlarm
  dsimp only
  split
  · obtain ⟨due', told⟩ := (s.bkdNotice 0 0 s.bkd.alarm 0).bkdNotice_bkd 1 0 (s.bkdNotice 0 0 s.bkd.alarm 0).bkd.alarm 0
    exact ⟨due', by rw [told, fired]⟩
  · exact ⟨due, fired⟩

theorem State.word_tellAlarm (s : State) (late : Bool) {off : Nat} (area : areaOf off = Area.bkd) :
    (s.tellAlarm late).word off = s.word off := by
  unfold State.tellAlarm
  dsimp only
  split
  · rw [State.word_bkdNotice _ _ _ _ _ area, State.word_bkdNotice _ _ _ _ _ area]
  · exact State.word_bkdNotice _ _ _ _ _ area

/-- Beside BKD_STAT and BKD_PON a firing alarm writes of the backup domain only what shows that it fired. -/
theorem State.word_fireAlarm (s : State) (late : Bool) {off : Nat} (area : areaOf off = Area.bkd)
    (stat : off ≠ Reg.BKD_STAT_ON.off []) (pon : off ≠ Reg.BKD_PON_LEVEL.off []) :
    (s.fireAlarm late).word off = (s.showFired late).word off := by
  rw [State.fireAlarm_eq, State.word_tellAlarm _ _ area, State.word_wakeByAlarm _ stat pon, State.word_endOff]

theorem State.fireAlarm_bkd (s : State) (late : Bool) : ∃ due, (s.fireAlarm late).bkd = { s.bkd with offAt := none, due := due } := by
  obtain ⟨due, told⟩ := (s.showFired late).endOff.wakeByAlarm.tellAlarm_bkd late
  refine ⟨due, ?_⟩
  rw [State.fireAlarm_eq, told, State.wakeByAlarm_bkd, State.endOff, State.showFired_bkd]

/-- An alarm that fired is not armed, and shows whether it was late. -/
theorem State.fireAlarm_shows (s : State) (late : Bool) : (s.fireAlarm late).flag Reg.BKD_ALM_CTL_ARMED [] = false ∧
    (s.fireAlarm late).flag Reg.BKD_ALM_CTL_FIRED [] = true ∧ (s.fireAlarm late).flag Reg.BKD_ALM_CTL_LATE [] = late := by
  have same := s.word_fireAlarm late (off := 0x30048) (by decide) (by decide) (by decide)
  refine ⟨(State.flag_of_word same).trans ?_, (State.flag_of_word same).trans ?_, (State.flag_of_word same).trans ?_⟩
  · rw [State.showFired, State.flag_setFlag_bits _ rfl rfl (by decide), State.flag_setFlag_bits _ rfl rfl (by decide),
      State.flag_setFlag_same _ _ rfl rfl rfl]
  · rw [State.showFired, State.flag_setFlag_bits _ rfl rfl (by decide), State.flag_setFlag_same _ _ rfl rfl rfl]
  · exact State.flag_setFlag_same _ _ rfl rfl rfl

/-- From `s` to `t` the backup clock's count and the start of its second stand. -/
structure SameClock (s t : State) : Prop where
  sec : t.bkdSec = s.bkdSec
  tick : t.bkd.tickAt = s.bkd.tickAt

theorem State.bkdSec_of_words {s t : State} (lo : t.word (Reg.BKD_SEC_LO_SEC.off []) = s.word (Reg.BKD_SEC_LO_SEC.off []))
    (hi : t.word (Reg.BKD_SEC_HI_SEC.off []) = s.word (Reg.BKD_SEC_HI_SEC.off [])) : t.bkdSec = s.bkdSec := by
  unfold State.bkdSec
  rw [State.rd_of_word lo, State.rd_of_word hi]

theorem SameClock.refl (s : State) : SameClock s s := ⟨rfl, rfl⟩

theorem SameClock.trans {s t u : State} (h : SameClock s t) (k : SameClock t u) : SameClock s u :=
  ⟨k.sec.trans h.sec, k.tick.trans h.tick⟩

theorem SameClock.wr (s : State) {f : Fld} {idx : List Nat} (v : Nat) (lo : Reg.BKD_SEC_LO_SEC.off [] ≠ f.off idx)
    (hi : Reg.BKD_SEC_HI_SEC.off [] ≠ f.off idx) : SameClock s (s.wr f idx v) :=
  ⟨State.bkdSec_of_words (s.word_wr_off v lo) (s.word_wr_off v hi), congrArg BkdSt.tickAt (s.wr_bkd f idx v)⟩

theorem SameClock.bkdNotice (s : State) (bit d0 d1 d2 : Nat) : SameClock s (s.bkdNotice bit d0 d1 d2) := by
  obtain ⟨due, told⟩ := s.bkdNotice_bkd bit d0 d1 d2
  exact ⟨State.bkdSec_of_words (s.word_bkdNotice _ _ _ _ (by decide)) (s.word_bkdNotice _ _ _ _ (by decide)), by rw [told]⟩

theorem SameClock.fireAlarm (s : State) (late : Bool) : SameClock s (s.fireAlarm late) := by
  obtain ⟨due, fired⟩ := s.fireAlarm_bkd late
  have shown (off : Nat) (ne : off ≠ 0x30048) : (s.showFired late).word off = s.word off := by
    unfold State.showFired State.setFlag
    rw [State.word_wr_off _ _ ne, State.word_wr_off _ _ ne, State.word_wr_off _ _ ne]
  exact ⟨State.bkdSec_of_words ((s.word_fireAlarm late (by decide) (by decide) (by decide)).trans (shown _ (by decide)))
    ((s.word_fireAlarm late (by decide) (by decide) (by decide)).trans (shown _ (by decide))), by rw [fired]⟩

theorem SameClock.judgeAlarm (s : State) : SameClock s s.judgeAlarm := by
  unfold State.judgeAlarm
  split
  · split
    · exact .fireAlarm s false
    · split
      · exact .fireAlarm s true
      · exact .refl s
  · exact .refl s

/-! ### The clock (R492, R494) -/

theorem State.putBkdSec_tick (s : State) (v : Nat) : (s.putBkdSec v true).bkd.tickAt = s.now := by
  unfold State.putBkdSec
  simp

/-- A tick without a commit counts one second. -/
theorem State.countSecond_clock (s : State) : ((s.putBkdSec (s.bkdSec + 1) true).judgeAlarm).bkdSec = (s.bkdSec + 1) % 2 ^ 48 ∧
    ((s.putBkdSec (s.bkdSec + 1) true).judgeAlarm).bkd.tickAt = s.now := by
  have judged := SameClock.judgeAlarm (s.putBkdSec (s.bkdSec + 1) true)
  exact ⟨judged.sec.trans (s.putBkdSec_bkdSec _ _), judged.tick.trans (s.putBkdSec_tick _)⟩

/-- A commit's tick sets the clock to the staged value, and the commit is done. -/
theorem State.commitBkd_clock (s : State) : s.commitBkd.bkdSec = s.bkdSet % 2 ^ 48 ∧ s.commitBkd.rd Reg.BKD_SET_COMMIT_STATUS [] = 2 ∧
    s.commitBkd.bkd.tickAt = s.now := by
  have after : SameClock (s.putBkdSec s.bkdSet true) s.commitBkd :=
    (((SameClock.wr _ _ (by decide) (by decide)).trans (.judgeAlarm _)).trans (.wr _ 2 (by decide) (by decide))).trans
      (.bkdNotice _ 3 0 2 0)
  refine ⟨after.sec.trans (s.putBkdSec_bkdSec _ _), ?_, after.tick.trans (s.putBkdSec_tick _)⟩
  exact (State.rd_of_word (State.word_bkdNotice _ _ _ _ _ (by decide))).trans (State.rd_wr_same _ _ rfl rfl)

section
variable {w : Word} {t : Time}

theorem exec_bkdCommit (takes : s.takesWrite (Reg.BKD_SET_COMMIT_GO.off [])) : exec (.bkdCommit w) s = .next (s.bkdCommitWrite w) :=
  congrArg Host.Outcome.next (State.hostGate_takes takes _ _)

theorem State.bkdCommitWrite_refused (go : Reg.BKD_SET_COMMIT_GO.get w = 1) (idle : s.rd Reg.BKD_SET_COMMIT_STATUS [] ≠ 1)
    (locked : s.domLocked 0 = true ∨ s.domLocked 1 = true) : s.bkdCommitWrite w =
      ((s.logRefused (Reg.BKD_SET_COMMIT_GO.off []) w.toNat).wr Reg.BKD_SET_COMMIT_STATUS [] 3).bkdNotice 3 0 3 0 := by
  rw [State.bkdCommitWrite, if_neg (by simp [go, idle]), if_pos (Bool.or_eq_true_iff.mpr locked)]

theorem State.bkdCommitWrite_taken (go : Reg.BKD_SET_COMMIT_GO.get w = 1) (idle : s.rd Reg.BKD_SET_COMMIT_STATUS [] ≠ 1)
    (first : s.domLocked 0 = false) (second : s.domLocked 1 = false) :
    s.bkdCommitWrite w = s.wr Reg.BKD_SET_COMMIT_STATUS [] 1 := by
  rw [State.bkdCommitWrite, if_neg (by simp [go, idle]), if_neg (by simp [first, second])]

theorem exec_bkdSecondTick_commits (pending : s.rd Reg.BKD_SET_COMMIT_STATUS [] = 1) :
    exec (.bkdSecondTick t) s = .next (s.advance t).commitBkd := congrArg Host.Outcome.next (if_pos pending)

theorem exec_bkdSecondTick_counts (idle : s.rd Reg.BKD_SET_COMMIT_STATUS [] ≠ 1) : exec (.bkdSecondTick t) s =
    .next (((s.advance t).putBkdSec ((s.advance t).bkdSec + 1) true).judgeAlarm) := congrArg Host.Outcome.next (if_neg idle)

theorem exec_bkdCommitApply_commits (pending : s.rd Reg.BKD_SET_COMMIT_STATUS [] = 1) :
    exec (.bkdCommitApply t) s = .next (s.advance t).commitBkd := congrArg Host.Outcome.next (if_pos pending)

theorem exec_bkdCommitApply_idle (idle : s.rd Reg.BKD_SET_COMMIT_STATUS [] ≠ 1) :
    exec (.bkdCommitApply t) s = .next (s.advance t) := congrArg Host.Outcome.next (if_neg idle)
end

/-- Settles O51: a write of GO by what it stages or refuses, a tick by whether a commit is pending. -/
theorem backupClock : Obligations.BackupClock := by
  refine ⟨fun w s takes => ⟨fun ignored => ?_, fun go idle locked => ?_, fun go idle first second => ?_⟩, fun t s pending => ?_,
    fun t s idle => ⟨?_, exec_bkdCommitApply_idle idle⟩⟩
  · rw [exec_bkdCommit takes, State.bkdCommitWrite, if_pos ignored]
  · rw [exec_bkdCommit takes, State.bkdCommitWrite_refused go idle locked]
  · rw [exec_bkdCommit takes, State.bkdCommitWrite_taken go idle first second]
  · obtain ⟨sec, status, tick⟩ := (s.advance t).commitBkd_clock
    exact ⟨_, exec_bkdSecondTick_commits pending, exec_bkdCommitApply_commits pending, sec, status, tick⟩
  · obtain ⟨sec, tick⟩ := (s.advance t).countSecond_clock
    exact ⟨_, exec_bkdSecondTick_counts idle, sec, tick⟩

section
variable {w : Word} {t r : Time}

/-! ### Writes of the alarm's control word (R498, R504) -/

/-- In a word without RWL fields no write is refused. -/
theorem State.store_unlocked {off : Nat} (plain : ∀ f ∈ fieldsAt off, (f.acc == .rwl) = false) (s : State) (w : Word) :
    s.store off w = s.setWord off (storedWord off s.rwlOpen (s.word off) w) := by
  have no : s.rwlRefused off w = false := by simp [State.rwlRefused, rwlMask, accMask_eq_zero (p := (· == .rwl)) plain]
  simp [State.store, no]

/-- The written word is stored, and DISARM ends an armed alarm. -/
def State.almStored (s : State) (w : Word) : State :=
  let s := s.store (Reg.BKD_ALM_CTL_ARM.off []) (w &&& 0x7FFFFFFD#32)
  if w.getLsbD 1 then s.setFlag Reg.BKD_ALM_CTL_ARMED [] false else s

/-- ARM takes the alarm time. -/
def State.armAlarm (s : State) : State :=
  ({ s with bkd := { s.bkd with alarm := s.bkdAlm } } : State).setFlag Reg.BKD_ALM_CTL_ARMED [] true

theorem State.almCtl_arms (arm : w.getLsbD 31 = true) : s.almCtl w =
    if (s.almStored w).armAlarm.bkd.alarm ≤ (s.almStored w).armAlarm.bkdSec then (s.almStored w).armAlarm.fireAlarm true
    else (s.almStored w).armAlarm := if_pos arm

theorem State.almCtl_disarms (arm : w.getLsbD 31 = false) : s.almCtl w = s.almStored w := if_neg (by rw [arm]; decide)

theorem fieldsAt_almCtl : ∀ f ∈ fieldsAt (Reg.BKD_ALM_CTL_ARM.off []), (f.acc == .rwl) = false := by decide

/-- Of the words only BKD_ALM_CTL, at 0x30048, may change. -/
theorem State.word_almStored (s : State) (w : Word) {off : Nat} (ne : off ≠ 0x30048) : (s.almStored w).word off = s.word off := by
  have stored : (s.store (Reg.BKD_ALM_CTL_ARM.off []) (w &&& 0x7FFFFFFD#32)).word off = s.word off := by
    rw [State.store_unlocked fieldsAt_almCtl]
    exact State.word_setWord_ne _ _ ne
  unfold State.almStored State.setFlag
  dsimp only
  split
  · rw [State.word_wr_off _ _ ne, stored]
  · exact stored

theorem State.almStored_bkd (s : State) (w : Word) : (s.almStored w).bkd = s.bkd := by
  unfold State.almStored State.setFlag
  dsimp only
  rw [State.store_unlocked fieldsAt_almCtl]
  split
  · rw [State.wr_bkd, State.setWord_bkd]
  · exact State.setWord_bkd ..

theorem State.bkdAlm_of_words {s t : State} (lo : t.word (Reg.BKD_ALM_SEC_LO_SEC.off []) = s.word (Reg.BKD_ALM_SEC_LO_SEC.off []))
    (hi : t.word (Reg.BKD_ALM_SEC_HI_SEC.off []) = s.word (Reg.BKD_ALM_SEC_HI_SEC.off [])) :
    t.bkdAlm = s.bkdAlm := by
  unfold State.bkdAlm
  rw [State.rd_of_word lo, State.rd_of_word hi]

theorem State.bkdAlm_almStored (s : State) (w : Word) : (s.almStored w).bkdAlm = s.bkdAlm :=
  State.bkdAlm_of_words (s.word_almStored w (by decide)) (s.word_almStored w (by decide))

theorem State.bkdSec_almStored (s : State) (w : Word) : (s.almStored w).bkdSec = s.bkdSec :=
  State.bkdSec_of_words (s.word_almStored w (by decide)) (s.word_almStored w (by decide))

theorem State.armAlarm_alarm (s : State) : s.armAlarm.bkd.alarm = s.bkdAlm := by simp [State.armAlarm, State.setFlag]

theorem State.bkdSec_armAlarm (s : State) : s.armAlarm.bkdSec = s.bkdSec := (SameClock.wr _ 1 (by decide) (by decide)).sec

theorem State.almStored_disarms (disarm : w.getLsbD 1 = true) : (s.almStored w).flag Reg.BKD_ALM_CTL_ARMED [] = false := by
  unfold State.almStored
  dsimp only
  rw [if_pos disarm, State.flag_setFlag_same _ _ rfl rfl rfl]

theorem exec_alarmArm (takes : s.takesWrite (Reg.BKD_ALM_CTL_ARM.off [])) : exec (.alarmArm w) s = .next (s.almCtl w) :=
  congrArg Host.Outcome.next (State.hostGate_takes takes _ _)

theorem exec_alarmDisarm (takes : s.takesWrite (Reg.BKD_ALM_CTL_DISARM.off [])) : exec (.alarmDisarm w) s = .next (s.almCtl w) :=
  congrArg Host.Outcome.next (State.hostGate_takes takes _ _)

/-- An alarm for a time to come is armed with it. -/
theorem State.almCtl_ahead (arm : w.getLsbD 31 = true) (ahead : s.bkdSec < s.bkdAlm) :
    (s.almCtl w).flag Reg.BKD_ALM_CTL_ARMED [] = true ∧ (s.almCtl w).bkd.alarm = s.bkdAlm := by
  have alarm := (s.almStored w).armAlarm_alarm.trans (s.bkdAlm_almStored w)
  have clock := (s.almStored w).bkdSec_armAlarm.trans (s.bkdSec_almStored w)
  rw [State.almCtl_arms arm, if_neg (by rw [alarm, clock]; exact Nat.not_le.mpr ahead)]
  exact ⟨State.flag_setFlag_same _ _ rfl rfl rfl, alarm⟩

/-- An alarm for a time that is over fires at once, late. -/
theorem State.almCtl_over (arm : w.getLsbD 31 = true) (past : s.bkdAlm ≤ s.bkdSec) :
    s.almCtl w = (s.almStored w).armAlarm.fireAlarm true := by
  rw [State.almCtl_arms arm, if_pos]
  rw [State.armAlarm_alarm, State.bkdAlm_almStored, State.bkdSec_armAlarm, State.bkdSec_almStored]
  exact past

/-! ### PON (R499) -/

theorem exec_ponOff (takes : s.takesWrite (Reg.BKD_PON_OFF.off [])) : exec (.ponOff w) s = .next (s.ponOffWrite w) :=
  congrArg Host.Outcome.next (State.hostGate_takes takes _ _)

/-- The 10 ms of an OFF write begin. -/
def State.startOff (s : State) : State := { s with bkd := { s.bkd with offAt := some s.now } }

theorem State.ponOffWrite_taken (off : w.getLsbD 8 = true) (key : w.toNat % 256 = 0xA5) : s.ponOffWrite w =
    (s.store (Reg.BKD_PON_OFF.off []) (w &&& 0xFFFFFE00#32)).showPon.startOff.bkdNotice 5 0 0 0 := if_neg (by simp [off, key])

/-- OFF with its key waits from now on. -/
theorem State.ponOffWrite_waits (off : w.getLsbD 8 = true) (key : w.toNat % 256 = 0xA5) :
    (s.ponOffWrite w).bkd.offAt = some s.now := by
  have stored : Within 0x411001100800004 s ((s.store (Reg.BKD_PON_OFF.off []) (w &&& 0xFFFFFE00#32)).showPon) :=
    State.showPon_in rfl (State.store_in rfl rfl (.refl s))
  obtain ⟨due, told⟩ := (s.store (Reg.BKD_PON_OFF.off []) (w &&& 0xFFFFFE00#32)).showPon.startOff.bkdNotice_bkd 5 0 0 0
  rw [State.ponOffWrite_taken off key, told]
  exact congrArg some (stored.parts .now rfl)

theorem exec_ponOffApply_early (waits : s.bkd.offAt = some r) (early : max s.now t < r + 10 * msU) :
    exec (.ponOffApply t) s = .next (s.advance t) := by
  simp only [exec, execPonOffApply, State.advance_bkd, State.advance_now_eq, waits, early, if_true]

theorem exec_ponOffApply_idle (idle : s.bkd.offAt = none) : exec (.ponOffApply t) s = .next (s.advance t) := by
  simp only [exec, execPonOffApply, State.advance_bkd, idle]

theorem exec_ponOffApply_due (waits : s.bkd.offAt = some r) (due : r + 10 * msU ≤ max s.now t) : exec (.ponOffApply t) s =
    .next (((s.advance t).endOff.setFlag Reg.BKD_STAT_ON [] false).showPon) := by
  simp only [exec, execPonOffApply, State.advance_bkd, State.advance_now_eq, waits, Nat.not_lt.mpr due, if_false]
  rfl

/-- The ON latch off, PON is high with AUTO alone. -/
theorem State.unlatchOn_shows (s : State) : (s.setFlag Reg.BKD_STAT_ON [] false).showPon.flag Reg.BKD_STAT_ON [] = false ∧
    (s.setFlag Reg.BKD_STAT_ON [] false).showPon.flag Reg.BKD_PON_LEVEL [] = s.flag Reg.BKD_PON_AUTO [] := by
  have latch : (s.setFlag Reg.BKD_STAT_ON [] false).flag Reg.BKD_STAT_ON [] = false := State.flag_setFlag_same _ _ rfl rfl rfl
  refine ⟨?_, ?_⟩
  · rw [State.showPon, State.flag_setFlag_bits _ rfl rfl (by decide), latch]
  · rw [State.showPon, State.flag_setFlag_same _ _ rfl rfl rfl, latch, Bool.or_false, State.flag_setFlag_bits _ rfl rfl (by decide)]

/-! ### Oscillator and supply (R491, R495) -/

theorem exec_oscStop_first (clean : s.flag Reg.BKD_STAT_OSF [] = false) (lit : s.powered = true) :
    exec (.oscStop t) s = .next (((s.advance t).setFlag Reg.BKD_STAT_OSF [] true).notice bBKD 2 0 0 0) := by
  simp only [exec, execOscStop, State.flag_advance, clean, Bool.false_eq_true, if_false, State.setFlag_powered, State.advance_powered,
    lit, if_true]

theorem exec_oscStop_again (stopped : s.flag Reg.BKD_STAT_OSF [] = true) : exec (.oscStop t) s = .next (s.advance t) :=
  congrArg Host.Outcome.next (if_pos stopped)

theorem exec_backupDomainPowered_dark (dark : s.powered = false) : exec (.backupDomainPowered t) s =
    .next { (s.advance t).resetKinds (· == .b) with bkd := { BkdSt.reset with tickAt := max s.now t } } :=
  congrArg Host.Outcome.next (if_neg (by simp [dark]))

theorem exec_vbatLowChange_begins (high : s.flag Reg.BKD_STAT_VBAT_LOW [] = false) (lit : s.powered = true) :
    exec (.vbatLowChange true) s = .next ((s.setFlag Reg.BKD_STAT_VBAT_LOW [] true).notice bBKD 4 0 1 0) := by
  simp only [exec, execVbatLowChange, high, Bool.not_false, Bool.and_self, if_true, State.bkdNotice_lit, State.setFlag_powered, lit]
end

/-- Settles O52: each write by what the control word's stored bits start, each row in time by the condition it tests. -/
theorem backupAlarmAndDomain : Obligations.BackupAlarmAndDomain := by
  refine ⟨⟨fun w s takes arm => ⟨fun ahead => ?_, fun past => ?_⟩, fun w s takes disarm noArm => ?_,
      fun w s takes => ⟨fun off key => ?_, fun ignored => ?_⟩,
      fun t r s waits => ⟨exec_ponOffApply_early waits, fun due => ?_⟩, fun t s idle => exec_ponOffApply_idle idle⟩,
    fun t s clean lit => ?_, fun t s stopped => exec_oscStop_again stopped, fun t s dark => ?_,
    fun temp s native => congrArg Host.Outcome.next (if_pos native), fun s trim => congrArg Host.Outcome.next (if_pos trim),
    fun s high lit => ?_, fun s => rfl⟩
  · exact ⟨_, exec_alarmArm takes, State.almCtl_ahead arm ahead⟩
  · refine ⟨_, exec_alarmArm takes, ?_⟩
    rw [State.almCtl_over arm past]
    exact State.fireAlarm_shows _ true
  · refine ⟨_, exec_alarmDisarm takes, ?_⟩
    rw [State.almCtl_disarms noArm]
    exact ⟨State.almStored_disarms disarm, State.almStored_bkd ..⟩
  · exact ⟨_, exec_ponOff takes, State.ponOffWrite_waits off key⟩
  · rw [exec_ponOff takes, State.ponOffWrite, if_pos ignored]
  · obtain ⟨latch, level⟩ := (s.advance t).endOff.unlatchOn_shows
    refine ⟨_, exec_ponOffApply_due waits due, latch, ?_, level⟩
    simp [State.showPon, State.setFlag, State.endOff]
  · refine ⟨_, exec_oscStop_first clean lit, ?_, State.notice_bit _ _ _ _ (by decide)⟩
    rw [State.flag_notice _ _ _ _ _ _ rfl rfl (by decide), State.flag_setFlag_same _ _ rfl rfl rfl]
  · refine ⟨_, exec_backupDomainPowered_dark dark, rfl, ?_⟩
    exact congrArg (· != 0) (State.rd_resetKinds (f := Reg.BKD_STAT_OSF) (idx := []) (by decide) rfl)
  · refine ⟨_, exec_vbatLowChange_begins high lit, ?_, State.notice_bit _ _ _ _ (by decide)⟩
    rw [State.flag_notice _ _ _ _ _ _ rfl rfl (by decide), State.flag_setFlag_same _ _ rfl rfl rfl]

end Sys2Proof.Machine
end

section
/-! PROOFS of the family 14_startup_manifest: warm starts, the timers and failures of a start, its steps, and the flash. -/
namespace Sys2Proof.Machine

variable {s : State} {t : Time} {w : Word}

/-! ### What a start shows of its trigger (R506, R520) -/

/-- PHASE stands, and KIND, SRC and FULL are the start's. -/
theorem State.showStart_shows (s : State) {kind src : Nat} (hk : kind < 4) (hs : src < 8) (full : Bool) :
    (s.showStart kind src full).rd Reg.STRT_STAT_PHASE [] = s.rd Reg.STRT_STAT_PHASE [] ∧
    (s.showStart kind src full).rd Reg.STRT_STAT_KIND [] = kind ∧ (s.showStart kind src full).rd Reg.STRT_STAT_SRC [] = src ∧
    (s.showStart kind src full).flag Reg.STRT_STAT_FULL [] = full := by
  unfold State.showStart
  refine ⟨?_, ?_, ?_, State.flag_setFlag_same _ _ rfl rfl rfl⟩
  · rw [State.rd_setFlag_bits _ rfl rfl (by decide), State.rd_wr_bits _ _ rfl rfl (by decide), State.rd_wr_bits _ _ rfl rfl (by decide)]
  · rw [State.rd_setFlag_bits _ rfl rfl (by decide), State.rd_wr_bits _ _ rfl rfl (by decide), State.rd_wr_same _ _ rfl rfl]
    exact Nat.mod_eq_of_lt hk
  · rw [State.rd_setFlag_bits _ rfl rfl (by decide), State.rd_wr_same _ _ rfl rfl]
    exact Nat.mod_eq_of_lt hs

/-! ### A warm start (R506, R507) -/

/-- A register of kind W outside HIF, ALM, the compression engine and LOG holds its reset value. -/
theorem State.warmRegs_reset {f : Fld} {idx : List Nat} (ok : idxOk f.dims idx = true) (fits : f.fits = true)
    (out : (0x31900001000000 : Nat).testBit (32 + areaOf f.base) = false) (stands : f.standsIn (f.off idx) = true)
    (kind : (f.kind == .w) = true) : s.warmRegs.rd f idx = f.reset := by
  have kept : Within 0x31900001000000 (s.resetKinds (· == .w)) s.warmRegs :=
    State.staged_in rfl (State.showOe_in rfl (State.wr_in rfl (State.wr_in rfl (.refl _))))
  rw [kept.rd ok fits out, State.rd_resetKinds stands kind]

/-- What a warm start shows is written over reset registers; only time, its parts and the start's own state change after that. -/
theorem State.warmBegin_writes {src : Nat} {full : Bool} (lit : s.mode ≠ .backup) (loaded : s.mode ≠ .loading) : ∃ x : State,
    Within 0x410000900a01106 ((x.warmRegs.showStart 2 (if s.mode = .service then 5 else src) full).wr Reg.GLB_MODE_PREV [] s.mode.code)
      (s.warmBegin src full) := by
  unfold State.warmBegin
  rw [if_neg lit, if_neg loaded]
  extract_lets old unc counted metered cleared shown uncounted timed
  exact ⟨metered.flashAbandon.warmClear.startClear, .set_strt (State.warmTime_in rfl (.set_strt (.refl _) rfl)) rfl⟩

theorem State.powered_of_mode (lit : s.mode ≠ .backup) : s.powered = true := by
  by_contra dark
  exact lit (State.mode_of_unpowered (by simpa using dark))

/-- A warm trigger outside BACKUP and LOADING begins a warm start. -/
theorem State.warmBegin_starts {src : Nat} (hs : src < 8) (full : Bool) (lit : s.mode ≠ .backup) (loaded : s.mode ≠ .loading) :
    (s.warmBegin src full).startedWarm s.mode src full ∧ (s.warmBegin src full).pending = s.pending := by
  obtain ⟨x, rest⟩ := s.warmBegin_writes (src := src) (full := full) lit loaded
  have whole : Within 0x3fffffffffff01fffffe s (s.warmBegin src full) := State.warmBegin_in rfl (.refl s)
  have shownSrc : (if s.mode = .service then 5 else src) < 8 := by split <;> omega
  have code : s.mode.code < 8 := by cases s.mode <;> decide
  obtain ⟨phase, kind, source, asked⟩ := x.warmRegs.showStart_shows (kind := 2) (by decide) shownSrc full
  have strt {f : Fld} (word : f.off [] = 0x10000) (fits : f.fits = true) (dims : idxOk f.dims [] = true)
      (area : areaOf f.base = Area.strt) : (s.warmBegin src full).rd f [] =
        (x.warmRegs.showStart 2 (if s.mode = .service then 5 else src) full).rd f [] := by
    rw [rest.rd dims fits (by rw [area]; decide), State.rd_wr_off _ _ (by rw [word]; decide)]
  have cur : (s.warmBegin src full).rd Reg.GLB_MODE_CUR [] = 1 := by
    rw [rest.rd rfl rfl (by decide), State.rd_wr_bits _ _ rfl rfl (by decide),
      (State.showStart_in (M := 0x400000000) rfl (.refl x.warmRegs)).rd rfl rfl (by decide)]
    exact State.warmRegs_reset rfl rfl (by decide) (by decide) rfl
  refine ⟨⟨?_, ?_, ?_, ?_, ?_, ?_⟩, whole.parts .queue rfl⟩
  · unfold State.mode
    rw [show (s.warmBegin src full).powered = s.powered from whole.parts .power rfl, State.powered_of_mode lit, cur]
    rfl
  · rw [strt rfl rfl rfl (by decide), phase]
    exact State.warmRegs_reset rfl rfl (by decide) (by decide) rfl
  · rw [strt rfl rfl rfl (by decide), kind]
  · rw [strt rfl rfl rfl (by decide), source]
  · rw [State.flag, strt rfl rfl rfl (by decide)]
    exact asked
  · rw [rest.rd rfl rfl (by decide), State.rd_wr_same _ _ rfl rfl]
    exact Nat.mod_eq_of_lt code

/-! ### The triggers of a warm start and the keys of their registers (R506, R528, R534) -/

/-- STRT answers in every powered mode. -/
theorem State.responds_strt (lit : s.powered = true) {off : Nat} (strt : off / 0x10000 = 1) : s.responds off = true := by
  simp [State.responds, lit, strt]

theorem State.ctlWrite_begins (lit : s.powered = true) (warm : Reg.STRT_CTL_WARM.get w = 1) (key : Reg.STRT_CTL_KEY.get w = 0x57A7) :
    s.ctlWrite w = s.warmBegin 3 (Reg.STRT_CTL_FULL.get w == 1) := if_pos ⟨State.responds_strt lit rfl, warm, key⟩

theorem State.ctlWrite_ignored (h : Reg.STRT_CTL_WARM.get w ≠ 1 ∨ Reg.STRT_CTL_KEY.get w ≠ 0x57A7) : s.ctlWrite w = s :=
  if_neg fun ⟨_, warm, key⟩ => h.elim (· warm) (· key)

theorem State.kickWrite_restarts (lit : s.powered = true) (key : Reg.STRT_KICK_KEY.get w = 0xC35A) :
    s.kickWrite w = { s with strt := { s.strt with kick := s.now } } := if_pos ⟨State.responds_strt lit rfl, key⟩

theorem State.kickWrite_ignored (key : Reg.STRT_KICK_KEY.get w ≠ 0xC35A) : s.kickWrite w = s := if_neg fun ⟨_, held⟩ => key held

/-- Both rows of STRT_CTL are the one write. -/
theorem exec_strtCtl {u : State} (write : s.ctlWrite w = u) : exec (.warmStart w) s = .next u ∧ exec (.warmStartFull w) s = .next u :=
  write ▸ ⟨rfl, rfl⟩

/-- A watchdog that expires outside BACKUP and LOADING counts its failure, begins a warm start, and has its notices waiting. -/
theorem State.watchdogStart_starts (sub : Nat) (lit : s.mode ≠ .backup) (loaded : s.mode ≠ .loading) :
    (s.watchdogStart sub).startedWarm s.mode 4 false ∧ (4, 0, sub, 0) ∈ (s.watchdogStart sub).strt.due ∧
      (1, 0, 5, sub) ∈ (s.watchdogStart sub).strt.due := by
  have mode : (s.countFail 5 sub).mode = s.mode := (State.countFail_in (M := 0x400001000) rfl (.refl s)).mode rfl rfl
  obtain ⟨begun, -⟩ := State.warmBegin_starts (s := s.countFail 5 sub) (src := 4) (by decide) false (mode ▸ lit) (mode ▸ loaded)
  exact ⟨mode ▸ begun, List.mem_append_right _ (.head _), List.mem_append_right _ (.tail _ (.head _))⟩

theorem State.mode_of_processing (on : s.processing = true) : s.mode ≠ .backup ∧ s.mode ≠ .loading := by
  constructor <;> intro h <;> simp [State.processing, h] at on

theorem Mode.running_of_steady {m : Mode} (h : m.steady = true) : m ≠ .backup ∧ m ≠ .loading := by
  constructor <;> rintro rfl <;> cases h

theorem exec_watchdogStall_expired (on : s.processing = true) (enabled : s.flag Reg.STRT_WDOG_STALL_EN [] = true)
    (passed : s.strt.stall + clampN 10 10000 (s.rd Reg.STRT_WDOG_STALL_MS []) * msU ≤ max s.now t) :
    exec (.watchdogStall t) s = .next ((s.advance t).watchdogStart 1) := congrArg Host.Outcome.next (if_pos ⟨on, enabled, passed⟩)

theorem exec_watchdogHost_expired (on : s.mode.steady = true) (enabled : s.flag Reg.STRT_WDOG_HOST_EN [] = true)
    (passed : s.strt.kick + clampN 100 60000 (s.rd Reg.STRT_WDOG_HOST_MS []) * msU ≤ max s.now t) :
    exec (.watchdogHost t) s = .next ((s.advance t).watchdogStart 2) := congrArg Host.Outcome.next (if_pos ⟨on, enabled, passed⟩)

/-- Settles O13: the pin and STRT_CTL begin a warm start as it stands, a watchdog after it has counted its failure. -/
theorem warmStartEntersLoading : Obligations.WarmStartEntersLoading := by
  refine ⟨fun t lowNs s held lit loaded => ?_, fun w s lit loaded warm key => ?_, fun t s on enabled passed => ?_,
    fun t s on enabled passed => ?_⟩
  · obtain ⟨begun, queue⟩ := State.warmBegin_starts (s := s.advance t) (src := 2) (by decide) false lit loaded
    exact ⟨_, congrArg Host.Outcome.next (if_pos held), begun, queue⟩
  · obtain ⟨begun, queue⟩ := State.warmBegin_starts (src := 3) (by decide) (Reg.STRT_CTL_FULL.get w == 1) lit loaded
    obtain ⟨asked, askedFull⟩ := exec_strtCtl (State.ctlWrite_begins (State.powered_of_mode lit) warm key)
    exact ⟨_, asked, askedFull, begun, queue⟩
  · obtain ⟨lit, loaded⟩ := State.mode_of_processing on
    exact ⟨_, exec_watchdogStall_expired on enabled passed, State.watchdogStart_starts 1 lit loaded⟩
  · obtain ⟨lit, loaded⟩ := Mode.running_of_steady on
    exact ⟨_, exec_watchdogHost_expired on enabled passed, State.watchdogStart_starts 2 lit loaded⟩

/-! ### Failed starts below the lockout (R524, R525) -/

/-- A failure that is counted shows in STRT_FAIL alone. -/
theorem State.countFail_shows (s : State) {code sub : Nat} (hc : code < 256) (hs : sub < 256) :
    (s.countFail code sub).rd Reg.STRT_FAIL_CODE [] = code ∧ (s.countFail code sub).rd Reg.STRT_FAIL_SUB [] = sub ∧
    (s.countFail code sub).rd Reg.STRT_FAIL_ATTEMPTS [] = min (s.rd Reg.STRT_FAIL_ATTEMPTS [] + 1) 15 ∧
    (s.countFail code sub).rd Reg.STRT_FAIL_LOCKOUT [] = s.rd Reg.STRT_FAIL_LOCKOUT [] := by
  have saved (f : Fld) : (s.countFail code sub).rd f [] = (((s.wr Reg.STRT_FAIL_CODE [] code).wr Reg.STRT_FAIL_SUB [] sub).wr
      Reg.STRT_FAIL_ATTEMPTS [] (min (s.rd Reg.STRT_FAIL_ATTEMPTS [] + 1) 15)).rd f [] := by
    rw [← State.rd_wr_bits s (f := Reg.STRT_FAIL_CODE) (g := Reg.STRT_FAIL_ATTEMPTS) (idx := []) code rfl rfl (by decide),
      ← State.rd_wr_bits (s.wr _ _ _) (f := Reg.STRT_FAIL_SUB) (g := Reg.STRT_FAIL_ATTEMPTS) (idx := []) sub rfl rfl (by decide)]
    exact State.rd_congr (State.saveRec_regs _) f []
  refine ⟨?_, ?_, ?_, ?_⟩
  · rw [saved, State.rd_wr_bits _ _ rfl rfl (by decide), State.rd_wr_bits _ _ rfl rfl (by decide), State.rd_wr_same _ _ rfl rfl]
    exact Nat.mod_eq_of_lt hc
  · rw [saved, State.rd_wr_bits _ _ rfl rfl (by decide), State.rd_wr_same _ _ rfl rfl]
    exact Nat.mod_eq_of_lt hs
  · rw [saved, State.rd_wr_same _ _ rfl rfl]
    exact Nat.mod_eq_of_lt (Nat.lt_succ_of_le (Nat.min_le_right _ _))
  · rw [saved, State.rd_wr_bits _ _ rfl rfl (by decide), State.rd_wr_bits _ _ rfl rfl (by decide),
      State.rd_wr_bits _ _ rfl rfl (by decide)]

/-- A start has failed with attempts left: what STRT_FAIL shows, and the retry that is due. -/
structure State.failedOnce (s u : State) (code sub : Nat) : Prop where
  code : u.rd Reg.STRT_FAIL_CODE [] = code
  sub : u.rd Reg.STRT_FAIL_SUB [] = sub
  attempts : u.rd Reg.STRT_FAIL_ATTEMPTS [] = s.rd Reg.STRT_FAIL_ATTEMPTS [] + 1
  mode : u.mode = s.mode
  retry : u.strt.retryAt = some (s.now + 100 * msU * (s.rd Reg.STRT_FAIL_ATTEMPTS [] + 1))

/-- The failure is counted and noticed, and below LOCKOUT that is all but the retry. -/
theorem State.startFail_retries {code sub : Nat} (hc : code < 256) (hs : sub < 256)
    (again : s.rd Reg.STRT_FAIL_ATTEMPTS [] + 1 < s.rd Reg.STRT_FAIL_LOCKOUT []) : s.failedOnce (s.startFail code sub) code sub := by
  obtain ⟨codeShown, subShown, counted, lockout⟩ := s.countFail_shows hc hs
  have small : s.rd Reg.STRT_FAIL_LOCKOUT [] < 16 := s.rd_lt _ _
  rw [Nat.min_eq_left (by omega)] at counted
  generalize noticing : (s.countFail code sub).strtNotice 1 0 code sub = x
  have told : Within 0x410000100801004 (s.countFail code sub) x := noticing ▸ State.strtNotice_in rfl (.refl _)
  have rest : Within 0x410000500801004 s x := (State.countFail_in rfl (.refl s)).trans (told.mono rfl)
  have attempts : x.rd Reg.STRT_FAIL_ATTEMPTS [] = s.rd Reg.STRT_FAIL_ATTEMPTS [] + 1 := (told.rd rfl rfl (by decide)).trans counted
  have unlocked : x.locked = false := by
    rw [State.locked, attempts, told.rd rfl rfl (by decide), lockout]
    exact decide_eq_false (Nat.not_le.mpr again)
  have failed : s.startFail code sub =
      { x with strt := { x.strt with retryAt := some (x.now + 100 * msU * x.rd Reg.STRT_FAIL_ATTEMPTS []) } } := by
    unfold State.startFail
    rw [noticing]
    exact if_neg (by rw [unlocked]; decide)
  rw [failed]
  refine ⟨(told.rd rfl rfl (by decide)).trans codeShown, (told.rd rfl rfl (by decide)).trans subShown, attempts, rest.mode rfl rfl, ?_⟩
  rw [attempts, show x.now = s.now from rest.parts .now rfl]

/-! ### The timers of a start (R521, R524, R525) -/

theorem State.startOver_advance (d : Time) : (s.advance t).startOver d = true ↔
    s.mode = .loading ∧ s.strt.retryAt = none ∧ s.strt.lockDue = false ∧ s.strt.began + d ≤ max s.now t := by
  simp [State.startOver, and_assoc]

theorem State.startOver_early {d : Time} (h : s.mode ≠ .loading ∨ max s.now t < s.strt.began + d) :
    ¬ (s.advance t).startOver d = true := by
  rw [State.startOver_advance]
  rintro ⟨loading, -, -, passed⟩
  exact h.elim (· loading) fun early => Nat.not_le.mpr early passed

theorem exec_startTimer_over (passed : (s.advance t).startOver s.startLimit = true) :
    exec (.startTimer t) s = .next ((s.advance t).startFail 3 (s.rd Reg.STRT_STAT_PHASE [])) := congrArg Host.Outcome.next (if_pos passed)

theorem exec_startTimer_early (early : ¬ (s.advance t).startOver s.startLimit = true) :
    exec (.startTimer t) s = .next (s.advance t) := congrArg Host.Outcome.next (if_neg early)

theorem exec_pllLockTimeout_over (passed : (s.advance t).startOver (2 * msU) = true) (first : s.rd Reg.STRT_STAT_PHASE [] = 1) :
    exec (.pllLockTimeout t) s = .next ((s.advance t).startFail 2 0) := congrArg Host.Outcome.next (if_pos ⟨passed, first⟩)

theorem exec_pllLockTimeout_early (early : ¬ (s.advance t).startOver (2 * msU) = true) :
    exec (.pllLockTimeout t) s = .next (s.advance t) := congrArg Host.Outcome.next (if_neg fun ⟨passed, _⟩ => early passed)

theorem exec_stableTimer_over {b : Time} (lit : s.powered = true) (since : s.strt.stableSince = some b)
    (passed : b + s.strt.stableS * second ≤ max s.now t) :
    exec (.stableTimer t) s = .next (((s.advance t).wr Reg.STRT_FAIL_ATTEMPTS [] 0).saveRec) := by
  simp [exec, execStableTimer, since, lit, passed]

/-- Settles O14: a write without its key is no write, and a timer whose span has passed fails the start below the lockout. -/
theorem startKeysAndTimers : Obligations.StartKeysAndTimers := by
  refine ⟨⟨fun w s ignored => ?_, fun w s key => ?_, fun w s lit key => ?_⟩,
    fun t s loading idle free again => ⟨fun passed => ?_, fun first passed => ?_⟩, fun t s => ⟨fun early => ?_, fun early => ?_⟩,
    fun t b s lit since passed => ?_⟩
  · exact exec_strtCtl (State.ctlWrite_ignored ignored)
  · exact congrArg Host.Outcome.next (State.kickWrite_ignored key)
  · exact congrArg Host.Outcome.next (State.kickWrite_restarts lit key)
  · have phase : s.rd Reg.STRT_STAT_PHASE [] < 16 := s.rd_lt _ _
    have failed := State.startFail_retries (s := s.advance t) (code := 3) (by decide) (Nat.lt_trans phase (by decide)) again
    exact ⟨_, exec_startTimer_over ((State.startOver_advance _).mpr ⟨loading, idle, free, passed⟩), failed.code, failed.sub,
      failed.attempts, failed.mode.trans loading, failed.retry⟩
  · have failed := State.startFail_retries (s := s.advance t) (code := 2) (sub := 0) (by decide) (by decide) again
    exact ⟨_, exec_pllLockTimeout_over ((State.startOver_advance _).mpr ⟨loading, idle, free, passed⟩) first, failed.code, failed.sub,
      failed.attempts, failed.retry⟩
  · exact exec_startTimer_early (State.startOver_early early)
  · exact exec_pllLockTimeout_early (State.startOver_early early)
  · have kept : Within 0x400001000 (s.advance t) ((s.advance t).wr Reg.STRT_FAIL_ATTEMPTS [] 0).saveRec :=
      State.saveRec_in rfl (State.wr_in rfl (.refl _))
    refine ⟨_, exec_stableTimer_over lit since passed, ?_, kept.mode rfl rfl⟩
    rw [State.rd_congr (State.saveRec_regs _), State.rd_wr_same _ _ rfl rfl]
    rfl

/-! ### The steps of a start (R519) -/

/-- In LOADING, with no retry awaited, a step's end acts on the step in progress. -/
theorem exec_startStepEnd_loading (loading : s.mode = .loading) (running : s.strt.retryAt = none) (o : StepEnd) :
    exec (.startStepEnd o) s = .next ((s.advance (stepTime o)).endStep o) :=
  congrArg Host.Outcome.next (if_pos ⟨loading, by rw [State.advance_strt, running]; rfl⟩)

/-- Words written one after another leave every field of another offset. -/
theorem State.rd_wrWords_off {f g : Fld} {idx jdx : List Nat} (s : State) (n v : Nat) (apart : ∀ i, g.off jdx ≠ f.off (idx ++ [i])) :
    (s.wrWords f idx n v).rd g jdx = s.rd g jdx := by
  unfold State.wrWords
  generalize List.range n = is
  induction is generalizing s with
  | nil => rfl
  | cons i is ih => exact (ih _).trans (State.rd_wr_off _ _ (apart i))

/-- The fuses as step 2 shows them, before PHASE. -/
def State.shownFuses (s : State) (hash : List Byte) : State :=
  (((({ s with strt := { s.strt with fuseHash := hash } } : State).wr Reg.KEY_LC_STATE [] s.key.fuse).wrWords
    Reg.KEY_SERIAL_SERIAL [] 4 s.key.serial).showDebug).showOpen

theorem State.shownFuses_within (s : State) (hash : List Byte) : Within 0x4000400001000 s (s.shownFuses hash) :=
  State.showOpen_in rfl (State.showDebug_in rfl (State.wrWords_in rfl rfl (State.wr_in rfl (.set_strt (.refl s) rfl))))

theorem State.startFuses_live (live : s.key.fuse ≠ 4) (hash : List Byte) : s.startFuses hash = (s.shownFuses hash).phase 3 := by
  have fuse : (s.shownFuses hash).key.fuse = s.key.fuse := congrArg KeySt.fuse ((s.shownFuses_within hash).parts .key rfl)
  exact if_neg (fuse ▸ live)

/-- What step 2 leaves of a part that is not SCRAPPED. -/
theorem State.startFuses_shows (loading : s.mode = .loading) (live : s.key.fuse ≠ 4) (hash : List Byte) :
    (s.startFuses hash).rd Reg.STRT_STAT_PHASE [] = 3 ∧ (s.startFuses hash).strt.fuseHash = hash ∧
    (s.startFuses hash).rd Reg.KEY_LC_STATE [] = s.key.fuse % 8 := by
  generalize reading : ({ s with strt := { s.strt with fuseHash := hash } } : State).wr Reg.KEY_LC_STATE [] s.key.fuse = x
  have phased : s.startFuses hash = (s.shownFuses hash).wr Reg.STRT_STAT_PHASE [] 3 := by
    rw [State.startFuses_live live, State.phase, if_pos (((s.shownFuses_within hash).mode rfl rfl).trans loading)]
  have after : Within 0x4000400000000 x (s.startFuses hash) := by
    rw [phased, ← reading]
    exact State.wr_in rfl (State.showOpen_in rfl (State.showDebug_in rfl (State.wrWords_in rfl rfl (.refl _))))
  refine ⟨?_, ?_, ?_⟩
  · rw [phased, State.rd_wr_same _ _ rfl rfl]
    rfl
  · rw [show (s.startFuses hash).strt = x.strt from after.parts .strt rfl, ← reading, State.wr_strt]
  · rw [phased, State.rd_wr_off _ _ (by decide), State.shownFuses, reading,
      (State.showOpen_in (M := 0x400000000) rfl (.refl (x.wrWords _ _ _ _).showDebug)).rd rfl rfl (by decide),
      State.showDebug, State.rd_setFlag_bits _ rfl rfl (by decide),
      State.rd_wrWords_off _ _ _ fun i => by simp only [Fld.off, idxOff, Reg.KEY_LC_STATE, Reg.KEY_SERIAL_SERIAL, List.nil_append]; omega,
      ← reading, State.rd_wr_same _ _ rfl rfl]
    rfl

/-- Settles O15: the step in progress decides what a step's end does. -/
theorem startStepsRun : Obligations.StartStepsRun := by
  intro s loading running
  have run (o : StepEnd) {u : State} (step : (s.advance (stepTime o)).endStep o = u) : exec (.startStepEnd o) s = .next u := by
    rw [exec_startStepEnd_loading loading running, step]
  refine ⟨fun t phase => run (.plain t) ((if_pos phase).trans (if_pos loading)),
    fun h t phase live => ⟨_, run (.fuses h t) (if_pos phase), (s.advance t).startFuses_shows loading live h⟩,
    fun t phase => run (.plain t) (by simp [State.endStep, stepTime, phase]),
    fun bad t phase => run (.keys bad t) (if_pos phase), fun ok t phase => run (.logbook ok t) (if_pos phase),
    fun t phase waits => run (.plain t) (by simp [State.endStep, stepTime, phase, waits]),
    fun g0 g1 ok0 ok1 k0 k1 t phase waits => run (.dram g0 g1 ok0 ok1 k0 k1 t) (if_pos ⟨phase, waits⟩),
    fun f t phase => run (.sorters f t) (if_pos phase),
    fun t phase => run (.plain t) (by simp [State.endStep, stepTime, phase]),
    fun t phase => run (.plain t) (by simp [State.endStep, stepTime, phase])⟩

/-! ### Flash commands (R531) -/

section
variable {m : Fin 16} {c : LbCmd} {b : HostBuf} {i : Item} {cmd : List Byte} {op : Nat} {f : FlashOp}

/-- While an operation runs, a flash command in SERVICE waits. -/
theorem State.lbRun_flashBusy (ready : s.lbReady m 1 op c i cmd) (mode : s.mode = .service) (busy : s.nvs.fop.isSome = true)
    (k : List Byte → State → State × LbAns) :
    s.lbRun m 1 op c (fun x a => if a.mode ≠ .service then (a, .done 3 0 []) else if a.nvs.fop.isSome then (a, .wait) else k x a) =
      s := by
  rw [State.lbRun_ready ready, if_neg (not_not_intro mode), if_pos busy]
  rfl

/-- With none under way it is judged and runs. -/
theorem State.lbRun_flashFree (ready : s.lbReady m 1 op c i cmd) (mode : s.mode = .service) (free : s.nvs.fop = none)
    (k : List Byte → State → State × LbAns) :
    s.lbRun m 1 op c (fun x a => if a.mode ≠ .service then (a, .done 3 0 []) else if a.nvs.fop.isSome then (a, .wait) else k x a) =
      s.lbAnswer i m cmd (k cmd s) := by
  rw [State.lbRun_ready ready, if_neg (not_not_intro mode), if_neg (by simp [free])]

theorem exec_flashRead_reads (ready : s.lbReady m 1 1 c i cmd) (mode : s.mode = .service) (free : s.nvs.fop = none) (intact : b.err = false)
    (fits : lbW c 0 + c.len ≤ flashSize) : exec (.flashRead m c b) s = .next
      ((s.emit (.hostWrite c.addr (s.flashBytes (lbW c 0) c.len))).lbSettle i m cmd (completionBytes cmd 0 c.len [0#8, 0#8])) := by
  refine congrArg Host.Outcome.next ((State.lbRun_flashFree ready mode free _).trans ?_)
  rw [if_neg (Nat.not_lt.mpr fits), if_neg (by simp [intact])]
  rfl

theorem exec_flashErase_starts (ready : s.lbReady m 1 2 c i cmd) (mode : s.mode = .service) (free : s.nvs.fop = none)
    (start : lbW c 0 % 4096 = 0) (whole : lbW c 1 % 4096 = 0) (fits : lbW c 0 + lbW c 1 ≤ flashSize)
    (allowed : s.protectedRange (lbW c 0) (lbW c 1) = false) : exec (.flashErase m c b) s =
      .next (s.lbAnswer i m cmd (s.flashStart m cmd true (lbW c 0) (lbW c 1) [])) := by
  refine congrArg Host.Outcome.next ((State.lbRun_flashFree ready mode free _).trans ?_)
  rw [if_neg (by simp [start, whole, fits]), if_neg (by simp [allowed])]

theorem exec_flashWrite_starts (ready : s.lbReady m 1 3 c i cmd) (mode : s.mode = .service) (free : s.nvs.fop = none)
    (intact : b.err = false) (start : lbW c 0 % 256 = 0) (whole : c.len % 256 = 0) (fits : lbW c 0 + c.len ≤ flashSize)
    (allowed : s.protectedRange (lbW c 0) c.len = false) : exec (.flashWrite m c b) s =
      .next (s.lbAnswer i m cmd (s.flashStart m cmd false (lbW c 0) c.len (padTo c.len (b.data.take c.len)))) := by
  refine congrArg Host.Outcome.next ((State.lbRun_flashFree ready mode free _).trans ?_)
  rw [if_neg (by simp [start, whole, fits]), if_neg (by simp [allowed]), if_neg (by simp [intact])]

theorem exec_imageCheck_answers (ready : s.lbReady m 1 4 c i cmd) (mode : s.mode = .service) (free : s.nvs.fop = none)
    (intact : b.err = false) : exec (.imageCheck m c b) s = .next (s.lbAnswer i m cmd (s,
      if s.imCodeAll (b.data.take c.len) = 0 then fAns 0 0 0 else fAns 4 (s.imCodeAll (b.data.take c.len)) 0)) := by
  refine congrArg Host.Outcome.next ((State.lbRun_flashFree ready mode free _).trans ?_)
  rw [if_neg (by simp [intact])]

/-! ### The end of a flash operation (R531) -/

/-- What is put into the flash depends on the flash alone. -/
theorem State.flashPut_flash {x y : State} (same : x.nvs.flash = y.nvs.flash) (a : Nat) (bs : List Byte) :
    (x.flashPut a bs).nvs.flash = (y.flashPut a bs).nvs.flash := by
  unfold State.flashPut
  generalize bs.zipIdx = puts
  induction puts generalizing x y with
  | nil => exact same
  | cons p ps ih => exact ih (by simp only [same])

theorem State.flashPut_fop (x : State) (a : Nat) (bs : List Byte) : (x.flashPut a bs).nvs.fop = x.nvs.fop := by
  obtain ⟨flash, eq⟩ := x.flashPut_nvs a bs
  rw [eq]

theorem State.lbDone_nvs (x : State) (m : Nat) (cmd res : List Byte) : (x.lbDone m cmd res).nvs = x.nvs :=
  (State.lbDone_in (M := 0xacd001010080001c) rfl (.refl x)).parts .nvs rfl

theorem State.lbDone_free (x : State) (m : Nat) (cmd res : List Byte) : (x.lbDone m cmd res).free = x.free :=
  (State.lbDone_in (M := 0xacd001010080001c) rfl (.refl x)).parts .free rfl

/-- What an operation that ends well leaves in its range. -/
def State.flashLeft (s : State) (f : FlashOp) : List Byte :=
  if f.erase then List.replicate f.len 0xFF#8 else ((s.flashBytes f.addr f.len).zip f.data).map fun x => x.1 &&& x.2

/-- No operation runs any more. -/
def State.flashIdle (s : State) : State := { s with nvs := { s.nvs with fop := none } }

/-- Slots whose bytes are as asked for are no longer refused as abandoned. -/
def State.untainted (s : State) (good : Bool) (slots : List Nat) : State :=
  if good then { s with nvs := { s.nvs with taint := s.nvs.taint.filter fun n => !slots.contains n } } else s

theorem State.untainted_shows (x : State) (good : Bool) (slots : List Nat) :
    (x.untainted good slots).nvs.fop = x.nvs.fop ∧ (x.untainted good slots).nvs.flash = x.nvs.flash := by
  unfold State.untainted
  split <;> exact ⟨rfl, rfl⟩

theorem exec_flashOpDone_well (running : s.nvs.fop = some f) : exec (.flashOpDone true t) s =
    .next ((((s.advance t).flashIdle.flashPut f.addr (s.flashLeft f)).untainted (f.erase || s.flashLeft f == f.data)
      [f.addr / slotSize, (f.addr + f.len - 1) / slotSize]).lbDone f.m f.cmd
        (completionBytes f.cmd 0 0 [if f.erase || s.flashLeft f == f.data then 0#8 else 3#8])) := by
  simp only [exec, execFlashOpDone, State.advance_nvs, running]
  rfl

theorem exec_flashOpDone_failed (running : s.nvs.fop = some f) : exec (.flashOpDone false t) s =
    .next ((({ (s.advance t).flashIdle with free := s.free + f.len } : State).flashPut f.addr
      ((List.range f.len).map fun n => Config.freeByte (s.free + n))).lbDone f.m f.cmd (completionBytes f.cmd 0 0 [3#8])) := by
  simp only [exec, execFlashOpDone, State.advance_nvs, running]
  rfl

/-- An operation that ends well is over, and its range holds what it leaves there. -/
theorem flashOpDone_well_ends (running : s.nvs.fop = some f) : ∃ u, exec (.flashOpDone true t) s = .next u ∧ u.nvs.fop = none ∧
    u.nvs.flash = (s.flashPut f.addr (s.flashLeft f)).nvs.flash := by
  obtain ⟨fop, flash⟩ := ((s.advance t).flashIdle.flashPut f.addr (s.flashLeft f)).untainted_shows (f.erase || s.flashLeft f == f.data)
    [f.addr / slotSize, (f.addr + f.len - 1) / slotSize]
  refine ⟨_, exec_flashOpDone_well running, ?_, ?_⟩
  · rw [State.lbDone_nvs, fop, State.flashPut_fop]
    rfl
  · rw [State.lbDone_nvs, flash]
    exact State.flashPut_flash (by rfl) _ _

/-- One that fails is over too, and its range holds free bytes. -/
theorem flashOpDone_failed_ends (running : s.nvs.fop = some f) : ∃ u, exec (.flashOpDone false t) s = .next u ∧ u.nvs.fop = none ∧
    u.free = s.free + f.len ∧
    u.nvs.flash = (s.flashPut f.addr ((List.range f.len).map fun n => Config.freeByte (s.free + n))).nvs.flash := by
  refine ⟨_, exec_flashOpDone_failed running, ?_, ?_, ?_⟩
  · rw [State.lbDone_nvs, State.flashPut_fop]
    rfl
  · rw [State.lbDone_free]
    exact (State.flashPut_in (M := 0x2000) rfl (.refl _)).parts .free rfl
  · rw [State.lbDone_nvs]
    exact State.flashPut_flash (by rfl) _ _

theorem exec_flashOpDone_idle {ok : Bool} (idle : s.nvs.fop = none) : exec (.flashOpDone ok t) s = .next (s.advance t) := by
  simp only [exec, execFlashOpDone, State.advance_nvs, idle]
end

/-- Settles O26: each command by the mode and the operation under way, then by its own judgement; the end by how it went. -/
theorem flashCommands : Obligations.FlashCommands := by
  refine ⟨fun m c b i cmd s => ⟨fun mode => ?_, fun mode busy => ?_, fun mode free intact => ⟨fun ready fits => ?_,
      fun ready start whole fits allowed => exec_flashErase_starts ready mode free start whole fits allowed,
      fun ready start whole fits allowed => exec_flashWrite_starts ready mode free intact start whole fits allowed,
      fun ready => exec_imageCheck_answers ready mode free intact⟩⟩,
    fun t f s running erase => ?_, fun t f s running program => ?_, fun t f s running => flashOpDone_failed_ends running,
    fun ok t s idle => exec_flashOpDone_idle idle⟩
  · exact ⟨fun ready => congrArg Host.Outcome.next (State.lbRun_outside ready mode _),
      fun ready => congrArg Host.Outcome.next (State.lbRun_outside ready mode _),
      fun ready => congrArg Host.Outcome.next (State.lbRun_outside ready mode _),
      fun ready => congrArg Host.Outcome.next (State.lbRun_outside ready mode _)⟩
  · exact ⟨fun ready => congrArg Host.Outcome.next (State.lbRun_flashBusy ready mode busy _),
      fun ready => congrArg Host.Outcome.next (State.lbRun_flashBusy ready mode busy _),
      fun ready => congrArg Host.Outcome.next (State.lbRun_flashBusy ready mode busy _),
      fun ready => congrArg Host.Outcome.next (State.lbRun_flashBusy ready mode busy _)⟩
  · exact ⟨_, exec_flashRead_reads ready mode free intact fits, rfl, rfl⟩
  · have left := flashOpDone_well_ends (t := t) running
    rwa [State.flashLeft, if_pos erase] at left
  · have left := flashOpDone_well_ends (t := t) running
    rwa [State.flashLeft, if_neg (by simp [program])] at left

end Sys2Proof.Machine
end

section
/-! PROOFS of the family 15_register_map: steps and the queue, the scratch register, reads of counters, maxima that a write clears, and
supply excursions. -/
namespace Sys2Proof.Machine

variable {s u x y : State} {t : Time} {w : Word}

/-! ### Steps, the queue and outputs -/

/-- Settles O1: it is the definition of a step. -/
theorem stepRunsFrontCommand : Obligations.StepRunsFrontCommand := fun _ _ _ => rfl

/-- What a step keeps: a tick keeps it of the state, a command of the state with the queue's rest. -/
theorem step_keeps (h : step s = .next u) : Keeps { s with pending := s.pending.tail } u := by
  rcases step_cases h with ⟨empty, rfl⟩ | ⟨c, rest, queue, run⟩
  · rw [empty, List.tail_nil, ← empty]
    exact State.tick_keeps (.refl s)
  · rw [queue, List.tail_cons]
    exact exec_keeps c _ u run

/-- Settles O6: what every step keeps, read off for the queue, the outputs and the free values. -/
theorem queueAndOutputs : Obligations.QueueAndOutputs :=
  ⟨fun _ _ h => (step_keeps h).queue, fun _ _ h => ⟨(step_keeps h).out, (step_keeps h).free⟩⟩

/-- Settles O7: an empty queue gives a tick, and every command a next state. -/
theorem everyStepCompletes : Obligations.EveryStepCompletes := by
  intro s
  unfold State.completes step
  split
  case h_1 => exact ⟨_, rfl⟩
  case h_2 c rest _ => exact exec_completes c _

/-! ### The latch of the host's reads stands (R538)

Reading a register renews what depends on time; the renewal may record and send alarms, and that writes the states of the host rings.
The latch is no part of them. -/

/-- From `s` to `t` the latch and its address stand. -/
structure KeepsLatch (s t : State) : Prop where
  latch : t.hif.latch = s.hif.latch
  addr : t.hif.latchAddr = s.hif.latchAddr

theorem KeepsLatch.refl (s : State) : KeepsLatch s s := ⟨rfl, rfl⟩

/-- What leaves the host interface's state leaves the latch. -/
theorem KeepsLatch.then {M : Nat} (h : KeepsLatch s x) (k : Within M x y) (hif : M.testBit 4 = false) : KeepsLatch s y := by
  have same : y.hif = x.hif := k.parts .hif hif
  exact ⟨same ▸ h.latch, same ▸ h.addr⟩

/-- The states of the rings are no part of the latch. -/
theorem KeepsLatch.rings (h : KeepsLatch s x) (rings : List (Nat × RingHid)) :
    KeepsLatch s { x with hif := { x.hif with rings := rings } } := ⟨h.latch, h.addr⟩

theorem KeepsLatch.raiseVector (h : KeepsLatch s x) (v : Nat) : KeepsLatch s (x.raiseVector v) :=
  h.then (M := 0x400000000800000) (State.raiseVector_in rfl (.refl x)) rfl

theorem KeepsLatch.notice (h : KeepsLatch s x) (b bit d0 d1 d2 : Nat) : KeepsLatch s (x.notice b bit d0 d1 d2) :=
  h.then (x.notice_within b bit d0 d1 d2) rfl

theorem KeepsLatch.noticeFirst (h : KeepsLatch s x) (b bit d0 d1 d2 : Nat) : KeepsLatch s (x.noticeFirst b bit d0 d1 d2) :=
  h.then (M := 0x410000100800004) (State.noticeFirst_in rfl (.refl x)) rfl

theorem KeepsLatch.wr (h : KeepsLatch s x) (f : Fld) (idx : List Nat) (v : Nat) : KeepsLatch s (x.wr f idx v) :=
  ⟨by rw [State.wr_hif]; exact h.latch, by rw [State.wr_hif]; exact h.addr⟩

theorem KeepsLatch.inc (h : KeepsLatch s x) (f : Fld) (idx : List Nat) : KeepsLatch s (x.inc f idx) := h.wr ..

theorem KeepsLatch.incSat (h : KeepsLatch s x) (f : Fld) (idx : List Nat) : KeepsLatch s (x.incSat f idx) := h.wr ..

theorem KeepsLatch.of_fst {α : Type} {p : State × α} {a : α} (e : p = (x, a)) (h : KeepsLatch s p.1) : KeepsLatch s x := by
  rwa [e] at h

theorem KeepsLatch.mk1 {α : Type} {a : α} (h : KeepsLatch s x) : KeepsLatch s (x, a).1 := h

theorem KeepsLatch.prShed (h : KeepsLatch s x) (r : Nat) : KeepsLatch s (x.prShed r) :=
  h.then (M := 0x450000100800004) (State.prShed_in rfl (.refl x)) rfl

theorem KeepsLatch.prResume (h : KeepsLatch s x) (r : Nat) : KeepsLatch s (x.prResume r) :=
  h.then (M := 0x450000100800004) (State.prResume_in rfl (.refl x)) rfl

theorem KeepsLatch.prNotify (h : KeepsLatch s x) (r : Nat) : KeepsLatch s (x.prNotify r) := by
  unfold State.prNotify
  extract_lets n ring counted
  split
  · exact h
  · split
    · exact h.raiseVector _
    · split
      · exact (h.rings _).raiseVector _
      · exact h.rings _

theorem KeepsLatch.prDeliver (h : KeepsLatch s x) (r typ info : Nat) (cut : Bool) (data : List Byte) :
    KeepsLatch s (x.prDeliver r typ info cut data) :=
  ((((⟨h.latch, h.addr⟩ : KeepsLatch s (x.emit _)).wr ..).wr ..).wr ..).prNotify r

theorem KeepsLatch.prPut (h : KeepsLatch s x) (r typ info : Nat) (data : List Byte) (cutRec : Option (List Byte)) :
    KeepsLatch s (x.prPut r typ info data cutRec).1 := by
  unfold State.prPut
  extract_lets ring _ numbered resumed
  have h1 : KeepsLatch s numbered := h.rings _
  have h2 : KeepsLatch s resumed := h1.prResume r
  clear_value numbered resumed
  split
  · exact h1.prShed r
  · split
    · exact h2.prShed r
    · split
      · exact h2.prDeliver ..
      · split
        · split
          · exact ((h2.inc ..).noticeFirst ..).prDeliver ..
          · exact h2.prShed r
        · exact h2.prShed r

theorem KeepsLatch.offerSample (h : KeepsLatch s x) (code : Nat) (item : List Byte) : KeepsLatch s (x.offerSample code item) := by
  unfold State.offerSample
  split
  · exact forEach_holds _ h fun r y hy => hy.prPut ..
  · exact h

theorem KeepsLatch.dead (h : KeepsLatch s x) (code flow : Nat) (pm : Option Nat) (rec_ : Bool) (content : Option (List Byte)) :
    KeepsLatch s (x.dead code flow pm rec_ content) := by
  unfold State.dead
  extract_lets counted _ _ _ _ sampled _
  have h1 : KeepsLatch s sampled := h.then (M := 0x10000000008) (.set_sof (State.bump64_in rfl rfl (.refl x)) rfl) rfl
  split
  · exact h1.offerSample ..
  · exact h1

theorem KeepsLatch.trcStop (h : KeepsLatch s x) (stat : Nat) : KeepsLatch s (x.trcStop stat) := (h.wr ..).notice ..

theorem KeepsLatch.trcFlush (h : KeepsLatch s x) : KeepsLatch s x.trcFlush := by
  unfold State.trcFlush
  split
  · exact h
  · extract_lets item _ taken
    have h1 : KeepsLatch s taken := ⟨h.latch, h.addr⟩
    split
    · refine forEach_holds _ h1 fun r y hy => ?_
      have put := hy.prPut r 4 0 item none
      split
      case h_1 e => rwa [e] at put
      case h_2 e => rw [e] at put; exact put.dead ..
    · exact h1

theorem KeepsLatch.traceEv (h : KeepsLatch s x) (ev cls srt flow aux seq : Nat) : KeepsLatch s (x.traceEv ev cls srt flow aux seq) := by
  unfold State.traceEv
  split
  · exact h
  · split
    · exact h.trcStop 2
    · extract_lets _ _ taken flushed _
      have h1 : KeepsLatch s flushed := KeepsLatch.trcFlush ⟨h.latch, h.addr⟩
      split
      · exact h1.trcStop 3
      · exact h1

theorem KeepsLatch.offer (h : KeepsLatch s x) (src rnd info flow : Nat) (sel : Nat → Bool) (data : List Byte)
    (cutRec : Option (List Byte)) : KeepsLatch s (x.offer src rnd info flow sel data cutRec) := by
  unfold State.offer
  split
  · refine forEach_holds _ h fun r y hy => ?_
    have put := hy.prPut r src info data cutRec
    unfold State.prOffer
    split
    case h_1 e => rwa [e] at put
    case h_2 e => rw [e] at put; exact (put.dead ..).traceEv ..
  · exact h

/-! Frames of publications, and standard alarms. -/

theorem KeepsLatch.txOne (h : KeepsLatch s x) (f : TxFrame) : KeepsLatch s (x.txOne f) := by
  unfold State.txOne
  extract_lets port
  split
  · exact h.inc ..
  · split
    · exact ⟨h.latch, h.addr⟩
    · unfold State.startTx
      split
      · exact ((h.inc ..).notice ..).dead ..
      · extract_lets counted
        have h1 : KeepsLatch s counted := by
          unfold counted
          split
          · exact h
          · exact h.inc ..
        exact ⟨h1.latch, h1.addr⟩

theorem KeepsLatch.txV (h : KeepsLatch s x) (count : Bool) (vl : Nat → Option Nat) (port cls pcp : Nat)
    (shedAt : Option (Time × Nat × Nat)) (body : TxBody) : KeepsLatch s (x.txV count vl port cls pcp shedAt body) := by
  unfold State.txV
  split
  · split
    · exact h.txOne _
    · exact h
  · refine forEach_holds _ ⟨h.latch, h.addr⟩ fun p y hy => ?_
    split
    · exact hy.txOne _
    · exact hy

theorem KeepsLatch.pubOut (h : KeepsLatch s x) (q : Nat) (std : Bool) (b : TxBody) : KeepsLatch s (x.pubOut q std b) := by
  unfold State.pubOut
  extract_lets sent st sq
  have h1 : KeepsLatch s sent := KeepsLatch.inc (forEach_holds _ h fun p y hy => hy.txV ..) _ _
  clear_value sent
  split
  · exact h1
  · split
    · exact h1.then (M := 0x804000) (State.plkSend_in rfl (.refl sent)) rfl
    · split
      · exact h1.then (M := 0x2000000004000) (State.hold_in rfl (.refl sent)) rfl
      · exact h1

theorem KeepsLatch.pubSend (h : KeepsLatch s x) (q : Nat) (std : Bool) : KeepsLatch s (x.pubSend q std).1 := by
  have used (id use alg : Nat) : KeepsLatch s (x.useKey id use alg).1 :=
    h.then (M := 0x414000100800204) (State.useKey_in rfl (.refl x)) rfl
  unfold State.pubSend
  split
  · extract_lets alg id spdu
    split
    case h_1 e => exact (KeepsLatch.of_fst e (used ..)).pubOut ..
    case h_2 e => exact .mk1 (((KeepsLatch.of_fst e (used ..)).incSat ..).notice ..)
  · exact h.pubOut ..

theorem KeepsLatch.pubChange (h : KeepsLatch s x) (q : Nat) (t : Time) (std : Bool) : KeepsLatch s (x.pubChange q t std).1 := by
  unfold State.pubChange
  extract_lets numbered wait _ scheduled
  have h1 : KeepsLatch s numbered := (h.wr ..).wr ..
  clear_value numbered
  have h2 : KeepsLatch s scheduled := ⟨h1.latch, h1.addr⟩
  exact h2.pubSend q std

theorem KeepsLatch.stdMark (h : KeepsLatch s x) (c : Nat) (on : Bool) : KeepsLatch s (x.stdMark c on) := by
  unfold State.stdMark
  extract_lets v
  split
  · exact h
  · rename_i marked b told _
    have h1 : KeepsLatch s told :=
      ((h.wr ..).notice ..).then (M := 0x410000100800004) (State.logEvent_in rfl (.refl _)) rfl
    exact KeepsLatch.offer (h1.inc ..) ..

theorem KeepsLatch.shedMark (h : KeepsLatch s x) (before : Nat) : KeepsLatch s (x.shedMark before) := by
  unfold State.shedMark
  split
  · exact h
  · exact KeepsLatch.stdMark (x := x.stdSeen 9) ⟨h.latch, h.addr⟩ 9 true

theorem KeepsLatch.showAlarms (h : KeepsLatch s x) : KeepsLatch s x.showAlarms.1 :=
  h.then (M := 0x100000000400) (State.showAlarms_in rfl (.refl x)) rfl

theorem KeepsLatch.pubRound (h : KeepsLatch s x) (qs : List Nat) (t : Time) (std : Bool) : KeepsLatch s (x.pubRound qs t std) := by
  unfold State.pubRound
  extract_lets sent
  have h1 : KeepsLatch s sent := by
    unfold sent
    split
    · refine forEach_holds _ h fun q y hy => ?_
      have changed := hy.pubChange q t std
      exact ⟨changed.latch, changed.addr⟩
    · exact h
  exact (h1.stdMark ..).shedMark _

theorem KeepsLatch.stdPublish (h : KeepsLatch s x) : KeepsLatch s x.stdPublish := by
  unfold State.stdPublish
  split
  rename_i shown
  extract_lets sent
  have h1 : KeepsLatch s sent := (KeepsLatch.of_fst shown h.showAlarms).pubRound ..
  split
  rename_i again
  exact ((KeepsLatch.of_fst again h1.showAlarms).pubRound ..).showAlarms

theorem KeepsLatch.stdAlarm (h : KeepsLatch s x) (c : Nat) (on : Bool) : KeepsLatch s (x.stdAlarm c on) := by
  unfold State.stdAlarm
  split
  · exact h
  · exact ((h.stdMark c on).shedMark _).stdPublish

theorem KeepsLatch.tbRefresh (h : KeepsLatch s x) : KeepsLatch s x.tbRefresh := by
  have shown : KeepsLatch s x.showQuality.endLeap := by
    have same : x.showQuality.endLeap.hif = x.hif := by
      unfold State.endLeap State.showQuality
      split
      · split <;> simp
      · simp
    exact ⟨same ▸ h.latch, same ▸ h.addr⟩
  rw [State.tbRefresh_eq]
  exact (shown.stdAlarm ..).stdAlarm ..

/-- What a read renews leaves the latch. -/
theorem State.renewed_keepsLatch (s : State) : KeepsLatch s s.renewed := by
  unfold State.renewed
  split
  · exact .refl s
  · exact (KeepsLatch.refl s).tbRefresh.then (M := 0x8002000000004000)
      (State.refreshScore_in rfl (State.showSilent_in rfl (State.showLoads_in rfl (.refl _)))) rfl

/-! ### Host reads (R9, R522, R538, R539) -/

theorem State.hostRead_answering {off : Nat} (answers : s.responds off = true) (k : State → State) : s.hostRead off k = k s := if_pos answers

/-- Where no register answers a read in a powered mode returns 0. -/
theorem State.hostRead_silent {off : Nat} (lit : s.powered = true) (silent : s.responds off = false) (k : State → State) :
    s.hostRead off k = s.emit (.readData 0#32) := by
  simp [State.hostRead, silent, lit, State.answer]

/-- A word is answered as it is. -/
theorem State.answer_word (s : State) (w : Word) : s.answer w.toNat = s.emit (.readData w) := by
  rw [State.answer, BitVec.ofNat_toNat, BitVec.setWidth_eq]

/-- A read of a high word: the latch where its address matches, the word as it stands elsewhere. -/
theorem exec_counterLatchHigh {addr : Nat} (answers : s.responds (addr / 4 * 4) = true) : exec (.counterLatchHigh addr) s =
    .next (s.renewed.emit (.readData
      (if s.hif.latchAddr = some (addr / 4 * 4) then s.hif.latch else s.renewed.shown (addr / 4 * 4)))) := by
  obtain ⟨latch, latchAddr⟩ := s.renewed_keepsLatch
  refine congrArg Host.Outcome.next ?_
  rw [State.hostRead_answering answers]
  dsimp only
  rw [latch, latchAddr, State.answer_word]

/-- A state whose latch holds a word of an address. -/
def State.latching (s : State) (w : Word) (addr : Nat) : State := { s with hif := { s.hif with latch := w, latchAddr := some addr } }

/-- A read of a low word of two latches the high word and answers. -/
theorem exec_counterLatchLow {addr : Nat} (answers : s.responds (addr / 4 * 4) = true) (low : counterLow (addr / 4 * 4) = true) :
    exec (.counterLatchLow addr) s = .next ((s.renewed.latching (s.renewed.word (addr / 4 * 4 + 4)) (addr / 4 * 4 + 4)).emit
      (.readData (s.renewed.shown (addr / 4 * 4)))) := by
  refine congrArg Host.Outcome.next ?_
  rw [State.hostRead_answering answers]
  dsimp only
  rw [if_pos low, State.answer_word]
  rfl

/-! ### Maxima (R178, R179, R220, R223, R599) -/

theorem idxOk_stab_maxL (sid : Fin 16392) :
    idxOk (stab Reg.STAB_MAX_L Reg.LSTAB_MAX_L sid).1.dims (stab Reg.STAB_MAX_L Reg.LSTAB_MAX_L sid).2 = true := by
  unfold stab
  split
  case isTrue remote => simpa [idxOk, Reg.STAB_MAX_L] using remote
  case isFalse own => simp only [idxOk, Reg.LSTAB_MAX_L, Bool.and_true, decide_eq_true_eq]; omega

/-- MAX_L of a stream, remote or local, is a whole word. -/
theorem stab_maxL_sane (sid : Nat) : (stab Reg.STAB_MAX_L Reg.LSTAB_MAX_L sid).1.sane = true := by
  unfold stab; split <;> rfl

/-- Settles O55: reads by what they renew and latch, which stands while they do; each maximum by the write that its row makes. -/
theorem counterLatchAndMaxima : Obligations.CounterLatchAndMaxima := by
  refine ⟨⟨fun addr s lit silent => ?_, fun addr s answers low => ?_, fun addr s answers latched => ?_,
    fun addr s answers unlatched => ?_⟩, fun r w s takes => ?_, fun sid w s takes => ?_, fun n w s takes => ?_, fun c w s takes => ?_,
    fun w s takes => ?_⟩
  · exact ⟨congrArg Host.Outcome.next (State.hostRead_silent lit silent _),
      congrArg Host.Outcome.next (State.hostRead_silent lit silent _)⟩
  · exact ⟨_, exec_counterLatchLow answers low, rfl, rfl, rfl⟩
  · rw [exec_counterLatchHigh answers, if_pos latched]
  · rw [exec_counterLatchHigh answers, if_neg unlatched]
  · exact congrArg Host.Outcome.next (State.hostGate_takes takes _ _)
  · exact ⟨_, congrArg Host.Outcome.next (State.hostGate_takes takes _ _),
      (s.rd_wr_same 0 (stab_maxL_sane sid) (idxOk_stab_maxL sid)).trans (Nat.zero_mod _)⟩
  · exact congrArg Host.Outcome.next (State.hostGate_takes takes _ _)
  · exact congrArg Host.Outcome.next (State.hostGate_takes takes _ _)
  · exact congrArg Host.Outcome.next (State.hostGate_takes takes _ _)

/-! ### GLB_SCRATCH (R544) -/

theorem fieldsAt_scratch : fieldsAt 0x8 = [Reg.GLB_SCRATCH_DATA] := by decide

theorem scratch_get (w : Word) : Reg.GLB_SCRATCH_DATA.get w = w.toNat := by
  have : w.toNat / 2 ^ 0 % 2 ^ 32 = w.toNat := by omega
  exact this

/-- All of the word is the host's to write. -/
theorem storedWord_scratch (lock : Bool) (old w : Word) : storedWord 0x8 lock old w = w := by
  rw [storedWord_rw fieldsAt_scratch rfl, show Reg.GLB_SCRATCH_DATA.mask = BitVec.allOnes 32 by decide, BitVec.not_allOnes,
    BitVec.and_zero, BitVec.and_allOnes, BitVec.zero_or]

/-- A write of GLB_SCRATCH is a plain write. -/
theorem State.hostWrite_scratch (s : State) (w : Word) : s.hostWrite 0x8 w = s.setWord 0x8 w := by
  have plain : s.hostWrite 0x8 w = s.store 0x8 w := rfl
  rw [plain, State.store_of_fieldsAt fieldsAt_scratch (by decide), storedWord_scratch]

theorem State.responds_scratch (lit : s.powered = true) : s.responds 0x8 = true := by simp [State.responds, lit]

theorem exec_registerWrite_scratch (lit : s.powered = true) (w : Word) :
    exec (.registerWrite 0x8 w 15) s = .next (s.setWord 0x8 w) := by
  simp [exec, execRegisterWrite, State.responds_scratch lit, fieldsAt_scratch, State.hostWrite_scratch]

/-- A read shows all of the word. -/
theorem State.shown_scratch (s : State) : s.shown 0x8 = s.word 0x8 := by
  have all : accMask 0x8 (· != .wo) = BitVec.allOnes 32 := by decide
  rw [State.shown, all, BitVec.and_allOnes]

theorem State.renewed_scratch (s : State) : s.renewed.word 0x8 = s.word 0x8 :=
  (State.renewed_in (M := 0x845611290080473c) rfl (.refl s)).words _ (by decide)

/-- A warm start resets no word of kind C. -/
theorem State.warmRegs_scratch (s : State) : s.warmRegs.word 0x8 = s.word 0x8 := by
  have reset : (s.resetKinds (· == .w)).word 0x8 = s.word 0x8 :=
    State.resetKinds_word_kept fun w => by rw [resetFields, fieldsAt_scratch]; rfl
  have kept : Within 0x31900001000000 (s.resetKinds (· == .w)) s.warmRegs :=
    State.staged_in rfl (State.showOe_in rfl (State.wr_in rfl (State.wr_in rfl (.refl _))))
  rw [kept.words _ (by decide), reset]

/-- The registers before a warm start takes up time hold the word, and only time, its parts and the start's state change after. -/
theorem State.warmBegin_after_scratch (s : State) (src : Nat) (full : Bool) (lit : s.mode ≠ .backup) (loaded : s.mode ≠ .loading) :
    ∃ x : State, x.word 0x8 = s.word 0x8 ∧ Within 0x410000900a01106 x (s.warmBegin src full) := by
  unfold State.warmBegin
  rw [if_neg lit, if_neg loaded]
  extract_lets old unc counted metered cleared shown
  have before : Within 0x403c50518101dffefc s metered.flashAbandon.warmClear.startClear :=
    State.startClear_in rfl (State.warmClear_in rfl (State.flashAbandon_in rfl (State.warmNrg_in rfl (State.countOpsec_in rfl (.refl s)))))
  have prepared : Within 0x400000000 cleared (cleared.showStart 2 (if old = .service then 5 else src) full) :=
    State.showStart_in rfl (.refl _)
  have stands : shown.word 0x8 = s.word 0x8 := by
    unfold shown
    rw [State.word_wr_off (f := Reg.GLB_MODE_PREV) _ _ (by decide), prepared.words _ (by decide), State.warmRegs_scratch,
      before.words _ (by decide)]
  clear_value shown
  exact ⟨shown, stands, .set_strt (State.warmTime_in rfl (.set_strt (.refl _) rfl)) rfl⟩

theorem State.warmBegin_scratch (s : State) (src : Nat) (full : Bool) (lit : s.mode ≠ .backup) (loaded : s.mode ≠ .loading) :
    (s.warmBegin src full).word 0x8 = s.word 0x8 := by
  obtain ⟨x, stands, rest⟩ := s.warmBegin_after_scratch src full lit loaded
  rw [rest.words _ (by decide), stands]

/-- A cold start resets the word. -/
theorem State.coldBegin_scratch (s : State) (src : Nat) : (s.coldBegin 0 src).word 0x8 = 0#32 := by
  obtain ⟨b, x, -, -, rest, eq⟩ := s.coldBegin_eq 0 src
  have after : Within 0x410000500a01106 b.coldReset x :=
    Within.trans (.mono (State.coldTime_in (M := 0x410000500a01106) rfl (State.showStart_in rfl (.refl _))) rfl) (rest.mono rfl)
  have zero : b.coldReset.rd Reg.GLB_SCRATCH_DATA [] = 0 := State.coldReset_reset rfl rfl (by decide) (by decide) rfl
  rw [State.rd, scratch_get] at zero
  rw [eq, if_neg (by decide), after.words _ (by decide)]
  exact BitVec.eq_of_toNat_eq zero

/-- Settles O53: a write is the plain write of the whole word, which a read shows as it stands; a warm start resets no word of its
kind, a cold start does. -/
theorem scratchRegister : Obligations.ScratchRegister := by
  refine ⟨fun w s lit _ => exec_registerWrite_scratch lit w, fun s lit _ unlatched => ?_, by decide, fun t lowNs s held lit loaded => ?_,
    fun t s dark => ?_⟩
  · rw [exec_counterLatchHigh (State.responds_scratch lit), if_neg unlatched, State.shown_scratch, State.renewed_scratch]
  · exact ⟨_, congrArg Host.Outcome.next (if_pos held), (s.advance t).warmBegin_scratch 2 false lit loaded⟩
  · exact ⟨_, congrArg Host.Outcome.next (if_neg (by simp [dark])), (s.advance t).coldBegin_scratch 0⟩

/-! ### Bits of a number -/

theorem bit_mod_two_pow {k w : Nat} (h : k < w) (v : Nat) : v % 2 ^ w / 2 ^ k % 2 = v / 2 ^ k % 2 := by
  rw [← Nat.toNat_testBit, ← Nat.toNat_testBit, Nat.testBit_mod_two_pow, decide_eq_true h, Bool.true_and]

theorem bit_add_two_pow (v k : Nat) : (v + 2 ^ k) / 2 ^ k % 2 = (v / 2 ^ k + 1) % 2 := by
  rw [Nat.add_div_right _ (Nat.two_pow_pos _)]

theorem bit_sub_two_pow {v k : Nat} (on : v / 2 ^ k % 2 = 1) : (v - 2 ^ k) / 2 ^ k % 2 = 0 := by
  have := Nat.sub_mul_div v (2 ^ k) 1
  rw [Nat.mul_one] at this
  omega

/-! ### Supply excursions (R597) -/

/-- A field of the eight rails shows a rail whose bit was set. -/
theorem State.railBit_shows {f : Fld} (sane : f.sane = true) (dims : f.dims = []) (eight : f.width = 8) (s : State) (rail : Fin 8) :
    (s.railBit f (2 ^ rail.val) true).rd f [] / 2 ^ rail.val % 2 = 1 := by
  unfold State.railBit
  extract_lets v
  rw [if_pos rfl, s.rd_wr_same _ sane (by rw [dims]; rfl), eight, bit_mod_two_pow rail.isLt]
  split
  case isTrue on => exact on
  case isFalse off => rw [bit_add_two_pow]; omega

/-- A rail's bit in one field leaves the fields of other bits. -/
theorem State.rd_railBit {f g : Fld} (hf : f.sane = true) (hg : g.sane = true) (d : f.hi < g.lo ∨ g.hi < f.lo) (s : State) (b : Nat)
    (on : Bool) : (s.railBit f b on).rd g [] = s.rd g [] := s.rd_wr_bits _ hf hg d

/-- The field of PWR_SUPPLY in which an excursion shows once it was seen. -/
def seenField (high : Bool) : Fld := if high then Reg.PWR_SUPPLY_HIGH_SEEN else Reg.PWR_SUPPLY_LOW_SEEN

/-- Settles O58: both bits by the law of a rail's bit, the record by the row itself. -/
theorem supplyExcursions : Obligations.SupplyExcursions := by
  refine ⟨fun high rail s lit => ⟨_, rfl, ?_, State.railBit_shows rfl rfl rfl _ rail, ?_⟩, fun high rail s lit => ?_⟩
  · have stands (a : State) : (a.railBit Reg.PWR_SUPPLY_OUT (2 ^ rail.val) true).rd (seenField high) [] = a.rd (seenField high) [] := by
      cases high
      · exact State.rd_railBit (g := Reg.PWR_SUPPLY_LOW_SEEN) rfl rfl (by decide) a _ _
      · exact State.rd_railBit (g := Reg.PWR_SUPPLY_HIGH_SEEN) rfl rfl (by decide) a _ _
    have seen : (s.railBit (seenField high) (2 ^ rail.val) true).rd (seenField high) [] / 2 ^ rail.val % 2 = 1 := by
      cases high <;> exact State.railBit_shows rfl rfl rfl s rail
    exact (congrArg (· / 2 ^ rail.val % 2) (stands _)).trans seen
  · simp [exec, execSupplyExcursion, lit]
  · simp [exec, execSupplyExcursion, lit]

end Sys2Proof.Machine
end

section
/-! PROOFS of the family 08_local_acquisition: samples of the acquisition chain, faults of its inputs, calibration, local streams and
sampled values. -/
namespace Sys2Proof.Machine

variable {s a : State} {t : Time} {p n : Nat}

/-! ### Output samples and look-ahead samples (R318, R327, R328) -/

theorem exec_outputSample_taken {p : Fin 2} (runs : s.clocked p = true) (past : instantTime n (s.ptRate p) + s.ptDelay p ≤ t)
    (next : s.nextSmp p ≤ n) : exec (.outputSample p n t) s = .next ((s.advance t).acqTake p n) := by
  simp [exec, execOutputSample, runs, past, next]

theorem exec_outputSample_idle {p : Fin 2}
    (idle : s.clocked p = false ∨ t < instantTime n (s.ptRate p) + s.ptDelay p ∨ n < s.nextSmp p) :
    exec (.outputSample p n t) s = .next (s.advance t) := by
  have stays : (s.clocked p && decide (instantTime n (s.ptRate p) + s.ptDelay p ≤ t) && decide (s.nextSmp p ≤ n)) = false := by
    rcases idle with off | early | old
    · simp [off]
    · simp [Nat.not_le.mpr early]
    · simp [Nat.not_le.mpr old]
  exact congrArg Host.Outcome.next (if_neg (ne_true_of_eq_false stays))

/-- The point without the outputs that wait up to a sample. -/
def State.withoutReady (s : State) (p n : Nat) : State :=
  s.setAcqPt p { s.acqPt p with ready := (s.acqPt p).ready.filter fun r => decide (n + 4 < r.1) }

theorem State.acqTake_ready {xs : List Word} (ready : sfind (s.acqPt p).ready (n + 4) = some xs) : s.acqTake p n =
    if (s.acqPt p).filled.isSome then (s.withoutReady p n).acqSample p n xs else (s.withoutReady p n).acqFill p xs := by
  unfold State.acqTake
  simp only [ready]
  rfl

theorem State.acqTake_unready (unready : sfind (s.acqPt p).ready (n + 4) = none) : s.acqTake p n = s := by
  unfold State.acqTake
  simp only [unready]

/-- The phase stays high for its time where the look-ahead value is at or above DOWN. -/
def State.holdHigh (s : State) (p : Nat) (t : Time) (k : Nat) (v : Int) : State :=
  if cicReaches v (s.rd Reg.ACQ_PT_SPL_DOWN [p]) = true then
    s.mapPhs p fun j h => if j = k then { h with high := t - cicDelay } else h
  else s

theorem State.lookJudge_below {k : Nat} {v : Int}
    (stays : cicReaches v ((s.holdHigh p t k v).splUp p) = false ∨ (s.holdHigh p t k v).splForce p = 2) :
    s.lookJudge p t k v = s.holdHigh p t k v :=
  if_neg fun judged => stays.elim (fun low => Bool.noConfusion (low.symm.trans judged.1)) judged.2

theorem State.lookJudge_up {k : Nat} {v : Int} (up : cicReaches v ((s.holdHigh p t k v).splUp p) = true)
    (free : (s.holdHigh p t k v).splForce p ≠ 2) : s.lookJudge p t k v =
      (s.holdHigh p t k v).upSplice p (max ((s.holdHigh p t k v).nextSmp p)
        (ceilDiv ((t - (s.holdHigh p t k v).ptDelay p) * (s.holdHigh p t k v).ptRate p) second)) ((s.holdHigh p t k v).gang p k) :=
  if_pos ⟨up, free⟩

/-! ### Faults of inputs (R316) -/

theorem exec_inputFault_onset {i : Fin 18} (runs : s.clocked (i.val / 9) = true) (sound : s.inFault (i.val / 9) (i.val % 9) = false) :
    exec (.inputFault i t) s = .next ((s.advance t).faultOn (i.val / 9) (i.val % 9)) := by
  simp [exec, execInputFault, runs, sound]

theorem exec_inputFault_idle {i : Fin 18} (idle : s.clocked (i.val / 9) = false ∨ s.inFault (i.val / 9) (i.val % 9) = true) :
    exec (.inputFault i t) s = .next (s.advance t) := by
  rcases idle with off | faulted
  · simp [exec, execInputFault, off]
  · simp [exec, execInputFault, faulted]

/-- A current of path H that faults: its bit is set and the fault counted and noticed, and nothing else. -/
theorem State.faultOn_pathH {j : Nat} (lo : 3 ≤ j) (hi : j < 6) : s.faultOn p j =
    ((s.wr Reg.ACQ_PT_STAT_FAULT [p] (s.rd Reg.ACQ_PT_STAT_FAULT [p] + 2 ^ j)).inc Reg.ACQ_PT_FAULTS [p]).notice bACQ 0 (9 * p + j) 1 0 := by
  have noVoltage : ¬ j < 3 := by omega
  have noPathL : ¬ 6 ≤ j := by omega
  simp [State.faultOn, noVoltage, noPathL]

theorem idxOk_acqPt {f : Fld} (row : f.dims = [(0x100, 2)]) (lt : p < 2) : idxOk f.dims [p] = true := by
  rw [row]; simpa [idxOk] using lt

theorem acqFaults_ne_stat (q : Nat) : Reg.ACQ_PT_STAT_FAULT.off [p] ≠ Reg.ACQ_PT_FAULTS.off [q] := by
  simp only [Fld.off, idxOff, Reg.ACQ_PT_STAT_FAULT, Reg.ACQ_PT_FAULTS]; omega

/-- The fault that begins is shown and counted. -/
theorem State.faultOn_pathH_shows {j : Nat} (lt : p < 2) (lo : 3 ≤ j) (hi : j < 6) (sound : s.inFault p j = false) :
    (s.faultOn p j).inFault p j = true ∧ (s.faultOn p j).noticed bACQ 0 ∧
      (s.faultOn p j).rd Reg.ACQ_PT_FAULTS [p] = (s.rd Reg.ACQ_PT_FAULTS [p] + 1) % 2 ^ Reg.ACQ_PT_FAULTS.width := by
  rw [State.faultOn_pathH lo hi]
  refine ⟨?_, State.notice_bit _ _ _ _ (by decide), ?_⟩
  · have off : s.rd Reg.ACQ_PT_STAT_FAULT [p] / 2 ^ j % 2 ≠ 1 := by simpa [State.inFault] using sound
    have bit : (s.rd Reg.ACQ_PT_STAT_FAULT [p] + 2 ^ j) % 2 ^ 9 / 2 ^ j % 2 = 1 := by
      rw [bit_mod_two_pow (by omega), bit_add_two_pow]; omega
    rw [State.inFault, State.rd_notice _ _ _ _ _ _ (idxOk_acqPt rfl lt) rfl rfl, State.inc, State.rd_wr_off _ _ (acqFaults_ne_stat p),
      State.rd_wr_same _ _ rfl (idxOk_acqPt rfl lt), show Reg.ACQ_PT_STAT_FAULT.width = 9 from rfl, bit]
    rfl
  · rw [State.rd_notice _ _ _ _ _ _ (idxOk_acqPt rfl lt) rfl rfl, State.rd_inc_same _ rfl (idxOk_acqPt rfl lt),
      State.rd_wr_off _ _ (acqFaults_ne_stat p).symm]

/-- A fault's bit goes when the input clears. -/
theorem exec_inputFaultClear_faulted {i : Fin 18} (faulted : s.inFault (i.val / 9) (i.val % 9) = true) :
    ∃ u, exec (.inputFaultClear i t) s = .next u ∧ u.inFault (i.val / 9) (i.val % 9) = false := by
  refine ⟨_, congrArg Host.Outcome.next (if_pos faulted), ?_⟩
  have on : s.rd Reg.ACQ_PT_STAT_FAULT [i.val / 9] / 2 ^ (i.val % 9) % 2 = 1 := by simpa [State.inFault] using faulted
  have lt : i.val / 9 < 2 := by omega
  rw [State.inFault, State.rd_wr_same _ _ rfl (idxOk_acqPt rfl lt), show Reg.ACQ_PT_STAT_FAULT.width = 9 from rfl,
    bit_mod_two_pow (Nat.mod_lt _ (by decide)), State.rd_advance, bit_sub_two_pow on]
  rfl

/-! ### The chain is filled (R338) -/

/-- The point runs from an instant on. -/
def State.ptFilled (s : State) (p : Nat) (t : Time) : State :=
  (s.setAcqPt p { s.acqPt p with filled := some t }).setFlag Reg.ACQ_PT_STAT_RUNNING [p] true

/-- The first letters of a point's streams are those of the first instants after an instant. -/
def State.firstLetters (s : State) (p : Nat) (t : Time) : State :=
  forEach [2 * p, 2 * p + 1] (fun n a => if a.lsOn n then a.setAcqLs n { a.acqLs n with next := some (a.lsFirst n t) } else a) s

theorem exec_chainFilled_due {p : Fin 2} (runs : s.clocked p = true) (fills : (s.acqPt p).filled = none)
    (due : (s.acqPt p).start + msU + s.ptDelay p ≤ max s.now t) :
    exec (.chainFilled p t) s = .next ((((s.advance t).ptFilled p t).firstLetters p t).capFilled p) :=
  congrArg Host.Outcome.next (if_pos (by simp [runs, fills, due]))

theorem exec_chainFilled_idle {p : Fin 2}
    (idle : s.clocked p = false ∨ (s.acqPt p).filled.isSome = true ∨ max s.now t < (s.acqPt p).start + msU + s.ptDelay p) :
    exec (.chainFilled p t) s = .next (s.advance t) := by
  refine congrArg Host.Outcome.next (if_neg ?_)
  rcases idle with off | filled | early
  · simp [off]
  · simp [Option.isNone_eq_false_iff.mpr filled]
  · simp only [Bool.and_eq_true, decide_eq_true_eq, not_and, Nat.not_le]
    exact fun _ => early

/-- Settles O42: each row by its guard; what a sample, a look-ahead value and a fault do by the laws above. -/
theorem acquisitionSamples : Obligations.AcquisitionSamples := by
  refine ⟨fun p n t s => exec_outputSample_taken, fun p n t s => exec_outputSample_idle, fun p n xs s a ready ha => ha ▸ State.acqTake_ready ready,
    fun p n s => State.acqTake_unready, fun p bits lbits t r s runs hr => ?_, fun p bits lbits t s idle => ?_, fun p k t v a b hb => ?_,
    fun i t s runs sound => ⟨exec_inputFault_onset runs sound, fun lo hi => ?_⟩, fun i t s => exec_inputFault_idle,
    fun i t s => ⟨exec_inputFaultClear_faulted, fun sound => ?_⟩, fun p t s => exec_chainFilled_due, fun p t s => exec_chainFilled_idle⟩
  · subst hr
    exact congrArg Host.Outcome.next (if_pos runs)
  · exact congrArg Host.Outcome.next (if_neg (ne_true_of_eq_false idle))
  · have held : b = a.holdHigh p t k v := hb
    subst held
    exact ⟨State.lookJudge_below, State.lookJudge_up⟩
  · have lt : i.val / 9 < 2 := by omega
    exact ⟨_, exec_inputFault_onset runs sound, State.faultOn_pathH_shows (s := s.advance t) lt lo hi sound⟩
  · exact congrArg Host.Outcome.next (if_neg (ne_true_of_eq_false sound))

/-! ### Calibration (R320, R324, R326) -/

theorem exec_calCommit {w : Word} (takes : s.takesWrite (Reg.ACQ_CAL_COMMIT.off [])) : exec (.calCommit w) s = .next (s.calWrite w) :=
  congrArg Host.Outcome.next (State.hostGate_takes takes _ _)

/-- A write of ACQ_CAL as its other fields take it. -/
def State.calStored (s : State) (w : Word) : State := (s.store (Reg.ACQ_CAL_COMMIT.off []) w).setFlag Reg.ACQ_CAL_COMMIT [] false

section
variable {w : Word}

theorem State.calWrite_ignored (h : w.getLsbD 31 = false ∨ s.rd Reg.ACQ_CAL_STATUS [] = 1) : s.calWrite w = s.calStored w := by
  refine if_pos ?_
  rcases h with off | pending
  · rw [off]; rfl
  · simp [pending]

theorem State.calWrite_judged (go : w.getLsbD 31 = true) (free : s.rd Reg.ACQ_CAL_STATUS [] ≠ 1) : s.calWrite w =
    if (List.range 18).any ((s.calStored w).curveBad 0xFC1000) then ((s.calStored w).wr Reg.ACQ_CAL_STATUS [] 3).notice bACQ 5 0 0 0
    else (s.calStored w).wr Reg.ACQ_CAL_STATUS [] 1 :=
  if_neg (by simp [go, free])

theorem exec_calCommit_invalid (takes : s.takesWrite (Reg.ACQ_CAL_COMMIT.off [])) (go : w.getLsbD 31 = true)
    (free : s.rd Reg.ACQ_CAL_STATUS [] ≠ 1) (bad : (List.range 18).any ((s.calStored w).curveBad 0xFC1000) = true) :
    ∃ u, exec (.calCommit w) s = .next u ∧ u.rd Reg.ACQ_CAL_STATUS [] = 3 ∧ u.noticed bACQ 5 := by
  refine ⟨_, by rw [exec_calCommit takes, State.calWrite_judged go free, if_pos bad], ?_, State.notice_bit _ _ _ _ (by decide)⟩
  rw [State.rd_notice _ _ _ _ _ _ rfl rfl (by decide), State.rd_wr_same _ _ rfl rfl]
  rfl

theorem exec_calCommit_valid (takes : s.takesWrite (Reg.ACQ_CAL_COMMIT.off [])) (go : w.getLsbD 31 = true)
    (free : s.rd Reg.ACQ_CAL_STATUS [] ≠ 1) (good : (List.range 18).any ((s.calStored w).curveBad 0xFC1000) = false) :
    ∃ u, exec (.calCommit w) s = .next u ∧ u.rd Reg.ACQ_CAL_STATUS [] = 1 := by
  refine ⟨_, by rw [exec_calCommit takes, State.calWrite_judged go free, if_neg (ne_true_of_eq_false good)], ?_⟩
  rw [State.rd_wr_same _ _ rfl rfl]
  rfl
end

theorem exec_calCommitApply_idle (idle : s.rd Reg.ACQ_CAL_STATUS [] ≠ 1 ∨ s.acq.calFade = true ∨ t % second ≠ 0) :
    exec (.calCommitApply t) s = .next (s.advance t) := by
  refine congrArg Host.Outcome.next (if_neg fun ⟨pending, still, whole⟩ => ?_)
  rcases idle with free | fades | within
  · exact free pending
  · exact Bool.noConfusion (fades.symm.trans still)
  · exact within whole

/-! ### Letters of local streams (R331, R333) -/

section
variable {n : Fin 8} {k newest : Nat}

/-- A stream that runs and whose next instant is set: its letter is formed once its last sample is there, and of a sampled-value stream
once none is missing. -/
theorem exec_localLetter_set (next : (s.acqLs n.val).next = some k) (have_ : (s.advance t).lsNewest n.val = some newest)
    (on : s.processing = true) (runs : s.lsOn n.val = true) : exec (.localLetter n t) s = .next
      (if (decide ((s.advance t).lsNeeds n.val k ≤ newest) && (decide (n.val < 4) || (s.advance t).svWhole (n.val - 4) k)) = true then
        if n.val < 4 then (s.advance t).lsForm n.val k false else (s.advance t).svLetter (n.val - 4)
      else s.advance t) := by
  have runs' : (s.advance t).lsOn n.val = true := runs
  have next' : ((s.advance t).acqLs n.val).next = some k := next
  have on' : (s.advance t).processing = true := on
  refine congrArg Host.Outcome.next ?_
  simp only [next', have_, on', runs', Bool.true_and]

theorem exec_localLetter_unset (unset : (s.acqLs n.val).next = none) : exec (.localLetter n t) s = .next (s.advance t) := by
  have unset' : ((s.advance t).acqLs n.val).next = none := unset
  refine congrArg Host.Outcome.next ?_
  simp only [unset']
end

/-- A sampled-value stream that runs and whose next instant is set waits for WAIT_US after the last needed instant. -/
theorem exec_svWaitTimeout_set {q : Fin 4} {k : Nat} (next : (s.acqLs (q.val + 4)).next = some k) (on : s.processing = true)
    (runs : s.lsOn (q.val + 4) = true) : exec (.svWaitTimeout q t) s = .next
      (if instantTime k (s.lsFps (q.val + 4)) + s.lsReach (q.val + 4) + s.rd Reg.ACQ_SV_CFG_WAIT_US [q.val] * usU ≤ max s.now t then
        (s.advance t).svLetter q.val
      else s.advance t) := by
  have runs' : (s.advance t).lsOn (q.val + 4) = true := runs
  have next' : ((s.advance t).acqLs (q.val + 4)).next = some k := next
  have on' : (s.advance t).processing = true := on
  refine congrArg Host.Outcome.next ?_
  simp only [next', on', runs', Bool.true_and, decide_eq_true_eq]
  rfl

/-! ### Sampled values (R336, R337) -/

section
variable {x : SvAsdu}

/-- What the receive stages of a port make of an ASDU: the first of a frame meets the front, the others follow it. -/
def State.svFront (s : State) (x : SvAsdu) : State × Bool := if x.idx = 0 then s.rxFront x.toRxHead else s.rxMore x.toRxHead

theorem exec_svAsdu_passed (passed : s.svFront x = (a, true)) : exec (.svAsdu x) s = .next
    (if a.processing then forEach (a.svMatch x) (fun q b => b.svTake x q) a else if x.idx = 0 then a.disc x.port else a) := by
  refine congrArg Host.Outcome.next ?_
  rw [show (if x.idx = 0 then s.rxFront x.toRxHead else s.rxMore x.toRxHead) = (a, true) from passed]

theorem exec_svAsdu_stopped (stopped : s.svFront x = (a, false)) : exec (.svAsdu x) s = .next a := by
  refine congrArg Host.Outcome.next ?_
  rw [show (if x.idx = 0 then s.rxFront x.toRxHead else s.rxMore x.toRxHead) = (a, false) from stopped]
end

/-- 100 ms without a sample clears RECEIVING, and the notice tells of it. -/
theorem exec_svLost_silent {q : Fin 4} (receives : s.flag Reg.ACQ_SV_STAT_RECEIVING [q.val] = true)
    (silent : sget s.acq.svAt q.val 0 + 100 * msU ≤ max s.now t) :
    ∃ u, exec (.svLost q t) s = .next u ∧ u.flag Reg.ACQ_SV_STAT_RECEIVING [q.val] = false ∧ u.noticed bACQ 6 := by
  have ok : idxOk Reg.ACQ_SV_STAT_RECEIVING.dims [q.val] = true := by simp [idxOk, Reg.ACQ_SV_STAT_RECEIVING]
  refine ⟨_, congrArg Host.Outcome.next (if_pos (by simp [receives, silent])), ?_, State.notice_bit _ _ _ _ (by decide)⟩
  rw [State.flag_notice _ _ _ _ _ _ ok rfl (by decide), State.flag_setFlag_same _ _ rfl ok rfl]

/-- Settles O43: each row by its guard; COMMIT by the judgement of its write, letters by what their stream waits for. -/
theorem calibrationAndLocalStreams : Obligations.CalibrationAndLocalStreams := by
  refine ⟨⟨fun t s instant new => ?_, fun t s idle => ?_, fun w s a takes go free ha => ?_, fun w s takes h => ?_,
    fun t s a pending still whole ha => ?_, fun t s => exec_calCommitApply_idle⟩, fun n t k newest s next newestIs on runs => ?_,
    fun n t s => exec_localLetter_unset, fun q t k s next on runs => ?_, fun x s a passed => ?_, fun x s a => exec_svAsdu_stopped,
    fun q t s => exec_svLost_silent⟩
  · exact congrArg Host.Outcome.next (if_pos ⟨instant, new⟩)
  · exact congrArg Host.Outcome.next (if_neg fun ⟨instant, new⟩ => idle.elim (· instant) new)
  · subst ha
    exact ⟨exec_calCommit_invalid takes go free, exec_calCommit_valid takes go free⟩
  · rw [exec_calCommit takes, State.calWrite_ignored h]
    rfl
  · subst ha
    exact congrArg Host.Outcome.next (if_pos ⟨pending, still, whole⟩)
  · rw [exec_localLetter_set next newestIs on runs]
    refine ⟨fun there own => ?_, fun there sampled whole => ?_, fun early => ?_⟩
    · rw [if_pos (by rw [decide_eq_true there, decide_eq_true own]; rfl), if_pos own]
    · rw [if_pos (by rw [decide_eq_true there, whole, Bool.or_true]; rfl), if_neg (Nat.not_lt.mpr sampled)]
    · rw [if_neg (by rw [decide_eq_false (Nat.not_le.mpr early)]; exact Bool.false_ne_true)]
  · rw [exec_svWaitTimeout_set next on runs]
    exact ⟨fun due => by rw [if_pos (by exact due)], fun early => by rw [if_neg (by exact Nat.not_le.mpr early)]⟩
  · rw [exec_svAsdu_passed passed]
    exact ⟨fun on => if_pos on ▸ rfl, fun off first => by rw [if_neg (by simp [off]), if_pos first],
      fun off later => by rw [if_neg (by simp [off]), if_neg later]⟩

end Sys2Proof.Machine
end

section
/-! PROOFS of the family 09_energy_quality: energy quanta, intervals, snapshots, presets and half-cycle voltages. -/
namespace Sys2Proof.Machine

variable {s x y : State} {t : Time}

/-! ### The states of the points -/

@[simp] theorem State.nrgPt_setNrgPt (s : State) (p : Nat) (v : NrgPt) : (s.setNrgPt p v).nrgPt p = v := sget_sset_same

theorem State.nrgPt_setNrgPt_ne (s : State) {p q : Nat} (v : NrgPt) (ne : q ≠ p) : (s.setNrgPt p v).nrgPt q = s.nrgPt q :=
  (sget_sput ne).trans (sget_serase ne)

theorem State.nrgPt_of_nrg (same : y.nrg = x.nrg) (p : Nat) : y.nrgPt p = x.nrgPt p := by rw [State.nrgPt, same]; rfl

theorem idxOk_nrgPt {f : Fld} (row : f.dims = [(0x200, 2)]) (p : Fin 2) : idxOk f.dims [p.val] = true := by
  rw [row]; simpa [idxOk] using p.isLt

/-! ### Quanta (R348, R366) -/

theorem State.anyPtOn (s : State) : (List.range 2).any s.ptOn = (s.ptOn 0 || s.ptOn 1) := by simp [List.range_succ]

theorem State.anyPtOn_of_ptOn {p : Fin 2} (on : s.ptOn p = true) : (List.range 2).any s.ptOn = true :=
  List.any_eq_true.mpr ⟨p, List.mem_range.mpr p.isLt, on⟩

theorem exec_quantumEnd_due {p : Fin 2} (on : s.ptOn p = true) (new : (s.nrgPt p).lastQ ≠ some (s.ptF0 p, (s.advance t).dueQuantum p))
    (ended : instantTime ((s.advance t).dueQuantum p + 1) (s.ptF0 p) ≤ max s.now t)
    (ready : (s.advance t).quantReady p ((s.advance t).dueQuantum p) = true) :
    exec (.quantumEnd p t) s = .next ((s.advance t).quantum p ((s.advance t).dueQuantum p)) := by
  have anyOn : (List.range 2).any (s.advance t).ptOn = true := State.anyPtOn_of_ptOn (s := s) on
  have due : ((s.advance t).ptOn p && ((s.advance t).nrgPt p).lastQ != some ((s.advance t).ptF0 p, (s.advance t).dueQuantum p) &&
      decide (instantTime ((s.advance t).dueQuantum p + 1) ((s.advance t).ptF0 p) ≤ (s.advance t).now) &&
      (s.advance t).quantReady p ((s.advance t).dueQuantum p)) = true := by
    rw [ready, State.advance_ptOn, on, State.advance_nrgPt, State.advance_ptF0, State.advance_now_eq, decide_eq_true ended]
    simpa using new
  exact congrArg Host.Outcome.next ((if_neg (by rw [anyOn]; decide)).trans (if_pos due))

theorem exec_quantumEnd_off {p : Fin 2} (off : s.ptOn p = false) (other : s.ptOn 0 = true ∨ s.ptOn 1 = true) :
    exec (.quantumEnd p t) s = .next (s.advance t) := by
  have anyOn : (List.range 2).any (s.advance t).ptOn = true := by
    rw [State.anyPtOn, Bool.or_eq_true]; exact other
  refine congrArg Host.Outcome.next ((if_neg (by rw [anyOn]; decide)).trans (if_neg ?_))
  rw [State.advance_ptOn, off]
  exact Bool.false_ne_true

theorem exec_quantumEnd_allOff {p : Fin 2} (off0 : s.ptOn 0 = false) (off1 : s.ptOn 1 = false) :
    exec (.quantumEnd p t) s = .next ((s.advance t).nrgPersist (secOf (max s.now t) * second)) := by
  refine congrArg Host.Outcome.next (if_pos ?_)
  rw [State.anyPtOn, State.advance_ptOn, State.advance_ptOn, off0, off1]
  rfl

/-! ### Intervals (R358) -/

theorem exec_intervalEnd_idle {p : Fin 2} (running : (s.nrgPt p).ivDone = none) : exec (.intervalEnd p t) s = .next (s.advance t) := by
  have running' : ((s.advance t).nrgPt p).ivDone = none := running
  refine congrArg Host.Outcome.next ?_
  simp only [running']

/-- The record of an interval is offered and held, and the notice tells of it. -/
def State.recordInterval (s : State) (p : Nat) (mk : Nat → List Byte) : State :=
  let offered := s.nrgOffer p 1 mk
  let seq := offered.rd Reg.NRG_PT_RECSEQ [p]
  (forEach (List.range 48) (fun i x => x.wr Reg.NRG_HIST [p, seq % 16, i] (leAt (mk seq) (4 * i) 4)) offered).notice bNRG 0 p seq 0

theorem State.recordInterval_shows (s : State) (p : Fin 2) (mk : Nat → List Byte) : (s.recordInterval p mk).nrg = s.nrg ∧
    (s.recordInterval p mk).noticed bNRG 0 ∧
    (s.recordInterval p mk).rd Reg.NRG_PT_RECSEQ [p] = (s.rd Reg.NRG_PT_RECSEQ [p] + 1) % 2 ^ Reg.NRG_PT_RECSEQ.width := by
  have counted := s.rd_inc_same (f := Reg.NRG_PT_RECSEQ) rfl (idxOk_nrgPt rfl p)
  have offered : Within 0x45001010080001c (s.inc Reg.NRG_PT_RECSEQ [p]) (s.nrgOffer p 1 mk) := State.offer_in rfl (.refl _)
  unfold State.recordInterval
  extract_lets x seq
  have held : Within 0x10000000000000000000 x
      (forEach (List.range 48) (fun i y => y.wr Reg.NRG_HIST [p, seq % 16, i] (leAt (mk seq) (4 * i) 4)) x) :=
    .forEach (.refl x) fun i y h => State.wr_in rfl h
  refine ⟨?_, State.notice_bit _ _ _ _ (by decide), ?_⟩
  · exact (State.notice_part _ _ _ _ _ _ .nrg (by decide) (by decide)).trans
      ((held.parts .nrg rfl).trans ((offered.parts .nrg rfl).trans (State.inc_nrg ..)))
  · rw [State.rd_notice _ _ _ _ _ _ (idxOk_nrgPt rfl p) rfl (by decide), held.rd (idxOk_nrgPt rfl p) rfl (by decide),
      offered.rd (idxOk_nrgPt rfl p) rfl (by decide), counted]

/-- An interval that has ended is let go, its record is counted, and its notice set. -/
theorem exec_intervalEnd_ended {p : Fin 2} (ended : (s.nrgPt p).ivDone.isSome = true) :
    ∃ v mk, v.ivDone = none ∧ v.skipped = 0 ∧ exec (.intervalEnd p t) s = .next (((s.advance t).setNrgPt p v).recordInterval p mk) := by
  obtain ⟨d, done⟩ := Option.isSome_iff_exists.mp ended
  have done' : ((s.advance t).nrgPt p).ivDone = some d := done
  refine ⟨{ s.nrgPt p with ivDone := none, gap := false, skipped := 0, restored := false },
    ivRecord p s.intS (s.nrgPt p).skipped (d.acc.flags ||| (if (s.nrgPt p).gap || d.acc.missing != 0 then 1 else 0) |||
      (if (s.nrgPt p).restored then 0x400 else 0)) d, rfl, rfl, congrArg Host.Outcome.next ?_⟩
  simp only [done']
  rfl

/-! ### Snapshots (R361) -/

theorem exec_nrgSnap {w : Word} (takes : s.takesWrite (Reg.NRG_SNAP_GO.off [])) : exec (.nrgSnap w) s = .next (s.snapWrite w) :=
  congrArg Host.Outcome.next (State.hostGate_takes takes _ _)

theorem State.snapWrite_ignored {w : Word} (h : w.getLsbD 0 = false ∨ s.rd Reg.NRG_SNAP_STATUS [] = 1) : s.snapWrite w = s := by
  refine if_neg ?_
  rcases h with off | pending
  · rw [off]; exact Bool.false_ne_true
  · simp [pending]

/-- A snapshot of a point that is enabled waits from now on. -/
def State.snapFrom (s : State) (p : Nat) : State := if s.ptOn p then s.setNrgPt p { s.nrgPt p with snapDue := some s.now } else s

/-- A snapshot request that waits. -/
def State.snapAsked (s : State) : State :=
  { s.wr Reg.NRG_SNAP_STATUS [] 1 with nrg := { (s.wr Reg.NRG_SNAP_STATUS [] 1).nrg with snapAt := (s.wr Reg.NRG_SNAP_STATUS [] 1).now } }

theorem State.snapWrite_taken {w : Word} (go : w.getLsbD 0 = true) (free : s.rd Reg.NRG_SNAP_STATUS [] ≠ 1) :
    s.snapWrite w = (s.snapAsked.snapFrom 0).snapFrom 1 := if_pos (by simp [go, free])

theorem State.snapFrom_regs (s : State) (p : Nat) : (s.snapFrom p).regs = s.regs := by unfold State.snapFrom; split <;> rfl

theorem State.snapFrom_now (s : State) (p : Nat) : (s.snapFrom p).now = s.now := by unfold State.snapFrom; split <;> rfl

theorem State.ptOn_of_regs (same : y.regs = x.regs) (p : Nat) : y.ptOn p = x.ptOn p := State.flag_congr same _ _

theorem State.snapFrom_waits {p : Nat} (on : s.ptOn p = true) : ((s.snapFrom p).nrgPt p).snapDue = some s.now := by
  rw [State.snapFrom, if_pos on, State.nrgPt_setNrgPt]

theorem State.snapFrom_other {p q : Nat} (ne : q ≠ p) : (s.snapFrom p).nrgPt q = s.nrgPt q := by
  unfold State.snapFrom
  split
  · exact s.nrgPt_setNrgPt_ne _ ne
  · rfl

theorem State.snapAsked_ptOn (s : State) (p : Nat) : s.snapAsked.ptOn p = s.ptOn p := by
  have other : Reg.ACQ_PT_CFG_EN.off [p] ≠ Reg.NRG_SNAP_STATUS.off [] := by
    simp only [Fld.off, idxOff, Reg.NRG_SNAP_STATUS, Reg.ACQ_PT_CFG_EN]; omega
  exact (State.ptOn_of_regs (x := s.wr Reg.NRG_SNAP_STATUS [] 1) rfl p).trans (congrArg (· != 0) (s.rd_wr_off 1 other))

/-- A request that is taken waits, and with it every point that is enabled. -/
theorem exec_nrgSnap_taken {w : Word} (takes : s.takesWrite (Reg.NRG_SNAP_GO.off [])) (go : w.getLsbD 0 = true)
    (free : s.rd Reg.NRG_SNAP_STATUS [] ≠ 1) : ∃ u, exec (.nrgSnap w) s = .next u ∧ u.rd Reg.NRG_SNAP_STATUS [] = 1 ∧
      (s.ptOn 0 = true → (u.nrgPt 0).snapDue = some s.now) ∧ (s.ptOn 1 = true → (u.nrgPt 1).snapDue = some s.now) := by
  have now : s.snapAsked.now = s.now := s.wr_now ..
  refine ⟨_, by rw [exec_nrgSnap takes, State.snapWrite_taken go free], ?_, fun on => ?_, fun on => ?_⟩
  · rw [State.rd_congr (State.snapFrom_regs _ 1), State.rd_congr (State.snapFrom_regs _ 0)]
    exact (State.rd_congr (s := s.wr Reg.NRG_SNAP_STATUS [] 1) rfl _ _).trans (s.rd_wr_same 1 rfl rfl)
  · rw [State.snapFrom_other (by decide), State.snapFrom_waits (by rw [State.snapAsked_ptOn]; exact on), now]
  · rw [State.snapFrom_waits (by rw [State.ptOn_of_regs (State.snapFrom_regs _ 0), State.snapAsked_ptOn]; exact on),
      State.snapFrom_now, now]

theorem exec_snapDone_due (pending : s.rd Reg.NRG_SNAP_STATUS [] = 1) (off0 : s.ptOn 0 = false) (off1 : s.ptOn 1 = false)
    (whole : t % second = 0) (later : s.nrg.snapAt < t) :
    ∃ u, exec (.snapDone t) s = .next u ∧ u.rd Reg.NRG_SNAP_STATUS [] = 2 ∧ u.noticed bNRG 1 := by
  refine ⟨_, congrArg Host.Outcome.next (if_pos ⟨pending, off0, off1, whole, later⟩), ?_, State.notice_bit _ _ _ _ (by decide)⟩
  rw [State.rd_notice _ _ _ _ _ _ rfl rfl (by decide), State.rd_wr_same _ _ rfl rfl]
  rfl

theorem exec_snapDone_idle (idle : s.rd Reg.NRG_SNAP_STATUS [] ≠ 1 ∨ s.ptOn 0 = true ∨ s.ptOn 1 = true ∨ t ≤ s.nrg.snapAt) :
    exec (.snapDone t) s = .next (s.advance t) := by
  refine congrArg Host.Outcome.next (if_neg fun ⟨pending, off0, off1, _, later⟩ => ?_)
  rcases idle with free | on | on | early
  · exact free pending
  · exact Bool.noConfusion (off0.symm.trans on)
  · exact Bool.noConfusion (off1.symm.trans on)
  · exact Nat.not_lt.mpr early later

/-! ### Presets (R361) -/

theorem exec_nrgPreset {p : Fin 2} {w : Word} (takes : s.takesWrite (Reg.NRG_PT_PRE_IDX_GO.off [p.val])) :
    exec (.nrgPreset p w) s = .next (s.presetWrite p w) := congrArg Host.Outcome.next (State.hostGate_takes takes _ _)

/-- A write of PRE_IDX as its other fields take it. -/
def State.presetStored (s : State) (p : Nat) (w : Word) : State :=
  (s.store (Reg.NRG_PT_PRE_IDX_GO.off [p]) w).setFlag Reg.NRG_PT_PRE_IDX_GO [p] false

theorem State.presetWrite_judged {p : Nat} {w : Word} (go : w.getLsbD 31 = true) (free : s.rd Reg.NRG_PT_PRE_IDX_STATUS [p] ≠ 1) :
    s.presetWrite p w =
      if (s.presetStored p w).mode ≠ .service then
        ((s.presetStored p w).wr Reg.NRG_PT_PRE_IDX_STATUS [p] 3).notice bNRG 8 (32 * p + w.toNat % 32) 0 3
      else ((s.presetStored p w).wr Reg.NRG_PT_PRE_IDX_STATUS [p] 1).setNrgPt p
        { (s.presetStored p w).nrgPt p with
          preset := some (w.toNat % 32, (s.presetStored p w).rd64 Reg.NRG_PT_PRE_VAL [p], (s.presetStored p w).now) } :=
  if_neg (by simp [go, free])

theorem fieldsAt_preIdx : ∀ p : Fin 2, ∀ f ∈ fieldsAt (Reg.NRG_PT_PRE_IDX_GO.off [p.val]), (f.acc == .rwl) = false := by decide

/-- Only the word itself changes. -/
theorem State.word_presetStored (s : State) (p : Fin 2) (w : Word) {off : Nat} (ne : off ≠ Reg.NRG_PT_PRE_IDX_GO.off [p.val]) :
    (s.presetStored p w).word off = s.word off := by
  unfold State.presetStored State.setFlag
  rw [State.word_wr_off _ _ ne, State.store_unlocked (fieldsAt_preIdx p), State.word_setWord_ne _ _ ne]

theorem State.presetStored_kept (s : State) (p : Fin 2) (w : Word) :
    (s.presetStored p w).now = s.now ∧ (s.presetStored p w).powered = s.powered := by
  unfold State.presetStored
  rw [State.store_unlocked (fieldsAt_preIdx p)]
  simp

theorem State.presetStored_mode (s : State) (p : Fin 2) (w : Word) : (s.presetStored p w).mode = s.mode := by
  have cur : (s.presetStored p w).rd Reg.GLB_MODE_CUR [] = s.rd Reg.GLB_MODE_CUR [] :=
    congrArg Reg.GLB_MODE_CUR.get (s.word_presetStored p w (by simp only [Fld.off, idxOff, Reg.NRG_PT_PRE_IDX_GO, Reg.GLB_MODE_CUR]; omega))
  unfold State.mode
  rw [(s.presetStored_kept p w).2, cur]

theorem State.presetStored_val (s : State) (p : Fin 2) (w : Word) :
    (s.presetStored p w).rd64 Reg.NRG_PT_PRE_VAL [p] = s.rd64 Reg.NRG_PT_PRE_VAL [p] := by
  have half (k : Fin 2) : (s.presetStored p w).rd Reg.NRG_PT_PRE_VAL [p, k] = s.rd Reg.NRG_PT_PRE_VAL [p, k] :=
    congrArg Reg.NRG_PT_PRE_VAL.get (s.word_presetStored p w (by
      simp only [Fld.off, idxOff, Reg.NRG_PT_PRE_IDX_GO, Reg.NRG_PT_PRE_VAL]; omega))
  exact congrArg₂ (fun lo hi => lo + 2 ^ 32 * hi) (half 0) (half 1)

theorem exec_nrgPreset_refused {p : Fin 2} {w : Word} (takes : s.takesWrite (Reg.NRG_PT_PRE_IDX_GO.off [p.val]))
    (go : w.getLsbD 31 = true) (free : s.rd Reg.NRG_PT_PRE_IDX_STATUS [p.val] ≠ 1) (mode : s.mode ≠ .service) :
    ∃ u, exec (.nrgPreset p w) s = .next u ∧ u.rd Reg.NRG_PT_PRE_IDX_STATUS [p.val] = 3 ∧ u.noticed bNRG 8 := by
  refine ⟨_, by rw [exec_nrgPreset takes, State.presetWrite_judged go free, if_pos (by rwa [State.presetStored_mode])], ?_,
    State.notice_bit _ _ _ _ (by decide)⟩
  rw [State.rd_notice _ _ _ _ _ _ (idxOk_nrgPt rfl p) rfl (by decide), State.rd_wr_same _ _ rfl (idxOk_nrgPt rfl p)]
  rfl

theorem exec_nrgPreset_waits {p : Fin 2} {w : Word} (takes : s.takesWrite (Reg.NRG_PT_PRE_IDX_GO.off [p.val]))
    (go : w.getLsbD 31 = true) (free : s.rd Reg.NRG_PT_PRE_IDX_STATUS [p.val] ≠ 1) (mode : s.mode = .service) :
    ∃ u, exec (.nrgPreset p w) s = .next u ∧ u.rd Reg.NRG_PT_PRE_IDX_STATUS [p.val] = 1 ∧
      (u.nrgPt p.val).preset = some (w.toNat % 32, s.rd64 Reg.NRG_PT_PRE_VAL [p.val], s.now) := by
  refine ⟨_, by rw [exec_nrgPreset takes, State.presetWrite_judged go free, if_neg (by simpa [State.presetStored_mode] using mode)], ?_, ?_⟩
  · exact (State.rd_congr (s := (s.presetStored p w).wr Reg.NRG_PT_PRE_IDX_STATUS [p] 1) rfl _ _).trans
      (State.rd_wr_same _ _ rfl (idxOk_nrgPt rfl p))
  · rw [State.nrgPt_setNrgPt, State.presetStored_val, (s.presetStored_kept p w).1]

/-! ### Half-cycle voltages (R362, R363, R365) -/

section
variable {p : Fin 2} {st : Time}

theorem exec_urmsHalfValue_undeclared (undeclared : F32.isZero (BitVec.ofNat 32 (s.rd Reg.NRG_PT_UDIN [p])) = true) :
    exec (.urmsHalfValue p st t) s = .next ((s.advance t).setNrgPt p { s.nrgPt p with due := [] }) :=
  congrArg Host.Outcome.next (if_pos undeclared)

theorem exec_urmsHalfValue_other (declared : F32.isZero (BitVec.ofNat 32 (s.rd Reg.NRG_PT_UDIN [p])) = false)
    (idle : s.clocked p = false ∨ firstStamp (s.nrgPt p).due ≠ some st) : exec (.urmsHalfValue p st t) s = .next (s.advance t) := by
  refine congrArg Host.Outcome.next ((if_neg (ne_true_of_eq_false declared)).trans (if_neg fun ⟨first, runs⟩ => ?_))
  rcases idle with off | later
  · exact Bool.noConfusion (off.symm.trans runs)
  · exact later first

theorem exec_urmsHalfValue_first (runs : s.clocked p = true) (declared : F32.isZero (BitVec.ofNat 32 (s.rd Reg.NRG_PT_UDIN [p])) = false)
    (first : firstStamp (s.nrgPt p).due = some st) : exec (.urmsHalfValue p st t) s = .next ((s.advance t).judgeStamp p st) :=
  congrArg Host.Outcome.next ((if_neg (ne_true_of_eq_false declared)).trans (if_pos ⟨first, runs⟩))
end

/-- Settles O44: each row by its guard; a request and a preset by what their write stores, a stamp by its judgement. -/
theorem energyAndSupplyEvents : Obligations.EnergyAndSupplyEvents := by
  refine ⟨⟨fun p t s => exec_quantumEnd_due, fun p t s => exec_quantumEnd_off, fun p t s => exec_quantumEnd_allOff,
    fun p t s => exec_intervalEnd_idle, fun p t s ended => ?_, fun w s => exec_nrgSnap_taken, fun w s takes h => ?_,
    fun t s => exec_snapDone_due, fun t s => exec_snapDone_idle,
    fun p w s takes go free => ⟨exec_nrgPreset_refused takes go free, exec_nrgPreset_waits takes go free⟩⟩,
    fun p st t s => exec_urmsHalfValue_undeclared, fun p st t s => exec_urmsHalfValue_other,
    fun p t st urms xs s runs declared first hu hx => ?_⟩
  · obtain ⟨v, mk, done, skipped, run⟩ := exec_intervalEnd_ended (t := t) ended
    obtain ⟨nrg, noticed, counted⟩ := ((s.advance t).setNrgPt p v).recordInterval_shows p mk
    have shown := (State.nrgPt_of_nrg nrg p).trans (State.nrgPt_setNrgPt _ _ _)
    exact ⟨_, run, by rw [shown, done], by rw [shown, skipped], noticed, counted⟩
  · rw [exec_nrgSnap takes, State.snapWrite_ignored h]
  · subst hx hu
    rw [exec_urmsHalfValue_first runs declared first]
    exact ⟨fun some_ => congrArg Host.Outcome.next (if_neg (mt List.isEmpty_iff.mp some_)),
      fun none_ => congrArg Host.Outcome.next (if_pos (List.isEmpty_iff.mpr none_))⟩

end Sys2Proof.Machine
end

section
/-! PROOFS of the family 10_capture_compression: capture units' commands and the trigger lines. -/
namespace Sys2Proof.Machine

variable {s a : State} {t : Time} {u : Fin 32} {w : Word}

/-! ### ARM, FORCE and ACK of a unit (R379, R381, R383) -/

theorem exec_capArm (takes : s.takesWrite (Reg.CAP_U_ARM_ARM.off [u.val])) : exec (.capArm u) s = .next (s.capArmWrite u) :=
  congrArg Host.Outcome.next (State.hostGate_takes takes _ _)

theorem exec_capForce (takes : s.takesWrite (Reg.CAP_U_ARM_FORCE.off [u.val])) : exec (.capForce u) s = .next (s.capForceWrite u) :=
  congrArg Host.Outcome.next (State.hostGate_takes takes _ _)

/-- In post a condition is counted, in the record and in what comes before it. -/
theorem State.capForceWrite_post {u : Nat} (post : s.capState u = 3) : s.capForceWrite u =
    (s.setCapUnit u { s.capUnit u with
      cur := (s.capUnit u).cur.map (fun c => { c with retrig := min 65535 (c.retrig + 1) })
      early := if (s.capUnit u).edge.isSome then (s.capUnit u).early + 1 else (s.capUnit u).early }).capRetrig u :=
  (if_neg (by omega)).trans (if_pos post)

theorem State.capForceWrite_ignored {u : Nat} (out : s.capState u = 0 ∨ s.capState u = 4 ∨ s.capState u = 5) : s.capForceWrite u = s :=
  (if_neg (by omega)).trans (if_neg (by omega))

theorem exec_capAck (takes : s.takesWrite (Reg.CAP_U_ACK_SEQ.off [u.val])) : exec (.capAck u w) s = .next (s.capAckWrite u w) :=
  congrArg Host.Outcome.next (State.hostGate_takes takes _ _)

/-! ### Edges of the lines (R386) -/

/-- FIRE shows low. -/
def State.fireFalls (s : State) : State := ({ s with cap := { s.cap with fireLow := true } } : State).setFlag Reg.CAP_XTRG_FIRE_LINE [] false

/-- SYNC shows low. -/
def State.syncFalls (s : State) : State := ({ s with cap := { s.cap with syncLow := true } } : State).setFlag Reg.CAP_XTRG_SYNC_LINE [] false

theorem exec_xtrgFireEdge_low (low : s.cap.fireLow = true) : exec (.xtrgFireEdge t) s = .next (s.advance t) :=
  congrArg Host.Outcome.next (if_pos low)

theorem exec_xtrgSyncEdge_low (low : s.cap.syncLow = true) : exec (.xtrgSyncEdge t) s = .next (s.advance t) :=
  congrArg Host.Outcome.next (if_pos low)

theorem exec_xtrgFireEdge_high (high : s.cap.fireLow = false) (ha : a = (s.advance t).fireFalls) : exec (.xtrgFireEdge t) s = .next
    (if a.processing then
      forEach ((List.range 32).filter fun u => a.flag Reg.CAP_U_CFG_XIN [u] && !a.cap.pulling.contains u) (fun u b => b.capEdge t u)
        (a.notice bCAP 3 0 0 0)
    else a) := by
  subst ha
  exact congrArg Host.Outcome.next (if_neg (ne_true_of_eq_false high))

theorem exec_xtrgSyncEdge_high (high : s.cap.syncLow = false) (ha : a = (s.advance t).syncFalls) : exec (.xtrgSyncEdge t) s = .next
    (if a.processing then
      forEach ((List.range 32).filter fun u => a.flag Reg.CAP_U_CFG_XSYNC [u] && a.capState u != 0 && a.capState u != 5)
        (fun u b => b.capSync u) (a.notice bCAP 4 0 0 0)
    else a) := by
  subst ha
  exact congrArg Host.Outcome.next (if_neg (ne_true_of_eq_false high))

theorem State.capEdge_stays {u : Nat}
    (h : (s.capState u ≠ 1 ∧ s.capState u ≠ 2) ∨ (s.capState u = 1 ∧ s.flag Reg.CAP_U_CFG_PREFULL [u] = true)) :
    s.capEdge t u = s := if_pos h

/-- A unit that answers a FIRE edge: armed, or filling without PREFULL. -/
theorem State.capEdge_answers {u : Nat}
    (h : s.capState u = 2 ∨ (s.capState u = 1 ∧ s.flag Reg.CAP_U_CFG_PREFULL [u] = false)) : s.capEdge t u =
      if s.capHeldOff u (s.capUnit u) t then s.capRetrig u
      else (s.setCapUnit u { s.capUnit u with edge := some t, early := 0 }).setCapState u 3 := by
  refine if_neg ?_
  rcases h with armed | ⟨fills, early⟩
  · simp [armed]
  · simp [fills, early]

/-! ### Release of the lines, and SYNC_GO (R386, R387) -/

/-- FIRE is released and shows high. -/
def State.fireRises (s : State) : State :=
  ({ s with cap := { s.cap with pulling := [], fireLow := false } } : State).setFlag Reg.CAP_XTRG_FIRE_LINE [] true

/-- SYNC is released and shows high. -/
def State.syncRises (s : State) : State :=
  ({ s with cap := { s.cap with syncAt := none, syncLow := false } } : State).setFlag Reg.CAP_XTRG_SYNC_LINE [] true

theorem exec_xtrgFireRelease_due
    (due : s.cap.pulling = [] ∨ s.cap.fireAt + max 2 (s.rd Reg.CAP_XTRG_FIRE_W_US []) * usU ≤ max s.now t) :
    exec (.xtrgFireRelease t) s = .next (s.advance t).fireRises := by
  refine congrArg Host.Outcome.next (if_pos ?_)
  rcases due with free | past
  · rw [State.advance_cap, free]; rfl
  · rw [State.advance_now_eq, State.advance_cap, State.advance_rd, decide_eq_true past, Bool.or_true]

theorem exec_xtrgFireRelease_early (pulls : s.cap.pulling ≠ [])
    (early : max s.now t < s.cap.fireAt + max 2 (s.rd Reg.CAP_XTRG_FIRE_W_US []) * usU) :
    exec (.xtrgFireRelease t) s = .next (s.advance t) := by
  refine congrArg Host.Outcome.next (if_neg ?_)
  rw [State.advance_now_eq, State.advance_cap, State.advance_rd, decide_eq_false (Nat.not_le.mpr early), Bool.or_false]
  exact mt List.isEmpty_iff.mp pulls

theorem exec_xtrgSyncRelease_due (due : ∀ r, s.cap.syncAt = some r → r + 10 * usU ≤ max s.now t) :
    exec (.xtrgSyncRelease t) s = .next (s.advance t).syncRises := by
  refine congrArg Host.Outcome.next (if_neg ?_)
  rw [State.advance_cap]
  split
  case h_1 r pulled => exact mt of_decide_eq_true (Nat.not_lt.mpr (due r pulled))
  case h_2 => exact Bool.false_ne_true

theorem exec_xtrgSyncRelease_early {r : Time} (pulled : s.cap.syncAt = some r) (early : max s.now t < r + 10 * usU) :
    exec (.xtrgSyncRelease t) s = .next (s.advance t) := by
  refine congrArg Host.Outcome.next (if_pos ?_)
  rw [State.advance_cap, pulled]
  exact decide_eq_true early

theorem exec_syncGo (takes : s.takesWrite (Reg.CAP_XTRG_SYNC_GO.off [])) : exec (.syncGo w) s = .next (s.xtrgWrite w) :=
  congrArg Host.Outcome.next (State.hostGate_takes takes _ _)

/-- A write of CAP_XTRG as its other fields take it. -/
def State.xtrgStored (s : State) (w : Word) : State :=
  (s.store (Reg.CAP_XTRG_SYNC_GO.off []) w).setFlag Reg.CAP_XTRG_SYNC_GO [] false

theorem State.xtrgWrite_pulls (go : w.getLsbD 0 = true) (drives : (s.xtrgStored w).xDrives = true) : s.xtrgWrite w =
    ({ s.xtrgStored w with cap := { (s.xtrgStored w).cap with syncAt := some (s.xtrgStored w).now } } : State).setFlag
      Reg.CAP_XTRG_SYNC_LINE [] false :=
  if_pos ((Bool.and_eq_true ..).mpr ⟨go, drives⟩)

theorem State.xtrgWrite_rests (rests : w.getLsbD 0 = false ∨ (s.xtrgStored w).xDrives = false) : s.xtrgWrite w = s.xtrgStored w :=
  if_neg (ne_true_of_eq_false ((Bool.and_eq_false_iff ..).mpr rests))

/-- Settles O45: a unit's commands by its state, the lines' edges and releases by their rows. -/
theorem captureAndTriggerLines : Obligations.CaptureAndTriggerLines := by
  refine ⟨fun u s => ⟨fun takes => ?_, fun takes => ?_, fun w takes => ?_⟩, fun t s => exec_xtrgFireEdge_low, fun t s => exec_xtrgSyncEdge_low,
    fun t s a high ha => ?_, fun t s a high ha => ?_, fun t u s => ⟨State.capEdge_stays, fun h => ?_⟩,
    fun t s => ⟨exec_xtrgFireRelease_due, exec_xtrgFireRelease_early⟩, fun t s => exec_xtrgSyncRelease_due,
    fun t r s => exec_xtrgSyncRelease_early, fun w s a takes ha => ?_⟩
  · rw [exec_capArm takes]
    exact ⟨fun stopped => congrArg Host.Outcome.next (if_pos stopped), fun other => congrArg Host.Outcome.next (if_neg other)⟩
  · rw [exec_capForce takes]
    exact ⟨fun waits => congrArg Host.Outcome.next (if_pos waits), fun post => congrArg Host.Outcome.next (State.capForceWrite_post post),
      fun out => congrArg Host.Outcome.next (State.capForceWrite_ignored out)⟩
  · rw [exec_capAck takes]
    exact ⟨fun frees => congrArg Host.Outcome.next (if_neg (ne_true_of_eq_false frees)),
      fun keeps => congrArg Host.Outcome.next (if_pos keeps)⟩
  · rw [exec_xtrgFireEdge_high high ha]
    exact ⟨fun off => by rw [if_neg (ne_true_of_eq_false off)], fun on => by rw [if_pos on]⟩
  · rw [exec_xtrgSyncEdge_high high ha]
    exact ⟨fun off => by rw [if_neg (ne_true_of_eq_false off)], fun on => by rw [if_pos on]⟩
  · rw [State.capEdge_answers h]
    exact ⟨fun held => if_pos held, fun free => if_neg (ne_true_of_eq_false free)⟩
  · subst ha
    rw [exec_syncGo takes]
    exact ⟨fun go drives => congrArg Host.Outcome.next (State.xtrgWrite_pulls go drives),
      fun rests => congrArg Host.Outcome.next (State.xtrgWrite_rests rests)⟩

end Sys2Proof.Machine
end

section
/-! PROOFS of the family 11_pair: heartbeats, silent paths, lanes, the join timeout, and switchovers. -/
namespace Sys2Proof.Machine

variable {s a : State} {t : Time} {l : Fin 2}

/-! ### Heartbeats that are sent (R423, R424) -/

theorem State.refreshScore_eq (s : State) : ∃ score lost, s.refreshScore =
    ((s.wr Reg.PAIR_HEALTH_SCORE [] score).wr Reg.PAIR_HEALTH_SORTERS_LOST [] lost).weighRoles := ⟨_, _, rfl⟩

theorem State.weighRoles_now (s : State) : s.weighRoles.now = s.now := rfl

theorem State.weighRoles_hbSeq (s : State) : s.weighRoles.pair.hbSeq = s.pair.hbSeq := rfl

theorem State.rd_weighRoles (s : State) (f : Fld) (idx : List Nat) : s.weighRoles.rd f idx = s.rd f idx := State.rd_congr rfl f idx

/-- The health that is shown stands beside the lanes. -/
theorem State.rd_lanes_refreshScore (s : State) : s.refreshScore.rd Reg.PAIR_STAT_LANES [] = s.rd Reg.PAIR_STAT_LANES [] := by
  obtain ⟨score, lost, eq⟩ := s.refreshScore_eq
  rw [eq, State.rd_weighRoles, State.rd_wr_off _ _ (by decide), State.rd_wr_off _ _ (by decide)]

theorem State.refreshScore_now (s : State) : s.refreshScore.now = s.now := by
  obtain ⟨score, lost, eq⟩ := s.refreshScore_eq
  rw [eq, State.weighRoles_now, State.wr_now, State.wr_now]

/-- The number of the next heartbeat is no part of the roles. -/
theorem State.refreshScore_hbSeq (s : State) : s.refreshScore.pair.hbSeq = s.pair.hbSeq := by
  obtain ⟨score, lost, eq⟩ := s.refreshScore_eq
  rw [eq, State.weighRoles_hbSeq, State.wr_pair, State.wr_pair]

theorem State.showSilent_out (s : State) : s.showSilent.out = s.out := (State.wr_out ..).trans (State.wr_out ..)

theorem State.showSilent_pair (s : State) : s.showSilent.pair = s.pair := (State.wr_pair ..).trans (State.wr_pair ..)

/-- Outputs that depend on their number and the time go out one after the other. -/
theorem forEach_emit (out : Nat → Time → Output) (xs : List Nat) (s : State) :
    forEach xs (fun n a => a.emit (out n a.now)) s = { s with out := s.out ++ xs.map fun n => out n s.now } := by
  induction xs generalizing s with
  | nil => rw [List.map_nil, List.append_nil]; rfl
  | cons n ns ih => rw [List.map_cons, List.append_cons]; exact ih _

/-- Path A carries the word in a frame of type 1 on each lane that is up. -/
theorem State.hbFrames_eq (s : State) (w : Nat) : s.hbFrames w = { s with out := s.out ++
    (([0, 1].filter fun n => s.rd Reg.PAIR_STAT_LANES [] / 2 ^ n % 2 == 1).map fun n =>
      Output.plk n (PlkFrame.bytes ⟨1, false, 0, leBytes 8 w⟩ false s.now)) } :=
  forEach_emit (fun n now => .plk n (PlkFrame.bytes ⟨1, false, 0, leBytes 8 w⟩ false now)) _ s

theorem exec_heartbeatSend_member (on : s.powered = true) (member : s.flag Reg.PAIR_CFG_EN [] = true) :
    ∃ u, exec (.heartbeatSend t) s = .next u ∧ u.pair.hbSeq = (s.pair.hbSeq + 1) % 65536 ∧
      u.out = (s.advance t).refreshScore.out ++
        (([0, 1].filter fun n => s.rd Reg.PAIR_STAT_LANES [] / 2 ^ n % 2 == 1).map fun n => Output.plk n
          (PlkFrame.bytes ⟨1, false, 0, leBytes 8 (s.advance t).refreshScore.hbWord⟩ false (max s.now t))) ++
        [.heartbeat true (s.advance t).refreshScore.hbWord] := by
  refine ⟨_, congrArg Host.Outcome.next (if_neg ?_), ?_, ?_⟩
  · rintro (off | alone)
    · exact absurd (on.symm.trans off) (by decide)
    · exact absurd (member.symm.trans alone) (by decide)
  · rw [State.showSilent_pair, State.hbFrames_eq]
    exact congrArg (fun n => (n + 1) % 65536) (s.advance t).refreshScore_hbSeq
  · rw [State.showSilent_out, State.hbFrames_eq, State.rd_lanes_refreshScore, State.refreshScore_now]
    rfl

theorem exec_heartbeatSend_idle (off : s.powered = false ∨ s.flag Reg.PAIR_CFG_EN [] = false) :
    exec (.heartbeatSend t) s = .next (s.advance t) := congrArg Host.Outcome.next (if_pos off)

/-! ### Heartbeats that come, and paths that fall silent (R424, R425) -/

theorem exec_heartbeatReceived_taken {b : Bool} {w : BitVec 64} (on : s.powered = true) (member : s.flag Reg.PAIR_CFG_EN [] = true)
    (valid : hbValid w.toNat = true) : exec (.heartbeatReceived b w t) s = .next ((s.advance t).heartbeat b w.toNat) := by
  refine congrArg Host.Outcome.next (if_pos ?_)
  rw [State.advance_powered, State.advance_flag, on, member, valid]; rfl

theorem exec_heartbeatReceived_dropped {b : Bool} {w : BitVec 64}
    (drop : s.powered = false ∨ s.flag Reg.PAIR_CFG_EN [] = false ∨ hbValid w.toNat = false) :
    exec (.heartbeatReceived b w t) s = .next (s.advance t) := by
  refine congrArg Host.Outcome.next (if_neg ?_)
  rw [State.advance_powered, State.advance_flag]
  rcases drop with off | alone | invalid
  · simp [off]
  · simp [alone]
  · simp [invalid]

theorem exec_pathSilent_due {b : Bool} (due : (s.advance t).silentDue b = true) :
    exec (.pathSilent b t) s = .next ((s.advance t).goSilent b) := congrArg Host.Outcome.next (if_pos due)

theorem exec_pathSilent_early {b : Bool} (early : (s.advance t).silentDue b = false) :
    exec (.pathSilent b t) s = .next (s.advance t) := congrArg Host.Outcome.next (if_neg (ne_true_of_eq_false early))

/-- The times since the last words stand beside the state of the paths. -/
theorem State.rd_stat_showSilent {f : Fld} (s : State) (stat : f.off [] = 0x100004) : s.showSilent.rd f [] = s.rd f [] :=
  (State.rd_wr_off _ _ (by rw [stat]; decide)).trans (State.rd_wr_off _ _ (by rw [stat]; decide))

theorem State.flag_stat_showSilent {f : Fld} (s : State) (stat : f.off [] = 0x100004) : s.showSilent.flag f [] = s.flag f [] := by
  unfold State.flag; rw [State.rd_stat_showSilent s stat]

/-- Path A is shown silent. -/
def State.pathASilent (s : State) : State := (s.setFlag Reg.PAIR_STAT_PATH_A [] false).showSilent

theorem State.pathASilent_pathA (s : State) : s.pathASilent.flag Reg.PAIR_STAT_PATH_A [] = false :=
  (State.flag_stat_showSilent _ rfl).trans (State.flag_setFlag_same _ _ rfl rfl rfl)

theorem State.pathASilent_pathB (s : State) : s.pathASilent.flag Reg.PAIR_STAT_PATH_B [] = s.flag Reg.PAIR_STAT_PATH_B [] :=
  (State.flag_stat_showSilent _ rfl).trans (State.flag_setFlag_bits _ rfl rfl (by decide))

theorem State.pathASilent_pair (s : State) : s.pathASilent.pair = s.pair := (State.showSilent_pair _).trans (State.setFlag_pair ..)

theorem State.pathASilent_mode (s : State) : s.pathASilent.mode = s.mode :=
  (State.showSilent_in (M := 0x2000000000000) rfl (State.setFlag_in rfl rfl (.refl s))).mode rfl rfl

/-- While path B lives, a silent path A is only noticed. -/
theorem State.goSilent_pathA (lives : s.flag Reg.PAIR_STAT_PATH_B [] = true) : s.goSilent false = s.pathASilent.notice bPAIR 2 0 0 0 := by
  refine if_pos (c := (_ || _) = true) ?_
  exact Bool.or_eq_true_iff.mpr (.inr (s.pathASilent_pathB.trans lives))

theorem exec_pathSilent_pathA (due : (s.advance t).silentDue false = true) (lives : s.flag Reg.PAIR_STAT_PATH_B [] = true) :
    ∃ u, exec (.pathSilent false t) s = .next u ∧ u.flag Reg.PAIR_STAT_PATH_A [] = false ∧ u.flag Reg.PAIR_STAT_PATH_B [] = true ∧
      u.noticed bPAIR 2 ∧ u.mode = s.mode ∧ u.pair = s.pair := by
  refine ⟨_, (exec_pathSilent_due due).trans (congrArg Host.Outcome.next (State.goSilent_pathA (s := s.advance t) lives)), ?_, ?_, ?_, ?_, ?_⟩
  · exact (State.flag_notice _ _ _ _ _ _ rfl rfl (by decide)).trans (State.pathASilent_pathA _)
  · exact (State.flag_notice _ _ _ _ _ _ rfl rfl (by decide)).trans ((State.pathASilent_pathB _).trans lives)
  · exact State.notice_bit _ _ _ _ (by decide)
  · exact ((State.notice_within _ _ _ _ _ _).mode rfl rfl).trans (State.pathASilent_mode _)
  · exact ((State.notice_within _ _ _ _ _ _).parts .pair rfl).trans (State.pathASilent_pair _)

/-! ### The join timeout (R405) -/

theorem exec_joinTimeout_due (watch : s.mode = .watch) (run : s.flag Reg.GLB_MODE_RUN_EN [] = true)
    (deafA : s.flag Reg.PAIR_STAT_PATH_A [] = false) (deafB : s.flag Reg.PAIR_STAT_PATH_B [] = false)
    (due : s.pair.runAt + clampN 100 65535 (s.rd Reg.PAIR_CFG_JOIN_MS []) * msU ≤ max s.now t) :
    exec (.joinTimeout t) s = .next (({ s.advance t with pair := { s.pair with joinOver := true } } : State).runCheck) := by
  refine congrArg Host.Outcome.next (if_pos ⟨watch, run, ?_, decide_eq_true due⟩)
  exact Bool.or_eq_false_iff.mpr ⟨deafA, deafB⟩

/-! ### Lanes (R407) -/

/-- A lane that is down has room for its bit. -/
theorem State.lanes_add_lt (down : s.rd Reg.PAIR_STAT_LANES [] / 2 ^ l.val % 2 = 0) : s.rd Reg.PAIR_STAT_LANES [] + 2 ^ l.val < 4 := by
  have two : s.rd Reg.PAIR_STAT_LANES [] < 4 := s.rd_lt Reg.PAIR_STAT_LANES []
  have either : l.val = 0 ∨ l.val = 1 := by omega
  rcases either with first | second
  · rw [first] at down ⊢; omega
  · rw [second] at down ⊢; omega

/-- The lanes as they are shown from now on, with their notice. -/
theorem State.lanes_shown {m up : Nat} (two : m < 4) (ha : a = (s.wr Reg.PAIR_STAT_LANES [] m).notice bPAIR 3 l up 0) :
    a.rd Reg.PAIR_STAT_LANES [] = m ∧ a.noticed bPAIR 3 := by
  subst ha
  refine ⟨?_, State.notice_bit _ _ _ _ (by decide)⟩
  rw [State.rd_notice _ _ _ _ _ _ rfl rfl (by decide), State.rd_wr_same _ _ rfl rfl]
  exact Nat.mod_eq_of_lt two

theorem exec_laneUp_first (on : s.powered = true) (down : s.rd Reg.PAIR_STAT_LANES [] / 2 ^ l.val % 2 = 0)
    (ha : a = ((s.advance t).wr Reg.PAIR_STAT_LANES [] (s.rd Reg.PAIR_STAT_LANES [] + 2 ^ l.val)).notice bPAIR 3 l 1 0) :
    exec (.laneUp l t) s = .next (if s.rd Reg.PAIR_STAT_LANES [] = 0 ∧ a.flag Reg.PAIR_CFG_EN [] = true ∧
      (a.pair.peer = none ∨ a.flag Reg.PAIR_STAT_DATA_DOWN [] = true) then a.sayHello else a) := by
  subst ha
  refine congrArg Host.Outcome.next (if_neg ?_)
  rintro (off | up)
  · exact absurd (on.symm.trans off) (by decide)
  · exact absurd (down.symm.trans up) (by decide)

theorem exec_laneUp_idle (idle : s.powered = false ∨ s.rd Reg.PAIR_STAT_LANES [] / 2 ^ l.val % 2 = 1) :
    exec (.laneUp l t) s = .next (s.advance t) := congrArg Host.Outcome.next (if_pos idle)

theorem exec_laneDown_up {errs : Bool} (up : s.rd Reg.PAIR_STAT_LANES [] / 2 ^ l.val % 2 = 1)
    (ha : a = ((s.advance t).wr Reg.PAIR_STAT_LANES [] (s.rd Reg.PAIR_STAT_LANES [] - 2 ^ l.val)).notice bPAIR 3 l 0 0) :
    exec (.laneDown l errs t) s = .next (if errs && a.processing then a.selfTestFail 5 else a) := by
  subst ha
  refine congrArg Host.Outcome.next (if_neg ?_)
  exact fun down => absurd (up.symm.trans down) (by decide)

theorem exec_laneDown_idle {errs : Bool} (down : s.rd Reg.PAIR_STAT_LANES [] / 2 ^ l.val % 2 = 0) :
    exec (.laneDown l errs t) s = .next (s.advance t) := congrArg Host.Outcome.next (if_pos down)

/-- Showing the lanes leaves the mode. -/
theorem State.processing_lanes {m up : Nat} (ha : a = (s.wr Reg.PAIR_STAT_LANES [] m).notice bPAIR 3 l up 0) :
    a.processing = s.processing := by
  have within : Within 0x412000100800004 s a := by
    subst ha
    exact State.notice_in rfl (State.wr_in rfl (.refl s))
  unfold State.processing
  rw [within.mode rfl rfl]

/-- Settles O46: heartbeats sent and received, a path that falls silent, the join timeout, and lanes going up and down. -/
theorem heartbeats : Obligations.Heartbeats := by
  refine ⟨fun t s on member => exec_heartbeatSend_member on member, fun t s off => exec_heartbeatSend_idle off,
    fun b w t s => ⟨exec_heartbeatReceived_taken, exec_heartbeatReceived_dropped⟩,
    fun t s due lives => exec_pathSilent_pathA due lives, fun b t s due => exec_pathSilent_due due,
    fun b t s early => exec_pathSilent_early early,
    fun t s watch run deafA deafB due => exec_joinTimeout_due watch run deafA deafB due,
    fun l t s a on down ha => ?_, fun l errs t s a up ha => ?_,
    fun l t s => ⟨exec_laneUp_idle, fun errs down => exec_laneDown_idle down⟩⟩
  · obtain ⟨shown, told⟩ := State.lanes_shown (State.lanes_add_lt down) ha
    refine ⟨shown, told, fun first member hello => ?_, fun silent => ?_⟩
    · exact (exec_laneUp_first on down ha).trans (congrArg Host.Outcome.next (if_pos ⟨first, member, hello⟩))
    · refine (exec_laneUp_first on down ha).trans (congrArg Host.Outcome.next (if_neg ?_))
      rintro ⟨first, member, hello⟩
      rcases silent with second | alone | ⟨known, carries⟩
      · exact second first
      · exact absurd (member.symm.trans alone) (by decide)
      · rcases hello with unknown | down
        · rw [unknown] at known; exact absurd known (by decide)
        · exact absurd (down.symm.trans carries) (by decide)
  · have two : s.rd Reg.PAIR_STAT_LANES [] - 2 ^ l.val < 4 := (Nat.sub_le _ _).trans_lt (s.rd_lt Reg.PAIR_STAT_LANES [])
    have mode : a.processing = s.processing := State.processing_lanes (s := s.advance t) ha
    obtain ⟨shown, told⟩ := State.lanes_shown two ha
    refine ⟨shown, told, fun well => ?_, fun errors processes => ?_⟩
    · refine (exec_laneDown_up up ha).trans (congrArg Host.Outcome.next (if_neg ?_))
      rcases well with loss | stopped
      · simp [loss]
      · simp [mode, stopped]
    · refine (exec_laneDown_up up ha).trans (congrArg Host.Outcome.next (if_pos ?_))
      rw [errors, mode, processes]; rfl

/-! ### HELLO (R404) -/

section
variable {f : PlkHead} {h : HelloMsg}

theorem exec_hello_heard (hears : (s.advance h.t).plkHears f = true) : exec (.hello ⟨f, h⟩) s = .next
    (if (s.advance h.t).helloTwice f then (s.advance h.t).rxCounted f.frames else ((s.advance h.t).restartRx f).hello h) :=
  congrArg Host.Outcome.next (if_neg (by rw [hears]; decide))

theorem exec_hello_unheard (deaf : (s.advance h.t).plkHears f = false) : exec (.hello ⟨f, h⟩) s = .next (s.advance h.t) :=
  congrArg Host.Outcome.next (if_pos (by rw [deaf]; rfl))

end

/-! ### Offers and answers (R429) -/

section
variable {f : PlkHead} {k : Nat} {w : Switch}

/-- The next frame of an ordered stream takes its effect. -/
theorem State.linkRow_inOrder {second : Bool} (hears : s.plkHears f = true) (next : s.inOrder second f = true) (eff : State → State) :
    s.linkRow second f eff = eff (s.received second f) :=
  (if_neg (by rw [hears]; decide)).trans (if_pos next)

theorem State.offered_ready (standby : s.holding = true) (ready : s.flag Reg.PAIR_STAT_READY [] = true) : s.offered k =
    ({ s with pair := { s.pair with switch := some ⟨k, false, true, if s.pair.revertDue then 4 else 5⟩ } } : State).plkSend
      (.switchAccept k) :=
  (if_neg (by rw [standby]; decide)).trans (if_pos ready)

theorem State.offered_unready (standby : s.holding = true) (unready : s.flag Reg.PAIR_STAT_READY [] = false) :
    s.offered k = s.plkSend .switchRefuse :=
  (if_neg (by rw [standby]; decide)).trans (if_neg (ne_true_of_eq_false unready))

theorem State.offered_elsewhere (other : s.holding = false) : s.offered k = s := if_pos (by rw [other]; rfl)

theorem State.accepted_some (begun : s.pair.switch = some w) : s.accepted k =
    if w.mine && w.k == k then { s with pair := { s.pair with switch := some { w with agreed := true } } } else s := by
  unfold State.accepted
  rw [begun]

theorem State.accepted_none (closed : s.pair.switch = none) : s.accepted k = s := by
  unfold State.accepted
  rw [closed]

theorem State.accepted_mine (begun : s.pair.switch = some w) (mine : w.mine = true) (same : w.k = k) :
    s.accepted k = { s with pair := { s.pair with switch := some { w with agreed := true } } } :=
  (State.accepted_some begun).trans (if_pos (by rw [mine, same, beq_self_eq_true]; rfl))

theorem State.accepted_other (begun : s.pair.switch = some w) (other : w.mine = false ∨ w.k ≠ k) : s.accepted k = s := by
  refine (State.accepted_some begun).trans (if_neg ?_)
  rcases other with theirs | apart
  · simp [theirs]
  · simp [apart]

theorem State.offerRefused_some (begun : s.pair.switch = some w) : s.offerRefused = if w.mine then s.switchFail else s := by
  unfold State.offerRefused
  rw [begun]

theorem State.offerRefused_none (closed : s.pair.switch = none) : s.offerRefused = s := by
  unfold State.offerRefused
  rw [closed]

/-- The three rows of a switchover's frames, for a frame next in order. -/
theorem exec_switch_inOrder (hears : (s.advance t).plkHears f = true) (next : (s.advance t).inOrder false f = true)
    (ha : a = (s.advance t).received false f) :
    exec (.switchOffer ⟨f, k⟩ t) s = .next (a.offered k) ∧ exec (.switchAccept ⟨f, k⟩ t) s = .next (a.accepted k) ∧
      exec (.switchRefuse ⟨f, t⟩) s = .next a.offerRefused := by
  subst ha
  have row (eff : State → State) : (.next ((s.advance t).linkRow false f eff) : Res) = .next (eff ((s.advance t).received false f)) :=
    congrArg Host.Outcome.next (State.linkRow_inOrder hears next eff)
  exact ⟨row _, row _, row _⟩

end

/-! ### Reverting and automatic switchover (R430, R433) -/

theorem State.heldFor_some {d r : Time} {since : Option Time} (marked : since = some r) : s.heldFor since d = decide (r + d ≤ s.now) := by
  rw [marked]; rfl

section
variable {r : Time}

theorem exec_revert_since (revert : s.flag Reg.PAIR_CFG_REVERT [] = true) (fit : s.revertFit = true) (since : s.pair.fitSince = some r) :
    exec (.revert t) s = .next (if max s.now t < r + s.revertTime then s.advance t
      else if s.holding then { s.advance t with pair := { s.pair with revertDue := true } }
      else if s.pair.switch.isNone then (s.advance t).switchStart 4 else s.advance t) := by
  refine congrArg Host.Outcome.next (if_congr ?_ rfl rfl)
  rw [State.advance_flag, State.advance_revertFit, State.advance_pair, State.advance_revertTime, State.heldFor_some since,
    State.advance_now_eq, revert, fit]
  simp

/-- An automatic switchover was begun within the last gap. -/
def State.autoSoon (s : State) (t : Time) : Bool :=
  match s.pair.lastAuto with | some u => decide (max s.now t < u + s.revertTime) | none => false

theorem State.autoSoon_some {u : Time} (last : s.pair.lastAuto = some u) : s.autoSoon t = decide (max s.now t < u + s.revertTime) := by
  unfold State.autoSoon
  rw [last]

theorem State.autoSoon_false (apart : ∀ u, s.pair.lastAuto = some u → u + s.revertTime ≤ max s.now t) : s.autoSoon t = false := by
  cases last : s.pair.lastAuto with
  | none => unfold State.autoSoon; rw [last]
  | some u => rw [State.autoSoon_some last]; exact decide_eq_false (Nat.not_lt.mpr (apart u last))

theorem exec_autoSwitchover_since (auto : s.flag Reg.PAIR_CFG_AUTO_SW [] = true) (ahead : s.partnerAhead = true)
    (since : s.pair.aheadSince = some r) (idle : s.pair.switch = none) :
    exec (.autoSwitchover t) s = .next (if r + 10 * second ≤ max s.now t ∧ s.autoSoon t = false then
      ({ s.advance t with pair := { s.pair with lastAuto := some (max s.now t) } } : State).switchStart 5 else s.advance t) := by
  refine congrArg Host.Outcome.next (if_congr ?_ rfl rfl)
  change (s.flag Reg.PAIR_CFG_AUTO_SW [] && s.partnerAhead && (s.advance t).heldFor s.pair.aheadSince (10 * second) && !s.autoSoon t &&
    s.pair.switch.isNone) = true ↔ _
  rw [auto, ahead, State.heldFor_some since, State.advance_now_eq, idle]
  simp

end

/-- Settles O47: each frame that is next in order acts through its effect on the state that has received it; reverting and automatic
switchover act once their condition has stood for its time. -/
theorem switchovers : Obligations.Switchovers := by
  refine ⟨fun f h s => ⟨fun hears once => ?_, fun hears twice => ?_, exec_hello_unheard⟩, fun f k t s a hears next ha => ?_,
    fun t r s revert fit since => ?_, fun t r s auto ahead since idle => ?_⟩
  · exact (exec_hello_heard hears).trans (congrArg Host.Outcome.next (if_neg (ne_true_of_eq_false once)))
  · exact (exec_hello_heard hears).trans (congrArg Host.Outcome.next (if_pos twice))
  · obtain ⟨offer, accept, refuse⟩ := exec_switch_inOrder (k := k) hears next ha
    refine ⟨fun standby ready => ?_, fun standby unready => ?_, fun other => ?_, fun w begun mine same => ?_, fun w begun other => ?_,
      fun w begun mine => ?_, fun w begun theirs => ?_, fun closed => ⟨?_, ?_⟩⟩
    · rw [offer, State.offered_ready standby ready]
    · rw [offer, State.offered_unready standby unready]
    · rw [offer, State.offered_elsewhere other]
    · rw [accept, State.accepted_mine begun mine same]
    · rw [accept, State.accepted_other begun other]
    · rw [refuse, State.offerRefused_some begun, if_pos mine]
    · rw [refuse, State.offerRefused_some begun, if_neg (ne_true_of_eq_false theirs)]
    · rw [accept, State.accepted_none closed]
    · rw [refuse, State.offerRefused_none closed]
  · refine ⟨fun early => ?_, fun due => ⟨fun standby => ?_, fun active idle => ?_⟩⟩
    · rw [exec_revert_since revert fit since, if_pos early]
    · rw [exec_revert_since revert fit since, if_neg (Nat.not_lt.mpr due), if_pos standby]
    · rw [exec_revert_since revert fit since, if_neg (Nat.not_lt.mpr due), if_neg (ne_true_of_eq_false active), idle, Option.isNone_none,
        if_pos rfl]
  · have row := exec_autoSwitchover_since (t := t) auto ahead since idle
    refine ⟨fun early => row.trans (congrArg Host.Outcome.next (if_neg fun due => absurd due.1 (Nat.not_le.mpr early))),
      fun u last early => row.trans (congrArg Host.Outcome.next (if_neg fun due => ?_)),
      fun due apart => row.trans (congrArg Host.Outcome.next (if_pos ⟨due, State.autoSoon_false apart⟩))⟩
    have soon : s.autoSoon t = true := (State.autoSoon_some last).trans (decide_eq_true early)
    exact absurd (soon.symm.trans due.2) (by decide)

end Sys2Proof.Machine
end
